-- ==== Sys2Proof/Word.lean ====
section
/-! DEFINITION. The word types of the GY1600 model and the plain data shared by commands and state: message words,
bytes, time of day, roles, mailbox paths. -/

namespace Sys2Proof

/-- A 32-bit message or page word. -/
abbrev Word := BitVec 32

/-- A byte of NVM, DRAM, the bulk window or a file format. -/
abbrev Byte := BitVec 8

/-- One beat: the 40 data bits of a sensor port sampled on one clock edge (R57). -/
abbrev Beat := BitVec 40

/-- A time of day of R12 held as a count: whole seconds and a fraction in units of 2^-16 ns (below 10^9 * 2^16). -/
structure Tod where
  sec : Nat
  frac : Nat
deriving DecidableEq, Repr, Inhabited

/-- The four readings of ROLE[1:0] (R4). -/
inductive Role where
  | integrated
  | head
  | body
  | reserved
deriving DecidableEq, Repr, Inhabited

/-- The two part codes of R1. -/
inductive Part where
  | k
  | h
deriving DecidableEq, Repr, Inhabited

/-- The register views of the mailbox layout of R386: PCIe (BAR2) and the SPI target (R685). -/
inductive View where
  | pcie
  | spi
deriving DecidableEq, Repr, Inhabited

/-- The path a request came by (R684). A UDP path is its source address and port (R686). -/
inductive Path where
  | regs (v : View)
  | udp (ip port : Nat)
  | fwd (group : Nat)
  | array
  | internal
deriving DecidableEq, Repr, Inhabited

/-- What training or a detector finds on a pair of a sensor port (R72). A short whose other pair is not known names its own. -/
inductive PairFault where
  | openPair
  | stuck
  | short (other : Nat)
  | leg
deriving DecidableEq, Repr, Inhabited

/-- What a pair samples at the delay steps `first` to `last` (R67 step 4): the levels of its first edges, which repeat to 256
edges. Edge 0 falls on beat 0 of the pattern. -/
structure StepSamples where
  first : Nat
  last : Nat
  bits : List Bool
deriving DecidableEq, Repr, Inhabited

/-- What the training of a port observes on one pair: its samples by delay step; whether its swing is below 50 mV and its
common mode out of range; and the levels that step 8 samples on it, which repeat to 4,096 edges. Steps in no range sample
no stable level. -/
structure PairObs where
  samples : List StepSamples
  low : Bool
  leg : Bool
  check : List Bool
deriving DecidableEq, Repr, Inhabited

/-- How a script run outside the sequencer ends (R67, R80). -/
inductive ScriptEnd where
  | done
  | busError
  | mismatch
deriving DecidableEq, Repr, Inhabited

/-- What one pass of R67 steps 2 to 8 observes on a port: the measured clock in kHz (none: no clock) and its 44 pairs,
D0 to D39, then FV, LV, DV and CK. `scripts` says how INIT_SCRIPT, TRAIN_ON_SCRIPT and TRAIN_OFF_SCRIPT end. -/
structure TrainObs where
  clockKHz : Option Nat
  pairs : List PairObs
  scripts : List ScriptEnd
deriving DecidableEq, Repr, Inhabited

/-- The outcome of one control bus entry on the wire (R80). -/
inductive BusResult where
  | ack
  | nack
  | read (value : Nat)
  | busFault
deriving DecidableEq, Repr, Inhabited

/-- The driven single-ended balls whose level is read back (R88, R537, R618). -/
inductive Ball where
  | xtrig (n : Nat)
  | sc (n io : Nat)
  | ppsOut
  | aud (p pin : Nat)
  | mclk (i : Nat)
deriving DecidableEq, Repr, Inhabited

/-- What a readback 100 ns after an edge shows (R88). -/
inductive Readback where
  | good
  | atRail
  | contention
deriving DecidableEq, Repr, Inhabited

/-- What the verifier of a compression engine finds (R248 to R250). [DESIGN CHOICE, log 111] -/
inductive VerifyResult where
  | match_
  | codedMismatch
  | rawMismatchTwice
deriving DecidableEq, Repr, Inhabited

/-- One submission queue entry of the host's NVMe driver (NVMe 2.0 subset of R369 and R370). -/
structure NvmeCmd where
  opc : Nat
  cid : Nat
  nsid : Nat
  prp1 : Nat
  cdw10 : Nat
  cdw11 : Nat
  cdw12 : Nat
deriving DecidableEq, Repr, Inhabited

/-- An output of R465: an SDI output or a network sender. -/
inductive OutId where
  | sdi (k : Nat)
  | snd (s : Nat)
deriving DecidableEq, Repr, Inhabited

/-- Where DRAM delivered too late in a viewfinder update: the rectangle, its line, and the pixels of it that were in time (R601). -/
structure VfLate where
  rect : Nat
  line : Nat
  pixels : Nat
deriving DecidableEq, Repr, Inhabited

/-- A received Ethernet frame as a MAC classifies it (R477). -/
inductive EthKind where
  | arpRequest (ip : Nat) (senderIp senderMac : Nat := 0)
  | arpReply (ip mac : Nat)
  | icmpEcho (ip : Nat := 0) (icmp : List Byte := [])
  | ptp
  /-- a PTP management message, or one with TLVs that R499 does not support. -/
  | ptpOther
  | mailboxUdp
  | pause
  | other
  /-- the kind of a frame of so many bytes with these 802.1Q tags (VLAN identifiers); the others stand for untagged frames. -/
  | framed (bytes : Nat) (tags : List Nat) (kind : EthKind)
deriving DecidableEq, Repr, Inhabited

/-- The fields of a received PTP message that the processor uses (R496, R499 to R503). `stamp` is the arrival stamp
of the event messages; `origin` the origin, precise origin or receive timestamp the message carries. -/
structure PtpMsg where
  domain : Nat
  srcClock : Nat
  srcPort : Nat
  seq : Nat
  twoStep : Bool
  origin : Tod
  correction : Int
  stamp : Tod
  reqClock : Nat
  reqPort : Nat
deriving DecidableEq, Repr, Inhabited

/-- The data set of a received Announce that the BMCA compares (R499, R502). -/
structure AnnounceMsg where
  domain : Nat
  srcClock : Nat
  srcPort : Nat
  priority1 : Nat
  clockClass : Nat
  accuracy : Nat
  variance : Nat
  priority2 : Nat
  gmClock : Nat
  stepsRemoved : Nat
  utcOffset : Int
  utcValid : Bool
deriving DecidableEq, Repr, Inhabited

/-- The message a PTP port sends on its timer (R502). -/
inductive PtpSend where
  | sync
  | announce
  | delayReq
deriving DecidableEq, Repr, Inhabited

/-- What a requester of the DRAM controller reads or writes, by the rows of R633: a frame of a seam (ingest, pipeline), a
statistics buffer, a compression job, a picture or an access unit of a codec stream, the buffer of an output or a panel, a
block of an audio port, a host command, a recorder structure, or control memory. -/
inductive DramClient where
  | frame (seam num : Nat)
  | statistics (seam : Nat)
  | compressor (job : Nat)
  | encoder (m : Nat)
  | decoder (m : Nat)
  | output (o : OutId)
  | viewfinder (k : Nat)
  | audio (p : Nat)
  | endpoint (arrival : Nat)
  | recorder
  | control
deriving DecidableEq, Repr, Inhabited

/-- One recorded position of a stream in a state copy (R568 type 5): unit frame number, chain byte offsets, and the last granules
of the data, table and list chains. -/
structure RecPosition where
  unit : Nat
  dataBytes : Nat
  frames : Nat
  listBytes : Nat
  last : List Nat := []
deriving DecidableEq, Repr, Inhabited

/-- The loop section of a state copy for one seam (R568 type 2). -/
structure LoopCopy where
  tr : Option Nat
  tagCounter : Nat
  e : Nat
  g : Nat
  lines : Nat
  gainCode : Nat
  acc : List Nat
  gainR : Nat
  gainB : Nat
  k : List Nat
deriving DecidableEq, Repr, Inhabited

/-- The rate-control section of a state copy for one encode stream (R568 type 4, R293). -/
structure RcCopy where
  qpLast : List Nat
  costLast : List Nat
  dev : Int
  weights : List (List Nat)
  fk : Nat
  k : Nat
deriving DecidableEq, Repr, Inhabited

/-- A scheduled command (R512, R513). `order` is the order of acceptance. -/
structure Sched where
  target : Tod
  order : Nat
  chan : Nat
  path : Path
  words : List Word
deriving DecidableEq, Repr, Inhabited

/-- A complete received state copy (R568). -/
structure StateCopy where
  whole : Bool
  fwMajor : Nat
  sequence : Nat
  eb : Nat
  refFrame : Nat
  full : Bool
  durableSeq : Nat
  loops : List LoopCopy
  columns : List (List Int)
  rate : List RcCopy
  clip : Option Nat
  positions : List RecPosition
  chainDigest : List Byte
  digestBytes : Nat
  digestLast : Nat
  mapChanges : List (Nat × Nat)
  outputs : List (Nat × Nat × Nat)
  timecode : Nat
  table : List (Option Sched)
deriving DecidableEq, Repr, Inhabited

/-- What a bring-up of a lane observes (R404, R405, R409): receiver present, signal, the eye metric in microvolts at each
CTLE setting from 0 to 15, the DFE taps it converges to, and a reversal detected in training. -/
structure LaneObs where
  receiver : Bool
  signal : Bool
  metrics : List Nat
  dfe : List Int
  reversed : Bool
  /-- what Ethernet training asks of the transmitter: coefficient and direction of each request, and precoding (R393, R407). -/
  requests : List (Nat × Nat) := []
  precode : Bool := false
  /-- PCIe: a fully reversed lane order (R413). -/
  order : Bool := false
deriving DecidableEq, Repr, Inhabited

/-- What ends at a lane detector (R416): the bit of the fault in word 6 of the lane status (R423). -/
inductive LaneFault where
  | pll
  | legShort
  | legsShorted
  | signal
  | commonMode
  | atLimit
deriving DecidableEq, Repr, Inhabited

/-- What a Survey item observes when it ends (R719 to R721): its start, end and mean temperature in 1/16 °C and, per
instance, the measured values; `windows` holds the smallest passing window, `unchanged` the offsets and inversions. -/
structure SurveyObs where
  tStart : Int
  tEnd : Int
  tMean : Int
  values : List (List Int)
  windows : Nat
  unchanged : Bool
deriving DecidableEq, Repr, Inhabited

/-- A calibration set (R721, R722): an item, the sensor or element it belongs to, its temperature in 1/16 °C and its values. -/
structure CalSet where
  item : Nat
  inst : Nat
  temp : Int
  values : List Int
deriving DecidableEq, Repr, Inhabited

end Sys2Proof
end

