-- ==== Sys2Proof/Syntax.lean ====
section
/-! DEFINITION. The commands of the GY1600: one constructor per row of spec/opcode_table.json, with the row's operands.
A message row takes the mailbox channel `c` whose oldest queued message it runs; a row for an event of the outside
world takes what that event shows the processor. -/

namespace Sys2Proof

/-- The commands of the GY1600, in the table's order. -/
inductive Instr where
  /-- RESET (R783). -/
  | reset
  /-- RESET_RELEASE (R662). -/
  | resetRelease (straps : Nat)
  /-- START_UP (R662). -/
  | startUp (dramTrained : List Bool) (refSensor : Bool)
  /-- ROLE_START (R19). -/
  | roleStart
  /-- PORT_BRING_UP (R67). -/
  | portBringUp (p : Nat) (obs : TrainObs)
  /-- SENSOR_CLOCK_TIMEOUT (R67). -/
  | sensorClockTimeout (p : Nat)
  /-- FRAME_START (R59). -/
  | frameStart (p : Nat) (skews : List Int)
  /-- LINE_START (R59). -/
  | lineStart (p : Nat) (gap : Nat) (skews : List Int)
  /-- LINE_END (R59). -/
  | lineEnd (p : Nat) (beats : List (List (Bool × Beat))) (skews : List Int) (faults : List (Nat × PairFault))
  /-- FRAME_END (R59). -/
  | frameEnd (p : Nat) (gap : Nat)
  /-- SENSOR_CLOCK_LOSS (R76). -/
  | sensorClockLoss (p : Nat)
  /-- SENSOR_CLOCK_RETURN (R76). -/
  | sensorClockReturn (p : Nat)
  /-- SENSOR_CLOCK_ABSENT_EXPIRY (R76). -/
  | sensorClockAbsentExpiry (p : Nat)
  /-- DESKEW_UPDATE (R70). -/
  | deskewUpdate (p : Nat)
  /-- BLANKING_WINDOW_OPEN (R82). -/
  | blankingWindowOpen (p : Nat)
  /-- SCRIPT_ENTRY_COMPLETE (R80). -/
  | scriptEntryComplete (p : Nat) (r : BusResult)
  /-- CONTROL_BUS_TIMEOUT (R80). -/
  | controlBusTimeout (p : Nat)
  /-- TRIGGER (R87). -/
  | trigger (p : Nat)
  /-- TRIGGER_PULSE_END (R87). -/
  | triggerPulseEnd (p : Nat)
  /-- OUTPUT_READBACK (R88). -/
  | outputReadback (ball : Ball) (r : Readback)
  /-- SCHEDULE_REBASE (R508). -/
  | scheduleRebase (seam : Nat)
  /-- UNIT_START (R109). -/
  | unitStart
  /-- UNIT_END (R109). -/
  | unitEnd
  /-- SOURCE_ABSENT_EXPIRY (R119). -/
  | sourceAbsentExpiry (seam : Nat)
  /-- EXPOSURE_DECISION (R213). -/
  | exposureDecision (seam : Nat)
  /-- WHITE_BALANCE_DECISION (R218). -/
  | whiteBalanceDecision (seam : Nat)
  /-- LOCK_BROADCAST (R221). -/
  | lockBroadcast (c : Nat)
  /-- LEADER_SILENT_EXPIRY (R222). -/
  | leaderSilentExpiry (seam : Nat)
  /-- ADIT_HOLD_EXPIRY (R196). -/
  | aditHoldExpiry (n : Nat)
  /-- BLOCK_DEAL (R253). -/
  | blockDeal
  /-- BLOCK_DONE (R251). -/
  | blockDone (e : Nat) (faults : List (List Nat))
  /-- PIXEL_ENGINE_UNIT (R278). -/
  | pixelEngineUnit
  /-- ENTROPY_ENGINE_UNIT (R278). -/
  | entropyEngineUnit
  /-- ENCODE_PICTURE_BEGIN (R301). -/
  | encodePictureBegin (m : Nat)
  /-- DECODE_TIME (R303). -/
  | decodeTime (m : Nat)
  /-- ACCESS_UNIT_TIMEOUT (R307). -/
  | accessUnitTimeout (m : Nat)
  /-- DECODED_PICTURE_OUTPUT (R311). -/
  | decodedPictureOutput (m : Nat)
  /-- RECORD_UNIT_COMPLETE (R339). -/
  | recordUnitComplete (j : Nat)
  /-- SSD_COMMAND_COMPLETION (R343). -/
  | ssdCommandCompletion (member : Nat) (id : Nat) (ok : Bool)
  /-- SSD_COMMAND_TIMEOUT (R341). -/
  | ssdCommandTimeout (member : Nat) (id : Nat)
  /-- SSD_ABORT_EXPIRY (R341). -/
  | ssdAbortExpiry (member : Nat) (id : Nat)
  /-- SSD_RESET_EXPIRY (R341). -/
  | ssdResetExpiry (member : Nat)
  /-- DURABILITY_POINT (R344). -/
  | durabilityPoint
  /-- PLAYBACK_READ_COMPLETE (R357). -/
  | playbackReadComplete (m : Nat) (ok : Bool)
  /-- COMMAND_FETCH (R372). -/
  | commandFetch
  /-- RANGE_LOCK_BEGIN (R374). -/
  | rangeLockBegin (arrival : Nat)
  /-- DELETE_IO_SQ (R369). -/
  | deleteIoSq (arrival : Nat)
  /-- CREATE_IO_SQ (R369). -/
  | createIoSq (arrival : Nat)
  /-- GET_LOG_PAGE (R371). -/
  | getLogPage (arrival : Nat)
  /-- DELETE_IO_CQ (R369). -/
  | deleteIoCq (arrival : Nat)
  /-- CREATE_IO_CQ (R369). -/
  | createIoCq (arrival : Nat)
  /-- IDENTIFY (R369). -/
  | identify (arrival : Nat)
  /-- ABORT (R376). -/
  | abort (arrival : Nat)
  /-- SET_FEATURES (R370). -/
  | setFeatures (arrival : Nat)
  /-- GET_FEATURES (R370). -/
  | getFeatures (arrival : Nat)
  /-- ASYNCHRONOUS_EVENT_REQUEST (R369). -/
  | asynchronousEventRequest (arrival : Nat)
  /-- DEVICE_SELF_TEST (R379). -/
  | deviceSelfTest (arrival : Nat)
  /-- SELF_TEST_STEP (R380). -/
  | selfTestStep (ok : Bool)
  /-- FLUSH (R378). -/
  | flush (arrival : Nat)
  /-- WRITE (R366). -/
  | write (arrival : Nat) (data : List Byte)
  /-- READ (R365). -/
  | read (arrival : Nat)
  /-- WRITE_ZEROES (R366). -/
  | writeZeroes (arrival : Nat)
  /-- HOST_CQ_TIMEOUT (R383). -/
  | hostCqTimeout (q : Nat)
  /-- CONTROLLER_DISABLE (R384). -/
  | controllerDisable
  /-- CONTROLLER_SHUTDOWN (R384). -/
  | controllerShutdown
  /-- PCIE_LINK_LOSS (R383). -/
  | pcieLinkLoss
  /-- POST (R386). -/
  | post (v : View) (c : Nat)
  /-- ACK (R386). -/
  | ack (v : View) (c : Nat)
  /-- REGISTER_WRITE (R386). -/
  | registerWrite (v : View) (addr : Nat) (value : Word)
  /-- MAILBOX_DATAGRAM (R478). -/
  | mailboxDatagram (mac : Nat) (ip : Nat) (port : Nat) (c : Nat) (words : List Word)
  /-- ARRAY_DATAGRAM (R510). -/
  | arrayDatagram (mac : Nat) (pre : List Word) (words : List Word)
  /-- ETHERNET_FRAME_RECEIVE (R477). -/
  | ethernetFrameReceive (mac : Nat) (kind : EthKind)
  /-- MAC_LINK_DOWN (R483). -/
  | macLinkDown (mac : Nat)
  /-- REPLY_HOLD_EXPIRY (R682). -/
  | replyHoldExpiry (v : View) (c : Nat)
  /-- TOKEN_SEQUENCE_TIMEOUT (R692). -/
  | tokenSequenceTimeout (c : Nat) (path : Path)
  /-- BULK_WINDOW_HOLD_EXPIRY (R689). -/
  | bulkWindowHoldExpiry
  /-- UPDATE_SESSION_TIMEOUT (R698). -/
  | updateSessionTimeout
  /-- DEVICE_STATUS (R671). -/
  | deviceStatus (c : Nat)
  /-- PROFILE_SELECT (R659). -/
  | profileSelect (c : Nat)
  /-- RESTART (R671). -/
  | restart (c : Nat)
  /-- SETTINGS_WRITE (R656). -/
  | settingsWrite (c : Nat)
  /-- SETTINGS_READ (R671). -/
  | settingsRead (c : Nat)
  /-- ADMISSION_REPORT (R55). -/
  | admissionReport (c : Nat)
  /-- PORT_STATUS (R90). -/
  | portStatus (c : Nat)
  /-- RETRAIN (R71). -/
  | retrain (c : Nat)
  /-- SENSOR_WRITE (R90). -/
  | sensorWrite (c : Nat)
  /-- SEAM_STATUS (R126). -/
  | seamStatus (c : Nat)
  /-- FRONT_END_STATUS (R159). -/
  | frontEndStatus (c : Nat)
  /-- STATISTICS_FETCH (R159). -/
  | statisticsFetch (c : Nat)
  /-- TAP_STATUS (R198). -/
  | tapStatus (c : Nat)
  /-- LUT_LOAD (R198). -/
  | lutLoad (c : Nat)
  /-- ADIT_STATUS (R198). -/
  | aditStatus (c : Nat)
  /-- ADIT_READ (R196). -/
  | aditRead (c : Nat)
  /-- LOOP_STATUS (R226). -/
  | loopStatus (c : Nat)
  /-- COMPRESSOR_STATUS (R265). -/
  | compressorStatus (c : Nat)
  /-- ADIT_COMPRESSION_STATUS (R265). -/
  | aditCompressionStatus (c : Nat)
  /-- STREAM_STATUS (R313). -/
  | streamStatus (c : Nat)
  /-- BITSTREAM_READ (R313). -/
  | bitstreamRead (c : Nat)
  /-- BITSTREAM_WRITE (R313). -/
  | bitstreamWrite (c : Nat)
  /-- FORCE_IDR (R285). -/
  | forceIdr (c : Nat)
  /-- DECODER_FLUSH (R313). -/
  | decoderFlush (c : Nat)
  /-- RECORDER_STATUS (R359). -/
  | recorderStatus (c : Nat)
  /-- RECORD_START (R321). -/
  | recordStart (c : Nat)
  /-- RECORD_STOP (R321). -/
  | recordStop (c : Nat)
  /-- CLIP_QUERY (R359). -/
  | clipQuery (c : Nat)
  /-- FORMAT_VOLUME (R359). -/
  | formatVolume (c : Nat)
  /-- DELETE_CLIP (R359). -/
  | deleteClip (c : Nat)
  /-- PLAYBACK_START (R356). -/
  | playbackStart (c : Nat)
  /-- PLAYBACK_STOP (R356). -/
  | playbackStop (c : Nat)
  /-- PLAYBACK_STATUS (R359). -/
  | playbackStatus (c : Nat)
  /-- ENDPOINT_STATUS (R388). -/
  | endpointStatus (c : Nat)
  /-- LANE_STATUS (R423). -/
  | laneStatus (c : Nat)
  /-- SCAN_START (R418). -/
  | scanStart (c : Nat)
  /-- SCAN_READ (R421). -/
  | scanRead (c : Nat)
  /-- SCAN_STOP (R420). -/
  | scanStop (c : Nat)
  /-- TEST_SET_UP (R422). -/
  | testSetUp (c : Nat)
  /-- BIT_SLIP (R414). -/
  | bitSlip (c : Nat)
  /-- CHECKER_READ (R422). -/
  | checkerRead (c : Nat)
  /-- SCAN_POINT_COMPLETE (R418). -/
  | scanPointComplete (lane : Nat) (errors : Nat)
  /-- LANE_BRING_UP (R404). -/
  | laneBringUp (lane : Nat) (obs : LaneObs)
  /-- LANE_PLL_LOCK (R391). -/
  | lanePllLock (quad : Nat) (ab : Bool)
  /-- LANE_PLL_LOSS (R391). -/
  | lanePllLoss (quad : Nat) (ab : Bool)
  /-- LANE_PLL_RELOCK (R391). -/
  | lanePllRelock (quad : Nat) (ab : Bool) (locked : Bool)
  /-- SIGNAL_DETECT (R404). -/
  | signalDetect (lane : Nat)
  /-- DFE_UPDATE (R410). -/
  | dfeUpdate (lane : Nat) (signs : List Int) (gainSign : Int)
  /-- CTLE_UPDATE (R410). -/
  | ctleUpdate (lane : Nat) (below : Nat) (here : Nat) (above : Nat)
  /-- ADAPTATION_AT_LIMIT (R411). -/
  | adaptationAtLimit (lane : Nat)
  /-- TRANSMITTER_LEG_FAULT (R415). -/
  | transmitterLegFault (lane : Nat) (legsTogether : Bool)
  /-- LOSS_OF_SIGNAL (R415). -/
  | lossOfSignal (lane : Nat)
  /-- COMMON_MODE_FAULT (R415). -/
  | commonModeFault (lane : Nat)
  /-- TRANSMITTER_RETRY (R416). -/
  | transmitterRetry (lane : Nat)
  /-- LINK_BRING_UP (R450). -/
  | linkBringUp (g : Nat)
  /-- TRAINING_BLOCK (R449). -/
  | trainingBlock (g : Nat) (lane : Nat) (field : BitVec 48) (inverted : Bool) (metric : Nat)
  /-- TRAINING_STEP_TIMEOUT (R450). -/
  | trainingStepTimeout (g : Nat)
  /-- ALIGNMENT_BLOCK (R430). -/
  | alignmentBlock (g : Nat) (lane : Nat) (marker : Nat) (laneIdx : Nat) (width : Nat) (counter : Nat)
  /-- UNCORRECTABLE_LIMIT (R457). -/
  | uncorrectableLimit (g : Nat)
  /-- ELASTIC_FIFO_OVERFLOW (R444). -/
  | elasticFifoOverflow (g : Nat)
  /-- STUFFING_ALLOWANCE_EXCEEDED (R434). -/
  | stuffingAllowanceExceeded (g : Nat)
  /-- CELL_SLOT (R448). -/
  | cellSlot (g : Nat)
  /-- PIXEL_CELL (R439). -/
  | pixelCell (g : Nat) (bytes : List Byte) (fecOk : Bool)
  /-- CREDIT_CELL (R446). -/
  | creditCell (g : Nat) (bytes : List Byte) (fecOk : Bool)
  /-- CREDIT_CELL_TIMER (R446). -/
  | creditCellTimer (g : Nat)
  /-- CREDIT_STARVATION (R457). -/
  | creditStarvation (g : Nat) (cls : Nat)
  /-- CAPABILITY_CELL (R452). -/
  | capabilityCell (g : Nat) (bytes : List Byte) (fecOk : Bool)
  /-- CAPABILITY_REFUSE_EXPIRY (R453). -/
  | capabilityRefuseExpiry (g : Nat)
  /-- LINK_RETRAIN_COMMAND (R457). -/
  | linkRetrainCommand (g : Nat)
  /-- STEP (R451). -/
  | step (g : Nat) (rate : Nat)
  /-- STEP_ACK (R451). -/
  | stepAck (g : Nat)
  /-- STEP_REFUSE (R451). -/
  | stepRefuse (g : Nat)
  /-- RATE_STEP_EXPIRY (R451). -/
  | rateStepExpiry (g : Nat)
  /-- CONTROL_MESSAGE (R441). -/
  | controlMessage (g : Nat) (words : List Word)
  /-- CONTROL_ACK_TIMEOUT (R441). -/
  | controlAckTimeout (g : Nat)
  /-- STREAM_ANNOUNCE_TIMER (R440). -/
  | streamAnnounceTimer (g : Nat)
  /-- TIME_CELL_TIMER (R454). -/
  | timeCellTimer (g : Nat)
  /-- TIME_CELL (R455). -/
  | timeCell (g : Nat) (words : List Word) (arrival : Tod)
  /-- TOD_TICK (R488). -/
  | todTick (n : Nat)
  /-- PTP_SYNC (R496). -/
  | ptpSync (m : Nat) (msg : PtpMsg)
  /-- PTP_ANNOUNCE (R502). -/
  | ptpAnnounce (m : Nat) (msg : AnnounceMsg)
  /-- PTP_DELAY_REQ (R502). -/
  | ptpDelayReq (m : Nat) (msg : PtpMsg)
  /-- PTP_DELAY_RESP (R496). -/
  | ptpDelayResp (m : Nat) (msg : PtpMsg)
  /-- PTP_SEND_TIMER (R502). -/
  | ptpSendTimer (m : Nat) (kind : PtpSend)
  /-- TIME_SOURCE_TIMEOUT (R498). -/
  | timeSourceTimeout
  /-- TIME_STATUS (R519). -/
  | timeStatus (c : Nat)
  /-- PTP_PORT_STATUS (R519). -/
  | ptpPortStatus (c : Nat)
  /-- ARRAY_LOCK (R511). -/
  | arrayLock (c : Nat)
  /-- ARRAY_UNLOCK (R511). -/
  | arrayUnlock (c : Nat)
  /-- SCHEDULE (R512). -/
  | schedule (c : Nat)
  /-- CANCEL (R514). -/
  | cancel (c : Nat)
  /-- SCHEDULED_COMMAND_DUE (R513). -/
  | scheduledCommandDue
  /-- STROBE_EDGE (R533). -/
  | strobeEdge (input : Nat) (high : Bool) (stamp : Tod)
  /-- PPS_IN_EDGE (R537). -/
  | ppsInEdge (stamp : Tod)
  /-- PPS_OUT_SECOND (R537). -/
  | ppsOutSecond
  /-- ISLAND_SIGNATURE (R547). -/
  | islandSignature
  /-- ISLAND_STATUS (R555). -/
  | islandStatus (c : Nat)
  /-- RECORD_READ (R555). -/
  | recordRead (c : Nat)
  /-- ISLAND_CERTIFICATE_READ (R555). -/
  | islandCertificateRead (c : Nat)
  /-- VERIFY_CALIBRATION (R540). -/
  | verifyCalibration (c : Nat)
  /-- SIGN_NOW (R549). -/
  | signNow (c : Nat)
  /-- ISLAND_SETTINGS (R550). -/
  | islandSettings (c : Nat)
  /-- HEARTBEAT_TIMER (R566). -/
  | heartbeatTimer
  /-- HEARTBEAT (R566). -/
  | heartbeat (words : List Word)
  /-- HEARTBEAT_TIMEOUT (R572). -/
  | heartbeatTimeout
  /-- STATE_COPY (R569). -/
  | stateCopy (copy : StateCopy)
  /-- FAILING (R572). -/
  | failing (eb : Nat)
  /-- HANDOVER (R583). -/
  | handover (eb : Nat)
  /-- RESYNC (R569). -/
  | resync (eb : Nat := 0)
  /-- CLAIM_VERDICT (R576). -/
  | claimVerdict (c : Nat)
  /-- CLAIM_REPEAT_TIMER (R573). -/
  | claimRepeatTimer
  /-- PRIMARY_LINK_INACTIVE_EXPIRY (R574). -/
  | primaryLinkInactiveExpiry
  /-- START_WAIT_EXPIRY (R578). -/
  | startWaitExpiry
  /-- LINK_REACTIVATED (R580). -/
  | linkReactivated (g : Nat)
  /-- SWITCH_OVER_FALLBACK_EXPIRY (R584). -/
  | switchOverFallbackExpiry
  /-- REDUNDANCY_STATUS (R586). -/
  | redundancyStatus (c : Nat)
  /-- PLANNED_SWITCH_OVER (R583). -/
  | plannedSwitchOver (c : Nat)
  /-- HEAD_PRIMARY_STATUS (R586). -/
  | headPrimaryStatus (c : Nat)
  /-- OUTPUT_FRAME_SELECT (R467). -/
  | outputFrameSelect (out : OutId)
  /-- OUTPUT_FRAME_START (R466). -/
  | outputFrameStart (out : OutId) (errPs : Int)
  /-- AUDIO_PACKET_TIMER (R481). -/
  | audioPacketTimer (snd : Nat)
  /-- SDI_STATUS (R484). -/
  | sdiStatus (c : Nat)
  /-- MAC_STATUS (R484). -/
  | macStatus (c : Nat)
  /-- SENDER_STATUS (R484). -/
  | senderStatus (c : Nat)
  /-- TE_EDGE (R598). -/
  | teEdge (k : Nat) (late : Option VfLate)
  /-- TE_ABSENT_EXPIRY (R604). -/
  | teAbsentExpiry (k : Nat)
  /-- PANEL_TIMER (R604). -/
  | panelTimer (k : Nat) (late : Option VfLate)
  /-- BLANK_EXPIRY (R603). -/
  | blankExpiry (k : Nat)
  /-- VIEWFINDER_STATUS (R620). -/
  | viewfinderStatus (c : Nat)
  /-- OVERLAY_WRITE (R620). -/
  | overlayWrite (c : Nat)
  /-- REFRESH (R595). -/
  | refresh (c : Nat)
  /-- AUDIO_BLOCK_TAKE (R612). -/
  | audioBlockTake (p : Nat)
  /-- AUDIO_BLOCK_PRESENT (R613). -/
  | audioBlockPresent (p : Nat)
  /-- AUDIO_INPUT_BLOCK (R610). -/
  | audioInputBlock (p : Nat) (samples : List Int) (stamp : Tod)
  /-- AUDIO_STOP_COMPLETE (R615). -/
  | audioStopComplete (p : Nat)
  /-- SLAVE_CLOCK_FAULT (R617). -/
  | slaveClockFault (p : Nat)
  /-- SLAVE_CLOCK_RETURN (R617). -/
  | slaveClockReturn (p : Nat)
  /-- AUDIO_STATUS (R620). -/
  | audioStatus (c : Nat)
  /-- START_AND_STOP (R614). -/
  | startAndStop (c : Nat)
  /-- BLOCK_WRITE (R611). -/
  | blockWrite (c : Nat)
  /-- DRAM_REQUEST (R635). -/
  | dramRequest (ch : Nat) (client : DramClient) (addr : Nat) (data : Option (List Byte))
  /-- DRAM_REQUEST_COMPLETE (R633). -/
  | dramRequestComplete (ch : Nat) (id : Nat) (bitErrors : List Nat)
  /-- MR4_POLL (R638). -/
  | mr4Poll (ch : Nat) (code : Nat)
  /-- REFRESH_DUE (R638). -/
  | refreshDue (ch : Nat)
  /-- ACTIVATE_THRESHOLD (R639). -/
  | activateThreshold (ch : Nat)
  /-- SCRUB_STEP (R634). -/
  | scrubStep (ch : Nat) (bitErrors : List Nat)
  /-- DELAY_UPDATE (R642). -/
  | delayUpdate (ch : Nat)
  /-- CHANNEL_STATUS (R646). -/
  | channelStatus (c : Nat)
  /-- MAILBOX_STATUS (R697). -/
  | mailboxStatus (c : Nat)
  /-- NONCE (R691). -/
  | nonce (c : Nat)
  /-- BULK_WINDOW_CLAIM (R689). -/
  | bulkWindowClaim (c : Nat)
  /-- BULK_WINDOW_RELEASE (R689). -/
  | bulkWindowRelease (c : Nat)
  /-- TOKEN_PART (R692). -/
  | tokenPart (c : Nat)
  /-- EVENT_LOG_READ (R698). -/
  | eventLogRead (c : Nat)
  /-- ERROR_QUEUE_STATUS (R698). -/
  | errorQueueStatus (c : Nat)
  /-- SURVEY_RUN (R719). -/
  | surveyRun (c : Nat)
  /-- SURVEY_ITEM_COMPLETE (R721). -/
  | surveyItemComplete (item : Nat) (obs : SurveyObs)
  /-- RESTORE_FACTORY (R726). -/
  | restoreFactory (c : Nat)
  /-- SURVEY_STATUS (R698). -/
  | surveyStatus (c : Nat)
  /-- UPDATE_BEGIN (R698). -/
  | updateBegin (c : Nat)
  /-- UPDATE_DATA (R698). -/
  | updateData (c : Nat)
  /-- UPDATE_COMMIT (R712). -/
  | updateCommit (c : Nat)
  /-- UPDATE_WRITE_COMPLETE (R713). -/
  | updateWriteComplete (ok : Bool)
  /-- UPDATE_STATUS (R698). -/
  | updateStatus (c : Nat)
  /-- UPDATE_ABORT (R698). -/
  | updateAbort (c : Nat)
  /-- BOOT_CONFIRMATION (R716). -/
  | bootConfirmation
  /-- ATTESTATION_REPORT (R743). -/
  | attestationReport (c : Nat)
  /-- CERTIFICATE_READ (R741). -/
  | certificateRead (c : Nat)
  /-- OWNER_KEY_INSTALL (R738). -/
  | ownerKeyInstall (c : Nat)
  /-- OWNER_KEY_REVOKE (R740). -/
  | ownerKeyRevoke (c : Nat)
  /-- DEBUG_UNLOCK (R753). -/
  | debugUnlock (c : Nat)
  /-- POWER_STATUS (R806). -/
  | powerStatus (c : Nat)
  /-- SUSPEND (R784). -/
  | suspend (c : Nat)
  /-- RESUME (R786). -/
  | resume (c : Nat)
  /-- SENSOR_SAMPLE (R703). -/
  | sensorSample (temps : List Int) (rails : List Nat) (counts : List Nat)
  /-- SUPPLY_OUT_OF_LIMITS (R705). -/
  | supplyOutOfLimits (rail : Nat) (mV : Nat)
  /-- HARDWARE_THERMAL_TRIP (R789). -/
  | hardwareThermalTrip
  /-- HARDWARE_THERMAL_TRIP_CLEAR (R789). -/
  | hardwareThermalTripClear
  /-- CORE_WATCHDOG_EXPIRY (R710). -/
  | coreWatchdogExpiry (core : Nat)
  /-- HEADFRAME_WATCHDOG_EXPIRY (R711). -/
  | headframeWatchdogExpiry
  /-- EVENT_LOG_PROGRAM (R708). -/
  | eventLogProgram (ok : Bool)
  /-- ERROR_DETECTED (R762). -/
  | errorDetected (code : Nat) (inst : Nat) (details : List Word)
  /-- ERROR_ACTION (R763). -/
  | errorAction (last : Bool)
  /-- I2C_BUS_STUCK (R769). -/
  | i2cBusStuck (stillLow : Bool)
  /-- PMBUS_POLL (R807). -/
  | pmbusPoll (reading : Option Word)
  /-- LINK_STATUS (R463). -/
  | linkStatus (c : Nat)
  /-- LINK_RETRAIN (R463). -/
  | linkRetrain (c : Nat)
  /-- PTP_FOLLOW_UP (R496). -/
  | ptpFollowUp (m : Nat) (msg : PtpMsg)
  /-- PCIE_COMPLETION_TIMEOUT (R383). -/
  | pcieCompletionTimeout (arrival : Nat)
  /-- CONTROLLER_ENABLE (R363). -/
  | controllerEnable (asqSize : Nat) (acqSize : Nat)
  /-- DOORBELL_WRITE (R372). -/
  | doorbellWrite (isCq : Bool) (qid : Nat) (value : Nat) (cmds : List NvmeCmd)
  /-- PCIE_LINK_UP (R400). -/
  | pcieLinkUp (port : Option Nat) (width : Nat)
  /-- MAC_LINK_UP (R477). -/
  | macLinkUp (mac : Nat)
  /-- LANE_FAULT_END (R416). -/
  | laneFaultEnd (lane : Nat) (f : LaneFault)
  /-- RECEIVER_DETECTION_RETRY (R450). -/
  | receiverDetectionRetry (g : Nat)
  /-- VDD_AON_LOSS (R782). -/
  | vddAonLoss
  /-- BOOT_NVM_TIMEOUT (R770). -/
  | bootNvmTimeout (logWrite : Bool)
  /-- BULK_WINDOW_WRITE (R690). -/
  | bulkWindowWrite (v : View) (off : Nat) (data : List Byte)
  /-- WAKE_COMPLETE (R683). -/
  | wakeComplete (recv : Nat)
  /-- OTP_WRITE_COMPLETE (R731). -/
  | otpWriteComplete (ok : Bool)
deriving DecidableEq, Repr

end Sys2Proof
end

