-- ==== Sys2Proof/Decode.lean ====
section
/-! DEFINITION. Commands as words: the table gives no row any bits. -/

namespace Sys2Proof

/-- The command a word spells by the table's bits: the table gives no row bits, so none. [DESIGN CHOICE, log 2] -/
def decodeTableWord (_nbits _w : Nat) : Option Instr := none

end Sys2Proof
end

