-- ==== Sys2Proof/Machine/Settings.lean ====
section
/-! DEFINITION. Settings fields as data: where a field of a page stands, its class, default and permitted values, and
the store of accepted page words (R655, R656). -/

namespace Sys2Proof.Machine

/-- The three classes of a settings field ("Classes and run-time writes"). -/
inductive Cls where
  | static
  | frame
  | live
deriving DecidableEq, Repr

/-- The values a field's map permits. `srange` reads the field as two's complement of its own width. -/
inductive Lim where
  | any
  | range (lo hi : Nat)
  | srange (lo hi : Int)
  | oneOf (l : List Nat)
deriving DecidableEq, Repr

/-- A field of a settings page: page ID of instance 0, step between instances, word and bits, class, default, permitted
values, and the error its chapter names for a value outside them (0: none, so 0x0105 of R654 applies). -/
structure Fld where
  base : Nat
  stride : Nat
  word : Nat
  hi : Nat
  lo : Nat
  cls : Cls
  dflt : Nat
  lim : Lim
  err : Nat
  errStep : Nat
deriving DecidableEq, Repr

/-- A settings page: ID of its first instance, offsets of its instances, number of words, fields. -/
structure Page where
  base : Nat
  offs : List Nat
  words : Nat
  fields : List Fld
deriving DecidableEq, Repr

/-- Accepted page words by key page * 256 + word, keys strictly rising. A word not listed holds its Default (R655). -/
abbrev Words := List (Nat × Nat)

/-- Bits [hi:lo] of a value (R8). -/
def bits (v hi lo : Nat) : Nat := v / 2 ^ lo % 2 ^ (hi + 1 - lo)

/-- A value of `w` bits read as two's complement. -/
def sext (w v : Nat) : Int := if v % 2 ^ w < 2 ^ (w - 1) then (v % 2 ^ w : Nat) else ((v % 2 ^ w : Nat) : Int) - 2 ^ w

/-- The word of page `page` at offset `word` as a key. -/
def wordKey (page word : Nat) : Nat := page * 256 + word

/-- A list sorted by key with `v` at key `k`, in place of what it had there. -/
def putKey {α : Type} (k : Nat) (v : α) (l : List (Nat × α)) : List (Nat × α) :=
  (l.filter fun e => decide (e.1 < k)) ++ (k, v) :: l.filter fun e => decide (k < e.1)

/-- Places a word in a store, keeping the keys strictly rising. -/
def setWord (k v : Nat) (w : Words) : Words := putKey k v w

/-- The width of a field. -/
def Fld.width (f : Fld) : Nat := f.hi + 1 - f.lo

/-- The key of a field's word at instance `i`. -/
def Fld.key (f : Fld) (i : Nat) : Nat := wordKey (f.base + f.stride * i) f.word

/-- The value of a field at instance `i` in a store: the word's bits, or the Default (R655). -/
def Fld.get (f : Fld) (i : Nat) (w : Words) : Nat :=
  match w.lookup (f.key i) with
  | some v => bits v f.hi f.lo
  | none => f.dflt

/-- A field of one bit as a flag. -/
def Fld.on (f : Fld) (i : Nat) (w : Words) : Bool := f.get i w != 0

/-- A signed field. -/
def Fld.getS (f : Fld) (i : Nat) (w : Words) : Int := sext f.width (f.get i w)

/-- The mask of a field inside its word. -/
def Fld.mask (f : Fld) : Nat := (2 ^ f.width - 1) * 2 ^ f.lo

/-- Whether a value of a field is permitted by its map. -/
def Fld.okValue (f : Fld) (v : Nat) : Bool :=
  match f.lim with
  | .any => true
  | .range lo hi => decide (lo ≤ v ∧ v ≤ hi)
  | .srange lo hi => decide (lo ≤ sext f.width v ∧ sext f.width v ≤ hi)
  | .oneOf l => l.contains v

end Sys2Proof.Machine
end

