-- ==== Sys2Proof/Machine/Pages.lean ====
section
/-! DEFINITION. The field maps of the 55 settings pages, written from the page tables of spec/ (each field names its
rule), and the list of pages. -/

namespace Sys2Proof.Machine.F
open Sys2Proof.Machine

/-- ROLE of page DEV0 (R23). -/
def DEV0_ROLE : Fld := ⟨0x0100, 0, 0, 1, 0, .static, 0x0, (.range 0 2), 0x0102, 0⟩
/-- ENABLE of page SPn.PORT (R91). -/
def SP_PORT_ENABLE : Fld := ⟨0x0200, 16, 0, 31, 31, .static, 0x0, .any, 0x0000, 0⟩
/-- GANG of page SPn.PORT (R91). -/
def SP_PORT_GANG : Fld := ⟨0x0200, 16, 0, 30, 29, .static, 0x0, .any, 0x0000, 0⟩
/-- DEPTH of page SPn.PORT (R91). -/
def SP_PORT_DEPTH : Fld := ⟨0x0200, 16, 0, 28, 27, .static, 0x3, .any, 0x0000, 0⟩
/-- DV_USE of page SPn.PORT (R91). -/
def SP_PORT_DV_USE : Fld := ⟨0x0200, 16, 0, 26, 26, .static, 0x1, .any, 0x0000, 0⟩
/-- FAULT_POLICY of page SPn.PORT (R91). -/
def SP_PORT_FAULT_POLICY : Fld := ⟨0x0200, 16, 0, 25, 25, .static, 0x0, .any, 0x0000, 0⟩
/-- POL_AUTO of page SPn.PORT (R91). -/
def SP_PORT_POL_AUTO : Fld := ⟨0x0200, 16, 0, 24, 24, .static, 0x1, .any, 0x0000, 0⟩
/-- SENSOR_LATENCY of page SPn.PORT (R91). -/
def SP_PORT_SENSOR_LATENCY : Fld := ⟨0x0200, 16, 0, 23, 22, .static, 0x1, (.range 1 3), 0x0000, 0⟩
/-- CK_MHZ of page SPn.PORT (R91). -/
def SP_PORT_CK_MHZ : Fld := ⟨0x0200, 16, 0, 10, 0, .static, 0x3E8, (.range 100 1000), 0x0000, 0⟩
/-- FV_EDGE_GAP of page SPn.PORT (R91). -/
def SP_PORT_FV_EDGE_GAP : Fld := ⟨0x0200, 16, 1, 15, 8, .static, 0x4, (.range 2 255), 0x0000, 0⟩
/-- LV_GAP of page SPn.PORT (R91). -/
def SP_PORT_LV_GAP : Fld := ⟨0x0200, 16, 1, 7, 0, .static, 0x10, (.range 4 255), 0x0000, 0⟩
/-- MIN_WINDOW of page SPn.TRAIN (R92). -/
def SP_TRAIN_MIN_WINDOW : Fld := ⟨0x0201, 16, 0, 15, 8, .static, 0x14, .any, 0x0000, 0⟩
/-- LENGTH of page SPn.TRAIN (R92). -/
def SP_TRAIN_LENGTH : Fld := ⟨0x0201, 16, 0, 4, 0, .static, 0x10, (.range 1 16), 0x0000, 0⟩
/-- PAT_D_LO of page SPn.TRAIN (R92), 16 of them. -/
def SP_TRAIN_PAT_D_LO (k : Nat) : Fld := ⟨0x0201, 16, 1 + 2 * k, 31, 0, .static, 0x0, .any, 0x0000, 0⟩
/-- PAT_DV of page SPn.TRAIN (R92), 16 of them. -/
def SP_TRAIN_PAT_DV (k : Nat) : Fld := ⟨0x0201, 16, 2 + 2 * k, 10, 10, .static, 0x1, .any, 0x0000, 0⟩
/-- PAT_LV of page SPn.TRAIN (R92), 16 of them. -/
def SP_TRAIN_PAT_LV (k : Nat) : Fld := ⟨0x0201, 16, 2 + 2 * k, 9, 9, .static, 0x0, .any, 0x0000, 0⟩
/-- PAT_FV of page SPn.TRAIN (R92), 16 of them. -/
def SP_TRAIN_PAT_FV (k : Nat) : Fld := ⟨0x0201, 16, 2 + 2 * k, 8, 8, .static, 0x0, .any, 0x0000, 0⟩
/-- PAT_D_HI of page SPn.TRAIN (R92), 16 of them. -/
def SP_TRAIN_PAT_D_HI (k : Nat) : Fld := ⟨0x0201, 16, 2 + 2 * k, 7, 0, .static, 0x0, .any, 0x0000, 0⟩
/-- MODE of page SPn.SCBUS (R93). -/
def SP_SCBUS_MODE : Fld := ⟨0x0202, 16, 0, 31, 30, .static, 0x0, .any, 0x0000, 0⟩
/-- SPI_MODE of page SPn.SCBUS (R93). -/
def SP_SCBUS_SPI_MODE : Fld := ⟨0x0202, 16, 0, 29, 28, .static, 0x0, (.oneOf [0, 3]), 0x0000, 0⟩
/-- RATE of page SPn.SCBUS (R93). -/
def SP_SCBUS_RATE : Fld := ⟨0x0202, 16, 0, 24, 16, .static, 0xA, .any, 0x0000, 0⟩
/-- TIMEOUT_US of page SPn.SCBUS (R93). -/
def SP_SCBUS_TIMEOUT_US : Fld := ⟨0x0202, 16, 0, 15, 0, .static, 0x3E8, .any, 0x0000, 0⟩
/-- INIT_SCRIPT of page SPn.SCBUS (R93). -/
def SP_SCBUS_INIT_SCRIPT : Fld := ⟨0x0202, 16, 1, 31, 16, .static, 0x0, .any, 0x0000, 0⟩
/-- TRAIN_ON_SCRIPT of page SPn.SCBUS (R93). -/
def SP_SCBUS_TRAIN_ON_SCRIPT : Fld := ⟨0x0202, 16, 2, 31, 16, .static, 0x0, .any, 0x0000, 0⟩
/-- TRAIN_OFF_SCRIPT of page SPn.SCBUS (R93). -/
def SP_SCBUS_TRAIN_OFF_SCRIPT : Fld := ⟨0x0202, 16, 2, 15, 0, .static, 0x0, .any, 0x0000, 0⟩
/-- SEQ_DELAY_US of page SPn.SCBUS (R93). -/
def SP_SCBUS_SEQ_DELAY_US : Fld := ⟨0x0202, 16, 3, 31, 16, .frame, 0x5, .any, 0x0000, 0⟩
/-- SEQ_GUARD_US of page SPn.SCBUS (R93). -/
def SP_SCBUS_SEQ_GUARD_US : Fld := ⟨0x0202, 16, 3, 15, 0, .frame, 0x14, .any, 0x0000, 0⟩
/-- ENABLE of page SPn.TRIG (R94). -/
def SP_TRIG_ENABLE : Fld := ⟨0x0203, 16, 0, 31, 31, .frame, 0x0, .any, 0x0000, 0⟩
/-- POLARITY of page SPn.TRIG (R94). -/
def SP_TRIG_POLARITY : Fld := ⟨0x0203, 16, 0, 30, 30, .frame, 0x0, .any, 0x0000, 0⟩
/-- WIDTH_NS of page SPn.TRIG (R94). -/
def SP_TRIG_WIDTH_NS : Fld := ⟨0x0203, 16, 0, 15, 0, .frame, 0x3E8, (.range 10 65535), 0x0000, 0⟩
/-- DELAY_NS of page SPn.TRIG (R94). -/
def SP_TRIG_DELAY_NS : Fld := ⟨0x0203, 16, 1, 31, 0, .frame, 0x0, (.srange (-1000000) 1000000), 0x0000, 0⟩
/-- ENABLE of page SEAMn.SRC (R127). -/
def SEAM_SRC_ENABLE : Fld := ⟨0x0300, 16, 0, 31, 31, .static, 0x0, .any, 0x0000, 0⟩
/-- SRC_TYPE of page SEAMn.SRC (R127). -/
def SEAM_SRC_SRC_TYPE : Fld := ⟨0x0300, 16, 0, 30, 30, .static, 0x0, .any, 0x0000, 0⟩
/-- DEPTH of page SEAMn.SRC (R127). -/
def SEAM_SRC_DEPTH : Fld := ⟨0x0300, 16, 0, 25, 24, .static, 0x3, .any, 0x0000, 0⟩
/-- CFA_PHASE of page SEAMn.SRC (R127). -/
def SEAM_SRC_CFA_PHASE : Fld := ⟨0x0300, 16, 0, 23, 22, .static, 0x0, .any, 0x0000, 0⟩
/-- SRC_INDEX of page SEAMn.SRC (R127). -/
def SEAM_SRC_SRC_INDEX : Fld := ⟨0x0300, 16, 0, 4, 0, .static, 0x0, .any, 0x0000, 0⟩
/-- WIDTH of page SEAMn.GEOM (R128). -/
def SEAM_GEOM_WIDTH : Fld := ⟨0x0301, 16, 0, 31, 16, .static, 0x1000, .any, 0x0000, 0⟩
/-- HEIGHT of page SEAMn.GEOM (R128). -/
def SEAM_GEOM_HEIGHT : Fld := ⟨0x0301, 16, 0, 15, 0, .static, 0x870, .any, 0x0000, 0⟩
/-- FPS_NUM of page SEAMn.GEOM (R128). -/
def SEAM_GEOM_FPS_NUM : Fld := ⟨0x0301, 16, 1, 31, 0, .frame, 0x18, .any, 0x0000, 0⟩
/-- FPS_DEN of page SEAMn.GEOM (R128). -/
def SEAM_GEOM_FPS_DEN : Fld := ⟨0x0301, 16, 2, 31, 0, .frame, 0x1, .any, 0x0000, 0⟩
/-- MIN_LINE_NS of page SEAMn.GEOM (R128). -/
def SEAM_GEOM_MIN_LINE_NS : Fld := ⟨0x0301, 16, 3, 15, 0, .static, 0x3E8, (.range 1 65535), 0x0000, 0⟩
/-- MODE of page SEAMn.SCHED (R129). -/
def SEAM_SCHED_MODE : Fld := ⟨0x0302, 16, 0, 31, 31, .static, 0x0, .any, 0x0000, 0⟩
/-- STRIPE_LINES of page SEAMn.SCHED (R129). -/
def SEAM_SCHED_STRIPE_LINES : Fld := ⟨0x0302, 16, 0, 30, 29, .static, 0x1, (.range 0 2), 0x0000, 0⟩
/-- RING_DEPTH of page SEAMn.SCHED (R129). -/
def SEAM_SCHED_RING_DEPTH : Fld := ⟨0x0302, 16, 0, 15, 8, .static, 0x0, .any, 0x0000, 0⟩
/-- LATENCY_US of page SEAMn.SCHED (R129). -/
def SEAM_SCHED_LATENCY_US : Fld := ⟨0x0302, 16, 1, 31, 0, .frame, 0x0, (.range 0 1000000), 0x0000, 0⟩
/-- ENABLE of page RFEn.LIN (R160). -/
def RFE_LIN_ENABLE : Fld := ⟨0x0400, 1, 0, 31, 31, .frame, 0x0, .any, 0x0000, 0⟩
/-- SHARED of page RFEn.LIN (R160). -/
def RFE_LIN_SHARED : Fld := ⟨0x0400, 1, 0, 30, 30, .frame, 0x0, .any, 0x0000, 0⟩
/-- LINK_FRAC of page RFEn.LIN (R160). -/
def RFE_LIN_LINK_FRAC : Fld := ⟨0x0400, 1, 0, 28, 24, .static, 0xF, .any, 0x0000, 0⟩
/-- TABLE of page RFEn.LIN (R160). -/
def RFE_LIN_TABLE : Fld := ⟨0x0400, 1, 0, 15, 0, .frame, 0x0, .any, 0x0000, 0⟩
/-- MODE of page RFEn.BLACK (R161). -/
def RFE_BLACK_MODE : Fld := ⟨0x0408, 1, 0, 31, 29, .frame, 0x0, (.range 0 4), 0x0000, 0⟩
/-- K_FILTER of page RFEn.BLACK (R161). -/
def RFE_BLACK_K_FILTER : Fld := ⟨0x0408, 1, 0, 28, 26, .frame, 0x3, .any, 0x0000, 0⟩
/-- CD_FILTER of page RFEn.BLACK (R161). -/
def RFE_BLACK_CD_FILTER : Fld := ⟨0x0408, 1, 0, 25, 23, .frame, 0x4, .any, 0x0000, 0⟩
/-- OBR_TOP of page RFEn.BLACK (R161). -/
def RFE_BLACK_OBR_TOP : Fld := ⟨0x0408, 1, 1, 31, 24, .static, 0x0, (.range 0 32), 0x0000, 0⟩
/-- OBC_LEFT of page RFEn.BLACK (R161). -/
def RFE_BLACK_OBC_LEFT : Fld := ⟨0x0408, 1, 1, 15, 8, .static, 0x0, (.range 0 128), 0x0000, 0⟩
/-- OBC_RIGHT of page RFEn.BLACK (R161). -/
def RFE_BLACK_OBC_RIGHT : Fld := ⟨0x0408, 1, 1, 7, 0, .static, 0x0, (.range 0 128), 0x0000, 0⟩
/-- BLACK_FIXED of page RFEn.BLACK (R161), 8 of them. -/
def RFE_BLACK_BLACK_FIXED (k : Nat) : Fld := ⟨0x0408, 1, 2 + k, 23, 0, .frame, 0x0, .any, 0x0000, 0⟩
/-- DG_ENABLE of page RFEn.MERGE (R162). -/
def RFE_MERGE_DG_ENABLE : Fld := ⟨0x0410, 1, 0, 31, 31, .static, 0x0, .any, 0x0000, 0⟩
/-- RATIO of page RFEn.MERGE (R162). -/
def RFE_MERGE_RATIO : Fld := ⟨0x0410, 1, 1, 23, 0, .frame, 0x40000, .any, 0x0000, 0⟩
/-- T0 of page RFEn.MERGE (R162). -/
def RFE_MERGE_T0 : Fld := ⟨0x0410, 1, 2, 23, 0, .frame, 0xC0000, .any, 0x0000, 0⟩
/-- T1 of page RFEn.MERGE (R162). -/
def RFE_MERGE_T1 : Fld := ⟨0x0410, 1, 3, 23, 0, .frame, 0xE0000, .any, 0x0000, 0⟩
/-- STATIC_EN of page RFEn.DEFECT (R163). -/
def RFE_DEFECT_STATIC_EN : Fld := ⟨0x0418, 1, 0, 31, 31, .frame, 0x0, .any, 0x0000, 0⟩
/-- DYN_EN of page RFEn.DEFECT (R163). -/
def RFE_DEFECT_DYN_EN : Fld := ⟨0x0418, 1, 0, 30, 30, .frame, 0x0, .any, 0x0000, 0⟩
/-- MAP of page RFEn.DEFECT (R163). -/
def RFE_DEFECT_MAP : Fld := ⟨0x0418, 1, 0, 15, 0, .frame, 0x0, .any, 0x0000, 0⟩
/-- DYN_REL of page RFEn.DEFECT (R163). -/
def RFE_DEFECT_DYN_REL : Fld := ⟨0x0418, 1, 1, 31, 24, .frame, 0x20, .any, 0x0000, 0⟩
/-- DYN_ABS of page RFEn.DEFECT (R163). -/
def RFE_DEFECT_DYN_ABS : Fld := ⟨0x0418, 1, 1, 23, 0, .frame, 0x4000, .any, 0x0000, 0⟩
/-- FPN_EN of page RFEn.CORR (R164). -/
def RFE_CORR_FPN_EN : Fld := ⟨0x0420, 1, 0, 31, 31, .frame, 0x0, .any, 0x0000, 0⟩
/-- GI_EN of page RFEn.CORR (R164). -/
def RFE_CORR_GI_EN : Fld := ⟨0x0420, 1, 0, 30, 30, .frame, 0x0, .any, 0x0000, 0⟩
/-- SHADE_EN of page RFEn.CORR (R164). -/
def RFE_CORR_SHADE_EN : Fld := ⟨0x0420, 1, 0, 29, 29, .frame, 0x0, .any, 0x0000, 0⟩
/-- FPN_MAP of page RFEn.CORR (R164). -/
def RFE_CORR_FPN_MAP : Fld := ⟨0x0420, 1, 0, 15, 0, .frame, 0x0, .any, 0x0000, 0⟩
/-- SHADE_GRID of page RFEn.CORR (R164). -/
def RFE_CORR_SHADE_GRID : Fld := ⟨0x0420, 1, 1, 31, 16, .frame, 0x0, .any, 0x0000, 0⟩
/-- GI_STRENGTH of page RFEn.CORR (R164). -/
def RFE_CORR_GI_STRENGTH : Fld := ⟨0x0420, 1, 1, 15, 8, .frame, 0x80, .any, 0x0000, 0⟩
/-- GI_THRESH of page RFEn.CORR (R164). -/
def RFE_CORR_GI_THRESH : Fld := ⟨0x0420, 1, 2, 23, 0, .frame, 0x2000, .any, 0x0000, 0⟩
/-- GAIN_R of page RFEn.WB (R165). -/
def RFE_WB_GAIN_R : Fld := ⟨0x0428, 1, 0, 31, 16, .frame, 0x1000, .any, 0x0000, 0⟩
/-- GAIN_GR of page RFEn.WB (R165). -/
def RFE_WB_GAIN_GR : Fld := ⟨0x0428, 1, 0, 15, 0, .frame, 0x1000, .any, 0x0000, 0⟩
/-- GAIN_GB of page RFEn.WB (R165). -/
def RFE_WB_GAIN_GB : Fld := ⟨0x0428, 1, 1, 31, 16, .frame, 0x1000, .any, 0x0000, 0⟩
/-- GAIN_B of page RFEn.WB (R165). -/
def RFE_WB_GAIN_B : Fld := ⟨0x0428, 1, 1, 15, 0, .frame, 0x1000, .any, 0x0000, 0⟩
/-- ENABLE of page STATSn (R166). -/
def STATS_ENABLE : Fld := ⟨0x0600, 1, 0, 31, 31, .frame, 0x1, .any, 0x0000, 0⟩
/-- LUMA_EN of page STATSn (R166). -/
def STATS_LUMA_EN : Fld := ⟨0x0600, 1, 0, 30, 30, .frame, 0x0, .any, 0x0000, 0⟩
/-- LUMA_TAP of page STATSn (R166). -/
def STATS_LUMA_TAP : Fld := ⟨0x0600, 1, 0, 29, 27, .static, 0x0, .any, 0x0000, 0⟩
/-- HIST_SHIFT of page STATSn (R166). -/
def STATS_HIST_SHIFT : Fld := ⟨0x0600, 1, 0, 23, 20, .frame, 0xA, (.range 10 14), 0x0000, 0⟩
/-- DEPTH of page STATSn (R166). -/
def STATS_DEPTH : Fld := ⟨0x0600, 1, 0, 7, 0, .static, 0x4, (.range 3 8), 0x0000, 0⟩
/-- CLIP_LEVEL of page STATSn (R166). -/
def STATS_CLIP_LEVEL : Fld := ⟨0x0600, 1, 1, 23, 0, .frame, 0xFC000, .any, 0x0000, 0⟩
/-- ENABLE of page TAPn.SRC (R199). -/
def TAP_SRC_ENABLE : Fld := ⟨0x0500, 16, 0, 31, 31, .static, 0x0, .any, 0x0000, 0⟩
/-- SEAM of page TAPn.SRC (R199). -/
def TAP_SRC_SEAM : Fld := ⟨0x0500, 16, 0, 30, 28, .static, 0x0, .any, 0x0000, 0⟩
/-- FORMAT of page TAPn.SRC (R199). -/
def TAP_SRC_FORMAT : Fld := ⟨0x0500, 16, 0, 27, 26, .static, 0x1, (.range 0 2), 0x0000, 0⟩
/-- BITS of page TAPn.SRC (R199). -/
def TAP_SRC_BITS : Fld := ⟨0x0500, 16, 0, 25, 24, .static, 0x0, (.range 0 2), 0x0000, 0⟩
/-- RANGE of page TAPn.SRC (R199). -/
def TAP_SRC_RANGE : Fld := ⟨0x0500, 16, 0, 23, 23, .static, 0x0, .any, 0x0000, 0⟩
/-- DEPTH of page TAPn.SRC (R199). -/
def TAP_SRC_DEPTH : Fld := ⟨0x0500, 16, 0, 3, 0, .static, 0x4, (.range 3 8), 0x0000, 0⟩
/-- OUT_W of page TAPn.SRC (R199). -/
def TAP_SRC_OUT_W : Fld := ⟨0x0500, 16, 1, 31, 16, .static, 0x780, .any, 0x0000, 0⟩
/-- OUT_H of page TAPn.SRC (R199). -/
def TAP_SRC_OUT_H : Fld := ⟨0x0500, 16, 1, 15, 0, .static, 0x438, .any, 0x0000, 0⟩
/-- TRIM_R of page TAPn.COLOUR (R200). -/
def TAP_COLOUR_TRIM_R : Fld := ⟨0x0501, 16, 0, 31, 16, .frame, 0x1000, .any, 0x0000, 0⟩
/-- TRIM_G of page TAPn.COLOUR (R200). -/
def TAP_COLOUR_TRIM_G : Fld := ⟨0x0501, 16, 0, 15, 0, .frame, 0x1000, .any, 0x0000, 0⟩
/-- TRIM_B of page TAPn.COLOUR (R200). -/
def TAP_COLOUR_TRIM_B : Fld := ⟨0x0501, 16, 1, 31, 16, .frame, 0x1000, .any, 0x0000, 0⟩
/-- EXP_GAIN of page TAPn.COLOUR (R200). -/
def TAP_COLOUR_EXP_GAIN : Fld := ⟨0x0501, 16, 1, 15, 0, .frame, 0x1000, .any, 0x0000, 0⟩
/-- ACES of page TAPn.COLOUR (R200). -/
def TAP_COLOUR_ACES : Fld := ⟨0x0501, 16, 2, 1, 0, .frame, 0x0, (.range 0 2), 0x0000, 0⟩
/-- CAM_M of page TAPn.COLOUR (R200), 9 of them. -/
def TAP_COLOUR_CAM_M (k : Nat) : Fld := ⟨0x0501, 16, 3 + k, 17, 0, .frame, (if k % 4 = 0 then 0x4000 else 0), .any, 0x0000, 0⟩
/-- ACES_M of page TAPn.COLOUR (R200), 9 of them. -/
def TAP_COLOUR_ACES_M (k : Nat) : Fld := ⟨0x0501, 16, 12 + k, 17, 0, .frame, (if k % 4 = 0 then 0x4000 else 0), .any, 0x0000, 0⟩
/-- SHAPER_EN of page TAPn.TONE (R201). -/
def TAP_TONE_SHAPER_EN : Fld := ⟨0x0502, 16, 0, 31, 31, .frame, 0x0, .any, 0x0000, 0⟩
/-- LUT_EN of page TAPn.TONE (R201). -/
def TAP_TONE_LUT_EN : Fld := ⟨0x0502, 16, 0, 30, 30, .frame, 0x0, .any, 0x0000, 0⟩
/-- LUT_SIZE of page TAPn.TONE (R201). -/
def TAP_TONE_LUT_SIZE : Fld := ⟨0x0502, 16, 0, 29, 29, .frame, 0x1, .any, 0x0000, 0⟩
/-- CURVE of page TAPn.TONE (R201). -/
def TAP_TONE_CURVE : Fld := ⟨0x0502, 16, 0, 28, 26, .frame, 0x0, (.range 0 4), 0x0000, 0⟩
/-- YCC of page TAPn.TONE (R201). -/
def TAP_TONE_YCC : Fld := ⟨0x0502, 16, 0, 25, 25, .frame, 0x0, .any, 0x0000, 0⟩
/-- LUT_UNIT of page TAPn.TONE (R201). -/
def TAP_TONE_LUT_UNIT : Fld := ⟨0x0502, 16, 0, 22, 16, .frame, 0x0, (.range 0 111), 0x0000, 0⟩
/-- PQ_REF of page TAPn.TONE (R201). -/
def TAP_TONE_PQ_REF : Fld := ⟨0x0502, 16, 0, 15, 0, .frame, 0x3E8, (.range 100 10000), 0x0000, 0⟩
/-- SHAPER_TABLE of page TAPn.TONE (R201). -/
def TAP_TONE_SHAPER_TABLE : Fld := ⟨0x0502, 16, 1, 31, 16, .frame, 0x0, .any, 0x0000, 0⟩
/-- CURVE_TABLE of page TAPn.TONE (R201). -/
def TAP_TONE_CURVE_TABLE : Fld := ⟨0x0502, 16, 1, 15, 0, .frame, 0x0, .any, 0x0000, 0⟩
/-- H_COEFF of page TAPn.SCALE (R202). -/
def TAP_SCALE_H_COEFF : Fld := ⟨0x0503, 16, 0, 31, 16, .frame, 0x0, .any, 0x0000, 0⟩
/-- V_COEFF of page TAPn.SCALE (R202). -/
def TAP_SCALE_V_COEFF : Fld := ⟨0x0503, 16, 0, 15, 0, .frame, 0x0, .any, 0x0000, 0⟩
/-- EDGE_THRESH of page RFEn.DM (R203). -/
def RFE_DM_EDGE_THRESH : Fld := ⟨0x0438, 1, 0, 23, 0, .frame, 0x1000, .any, 0x0000, 0⟩
/-- ENABLE of page ADITn (R204). -/
def ADIT_ENABLE : Fld := ⟨0x0430, 1, 0, 31, 31, .static, 0x0, .any, 0x0000, 0⟩
/-- SEAM of page ADITn (R204). -/
def ADIT_SEAM : Fld := ⟨0x0430, 1, 0, 30, 28, .static, 0x0, .any, 0x0000, 0⟩
/-- POINT of page ADITn (R204). -/
def ADIT_POINT : Fld := ⟨0x0430, 1, 0, 27, 25, .static, 0x3, (.range 0 4), 0x0000, 0⟩
/-- HOST_READ of page ADITn (R204). -/
def ADIT_HOST_READ : Fld := ⟨0x0430, 1, 0, 24, 24, .static, 0x0, .any, 0x0000, 0⟩
/-- DEPTH of page ADITn (R204). -/
def ADIT_DEPTH : Fld := ⟨0x0430, 1, 0, 20, 16, .static, 0x10, (.range 10 16), 0x0000, 0⟩
/-- FRAC of page ADITn (R204). -/
def ADIT_FRAC : Fld := ⟨0x0430, 1, 0, 12, 8, .static, 0xF, .any, 0x0000, 0⟩
/-- BUFS of page ADITn (R204). -/
def ADIT_BUFS : Fld := ⟨0x0430, 1, 0, 3, 0, .static, 0x4, (.range 3 8), 0x0000, 0⟩
/-- AE_MODE of page LOOPn.AE (R227). -/
def LOOP_AE_AE_MODE : Fld := ⟨0x0610, 1, 0, 31, 29, .live, 0x0, (.range 0 3), 0x0000, 0⟩
/-- LOCK of page LOOPn.AE (R227). -/
def LOOP_AE_LOCK : Fld := ⟨0x0610, 1, 0, 28, 27, .static, 0x0, (.range 0 2), 0x0000, 0⟩
/-- AE_FRAMES of page LOOPn.AE (R227). -/
def LOOP_AE_AE_FRAMES : Fld := ⟨0x0610, 1, 0, 26, 25, .live, 0x0, .any, 0x0000, 0⟩
/-- TARGET of page LOOPn.AE (R227). -/
def LOOP_AE_TARGET : Fld := ⟨0x0610, 1, 0, 15, 0, .live, 0x2E1, .any, 0x0000, 0⟩
/-- DAMP of page LOOPn.AE (R227). -/
def LOOP_AE_DAMP : Fld := ⟨0x0610, 1, 1, 31, 24, .live, 0x80, (.range 1 255), 0x0000, 0⟩
/-- CLIP_GUARD of page LOOPn.AE (R227). -/
def LOOP_AE_CLIP_GUARD : Fld := ⟨0x0610, 1, 1, 23, 16, .live, 0x4, .any, 0x0000, 0⟩
/-- DEADBAND of page LOOPn.AE (R227). -/
def LOOP_AE_DEADBAND : Fld := ⟨0x0610, 1, 1, 15, 0, .live, 0x800, .any, 0x0000, 0⟩
/-- EXP_SET_NS of page LOOPn.AE (R227). -/
def LOOP_AE_EXP_SET_NS : Fld := ⟨0x0610, 1, 2, 31, 0, .live, 0x989680, .any, 0x0000, 0⟩
/-- EXP_MIN_NS of page LOOPn.AE (R227). -/
def LOOP_AE_EXP_MIN_NS : Fld := ⟨0x0610, 1, 3, 31, 0, .live, 0x3E8, .any, 0x0000, 0⟩
/-- EXP_MAX_NS of page LOOPn.AE (R227). -/
def LOOP_AE_EXP_MAX_NS : Fld := ⟨0x0610, 1, 4, 31, 0, .live, 0x2625A00, .any, 0x0000, 0⟩
/-- GAIN_SET of page LOOPn.AE (R227). -/
def LOOP_AE_GAIN_SET : Fld := ⟨0x0610, 1, 5, 31, 16, .live, 0x100, .any, 0x0000, 0⟩
/-- GAIN_MAX of page LOOPn.AE (R227). -/
def LOOP_AE_GAIN_MAX : Fld := ⟨0x0610, 1, 5, 15, 0, .live, 0x1000, .any, 0x0000, 0⟩
/-- WEIGHTS of page LOOPn.AE (R227). -/
def LOOP_AE_WEIGHTS : Fld := ⟨0x0610, 1, 6, 31, 16, .live, 0x0, .any, 0x0000, 0⟩
/-- LEADER_SEAM of page LOOPn.AE (R227). -/
def LOOP_AE_LEADER_SEAM : Fld := ⟨0x0610, 1, 6, 15, 13, .static, 0x0, .any, 0x0000, 0⟩
/-- LEADER_POS of page LOOPn.AE (R227). -/
def LOOP_AE_LEADER_POS : Fld := ⟨0x0610, 1, 6, 10, 0, .static, 0x0, .any, 0x0000, 0⟩
/-- LOCK_SLACK of page LOOPn.AE (R227). -/
def LOOP_AE_LOCK_SLACK : Fld := ⟨0x0610, 1, 7, 2, 0, .static, 0x2, .any, 0x0000, 0⟩
/-- AWB_MODE of page LOOPn.AWB (R228). -/
def LOOP_AWB_AWB_MODE : Fld := ⟨0x0618, 1, 0, 31, 30, .live, 0x0, (.range 0 1), 0x0000, 0⟩
/-- WB_DAMP of page LOOPn.AWB (R228). -/
def LOOP_AWB_WB_DAMP : Fld := ⟨0x0618, 1, 0, 23, 16, .live, 0x40, (.range 1 255), 0x0000, 0⟩
/-- WB_MIN_ZONES of page LOOPn.AWB (R228). -/
def LOOP_AWB_WB_MIN_ZONES : Fld := ⟨0x0618, 1, 0, 15, 0, .live, 0x40, .any, 0x0000, 0⟩
/-- WB_LO of page LOOPn.AWB (R228). -/
def LOOP_AWB_WB_LO : Fld := ⟨0x0618, 1, 1, 31, 16, .live, 0x80, .any, 0x0000, 0⟩
/-- WB_HI of page LOOPn.AWB (R228). -/
def LOOP_AWB_WB_HI : Fld := ⟨0x0618, 1, 1, 15, 0, .live, 0xC00, .any, 0x0000, 0⟩
/-- WB_MIN of page LOOPn.AWB (R228). -/
def LOOP_AWB_WB_MIN : Fld := ⟨0x0618, 1, 2, 31, 16, .live, 0x800, .any, 0x0000, 0⟩
/-- WB_MAX of page LOOPn.AWB (R228). -/
def LOOP_AWB_WB_MAX : Fld := ⟨0x0618, 1, 2, 15, 0, .live, 0x8000, .any, 0x0000, 0⟩
/-- LINE_Q of page LOOPn.SENSOR (R229). -/
def LOOP_SENSOR_LINE_Q : Fld := ⟨0x0620, 1, 0, 31, 0, .static, 0xFA000, .any, 0x0000, 0⟩
/-- EXP_MIN_LINES of page LOOPn.SENSOR (R229). -/
def LOOP_SENSOR_EXP_MIN_LINES : Fld := ⟨0x0620, 1, 1, 31, 16, .static, 0x1, .any, 0x0000, 0⟩
/-- EXP_MARGIN_LINES of page LOOPn.SENSOR (R229). -/
def LOOP_SENSOR_EXP_MARGIN_LINES : Fld := ⟨0x0620, 1, 1, 15, 0, .static, 0x8, .any, 0x0000, 0⟩
/-- GAIN_TABLE of page LOOPn.SENSOR (R229). -/
def LOOP_SENSOR_GAIN_TABLE : Fld := ⟨0x0620, 1, 2, 31, 16, .static, 0x0, .any, 0x0000, 0⟩
/-- MAP of page LOOPn.SENSOR (R229). -/
def LOOP_SENSOR_MAP : Fld := ⟨0x0620, 1, 2, 15, 0, .static, 0x0, .any, 0x0000, 0⟩
/-- LINK_SEAMS of page CMP.LINK (R266). -/
def CMP_LINK_LINK_SEAMS : Fld := ⟨0x0700, 0, 0, 7, 0, .static, 0x0, .any, 0x0000, 0⟩
/-- ENABLE of page CMPn (R267). -/
def CMP_ENABLE : Fld := ⟨0x0708, 1, 0, 31, 31, .static, 0x0, .any, 0x0000, 0⟩
/-- MODE of page CMPn (R267). -/
def CMP_MODE : Fld := ⟨0x0708, 1, 0, 30, 30, .frame, 0x0, .any, 0x0000, 0⟩
/-- KCODE of page CMPn (R267). -/
def CMP_KCODE : Fld := ⟨0x0708, 1, 0, 29, 27, .frame, 0x0, (.range 0 4), 0x0701, 0⟩
/-- FRAME_LIST of page CMPn (R267). -/
def CMP_FRAME_LIST : Fld := ⟨0x0708, 1, 0, 26, 26, .static, 0x1, .any, 0x0000, 0⟩
/-- ENABLE of page CODECm.STRM (R314). -/
def CODEC_STRM_ENABLE : Fld := ⟨0x0800, 1, 0, 31, 31, .static, 0x0, .any, 0x0000, 0⟩
/-- DIR of page CODECm.STRM (R314). -/
def CODEC_STRM_DIR : Fld := ⟨0x0800, 1, 0, 30, 30, .static, 0x0, .any, 0x0000, 0⟩
/-- PROFILE of page CODECm.STRM (R314). -/
def CODEC_STRM_PROFILE : Fld := ⟨0x0800, 1, 0, 29, 27, .static, 0x2, .any, 0x0000, 0⟩
/-- TIER of page CODECm.STRM (R314). -/
def CODEC_STRM_TIER : Fld := ⟨0x0800, 1, 0, 26, 26, .static, 0x1, .any, 0x0000, 0⟩
/-- CHROMA of page CODECm.STRM (R314). -/
def CODEC_STRM_CHROMA : Fld := ⟨0x0800, 1, 0, 25, 24, .static, 0x1, (.range 0 2), 0x0000, 0⟩
/-- BITS of page CODECm.STRM (R314). -/
def CODEC_STRM_BITS : Fld := ⟨0x0800, 1, 0, 23, 22, .static, 0x1, (.range 0 2), 0x0000, 0⟩
/-- LOW_LAT of page CODECm.STRM (R314). -/
def CODEC_STRM_LOW_LAT : Fld := ⟨0x0800, 1, 0, 21, 21, .static, 0x0, .any, 0x0000, 0⟩
/-- SRC_KIND of page CODECm.STRM (R314). -/
def CODEC_STRM_SRC_KIND : Fld := ⟨0x0800, 1, 0, 20, 20, .static, 0x0, .any, 0x0000, 0⟩
/-- SRC_INDEX of page CODECm.STRM (R314). -/
def CODEC_STRM_SRC_INDEX : Fld := ⟨0x0800, 1, 0, 19, 16, .static, 0x0, (.range 0 7), 0x0000, 0⟩
/-- LEVEL of page CODECm.STRM (R314). -/
def CODEC_STRM_LEVEL : Fld := ⟨0x0800, 1, 0, 15, 8, .static, 0xBA, (.range 0 186), 0x0820, 1⟩
/-- HOST_READ of page CODECm.STRM (R314). -/
def CODEC_STRM_HOST_READ : Fld := ⟨0x0800, 1, 0, 7, 7, .static, 0x0, .any, 0x0000, 0⟩
/-- DEPTH of page CODECm.STRM (R314). -/
def CODEC_STRM_DEPTH : Fld := ⟨0x0800, 1, 0, 3, 0, .static, 0x4, (.range 3 8), 0x0000, 0⟩
/-- MAX_BPS of page CODECm.STRM (R314). -/
def CODEC_STRM_MAX_BPS : Fld := ⟨0x0800, 1, 1, 31, 0, .static, 0x17D78400, .any, 0x0000, 0⟩
/-- RING_BYTES of page CODECm.STRM (R314). -/
def CODEC_STRM_RING_BYTES : Fld := ⟨0x0800, 1, 2, 31, 0, .static, 0x4000000, .any, 0x0000, 0⟩
/-- LATENCY_US of page CODECm.STRM (R314). -/
def CODEC_STRM_LATENCY_US : Fld := ⟨0x0800, 1, 3, 31, 0, .frame, 0x0, .any, 0x0000, 0⟩
/-- OUT_W of page CODECm.PIC (R315). -/
def CODEC_PIC_OUT_W : Fld := ⟨0x0808, 1, 0, 31, 16, .static, 0xF00, .any, 0x0000, 0⟩
/-- OUT_H of page CODECm.PIC (R315). -/
def CODEC_PIC_OUT_H : Fld := ⟨0x0808, 1, 0, 15, 0, .static, 0x870, .any, 0x0000, 0⟩
/-- ROT of page CODECm.PIC (R315). -/
def CODEC_PIC_ROT : Fld := ⟨0x0808, 1, 1, 31, 30, .static, 0x0, .any, 0x0000, 0⟩
/-- MIRROR of page CODECm.PIC (R315). -/
def CODEC_PIC_MIRROR : Fld := ⟨0x0808, 1, 1, 29, 29, .static, 0x0, .any, 0x0000, 0⟩
/-- FRAME_DIV of page CODECm.PIC (R315). -/
def CODEC_PIC_FRAME_DIV : Fld := ⟨0x0808, 1, 1, 7, 0, .static, 0x1, (.range 1 16), 0x0000, 0⟩
/-- H_COEFF of page CODECm.PIC (R315). -/
def CODEC_PIC_H_COEFF : Fld := ⟨0x0808, 1, 2, 31, 16, .static, 0x0, .any, 0x0000, 0⟩
/-- V_COEFF of page CODECm.PIC (R315). -/
def CODEC_PIC_V_COEFF : Fld := ⟨0x0808, 1, 2, 15, 0, .static, 0x0, .any, 0x0000, 0⟩
/-- DEC_FPS_NUM of page CODECm.PIC (R315). -/
def CODEC_PIC_DEC_FPS_NUM : Fld := ⟨0x0808, 1, 3, 31, 0, .static, 0x18, .any, 0x0000, 0⟩
/-- DEC_FPS_DEN of page CODECm.PIC (R315). -/
def CODEC_PIC_DEC_FPS_DEN : Fld := ⟨0x0808, 1, 4, 31, 0, .static, 0x1, (.range 1 4294967295), 0x0000, 0⟩
/-- DEC_SRC of page CODECm.PIC (R315). -/
def CODEC_PIC_DEC_SRC : Fld := ⟨0x0808, 1, 5, 31, 31, .static, 0x0, .any, 0x0000, 0⟩
/-- DEC_TIMEOUT of page CODECm.PIC (R315). -/
def CODEC_PIC_DEC_TIMEOUT : Fld := ⟨0x0808, 1, 5, 7, 0, .frame, 0x4, (.range 1 255), 0x0000, 0⟩
/-- RC_MODE of page CODECm.RC (R316). -/
def CODEC_RC_RC_MODE : Fld := ⟨0x0810, 1, 0, 31, 31, .frame, 0x1, .any, 0x0000, 0⟩
/-- QP_INIT of page CODECm.RC (R316). -/
def CODEC_RC_QP_INIT : Fld := ⟨0x0810, 1, 0, 30, 25, .frame, 0x1E, (.range 0 51), 0x0000, 0⟩
/-- QP_MIN of page CODECm.RC (R316). -/
def CODEC_RC_QP_MIN : Fld := ⟨0x0810, 1, 0, 24, 19, .frame, 0xA, (.range 0 51), 0x0000, 0⟩
/-- QP_MAX of page CODECm.RC (R316). -/
def CODEC_RC_QP_MAX : Fld := ⟨0x0810, 1, 0, 18, 13, .frame, 0x33, (.range 0 51), 0x0000, 0⟩
/-- SLICE_ROWS of page CODECm.RC (R316). -/
def CODEC_RC_SLICE_ROWS : Fld := ⟨0x0810, 1, 0, 12, 8, .static, 0x4, (.range 0 16), 0x0000, 0⟩
/-- W_I of page CODECm.RC (R316). -/
def CODEC_RC_W_I : Fld := ⟨0x0810, 1, 0, 7, 0, .frame, 0x40, (.range 16 255), 0x0000, 0⟩
/-- INTRA_PERIOD of page CODECm.RC (R316). -/
def CODEC_RC_INTRA_PERIOD : Fld := ⟨0x0810, 1, 1, 31, 22, .static, 0x32, (.range 1 1023), 0x0000, 0⟩
/-- REFS of page CODECm.RC (R316). -/
def CODEC_RC_REFS : Fld := ⟨0x0810, 1, 1, 21, 21, .static, 0x0, .any, 0x0000, 0⟩
/-- TARGET_BPS of page CODECm.RC (R316). -/
def CODEC_RC_TARGET_BPS : Fld := ⟨0x0810, 1, 2, 31, 0, .frame, 0x11E1A300, .any, 0x0000, 0⟩
/-- CPB_BITS of page CODECm.RC (R316). -/
def CODEC_RC_CPB_BITS : Fld := ⟨0x0810, 1, 3, 31, 0, .static, 0x17D78400, .any, 0x0000, 0⟩
/-- PIC_CAP_BYTES of page CODECm.RC (R316). -/
def CODEC_RC_PIC_CAP_BYTES : Fld := ⟨0x0810, 1, 4, 31, 0, .static, 0x124F80, .any, 0x0000, 0⟩
/-- ENABLE of page REC.VOL (R360). -/
def REC_VOL_ENABLE : Fld := ⟨0x0900, 0, 0, 31, 31, .static, 0x0, .any, 0x0000, 0⟩
/-- GRANULE of page REC.VOL (R360). -/
def REC_VOL_GRANULE : Fld := ⟨0x0900, 0, 0, 30, 29, .static, 0x1, (.range 0 2), 0x0000, 0⟩
/-- DUAL_PORT of page REC.VOL (R360). -/
def REC_VOL_DUAL_PORT : Fld := ⟨0x0900, 0, 0, 28, 28, .static, 0x0, .any, 0x0000, 0⟩
/-- RP_MASK of page REC.VOL (R360). -/
def REC_VOL_RP_MASK : Fld := ⟨0x0900, 0, 0, 27, 24, .static, 0x0, .any, 0x0000, 0⟩
/-- DURABLE_MS of page REC.VOL (R360). -/
def REC_VOL_DURABLE_MS : Fld := ⟨0x0900, 0, 0, 15, 0, .live, 0x64, (.range 10 1000), 0x0000, 0⟩
/-- SSD_TIMEOUT_MS of page REC.VOL (R360). -/
def REC_VOL_SSD_TIMEOUT_MS : Fld := ⟨0x0900, 0, 1, 31, 16, .static, 0x7D0, (.range 100 30000), 0x0000, 0⟩
/-- SIDECAR_GRANULES of page REC.VOL (R360). -/
def REC_VOL_SIDECAR_GRANULES : Fld := ⟨0x0900, 0, 1, 15, 0, .static, 0x40, .any, 0x0000, 0⟩
/-- SSD_WRITE_MBPS of page REC.VOL (R360), 4 of them. -/
def REC_VOL_SSD_WRITE_MBPS (k : Nat) : Fld := ⟨0x0900, 0, 2 + k, 31, 0, .static, 0xFA0, .any, 0x0000, 0⟩
/-- ENABLE of page RECn (R361). -/
def REC_ENABLE : Fld := ⟨0x0908, 1, 0, 31, 31, .static, 0x0, .any, 0x0000, 0⟩
/-- KIND of page RECn (R361). -/
def REC_KIND : Fld := ⟨0x0908, 1, 0, 30, 28, .static, 0x0, (.range 0 3), 0x0000, 0⟩
/-- SOURCE of page RECn (R361). -/
def REC_SOURCE : Fld := ⟨0x0908, 1, 0, 27, 24, .static, 0x0, .any, 0x0000, 0⟩
/-- PREROLL_MS of page RECn (R361). -/
def REC_PREROLL_MS : Fld := ⟨0x0908, 1, 0, 15, 0, .static, 0x0, (.range 0 60000), 0x0000, 0⟩
/-- RATE of page RECn (R361). -/
def REC_RATE : Fld := ⟨0x0908, 1, 1, 31, 0, .static, 0x0, .any, 0x0000, 0⟩
/-- STAGE_BYTES of page RECn (R361). -/
def REC_STAGE_BYTES : Fld := ⟨0x0908, 1, 2, 31, 0, .static, 0x0, .any, 0x0000, 0⟩
/-- ENABLE of page EP0 (R389). -/
def EP0_ENABLE : Fld := ⟨0x0A00, 0, 0, 31, 31, .static, 0x0, .any, 0x0000, 0⟩
/-- IOQ_MAX of page EP0 (R389). -/
def EP0_IOQ_MAX : Fld := ⟨0x0A00, 0, 0, 20, 16, .static, 0x10, (.range 1 16), 0x0A01, 0⟩
/-- HOST_TIMEOUT_MS of page EP0 (R389). -/
def EP0_HOST_TIMEOUT_MS : Fld := ⟨0x0A00, 0, 0, 15, 0, .static, 0x1388, (.range 100 60000), 0x0A01, 0⟩
/-- SSVID of page EP0 (R389). -/
def EP0_SSVID : Fld := ⟨0x0A00, 0, 1, 31, 16, .static, 0x1F5A, .any, 0x0000, 0⟩
/-- SSID of page EP0 (R389). -/
def EP0_SSID : Fld := ⟨0x0A00, 0, 1, 15, 0, .static, 0x0, .any, 0x0000, 0⟩
/-- MQES of page EP0 (R389). -/
def EP0_MQES : Fld := ⟨0x0A00, 0, 2, 9, 0, .static, 0x3FF, (.range 15 1023), 0x0A01, 0⟩
/-- PROTO of page LANEn (R425). -/
def LANE_PROTO : Fld := ⟨0x0B00, 1, 0, 31, 29, .static, 0x0, (.range 0 4), 0x0000, 0⟩
/-- RATE of page LANEn (R425). -/
def LANE_RATE : Fld := ⟨0x0B00, 1, 0, 28, 24, .static, 0x0, .any, 0x0000, 0⟩
/-- PORT of page LANEn (R425). -/
def LANE_PORT : Fld := ⟨0x0B00, 1, 0, 23, 20, .static, 0x0, .any, 0x0000, 0⟩
/-- TX_INV of page LANEn (R425). -/
def LANE_TX_INV : Fld := ⟨0x0B00, 1, 0, 19, 19, .static, 0x0, .any, 0x0000, 0⟩
/-- RX_INV of page LANEn (R425). -/
def LANE_RX_INV : Fld := ⟨0x0B00, 1, 0, 18, 18, .static, 0x0, .any, 0x0000, 0⟩
/-- POL_AUTO of page LANEn (R425). -/
def LANE_POL_AUTO : Fld := ⟨0x0B00, 1, 0, 17, 17, .static, 0x1, .any, 0x0000, 0⟩
/-- ADAPT of page LANEn (R425). -/
def LANE_ADAPT : Fld := ⟨0x0B00, 1, 0, 16, 16, .live, 0x1, .any, 0x0000, 0⟩
/-- CTLE_FIXED of page LANEn (R425). -/
def LANE_CTLE_FIXED : Fld := ⟨0x0B00, 1, 0, 15, 15, .static, 0x0, .any, 0x0000, 0⟩
/-- CTLE_SET of page LANEn (R425). -/
def LANE_CTLE_SET : Fld := ⟨0x0B00, 1, 0, 14, 11, .static, 0x0, .any, 0x0000, 0⟩
/-- LOS_MV of page LANEn (R425). -/
def LANE_LOS_MV : Fld := ⟨0x0B00, 1, 0, 7, 0, .static, 0x32, (.range 20 200), 0x0000, 0⟩
/-- C_M3 of page LANEn (R425). -/
def LANE_C_M3 : Fld := ⟨0x0B00, 1, 1, 31, 24, .static, 0x0, .any, 0x0000, 0⟩
/-- C_M2 of page LANEn (R425). -/
def LANE_C_M2 : Fld := ⟨0x0B00, 1, 1, 23, 16, .static, 0x0, .any, 0x0000, 0⟩
/-- C_M1 of page LANEn (R425). -/
def LANE_C_M1 : Fld := ⟨0x0B00, 1, 1, 15, 8, .static, 0xFA, .any, 0x0000, 0⟩
/-- C0 of page LANEn (R425). -/
def LANE_C0 : Fld := ⟨0x0B00, 1, 1, 7, 0, .static, 0x34, .any, 0x0000, 0⟩
/-- C_P1 of page LANEn (R425). -/
def LANE_C_P1 : Fld := ⟨0x0B00, 1, 2, 31, 24, .static, 0xFA, .any, 0x0000, 0⟩
/-- AN_EN of page LANEn (R425). -/
def LANE_AN_EN : Fld := ⟨0x0B00, 1, 2, 3, 3, .static, 0x1, .any, 0x0000, 0⟩
/-- TRAIN_EN of page LANEn (R425). -/
def LANE_TRAIN_EN : Fld := ⟨0x0B00, 1, 2, 2, 2, .static, 0x1, .any, 0x0000, 0⟩
/-- FEC of page LANEn (R425). -/
def LANE_FEC : Fld := ⟨0x0B00, 1, 2, 1, 0, .static, 0x3, .any, 0x0000, 0⟩
/-- ENABLE of page LINKg (R464). -/
def LINK_ENABLE : Fld := ⟨0x0C00, 16, 0, 31, 31, .static, 0x0, .any, 0x0000, 0⟩
/-- MODE of page LINKg (R464). -/
def LINK_MODE : Fld := ⟨0x0C00, 16, 0, 30, 30, .static, 0x0, .any, 0x0000, 0⟩
/-- FIRST_LANE of page LINKg (R464). -/
def LINK_FIRST_LANE : Fld := ⟨0x0C00, 16, 0, 29, 26, .static, 0x0, .any, 0x0000, 0⟩
/-- WIDTH of page LINKg (R464). -/
def LINK_WIDTH : Fld := ⟨0x0C00, 16, 0, 25, 22, .static, 0x1, (.range 1 8), 0x0000, 0⟩
/-- MIRROR of page LINKg (R464). -/
def LINK_MIRROR : Fld := ⟨0x0C00, 16, 0, 21, 21, .static, 0x0, .any, 0x0000, 0⟩
/-- MIRROR_SRC of page LINKg (R464). -/
def LINK_MIRROR_SRC : Fld := ⟨0x0C00, 16, 0, 20, 18, .static, 0x0, .any, 0x0000, 0⟩
/-- STREAM_EN of page LINKg (R464), 4 of them. -/
def LINK_STREAM_EN (k : Nat) : Fld := ⟨0x0C00, 16, 1, 31 - 8 * k, 31 - 8 * k, .static, 0, .any, 0x0000, 0⟩
/-- STREAM_SEAM of page LINKg (R464), 4 of them. -/
def LINK_STREAM_SEAM (k : Nat) : Fld := ⟨0x0C00, 16, 1, 26 - 8 * k, 24 - 8 * k, .static, 0, .any, 0x0000, 0⟩
/-- TIME_PERIOD_US of page LINKg (R464). -/
def LINK_TIME_PERIOD_US : Fld := ⟨0x0C00, 16, 2, 31, 16, .static, 0x3E8, (.range 100 10000), 0x0000, 0⟩
/-- ASYM_PS of page LINKg (R464). -/
def LINK_ASYM_PS : Fld := ⟨0x0C00, 16, 2, 15, 0, .live, 0x0, .any, 0x0000, 0⟩
/-- TRAIN_TIMEOUT_MS of page LINKg (R464). -/
def LINK_TRAIN_TIMEOUT_MS : Fld := ⟨0x0C00, 16, 3, 31, 16, .static, 0x1F4, (.range 50 5000), 0x0000, 0⟩
/-- UNCORR_LIMIT of page LINKg (R464). -/
def LINK_UNCORR_LIMIT : Fld := ⟨0x0C00, 16, 3, 15, 0, .static, 0x10, (.range 1 1000), 0x0000, 0⟩
/-- ENABLE of page SDIk (R485). -/
def SDI_ENABLE : Fld := ⟨0x0D00, 1, 0, 31, 31, .static, 0x0, .any, 0x0000, 0⟩
/-- SRC_KIND of page SDIk (R485). -/
def SDI_SRC_KIND : Fld := ⟨0x0D00, 1, 0, 30, 30, .static, 0x0, .any, 0x0000, 0⟩
/-- SRC_INDEX of page SDIk (R485). -/
def SDI_SRC_INDEX : Fld := ⟨0x0D00, 1, 0, 29, 27, .static, 0x0, .any, 0x0000, 0⟩
/-- FORMAT of page SDIk (R485). -/
def SDI_FORMAT : Fld := ⟨0x0D00, 1, 0, 26, 25, .static, 0x0, .any, 0x0000, 0⟩
/-- AUDIO_MASK of page SDIk (R485). -/
def SDI_AUDIO_MASK : Fld := ⟨0x0D00, 1, 0, 23, 16, .static, 0x0, .any, 0x0000, 0⟩
/-- HOLD_FRAMES of page SDIk (R485). -/
def SDI_HOLD_FRAMES : Fld := ⟨0x0D00, 1, 0, 15, 0, .frame, 0x0, .any, 0x0000, 0⟩
/-- FPS_NUM of page SDIk (R485). -/
def SDI_FPS_NUM : Fld := ⟨0x0D00, 1, 1, 31, 0, .static, 0x3C, .any, 0x0000, 0⟩
/-- FPS_DEN of page SDIk (R485). -/
def SDI_FPS_DEN : Fld := ⟨0x0D00, 1, 2, 31, 0, .static, 0x1, .any, 0x0000, 0⟩
/-- OFFSET_NS of page SDIk (R485). -/
def SDI_OFFSET_NS : Fld := ⟨0x0D00, 1, 3, 31, 0, .static, 0x0, .any, 0x0000, 0⟩
/-- ENABLE of page ETHm (R486). -/
def ETH_ENABLE : Fld := ⟨0x0D08, 1, 0, 31, 31, .static, 0x0, .any, 0x0000, 0⟩
/-- VLAN_EN of page ETHm (R486). -/
def ETH_VLAN_EN : Fld := ⟨0x0D08, 1, 0, 30, 30, .static, 0x0, .any, 0x0000, 0⟩
/-- PCP of page ETHm (R486). -/
def ETH_PCP : Fld := ⟨0x0D08, 1, 0, 29, 27, .static, 0x4, .any, 0x0000, 0⟩
/-- VID of page ETHm (R486). -/
def ETH_VID : Fld := ⟨0x0D08, 1, 0, 11, 0, .static, 0x0, .any, 0x0000, 0⟩
/-- IP_ADDR of page ETHm (R486). -/
def ETH_IP_ADDR : Fld := ⟨0x0D08, 1, 1, 31, 0, .static, 0x0, .any, 0x0000, 0⟩
/-- GATEWAY of page ETHm (R486). -/
def ETH_GATEWAY : Fld := ⟨0x0D08, 1, 2, 31, 0, .static, 0x0, .any, 0x0000, 0⟩
/-- PREFIX of page ETHm (R486). -/
def ETH_PREFIX : Fld := ⟨0x0D08, 1, 3, 31, 24, .static, 0x18, (.range 8 30), 0x0000, 0⟩
/-- MBX_UDP_PORT of page ETHm (R486). -/
def ETH_MBX_UDP_PORT : Fld := ⟨0x0D08, 1, 3, 15, 0, .static, 0x0, .any, 0x0000, 0⟩
/-- ENABLE of page SNDs (R487). -/
def SND_ENABLE : Fld := ⟨0x0D10, 1, 0, 31, 31, .static, 0x0, .any, 0x0000, 0⟩
/-- KIND of page SNDs (R487). -/
def SND_KIND : Fld := ⟨0x0D10, 1, 0, 30, 29, .static, 0x0, (.range 0 2), 0x0000, 0⟩
/-- SRC_KIND of page SNDs (R487). -/
def SND_SRC_KIND : Fld := ⟨0x0D10, 1, 0, 28, 28, .static, 0x0, .any, 0x0000, 0⟩
/-- SRC_INDEX of page SNDs (R487). -/
def SND_SRC_INDEX : Fld := ⟨0x0D10, 1, 0, 27, 25, .static, 0x0, .any, 0x0000, 0⟩
/-- MAC of page SNDs (R487). -/
def SND_MAC : Fld := ⟨0x0D10, 1, 0, 24, 23, .static, 0x0, .any, 0x0000, 0⟩
/-- DUP_EN of page SNDs (R487). -/
def SND_DUP_EN : Fld := ⟨0x0D10, 1, 0, 22, 22, .static, 0x0, .any, 0x0000, 0⟩
/-- DUP_MAC of page SNDs (R487). -/
def SND_DUP_MAC : Fld := ⟨0x0D10, 1, 0, 21, 20, .static, 0x1, .any, 0x0000, 0⟩
/-- DSCP of page SNDs (R487). -/
def SND_DSCP : Fld := ⟨0x0D10, 1, 0, 19, 14, .static, 0x22, .any, 0x0000, 0⟩
/-- PT of page SNDs (R487). -/
def SND_PT : Fld := ⟨0x0D10, 1, 0, 13, 7, .static, 0x60, (.range 96 127), 0x0000, 0⟩
/-- PTIME of page SNDs (R487). -/
def SND_PTIME : Fld := ⟨0x0D10, 1, 0, 6, 6, .static, 0x0, .any, 0x0000, 0⟩
/-- L16 of page SNDs (R487). -/
def SND_L16 : Fld := ⟨0x0D10, 1, 0, 5, 5, .static, 0x0, .any, 0x0000, 0⟩
/-- DEST_IP of page SNDs (R487). -/
def SND_DEST_IP : Fld := ⟨0x0D10, 1, 1, 31, 0, .static, 0x0, .any, 0x0000, 0⟩
/-- DUP_DEST_IP of page SNDs (R487). -/
def SND_DUP_DEST_IP : Fld := ⟨0x0D10, 1, 2, 31, 0, .static, 0x0, .any, 0x0000, 0⟩
/-- DEST_PORT of page SNDs (R487). -/
def SND_DEST_PORT : Fld := ⟨0x0D10, 1, 3, 31, 16, .static, 0x138C, .any, 0x0000, 0⟩
/-- SRC_PORT of page SNDs (R487). -/
def SND_SRC_PORT : Fld := ⟨0x0D10, 1, 3, 15, 0, .static, 0x138C, .any, 0x0000, 0⟩
/-- SSRC of page SNDs (R487). -/
def SND_SSRC : Fld := ⟨0x0D10, 1, 4, 31, 0, .static, 0x0, .any, 0x0000, 0⟩
/-- FPS_NUM of page SNDs (R487). -/
def SND_FPS_NUM : Fld := ⟨0x0D10, 1, 5, 31, 0, .static, 0x3C, .any, 0x0000, 0⟩
/-- FPS_DEN of page SNDs (R487). -/
def SND_FPS_DEN : Fld := ⟨0x0D10, 1, 6, 31, 0, .static, 0x1, .any, 0x0000, 0⟩
/-- AUDIO_MASK of page SNDs (R487). -/
def SND_AUDIO_MASK : Fld := ⟨0x0D10, 1, 7, 31, 24, .static, 0x0, .any, 0x0000, 0⟩
/-- HOLD_FRAMES of page SNDs (R487). -/
def SND_HOLD_FRAMES : Fld := ⟨0x0D10, 1, 7, 15, 0, .frame, 0x0, .any, 0x0000, 0⟩
/-- OFFSET_NS of page SNDs (R487). -/
def SND_OFFSET_NS : Fld := ⟨0x0D10, 1, 8, 31, 0, .static, 0x0, .any, 0x0000, 0⟩
/-- SOURCE of page TIME.CLK (R520). -/
def TIME_CLK_SOURCE : Fld := ⟨0x0E00, 0, 0, 31, 30, .static, 0x0, (.range 0 1), 0x0E01, 0⟩
/-- LOCK_NS of page TIME.CLK (R520). -/
def TIME_CLK_LOCK_NS : Fld := ⟨0x0E00, 0, 0, 15, 0, .live, 0x2, (.range 1 1000), 0x0000, 0⟩
/-- KP of page TIME.CLK (R520). -/
def TIME_CLK_KP : Fld := ⟨0x0E00, 0, 1, 31, 16, .live, 0x8000, .any, 0x0000, 0⟩
/-- KI of page TIME.CLK (R520). -/
def TIME_CLK_KI : Fld := ⟨0x0E00, 0, 1, 15, 0, .live, 0x1000, .any, 0x0000, 0⟩
/-- PROFILE of page TIME.PTP (R521). -/
def TIME_PTP_PROFILE : Fld := ⟨0x0E01, 0, 0, 31, 31, .static, 0x0, .any, 0x0000, 0⟩
/-- SLAVE_ONLY of page TIME.PTP (R521). -/
def TIME_PTP_SLAVE_ONLY : Fld := ⟨0x0E01, 0, 0, 30, 30, .static, 0x1, .any, 0x0000, 0⟩
/-- DOMAIN of page TIME.PTP (R521). -/
def TIME_PTP_DOMAIN : Fld := ⟨0x0E01, 0, 0, 23, 16, .static, 0xFF, .any, 0x0000, 0⟩
/-- PRIORITY1 of page TIME.PTP (R521). -/
def TIME_PTP_PRIORITY1 : Fld := ⟨0x0E01, 0, 0, 15, 8, .static, 0x80, .any, 0x0000, 0⟩
/-- PRIORITY2 of page TIME.PTP (R521). -/
def TIME_PTP_PRIORITY2 : Fld := ⟨0x0E01, 0, 0, 7, 0, .static, 0x80, .any, 0x0000, 0⟩
/-- LOG_SYNC of page TIME.PTP (R521). -/
def TIME_PTP_LOG_SYNC : Fld := ⟨0x0E01, 0, 1, 31, 24, .static, 0x80, .any, 0x0000, 0⟩
/-- LOG_ANNOUNCE of page TIME.PTP (R521). -/
def TIME_PTP_LOG_ANNOUNCE : Fld := ⟨0x0E01, 0, 1, 23, 16, .static, 0x80, .any, 0x0000, 0⟩
/-- LOG_DELAY_REQ of page TIME.PTP (R521). -/
def TIME_PTP_LOG_DELAY_REQ : Fld := ⟨0x0E01, 0, 1, 15, 8, .static, 0x80, .any, 0x0000, 0⟩
/-- ANNOUNCE_TIMEOUT of page TIME.PTP (R521). -/
def TIME_PTP_ANNOUNCE_TIMEOUT : Fld := ⟨0x0E01, 0, 1, 7, 0, .static, 0x0, .any, 0x0000, 0⟩
/-- UTC_OFFSET of page TIME.PTP (R521). -/
def TIME_PTP_UTC_OFFSET : Fld := ⟨0x0E01, 0, 2, 15, 0, .static, 0x25, .any, 0x0000, 0⟩
/-- ENABLE of page PTPm (R522). -/
def PTP_ENABLE : Fld := ⟨0x0E08, 1, 0, 31, 31, .static, 0x0, .any, 0x0000, 0⟩
/-- ASYM_PS of page PTPm (R522). -/
def PTP_ASYM_PS : Fld := ⟨0x0E08, 1, 0, 15, 0, .live, 0x0, .any, 0x0000, 0⟩
/-- ENABLE of page TIME.ARRAY (R523). -/
def TIME_ARRAY_ENABLE : Fld := ⟨0x0E10, 0, 0, 31, 31, .static, 0x0, .any, 0x0000, 0⟩
/-- POSITION of page TIME.ARRAY (R523). -/
def TIME_ARRAY_POSITION : Fld := ⟨0x0E10, 0, 0, 26, 16, .static, 0x0, .any, 0x0000, 0⟩
/-- ARRAY_ID of page TIME.ARRAY (R523). -/
def TIME_ARRAY_ARRAY_ID : Fld := ⟨0x0E10, 0, 0, 15, 0, .static, 0x0, .any, 0x0000, 0⟩
/-- T0_S_LO of page TIME.ARRAY (R523). -/
def TIME_ARRAY_T0_S_LO : Fld := ⟨0x0E10, 0, 1, 31, 0, .static, 0x0, .any, 0x0000, 0⟩
/-- T0_S_HI of page TIME.ARRAY (R523). -/
def TIME_ARRAY_T0_S_HI : Fld := ⟨0x0E10, 0, 2, 31, 16, .static, 0x0, .any, 0x0000, 0⟩
/-- T0_NS of page TIME.ARRAY (R523). -/
def TIME_ARRAY_T0_NS : Fld := ⟨0x0E10, 0, 3, 29, 0, .static, 0x0, .any, 0x0000, 0⟩
/-- GROUP_IP of page TIME.ARRAY (R523). -/
def TIME_ARRAY_GROUP_IP : Fld := ⟨0x0E10, 0, 4, 31, 0, .static, 0x0, .any, 0x0000, 0⟩
/-- GROUP_PORT of page TIME.ARRAY (R523). -/
def TIME_ARRAY_GROUP_PORT : Fld := ⟨0x0E10, 0, 5, 31, 16, .static, 0x0, .any, 0x0000, 0⟩
/-- ARRAY_MAC of page TIME.ARRAY (R523). -/
def TIME_ARRAY_ARRAY_MAC : Fld := ⟨0x0E10, 0, 5, 1, 0, .static, 0x0, .any, 0x0000, 0⟩
/-- DF of page TIME.TC (R524). -/
def TIME_TC_DF : Fld := ⟨0x0E18, 0, 0, 31, 31, .static, 0x0, .any, 0x0000, 0⟩
/-- TC_NUM of page TIME.TC (R524). -/
def TIME_TC_TC_NUM : Fld := ⟨0x0E18, 0, 1, 31, 0, .static, 0x18, .any, 0x0000, 0⟩
/-- TC_DEN of page TIME.TC (R524). -/
def TIME_TC_TC_DEN : Fld := ⟨0x0E18, 0, 2, 31, 0, .static, 0x1, .any, 0x0000, 0⟩
/-- TZ_OFFSET_S of page TIME.TC (R524). -/
def TIME_TC_TZ_OFFSET_S : Fld := ⟨0x0E18, 0, 3, 31, 0, .static, 0x0, .any, 0x0000, 0⟩
/-- OVERLAY_EN of page ASY.CFG (R556). -/
def ASY_CFG_OVERLAY_EN : Fld := ⟨0x0F00, 0, 0, 31, 31, .live, 0x1, .any, 0x0000, 0⟩
/-- PPS_OUT_EN of page ASY.CFG (R556). -/
def ASY_CFG_PPS_OUT_EN : Fld := ⟨0x0F00, 0, 0, 30, 30, .live, 0x0, .any, 0x0000, 0⟩
/-- PPS_IN_EN of page ASY.CFG (R556). -/
def ASY_CFG_PPS_IN_EN : Fld := ⟨0x0F00, 0, 0, 29, 29, .live, 0x0, .any, 0x0000, 0⟩
/-- STROBE_EN of page ASY.CFG (R556). -/
def ASY_CFG_STROBE_EN : Fld := ⟨0x0F00, 0, 0, 27, 24, .live, 0x0, .any, 0x0000, 0⟩
/-- STROBE_POL of page ASY.CFG (R556). -/
def ASY_CFG_STROBE_POL : Fld := ⟨0x0F00, 0, 0, 23, 20, .live, 0x0, .any, 0x0000, 0⟩
/-- SIGN_EVERY of page ASY.CFG (R556). -/
def ASY_CFG_SIGN_EVERY : Fld := ⟨0x0F00, 0, 0, 10, 0, .live, 0x1, (.range 1 1024), 0x0F09, 0⟩
/-- PPS_WIDTH_MS of page ASY.CFG (R556). -/
def ASY_CFG_PPS_WIDTH_MS : Fld := ⟨0x0F00, 0, 1, 31, 16, .live, 0x64, (.range 1 900), 0x0F09, 0⟩
/-- ENABLE of page RED (R587). -/
def RED_ENABLE : Fld := ⟨0x1000, 0, 0, 31, 31, .static, 0x0, .any, 0x0000, 0⟩
/-- PREF of page RED (R587). -/
def RED_PREF : Fld := ⟨0x1000, 0, 0, 30, 30, .static, 0x0, .any, 0x0000, 0⟩
/-- REF_SEAM of page RED (R587). -/
def RED_REF_SEAM : Fld := ⟨0x1000, 0, 0, 29, 27, .static, 0x0, .any, 0x0000, 0⟩
/-- START_WAIT_MS of page RED (R587). -/
def RED_START_WAIT_MS : Fld := ⟨0x1000, 0, 0, 15, 0, .static, 0x7D0, (.range 100 60000), 0x0000, 0⟩
/-- PEER_SERIAL_LO of page RED (R587). -/
def RED_PEER_SERIAL_LO : Fld := ⟨0x1000, 0, 1, 31, 0, .static, 0x0, .any, 0x0000, 0⟩
/-- PEER_SERIAL_HI of page RED (R587). -/
def RED_PEER_SERIAL_HI : Fld := ⟨0x1000, 0, 2, 31, 0, .static, 0x0, .any, 0x0000, 0⟩
/-- ENABLE of page VFk.PANEL (R621). -/
def VF_PANEL_ENABLE : Fld := ⟨0x1100, 16, 0, 31, 31, .static, 0x0, .any, 0x0000, 0⟩
/-- LANES of page VFk.PANEL (R621). -/
def VF_PANEL_LANES : Fld := ⟨0x1100, 16, 0, 30, 29, .static, 0x3, .any, 0x0000, 0⟩
/-- PIXFMT of page VFk.PANEL (R621). -/
def VF_PANEL_PIXFMT : Fld := ⟨0x1100, 16, 0, 28, 28, .static, 0x0, .any, 0x0000, 0⟩
/-- RATE_MBPS of page VFk.PANEL (R621). -/
def VF_PANEL_RATE_MBPS : Fld := ⟨0x1100, 16, 0, 11, 0, .static, 0x9C4, (.range 80 2500), 0x0000, 0⟩
/-- PANEL_W of page VFk.PANEL (R621). -/
def VF_PANEL_PANEL_W : Fld := ⟨0x1100, 16, 1, 31, 16, .static, 0x780, .any, 0x0000, 0⟩
/-- PANEL_H of page VFk.PANEL (R621). -/
def VF_PANEL_PANEL_H : Fld := ⟨0x1100, 16, 1, 15, 0, .static, 0x4B0, .any, 0x0000, 0⟩
/-- PANEL_HZ of page VFk.PANEL (R621). -/
def VF_PANEL_PANEL_HZ : Fld := ⟨0x1100, 16, 2, 31, 24, .static, 0x3C, (.range 24 240), 0x0000, 0⟩
/-- TE_LEAD_US of page VFk.PANEL (R621). -/
def VF_PANEL_TE_LEAD_US : Fld := ⟨0x1100, 16, 2, 15, 0, .static, 0xC8, .any, 0x0000, 0⟩
/-- INIT of page VFk.PANEL (R621). -/
def VF_PANEL_INIT : Fld := ⟨0x1100, 16, 3, 31, 16, .static, 0x0, .any, 0x0000, 0⟩
/-- TAP_EN of page VFk.SRC (R622). -/
def VF_SRC_TAP_EN : Fld := ⟨0x1101, 16, 0, 31, 31, .static, 0x0, .any, 0x0000, 0⟩
/-- TAP_SRC of page VFk.SRC (R622). -/
def VF_SRC_TAP_SRC : Fld := ⟨0x1101, 16, 0, 30, 28, .static, 0x0, .any, 0x0000, 0⟩
/-- BLANK_MS of page VFk.SRC (R622). -/
def VF_SRC_BLANK_MS : Fld := ⟨0x1101, 16, 0, 15, 0, .frame, 0x0, .any, 0x0000, 0⟩
/-- TAP_X of page VFk.SRC (R622). -/
def VF_SRC_TAP_X : Fld := ⟨0x1101, 16, 1, 31, 16, .static, 0x0, .any, 0x0000, 0⟩
/-- TAP_Y of page VFk.SRC (R622). -/
def VF_SRC_TAP_Y : Fld := ⟨0x1101, 16, 1, 15, 0, .static, 0x0, .any, 0x0000, 0⟩
/-- BG_R of page VFk.SRC (R622). -/
def VF_SRC_BG_R : Fld := ⟨0x1101, 16, 2, 29, 20, .frame, 0x0, .any, 0x0000, 0⟩
/-- BG_G of page VFk.SRC (R622). -/
def VF_SRC_BG_G : Fld := ⟨0x1101, 16, 2, 19, 10, .frame, 0x0, .any, 0x0000, 0⟩
/-- BG_B of page VFk.SRC (R622). -/
def VF_SRC_BG_B : Fld := ⟨0x1101, 16, 2, 9, 0, .frame, 0x0, .any, 0x0000, 0⟩
/-- ASSAY_X of page VFk.SRC (R622). -/
def VF_SRC_ASSAY_X : Fld := ⟨0x1101, 16, 3, 31, 16, .static, 0x0, .any, 0x0000, 0⟩
/-- ASSAY_Y of page VFk.SRC (R622). -/
def VF_SRC_ASSAY_Y : Fld := ⟨0x1101, 16, 3, 15, 0, .static, 0x0, .any, 0x0000, 0⟩
/-- ENABLE of page VFk.OVLj (R623). -/
def VF_OVL_ENABLE : Fld := ⟨0x1104, 1, 0, 31, 31, .frame, 0x0, .any, 0x0000, 0⟩
/-- CADENCE_HZ of page VFk.OVLj (R623). -/
def VF_OVL_CADENCE_HZ : Fld := ⟨0x1104, 1, 0, 5, 0, .frame, 0x0, (.range 0 60), 0x0000, 0⟩
/-- W of page VFk.OVLj (R623). -/
def VF_OVL_W : Fld := ⟨0x1104, 1, 1, 31, 16, .static, 0x200, .any, 0x0000, 0⟩
/-- H of page VFk.OVLj (R623). -/
def VF_OVL_H : Fld := ⟨0x1104, 1, 1, 15, 0, .static, 0x80, .any, 0x0000, 0⟩
/-- X of page VFk.OVLj (R623). -/
def VF_OVL_X : Fld := ⟨0x1104, 1, 2, 31, 16, .frame, 0x0, .any, 0x0000, 0⟩
/-- Y of page VFk.OVLj (R623). -/
def VF_OVL_Y : Fld := ⟨0x1104, 1, 2, 15, 0, .frame, 0x0, .any, 0x0000, 0⟩
/-- ENABLE of page AUDp (R624). -/
def AUD_ENABLE : Fld := ⟨0x1200, 1, 0, 31, 31, .static, 0x0, .any, 0x0000, 0⟩
/-- DIR of page AUDp (R624). -/
def AUD_DIR : Fld := ⟨0x1200, 1, 0, 30, 30, .static, 0x0, .any, 0x0000, 0⟩
/-- MASTER of page AUDp (R624). -/
def AUD_MASTER : Fld := ⟨0x1200, 1, 0, 29, 29, .static, 0x1, .any, 0x0000, 0⟩
/-- FORMAT of page AUDp (R624). -/
def AUD_FORMAT : Fld := ⟨0x1200, 1, 0, 28, 28, .static, 0x0, .any, 0x0000, 0⟩
/-- WIDTH of page AUDp (R624). -/
def AUD_WIDTH : Fld := ⟨0x1200, 1, 0, 27, 26, .static, 0x1, (.range 0 2), 0x0000, 0⟩
/-- RATE of page AUDp (R624). -/
def AUD_RATE : Fld := ⟨0x1200, 1, 0, 25, 24, .static, 0x0, (.range 0 2), 0x0000, 0⟩
/-- RUN of page AUDp (R624). -/
def AUD_RUN : Fld := ⟨0x1200, 1, 0, 23, 23, .static, 0x1, .any, 0x0000, 0⟩
/-- CH_EN of page AUDp (R624). -/
def AUD_CH_EN : Fld := ⟨0x1200, 1, 0, 22, 21, .frame, 0x3, .any, 0x0000, 0⟩
/-- SRC of page AUDp (R624). -/
def AUD_SRC : Fld := ⟨0x1200, 1, 0, 20, 20, .static, 0x0, .any, 0x0000, 0⟩
/-- SRC_PORT of page AUDp (R624). -/
def AUD_SRC_PORT : Fld := ⟨0x1200, 1, 0, 19, 17, .static, 0x0, .any, 0x0000, 0⟩
/-- DELAY_BLOCKS of page AUDp (R624). -/
def AUD_DELAY_BLOCKS : Fld := ⟨0x1200, 1, 0, 16, 8, .static, 0x4, (.range 1 256), 0x0000, 0⟩
/-- BUFS of page AUDp (R624). -/
def AUD_BUFS : Fld := ⟨0x1200, 1, 0, 5, 0, .static, 0x8, (.range 4 63), 0x0000, 0⟩
/-- MCLK0_EN of page AUD.MCLK (R625). -/
def AUD_MCLK_MCLK0_EN : Fld := ⟨0x1208, 0, 0, 31, 31, .static, 0x0, .any, 0x0000, 0⟩
/-- MCLK0_MULT of page AUD.MCLK (R625). -/
def AUD_MCLK_MCLK0_MULT : Fld := ⟨0x1208, 0, 0, 30, 30, .static, 0x0, .any, 0x0000, 0⟩
/-- MCLK1_EN of page AUD.MCLK (R625). -/
def AUD_MCLK_MCLK1_EN : Fld := ⟨0x1208, 0, 0, 29, 29, .static, 0x0, .any, 0x0000, 0⟩
/-- MCLK1_MULT of page AUD.MCLK (R625). -/
def AUD_MCLK_MCLK1_MULT : Fld := ⟨0x1208, 0, 0, 28, 28, .static, 0x0, .any, 0x0000, 0⟩
/-- DENSITY of page DRAM.CFG (R647). -/
def DRAM_CFG_DENSITY : Fld := ⟨0x1300, 0, 0, 31, 30, .static, 0x3, .any, 0x0000, 0⟩
/-- BLAST of page DRAM.CFG (R647). -/
def DRAM_CFG_BLAST : Fld := ⟨0x1300, 0, 0, 29, 28, .static, 0x1, (.range 1 2), 0x1301, 0⟩
/-- ACT_THRESH of page DRAM.CFG (R647). -/
def DRAM_CFG_ACT_THRESH : Fld := ⟨0x1300, 0, 0, 15, 0, .static, 0x800, (.range 512 8192), 0x1301, 0⟩
/-- AGE_NS of page DRAM.CFG (R647). -/
def DRAM_CFG_AGE_NS : Fld := ⟨0x1300, 0, 1, 31, 16, .static, 0x7D0, (.range 500 10000), 0x1301, 0⟩
/-- SCRUB_H of page DRAM.CFG (R647). -/
def DRAM_CFG_SCRUB_H : Fld := ⟨0x1300, 0, 1, 15, 8, .static, 0x18, (.range 0 168), 0x1301, 0⟩
/-- PROFILE_MSG of page DEV1 (R672). -/
def DEV1_PROFILE_MSG : Fld := ⟨0x0101, 0, 0, 31, 30, .static, 0x1, (.range 0 2), 0x0000, 0⟩
/-- START_PROFILE of page DEV1 (R672). -/
def DEV1_START_PROFILE : Fld := ⟨0x0101, 0, 0, 3, 0, .static, 0x0, .any, 0x0000, 0⟩
/-- RECEIVER of page MBX (R701), 14 of them. -/
def MBX_RECEIVER (c : Nat) : Fld := ⟨0x1400, 0, c / 8, 31 - 4 * (c % 8), 28 - 4 * (c % 8), .static, 1 + c % 4, (.range 0 4), 0x1401, 0⟩
/-- UDP_PRIV of page MBX (R701). -/
def MBX_UDP_PRIV : Fld := ⟨0x1400, 0, 2, 31, 31, .static, 0x0, .any, 0x0000, 0⟩
/-- FWD_CHANNEL of page MBX (R701). -/
def MBX_FWD_CHANNEL : Fld := ⟨0x1400, 0, 2, 19, 16, .static, 0x0, (.range 0 13), 0x0000, 0⟩
/-- REPLY_HOLD_MS of page MBX (R701). -/
def MBX_REPLY_HOLD_MS : Fld := ⟨0x1400, 0, 2, 15, 0, .static, 0x64, (.range 10 10000), 0x0000, 0⟩
/-- WDT_MS of page MGMT (R729). -/
def MGMT_WDT_MS : Fld := ⟨0x1500, 0, 0, 31, 16, .static, 0x64, (.range 10 1000), 0x1501, 0⟩
/-- REF_SENSOR of page MGMT (R729). -/
def MGMT_REF_SENSOR : Fld := ⟨0x1500, 0, 0, 14, 8, .static, 0x0, .any, 0x0000, 0⟩
/-- ENCRYPT of page SEC (R757). -/
def SEC_ENCRYPT : Fld := ⟨0x1600, 0, 0, 31, 31, .static, 0x0, .any, 0x0000, 0⟩
/-- RECIP_KEYS of page SEC (R757). -/
def SEC_RECIP_KEYS : Fld := ⟨0x1600, 0, 0, 15, 0, .static, 0x0, .any, 0x0000, 0⟩
/-- SUSPEND_EN of page PWR (R807). -/
def PWR_SUSPEND_EN : Fld := ⟨0x1700, 0, 0, 31, 31, .static, 0x0, .any, 0x0000, 0⟩
/-- CORE_PMBUS of page PWR (R807). -/
def PWR_CORE_PMBUS : Fld := ⟨0x1700, 0, 0, 22, 16, .static, 0x0, .any, 0x0000, 0⟩
/-- PMBUS_PAGE of page PWR (R807). -/
def PWR_PMBUS_PAGE : Fld := ⟨0x1700, 0, 0, 15, 8, .static, 0x0, .any, 0x0000, 0⟩

end Sys2Proof.Machine.F

namespace Sys2Proof.Machine

/-- Page DEV0 (R23). -/
def page_DEV0 : Page := { base := 0x0100, offs := [0], words := 1, fields :=
    [F.DEV0_ROLE] }
/-- Page SPn.PORT (R91). -/
def page_SPn_PORT : Page := { base := 0x0200, offs := [0, 16, 32, 48], words := 2, fields :=
    [F.SP_PORT_ENABLE, F.SP_PORT_GANG, F.SP_PORT_DEPTH, F.SP_PORT_DV_USE, F.SP_PORT_FAULT_POLICY, F.SP_PORT_POL_AUTO, F.SP_PORT_SENSOR_LATENCY, F.SP_PORT_CK_MHZ, F.SP_PORT_FV_EDGE_GAP, F.SP_PORT_LV_GAP] }
/-- Page SPn.TRAIN (R92). -/
def page_SPn_TRAIN : Page := { base := 0x0201, offs := [0, 16, 32, 48], words := 33, fields :=
    [F.SP_TRAIN_MIN_WINDOW, F.SP_TRAIN_LENGTH] ++ (List.range 16).map F.SP_TRAIN_PAT_D_LO ++ (List.range 16).map F.SP_TRAIN_PAT_DV ++ (List.range 16).map F.SP_TRAIN_PAT_LV ++ (List.range 16).map F.SP_TRAIN_PAT_FV ++ (List.range 16).map F.SP_TRAIN_PAT_D_HI }
/-- Page SPn.SCBUS (R93). -/
def page_SPn_SCBUS : Page := { base := 0x0202, offs := [0, 16, 32, 48], words := 4, fields :=
    [F.SP_SCBUS_MODE, F.SP_SCBUS_SPI_MODE, F.SP_SCBUS_RATE, F.SP_SCBUS_TIMEOUT_US, F.SP_SCBUS_INIT_SCRIPT, F.SP_SCBUS_TRAIN_ON_SCRIPT, F.SP_SCBUS_TRAIN_OFF_SCRIPT, F.SP_SCBUS_SEQ_DELAY_US, F.SP_SCBUS_SEQ_GUARD_US] }
/-- Page SPn.TRIG (R94). -/
def page_SPn_TRIG : Page := { base := 0x0203, offs := [0, 16, 32, 48], words := 2, fields :=
    [F.SP_TRIG_ENABLE, F.SP_TRIG_POLARITY, F.SP_TRIG_WIDTH_NS, F.SP_TRIG_DELAY_NS] }
/-- Page SEAMn.SRC (R127). -/
def page_SEAMn_SRC : Page := { base := 0x0300, offs := [0, 16, 32, 48, 64, 80, 96, 112], words := 1, fields :=
    [F.SEAM_SRC_ENABLE, F.SEAM_SRC_SRC_TYPE, F.SEAM_SRC_DEPTH, F.SEAM_SRC_CFA_PHASE, F.SEAM_SRC_SRC_INDEX] }
/-- Page SEAMn.GEOM (R128). -/
def page_SEAMn_GEOM : Page := { base := 0x0301, offs := [0, 16, 32, 48, 64, 80, 96, 112], words := 4, fields :=
    [F.SEAM_GEOM_WIDTH, F.SEAM_GEOM_HEIGHT, F.SEAM_GEOM_FPS_NUM, F.SEAM_GEOM_FPS_DEN, F.SEAM_GEOM_MIN_LINE_NS] }
/-- Page SEAMn.SCHED (R129). -/
def page_SEAMn_SCHED : Page := { base := 0x0302, offs := [0, 16, 32, 48, 64, 80, 96, 112], words := 2, fields :=
    [F.SEAM_SCHED_MODE, F.SEAM_SCHED_STRIPE_LINES, F.SEAM_SCHED_RING_DEPTH, F.SEAM_SCHED_LATENCY_US] }
/-- Page RFEn.LIN (R160). -/
def page_RFEn_LIN : Page := { base := 0x0400, offs := [0, 1, 2, 3, 4, 5, 6, 7], words := 1, fields :=
    [F.RFE_LIN_ENABLE, F.RFE_LIN_SHARED, F.RFE_LIN_LINK_FRAC, F.RFE_LIN_TABLE] }
/-- Page RFEn.BLACK (R161). -/
def page_RFEn_BLACK : Page := { base := 0x0408, offs := [0, 1, 2, 3, 4, 5, 6, 7], words := 10, fields :=
    [F.RFE_BLACK_MODE, F.RFE_BLACK_K_FILTER, F.RFE_BLACK_CD_FILTER, F.RFE_BLACK_OBR_TOP, F.RFE_BLACK_OBC_LEFT, F.RFE_BLACK_OBC_RIGHT] ++ (List.range 8).map F.RFE_BLACK_BLACK_FIXED }
/-- Page RFEn.MERGE (R162). -/
def page_RFEn_MERGE : Page := { base := 0x0410, offs := [0, 1, 2, 3, 4, 5, 6, 7], words := 4, fields :=
    [F.RFE_MERGE_DG_ENABLE, F.RFE_MERGE_RATIO, F.RFE_MERGE_T0, F.RFE_MERGE_T1] }
/-- Page RFEn.DEFECT (R163). -/
def page_RFEn_DEFECT : Page := { base := 0x0418, offs := [0, 1, 2, 3, 4, 5, 6, 7], words := 2, fields :=
    [F.RFE_DEFECT_STATIC_EN, F.RFE_DEFECT_DYN_EN, F.RFE_DEFECT_MAP, F.RFE_DEFECT_DYN_REL, F.RFE_DEFECT_DYN_ABS] }
/-- Page RFEn.CORR (R164). -/
def page_RFEn_CORR : Page := { base := 0x0420, offs := [0, 1, 2, 3, 4, 5, 6, 7], words := 3, fields :=
    [F.RFE_CORR_FPN_EN, F.RFE_CORR_GI_EN, F.RFE_CORR_SHADE_EN, F.RFE_CORR_FPN_MAP, F.RFE_CORR_SHADE_GRID, F.RFE_CORR_GI_STRENGTH, F.RFE_CORR_GI_THRESH] }
/-- Page RFEn.WB (R165). -/
def page_RFEn_WB : Page := { base := 0x0428, offs := [0, 1, 2, 3, 4, 5, 6, 7], words := 2, fields :=
    [F.RFE_WB_GAIN_R, F.RFE_WB_GAIN_GR, F.RFE_WB_GAIN_GB, F.RFE_WB_GAIN_B] }
/-- Page STATSn (R166). -/
def page_STATSn : Page := { base := 0x0600, offs := [0, 1, 2, 3, 4, 5, 6, 7], words := 2, fields :=
    [F.STATS_ENABLE, F.STATS_LUMA_EN, F.STATS_LUMA_TAP, F.STATS_HIST_SHIFT, F.STATS_DEPTH, F.STATS_CLIP_LEVEL] }
/-- Page TAPn.SRC (R199). -/
def page_TAPn_SRC : Page := { base := 0x0500, offs := [0, 16, 32, 48, 64, 80, 96, 112], words := 2, fields :=
    [F.TAP_SRC_ENABLE, F.TAP_SRC_SEAM, F.TAP_SRC_FORMAT, F.TAP_SRC_BITS, F.TAP_SRC_RANGE, F.TAP_SRC_DEPTH, F.TAP_SRC_OUT_W, F.TAP_SRC_OUT_H] }
/-- Page TAPn.COLOUR (R200). -/
def page_TAPn_COLOUR : Page := { base := 0x0501, offs := [0, 16, 32, 48, 64, 80, 96, 112], words := 21, fields :=
    [F.TAP_COLOUR_TRIM_R, F.TAP_COLOUR_TRIM_G, F.TAP_COLOUR_TRIM_B, F.TAP_COLOUR_EXP_GAIN, F.TAP_COLOUR_ACES] ++ (List.range 9).map F.TAP_COLOUR_CAM_M ++ (List.range 9).map F.TAP_COLOUR_ACES_M }
/-- Page TAPn.TONE (R201). -/
def page_TAPn_TONE : Page := { base := 0x0502, offs := [0, 16, 32, 48, 64, 80, 96, 112], words := 2, fields :=
    [F.TAP_TONE_SHAPER_EN, F.TAP_TONE_LUT_EN, F.TAP_TONE_LUT_SIZE, F.TAP_TONE_CURVE, F.TAP_TONE_YCC, F.TAP_TONE_LUT_UNIT, F.TAP_TONE_PQ_REF, F.TAP_TONE_SHAPER_TABLE, F.TAP_TONE_CURVE_TABLE] }
/-- Page TAPn.SCALE (R202). -/
def page_TAPn_SCALE : Page := { base := 0x0503, offs := [0, 16, 32, 48, 64, 80, 96, 112], words := 1, fields :=
    [F.TAP_SCALE_H_COEFF, F.TAP_SCALE_V_COEFF] }
/-- Page RFEn.DM (R203). -/
def page_RFEn_DM : Page := { base := 0x0438, offs := [0, 1, 2, 3, 4, 5, 6, 7], words := 1, fields :=
    [F.RFE_DM_EDGE_THRESH] }
/-- Page ADITn (R204). -/
def page_ADITn : Page := { base := 0x0430, offs := [0, 1, 2, 3], words := 1, fields :=
    [F.ADIT_ENABLE, F.ADIT_SEAM, F.ADIT_POINT, F.ADIT_HOST_READ, F.ADIT_DEPTH, F.ADIT_FRAC, F.ADIT_BUFS] }
/-- Page LOOPn.AE (R227). -/
def page_LOOPn_AE : Page := { base := 0x0610, offs := [0, 1, 2, 3, 4, 5, 6, 7], words := 8, fields :=
    [F.LOOP_AE_AE_MODE, F.LOOP_AE_LOCK, F.LOOP_AE_AE_FRAMES, F.LOOP_AE_TARGET, F.LOOP_AE_DAMP, F.LOOP_AE_CLIP_GUARD, F.LOOP_AE_DEADBAND, F.LOOP_AE_EXP_SET_NS, F.LOOP_AE_EXP_MIN_NS, F.LOOP_AE_EXP_MAX_NS, F.LOOP_AE_GAIN_SET, F.LOOP_AE_GAIN_MAX, F.LOOP_AE_WEIGHTS, F.LOOP_AE_LEADER_SEAM, F.LOOP_AE_LEADER_POS, F.LOOP_AE_LOCK_SLACK] }
/-- Page LOOPn.AWB (R228). -/
def page_LOOPn_AWB : Page := { base := 0x0618, offs := [0, 1, 2, 3, 4, 5, 6, 7], words := 3, fields :=
    [F.LOOP_AWB_AWB_MODE, F.LOOP_AWB_WB_DAMP, F.LOOP_AWB_WB_MIN_ZONES, F.LOOP_AWB_WB_LO, F.LOOP_AWB_WB_HI, F.LOOP_AWB_WB_MIN, F.LOOP_AWB_WB_MAX] }
/-- Page LOOPn.SENSOR (R229). -/
def page_LOOPn_SENSOR : Page := { base := 0x0620, offs := [0, 1, 2, 3, 4, 5, 6, 7], words := 3, fields :=
    [F.LOOP_SENSOR_LINE_Q, F.LOOP_SENSOR_EXP_MIN_LINES, F.LOOP_SENSOR_EXP_MARGIN_LINES, F.LOOP_SENSOR_GAIN_TABLE, F.LOOP_SENSOR_MAP] }
/-- Page CMP.LINK (R266). -/
def page_CMP_LINK : Page := { base := 0x0700, offs := [0], words := 1, fields :=
    [F.CMP_LINK_LINK_SEAMS] }
/-- Page CMPn (R267). -/
def page_CMPn : Page := { base := 0x0708, offs := [0, 1, 2, 3], words := 1, fields :=
    [F.CMP_ENABLE, F.CMP_MODE, F.CMP_KCODE, F.CMP_FRAME_LIST] }
/-- Page CODECm.STRM (R314). -/
def page_CODECm_STRM : Page := { base := 0x0800, offs := [0, 1, 2, 3, 4, 5, 6, 7], words := 4, fields :=
    [F.CODEC_STRM_ENABLE, F.CODEC_STRM_DIR, F.CODEC_STRM_PROFILE, F.CODEC_STRM_TIER, F.CODEC_STRM_CHROMA, F.CODEC_STRM_BITS, F.CODEC_STRM_LOW_LAT, F.CODEC_STRM_SRC_KIND, F.CODEC_STRM_SRC_INDEX, F.CODEC_STRM_LEVEL, F.CODEC_STRM_HOST_READ, F.CODEC_STRM_DEPTH, F.CODEC_STRM_MAX_BPS, F.CODEC_STRM_RING_BYTES, F.CODEC_STRM_LATENCY_US] }
/-- Page CODECm.PIC (R315). -/
def page_CODECm_PIC : Page := { base := 0x0808, offs := [0, 1, 2, 3, 4, 5, 6, 7], words := 6, fields :=
    [F.CODEC_PIC_OUT_W, F.CODEC_PIC_OUT_H, F.CODEC_PIC_ROT, F.CODEC_PIC_MIRROR, F.CODEC_PIC_FRAME_DIV, F.CODEC_PIC_H_COEFF, F.CODEC_PIC_V_COEFF, F.CODEC_PIC_DEC_FPS_NUM, F.CODEC_PIC_DEC_FPS_DEN, F.CODEC_PIC_DEC_SRC, F.CODEC_PIC_DEC_TIMEOUT] }
/-- Page CODECm.RC (R316). -/
def page_CODECm_RC : Page := { base := 0x0810, offs := [0, 1, 2, 3, 4, 5, 6, 7], words := 5, fields :=
    [F.CODEC_RC_RC_MODE, F.CODEC_RC_QP_INIT, F.CODEC_RC_QP_MIN, F.CODEC_RC_QP_MAX, F.CODEC_RC_SLICE_ROWS, F.CODEC_RC_W_I, F.CODEC_RC_INTRA_PERIOD, F.CODEC_RC_REFS, F.CODEC_RC_TARGET_BPS, F.CODEC_RC_CPB_BITS, F.CODEC_RC_PIC_CAP_BYTES] }
/-- Page REC.VOL (R360). -/
def page_REC_VOL : Page := { base := 0x0900, offs := [0], words := 6, fields :=
    [F.REC_VOL_ENABLE, F.REC_VOL_GRANULE, F.REC_VOL_DUAL_PORT, F.REC_VOL_RP_MASK, F.REC_VOL_DURABLE_MS, F.REC_VOL_SSD_TIMEOUT_MS, F.REC_VOL_SIDECAR_GRANULES] ++ (List.range 4).map F.REC_VOL_SSD_WRITE_MBPS }
/-- Page RECn (R361). -/
def page_RECn : Page := { base := 0x0908, offs := [0, 1, 2, 3, 4, 5, 6, 7], words := 3, fields :=
    [F.REC_ENABLE, F.REC_KIND, F.REC_SOURCE, F.REC_PREROLL_MS, F.REC_RATE, F.REC_STAGE_BYTES] }
/-- Page EP0 (R389). -/
def page_EP0 : Page := { base := 0x0A00, offs := [0], words := 3, fields :=
    [F.EP0_ENABLE, F.EP0_IOQ_MAX, F.EP0_HOST_TIMEOUT_MS, F.EP0_SSVID, F.EP0_SSID, F.EP0_MQES] }
/-- Page LANEn (R425). -/
def page_LANEn : Page := { base := 0x0B00, offs := [0, 1, 2, 3, 4, 5, 6, 7, 8, 9, 10, 11, 12, 13, 14, 15, 16, 17, 18, 19, 20, 21, 22, 23, 24, 25, 26, 27, 28, 29, 30, 31, 32, 33, 34, 35, 36, 37, 38, 39], words := 3, fields :=
    [F.LANE_PROTO, F.LANE_RATE, F.LANE_PORT, F.LANE_TX_INV, F.LANE_RX_INV, F.LANE_POL_AUTO, F.LANE_ADAPT, F.LANE_CTLE_FIXED, F.LANE_CTLE_SET, F.LANE_LOS_MV, F.LANE_C_M3, F.LANE_C_M2, F.LANE_C_M1, F.LANE_C0, F.LANE_C_P1, F.LANE_AN_EN, F.LANE_TRAIN_EN, F.LANE_FEC] }
/-- Page LINKg (R464). -/
def page_LINKg : Page := { base := 0x0C00, offs := [0, 16, 32, 48, 64, 80, 96, 112, 128], words := 4, fields :=
    [F.LINK_ENABLE, F.LINK_MODE, F.LINK_FIRST_LANE, F.LINK_WIDTH, F.LINK_MIRROR, F.LINK_MIRROR_SRC, F.LINK_TIME_PERIOD_US, F.LINK_ASYM_PS, F.LINK_TRAIN_TIMEOUT_MS, F.LINK_UNCORR_LIMIT] ++ (List.range 4).map F.LINK_STREAM_EN ++ (List.range 4).map F.LINK_STREAM_SEAM }
/-- Page SDIk (R485). -/
def page_SDIk : Page := { base := 0x0D00, offs := [0, 1, 2, 3], words := 4, fields :=
    [F.SDI_ENABLE, F.SDI_SRC_KIND, F.SDI_SRC_INDEX, F.SDI_FORMAT, F.SDI_AUDIO_MASK, F.SDI_HOLD_FRAMES, F.SDI_FPS_NUM, F.SDI_FPS_DEN, F.SDI_OFFSET_NS] }
/-- Page ETHm (R486). -/
def page_ETHm : Page := { base := 0x0D08, offs := [0, 1, 2, 3], words := 4, fields :=
    [F.ETH_ENABLE, F.ETH_VLAN_EN, F.ETH_PCP, F.ETH_VID, F.ETH_IP_ADDR, F.ETH_GATEWAY, F.ETH_PREFIX, F.ETH_MBX_UDP_PORT] }
/-- Page SNDs (R487). -/
def page_SNDs : Page := { base := 0x0D10, offs := [0, 1, 2, 3, 4, 5, 6, 7, 8, 9, 10, 11, 12, 13, 14, 15], words := 9, fields :=
    [F.SND_ENABLE, F.SND_KIND, F.SND_SRC_KIND, F.SND_SRC_INDEX, F.SND_MAC, F.SND_DUP_EN, F.SND_DUP_MAC, F.SND_DSCP, F.SND_PT, F.SND_PTIME, F.SND_L16, F.SND_DEST_IP, F.SND_DUP_DEST_IP, F.SND_DEST_PORT, F.SND_SRC_PORT, F.SND_SSRC, F.SND_FPS_NUM, F.SND_FPS_DEN, F.SND_AUDIO_MASK, F.SND_HOLD_FRAMES, F.SND_OFFSET_NS] }
/-- Page TIME.CLK (R520). -/
def page_TIME_CLK : Page := { base := 0x0E00, offs := [0], words := 2, fields :=
    [F.TIME_CLK_SOURCE, F.TIME_CLK_LOCK_NS, F.TIME_CLK_KP, F.TIME_CLK_KI] }
/-- Page TIME.PTP (R521). -/
def page_TIME_PTP : Page := { base := 0x0E01, offs := [0], words := 3, fields :=
    [F.TIME_PTP_PROFILE, F.TIME_PTP_SLAVE_ONLY, F.TIME_PTP_DOMAIN, F.TIME_PTP_PRIORITY1, F.TIME_PTP_PRIORITY2, F.TIME_PTP_LOG_SYNC, F.TIME_PTP_LOG_ANNOUNCE, F.TIME_PTP_LOG_DELAY_REQ, F.TIME_PTP_ANNOUNCE_TIMEOUT, F.TIME_PTP_UTC_OFFSET] }
/-- Page PTPm (R522). -/
def page_PTPm : Page := { base := 0x0E08, offs := [0, 1, 2, 3], words := 1, fields :=
    [F.PTP_ENABLE, F.PTP_ASYM_PS] }
/-- Page TIME.ARRAY (R523). -/
def page_TIME_ARRAY : Page := { base := 0x0E10, offs := [0], words := 6, fields :=
    [F.TIME_ARRAY_ENABLE, F.TIME_ARRAY_POSITION, F.TIME_ARRAY_ARRAY_ID, F.TIME_ARRAY_T0_S_LO, F.TIME_ARRAY_T0_S_HI, F.TIME_ARRAY_T0_NS, F.TIME_ARRAY_GROUP_IP, F.TIME_ARRAY_GROUP_PORT, F.TIME_ARRAY_ARRAY_MAC] }
/-- Page TIME.TC (R524). -/
def page_TIME_TC : Page := { base := 0x0E18, offs := [0], words := 4, fields :=
    [F.TIME_TC_DF, F.TIME_TC_TC_NUM, F.TIME_TC_TC_DEN, F.TIME_TC_TZ_OFFSET_S] }
/-- Page ASY.CFG (R556). -/
def page_ASY_CFG : Page := { base := 0x0F00, offs := [0], words := 2, fields :=
    [F.ASY_CFG_OVERLAY_EN, F.ASY_CFG_PPS_OUT_EN, F.ASY_CFG_PPS_IN_EN, F.ASY_CFG_STROBE_EN, F.ASY_CFG_STROBE_POL, F.ASY_CFG_SIGN_EVERY, F.ASY_CFG_PPS_WIDTH_MS] }
/-- Page RED (R587). -/
def page_RED : Page := { base := 0x1000, offs := [0], words := 3, fields :=
    [F.RED_ENABLE, F.RED_PREF, F.RED_REF_SEAM, F.RED_START_WAIT_MS, F.RED_PEER_SERIAL_LO, F.RED_PEER_SERIAL_HI] }
/-- Page VFk.PANEL (R621). -/
def page_VFk_PANEL : Page := { base := 0x1100, offs := [0, 16], words := 4, fields :=
    [F.VF_PANEL_ENABLE, F.VF_PANEL_LANES, F.VF_PANEL_PIXFMT, F.VF_PANEL_RATE_MBPS, F.VF_PANEL_PANEL_W, F.VF_PANEL_PANEL_H, F.VF_PANEL_PANEL_HZ, F.VF_PANEL_TE_LEAD_US, F.VF_PANEL_INIT] }
/-- Page VFk.SRC (R622). -/
def page_VFk_SRC : Page := { base := 0x1101, offs := [0, 16], words := 4, fields :=
    [F.VF_SRC_TAP_EN, F.VF_SRC_TAP_SRC, F.VF_SRC_BLANK_MS, F.VF_SRC_TAP_X, F.VF_SRC_TAP_Y, F.VF_SRC_BG_R, F.VF_SRC_BG_G, F.VF_SRC_BG_B, F.VF_SRC_ASSAY_X, F.VF_SRC_ASSAY_Y] }
/-- Page VFk.OVLj (R623). -/
def page_VFk_OVLj : Page := { base := 0x1104, offs := [0, 1, 2, 3, 16, 17, 18, 19], words := 3, fields :=
    [F.VF_OVL_ENABLE, F.VF_OVL_CADENCE_HZ, F.VF_OVL_W, F.VF_OVL_H, F.VF_OVL_X, F.VF_OVL_Y] }
/-- Page AUDp (R624). -/
def page_AUDp : Page := { base := 0x1200, offs := [0, 1, 2, 3, 4, 5, 6, 7], words := 1, fields :=
    [F.AUD_ENABLE, F.AUD_DIR, F.AUD_MASTER, F.AUD_FORMAT, F.AUD_WIDTH, F.AUD_RATE, F.AUD_RUN, F.AUD_CH_EN, F.AUD_SRC, F.AUD_SRC_PORT, F.AUD_DELAY_BLOCKS, F.AUD_BUFS] }
/-- Page AUD.MCLK (R625). -/
def page_AUD_MCLK : Page := { base := 0x1208, offs := [0], words := 1, fields :=
    [F.AUD_MCLK_MCLK0_EN, F.AUD_MCLK_MCLK0_MULT, F.AUD_MCLK_MCLK1_EN, F.AUD_MCLK_MCLK1_MULT] }
/-- Page DRAM.CFG (R647). -/
def page_DRAM_CFG : Page := { base := 0x1300, offs := [0], words := 2, fields :=
    [F.DRAM_CFG_DENSITY, F.DRAM_CFG_BLAST, F.DRAM_CFG_ACT_THRESH, F.DRAM_CFG_AGE_NS, F.DRAM_CFG_SCRUB_H] }
/-- Page DEV1 (R672). -/
def page_DEV1 : Page := { base := 0x0101, offs := [0], words := 1, fields :=
    [F.DEV1_PROFILE_MSG, F.DEV1_START_PROFILE] }
/-- Page MBX (R701). -/
def page_MBX : Page := { base := 0x1400, offs := [0], words := 3, fields :=
    [F.MBX_UDP_PRIV, F.MBX_FWD_CHANNEL, F.MBX_REPLY_HOLD_MS] ++ (List.range 14).map F.MBX_RECEIVER }
/-- Page MGMT (R729). -/
def page_MGMT : Page := { base := 0x1500, offs := [0], words := 1, fields :=
    [F.MGMT_WDT_MS, F.MGMT_REF_SENSOR] }
/-- Page SEC (R757). -/
def page_SEC : Page := { base := 0x1600, offs := [0], words := 1, fields :=
    [F.SEC_ENCRYPT, F.SEC_RECIP_KEYS] }
/-- Page PWR (R807). -/
def page_PWR : Page := { base := 0x1700, offs := [0], words := 1, fields :=
    [F.PWR_SUSPEND_EN, F.PWR_CORE_PMBUS, F.PWR_PMBUS_PAGE] }

/-- Every settings page of spec/. -/
def pages : List Page :=
  [page_DEV0, page_SPn_PORT, page_SPn_TRAIN, page_SPn_SCBUS, page_SPn_TRIG, page_SEAMn_SRC, page_SEAMn_GEOM, page_SEAMn_SCHED, page_RFEn_LIN, page_RFEn_BLACK, page_RFEn_MERGE, page_RFEn_DEFECT, page_RFEn_CORR, page_RFEn_WB, page_STATSn, page_TAPn_SRC, page_TAPn_COLOUR, page_TAPn_TONE] ++
  [page_TAPn_SCALE, page_RFEn_DM, page_ADITn, page_LOOPn_AE, page_LOOPn_AWB, page_LOOPn_SENSOR, page_CMP_LINK, page_CMPn, page_CODECm_STRM, page_CODECm_PIC, page_CODECm_RC, page_REC_VOL, page_RECn, page_EP0, page_LANEn, page_LINKg, page_SDIk, page_ETHm] ++
  [page_SNDs, page_TIME_CLK, page_TIME_PTP, page_PTPm, page_TIME_ARRAY, page_TIME_TC, page_ASY_CFG, page_RED, page_VFk_PANEL, page_VFk_SRC, page_VFk_OVLj, page_AUDp, page_AUD_MCLK, page_DRAM_CFG, page_DEV1, page_MBX, page_MGMT, page_SEC, page_PWR]

end Sys2Proof.Machine
end

