-- ==== Sys2Proof/Machine/StateCore.lean ====
section
/-! DEFINITION. The state of the device core: the device and its start, the boot NVM, the OTP, the settings, the event
log, the error queue, the mailboxes, the Headframe and power. A field's default value is its value at reset. -/

namespace Sys2Proof.Machine

/-- Where the device stands between reset and a started role (R662, R666, R671, R732). -/
inductive DevState where
  /-- held in reset, or released and before START_UP. -/
  | off
  /-- step 1 to 8 of R662. -/
  | starting
  /-- START_UP passed; ROLE_START is next (step 9). -/
  | ready
  | running
  | configError
  | safe
  /-- no vendor firmware slot verified: the boot ROM answers nothing (R732). -/
  | bootRom
deriving DecidableEq, Repr, Inhabited

/-- Device, role and start (R1, R4, R662, R671, R706). [DESIGN CHOICE, log 7; DESIGN CHOICE, log 8] -/
structure Device where
  /-- part code of R1 (OTP, R730). -/
  part : Part := .k
  /-- level of the ROLE[1:0] balls (R4). -/
  straps : Nat := 0
  /-- the role sampled at the last start from step 1 (R4). -/
  role : Role := .integrated
  state : DevState := .off
  /-- RESET_L level is low (R783). -/
  resetLow : Bool := true
  /-- starts from R662 step 1 since manufacture (R706). -/
  starts : Nat := 0
  /-- time since step 1 of this start in TIME_CLK ticks of 1.25 ns (R706). -/
  elapsed : Nat := 0
  /-- word 2 of 0x0100: the first Fatal code, or 0. -/
  firstFatal : Nat := 0
  roleStartMs : Nat := 0
  firstFrameMs : Nat := 0
  /-- profile in force (R659). -/
  profile : Nat := 0
  /-- a reset under R710 or R711, or a Fatal error, since role start (R716). -/
  troubled : Bool := false
  /-- blocks powered on (R19); cleared at role end and while suspended. -/
  powered : Bool := false
deriving DecidableEq, Repr, Inhabited

/-- A slot record of the slot control area (R714). `tries` counts the cleared TRIES bits. -/
structure SlotRec where
  kind : Nat
  trySlot : Nat
  fallback : Nat
  tries : Nat
  confirmed : Bool
  version : Nat
deriving DecidableEq, Repr, Inhabited

/-- A user copy of the calibration store (R724). -/
structure UserCopy where
  generation : Nat
  sets : List CalSet
deriving DecidableEq, Repr, Inhabited

/-- One event log entry (R706, R707). -/
structure LogEntry where
  seq : Nat
  startUp : Bool
  time : Tod
  sev : Nat
  code : Nat
  inst : Nat
  start : Nat
  details : List Nat
deriving DecidableEq, Repr, Inhabited

/-- A page of the event log ring (R708): the sequence number of slot 0 and its committed entries, newest first. -/
structure LogPage where
  seq0 : Nat
  entries : List LogEntry
deriving DecidableEq, Repr, Inhabited

/-- The event log (R706 to R709). -/
structure EventLog where
  next : Nat := 0
  /-- the latest 4,096 entries, newest first. -/
  sram : List LogEntry := []
  /-- entries not yet programmed, oldest first. -/
  waiting : List LogEntry := []
  dropped : Nat := 0
  /-- programmed pages, newest first. -/
  ring : List LogPage := []
deriving DecidableEq, Repr, Inhabited

/-- Phase of an error queue entry's action (R763, R765). -/
inductive Phase where
  | waiting
  | running
  | suspended
deriving DecidableEq, Repr, Inhabited

/-- An error queue entry (R762). -/
structure ErrEntry where
  code : Nat
  inst : Nat
  sev : Nat
  details : List Nat
  repeats : Nat
  phase : Phase
  /-- steps of its action that have run (R763). -/
  steps : Nat := 0
deriving DecidableEq, Repr, Inhabited

/-- The error queue in order of arrival, its loss record and the open runs of R808. -/
structure ErrorQueue where
  entries : List ErrEntry := []
  lost : Nat := 0
  lostFlag : Bool := false
  runs : List (Nat × Nat) := []
deriving DecidableEq, Repr, Inhabited

/-- A message in an inbound queue (R680, R684). -/
structure InMsg where
  path : Path
  words : List Word
deriving DecidableEq, Repr, Inhabited

/-- A held privileged request and the token parts received so far (R692). -/
structure TokenSeq where
  path : Path
  req : List Word
  parts : List (List Word)
  /-- elapsed time of the device when it began. -/
  since : Nat
deriving DecidableEq, Repr, Inhabited

/-- A mailbox channel (R673 to R680, R697). -/
structure Chan where
  inq : List InMsg := []
  held : List TokenSeq := []
  handled : Nat := 0
  refusals : Nat := 0
  discarded : Nat := 0
  tokensRefused : Nat := 0
deriving DecidableEq, Repr, Inhabited

/-- A channel's registers and outbound queue in one view (R386, R681, R682). [DESIGN CHOICE, log 9] -/
structure ViewRegs where
  tx : List Word := List.replicate 8 0
  refused : Bool := false
  irqEn : Bool := false
  outq : List (List Word) := []
  waiting : List (List Word) := []
deriving DecidableEq, Repr, Inhabited

/-- A nonce issued to a path (R691). -/
structure Nonce where
  path : Path
  words : List Word
  /-- elapsed time of the device when issued. -/
  since : Nat
deriving DecidableEq, Repr, Inhabited

/-- The mailboxes (R673 to R701). [DESIGN CHOICE, log 9] -/
structure Mailboxes where
  chans : List Chan := List.replicate 16 {}
  pcie : List ViewRegs := List.replicate 16 {}
  spi : List ViewRegs := List.replicate 16 {}
  /-- replies and sent messages that left at once (UDP, forwarded, internal paths), oldest first. -/
  sent : List (Path × List Word) := []
  nonces : List Nonce := []
  /-- bytes of the bulk window its holder can rely on, by offset, offsets strictly rising (R690). -/
  bulk : List Host.Cell := []
  holder : Option View := none
  /-- claims so far; names the undefined contents a holder sees (R690). -/
  claims : Nat := 0
  ignoredWrites : Nat := 0
  droppedUdp : Nat := 0
  asleep : List Nat := []
deriving DecidableEq, Repr, Inhabited

/-- State of an update session (R698 word 1 of 0x1523). -/
inductive UpdState where
  | idle
  | receiving
  | verifying
  | writing
  | committed
  | failed
deriving DecidableEq, Repr, Inhabited

/-- The update session (R698, R712, R713). [DESIGN CHOICE, log 11] -/
structure Update where
  state : UpdState := .idle
  path : Path := .internal
  kind : Nat := 0
  size : Nat := 0
  bytes : List Byte := []
  failCode : Nat := 0
deriving DecidableEq, Repr, Inhabited

/-- A temperature sensor of R703: reading in 1/16 °C, faulted, samples since it changed and the neighbours then (R704). [DESIGN CHOICE, log 8] -/
structure TempSensor where
  value : Int := 400
  faulted : Bool := false
  still : Nat := 0
  near : List Int := []
deriving DecidableEq, Repr, Inhabited

/-- A rail's voltage in mV: now, lowest and highest since role start (R806). [DESIGN CHOICE, log 8] -/
structure RailVolt where
  now : Nat := 0
  low : Nat := 0
  high : Nat := 0
deriving DecidableEq, Repr, Inhabited

/-- The Headframe (R702 to R727). [DESIGN CHOICE, log 8] -/
structure Headframe where
  temps : List TempSensor := List.replicate 16 {}
  rails : List RailVolt := List.replicate 14 {}
  badClocks : List Nat := []
  /-- elapsed time of each control core's last watchdog reset (R710). -/
  coreReset : List (Option Nat) := [none, none, none, none]
  update : Update := {}
  surveyRunning : List Nat := []
  /-- ports that item 0 of a run has still to train, the first being trained (R719). -/
  surveyPorts : List Nat := []
  surveyPassed : List Nat := []
  surveyFailed : List Nat := []
  factoryValid : Bool := false
  factory : List CalSet := []
  userA : Option UserCopy := none
  userB : Option UserCopy := none
  i2cStuck : Bool := false
  /-- the board temperature sensor REF_SENSOR answered at start-up (R719, R729). -/
  refPresent : Bool := false
deriving DecidableEq, Repr, Inhabited

/-- Power, resets and temperature (R783 to R789, R806, R807). [DESIGN CHOICE, log 8] -/
structure Power where
  suspended : Bool := false
  /-- entry into the suspended state has begun and is not complete (R784). -/
  entering : Bool := false
  /-- its durability point has begun. -/
  unmounting : Bool := false
  thermallyOff : Bool := false
  alarm : Bool := false
  alarms : Nat := 0
  /-- samples of 1 ms spent in thermal alarm since role start. -/
  alarmMs : Nat := 0
  /-- every sensor at 155 °C or above at the previous sample (R788). -/
  hotBefore : List Bool := List.replicate 15 false
  tripHeld : Bool := false
  tripped : Bool := false
  currentMa : Option Nat := none
  pmbusLost : Bool := false
deriving DecidableEq, Repr, Inhabited

/-- A write waiting for the OTP (R731). -/
inductive OtpWrite where
  | install (slot : Nat) (hash : List Byte)
  | revoke (slot : Nat)
  | debugged
  | counter (kind value : Nat)
deriving DecidableEq, Repr, Inhabited

/-- An owner key slot: its hash and state (0 empty, 1 programmed, 2 revoked) (R730). -/
structure OwnerSlot where
  hash : List Byte := []
  state : Nat := 0
deriving DecidableEq, Repr, Inhabited

/-- The OTP of R730 outside its private keys, and JTAG (R753). [DESIGN CHOICE, log 6] -/
structure Otp where
  serial : Nat := 0
  baseMac : Nat := 0
  vendorHash : List Byte := List.replicate 32 0
  slots : List OwnerSlot := List.replicate 4 {}
  rollback : List Nat := List.replicate 6 0
  cert : List Byte := List.replicate 248 0
  jtagLocked : Bool := true
  debugged : Bool := false
  jtagOpen : Bool := false
  queue : List OtpWrite := []
deriving DecidableEq, Repr, Inhabited

/-- The boot NVM (R648): the bytes each region holds from its start; bytes beyond read erased (0xFF). [DESIGN CHOICE, log 7] -/
structure Nvm where
  header : List Byte := []
  vendorA : List Byte := []
  vendorB : List Byte := []
  ownerA : List Byte := []
  ownerB : List Byte := []
  assay : List Byte := []
  calFactory : List Byte := []
  payloads : List Byte := []
  slotRecs : List SlotRec := []
  /-- the slot control area was full at the last append and is rewritten after the next confirmed boot (R718). -/
  rewriteDue : Bool := false
deriving DecidableEq, Repr, Inhabited

/-- The measurement of one image KIND (R744). -/
structure Measure where
  slotB : Bool := false
  present : Bool := false
  verified : Bool := false
  version : Nat := 0
  rollback : Nat := 0
  signer : Nat := 0
  digest : List Byte := List.replicate 32 0
deriving DecidableEq, Repr, Inhabited

/-- The settings: accepted page words, what the owner image holds, and the table payloads (R653 to R661). -/
structure Cfg where
  /-- last accepted values (R671 0x0105). -/
  accepted : Words := []
  /-- base values of the image (R655). -/
  base : Words := []
  permit : Words := []
  permitPriv : Words := []
  /-- VALUES words of profiles 1 to 15 with the bits they name: (profile, key, value). -/
  profiles : List (Nat × Nat × Nat) := []
  profileSet : List Nat := []
  admission : Option (List Nat) := none
  /-- table payloads by index. -/
  tables : List (Nat × List Byte) := []
  /-- measurements of KIND 0 to 5 (R744). -/
  images : List Measure := List.replicate 6 {}
  epEnabledImage : Bool := false
deriving DecidableEq, Repr, Inhabited

end Sys2Proof.Machine
end

