-- ==== Sys2Proof/Machine/StateCapture.lean ====
section
/-! DEFINITION. The state of the capture path: sensor ports, seams and their rings, the pipeline, front-end filters,
statistics, loops, taps, adits and the LUT store (chapters 2 to 6). A field's default value is its value at reset. -/

namespace Sys2Proof.Machine

/-- Lines of samples. -/
abbrev Plane := List (List Nat)

/-- A frame header (R26); HEADER_CRC is computed from it. -/
structure FrameHeader where
  num : Nat := 0
  epoch : Nat := 0
  tag : Nat := 0
  seam : Nat := 0
  exp : Tod := ⟨0, 0⟩
  timecode : Nat := 0
  metro : Nat := 0
  compressed : Bool := false
  cropped : Bool := false
  freeRun : Bool := false
  droppedBefore : Bool := false
  repeated : Bool := false
  concealed : Bool := false
deriving DecidableEq, Repr, Inhabited

/-! ### Sensor ports (chapter 2) -/

/-- Who queued a script (R81): a message, a seam's exposure loop with its settings (e, g, lines, gain code), or the body. -/
inductive ScriptFrom where
  | message
  | loop (seam e g lines code : Nat)
  | body
deriving DecidableEq, Repr, Inhabited

/-- A queued script: its tag and its entries of R79 without the END entry. -/
structure Script where
  tag : Nat
  entries : List Nat
  origin : ScriptFrom
deriving DecidableEq, Repr, Inhabited

/-- The stages of a port's bring-up. -/
inductive PortPhase where
  | off
  /-- R67 steps 1 to 9 of role start. -/
  | bringUp
  /-- R67 steps 3 to 9 of a retrain (R71). -/
  | retrain
  | running
  | stopped
deriving DecidableEq, Repr, Inhabited

/-- A Sensor Parallel Port with its control bus and trigger. -/
structure Port where
  phase : PortPhase := .off
  /-- pairs in the order D0 to D39, FV, LV, DV, CK: bit i of a mask is pair i (R90). -/
  faultMask : Nat := 0
  invMask : Nat := 0
  delays : List Nat := List.replicate 43 0
  slips : List Nat := List.replicate 43 0
  /-- delays as trained and the temperature then (R70). -/
  trained : List Nat := List.replicate 43 0
  trainTemp : Int := 0
  /-- the delays have moved since the last FV rise (R70). -/
  moved : Bool := false
  /-- faults found by the run-time detectors, applied at the next FV rise (R75). -/
  newFaults : Nat := 0
  clock : Bool := false
  /-- clock absent for more than 10 ms: retrain when it returns (R76). -/
  absentLong : Bool := false
  retrainAsked : Bool := false
  fv : Bool := false
  lv : Bool := false
  /-- no frame of this FV pulse is being received (dropped or ignored). -/
  skip : Bool := true
  /-- lines begun since FV rose. -/
  lines : Nat := 0
  dropped : Nat := 0
  abandoned : Nat := 0
  /-- frame number and times of the last FV rise and fall, in 2^-16 ns of TOD. -/
  lastNum : Nat := 0
  fvRise : Option Nat := none
  fvFall : Option Nat := none
  fifo : List Script := []
  running : Option Script := none
  /-- frame before the window in which the running script started (R85). -/
  runFrame : Nat := 0
  /-- entries of the running script completed. -/
  pos : Nat := 0
  deferrals : Nat := 0
  windowOpen : Bool := false
  /-- a script was deferred in this window (R83). -/
  deferred : Bool := false
  windowFrom : Nat := 0
  windowTo : Nat := 0
  windowFrame : Nat := 0
  /-- longest window so far of each of the last 16 frames in 2^-16 ns, newest first, 0 without one; whether the port has had
  a window at all (R84). -/
  windows : List Nat := []
  hadWindow : Bool := false
  /-- the tag in force and the tags that follow: (first frame number, tag) (R85, R86). -/
  tag : Nat := 0
  nextTags : List (Nat × Nat) := []
  /-- tag and origin of the last script that completed (R84). -/
  lastDone : Option (Nat × ScriptFrom) := none
  /-- a script was abandoned since the last completed one (R210). -/
  abandonedNow : Bool := false
  trigLevel : Bool := false
  suppressed : Bool := true
  /-- asserting TOD and exposure index of the trigger whose frame has not arrived (R29, R507). -/
  awaiting : Option (Tod × Int) := none
  /-- TOD in 2^-16 ns of the last asserting edge of XTRIGn, and the index of a gang member's next trigger (R87). -/
  trigAt : Nat := 0
  trigNext : Int := 0
  /-- target of its previous trigger in 2^-16 ns, of a port that does not lead, and the delay its next one was set with (R508). -/
  trigLast : Option Int := none
  trigDelay : Int := 0
  trigShort : Bool := false
  trigOff : Bool := false
  scShort : List Bool := List.replicate 4 false
  scOff : List Bool := List.replicate 4 false
deriving DecidableEq, Repr, Inhabited

/-! ### Seams (chapter 3) -/

/-- A frame of a seam in flight: its header, arrival, bound settings and gains, and what of it is in the ring. -/
structure SeamFrame where
  header : FrameHeader
  index : Int
  /-- arrival and deadline in ns of TOD (R97, R108). -/
  arrival : Nat
  deadline : Nat
  bound : Words
  gains : List Nat
  lines : List (List Nat)
  /-- every line has been received and the geometry checked. -/
  whole : Bool
  /-- stripe slots claimed so far; the frame slot counts as one (R115, R116). -/
  claimed : Nat
  started : List Nat
  finished : List Nat
  dropped : Bool
  /-- number of its first ring slot, counted over the slots the seam has claimed. -/
  slot : Nat := 0
deriving DecidableEq, Repr, Inhabited

/-- A seam (R95 to R126). -/
structure Seam where
  /-- ring slots claimed since role start. -/
  slots : Nat := 0
  nextNum : Nat := 0
  droppedBefore : Bool := false
  /-- FV rise of the previous admitted frame in ns (R36). -/
  lastFv : Option Nat := none
  /-- time of the last arrival in ns, admitted or not (R119). -/
  lastArrival : Nat := 0
  frames : List SeamFrame := []
  /-- the newest frame in `frames` is being received. -/
  receiving : Bool := false
  /-- exposure index of the last arrival (R507). -/
  lastIndex : Int := 0
  /-- settings bound to the last arrival (R121). -/
  committed : Words := []
  admitted : Nat := 0
  ringDrops : Nat := 0
  misses : Nat := 0
  lastCommit : Nat := 0
  longestUs : Nat := 0
  epochDiscards : Nat := 0
  crcDiscards : Nat := 0
  /-- frames dropped whole, for whatever reason (R35). -/
  dropped : Nat := 0
  ringDepth : Nat := 0
  seen : Bool := false
  absent : Bool := false
  linkBad : Bool := false
deriving DecidableEq, Repr, Inhabited

/-- The unit in the pipeline (R106). -/
structure PipeUnit where
  seam : Nat
  frame : Nat
  stripe : Nat
deriving DecidableEq, Repr, Inhabited

/-! ### Raw front end and statistics (chapter 4) -/

/-- The black filters and frame counts of a seam (R137, R159). -/
structure Rfe where
  started : Bool := false
  k : List Nat := List.replicate 8 0
  cd : List Int := []
  unchanged : Nat := 0
  /-- pixels that static correction and dynamic detection replaced in the last frame (R146). -/
  replaced : Nat := 0
  dynamic : Nat := 0
deriving DecidableEq, Repr, Inhabited

/-- Who holds a buffer while reading it (R156, R190). -/
inductive Holder where
  | loop
  | fetch
  | codec (m : Nat)
  | sdi (k : Nat)
  | sender (s : Nat)
  | view (k : Nat)
  | record (j : Nat)
  | compressor
  | host
deriving DecidableEq, Repr, Inhabited

/-- The zone records and histograms of one frame (R152, R157). A zone holds R, Gr, Gb, B, clip count, quad count. -/
structure StatData where
  num : Nat := 0
  epoch : Nat := 0
  tag : Nat := 0
  /-- exposure index of the frame (R507), which the loops use and the header fields do not show. -/
  index : Int := 0
  lumaValid : Bool := false
  wa : Nat := 0
  ha : Nat := 0
  shift : Nat := 0
  zones : List (List Nat) := []
  histR : List Nat := []
  histG : List Nat := []
  histB : List Nat := []
  histL : List Nat := []
deriving DecidableEq, Repr, Inhabited

/-- A statistics buffer (R154, R156). `order` is the publication order, 0 before the first. -/
structure StatBuf where
  writeSeq : Nat := 0
  order : Nat := 0
  holders : List Holder := []
  data : StatData := {}
deriving DecidableEq, Repr, Inhabited

/-- The statistics ring of a seam. -/
structure StatRing where
  bufs : List StatBuf := []
  writing : Option Nat := none
  published : Nat := 0
deriving DecidableEq, Repr, Inhabited

/-! ### Loops (chapter 6) -/

/-- The loops of a seam (R207 to R222, R226). [DESIGN CHOICE, log 11] -/
structure Loop where
  /-- Tr: tag of the last script queued into the port's FIFO; none before the first request. -/
  tr : Option Nat := none
  /-- whether the loop has queued its first request (R208, R212). -/
  begun : Bool := false
  counter : Nat := 0x8000
  e : Nat := 0
  g : Nat := 0
  lines : Nat := 0
  code : Nat := 0
  /-- accumulation of R213: num, den, clipq, quads, buffers. -/
  acc : List Nat := [0, 0, 0, 0, 0]
  m : Nat := 0
  decisions : Nat := 0
  late : Nat := 0
  /-- decisions whose script a full FIFO refused (R81), and buffers of another epoch discarded (R32). -/
  refusedFull : Nat := 0
  stale : Nat := 0
  /-- settings (e, g, lines, gain code) of the last of its scripts that completed (R84). -/
  done : Option (Nat × Nat × Nat × Nat) := none
  /-- frame whose buffer the queued script was decided on (R211). -/
  decidedOn : Option Nat := none
  /-- publication orders already seen by the exposure and the balance loop. -/
  seenE : Nat := 0
  seenW : Nat := 0
  /-- a request of the current settings is due at the next window: after a resume, or refused for a full FIFO. -/
  due : Bool := false
  /-- EXP_SET_NS, GAIN_SET and P_s at the last manual request (R212, R214). -/
  lastSet : Option (Nat × Nat × Nat) := none
  gainR : Nat := 0x1000
  gainGR : Nat := 0x1000
  gainGB : Nat := 0x1000
  gainB : Nat := 0x1000
  /-- gains bound to a frame of a given exposure index (R220, R221). -/
  boundGains : List (Int × Nat × Nat) := []
  /-- scripts waiting for the window after the frame of an exposure index (R220, R221). -/
  waiting : List (Int × Script) := []
  /-- body: scripts sent to the head and not yet acknowledged, the oldest first (R205, R441). -/
  sent : List Script := []
  /-- body: the first frame number whose tag tells anew of an abandoned script (R210). -/
  repeatFrom : Nat := 0
  /-- leader: frames since the last lock broadcast sent (R220). -/
  sinceLock : Nat := 0
  /-- follower: elapsed time of the device at the last lock broadcast received (R222). -/
  lockAt : Nat := 0
  silent : Bool := false
deriving DecidableEq, Repr, Inhabited

/-! ### Taps, adits and the LUT store (chapter 5) -/

/-- What a published output buffer holds (R191): the frame header, writer 0 tap, 1 adit or 2 decode stream, format code,
ACES record, bits per sample and planes. -/
structure Picture where
  header : FrameHeader := {}
  writer : Nat := 0
  index : Nat := 0
  format : Nat := 0
  aces : Nat := 0
  bits : Nat := 0
  planes : List Plane := []
  /-- TOD of its publication in ns. -/
  pub : Nat := 0
  /-- an adit's CMPn.MODE and KCODE bound to the frame: MODE + 2 * KCODE (R267). -/
  comp : Nat := 0
deriving DecidableEq, Repr, Inhabited

/-- An output buffer (R188). -/
structure OutBuf where
  writeSeq : Nat := 0
  order : Nat := 0
  holders : List Holder := []
  pic : Picture := {}
deriving DecidableEq, Repr, Inhabited

/-- The output ring of a tap, an adit or a decode stream. -/
structure OutRing where
  bufs : List OutBuf := []
  writing : Option Nat := none
  published : Nat := 0
  skipped : Nat := 0
  lastNum : Nat := 0
deriving DecidableEq, Repr, Inhabited

/-- A unit of the LUT store (R179, R198). [DESIGN CHOICE, log 30] -/
inductive LutUnit where
  | empty
  | loading
  /-- a LUT of n^3 nodes: red, green, blue per node in index order. -/
  | valid (n : Nat) (nodes : List Nat)
  /-- parity class `c` of a 65^3 LUT: red, green, blue of its nodes in index order. -/
  | parity (c : Nat) (nodes : List Nat)
deriving DecidableEq, Repr, Inhabited

/-- A LUT load in progress (R198). -/
structure LutLoad where
  first : Nat
  size : Nat
  bytes : List Byte
deriving DecidableEq, Repr, Inhabited

/-- The capture path. [DESIGN CHOICE, log 9] -/
structure Capture where
  ports : List Port := List.replicate 4 {}
  seams : List Seam := List.replicate 8 {}
  pipe : Option PipeUnit := none
  rfe : List Rfe := List.replicate 8 {}
  stats : List StatRing := List.replicate 8 {}
  loops : List Loop := List.replicate 8 {}
  taps : List OutRing := List.replicate 8 {}
  adits : List OutRing := List.replicate 4 {}
  luts : List LutUnit := List.replicate 112 .empty
  lutLoads : List LutLoad := []
deriving DecidableEq, Repr, Inhabited

end Sys2Proof.Machine
end

