-- ==== Sys2Proof/Machine/StateDram.lean ====
section
/-! DEFINITION. The state of the DRAM controller (chapter 18). A field's default value is its value at reset. -/

namespace Sys2Proof.Machine

/-- A request in a channel queue (R635): a read, or a write of bytes from its address to at most the end of its burst. -/
structure DramReq where
  id : Nat
  client : DramClient
  addr : Nat
  data : Option (List Byte)
  /-- elapsed time of the device when it entered the queue. -/
  since : Nat
deriving DecidableEq, Repr, Inhabited

/-- A DRAM channel (R626 to R643). State 0 training, 1 running, 2 self-refresh. -/
structure DramChan where
  state : Nat := 0
  /-- what the devices report in MR8, coded as DENSITY (R627). -/
  density : Nat := 3
  /-- MR4 refresh-rate code. -/
  mr4 : Nat := 0
  /-- applied delays in the order of R640, the temperature in 1/16 °C they were interpolated for, and the byte lane the
  next retraining takes (R642). -/
  delays : List Int := List.replicate 82 0
  setTemp : Int := 0
  lane : Nat := 0
  corrected : Nat := 0
  uncorrectable : Nat := 0
  neighbours : Nat := 0
  updates : Nat := 0
  /-- bursts scrubbed in the current pass (R634). -/
  scrub : Nat := 0
  longest : Nat := 0
  /-- elapsed time of the device at the last 0x1303. -/
  noticed : Option Nat := none
  nextId : Nat := 0
  /-- queued requests in order of arrival, and requests that stall because their queue is full. -/
  queue : List DramReq := []
  stalled : List DramReq := []
  /-- a batch of writes drains. -/
  draining : Bool := false
  /-- open row of each bank, and each bank's activation table: row and count (R639). -/
  rows : List (Option Nat) := List.replicate 16 none
  tables : List (List (Nat × Nat)) := List.replicate 16 []
  /-- bank and row of counts that reached ACT_THRESH and whose neighbours are not refreshed yet. -/
  due : List (Nat × Nat) := []
  /-- the check cache (R631): check bursts it holds, the last used first, and whether each has yet to be written back; check
  bursts read from or written to the devices. -/
  cache : List (Nat × Bool) := []
  checkBursts : Nat := 0
  refreshes : Nat := 0
  postponed : Nat := 0
  /-- the last read that completed: its id, what it returned, and whether that is marked poisoned. -/
  last : Option (Nat × List Byte × Bool) := none
deriving DecidableEq, Repr, Inhabited

/-- The DRAM (chapter 18). -/
structure Dram where
  chans : List DramChan := List.replicate 8 {}
  /-- bytes of the device addresses that do not read 0, addresses strictly rising (R641). -/
  mem : List Host.Cell := []
  /-- addresses of the bursts whose POISON is set, rising (R630). -/
  poison : List Nat := []
  /-- the allocations of R644 in order: item, start and size. -/
  alloc : List (Nat × Nat × Nat) := []
  /-- frames, pictures, access units, blocks and buffers dropped for a poisoned read (R633). -/
  drops : Nat := 0
deriving DecidableEq, Repr, Inhabited

/-- The canonical form of memory: addresses strictly rising, and no cell that holds what an unlisted address reads as. [DESIGN CHOICE, log 78] -/
def Memory.wf : List Host.Cell → Bool
  | [] => true
  | [c] => c.2 != 0
  | c :: d :: r => c.2 != 0 && decide (c.1 < d.1) && Memory.wf (d :: r)

end Sys2Proof.Machine
end

