-- ==== Sys2Proof/Machine/StateIsland.lean ====
section
/-! DEFINITION. The state of the Assay Island (chapter 15). A field's default value is its value at reset. -/

namespace Sys2Proof.Machine

/-- A pulse on a strobe input (R534, R535): start stamp, clock state and steps at the start, end stamp, step sum then. -/
structure Pulse where
  start : Tod
  clk : Nat
  stop : Tod
  /-- TOD steps applied between the two edges, in 2^-16 ns. -/
  stepped : Int
deriving DecidableEq, Repr, Inhabited

/-- A strobe input ASY_EXPn: the pulse in progress and the pulses ended since the last FV rise, newest first. -/
structure Strobe where
  /-- stamp of the asserting edge, clock state and step sum at it. -/
  rising : Option (Tod × Nat × Int) := none
  /-- when the last deasserting edge came. -/
  fell : Option Tod := none
  ended : List Pulse := []
  /-- edges that broke the spacings since the last FV rise. -/
  extra : Nat := 0
deriving DecidableEq, Repr, Inhabited

/-- A record from its FV rise until it is chained (R541 to R545). -/
structure OpenRecord where
  num : Nat
  tag : Nat
  start : Tod
  clk : Nat
  duration : Nat
  flags : Nat
  /-- none until it closes; then the digest, empty for a dropped frame. -/
  digest : Option (List Byte)
deriving DecidableEq, Repr, Inhabited

/-- An entry of the record ring (R546). A signature stands after the last record it covers. -/
inductive IslandEntry where
  | record (seam num : Nat) (bytes : List Byte)
  | sign (seam first last : Nat) (bytes : List Byte)
deriving DecidableEq, Repr, Inhabited

/-- What the island keeps for a seam. -/
structure IslandSeam where
  opened : List OpenRecord := []
  /-- full C of the last chained record; 32 zero bytes before the first. -/
  chain : List Byte := List.replicate 32 0
  /-- frame numbers of the first and last unsigned record and their count. -/
  first : Nat := 0
  last : Nat := 0
  count : Nat := 0
  /-- TOD ticks since start when the oldest unsigned record closed (R553). -/
  since : Nat := 0
deriving DecidableEq, Repr, Inhabited

/-- What a body's island knows of a head's evidence on a link stream's seam (R551). -/
structure HeadChain where
  /-- full C of each record received, newest first; none where the chain is not known. -/
  chains : List (Nat × List Byte) := []
  known : Bool := false
deriving DecidableEq, Repr, Inhabited

/-- The island's volatile state. [DESIGN CHOICE, log 9; DESIGN CHOICE, log 11] -/
structure Island where
  running : Bool := false
  calOk : Bool := false
  seams : List IslandSeam := List.replicate 8 {}
  strobes : List Strobe := List.replicate 4 {}
  ppsIn : Option Tod := none
  /-- edges of ASY_PPS_IN that were not stamped (R533). -/
  ppsExtra : Nat := 0
  /-- last ASY_PPS_IN offset in ps. -/
  ppsOffset : Int := 0
  /-- when ASY_PPS_OUT was last driven high; its driver faults (R88). -/
  ppsOut : Option Tod := none
  ppsShort : Bool := false
  ppsOff : Bool := false
  /-- the record ring, newest first, at most 65,536 entries, and the entries written since role start. -/
  ring : List IslandEntry := []
  written : Nat := 0
  /-- by seam: entries its metadata record stream has read; none before its first unit. -/
  metaRead : List (Option Nat) := List.replicate 8 none
  /-- by seam: entries message 0x0F01 has read; none before the first such message. -/
  msgRead : List (Option Nat) := List.replicate 8 none
  records : Nat := 0
  signatures : Nat := 0
  absents : Nat := 0
  /-- body: each group's head certificate, and each seam's chain. -/
  headCerts : List (List Byte) := List.replicate 9 []
  heads : List HeadChain := List.replicate 8 {}
  /-- evidence of heads kept for the recorder, oldest first: seam and bytes (R551). -/
  headEvidence : List (Nat × List Byte) := []
deriving DecidableEq, Repr, Inhabited

/-- The sealed state block: firmware digest, seal counter at sealing, boot count, signature by the island key (R531). -/
structure SealBlock where
  firmware : List Byte
  counter : Nat
  boot : Nat
  sig : List Byte
deriving DecidableEq, Repr, Inhabited

/-- The island's OTP and persistence area (R530 to R532, R539, R552, R556). -/
structure IslandNv where
  sealCount : Nat := 0
  /-- the sealed state block; none when missing. -/
  block : Option SealBlock := none
  boot : Nat := 0
  cfg : Words := []
  /-- the island log, oldest first, in pieces of 32 bytes: 128 to a page, the first of a page the digest of the page before. -/
  log : List (List Byte) := []
  cert : List Byte := List.replicate 248 0
deriving DecidableEq, Repr, Inhabited

end Sys2Proof.Machine
end

