-- ==== Sys2Proof/Machine/StateLinks.lean ====
section
/-! DEFINITION. The state of the Shaft Link and Cage Link groups (chapter 12) and of redundant bodies (chapter 16). A
field's default value is its value at reset. -/

namespace Sys2Proof.Machine

/-- An eye scan of a lane (R417 to R421). Status 0 running, 1 complete, 2 interrupted, 3 stopped. -/
structure Scan where
  hStride : Nat
  vStride : Nat
  dwell : Nat
  eye : Nat
  cols : Nat
  rows : Nat
  rate : Nat
  start : Tod
  stop : Tod
  vStep : Nat
  ctle : Nat
  dfe1 : Int
  status : Nat
  counts : List Nat
deriving DecidableEq, Repr, Inhabited

/-- A serial lane (R390 to R423), numbered as R14: DL0 to DL15, then SL0 to SL23. [DESIGN CHOICE, log 9] -/
structure Lane where
  /-- state code of R423: 0 off, 1 bringing up, 2 up, 3 loss of signal, 4 fault, 5 test. -/
  state : Nat := 0
  receiver : Bool := false
  signal : Bool := false
  /-- reversal detected by training (R412). -/
  reversal : Bool := false
  /-- group order reversed (R413). -/
  order : Bool := false
  /-- transmit coefficients C_M3, C_M2, C_M1, C0, C_P1 in force (R407). -/
  coeffs : List Int := [0, 0, -6, 52, -6]
  ctle : Nat := 0
  dfe : List Int := List.replicate 12 0
  gain : Int := 0
  metric : Nat := 0
  slip : Nat := 0
  /-- faults in effect, bits as in word 6 of R423. -/
  faults : Nat := 0
  losEvents : Nat := 0
  /-- transmitter in electrical idle after a leg fault, and the elapsed time when it went idle (R416). -/
  idle : Bool := false
  idleAt : Nat := 0
  scan : Option Scan := none
  gen : Nat := 0
  checker : Nat := 0
  loopback : Nat := 0
  /-- Ethernet: the link partner has asked for precoding (R393). -/
  precode : Bool := false
deriving DecidableEq, Repr, Inhabited

/-- The fields of a stream announce (R440). -/
structure Announce where
  b : Nat := 0
  f : Nat := 0
  compressed : Bool := false
  w : Nat := 0
  h : Nat := 0
  num : Nat := 0
  den : Nat := 0
deriving DecidableEq, Repr, Inhabited

/-- A frame a head sends on a link stream: header, metrology record and frame data (R438). -/
structure LinkFrame where
  header : FrameHeader := {}
  record : List Byte := []
  data : List Byte := []
deriving DecidableEq, Repr, Inhabited

/-- A link stream of a group (R428, R438, R439). [DESIGN CHOICE, log 11] -/
structure LinkStream where
  /-- body: the last announce received; head: the last sent. -/
  announce : Option Announce := none
  /-- SEQ of the next pixel cell, sent or expected. -/
  seq : Nat := 0
  /-- head: frames waiting, oldest first, and the cells left of the frame being sent. -/
  outQ : List LinkFrame := []
  cells : List (List Byte) := []
  /-- head: a frame was discarded since the last frame sent (R459). -/
  lost : Bool := false
  discarded : Nat := 0
  /-- body: a frame is being received, and its data not yet in the ring. -/
  receiving : Bool := false
  /-- body: the frame being received is admitted by its seam. -/
  admitted : Bool := false
  header : FrameHeader := {}
  data : List Byte := []
  /-- body: lines of an uncompressed frame already taken. -/
  got : Nat := 0
  /-- of a compressed frame: bytes decoded, the next block and the blocks of its row decoded so far (R262). -/
  used : Nat := 0
  blk : Nat := 0
  row : List (List (List Nat)) := []
deriving DecidableEq, Repr, Inhabited

/-- A control message waiting on a group: its subtype and content words (R440). -/
structure CtrlMsg where
  subtype : Nat
  words : List Word
deriving DecidableEq, Repr, Inhabited

/-- What training knows of a lane of a group (R449, R450). [DESIGN CHOICE, log 114] -/
structure TrainLane where
  /-- LANE and WIDTH of the last training block. -/
  seen : Option (Nat × Nat) := none
  /-- own and peer RX_READY of the last block, and consecutive blocks with both. -/
  streak : Nat := 0
  /-- ACK_TAP and ACK_STATUS this end reports, and its outstanding request. -/
  ackTap : Nat := 0
  ackStatus : Nat := 0
  /-- the control field of the training block this end sent last, and the register of its PRBS. -/
  sent : Nat := 0
  prbs : Nat := 0x7FFFFFFF
  /-- last counter of an alignment block and successive good ones. -/
  counter : Nat := 0
  good : Nat := 0
  missed : Nat := 0
deriving DecidableEq, Repr, Inhabited

/-- A transmitting lane of a group (R429 to R433): the alignment period, the cells of it framed, the bits that wait for a full
message, the last 58 bits on the line, the run of symbols in progress, and the symbols that the last cell sent. [DESIGN CHOICE, log 114] -/
structure TxLane where
  period : Nat := 0
  cells : Nat := 0
  msg : List Bool := []
  scr : Nat := 0
  run : Int × Nat := (0, 0)
  line : List Int := []
deriving DecidableEq, Repr, Inhabited

/-- A time cell this end sent or received: its TSEQ and its stamp (R454). -/
structure TimeStamp where
  seq : Nat
  tod : Tod
deriving DecidableEq, Repr, Inhabited

/-- A link group (R426 to R463). [DESIGN CHOICE, log 9] -/
structure LinkGroup where
  /-- state code of R463: 0 off, 1 detecting, 2 training, 3 aligning, 4 capability, 5 active, 6 stepping. -/
  state : Nat := 0
  /-- RATE in force and, in stepped bring-up, the last rate at which the link was active. -/
  rate : Nat := 0
  goodRate : Nat := 0
  /-- the rate a STEP names, while stepping. -/
  stepTo : Nat := 0
  /-- no further step is tried: one failed (R451). -/
  stepped : Bool := false
  /-- the training in progress is a retrain (R458). -/
  retraining : Bool := false
  /-- a refused capability waits 1 s (R453). -/
  refused : Bool := false
  reversed : Bool := false
  lanes : List TrainLane := List.replicate 8 {}
  peerSerial : Nat := 0
  peerRate : Nat := 0
  peerForurn : Bool := false
  /-- the peer's capability cell has been accepted: ACK is sent. -/
  capOk : Bool := false
  /-- pixel, control and time: offered by the peer, sent, freed by the peer, freed here (R445, R446). -/
  offer : List Nat := [0, 0, 0]
  sent : List Nat := [0, 0, 0]
  freed : List Nat := [0, 0, 0]
  ownFreed : List Nat := [0, 0, 0]
  /-- a credit cell is due. -/
  creditDue : Bool := false
  /-- lane position in the current row and rows since the last filler row (R442, R448). -/
  pos : Nat := 0
  rows : Nat := 0
  fillerRow : Bool := false
  /-- payloads of time-class cells waiting (R448, R566). -/
  timeQ : List (List Word) := []
  /-- control messages, the first outstanding when `ctrlOut`; its cells still to send; repeats made (R441). -/
  ctrlQ : List CtrlMsg := []
  ctrlOut : Bool := false
  ctrlCells : List (List Byte) := []
  repeats : Nat := 0
  ctrlSeq : Nat := 0
  /-- next CTRL_SEQ expected from the peer. -/
  ctrlIn : Nat := 0
  /-- takeover payloads and state-copy cells waiting (group 8), link commands waiting. -/
  takeQ : List (List Word) := []
  copyQ : List (List Byte) := []
  cmdQ : List Nat := []
  streams : List LinkStream := List.replicate 4 {}
  /-- the cell the last CELL_SLOT sent, and the transmitting lanes in logical order. -/
  lastCell : List Byte := []
  tx : List TxLane := List.replicate 8 {}
  /-- TSEQ of the next time cell, and the cells sent and received last, newest first (R454, R455). -/
  tseq : Nat := 0
  departed : List TimeStamp := []
  arrived : List TimeStamp := []
  corrected : Nat := 0
  uncorrectable : Nat := 0
  discardedCells : Nat := 0
  retrains : Nat := 0
  /-- body: the elapsed time of the device when the group last left the active state. -/
  downSince : Nat := 0
  /-- the group has been active since role start. -/
  wasActive : Bool := false
deriving DecidableEq, Repr, Inhabited

/-- The peer as its last heartbeat showed it (R566). -/
structure Peer where
  state : Nat
  fwMajor : Nat
  count : Nat
  eb : Nat
  serial : Nat
  copySeq : Nat
  flags : Nat
deriving DecidableEq, Repr, Inhabited

/-- Redundancy: a body's part (R557 to R584) and a head's (R559 to R562). -/
structure Redundancy where
  /-- state of R558. -/
  state : Nat := 0
  eb : Nat := 0
  /-- EB before the claim in progress (R573), and the claim's reason. -/
  ebBefore : Nat := 0
  reason : Nat := 0
  beats : Nat := 0
  peer : Option Peer := none
  /-- elapsed time of the device at the last heartbeat from a primary. -/
  beatAt : Nat := 0
  /-- a trigger of R572 holds. -/
  triggered : Bool := false
  copySeq : Nat := 0
  /-- the last copy sent or applied. -/
  copy : Option StateCopy := none
  /-- the next copy is FULL (primary), or a FULL copy was asked for (standby). -/
  fullDue : Bool := true
  discarded : Nat := 0
  takeovers : Nat := 0
  gapUs : Nat := 0
  refusals : Nat := 0
  /-- a planned switch-over waits for the next copy (R583). -/
  switchDue : Bool := false
  /-- HANDOVER received, to be acted on once the last copy is applied (R583). -/
  handoverDue : Bool := false
  /-- elapsed time of a release made and not yet resolved (R584). -/
  releasedAt : Option Nat := none
  /-- the claim made is the fall-back of R584. -/
  fallback : Bool := false
  /-- START_WAIT_MS has passed without a primary heartbeat (R578). -/
  waited : Bool := false
  /-- Lode Map entries of the copies applied: durable SEQ of the copy, volume granule, entry (R352). -/
  deltas : List (Nat × Nat × Nat) := []
  /-- seam epochs E_s (R563). -/
  es : List Nat := List.replicate 8 0
  /-- head: primary group, released, EH, counts. -/
  primary : Option Nat := none
  primarySerial : Nat := 0
  released : Bool := false
  eh : Nat := 0
  accepted : Nat := 0
  refused : Nat := 0
  ctrlDiscarded : Nat := 0
deriving DecidableEq, Repr, Inhabited

end Sys2Proof.Machine
end

