-- ==== Sys2Proof/Machine/StateMedia.lean ====
section
/-! DEFINITION. The state of the compressor, the codec, the recorder and the storage endpoint (chapters 7 to 10). A
field's default value is its value at reset. -/

namespace Sys2Proof.Machine

/-! ### Raw compressor (chapter 7) -/

/-- A compression engine: in service, and the job and block it codes (R250, R251). -/
structure CompEngine where
  out : Bool := false
  blk : Option (Nat × Nat) := none
deriving DecidableEq, Repr, Inhabited

/-- A job of the compressor (R252 to R261). Client 0 recorder, 1 head link; source an adit or a seam. -/
structure CompJob where
  id : Nat
  client : Nat
  source : Nat
  header : FrameHeader
  /-- head link: the metrology record that goes with the frame. -/
  record : List Byte := []
  plane : Plane
  b : Nat
  mode : Nat
  kcode : Nat
  phase : Nat
  start : Nat
  space : Nat
  /-- the addresses, the pitch and the frame-list space of the descriptor (R255). -/
  inAddr : Nat := 0
  pitch : Nat := 0
  outAddr : Nat := 0
  listAddr : Nat := 0
  listSpace : Nat := 0
  /-- next block to deal, and blocks given back by an engine that left service. -/
  next : Nat
  again : List Nat := []
  /-- verified blocks waiting for their turn. -/
  ready : List (Nat × List Byte) := []
  /-- index of the next block to write and the output so far. -/
  writes : Nat
  output : List Byte := []
  /-- lengths of every block of the frame written so far, earlier jobs included. -/
  lens : List Nat
  rawSize : Nat := 0
  rawMis : Nat := 0
deriving DecidableEq, Repr, Inhabited

/-- Statistics of an adit's compression (R265). -/
structure CompAdit where
  inBytes : Nat := 0
  outBytes : Nat := 0
  frames : Nat := 0
  ratio : Nat := 0
  /-- the completion record of the adit's last job (R256). -/
  record : List Byte := []
deriving DecidableEq, Repr, Inhabited

/-- The raw compressor. [DESIGN CHOICE, log 9] -/
structure Comp where
  engines : List CompEngine := [{}, {}]
  queue : List CompJob := []
  /-- head: frames of a seam that wait while its job is outstanding (R252). -/
  waiting : List CompJob := []
  /-- the completion record of the last job of each link seam (R256). -/
  linkRecords : List (List Byte) := List.replicate 8 []
  nextId : Nat := 0
  emitted : Nat := 0
  rawSize : Nat := 0
  rawMis : Nat := 0
  stopped : Nat := 0
  rejected : Nat := 0
  adits : List CompAdit := List.replicate 4 {}
deriving DecidableEq, Repr, Inhabited

/-! ### Codec (chapter 8) -/

/-- A picture an encoder codes (R283 to R298). -/
structure EncPic where
  k : Nat
  idr : Bool
  header : FrameHeader
  /-- the coded picture of R283. -/
  planes : List Plane
  /-- TOD of the deadline in ns (R277). -/
  deadline : Nat
  /-- settings committed at its first row (R281). -/
  bound : Words
  cap : Nat
  target : Nat
  base : Nat
  qp : Nat
  cols : Nat
  rows : Nat
  sliceRows : Nat
  reserved : Nat
  /-- planes and motion of the pictures it may reference, the newest first (R285). -/
  refs : List (List Plane × List Nat) := []
  /-- next CTU row to deal to the pixel engine, CTUs of it dealt, and the first CTU coded DC-only. -/
  deal : Nat := 0
  dealt : Nat := 0
  dcFrom : Option Nat := none
  /-- next CTU to entropy-code; bits and bins of the access unit so far. -/
  next : Nat := 0
  bits : Nat := 0
  bins : Nat := 0
  /-- cost at the start of the slice in progress, its QP, and the costs of the slices that ended. -/
  sliceAt : Nat := 0
  sliceQp : Nat := 0
  sliceCosts : List Nat := []
  /-- syntax bits of the slice in progress and the entries it holds so far; QPs of the slices begun. -/
  sliceData : List Bool := []
  sliceSyms : List (List Nat) := []
  qps : List Nat := []
  /-- slices begun. -/
  begun : Nat := 0
  /-- first slice coded at QP_MAX after the budget was spent (R295). -/
  spentAt : Option Nat := none
  /-- bytes of the access unit, and how many are published. -/
  bytes : List Byte := []
  published : Nat := 0
  skipped : Bool := false
  /-- its input buffer is still held. -/
  holding : Bool := true
deriving DecidableEq, Repr, Inhabited

/-- An index record of R302. -/
structure AuRecord where
  num : Nat
  epoch : Nat
  /-- ring offset of its first byte. -/
  pos : Nat
  len : Nat
  flags : Nat
  poc : Nat
deriving DecidableEq, Repr, Inhabited

/-- An encode stream (R268 to R302). -/
structure EncStream where
  k : Nat := 0
  /-- planes and motion of the coded pictures of the IDR period that the next picture may reference, the newest first, and the
  frame number of its IDR (R285, R286). -/
  refs : List (List Plane × List Nat) := []
  idrNum : Nat := 0
  /-- QP, cost and slice weights of the last IDR and the last P picture; QP none before the first. -/
  qpLast : List (Option Nat) := [none, none]
  costLast : List Nat := [0, 0]
  weights : List (List Nat) := [[], []]
  dev : Int := 0
  f : Nat := 0
  /-- F_k of the last picture begun; none before the first, when it is CPB_BITS (R290, R313). -/
  fk : Option Nat := none
  /-- TOD in ns of the last picture's input. -/
  lastIn : Option Nat := none
  forceIdr : Bool := false
  /-- input buffer held and not yet begun, and the publication order last taken. -/
  input : Option Picture := none
  seen : Nat := 0
  skipped : Bool := false
  pic : Option EncPic := none
  /-- published bytes not yet read by every consumer, and the absolute position of the first. -/
  ring : List Byte := []
  base : Nat := 0
  /-- absolute position up to which the host has read. -/
  hostPos : Nat := 0
  /-- absolute position and frame number of the access units that have begun in the ring. -/
  starts : List (Nat × Nat) := []
  index : List AuRecord := []
  coded : Nat := 0
  notCoded : Nat := 0
  /-- frames of another epoch discarded (R32). -/
  stale : Nat := 0
  misses : Nat := 0
  lastQp : Nat := 0
  lastSpent : Bool := false
  lastFall : Bool := false
  /-- VUI values of R284: primaries, transfer, matrix, range, time scale, units in tick. -/
  vui : List Nat := []
deriving DecidableEq, Repr, Inhabited

/-- The fields of an SPS that R284, R304, R305 and R311 use, with its bytes. -/
structure Sps where
  profile : Nat
  high : Bool
  level : Nat
  /-- the nine constraint flags of the range extensions profile, the first one most significant. -/
  flags : Nat := 0
  chroma : Nat
  w : Nat
  h : Nat
  bits : Nat
  bitsC : Nat := 0
  ctb : Nat
  separate : Bool := false
  pocBits : Nat := 4
  maxDec : Nat := 0
  reorder : Nat := 0
  latency : Nat := 0
  /-- candidate short-term reference picture sets: POC difference and use by the current picture. -/
  sets : List (List (Int × Bool)) := []
  longTerm : Bool := false
  /-- long-term reference pictures of the SPS: POC LSB and use. -/
  ltSps : List (Nat × Bool) := []
  /-- VUI values: primaries, transfer, matrix, range, time scale, units in tick. -/
  vui : List Nat := [2, 2, 2, 0, 0, 0]
  raw : List Byte := []
deriving DecidableEq, Repr, Inhabited

/-- The fields of a PPS that a slice header needs, with its bytes. -/
structure Pps where
  sps : Nat
  dependent : Bool
  outputFlag : Bool
  extra : Nat
  raw : List Byte
deriving DecidableEq, Repr, Inhabited

/-- How the DPB marks a picture for reference. -/
inductive RefMark where
  | unused
  | short
  | long
deriving DecidableEq, Repr, Inhabited

/-- A decoded picture in the DPB (R305 to R311): its POC, reference marking, whether it waits for output and for how many
pictures, what its frame header copies, and its planes in coding order. -/
structure DecPic where
  poc : Int := 0
  mark : RefMark := .short
  needed : Bool := true
  waited : Nat := 0
  header : FrameHeader
  concealed : Bool
  /-- a picture that references it is concealed (R308). -/
  taint : Bool := false
  motion : List Nat := []
  format : Nat
  bits : Nat
  planes : List Plane
deriving DecidableEq, Repr, Inhabited

/-- An access unit a decoder works on. -/
structure DecAu where
  bytes : List Byte
  sps : Sps
  pps : List (Nat × Pps)
  /-- IRAP picture, and with NoRaslOutputFlag 1. -/
  irap : Bool
  fresh : Bool
  deadline : Nat
  rows : Nat
  cols : Nat
  /-- CTUs parsed and CTUs built so far, in raster order. -/
  parsed : Nat := 0
  built : Nat := 0
  /-- count of the picture in decoding order. -/
  count : Nat
  /-- the picture's POC, the planes and motion of its reference pictures, and whether it is concealed, once its first CTU is
  built. -/
  poc : Int := 0
  refs : List (List Plane × List Nat) := []
  concealed : Bool := false
deriving DecidableEq, Repr, Inhabited

/-- A decode stream (R303 to R311). -/
structure DecStream where
  input : List Byte := []
  /-- no further bytes follow those in the ring (END, R313, R356). -/
  ended : Bool := false
  /-- TOD in 2^-16 ns at which the first access unit was complete. -/
  t0 : Option Nat := none
  /-- next access unit in decoding order. -/
  n : Nat := 0
  /-- decoding has begun at an IRAP picture, whose RASL pictures are discarded. -/
  begun : Bool := false
  skipRasl : Bool := false
  spss : List (Nat × Sps) := []
  ppss : List (Nat × Pps) := []
  /-- pictures since an SPS was refused are not decoded (R304). -/
  refusing : Bool := false
  /-- an end of sequence came since the last picture. -/
  eos : Bool := false
  /-- the SPS in force (R284). -/
  active : Option Sps := none
  /-- the access unit that the entropy engine parses, and those that it has parsed and the pixel engine builds. -/
  au : Option DecAu := none
  building : List DecAu := []
  count : Nat := 0
  /-- POC of the last picture that orders the next one's, and the pictures of the DPB in decoding order. -/
  prevPoc : Int := 0
  dpb : List DecPic := []
  /-- the DPB size, reorder and latency limits of the SPS in force. -/
  limits : Nat × Nat × Nat := (0, 0, 0)
  out : OutRing := {}
  outputs : Nat := 0
  lost : Nat := 0
  misses : Nat := 0
  concealed : Nat := 0
  /-- picture hash mismatches (R310). -/
  hashMisses : Nat := 0
  lastConcealed : Bool := false
  bound : Words := []
deriving DecidableEq, Repr, Inhabited

/-- CTU entries of one CTU row in one of the two FIFOs (R275): stream, row, the first CTU and their number, whether they are
DC-only, and the modes, motion data and coefficients of each. -/
structure CtuRow where
  stream : Nat
  row : Nat
  first : Nat
  ctus : Nat
  dc : Bool
  entries : List (List Nat) := []
deriving DecidableEq, Repr, Inhabited

/-- The codec (chapter 8). [DESIGN CHOICE, log 9] -/
structure Codec where
  enc : List EncStream := List.replicate 8 {}
  dec : List DecStream := List.replicate 8 {}
  encFifo : List CtuRow := []
  decFifo : List CtuRow := []
  /-- the stream whose CTU row the pixel engine has begun to code, or the entropy engine to parse, and not finished. -/
  encRow : Option Nat := none
  decRow : Option Nat := none
  /-- bin allowance of each stream in units of 1/4,000,000,000 bin and the TOD in ns at which it was last counted (R279);
  none: full. -/
  allow : List (Option (Int × Nat)) := List.replicate 8 none
deriving DecidableEq, Repr, Inhabited

/-! ### Recorder (chapter 9) -/

/-- A completed unit of a record stream (R317, R335): frame or block number, epoch, word 0x0C of its table entry, the
exposure-start TOD or time stamp, its bytes and its frame list. -/
structure RecUnit where
  num : Nat
  epoch : Nat
  flags : Nat
  time : Tod
  idr : Bool
  bytes : List Byte
  list : List Byte := []
  /-- KIND 1: the position in the encoder's ring where it ends (R301). -/
  ringEnd : Nat := 0
  /-- KIND 0: bytes of the staging ring it holds (R323). -/
  stage : Nat := 0
  /-- its number in the order of arrival at the SHA-256 engines (R746). -/
  arrived : Nat := 0
deriving DecidableEq, Repr, Inhabited

/-- A chain (R329): its granules in order, its length in bytes and the member the next granule goes to. -/
structure Chain where
  grans : List Nat := []
  bytes : Nat := 0
  next : Nat := 0
deriving DecidableEq, Repr, Inhabited

/-- Positions of a stream: units written, chain bytes, and the last unit's frame number (R344). -/
structure RecPos where
  frames : Nat := 0
  dataBytes : Nat := 0
  listBytes : Nat := 0
  unit : Nat := 0
deriving DecidableEq, Repr, Inhabited

/-- A unit whose writes are in flight: its identity, the positions after it, bytes 0x00 to 0x3F of its digest entry until
that is appended (empty afterwards), the commands still outstanding, and whether one of them failed (R339, R343). -/
structure Flight where
  id : Nat
  pos : RecPos
  entry : List Byte
  left : Nat
  bad : Bool := false
  /-- staging bytes it frees when written. -/
  stage : Nat
  /-- chain offset of its digest entry, once appended. -/
  digAt : Option Nat := none
deriving DecidableEq, Repr, Inhabited

/-- A record stream (R317 to R323). [DESIGN CHOICE, log 11] -/
structure RecStream where
  /-- staging ring of a Forurn stream: write offset and bytes in use (R323). -/
  stageAt : Nat := 0
  stageUsed : Nat := 0
  /-- output and block lengths of a job that stopped at the wrap point. -/
  part : List Byte := []
  /-- units completed and not yet taken, the pre-roll ring and a standby's last four units, oldest first. -/
  ready : List RecUnit := []
  /-- KIND 3: the last unit of the clip so far, which takes the signature of the record stop (R549). -/
  held : Option RecUnit := none
  preroll : List RecUnit := []
  ring4 : List RecUnit := []
  /-- a standby's units that have left its ring of four and may not be written: frame number and time (R354). -/
  passed : List (Nat × Tod) := []
  data : Chain := {}
  table : Chain := {}
  list : Chain := {}
  frames : Nat := 0
  first : Option Nat := none
  /-- an IDR access unit of the clip's range has come (R321). -/
  open_ : Bool := false
  flights : List Flight := []
  written : RecPos := {}
  durable : RecPos := {}
  /-- publication order of the adit buffer last taken, and units of another epoch discarded (R32). -/
  seen : Nat := 0
  stale : Nat := 0
deriving DecidableEq, Repr, Inhabited

/-- The clip in recording (R319, R321). [DESIGN CHOICE, log 11] -/
structure Clip where
  num : Nat
  start : Tod
  stop : Option Tod
  /-- stopping: the clip closes (false) or is truncated (true) after its final durability point; that point has begun. -/
  ending : Option Bool := none
  final : Bool := false
  epoch : Nat
  key : List Byte
  keyBlock : List Byte
  digest : List Byte := List.replicate 32 0
  dig : Chain := {}
  /-- flights whose digest entries are being written: flight and chain length before the entry. -/
  digOpen : List (Nat × Nat) := []
  /-- chain length and chain digest after each digest entry that may not be written yet, the newest first (R568). -/
  digMarks : List (Nat × List Byte) := []
  digDurable : Nat := 0
  lastEnd : Tod := ⟨0, 0⟩
deriving DecidableEq, Repr, Inhabited

/-- A Lode Map entry (R327). STATE 1 Allocated, 2 Written; Free entries are not listed. -/
structure LodeEntry where
  state : Nat
  ssd : Nat
  slot : Nat
  next : Nat
  clip : Nat
deriving DecidableEq, Repr, Inhabited

/-- The Lode Map: entries by volume granule, rising. -/
abbrev LodeMap := List (Nat × LodeEntry)

/-- A line of the walker's cache (R332): 8 entries from granule 8 × `line` on; while it is dirty, what DRAM still holds of them. -/
structure WalkWay where
  line : Nat
  dirty : Bool := false
  old : LodeMap := []
deriving DecidableEq, Repr, Inhabited

/-- The contents of an SSD as far as the Reel Volume Format lays them out (R325), a part of the environment: metadata
regions as bytes, and data slots by number. Unlisted slots and bytes read as zero. -/
structure Media where
  sb0 : List Byte := []
  sb1 : List Byte := []
  journal : List (Nat × List Byte) := []
  chkA : LodeMap := []
  chkB : LodeMap := []
  dir : List (Nat × List Byte) := []
  slots : List (Nat × List Byte) := []
  /-- registered reservation keys, and the holder of the Write Exclusive reservation by its key (R351). -/
  keys : List Nat := []
  holder : Option Nat := none
deriving DecidableEq, Repr, Inhabited

/-- The admin and reservation commands that the processor sends to a member (R340). -/
inductive SsdAdmin where
  /-- Identify of the controller (CNS 1) or the namespace (CNS 0). -/
  | identify (cns : Nat)
  | createCq (queue : Nat)
  | createSq (queue : Nat)
  | deleteSq (queue : Nat)
  | deleteCq (queue : Nat)
  /-- Get Log Page: 1 error information, 2 SMART / health information. -/
  | getLog (page : Nat)
  /-- Set Features: 6 Volatile Write Cache, 7 Number of Queues. -/
  | setFeature (id value : Nat)
  | abort (cmd : Nat)
  | resRegister (key : Nat)
  | resAcquire (key : Nat) (preempt : Bool)
  | resRelease (key : Nat)
  | resReport
deriving DecidableEq, Repr, Inhabited

/-- What an NVMe command to a member does (R340). -/
inductive SsdOp where
  | admin (cmd : SsdAdmin)
  /-- a piece of a unit of stream `j`: flight, slot, offset, bytes. -/
  | unit (j flight slot off : Nat) (bytes : List Byte)
  | flush
  /-- with FUA: bytes of a journal record at an offset of the journal region. -/
  | journal (off : Nat) (bytes : List Byte)
  /-- map entries of granules `lo` to `hi` − 1 in checkpoint A or B. -/
  | checkpoint (b : Bool) (lo hi : Nat) (map : LodeMap)
  | directory (clip : Nat) (bytes : List Byte)
  /-- with FUA. -/
  | super (copy : Bool) (bytes : List Byte)
  | dealloc (slots : List Nat)
  /-- a host command of the endpoint, by its arrival number: a read of a member's bytes to a place in the data, a write
  to a slot, or a Flush. -/
  | hostRead (arrival dst off len : Nat) (fua : Bool)
  | hostWrite (arrival slot off : Nat) (fua : Bool) (bytes : List Byte)
  | hostFlush (arrival : Nat)
  /-- a read of a playback: decode stream, offset in the unit, the member's byte and length (R357). -/
  | playRead (stream dst off len : Nat)
deriving DecidableEq, Repr, Inhabited

/-- An NVMe command outstanding at a member (R341), with its queue pair: 0 admin, 1 to 8 the record streams, 9 metadata (R340).
Phase 0 sent, 1 Abort sent, 2 controller reset. -/
structure SsdCmd where
  id : Nat
  queue : Nat
  op : SsdOp
  phase : Nat := 0
  since : Nat
deriving DecidableEq, Repr, Inhabited

/-- An SSD on a root port and its commands (R324, R341). -/
structure Ssd where
  present : Bool := true
  /-- capacity in 4,096-byte blocks, MDTS in bytes; 4,096-byte LBAs; reservations and a second port. -/
  blocks : Nat := 0x10000000
  mdts : Nat := 0x20000
  lba4k : Bool := true
  dual : Bool := true
  failed : Bool := false
  media : Media := {}
  /-- I/O queue pairs that exist, of depth 256 each; commands beyond a queue's depth wait in order (R340). -/
  queues : List Nat := []
  cmds : List SsdCmd := []
deriving DecidableEq, Repr, Inhabited

/-- A playback on a decode stream (R356). State 0 idle, 1 playing, 2 ended, 3 failed. -/
structure Playback where
  state : Nat := 0
  clip : Nat := 0
  stream : Nat := 0
  /-- next frame-table entry, entries of the stream, and chains as granules. -/
  at_ : Nat := 0
  entries : Nat := 0
  data : List Nat := []
  table : List Nat := []
  lastNum : Nat := 0
  units : Nat := 0
  failures : Nat := 0
  /-- the unit being read: pieces not yet asked for (member, offset in the unit, the member's byte, length), reads outstanding,
  and the bytes so far; none between units. -/
  pieces : List (Nat × Nat × Nat × Nat) := []
  left : Nat := 0
  buf : Option (List Byte) := none
deriving DecidableEq, Repr, Inhabited

/-- The steps of a durability point (R344) and of the checkpoint that may follow it (R347). -/
inductive DurPhase where
  | idle
  | flushing
  | journaling
  | checkpointing
  | chkFlushing
  | superblock
deriving DecidableEq, Repr, Inhabited

/-- The recorder and the volume (chapter 9). [DESIGN CHOICE, log 7; DESIGN CHOICE, log 11] -/
structure Recorder where
  streams : List RecStream := List.replicate 8 {}
  /-- the eight SHA-256 engines, each with the number of the unit it hashes, and the number of the next unit (R746). -/
  engines : List (Option Nat) := List.replicate 8 none
  arrivals : Nat := 1
  clip : Option Clip := none
  nextFlight : Nat := 0
  nextCmd : Nat := 0
  /-- volume state: 0 not mounted, 1 read-only, 2 ready. -/
  volume : Nat := 0
  /-- member root ports in order, volume granule size code, V0 and VG_COUNT, SIDECAR_FIRST, VOLUME_ID. -/
  members : List Nat := []
  granule : Nat := 1
  vgCount : Nat := 0
  sidecar : Nat := 0
  volumeId : List Byte := []
  slotCount : List Nat := []
  map : LodeMap := []
  dir : List (Nat × List Byte) := []
  clipNext : Nat := 0
  /-- superblock sequence, active checkpoint, CHK_SEQ, JRN_START, next journal offset and SEQ. -/
  sbSeq : Nat := 0
  active : Bool := false
  chkSeq : Nat := 0
  jrnStart : Nat := 0
  jrnAt : Nat := 0
  seq : Nat := 0
  durableSeq : Nat := 0
  /-- granules and clips changed since the last journal record, and since the last checkpoint. -/
  changed : List Nat := []
  /-- granules whose entries changed by allocation since the previous state copy (R352). -/
  allocNew : List Nat := []
  clipsChanged : List Nat := []
  clipsSince : List Nat := []
  /-- slots to deallocate once the record that frees them is durable: granule, member and slot. -/
  freeing : List (Nat × Nat × Nat) := []
  /-- granules and slots the record being written covers. -/
  journaled : List Nat := []
  freed : List (Nat × Nat × Nat) := []
  phase : DurPhase := .idle
  /-- commands the phase waits for, the positions taken in step 1, and a point due afterwards. -/
  waiting : Nat := 0
  /-- commands of the phase have this id or a higher one. -/
  phaseFrom : Nat := 0
  taken : List RecPos := []
  takenDig : Nat := 0
  pointDue : Bool := false
  /-- a checkpoint follows the next point (R347); the point of R353 step 4 waits for the flights of step 3, those below this one. -/
  chkDue : Bool := false
  resuming : Option Nat := none
  /-- a failure keeps the volume read-only until the next role start (R342, R633). -/
  stuck : Bool := false
  /-- the walker's write-back cache by set (R332). -/
  walker : List (Nat × List WalkWay) := []
  /-- TOD of step 2 and the map of the checkpoint being written. -/
  pointTod : Tod := ⟨0, 0⟩
  snapshot : LodeMap := []
  /-- the record that the running point writes ends here and has this SEQ. -/
  jrnNext : Nat := 0
  missed : Nat := 0
  span : Nat := 0
  lostUnits : Nat := 0
  plays : List Playback := List.replicate 8 {}
  ssds : List Ssd := List.replicate 4 {}
deriving DecidableEq, Repr, Inhabited

/-! ### Host storage endpoint (chapter 10) -/

/-- A completion queue entry as the host sees it, with what its command transferred to host memory (R385). Status is
SCT * 256 + SC. -/
structure Completion where
  arrival : Nat
  sq : Nat
  sqHead : Nat
  cid : Nat
  status : Nat
  dw0 : Nat
  phase : Bool := false
  data : List Byte := []
deriving DecidableEq, Repr, Inhabited

/-- A submission queue: its completion queue, and the entries the host has announced and the controller not fetched. -/
structure SubQ where
  id : Nat
  size : Nat
  cq : Nat
  head : Nat := 0
  tail : Nat := 0
  entries : List NvmeCmd := []
deriving DecidableEq, Repr, Inhabited

/-- A completion queue: entries posted and not yet taken by the host, and those that wait for space. -/
structure CplQ where
  id : Nat
  size : Nat
  vector : Nat
  ien : Bool
  head : Nat := 0
  tail : Nat := 0
  phase : Bool := true
  posted : List Completion := []
  held : List Completion := []
deriving DecidableEq, Repr, Inhabited

/-- An accepted command (R372 to R376): whether it has begun and issued its member commands, how many are outstanding,
whether one failed, and the data read so far. -/
structure HostCmd where
  arrival : Nat
  sq : Nat
  cmd : NvmeCmd
  begun : Bool := false
  issued : Bool := false
  left : Nat := 0
  failed : Bool := false
  data : List Byte := []
  /-- its completion has been made and waits for its queue. -/
  done : Bool := false
deriving DecidableEq, Repr, Inhabited

/-- A Device Self-test in progress (R379, R380): code, segment, and the next step of it. -/
structure SelfTest where
  code : Nat
  segment : Nat
  step : Nat := 0
deriving DecidableEq, Repr, Inhabited

/-- The endpoint. [DESIGN CHOICE, log 9] -/
structure Endpoint where
  linkUp : Bool := false
  width : Nat := 0
  /-- the uncorrectable error status of the AER capability (R362). -/
  aer : Nat := 0
  /-- CSTS.RDY, CSTS.CFS, CSTS.SHST. -/
  ready : Bool := false
  fatal : Bool := false
  shst : Nat := 0
  /-- member Flush commands a shutdown waits for. -/
  shutLeft : Nat := 0
  shutSent : Bool := false
  /-- commands accepted since reset (R372). -/
  arrivals : Nat := 0
  sqs : List SubQ := []
  cqs : List CplQ := []
  cmds : List HostCmd := []
  stalls : Nat := 0
  caught : Nat := 0
  missed : Nat := 0
  timeouts : Nat := 0
  /-- features: Arbitration, Temperature Threshold over and under, Volatile Write Cache, queues allocated, Interrupt
  Coalescing, Interrupt Vector Configuration per vector, Asynchronous Event Configuration. -/
  arb : Nat := 0
  tempOver : Nat := 0xFFFF
  tempUnder : Nat := 0
  vwc : Bool := true
  queues : Option Nat := none
  coalesce : Nat := 0
  ivCd : List Bool := List.replicate 17 false
  aec : Nat := 0x11F
  /-- events not yet reported, as Dword 0 of the completion. -/
  events : List Nat := []
  errors : Nat := 0
  /-- error log, newest first: count, SQ, CID, status, LBA. -/
  errorLog : List (List Nat) := []
  unitsRead : Nat := 0
  unitsWritten : Nat := 0
  cmdsRead : Nat := 0
  cmdsWritten : Nat := 0
  test : Option SelfTest := none
  /-- results of self-tests, newest first: result * 16 + code, failing segment. -/
  results : List (Nat × Nat) := []
  /-- MSI-X messages raised per vector. -/
  msix : List Nat := List.replicate 18 0
deriving DecidableEq, Repr, Inhabited

end Sys2Proof.Machine
end

