-- ==== Sys2Proof/Machine/StateOut.lean ====
section
/-! DEFINITION. The state of the SDI and network outputs, the viewfinder and the audio ports (chapters 13 and 17). A
field's default value is its value at reset. -/

namespace Sys2Proof.Machine

/-- An SDI output or a sender (R465 to R476, R479). Mode 0 nothing selected, 1 a new buffer, 2 a repeat, 3 background. -/
structure Output where
  /-- publication order of the held buffer, 0 before the first, and the picture it holds. -/
  order : Nat := 0
  held : Option Picture := none
  /-- consecutive repeats of it. -/
  run : Nat := 0
  mode : Nat := 0
  /-- the run of background frames has been logged. -/
  noted : Bool := false
  /-- frame being sent: none while nothing is sent. -/
  sent : Option Picture := none
  repeats : Nat := 0
  backgrounds : Nat := 0
  rephases : Nat := 0
  errPs : Int := 0
  /-- packets sent and next RTP sequence number of a sender. -/
  packets : Nat := 0
  rtpSeq : Nat := 0
  /-- HOLD_FRAMES committed at the last selection. -/
  hold : Nat := 0
  /-- publication order last considered, and buffers of another epoch discarded (R32). -/
  seen : Nat := 0
  stale : Nat := 0
  /-- n of the frame selected, and of the frame being sent (R466). -/
  next : Int := 0
  frame : Int := 0
  /-- RTP timestamp of the frame, or of the audio packet, sent last, and the number of packets sent before it (R479). -/
  stamp : Nat := 0
  seq0 : Nat := 0
  /-- audio of the frame or packet sent last: for each sample frame, a sample for each channel (R474, R480). -/
  audio : List (List Int) := []
  /-- an SDI output fills with black lines until the next T_n (R476). -/
  filling : Bool := false
deriving DecidableEq, Repr, Inhabited

/-- An Ethernet MAC (R477, R484). -/
structure Mac where
  up : Bool := false
  sent : Nat := 0
  received : Nat := 0
  discarded : Nat := 0
  pauses : Nat := 0
  /-- addresses ARP has resolved: IPv4 and MAC; addresses it has asked for. -/
  arp : List (Nat × Nat) := []
  asked : List Nat := []
  /-- the frames that the MAC's own protocols sent last (R477). -/
  last : List (List Byte) := []
deriving DecidableEq, Repr, Inhabited

/-- A fractional clock divider steered from TOD (R475, R608): its offset from nominal and the offset it moves to, in parts of
1 ppm / 800,000,000, and the correction that the frame starts measured last ask for. -/
structure Divider where
  offset : Int := 0
  pull : Int := 0
deriving DecidableEq, Repr, Inhabited

/-- A rectangle sent to a panel (R598): tile row, first and last tile column, and its lines of 10-bit R, G, B pixels. -/
structure Rect where
  row : Nat
  left : Nat
  right : Nat
  pixels : List (List (List Nat))
deriving DecidableEq, Repr, Inhabited

/-- An overlay plane (R591, R595 to R597): pixels by index, rising, in the shadow and the active copy, unlisted ones 0;
its dirty tiles; the TOD in ns of its last push. -/
structure Overlay where
  shadow : List (Nat × Nat) := []
  active : List (Nat × Nat) := []
  dirty : List Nat := []
  pushed : Option Nat := none
deriving DecidableEq, Repr, Inhabited

/-- A viewfinder port (R588 to R605). -/
structure View_ where
  /-- what was sent to the panel at role start: the INIT payload, then each DCS command (R590). -/
  init : List (List Byte) := []
  timer : Bool := false
  order : Nat := 0
  held : Option Picture := none
  blanked : Bool := false
  /-- elapsed time of the device at the last new tap buffer. -/
  lastBuf : Nat := 0
  /-- publication order last considered, and buffers of another epoch discarded (R32). -/
  seen : Nat := 0
  stale : Nat := 0
  planes : List Overlay := List.replicate 4 {}
  /-- what the island plane shows: none transparent; else clock state, seal counter, boot count, UNSIGNED, CAL. -/
  assay : Option (List Nat) := none
  assayDirty : List Nat := []
  assayPushed : Option Nat := none
  /-- tiles dirty for the tap, and for a refresh. -/
  tapDirty : List Nat := []
  allDirty : List Nat := []
  /-- settings committed at the last TE edge (R596). -/
  bound : Words := []
  /-- TOD in ns of the last TE edge, and the last eight intervals, newest first. -/
  lastTe : Option Nat := none
  te : List Nat := []
  updates : Nat := 0
  left : Nat := 0
  underruns : Nat := 0
  /-- the rectangles of the last update. -/
  sent : List Rect := []
deriving DecidableEq, Repr, Inhabited

/-- An audio block of R610: its number, time stamp and 128 samples, channel 0 and 1 in turn. -/
structure AudioBlock where
  num : Nat
  stamp : Tod
  samples : List Int
deriving DecidableEq, Repr, Inhabited

/-- An audio port (R606 to R620). State 0 off, 1 starting, 2 running, 3 stopping. -/
structure Audio where
  state : Nat := 0
  /-- a start waits for the stop to complete (R615). -/
  restart : Bool := false
  /-- the slave clock is absent or out of range (R617). -/
  noClock : Bool := false
  /-- first block of data, and the number of the current block. -/
  first : Nat := 0
  cur : Nat := 0
  /-- last block of data of a stop, and the TOD in ns at which the current block began. -/
  last : Option Nat := none
  blockAt : Nat := 0
  /-- CH_EN in force. -/
  chEn : Nat := 3
  /-- blocks in the ring, oldest first. -/
  ring : List AudioBlock := []
  /-- output: the block being played and the sample frame it plays from; none while zeros are sent. -/
  playing : Option (Nat × Nat) := none
  underrun : Bool := false
  lost : Nat := 0
  skipped : Nat := 0
  faults : Nat := 0
  /-- BCLK, WS, SD: at a rail, and driver disabled (R88, R618). -/
  short : List Bool := List.replicate 3 false
  off : List Bool := List.replicate 3 false
deriving DecidableEq, Repr, Inhabited

/-- The outputs, panels and audio. [DESIGN CHOICE, log 9] -/
structure Outputs where
  sdi : List Output := List.replicate 4 {}
  snd : List Output := List.replicate 16 {}
  macs : List Mac := List.replicate 4 {}
  views : List View_ := List.replicate 2 {}
  audio : List Audio := List.replicate 8 {}
  /-- MCLK0 and MCLK1: at a rail, and driver disabled. -/
  mclkShort : List Bool := [false, false]
  mclkOff : List Bool := [false, false]
  /-- the dividers of the SDI pairs' lane PLLs, and the audio clock generator (R475, R608). -/
  pairs : List Divider := List.replicate 2 {}
  audioGen : Divider := {}
deriving DecidableEq, Repr, Inhabited

end Sys2Proof.Machine
end

