-- ==== Sys2Proof/Machine/StateTime.lean ====
section
/-! DEFINITION. The state of device time, PTP and the capture array (chapter 14). A field's default value is its value
at reset. -/

namespace Sys2Proof.Machine

/-- An entry of a MAC's transmit timestamp queue (R504). -/
structure TxStamp where
  stamp : Tod
  seq : Nat
  kind : Nat
deriving DecidableEq, Repr, Inhabited

/-- A foreign master a port has heard (IEEE 1588 9.3.2, named by R499): its last Announce and how many came. -/
structure Foreign where
  msg : AnnounceMsg
  count : Nat
deriving DecidableEq, Repr, Inhabited

/-- A PTP port (R496 to R505, R519). `portState` is coded as IEEE 1588: 1 initializing, 4 listening, 6 master,
7 passive, 8 uncalibrated, 9 slave. [DESIGN CHOICE, log 9] -/
structure PtpPort where
  portState : Nat := 1
  foreign : List Foreign := []
  /-- a two-step Sync waiting for its Follow_Up. -/
  sync : Option PtpMsg := none
  /-- t2 - t1 of the last complete Sync, in 2^-16 ns. -/
  masterToSlave : Option Int := none
  /-- the Delay_Req outstanding: sequence number and departure. -/
  delayReq : Option (Nat × Tod) := none
  /-- path delay measurements since the port entered the slave state, newest first, at most eight. -/
  delays : List Int := []
  txq : List TxStamp := []
  overflow : Bool := false
  dropped : Nat := 0
  sent : Nat := 0
  ignored : Nat := 0
  /-- Delay_Resp messages sent in the MASTER state: sequence number, requester, receipt stamp. -/
  answered : Option (Nat × Nat × Nat × Tod) := none
  /-- the Announce sent last, and sequence number and precise origin of the Follow_Up sent last (R499, R500, R505). -/
  announced : Option AnnounceMsg := none
  followed : Option (Nat × Tod) := none
  seqSync : Nat := 0
  seqAnnounce : Nat := 0
  seqDelay : Nat := 0
deriving DecidableEq, Repr, Inhabited

/-- The exposure schedule of a seam (R506 to R508). `n` is the index of the next trigger, `last` the target of the
previous trigger in 2^-16 ns and `lastPeriod` the frame period then in force. -/
structure ExpSched where
  n : Int := 0
  armed : Bool := false
  last : Option Int := none
  lastPeriod : Nat := 0
  rebase : Bool := false
  /-- FPS_NUM and FPS_DEN of the schedule when `n` was set. -/
  rate : Nat × Nat := (0, 0)
deriving DecidableEq, Repr, Inhabited

/-- Device time (R488 to R524). [DESIGN CHOICE, log 9] -/
structure TimeState where
  running : Bool := false
  sec : Nat := 0
  /-- nanosecond, fraction and hidden fraction fields together, in 2^-32 ns (R488). -/
  sub : Nat := 0
  inc : Nat := 0x140000000
  /-- clock state (R491). -/
  clk : Nat := 0
  f : Int := 0
  theta : Int := 0
  good : Nat := 0
  bad : Nat := 0
  steps : Nat := 0
  /-- sum of the steps applied, in 2^-16 ns (R535). -/
  stepSum : Int := 0
  /-- TIME_CLK ticks in the current clock state. -/
  inState : Nat := 0
  /-- source time of the last valid sample in 2^-16 ns. -/
  lastSample : Option Int := none
  ptp : List PtpPort := List.replicate 4 {}
  /-- parent port (0 to 3) and its data set. -/
  parent : Option (Nat × AnnounceMsg) := none
  /-- the primary body's time cells report a free-running TOD (R495). -/
  bodyFreeRun : Bool := false
  arrayId : Nat := 0
  t0 : Tod := ⟨0, 0⟩
  locked : Bool := false
  table : List (Option Sched) := List.replicate 32 none
  schedOrder : Nat := 0
  /-- targets passed by a step of TOD (R514). -/
  late : List Nat := []
  exp : List ExpSched := List.replicate 8 {}
  /-- messages run from array datagrams and datagrams rejected (R510). -/
  arrayRejected : Nat := 0
deriving DecidableEq, Repr, Inhabited

end Sys2Proof.Machine
end

