-- ==== Sys2Proof/Machine/State.lean ====
section
/-! DEFINITION. The state of the GY1600 model: the command queue and every block's state, the faults and refusals, and
the state at reset. -/

namespace Sys2Proof.Machine

/-- The state of the machine: commands waiting, first in first out, and the blocks. -/
structure State where
  pending : List Instr := []
  dev : Device := {}
  otp : Otp := {}
  nvm : Nvm := {}
  cfg : Cfg := {}
  log : EventLog := {}
  err : ErrorQueue := {}
  mbx : Mailboxes := {}
  hf : Headframe := {}
  pwr : Power := {}
  time : TimeState := {}
  cap : Capture := {}
  lanes : List Lane := List.replicate 40 {}
  /-- lane PLLs A and B of quads DQ0 to DQ3, SQ0 to SQ5: locked (R390). -/
  plls : List Bool := List.replicate 20 false
  /-- link groups 0 to 8 (R426). -/
  links : List LinkGroup := List.replicate 9 {}
  red : Redundancy := {}
  comp : Comp := {}
  codec : Codec := {}
  rcd : Recorder := {}
  ep : Endpoint := {}
  out : Outputs := {}
  dram : Dram := {}
  isl : Island := {}
  islNv : IslandNv := {}
  /-- the model's own counter of free values drawn so far (random draws, signatures). -/
  drawn : Nat := 0
deriving DecidableEq, Repr, Inhabited

/-- The reasons a step can stop with a fault. -/
inductive Fault where
  /-- raised by DRAM_REQUEST for a device address at or above 15T/16, which is not usable (R629); safe. -/
  | dramAddress (addr : Nat)
deriving DecidableEq, Repr

/-- The reasons a step can be refused. -/
inductive Refusal where
  /-- raised by an arm of `exec` whose command has no meaning yet; safe. -/
  | notModelled (mnemonic : String)
deriving DecidableEq, Repr

/-- The machine right after reset. [DESIGN CHOICE, log 2; DESIGN CHOICE, log 7] -/
def State.reset : State := {}

end Sys2Proof.Machine
end

