-- ==== Sys2Proof/Machine/Util.lean ====
section
/-! DEFINITION. Arithmetic, byte and checksum helpers the meanings share. -/

namespace Sys2Proof.Machine

/-- ⌈a / b⌉. -/
def ceilDiv (a b : Nat) : Nat := (a + b - 1) / b

/-- R11 for an unsigned value: drops `n` fractional bits, half up. -/
def rndN (n v : Nat) : Nat := if n = 0 then v else (v + 2 ^ (n - 1)) / 2 ^ n

/-- Clamps to a range (R11). -/
def clampI (lo hi v : Int) : Int := if v < lo then lo else if hi < v then hi else v

/-- Clamps a signed value to an unsigned range [0, hi]. -/
def clampN (hi : Nat) (v : Int) : Nat := if v < 0 then 0 else min hi v.toNat

/-- A counter of `w` bits that saturates. -/
def satInc (w n : Nat) : Nat := min (2 ^ w - 1) (n + 1)

/-- A counter of `w` bits that wraps. -/
def wrapInc (w n : Nat) : Nat := (n + 1) % 2 ^ w

/-- Applies `f` to element `i` of a list; out of range nothing changes. -/
def modAt {α : Type} (l : List α) (i : Nat) (f : α → α) : List α := l.modify i f

/-- The little-endian bytes of a value (R8). -/
def leBytes : Nat → Nat → List Byte
  | 0, _ => []
  | n + 1, v => BitVec.ofNat 8 v :: leBytes n (v / 256)

/-- The value of little-endian bytes (R8). -/
def leVal : List Byte → Nat
  | [] => 0
  | b :: r => b.toNat + 256 * leVal r

/-- The value of big-endian bytes. -/
def beVal (l : List Byte) : Nat := l.foldl (fun a b => a * 256 + b.toNat) 0

/-- Big-endian bytes of a value. -/
def beBytes (n v : Nat) : List Byte := (leBytes n v).reverse

/-- `n` bytes of a byte list from offset `o`; bytes past the end read as `d`. -/
def slice (l : List Byte) (o n : Nat) (d : Byte := 0) : List Byte :=
  let p := (l.drop o).take n
  p ++ List.replicate (n - p.length) d

/-- A little-endian field of `n` bytes at offset `o`. -/
def fieldAt (l : List Byte) (o n : Nat) : Nat := leVal (slice l o n)

/-- Pads with zeros, or cuts, to `n` bytes. -/
def padTo (n : Nat) (l : List Byte) : List Byte := l.take n ++ List.replicate (n - l.length) 0

/-- The little-endian bytes of message words (R8). -/
def wordBytes (l : List Word) : List Byte := l.flatMap fun w => leBytes 4 w.toNat

/-- One bit step of the reflected CRC-32 of IEEE 802.3. -/
def crc32Bit (c : Nat) : Nat := if c % 2 = 1 then (c / 2) ^^^ 0xEDB88320 else c / 2

/-- One byte step of CRC-32. -/
def crc32Byte (c : Nat) (b : Byte) : Nat :=
  crc32Bit (crc32Bit (crc32Bit (crc32Bit (crc32Bit (crc32Bit (crc32Bit (crc32Bit (c ^^^ b.toNat))))))))

/-- CRC-32 of R26: IEEE 802.3 polynomial, initial value 0xFFFF_FFFF, result inverted. -/
def crc32 (l : List Byte) : Nat := (l.foldl crc32Byte 0xFFFFFFFF) ^^^ 0xFFFFFFFF

/-- The 94-bit TOD value of R12. -/
def todPack (t : Tod) : Nat := t.sec * 2 ^ 46 + t.frac

/-- A TOD value from its 94 bits; the nanosecond field is taken as it stands (R12). -/
def todUnpack (v : Nat) : Tod := ⟨bits v 93 46, bits v 45 0⟩

/-- Units of 2^-16 ns in a second. [DESIGN CHOICE, log 17] -/
def unitsPerSec : Nat := 1000000000 * 65536

/-- A TOD in units of 2^-16 ns. -/
def todUnits (t : Tod) : Nat := t.sec * unitsPerSec + t.frac

/-- A TOD from a signed count of 2^-16 ns; before 0 it stands at 0. -/
def todOfUnits (u : Int) : Tod := ⟨u.toNat / unitsPerSec, u.toNat % unitsPerSec⟩

/-- The `n` low words of a value, least significant first. -/
def loWords : Nat → Nat → List Nat
  | 0, _ => []
  | n + 1, v => v % 2 ^ 32 :: loWords n (v / 2 ^ 32)

/-- Whether the nanosecond field of a packed TOD value is one of 0 to 999,999,999 (R12). -/
def todOk (v : Nat) : Bool := decide (bits v 45 16 < 1000000000)

/-- A signed value as its two's complement field of `w` bits. -/
def toField (w : Nat) (v : Int) : Nat := (v % 2 ^ w).toNat

/-- 1 or 0. -/
def b2n (b : Bool) : Nat := if b then 1 else 0

/-- Removes a key from a list of cells. -/
def clearCell (a : Nat) (l : List Host.Cell) : List Host.Cell := l.filter fun c => c.1 != a

/-- Stores bytes at consecutive addresses. -/
def setCells (a : Nat) : List Byte → List Host.Cell → List Host.Cell
  | [], m => m
  | b :: r, m => setCells (a + 1) r (putKey a b m)

/-- Removes a key. -/
def delKey {α : Type} (k : Nat) (l : List (Nat × α)) : List (Nat × α) := l.filter fun e => e.1 != k

/-- The smallest number from `k` on that a rising list does not hold. -/
def firstGap (k : Nat) (l : List Nat) : Nat := l.foldl (fun a x => if x = a then a + 1 else a) k

/-- Overwrites bytes of a list from offset `o`, padding with zeros. -/
def overlay (l : List Byte) (o : Nat) (b : List Byte) : List Byte := padTo o l ++ b ++ l.drop (o + b.length)

end Sys2Proof.Machine
end

