-- ==== Sys2Proof/Machine/Ops.lean ====
section
/-! DEFINITION. Operations every block shares: settings reads, the event log, the error queue, run marks, and which
blocks a role powers. -/

namespace Sys2Proof.Machine

/-- The outcome of one command. -/
abbrev Res := Host.Outcome State Fault Refusal

/-- The accepted value of a field at instance `i`. -/
def cfgN (f : Fld) (i : Nat) (s : State) : Nat := f.get i s.cfg.accepted

/-- The accepted value of a one-bit field. -/
def cfgB (f : Fld) (i : Nat) (s : State) : Bool := f.on i s.cfg.accepted

/-- The accepted value of a signed field. -/
def cfgI (f : Fld) (i : Nat) (s : State) : Int := f.getS i s.cfg.accepted

/-! ### Roles and powered blocks -/

/-- The rows of R19. -/
inductive Blk where
  | sensor
  | ingest
  | frontHead
  | frontBody
  | colour
  | compressor
  | codec
  | recorder
  | endpoint
  | shaft
  | cage
  | media
  | dram
  | always
deriving DecidableEq, Repr

/-- The table of R19: whether a role powers a block. [DEDUCED, log 105] -/
def roleHas (r : Role) (b : Blk) (cageOn : Bool) : Bool :=
  match b, r with
  | .sensor, .integrated | .sensor, .head => true
  | .ingest, .integrated | .ingest, .head | .ingest, .body => true
  | .frontHead, .integrated | .frontHead, .head | .frontHead, .body => true
  | .frontBody, .integrated | .frontBody, .body => true
  | .colour, .integrated | .colour, .body => true
  | .compressor, .integrated | .compressor, .head | .compressor, .body => true
  | .codec, .integrated | .codec, .body => true
  | .recorder, .integrated | .recorder, .body => true
  | .endpoint, .integrated | .endpoint, .body => true
  | .shaft, .head | .shaft, .body => true
  | .cage, .body => cageOn
  | .media, .integrated | .media, .body => true
  | .dram, .integrated | .dram, .head | .dram, .body => true
  | .always, _ => true
  | _, _ => false

/-- The blocks fused off on a GY1600-H (R1, R3). [DEDUCED, log 105] -/
def fused (p : Part) (b : Blk) : Bool :=
  match p, b with
  | .h, .frontBody | .h, .colour | .h, .codec | .h, .recorder | .h, .endpoint => true
  | _, _ => false

/-- Whether the role in force has a block at all (R3, R19). [DEDUCED, log 105] -/
def hasBlk (b : Blk) (s : State) : Bool :=
  roleHas s.dev.role b (cfgB F.RED_ENABLE 0 s) && !fused s.dev.part b

/-- The blocks that stay powered while suspended (R785). -/
def suspendKeeps : Blk → Bool
  | .always | .endpoint => true
  | _ => false

/-- A Fatal stop has carried out its step 2, after which everything that drives a ball or a lane is quiet (R761). -/
def stopping (s : State) : Bool := s.err.entries.any fun e => e.sev == 3 && e.phase == .running && decide (2 ≤ e.steps)

/-- The blocks that finish the recorder's stop in step 3 of a Fatal stop (R761). -/
def stopKeeps : Blk → Bool
  | .always | .recorder | .dram => true
  | _ => false

/-- Whether a block is powered and running: the role is started, has the block, and is neither suspended away from it nor
quiet in a Fatal stop. [DEDUCED, log 105] -/
def blkOn (b : Blk) (s : State) : Bool :=
  s.dev.state == .running && s.dev.powered && hasBlk b s && !(s.pwr.suspended && !suspendKeeps b) &&
    !(stopping s && !stopKeeps b) && !s.pwr.thermallyOff

/-! ### Time of day -/

/-- The TOD counter as a value of R12; the hidden fraction is dropped (R488). [DESIGN CHOICE, log 17] -/
def nowTod (s : State) : Tod := ⟨s.time.sec, s.time.sub / 2 ^ 16⟩

/-- TIME_CLK ticks (1.25 ns) in a millisecond. [DESIGN CHOICE, log 17] -/
def ticksPerMs : Nat := 800000

/-- The time elapsed since step 1 of the start, on the 25 MHz oscillator, in the format of R12 (R706, R792). -/
def startUpTime (s : State) : Tod :=
  let u := (s.dev.elapsed - s.dev.elapsed % 32) * 81920
  ⟨u / unitsPerSec, u % unitsPerSec⟩

/-! ### The event log and the error queue -/

/-- The entry a logged error makes (R706, R707). [DESIGN CHOICE, log 89] -/
def mkEntry (sev code inst : Nat) (ds : List Nat) (s : State) : LogEntry :=
  { seq := s.log.next, startUp := !s.time.running, time := if s.time.running then nowTod s else startUpTime s,
    sev := sev, code := code, inst := inst, start := s.dev.starts % 256,
    details := (ds ++ [0, 0, 0, 0]).take 4 |>.map (· % 2 ^ 32) }

/-- Adds an entry to the log: the SRAM keeps the latest 4,096 (R707), the entries to be programmed at most 4,096 with
the oldest dropped and counted (R709). [DESIGN CHOICE, log 89] -/
def pushLog (e : LogEntry) (l : EventLog) : EventLog :=
  let full := 4096 ≤ l.waiting.length
  { l with next := l.next + 1, sram := (e :: l.sram).take 4096,
           waiting := (if full then l.waiting.drop 1 else l.waiting) ++ [e],
           dropped := if full then l.dropped + 1 else l.dropped }

/-- The position of the entry that an arriving error displaces: the newest waiting entry of the lowest severity among
the waiting entries (R767). -/
def displaceable (q : List ErrEntry) : Option (Nat × Nat) :=
  let w := (q.zipIdx).filter fun p => p.1.phase == .waiting
  w.foldl (fun best p => match best with
    | none => some (p.1.sev, p.2)
    | some (sv, i) => if p.1.sev ≤ sv then some (p.1.sev, p.2) else some (sv, i)) none

/-- Counts a lost entry (R767). [DESIGN CHOICE, log 89] -/
def countLost (q : ErrorQueue) : ErrorQueue := { q with lost := satInc 32 q.lost, lostFlag := true }

/-- A Fatal error abandons every action of lower severity (R765). [DEDUCED, log 97] -/
def abandonLower (sev : Nat) (l : List ErrEntry) : List ErrEntry := if sev = 3 then l.filter fun x => x.sev == 3 else l

/-- The queue after an arriving error that is not merged (R765, R767). -/
def queueNew (e : ErrEntry) (q : ErrorQueue) : ErrorQueue :=
  let l := abandonLower e.sev q.entries
  if l.length < 64 then { q with entries := l ++ [e] }
  else match displaceable l with
    | some (sv, i) => if sv < e.sev then countLost { q with entries := l.eraseIdx i ++ [e] } else countLost q
    | none => countLost q

/-- Whether an arriving error merges into an entry (R766). -/
def mergesInto (code inst : Nat) (x : ErrEntry) : Bool := x.code == code && x.inst == inst && x.phase == .waiting

/-- The queue after an arriving error (R762, R765 to R767). [DEDUCED, log 97] -/
def queueErr (code inst sev : Nat) (ds : List Nat) (q : ErrorQueue) : ErrorQueue :=
  if q.entries.any (mergesInto code inst) then
    { q with entries := abandonLower sev (q.entries.map fun x =>
        if mergesInto code inst x then { x with repeats := x.repeats + 1, sev := max x.sev sev } else x) }
  else queueNew { code := code, inst := inst, sev := sev, details := ds, repeats := 1, phase := .waiting } q

/-- Logs one error and queues it, without the overflow rule of the log itself. -/
def raiseOne (sev code inst : Nat) (ds : List Nat) (s : State) : State :=
  { s with log := pushLog (mkEntry sev code inst ds s) s.log,
           err := queueErr code inst sev ds s.err,
           dev := if sev = 3 then { s.dev with firstFatal := if s.dev.firstFatal = 0 then code else s.dev.firstFatal,
                                               troubled := true } else s.dev }

/-- Whether a run of a condition is open (R808). -/
def inRun (code inst : Nat) (s : State) : Bool := s.err.runs.contains (code, inst)

/-- Opens a run. -/
def openRun (code inst : Nat) (s : State) : State :=
  if inRun code inst s then s else { s with err := { s.err with runs := (code, inst) :: s.err.runs } }

/-- Ends a run: the condition has cleared (R808). -/
def endRun (code inst : Nat) (s : State) : State :=
  { s with err := { s.err with runs := s.err.runs.filter fun r => r != (code, inst) } }

/-- The instance value of an entry to which none applies (R706). [DEDUCED, log 103] -/
def noInst : Nat := 0xFF

/-- An error is detected: its log entry is made and it enters the error queue (R762); when the log drops an entry that
was still to be programmed, 0x1523 is logged once per run (R709). [DEDUCED, log 96; DEDUCED, log 103] -/
def raise (sev code inst : Nat) (ds : List Nat) (s : State) : State :=
  let full := 4096 ≤ s.log.waiting.length
  let t := raiseOne sev code inst ds s
  if full ∧ !inRun 0x1523 noInst t then raiseOne 1 0x1523 noInst [] (openRun 0x1523 noInst t) else t

/-- An error that its chapter logs once per run of the condition (R766, R808). -/
def raiseOnce (sev code inst : Nat) (ds : List Nat) (s : State) : State :=
  if inRun code inst s then s else raise sev code inst ds (openRun code inst s)

/-- The configuration-error state: every block of the role is off (R666). -/
def enterConfigError (s : State) : State := { s with dev := { s.dev with state := .configError, powered := false, troubled := true } }

/-! ### Calibration sets (R721 to R725) -/

/-- The valid user copy with the higher generation (R724). -/
def userCopy (s : State) : Option UserCopy :=
  match s.hf.userA, s.hf.userB with
  | some a, some b => some (if a.generation < b.generation then b else a)
  | some a, none => some a
  | none, b => b

/-- The sets in force of an item and instance by rising temperature; a user set replaces a factory set at its temperature,
and without the factory image no set is used (R721, R725). -/
def calSets (item inst : Nat) (s : State) : List CalSet :=
  if !s.hf.factoryValid then [] else
  let mine := fun (l : List CalSet) => l.filter fun c => c.item == item && c.inst == inst
  let user := mine (((userCopy s).map (·.sets)).getD [])
  let fac := (mine s.hf.factory).filter fun c => !user.any fun u => u.temp == c.temp
  (user ++ fac).mergeSort fun a b => decide (a.temp ≤ b.temp)

/-- R722 between two sets. -/
def calBetween (vlo vhi tlo thi t : Int) : Int :=
  let d := (vhi - vlo) * (t - tlo) * 256 / (thi - tlo)
  (vlo * 256 + d + 128) / 256

/-- Value `k` of an item at temperature `t` (R722): the nearest set outside the range covered. -/
def calValue (k : Nat) (t : Int) : List CalSet → Option Int
  | [] => none
  | [c] => some (c.values.getD k 0)
  | a :: b :: r =>
    if t ≤ a.temp then some (a.values.getD k 0)
    else if t ≤ b.temp then some (calBetween (a.values.getD k 0) (b.values.getD k 0) a.temp b.temp t)
    else calValue k t (b :: r)

/-- The sensor of the table a user of sensor `i` takes: the nearest that is not faulted (R704). -/
def sensorFor (i : Nat) (ts : List TempSensor) : Nat :=
  let far := fun (j : Nat) => max i j - min i j
  (ts.zipIdx.filter fun t => !t.1.faulted).foldl (fun best t => match best with
    | none => some t.2
    | some j => if far t.2 < far j then some t.2 else some j) none |>.getD i

/-- The temperature a user of sensor `i` takes in 1/16 °C (R703, R704). -/
def tempOf (i : Nat) (s : State) : Int := (s.hf.temps.getD (sensorFor i s.hf.temps) {}).value

/-- The hottest die sensor: the highest of T0 to T14 that are not faulted (R703, R704). -/
def hottest (s : State) : Int :=
  ((s.hf.temps.take 15).filter fun t => !t.faulted).foldl (fun a t => max a t.value) (-16384)

/-! ### Free values -/

/-- Advances the counter of free values drawn. [DESIGN CHOICE, log 5] -/
def drawOne (s : State) : State := { s with drawn := s.drawn + 1 }

end Sys2Proof.Machine
end

