-- ==== Sys2Proof/Machine/Front.lean ====
section
/-! DEFINITION. The raw front end and the statistics, stage by stage and bit by bit (chapter 4). -/

namespace Sys2Proof.Machine

/-! ### Planes and reflection -/

/-- The index a missing line or column is taken from: -k is k, n - 1 + k is n - 1 - k (R104, R105, R131). -/
def reflect (n : Nat) (i : Int) : Nat :=
  if i < 0 then (-i).toNat else if (n : Int) ≤ i then (2 * ((n : Int) - 1) - i).toNat else i.toNat

/-- A sample of a plane, with reflection at its edges. -/
def px (p : Plane) (x y : Int) : Nat :=
  let l := p.getD (reflect p.length y) []
  l.getD (reflect l.length x) 0

/-- The width of a plane. -/
def planeW (p : Plane) : Nat := (p.headD []).length

/-- A plane with each sample mapped with its position. -/
def mapPlane (f : Nat → Nat → Nat → Nat) (p : Plane) : Plane :=
  p.zipIdx.map fun l => l.1.zipIdx.map fun v => f v.2 l.2 v.1

/-- The largest working value (R131). -/
def workMax : Nat := 0xFFFFFF

/-- The channel of a sample: 0 R, 1 Gr, 2 Gb, 3 B (R132, R127). -/
def chanAt (phase x y : Nat) : Nat := (y + phase / 2) % 2 * 2 + (x + phase) % 2

/-- The channel and gain class of a delivered sample: 0 to 3 high gain or single, 4 to 7 low gain (R132, R142). -/
def chan8 (phase : Nat) (dg : Bool) (x y : Nat) : Nat :=
  if dg then chanAt phase (x / 2) y + 4 * (x % 2) else chanAt phase x y

/-! ### Linearisation (R135, R160) -/

/-- The bits of a DEPTH code: 10, 12, 14 or 16 (R91, R127). -/
def depthBits (code : Nat) : Nat := 10 + 2 * code

/-- Halfwords of a payload. -/
def halfwords : List Byte → List Nat
  | a :: b :: r => (a.toNat + 256 * b.toNat) :: halfwords r
  | _ => []

/-- Words of a payload. -/
def words32 : List Byte → List Nat
  | a :: b :: c :: d :: r => (a.toNat + 256 * (b.toNat + 256 * (c.toNat + 256 * d.toNat))) :: words32 r
  | _ => []

/-- The linearisation table of a channel: four per gain class, or one when SHARED (R160). -/
def linTable (payload : List Byte) (shared : Bool) (ch : Nat) : List Nat :=
  let k := if shared then ch / 4 else ch
  words32 (slice payload (k * 16384) 16384)

/-- Linearisation of a sample of `b` bits (R135). -/
def linearise (t : List Nat) (b x : Nat) : Nat :=
  let x16 := x * 2 ^ (16 - b)
  let i := x16 / 16
  let f : Int := (x16 % 16 : Nat)
  let ti : Int := (t.getD i 0 : Nat)
  let t1 : Int := if i < 4095 then (t.getD (i + 1) 0 : Nat) else 2 * (t.getD 4095 0 : Nat) - (t.getD 4094 0 : Nat)
  clampN workMax (ti + ((t1 - ti) * f + 8) / 16)

/-- Stage 1 of a delivered frame (R130, R135). -/
def stageLin (n : Nat) (w : Words) (tables : List (Nat × List Byte)) (raw : Plane) : Plane :=
  let b := depthBits (F.SEAM_SRC_DEPTH.get n w)
  if F.RFE_LIN_ENABLE.on n w then
    let pay := (tables.lookup (F.RFE_LIN_TABLE.get n w)).getD []
    let ts := (List.range 8).map (linTable pay (F.RFE_LIN_SHARED.on n w))
    let phase := F.SEAM_SRC_CFA_PHASE.get n w
    let dg := F.RFE_MERGE_DG_ENABLE.on n w
    mapPlane (fun x y v => linearise (ts.getD (chan8 phase dg x y) []) b v) raw
  else mapPlane (fun _ _ v => v * 2 ^ (16 - b) * 16) raw

/-! ### Black level (R136 to R138) -/

/-- A rounded mean (R136). -/
def meanR (sum count : Nat) : Nat := if count = 0 then 0 else (sum + count / 2) / count

/-- The channel means over the optical-black rows of a linearised plane (R136). [DEDUCED, log 108] -/
def measureK (phase : Nat) (dg : Bool) (rows : Plane) : List Nat :=
  (List.range 8).map fun ch =>
    let vs := rows.zipIdx.flatMap fun l => l.1.zipIdx.filterMap fun v =>
      if chan8 phase dg v.2 l.2 = ch then some v.1 else none
    meanR vs.sum vs.length

/-- The column parity of R132: with the merge that of the merged column. -/
def colParity (dg : Bool) (x : Nat) : Nat := (if dg then x / 2 else x) % 2

/-- The column deviations of a linearised plane: a column's mean less the mean of the samples of every column of its parity
(R132, R137). [DEDUCED, log 108] -/
def measureCd (dg : Bool) (rows : Plane) : List Int :=
  let w := planeW rows
  let cols := (List.range w).map fun x => rows.map fun l => l.getD x 0
  let par := (List.range 2).map fun p =>
    let vs := cols.zipIdx.flatMap fun c => if colParity dg c.2 = p then c.1 else []
    meanR vs.sum vs.length
  cols.zipIdx.map fun c => (meanR c.1.sum c.1.length : Int) - (par.getD (colParity dg c.2) 0 : Nat)

/-- One step of a black filter (R137). -/
def blackFilter (first : Bool) (f : Nat) (old m : Int) : Int :=
  if first ∨ f = 0 then m else old + (m - old + 2 ^ (f - 1)) / 2 ^ f

/-- The filters after a frame whose optical-black rows are given linearised (R137). [DEDUCED, log 108] -/
def filterBlack (n : Nat) (w : Words) (rows : Plane) (r : Rfe) : Rfe :=
  if rows.isEmpty then { r with started := true } else
  let phase := F.SEAM_SRC_CFA_PHASE.get n w
  let dg := F.RFE_MERGE_DG_ENABLE.on n w
  let mk := measureK phase dg rows
  let mc := measureCd dg rows
  let first := !r.started
  { r with
    started := true
    k := mk.zipIdx.map fun m => (blackFilter first (F.RFE_BLACK_K_FILTER.get n w) (r.k.getD m.2 0 : Nat) m.1).toNat
    cd := mc.zipIdx.map fun m => blackFilter first (F.RFE_BLACK_CD_FILTER.get n w) (r.cd.getD m.2 0) m.1 }

/-- Whether a column belongs to the optical-black columns. -/
def obColumn (n : Nat) (w : Words) (width x : Nat) : Bool :=
  decide (x < F.RFE_BLACK_OBC_LEFT.get n w) || decide (width ≤ x + F.RFE_BLACK_OBC_RIGHT.get n w)

/-- r[y][ch] of R138 for the channels of line y. -/
def rowBlack (n : Nat) (w : Words) (lin : Plane) (y : Nat) : List Nat :=
  let phase := F.SEAM_SRC_CFA_PHASE.get n w
  let dg := F.RFE_MERGE_DG_ENABLE.on n w
  let ls := ([-4, -2, 0, 2, 4] : List Int).filterMap fun d =>
    let l := (y : Int) + d
    if 0 ≤ l ∧ l < lin.length then some l.toNat else none
  (List.range 8).map fun ch =>
    let vs := ls.flatMap fun l => (lin.getD l []).zipIdx.filterMap fun v =>
      if obColumn n w (planeW lin) v.2 ∧ chan8 phase dg v.2 l = ch then some v.1 else none
    meanR vs.sum vs.length

/-- Stage 2 (R138). -/
def stageBlack (n : Nat) (w : Words) (r : Rfe) (lin : Plane) : Plane :=
  let phase := F.SEAM_SRC_CFA_PHASE.get n w
  let dg := F.RFE_MERGE_DG_ENABLE.on n w
  let mode := F.RFE_BLACK_MODE.get n w
  lin.zipIdx.map fun l =>
    let rb := if 3 ≤ mode then rowBlack n w lin l.2 else []
    l.1.zipIdx.map fun v =>
      let ch := chan8 phase dg v.2 l.2
      let cd := if mode = 2 ∨ mode = 4 then r.cd.getD v.2 0 else 0
      let b : Int :=
        if mode = 0 then ((F.RFE_BLACK_BLACK_FIXED ch).get n w : Nat)
        else if mode ≤ 2 then (r.k.getD ch 0 : Nat) else (rb.getD ch 0 : Nat)
      clampN workMax ((v.1 : Int) - (b + cd))

/-! ### The link code (R140) -/

/-- The code of b bits with f fraction bits of a working value (R140, R193). -/
def linkCode (b f v : Nat) : Nat := min (2 ^ b - 1) (rndN (20 - f) v)

/-- The working value of a link code (R140). -/
def linkValue (f c : Nat) : Nat := c * 2 ^ (20 - f)

/-! ### Dual-gain merge (R142) -/

/-- Merge of a high- and a low-gain sample. -/
def mergePair (ratio t0 t1 h l : Nat) : Nat :=
  let lp := min workMax ((l * ratio + 0x8000) / 65536)
  if h ≤ t0 then h
  else if t1 ≤ h then lp
  else
    let g := (h - t0) * 65536 / (t1 - t0)
    (h * (65536 - g) + lp * g + 32768) / 65536

/-- Merge of a line. -/
def mergeLine (ratio t0 t1 : Nat) : List Nat → List Nat
  | h :: l :: r => mergePair ratio t0 t1 h l :: mergeLine ratio t0 t1 r
  | _ => []

/-- Stage 3. -/
def stageMerge (n : Nat) (w : Words) (p : Plane) : Plane :=
  if F.RFE_MERGE_DG_ENABLE.on n w then
    p.map (mergeLine (F.RFE_MERGE_RATIO.get n w) (F.RFE_MERGE_T0.get n w) (F.RFE_MERGE_T1.get n w))
  else p

/-! ### The active window (R133, R134) -/

/-- Width of the active window for a delivered width. -/
def activeW (n : Nat) (w : Words) (width : Nat) : Nat :=
  let a := width - F.RFE_BLACK_OBC_LEFT.get n w - F.RFE_BLACK_OBC_RIGHT.get n w
  if F.RFE_MERGE_DG_ENABLE.on n w then a / 2 else a

/-- Height of the active window. -/
def activeH (n : Nat) (w : Words) : Nat := F.SEAM_GEOM_HEIGHT.get n w - F.RFE_BLACK_OBR_TOP.get n w

/-- The active window of a plane after stage 3. -/
def activeOf (n : Nat) (w : Words) (p : Plane) : Plane :=
  let left := F.RFE_BLACK_OBC_LEFT.get n w / (if F.RFE_MERGE_DG_ENABLE.on n w then 2 else 1)
  let wa := activeW n w (F.SEAM_GEOM_WIDTH.get n w)
  (p.drop (F.RFE_BLACK_OBR_TOP.get n w)).map fun l => (l.drop left).take wa

/-! ### Defects (R143 to R147) -/

/-- The entries (x, y) of a defect map payload (R163). -/
def defectMap (payload : List Byte) : List (Nat × Nat) :=
  ((words32 payload).drop 1).map fun e => (bits e 31 18, bits e 17 4)

/-- The static replacement of a mapped pixel, none when no neighbour is valid (R144). -/
def staticValue (mp : List (Nat × Nat)) (p : Plane) (x y : Nat) : Option Nat :=
  let nb := fun (dx dy : Int) =>
    let yy := reflect p.length (y + dy)
    let xx := reflect (planeW p) (x + dx)
    if mp.contains (xx, yy) then none else some (px p xx yy)
  let half := fun (a b : Nat) => (a + b + 1) / 2
  match nb (-2) 0, nb 2 0, nb 0 (-2), nb 0 2 with
  | some l, some r, some u, some d =>
    let dh := if l ≤ r then r - l else l - r
    let dv := if u ≤ d then d - u else u - d
    some (if dh ≤ dv then half l r else half u d)
  | some l, some r, _, _ => some (half l r)
  | _, _, some u, some d => some (half u d)
  | a, b, c, d =>
    let vs := [a, b, c, d].filterMap id
    if vs.isEmpty then none else some (meanR vs.sum vs.length)

/-- Static correction of the active window with the counts of mapped pixels left unchanged and replaced (R144, R146). -/
def stageStatic (mp : List (Nat × Nat)) (p : Plane) : Plane × Nat × Nat :=
  let left := (mp.filter fun e => (staticValue mp p e.1 e.2).isNone).length
  (mapPlane (fun x y v => if mp.contains (x, y) then (staticValue mp p x y).getD v else v) p, left, mp.length - left)

/-- Dynamic correction of one pixel: its new value, or none (R145). -/
def dynamicValue (abs_ rel : Nat) (p : Plane) (x y v : Nat) : Option Nat :=
  let nb := ([(-2, 0), (2, 0), (0, -2), (0, 2), (-2, -2), (2, -2), (-2, 2), (2, 2)] : List (Int × Int)).map
    fun d => px p (x + d.1) (y + d.2)
  let nmax := nb.foldl max 0
  let nmin := nb.foldl min (nb.headD 0)
  let t := fun (m : Nat) => abs_ + m * rel / 256
  if nmax + t nmax < v then some nmax
  else if v + t nmin < nmin then some nmin
  else none

/-- Dynamic correction of the active window with the count of replacements (R145, R146). -/
def stageDynamic (mp : List (Nat × Nat)) (abs_ rel : Nat) (p : Plane) : Plane × Nat :=
  let q := p.zipIdx.map fun l => l.1.zipIdx.map fun v =>
    if mp.contains (v.2, l.2) then (v.1, 0)
    else match dynamicValue abs_ rel p v.2 l.2 v.1 with
      | some u => (u, 1)
      | none => (v.1, 0)
  (q.map fun l => l.map (·.1), (q.map fun l => (l.map (·.2)).sum).sum)

/-! ### Column fixed pattern, green imbalance, shading, gains (R148 to R151) -/

/-- Stage 5 with the payload words of the active columns (R148, R164). -/
def stageFpn (cols : List Nat) (p : Plane) : Plane :=
  mapPlane (fun x _ v =>
    let e := cols.getD x 0
    clampN workMax (((v * bits e 31 16 + 0x2000) / 2 ^ 14 : Nat) + sext 16 (bits e 15 0))) p

/-- Stage 6 (R149). -/
def stageGreen (phase thresh strength : Nat) (p : Plane) : Plane :=
  mapPlane (fun x y v =>
    let ch := chanAt phase x y
    if ch = 1 ∨ ch = 2 then
      let d : Int := ((px p ((x : Int) - 1) ((y : Int) - 1) + px p ((x : Int) + 1) ((y : Int) - 1) + px p ((x : Int) - 1) (y + 1) + px p (x + 1) (y + 1) + 2) / 4 : Nat)
      if (d - v).natAbs ≤ thresh then clampN workMax ((v : Int) + ((d - v) * strength + 128) / 256) else v
    else v) p

/-- The shading gain at an active position (R150). -/
def shadeGain (g : List Nat) (wa ha x y : Nat) : Nat :=
  let gx := x * 128 * 65536 / (wa - 1)
  let i := min (gx / 65536) 127
  let fx := gx - i * 65536
  let gy := y * 96 * 65536 / (ha - 1)
  let j := min (gy / 65536) 95
  let fy := gy - j * 65536
  let nd := fun (a b : Nat) => g.getD (b * 129 + a) 0
  let top := nd i j * (65536 - fx) + nd (i + 1) j * fx
  let bot := nd i (j + 1) * (65536 - fx) + nd (i + 1) (j + 1) * fx
  (top * (65536 - fy) + bot * fy + 0x80000000) / 2 ^ 32

/-- Multiplication by a U4.12 gain (R150, R151, R175). -/
def gain12 (g v : Nat) : Nat := min workMax ((v * g + 0x800) / 4096)

/-- Stage 7 with the four grids (R150, R164). -/
def stageShade (phase : Nat) (grids : List (List Nat)) (p : Plane) : Plane :=
  let wa := planeW p
  let ha := p.length
  mapPlane (fun x y v => gain12 (shadeGain (grids.getD (chanAt phase x y) []) wa ha x y) v) p

/-- Stage 8 with the gains of R, Gr, Gb and B (R151). -/
def stageWb (phase : Nat) (gains : List Nat) (p : Plane) : Plane :=
  mapPlane (fun x y v => gain12 (gains.getD (chanAt phase x y) 0x1000) v) p

/-! ### The whole front end (R130, R131) -/

/-- The outputs of the front end that later blocks take: the adit points of R192, the statistics input and stage 8. -/
structure RawOut where
  afterBlack : Plane
  afterFpn : Plane
  forStats : Plane
  final : Plane
  rfe : Rfe
deriving DecidableEq, Repr

/-- A table payload, empty when absent. -/
def payload (tables : List (Nat × List Byte)) (i : Nat) : List Byte := (tables.lookup i).getD []

/-- The front end on a whole frame of a seam (R130): `raw` is the plane of the ring; in the body role it holds link
codes. The head stops after its stages, so its later planes repeat that output. [DEDUCED, log 27; DEDUCED, log 107] -/
def frontEnd (role : Role) (n : Nat) (w : Words) (gains : List Nat) (tables : List (Nat × List Byte)) (r : Rfe)
    (raw : Plane) : RawOut :=
  let phase := F.SEAM_SRC_CFA_PHASE.get n w
  let dg := F.RFE_MERGE_DG_ENABLE.on n w
  let body := role == .body
  let head := role == .head
  let lin := if body then mapPlane (fun _ _ c => linkValue (F.RFE_LIN_LINK_FRAC.get n w) c) raw
             else stageLin n w tables raw
  let r1 := if body then r else filterBlack n w (lin.take (F.RFE_BLACK_OBR_TOP.get n w)) r
  let blk := if body then lin else stageBlack n w r1 lin
  let mrg := if head then blk else stageMerge n w blk
  let act := if head && dg then mrg else activeOf n w mrg
  let mp := defectMap (payload tables (F.RFE_DEFECT_MAP.get n w))
  let doStatic := F.RFE_DEFECT_STATIC_EN.on n w && (if body then dg else if head then !dg else true)
  let (st, unchanged, replaced) := if doStatic then stageStatic mp act else (act, 0, 0)
  let doDyn := F.RFE_DEFECT_DYN_EN.on n w && !head
  let (dy, count) := if doDyn then
      stageDynamic mp (F.RFE_DEFECT_DYN_ABS.get n w) (F.RFE_DEFECT_DYN_REL.get n w) st
    else (st, 0)
  let fpn := if F.RFE_CORR_FPN_EN.on n w && !head then
      stageFpn (words32 (payload tables (F.RFE_CORR_FPN_MAP.get n w))) dy else dy
  let gi := if F.RFE_CORR_GI_EN.on n w && !head then
      stageGreen phase (F.RFE_CORR_GI_THRESH.get n w) (F.RFE_CORR_GI_STRENGTH.get n w) fpn else fpn
  let sh := if F.RFE_CORR_SHADE_EN.on n w && !head then
      let h := halfwords (payload tables (F.RFE_CORR_SHADE_GRID.get n w))
      stageShade phase ((List.range 4).map fun c => (h.drop (c * 12513)).take 12513) gi
    else gi
  let wb := if head then sh else stageWb phase gains sh
  { afterBlack := blk, afterFpn := fpn, forStats := sh, final := wb,
    rfe := { r1 with unchanged := unchanged, replaced := replaced, dynamic := count } }

/-- The frame the head sends (R140): the active window's corrected samples stand in the whole frame, coded to b bits. [DEDUCED, log 107] -/
def headFrame (n : Nat) (w : Words) (o : RawOut) : Plane :=
  let b := depthBits (F.SEAM_SRC_DEPTH.get n w)
  let f := F.RFE_LIN_LINK_FRAC.get n w
  let top := F.RFE_BLACK_OBR_TOP.get n w
  let left := F.RFE_BLACK_OBC_LEFT.get n w
  let whole := if F.RFE_MERGE_DG_ENABLE.on n w then o.afterBlack else
    o.afterBlack.zipIdx.map fun l =>
      if l.2 < top then l.1 else
      let a := o.final.getD (l.2 - top) []
      l.1.take left ++ a ++ l.1.drop (left + a.length)
  mapPlane (fun _ _ v => linkCode b f v) whole

/-! ### Statistics (R152) -/

/-- A 32-bit saturating value. -/
def sat32 (n : Nat) : Nat := min 0xFFFFFFFF n

/-- The quads of two lines: R, Gr, Gb, B and whether any sample reaches the clip level. -/
def quadRow (phase clip : Nat) : List Nat → List Nat → List (List Nat)
  | a :: b :: r, c :: d :: t =>
    let q := [a, b, c, d]
    let pos := fun ch => (List.range 4).findIdx (fun i => chanAt phase (i % 2) (i / 2) == ch)
    ((List.range 4).map (fun ch => q.getD (pos ch) 0) ++ [b2n (q.any fun v => decide (clip ≤ v))]) ::
      quadRow phase clip r t
  | _, _ => []

/-- The quads of a plane, row by row. -/
def quadRows (phase clip : Nat) : Plane → List (List (List Nat))
  | a :: b :: r => quadRow phase clip a b :: quadRows phase clip r
  | _ => []

/-- The record of a zone over its quads (R152). -/
def zoneOf (qs : List (List Nat)) : List Nat :=
  let sum := fun ch => sat32 ((qs.map fun q => q.getD ch 0 / 256).sum)
  [sum 0, sum 1, sum 2, sum 3, sat32 ((qs.map fun q => q.getD 4 0).sum), sat32 qs.length]

/-- The 64 by 48 zones, zone (i, j) at index j * 64 + i (R152, R157). -/
def zonesOf (rows : List (List (List Nat))) (qw qh : Nat) : List (List Nat) :=
  (List.range 48).flatMap fun j =>
    let band := (rows.drop (j * qh / 48)).take ((j + 1) * qh / 48 - j * qh / 48)
    (List.range 64).map fun i =>
      zoneOf (band.flatMap fun r => (r.drop (i * qw / 64)).take ((i + 1) * qw / 64 - i * qw / 64))

/-- A histogram of 1,024 bins. -/
def histogram (vs : List Nat) : List Nat :=
  vs.foldl (fun h v => h.modify (min 1023 v) satOne) (List.replicate 1024 0)
where satOne (n : Nat) : Nat := min 0xFFFFFFFF (n + 1)

/-- The samples of a plane on given channels. -/
def samplesOf (phase : Nat) (chs : List Nat) (p : Plane) : List Nat :=
  p.zipIdx.flatMap fun l => l.1.zipIdx.filterMap fun v => if chs.contains (chanAt phase v.2 l.2) then some v.1 else none

/-- The statistics of a frame over its active window after shading; `luma` is the tap's Y plane when gathered. -/
def statsOf (n : Nat) (w : Words) (h : FrameHeader) (p : Plane) (luma : Option Plane) : StatData :=
  let phase := F.SEAM_SRC_CFA_PHASE.get n w
  let sh := F.STATS_HIST_SHIFT.get n w
  let rows := quadRows phase (F.STATS_CLIP_LEVEL.get n w) p
  let hist := fun chs => histogram ((samplesOf phase chs p).map (· / 2 ^ sh))
  { num := h.num, epoch := h.epoch, tag := h.tag, lumaValid := luma.isSome, wa := planeW p, ha := p.length, shift := sh,
    zones := zonesOf rows (planeW p / 2) (p.length / 2), histR := hist [0], histG := hist [1, 2], histB := hist [3],
    histL := match luma with
      | some y => histogram (y.flatMap fun l => l.map (· / 64))
      | none => List.replicate 1024 0 }

/-- The 114,752 bytes of a statistics buffer (R157). -/
def statBytes (seam : Nat) (b : StatBuf) : List Byte :=
  let d := b.data
  let hdr := loWords 2 d.num ++ [d.epoch, d.tag * 65536 + b2n d.lumaValid * 256 + seam, b.writeSeq,
    d.wa * 65536 + d.ha, d.shift] ++ List.replicate 9 0
  let zones := d.zones.flatMap fun z => (z ++ [0, 0])
  (hdr ++ zones ++ d.histR ++ d.histG ++ d.histB ++ d.histL).flatMap (leBytes 4)

end Sys2Proof.Machine
end

