-- ==== Sys2Proof/Machine/Forurn.lean ====
section
/-! DEFINITION. Forurn raw: the block grid, prediction, residuals, Rice coding, blocks, frame lists and the reader
(chapter 7, R231 to R247, R261 to R263). -/

namespace Sys2Proof.Machine

/-! ### Block geometry (R233 to R235) -/

/-- Block columns of a frame (R233). -/
def blkCols (w : Nat) : Nat := max 1 (w / 1024)
/-- The nominal block height (R233). -/
def blkNominal (w : Nat) : Nat := if 1024 ≤ w then 8 else 8 * ceilDiv 1024 w
/-- Block rows (R233). -/
def blkRows (w h : Nat) : Nat := max 1 (h / blkNominal w)
/-- Blocks of a frame. -/
def blkCount (w h : Nat) : Nat := blkCols w * blkRows w h
/-- Width of the blocks of a column. -/
def blkWidth (w c : Nat) : Nat := if c + 1 = blkCols w then w - 1024 * c else 1024
/-- Height of the blocks of a row. -/
def blkHeight (w h r : Nat) : Nat := if r + 1 = blkRows w h then h - blkNominal w * r else blkNominal w

/-- The samples of block `i` of a frame. -/
def blockOf (w h : Nat) (p : Plane) (i : Nat) : Plane :=
  let c := i % blkCols w
  let r := i / blkCols w
  ((p.drop (blkNominal w * r)).take (blkHeight w h r)).map fun l => (l.drop (1024 * c)).take (blkWidth w c)

/-- The elements of one parity of a list. -/
def everyOther {α : Type} (odd : Bool) (l : List α) : List α :=
  (l.zipIdx.filter fun x => (x.2 % 2 == 1) == odd).map (·.1)

/-- Plane `p` of a block: column parity p AND 1, line parity p >> 1 (R235). -/
def cfaPlane (p : Nat) (blk : Plane) : Plane :=
  (everyOther (p / 2 == 1) blk).map (everyOther (p % 2 == 1))

/-- Interleaves two lists. -/
def weave {α : Type} : List α → List α → List α
  | a :: r, b :: t => a :: b :: weave r t
  | _, _ => []

/-- The block of four planes. -/
def joinPlanes (a b c d : Plane) : Plane :=
  weave ((a.zip b).map fun l => weave l.1 l.2) ((c.zip d).map fun l => weave l.1 l.2)

/-! ### Prediction and residuals (R240 to R244) -/

/-- The prediction from a, b and c (R240). -/
def medPred (a b c : Nat) : Nat :=
  if max a b ≤ c then min a b else if c ≤ min a b then max a b else a + b - c

/-- Runs along a plane line: `f` turns the prediction and the input of a position into its output and the sample the
neighbours see. `left` holds a and c (R240). -/
def predLine (f : Nat → Int → Int × Nat) (b : Nat) (top : Bool) : List Nat → Option (Nat × Nat) → List Int → List (Int × Nat)
  | _, _, [] => []
  | prev, left, x :: xs =>
    let up := prev.headD 0
    let pred := match left, top with
      | none, true => 2 ^ (b - 1)
      | some (a, _), true => a
      | none, false => up
      | some (a, c), false => medPred a up c
    let o := f pred x
    o :: predLine f b top prev.tail (some (o.2, up)) xs

/-- Runs along the lines of a plane. -/
def predPlane (f : Nat → Int → Int × Nat) (b : Nat) : Option (List Nat) → List (List Int) → List (List (Int × Nat))
  | _, [] => []
  | prev, l :: ls =>
    let o := predLine f b prev.isNone (prev.getD []) none l
    o :: predPlane f b (some (o.map (·.2))) ls

/-- The lossless residual of a sample (R241). -/
def losslessRes (b pred : Nat) (x : Int) : Int × Nat :=
  ((x - pred + 2 ^ (b - 1)) % 2 ^ b - 2 ^ (b - 1), x.toNat)

/-- The quantised residual and reconstructed value (R242, R243). -/
def boundedRes (b k pred : Nat) (x : Int) : Int × Nat :=
  let e := x - pred
  let st : Int := 2 * k + 1
  let q := if 0 ≤ e then (e + k) / st else -((-e + k) / st)
  (q, clampN (2 ^ b - 1) (pred + q * st))

/-- The encoder's step of a mode: 0 lossless, 1 bounded-error with k = 1 << KCODE. -/
def encStep (mode kcode b : Nat) : Nat → Int → Int × Nat :=
  if mode = 1 then boundedRes b (2 ^ kcode) else losslessRes b

/-- The reader's step of a mode: the sample of a residual (R241, R243). -/
def decStep (mode kcode b : Nat) (pred : Nat) (r : Int) : Int × Nat :=
  let v : Nat := if mode = 1 then clampN (2 ^ b - 1) (pred + r * (2 * 2 ^ kcode + 1)) else ((pred + r) % 2 ^ b).toNat
  (v, v)

/-- m of R244. -/
def foldRes (r : Int) : Nat := if 0 ≤ r then (2 * r).toNat else (-2 * r - 1).toNat
/-- The residual of m (R244). -/
def unfoldRes (m : Nat) : Int := if m % 2 = 0 then (m / 2 : Nat) else -(((m + 1) / 2 : Nat) : Int)

/-! ### Rice coding (R245, R246) -/

/-- `n` bits of a value, most significant first. -/
def msb (n v : Nat) : List Bool := (List.range n).map fun i => v / 2 ^ (n - 1 - i) % 2 == 1

/-- The length of a codeword (R246). -/
def codeLen (b k m : Nat) : Nat := if m / 2 ^ k < 24 then m / 2 ^ k + 1 + k else 24 + b

/-- The codeword of m (R245). -/
def codeWord (b k m : Nat) : List Bool :=
  if m / 2 ^ k < 24 then List.replicate (m / 2 ^ k) false ++ true :: msb k m else List.replicate 24 false ++ msb b m

/-- The K of a group: least total, ties to the lower (R246). -/
def bestK (b : Nat) (ms : List Nat) : Nat :=
  ((List.range 16).foldl (fun best k =>
    let t := (ms.map (codeLen b k)).sum
    match best with
    | none => some (t, k)
    | some (bt, bk) => if t < bt then some (t, k) else some (bt, bk)) (none : Option (Nat × Nat))).map (·.2) |>.getD 0

/-- Pieces of `n` elements; `fuel` bounds their number. -/
def pieces {α : Type} (n : Nat) : Nat → List α → List (List α)
  | 0, _ => []
  | fuel + 1, l => if l.isEmpty then [] else l.take n :: pieces n fuel (l.drop n)

/-- The bits of a plane's m values (R245). -/
def riceBits (b : Nat) (ms : List Nat) : List Bool :=
  (pieces 32 ms.length ms).flatMap fun g =>
    let k := bestK b g
    msb 4 k ++ g.flatMap (codeWord b k)

/-- Bytes of bits, most significant first, padded with zeros (R239). `n` bounds their number. -/
def packMsb : Nat → List Bool → List Byte
  | 0, _ => []
  | n + 1, l =>
    if l.isEmpty then []
    else BitVec.ofNat 8 ((List.range 8).foldl (fun a i => 2 * a + b2n (l.getD i false)) 0) :: packMsb n (l.drop 8)

/-- Bits of bytes, most significant first. -/
def bitsOfBytes (l : List Byte) : List Bool := l.flatMap fun b => msb 8 b.toNat

/-- The value of bits, most significant first. -/
def valMsb (l : List Bool) : Nat := l.foldl (fun a b => 2 * a + b2n b) 0

/-- Bytes of a bit list. -/
def bytesMsb (l : List Bool) : List Byte := packMsb (l.length / 8 + 1) l

/-! ### Blocks (R236 to R239) -/

/-- The fields of a block that do not depend on its samples. -/
structure BlkInfo where
  mode : Nat
  kcode : Nat
  phase : Nat
  bits : Nat
  bw : Nat
  bh : Nat
  frameLo : Nat
  row : Nat
  col : Nat
deriving DecidableEq, Repr

/-- Rb (R237). -/
def rawSize (i : BlkInfo) : Nat := ceilDiv (i.bw * i.bh * i.bits) 8

/-- A block of a mode and payload (R236). -/
def mkBlock (mode : Nat) (esc : Bool) (i : BlkInfo) (payload : List Byte) : List Byte :=
  let w0 := 0xA7 * 2 ^ 24 + mode * 2 ^ 22 + (if i.mode = 1 then i.kcode else 0) * 2 ^ 19 + b2n esc * 2 ^ 18 +
    i.phase * 2 ^ 16 + i.bits * 2 ^ 11 + i.bw
  let w1 := i.bh * 2 ^ 25 + payload.length
  let w2 := i.frameLo % 2 ^ 16 * 2 ^ 16 + i.row * 16 + i.col
  let hdr := leBytes 4 w0 ++ leBytes 4 w1 ++ leBytes 4 w2
  hdr ++ leBytes 4 (crc32 (hdr ++ payload)) ++ payload

/-- A raw-copy payload (R238). -/
def rawPayload (b : Nat) (blk : Plane) : List Byte :=
  bytesMsb ((List.range 4).flatMap fun p => (cfaPlane p blk).flatMap fun l => l.flatMap (msb b))

/-- The bytes of one coded plane (R239). -/
def codePlane (i : BlkInfo) (p : Plane) : List Byte :=
  let rs := predPlane (encStep i.mode i.kcode i.bits) i.bits none (p.map fun l => l.map fun x => ((x : Nat) : Int))
  bytesMsb (riceBits i.bits (rs.flatMap fun l => l.map fun r => foldRes r.1))

/-- A coded payload (R239). -/
def codedPayload (i : BlkInfo) (blk : Plane) : List Byte :=
  let ps := (List.range 4).map fun p => codePlane i (cfaPlane p blk)
  ((ps.take 3).flatMap fun p => leBytes 4 p.length) ++ ps.flatten

/-- A raw-copy block; `esc` after a verifier mismatch (R237, R249). -/
def rawBlock (esc : Bool) (i : BlkInfo) (blk : Plane) : List Byte := mkBlock 2 esc i (rawPayload i.bits blk)

/-- Whether a block is emitted in raw-copy for its size (R237). -/
def tooLong (i : BlkInfo) (blk : Plane) : Bool := decide (rawSize i < (codedPayload i blk).length)

/-- The block an engine emits when its verifier finds a match (R236, R237). -/
def encodeBlock (i : BlkInfo) (blk : Plane) : List Byte :=
  let p := codedPayload i blk
  if rawSize i < p.length then rawBlock false i blk else mkBlock i.mode false i p

/-! ### The reader (R247) -/

/-- Zero bits before the first one, at most `n`, and the rest. -/
def leadZeros : Nat → List Bool → Nat × List Bool
  | 0, l => (0, l)
  | n + 1, false :: r => let (z, t) := leadZeros n r; (z + 1, t)
  | _ + 1, l => (0, l)

/-- Reads a codeword; none past the end (R245). -/
def readCode (b k : Nat) (l : List Bool) : Option (Nat × List Bool) :=
  let (z, r) := leadZeros 24 l
  if z = 24 then (if r.length < b then none else some (valMsb (r.take b), r.drop b))
  else match r with
    | true :: t => if t.length < k then none else some (z * 2 ^ k + valMsb (t.take k), t.drop k)
    | _ => none

/-- Reads `n` values with a group parameter at each multiple of 32; `i` counts the values read. -/
def readRice (b : Nat) : Nat → Nat → Nat → List Bool → Option (List Nat × List Bool)
  | 0, _, _, l => some ([], l)
  | n + 1, i, k, l =>
    let opened := if i % 32 = 0 then (if l.length < 4 then none else some (valMsb (l.take 4), l.drop 4)) else some (k, l)
    opened.bind fun kl => (readCode b kl.1 kl.2).bind fun m =>
      (readRice b n (i + 1) kl.1 m.2).map fun r => (m.1 :: r.1, r.2)

/-- Reads the samples of a coded plane of `pw` by `ph`; the failed check of R247 otherwise. -/
def readPlane (mode kcode b pw ph : Nat) (bytes : List Byte) : Except Nat Plane :=
  match readRice b (pw * ph) 0 0 (bitsOfBytes bytes) with
  | none => .error 3
  | some (ms, rest) =>
    if 7 < rest.length then .error 4
    else if rest.any id then .error 5
    else .ok ((predPlane (decStep mode kcode b) b none (pieces pw ph (ms.map unfoldRes))).map fun l => l.map (·.2))

/-- Reads a raw-copy payload (R238, R247). -/
def readRaw (i : BlkInfo) (payload : List Byte) : Except Nat Plane :=
  let bs := bitsOfBytes payload
  let n := i.bw / 2 * (i.bh / 2)
  let used := 4 * n * i.bits
  if payload.length ≠ rawSize i ∨ (bs.drop used).any id then .error 6
  else
    let vals := (pieces i.bits (4 * n) (bs.take used)).map valMsb
    let pl := fun (p : Nat) => pieces (i.bw / 2) (i.bh / 2) ((vals.drop (p * n)).take n)
    .ok (joinPlanes (pl 0) (pl 1) (pl 2) (pl 3))

/-- Reads a coded payload (R239, R247). -/
def readCoded (mode kcode : Nat) (i : BlkInfo) (payload : List Byte) : Except Nat Plane := do
  let n0 := fieldAt payload 0 4
  let n1 := fieldAt payload 4 4
  let n2 := fieldAt payload 8 4
  let body := payload.drop 12
  if payload.length < 12 + n0 + n1 + n2 then throw 2
  let pl := fun bytes => readPlane mode kcode i.bits (i.bw / 2) (i.bh / 2) bytes
  let a ← pl (body.take n0)
  let b ← pl ((body.drop n0).take n1)
  let c ← pl ((body.drop (n0 + n1)).take n2)
  let d ← pl (body.drop (n0 + n1 + n2))
  return joinPlanes a b c d

/-- What a block at the head of a byte list must be for the decoder at ingest (R262): the grid's geometry. [DEDUCED, log 58] -/
def readBlock (i : BlkInfo) (l : List Byte) : Except Nat (Plane × List Byte) := do
  let w0 := fieldAt l 0 4
  let w1 := fieldAt l 4 4
  let w2 := fieldAt l 8 4
  let n := bits w1 24 0
  let mode := bits w0 23 22
  let payload := (l.drop 16).take n
  if l.length < 16 + n || bits w0 31 24 != 0xA7 || mode == 3 || crc32 (l.take 12 ++ payload) != fieldAt l 12 4 then throw 1
  if bits w0 10 0 != i.bw || bits w1 31 25 != i.bh || bits w0 15 11 != i.bits || bits w2 15 4 != i.row || bits w2 3 0 != i.col
    then throw 8
  if mode == 1 then throw 9
  if bits w2 31 16 != i.frameLo % 2 ^ 16 then throw 10
  let p ← if mode = 2 then readRaw i payload else readCoded 0 0 i payload
  return (p, l.drop (16 + n))

/-- The grid entry of block `k` of a link frame. -/
def linkInfo (w h b frame k : Nat) : BlkInfo :=
  { mode := 0, kcode := 0, phase := 0, bits := b, bw := blkWidth w (k % blkCols w), bh := blkHeight w h (k / blkCols w),
    frameLo := frame, row := k / blkCols w, col := k % blkCols w }

/-- The lines of a row of blocks. -/
def rowLines (w h r : Nat) (row : List Plane) : Plane :=
  (List.range (blkHeight w h r)).map fun y => row.flatMap fun p => p.getD y []

/-! ### The verifier (R248, R249) -/

/-- The planes an encoder's prediction sees put together again: the input of a lossless block, x̂ of a bounded one (R243). -/
def reconBlock (i : BlkInfo) (blk : Plane) : Plane :=
  let pl := fun (p : Nat) =>
    (predPlane (encStep i.mode i.kcode i.bits) i.bits none ((cfaPlane p blk).map fun l => l.map fun x => ((x : Nat) : Int))).map
      fun l => l.map (·.2)
  joinPlanes (pl 0) (pl 1) (pl 2) (pl 3)

/-- Whether two planes have the same shape and differ by at most `k` at each sample. -/
def planesWithin (k : Nat) (a b : Plane) : Bool :=
  a.length == b.length && (a.zip b).all fun l =>
    l.1.length == l.2.length && (l.1.zip l.2).all fun x => decide (((x.1 : Int) - x.2).natAbs ≤ k)

/-- The verifier decodes the bytes of a block and compares them with its input (R247, R248): a raw-copy and a lossless
block exactly; a bounded-error block within k, and equal to x̂. -/
def verifyBlock (i : BlkInfo) (blk : Plane) (l : List Byte) : Bool :=
  let w0 := fieldAt l 0 4
  let n := bits (fieldAt l 4 4) 24 0
  let payload := (l.drop 16).take n
  l.length == 16 + n && bits w0 31 24 == 0xA7 && crc32 (l.take 12 ++ payload) == fieldAt l 12 4 &&
  (if bits w0 23 22 = 2 then match readRaw i payload with
    | .ok p => p == blk
    | .error _ => false
  else bits w0 23 22 == i.mode && match readCoded i.mode i.kcode i payload with
    | .ok p => p == reconBlock i blk && planesWithin (if i.mode = 1 then 2 ^ i.kcode else 0) p blk
    | .error _ => false)

/-- Bytes with the bits `errs` wrong, bit 0 the least significant of the first byte. -/
def flipBits (errs : List Nat) (l : List Byte) : List Byte :=
  l.zipIdx.map fun b => errs.eraseDups.foldl (fun (v : Byte) (i : Nat) => if i / 8 = b.2 then v ^^^ BitVec.ofNat 8 (2 ^ (i % 8)) else v) b.1

/-- What an engine emits for a block and how its verifier found it, when `faults` are the wrong bits of its attempts one after
the other: the coded block, or the raw-copy that its size asks for; a raw-copy after a mismatch; that raw-copy again (R237,
R248 to R250). [DESIGN CHOICE, log 111] -/
def verdict (i : BlkInfo) (blk : Plane) (faults : List (List Nat)) : VerifyResult × List Byte :=
  let long := tooLong i blk
  let first := flipBits (faults.getD 0 []) (encodeBlock i blk)
  let raw := fun (k : Nat) => flipBits (faults.getD k []) (rawBlock (!long) i blk)
  if verifyBlock i blk first then (.match_, first)
  else if verifyBlock i blk (raw 1) then (if long then .match_ else .codedMismatch, raw 1)
  else if !long && verifyBlock i blk (raw 2) then (.codedMismatch, raw 2)
  else (.rawMismatchTwice, [])

/-! ### Frame lists (R261) -/

/-- The frame list of a frame with the given block lengths (R261). -/
def frameList (num epoch w h b mode kcode phase : Nat) (lens : List Nat) : List Byte :=
  let pre := leBytes 8 num ++ leBytes 4 epoch ++ leBytes 4 (w * 2 ^ 16 + h) ++
    leBytes 4 (b * 2 ^ 27 + mode * 2 ^ 25 + kcode * 2 ^ 22 + phase * 2 ^ 20) ++
    leBytes 4 (blkRows w h * 2 ^ 16 + blkCols w) ++ leBytes 4 lens.sum
  let ws := lens.flatMap (leBytes 4)
  pre ++ leBytes 4 (crc32 (pre ++ ws)) ++ ws

/-! ### Link codes as bytes (R438) -/

/-- Bytes of bits, least significant first. `n` bounds their number. -/
def packLsb : Nat → List Bool → List Byte
  | 0, _ => []
  | n + 1, l =>
    if l.isEmpty then []
    else BitVec.ofNat 8 ((List.range 8).foldl (fun a i => a + b2n (l.getD i false) * 2 ^ i) 0) :: packLsb n (l.drop 8)

/-- Samples packed LSB first, b bits each in raster order (R438). -/
def packCodes (b : Nat) (p : Plane) : List Byte :=
  let bs := p.flatMap fun l => l.flatMap fun v => (msb b v).reverse
  packLsb (bs.length / 8 + 1) bs

/-- The value of bits, least significant first. -/
def valLsb (l : List Bool) : Nat := valMsb l.reverse

/-- `n` samples of b bits from packed bytes (R438). -/
def unpackCodes (b n : Nat) (l : List Byte) : List Nat :=
  (pieces b n (l.flatMap fun x => (msb 8 x.toNat).reverse)).map valLsb

/-- The data bytes of an uncompressed frame (R438). -/
def codeBytes (w h b : Nat) : Nat := ceilDiv (w * h * b) 8

end Sys2Proof.Machine
end

