-- ==== Sys2Proof/Machine/PicHash.lean ====
section
/-! DEFINITION. The decoded picture hash that R310 checks: MD5, CRC and checksum of a picture's planes (PRESUMED from ITU-T H.265,
Annex D, and RFC 1321). -/

namespace Sys2Proof.Machine

/-- The sine words of MD5, the first in the low 32 bits. [PRESUMED, log 16] -/
def md5Sines : Nat :=
  0xEB86D3912AD7D2BBBD3AF235F7537E824E0811A1A3014314FE2CE6E06FA87E4F85845DD1FFEFF47D8F0CCC92655B59C3FC93A039AB9423A7432AFF97F4292244C4AC56651FA27CF8E6DB99E5D9D4D03904881D05D4EF3085EAA127FA289B7EC6BEBFBC70F6BB4B604BDECFA9A4BEEA44FDE5380C6D9D61228771F681FFFA39428D2A4C8A676F02D9FCEFA3F8A9E3E905455A14EDF4D50D87C33707D621E1CDE6E7D3FBC8D8A1E68102441453D62F105DE9B6C7AA265E5A51C040B340F61E256249B40821A679438EFD9871936B901122895CD7BEFFFF5BB18B44F7AF698098D8FD469501A83046134787C62AF57C0FAFC1BDCEEE242070DBE8C7B756D76AA478

/-- The rotations of MD5, four of each round. -/
def md5Rot (i : Nat) : Nat :=
  (([[7, 12, 17, 22], [5, 9, 14, 20], [4, 11, 16, 23], [6, 10, 15, 21]] : List (List Nat)).getD (i / 16) []).getD (i % 4) 0

/-- One of the 64 operations of MD5 on the four words of its state, for the 16 words of a block. -/
def md5Op (m : List Word) (i : Nat) (st : Word × Word × Word × Word) : Word × Word × Word × Word :=
  let (a, b, c, d) := st
  let (f, g) : Word × Nat := match i / 16 with
    | 0 => ((b &&& c) ||| (~~~b &&& d), i)
    | 1 => ((d &&& b) ||| (~~~d &&& c), 5 * i + 1)
    | 2 => (b ^^^ c ^^^ d, 3 * i + 5)
    | _ => (c ^^^ (b ||| ~~~d), 7 * i)
  let t := a + f + BitVec.ofNat 32 (md5Sines / 2 ^ (32 * i)) + m.getD (g % 16) 0
  (d, b + t.rotateLeft (md5Rot i), b, c)

/-- The state after a block of 64 bytes. -/
def md5Block (st : Word × Word × Word × Word) (blk : List Byte) : Word × Word × Word × Word :=
  let m := (List.range 16).map fun i => BitVec.ofNat 32 (fieldAt blk (4 * i) 4)
  let (a, b, c, d) := (List.range 64).foldl (fun s i => md5Op m i s) st
  (st.1 + a, st.2.1 + b, st.2.2.1 + c, st.2.2.2 + d)

/-- MD5 of bytes. [PRESUMED, log 16] -/
def md5 (l : List Byte) : List Byte :=
  let n := l.length
  let p := l ++ [0x80] ++ List.replicate ((119 - n % 64) % 64) 0 ++ leBytes 8 (8 * n)
  let (a, b, c, d) := (pieces 64 p.length p).foldl md5Block (0x67452301, 0xEFCDAB89, 0x98BADCFE, 0x10325476)
  [a, b, c, d].flatMap fun w => leBytes 4 w.toNat

/-- The bytes of a plane's samples: one each at 8 bits, else two, low byte first. -/
def sampleBytes (bits : Nat) (p : Plane) : List Byte := p.flatten.flatMap fun v => leBytes (if bits = 8 then 1 else 2) v

/-- A bit enters the CRC of 0x1021. -/
def crcBit (c : Nat) (b : Bool) : Nat :=
  let v := (2 * c + b2n b) % 65536
  if 32768 ≤ c then v ^^^ 0x1021 else v

/-- The CRC of a plane: its sample bits, most significant first, the low byte of a sample before the high one, and 16 zeros. [PRESUMED, log 16] -/
def planeCrc (bits : Nat) (p : Plane) : List Byte :=
  beBytes 2 ((bitsOfBytes (sampleBytes bits p) ++ List.replicate 16 false).foldl crcBit 0xFFFF)

/-- The checksum of a plane. [PRESUMED, log 16] -/
def planeSum (bits : Nat) (p : Plane) : List Byte :=
  beBytes 4 ((p.zipIdx.flatMap fun l => l.1.zipIdx.map fun v =>
    let m := l.2 % 256 ^^^ v.2 % 256 ^^^ l.2 / 256 ^^^ v.2 / 256
    (v.1 % 256 ^^^ m) + (if bits = 8 then 0 else v.1 / 256 ^^^ m)).sum % 2 ^ 32)

/-- The hash of planes by hash_type: 0 MD5, 1 CRC, 2 checksum. -/
def planesHash (typ bits : Nat) (ps : List Plane) : List Byte :=
  ps.flatMap fun p => match typ with
    | 0 => md5 (sampleBytes bits p)
    | 1 => planeCrc bits p
    | _ => planeSum bits p

/-- Whether decoded planes agree with a hash: type and bytes; a type that the standard reserves says nothing. -/
def hashAgrees (h : Nat × List Byte) (bits : Nat) (ps : List Plane) : Bool :=
  decide (2 < h.1) || (let d := planesHash h.1 bits ps; h.2.take d.length == d)

end Sys2Proof.Machine
end

