-- ==== Sys2Proof/Config.lean ====
section
/-! DEFINITION. The values spec/ leaves open, each an opaque constant: nothing can evaluate one or prove a value of it, so
a claim holds for every value. -/

namespace Sys2Proof

/-- A word of the nonce drawn at draw `n`: random (R691). [DESIGN CHOICE, log 5] -/
opaque Config.nonceWord (n k : Nat) : Word

/-- The byte a new holder of the bulk window reads at an offset it has not written, by claim number (R690). [DESIGN CHOICE, log 86] -/
opaque Config.bulkByte (claim off : Nat) : Byte

/-- The device identity private key (R730, R741): no path reads it. [DESIGN CHOICE, log 6] -/
opaque Config.identityKey (serial : Nat) : Nat

/-- The device exchange private key (R730, R741). [DESIGN CHOICE, log 6] -/
opaque Config.exchangeKey (serial : Nat) : Nat

/-- The per-signature secret of the ECDSA signature at draw `n`. [DESIGN CHOICE, log 5] -/
opaque Config.ecdsaSecret (n : Nat) : Nat

/-- The random clip key byte `i` drawn at draw `n` (R747). [DESIGN CHOICE, log 5] -/
opaque Config.clipKeyByte (n i : Nat) : Byte

/-- The ephemeral private key drawn at draw `n` (R749). [DESIGN CHOICE, log 5] -/
opaque Config.ephemeralKey (n : Nat) : Nat

/-- The frequency correction that an SDI pair's divider makes of a frame-start error in ps, in parts of 1 ppm / 800,000,000: the
spec gives its limits and no control law (R475). [DESIGN CHOICE, log 115] -/
opaque Config.steerPull (pair : Nat) (errPs : Int) : Int

/-- How long after its time an audio sample goes out on SDI or in a packet, in ns: not stated (R474, R481). [DESIGN CHOICE, log 115] -/
opaque Config.audioLag : Nat

/-- The parameter of set_pixel_format for RGB101010: DCS has no code for it and the spec gives none (R590). [DESIGN CHOICE, log 115] -/
opaque Config.pixelFormat30 : Byte

/-- The TTL of the packets a MAC sends: not stated (R477, R479). [DESIGN CHOICE, log 115] -/
opaque Config.ipTtl : Nat

/-- The servo's proportional term for a sample whose interval is 0 or does not fit u32 (R492): not stated. [DESIGN CHOICE, log 63] -/
opaque Config.servoTerm (th : Int) (dt : Nat) : Int

/-- The size of one v step of an eye scan in microvolts, measured at its start (R421). [DESIGN CHOICE, log 52] -/
opaque Config.scanStepUv (lane n : Nat) : Word

/-- What the pattern checker of a lane counted up to a read (R422, R423): words 1 to 5 of the reply. [DESIGN CHOICE, log 52] -/
opaque Config.checkerWord (lane n k : Nat) : Word

/-- The result of a division by zero that chapters 6 and 8 do not state, by its place and dividend. [DESIGN CHOICE, log 36] -/
opaque Config.loopDivZero (place a : Nat) : Nat

/-- Where the frame list of an adit's job goes, and the link codes (`k` 0) and the coded output (`k` 1) of a head's job, in
DRAM: R644 gives them no place (R255). [DESIGN CHOICE, log 112] -/
opaque Config.frameListPlace (adit : Nat) : Nat
/-- See `frameListPlace`. [DESIGN CHOICE, log 112] -/
opaque Config.linkPlace (seam k : Nat) : Nat

/-- The island's private key (R552): no path reads it. [DESIGN CHOICE, log 6] -/
opaque Config.islandKey (serial : Nat) : Nat

/-- The factory-calibrated delay of an island input at the die temperature, in 2^-16 ns (R533, R539). [DESIGN CHOICE, log 64] -/
opaque Config.islandDelay (input now : Nat) : Nat

/-- The mean error, and the spread, in ps that a verification of the island's calibration finds on an input (R540). [DESIGN CHOICE, log 64] -/
opaque Config.edgeError (n input : Nat) : Int
/-- See `edgeError`. [DESIGN CHOICE, log 64] -/
opaque Config.edgeSpread (n input : Nat) : Nat

/-- Choice `k` that the standard leaves an encoder and spec/ does not make for it: a POC length, hierarchy depths, asymmetric
partitions, the IDR's NAL unit type, merge candidates (R271). [DESIGN CHOICE, log 40] -/
opaque Config.encChoice (stream k : Nat) : Nat
/-- The modes, motion data and coefficients of a CTU (R271, R275), by the picture's planes, the planes and motion of its
reference pictures, and what else it depends on: the settings, the CTU and the QPs. [DESIGN CHOICE, log 40] -/
opaque Config.ctuSymbols (planes : List (List (List Nat))) (refs : List (List (List (List Nat)) × List Nat)) (ctx : List Nat) : List Nat
/-- The quantised DC coefficient of a transform unit of a DC-only CTU (R297). [DESIGN CHOICE, log 40] -/
opaque Config.dcLevel (planes : List (List (List Nat))) (refs : List (List (List (List Nat)) × List Nat)) (ctx : List Nat) : Int
/-- The bits CABAC writes for a CTU after the CTUs before it in its slice. [DESIGN CHOICE, log 40] -/
opaque Config.cabacBits (before : List (List Nat)) (ctu : List Nat) (qp : Nat) : List Bool
/-- The bins of a CTU. [DESIGN CHOICE, log 40] -/
opaque Config.cabacBins (before : List (List Nat)) (ctu : List Nat) (qp : Nat) : Nat
/-- The bits that end the arithmetic code of a slice. [DESIGN CHOICE, log 40] -/
opaque Config.cabacEnd (before : List (List Nat)) (qp : Nat) : List Bool
/-- The planes and motion of a coded picture after its loop filters. [DESIGN CHOICE, log 40] -/
opaque Config.reconPlanes (planes : List (List (List Nat))) (refs : List (List (List (List Nat)) × List Nat)) (ctx : List Nat) :
  List (List (List Nat)) × List Nat
/-- The first QP_MAX slice that a report names when no slice was coded at QP_MAX (R287). [DESIGN CHOICE, log 40] -/
opaque Config.noMaxSlice (stream : Nat) : Nat

/-- Bins of `n` parsed CTUs of an access unit from CTU `first` on (R279). [DESIGN CHOICE, log 41] -/
opaque Config.parsedBins (sets bytes : List Byte) (first n : Nat) : Nat
/-- The CTUs of a slice segment that parses correctly; 0 when its parse stops (R306). [DESIGN CHOICE, log 41] -/
opaque Config.sliceCtus (sets slice : List Byte) : Nat
/-- The POC of an access unit none of whose slice headers gives it (R306, R307). [DESIGN CHOICE, log 41] -/
opaque Config.lostPoc (bytes : List Byte) : Int
/-- The samples and the motion that the standard's decoding process gives for an access unit, by its parameter sets, its bytes
and the planes and motion of its reference pictures (R303 to R306). [DESIGN CHOICE, log 41] -/
opaque Config.decodedPlanes (sets bytes : List Byte) (refs : List (List (List (List Nat)) × List Nat)) :
  List (List (List Nat)) × List Nat

/-- The random VOLUME_ID made at a format (R326). [DESIGN CHOICE, log 5; DESIGN CHOICE, log 48] -/
opaque Config.volumeIdByte (n i : Nat) : Byte

/-- What the members' SMART logs report (R371): field 0 percentage used, 1 available spare, 2 media errors. [DESIGN CHOICE, log 48] -/
opaque Config.ssdSmart (n member field : Nat) : Nat

/-- A byte of the endpoint's SMART log that chapter 10 does not state (R371). [DESIGN CHOICE, log 48] -/
opaque Config.smartByte (n i : Nat) : Byte

/-- Byte `i` of what a failed write of the host leaves in its range, by draw (R382). [DESIGN CHOICE, log 48] -/
opaque Config.failedByte (n i : Nat) : Byte

/-- An ARGB pixel of the island's plane for what it shows: clock state, seal counter, boot count, UNSIGNED, CAL (R553). [DESIGN CHOICE, log 64] -/
opaque Config.assayPixel (shown : List Nat) (x y : Nat) : Nat

/-- Value `k` of a LUT unit that no LUT has been loaded into (R179). [DESIGN CHOICE, log 30] -/
opaque Config.lutNode (unit k : Nat) : Nat

/-- What the ECC makes of a codeword with more than two wrong bits (R630, R633): 0 nothing, 1 a correction, 2 uncorrectable. [DESIGN CHOICE, log 78] -/
opaque Config.eccOutcome (addr wrong : Nat) : Nat
/-- Byte `i` of a burst that the ECC has corrected wrongly. [DESIGN CHOICE, log 78] -/
opaque Config.eccByte (addr wrong i : Nat) : Byte

/-- Per-bank refreshes of a channel after which every row has been refreshed (R639). [DESIGN CHOICE, log 80] -/
opaque Config.refreshPass : Nat

/-- A delay that a training of a DRAM channel finds, by channel, draw and place (R640, R641). [DESIGN CHOICE, log 80] -/
opaque Config.trainedDelay (ch n k : Nat) : Int
/-- Whether the read-write check of applied Survey sets passes (R641). [DESIGN CHOICE, log 80] -/
opaque Config.delayCheck (ch n : Nat) : Bool

/-- The sets a calibration image body holds: its format is internal to the vendor firmware (R724). [DEDUCED, log 88] -/
opaque Config.calSetsOf (body : List Byte) : List CalSet

/-- A byte of SHA-256 of a user copy's header: the device signs it itself (R724, R744). [DEDUCED, log 93] -/
opaque Config.userHeaderByte (generation i : Nat) : Byte

end Sys2Proof
end

