-- ==== Sys2Proof/Machine/Colour.lean ====
section
/-! DEFINITION. Colour reconstruction, the tap colour chain, the scaler, the formatter and the buffer layout, bit by bit
(chapter 5). -/

namespace Sys2Proof.Machine

/-! ### Reconstruction (R170, R171) -/

/-- rs(v, k) of chapter 5. -/
def rs (v : Int) (k : Nat) : Int := (v + 2 ^ (k - 1)) / 2 ^ k

/-- A sample as a signed number. -/
def pxi (p : Plane) (x y : Int) : Int := (px p x y : Nat)

/-- The green value at an R or B site (R170, pass 1). -/
def greenAt (t : Nat) (p : Plane) (x y : Int) : Nat :=
  let c2 := 2 * pxi p x y
  let dh := (pxi p (x - 1) y - pxi p (x + 1) y).natAbs + (c2 - pxi p (x - 2) y - pxi p (x + 2) y).natAbs
  let dv := (pxi p x (y - 1) - pxi p x (y + 1)).natAbs + (c2 - pxi p x (y - 2) - pxi p x (y + 2)).natAbs
  let eh := rs (2 * (pxi p (x - 1) y + pxi p (x + 1) y) + c2 - pxi p (x - 2) y - pxi p (x + 2) y) 2
  let ev := rs (2 * (pxi p x (y - 1) + pxi p x (y + 1)) + c2 - pxi p x (y - 2) - pxi p x (y + 2)) 2
  clampN workMax (if dh + t < dv then eh else if dv + t < dh then ev else rs (eh + ev) 1)

/-- The green plane. -/
def greenPlane (phase t : Nat) (p : Plane) : Plane :=
  mapPlane (fun x y v => let c := chanAt phase x y; if c = 1 ∨ c = 2 then v else greenAt t p x y) p

/-- The full demosaic: R, G and B planes (R170). -/
def demosaic (phase t : Nat) (p : Plane) : List Plane :=
  let gp := greenPlane phase t p
  let d := fun (x y : Int) => pxi p x y - pxi gp x y
  let diag := fun (x y : Int) => rs (d (x - 1) (y - 1) + d (x + 1) (y - 1) + d (x - 1) (y + 1) + d (x + 1) (y + 1)) 2
  let hor := fun (x y : Int) => rs (d (x - 1) y + d (x + 1) y) 1
  let ver := fun (x y : Int) => rs (d x (y - 1) + d x (y + 1)) 1
  let pick := fun (want : Nat) => mapPlane (fun x y v =>
    let ch := chanAt phase x y
    let g : Int := pxi gp x y
    if ch = want then v
    else if ch = 3 - want then clampN workMax (g + diag x y)
    else
      let horizontalR := ch = 1
      clampN workMax (g + (if (want = 0) = horizontalR then hor x y else ver x y))) p
  [pick 0, gp, pick 3]

/-- The binned-quad path (R171). -/
def binned (phase : Nat) (p : Plane) : List Plane :=
  let rows := quadRows phase 0 p
  let pl := fun (f : List Nat → Nat) => rows.map fun r => r.map f
  [pl fun q => q.getD 0 0, pl fun q => (q.getD 1 0 + q.getD 2 0 + 1) / 2, pl fun q => q.getD 3 0]

/-! ### The tap colour chain (R174 to R184) -/

/-- Three values of one pixel. -/
abbrev Rgb := List Nat

/-- Applies a pixel function to three planes. -/
def mapRgb (f : Rgb → Rgb) (ps : List Plane) : List Plane :=
  let rows := ((ps.getD 0 []).zip ((ps.getD 1 []).zip (ps.getD 2 []))).map fun l =>
    (l.1.zip (l.2.1.zip l.2.2)).map fun v => f [v.1, v.2.1, v.2.2]
  [rows.map fun l => l.map (·.getD 0 0), rows.map fun l => l.map (·.getD 1 0), rows.map fun l => l.map (·.getD 2 0)]

/-- Trim gains (R175). -/
def trimGains (t : Nat) (w : Words) (v : Rgb) : Rgb :=
  [gain12 (F.TAP_COLOUR_TRIM_R.get t w) (v.getD 0 0), gain12 (F.TAP_COLOUR_TRIM_G.get t w) (v.getD 1 0),
   gain12 (F.TAP_COLOUR_TRIM_B.get t w) (v.getD 2 0)]

/-- A 3 by 3 S4.14 matrix (R176). -/
def matrix14 (m : Nat → Int) (v : Rgb) : Rgb :=
  (List.range 3).map fun i =>
    clampN workMax (rs (((List.range 3).map fun j => m (3 * i + j) * (v.getD j 0 : Nat)).sum) 14)

/-- A table of values addressed as in R135: index v >> 4, fraction v & 0xF, entry 4096 extrapolated (R183). -/
def tableInterp (t : List Nat) (v hi : Nat) : Nat :=
  let i := v / 16
  let a : Int := (t.getD i 0 : Nat)
  let b : Int := if i < 4095 then (t.getD (i + 1) 0 : Nat) else 2 * (t.getD 4095 0 : Nat) - (t.getD 4094 0 : Nat)
  clampN hi (a + ((b - a) * (v % 16 : Nat) + 8) / 16)

/-- The shaper (R178). -/
def shaper (s : List Nat) (v : Nat) : Nat :=
  let low := v < 512
  let m := Nat.log2 v
  let seg := if low then 0 else m - 8
  let base := if low then 0 else 2 ^ m
  let k := if low then 1 else seg
  let q := (v - base) * 256 / 2 ^ k
  let idx := 256 * seg + q / 256
  let f : Int := (q % 256 : Nat)
  let a : Int := (s.getD idx 0 : Nat)
  let b : Int := if idx < 4095 then (s.getD (idx + 1) 0 : Nat) else 2 * (s.getD 4095 0 : Nat) - (s.getD 4094 0 : Nat)
  clampN 0xFFFF (a + rs ((b - a) * f) 8)

/-- The node index and fraction of a channel value (R182). -/
def lutPos (n c : Nat) : Nat × Nat := (c * (n - 1) / 65536, c * (n - 1) % 65536)

/-- Tetrahedral interpolation in a LUT of n^3 nodes, three values per node (R180, R182). -/
def lutInterp (n : Nat) (nodes : List Nat) (v : Rgb) : Rgb :=
  let (ir, fr) := lutPos n (v.getD 0 0)
  let (ig, fg) := lutPos n (v.getD 1 0)
  let (ib, fb) := lutPos n (v.getD 2 0)
  let nd := fun (dr dg db ch : Nat) => ((nodes.getD (3 * ((ir + dr) + n * (ig + dg) + n * n * (ib + db)) + ch) 0 : Nat) : Int)
  let sel : (Nat × Nat × Nat) × (Nat × Nat × Nat) × Nat × Nat × Nat :=
    if fr ≥ fg ∧ fg ≥ fb then ((1, 0, 0), (1, 1, 0), fr, fg, fb)
    else if fr ≥ fb ∧ fb > fg then ((1, 0, 0), (1, 0, 1), fr, fb, fg)
    else if fb > fr ∧ fr ≥ fg then ((0, 0, 1), (1, 0, 1), fb, fr, fg)
    else if fg > fr ∧ fr ≥ fb then ((0, 1, 0), (1, 1, 0), fg, fr, fb)
    else if fg ≥ fb ∧ fb > fr then ((0, 1, 0), (0, 1, 1), fg, fb, fr)
    else ((0, 0, 1), (0, 1, 1), fb, fg, fr)
  let (a, b, fa, fb', fc) := sel
  (List.range 3).map fun ch =>
    let c0 := nd 0 0 0 ch
    let ca := nd a.1 a.2.1 a.2.2 ch
    let cb := nd b.1 b.2.1 b.2.2 ch
    let c1 := nd 1 1 1 ch
    clampN 0xFFFF ((c0 * 65536 + fa * (ca - c0) + fb' * (cb - ca) + fc * (c1 - cb) + 0x8000) / 65536)

/-! ### Built-in curves (R183) -/

/-- Fraction bits of the curve arithmetic. -/
def curveBits : Nat := 192

/-- Sum of the series of atanh: z + z^3/3 + z^5/5 + ..., `n` terms from odd number `k`, z^2 given. -/
def atanhSeries (z2 : Nat) : Nat → Nat → Nat → Nat
  | 0, _, _ => 0
  | n + 1, k, t => t / k + atanhSeries z2 n (k + 2) (t * z2 / 2 ^ curveBits)

/-- Natural logarithm of a/b for a ≥ b > 0 with a < 2b, in fixed point. -/
def lnNear (a b : Nat) : Nat :=
  let z := (a - b) * 2 ^ curveBits / (a + b)
  2 * atanhSeries (z * z / 2 ^ curveBits) 130 1 z

/-- ln 2 in fixed point. -/
def ln2 : Nat :=
  2 * atanhSeries ((2 ^ curveBits / 3) * (2 ^ curveBits / 3) / 2 ^ curveBits) 130 1 (2 ^ curveBits / 3)

/-- Natural logarithm of a/b in fixed point, both positive. [PRESUMED, log 33] -/
def lnRatio (a b : Nat) : Int :=
  if b ≤ a then
    let k := Nat.log2 (a / b)
    (k * ln2 + lnNear a (b * 2 ^ k) : Nat)
  else
    let k := Nat.log2 (b / a)
    Int.neg ((k * ln2 + lnNear b (a * 2 ^ k) : Nat) : Int)

/-- Sum of the exponential series from term `k`. -/
def expSeries (x : Int) : Nat → Nat → Int → Int
  | 0, _, _ => 0
  | n + 1, k, t => t + expSeries x n (k + 1) (t * x / (2 ^ curveBits * (k : Int)))

/-- The exponential of a fixed-point number. [PRESUMED, log 33] -/
def expFx (x : Int) : Nat :=
  let k := x / (ln2 : Int)
  let r := x - k * (ln2 : Int)
  let e := (expSeries r 60 1 (2 ^ curveBits)).toNat
  if k < 0 then e / 2 ^ (-k).toNat else e * 2 ^ k.toNat

/-- (a/b)^(p/q) in fixed point; 0 for a = 0. -/
def powRatio (a b p q : Nat) : Nat := if a = 0 then 0 else expFx (lnRatio a b * p / q)

/-- round(65,535 × v) of a fixed-point value, halves up. -/
def toCode (v : Nat) : Nat := (v * 65535 * 2 + 2 ^ curveBits) / 2 ^ (curveBits + 1)

/-- Entry i of the PQ table (SMPTE ST 2084 inverse EOTF of luminance x × PQ_REF). [PRESUMED, log 33] -/
def pqEntry (ref i : Nat) : Nat :=
  let y := powRatio (i * ref) (4096 * 10000) 2610 16384
  let one := 2 ^ curveBits
  let a := 3424 * one / 4096 + y * 2413 / 128
  let b := one + y * 2392 / 128
  toCode (powRatio a b 2523 32)

/-- Square root in fixed point of a ratio. -/
def sqrtRatio (a b : Nat) : Nat := Nat.sqrt (a * 2 ^ (2 * curveBits) / b)

/-- Entry i of the HLG table (ITU-R BT.2100 OETF of x). [PRESUMED, log 33] -/
def hlgEntry (i : Nat) : Nat :=
  if 12 * i ≤ 4096 then toCode (sqrtRatio (3 * i) 4096)
  else
    let den := 100000000
    let a := 17883277
    let b := den - 4 * a
    let l := lnRatio (12 * i * den - b * 4096) (4096 * den)
    let c := (2 : Int) ^ curveBits / 2 - lnRatio (4 * a) den * (a : Int) / (den : Int)
    toCode (l * (a : Int) / (den : Int) + c).toNat

/-- The greatest y below 2^n with (2y - 1)^12 × 4096^5 ≤ (2 × 65,535)^12 × i^5. -/
def gammaSearch (i : Nat) : Nat → Nat → Nat
  | 0, y => y
  | n + 1, y =>
    let t := y + 2 ^ n
    if t = 0 then gammaSearch i n y
    else if (2 * t - 1) ^ 12 * 4096 ^ 5 ≤ (2 * 65535) ^ 12 * i ^ 5 then gammaSearch i n t else gammaSearch i n y

/-- Entry i of the BT.1886 inverse table, x^(1/2.4) exactly rounded. [PRESUMED, log 33] -/
def gammaEntry (i : Nat) : Nat := gammaSearch i 16 0

/-- The tone table of a CURVE value (R183). [PRESUMED, log 33] -/
def toneTable (t : Nat) (w : Words) (tables : List (Nat × List Byte)) : List Nat :=
  match F.TAP_TONE_CURVE.get t w with
  | 1 => (List.range 4096).map (pqEntry (F.TAP_TONE_PQ_REF.get t w))
  | 2 => (List.range 4096).map hlgEntry
  | 3 => (List.range 4096).map gammaEntry
  | 4 => halfwords (payload tables (F.TAP_TONE_CURVE_TABLE.get t w))
  | _ => []

/-- The rows of the output matrix (R184). -/
def yccRows (ycc : Nat) : List (List Int) :=
  if ycc = 0 then [[3483, 11718, 1183], [-1877, -6315, 8192], [8192, -7441, -751]]
  else [[4304, 11108, 972], [-2288, -5904, 8192], [8192, -7533, -659]]

/-- A row of the output matrix applied to a pixel. -/
def yccRow (row : List Int) (off : Int) (v : Rgb) : Nat :=
  clampN 0xFFFF (rs (((row.zip v).map fun p => p.1 * (p.2 : Int)).sum) 14 + off)

/-- The output matrix (R184). -/
def yccOf (ycc : Nat) (v : Rgb) : Rgb :=
  let r := yccRows ycc
  [yccRow (r.getD 0 []) 0 v, yccRow (r.getD 1 []) 0x8000 v, yccRow (r.getD 2 []) 0x8000 v]

/-- Steps 1 to 7 of the tap chain (R174). `lut` is the LUT in force: its size and nodes. -/
def toneChain (t : Nat) (w : Words) (shp tone : List Nat) (lut : Option (Nat × List Nat)) (v : Rgb) : Rgb :=
  let v := trimGains t w v
  let v := matrix14 (fun k => (F.TAP_COLOUR_CAM_M k).getS t w) v
  let v := if F.TAP_COLOUR_ACES.get t w = 0 then v else matrix14 (fun k => (F.TAP_COLOUR_ACES_M k).getS t w) v
  let v := v.map (gain12 (F.TAP_COLOUR_EXP_GAIN.get t w))
  let v := v.map fun c => if F.TAP_TONE_SHAPER_EN.on t w then shaper shp c else min (c / 16) 0xFFFF
  let v := match lut with
    | some (n, nodes) => if F.TAP_TONE_LUT_EN.on t w then lutInterp n nodes v else v
    | none => v
  if F.TAP_TONE_CURVE.get t w = 0 then v else v.map fun c => tableInterp tone c 0xFFFF

/-! ### Scaler and formatter (R186, R187) -/

/-- One output sample of a direction. -/
def scaleAt (coef : List Int) (inp : List Nat) (outN x : Nat) : Nat :=
  let n := inp.length
  let pos : Int := ((2 * x + 1) * n * 65536 / (2 * outN) : Nat) - 0x8000
  let i := pos / 65536
  let ph := ((pos / 1024) % 64).toNat
  let acc := ((List.range 8).map fun k =>
    coef.getD (ph * 8 + k) 0 * ((inp.getD (clampI 0 ((n : Int) - 1) (i - 3 + k)).toNat 0 : Nat) : Int)).sum
  clampN 0xFFFF (rs acc 12)

/-- A line scaled to `outN` samples; bypassed when the sizes are equal. -/
def scaleLine (coef : List Int) (outN : Nat) (inp : List Nat) : List Nat :=
  if inp.length = outN then inp else (List.range outN).map (scaleAt coef inp outN)

/-- A plane turned on its side. -/
def transpose (p : Plane) : Plane := (List.range (planeW p)).map fun x => p.map fun l => l.getD x 0

/-- A plane scaled horizontally, then vertically (R186). -/
def scalePlane (hc vc : List Int) (ow oh : Nat) (p : Plane) : Plane :=
  transpose ((transpose (p.map (scaleLine hc ow))).map (scaleLine vc oh))

/-- The coefficients of a scaler payload: 64 phases of 8 S4.12 taps. -/
def coeffs (payload : List Byte) : List Int := (halfwords payload).map (sext 16)

/-- 4:2:2 chroma of a line, co-sited with even columns, edges replicated (R187). -/
def chroma422 (l : List Nat) : List Nat :=
  (List.range (l.length / 2)).map fun (x : Nat) =>
    let at_ := fun (i : Int) => l.getD (clampI 0 ((l.length : Int) - 1) i).toNat 0
    rndN 2 (at_ (2 * (x : Int) - 1) + 2 * at_ (2 * (x : Int)) + at_ (2 * (x : Int) + 1))

/-- 4:2:0 chroma from 4:2:2 lines. -/
def chroma420 : Plane → Plane
  | a :: b :: r => (a.zip b).map (fun p => (p.1 + p.2 + 1) / 2) :: chroma420 r
  | _ => []

/-- Codes of a luma or RGB sample (R187). -/
def codeLuma (b : Nat) (full : Bool) (v : Nat) : Nat :=
  let m := 2 ^ (b - 8)
  min (2 ^ b - 1) (if full then (v * (2 ^ b - 1) + 0x8000) / 65536 else 16 * m + (v * (219 * m) + 0x8000) / 65536)

/-- Codes of a chroma sample (R187). -/
def codeChroma (b : Nat) (full : Bool) (v : Nat) : Nat :=
  let m := 2 ^ (b - 8)
  let c : Int := (v : Int) - 0x8000
  clampN (2 ^ b - 1) (if full then (2 ^ (b - 1) : Nat) + (c * (2 ^ b - 1 : Nat) + 0x8000) / 65536
    else (128 * m : Nat) + (c * (224 * m : Nat) + 0x8000) / 65536)

/-- Maps every sample of a plane. -/
def mapS (f : Nat → Nat) (p : Plane) : Plane := p.map fun l => l.map f

/-- The formatter: format 0 RGB, 1 YCbCr 4:2:2, 2 YCbCr 4:2:0 (R187, R191, R199). -/
def formatPlanes (fmt b : Nat) (full : Bool) (ps : List Plane) : List Plane :=
  let p := fun i => ps.getD i []
  if fmt = 0 then ps.map (mapS (codeLuma b full))
  else
    let c := fun i => (p i).map chroma422
    let c := fun i => if fmt = 2 then chroma420 (c i) else c i
    [mapS (codeLuma b full) (p 0), mapS (codeChroma b full) (c 1), mapS (codeChroma b full) (c 2)]

/-- Bits of a BITS code: 10, 12, 16 (R199). -/
def tapBits (code : Nat) : Nat := if code = 0 then 10 else if code = 1 then 12 else 16

/-- A tap's picture from its input planes (R174), and the luma plane of R185. -/
def tapPicture (t : Nat) (w : Words) (tables : List (Nat × List Byte)) (lut : Option (Nat × List Nat)) (h : FrameHeader)
    (inp : List Plane) : Picture × Plane :=
  let shp := halfwords (payload tables (F.TAP_TONE_SHAPER_TABLE.get t w))
  let tone := toneTable t w tables
  let rgb := mapRgb (toneChain t w shp tone lut) inp
  let ycc := F.TAP_TONE_YCC.get t w
  let fmt := F.TAP_SRC_FORMAT.get t w
  let lumaP := (mapRgb (fun v => [yccRow ((yccRows ycc).getD 0 []) 0 v, 0, 0]) rgb).getD 0 []
  let three := if fmt = 0 then rgb else mapRgb (yccOf ycc) rgb
  let hc := coeffs (payload tables (F.TAP_SCALE_H_COEFF.get t w))
  let vc := coeffs (payload tables (F.TAP_SCALE_V_COEFF.get t w))
  let sc := three.map (scalePlane hc vc (F.TAP_SRC_OUT_W.get t w) (F.TAP_SRC_OUT_H.get t w))
  let b := tapBits (F.TAP_SRC_BITS.get t w)
  ({ header := h, writer := 0, index := t, format := fmt, aces := F.TAP_COLOUR_ACES.get t w, bits := b,
     planes := formatPlanes fmt b (F.TAP_SRC_RANGE.on t w) sc }, lumaP)

/-- An adit's picture from the front end's outputs (R192 to R194). -/
def aditPicture (a : Nat) (w : Words) (role : Role) (n : Nat) (h : FrameHeader) (raw : Plane) (o : RawOut) : Picture :=
  let pt := F.ADIT_POINT.get a w
  let ba := F.ADIT_DEPTH.get a w
  let f := F.ADIT_FRAC.get a w
  let code := mapS (linkCode ba f)
  let phase := F.SEAM_SRC_CFA_PHASE.get n w
  let planes := match pt with
    | 0 => [raw]
    | 1 => [code (if role == .body then mapPlane (fun _ _ c => linkValue (F.RFE_LIN_LINK_FRAC.get n w) c) raw
              else o.afterBlack)]
    | 2 => [code o.afterFpn]
    | 3 => [code o.final]
    | _ => (demosaic phase (F.RFE_DM_EDGE_THRESH.get n w) o.final).map code
  { header := h, writer := 1, index := a, format := if pt = 4 then 9 else 8, aces := 0,
    bits := if pt = 0 then depthBits (F.SEAM_SRC_DEPTH.get n w) else ba, planes := planes }

/-! ### Headers and buffers (R26, R191) -/

/-- Words 0 to 10 of a frame header (R26). -/
def headerWords (h : FrameHeader) : List Nat :=
  loWords 2 h.num ++ [h.epoch % 2 ^ 32, h.tag % 65536 * 65536 + h.seam % 8] ++ loWords 3 (todPack h.exp) ++
    loWords 2 h.timecode ++
    [h.metro % 2 ^ 32, b2n h.compressed * 32 + b2n h.cropped * 16 + b2n h.freeRun * 8 + b2n h.droppedBefore * 4 +
      b2n h.repeated * 2 + b2n h.concealed]

/-- The 48 bytes of a frame header, HEADER_CRC last (R26, R33). -/
def headerBytes (h : FrameHeader) : List Byte :=
  let b := (headerWords h).flatMap (leBytes 4)
  b ++ leBytes 4 (crc32 b)

/-- A frame header from its 48 bytes; none when HEADER_CRC fails (R34). -/
def headerOfBytes (l : List Byte) : Option FrameHeader :=
  let wd := fun k => fieldAt l (4 * k) 4
  if crc32 (slice l 0 44) = wd 11 then
    some { num := wd 0 + wd 1 * 2 ^ 32, epoch := wd 2, tag := wd 3 / 65536, seam := wd 3 % 8,
           exp := todUnpack (wd 4 + wd 5 * 2 ^ 32 + wd 6 % 2 ^ 30 * 2 ^ 64), timecode := wd 7 + wd 8 * 2 ^ 32,
           metro := wd 9, compressed := bits (wd 10) 5 5 == 1, cropped := bits (wd 10) 4 4 == 1,
           freeRun := bits (wd 10) 3 3 == 1, droppedBefore := bits (wd 10) 2 2 == 1,
           repeated := bits (wd 10) 1 1 == 1, concealed := bits (wd 10) 0 0 == 1 }
  else none

/-- The line pitch of a plane in bytes: a multiple of 64 (R191). -/
def pitch (w : Nat) : Nat := ceilDiv (w * 2) 64 * 64

/-- The bytes of a plane, each line filled up to its pitch with zeros. -/
def planeBytes (p : Plane) : List Byte :=
  p.flatMap fun l => padTo (pitch l.length) (l.flatMap (leBytes 2))

/-- The bytes of a buffer: descriptor and planes (R191). -/
def bufBytes (b : OutBuf) : List Byte :=
  let p0 := b.pic.planes.headD []
  let desc := headerBytes b.pic.header ++ leBytes 4 (planeW p0 * 65536 + p0.length) ++
    leBytes 4 (b.pic.writer * 2 ^ 24 + b.pic.index * 65536 + b.pic.format * 4096 + b.pic.aces * 1024 +
      (b.pic.planes.length - 1) * 256 + b.pic.bits) ++ leBytes 4 (pitch (planeW p0)) ++ leBytes 4 b.writeSeq
  desc ++ b.pic.planes.flatMap planeBytes

end Sys2Proof.Machine
end

