-- ==== Sys2Proof/Machine/Hevc.lean ====
section
/-! DEFINITION. What the codec reads and writes of the HEVC syntax: NAL units, SEI messages, parameter sets, access unit
boundaries, level limits (R270, R284 to R287, R304); from ITU-T H.265 where spec/ names it (PRESUMED). -/

namespace Sys2Proof.Machine

/-! ### NAL units -/

/-- Emulation prevention: 0x03 after two zero bytes before a byte of at most 3. `z` counts zero bytes. -/
def escapeNal (z : Nat) : List Byte → List Byte
  | [] => []
  | b :: r =>
    if z = 2 ∧ b.toNat ≤ 3 then 3 :: b :: escapeNal (if b = 0 then 1 else 0) r
    else b :: escapeNal (if b = 0 then min 2 (z + 1) else 0) r

/-- Removes emulation prevention bytes. -/
def unescapeNal (z : Nat) : List Byte → List Byte
  | [] => []
  | b :: r => if z = 2 ∧ b = 3 then unescapeNal 0 r else b :: unescapeNal (if b = 0 then min 2 (z + 1) else 0) r

/-- A NAL unit in Annex B form with a 4-byte start code (R286). -/
def mkNal (typ : Nat) (rbsp : List Byte) : List Byte := [0, 0, 0, 1, BitVec.ofNat 8 (typ * 2), 1] ++ escapeNal 0 rbsp

/-- The UUID of R287. -/
def seiUuid : List Byte := beBytes 16 0x5A3C91E207B44F6DA1C83E59D20B76F4

/-- An SEI message of a type: type, size below 255, payload. -/
def seiMsg (typ : Nat) (payload : List Byte) : List Byte := [BitVec.ofNat 8 typ, BitVec.ofNat 8 payload.length] ++ payload

/-- A user_data_unregistered SEI message with the type word of R287 and its payload. -/
def vangisMsg (typ : Nat) (payload : List Byte) : List Byte := seiMsg 5 (seiUuid ++ leBytes 4 typ ++ payload)

/-- Splits bytes at start codes 00 00 01: the first piece is what precedes the first one. `z` counts zero bytes, `acc`
holds the piece so far, reversed. -/
def splitNals (z : Nat) (acc : List Byte) : List Byte → List (List Byte)
  | [] => [acc.reverse]
  | b :: r =>
    if b = 1 ∧ 2 ≤ z then (acc.dropWhile (· == 0)).reverse :: splitNals 0 [] r
    else splitNals (if b = 0 then z + 1 else 0) (b :: acc) r

/-- The NAL units of a byte stream, without start codes. -/
def nalsOf (l : List Byte) : List (List Byte) := ((splitNals 0 [] l).drop 1).filter fun n => decide (3 ≤ n.length)

/-- nal_unit_type. -/
def nalType (n : List Byte) : Nat := bits (n.headD 0).toNat 6 1
/-- Whether a NAL unit is a coded slice segment. -/
def isVcl (n : List Byte) : Bool := decide (nalType n < 32)
/-- first_slice_segment_in_pic_flag. -/
def firstSlice (n : List Byte) : Bool := decide (128 ≤ (n.getD 2 0).toNat)
/-- Whether a NAL unit that follows a slice begins an access unit. -/
def opensAu (n : List Byte) : Bool :=
  let t := nalType n
  if isVcl n then firstSlice n
  else decide (32 ≤ t ∧ t ≤ 35) || t == 39 || decide (41 ≤ t ∧ t ≤ 44) || decide (48 ≤ t ∧ t ≤ 55)

/-- The bytes of a byte stream by NAL unit, each with the start code before it: start codes stay with their NAL unit.
`cur` is the piece so far, reversed. -/
def chopNals (z : Nat) (cur : List Byte) : List Byte → List (List Byte)
  | [] => if cur.isEmpty then [] else [cur.reverse]
  | b :: r =>
    if b = 1 ∧ 2 ≤ z then
      let body := (cur.drop z)
      let start := List.replicate z (0 : Byte) ++ [1]
      (if body.isEmpty then [] else [body.reverse]) ++ chopNals 0 start.reverse r
    else chopNals (if b = 0 then z + 1 else 0) (b :: cur) r

/-- The first NAL unit of a piece of `chopNals`. -/
def pieceNal (p : List Byte) : List Byte := (nalsOf p).headD []

/-- The length in bytes of the first access unit of NAL pieces; none while no later NAL unit ends it. `vcl` tells
whether a slice was seen. -/
def auLength (vcl : Bool) (len : Nat) : List (List Byte) → Option Nat
  | [] => none
  | p :: r =>
    let n := pieceNal p
    if vcl && opensAu n then some len else auLength (vcl || (isVcl n && !n.isEmpty)) (len + p.length) r

/-- The first complete access unit of an input ring; with END all that is left is complete. -/
def firstAu (l : List Byte) (ended : Bool) : Option (List Byte) :=
  match auLength false 0 (chopNals 0 [] l) with
  | some n => some (l.take n)
  | none => if ended && !l.isEmpty then some l else none

/-! ### Bit syntax -/

/-- u(n). -/
def rdBits (n : Nat) (l : List Bool) : Nat × List Bool := (valMsb (l.take n), l.drop n)
/-- ue(v). -/
def rdUe (l : List Bool) : Nat × List Bool :=
  let (z, r) := leadZeros 32 l
  (2 ^ z - 1 + valMsb ((r.drop 1).take z), r.drop (1 + z))
/-- Reads and drops `n` ue(v) elements. -/
def skipUe : Nat → List Bool → List Bool
  | 0, l => l
  | n + 1, l => skipUe n (rdUe l).2

/-- The bits of a NAL unit after its header. -/
def nalBits (n : List Byte) : List Bool := bitsOfBytes (unescapeNal 0 (n.drop 2))

/-- se(v). -/
def rdSe (l : List Bool) : Int × List Bool :=
  let (k, r) := rdUe l
  (if k % 2 = 1 then ((k + 1) / 2 : Nat) else -((k / 2 : Nat) : Int), r)

/-- One flag. -/
def rdFlag (l : List Bool) : Bool × List Bool := (l.headD false, l.drop 1)

/-- Reads `n` elements with a reader. -/
def rdMany {α : Type} (f : List Bool → α × List Bool) : Nat → List Bool → List α × List Bool
  | 0, l => ([], l)
  | n + 1, l =>
    let (a, r) := f l
    let (as, r) := rdMany f n r
    (a :: as, r)

/-- Two readers, one after the other. -/
def rdPair {α β : Type} (f : List Bool → α × List Bool) (g : List Bool → β × List Bool) (l : List Bool) : (α × β) × List Bool :=
  let (a, r) := f l
  let (b, r) := g r
  ((a, b), r)

/-- A reader behind a flag: the default while the flag is 0. -/
def rdWhen {α : Type} (d : α) (f : List Bool → α × List Bool) (l : List Bool) : α × List Bool :=
  if l.headD false then f (l.drop 1) else (d, l.drop 1)

/-- The elements of a scaling list (7.3.4). [PRESUMED, log 16] -/
def skipList (size : Nat) (l : List Bool) : List Bool :=
  if l.headD false then
    let l := if 1 < size then (rdSe (l.drop 1)).2 else l.drop 1
    (rdMany rdSe (min 64 (2 ^ (4 + 2 * size))) l).2
  else (rdUe (l.drop 1)).2

/-- Scaling list data (7.3.4). [PRESUMED, log 16] -/
def skipLists (l : List Bool) : List Bool :=
  (List.replicate 6 0 ++ List.replicate 6 1 ++ List.replicate 6 2 ++ [3, 3]).foldl (fun r s => skipList s r) l

/-- The reference pictures one direction keeps of a predicted set (7-61, 7-62): differences with their flags. -/
def keptRefs (ok : Int → Bool) (l : List (Int × Bool × Bool)) : List (Int × Bool) :=
  (l.filter fun x => ok x.1 && x.2.2).map fun x => (x.1, x.2.1)

/-- A short-term reference picture set predicted from `ref` (7.3.7, 7-61, 7-62). [PRESUMED, log 16] -/
def rdPredicted (ref : List (Int × Bool)) (l : List Bool) : List (Int × Bool) × List Bool :=
  let (sign, l) := rdFlag l
  let (a, l) := rdUe l
  let d : Int := if sign then -((a : Int) + 1) else a + 1
  let (fl, l) := rdMany (fun r => if r.headD false then ((true, true), r.drop 1) else ((false, (r.drop 1).headD false), r.drop 2))
    (ref.length + 1) l
  let neg := ref.filter fun x => decide (x.1 < 0)
  let pos := ref.filter fun x => decide (0 < x.1)
  let all := (ref.zip fl).map fun x => (x.1.1 + d, x.2)
  let self := (d, fl.getD ref.length (false, false))
  let n := neg.length
  let s0 := all.take n
  let s1 := all.drop n
  (keptRefs (fun v => decide (v < 0)) (s1.reverse ++ [self] ++ s0) ++
    keptRefs (fun v => decide (0 < v)) (s0.reverse ++ [self] ++ s1.take pos.length), l)

/-- The differences of one direction of an explicit set. -/
def runningRefs (sign : Int) : Int → List (Nat × Bool) → List (Int × Bool)
  | _, [] => []
  | at_, x :: r => (sign * (at_ + x.1 + 1), x.2) :: runningRefs sign (at_ + x.1 + 1) r

/-- The set number `idx` of `num` in an SPS, or of a slice when `idx` = `num` (7.3.7). [PRESUMED, log 16] -/
def rdRefSet (idx num : Nat) (sets : List (List (Int × Bool))) (l : List Bool) : List (Int × Bool) × List Bool :=
  let (inter, l) := if idx = 0 then (false, l) else rdFlag l
  if inter then
    let (k, l) := if idx = num then rdUe l else (0, l)
    rdPredicted (sets.getD (idx - 1 - k) []) l
  else
    let (n, l) := rdUe l
    let (p, l) := rdUe l
    let (ns, l) := rdMany (rdPair rdUe rdFlag) (min 16 n) l
    let (ps, l) := rdMany (rdPair rdUe rdFlag) (min 16 p) l
    (runningRefs (-1) 0 ns ++ runningRefs 1 0 ps, l)

/-- The `n` sets of an SPS from number `i` on. -/
def rdRefSets (num : Nat) : Nat → Nat → List (List (Int × Bool)) → List Bool → List (List (Int × Bool)) × List Bool
  | 0, _, sets, l => (sets, l)
  | n + 1, i, sets, l =>
    let (s, l) := rdRefSet i num sets l
    rdRefSets num n (i + 1) (sets ++ [s]) l

/-- The VUI values of R284 (E.2.1). [PRESUMED, log 16] -/
def rdVui (l : List Bool) : List Nat × List Bool :=
  let l := if l.headD false then (if valMsb ((l.drop 1).take 8) = 255 then l.drop 41 else l.drop 9) else l.drop 1
  let l := if l.headD false then l.drop 2 else l.drop 1
  let (v, l) := rdWhen (0, [2, 2, 2]) (fun l =>
    let (range, l) := rdFlag (l.drop 3)
    let (c, l) := rdWhen [2, 2, 2] (rdMany (rdBits 8) 3) l
    ((b2n range, c), l)) l
  let l := if l.headD false then skipUe 2 (l.drop 1) else l.drop 1
  let l := l.drop 3
  let l := if l.headD false then skipUe 4 (l.drop 1) else l.drop 1
  let (t, l) := rdWhen [0, 0] (rdMany (rdBits 32) 2) l
  (v.2 ++ [v.1, t.getD 1 0, t.getD 0 0], l)

/-- An SPS with its ID (7.3.2.2). [PRESUMED, log 16] -/
def parseSps (n : List Byte) : Nat × Sps :=
  let l := nalBits n
  let subs := valMsb ((l.drop 4).take 3)
  let tier := valMsb ((l.drop 10).take 1)
  let profile := valMsb ((l.drop 11).take 5)
  let flags := valMsb ((l.drop 52).take 9)
  let level := valMsb ((l.drop 96).take 8)
  let present := (List.range subs).map fun i => ((l.getD (104 + 2 * i) false), (l.getD (105 + 2 * i) false))
  let sub := (present.map fun f => (if f.1 then 88 else 0) + (if f.2 then 8 else 0)).sum
  let l := l.drop (104 + (if subs = 0 then 0 else 16) + sub)
  let (id, l) := rdUe l
  let (chroma, l) := rdUe l
  let (sep, l) := if chroma = 3 then rdFlag l else (false, l)
  let (w, l) := rdUe l
  let (h, l) := rdUe l
  let l := if l.headD false then skipUe 4 (l.drop 1) else l.drop 1
  let (bd, l) := rdUe l
  let (bc, l) := rdUe l
  let (pb, l) := rdUe l
  let (ord, l) := rdMany (rdMany rdUe 3) (if l.headD false then subs + 1 else 1) (l.drop 1)
  let top := ord.getLast?.getD []
  let (lo, l) := rdUe l
  let (df, l) := rdUe l
  let l := skipUe 4 l
  let l := if l.headD false then (if (l.drop 1).headD false then skipLists (l.drop 2) else l.drop 2) else l.drop 1
  let l := l.drop 2
  let l := if l.headD false then (skipUe 2 (l.drop 9)).drop 1 else l.drop 1
  let (num, l) := rdUe l
  let (sets, l) := rdRefSets (min 64 num) (min 64 num) 0 [] l
  let (lt, l) := rdWhen (false, []) (fun l =>
    let (n, l) := rdUe l
    let (v, l) := rdMany (rdPair (rdBits (4 + pb)) rdFlag) (min 32 n) l
    ((true, v), l)) l
  let l := l.drop 2
  let (vui, _) := rdWhen [2, 2, 2, 0, 0, 0] rdVui l
  (id, { profile := profile, high := tier == 1, level := level, flags := flags, chroma := chroma, w := w, h := h, bits := 8 + bd,
         bitsC := 8 + bc, ctb := 2 ^ (3 + min 13 lo + min 13 df), separate := sep, pocBits := 4 + min 12 pb, maxDec := top.getD 0 0
         reorder := top.getD 1 0, latency := top.getD 2 0, sets := sets, longTerm := lt.1, ltSps := lt.2, vui := vui, raw := n })

/-- A PPS with its ID (7.3.2.3). [PRESUMED, log 16] -/
def parsePps (n : List Byte) : Nat × Pps :=
  let (p, l) := rdUe (nalBits n)
  let (s, l) := rdUe l
  (p, { sps := s, dependent := l.headD false, outputFlag := l.getD 1 false, extra := valMsb ((l.drop 2).take 3), raw := n })

/-- What a slice segment header says of its picture (7.3.6.1): its place, type, output, POC and reference pictures. -/
structure SliceHdr where
  first : Bool
  noPrior : Bool
  pps : Nat
  dependent : Bool := false
  addr : Nat := 0
  typ : Nat := 2
  output : Bool := true
  lsb : Nat := 0
  refs : List (Int × Bool) := []
  /-- long-term: POC LSB, its MSB cycle when it is given, use. -/
  long : List (Nat × Option Nat × Bool) := []
deriving DecidableEq, Repr, Inhabited

/-- ⌈log2 n⌉. -/
def clog2 (n : Nat) : Nat := if n ≤ 1 then 0 else Nat.log2 (n - 1) + 1

/-- The PPS a slice names. -/
def slicePps (n : List Byte) : Nat :=
  let t := nalType n
  (rdUe ((nalBits n).drop (if 16 ≤ t ∧ t ≤ 23 then 2 else 1))).1

/-- Running sums of the MSB cycles of long-term entries (7-52). [PRESUMED, log 16] -/
def sumCycles : Nat → List (Nat × Option Nat × Bool) → List (Nat × Option Nat × Bool)
  | _, [] => []
  | c, (v, m, u) :: r => (v, m.map (c + ·), u) :: sumCycles (c + m.getD 0) r

/-- The long-term entries of a slice header. [PRESUMED, log 16] -/
def rdLong (s : Sps) (l : List Bool) : List (Nat × Option Nat × Bool) × List Bool :=
  let (ns, l) := if s.ltSps.isEmpty then (0, l) else rdUe l
  let (np, l) := rdUe l
  let msb := fun (l : List Bool) => rdWhen none (fun l => let (v, l) := rdUe l; (some v, l)) l
  let (a, l) := rdMany (fun l =>
    let (i, l) := rdBits (clog2 s.ltSps.length) l
    let (m, l) := msb l
    (((s.ltSps.getD i (0, false)).1, m, (s.ltSps.getD i (0, false)).2), l)) (min 32 ns) l
  let (b, l) := rdMany (fun l =>
    let (v, l) := rdBits s.pocBits l
    let (u, l) := rdFlag l
    let (m, l) := msb l
    ((v, m, u), l)) (min 32 np) l
  (sumCycles 0 a ++ sumCycles 0 b, l)

/-- The header of a slice segment under its parameter sets, as far as the reference pictures. [PRESUMED, log 16] -/
def parseSlice (s : Sps) (p : Pps) (n : List Byte) : SliceHdr :=
  let t := nalType n
  let l := nalBits n
  let (first, l) := rdFlag l
  let (noPrior, l) := if 16 ≤ t ∧ t ≤ 23 then rdFlag l else (false, l)
  let (pid, l) := rdUe l
  let (dep, l) := if !first && p.dependent then rdFlag l else (false, l)
  let (addr, l) := if first then (0, l) else rdBits (clog2 (ceilDiv s.w (max 1 s.ctb) * ceilDiv s.h (max 1 s.ctb))) l
  let hdr : SliceHdr := { first := first, noPrior := noPrior, pps := pid, dependent := dep, addr := addr }
  if dep then hdr
  else
    let (typ, l) := rdUe (l.drop p.extra)
    let (out, l) := if p.outputFlag then rdFlag l else (true, l)
    let l := if s.separate then l.drop 2 else l
    if t = 19 ∨ t = 20 then { hdr with typ := typ, output := out }
    else
      let (lsb, l) := rdBits s.pocBits l
      let (byIndex, l) := rdFlag l
      let (refs, l) := if byIndex then
          let (i, l) := rdBits (clog2 s.sets.length) l
          (s.sets.getD i [], l)
        else rdRefSet s.sets.length s.sets.length s.sets l
      let (long, _) := if s.longTerm then rdLong s l else ([], l)
      { hdr with typ := typ, output := out, lsb := lsb, refs := refs, long := long }

/-! ### SEI messages -/

/-- A value of SEI type or size: bytes of 255 and a last one. `fuel` bounds them. -/
def rdFf : Nat → Nat → List Byte → Nat × List Byte
  | 0, a, l => (a, l)
  | n + 1, a, l => match l with
    | b :: r => if b = 0xFF then rdFf n (a + 255) r else (a + b.toNat, r)
    | [] => (a, [])

/-- The messages of an SEI RBSP: type and payload. `fuel` bounds them. [PRESUMED, log 16] -/
def seiMessages : Nat → List Byte → List (Nat × List Byte)
  | 0, _ => []
  | n + 1, l =>
    if l.length ≤ 1 then []
    else
      let (t, r) := rdFf l.length 0 l
      let (z, r) := rdFf l.length 0 r
      (t, r.take z) :: seiMessages n (r.drop z)

/-- The messages of an SEI NAL unit. -/
def seiOf (n : List Byte) : List (Nat × List Byte) :=
  let p := unescapeNal 0 (n.drop 2)
  seiMessages p.length p

/-- The frame header of a Vangis type 1 message in a prefix SEI (R287). [PRESUMED, log 16] -/
def seiHeader (n : List Byte) : Option FrameHeader :=
  if nalType n = 39 then
    (seiOf n).findSome? fun m =>
      if m.1 = 5 ∧ m.2.take 16 = seiUuid ∧ fieldAt m.2 16 4 = 1 then headerOfBytes ((m.2.drop 20).take 48) else none
  else none

/-- The decoded picture hash of a suffix SEI: its type and bytes (R310). [PRESUMED, log 16] -/
def seiHash (n : List Byte) : Option (Nat × List Byte) :=
  if nalType n = 40 then (seiOf n).findSome? fun m => if m.1 = 132 then some ((m.2.headD 0).toNat, m.2.drop 1) else none
  else none

/-! ### Levels (R269, R270) -/

/-- general_level_idc with MaxLumaPs, MaxLumaSr, and MaxBR and MaxCPB in 1,000 units for main and high tier. [PRESUMED, log 16] -/
def levelTable : List (Nat × List Nat) :=
  [(30, [36864, 552960, 128, 128, 350, 350]), (60, [122880, 3686400, 1500, 1500, 1500, 1500]),
   (63, [245760, 7372800, 3000, 3000, 3000, 3000]), (90, [552960, 16588800, 6000, 6000, 6000, 6000]),
   (93, [983040, 33177600, 10000, 10000, 10000, 10000]), (120, [2228224, 66846720, 12000, 30000, 12000, 30000]),
   (123, [2228224, 133693440, 20000, 50000, 20000, 50000]), (150, [8912896, 267386880, 25000, 100000, 25000, 100000]),
   (153, [8912896, 534773760, 40000, 160000, 40000, 160000]), (156, [8912896, 1069547520, 60000, 240000, 60000, 240000]),
   (180, [35651584, 1069547520, 60000, 240000, 60000, 240000]), (183, [35651584, 2139095040, 120000, 480000, 120000, 480000]),
   (186, [35651584, 4278190080, 240000, 800000, 240000, 800000])]

/-- The factor of a profile on MaxCPB. [PRESUMED, log 16] -/
def profileFactor (p : Nat) : Nat :=
  match p % 4 with
  | 2 => 1667
  | 3 => 3000
  | _ => 1000

/-- The factor of a profile on MaxBR: twice for an Intra profile with the lower bit rate flag at 0 (R270). [PRESUMED, log 16] -/
def rateFactor (p : Nat) (lower : Bool) : Nat := if 4 ≤ p ∧ !lower then 2 * profileFactor p else profileFactor p

/-- The bit rate limit of a level, profile and tier (R269, R270). -/
def maxBr (level profile : Nat) (high lower : Bool) : Nat :=
  rateFactor profile lower * ((levelTable.lookup level).getD []).getD (if high && decide (120 ≤ level) then 3 else 2) 0

/-- Whether a stream fits a level: size, picture rate, bit rate and buffer (R269). -/
def levelOk (level profile : Nat) (high : Bool) (w h num den bps cpb : Nat) : Bool :=
  match levelTable.lookup level with
  | none => false
  | some l =>
    let at_ := fun (i : Nat) => l.getD i 0
    let hi := high && decide (120 ≤ level)
    decide (w * h ≤ at_ 0) && decide (w * w ≤ 8 * at_ 0) && decide (h * h ≤ 8 * at_ 0) && (!high || hi) &&
      decide (w * h * num ≤ at_ 1 * den) && decide (bps ≤ maxBr level profile high false) &&
      decide (cpb ≤ profileFactor profile * at_ (if hi then 5 else 4))

/-- The level's maximum DPB size for a picture size (H.265 A.4.2). -/
def maxDpb (level px : Nat) : Nat :=
  match levelTable.lookup level with
  | some l =>
    let m := l.headD 0
    if 4 * px ≤ m then 16 else if 2 * px ≤ m then 12 else if 4 * px ≤ 3 * m then 8 else 6
  | none => 6

/-- The chroma formats and bit depths of a profile (R270): CHROMA and BITS codes. -/
def profileOk (p chroma bits : Nat) : Bool :=
  match p % 4 with
  | 0 => chroma == 0 && bits == 0
  | 1 => chroma == 0 && decide (bits ≤ 1)
  | 2 => decide (chroma ≤ 1) && decide (bits ≤ 1)
  | _ => decide (chroma ≤ 2) && decide (bits ≤ 2)

/-- The nine constraint flags of the range extensions profile as PROFILE 2 to 7 set them (Table A.2); `lower` is
general_lower_bit_rate_constraint_flag. [PRESUMED, log 16] -/
def rextFlags (p : Nat) (lower : Bool) : Nat :=
  let base := match p with
    | 2 => 0b110100000
    | 4 => 0b111110100
    | 5 => 0b110110100
    | 6 => 0b110100100
    | 7 => 0b100000100
    | _ => 0b100000000
  base + b2n lower

/-- Whether the profile of an SPS is among those of R270: Main, Main 10, or one of the range extensions profiles by its
constraint flags, with the format and depth that it permits. [PRESUMED, log 16] -/
def spsProfileOk (s : Sps) : Bool :=
  let fmt := fun (p : Nat) =>
    decide (1 ≤ s.chroma ∧ s.chroma ≤ 3) && s.bits % 2 == 0 && decide (8 ≤ s.bits) && profileOk p (s.chroma - 1) ((s.bits - 8) / 2)
  match s.profile with
  | 1 => fmt 0
  | 2 => fmt 1
  | 4 => [2, 3, 4, 5, 6, 7].any fun p => s.flags / 2 == rextFlags p false / 2 && fmt p
  | _ => false

end Sys2Proof.Machine
end

