-- ==== Sys2Proof/Machine/HevcOut.lean ====
section
/-! DEFINITION. The HEVC syntax that the encoder writes: parameter sets, SEI messages, the access unit delimiter and slices
(R270, R271, R284 to R287, R290); from ITU-T H.265 where spec/ names it (PRESUMED). Where the standard leaves the encoder a
choice that spec/ does not make, the choice is a free value. -/

namespace Sys2Proof.Machine

/-- u(n). -/
abbrev wU (n v : Nat) : List Bool := msb n v
/-- ue(v). -/
def wUe (v : Nat) : List Bool := let n := Nat.log2 (v + 1); List.replicate n false ++ msb (n + 1) (v + 1)
/-- se(v). -/
def wSe (v : Int) : List Bool := wUe (if 0 < v then 2 * v.toNat - 1 else 2 * (-v).toNat)
/-- A flag. -/
def wF (b : Bool) : List Bool := [b]
/-- The trailing bits of an RBSP, to whole bytes. -/
def wTrail (l : List Bool) : List Byte :=
  let n := l.length + 1
  bytesMsb (l ++ [true] ++ List.replicate ((8 - n % 8) % 8) false)

/-- What the written syntax depends on of a stream's settings. -/
structure EncSyntax where
  stream : Nat
  profile : Nat
  high : Bool
  level : Nat
  chroma : Nat
  bits : Nat
  w : Nat
  h : Nat
  refs : Nat
  maxBps : Nat
  cpb : Nat
  /-- primaries, transfer, matrix, range, time scale, units in tick (R284). -/
  vui : List Nat
deriving DecidableEq, Repr, Inhabited

/-- A choice of the encoder, from `lo` to `lo` + `n` − 1. [DESIGN CHOICE, log 40] -/
def encChoice (x : EncSyntax) (k lo n : Nat) : Nat := lo + Config.encChoice x.stream k % max 1 n

/-- log2_max_pic_order_cnt_lsb: wide enough for every POC below INTRA_PERIOD (R285). -/
def pocLsbBits (x : EncSyntax) : Nat := encChoice x 0 10 7

/-- general_profile_idc of PROFILE (R270). -/
def profileIdc (p : Nat) : Nat := if p = 0 then 1 else if p = 1 then 2 else 4

/-- general_lower_bit_rate_constraint_flag: 0 for an Intra profile whenever MAX_BPS exceeds the limit that applies with 1
(R270). -/
def lowerRateFlag (x : EncSyntax) : Bool := decide (x.profile < 4) || decide (x.maxBps ≤ maxBr x.level x.profile x.high true)

/-- profile_tier_level (R270, 7.3.3). [PRESUMED, log 16] -/
def wProfile (x : EncSyntax) : List Bool :=
  let idc := profileIdc x.profile
  wU 2 0 ++ wF x.high ++ wU 5 idc ++ (List.range 32).map (fun j => j == idc || (idc == 1 && j == 2)) ++
    wU 4 0b1011 ++ (if idc = 4 then wU 9 (rextFlags x.profile (lowerRateFlag x)) else wU 9 0) ++ wU 34 0 ++ wU 1 0 ++ wU 8 x.level

/-- Sub-layer ordering information: one reference, or two, and no reordering (R271, R285). -/
def wOrdering (x : EncSyntax) : List Bool := wF true ++ wUe x.refs ++ wUe 0 ++ wUe 0

/-- The VPS (7.3.2.1). [PRESUMED, log 16] -/
def wVps (x : EncSyntax) : List Byte :=
  mkNal 32 (wTrail (wU 4 0 ++ wU 2 3 ++ wU 6 0 ++ wU 3 0 ++ wF true ++ wU 16 0xFFFF ++ wProfile x ++ wOrdering x ++ wU 6 0 ++
    wUe 0 ++ wU 2 0))

/-- Lengths of the HRD's delay fields in bits. -/
def hrdBits : Nat := 32

/-- The HRD of R290 (E.2.2): bit rate and buffer size in units of 64 and 16 bits, VBR. [PRESUMED, log 16] -/
def wHrd (x : EncSyntax) : List Bool :=
  wU 3 0b100 ++ wU 4 0 ++ wU 4 0 ++ wU 5 (hrdBits - 1) ++ wU 5 (hrdBits - 1) ++ wU 5 (hrdBits - 1) ++
    wU 3 0 ++ wUe 0 ++ wUe (ceilDiv x.maxBps 64 - 1) ++ wUe (ceilDiv x.cpb 16 - 1) ++ wF false

/-- The VUI of R284 with its timing and HRD (E.2.1). [PRESUMED, log 16] -/
def wVui (x : EncSyntax) : List Bool :=
  let v := fun (i : Nat) => x.vui.getD i 0
  wU 2 0 ++ wF true ++ wU 3 5 ++ wU 1 (v 3) ++ wF true ++ wU 8 (v 0) ++ wU 8 (v 1) ++ wU 8 (v 2) ++ wU 5 0 ++
    wF true ++ wU 32 (v 5) ++ wU 32 (v 4) ++ wF false ++ wF true ++ wHrd x ++ wF false

/-- The SPS: CTB 64, CU 8 to 64, TU 4 to 32, SAO, TMVP, strong intra smoothing, no PCM or scaling lists (R271). [PRESUMED, log 16] -/
def wSps (x : EncSyntax) : List Byte :=
  mkNal 33 (wTrail (wU 4 0 ++ wU 3 0 ++ wF true ++ wProfile x ++ wUe 0 ++ wUe (x.chroma + 1) ++
    (if x.chroma = 2 then wF false else []) ++ wUe x.w ++ wUe x.h ++ wF false ++ wUe (x.bits - 8) ++ wUe (x.bits - 8) ++
    wUe (pocLsbBits x - 4) ++ wOrdering x ++ wUe 0 ++ wUe 3 ++ wUe 0 ++ wUe 3 ++ wUe (encChoice x 1 0 5) ++
    wUe (encChoice x 2 0 5) ++ wF false ++ wU 1 (encChoice x 3 0 2) ++ wF true ++ wF false ++ wUe 0 ++ wF false ++ wF true ++
    wF true ++ wF true ++ wVui x ++ wF false))

/-- The PPS: sign data hiding, transform skip, a QP per CU, no weighted prediction, tiles or wavefront, filtering across slice
boundaries (R271, R297). [PRESUMED, log 16] -/
def wPps : List Byte :=
  mkNal 34 (wTrail (wUe 0 ++ wUe 0 ++ wU 2 0 ++ wU 3 0 ++ wF true ++ wF false ++ wUe 0 ++ wUe 0 ++ wSe 0 ++ wF false ++ wF true ++
    wF true ++ wUe 0 ++ wSe 0 ++ wSe 0 ++ wF false ++ wU 2 0 ++ wF false ++ wU 2 0 ++ wF true ++ wF false ++ wF false ++
    wF false ++ wUe 0 ++ wF false ++ wF false))

/-- The access unit delimiter: I, or P and I slices. -/
def wAud (idr : Bool) : List Byte := mkNal 35 (wTrail (wU 3 (if idr then 0 else 1)))

/-- A prefix SEI NAL unit of messages. -/
def wSei (typ : Nat) (msgs : List Byte) : List Byte := mkNal typ (msgs ++ [0x80])

/-- The buffering period message: the initial removal delay CPB_BITS / MAX_BPS in 90 kHz units (R290, D.2.2); `delta` counts
ticks since the picture before. [PRESUMED, log 16] -/
def wBuffering (x : EncSyntax) (delta : Nat) : List Byte :=
  seiMsg 0 (wTrail (wUe 0 ++ wF false ++ wF false ++ wU hrdBits (delta - 1) ++ wU hrdBits (x.cpb * 90000 / max 1 x.maxBps) ++
    wU hrdBits 0))

/-- The picture timing message: `ticks` picture periods since the last buffering period (R286, D.2.3). [PRESUMED, log 16] -/
def wTiming (ticks : Nat) : List Byte := seiMsg 1 (beBytes 4 (ticks - 1) ++ beBytes 4 0)

/-- The NAL units before the slices (R286): delimiter, at an IDR the parameter sets and the buffering period, and the prefix SEI
with the picture timing and the frame-header message of R287. -/
def prefixNals (x : EncSyntax) (idr : Bool) (ticks delta : Nat) (h : FrameHeader) : List Byte :=
  wAud idr ++ (if idr then wVps x ++ wSps x ++ wPps ++ wSei 39 (wBuffering x delta) else []) ++
    wSei 39 (wTiming ticks ++ vangisMsg 1 (headerBytes h))

/-- nal_unit_type of a slice (R285): TRAIL_R, or an IDR's. -/
def sliceNal (x : EncSyntax) (idr : Bool) : Nat := if idr then encChoice x 4 19 2 else 1

/-- A slice segment header of slice at CTU `addr` (7.3.6.1), to whole bytes: its reference pictures are the previous `refs`
coded pictures (R285). [PRESUMED, log 16] -/
def wSliceHeader (x : EncSyntax) (idr : Bool) (addr ctus poc refs qp : Nat) : List Bool :=
  let l := wF (addr == 0) ++ (if idr then wF false else []) ++ wUe 0 ++ (if addr = 0 then [] else wU (clog2 ctus) addr) ++
    wUe (if idr then 2 else 1) ++
    (if idr then [] else wU (pocLsbBits x) poc ++ wF false ++ wUe refs ++ wUe 0 ++
      (List.range refs).flatMap (fun _ => wUe 0 ++ wF true) ++ wF true) ++
    wF true ++ wF true ++
    (if idr then [] else (if refs = 1 then wF false else wF true ++ wUe (refs - 1)) ++ (if 1 < refs then wUe 0 else []) ++
      wUe (encChoice x 5 0 5)) ++
    wSe ((qp : Int) - 26) ++ wF true ++ wF true
  l ++ List.replicate ((8 - l.length % 8) % 8) false

/-- The report of R287 in its suffix SEI. -/
def reportNal (w0 cost : Nat) : List Byte := wSei 40 (vangisMsg 2 (leBytes 4 w0 ++ leBytes 4 cost))

end Sys2Proof.Machine
end

