-- ==== Sys2Proof/Machine/Crypto.lean ====
section
/-! DEFINITION. The algorithms spec/ names by standard: SHA-256 (FIPS 180-4), HMAC and HKDF (RFC 2104, 5869), ECDSA and
ECDH on P-256 (FIPS 186-4, SEC 1) and AES-256-GCM (FIPS 197, SP 800-38D), written out over numbers. -/

namespace Sys2Proof.Machine

/-! ### SHA-256 -/

/-- Rotation of a 32-bit value to the right. -/
def rotr32 (n x : Nat) : Nat := x / 2 ^ n + x % 2 ^ n * 2 ^ (32 - n)

/-- The 64 round constants. -/
def sha256K : List Nat :=
  [0x428a2f98, 0x71374491, 0xb5c0fbcf, 0xe9b5dba5, 0x3956c25b, 0x59f111f1, 0x923f82a4, 0xab1c5ed5,
   0xd807aa98, 0x12835b01, 0x243185be, 0x550c7dc3, 0x72be5d74, 0x80deb1fe, 0x9bdc06a7, 0xc19bf174] ++
  [0xe49b69c1, 0xefbe4786, 0x0fc19dc6, 0x240ca1cc, 0x2de92c6f, 0x4a7484aa, 0x5cb0a9dc, 0x76f988da,
   0x983e5152, 0xa831c66d, 0xb00327c8, 0xbf597fc7, 0xc6e00bf3, 0xd5a79147, 0x06ca6351, 0x14292967] ++
  [0x27b70a85, 0x2e1b2138, 0x4d2c6dfc, 0x53380d13, 0x650a7354, 0x766a0abb, 0x81c2c92e, 0x92722c85,
   0xa2bfe8a1, 0xa81a664b, 0xc24b8b70, 0xc76c51a3, 0xd192e819, 0xd6990624, 0xf40e3585, 0x106aa070] ++
  [0x19a4c116, 0x1e376c08, 0x2748774c, 0x34b0bcb5, 0x391c0cb3, 0x4ed8aa4a, 0x5b9cca4f, 0x682e6ff3,
   0x748f82ee, 0x78a5636f, 0x84c87814, 0x8cc70208, 0x90befffa, 0xa4506ceb, 0xbef9a3f7, 0xc67178f2]

/-- The message schedule, newest word first, extended by `n` words. -/
def shaSchedule : Nat → List Nat → List Nat
  | 0, w => w
  | n + 1, w =>
    let a := w.getD 14 0
    let b := w.getD 1 0
    let s0 := rotr32 7 a ^^^ rotr32 18 a ^^^ (a / 2 ^ 3)
    let s1 := rotr32 17 b ^^^ rotr32 19 b ^^^ (b / 2 ^ 10)
    shaSchedule n ((s1 + w.getD 6 0 + s0 + w.getD 15 0) % 2 ^ 32 :: w)

/-- The working variables a to h of a compression. -/
structure ShaVars where
  a : Nat
  b : Nat
  c : Nat
  d : Nat
  e : Nat
  f : Nat
  g : Nat
  h : Nat
deriving DecidableEq, Repr

/-- One round. -/
def shaRound (v : ShaVars) (kw : Nat × Nat) : ShaVars :=
  let s1 := rotr32 6 v.e ^^^ rotr32 11 v.e ^^^ rotr32 25 v.e
  let ch := (v.e &&& v.f) ^^^ ((v.e ^^^ 0xFFFFFFFF) &&& v.g)
  let t1 := v.h + s1 + ch + kw.1 + kw.2
  let s0 := rotr32 2 v.a ^^^ rotr32 13 v.a ^^^ rotr32 22 v.a
  let maj := (v.a &&& v.b) ^^^ (v.a &&& v.c) ^^^ (v.b &&& v.c)
  ⟨(t1 + s0 + maj) % 2 ^ 32, v.a, v.b, v.c, (v.d + t1) % 2 ^ 32, v.e, v.f, v.g⟩

/-- Four big-endian bytes at a time as words. -/
def beWords : List Byte → List Nat
  | a :: b :: c :: d :: r => (((a.toNat * 256 + b.toNat) * 256 + c.toNat) * 256 + d.toNat) :: beWords r
  | _ => []

/-- The compression of one 64-byte block. -/
def shaBlock (v : ShaVars) (block : List Byte) : ShaVars :=
  let w := (shaSchedule 48 (beWords block).reverse).reverse
  let x := (sha256K.zip w).foldl shaRound v
  ⟨(v.a + x.a) % 2 ^ 32, (v.b + x.b) % 2 ^ 32, (v.c + x.c) % 2 ^ 32, (v.d + x.d) % 2 ^ 32,
   (v.e + x.e) % 2 ^ 32, (v.f + x.f) % 2 ^ 32, (v.g + x.g) % 2 ^ 32, (v.h + x.h) % 2 ^ 32⟩

/-- The blocks of a padded message, `n` of them. -/
def shaBlocks : Nat → List Byte → ShaVars → ShaVars
  | 0, _, v => v
  | n + 1, l, v => shaBlocks n (l.drop 64) (shaBlock v (l.take 64))

/-- SHA-256 of a byte string. -/
def sha256 (l : List Byte) : List Byte :=
  let n := l.length
  let z := (119 - n % 64) % 64
  let m := l ++ [0x80] ++ List.replicate z 0 ++ beBytes 8 (n * 8)
  let v := shaBlocks (m.length / 64) m
    ⟨0x6a09e667, 0xbb67ae85, 0x3c6ef372, 0xa54ff53a, 0x510e527f, 0x9b05688c, 0x1f83d9ab, 0x5be0cd19⟩
  [v.a, v.b, v.c, v.d, v.e, v.f, v.g, v.h].flatMap (beBytes 4)

/-- HMAC-SHA-256. -/
def hmacSha256 (key msg : List Byte) : List Byte :=
  let k := padTo 64 (if 64 < key.length then sha256 key else key)
  sha256 (k.map (· ^^^ 0x5c) ++ sha256 (k.map (· ^^^ 0x36) ++ msg))

/-- HKDF-SHA-256 with an output of 32 bytes (RFC 5869). -/
def hkdf32 (ikm salt info : List Byte) : List Byte := hmacSha256 (hmacSha256 salt ikm) (info ++ [1])

/-! ### P-256 -/

/-- The field prime. -/
def p256P : Nat := 0xffffffff00000001000000000000000000000000ffffffffffffffffffffffff

/-- The group order. -/
def p256N : Nat := 0xffffffff00000000ffffffffffffffffbce6faada7179e84f3b9cac2fc632551

/-- The curve coefficient b. -/
def p256B : Nat := 0x5ac635d8aa3a93e7b3ebbd55769886bc651d06b0cc53b0f63bce3c3e27d2604b

/-- The base point. -/
def p256G : Nat × Nat :=
  (0x6b17d1f2e12c4247f8bce6e563a440f277037d812deb33a0f4a13945d898c296,
   0x4fe342e2fe1a7f9b8ee7eb4a7c0f9e162bce33576b315ececbb6406837bf51f5)

/-- Power modulo m over the low `k` bits of the exponent. -/
def powMod : Nat → Nat → Nat → Nat → Nat
  | 0, _, _, m => 1 % m
  | k + 1, b, e, m =>
    let h := powMod k (b * b % m) (e / 2) m
    if e % 2 = 1 then b * h % m else h

/-- Inverse modulo a prime. -/
def invMod (a m : Nat) : Nat := powMod 256 (a % m) (m - 2) m

/-- Subtraction in the field. -/
def fsub (a b : Nat) : Nat := (a + p256P - b % p256P) % p256P

/-- Point doubling in Jacobian coordinates; z = 0 is the point at infinity. -/
def jDouble (q : Nat × Nat × Nat) : Nat × Nat × Nat :=
  let (x, y, z) := q
  let d := z * z % p256P
  let a := 3 * (fsub x d) * ((x + d) % p256P) % p256P
  let yy := y * y % p256P
  let s := 4 * x * yy % p256P
  let x' := fsub (a * a % p256P) (2 * s)
  (x', fsub (a * (fsub s x') % p256P) (8 * yy * yy), 2 * y * z % p256P)

/-- Point addition in Jacobian coordinates. -/
def jAdd (q r : Nat × Nat × Nat) : Nat × Nat × Nat :=
  let (x1, y1, z1) := q
  let (x2, y2, z2) := r
  if z1 = 0 then r else if z2 = 0 then q else
  let z1z := z1 * z1 % p256P
  let z2z := z2 * z2 % p256P
  let u1 := x1 * z2z % p256P
  let u2 := x2 * z1z % p256P
  let s1 := y1 * z2 * z2z % p256P
  let s2 := y2 * z1 * z1z % p256P
  if u1 = u2 then (if s1 = s2 then jDouble q else (1, 1, 0)) else
  let h := fsub u2 u1
  let hh := h * h % p256P
  let hhh := h * hh % p256P
  let t := fsub s2 s1
  let v := u1 * hh % p256P
  let x3 := fsub (fsub (t * t % p256P) hhh) (2 * v)
  (x3, fsub (t * (fsub v x3) % p256P) (s1 * hhh), h * z1 * z2 % p256P)

/-- Scalar multiple over `k` bits of the scalar, most significant first. -/
def jMul : Nat → Nat → Nat × Nat × Nat → Nat × Nat × Nat
  | 0, _, _ => (1, 1, 0)
  | k + 1, e, q =>
    let r := jDouble (jMul k (e / 2) q)
    if e % 2 = 1 then jAdd r q else r

/-- The affine point of Jacobian coordinates. -/
def jAffine (q : Nat × Nat × Nat) : Nat × Nat :=
  let (x, y, z) := q
  let i := invMod z p256P
  let ii := i * i % p256P
  (x * ii % p256P, y * ii * i % p256P)

/-- Whether a point lies on the curve (R738, R752). -/
def onCurve (x y : Nat) : Bool :=
  decide (x < p256P) && decide (y < p256P) && decide (y * y % p256P = (x * x * x + (p256P - 3) * x + p256B) % p256P)

/-- The point of a 64-byte public key, X then Y, each most significant byte first. -/
def keyPoint (k : List Byte) : Nat × Nat := (beVal (slice k 0 32), beVal (slice k 32 32))

/-- The 64-byte public key of a private key. -/
def publicKey (d : Nat) : List Byte :=
  let q := jAffine (jMul 256 d (p256G.1, p256G.2, 1))
  beBytes 32 q.1 ++ beBytes 32 q.2

/-- ECDSA P-256 verification with SHA-256: key X then Y, signature r then s, each most significant byte first. -/
def ecdsaVerify (key msg sig : List Byte) : Bool :=
  let q := keyPoint key
  let r := beVal (slice sig 0 32)
  let s := beVal (slice sig 32 32)
  if onCurve q.1 q.2 ∧ 0 < r ∧ r < p256N ∧ 0 < s ∧ s < p256N then
    let e := beVal (sha256 msg)
    let w := invMod s p256N
    let pt := jAdd (jMul 256 (e * w % p256N) (p256G.1, p256G.2, 1)) (jMul 256 (r * w % p256N) (q.1, q.2, 1))
    pt.2.2 % p256P != 0 && (jAffine pt).1 % p256N == r
  else false

/-- ECDSA P-256 signature of a message under private key `d` with per-signature secret `k`. -/
def ecdsaSign (d k : Nat) (msg : List Byte) : List Byte :=
  let r := (jAffine (jMul 256 k (p256G.1, p256G.2, 1))).1 % p256N
  let s := invMod k p256N * (beVal (sha256 msg) + r * d) % p256N
  beBytes 32 r ++ beBytes 32 s

/-- ECDH: the x-coordinate of the product (R749). -/
def ecdhX (d : Nat) (key : List Byte) : List Byte :=
  let q := keyPoint key
  beBytes 32 (jAffine (jMul 256 d (q.1, q.2, 1))).1

/-! ### AES-256-GCM -/

/-- Multiplication by x in GF(2^8). -/
def xtime (a : Nat) : Nat := if a < 128 then 2 * a else (2 * a - 256) ^^^ 0x1b

/-- Product in GF(2^8) over `n` bits of b. -/
def gmul8 : Nat → Nat → Nat → Nat
  | 0, _, _ => 0
  | n + 1, a, b => (if b % 2 = 1 then a else 0) ^^^ gmul8 n (xtime a) (b / 2)

/-- a^(2^n - 1) ... the inverse a^254 in GF(2^8). -/
def ginv8 (a : Nat) : Nat :=
  let sq := fun x => gmul8 8 x x
  let a2 := sq a
  let a4 := sq a2
  let a8 := sq a4
  let a16 := sq a8
  let a32 := sq a16
  let a64 := sq a32
  gmul8 8 (gmul8 8 (gmul8 8 a2 a4) (gmul8 8 a8 a16)) (gmul8 8 (gmul8 8 a32 a64) (sq a64))

/-- Rotation of a byte to the left. -/
def rotl8 (n x : Nat) : Nat := (x * 2 ^ n + x / 2 ^ (8 - n)) % 256

/-- The AES S-box. -/
def aesSbox (a : Nat) : Nat :=
  let b := ginv8 a
  b ^^^ rotl8 1 b ^^^ rotl8 2 b ^^^ rotl8 3 b ^^^ rotl8 4 b ^^^ 0x63

/-- A four-byte word through the S-box. -/
def aesSub (w : List Nat) : List Nat := w.map aesSbox

/-- Byte-wise exclusive or. -/
def xorL (a b : List Nat) : List Nat := (a.zip b).map fun p => p.1 ^^^ p.2

/-- AES-256 key expansion: words newest first, `n` more of them, `i` the next index. -/
def aesExpand : Nat → Nat → Nat → List (List Nat) → List (List Nat)
  | 0, _, _, w => w
  | n + 1, i, rcon, w =>
    let t := w.getD 0 []
    let u := w.getD 7 []
    if i % 8 = 0 then
      let r := aesSub (t.drop 1 ++ t.take 1)
      let r := xorL r [rcon, 0, 0, 0]
      aesExpand n (i + 1) (xtime rcon) (xorL u r :: w)
    else if i % 8 = 4 then aesExpand n (i + 1) rcon (xorL u (aesSub t) :: w)
    else aesExpand n (i + 1) rcon (xorL u t :: w)

/-- Groups of four. -/
def quads : List Nat → List (List Nat)
  | a :: b :: c :: d :: r => [a, b, c, d] :: quads r
  | _ => []

/-- The 60 round key words of a 32-byte key. -/
def aesKeys (key : List Byte) : List (List Nat) :=
  (aesExpand 52 8 1 (quads (key.map (·.toNat))).reverse).reverse

/-- Round key `r` as 16 bytes. -/
def roundKey (ks : List (List Nat)) (r : Nat) : List Nat := ((ks.drop (4 * r)).take 4).flatten

/-- ShiftRows on a state held column by column. -/
def shiftRows (s : List Nat) : List Nat :=
  [0, 5, 10, 15, 4, 9, 14, 3, 8, 13, 2, 7, 12, 1, 6, 11].map fun i => s.getD i 0

/-- MixColumns on one column. -/
def mixCol (c : List Nat) : List Nat :=
  match c with
  | [a, b, c, d] => [xtime a ^^^ xtime b ^^^ b ^^^ c ^^^ d, a ^^^ xtime b ^^^ xtime c ^^^ c ^^^ d,
                     a ^^^ b ^^^ xtime c ^^^ xtime d ^^^ d, xtime a ^^^ a ^^^ b ^^^ c ^^^ xtime d]
  | _ => []

/-- Rounds 1 to 13, `n` of them left. -/
def aesRounds (ks : List (List Nat)) : Nat → List Nat → List Nat
  | 0, s => s
  | n + 1, s => aesRounds ks n (xorL ((quads (shiftRows (aesSub s))).flatMap mixCol) (roundKey ks (13 - n)))

/-- AES-256 of one 16-byte block. -/
def aesBlock (ks : List (List Nat)) (b : List Nat) : List Nat :=
  xorL (shiftRows (aesSub (aesRounds ks 13 (xorL b (roundKey ks 0))))) (roundKey ks 14)

/-- Product in GF(2^128) of GCM over `n` bits of y, the most significant bit first. -/
def gmul128 : Nat → Nat → Nat → Nat → Nat
  | 0, _, _, z => z
  | n + 1, v, y, z =>
    gmul128 n (if v % 2 = 1 then (v / 2) ^^^ (0xe1 * 2 ^ 120) else v / 2) y (if y / 2 ^ n % 2 = 1 then z ^^^ v else z)

/-- GHASH over `n` 16-byte blocks. -/
def ghash (h : Nat) : Nat → List Byte → Nat → Nat
  | 0, _, y => y
  | n + 1, l, y => ghash h n (l.drop 16) (gmul128 128 h (y ^^^ beVal (slice l 0 16)) 0)

/-- Pads with zeros to a multiple of 16. -/
def pad16 (l : List Byte) : List Byte := l ++ List.replicate ((16 - l.length % 16) % 16) 0

/-- The counter-mode key stream applied to a byte string, `n` blocks. -/
def gctr (ks : List (List Nat)) (iv : Nat) : Nat → Nat → List Byte → List Byte
  | 0, _, _ => []
  | n + 1, c, l =>
    let k := aesBlock ks ((beBytes 16 (iv * 2 ^ 32 + c % 2 ^ 32)).map (·.toNat))
    ((l.take 16).zip k).map (fun p => p.1 ^^^ BitVec.ofNat 8 p.2) ++ gctr ks iv n (c + 1) (l.drop 16)

/-- AES-256-GCM with a 12-byte IV: ciphertext and 16-byte tag (R748, R749). -/
def aesGcm (key iv aad pt : List Byte) : List Byte × List Byte :=
  let ks := aesKeys key
  let h := beVal ((aesBlock ks (List.replicate 16 0)).map (BitVec.ofNat 8))
  let ivn := beVal iv
  let ct := gctr ks ivn (ceilDiv pt.length 16) 2 pt
  let m := pad16 aad ++ pad16 ct ++ beBytes 8 (aad.length * 8) ++ beBytes 8 (ct.length * 8)
  let g := ghash h (m.length / 16) m 0
  (ct, (((beBytes 16 g).map (·.toNat)).zip (aesBlock ks ((beBytes 16 (ivn * 2 ^ 32 + 1)).map (·.toNat)))).map
    fun p => BitVec.ofNat 8 (p.1 ^^^ p.2))

/-- AES-256-GCM decryption of a ciphertext, the tag checked: none when it differs. -/
def aesGcmOpen (key iv aad ct tag : List Byte) : Option (List Byte) :=
  let ks := aesKeys key
  let pt := gctr ks (beVal iv) (ceilDiv ct.length 16) 2 ct
  if (aesGcm key iv aad pt).2 = tag then some pt else none

end Sys2Proof.Machine
end

