-- ==== Sys2Proof/Machine/Mailbox.lean ====
section
/-! DEFINITION. The mailbox engine: queues, the header word, the order of checks of R809, replies and refusals, token
sequences, nonces and the bulk window (chapter 20). -/

namespace Sys2Proof.Machine

/-- A request as its receiver takes it. -/
structure Req where
  chan : Nat
  path : Path
  words : List Word
deriving DecidableEq, Repr

/-- Word `k` of a request as a number; 0 beyond its words. -/
def Req.w (r : Req) (k : Nat) : Nat := (r.words.getD k 0).toNat

/-- CODE of a header word (R677). -/
def hdrCode (w : Nat) : Nat := bits w 31 16
/-- COUNT of a header word (R677). -/
def hdrCount (w : Nat) : Nat := bits w 15 12
/-- REPLY of a header word (R677). -/
def hdrReply (w : Nat) : Bool := bits w 11 11 == 1
/-- PRIV of a header word (R677). -/
def hdrPriv (w : Nat) : Bool := bits w 10 10 == 1
/-- ERROR of a header word (R677). -/
def hdrError (w : Nat) : Bool := bits w 9 9 == 1
/-- MORE of a header word (R677). -/
def hdrMore (w : Nat) : Bool := bits w 8 8 == 1
/-- TAG of a header word (R677). -/
def hdrTag (w : Nat) : Nat := bits w 7 0

/-- The message code of a request. -/
def Req.code (r : Req) : Nat := hdrCode (r.w 0)

/-- What a receiver answers: an acceptance with reply words from word 1, or a refusal with its class, the error code it
logs (0: none) and its detail (R679). -/
inductive Answer where
  | accept (ws : List Nat)
  | refuse (cls err detail : Nat)
deriving DecidableEq, Repr

/-- Whether a message may carry a token (R695). -/
inductive PrivRule where
  | never
  | must
  | may
deriving DecidableEq, Repr

/-- A message of the index of R696: the word counts it takes, the bits its words 1, 2, ... may set, its privilege, the
block it addresses, the checks of R809 its chapter adds, and its effect. [DEDUCED, log 104] -/
structure MsgDef where
  count : Nat → Bool := fun n => n == 1
  masks : List Nat := []
  priv : PrivRule := .never
  /-- R739: a request that needs no token. -/
  privFree : Req → State → Bool := fun _ _ => false
  blk : Blk := .always
  /-- a status message, answered while suspended although its block is off (R785). -/
  status : Bool := false
  /-- accepted in the configuration-error and safe states (R667). -/
  always : Bool := false
  /-- answered at all (R678). -/
  answered : Bool := true
  /-- class 1 beyond the message code: a page ID with a reserved high byte (R15). -/
  unknown : Req → State → Bool := fun _ _ => false
  /-- class 2 beyond COUNT and reserved bits. -/
  bad : Req → State → Bool := fun _ _ => false
  /-- a class 2 refusal that its chapter logs: code and instance (R128). -/
  badLog : Req → State → Option (Nat × Nat) := fun _ _ => none
  /-- class 3 beyond role, fuse and state. -/
  deny : Req → State → Bool := fun _ _ => false
  /-- field permission, busy, admission and the chapter's rules, then the effect; the flag tells whether a token
  verified. -/
  act : Req → Bool → State → Answer × State

/-! ### Bulk window -/

/-- The view of a path that can hold the bulk window (R689). -/
def pathView : Path → Option View
  | .regs v => some v
  | _ => none

/-- Whether a path holds the bulk window (R690). -/
def holdsBulk (p : Path) (s : State) : Bool := s.mbx.holder.isSome && s.mbx.holder == pathView p

/-- The byte of the bulk window at an offset: what was written in it, else an undefined value (R690). -/
def bulkByte (s : State) (off : Nat) : Byte := (s.mbx.bulk.lookup off).getD (Config.bulkByte s.mbx.claims off)

/-- `n` bytes of the bulk window. [DESIGN CHOICE, log 86] -/
def readBulk (off n : Nat) (s : State) : List Byte := (List.range n).map fun i => bulkByte s (off + i)

/-- Stores bytes in the bulk window; bytes beyond its 1 MiB are not stored. [DESIGN CHOICE, log 86] -/
def writeBulk (off : Nat) (l : List Byte) (s : State) : State :=
  { s with mbx := { s.mbx with bulk := setCells off (l.take (0x100000 - off)) s.mbx.bulk } }

/-! ### Replies -/

/-- Applies `f` to a channel. -/
def modChan (c : Nat) (f : Chan → Chan) (s : State) : State :=
  { s with mbx := { s.mbx with chans := modAt s.mbx.chans c f } }

/-- The registers of a channel in a view. -/
def viewRegs (v : View) (c : Nat) (s : State) : ViewRegs :=
  match v with
  | .pcie => s.mbx.pcie.getD c {}
  | .spi => s.mbx.spi.getD c {}

/-- Applies `f` to a channel's registers in a view. -/
def modView (v : View) (c : Nat) (f : ViewRegs → ViewRegs) (s : State) : State :=
  match v with
  | .pcie => { s with mbx := { s.mbx with pcie := modAt s.mbx.pcie c f } }
  | .spi => { s with mbx := { s.mbx with spi := modAt s.mbx.spi c f } }

/-- The words a queue holds. -/
def queueWords (q : List (List Word)) : Nat := (q.map List.length).sum

/-- Places a reply in an outbound queue of 8 words, or holds it (R681, R682). -/
def placeReply (ws : List Word) (r : ViewRegs) : ViewRegs :=
  if r.waiting.isEmpty && decide (queueWords r.outq + ws.length ≤ 8) then { r with outq := r.outq ++ [ws] }
  else { r with waiting := r.waiting ++ [ws] }

/-- Moves held replies into the outbound queue while they fit, at most `n` of them (R682). -/
def placeHeld : Nat → ViewRegs → ViewRegs
  | 0, r => r
  | n + 1, r =>
    match r.waiting with
    | [] => r
    | w :: ws =>
      if queueWords r.outq + w.length ≤ 8 then placeHeld n { r with outq := r.outq ++ [w], waiting := ws } else r

/-- A reply goes back to the path its request came by (R678, R681): to a forwarding body as a control message (R21, R440);
an array datagram is not answered (R510). -/
def deliver (p : Path) (c : Nat) (ws : List Word) (s : State) : State :=
  match p with
  | .regs v =>
    let t := modView v c (placeReply ws) s
    if v == .pcie && (viewRegs v c s).irqEn && (viewRegs v c t).outq.length != (viewRegs v c s).outq.length then
      { t with ep := { t.ep with msix := modAt t.ep.msix 17 (· + 1) } } else t
  | .array => s
  | .fwd g => { s with links := modAt s.links g fun x => { x with ctrlQ := x.ctrlQ ++ [⟨3, (ws ++ List.replicate 8 0).take 8⟩] } }
  | _ => { s with mbx := { s.mbx with sent := s.mbx.sent ++ [(p, ws)] } }

/-- The header of a reply to a request (R678). -/
def replyHeader (w count : Nat) (err : Bool) : Nat :=
  hdrCode w * 2 ^ 16 + count * 2 ^ 12 + 2 ^ 11 + (if err then 2 ^ 9 else 0) + hdrTag w

/-- The words of a reply (R678, R679). -/
def replyWords (w : Nat) : Answer → List Word
  | .accept ws => (replyHeader w (ws.length + 1) false :: ws).map (BitVec.ofNat 32)
  | .refuse cls err detail => [replyHeader w 3 true, cls * 2 ^ 24 + err, detail].map (BitVec.ofNat 32)

/-- Counts a handled message and its refusal, logs 0x1403 for a class 4 refusal (R695, R697). -/
def countAnswer (c : Nat) (a : Answer) (s : State) : State :=
  match a with
  | .accept _ => modChan c (fun ch => { ch with handled := wrapInc 32 ch.handled }) s
  | .refuse cls _ _ =>
    let t := modChan c (fun ch => { ch with
      handled := wrapInc 32 ch.handled, refusals := wrapInc 32 ch.refusals,
      tokensRefused := if cls = 4 then wrapInc 32 ch.tokensRefused else ch.tokensRefused }) s
    if cls = 4 then raise 0 0x1403 noInst [] t else t

/-- Answers a request: the counts of R697 and the reply of R678. -/
def answer (d : Option MsgDef) (r : Req) (a : Answer) (s : State) : State :=
  let t := countAnswer r.chan a s
  if (d.map (·.answered)).getD true then deliver r.path r.chan (replyWords (r.w 0) a) t else t

/-- A refusal of class 4, which logs 0x1403 (R695). [DEDUCED, log 104] -/
def refuse4 : Answer := .refuse 4 0x1403 0

/-! ### The order of checks of R809 -/

/-- Class 1: whether a channel's receiver takes a code (R527, R674). -/
def routed (c code : Nat) : Bool :=
  if c = 14 then code / 256 == 0x0F && code != 0x0F08
  else if c = 15 then code == 0x0F08
  else code / 256 != 0x0F

/-- Whether a request sets a bit that its message reserves. -/
def reservedSet : List Nat → List Word → Bool
  | m :: ms, w :: ws => decide (w.toNat &&& m ≠ w.toNat) || reservedSet ms ws
  | _, _ => false

/-- Class 2 (R677, R679, R695). [DEDUCED, log 104] -/
def malformed (d : MsgDef) (r : Req) (s : State) : Bool :=
  hdrReply (r.w 0) || hdrError (r.w 0) || (hdrMore (r.w 0) && !hdrPriv (r.w 0)) ||
  hdrCount (r.w 0) != r.words.length || !d.count r.words.length || reservedSet d.masks (r.words.drop 1) ||
  (hdrPriv (r.w 0) && d.priv == .never) || d.bad r s

/-- Class 3: state, role and fused block (R3, R667, R675, R785). [DEDUCED, log 104] -/
def denied (d : MsgDef) (r : Req) (s : State) : Bool :=
  if s.dev.state == .running && !s.pwr.thermallyOff then
    !hasBlk d.blk s || (s.pwr.suspended && !suspendKeeps d.blk && !d.status) || d.deny r s
  else !d.always || d.deny r s

/-- Whether a request came by UDP. -/
def isUdp : Path → Bool
  | .udp _ _ => true
  | _ => false

/-- Class 4 (R694, R695): `tok` is the verdict on the token of a complete sequence, none without a sequence. -/
def unauthorised (d : MsgDef) (r : Req) (tok : Option Bool) (s : State) : Bool :=
  if hdrPriv (r.w 0) then tok != some true || (isUdp r.path && !cfgB F.MBX_UDP_PRIV 0 s)
  else d.priv == .must && !d.privFree r s

/-- Runs the checks of R809 in their order and, when none fails, the message. [DEDUCED, log 104] -/
def runReq (d : Option MsgDef) (r : Req) (tok : Option Bool) (s : State) : Answer × State :=
  match d with
  | none => (.refuse 1 0 0, s)
  | some d =>
    if !routed r.chan r.code || d.unknown r s then (.refuse 1 0 0, s)
    else if malformed d r s then (.refuse 2 0 0, s)
    else match d.badLog r s with
    | some e => (.refuse 2 e.1 0, raise 0 e.1 e.2 [] s)
    | none =>
    if denied d r s then (.refuse 3 0 0, s)
    else if unauthorised d r tok s then (refuse4, s)
    else d.act r (tok == some true) s

/-- Runs a complete request and answers it. [DEDUCED, log 82] -/
def complete (d : Option MsgDef) (r : Req) (tok : Option Bool) (s : State) : State :=
  let (a, t) := runReq d r tok s
  answer d r a t

/-! ### Token sequences -/

/-- Takes the sequence a path holds open on a channel, if any (R692). -/
def openSeq (c : Nat) (p : Path) (s : State) : Option TokenSeq :=
  ((s.mbx.chans.getD c {}).held).find? fun q => q.path == p

/-- Removes the sequence of a path on a channel. -/
def dropSeq (c : Nat) (p : Path) (s : State) : State :=
  modChan c (fun ch => { ch with held := ch.held.filter fun q => q.path != p }) s

/-- Ends a sequence before part 5: the held request is refused with class 4 (R692). -/
def endSeq (c : Nat) (p : Path) (s : State) : State :=
  match openSeq c p s with
  | some q => answer none ⟨c, p, q.req⟩ refuse4 (dropSeq c p s)
  | none => s

/-- One second in TIME_CLK ticks. -/
def ticksPerSec : Nat := 800000000

/-- Whether more than 1 s has passed since a sequence began (R692). -/
def seqLate (q : TokenSeq) (s : State) : Bool := decide (q.since + ticksPerSec < s.dev.elapsed)

/-- The 36 body words of a token (R693). [DEDUCED, log 83] -/
def tokenBody (parts : List (List Word)) : List Word := parts.flatMap fun p => p.drop 2

/-- The bytes the token signs: serial, nonce, SHA-256 of the request's words as sent (R694). [DEDUCED, log 83] -/
def tokenMessage (serial : Nat) (nonce req : List Word) : List Byte :=
  leBytes 8 serial ++ wordBytes nonce ++ sha256 (wordBytes req)

/-- The key slot a token part names (R693). -/
def partSlot (p : List Word) : Nat := bits (p.getD 1 0).toNat 9 8

/-- The nonce a path holds that is not stale (R691). -/
def freshNonce (p : Path) (s : State) : Option Nonce :=
  s.mbx.nonces.find? fun n => n.path == p && decide (s.dev.elapsed ≤ n.since + 60 * ticksPerSec)

/-- Whether a token is valid (R694). [DEDUCED, log 83] -/
def tokenValid (q : TokenSeq) (s : State) : Bool :=
  let body := tokenBody q.parts
  let slot := partSlot (q.parts.headD [])
  let key := wordBytes ((body.drop 4).take 16)
  let o := s.otp.slots.getD slot {}
  match freshNonce q.path s with
  | none => false
  | some n =>
    n.words == body.take 4 && sha256 key == o.hash && o.state == 1 && q.parts.all (fun p => partSlot p == slot) &&
    ecdsaVerify key (tokenMessage s.otp.serial (body.take 4) q.req) (wordBytes ((body.drop 20).take 16))

/-- The nonce of a path is used up (R694). -/
def useNonce (p : Path) (s : State) : State :=
  { s with mbx := { s.mbx with nonces := s.mbx.nonces.filter fun n => n.path != p } }

/-- A request that opens a sequence is held (R692). [DEDUCED, log 83] -/
def holdSeq (r : Req) (s : State) : State :=
  modChan r.chan (fun ch => { ch with held := ch.held ++ [⟨r.path, r.words, [], s.dev.elapsed⟩] }) s

/-- A token part that is discarded is counted as a refusal (R678). -/
def discardPart (c : Nat) (s : State) : State :=
  modChan c (fun ch => { ch with handled := wrapInc 32 ch.handled, refusals := wrapInc 32 ch.refusals }) s

/-- Whether a token part continues a sequence: the next index, COUNT 8, MORE clear on part 5 alone (R692, R693). -/
def partNext (q : TokenSeq) (r : Req) : Bool :=
  r.words.length == 8 && hdrCount (r.w 0) == 8 && bits (r.w 1) 3 0 == q.parts.length &&
  hdrMore (r.w 0) == (q.parts.length != 5) && !hdrReply (r.w 0) && !hdrError (r.w 0) && !hdrPriv (r.w 0) &&
  hdrTag (r.w 0) == hdrTag (q.req.headD 0).toNat && decide (r.w 1 &&& 0x30F = r.w 1)

/-- Adds a token part to a path's open sequence on a channel. [DEDUCED, log 83] -/
def addPart (r : Req) (s : State) : State :=
  modChan r.chan (fun ch => { ch with
    handled := wrapInc 32 ch.handled,
    held := ch.held.map fun q => if q.path == r.path then { q with parts := q.parts ++ [r.words] } else q }) s

/-- Takes a token part (R692, R693). `defOf` finds the message of the held request, which runs on part 5. [DEDUCED, log 82; DEDUCED, log 83] -/
def takePart (defOf : Nat → Option MsgDef) (r : Req) (s : State) : State :=
  match openSeq r.chan r.path s with
  | none => discardPart r.chan s
  | some q =>
    if seqLate q s || !partNext q r then discardPart r.chan (endSeq r.chan r.path s)
    else
      let t := addPart r s
      if q.parts.length < 5 then t
      else
        let q' : TokenSeq := { q with parts := q.parts ++ [r.words] }
        let ok := tokenValid q' t
        let rq : Req := ⟨r.chan, r.path, q.req⟩
        complete (defOf rq.code) rq (some ok) (useNonce r.path (dropSeq r.chan r.path t))

/-- Whether a message may be sent with a token (R695). [DEDUCED, log 110] -/
def mayPriv (d : Option MsgDef) : Bool := (d.map fun m => m.priv != .never).getD false

/-- Takes a message that is no token part: it ends an open sequence of its path (R692), is held when it opens one, and
is otherwise complete: a request with PRIV but without MORE is complete without a token, and so is one whose code takes no
token. [DEDUCED, log 110] -/
def takeMsg (d : Option MsgDef) (r : Req) (s : State) : State :=
  let s := endSeq r.chan r.path s
  if mayPriv d && hdrPriv (r.w 0) && hdrMore (r.w 0) && !hdrReply (r.w 0) && !hdrError (r.w 0) then holdSeq r s
  else complete d r none s

/-! ### Receivers -/

/-- The receiver of a channel: 0 the Headframe, 1 to 4 the control cores, 5 the island (R673, R675). [DEDUCED, log 57] -/
def receiverOf (c : Nat) (s : State) : Nat :=
  if 14 ≤ c then 5 else if s.dev.state == .running && !s.pwr.thermallyOff then cfgN (F.MBX_RECEIVER c) 0 s else 0

/-- Whether messages are handled at all: from the Headframe's start on (R662, R671, R732), and not while the suspended
state is being entered (R784). Outside a started role only the messages of R667 are accepted (R675). -/
def handling (s : State) : Bool := s.dev.state != .off && s.dev.state != .bootRom && !s.pwr.entering

/-- Whether a channel's receiver takes messages now: it sleeps until WAKE_COMPLETE (R683). -/
def serves (c : Nat) (s : State) : Bool := handling s && !s.mbx.asleep.contains (receiverOf c s)

/-- The oldest message of a channel. [DEDUCED, log 82] -/
def headMsg (c : Nat) (s : State) : Option Req := ((s.mbx.chans.getD c {}).inq.head?).map fun m => ⟨c, m.path, m.words⟩

/-- Removes the oldest message of a channel. -/
def popMsg (c : Nat) (s : State) : State := modChan c (fun ch => { ch with inq := ch.inq.drop 1 }) s

/-- Messages whose code no row of the index takes are refused with class 1 as they come to the head of the queue, at
most `n` of them (R15, R674, R679). [DEDUCED, log 82] -/
def screen (defOf : Nat → Option MsgDef) (c : Nat) : Nat → State → State
  | 0, s => s
  | n + 1, s =>
    match headMsg c s with
    | some r =>
      if serves c s && (defOf r.code).isNone && r.code != 0x1410 then
        screen defOf c n (takeMsg none r (popMsg c s))
      else s
    | none => s

/-- A receiver takes the oldest message of channel `c` when `mine` says that the command's row runs it (R673, R676);
messages before and behind it that no row takes are refused. [DEDUCED, log 82] -/
def runHead (defOf : Nat → Option MsgDef) (mine : Req → Bool) (c : Nat) (s : State) : State :=
  let s := screen defOf c 8 s
  match headMsg c s with
  | some r =>
    if serves c s && mine r then screen defOf c 8 (takeMsg (defOf r.code) r (popMsg c s)) else s
  | none => s

/-! ### Posting -/

/-- The words a channel's inbound queue holds (R680). -/
def inWords (c : Nat) (s : State) : Nat := (((s.mbx.chans.getD c {}).inq).map fun m => m.words.length).sum

/-- Puts a message at the end of a channel's queue. -/
def enqueue (c : Nat) (p : Path) (ws : List Word) (s : State) : State :=
  modChan c (fun ch => { ch with inq := ch.inq ++ [⟨p, ws⟩] }) s

/-- The words a POST queues: COUNT of them, or the header alone when COUNT is 0 or above 8 (R684). -/
def postWords (tx : List Word) : List Word :=
  let n := hdrCount (tx.headD 0).toNat
  if n = 0 ∨ 8 < n then tx.take 1 else tx.take n

end Sys2Proof.Machine
end

