-- ==== Sys2Proof/Machine/Time.lean ====
section
/-! DEFINITION. Device time: the TOD counter, the servo, PTP, the exposure schedule, timecode and the time messages
(chapter 14). Running scheduled and array commands stands in Relay.lean. -/

namespace Sys2Proof.Machine

/-- Applies `f` to the time state. -/
def modTime (f : TimeState → TimeState) (s : State) : State := { s with time := f s.time }

/-- A second in units of 2^-32 ns. -/
def subPerSec : Nat := 1000000000 * 2 ^ 32

/-! ### The counter (R488 to R490) -/

/-- `n` TIME_CLK ticks: INC per tick, carried into seconds (R488). -/
def tickTod (n : Nat) (t : TimeState) : TimeState :=
  let u := t.sub + n * t.inc
  { t with sec := (t.sec + u / subPerSec) % 2 ^ 48, sub := u % subPerSec, inState := t.inState + n }

/-- The frequency of TOD against TIME_CLK, in parts of 1 ppm / 800,000,000. -/
def todOffset (inc : Nat) : Int := ((inc : Int) - 0x140000000) * 800000000000000 / 0x140000000

/-- A divider moves towards a frequency for `n` ticks, at most 1 ppm per second, within ±`limit` of nominal (R475, R608). -/
def moveDivider (n : Nat) (limit want : Int) (d : Divider) : Divider :=
  { d with offset := d.offset + clampI (-(n : Int)) n (clampI (-limit) limit (want + d.pull) - d.offset) }

/-- ±50 ppm in those parts (R475). -/
def sdiRange : Int := 40000000000

/-- The dividers of the SDI pairs and of the audio clocks follow TOD for `n` ticks, locked or free-running (R475, R608). -/
def moveDividers (n inc : Nat) (x : Outputs) : Outputs :=
  { x with
    pairs := x.pairs.map (moveDivider n sdiRange (todOffset inc))
    audioGen := moveDivider n (todOffset inc).natAbs (todOffset inc) x.audioGen }

/-- `n` ticks of TIME_CLK pass: TOD runs from role start, the time since step 1 from the start, and the clocks steered from TOD
follow it (R475, R488, R608, R706). -/
def passTicks (n : Nat) (s : State) : State :=
  { s with
    dev := if s.dev.resetLow then s.dev else { s.dev with elapsed := s.dev.elapsed + n }
    time := if s.time.running then tickTod n s.time else s.time
    out := if s.time.running then moveDividers n s.time.inc s.out else s.out }

/-- Least and greatest INC (R489). -/
def incMin : Int := 0x13FD70A3D
/-- Greatest INC (R489). -/
def incMax : Int := 0x14028F5C3

/-- The servo's write of INC: clamped, 0x0E04 once per run of clamped writes (R489). -/
def writeInc (v : Int) (s : State) : State :=
  let t := modTime (fun x => { x with inc := (clampI incMin incMax v).toNat }) s
  if v < incMin ∨ incMax < v then raiseOnce 1 0x0E04 noInst [] t else endRun 0x0E04 noInst t

/-- A signed step of TOD in units of 2^-16 ns (R490). -/
def stepTod (d : Int) (t : TimeState) : TimeState :=
  let u : Int := (t.sec : Int) * subPerSec + t.sub + d * 65536
  { t with sec := u.toNat / subPerSec % 2 ^ 48, sub := u.toNat % subPerSec, steps := wrapInc 16 t.steps, stepSum := t.stepSum + d }

/-- The words that a seam has committed, of which its schedule's rate and its port's trigger fields are read (R120, R121). -/
def seamWords (n : Nat) (s : State) : Words := (s.cap.seams.getD n {}).committed

/-- Whether a seam's port is triggered (R87): the trigger of the port that the seam names. -/
def seamTriggered (n : Nat) (s : State) : Bool :=
  !cfgB F.SEAM_SRC_SRC_TYPE n s && F.SP_TRIG_ENABLE.on (cfgN F.SEAM_SRC_SRC_INDEX n s % 4) (seamWords n s)

/-- Marks every seam's schedule for SCHEDULE_REBASE (R508). -/
def rebaseAll (t : TimeState) : TimeState := { t with exp := t.exp.map fun e => { e with rebase := true } }

/-- The targets of the previous triggers, on the scale of TOD after a step of it (R508). [DEDUCED, log 29] -/
def shiftTargets (d : Int) (s : State) : State :=
  { s with
    time := { s.time with exp := s.time.exp.map fun e => { e with last := e.last.map (· + d) } }
    cap := { s.cap with ports := s.cap.ports.map fun p => { p with trigLast := p.trigLast.map (· + d) } } }

/-- The entries of the scheduled table whose targets a step has passed, in target order (R514). -/
def passedEntries (old new : Nat) (tbl : List (Option Sched)) : List Nat :=
  let due := tbl.zipIdx.filterMap fun p => p.1.bind fun e =>
    if old < todUnits e.target ∧ todUnits e.target ≤ new then some (todUnits e.target, e.order, p.2) else none
  (due.mergeSort fun a b => decide (a.1 < b.1 ∨ (a.1 = b.1 ∧ a.2.1 ≤ b.2.1))).map fun x => x.2.2

/-- The step at the first valid sample (R490, R492, R508, R514). -/
def firstSample (th : Int) (s : State) : State :=
  let old := todUnits (nowTod s)
  let t := shiftTargets (-th) (modTime (fun x => rebaseAll { stepTod (-th) x with f := 0, clk := 1, good := 0, inState := 0, theta := th }) s)
  raise 0 0x0E03 noInst []
    (modTime (fun x => { x with late := passedEntries old (todUnits (nowTod t)) x.table }) t)

/-- The limit of the frequency state and of the adjustment (R492). -/
def servoLimit : Int := 2684355

/-- The servo of R492 on a valid sample: the new frequency state and INC. [DESIGN CHOICE, log 63] -/
def servo (th : Int) (dt kp ki : Nat) (f : Int) : Int × Int :=
  let p := if dt = 0 ∨ 2 ^ 32 ≤ dt then Config.servoTerm th dt else Int.tdiv (th * 65536 * 5) (4 * dt)
  let f' := clampI (-servoLimit) servoLimit (f + p * ki / 65536)
  let adj := clampI (-servoLimit) servoLimit (f' + p * kp / 65536)
  (f', 0x140000000 - adj)

/-- The lock states after a sample (R491, R493). -/
def lockStates (th : Int) (s : State) : State :=
  let lim : Int := cfgN F.TIME_CLK_LOCK_NS 0 s * 65536
  let a : Int := th.natAbs
  match s.time.clk with
  | 1 =>
    let g := if a ≤ lim then s.time.good + 1 else 0
    if 16 ≤ g then modTime (fun x => { x with clk := 2, good := 0, bad := 0, inState := 0 }) s
    else modTime (fun x => { x with good := g }) s
  | 2 =>
    let b := if 4 * lim < a then s.time.bad + 1 else 0
    if 4 ≤ b then raise 1 0x0E05 noInst [] (modTime (fun x => { x with clk := 1, good := 0, bad := 0, inState := 0 }) s)
    else modTime (fun x => { x with bad := b }) s
  | 3 => modTime (fun x => { x with clk := 1, good := 0, bad := 0, inState := 0 }) s
  | _ => s

/-- A valid sample: the offset and the interval since the previous sample in ns (R492, R493). -/
def validSample (th : Int) (dt : Nat) (s : State) : State :=
  if s.time.clk = 0 then firstSample th s
  else
    let (f', inc) := servo th dt (cfgN F.TIME_CLK_KP 0 s) (cfgN F.TIME_CLK_KI 0 s) s.time.f
    lockStates th (writeInc inc (modTime (fun x => { x with f := f', theta := th }) s))

/-- A sample taken at a local time in 2^-16 ns: the interval is measured from the previous sample, and a step moves the
record of this one (R492). -/
def takeSample (th : Int) (at_ : Int) (s : State) : State :=
  let dt := match s.time.lastSample with
    | some l => ((at_ - l) / 65536).toNat
    | none => 0
  let stepped := s.time.clk = 0
  modTime (fun x => { x with lastSample := some (if stepped then at_ - th else at_) }) (validSample th dt s)

/-- The source timeout: holdover (R498). -/
def holdover (s : State) : State :=
  if s.time.clk = 1 ∨ s.time.clk = 2 then
    raise 1 0x0E02 noInst [] (modTime (fun x => { x with clk := 3, good := 0, bad := 0, inState := 0 }) s)
  else s

/-! ### PTP (R494 to R505) -/

/-- Applies `f` to a PTP port. -/
def modPtp (m : Nat) (f : PtpPort → PtpPort) (s : State) : State :=
  modTime (fun t => { t with ptp := modAt t.ptp m f }) s

/-- Whether PTP runs on a port: its MAC is powered, also while suspended (R785), and PTPm.ENABLE is 1. -/
def ptpOn (m : Nat) (s : State) : Bool :=
  s.dev.state == .running && hasBlk .media s && decide (m < 4) && cfgB F.PTP_ENABLE m s && !s.pwr.thermallyOff

/-- The domain in force (R501, R521). -/
def ptpDomain (s : State) : Nat :=
  let d := cfgN F.TIME_PTP_DOMAIN 0 s
  if d = 0xFF then (if cfgB F.TIME_PTP_PROFILE 0 s then 0 else 127) else d

/-- The EUI-64 clockIdentity from the ETH0 MAC address (R500). -/
def clockIdentity (s : State) : Nat :=
  let mac := s.otp.baseMac
  mac / 2 ^ 24 * 2 ^ 40 + 0xFFFE * 2 ^ 24 + mac % 2 ^ 24

/-- The data set a port compares: priority1, clockClass, accuracy, variance, priority2, identity, steps removed, sender
identity and sender port (IEEE 1588 9.3.4, named by R499). [DEDUCED, log 62] -/
def dataSet (a : AnnounceMsg) : List Nat :=
  [a.priority1, a.clockClass, a.accuracy, a.variance, a.priority2, a.gmClock, a.stepsRemoved, a.srcClock, a.srcPort]

/-- The processor's own data set (R500). -/
def ownSet (s : State) : List Nat :=
  let cls := if cfgB F.TIME_PTP_SLAVE_ONLY 0 s then 255 else 248
  [cfgN F.TIME_PTP_PRIORITY1 0 s, cls, 0xFE, 0xFFFF, cfgN F.TIME_PTP_PRIORITY2 0 s, clockIdentity s, 0,
   clockIdentity s, 0]

/-- Lexicographic order: the first is better. [DEDUCED, log 62] -/
def better : List Nat → List Nat → Bool
  | a :: as, b :: bs => decide (a < b) || (a == b && better as bs)
  | _, _ => false

/-- The best qualified foreign master of a port: heard at least twice (IEEE 1588 9.3.2.5). -/
def bestOf (p : PtpPort) : Option AnnounceMsg :=
  (p.foreign.filter fun x => decide (2 ≤ x.count)).foldl (fun best x => match best with
    | none => some x.msg
    | some b => if better (dataSet x.msg) (dataSet b) then some x.msg else some b) none

/-- The best master over all ports with the port that hears it. -/
def bestAll (s : State) : Option (Nat × AnnounceMsg) :=
  (s.time.ptp.zipIdx).foldl (fun best p =>
    if !ptpOn p.2 s then best else
    match bestOf p.1, best with
    | none, b => b
    | some a, none => some (p.2, a)
    | some a, some (i, b) => if better (dataSet a) (dataSet b) then some (p.2, a) else some (i, b)) none

/-- The state a port takes (IEEE 1588 9.3.3): slave on the port of the best master, master or passive elsewhere, master
everywhere when the own data set is best; a slave-only clock listens instead. -/
def portChoice (s : State) (best : Option (Nat × AnnounceMsg)) (m : Nat) (p : PtpPort) : Nat :=
  let idle := if cfgB F.TIME_PTP_SLAVE_ONLY 0 s then 4 else 6
  if !ptpOn m s then 1
  else match best with
    | none => idle
    | some (i, a) =>
      if !cfgB F.TIME_PTP_SLAVE_ONLY 0 s && better (ownSet s) (dataSet a) then 6
      else if i = m then 9
      else if cfgB F.TIME_PTP_SLAVE_ONLY 0 s then 4
      else match bestOf p with
        | some b => if b.gmClock = a.gmClock ∧ better (dataSet b) (ownSet s) then 7 else 6
        | none => 6

/-- A port enters its new state; a new slave forgets the old parent's measurements (R496). -/
def enterState (st : Nat) (fresh : Bool) (p : PtpPort) : PtpPort :=
  if p.portState = st ∧ !fresh then p
  else { p with portState := st, sync := none, masterToSlave := none, delayReq := none, delays := [] }

/-- Runs the BMCA (R499, R502). With SOURCE 1 no port is a slave (R494). A change of parent never steps TOD. [DEDUCED, log 62] -/
def runBmca (s : State) : State :=
  let best := if cfgN F.TIME_CLK_SOURCE 0 s = 1 then none else bestAll s
  let best := match best with
    | some (i, a) => if !cfgB F.TIME_PTP_SLAVE_ONLY 0 s && better (ownSet s) (dataSet a) then none else some (i, a)
    | none => none
  let key := fun (b : Option (Nat × AnnounceMsg)) => b.map fun x => (x.1, x.2.srcClock, x.2.srcPort)
  let fresh := key best != key s.time.parent
  modTime (fun t => { t with
    parent := best,
    ptp := (t.ptp.zipIdx).map fun p =>
      let st := portChoice s best p.2 p.1
      enterState st (fresh && st == 9) p.1 }) s

/-- The mean of a port's path delays in 2^-16 ns (R496). [DEDUCED, log 62] -/
def meanDelay (p : PtpPort) : Int := if p.delays.isEmpty then 0 else p.delays.sum / p.delays.length

/-- The delay asymmetry of a port in 2^-16 ns (R496, R522). [DEDUCED, log 62] -/
def asymUnits (m : Nat) (s : State) : Int := cfgI F.PTP_ASYM_PS m s * 65536 / 1000

/-- The firmware reads a port's transmit timestamp queue whenever it handles a received PTP message (R504). [DEDUCED, log 62] -/
def drainTx (m : Nat) (s : State) : State := endRun (0x0E08 + m) m (modPtp m (fun p => { p with txq := [] }) s)

/-- Whether a message comes from the parent through port `m`, which is the slave, in the domain (R496). -/
def fromParent (m : Nat) (g : PtpMsg) (s : State) : Bool :=
  ptpOn m s && g.domain == ptpDomain s && (s.time.ptp.getD m {}).portState == 9 &&
  match s.time.parent with
  | some (i, a) => i == m && a.srcClock == g.srcClock && a.srcPort == g.srcPort
  | none => false

/-- A complete Sync: master-to-slave time and, once a path delay is known, a sample (R496). -/
def completeSync (m : Nat) (stamp origin : Tod) (corr : Int) (s : State) : State :=
  let ms : Int := (todUnits stamp : Int) - todUnits origin - corr - asymUnits m s
  let t := modPtp m (fun p => { p with sync := none, masterToSlave := some ms }) s
  let p := t.time.ptp.getD m {}
  if p.delays.isEmpty then t else takeSample (ms - meanDelay p) (todUnits stamp) t

/-- PTP_SYNC (R496): a one-step Sync completes a sample, a two-step Sync waits for its Follow_Up. -/
def execPtpSync (m : Nat) (msg : PtpMsg) (s : State) : Res :=
  let s := drainTx m s
  .next (if !fromParent m msg s then s
    else if msg.twoStep then modPtp m (fun p => { p with sync := some msg }) s
    else completeSync m msg.stamp msg.origin msg.correction s)

/-- PTP_FOLLOW_UP (R496): the precise origin timestamp of the Sync of the same sequence number. -/
def execPtpFollowUp (m : Nat) (msg : PtpMsg) (s : State) : Res :=
  let s := drainTx m s
  .next (match (s.time.ptp.getD m {}).sync with
    | some y =>
      if fromParent m msg s && y.seq == msg.seq && y.srcClock == msg.srcClock && y.srcPort == msg.srcPort then
        completeSync m y.stamp msg.origin (y.correction + msg.correction) s
      else s
    | none => s)

/-- A foreign master record after an Announce; at most five are kept, the newest first. [DEDUCED, log 62] -/
def hearForeign (a : AnnounceMsg) (l : List Foreign) : List Foreign :=
  let same := fun (x : Foreign) => x.msg.srcClock == a.srcClock && x.msg.srcPort == a.srcPort
  let n := ((l.find? same).map (·.count)).getD 0
  (⟨a, n + 1⟩ :: l.filter fun x => !same x).take 5

/-- PTP_ANNOUNCE (R499, R502): feeds the BMCA; the processor's own Announces and those of 255 steps are not used. -/
def execPtpAnnounce (m : Nat) (msg : AnnounceMsg) (s : State) : Res :=
  let s := drainTx m s
  .next (if !ptpOn m s || msg.domain != ptpDomain s then s
    else if msg.srcClock = clockIdentity s ∨ 255 ≤ msg.stepsRemoved then s
    else runBmca (modPtp m (fun p => { p with foreign := hearForeign msg p.foreign }) s))

/-- PTP_DELAY_REQ (R502): a master port answers with a Delay_Resp carrying the receipt stamp. -/
def execPtpDelayReq (m : Nat) (msg : PtpMsg) (s : State) : Res :=
  let s := drainTx m s
  .next (if ptpOn m s && (s.time.ptp.getD m {}).portState == 6 && msg.domain == ptpDomain s then
      modPtp m (fun p => { p with answered := some (msg.seq, msg.srcClock, msg.srcPort, msg.stamp) }) s
    else s)

/-- PTP_DELAY_RESP (R496): completes the outstanding path-delay measurement; the last eight are kept. -/
def execPtpDelayResp (m : Nat) (msg : PtpMsg) (s : State) : Res :=
  let p := s.time.ptp.getD m {}
  let s := drainTx m s
  .next (match p.delayReq, p.masterToSlave with
    | some (sq, t3), some ms =>
      if fromParent m msg s && msg.seq == sq && msg.reqClock == clockIdentity s && msg.reqPort == m + 1 then
        let sm : Int := (todUnits msg.origin : Int) - todUnits t3 - msg.correction
        modPtp m (fun q => { q with delayReq := none, delays := ((ms + sm) / 2 :: q.delays).take 8 }) s
      else s
    | _, _ => s)

/-- Queues a transmit timestamp; a full queue drops it, with the flag, the counter and 0x0E08 + m (R504, R505). [DEDUCED, log 62] -/
def queueStamp (m : Nat) (x : TxStamp) (s : State) : State :=
  let p := s.time.ptp.getD m {}
  if p.txq.length < 64 then endRun (0x0E08 + m) m (modPtp m (fun q => { q with txq := q.txq ++ [x] }) s)
  else raiseOnce 0 (0x0E08 + m) m [] (modPtp m (fun q => { q with overflow := true, dropped := wrapInc 32 q.dropped }) s)

/-- An entry of the transmit timestamp queue as its four words (R504). -/
def stampWords (m : Nat) (x : TxStamp) (s : State) : List Nat :=
  loWords 3 (todPack x.stamp) ++ [x.seq % 65536 * 2 ^ 16 + x.kind % 16 * 2 ^ 12 + m % 4 * 2 ^ 8 + ptpDomain s]

/-- The Announce that a master port sends: the parent's grandmaster one step further, or the processor's own quality (R500, R502). -/
def ownAnnounce (m : Nat) (s : State) : AnnounceMsg :=
  match s.time.parent with
  | some (_, a) => { a with srcClock := clockIdentity s, srcPort := m + 1, stepsRemoved := a.stepsRemoved + 1 }
  | none =>
    { domain := ptpDomain s, srcClock := clockIdentity s, srcPort := m + 1, priority1 := cfgN F.TIME_PTP_PRIORITY1 0 s,
      clockClass := 248, accuracy := 0xFE, variance := 0xFFFF, priority2 := cfgN F.TIME_PTP_PRIORITY2 0 s,
      gmClock := clockIdentity s, stepsRemoved := 0, utcOffset := cfgN F.TIME_PTP_UTC_OFFSET 0 s, utcValid := true }

/-- PTP_SEND_TIMER (R502 to R505): Sync and Announce leave a master port, Delay_Req the slave port; event messages are
stamped and counted, and one whose stamp was dropped is not followed up or not used. -/
def execPtpSendTimer (m : Nat) (kind : PtpSend) (s : State) : Res :=
  let p := s.time.ptp.getD m {}
  let room := decide (p.txq.length < 64)
  .next (if !ptpOn m s then s else
    match kind with
    | .sync =>
      if p.portState = 6 then
        queueStamp m ⟨nowTod s, p.seqSync, 0⟩
          (modPtp m (fun q => { q with
            seqSync := wrapInc 16 q.seqSync, sent := wrapInc 64 q.sent
            followed := if room then some (q.seqSync, nowTod s) else q.followed }) s)
      else s
    | .announce =>
      if p.portState = 6 then
        modPtp m (fun q => { q with seqAnnounce := wrapInc 16 q.seqAnnounce, announced := some (ownAnnounce m s) }) s
      else s
    | .delayReq =>
      if p.portState = 9 then
        queueStamp m ⟨nowTod s, p.seqDelay, 1⟩
          (modPtp m (fun q => { q with
            seqDelay := wrapInc 16 q.seqDelay, sent := wrapInc 64 q.sent,
            delayReq := if room then some (q.seqDelay, nowTod s) else none }) s)
      else s)

/-- TIME_SOURCE_TIMEOUT (R498, R502): holdover; a lost PTP parent is forgotten and the BMCA runs again, as it does where no Announce
has come: a clock that is not slave-only becomes master. -/
def execTimeSourceTimeout (s : State) : Res :=
  let t := holdover s
  .next (match t.time.parent with
    | some (i, a) => runBmca (modPtp i (fun p => { p with
        foreign := p.foreign.filter fun x => !(x.msg.srcClock == a.srcClock && x.msg.srcPort == a.srcPort) }) t)
    | none => if s.dev.role == .head then t else runBmca t)

/-! ### The exposure schedule (R506 to R508) -/

/-- T0 in force in 2^-16 ns (R506). -/
def schedT0 (s : State) : Int := if cfgB F.TIME_ARRAY_ENABLE 0 s then todUnits s.time.t0 else 0

/-- The frame rate of a seam's schedule: FPS_NUM and FPS_DEN as committed (R506). -/
def schedRate (seam : Nat) (s : State) : Nat × Nat :=
  (F.SEAM_GEOM_FPS_NUM.get seam (seamWords seam s), F.SEAM_GEOM_FPS_DEN.get seam (seamWords seam s))

/-- Schedule point t_n of a seam in 2^-16 ns (R506). -/
def schedPoint (seam : Nat) (n : Int) (s : State) : Int :=
  schedT0 s + n * ((schedRate seam s).2 * unitsPerSec : Nat) / ((schedRate seam s).1 : Nat)

/-- ⌈a / b⌉ on integers, b positive. -/
def ceilI (a b : Int) : Int := -((-a) / b)

/-- The least n whose schedule point is not before `u` (R506, R508). -/
def firstPoint (seam : Nat) (u : Int) (s : State) : Int :=
  ceilI ((u - schedT0 s) * ((schedRate seam s).1 : Nat)) ((schedRate seam s).2 * unitsPerSec : Nat)

/-- The declared frame period P_s of a seam in ns, rounded up (R111). -/
def framePeriodNs (seam : Nat) (s : State) : Nat :=
  ceilDiv ((schedRate seam s).2 * 1000000000) (schedRate seam s).1

/-- The delay of a seam's trigger in 2^-16 ns (R87). -/
def trigDelay (seam : Nat) (s : State) : Int :=
  F.SP_TRIG_DELAY_NS.getS (cfgN F.SEAM_SRC_SRC_INDEX seam s % 4) (seamWords seam s) * 65536

/-- The exposure index of a frame of a seam without a trigger (R507). -/
def indexOfTime (seam : Nat) (tod : Tod) (s : State) : Int :=
  let num : Int := ((todUnits tod : Int) - schedT0 s) * ((schedRate seam s).1 : Nat)
  let den : Int := ((schedRate seam s).2 * unitsPerSec : Nat)
  (2 * num + den) / (2 * den)

/-- Applies `f` to a seam's schedule. -/
def modExp (n : Nat) (f : ExpSched → ExpSched) (s : State) : State :=
  modTime (fun t => { t with exp := modAt t.exp n f }) s


/-! ### Timecode (R517) -/

/-- Two BCD digits: units at bit `u`, tens at bit `t`. -/
def bcdAt (v u t : Nat) : Nat := v % 10 * 2 ^ u + v / 10 * 2 ^ t

/-- Drop-frame numbering of a frame count at 30000/1001 (SMPTE ST 12-1). -/
def dropFrame (k : Nat) : Nat :=
  let m := k % 17982
  k + 18 * (k / 17982) + (if m < 2 then 0 else 2 * ((m - 2) / 1798))

/-- The 64-bit codeword of frame count k at a rate (R517). -/
def timecodeWord (num den k : Nat) (df : Bool) : Nat :=
  let base := ceilDiv num den
  let pair := decide (50 ≤ base)
  let rate := if pair then base / 2 else base
  let c := if pair then k / 2 else k
  let c := if df then dropFrame c else c
  let flag := if pair ∧ k % 2 = 1 then (if base = 50 then 2 ^ 59 else 2 ^ 27) else 0
  bcdAt (c % rate) 0 8 + (if df then 2 ^ 10 else 0) + bcdAt (c / rate % 60) 16 24 + bcdAt (c / (rate * 60) % 60) 32 40 +
    bcdAt (c / (rate * 3600) % 24) 48 56 + flag

/-- TAI minus UTC in force (R500, R517). -/
def utcOffset (s : State) : Int :=
  let own : Int := cfgN F.TIME_PTP_UTC_OFFSET 0 s
  if s.dev.role == .head then own else
  match s.time.parent with
  | some (_, a) => if a.utcValid then a.utcOffset else own
  | none => own

/-- TIMECODE of a frame from its exposure-start TOD (R517). -/
def timecode (e : Tod) (s : State) : Nat :=
  let sec : Int := (e.sec : Int) - utcOffset s + cfgI F.TIME_TC_TZ_OFFSET_S 0 s
  let num := cfgN F.TIME_TC_TC_NUM 0 s
  let den := cfgN F.TIME_TC_TC_DEN 0 s
  let d := (sec % 86400).toNat * 1000000000 + e.frac / 65536
  timecodeWord num den (d * num / (den * 1000000000)) (cfgB F.TIME_TC_DF 0 s)

/-! ### Block checks (R501, R523, R524) -/

/-- Interval and domain fields within the ranges of R501. -/
def ptpFieldsOk (s : State) : Bool :=
  let dp := cfgB F.TIME_PTP_PROFILE 0 s
  let inR := fun (f : Fld) (lo hi : Int) => cfgN f 0 s == 0x80 || decide (lo ≤ cfgI f 0 s ∧ cfgI f 0 s ≤ hi)
  let d := cfgN F.TIME_PTP_DOMAIN 0 s
  let sync : Int := if cfgN F.TIME_PTP_LOG_SYNC 0 s = 0x80 then (if dp then 0 else -3) else cfgI F.TIME_PTP_LOG_SYNC 0 s
  let at_ := cfgN F.TIME_PTP_ANNOUNCE_TIMEOUT 0 s
  (d == 0xFF || decide (d ≤ 127)) &&
  (if dp then inR F.TIME_PTP_LOG_SYNC (-1) 1 && inR F.TIME_PTP_LOG_ANNOUNCE 0 4 && inR F.TIME_PTP_LOG_DELAY_REQ 0 5
   else inR F.TIME_PTP_LOG_SYNC (-7) (-1) && inR F.TIME_PTP_LOG_ANNOUNCE (-3) 1 &&
     inR F.TIME_PTP_LOG_DELAY_REQ sync (sync + 5)) &&
  (at_ == 0 || decide ((if dp then 2 else 3) ≤ at_ ∧ at_ ≤ 10))

/-- The timecode rates of R524. -/
def timecodeOk (s : State) : Bool :=
  let num := cfgN F.TIME_TC_TC_NUM 0 s
  let den := cfgN F.TIME_TC_TC_DEN 0 s
  let tz := cfgI F.TIME_TC_TZ_OFFSET_S 0 s
  ((den == 1 && [24, 25, 30, 50, 60].contains num) || (den == 1001 && [24000, 30000, 60000].contains num)) &&
  (!cfgB F.TIME_TC_DF 0 s || (den == 1001 && (num == 30000 || num == 60000))) && decide (-86399 ≤ tz ∧ tz ≤ 86399)

/-- The multicast group of R523, not checked while GROUP_PORT is 0. -/
def groupOk (s : State) : Bool :=
  let ip := cfgN F.TIME_ARRAY_GROUP_IP 0 s
  cfgN F.TIME_ARRAY_GROUP_PORT 0 s == 0 || decide (0xE0000000 ≤ ip ∧ ip ≤ 0xEFFFFFFF)

/-- The failures of the time block checks, as error codes (R518). -/
def timeChecks (s : State) : List (Nat × Nat × List Nat) :=
  (if ptpFieldsOk s then [] else [(0x0E01, noInst, [1])]) ++ (if timecodeOk s then [] else [(0x0E01, noInst, [2])]) ++
  (if groupOk s then [] else [(0x0E01, noInst, [3])]) ++
  (if cfgN F.TIME_ARRAY_T0_NS 0 s < 1000000000 then [] else [(0x0E01, noInst, [4])])

/-! ### Messages (R511, R512, R514, R519) -/

/-- Message 0x0E00: time status (R519). -/
def timeStatusMsg : MsgDef :=
  { act := fun _ _ s =>
      let t := s.time
      let src := if s.dev.role == .head then 2 else cfgN F.TIME_CLK_SOURCE 0 s
      let slave := ((t.ptp.zipIdx).find? fun p => p.1.portState == 9).map (·.2)
      let cls := match t.parent with
        | some (_, a) => a.clockClass
        | none => if cfgB F.TIME_PTP_SLAVE_ONLY 0 s then 255 else 248
      let delay := match slave with
        | some m => meanDelay (t.ptp.getD m {}) / 65536
        | none => 0
      let used := (t.table.filter Option.isSome).length
      (.accept ([t.clk + src * 4 + (slave.map (· + 1)).getD 0 * 16 + cls % 256 * 256 + t.steps % 65536 * 65536] ++
        loWords 2 (toField 64 t.theta) ++
        [t.inc % 2 ^ 32, t.inc / 2 ^ 32 % 256 + min 0xFFFF (t.inState / ticksPerSec) * 65536, toField 32 delay,
         used]), s) }

/-- Message 0x0E08 + m: PTP port status; the read clears OVERFLOW (R505, R519). -/
def ptpPortStatusMsg (m : Nat) : MsgDef :=
  { blk := .media, status := true,
    act := fun _ _ s =>
      let p := s.time.ptp.getD m {}
      (.accept ([p.portState] ++ loWords 2 p.sent ++
        [p.txq.length + b2n p.overflow * 256, p.dropped, p.ignored]),
       modPtp m (fun q => { q with overflow := false }) s) }

/-- Message 0x0E10: array lock (R511). -/
def arrayLockMsg : MsgDef :=
  { count := fun n => n == 5, masks := [0xFFFF, 0xFFFFFFFF, 0xFFFFFFFF, 0x3FFFFFFF], priv := .must,
    bad := fun r _ => !todOk (r.w 2 + r.w 3 * 2 ^ 32 + r.w 4 * 2 ^ 64),
    act := fun r _ s =>
      if !cfgB F.TIME_ARRAY_ENABLE 0 s || s.time.locked then (.refuse 7 0 0, s)
      else (.accept [], modTime (fun t => rebaseAll { t with
        arrayId := r.w 1, t0 := todUnpack (r.w 2 + r.w 3 * 2 ^ 32 + r.w 4 * 2 ^ 64), locked := true }) s) }

/-- Message 0x0E11: array unlock; the values in force stay (R511). -/
def arrayUnlockMsg : MsgDef :=
  { priv := .must, act := fun _ _ s => (.accept [], modTime (fun t => { t with locked := false }) s) }

/-- The privileged codes of R696. -/
def privilegedCode (c : Nat) : Bool :=
  [0x0103, 0x0904, 0x0905, 0x0E10, 0x0E11, 0x0F08, 0x1002, 0x1511, 0x1520, 0x1602, 0x1603, 0x1604].contains c

/-- The first free entry of the scheduled table. -/
def freeEntry (t : List (Option Sched)) : Option Nat := t.findIdx? Option.isNone

/-- Message 0x0E20: schedule (R512). -/
def scheduleMsg : MsgDef :=
  { count := fun n => decide (5 ≤ n ∧ n ≤ 8), masks := [0xFFFFFFFF, 0xFFFFFFFF, 0x3FFFFFFF],
    bad := fun r _ => hdrCount (r.w 4) + 4 != r.words.length || !todOk (r.w 1 + r.w 2 * 2 ^ 32 + r.w 3 * 2 ^ 64),
    act := fun r _ s =>
      let target := todUnpack (r.w 1 + r.w 2 * 2 ^ 32 + r.w 3 * 2 ^ 64)
      let code := hdrCode (r.w 4)
      match freeEntry s.time.table with
      | none => (.refuse 7 0 0, s)
      | some i =>
        if todUnits target < todUnits (nowTod s) + 1000000 * 65536 ∨ hdrPriv (r.w 4) ∨ privilegedCode code
            ∨ code = 0x0E20 ∨ code = 0x0E21 then (.refuse 7 0 0, s)
        else (.accept [i], modTime (fun t => { t with
          table := t.table.set i (some ⟨target, t.schedOrder, r.chan, r.path, r.words.drop 4⟩),
          schedOrder := t.schedOrder + 1 }) s) }

/-- Message 0x0E21: cancel (R514). -/
def cancelMsg : MsgDef :=
  { count := fun n => n == 2, masks := [0x1F],
    act := fun r _ s =>
      if ((s.time.table.getD (r.w 1) none)).isNone then (.refuse 7 0 0, s)
      else (.accept [], modTime (fun t => { t with table := t.table.set (r.w 1) none }) s) }

/-- The time state at role start (R488, R491, R511, R514): TOD and the clock start over; the array takes the page's
values. [DEDUCED, log 10] -/
def timeAtRoleStart (s : State) : TimeState :=
  { running := true, arrayId := cfgN F.TIME_ARRAY_ARRAY_ID 0 s,
    t0 := ⟨cfgN F.TIME_ARRAY_T0_S_LO 0 s + cfgN F.TIME_ARRAY_T0_S_HI 0 s * 2 ^ 32,
           cfgN F.TIME_ARRAY_T0_NS 0 s * 65536⟩,
    ptp := (List.range 4).map fun m => { portState := if ptpOn m s then 4 else 1 } }

end Sys2Proof.Machine
end

