-- ==== Sys2Proof/Machine/Ingest.lean ====
section
/-! DEFINITION. Seams, their rings and the scheduler's arithmetic: arrival, slots, drops, the ring check and the seam
configuration checks (chapter 3). -/

namespace Sys2Proof.Machine

/-- Applies `f` to the capture state. -/
def modCap (f : Capture → Capture) (s : State) : State := { s with cap := f s.cap }
/-- Applies `f` to a seam. -/
def modSeam (n : Nat) (f : Seam → Seam) (s : State) : State := modCap (fun c => { c with seams := modAt c.seams n f }) s
/-- Applies `f` to a port. -/
def modPort (p : Nat) (f : Port → Port) (s : State) : State := modCap (fun c => { c with ports := modAt c.ports p f }) s
/-- A seam. -/
def seamOf (n : Nat) (s : State) : Seam := s.cap.seams.getD n {}
/-- A port. -/
def portOf (p : Nat) (s : State) : Port := s.cap.ports.getD p {}

/-- The code of a seam error (R125). -/
def seamErr (n k : Nat) : Nat := 0x0300 + 0x10 * n + k

/-- TOD in whole nanoseconds. -/
def nowNs (s : State) : Nat := todUnits (nowTod s) / 65536

/-! ### Ports and gangs (R63, R95) -/

/-- The leader of a port's gang, or the port itself (R63). -/
def leaderOf (w : Words) (p : Nat) : Nat :=
  if F.SP_PORT_GANG.get p w ≠ 3 then p else if p = 3 ∧ F.SP_PORT_GANG.get 2 w = 1 then 2 else 0

/-- The ports of a leader's gang in ascending order (R63). -/
def gangPorts (w : Words) (l : Nat) : List Nat :=
  match F.SP_PORT_GANG.get l w with
  | 1 => [l, l + 1]
  | 2 => [l, l + 1, l + 2, l + 3]
  | _ => [l]

/-- Whether a seam is active (R95). -/
def seamActive (w : Words) (n : Nat) : Bool := decide (n < 8) && F.SEAM_SRC_ENABLE.on n w

/-- The active seams. -/
def activeSeams (w : Words) : List Nat := (List.range 8).filter (seamActive w)

/-- The active seam that names a port's gang (R95). [DEDUCED, log 29] -/
def portSeam (p : Nat) (s : State) : Option Nat :=
  let w := s.cfg.accepted
  (activeSeams w).find? fun n => !F.SEAM_SRC_SRC_TYPE.on n w && F.SEAM_SRC_SRC_INDEX.get n w == leaderOf w p

/-- The words a port's Frame fields are read from: those committed at the arrivals of its seam (R120, R121). [DEDUCED, log 29] -/
def portWords (p : Nat) (s : State) : Words :=
  match portSeam p s with
  | some n => (seamOf n s).committed
  | none => s.cfg.accepted

/-! ### Times and depths (R106, R111, R113) -/

/-- Whether a seam runs in stripe mode (R98). -/
def stripeMode (role : Role) (w : Words) (n : Nat) : Bool := F.SEAM_SCHED_MODE.on n w && !(role == .head)

/-- S of R103. -/
def stripeLines (w : Words) (n : Nat) : Nat := 32 * 2 ^ F.SEAM_SCHED_STRIPE_LINES.get n w

/-- Width and height of a seam. -/
def seamW (w : Words) (n : Nat) : Nat := F.SEAM_GEOM_WIDTH.get n w
/-- Height of a seam. -/
def seamH (w : Words) (n : Nat) : Nat := F.SEAM_GEOM_HEIGHT.get n w

/-- Units per frame (R102, R103). -/
def unitCount (role : Role) (w : Words) (n : Nat) : Nat :=
  if stripeMode role w n then ceilDiv (seamH w n) (stripeLines w n) else 1

/-- P_s (R111). -/
def periodNs (w : Words) (n : Nat) : Nat := ceilDiv (1000000000 * F.SEAM_GEOM_FPS_DEN.get n w) (F.SEAM_GEOM_FPS_NUM.get n w)

/-- CORE_CLK cycles of a unit of `l` processed lines (R106). -/
def unitCycles (w : Words) (n l : Nat) : Nat := ceilDiv (seamW w n * l) 16 + 256

/-- U_s (R111). -/
def unitNs (role : Role) (w : Words) (n : Nat) : Nat :=
  let l := if stripeMode role w n then min (stripeLines w n) (seamH w n) + 16 else seamH w n
  ceilDiv (unitCycles w n l * 5) 6

/-- U_max (R111). -/
def unitMaxNs (role : Role) (w : Words) : Nat := ((activeSeams w).map (unitNs role w)).foldl max 0

/-- C_s (R111). -/
def boundNs (role : Role) (w : Words) (n : Nat) : Nat := periodNs w n + unitMaxNs role w + 100000

/-- T_s (R111). -/
def holdNs (role : Role) (w : Words) (n : Nat) : Nat :=
  let c := boundNs role w n
  let l := F.SEAM_SCHED_LATENCY_US.get n w
  if l = 0 then c else max (l * 1000) c

/-- P99 (R113). [DEDUCED, log 12] -/
def period99 (w : Words) (n : Nat) : Nat := periodNs w n * 99 / 100

/-- D_s (R113). -/
def minDepth (role : Role) (w : Words) (n : Nat) : Nat :=
  let t := holdNs role w n
  let frames := t / period99 w n + 1
  if stripeMode role w n then
    let l := min (t / F.SEAM_GEOM_MIN_LINE_NS.get n w + 1) (frames * seamH w n)
    max 4 (ceilDiv l (stripeLines w n) + 2)
  else max 2 frames

/-- The ring depth in force for a configuration (R113). -/
def ringDepthOf (role : Role) (w : Words) (n : Nat) : Nat :=
  let d := F.SEAM_SCHED_RING_DEPTH.get n w
  if d = 0 then minDepth role w n else d

/-- Bytes of a ring of `d` slots, a multiple of 4 KiB (R100, R113). -/
def ringBytes (role : Role) (w : Words) (n d : Nat) : Nat :=
  let lines := if stripeMode role w n then stripeLines w n else seamH w n
  ceilDiv (d * lines * seamW w n * 2) 4096 * 4096

/-- The seams that fail one of the first two tests of R113 at given depths, with the detail words of R114. At start-up
the depth is the one the configuration gives; at run time it is the one allocated. [DEDUCED, log 28] -/
def ringFailures (role : Role) (w : Words) (depth : Nat → Nat) : List (Nat × Nat × List Nat) :=
  (activeSeams w).filterMap fun n =>
    let d := minDepth role w n
    let rd := F.SEAM_SCHED_RING_DEPTH.get n w
    if depth n < d ∨ (rd = 0 ∧ 4095 < d) then some (seamErr n 4, n, [d, rd, holdNs role w n]) else none

/-! ### Seam checks (R96) -/

/-- Whether FPS_NUM / FPS_DEN is within R128. -/
def fpsOk (w : Words) (n : Nat) : Bool :=
  let a := F.SEAM_GEOM_FPS_NUM.get n w
  let b := F.SEAM_GEOM_FPS_DEN.get n w
  decide (1 ≤ a ∧ 1 ≤ b ∧ a ≤ 16000 * b)

/-- The geometry ranges of R128. -/
def geomOk (w : Words) (n : Nat) : Bool :=
  decide (256 ≤ seamW w n ∧ seamW w n ≤ 16384 ∧ seamW w n % 8 = 0 ∧ 64 ≤ seamH w n ∧ seamH w n ≤ 12288 ∧
    seamH w n % 2 = 0)

/-- An explicit RING_DEPTH within its mode's range (R129). -/
def depthOk (role : Role) (w : Words) (n : Nat) : Bool :=
  let d := F.SEAM_SCHED_RING_DEPTH.get n w
  d == 0 || (if stripeMode role w n then decide (4 ≤ d ∧ d ≤ 255) else decide (2 ≤ d ∧ d ≤ 16))

/-- The start-up checks of R96 for seam `n`: ranges on every seam, sources on active ones. [DEDUCED, log 13] -/
def seamCheck (role : Role) (w : Words) (n : Nat) : Bool :=
  let src := fun k => (F.SEAM_SRC_SRC_TYPE.get k w, F.SEAM_SRC_SRC_INDEX.get k w)
  let i := F.SEAM_SRC_SRC_INDEX.get n w
  geomOk w n && fpsOk w n && depthOk role w n &&
  (!seamActive w n ||
    ((activeSeams w).all (fun k => decide (n ≤ k) || src k != src n) &&
     (if F.SEAM_SRC_SRC_TYPE.on n w then role == .body
      else !(role == .body) && decide (i < 4) && F.SP_PORT_ENABLE.on i w && F.SP_PORT_GANG.get i w != 3 &&
        (gangPorts w i).all (fun q => decide (q < 4) && F.SP_PORT_ENABLE.on q w && (q == i || F.SP_PORT_GANG.get q w == 3)) &&
        (F.SP_PORT_GANG.get i w != 1 || i % 2 == 0) && (F.SP_PORT_GANG.get i w != 2 || i == 0) &&
        F.SEAM_SRC_DEPTH.get n w == F.SP_PORT_DEPTH.get i w)))

/-- The failures of R96. [DEDUCED, log 13] -/
def seamChecks (role : Role) (w : Words) : List (Nat × Nat × List Nat) :=
  (List.range 8).filterMap fun n => if seamCheck role w n then none else some (seamErr n 5, n, [])

/-! ### Slots (R101, R115, R116) -/

/-- Stripe slots of a frame that are not free (R101, R116). Of a dropped frame these are the stripe in flight and the finished
one above it, from which it still reads its overlap. -/
def stripesHeld (units : Nat) (f : SeamFrame) : Nat :=
  let flight := fun k => f.started.contains k && !f.finished.contains k
  ((List.range f.claimed).filter fun k =>
    if f.dropped then flight k || (f.finished.contains k && flight (k + 1))
    else !(f.finished.contains k && (k = 0 || f.finished.contains (k - 1)) &&
           (k + 1 = units || f.finished.contains (k + 1)))).length

/-- Ring slots in use (R101, R126). A dropped frame's slot is free at once. -/
def occupancy (n : Nat) (s : State) : Nat :=
  let w := s.cfg.accepted
  let fs := (seamOf n s).frames
  if stripeMode s.dev.role w n then (fs.map (stripesHeld (unitCount s.dev.role w n))).sum
  else (fs.filter fun f => !f.dropped).length

/-! ### Buffer rings (R154, R188) -/

/-- The oldest buffer that no consumer holds: its position (R154, R188). -/
def claimable (bs : List (Nat × List Holder)) : Option Nat :=
  (bs.zipIdx.filter fun b => b.1.2.isEmpty).foldl (fun best b => match best with
    | none => some (b.1.1, b.2)
    | some (o, i) => if b.1.1 < o then some (b.1.1, b.2) else some (o, i)) none |>.map (·.2)

/-- Claims a buffer of an output ring at the first unit of a frame; none free: the frame is skipped on it (R188, R189). -/
def claimOut (r : OutRing) : OutRing × Bool :=
  match claimable (r.bufs.map fun b => (b.order, b.holders)) with
  | some i => ({ r with
      writing := some i
      bufs := modAt r.bufs i fun b => { b with writeSeq := wrapInc 32 b.writeSeq, order := 0 } }, true)
  | none => ({ r with writing := none, skipped := wrapInc 32 r.skipped }, false)

/-- Publishes a picture in the claimed buffer (R188). -/
def publishOut (pic : Picture) (r : OutRing) : OutRing :=
  match r.writing with
  | some i => { r with
      writing := none, published := r.published + 1, lastNum := pic.header.num
      bufs := modAt r.bufs i fun b => { b with writeSeq := wrapInc 32 b.writeSeq, order := r.published + 1, pic := pic } }
  | none => r

/-- Returns the claimed buffer unpublished (R155, R188). [DEDUCED, log 34] -/
def freeOut (r : OutRing) : OutRing :=
  match r.writing with
  | some i => { r with
      writing := none
      bufs := modAt r.bufs i fun b => { b with writeSeq := wrapInc 32 b.writeSeq, order := 0 } }
  | none => r

/-- The newest published buffer of a ring: its position. [DEDUCED, log 34] -/
def newestOut (r : OutRing) : Option Nat :=
  (r.bufs.zipIdx.filter fun b => decide (0 < b.1.order)).foldl (fun best b => match best with
    | none => some (b.1.order, b.2)
    | some (o, i) => if o < b.1.order then some (b.1.order, b.2) else some (o, i)) none |>.map (·.2)

/-- The oldest published buffer of a ring after publication order `k`. -/
def nextOut (k : Nat) (r : OutRing) : Option Nat :=
  (r.bufs.zipIdx.filter fun b => decide (k < b.1.order)).foldl (fun best b => match best with
    | none => some (b.1.order, b.2)
    | some (o, i) => if b.1.order < o then some (b.1.order, b.2) else some (o, i)) none |>.map (·.2)

/-- Takes hold of a buffer for a consumer, which lets go of any other (R190). [DEDUCED, log 34] -/
def holdOut (h : Holder) (i : Option Nat) (r : OutRing) : OutRing :=
  { r with bufs := r.bufs.zipIdx.map fun b =>
      { b.1 with holders := (b.1.holders.filter (· != h)) ++ (if some b.2 = i then [h] else []) } }

/-- Claims a statistics buffer (R154). -/
def claimStat (r : StatRing) : StatRing :=
  match claimable (r.bufs.map fun b => (b.order, b.holders)) with
  | some i => { r with
      writing := some i
      bufs := modAt r.bufs i fun b => { b with writeSeq := wrapInc 32 b.writeSeq, order := 0 } }
  | none => { r with writing := none }

/-- Publishes statistics (R154). -/
def publishStat (d : StatData) (r : StatRing) : StatRing :=
  match r.writing with
  | some i => { r with
      writing := none, published := r.published + 1
      bufs := modAt r.bufs i fun b => { b with writeSeq := wrapInc 32 b.writeSeq, order := r.published + 1, data := d } }
  | none => r

/-- Returns the claimed statistics buffer (R155). -/
def freeStat (r : StatRing) : StatRing :=
  match r.writing with
  | some i => { r with
      writing := none
      bufs := modAt r.bufs i fun b => { b with writeSeq := wrapInc 32 b.writeSeq, order := 0 } }
  | none => r

/-- The newest published statistics buffer of an epoch (R32, R155). -/
def newestStat (epoch : Nat) (r : StatRing) : Option StatBuf :=
  (r.bufs.filter fun b => decide (0 < b.order) && b.data.epoch == epoch).foldl (fun best b => match best with
    | none => some b
    | some x => if x.order < b.order then some b else some x) none

/-- The enabled taps of a seam (R172). -/
def seamTaps (w : Words) (n : Nat) : List Nat :=
  (List.range 8).filter fun t => F.TAP_SRC_ENABLE.on t w && F.TAP_SRC_SEAM.get t w == n

/-- The enabled adits of a seam (R192). -/
def seamAdits (w : Words) (n : Nat) : List Nat :=
  (List.range 4).filter fun a => F.ADIT_ENABLE.on a w && F.ADIT_SEAM.get a w == n

/-- Applies a function to the elements of a list at given positions. -/
def modMany {α : Type} (is : List Nat) (f : α → α) (l : List α) : List α := l.zipIdx.map fun x => if is.contains x.2 then f x.1 else x.1

/-- Returns every buffer a dropped frame had claimed (R155, R188). -/
def freeClaims (n : Nat) (s : State) : State :=
  let w := s.cfg.accepted
  modCap (fun c => { c with
    stats := modAt c.stats n freeStat
    taps := modMany (seamTaps w n) freeOut c.taps
    adits := modMany (seamAdits w n) freeOut c.adits }) s

/-! ### Arrival and drops (R27, R36, R97, R108, R115 to R121) -/

/-- A frame is dropped whole: it is counted, and DROPPED_BEFORE goes on the seam's next good frame (R26, R35). -/
def noteDrop (n : Nat) (s : State) : State :=
  modSeam n (fun x => { x with droppedBefore := true, receiving := false, dropped := wrapInc 32 x.dropped }) s

/-- Drops the frame a seam is receiving whole: its slots are freed and its remaining units discarded, and a unit in
flight ends normally (R35, R107, R116). -/
def dropReceiving (n : Nat) (s : State) : State :=
  let x := seamOf n s
  if !x.receiving then modSeam n (fun y => { y with droppedBefore := true }) s else
  match x.frames.getLast? with
  | none => noteDrop n s
  | some f =>
    let inFlight := f.started.length != f.finished.length
    let t := if f.started.isEmpty then s else freeClaims n s
    noteDrop n (modSeam n (fun y => { y with frames :=
      y.frames.dropLast ++ (if inFlight then [{ f with dropped := true, lines := [] }] else []) }) t)

/-- The seam's counter of overflow drops (R117, R126). -/
def countRingDrop (n : Nat) (s : State) : State := modSeam n (fun x => { x with ringDrops := wrapInc 32 x.ringDrops }) s

/-- An overflow drop is counted and logged (R117). -/
def overflowDrop (n : Nat) (s : State) : State := raise 2 (seamErr n 1) n [] (countRingDrop n s)

/-- The gains a frame of exposure index `i` is processed with: those a lock bound to it, else the seam's (R219, R221). -/
def gainsFor (n : Nat) (i : Int) (s : State) : List Nat :=
  let l := s.cap.loops.getD n {}
  match (l.boundGains.filter fun b => decide (b.1 ≤ i)).getLast? with
  | some (_, r, b) => [r, 0x1000, 0x1000, b]
  | none => [l.gainR, l.gainGR, l.gainGB, l.gainB]

/-- Before a frame binds its gains, gains bound to a frame that has come become the seam's gains (R220, R221); with AWB_MODE
0 the gains are those written to RFEn.WB (R219). [DEDUCED, log 109] -/
def settleGains (n : Nat) (i : Int) (s : State) : State :=
  let w := s.cfg.accepted
  let own := F.LOOP_AE_LOCK.get n w != 2 && F.LOOP_AWB_AWB_MODE.get n w == 0
  modCap (fun c => { c with loops := modAt c.loops n fun l =>
    if own then { l with boundGains := [] }
    else match (l.boundGains.filter fun b => decide (b.1 ≤ i)).getLast? with
    | some (_, r, b) => { l with gainR := r, gainGR := 0x1000, gainGB := 0x1000, gainB := b,
                                 boundGains := l.boundGains.filter fun b => decide (i < b.1) }
    | none => l }) s

/-- Milliseconds since reset release. -/
def msSinceStart (s : State) : Nat := s.dev.elapsed / ticksPerMs

/-- The commit of a frame arrival, admitted or not (R97, R119, R121). -/
def commitArrival (n num : Nat) (index : Int) (s : State) : State :=
  endRun (seamErr n 3) n (settleGains n index (modSeam n (fun y => { y with
    committed := s.cfg.accepted, lastCommit := num, seen := true, absent := false, lastArrival := nowNs s, lastIndex := index
    receiving := false }) s))

/-- The time of the first admitted frame since role start is kept (R671). -/
def noteFirst (s : State) : State :=
  { s with dev := if s.dev.firstFrameMs = 0 then { s.dev with firstFrameMs := msSinceStart s } else s.dev }

/-- A frame arrives at a seam with a header already numbered: the commit of R121, the spacing of R36, the slot of R115,
the deadline of R108. [DEDUCED, log 12] -/
def arrive (n : Nat) (h : FrameHeader) (index : Int) (s : State) : State :=
  let role := s.dev.role
  let x := seamOf n s
  let w := s.cfg.accepted
  let now := nowNs s
  let early := match x.lastFv with
    | some v => decide (now < v + period99 x.committed n)
    | none => false
  let s := commitArrival n h.num index s
  if early then raise 2 0x0120 n [] (noteDrop n s)
  else if !stripeMode role w n && decide (x.ringDepth ≤ occupancy n s) then overflowDrop n (noteDrop n s)
  else
    let lat := F.SEAM_SCHED_LATENCY_US.get n w
    let f : SeamFrame :=
      { header := { h with droppedBefore := h.droppedBefore || x.droppedBefore, seam := n }, index := index
        arrival := now, deadline := now + (if lat = 0 then boundNs role w n else lat * 1000)
        bound := w, gains := gainsFor n index s, lines := [], whole := false,
        claimed := if stripeMode role w n then 0 else 1, started := [], finished := [], dropped := false, slot := x.slots }
    noteFirst (modSeam n (fun y => { y with
        frames := y.frames ++ [f], receiving := true, droppedBefore := false, lastFv := some now, slots := y.slots + f.claimed
        admitted := wrapInc 32 y.admitted }) s)

/-- Applies `f` to the frame a seam is receiving. -/
def modReceiving (n : Nat) (f : SeamFrame → SeamFrame) (s : State) : State :=
  modSeam n (fun x => if x.receiving then { x with frames := x.frames.modify (x.frames.length - 1) f } else x) s

/-- The frame a seam is receiving. -/
def receivingOf (n : Nat) (s : State) : Option SeamFrame :=
  let x := seamOf n s
  if x.receiving then x.frames.getLast? else none

/-- Before the first line of a stripe its slot is claimed, or the frame is dropped (R116). -/
def claimStripe (n : Nat) (s : State) : State :=
  match receivingOf n s with
  | none => s
  | some f =>
    let w := s.cfg.accepted
    let line := f.lines.length
    if stripeMode s.dev.role w n && decide (line < seamH w n) && line % stripeLines w n == 0 then
      if (seamOf n s).ringDepth ≤ occupancy n s then overflowDrop n (dropReceiving n s)
      else modSeam n (fun y => { y with slots := y.slots + 1 }) (modReceiving n (fun g => { g with claimed := g.claimed + 1 }) s)
    else s

/-- Excess lines or pixels were discarded (R37): CROPPED is set and 0x0121 logged, once per frame. -/
def markCropped (n : Nat) (s : State) : State :=
  match receivingOf n s with
  | some f => if f.header.cropped then s
      else raise 1 0x0121 n [] (modReceiving n (fun g => { g with header := { g.header with cropped := true } }) s)
  | none => s

/-- A line of samples is written to the ring; a line beyond the declared height and the pixels beyond the declared width are
discarded, and a line shorter than the declared width drops the frame whole (R37, R38, R97, R99). [DEDUCED, log 23] -/
def writeLine (n : Nat) (l : List Nat) (s : State) : State :=
  match receivingOf n s with
  | none => s
  | some f =>
    if seamH s.cfg.accepted n ≤ f.lines.length then markCropped n s
    else if l.length < seamW s.cfg.accepted n then raise 2 0x0123 n [] (dropReceiving n s)
    else
      let w := seamW s.cfg.accepted n
      modReceiving n (fun g => { g with lines := g.lines ++ [l.take w] }) (if w < l.length then markCropped n s else s)

/-- A frame ends: one with too few lines is dropped whole (R38). [DEDUCED, log 23] -/
def endReceiving (n : Nat) (s : State) : State :=
  match receivingOf n s with
  | none => s
  | some f =>
    let w := s.cfg.accepted
    if f.lines.length < seamH w n then raise 2 0x0123 n [] (dropReceiving n s)
    else modSeam n (fun x => { x with receiving := false }) (modReceiving n (fun g => { g with whole := true }) s)

/-! ### The scheduler (R102, R103, R109) -/

/-- The lines a unit needs in the ring (R102, R103). -/
def unitNeeds (role : Role) (w : Words) (n k : Nat) : Nat :=
  if stripeMode role w n then min ((k + 1) * stripeLines w n + 8) (seamH w n) else seamH w n

/-- The keys of the ready units of a seam: deadline, seam, frame, stripe (R109). -/
def readyUnits (n : Nat) (s : State) : List (Nat × Nat × Nat × Nat) :=
  let w := s.cfg.accepted
  let role := s.dev.role
  (seamOf n s).frames.flatMap fun f =>
    if f.dropped then [] else
    (List.range (unitCount role w n)).filterMap fun k =>
      if !f.started.contains k && decide (unitNeeds role w n k ≤ f.lines.length) then
        some (f.deadline, n, f.header.num, k)
      else none

/-- Lexicographic order of keys. -/
def keyLt (a b : Nat × Nat × Nat × Nat) : Bool :=
  decide (a.1 < b.1) || (a.1 == b.1 && (decide (a.2.1 < b.2.1) || (a.2.1 == b.2.1 &&
    (decide (a.2.2.1 < b.2.2.1) || (a.2.2.1 == b.2.2.1 && decide (a.2.2.2 < b.2.2.2))))))

/-- The least key (R109). -/
def leastKey (l : List (Nat × Nat × Nat × Nat)) : Option (Nat × Nat × Nat × Nat) :=
  l.foldl (fun best k => match best with
    | none => some k
    | some b => if keyLt k b then some k else some b) none

/-- The unit the scheduler starts (R109). -/
def nextUnit (s : State) : Option (Nat × Nat × Nat × Nat) := leastKey ((List.range 8).flatMap fun n => readyUnits n s)

/-- Applies `f` to a frame of a seam by number. -/
def modFrame (n num : Nat) (f : SeamFrame → SeamFrame) (s : State) : State :=
  modSeam n (fun x => { x with frames := x.frames.map fun g => if g.header.num = num then f g else g }) s

/-- Message 0x03s0: seam status (R126). C_s is of the accepted settings. [DEDUCED, log 28] -/
def seamStatusMsg (n : Nat) : MsgDef :=
  { blk := .ingest, status := true,
    act := fun _ _ s =>
      let x := seamOf n s
      let w := s.cfg.accepted
      let st := if !seamActive w n then 0 else if x.absent then 3 else if x.seen then 2 else 1
      (.accept [st + occupancy n s % 4096 * 16 + x.ringDepth % 65536 * 65536, x.admitted, x.ringDrops, x.misses,
        x.lastCommit % 2 ^ 32, x.longestUs, ceilDiv (boundNs s.dev.role w n) 1000], s) }

/-- SOURCE_ABSENT_EXPIRY (R119): logged once until the next arrival. -/
def execSourceAbsentExpiry (seam : Nat) (s : State) : Res :=
  let x := seamOf seam s
  .next (if blkOn .ingest s && seamActive s.cfg.accepted seam && x.seen && !x.absent &&
        decide (x.lastArrival + 4 * periodNs x.committed seam ≤ nowNs s) then
      raiseOnce 1 (seamErr seam 3) seam [] (modSeam seam (fun y => { y with absent := true }) s)
    else s)

end Sys2Proof.Machine
end

