-- ==== Sys2Proof/Machine/LinkOps.lean ====
section
/-! DEFINITION. Operations on serial lanes and link groups that several blocks use: lane errors, scans, control messages,
cells, retraining and dropped stream frames (chapters 11 and 12), and the seam epoch (R563). -/

namespace Sys2Proof.Machine

/-! ### Lanes -/

/-- A lane. -/
def laneOf (n : Nat) (s : State) : Lane := s.lanes.getD n {}
/-- Applies `f` to a lane. -/
def modLane (n : Nat) (f : Lane → Lane) (s : State) : State := { s with lanes := modAt s.lanes n f }

/-- The protocol of a lane's quad (R394). -/
def laneProto (w : Words) (n : Nat) : Nat := F.LANE_PROTO.get (n / 4 * 4) w
/-- RATE of a lane. -/
def laneRate (w : Words) (n : Nat) : Nat := F.LANE_RATE.get n w
/-- Whether a lane is deep (R14). -/
def laneDeep (n : Nat) : Bool := decide (n < 16)
/-- Whether a rate is PAM4 (R392). -/
def ratePam4 (r : Nat) : Bool := r == 0x0E || r == 0x0F || r == 0x10
/-- The lane PLL of a lane: two per quad (R390). -/
def pllOf (n : Nat) : Nat := n / 2

/-- The block whose power a lane follows (R19, R396). -/
def laneBlk (w : Words) (n : Nat) : Blk :=
  match laneProto w n with
  | 1 => .shaft
  | 3 => if F.LANE_PORT.get (n / 4 * 4) w = 4 then .endpoint else .recorder
  | 0 => .always
  | _ => .media

/-- Whether a lane is powered (R396, R761, R785). -/
def laneOn (n : Nat) (s : State) : Bool :=
  let w := s.cfg.accepted
  let b := laneBlk w n
  decide (n < 40) && laneRate w n != 0 && s.dev.state == .running && s.dev.powered && hasBlk b s &&
    (!s.pwr.suspended || laneProto w n == 2 || (laneProto w n == 3 && suspendKeeps b)) && !(stopping s && !stopKeeps b) &&
    !s.pwr.thermallyOff

/-- Logs a lane error (R424). -/
def laneErr (sev n kind detail : Nat) (s : State) : State := raise sev (0x0B00 + n) n [kind, detail] s

/-- A scan ends early: the points completed are kept (R420). -/
def endScan (status n : Nat) (s : State) : State :=
  modLane n (fun l => { l with scan := l.scan.map fun c =>
    if c.status = 0 then { c with status := status, stop := nowTod s } else c }) s

/-- Lanes leave the up state for their protocol's bring-up (R404, R420). -/
def restartLanes : List Nat → State → State
  | [], s => s
  | n :: r, s => restartLanes r (modLane n (fun l => { l with state := if l.state = 0 then 0 else 1 }) (endScan 2 n s))

/-! ### Groups -/

/-- A group. -/
def groupOf (g : Nat) (s : State) : LinkGroup := s.links.getD g {}
/-- Applies `f` to a group. -/
def modGroup (g : Nat) (f : LinkGroup → LinkGroup) (s : State) : State := { s with links := modAt s.links g f }
/-- Applies `f` to a link stream. -/
def modStream (g k : Nat) (f : LinkStream → LinkStream) (s : State) : State :=
  modGroup g (fun x => { x with streams := modAt x.streams k f }) s
/-- A link stream. -/
def streamOf (g k : Nat) (s : State) : LinkStream := (groupOf g s).streams.getD k {}

/-- The lanes of a group in physical order (R426). -/
def groupLanes (w : Words) (g : Nat) : List Nat := (List.range (F.LINK_WIDTH.get g w)).map (F.LINK_FIRST_LANE.get g w + ·)

/-- Whether a group is in use. -/
def groupOn (g : Nat) (s : State) : Bool :=
  decide (g < 9) && cfgB F.LINK_ENABLE g s && blkOn (if g = 8 then .cage else .shaft) s

/-- Whether a group is active (R450 step 7). -/
def groupActive (g : Nat) (s : State) : Bool := (groupOf g s).state == 5

/-- The code of a link error (R462). -/
def linkErr (g k : Nat) : Nat := 0x0C00 + 0x10 * g + k

/-- Queues a control message on a group (R440, R441). -/
def queueControl (g subtype : Nat) (ws : List Word) (s : State) : State :=
  modGroup g (fun x => { x with ctrlQ := x.ctrlQ ++ [⟨subtype, ws⟩] }) s

/-- One bit step of the cell CRC (R435). -/
def crc16Bit (c : Nat) : Nat := if 0x8000 ≤ c then (c * 2 % 0x10000) ^^^ 0x1021 else c * 2

/-- One byte step of the cell CRC, most significant bit first. -/
def crc16Byte (c : Nat) (b : Byte) : Nat :=
  crc16Bit (crc16Bit (crc16Bit (crc16Bit (crc16Bit (crc16Bit (crc16Bit (crc16Bit (c ^^^ (b.toNat * 256)))))))))

/-- The CRC of a cell over header and payload (R435). -/
def crc16 (l : List Byte) : Nat := l.foldl crc16Byte 0xFFFF

/-- A cell: header, payload of 128 bytes, CRC (R435, R436). -/
def mkCell (typ : Nat) (first last : Bool) (stream seq : Nat) (payload : List Byte) : List Byte :=
  let h := typ * 0x1000 + (if first then 0x800 else 0) + (if last then 0x400 else 0) + stream * 0x100 + seq % 256
  let body := beBytes 2 h ++ padTo 128 payload
  body ++ beBytes 2 (crc16 body)

/-- Pieces of 128 bytes; at least one. `n` bounds their number. -/
def chunks128 : Nat → List Byte → List (List Byte)
  | 0, _ => []
  | n + 1, l => if l.length ≤ 128 then [l] else l.take 128 :: chunks128 n (l.drop 128)

/-- The cells of a control message (R440). -/
def controlCells (seq : Nat) (m : CtrlMsg) : List (List Byte) :=
  let n := max 1 (ceilDiv (4 * (m.words.length + 1)) 128)
  let w0 : Word := BitVec.ofNat 32 (m.subtype * 2 ^ 24 + n * 2 ^ 16 + seq % 65536)
  let parts := chunks128 (n + 1) (wordBytes (w0 :: m.words))
  parts.zipIdx.map fun p => mkCell 2 (p.2 == 0) (p.2 + 1 == parts.length) 0 0 p.1

/-- The cells of a link command (R451): one per lane of the group in the body of its words. -/
def commandCell (cmd rate : Nat) : List Byte :=
  mkCell 6 false false 0 0 (leBytes 4 (cmd + rate * 256))

/-! ### Streams and seams -/

/-- The active seam of a body that a link stream feeds (R127, R428). -/
def streamSeam (g k : Nat) (s : State) : Option Nat :=
  let w := s.cfg.accepted
  (activeSeams w).find? fun n => F.SEAM_SRC_SRC_TYPE.on n w && F.SEAM_SRC_SRC_INDEX.get n w == 4 * g + k

/-- The link stream a body's seam takes (R127, R428). -/
def seamStream (n : Nat) (s : State) : Nat × Nat :=
  let i := cfgN F.SEAM_SRC_SRC_INDEX n s
  (i / 4, i % 4)

/-- A frame being received on a stream is dropped whole (R34, R439): counted against the seam, with DROPPED_BEFORE on
its next good frame. -/
def dropStream (g k : Nat) (s : State) : State :=
  let st := streamOf g k s
  if !st.receiving then s else
  let t := modStream g k (fun x => { x with receiving := false, admitted := false, data := [], got := 0 }) s
  match streamSeam g k s with
  | some n =>
    if st.admitted && (seamOf n t).receiving then
      modSeam n (fun x => { x with crcDiscards := x.crcDiscards + 1 }) (dropReceiving n t)
    else t
  | none => t

/-- Drops the partial frames of every stream of a group. -/
def dropStreams (g : Nat) (s : State) : State := dropStream g 3 (dropStream g 2 (dropStream g 1 (dropStream g 0 s)))

/-- A head's link streams lose every frame queued or being sent (R459). -/
def discardOut (x : LinkStream) : LinkStream :=
  let n := x.outQ.length + (if x.cells.isEmpty then 0 else 1)
  { x with outQ := [], cells := [], lost := x.lost || decide (0 < n), discarded := x.discarded + n }

/-- A group leaves the active state or its bring-up: cells in flight are lost, and control messages outstanding are kept
to be sent again (R441, R459, R461). -/
def clearFlight (st : Nat) (g : Nat) (s : State) : State :=
  modGroup g (fun x => { x with
    state := st
    downSince := if x.state = 5 then s.dev.elapsed else x.downSince
    lanes := List.replicate 8 {}
    capOk := false, creditDue := false, timeQ := [], takeQ := [], copyQ := [], cmdQ := []
    ctrlOut := false, ctrlCells := [], repeats := 0
    pos := 0, rows := 0, fillerRow := false
    streams := x.streams.map discardOut }) (dropStreams g s)

/-- A group restarts training from a step with lanes out of the up state (R450, R457). -/
def retrainFrom (st g : Nat) (s : State) : State :=
  restartLanes (groupLanes s.cfg.accepted g) (clearFlight st g s)

/-- A retrain at the current rate (R457): the error, the RETRAIN command and R450 step 2. -/
def retrain (g : Nat) (s : State) : State :=
  if (groupOf g s).state ≤ 1 then s
  else
    let t := raise 1 (linkErr g 5) g [] s
    modGroup g (fun x => { x with
      retraining := true, retrains := x.retrains + 1, lastCell := commandCell 1 x.rate }) (retrainFrom 2 g t)

/-! ### Epochs -/

/-- The epoch in force for the frames of a seam: E_s in a body (R563), EH in a head (R31), 0 in the integrated role. [DEDUCED, log 56] -/
def seamEpoch (n : Nat) (s : State) : Nat :=
  match s.dev.role with
  | .body => s.red.es.getD n 0
  | .head => s.red.eh
  | _ => 0

/-- The epoch of decode streams (R563). [DEDUCED, log 56] -/
def decodeEpoch (s : State) : Nat := if s.dev.role == .body then s.red.eb else 0

/-- Whether a body acts as primary: redundancy off, or state 5 (R558, R562). -/
def actsPrimary (s : State) : Bool := !cfgB F.RED_ENABLE 0 s || s.red.state == 5

end Sys2Proof.Machine
end

