-- ==== Sys2Proof/Machine/Island.lean ====
section
/-! DEFINITION. The Assay Island: strobes, metrology records, chains, signatures, calibration and the island messages
(chapter 15). -/

namespace Sys2Proof.Machine

/-- Applies `f` to the island. -/
def modIsl (f : Island → Island) (s : State) : State := { s with isl := f s.isl }
/-- Applies `f` to what the island keeps for a seam. -/
def modIslSeam (n : Nat) (f : IslandSeam → IslandSeam) (s : State) : State :=
  modIsl (fun i => { i with seams := modAt i.seams n f }) s
/-- What the island keeps for a seam. -/
def islSeam (n : Nat) (s : State) : IslandSeam := s.isl.seams.getD n {}

/-- A field of ASY.CFG as the island keeps it (R556). -/
def asyN (f : Fld) (s : State) : Nat := f.get 0 s.islNv.cfg

/-! ### Strobes (R533 to R537) -/

/-- A stamp rounded to 2^-4 ns and less the input's calibrated delay at the island's temperature of time `now` (R533).
[DESIGN CHOICE, log 64] [DESIGN CHOICE, log 64] -/
def islandStamp (input now : Nat) (t : Tod) : Tod :=
  todOfUnits (((todUnits t + 2048) / 4096 * 4096 : Nat) - (Config.islandDelay input now : Int))

/-- Nanoseconds between two stamps are at least `ns`. -/
def apart (ns : Nat) (a b : Tod) : Bool := decide (todUnits a + ns * 65536 ≤ todUnits b)

/-- Applies `f` to a strobe input. -/
def modStrobe (n : Nat) (f : Strobe → Strobe) (s : State) : State :=
  modIsl (fun i => { i with strobes := modAt i.strobes n f }) s

/-- An edge to level `high` of ASY_EXPn asserts by the polarity STROBE_POL gives the input (R534, R556). -/
def asserts (input : Nat) (high : Bool) (s : State) : Bool := high != (bits (asyN F.ASY_CFG_STROBE_POL s) input input == 1)

/-- What an input keeps of an edge stamped `t`: an edge that breaks the spacings counts as extra (R533, R534). [DESIGN CHOICE, log 117] -/
def takeEdge (asserting : Bool) (t : Tod) (clk : Nat) (sum : Int) (x : Strobe) : Strobe :=
  if asserting then
    if x.rising.isSome || x.fell.any (fun f => !apart 8 f t) then { x with extra := x.extra + 1 }
    else { x with rising := some (t, clk, sum) }
  else match x.rising with
    | none => { x with extra := x.extra + 1, fell := some t }
    | some (a, c, m) =>
      if apart 2 a t then { x with rising := none, fell := some t, ended := ⟨a, c, t, sum - m⟩ :: x.ended }
      else { x with rising := none, fell := some t, extra := x.extra + 1 }

/-- STROBE_EDGE (R533 to R535): an edge to level `high` of ASY_EXPn. -/
def execStrobeEdge (input : Nat) (high : Bool) (stamp : Tod) (s : State) : Res :=
  .next (if !s.isl.running then s
    else modStrobe input
      (takeEdge (asserts input high s) (islandStamp input s.dev.elapsed stamp) s.time.clk s.time.stepSum) s)

/-- The bytes of a 32-byte entry of the event log's format (R706, R531). -/
def entryBytes32 (e : LogEntry) : List Byte :=
  leBytes 12 (todPack e.time % 2 ^ 93 + b2n e.startUp * 2 ^ 93 + e.sev * 2 ^ 94) ++ leBytes 2 e.code ++ leBytes 1 e.inst ++ leBytes 1 e.start ++
    ((e.details ++ [0, 0, 0, 0]).take 4).flatMap (leBytes 4)

/-- Adds an entry to the island log: a page of 4 KiB begins with the SHA-256 of the page before it, and the log keeps its newest
62 pages (R531). [DESIGN CHOICE, log 117] -/
def pushIslandLog (e : List Byte) (l : List (List Byte)) : List (List Byte) :=
  if l.length % 128 = 0 then
    let link := if l.isEmpty then List.replicate 32 0 else sha256 ((l.drop (l.length - 128)).flatten)
    (if 62 * 128 ≤ l.length then l.drop 128 else l) ++ [link, e]
  else l ++ [e]

/-- An entry of the island log (R531): a code and its detail words. [DESIGN CHOICE, log 117] -/
def islandLog (code : Nat) (ws : List Nat) (s : State) : State :=
  { s with islNv := { s.islNv with log := pushIslandLog (entryBytes32 (mkEntry 0 code noInst ws s)) s.islNv.log } }

/-- PPS_IN_EDGE (R533, R537): the offset from the nearest whole second, in ps. -/
def execPpsInEdge (stamp : Tod) (s : State) : Res :=
  let t := islandStamp 4 s.dev.elapsed stamp
  let half := unitsPerSec / 2
  let o : Int := ((todUnits t + half) % unitsPerSec : Nat) - (half : Nat)
  .next (if !s.isl.running || asyN F.ASY_CFG_PPS_IN_EN s == 0 then s
    else if s.isl.ppsIn.any (fun f => !apart 8 f t) then modIsl (fun i => { i with ppsExtra := i.ppsExtra + 1 }) s
    else
      let ps := o * 1000 / 65536
      let u := todPack t
      islandLog 0 [toField 32 ps, u % 2 ^ 32, u / 2 ^ 32 % 2 ^ 32, u / 2 ^ 64]
        (modIsl (fun i => { i with ppsIn := some t, ppsOffset := ps }) s))

/-- PPS_OUT_SECOND (R537): ASY_PPS_OUT rises at the whole second for PPS_WIDTH_MS. -/
def execPpsOutSecond (s : State) : Res :=
  .next (if s.isl.running && asyN F.ASY_CFG_PPS_OUT_EN s == 1 && !s.isl.ppsOff then
    modIsl (fun i => { i with ppsOut := some ⟨s.time.sec, 0⟩ }) s else s)

/-- The level of ASY_PPS_OUT (R537). -/
def ppsLevel (s : State) : Bool :=
  match s.isl.ppsOut with
  | some t => decide (todUnits t ≤ todUnits (nowTod s) ∧
      todUnits (nowTod s) < todUnits t + asyN F.ASY_CFG_PPS_WIDTH_MS s * 1000000 * 65536)
  | none => false

/-! ### Records (R541 to R546) -/

/-- Whether the island makes records for a seam: port-sourced, integrated or head role (R541). [DEDUCED, log 66] -/
def recordsFor (n : Nat) (s : State) : Bool :=
  s.isl.running && s.dev.role != .body && seamActive s.cfg.accepted n && !cfgB F.SEAM_SRC_SRC_TYPE n s

/-- METRO_INDEX of a frame (R528, R541). [DEDUCED, log 66] -/
def metroIndex (num : Nat) (s : State) : Nat := if s.isl.running then num % 2 ^ 32 else 0xFFFFFFFF

/-- The duration of a pulse in 2^-4 ns, less the steps applied within it (R535). -/
def pulseDuration (p : Pulse) : Nat := (((todUnits p.stop : Int) - todUnits p.start - p.stepped) / 4096).toNat

/-- Opens the record of a frame at its FV rise: the newest pulse that ended since the last FV rise (R534 to R536). -/
def openRecord (n port num tag : Nat) (exp : Tod) (s : State) : State :=
  if !recordsFor n s then s else
  let x := s.isl.strobes.getD port {}
  let on := bits (asyN F.ASY_CFG_STROBE_EN s) port port == 1
  let cal := if s.isl.calOk then 0 else 16
  let extra := if on ∧ (0 < x.extra ∨ 1 < x.ended.length) then 8 else 0
  let s := modStrobe port (fun y => { y with ended := [], extra := 0 }) s
  let s := if extra ≠ 0 then raiseOnce 0 0x0F05 n [] s else s
  match on, x.ended with
  | true, p :: _ =>
    let s := if extra = 0 then endRun 0x0F05 n s else s
    modIslSeam n (fun y => { y with opened := y.opened ++ [⟨num, tag, p.start, p.clk, pulseDuration p, extra + cal, none⟩] }) s
  | _, _ =>
    let s := raiseOnce 0 0x0F05 n [] (modIsl (fun i => { i with absents := wrapInc 32 i.absents }) s)
    modIslSeam n (fun y => { y with opened := y.opened ++ [⟨num, tag, exp, s.time.clk, 0, 3 + extra + cal, none⟩] }) s

/-- Bytes 0x00 to 0x33 of a record (R543). -/
def recordHead (n : Nat) (r : OpenRecord) (s : State) : List Byte :=
  let dig := r.digest.getD []
  let flags := r.flags + (if dig.isEmpty then 4 else 0)
  leBytes 8 r.num ++ leBytes 12 (todPack r.start + r.clk * 2 ^ 94) ++ leBytes 6 (r.duration % 2 ^ 40 + flags * 2 ^ 40) ++
    leBytes 2 r.tag ++ leBytes 2 s.islNv.sealCount ++ leBytes 2 (n + (if s.dev.role == .head then 8 else 0)) ++
    leBytes 4 s.islNv.boot ++ padTo 16 dig

/-- The seam of an entry. -/
def IslandEntry.seam : IslandEntry → Nat
  | .record n _ _ => n
  | .sign n _ _ _ => n

/-- Writes an entry to the record ring; one overwritten before a reader of its seam has read it is logged (R546). The
transmitter reads a frame's record at the frame's release. [DESIGN CHOICE, log 117] -/
def pushIsland (e : IslandEntry) (s : State) : State :=
  let lost : Bool := match (s.isl.ring.drop 65535).head? with
    | some old => [s.isl.metaRead, s.isl.msgRead].any fun l => match l.getD old.seam none with
      | some k => decide (k + 65536 ≤ s.isl.written)
      | none => false
    | none => false
  let t := modIsl (fun i => { i with ring := (e :: i.ring).take 65536, written := i.written + 1 }) s
  if lost = true then raise 1 0x0F07 noInst [] t else t

/-- Chains one closed record: bytes 0x00 to 0x3F and C_i (R543, R545). -/
def chainRecord (n : Nat) (r : OpenRecord) (s : State) : State :=
  let head := recordHead n r s
  let c := sha256 ((islSeam n s).chain ++ head)
  let body := head ++ c.take 8
  let t := modIslSeam n (fun y => { y with
    chain := c, first := if y.count = 0 then r.num else y.first, last := r.num, count := y.count + 1
    since := if y.count = 0 then s.dev.elapsed else y.since }) s
  pushIsland (.record n r.num (body ++ leBytes 4 (crc32 body))) (modIsl (fun i => { i with records := wrapInc 32 i.records }) t)

/-- Chains the records at the front that have closed, in frame-number order (R545); at most `k` of them. -/
def chainClosed (n : Nat) : Nat → State → State
  | 0, s => s
  | k + 1, s =>
    match (islSeam n s).opened with
    | [] => s
    | r :: rest =>
      if r.digest.isNone then s
      else chainClosed n k (chainRecord n r (modIslSeam n (fun y => { y with opened := rest }) s))

/-- A record closes with a digest, empty for a dropped frame (R542). -/
def closeRecord (n num : Nat) (dig : List Byte) (s : State) : State :=
  if (islSeam n s).opened.isEmpty then s else
  let t := modIslSeam n (fun y => { y with opened := y.opened.map fun r =>
    if r.num = num ∧ r.digest.isNone then { r with digest := some dig } else r }) s
  chainClosed n ((islSeam n t).opened.length) t

/-- The frame digest over samples in raster order, each a 16-bit container (R541). -/
def frameDigest (p : Plane) : List Byte := (sha256 (p.flatMap fun l => l.flatMap (leBytes 2))).take 16

/-- The record of a frame as its seam's ring holds it: 64 zero bytes where there is none. -/
def recordOf (n num : Nat) (s : State) : List Byte :=
  match s.isl.ring.find? fun e => match e with
    | .record m k _ => m == n && k == num
    | _ => false with
  | some (.record _ _ b) => b
  | _ => List.replicate 64 0

/-! ### Signing (R547 to R550) -/

/-- The 80 signed bytes of a signature record (R548). [DEDUCED, log 66] -/
def signHead (n first last flags : Nat) (chain : List Byte) (s : State) : List Byte :=
  leBytes 4 (2 ^ 24 + n * 2 ^ 16 + s.islNv.sealCount) ++ leBytes 8 s.otp.serial ++ leBytes 4 s.islNv.boot ++ leBytes 8 first ++
    leBytes 8 last ++ chain ++ leBytes 12 (todPack (nowTod s) + s.time.clk * 2 ^ 94) ++ leBytes 4 flags

/-- The words of a control message of subtype 0x05 (R551). -/
def evidenceWords (kind : Nat) (b : List Byte) : List Word :=
  (kind :: b.length :: words32 (b ++ List.replicate ((4 - b.length % 4) % 4) 0)).map (BitVec.ofNat 32)

/-- A head sends evidence to every active group (R551). -/
def sendEvidence (kind : Nat) (b : List Byte) (s : State) : State :=
  if s.dev.role == .head then
    ((List.range 8).filter fun g => groupActive g s).foldl (fun t g => queueControl g 5 (evidenceWords kind b) t) s
  else s

/-- Signs a seam: every record chained and unsigned, with the flags of word 0x4C beyond bit 0 (R547, R548). -/
def signSeam (n flags : Nat) (start : Bool) (s : State) : State :=
  let x := islSeam n s
  let c := if start then List.replicate 32 0 else x.chain
  let (a, b) := if start ∨ x.count = 0 then (0, 0) else (x.first, x.last)
  let head := signHead n a b (flags + b2n s.isl.calOk) c s
  let rec_ := head ++ ecdsaSign (Config.islandKey s.otp.serial) (Config.ecdsaSecret s.drawn) head
  let t := modIslSeam n (fun y => { y with count := 0 }) (drawOne s)
  sendEvidence 1 rec_ (pushIsland (.sign n a b rec_) (modIsl (fun i => { i with signatures := wrapInc 32 i.signatures }) t))

/-- The active port-sourced seams (R549). -/
def portSeams (s : State) : List Nat := (List.range 8).filter fun n => recordsFor n s

/-- Signs each seam of a list. [DEDUCED, log 66] -/
def signAll (flags : Nat) (start : Bool) (ns : List Nat) (s : State) : State := ns.foldl (fun t n => signSeam n flags start t) s

/-- ISLAND_SIGNATURE (R547): the first due seam in seam order is signed. -/
def execIslandSignature (s : State) : Res :=
  let every := asyN F.ASY_CFG_SIGN_EVERY s
  .next (match (portSeams s).find? fun n => decide (every ≤ (islSeam n s).count ∧ 0 < (islSeam n s).count) with
  | none => s
  | some n =>
    let t := if every < (islSeam n s).count then raiseOnce 0 0x0F06 n [] s else endRun 0x0F06 n s
    signSeam n 0 false t)

/-! ### Role start (R528 to R532, R540, R549) -/

/-- Whether a verification passes: on each of the six inputs the mean error and the spread found, in ps, are within their limits
(R540). What it finds is a free value. [DESIGN CHOICE, log 64] -/
def calibrationOk (n : Nat) : Bool :=
  (List.range 6).all fun i => decide ((Config.edgeError n i).natAbs ≤ 250 ∧ Config.edgeSpread n i ≤ 150)

/-- A verification of the calibration (R540). [DESIGN CHOICE, log 64] -/
def verifyCal (s : State) : State :=
  let ok := calibrationOk s.drawn
  let t := islandLog 0x0F04 [b2n ok] (modIsl (fun i => { i with calOk := ok }) (drawOne s))
  if ok then t else raise 1 0x0F04 noInst [] t

/-- The signed bytes of the sealed state block (R531). [DESIGN CHOICE, log 117] -/
def sealBytes (d : List Byte) (counter boot : Nat) : List Byte := d ++ leBytes 2 counter ++ leBytes 4 boot

/-- The firmware digest of the sealed state block; none when the block is missing or fails its signature (R530). -/
def sealedFirmware (s : State) : Option (List Byte) :=
  match s.islNv.block with
  | some b =>
    if ecdsaVerify (publicKey (Config.islandKey s.otp.serial)) (sealBytes b.firmware b.counter b.boot) b.sig then some b.firmware else none
  | none => none

/-- The boot counter counts and the state block is written for a firmware digest; a changed one steps the seal counter
(R530 to R532). [DEDUCED, log 65] -/
def sealAtStart (change : Bool) (d : List Byte) (s : State) : State :=
  let c := if change then s.islNv.sealCount + 1 else s.islNv.sealCount
  let b := wrapInc 32 s.islNv.boot
  let sig := ecdsaSign (Config.islandKey s.otp.serial) (Config.ecdsaSecret s.drawn) (sealBytes d c b)
  drawOne { s with islNv := { s.islNv with boot := b, block := some ⟨d, c, b, sig⟩, sealCount := c } }

/-- The island at role start: the seal check, the boot count, the calibration and the chain-start signatures. `fw` is the
body digest of its verified firmware image; none when it was refused. [DEDUCED, log 65] -/
def islandStart (fw : Option (List Byte)) (supply : Bool) (s : State) : State :=
  let s := { s with isl := {} }
  match fw with
  | none => raise 1 0x0F02 noInst [] s
  | some d =>
    let change := sealedFirmware s != some d
    if !supply || (change && decide (0xFFFF ≤ s.islNv.sealCount)) then raise 1 0x0F02 noInst [] s
    else
      let s := sealAtStart change d s
      let s := if change then raise 0 0x0F03 noInst [] (islandLog 0x0F03 [s.islNv.sealCount] s) else s
      let s := verifyCal (modIsl (fun i => { i with running := true }) s)
      signAll 2 true (portSeams s) s

/-! ### Evidence of a head at the body (R551) -/

/-- Evidence is kept for the recorder as the record ring keeps a head's own: the last 65,536 entries (R546, R551). [DEDUCED, log 35] -/
def keepEvidence (n : Nat) (b : List Byte) (l : List (Nat × List Byte)) : List (Nat × List Byte) :=
  (l ++ [(n, b)]).drop (l.length + 1 - 65536)

/-- The body keeps a head record as it arrived, and its island, while it runs, checks the CRC and the chain. [DEDUCED, log 35] -/
def takeHeadRecord (n : Nat) (b : List Byte) (s : State) : State :=
  let h := s.isl.heads.getD n {}
  let crcOk := crc32 (b.take 60) == fieldAt b 60 4
  let num := fieldAt b 0 8
  let c := match h.chains with
    | (_, c) :: _ => c
    | [] => List.replicate 32 0
  let c' := sha256 (c ++ b.take 52)
  let ok := crcOk && (!h.known || c'.take 8 == slice b 52 8)
  let t := modIsl (fun i => { i with
    heads := modAt i.heads n fun x => { x with chains := ((num, c') :: x.chains).take 65536 }
    headEvidence := keepEvidence n b i.headEvidence }) s
  if ok || !s.isl.running then t else raise 1 0x0F08 n [] t

/-- The body's island verifies a head's signature record against its certificate and the chain. A chain joined in its course is
known from the C field of a verified signature over its newest record on. [DEDUCED, log 35] -/
def takeHeadSignature (g : Nat) (seamOf_ : Nat → Option Nat) (b : List Byte) (s : State) : State :=
  let hs := bits (fieldAt b 0 4) 18 16
  match seamOf_ hs with
  | none => s
  | some n =>
    let cert := s.isl.headCerts.getD g []
    let start := bits (fieldAt b 0x4C 4) 1 1 == 1
    let last := fieldAt b 0x18 8
    let h := s.isl.heads.getD n {}
    let sigOk := cert.length == 248 && ecdsaVerify (slice cert 0x18 64) (b.take 80) (slice b 80 64)
    let chainOk := start || !h.known || (match h.chains.lookup last with
      | some c => c == slice b 0x20 32
      | none => true)
    let joins := !h.known && sigOk && (h.chains.head?.map (·.1)) == some last
    let t := modIsl (fun i => { i with
      headEvidence := keepEvidence n b i.headEvidence
      heads := modAt i.heads n fun x =>
        if start then { chains := [], known := true } else if joins then { chains := [(last, slice b 0x20 32)], known := true } else x }) s
    if (sigOk && chainOk) || !s.isl.running then t else raise 1 0x0F08 n [] t

/-! ### Messages (R555) -/

/-- Message 0x0F00: island status. -/
def islandStatusMsg : MsgDef :=
  { act := fun _ _ s =>
      let fw := (s.islNv.block.map (·.firmware)).getD []
      (.accept [s.islNv.sealCount + s.time.clk * 2 ^ 16 + b2n s.isl.calOk * 2 ^ 18 + b2n s.isl.running * 2 ^ 19, s.islNv.boot,
        s.isl.records, s.isl.signatures, s.isl.absents, toField 32 s.isl.ppsOffset,
        bits ((s.cfg.images.getD 3 {}).version) 31 24 % 16 + fieldAt fw 0 2 * 2 ^ 16], s) }

/-- A seam's entries still in the ring from a frame number on, oldest first, each signature after its last record (R555). -/
def entriesFrom (n from_ : Nat) (s : State) : List IslandEntry :=
  s.isl.ring.reverse.filter fun e => match e with
    | .record m k _ => m == n && decide (from_ ≤ k)
    | .sign m _ l _ => m == n && decide (from_ ≤ l)

/-- The bytes of an entry. -/
def IslandEntry.bytes : IslandEntry → List Byte
  | .record _ _ b => b
  | .sign _ _ _ b => b

/-- The entries copied: until the record count or the end of the window (R555). -/
def takeEntries : List IslandEntry → Nat → Nat → List IslandEntry
  | [], _, _ => []
  | .record n k b :: r, cnt, room =>
    if cnt = 0 ∨ room < b.length then [] else .record n k b :: takeEntries r (cnt - 1) (room - b.length)
  | .sign n i j b :: r, cnt, room => if room < b.length then [] else .sign n i j b :: takeEntries r cnt (room - b.length)

/-- The frame numbers of the records among entries. -/
def recordNums (es : List IslandEntry) : List Nat :=
  es.filterMap fun e => match e with
    | .record _ k _ => some k
    | .sign _ _ _ _ => none

/-- Message 0x0F01 has read a seam's entries up to the last it copied (R546). [DESIGN CHOICE, log 117] -/
def noteRead (n : Nat) (es : List IslandEntry) (s : State) : State :=
  match es.getLast? with
  | some e => modIsl (fun i => { i with msgRead := modAt i.msgRead n fun _ => some (i.written - i.ring.findIdx (· == e)) }) s
  | none => s

/-- Message 0x0F01: record read. -/
def recordReadMsg : MsgDef :=
  { count := fun c => c == 6, masks := [7, 0xFFFFFFFF, 0xFFFFFFFF, 0xFFFFFFFF, 0x7FFF],
    bad := fun r _ => r.w 4 % 64 != 0 || decide (r.w 5 < 1 ∨ 16384 < r.w 5 ∨ 0x100000 < r.w 4),
    act := fun r _ s =>
      if !holdsBulk r.path s then (.refuse 5 0 0, s)
      else
        let es := takeEntries (entriesFrom (r.w 1) (r.w 2 + r.w 3 * 2 ^ 32) s) (r.w 5) (0x100000 - r.w 4)
        let b := es.flatMap IslandEntry.bytes
        let f := (recordNums es).headD 0
        (.accept [(recordNums es).length, f % 2 ^ 32, f / 2 ^ 32, b.length], noteRead (r.w 1) es (writeBulk (r.w 4) b s)) }

/-- Message 0x0F02: certificate read. -/
def islandCertMsg : MsgDef :=
  { count := fun c => c == 2, bad := fun r _ => decide (0x100000 < r.w 1 + 248),
    act := fun r _ s =>
      if !holdsBulk r.path s then (.refuse 5 0 0, s)
      else (.accept [s.islNv.cert.length], writeBulk (r.w 1) s.islNv.cert s) }

/-- Message 0x0F03: verify calibration. -/
def verifyCalMsg : MsgDef :=
  { deny := fun _ s => !s.isl.running,
    act := fun _ _ s =>
      let t := verifyCal s
      (.accept [b2n t.isl.calOk], t) }

/-- Message 0x0F04: sign now. [DEDUCED, log 66] -/
def signNowMsg : MsgDef :=
  { count := fun c => c == 2, masks := [7], deny := fun _ s => !s.isl.running,
    act := fun r _ s =>
      if !recordsFor (r.w 1) s then (.refuse 7 0 0, s)
      else
        let l := (islSeam (r.w 1) s).last
        (.accept [l % 2 ^ 32, l / 2 ^ 32], signSeam (r.w 1) 8 false s) }

/-- Message 0x0F08: island settings (R550, R555, R556). [DEDUCED, log 67] -/
def islandSettingsMsg : MsgDef :=
  { count := fun c => c == 3, masks := [0xEFF007FF, 0xFFFF0000], priv := .must, deny := fun _ s => !s.isl.running,
    act := fun r _ s =>
      let e := bits (r.w 1) 10 0
      let p := bits (r.w 2) 31 16
      if e < 1 ∨ 1024 < e ∨ p < 1 ∨ 900 < p then (.refuse 7 0x0F09 0, raise 0 0x0F09 noInst [] s)
      else
        let t := signAll 4 false (portSeams s) s
        (.accept [], islandLog 0x0F08 [r.w 1, r.w 2]
          { t with islNv := { t.islNv with cfg := setWord (wordKey 0x0F00 0) (r.w 1) (setWord (wordKey 0x0F00 1) (r.w 2) t.islNv.cfg) } }) }

end Sys2Proof.Machine
end

