-- ==== Sys2Proof/Machine/Lanes.lean ====
section
/-! DEFINITION. Serial lanes: configuration checks, bring-up, equalisation, faults, eye scans and the lane message
(chapter 11). -/

namespace Sys2Proof.Machine

/-! ### Checks (R392, R394 to R400, R406) -/

/-- Whether a quad (DQ0 to DQ3, then SQ0 to SQ5) may carry a protocol (R394). -/
def quadAllows (q proto : Nat) : Bool :=
  proto == 0 || proto == 2 || (proto == 1 && decide (q < 4)) || (proto == 3 && decide (4 ≤ q ∧ q < 9)) || (proto == 4 && q == 9)

/-- Whether a rate is permitted for a lane's kind and its quad's protocol (R392, R396). -/
def rateAllows (deep : Bool) (proto r : Nat) : Bool :=
  r == 0 ||
  match proto with
  | 0 => decide (r ≤ 0x11) && (if deep then decide (0x0C ≤ r) else !ratePam4 r)
  | 1 => r == 0x0C || r == 0x0D || r == 0x0E || r == 0x10
  | 2 => if deep then r == 0x0F else r == 0x0C || r == 0x0D
  | 3 => decide (1 ≤ r ∧ r ≤ 5)
  | 4 => decide (6 ≤ r ∧ r ≤ 0x0B)
  | _ => false

/-- The coefficients of a lane's page (R425). -/
def pageCoeffs (w : Words) (n : Nat) : List Int :=
  [F.LANE_C_M3.getS n w, F.LANE_C_M2.getS n w, F.LANE_C_M1.getS n w, F.LANE_C0.getS n w, F.LANE_C_P1.getS n w]

/-- The limits of R406. -/
def coeffsOk (deep : Bool) (c : List Int) : Bool :=
  decide ((c.map Int.natAbs).sum ≤ 64) && decide (16 ≤ c.getD 3 0) && (deep || (c.getD 0 0 == 0 && c.getD 1 0 == 0))

/-- FEC as R399 permits it. -/
def fecOk (rate fec : Nat) : Bool :=
  fec == 3 || (if rate = 0x0F then fec == 2 else if rate = 0x0C then fec == 0 || fec == 1 else true)

/-- Whether a lane's own settings are valid (R392, R395, R399, R406, R425). -/
def laneOk (w : Words) (n : Nat) : Bool :=
  let p := laneProto w n
  let r := laneRate w n
  let los := F.LANE_LOS_MV.get n w
  rateAllows (laneDeep n) p r && coeffsOk (laneDeep n) (pageCoeffs w n) && decide (20 ≤ los ∧ los ≤ 200) &&
    (n % 4 == 0 || F.LANE_PROTO.get n w == 0) && (p != 2 || r == 0 || fecOk r (F.LANE_FEC.get n w))

/-- What an assignable unit a lane or quad claims: (2, MAC), (3, PCIe port). -/
def claimOf (w : Words) (n : Nat) : Option (Nat × Nat) :=
  match laneProto w n with
  | 2 => if laneRate w n = 0 then none else some (2, F.LANE_PORT.get n w)
  | 3 => if n % 4 = 0 then some (3, F.LANE_PORT.get n w) else none
  | _ => none

/-- Whether a quad is valid (R394, R395, R398, R400). -/
def quadOk (role : Role) (w : Words) (q : Nat) : Bool :=
  let p := laneProto w (4 * q)
  let ls := [4 * q, 4 * q + 1, 4 * q + 2, 4 * q + 3]
  let pair := fun a b => laneRate w a == 0 || laneRate w b == 0 || laneRate w a == laneRate w b
  quadAllows q p && (role != .head || p == 0 || p == 1) && ls.all (laneOk w) &&
    pair (4 * q) (4 * q + 1) && pair (4 * q + 2) (4 * q + 3) &&
    (p != 3 || (laneRate w (4 * q) != 0 && ls.all (fun l => laneRate w l == laneRate w (4 * q)))) &&
    ls.all fun l => match claimOf w l with
      | some c => decide (c.2 < (if c.1 = 2 then 4 else 5)) && (List.range l).all fun m => claimOf w m != some c
      | none => true

/-- The configuration checks of the lanes, logged at the quad's first lane (R395, R424). -/
def laneChecks (role : Role) (w : Words) : List (Nat × Nat × List Nat) :=
  (List.range 10).filterMap fun q => if quadOk role w q then none else some (0x0B00 + 4 * q, 4 * q, [1])

/-! ### Start -/

/-- The lanes as a role start leaves them: powered lanes begin bring-up, test lanes enter the test state (R396, R404). [DEDUCED, log 10] -/
def lanesAtStart (s : State) : List Lane :=
  (List.range 40).map fun n =>
    if !laneOn n s then {} else
    { state := if laneProto s.cfg.accepted n = 0 then 5 else 1
      coeffs := if laneProto s.cfg.accepted n = 3 then [] else pageCoeffs s.cfg.accepted n
      ctle := F.LANE_CTLE_SET.get n s.cfg.accepted }

/-! ### PLLs (R391) -/

/-- The lanes of a PLL: quad `q`, PLL A or B. -/
def pllLanes (q : Nat) (b : Bool) : List Nat := if b then [4 * q + 2, 4 * q + 3] else [4 * q, 4 * q + 1]

/-- Sets or clears a fault bit of the lanes of a list. -/
def setFault (bit : Nat) (on : Bool) (l : Lane) : Lane :=
  { l with faults := l.faults - (if bits l.faults bit bit = 1 then 2 ^ bit else 0) + (if on then 2 ^ bit else 0) }

/-- LANE_PLL_LOCK (R391): a lane PLL that is in use locks. -/
def execLanePllLock (quad : Nat) (ab : Bool) (s : State) : Res :=
  let ls := pllLanes quad ab
  .next (if quad < 10 ∧ ls.any (fun n => laneOn n s) then
    let t := { s with plls := modAt s.plls (2 * quad + b2n ab) fun _ => true }
    { t with lanes := modMany ls (setFault 0 false) t.lanes }
  else s)

/-- The lanes of a lost PLL: idle transmitters, the fault and the error, lane by lane. -/
def losePll : List Nat → State → State
  | [], s => s
  | n :: r, s =>
    losePll r (if laneOn n s then
      laneErr 1 n 2 0 (modLane n (fun l => { setFault 0 true l with state := if l.state = 5 then 5 else 1 }) (endScan 2 n s))
    else s)

/-- LANE_PLL_RELOCK (R391): an attempt every 10 ms; the protocol restarts bring-up once lock returns. -/
def execLanePllRelock (quad : Nat) (ab locked : Bool) (s : State) : Res :=
  let ls := pllLanes quad ab
  .next (if quad < 10 ∧ locked ∧ ls.any (fun n => laneOn n s) then
    let t := { s with plls := modAt s.plls (2 * quad + b2n ab) fun _ => true }
    { t with lanes := modMany ls (setFault 0 false) t.lanes }
  else s)

/-! ### Bring-up (R404, R405, R409, R412) -/

/-- The CTLE setting with the largest metric, the lower of two equal ones (R409). [DESIGN CHOICE, log 52] -/
def bestCtle (ms : List Nat) : Nat :=
  (ms.zipIdx.foldl (fun best m => if best.1 < m.1 then m else best) (ms.headD 0, 0)).2

/-- A coefficient request moves one coefficient by one count; one that would break R406 is answered as a limit (R407). -/
def stepCoeff (n tap dir : Nat) (s : State) : Nat × State :=
  let c := (laneOf n s).coeffs
  let d : Int := if dir = 1 then 1 else if dir = 2 then -1 else 0
  let c' := modAt c (tap - 1) (· + d)
  if coeffsOk (laneDeep n) c' then (1, modLane n (fun l => { l with coeffs := c' }) s) else (2, s)

/-- What Ethernet training asks of a lane's transmitter (R393, R399, R407). -/
def ethernetTraining (n : Nat) (obs : LaneObs) (s : State) : State :=
  if laneProto s.cfg.accepted n = 2 ∧ F.LANE_TRAIN_EN.on n s.cfg.accepted then
    modLane n (fun l => { l with precode := obs.precode && ratePam4 (laneRate s.cfg.accepted n) })
      (obs.requests.foldl (fun t r => (stepCoeff n r.1 r.2 t).2) s)
  else modLane n (fun l => { l with precode := false }) s

/-- A fully reversed order of a PCIe link is logged at its first lane (R413). -/
def pcieOrder (n : Nat) (obs : LaneObs) (s : State) : State :=
  if laneProto s.cfg.accepted n = 3 then
    let t := modLane n (fun l => { l with order := obs.order }) s
    if obs.order && n % 4 == 0 then laneErr 0 n 8 0 t else t
  else s

/-- Bring-up adaptation and the result of the protocol's polarity detection, then the up state; a Shaft Link lane stays
in bring-up until its group's training ends (R404 steps 4 to 6, R409, R412). [DESIGN CHOICE, log 52] -/
def adaptLane (n : Nat) (obs : LaneObs) (s : State) : State :=
  let w := s.cfg.accepted
  let p := laneProto w n
  let fixed := F.LANE_CTLE_FIXED.on n w
  let ctle := if fixed then F.LANE_CTLE_SET.get n w else bestCtle (obs.metrics.take 16)
  let flip := obs.reversed && F.LANE_POL_AUTO.on n w && (p == 3 || (p == 2 && F.LANE_TRAIN_EN.on n w))
  let t := modLane n (fun l => { l with
    receiver := obs.receiver, signal := true, ctle := ctle
    dfe := (obs.dfe.take (if laneDeep n then 12 else 6) ++ List.replicate 12 0).take 12 |>.map (clampI (-128) 127)
    metric := obs.metrics.getD ctle 0, reversal := flip
    state := if p = 1 then l.state else if p = 0 then 5 else 2 }) s
  let t := pcieOrder n obs (ethernetTraining n obs t)
  if flip then laneErr 0 n 7 0 t else t

/-- LANE_BRING_UP (R404). -/
def execLaneBringUp (lane : Nat) (obs : LaneObs) (s : State) : Res :=
  let w := s.cfg.accepted
  let p := laneProto w lane
  .next (if !laneOn lane s || !s.plls.getD (pllOf lane) false || (laneOf lane s).idle then s
    else if p = 4 then modLane lane (fun l => { l with receiver := obs.receiver, state := 2 }) s
    else if !obs.receiver && (p == 1 || p == 3) then
      laneErr 1 lane 3 0 (modLane lane (fun l => { l with receiver := false, signal := false, state := 1 }) (endScan 2 lane s))
    else if !obs.signal then
      modLane lane (fun l => { l with receiver := obs.receiver, signal := false, state := if p = 0 then 5 else 1 })
        (endScan 2 lane s)
    else adaptLane lane obs (if (laneOf lane s).state = 2 then endScan 2 lane s else s))

/-- SIGNAL_DETECT (R404): the signal detector reports signal during bring-up. [DESIGN CHOICE, log 106] -/
def execSignalDetect (lane : Nat) (s : State) : Res :=
  .next (if laneOn lane s then
    modLane lane (fun l => { l with signal := true, state := if l.state = 3 then 1 else l.state }) s else s)

/-! ### Continuous adaptation (R410, R411) -/

/-- Whether a lane's equaliser is adapting: ADAPT is 1 and the lane is up, or in the test state with signal. -/
def adapting (n : Nat) (s : State) : Bool :=
  let l := laneOf n s
  laneOn n s && cfgB F.LANE_ADAPT n s && (l.state == 2 || (l.state == 5 && l.signal))

/-- Whether an equaliser value stands at the end of its range. -/
def atEnd (n : Nat) (l : Lane) : Bool :=
  l.ctle == 0 || l.ctle == 15 || (l.dfe.take (if laneDeep n then 12 else 6)).any fun d => d == -128 || d == 127

/-- Once every value has left the limits, the next one that reaches one is logged again (R411). -/
def leaveLimit (n : Nat) (l : Lane) : Lane := if atEnd n l then l else setFault 5 false l

/-- DFE_UPDATE (R410): one sign-sign LMS step. -/
def execDfeUpdate (lane : Nat) (signs : List Int) (gainSign : Int) (s : State) : Res :=
  let taps := if laneDeep lane then 12 else 6
  .next (if adapting lane s then
    modLane lane (fun l => leaveLimit lane { l with
      dfe := l.dfe.zipIdx.map fun x => if x.2 < taps then clampI (-128) 127 (x.1 + Int.sign (signs.getD x.2 0)) else x.1
      gain := l.gain + Int.sign gainSign }) s else s)

/-- CTLE_UPDATE (R410): one step where the metric is at least 10 % larger; of two such neighbours the better. -/
def execCtleUpdate (lane below here above : Nat) (s : State) : Res :=
  .next (if adapting lane s then
    modLane lane (fun l =>
      let up := decide (l.ctle < 15) && decide (11 * here ≤ 10 * above)
      let down := decide (0 < l.ctle) && decide (11 * here ≤ 10 * below)
      leaveLimit lane (if up && (!down || decide (below ≤ above)) then { l with ctle := l.ctle + 1, metric := above }
        else if down then { l with ctle := l.ctle - 1, metric := below }
        else { l with metric := here })) s else s)

/-- ADAPTATION_AT_LIMIT (R411): logged once until the value has left the limit. -/
def execAdaptationAtLimit (lane : Nat) (s : State) : Res :=
  let l := laneOf lane s
  .next (if adapting lane s && atEnd lane l && bits l.faults 5 5 == 0 then
    laneErr 0 lane 9 0 (modLane lane (setFault 5 true) s) else s)

/-! ### Faults (R415, R416) -/

/-- Logs a lane fault when it begins (R416). -/
def beginFault (lane bit kind sev detail : Nat) (s : State) : State :=
  if bits (laneOf lane s).faults bit bit = 1 then s
  else laneErr sev lane kind detail (modLane lane (setFault bit true) s)

/-- TRANSMITTER_LEG_FAULT (R415): the transmitter goes to electrical idle. [DESIGN CHOICE, log 106] -/
def execTransmitterLegFault (lane : Nat) (legsTogether : Bool) (s : State) : Res :=
  .next (if laneOn lane s then
    modLane lane (fun l => { l with idle := true, idleAt := s.dev.elapsed, state := 4 })
      (endScan 2 lane (beginFault lane (if legsTogether then 2 else 1) 5 1 (b2n legsTogether) s))
  else s)

/-- TRANSMITTER_RETRY (R416): an idled transmitter tries again at most once every 100 ms. -/
def execTransmitterRetry (lane : Nat) (s : State) : Res :=
  let l := laneOf lane s
  .next (if laneOn lane s && l.idle && decide (l.idleAt + 100 * ticksPerMs ≤ s.dev.elapsed) then
    modLane lane (fun x => { x with idle := false, state := if laneProto s.cfg.accepted lane = 0 then 5 else 1 }) s else s)

/-- The bit of a fault in word 6 of the lane status (R423). -/
def faultBit : LaneFault → Nat
  | .pll => 0
  | .legShort => 1
  | .legsShorted => 2
  | .signal => 3
  | .commonMode => 4
  | .atLimit => 5

/-- LANE_FAULT_END (R416): the lane stops reporting the fault. -/
def execLaneFaultEnd (lane : Nat) (f : LaneFault) (s : State) : Res :=
  .next (if laneOn lane s then modLane lane (setFault (faultBit f) false) s else s)

/-! ### Eye scans (R417 to R421) -/

/-- Symbols per second of a rate, in units of 1/1001 Bd (R392). -/
def rateBaud1001 (r : Nat) : Nat :=
  match r with
  | 0x01 => 2500000000 * 1001
  | 0x02 => 5000000000 * 1001
  | 0x03 => 8000000000 * 1001
  | 0x04 => 16000000000 * 1001
  | 0x05 => 32000000000 * 1001
  | 0x06 => 2970000000 * 1001
  | 0x07 => 2970000000 * 1000
  | 0x08 => 5940000000 * 1001
  | 0x09 => 5940000000 * 1000
  | 0x0A => 11880000000 * 1001
  | 0x0B => 11880000000 * 1000
  | 0x0C => 10312500000 * 1001
  | 0x0D => 25781250000 * 1001
  | 0x0E => 26562500000 * 1001
  | 0x0F => 53125000000 * 1001
  | 0x10 => 56250000000 * 1001
  | 0x11 => 1250000000 * 1001
  | _ => 1001

/-- The rate a lane runs at: a Shaft Link lane runs at its group's rate (R392). -/
def rateInForce (n : Nat) (s : State) : Nat :=
  let w := s.cfg.accepted
  match (List.range 9).find? fun g => F.LINK_ENABLE.on g w && (groupLanes w g).contains n with
  | some g => if laneProto w n = 1 ∧ (groupOf g s).state ≠ 0 then (groupOf g s).rate else laneRate w n
  | none => laneRate w n

/-- Grid columns and rows (R418). -/
def scanCols (h : Nat) : Nat := 63 / h + 1
/-- Grid rows (R418). -/
def scanRows (v : Nat) : Nat := 254 / v + 1

/-- The estimated duration of a scan in ms, rounded up (R418, R423). -/
def scanMs (h v dwell baud : Nat) : Nat := ceilDiv (scanRows v * scanCols h * 2 ^ dwell * 32 * 1001 * 1000) baud

/-- Whether a scan would exceed 3,600 s (R419). -/
def scanLong (h v dwell baud : Nat) : Bool :=
  decide (3600 * baud < scanRows v * scanCols h * 2 ^ dwell * 32 * 1001)

/-- Whether a lane counts as up for a scan (R419, R422). -/
def laneUp (n : Nat) (s : State) : Bool :=
  let l := laneOf n s
  laneOn n s && (l.state == 2 || (l.state == 5 && l.signal))

/-- The bytes of a scan result (R421). [DESIGN CHOICE, log 52] -/
def scanBytes (lane : Nat) (c : Scan) : List Byte :=
  leBytes 4 (lane + c.rate * 2 ^ 8 + c.eye * 2 ^ 16 + c.status * 2 ^ 18) ++
  leBytes 4 (c.hStride + c.vStride * 2 ^ 8 + c.dwell * 2 ^ 16) ++ leBytes 4 (c.cols + c.rows * 2 ^ 16) ++
  leBytes 4 c.counts.length ++ leBytes 16 (todPack c.start) ++
  leBytes 16 (if c.status = 0 then 0 else todPack c.stop) ++ leBytes 4 c.vStep ++
  leBytes 4 (c.ctle + toField 8 c.dfe1 * 2 ^ 8) ++ leBytes 8 0 ++
  (List.range (c.rows * c.cols)).flatMap fun i => leBytes 4 (c.counts.getD i 0)

/-- SCAN_POINT_COMPLETE (R418): a point's count is kept, and the scan moves on or completes. [DESIGN CHOICE, log 3] -/
def execScanPointComplete (lane errors : Nat) (s : State) : Res :=
  .next (modLane lane (fun l => { l with scan := l.scan.map fun c =>
    if c.status = 0 then
      let k := c.counts ++ [min errors 0xFFFFFFFF]
      if k.length = c.rows * c.cols then { c with counts := k, status := 1, stop := nowTod s } else { c with counts := k }
    else c }) s)

/-! ### The lane message (R423) -/

/-- Whether a pattern suits a lane's modulation (R422). -/
def patternOk (rate p : Nat) : Bool :=
  p == 0 || p == 7 || (if ratePam4 rate then p == 5 || p == 6 else decide (1 ≤ p ∧ p ≤ 4))

/-- The status reply of a lane. -/
def laneStatusWords (n : Nat) (s : State) : List Nat :=
  let l := laneOf n s
  let w := s.cfg.accepted
  let on := laneOn n s
  let inv := F.LANE_RX_INV.on n w != l.reversal
  let taps := l.dfe.map (toField 8)
  let word := fun k => leVal ((taps.drop (4 * k)).take 4 |>.map (BitVec.ofNat 8))
  let st := if on then l.state else 0
  [st + b2n l.receiver * 8 + b2n inv * 16 + b2n (F.LANE_TX_INV.on n w) * 32 + b2n l.order * 64 +
     b2n (!F.LANE_ADAPT.on n w) * 128 + l.ctle % 16 * 2 ^ 8 + l.slip % 128 * 2 ^ 16 +
     (if on then rateInForce n s else 0) * 2 ^ 24,
   word 0, word 1, word 2, min l.metric 0xFFFF, l.faults, l.losEvents % 2 ^ 32]

/-- Operation 1: scan start (R418, R419, R423). -/
def scanStartAct (n : Nat) (r : Req) (s : State) : Answer × State :=
  let h := bits (r.w 2) 5 0
  let v := bits (r.w 2) 14 8
  let d := bits (r.w 2) 21 16
  let eye := bits (r.w 2) 25 24
  let baud := rateBaud1001 (rateInForce n s)
  let running := ((laneOf n s).scan.map (·.status)) == some 0
  let bad := h < 1 ∨ 32 < h ∨ v < 1 ∨ 127 < v ∨ d < 16 ∨ 32 < d ∨ (if ratePam4 (rateInForce n s) then 2 else 0) < eye
  if !laneUp n s || running || decide bad || scanLong h v d baud then (.refuse 7 0 0, s)
  else
    let l := laneOf n s
    let c : Scan :=
      { hStride := h, vStride := v, dwell := d, eye := eye, cols := scanCols h, rows := scanRows v, rate := rateInForce n s,
        start := nowTod s, stop := ⟨0, 0⟩, vStep := (Config.scanStepUv n s.drawn).toNat, ctle := l.ctle, dfe1 := l.dfe.headD 0,
        status := 0, counts := [] }
    (.accept [scanMs h v d baud % 2 ^ 32], modLane n (fun x => { x with scan := some c }) (drawOne s))

/-- Operation 2: scan read (R421, R423). -/
def scanReadAct (n : Nat) (r : Req) (s : State) : Answer × State :=
  match (laneOf n s).scan with
  | none => (.refuse 7 0 0, s)
  | some c =>
    let b := scanBytes n c
    if r.w 2 % 64 ≠ 0 then (.refuse 2 0 0, s)
    else if !holdsBulk r.path s then (.refuse 5 0 0, s)
    else if 0x100000 < r.w 2 + b.length then (.refuse 7 0 0, s)
    else (.accept [c.status, b.length], writeBulk (r.w 2) b s)

/-- Operation 4: test set-up (R422, R423). -/
def testSetUpAct (n : Nat) (r : Req) (s : State) : Answer × State :=
  let g := bits (r.w 2) 3 0
  let c := bits (r.w 2) 7 4
  let lb := bits (r.w 2) 9 8
  let rate := laneRate s.cfg.accepted n
  if (laneOf n s).state ≠ 5 || !patternOk rate g || !patternOk rate c then (.refuse 7 0 0, s)
  else (.accept [], modLane n (fun x => { x with gen := g, checker := c, loopback := lb }) s)

/-- Operation 5: bit-slip; the position counts modulo the word width, in bits (R414, R423). -/
def bitSlipAct (n : Nat) (r : Req) (s : State) : Answer × State :=
  let k := bits (r.w 2) 6 0
  let rate := laneRate s.cfg.accepted n
  let wide := laneDeep n && ratePam4 rate
  let p := ((laneOf n s).slip + k * (if ratePam4 rate then 2 else 1)) % (if wide then 128 else 64)
  if (laneOf n s).state ≠ 5 then (.refuse 7 0 0, s)
  else (.accept [p], modLane n (fun x => { x with slip := p }) s)

/-- Operation 6: checker read; what the checker counted is a free value (R422, R423). -/
def checkerReadAct (n : Nat) (s : State) : Answer × State :=
  let v := fun (k : Nat) => (Config.checkerWord n s.drawn k).toNat
  if (laneOf n s).checker = 0 then (.accept [0, 0, 0, 0, 0], s)
  else (.accept [v 0, v 1, v 2, v 3, v 4 % 2], drawOne s)

/-- The effect of the lane message by operation. [DEDUCED, log 84] -/
def laneAct (n : Nat) (r : Req) (s : State) : Answer × State :=
  let op := bits (r.w 1) 3 0
  if op ≠ 0 ∧ !laneOn n s then (.refuse 7 0 0, s)
  else match op with
    | 0 => (.accept (laneStatusWords n s), s)
    | 1 => scanStartAct n r s
    | 2 => scanReadAct n r s
    | 3 => (.accept [], endScan 3 n s)
    | 4 => testSetUpAct n r s
    | 5 => bitSlipAct n r s
    | _ => checkerReadAct n s

/-- Message 0x0B00 + n (R423). [DEDUCED, log 84] -/
def laneMsg (n : Nat) : MsgDef :=
  { count := fun c => c == 2 || c == 3
    masks := [0xF, 0xFFFFFFFF]
    status := true
    bad := fun r _ =>
      let op := bits (r.w 1) 3 0
      decide (6 < op) || r.words.length != (if op = 1 ∨ op = 2 ∨ op = 4 ∨ op = 5 then 3 else 2) ||
      (op == 1 && (r.w 2 &&& 0x33F7F3F) != r.w 2) || (op == 4 && (r.w 2 &&& 0x3FF) != r.w 2) ||
      (op == 4 && (decide (7 < bits (r.w 2) 3 0) || decide (7 < bits (r.w 2) 7 4) || bits (r.w 2) 9 8 == 3)) ||
      (op == 5 && ((r.w 2 &&& 0x7F) != r.w 2 || r.w 2 == 0)) || (op == 2 && r.w 2 % 64 != 0)
    act := fun r _ s => laneAct n r s }

end Sys2Proof.Machine
end

