-- ==== Sys2Proof/Machine/EpOps.lean ====
section
/-! DEFINITION. Operations of the storage endpoint: completions, completion queues, events (chapter 10). -/

namespace Sys2Proof.Machine

/-- Applies `f` to the endpoint. -/
def modEp (f : Endpoint → Endpoint) (s : State) : State := { s with ep := f s.ep }

/-- Whether the endpoint is in use. -/
def epOn (s : State) : Bool := blkOn .endpoint s && cfgB F.EP0_ENABLE 0 s

/-- Whether the controller runs: enabled by the host and without CSTS.CFS. -/
def epReady (s : State) : Bool := epOn s && s.ep.ready && !s.ep.fatal

/-- Applies `f` to a completion queue. -/
def modCq (q : Nat) (f : CplQ → CplQ) (s : State) : State :=
  modEp (fun e => { e with cqs := e.cqs.map fun c => if c.id = q then f c else c }) s

/-- Posts an entry in a completion queue with its phase tag. -/
def postCq (x : Completion) (q : CplQ) : CplQ :=
  { q with posted := q.posted ++ [{ x with phase := q.phase }], tail := (q.tail + 1) % max 1 q.size
           phase := if q.tail + 1 = q.size then !q.phase else q.phase }

/-- Whether a completion queue has room. -/
def cqRoom (q : CplQ) : Bool := decide (q.posted.length + 1 < q.size)

/-- Raises an MSI-X vector. -/
def raiseMsix (v : Nat) (s : State) : State := modEp (fun e => { e with msix := modAt e.msix v (· + 1) }) s

/-- An entry reaches a completion queue: posted, its range lock released; or held while the queue is full (R374, R383). -/
def deliverCq (qid : Nat) (x : Completion) (s : State) : State :=
  match s.ep.cqs.find? fun q => q.id == qid with
  | none => modEp (fun e => { e with cmds := e.cmds.filter fun c => c.arrival != x.arrival }) s
  | some q =>
    if q.held.isEmpty && cqRoom q then
      let t := modCq qid (postCq x) (modEp (fun e => { e with cmds := e.cmds.filter fun c => c.arrival != x.arrival }) s)
      if q.ien then raiseMsix q.vector t else t
    else modCq qid (fun q => { q with held := q.held ++ [x] })
      (modEp (fun e => { e with cmds := e.cmds.map fun c => if c.arrival = x.arrival then { c with done := true } else c }) s)

/-- Held entries are posted while there is room, at most `n`. -/
def postHeld : Nat → Nat → State → State
  | 0, _, s => s
  | n + 1, qid, s =>
    match s.ep.cqs.find? fun q => q.id == qid with
    | none => s
    | some q =>
      match q.held with
      | [] => s
      | x :: r => if cqRoom q then
          postHeld n qid (deliverCq qid x (modCq qid (fun q => { q with held := [] }) s) |>
            modCq qid (fun q => { q with held := r }))
        else s

/-- An accepted command. -/
def hostCmd (a : Nat) (s : State) : Option HostCmd := s.ep.cmds.find? fun c => c.arrival == a

/-- A command of a submission queue completes (R385); an error enters the error log. -/
def completeOn (sq : Nat) (cmd : NvmeCmd) (a status dw0 : Nat) (data : List Byte) (s : State) : State :=
  let s := if status = 0 then s else modEp (fun e => { e with
    errors := e.errors + 1
    errorLog := ([e.errors + 1, sq, cmd.cid, status, cmd.cdw10 + cmd.cdw11 * 2 ^ 32] :: e.errorLog).take 16 }) s
  match s.ep.sqs.find? fun q => q.id == sq with
  | some q => deliverCq q.cq { arrival := a, sq := sq, sqHead := q.head, cid := cmd.cid, status := status, dw0 := dw0, data := data } s
  | none => modEp (fun e => { e with cmds := e.cmds.filter fun c => c.arrival != a }) s

/-- An accepted command completes. -/
def finishCmd (a status dw0 : Nat) (data : List Byte) (s : State) : State :=
  match hostCmd a s with
  | some c => if c.done then s else completeOn c.sq c.cmd a status dw0 data s
  | none => s

/-- An asynchronous event: it completes an outstanding Asynchronous Event Request, or waits for one (R368, R369). -/
def pushEvent (dw0 : Nat) (s : State) : State :=
  if !epOn s || !s.ep.ready then s
  else match s.ep.cmds.find? fun c => c.sq == 0 && c.cmd.opc == 0x0C && c.begun && !c.done with
  | some c => finishCmd c.arrival 0 dw0 [] s
  | none => modEp (fun e => { e with events := if e.events.contains dw0 then e.events else e.events ++ [dw0] }) s

/-- The Namespace Attribute Changed notice (R368). -/
def noticeNs (s : State) : State := if s.ep.aec / 2 ^ 8 % 2 = 1 then pushEvent (2 + 4 * 2 ^ 16) s else s

/-- The hottest die sensor in kelvin (R370, R371). -/
def hottestK (s : State) : Nat := (hottest s / 16 + 273).toNat

/-- Whether the temperature is outside the thresholds of the host (R370). [PRESUMED, log 49] -/
def tempWarn (s : State) : Bool := decide (s.ep.tempOver ≤ hottestK s ∨ hottestK s ≤ s.ep.tempUnder)

/-- The SMART event of a temperature that has left the thresholds since `before` (R369, R370). -/
def noticeTemp (before s : State) : State :=
  if s.ep.aec / 2 % 2 = 1 && !tempWarn before && tempWarn s then pushEvent (1 + 1 * 2 ^ 8 + 2 * 2 ^ 16) s else s

/-- The SMART event of a volume that became read-only (R367, R369). -/
def noticeReadOnly (s : State) : State := if s.ep.aec / 2 ^ 3 % 2 = 1 then pushEvent (1 + 2 * 2 ^ 16) s else s

end Sys2Proof.Machine
end

