-- ==== Sys2Proof/Machine/RecOps.lean ====
section
/-! DEFINITION. Operations of the recorder that its sources and the redundant bodies use: units, abandoning (chapter 9). -/

namespace Sys2Proof.Machine

/-- Applies `f` to the recorder. -/
def modRec (f : Recorder → Recorder) (s : State) : State := { s with rcd := f s.rcd }
/-- Applies `f` to a record stream. -/
def modRecStream (j : Nat) (f : RecStream → RecStream) (s : State) : State :=
  modRec (fun r => { r with streams := modAt r.streams j f }) s
/-- A record stream. -/
def recStream (j : Nat) (s : State) : RecStream := s.rcd.streams.getD j {}

/-- Whether the recorder is in use. -/
def recOn (s : State) : Bool := blkOn .recorder s && cfgB F.REC_VOL_ENABLE 0 s

/-- The active record stream of a kind and source (R317). -/
def recFor (kind source : Nat) (s : State) : Option Nat :=
  if recOn s then
    (List.range 8).find? fun j => cfgB F.REC_ENABLE j s && cfgN F.REC_KIND j s == kind && cfgN F.REC_SOURCE j s == source
  else none

/-- Arrival numbers of the completed units that have no engine yet. -/
def unhashed (engines : List (Option Nat)) (streams : List RecStream) : List Nat :=
  (streams.flatMap fun x => x.ready.map (·.arrived)).filter fun a => !engines.contains (some a)

/-- Every free engine, in engine order, takes the completed unit that arrived first; an engine whose unit has gone is free (R746). [DEDUCED, log 46] -/
def dealUnits (s : State) : State :=
  modRec (fun r => { r with
    engines := (List.range 8).foldl (fun e k =>
        if (e.getD k none).isSome then e
        else e.set k ((unhashed e r.streams).foldl (fun b a => some (min (b.getD a) a)) none))
      (r.engines.map fun e => e.filter fun a => r.streams.any fun x => x.ready.any fun u => u.arrived == a) }) s

/-- A completed unit goes to its stream, and to the first free SHA-256 engine or waits for one (R339, R746). -/
def offerUnit (j : Nat) (u : RecUnit) (s : State) : State :=
  dealUnits (modRec (fun r => { r with
    arrivals := r.arrivals + 1
    streams := modAt r.streams j fun x => { x with ready := x.ready ++ [{ u with arrived := r.arrivals }] } }) s)

/-- Whether an engine has the oldest completed unit of a stream: units of one stream are written in their order (R746).
[DEDUCED, log 46] [DEDUCED, log 46] -/
def hashing (j : Nat) (s : State) : Bool :=
  match (recStream j s).ready with
  | [] => false
  | u :: _ => s.rcd.engines.contains (some u.arrived)

/-- A completed unit is accepted when it is of the current epoch; another is discarded whole and counted (R32, R320, R564). -/
def acceptUnit (current j : Nat) (u : RecUnit) (s : State) : State :=
  if u.epoch = current then offerUnit j u s else modRecStream j (fun x => { x with stale := wrapInc 32 x.stale }) s

/-- A unit is not recorded (R323, R746). -/
def missUnit (s : State) : State :=
  raise 2 0x0906 noInst [] (modRec (fun r => { r with missed := wrapInc 32 r.missed }) s)

/-- Of the units of a stream that wait for an engine, those whose source buffer is needed again are not recorded: at most `n` keep
theirs (R358, R746). [DEDUCED, log 46] -/
def boundReady (n j : Nat) (s : State) : State :=
  if n < (recStream j s).ready.length then missUnit (modRecStream j (fun x => { x with ready := x.ready.drop 1 }) s) else s

/-- The flags of a frame-table entry: word 10 bits [5:0] of the frame header, IDR (R335). -/
def tableFlags (h : FrameHeader) (idr : Bool) : Nat :=
  b2n h.compressed * 32 + b2n h.cropped * 16 + b2n h.freeRun * 8 + b2n h.droppedBefore * 4 + b2n h.repeated * 2 +
    b2n h.concealed + b2n idr * 256

/-- The record writes of a body that is no longer primary are abandoned without a durability point (R565, R574, R583). -/
def abandonWrites (s : State) : State :=
  let half := s.comp.queue.filter fun j => j.client == 0 && j.start != 0
  let s := { s with
    comp := { s.comp with queue := s.comp.queue.filter fun j => !(j.client == 0 && j.start != 0) }
    cap := { s.cap with adits := half.foldl (fun l j => modAt l j.source (holdOut .compressor none)) s.cap.adits } }
  modRec (fun r => { r with
    clip := none, phase := .idle, waiting := 0, pointDue := false, resuming := none, phaseFrom := r.nextCmd
    streams := r.streams.map fun x => { x with
      flights := [], ready := [], held := none, data := {}, table := {}, list := {}, frames := 0, first := none, open_ := false
      stageUsed := 0, part := [] }
    ssds := r.ssds.map fun d => { d with cmds := d.cmds.filter fun c => match c.op with
      | .hostRead _ _ _ _ _ | .hostWrite _ _ _ _ _ | .hostFlush _ | .admin _ | .playRead _ _ _ _ => true
      | _ => false } }) s

end Sys2Proof.Machine
end

