-- ==== Sys2Proof/Machine/RedOps.lean ====
section
/-! DEFINITION. Operations of redundant bodies that the links use: claims, takeover cells, deposing (chapter 16). -/

namespace Sys2Proof.Machine

/-- Applies `f` to the redundancy state. -/
def modRed (f : Redundancy → Redundancy) (s : State) : State := { s with red := f s.red }

/-- Whether the pair is in use in this body. -/
def redOn (s : State) : Bool := s.dev.role == .body && cfgB F.RED_ENABLE 0 s

/-- T_hb in TIME_CLK ticks (R571). -/
def hbTicks (s : State) : Nat :=
  max (2 * periodNs s.cfg.accepted (cfgN F.RED_REF_SEAM 0 s)) 1000000 * 4 / 5

/-- Whether a Shaft Link group of this device is active. -/
def shaftActive (s : State) : Bool := (List.range 8).any fun g => groupOn g s && groupActive g s

/-- The Shaft Link group a body speaks to its head on: its first active group, else its first group in use. -/
def headGroup (s : State) : Option Nat :=
  match (List.range 8).find? fun g => groupOn g s && groupActive g s with
  | some g => some g
  | none => (List.range 8).find? fun g => groupOn g s

/-- The two words of a 64-bit serial. -/
def serialWords (n : Nat) : List Word := (loWords 2 n).map (BitVec.ofNat 32)

/-- Sends a primary claim (R559). [DEDUCED, log 69] -/
def sendClaim (epoch reason : Nat) (s : State) : State :=
  match headGroup s with
  | some g => queueControl g 6 ([BitVec.ofNat 32 epoch] ++ serialWords s.otp.serial ++ [BitVec.ofNat 32 reason]) s
  | none => s

/-- A body claims an epoch and awaits the verdict (R558 state 4). [DEDUCED, log 69] -/
def claim (epoch reason : Nat) (s : State) : State :=
  sendClaim epoch reason (modRed (fun r => { r with ebBefore := r.eb, eb := epoch, reason := reason, state := 4 }) s)

/-- Sends a takeover cell on the Cage Link, if it is active (R567). [DEDUCED, log 72] -/
def sendTakeover (kind : Nat) (s : State) : State :=
  if groupOn 8 s && groupActive 8 s then
    modGroup 8 (fun x => { x with takeQ := x.takeQ ++ [[BitVec.ofNat 32 kind, BitVec.ofNat 32 s.red.eb]] }) s
  else s

/-- A body enters state 2 and asks for a FULL copy (R569, R581). -/
def beginResync (s : State) : State :=
  sendTakeover 3 (modRed (fun r => { r with state := 2, fullDue := true }) s)

/-- A standby whose copies are applied without a break is in sync once its group is active; a takeover that was triggered
meanwhile is then claimed (R558, R569, R572). -/
def syncIfReady (s : State) : State :=
  if redOn s && s.red.state == 2 && s.red.copy.isSome && !s.red.fullDue && shaftActive s then
    let t := modRed (fun r => { r with state := 3 }) s
    if t.red.triggered then claim (t.red.eb + 1) 1 t else t
  else s

/-- A standby in sync whose group is no longer active is out of sync (R558). -/
def redLinkDown (s : State) : State :=
  if redOn s && s.red.state == 3 && !shaftActive s then modRed (fun r => { r with state := 2 }) s else s

/-- A standby out of sync asks again when the Cage Link returns (R575). -/
def resyncAgain (s : State) : State := if redOn s && s.red.state == 2 && s.red.fullDue then sendTakeover 3 s else s

/-- What a body claims when its group becomes active: with redundancy off it holds the head alone; a starting body of
PREF 0 claims epoch 0 at once (R562, R578). -/
def claimOnActive (again : Bool) (s : State) : State :=
  if !redOn s then sendClaim s.red.eb (if again then 3 else 0) s
  else if s.red.state = 1 ∧ !cfgB F.RED_PREF 0 s then claim 0 0 s
  else if s.red.state = 1 ∧ s.red.waited then claim 1 0 s
  else syncIfReady s

/-- A primary is deposed (R565): its outputs follow its state, its record writes are abandoned. [DEDUCED, log 69] -/
def depose (s : State) : State := beginResync (abandonWrites (raise 1 0x1007 noInst [] s))

/-- A primary declares failure (R574). -/
def declareFailure (s : State) : State :=
  if redOn s && s.red.state == 5 then
    let t := sendTakeover 1 (abandonWrites s)
    let t := (List.range 8).foldl (fun u g => if groupOn g u then clearFlight 0 g u else u) t
    modRed (fun r => { r with state := 6 }) (raise 1 0x1009 noInst [] t)
  else s

/-! ### The head (R559 to R562) -/

/-- The claim verdict of a head as a control message of subtype 0x03 (R561, R586). -/
def sendVerdict (g : Nat) (accepted deposed : Bool) (s : State) : State :=
  queueControl g 3 ([BitVec.ofNat 32 (0x1008 * 2 ^ 16 + 5 * 2 ^ 12), BitVec.ofNat 32 (b2n accepted + b2n deposed * 2),
    BitVec.ofNat 32 s.red.eh] ++ serialWords s.red.primarySerial ++ [0, 0, 0]) s

/-- A head takes a primary claim (R560, R561). -/
def headClaim (g epoch serial reason : Nat) (s : State) : State :=
  let r := s.red
  if reason = 4 then (if r.primary = some g then modRed (fun x => { x with released := true }) s else s)
  else if r.primary = some g ∧ epoch = r.eh then sendVerdict g true false s
  else
    let free := match r.primary with
      | none => true
      | some p => decide (r.eh < epoch) && (!groupActive p s || r.released)
    if free then
      let t := modRed (fun x => { x with
        primary := some g, primarySerial := serial, released := false, eh := epoch, accepted := wrapInc 32 x.accepted }) s
      let t := sendVerdict g true false (endRun 0x100A noInst t)
      match r.primary with
      | some p => if p = g then t else sendVerdict p false true t
      | none => t
    else sendVerdict g false false (modRed (fun x => { x with refused := wrapInc 32 x.refused }) s)

/-- The redundancy checks of R557. -/
def redChecks (role : Role) (serial : Nat) (w : Words) : List (Nat × Nat × List Nat) :=
  let n := F.RED_REF_SEAM.get 0 w
  let peer := F.RED_PEER_SERIAL_LO.get 0 w + F.RED_PEER_SERIAL_HI.get 0 w * 2 ^ 32
  let wait := F.RED_START_WAIT_MS.get 0 w
  if F.RED_ENABLE.on 0 w && (role != .body || !F.LINK_ENABLE.on 8 w || !seamActive w n || !F.SEAM_SRC_SRC_TYPE.on n w ||
      peer == 0 || peer == serial) || decide (wait < 100 ∨ 60000 < wait) then [(0x1001, noInst, [])]
  else []

end Sys2Proof.Machine
end

