-- ==== Sys2Proof/Machine/Codec.lean ====
section
/-! DEFINITION. Codec streams: their settings, the encoder's input and conversion, the rate-control arithmetic and the checks
of R269 (chapter 8). -/

namespace Sys2Proof.Machine

/-- Applies `f` to the codec. -/
def modCodec (f : Codec → Codec) (s : State) : State := { s with codec := f s.codec }
/-- Applies `f` to an encode stream. -/
def modEnc (m : Nat) (f : EncStream → EncStream) (s : State) : State := modCodec (fun c => { c with enc := modAt c.enc m f }) s
/-- Applies `f` to a decode stream. -/
def modDec (m : Nat) (f : DecStream → DecStream) (s : State) : State := modCodec (fun c => { c with dec := modAt c.dec m f }) s
/-- An encode stream. -/
def encOf (m : Nat) (s : State) : EncStream := s.codec.enc.getD m {}
/-- A decode stream. -/
def decOf (m : Nat) (s : State) : DecStream := s.codec.dec.getD m {}

/-- Whether a stream is an active encoder. -/
def encOn (m : Nat) (s : State) : Bool := decide (m < 8) && blkOn .codec s && cfgB F.CODEC_STRM_ENABLE m s && !cfgB F.CODEC_STRM_DIR m s
/-- Whether a stream is an active decoder. -/
def decOn (m : Nat) (s : State) : Bool := decide (m < 8) && blkOn .codec s && cfgB F.CODEC_STRM_ENABLE m s && cfgB F.CODEC_STRM_DIR m s

/-! ### Encoder input (R282, R283) -/

/-- The ring of an encoder's source: a tap or a decode stream. -/
def encSource (m : Nat) (s : State) : OutRing :=
  let i := cfgN F.CODEC_STRM_SRC_INDEX m s
  if cfgB F.CODEC_STRM_SRC_KIND m s then (decOf i s).out else s.cap.taps.getD i {}

/-- Changes the ring of an encoder's source. -/
def modEncSource (m : Nat) (f : OutRing → OutRing) (s : State) : State :=
  let i := cfgN F.CODEC_STRM_SRC_INDEX m s
  if cfgB F.CODEC_STRM_SRC_KIND m s then modDec i (fun d => { d with out := f d.out }) s
  else modCap (fun c => { c with taps := modAt c.taps i f }) s

/-- The current epoch of an encoder's source (R32, R563). -/
def encEpoch (m : Nat) (s : State) : Nat :=
  if cfgB F.CODEC_STRM_SRC_KIND m s then decodeEpoch s else seamEpoch (cfgN F.TAP_SRC_SEAM (cfgN F.CODEC_STRM_SRC_INDEX m s) s) s

/-- Numerator and denominator of an encoder's source frame rate. -/
def encRate (m : Nat) (s : State) : Nat × Nat :=
  let i := cfgN F.CODEC_STRM_SRC_INDEX m s
  if cfgB F.CODEC_STRM_SRC_KIND m s then (cfgN F.CODEC_PIC_DEC_FPS_NUM i s, cfgN F.CODEC_PIC_DEC_FPS_DEN i s)
  else
    let n := cfgN F.TAP_SRC_SEAM i s
    (cfgN F.SEAM_GEOM_FPS_NUM n s, cfgN F.SEAM_GEOM_FPS_DEN n s)

/-- Whether a stream holds a buffer of its source. -/
def holdsInput (x : EncStream) : Bool := x.input.isSome || (x.pic.map (·.holding)).getD false

/-- An encode stream takes hold of the oldest published buffer that it has not seen and that qualifies; frames of another epoch
are counted (R32, R282). At most `fuel` buffers are passed over. [DEDUCED, log 34] -/
def takeInputs (m : Nat) : Nat → State → State
  | 0, s => s
  | fuel + 1, s =>
    let x := encOf m s
    let r := encSource m s
    if !encOn m s || holdsInput x then s
    else match nextOut x.seen r with
      | none => s
      | some i =>
        let b := r.bufs.getD i {}
        let stale := b.pic.header.epoch != encEpoch m s
        let t := modEnc m (fun y => { y with seen := b.order, stale := if stale then wrapInc 32 y.stale else y.stale }) s
        if !stale && b.pic.header.num % max 1 (cfgN F.CODEC_PIC_FRAME_DIV m s) == 0 then
          modEnc m (fun y => { y with input := some b.pic }) (modEncSource m (holdOut (.codec m) (some i)) t)
        else takeInputs m fuel t

/-- An encode stream looks at its source (R282). -/
def takeInput (m : Nat) (s : State) : State := takeInputs m ((encSource m s).bufs.length + 1) s

/-- Every encoder of a source that has published looks at it (R282). -/
def offerInput (kind : Bool) (i : Nat) (s : State) : State :=
  (List.range 8).foldl (fun t m =>
    if cfgB F.CODEC_STRM_SRC_KIND m t == kind && cfgN F.CODEC_STRM_SRC_INDEX m t == i then takeInput m t else t) s

/-- The bit depth of a BITS code. -/
def codecBits (c : Nat) : Nat := 8 + 2 * c

/-- Repeats chroma samples over the luma positions they cover: format 1 horizontally, 2 in both directions. -/
def chromaUp (fmt : Nat) (p : Plane) : Plane :=
  let wide := fun (p : Plane) => p.map fun l => l.flatMap fun v => [v, v]
  if fmt = 1 then wide p else if fmt = 2 then (wide p).flatMap fun l => [l, l] else p

/-- Scales a plane with R186, codes clamped to d bits after each direction (R283). -/
def scaleCodes (d : Nat) (hc vc : List Int) (ow oh : Nat) (p : Plane) : Plane :=
  let c := mapS fun v => min (2 ^ d - 1) v
  c (scalePlane hc vc ow oh (c (scalePlane hc vc ow p.length p)))

/-- A clockwise rotation by 90 degrees. -/
def rotate90 (p : Plane) : Plane := (transpose p).map List.reverse

/-- Rotates `n` times. -/
def rotateN : Nat → Plane → Plane
  | 0, p => p
  | n + 1, p => rotateN n (rotate90 p)

/-- The chroma format of a picture: 0 4:4:4, 1 4:2:2, 2 4:2:0 (R191 formats 0 and 3 are 4:4:4). -/
def picChroma (fmt : Nat) : Nat := if fmt = 1 then 1 else if fmt = 2 then 2 else 0

/-- The chroma format of a CHROMA code: 0 4:2:0, 1 4:2:2, 2 4:4:4. -/
def codeChromaFmt (c : Nat) : Nat := if c = 0 then 2 else if c = 1 then 1 else 0

/-- The coded picture of R283. -/
def codedPicture (m : Nat) (pic : Picture) (s : State) : List Plane :=
  let d := codecBits (cfgN F.CODEC_STRM_BITS m s)
  let sb := pic.bits
  let src := picChroma pic.format
  let dst := codeChromaFmt (cfgN F.CODEC_STRM_CHROMA m s)
  let rot := cfgN F.CODEC_PIC_ROT m s
  let toD := mapS fun c => if sb ≤ d then c else min (2 ^ d - 1) ((c + 2 ^ (sb - d - 1)) / 2 ^ (sb - d))
  let ps := pic.planes.map toD
  let up := rot % 2 = 1 ∨ src ≠ dst
  let ps := if up then ps.zipIdx.map fun p => if p.2 = 0 then p.1 else chromaUp src p.1 else ps
  let fmt := if up then 0 else src
  let swap := rot % 2 = 1
  let ow := if swap then cfgN F.CODEC_PIC_OUT_H m s else cfgN F.CODEC_PIC_OUT_W m s
  let oh := if swap then cfgN F.CODEC_PIC_OUT_W m s else cfgN F.CODEC_PIC_OUT_H m s
  let hc := coeffs (payload s.cfg.tables (cfgN F.CODEC_PIC_H_COEFF m s))
  let vc := coeffs (payload s.cfg.tables (cfgN F.CODEC_PIC_V_COEFF m s))
  let ps := ps.zipIdx.map fun p =>
    scaleCodes d hc vc (if p.2 ≠ 0 ∧ fmt ≠ 0 then ow / 2 else ow) (if p.2 ≠ 0 ∧ fmt = 2 then oh / 2 else oh) p.1
  let ps := ps.map fun p => rotateN rot (if cfgB F.CODEC_PIC_MIRROR m s then p.map List.reverse else p)
  let ps := if up ∧ dst ≠ 0 then ps.zipIdx.map fun p =>
      if p.2 = 0 then p.1 else if dst = 2 then chroma420 (p.1.map chroma422) else p.1.map chroma422
    else ps
  if pic.format = 0 then [ps.getD 1 [], ps.getD 2 [], ps.getD 0 []] else ps

/-- The VUI values of R284 of an encoder fed by a tap. -/
def vuiOf (m : Nat) (s : State) : List Nat :=
  let t := cfgN F.CODEC_STRM_SRC_INDEX m s
  let aces := cfgN F.TAP_COLOUR_ACES t s
  let ycc := cfgN F.TAP_TONE_YCC t s
  let curve := cfgN F.TAP_TONE_CURVE t s
  let rgb := cfgN F.TAP_SRC_FORMAT t s == 0
  let (num, den) := encRate m s
  [if aces ≠ 0 then 2 else if ycc = 0 then 1 else 9,
   if curve = 1 then 16 else if curve = 2 then 18 else if curve = 3 then 1 else 2,
   if rgb then 0 else if ycc = 0 then 1 else 9, cfgN F.TAP_SRC_RANGE t s, num, den * cfgN F.CODEC_PIC_FRAME_DIV m s]

/-! ### Rate control (R288 to R295) -/

/-- The cost of coded data (R288). -/
def costOf (bits bins : Nat) : Nat := max bits (ceilDiv (4 * bins) 5)

/-- DC_CTU of a CHROMA code (R289). -/
def dcCtu (chroma : Nat) : Nat := if chroma = 0 then 192 else if chroma = 1 then 224 else 288

/-- M of R289 for a picture of `rows` by `cols` CTUs. -/
def minCost (chroma rows cols sliceRows : Nat) : Nat :=
  3072 + 1024 * (if sliceRows = 0 then 1 else ceilDiv rows sliceRows) + dcCtu chroma * (rows * cols) + 320

/-- The doublings and halvings of `qdelta`; fuel 64 covers 64-bit values. -/
def qdUp : Nat → Nat → Nat → Nat × Nat
  | 0, _, b => (0, b)
  | n + 1, a, b => if 2 * b ≤ a then let (k, b') := qdUp n a (2 * b); (k + 6, b') else (0, b)
/-- The halvings of `qdelta`. -/
def qdDown : Nat → Nat → Nat → Nat × Nat
  | 0, a, _ => (0, a)
  | n + 1, a, b => if a < b then let (k, a') := qdDown n (2 * a) b; (k + 6, a') else (0, a)

/-- The helper qdelta(a, b) of R292. -/
def qdelta (a b : Nat) : Int :=
  let (u, b') := qdUp 64 a b
  let (d, a') := qdDown 64 a b'
  let r := if b' = 0 then 0 else a' * 65536 / b'
  (u : Int) - d + (([69433, 77936, 87480, 98193, 110218, 123716].filter fun t => decide (t ≤ r)).length : Nat)

/-- dq of R294 for e. -/
def dqOf (e : Nat) : Int :=
  if 91 ≤ e then 3 else if 81 ≤ e then 2 else if 72 ≤ e then 1 else if 57 ≤ e then 0 else if 51 ≤ e then -1 else -2

/-- The type of a picture: 0 IDR, 1 P. -/
def picType (idr : Bool) : Nat := if idr then 0 else 1

/-- Tb and T of R291. -/
def picTarget (m : Nat) (w : Words) (x : EncStream) (idr : Bool) (cap num den : Nat) : Nat × Nat :=
  if !F.CODEC_RC_RC_MODE.on m w then (cap, cap)
  else
    let n := F.CODEC_RC_TARGET_BPS.get m w * den / num
    let g := F.CODEC_RC_INTRA_PERIOD.get m w
    let wi := F.CODEC_RC_W_I.get m w
    let tp := n * g * 16 / (wi + 16 * (g - 1))
    let tb := if g = 1 then n else if idr then tp * wi / 16 else tp
    (tb, clampI (tb / 4 : Nat) cap ((tb : Int) - x.dev / 8) |>.toNat)

/-- QP_pic of R291 and R292. -/
def picQp (m : Nat) (w : Words) (x : EncStream) (idr : Bool) (target : Nat) : Nat :=
  let lo := F.CODEC_RC_QP_MIN.get m w
  let hi := F.CODEC_RC_QP_MAX.get m w
  let init := F.CODEC_RC_QP_INIT.get m w
  if !F.CODEC_RC_RC_MODE.on m w then max lo (min hi (if idr then init else init + 2))
  else match x.qpLast.getD (picType idr) none with
    | none => init
    | some q =>
      (clampI (max (lo : Int) ((q : Int) - 12)) (min hi (q + 12) : Nat) ((q : Int) + qdelta (x.costLast.getD (picType idr) 0) target)).toNat

/-- A standby's encoder takes its rate-control state from the latest applied copy before its next picture (R570). -/
def loadRate (m : Nat) (s : State) : State :=
  match (if redOn s && s.red.state != 5 then s.red.copy else none) with
  | some c => match c.rate[m]? with
    | some r => modEnc m (fun x => { x with
        qpLast := (List.range 2).map fun i => r.qpLast[i]?, costLast := r.costLast, dev := r.dev
        weights := r.weights, f := r.fk, k := r.k }) s
    | none => s
  | none => s

/-- CTUs of a coded size. -/
def ctusOf (n : Nat) : Nat := ceilDiv n 64

/-! ### Checks (R269, R270) -/

/-- Size, frame rate, bits and format of an encoder's source: a tap's output or a decode stream. -/
def encSourceOf (w : Words) (m : Nat) : Nat × Nat × Nat × Nat × Nat × Bool :=
  let i := F.CODEC_STRM_SRC_INDEX.get m w
  if F.CODEC_STRM_SRC_KIND.on m w then
    (F.CODEC_PIC_OUT_W.get i w, F.CODEC_PIC_OUT_H.get i w, F.CODEC_PIC_DEC_FPS_NUM.get i w, F.CODEC_PIC_DEC_FPS_DEN.get i w,
     codecBits (F.CODEC_STRM_BITS.get i w),
     decide (i < 8) && i != m && F.CODEC_STRM_ENABLE.on i w && F.CODEC_STRM_DIR.on i w)
  else
    let n := F.TAP_SRC_SEAM.get i w
    (F.TAP_SRC_OUT_W.get i w, F.TAP_SRC_OUT_H.get i w, F.SEAM_GEOM_FPS_NUM.get n w, F.SEAM_GEOM_FPS_DEN.get n w,
     tapBits (F.TAP_SRC_BITS.get i w), decide (i < 8) && F.TAP_SRC_ENABLE.on i w)

/-- Whether an active stream's settings are valid (R269). -/
def streamOk (role : Role) (w : Words) (m : Nat) : Bool :=
  let (sw, sh, num, den, sb, srcOk) := encSourceOf w m
  let enc := !F.CODEC_STRM_DIR.on m w
  let ow := F.CODEC_PIC_OUT_W.get m w
  let oh := F.CODEC_PIC_OUT_H.get m w
  let rot := F.CODEC_PIC_ROT.get m w % 2 == 1
  let (iw, ih) := if rot then (sh, sw) else (sw, sh)
  let p := F.CODEC_STRM_PROFILE.get m w
  let ch := F.CODEC_STRM_CHROMA.get m w
  let bps := F.CODEC_STRM_MAX_BPS.get m w
  let cpb := F.CODEC_RC_CPB_BITS.get m w
  let cap := F.CODEC_RC_PIC_CAP_BYTES.get m w
  let (fn, fd) := if enc then (num, den * F.CODEC_PIC_FRAME_DIV.get m w)
    else (F.CODEC_PIC_DEC_FPS_NUM.get m w, F.CODEC_PIC_DEC_FPS_DEN.get m w)
  let rows := ctusOf oh
  let cost := minCost ch rows (ctusOf ow) (F.CODEC_RC_SLICE_ROWS.get m w)
  let ring := F.CODEC_STRM_RING_BYTES.get m w
  let scaleW := if rot then oh else ow
  let scaleH := if rot then ow else oh
  role != .head && fn != 0 && fd != 0 && profileOk p ch (F.CODEC_STRM_BITS.get m w) && ow % 8 == 0 && oh % 8 == 0 &&
    (decide (p < 4) || F.CODEC_RC_INTRA_PERIOD.get m w == 1) && decide (cost ≤ 8 * cap) && decide (cost ≤ cpb) &&
    decide (cost * fn ≤ bps * fd) &&
    levelOk (F.CODEC_STRM_LEVEL.get m w) p (F.CODEC_STRM_TIER.on m w) ow oh fn fd bps cpb &&
    (if enc then
      srcOk && decide (codecBits (F.CODEC_STRM_BITS.get m w) ≤ sb) && decide (iw ≤ 16 * ow) && decide (ow ≤ 2 * iw) &&
        decide (ih ≤ 16 * oh) && decide (oh ≤ 2 * ih) &&
        (scaleW == sw || F.CODEC_PIC_H_COEFF.get m w != 0) && (scaleH == sh || F.CODEC_PIC_V_COEFF.get m w != 0) &&
        decide (3 * cap ≤ ring)
     else decide (2 * cpb ≤ 8 * ring))

/-- The checks of R269. -/
def codecChecks (role : Role) (w : Words) : List (Nat × Nat × List Nat) :=
  (List.range 8).filterMap fun m =>
    if !F.CODEC_STRM_LEVEL.okValue (F.CODEC_STRM_LEVEL.get m w) || (F.CODEC_STRM_ENABLE.on m w && !streamOk role w m) then
      some (0x0820 + m, m, []) else none

end Sys2Proof.Machine
end

