-- ==== Sys2Proof/Machine/Volume.lean ====
section
/-! DEFINITION. The Reel Volume Format: superblocks, Lode Map entries, clip directory, journal, checkpoint, format and
mount (chapter 9, R324 to R334, R345 to R348, R351). -/

namespace Sys2Proof.Machine

/-! ### Sizes -/

/-- G in bytes for a granule code (R325). -/
def granBytes (code : Nat) : Nat := 131072 * 2 ^ code
/-- V0 (R328). -/
def volV0 (code : Nat) : Nat := 0x21000000 / granBytes code
/-- Data slots of a member (R325). -/
def slotsOf (code blocks : Nat) : Nat := min 16777216 ((blocks * 4096 - 0x21000000) / granBytes code)
/-- VG_COUNT (R328). -/
def volCount (code : Nat) (slots : List Nat) : Nat := min 0xFFFFFF (volV0 code + slots.sum)
/-- No granule (R334). -/
def noGran : Nat := 0xFFFFFF

/-- A 64-bit map entry (R327). [DESIGN CHOICE, log 44] -/
def mapEntryBits (e : LodeEntry) : Nat :=
  e.state % 4 * 2 ^ 62 + e.ssd % 4 * 2 ^ 60 + e.slot % 2 ^ 24 * 2 ^ 36 + e.next % 2 ^ 24 * 2 ^ 12 + e.clip % 2 ^ 12
/-- The entry 64 bits spell. -/
def entryOf (v : Nat) : LodeEntry := ⟨bits v 63 62, bits v 61 60, bits v 59 36, bits v 35 12, bits v 11 0⟩

/-! ### CRC-32 of the 128 MiB checkpoint image -/

/-- An affine map on 32 bits: its value at 0 and the linear images of the bits. CRC-32 over fixed bytes is one. -/
abbrev Affine := Nat × List Nat

/-- The linear part applied. -/
def affLin (f : Affine) (c : Nat) : Nat := (f.2.zipIdx).foldl (fun a p => if c / 2 ^ p.2 % 2 = 1 then a ^^^ p.1 else a) 0
/-- An affine map applied. -/
def affApply (f : Affine) (c : Nat) : Nat := affLin f c ^^^ f.1
/-- `g` after `f`. -/
def affAfter (g f : Affine) : Affine := (affApply g f.1, f.2.map (affLin g))
/-- The map of CRC-32 over some bytes. -/
def affOf (l : List Byte) : Affine :=
  let z := l.foldl crc32Byte 0
  (z, (List.range 32).map fun i => l.foldl crc32Byte (2 ^ i) ^^^ z)
/-- A map applied `n` times, over `k` bits of `n`. -/
def affPow : Nat → Nat → Affine → Nat → Nat
  | 0, _, _, c => c
  | k + 1, n, f, c => affPow k (n / 2) (affAfter f f) (if n % 2 = 1 then affApply f c else c)

/-- CRC-32 of the checkpoint image of a map: Reserved below V0 and from VG_COUNT on, Free where nothing is listed, 8 bytes
an entry, 2^24 entries (R325 to R328). -/
def chkCrc (code vg : Nat) (map : LodeMap) : Nat :=
  let free := affOf (List.replicate 8 0)
  let resv := affOf (leBytes 8 (3 * 2 ^ 62))
  let c := affPow 25 (volV0 code) resv 0xFFFFFFFF
  let r := map.foldl (fun (a : Nat × Nat) e =>
    (e.1 + 1, (leBytes 8 (mapEntryBits e.2)).foldl crc32Byte (affPow 25 (e.1 - a.1) free a.2))) (volV0 code, c)
  affPow 25 (16777216 - vg) resv (affPow 25 (vg - r.1) free r.2) ^^^ 0xFFFFFFFF

/-! ### Superblock -/

/-- A superblock (R326). -/
structure SuperBlk where
  code : Nat
  members : Nat
  index : Nat
  volumeId : List Byte
  sbSeq : Nat
  active : Bool
  chkCrc : Nat
  chkSeq : Nat
  jrnStart : Nat
  slots : Nat
  v0 : Nat
  sidecar : Nat
  vgCount : Nat
  clipNext : Nat
deriving DecidableEq, Repr

/-- The 4,096 bytes of a superblock (R326). [DESIGN CHOICE, log 44] -/
def superBytes (x : SuperBlk) : List Byte :=
  let body := leBytes 4 0x42535652 ++ leBytes 4 (1 + x.code * 2 ^ 8 + (x.members - 1) * 2 ^ 12 + x.index * 2 ^ 16) ++
    padTo 16 x.volumeId ++ leBytes 8 x.sbSeq ++ leBytes 4 (b2n x.active) ++ leBytes 4 x.chkCrc ++ leBytes 8 x.chkSeq ++
    leBytes 4 x.jrnStart ++ leBytes 4 x.slots ++ leBytes 4 x.v0 ++ leBytes 4 x.sidecar ++ leBytes 4 x.vgCount ++
    leBytes 4 x.clipNext ++ List.replicate 4020 0
  body ++ leBytes 4 (crc32 body)

/-- A superblock from its bytes; none when they are not valid. -/
def superOf (l : List Byte) : Option SuperBlk :=
  let w := fieldAt l 4 4
  if l.length = 4096 ∧ fieldAt l 0 4 = 0x42535652 ∧ w % 256 = 1 ∧ fieldAt l 0xFFC 4 = crc32 (l.take 0xFFC) then
    some { code := bits w 9 8, members := bits w 13 12 + 1, index := bits w 17 16, volumeId := slice l 8 16
           sbSeq := fieldAt l 0x18 8, active := fieldAt l 0x20 4 % 2 == 1, chkCrc := fieldAt l 0x24 4
           chkSeq := fieldAt l 0x28 8, jrnStart := fieldAt l 0x30 4, slots := fieldAt l 0x34 4, v0 := fieldAt l 0x38 4
           sidecar := fieldAt l 0x3C 4, vgCount := fieldAt l 0x40 4, clipNext := fieldAt l 0x44 4 }
  else none

/-- The valid copy with the higher SB_SEQ (R326). -/
def newerSuper (a b : Option SuperBlk) : Option SuperBlk :=
  match a, b with
  | some x, some y => some (if x.sbSeq < y.sbSeq then y else x)
  | some x, none => some x
  | none, y => y

/-- The superblock an SSD holds. -/
def mediaSuper (m : Media) : Option SuperBlk := newerSuper (superOf m.sb0) (superOf m.sb1)

/-! ### Journal -/

/-- The journal region in bytes (R325). -/
def jrnSize : Nat := 0x10000000

/-- Where the next record goes (R345). -/
def jrnPlace (off : Nat) : Nat := if jrnSize < off + 0x400000 then 0 else off

/-- A journal record (R345): SEQ, TOD of step 2, map changes and clip entries. [DESIGN CHOICE, log 44] -/
def journalBytes (seq : Nat) (t : Tod) (changes : List (Nat × Nat)) (clips : List (List Byte)) : List Byte :=
  let n := ceilDiv (0x40 + 12 * changes.length + 1024 * clips.length + 4) 4096
  let body := leBytes 4 0x4E4A5652 ++ leBytes 4 n ++ leBytes 8 seq ++ leBytes 16 (todPack t) ++ leBytes 4 changes.length ++
    leBytes 4 clips.length ++ List.replicate 24 0 ++ changes.flatMap (fun c => leBytes 4 c.1 ++ leBytes 8 c.2) ++
    clips.flatten
  let body := padTo (n * 4096 - 4) body
  body ++ leBytes 4 (crc32 body)

/-- Whether bytes are a valid journal record of a SEQ. -/
def journalOk (seq : Nat) (l : List Byte) : Bool :=
  fieldAt l 0 4 == 0x4E4A5652 && fieldAt l 4 4 * 4096 == l.length && decide (0 < l.length) && fieldAt l 8 8 == seq &&
  fieldAt l (l.length - 4) 4 == crc32 (l.take (l.length - 4))

/-- The map changes of a record. -/
def journalChanges (l : List Byte) : List (Nat × Nat) :=
  (List.range (fieldAt l 0x20 4)).map fun i => (fieldAt l (0x40 + 12 * i) 3, fieldAt l (0x44 + 12 * i) 8)

/-- The clip entries of a record. -/
def journalClips (l : List Byte) : List (List Byte) :=
  (List.range (fieldAt l 0x24 4)).map fun i => slice l (0x40 + 12 * fieldAt l 0x20 4 + 1024 * i) 1024

/-- Stores a record in a journal region: records it overlaps are gone. -/
def putJournal (off : Nat) (l : List Byte) (j : List (Nat × List Byte)) : List (Nat × List Byte) :=
  putKey off l (j.filter fun e => decide (e.1 + e.2.length ≤ off ∨ off + l.length ≤ e.1))

/-- Bytes of a journal region from an offset on, over at most `n` stored pieces. -/
def readJrn (j : List (Nat × List Byte)) : Nat → Nat → Nat → List Byte
  | 0, _, _ => []
  | n + 1, off, len => match (if len = 0 then none else j.lookup off) with
    | some l => l.take len ++ readJrn j n (off + l.length) (len - l.length)
    | none => []

/-! ### Map and directory operations -/

/-- A map entry set; Free entries are not listed. -/
def setEntry (v : Nat) (e : LodeEntry) (m : LodeMap) : LodeMap := if e.state = 0 then delKey v m else putKey v e m

/-- STATE of a clip in a directory (R333): 0 where nothing is listed. -/
def dirState (dir : List (Nat × List Byte)) (c : Nat) : Nat := fieldAt ((dir.lookup c).getD []) 4 4 / 2 ^ 30

/-- A directory entry with its CRC made anew (R333). [DESIGN CHOICE, log 44] -/
def sealDir (l : List Byte) : List Byte := let b := padTo 0x3FC l; b ++ leBytes 4 (crc32 b)

/-- A directory entry with another STATE. -/
def setDirState (st : Nat) (l : List Byte) : List Byte :=
  sealDir (overlay l 4 (leBytes 4 (st * 2 ^ 30 + fieldAt l 4 4 % 2 ^ 30)))

/-- A directory entry placed, or removed when its STATE is free. -/
def setDir (c : Nat) (l : List Byte) (dir : List (Nat × List Byte)) : List (Nat × List Byte) :=
  if fieldAt l 4 4 / 2 ^ 30 = 0 then delKey c dir else putKey c l dir

/-- The granules of a chain from its first on (R329), at most `n` of them. -/
def chainFrom (m : LodeMap) : Nat → Nat → List Nat
  | 0, _ => []
  | n + 1, v =>
    if v = noGran then [] else
    match m.lookup v with
    | some e => v :: chainFrom m n e.next
    | none => []

/-! ### Members -/

/-- The root ports of RP_MASK, rising. -/
def maskPorts (s : State) : List Nat := (List.range 4).filter fun k => cfgN F.REC_VOL_RP_MASK 0 s / 2 ^ k % 2 == 1

/-- An SSD. -/
def ssdOf (k : Nat) (s : State) : Ssd := s.rcd.ssds.getD k {}
/-- Applies `f` to an SSD. -/
def modSsd (k : Nat) (f : Ssd → Ssd) (s : State) : State := modRec (fun r => { r with ssds := modAt r.ssds k f }) s
/-- Applies `f` to what an SSD holds. -/
def modMedia (k : Nat) (f : Media → Media) (s : State) : State := modSsd k (fun d => { d with media := f d.media }) s

/-- G of the volume mounted. -/
def volG (s : State) : Nat := granBytes s.rcd.granule

/-- Sends a command on a queue pair of the member on a root port, unless it has failed. -/
def sendSsd (port queue : Nat) (op : SsdOp) (s : State) : State :=
  if (ssdOf port s).failed then s
  else modRec (fun r => { r with nextCmd := r.nextCmd + 1 })
    (modSsd port (fun d => { d with cmds := d.cmds ++ [{ id := s.rcd.nextCmd, queue := queue, op := op, since := s.dev.elapsed }] }) s)

/-- The queue pair for metadata (R340): the journal, the checkpoint, playback and the endpoint's commands. -/
def metaQueue : Nat := 9

/-- Sends metadata commands to every member. -/
def sendLists (ops : Nat → Ssd → List SsdOp) (s : State) : State :=
  (s.rcd.members.zipIdx).foldl (fun t p => (ops p.2 (ssdOf p.1 t)).foldl (fun u o => sendSsd p.1 metaQueue o u) t) s

/-- How many commands that is. -/
def countLists (ops : Nat → Ssd → List SsdOp) (s : State) : Nat :=
  ((s.rcd.members.zipIdx).map fun p => (ops p.2 (ssdOf p.1 s)).length).sum

/-- Sends a metadata command to every member. -/
def sendAll (op : Nat → SsdOp) (s : State) : State := sendLists (fun k _ => [op k]) s

/-- Whether a command has been issued: its queue pair holds at most 255 at once (R340). -/
def ssdIssued (d : Ssd) (c : SsdCmd) : Bool :=
  decide (((d.cmds.takeWhile fun x => x.id != c.id).filter fun x => x.queue == c.queue).length < 255)

/-- An admin or reservation command to a member. [DEDUCED, log 45] -/
def sendAdmin (port : Nat) (c : SsdAdmin) (s : State) : State := sendSsd port 0 (.admin c) s

/-- Whether every member can take writes. -/
def membersOk (s : State) : Bool := s.rcd.members.all fun k => !(ssdOf k s).failed

/-- Whether an SSD meets R324. -/
def ssdUsable (dual : Bool) (d : Ssd) : Bool :=
  d.lba4k && decide (0x8000 ≤ d.mdts) && decide (0x40000000 ≤ d.blocks * 4096) && (!dual || d.dual)

/-! ### The walker (R332) -/

/-- The ways of a set of the walker's cache, the most recently used first. -/
def walkWays (r : Recorder) (set : Nat) : List WalkWay := (r.walker.lookup set).getD []

/-- The walker resolves a granule, to read its entry or to write it: a hit moves its line to the front, a miss fills it and drops
the least recently used of 16, whose entries go back to DRAM (R332). To write, it is called before the entry changes. -/
def walkOne (write : Bool) (v : Nat) (r : Recorder) : Recorder :=
  let line := v / 8
  let ways := walkWays r (line % 4096)
  let w := (ways.find? fun x => x.line == line).getD { line := line }
  let w := if write && !w.dirty then { w with dirty := true, old := r.map.filter fun e => e.1 / 8 == line } else w
  { r with walker := putKey (line % 4096) ((w :: ways.filter fun x => x.line != line).take 16) r.walker }

/-- The walker resolves granules. -/
def walk (write : Bool) (vs : List Nat) (s : State) : State := modRec (fun r => vs.foldl (fun a v => walkOne write v a) r) s

/-- What the Lode Map in DRAM holds: dirty lines are not yet written back (R332). -/
def mapInDram (r : Recorder) : LodeMap :=
  let ws := r.walker.flatMap fun e => e.2.filter (·.dirty)
  ws.foldl (fun m w => w.old.foldl (fun a e => putKey e.1 e.2 a) (m.filter fun e => e.1 / 8 != w.line)) r.map

/-! ### Reading chains (R329) -/

/-- Bytes of a data slot. -/
def readSlot (e : LodeEntry) (off n : Nat) (s : State) : List Byte :=
  slice (((ssdOf (s.rcd.members.getD e.ssd 0) s).media.slots.lookup e.slot).getD []) off n

/-- `len` bytes of a chain from an offset, over at most `k` granules. -/
def readChain : Nat → List Nat → Nat → Nat → State → List Byte
  | 0, _, _, _, _ => []
  | k + 1, grans, o, len, s =>
    if len = 0 then [] else
    let n := min len (volG s - o % volG s)
    let b := match s.rcd.map.lookup (grans.getD (o / volG s) noGran) with
      | some e => readSlot e (o % volG s) n s
      | none => List.replicate n 0
    b ++ readChain k grans (o + n) (len - n) s

/-- Entry `i` of a frame table. [DEDUCED, log 45] -/
def tableEntry (grans : List Nat) (i : Nat) (s : State) : List Byte := readChain 2 grans (32 * i) 32 s

/-- A chain's granules from a directory field. -/
def dirChain (l : List Byte) (off : Nat) (s : State) : List Nat :=
  chainFrom s.rcd.map (s.rcd.map.length + 1) (fieldAt l off 4 % 2 ^ 24)

/-! ### Mount (R348, R351) -/

/-- The member index order: ports by the index their superblocks give. -/
def sortMembers (l : List (Nat × SuperBlk)) : List (Nat × SuperBlk) := l.mergeSort fun a b => decide (a.2.index ≤ b.2.index)

/-- The first record of a SEQ at a journal offset that any member holds validly (R348). -/
def findRecord (seq off : Nat) (ms : List Media) : Option (List Byte) :=
  ms.findSome? fun m =>
    let l := readJrn m.journal m.journal.length off (4096 * (fieldAt (readJrn m.journal 1 off 8) 4 4 % 2 ^ 11))
    if journalOk seq l then some l else none

/-- Applies a record to a map and a directory. -/
def applyRecord (l : List Byte) (md : LodeMap × List (Nat × List Byte)) : LodeMap × List (Nat × List Byte) :=
  ((journalChanges l).foldl (fun m c => setEntry c.1 (entryOf c.2) m) md.1,
   (journalClips l).foldl (fun d c => setDir (fieldAt c 4 4 % 4096) c d) md.2)

/-- Replays records from an offset in SEQ order, at most `n`: the map and directory, the last SEQ, the next offset. [DEDUCED, log 45] -/
def replay (ms : List Media) : Nat → Nat → Nat → LodeMap × List (Nat × List Byte) →
    (LodeMap × List (Nat × List Byte)) × Nat × Nat
  | 0, seq, off, md => (md, seq, off)
  | n + 1, seq, off, md =>
    match findRecord (seq + 1) (jrnPlace off) ms with
    | some l => replay ms n (seq + 1) (jrnPlace off + l.length) (applyRecord l md)
    | none => (md, seq, off)

/-- Whether this body may write the volume: no redundancy, or it is primary (R351, R570). [DESIGN CHOICE, log 44] -/
def mayWrite (s : State) : Bool := !redOn s || actsPrimary s

/-- The reservation key of this device (R351). -/
def resKey (s : State) : Nat := s.otp.serial % 2 ^ 64

/-- Whether another key holds the reservation of a member (R355). -/
def heldElsewhere (ports : List Nat) (s : State) : Bool :=
  ports.any fun k => match (ssdOf k s).media.holder with
    | some h => h != resKey s
    | none => false

/-- What a role start sends a member first: the queue pairs of an earlier start are deleted, the controller and the namespace
identified, the features set and the nine I/O queue pairs created; with DUAL_PORT the key is registered (R340, R351). [DEDUCED, log 45] -/
def setupMember (k : Nat) (s : State) : State :=
  let key := resKey s
  let dual := cfgB F.REC_VOL_DUAL_PORT 0 s
  let qs := (List.range 9).map (· + 1)
  let l := (ssdOf k s).queues.flatMap (fun q => [SsdAdmin.deleteSq q, .deleteCq q]) ++
    [.identify 1, .identify 0, .getLog 2, .setFeature 7 0x00080008, .setFeature 6 1] ++
    qs.flatMap (fun q => [SsdAdmin.createCq q, .createSq q]) ++ (if dual then [.resRegister key] else [])
  let t := l.foldl (fun u c => sendAdmin k c u) s
  modSsd k (fun d => { d with
    queues := qs, media := if dual then { d.media with keys := key :: d.media.keys.filter fun x => x != key } else d.media }) t

/-- The volume becomes writable: with DUAL_PORT the primary acquires the reservation on every member, with preemption at
a takeover (R351, R353, R355). -/
def acquireVolume (preempt : Bool) (s : State) : State :=
  if s.rcd.volume = 0 ∨ !mayWrite s ∨ s.rcd.stuck then s
  else if !cfgB F.REC_VOL_DUAL_PORT 0 s then modRec (fun r => { r with volume := 2 }) s
  else
    let key := resKey s
    let s := s.rcd.members.foldl (fun t k => sendAdmin k .resReport t) s
    if heldElsewhere s.rcd.members s && !preempt then raise 1 0x090A noInst [] (modRec (fun r => { r with volume := 1 }) s)
    else
      let t := s.rcd.members.foldl (fun t k => sendAdmin k (.resAcquire key preempt) (modMedia k (fun m => { m with
        holder := some key, keys := if preempt then m.keys.filter fun x => some x != m.holder || x == key else m.keys }) t)) s
      modRec (fun r => { r with volume := 2 }) t

/-- Mount steps 2 to 5 over members whose superblocks agree, `b` the newest of them (R348). [DEDUCED, log 45] -/
def mountFrom (b : SuperBlk) (members : List (Nat × SuperBlk)) (s : State) : State :=
  let ms := members.map fun m => (ssdOf m.1 s).media
  let chk := fun (m : Media) => if b.active then m.chkB else m.chkA
  match ms.find? fun m => chkCrc b.code b.vgCount (chk m) == b.chkCrc with
  | none => raise 1 0x0903 noInst [] s
  | some m =>
    let r := replay ms 65536 b.chkSeq b.jrnStart (chk m, m.dir)
    let dir := r.1.2.map fun e => if dirState [e] e.1 = 1 then (e.1, setDirState 3 e.2) else e
    let cut := (r.1.2.filter fun e => dirState [e] e.1 == 1).map (·.1)
    let t := modRec (fun x => { x with
      walker := [], volume := 1, members := members.map (·.1), granule := b.code, vgCount := b.vgCount, sidecar := b.sidecar
      volumeId := b.volumeId, slotCount := members.map (·.2.slots), map := r.1.1.filter fun e => e.2.state == 2
      dir := dir, clipNext := b.clipNext, sbSeq := b.sbSeq, active := b.active, chkSeq := b.chkSeq
      jrnStart := b.jrnStart, jrnAt := r.2.2, seq := r.2.1, durableSeq := r.2.1
      changed := (r.1.1.filter fun e => e.2.state != 2).map (·.1)
      clipsChanged := cut, clipsSince := dir.map (·.1), freeing := [], journaled := [], freed := [], phase := .idle }) s
    acquireVolume false (raise 0 0x0909 noInst [r.2.1 % 2 ^ 32, r.2.1 / 2 ^ 32] (walk true t.rcd.changed t))

/-- The volume is mounted at role start (R324, R348). [DEDUCED, log 45] -/
def mountVolume (s : State) : State :=
  if !recOn s then s else
  let ports := maskPorts s
  let s := ports.foldl (fun t k => if (ssdOf k s).present then setupMember k t else t) s
  let bad := ports.filter fun k => (ssdOf k s).present && !ssdUsable (cfgB F.REC_VOL_DUAL_PORT 0 s) (ssdOf k s)
  if !bad.isEmpty then bad.foldl (fun t k => raise 1 0x0902 k [] t) s
  else
    let found := ports.filterMap fun k =>
      if (ssdOf k s).present then (mediaSuper (ssdOf k s).media).map fun b => (k, b) else none
    let ms := sortMembers found
    match found.foldl (fun a p => newerSuper a (some p.2)) none with
    | none => raise 1 0x0903 noInst [] s
    | some b =>
      if ms.length = ports.length ∧ ms.map (·.2.index) = List.range b.members ∧
          (ms.all fun p => p.2.volumeId == b.volumeId && p.2.members == b.members) then mountFrom b ms s
      else raise 1 0x0903 noInst [] s

/-! ### Format (R359) -/

/-- The sidecar entries made at format: granule `first + i` on member `i mod n`, at that member's slot `i / n`, full
members skipped (R328). -/
def sidecarEntries (slots : List Nat) (first : Nat) : Nat → List (Nat × LodeEntry) × List Nat
  | 0 => ([], slots.map fun _ => 0)
  | i + 1 =>
    let (l, used) := sidecarEntries slots first i
    let n := slots.length
    match ((List.range n).map fun k => (i + k) % n).find? fun k => decide (used.getD k 0 < slots.getD k 0) with
    | some k => (l ++ [(first + i, ⟨2, k, used.getD k 0, noGran, 0xFFF⟩)], modAt used k (· + 1))
    | none => (l, used)

/-- A volume made new on every member: superblocks, an empty journal, checkpoint and directory, slots deallocated
(R359); it is then ready. [DEDUCED, log 45] -/
def formatVolume (sidecars : Nat) (s : State) : State :=
  let ports := maskPorts s
  let code := cfgN F.REC_VOL_GRANULE 0 s
  let slots := ports.map fun k => slotsOf code (ssdOf k s).blocks
  let vg := volCount code slots
  let n := min sidecars (vg - volV0 code)
  let map := (sidecarEntries slots (vg - n) n).1
  let id := (List.range 16).map fun i => Config.volumeIdByte s.drawn i
  let crc := chkCrc code vg map
  let sb := fun (k : Nat) (q : Nat) => superBytes
    { code := code, members := ports.length, index := k, volumeId := id, sbSeq := q, active := false, chkCrc := crc
      chkSeq := 0, jrnStart := 0, slots := slots.getD k 0, v0 := volV0 code, sidecar := vg - n, vgCount := vg
      clipNext := 0 }
  if cfgB F.REC_VOL_DUAL_PORT 0 s && heldElsewhere ports s then
    raise 1 0x090A noInst [] (modRec (fun r => { r with volume := min 1 r.volume }) s)
  else
  let t := (ports.zipIdx).foldl (fun t p => modMedia p.1 (fun m =>
    { m with sb0 := sb p.2 0, sb1 := sb p.2 1, journal := [], chkA := map, chkB := [], dir := [], slots := [] }) t) s
  acquireVolume false (drawOne (modRec (fun x => { x with
    walker := [], chkDue := false, volume := 1, members := ports, granule := code, vgCount := vg, sidecar := vg - n, volumeId := id, slotCount := slots
    map := map, dir := [], clipNext := 0, sbSeq := 1, active := false, chkSeq := 0, jrnStart := 0, jrnAt := 0
    seq := 0, durableSeq := 0, changed := [], clipsChanged := [], clipsSince := [], freeing := [], journaled := [], freed := []
    phase := .idle }) t))

end Sys2Proof.Machine
end

