-- ==== Sys2Proof/Machine/Playback.lean ====
section
/-! DEFINITION. Playback: the reads that a playback asks of the members (R356, R357). -/

namespace Sys2Proof.Machine

/-- Applies `f` to a playback. -/
def modPlay (m : Nat) (f : Playback → Playback) (s : State) : State := modRec (fun r => { r with plays := modAt r.plays m f }) s

/-- The pieces of `len` bytes of a chain from an offset: member, offset in the unit, the member's byte, length; split at granule
boundaries, at 1 MiB and at MDTS (R340, R357). -/
def playPieces : Nat → List Nat → Nat → Nat → Nat → State → List (Nat × Nat × Nat × Nat)
  | 0, _, _, _, _, _ => []
  | k + 1, grans, o, dst, len, s =>
    if len = 0 then [] else
    match s.rcd.map.lookup (grans.getD (o / volG s) noGran) with
    | none => []
    | some e =>
      let port := s.rcd.members.getD e.ssd 0
      let n := min len (max 1 (min (min 0x100000 (volG s - o % volG s)) (ssdOf port s).mdts))
      (port, dst, 0x21000000 + e.slot * volG s + o % volG s, n) :: playPieces k grans (o + n) (dst + n) (len - n) s

/-- Whether a command is a read of a playback. -/
def isPlayRead (m : Nat) : SsdOp → Bool
  | .playRead k _ _ _ => k == m
  | _ => false

/-- Whether a read of a playback is outstanding at a member. -/
def playBusy (m port : Nat) (s : State) : Bool := (ssdOf port s).cmds.any fun c => isPlayRead m c.op

/-- Asks for the pieces whose members have no read of the playback outstanding (R357). -/
def askPieces (m : Nat) : List (Nat × Nat × Nat × Nat) → State → State
  | [], s => s
  | p :: r, s =>
    askPieces m r (if playBusy m p.1 s then modPlay m (fun x => { x with pieces := x.pieces ++ [p] }) s
      else sendSsd p.1 metaQueue (.playRead m p.2.1 p.2.2.1 p.2.2.2) (modPlay m (fun x => { x with left := x.left + 1 }) s))

/-- A playback goes on: it begins the next unit when the decode stream's ring has space for it whole, and asks for the pieces it
may (R356, R357). -/
def playPump (m : Nat) (s : State) : State :=
  let p := s.rcd.plays.getD m {}
  if p.state ≠ 1 then s
  else
    let t :=
      if p.buf.isSome || decide (p.entries ≤ p.at_) then s
      else
        let e := tableEntry p.table p.at_ s
        let len := fieldAt e 0x18 4
        let o := fieldAt e 0x10 8
        if cfgN F.CODEC_STRM_RING_BYTES m s < (decOf m s).input.length + len then s
        else
          let gs := (p.data.drop (o / volG s)).take ((o + len) / volG s - o / volG s + 1)
          modPlay m (fun x => { x with buf := some (List.replicate len 0), pieces := playPieces (len + 1) p.data o 0 len s }) (walk false gs s)
    let l := (t.rcd.plays.getD m {}).pieces
    askPieces m l (modPlay m (fun x => { x with pieces := [] }) t)

end Sys2Proof.Machine
end

