-- ==== Sys2Proof/Machine/Decoder.lean ====
section
/-! DEFINITION. The decoder: access units, reference pictures, concealment, the picture hash and the output of pictures in order
(R303 to R311); reference picture sets and bumping from ITU-T H.265 (PRESUMED). -/

namespace Sys2Proof.Machine

/-! ### Output (R311) -/

/-- A decoder's buffer claim and publication in one step: the descriptor's header is built, and an RGB picture's planes are put in
the order R, G, B (R311). [DESIGN CHOICE, log 41] -/
def outputPicture (m : Nat) (p : DecPic) (s : State) : State :=
  let x := decOf m s
  let (r, ok) := claimOut x.out
  let t := modDec m (fun y => { y with lastConcealed := p.concealed }) s
  if !ok then raise 2 (0x0850 + m) m [] (modDec m (fun y => { y with lost := wrapInc 32 y.lost }) t)
  else
    let pic : Picture :=
      { header := { p.header with num := x.outputs, epoch := decodeEpoch s, concealed := p.concealed }, writer := 2, index := m
        format := p.format, bits := p.bits, pub := nowNs s
        planes := if p.format = 0 then [p.planes.getD 2 [], p.planes.getD 0 [], p.planes.getD 1 []] else p.planes }
    offerInput true m (modDec m (fun y => { y with out := publishOut pic r, outputs := y.outputs + 1 }) t)

/-- The place in the DPB of the picture that waits for output with the smallest POC: the first in output order. [PRESUMED, log 16] -/
def bumpPlace (l : List DecPic) : Option Nat :=
  (l.zipIdx.filter fun p => p.1.needed).foldl (fun best p => match best with
    | none => some (p.1.poc, p.2)
    | some (c, i) => if p.1.poc < c then some (p.1.poc, p.2) else some (c, i)) none |>.map (·.2)

/-- Pictures that neither wait for output nor serve as references leave the DPB. [PRESUMED, log 16] -/
def dropUnused (l : List DecPic) : List DecPic := l.filter fun p => p.needed || p.mark != .unused

/-- The bumping process outputs one picture (C.5.2.4). [PRESUMED, log 16] -/
def bump (m : Nat) (s : State) : State :=
  let d := (decOf m s).dpb
  match bumpPlace d with
  | none => s
  | some i => match d[i]? with
    | none => s
    | some p => outputPicture m p (modDec m (fun y => { y with dpb := dropUnused (modAt d i fun q => { q with needed := false }) }) s)

/-- Whether pictures wait beyond the reorder or latency limit (C.5.2.2, C.5.2.3). [PRESUMED, log 16] -/
def bumpDue (x : DecStream) : Bool :=
  let wait := x.dpb.filter fun p => p.needed
  decide (x.limits.2.1 < wait.length) ||
    (x.limits.2.2 != 0 && wait.any fun p => decide (x.limits.2.1 + x.limits.2.2 - 1 ≤ p.waited))

/-- Outputs pictures while one is due, or the DPB holds `size` pictures; at most `n`. -/
def bumpWhile (m size : Nat) : Nat → State → State
  | 0, s => s
  | n + 1, s =>
    let x := decOf m s
    if (bumpDue x || decide (size ≤ x.dpb.length)) && (bumpPlace x.dpb).isSome then bumpWhile m size n (bump m s) else s

/-- Outputs every picture that waits; at most `n`. -/
def bumpAll (m : Nat) : Nat → State → State
  | 0, s => s
  | n + 1, s => if (bumpPlace (decOf m s).dpb).isSome then bumpAll m n (bump m s) else s

/-- Whether a decoder has no more to decode after END (R313). -/
def decDrained (x : DecStream) : Bool := x.ended && x.input.isEmpty && x.au.isNone && x.building.isEmpty

/-- DECODED_PICTURE_OUTPUT (R311, R313): the bumping process outputs the next picture when one is due, and after END every one. [DESIGN CHOICE, log 41] -/
def execDecodedPictureOutput (m : Nat) (s : State) : Res :=
  .next (if decOn m s && (bumpDue (decOf m s) || decDrained (decOf m s)) then bump m s else s)

/-! ### Access units (R303, R304, R307) -/

/-- Registers the parameter sets of an access unit. -/
def takeSets (ns : List (List Byte)) (x : DecStream) : DecStream :=
  ns.foldl (fun y n =>
    if nalType n = 33 then let (i, p) := parseSps n; { y with spss := (i, p) :: y.spss.filter (·.1 != i) }
    else if nalType n = 34 then let (i, p) := parsePps n; { y with ppss := (i, p) :: y.ppss.filter (·.1 != i) }
    else y) x

/-- Whether a stream accepts an SPS (R304). -/
def spsAccepted (m : Nat) (p : Sps) (s : State) : Bool :=
  let fmt := if p.chroma = 1 then 0 else if p.chroma = 2 then 1 else 2
  spsProfileOk p && (!p.high || cfgB F.CODEC_STRM_TIER m s) && decide (p.level ≤ cfgN F.CODEC_STRM_LEVEL m s) && !p.separate &&
    fmt == cfgN F.CODEC_STRM_CHROMA m s && p.bits == codecBits (cfgN F.CODEC_STRM_BITS m s) && p.bitsC == p.bits &&
    decide (1 ≤ p.w ∧ 1 ≤ p.h) && (p.ctb == 16 || p.ctb == 32 || p.ctb == 64) &&
    decide (p.w ≤ cfgN F.CODEC_PIC_OUT_W m s) && decide (p.h ≤ cfgN F.CODEC_PIC_OUT_H m s)

/-- The decode time of access unit `n` in 2^-16 ns (R303). -/
def decodeTimeOf (m t0 n : Nat) (s : State) : Nat :=
  t0 + n * cfgN F.CODEC_PIC_DEC_FPS_DEN m s * unitsPerSec / max 1 (cfgN F.CODEC_PIC_DEC_FPS_NUM m s)

/-- The deadline of the access unit whose decode time is `at_` (R277). -/
def decDeadline (m at_ : Nat) (w : Words) : Nat :=
  let lat := F.CODEC_STRM_LATENCY_US.get m w
  at_ + (if lat = 0 then ceilDiv (1000000000 * F.CODEC_PIC_DEC_FPS_DEN.get m w) (max 1 (F.CODEC_PIC_DEC_FPS_NUM.get m w)) else lat * 1000)

/-- An access unit is not decoded. -/
def skipAu (m : Nat) (s : State) : State := modDec m (fun x => { x with n := x.n + 1, lost := wrapInc 32 x.lost }) s

/-- The engines' work on an access unit's bytes begins (R303, R304). -/
def beginDecode (m : Nat) (l : List Byte) (s : State) : State :=
  let ns := nalsOf l
  let x0 := decOf m s
  let s := playPump m (modDec m (fun x => { takeSets ns x with
    input := x.input.drop l.length, eos := ns.any fun n => nalType n == 36 || nalType n == 37 }) s)
  let x := decOf m s
  match ns.find? fun n => isVcl n with
  | none => skipAu m s
  | some v =>
    let ty := nalType v
    let irap := decide (16 ≤ ty ∧ ty ≤ 23)
    let fresh := irap && (decide (ty ≤ 20) || !x.begun || x.refusing || x0.eos)
    let sps := (x.ppss.lookup (slicePps v)).bind fun p => x.spss.lookup p.sps
    if !irap && (!x.begun || x.refusing) then skipAu m s
    else if (ty == 8 || ty == 9) && x.skipRasl then skipAu m s
    else match sps with
    | none => skipAu m s
    | some p =>
      if !spsAccepted m p s then
        let t := skipAu m (modDec m (fun y => { y with refusing := true }) s)
        if irap then raise 1 (0x0840 + m) m [] t else t
      else
        let at_ := decodeTimeOf m (x.t0.getD 0) x.n s / 65536
        let a : DecAu :=
          { bytes := l, sps := p, pps := x.ppss, irap := irap, fresh := fresh, rows := ceilDiv p.h (max 1 p.ctb)
            cols := ceilDiv p.w (max 1 p.ctb), count := x.count, deadline := decDeadline m at_ s.cfg.accepted }
        modDec m (fun y => { y with
          au := some a, n := y.n + 1, count := y.count + 1, begun := true, refusing := false
          skipRasl := if irap then fresh else y.skipRasl }) s

/-- Whether the decode time of the next access unit has come (R303). -/
def auDue (m : Nat) (s : State) : Bool :=
  match (decOf m s).t0 with
  | some t0 => decide (decodeTimeOf m t0 (decOf m s).n s ≤ todUnits (nowTod s))
  | none => false

/-- Access units are begun whose time has come and that are complete, until one is in the engines; at most `fuel` (R303). -/
def tryDecodes (m : Nat) : Nat → State → State
  | 0, s => s
  | fuel + 1, s =>
    let x := decOf m s
    if decOn m s && auDue m s && x.au.isNone then
      match firstAu x.input x.ended with
      | some l => tryDecodes m fuel (beginDecode m l s)
      | none => s
    else s

/-- The next access unit is decoded when its time has come and it is complete (R303). -/
def tryDecode (m : Nat) (s : State) : State := tryDecodes m (decOf m s).input.length s

/-- Bytes arrive in a decoder's input ring: the first complete access unit fixes t0 (R303). -/
def feedDecoder (m : Nat) (l : List Byte) (last : Bool) (s : State) : State :=
  let t := modDec m (fun x => { x with input := x.input ++ l, ended := last }) s
  let x := decOf m t
  let t := if x.t0.isNone && (firstAu x.input x.ended).isSome then modDec m (fun y => { y with t0 := some (todUnits (nowTod s)) }) t else t
  tryDecode m t

/-- DECODE_TIME (R303): the decode time of the next access unit. -/
def execDecodeTime (m : Nat) (s : State) : Res := .next (tryDecode m s)

/-- The bytes of an access unit that are present: up to the next access unit, or all. -/
def presentAu (l : List Byte) : List Byte := (firstAu l true).getD []

/-- ACCESS_UNIT_TIMEOUT (R307). -/
def execAccessUnitTimeout (m : Nat) (s : State) : Res :=
  let x := decOf m s
  .next (match x.t0 with
    | some t0 =>
      if decOn m s && x.au.isNone && (firstAu x.input x.ended).isNone &&
          decide (decodeTimeOf m t0 (x.n + F.CODEC_PIC_DEC_TIMEOUT.get m x.bound) s ≤ todUnits (nowTod s)) then
        let t := raise 2 (0x0848 + m) m [] s
        let l := presentAu x.input
        tryDecode m (if l.isEmpty then skipAu m t else beginDecode m l t)
      else s
    | none => s)

/-! ### Pictures (R305, R306, R308) -/

/-- Width and height of each plane of an SPS. -/
def planeSizes (p : Sps) : List (Nat × Nat) :=
  let c := if p.chroma = 3 then (p.w, p.h) else if p.chroma = 2 then (p.w / 2, p.h) else (p.w / 2, p.h / 2)
  [(p.w, p.h), c, c]

/-- The planes of a substitute: every sample 2^(BitDepth − 1) (R305, R306). -/
def greyPlanes (p : Sps) : List Plane := (planeSizes p).map fun z => List.replicate z.2 (List.replicate z.1 (2 ^ (p.bits - 1)))

/-- The parameter sets an access unit is decoded with. -/
def auSets (a : DecAu) : List Byte := a.sps.raw ++ a.pps.flatMap fun p => p.2.raw

/-- The slice segments of an access unit with the CTUs that each covers, none where its parse stops: it names no parameter set,
its address is out of order or repeated or outside the picture, a dependent one follows none, or its data stops it (R306).
`last` is the address last taken, `lead` whether an independent one was. -/
def parseSlices (a : DecAu) : Option Nat → Bool → List (List Byte) → List (SliceHdr × Nat)
  | _, _, [] => []
  | last, lead, n :: r =>
    match a.pps.lookup (slicePps n) with
    | none => ({ first := false, noPrior := false, pps := 0 }, 0) :: parseSlices a last false r
    | some p =>
      let h := parseSlice a.sps p n
      let order := match last with
        | some k => decide (k < h.addr)
        | none => true
      if !order || decide (a.rows * a.cols ≤ h.addr) || (h.dependent && !lead) then (h, 0) :: parseSlices a last lead r
      else
        let c := min (Config.sliceCtus (auSets a) n) (a.rows * a.cols - h.addr)
        (h, c) :: parseSlices a (some h.addr) (lead || (!h.dependent && c != 0)) r

/-- The slice segments of an access unit. -/
def auSlices (a : DecAu) : List (SliceHdr × Nat) := parseSlices a none false ((nalsOf a.bytes).filter fun n => isVcl n)

/-- The first slice header that gives the picture's POC and reference pictures. -/
def leadHeader (a : DecAu) : Option SliceHdr :=
  ((nalsOf a.bytes).filter fun n => isVcl n).findSome? fun n => (a.pps.lookup (slicePps n)).bind fun p =>
    let h := parseSlice a.sps p n
    if h.dependent then none else some h

/-- PicOrderCntVal (8.3.1). [PRESUMED, log 16] -/
def pocVal (fresh : Bool) (prev : Int) (bits lsb : Nat) : Int :=
  let m : Int := 2 ^ bits
  let pl := prev % m
  let pm := prev - pl
  let l : Int := lsb
  if fresh then l else if l < pl ∧ m / 2 ≤ pl - l then pm + m + l else if pl < l ∧ m / 2 < l - pl then pm - m + l else pm + l

/-- The POC that a long-term entry names, and whether all of it must match (7-52, 8-5). [PRESUMED, log 16] -/
def longPoc (bits : Nat) (poc : Int) (e : Nat × Option Nat × Bool) : Int × Bool :=
  let m : Int := 2 ^ bits
  match e.2.1 with
  | some c => (poc - c * m - (poc % m - e.1), true)
  | none => (e.1, false)

/-- Whether a picture is the one a long-term entry names. -/
def longIs (bits : Nat) (e : Int × Bool) (p : DecPic) : Bool :=
  p.mark != .unused && (if e.2 then p.poc == e.1 else p.poc % (2 ^ bits) == e.1)

/-- The marking that a picture's reference picture set leaves a picture of the DPB (8.3.2). [PRESUMED, log 16] -/
def markOf (bits : Nat) (short : List Int) (long : List (Int × Bool)) (p : DecPic) : DecPic :=
  { p with mark := if long.any fun e => longIs bits e p then .long else if p.mark == .short && short.contains p.poc then .short else .unused }

/-- The DPB without a concealment's mark: an IRAP picture decoded without concealment ends it (R308). -/
def clearTaint (l : List DecPic) : List DecPic := l.map fun p => { p with taint := false }

/-- The reference pictures of a slice header: found in the DPB, or none. -/
def refsOf (a : DecAu) (poc : Int) (h : SliceHdr) (d : List DecPic) : List (Option DecPic) :=
  (h.refs.filter (·.2)).map (fun r => d.find? fun p => p.mark == .short && p.poc == poc + r.1) ++
    (h.long.filter (·.2.2)).map fun e => d.find? fun p => p.mark == .long && longIs a.sps.pocBits (longPoc a.sps.pocBits poc e) p

/-- The DPB at a picture with no earlier reference: pictures are output, or discarded where the standard says so (C.5.2.2). [PRESUMED, log 16] -/
def renewDpb (m : Nat) (discard : Bool) (s : State) : State :=
  let x := decOf m s
  let left := (x.dpb.filter fun p => p.needed).length
  let t := if discard then modDec m (fun y => { y with lost := (y.lost + left) % 2 ^ 32 }) s else bumpAll m x.dpb.length s
  modDec m (fun y => { y with dpb := [] }) t

/-- A picture's building begins: its POC, the marking of the DPB, the pictures that this outputs, and its reference pictures, each
absent one substituted (R305, R308, R311). The DPB keeps room for the picture (R309). [DESIGN CHOICE, log 41] -/
def startPicture (m : Nat) (a : DecAu) (s : State) : DecAu × State :=
  let sl := auSlices a
  let h := (leadHeader a).getD { first := true, noPrior := false, pps := 0 }
  let x := decOf m s
  let ty := ((nalsOf a.bytes).find? fun n => isVcl n).map (fun n => (nalType n, (n.getD 1 0).toNat % 8)) |>.getD (0, 1)
  let poc := if (leadHeader a).isNone then Config.lostPoc a.bytes else pocVal a.fresh x.prevPoc a.sps.pocBits h.lsb
  let cap := maxDpb (cfgN F.CODEC_STRM_LEVEL m s) (a.sps.w * a.sps.h)
  let short := h.refs.map fun r => poc + r.1
  let long := h.long.map (longPoc a.sps.pocBits poc)
  let t := if a.fresh then renewDpb m (ty.1 == 21 || h.noPrior) s
    else if (leadHeader a).isNone then s
    else modDec m (fun y => { y with dpb := dropUnused (y.dpb.map (markOf a.sps.pocBits short long)) }) s
  let t := modDec m (fun y => { y with
    limits := (a.sps.maxDec + 1, a.sps.reorder, a.sps.latency), active := some a.sps
    prevPoc := if ty.2 = 1 && !(decide (ty.1 < 16) && (ty.1 % 2 == 0 || decide (6 ≤ ty.1 ∧ ty.1 ≤ 9))) then poc else y.prevPoc }) t
  let t := bumpWhile m (min (a.sps.maxDec + 1) cap) (decOf m t).dpb.length t
  let t := modDec m (fun y => { y with dpb := y.dpb.drop (y.dpb.length - cap) }) t
  let used := sl.any fun q => decide (q.1.typ < 2) && q.2 != 0
  let refs := if used then refsOf a poc h (decOf m t).dpb else []
  let missing := refs.any Option.isNone
  let con := missing || refs.any fun r => (r.map (·.taint)).getD false
  let a := { a with
    poc := poc, concealed := con
    refs := refs.map fun r => match r with
      | some p => (p.planes, p.motion)
      | none => (greyPlanes a.sps, []) }
  (a, if missing then raise 1 (0x0838 + m) m [] t else t)

/-- Samples in the size and depth of an SPS. -/
def fitPlanes (p : Sps) (l : List Plane) : List Plane :=
  (planeSizes p).zipIdx.map fun z =>
    (List.range z.1.2).map fun y => (List.range z.1.1).map fun x => ((l.getD z.2 []).getD y []).getD x 0 % 2 ^ p.bits

/-- The picture with every CTU that `covered` leaves out taken from the co-located samples of another (R306). -/
def fillPlanes (a : DecAu) (covered : Nat → Bool) (other l : List Plane) : List Plane :=
  l.zipIdx.map fun c =>
    let z := (planeSizes a.sps).getD c.2 (1, 1)
    let sx := a.sps.w / max 1 z.1
    let sy := a.sps.h / max 1 z.2
    c.1.zipIdx.map fun r => r.1.zipIdx.map fun v =>
      let ctu := r.2 * sy / max 1 a.sps.ctb * a.cols + v.2 * sx / max 1 a.sps.ctb
      if covered ctu then v.1 else ((other.getD c.2 []).getD r.2 []).getD v.2 (2 ^ (a.sps.bits - 1))

/-- The descriptor header fields that a decoded picture copies from the frame-header message (R311). -/
def copiedHeader (a : DecAu) : FrameHeader :=
  match ((nalsOf a.bytes).filterMap seiHeader).head? with
  | some h => { tag := h.tag, seam := h.seam, exp := h.exp, timecode := h.timecode, metro := h.metro }
  | none => { tag := 0xFFFF }

/-- A picture of the DPB waits longer: pictures after it in output order have been decoded (C.5.2.3). [PRESUMED, log 16] -/
def agePics (p : DecPic) (l : List DecPic) : List DecPic :=
  l.map fun q => if p.needed && q.needed && decide (p.poc < q.poc) then { q with waited := q.waited + 1 } else q

/-- A picture is complete: its uncovered CTUs are concealed, its hash is checked, it enters the DPB, and a missed deadline is
counted (R280, R305 to R311). -/
def finishDecode (m : Nat) (a : DecAu) (s : State) : State :=
  let sl := auSlices a
  let covered := fun (k : Nat) => sl.any fun q => decide (q.1.addr ≤ k ∧ k < q.1.addr + q.2)
  let stopped := (sl.any fun q => q.2 == 0) || !(List.range (a.rows * a.cols)).all covered
  let d := Config.decodedPlanes (auSets a) a.bytes a.refs
  let other := ((decOf m s).dpb.getLast?.map (·.planes)).getD (greyPlanes a.sps)
  let planes := fillPlanes a covered other (fitPlanes a.sps d.1)
  let con := a.concealed || stopped
  let h := leadHeader a
  let fmt := if a.sps.chroma = 1 then 2 else if a.sps.chroma = 2 then 1 else if a.sps.vui.getD 2 2 = 0 then 0 else 3
  let p : DecPic :=
    { poc := a.poc, needed := (h.map (·.output)).getD true, header := copiedHeader a, concealed := con, taint := con, format := fmt
      bits := a.sps.bits, planes := planes, motion := d.2 }
  let bad := match ((nalsOf a.bytes).filterMap seiHash).head? with
    | some q => !hashAgrees q a.sps.bits planes
    | none => false
  let t := modDec m (fun x => { x with
    building := x.building.drop 1
    dpb := agePics p (if a.irap && !con then clearTaint x.dpb else x.dpb) ++ [p]
    concealed := if con then wrapInc 32 x.concealed else x.concealed
    hashMisses := if bad then wrapInc 32 x.hashMisses else x.hashMisses }) s
  let t := if stopped then raise 1 (0x0838 + m) m [] t else t
  let t := if bad then raise 0 (0x0860 + m) m [] t else t
  if a.deadline < nowNs t then raise 0 (0x0858 + m) m [] (modDec m (fun x => { x with misses := wrapInc 32 x.misses }) t) else t

/-- Empties a decoder's input ring and DPB; decoding resumes at the next IRAP picture with t0 anew (R313). -/
def flushDecoder (m : Nat) (s : State) : State :=
  let t := modCodec (fun c => { c with
    decFifo := c.decFifo.filter fun r => r.stream != m, decRow := if c.decRow = some m then none else c.decRow }) s
  modDec m (fun x => { x with
    input := [], ended := false, t0 := none, n := 0, begun := false, skipRasl := false, refusing := false, eos := false
    au := none, building := [], dpb := [] }) t

end Sys2Proof.Machine
end

