-- ==== Sys2Proof/Machine/Encoder.lean ====
section
/-! DEFINITION. The encoder: its pictures, slices and DC-only CTUs, the access unit, and its output ring (R271, R272, R281, R285 to
R302). -/

namespace Sys2Proof.Machine

/-! ### The output ring (R301) -/

/-- The position up to which a record stream has read an output ring: the start of the oldest access unit that it has not taken
(R301). -/
def recordRead (m j : Nat) (s : State) : Nat :=
  let x := encOf m s
  match (recStream j s).ready.head? with
  | some u => u.ringEnd - u.bytes.length
  | none => x.base + x.ring.length - ((x.pic.map (·.published)).getD 0)

/-- The position up to which every bound consumer of an output ring has read: the host when HOST_READ is 1, and the record
stream (R301). -/
def ringRead (m : Nat) (s : State) : Nat :=
  let x := encOf m s
  let l := (if cfgB F.CODEC_STRM_HOST_READ m s then [x.hostPos] else []) ++ (recFor 1 m s).toList.map fun j => recordRead m j s
  max x.base (l.foldl min (x.base + x.ring.length))

/-- Bytes that every bound consumer has read leave the ring (R301). -/
def trimRing (m : Nat) (s : State) : State :=
  let low := ringRead m s
  modEnc m (fun x => { x with ring := x.ring.drop (low - x.base), base := low, starts := x.starts.filter fun a => decide (low ≤ a.1) }) s

/-! ### Pictures (R281, R285 to R291) -/

/-- What an encoder's syntax depends on of its settings; a transcode takes the VUI of the decoded stream's SPS (R284). -/
def encSyntax (m : Nat) (s : State) : EncSyntax :=
  let (num, den) := encRate m s
  let v := if cfgB F.CODEC_STRM_SRC_KIND m s then
      match (decOf (cfgN F.CODEC_STRM_SRC_INDEX m s) s).active with
      | some p => p.vui
      | none => (encOf m s).vui
    else (encOf m s).vui
  { stream := m, profile := cfgN F.CODEC_STRM_PROFILE m s, high := cfgB F.CODEC_STRM_TIER m s, level := cfgN F.CODEC_STRM_LEVEL m s
    chroma := cfgN F.CODEC_STRM_CHROMA m s, bits := codecBits (cfgN F.CODEC_STRM_BITS m s), w := cfgN F.CODEC_PIC_OUT_W m s
    h := cfgN F.CODEC_PIC_OUT_H m s, refs := 1 + cfgN F.CODEC_RC_REFS m s, maxBps := cfgN F.CODEC_STRM_MAX_BPS m s
    cpb := cfgN F.CODEC_RC_CPB_BITS m s
    vui := if v.getD 4 0 = 0 ∨ v.getD 5 0 = 0 then v.take 4 ++ [num, den * max 1 (cfgN F.CODEC_PIC_FRAME_DIV m s)] else v }

/-- Picture periods of a stream between two frame numbers. -/
def ticksBetween (m a b : Nat) (s : State) : Nat := max 1 ((b - a) / max 1 (cfgN F.CODEC_PIC_FRAME_DIV m s))

/-- ENCODE_PICTURE_BEGIN (R281, R285, R290 to R292, R301): the picture's budget and QP, and its space in the ring. -/
def execEncodePictureBegin (m : Nat) (s : State) : Res :=
  let s0 := s
  .next (if !encOn m s0 || (encOf m s0).pic.isSome then s0 else
    match (encOf m s0).input with
    | none => s0
    | some pic =>
      let s := trimRing m (loadRate m s0)
      let x := encOf m s
      let w := s.cfg.accepted
      let (fn, fd) := encRate m s
      let num := fn
      let den := fd * max 1 (F.CODEC_PIC_FRAME_DIV.get m w)
      let cpb := F.CODEC_RC_CPB_BITS.get m w
      let f := match x.lastIn with
        | none => cpb
        | some t => min cpb (x.f + F.CODEC_STRM_MAX_BPS.get m w * (pic.pub - t) / 1000000000)
      let idr := x.forceIdr || x.k % max 1 (F.CODEC_RC_INTRA_PERIOD.get m w) == 0
      let k := if x.forceIdr then 0 else x.k
      let cap := min (8 * F.CODEC_RC_PIC_CAP_BYTES.get m w) f
      let space := ceilDiv cap 8
      if F.CODEC_STRM_RING_BYTES.get m w < x.ring.length + space then
        let t := modEnc m (fun y => { y with
          input := none, notCoded := wrapInc 32 y.notCoded, skipped := true, f := f, fk := some f, lastIn := some pic.pub }) s
        takeInput m (raise 2 (0x0850 + m) m [] (modEncSource m (holdOut (.codec m) none) t))
      else
        let (base, target) := picTarget m w x idr cap num den
        let lat := F.CODEC_STRM_LATENCY_US.get m w
        let refs := if idr then [] else x.refs.take (1 + F.CODEC_RC_REFS.get m w)
        let syn := encSyntax m s
        let since := if x.coded = 0 then 1 else ticksBetween m x.idrNum pic.header.num s
        let pre := prefixNals syn idr since 1 pic.header
        let rows := ctusOf (F.CODEC_PIC_OUT_H.get m w)
        let p : EncPic :=
          { k := k, idr := idr, header := pic.header, planes := codedPicture m pic s
            deadline := pic.pub + (if lat = 0 then ceilDiv (1000000000 * den) num else lat * 1000), bound := w, cap := cap
            target := target, base := base, qp := picQp m w x idr target, cols := ctusOf (F.CODEC_PIC_OUT_W.get m w)
            rows := rows, sliceRows := if F.CODEC_RC_SLICE_ROWS.get m w = 0 then rows else F.CODEC_RC_SLICE_ROWS.get m w
            reserved := space, refs := refs, bits := 8 * pre.length, bytes := pre, skipped := x.skipped }
        modEnc m (fun y => { y with
          input := none, pic := some p, forceIdr := false, k := k, f := f, fk := some f, lastIn := some pic.pub, skipped := false
          vui := syn.vui, idrNum := if idr then pic.header.num else y.idrNum }) s)

/-- The POC of a picture (R285). -/
def pocOf (m : Nat) (p : EncPic) : Nat := p.k % max 1 (F.CODEC_RC_INTRA_PERIOD.get m p.bound)

/-! ### CTUs (R271, R275, R297) -/

/-- What a CTU's modes and coefficients depend on besides the samples: the settings, the picture's type and QP, the CTU (R272). -/
def ctuContext (m : Nat) (p : EncPic) (i : Nat) : List Nat :=
  [i, p.cols, p.rows, p.sliceRows, p.qp, picType p.idr, F.CODEC_STRM_PROFILE.get m p.bound, F.CODEC_STRM_CHROMA.get m p.bound,
   F.CODEC_STRM_BITS.get m p.bound, F.CODEC_RC_QP_MIN.get m p.bound, F.CODEC_RC_QP_MAX.get m p.bound]

/-- The largest CUs of a region that the picture edge permits, in coding order: left, top, log2 of the size (R297). -/
def dcCus : Nat → Nat → Nat → Nat → Nat → List (Nat × Nat × Nat)
  | 0, _, _, _, _ => []
  | n + 1, x, y, w, h =>
    if w ≤ x ∨ h ≤ y then []
    else if x + 2 ^ (n + 3) ≤ w ∧ y + 2 ^ (n + 3) ≤ h then [(x, y, n + 3)]
    else
      let d := 2 ^ (n + 2)
      dcCus n x y w h ++ dcCus n (x + d) y w h ++ dcCus n x (y + d) w h ++ dcCus n (x + d) (y + d) w h

/-- A DC-only CTU: SAO off, then each CU with its place and size, luma mode DC, chroma mode 4, and for each TU its DC levels
quantised at QP_MAX and clamped to −2 to +2 (R297). [DESIGN CHOICE, log 40] -/
def dcEntry (m : Nat) (p : EncPic) (i : Nat) : List Nat :=
  let ch := F.CODEC_STRM_CHROMA.get m p.bound
  let cus := dcCus 4 (i % max 1 p.cols * 64) (i / max 1 p.cols * 64) (F.CODEC_PIC_OUT_W.get m p.bound) (F.CODEC_PIC_OUT_H.get m p.bound)
  0 :: cus.flatMap fun c =>
    let tus := if c.2.2 = 6 then 4 else 1
    [c.1, c.2.1, c.2.2, 1, 4] ++ (List.range (tus * (if ch = 1 then 5 else 3))).map fun k =>
      (clampI (-2) 2 (Config.dcLevel p.planes p.refs (ctuContext m p i ++ p.dcFrom.toList ++ [c.1, c.2.1, k])) + 2).toNat

/-- The entry of a CTU in the coefficient buffer (R275). -/
def ctuEntry (m : Nat) (p : EncPic) (i : Nat) : List Nat :=
  if p.dcFrom.isSome then dcEntry m p i else Config.ctuSymbols p.planes p.refs (ctuContext m p i)

/-- The bits and bins of a CTU in its slice; a DC-only one's cost is within DC_CTU (R297). -/
def ctuCode (dc : Bool) (limit qp : Nat) (before : List (List Nat)) (e : List Nat) : List Bool × Nat :=
  let b := Config.cabacBits before e qp
  let n := Config.cabacBins before e qp
  if dc then (b.take limit, min (5 * limit / 4) n) else (b, n)

/-! ### Slices (R294, R295) -/

/-- Slices of a picture. -/
def sliceCount (p : EncPic) : Nat := ceilDiv p.rows (max 1 p.sliceRows)

/-- P_j of R294. -/
def slicePlan (p : EncPic) (w : List Nat) (j : Nat) : Nat :=
  let v := fun i => if w.isEmpty then (min p.sliceRows (p.rows - i * p.sliceRows)) * p.cols else w.getD i 0
  let sum := fun n => ((List.range n).map v).sum
  if sum (sliceCount p) = 0 then 0 else p.target * sum (j + 1) / sum (sliceCount p)

/-- The QP of slice `j` (R294, R295). [DESIGN CHOICE, log 36; DEDUCED, log 42] -/
def sliceQpOf (m : Nat) (p : EncPic) (w : List Nat) (j : Nat) : Nat :=
  let lo := F.CODEC_RC_QP_MIN.get m p.bound
  let hi := F.CODEC_RC_QP_MAX.get m p.bound
  if p.spentAt.isSome then hi
  else if j = 0 then p.qp
  else
    let plan := slicePlan p w (j - 1)
    let e := if plan = 0 then Config.loopDivZero 6 (64 * costOf p.bits p.bins) else 64 * costOf p.bits p.bins / plan
    (clampI lo hi ((p.qp : Int) + dqOf e)).toNat

/-- A slice begins: its start code, its NAL unit header and its header, within SLICE_HDR (R286, R289). -/
def beginSlice (m : Nat) (w : List Nat) (j : Nat) (s : State) (p : EncPic) : EncPic :=
  let qp := sliceQpOf m p w j
  let h := wSliceHeader (encSyntax m s) p.idr (j * p.sliceRows * p.cols) (p.cols * p.rows) (pocOf m p) p.refs.length qp
  { p with
    sliceAt := costOf p.bits p.bins, sliceQp := qp, qps := p.qps ++ [qp], sliceData := h, sliceSyms := []
    bits := p.bits + 48 + h.length, begun := j + 1 }

/-- A slice ends: its NAL unit, whose bits with the alignment and the emulation prevention bytes now count, its cost, and the
budget (R288, R293, R295). -/
def endSlice (m j : Nat) (s : State) (p : EncPic) : EncPic :=
  let nal := mkNal (sliceNal (encSyntax m s) p.idr) (wTrail (p.sliceData ++ Config.cabacEnd p.sliceSyms p.sliceQp))
  let bytes := p.bytes ++ nal
  let c := costOf (8 * bytes.length) p.bins
  { p with
    sliceCosts := p.sliceCosts ++ [c - p.sliceAt], bytes := bytes, bits := 8 * bytes.length, sliceData := [], sliceSyms := []
    spentAt := if p.spentAt.isNone && decide (p.target ≤ c) && decide (j + 1 < sliceCount p) then some (j + 1) else p.spentAt }

/-- The CTU row where fallback began, all ones when it did not (R287, R302). -/
def fallbackRow (p : EncPic) : Nat :=
  match p.dcFrom with
  | some i => i / max 1 p.cols
  | none => 0xFFFF

/-- Word 0 of the report of R287. -/
def reportWord (m : Nat) (p : EncPic) : Nat :=
  let hi := F.CODEC_RC_QP_MAX.get m p.bound
  let at_ := if p.qps.contains hi then p.qps.idxOf hi else Config.noMaxSlice m
  b2n p.spentAt.isSome + b2n p.dcFrom.isSome * 2 + at_ % 256 * 2 ^ 8 + fallbackRow p * 2 ^ 16

/-- The suffix SEI of a picture and the picture's cost with it: the report names the cost that counts its own NAL unit (R287,
R288). `n` rounds settle the emulation prevention bytes of the report itself. -/
def suffixFor (m : Nat) (p : EncPic) : Nat → Nat → List Byte
  | 0, c => reportNal (reportWord m p) c
  | n + 1, c => suffixFor m p n (costOf (p.bits + 8 * (reportNal (reportWord m p) c).length) p.bins)

/-- A picture with the bytes that end its access unit (R286). -/
def withSuffix (m : Nat) (p : EncPic) : EncPic :=
  let b := suffixFor m p 4 (costOf p.bits p.bins)
  { p with bits := p.bits + 8 * b.length, bytes := p.bytes ++ b }

/-! ### Publication (R299, R302) -/

/-- Bytes are published in an encoder's ring; the first ones of an access unit begin it there (R299). -/
def pushRing (m : Nat) (p : EncPic) (s : State) : State :=
  let l := p.bytes.drop p.published
  trimRing m (modEnc m (fun x => { x with
    ring := x.ring ++ l
    starts := if p.published = 0 then x.starts ++ [(x.base + x.ring.length, p.header.num)] else x.starts }) s)

/-- LOW_LAT publishes what is coded (R299). -/
def publishSlices (m : Nat) (s : State) : State :=
  match (encOf m s).pic with
  | none => s
  | some p =>
    if cfgB F.CODEC_STRM_LOW_LAT m s then
      pushRing m p (modEnc m (fun x => { x with pic := some { p with published := p.bytes.length } }) s)
    else s

/-- The stream after its picture: the access unit's rest in the ring, its index entry, the rate state and the deadline (R280, R290,
R293, R302). -/
def endPicture (m : Nat) (p : EncPic) (s : State) : State :=
  let cost := costOf p.bits p.bins
  let ty := picType p.idr
  let x := encOf m s
  let cpb : Int := (F.CODEC_RC_CPB_BITS.get m p.bound : Nat)
  let ar : AuRecord :=
    { num := p.header.num, epoch := p.header.epoch
      pos := (x.base + x.ring.length - p.published) % max 1 (F.CODEC_STRM_RING_BYTES.get m p.bound), len := p.bytes.length
      flags := b2n p.idr + b2n p.spentAt.isSome * 2 + b2n p.dcFrom.isSome * 4 + b2n p.skipped * 8 + p.qp * 16 + fallbackRow p * 2 ^ 16
      poc := pocOf m p }
  let coded := Config.reconPlanes p.planes p.refs (ctuContext m p 0 ++ p.qps ++ p.dcFrom.toList)
  let t := pushRing m p s
  let t := modEnc m (fun y => { y with
    pic := none, k := p.k + 1, coded := wrapInc 64 y.coded, lastQp := p.qp, lastSpent := p.spentAt.isSome
    lastFall := p.dcFrom.isSome, qpLast := modAt y.qpLast ty fun _ => some p.qp, costLast := modAt y.costLast ty fun _ => cost
    weights := modAt y.weights ty fun _ => p.sliceCosts, refs := (coded :: (if p.idr then [] else y.refs)).take 2
    dev := if F.CODEC_RC_RC_MODE.on m p.bound then clampI (-cpb) cpb (y.dev + cost - p.base) else y.dev
    f := y.f - 8 * p.bytes.length, index := (ar :: y.index).take 256 }) t
  if p.deadline < nowNs t then
      raise 0 (0x0858 + m) m [] (modEnc m (fun y => { y with misses := wrapInc 32 y.misses }) t) else t

/-- An index record in its 32 bytes (R302). -/
def auRecordBytes (r : AuRecord) : List Byte :=
  leBytes 8 r.num ++ leBytes 4 r.epoch ++ leBytes 4 r.pos ++ leBytes 4 r.len ++ leBytes 4 r.flags ++ leBytes 4 r.poc ++ leBytes 4 0

/-- The recorder takes a completed access unit of its stream (R302). -/
def offerAu (m : Nat) (p : EncPic) (s : State) : State :=
  match recFor 1 m s with
  | some j =>
    let x := encOf m s
    let u : RecUnit :=
      { num := p.header.num, epoch := p.header.epoch, flags := tableFlags p.header p.idr, time := p.header.exp, idr := p.idr
        bytes := p.bytes, ringEnd := x.base + x.ring.length }
    acceptUnit (encEpoch m s) j u s
  | none => s

/-- An access unit completes (R280, R290, R293, R298, R302): the rate-control state, the index record, the consumers. [DEDUCED, log 42] -/
def finishPicture (m : Nat) (p : EncPic) (s : State) : State :=
  let q := withSuffix m p
  offerAu m q (endPicture m q s)

/-- Fallback begins at CTU `i` (R296): the entries from it on are discarded, and the pixel engine codes it and every later CTU
DC-only. -/
def beginFallback (m i : Nat) (p : EncPic) (s : State) : State :=
  let t := modCodec (fun c => { c with
    encFifo := c.encFifo.filter fun r => r.stream != m, encRow := if c.encRow = some m then none else c.encRow }) s
  raise 1 (0x0830 + m) m [] (modEnc m (fun x => { x with
    pic := some { p with dcFrom := some i, deal := i / max 1 p.cols, dealt := i % max 1 p.cols } }) t)

end Sys2Proof.Machine
end

