-- ==== Sys2Proof/Machine/Engines.lean ====
section
/-! DEFINITION. The pixel engine and the entropy engine, which the codec streams share, and the codec messages (R273 to R281, R296,
R313). -/

namespace Sys2Proof.Machine

/-! ### The coefficient buffer and the bin allowances (R275, R276, R279) -/

/-- CTU entries of a FIFO. [DEDUCED, log 42] -/
def fifoUsed (l : List CtuRow) : Nat := (l.map (·.ctus)).sum
/-- Free entries of the encode FIFO: the decode FIFO has a floor of 64 (R275). [DEDUCED, log 42] -/
def encRoom (c : Codec) : Nat := 256 - max 64 (fifoUsed c.decFifo) - fifoUsed c.encFifo
/-- Free entries of the decode FIFO. [DEDUCED, log 42] -/
def decRoom (c : Codec) : Nat := 256 - max 64 (fifoUsed c.encFifo) - fifoUsed c.decFifo

/-- A stream's bin allowance now, in units of 1/4,000,000,000 bin (R279). -/
def allowance (m : Nat) (s : State) : Int :=
  let full : Int := (5000000000 * cfgN F.CODEC_RC_CPB_BITS m s : Nat)
  match s.codec.allow.getD m none with
  | none => full
  | some (v, at_) => min full (v + (5 * cfgN F.CODEC_STRM_MAX_BPS m s * (nowNs s - at_) : Nat))

/-- Takes bins from a stream's allowance. -/
def spendBins (m bins : Nat) (s : State) : State :=
  modCodec (fun c => { c with allow := modAt c.allow m fun _ => some (allowance m s - (4000000000 * bins : Nat), nowNs s) }) s

/-! ### Units (R277, R278) -/

/-- The key of a unit: an empty allowance goes last (R278, R279); the final component tells decode from encode. -/
abbrev UnitKey := List Nat

/-- Lexicographic order of keys of one length. -/
def unitLt : UnitKey → UnitKey → Bool
  | a :: r, b :: t => decide (a < b) || (a == b && unitLt r t)
  | _, _ => false

/-- The least key. [DEDUCED, log 42] -/
def leastUnit (l : List UnitKey) : Option UnitKey :=
  l.foldl (fun best k => match best with
    | none => some k
    | some b => if unitLt k b then some k else some b) none

/-- A unit's key of R278. -/
def unitKey (m deadline count row kind : Nat) (s : State) : UnitKey :=
  [b2n (decide (allowance m s ≤ 0)), deadline, m, count, row, kind]

/-- The access unit whose rows a decode stream's oldest entries belong to. -/
def oldestAu (x : DecStream) : Option DecAu := (x.building ++ x.au.toList).head?

/-- The stream whose encode row the pixel engine has in part: it goes on when there is room (R275, R277). [DEDUCED, log 42] -/
def encPart (s : State) : Option Nat := s.codec.encRow.filter fun m => (encOf m s).pic.isSome
/-- The stream whose decode row the entropy engine has in part. [DEDUCED, log 42] -/
def decPart (s : State) : Option Nat := s.codec.decRow.filter fun m => (decOf m s).au.isSome

/-- The ready encode rows (R278); a row in part is the only one. -/
def encRows (s : State) : List UnitKey :=
  (List.range 8).filterMap fun m => match (encOf m s).pic with
    | some p => if encOn m s && decide (p.deal < p.rows) && encRoom s.codec != 0 && (encPart s).all (· == m) then
        some (unitKey m p.deadline p.k p.deal 0 s) else none
    | none => none

/-- The ready decode rows (R278); a row in part is the only one. -/
def decRows (s : State) : List UnitKey :=
  (List.range 8).filterMap fun m => match (decOf m s).au with
    | some a => if decOn m s && decide (a.parsed < a.rows * a.cols) && decRoom s.codec != 0 && (decPart s).all (· == m) then
        some (unitKey m a.deadline a.count (a.parsed / max 1 a.cols) 1 s) else none
    | none => none

/-- The row at the head of the decode FIFO (R278). -/
def decHead (s : State) : List UnitKey :=
  match s.codec.decFifo with
  | r :: _ => match oldestAu (decOf r.stream s) with
    | some a => [unitKey r.stream a.deadline a.count r.row 1 s]
    | none => [unitKey r.stream 0 0 r.row 1 s]
  | [] => []

/-- The row at the head of the encode FIFO (R278). -/
def encHead (s : State) : List UnitKey :=
  match s.codec.encFifo with
  | r :: _ => match (encOf r.stream s).pic with
    | some p => [unitKey r.stream p.deadline p.k r.row 0 s]
    | none => [unitKey r.stream 0 0 r.row 0 s]
  | [] => []

/-- What the pixel engine may take: a row in part first, else every ready unit (R276, R277, R278). [DEDUCED, log 42] -/
def pixelUnits (s : State) : List UnitKey := if (encPart s).isSome && encRoom s.codec != 0 then encRows s else encRows s ++ decHead s
/-- What the entropy engine may take. [DEDUCED, log 42] -/
def entropyUnits (s : State) : List UnitKey := if (decPart s).isSome && decRoom s.codec != 0 then decRows s else encHead s ++ decRows s

/-! ### The pixel engine (R276, R278, R282) -/

/-- The pixel engine takes an encode row, or as much of it as the encode FIFO has room for (R275, R276); after the last row the
input buffer is released (R282). -/
def pixelEncode (m : Nat) (s : State) : State :=
  match (encOf m s).pic with
  | none => s
  | some p =>
    let first := p.deal * p.cols + p.dealt
    let n := min (p.cols - p.dealt) (encRoom s.codec)
    let row : CtuRow :=
      { stream := m, row := p.deal, first := first, ctus := n, dc := p.dcFrom.isSome
        entries := (List.range n).map fun i => ctuEntry m p (first + i) }
    let whole := p.cols ≤ p.dealt + n
    let last := whole && p.deal + 1 == p.rows
    let t := modCodec (fun c => { c with encFifo := c.encFifo ++ [row], encRow := if whole then none else some m }) s
    let t := modEnc m (fun x => { x with
      pic := some { p with deal := if whole then p.deal + 1 else p.deal, dealt := if whole then 0 else p.dealt + n,
                           holding := p.holding && !last } }) t
    if last && p.holding then takeInput m (modEncSource m (holdOut (.codec m) none) t) else t

/-- The pixel engine builds the CTUs at the head of the decode FIFO: the first ones begin their picture, the last ones end it. -/
def pixelDecode (s : State) : State :=
  match s.codec.decFifo with
  | [] => s
  | r :: rest =>
    let m := r.stream
    let t := modCodec (fun c => { c with decFifo := rest }) s
    match oldestAu (decOf m t) with
    | none => t
    | some a0 =>
      let (a, t) := if a0.built = 0 then startPicture m a0 t else (a0, t)
      let a := { a with built := a.built + r.ctus }
      if a.rows * a.cols ≤ a.built then finishDecode m a t
      else modDec m (fun x => if x.building.isEmpty then { x with au := some { a with parsed := (x.au.getD a).parsed } }
        else { x with building := a :: x.building.drop 1 }) t

/-- PIXEL_ENGINE_UNIT (R278). [DEDUCED, log 42] -/
def execPixelEngineUnit (s : State) : Res :=
  .next (if !blkOn .codec s then s else match leastUnit (pixelUnits s) with
    | some [_, _, m, _, _, kind] => if kind = 0 then pixelEncode m s else pixelDecode s
    | _ => s)

/-! ### The entropy engine (R278, R279, R296) -/

/-- Entropy-codes the CTUs of entries from CTU `i` on, checking the reserve after each; the bins of a CTU that is coded and then
discarded are taken from the allowance too (R279, R296). -/
def codeCtus (m : Nat) (dc : Bool) : List (List Nat) → Nat → State → State
  | [], _, s => s
  | e :: r, i, s =>
    match (encOf m s).pic with
    | none => s
    | some p =>
      let w := (encOf m s).weights.getD (picType p.idr) []
      let per := max 1 (p.cols * p.sliceRows)
      let j := i / per
      let total := p.rows * p.cols
      let lim := dcCtu (F.CODEC_STRM_CHROMA.get m p.bound)
      let q := if i % per = 0 && p.begun == j then beginSlice m w j s p else p
      let c := ctuCode dc lim q.sliceQp q.sliceSyms e
      let p' := { q with
        bits := q.bits + c.1.length, bins := q.bins + c.2, sliceData := q.sliceData ++ c.1, sliceSyms := q.sliceSyms ++ [e], next := i + 1 }
      let rv := lim * (total - 1 - i) + 1024 * (sliceCount p - q.begun) + 320
      let s1 := spendBins m c.2 s
      if !dc && decide (p.cap < costOf p'.bits p'.bins + rv) then beginFallback m i q s1
      else
        let ends := (i + 1) % per == 0 || i + 1 == total
        let spent := p'.spentAt.isNone
        let p' := if ends then endSlice m j s1 p' else p'
        let s2 := modEnc m (fun x => { x with pic := some p' }) s1
        let s2 := if spent && p'.spentAt.isSome then raise 0 (0x0828 + m) m [] s2 else s2
        let s2 := if ends then publishSlices m s2 else s2
        if i + 1 = total then (match (encOf m s2).pic with
          | some z => finishPicture m z s2
          | none => s2)
        else codeCtus m dc r (i + 1) s2

/-- The entropy engine takes the entries at the head of the encode FIFO. -/
def entropyEncode (s : State) : State :=
  match s.codec.encFifo with
  | [] => s
  | r :: rest => codeCtus r.stream r.dc r.entries r.first (modCodec (fun c => { c with encFifo := rest }) s)

/-- The entropy engine parses a decode row, or as much of it as the decode FIFO has room for; the Frame fields commit at a
picture's first row, and a parsed access unit makes way for the next (R275, R279, R281). [DESIGN CHOICE, log 41] -/
def entropyDecode (m : Nat) (s : State) : State :=
  match (decOf m s).au with
  | none => s
  | some a =>
    let cols := max 1 a.cols
    let n := min (cols - a.parsed % cols) (decRoom s.codec)
    let row : CtuRow :=
      { stream := m, row := a.parsed / cols, first := a.parsed, ctus := n, dc := false }
    let b := { a with parsed := a.parsed + n }
    let whole := b.parsed % cols == 0
    let t := modCodec (fun c => { c with decFifo := c.decFifo ++ [row], decRow := if whole then none else some m }) s
    let t := spendBins m (Config.parsedBins (auSets a) a.bytes a.parsed n) t
    let t := modDec m (fun x => { x with bound := if a.parsed = 0 then s.cfg.accepted else x.bound }) t
    if a.rows * a.cols ≤ b.parsed then tryDecode m (modDec m (fun x => { x with au := none, building := x.building ++ [b] }) t)
    else modDec m (fun x => { x with au := some b }) t

/-- ENTROPY_ENGINE_UNIT (R278). [DEDUCED, log 42] -/
def execEntropyEngineUnit (s : State) : Res :=
  .next (if !blkOn .codec s then s else match leastUnit (entropyUnits s) with
    | some [_, _, m, _, _, kind] => if kind = 0 then entropyEncode s else entropyDecode m s
    | _ => s)

/-! ### Messages (R313) -/

/-- Message 0x0800 + m: stream status. -/
def streamStatusMsg (m : Nat) : MsgDef :=
  { blk := .codec, status := true,
    act := fun _ _ s =>
      let x := encOf m s
      let d := decOf m s
      let dir := cfgB F.CODEC_STRM_DIR m s
      let w1 := b2n (cfgB F.CODEC_STRM_ENABLE m s) + b2n dir * 2 +
        (if dir then b2n d.lastConcealed * 16 else b2n x.lastSpent * 4 + b2n x.lastFall * 8 + x.lastQp * 256)
      (.accept (if dir then [w1] ++ loWords 2 d.outputs ++ [d.lost, d.misses, d.concealed, d.input.length]
        else [w1] ++ loWords 2 x.coded ++ [x.notCoded, x.misses, 0, x.fk.getD (cfgN F.CODEC_RC_CPB_BITS m s) % 2 ^ 32]), s) }

/-- Message 0x0808 + m: bitstream read. -/
def bitstreamReadMsg (m : Nat) : MsgDef :=
  { count := fun c => c == 2, masks := [0xFFFFFFFF], blk := .codec,
    bad := fun r _ => decide (0x100000 < r.w 1),
    act := fun r _ s =>
      if !holdsBulk r.path s then (.refuse 5 0 0, s)
      else if !encOn m s || !cfgB F.CODEC_STRM_HOST_READ m s then (.refuse 7 0 0, s)
      else
        let x := encOf m s
        let l := (x.ring.drop (x.hostPos - x.base)).take (r.w 1)
        let num := match x.starts.find? fun a => decide (x.hostPos ≤ a.1 ∧ a.1 < x.hostPos + l.length) with
          | some a => a.2
          | none => 2 ^ 64 - 1
        (.accept ([l.length] ++ loWords 2 num),
         trimRing m (modEnc m (fun y => { y with hostPos := y.hostPos + l.length }) (writeBulk 0 l s))) }

/-- Message 0x0810 + m: bitstream write. -/
def bitstreamWriteMsg (m : Nat) : MsgDef :=
  { count := fun c => c == 3, masks := [0xFFFFFFFF, 1], blk := .codec,
    bad := fun r _ => decide (0x100000 < r.w 1),
    act := fun r _ s =>
      let size := cfgN F.CODEC_STRM_RING_BYTES m s
      if !holdsBulk r.path s then (.refuse 5 0 0, s)
      else if !decOn m s || cfgB F.CODEC_PIC_DEC_SRC m s then (.refuse 7 0 0, s)
      else if size < (decOf m s).input.length + r.w 1 then (.refuse 7 0 0, s)
      else
        let t := feedDecoder m (readBulk 0 (r.w 1) s) (r.w 2 % 2 == 1) s
        (.accept [size - (decOf m t).input.length], t) }

/-- Message 0x0818 + m: force IDR; the picture that becomes the IDR has k 0 again (R285). -/
def forceIdrMsg (m : Nat) : MsgDef :=
  { blk := .codec,
    act := fun _ _ s =>
      if !encOn m s then (.refuse 7 0 0, s)
      else (.accept [(encOf m s).coded % 2 ^ 32 + b2n (encOf m s).pic.isSome], modEnc m (fun x => { x with forceIdr := true }) s) }

/-- Message 0x0820 + m: decoder flush. -/
def decoderFlushMsg (m : Nat) : MsgDef :=
  { blk := .codec,
    act := fun _ _ s => if !decOn m s then (.refuse 7 0 0, s) else (.accept [], flushDecoder m s) }

end Sys2Proof.Machine
end

