-- ==== Sys2Proof/Machine/Net.lean ====
section
/-! DEFINITION. What the Ethernet MACs put on the wire of their own: Ethernet, IPv4 and UDP framing, ARP, ICMP echo and IGMPv3
(R477, R479, R486). -/

namespace Sys2Proof.Machine

/-- Whether an IPv4 address is a multicast group. -/
def isGroup (ip : Nat) : Bool := ip / 2 ^ 28 == 0xE

/-- The address a MAC resolves for a destination: its own on the MAC's subnet, else the gateway (R477, R486). -/
def nextHop (m ip : Nat) (w : Words) : Nat :=
  let k := 32 - F.ETH_PREFIX.get m w
  if ip / 2 ^ k = F.ETH_IP_ADDR.get m w / 2 ^ k then ip else F.ETH_GATEWAY.get m w

/-- The Ethernet address of a destination: the group's, or what ARP has resolved (R477). -/
def destMac (m ip : Nat) (s : State) : Option Nat :=
  if isGroup ip then some (0x01005E000000 + ip % 2 ^ 23)
  else (s.out.macs.getD m {}).arp.lookup (nextHop m ip s.cfg.accepted)

/-- A MAC's own address: the base address of OTP plus its number (R477). -/
def ownMac (m : Nat) (s : State) : Nat := (s.otp.baseMac + m) % 2 ^ 48

/-- An Ethernet frame without its FCS: addresses, the tag when VLAN_EN is 1, type, payload (R486). [PRESUMED, log 116] -/
def ethFrame (m dst typ : Nat) (payload : List Byte) (s : State) : List Byte :=
  let w := s.cfg.accepted
  let tag := if F.ETH_VLAN_EN.on m w then beBytes 2 0x8100 ++ beBytes 2 (F.ETH_PCP.get m w * 2 ^ 13 + F.ETH_VID.get m w) else []
  beBytes 6 dst ++ beBytes 6 (ownMac m s) ++ tag ++ beBytes 2 typ ++ payload

/-- The checksum of the Internet protocols: the complement of the one's complement sum of 16-bit words. [PRESUMED, log 116] -/
def inetSum (l : List Byte) : Nat :=
  let t := ((List.range ((l.length + 1) / 2)).map fun k => (l.getD (2 * k) 0).toNat * 256 + (l.getD (2 * k + 1) 0).toNat).sum
  let t := t % 65536 + t / 65536
  let t := t % 65536 + t / 65536
  (65535 - t % 65536) % 65536

/-- An IPv4 packet from a MAC's address, not fragmented; `opts` are header options (R479). [PRESUMED, log 116] -/
def ipPacket (m tos ttl proto dst : Nat) (opts payload : List Byte) (s : State) : List Byte :=
  let len := 20 + opts.length
  let head := fun (sum : Nat) => [BitVec.ofNat 8 (0x40 + len / 4), BitVec.ofNat 8 tos] ++ beBytes 2 (len + payload.length) ++
    beBytes 2 0 ++ beBytes 2 0x4000 ++ [BitVec.ofNat 8 ttl, BitVec.ofNat 8 proto] ++ beBytes 2 sum ++
    beBytes 4 (cfgN F.ETH_IP_ADDR m s) ++ beBytes 4 dst ++ opts
  head (inetSum (head 0)) ++ payload

/-- A UDP datagram, its checksum not used. [PRESUMED, log 116] -/
def udpPacket (src dst : Nat) (payload : List Byte) : List Byte :=
  beBytes 2 src ++ beBytes 2 dst ++ beBytes 2 (8 + payload.length) ++ beBytes 2 0 ++ payload

/-- An ARP frame: 1 a request for `ip`, 2 a reply to it (R477). [PRESUMED, log 116] -/
def arpFrame (m op ip mac : Nat) (s : State) : List Byte :=
  ethFrame m (if op = 1 then 0xFFFFFFFFFFFF else mac) 0x0806
    (beBytes 2 1 ++ beBytes 2 0x0800 ++ beBytes 1 6 ++ beBytes 1 4 ++ beBytes 2 op ++ beBytes 6 (ownMac m s) ++
      beBytes 4 (cfgN F.ETH_IP_ADDR m s) ++ beBytes 6 (if op = 1 then 0 else mac) ++ beBytes 4 ip) s

/-- The answer to an ICMP echo: type 0 and the request's identifier, sequence number and data (R477). [PRESUMED, log 116] -/
def echoFrame (m ip : Nat) (icmp : List Byte) (s : State) : List Byte :=
  let body := icmp.drop 4
  let head := fun (sum : Nat) => beBytes 2 0 ++ beBytes 2 sum ++ body
  ethFrame m ((destMac m ip s).getD 0) 0x0800 (ipPacket m 0 Config.ipTtl 1 ip [] (head (inetSum (head 0))) s) s

/-- An IGMPv3 membership report that joins groups: TTL 1, router alert, to 224.0.0.22 (R477, R510). [PRESUMED, log 116] -/
def igmpFrame (m : Nat) (gs : List Nat) (s : State) : List Byte :=
  let recs := gs.flatMap fun g => beBytes 1 4 ++ beBytes 3 0 ++ beBytes 4 g
  let head := fun (sum : Nat) => beBytes 1 0x22 ++ beBytes 1 0 ++ beBytes 2 sum ++ beBytes 2 0 ++ beBytes 2 gs.length ++ recs
  ethFrame m 0x01005E000016 0x0800 (ipPacket m 0xC0 1 2 0xE0000016 (beBytes 4 0x94040000) (head (inetSum (head 0))) s) s

end Sys2Proof.Machine
end

