-- ==== Sys2Proof/Machine/Output.lean ====
section
/-! DEFINITION. The SDI outputs, the ST 2110 senders and the Ethernet MACs (chapter 13, R465 to R484). -/

namespace Sys2Proof.Machine

/-- Applies `f` to the outputs. -/
def modOuts (f : Outputs → Outputs) (s : State) : State := { s with out := f s.out }
/-- Applies `f` to an output. -/
def modOutput (o : OutId) (f : Output → Output) (s : State) : State :=
  match o with
  | .sdi k => modOuts (fun x => { x with sdi := modAt x.sdi k f }) s
  | .snd k => modOuts (fun x => { x with snd := modAt x.snd k f }) s
/-- An output. -/
def outputOf (o : OutId) (s : State) : Output :=
  match o with
  | .sdi k => s.out.sdi.getD k {}
  | .snd k => s.out.snd.getD k {}
/-- Applies `f` to a MAC. -/
def modMac (m : Nat) (f : Mac → Mac) (s : State) : State := modOuts (fun x => { x with macs := modAt x.macs m f }) s

/-! ### Settings of an output -/

/-- Whether an output is an SDI output. -/
def isSdi : OutId → Bool
  | .sdi _ => true
  | _ => false

/-- Number of an output. -/
def outNum : OutId → Nat
  | .sdi k => k
  | .snd k => k

/-- A field of an output: of page SDIk or of page SNDs. -/
def outFld (a b : Fld) (o : OutId) (w : Words) : Nat := if isSdi o then a.get (outNum o) w else b.get (outNum o) w

/-- Whether an output is enabled. -/
def outEnabled (o : OutId) (w : Words) : Bool :=
  decide (outNum o < if isSdi o then 4 else 16) && outFld F.SDI_ENABLE F.SND_ENABLE o w != 0

/-- Whether an output takes pictures: every SDI output, and video and ancillary senders (R465). -/
def outVideo (o : OutId) (w : Words) : Bool := isSdi o || F.SND_KIND.get (outNum o) w != 1

/-- Frame rate of an output. -/
def outFps (o : OutId) (w : Words) : Nat × Nat := (outFld F.SDI_FPS_NUM F.SND_FPS_NUM o w, outFld F.SDI_FPS_DEN F.SND_FPS_DEN o w)

/-- OFFSET_NS of an output. -/
def outOffset (o : OutId) (w : Words) : Int := sext 32 (outFld F.SDI_OFFSET_NS F.SND_OFFSET_NS o w)

/-- T_n in TOD nanoseconds, for every integer n (R466). -/
def frameTimeI (o : OutId) (n : Int) (w : Words) : Int :=
  let f := outFps o w
  n * 1000000000 * f.2 / f.1 + outOffset o w

/-- The source of an output: a tap's ring or a decode stream's (R465). -/
def srcRing (kind idx : Nat) (s : State) : OutRing := if kind = 0 then s.cap.taps.getD idx {} else (decOf idx s).out

/-- Applies `f` to a source ring. -/
def modSrcRing (kind idx : Nat) (f : OutRing → OutRing) (s : State) : State :=
  if kind = 0 then modCap (fun c => { c with taps := modAt c.taps idx f }) s else modDec idx (fun d => { d with out := f d.out }) s

/-- The current epoch of a source (R563): E_s of the tap's seam, or EB. -/
def srcEpoch (kind idx : Nat) (s : State) : Nat :=
  if kind = 0 then seamEpoch (cfgN F.TAP_SRC_SEAM idx s) s else decodeEpoch s

/-- The newest published buffer of the current epoch in a ring: its place (R32, R467). -/
def newestCurrent (epoch : Nat) (r : OutRing) : Option Nat :=
  newestOut { r with bufs := r.bufs.map fun b => if b.pic.header.epoch = epoch then b else { b with order := 0 } }

/-- Width, height, format code of R191 and bits of a source (R465, R472, R480). -/
def srcShape (kind idx : Nat) (w : Words) : Nat × Nat × Nat × Nat :=
  if kind = 0 then
    (F.TAP_SRC_OUT_W.get idx w, F.TAP_SRC_OUT_H.get idx w, F.TAP_SRC_FORMAT.get idx w, tapBits (F.TAP_SRC_BITS.get idx w))
  else
    (F.CODEC_PIC_OUT_W.get idx w, F.CODEC_PIC_OUT_H.get idx w,
     (match F.CODEC_STRM_CHROMA.get idx w with | 0 => 2 | 1 => 1 | _ => 3), codecBits (F.CODEC_STRM_BITS.get idx w))

/-- Whether a source is enabled. -/
def srcOn (kind idx : Nat) (w : Words) : Bool :=
  if kind = 0 then F.TAP_SRC_ENABLE.on idx w else F.CODEC_STRM_ENABLE.on idx w && F.CODEC_STRM_DIR.on idx w

/-- Kind and number of an output's source. -/
def outSrc (o : OutId) (w : Words) : Nat × Nat := (outFld F.SDI_SRC_KIND F.SND_SRC_KIND o w, outFld F.SDI_SRC_INDEX F.SND_SRC_INDEX o w)

/-- The consumer an output is (R190). -/
def outHolder : OutId → Holder
  | .sdi k => .sdi k
  | .snd k => .sender k

/-- Whether an output is in use. -/
def outOn (o : OutId) (s : State) : Bool := blkOn .media s && outEnabled o s.cfg.accepted

/-- Whether outputs transmit (R471, R574, R576). [DEDUCED, log 60] -/
def outActive (s : State) : Bool := s.dev.role != .body || actsPrimary s

/-! ### Selection (R467 to R469) -/

/-- A background frame of a shape: black (R469). -/
def backgroundPic (kind idx : Nat) (w : Words) : Picture :=
  let (wd, ht, fmt, b) := srcShape kind idx w
  let flat := fun (v x y : Nat) => List.replicate y (List.replicate x v)
  let m := 2 ^ (b - 8)
  let planes := match fmt with
    | 0 => List.replicate 3 (flat 0 wd ht)
    | 1 => [flat (16 * m) wd ht, flat (128 * m) (wd / 2) ht, flat (128 * m) (wd / 2) ht]
    | 2 => [flat (16 * m) wd ht, flat (128 * m) (wd / 2) (ht / 2), flat (128 * m) (wd / 2) (ht / 2)]
    | _ => [flat (16 * m) wd ht, flat (128 * m) wd ht, flat (128 * m) wd ht]
  { format := fmt, bits := b, planes := planes }

/-- The background error of an output (R483). -/
def bgErr (o : OutId) : Nat := if isSdi o then 0x0D18 + outNum o else 0x0D20 + outNum o

/-- An output takes hold of a buffer, letting go of the one it held (R467). [DEDUCED, log 60] -/
def takeHold (o : OutId) (i : Nat) (s : State) : State :=
  let src := outSrc o s.cfg.accepted
  let b := (srcRing src.1 src.2 s).bufs.getD i {}
  modOutput o (fun x => { x with order := b.order, held := some b.pic, run := 0, mode := 1, noted := false })
    (modSrcRing src.1 src.2 (holdOut (outHolder o) (some i)) s)

/-- A repeat or a background frame is selected (R467, R469). [DEDUCED, log 60] -/
def repeatHeld (o : OutId) (s : State) : State :=
  let x := outputOf o s
  let back := x.held.isNone || decide (x.hold ≠ 0 ∧ x.hold ≤ x.run)
  if !back then modOutput o (fun y => { y with mode := 2, run := y.run + 1, noted := false }) s
  else
    let t := modOutput o (fun y => { y with mode := 3, noted := y.noted || outActive s }) s
    if x.noted || !outActive s then t else raise 1 (bgErr o) (outNum o) [] t

/-- The first n of an output whose T_n is not before an instant in TOD ns (R466). -/
def frameFromNs (o : OutId) (t : Int) (w : Words) : Int :=
  let f := outFps o w
  0 - (-((t - outOffset o w) * f.1)) / (1000000000 * f.2 : Nat)

/-- Buffers of another epoch that were published since the output looked last are discarded whole and counted (R32). -/
def passStale (epoch : Nat) (r : OutRing) (x : Output) : Output :=
  { x with
    seen := (r.bufs.map (·.order)).foldl max x.seen
    stale := (x.stale + (r.bufs.filter fun b => decide (x.seen < b.order) && b.pic.header.epoch != epoch).length) % 2 ^ 32 }

/-- OUTPUT_FRAME_SELECT (R467): at T_n − 100 µs. [DEDUCED, log 60] -/
def execOutputFrameSelect (o : OutId) (s : State) : Res :=
  .next (if !outOn o s || !outVideo o s.cfg.accepted then s
    else
      let w := s.cfg.accepted
      let src := outSrc o w
      let r := srcRing src.1 src.2 s
      let s := modOutput o (fun x => passStale (srcEpoch src.1 src.2 s) r
        { x with hold := outFld F.SDI_HOLD_FRAMES F.SND_HOLD_FRAMES o w, next := frameFromNs o (nowNs s) w }) s
      match newestCurrent (srcEpoch src.1 src.2 s) r with
      | some i => if (r.bufs.getD i {}).order = (outputOf o s).order then repeatHeld o s else takeHold o i s
      | none => repeatHeld o s)

/-! ### Sending (R466, R476, R479 to R482) -/

/-- Samples of an audio packet and its channels (R480). [PRESUMED, log 16; DESIGN CHOICE, log 61] -/
def audioPacket (n : Nat) (w : Words) : Nat × Nat :=
  let m := F.SND_AUDIO_MASK.get n w
  (if F.SND_PTIME.on n w then 6 else 48, 2 * ((List.range 8).filter fun p => m / 2 ^ p % 2 == 1).length)

/-- Bytes of a pixel group and its pixels for a format and depth (ST 2110-20). [DESIGN CHOICE, log 61] -/
def pixelGroup (fmt bits : Nat) : Nat × Nat :=
  match fmt, bits with
  | 1, 10 => (5, 2)
  | 1, _ => (6, 2)
  | _, 10 => (15, 4)
  | _, _ => (9, 2)

/-- Packets of a frame, or packet time, of a sender and their payload bytes in all (R480, R482); an ancillary packet holds the
8-byte RFC 8331 header, 32 bytes of ATC_VITC and 72 bytes of the frame-header packet. -/
def senderLoad (n : Nat) (w : Words) : Nat × Nat :=
  match F.SND_KIND.get n w with
  | 0 =>
    let (wd, ht, fmt, b) := srcShape (F.SND_SRC_KIND.get n w) (F.SND_SRC_INDEX.get n w) w
    let (gb, gp) := pixelGroup fmt b
    let line := ceilDiv wd gp * gb
    let per := 1200 / gb * gb
    (ceilDiv line per * ht, line * ht)
  | 1 =>
    let (k, ch) := audioPacket n w
    (1, k * ch * (if F.SND_L16.on n w then 2 else 3))
  | _ => (1, 112)

/-- The MACs a sender sends on. -/
def senderMacs (n : Nat) (w : Words) : List Nat :=
  F.SND_MAC.get n w :: (if F.SND_DUP_EN.on n w then [F.SND_DUP_MAC.get n w] else [])

/-- Destinations of a sender, each with its MAC: the stream's and its copy's (R479). -/
def senderDests (n : Nat) (w : Words) : List (Nat × Nat) :=
  (F.SND_MAC.get n w, F.SND_DEST_IP.get n w) ::
    (if F.SND_DUP_EN.on n w then [(F.SND_DUP_MAC.get n w, F.SND_DUP_DEST_IP.get n w)] else [])

/-- A MAC sends `k` packets to a destination; one it has not resolved it asks for by ARP instead, once (R477, R479). [DESIGN CHOICE, log 61] -/
def macSend (m ip k : Nat) (s : State) : State :=
  let x := s.out.macs.getD m {}
  if !x.up then s
  else match destMac m ip s with
    | some _ => modMac m (fun y => { y with sent := (y.sent + k) % 2 ^ 64 }) s
    | none =>
      let hop := nextHop m ip s.cfg.accepted
      if x.asked.contains hop then s
      else modMac m (fun y => { y with asked := hop :: y.asked, sent := wrapInc 64 y.sent, last := [arpFrame m 1 hop 0 s] }) s

/-- A sender sends `k` packets, and their copies (R479). [DESIGN CHOICE, log 61] -/
def sendPackets (n k : Nat) (s : State) : State :=
  let t := modOutput (.snd n) (fun x => { x with packets := (x.packets + k) % 2 ^ 64, rtpSeq := (x.rtpSeq + k) % 65536, seq0 := x.packets }) s
  (senderDests n s.cfg.accepted).foldl (fun u d => macSend d.1 d.2 k u) t

/-- An SDI sender clamps every sample code to 4 to 1,019 (R473). -/
def lineCodes (o : OutId) (p : Picture) : Picture :=
  match o with
  | .sdi _ => { p with planes := p.planes.map fun l => l.map fun r => r.map fun v => max 4 (min 1019 v) }
  | .snd _ => p

/-- The picture an output sends for the frame it selected: a repeat carries REPEATED (R33, R467). [DESIGN CHOICE, log 61] -/
def sentPic (o : OutId) (x : Output) (w : Words) : Option Picture :=
  let p : Option Picture := match x.mode with
  | 1 => x.held
  | 2 => x.held.map fun p => { p with header := { p.header with repeated := true } }
  | 3 => some (backgroundPic (outSrc o w).1 (outSrc o w).2 w)
  | _ => none
  p.map (lineCodes o)

/-- Half a line of an SDI format in ps (R476): a frame has 1,125 lines, or 2,250 at 3840 × 2160. [PRESUMED, log 16] -/
def halfLinePs (k : Nat) (w : Words) : Nat :=
  let lines := if F.SDI_FORMAT.get k w = 0 then 1125 else 2250
  1000000000000 * F.SDI_FPS_DEN.get k w / (F.SDI_FPS_NUM.get k w * lines * 2)

/-! ### Audio (R474, R479 to R481, R610) -/

/-- The ports of an audio mask. -/
def maskList (m : Nat) : List Nat := (List.range 8).filter fun p => m / 2 ^ p % 2 == 1

/-- The sample of a channel of a port at an instant in TOD ns: of the block whose time stamp covers it, the last frame again where a
slave clock runs slow; zero where the port delivers none (R474, R481, R610). [DESIGN CHOICE, log 115] -/
def sampleAt (p ch : Nat) (t : Int) (s : State) : Int :=
  match (s.out.audio.getD p {}).ring.reverse.find? fun b => decide ((todUnits b.stamp / 65536 : Nat) ≤ t) with
  | some b =>
    let j := (((t - (todUnits b.stamp / 65536 : Nat)).toNat + 1) * 48000 - 1) / 1000000000
    if j ≤ 64 then b.samples.getD (2 * min j 63 + ch) 0 else 0
  | none => 0

/-- A sample frame: the two channels of each port in port order, up to 16 (R474, R480). -/
def sampleFrame (mask : Nat) (t : Int) (s : State) : List Int :=
  (maskList mask).flatMap fun p => [sampleAt p 0 t s, sampleAt p 1 t s]

/-- The sample frames whose 48 kHz instants are numbers `a` to `a + n - 1`. -/
def audioRun (mask : Nat) (a : Int) (n : Nat) (s : State) : List (List Int) :=
  (List.range n).map fun (k : Nat) => sampleFrame mask ((a + k) * 1000000000 / 48000) s

/-- The number of the first 48 kHz instant at or after a TOD in ns. -/
def sampleFrom (t : Int) : Int := 0 - (-(t * 48000)) / 1000000000

/-- The audio that an SDI output embeds in frame n (R474). [DESIGN CHOICE, log 115] -/
def frameAudio (k : Nat) (n : Int) (s : State) : List (List Int) :=
  let w := s.cfg.accepted
  let a := sampleFrom (frameTimeI (.sdi k) n w - Config.audioLag)
  audioRun (F.SDI_AUDIO_MASK.get k w) a (sampleFrom (frameTimeI (.sdi k) (n + 1) w - Config.audioLag) - a).toNat s

/-! ### RTP timestamps (R479) -/

/-- The 90 kHz timestamp of a frame: ⌊T_n × 9 / 100,000⌋ mod 2^32. -/
def videoStamp (o : OutId) (n : Int) (w : Words) : Nat := (frameTimeI o n w * 9 / 100000 % 2 ^ 32).toNat

/-- The 48 kHz timestamp of an instant: ⌊T × 6 / 125,000⌋ mod 2^32. -/
def audioStamp (t : Int) : Nat := (t * 6 / 125000 % 2 ^ 32).toNat

/-! ### Frame starts -/

/-- A measured frame-start error steers the divider of an SDI output's pair (R475). [DESIGN CHOICE, log 115] -/
def steerPair (o : OutId) (errPs : Int) (s : State) : State :=
  match o with
  | .sdi k => modOuts (fun x => { x with pairs := modAt x.pairs (k / 2) fun d => { d with pull := Config.steerPull (k / 2) errPs } }) s
  | .snd _ => s

/-- OUTPUT_FRAME_START (R466): the frame selected leaves; `errPs` is the frame-start error measured at the pins. After a frame that
starts more than half a line off, an SDI output fills with black lines until the next T_n (R476). [DEDUCED, log 60] -/
def execOutputFrameStart (o : OutId) (errPs : Int) (s : State) : Res :=
  .next (if !outOn o s || !outVideo o s.cfg.accepted then s
    else if !outActive s then modOutput o (fun x => { x with sent := none }) (steerPair o errPs s)
    else
      let w := s.cfg.accepted
      let x := outputOf o s
      let t := modOutput o (fun y => { y with
        sent := sentPic o x w, frame := x.next, filling := false
        repeats := if x.mode = 2 then wrapInc 32 y.repeats else y.repeats
        backgrounds := if x.mode = 3 then wrapInc 32 y.backgrounds else y.backgrounds
        errPs := errPs, stamp := videoStamp o x.next w }) (steerPair o errPs s)
      match o with
      | .sdi k =>
        let t := modOutput o (fun y => { y with audio := frameAudio k x.next s }) t
        if halfLinePs k w < errPs.natAbs then
          raise 0 (0x0D04 + k) k [] (modOutput o (fun y => { y with rephases := wrapInc 32 y.rephases, filling := true }) t) else t
      | .snd n => sendPackets n (senderLoad n w).1 t)

/-- AUDIO_PACKET_TIMER (R481): an audio sender sends a packet every packet time; samples that were not delivered are zeros. -/
def execAudioPacketTimer (snd : Nat) (s : State) : Res :=
  .next (if outOn (.snd snd) s && cfgN F.SND_KIND snd s == 1 && outActive s then
      let w := s.cfg.accepted
      let t : Int := (nowNs s : Int) - Config.audioLag
      sendPackets snd 1 (modOutput (.snd snd) (fun x => { x with
        stamp := audioStamp t, audio := audioRun (F.SND_AUDIO_MASK.get snd w) (sampleFrom t) (audioPacket snd w).1 s }) s)
    else s)

/-! ### MACs (R477) -/

/-- Whether a MAC is in use. -/
def macOn (m : Nat) (s : State) : Bool :=
  s.dev.state == .running && hasBlk .media s && !stopping s && !s.pwr.thermallyOff && decide (m < 4) && cfgB F.ETH_ENABLE m s

/-- The groups a MAC joins: those of PTP, and of array datagrams on their MAC (R477, R501, R510). -/
def macGroups (m : Nat) (s : State) : List Nat :=
  (if ptpOn m s then [0xE0000181] else []) ++
    (if cfgN F.TIME_ARRAY_ARRAY_MAC 0 s = m ∧ cfgN F.TIME_ARRAY_GROUP_PORT 0 s ≠ 0 then [cfgN F.TIME_ARRAY_GROUP_IP 0 s] else [])

/-- MAC_LINK_UP (R477): the link is up, and an IGMPv3 report joins the MAC's groups. -/
def execMacLinkUp (mac : Nat) (s : State) : Res :=
  .next (if macOn mac s then
      let gs := macGroups mac s
      modMac mac (fun x => { x with
        up := true, arp := [], asked := []
        sent := if gs.isEmpty then x.sent else wrapInc 64 x.sent
        last := if gs.isEmpty then [] else [igmpFrame mac gs s] }) s
    else s)

/-- MAC_LINK_DOWN (R483). -/
def execMacLinkDown (mac : Nat) (s : State) : Res :=
  .next (if macOn mac s && (s.out.macs.getD mac {}).up then
      raise 1 (0x0D08 + mac) mac [] (modMac mac (fun x => { x with up := false }) s)
    else s)

/-- A MAC counts a received frame. -/
def macGot (m : Nat) (s : State) : State := modMac m (fun x => { x with received := wrapInc 64 x.received }) s
/-- A MAC counts a discarded frame. -/
def macDiscard (m : Nat) (s : State) : State := modMac m (fun x => { x with discarded := wrapInc 32 x.discarded }) s
/-- A MAC's own protocols send a frame. -/
def macAnswer (m : Nat) (frame : List Byte) (s : State) : State :=
  modMac m (fun x => { x with sent := wrapInc 64 x.sent, last := [frame] }) s

/-- Whether a received frame's tags are accepted: none, or one of the MAC's VLAN while VLAN_EN is 1 (R477, R486). [DESIGN CHOICE, log 61] -/
def tagsOk (m : Nat) (tags : List Nat) (w : Words) : Bool :=
  match tags with
  | [] => true
  | [v] => F.ETH_VLAN_EN.on m w && v == F.ETH_VID.get m w
  | _ => false

/-- What a MAC does with a received frame by its kind (R477, R499). [DESIGN CHOICE, log 61] -/
def takeFrame (m : Nat) (s : State) : EthKind → State
  | .arpRequest ip sip sm => if ip = cfgN F.ETH_IP_ADDR m s then macAnswer m (arpFrame m 2 sip sm s) (macGot m s) else macGot m s
  | .arpReply ip a => macGot m (modMac m (fun x => { x with
      arp := (ip, a) :: x.arp.filter fun e => e.1 != ip, asked := x.asked.filter (· != ip) }) s)
  | .icmpEcho ip icmp => macAnswer m (echoFrame m ip icmp s) (macGot m s)
  | .ptp => macGot m s
  | .ptpOther => modPtp m (fun p => { p with ignored := wrapInc 32 p.ignored }) (macGot m s)
  | .mailboxUdp => if cfgN F.ETH_MBX_UDP_PORT m s = 0 then macDiscard m (macGot m s) else macGot m s
  | .pause => modMac m (fun x => { x with pauses := wrapInc 32 x.pauses }) (macDiscard m (macGot m s))
  | .other => macDiscard m (macGot m s)
  | .framed n tags k => if 9216 < n ∨ !tagsOk m tags s.cfg.accepted then macDiscard m (macGot m s) else takeFrame m s k

/-- ETHERNET_FRAME_RECEIVE (R477): answered, accepted, or discarded and counted. [DESIGN CHOICE, log 61] -/
def execEthernetFrameReceive (mac : Nat) (kind : EthKind) (s : State) : Res :=
  .next (if !macOn mac s || !(s.out.macs.getD mac {}).up then s else takeFrame mac s kind)

/-! ### Rates (R482) -/

/-- The lane of a MAC, if one carries it (R398). -/
def macLane (m : Nat) (w : Words) : Option Nat :=
  (List.range 40).find? fun n => laneProto w n == 2 && laneRate w n != 0 && F.LANE_PORT.get n w == m

/-- r of a sender in bit/s on a lane rate (R482). -/
def senderRate (n rate : Nat) (w : Words) : Nat :=
  let (pk, bytes) := senderLoad n w
  let bitsPer := (bytes + 90 * pk) * 8
  let (num, den) := if F.SND_KIND.get n w = 1 then (if F.SND_PTIME.on n w then (8000, 1) else (1000, 1))
    else (F.SND_FPS_NUM.get n w, F.SND_FPS_DEN.get n w)
  if rate = 0x0F then ceilDiv (bitsPer * num * 17) (den * 16) else ceilDiv (bitsPer * num * 33) (den * 32)

/-- The assigned rate of a MAC on a lane rate (R46, R482). -/
def macLoad (m rate : Nat) (w : Words) : Nat :=
  ((List.range 16).map fun n => if F.SND_ENABLE.on n w && (senderMacs n w).contains m then senderRate n rate w else 0).sum

/-! ### Checks (R472, R474, R480, R481, R485) -/

/-- The frame rates of R472 for a format: numerator and denominator. -/
def sdiRates : Nat → List (Nat × Nat)
  | 0 => [(24000, 1001), (24, 1), (25, 1), (30000, 1001), (30, 1), (50, 1), (60000, 1001), (60, 1)]
  | 1 => [(24000, 1001), (24, 1), (25, 1), (30000, 1001), (30, 1)]
  | 2 => [(50, 1), (60000, 1001), (60, 1)]
  | _ => []

/-- Whether every port of a mask is an input at 48 kHz (R474). -/
def audioOk (m : Nat) (w : Words) : Bool :=
  (maskList m).all fun p => F.AUD_ENABLE.on p w && !F.AUD_DIR.on p w && F.AUD_RATE.get p w == 0

/-- Whether an offset is shorter than a frame (R485). -/
def offsetOk (o : OutId) (w : Words) : Bool :=
  let f := outFps o w
  decide (0 < f.1) && decide ((outOffset o w).natAbs * f.1 < 1000000000 * f.2)

/-- Whether an SDI output's settings are valid. -/
def sdiOk (k : Nat) (w : Words) : Bool :=
  let src := outSrc (.sdi k) w
  let (wd, ht, fmt, b) := srcShape src.1 src.2 w
  let f := F.SDI_FORMAT.get k w
  let (num, den) := outFps (.sdi k) w
  let rate := (match f with | 0 => 6 | 1 => 8 | _ => 0xA) + (if den = 1001 then 1 else 0)
  srcOn src.1 src.2 w && (wd, ht) == (if f = 0 then (1920, 1080) else (3840, 2160)) && fmt == 1 && b == 10 &&
    (sdiRates f).contains (num, den) && laneProto w (36 + k) == 4 && laneRate w (36 + k) == rate &&
    audioOk (F.SDI_AUDIO_MASK.get k w) w && offsetOk (.sdi k) w

/-- Whether a sender's settings are valid. -/
def sndOk (n : Nat) (w : Words) : Bool :=
  let src := outSrc (.snd n) w
  let (_, _, fmt, b) := srcShape src.1 src.2 w
  let (num, den) := outFps (.snd n) w
  let macs := senderMacs n w
  let video := srcOn src.1 src.2 w && (fmt == 0 || fmt == 1 || (fmt == 3 && src.1 == 1)) && (b == 10 || b == 12)
  let rate := (den == 1 || den == 1001) && decide (0 < num) && offsetOk (.snd n) w
  (macs.all fun m => F.ETH_ENABLE.on m w) && (!F.SND_DUP_EN.on n w || F.SND_DUP_MAC.get n w != F.SND_MAC.get n w) &&
  match F.SND_KIND.get n w with
  | 0 => video && rate
  | 1 =>
    let ch := (audioPacket n w).2
    audioOk (F.SND_AUDIO_MASK.get n w) w && decide (2 ≤ ch ∧ ch ≤ if F.SND_PTIME.on n w then 8 else 16)
  | _ => srcOn src.1 src.2 w && rate

/-- The checks of error 0x0D01. [DEDUCED, log 103] -/
def outChecks (w : Words) : List (Nat × Nat × List Nat) :=
  ((List.range 4).filter fun k => F.SDI_ENABLE.on k w && !sdiOk k w).map (fun k => (0x0D01, k, [])) ++
  ((List.range 16).filter fun n => F.SND_ENABLE.on n w && !sndOk n w).map (fun n => (0x0D01, 0x10 + n, [])) ++
  ((List.range 4).filter fun m => F.ETH_ENABLE.on m w && (macLane m w).isNone).map (fun m => (0x0D01, 8 + m, []))

/-! ### Messages (R484) -/

/-- State code of an output (R484). -/
def outState (o : OutId) (s : State) : Nat :=
  if !outEnabled o s.cfg.accepted then 0
  else if !outActive s then 1
  else if (outputOf o s).mode = 3 then 3 else 2

/-- Message 0x0D00 + k: SDI status. -/
def sdiStatusMsg (k : Nat) : MsgDef :=
  { blk := .media, status := true,
    act := fun _ _ s =>
      let x := outputOf (.sdi k) s
      (.accept ([outState (.sdi k) s] ++ loWords 2 ((x.held.map fun p => p.header.num).getD 0) ++
        [x.repeats, x.backgrounds, x.rephases, toField 32 x.errPs]), s) }

/-- Message 0x0D08 + m: MAC status. -/
def macStatusMsg (m : Nat) : MsgDef :=
  { blk := .media, status := true,
    act := fun _ _ s =>
      let x := s.out.macs.getD m {}
      (.accept ([b2n x.up] ++ loWords 2 x.sent ++ loWords 2 x.received ++ [x.discarded, x.pauses]), s) }

/-- Message 0x0D10 + s: sender status. -/
def senderStatusMsg (n : Nat) : MsgDef :=
  { blk := .media, status := true,
    act := fun _ _ s =>
      let x := outputOf (.snd n) s
      let w := s.cfg.accepted
      let rate := ((macLane (F.SND_MAC.get n w) w).map (laneRate w)).getD 0
      (.accept ([outState (.snd n) s] ++ loWords 2 x.packets ++
        [x.repeats, x.backgrounds, if outEnabled (.snd n) w then ceilDiv (senderRate n rate w) 1000000 else 0]), s) }

end Sys2Proof.Machine
end

