-- ==== Sys2Proof/Machine/Sequencer.lean ====
section
/-! DEFINITION. Scripts and the blanking sequencer: entries, duration, the FIFO, windows and tags (R79 to R86, R811). -/

namespace Sys2Proof.Machine

/-- The code of a port error (R89). -/
def portErr (p k : Nat) : Nat := 0x0200 + 0x10 * p + k

/-- TOD in units of 2^-16 ns. [DESIGN CHOICE, log 17] -/
def nowUnits (s : State) : Nat := todUnits (nowTod s)

/-! ### Scripts (R79, R811) -/

/-- OP of an entry. -/
def entOp (e : Nat) : Nat := bits e 63 60

/-- Whether an entry is malformed (R811). -/
def entryBad (e : Nat) : Bool :=
  decide (3 < entOp e) || decide (1 < bits e 57 56) || (bits e 57 56 == 0 && decide (0xFF < bits e 47 32)) ||
  (entOp e == 2 && decide (1 < bits e 59 58)) || (entOp e == 0 && bits e 59 0 != 0) || (entOp e == 3 && bits e 59 32 != 0)

/-- The 64-bit entries of a payload. -/
def words64 : List Byte → List Nat
  | a :: b :: c :: d :: e :: f :: g :: h :: r => leVal [a, b, c, d, e, f, g, h] :: words64 r
  | _ => []

/-- The entries of a script payload without its END entry; none when it is malformed (R79, R811). -/
def scriptOf (payload : List Byte) : Option (List Nat) :=
  let es := words64 payload
  if payload.length % 8 ≠ 0 then none
  else match es.findIdx? (fun e => entOp e == 0) with
    | some i => if 128 ≤ i ∨ i + 1 ≠ es.length ∨ es.any entryBad then none else some (es.take i)
    | none => none

/-- Bit times of an entry on the bus (R83). [DESIGN CHOICE, log 24] -/
def entryBits (spi : Bool) (e : Nat) : Nat :=
  let a := bits e 57 56 + 1
  let d := bits e 59 58 + 1
  match entOp e with
  | 1 => if spi then 8 * (a + d) + 2 else 9 * (1 + a + d) + 2
  | 2 => if spi then 8 * (a + d) + 2 else 9 * (2 + a + d) + 3
  | _ => 0

/-- The duration estimate of a script in 2^-16 ns, rounded up; its END entry, which `es` leaves out, counts among the entries
(R79, R83). [DESIGN CHOICE, log 24] -/
def scriptUnits (mode rate : Nat) (es : List Nat) : Nat :=
  let nb := (es.map (entryBits (mode == 3))).sum
  let us := es.length + 1 + (es.map fun e => if entOp e = 3 then bits e 31 0 else 0).sum
  ceilDiv (nb * 10000 * 65536) (max 1 rate) + us * 65536000

/-- The estimate of a script on a port's bus. [DESIGN CHOICE, log 24] -/
def estimate (p : Nat) (es : List Nat) (s : State) : Nat :=
  scriptUnits (cfgN F.SP_SCBUS_MODE p s) (cfgN F.SP_SCBUS_RATE p s) es

/-! ### Windows (R82, R84) -/

/-- The leader of a port's gang. [DEDUCED, log 29] -/
def leadOf (p : Nat) (s : State) : Nat := leaderOf s.cfg.accepted p

/-- SEQ_DELAY_US and SEQ_GUARD_US in 2^-16 ns. -/
def seqDelay (p : Nat) (s : State) : Nat := F.SP_SCBUS_SEQ_DELAY_US.get p (portWords p s) * 65536000
/-- SEQ_GUARD_US in 2^-16 ns. -/
def seqGuard (p : Nat) (s : State) : Nat := F.SP_SCBUS_SEQ_GUARD_US.get p (portWords p s) * 65536000

/-- The declared frame period of a port's seam in 2^-16 ns. -/
def portPeriod (p : Nat) (s : State) : Nat :=
  match portSeam p s with
  | some n => periodNs (portWords p s) n * 65536
  | none => 0

/-- The longest window of the last 16 frames or, before the port has had one, the period less the delay and the guard (R84). -/
def longestWindow (p : Nat) (s : State) : Nat :=
  if (portOf p s).hadWindow then (portOf p s).windows.foldl max 0 else portPeriod p s - seqDelay p s - seqGuard p s

/-- The trigger delay of a port in 2^-16 ns (R87). [DEDUCED, log 29] -/
def portDelay (p : Nat) (s : State) : Int := F.SP_TRIG_DELAY_NS.getS p (portWords p s) * 65536

/-- The first schedule point whose target at a port keeps `gap` from the target of its previous trigger (R508). -/
def spacedPoint (n p : Nat) (last : Option Int) (gap : Nat) (s : State) : Int :=
  firstPoint n ((match last with
    | some l => l + gap
    | none => (nowUnits s : Int)) - portDelay p s) s

/-- The ports of a seam's gang; the first leads. -/
def seamPorts (n : Nat) (s : State) : List Nat := gangPorts s.cfg.accepted (cfgN F.SEAM_SRC_SRC_INDEX n s % 4)

/-- Whether T0, the rate or a delay of a triggered seam has changed, or TOD was stepped, since its next trigger was set (R508). -/
def rebaseDue (n : Nat) (s : State) : Bool :=
  let e := s.time.exp.getD n {}
  seamTriggered n s && (e.rebase || (e.armed && (e.rate != schedRate n s ||
    (seamPorts n s).any fun p => (portOf p s).trigDelay != portDelay p s)))

/-- The next triggers of a seam move to the first points whose targets keep the spacing from the previous targets; 0x0E11 is logged,
for a change of a delay alone only when a point is passed over (R508). [DEDUCED, log 29] -/
def rebaseSchedule (n : Nat) (s : State) : State :=
  let e := s.time.exp.getD n {}
  let gap := max e.lastPeriod (framePeriodNs n s) * 65536
  let i := spacedPoint n (cfgN F.SEAM_SRC_SRC_INDEX n s % 4) e.last gap s
  let t := (seamPorts n s).foldl (fun u p => modPort p (fun x => { x with
    trigNext := spacedPoint n p x.trigLast gap s, trigDelay := portDelay p s }) u) s
  let t := modExp n (fun x => { x with
    n := i, armed := true, rebase := false, lastPeriod := framePeriodNs n s, rate := schedRate n s }) t
  if !e.rebase && e.rate == schedRate n s && i == e.n then t
  else raise 0 0x0E11 n (n :: loWords 2 (toField 64 i)) t

/-- SCHEDULE_REBASE (R508). -/
def execScheduleRebase (seam : Nat) (s : State) : Res :=
  .next (if rebaseDue seam s then rebaseSchedule seam s else modExp seam (fun x => { x with rebase := false }) s)

/-- The last schedule point of a seam whose target at a port is not after now (R87). [DEDUCED, log 29] -/
def pointDue (n p : Nat) (s : State) : Int := firstPoint n ((nowUnits s : Int) + 1 - portDelay p s) s - 1

/-- The schedule point of a port's next trigger: points passed while the trigger was not driven are passed over. A gang
member counts its own, at the seam's schedule and its own delay (R87). [DEDUCED, log 29] -/
def nextTrigger (n p : Nat) (s : State) : Int :=
  let e := s.time.exp.getD n {}
  if !e.armed then pointDue n p s else max (if p = leadOf p s then e.n else (portOf p s).trigNext) (pointDue n p s)

/-- When the window closes: SEQ_GUARD_US before the expected FV rise or the next scheduled trigger (R82). -/
def windowClose (p : Nat) (s : State) : Nat :=
  let l := portOf (leadOf p s) s
  let next := match portSeam p s with
    | some n =>
      let e := s.time.exp.getD n {}
      if F.SP_TRIG_ENABLE.on (leadOf p s) (portWords p s) && e.armed then
        (schedPoint n (max e.n (pointDue n (leadOf p s) s + 1)) s + trigDelay n s).toNat
      else (l.fvRise.getD 0) + portPeriod p s
    | none => 0
  next - seqGuard p s

/-! ### Tags (R85, R86) -/

/-- Tag `t` from frame `n` onwards. -/
def stampFrom (n t : Nat) (l : List (Nat × Nat)) : List (Nat × Nat) := l.filter (fun x => x.1 < n) ++ [(n, t)]

/-- The tag of frame `n`, which becomes the tag in force. -/
def settleTag (n : Nat) (p : Port) : Port :=
  match (p.nextTags.filter fun x => decide (x.1 ≤ n)).getLast? with
  | some (_, t) => { p with tag := t, nextTags := p.nextTags.filter fun x => decide (n < x.1) }
  | none => p

/-- SENSOR_LATENCY of a port's gang (R63, R85). -/
def sensorLatency (p : Nat) (s : State) : Nat := cfgN F.SP_PORT_SENSOR_LATENCY (leadOf p s) s

/-! ### Loops' share of the sequencer (R84, R208, R211) -/

/-- Applies `f` to a seam's loop. -/
def modLoop (n : Nat) (f : Loop → Loop) (s : State) : State := modCap (fun c => { c with loops := modAt c.loops n f }) s
/-- A seam's loop. -/
def loopOf (n : Nat) (s : State) : Loop := s.cap.loops.getD n {}

/-- What a loop keeps of a script that has entered its port's FIFO: Tr and, of a request of its own, the settings it carries
(R205, R208). -/
def entered (sc : Script) (l : Loop) : Loop :=
  match sc.origin with
  | .loop _ e g li c => { l with tr := some sc.tag, begun := true, e := e, g := g, lines := li, code := c }
  | _ => { l with tr := some sc.tag }

/-- Tr follows the last script queued into the FIFO of a seam's port, or of its gang's leader, whichever requester queued it
(R205, R208). -/
def noteQueued (p : Nat) (sc : Script) (s : State) : State :=
  match portSeam p s with
  | some n => if s.dev.role == .head || leadOf p s != p then s else modLoop n (entered sc) s
  | none => s

/-- The exposure loop returns to the last script that completed on the port (R84). With none completed, frames still carry
tag 0 (R26). [DEDUCED, log 25] -/
def revertLoop (p : Nat) (sc : Script) (s : State) : State :=
  match sc.origin with
  | .loop n _ _ _ _ =>
    let t := match (portOf p s).lastDone with
      | some (t, _) => t
      | none => 0
    modLoop n (fun l =>
      let (e, g, li, c) := l.done.getD (l.e, l.g, l.lines, l.code)
      { l with tr := some t, e := e, g := g, lines := li, code := c, acc := [0, 0, 0, 0, 0], decidedOn := none }) s
  | _ => s

/-- A loop's script starts in the window of a later frame than the decision's (R211). [DEDUCED, log 25] -/
def noteLate (p : Nat) (sc : Script) (s : State) : State :=
  match sc.origin with
  | .loop n _ _ _ _ =>
    match (loopOf n s).decidedOn with
    | some k =>
      if k < (portOf p s).windowFrame then
        raise 0 (0x0688 + n) n [] (modLoop n (fun l => { l with decidedOn := none, late := wrapInc 32 l.late }) s)
      else modLoop n (fun l => { l with decidedOn := none }) s
    | none => s
  | _ => s

/-! ### Running (R80, R83 to R86) -/

/-- A script completes: its tag from frame N + L (R85); what it set becomes the loop's last completed settings. [DEDUCED, log 25] -/
def completeScript (p : Nat) (sc : Script) (s : State) : State :=
  let t := modPort p (fun x => { x with
    running := none, pos := 0, lastDone := some (sc.tag, sc.origin), abandonedNow := false
    nextTags := stampFrom (x.runFrame + sensorLatency p s) sc.tag x.nextTags }) s
  match sc.origin with
  | .loop n e g li c => modLoop n (fun l => { l with done := some (e, g, li, c) }) t
  | _ => t

/-- A script is abandoned (R80, R86): error `k` and tag 0xFFFF from frame N + L. -/
def abandonScript (p k : Nat) (s : State) : State :=
  raise 1 (portErr p k) p [] (modPort p (fun x => { x with
    running := none, pos := 0, abandoned := min 0xFFFF (x.abandoned + 1), abandonedNow := true
    nextTags := stampFrom (x.runFrame + sensorLatency p s) 0xFFFF x.nextTags }) s)

/-- Starts the script at the head of the FIFO. A script without entries completes at once. -/
def startHead (p : Nat) (sc : Script) (s : State) : State :=
  let t := noteLate p sc (modPort p (fun x => { x with
    fifo := x.fifo.drop 1, deferrals := 0, running := some sc, pos := 0, runFrame := x.windowFrame }) s)
  if sc.entries.isEmpty then completeScript p sc t else t

/-- The sequencer considers the head of its FIFO: it starts, defers or discards it (R83, R84); in a head
without a primary group it waits (R562). At most `n` heads. -/
def considerHead (p : Nat) : Nat → State → State
  | 0, s => s
  | n + 1, s =>
    let x := portOf p s
    match x.fifo with
    | [] => s
    | sc :: _ =>
      if x.running.isSome || !x.windowOpen || x.deferred || (s.dev.role == .head && s.red.primary.isNone) then s
      else if nowUnits s + estimate p sc.entries s ≤ x.windowTo then considerHead p n (startHead p sc s)
      else if x.deferrals + 1 < 8 then
        raise 0 (portErr p 6) p [] (modPort p (fun y => { y with deferrals := y.deferrals + 1, deferred := true }) s)
      else
        considerHead p n (raise 0 (portErr p 0xC) p []
          (revertLoop p sc (modPort p (fun y => { y with fifo := y.fifo.drop 1, deferrals := 0 }) s)))

/-- Queues a script into a port's FIFO: refused when the FIFO is full (8: R81) or when it could never start (0xC: R84);
0 when it is queued. [DESIGN CHOICE, log 24] -/
def queueScript (p : Nat) (sc : Script) (s : State) : Nat × State :=
  let x := portOf p s
  if 8 ≤ x.fifo.length then (8, raise 0 (portErr p 8) p [] s)
  else if (portSeam p s).isNone || decide (longestWindow p s < estimate p sc.entries s) then
    (0xC, raise 0 (portErr p 0xC) p [] (revertLoop p sc s))
  else (0, considerHead p 9 (noteQueued p sc (modPort p (fun y => { y with fifo := y.fifo ++ [sc] }) s)))

/-- The push-pull SC balls of a port (R88): 0, 1 and 3 in SPI mode, 0 in I3C mode. [DEDUCED, log 76] -/
def scDriven (p : Nat) (s : State) : List Nat :=
  match cfgN F.SP_SCBUS_MODE p s with
  | 3 => [0, 1, 3]
  | 2 => [0]
  | _ => []

/-- Whether a driven ball of a bus is shorted or a driver is disabled, so that every WRITE and READ_CHECK fails (R80,
R88). -/
def busDead (p : Nat) (s : State) : Bool :=
  let x := portOf p s
  (scDriven p s).any fun i => x.scShort.getD i false || x.scOff.getD i false

/-- The result of an entry: 0 done, 7 control bus error, 9 check mismatch (R80). [DESIGN CHOICE, log 26] -/
def entryResult (e : Nat) (dead : Bool) (r : BusResult) : Nat :=
  if entOp e = 3 then 0
  else if dead then 7
  else match r with
    | .ack => 0
    | .nack | .busFault => 7
    | .read v => if entOp e = 2 ∧ (v &&& bits e 31 16) ≠ (bits e 15 0 &&& bits e 31 16) then 9 else 0

/-- SCRIPT_ENTRY_COMPLETE (R80, R83, R85, R86). [DESIGN CHOICE, log 26] -/
def execScriptEntryComplete (p : Nat) (r : BusResult) (s : State) : Res :=
  let x := portOf p s
  .next (match x.running with
  | none => s
  | some sc =>
    match entryResult (sc.entries.getD x.pos 0) (busDead p s) r with
    | 0 =>
      if x.pos + 1 < sc.entries.length then modPort p (fun y => { y with pos := y.pos + 1 }) s
      else considerHead p 9 (completeScript p sc s)
    | k => considerHead p 9 (abandonScript p k s))

/-- CONTROL_BUS_TIMEOUT (R80): a stretch or response exceeds TIMEOUT_US. [DESIGN CHOICE, log 26] -/
def execControlBusTimeout (p : Nat) (s : State) : Res :=
  .next (match (portOf p s).running with
  | none => s
  | some _ => considerHead p 9 (abandonScript p 7 s))

/-! ### Checks (R78, R811) -/

/-- Whether a script field of SPn.SCBUS names a valid payload (R811). -/
def scriptFieldOk (tables : List (Nat × List Byte)) (mode i : Nat) : Bool :=
  i == 0 || (mode != 0 && match tables.lookup i with
    | some b => (scriptOf b).isSome
    | none => false)

/-- The limit of RATE in units of 100 kHz: Fast-mode Plus 1 MHz, I3C 12.5 MHz, SPI per R77. -/
def rateLimit : Nat → Nat
  | 1 => 10
  | 2 => 125
  | 3 => 500
  | _ => 511

end Sys2Proof.Machine
end

