-- ==== Sys2Proof/Machine/Audio.lean ====
section
/-! DEFINITION. The audio ports (chapter 17, R606 to R620) and the readback of driven balls (R88, R537, R618). -/

namespace Sys2Proof.Machine

/-- Applies `f` to an audio port. -/
def modAud (p : Nat) (f : Audio → Audio) (s : State) : State := modOuts (fun x => { x with audio := modAt x.audio p f }) s
/-- An audio port. -/
def audOf (p : Nat) (s : State) : Audio := s.out.audio.getD p {}

/-- Whether a port is in use. -/
def audOn (p : Nat) (s : State) : Bool := blkOn .media s && decide (p < 8) && cfgB F.AUD_ENABLE p s

/-- fs of a port in Hz. -/
def audRate (p : Nat) (w : Words) : Nat := 48000 * 2 ^ F.AUD_RATE.get p w

/-- t_k in ns of TOD (R608). -/
def frameNs (fs k : Nat) : Nat := k * 1000000000 / fs

/-- The frame in progress at a TOD in ns: the last k with t_k at or before it. -/
def frameIn (fs ns : Nat) : Nat := ((ns + 1) * fs - 1) / 1000000000

/-- The first frame whose t_k is at or after a TOD in ns. -/
def frameFrom (fs ns : Nat) : Nat := ceilDiv (ns * fs) 1000000000

/-- The frame in progress on a master port. -/
def frameNow (p : Nat) (s : State) : Nat := frameIn (audRate p s.cfg.accepted) (nowNs s)

/-! ### Start and stop (R614, R615, R617) -/

/-- A port starts (R614): a slave input that restarts after a clock fault keeps its block numbers (R617). -/
def startAudio (keep : Bool) (p : Nat) (s : State) : State :=
  let w := s.cfg.accepted
  let cur := if keep && !F.AUD_DIR.on p w then (audOf p s).cur else 0
  modAud p (fun a => { a with
    state := 1, restart := false, last := none, playing := none, underrun := false, noClock := false
    chEn := F.AUD_CH_EN.get p w
    first := if F.AUD_MASTER.on p w then ceilDiv (frameNow p s + 32) 64 else cur
    cur := cur, ring := if keep then a.ring else [] }) s

/-- The number of the current block (R609). -/
def curBlock (p : Nat) (s : State) : Nat :=
  let a := audOf p s
  if cfgB F.AUD_MASTER p s && a.state != 0 then frameNow p s / 64 else a.cur

/-- A port stops (R615): its data end with the current block. -/
def stopAudio (p : Nat) (s : State) : State :=
  modAud p (fun a => { a with state := 3, last := some (curBlock p s) }) s

/-- A request to start or stop a port (R614, R615). -/
def runAudio (run : Bool) (p : Nat) (s : State) : State :=
  let a := audOf p s
  if run then
    if a.state = 0 then startAudio false p s else if a.state = 3 then modAud p (fun x => { x with restart := true }) s else s
  else if a.state = 1 ∨ a.state = 2 then stopAudio p s
  else modAud p (fun x => { x with restart := false }) s

/-- AUDIO_STOP_COMPLETE (R615): the clocks stop; a start that arrived meanwhile takes effect. -/
def execAudioStopComplete (p : Nat) (s : State) : Res :=
  .next (if !audOn p s || (audOf p s).state != 3 then s
    else
      let t := modAud p (fun a => { a with state := 0, restart := false, last := none, playing := none, underrun := false }) s
      if (audOf p s).restart then startAudio false p t else t)

/-- Whether a port is a slave in use. -/
def slaveOn (p : Nat) (s : State) : Bool := audOn p s && !cfgB F.AUD_MASTER p s

/-- SLAVE_CLOCK_FAULT (R617). [DEDUCED, log 75] -/
def execSlaveClockFault (p : Nat) (s : State) : Res :=
  .next (if !slaveOn p s || (audOf p s).noClock || (audOf p s).state == 0 then s
    else raise 1 (0x1220 + p) p [] (modAud p (fun a => { a with
      noClock := true, playing := none, underrun := false, faults := wrapInc 32 a.faults }) s))

/-- SLAVE_CLOCK_RETURN (R617): the port restarts. [DEDUCED, log 75] -/
def execSlaveClockReturn (p : Nat) (s : State) : Res :=
  .next (if !slaveOn p s || !(audOf p s).noClock then s
    else if (audOf p s).state = 3 then modAud p (fun a => { a with noClock := false }) s
    else startAudio true p s)

/-! ### Output ports (R611 to R613) -/

/-- A block that is present for an output: in its ring or, for a loopback, the input's block DELAY_BLOCKS earlier (R611,
R612). -/
def blockPresent (p b : Nat) (s : State) : Bool :=
  if cfgB F.AUD_SRC p s then
    let d := cfgN F.AUD_DELAY_BLOCKS p s
    decide (d ≤ b) && (audOf (cfgN F.AUD_SRC_PORT p s) s).ring.any fun x => x.num == b - d
  else (audOf p s).ring.any fun x => x.num == b

/-- Output blocks that have been played leave the ring. [DEDUCED, log 75] -/
def dropPlayed (b : Nat) (l : List AudioBlock) : List AudioBlock := l.filter fun x => decide (b ≤ x.num)

/-- AUDIO_BLOCK_TAKE (R612, R614, R616): 10 µs before the next block. [DESIGN CHOICE, log 3; DEDUCED, log 75] -/
def execAudioBlockTake (p : Nat) (s : State) : Res :=
  let a := audOf p s
  .next (if !audOn p s || !cfgB F.AUD_DIR p s || a.state == 0 || a.noClock then s
    else
      let fs := audRate p s.cfg.accepted
      let b := if cfgB F.AUD_MASTER p s then frameNow p s / 64 + 1 else if a.state = 1 then a.first else a.cur + 1
      let t := modAud p (fun x => { x with
        cur := b, chEn := cfgN F.AUD_CH_EN p s, ring := dropPlayed b x.ring
        blockAt := if cfgB F.AUD_MASTER p s then frameNs fs (64 * b) else nowNs s + 10000 }) s
      if a.state = 3 ∨ (a.state = 1 ∧ b < a.first) then modAud p (fun x => { x with playing := none }) t
      else
        let t := modAud p (fun x => { x with state := 2 }) t
        if blockPresent p b t then modAud p (fun x => { x with playing := some (b, 0), underrun := false }) t
        else
          let u := modAud p (fun x => { x with playing := none, underrun := true, lost := wrapInc 32 x.lost }) t
          if a.underrun then u else raise 2 (0x1210 + p) p [] u)

/-- AUDIO_BLOCK_PRESENT (R613): the block whose frames are playing becomes present. [DEDUCED, log 75] -/
def execAudioBlockPresent (p : Nat) (s : State) : Res :=
  let a := audOf p s
  .next (if !audOn p s || !cfgB F.AUD_DIR p s || a.state != 2 || a.noClock || a.playing.isSome || !blockPresent p a.cur s then s
    else
      let fs := audRate p s.cfg.accepted
      let base := if cfgB F.AUD_MASTER p s then 0 else a.blockAt
      let k0 := if cfgB F.AUD_MASTER p s then 64 * a.cur else 0
      let j := frameFrom fs (ceilDiv (todUnits (nowTod s)) 65536 + 10000 - base) - k0
      if j < 64 then modAud p (fun x => { x with playing := some (x.cur, j) }) s
      else if base + frameNs fs (k0 + 63) ≤ nowNs s then modAud p (fun x => { x with skipped := wrapInc 32 x.skipped }) s
      else s)

/-! ### Input ports (R610) -/

/-- A sample left-justified in 32 bits; a disabled channel stores zero (R606, R616). -/
def storedSample (bits_ en ch : Nat) (v : Int) : Int := if en / 2 ^ ch % 2 = 1 then v * 2 ^ (32 - bits_) else 0

/-- Bits of a sample for WIDTH. -/
def sampleBits (p : Nat) (w : Words) : Nat := 16 + 8 * F.AUD_WIDTH.get p w

/-- The bytes of a slot (R610). -/
def slotBytes (b : AudioBlock) : List Byte :=
  leBytes 16 (todPack b.stamp) ++ b.samples.flatMap fun v => leBytes 4 (toField 32 v)

/-- The blocks of an input that its record stream has not released. -/
def audioHeld (p : Nat) (s : State) : Nat :=
  match recFor 2 p s with
  | some j => (recStream j s).ready.length
  | none => 0

/-- AUDIO_INPUT_BLOCK (R610, R614 to R616): a block completes at an input. -/
def execAudioInputBlock (p : Nat) (samples : List Int) (stamp : Tod) (s : State) : Res :=
  let a := audOf p s
  .next (if !audOn p s || cfgB F.AUD_DIR p s || a.state == 0 || a.noClock then s
    else
      let w := s.cfg.accepted
      let master := F.AUD_MASTER.on p w
      let num := if master then frameIn (audRate p w) (todUnits stamp / 65536) / 64 else a.cur
      let t := modAud p (fun x => { x with cur := if master then num else num + 1, chEn := F.AUD_CH_EN.get p w }) s
      let beyond := match a.last with
        | some l => decide (l < num)
        | none => false
      if num < a.first || beyond then t
      else
        let t := modAud p (fun x => { x with state := max 2 x.state }) t
        if cfgN F.AUD_BUFS p s ≤ audioHeld p s then
          raise 2 (0x1218 + p) p [] (modAud p (fun x => { x with lost := wrapInc 32 x.lost }) t)
        else
          let data := ((samples.take 128 ++ List.replicate (128 - samples.length) 0).zipIdx).map fun (v : Int × Nat) =>
            storedSample (sampleBits p w) a.chEn (v.2 % 2) v.1
          let blk : AudioBlock := ⟨num, stamp, data⟩
          let ring := (audOf p t).ring ++ [blk]
          let t := modAud p (fun x => { x with ring := ring.drop (ring.length - cfgN F.AUD_BUFS p s) }) t
          match recFor 2 p t with
          | some j =>
            let u : RecUnit := { num := num, epoch := decodeEpoch t, flags := 0, time := stamp, idr := false, bytes := slotBytes blk }
            boundReady (cfgN F.AUD_BUFS p s) j (offerUnit j u t)
          | none => t)

/-! ### Readback of driven balls (R88, R537, R618) -/

/-- The flags of a ball after a readback: at a rail, driver disabled; and whether a fault is new. [DEDUCED, log 76] -/
def readBack (r : Readback) (short off : Bool) : Bool × Bool × Bool :=
  match r with
  | .good => (false, off, false)
  | .atRail => (true, off, !short && !off)
  | .contention => (short, true, !off)

/-- Whether a ball of an audio port is driven: BCLK and WS by a master, SD by an output (R607). [DEDUCED, log 76] -/
def audDriven (p pin : Nat) (s : State) : Bool :=
  audOn p s && (if pin < 2 then cfgB F.AUD_MASTER p s else pin == 2 && cfgB F.AUD_DIR p s)

/-- The detail of a fault: 1 for contention. [DEDUCED, log 76; DEDUCED, log 103] -/
def faultDetail (r : Readback) : List Nat := [b2n (r == .contention)]

/-- OUTPUT_READBACK (R88, R537, R618): a short leaves the driver on and is logged once per fault; a driver in contention is
disabled until the next role start. ASY_PPS_OUT has no error code. [DEDUCED, log 76] -/
def execOutputReadback (ball : Ball) (r : Readback) (s : State) : Res :=
  .next (match ball with
    | .xtrig n =>
      if !blkOn .sensor s || !cfgB F.SP_TRIG_ENABLE n s then s
      else
        let x := readBack r (portOf n s).trigShort (portOf n s).trigOff
        let t := modPort n (fun q => { q with trigShort := x.1, trigOff := x.2.1 }) s
        if x.2.2 then raise 1 (portErr n 0xA) n (faultDetail r) t else t
    | .sc n io =>
      if !blkOn .sensor s || !(scDriven n s).contains io then s
      else
        let x := readBack r ((portOf n s).scShort.getD io false) ((portOf n s).scOff.getD io false)
        let t := modPort n (fun q => { q with
          scShort := modAt q.scShort io fun _ => x.1, scOff := modAt q.scOff io fun _ => x.2.1 }) s
        if x.2.2 then raise 1 (portErr n 0xA) n (faultDetail r) t else t
    | .ppsOut =>
      let x := readBack r s.isl.ppsShort s.isl.ppsOff
      { s with isl := { s.isl with ppsShort := x.1, ppsOff := x.2.1 } }
    | .aud p pin =>
      if !audDriven p pin s then s
      else
        let x := readBack r ((audOf p s).short.getD pin false) ((audOf p s).off.getD pin false)
        let t := modAud p (fun a => { a with
          short := modAt a.short pin fun _ => x.1, off := modAt a.off pin fun _ => x.2.1 }) s
        if x.2.2 then raise 1 (0x1228 + p) p (faultDetail r) t else t
    | .mclk i =>
      if !blkOn .media s || decide (2 ≤ i) || !(if i = 0 then cfgB F.AUD_MCLK_MCLK0_EN 0 s else cfgB F.AUD_MCLK_MCLK1_EN 0 s) then s
      else
        let x := readBack r (s.out.mclkShort.getD i false) (s.out.mclkOff.getD i false)
        let t := modOuts (fun o => { o with
          mclkShort := modAt o.mclkShort i fun _ => x.1, mclkOff := modAt o.mclkOff i fun _ => x.2.1 }) s
        if x.2.2 then raise 1 (0x1230 + i) i (faultDetail r) t else t)

/-! ### Checks -/

/-- Whether a port's settings are valid (R611, note of R625). -/
def audOk (p : Nat) (w : Words) : Bool :=
  let q := F.AUD_SRC_PORT.get p w
  (!F.AUD_DIR.on p w || !F.AUD_SRC.on p w ||
    (F.AUD_ENABLE.on q w && !F.AUD_DIR.on q w && F.AUD_MASTER.on q w && F.AUD_RATE.get q w == F.AUD_RATE.get p w)) &&
  (F.AUD_RATE.get p w == 0 ||
    (!((List.range 4).any fun k => F.SDI_ENABLE.on k w && (maskList (F.SDI_AUDIO_MASK.get k w)).contains p) &&
     !((List.range 16).any fun n => F.SND_ENABLE.on n w && F.SND_KIND.get n w == 1 &&
        (maskList (F.SND_AUDIO_MASK.get n w)).contains p)))

/-- The checks of error 0x1201. -/
def audChecks (w : Words) : List (Nat × Nat × List Nat) :=
  ((List.range 8).filter fun p => F.AUD_ENABLE.on p w && !audOk p w).map fun p => (0x1201, p, [])

/-! ### Messages (R620) -/

/-- Message 0x1200 + p: audio status. -/
def audioStatusMsg (p : Nat) : MsgDef :=
  { blk := .media, status := true,
    act := fun _ _ s =>
      let a := audOf p s
      (.accept ([a.state + 4 * a.chEn] ++ loWords 2 (curBlock p s) ++ [a.lost, a.skipped, a.faults]), s) }

/-- Message 0x1208 + p: start and stop. -/
def startStopMsg (p : Nat) : MsgDef :=
  { count := fun c => c == 2, masks := [1], blk := .media,
    act := fun r _ s => if !audOn p s then (.refuse 7 0 0, s) else (.accept [], runAudio (r.w 1 == 1) p s) }

/-- A block of the bulk window in the slot layout of R610. -/
def bulkBlock (i num : Nat) (s : State) : AudioBlock :=
  let l := readBulk (528 * i) 528 s
  ⟨num, todUnpack (fieldAt l 0 16), (List.range 128).map fun k => sext 32 (fieldAt l (16 + 4 * k) 4)⟩

/-- Whether block `b` of an output has begun playing, or its time has passed (R611, R613). [DEDUCED, log 75] -/
def hasBegun (p b : Nat) (s : State) : Bool :=
  let a := audOf p s
  a.state != 0 && (decide (b < a.cur) || (b == a.cur && a.playing.isSome))

/-- Writes blocks of the bulk window from the `i`-th on, `n` of them: a block already begun is refused and counted, one that
finds the ring full ends the acceptance. The count accepted comes back. -/
def writeBlocks (p first : Nat) : Nat → Nat → Nat → State → Nat × State
  | 0, _, k, s => (k, s)
  | n + 1, i, k, s =>
    let b := first + i
    let a := audOf p s
    if hasBegun p b s then writeBlocks p first n (i + 1) k (modAud p (fun x => { x with skipped := wrapInc 32 x.skipped }) s)
    else
      let rest := a.ring.filter fun x => x.num != b
      if cfgN F.AUD_BUFS p s ≤ rest.length then (k, s)
      else writeBlocks p first n (i + 1) (k + 1) (modAud p (fun x => { x with ring := rest ++ [bulkBlock i b s] }) s)

/-- Message 0x1210 + p: block write. [DEDUCED, log 75] -/
def blockWriteMsg (p : Nat) : MsgDef :=
  { count := fun c => c == 4, masks := [0xFFFFFFFF, 0xFFFFFFFF, 0xFF], blk := .media,
    bad := fun r _ => decide (64 < r.w 3),
    act := fun r _ s =>
      if !holdsBulk r.path s then (.refuse 5 0 0, s)
      else if !audOn p s || !cfgB F.AUD_DIR p s || cfgB F.AUD_SRC p s then (.refuse 7 0 0, s)
      else
        let x := writeBlocks p (r.w 1 + r.w 2 * 2 ^ 32) (r.w 3) 0 0 s
        (.accept [x.1], x.2) }

end Sys2Proof.Machine
end

