-- ==== Sys2Proof/Machine/Loops.lean ====
section
/-! DEFINITION. The exposure and white-balance loops and array-lock (chapter 6). -/

namespace Sys2Proof.Machine

/-! ### Payloads (R213, R229) -/

/-- The entry words of a payload that holds a count word and `per` words per entry; none when it is missing, empty or over
its limit (R225, R229). -/
def countedWords (tables : List (Nat × List Byte)) (i limit per : Nat) : Option (List Nat) :=
  if i = 0 then none else
  match tables.lookup i with
  | none => none
  | some b =>
    match words32 b with
    | [] => none
    | c :: r => if b.length % 4 = 0 ∧ 1 ≤ c ∧ c ≤ limit ∧ r.length = per * c then some r else none

/-- The gain table of a seam: gain and register code (R229). -/
def gainTable (n : Nat) (s : State) : List (Nat × Nat) :=
  ((countedWords s.cfg.tables (cfgN F.LOOP_SENSOR_GAIN_TABLE n s) 64 1).getD []).map fun v => (bits v 31 16, bits v 15 0)

/-- The two-word entries of a map payload. -/
def pairs2 : List Nat → List (Nat × Nat)
  | a :: b :: r => (a, b) :: pairs2 r
  | _ => []

/-- The map of a seam (R229). -/
def mapEntries (n : Nat) (s : State) : List (Nat × Nat) :=
  pairs2 ((countedWords s.cfg.tables (cfgN F.LOOP_SENSOR_MAP n s) 8 2).getD [])

/-- The weight of a zone (R213). A WEIGHTS payload that is absent or short leaves the built-in weights. -/
def zoneWeight (n z : Nat) (s : State) : Nat :=
  let p := payload s.cfg.tables (cfgN F.LOOP_AE_WEIGHTS n s)
  if cfgN F.LOOP_AE_WEIGHTS n s ≠ 0 ∧ p.length = 3072 then (p.getD z 0).toNat
  else if 16 ≤ z % 64 ∧ z % 64 ≤ 47 ∧ 12 ≤ z / 64 ∧ z / 64 ≤ 35 then 4 else 1

/-! ### Checks (R225) -/

/-- Strictly ascending gains from at least 0x0100. -/
def gainsOk : Nat → List Nat → Bool
  | _, [] => true
  | lo, v :: r => decide (lo ≤ bits v 31 16) && gainsOk (bits v 31 16 + 1) r

/-- Whether a map entry has a defined SRC and address form (R229). -/
def mapEntryOk (e : Nat × Nat) : Bool := bits e.1 31 30 != 3 && decide (bits e.1 27 26 ≤ 1)

/-- Whether a seam's gain table and map suit its policy (R225). -/
def loopOk (role : Role) (w : Words) (tables : List (Nat × List Byte)) (n : Nat) : Bool :=
  let gi := F.LOOP_SENSOR_GAIN_TABLE.get n w
  let mi := F.LOOP_SENSOR_MAP.get n w
  let need := F.LOOP_AE_AE_MODE.get n w != 0 || F.LOOP_AE_LOCK.get n w != 0
  let src := F.SEAM_SRC_SRC_INDEX.get n w
  (if gi = 0 then !need else match countedWords tables gi 64 1 with
    | some g => gainsOk 0x100 g
    | none => false) &&
  (if mi = 0 then !need else match countedWords tables mi 8 2 with
    | some m => (pairs2 m).all mapEntryOk
    | none => false) &&
  !(role == .integrated && mi != 0 && !F.SEAM_SRC_SRC_TYPE.on n w && F.SP_SCBUS_MODE.get src w == 0)

/-- The loop checks of active seams (R206, R225). -/
def loopChecks (role : Role) (w : Words) (tables : List (Nat × List Byte)) : List (Nat × Nat × List Nat) :=
  if role == .head then [] else
  (activeSeams w).filterMap fun n => if loopOk role w tables n then none else some (0x0690 + n, n, [])

/-- Whether messages may not write RFEn.WB of a seam (R223). [DEDUCED, log 39] -/
def wbLocked (w : Words) (n : Nat) : Bool := F.LOOP_AWB_AWB_MODE.get n w == 1 || F.LOOP_AE_LOCK.get n w == 2

/-! ### Limits and quantisation (R214, R216) -/

/-- A division of the loops; by zero its result is not stated. `place` names the division. [DESIGN CHOICE, log 36] -/
def loopDiv (place a b : Nat) : Nat := if b = 0 then Config.loopDivZero place a else a / b

/-- P_s of the values in force (R111, R214). -/
def loopPeriod (n : Nat) (s : State) : Nat := periodNs (seamOf n s).committed n

/-- e_min and e_max (R214). -/
def expLimits (n : Nat) (s : State) : Nat × Nat :=
  let q := cfgN F.LOOP_SENSOR_LINE_Q n s
  let f := loopDiv 0 (loopPeriod n s * 256) q
  (max (cfgN F.LOOP_AE_EXP_MIN_NS n s) (cfgN F.LOOP_SENSOR_EXP_MIN_LINES n s * q / 256),
    min (cfgN F.LOOP_AE_EXP_MAX_NS n s) ((f - cfgN F.LOOP_SENSOR_EXP_MARGIN_LINES n s) * q / 256))

/-- An exposure within e_min to e_max, by the form R215 gives; where the limits cross, e_max holds. [DEDUCED, log 37] -/
def clampExp (n e : Nat) (s : State) : Nat := min (expLimits n s).2 (max (expLimits n s).1 e)

/-- The nearest table entry, ties to the lower; without a table the gain stands for itself and its code (R216). [DEDUCED, log 37] -/
def nearestGain (t : List (Nat × Nat)) (gmax g : Nat) : Nat × Nat :=
  match t with
  | [] => (g, g % 65536)
  | e :: r =>
    let top := (r.filter fun x => decide (x.1 ≤ gmax)).foldl (fun a x => max a x.1) e.1
    let v := max e.1 (min g top)
    r.foldl (fun b x => if ((x.1 : Int) - v).natAbs < ((b.1 : Int) - v).natAbs then x else b) e

/-- Steps 1 to 4 of R216: e, g, lines, gain code. [DEDUCED, log 37] -/
def quantise (n e g : Nat) (s : State) : Nat × Nat × Nat × Nat :=
  let q := cfgN F.LOOP_SENSOR_LINE_Q n s
  let lines := loopDiv 1 (clampExp n e s * 256 + q / 2) q
  let (g', c) := nearestGain (gainTable n s) (cfgN F.LOOP_AE_GAIN_MAX n s) g
  (lines * q / 256, g', lines, c)

/-! ### Requests (R207, R208, R210, R212, R217) -/

/-- The WRITE entry of a map entry (R217). -/
def mapScript (lines code : Nat) (e : Nat × Nat) : Nat :=
  let d := bits e.1 29 28
  let v := match bits e.1 31 30 with
    | 0 => lines / 2 ^ bits e.1 25 21
    | 1 => code / 2 ^ bits e.1 25 21
    | _ => bits e.2 31 8
  2 ^ 60 + d * 2 ^ 58 + bits e.1 27 26 * 2 ^ 56 + bits e.2 6 0 * 2 ^ 48 + bits e.1 15 0 * 2 ^ 32 + v % 2 ^ (8 * (d + 1))

/-- The tag after `t` (R207). [DEDUCED, log 38] -/
def nextTag (t : Nat) : Nat := if 0xFFFE ≤ t then 0x8000 else t + 1

/-- The words of a script of control subtype 0x02 (R440): port and tag, then the entries low word first. [DESIGN CHOICE, log 70] -/
def scriptWords (port tag : Nat) (es : List Nat) : List Word :=
  BitVec.ofNat 32 (port + tag * 65536) :: es.flatMap fun e => [BitVec.ofNat 32 e, BitVec.ofNat 32 (e / 2 ^ 32)]

/-- The port a seam's requests go to: that of the seam or of its gang's leader (R205). -/
def loopPort (n : Nat) (s : State) : Nat := leadOf (cfgN F.SEAM_SRC_SRC_INDEX n s % 4) s

/-- Sends a script to the seam's port or, in a body, to the head as control traffic, whose port field names the link stream,
the one number of the head's side that a body has (R20, R205, R440). In a body the script stands among those sent until the
head acknowledges it. The answer is that of `queueScript`. [DEDUCED, log 38] -/
def sendScript (n : Nat) (sc : Script) (s : State) : Nat × State :=
  if s.dev.role == .body then
    let (g, k) := seamStream n s
    (0, modLoop n (fun l => { l with sent := l.sent ++ [sc] }) (queueControl g 2 (scriptWords k sc.tag sc.entries) s))
  else queueScript (loopPort n s) sc s

/-- In a body a script counts as queued when the head acknowledges its control message (R205, R441). [DEDUCED, log 38] -/
def scriptAcked (n : Nat) (s : State) : State :=
  modLoop n (fun l => match l.sent with
    | sc :: r => entered sc { l with sent := r }
    | [] => l) s

/-- Sends a request of the loop; one refused by a full FIFO is counted (R81) and, in manual policy, due again. -/
def sendRequest (n : Nat) (sc : Script) (s : State) : State :=
  let (r, t) := sendScript n sc s
  if r = 0 then modLoop n (fun l => { l with due := false }) t
  else modLoop n (fun l => { l with
    decidedOn := none, refusedFull := if r = 8 then wrapInc 32 l.refusedFull else l.refusedFull
    due := l.due || (r == 8 && cfgN F.LOOP_AE_AE_MODE n s == 0) }) t

/-- The script of a request with given quantised settings under a tag (R217). -/
def requestScript (n tag : Nat) (q : Nat × Nat × Nat × Nat) (s : State) : Script :=
  ⟨tag, (mapEntries n s).map (mapScript q.2.2.1 q.2.2.2), .loop n q.1 q.2.1 q.2.2.1 q.2.2.2⟩

/-- Queues a request with given quantised settings under a tag; with MAP 0 the loop never reaches the sensor. -/
def requestTagged (n tag : Nat) (q : Nat × Nat × Nat × Nat) (s : State) : State :=
  if cfgN F.LOOP_SENSOR_MAP n s = 0 then s else sendRequest n (requestScript n tag q s) s

/-- Queues a request under the loop's next tag (R207). `on` is the frame it was decided on, none for a request that no
decision made, which leaves a decision still queued as it is (R211). [DEDUCED, log 25] -/
def request (n : Nat) (on : Option Nat) (q : Nat × Nat × Nat × Nat) (s : State) : State :=
  let tag := (loopOf n s).counter
  requestTagged n tag q
    (modLoop n (fun l => { l with counter := nextTag tag, decidedOn := if on.isSome then on else l.decidedOn }) s)

/-- The tag and the quantised settings of a loop's newest request: one that waits for its window, one the head has not
acknowledged, or the last one queued. [DEDUCED, log 38] -/
def newestAsked (l : Loop) : Nat × Nat × Nat × Nat × Nat :=
  match (l.sent ++ l.waiting.map (·.2)).getLast? with
  | some ⟨t, _, .loop _ e g li c⟩ => (t, e, g, li, c)
  | _ => (l.tr.getD 0, l.e, l.g, l.lines, l.code)

/-- Whether lines and gain code both stand as last requested, so that the loop queues nothing (R216). -/
def unchanged (n : Nat) (q : Nat × Nat × Nat × Nat) (s : State) : Bool :=
  (newestAsked (loopOf n s)).2.2.2 == (q.2.2.1, q.2.2.2)

/-- Queues a request when lines or gain code change (R216). -/
def requestChanged (n : Nat) (on : Option Nat) (q : Nat × Nat × Nat × Nat) (s : State) : State :=
  if unchanged n q s then s else request n on q s

/-- Whether a seam's exposure loop is in manual policy (R207, R221). -/
def manualPolicy (n : Nat) (s : State) : Bool := cfgN F.LOOP_AE_AE_MODE n s == 0 && cfgN F.LOOP_AE_LOCK n s != 2

/-- EXP_SET_NS and GAIN_SET quantised, and what they were taken from. -/
def setPoint (n : Nat) (s : State) : Nat × Nat × Nat := (cfgN F.LOOP_AE_EXP_SET_NS n s, cfgN F.LOOP_AE_GAIN_SET n s, loopPeriod n s)

/-- Role start of a seam's loops (R212). -/
def startLoop (n : Nat) (s : State) : State :=
  let w := s.cfg.accepted
  let p := setPoint n s
  let q := quantise n p.1 p.2.1 s
  let l : Loop :=
    { e := q.1, g := q.2.1, lines := q.2.2.1, code := q.2.2.2, lastSet := some p, lockAt := s.dev.elapsed
      gainR := F.RFE_WB_GAIN_R.get n w, gainGR := F.RFE_WB_GAIN_GR.get n w, gainGB := F.RFE_WB_GAIN_GB.get n w
      gainB := F.RFE_WB_GAIN_B.get n w }
  let t := modCap (fun c => { c with loops := modAt c.loops n fun _ => l }) s
  if actsPrimary t then request n none q t else t

/-- Scripts bound to the window after the frame of exposure index `i` or an earlier one are queued (R220, R221). -/
def releaseWaiting (n : Nat) (i : Int) (s : State) : State :=
  let l := loopOf n s
  let ready := l.waiting.filter fun x => decide (x.1 ≤ i)
  ready.foldl (fun t x => sendRequest n x.2 t)
    (modLoop n (fun x => { x with waiting := x.waiting.filter fun y => decide (i < y.1) }) s)

/-- Waiting scripts whose window is open now are queued at once; a body sends those whose frame has come. [DEDUCED, log 38] -/
def releaseIfOpen (n : Nat) (s : State) : State :=
  if s.dev.role == .body || (portOf (loopPort n s) s).windowOpen then
    releaseWaiting n (seamOf n s).lastIndex s
  else s

/-- A loop's turn at a window: what waited for it, the repeat after an abandoned script (R210), a due request, and in manual
policy a change of settings or of the frame rate (R212, R214). [DEDUCED, log 38] -/
def loopTurn (n : Nat) (abandoned : Bool) (s : State) : State :=
  if s.dev.role == .head || !seamActive s.cfg.accepted n || !actsPrimary s then s else
  let s := releaseWaiting n (seamOf n s).lastIndex s
  let s := if abandoned || (loopOf n s).due then request n none (newestAsked (loopOf n s)).2 s else s
  let p := setPoint n s
  let s := if manualPolicy n s && (loopOf n s).lastSet != some p then requestChanged n none (quantise n p.1 p.2.1 s) s else s
  modLoop n (fun x => { x with lastSet := some p }) s

/-! ### Statistics a loop has not seen -/

/-- The oldest published buffer of a seam beyond publication order `k` (R154). -/
def nextStat (n k : Nat) (s : State) : Option StatBuf :=
  ((s.cap.stats.getD n {}).bufs.filter fun b => decide (k < b.order)).foldl (fun best b => match best with
    | none => some b
    | some x => if b.order < x.order then some b else some x) none

/-! ### Array-lock (R220) -/

/-- The gains a seam's balance loop last wrote. -/
def lastGains (l : Loop) : Nat × Nat :=
  match l.boundGains.getLast? with
  | some (_, r, b) => (r, b)
  | none => (l.gainR, l.gainB)

/-- The array datagram of a lock broadcast, which carries the newest settings the leader has decided (R220, R226, R510). [DEDUCED, log 38] -/
def lockBroadcast (n : Nat) (i : Int) (s : State) : State :=
  let l := loopOf n s
  let (r, b) := lastGains l
  let a := newestAsked l
  let pos := cfgN F.TIME_ARRAY_POSITION 0 s
  let ix := toField 64 i
  let ws : List Nat :=
    [s.time.arrayId * 2 ^ 16 + pos, 0x0628 * 2 ^ 16 + 7 * 2 ^ 12, n * 2 ^ 29 + pos * 2 ^ 16 + a.1,
     ix % 2 ^ 32, ix / 2 ^ 32, a.2.1 % 2 ^ 32, a.2.2.1 % 2 ^ 16 * 2 ^ 16, r * 2 ^ 16 + b]
  modLoop n (fun x => { x with sinceLock := 0 })
    { s with mbx := { s.mbx with sent := s.mbx.sent ++ [(.array, ws.map (BitVec.ofNat 32))] } }

/-- The exposure index a leader's decision at the frame of index `i` is for (R220). [DEDUCED, log 38] -/
def lockIndex (n : Nat) (i : Int) (s : State) : Int :=
  i + (sensorLatency (loopPort n s) s : Nat) + (cfgN F.LOOP_AE_LOCK_SLACK n s : Nat)

/-! ### The exposure decision (R208, R209, R213 to R216) -/

/-- One buffer's share of the sums of R213: num, den, clipq, quads. -/
def meterZones (n : Nat) (zones : List (List Nat)) (s : State) : Nat × Nat × Nat × Nat :=
  zones.zipIdx.foldl (fun a z =>
    let q := z.1.getD 5 0
    if q = 0 then a else
    let w := zoneWeight n z.2 s
    (a.1 + w * ((z.1.getD 1 0 + z.1.getD 2 0) / (2 * q)), a.2.1 + w, a.2.2.1 + z.1.getD 4 0, a.2.2.2 + q)) (0, 0, 0, 0)

/-- `ratio` of R213 before the deadband. -/
def meterRatio (target guard m clipq quads : Nat) : Nat :=
  let r := min 0x40000 (max 0x4000 (target * 65536 / m))
  if guard * quads < clipq * 256 then min r 0xC000 else r

/-- x_new of R213. -/
def expNew (e g ratio damp : Nat) : Nat :=
  let old := e * g
  let tgt := old * ratio / 65536
  ((old : Int) + ((tgt : Int) - old) * damp / 256).toNat

/-- The split of R215: e' and g'. [DEDUCED, log 37] -/
def expSplit (n x : Nat) (s : State) : Nat × Nat :=
  let es := cfgN F.LOOP_AE_EXP_SET_NS n s
  let gs := cfgN F.LOOP_AE_GAIN_SET n s
  match cfgN F.LOOP_AE_AE_MODE n s with
  | 0 => (es, gs)
  | 1 => (es, loopDiv 2 x es)
  | 2 => (loopDiv 3 x gs, gs)
  | _ =>
    let e := clampExp n (loopDiv 4 x ((gainTable n s).headD (0, 0)).1) s
    (e, loopDiv 5 x e)

/-- A script waits for the window after the seam's frame of index i - L (R220, R221). -/
def bindScript (n : Nat) (i : Int) (sc : Script) (s : State) : State :=
  let lat : Nat := sensorLatency (loopPort n s) s
  modLoop n (fun l => { l with waiting := l.waiting ++ [(i - (lat : Int), sc)] }) s

/-- A leader's decision for exposure index `i` takes the next tag and waits for its window (R220). -/
def leaderRequest (n : Nat) (i : Int) (q : Nat × Nat × Nat × Nat) (s : State) : State :=
  if unchanged n q s || cfgN F.LOOP_SENSOR_MAP n s == 0 then s
  else
    let tag := (loopOf n s).counter
    bindScript n i (requestScript n tag q s) (modLoop n (fun x => { x with counter := nextTag tag }) s)

/-- The decision of R213 on the accumulated sums, made on buffer `d`. -/
def decide213 (n : Nat) (d : StatData) (acc : List Nat) (s : State) : State :=
  let num := acc.getD 0 0
  let den := acc.getD 1 0
  let s := modLoop n (fun l => { l with acc := [0, 0, 0, 0, 0] }) s
  if den = 0 then s
  else
    let m := max 1 (num / den)
    let ratio := meterRatio (cfgN F.LOOP_AE_TARGET n s) (cfgN F.LOOP_AE_CLIP_GUARD n s) m (acc.getD 2 0) (acc.getD 3 0)
    let s := modLoop n (fun l => { l with m := m }) s
    if ((ratio : Int) - 0x10000).natAbs ≤ cfgN F.LOOP_AE_DEADBAND n s then s
    else
      let l := loopOf n s
      let x := expNew l.e l.g ratio (cfgN F.LOOP_AE_DAMP n s)
      let (e, g) := expSplit n x s
      let q := quantise n e g s
      let s := modLoop n (fun y => { y with decisions := wrapInc 32 y.decisions }) s
      if cfgN F.LOOP_AE_LOCK n s = 1 then
        releaseIfOpen n (lockBroadcast n (lockIndex n d.index s) (leaderRequest n (lockIndex n d.index s) q s))
      else requestChanged n (some d.num) q s

/-- Whether the exposure loop accepts a buffer (R208). [DEDUCED, log 25] -/
def accepts (n : Nat) (d : StatData) (s : State) : Bool :=
  (loopOf n s).begun && (loopOf n s).tr == some d.tag && d.tag != 0xFFFF && d.epoch == seamEpoch n s

/-- The exposure loop takes a published buffer (R208, R209, R212). -/
def exposureTake (n : Nat) (d : StatData) (s : State) : State :=
  if cfgN F.LOOP_AE_AE_MODE n s = 0 ∨ cfgN F.LOOP_AE_LOCK n s = 2 ∨ !accepts n d s then
    modLoop n (fun l => { l with acc := [0, 0, 0, 0, 0] }) s
  else
    let z := meterZones n d.zones s
    let a := (loopOf n s).acc
    let a := [a.getD 0 0 + z.1, a.getD 1 0 + z.2.1, a.getD 2 0 + z.2.2.1, a.getD 3 0 + z.2.2.2, a.getD 4 0 + 1]
    let s := modLoop n (fun l => { l with acc := a }) s
    if a.getD 4 0 ≤ cfgN F.LOOP_AE_AE_FRAMES n s then s else decide213 n d a s

/-- A leader repeats its settings at the eighth frame without a broadcast (R220). -/
def leaderRepeat (n : Nat) (s : State) : State :=
  if cfgN F.LOOP_AE_LOCK n s = 1 ∧ 8 ≤ (loopOf n s).sinceLock then lockBroadcast n (lockIndex n (seamOf n s).lastIndex s) s
  else s

/-- Whether the loops of a seam run here: not in a head (R206), not in a standby (R570). -/
def loopsRun (n : Nat) (s : State) : Bool := blkOn .colour s && seamActive s.cfg.accepted n && actsPrimary s

/-- A decision of a body's loop is late when frame N + L does not carry its tag (R211); a frame of another number tells
nothing, since those between may have been lost. [DEDUCED, log 38] -/
def bodyLate (n num tag : Nat) (s : State) : State :=
  let l := loopOf n s
  match l.decidedOn with
  | some k =>
    let due := k + sensorLatency (loopPort n s) s
    if num < due then s
    else if num = due ∧ l.tr ≠ some tag ∧ tag ≠ 0xFFFF then
      raise 0 (0x0688 + n) n [] (modLoop n (fun x => { x with decidedOn := none, late := wrapInc 32 x.late }) s)
    else modLoop n (fun x => { x with decidedOn := none }) s
  | none => s

/-- A body's turn at an arriving frame, which stands for the window that follows the frame in the head: a frame tagged
0xFFFF tells of an abandoned script, and after a repeat the tag tells anew from L frames on (R86, R210, R212, R221). [DEDUCED, log 38] -/
def bodyTurn (n num tag : Nat) (s : State) : State :=
  let s := bodyLate n num tag s
  let lost := tag == 0xFFFF && decide ((loopOf n s).repeatFrom ≤ num)
  let s := if lost then modLoop n (fun l => { l with repeatFrom := num + max 1 (sensorLatency (loopPort n s) s) }) s else s
  loopTurn n lost s

/-- A seam's loop at every frame of the seam, dropped or not: the frames since a leader's last broadcast and, in a body, the
loop's turn (R220). [DEDUCED, log 38] -/
def loopFrame (n num tag : Nat) (s : State) : State :=
  if !loopsRun n s then s
  else
    let t := leaderRepeat n (modLoop n (fun l => { l with sinceLock := l.sinceLock + 1 }) s)
    if t.dev.role == .body then bodyTurn n num tag t else t

/-- Counts a buffer of another epoch that a loop passes over (R32). -/
def countStale (n : Nat) (d : StatData) (s : State) : State :=
  if d.epoch = seamEpoch n s then s else modLoop n (fun l => { l with stale := wrapInc 32 l.stale }) s

/-- EXPOSURE_DECISION (R208 to R217): the exposure loop takes the next published buffer. -/
def execExposureDecision (seam : Nat) (s : State) : Res :=
  .next (if !loopsRun seam s then s else
  match nextStat seam (loopOf seam s).seenE s with
  | none => s
  | some b =>
    exposureTake seam b.data (countStale seam b.data (modLoop seam (fun l => { l with seenE := b.order }) s)))

/-! ### White balance (R218, R219) -/

/-- The sums of R218: sr, sg, sb, n. -/
def balanceSums (lo hi : Nat) (zones : List (List Nat)) : Nat × Nat × Nat × Nat :=
  zones.foldl (fun a z =>
    let q := z.getD 5 0
    let g := z.getD 1 0 + z.getD 2 0
    if q = 0 ∨ z.getD 4 0 ≠ 0 ∨ g / (2 * q) < lo ∨ hi < g / (2 * q) then a
    else (a.1 + z.getD 0 0, a.2.1 + g, a.2.2.1 + z.getD 3 0, a.2.2.2 + 1)) (0, 0, 0, 0)

/-- One step of a gain toward its target (R218). -/
def balanceStep (gain target damp : Nat) : Nat := ((gain : Int) + ((target : Int) - gain) * damp / 256).toNat

/-- A gain target clamped to WB_MIN to WB_MAX; where the limits cross, WB_MIN holds. -/
def balanceTarget (n sg sx : Nat) (s : State) : Nat :=
  max (cfgN F.LOOP_AWB_WB_MIN n s) (min (sg * 2048 / sx) (cfgN F.LOOP_AWB_WB_MAX n s))

/-- The balance decision of R218 on a buffer; a leader binds its gains to frame n and broadcasts (R220). -/
def balanceTake (n : Nat) (d : StatData) (s : State) : State :=
  let (sr, sg, sb, cnt) := balanceSums (cfgN F.LOOP_AWB_WB_LO n s) (cfgN F.LOOP_AWB_WB_HI n s) d.zones
  if d.epoch ≠ seamEpoch n s ∨ cnt < cfgN F.LOOP_AWB_WB_MIN_ZONES n s ∨ sr = 0 ∨ sb = 0 then s
  else
    let damp := cfgN F.LOOP_AWB_WB_DAMP n s
    let (r0, b0) := lastGains (loopOf n s)
    let r := balanceStep r0 (balanceTarget n sg sr s) damp
    let b := balanceStep b0 (balanceTarget n sg sb s) damp
    if cfgN F.LOOP_AE_LOCK n s = 1 then
      let i := lockIndex n d.index s
      lockBroadcast n i (modLoop n (fun l => { l with boundGains := l.boundGains ++ [(i, r, b)] }) s)
    else modLoop n (fun l => { l with gainR := r, gainGR := 0x1000, gainGB := 0x1000, gainB := b }) s

/-- WHITE_BALANCE_DECISION (R218): on every published buffer of the current epoch. -/
def execWhiteBalanceDecision (seam : Nat) (s : State) : Res :=
  .next (if !loopsRun seam s then s else
  match nextStat seam (loopOf seam s).seenW s with
  | none => s
  | some b =>
    let t := countStale seam b.data (modLoop seam (fun l => { l with seenW := b.order }) s)
    if cfgN F.LOOP_AWB_AWB_MODE seam s = 1 ∧ cfgN F.LOOP_AE_LOCK seam s ≠ 2 then balanceTake seam b.data t else t)

/-! ### Followers (R221, R222) -/

/-- Whether the window after the seam's frame of index `i` has closed. -/
def windowPassed (n : Nat) (i : Int) (s : State) : Bool :=
  let x := seamOf n s
  let p := portOf (loopPort n s) s
  decide (i < x.lastIndex) ||
    (s.dev.role != .body && x.lastIndex == i && p.windowOpen && decide (p.windowTo < nowUnits s))

/-- A follower takes a lock broadcast (R221). -/
def follow (n tag e g r b : Nat) (i : Int) (s : State) : State :=
  let q := quantise n e g s
  let lat : Nat := sensorLatency (loopPort n s) s
  let late := windowPassed n (i - (lat : Int)) s
  let t := modLoop n (fun l => { l with
    lockAt := s.dev.elapsed, silent := false, boundGains := l.boundGains ++ [(i, r, b)] }) (endRun (0x0698 + n) n s)
  let t := if late then raise 0 (0x06A0 + n) n [] t else t
  if cfgN F.LOOP_SENSOR_MAP n s = 0 then t else releaseIfOpen n (bindScript n i (requestScript n tag q s) t)

/-- Every follower of a leader takes its broadcast. -/
def followAll (leader pos tag e g r b : Nat) (i : Int) : List Nat → State → State
  | [], s => s
  | n :: ns, s =>
    followAll leader pos tag e g r b i ns
      (if seamActive s.cfg.accepted n && cfgN F.LOOP_AE_LOCK n s == 2 && cfgN F.LOOP_AE_LEADER_SEAM n s == leader &&
          cfgN F.LOOP_AE_LEADER_POS n s == pos && actsPrimary s then follow n tag e g r b i s else s)

/-- Message 0x0628: lock broadcast (R221, R226). It is not answered (R678). -/
def lockBroadcastMsg : MsgDef :=
  { count := fun c => c == 7, masks := [0xE7FFFFFF, 0xFFFFFFFF, 0xFFFFFFFF, 0xFFFFFFFF, 0xFFFF0000, 0xFFFFFFFF],
    blk := .colour, answered := false,
    act := fun r _ s =>
      let w1 := r.w 1
      (.accept [], followAll (bits w1 31 29) (bits w1 26 16) (bits w1 15 0) (r.w 4) (bits (r.w 5) 31 16)
        (bits (r.w 6) 31 16) (bits (r.w 6) 15 0) (sext 64 (r.w 2 + r.w 3 * 2 ^ 32)) (List.range 8) s) }

/-- LEADER_SILENT_EXPIRY (R222): no broadcast for 32 frame periods; logged once until the next broadcast. -/
def execLeaderSilentExpiry (seam : Nat) (s : State) : Res :=
  let l := loopOf seam s
  .next (if loopsRun seam s && cfgN F.LOOP_AE_LOCK seam s == 2 && !l.silent &&
      decide (l.lockAt * 5 + 32 * loopPeriod seam s * 4 ≤ s.dev.elapsed * 5) then
    raiseOnce 1 (0x0698 + seam) seam [] (modLoop seam (fun x => { x with silent := true }) s)
  else s)

/-- Message 0x0610 + s: loop status (R226). -/
def loopStatusMsg (n : Nat) : MsgDef :=
  { blk := .colour, status := true,
    act := fun _ _ s =>
      let l := loopOf n s
      let (r, b) := lastGains l
      (.accept [(l.tr.getD 0) % 65536 + cfgN F.LOOP_AE_AE_MODE n s * 2 ^ 16 + cfgN F.LOOP_AWB_AWB_MODE n s * 2 ^ 20 +
          cfgN F.LOOP_AE_LOCK n s * 2 ^ 24, l.e % 2 ^ 32, l.g % 65536 * 65536 + l.lines % 65536,
        r % 65536 * 65536 + b % 65536, l.m % 2 ^ 32, l.decisions, l.late], s) }

end Sys2Proof.Machine
end

