-- ==== Sys2Proof/Machine/Phy.lean ====
section
/-! DEFINITION. What a lane of a link group makes of its cells: framing into FEC messages, RS(544,514), scrambling, stuffing and
modulation, each with what the receiver undoes (R393, R429 to R433), and the training blocks a lane sends (R449). -/

namespace Sys2Proof.Machine

/-! ### Modulation (R393) -/

/-- The level of a PAM4 symbol from its two bits, the earlier one more significant (R393). -/
def pam4Level : Bool → Bool → Int
  | false, false => -3
  | false, true => -1
  | true, true => 1
  | true, false => 3

/-- The bits of a PAM4 level. -/
def pam4Bits (l : Int) : List Bool := if l = -3 then [false, false] else if l = -1 then [false, true] else if l = 1 then [true, true] else [true, false]

/-- The levels of bits taken two by two. -/
def pam4Levels : List Bool → List Int
  | a :: b :: r => pam4Level a b :: pam4Levels r
  | _ => []

/-- The levels of a bit sequence: Gray-coded pairs at PAM4; at NRZ a one is +3 and a zero −3 (R393, R449). -/
def modulate (pam4 : Bool) (l : List Bool) : List Int := if pam4 then pam4Levels l else l.map fun a => if a then 3 else -3

/-- The bits of a level sequence. -/
def demodulate (pam4 : Bool) (l : List Int) : List Bool := l.flatMap fun v => if pam4 then pam4Bits v else [decide (0 < v)]

/-- The precoded levels of an Ethernet lane whose partner asks for precoding: each level's Gray index less the one sent before,
modulo 4 (R393, R399). [PRESUMED, log 113] -/
def precode : Nat → List Int → List Int
  | _, [] => []
  | last, v :: r =>
    let p := (((v + 3) / 2).toNat + 4 - last % 4) % 4
    ((p : Int) * 2 - 3) :: precode p r

/-- The levels that an Ethernet lane sends for PAM4 bits (R393). -/
def ethernetLevels (n : Nat) (bits : List Bool) (s : State) : List Int :=
  if (laneOf n s).precode then precode 0 (modulate true bits) else modulate true bits

/-! ### Scrambling (R432) -/

/-- What the 58 bits before a bit add to it: those 39 and 58 places back (R432). -/
def scrTap (st : Nat) : Bool := (bits st 38 38 == 1) != (bits st 57 57 == 1)

/-- The 58 bits on the line after another one, the newest lowest. -/
def scrNext (st : Nat) (b : Bool) : Nat := (st * 2 + b2n b) % 2 ^ 58

/-- The scrambler (R432): the bits sent, and its state after them. -/
def scramble : Nat → List Bool → List Bool × Nat
  | st, [] => ([], st)
  | st, b :: r =>
    let o := b != scrTap st
    let t := scramble (scrNext st o) r
    (o :: t.1, t.2)

/-- The descrambler: the bits received give the state, so that it is in step with the sender after 58 bits (R432). -/
def descramble : Nat → List Bool → List Bool × Nat
  | st, [] => ([], st)
  | st, o :: r =>
    let t := descramble (scrNext st o) r
    ((o != scrTap st) :: t.1, t.2)

/-! ### Transition stuffing (R433) -/

/-- The stuffing pair after a run at a level (R433). -/
def stuffPair (l : Int) : List Int := if 0 < l then [-3, 3] else [3, -3]

/-- The length of the run that a symbol ends, from the level and length of the one before. -/
def runLength (run : Int × Nat) (l : Int) : Nat := if run.2 ≠ 0 ∧ run.1 = l then run.2 + 1 else 1

/-- The transmitter's stuffing (R433): the symbols sent, and the run in progress after them. -/
def stuff : Int × Nat → List Int → List Int × (Int × Nat)
  | run, [] => ([], run)
  | run, l :: r =>
    if runLength run l = 48 then
      let t := stuff (l, 0) r
      (l :: (stuffPair l ++ t.1), t.2)
    else
      let t := stuff (l, runLength run l) r
      (l :: t.1, t.2)

/-- The receiver's removal (R433): `skip` symbols are discarded first, two after each run of 48. -/
def unstuff : Int × Nat → Nat → List Int → List Int
  | _, _, [] => []
  | run, skip + 1, _ :: r => unstuff run skip r
  | run, 0, l :: r => l :: (if runLength run l = 48 then unstuff (l, 0) 2 r else unstuff (l, runLength run l) 0 r)

/-! ### RS(544,514) (R431) -/

/-- A product in GF(2^10) with x^10 + x^3 + 1. [PRESUMED, log 113] -/
def gfMul (a b : Nat) : Nat :=
  ((List.range 10).foldl (fun (r : Nat × Nat) i =>
    (if b / 2 ^ i % 2 = 1 then r.1 ^^^ r.2 else r.1, if 512 ≤ r.2 then r.2 * 2 ^^^ 0x409 else r.2 * 2)) (0, a)).1

/-- A polynomial times (x + a), the lowest coefficient first. -/
def polyStep (p : List Nat) (a : Nat) : List Nat :=
  ((0 :: p).zip (p ++ [0])).map fun c => c.1 ^^^ gfMul a c.2

/-- The generator polynomial: the product of (x + α^j), j from 0 to 29, the lowest coefficient first. [PRESUMED, log 113] -/
def rsGenerator : List Nat :=
  ((List.range 30).foldl (fun (r : List Nat × Nat) _ => (polyStep r.1 r.2, gfMul r.2 2)) ([1], 1)).1

/-- The remainder register after a message symbol, the highest coefficient first. -/
def rsShift (gen : List Nat) (reg : List Nat) (m : Nat) : List Nat :=
  let f := reg.headD 0 ^^^ m
  ((reg.drop 1 ++ [0]).zip gen).map fun (c : Nat × Nat) => c.1 ^^^ gfMul f c.2

/-- The 300 parity bits of a message of 5,140 bits; a symbol's first bit is its lowest (R431). [PRESUMED, log 113] -/
def rsParity (msg : List Bool) : List Bool :=
  let gen := (rsGenerator.take 30).reverse
  (((pieces 10 514 msg).map valLsb).foldl (rsShift gen) (List.replicate 30 0)).flatMap fun v => (msb 10 v).reverse

/-! ### A lane's transmitter (R429, R430) -/

/-- The alignment block of a lane (R430). [DESIGN CHOICE, log 114] -/
def alignBlock (lane width period : Nat) : List Bool :=
  msb 64 0xC3A596F00F695A3C ++ msb 4 lane ++ msb 4 width ++ msb 32 period ++ List.replicate 5036 false

/-- A codeword goes out: encoded, scrambled, modulated and stuffed (R429 steps 4 to 7). -/
def sendWord (pam4 : Bool) (msg : List Bool) (t : TxLane) : TxLane :=
  let c := scramble t.scr (msg ++ rsParity msg)
  let y := stuff t.run (modulate pam4 c.1)
  { t with scr := c.2, run := y.2, line := t.line ++ y.1 }

/-- The bits of a cell in transmission order (R435). -/
def cellBits (c : List Byte) : List Bool := c.flatMap fun b => msb 8 b.toNat

/-- A cell enters its lane's framing (R429 step 3, R430): the alignment block opens a period, 108 zero bits close it, and a message
that is full goes out. `line` are the symbols this sends. -/
def frameCell (pam4 : Bool) (lane width : Nat) (c : List Byte) (t : TxLane) : TxLane :=
  let t := { t with line := [] }
  let t := if t.cells = 0 then sendWord pam4 (alignBlock lane width t.period) t else t
  let last := decide (19932 ≤ t.cells + 1)
  let msg := t.msg ++ cellBits c ++ (if last then List.replicate 108 false else [])
  let t := { t with cells := if last then 0 else t.cells + 1, period := if last then (t.period + 1) % 2 ^ 32 else t.period }
  if 5140 ≤ msg.length then { sendWord pam4 (msg.take 5140) t with msg := msg.drop 5140 } else { t with msg := msg }

/-- A group starts an alignment period on all its lanes together; the scrambler runs on (R430, R432, R450 step 5). -/
def alignLanes (l : List TxLane) : List TxLane := l.map fun t => { scr := t.scr, run := t.run, period := t.period }

/-- A cell of a group's sequence goes to its lane (R429 step 2). [DESIGN CHOICE, log 114] -/
def sendCell (width : Nat) (c : List Byte) (x : LinkGroup) : LinkGroup :=
  { x with lastCell := c, tx := modAt x.tx x.pos (frameCell (ratePam4 x.rate) x.pos width c) }

/-- The symbols that a lane of a group puts on its pins for what it has sent last: TX_INV inverts them (R412). -/
def linePins (g i n : Nat) (s : State) : List Int :=
  let l := ((groupOf g s).tx.getD i {}).line
  if cfgB F.LANE_TX_INV n s then l.map fun v => -v else l

/-! ### Training blocks (R449) -/

/-- The next bit of a PRBS register whose feedback taps are given by exponent: the bit and the register after it. -/
def prbsBit (deg : Nat) (taps : List Nat) (r : Nat) : Bool × Nat :=
  let b := taps.foldl (fun a k => a != (bits r (k - 1) (k - 1) == 1)) false
  (b, (r * 2 + b2n b) % 2 ^ deg)

/-- `n` bits of a PRBS, and the register after them. -/
def prbsRun (deg : Nat) (taps : List Nat) : Nat → Nat → List Bool × Nat
  | 0, r => ([], r)
  | n + 1, r =>
    let b := prbsBit deg taps r
    let t := prbsRun deg taps n b.2
    (b.1 :: t.1, t.2)

/-- The 3,968 symbols that close a training block and the register after them: PRBS13Q at PAM4, the inverted PRBS31
at NRZ (R449). [PRESUMED, log 113] -/
def trainFill (pam4 : Bool) (r : Nat) : List Int × Nat :=
  if pam4 then
    let t := prbsRun 13 [13, 12, 2, 1] 7936 r
    (modulate true t.1, t.2)
  else
    let t := prbsRun 31 [31, 28] 3968 r
    (modulate false (t.1.map (!·)), t.2)

/-- A training block: marker, control field, fill (R449). -/
def trainBlock (pam4 : Bool) (field r : Nat) : List Int × Nat :=
  let f := trainFill pam4 r
  (List.replicate 16 3 ++ List.replicate 16 (-3) ++ ((msb 48 field).flatMap fun b => if b then [3, -3] else [-3, 3]) ++ f.1, f.2)

/-! ### Test patterns (R422) -/

/-- Degree and feedback taps of a PRBS that the generator and the checker offer (R422). [PRESUMED, log 113] -/
def prbsTaps : Nat → Option (Nat × List Nat)
  | 1 => some (7, [7, 6])
  | 2 => some (9, [9, 5])
  | 3 => some (15, [15, 14])
  | 4 => some (31, [31, 28])
  | 5 => some (13, [13, 12, 2, 1])
  | 6 => some (31, [31, 28])
  | _ => none

/-- `n` unit intervals of a pattern by its code, and the register after them: a PRBS at the lane's modulation, or the square wave
with a period of 32 UI (R422). [DESIGN CHOICE, log 114] -/
def testPattern (pam4 : Bool) (code n r : Nat) : List Int × Nat :=
  match prbsTaps code with
  | some (deg, taps) =>
    let t := prbsRun deg taps (if pam4 then 2 * n else n) r
    (modulate pam4 t.1, t.2)
  | none => ((List.range n).map fun k => if code = 7 then (if (r + k) / 16 % 2 = 0 then 3 else -3) else 0, r + n)

/-- What a lane in the test state sends for `n` unit intervals: its generator's pattern, or at far-end loopback what it receives;
TX_INV inverts it (R412, R422). -/
def testLine (lane n r : Nat) (received : List Int) (s : State) : List Int × Nat :=
  let l := laneOf lane s
  let y := if l.loopback = 2 then (received, r) else testPattern (ratePam4 (laneRate s.cfg.accepted lane)) l.gen n r
  (if cfgB F.LANE_TX_INV lane s then y.1.map fun v => -v else y.1, y.2)

/-- What the receiver of a lane in the test state samples: at near-end loopback its own transmitter's output, inverted as R412 says
(R412, R422). -/
def testSamples (lane : Nat) (sent pins : List Int) (s : State) : List Int :=
  let l := laneOf lane s
  let y := if l.loopback = 1 then sent else pins
  if cfgB F.LANE_RX_INV lane s != l.reversal then y.map fun v => -v else y

end Sys2Proof.Machine
end

