-- ==== Sys2Proof/Machine/Links.lean ====
section
/-! DEFINITION. Shaft Link and Cage Link groups: checks, bring-up, training, cells, control messages, time transfer and
retraining (chapter 12). -/

namespace Sys2Proof.Machine

/-! ### Checks (R426, R397) -/

/-- Whether a group's lanes carry the Shaft Link at one rate within the deep lanes (R397, R426). -/
def groupLanesOk (w : Words) (g : Nat) : Bool :=
  let ls := groupLanes w g
  let f := F.LINK_FIRST_LANE.get g w
  decide (f + F.LINK_WIDTH.get g w ≤ 16) &&
    ls.all fun n => laneProto w n == 1 && laneRate w n != 0 && laneRate w n == laneRate w f

/-- Whether a group's settings are valid (R426, R428, R464). -/
def linkOk (role : Role) (w : Words) (g : Nat) : Bool :=
  let on := (List.range 9).filter fun k => F.LINK_ENABLE.on k w
  let head := on.filter fun k => decide (k < 8)
  let width := F.LINK_WIDTH.get g w
  let fields := decide (1 ≤ width ∧ width ≤ 8) && (g == 8 || F.LINK_TIME_PERIOD_US.okValue (F.LINK_TIME_PERIOD_US.get g w)) &&
    F.LINK_TRAIN_TIMEOUT_MS.okValue (F.LINK_TRAIN_TIMEOUT_MS.get g w) &&
    F.LINK_UNCORR_LIMIT.okValue (F.LINK_UNCORR_LIMIT.get g w)
  fields && (!F.LINK_ENABLE.on g w ||
    (role != .integrated && groupLanesOk w g &&
      on.all (fun k => k == g || !(groupLanes w k).any fun n => (groupLanes w g).contains n) &&
      (if g = 8 then role == .body && F.RED_ENABLE.on 0 w && (groupLanes w g).all (fun n => n == 14 || n == 15)
       else !F.RED_ENABLE.on 0 w || (groupLanes w g).all fun n => n != 14 && n != 15) &&
      (role != .head || g == 8 ||
        (decide (head.length ≤ 2) && (g == head.headD 0 ||
          (F.LINK_MIRROR.on g w && F.LINK_MIRROR_SRC.get g w == head.headD 0))))))

/-- The configuration checks of the link groups. -/
def linkChecks (role : Role) (w : Words) : List (Nat × Nat × List Nat) :=
  (List.range 9).filterMap fun g => if linkOk role w g then none else some (linkErr g 1, g, [])

/-! ### Streams of a head (R428) -/

/-- The group whose stream fields a group uses: its source when it is a mirror (R428). -/
def streamGroup (w : Words) (g : Nat) : Nat := if F.LINK_MIRROR.on g w then F.LINK_MIRROR_SRC.get g w else g

/-- The seam a head sends as stream `k` of a group. -/
def headSeam (w : Words) (g k : Nat) : Option Nat :=
  let q := streamGroup w g
  if (F.LINK_STREAM_EN k).on q w then some ((F.LINK_STREAM_SEAM k).get q w) else none

/-- Whether a head sends a seam compressed (R232, R266). -/
def sentCompressed (w : Words) (n : Nat) : Bool := bits (F.CMP_LINK_LINK_SEAMS.get 0 w) n n == 1

/-- The announce of a seam (R440). -/
def announceOf (w : Words) (n : Nat) : Announce :=
  { b := depthBits (F.SEAM_SRC_DEPTH.get n w), f := F.RFE_LIN_LINK_FRAC.get n w, compressed := sentCompressed w n
    w := seamW w n, h := seamH w n, num := F.SEAM_GEOM_FPS_NUM.get n w, den := F.SEAM_GEOM_FPS_DEN.get n w }

/-- The words of an announce (R440). -/
def announceWords (k : Nat) (a : Announce) : List Word :=
  [k + a.b * 2 ^ 16 + a.f * 2 ^ 24 + b2n a.compressed * 2 ^ 31, a.w * 2 ^ 16 + a.h, a.num, a.den].map (BitVec.ofNat 32)

/-- A head queues the announce of every stream of a group that is in use (R440). -/
def announceAll (g : Nat) (s : State) : State :=
  (List.range 4).foldl (fun t k => match headSeam s.cfg.accepted g k with
    | some n =>
      let a := announceOf s.cfg.accepted n
      queueControl g 1 (announceWords k a) (modStream g k (fun x => { x with announce := some a }) t)
    | none => t) s

/-- Bits per second of a stream of `w` by `h` samples of `b` bits at num / den frames (R45, R46). -/
def streamRate (a : Announce) : Nat :=
  let px := ceilDiv (a.w * a.h * a.num) a.den
  (if a.compressed then ceilDiv (px * (1024 * a.b + 16)) 8192 * 8 else px * a.b) + ceilDiv (8192 * a.num) a.den

/-- The payload capacity of a group at a rate, in units of 1/9009 bit/s (R46). -/
def groupCapacity (w : Words) (g rate : Nat) : Nat :=
  8 * rateBaud1001 rate * (if ratePam4 rate then 2 else 1) * F.LINK_WIDTH.get g w

/-- The format of each stream of a group: in a head as it announces it, in a body as it was announced, or until then as the
body's seam declares it (R47, R440). [DEDUCED, log 56] -/
def groupStreams (g : Nat) (s : State) : List Announce :=
  let w := s.cfg.accepted
  (List.range 4).filterMap fun k =>
    if s.dev.role == .head then (headSeam w g k).map (announceOf w)
    else (streamSeam g k s).map fun n => (streamOf g k s).announce.getD (announceOf w n)

/-- Whether a stepped group at the rate in force no longer covers its streams (R47). -/
def linkShort (g : Nat) (s : State) : Bool :=
  cfgB F.LINK_MODE g s &&
    decide (groupCapacity s.cfg.accepted g (groupOf g s).rate < ((groupStreams g s).map streamRate).sum * 9009)

/-! ### Bring-up (R449 to R453) -/

/-- The rate a group starts at (R450, R451). -/
def firstRate (g : Nat) (s : State) : Nat :=
  if cfgB F.LINK_MODE g s then 0x0C else laneRate s.cfg.accepted (cfgN F.LINK_FIRST_LANE g s)

/-- Receiver detection on every lane of a group (R450 step 1). [DEDUCED, log 55] -/
def detectGroup (g : Nat) (s : State) : State :=
  let x := groupOf g s
  if groupOn g s && decide (x.state ≤ 1) && !x.refused && s.red.state != 6 then
    let found := (groupLanes s.cfg.accepted g).all fun n => (laneOf n s).receiver
    modGroup g (fun y => { y with
      state := if found then 2 else 1, rate := firstRate g s, goodRate := 0, stepped := false, stepTo := 0
      retraining := false, reversed := false, lanes := List.replicate 8 {} }) s
  else s

/-- LINK_BRING_UP (R450). -/
def execLinkBringUp (g : Nat) (s : State) : Res := .next (detectGroup g s)

/-- RECEIVER_DETECTION_RETRY (R450): step 1 again. -/
def execReceiverDetectionRetry (g : Nat) (s : State) : Res := .next (detectGroup g s)

/-- One step of the CRC8 of a training block: x^8 + x^2 + x + 1 (R449). -/
def crc8Bit (c : Nat) (b : Bool) : Nat :=
  let t := c * 2 % 256
  if (decide (128 ≤ c)) != b then t ^^^ 7 else t

/-- The CRC8 of bits 47:8 of a control field, most significant first. -/
def crc8 (field : Nat) : Nat := (msb 40 (field / 256)).foldl crc8Bit 0

/-- Applies `f` to the training record of a group's lane. -/
def modTrain (g i : Nat) (f : TrainLane → TrainLane) (s : State) : State :=
  modGroup g (fun x => { x with lanes := modAt x.lanes i f }) s

/-- The least eye metric of a ready receiver in microvolts (R449). [DEDUCED, log 53] -/
def readyMetric (rate : Nat) : Nat := if ratePam4 rate then 20000 else 40000


/-- Takes the request of a training block: a request is acted on when it appears (R449). [DEDUCED, log 53] -/
def takeRequest (g i n tap dir : Nat) (s : State) : State :=
  let t := (groupOf g s).lanes.getD i {}
  if tap = t.ackTap ∨ 5 < tap then s
  else if tap = 0 then modTrain g i (fun x => { x with ackTap := 0, ackStatus := 0 }) s
  else
    let (st, u) := stepCoeff n tap dir s
    modTrain g i (fun x => { x with ackTap := tap, ackStatus := st }) u

/-- Whether the lanes of a group were seen in straight or in fully reversed order; none while a lane is missing or the
order is neither (R450 step 3). -/
def groupOrder (width : Nat) (ls : List TrainLane) : Option Bool :=
  let l := (ls.take width).zipIdx
  if l.all fun x => x.1.seen == some (x.2, width) then some false
  else if l.all fun x => x.1.seen == some (width - 1 - x.2, width) then some true
  else none

/-- Step 4 ends when both directions of every lane are ready for 8 consecutive blocks (R450). -/
def endTraining (g : Nat) (s : State) : State :=
  let w := s.cfg.accepted
  let x := groupOf g s
  let width := F.LINK_WIDTH.get g w
  match groupOrder width x.lanes with
  | some rev =>
    if (x.lanes.take width).all fun l => decide (8 ≤ l.streak) then
      let f := F.LINK_FIRST_LANE.get g w
      let t := if rev && !x.reversed && decide (1 < width) then laneErr 0 f 8 0 s else s
      let t := { t with lanes := modMany (groupLanes w g) (fun l => { l with state := 2, order := rev && decide (1 < width) }) t.lanes }
      modGroup g (fun y => { y with state := 3, reversed := rev && decide (1 < width), tx := alignLanes y.tx, lanes := y.lanes.map fun l =>
        { l with good := 0, missed := 0, counter := 0 } }) t
    else s
  | none => s

/-- The control field of the training blocks this end sends on a lane (R449). [DEDUCED, log 53] -/
def trainField (g i lane metric : Nat) (s : State) : Nat :=
  let x := groupOf g s
  let t := x.lanes.getD i {}
  let v := i * 2 ^ 44 + cfgN F.LINK_WIDTH g s * 2 ^ 40 + t.ackTap * 2 ^ 32 + t.ackStatus * 2 ^ 30 +
    b2n (decide (readyMetric x.rate ≤ metric) && (laneOf lane s).signal) * 2 ^ 29 + x.rate * 2 ^ 8
  v + crc8 v

/-- A lane sends its next training block (R449). [DEDUCED, log 53] -/
def sendBlock (g i lane metric : Nat) (s : State) : State :=
  let f := trainField g i lane metric s
  let b := trainBlock (ratePam4 (groupOf g s).rate) f ((groupOf g s).lanes.getD i {}).prbs
  modGroup g (fun x => { x with tx := modAt x.tx i fun t => { t with line := b.1 } })
    (modTrain g i (fun t => { t with sent := f, prbs := b.2 }) s)

/-- TRAINING_BLOCK (R449, R450 steps 3 and 4). [DEDUCED, log 53] -/
def execTrainingBlock (g lane : Nat) (field : BitVec 48) (inverted : Bool) (metric : Nat) (s : State) : Res :=
  let w := s.cfg.accepted
  let v := field.toNat
  let x := groupOf g s
  let i := lane - F.LINK_FIRST_LANE.get g w
  .next (if !groupOn g s || x.state != 2 || !(groupLanes w g).contains lane then s
    else if crc8 v != v % 256 then s
    else
      let flip := inverted && F.LANE_POL_AUTO.on lane w
      if inverted && !flip then s else
      let s := if flip && !(laneOf lane s).reversal then laneErr 0 lane 7 0 s else s
      let s := modLane lane (fun l => { l with reversal := flip, metric := metric, signal := true }) s
      let s := takeRequest g i lane (bits v 39 37) (bits v 36 35) s
      let ready := decide (readyMetric x.rate ≤ metric) && bits v 29 29 == 1
      endTraining g (sendBlock g i lane metric (modTrain g i (fun t => { t with
        seen := some (bits v 47 44, bits v 43 40), streak := if ready then t.streak + 1 else 0 }) s)))

/-- The rate before one in the steps of R451. -/
def rateBelow (r : Nat) : Nat := if r = 0x10 then 0x0E else if r = 0x0E then 0x0D else 0x0C
/-- The rate after one in the steps of R451; 0 after the last. -/
def rateAbove (r : Nat) : Nat := if r = 0x0C then 0x0D else if r = 0x0D then 0x0E else if r = 0x0E then 0x10 else 0

/-- A group resumes bring-up at a rate from step 2 with its lane PLLs relocking. -/
def atRate (g r : Nat) (s : State) : State :=
  let t := modGroup g (fun x => { x with rate := r, stepTo := 0 }) (retrainFrom 2 g s)
  { t with plls := modMany ((groupLanes s.cfg.accepted g).map pllOf) (fun _ => false) t.plls }

/-- TRAINING_STEP_TIMEOUT (R450, R451, R458): bring-up restarts at step 1, but a stepped group falls back to the rate it
had, and a retrain of it steps down. [DEDUCED, log 55] -/
def execTrainingStepTimeout (g : Nat) (s : State) : Res :=
  let x := groupOf g s
  .next (if !groupOn g s || !(x.state == 2 || x.state == 3 || x.state == 4) then s
    else
      let t := raise 1 (linkErr g 2) g [] s
      if cfgB F.LINK_MODE g s && x.retraining && x.rate != 0x0C then
        modGroup g (fun y => { y with retraining := true, stepped := true }) (atRate g (rateBelow x.rate) t)
      else if cfgB F.LINK_MODE g s && !x.retraining && x.goodRate != 0 && x.rate != x.goodRate then
        modGroup g (fun y => { y with stepped := true }) (atRate g x.goodRate (raise 1 (linkErr g 4) g [] t))
      else modGroup g (fun y => { y with retraining := false }) (retrainFrom 1 g t))

/-- The logical lane of physical position `i` (R427). -/
def logicalLane (g i : Nat) (s : State) : Nat :=
  if (groupOf g s).reversed then cfgN F.LINK_WIDTH g s - 1 - i else i

/-- A detected cause of R457: the retrain and what it means to a standby. [DEDUCED, log 55] -/
def retrainNow (g : Nat) (s : State) : State := redLinkDown (retrain g s)

/-- ALIGNMENT_BLOCK (R430, R450 step 5, R457). [DEDUCED, log 53] -/
def execAlignmentBlock (g lane marker laneIdx width counter : Nat) (s : State) : Res :=
  let w := s.cfg.accepted
  let x := groupOf g s
  let i := lane - F.LINK_FIRST_LANE.get g w
  let t := x.lanes.getD i {}
  let form := marker == 0xC3A596F00F695A3C && laneIdx == logicalLane g i s && width == F.LINK_WIDTH.get g w
  let next := counter == (t.counter + 1) % 2 ^ 32
  .next (if !groupOn g s || !(groupLanes w g).contains lane || decide (x.state < 3) then s
    else if x.state = 3 then
      let u := modTrain g i (fun l => { l with
        counter := counter, good := if !form then 0 else if next && decide (0 < l.good) then l.good + 1 else 1, missed := 0 }) s
      let ls := (groupOf g u).lanes.take (F.LINK_WIDTH.get g w)
      if ls.all fun l => decide (2 ≤ l.good) && l.counter == counter then modGroup g (fun y => { y with state := 4 }) u else u
    else if form && next then modTrain g i (fun l => { l with counter := counter, missed := 0 }) s
    else if t.missed < 2 then modTrain g i (fun l => { l with counter := (l.counter + 1) % 2 ^ 32, missed := l.missed + 1 }) s
    else retrainNow g s)

/-! ### Cells received (R435 to R437) -/

/-- The payload words of a cell. [PRESUMED, log 16] -/
def cellWords (bytes : List Byte) : List Nat := words32 ((bytes.drop 2).take 128)

/-- The header of a cell. -/
def cellHeader (bytes : List Byte) : Nat := beVal (bytes.take 2)

/-- Whether a received cell passes its CRC, lies in no uncorrectable codeword and is of the given type (R431, R437). [DESIGN CHOICE, log 59] -/
def cellOk (typ : Nat) (bytes : List Byte) (fec : Bool) : Bool :=
  fec && bytes.length == 132 && crc16 (bytes.take 130) == beVal (bytes.drop 130) && bits (cellHeader bytes) 15 12 == typ

/-- A cell is discarded and counted (R431, R437, R462). [DEDUCED, log 54] -/
def discardCell (g : Nat) (fec : Bool) (s : State) : State :=
  raise 0 (linkErr g 6) g [] (modGroup g (fun x => { x with
    discardedCells := wrapInc 32 x.discardedCells
    uncorrectable := if fec then x.uncorrectable else wrapInc 32 x.uncorrectable }) s)

/-- Cells of a class were freed: a credit cell is due (R446). -/
def freeCells (g cls n : Nat) (s : State) : State :=
  modGroup g (fun x => { x with creditDue := true, ownFreed := modAt x.ownFreed cls fun v => (v + n) % 2 ^ 32 }) s

/-! ### Capability (R452, R453) -/

/-- The role a device shows in its capability cells (R452). -/
def capRole (g : Nat) (s : State) : Nat := if g = 8 then 3 else if s.dev.role == .head then 1 else 2

/-- Whether Forurn decoding is available: in a body (R262). -/
def hasForurn (s : State) : Bool := s.dev.role == .body

/-- The capability payload (R447, R452). -/
def capabilityWords (g : Nat) (s : State) : List Nat :=
  let width := cfgN F.LINK_WIDTH g s
  [1 + capRole g s * 2 ^ 8 + width * 2 ^ 16 + laneRate s.cfg.accepted (cfgN F.LINK_FIRST_LANE g s) * 2 ^ 24 +
     b2n (hasForurn s) * 2 ^ 31] ++ loWords 2 s.otp.serial ++
  [512 * width + 16 * 2 ^ 16 + 4 * 2 ^ 24, b2n (groupOf g s).capOk]

/-- Whether the peer's capability is refused (R453, R557). -/
def capabilityBad (g : Nat) (v : List Nat) (s : State) : Bool :=
  let w0 := v.getD 0 0
  let offers := v.getD 3 0
  let w := s.cfg.accepted
  let width := F.LINK_WIDTH.get g w
  let peerRole := bits w0 9 8
  bits w0 7 0 != 1 || bits w0 19 16 != width ||
  (if g = 8 then peerRole != 3 else if s.dev.role == .head then peerRole != 2 else peerRole != 1) ||
  decide (bits offers 15 0 < 512 * width) || decide (bits offers 23 16 < 4) || decide (bits offers 31 24 < 2) ||
  (s.dev.role == .head && g != 8 && bits w0 31 31 == 0 &&
    (List.range 4).any fun k => ((headSeam w g k).map (sentCompressed w)).getD false)

/-- Whether the peer on the Cage Link is not the declared one (R557). -/
def wrongPeer (g : Nat) (v : List Nat) (s : State) : Bool :=
  g == 8 && v.getD 1 0 + v.getD 2 0 * 2 ^ 32 != cfgN F.RED_PEER_SERIAL_LO 0 s + cfgN F.RED_PEER_SERIAL_HI 0 s * 2 ^ 32

/-- Whether this end sends STEP: the body, or on the Cage Link the body with the lower serial (R451). [DEDUCED, log 55] -/
def stepper (g : Nat) (s : State) : Bool :=
  if g = 8 then decide (s.otp.serial < (groupOf g s).peerSerial) else s.dev.role == .body

/-- The highest rate both ends offer (R451). -/
def topRate (g : Nat) (s : State) : Nat :=
  min (laneRate s.cfg.accepted (cfgN F.LINK_FIRST_LANE g s)) (groupOf g s).peerRate

/-- A stepped group that stands below its top rate takes the next step (R451). [DEDUCED, log 55] -/
def nextStep (g : Nat) (s : State) : State :=
  let x := groupOf g s
  let r := rateAbove x.rate
  if cfgB F.LINK_MODE g s && stepper g s && !x.stepped && r != 0 && decide (r ≤ topRate g s) then
    modGroup g (fun y => { y with stepTo := r, cmdQ := y.cmdQ ++ [2 + r * 256] }) s
  else s

/-- A group becomes active (R450 step 7): counts start anew; a head announces its streams and its island's certificate; a
body claims; a stepped group goes on. -/
def activate (g : Nat) (s : State) : State :=
  let again := (groupOf g s).wasActive
  let t := modGroup g (fun x => { x with
    state := 5, wasActive := true, retraining := false, goodRate := x.rate, sent := [0, 0, 0], freed := [0, 0, 0]
    ownFreed := [0, 0, 0], creditDue := true, streams := x.streams.map fun k => { k with seq := 0 } }) s
  let t := nextStep g t
  let t := if linkShort g t then raise 2 0x0122 g [] t else t
  match s.dev.role with
  | .head => queueControl g 5 (evidenceWords 2 s.islNv.cert) (announceAll g t)
  | _ => if g = 8 then resyncAgain t else claimOnActive again t

/-- CAPABILITY_CELL (R452, R453): refused, or accepted; with ACK set the link becomes active. -/
def execCapabilityCell (g : Nat) (bytes : List Byte) (fecOk : Bool) (s : State) : Res :=
  let v := cellWords bytes
  .next (if !groupOn g s || (groupOf g s).state != 4 then s
    else if !cellOk 5 bytes fecOk then discardCell g fecOk s
    else if capabilityBad g v s || wrongPeer g v s then
      let t := raise 1 (linkErr g 3) g [] s
      let t := if wrongPeer g v s then raise 1 0x1002 noInst [] t else t
      modGroup g (fun x => { x with refused := true }) (retrainFrom 1 g t)
    else
      let o := v.getD 3 0
      let t := modGroup g (fun x => { x with
        capOk := true, peerSerial := v.getD 1 0 + v.getD 2 0 * 2 ^ 32, peerRate := bits (v.getD 0 0) 28 24
        peerForurn := bits (v.getD 0 0) 31 31 == 1, offer := [bits o 15 0, bits o 23 16, bits o 31 24] }) s
      if v.getD 4 0 % 2 = 1 then activate g t else t)

/-- CAPABILITY_REFUSE_EXPIRY (R453). -/
def execCapabilityRefuseExpiry (g : Nat) (s : State) : Res :=
  .next (if groupOn g s && (groupOf g s).refused then detectGroup g (modGroup g (fun x => { x with refused := false }) s) else s)

/-! ### Rate steps and retrains (R451, R457) -/

/-- LINK_RETRAIN_COMMAND (R457): the peer's RETRAIN is itself a cause. -/
def execLinkRetrainCommand (g : Nat) (s : State) : Res := .next (if groupOn g s then retrainNow g s else s)

/-- STEP (R451): answered STEP_ACK, or STEP_REFUSE when the rate is not the group's next. -/
def execStep (g rate : Nat) (s : State) : Res :=
  let x := groupOf g s
  .next (if !groupOn g s || x.state != 5 then s
    else if cfgB F.LINK_MODE g s && !stepper g s && rate == rateAbove x.rate && rate != 0 && decide (rate ≤ topRate g s) then
      redLinkDown (modGroup g (fun y => { y with state := 6, stepTo := rate, cmdQ := y.cmdQ ++ [3 + rate * 256] }) s)
    else modGroup g (fun y => { y with cmdQ := y.cmdQ ++ [4 + rate * 256] }) s)

/-- STEP_ACK (R451). [DESIGN CHOICE, log 3] -/
def execStepAck (g : Nat) (s : State) : Res :=
  let x := groupOf g s
  .next (if groupOn g s && x.state == 5 && stepper g s && x.stepTo != 0 then
    redLinkDown (modGroup g (fun y => { y with state := 6 }) s) else s)

/-- STEP_REFUSE (R451): the link stays below its target rate. [DEDUCED, log 55] -/
def execStepRefuse (g : Nat) (s : State) : Res :=
  let x := groupOf g s
  .next (if groupOn g s && x.state == 5 && stepper g s && x.stepTo != 0 then
    raise 1 (linkErr g 4) g [] (modGroup g (fun y => { y with stepTo := 0, stepped := true }) s) else s)

/-- RATE_STEP_EXPIRY (R451): the transmitters idle and the PLLs relock at the new rate. -/
def execRateStepExpiry (g : Nat) (s : State) : Res :=
  let x := groupOf g s
  .next (if groupOn g s && x.state == 6 then
    modGroup g (fun y => { y with goodRate := x.goodRate, retraining := false }) (atRate g x.stepTo s) else s)

/-- UNCORRECTABLE_LIMIT (R457). [DESIGN CHOICE, log 59] -/
def execUncorrectableLimit (g : Nat) (s : State) : Res := .next (if groupOn g s then retrainNow g s else s)

/-- ELASTIC_FIFO_OVERFLOW (R444). -/
def execElasticFifoOverflow (g : Nat) (s : State) : Res :=
  .next (if groupOn g s && decide (3 ≤ (groupOf g s).state) then retrainNow g (raise 2 (linkErr g 9) g [] s) else s)

/-- STUFFING_ALLOWANCE_EXCEEDED (R434). -/
def execStuffingAllowanceExceeded (g : Nat) (s : State) : Res :=
  .next (if groupOn g s then raise 0 (linkErr g 8) g [] s else s)

/-- The group in use of a lane. -/
def groupOfLane (n : Nat) (s : State) : Option Nat :=
  (List.range 9).find? fun g => groupOn g s && (groupLanes s.cfg.accepted g).contains n

/-- LOSS_OF_SIGNAL (R415, R420, R457): the lane's fault, and the retrain of its group. -/
def execLossOfSignal (lane : Nat) (s : State) : Res :=
  .next (if laneOn lane s && (laneOf lane s).state != 3 then
    let t := beginFault lane 3 4 1 0 s
    let t := modLane lane (fun l => { l with
      state := if l.state = 5 then 5 else 3, signal := false, losEvents := wrapInc 32 l.losEvents }) (endScan 2 lane t)
    match groupOfLane lane t with
    | some g => modLane lane (fun l => { l with state := 3 }) (retrainNow g t)
    | none => t
  else s)

/-- COMMON_MODE_FAULT (R415). [DESIGN CHOICE, log 106] -/
def execCommonModeFault (lane : Nat) (s : State) : Res :=
  .next (if laneOn lane s then beginFault lane 4 6 1 0 s else s)

/-- LANE_PLL_LOSS (R391): both lanes idle, and their group restarts bring-up once lock returns. -/
def execLanePllLoss (quad : Nat) (ab : Bool) (s : State) : Res :=
  let ls := pllLanes quad ab
  .next (if quad < 10 ∧ s.plls.getD (2 * quad + b2n ab) false then
    let t := losePll ls { s with plls := modAt s.plls (2 * quad + b2n ab) fun _ => false }
    match groupOfLane (ls.headD 0) t, groupOfLane (ls.getD 1 0) t with
    | some g, some h => redLinkDown (if g = h then retrainFrom 1 g t else retrainFrom 1 h (retrainFrom 1 g t))
    | some g, none => redLinkDown (retrainFrom 1 g t)
    | none, some h => redLinkDown (retrainFrom 1 h t)
    | none, none => t
  else s)

/-! ### Cells sent (R441, R442, R448) -/

/-- Whether a class has credit left (R445). -/
def hasCredit (cls : Nat) (x : LinkGroup) : Bool :=
  decide (((x.sent.getD cls 0 + 2 ^ 32 - x.freed.getD cls 0) % 2 ^ 32) < x.offer.getD cls 0)

/-- Whether a class has cells waiting. -/
def classWaiting (cls : Nat) (x : LinkGroup) : Bool :=
  match cls with
  | 0 => !x.copyQ.isEmpty || x.streams.any fun k => !k.cells.isEmpty || !k.outQ.isEmpty
  | 1 => !x.ctrlCells.isEmpty || (!x.ctrlOut && !x.ctrlQ.isEmpty) || !x.takeQ.isEmpty
  | _ => !x.timeQ.isEmpty

/-- The cells of a frame (R438). -/
def frameCells (k seq : Nat) (lost : Bool) (f : LinkFrame) : List (List Byte) :=
  let h := { f.header with droppedBefore := f.header.droppedBefore || lost }
  let first := headerBytes h ++ padTo 64 f.record
  let parts := first :: (if f.data.isEmpty then [] else chunks128 (f.data.length / 128 + 1) f.data)
  parts.zipIdx.map fun p => mkCell 1 (p.2 == 0) (p.2 + 1 == parts.length) k (seq + p.2) p.1

/-- The next pixel cell of a stream, with the stream after it. [DEDUCED, log 54] -/
def nextPixel (k : Nat) (x : LinkStream) : Option (List Byte × LinkStream) :=
  match x.cells with
  | c :: r => some (c, { x with cells := r, seq := (x.seq + 1) % 256 })
  | [] => match x.outQ with
    | f :: q => match frameCells k x.seq x.lost f with
      | c :: r => some (c, { x with outQ := q, cells := r, lost := false, seq := (x.seq + 1) % 256 })
      | [] => none
    | [] => none

/-- The first stream with a pixel cell to send. -/
def pickPixel : Nat → List LinkStream → Option (Nat × List Byte × LinkStream)
  | _, [] => none
  | k, x :: r => match nextPixel k x with
    | some (c, y) => some (k, c, y)
    | none => pickPixel (k + 1) r

/-- The payload of a time cell sent now (R454). -/
def timeWords (x : LinkGroup) (s : State) : List Nat :=
  let prev := (x.departed.headD ⟨0, ⟨0, 0⟩⟩).tod
  let (rx, valid) := match x.arrived with
    | a :: _ => (a, 1)
    | [] => (⟨0, ⟨0, 0⟩⟩, 0)
  [x.tseq % 65536] ++ loWords 3 (todPack prev) ++ [rx.seq % 65536 + valid * 65536] ++ loWords 3 (todPack rx.tod) ++
    [b2n (s.time.clk == 0)]

/-- The bytes of payload words. -/
def natBytes (l : List Nat) : List Byte := l.flatMap (leBytes 4)

/-- Counts a cell of a class as sent. -/
def countSent (cls : Nat) (x : LinkGroup) : LinkGroup := { x with sent := modAt x.sent cls fun v => (v + 1) % 2 ^ 32 }

/-- Starts the oldest control message when none is outstanding (R441). -/
def openControl (x : LinkGroup) : LinkGroup :=
  if x.ctrlOut then x else match x.ctrlQ with
    | m :: _ => { x with ctrlOut := true, repeats := 0, ctrlCells := controlCells x.ctrlSeq m }
    | [] => x

/-- The cell a slot of an active group sends and the group after it (R448). [DEDUCED, log 54] -/
def slotCell (x : LinkGroup) (s : State) : List Byte × LinkGroup :=
  let filler := mkCell 0 false false 0 0 []
  let x := openControl x
  let timeDue := x.pos == 0 && !x.timeQ.isEmpty && hasCredit 2 x
  if x.fillerRow then (filler, x)
  else match x.cmdQ with
  | c :: r => (commandCell (c % 256) (c / 256), { x with cmdQ := r })
  | [] =>
  if x.creditDue then
    (mkCell 3 false false 0 0 (natBytes (x.ownFreed ++ [(x.ctrlIn + 65535) % 65536])), { x with creditDue := false })
  else if timeDue then
    match x.timeQ with
    | [] :: r => (mkCell 4 false false 0 0 (natBytes (timeWords x s)), countSent 2 { x with
        timeQ := r, tseq := wrapInc 16 x.tseq, departed := (⟨x.tseq, nowTod s⟩ :: x.departed).take 16 })
    | p :: r => (mkCell 9 false false 0 0 (wordBytes p), countSent 2 { x with timeQ := r })
    | [] => (filler, x)
  else match (if hasCredit 1 x then x.ctrlCells else []), (if hasCredit 1 x then x.takeQ else []) with
  | c :: r, _ => (c, countSent 1 { x with ctrlCells := r })
  | [], p :: r => (mkCell 0xA false false 0 0 (wordBytes p), countSent 1 { x with takeQ := r })
  | [], [] =>
  if hasCredit 0 x then
    match x.copyQ with
    | c :: r => (c, countSent 0 { x with copyQ := r })
    | [] => match pickPixel 0 x.streams with
      | some (k, c, y) => (c, countSent 0 { x with streams := modAt x.streams k fun _ => y })
      | none => (filler, x)
  else (filler, x)

/-- Moves to the next lane position; the 4,096th row is a filler row (R442). [DEDUCED, log 54] -/
def nextSlot (width : Nat) (x : LinkGroup) : LinkGroup :=
  if x.pos + 1 < width then { x with pos := x.pos + 1 }
  else { x with pos := 0, fillerRow := x.rows == 4094, rows := if x.fillerRow then 0 else x.rows + 1 }

/-- The cell of a slot and the group after it: fillers while the lanes align, capability cells in step 6, then R448's choice; a
filler row goes first (R442, R448, R450, R452). [DEDUCED, log 54] -/
def cellOfSlot (g : Nat) (s : State) : List Byte × LinkGroup :=
  let x := groupOf g s
  if x.state = 3 ∨ (x.state = 4 ∧ x.fillerRow) then (mkCell 0 false false 0 0 [], x)
  else if x.state = 4 then (mkCell 5 false false 0 0 (natBytes (capabilityWords g s)), x)
  else slotCell x s

/-- CELL_SLOT (R429, R448, R452): one cell of the group's sequence is sent on its lane. [DESIGN CHOICE, log 3] -/
def execCellSlot (g : Nat) (s : State) : Res :=
  .next (if !groupOn g s || decide ((groupOf g s).state < 3) then s
    else
      let c := cellOfSlot g s
      let width := cfgN F.LINK_WIDTH g s
      modGroup g (fun _ => nextSlot width (sendCell width c.1 c.2)) s)

/-! ### Credits and control acknowledgement (R441, R445, R446) -/

/-- The acknowledgement of the outstanding control message. -/
def takeAck (ack : Nat) (x : LinkGroup) : LinkGroup :=
  if x.ctrlOut && ack == x.ctrlSeq then
    { x with ctrlOut := false, ctrlCells := [], repeats := 0, ctrlQ := x.ctrlQ.drop 1, ctrlSeq := wrapInc 16 x.ctrlSeq }
  else x

/-- An acknowledgement arrives: a body's loop learns that the head has queued its script (R205, R441). [DEDUCED, log 38] -/
def noteAck (g ack : Nat) (s : State) : State :=
  let x := groupOf g s
  let t := modGroup g (takeAck ack) s
  match x.ctrlQ with
  | m :: _ =>
    match streamSeam g (bits (m.words.headD 0).toNat 1 0) s with
    | some n => if x.ctrlOut && ack == x.ctrlSeq && m.subtype == 2 && s.dev.role == .body then scriptAcked n t else t
    | none => t
  | [] => t

/-- CREDIT_CELL (R446). -/
def execCreditCell (g : Nat) (bytes : List Byte) (fecOk : Bool) (s : State) : Res :=
  let v := cellWords bytes
  .next (if !groupOn g s || !groupActive g s then s
    else if !cellOk 3 bytes fecOk then discardCell g fecOk s
    else noteAck g (v.getD 3 0 % 65536) (modGroup g (fun x => { x with freed := v.take 3 }) s))

/-- CREDIT_CELL_TIMER (R446). -/
def execCreditCellTimer (g : Nat) (s : State) : Res :=
  .next (if groupOn g s && groupActive g s then modGroup g (fun x => { x with creditDue := true }) s else s)

/-- CREDIT_STARVATION (R457): a class has had cells waiting for 10 ms with no credit freed. -/
def execCreditStarvation (g cls : Nat) (s : State) : Res :=
  let x := groupOf g s
  .next (if groupOn g s && groupActive g s && decide (cls < 3) && classWaiting cls x && !hasCredit cls x then retrainNow g s else s)

/-- CONTROL_ACK_TIMEOUT (R441). -/
def execControlAckTimeout (g : Nat) (s : State) : Res :=
  let x := groupOf g s
  .next (if !groupOn g s || !groupActive g s || !x.ctrlOut then s
    else if x.repeats < 8 then
      modGroup g (fun y => { y with
        repeats := y.repeats + 1, ctrlCells := (y.ctrlQ.head?.map (controlCells y.ctrlSeq)).getD [] }) s
    else retrainNow g (raise 1 (linkErr g 7) g [] s))

/-- STREAM_ANNOUNCE_TIMER (R440). -/
def execStreamAnnounceTimer (g : Nat) (s : State) : Res :=
  .next (if groupOn g s && groupActive g s && s.dev.role == .head && g != 8 then announceAll g s else s)

/-! ### Control messages (R440, R562) -/

/-- A body takes a stream announce and checks the link format: a difference in the stream's first announce since role start
stops the start, a later one is a loss of frames (R141, R440). [DEDUCED, log 56] -/
def takeAnnounce (g : Nat) (ws : List Word) (s : State) : State :=
  let v := fun k => (ws.getD k 0).toNat
  let k := bits (v 1) 1 0
  let a : Announce :=
    { b := bits (v 1) 20 16, f := bits (v 1) 28 24, compressed := bits (v 1) 31 31 == 1, w := v 2 / 65536,
      h := v 2 % 65536, num := v 3, den := v 4 }
  let t := modStream g k (fun x => { x with announce := some a }) s
  let t := if linkShort g t && !linkShort g s then raise 2 0x0122 g [] t else t
  match streamSeam g k s with
  | none => t
  | some n =>
    let bad := a.b != depthBits (cfgN F.SEAM_SRC_DEPTH n s) || a.f != cfgN F.RFE_LIN_LINK_FRAC n s
    let u := modSeam n (fun x => { x with linkBad := bad }) t
    if bad then raiseOnce (if (streamOf g k s).announce.isNone then 3 else 2) (0x0490 + n) n [] u else endRun (0x0490 + n) n u

/-- A head queues a script of its primary body (R20, R440). With the control bus off the script is counted as abandoned. [DEDUCED, log 57] -/
def takeScript (ws : List Word) (s : State) : State :=
  let p := bits (ws.getD 1 0).toNat 1 0
  let tag := (ws.getD 1 0).toNat / 65536
  let es := words64 (wordBytes (ws.drop 2))
  if cfgN F.SP_SCBUS_MODE p s = 0 then
    raise 1 (portErr p 7) p [] (modPort p (fun x => { x with abandoned := min 0xFFFF (x.abandoned + 1) }) s)
  else (queueScript p ⟨tag, es.filter fun e => entOp e != 0xF, .body⟩ s).2

/-- Whether a control message of a group waits: its mailbox message does not fit its channel (R684). [DEDUCED, log 57] -/
def controlWaits (ws : List Word) (s : State) : Bool :=
  bits (ws.getD 0 0).toNat 31 24 == 3 &&
    decide (8 < inWords (cfgN F.MBX_FWD_CHANNEL 0 s) s + (postWords ((ws.drop 1).take 8)).length)

/-- The effect of a control message by its subtype (R440). [DEDUCED, log 54; DEDUCED, log 57] -/
def dispatchControl (g : Nat) (ws : List Word) (s : State) : State :=
  let sub := bits (ws.getD 0 0).toNat 31 24
  let w := fun k => (ws.getD k 0).toNat
  if s.dev.role == .head then
    if (sub == 2 || sub == 3 || sub == 4) && s.red.primary != some g then
      raiseOnce 0 0x100A noInst [] (modRed (fun r => { r with ctrlDiscarded := wrapInc 32 r.ctrlDiscarded }) s)
    else match sub with
      | 2 => takeScript ws s
      | 3 => enqueue (cfgN F.MBX_FWD_CHANNEL 0 s) (.fwd g) (postWords ((ws.drop 1).take 8)) s
      | 4 => modRed (fun r => { r with eh := w 1 }) s
      | 6 => headClaim g (w 1) (w 2 + w 3 * 2 ^ 32) (bits (w 4) 2 0) s
      | _ => s
  else match sub with
    | 1 => takeAnnounce g ws s
    | 3 =>
      if hdrReply (w 1) then { s with mbx := { s.mbx with sent := s.mbx.sent ++ [(.internal, postWords ((ws.drop 1).take 8))] } }
      else enqueue (cfgN F.MBX_FWD_CHANNEL 0 s) (.fwd g) (postWords ((ws.drop 1).take 8)) s
    | 5 =>
      let bytes := (wordBytes (ws.drop 3)).take (w 2)
      if bits (w 1) 7 0 = 2 then modIsl (fun i => { i with headCerts := modAt i.headCerts g fun _ => bytes }) s
      else takeHeadSignature g (fun k => streamSeam g k s) bytes s
    | _ => s

/-- CONTROL_MESSAGE (R441): in order it is dispatched; a repeat is discarded but acknowledged. The Cage Link carries none: its cells
are discarded (R437). -/
def execControlMessage (g : Nat) (words : List Word) (s : State) : Res :=
  let x := groupOf g s
  let w0 := (words.getD 0 0).toNat
  .next (if !groupOn g s || !groupActive g s then s
    else if g = 8 then (List.range (max 1 (bits w0 23 16))).foldl (fun t _ => discardCell g true t) s
    else
      let t := freeCells g 1 (bits w0 23 16) s
      if w0 % 65536 ≠ x.ctrlIn then t
      else if controlWaits words s then s
      else dispatchControl g words (modGroup g (fun y => { y with ctrlIn := wrapInc 16 y.ctrlIn }) t))

/-! ### Pixel cells (R438, R439, R24, R34, R262, R263, R563) -/

/-- The samples of line `y` of packed link codes. -/
def codeLine (b w y : Nat) (data : List Byte) : List Nat :=
  let start := y * w * b
  let bytes := (data.drop (start / 8)).take ((start % 8 + w * b) / 8 + 1)
  (pieces b w (((bytes.flatMap fun x => (msb 8 x.toNat).reverse).drop (start % 8)).take (w * b))).map valLsb

/-- Writes lines of a link frame to the seam's ring, each after its stripe slot is claimed. -/
def writeLines (n : Nat) (ls : List (List Nat)) (s : State) : State :=
  ls.foldl (fun t l => writeLine n l (claimStripe n t)) s

/-- The most bytes a stream's frame may hold (R234, R439). -/
def frameLimit (a : Announce) : Nat :=
  codeBytes a.w a.h a.b + (if a.compressed then 16 * blkCount a.w a.h else 0)

/-- A frame of a stream is refused before its arrival at the seam: it is counted and its cells are ignored. [DEDUCED, log 56] -/
def refuseFrame (g k n : Nat) (byEpoch : Bool) (s : State) : State :=
  modStream g k (fun x => { x with receiving := false, data := [], got := 0 })
    (noteDrop n (modSeam n (fun y => if byEpoch then { y with epochDiscards := y.epochDiscards + 1 }
      else { y with crcDiscards := y.crcDiscards + 1 }) s))

/-- The first cell of a frame (R24, R28, R34, R141, R563). [DEDUCED, log 56] -/
def beginLinkFrame (g k : Nat) (payload : List Byte) (s : State) : State :=
  match streamSeam g k s with
  | none => s
  | some n =>
    match headerOfBytes (payload.take 48) with
    | none => refuseFrame g k n false s
    | some h =>
      if s.pwr.entering || linkShort g s then s
      else if (seamOf n s).linkBad then refuseFrame g k n false s
      else if s.red.eb < h.epoch then
        let t := refuseFrame g k n true s
        if redOn s && s.red.state == 5 then depose t else t
      else if h.epoch < s.red.es.getD n 0 then refuseFrame g k n true s
      else
        let t := if h.metro = 0xFFFFFFFF then s else takeHeadRecord n ((payload.drop 48).take 64) s
        let t := modStream g k (fun x => { x with receiving := true, header := h, data := [], got := 0, used := 0, blk := 0, row := [] }) t
        let u := loopFrame n h.num h.tag (arrive n { h with compressed := false } (indexOfTime n h.exp s) t)
        if (seamOf n u).receiving then
          modStream g k (fun x => { x with admitted := true }) (modRed (fun r => { r with es := modAt r.es n fun _ => h.epoch }) u)
        else modStream g k (fun x => { x with admitted := false }) u

/-- The lines of an uncompressed frame that have become complete go to the ring. -/
def drainLines (g k n : Nat) (s : State) : State :=
  let st := streamOf g k s
  let w := s.cfg.accepted
  let b := depthBits (F.SEAM_SRC_DEPTH.get n w)
  let aw := ((st.announce.map (·.w)).getD (seamW w n))
  let done := if aw * b = 0 then 0 else min (st.data.length * 8 / (aw * b)) ((st.announce.map (·.h)).getD (seamH w n))
  modStream g k (fun x => { x with got := done })
    (writeLines n ((List.range (done - st.got)).map fun i => codeLine b aw (st.got + i) st.data) s)

/-- A stream waits for its next frame header. -/
def closeStream (g k : Nat) (s : State) : State :=
  modStream g k (fun x => { x with receiving := false, admitted := false, data := [], got := 0 }) s

/-- A block of a compressed frame fails a check: the frame is dropped whole (R263). [DEDUCED, log 58] -/
def rejectBlock (g k n blk check : Nat) (s : State) : State :=
  let u := { s with comp := { s.comp with rejected := wrapInc 32 s.comp.rejected } }
  raise 2 0x0704 n [n, blk, check]
    (modSeam n (fun x => { x with crcDiscards := x.crcDiscards + 1 }) (dropReceiving n (closeStream g k u)))

/-- A block of a compressed frame has been decoded: a complete row of blocks goes to the ring (R99, R262). -/
def keepBlock (g k n len : Nat) (p : Plane) (s : State) : State :=
  let st := streamOf g k s
  let w := seamW s.cfg.accepted n
  let row := st.row ++ [p]
  let full := decide (blkCols w ≤ row.length)
  let t := modStream g k (fun x => { x with used := x.used + len, blk := x.blk + 1, row := if full then [] else row }) s
  if full then writeLines n (rowLines w (seamH s.cfg.accepted n) (st.blk / blkCols w) row) t else t

/-- The blocks of a compressed frame that have arrived whole are decoded, at most `fuel` of them; at the frame's last cell one
that is missing or short fails too (R262, R263). [DEDUCED, log 58] -/
def drainBlocks (g k n : Nat) (last : Bool) : Nat → State → State
  | 0, s => s
  | fuel + 1, s =>
    let st := streamOf g k s
    let w := s.cfg.accepted
    let rest := st.data.drop st.used
    let len := 16 + bits (fieldAt rest 4 4) 24 0
    let info := linkInfo (seamW w n) (seamH w n) (depthBits (F.SEAM_SRC_DEPTH.get n w)) st.header.num st.blk
    if !st.receiving || decide (blkCount (seamW w n) (seamH w n) ≤ st.blk) then s
    else if rest.length < 16 ∨ (rest.length < len ∧ len ≤ 16 + rawSize info) then
      (if last then rejectBlock g k n st.blk 1 s else s)
    else match readBlock info rest with
      | .ok (p, _) => drainBlocks g k n last fuel (keepBlock g k n len p s)
      | .error c => rejectBlock g k n st.blk c s

/-- The data of a frame that has arrived goes to the ring. -/
def drainData (g k n : Nat) (last : Bool) (s : State) : State :=
  if (streamOf g k s).header.compressed then
    drainBlocks g k n last (blkCount (seamW s.cfg.accepted n) (seamH s.cfg.accepted n)) s
  else drainLines g k n s

/-- A data cell of the frame being received. [DEDUCED, log 54] -/
def takeData (g k n : Nat) (payload : List Byte) (last : Bool) (s : State) : State :=
  let st := streamOf g k s
  let a := st.announce.getD (announceOf s.cfg.accepted n)
  if ceilDiv (frameLimit a) 128 * 128 < st.data.length + 128 then dropStream g k s
  else
    let t := modStream g k (fun x => { x with data := x.data ++ payload }) s
    let t := if st.admitted then drainData g k n last t else t
    if !last || !(streamOf g k t).receiving then t
    else if st.admitted then endReceiving n (closeStream g k t)
    else closeStream g k t

/-- A good pixel cell of a stream (R439). -/
def takePixel (g k seq : Nat) (first last : Bool) (payload : List Byte) (s : State) : State :=
  let st := streamOf g k s
  let t := if st.receiving && (first || seq != st.seq) then dropStream g k s else s
  let t := modStream g k (fun x => { x with seq := (seq + 1) % 256 }) t
  if first then
    let u := beginLinkFrame g k payload t
    if last then dropStream g k u else u
  else if (streamOf g k t).receiving then
    match streamSeam g k t with
    | some n => takeData g k n payload last t
    | none => t
  else t

/-- PIXEL_CELL (R439): a cell that fails R431 or R437 is discarded and drops its stream's frame through the gap it
leaves; its credit is freed. -/
def execPixelCell (g : Nat) (bytes : List Byte) (fecOk : Bool) (s : State) : Res :=
  let h := cellHeader bytes
  .next (if !groupOn g s || !groupActive g s then s
    else
      let t := freeCells g 0 1 s
      if !cellOk 1 bytes fecOk || g == 8 || s.dev.role != .body then discardCell g fecOk t
      else takePixel g (bits h 9 8) (bits h 7 0) (bits h 11 11 == 1) (bits h 10 10 == 1) ((bytes.drop 2).take 128) t)

/-! ### Time transfer (R454, R455, R495) -/

/-- TIME_CELL_TIMER (R454). -/
def execTimeCellTimer (g : Nat) (s : State) : Res :=
  .next (if groupOn g s && groupActive g s && s.dev.role == .body && g != 8 then
    modGroup g (fun x => { x with timeQ := x.timeQ ++ [[]] }) s else s)

/-- θ of R455 in 2^-16 ns from the stamps t1 to t4. -/
def linkTheta (t1 t2 t3 t4 : Tod) (asymPs : Int) : Int :=
  ((((todUnits t2 : Int) - todUnits t1) - ((todUnits t4 : Int) - todUnits t3)) * 1000 - asymPs * 65536) / 2000

/-- The exchange a body's time cell completes, if the head can use it (R455). -/
def linkExchange (g : Nat) (v : List Nat) (s : State) : Option (Int × Int) :=
  let x := groupOf g s
  let tod := fun k => todUnpack (v.getD k 0 + v.getD (k + 1) 0 * 2 ^ 32 + v.getD (k + 2) 0 % 2 ^ 30 * 2 ^ 64)
  let before := (v.getD 0 0 + 65535) % 65536
  let own := fun (l : List TimeStamp) n => (l.find? fun e => e.seq == n).map (·.tod)
  if v.getD 4 0 / 65536 % 2 = 0 then none
  else match own x.arrived before, own x.departed (v.getD 4 0 % 65536) with
    | some t2, some t3 =>
      if ((todUnits t2 : Int) - todUnits t3).natAbs ≤ 2 * cfgN F.LINK_TIME_PERIOD_US g s * 65536000 then
        some (linkTheta (tod 1) t2 t3 (tod 5) (cfgI F.LINK_ASYM_PS g s), todUnits t2)
      else none
    | _, _ => none

/-- TIME_CELL (R454, R455): the cell is stamped; a head answers it and its servo takes θ from the primary group. -/
def execTimeCell (g : Nat) (words : List Word) (arrival : Tod) (s : State) : Res :=
  let v := words.map (·.toNat)
  .next (if !groupOn g s || !groupActive g s then s
    else if g = 8 then discardCell g true s
    else
      let head := s.dev.role == .head
      let primary := s.red.primary == some g
      let t := match (if head && primary then linkExchange g v s else none) with
        | some (th, at_) => takeSample th at_ s
        | none => s
      let t := if head && primary then { t with time := { t.time with bodyFreeRun := v.getD 8 0 % 2 == 1 } } else t
      freeCells g 2 1 (modGroup g (fun x => { x with
        arrived := (⟨v.getD 0 0 % 65536, arrival⟩ :: x.arrived).take 16
        timeQ := if head then x.timeQ ++ [[]] else x.timeQ }) t))

/-! ### Frames of a head (R438, R459) -/

/-- A head's finished frame goes to every link stream of its seam; on a group that is not active, or that no longer
covers its streams, it is discarded whole and counted (R47, R428, R459). -/
def pushFrame (n : Nat) (f : LinkFrame) (s : State) : State :=
  let w := s.cfg.accepted
  { s with links := s.links.zipIdx.map fun x =>
      if x.2 < 8 ∧ groupOn x.2 s then
        { x.1 with streams := x.1.streams.zipIdx.map fun k =>
            if headSeam w x.2 k.2 = some n then
              (if x.1.state = 5 ∧ !linkShort x.2 s then { k.1 with outQ := k.1.outQ ++ [f] }
               else { k.1 with lost := true, discarded := k.1.discarded + 1 })
            else k.1 }
      else x.1 }

/-! ### Messages (R463) -/

/-- Message 0x0Cg0: link status. [DESIGN CHOICE, log 59] -/
def linkStatusMsg (g : Nat) : MsgDef :=
  { blk := if g = 8 then .cage else .shaft, status := true,
    act := fun _ _ s =>
      let x := groupOf g s
      (.accept ([x.state + cfgN F.LINK_WIDTH g s % 16 * 2 ^ 8 + x.rate * 2 ^ 16 + b2n x.reversed * 2 ^ 24] ++
        loWords 2 x.peerSerial ++ [x.corrected, x.uncorrectable, x.discardedCells, x.retrains % 2 ^ 32]), s) }

/-- Message 0x0Cg1: retrain; a stepped group restarts from R450 step 1 (R457, R463). -/
def linkRetrainMsg (g : Nat) : MsgDef :=
  { blk := if g = 8 then .cage else .shaft,
    act := fun _ _ s =>
      let x := groupOf g s
      if !groupOn g s then (.refuse 7 0 0, s)
      else if cfgB F.LINK_MODE g s && decide (1 < x.state) then
        let t := retrainFrom 1 g (raise 1 (linkErr g 5) g [] s)
        (.accept [], redLinkDown (modGroup g (fun y =>
          { y with retrains := y.retrains + 1, stepped := false, lastCell := commandCell 1 x.rate }) t))
      else (.accept [], retrainNow g s) }

end Sys2Proof.Machine
end

