-- ==== Sys2Proof/Machine/Places.lean ====
section
/-! DEFINITION. Where the fixed allocations of R644 stand: the start of each buffer and ring in DRAM. -/

namespace Sys2Proof.Machine

/-- Active encode (`dec` false) or decode streams (R268). -/
def streamsOf (role : Role) (dec : Bool) (w : Words) : List Nat :=
  if role == .head then [] else (List.range 8).filter fun m => F.CODEC_STRM_ENABLE.on m w && F.CODEC_STRM_DIR.on m w == dec

/-- Whether a codec stream is intra: an Intra profile (R49). -/
def intraStream (w : Words) (m : Nat) : Bool := decide (4 ≤ F.CODEC_STRM_PROFILE.get m w)

/-- Active record streams. -/
def recStreams (role : Role) (w : Words) : List Nat := if role == .head then [] else (List.range 8).filter fun j => F.REC_ENABLE.on j w

/-- Bytes of a line of `w` 16-bit samples, padded to a multiple of 64 (R191). -/
def lineBytes (w : Nat) : Nat := ceilDiv (2 * w) 64 * 64

/-- The start of allocation `k` of an item of R644, 0 when it has none. -/
def itemStart (item k : Nat) (s : State) : Nat := ((s.dram.alloc.filter fun x => x.1 == item).getD k (0, 0, 0)).2.1

/-- Buffers of the writers of item 5 that stand before adit `a`. -/
def buffersBeforeAdit (a : Nat) (w : Words) : Nat :=
  (((List.range 8).filter fun t => F.TAP_SRC_ENABLE.on t w).map fun t => F.TAP_SRC_DEPTH.get t w).sum +
    (((List.range a).filter fun i => F.ADIT_ENABLE.on i w).map fun i => F.ADIT_BUFS.get i w).sum

/-- Statistics buffer `i` of a seam. -/
def statPlace (n i : Nat) (s : State) : Nat :=
  let w := s.cfg.accepted
  itemStart 4 ((((List.range n).filter (seamActive w)).map fun m => F.STATS_DEPTH.get m w).sum + i) s

/-- Output buffer `i` of a tap. -/
def tapPlace (t i : Nat) (s : State) : Nat :=
  let w := s.cfg.accepted
  itemStart 5 ((((List.range t).filter fun k => F.TAP_SRC_ENABLE.on k w).map fun k => F.TAP_SRC_DEPTH.get k w).sum + i) s

/-- Output buffer `i` of an adit. -/
def aditPlace (a i : Nat) (s : State) : Nat := itemStart 5 (buffersBeforeAdit a s.cfg.accepted + i) s

/-- Output buffer `i` of a decode stream. -/
def decPlace (m i : Nat) (s : State) : Nat :=
  let w := s.cfg.accepted
  itemStart 5 (buffersBeforeAdit 4 w +
    (((streamsOf s.dev.role true w).filter fun k => decide (k < m)).map fun k => F.CODEC_STRM_DEPTH.get k w).sum + i) s

/-- The rings of item 7 that a record stream has: staging, pre-roll, standby. -/
def recRings (role : Role) (w : Words) (j : Nat) : Nat :=
  b2n (F.REC_KIND.get j w == 0) + b2n (F.REC_PREROLL_MS.get j w != 0) + b2n (role == .body && F.RED_ENABLE.on 0 w)

/-- The staging ring of a Forurn record stream (R323). -/
def stagePlace (j : Nat) (s : State) : Nat :=
  let w := s.cfg.accepted
  itemStart 7 (((recStreams s.dev.role w).filter fun k => decide (k < j)).map (recRings s.dev.role w)).sum s

/-- The ring of a seam (R100). -/
def seamPlace (n : Nat) (s : State) : Nat := itemStart 9 ((activeSeams s.cfg.accepted).filter fun m => decide (m < n)).length s

end Sys2Proof.Machine
end

