-- ==== Sys2Proof/Machine/Compressor.lean ====
section
/-! DEFINITION. The raw compressor: jobs, engines, output, and the frames it gives the recorder and a head's links
(chapter 7, R248 to R265). -/

namespace Sys2Proof.Machine

/-- Applies `f` to the compressor. -/
def modComp (f : Comp → Comp) (s : State) : State := { s with comp := f s.comp }

/-- Whether the compressor runs. -/
def compOn (s : State) : Bool := blkOn .compressor s

/-- Blocks of a job's frame. -/
def jobBlocks (j : CompJob) : Nat := blkCount (planeW j.plane) j.plane.length

/-- The grid entry of block `i` of a job (R236). -/
def jobInfo (j : CompJob) (i : Nat) : BlkInfo :=
  let w := planeW j.plane
  { mode := j.mode, kcode := j.kcode, phase := j.phase, bits := j.b, bw := blkWidth w (i % blkCols w),
    bh := blkHeight w j.plane.length (i / blkCols w), frameLo := j.header.num, row := i / blkCols w, col := i % blkCols w }

/-- The worst-case output of a frame (R45). -/
def worstFrame (w h b : Nat) : Nat := ceilDiv (w * h * (1024 * b + 16)) 8192

/-- The staging ring of a Forurn record stream in bytes (R323). -/
def stageBytes (j : Nat) (worst : Nat) (s : State) : Nat :=
  if cfgN F.REC_STAGE_BYTES j s = 0 then 3 * worst else cfgN F.REC_STAGE_BYTES j s

/-! ### Descriptors and completion records (R255 to R257) -/

/-- The 64 bytes of a job's descriptor (R255). [DESIGN CHOICE, log 112] -/
def jobDescriptor (j : CompJob) : List Byte :=
  leBytes 4 (j.client * 2 ^ 28 + j.source * 2 ^ 24) ++ leBytes 8 j.inAddr ++ leBytes 4 (planeW j.plane * 2 ^ 16 + j.plane.length) ++
    leBytes 4 (j.b * 2 ^ 27 + j.mode * 2 ^ 25 + j.kcode * 2 ^ 22 + j.phase * 2 ^ 20) ++ leBytes 4 j.pitch ++ leBytes 8 j.header.num ++
    leBytes 4 j.start ++ leBytes 8 j.outAddr ++ leBytes 4 j.space ++ leBytes 8 j.listAddr ++ leBytes 4 j.listSpace ++ leBytes 4 0

/-- Whether a job's descriptor is valid (R257): START_BLOCK inside the frame, space for the frame list, and every field in
the ranges of R230 to R233 and of the block header that carries it (R236). -/
def descOk (j : CompJob) : Bool :=
  let w := planeW j.plane
  let h := j.plane.length
  decide (j.start < jobBlocks j) && (j.listAddr == 0 || decide (32 + 4 * jobBlocks j ≤ j.listSpace)) &&
    decide (j.client ≤ 1 ∧ (j.client = 0 → j.source ≤ 3) ∧ j.source ≤ 7) && decide (8192 ≤ w * h ∧ w % 2 = 0 ∧ h % 2 = 0) &&
    decide (10 ≤ j.b ∧ j.b ≤ 16 ∧ j.mode ≤ 1 ∧ j.kcode ≤ 4 ∧ j.phase ≤ 3) && (j.client == 0 || j.mode == 0)

/-- Samples of the blocks before block `i`. -/
def samplesBefore (j : CompJob) (i : Nat) : Nat := ((List.range i).map fun k => (jobInfo j k).bw * (jobInfo j k).bh).sum

/-- The 32 bytes of a completion record (R256): status 0 done, 1 stopped on output space, 2 descriptor invalid, 3 aborted. -/
def completion (status : Nat) (j : CompJob) : List Byte :=
  leBytes 4 status ++ leBytes 4 j.writes ++ leBytes 8 (samplesBefore j j.writes) ++ leBytes 4 j.output.length ++
    leBytes 4 j.rawSize ++ leBytes 4 j.rawMis ++ leBytes 4 0

/-- Adds a job at the tail of the queue (R252). Each adit and each link seam has one job outstanding, so that its 16 entries
never fill. [DEDUCED, log 43] -/
def postJob (j : CompJob) (s : State) : State :=
  modComp (fun c => { c with queue := c.queue ++ [{ j with id := c.nextId }], nextId := c.nextId + 1 }) s

/-- The job of an adit's buffer: the recorder's output space runs to the wrap point of its staging ring (R255, R323). [DEDUCED, log 43; DESIGN CHOICE, log 112] -/
def aditJob (a j i : Nat) (pic : Picture) (s : State) : CompJob :=
  let p := pic.planes.headD []
  let x := recStream j s
  let list := cfgB F.CMP_FRAME_LIST a s
  { id := 0, client := 0, source := a, header := pic.header, plane := p, b := pic.bits, mode := pic.comp % 2
    kcode := pic.comp / 2, phase := cfgN F.SEAM_SRC_CFA_PHASE pic.header.seam s, start := 0
    space := stageBytes j (worstFrame (planeW p) p.length pic.bits) s - x.stageAt
    inAddr := aditPlace a i s + 64, pitch := lineBytes (planeW p), outAddr := stagePlace j s + x.stageAt
    listAddr := if list then Config.frameListPlace a * 64 + 64 else 0
    listSpace := if list then 32 + 4 * blkCount (planeW p) p.length else 0
    next := 0, writes := 0, lens := [] }

/-- A record stream takes note of a buffer of its source: buffers that left the ring before it could take them are units not
recorded (R323, R358), and one of another epoch is discarded and counted (R32). The answer says whether it may be taken. [DEDUCED, log 43] -/
def noteSource (j : Nat) (b : OutBuf) (s : State) : Bool × State :=
  let x := recStream j s
  let lost := if x.seen = 0 then 0 else b.order - x.seen - 1
  let t := (List.range lost).foldl (fun u _ => missUnit u) (modRecStream j (fun y => { y with seen := b.order }) s)
  if b.pic.header.epoch = seamEpoch b.pic.header.seam s then (true, t)
  else (false, modRecStream j (fun y => { y with stale := wrapInc 32 y.stale }) t)

/-- The recorder posts a job for the next buffer of an adit, when its staging ring has the space, and else counts the frame
(R320, R323). At most `fuel` buffers are passed over. [DEDUCED, log 43] -/
def takeAdits (a : Nat) : Nat → State → State
  | 0, s => s
  | fuel + 1, s =>
  match recFor 0 a s with
  | none => s
  | some j =>
    let r := s.cap.adits.getD a {}
    let x := recStream j s
    if s.comp.queue.any fun q => q.client == 0 && q.source == a then s
    else match nextOut x.seen r with
    | none => s
    | some i =>
      let b := r.bufs.getD i {}
      let pic := b.pic
      let (good, t) := noteSource j b s
      let p := pic.planes.headD []
      let worst := worstFrame (planeW p) p.length pic.bits
      if !good || pic.format != 8 then takeAdits a fuel t
      else if stageBytes j worst s < x.stageUsed + worst then takeAdits a fuel (missUnit t)
      else if (s.comp.engines.all fun e => e.out) then takeAdits a fuel (modRec (fun r => { r with missed := wrapInc 32 r.missed }) t)
      else postJob (aditJob a j i pic t) (modCap (fun c => { c with adits := modAt c.adits a (holdOut .compressor (some i)) }) t)

/-- The recorder takes what an adit's ring holds for it. [DEDUCED, log 43] -/
def takeAdit (a : Nat) (s : State) : State := takeAdits a ((s.cap.adits.getD a {}).bufs.length + 1) s

/-- A frame of a link stream is lost in the head. -/
def loseLinkFrame (n : Nat) (s : State) : State :=
  let w := s.cfg.accepted
  { s with links := s.links.zipIdx.map fun x =>
      { x.1 with streams := x.1.streams.zipIdx.map fun k =>
          if headSeam w x.2 k.2 = some n then { k.1 with lost := true, discarded := k.1.discarded + 1 } else k.1 } }

/-- The head posts a job for a frame it sends compressed, always with output space for the worst case; a frame waits while
its seam's job is outstanding (R232, R252, R260). [DEDUCED, log 43; DESIGN CHOICE, log 112] -/
def postLinkJob (n : Nat) (h : FrameHeader) (record : List Byte) (p : Plane) (b : Nat) (s : State) : State :=
  let j : CompJob :=
    { id := 0, client := 1, source := n, header := h, record := record, plane := p, b := b, mode := 0, kcode := 0
      phase := cfgN F.SEAM_SRC_CFA_PHASE n s, start := 0, space := worstFrame (planeW p) p.length b
      inAddr := Config.linkPlace n 0, pitch := lineBytes (planeW p), outAddr := Config.linkPlace n 1
      next := 0, writes := 0, lens := [] }
  if (s.comp.engines.all fun e => e.out) then loseLinkFrame n s
  else if s.comp.queue.any fun q => q.client == 1 && q.source == n then modComp (fun c => { c with waiting := c.waiting ++ [j] }) s
  else postJob j s

/-- A job leaves the queue with its completion record; the next waiting frame of a link seam takes its place (R252, R256). -/
def endJob (status : Nat) (j : CompJob) (s : State) : State :=
  let r := completion status j
  let t := modComp (fun c => { c with
    queue := c.queue.filter fun q => q.id != j.id
    adits := if j.client = 0 then modAt c.adits j.source fun a => { a with record := r } else c.adits
    linkRecords := if j.client = 0 then c.linkRecords else modAt c.linkRecords j.source fun _ => r }) s
  if j.client = 0 then t
  else match t.comp.waiting.find? fun q => q.source == j.source with
    | some q => postJob q (modComp (fun c => { c with waiting := c.waiting.eraseP fun x => x.source == j.source }) t)
    | none => t

/-- The recorder lets go of an adit's buffer. -/
def releaseAdit (a : Nat) (s : State) : State :=
  modCap (fun c => { c with adits := modAt c.adits a (holdOut .compressor none) }) s

/-- A job completes with status 2 or 3 and nothing of its frame is kept: the descriptor is invalid (R257), or no engine is in
service (R250). [DEDUCED, log 43] -/
def jobFailed (status : Nat) (j : CompJob) (s : State) : State :=
  let t := endJob status j s
  if j.client = 1 then loseLinkFrame j.source t
  else
    let t := modRec (fun r => { r with missed := wrapInc 32 r.missed }) (releaseAdit j.source t)
    match recFor 0 j.source t with
    | some k => modRecStream k (fun y => { y with part := [], stageUsed := y.stageUsed - y.part.length }) t
    | none => t

/-- BLOCK_DEAL (R253, R257): the next block of the first job with blocks left goes to the first free engine; a job whose turn
comes with an invalid descriptor completes without coding. -/
def execBlockDeal (s : State) : Res :=
  .next (if !compOn s then s else
    match s.comp.engines.findIdx? fun e => !e.out && e.blk.isNone,
          s.comp.queue.find? fun j => !descOk j || !j.again.isEmpty || decide (j.next < jobBlocks j) with
    | some e, some j =>
      if !descOk j then jobFailed 2 j s
      else
      let i := j.again.headD j.next
      let j' := if j.again.isEmpty then { j with next := j.next + 1 } else { j with again := j.again.drop 1 }
      modComp (fun c => { c with
        engines := modAt c.engines e fun x => { x with blk := some (j.id, i) }
        queue := c.queue.map fun q => if q.id = j.id then j' else q }) s
    | _, _ => s)

/-- A job completes with status 0 (R256, R261): the recorder gets the unit, a head's links the frame. -/
def jobDone (j : CompJob) (s : State) : State :=
  let t := endJob 0 j s
  if j.client = 1 then
    pushFrame j.source { header := { j.header with compressed := true }, record := j.record, data := j.output } t
  else
    let w := planeW j.plane
    let h := j.plane.length
    let inB := ceilDiv (w * h * j.b) 8
    let outB := j.lens.sum
    let t := modComp (fun c => { c with adits := modAt c.adits j.source fun a =>
      { inBytes := a.inBytes + inB, outBytes := a.outBytes + outB, frames := wrapInc 32 a.frames
        ratio := if inB = 0 then 0 else min (2 ^ 32 - 1) ((outB * 131072 + inB) / (2 * inB)), record := a.record } })
      (releaseAdit j.source t)
    let t := match recFor 0 j.source t with
      | some k =>
        let x := recStream k t
        let size := stageBytes k (worstFrame w h j.b) t
        let u : RecUnit :=
          { num := j.header.num, epoch := j.header.epoch, flags := tableFlags j.header false, time := j.header.exp, idr := false
            bytes := x.part ++ j.output, stage := (x.part ++ j.output).length
            list := if j.listAddr = 0 then [] else frameList j.header.num j.header.epoch w h j.b j.mode j.kcode j.phase j.lens }
        offerUnit k u (modRecStream k (fun y => { y with
          part := [], stageUsed := y.stageUsed + j.output.length, stageAt := if size = 0 then 0 else (y.stageAt + j.output.length) % size }) t)
      | none => t
    takeAdit j.source t

/-- A job stops on output space (R258): the recorder resumes it at the ring's start (R259, R323). [DEDUCED, log 43] -/
def jobStopped (j : CompJob) (s : State) : State :=
  let t := modComp (fun c => { c with stopped := wrapInc 32 c.stopped }) (endJob 1 j s)
  match recFor 0 j.source t with
  | some k =>
    let size := stageBytes k (worstFrame (planeW j.plane) j.plane.length j.b) t
    let t := modRecStream k (fun y => { y with
      part := y.part ++ j.output, stageUsed := y.stageUsed + j.output.length, stageAt := 0 }) t
    postJob { j with
      start := j.writes, space := size, outAddr := stagePlace k t, next := j.writes, again := [], ready := [], output := []
      rawSize := 0, rawMis := 0 } t
  | none => releaseAdit j.source t

/-- Whether a written block is a raw-copy, because of its size or (`esc`) of a mismatch (R236). -/
def rawCopy (esc : Bool) (b : List Byte) : Bool := bits (fieldAt b 0 4) 23 22 == 2 && (bits (fieldAt b 0 4) 18 18 == 1) == esc

/-- The output stage writes verified blocks in order, at most `n` of them (R254, R258). -/
def writeReady : Nat → Nat → State → State
  | 0, _, s => s
  | n + 1, id, s =>
    match s.comp.queue.find? fun q => q.id == id with
    | none => s
    | some j =>
      if j.writes = jobBlocks j then jobDone j s
      else match j.ready.lookup j.writes with
      | none => s
      | some b =>
        if j.space < j.output.length + b.length then jobStopped j s
        else
          let j' := { j with
            writes := j.writes + 1, output := j.output ++ b, lens := j.lens ++ [b.length]
            ready := j.ready.filter fun r => r.1 != j.writes
            rawSize := j.rawSize + b2n (rawCopy false b), rawMis := j.rawMis + b2n (rawCopy true b) }
          writeReady n id (modComp (fun c => { c with
            emitted := wrapInc 64 c.emitted, queue := c.queue.map fun q => if q.id = id then j' else q }) s)

/-- A verified block of a job is ready for its turn. -/
def blockReady (id i : Nat) (b : List Byte) (bySize byMis : Bool) (s : State) : State :=
  let t := modComp (fun c => { c with
    rawSize := if bySize then wrapInc 32 c.rawSize else c.rawSize, rawMis := if byMis then wrapInc 32 c.rawMis else c.rawMis
    queue := c.queue.map fun q => if q.id = id then { q with ready := q.ready ++ [(i, b)] } else q }) s
  match t.comp.queue.find? fun q => q.id == id with
  | some j => writeReady (jobBlocks j + 1) id t
  | none => t

/-- Every job, queued or waiting, completes with status 3 (R250). -/
def abortJobs (s : State) : State :=
  let w := s.comp.waiting
  let t := modComp (fun c => { c with waiting := [] }) s
  w.foldl (fun u q => loseLinkFrame q.source u) (t.comp.queue.foldl (fun u q => jobFailed 3 q u) t)

/-- An engine takes itself out of service: its block is coded again by the other one, and with no engine left every job is
aborted (R250). -/
def engineOut (e : Nat) (s : State) : State :=
  let back := fun (q : CompJob) => match (s.comp.engines.getD e {}).blk with
    | some (id, i) => if q.id = id then { q with again := q.again ++ [i] } else q
    | none => q
  let t := modComp (fun c => { c with engines := modAt c.engines e fun _ => { out := true, blk := none }, queue := c.queue.map back }) s
  if t.comp.engines.all fun x => x.out then abortJobs t else t

/-- BLOCK_DONE (R248 to R251): the engine's verifier decodes what it is about to emit and compares; `faults` are the bits a
hardware fault made wrong in its attempts. [DESIGN CHOICE, log 111] -/
def execBlockDone (e : Nat) (faults : List (List Nat)) (s : State) : Res :=
  .next (match (s.comp.engines.getD e {}).blk with
  | none => s
  | some (id, i) =>
    let t := modComp (fun c => { c with engines := modAt c.engines e fun x => { x with blk := none } }) s
    match t.comp.queue.find? fun q => q.id == id with
    | none => t
    | some j =>
      let info := jobInfo j i
      let blk := blockOf (planeW j.plane) j.plane.length j.plane i
      let long := tooLong info blk
      let v := verdict info blk faults
      match v.1 with
      | .match_ => blockReady id i v.2 long false t
      | .codedMismatch => blockReady id i v.2 false true (raise 1 0x0702 e [] t)
      | .rawMismatchTwice =>
        let last := s.comp.engines.zipIdx.all fun x => x.2 == e || x.1.out
        engineOut e (raise (if last then 2 else 1) 0x0703 e [] (if long then s else raise 1 0x0702 e [] s)))

/-! ### Checks and messages (R230, R231, R265) -/

/-- Whether an adit can be compressed (R230, R231): `w` by `h` samples at its point. -/
def compOk (words : Words) (a w h point : Nat) : Bool :=
  !F.CMP_ENABLE.on a words || (F.ADIT_ENABLE.on a words && decide (point ≤ 3) && decide (8192 ≤ w * h))

/-- Message 0x0700: compressor status. -/
def compressorStatusMsg : MsgDef :=
  { blk := .compressor, status := true,
    act := fun _ _ s =>
      let c := s.comp
      let st := fun (e : Nat) => let x := c.engines.getD e {}; if x.out then 2 else if x.blk.isSome then 1 else 0
      (.accept ([st 0 + st 1 * 4 + c.queue.length % 32 * 2 ^ 8] ++ loWords 2 c.emitted ++
        [c.rawSize, c.rawMis, c.stopped, c.rejected]), s) }

/-- Message 0x0708 + n: adit compression status. -/
def aditCompressionMsg (n : Nat) : MsgDef :=
  { blk := .compressor, status := true,
    act := fun _ _ s =>
      let a := s.comp.adits.getD n {}
      let w := (seamOf (cfgN F.ADIT_SEAM n s) s).committed
      (.accept ([b2n (cfgB F.CMP_ENABLE n s) + F.CMP_MODE.get n w * 2 + F.CMP_KCODE.get n w * 4] ++
        loWords 2 a.inBytes ++ loWords 2 a.outBytes ++ [a.frames, a.ratio % 2 ^ 32]), s) }

end Sys2Proof.Machine
end

