-- ==== Sys2Proof/Machine/Rates.lean ====
section
/-! DEFINITION. The rates of planes, taps, streams and record streams that admission and the pre-roll rings use (R43 to
R45, R49 to R52, R322). -/

namespace Sys2Proof.Machine

/-- Samples per second of a plane of `n` samples at a seam's rate, rounded up (R43, R44). -/
def planeRate (w : Words) (seam n : Nat) : Nat := ceilDiv (n * F.SEAM_GEOM_FPS_NUM.get seam w) (F.SEAM_GEOM_FPS_DEN.get seam w)

/-- Ingest rate of a seam (R44). -/
def ingestRate (w : Words) (n : Nat) : Nat := planeRate w n (seamW w n * seamH w n)

/-- Units of a seam's frame and its processed samples per second (R43). -/
def procRate (role : Role) (w : Words) (n : Nat) : Nat × Nat :=
  let k := if stripeMode role w n then ceilDiv (seamH w n) (stripeLines w n) else 1
  let extra := if stripeMode role w n then 16 * k else 0
  (planeRate w n k, planeRate w n (seamW w n * (seamH w n + extra)))

/-- Width, height and bit depth of what an adit stores (R192, R193). -/
def aditDims (w : Words) (a : Nat) : Nat × Nat × Nat :=
  let n := F.ADIT_SEAM.get a w
  let pt := F.ADIT_POINT.get a w
  let b := if pt = 0 then depthBits (F.SEAM_SRC_DEPTH.get n w) else F.ADIT_DEPTH.get a w
  if pt ≤ 1 then (seamW w n, seamH w n, b) else (activeW n w (seamW w n), activeH n w, b)

/-- Samples per second of an adit's plane. -/
def aditRate (w : Words) (a : Nat) : Nat :=
  let d := aditDims w a
  planeRate w (F.ADIT_SEAM.get a w) (d.1 * d.2.1)

/-- R45 for a plane of `n` samples of `b` bits at a seam's rate: bytes per second. [DEDUCED, log 15] -/
def worstRate (w : Words) (seam n b : Nat) : Nat := ceilDiv (planeRate w seam n * (1024 * b + 16)) 8192

/-- R45 for an adit's compression. [DEDUCED, log 15] -/
def aditWorst (w : Words) (a : Nat) : Nat :=
  let d := aditDims w a
  worstRate w (F.ADIT_SEAM.get a w) (d.1 * d.2.1) d.2.2

/-- Bytes per second that a tap writes (R44). -/
def tapRate (w : Words) (t : Nat) : Nat :=
  let x := planeRate w (F.TAP_SRC_SEAM.get t w) (F.TAP_SRC_OUT_W.get t w * F.TAP_SRC_OUT_H.get t w)
  match F.TAP_SRC_FORMAT.get t w with
  | 0 => x * 6
  | 1 => x * 4
  | _ => x * 3

/-- Frame rate of a codec stream: numerator and denominator (R268). -/
def codecFps (w : Words) (m : Nat) : Nat × Nat :=
  if F.CODEC_STRM_DIR.on m w then (F.CODEC_PIC_DEC_FPS_NUM.get m w, F.CODEC_PIC_DEC_FPS_DEN.get m w)
  else
    let x := encSourceOf w m
    (x.2.2.1, x.2.2.2.1 * F.CODEC_PIC_FRAME_DIV.get m w)

/-- Luma positions per second of a codec stream (R49). -/
def codecPix (w : Words) (m : Nat) : Nat :=
  let f := codecFps w m
  ceilDiv (F.CODEC_PIC_OUT_W.get m w * F.CODEC_PIC_OUT_H.get m w * f.1) f.2

/-- The worst-case rate of a record stream (R52). -/
def recRate (w : Words) (j : Nat) : Nat :=
  let src := F.REC_SOURCE.get j w
  match F.REC_KIND.get j w with
  | 0 => aditWorst w src
  | 1 => ceilDiv (F.CODEC_STRM_MAX_BPS.get src w) 8
  | _ => F.REC_RATE.get j w

/-- The pre-roll ring of a record stream in bytes (R322). -/
def prerollBytes (w : Words) (j : Nat) : Nat := ceilDiv (recRate w j * F.REC_PREROLL_MS.get j w) 1000

/-- The seam whose frames a record stream carries; none for audio. -/
def recSeam (w : Words) (j : Nat) : Option Nat :=
  let src := F.REC_SOURCE.get j w
  match F.REC_KIND.get j w with
  | 0 => some (F.ADIT_SEAM.get src w)
  | 1 => if F.CODEC_STRM_SRC_KIND.on src w then none else some (F.TAP_SRC_SEAM.get (F.CODEC_STRM_SRC_INDEX.get src w) w)
  | 3 => some src
  | _ => none

/-- The time from a unit's stamp to its end in 2^-16 ns: a frame period, or a block of 64 samples (R333, R337). -/
def unitSpan (w : Words) (j : Nat) : Nat :=
  match recSeam w j with
  | some n => periodNs w n * 65536
  | none => if F.REC_KIND.get j w = 2 then 64 * unitsPerSec / (48000 * 2 ^ F.AUD_RATE.get (F.REC_SOURCE.get j w) w)
            else ceilDiv (unitsPerSec * (codecFps w (F.REC_SOURCE.get j w)).2) (codecFps w (F.REC_SOURCE.get j w)).1

/-- The recorder checks of R318 over settings: sources and pre-roll. -/
def recChecks (w : Words) : List (Nat × Nat × List Nat) :=
  let act := (List.range 8).filter fun j => F.REC_ENABLE.on j w
  let ok := fun (j : Nat) =>
    let src := F.REC_SOURCE.get j w
    match F.REC_KIND.get j w with
    | 0 => decide (src < 4) && F.CMP_ENABLE.on src w && F.CMP_FRAME_LIST.on src w && F.ADIT_ENABLE.on src w
    | 1 => decide (src < 8) && F.CODEC_STRM_ENABLE.on src w && !F.CODEC_STRM_DIR.on src w
    | 2 => decide (src < 8) && F.AUD_ENABLE.on src w && !F.AUD_DIR.on src w
    | 3 => seamActive w src
    | _ => false
  let bad := act.filter fun j => !ok j || act.any fun i => i != j && F.REC_KIND.get i w == F.REC_KIND.get j w &&
    F.REC_SOURCE.get i w == F.REC_SOURCE.get j w
  bad.map (fun j => (0x0901, j, [])) ++
    (if 48 * 2 ^ 30 < (act.map (prerollBytes w)).sum then [(0x0901, noInst, [])] else [])

end Sys2Proof.Machine
end

