-- ==== Sys2Proof/Machine/Recorder.lean ====
section
/-! DEFINITION. The recorder: chains, units, commands to the SSDs, durability points, clips, playback, takeover, and the
messages of chapter 9 (R317 to R359, R746 to R751). -/

namespace Sys2Proof.Machine

/-! ### Allocation (R329 to R331) -/

/-- Slots of a member that are not free: mapped, or freed and not yet deallocated. -/
def usedSlots (m : Nat) (s : State) : List Nat :=
  let r := s.rcd
  let port := r.members.getD m 0
  ((r.map.filter fun e => e.2.ssd == m).map fun e => e.2.slot) ++
    ((r.freeing ++ r.freed).filter fun f => f.2.1 == m).map (·.2.2) ++
    (ssdOf port s).cmds.flatMap fun c => match c.op with
      | .dealloc l => l
      | _ => []

/-- The lowest free slot of a member. -/
def freeSlot (m : Nat) (s : State) : Option Nat :=
  let k := firstGap 0 ((usedSlots m s).mergeSort fun a b => decide (a ≤ b))
  if k < s.rcd.slotCount.getD m 0 then some k else none

/-- The lowest Free volume granule. -/
def freeGran (s : State) : Option Nat :=
  let v := firstGap (volV0 s.rcd.granule) (s.rcd.map.map (·.1))
  if v < s.rcd.vgCount then some v else none

/-- Marks a granule changed since the last record. -/
def markChanged (v : Nat) (s : State) : State :=
  modRec (fun r => { r with changed := if r.changed.contains v then r.changed else r.changed ++ [v] }) s

/-- Marks a granule whose entry an allocation changes, for the next state copy as well (R352). -/
def markAlloc (v : Nat) (s : State) : State :=
  modRec (fun r => { r with allocNew := r.allocNew.filter (fun x => x != v) ++ [v] }) (markChanged v s)

/-- A chain takes its next granule (R330): none when the volume is full. -/
def takeGran (clip : Nat) (c : Chain) (s : State) : Option (Chain × State) :=
  let n := s.rcd.members.length
  match freeGran s, ((List.range n).map fun k => (c.next + k) % n).findSome? fun m => (freeSlot m s).map fun k => (m, k) with
  | some v, some (m, k) =>
    let s := walk true (c.grans.getLast?.toList ++ [v]) s
    let map := setEntry v ⟨1, m, k, noGran, clip⟩ s.rcd.map
    let t := markAlloc v (modRec (fun r => { r with map := map }) s)
    let t := match c.grans.getLast? with
      | some p => match t.rcd.map.lookup p with
        | some e => markAlloc p (modRec (fun r => { r with map := setEntry p { e with next := v } r.map }) t)
        | none => t
      | none => t
    some ({ c with grans := c.grans ++ [v], next := (m + 1) % n }, t)
  | _, _ => none

/-- Extends a chain until it spans a length, by at most `k` granules. -/
def growChain : Nat → Nat → Nat → Chain → State → Option (Chain × State)
  | 0, _, _, c, s => some (c, s)
  | k + 1, clip, len, c, s =>
    if len ≤ c.grans.length * volG s then some (c, s)
    else (takeGran clip c s).bind fun p => growChain k clip len p.1 p.2

/-- The pieces of a write: root port, slot, offset in the slot, bytes; split at granule boundaries and MDTS (R340). -/
def ssdPieces : Nat → List Nat → Nat → List Byte → State → List (Nat × Nat × Nat × List Byte)
  | 0, _, _, _, _ => []
  | k + 1, grans, o, l, s =>
    if l.isEmpty then [] else
    match s.rcd.map.lookup (grans.getD (o / volG s) noGran) with
    | none => []
    | some e =>
      let port := s.rcd.members.getD e.ssd 0
      let n := max 1 (min (volG s - o % volG s) (ssdOf port s).mdts)
      (port, e.slot, o % volG s, l.take n) :: ssdPieces k grans (o + n) (l.drop n) s

/-- Appends bytes to a chain: the chain, the pieces to write and the state; none when the volume is full. -/
def appendChain (clip : Nat) (l : List Byte) (c : Chain) (s : State) :
    Option (Chain × List (Nat × Nat × Nat × List Byte) × State) :=
  (growChain (l.length / volG s + 2) clip (c.bytes + l.length) c s).map fun p =>
    let vs := if l.isEmpty then [] else (p.1.grans.take ((c.bytes + l.length - 1) / volG s + 1)).drop (c.bytes / volG s)
    ({ p.1 with bytes := c.bytes + l.length }, ssdPieces (l.length + 1) p.1.grans c.bytes l p.2, walk false vs p.2)

/-! ### Clips -/

/-- A stream descriptor (R334) at a position. -/
def descriptor (w : Words) (j : Nat) (x : RecStream) (p : RecPos) : List Byte :=
  let c := fun (l : List Nat) => leBytes 4 (l.getD 0 noGran)
  let e := fun (l : List Nat) => leBytes 4 (l.getLast?.getD noGran)
  leBytes 4 (2 ^ 31 + F.REC_KIND.get j w * 2 ^ 28 + F.REC_SOURCE.get j w % 8 * 2 ^ 24) ++ c x.data.grans ++ c x.table.grans ++
    c x.list.grans ++ leBytes 8 p.dataBytes ++ leBytes 8 p.frames ++ leBytes 8 p.listBytes ++ leBytes 8 (x.first.getD 0) ++
    e x.data.grans ++ e x.table.grans ++ e x.list.grans ++ leBytes 4 0

/-- The directory entry of the clip in recording (R333) with its streams at given positions. -/
def clipEntry (c : Clip) (st : Nat) (ps : List RecPos) (dig : Nat) (s : State) : List Byte :=
  let w := s.cfg.accepted
  let ds := (List.range 8).flatMap fun j =>
    if F.REC_ENABLE.on j w then descriptor w j (recStream j s) (ps.getD j {})
    else List.replicate 4 0 ++ (List.replicate 3 (leBytes 4 noGran)).flatten ++ List.replicate 32 0 ++
      (List.replicate 3 (leBytes 4 noGran)).flatten ++ List.replicate 4 0
  sealDir (leBytes 4 0x4C435652 ++ leBytes 4 (st * 2 ^ 30 + c.num) ++ leBytes 16 (todPack c.start) ++
    leBytes 16 (if st = 1 then 0 else todPack c.lastEnd) ++ leBytes 4 c.epoch ++ leBytes 4 (c.dig.grans.headD noGran) ++
    leBytes 8 dig ++ leBytes 4 (c.dig.grans.getLast?.getD noGran) ++ leBytes 4 (b2n (!c.key.isEmpty)) ++ ds ++
    padTo 444 c.keyBlock)

/-- Places the directory entry of a clip, to be journaled and checkpointed. -/
def putClip (n : Nat) (l : List Byte) (s : State) : State :=
  modRec (fun r => { r with
    dir := setDir n l r.dir
    clipsChanged := if r.clipsChanged.contains n then r.clipsChanged else r.clipsChanged ++ [n]
    clipsSince := if r.clipsSince.contains n then r.clipsSince else r.clipsSince ++ [n] }) s

/-- Units of a stream that are not durable: written after its durable position, in flight, or completed and waiting (R350). -/
def notDurable (x : RecStream) : Nat :=
  x.written.frames - x.durable.frames + x.flights.length + x.ready.length + x.held.toList.length

/-- Staging bytes that the units of a stream hold which have not been written. -/
def stageHeld (x : RecStream) : Nat := (x.flights.map (·.stage)).sum + ((x.ready ++ x.held.toList).map (·.stage)).sum

/-- The clip closes or is truncated after its final durability point; its key is discarded and units that did not become
durable are lost and counted (R350, R747). -/
def closeClip (s : State) : State :=
  match s.rcd.clip with
  | none => s
  | some c =>
    let lost := (s.rcd.streams.map notDurable).sum
    let st := if c.ending = some false then 2 else 3
    let t := putClip c.num (clipEntry c st (s.rcd.streams.map (·.durable)) c.digDurable s) s
    modRec (fun r => { r with
      clip := none, missed := (r.missed + lost) % 2 ^ 32
      streams := r.streams.map fun x => { x with
        ready := [], flights := [], data := {}, table := {}, list := {}, frames := 0, first := none, open_ := false, held := none
        written := {}, durable := {}, stageUsed := x.stageUsed - stageHeld x } }) t

/-- Whether every unit taken has finished its writes, or failed in them. [DEDUCED, log 46] -/
def drained (s : State) : Bool :=
  s.rcd.streams.all fun x => x.ready.isEmpty && x.flights.all fun f => f.left == 0

/-- A durability point begins (R344 steps 1 and 2), or is due when the running one ends. -/
def beginPoint (s : State) : State :=
  if s.rcd.phase ≠ .idle then modRec (fun r => { r with pointDue := true }) s
  else if s.rcd.members.isEmpty || !membersOk s then s
  else
    sendAll (fun _ => .flush) (modRec (fun r => { r with
      phase := .flushing, waiting := r.members.length, phaseFrom := r.nextCmd, pointTod := nowTod s, taken := r.streams.map (·.written)
      takenDig := (r.clip.map fun c => ((c.digOpen.map (·.2)).foldl min c.dig.bytes)).getD 0
      clip := r.clip.map fun c => { c with final := c.ending.isSome && drained s } }) s)

/-- A clip that is ending and has finished its writes makes its final durability point, or closes without one when the
members do not allow it (R321, R350). [DEDUCED, log 46] -/
def maybeEnd (s : State) : State :=
  match s.rcd.clip with
  | some c =>
    if c.ending.isSome && !c.final && drained s then
      (if membersOk s then beginPoint s
       else closeClip (modRec (fun r => { r with clip := r.clip.map fun k => { k with ending := some true } }) s))
    else match s.rcd.resuming with
      | some k => if s.rcd.streams.all fun x => x.flights.all fun f => decide (k ≤ f.id) || f.left == 0 then
          beginPoint (modRec (fun r => { r with resuming := none }) s) else s
      | none => s
  | none => s

/-- Recording stops: no further unit is accepted, and the clip is to be closed or truncated (R350). [DEDUCED, log 46] -/
def stopClip (trunc : Bool) (s : State) : State :=
  match s.rcd.clip with
  | none => s
  | some c =>
    let waiting := (s.rcd.streams.map fun x => x.ready.length + x.held.toList.length).sum
    maybeEnd (modRec (fun r => { r with
      clip := some { c with ending := some trunc, final := false }, missed := (r.missed + waiting) % 2 ^ 32
      streams := r.streams.map fun x => { x with
        ready := [], held := none, stageUsed := x.stageUsed - ((x.ready ++ x.held.toList).map (·.stage)).sum } }) s)

/-- A clip whose final durability point the members do not allow is truncated at its durable positions (R350). -/
def cutFinal (s : State) : State :=
  closeClip (modRec (fun r => { r with clip := r.clip.map fun k => { k with ending := some true } }) s)

/-- Recording stops and the volume is read-only until the next role start (R342, R350); an error in the clip's final point leaves
it without one. -/
def recHalt (s : State) : State :=
  let t := modRec (fun r => { r with
    volume := min 1 r.volume, stuck := true, phase := .idle, pointDue := false, resuming := none, phaseFrom := r.nextCmd }) (noticeReadOnly s)
  let stopped := t.rcd.clip.isSome
  let t := if (t.rcd.clip.map (·.final)) == some true then cutFinal t else stopClip true t
  if stopped then declareFailure t else t

/-- A failed member, or a write or Flush that ended in error (R342); errors that follow on a volume already stopped change
nothing more. -/
def recFail (port : Nat) (s : State) : State :=
  if s.rcd.stuck then (if (s.rcd.clip.map (·.final)) == some true && s.rcd.phase != .idle then
      cutFinal (modRec (fun r => { r with phase := .idle, pointDue := false, phaseFrom := r.nextCmd }) s) else maybeEnd s)
  else recHalt (raise 2 0x0904 port [] s)

/-- The volume is full (R331). -/
def recFull (s : State) : State :=
  stopClip true (modRec (fun r => { r with missed := wrapInc 32 r.missed }) (raise 2 0x0905 noInst [] s))

/-! ### Units (R335 to R339, R748) -/

/-- Frees staging of a Forurn unit. -/
def freeStage (j n : Nat) (s : State) : State := modRecStream j (fun x => { x with stageUsed := x.stageUsed - n }) s

/-- The IV of a unit (R748). [DEDUCED, log 46] -/
def unitIv (j num : Nat) (s : State) : List Byte :=
  leBytes 1 j ++ leBytes 2 (if redOn s then s.red.eb else 0) ++ [0] ++ leBytes 8 num

/-- A unit's stored bytes (R748). -/
def storedBytes (c : Clip) (j : Nat) (u : RecUnit) (s : State) : List Byte :=
  if c.key.isEmpty then u.bytes
  else
    let e := aesGcm c.key (unitIv j u.num s) (s.rcd.volumeId ++ leBytes 4 c.num) u.bytes
    e.1 ++ e.2

/-- Sends the pieces of a flight. -/
def sendPieces (j flight : Nat) (ps : List (Nat × Nat × Nat × List Byte)) (s : State) : State :=
  ps.foldl (fun t p => sendSsd p.1 (j + 1) (.unit j flight p.2.1 p.2.2.1 p.2.2.2) t) s

/-- The units after the written position that the standby knows (R354). -/
def spanOf (j : Nat) (s : State) : Nat :=
  let x := recStream j s
  let known := match s.red.copy with
    | some k => if redOn s && k.clip == s.rcd.clip.map (·.num) then (k.positions.getD j ⟨0, 0, 0, 0, []⟩).frames else x.written.frames
    | none => x.written.frames
  x.frames - known

/-- A unit of the clip is written (R335 to R337, R339, R340). -/
def writeUnit (c : Clip) (j : Nat) (u : RecUnit) (s : State) : State :=
  let x := recStream j s
  let data := storedBytes c j u s
  let flags := u.flags + (if c.key.isEmpty || !redOn s then 0 else s.red.eb % 65536 * 2 ^ 16)
  let entry := leBytes 8 u.num ++ leBytes 4 u.epoch ++ leBytes 4 flags ++ leBytes 8 x.data.bytes ++ leBytes 4 data.length ++
    leBytes 4 (x.list.bytes / 4)
  let dig := leBytes 8 u.num ++ leBytes 4 u.epoch ++ leBytes 4 j ++ leBytes 8 x.data.bytes ++ leBytes 8 data.length ++ sha256 data
  let n := s.rcd.members.length
  let at0 := fun (k : Chain) => if k.grans.isEmpty then { k with next := j % max 1 n } else k
  let r := do
    let a ← appendChain c.num data (at0 x.data) s
    let b ← appendChain c.num entry (at0 x.table) a.2.2
    let l ← appendChain c.num u.list (at0 x.list) b.2.2
    pure (a.1, b.1, l.1, a.2.1 ++ b.2.1 ++ l.2.1, l.2.2)
  match r with
  | none => freeStage j u.stage (recFull s)
  | some (a, b, l, ps, t) =>
    let id := t.rcd.nextFlight
    let unitEnd := max (todUnits c.lastEnd) (todUnits u.time + unitSpan s.cfg.accepted j)
    let f : Flight :=
      { id := id, pos := ⟨x.frames + 1, a.bytes, l.bytes, u.num⟩, entry := dig, left := ps.length, stage := u.stage }
    let t := modRecStream j (fun y => { y with
      data := a, table := b, list := l, frames := y.frames + 1, first := some (y.first.getD u.num)
      flights := y.flights ++ [f] }) (modRec (fun r => { r with
        nextFlight := id + 1
        clip := (t.rcd.clip.map fun k => { k with lastEnd := todOfUnits (unitEnd : Nat) }) }) t)
    let t := sendPieces j id ps t
    modRec (fun r => { r with span := max r.span (spanOf j t) }) t

/-- Whether a unit lies in the range of a clip (R320, R321). -/
def inClip (c : Clip) (j : Nat) (u : RecUnit) (s : State) : Bool :=
  let t := todUnits u.time
  decide (todUnits c.start ≤ t + cfgN F.REC_PREROLL_MS j s * 65536000000) &&
  (match c.stop with
   | some e => decide (t < todUnits e)
   | none => true)

/-- The leading units of a list, newest first, within a number of bytes. [DEDUCED, log 46] -/
def fitUnits : Nat → List RecUnit → List RecUnit
  | _, [] => []
  | size, u :: r => if u.bytes.length ≤ size then u :: fitUnits (size - u.bytes.length) r else []

/-- Keeps the newest units of a list within a number of bytes (R322). [DEDUCED, log 46] -/
def trimUnits (size : Nat) (l : List RecUnit) : List RecUnit := (fitUnits size l.reverse).reverse

/-- A standby keeps a stream's four most recent units, and notes those that leave the ring while the latest copy's written position
does not cover them (R354, R570). -/
def keepFour (j : Nat) (u : RecUnit) (s : State) : State :=
  let p := (s.red.copy.bind fun k => k.positions[j]?).getD ⟨0, 0, 0, 0, []⟩
  modRecStream j (fun x =>
    let l := x.ring4 ++ [u]
    let gone := l.take (l.length - 4)
    { x with
      ring4 := l.drop (l.length - 4)
      passed := (x.passed ++ gone.map fun v => (v.num, v.time)).filter fun v => decide (p.frames = 0 ∨ p.unit < v.1) }) s

/-- The oldest completed unit of a stream is taken: recorded, kept for pre-roll or for a takeover, or let go (R321, R322, R570). -/
def takeUnit (j : Nat) (s : State) : State :=
  match (recStream j s).ready with
  | [] => s
  | u :: rest =>
    let t := modRecStream j (fun x => { x with ready := rest }) s
    let free := freeStage j u.stage
    let v := { u with stage := 0 }
    if redOn s && !actsPrimary s then free (keepFour j v t)
    else match s.rcd.clip with
    | none =>
      let size := prerollBytes s.cfg.accepted j
      if size = 0 then free t
      else free (modRecStream j (fun x => { x with preroll := trimUnits size (x.preroll ++ [v]) }) t)
    | some c =>
      let opens := cfgN F.REC_KIND j s != 1 || u.idr || (recStream j s).open_
      if c.ending.isSome || !inClip c j u s || !opens then free t
      else writeUnit c j u (modRecStream j (fun x => { x with open_ := true }) t)

/-- A flight's digest entry is appended when its data, table and list are written (R339). -/
def appendDigest (j : Nat) (f : Flight) (s : State) : State :=
  match s.rcd.clip with
  | none => s
  | some c =>
    let d := sha256 (c.digest ++ f.entry)
    match appendChain c.num (f.entry ++ d) c.dig s with
    | none => recFull (modRecStream j (fun x => { x with
        flights := x.flights.map fun g => if g.id = f.id then { g with bad := true } else g }) s)
    | some (k, ps, t) =>
      let t := modRec (fun r => { r with
        clip := some { c with dig := k, digest := d, digOpen := c.digOpen ++ [(f.id, c.dig.bytes)], digMarks := (k.bytes, d) :: c.digMarks } }) t
      sendPieces j f.id ps (modRecStream j (fun x => { x with
        flights := x.flights.map fun g => if g.id = f.id then { g with entry := [], left := ps.length, digAt := some c.dig.bytes } else g }) t)

/-- Whether a flight is written (R343). -/
def flightDone (f : Flight) : Bool := f.left == 0 && f.entry.isEmpty && !f.bad

/-- The written position moves over the flights at the front that are written (R344 step 1). -/
def settleFlights (x : RecStream) : RecStream :=
  let d := x.flights.takeWhile flightDone
  { x with flights := x.flights.dropWhile flightDone, written := (d.getLast?.map (·.pos)).getD x.written
           stageUsed := x.stageUsed - (d.map (·.stage)).sum }

/-- The length of the digest chain at the written positions: every entry before it is of a unit they cover (R568). [DEDUCED, log 47] -/
def copiedDigest (r : Recorder) (c : Clip) : Nat := ((r.streams.flatMap fun x => x.flights.filterMap (·.digAt))).foldl min c.dig.bytes

/-- The marks beyond a length, and the last one within it. -/
def keepMarks (len : Nat) (l : List (Nat × List Byte)) : List (Nat × List Byte) :=
  l.takeWhile (fun e => decide (len < e.1)) ++ (l.dropWhile fun e => decide (len < e.1)).take 1

/-- The chain digest at a length. -/
def digestAt (len : Nat) (c : Clip) : List Byte := ((c.digMarks.find? fun e => decide (e.1 ≤ len)).map (·.2)).getD (List.replicate 32 0)

/-- One write of a flight has completed. -/
def flightWrite (j id : Nat) (ok : Bool) (s : State) : State :=
  let t := modRecStream j (fun x => { x with
    flights := x.flights.map fun f => if f.id = id then { f with left := f.left - 1, bad := f.bad || !ok } else f }) s
  match (recStream j t).flights.find? fun f => f.id == id with
  | none => t
  | some f =>
    if f.left ≠ 0 ∨ f.bad then maybeEnd t
    else if !f.entry.isEmpty then appendDigest j f t
    else
      let t := modRec (fun r => { r with clip := r.clip.map fun c => { c with digOpen := c.digOpen.filter fun o => o.1 != id } }) t
      let t := modRecStream j settleFlights t
      maybeEnd (modRec (fun r => { r with clip := r.clip.map fun c => { c with digMarks := keepMarks (copiedDigest r c) c.digMarks } }) t)

/-! ### Durability points (R344 to R347) -/

/-- Bytes in pieces of at most a member's MDTS, each with its offset (R340). -/
def mdtsPieces (d : Ssd) (off : Nat) (l : List Byte) : List (Nat × List Byte) :=
  (pieces (max 4096 d.mdts) l.length l).zipIdx.map fun p => (off + p.2 * max 4096 d.mdts, p.1)

/-- Sends the commands of a step of a durability point, and waits for them. -/
def pointStep (phase : DurPhase) (ops : Nat → Ssd → List SsdOp) (s : State) : State :=
  sendLists ops (modRec (fun r => { r with phase := phase, waiting := countLists ops s, phaseFrom := r.nextCmd }) s)

/-- Map changes that a journal record has room for beside `n` clip entries: it is at most 4 MiB (R345). -/
def jrnRoom (n : Nat) : Nat := (0x400000 - 0x44 - 1024 * n) / 12

/-- Step 3: the journal record, of at most 4 MiB. What finds no room waits for the next point, which is then due; allocations go
first, and the stream positions move only when every one of them has found room (R343 to R346). -/
def writeJournal (s : State) : State :=
  let r := s.rcd
  let own := r.clip.toList.map (·.num)
  let names := (own ++ r.clipsChanged.filter fun n => !own.contains n).take 4095
  let alloc := r.changed.filter fun v => ((r.map.lookup v).map fun e => e.state == 1).getD false
  let order := alloc ++ r.changed.filter fun v => !alloc.contains v
  let vs := order.take (jrnRoom names.length)
  let all := decide (alloc.length ≤ jrnRoom names.length)
  let changes := vs.map fun v => (v, ((r.map.lookup v).map fun e => mapEntryBits { e with state := 2 }).getD 0)
  let taken := if all then r.taken else r.streams.map (·.durable)
  let dig := if all then r.takenDig else (r.clip.map (·.digDurable)).getD 0
  let t := match r.clip with
    | some c => putClip c.num (clipEntry c 1 taken dig s) s
    | none => s
  let clips := names.map fun n => (t.rcd.dir.lookup n).getD (sealDir (leBytes 4 0x4C435652 ++ leBytes 4 n))
  let l := journalBytes (r.seq + 1) r.pointTod changes clips
  let off := jrnPlace r.jrnAt
  let more := decide (vs.length < order.length) || t.rcd.clipsChanged.any fun n => !names.contains n
  pointStep .journaling (fun _ d => (mdtsPieces d off l).map fun p => .journal p.1 p.2) (modRec (fun r => { r with
    taken := taken, takenDig := dig, journaled := vs, pointDue := r.pointDue || more
    freed := r.freeing.filter fun f => vs.contains f.1, freeing := r.freeing.filter fun f => !vs.contains f.1
    changed := r.changed.filter fun v => !vs.contains v, clipsChanged := r.clipsChanged.filter fun n => !names.contains n
    clip := if all then r.clip else r.clip.map fun c => { c with final := false }
    jrnNext := off + l.length, seq := r.seq + 1 }) t)

/-- The point has ended. -/
def finishPoint (s : State) : State :=
  let t := modRec (fun r => { r with phase := .idle, pointDue := false }) s
  if s.rcd.pointDue then beginPoint t else maybeEnd t

/-- Journal bytes after JRN_START (R347). -/
def jrnHeld (r : Recorder) : Nat := (r.jrnAt + jrnSize - r.jrnStart) % jrnSize

/-- Whether a host command still reads a slot of a member (R368). [DESIGN CHOICE, log 44] -/
def slotRead (s : State) (f : Nat × Nat × Nat) : Bool :=
  let base := 0x21000000 + f.2.2 * volG s
  (ssdOf (s.rcd.members.getD f.2.1 0) s).cmds.any fun c => match c.op with
    | .hostRead _ _ off len _ => decide (off < base + volG s ∧ base < off + len)
    | .playRead _ _ off len => decide (off < base + volG s ∧ base < off + len)
    | _ => false

/-- The map entries, stream positions and clip digests that a durable record covers. -/
def markDurable (s : State) : State :=
  let s := walk true (s.rcd.journaled.filter fun v => ((s.rcd.map.lookup v).map fun e => e.state == 1).getD false) s
  modRec (fun r => { r with
    map := r.map.map fun e => if r.journaled.contains e.1 && e.2.state == 1 then (e.1, { e.2 with state := 2 }) else e
    durableSeq := r.seq, jrnAt := r.jrnNext, journaled := []
    streams := if r.clip.isSome then r.streams.zipIdx.map fun x => { x.1 with durable := r.taken.getD x.2 {} } else r.streams
    clip := r.clip.map fun c => { c with digDurable := r.takenDig } }) s

/-- Freed slots that nothing reads are deallocated; the others wait (R346). -/
def deallocFreed (s : State) : State :=
  let busy := s.rcd.freed.filter (slotRead s)
  (s.rcd.members.zipIdx).foldl (fun u p =>
    let l := (s.rcd.freed.filter fun f => f.2.1 == p.2 && !slotRead s f).map (·.2.2)
    if l.isEmpty then u else sendSsd p.1 0 (.dealloc l) u) (modRec (fun r => { r with freed := [], freeing := busy ++ r.freeing }) s)

/-- A clip whose last durability point this was closes. -/
def closeFinal (s : State) : State :=
  match s.rcd.clip with
  | some c => if c.final then closeClip s else s
  | none => s

/-- The writes of a checkpoint to a member: the snapshot in pieces of at most MDTS, and the changed clip entries (R340, R347). -/
def checkpointOps (r : Recorder) (d : Ssd) : List SsdOp :=
  let k := max 4096 d.mdts / 8
  (List.range (ceilDiv 16777216 k)).map (fun i =>
    SsdOp.checkpoint (!r.active) (i * k) (i * k + k) (r.map.filter fun e => decide (i * k ≤ e.1 ∧ e.1 < i * k + k))) ++
    r.clipsSince.map fun n => .directory n ((r.dir.lookup n).getD (List.replicate 1024 0))

/-- A checkpoint of the volume begins (R347 steps 1 and 2). -/
def beginCheckpoint (s : State) : State :=
  let r := s.rcd
  pointStep .checkpointing (fun _ d => checkpointOps r d) (modRec (fun r => { r with
    chkDue := false, snapshot := r.map, clipsSince := [] }) s)

/-- Step 4: the record is durable on every member; freed slots are deallocated (R346) and an ending clip closes. When the journal
holds more than 128 MiB, the next point makes a checkpoint (R347). -/
def recordDurable (s : State) : State :=
  let t := closeFinal (deallocFreed (markDurable s))
  if t.rcd.chkDue then beginCheckpoint t
  else finishPoint (modRec (fun r => { r with chkDue := decide (0x8000000 < jrnHeld r) }) t)

/-- The superblock that names the new checkpoint (R347 step 4). -/
def writeSuper (s : State) : State :=
  let t := modRec (fun r => { r with
    phase := .superblock, waiting := r.members.length, phaseFrom := r.nextCmd, active := !r.active, sbSeq := r.sbSeq + 1, chkSeq := r.seq
    jrnStart := jrnPlace r.jrnAt }) s
  let r := t.rcd
  sendAll (fun k => .super (r.sbSeq % 2 == 1) (superBytes
    { code := r.granule, members := r.members.length, index := k, volumeId := r.volumeId, sbSeq := r.sbSeq
      active := r.active, chkCrc := chkCrc r.granule r.vgCount r.snapshot, chkSeq := r.chkSeq, jrnStart := r.jrnStart
      slots := r.slotCount.getD k 0, v0 := volV0 r.granule, sidecar := r.sidecar, vgCount := r.vgCount
      clipNext := r.clipNext })) t

/-- One command of the point's phase has completed on a member; one of a point that a failure ended counts for nothing. -/
def phaseStep (id : Nat) (s : State) : State :=
  if id < s.rcd.phaseFrom then s else
  let t := modRec (fun r => { r with waiting := r.waiting - 1 }) s
  if t.rcd.waiting ≠ 0 then t
  else match t.rcd.phase with
  | .flushing => writeJournal t
  | .journaling => recordDurable t
  | .checkpointing => pointStep .chkFlushing (fun _ _ => [.flush]) t
  | .chkFlushing => writeSuper t
  | .superblock => finishPoint t
  | .idle => t

/-- What an SSD holds after a command has completed. -/
def mediaAfter (op : SsdOp) (m : Media) : Media :=
  match op with
  | .unit _ _ slot off l => { m with slots := putKey slot (overlay ((m.slots.lookup slot).getD []) off l) m.slots }
  | .hostWrite _ slot off _ l => { m with slots := putKey slot (overlay ((m.slots.lookup slot).getD []) off l) m.slots }
  | .journal off l => { m with journal := putJournal off l m.journal }
  | .checkpoint b lo hi map =>
    let put := fun (old : LodeMap) => map.foldl (fun a e => putKey e.1 e.2 a) (old.filter fun e => decide (e.1 < lo ∨ hi ≤ e.1))
    if b then { m with chkB := put m.chkB } else { m with chkA := put m.chkA }
  | .directory n l => { m with dir := setDir n l m.dir }
  | .super b l => if b then { m with sb1 := l } else { m with sb0 := l }
  | .dealloc l => { m with slots := m.slots.filter fun e => !l.contains e.1 }
  | _ => m

/-- What an SSD holds after a command has failed: the range of a host's write is undefined (R382). [DESIGN CHOICE, log 48] -/
def mediaFailed (n : Nat) (op : SsdOp) (m : Media) : Media :=
  match op with
  | .hostWrite _ slot off _ l =>
    { m with slots := putKey slot (overlay ((m.slots.lookup slot).getD []) off ((List.range l.length).map (Config.failedByte n))) m.slots }
  | _ => m

/-- Whether the recorder's frames up to a TOD have all come: none is in the seam, the compressor or the encoder, and
two unit times have passed. -/
def sourceDone (t : Nat) (j : Nat) (s : State) : Bool :=
  let w := s.cfg.accepted
  let src := cfgN F.REC_SOURCE j s
  let before := fun (h : FrameHeader) => decide (todUnits h.exp < t)
  let seamIdle := match recSeam w j with
    | some n => !(seamOf n s).frames.any fun f => before f.header
    | none => true
  let coder := match cfgN F.REC_KIND j s with
    | 0 => !(s.comp.queue.any fun q => q.client == 0 && q.source == src && before q.header)
    | 1 =>
      let e := s.codec.enc.getD src {}
      !((e.input.map fun p => before p.header).getD false) && !((e.pic.map fun p => before p.header).getD false)
    | _ => true
  seamIdle && coder && decide (t + 2 * unitSpan w j ≤ todUnits (nowTod s))

/-- A record of a KIND 3 unit (R338). -/
def metaRecord (typ : Nat) (b : List Byte) : List Byte := leBytes 4 (typ * 65536 + (4 + b.length)) ++ b

/-- At record stop the seam of a metadata stream is signed, and the stream's last unit carries the signature (R549). -/
def signHeld (j : Nat) (s : State) : State :=
  match (recStream j s).held with
  | none => s
  | some u =>
    let n := cfgN F.REC_SOURCE j s
    let t := if recordsFor n s then signSeam n 8 false s else s
    let sig := match recordsFor n s, t.isl.ring with
      | true, .sign _ _ _ b :: _ => metaRecord 3 b
      | _, _ => []
    offerUnit j { u with bytes := u.bytes ++ sig } (modRecStream j (fun x => { x with held := none })
      { t with isl := { t.isl with metaRead := t.isl.metaRead.modify n fun _ => some t.isl.written } })

/-- A clip whose T_stop has passed and whose units have all come ends (R321); the metadata units held go first. [DEDUCED, log 46] -/
def checkStop (s : State) : State :=
  match s.rcd.clip with
  | some c =>
    match c.stop with
    | some e =>
      let act := (List.range 8).filter fun j => cfgB F.REC_ENABLE j s
      if c.ending.isNone && drained s && act.all fun j => sourceDone (todUnits e) j s then
        if s.rcd.streams.any fun x => x.held.isSome then (List.range 8).foldl (fun t j => signHeld j t) s else stopClip false s
      else s
    | none => s
  | none => s

/-- RECORD_UNIT_COMPLETE (R339): the oldest completed unit of a stream has been hashed by the engine that took it, which takes
the next unit (R746). -/
def execRecordUnitComplete (j : Nat) (s : State) : Res :=
  let t := dealUnits s
  .next (if !recOn s then s else if hashing j t then checkStop (dealUnits (takeUnit j t)) else checkStop t)

/-- DURABILITY_POINT (R344): a point is due. -/
def execDurabilityPoint (s : State) : Res :=
  .next (if recOn s && s.rcd.volume == 2 then beginPoint (checkStop s) else s)

/-! ### Playback (R356, R357) -/

/-- A read of a playback has ended: a unit that is whole goes to the decode stream's ring, the last one ends the input, and a read
that failed ends the playback (R356, R357). -/
def playRead (m : Nat) (ok : Bool) (dst : Nat) (l : List Byte) (s : State) : State :=
  let p := s.rcd.plays.getD m {}
  let s := modPlay m (fun x => { x with left := x.left - 1 }) s
  if p.state ≠ 1 then s
  else if !ok then
    raise 2 0x090B m [] (modPlay m (fun x => { x with state := 3, failures := wrapInc 32 x.failures, pieces := [], buf := none }) s)
  else match p.buf with
  | none => s
  | some b =>
    let b := overlay b dst l
    if !p.pieces.isEmpty ∨ 1 < p.left then playPump m (modPlay m (fun x => { x with buf := some b }) s)
    else
      let e := tableEntry p.table p.at_ s
      let last := p.at_ + 1 == p.entries
      let t := modPlay m (fun x => { x with
        at_ := x.at_ + 1, lastNum := fieldAt e 0 8, units := wrapInc 32 x.units, state := if last then 2 else 1, buf := none }) s
      playPump m (feedDecoder m b last t)

/-! ### Messages (R359) -/

/-- Message 0x0900: recorder status. -/
def recorderStatusMsg : MsgDef :=
  { blk := .recorder, status := true,
    act := fun _ _ s =>
      let r := s.rcd
      let free := r.vgCount - volV0 r.granule - r.map.length
      (.accept ([(if r.clip.isSome then 3 else r.volume) + (r.clip.map (·.num)).getD 0 * 4 + (r.members.length - 1) * 2 ^ 16] ++
        loWords 2 free ++ [r.durableSeq % 2 ^ 32, r.missed, r.span, r.lostUnits]), s) }

/-- The packed TOD operand in words `k` to `k + 2` (R12, R321). -/
def todWords (k : Nat) (r : Req) : Nat := r.w k + r.w (k + 1) * 2 ^ 32 + r.w (k + 2) % 2 ^ 30 * 2 ^ 64

/-- A TOD operand in words `k` to `k + 2` (R321): zero means now. -/
def todOperand (k : Nat) (r : Req) (s : State) : Tod :=
  if todWords k r = 0 then nowTod s else todUnpack (todWords k r)

/-- The recipient keys of SEC.RECIP_KEYS (R749, R752). -/
def recipKeys (s : State) : List (List Byte) :=
  let p := payload s.cfg.tables (cfgN F.SEC_RECIP_KEYS 0 s)
  (List.range (fieldAt p 0 4)).map fun i => slice p (4 + 64 * i) 64

/-- KEK of recipient `i` (R749). -/
def kekOf (z volumeId : List Byte) (clip i : Nat) : List Byte :=
  hkdf32 z (volumeId ++ leBytes 4 clip)
    ([71, 89, 49, 54, 48, 48, 32, 99, 108, 105, 112, 32, 107, 101, 121].map (BitVec.ofNat 8) ++ leBytes 1 i)

/-- The key-wrap block (R750) of a clip key under ephemeral key `d`. -/
def keyWrap (key : List Byte) (d : Nat) (volumeId : List Byte) (clip : Nat) (keys : List (List Byte)) : List Byte :=
  let head := leBytes 4 (1 + keys.length * 2 ^ 8) ++ publicKey d
  let rs := keys.zipIdx.flatMap fun k =>
    let e := aesGcm (kekOf (ecdhX d k.1) volumeId clip k.2) (List.replicate 12 0) head key
    (sha256 k.1).take 8 ++ e.1 ++ e.2
  padTo 444 (head ++ rs)

/-- The next clip number from CLIP_NEXT that is free. -/
def nextClip (s : State) : Option Nat :=
  ((List.range 4095).map fun k => (s.rcd.clipNext + k) % 4095).find? fun n => dirState s.rcd.dir n == 0

/-- The pre-roll units of a starting clip arrive at the SHA-256 engines before the live units (R322, R746). -/
def prerollUnits (c : Clip) (s : State) : State :=
  let pick := fun (x : RecStream × Nat) => x.1.preroll.filter fun u => inClip c x.2 u s
  let counts := s.rcd.streams.zipIdx.map fun x => (pick x).length
  let total := counts.sum + 1
  modRec (fun r => { r with
    engines := List.replicate 8 none, arrivals := r.arrivals + total
    streams := r.streams.zipIdx.map fun x => { x.1 with
      ready := (pick x).zipIdx.map (fun u => { u.1 with arrived := (counts.take x.2).sum + u.2 }) ++
        x.1.ready.map (fun u => { u with arrived := u.arrived + total })
      preroll := [] } }) s

/-- A clip starts (R321, R322, R747). -/
def startClip (n : Nat) (start : Tod) (s : State) : State :=
  let enc := cfgB F.SEC_ENCRYPT 0 s
  let key := if enc then (List.range 32).map fun i => Config.clipKeyByte s.drawn i else []
  let block := if enc then keyWrap key (Config.ephemeralKey (s.drawn + 1)) s.rcd.volumeId n (recipKeys s) else []
  let c : Clip :=
    { num := n, start := start, stop := none, epoch := if redOn s then s.red.eb else 0, key := key, keyBlock := block }
  let t := if enc then drawOne (drawOne s) else s
  let t := modRec (fun r => { r with
    clip := some c, clipNext := (n + 1) % 4095
    streams := r.streams.map fun x => { x with
      data := {}, table := {}, list := {}, frames := 0, first := none, open_ := false, flights := [], written := {}
      durable := {} } }) (prerollUnits c t)
  dealUnits (putClip n (clipEntry c 1 (List.replicate 8 {}) 0 t) t)

/-- Message 0x0901: record start. -/
def recordStartMsg : MsgDef :=
  { count := fun c => c == 4, masks := [0xFFFFFFFF, 0xFFFFFFFF, 0x3FFFFFFF], blk := .recorder,
    bad := fun r _ => !todOk (todWords 1 r)
    act := fun r _ s =>
      if s.rcd.clip.isSome || s.rcd.volume != 2 then (.refuse 7 0 0, s)
      else match nextClip s with
      | none => (.refuse 7 0 0, s)
      | some n => (.accept [n], startClip n (todOperand 1 r s) s) }

/-- Message 0x0902: record stop. -/
def recordStopMsg : MsgDef :=
  { count := fun c => c == 4, masks := [0xFFFFFFFF, 0xFFFFFFFF, 0x3FFFFFFF], blk := .recorder,
    bad := fun r _ => !todOk (todWords 1 r)
    act := fun r _ s =>
      match s.rcd.clip with
      | some c => if c.ending.isSome then (.refuse 7 0 0, s)
        else (.accept [], checkStop (modRec (fun x => { x with clip := some { c with stop := some (todOperand 1 r s) } }) s))
      | none => (.refuse 7 0 0, s) }

/-- Message 0x0903: clip query. -/
def clipQueryMsg : MsgDef :=
  { count := fun c => c == 2, masks := [0xFFF], blk := .recorder,
    bad := fun r _ => r.w 1 == 4095,
    act := fun r _ s =>
      let l := (s.rcd.dir.lookup (r.w 1)).getD []
      (.accept ([dirState s.rcd.dir (r.w 1)] ++ loWords 2 (fieldAt l 0x58 8) ++ loWords 2 (fieldAt l 0x50 8) ++
        loWords 2 (fieldAt l 0x30 8)), s) }

/-- Message 0x0904: format volume. [DEDUCED, log 45] -/
def formatVolumeMsg : MsgDef :=
  { count := fun c => c == 2, masks := [0xFFFF], priv := .must, blk := .recorder,
    act := fun r _ s =>
      let ports := maskPorts s
      let dual := cfgB F.REC_VOL_DUAL_PORT 0 s
      if s.rcd.clip.isSome then (.refuse 7 0 0, s)
      else if !recOn s || !mayWrite s || s.rcd.stuck || ports.isEmpty || (ports.any fun k => !(ssdOf k s).present || (ssdOf k s).failed ||
          !ssdUsable dual (ssdOf k s)) then (.refuse 7 0 0, s)
      else (.accept [], noticeNs (formatVolume (r.w 1) s)) }

/-- The granules of a clip. -/
def clipGrans (n : Nat) (s : State) : List (Nat × LodeEntry) := s.rcd.map.filter fun e => e.2.clip == n && e.2.state != 0

/-- A clip's chains are freed, to be journaled as Free and deallocated after that record (R346). [DEDUCED, log 45] -/
def deleteClip (n : Nat) (s : State) : State :=
  let gs := clipGrans n s
  let t := modRec (fun r => { r with
    map := r.map.filter fun e => !(e.2.clip == n), freeing := r.freeing ++ gs.map fun e => (e.1, e.2.ssd, e.2.slot) })
    (walk true (gs.map (·.1)) s)
  putClip n (sealDir (leBytes 4 0x4C435652 ++ leBytes 4 n)) (gs.foldl (fun u e => markChanged e.1 u) t)

/-- Message 0x0905: delete clip. -/
def deleteClipMsg : MsgDef :=
  { count := fun c => c == 2, masks := [0xFFF], priv := .must, blk := .recorder,
    bad := fun r _ => r.w 1 == 4095,
    act := fun r _ s =>
      if s.rcd.volume ≠ 2 ∨ s.rcd.clip.map (·.num) = some (r.w 1) then (.refuse 7 0 0, s)
      else (.accept [], if dirState s.rcd.dir (r.w 1) = 0 then s else deleteClip (r.w 1) s) }

/-- Message 0x0906: playback start (R356). -/
def playbackStartMsg : MsgDef :=
  { count := fun c => c == 4, masks := [0x77FFF], blk := .recorder,
    bad := fun r _ => bits (r.w 1) 11 0 == 4095,
    act := fun r _ s =>
      let n := bits (r.w 1) 11 0
      let j := bits (r.w 1) 14 12
      let m := bits (r.w 1) 18 16
      let l := (s.rcd.dir.lookup n).getD []
      let d := slice l (0x40 + 64 * j) 64
      let w0 := fieldAt d 0 4
      let frames := fieldAt d 0x18 8
      if !decOn m s || !cfgB F.CODEC_PIC_DEC_SRC m s || (s.rcd.plays.getD m {}).state == 1 || dirState s.rcd.dir n == 0 ||
          s.rcd.clip.map (·.num) == some n || fieldAt l 0x3C 4 % 2 == 1 || bits w0 31 31 == 0 || bits w0 30 28 != 1 ||
          s.rcd.volume == 0 then (.refuse 7 0 0, s)
      else
        let table := dirChain d 8 s
        match (List.range frames).find? fun i =>
            let e := tableEntry table i s
            decide (r.w 2 + r.w 3 * 2 ^ 32 ≤ fieldAt e 0 8) && fieldAt e 0xC 4 / 256 % 2 == 1 with
        | none => (.refuse 7 0 0, s)
        | some i =>
          (.accept (loWords 2 (fieldAt (tableEntry table i s) 0 8)),
           playPump m (modPlay m (fun p => { p with
             state := 1, clip := n, stream := j, at_ := i, entries := frames, data := dirChain d 4 s, table := table
             lastNum := 0, units := 0, pieces := [], buf := none }) s)) }

/-- Message 0x0907: playback stop (R356). -/
def playbackStopMsg : MsgDef :=
  { count := fun c => c == 2, masks := [7], blk := .recorder,
    act := fun r _ s =>
      let m := r.w 1
      if (s.rcd.plays.getD m {}).state ≠ 1 then (.refuse 7 0 0, s)
      else (.accept [], flushDecoder m (modPlay m (fun p => { p with state := 0, pieces := [], buf := none }) s)) }

/-- Message 0x0908: playback status. -/
def playbackStatusMsg : MsgDef :=
  { count := fun c => c == 2, masks := [7], blk := .recorder, status := true,
    act := fun r _ s =>
      let p := s.rcd.plays.getD (r.w 1) {}
      (.accept ([p.state + p.clip * 4 + p.stream * 2 ^ 14] ++ loWords 2 p.lastNum ++ [p.units, p.failures]), s) }

/-! ### Takeover (R353, R354, R751) -/

/-- The clip key a directory entry wraps for this device's exchange key (R751). -/
def unwrapKey (clip : Nat) (l : List Byte) (s : State) : Option (List Byte) :=
  let b := slice l 0x240 444
  let own := (sha256 (publicKey (Config.exchangeKey s.otp.serial))).take 8
  let n := bits (fieldAt b 0 4) 10 8
  ((List.range n).find? fun i => slice b (0x44 + 56 * i) 8 == own).bind fun i =>
    aesGcmOpen (kekOf (ecdhX (Config.exchangeKey s.otp.serial) (slice b 4 64)) s.rcd.volumeId clip i) (List.replicate 12 0)
      (b.take 0x44) (slice b (0x4C + 56 * i) 32) (slice b (0x6C + 56 * i) 16)

/-- A chain up to its last granule, found back through NEXT (R327, R329); at most `n` granules. -/
def chainTo (m : LodeMap) (clip : Nat) : Nat → Nat → List Nat
  | 0, _ => []
  | n + 1, v =>
    if v = noGran then []
    else match m.find? fun e => e.2.next == v && e.2.clip == clip with
      | some e => chainTo m clip n e.1 ++ [v]
      | none => [v]

/-- A chain as a copied position assigns it: its granules up to the last one, whether the journal names its first or not (R353). -/
def copiedChain (clip last bytes member : Nat) (s : State) : Chain :=
  let g := chainTo s.rcd.map clip (s.rcd.map.length + 1) last
  let m := ((g.getLast?.bind fun v => s.rcd.map.lookup v).map fun e => e.ssd + 1).getD member
  { grans := g, bytes := bytes, next := m % max 1 s.rcd.members.length }

/-- A stream as a copied position leaves it. [DEDUCED, log 47] -/
def resumeStream (l : List Byte) (clip j : Nat) (p : RecPosition) (x : RecStream) (s : State) : RecStream :=
  let d := slice l (0x40 + 64 * j) 64
  let chain := fun (i bytes : Nat) => copiedChain clip (p.last.getD i noGran) bytes j s
  let pos : RecPos := ⟨p.frames, p.dataBytes, p.listBytes, p.unit⟩
  { x with
    data := chain 0 p.dataBytes, table := chain 1 (32 * p.frames), list := chain 2 p.listBytes
    frames := p.frames, first := if p.frames = 0 then none else some (fieldAt d 0x28 8), open_ := decide (0 < p.frames)
    flights := [], written := pos, durable := ⟨fieldAt d 0x18 8, fieldAt d 0x10 8, fieldAt d 0x20 8, p.unit⟩ }

/-- Units of a stream after the copied position that its ring of four no longer holds (R354). [DEDUCED, log 47] -/
def unitsLost (c : Clip) (j : Nat) (p : RecPosition) (x : RecStream) (s : State) : Nat :=
  (x.passed.filter fun u => if p.frames = 0 then inClip c j { num := u.1, epoch := 0, flags := 0, time := u.2, idr := false, bytes := [] } s
    else decide (p.unit < u.1)).length

/-- Step 3 of R353: the units of a stream's ring after the copied written position are written, the rest of the ring let go. -/
def writeRing (j : Nat) (p : RecPosition) (s : State) : State :=
  let us := (recStream j s).ring4.filter fun u => decide (p.frames = 0 ∨ p.unit < u.num)
  us.foldl (fun t u => match t.rcd.clip with
    | some c =>
      let opens := cfgN F.REC_KIND j t != 1 || u.idr || (recStream j t).open_
      if c.ending.isSome || !inClip c j u t || !opens then t else writeUnit c j u (modRecStream j (fun x => { x with open_ := true }) t)
    | none => t) (modRecStream j (fun x => { x with ring4 := [], passed := [] }) s)

/-- The clip of a copy ends truncated at its durable positions. [DEDUCED, log 47] -/
def cutClip (n : Nat) (s : State) : State :=
  match s.rcd.dir.lookup n with
  | some l => putClip n (setDirState 3 l) s
  | none => s

/-- A standby reads the volume's journal up to a copy's durable SEQ before it applies a FULL copy (R569). -/
def readJournal (upTo : Nat) (s : State) : State :=
  if !recOn s || s.rcd.volume == 0 then s
  else
    let ms := s.rcd.members.map fun p => (ssdOf p s).media
    match ms.foldl (fun a m => newerSuper a (mediaSuper m)) none with
    | none => s
    | some b =>
      let base := ms.headD {}
      let r := replay ms (upTo - b.chkSeq) b.chkSeq b.jrnStart (if b.active then base.chkB else base.chkA, base.dir)
      modRec (fun x => { x with
        map := r.1.1, dir := r.1.2, seq := r.2.1, durableSeq := r.2.1, jrnAt := r.2.2, sbSeq := b.sbSeq, active := b.active
        chkSeq := b.chkSeq, jrnStart := b.jrnStart, clipNext := max x.clipNext b.clipNext }) s

/-- The recorder takeover of R353 from a copy; the map entries of the copies applied that the journal may not hold yet come on
top of the replayed map. [DEDUCED, log 47] -/
def recTakeover (k : StateCopy) (s : State) : State :=
  if !recOn s || s.rcd.volume == 0 then s
  else if !cfgB F.REC_VOL_DUAL_PORT 0 s then
    let t := acquireVolume true s
    match k.clip with
    | some n => cutClip n t
    | none => t
  else
    let t := acquireVolume true s
    let ms := t.rcd.members.map fun p => (ssdOf p t).media
    match ms.foldl (fun a m => newerSuper a (mediaSuper m)) none with
    | none => t
    | some b =>
      let base := (ms.headD {})
      let r := replay ms 65536 b.chkSeq b.jrnStart (if b.active then base.chkB else base.chkA, base.dir)
      let new := (s.red.deltas.filter fun d => decide (r.2.1 ≤ d.1 + 1)).map (·.2)
      let map := new.foldl (fun m c => setEntry c.1 (entryOf c.2) m) r.1.1
      let t := modRec (fun x => { x with
        map := map, dir := r.1.2, seq := r.2.1, durableSeq := r.2.1, jrnAt := r.2.2, sbSeq := b.sbSeq, active := b.active
        chkSeq := b.chkSeq, jrnStart := b.jrnStart, clipNext := max x.clipNext b.clipNext
        changed := new.map (·.1), phase := .idle }) t
      match k.clip with
      | none => beginPoint t
      | some n =>
        match t.rcd.dir.lookup n with
        | none => beginPoint (if cfgB F.SEC_ENCRYPT 0 s then raise 2 0x1605 noInst [] t else t)
        | some l =>
          let enc := fieldAt l 0x3C 4 % 2 == 1
          let key := if enc then unwrapKey n l t else some []
          match key with
          | none => beginPoint (cutClip n (raise 2 0x1605 noInst [] t))
          | some key =>
            let dig := copiedChain n k.digestLast k.digestBytes 0 t
            let c : Clip :=
              { num := n, start := todUnpack (fieldAt l 8 16), stop := none, epoch := fieldAt l 0x28 4, key := key
                keyBlock := if enc then slice l 0x240 444 else [], digest := k.chainDigest, dig := dig
                digDurable := fieldAt l 0x30 8 }
            let pos := fun (j : Nat) => k.positions.getD j ⟨0, 0, 0, 0, []⟩
            let act := (List.range 8).filter fun j => cfgB F.REC_ENABLE j s
            let lost := (act.map fun j => unitsLost c j (pos j) (recStream j t) t).sum
            let u := modRec (fun x => { x with
              clip := some c, lostUnits := (x.lostUnits + lost) % 2 ^ 32
              streams := x.streams.zipIdx.map fun y => resumeStream l n y.2 (pos y.2) y.1 t }) t
            let u := act.foldl (fun v j => writeRing j (pos j) v) u
            let u := modRec (fun x => { x with resuming := some x.nextFlight }) u
            maybeEnd (if lost = 0 then u else raise 2 0x0908 noInst [lost] u)

end Sys2Proof.Machine
end

