-- ==== Sys2Proof/Machine/Viewfinder.lean ====
section
/-! DEFINITION. The viewfinder ports: layers, tiles, updates under TE (chapter 17, R588 to R605). -/

namespace Sys2Proof.Machine

/-- Applies `f` to a viewfinder port. -/
def modVf (k : Nat) (f : View_ → View_) (s : State) : State := modOuts (fun x => { x with views := modAt x.views k f }) s
/-- A viewfinder port. -/
def vfOf (k : Nat) (s : State) : View_ := s.out.views.getD k {}

/-- Whether a port is in use. -/
def vfOn (k : Nat) (s : State) : Bool := blkOn .media s && decide (k < 2) && cfgB F.VF_PANEL_ENABLE k s

/-- Tile columns and rows of a panel (R595). -/
def tileCols (k : Nat) (w : Words) : Nat := F.VF_PANEL_PANEL_W.get k w / 64
/-- Tile rows of a panel. -/
def tileRows (k : Nat) (w : Words) : Nat := F.VF_PANEL_PANEL_H.get k w / 16

/-- The tiles that a rectangle of the panel overlaps. -/
def tilesOf (k : Nat) (w : Words) (x y wd ht : Nat) : List Nat :=
  (List.range (tileRows k w * tileCols k w)).filter fun t =>
    let tx := t % tileCols k w * 64
    let ty := t / tileCols k w * 16
    decide (tx < x + wd ∧ x < tx + 64 ∧ ty < y + ht ∧ y < ty + 16)

/-- Every tile of a panel. -/
def allTiles (k : Nat) (w : Words) : List Nat := List.range (tileRows k w * tileCols k w)

/-- Adds tiles to a set. -/
def addTiles (a b : List Nat) : List Nat := a ++ b.filter fun t => !a.contains t

/-- The tap rectangle of a port. -/
def tapTiles (k : Nat) (w : Words) : List Nat :=
  let t := F.VF_SRC_TAP_SRC.get k w
  tilesOf k w (F.VF_SRC_TAP_X.get k w) (F.VF_SRC_TAP_Y.get k w) (F.TAP_SRC_OUT_W.get t w) (F.TAP_SRC_OUT_H.get t w)

/-- The instance of a plane's page. -/
def ovl (k j : Nat) : Nat := 16 * k + j

/-- The tiles of an overlay plane where a store of settings places it. -/
def planeTiles (k j : Nat) (w : Words) : List Nat :=
  let i := ovl k j
  tilesOf k w (F.VF_OVL_X.get i w) (F.VF_OVL_Y.get i w) (F.VF_OVL_W.get i w) (F.VF_OVL_H.get i w)

/-- The tiles of the island plane. -/
def assayTiles (k : Nat) (w : Words) : List Nat := tilesOf k w (F.VF_SRC_ASSAY_X.get k w) (F.VF_SRC_ASSAY_Y.get k w) 512 64

/-! ### Compositing (R591 to R593) -/

/-- A tap code of `b` bits as 10 bits (R592). -/
def tap10 (b c : Nat) : Nat := if b = 10 then c else min 1023 ((c + 2 ^ (b - 11)) / 2 ^ (b - 10))

/-- An ARGB pixel over a pixel of 10-bit colours (R593). -/
def blend (argb : Nat) (dst : List Nat) : List Nat :=
  let a := bits argb 31 24
  let a' := a + a / 128
  let src := [bits argb 23 16, bits argb 15 8, bits argb 7 0].map fun c => c * 4 + c / 64
  (src.zip dst).map fun p => (p.1 * a' + p.2 * (256 - a') + 128) / 256

/-- A value as a pixel format sends it: 10 bits, or 8 bits for RGB888 (R593). -/
def pixelOut (rgb101010 : Bool) (v : Nat) : Nat := if rgb101010 then v else min 255 ((v + 2) / 4)

/-- The composited pixel of a panel (R591 to R593). [DESIGN CHOICE, log 64] -/
def vfPixel (k : Nat) (x y : Nat) (s : State) : List Nat :=
  let v := vfOf k s
  let w := v.bound
  let bg := [F.VF_SRC_BG_R.get k w, F.VF_SRC_BG_G.get k w, F.VF_SRC_BG_B.get k w]
  let tx := F.VF_SRC_TAP_X.get k w
  let ty := F.VF_SRC_TAP_Y.get k w
  let base := match v.held with
    | some p =>
      if F.VF_SRC_TAP_EN.on k w && !v.blanked && decide (tx ≤ x ∧ ty ≤ y) then
        match (p.planes.headD [])[y - ty]? with
        | some l => if x - tx < l.length then p.planes.map fun q => tap10 p.bits ((q.getD (y - ty) []).getD (x - tx) 0) else bg
        | none => bg
      else bg
    | none => bg
  let base := (List.range 4).foldl (fun c j =>
    let i := ovl k j
    let px := F.VF_OVL_X.get i w
    let py := F.VF_OVL_Y.get i w
    let pw := F.VF_OVL_W.get i w
    if F.VF_OVL_ENABLE.on i w && decide (px ≤ x ∧ x < px + pw ∧ py ≤ y ∧ y < py + F.VF_OVL_H.get i w) then
      blend (((v.planes.getD j {}).active.lookup ((y - py) * pw + (x - px))).getD 0) c else c) base
  let ax := F.VF_SRC_ASSAY_X.get k w
  let ay := F.VF_SRC_ASSAY_Y.get k w
  let top := match v.assay with
    | some a => if ax ≤ x ∧ x < ax + 512 ∧ ay ≤ y ∧ y < ay + 64 then blend (Config.assayPixel a (x - ax) (y - ay)) base else base
    | none => base
  top.map (pixelOut (F.VF_PANEL_PIXFMT.on k w))

/-! ### Dirt and eligibility (R595 to R597) -/

/-- What the island's plane shows; none while OVERLAY_EN is 0 (R553, R594). -/
def assayShown (s : State) : Option (List Nat) :=
  if F.ASY_CFG_OVERLAY_EN.on 0 s.islNv.cfg && s.isl.running then
    let unsigned := s.isl.seams.any fun x => decide (0 < x.count ∧ x.since + ticksPerSec < s.dev.elapsed)
    some [s.time.clk, s.islNv.sealCount, s.islNv.boot, b2n unsigned, b2n !s.isl.calOk]
  else none

/-- The newest tap buffer is taken at an edge under the rule of R467; those of another epoch are discarded and counted (R32, R592,
R596). -/
def vfTake (k : Nat) (s : State) : State :=
  let w := s.cfg.accepted
  if !F.VF_SRC_TAP_EN.on k w then s else
  let t := F.VF_SRC_TAP_SRC.get k w
  let r := srcRing 0 t s
  let epoch := srcEpoch 0 t s
  let s := modVf k (fun v => { v with
    seen := (r.bufs.map (·.order)).foldl max v.seen
    stale := (v.stale + (r.bufs.filter fun b => decide (v.seen < b.order) && b.pic.header.epoch != epoch).length) % 2 ^ 32 }) s
  match newestCurrent epoch r with
  | some i =>
    let b := r.bufs.getD i {}
    if b.order = (vfOf k s).order then s
    else modVf k (fun v => { v with
        order := b.order, held := some b.pic, blanked := false, lastBuf := s.dev.elapsed
        tapDirty := addTiles v.tapDirty (tapTiles k w) })
      (modSrcRing 0 t (holdOut (.view k) (some i)) s)
  | none => s

/-- Frame fields commit at an edge, shadow planes become active, and the island's plane changes (R595, R596). -/
def vfCommit (k : Nat) (s : State) : State :=
  let w := s.cfg.accepted
  let shown := assayShown s
  modVf k (fun v =>
    let planes := v.planes.zipIdx.map fun p =>
      let i := ovl k p.2
      let old := F.VF_OVL_ENABLE.on i v.bound
      let new := F.VF_OVL_ENABLE.on i w
      let at_ := fun (u : Words) => (F.VF_OVL_X.get i u, F.VF_OVL_Y.get i u)
      let moved := old != new || (new && at_ v.bound != at_ w)
      { p.1 with
        active := p.1.shadow
        dirty := if moved then
          addTiles (addTiles p.1.dirty (if old then planeTiles k p.2 v.bound else [])) (if new then planeTiles k p.2 w else [])
          else p.1.dirty }
    { v with
      planes := planes, bound := w, assay := shown
      assayDirty := if shown = v.assay then v.assayDirty else addTiles v.assayDirty (assayTiles k w) }) s

/-- Whether dirt of a cadence is eligible at an instant (R597). -/
def cadenceDue (hz : Nat) (pushed : Option Nat) (now : Nat) : Bool :=
  hz == 0 || match pushed with
    | none => true
    | some t => decide (t * hz + 1000000000 ≤ now * hz)

/-- The eligible tiles of a port (R597). -/
def eligible (k : Nat) (now : Nat) (v : View_) : List Nat :=
  let ps := v.planes.zipIdx.flatMap fun p =>
    if cadenceDue (F.VF_OVL_CADENCE_HZ.get (ovl k p.2) v.bound) p.1.pushed now then p.1.dirty else []
  addTiles (addTiles v.tapDirty v.allDirty) (addTiles ps (if cadenceDue 1 v.assayPushed now then v.assayDirty else []))

/-- Every dirty tile of a port. [DEDUCED, log 73] -/
def dirtyTiles (v : View_) : List Nat :=
  (v.planes.map (·.dirty)).foldl addTiles (addTiles (addTiles v.tapDirty v.allDirty) v.assayDirty)

/-- The rectangles of an update: tile row, first and last tile column (R598). -/
def rectsOf (k : Nat) (w : Words) (tiles : List Nat) : List (Nat × Nat × Nat) :=
  let c := tileCols k w
  (List.range (tileRows k w)).filterMap fun r =>
    let xs := (tiles.filter fun t => t / c == r).map (· % c)
    match xs with
    | [] => none
    | x :: l => some (r, l.foldl min x, l.foldl max x)

/-! ### Sending (R598 to R601) -/

/-- 22 + 16 × (w × B / 8 + 7) of R599 for a rectangle of `n` tiles. -/
def rectCost (rgb101010 : Bool) (n : Nat) : Nat := 22 + 16 * (64 * n * (if rgb101010 then 30 else 24) / 8 + 7)

/-- Whether the estimated end of a rectangle lies within its limit (R599): `cost` is the sum of the costs so far and `n`
their number. T_TE is the mean of the last intervals, or the panel's period before the first. [DEDUCED, log 73] -/
def inTime (k : Nat) (w : Words) (te : List Nat) (cost n row : Nat) : Bool :=
  let lr := (F.VF_PANEL_LANES.get k w + 1) * F.VF_PANEL_RATE_MBPS.get k w
  let (sum, cnt) := if te.isEmpty then (1000000000, F.VF_PANEL_PANEL_HZ.get k w) else (te.sum, te.length)
  let h := F.VF_PANEL_PANEL_H.get k w
  decide ((cost * 8000 + 1000 * n * lr) * (h * cnt) ≤ (F.VF_PANEL_TE_LEAD_US.get k w * 1000 * (h * cnt) + 16 * row * sum) * lr)

/-- The rectangles sent: all of them when no scan is watched, else those before the first that would end late. [DEDUCED, log 73] -/
def sentRects (k : Nat) (w : Words) (gated : Bool) (te : List Nat) : Nat → Nat → List (Nat × Nat × Nat) → List (Nat × Nat × Nat)
  | _, _, [] => []
  | cost, n, r :: rest =>
    let c := cost + rectCost (F.VF_PANEL_PIXFMT.on k w) (r.2.2 + 1 - r.2.1)
    if gated && !inTime k w te c (n + 1) r.1 then [] else r :: sentRects k w gated te c (n + 1) rest

/-- The tiles of a rectangle. -/
def rectTiles (k : Nat) (w : Words) (r : Nat × Nat × Nat) : List Nat :=
  (List.range (r.2.2 + 1 - r.2.1)).map fun i => r.1 * tileCols k w + r.2.1 + i

/-- The background of a panel as it is sent (R591, R601). -/
def vfBackground (k : Nat) (w : Words) : List Nat :=
  [F.VF_SRC_BG_R.get k w, F.VF_SRC_BG_G.get k w, F.VF_SRC_BG_B.get k w].map (pixelOut (F.VF_PANEL_PIXFMT.on k w))

/-- The lines of a rectangle, the `i`-th of its update; the rest of a line that came late is background (R601). -/
def rectPixels (k i : Nat) (late : Option VfLate) (r : Nat × Nat × Nat) (s : State) : List (List (List Nat)) :=
  (List.range 16).map fun y => (List.range (64 * (r.2.2 + 1 - r.2.1))).map fun x =>
    if late.any fun l => l.rect == i && l.line == y && decide (l.pixels ≤ x) then vfBackground k (vfOf k s).bound
    else vfPixel k (64 * r.2.1 + x) (16 * r.1 + y) s

/-- Removes tiles from the dirty sets, noting the pushes (R597). -/
def clearTiles (tiles : List Nat) (now : Nat) (v : View_) : View_ :=
  let keep := fun (l : List Nat) => l.filter fun t => !tiles.contains t
  let hit := fun (l : List Nat) => l.any fun t => tiles.contains t
  { v with
    tapDirty := keep v.tapDirty, allDirty := keep v.allDirty
    assayPushed := if hit v.assayDirty then some now else v.assayPushed, assayDirty := keep v.assayDirty
    planes := v.planes.map fun p => { p with pushed := if hit p.dirty then some now else p.pushed, dirty := keep p.dirty } }

/-- An update (R598 to R602): `late` says where DRAM did not deliver in time, its rectangle counted from 0. [DEDUCED, log 73] -/
def vfUpdate (k : Nat) (gated : Bool) (late : Option VfLate) (s : State) : State :=
  let now := nowNs s
  let t := vfCommit k (vfTake k s)
  let v := vfOf k t
  let rs := sentRects k v.bound gated v.te 0 0 (rectsOf k v.bound (eligible k now v))
  if rs.isEmpty then modVf k (fun v => { v with sent := [], left := if (dirtyTiles v).isEmpty then v.left else (dirtyTiles v).length }) t
  else
    let bad := fun (i : Nat) => late.any fun l => l.rect == i
    let done := (rs.zipIdx.filter fun r => !bad r.2).flatMap fun r => rectTiles k v.bound r.1
    let sent := rs.zipIdx.map fun r => (⟨r.1.1, r.1.2.1, r.1.2.2, rectPixels k r.2 late r.1 t⟩ : Rect)
    let under := late.any fun l => decide (l.rect < rs.length)
    let u := modVf k (fun v =>
      let c := clearTiles done now v
      { c with updates := wrapInc 32 c.updates, left := (dirtyTiles c).length, sent := sent
               underruns := if under then wrapInc 32 c.underruns else c.underruns }) t
    if under then raise 0 (0x1106 + k) k [] u else u

/-- TE_EDGE (R598, R604): a standby takes buffers and sends nothing (R605). [DEDUCED, log 73] -/
def execTeEdge (k : Nat) (late : Option VfLate) (s : State) : Res :=
  .next (if !vfOn k s then s
    else if !outActive s then vfTake k s
    else
      let now := nowNs s
      let t := modVf k (fun v => { v with
        timer := false, lastTe := some now
        te := match v.lastTe with
          | some t => ((now - t) :: v.te).take 8
          | none => v.te }) (endRun (0x1104 + k) k s)
      vfUpdate k true late t)

/-- TE_ABSENT_EXPIRY (R604). -/
def execTeAbsentExpiry (k : Nat) (s : State) : Res :=
  .next (if vfOn k s && outActive s && !(vfOf k s).timer then
      raise 1 (0x1104 + k) k [] (modVf k (fun v => { v with timer := true, lastTe := none, te := [] }) s)
    else s)

/-- PANEL_TIMER (R604): updates paced by the internal timer, without the ahead-of-scan guarantee. [DEDUCED, log 73] -/
def execPanelTimer (k : Nat) (late : Option VfLate) (s : State) : Res :=
  .next (if vfOn k s && outActive s && (vfOf k s).timer then vfUpdate k false late s else s)

/-- BLANK_EXPIRY (R603): the tap rectangle shows background. [DEDUCED, log 73] -/
def execBlankExpiry (k : Nat) (s : State) : Res :=
  let v := vfOf k s
  .next (if vfOn k s && F.VF_SRC_TAP_EN.on k s.cfg.accepted && F.VF_SRC_BLANK_MS.get k v.bound != 0 && !v.blanked &&
      decide (v.lastBuf + F.VF_SRC_BLANK_MS.get k v.bound * ticksPerMs ≤ s.dev.elapsed) then
      raise 0 (0x110A + k) k [] (modVf k (fun v => { v with
        blanked := true, tapDirty := addTiles v.tapDirty (tapTiles k s.cfg.accepted) }) s)
    else s)

/-- The ports at role start, and when a body becomes primary: every tile is dirty (R590, R605). -/
def dirtyAll (k : Nat) (s : State) : State := modVf k (fun v => { v with allDirty := allTiles k s.cfg.accepted }) s

/-! ### Checks (R589, R592, R600) -/

/-- Whether a port's settings are valid. -/
def vfOk (k : Nat) (w : Words) : Bool :=
  let pw := F.VF_PANEL_PANEL_W.get k w
  let ph := F.VF_PANEL_PANEL_H.get k w
  let inside := fun (x y a b : Nat) => decide (x + a ≤ pw ∧ y + b ≤ ph)
  let t := F.VF_SRC_TAP_SRC.get k w
  let lr := (F.VF_PANEL_LANES.get k w + 1) * F.VF_PANEL_RATE_MBPS.get k w
  let cost := rectCost (F.VF_PANEL_PIXFMT.on k w) (pw / 64) * 8000 + 1000 * lr
  decide (0 < pw ∧ pw ≤ 2560 ∧ pw % 64 = 0 ∧ 0 < ph ∧ ph ≤ 1600 ∧ ph % 16 = 0) &&
  (!F.VF_SRC_TAP_EN.on k w || (F.TAP_SRC_ENABLE.on t w && F.TAP_SRC_FORMAT.get t w == 0 &&
    inside (F.VF_SRC_TAP_X.get k w) (F.VF_SRC_TAP_Y.get k w) (F.TAP_SRC_OUT_W.get t w) (F.TAP_SRC_OUT_H.get t w))) &&
  inside (F.VF_SRC_ASSAY_X.get k w) (F.VF_SRC_ASSAY_Y.get k w) 512 64 &&
  ((List.range 4).all fun j =>
    let i := ovl k j
    !F.VF_OVL_ENABLE.on i w || (F.VF_OVL_W.get i w % 8 == 0 &&
      inside (F.VF_OVL_X.get i w) (F.VF_OVL_Y.get i w) (F.VF_OVL_W.get i w) (F.VF_OVL_H.get i w))) &&
  decide (cost ≤ F.VF_PANEL_TE_LEAD_US.get k w * 1000 * lr) &&
  decide (cost * (F.VF_PANEL_PANEL_HZ.get k w * ph) ≤ 16000000000 * lr)

/-- The checks of error 0x1101. -/
def vfChecks (w : Words) : List (Nat × Nat × List Nat) :=
  ((List.range 2).filter fun k => F.VF_PANEL_ENABLE.on k w && !vfOk k w).map fun k => (0x1101, k, [])

/-! ### Messages (R620) -/

/-- Message 0x1100 + k: viewfinder status. -/
def viewfinderStatusMsg (k : Nat) : MsgDef :=
  { blk := .media, status := true,
    act := fun _ _ s =>
      let v := vfOf k s
      let st := if !cfgB F.VF_PANEL_ENABLE k s then 0 else if !outActive s then 1 else if v.timer then 3 else 2
      (.accept ([st] ++ loWords 2 ((v.held.map fun p => p.header.num).getD 0) ++
        [v.updates, v.left, v.underruns, if v.te.isEmpty then 0 else v.te.sum / v.te.length]), s) }

/-- An overlay write to the shadow plane (R596). -/
def writeOverlay (k j x y wd ht off : Nat) (s : State) : State :=
  let w := s.cfg.accepted
  let i := ovl k j
  let pw := F.VF_OVL_W.get i w
  let px := (List.range ht).flatMap fun r => (List.range wd).map fun c =>
    ((y + r) * pw + x + c, leVal (readBulk (off + 4 * (r * wd + c)) 4 s))
  let tiles := if F.VF_OVL_ENABLE.on i w then tilesOf k w (F.VF_OVL_X.get i w + x) (F.VF_OVL_Y.get i w + y) wd ht else []
  modVf k (fun v => { v with planes := modAt v.planes j fun p =>
    { p with shadow := px.foldl (fun m e => putKey e.1 e.2 m) p.shadow, dirty := addTiles p.dirty tiles } }) s

/-- Message 0x1108 + k: overlay write. -/
def overlayWriteMsg (k : Nat) : MsgDef :=
  { count := fun c => c == 5, masks := [3, 0xFFFFFFFF, 0xFFFFFFFF, 0xFFFFFFFF], blk := .media,
    act := fun r _ s =>
      let j := r.w 1
      let x := r.w 2 / 65536
      let y := r.w 2 % 65536
      let wd := r.w 3 / 65536
      let ht := r.w 3 % 65536
      let i := ovl k j
      if !holdsBulk r.path s then (.refuse 5 0 0, s)
      else if !vfOn k s || decide (cfgN F.VF_OVL_W i s < x + wd ∨ cfgN F.VF_OVL_H i s < y + ht ∨
          0x100000 < r.w 4 + 4 * wd * ht) then (.refuse 7 0 0, s)
      else (.accept [], writeOverlay k j x y wd ht (r.w 4) s) }

/-- Message 0x1110 + k: refresh. -/
def refreshMsg (k : Nat) : MsgDef :=
  { blk := .media,
    act := fun _ _ s => if !vfOn k s then (.refuse 7 0 0, s) else (.accept [], dirtyAll k s) }

end Sys2Proof.Machine
end

