-- ==== Sys2Proof/Machine/Redundant.lean ====
section
/-! DEFINITION. Redundant bodies: heartbeats, state copies, triggers, claims and takeover (chapter 16). -/

namespace Sys2Proof.Machine

/-- The major version of the vendor firmware in force (R566, R568). -/
def fwMajor (s : State) : Nat := bits (s.cfg.images.getD 0 {}).version 31 24

/-- Whether the body takes part in the pair and its Cage Link is in use. [DEDUCED, log 72] -/
def cageOn (s : State) : Bool := redOn s && groupOn 8 s

/-- Microseconds since an elapsed time of the device. [DEDUCED, log 68] -/
def usSince (t : Nat) (s : State) : Nat := (s.dev.elapsed - t) / 800

/-! ### Heartbeats (R566, R578) -/

/-- The words of a heartbeat (R566). -/
def heartbeatWords (s : State) : List Word :=
  ([s.red.state + fwMajor s * 2 ^ 8 + s.red.beats * 2 ^ 16, s.red.eb] ++ loWords 2 s.otp.serial ++
    [s.red.copySeq, b2n (shaftActive s) + b2n (s.rcd.volume != 0) * 2 + b2n s.rcd.clip.isSome * 4]).map (BitVec.ofNat 32)

/-- Sends a heartbeat (R566). [DEDUCED, log 72] -/
def sendHeartbeat (s : State) : State :=
  let t := modRed (fun r => { r with beats := wrapInc 16 r.beats }) s
  if groupActive 8 s then modGroup 8 (fun x => { x with timeQ := x.timeQ ++ [heartbeatWords s] }) t else t

/-- HEARTBEAT_TIMER (R566): every 250 µs. -/
def execHeartbeatTimer (s : State) : Res := .next (if cageOn s then sendHeartbeat s else s)

/-- A trigger of R572: a standby in sync claims; out of sync it logs that it cannot, and the trigger stands. -/
def trigger (s : State) : State :=
  if s.red.state = 3 then claim (s.red.eb + 1) 1 (modRed (fun r => { r with triggered := true }) s)
  else if s.red.state = 2 ∧ !s.red.triggered then raise 2 0x1005 noInst [] (modRed (fun r => { r with triggered := true }) s)
  else s

/-- A heartbeat of a primary: it ends a trigger, a release is resolved, its epoch is adopted, and a starting body becomes
standby (R563, R572, R578, R584). -/
def beatOfPrimary (eb : Nat) (s : State) : State :=
  let t := modRed (fun r => { r with
    eb := max r.eb eb, ebBefore := max r.ebBefore eb, beatAt := s.dev.elapsed, triggered := false, releasedAt := none }) s
  if t.red.state = 1 then beginResync t else t

/-- HEARTBEAT (R566, R569, R572, R578): one of a lower epoch is discarded. -/
def execHeartbeat (words : List Word) (s : State) : Res :=
  let w := fun (k : Nat) => (words.getD k 0).toNat
  .next (if !cageOn s then s
    else
      let s := freeCells 8 2 1 s
      if w 1 < s.red.eb then s
      else
        let p : Peer :=
          { state := bits (w 0) 2 0, fwMajor := bits (w 0) 15 8, count := bits (w 0) 31 16, eb := w 1
            serial := w 2 + w 3 * 2 ^ 32, copySeq := w 4, flags := w 5 % 8 }
        let t := modRed (fun r => { r with peer := some p }) s
        if p.state = 5 then beatOfPrimary p.eb t else if p.state = 6 then trigger t else t)

/-- HEARTBEAT_TIMEOUT (R572): no heartbeat from the primary for T_hb. [DEDUCED, log 68] -/
def execHeartbeatTimeout (s : State) : Res :=
  .next (if redOn s then trigger (modRed (fun r => { r with peer := none }) s) else s)

/-- FAILING (R572). -/
def execFailing (eb : Nat) (s : State) : Res :=
  .next (if !cageOn s then s else
    let t := freeCells 8 1 1 s
    if eb < t.red.eb then t else trigger t)

/-- RESYNC (R569): the next copy of a primary is FULL; a request of a lower epoch is discarded. -/
def execResync (s : State) (eb : Nat := 0) : Res :=
  .next (if !cageOn s then s else
    let t := freeCells 8 1 1 s
    if eb < t.red.eb then t else modRed (fun r => { r with fullDue := r.fullDue || r.state == 5 }) t)

/-! ### State copies (R568) -/

/-- The rate-control state of an encode stream (R293). -/
def rcCopy (x : EncStream) : RcCopy :=
  { qpLast := x.qpLast.takeWhile Option.isSome |>.filterMap id, costLast := x.costLast, dev := x.dev, weights := x.weights
    fk := x.f, k := x.k }

/-- The loop state of a seam. -/
def loopCopy (l : Loop) (k : List Nat) : LoopCopy :=
  { tr := l.tr, tagCounter := l.counter, e := l.e, g := l.g, lines := l.lines, gainCode := l.code, acc := l.acc
    gainR := l.gainR, gainB := l.gainB, k := k }

/-- The last granule of a chain. -/
def lastGran (c : Chain) : Nat := c.grans.getLast?.getD noGran

/-- The copy a primary sends for a frame of REF_SEAM (R568). [DESIGN CHOICE, log 70] -/
def makeCopy (frame timecode : Nat) (s : State) : StateCopy :=
  let full := s.red.fullDue
  let r := s.rcd
  let changed := if full then (r.allocNew ++ r.changed ++ r.journaled).eraseDups else r.allocNew
  { whole := true, fwMajor := fwMajor s, sequence := wrapInc 32 s.red.copySeq, eb := s.red.eb, refFrame := frame, full := full
    durableSeq := r.durableSeq
    loops := (s.cap.loops.zip s.cap.rfe).map fun p => loopCopy p.1 p.2.k
    columns := if full then s.cap.rfe.map (·.cd) else []
    rate := s.codec.enc.map rcCopy
    clip := r.clip.map (·.num)
    positions := r.streams.map fun x =>
      ⟨x.written.unit, x.written.dataBytes, x.written.frames, x.written.listBytes, [x.data, x.table, x.list].map lastGran⟩
    chainDigest := (r.clip.map fun c => digestAt (copiedDigest r c) c).getD []
    digestBytes := (r.clip.map fun c => copiedDigest r c).getD 0, digestLast := (r.clip.map fun c => lastGran c.dig).getD noGran
    mapChanges := changed.map fun v => (v, ((r.map.lookup v).map mapEntryBits).getD 0)
    outputs := (s.out.sdi ++ s.out.snd).map fun o => ((o.held.map (·.header.num)).getD 0, o.run, o.rtpSeq)
    timecode := timecode, table := s.time.table }

/-- A section of a copy (R568): one longer than its length field can say is sent as several. [DESIGN CHOICE, log 70] -/
def copySection (typ : Nat) (ws : List Nat) : List Nat :=
  (List.range (max 1 ((ws.length + 65534) / 65535))).flatMap fun i =>
    let part := (ws.drop (65535 * i)).take 65535
    (typ * 65536 + part.length) :: part

/-- An optional value as two words. -/
def optWords : Option Nat → List Nat
  | some v => [1, v]
  | none => [0, 0]

/-- A scheduled command as words: slot, target, order, channel and message. -/
def schedWords (e : Option Sched × Nat) : List Nat :=
  match e.1 with
  | some c => [e.2, c.words.length] ++ loWords 3 (todPack c.target) ++ [c.order, c.chan] ++ c.words.map (·.toNat)
  | none => []

/-- The words of a copy: the sections in the order of R568. [DESIGN CHOICE, log 70] -/
def copyWords (k : StateCopy) : List Nat :=
  copySection 1 ([k.sequence, k.eb] ++ loWords 2 k.refFrame ++ [b2n k.full] ++ loWords 2 k.durableSeq) ++
  copySection 2 (k.loops.flatMap fun l => optWords l.tr ++ [l.tagCounter, l.e, l.g, l.lines, l.gainCode] ++
    (l.acc.flatMap (loWords 2)) ++ [l.gainR, l.gainB] ++ l.k) ++
  (if k.full then (k.columns.flatMap fun c => copySection 3 (c.map (toField 32))) else []) ++
  copySection 4 (k.rate.flatMap fun r => [r.qpLast.length] ++ r.qpLast ++ r.costLast ++ [toField 32 r.dev] ++
    (r.weights.flatMap fun w => w.length :: w) ++ [r.fk, r.k]) ++
  copySection 5 (optWords k.clip ++ (k.positions.flatMap fun p =>
      loWords 2 p.unit ++ loWords 2 p.dataBytes ++ loWords 2 p.frames ++ loWords 2 p.listBytes ++ p.last) ++
    (List.range 8).map (fun i => fieldAt k.chainDigest (4 * i) 4) ++ loWords 2 k.digestBytes ++ [k.digestLast] ++
    (k.mapChanges.flatMap fun c => c.1 :: loWords 2 c.2)) ++
  copySection 6 (k.outputs.flatMap fun o => loWords 2 o.1 ++ [o.2.1, o.2.2]) ++
  copySection 7 (loWords 2 k.timecode ++ k.table.zipIdx.flatMap schedWords)

/-- The cells of a copy (R436, R568). [DESIGN CHOICE, log 70] -/
def copyCells (k : StateCopy) : List (List Byte) :=
  let b := natBytes (copyWords k)
  let parts := chunks128 (b.length / 128 + 1) b
  parts.zipIdx.map fun p => mkCell 8 (p.2 == 0) (p.2 + 1 == parts.length) 0 0 p.1

/-- A primary hands over after its next copy (R583). [DEDUCED, log 71] -/
def release (s : State) : State :=
  let t := sendTakeover 2 (sendClaim s.red.eb 4 s)
  modRed (fun r => { r with
    state := 2, switchDue := false, fullDue := true, triggered := false, releasedAt := some s.dev.elapsed }) (abandonWrites t)

/-- The state copy sent at a release of a frame of a seam (R568, R583): deferred while the previous one is being sent. [DEDUCED, log 72] -/
def sendCopy (seam frame timecode : Nat) (s : State) : State :=
  if !redOn s || s.red.state != 5 || seam != cfgN F.RED_REF_SEAM 0 s || !(groupOf 8 s).copyQ.isEmpty then s
  else
    let k := makeCopy frame timecode s
    let t := modRec (fun r => { r with allocNew := [] })
      (modRed (fun r => { r with copySeq := k.sequence, copy := some k, fullDue := false }) s)
    let t := if groupActive 8 s then modGroup 8 (fun x => { x with copyQ := copyCells k }) t else t
    let t := sendHeartbeat t
    if t.red.switchDue then release t else t

/-- A copy that is not applied (R569): a standby in sync is then out of sync and asks for a FULL copy. [DEDUCED, log 71] -/
def discardCopy (s : State) : State :=
  let t := raise 0 0x1008 noInst [] (modRed (fun r => { r with discarded := wrapInc 32 r.discarded }) s)
  if t.red.state = 3 ∨ (t.red.state = 2 ∧ !t.red.fullDue) then beginResync t else t

/-- The loops and black filters of the seams take a copy's state (R570). [DEDUCED, log 71] -/
def applyLoops (k : StateCopy) (s : State) : State :=
  modCap (fun c => { c with
    loops := c.loops.zipIdx.map fun p => match k.loops[p.2]? with
      | some l => { p.1 with
          tr := l.tr, begun := l.tr.isSome, counter := l.tagCounter, e := l.e, g := l.g, lines := l.lines, code := l.gainCode
          acc := l.acc, gainR := l.gainR, gainB := l.gainB }
      | none => p.1
    rfe := c.rfe.zipIdx.map fun p =>
      let x := match k.loops[p.2]? with
        | some l => { p.1 with k := l.k }
        | none => p.1
      match k.columns[p.2]? with
      | some d => if k.full then { x with cd := d } else x
      | none => x }) s

/-- RTP sequence numbers of the senders follow the primary's (R568 section 6). [DEDUCED, log 71] -/
def applyOutputs (k : StateCopy) (s : State) : State :=
  modOuts (fun x => { x with
    sdi := x.sdi.zipIdx.map fun p => match k.outputs[p.2]? with
      | some o => { p.1 with run := o.2.1 }
      | none => p.1
    snd := x.snd.zipIdx.map fun p => match k.outputs[4 + p.2]? with
      | some o => { p.1 with run := o.2.1, rtpSeq := o.2.2 }
      | none => p.1 }) s

/-- The standby claims with reason 2 once the last copy is applied (R583). [DEDUCED, log 71] -/
def handoverNow (s : State) : State :=
  if s.red.handoverDue && s.red.state == 3 then claim (s.red.eb + 1) 2 (modRed (fun r => { r with handoverDue := false }) s) else s

/-- A copy is applied (R569, R570). [DESIGN CHOICE, log 70] -/
def applyCopy (k : StateCopy) (s : State) : State :=
  let s := if k.full && s.red.state == 2 then readJournal k.durableSeq s else s
  let keep := if k.full then [] else s.red.deltas.filter fun d => decide (k.durableSeq ≤ d.1 + 1)
  let t := applyOutputs k (applyLoops k s)
  let t := modRed (fun r => { r with
    copySeq := k.sequence, copy := some k, fullDue := false
    deltas := keep ++ k.mapChanges.map fun c => (k.durableSeq, c.1, c.2) }) t
  handoverNow (syncIfReady t)

/-- STATE_COPY (R568, R569): a standby applies or discards a copy that has arrived. -/
def execStateCopy (copy : StateCopy) (s : State) : Res :=
  .next (if !cageOn s || (s.red.state != 2 && s.red.state != 3) then s
    else
      let s := freeCells 8 0 (copyCells copy).length s
      if copy.whole && copy.fwMajor != fwMajor s then
        modRed (fun r => { r with state := 2 }) (raiseOnce 1 0x1004 noInst [] s)
      else if copy.whole && copy.eb == s.red.eb &&
          (copy.sequence == wrapInc 32 s.red.copySeq || (copy.full && s.red.fullDue)) then
        applyCopy copy (endRun 0x1004 noInst s)
      else discardCopy s)

/-- HANDOVER (R583): the standby claims once it has applied the primary's last copy. -/
def execHandover (eb : Nat) (s : State) : Res :=
  .next (if !cageOn s then s else
    let t := freeCells 8 1 1 s
    if eb < t.red.eb || (t.red.state != 2 && t.red.state != 3) then t
    else
      let last := (t.red.peer.map (·.copySeq)).getD 0
      let u := modRed (fun r => { r with handoverDue := true }) t
      if last ≤ t.red.copySeq then handoverNow u else u)

/-! ### Claims and takeover (R572 to R584) -/

/-- Scheduled commands of the copied table that are still to come (R568 section 7). [DEDUCED, log 71] -/
def adoptTable (k : StateCopy) (s : State) : State :=
  { s with time := { s.time with table := k.table.map fun e => e.filter fun c => decide (todUnits (nowTod s) < todUnits c.target) } }

/-- The seams' loops start for a new primary without a copied state. -/
def startLoops (s : State) : State := (activeSeams s.cfg.accepted).foldl (fun t n => startLoop n t) s

/-- Every tile of the viewfinders is dirty (R605). -/
def dirtyViews (s : State) : State := dirtyAll 1 (dirtyAll 0 s)

/-- The steps of R576 on an accepted verdict; a start claim starts the loops and the volume afresh. [DEDUCED, log 71] -/
def becomePrimary (s : State) : State :=
  let r := s.red
  let since := match r.fallback, r.releasedAt with
    | true, some t => t
    | _, _ => r.beatAt
  let t := modRed (fun x => { x with
    state := 5, triggered := false, handoverDue := false, switchDue := false, fullDue := true, releasedAt := none
    fallback := false }) s
  let t := dirtyViews t
  if r.reason = 0 then acquireVolume false (startLoops t)
  else
    let t := match r.copy with
      | some k => recTakeover k (adoptTable k (applyLoops k t))
      | none => acquireVolume true (startLoops t)
    let t := raise 1 0x1003 noInst [] (modRed (fun x => { x with
      takeovers := wrapInc 32 x.takeovers, gapUs := usSince since s }) t)
    if r.fallback then raise 1 0x100B noInst [] t else t

/-- A verdict of refused (R573, R579, R584). [DEDUCED, log 69] -/
def claimRefused (s : State) : State :=
  let r := s.red
  let t := modRed (fun x => { x with
    eb := r.ebBefore, refusals := wrapInc 32 x.refusals, fallback := false, handoverDue := false, releasedAt := none }) s
  if r.reason = 0 then beginResync t
  else
    let t := raise 0 0x1006 noInst [] t
    if r.reason = 1 then modRed (fun x => { x with state := 3 }) t else beginResync t

/-- Message 0x1008: claim verdict, sent by the head (R561, R586). [DEDUCED, log 69] -/
def claimVerdictMsg : MsgDef :=
  { count := fun c => c == 5, masks := [3, 0xFFFFFFFF, 0xFFFFFFFF, 0xFFFFFFFF], answered := false
    deny := fun r s => s.dev.role != .body || (match r.path with
      | .fwd _ => false
      | _ => true)
    act := fun r _ s =>
      (.accept [],
        if !redOn s then s
        else if bits (r.w 1) 1 1 == 1 then (if s.red.state = 5 then depose s else s)
        else if s.red.state ≠ 4 then s
        else if r.w 1 % 2 = 1 then becomePrimary s else claimRefused s) }

/-- CLAIM_REPEAT_TIMER (R573): T_hb after a refusal, while the trigger holds. -/
def execClaimRepeatTimer (s : State) : Res :=
  .next (if redOn s && s.red.state == 3 && s.red.triggered then claim (s.red.eb + 1) 1 s else s)

/-- PRIMARY_LINK_INACTIVE_EXPIRY (R574). [DEDUCED, log 68] -/
def execPrimaryLinkInactiveExpiry (s : State) : Res :=
  .next (if redOn s && s.red.state == 5 && !shaftActive s then declareFailure s else s)

/-- START_WAIT_EXPIRY (R578). [DEDUCED, log 69] -/
def execStartWaitExpiry (s : State) : Res :=
  .next (if !redOn s || s.red.state != 1 then s
    else
      let t := modRed (fun r => { r with waited := true }) s
      if cfgB F.RED_PREF 0 s && shaftActive s then claim 1 0 t else t)

/-- LINK_REACTIVATED (R580): the group was inactive for less than T_hb. [DEDUCED, log 68] -/
def execLinkReactivated (g : Nat) (s : State) : Res :=
  .next (if redOn s && s.red.state == 5 && decide (g < 8) && groupOn g s && groupActive g s &&
      decide (s.dev.elapsed < (groupOf g s).downSince + hbTicks s) then sendClaim s.red.eb 3 s else s)

/-- SWITCH_OVER_FALLBACK_EXPIRY (R584). [DEDUCED, log 68] -/
def execSwitchOverFallbackExpiry (s : State) : Res :=
  .next (if redOn s && s.red.releasedAt.isSome && s.red.state != 5 && !s.red.fallback then
      claim (s.red.eb + 1) 2 (modRed (fun r => { r with fallback := true }) s)
    else s)

/-! ### Messages (R586) -/

/-- Message 0x1000: redundancy status. -/
def redundancyStatusMsg : MsgDef :=
  { status := true
    act := fun _ _ s =>
      let r := s.red
      let p := match r.peer with
        | some p => 8 + p.state * 16
        | none => 0
      (.accept [r.state + p, r.eb, r.copySeq, r.discarded, r.takeovers, r.gapUs, r.refusals], s) }

/-- Message 0x1002: planned switch-over (R583). -/
def plannedSwitchOverMsg : MsgDef :=
  { priv := .must
    deny := fun _ s => s.dev.role != .body
    act := fun _ _ s =>
      if redOn s && s.red.state == 5 && (s.red.peer.map (·.state)) == some 3 then
        (.accept [], modRed (fun r => { r with switchDue := true }) s)
      else (.refuse 7 0 0, s) }

/-- Message 0x1004: head primary status. -/
def headPrimaryStatusMsg : MsgDef :=
  { status := true
    deny := fun _ s => s.dev.role != .head
    act := fun _ _ s =>
      let r := s.red
      (.accept [r.primary.getD 0xF + b2n r.released * 16, r.eh, r.accepted, r.refused, r.ctrlDiscarded], s) }

end Sys2Proof.Machine
end

