-- ==== Sys2Proof/Machine/Pipeline.lean ====
section
/-! DEFINITION. Units of the pipeline, the release of frames with their statistics, taps, adits, link frames and metadata
units, and the checks and messages of the front end, the statistics, the taps and the adits (chapters 3 to 5, 9, 15). -/

namespace Sys2Proof.Machine

/-! ### UNIT_START (R109, R154, R188, R189) -/

/-- The code of a tap error (R197). -/
def tapErr (t k : Nat) : Nat := 0x0500 + 0x10 * t + k

/-- A tap claims a buffer, or the frame is skipped on it (R188, R189). -/
def claimTap (t : Nat) (s : State) : State :=
  let r := claimOut (s.cap.taps.getD t {})
  let u := modCap (fun c => { c with taps := modAt c.taps t fun _ => r.1 }) s
  if r.2 then u else raise 2 (tapErr t 3) t [] u

/-- An adit claims a buffer, or the frame is skipped on it. -/
def claimAdit (a : Nat) (s : State) : State :=
  let r := claimOut (s.cap.adits.getD a {})
  let u := modCap (fun c => { c with adits := modAt c.adits a fun _ => r.1 }) s
  if r.2 then u else raise 2 (0x04A4 + a) a [] u

/-- What a frame's first unit claims (R154, R188); a head has no statistics, taps or adits (R19). -/
def claimBuffers (n : Nat) (w : Words) (s : State) : State :=
  if s.dev.role == .head then s
  else
    let s := if F.STATS_ENABLE.on n w then modCap (fun c => { c with stats := modAt c.stats n claimStat }) s else s
    let s := (seamTaps s.cfg.accepted n).foldl (fun t k => claimTap k t) s
    (seamAdits s.cfg.accepted n).foldl (fun t k => claimAdit k t) s

/-- UNIT_START (R109): the ready unit with the least key starts while the pipeline is free. [DEDUCED, log 27] -/
def execUnitStart (s : State) : Res :=
  .next (if !blkOn .frontHead s || s.cap.pipe.isSome then s
    else match nextUnit s with
      | none => s
      | some (_, n, num, k) =>
        match (seamOf n s).frames.find? fun f => f.header.num == num && !f.dropped with
        | none => s
        | some f =>
          let t := if f.started.isEmpty then claimBuffers n f.bound s else s
          modFrame n num (fun g => { g with started := g.started ++ [k] }) (modCap (fun c => { c with pipe := some ⟨n, num, k⟩ }) t))

/-! ### Taps and adits of a released frame (R107, R167, R174, R188) -/

/-- The parity class of node (r, g, b) and the node's place in it: one unit of a 65^3 LUT for each (R179). [DESIGN CHOICE, log 30] -/
def parityPlace (r g b : Nat) : Nat × Nat :=
  let side := fun v => 33 - v % 2
  (r % 2 + 2 * (g % 2) + 4 * (b % 2), r / 2 + side r * (g / 2 + side g * (b / 2)))

/-- The three values of node `i` of a 65^3 LUT whose first unit is `u` (R179, R180). -/
def bigNode (u : Nat) (luts : List LutUnit) (i : Nat) : List Nat :=
  let (c, k) := parityPlace (i % 65) (i / 65 % 65) (i / 4225)
  match luts.getD (u + c) .empty with
  | .parity d l => if c = d then (l.drop (3 * k)).take 3 else (List.range 3).map fun x => Config.lutNode (u + c) (3 * k + x)
  | _ => (List.range 3).map fun x => Config.lutNode (u + c) (3 * k + x)

/-- The LUT of a tap's settings: its size and nodes; units that hold no LUT, or no part of one that the setting fits, have
undefined nodes (R179, R180). [DESIGN CHOICE, log 30] -/
def lutOf (t : Nat) (w : Words) (luts : List LutUnit) : Option (Nat × List Nat) :=
  if !F.TAP_TONE_LUT_EN.on t w then none
  else
    let u := F.TAP_TONE_LUT_UNIT.get t w
    if F.TAP_TONE_LUT_SIZE.on t w then some (65, (List.range 274625).flatMap (bigNode u luts))
    else some (33, match luts.getD u .empty with
      | .valid _ l => l
      | _ => (List.range 107811).map fun k => Config.lutNode u k)

/-- The input planes of a tap (R167, R172). -/
def tapInput (t n : Nat) (w : Words) (o : RawOut) : List Plane :=
  let phase := F.SEAM_SRC_CFA_PHASE.get n w
  if t < 2 then demosaic phase (F.RFE_DM_EDGE_THRESH.get n w) o.final else binned phase o.final

/-- A tap's buffer of a released frame is published and its consumers see it (R188). -/
def publishTap (t n : Nat) (f : SeamFrame) (o : RawOut) (s : State) : State :=
  let x := tapPicture t f.bound s.cfg.tables (lutOf t f.bound s.cap.luts) f.header (tapInput t n f.bound o)
  if ((s.cap.taps.getD t {}).writing).isNone then s
  else offerInput false t (modCap (fun c => { c with
    taps := modAt c.taps t (publishOut { x.1 with pub := nowNs s }) }) s)

/-- An adit's buffer of a released frame is published. -/
def publishAdit (a n : Nat) (f : SeamFrame) (raw : Plane) (o : RawOut) (s : State) : State :=
  if ((s.cap.adits.getD a {}).writing).isNone then s
  else
    let w := f.bound
    let x := aditPicture a w s.dev.role n f.header raw o
    let pic := { x with pub := nowNs s, comp := b2n (F.CMP_MODE.on a w) + 2 * F.CMP_KCODE.get a w }
    takeAdit a (modCap (fun c => { c with adits := modAt c.adits a (publishOut pic) }) s)

/-- The luma plane of the tap that a seam's luma histogram names (R152, R185). -/
def lumaOf (n : Nat) (f : SeamFrame) (o : RawOut) (s : State) : Option Plane :=
  let t := F.STATS_LUMA_TAP.get n f.bound
  if F.STATS_LUMA_EN.on n f.bound && (seamTaps s.cfg.accepted n).contains t then
    some (tapPicture t f.bound s.cfg.tables (lutOf t f.bound s.cap.luts) f.header (tapInput t n f.bound o)).2
  else none

/-- The statistics of a released frame are published (R152, R154). -/
def publishStats (n : Nat) (f : SeamFrame) (o : RawOut) (s : State) : State :=
  if ((s.cap.stats.getD n {}).writing).isNone then s
  else
    let d := { statsOf n f.bound f.header o.forStats (lumaOf n f o s) with index := f.index }
    modCap (fun c => { c with stats := modAt c.stats n (publishStat d) }) s

/-! ### Metadata units (R338, R549, R551) -/

/-- The signature records of a seam since its metadata stream last looked. -/
def newSignatures (n : Nat) (s : State) : List (List Byte) :=
  if s.dev.role == .body then s.isl.headEvidence.filterMap fun e => if e.1 = n ∧ e.2.length = 144 then some e.2 else none
  else
    let k := s.isl.written - ((s.isl.metaRead.getD n none).getD 0)
    ((s.isl.ring.take k).reverse).filterMap fun e => match e with
      | .sign m _ _ b => if m = n then some b else none
      | _ => none

/-- The metrology record of a frame, if one exists. -/
def frameRecord (n num : Nat) (s : State) : Option (List Byte) :=
  if s.dev.role == .body then
    (s.isl.headEvidence.find? fun e => e.1 == n && e.2.length == 64 && fieldAt e.2 0 8 == num).map (·.2)
  else
    (s.isl.ring.find? fun e => match e with
      | .record m k _ => m == n && k == num
      | _ => false).bind fun e => match e with
        | .record _ _ b => some b
        | _ => none

/-- The seam's evidence has been read up to a frame; the records of later frames stay. [DEDUCED, log 35] -/
def evidenceRead (n num : Nat) (s : State) : State :=
  { s with isl := { s.isl with
      metaRead := s.isl.metaRead.modify n fun _ => some s.isl.written
      headEvidence := s.isl.headEvidence.filter fun e => e.1 != n || (e.2.length == 64 && decide (num < fieldAt e.2 0 8)) } }

/-- A metadata unit goes to its stream; while a clip records, the last unit of the clip is held back (R549). -/
def offerMeta (n j : Nat) (u : RecUnit) (s : State) : State :=
  match s.rcd.clip with
  | none => acceptUnit (seamEpoch n s) j u s
  | some c =>
    if u.epoch ≠ seamEpoch n s then acceptUnit (seamEpoch n s) j u s
    else if c.ending.isSome || !inClip c j u s then s
    else
      let t := match (recStream j s).held with
        | none => s
        | some v => offerUnit j v s
      modRecStream j (fun x => { x with held := some u }) t

/-- The metadata unit of a released frame (R338). -/
def metaUnit (n : Nat) (f : SeamFrame) (s : State) : State :=
  match recFor 3 n s with
  | none => s
  | some j =>
    let h := f.header
    let rec_ := if h.metro = 0xFFFFFFFF then [] else match frameRecord n h.num s with
      | some b => metaRecord 2 b
      | none => []
    let u : RecUnit :=
      { num := h.num, epoch := h.epoch, flags := tableFlags h false, time := h.exp, idr := false
        bytes := metaRecord 1 (headerBytes h) ++ rec_ ++ (newSignatures n s).flatMap (metaRecord 3) }
    offerMeta n j u (evidenceRead n h.num s)

/-! ### UNIT_END (R107, R109, R110) -/

/-- A head's released frame: its record closes over the link codes, and it goes to the link, compressed or not (R140, R232,
R438, R541, R542). -/
def sendHead (n : Nat) (f : SeamFrame) (o : RawOut) (s : State) : State :=
  let p := headFrame n f.bound o
  let b := depthBits (F.SEAM_SRC_DEPTH.get n f.bound)
  let t := closeRecord n f.header.num (frameDigest p) s
  let r := recordOf n f.header.num t
  if sentCompressed s.cfg.accepted n then postLinkJob n f.header r p b t
  else pushFrame n { header := f.header, record := r, data := packCodes b p } t

/-- The deadline of a released frame; the time it took counts in whole µs, rounded down (R110, R126). [DEDUCED, log 28] -/
def checkDeadline (n : Nat) (f : SeamFrame) (s : State) : State :=
  let now := nowNs s
  let t := modSeam n (fun x => { x with longestUs := min 0xFFFFFFFF (max x.longestUs ((now - f.arrival) / 1000)) }) s
  if f.deadline < now then raise 0 (seamErr n 2) n [] (modSeam n (fun x => { x with misses := wrapInc 32 x.misses }) t) else t

/-- The ring as the front end reads it: the declared lines and samples. -/
def rawOf (n : Nat) (f : SeamFrame) : Plane := (f.lines.take (seamH f.bound n)).map fun l => l.take (seamW f.bound n)

/-- A frame leaves its ring. -/
def leaveRing (n num : Nat) (s : State) : State :=
  modSeam n (fun x => { x with
    receiving := x.receiving && (x.frames.getLast?.map (·.header.num)) != some num
    frames := x.frames.filter fun g => g.header.num != num }) s

/-- A frame is released (R107). [DEDUCED, log 27] -/
def releaseFrame (n : Nat) (f : SeamFrame) (s : State) : State :=
  let raw := rawOf n f
  let o := frontEnd s.dev.role n f.bound f.gains s.cfg.tables (s.cap.rfe.getD n {}) raw
  let t := leaveRing n f.header.num (modCap (fun c => { c with rfe := modAt c.rfe n fun _ => o.rfe }) s)
  let t := if t.dev.role == .head then sendHead n f o t
    else
      let t := publishStats n f o t
      let t := (seamTaps t.cfg.accepted n).foldl (fun u k => publishTap k n f o u) t
      metaUnit n f ((seamAdits t.cfg.accepted n).foldl (fun u k => publishAdit k n f raw o u) t)
  sendCopy n f.header.num f.header.timecode (checkDeadline n f t)

/-- UNIT_END (R109): the unit in the pipeline finishes; with its last unit a frame is released, and a dropped frame leaves
nothing (R107, R116). [DEDUCED, log 27] -/
def execUnitEnd (s : State) : Res :=
  .next (match s.cap.pipe with
  | none => s
  | some u =>
    let t := modFrame u.seam u.frame (fun g => { g with finished := g.finished ++ [u.stripe] }) (modCap (fun c => { c with pipe := none }) s)
    match (seamOf u.seam t).frames.find? fun f => f.header.num == u.frame with
    | none => t
    | some f =>
      if f.dropped then (if f.started.length = f.finished.length then leaveRing u.seam u.frame t else t)
      else if unitCount t.dev.role t.cfg.accepted u.seam ≤ f.finished.length then releaseFrame u.seam f t
      else t)

/-! ### Checks of the front end (R133, R139, R140, R142, R143, R153, R158, R160 to R164) -/

/-- Whether a payload is present with a number of bytes. -/
def sized (tables : List (Nat × List Byte)) (i n : Nat) : Bool := i != 0 && (tables.lookup i).map List.length == some n

/-- Whether a seam's optical-black declaration is valid (R133). -/
def obOk (n : Nat) (w : Words) : Bool :=
  let l := F.RFE_BLACK_OBC_LEFT.get n w
  let r := F.RFE_BLACK_OBC_RIGHT.get n w
  let t := F.RFE_BLACK_OBR_TOP.get n w
  let m := if F.RFE_MERGE_DG_ENABLE.on n w then 4 else 2
  decide (t ≤ 32 ∧ l ≤ 128 ∧ r ≤ 128 ∧ t % 2 = 0 ∧ l % m = 0 ∧ r % m = 0 ∧ l + r < seamW w n ∧
    128 ≤ activeW n w (seamW w n) ∧ 32 ≤ activeH n w)

/-- Whether the region of a black mode exists (R139). -/
def modeOk (n : Nat) (w : Words) : Bool :=
  let m := F.RFE_BLACK_MODE.get n w
  (m != 1 && m != 2 && m != 4 || decide (2 ≤ F.RFE_BLACK_OBR_TOP.get n w)) &&
  (m != 3 && m != 4 || decide (4 ≤ F.RFE_BLACK_OBC_LEFT.get n w + F.RFE_BLACK_OBC_RIGHT.get n w))

/-- Whether static correction runs in a role (R130, R147). -/
def staticRuns (role : Role) (n : Nat) (w : Words) : Bool :=
  let dg := F.RFE_MERGE_DG_ENABLE.on n w
  F.RFE_DEFECT_STATIC_EN.on n w && (match role with
    | .body => dg
    | .head => !dg
    | _ => true)

/-- Entries in strictly ascending (y, x) order. -/
def ascending : List (Nat × Nat) → Bool
  | a :: b :: r => (decide (a.2 < b.2) || (a.2 == b.2 && decide (a.1 < b.1))) && ascending (b :: r)
  | _ => true

/-- The defect map of a payload: none when its form is wrong (R143, R163). -/
def mapForm (tables : List (Nat × List Byte)) (i : Nat) : Option (List (Nat × Nat)) :=
  if i = 0 then none else
  match tables.lookup i with
  | none => none
  | some b =>
    let l := words32 b
    if b.length % 4 = 0 ∧ 1 ≤ l.length ∧ l.headD 0 ≤ 262144 ∧ l.length = 1 + l.headD 0 ∧
        ((l.drop 1).all fun e => e % 16 == 0) then some (defectMap b) else none

/-- The failures of a seam's front end, one code for each rule (R810). [DEDUCED, log 32] -/
def rfeFailures (role : Role) (w : Words) (tables : List (Nat × List Byte)) (n : Nat) : List Nat :=
  let b := depthBits (F.SEAM_SRC_DEPTH.get n w)
  let f := F.RFE_LIN_LINK_FRAC.get n w
  let dg := F.RFE_MERGE_DG_ENABLE.on n w
  let fail := fun (bad : Bool) (c : Nat) => if bad then [c + n] else []
  let lin := F.RFE_LIN_TABLE.get n w
  let linN := 16384 * (if F.RFE_LIN_SHARED.on n w then 1 else 4) * (if dg then 2 else 1)
  fail (!obOk n w) 0x0488 ++
  fail (role != .integrated && !decide (b ≤ f + 4 ∧ f ≤ b)) 0x0488 ++
  fail (!modeOk n w) 0x0488 ++
  fail (dg && decide (F.RFE_MERGE_T1.get n w ≤ F.RFE_MERGE_T0.get n w)) 0x0488 ++
  fail (role != .body && F.RFE_LIN_ENABLE.on n w &&
    !(sized tables lin linN && (words32 (payload tables lin)).all fun v => decide (v < 2 ^ 24))) 0x0480 ++
  fail (role != .head && F.RFE_CORR_FPN_EN.on n w &&
    !sized tables (F.RFE_CORR_FPN_MAP.get n w) (4 * activeW n w (seamW w n))) 0x0480 ++
  fail (role != .head && F.RFE_CORR_SHADE_EN.on n w && !sized tables (F.RFE_CORR_SHADE_GRID.get n w) 100104) 0x0480 ++
  (if !staticRuns role n w then [] else match mapForm tables (F.RFE_DEFECT_MAP.get n w) with
    | none => [0x0480 + n]
    | some m => fail (!(ascending m && m.all fun e =>
        decide (e.1 < activeW n w (seamW w n) ∧ e.2 < activeH n w))) 0x0498) ++
  fail (role != .head && F.TAP_SRC_SEAM.get (F.STATS_LUMA_TAP.get n w) w != n) 0x0680

/-- The checks of the front end of the active seams. [DEDUCED, log 32] -/
def rfeChecks (role : Role) (w : Words) (tables : List (Nat × List Byte)) : List (Nat × Nat × List Nat) :=
  (activeSeams w).flatMap fun n => (rfeFailures role w tables n).map fun c => (c, n, [])

/-! ### Checks of taps, adits and compression (R173, R186, R190, R195, R197, R230, R231) -/

/-- Consumers bound to a tap (R190). -/
def tapConsumers (t : Nat) (w : Words) : Nat :=
  ((List.range 8).filter fun m => F.CODEC_STRM_ENABLE.on m w && !F.CODEC_STRM_DIR.on m w && !F.CODEC_STRM_SRC_KIND.on m w &&
    F.CODEC_STRM_SRC_INDEX.get m w == t).length +
  ((List.range 4).filter fun k => F.SDI_ENABLE.on k w && F.SDI_SRC_KIND.get k w == 0 && F.SDI_SRC_INDEX.get k w == t).length +
  ((List.range 16).filter fun n => F.SND_ENABLE.on n w && F.SND_KIND.get n w != 1 && F.SND_SRC_KIND.get n w == 0 &&
    F.SND_SRC_INDEX.get n w == t).length +
  ((List.range 2).filter fun k => F.VF_PANEL_ENABLE.on k w && F.VF_SRC_TAP_EN.on k w && F.VF_SRC_TAP_SRC.get k w == t).length

/-- Consumers bound to an adit: its record stream and a host reader (R190, R196). -/
def aditConsumers (a : Nat) (w : Words) : Nat :=
  b2n ((List.range 8).any fun j => F.REC_ENABLE.on j w && F.REC_KIND.get j w == 0 && F.REC_SOURCE.get j w == a) +
    b2n (F.ADIT_HOST_READ.on a w)

/-- The size of a tap's input (R172). -/
def tapInSize (t : Nat) (w : Words) : Nat × Nat :=
  let n := F.TAP_SRC_SEAM.get t w
  let d := if t < 2 then 1 else 2
  (activeW n w (seamW w n) / d, activeH n w / d)

/-- The tap rules of R173 and R190. -/
def tapOk (role : Role) (t : Nat) (w : Words) : Bool :=
  let (iw, ih) := tapInSize t w
  let ow := F.TAP_SRC_OUT_W.get t w
  let oh := F.TAP_SRC_OUT_H.get t w
  role != .head && seamActive w (F.TAP_SRC_SEAM.get t w) &&
  decide (iw ≤ 16 * ow ∧ ow ≤ 2 * iw ∧ ih ≤ 16 * oh ∧ oh ≤ 2 * ih ∧ ow * oh ≤ iw * ih ∧ ow % 2 = 0) &&
  (F.TAP_SRC_FORMAT.get t w != 2 || oh % 2 == 0) && decide (tapConsumers t w + 2 ≤ F.TAP_SRC_DEPTH.get t w)

/-- Whether a coefficient payload is valid: 64 phases of 8 taps that sum to 4,096 (R186). -/
def coeffOk (tables : List (Nat × List Byte)) (i : Nat) : Bool :=
  let c := coeffs (payload tables i)
  sized tables i 1024 && (List.range 64).all fun p => ((c.drop (8 * p)).take 8).sum == 4096

/-- The failures of a tap's payloads (R197). [DEDUCED, log 32] -/
def tapTableFailures (t : Nat) (w : Words) (tables : List (Nat × List Byte)) : Nat :=
  let (iw, ih) := tapInSize t w
  b2n (F.TAP_TONE_SHAPER_EN.on t w && !sized tables (F.TAP_TONE_SHAPER_TABLE.get t w) 8192) +
  b2n (F.TAP_TONE_CURVE.get t w == 4 && !sized tables (F.TAP_TONE_CURVE_TABLE.get t w) 8192) +
  b2n (F.TAP_SRC_OUT_W.get t w != iw && !coeffOk tables (F.TAP_SCALE_H_COEFF.get t w)) +
  b2n (F.TAP_SRC_OUT_H.get t w != ih && !coeffOk tables (F.TAP_SCALE_V_COEFF.get t w))

/-- The checks of the enabled taps. [DEDUCED, log 32] -/
def tapChecks (role : Role) (w : Words) (tables : List (Nat × List Byte)) : List (Nat × Nat × List Nat) :=
  ((List.range 8).filter fun t => F.TAP_SRC_ENABLE.on t w).flatMap fun t =>
    (if tapOk role t w then [] else [(tapErr t 1, t, [])]) ++ List.replicate (tapTableFailures t w tables) (tapErr t 2, t, [])

/-- The adit rules of R190, R195 and R204. -/
def aditOk (role : Role) (a : Nat) (w : Words) : Bool :=
  let ba := F.ADIT_DEPTH.get a w
  let f := F.ADIT_FRAC.get a w
  role != .head && seamActive w (F.ADIT_SEAM.get a w) && decide (ba ≤ f + 4 ∧ f ≤ ba) &&
    decide (aditConsumers a w + 2 ≤ F.ADIT_BUFS.get a w)

/-- KCODE of an adit is 5 to 7 (R264, R267). -/
def kcodeBad (w : Words) (a : Nat) : Bool := !F.CMP_KCODE.okValue (F.CMP_KCODE.get a w)

/-- The checks of the adits and of compression. [DEDUCED, log 32] -/
def aditChecks (role : Role) (w : Words) : List (Nat × Nat × List Nat) :=
  ((List.range 4).filter fun a => F.ADIT_ENABLE.on a w && !aditOk role a w).map (fun a => (0x04A0 + a, a, [])) ++
  ((List.range 4).filter fun a =>
    let d := aditDims w a
    kcodeBad w a || !compOk w a d.1 d.2.1 (F.ADIT_POINT.get a w)).map (fun a => (0x0701, a, [])) ++
  (if role == .head then
    ((activeSeams w).filter fun n => sentCompressed w n && decide (seamW w n * seamH w n < 8192)).map fun n => (0x0701, n, [])
   else [])

/-! ### LUTs (R179 to R181) -/

/-- The units a LUT of a size occupies from a first unit. -/
def lutUnits (u : Nat) (big : Bool) : List Nat := if big then (List.range 8).map (u + ·) else [u]

/-- The LUT units that a tap's settings select; with LUT_EN 0 they select none (R181). [DEDUCED, log 31] -/
def tapUnits (t : Nat) (w : Words) : List Nat :=
  if F.TAP_SRC_ENABLE.on t w && F.TAP_TONE_LUT_EN.on t w then lutUnits (F.TAP_TONE_LUT_UNIT.get t w) (F.TAP_TONE_LUT_SIZE.on t w) else []

/-- Whether a unit belongs to a LUT in use (R181). -/
def lutInUse (u : Nat) (s : State) : Bool :=
  (List.range 8).any fun t =>
    let n := cfgN F.TAP_SRC_SEAM t s
    (tapUnits t s.cfg.accepted).contains u || (tapUnits t (seamOf n s).committed).contains u ||
      (seamOf n s).frames.any fun f => (tapUnits t f.bound).contains u

/-- Whether settings select units that are still loading (R181): the taps at fault. [DEDUCED, log 31] -/
def lutBusy (w : Words) (s : State) : List Nat :=
  (List.range 8).filter fun t => (tapUnits t w).any fun u => s.cap.luts.getD u .empty == .loading

/-- Bytes of a LUT (R180). -/
def lutSize (big : Bool) : Nat := if big then 1647750 else 215622

/-- Sets LUT units. -/
def setUnits (us : List Nat) (v : LutUnit) (l : List LutUnit) : List LutUnit := us.foldl (fun m u => modAt m u fun _ => v) l

/-- The values of parity class `c` of a 65^3 LUT given in index order (R179). -/
def parityNodes (c : Nat) (l : List Nat) : List Nat :=
  (List.range 274625).flatMap fun i =>
    if (parityPlace (i % 65) (i / 65 % 65) (i / 4225)).1 = c then (l.drop (3 * i)).take 3 else []

/-- Stores a loaded LUT in its units: one, or one for each parity class (R179). -/
def storeLut (u : Nat) (big : Bool) (v : List Nat) (luts : List LutUnit) : List LutUnit :=
  if big then (List.range 8).foldl (fun l c => modAt l (u + c) fun _ => .parity c (parityNodes c v)) luts
  else modAt luts u fun _ => .valid 33 v

/-- The last piece of a LUT: it becomes selectable, or its units are emptied (R198). [DEDUCED, log 31] -/
def endLut (t u : Nat) (big : Bool) (end_ crc : Nat) (data : List Byte) (s : State) : Answer × State :=
  let us := lutUnits u big
  let drop := modCap (fun c => { c with lutLoads := c.lutLoads.filter fun x => x.first != u })
  if end_ = lutSize big ∧ data.length = lutSize big ∧ crc32 data = crc then
    (.accept [], drop (modCap (fun c => { c with luts := storeLut u big (halfwords data) c.luts }) s))
  else
    (.refuse 7 (tapErr t 2) 0, raise 0 (tapErr t 2) t [] (drop (modCap (fun c => { c with luts := setUnits us .empty c.luts }) s)))

/-- Message 0x05t1: LUT load. [DEDUCED, log 31] -/
def lutLoadMsg (t : Nat) : MsgDef :=
  { count := fun c => c == 4 || c == 5, masks := [0x37F, 0xFFFFFFFF, 0xFFFFFFFF, 0xFFFFFFFF], blk := .colour,
    bad := fun r _ => r.words.length != (if bits (r.w 1) 9 9 == 1 then 5 else 4) || decide (111 < bits (r.w 1) 6 0) ||
      decide (0x100000 < r.w 3) || r.w 3 % 6 != 0 || decide (lutSize (bits (r.w 1) 8 8 == 1) < r.w 2 + r.w 3),
    act := fun r _ s =>
      let u := bits (r.w 1) 6 0
      let big := bits (r.w 1) 8 8 == 1
      let us := lutUnits u big
      if !holdsBulk r.path s then (.refuse 5 0 0, s)
      else if big && u % 8 != 0 then (.refuse 7 0 0, s)
      else
        let mine := s.cap.lutLoads.find? fun x => x.first == u && x.size == b2n big
        let busy := us.any fun k => lutInUse k s || (mine.isNone && s.cap.luts.getD k .empty == .loading)
        if busy then (.refuse 5 (tapErr t 4) 0, raise 0 (tapErr t 4) t [] s)
        else
          let data := overlay ((mine.map (·.bytes)).getD []) (r.w 2) (readBulk 0 (r.w 3) s)
          if bits (r.w 1) 9 9 = 1 then endLut t u big (r.w 2 + r.w 3) (r.w 4) data s
          else
            (.accept [], modCap (fun c => { c with
              luts := setUnits us .loading c.luts
              lutLoads := (c.lutLoads.filter fun x => x.first != u) ++ [⟨u, b2n big, data⟩] }) s) }

/-! ### Messages (R159, R196, R198) -/

/-- Message 0x0400 + s: front-end status. -/
def frontEndStatusMsg (n : Nat) : MsgDef :=
  { blk := .frontHead, status := true,
    act := fun _ _ s =>
      let r := s.cap.rfe.getD n {}
      (.accept ((List.range 4).map (fun i => r.k.getD i 0) ++ [r.unchanged, r.dynamic]), s) }

/-- Message 0x0600 + s: statistics fetch. -/
def statisticsFetchMsg (n : Nat) : MsgDef :=
  { count := fun c => c == 2, masks := [0xFFFFFFFF], blk := .frontBody,
    bad := fun r _ => r.w 1 % 64 != 0 || decide (0xE3FC0 < r.w 1),
    act := fun r _ s =>
      if !holdsBulk r.path s then (.refuse 5 0 0, s)
      else match newestStat (seamEpoch n s) (s.cap.stats.getD n {}) with
      | none => (.refuse 7 0 0, s)
      | some b => (.accept (loWords 2 b.data.num ++ [b.data.tag, 114752]), writeBulk (r.w 1) (statBytes n b) s) }

/-- Message 0x05t0: tap status. -/
def tapStatusMsg (t : Nat) : MsgDef :=
  { blk := .colour, status := true,
    act := fun _ _ s =>
      let r := s.cap.taps.getD t {}
      let n := cfgN F.TAP_SRC_SEAM t s
      let u := F.TAP_TONE_LUT_UNIT.get t (seamOf n s).committed
      (.accept ([b2n (cfgB F.TAP_SRC_ENABLE t s) + n * 2 ^ 8 + u * 2 ^ 16, r.published % 2 ^ 32, r.skipped] ++ loWords 2 r.lastNum), s) }

/-- Message 0x0430 + n: adit status. -/
def aditStatusMsg (n : Nat) : MsgDef :=
  { blk := .colour, status := true,
    act := fun _ _ s =>
      let r := s.cap.adits.getD n {}
      (.accept [b2n (cfgB F.ADIT_ENABLE n s) + cfgN F.ADIT_SEAM n s * 2 ^ 8 + cfgN F.ADIT_POINT n s * 2 ^ 12,
        r.published % 2 ^ 32, r.skipped], s) }

/-- The buffer of an adit that the host reader holds. -/
def hostHeld (r : OutRing) : Option OutBuf := r.bufs.find? fun b => b.holders.contains .host

/-- The host reader lets go (R196). -/
def hostRelease (n : Nat) (s : State) : State := modCap (fun c => { c with adits := modAt c.adits n (holdOut .host none) }) s

/-- The host reader takes hold of the latest published buffer, unless it holds one (R196). [DEDUCED, log 34] -/
def hostTake (n : Nat) (s : State) : State :=
  let r := s.cap.adits.getD n {}
  if (hostHeld r).isSome then s
  else match newestCurrent (seamEpoch (cfgN F.ADIT_SEAM n s) s) r with
    | some i => modCap (fun c => { c with adits := modAt c.adits n (holdOut .host (some i)) }) s
    | none => s

/-- Message 0x0434 + n: adit read (R196). [DEDUCED, log 34] -/
def aditReadMsg (n : Nat) : MsgDef :=
  { count := fun c => c == 4, masks := [0xFFFFFFFF, 0xFFFFFFFF, 1], blk := .colour,
    bad := fun r _ => decide (0x100000 < r.w 2),
    act := fun r _ s =>
      if !holdsBulk r.path s then (.refuse 5 0 0, s)
      else if !cfgB F.ADIT_ENABLE n s || !cfgB F.ADIT_HOST_READ n s then (.refuse 7 0 0, s)
      else
        let t := hostTake n s
        match hostHeld (t.cap.adits.getD n {}) with
        | none => (.refuse 7 0 0, s)
        | some b =>
          let l := ((bufBytes b).drop (r.w 1)).take (r.w 2)
          let u := writeBulk 0 l t
          (.accept (loWords 2 b.pic.header.num ++ [l.length]), if r.w 3 = 1 then hostRelease n u else u) }

/-- ADIT_HOLD_EXPIRY (R196): 1 s with no request. [DEDUCED, log 34] -/
def execAditHoldExpiry (n : Nat) (s : State) : Res := .next (hostRelease n s)

end Sys2Proof.Machine
end

