-- ==== Sys2Proof/Machine/Contents.lean ====
section
/-! DEFINITION. What the fixed allocations of R644 hold: the rings, buffers and maps that the blocks keep, as bytes of DRAM. -/

namespace Sys2Proof.Machine

/-- What an allocation holds at an offset; none where the state keeps no bytes of a block for it. -/
abbrev Content := Nat → Option Byte

/-- An allocation that begins with these bytes. -/
def plainContent (l : List Byte) : Content := fun o => l[o]?

/-- A ring of `size` bytes that holds `l` from the absolute position `base` on (R301). -/
def ringContent (size base : Nat) (l : List Byte) : Content := fun o => if size = 0 then none else l[(o + size - base % size) % size]?

/-- The sample bytes of a frame's line pair: 16-bit words, right-justified (R100). -/
def lineByte (l : List Nat) (o : Nat) : Option Byte := (l[o / 2]?).map fun v => BitVec.ofNat 8 (v / 2 ^ (8 * (o % 2)))

/-- A seam ring (R100): slot `k` counts the slots claimed so far, and a frame's slots follow one another round the ring. -/
def seamContent (n : Nat) (s : State) : Content := fun o =>
  let w := s.cfg.accepted
  let rows := if stripeMode s.dev.role w n then stripeLines w n else seamH w n
  let pitch := 2 * seamW w n
  let depth := (seamOf n s).ringDepth
  if pitch = 0 ∨ rows = 0 ∨ depth = 0 then none
  else
    let slot := o / (rows * pitch)
    let y := o / pitch % rows
    (seamOf n s).frames.findSome? fun f =>
      ((List.range f.claimed).find? fun k => (f.slot + k) % depth == slot).bind fun k =>
        (f.lines[k * rows + y]?).bind fun l => lineByte l (o % pitch)

/-- The Lode Map: eight bytes per granule, as written back (R332). -/
def mapContent (s : State) : Content := fun o =>
  let e := (((mapInDram s.rcd).lookup (o / 8)).map mapEntryBits).getD 0
  some (BitVec.ofNat 8 (e / 2 ^ (8 * (o % 8))))

/-- The statistics buffers of the active seams (R154, R157). -/
def statContents (s : State) : List Content :=
  (activeSeams s.cfg.accepted).flatMap fun n => (s.cap.stats.getD n {}).bufs.map fun b => plainContent (statBytes n b)

/-- The output buffers of taps, adits and decode streams (R188, R191). -/
def outContents (s : State) : List Content :=
  let w := s.cfg.accepted
  let ring := fun (r : OutRing) => r.bufs.map fun b => plainContent (bufBytes b)
  (((List.range 8).filter fun t => F.TAP_SRC_ENABLE.on t w).flatMap fun t => ring (s.cap.taps.getD t {})) ++
  (((List.range 4).filter fun a => F.ADIT_ENABLE.on a w).flatMap fun a => ring (s.cap.adits.getD a {})) ++
  ((streamsOf s.dev.role true w).flatMap fun m => ring (decOf m s).out)

/-- `n` pictures, of which the state keeps the first. -/
def pictureContents (n : Nat) (ps : List (List Plane)) : List Content :=
  (List.range n).map fun i => match ps[i]? with
    | some p => plainContent (p.flatMap planeBytes)
    | none => fun _ => none

/-- Codec rings, index rings, reference pictures and DPBs (R301, R302, R309). -/
def codecContents (s : State) : List Content :=
  let w := s.cfg.accepted
  ((streamsOf s.dev.role false w).flatMap fun m =>
    let x := encOf m s
    [ringContent (F.CODEC_STRM_RING_BYTES.get m w) x.base x.ring, plainContent (x.index.reverse.flatMap auRecordBytes)] ++
    (if intraStream w m then [] else pictureContents (F.CODEC_RC_REFS.get m w + 1) (x.refs.map (·.1)))) ++
  ((streamsOf s.dev.role true w).flatMap fun m =>
    let dims := F.CODEC_PIC_OUT_W.get m w * F.CODEC_PIC_OUT_H.get m w
    [fun _ => none] ++ pictureContents (maxDpb (F.CODEC_STRM_LEVEL.get m w) dims + 1) ((decOf m s).dpb.map (·.planes)))

/-- The ring of an audio port: a block stands in the slot of its number (R610). -/
def audioContent (p : Nat) (s : State) : Content := fun o =>
  let n := F.AUD_BUFS.get p s.cfg.accepted
  ((audOf p s).ring.find? fun b => b.num % n == o / 528).bind fun b => (slotBytes b)[o % 528]?

/-- What the allocations of an item hold, in their order (R644). [DESIGN CHOICE, log 79] -/
def contentsOf (item : Nat) (s : State) : List Content :=
  match item with
  | 2 => [mapContent s]
  | 4 => statContents s
  | 5 => outContents s
  | 6 => codecContents s
  | 8 => ((List.range 8).filter fun p => F.AUD_ENABLE.on p s.cfg.accepted).map fun p => audioContent p s
  | 9 => (activeSeams s.cfg.accepted).map fun n => seamContent n s
  | _ => []

/-- The byte of a block's buffer or ring at a device address (R100, R154, R188, R644); none where the address belongs to none
whose bytes the state keeps. [DESIGN CHOICE, log 79] -/
def blockByte (a : Nat) (s : State) : Option Byte :=
  (s.dram.alloc.find? fun x => decide (x.2.1 ≤ a ∧ a < x.2.1 + x.2.2)).bind fun x =>
    let k := (s.dram.alloc.filter fun y => y.1 == x.1 && decide (y.2.1 < x.2.1)).length
    ((contentsOf x.1 s)[k]?).bind fun c => c (a - x.2.1)

end Sys2Proof.Machine
end

