-- ==== Sys2Proof/Machine/Endpoint.lean ====
section
/-! DEFINITION. The host storage endpoint: doorbells, fetching, range locks, admin and I/O commands, self-tests, resets
(chapter 10, R362 to R388). The layouts of NVMe structures follow the NVM Express Base Specification 2.0 that the chapter
names. -/

namespace Sys2Proof.Machine

/-! ### The namespace (R364 to R366) -/

/-- NSZE: LBAs of the namespace, zero while the volume is not mounted. -/
def nsze (s : State) : Nat := if s.rcd.volume = 0 then 0 else s.rcd.vgCount * volG s / 4096

/-- Byte `o` of a member's namespace 1, as the Reel Volume Format lays it out (R325). -/
def mediaByte (code vg : Nat) (m : Media) (o : Nat) : Byte :=
  let chk := fun (map : LodeMap) (i : Nat) =>
    let v := i / 8
    let e := if v < volV0 code ∨ vg ≤ v then 3 * 2 ^ 62 else ((map.lookup v).map mapEntryBits).getD 0
    (leBytes 8 e).getD (i % 8) 0
  if o < 0x1000 then m.sb0.getD o 0
  else if o < 0x2000 then m.sb1.getD (o - 0x1000) 0
  else if o < 0x100000 then 0
  else if o < 0x10100000 then
    let i := o - 0x100000
    ((m.journal.find? fun e => decide (e.1 ≤ i ∧ i < e.1 + e.2.length)).map fun e => e.2.getD (i - e.1) 0).getD 0
  else if o < 0x18100000 then chk m.chkA (o - 0x10100000)
  else if o < 0x20100000 then chk m.chkB (o - 0x18100000)
  else if o < 0x20500000 then ((m.dir.lookup ((o - 0x20100000) / 1024)).getD []).getD ((o - 0x20100000) % 1024) 0
  else if o < 0x21000000 then 0
  else ((m.slots.lookup ((o - 0x21000000) / granBytes code)).getD []).getD ((o - 0x21000000) % granBytes code) 0

/-- Bytes of a member's namespace 1. -/
def mediaBytes (code vg : Nat) (m : Media) (o n : Nat) : List Byte := (List.range n).map fun i => mediaByte code vg m (o + i)

/-- First LBA and number of LBAs of an I/O command. -/
def lbaRange (c : NvmeCmd) : Nat × Nat := (c.cdw10 + c.cdw11 * 2 ^ 32, c.cdw12 % 65536 + 1)

/-- Whether a command writes (R374). -/
def isWrite (c : NvmeCmd) : Bool := c.opc == 1 || c.opc == 8

/-- Whether two I/O commands conflict (R374); a Flush holds an empty range. [DESIGN CHOICE, log 51] -/
def conflicts (a b : NvmeCmd) : Bool :=
  let ra := lbaRange a
  let rb := lbaRange b
  a.opc != 0 && b.opc != 0 && (isWrite a || isWrite b) && decide (ra.1 < rb.1 + rb.2 ∧ rb.1 < ra.1 + ra.2)

/-- Outstanding I/O commands. -/
def ioCmds (s : State) : List HostCmd := s.ep.cmds.filter fun c => c.sq != 0

/-- Whether a command has to wait on a range lock (R374). -/
def lockWait (c : HostCmd) (s : State) : Bool := (ioCmds s).any fun d => decide (d.arrival < c.arrival) && conflicts d.cmd c.cmd

/-! ### The PCIe function (R362, R363) -/

/-- A base address register: 64-bit, prefetchable, size in bytes. -/
structure Bar where
  wide : Bool
  prefetch : Bool
  size : Nat
deriving DecidableEq, Repr

/-- The PCIe function of EP0 (R362). -/
structure PcieFn where
  classCode : Nat
  vendor : Nat
  device : Nat
  subVendor : Nat
  subsystem : Nat
  bars : List (Nat × Bar)
  vectors : Nat
  maxPayload : Nat
  sriov : Bool
  ats : Bool
  pasid : Bool
  resizable : Bool
  aer : Bool
deriving DecidableEq, Repr

/-- What EP0 shows the host (R362). -/
def pcieFn (s : State) : PcieFn :=
  { classCode := 0x010802, vendor := 0x1F5A, device := 0x1600, subVendor := cfgN F.EP0_SSVID 0 s, subsystem := cfgN F.EP0_SSID 0 s
    bars := [(0, ⟨true, false, 0x4000⟩), (2, ⟨true, false, 0x200000⟩)], vectors := 18, maxPayload := 512
    sriov := false, ats := false, pasid := false, resizable := false, aer := true }

/-- The CAP register (R363); fields not listed are zero. [PRESUMED, log 49] -/
def capRegister (s : State) : Nat := cfgN F.EP0_MQES 0 s + 1 * 2 ^ 16 + 10 * 2 ^ 24 + 1 * 2 ^ 37

/-- A register of BAR0 below the doorbells, 32 bits wide: CAP, VS and CSTS (R363, R384). [PRESUMED, log 49] -/
def nvmeRegister (off : Nat) (s : State) : Nat :=
  if off = 0x00 then capRegister s % 2 ^ 32
  else if off = 0x04 then capRegister s / 2 ^ 32
  else if off = 0x08 then 0x00020000
  else if off = 0x14 then b2n s.ep.ready
  else if off = 0x1C then b2n s.ep.ready + b2n s.ep.fatal * 2 + s.ep.shst * 4
  else 0

/-! ### Doorbells and fetching (R372, R373) -/

/-- DOORBELL_WRITE (R372): the host announces submission entries or frees completion entries. -/
def execDoorbellWrite (isCq : Bool) (qid value : Nat) (cmds : List NvmeCmd) (s : State) : Res :=
  .next (if !epOn s || !s.ep.ready then s
    else if isCq then
      match s.ep.cqs.find? fun q => q.id == qid with
      | some q =>
        if q.size ≤ value then pushEvent (1 * 2 ^ 8 + 1 * 2 ^ 16) s
        else
          let n := (value + q.size - q.head) % q.size
          postHeld q.held.length qid (modCq qid (fun q => { q with head := value, posted := q.posted.drop n }) s)
      | none => pushEvent (1 * 2 ^ 16) s
    else
      match s.ep.sqs.find? fun q => q.id == qid with
      | some q =>
        if q.size ≤ value then pushEvent (1 * 2 ^ 8 + 1 * 2 ^ 16) s
        else
          let n := (value + q.size - q.tail) % q.size
          modEp (fun e => { e with sqs := e.sqs.map fun x => if x.id = qid then
            { x with tail := value, entries := x.entries ++ cmds.take n } else x }) s
      | none => pushEvent (1 * 2 ^ 16) s)

/-- The opcodes of R369 and R370. -/
def knownOpcode (admin : Bool) (o : Nat) : Bool :=
  if admin then [0, 1, 2, 4, 5, 6, 8, 9, 0xA, 0xC, 0x14].contains o else [0, 1, 2, 8].contains o

/-- Commands of an opcode outstanding on the admin queue. -/
def adminCount (o : Nat) (s : State) : Nat := (s.ep.cmds.filter fun c => c.sq == 0 && c.cmd.opc == o).length

/-- One command is fetched from a queue and accepted (R372, R373). [DESIGN CHOICE, log 51] -/
def fetchOne (qid : Nat) (s : State) : State :=
  match s.ep.sqs.find? fun q => q.id == qid with
  | none => s
  | some q =>
    match q.entries with
    | [] => s
    | c :: _ =>
      let a := s.ep.arrivals + 1
      let t := modEp (fun e => { e with
        arrivals := a
        sqs := e.sqs.map fun x => if x.id = qid then
          { x with entries := x.entries.drop 1, head := (x.head + 1) % max 1 x.size } else x }) s
      if t.ep.cmds.any fun d => d.sq == qid && d.cmd.cid == c.cid then completeOn qid c a 0x003 0 [] t
      else if !knownOpcode (qid == 0) c.opc then completeOn qid c a 0x001 0 [] t
      else if qid = 0 ∧ c.opc = 8 ∧ 4 ≤ adminCount 8 t then completeOn qid c a 0x103 0 [] t
      else if qid = 0 ∧ c.opc = 0xC ∧ 4 ≤ adminCount 0xC t then completeOn qid c a 0x105 0 [] t
      else
        let h : HostCmd := { arrival := a, sq := qid, cmd := c }
        let stall := qid != 0 && lockWait h t
        modEp (fun e => { e with cmds := e.cmds ++ [h], stalls := if stall then wrapInc 64 e.stalls else e.stalls }) t

/-- Every waiting admin command, at most `n`. -/
def fetchAdmin : Nat → State → State
  | 0, s => s
  | n + 1, s => fetchAdmin n (fetchOne 0 s)

/-- COMMAND_FETCH (R372, R373): one turn. -/
def execCommandFetch (s : State) : Res :=
  .next (if !epReady s || s.ep.shst != 0 then s
    else
      let n := ((s.ep.sqs.find? fun q => q.id == 0).map fun q => q.entries.length).getD 0
      let ids := ((s.ep.sqs.map (·.id)).filter (· != 0)).mergeSort fun a b => decide (a ≤ b)
      ids.foldl (fun t q => if (ioCmds t).length < 4096 then fetchOne q t else t) (fetchAdmin n s))

/-- RANGE_LOCK_BEGIN (R374): an accepted I/O command begins when nothing earlier conflicts. -/
def execRangeLockBegin (arrival : Nat) (s : State) : Res :=
  .next (match hostCmd arrival s with
    | some c => if c.sq != 0 && !lockWait c s then
        modEp (fun e => { e with cmds := e.cmds.map fun d => if d.arrival = arrival then { d with begun := true } else d }) s
      else s
    | none => s)

/-! ### Queue commands (R369) -/

/-- Runs an admin command of an opcode: its answer is a status, Dword 0 and data, and a change of the state. -/
def runAdmin (opc arrival : Nat) (f : HostCmd → State → (Nat × Nat × List Byte) × State) (s : State) : State :=
  match hostCmd arrival s with
  | some c =>
    if c.sq == 0 && c.cmd.opc == opc && !c.done && epReady s then
      let (r, t) := f c s
      finishCmd arrival r.1 r.2.1 r.2.2 t
    else s
  | none => s

/-- A status alone. -/
def stat (st : Nat) (s : State) : (Nat × Nat × List Byte) × State := ((st, 0, []), s)

/-- Whether a queue identifier and size are good: the status, 0 for good. [PRESUMED, log 16] -/
def queueCheck (c : NvmeCmd) (taken : Bool) (s : State) : Nat :=
  let qid := c.cdw10 % 65536
  let size := c.cdw10 / 65536 + 1
  if qid = 0 ∨ cfgN F.EP0_IOQ_MAX 0 s < qid ∨ taken then 0x101
  else if size < 2 ∨ cfgN F.EP0_MQES 0 s + 1 < size then 0x102
  else if c.cdw11 % 2 = 0 ∨ c.prp1 % 4096 ≠ 0 then 0x002
  else 0

/-- CREATE_IO_CQ (R369). -/
def execCreateIoCq (arrival : Nat) (s : State) : Res :=
  .next (runAdmin 5 arrival (fun h s =>
    let c := h.cmd
    let qid := c.cdw10 % 65536
    let bad := queueCheck c (s.ep.cqs.any fun q => q.id == qid) s
    if bad ≠ 0 then stat bad s
    else if 16 < c.cdw11 / 65536 then stat 0x108 s
    else stat 0 (modEp (fun e => { e with cqs := e.cqs ++
      [{ id := qid, size := c.cdw10 / 65536 + 1, vector := c.cdw11 / 65536, ien := c.cdw11 / 2 % 2 == 1 }] }) s)) s)

/-- CREATE_IO_SQ (R369). [PRESUMED, log 49] -/
def execCreateIoSq (arrival : Nat) (s : State) : Res :=
  .next (runAdmin 1 arrival (fun h s =>
    let c := h.cmd
    let qid := c.cdw10 % 65536
    let cq := c.cdw11 / 65536
    let bad := queueCheck c (s.ep.sqs.any fun q => q.id == qid) s
    if bad ≠ 0 then stat bad s
    else if cq = 0 ∨ !(s.ep.cqs.any fun q => q.id == cq) then stat 0x101 s
    else stat 0 (modEp (fun e => { e with sqs := e.sqs ++ [{ id := qid, size := c.cdw10 / 65536 + 1, cq := cq }] }) s)) s)

/-- DELETE_IO_SQ (R369, R385): commands outstanding on it complete as aborted. -/
def execDeleteIoSq (arrival : Nat) (s : State) : Res :=
  .next (runAdmin 0 arrival (fun h s =>
    let qid := h.cmd.cdw10 % 65536
    if qid = 0 ∨ !(s.ep.sqs.any fun q => q.id == qid) then stat 0x101 s
    else
      let out := (s.ep.cmds.filter fun c => c.sq == qid).map (·.arrival)
      let t := out.foldl (fun u a => finishCmd a 0x008 0 [] u) s
      stat 0 (modEp (fun e => { e with sqs := e.sqs.filter fun q => q.id != qid }) t)) s)

/-- DELETE_IO_CQ (R369). -/
def execDeleteIoCq (arrival : Nat) (s : State) : Res :=
  .next (runAdmin 4 arrival (fun h s =>
    let qid := h.cmd.cdw10 % 65536
    if qid = 0 ∨ !(s.ep.cqs.any fun q => q.id == qid) then stat 0x101 s
    else if s.ep.sqs.any fun q => q.cq == qid then stat 0x10C s
    else stat 0 (modEp (fun e => { e with cqs := e.cqs.filter fun q => q.id != qid }) s)) s)

/-! ### Identify and log pages (R363, R364, R371) -/

/-- A block of `n` bytes with fields placed at their offsets. -/
def image (n : Nat) (fs : List (Nat × List Byte)) : List Byte :=
  fs.foldl (fun a f => overlay a f.1 f.2) (List.replicate n 0)

/-- An uppercase hexadecimal digit. -/
def hexDigit (v : Nat) : Byte := BitVec.ofNat 8 (if v < 10 then 48 + v else 55 + v)

/-- `n` uppercase hexadecimal characters of a value. -/
def hexText : Nat → Nat → List Byte
  | 0, _ => []
  | n + 1, v => hexText n (v / 16) ++ [hexDigit (v % 16)]

/-- ASCII text padded with spaces to `n` characters. -/
def padText (n : Nat) (l : List Byte) : List Byte := l.take n ++ List.replicate (n - l.length) 32

/-- Identify Controller (R363). [PRESUMED, log 16; PRESUMED, log 49] -/
def identifyController (s : State) : List Byte :=
  let mn := [86, 97, 110, 103, 105, 115, 32, 71, 89, 49, 54, 48, 48].map (BitVec.ofNat 8)
  image 4096
    [(0, leBytes 2 (pcieFn s).vendor), (2, leBytes 2 (pcieFn s).subVendor), (4, padText 20 (hexText 16 s.otp.serial)), (24, padText 40 mn),
     (64, padText 8 (hexText 8 (s.cfg.images.getD 0 {}).version)), (77, [8]), (78, leBytes 2 1), (80, leBytes 4 0x00020000),
     (256, leBytes 2 0x0010), (258, [3]), (259, [3]), (262, [15]), (263, [0]), (316, leBytes 2 120), (318, [1]),
     (512, [0x66]), (513, [0x44]), (516, leBytes 4 1), (520, leBytes 2 0x0008), (525, [0x07])]

/-- Identify Namespace (R364, R367). [PRESUMED, log 16] -/
def identifyNamespace (s : State) : List Byte :=
  let n := nsze s
  let written := (s.rcd.map.filter fun e => e.2.state == 2).length * volG s / 4096
  image 4096
    [(0, leBytes 8 n), (8, leBytes 8 n), (16, leBytes 8 (if n = 0 then 0 else written)),
     (99, leBytes 1 (b2n (s.rcd.volume == 1))), (104, if n = 0 then List.replicate 16 0 else padTo 16 s.rcd.volumeId),
     (128, leBytes 4 (12 * 2 ^ 16))]

/-- IDENTIFY (R369). -/
def execIdentify (arrival : Nat) (s : State) : Res :=
  .next (runAdmin 6 arrival (fun h s =>
    let c := h.cmd
    let cns := c.cdw10 % 256
    let ns := fun (l : List Byte) => if c.nsid = 1 then ((0, 0, l), s) else stat 0x00B s
    if c.prp1 % 4 ≠ 0 then stat 0x002 s
    else match cns with
    | 0 => ns (identifyNamespace s)
    | 1 => ((0, 0, identifyController s), s)
    | 2 => ((0, 0, image 4096 [(0, leBytes 4 (b2n (c.nsid == 0)))]), s)
    | 3 => ns (image 4096 [(0, [2, 16, 0, 0]), (4, padTo 16 s.rcd.volumeId)])
    | _ => stat 0x002 s) s)


/-- Segments of a test: four of the short one, six of the extended one (R379). -/
def testSegments (code : Nat) : Nat := if code = 2 then 6 else 4

/-- Steps of a segment, a member read of at most 1 MiB each (R379, R380). [DESIGN CHOICE, log 50] -/
def segSteps (k : Nat) (s : State) : Nat :=
  let r := s.rcd
  max 1 (match k with
    | 1 => 2 * r.members.length
    | 2 => 128
    | 4 => r.members.length
    | 5 => ceilDiv (jrnHeld r) 0x100000
    | 6 => (r.map.filter fun e => e.2.state == 2).length
    | _ => 1)

/-- Percent of a test that is done (R380). -/
def testPercent (t : SelfTest) (s : State) : Nat :=
  let n := fun (k : Nat) => ((List.range k).map fun i => segSteps (i + 1) s).sum
  (n (t.segment - 1) + t.step) * 100 / n (testSegments t.code)

/-- The log pages of R371. [PRESUMED, log 16; DESIGN CHOICE, log 48] -/
def logPage (lid : Nat) (s : State) : Option (List Byte) :=
  let e := s.ep
  match lid with
  | 1 => some (image 1024 (e.errorLog.zipIdx.map fun p =>
      let v := fun (k : Nat) => p.1.getD k 0
      (64 * p.2, leBytes 8 (v 0) ++ leBytes 2 (v 1) ++ leBytes 2 (v 2) ++ leBytes 2 (v 3 * 2) ++ leBytes 2 0 ++ leBytes 8 (v 4) ++
        leBytes 4 1)))
  | 2 =>
    let ms := s.rcd.members
    let worst := fun (f : Nat) => (ms.map fun m => Config.ssdSmart s.drawn m f).foldl max 0
    let spare := (ms.map fun m => Config.ssdSmart s.drawn m 1).foldl min 100
    let base := (List.range 512).map fun i => Config.smartByte s.drawn i

    let fs : List (Nat × List Byte) :=
      [(0, leBytes 1 (b2n (tempWarn s) * 2 + b2n (s.rcd.volume == 1) * 8)), (1, leBytes 2 (hottestK s)), (3, leBytes 1 spare),
       (5, leBytes 1 (worst 0)), (32, leBytes 16 (ceilDiv e.unitsRead 1000)), (48, leBytes 16 (ceilDiv e.unitsWritten 1000)),
       (64, leBytes 16 e.cmdsRead), (80, leBytes 16 e.cmdsWritten), (160, leBytes 16 (worst 2)), (176, leBytes 16 e.errors)]
    some (fs.foldl (fun a f => overlay a f.1 f.2) base)
  | 6 =>
    let cur := match e.test with
      | some t => [t.code, testPercent t s]
      | none => [0, 0]
    let rs := (e.results.take 20).zipIdx.map fun p => (4 + 28 * p.2, leBytes 1 p.1.1 ++ leBytes 1 p.1.2)
    let free := ((List.range 20).drop e.results.length).map fun i => (4 + 28 * i, leBytes 1 0x0F)
    some (image 564 ((0, cur.flatMap (leBytes 1)) :: rs ++ free))
  | 0xC0 => some (image 64 [(0, leBytes 8 (ioCmds s).length), (8, leBytes 8 e.stalls), (16, leBytes 8 e.caught),
      (24, leBytes 8 e.missed), (32, leBytes 8 e.timeouts)])
  | _ => none

/-- GET_LOG_PAGE (R371). -/
def execGetLogPage (arrival : Nat) (s : State) : Res :=
  .next (runAdmin 2 arrival (fun h s =>
    let c := h.cmd
    let n := (c.cdw10 / 65536 + c.cdw11 % 65536 * 65536 + 1) * 4
    if c.prp1 % 4 ≠ 0 then stat 0x002 s
    else match logPage (c.cdw10 % 256) s with
    | some l => ((0, 0, slice l c.cdw12 (min n (l.length - c.cdw12))), drawOne s)
    | none => stat 0x109 s) s)

/-! ### Features (R370) -/

/-- SET_FEATURES (R370). -/
def execSetFeatures (arrival : Nat) (s : State) : Res :=
  .next (runAdmin 9 arrival (fun h s =>
    let c := h.cmd
    let v := c.cdw11
    if c.cdw10 / 2 ^ 31 = 1 then stat 0x10D s
    else match c.cdw10 % 256 with
    | 0x01 => if v % 8 = 0 then stat 0 (modEp (fun e => { e with arb := v }) s) else stat 0x002 s
    | 0x02 => if v % 32 = 0 then stat 0 s else stat 0x002 s
    | 0x04 =>
      let sel := bits v 19 16
      if (sel = 0 ∨ sel = 15) ∧ bits v 21 20 ≤ 1 then
        stat 0 (modEp (fun e => if bits v 21 20 = 0 then { e with tempOver := v % 65536 } else { e with tempUnder := v % 65536 }) s)
      else stat 0x002 s
    | 0x06 => stat 0 (modEp (fun e => { e with vwc := v % 2 == 1 }) s)
    | 0x07 =>
      if v % 65536 = 65535 ∨ v / 65536 = 65535 then stat 0x002 s
      else
        let m := cfgN F.EP0_IOQ_MAX 0 s - 1
        let n := min (v % 65536) m + min (v / 65536) m * 65536
        ((0, n, []), modEp (fun e => { e with queues := some n }) s)
    | 0x08 => stat 0 (modEp (fun e => { e with coalesce := v % 65536 }) s)
    | 0x09 =>
      if 16 < v % 65536 then stat 0x002 s
      else stat 0 (modEp (fun e => { e with ivCd := modAt e.ivCd (v % 65536) fun _ => v / 65536 % 2 == 1 }) s)
    | 0x0B => stat 0 (modEp (fun e => { e with aec := v }) s)
    | _ => stat 0x002 s) s)

/-- The current value of a feature. [PRESUMED, log 16; PRESUMED, log 49] -/
def featureValue (fid v : Nat) (s : State) : Option Nat :=
  let e := s.ep
  match fid with
  | 0x01 => some e.arb
  | 0x02 => some 0
  | 0x04 => some (if bits v 21 20 = 1 then e.tempUnder else e.tempOver)
  | 0x06 => some (b2n e.vwc)
  | 0x07 => some (e.queues.getD ((cfgN F.EP0_IOQ_MAX 0 s - 1) * 65537))
  | 0x08 => some e.coalesce
  | 0x09 => if 16 < v % 65536 then none else some (v % 65536 + b2n (e.ivCd.getD (v % 65536) false) * 65536)
  | 0x0B => some e.aec
  | _ => none

/-- GET_FEATURES (R369, R370): SEL 0 the current value, SEL 3 the capabilities (changeable, not saveable). -/
def execGetFeatures (arrival : Nat) (s : State) : Res :=
  .next (runAdmin 0xA arrival (fun h s =>
    let c := h.cmd
    match bits c.cdw10 10 8, featureValue (c.cdw10 % 256) c.cdw11 s with
    | 0, some v => ((0, v, []), s)
    | 3, some _ => ((0, 4, []), s)
    | _, _ => stat 0x002 s) s)

/-! ### Events and Abort (R369, R376) -/

/-- ASYNCHRONOUS_EVENT_REQUEST (R369): it stays outstanding until an event. [PRESUMED, log 49] -/
def execAsynchronousEventRequest (arrival : Nat) (s : State) : Res :=
  .next (match hostCmd arrival s with
    | some c =>
      if c.sq == 0 && c.cmd.opc == 0x0C && !c.done && epReady s then
        let t := modEp (fun e => { e with cmds := e.cmds.map fun d => if d.arrival = arrival then { d with begun := true } else d }) s
        match s.ep.events with
        | ev :: r => finishCmd arrival 0 ev [] (modEp (fun e => { e with events := r }) t)
        | [] => t
      else s
    | none => s)

/-- The host command that a member command serves. -/
def hostOf : SsdOp → Option Nat
  | .hostRead a _ _ _ _ | .hostWrite a _ _ _ _ | .hostFlush a => some a
  | _ => none

/-- Whether every member command of a host command still waits for queue space (R376). -/
def queueWait (a : Nat) (s : State) : Bool :=
  s.rcd.ssds.all fun d => d.cmds.all fun c => hostOf c.op != some a || !ssdIssued d c

/-- The member commands of a host command leave the queues they wait for. -/
def dropQueued (a : Nat) (s : State) : State :=
  modRec (fun r => { r with ssds := r.ssds.map fun d => { d with cmds := d.cmds.filter fun c => hostOf c.op != some a } }) s

/-- ABORT (R376, R377). [PRESUMED, log 49] -/
def execAbort (arrival : Nat) (s : State) : Res :=
  .next (runAdmin 8 arrival (fun h s =>
    let sq := h.cmd.cdw10 % 65536
    let cid := h.cmd.cdw10 / 65536
    let waiting := (s.ep.sqs.find? fun q => q.id == sq).bind fun q => q.entries.find? fun c => c.cid == cid
    let caught := modEp (fun e => { e with caught := wrapInc 64 e.caught })
    match s.ep.cmds.find? fun c => c.sq == sq && sq != 0 && c.cmd.cid == cid && !c.done && (!c.issued || queueWait c.arrival s) with
    | some c => ((0, 0, []), caught (finishCmd c.arrival 0x007 0 [] (dropQueued c.arrival s)))
    | none =>
      match waiting with
      | some c =>
        let t := modEp (fun e => { e with sqs := e.sqs.map fun q => if q.id = sq then
          { q with entries := q.entries.filter fun d => d.cid != cid, head := (q.head + 1) % max 1 q.size } else q }) s
        ((0, 0, []), caught (completeOn sq c 0 0x007 0 [] t))
      | none => ((0, 1, []), modEp (fun e => { e with missed := wrapInc 64 e.missed }) s)) s)

/-! ### I/O commands (R365, R366, R370, R378, R382) -/

/-- The status of an I/O command before it touches the media: 0 when it may. -/
def ioStatus (c : NvmeCmd) (s : State) : Nat :=
  let r := lbaRange c
  if c.nsid ≠ 1 then 0x00B
  else if s.rcd.volume = 0 then 0x082
  else if c.opc ≠ 8 ∧ (256 < r.2 ∨ c.prp1 % 4 ≠ 0) then 0x002
  else if nsze s < r.1 + r.2 then 0x080
  else if isWrite c ∧ (s.rcd.volume ≠ 2 ∨ r.1 * 4096 < s.rcd.sidecar * volG s ∨ s.rcd.vgCount * volG s < (r.1 + r.2) * 4096) then
    0x286
  else 0

/-- Where `len` bytes of the volume from byte `o` lie: place in the data, bytes, and the root port with the byte offset
in its namespace, none for zeros (R365); at most `k` pieces. -/
def volPieces : Nat → Nat → Nat → Nat → State → List (Nat × Nat × Option (Nat × Nat))
  | 0, _, _, _, _ => []
  | k + 1, dst, o, len, s =>
    if len = 0 then [] else
    let g := volG s
    let v := o / g
    let place := if v < volV0 s.rcd.granule then some (s.rcd.members.headD 0, o)
      else match s.rcd.map.lookup v with
        | some e => if e.state = 2 then some (s.rcd.members.getD e.ssd 0, 0x21000000 + e.slot * g + o % g) else none
        | none => none
    let room := min (g - o % g) len
    let n := match place with
      | some p => max 1 (min room (ssdOf p.1 s).mdts)
      | none => room
    (dst, n, place) :: volPieces k (dst + n) (o + n) (len - n) s

/-- Marks an I/O command issued with a number of member commands outstanding. [DESIGN CHOICE, log 51] -/
def issueCmd (a n : Nat) (data : List Byte) (s : State) : State :=
  modEp (fun e => { e with cmds := e.cmds.map fun d =>
    if d.arrival = a then { d with issued := true, left := n, data := data } else d }) s

/-- Runs an I/O command of an opcode that has begun and not issued. [PRESUMED, log 49] -/
def runIo (opc arrival : Nat) (f : HostCmd → State → State) (s : State) : State :=
  match hostCmd arrival s with
  | some c => if c.sq != 0 && c.cmd.opc == opc && c.begun && !c.issued && !c.done && epReady s then f c s else s
  | none => s

/-- FUA of a read or a write (R370). -/
def cmdFua (c : NvmeCmd) : Bool := bits c.cdw12 30 30 == 1

/-- The data granules that an I/O command touches: the walker resolves them (R332, R365). -/
def rangeGrans (c : NvmeCmd) (s : State) : List Nat :=
  let r := lbaRange c
  let g := volG s
  ((List.range ((r.1 + r.2) * 4096 / g + 1)).drop (r.1 * 4096 / g)).filter fun v => decide (volV0 s.rcd.granule ≤ v ∧ v * g < (r.1 + r.2) * 4096)

/-- READ (R365, R382): member reads, or zeros at once. [DESIGN CHOICE, log 51] -/
def execRead (arrival : Nat) (s : State) : Res :=
  .next (runIo 2 arrival (fun h s =>
    let st := ioStatus h.cmd s
    let r := lbaRange h.cmd
    if st ≠ 0 then finishCmd arrival st 0 [] s
    else
      let ps := volPieces (r.2 * 4096 + 1) 0 (r.1 * 4096) (r.2 * 4096) s
      if ps.any fun p => (p.2.2.map fun q => (ssdOf q.1 s).failed).getD false then finishCmd arrival 0x281 0 [] s
      else
        let rs := ps.filterMap fun p => p.2.2.map fun q => (p.1, p.2.1, q)
        let t := modEp (fun e => { e with cmdsRead := e.cmdsRead + 1, unitsRead := e.unitsRead + r.2 * 8 }) (walk false (rangeGrans h.cmd s) s)
        let t := issueCmd arrival rs.length (List.replicate (r.2 * 4096) 0) t
        if rs.isEmpty then finishCmd arrival 0 0 (List.replicate (r.2 * 4096) 0) t
        else rs.foldl (fun u p => sendSsd p.2.2.1 metaQueue (.hostRead arrival p.1 p.2.2.2 p.2.1 (cmdFua h.cmd)) u) t) s)

/-- Member writes of sidecar bytes. [PRESUMED, log 49] -/
def issueWrite (h : HostCmd) (data : List Byte) (s : State) : State :=
  let st := ioStatus h.cmd s
  let r := lbaRange h.cmd
  if st ≠ 0 then finishCmd h.arrival st 0 [] s
  else
    let ps := (volPieces (r.2 * 4096 + 1) 0 (r.1 * 4096) (r.2 * 4096) s).filterMap fun p => p.2.2.map fun q => (p.1, p.2.1, q)
    if ps.any fun p => (ssdOf p.2.2.1 s).failed then finishCmd h.arrival 0x280 0 [] s
    else
      let t := modEp (fun e => { e with cmdsWritten := e.cmdsWritten + 1, unitsWritten := e.unitsWritten + r.2 * 8 }) (walk false (rangeGrans h.cmd s) s)
      let t := issueCmd h.arrival ps.length [] t
      ps.foldl (fun u p =>
        let b := p.2.2.2 - 0x21000000
        sendSsd p.2.2.1 metaQueue (.hostWrite h.arrival (b / volG s) (b % volG s) (cmdFua h.cmd || !s.ep.vwc)
          (padTo p.2.1 (slice data p.1 p.2.1))) u) t

/-- WRITE (R366). [DESIGN CHOICE, log 51] -/
def execWrite (arrival : Nat) (data : List Byte) (s : State) : Res := .next (runIo 1 arrival (fun h s => issueWrite h data s) s)

/-- WRITE_ZEROES (R366). -/
def execWriteZeroes (arrival : Nat) (s : State) : Res := .next (runIo 8 arrival (fun h s => issueWrite h [] s) s)

/-- FLUSH (R378): once every earlier command has completed, a Flush to every member. -/
def execFlush (arrival : Nat) (s : State) : Res :=
  .next (runIo 0 arrival (fun h s =>
    if s.ep.cmds.any fun d => decide (d.arrival < arrival) && d.cmd.opc != 0xC then s
    else if h.cmd.nsid ≠ 1 ∧ h.cmd.nsid ≠ 0xFFFFFFFF then finishCmd arrival 0x00B 0 [] s
    else if s.rcd.volume = 0 then finishCmd arrival 0x082 0 [] s
    else if !membersOk s then finishCmd arrival 0x280 0 [] s
    else sendAll (fun _ => .hostFlush arrival) (issueCmd arrival s.rcd.members.length [] s)) s)

/-- A shutdown ends when every command has completed and every member has flushed (R384). -/
def shutdownStep (s : State) : State :=
  if s.ep.shst = 1 ∧ !s.ep.shutSent ∧ (s.ep.cmds.all fun c => c.cmd.opc == 0xC && c.sq == 0) then
    let ms := s.rcd.members.filter fun k => !(ssdOf k s).failed
    let t := modEp (fun e => { e with shutSent := true, shutLeft := ms.length, shst := if ms.isEmpty then 2 else 1 }) s
    ms.foldl (fun u k => sendSsd k metaQueue (.hostFlush 0) u) t
  else s

/-- A member command that serves a host command has completed (R382); arrival 0 is the shutdown's Flush. -/
def hostPiece (a : Nat) (ok read : Bool) (dst : Nat) (bytes : List Byte) (s : State) : State :=
  if a = 0 then
    modEp (fun e => { e with shutLeft := e.shutLeft - 1, shst := if e.shst = 1 ∧ e.shutLeft ≤ 1 then 2 else e.shst }) s
  else
    let t := modEp (fun e => { e with cmds := e.cmds.map fun d => if d.arrival = a then
      { d with left := d.left - 1, failed := d.failed || !ok, data := if ok && read then overlay d.data dst bytes else d.data }
      else d }) s
    let t := if ok then t else raise 0 0x0A03 noInst [] t
    match hostCmd a t with
    | some c =>
      if c.left ≠ 0 then t
      else if c.failed then finishCmd a (if read then 0x281 else 0x280) 0 [] t
      else finishCmd a 0 0 c.data t
    | none => t

/-- PCIE_COMPLETION_TIMEOUT (R383): a host memory access of a command failed. [PRESUMED, log 49] -/
def execPcieCompletionTimeout (arrival : Nat) (s : State) : Res :=
  .next (if epReady s then shutdownStep (finishCmd arrival 0x004 0 [] (modEp (fun e => { e with aer := e.aer ||| 0x4000 }) s)) else s)

/-! ### Self-tests (R379 to R381) -/

/-- DEVICE_SELF_TEST (R379). -/
def execDeviceSelfTest (arrival : Nat) (s : State) : Res :=
  .next (runAdmin 0x14 arrival (fun h s =>
    let stc := h.cmd.cdw10 % 16
    match s.ep.test with
    | some t =>
      if stc = 0xF then stat 0 (modEp (fun e => { e with test := none, results := ((0x1 + t.code * 16, 0) :: e.results).take 20 }) s)
      else if stc = 1 ∨ stc = 2 then stat 0x11D s
      else stat 0x002 s
    | none =>
      if stc = 1 ∨ stc = 2 then stat 0 (modEp (fun e => { e with test := some { code := stc, segment := 1 } }) s)
      else if stc = 0xF then stat 0 s
      else stat 0x002 s) s)

/-- Whether two entries of a rising list name one place. -/
def placesDistinct (l : List (Nat × Nat)) : Bool :=
  let r := l.mergeSort fun a b => decide (a.1 < b.1 ∨ (a.1 = b.1 ∧ a.2 ≤ b.2))
  (r.zip (r.drop 1)).all fun p => p.1 != p.2

/-- What a segment of R379 checks in what the model holds; the rest of its finding is the step's operand. [DESIGN CHOICE, log 50] -/
def segmentOk (k : Nat) (s : State) : Bool :=
  let r := s.rcd
  let ms := (r.members.filter fun p => !(ssdOf p s).failed).map fun p => (ssdOf p s).media
  match k with
  | 1 => r.volume != 0 && membersOk s && ms.all fun m => (superOf m.sb0).isSome && (superOf m.sb1).isSome
  | 2 => ms.any fun m => match mediaSuper m with
      | some b => chkCrc b.code b.vgCount (if b.active then m.chkB else m.chkA) == b.chkCrc
      | none => false
  | 3 =>
    let w := r.map.filter fun e => e.2.state == 2
    placesDistinct (w.map fun e => (e.2.ssd, e.2.slot)) && w.all fun e =>
      decide (e.2.slot < r.slotCount.getD e.2.ssd 0) && (e.2.next == noGran || ((r.map.lookup e.2.next).map (·.clip)) == some e.2.clip)
  | 4 => membersOk s
  | 5 => (replay ms 65536 r.chkSeq r.jrnStart ([], [])).2.1 == r.durableSeq
  | _ => r.map.all fun e => e.2.state != 2 || !(ssdOf (r.members.getD e.2.ssd 0) s).failed

/-- A write of the recorder, as the queues of R380 hold them. -/
def isRecWrite : SsdOp → Bool
  | .unit _ _ _ _ _ | .flush | .journal _ _ | .checkpoint _ _ _ _ | .directory _ _ | .super _ _ => true
  | _ => false

/-- The member that the next step of a self-test reads, if it reads one (R379, R380). [DESIGN CHOICE, log 50] -/
def testMember (t : SelfTest) (s : State) : Option Nat :=
  let ms := s.rcd.members
  match t.segment with
  | 1 => ms[t.step / 2]?
  | 4 => ms[t.step]?
  | 6 => ((s.rcd.map.filter fun e => e.2.state == 2)[t.step]?).bind fun e => ms[e.2.ssd]?
  | 3 => none
  | _ => ms.head?

/-- Segment after `k`, or none at the end of the test. -/
def nextSegment (code k : Nat) : Option Nat := if k < testSegments code then some (k + 1) else none

/-- The test in progress ends with a result; a segment that failed is logged (R381). -/
def endTest (t : SelfTest) (result segment : Nat) (s : State) : State :=
  modEp (fun e => { e with test := none, results := ((result + t.code * 16, segment) :: e.results).take 20 }) s

/-- SELF_TEST_STEP (R380, R381): a step runs when no host I/O command is outstanding and the member it reads has no write of the
recorder; a segment's last step checks what the segment has read. [DESIGN CHOICE, log 50] -/
def execSelfTestStep (ok : Bool) (s : State) : Res :=
  .next (match s.ep.test with
  | none => s
  | some t =>
    if !epOn s || !(ioCmds s).isEmpty || ((testMember t s).toList.any fun k => (ssdOf k s).cmds.any fun c => isRecWrite c.op) then s
    else
      let last := decide (segSteps t.segment s ≤ t.step + 1)
      if !ok || (t.segment == 1 && s.rcd.volume == 0) || (last && !segmentOk t.segment s) then
        raise 0 0x0A04 noInst [t.segment] (endTest t 0x7 t.segment s)
      else if !last then modEp (fun e => { e with test := some { t with step := t.step + 1 } }) s
      else match nextSegment t.code t.segment with
        | some k => modEp (fun e => { e with test := some { t with segment := k, step := 0 } }) s
        | none => endTest t 0 0 s)

/-! ### Resets, timeouts and shutdown (R383, R384) -/

/-- Member commands of the host that wait for queue space are not issued any more; those issued finish (R384). -/
def dropWaiting (s : State) : State :=
  modRec (fun r => { r with ssds := r.ssds.map fun d => { d with
    cmds := d.cmds.filter fun c => (hostOf c.op).isNone || ssdIssued d c } }) s

/-- A controller reset (R384): queues and range locks are cleared, a self-test in progress ends with result 0x2. -/
def resetController (s : State) : State :=
  modEp (fun e => { e with
    ready := false, fatal := false, shst := 0, shutSent := false, shutLeft := 0, sqs := [], cqs := [], cmds := [], events := []
    test := none
    results := match e.test with
      | some t => ((0x2 + t.code * 16, 0) :: e.results).take 20
      | none => e.results }) (dropWaiting s)

/-- CONTROLLER_ENABLE (R363, R369): CC.EN set with the admin queues' sizes. -/
def execControllerEnable (asqSize acqSize : Nat) (s : State) : Res :=
  .next (if epOn s && s.ep.linkUp && !s.ep.ready && decide (2 ≤ asqSize ∧ asqSize ≤ 1024 ∧ 2 ≤ acqSize ∧ acqSize ≤ 1024) then
      modEp (fun e => { e with
        ready := true, sqs := [{ id := 0, size := asqSize, cq := 0 }], cqs := [{ id := 0, size := acqSize, vector := 0, ien := true }]
        arb := 0, tempOver := 0xFFFF, tempUnder := 0, vwc := true, queues := none, coalesce := 0, ivCd := List.replicate 17 false, aec := 0x11F }) s
    else s)

/-- CONTROLLER_DISABLE (R384). -/
def execControllerDisable (s : State) : Res := .next (if epOn s then resetController s else s)

/-- PCIE_LINK_LOSS (R383): treated as a controller reset. -/
def execPcieLinkLoss (s : State) : Res := .next (if epOn s then resetController (modEp (fun e => { e with linkUp := false, width := 0 }) s) else s)

/-- CONTROLLER_SHUTDOWN (R384). -/
def execControllerShutdown (s : State) : Res :=
  .next (if epReady s && s.ep.shst == 0 then shutdownStep (modEp (fun e => { e with shst := 1 }) s) else s)

/-- HOST_CQ_TIMEOUT (R383): CSTS.CFS, completions discarded, range locks released. [DESIGN CHOICE, log 50] -/
def execHostCqTimeout (q : Nat) (s : State) : Res :=
  .next (match s.ep.cqs.find? fun c => c.id == q with
    | some c => if epReady s && !c.held.isEmpty then
        raise 1 0x0A02 noInst [q] (modEp (fun e => { e with
          fatal := true, timeouts := wrapInc 64 e.timeouts, cmds := [], cqs := e.cqs.map fun x => { x with held := [] } }) s)
      else s
    | none => s)

/-! ### Members (R341 to R343) -/

/-- What a completed member command means to its sender. -/
def ssdDone (port : Nat) (c : SsdCmd) (ok : Bool) (s : State) : State :=
  let bytes := fun (off len : Nat) => mediaBytes s.rcd.granule s.rcd.vgCount (ssdOf port s).media off len
  let fail := fun (t : State) => if ok then t else recFail port t
  match c.op with
  | .unit j f _ _ _ => flightWrite j f ok (fail s)
  | .dealloc _ => s
  | .admin _ => s
  | .hostRead a dst off len _ => shutdownStep (hostPiece a ok true dst (bytes off len) s)
  | .hostWrite a _ _ _ _ => shutdownStep (hostPiece a ok false 0 [] (fail s))
  | .hostFlush a => shutdownStep (hostPiece a ok false 0 [] (fail s))
  | .playRead m dst off len => playRead m ok dst (bytes off len) s
  | _ => if ok then phaseStep c.id s else recFail port s

/-- Whether a command is an admin command. -/
def isAdmin : SsdOp → Bool
  | .admin _ => true
  | _ => false

/-- A member command leaves the member; the media changes when it succeeded. [DESIGN CHOICE, log 48] -/
def completeSsd (port id : Nat) (ok : Bool) (s : State) : State :=
  match (ssdOf port s).cmds.find? fun c => c.id == id with
  | none => s
  | some c =>
    let t := modSsd port (fun d => { d with cmds := d.cmds.filter fun x => x.id != id }) s
    if ok then ssdDone port c true (modMedia port (mediaAfter c.op) t)
    else
      let t := modMedia port (mediaFailed s.drawn c.op) (drawOne t)
      ssdDone port c false (if isAdmin c.op then t else sendAdmin port (.getLog 1) t)

/-- SSD_COMMAND_COMPLETION (R343): a command that its member has taken completes. [DESIGN CHOICE, log 3] -/
def execSsdCommandCompletion (member id : Nat) (ok : Bool) (s : State) : Res :=
  .next (if (ssdOf member s).cmds.any fun c => c.id == id && ssdIssued (ssdOf member s) c then
    checkStop (completeSsd member id ok s) else s)


/-- PLAYBACK_READ_COMPLETE (R356, R357): the oldest read of a playback that a member has taken ends; with none outstanding, a
playback that waits for space in the ring goes on. [DEDUCED, log 46] -/
def execPlaybackReadComplete (m : Nat) (ok : Bool) (s : State) : Res :=
  .next (if !recOn s then s
  else
    let l := s.rcd.members.flatMap fun k => ((ssdOf k s).cmds.filter fun c => isPlayRead m c.op && ssdIssued (ssdOf k s) c).map fun c => (c.id, k)
    match l.find? fun p => l.all fun q => decide (p.1 ≤ q.1) with
    | some p => completeSsd p.2 p.1 ok s
    | none => playPump m s)

/-- Puts commands of a member in a phase of R341. -/
def setPhase (port ph : Nat) (p : SsdCmd → Bool) (s : State) : State :=
  modSsd port (fun d => { d with cmds := d.cmds.map fun c => if p c then { c with phase := ph } else c }) s

/-- SSD_COMMAND_TIMEOUT (R341): Abort is sent for a command that the member has taken. -/
def execSsdCommandTimeout (member id : Nat) (s : State) : Res :=
  .next (if (ssdOf member s).cmds.any fun c => c.id == id && c.phase == 0 && ssdIssued (ssdOf member s) c then
    sendAdmin member (.abort id) (setPhase member 1 (fun c => c.id == id) s) else s)

/-- SSD_ABORT_EXPIRY (R341): the member's controller is reset. -/
def execSsdAbortExpiry (member id : Nat) (s : State) : Res :=
  .next (if (ssdOf member s).cmds.any fun c => c.id == id && c.phase == 1 then setPhase member 2 (fun _ => true) s else s)

/-- SSD_RESET_EXPIRY (R341, R342): the member has failed, and every command on it. -/
def execSsdResetExpiry (member : Nat) (s : State) : Res :=
  .next (if (ssdOf member s).cmds.any fun c => c.phase == 2 then
      let ids := (ssdOf member s).cmds.map (·.id)
      let t := recFail member (modSsd member (fun d => { d with failed := true }) s)
      ids.foldl (fun u i => completeSsd member i false u) t
    else s)

/-- Message 0x0A00: endpoint status (R388). -/
def endpointStatusMsg : MsgDef :=
  { blk := .endpoint, status := true,
    act := fun _ _ s =>
      let e := s.ep
      let st := if !cfgB F.EP0_ENABLE 0 s then 0 else if e.fatal then 3 else if e.ready then 2 else 1
      let last := e.results.headD (0, 0)
      (.accept [st + (e.sqs.length - 1) * 16, (ioCmds s).length, e.stalls % 2 ^ 32, e.caught % 2 ^ 32, e.missed % 2 ^ 32,
        e.timeouts % 2 ^ 32, last.1 % 16 + last.2 * 256], s) }

end Sys2Proof.Machine
end

