-- ==== Sys2Proof/Machine/Dram.lean ====
section
/-! DEFINITION. The DRAM controller: address map, ECC, scheduling, refresh, activation tracking, scrubbing, delays and
self-refresh (chapter 18). -/

namespace Sys2Proof.Machine

/-- Applies `f` to the DRAM. -/
def modDram (f : Dram → Dram) (s : State) : State := { s with dram := f s.dram }
/-- Applies `f` to a channel. -/
def modChan18 (c : Nat) (f : DramChan → DramChan) (s : State) : State := modDram (fun d => { d with chans := modAt d.chans c f }) s
/-- A channel. -/
def dramOf (c : Nat) (s : State) : DramChan := s.dram.chans.getD c {}

/-! ### Address map (R627 to R629) -/

/-- The installed total T in bytes (R627). -/
def dramTotal (w : Words) : Nat := 8 * 2 ^ (30 + F.DRAM_CFG_DENSITY.get 0 w)
/-- The end of the usable space (R629). -/
def dramUsable (w : Words) : Nat := 15 * dramTotal w / 16

/-- The channel of a device address (R628). -/
def dramChan (d : Nat) : Nat := bits d 12 10 ^^^ bits d 21 19 ^^^ bits d 24 22
/-- The bank of a device address (R628). -/
def dramBank (d : Nat) : Nat := bits d 18 15 ^^^ bits d 22 19
/-- The row of a device address (R628). -/
def dramRow (d : Nat) : Nat := d / 2 ^ 19
/-- The first byte of the burst of a device address. -/
def burstOf (d : Nat) : Nat := d / 64 * 64
/-- The check burst of a device address (R629). [DESIGN CHOICE, log 81] -/
def checkBurst (w : Words) (d : Nat) : Nat := dramUsable w + 64 * (d / 1024)

/-- The device address of burst `k` of a channel, counting its chunks upwards: the inverse of R628. -/
def burstAt (c k : Nat) : Nat :=
  let q := k / 16
  (8 * q + (c ^^^ q / 64 % 8 ^^^ q / 512 % 8)) * 1024 + 64 * (k % 16)

/-! ### Contents (R630, R632, R641) -/

/-- The byte at a device address (R641: zero where nothing was written). [DESIGN CHOICE, log 78] -/
def readDram (a : Nat) (m : List Host.Cell) : Byte := (m.lookup a).getD 0

/-- Stores a byte, keeping the canonical form. [DESIGN CHOICE, log 78] -/
def putDram (a : Nat) (b : Byte) (m : List Host.Cell) : List Host.Cell := if b = 0 then clearCell a m else putKey a b m

/-- Stores bytes at consecutive addresses. -/
def putDrams (a : Nat) : List Byte → List Host.Cell → List Host.Cell
  | [], m => m
  | b :: r, m => putDrams (a + 1) r (putDram a b m)

/-- The 64 bytes of a burst. -/
def readBurst (a : Nat) (m : List Host.Cell) : List Byte := (List.range 64).map fun i => readDram (a + i) m

/-- Marks a burst POISON. [DESIGN CHOICE, log 78] -/
def addPoison (a : Nat) : List Nat → List Nat
  | [] => [a]
  | b :: r => if a < b then a :: b :: r else if a = b then b :: r else b :: addPoison a r

/-! ### ECC (R630, R633) -/

/-- Wrong bits of the two codewords of a burst: data bits 0 to 511, then check bits 512 to 531 (R630). -/
def wrongBits (errs : List Nat) : Nat × Nat :=
  let e := errs.eraseDups.filter fun i => decide (i < 532)
  let first := e.filter fun i => decide (i < 256 ∨ (512 ≤ i ∧ i < 522))
  (first.length, e.length - first.length)

/-- What the ECC makes of a codeword: 0 nothing, 1 a correction, 2 uncorrectable. -/
def codeword (a n : Nat) : Nat := if n ≤ 2 then n else Config.eccOutcome a n % 3

/-- What a read of a burst finds: 0 clean, 1 corrected, 2 uncorrectable or POISON (R630, R633). -/
def burstVerdict (a : Nat) (errs : List Nat) (d : Dram) : Nat :=
  let n := wrongBits errs
  if d.poison.contains a then 2 else max (codeword a n.1) (codeword a n.2)

/-- The bytes a read of a burst delivers, of which `l` are stored: those when each codeword has at most one wrong bit.
[DESIGN CHOICE, log 78] [DESIGN CHOICE, log 78] -/
def burstData (a : Nat) (errs : List Nat) (l : List Byte) : List Byte :=
  let n := wrongBits errs
  if 2 < n.1 ∨ 2 < n.2 then (List.range 64).map (Config.eccByte a (n.1 * 1024 + n.2))
  else if n.1 = 2 ∨ n.2 = 2 then
    l.zipIdx.map fun b => errs.eraseDups.foldl (fun (v : Byte) (i : Nat) => if i / 8 = b.2 then v ^^^ BitVec.ofNat 8 (2 ^ (i % 8)) else v) b.1
  else l

/-- The stored bytes of a burst: those of the block whose buffer or ring stands there, else the cells (R644). [DESIGN CHOICE, log 79] -/
def storedBurst (a : Nat) (s : State) : List Byte := (List.range 64).map fun i => (blockByte (a + i) s).getD (readDram (a + i) s.dram.mem)

/-- A channel's check cache takes up the check burst of a burst that is read or written: a miss reads it, and of the 512 check
bursts that 32 KiB hold one makes room, written back when it has changed (R631). [DESIGN CHOICE, log 118] -/
def useCheck (c a : Nat) (write : Bool) (s : State) : State :=
  let k := checkBurst s.cfg.accepted a
  modChan18 c (fun x =>
    let hit := (x.cache.lookup k).isSome
    let dirty := write || (x.cache.lookup k).getD false
    let l := (k, dirty) :: x.cache.filter fun e => e.1 != k
    { x with
      cache := l.take 512
      checkBursts := (x.checkBursts + b2n (!hit) + ((l.drop 512).filter fun e => e.2).length) % 2 ^ 32 }) s

/-- A corrected error is counted, and logged at most once per second per channel (R633). -/
def noteCorrected (c : Nat) (s : State) : State :=
  let x := dramOf c s
  let t := modChan18 c (fun y => { y with corrected := satInc 32 y.corrected }) s
  let quiet := match x.noticed with
    | some n => decide (s.dev.elapsed < n + ticksPerSec)
    | none => false
  if quiet then t else raise 0 0x1303 c [] (modChan18 c (fun y => { y with noticed := some s.dev.elapsed }) t)

/-- An uncorrectable error is counted. -/
def noteUncorrectable (c : Nat) (s : State) : State :=
  modChan18 c (fun y => { y with uncorrectable := satInc 32 y.uncorrectable }) s

/-- The controller reads a burst: a correction is counted, logged and written back (R633). -/
def readChecked (c a : Nat) (errs : List Nat) (s : State) : State :=
  match burstVerdict a errs s.dram with
  | 0 => s
  | 1 => noteCorrected c (modDram (fun d => { d with mem := putDrams a (burstData a errs (readBurst a d.mem)) d.mem }) s)
  | _ => noteUncorrectable c s

/-! ### Poisoned reads (R633) -/

/-- A frame is dropped whole, as when its source skipped it. [DESIGN CHOICE, log 79] -/
def poisonFrame (n num : Nat) (s : State) : State :=
  match (seamOf n s).frames.find? fun f => f.header.num == num with
  | none => s
  | some f =>
    if (seamOf n s).receiving && ((seamOf n s).frames.getLast?.map fun g => g.header.num == num) == some true then dropReceiving n s
    else if f.dropped then s
    else
      let t := noteDrop n (if f.started.isEmpty then s else freeClaims n s)
      let busy := f.started.length != f.finished.length
      modSeam n (fun y => { y with
        droppedBefore := true
        frames := (y.frames.map fun g => if g.header.num = num then { g with dropped := true, lines := [] } else g).filter
          fun g => g.header.num != num || busy }) t

/-- The picture an encode stream reads is dropped. [DESIGN CHOICE, log 79] -/
def poisonEncode (m : Nat) (s : State) : State :=
  if (encOf m s).pic.isNone then s
  else
    let t := modCodec (fun c => { c with
      encFifo := c.encFifo.filter fun r => r.stream != m, encRow := if c.encRow = some m then none else c.encRow }) s
    let t := modEnc m (fun y => { y with pic := none, notCoded := wrapInc 32 y.notCoded, skipped := true }) t
    takeInput m (modEncSource m (holdOut (.codec m) none) t)

/-- Takes `k` CTUs of a stream out of a FIFO, from its head on. -/
def dropCtus (m : Nat) : Nat → List CtuRow → List CtuRow
  | _, [] => []
  | k, r :: l => if k ≠ 0 ∧ r.stream = m then dropCtus m (k - r.ctus) l else r :: dropCtus m k l

/-- The access unit a decode stream reads, the oldest in its engines, is dropped. [DESIGN CHOICE, log 79] -/
def poisonDecode (m : Nat) (s : State) : State :=
  let x := decOf m s
  match oldestAu x with
  | none => s
  | some a =>
    let whole := x.building.isEmpty
    let t := modCodec (fun c => { c with
      decFifo := dropCtus m (a.rows * a.cols - a.built) c.decFifo, decRow := if whole && c.decRow == some m then none else c.decRow }) s
    tryDecode m (modDec m (fun y => { y with
      au := if whole then none else y.au, building := y.building.drop 1, lost := wrapInc 32 y.lost }) t)

/-- The buffer an output reads is dropped: it holds none. [DESIGN CHOICE, log 79] -/
def poisonOutput (o : OutId) (s : State) : State :=
  let src := outSrc o s.cfg.accepted
  modOutput o (fun x => { x with held := none, sent := none }) (modSrcRing src.1 src.2 (holdOut (outHolder o) none) s)

/-- The buffer a panel reads is dropped: its tiles are not sent. [DESIGN CHOICE, log 79] -/
def poisonView (k : Nat) (s : State) : State :=
  let t := cfgN F.VF_SRC_TAP_SRC k s
  modVf k (fun v => { v with held := none, tapDirty := [] }) (modCap (fun c => { c with taps := modAt c.taps t (holdOut (.view k) none) }) s)

/-- The block an audio port reads or wrote is dropped. [DESIGN CHOICE, log 79] -/
def poisonAudio (p : Nat) (s : State) : State :=
  modAud p (fun a => if a.playing.isSome then { a with playing := none, lost := wrapInc 32 a.lost }
    else { a with ring := a.ring.dropLast, lost := wrapInc 32 a.lost }) s

/-- The newest statistics buffer of a seam is dropped. [DESIGN CHOICE, log 79] -/
def poisonStats (n : Nat) (s : State) : State :=
  let top := ((s.cap.stats.getD n {}).bufs.map fun b => b.order).foldl max 0
  modCap (fun c => { c with stats := modAt c.stats n fun r => { r with bufs := r.bufs.map fun b => if b.order = top then { b with order := 0 } else b } }) s

/-- The compression job that reads a plane is dropped. [DESIGN CHOICE, log 79] -/
def poisonJob (id : Nat) (s : State) : State :=
  match s.comp.queue.find? fun j => j.id == id with
  | some j => jobFailed 3 j s
  | none => s

/-- What a requester does with poisoned data (R633). [DESIGN CHOICE, log 79] -/
def poisoned (c : Nat) (client : DramClient) (s : State) : State :=
  let dropped := match client with
    | .control | .endpoint _ | .recorder => false
    | _ => true
  let s := if dropped then modDram (fun d => { d with drops := wrapInc 32 d.drops }) s else s
  let t := match client with
    | .control => raise 3 0x1305 c [] s
    | _ => raise 2 0x1304 c [] s
  match client with
  | .frame n num => poisonFrame n num t
  | .statistics n => poisonStats n t
  | .compressor id => poisonJob id t
  | .encoder m => poisonEncode m t
  | .decoder m => poisonDecode m t
  | .output o => poisonOutput o t
  | .viewfinder k => poisonView k t
  | .audio p => poisonAudio p t
  | .endpoint a => finishCmd a 0x006 0 [] t
  | .recorder => recHalt t
  | .control => t

/-! ### Scheduling (R635 to R637) -/

/-- Nanoseconds since a request entered its queue. [DEDUCED, log 77] -/
def waitNs (r : DramReq) (s : State) : Nat := (s.dev.elapsed - r.since) * 5 / 4

/-- Whether a queue has room for a request (R635). -/
def dramRoom (r : DramReq) (x : DramChan) : Bool :=
  decide ((x.queue.filter fun q => q.data.isSome == r.data.isSome).length < 64)

/-- A request enters its queue; a batch of writes begins at 48 (R635). [DEDUCED, log 77] -/
def enterQueue (r : DramReq) (now : Nat) (x : DramChan) : DramChan :=
  let q := x.queue ++ [{ r with since := now }]
  { x with queue := q, draining := x.draining || decide (48 ≤ (q.filter fun y => y.data.isSome).length) }

/-- Requests whose earlier accesses to the same burst are done (R636). [DEDUCED, log 77] -/
def unblocked : List DramReq → List DramReq → List DramReq
  | _, [] => []
  | seen, r :: rest =>
    if seen.any fun y => burstOf y.addr == burstOf r.addr then unblocked (seen ++ [r]) rest
    else r :: unblocked (seen ++ [r]) rest

/-- The request a channel serves next (R635, R636): the oldest aged one; else, in a batch of writes only those, otherwise
reads before writes, the oldest that hits an open row, else the oldest. [DEDUCED, log 77] -/
def nextRequest (c : Nat) (s : State) : Option DramReq :=
  let x := dramOf c s
  let l := unblocked [] x.queue
  let age := cfgN F.DRAM_CFG_AGE_NS 0 s
  match l.find? fun r => decide (age ≤ waitNs r s) with
  | some r => some r
  | none =>
    let mine := l.filter fun r => r.data.isSome == x.draining
    let pool := if mine.isEmpty then l else mine
    match pool.find? fun r => x.rows.getD (dramBank r.addr) none == some (dramRow r.addr) with
    | some r => some r
    | none => pool.head?

/-- DRAM_REQUEST (R635): a request enters the queue of its channel, or stalls while that queue is full. An address at or
above 15T/16 is not usable (R629). -/
def execDramRequest (ch : Nat) (client : DramClient) (addr : Nat) (data : Option (List Byte)) (s : State) : Res :=
  if dramUsable s.cfg.accepted ≤ addr then .fault (.dramAddress addr)
  else
    .next (if (dramOf ch s).state != 1 || dramChan addr != ch then s
    else
      modChan18 ch (fun x =>
        let r : DramReq := { id := x.nextId, client := client, addr := addr,
                             data := data.map fun l => l.take (64 - addr % 64), since := s.dev.elapsed }
        let y := { x with nextId := x.nextId + 1 }
        if x.stalled.isEmpty && dramRoom r x then enterQueue r s.dev.elapsed y else { y with stalled := x.stalled ++ [r] }) s)

/-! ### Activation tracking (R639) -/

/-- A bank's table after an activate of a row: the table and the row's count. -/
def trackRow (row : Nat) (t : List (Nat × Nat)) : List (Nat × Nat) × Nat :=
  match t.findIdx? fun e => e.1 == row with
  | some i => (modAt t i fun e => (e.1, e.2 + 1), (t.getD i (0, 0)).2 + 1)
  | none =>
    if t.length < 32 then (t ++ [(row, 1)], 1)
    else
      let low := t.foldl (fun m e => min m e.2) ((t.getD 0 (0, 0)).2)
      let i := (t.findIdx? fun e => e.2 == low).getD 0
      (modAt t i fun _ => (row, low + 1), low + 1)

/-- The rows refreshed around a row: r ± 1, and r ± 2 when BLAST is 2, inside the bank (R639). -/
def neighbourRows (blast density row : Nat) : List Nat :=
  let all := if blast = 2 then [row + 1, row + 2] ++ (if 1 ≤ row then [row - 1] else []) ++ (if 2 ≤ row then [row - 2] else [])
    else [row + 1] ++ (if 1 ≤ row then [row - 1] else [])
  all.filter fun r => decide (r < 2 ^ (14 + density))

/-- The neighbour refreshes that are due: counted, their counts set to 0 and their banks closed (R639). [DESIGN CHOICE, log 80] -/
def refreshNeighbours (c : Nat) (s : State) : State :=
  let blast := cfgN F.DRAM_CFG_BLAST 0 s
  let density := cfgN F.DRAM_CFG_DENSITY 0 s
  modChan18 c (fun x => x.due.foldl (fun y d => { y with
    neighbours := (y.neighbours + (neighbourRows blast density d.2).length) % 2 ^ 32
    rows := modAt y.rows d.1 fun _ => none
    tables := modAt y.tables d.1 fun t => t.map fun e => if e.1 = d.2 then (e.1, 0) else e }) { x with due := [] }) s

/-- A row is activated unless it is open; neighbour refreshes due in the bank go first (R639). -/
def openRow (c bank row : Nat) (s : State) : State :=
  if (dramOf c s).rows.getD bank none = some row then s
  else
    let s := if (dramOf c s).due.any fun d => d.1 == bank then refreshNeighbours c s else s
    let thresh := cfgN F.DRAM_CFG_ACT_THRESH 0 s
    modChan18 c (fun x =>
      let t := trackRow row (x.tables.getD bank [])
      { x with
        rows := modAt x.rows bank fun _ => some row
        tables := modAt x.tables bank fun _ => t.1
        due := if thresh ≤ t.2 then x.due ++ [(bank, row)] else x.due }) s

/-- ACTIVATE_THRESHOLD (R639): the neighbours of the rows that reached ACT_THRESH are refreshed. -/
def execActivateThreshold (ch : Nat) (s : State) : Res :=
  .next (if (dramOf ch s).state = 1 then refreshNeighbours ch s else s)

/-! ### Completion (R632, R633, R635) -/

/-- A stalled request enters its queue when it has room. -/
def admitStalled (c : Nat) (s : State) : State :=
  modChan18 c (fun x => match x.stalled with
    | r :: rest => if dramRoom r x then enterQueue r s.dev.elapsed { x with stalled := rest } else x
    | [] => x) s

/-- A request leaves its queue. -/
def leaveQueue (c : Nat) (r : DramReq) (s : State) : State :=
  modChan18 c (fun x =>
    let q := x.queue.filter fun y => y.id != r.id
    { x with
      queue := q, longest := min (2 ^ 32 - 1) (max x.longest (waitNs r s))
      draining := x.draining && decide (16 < (q.filter fun y => y.data.isSome).length) }) s

/-- A read completes: its data goes to its requester, marked poisoned when it is (R633). -/
def finishRead (c : Nat) (r : DramReq) (errs : List Nat) (s : State) : State :=
  let a := burstOf r.addr
  let bad := decide (burstVerdict a errs s.dram = 2)
  let l := burstData a errs (storedBurst a s)
  let t := modChan18 c (fun x => { x with last := some (r.id, l, bad) }) (readChecked c a errs (useCheck c a false s))
  if bad then poisoned c r.client t else t

/-- A write completes: a whole burst, or a read-modify-write whose uncorrectable read leaves the burst POISON (R632). -/
def finishWrite (c : Nat) (r : DramReq) (l : List Byte) (errs : List Nat) (s : State) : State :=
  let a := burstOf r.addr
  let s := useCheck c a true s
  if l.length = 64 then modDram (fun d => { d with mem := putDrams a l d.mem, poison := d.poison.filter fun x => x != a }) s
  else
    let bad := decide (burstVerdict a errs s.dram = 2)
    let t := readChecked c a errs s
    modDram (fun d => { d with mem := putDrams r.addr l d.mem, poison := if bad then addPoison a d.poison else d.poison }) t

/-- A request ends, and a stalled one takes its place; `errs` are the wrong bits its burst shows (R633, R635). -/
def endRequest (ch : Nat) (r : DramReq) (errs : List Nat) (s : State) : State :=
  let t := leaveQueue ch r (openRow ch (dramBank r.addr) (dramRow r.addr) s)
  admitStalled ch (match r.data with
    | none => finishRead ch r errs t
    | some l => finishWrite ch r l errs t)

/-- DRAM_REQUEST_COMPLETE (R633): the request the channel serves next ends; `bitErrors` are the wrong bits its burst
shows. [DESIGN CHOICE, log 3; DEDUCED, log 77] -/
def execDramRequestComplete (ch id : Nat) (bitErrors : List Nat) (s : State) : Res :=
  .next (match nextRequest ch s with
  | some r => if r.id != id || (dramOf ch s).state != 1 then s else endRequest ch r bitErrors s
  | none => s)

/-! ### Scrubbing and refresh (R634, R638) -/

/-- Bursts of a channel, check bursts included. -/
def chanBursts (w : Words) : Nat := dramTotal w / 512

/-- The scrubber reads a burst: an uncorrectable one is marked POISON and not logged (R634). -/
def scrubBurst (ch a : Nat) (errs : List Nat) (s : State) : State :=
  let u := readChecked ch a errs s
  if burstVerdict a errs s.dram = 2 then modDram (fun d => { d with poison := addPoison a d.poison }) u else u

/-- A check burst shows wrong bits: bit i belongs to the check word of burst i / 32 of its chunk, of which bits 19:0 are check
bits of that burst's codewords (R629, R630). -/
def scrubCheck (ch chunk : Nat) (errs : List Nat) (s : State) : State :=
  (List.range 16).foldl (fun u j =>
    let mine := (errs.filter fun i => decide (i / 32 = j ∧ i % 32 < 20)).map fun i => 512 + i % 32
    if mine.isEmpty then u else scrubBurst ch (1024 * chunk + 64 * j) mine u) s

/-- SCRUB_STEP (R634): the next burst of the pass is read. [DESIGN CHOICE, log 81] -/
def execScrubStep (ch : Nat) (bitErrors : List Nat) (s : State) : Res :=
  .next (let x := dramOf ch s
  if x.state != 1 || cfgN F.DRAM_CFG_SCRUB_H 0 s = 0 then s
  else
    let a := burstAt ch x.scrub
    let t := modChan18 ch (fun y => { y with scrub := (y.scrub + 1) % chanBursts s.cfg.accepted }) s
    if dramUsable s.cfg.accepted ≤ a then scrubCheck ch ((a - dramUsable s.cfg.accepted) / 64) bitErrors t
    else scrubBurst ch a bitErrors t)

/-- MR4_POLL (R638): the refresh interval follows MR4; a code above the operating limit is logged once per run. [DESIGN CHOICE, log 81] -/
def execMr4Poll (ch code : Nat) (s : State) : Res :=
  .next (if (dramOf ch s).state != 1 then s
  else
    let t := modChan18 ch (fun x => { x with mr4 := code % 8 }) s
    if code % 8 = 7 then raiseOnce 1 0x1306 ch [] t else endRun 0x1306 ch t)

/-- REFRESH_DUE (R638): the refresh waits while an aged request does and fewer than eight are postponed; otherwise it and
the postponed ones are issued, bank by bank, and the tables are cleared when every row has been refreshed (R639). [DESIGN CHOICE, log 80] -/
def execRefreshDue (ch : Nat) (s : State) : Res :=
  .next (let x := dramOf ch s
  if x.state != 1 then s
  else if x.postponed < 8 ∧ x.queue.any (fun r => decide (cfgN F.DRAM_CFG_AGE_NS 0 s ≤ waitNs r s)) then
    modChan18 ch (fun y => { y with postponed := y.postponed + 1 }) s
  else
    let n := x.postponed + 1
    let banks := (List.range n).map fun i => (x.refreshes + i) % 16
    let pass := (List.range n).any fun i => (x.refreshes + i + 1) % Config.refreshPass == 0
    modChan18 ch (fun y => { y with
      refreshes := y.refreshes + n, postponed := 0
      rows := y.rows.zipIdx.map fun r => if banks.contains r.2 then none else r.1
      tables := if pass then List.replicate 16 [] else y.tables }) s)

/-! ### Delays, training and self-refresh (R641 to R643) -/

/-- The temperature of the PHY sensor nearest a channel: T6 to T9 serve two channels each (R703). -/
def phyTemp (c : Nat) (s : State) : Int := tempOf (6 + c / 2) s

/-- The delays interpolated for a temperature, when Survey holds sets for the channel (R642, R722). -/
def delayTargets (c : Nat) (t : Int) (s : State) : Option (List Int) :=
  let sets := calSets 2 c s
  if sets.isEmpty then none else some ((List.range 82).map fun k => (calValue k t sets).getD 0)

/-- How far a temperature lies outside the range the sets cover, in 1/16 °C (R642). -/
def outsideBy (c : Nat) (t : Int) (s : State) : Int :=
  match calSets 2 c s with
  | [] => 0
  | a :: r => max (a.temp - t) (t - ((a :: r).getLast?.getD a).temp)

/-- The delays of byte lane `b` among those of R640 whose read timing is retrained: its strobe and its eight bits. -/
def laneDelays (b : Nat) : List Nat := (10 + b) :: (List.range 8).map fun i => 14 + 8 * b + i

/-- DELAY_UPDATE (R642): inside an all-bank refresh each delay that differs moves one step; more than 10 °C outside the
covered range one byte lane is retrained instead. [DESIGN CHOICE, log 80] -/
def execDelayUpdate (ch : Nat) (s : State) : Res :=
  .next (let x := dramOf ch s
  let t := phyTemp ch s
  if x.state != 1 then s
  else match delayTargets ch t s with
  | none => s
  | some goal =>
    if 160 < outsideBy ch t s then
      let n := s.drawn
      raiseOnce 0 0x1307 ch [] (drawOne (modChan18 ch (fun y => { y with
        lane := (y.lane + 1) % 4, updates := wrapInc 32 y.updates, rows := List.replicate 16 none
        delays := y.delays.zipIdx.map fun d => if (laneDelays y.lane).contains d.2 then Config.trainedDelay ch n d.2 else d.1 }) s))
    else
      let u := endRun 0x1307 ch s
      if x.delays = goal then u
      else modChan18 ch (fun y => { y with
        updates := wrapInc 32 y.updates, setTemp := t, rows := List.replicate 16 none
        delays := y.delays.zipIdx.map fun d =>
          let g := goal.getD d.2 0
          if d.1 < g then d.1 + 1 else if g < d.1 then d.1 - 1 else d.1 }) u)

/-- A channel applies its sets and verifies them, or trains in full (R641). [DESIGN CHOICE, log 80] -/
def trainChan (c : Nat) (s : State) : State :=
  let t := phyTemp c s
  let n := s.drawn
  let full := (List.range 82).map (Config.trainedDelay c n)
  let d := match delayTargets c t s with
    | some l => if Config.delayCheck c n then l else full
    | none => full
  drawOne (modChan18 c (fun x => { x with delays := d, setTemp := t, state := 1 }) s)

/-- A channel's queues drain: at most `k` requests end (R643). -/
def drainChan (ch : Nat) : Nat → State → State
  | 0, s => s
  | k + 1, s => match nextRequest ch s with
    | some r => drainChan ch k (endRequest ch r [] s)
    | none => s

/-- All channels enter self-refresh with drained queues and written-back caches (R643). -/
def enterSelfRefresh (s : State) : State :=
  let t := (List.range 8).foldl (fun u c => drainChan c ((dramOf c u).queue.length + (dramOf c u).stalled.length) u) s
  modDram (fun d => { d with chans := d.chans.map fun x => { x with
    state := 2, draining := false, rows := List.replicate 16 none
    cache := x.cache.map fun e => (e.1, false)
    checkBursts := (x.checkBursts + (x.cache.filter fun e => e.2).length) % 2 ^ 32 }}) t

/-- Self-refresh ends: each channel applies the set for the present temperature; after more than 40 °C of change read
timing is retrained first (R643). -/
def leaveSelfRefresh (s : State) : State :=
  (List.range 8).foldl (fun u c =>
    if (dramOf c u).state != 2 then u
    else
      let t := phyTemp c u
      let n := u.drawn
      let far := decide (640 < (t - (dramOf c u).setTemp).natAbs)
      drawOne (modChan18 c (fun x => { x with
        state := 1, setTemp := t
        delays := ((delayTargets c t u).getD x.delays).zipIdx.map fun d =>
          if far && decide (10 ≤ d.2 ∧ d.2 < 46) then Config.trainedDelay c n d.2 else d.1 }) u)) s

/-! ### Message (R646) -/

/-- Message 0x1300 + c: channel status. -/
def channelStatusMsg (c : Nat) : MsgDef :=
  { blk := .dram, status := true,
    act := fun _ _ s =>
      let x := dramOf c s
      (.accept [x.state + cfgN F.DRAM_CFG_DENSITY 0 s * 2 ^ 2 + x.mr4 * 2 ^ 8 + toField 8 (min 127 (max (-128) ((x.setTemp + 8) / 16))) * 2 ^ 16,
        x.corrected, x.uncorrectable, x.neighbours, x.updates, x.scrub * 1000 / chanBursts s.cfg.accepted, x.longest], s) }

end Sys2Proof.Machine
end

