-- ==== Sys2Proof/Machine/Mailrows.lean ====
section
/-! DEFINITION. The mailbox messages, the timers and the wake events of the mailboxes, and the bulk window (chapter 20). -/

namespace Sys2Proof.Machine

/-- Applies `f` to the mailboxes. -/
def modMbx (f : Mailboxes → Mailboxes) (s : State) : State := { s with mbx := f s.mbx }

/-- Whether a register view can be reached (R666, R684, R785). [DEDUCED, log 87] -/
def viewOn (v : View) (s : State) : Bool :=
  s.dev.state != .off && s.dev.state != .bootRom &&
  match v with
  | .spi => true
  | .pcie => if s.dev.state == .configError then s.cfg.epEnabledImage && !s.pwr.thermallyOff else epOn s

/-! ### Timers (R682, R689, R692) -/

/-- REPLY_HOLD_EXPIRY (R682): the oldest held reply of a channel in a view is discarded, counted and logged once per
run. -/
def execReplyHoldExpiry (v : View) (c : Nat) (s : State) : Res :=
  .next (if (viewRegs v c s).waiting.isEmpty then s
  else raiseOnce 0 0x1402 c [] (modChan c (fun ch => { ch with discarded := wrapInc 32 ch.discarded })
    (modView v c (fun r => { r with waiting := r.waiting.drop 1 }) s)))

/-- TOKEN_SEQUENCE_TIMEOUT (R692): more than 1 s after the request the sequence ends, and the request is refused. -/
def execTokenSequenceTimeout (c : Nat) (path : Path) (s : State) : Res := .next (endSeq c path s)

/-- BULK_WINDOW_HOLD_EXPIRY (R689): 2 s without a window access by the holder. -/
def execBulkWindowHoldExpiry (s : State) : Res := .next (modMbx (fun m => { m with holder := none }) s)

/-! ### Windows and wakes (R683, R690) -/

/-- BULK_WINDOW_WRITE (R690): the holder's bytes are stored; any other path's write is ignored and counted. A PCIe access is at
most the maximum payload long (R362, R386). -/
def execBulkWindowWrite (v : View) (off : Nat) (data : List Byte) (s : State) : Res :=
  .next (if !viewOn v s || 0x100000 ≤ off || (v == .pcie && decide (512 < data.length)) then s
  else if holdsBulk (.regs v) s then writeBulk off data s
  else modMbx (fun m => { m with ignoredWrites := satInc 32 m.ignoredWrites }) s)

/-- WAKE_COMPLETE (R683): a receiver that slept is awake. -/
def execWakeComplete (recv : Nat) (s : State) : Res :=
  .next (modMbx (fun m => { m with asleep := m.asleep.filter fun r => r != recv }) s)

/-! ### Messages (R697) -/

/-- The code of the holder of the bulk window (R697). -/
def holderCode : Option View → Nat
  | none => 0
  | some .pcie => 1
  | some .spi => 2

/-- Message 0x1400: mailbox status. -/
def mailboxStatusMsg : MsgDef :=
  { count := fun c => c == 2, masks := [0xF], status := true,
    act := fun r _ s =>
      let c := r.w 1
      let ch := s.mbx.chans.getD c {}
      (.accept [receiverOf c s + b2n (s.mbx.asleep.contains (receiverOf c s)) * 2 ^ 3 + inWords c s * 2 ^ 4, ch.handled, ch.refusals,
        ch.discarded, ch.tokensRefused, holderCode s.mbx.holder], s) }

/-- Message 0x1401: nonce (R691). -/
def nonceMsg : MsgDef :=
  { always := true, act := fun r _ s =>
      let ws := (List.range 4).map (Config.nonceWord s.drawn)
      (.accept (ws.map BitVec.toNat), drawOne (modMbx (fun m => { m with
        nonces := (m.nonces.filter fun n => n.path != r.path) ++ [⟨r.path, ws, s.dev.elapsed⟩] }) s)) }

/-- A path claims the bulk window (R689, R690). [DESIGN CHOICE, log 86] -/
def bulkClaim (p : Path) (s : State) : Answer × State :=
  match pathView p with
  | none => (.refuse 5 0 0, s)
  | some v =>
    if s.mbx.holder = some v then (.accept [], s)
    else if s.mbx.holder.isSome then (.refuse 5 0 0, s)
    else (.accept [], modMbx (fun m => { m with holder := some v, claims := m.claims + 1, bulk := [] }) s)

/-- A path releases the bulk window. -/
def bulkRelease (p : Path) (s : State) : Answer × State :=
  if holdsBulk p s then (.accept [], modMbx (fun m => { m with holder := none }) s) else (.refuse 5 0 0, s)

/-- Message 0x1402: bulk window. -/
def bulkWindowMsg : MsgDef :=
  { count := fun c => c == 2, masks := [1], always := true, act := fun r _ s => if r.w 1 = 1 then bulkClaim r.path s else bulkRelease r.path s }

/-! ### Registers and datagrams (R386, R478, R684 to R686) -/

/-- Posts the words of a channel's transmit registers (R386, R684). [DEDUCED, log 87] -/
def postFrom (v : View) (c : Nat) (s : State) : State :=
  let ws := postWords (viewRegs v c s).tx
  if 8 < inWords c s + ws.length then modView v c (fun r => { r with refused := true }) s
  else enqueue c (.regs v) ws (modView v c (fun r => { r with refused := false }) s)

/-- POST (R386): the message in a channel's transmit registers enters its inbound queue whole, or not at all. [DEDUCED, log 87] -/
def execPost (v : View) (c : Nat) (s : State) : Res := .next (if viewOn v s && decide (c < 16) then postFrom v c s else s)

/-- The oldest reply of a channel in a view is removed; held replies follow while they fit (R386, R682). -/
def ackFrom (v : View) (c : Nat) (s : State) : State :=
  let n := (viewRegs v c s).waiting.length
  let t := modView v c (fun r => placeHeld n { r with outq := r.outq.drop 1 }) s
  if (viewRegs v c t).waiting.isEmpty then endRun 0x1402 c t else t

/-- ACK (R386). [DEDUCED, log 87] -/
def execAck (v : View) (c : Nat) (s : State) : Res := .next (if viewOn v s && decide (c < 16) then ackFrom v c s else s)

/-- What a read of a register of the mailbox layout returns in a view, a word of the bulk window included; a window read from a
path that does not hold it returns zero (R386, R690). -/
def readRegister (v : View) (addr : Nat) (s : State) : Nat :=
  let c := addr / 0x100
  let o := addr % 0x100
  let x := viewRegs v c s
  let oldest := x.outq.headD []
  if 0x100000 ≤ addr then
    (if addr < 0x200000 && holdsBulk (.regs v) s then leVal (readBulk (addr - 0x100000) 4 s) else 0)
  else if 16 ≤ c then 0
  else if o = 0x20 then (8 - inWords c s) + b2n x.refused * 2 ^ 8
  else if 0x40 ≤ o ∧ o < 0x60 ∧ o % 4 = 0 then (oldest.getD ((o - 0x40) / 4) 0).toNat
  else if o = 0x60 then oldest.length
  else if o = 0x64 then b2n x.irqEn
  else 0

/-- MBX_IRQ_L is driven low while a channel whose IRQ_EN in the SPI view is 1 holds a reply (R685). -/
def mbxIrqLow (s : State) : Bool := s.mbx.spi.any fun x => x.irqEn && !x.outq.isEmpty

/-- REGISTER_WRITE (R386): a write of a whole register of the mailbox layout; other offsets ignore writes. [DEDUCED, log 87] -/
def execRegisterWrite (v : View) (addr : Nat) (value : Word) (s : State) : Res :=
  let c := addr / 0x100
  let o := addr % 0x100
  .next (if !viewOn v s then s
  else if 0x100000 ≤ addr then
    (if 0x200000 ≤ addr then s
    else if holdsBulk (.regs v) s then writeBulk (addr - 0x100000) (leBytes 4 value.toNat) s
    else modMbx (fun m => { m with ignoredWrites := satInc 32 m.ignoredWrites }) s)
  else if 16 ≤ c then s
  else if o < 0x20 ∧ o % 4 = 0 then modView v c (fun r => { r with tx := modAt r.tx (o / 4) fun _ => value }) s
  else if o = 0x20 then (if value.toNat % 2 = 1 then postFrom v c s else s)
  else if o = 0x60 then (if value.toNat % 2 = 1 then ackFrom v c s else s)
  else if o = 0x64 then modView v c (fun r => { r with irqEn := value.toNat % 2 == 1 }) s
  else s)

end Sys2Proof.Machine
end

