-- ==== Sys2Proof/Machine/Images.lean ====
section
/-! DEFINITION. Images of the boot NVM: headers, regions, and the verification of R733 and R734. -/

namespace Sys2Proof.Machine

/-- The first 256 bytes of a region; beyond what is programmed it reads erased. -/
def imageHeader (l : List Byte) : List Byte := slice l 0 256 0xFF

/-- BODY_BYTES of an image (R651). -/
def imageBodyBytes (l : List Byte) : Nat := fieldAt (imageHeader l) 0x10 4
/-- The body of an image. -/
def imageBody (l : List Byte) : List Byte := slice l 256 (imageBodyBytes l) 0xFF
/-- SIGNER of an image. -/
def imageSigner (l : List Byte) : Nat := bits (fieldAt (imageHeader l) 4 4) 18 16
/-- FORMAT of an image (R651). -/
def imageFormat (l : List Byte) : Nat := fieldAt (imageHeader l) 0x14 4 % 256

/-- The size of the NVM that the boot header declares in bytes (R648, R652). -/
def nvmBytes (s : State) : Nat := fieldAt (slice s.nvm.header 0 0x108 0xFF) 0x100 4 * 2 ^ 20

/-- The bytes an image of a KIND can take in its region (R529, R648, R724). -/
def regionBytes (kind : Nat) (s : State) : Nat :=
  match kind with
  | 0 => 0xC00
  | 1 => 0x1000000
  | 2 => 0x400000
  | 3 => 0x1C0000
  | 4 => 0x80000
  | _ => nvmBytes s - 0x2C01000

/-- The bytes of the region of a KIND; `b` selects slot B (R648). -/
def regionOf (kind : Nat) (b : Bool) (s : State) : List Byte :=
  match kind with
  | 0 => s.nvm.header
  | 1 => if b then s.nvm.vendorB else s.nvm.vendorA
  | 2 => if b then s.nvm.ownerB else s.nvm.ownerA
  | 3 => s.nvm.assay
  | 4 => s.nvm.calFactory
  | _ => s.nvm.payloads

/-- Whether the signer of an image is permitted for its KIND, and its key checks (R733). [DEDUCED, log 93] -/
def signerOk (kind : Nat) (l : List Byte) (s : State) : Bool :=
  let g := imageSigner l
  let h := sha256 (slice (imageHeader l) 0x40 64)
  if kind = 2 ∨ kind = 5 then
    let o := s.otp.slots.getD (g - 1) {}
    decide (1 ≤ g ∧ g ≤ 4) && h == o.hash && o.state == 1
  else g == 0 && h == s.otp.vendorHash

/-- The reason code of the first check of R734 that an image fails; 0 when it is valid. [DEDUCED, log 93] -/
def imageReason (kind : Nat) (l : List Byte) (s : State) : Nat :=
  let h := imageHeader l
  let at_ := fun (o : Nat) => fieldAt h o 4
  let bind := fieldAt h 0x18 8
  if at_ 0 ≠ 0x47495947 ∨ bits (at_ 4) 15 8 ≠ 1 ∨ at_ 4 % 256 ≠ kind then 1
  else if regionBytes kind s < 256 + imageBodyBytes l then 2
  else if !signerOk kind l s then 3
  else if !ecdsaVerify (slice h 0x40 64) (h.take 0x80) (slice h 0x80 64) then 4
  else if sha256 (imageBody l) ≠ slice h 0x20 32 then 5
  else if bind ≠ 0 ∧ bind ≠ s.otp.serial then 6
  else if 64 < at_ 0xC ∨ at_ 0xC < s.otp.rollback.getD kind 0 then 7
  else 0

/-- The measurement of an image (R744). [DEDUCED, log 93] -/
def measureImage (kind : Nat) (b : Bool) (reason : Nat) (s : State) : Measure :=
  let l := regionOf kind b s
  let h := imageHeader l
  let present := h.any fun x => x != 0xFF
  if reason = 0 then
    { slotB := b, present := present, verified := true, version := fieldAt h 8 4, rollback := fieldAt h 0xC 4, signer := imageSigner l
      digest := sha256 h }
  else { slotB := b, present := present }

/-- Verifies the image of a region at start-up: a refused image is logged (R734), and the measurement is kept. [DEDUCED, log 93] -/
def verifyRegion (kind : Nat) (b : Bool) (s : State) : Bool × State :=
  let r := imageReason kind (regionOf kind b s) s
  let t := { s with cfg := { s.cfg with images := modAt s.cfg.images kind fun _ => measureImage kind b r s } }
  if r = 0 then (true, t) else (false, raise 0 0x1602 noInst [kind + b2n b * 2 ^ 8 + r * 2 ^ 16] t)

/-- The record in force of a kind: the last one (R714). -/
def slotRecord (kind : Nat) (s : State) : Option SlotRec := (s.nvm.slotRecs.filter fun r => r.kind == kind).getLast?

/-- Appends a slot record; when all 64 are used the area is rewritten after the next confirmed boot (R714, R718). -/
def appendSlot (r : SlotRec) (s : State) : State :=
  let l := s.nvm.slotRecs ++ [r]
  { s with nvm := { s.nvm with slotRecs := l, rewriteDue := s.nvm.rewriteDue || decide (64 ≤ l.length) } }

/-- Changes the record in force of a kind. -/
def setSlot (kind : Nat) (f : SlotRec → SlotRec) (s : State) : State :=
  let i := ((s.nvm.slotRecs.zipIdx.filter fun r => r.1.kind == kind).getLast?.map (·.2))
  match i with
  | some i => { s with nvm := { s.nvm with slotRecs := modAt s.nvm.slotRecs i f } }
  | none => s

/-- R715 at a start: the slot to run, B or not. [DEDUCED, log 93] -/
def chooseSlot (kind : Nat) (s : State) : Bool × State :=
  match slotRecord kind s with
  | none => (false, s)
  | some r =>
    if r.confirmed then (r.trySlot == 1, s)
    else if r.tries < 3 then (r.trySlot == 1, setSlot kind (fun x => { x with tries := x.tries + 1 }) s)
    else
      let t := appendSlot { r with trySlot := r.fallback, tries := 0, confirmed := true
                                   version := fieldAt (imageHeader (regionOf kind (r.fallback == 1) s)) 8 4 } s
      (r.fallback == 1, raise 1 0x1522 noInst [kind] t)

end Sys2Proof.Machine
end

