-- ==== Sys2Proof/Machine/Sensor.lean ====
section
/-! DEFINITION. Sensor Parallel Ports: bring-up and training, frames and lines, faults, clocks, windows, triggers and the
port messages (chapter 2). -/

namespace Sys2Proof.Machine

/-- DV, FV, LV and CK as bits of a port's masks (R90). [DESIGN CHOICE, log 20] -/
def pairFV : Nat := 40
/-- LV pair. [DESIGN CHOICE, log 20] -/
def pairLV : Nat := 41
/-- DV pair. [DESIGN CHOICE, log 20] -/
def pairDV : Nat := 42
/-- CK pair. [DESIGN CHOICE, log 20] -/
def pairCK : Nat := 43

/-- Whether bit `i` of a mask is set. -/
def hasPair (m i : Nat) : Bool := m / 2 ^ i % 2 == 1

/-- The data pairs of a mask. -/
def dataPairs (m : Nat) : Nat := m % 2 ^ 40

/-- The pairs whose fault stops the port under either policy (R73). -/
def controlPairs (dvUse : Bool) (m : Nat) : Nat := m / 2 ^ 40 % (if dvUse then 8 else 4) * 2 ^ 40

/-- The detail words of a pair mask in the layout of R90 (R68). [DESIGN CHOICE, log 20; DEDUCED, log 103] -/
def maskDetail (m : Nat) : List Nat := [m % 2 ^ 32, m / 2 ^ 32]

/-- Whether a port takes part: enabled, and its block on. -/
def portLive (p : Nat) (s : State) : Bool := decide (p < 4) && blkOn .sensor s && cfgB F.SP_PORT_ENABLE p s

/-- DV_USE of a port's gang (R63). -/
def dvUse (p : Nat) (s : State) : Bool := cfgB F.SP_PORT_DV_USE (leadOf p s) s

/-- Whether a measured clock lies within 1 % of CK_MHZ (R57). -/
def clockOk (p kHz : Nat) (s : State) : Bool :=
  let d := cfgN F.SP_PORT_CK_MHZ (leadOf p s) s * 1000
  decide (((kHz : Int) - d).natAbs * 100 ≤ d)

/-! ### Training (R67 to R70, R72 to R74) -/

/-- A run of consecutive passing delay steps that share an offset and a polarity (R67 steps 4 and 5). -/
structure TrainRun where
  offset : Nat
  inverted : Bool
  first : Nat
  last : Nat
deriving DecidableEq, Repr, Inhabited

/-- The pattern of pair `i` of a port, beat by beat (R92). -/
def pairPattern (p i : Nat) (s : State) : List Bool :=
  (List.range (cfgN F.SP_TRAIN_LENGTH p s)).map fun k =>
    if i < 32 then bits (cfgN (F.SP_TRAIN_PAT_D_LO k) p s) i i == 1
    else if i < 40 then bits (cfgN (F.SP_TRAIN_PAT_D_HI k) p s) (i - 32) (i - 32) == 1
    else if i = pairFV then cfgB (F.SP_TRAIN_PAT_FV k) p s
    else if i = pairLV then cfgB (F.SP_TRAIN_PAT_LV k) p s
    else cfgB (F.SP_TRAIN_PAT_DV k) p s

/-- Level `j` of a sequence that repeats; an empty one stays low. -/
def levelAt (l : List Bool) (j : Nat) : Bool := l.getD (j % l.length) false

/-- Edges after which two repeating sequences have shown every pair of levels, at most `top`. -/
def edgesOf (top : Nat) (a b : List Bool) : Nat := min top (max 1 a.length * max 1 b.length)

/-- Whether the first `top` edges sampled match the pattern `o` beats late, inverted or not (R67 step 4). -/
def matchesAt (top : Nat) (pat : List Bool) (o : Nat) (inv : Bool) (bs : List Bool) : Bool :=
  (List.range (edgesOf top pat bs)).all fun j => (levelAt bs j != inv) == levelAt pat (j + 8 * pat.length - o)

/-- The runs of consecutive delay steps 0 to 127 that some range covers, in rising order. -/
def stepRuns (is : List (Nat × Nat)) : List (Nat × Nat) :=
  if is.isEmpty then [] else
  ((List.range 128).foldl (fun rs k =>
    if is.any fun i => decide (i.1 ≤ k ∧ k ≤ i.2) then match rs with
      | (a, b) :: r => if b + 1 = k then (a, k) :: r else (k, k) :: rs
      | [] => [(k, k)]
    else rs) []).reverse

/-- The observation of pair `i`. -/
def obsOf (obs : TrainObs) (i : Nat) : PairObs := obs.pairs.getD i ⟨[], false, false, []⟩

/-- Every run that the delay sweep finds on a pair: not inverted before inverted, lower offsets first (R67 step 4). -/
def pairRuns (p : Nat) (obs : TrainObs) (i : Nat) (s : State) : List TrainRun :=
  let pat := pairPattern p i s
  let ss := (obsOf obs i).samples
  [false, true].flatMap fun inv => (List.range (min 7 (pat.length - 1) + 1)).flatMap fun o =>
    (stepRuns ((ss.filter fun x => matchesAt 256 pat o inv x.bits).map fun x => (x.first, x.last))).map fun r => ⟨o, inv, r.1, r.2⟩

/-- The longest run, the one with the lower steps of two equal ones; of equal steps the first in the order of `pairRuns` (R67
step 5). [DESIGN CHOICE, log 18] -/
def bestRun (rs : List TrainRun) : Option TrainRun :=
  rs.foldl (fun best r => match best with
    | none => some r
    | some b =>
      if b.last - b.first < r.last - r.first ∨ (b.last - b.first = r.last - r.first ∧ r.first < b.first) then some r
      else some b) none

/-- The window of pair `i`: its run, when long enough and of an accepted polarity (R67 steps 5, 6). [DESIGN CHOICE, log 18] -/
def pairWindow (p : Nat) (obs : TrainObs) (i : Nat) (s : State) : Option TrainRun :=
  match bestRun (pairRuns p obs i s) with
  | some r =>
    if r.last + 1 - r.first < cfgN F.SP_TRAIN_MIN_WINDOW p s ∨ (r.inverted ∧ !cfgB F.SP_PORT_POL_AUTO p s) then none else some r
  | none => none

/-- The largest offset found on the port, to which every pair is slipped (R67 step 7). -/
def topOffset (p : Nat) (obs : TrainObs) (s : State) : Nat :=
  ((List.range 43).map fun i => ((pairWindow p obs i s).map (·.offset)).getD 0).foldl max 0

/-- Whether a sequence has no transition. -/
def steady (l : List Bool) : Bool := l.all fun b => b == l.headD false

/-- Whether a pair is stuck: no transitions where its pattern has them (R72). -/
def pairStuck (p : Nat) (obs : TrainObs) (i : Nat) (s : State) : Bool :=
  steady (obsOf obs i).check && !steady (pairPattern p i s)

/-- Whether two sequences agree over the 4,096 edges of step 8. -/
def sameLevels (a b : List Bool) : Bool := (List.range (edgesOf 4096 a b)).all fun j => levelAt a j == levelAt b j

/-- Another pair that samples the sequence of pair `i` where their patterns differ, and is neither open, nor stuck, nor has
a leg fault (R72). -/
def shortedWith (p : Nat) (obs : TrainObs) (i : Nat) (s : State) : Option Nat :=
  (List.range 43).find? fun k =>
    let o := obsOf obs k
    k != i && !o.low && !o.leg && !pairStuck p obs k s && !sameLevels (pairPattern p i s) (pairPattern p k s) &&
      sameLevels (obsOf obs i).check o.check

/-- What step 8 finds on pair `i` by the table of R72: the detectors first, then the levels sampled against the pattern, as
the port's largest offset delays it. -/
def pairFault (p : Nat) (obs : TrainObs) (i : Nat) (s : State) : Option PairFault :=
  let o := obsOf obs i
  if o.low then some .openPair else if o.leg then some .leg else if i = pairCK then none
  else if (pairWindow p obs i s).isSome && matchesAt 4096 (pairPattern p i s) (topOffset p obs s) false o.check then none
  else if pairStuck p obs i s then some .stuck
  else some (.short ((shortedWith p obs i s).getD i))

/-- The pairs a fault of pair `i` marks: its own, and the other of a short (R72). -/
def faultPairs (i : Nat) : Option PairFault → Nat
  | none => 0
  | some (.short k) => 2 ^ i ||| 2 ^ k
  | some _ => 2 ^ i

/-- The faulted pairs that training finds (R67 step 8, R72). With DV_USE 0 the port ignores DV (R58), so what DV samples
faults no pair. [DESIGN CHOICE, log 18] -/
def trainFaults (p : Nat) (obs : TrainObs) (s : State) : Nat :=
  let m := (((List.range 44).filter fun i => dvUse p s || i != pairDV).map fun i =>
    faultPairs i (pairFault p obs i s)).foldl (· ||| ·) 0
  if dvUse p s then m else m - (if hasPair m pairDV then 2 ^ pairDV else 0)

/-- The pairs training inverts (R67 step 6). -/
def trainInversions (p : Nat) (obs : TrainObs) (s : State) : Nat :=
  (((List.range 43).filter fun i => ((pairWindow p obs i s).map (·.inverted)) == some true).map fun i => 2 ^ i).foldl (· ||| ·) 0

/-- Delays and slips (R67 steps 5, 7). -/
def trainDelays (p : Nat) (obs : TrainObs) (s : State) : List Nat × List Nat :=
  let ws := (List.range 43).map fun i => pairWindow p obs i s
  let top := topOffset p obs s
  (ws.map fun w => match w with
    | some r => (r.first + r.last) / 2
    | none => 0,
   ws.map fun w => match w with
    | some r => top - r.offset
    | none => 0)

/-- Whether a fault mask stops the port (R73, R74); a fault on CK is a lost clock instead. -/
def maskStops (p m : Nat) (s : State) : Bool :=
  controlPairs (dvUse p s) m != 0 || (dataPairs m != 0 && !cfgB F.SP_PORT_FAULT_POLICY p s)

/-- Logs the errors that a mask of new faults gives (R73, R74); `ck` is the severity of a lost clock (R89). -/
def logFaults (p m ck : Nat) (s : State) : State :=
  let c := controlPairs (dvUse p s) m
  let d := dataPairs m
  let s := if d ≠ 0 then raise (if cfgB F.SP_PORT_FAULT_POLICY p s then 1 else 2) (portErr p 3) p (maskDetail d) s else s
  let s := if c ≠ 0 then raise 2 (portErr p 3) p (maskDetail c) s else s
  if hasPair m pairCK then raise ck (portErr p 1) p [] s else s

/-- A fault on the CK pair is handled as a lost clock (R73, R76). -/
def loseClock (p m : Nat) (s : State) : State :=
  if hasPair m pairCK then modPort p (fun x => { x with clock := false }) s else s

/-- How the script of a field of SPn.SCBUS, run outside the sequencer, ends: an abandoned one is logged and counted, and on a
dead bus one that writes or checks is abandoned (R67, R80). No tag is stamped, as no window and so no N belongs to it. [DESIGN CHOICE, log 26] -/
def directScript (p : Nat) (f : Fld) (e : ScriptEnd) (s : State) : State :=
  let es := if cfgN f p s = 0 then [] else (scriptOf (payload s.cfg.tables (cfgN f p s))).getD []
  let bad := fun (k : Nat) =>
    raise 1 (portErr p k) p [] (modPort p (fun x => { x with abandoned := min 0xFFFF (x.abandoned + 1) }) s)
  if es.isEmpty then s
  else match (if busDead p s && es.any (fun x => entOp x == 1 || entOp x == 2) then .busError else e) with
  | .done => s
  | .busError => bad 7
  | .mismatch => bad 9

/-- The end of the interval in which a seam's trigger is held: the first point whose target lies at least 1 µs later (R87). -/
def armTrigger (p : Nat) (s : State) : State :=
  match portSeam p s with
  | some n =>
    let ports := gangPorts s.cfg.accepted (leadOf p s)
    let first := fun q => firstPoint n ((nowUnits s : Int) + 65536000 - portDelay q s) s
    if ports.all fun q => !(portOf q s).suppressed then
      let t := ports.foldl (fun u q => modPort q (fun x => { x with
        trigNext := first q, trigLast := none, trigDelay := portDelay q s }) u) s
      modExp n (fun x => { x with
        n := first (leadOf p s), armed := true, last := none, lastPeriod := framePeriodNs n s, rate := schedRate n s }) t
    else s
  | none => s

/-- Ports start a retrain: no trigger from step 3, no window, no frame (R71, R87). -/
def startRetrain (ps : List Nat) (s : State) : State :=
  let t := modCap (fun c => { c with ports := modMany ps (fun x => { x with
      phase := .retrain, suppressed := true, retrainAsked := false, absentLong := false, windowOpen := false,
      trigLevel := false, awaiting := none }) c.ports }) s
  ps.foldl (fun u p => match portSeam p u with
    | some n => modExp n (fun x => { x with armed := false }) u
    | none => u) t

/-- The next port of a running Survey item 0 is trained at its next FV fall, or at once with no frame in flight (R719). [DEDUCED, log 102] -/
def surveyNext (p : Nat) (s : State) : State :=
  if s.hf.surveyPorts.headD 4 ≠ p then s
  else
    let t := { s with hf := { s.hf with surveyPorts := s.hf.surveyPorts.drop 1 } }
    match t.hf.surveyPorts with
    | [] => t
    | q :: _ => if (portOf (leadOf q t) t).fv then modPort q (fun x => { x with retrainAsked := true }) t else startRetrain [q] t

/-- Step 9 and what follows: TRAIN_OFF_SCRIPT, then the port runs or stays stopped. -/
def finishTraining (p : Nat) (obs : TrainObs) (s : State) : State :=
  let s := directScript p F.SP_SCBUS_TRAIN_OFF_SCRIPT (obs.scripts.getD 2 .done) s
  let stop := maskStops p (portOf p s).faultMask s
  surveyNext p (armTrigger p (modPort p (fun x => { x with
    phase := if stop then .stopped else .running, suppressed := false, skip := true, fv := false, lv := false
    newFaults := 0 }) s))

/-- The settings that training gives a port (R67 steps 5 to 8). [DESIGN CHOICE, log 18] -/
def applyTraining (p : Nat) (obs : TrainObs) (s : State) : State :=
  let (d, sl) := trainDelays p obs s
  modPort p (fun x => { x with
    faultMask := trainFaults p obs s, invMask := trainInversions p obs s, delays := d, slips := sl, trained := d
    trainTemp := tempOf 14 s }) s

/-- Steps 3 to 8 at role start; a port unable to run stops start-up (R67, R68). -/
def trainAtStart (p : Nat) (obs : TrainObs) (s : State) : State :=
  let s := directScript p F.SP_SCBUS_TRAIN_ON_SCRIPT (obs.scripts.getD 1 .done) s
  let m := trainFaults p obs s
  let t := logFaults p m 3 (applyTraining p obs s)
  if maskStops p m s || hasPair m pairCK then
    enterConfigError (raise 3 (portErr p 2) p (maskDetail m) (modPort p (fun x => { x with phase := .stopped }) t))
  else finishTraining p obs t

/-- Steps 3 to 9 of a retrain; a failed one keeps the previous settings (R71), and a fault on CK loses the clock (R73). -/
def trainAgain (p : Nat) (obs : TrainObs) (s : State) : State :=
  let s := directScript p F.SP_SCBUS_TRAIN_ON_SCRIPT (obs.scripts.getD 1 .done) s
  let m := trainFaults p obs s
  let old := (portOf p s).faultMask
  loseClock p m (if maskStops p m s then raise 1 (portErr p 2) p (maskDetail m) (finishTraining p obs s)
    else finishTraining p obs (logFaults p (m - (m &&& old)) 2 (applyTraining p obs s)))

/-- PORT_BRING_UP (R67): the steps of role start, or of a retrain (R71). Without a clock in range the port waits. -/
def execPortBringUp (p : Nat) (obs : TrainObs) (s : State) : Res :=
  let ok := (obs.clockKHz.map fun k => clockOk p k s).getD false
  let ph := (portOf p s).phase
  .next (if !portLive p s then s
    else if ph == .bringUp then
      let t := directScript p F.SP_SCBUS_INIT_SCRIPT (obs.scripts.getD 0 .done) s
      if ok then trainAtStart p obs (modPort p (fun x => { x with clock := true }) t) else t
    else if ph == .retrain && ok then trainAgain p obs (modPort p (fun x => { x with clock := true }) s)
    else s)

/-- SENSOR_CLOCK_TIMEOUT (R67 step 2): no clock within 10 ms at role start. -/
def execSensorClockTimeout (p : Nat) (s : State) : Res :=
  .next (if portLive p s && (portOf p s).phase == .bringUp && !(portOf p s).clock then
    enterConfigError (raise 3 (portErr p 1) p [] (modPort p (fun x => { x with phase := .stopped }) s)) else s)

/-- DESKEW_UPDATE (R70, R722): each delay moves at most one step per frame toward the change the sets predict since
training, while FV is low. [DEDUCED, log 102] -/
def execDeskewUpdate (p : Nat) (s : State) : Res :=
  let x := portOf p s
  let sets := calSets 0 p s
  .next (if !portLive p s || x.phase != .running || (portOf (leadOf p s) s).fv || x.moved || sets.isEmpty then s
    else modPort p (fun y => { y with
      moved := true
      delays := y.delays.zipIdx.map fun d =>
        match calValue d.2 (tempOf 14 s) sets, calValue d.2 y.trainTemp sets with
        | some a, some b =>
          let want := clampN 127 ((y.trained.getD d.2 0 : Int) + a - b)
          if d.1 < want then d.1 + 1 else if want < d.1 then d.1 - 1 else d.1
        | _, _ => d.1 }) s)

/-! ### Frames (R27, R29, R59, R65, R66, R75, R82, R507) -/

/-- Faults the run-time detectors found take effect at the FV rise (R75). [DEDUCED, log 21] -/
def applyNewFaults (p : Nat) (s : State) : State :=
  let m := (portOf p s).newFaults
  if m = 0 then s
  else
    let t := logFaults p m 2 (modPort p (fun x => { x with newFaults := 0, faultMask := x.faultMask ||| m }) s)
    let t := loseClock p m t
    if maskStops p m s then modPort p (fun x => { x with phase := .stopped, windowOpen := false }) t else t

/-- An FV rise closes an open window, which then is as long as it has been open, and a new frame begins, as yet without a
window (R82, R84). -/
def closeWindow (now : Nat) (x : Port) : Port :=
  if x.windowOpen then
    { x with windowOpen := false
             windows := (0 :: (min now x.windowTo - x.windowFrom) :: x.windows.drop 1).take 16 }
  else { x with windows := (0 :: x.windows).take 16 }

/-- Whether FV rises or LV edges lie more than 8 beats apart; the leader stands at 0 (R66). -/
def skewsBad (skews : List Int) : Bool :=
  let hi := skews.foldl max 0
  let lo := skews.foldl min 0
  decide (8 < hi - lo)

/-- Whether an LV edge of a member lies more than 8 beats from the leader's (R66). -/
def lvSkewsBad (skews : List Int) : Bool := skews.any fun k => decide (8 < k.natAbs)

/-- The frame in flight at a port is dropped whole: counted, its record closed (R35, R542). A frame the pipeline has
released already stays released (R107). [DEDUCED, log 22; DEDUCED, log 23] -/
def portDrop (p : Nat) (s : State) : State :=
  let x := portOf p s
  let t := modPort p (fun y => { y with skip := true, dropped := wrapInc 32 y.dropped }) s
  match portSeam p s with
  | some n => closeRecord n x.lastNum [] (if (seamOf n t).receiving then dropReceiving n t else t)
  | none => t

/-- Exposure-start TOD and exposure index of a frame whose FV rises now (R29, R507). -/
def exposureOf (p n : Nat) (s : State) : Tod × Int :=
  match (portOf p s).awaiting with
  | some e => e
  | none => (nowTod s, indexOfTime n (nowTod s) s)

/-- The header of a frame created at a port (R26, R27, R29, R31, R85, R517, R541). -/
def newHeader (p n num : Nat) (exp : Tod) (s : State) : FrameHeader :=
  { num := num, epoch := if s.dev.role == .head then s.red.eh else 0, tag := (portOf p s).tag, seam := n, exp := exp
    timecode := timecode exp s, metro := metroIndex num s
    freeRun := s.time.clk == 0 || (s.dev.role == .head && s.time.bodyFreeRun) }

/-- A frame begins at leader `p` of seam `n`. A member without its clock has no FV rise, so the gang disagrees (R66). [DEDUCED, log 19] -/
def beginFrame (p n : Nat) (gang : Bool) (s : State) : State :=
  let num := (seamOf n s).nextNum
  let (exp, idx) := exposureOf p n s
  let s := modSeam n (fun y => { y with nextNum := num + 1 }) s
  let s := modPort p (fun y => settleTag num { y with lastNum := num, awaiting := none, fvRise := some (nowUnits s), fvFall := none }) s
  let s := openRecord n p num (portOf p s).tag exp s
  let ports := gangPorts s.cfg.accepted p
  let ready := ports.all fun q => (portOf q s).phase == .running
  let clocked := ports.all fun q => (portOf q s).clock
  let dropped := fun t => loopFrame n num (portOf p s).tag (portDrop p t)
  if !ready then dropped (noteDrop n (commitArrival n num idx s))
  else if gang || !clocked then dropped (raise 2 (portErr p 4) p [] (noteDrop n (commitArrival n num idx s)))
  else
    let t := loopFrame n num (portOf p s).tag (arrive n (newHeader p n num exp s) idx s)
    if (seamOf n t).receiving then modPort p (fun y => { y with skip := false }) t
    else closeRecord n num [] (modPort p (fun y => { y with skip := true }) t)

/-- FRAME_START (R59): FV is sampled high after low at a port or gang leader. A stopped port, or one without its clock,
samples no frame. [DESIGN CHOICE, log 3; DEDUCED, log 19] -/
def execFrameStart (p : Nat) (skews : List Int) (s : State) : Res :=
  let x := portOf p s
  let ports := gangPorts s.cfg.accepted p
  .next (if !portLive p s || leadOf p s != p || x.fv || !x.clock || x.phase == .off || x.phase == .bringUp ||
      x.phase == .stopped then s
    else
      let s := ports.foldl (fun t q => applyNewFaults q t) s
      if !(portOf p s).clock then modPort p (fun y => { y with skip := true, lines := 0 }) s
      else
      let now := nowUnits s
      let s := modCap (fun c => { c with ports := modMany ports (fun y => { closeWindow now y with moved := false }) c.ports }) s
      let s := modPort p (fun y => { y with fv := true, lv := false, skip := true, lines := 0 }) s
      match portSeam p s with
      | some n => if s.pwr.entering then s else beginFrame p n (skewsBad skews) s
      | none => modPort p (fun y => { y with fvRise := some now, fvFall := none }) s)

/-- A violation of the sync rules drops the frame whole; the port waits for the next FV rise (R60). [DEDUCED, log 22] -/
def syncViolation (p : Nat) (s : State) : State :=
  if (portOf p s).skip then s else raise 2 (portErr p 0xB) p [] (portDrop p s)

/-- The ports of a gang disagree (R66). [DEDUCED, log 22] -/
def gangDisagree (p : Nat) (s : State) : State :=
  if (portOf p s).skip then s else raise 2 (portErr p 4) p [] (portDrop p s)

/-- LINE_START (R59, R60, R66, R116). `gap` counts the edges since FV rose before the first line, and since LV fell
otherwise. -/
def execLineStart (p gap : Nat) (skews : List Int) (s : State) : Res :=
  let x := portOf p s
  let least := if x.lines = 0 then cfgN F.SP_PORT_FV_EDGE_GAP p s else cfgN F.SP_PORT_LV_GAP p s
  .next (if !portLive p s || !x.fv || x.lv then s
    else
      let s := modPort p (fun y => { y with lv := true, lines := y.lines + 1 }) s
      if gap < least then syncViolation p s
      else if lvSkewsBad skews then gangDisagree p s
      else if x.skip then s
      else match portSeam p s with
        | some n =>
          let t := claimStripe n s
          if (seamOf n t).receiving then t
          else closeRecord n x.lastNum [] (modPort p (fun y => { y with skip := true }) t)
        | none => s)

/-! ### Lines (R58, R61 to R64, R74, R75) -/

/-- A beat's data bits as the port delivers them: reversed pairs inverted, faulted pairs forced to 0 (R67, R74). -/
def beatValue (inv faulted : Nat) (b : Beat) : Nat :=
  let v := b.toNat ^^^ dataPairs inv
  v - (v &&& dataPairs faulted)

/-- The valid beats of one port of a line (R58). -/
def validBeats (p : Nat) (bs : List (Bool × Beat)) (s : State) : List Nat :=
  let x := portOf p s
  let flip := hasPair x.invMask pairDV
  (bs.filter fun b => !dvUse p s || (b.1 != flip)).map fun b => beatValue x.invMask x.faultMask b.2

/-- Gang beats: beat g is beat ⌊g / n⌋ of the port at position g mod n (R64). -/
def gangBeats (bs : List (List Nat)) : List Nat :=
  (List.range ((bs.headD []).length)).flatMap fun k => bs.map fun l => l.getD k 0

/-- The bit stream of a line as a number, LSB first (R61). -/
def lineBits : List Nat → Nat
  | [] => 0
  | b :: r => b + 2 ^ 40 * lineBits r

/-- The pixels of a line (R61). -/
def linePixels (b : Nat) (beats : List Nat) : List Nat :=
  let v := lineBits beats
  (List.range (beats.length * 40 / b)).map fun k => v / 2 ^ (k * b) % 2 ^ b

/-- The pairs a run-time detector newly finds: amplitude and common mode only (R72, R75). [DEDUCED, log 21] -/
def detected (p pos : Nat) (faults : List (Nat × PairFault)) (s : State) : Nat :=
  let x := portOf p s
  let m := (faults.filterMap fun f =>
    if f.1 / 44 ≠ pos then none else match f.2 with
      | .openPair | .leg => some (2 ^ (f.1 % 44))
      | _ => none).foldl (· ||| ·) 0
  let m := if dvUse p s then m else m - (if hasPair m pairDV then 2 ^ pairDV else 0)
  m - (m &&& x.faultMask)

/-- A complete line of samples goes to the ring; the excess beyond the declared width is discarded (R37, R62, R99). In the
integrated role the frame's record closes with its last line (R542). [DEDUCED, log 23] -/
def storeLine (p n : Nat) (px : List Nat) (s : State) : State :=
  let w := s.cfg.accepted
  let b := cfgN F.SP_PORT_DEPTH p s
  let need := ceilDiv (seamW w n * depthBits b) (40 * (gangPorts w p).length) * (gangPorts w p).length
  let s := if need * 40 / depthBits b < px.length then markCropped n s else s
  let had := (receivingOf n s).isSome
  let s := writeLine n (px.take (seamW w n)) s
  match receivingOf n s with
  | some f =>
    if s.dev.role == .integrated && f.lines.length == seamH w n then closeRecord n f.header.num (frameDigest f.lines) s else s
  | none => if had then closeRecord n (portOf p s).lastNum [] (modPort p (fun y => { y with skip := true }) s) else s

/-- LINE_END (R59 to R66, R74, R75). A fault is given as 44 times the port's position in the gang plus the pair. [DEDUCED, log 21] -/
def execLineEnd (p : Nat) (beats : List (List (Bool × Beat))) (skews : List Int) (faults : List (Nat × PairFault))
    (s : State) : Res :=
  let x := portOf p s
  let ports := gangPorts s.cfg.accepted p
  .next (if !portLive p s || !x.fv || !x.lv then s
    else
      let s := modPort p (fun y => { y with lv := false }) s
      let found := ports.zipIdx.map fun q => (q.1, detected q.1 q.2 faults s)
      let s := found.foldl (fun t q => modPort q.1 (fun y => { y with newFaults := y.newFaults ||| q.2 }) t) s
      if x.skip then s
      else if found.any fun q => q.2 != 0 then portDrop p s
      else
        let bs := ports.zipIdx.map fun q => validBeats q.1 (beats.getD q.2 []) s
        if lvSkewsBad skews || bs.any fun b => b.length != (bs.headD []).length then gangDisagree p s
        else match portSeam p s with
          | some n => storeLine p n (linePixels (depthBits (cfgN F.SP_PORT_DEPTH p s)) (gangBeats bs)) s
          | none => s)

/-- FRAME_END (R38, R59, R60, R71): FV falls `gap` edges after LV last fell. -/
def execFrameEnd (p gap : Nat) (s : State) : Res :=
  let x := portOf p s
  let ports := gangPorts s.cfg.accepted p
  .next (if !portLive p s || !x.fv then s
    else
      let s := if x.lv || decide (gap < cfgN F.SP_PORT_FV_EDGE_GAP p s) then syncViolation p s else s
      let s := match portSeam p s with
        | some n =>
          if (portOf p s).skip || (receivingOf n s).isNone then s
          else
            let t := endReceiving n s
            if (seamOf n t).frames.any fun y => y.header.num == x.lastNum && y.whole then t
            else closeRecord n x.lastNum [] t
        | none => s
      let s := modPort p (fun y => { y with fv := false, lv := false, skip := true, fvFall := some (nowUnits s) }) s
      startRetrain (ports.filter fun q => (portOf q s).retrainAsked && (portOf q s).clock) s)

/-! ### Clock (R57, R76) -/

/-- SENSOR_CLOCK_LOSS (R76): the frame in flight is dropped whole. [DEDUCED, log 19] -/
def execSensorClockLoss (p : Nat) (s : State) : Res :=
  let l := leadOf p s
  let x := portOf l s
  .next (if !portLive p s || !(portOf p s).clock then s
    else
      let s := if x.fv && !x.skip then raise 2 (portErr p 1) p [] (portDrop l s) else s
      let s := modPort p (fun y => { y with clock := false }) s
      if p = l then modPort p (fun y => { y with fv := false, lv := false, skip := true }) s else s)

/-- SENSOR_CLOCK_ABSENT_EXPIRY (R76): absent for more than 10 ms. -/
def execSensorClockAbsentExpiry (p : Nat) (s : State) : Res :=
  let x := portOf p s
  .next (if portLive p s && !x.clock && (x.phase == .running || x.phase == .stopped || x.phase == .retrain) then
    modPort p (fun y => { y with absentLong := true }) s else s)

/-- SENSOR_CLOCK_RETURN (R71, R76): the port resumes at the next FV rise, or retrains. -/
def execSensorClockReturn (p : Nat) (s : State) : Res :=
  let x := portOf p s
  .next (if !portLive p s || x.clock then s
    else
      let t := modPort p (fun y => { y with clock := true, faultMask := y.faultMask % 2 ^ pairCK }) s
      if (x.absentLong || x.retrainAsked) && x.phase != .bringUp && x.phase != .off then
        startRetrain (if leadOf p s = p then (gangPorts s.cfg.accepted p).filter fun q => (portOf q t).clock else [p]) t
      else t)

/-! ### The window (R82, R210, R212) -/

/-- BLANKING_WINDOW_OPEN (R82): SEQ_DELAY_US after FV fell. The requests due at the window are queued, then the sequencer
considers its head. -/
def execBlankingWindowOpen (p : Nat) (s : State) : Res :=
  let l := portOf (leadOf p s) s
  let x := portOf p s
  .next (match portSeam p s, l.fvFall with
  | some n, some fall =>
    if !portLive p s || x.phase != .running || x.windowOpen || l.fv || decide (nowUnits s < fall + seqDelay p s) ||
        (x.windowFrom == fall + seqDelay p s && x.windowFrame == l.lastNum) then s
    else
      let from_ := fall + seqDelay p s
      let upto := max from_ (windowClose p s)
      let s := modPort p (fun y => { y with
        windowOpen := true, deferred := false, windowFrom := from_, windowTo := upto, windowFrame := l.lastNum
        hadWindow := true, windows := (upto - from_) :: y.windows.drop 1 }) s
      considerHead p 9 (if p = leadOf p s then loopTurn n x.abandonedNow s else s)
  | _, _ => s)

/-! ### Triggers (R87) -/

/-- The words a port's trigger fields are read from. -/
def trigWords (p : Nat) (s : State) : Words := portWords p s

/-- TRIGGER (R87, R508): at a schedule point plus DELAY_NS, on the TIME_CLK edge at or next after it. A disabled driver makes no
edge. -/
def execTrigger (p : Nat) (s : State) : Res :=
  let x := portOf p s
  .next (match portSeam p s with
  | none => s
  | some n =>
    if !portLive p s || !F.SP_TRIG_ENABLE.on p (trigWords p s) || x.suppressed || !s.time.running then s
    else
      let s := if rebaseDue n s then rebaseSchedule n s else s
      let k := nextTrigger n p s
      let target := schedPoint n k s + portDelay p s
      if (nowUnits s : Int) < target then s
      else
        let s := if x.trigOff then s
          else modPort p (fun y => { y with trigLevel := true, trigAt := nowUnits s, awaiting := some (nowTod s, k) }) s
        if p = leadOf p s then
          modExp n (fun y => { y with
            n := k + 1, armed := true, last := some target, lastPeriod := framePeriodNs n s, rate := schedRate n s })
            (modPort p (fun y => { y with trigDelay := portDelay p s }) s)
        else modPort p (fun y => { y with trigNext := k + 1, trigLast := some target, trigDelay := portDelay p s }) s)

/-- The pulse width of a port in 2^-16 ns, rounded to whole TIME_CLK periods of 1.25 ns (R87). [DEDUCED, log 29] -/
def pulseUnits (p : Nat) (s : State) : Nat := (F.SP_TRIG_WIDTH_NS.get p (trigWords p s) * 65536 + 40960) / 81920 * 81920

/-- TRIGGER_PULSE_END (R87): WIDTH_NS after assertion. -/
def execTriggerPulseEnd (p : Nat) (s : State) : Res :=
  .next (if portLive p s && decide ((portOf p s).trigAt + pulseUnits p s ≤ nowUnits s) then
    modPort p (fun y => { y with trigLevel := false }) s else s)

/-- The level of the ball XTRIGn (R87). -/
def trigBall (p : Nat) (s : State) : Bool := (portOf p s).trigLevel != F.SP_TRIG_POLARITY.on p (trigWords p s)

/-! ### Checks (R63, R78, R811) -/

/-- The start-up checks of a port; `mV` is VDDIO_A as the Headframe measures it. -/
def portChecks (w : Words) (tables : List (Nat × List Byte)) (mV : Nat) : List (Nat × Nat × List Nat) :=
  (List.range 4).flatMap fun p =>
    let m := F.SP_SCBUS_MODE.get p w
    let r := F.SP_SCBUS_RATE.get p w
    (if (m == 2 && decide (2500 ≤ mV)) || (m != 0 && (r == 0 || decide (rateLimit m < r))) then [(portErr p 0xD, p, [])] else []) ++
    (if [F.SP_SCBUS_INIT_SCRIPT, F.SP_SCBUS_TRAIN_ON_SCRIPT, F.SP_SCBUS_TRAIN_OFF_SCRIPT].all
        (fun f => scriptFieldOk tables m (f.get p w)) then [] else [(portErr p 5, p, [])])

/-! ### Messages (R90) -/

/-- State of the port status (R90). A running port whose clock is absent is shown as stopped. [DEDUCED, log 19] -/
def portState (x : Port) : Nat :=
  match x.phase with
  | .off => 0
  | .bringUp | .retrain => 1
  | .stopped => 3
  | .running => if x.clock then (if dataPairs x.faultMask = 0 then 2 else 4) else 3

/-- Message 0x02p0: port status. -/
def portStatusMsg (p : Nat) : MsgDef :=
  { blk := .sensor, status := true,
    act := fun _ _ s =>
      let x := portOf p s
      (.accept [portState x, x.faultMask % 2 ^ 32, x.faultMask / 2 ^ 32, x.invMask % 2 ^ 32, x.invMask / 2 ^ 32, x.dropped,
        x.fifo.length + x.abandoned * 2 ^ 16], s) }

/-- Message 0x02p1: retrain (R71). -/
def retrainMsg (p : Nat) : MsgDef :=
  { blk := .sensor,
    act := fun _ _ s =>
      let l := leadOf p s
      let ps := (if p = l then gangPorts s.cfg.accepted p else [p]).filter fun q =>
        (portOf q s).phase == .running || (portOf q s).phase == .stopped
      let flight := fun q => (portOf l s).fv && (portOf l s).phase != .stopped && (portOf q s).phase != .stopped
      let now := ps.filter fun q => !flight q && (portOf q s).clock
      (.accept [], startRetrain now (modCap (fun c => { c with
        ports := modMany (ps.filter fun q => !now.contains q) (fun x => { x with retrainAsked := true }) c.ports }) s)) }

/-- The entries of a sensor-write message, low word first, up to an explicit END entry (R90). -/
def messageEntries : List Word → List Nat
  | a :: b :: r => (a.toNat + b.toNat * 2 ^ 32) :: messageEntries r
  | _ => []

/-- Whether only END entries follow an END entry. -/
def endsLast : List Nat → Bool
  | [] => true
  | e :: r => if entOp e = 0 then r.all fun x => entOp x == 0 else endsLast r

/-- Message 0x02p2: sensor write (R81, R84, R90, R207). [DESIGN CHOICE, log 24] -/
def sensorWriteMsg (p : Nat) : MsgDef :=
  { count := fun c => c == 4 || c == 6 || c == 8, masks := [0xFFFF], blk := .sensor,
    bad := fun r _ =>
      let es := messageEntries (r.words.drop 2)
      r.w 1 == 0xFFFF || es.any entryBad || !endsLast es
    act := fun r _ s =>
      let x := portOf p s
      let auto := match portSeam p s with
        | some n => s.dev.role != .head && !manualPolicy n s
        | none => false
      if 8 ≤ x.fifo.length then (.refuse 5 (portErr p 8) 0, raise 0 (portErr p 8) p [] s)
      else if cfgN F.SP_SCBUS_MODE p s = 0 || (auto && decide (0x8000 ≤ r.w 1)) then (.refuse 7 0 0, s)
      else
        let es := (messageEntries (r.words.drop 2)).takeWhile fun e => entOp e != 0
        let (k, t) := queueScript p ⟨r.w 1, es, .message⟩ s
        if k = 0 then (.accept [x.fifo.length], t) else (.refuse 7 (portErr p k) 0, t) }

end Sys2Proof.Machine
end

