-- ==== Sys2Proof/Machine/Headframe.lean ====
section
/-! DEFINITION. The Headframe: sensors, limits, watchdogs, the event log in the NVM, updates and Survey (chapters 21, 23). -/

namespace Sys2Proof.Machine

/-- Applies `f` to the Headframe. -/
def modHf (f : Headframe → Headframe) (s : State) : State := { s with hf := f s.hf }
/-- Applies `f` to power. -/
def modPwr (f : Power → Power) (s : State) : State := { s with pwr := f s.pwr }

/-- Whether the Headframe runs: from step 4 of the start on, in every state but the boot ROM (R702, R732). -/
def headframeOn (s : State) : Bool := s.dev.state != .off && s.dev.state != .bootRom

/-! ### Sensors and limits (R703 to R705, R787, R788) -/

/-- A sensor's temperature: its reading with the offset of the sets in force (R703). -/
def withOffset (i : Nat) (raw : Int) (s : State) : Int := raw + (calValue 0 raw (calSets 1 i s)).getD 0

/-- The median of T0 to T14. -/
def medianTemp (ts : List Int) : Int := ((ts.take 15).mergeSort fun a b => decide (a ≤ b)).getD 7 0

/-- The values of a sensor's neighbours in the table. -/
def nearTemps (i : Nat) (ts : List Int) : List Int :=
  (if 0 < i then [ts.getD (i - 1) 0] else []) ++ (if i + 1 < ts.length then [ts.getD (i + 1) 0] else [])

/-- A sensor after a sample (R704): `still` counts samples without a change, `near` the neighbours at the last change. [DEDUCED, log 101] -/
def sampleSensor (ts : List Int) (median : Int) (i : Nat) (x : TempSensor) : TempSensor :=
  let v := ts.getD i 0
  let near := nearTemps i ts
  let still := if v = x.value then x.still + 1 else 0
  let ref := if v = x.value ∧ x.near.length = near.length then x.near else near
  let moved := (near.zip ref).any fun p => decide (32 < (p.1 - p.2).natAbs)
  { value := v, still := still, near := ref, faulted := (decide (10000 ≤ still) && moved) || decide (240 < (v - median).natAbs) }

/-- Logs the sensors that became faulted (R704). [DEDUCED, log 101] -/
def logFaulted (old : List TempSensor) (s : State) : State :=
  (List.range 16).foldl (fun t i =>
    if (t.hf.temps.getD i {}).faulted then raiseOnce 1 0x1505 i [] t else endRun 0x1505 i t) (if old.length = 16 then s else s)

/-- The thermal alarm and shutdown (R787, R788). [DEDUCED, log 101] -/
def thermalRules (s : State) : State :=
  let die := (s.hf.temps.take 15)
  let hot := hottest s
  let s := if s.pwr.alarm then
      (if die.all fun t => t.faulted || decide (t.value < 2160) then modPwr (fun p => { p with alarm := false }) s else s)
    else if 2240 ≤ hot then raise 1 0x1702 noInst [] (modPwr (fun p => { p with alarm := true, alarms := wrapInc 32 p.alarms }) s) else s
  let s := if s.pwr.alarm then modPwr (fun p => { p with alarmMs := p.alarmMs + 1 }) s else s
  let now := die.map fun t => !t.faulted && decide (2480 ≤ t.value)
  let twice := (now.zip s.pwr.hotBefore).any fun p => p.1 && p.2
  let s := modPwr (fun p => { p with hotBefore := now }) s
  if twice then raiseOnce 3 0x1703 noInst [] s else if now.any id then s else endRun 0x1703 noInst s

/-- The rails after a sample (R806). -/
def sampleRails (mv : List Nat) (l : List RailVolt) : List RailVolt :=
  l.zipIdx.map fun r =>
    let v := mv.getD r.2 0
    { now := v, low := if r.1.low = 0 then v else min r.1.low v, high := max r.1.high v }

/-- The periods that the frequency checkers count over 10 µs of WCK, CK, CORE_CLK, CODEC_CLK, TIME_CLK, CTRL_CLK and PERI_CLK,
each the root PLL's 9.6 GHz over its divider (R703, R791). [DEDUCED, log 101] -/
def clockPeriods : List Nat := [2, 8, 8, 10, 12, 16, 48].map fun d => 96000 / d

/-- The clocks whose count over 10 µs is outside ±0.1 % (R705). -/
def clocksOut (counts : List Nat) : List Nat :=
  (List.range 7).filter fun i =>
    let n := clockPeriods.getD i 0
    let c := counts.getD i n
    decide (1000 * c < 999 * n ∨ 1001 * n < 1000 * c)

/-- Clocks outside ±0.1 % (R705). -/
def clockRules (bad : List Nat) (s : State) : State :=
  let t := s.hf.badClocks.foldl (fun u c => if bad.contains c then u else endRun 0x1504 c u) s
  bad.foldl (fun u c => raiseOnce 3 0x1504 c [] u) (modHf (fun h => { h with badClocks := bad }) t)

/-- SENSOR_SAMPLE (R703): the sample of every 1 ms: raw temperatures in 1/16 °C, rails in mV, and the count of each clock of
the divided-clock table over 10 µs. [DEDUCED, log 101] -/
def execSensorSample (temps : List Int) (rails counts : List Nat) (s : State) : Res :=
  .next (if !headframeOn s then s
  else
    let ts := (List.range 16).map fun i => withOffset i (temps.getD i 0) s
    let old := s.hf.temps
    let t := modHf (fun h => { h with
      temps := h.temps.zipIdx.map fun x => sampleSensor ts (medianTemp ts) x.2 x.1, rails := sampleRails rails h.rails }) s
    clockRules (clocksOut counts) (thermalRules (noticeTemp s (logFaulted old t))))

/-- Nominal voltages of R775 in mV with their tolerance in percent. [DESIGN CHOICE, log 106] -/
def railNominal : List (Nat × Nat) :=
  [(750, 5), (800, 5), (800, 5), (800, 5), (900, 3), (1200, 3), (900, 3), (1200, 3), (900, 3), (500, 5), (750, 5), (1200, 5),
   (1800, 5), (1800, 5)]

/-- Whether a voltage lies within the limits of a rail (R775, R778). [DESIGN CHOICE, log 106] -/
def railOk (rail mV : Nat) : Bool :=
  let ok := fun (n p : Nat) => decide (n * (100 - p) ≤ 100 * mV ∧ 100 * mV ≤ n * (100 + p))
  let r := railNominal.getD rail (0, 0)
  ok r.1 r.2 || (decide (12 ≤ rail) && ok 3300 5)

/-- The sequence number after the highest committed in the NVM, with which numbering resumes at start-up (R707, R708). -/
def nextSeq (ring : List LogPage) : Nat := ((ring.head?.bind fun p => p.entries.head?).map fun e => e.seq + 1).getD 0

/-- The device as RESET_L leaves it: everything volatile at its reset value (R783); the NVM, the OTP, the island's own store,
the SSDs, the DRAM devices and the readings of the sensors are not reset. [DEDUCED, log 94] -/
def resetAll (s : State) : State :=
  { pending := s.pending, otp := { s.otp with jtagOpen := false, queue := [] }, nvm := s.nvm, islNv := s.islNv, drawn := s.drawn
    dev := { part := s.dev.part, straps := s.dev.straps, starts := s.dev.starts }
    log := { next := nextSeq s.log.ring, ring := s.log.ring }
    hf := { temps := s.hf.temps, factoryValid := false, userA := s.hf.userA, userB := s.hf.userB }
    pwr := { tripHeld := s.pwr.tripHeld, tripped := s.pwr.tripped }
    dram := { chans := s.dram.chans.map fun c => { density := c.density } }
    rcd := { ssds := s.rcd.ssds.map fun d => { d with cmds := [], failed := false } } }

/-- SUPPLY_OUT_OF_LIMITS (R705): a rail outside its limits for 10 µs. VDD_ASSAY stops only the island (R528); VDD_AON resets
the device at once (R782). [DEDUCED, log 101] -/
def execSupplyOutOfLimits (rail mV : Nat) (s : State) : Res :=
  .next (if !headframeOn s || 14 ≤ rail || railOk rail mV then s
  else if rail = 2 then resetAll s
  else if rail = 3 then
    (if s.isl.running then raise 1 0x0F02 noInst [] (modIsl (fun i => { i with running := false }) s) else s)
  else raiseOnce 3 0x1503 rail [mV] s)

/-- VDD_AON_LOSS (R782): the device resets at once, without the Fatal stop. [DEDUCED, log 94] -/
def execVddAonLoss (s : State) : Res := .next (resetAll s)

/-! ### Watchdog of the control cores (R710) -/

/-- CORE_WATCHDOG_EXPIRY (R710): the core is reset; a second reset within 10 s is Fatal. [DEDUCED, log 101] -/
def execCoreWatchdogExpiry (core : Nat) (s : State) : Res :=
  .next (if s.dev.state != .running || 4 ≤ core || s.mbx.asleep.contains (core + 1) then s
  else
    let again := match s.hf.coreReset.getD core none with
      | some t => decide (s.dev.elapsed ≤ t + 10 * ticksPerSec)
      | none => false
    let t := raise 1 0x1508 core [] (modHf (fun h => { h with coreReset := modAt h.coreReset core fun _ => some s.dev.elapsed })
      { s with dev := { s.dev with troubled := true } })
    if again then raise 3 0x1509 core [] t else t)

/-! ### The event log in the NVM (R706 to R709) -/

/-- Programs an entry in the ring: in its newest page while that has a free slot of 127, else in the next page; the oldest
page is erased when no erased page remains of the 256 (R708). -/
def programEntry (e : LogEntry) (ring : List LogPage) : List LogPage :=
  match ring with
  | p :: r => if p.entries.length < 127 then { p with entries := e :: p.entries } :: r else (⟨e.seq, [e]⟩ :: p :: r).take 255
  | [] => [⟨e.seq, [e]⟩]

/-- EVENT_LOG_PROGRAM (R708): the oldest waiting entry is programmed; when the NVM fails it goes on waiting. [DESIGN CHOICE, log 89] -/
def execEventLogProgram (ok : Bool) (s : State) : Res :=
  .next (if !headframeOn s || !ok then s
  else match s.log.waiting with
  | [] => s
  | e :: r =>
    let t := { s with log := { s.log with waiting := r, ring := programEntry e s.log.ring } }
    endRun 0x1523 noInst t)

/-- The 4 KiB of a page of the event log region: its header, whose commit bitmap holds a 0 for each programmed slot, and its
127 slots, erased where no entry stands (R708). -/
def logPageBytes (p : LogPage) : List Byte :=
  let h := leBytes 4 0x474C5948 ++ leBytes 8 p.seq0
  h ++ leBytes 16 (2 ^ 128 - 2 ^ p.entries.length) ++ leBytes 4 (crc32 h) ++ p.entries.reverse.flatMap entryBytes32 ++
    List.replicate (32 * (127 - p.entries.length)) 0xFF

/-- The 16 bytes of a slot record (R714). -/
def slotRecBytes (r : SlotRec) : List Byte :=
  let a := [0x5A] ++ leBytes 1 r.kind ++ leBytes 1 r.trySlot ++ leBytes 1 r.fallback
  let v := leBytes 4 r.version
  a ++ leBytes 1 (0x100 - 2 ^ r.tries) ++ leBytes 1 (if r.confirmed then 0 else 0xFF) ++ [0xFF, 0xFF] ++ v ++ leBytes 4 (crc32 (a ++ v))

/-- The entries that can be served, oldest first: those of the NVM before the first of the SRAM, then the SRAM (R709). [DESIGN CHOICE, log 89] -/
def heldEntries (s : State) : List LogEntry :=
  let sram := s.log.sram.reverse
  let first := (sram.head?.map (·.seq)).getD s.log.next
  (((s.log.ring.flatMap (·.entries)).reverse).filter fun e => decide (e.seq < first)) ++ sram

/-- Message 0x1500: event log read (R698). [DESIGN CHOICE, log 89] -/
def eventLogReadMsg : MsgDef :=
  { count := fun c => c == 5, masks := [0xFFFFFFFF, 0xFFFFFFFF, 0xFFFF, 0xFFFFFFFF], always := true,
    bad := fun r _ => decide (32768 < r.w 3) || r.w 4 % 32 != 0 || decide (0x100000 ≤ r.w 4),
    act := fun r _ s =>
      if !holdsBulk r.path s then (.refuse 5 0 0, s)
      else
        let from_ := r.w 1 + r.w 2 * 2 ^ 32
        let held := heldEntries s
        let oldest := (held.head?.map (·.seq)).getD s.log.next
        let l := (held.filter fun e => decide (from_ ≤ e.seq)).take (min (r.w 3) ((0x100000 - r.w 4) / 32))
        let first := (l.head?.map (·.seq)).getD (max from_ oldest)
        (.accept ([l.length] ++ loWords 2 first ++ loWords 2 oldest), writeBulk (r.w 4) (l.flatMap entryBytes32) s) }

/-- BOOT_NVM_TIMEOUT (R770): a program or erase took too long: of the event log (R709), or of an update (R713). -/
def execBootNvmTimeout (logWrite : Bool) (s : State) : Res :=
  .next (if !headframeOn s then s
  else if logWrite then raiseOnce 1 0x1523 noInst [] s
  else if s.hf.update.state = .writing then
    raise 1 0x1521 noInst [] (modHf (fun h => { h with update := { h.update with state := .failed, failCode := 0x1521 } }) s)
  else s)

/-! ### I²C and PMBus (R769, R807) -/

/-- I2C_BUS_STUCK (R769): a line stayed low beyond the timeout; `stillLow` after nine clocks and a stop. -/
def execI2cBusStuck (stillLow : Bool) (s : State) : Res :=
  .next (if !headframeOn s then s
  else
    let t := modHf (fun h => { h with i2cStuck := stillLow }) s
    if stillLow then raiseOnce 1 0x1502 noInst [] t else endRun 0x1502 noInst t)

/-- A LINEAR11 current in mA (R807): an 11-bit mantissa times 2 to a 5-bit exponent, in amperes. -/
def linear11 (w : Nat) : Nat :=
  let m := sext 11 (bits w 10 0)
  let e := sext 5 (bits w 15 11)
  (if 0 ≤ e then m * 1000 * 2 ^ e.toNat else m * 1000 / 2 ^ (-e).toNat).toNat

/-- PMBUS_POLL (R807): READ_IOUT of the core regulator; none when it does not answer. -/
def execPmbusPoll (reading : Option Word) (s : State) : Res :=
  .next (if !headframeOn s || cfgN F.PWR_CORE_PMBUS 0 s = 0 then s
  else match reading with
  | some w => endRun 0x1704 noInst (modPwr (fun p => { p with currentMa := some (linear11 w.toNat), pmbusLost := false }) s)
  | none => raiseOnce 0 0x1704 noInst [] (modPwr (fun p => { p with currentMa := none, pmbusLost := true }) s))

/-! ### Updates (R712, R713, R717) -/

/-- Applies `f` to the update session. -/
def modUpd (f : Update → Update) (s : State) : State := modHf (fun h => { h with update := f h.update }) s

/-- Whether a session is open. -/
def updOpen (s : State) : Bool := s.hf.update.state == .receiving || s.hf.update.state == .verifying || s.hf.update.state == .writing

/-- Message 0x1520: update begin. [DEDUCED, log 88] -/
def updateBeginMsg : MsgDef :=
  { count := fun c => c == 3, masks := [0xFF, 0xFFFFFFFF], priv := .must, always := true,
    bad := fun r s => !decide (1 ≤ r.w 1 ∧ r.w 1 ≤ 5) || decide (regionBytes (r.w 1) s < r.w 2),
    act := fun r _ s =>
      if updOpen s then (.refuse 5 0 0, s)
      else (.accept [], modUpd (fun _ => { state := .receiving, path := r.path, kind := r.w 1, size := r.w 2 }) s) }

/-- Message 0x1521: update data. [DEDUCED, log 88] -/
def updateDataMsg : MsgDef :=
  { count := fun c => c == 3, masks := [0xFFFFFFFF, 0xFFFFFFFF], always := true, bad := fun r _ => decide (0x100000 < r.w 2),
    act := fun r _ s =>
      let u := s.hf.update
      if !holdsBulk r.path s then (.refuse 5 0 0, s)
      else if u.state != .receiving || u.path != r.path || r.w 1 != u.bytes.length || decide (u.size < r.w 1 + r.w 2) then (.refuse 7 0 0, s)
      else
        let l := u.bytes ++ readBulk 0 (r.w 2) s
        (.accept [l.length], modUpd (fun x => { x with bytes := l }) s) }

/-- Whether any kind has an unconfirmed record (R716). -/
def unconfirmed (s : State) : Bool := [1, 2].any fun k => ((slotRecord k s).map fun r => !r.confirmed).getD false

/-- Message 0x1522: update commit. The image is verified at once; its write ends with UPDATE_WRITE_COMPLETE. [DEDUCED, log 88] -/
def updateCommitMsg : MsgDef :=
  { always := true,
    act := fun _ _ s =>
      let u := s.hf.update
      if unconfirmed s then (.refuse 5 0 0, s)
      else if u.state != .receiving || u.bytes.length != u.size then (.refuse 7 0 0, s)
      else if imageReason u.kind u.bytes s = 0 then (.accept [], modUpd (fun x => { x with state := .writing }) s)
      else (.accept [], raise 0 0x1520 noInst [u.kind + imageReason u.kind u.bytes s * 2 ^ 16]
        (modUpd (fun x => { x with state := .failed, failCode := 0x1520 }) s)) }

/-- The slot of a kind that runs (R713). [DEDUCED, log 93] -/
def runningB (kind : Nat) (s : State) : Bool := (s.cfg.images.getD kind {}).slotB

/-- Stores a verified image where its kind belongs (R713, R717). -/
def storeImage (u : Update) (s : State) : State :=
  let b := !runningB u.kind s
  let version := fieldAt (imageHeader u.bytes) 8 4
  let slot : SlotRec := { kind := u.kind, trySlot := b2n b, fallback := b2n (!b), tries := 0, confirmed := false, version := version }
  let n := s.nvm
  match u.kind with
  | 1 => appendSlot slot { s with nvm := if b then { n with vendorB := u.bytes } else { n with vendorA := u.bytes } }
  | 2 => appendSlot slot { s with nvm := if b then { n with ownerB := u.bytes } else { n with ownerA := u.bytes } }
  | 3 => { s with nvm := { n with assay := u.bytes } }
  | 4 => modHf (fun h => { h with factoryValid := true, factory := Config.calSetsOf (imageBody u.bytes), userA := none, userB := none })
      { s with nvm := { n with calFactory := u.bytes } }
  | _ => { s with nvm := { n with payloads := u.bytes } }

/-- UPDATE_WRITE_COMPLETE (R713): erase, program and read-back of the slot ended. [DEDUCED, log 88] -/
def execUpdateWriteComplete (ok : Bool) (s : State) : Res :=
  .next (let u := s.hf.update
  if u.state != .writing then s
  else if ok then modUpd (fun x => { x with state := .committed }) (storeImage u s)
  else raise 1 0x1521 noInst [] (modUpd (fun x => { x with state := .failed, failCode := 0x1521 }) s))

/-- The code of a session's state (R698). -/
def updCode : UpdState → Nat
  | .idle => 0
  | .receiving => 1
  | .verifying => 2
  | .writing => 3
  | .committed => 4
  | .failed => 5

/-- Message 0x1523: update status. -/
def updateStatusMsg : MsgDef :=
  { always := true,
    act := fun _ _ s =>
      let u := s.hf.update
      (.accept [updCode u.state + u.kind * 2 ^ 8, u.bytes.length, u.failCode], s) }

/-- Message 0x1524: update abort. [DEDUCED, log 88] -/
def updateAbortMsg : MsgDef :=
  { always := true,
    act := fun _ _ s => if s.hf.update.state = .writing then (.refuse 7 0 0, s) else (.accept [], modUpd (fun _ => {}) s) }

/-- UPDATE_SESSION_TIMEOUT (R698): 60 s without a message from the session's path. [DEDUCED, log 88] -/
def execUpdateSessionTimeout (s : State) : Res := .next (if s.hf.update.state = .receiving then modUpd (fun _ => {}) s else s)

/-- BOOT_CONFIRMATION (R716, R718, R735): 10 s after role start without trouble the records that ran are confirmed, the
anti-rollback counters rise in KIND order, and a full slot control area is rewritten. -/
def execBootConfirmation (s : State) : Res :=
  .next (if s.dev.state != .running || s.dev.troubled then s
  else
    let t := setSlot 2 (fun r => { r with confirmed := true }) (setSlot 1 (fun r => { r with confirmed := true }) s)
    let t := if t.nvm.rewriteDue then
        { t with nvm := { t.nvm with rewriteDue := false, slotRecs := (slotRecord 1 t).toList ++ (slotRecord 2 t).toList } } else t
    let ws := (List.range 6).filterMap fun k =>
      let m := t.cfg.images.getD k {}
      if m.verified && decide (t.otp.rollback.getD k 0 < m.rollback) then some (OtpWrite.counter k m.rollback) else none
    { t with otp := { t.otp with queue := t.otp.queue ++ ws } })

/-! ### Survey (R719 to R727) -/

/-- The instances an item measures (R719). -/
def surveyInsts (i : Nat) (s : State) : List Nat :=
  match i with
  | 0 => (List.range 4).filter fun p => cfgB F.SP_PORT_ENABLE p s && portLive p s
  | 1 => List.range 16
  | 2 => List.range 8
  | _ => (List.range 40).filter fun n => (laneOf n s).state == 2 && (laneProto s.cfg.accepted n == 1 || laneProto s.cfg.accepted n == 2)

/-- The temperature an item's values are interpolated for now. -/
def surveyTemp (i inst : Nat) (s : State) : Int :=
  match i with
  | 0 => tempOf 14 s
  | 2 => phyTemp inst s
  | 3 => tempOf (if inst < 16 then 10 + inst / 8 else if inst < 28 then 12 else 13) s
  | _ => tempOf inst s

/-- Whether a measured value is plausible against a reference, where there is one. -/
def within (tol : Nat) (v : Int) (ref : Option Int) : Bool :=
  match ref with
  | some r => decide ((v - r).natAbs ≤ tol)
  | none => true

/-- Whether an item passes (R719, R720). [DEDUCED, log 102] -/
def surveyPass (i : Nat) (o : SurveyObs) (s : State) : Bool :=
  let insts := surveyInsts i s
  let near := fun (tol : Nat) => (insts.zip o.values).all fun p =>
    p.2.zipIdx.all fun v => within tol v.1 (calValue v.2 (surveyTemp i p.1 s) (calSets i p.1 s))
  decide ((o.tEnd - o.tStart).natAbs ≤ 32) && o.values.length == insts.length &&
  match i with
  | 0 => o.unchanged && near 16
  | 1 =>
    let factory := fun (k : Nat) => calValue 0 (tempOf k s) ((s.hf.factory.filter fun c => c.item == 1 && c.inst == k))
    ((insts.zip o.values).all fun p => p.2.all fun v => within 48 v (if s.hf.factoryValid then factory p.1 else none)) &&
      decide ((o.tMean - medianTemp (s.hf.temps.map (·.value))).natAbs ≤ 320)
  | 2 => decide (8 ≤ o.windows) && near 8
  | _ => near 50

/-- R721: where a new user set of an item and instance goes among the user sets. [DEDUCED, log 102] -/
def storeSet (c : CalSet) (l : List CalSet) : List CalSet :=
  let same := fun (x : CalSet) => x.item == c.item && x.inst == c.inst
  let dist := fun (x : CalSet) => (x.temp - c.temp).natAbs
  let best := (l.filter same).foldl (fun b x => match b with
    | none => some x
    | some y => if dist x < dist y then some x else some y) none
  match best with
  | none => l ++ [c]
  | some y => if dist y ≤ 80 ∨ 8 ≤ (l.filter same).length then l.map fun x => if x = y then c else x else l ++ [c]

/-- Writes the user copy with the lower generation (R724). [DEDUCED, log 102] -/
def writeUser (sets : List CalSet) (s : State) : State :=
  let g := fun (c : Option UserCopy) => (c.map (·.generation)).getD 0
  let next := max (g s.hf.userA) (g s.hf.userB) + 1
  let u : UserCopy := ⟨next % 2 ^ 16, sets⟩
  modHf (fun h => if h.userA.isNone || (h.userB.isSome && decide (g h.userA ≤ g h.userB)) then { h with userA := some u } else { h with userB := some u }) s

/-- A run ends: the island verifies its calibration (R727). [DEDUCED, log 102] -/
def endSurvey (s : State) : State := if s.hf.surveyRunning.isEmpty && s.isl.running then verifyCal s else s

/-- SURVEY_ITEM_COMPLETE (R719 to R724). [DEDUCED, log 102] -/
def execSurveyItemComplete (i : Nat) (obs : SurveyObs) (s : State) : Res :=
  .next (if !s.hf.surveyRunning.contains i || (i == 0 && !s.hf.surveyPorts.isEmpty) then s
  else
    let t := modHf (fun h => { h with surveyRunning := h.surveyRunning.filter fun k => k != i }) s
    if surveyPass i obs s then
      let sets := ((surveyInsts i s).zip obs.values).foldl (fun l p => storeSet ⟨i, p.1, obs.tMean, p.2⟩ l) (((userCopy s).map (·.sets)).getD [])
      endSurvey (writeUser sets (modHf (fun h => { h with surveyPassed := h.surveyPassed ++ [i] }) t))
    else endSurvey (raise 0 (0x1510 + i) noInst [] (modHf (fun h => { h with surveyFailed := h.surveyFailed ++ [i] }) t)))

/-- The bits of a list of items. -/
def itemBits (l : List Nat) : Nat := ((List.range 4).filter l.contains).foldl (fun a i => a + 2 ^ i) 0

/-- Message 0x1510: Survey run. [DEDUCED, log 102] -/
def surveyRunMsg : MsgDef :=
  { count := fun c => c == 2, masks := [0xF],
    act := fun r _ s =>
      let items := (List.range 4).filter fun i => r.w 1 / 2 ^ i % 2 == 1
      if !s.hf.surveyRunning.isEmpty then (.refuse 5 0 0, s)
      else if (items.contains 0 && s.rcd.clip.isSome) || (items.contains 1 && (cfgN F.MGMT_REF_SENSOR 0 s == 0 || s.hf.i2cStuck || !s.hf.refPresent)) then
        (.refuse 7 0 0, s)
      else
        let ports := if items.contains 0 then surveyInsts 0 s else []
        let t := modHf (fun h => { h with surveyRunning := items, surveyPassed := [], surveyFailed := [], surveyPorts := ports }) s
        (.accept [], match ports with
          | p :: _ => modPort p (fun x => { x with retrainAsked := true }) t
          | [] => t) }

/-- Message 0x1511: restore factory (R726). -/
def restoreFactoryMsg : MsgDef :=
  { priv := .must,
    act := fun _ _ s =>
      if !s.hf.surveyRunning.isEmpty then (.refuse 5 0 0, s)
      else (.accept [], raise 0 0x1518 noInst [] (modHf (fun h => { h with userA := none, userB := none }) s)) }

/-- Message 0x1512: Survey status. -/
def surveyStatusMsg : MsgDef :=
  { act := fun _ _ s =>
      (.accept [itemBits s.hf.surveyRunning + itemBits s.hf.surveyPassed * 2 ^ 4 + itemBits s.hf.surveyFailed * 2 ^ 8], s) }

end Sys2Proof.Machine
end

