-- ==== Sys2Proof/Machine/Security.lean ====
section
/-! DEFINITION. The security block: OTP writes, owner keys, the certificate, the attestation report and the debug lock
(chapter 22). -/

namespace Sys2Proof.Machine

/-- Applies `f` to the OTP. -/
def modOtp (f : Otp → Otp) (s : State) : State := { s with otp := f s.otp }

/-- Puts a write at the end of the OTP's queue (R731). -/
def queueOtp (w : OtpWrite) (s : State) : State := modOtp (fun o => { o with queue := o.queue ++ [w] }) s

/-- An owner key slot. -/
def ownerSlot (n : Nat) (s : State) : OwnerSlot := s.otp.slots.getD n {}

/-- Whether every owner slot is empty (R739). -/
def unowned (s : State) : Bool := s.otp.slots.all fun o => o.state == 0

/-- Bytes ORed: a programmed bit never returns to 0 (R730). [DEDUCED, log 95] -/
def orBytes (a b : List Byte) : List Byte := (a.zip b).map fun p => p.1 ||| p.2

/-- What a completed OTP write leaves (R730, R735, R738, R740, R753). [DEDUCED, log 95] -/
def applyOtp (w : OtpWrite) (o : Otp) : Otp :=
  match w with
  | .install n h => { o with slots := modAt o.slots n fun x => { hash := orBytes (padTo 32 x.hash) h, state := max 1 x.state } }
  | .revoke n => { o with slots := modAt o.slots n fun x => { x with state := 2 } }
  | .debugged => { o with debugged := true, jtagOpen := true }
  | .counter k v => { o with rollback := modAt o.rollback k fun x => max x v }

/-- OTP_WRITE_COMPLETE (R731): the oldest write ended; one that fails is logged and programs nothing. JTAG opens once the
debugged bit is programmed (R753). [DEDUCED, log 95] -/
def execOtpWriteComplete (ok : Bool) (s : State) : Res :=
  .next (match s.otp.queue with
  | [] => s
  | w :: r =>
    let t := modOtp (fun o => { o with queue := r }) s
    if !ok then raise 1 0x1603 noInst [] t
    else
      let u := modOtp (applyOtp w) t
      if w = .debugged then raise 0 0x1604 noInst [] u else u)

/-! ### Messages (R699) -/

/-- The slot states of a report, 2 bits a slot (R743). -/
def slotBits (s : State) : Nat := (List.range 4).foldl (fun a n => a + (ownerSlot n s).state * 4 ^ n) 0

/-- The code of a strapped role (R4). -/
def roleCode : Role → Nat
  | .integrated => 0
  | .head => 1
  | .body => 2
  | .reserved => 3

/-- What is measured of a KIND: for KIND 4 the user copy when one is in force (R724, R744). [DEDUCED, log 93] -/
def measured (k : Nat) (s : State) : Measure :=
  let m := s.cfg.images.getD k {}
  match userCopy s with
  | some u => if k = 4 ∧ m.verified then { m with version := u.generation, signer := 5
                                                  digest := (List.range 32).map (Config.userHeaderByte u.generation) } else m
  | none => m

/-- A measurement entry (R744). -/
def measureBytes (k : Nat) (m : Measure) : List Byte :=
  leBytes 4 (k + b2n m.slotB * 2 ^ 8 + b2n m.present * 2 ^ 9 + b2n m.verified * 2 ^ 10) ++ leBytes 4 m.version ++ padTo 32 m.digest

/-- The bytes of a report that its signature covers (R743). -/
def reportBody (nonce : List Byte) (s : State) : List Byte :=
  leBytes 4 0x54415947 ++
  leBytes 4 (1 + roleCode s.dev.role * 2 ^ 8 + b2n (s.dev.part == .h) * 2 ^ 10 + b2n s.otp.debugged * 2 ^ 11 + b2n s.otp.jtagOpen * 2 ^ 12 +
    b2n s.isl.running * 2 ^ 13 + b2n (unowned s) * 2 ^ 14) ++
  leBytes 8 s.otp.serial ++ nonce ++ leBytes 12 (todPack (nowTod s) + s.time.clk * 2 ^ 94) ++ leBytes 4 s.islNv.boot ++
  leBytes 2 s.islNv.sealCount ++ leBytes 2 (slotBits s + (s.cfg.images.getD 2 {}).signer * 2 ^ 8) ++
  (List.range 6).flatMap (fun k => leBytes 1 (s.otp.rollback.getD k 0)) ++ leBytes 6 0 ++
  (List.range 6).flatMap fun k => measureBytes k (measured k s)

/-- The whole report of 368 bytes, signed with the identity key (R743). -/
def attestation (nonce : List Byte) (s : State) : List Byte :=
  let b := reportBody nonce s
  b ++ ecdsaSign (Config.identityKey s.otp.serial) (Config.ecdsaSecret s.drawn) b

/-- Message 0x1600: attestation report. -/
def attestationMsg : MsgDef :=
  { count := fun c => c == 6, always := true, bad := fun r _ => r.w 5 % 64 != 0 || decide (0x100000 < r.w 5 + 368),
    act := fun r _ s =>
      if !holdsBulk r.path s then (.refuse 5 0 0, s)
      else (.accept [368], drawOne (writeBulk (r.w 5) (attestation (wordBytes ((r.words.drop 1).take 4)) s) s)) }

/-- Message 0x1601: certificate read (R741). -/
def certificateMsg : MsgDef :=
  { count := fun c => c == 2, always := true, bad := fun r _ => decide (0x100000 < r.w 1 + 248),
    act := fun r _ s =>
      if !holdsBulk r.path s then (.refuse 5 0 0, s)
      else (.accept [s.otp.cert.length], writeBulk (r.w 1) s.otp.cert s) }

/-- The key that an install names in the bulk window. [DEDUCED, log 95] -/
def installKey (r : Req) (s : State) : List Byte := readBulk (r.w 2) 64 s

/-- Message 0x1602: owner key install (R738, R739). A path that does not hold the window is refused before its bytes are
looked at. -/
def keyInstallMsg : MsgDef :=
  { count := fun c => c == 3, masks := [3, 0xFFFFFFFF], priv := .must, always := true,
    privFree := fun r s => unowned s && r.w 1 == 0 && r.path == .regs .spi,
    bad := fun r s => decide (0x100000 < r.w 2 + 64) ||
      (holdsBulk r.path s && !onCurve (keyPoint (installKey r s)).1 (keyPoint (installKey r s)).2),
    act := fun r _ s =>
      if !holdsBulk r.path s then (.refuse 5 0 0, s)
      else if (ownerSlot (r.w 1) s).state != 0 then (.refuse 7 0 0, s)
      else (.accept [], queueOtp (.install (r.w 1) (sha256 (installKey r s))) s) }

/-- Whether a slot signed the owner image or the table payload directory in force (R699). -/
def signedInForce (n : Nat) (s : State) : Bool :=
  [2, 5].any fun k => (s.cfg.images.getD k {}).verified && (s.cfg.images.getD k {}).signer == n + 1

/-- Whether a slot is the last that is programmed and not revoked (R699, R737). [DEDUCED, log 95] -/
def lastSlot (n : Nat) (s : State) : Bool :=
  (ownerSlot n s).state == 1 && (List.range 4).all fun m => m == n || (ownerSlot m s).state != 1

/-- Message 0x1603: owner key revoke (R740). [DEDUCED, log 95] -/
def keyRevokeMsg : MsgDef :=
  { count := fun c => c == 2, masks := [3], priv := .must, always := true,
    act := fun r _ s =>
      if signedInForce (r.w 1) s || lastSlot (r.w 1) s then (.refuse 7 0 0, s)
      else (.accept [], queueOtp (.revoke (r.w 1)) s) }

/-- Message 0x1604: debug unlock (R753). [DEDUCED, log 95] -/
def debugUnlockMsg : MsgDef :=
  { priv := .must, always := true, act := fun _ _ s => (.accept [], queueOtp .debugged s) }

/-- The security checks of R752 over the recipient payload: none absent, a count from 1 to 6, the length that follows
from it, and every key a point of the curve. -/
def recipientsOk (p : Option (List Byte)) : Bool :=
  match p with
  | none => false
  | some l =>
    let n := fieldAt l 0 4
    decide (1 ≤ n ∧ n ≤ 6) && l.length == 4 + 64 * n &&
    (List.range n).all fun i => onCurve (keyPoint (slice l (4 + 64 * i) 64)).1 (keyPoint (slice l (4 + 64 * i) 64)).2

end Sys2Proof.Machine
end

