-- ==== Sys2Proof/Machine/Errors.lean ====
section
/-! DEFINITION. Errors as such (chapter 23): the severity of every code, the hardware consequence of an error reported to
the Headframe, the error queue's actions, and the Fatal stop. -/

namespace Sys2Proof.Machine

/-! ### Severities (R758 to R760) -/

/-- Codes `lo` to `hi` with their severity at start-up and at run time. -/
structure ErrRow where
  lo : Nat
  hi : Nat
  start : Nat
  run : Nat
deriving DecidableEq, Repr

/-- The codes of the blocks whose tables name them one by one or by instance. -/
def errRows : List ErrRow :=
  [⟨0x0101, 0x0108, 3, 3⟩, ⟨0x0109, 0x0109, 0, 0⟩, ⟨0x010A, 0x010A, 1, 1⟩, ⟨0x0110, 0x0118, 3, 0⟩, ⟨0x0120, 0x0120, 2, 2⟩,
   ⟨0x0121, 0x0121, 1, 1⟩, ⟨0x0122, 0x0123, 2, 2⟩,
   ⟨0x0480, 0x048F, 3, 0⟩, ⟨0x0490, 0x0497, 3, 2⟩, ⟨0x0498, 0x049F, 3, 0⟩, ⟨0x04A0, 0x04A3, 3, 3⟩, ⟨0x04A4, 0x04A7, 2, 2⟩,
   ⟨0x0680, 0x0687, 3, 3⟩, ⟨0x0688, 0x068F, 0, 0⟩, ⟨0x0690, 0x0697, 3, 0⟩, ⟨0x0698, 0x069F, 1, 1⟩, ⟨0x06A0, 0x06A7, 0, 0⟩,
   ⟨0x0701, 0x0701, 3, 0⟩, ⟨0x0702, 0x0703, 1, 1⟩, ⟨0x0704, 0x0704, 2, 2⟩] ++
  [⟨0x0820, 0x0827, 3, 0⟩, ⟨0x0828, 0x082F, 0, 0⟩, ⟨0x0830, 0x0847, 1, 1⟩, ⟨0x0848, 0x0857, 2, 2⟩, ⟨0x0858, 0x0867, 0, 0⟩,
   ⟨0x0901, 0x0901, 3, 0⟩, ⟨0x0902, 0x0903, 1, 1⟩, ⟨0x0904, 0x0906, 2, 2⟩, ⟨0x0908, 0x0908, 2, 2⟩, ⟨0x0909, 0x0909, 0, 0⟩,
   ⟨0x090A, 0x090A, 1, 1⟩, ⟨0x090B, 0x090B, 2, 2⟩, ⟨0x0A01, 0x0A01, 3, 3⟩, ⟨0x0A02, 0x0A02, 1, 1⟩, ⟨0x0A03, 0x0A04, 0, 0⟩,
   ⟨0x0D01, 0x0D01, 3, 0⟩, ⟨0x0D04, 0x0D07, 0, 0⟩, ⟨0x0D08, 0x0D0B, 1, 1⟩, ⟨0x0D18, 0x0D1B, 1, 1⟩, ⟨0x0D20, 0x0D2F, 1, 1⟩] ++
  [⟨0x0E01, 0x0E01, 3, 0⟩, ⟨0x0E02, 0x0E02, 1, 1⟩, ⟨0x0E03, 0x0E03, 0, 0⟩, ⟨0x0E04, 0x0E05, 1, 1⟩, ⟨0x0E08, 0x0E0B, 0, 0⟩,
   ⟨0x0E10, 0x0E13, 0, 0⟩, ⟨0x0F01, 0x0F01, 3, 3⟩, ⟨0x0F02, 0x0F02, 1, 1⟩, ⟨0x0F03, 0x0F03, 0, 0⟩, ⟨0x0F04, 0x0F04, 1, 1⟩,
   ⟨0x0F05, 0x0F06, 0, 0⟩, ⟨0x0F07, 0x0F08, 1, 1⟩, ⟨0x0F09, 0x0F09, 0, 0⟩,
   ⟨0x1001, 0x1001, 3, 0⟩, ⟨0x1002, 0x1004, 1, 1⟩, ⟨0x1005, 0x1005, 2, 2⟩, ⟨0x1006, 0x1006, 0, 0⟩, ⟨0x1007, 0x1007, 1, 1⟩,
   ⟨0x1008, 0x1008, 0, 0⟩, ⟨0x1009, 0x1009, 1, 1⟩, ⟨0x100A, 0x100A, 0, 0⟩, ⟨0x100B, 0x100B, 1, 1⟩] ++
  [⟨0x1101, 0x1101, 3, 0⟩, ⟨0x1104, 0x1105, 1, 1⟩, ⟨0x1106, 0x1107, 0, 0⟩, ⟨0x110A, 0x110B, 0, 0⟩, ⟨0x1201, 0x1201, 3, 0⟩,
   ⟨0x1210, 0x121F, 2, 2⟩, ⟨0x1220, 0x122F, 1, 1⟩, ⟨0x1230, 0x1231, 1, 1⟩, ⟨0x1301, 0x1302, 3, 3⟩, ⟨0x1303, 0x1303, 0, 0⟩,
   ⟨0x1304, 0x1304, 2, 2⟩, ⟨0x1305, 0x1305, 3, 3⟩, ⟨0x1306, 0x1306, 1, 1⟩, ⟨0x1307, 0x1307, 0, 0⟩, ⟨0x1401, 0x1401, 3, 3⟩,
   ⟨0x1402, 0x1404, 0, 0⟩, ⟨0x1501, 0x1501, 3, 3⟩, ⟨0x1502, 0x1502, 1, 1⟩, ⟨0x1503, 0x1504, 3, 3⟩, ⟨0x1505, 0x1505, 1, 1⟩,
   ⟨0x1508, 0x1508, 1, 1⟩, ⟨0x1509, 0x1509, 3, 3⟩, ⟨0x1510, 0x1513, 0, 0⟩, ⟨0x1518, 0x1518, 0, 0⟩, ⟨0x1520, 0x1520, 0, 0⟩,
   ⟨0x1521, 0x1523, 1, 1⟩, ⟨0x1601, 0x1601, 3, 0⟩, ⟨0x1602, 0x1602, 0, 0⟩, ⟨0x1603, 0x1603, 1, 1⟩, ⟨0x1604, 0x1604, 0, 0⟩,
   ⟨0x1605, 0x1605, 2, 2⟩, ⟨0x1701, 0x1701, 3, 3⟩, ⟨0x1702, 0x1702, 1, 1⟩, ⟨0x1703, 0x1703, 3, 3⟩, ⟨0x1704, 0x1704, 0, 0⟩,
   ⟨0x1705, 0x1705, 1, 1⟩]

/-- Severities at start-up and run time of the port errors (R89), by n; n = 3 follows FAULT_POLICY instead. -/
def portSevs : List (Nat × Nat) :=
  [(3, 2), (3, 1), (2, 2), (2, 2), (3, 3), (0, 0), (1, 1), (0, 0), (1, 1), (1, 1), (2, 2), (0, 0), (3, 3)]

/-- Severities of the seam errors (R125), by n. -/
def seamSevs : List (Nat × Nat) := [(2, 2), (0, 0), (1, 1), (3, 0), (3, 0)]

/-- Severities of the tap errors (R197), by n. -/
def tapSevs : List (Nat × Nat) := [(3, 0), (3, 0), (2, 2), (0, 0)]

/-- Severities of the lane errors (R424), by kind. -/
def laneSevs : List (Nat × Nat) := [(3, 0), (1, 1), (1, 1), (1, 1), (1, 1), (1, 1), (0, 0), (0, 0), (0, 0), (1, 1)]

/-- Severities of the link errors (R462), by n. -/
def linkSevs : List (Nat × Nat) := [(3, 0), (1, 1), (1, 1), (1, 1), (1, 1), (0, 0), (1, 1), (0, 0), (2, 2)]

/-- Entry n, counted from 1, of a table. -/
def sevAt (l : List (Nat × Nat)) (n : Nat) : Option (Nat × Nat) := if n = 0 then none else l[n - 1]?

/-- The severities at start-up and at run time of an error code; none for a code that no chapter's table names. -/
def errSevs (code : Nat) (ds : List Nat) : Option (Nat × Nat) :=
  let b := code / 256
  let i := code % 256
  if b = 2 then (if i / 16 < 4 then sevAt portSevs (i % 16) else none)
  else if b = 3 then (if i / 16 < 8 then sevAt seamSevs (i % 16) else none)
  else if b = 5 then (if i / 16 < 8 then sevAt tapSevs (i % 16) else none)
  else if b = 0x0B then (if i < 40 then sevAt laneSevs (ds.getD 0 0 % 256) else none)
  else if b = 0x0C then (if i / 16 < 9 then sevAt linkSevs (i % 16) else none)
  else (errRows.find? fun r => decide (r.lo ≤ code ∧ code ≤ r.hi)).map fun r => (r.start, r.run)

/-- Whether a code is a port's pair fault. -/
def isPairFault (code : Nat) : Bool := code / 256 == 2 && code % 16 == 3

/-- The severity an error has where it is detected: at start-up or in a running role (R759), a pair fault's by
FAULT_POLICY, an engine's by what remains. [DEDUCED, log 96] -/
def errSev (code : Nat) (ds : List Nat) (s : State) : Option Nat :=
  (errSevs code ds).map fun v =>
    if isPairFault code then
      (if maskStops (code % 256 / 16) (ds.getD 0 0 + ds.getD 1 0 * 2 ^ 32) s then 2 else 1)
    else if code = 0x0703 ∧ (s.comp.engines.all fun e => e.out) then 2
    else if s.dev.state == .running then v.2 else v.1

/-! ### Detection (R762) -/

/-- The hardware consequence of an error, which takes effect before any firmware runs: a frame dropped, a port stopped, a
transmitter idled, an engine out of service, a link retraining, the recorder no longer accepting units. [DEDUCED, log 96] -/
def hwEffect (code inst : Nat) (ds : List Nat) (s : State) : State :=
  let b := code / 256
  let i := code % 256
  if s.dev.state != .running then s
  else if code = 0x0904 then recHalt s
  else if code = 0x0905 then stopClip true s
  else if code = 0x0703 then engineOut inst s
  else if code = 0x0120 ∨ code = 0x0122 ∨ code = 0x0123 then dropReceiving inst s
  else if b = 3 ∧ i % 16 = 1 then countRingDrop (i / 16) (dropReceiving (i / 16) s)
  else if b = 2 ∧ (i % 16 = 1 ∨ i % 16 = 4 ∨ i % 16 = 11) then portDrop (i / 16) s
  else if isPairFault code then
    (if maskStops (i / 16) (ds.getD 0 0 + ds.getD 1 0 * 2 ^ 32) s then modPort (i / 16) (fun x => { x with phase := .stopped }) s else s)
  else if b = 0x0B ∧ ds.getD 0 0 % 256 = 5 then modLane i (fun l => { l with idle := true, idleAt := s.dev.elapsed, state := 4 }) s
  else if b = 0x0C ∧ i % 16 = 5 then
    modGroup (i / 16) (fun x => { x with retraining := true, retrains := x.retrains + 1 }) (retrainFrom 2 (i / 16) s)
  else s

/-- ERROR_DETECTED (R762): the hardware consequence, the log entry and the queue entry of one error. A code that no table
names is no error (R760). [DEDUCED, log 96] -/
def execErrorDetected (code inst : Nat) (details : List Word) (s : State) : Res :=
  let ds := details.map BitVec.toNat
  .next (if !headframeOn s then s
  else
    let t := hwEffect code inst ds s
    match errSev code ds t with
    | some sev => raise sev code inst ds t
    | none => s)

/-! ### The Fatal stop (R761) -/

/-- An output with nothing to send. -/
def quietOutput (o : Output) : Output := { o with sent := none, held := none, mode := 0, order := 0, run := 0 }

/-- Everything that drives a ball or a lane goes quiet (R761 step 2); the lanes to the SSDs stay until the recorder has
stopped. [DEDUCED, log 97] -/
def quietAll (s : State) : State :=
  let ssd := fun (n : Nat) => laneProto s.cfg.accepted n == 3 && laneBlk s.cfg.accepted n == .recorder
  let t := (List.range 9).foldl (fun u g => clearFlight 0 g u) s
  let t := { t with
    cap := { t.cap with ports := t.cap.ports.map fun x => { x with
      phase := if x.phase = .off then .off else .stopped, fv := false, lv := false, skip := true, trigLevel := false, suppressed := true } }
    lanes := t.lanes.zipIdx.map fun l => if ssd l.2 then l.1 else { l.1 with state := 0 }
    out := { t.out with
      sdi := t.out.sdi.map quietOutput, snd := t.out.snd.map quietOutput, macs := t.out.macs.map fun m => { m with up := false }
      audio := t.out.audio.map fun a => { a with state := 0, restart := false, playing := none } } }
  resetController (modEp (fun e => { e with linkUp := false, width := 0 }) t)

/-- Drops what a stopped pipeline still held: nothing is taken to the configuration-error state. -/
def dropFrames (s : State) : State := (List.range 8).foldl (fun u n => dropReceiving n u) s

/-- Step 3 of the Fatal stop: the recorder stops as under R350, or after 0x1503 and 0x1504 only abandons its writes. [DEDUCED, log 97] -/
def stopRecorder (code : Nat) (s : State) : State :=
  if code = 0x1503 ∨ code = 0x1504 then abandonWrites s else if recOn s then recHalt s else s

/-- Whether the recorder's stop is over. [DEDUCED, log 97] -/
def recDone (s : State) : Bool := !recOn s || (s.rcd.clip.isNone && s.rcd.phase == .idle) || !membersOk s

/-- The end of the Fatal stop: the configuration-error state, with every queued Fatal entry completed; after 0x1703 every
domain but the always-on domain and the island is off (R765, R788). [DEDUCED, log 97] -/
def endFatal (s : State) : State :=
  let hot := s.err.entries.any fun e => e.sev == 3 && e.code == 0x1703
  let t := enterConfigError (modRec (fun r => { r with volume := 0 }) s)
  { t with
    lanes := t.lanes.map fun l => { l with state := 0 }
    cap := { t.cap with pipe := none }
    err := { t.err with entries := t.err.entries.filter fun e => e.sev != 3 }
    pwr := { t.pwr with thermallyOff := t.pwr.thermallyOff || hot, suspended := false, entering := false, unmounting := false } }

/-- A Fatal stop that this step brings from its first to its second part. [DEDUCED, log 97] -/
def fatalStep (code steps : Nat) (s : State) : State :=
  if s.dev.state != .running then s
  else if steps = 0 then declareFailure s
  else if steps = 1 then stopRecorder code (quietAll (dropFrames s))
  else s

/-! ### Actions (R763 to R766) -/

/-- Position of the entry whose action runs next: the highest severity, the earliest first (R763). [DEDUCED, log 97] -/
def nextAction (q : List ErrEntry) : Option Nat :=
  q.zipIdx.foldl (fun best p => match best with
    | none => some p.2
    | some i => if ((q[i]?.map (·.sev)).getD 0) < p.1.sev then some p.2 else some i) none

/-- A step of entry `i` begins: a running action of another entry is suspended (R765). -/
def runEntry (i : Nat) (q : List ErrEntry) : List ErrEntry :=
  q.zipIdx.map fun p =>
    if p.2 = i then { p.1 with phase := .running, steps := p.1.steps + 1 }
    else if p.1.phase = .running then { p.1 with phase := .suspended } else p.1

/-- Applies `f` to the error queue. -/
def modErr (f : ErrorQueue → ErrorQueue) (s : State) : State := { s with err := f s.err }

/-- A step of a Fatal stop; when it is the `last`, the rest of the stop has run too. [DEDUCED, log 97] -/
def fatalAction (i : Nat) (e : ErrEntry) (last : Bool) (s : State) : State :=
  let t := fatalStep e.code e.steps (modErr (fun q => { q with entries := runEntry i q.entries }) s)
  if !last then t
  else
    let u := if e.steps = 0 then
        fatalStep e.code 1 (modErr (fun q => { q with entries := q.entries.map fun x =>
          if x.phase = .running then { x with steps := 2 } else x }) t) else t
    if u.dev.state != .running || recDone u then endFatal u else u

/-- ERROR_ACTION (R763): one step, at most 1 ms, of the action of the entry with the highest severity; `last` says that the
action completes with it. The steps of actions below Fatal carry out consequences that their blocks' rules name, which
the commands of those blocks have already given. [DEDUCED, log 97] -/
def execErrorAction (last : Bool) (s : State) : Res :=
  .next (if !headframeOn s then s
  else match nextAction s.err.entries with
  | none => s
  | some i =>
    match s.err.entries[i]? with
    | none => s
    | some e =>
      if e.sev = 3 then fatalAction i e last s
      else if last then modErr (fun q => { q with entries := (runEntry i q.entries).eraseIdx i }) s
      else modErr (fun q => { q with entries := runEntry i q.entries }) s)

/-- The entry whose action runs, else none. -/
def handled (s : State) : Option ErrEntry := s.err.entries.find? fun e => e.phase == .running

/-- Message 0x1501: error queue status (R698, R767). [DEDUCED, log 97] -/
def errorQueueStatusMsg : MsgDef :=
  { count := fun c => c == 2, masks := [1], always := true,
    act := fun r _ s =>
      let q := s.err
      let h := handled s
      (.accept [q.entries.length + b2n q.lostFlag * 2 ^ 7 + (h.map (·.code)).getD 0 * 2 ^ 8 + (h.map (·.sev)).getD 0 * 2 ^ 24, q.lost,
        (q.entries.getLast?.map (·.code)).getD 0], if r.w 1 = 1 then modErr (fun x => { x with lostFlag := false }) s else s) }

end Sys2Proof.Machine
end

