-- ==== Sys2Proof/Machine/Admission.lean ====
section
/-! DEFINITION. The admission check of R42 to R55 and the fixed allocations of R644. -/

namespace Sys2Proof.Machine

/-! ### Terms -/

/-- A term of R42 at one instance: ID, instance, computed value, limit, and whether its blocks are on in the role. -/
structure Term where
  id : Nat
  inst : Nat
  value : Nat
  limit : Nat
  evaluated : Bool
deriving DecidableEq, Repr

/-- Whether a term fails (R42). -/
def Term.fails (t : Term) : Bool := t.evaluated && decide (t.limit < t.value)

/-- The pixel load of a seam (R43). -/
def pixelLoad (role : Role) (w : Words) (n : Nat) : Nat := (procRate role w n).2 + 4096 * (procRate role w n).1

/-- The adits that compress. -/
def compAdits (role : Role) (w : Words) : List Nat :=
  if role == .head then [] else (List.range 4).filter fun a => F.CMP_ENABLE.on a w && F.ADIT_ENABLE.on a w
/-- The seams a head sends compressed. -/
def compSeams (role : Role) (w : Words) : List Nat := if role == .head then (activeSeams w).filter (sentCompressed w) else []

/-- Bytes per second of pictures of a chroma format (0 4:4:4, 1 4:2:2, 2 4:2:0) at a pixel rate (R44). [DEDUCED, log 14] -/
def pictureRate (chroma px : Nat) : Nat :=
  match chroma with
  | 1 => 4 * px
  | 2 => 3 * px
  | _ => 6 * px

/-- The write rate of an encoder's source: its tap, or the decode stream it transcodes (R44). [DEDUCED, log 14] -/
def encInputRate (w : Words) (m : Nat) : Nat :=
  let i := F.CODEC_STRM_SRC_INDEX.get m w
  if F.CODEC_STRM_SRC_KIND.on m w then pictureRate (codeChromaFmt (F.CODEC_STRM_CHROMA.get i w)) (codecPix w i) else tapRate w i

/-- The charge of an SDI output or a video sender (R470). -/
def outputRead (o : OutId) (w : Words) : Nat :=
  let src := outSrc o w
  let (wd, ht, fmt, _) := srcShape src.1 src.2 w
  let f := outFps o w
  let bytes := match picChroma fmt with
    | 1 => 4 * wd * ht
    | 2 => 3 * wd * ht
    | _ => 6 * wd * ht
  ceilDiv (bytes * f.1) f.2

/-- The components of R44 and R470 in bytes per second. [DEDUCED, log 15] -/
def dramParts (role : Role) (w : Words) : List Nat :=
  let seams := activeSeams w
  let full := role != .head
  let adits := if full then (List.range 4).filter fun a => F.ADIT_ENABLE.on a w else []
  let taps := if full then (List.range 8).filter fun t => F.TAP_SRC_ENABLE.on t w else []
  let enc := streamsOf role false w
  let recs := recStreams role w
  let red := role == .body && F.RED_ENABLE.on 0 w
  let outs := if full then ((List.range 4).filter fun k => F.SDI_ENABLE.on k w).map OutId.sdi ++
    ((List.range 16).filter fun n => outEnabled (.snd n) w && outVideo (.snd n) w).map OutId.snd else []
  seams.map (fun n => 2 * ingestRate w n) ++ seams.map (fun n => 2 * (procRate role w n).2) ++
  adits.map (fun a => (if F.ADIT_POINT.get a w = 4 then 6 else 2) * aditRate w a) ++ taps.map (tapRate w) ++
  enc.map (encInputRate w) ++ enc.map (fun m => if intraStream w m then 0 else 4 * encInputRate w m) ++
  (streamsOf role true w).map (fun m => 5 * pictureRate (codeChromaFmt (F.CODEC_STRM_CHROMA.get m w)) (codecPix w m)) ++
  (compAdits role w).map (fun a => 2 * aditRate w a) ++ (compSeams role w).map (fun n => 2 * ingestRate w n) ++
  (compAdits role w).map (aditWorst w) ++
  (compSeams role w).map (fun n => worstRate w n (seamW w n * seamH w n) (depthBits (F.SEAM_SRC_DEPTH.get n w))) ++
  enc.map (fun m => ceilDiv (F.CODEC_STRM_MAX_BPS.get m w) 8) ++ recs.map (recRate w) ++
  (recs.filter fun j => F.REC_PREROLL_MS.get j w != 0).map (fun j => 2 * recRate w j) ++
  (if red then recs.map fun j => 2 * recRate w j else []) ++ outs.map (fun o => outputRead o w) ++ [4000000000]

/-- The DRAM term (R44). [DEDUCED, log 14] -/
def dramTerm (role : Role) (w : Words) : Nat := ceilDiv ((dramParts role w).sum * 17) 16

/-- The lane term's instances: first lane, assigned rate and capacity of each enabled lane group (R46, R48, R482). [DEDUCED, log 14] -/
def laneTerms (role : Role) (w : Words) : List (Nat × Nat × Nat) :=
  let links := if role == .head || role == .body then (List.range 9).filter fun g => F.LINK_ENABLE.on g w else []
  let streams := fun (g : Nat) =>
    if g = 8 then [] else if role == .head then (List.range 4).filterMap (headSeam w g)
    else (activeSeams w).filter fun n => F.SEAM_SRC_SRC_TYPE.on n w && F.SEAM_SRC_SRC_INDEX.get n w / 4 == g
  let media := role == .integrated || role == .body
  links.map (fun g => (F.LINK_FIRST_LANE.get g w, ((streams g).map fun n => streamRate (announceOf w n)).sum,
    groupCapacity w g (laneRate w (F.LINK_FIRST_LANE.get g w)) / 9009)) ++
  (if !media then [] else
    ((List.range 4).filter fun m => F.ETH_ENABLE.on m w).filterMap (fun m => (macLane m w).map fun l =>
      let r := laneRate w l
      (l, macLoad m r w, rateBaud1001 r * (if ratePam4 r then 2 else 1) / 1001)) ++
    ((List.range 4).filter fun k => F.SDI_ENABLE.on k w).map fun k =>
      let r := rateBaud1001 (laneRate w (36 + k)) / 1001
      (36 + k, r, r))

/-- Recorder capacity (R42, R52). -/
def recCapacity (w : Words) : Nat :=
  let ports := maskList (F.REC_VOL_RP_MASK.get 0 w)
  let ds := ports.map fun k => (F.REC_VOL_SSD_WRITE_MBPS k).get 0 w
  if F.REC_VOL_ENABLE.on 0 w then min 40000000000 (9 * ports.length * ds.foldl min (ds.headD 0) * 1000000 / 10) else 0

/-- Every term of R42 at every instance, in the order of their IDs. [DEDUCED, log 14] -/
def terms (role : Role) (w : Words) : List Term :=
  let full := role != .head
  let all := streamsOf role false w ++ streamsOf role true w
  let one := fun (id v l : Nat) (ev : Bool) => (⟨id, 0, if ev then v else 0, l, ev⟩ : Term)
  let lanes := laneTerms role w
  [one 1 ((activeSeams w).map (pixelLoad role w)).sum 18000000000 true, one 2 (dramTerm role w) 245760000000 true] ++
  (if lanes.isEmpty then [one 3 0 0 true] else lanes.map fun l => ⟨3, l.1, l.2.1, l.2.2, true⟩) ++
  [one 4 (all.map fun m => ceilDiv (codecPix w m * 1000000) (if intraStream w m then 4800000000 else 2400000000)).sum 1000000 full,
   one 5 (ceilDiv (5 * (all.map fun m => F.CODEC_STRM_MAX_BPS.get m w).sum) 4) 3840000000 full,
   one 6 all.length 8 full,
   one 7 (((compAdits role w).map (aditRate w)).sum + ((compSeams role w).map (ingestRate w)).sum) 20000000000 true,
   one 8 ((recStreams role w).map (recRate w)).sum (if full then recCapacity w else 0) full,
   one 9 (recStreams role w).length 8 full]

/-- The error code of a term (R54). -/
def termErr (id : Nat) : Nat := 0x010F + id

/-- A term's value in parts per million of its limit (R53). -/
def termPpm (t : Term) : Nat :=
  if t.limit = 0 then (if t.value = 0 then 0 else 0xFFFFFFFF) else min 0xFFFFFFFF (ceilDiv (t.value * 1000000) t.limit)

/-- The detail words of a failing term (R53). [DEDUCED, log 103] -/
def termDetails (t : Term) : List Nat := [t.id + t.inst * 256] ++ loWords 2 t.value ++ [termPpm t]

/-- Logs the failing terms (R53, R54). -/
def logTerms (sev : Nat) (l : List Term) (s : State) : State :=
  l.foldl (fun u t => raise sev (termErr t.id) (if t.id = 3 then t.inst else noInst) (termDetails t) u) s

/-! ### Fixed allocations (R113, R644) -/

/-- Rounds up to 4 KiB. -/
def page4k (n : Nat) : Nat := ceilDiv n 4096 * 4096

/-- Bytes of the planes of a picture of a chroma format. -/
def planesBytes (chroma w h : Nat) : Nat :=
  match chroma with
  | 1 => h * (lineBytes w + 2 * lineBytes (w / 2))
  | 2 => h * lineBytes w + 2 * (h / 2 * lineBytes (w / 2))
  | _ => 3 * h * lineBytes w

/-- Bytes of the largest unit of a record stream (R45, R319). [DEDUCED, log 15] -/
def unitBytes (w : Words) (j : Nat) : Nat :=
  let src := F.REC_SOURCE.get j w
  match F.REC_KIND.get j w with
  | 0 =>
    let d := aditDims w src
    worstFrame d.1 d.2.1 d.2.2
  | 1 => F.CODEC_RC_PIC_CAP_BYTES.get src w
  | 2 => 528
  | _ => ceilDiv (recRate w j * F.SEAM_GEOM_FPS_DEN.get src w) (F.SEAM_GEOM_FPS_NUM.get src w)

/-- The sizes of items 1 to 8 of R644 in order: item and bytes before rounding. [DEDUCED, log 15] -/
def allocSizes (role : Role) (w : Words) : List (Nat × Nat) :=
  let full := role != .head
  let many := fun (item n size : Nat) => List.replicate n (item, size)
  let recs := recStreams role w
  let mib := 2 ^ 20
  [(1, 512 * mib)] ++ (if full && F.REC_VOL_ENABLE.on 0 w then [(2, 128 * mib)] else []) ++ [(3, 64 * mib)] ++
  (if full then (activeSeams w).flatMap fun n => many 4 (F.STATS_DEPTH.get n w) 114752 else []) ++
  (if full then
    (((List.range 8).filter fun t => F.TAP_SRC_ENABLE.on t w).flatMap fun t =>
      many 5 (F.TAP_SRC_DEPTH.get t w) (64 + planesBytes (picChroma (F.TAP_SRC_FORMAT.get t w)) (F.TAP_SRC_OUT_W.get t w) (F.TAP_SRC_OUT_H.get t w))) ++
    (((List.range 4).filter fun a => F.ADIT_ENABLE.on a w).flatMap fun a =>
      let d := aditDims w a
      many 5 (F.ADIT_BUFS.get a w) (64 + (if F.ADIT_POINT.get a w = 4 then 3 else 1) * d.2.1 * lineBytes d.1)) ++
    ((streamsOf role true w).flatMap fun m =>
      many 5 (F.CODEC_STRM_DEPTH.get m w) (64 + planesBytes (codeChromaFmt (F.CODEC_STRM_CHROMA.get m w)) (F.CODEC_PIC_OUT_W.get m w) (F.CODEC_PIC_OUT_H.get m w)))
   else []) ++
  ((streamsOf role false w ++ streamsOf role true w).flatMap fun m =>
    let wd := F.CODEC_PIC_OUT_W.get m w
    let ht := F.CODEC_PIC_OUT_H.get m w
    let pic := planesBytes (codeChromaFmt (F.CODEC_STRM_CHROMA.get m w)) wd ht
    [(6, F.CODEC_STRM_RING_BYTES.get m w)] ++
    (if F.CODEC_STRM_DIR.on m w then many 6 (maxDpb (F.CODEC_STRM_LEVEL.get m w) (wd * ht) + 1) pic
     else [(6, 8192)] ++ (if intraStream w m then [] else many 6 (F.CODEC_RC_REFS.get m w + 1) pic))) ++
  (recs.flatMap fun j =>
    (if F.REC_KIND.get j w = 0 then [(7, if F.REC_STAGE_BYTES.get j w = 0 then 3 * unitBytes w j else F.REC_STAGE_BYTES.get j w)] else []) ++
    (if F.REC_PREROLL_MS.get j w = 0 then [] else [(7, prerollBytes w j)]) ++
    (if role == .body && F.RED_ENABLE.on 0 w then [(7, 4 * unitBytes w j)] else [])) ++
  (if full then ((List.range 8).filter fun p => F.AUD_ENABLE.on p w).map fun p => (8, F.AUD_BUFS.get p w * 528) else [])

/-- The seam rings, which are allocated last (R113, R644): item 9. [DEDUCED, log 15] -/
def ringSizes (role : Role) (w : Words) : List (Nat × Nat) := (activeSeams w).map fun n => (9, ringBytes role w n (ringDepthOf role w n))

/-- Bytes that sizes occupy. -/
def allocTotal (l : List (Nat × Nat)) : Nat := (l.map fun a => page4k a.2).sum

/-- Places sizes one after another from an address (R644). -/
def placeAll : Nat → List (Nat × Nat) → List (Nat × Nat × Nat)
  | _, [] => []
  | a, x :: r => (x.1, a, page4k x.2) :: placeAll (a + page4k x.2) r

/-- Whether items 1 to 8, or these with the seam rings, exceed the usable space: the bytes short (R113, R644). -/
def shortfall (l : List (Nat × Nat)) (w : Words) : Option Nat :=
  if dramUsable w < allocTotal l then some (allocTotal l - dramUsable w) else none

/-! ### Message 0x0110 (R55) -/

/-- The term a report request names. -/
def reportTerm (r : Req) (s : State) : Option Term :=
  let l := terms s.dev.role s.cfg.accepted
  let id := bits (r.w 1) 7 0
  if id = 0 then some ((l.find? Term.fails).getD (l.headD ⟨1, 0, 0, 0, true⟩))
  else l.find? fun t => t.id == id && t.inst == bits (r.w 1) 15 8

/-- Message 0x0110: admission report. -/
def admissionReportMsg : MsgDef :=
  { count := fun c => c == 2, masks := [0xFFFF], always := true,
    bad := fun r s => (reportTerm r s).isNone,
    act := fun r _ s =>
      match reportTerm r s with
      | some t =>
        (.accept ([t.id + t.inst * 2 ^ 8 + b2n t.fails * 2 ^ 16 + b2n (!t.evaluated) * 2 ^ 17] ++ loWords 2 t.value ++ loWords 2 t.limit), s)
      | none => (.refuse 2 0 0, s) }

end Sys2Proof.Machine
end

