-- ==== Sys2Proof/Machine/Records.lean ====
section
/-! DEFINITION. Owner configuration records, what they set, run-time permission, profiles and the table payload directory
(R653 to R661). -/

namespace Sys2Proof.Machine

/-! ### Pages by number -/

/-- A page and the offset of one of its instances, by page ID. -/
def pageOf (id : Nat) : Option (Page × Nat) :=
  (pages.find? fun p => p.offs.any fun o => p.base + o == id).map fun p => (p, id - p.base)

/-- The instance of a field on the page at an offset. -/
def fldInst (f : Fld) (off : Nat) : Nat := if f.stride = 0 then 0 else off / f.stride

/-- The fields in a word of a page, each with its instance. -/
def fieldsAt (id word : Nat) : List (Fld × Nat) :=
  match pageOf id with
  | some (p, off) => (p.fields.filter fun f => f.word == word).map fun f => (f, fldInst f off)
  | none => []

/-- The sum of the masks of fields. -/
def maskOf (fs : List (Fld × Nat)) : Nat := (fs.map fun f => f.1.mask).sum

/-- What a word reads that no record and no message has written: its Defaults (R655). -/
def defaultWord (id word : Nat) : Nat := ((fieldsAt id word).map fun f => f.1.dflt * 2 ^ f.1.lo).sum

/-- A word of a store, whole (R671). -/
def wordOf (w : Words) (id word : Nat) : Nat := (w.lookup (wordKey id word)).getD (defaultWord id word)

/-- A field's bits in a word's value. -/
def fieldBits (f : Fld) (v : Nat) : Nat := bits v f.hi f.lo

/-- The bits of a word that belong to Frame and Live fields (R658). [DEDUCED, log 91] -/
def liveMask (id word : Nat) : Nat := maskOf ((fieldsAt id word).filter fun f => f.1.cls != .static)

/-- Bits of `v` where the mask is set, bits of `old` elsewhere. -/
def mergeBits (mask v old : Nat) : Nat := (v &&& mask) ||| (old ^^^ (old &&& mask))

/-- Writes a word's masked bits into a store. -/
def putBits (id word mask v : Nat) (w : Words) : Words :=
  setWord (wordKey id word) (mergeBits mask v (wordOf w id word)) w

/-! ### Records (R653) -/

/-- A record: its byte offset in the body, header fields and data words. -/
structure Rec where
  off : Nat
  page : Nat
  word : Nat
  count : Nat
  typ : Nat
  profile : Nat
  low : Nat
  data : List Nat
deriving DecidableEq, Repr, Inhabited

/-- The records of a body as far as they can be read, and the offset at which it stops being a sequence of records ended
by an END record that ends it. -/
def parseRecords : Nat → Nat → List Nat → List Rec × Option Nat
  | 0, off, _ => ([], some off)
  | fuel + 1, off, h :: g :: r =>
    let n := h % 256
    let typ := bits g 31 28
    if r.length < n then ([], some off)
    else
      let x : Rec := ⟨off, bits h 31 16, bits h 15 8, n, typ, bits g 27 24, bits g 23 0, r.take n⟩
      if typ = 2 then ([x], if r.length = n then none else some off)
      else
        let q := parseRecords fuel (off + 8 + 4 * n) (r.drop n)
        (x :: q.1, q.2)
  | _ + 1, off, _ => ([], some off)

/-- The records of an owner configuration body. -/
def recordsOf (body : List Byte) : List Rec × Option Nat :=
  let q := parseRecords (body.length + 1) 0 (words32 body)
  if body.length % 4 = 0 then q else (q.1, some (q.2.getD 0))

/-- Whether a record writes an island page, which R554 refuses. -/
def islandRec (r : Rec) : Bool := r.page / 256 == 0x0F

/-- The (page, word, value) triples of a record. -/
def recWords (r : Rec) : List (Nat × Nat × Nat) := r.data.zipIdx.map fun d => (r.page, r.word + d.2, d.1)

/-- VALUES records of a profile. -/
def valuesOf (p : Nat) (rs : List Rec) : List Rec := rs.filter fun r => r.typ == 0 && r.profile == p && !islandRec r

/-- The base values: the words of the base VALUES records (R655). -/
def baseWords (rs : List Rec) : Words :=
  ((valuesOf 0 rs).flatMap recWords).foldl (fun w t => setWord (wordKey t.1 t.2.1) t.2.2 w) []

/-- The masks of the records of one type. [DEDUCED, log 91] -/
def maskWords (typ : Nat) (rs : List Rec) : Words :=
  ((rs.filter fun r => r.typ == typ).flatMap recWords).foldl (fun w t => setWord (wordKey t.1 t.2.1) t.2.2 w) []

/-- The profiles that exist: 0, and those with a VALUES record (R659). [DEDUCED, log 91] -/
def profileExists (p : Nat) (rs : List Rec) : Bool := p == 0 || !(valuesOf p rs).isEmpty

/-- Whether two records of one kind name a word in common. -/
def overlaps (a b : Rec) : Bool := a.page == b.page && decide (a.word < b.word + b.count) && decide (b.word < a.word + a.count)

/-- Whether a word of page CODECm.RC holds a value that its map bounds by another field: QP_MAX below QP_MIN, TARGET_BPS above
MAX_BPS (R316). -/
def rcBad (w : Words) (page word : Nat) : Bool :=
  let m := page - 0x0810
  decide (0x0810 ≤ page ∧ page < 0x0818) &&
    ((word == 0 && decide (F.CODEC_RC_QP_MAX.get m w < F.CODEC_RC_QP_MIN.get m w)) ||
      (word == 2 && decide (F.CODEC_STRM_MAX_BPS.get m w < F.CODEC_RC_TARGET_BPS.get m w)))

/-- The base values with those of a profile over them (R658). -/
def profWords (p : Nat) (rs : List Rec) : Words :=
  ((valuesOf p rs).flatMap recWords).foldl (fun w t => setWord (wordKey t.1 t.2.1) t.2.2 w) (baseWords rs)

/-- Whether a VALUES word breaks R654: a reserved bit, a value the map refuses for which no chapter names an error, a
profile that does not exist, or a Static field of a profile that differs from its base value. -/
def badValue (rs : List Rec) (profile : Nat) (t : Nat × Nat × Nat) : Bool :=
  let fs := fieldsAt t.1 t.2.1
  decide (t.2.2 &&& maskOf fs ≠ t.2.2) ||
  (fs.any fun f => f.1.err == 0 && !f.1.okValue (fieldBits f.1 t.2.2)) ||
  (t.1 == 0x0101 && t.2.1 == 0 && !profileExists (t.2.2 % 16) rs) || rcBad (profWords profile rs) t.1 t.2.1 ||
  (profile != 0 && fs.any fun f => f.1.cls == .static && fieldBits f.1 t.2.2 != f.1.get f.2 (baseWords rs))

/-- Whether a mask word breaks R654: a reserved bit, part of a field, or a Static field. -/
def badMask (t : Nat × Nat × Nat) : Bool :=
  let fs := fieldsAt t.1 t.2.1
  decide (t.2.2 &&& maskOf fs ≠ t.2.2) ||
  fs.any fun f =>
    let m := t.2.2 &&& f.1.mask
    (m != 0 && m != f.1.mask) || (m != 0 && f.1.cls == .static)

/-- Whether the fields that R653 requires to be zero for a type are zero, and COUNT fits it. -/
def headerOk (r : Rec) : Bool :=
  r.low == 0 && decide (r.typ ≤ 5) && (r.typ == 0 || r.profile == 0) &&
  (if r.typ = 2 then r.page == 0 && r.word == 0 && r.count == 0
   else if r.typ = 4 then r.page == 0 && r.word == 0 && r.count == 18
   else if r.typ = 5 then r.page == 0 && r.word == 0 && r.count == 8
   else decide (0 < r.count))

/-- Whether a record breaks R654, given the records before it in the body and all of them. -/
def badRec (all before : List Rec) (r : Rec) : Bool :=
  let same := before.filter fun b => b.typ == r.typ
  !headerOk r ||
  match r.typ with
  | 0 => (match pageOf r.page with
      | some p => decide (p.1.words < r.word + r.count) || (recWords r).any (badValue all r.profile)
      | none => true) || same.any fun b => b.profile == r.profile && overlaps b r
  | 2 => false
  | 4 | 5 => !same.isEmpty
  | _ => (match pageOf r.page with
      | some p => decide (p.1.words < r.word + r.count) || (recWords r).any badMask
      | none => true) || same.any (overlaps r) ||
      (before.any fun b => (b.typ == 1 || b.typ == 3) && b.typ != r.typ && (recWords r).any fun t => (recWords b).any fun u =>
        u.1 == t.1 && u.2.1 == t.2.1 && (u.2.2 &&& t.2.2) != 0)

/-- The offset of the first record that R654 refuses; records of island pages are left to R554. -/
def firstBad (all : List Rec) : List Rec → List Rec → Option Nat
  | _, [] => none
  | before, r :: rest => if !islandRec r && badRec all before r then some r.off else firstBad all (before ++ [r]) rest

/-- Where a body breaks R653 and R654, first in body order. -/
def recordError (body : List Byte) : Option Nat :=
  let q := recordsOf body
  (firstBad q.1 [] q.1).or q.2

/-! ### Blocks of pages (R19, R655) -/

/-- The block of R19 that a page belongs to. -/
def pageBlk (id : Nat) : Blk :=
  let b := id / 256
  if b = 2 then .sensor
  else if b = 3 then .ingest
  else if b = 4 then
    (if id < 0x0410 then .frontHead else if 0x0418 ≤ id ∧ id < 0x0420 then .frontHead
     else if id < 0x0430 then .frontBody else .colour)
  else if b = 5 then .colour
  else if b = 6 then .frontBody
  else if b = 7 then .compressor
  else if b = 8 then .codec
  else if b = 9 then .recorder
  else if b = 0x0A then .endpoint
  else if b = 0x0C then (if id = 0x0C80 then .cage else .shaft)
  else if b = 0x0D ∨ b = 0x11 ∨ b = 0x12 then .media
  else .always

/-- The words of pages whose blocks are on in a role (R655). [DEDUCED, log 91] -/
def roleWords (role : Role) (w : Words) : Words :=
  w.filter fun e => roleHas role (pageBlk (e.1 / 256)) true && (role == .head || e.1 / 256 != F.CMP_LINK_LINK_SEAMS.base)

/-! ### Profiles (R658, R659) -/

/-- The (profile, key, value) triples of the profiles' VALUES records. -/
def profileWords (rs : List Rec) : List (Nat × Nat × Nat) :=
  (rs.filter fun r => r.typ == 0 && r.profile != 0 && !islandRec r).flatMap fun r =>
    (recWords r).map fun t => (r.profile, wordKey t.1 t.2.1, t.2.2)

/-- The words that selecting profile `p` writes: every word of the profile set, its base value overlaid by the profile's
record, in its Frame and Live bits: (page, word, mask, value). [DEDUCED, log 91] -/
def profileWrites (p : Nat) (c : Cfg) : List (Nat × Nat × Nat × Nat) :=
  c.profileSet.map fun k =>
    let v := match c.profiles.find? fun x => x.1 == p && x.2.1 == k with
      | some x => x.2.2
      | none => wordOf c.base (k / 256) (k % 256)
    (k / 256, k % 256, liveMask (k / 256) (k % 256), v)

/-- Applies writes to a store as one write (R656). -/
def applyWrites (l : List (Nat × Nat × Nat × Nat)) (w : Words) : Words := l.foldl (fun u x => putBits x.1 x.2.1 x.2.2.1 x.2.2.2 u) w

/-! ### Table payloads (R660, R661) -/

/-- A directory entry: INDEX, offset, length and digest. -/
structure DirEntry where
  index : Nat
  off : Nat
  len : Nat
  digest : List Byte
deriving DecidableEq, Repr, Inhabited

/-- The entries of a table payload directory body. -/
def dirEntries (body : List Byte) : List DirEntry :=
  (List.range (min (fieldAt body 0 4) (body.length / 48 + 1))).map fun i =>
    let o := 4 + 48 * i
    ⟨fieldAt body o 2, fieldAt body (o + 4) 4, fieldAt body (o + 8) 4, slice body (o + 16) 32⟩

/-- Whether entries ascend strictly from an index. -/
def ascendingFrom : Nat → List DirEntry → Option Nat
  | _, [] => none
  | k, e :: r => if e.index ≤ k then some e.index else ascendingFrom e.index r

/-- What fails of the payload region: the check of R661 and the INDEX concerned. `digest` is the PAYLOADS record. -/
def payloadError (region : List Byte) (size : Nat) (refused : Bool) (digest : Option (List Byte)) : Option (Nat × Nat) :=
  let body := imageBody region
  let es := dirEntries body
  if refused then some (1, 0)
  else match digest with
  | none => some (2, 0)
  | some d =>
    if sha256 body ≠ d then some (3, 0)
    else if es.length < fieldAt body 0 4 then some (4, 0)
    else match ascendingFrom 0 es with
    | some i => some (4, i)
    | none =>
      match es.find? fun e => e.off % 64 != 0 || decide (size < e.off + e.len) with
      | some e => some (5, e.index)
      | none =>
        if 384 * 2 ^ 20 < (es.map (·.len)).sum then some (6, 0)
        else (es.find? fun e => sha256 (slice region e.off e.len 0xFF) != e.digest).map fun e => (7, e.index)

/-- The payloads of a region, by index. -/
def payloadTables (region : List Byte) : List (Nat × List Byte) :=
  (dirEntries (imageBody region)).map fun e => (e.index, slice region e.off e.len 0xFF)

/-- The digest of the PAYLOADS record. -/
def payloadsDigest (rs : List Rec) : Option (List Byte) := (rs.find? fun r => r.typ == 5).map fun r => r.data.flatMap (leBytes 4)

end Sys2Proof.Machine
end

