-- ==== Sys2Proof/Machine/Startup.lean ====
section
/-! DEFINITION. Reset, start-up, role start, the device messages and run-time settings (chapters 19 and 24). -/

namespace Sys2Proof.Machine

/-! ### Reset (R4, R662, R783) -/

/-- The role of the straps (R4). -/
def roleOf (straps : Nat) : Role :=
  match straps % 4 with
  | 0 => .integrated
  | 1 => .head
  | 2 => .body
  | _ => .reserved

/-- Step 1 of R662: the straps are sampled and the boot ROM starts; the error queue and every run are empty (R808). -/
def beginStart (straps : Nat) (s : State) : State :=
  { resetAll s with
    dev := { part := s.dev.part, straps := straps % 4, role := roleOf straps, state := .starting, resetLow := false
             starts := wrapInc 32 s.dev.starts } }

/-- The mailboxes as a start that is no reset leaves them: queues, replies and counts stay, nonces, open sequences and the
bulk window's hold do not. [DEDUCED, log 94] -/
def keepMbx (m : Mailboxes) : Mailboxes :=
  { m with nonces := [], holder := none, asleep := [], chans := m.chans.map fun c => { c with held := [] } }

/-- A restart: R662 from step 1 without a reset. Messages queued, log entries and OTP writes are not lost, and JTAG stays
as it is (R671, R753). [DEDUCED, log 94] -/
def restartDevice (s : State) : State :=
  { beginStart s.dev.straps s with mbx := keepMbx s.mbx, log := s.log, otp := s.otp }

/-- RESET (R783): RESET_L low for at least 10 µs. -/
def execReset (s : State) : Res := .next (resetAll s)

/-- RESET_RELEASE (R662): the rising edge of RESET_L; while the thermal trip holds the device in reset no start follows
(R789). -/
def execResetRelease (straps : Nat) (s : State) : Res :=
  .next (if !s.dev.resetLow then s
  else if s.pwr.tripHeld then { s with dev := { s.dev with resetLow := false, straps := straps % 4 } }
  else beginStart straps s)

/-- HARDWARE_THERMAL_TRIP (R789): a comparator sees 165 °C. [DEDUCED, log 94] -/
def execHardwareThermalTrip (s : State) : Res :=
  let t := resetAll s
  .next { t with dev := { t.dev with resetLow := s.dev.resetLow }, pwr := { t.pwr with tripHeld := true, tripped := true } }

/-- HARDWARE_THERMAL_TRIP_CLEAR (R789): every comparator sees below 145 °C. -/
def execHardwareThermalTripClear (s : State) : Res :=
  let t := modPwr (fun p => { p with tripHeld := false }) s
  .next (if s.pwr.tripHeld && !s.dev.resetLow then beginStart s.dev.straps t else t)

/-- HEADFRAME_WATCHDOG_EXPIRY (R711): the device resets and runs R662 from step 1. [DEDUCED, log 94] -/
def execHeadframeWatchdogExpiry (s : State) : Res := .next (if headframeOn s then beginStart s.dev.straps s else s)

/-! ### Block checks (R810) -/

/-- Fields whose range their chapter checks under its own error at start-up (R389, R520, R647, R701, R729). -/
def rangeFields : List Fld :=
  [F.EP0_IOQ_MAX, F.EP0_HOST_TIMEOUT_MS, F.EP0_MQES, F.TIME_CLK_SOURCE, F.DRAM_CFG_BLAST, F.DRAM_CFG_ACT_THRESH, F.DRAM_CFG_AGE_NS,
   F.DRAM_CFG_SCRUB_H, F.MGMT_WDT_MS] ++ (List.range 14).map F.MBX_RECEIVER

/-- Those out of range. -/
def rangeChecks (w : Words) : List (Nat × Nat × List Nat) :=
  (rangeFields.filter fun f => !f.okValue (f.get 0 w)).map fun f => (f.err, noInst, [])

/-- Whether a payload field names an index that the directory does not hold (R661). -/
def absent (tables : List (Nat × List Byte)) (i : Nat) : Bool := i != 0 && (tables.lookup i).isNone

/-- Payloads named by blocks whose own checks do not look them up: loop weights, encoder coefficients, panel
initialisation (R661). -/
def payloadChecks (w : Words) (tables : List (Nat × List Byte)) : List (Nat × Nat × List Nat) :=
  ((activeSeams w).filter fun n => absent tables (F.LOOP_AE_WEIGHTS.get n w)).map (fun n => (0x0690 + n, n, [])) ++
  ((List.range 8).filter fun m => F.CODEC_STRM_ENABLE.on m w && !F.CODEC_STRM_DIR.on m w &&
    [F.CODEC_PIC_H_COEFF.get m w, F.CODEC_PIC_V_COEFF.get m w].any fun i => i != 0 && !coeffOk tables i).map
    (fun m => (0x0820 + m, m, [])) ++
  ((List.range 2).filter fun k => F.VF_PANEL_ENABLE.on k w && absent tables (F.VF_PANEL_INIT.get k w)).map fun k => (0x1101, k, [])

/-- The check of R752. -/
def secChecks (w : Words) (tables : List (Nat × List Byte)) : List (Nat × Nat × List Nat) :=
  if F.SEC_ENCRYPT.on 0 w && !recipientsOk (tables.lookup (F.SEC_RECIP_KEYS.get 0 w)) then [(0x1601, noInst, [])] else []

/-- The checks of the blocks that refuse a use in a role that lacks them (R655), on every record. -/
def roleChecks (role : Role) (w : Words) (tables : List (Nat × List Byte)) (s : State) : List (Nat × Nat × List Nat) :=
  tapChecks role w tables ++ aditChecks role w ++ codecChecks role w ++ laneChecks role w ++ linkChecks role w ++
    redChecks role s.otp.serial w

/-- The checks of the other blocks, on the records of pages whose blocks are on; `s` holds them as accepted. [DEDUCED, log 92] -/
def ownChecks (role : Role) (w : Words) (tables : List (Nat × List Byte)) (s : State) : List (Nat × Nat × List Nat) :=
  rangeChecks w ++ portChecks w tables (s.hf.rails.getD 12 {}).now ++ seamChecks role w ++ rfeChecks role w tables ++
    loopChecks role w tables ++ payloadChecks w tables ++ (if role == .head then [] else recChecks w ++ outChecks w ++ vfChecks w ++ audChecks w) ++
    timeChecks s ++ secChecks w tables

/-- Channels whose devices report another density than DRAM.CFG declares (R627). [DEDUCED, log 92] -/
def densityChecks (w : Words) (s : State) : List (Nat × Nat × List Nat) :=
  ((List.range 8).filter fun c => (dramOf c s).density != F.DRAM_CFG_DENSITY.get 0 w).map fun c => (0x1301, c, [])

/-- Records of island pages (R554). -/
def islandChecks (rs : List Rec) : List (Nat × Nat × List Nat) := (rs.filter islandRec).map fun r => (0x0F01, noInst, [r.off])

/-- Logs failures at a severity. -/
def logAll (sev : Nat) (l : List (Nat × Nat × List Nat)) (s : State) : State := l.foldl (fun t e => raise sev e.1 e.2.1 e.2.2 t) s

/-! ### Start-up, steps 2 to 8 (R662, R663, R810) -/

/-- Applies `f` to the settings. -/
def modCfg (f : Cfg → Cfg) (s : State) : State := { s with cfg := f s.cfg }

/-- A Fatal error that stops start-up. -/
def stopStart (code inst : Nat) (ds : List Nat) (s : State) : State := enterConfigError (raise 3 code inst ds s)

/-- Step 5: the channels train, and every usable and check burst is written with zeros (R641). -/
def trainDram (ok : List Bool) (s : State) : State :=
  let t := (List.range 8).foldl (fun u c =>
    if ok.getD c true then trainChan c u else raise 3 0x1302 c [] u) (modDram (fun d => { d with mem := [], poison := [] }) s)
  t

/-- Step 4: the calibration store (R665, R725). -/
def loadStore (s : State) : State :=
  let (ok, t) := verifyRegion 4 false s
  if ok then modHf (fun h => { h with factoryValid := true, factory := Config.calSetsOf (imageBody s.nvm.calFactory) }) t
  else raise 1 0x010A noInst [] (modHf (fun h => { h with factoryValid := false, factory := [] }) t)

/-- The digest the seal compares: SHA-256 of the island's verified firmware image (R530). [DEDUCED, log 65] -/
def islandImage (s : State) : Option (List Byte) :=
  if (s.cfg.images.getD 3 {}).verified then some (sha256 (imageBody s.nvm.assay)) else none

/-- Whether VDD_ASSAY was within its limits at the last sample; before the first sample it counts as present (R528). [DEDUCED, log 65] -/
def assaySupply (s : State) : Bool :=
  let mv := (s.hf.rails.getD 3 {}).now
  mv == 0 || railOk 3 mv

/-- Step 6: the island starts, and runs in the configuration-error state too (R662, R666). -/
def islandUp (s : State) : State := modIsl (fun _ => { running := (s.cfg.images.getD 3 {}).verified && assaySupply s }) s

/-- Steps 3 to 7: the images are read and verified and the DRAM trained. The image in the slot chosen for the owner
configuration, and the reason it was refused for, or 0. [DEDUCED, log 92] -/
def loadImages (dramTrained : List Bool) (refSensor : Bool) (s : State) : Bool × Nat × State :=
  let t := (verifyRegion 0 false s).2
  let t := (verifyRegion 1 (t.cfg.images.getD 1 {}).slotB t).2
  let t := loadStore (modHf (fun h => { h with refPresent := refSensor }) t)
  let t := if t.pwr.tripped then raise 1 0x1705 noInst [] (modPwr (fun p => { p with tripped := false }) t) else t
  let (b, t) := chooseSlot 2 t
  let reason := imageReason 2 (regionOf 2 b t) t
  let t := (verifyRegion 2 b t).2
  let t := trainDram dramTrained (islandUp (verifyRegion 3 false t).2)
  (b, reason, (verifyRegion 5 false t).2)

/-- What the records of a verified owner image set (R655 to R659). [DEDUCED, log 92] -/
def applyRecords (rs : List Rec) (s : State) : State :=
  let base := baseWords rs
  let ps := profileWords rs
  let c : Cfg := { s.cfg with
    accepted := base, base := base, permit := maskWords 1 rs, permitPriv := maskWords 3 rs
    profiles := ps, profileSet := (ps.map (·.2.1)).eraseDups
    admission := (rs.find? fun r => r.typ == 4).map fun r => (List.range 9).map fun i =>
      r.data.getD (2 * i) 0 + r.data.getD (2 * i + 1) 0 * 2 ^ 32
    tables := payloadTables s.nvm.payloads }
  let p := F.DEV1_START_PROFILE.get 0 base
  { s with
    cfg := { c with accepted := applyWrites (profileWrites p c) base }
    dev := { s.dev with profile := p } }

/-- The first term whose value differs from the image's ADMISSION record: 0 when there is no record (R669). The value of a term with
several instances is its largest. [DEDUCED, log 119] -/
def admissionDiffers (l : Option (List Nat)) (ts : List Term) : Option Nat :=
  match l with
  | none => some 0
  | some vs => (List.range 9).findSome? fun i =>
      let mine := ((ts.filter fun t => t.id == i + 1).map (·.value)).foldl max 0
      if mine = vs.getD i 0 then none else some (i + 1)

/-- DRAM too small for the fixed allocations is logged with the bytes it lacks (R113). -/
def noteShort (o : Option Nat) (s : State) : State :=
  match o with
  | some b => raise 3 0x1301 noInst (loWords 2 b) s
  | none => s

/-- An ADMISSION record that differs from the model's own terms is logged with the first term that does (R669). -/
def noteDiffers (o : Option Nat) (s : State) : State :=
  match o with
  | some i => raise 0 0x0109 noInst [i] s
  | none => s

/-- Admission and the ring check at start-up (R53, R114): every failing term, seam and shortfall is logged. -/
def admitStart (s : State) : State :=
  let role := s.dev.role
  let w := s.cfg.accepted
  let ts := terms role w
  let fails := ts.filter Term.fails
  let rings := ringFailures role w (ringDepthOf role w)
  let short := shortfall (allocSizes role w ++ ringSizes role w) w
  let t := logAll 3 rings (logTerms 3 fails s)
  let t := noteDiffers (admissionDiffers s.cfg.admission ts) (noteShort short t)
  if fails.isEmpty && rings.isEmpty && short.isNone then { t with dev := { t.dev with state := .ready } } else enterConfigError t

/-- The records of pages whose blocks are off are ignored from here on (R655). [DEDUCED, log 92] -/
def keepRole (role : Role) (c : Cfg) : Cfg :=
  let on := fun (k : Nat) => roleHas role (pageBlk (k / 256)) true
  { c with
    accepted := roleWords role c.accepted, base := roleWords role c.base, permit := roleWords role c.permit
    permitPriv := roleWords role c.permitPriv, profileSet := c.profileSet.filter on }

/-- Step 8 once the agreement checks have passed and the records have passed R654: the block checks, then admission and
the ring check (R810). [DEDUCED, log 92] -/
def checkStart (rs : List Rec) (s : State) : State :=
  let role := s.dev.role
  let t := applyRecords rs s
  let full := t.cfg.accepted
  let t := modCfg (keepRole role) t
  let w := t.cfg.accepted
  let bad := islandChecks rs ++ roleChecks role full t.cfg.tables t ++ ownChecks role w t.cfg.tables t ++ densityChecks w t
  if bad.isEmpty then admitStart t else enterConfigError (logAll 3 bad t)

/-- Whether EP0 gives messages a path in the configuration-error state (R666). -/
def imageEp (rs : List Rec) (s : State) : Bool :=
  F.EP0_ENABLE.on 0 (baseWords rs) && roleHas s.dev.role .endpoint false && !fused s.dev.part .endpoint

/-- Steps 7 and 8 on a verified owner image. [DEDUCED, log 92] -/
def startRecords (b : Bool) (s : State) : State :=
  let body := imageBody (regionOf 2 b s)
  let q := recordsOf body
  let t := modCfg (fun c => { c with epEnabledImage := imageEp q.1 s }) s
  let digest := payloadsDigest q.1
  let reason := imageReason 5 s.nvm.payloads s
  if roleOf (F.DEV0_ROLE.get 0 (baseWords q.1)) ≠ s.dev.role then stopStart 0x0102 noInst [] t
  else
    let perr := if digest.isNone && q.2.isSome then none
      else payloadError s.nvm.payloads (regionBytes 5 s) (reason != 0) digest
    match perr with
    | some e => stopStart 0x0106 noInst [if e.1 = 1 then 5 + reason * 2 ^ 16 else 0, e.2, e.1, 0] t
    | none =>
      match recordError body with
      | some off => stopStart 0x0105 noInst [off] t
      | none => checkStart q.1 t

/-- The agreement checks of R663 and what follows from the images. -/
def agree (b : Bool) (reason : Nat) (dramOk : Bool) (s : State) : State :=
  let role := s.dev.role
  if role = .reserved then { s with dev := { s.dev with state := .safe } }
  else if s.dev.part = .h ∧ role ≠ .head then stopStart 0x0101 noInst [] s
  else if !dramOk then enterConfigError s
  else if reason ≠ 0 ∧ reason ≠ 6 then stopStart 0x0104 noInst [] s
  else if imageFormat (regionOf 2 b s) ≠ 1 then stopStart 0x0108 noInst [] s
  else if reason = 6 then stopStart 0x0107 noInst [] s
  else startRecords b s

/-- START_UP (R662 steps 2 to 8): which DRAM channels train, and whether the board temperature sensor answers. Without a
verified boot header and vendor firmware the processor stays in the boot ROM (R732). [DEDUCED, log 92] -/
def execStartUp (dramTrained : List Bool) (refSensor : Bool) (s : State) : Res :=
  .next (if s.dev.state != .starting then s
  else
    let (b, t) := chooseSlot 1 s
    if imageReason 0 t.nvm.header t ≠ 0 ∨ imageReason 1 (regionOf 1 b t) t ≠ 0 then { t with dev := { t.dev with state := .bootRom } }
    else
      let t := modCfg (fun c => { c with images := modAt c.images 1 fun m => { m with slotB := b } }) t
      let r := loadImages dramTrained refSensor t
      agree r.1 r.2.1 ((List.range 8).all fun c => dramTrained.getD c true) r.2.2)

end Sys2Proof.Machine
end

