-- ==== Sys2Proof/Machine/Devicemsgs.lean ====
section
/-! DEFINITION. The device messages: status, restart, settings and profiles (R656 to R659, R671). -/

namespace Sys2Proof.Machine

/-! ### A run-time change of settings (R54, R114, R120, R223) -/

/-- The settings as last written, with the gains that the loops of a running role wrote to the shadow sets (R151, R219). [DEDUCED, log 109] -/
def writtenWords (s : State) : Words :=
  if s.dev.state != .running || s.dev.role == .head then s.cfg.accepted else
  (activeSeams s.cfg.accepted).foldl (fun w n =>
    let l := loopOf n s
    applyWrites [(0x0428 + n, 0, 0xFFFFFFFF, l.gainR % 65536 * 65536 + l.gainGR % 65536),
      (0x0428 + n, 1, 0xFFFFFFFF, l.gainGB % 65536 * 65536 + l.gainB % 65536)] w) s.cfg.accepted

/-- The loops' gains follow a change of RFEn.WB (R219, R223). [DEDUCED, log 109] -/
def followBalance (s : State) : State :=
  let w := s.cfg.accepted
  (activeSeams w).foldl (fun t n => modLoop n (fun l => { l with
    gainR := F.RFE_WB_GAIN_R.get n w, gainGR := F.RFE_WB_GAIN_GR.get n w, gainGB := F.RFE_WB_GAIN_GB.get n w
    gainB := F.RFE_WB_GAIN_B.get n w }) t) s

/-- The block checks on settings `w` put in force (R655). [DEDUCED, log 28] -/
def trialChecks (w : Words) (s : State) : List (Nat × Nat × List Nat) :=
  let t := modCfg (fun c => { c with accepted := w }) s
  let role := s.dev.role
  tapChecks role w s.cfg.tables ++ aditChecks role w ++ laneChecks role w ++ linkChecks role w ++ redChecks role s.otp.serial w ++
    ownChecks role w s.cfg.tables t

/-- Failures that settings `w` bring and the settings in force do not have. [DEDUCED, log 90] -/
def newFailures (f : Words → List (Nat × Nat × List Nat)) (w : Words) (s : State) : List (Nat × Nat × List Nat) :=
  let old := f s.cfg.accepted
  (f w).filter fun e => !old.contains e

/-- The terms and rings that fail under settings `w`, as errors to log (R54, R114); the rings keep the depth they were
allocated with. [DEDUCED, log 28; DEDUCED, log 90] -/
def runFailures (w : Words) (s : State) : List (Nat × Nat × List Nat) :=
  let role := s.dev.role
  ((terms role w).filter Term.fails).map (fun t => (termErr t.id, if t.id = 3 then t.inst else noInst, termDetails t)) ++
    ringFailures role w fun n => (seamOf n s).ringDepth

/-- Whether writes touch the white-balance gains of a seam whose loops own them (R223). [DEDUCED, log 39] -/
def locksBalance (l : List (Nat × Nat × Nat × Nat)) (s : State) : Bool :=
  l.any fun x => decide (0x0428 ≤ x.1 ∧ x.1 < 0x0430 ∧ 0 < x.2.2.1) && wbLocked s.cfg.accepted (x.1 - 0x0428)

/-- A refusal that logs its failures as Notices; the reply names the first. [DEDUCED, log 90] -/
def refuseLogged (cls : Nat) (l : List (Nat × Nat × List Nat)) (s : State) : Answer × State :=
  (.refuse cls ((l.map (·.1)).headD 0) 0, logAll 0 l s)

/-- The checks of a change of settings in the order of R809, R269's before admission; then the change, as one write. [DEDUCED, log 39; DEDUCED, log 90] -/
def changeSettings (l : List (Nat × Nat × Nat × Nat)) (commit : State → State) (s : State) : Answer × State :=
  let w := applyWrites l (writtenWords s)
  let role := s.dev.role
  let busy := lutBusy w s
  let enc := newFailures (codecChecks role) w s
  let adm := runFailures w s
  let other := newFailures (fun v => trialChecks v s) w s
  if !busy.isEmpty then refuseLogged 5 (busy.map fun t => (tapErr t 4, t, [])) s
  else if !enc.isEmpty then refuseLogged 7 enc s
  else if !adm.isEmpty then refuseLogged 6 adm s
  else if locksBalance l s then (.refuse 7 0 0, s)
  else if !other.isEmpty then refuseLogged 7 other s
  else (.accept [], commit (followBalance (modCfg (fun c => { c with accepted := w }) s)))

/-! ### Message 0x0104: settings write (R128, R656) -/

/-- The page of a settings message, its first word, and the words it names. -/
def reqPage (r : Req) : Nat := bits (r.w 1) 31 16
/-- The first word a settings message names. -/
def reqWord (r : Req) : Nat := bits (r.w 1) 15 8

/-- Whether a page has `n` words from the one a message names. -/
def pageHas (n : Nat) (r : Req) : Bool :=
  match pageOf (reqPage r) with
  | some p => decide (reqWord r + n ≤ p.1.words)
  | none => false

/-- The writes of a settings write: page, word, mask, value. -/
def writesOf (r : Req) : List (Nat × Nat × Nat × Nat) :=
  (List.range (bits (r.w 1) 1 0)).map fun i => (reqPage r, reqWord r + i, r.w (2 + 2 * i), r.w (3 + 2 * i))

/-- Whether the page a settings message names has a reserved high byte (R15). [DEDUCED, log 90] -/
def pageReserved (r : Req) : Bool := reqPage r / 256 == 0 || decide (0x18 ≤ reqPage r / 256)

/-- Whether a write is malformed: its mask touches a reserved bit or part of a field, or its field map does not permit a
value. The island's page is written by 0x0F08 alone, so no form of a write to it matters (R556); a KCODE that is refused has
an error of its own (R264). [DEDUCED, log 90] -/
def badWrite (x : Nat × Nat × Nat × Nat) : Bool :=
  x.1 / 256 != 0x0F &&
  (decide (x.2.2.1 &&& maskOf (fieldsAt x.1 x.2.1) ≠ x.2.2.1) ||
    (fieldsAt x.1 x.2.1).any fun f =>
      let m := x.2.2.1 &&& f.1.mask
      m != 0 && (m != f.1.mask || (f.1.err != 0x0701 && !f.1.okValue (fieldBits f.1 x.2.2.2))))

/-- Whether a mask word covers every bit of a write (R656). [DEDUCED, log 90] -/
def covered (permit : Nat) (x : Nat × Nat × Nat × Nat) : Bool :=
  x.1 / 256 != 0x0F && decide (x.2.2.1 &&& permit = x.2.2.1)

/-- The bits of a word that a message may write. [DEDUCED, log 90] -/
def permitOf (tok : Bool) (x : Nat × Nat × Nat × Nat) (c : Cfg) : Nat :=
  let k := wordKey x.1 x.2.1
  (c.permit.lookup k).getD 0 ||| (if tok then (c.permitPriv.lookup k).getD 0 else 0)

/-- The seam that writes would give a frame rate outside R128, if any (R96). [DEDUCED, log 90] -/
def rateBreaks (l : List (Nat × Nat × Nat × Nat)) (s : State) : Option Nat :=
  let w := applyWrites l s.cfg.accepted
  (List.range 8).find? fun n => !fpsOk w n && l.any fun x => x.1 == 0x0301 + 0x10 * n && (x.2.1 == 1 || x.2.1 == 2)

/-- The adit whose KCODE writes would set to 5 to 7, if any (R264, R267). -/
def kcodeBreaks (l : List (Nat × Nat × Nat × Nat)) : Option Nat :=
  (List.range 4).find? fun a => l.any fun x => x.1 == 0x0708 + a && x.2.1 == 0 && (x.2.2.1 &&& F.CMP_KCODE.mask) != 0 &&
    !F.CMP_KCODE.okValue (fieldBits F.CMP_KCODE x.2.2.2)

/-- Whether writes give a codec stream's rate control a value that its field map refuses (R316). -/
def rcBreaks (l : List (Nat × Nat × Nat × Nat)) (s : State) : Bool := l.any fun x => rcBad (applyWrites l s.cfg.accepted) x.1 x.2.1

/-- The class 2 refusal of such writes, with the error it is logged under. -/
def rateRefusal (l : List (Nat × Nat × Nat × Nat)) (s : State) : Option (Nat × Nat) :=
  match rateBreaks l s with
  | some n => some (seamErr n 5, n)
  | none => (kcodeBreaks l).map fun a => (0x0701, a)

/-- Message 0x0104: settings write. [DEDUCED, log 67; DEDUCED, log 90] -/
def settingsWriteMsg : MsgDef :=
  { count := fun n => n == 4 || n == 6 || n == 8, masks := [0xFFFFFF03], priv := .may,
    bad := fun r s => r.words.length != 2 + 2 * bits (r.w 1) 1 0 || !pageHas (bits (r.w 1) 1 0) r || (writesOf r).any badWrite ||
      rcBreaks (writesOf r) s,
    unknown := fun r _ => pageReserved r,
    badLog := fun r s => rateRefusal (writesOf r) s,
    act := fun r tok s =>
      if !(writesOf r).all (fun x => covered (permitOf tok x s.cfg) x) then (.refuse 3 0 0, s)
      else changeSettings (writesOf r) id s }

/-- Message 0x0105: settings read; the island keeps the page that only it writes (R556). [DEDUCED, log 109] -/
def settingsReadMsg : MsgDef :=
  { count := fun n => n == 2, masks := [0xFFFFFF07], always := true, unknown := fun r _ => pageReserved r,
    bad := fun r _ => let n := bits (r.w 1) 2 0
      n == 0 || n == 7 || !pageHas n r,
    act := fun r _ s =>
      let w := if reqPage r = 0x0F00 then s.islNv.cfg else writtenWords s
      (.accept ((List.range (bits (r.w 1) 2 0)).map fun i => wordOf w (reqPage r) (reqWord r + i)), s) }

/-! ### Message 0x0102: profile select (R659) -/

/-- Whether the image holds a profile. -/
def hasProfile (p : Nat) (s : State) : Bool := p == 0 || s.cfg.profiles.any fun x => x.1 == p

/-- Message 0x0102: profile select. [DEDUCED, log 90] -/
def profileSelectMsg : MsgDef :=
  { count := fun n => n == 2, masks := [0xF], priv := .may,
    badLog := fun r s => if hasProfile (r.w 1) s then rateRefusal (profileWrites (r.w 1) s.cfg) s else none,
    deny := fun _ s => cfgN F.DEV1_PROFILE_MSG 0 s == 0,
    act := fun r tok s =>
      let p := r.w 1
      if cfgN F.DEV1_PROFILE_MSG 0 s = 2 ∧ !tok then (refuse4, s)
      else if !hasProfile p s then (.refuse 7 0 0, s)
      else changeSettings (profileWrites p s.cfg) (fun t => { t with dev := { t.dev with profile := p } }) s }

/-! ### Messages 0x0100 and 0x0103 -/

/-- The state code of a device status reply. -/
def deviceCode : DevState → Nat
  | .running => 1
  | .configError => 2
  | .safe => 3
  | _ => 0

/-- The strapped role's code. -/
def strapCode (s : State) : Nat := s.dev.straps % 4

/-- Message 0x0100: device status. -/
def deviceStatusMsg : MsgDef :=
  { always := true,
    act := fun _ _ s =>
      let own := s.cfg.images.getD 2 {}
      (.accept [deviceCode s.dev.state + strapCode s * 2 ^ 4 + b2n (s.dev.part == .h) * 2 ^ 6 + s.dev.profile * 2 ^ 8,
        s.dev.firstFatal, s.dev.roleStartMs, s.dev.firstFrameMs, own.version, own.rollback, (s.cfg.images.getD 1 {}).version], s) }

/-- Whether a sensor of the die reads 125 °C or more (R788). -/
def anyHot (s : State) : Bool := (s.hf.temps.take 15).any fun t => decide (2000 ≤ t.value)

/-- Message 0x0103: restart; while thermally off it is refused until every sensor reads below 125 °C (R788). -/
def restartMsg : MsgDef :=
  { priv := .must, always := true,
    act := fun _ _ s => if s.pwr.thermallyOff && anyHot s then (.refuse 7 0 0, s) else (.accept [], restartDevice s) }

end Sys2Proof.Machine
end

