-- ==== Sys2Proof/Machine/Rolestart.lean ====
section
/-! DEFINITION. Role start: the blocks of the role are powered and started (R19, R644, R662 step 9). -/

namespace Sys2Proof.Machine

/-- Empty rings of the depths the settings give (R154, R188, R303). -/
def ringsAtStart (w : Words) (c : Capture) : Capture :=
  { c with
    stats := (List.range 8).map fun n => { bufs := List.replicate (F.STATS_DEPTH.get n w) {} }
    taps := (List.range 8).map fun t => { bufs := List.replicate (F.TAP_SRC_DEPTH.get t w) {} }
    adits := (List.range 4).map fun a => { bufs := List.replicate (F.ADIT_BUFS.get a w) {} } }

/-- Seams at role start: the settings committed are those accepted (R121), the ring has its depth (R113). [DEDUCED, log 10] -/
def seamsAtStart (role : Role) (w : Words) : List Seam :=
  (List.range 8).map fun n => { committed := w, ringDepth := if seamActive w n then ringDepthOf role w n else 0 }

/-- Ports in use begin bring-up (R67). [DEDUCED, log 10] -/
def portsAtStart (s : State) : List Port :=
  (List.range 4).map fun p =>
    if blkOn .sensor s && cfgB F.SP_PORT_ENABLE p s then { (portOf p s) with phase := .bringUp } else portOf p s

/-- Codec streams: output rings of the decoders (R303), VUI values of the encoders (R284). [DEDUCED, log 10] -/
def codecAtStart (s : State) : Codec :=
  let w := s.cfg.accepted
  { enc := (List.range 8).map fun m => { vui := vuiOf m s }
    dec := (List.range 8).map fun m => { bound := w, out := { bufs := List.replicate (F.CODEC_STRM_DEPTH.get m w) {} } } }

/-- What a viewfinder port sends its panel at role start (R590): the INIT payload, set_pixel_format, set_tear_on with mode
0, set_display_on. [DESIGN CHOICE, log 74] -/
def panelInit (k : Nat) (s : State) : List (List Byte) :=
  let i := cfgN F.VF_PANEL_INIT k s
  (if i = 0 then [] else [payload s.cfg.tables i]) ++
    [[0x3A, if cfgB F.VF_PANEL_PIXFMT k s then Config.pixelFormat30 else 0x77], [0x35, 0], [0x29]]

/-- The viewfinder ports at role start: panel initialised, every tile dirty. [DEDUCED, log 10; DESIGN CHOICE, log 74] -/
def viewsAtStart (s : State) : State :=
  (List.range 2).foldl (fun t k =>
    if vfOn k t then dirtyAll k (modVf k (fun v => { v with bound := t.cfg.accepted, init := panelInit k t, lastBuf := t.dev.elapsed }) t)
    else t) s

/-- Audio ports with RUN set start (R614). [DEDUCED, log 10] -/
def audioAtStart (s : State) : State :=
  (List.range 8).foldl (fun t p => if audOn p t && cfgB F.AUD_RUN p t then startAudio false p t else t) s


/-- The redundancy state at role start: state 1 of R558 with redundancy enabled. -/
def redAtStart (s : State) : Redundancy := if redOn s then { state := 1 } else {}

/-- Fixed allocations (R644). -/
def allocAtStart (s : State) : List (Nat × Nat × Nat) :=
  placeAll 0 (allocSizes s.dev.role s.cfg.accepted ++ ringSizes s.dev.role s.cfg.accepted)

/-- The blocks that hold state of their own, as role start finds them. [DEDUCED, log 10] -/
def resetBlocks (s : State) : State :=
  { s with
    cap := { ringsAtStart s.cfg.accepted s.cap with
      ports := portsAtStart s, seams := seamsAtStart s.dev.role s.cfg.accepted, pipe := none, rfe := List.replicate 8 {}
      loops := List.replicate 8 {}, luts := List.replicate 112 .empty, lutLoads := [] }
    lanes := lanesAtStart s, plls := List.replicate 20 false, links := List.replicate 9 {}
    red := redAtStart s, comp := {}, codec := codecAtStart s, rcd := { ssds := s.rcd.ssds }
    out := {}, time := timeAtRoleStart s
    dram := { s.dram with alloc := allocAtStart s } }

/-- The exposure loops of the active seams start, but for a head, whose loops run in its body (R20, R212). -/
def loopsAtStart (s : State) : State :=
  if s.dev.role == .head then s else (activeSeams s.cfg.accepted).foldl (fun t n => startLoop n t) s

/-- Voltages are tracked, and the thermal alarm counted, since role start (R806). -/
def readingsAtStart (s : State) : State :=
  { s with hf := { s.hf with rails := s.hf.rails.map fun r => { r with low := r.now, high := r.now } }
           pwr := { s.pwr with alarms := 0, alarmMs := 0 } }

/-- Every nonce is stale at role start (R691). -/
def staleNonces (s : State) : State := { s with mbx := { s.mbx with nonces := [] } }

/-- Role start from the ready state. [DEDUCED, log 10] -/
def roleStart (s : State) : State :=
  let s := { s with dev := { s.dev with state := .running, powered := true, troubled := false, roleStartMs := msSinceStart s } }
  let s := staleNonces (readingsAtStart (resetBlocks s))
  let s := islandStart (islandImage s) (assaySupply s) s
  audioAtStart (viewsAtStart (loopsAtStart (mountVolume s)))

/-- ROLE_START (R19, R662 step 9): the step that follows a START_UP that passed. -/
def execRoleStart (s : State) : Res := .next (if s.dev.state == .ready then roleStart s else s)

end Sys2Proof.Machine
end

