-- ==== Sys2Proof/Machine/Power.lean ====
section
/-! DEFINITION. Power status, the suspended state, and the passing of time, which carries its entry on (chapter 24). -/

namespace Sys2Proof.Machine

/-! ### Message 0x1700 (R806) -/

/-- The state code of a power status reply. [DEDUCED, log 84] -/
def powerCode (s : State) : Nat := if s.pwr.thermallyOff then 2 else if s.pwr.suspended then 1 else 0

/-- Message 0x1700: power status. [DEDUCED, log 99] -/
def powerStatusMsg : MsgDef :=
  { count := fun n => n == 2, masks := [0xF], bad := fun r _ => decide (14 ≤ r.w 1),
    act := fun r _ s =>
      let v := s.hf.rails.getD (r.w 1) {}
      let ma := match r.w 1, s.pwr.currentMa with
        | 0, some m => m
        | _, _ => 0xFFFFFFFF
      (.accept [powerCode s + b2n s.pwr.alarm * 2 ^ 2 + toField 16 (hottest s) * 2 ^ 16, v.now, v.low, v.high, ma,
        s.pwr.alarmMs / 1000, s.pwr.alarms], s) }

/-! ### Entry into the suspended state (R784) -/

/-- Entry begins: outputs and audio ports stop (R784 step 3). [DEDUCED, log 98] -/
def beginSuspend (s : State) : State :=
  let t := modPwr (fun p => { p with entering := true, unmounting := false }) s
  let t := (List.range 8).foldl (fun u p => if audOn p u then runAudio false p u else u) t
  modOuts (fun o => { o with sdi := o.sdi.map quietOutput, snd := o.snd.map quietOutput }) t

/-- Whether 0x1701 with STATE 1 is refused (R784, R806). [DEDUCED, log 98] -/
def suspendRefused (s : State) : Bool :=
  !cfgB F.PWR_SUSPEND_EN 0 s || s.rcd.clip.isSome || cfgB F.RED_ENABLE 0 s || s.dev.role == .head || s.pwr.suspended

/-- Whether admitted frames have been released, and the audio has ended (R784 steps 2 and 3); a picture whose rows have been
dealt is coded to its end first (R298, R300), and the jobs posted run to theirs. [DEDUCED, log 98] -/
def quiesced (s : State) : Bool :=
  (s.cap.seams.all fun x => x.frames.isEmpty) && s.cap.pipe.isNone && (s.out.audio.all fun a => a.state == 0) &&
    (s.codec.enc.all fun x => x.pic.isNone) && s.comp.queue.isEmpty

/-- A ring whose writer and consumers have lost their power. -/
def letGo (r : OutRing) : OutRing := { r with writing := none, bufs := r.bufs.map fun b => { b with holders := [] } }

/-- An encoder whose power goes: the picture in hand is not coded. -/
def haltEnc (x : EncStream) : EncStream :=
  { x with input := none, pic := none, notCoded := (x.notCoded + b2n x.input.isSome + b2n x.pic.isSome) % 2 ^ 32 }

/-- A decoder whose power goes: the access unit in hand and the pictures not yet output are lost, and decoding begins again at
an IRAP picture. -/
def haltDec (x : DecStream) : DecStream :=
  { x with au := none, building := [], dpb := [], begun := false, out := letGo x.out,
           lost := (x.lost + b2n x.au.isSome + x.building.length + (x.dpb.filter fun p => p.needed).length) % 2 ^ 32 }

/-- The blocks that R785 does not keep: rings are let go, jobs and pictures in hand dropped. [DEDUCED, log 98] -/
def haltBlocks (s : State) : State :=
  { s with
    cap := { s.cap with
      ports := s.cap.ports.map fun x => { x with phase := .off, clock := false, fv := false, lv := false, skip := true, trigLevel := false
                                                 suppressed := true, awaiting := none, windowOpen := false, running := none, fifo := [] }
      stats := s.cap.stats.map fun r => { r with writing := none, bufs := r.bufs.map fun b => { b with holders := [] } }
      taps := s.cap.taps.map letGo, adits := s.cap.adits.map letGo
      lutLoads := [], luts := s.cap.luts.map fun u => if u == .loading then .empty else u }
    codec := { s.codec with enc := s.codec.enc.map haltEnc, dec := s.codec.dec.map haltDec, encFifo := [], decFifo := []
                            encRow := none, decRow := none }
    comp := { s.comp with queue := [], waiting := [], engines := s.comp.engines.map fun e => { e with blk := none } }
    rcd := { s.rcd with plays := s.rcd.plays.map fun x => if x.state = 1 then { x with state := 3 } else x }
    out := { s.out with views := s.out.views.map fun v => { v with held := none, order := 0 } } }

/-- The lanes that stay powered while suspended keep their state; the others are off (R785). [DEDUCED, log 98] -/
def keepLanes (s : State) : State :=
  let t := (List.range 9).foldl (fun u g => clearFlight 0 g u) s
  { t with
    lanes := t.lanes.zipIdx.map fun l => if laneOn l.2 t then l.1 else {}
    plls := t.plls.zipIdx.map fun p => p.1 && ((pllLanes (p.2 / 2) (p.2 % 2 == 1)).any fun n => laneOn n t) }

/-- The volume is unmounted (R784 step 4). -/
def unmount (s : State) : State :=
  noticeNs (modRec (fun r => { r with volume := 0, members := [], map := [], dir := [], phase := .idle }) s)

/-- The suspended state is entered (R784 step 5): DRAM in self-refresh, every block off but those of R785, and the control
cores asleep (R683). [DEDUCED, log 98] -/
def completeSuspend (s : State) : State :=
  let t := enterSelfRefresh (haltBlocks (unmount s))
  let t := modPwr (fun p => { p with entering := false, unmounting := false, suspended := true }) t
  keepLanes (modMbx (fun m => { m with asleep := [1, 2, 3, 4] }) t)

/-- Whether the volume takes a durability point before it is unmounted. -/
def pointFirst (s : State) : Bool := recOn s && s.rcd.volume == 2 && membersOk s

/-- Entry goes on as far as it can (R784). [DEDUCED, log 98] -/
def settle (s : State) : State :=
  if !s.pwr.entering || !quiesced s then s
  else if !s.pwr.unmounting && pointFirst s then beginPoint (modPwr (fun p => { p with unmounting := true }) s)
  else if s.rcd.phase == .idle then completeSuspend s
  else s

/-- TOD_TICK (R488, R784): ticks of TIME_CLK pass, and an entry into the suspended state goes on. [DESIGN CHOICE, log 1; DEDUCED, log 98] -/
def execTodTick (n : Nat) (s : State) : Res := .next (settle (passTicks n s))

/-! ### Resume (R786) -/

/-- A port that comes up again keeps its counters. -/
def resumePorts (s : State) : State :=
  let on := blkOn .sensor s
  modCap (fun c => { c with
    ports := c.ports.zipIdx.map fun x =>
      if on && cfgB F.SP_PORT_ENABLE x.2 s then { x.1 with phase := .bringUp } else x.1 }) s

/-- The lanes of the domains powered again begin bring-up (R404). -/
def resumeLanes (s : State) : State :=
  { s with lanes := s.lanes.zipIdx.map fun l => if l.1.state = 0 then (lanesAtStart s).getD l.2 {} else l.1 }

/-- Each exposure loop queues its current settings at its first window; schedules restart at their next point. -/
def resumeLoops (s : State) : State :=
  let t := modCap (fun c => { c with
    loops := c.loops.map fun l => { l with due := l.due || l.begun }
    seams := c.seams.map fun x => { x with seen := false } }) s
  modTime (fun x => { x with exp := x.exp.map fun e => { e with armed := false, last := none } })
    (modCap (fun c => { c with ports := c.ports.map fun p => { p with trigLast := none } }) t)

/-- The suspended state ends. [DESIGN CHOICE, log 74; DEDUCED, log 98] -/
def resume (s : State) : State :=
  let t := leaveSelfRefresh s
  let t := modPwr (fun p => { p with suspended := false }) t
  let t := noticeNs (mountVolume (modMbx (fun m => { m with asleep := [] }) t))
  audioAtStart (viewsAtStart (resumeLoops (resumeLanes (resumePorts t))))

/-- Message 0x1701: power state. -/
def powerStateMsg : MsgDef :=
  { count := fun n => n == 2, masks := [1],
    act := fun r _ s =>
      if r.w 1 = 1 then
        if suspendRefused s then (.refuse 7 0 0, s) else (.accept [], beginSuspend s)
      else if s.pwr.suspended then (.accept [], resume s)
      else (.refuse 7 0 0, s) }

/-! ### PCIe links (R400) -/

/-- The lanes of a PCIe port: 4 is EP0. [DEDUCED, log 100] -/
def pcieLanes (k : Nat) (w : Words) : List Nat :=
  match (List.range 10).find? fun q => laneProto w (4 * q) == 3 && F.LANE_PORT.get (4 * q) w == k with
  | some q => (List.range 4).map (4 * q + ·)
  | none => []

/-- The lanes of a port whose link has trained are up; a link narrower than four lanes logs it. [DEDUCED, log 100] -/
def linkTrained (k width : Nat) (s : State) : State :=
  let l := pcieLanes k s.cfg.accepted
  let t := l.foldl (fun u n => if laneOn n u then modLane n (fun x => { x with state := 2 }) u else u) s
  match l with
  | n :: _ => if width < 4 && laneOn n t then laneErr 1 n 0x0A width t else t
  | [] => t

/-- PCIE_LINK_UP (R400, R666): the link of EP0 or of a root port trains. [DEDUCED, log 100] -/
def execPcieLinkUp (port : Option Nat) (width : Nat) (s : State) : Res :=
  .next (match port with
    | some k => if k < 4 then linkTrained k width s else s
    | none =>
      if epOn s || (s.dev.state == .configError && s.cfg.epEnabledImage && !s.pwr.thermallyOff) then
        linkTrained 4 width (modEp (fun e => { e with linkUp := true, width := width }) s)
      else s)

end Sys2Proof.Machine
end

