-- ==== Sys2Proof/Machine/Messages.lean ====
section
/-! DEFINITION. The index of messages (R696) and the meaning of every row that runs a mailbox message. -/

namespace Sys2Proof.Machine

/-- The message of instance `k` of a family of `n`. -/
def fam (n k : Nat) (f : Nat → MsgDef) : Option MsgDef := if k < n then some (f k) else none

/-- The device messages, by code. -/
def msgs01 (c : Nat) : Option MsgDef :=
  if c = 0x0100 then some deviceStatusMsg
  else if c = 0x0102 then some profileSelectMsg
  else if c = 0x0103 then some restartMsg
  else if c = 0x0104 then some settingsWriteMsg
  else if c = 0x0105 then some settingsReadMsg
  else if c = 0x0110 then some admissionReportMsg
  else none

/-- The sensor port messages, by code. -/
def msgs02 (c : Nat) : Option MsgDef :=
  if c % 16 = 0 then fam 4 ((c - 0x0200) / 16) portStatusMsg
  else if c % 16 = 1 then fam 4 ((c - 0x0200) / 16) retrainMsg
  else if c % 16 = 2 then fam 4 ((c - 0x0200) / 16) sensorWriteMsg
  else none

/-- The seam messages, by code. -/
def msgs03 (c : Nat) : Option MsgDef :=
  if c % 16 = 0 then fam 8 ((c - 0x0300) / 16) seamStatusMsg
  else none

/-- The front end and adit messages, by code. -/
def msgs04 (c : Nat) : Option MsgDef :=
  if 0x0400 ≤ c ∧ c < 0x0408 then some (frontEndStatusMsg (c - 0x0400))
  else if 0x0430 ≤ c ∧ c < 0x0434 then some (aditStatusMsg (c - 0x0430))
  else if 0x0434 ≤ c ∧ c < 0x0438 then some (aditReadMsg (c - 0x0434))
  else none

/-- The tap messages, by code. -/
def msgs05 (c : Nat) : Option MsgDef :=
  if c % 16 = 0 then fam 8 ((c - 0x0500) / 16) tapStatusMsg
  else if c % 16 = 1 then fam 8 ((c - 0x0500) / 16) lutLoadMsg
  else none

/-- The statistics and loop messages, by code. -/
def msgs06 (c : Nat) : Option MsgDef :=
  if 0x0600 ≤ c ∧ c < 0x0608 then some (statisticsFetchMsg (c - 0x0600))
  else if 0x0610 ≤ c ∧ c < 0x0618 then some (loopStatusMsg (c - 0x0610))
  else if c = 0x0628 then some lockBroadcastMsg
  else none

/-- The compressor messages, by code. -/
def msgs07 (c : Nat) : Option MsgDef :=
  if c = 0x0700 then some compressorStatusMsg
  else if 0x0708 ≤ c ∧ c < 0x070C then some (aditCompressionMsg (c - 0x0708))
  else none

/-- The codec messages, by code. -/
def msgs08 (c : Nat) : Option MsgDef :=
  if 0x0800 ≤ c ∧ c < 0x0808 then some (streamStatusMsg (c - 0x0800))
  else if 0x0808 ≤ c ∧ c < 0x0810 then some (bitstreamReadMsg (c - 0x0808))
  else if 0x0810 ≤ c ∧ c < 0x0818 then some (bitstreamWriteMsg (c - 0x0810))
  else if 0x0818 ≤ c ∧ c < 0x0820 then some (forceIdrMsg (c - 0x0818))
  else if 0x0820 ≤ c ∧ c < 0x0828 then some (decoderFlushMsg (c - 0x0820))
  else none

/-- The recorder messages, by code. -/
def msgs09 (c : Nat) : Option MsgDef :=
  if c = 0x0900 then some recorderStatusMsg
  else if c = 0x0901 then some recordStartMsg
  else if c = 0x0902 then some recordStopMsg
  else if c = 0x0903 then some clipQueryMsg
  else if c = 0x0904 then some formatVolumeMsg
  else if c = 0x0905 then some deleteClipMsg
  else if c = 0x0906 then some playbackStartMsg
  else if c = 0x0907 then some playbackStopMsg
  else if c = 0x0908 then some playbackStatusMsg
  else none

/-- The endpoint messages, by code. -/
def msgs0A (c : Nat) : Option MsgDef :=
  if c = 0x0A00 then some endpointStatusMsg
  else none

/-- The lane messages, by code. -/
def msgs0B (c : Nat) : Option MsgDef :=
  if 0x0B00 ≤ c ∧ c < 0x0B28 then some (laneMsg (c - 0x0B00))
  else none

/-- The link messages, by code. -/
def msgs0C (c : Nat) : Option MsgDef :=
  if c % 16 = 0 then fam 9 ((c - 0x0C00) / 16) linkStatusMsg
  else if c % 16 = 1 then fam 9 ((c - 0x0C00) / 16) linkRetrainMsg
  else none

/-- The output messages, by code. -/
def msgs0D (c : Nat) : Option MsgDef :=
  if 0x0D00 ≤ c ∧ c < 0x0D04 then some (sdiStatusMsg (c - 0x0D00))
  else if 0x0D08 ≤ c ∧ c < 0x0D0C then some (macStatusMsg (c - 0x0D08))
  else if 0x0D10 ≤ c ∧ c < 0x0D20 then some (senderStatusMsg (c - 0x0D10))
  else none

/-- The time messages, by code. -/
def msgs0E (c : Nat) : Option MsgDef :=
  if c = 0x0E00 then some timeStatusMsg
  else if 0x0E08 ≤ c ∧ c < 0x0E0C then some (ptpPortStatusMsg (c - 0x0E08))
  else if c = 0x0E10 then some arrayLockMsg
  else if c = 0x0E11 then some arrayUnlockMsg
  else if c = 0x0E20 then some scheduleMsg
  else if c = 0x0E21 then some cancelMsg
  else none

/-- The island messages, by code. -/
def msgs0F (c : Nat) : Option MsgDef :=
  if c = 0x0F00 then some islandStatusMsg
  else if c = 0x0F01 then some recordReadMsg
  else if c = 0x0F02 then some islandCertMsg
  else if c = 0x0F03 then some verifyCalMsg
  else if c = 0x0F04 then some signNowMsg
  else if c = 0x0F08 then some islandSettingsMsg
  else none

/-- The redundancy messages, by code. -/
def msgs10 (c : Nat) : Option MsgDef :=
  if c = 0x1000 then some redundancyStatusMsg
  else if c = 0x1002 then some plannedSwitchOverMsg
  else if c = 0x1004 then some headPrimaryStatusMsg
  else if c = 0x1008 then some claimVerdictMsg
  else none

/-- The viewfinder messages, by code. -/
def msgs11 (c : Nat) : Option MsgDef :=
  if 0x1100 ≤ c ∧ c < 0x1102 then some (viewfinderStatusMsg (c - 0x1100))
  else if 0x1108 ≤ c ∧ c < 0x110A then some (overlayWriteMsg (c - 0x1108))
  else if 0x1110 ≤ c ∧ c < 0x1112 then some (refreshMsg (c - 0x1110))
  else none

/-- The audio messages, by code. -/
def msgs12 (c : Nat) : Option MsgDef :=
  if 0x1200 ≤ c ∧ c < 0x1208 then some (audioStatusMsg (c - 0x1200))
  else if 0x1208 ≤ c ∧ c < 0x1210 then some (startStopMsg (c - 0x1208))
  else if 0x1210 ≤ c ∧ c < 0x1218 then some (blockWriteMsg (c - 0x1210))
  else none

/-- The DRAM messages, by code. -/
def msgs13 (c : Nat) : Option MsgDef :=
  if 0x1300 ≤ c ∧ c < 0x1308 then some (channelStatusMsg (c - 0x1300))
  else none

/-- The mailbox messages, by code. -/
def msgs14 (c : Nat) : Option MsgDef :=
  if c = 0x1400 then some mailboxStatusMsg
  else if c = 0x1401 then some nonceMsg
  else if c = 0x1402 then some bulkWindowMsg
  else none

/-- The Headframe messages, by code. -/
def msgs15 (c : Nat) : Option MsgDef :=
  if c = 0x1500 then some eventLogReadMsg
  else if c = 0x1501 then some errorQueueStatusMsg
  else if c = 0x1510 then some surveyRunMsg
  else if c = 0x1511 then some restoreFactoryMsg
  else if c = 0x1512 then some surveyStatusMsg
  else if c = 0x1520 then some updateBeginMsg
  else if c = 0x1521 then some updateDataMsg
  else if c = 0x1522 then some updateCommitMsg
  else if c = 0x1523 then some updateStatusMsg
  else if c = 0x1524 then some updateAbortMsg
  else none

/-- The security messages, by code. -/
def msgs16 (c : Nat) : Option MsgDef :=
  if c = 0x1600 then some attestationMsg
  else if c = 0x1601 then some certificateMsg
  else if c = 0x1602 then some keyInstallMsg
  else if c = 0x1603 then some keyRevokeMsg
  else if c = 0x1604 then some debugUnlockMsg
  else none

/-- The power messages, by code. -/
def msgs17 (c : Nat) : Option MsgDef :=
  if c = 0x1700 then some powerStatusMsg
  else if c = 0x1701 then some powerStateMsg
  else none

/-- The message of a code (R696); 0x1410 is no message of its own (R692). -/
def msgDef (c : Nat) : Option MsgDef :=
  match c / 256 with
  | 0x01 => msgs01 c
  | 0x02 => msgs02 c
  | 0x03 => msgs03 c
  | 0x04 => msgs04 c
  | 0x05 => msgs05 c
  | 0x06 => msgs06 c
  | 0x07 => msgs07 c
  | 0x08 => msgs08 c
  | 0x09 => msgs09 c
  | 0x0A => msgs0A c
  | 0x0B => msgs0B c
  | 0x0C => msgs0C c
  | 0x0D => msgs0D c
  | 0x0E => msgs0E c
  | 0x0F => msgs0F c
  | 0x10 => msgs10 c
  | 0x11 => msgs11 c
  | 0x12 => msgs12 c
  | 0x13 => msgs13 c
  | 0x14 => msgs14 c
  | 0x15 => msgs15 c
  | 0x16 => msgs16 c
  | 0x17 => msgs17 c
  | _ => none

/-- A row runs the oldest message of channel `c` when it is the row's. -/
def runRow (mine : Req → Bool) (c : Nat) (s : State) : Res := .next (runHead msgDef mine c s)

/-- Whether a request has a code. -/
def isCode (k : Nat) (r : Req) : Bool := r.code == k

/-- Whether a request has a code of a family: a base, a step and a count. [DEDUCED, log 99] -/
def inFamily (base step n : Nat) (r : Req) : Bool :=
  decide (base ≤ r.code ∧ r.code < base + step * n) && (r.code - base) % step == 0

/-- The operation of a lane message (R423). [DEDUCED, log 84] -/
def laneOp (r : Req) : Nat := bits (r.w 1) 3 0

/-- Whether a request is a lane message. -/
def isLane (r : Req) : Bool := inFamily 0x0B00 1 40 r

/-- TOKEN_PART (R692): message 0x1410 adds a part to its path's open sequence; part 5 completes it. [DEDUCED, log 83] -/
def execTokenPart (c : Nat) (s : State) : Res :=
  let t := screen msgDef c 8 s
  .next (match headMsg c t with
    | some r => if serves c t && r.code == 0x1410 then screen msgDef c 8 (takePart msgDef r (popMsg c t)) else t
    | none => t)

/-- The code of the request that the part at the front of channel `c` belongs to, when such a part is there (R692). [DEDUCED, log 83] -/
def heldCode (c : Nat) (s : State) : Option Nat :=
  match headMsg c s with
  | some r => if r.code == 0x1410 then (openSeq c r.path (popMsg c s)).map fun q => hdrCode (q.req.headD 0).toNat else none
  | none => none

/-- A row whose message may open a token sequence: its command takes the message and the parts of the sequence that holds it,
the last of which runs it (R692 to R695). [DEDUCED, log 83] -/
def runPriv (k c : Nat) (s : State) : Res :=
  if heldCode c (screen msgDef c 8 s) = some k then execTokenPart c s else runRow (isCode k) c s

/-- DEVICE_STATUS (R671). -/
def execDeviceStatus (c : Nat) (s : State) : Res := runRow (isCode 0x0100) c s

/-- PROFILE_SELECT (R659). -/
def execProfileSelect (c : Nat) (s : State) : Res := runPriv 0x0102 c s

/-- RESTART (R671). -/
def execRestart (c : Nat) (s : State) : Res := runPriv 0x0103 c s

/-- SETTINGS_WRITE (R656). -/
def execSettingsWrite (c : Nat) (s : State) : Res := runPriv 0x0104 c s

/-- SETTINGS_READ (R671). -/
def execSettingsRead (c : Nat) (s : State) : Res := runRow (isCode 0x0105) c s

/-- ADMISSION_REPORT (R55). -/
def execAdmissionReport (c : Nat) (s : State) : Res := runRow (isCode 0x0110) c s

/-- PORT_STATUS (R90). -/
def execPortStatus (c : Nat) (s : State) : Res := runRow (inFamily 0x0200 16 4) c s

/-- RETRAIN (R71). -/
def execRetrain (c : Nat) (s : State) : Res := runRow (inFamily 0x0201 16 4) c s

/-- SENSOR_WRITE (R90). -/
def execSensorWrite (c : Nat) (s : State) : Res := runRow (inFamily 0x0202 16 4) c s

/-- SEAM_STATUS (R126). -/
def execSeamStatus (c : Nat) (s : State) : Res := runRow (inFamily 0x0300 16 8) c s

/-- FRONT_END_STATUS (R159). -/
def execFrontEndStatus (c : Nat) (s : State) : Res := runRow (inFamily 0x0400 1 8) c s

/-- STATISTICS_FETCH (R159). -/
def execStatisticsFetch (c : Nat) (s : State) : Res := runRow (inFamily 0x0600 1 8) c s

/-- TAP_STATUS (R198). -/
def execTapStatus (c : Nat) (s : State) : Res := runRow (inFamily 0x0500 16 8) c s

/-- LUT_LOAD (R198). -/
def execLutLoad (c : Nat) (s : State) : Res := runRow (inFamily 0x0501 16 8) c s

/-- ADIT_STATUS (R198). -/
def execAditStatus (c : Nat) (s : State) : Res := runRow (inFamily 0x0430 1 4) c s

/-- ADIT_READ (R196). -/
def execAditRead (c : Nat) (s : State) : Res := runRow (inFamily 0x0434 1 4) c s

/-- LOOP_STATUS (R226). -/
def execLoopStatus (c : Nat) (s : State) : Res := runRow (inFamily 0x0610 1 8) c s

/-- LOCK_BROADCAST (R221). -/
def execLockBroadcast (c : Nat) (s : State) : Res := runRow (isCode 0x0628) c s

/-- COMPRESSOR_STATUS (R265). -/
def execCompressorStatus (c : Nat) (s : State) : Res := runRow (isCode 0x0700) c s

/-- ADIT_COMPRESSION_STATUS (R265). -/
def execAditCompressionStatus (c : Nat) (s : State) : Res := runRow (inFamily 0x0708 1 4) c s

/-- STREAM_STATUS (R313). -/
def execStreamStatus (c : Nat) (s : State) : Res := runRow (inFamily 0x0800 1 8) c s

/-- BITSTREAM_READ (R313). -/
def execBitstreamRead (c : Nat) (s : State) : Res := runRow (inFamily 0x0808 1 8) c s

/-- BITSTREAM_WRITE (R313). -/
def execBitstreamWrite (c : Nat) (s : State) : Res := runRow (inFamily 0x0810 1 8) c s

/-- FORCE_IDR (R285). -/
def execForceIdr (c : Nat) (s : State) : Res := runRow (inFamily 0x0818 1 8) c s

/-- DECODER_FLUSH (R313). -/
def execDecoderFlush (c : Nat) (s : State) : Res := runRow (inFamily 0x0820 1 8) c s

/-- RECORDER_STATUS (R359). -/
def execRecorderStatus (c : Nat) (s : State) : Res := runRow (isCode 0x0900) c s

/-- RECORD_START (R321). -/
def execRecordStart (c : Nat) (s : State) : Res := runRow (isCode 0x0901) c s

/-- RECORD_STOP (R321). -/
def execRecordStop (c : Nat) (s : State) : Res := runRow (isCode 0x0902) c s

/-- CLIP_QUERY (R359). -/
def execClipQuery (c : Nat) (s : State) : Res := runRow (isCode 0x0903) c s

/-- FORMAT_VOLUME (R359). -/
def execFormatVolume (c : Nat) (s : State) : Res := runPriv 0x0904 c s

/-- DELETE_CLIP (R359). -/
def execDeleteClip (c : Nat) (s : State) : Res := runPriv 0x0905 c s

/-- PLAYBACK_START (R356). -/
def execPlaybackStart (c : Nat) (s : State) : Res := runRow (isCode 0x0906) c s

/-- PLAYBACK_STOP (R356). -/
def execPlaybackStop (c : Nat) (s : State) : Res := runRow (isCode 0x0907) c s

/-- PLAYBACK_STATUS (R359). -/
def execPlaybackStatus (c : Nat) (s : State) : Res := runRow (isCode 0x0908) c s

/-- ENDPOINT_STATUS (R388). -/
def execEndpointStatus (c : Nat) (s : State) : Res := runRow (isCode 0x0A00) c s

/-- LINK_STATUS (R463). -/
def execLinkStatus (c : Nat) (s : State) : Res := runRow (inFamily 0x0C00 16 9) c s

/-- LINK_RETRAIN (R463). -/
def execLinkRetrain (c : Nat) (s : State) : Res := runRow (inFamily 0x0C01 16 9) c s

/-- SDI_STATUS (R484). -/
def execSdiStatus (c : Nat) (s : State) : Res := runRow (inFamily 0x0D00 1 4) c s

/-- MAC_STATUS (R484). -/
def execMacStatus (c : Nat) (s : State) : Res := runRow (inFamily 0x0D08 1 4) c s

/-- SENDER_STATUS (R484). -/
def execSenderStatus (c : Nat) (s : State) : Res := runRow (inFamily 0x0D10 1 16) c s

/-- TIME_STATUS (R519). -/
def execTimeStatus (c : Nat) (s : State) : Res := runRow (isCode 0x0E00) c s

/-- PTP_PORT_STATUS (R519). -/
def execPtpPortStatus (c : Nat) (s : State) : Res := runRow (inFamily 0x0E08 1 4) c s

/-- ARRAY_LOCK (R511). -/
def execArrayLock (c : Nat) (s : State) : Res := runPriv 0x0E10 c s

/-- ARRAY_UNLOCK (R511). -/
def execArrayUnlock (c : Nat) (s : State) : Res := runPriv 0x0E11 c s

/-- SCHEDULE (R512). -/
def execSchedule (c : Nat) (s : State) : Res := runRow (isCode 0x0E20) c s

/-- CANCEL (R514). -/
def execCancel (c : Nat) (s : State) : Res := runRow (isCode 0x0E21) c s

/-- ISLAND_STATUS (R555). -/
def execIslandStatus (c : Nat) (s : State) : Res := runRow (isCode 0x0F00) c s

/-- RECORD_READ (R555). -/
def execRecordRead (c : Nat) (s : State) : Res := runRow (isCode 0x0F01) c s

/-- ISLAND_CERTIFICATE_READ (R555). -/
def execIslandCertificateRead (c : Nat) (s : State) : Res := runRow (isCode 0x0F02) c s

/-- VERIFY_CALIBRATION (R540). -/
def execVerifyCalibration (c : Nat) (s : State) : Res := runRow (isCode 0x0F03) c s

/-- SIGN_NOW (R549). -/
def execSignNow (c : Nat) (s : State) : Res := runRow (isCode 0x0F04) c s

/-- ISLAND_SETTINGS (R550). -/
def execIslandSettings (c : Nat) (s : State) : Res := runPriv 0x0F08 c s

/-- REDUNDANCY_STATUS (R586). -/
def execRedundancyStatus (c : Nat) (s : State) : Res := runRow (isCode 0x1000) c s

/-- PLANNED_SWITCH_OVER (R583). -/
def execPlannedSwitchOver (c : Nat) (s : State) : Res := runPriv 0x1002 c s

/-- HEAD_PRIMARY_STATUS (R586). -/
def execHeadPrimaryStatus (c : Nat) (s : State) : Res := runRow (isCode 0x1004) c s

/-- CLAIM_VERDICT (R576). -/
def execClaimVerdict (c : Nat) (s : State) : Res := runRow (isCode 0x1008) c s

/-- VIEWFINDER_STATUS (R620). -/
def execViewfinderStatus (c : Nat) (s : State) : Res := runRow (inFamily 0x1100 1 2) c s

/-- OVERLAY_WRITE (R620). -/
def execOverlayWrite (c : Nat) (s : State) : Res := runRow (inFamily 0x1108 1 2) c s

/-- REFRESH (R595). -/
def execRefresh (c : Nat) (s : State) : Res := runRow (inFamily 0x1110 1 2) c s

/-- AUDIO_STATUS (R620). -/
def execAudioStatus (c : Nat) (s : State) : Res := runRow (inFamily 0x1200 1 8) c s

/-- START_AND_STOP (R614). -/
def execStartAndStop (c : Nat) (s : State) : Res := runRow (inFamily 0x1208 1 8) c s

/-- BLOCK_WRITE (R611). -/
def execBlockWrite (c : Nat) (s : State) : Res := runRow (inFamily 0x1210 1 8) c s

/-- CHANNEL_STATUS (R646). -/
def execChannelStatus (c : Nat) (s : State) : Res := runRow (inFamily 0x1300 1 8) c s

/-- MAILBOX_STATUS (R697). -/
def execMailboxStatus (c : Nat) (s : State) : Res := runRow (isCode 0x1400) c s

/-- NONCE (R691). -/
def execNonce (c : Nat) (s : State) : Res := runRow (isCode 0x1401) c s

/-- EVENT_LOG_READ (R698). -/
def execEventLogRead (c : Nat) (s : State) : Res := runRow (isCode 0x1500) c s

/-- ERROR_QUEUE_STATUS (R698). -/
def execErrorQueueStatus (c : Nat) (s : State) : Res := runRow (isCode 0x1501) c s

/-- SURVEY_RUN (R719). -/
def execSurveyRun (c : Nat) (s : State) : Res := runRow (isCode 0x1510) c s

/-- RESTORE_FACTORY (R726). -/
def execRestoreFactory (c : Nat) (s : State) : Res := runPriv 0x1511 c s

/-- SURVEY_STATUS (R698). -/
def execSurveyStatus (c : Nat) (s : State) : Res := runRow (isCode 0x1512) c s

/-- UPDATE_BEGIN (R698). -/
def execUpdateBegin (c : Nat) (s : State) : Res := runPriv 0x1520 c s

/-- UPDATE_DATA (R698). -/
def execUpdateData (c : Nat) (s : State) : Res := runRow (isCode 0x1521) c s

/-- UPDATE_COMMIT (R712). -/
def execUpdateCommit (c : Nat) (s : State) : Res := runRow (isCode 0x1522) c s

/-- UPDATE_STATUS (R698). -/
def execUpdateStatus (c : Nat) (s : State) : Res := runRow (isCode 0x1523) c s

/-- UPDATE_ABORT (R698). -/
def execUpdateAbort (c : Nat) (s : State) : Res := runRow (isCode 0x1524) c s

/-- ATTESTATION_REPORT (R743). -/
def execAttestationReport (c : Nat) (s : State) : Res := runRow (isCode 0x1600) c s

/-- CERTIFICATE_READ (R741). -/
def execCertificateRead (c : Nat) (s : State) : Res := runRow (isCode 0x1601) c s

/-- OWNER_KEY_INSTALL (R738). -/
def execOwnerKeyInstall (c : Nat) (s : State) : Res := runPriv 0x1602 c s

/-- OWNER_KEY_REVOKE (R740). -/
def execOwnerKeyRevoke (c : Nat) (s : State) : Res := runPriv 0x1603 c s

/-- DEBUG_UNLOCK (R753). -/
def execDebugUnlock (c : Nat) (s : State) : Res := runPriv 0x1604 c s

/-- POWER_STATUS (R806). -/
def execPowerStatus (c : Nat) (s : State) : Res := runRow (isCode 0x1700) c s

/-- SCAN_START (R418). -/
def execScanStart (c : Nat) (s : State) : Res := runRow (fun r => isLane r && laneOp r == 1) c s

/-- SCAN_READ (R421). -/
def execScanRead (c : Nat) (s : State) : Res := runRow (fun r => isLane r && laneOp r == 2) c s

/-- SCAN_STOP (R420). -/
def execScanStop (c : Nat) (s : State) : Res := runRow (fun r => isLane r && laneOp r == 3) c s

/-- TEST_SET_UP (R422). -/
def execTestSetUp (c : Nat) (s : State) : Res := runRow (fun r => isLane r && laneOp r == 4) c s

/-- BIT_SLIP (R414). -/
def execBitSlip (c : Nat) (s : State) : Res := runRow (fun r => isLane r && laneOp r == 5) c s

/-- CHECKER_READ (R422). -/
def execCheckerRead (c : Nat) (s : State) : Res := runRow (fun r => isLane r && laneOp r == 6) c s

/-- LANE_STATUS (R423). -/
def execLaneStatus (c : Nat) (s : State) : Res := runRow (fun r => isLane r && (laneOp r == 0 || decide (6 < laneOp r))) c s

/-- BULK_WINDOW_CLAIM (R689). -/
def execBulkWindowClaim (c : Nat) (s : State) : Res := runRow (fun r => isCode 0x1402 r && r.w 1 % 2 == 1) c s

/-- BULK_WINDOW_RELEASE (R689). -/
def execBulkWindowRelease (c : Nat) (s : State) : Res := runRow (fun r => isCode 0x1402 r && r.w 1 % 2 == 0) c s

/-- SUSPEND (R784). -/
def execSuspend (c : Nat) (s : State) : Res := runRow (fun r => isCode 0x1701 r && r.w 1 % 2 == 1) c s

/-- RESUME (R786). -/
def execResume (c : Nat) (s : State) : Res := runRow (fun r => isCode 0x1701 r && r.w 1 % 2 == 0) c s

end Sys2Proof.Machine
end

