-- ==== Sys2Proof/Machine/Relay.lean ====
section
/-! DEFINITION. Messages that do not wait in a register view: UDP datagrams, array datagrams and scheduled commands (R478, R510
to R514, R684, R686). -/

namespace Sys2Proof.Machine

/-- Whether a MAC has a route to an address: its own subnet, or a gateway (R477). [DEDUCED, log 85] -/
def hasRoute (m ip : Nat) (s : State) : Bool :=
  let k := 2 ^ (32 - cfgN F.ETH_PREFIX m s)
  ip / k == cfgN F.ETH_IP_ADDR m s / k || cfgN F.ETH_GATEWAY m s != 0

/-- A UDP request that cannot wait, for want of space: a refusal of class 5 is sent at once (R684). [DEDUCED, log 85] -/
def refuseUdp (p : Path) (c : Nat) (ws : List Word) (s : State) : State :=
  deliver p c (replyWords ((ws.headD 0).toNat) (.refuse 5 0x1404 0)) (raise 0 0x1404 noInst [] s)

/-- MAILBOX_DATAGRAM (R478, R684, R686): a datagram to MBX_UDP_PORT + c of a MAC that is up. [DEDUCED, log 85] -/
def execMailboxDatagram (mac ip port c : Nat) (words : List Word) (s : State) : Res :=
  let p := Path.udp ip port
  .next (if !macOn mac s || !(s.out.macs.getD mac {}).up || cfgN F.ETH_MBX_UDP_PORT mac s = 0 || 16 ≤ c then s
  else if !hasRoute mac ip s || words.isEmpty then
    raise 0 0x1404 noInst [] (modMbx (fun m => { m with droppedUdp := satInc 32 m.droppedUdp }) s)
  else if 8 < inWords c s + words.length then refuseUdp p c words s
  else enqueue c p words s)

/-- Whether an array datagram is run: its prefix word names the array, and its message is not privileged (R510). [DEDUCED, log 85] -/
def arrayRuns (pre words : List Word) (s : State) : Bool :=
  !pre.isEmpty && bits (pre.headD 0).toNat 31 16 == s.time.arrayId && !words.isEmpty &&
    !hdrPriv (words.headD 0).toNat && !privilegedCode (hdrCode (words.headD 0).toNat)

/-- ARRAY_DATAGRAM (R510): the message runs without a reply, or the datagram is discarded and counted. [DEDUCED, log 85] -/
def execArrayDatagram (mac : Nat) (pre words : List Word) (s : State) : Res :=
  .next (if !macOn mac s || !(s.out.macs.getD mac {}).up || !cfgB F.TIME_ARRAY_ENABLE 0 s || cfgN F.TIME_ARRAY_GROUP_PORT 0 s = 0 ||
      cfgN F.TIME_ARRAY_ARRAY_MAC 0 s ≠ mac then s
  else if arrayRuns pre words s then
    let r : Req := ⟨0, .array, words⟩
    (runReq (msgDef r.code) r none s).2
  else raise 0 0x0E12 noInst [] (modTime (fun t => { t with arrayRejected := wrapInc 32 t.arrayRejected }) s))

/-- The entry of the scheduled table that is due: those that a step has passed first, then the earliest target that TOD has
reached, in order of acceptance (R513, R514). -/
def dueEntry (s : State) : Option Nat :=
  match s.time.late with
  | i :: _ => some i
  | [] =>
    let now := todUnits (nowTod s)
    let due := s.time.table.zipIdx.filterMap fun p => p.1.bind fun e =>
      if todUnits e.target ≤ now then some (todUnits e.target, e.order, p.2) else none
    ((due.mergeSort fun a b => decide (a.1 < b.1 ∨ (a.1 = b.1 ∧ a.2.1 ≤ b.2.1))).head?).map fun x => x.2.2

/-- An entry's message runs as if it had arrived at that moment on its channel; a refusal is logged (R513). -/
def runEntryMsg (e : Sched) (s : State) : State :=
  let r : Req := ⟨e.chan, e.path, e.words⟩
  let d := msgDef r.code
  let s := endSeq r.chan r.path s
  let (a, t) := runReq d r none s
  let t := answer d r a t
  match a with
  | .refuse _ _ _ => raise 0 0x0E13 noInst [] t
  | .accept _ => t

/-- SCHEDULED_COMMAND_DUE (R513, R514). [DEDUCED, log 85] -/
def execScheduledCommandDue (s : State) : Res :=
  .next (match dueEntry s with
  | none => s
  | some i =>
    let late := s.time.late.contains i
    let t := modTime (fun x => { x with table := x.table.set i none, late := x.late.filter fun j => j != i }) s
    match s.time.table.getD i none with
    | none => t
    | some e =>
      if s.dev.state != .running then s
      else runEntryMsg e (if late then raise 0 0x0E10 noInst [] t else t))

end Sys2Proof.Machine
end

