-- ==== Sys2Proof/Machine/Dispatch.lean ====
section
/-! DEFINITION. The dispatch of commands to their meanings, one arm per row of spec/opcode_table.json. -/

namespace Sys2Proof.Machine

/-- The effect of a command on everything but the queue. -/
def exec (i : Instr) (s : State) : Host.Outcome State Fault Refusal :=
  match i with
  | .reset => Sys2Proof.Machine.execReset s
  | .resetRelease straps => Sys2Proof.Machine.execResetRelease straps s
  | .startUp dramTrained refSensor => Sys2Proof.Machine.execStartUp dramTrained refSensor s
  | .roleStart => Sys2Proof.Machine.execRoleStart s
  | .portBringUp p obs => Sys2Proof.Machine.execPortBringUp p obs s
  | .sensorClockTimeout p => Sys2Proof.Machine.execSensorClockTimeout p s
  | .frameStart p skews => Sys2Proof.Machine.execFrameStart p skews s
  | .lineStart p gap skews => Sys2Proof.Machine.execLineStart p gap skews s
  | .lineEnd p beats skews faults => Sys2Proof.Machine.execLineEnd p beats skews faults s
  | .frameEnd p gap => Sys2Proof.Machine.execFrameEnd p gap s
  | .sensorClockLoss p => Sys2Proof.Machine.execSensorClockLoss p s
  | .sensorClockReturn p => Sys2Proof.Machine.execSensorClockReturn p s
  | .sensorClockAbsentExpiry p => Sys2Proof.Machine.execSensorClockAbsentExpiry p s
  | .deskewUpdate p => Sys2Proof.Machine.execDeskewUpdate p s
  | .blankingWindowOpen p => Sys2Proof.Machine.execBlankingWindowOpen p s
  | .scriptEntryComplete p r => Sys2Proof.Machine.execScriptEntryComplete p r s
  | .controlBusTimeout p => Sys2Proof.Machine.execControlBusTimeout p s
  | .trigger p => Sys2Proof.Machine.execTrigger p s
  | .triggerPulseEnd p => Sys2Proof.Machine.execTriggerPulseEnd p s
  | .outputReadback ball r => Sys2Proof.Machine.execOutputReadback ball r s
  | .scheduleRebase seam => Sys2Proof.Machine.execScheduleRebase seam s
  | .unitStart => Sys2Proof.Machine.execUnitStart s
  | .unitEnd => Sys2Proof.Machine.execUnitEnd s
  | .sourceAbsentExpiry seam => Sys2Proof.Machine.execSourceAbsentExpiry seam s
  | .exposureDecision seam => Sys2Proof.Machine.execExposureDecision seam s
  | .whiteBalanceDecision seam => Sys2Proof.Machine.execWhiteBalanceDecision seam s
  | .lockBroadcast c => Sys2Proof.Machine.execLockBroadcast c s
  | .leaderSilentExpiry seam => Sys2Proof.Machine.execLeaderSilentExpiry seam s
  | .aditHoldExpiry n => Sys2Proof.Machine.execAditHoldExpiry n s
  | .blockDeal => Sys2Proof.Machine.execBlockDeal s
  | .blockDone e faults => Sys2Proof.Machine.execBlockDone e faults s
  | .pixelEngineUnit => Sys2Proof.Machine.execPixelEngineUnit s
  | .entropyEngineUnit => Sys2Proof.Machine.execEntropyEngineUnit s
  | .encodePictureBegin m => Sys2Proof.Machine.execEncodePictureBegin m s
  | .decodeTime m => Sys2Proof.Machine.execDecodeTime m s
  | .accessUnitTimeout m => Sys2Proof.Machine.execAccessUnitTimeout m s
  | .decodedPictureOutput m => Sys2Proof.Machine.execDecodedPictureOutput m s
  | .recordUnitComplete j => Sys2Proof.Machine.execRecordUnitComplete j s
  | .ssdCommandCompletion member id ok => Sys2Proof.Machine.execSsdCommandCompletion member id ok s
  | .ssdCommandTimeout member id => Sys2Proof.Machine.execSsdCommandTimeout member id s
  | .ssdAbortExpiry member id => Sys2Proof.Machine.execSsdAbortExpiry member id s
  | .ssdResetExpiry member => Sys2Proof.Machine.execSsdResetExpiry member s
  | .durabilityPoint => Sys2Proof.Machine.execDurabilityPoint s
  | .playbackReadComplete m ok => Sys2Proof.Machine.execPlaybackReadComplete m ok s
  | .commandFetch => Sys2Proof.Machine.execCommandFetch s
  | .rangeLockBegin arrival => Sys2Proof.Machine.execRangeLockBegin arrival s
  | .deleteIoSq arrival => Sys2Proof.Machine.execDeleteIoSq arrival s
  | .createIoSq arrival => Sys2Proof.Machine.execCreateIoSq arrival s
  | .getLogPage arrival => Sys2Proof.Machine.execGetLogPage arrival s
  | .deleteIoCq arrival => Sys2Proof.Machine.execDeleteIoCq arrival s
  | .createIoCq arrival => Sys2Proof.Machine.execCreateIoCq arrival s
  | .identify arrival => Sys2Proof.Machine.execIdentify arrival s
  | .abort arrival => Sys2Proof.Machine.execAbort arrival s
  | .setFeatures arrival => Sys2Proof.Machine.execSetFeatures arrival s
  | .getFeatures arrival => Sys2Proof.Machine.execGetFeatures arrival s
  | .asynchronousEventRequest arrival => Sys2Proof.Machine.execAsynchronousEventRequest arrival s
  | .deviceSelfTest arrival => Sys2Proof.Machine.execDeviceSelfTest arrival s
  | .selfTestStep ok => Sys2Proof.Machine.execSelfTestStep ok s
  | .flush arrival => Sys2Proof.Machine.execFlush arrival s
  | .write arrival data => Sys2Proof.Machine.execWrite arrival data s
  | .read arrival => Sys2Proof.Machine.execRead arrival s
  | .writeZeroes arrival => Sys2Proof.Machine.execWriteZeroes arrival s
  | .hostCqTimeout q => Sys2Proof.Machine.execHostCqTimeout q s
  | .controllerDisable => Sys2Proof.Machine.execControllerDisable s
  | .controllerShutdown => Sys2Proof.Machine.execControllerShutdown s
  | .pcieLinkLoss => Sys2Proof.Machine.execPcieLinkLoss s
  | .post v c => Sys2Proof.Machine.execPost v c s
  | .ack v c => Sys2Proof.Machine.execAck v c s
  | .registerWrite v addr value => Sys2Proof.Machine.execRegisterWrite v addr value s
  | .mailboxDatagram mac ip port c words => Sys2Proof.Machine.execMailboxDatagram mac ip port c words s
  | .arrayDatagram mac pre words => Sys2Proof.Machine.execArrayDatagram mac pre words s
  | .ethernetFrameReceive mac kind => Sys2Proof.Machine.execEthernetFrameReceive mac kind s
  | .macLinkDown mac => Sys2Proof.Machine.execMacLinkDown mac s
  | .replyHoldExpiry v c => Sys2Proof.Machine.execReplyHoldExpiry v c s
  | .tokenSequenceTimeout c path => Sys2Proof.Machine.execTokenSequenceTimeout c path s
  | .bulkWindowHoldExpiry => Sys2Proof.Machine.execBulkWindowHoldExpiry s
  | .updateSessionTimeout => Sys2Proof.Machine.execUpdateSessionTimeout s
  | .deviceStatus c => Sys2Proof.Machine.execDeviceStatus c s
  | .profileSelect c => Sys2Proof.Machine.execProfileSelect c s
  | .restart c => Sys2Proof.Machine.execRestart c s
  | .settingsWrite c => Sys2Proof.Machine.execSettingsWrite c s
  | .settingsRead c => Sys2Proof.Machine.execSettingsRead c s
  | .admissionReport c => Sys2Proof.Machine.execAdmissionReport c s
  | .portStatus c => Sys2Proof.Machine.execPortStatus c s
  | .retrain c => Sys2Proof.Machine.execRetrain c s
  | .sensorWrite c => Sys2Proof.Machine.execSensorWrite c s
  | .seamStatus c => Sys2Proof.Machine.execSeamStatus c s
  | .frontEndStatus c => Sys2Proof.Machine.execFrontEndStatus c s
  | .statisticsFetch c => Sys2Proof.Machine.execStatisticsFetch c s
  | .tapStatus c => Sys2Proof.Machine.execTapStatus c s
  | .lutLoad c => Sys2Proof.Machine.execLutLoad c s
  | .aditStatus c => Sys2Proof.Machine.execAditStatus c s
  | .aditRead c => Sys2Proof.Machine.execAditRead c s
  | .loopStatus c => Sys2Proof.Machine.execLoopStatus c s
  | .compressorStatus c => Sys2Proof.Machine.execCompressorStatus c s
  | .aditCompressionStatus c => Sys2Proof.Machine.execAditCompressionStatus c s
  | .streamStatus c => Sys2Proof.Machine.execStreamStatus c s
  | .bitstreamRead c => Sys2Proof.Machine.execBitstreamRead c s
  | .bitstreamWrite c => Sys2Proof.Machine.execBitstreamWrite c s
  | .forceIdr c => Sys2Proof.Machine.execForceIdr c s
  | .decoderFlush c => Sys2Proof.Machine.execDecoderFlush c s
  | .recorderStatus c => Sys2Proof.Machine.execRecorderStatus c s
  | .recordStart c => Sys2Proof.Machine.execRecordStart c s
  | .recordStop c => Sys2Proof.Machine.execRecordStop c s
  | .clipQuery c => Sys2Proof.Machine.execClipQuery c s
  | .formatVolume c => Sys2Proof.Machine.execFormatVolume c s
  | .deleteClip c => Sys2Proof.Machine.execDeleteClip c s
  | .playbackStart c => Sys2Proof.Machine.execPlaybackStart c s
  | .playbackStop c => Sys2Proof.Machine.execPlaybackStop c s
  | .playbackStatus c => Sys2Proof.Machine.execPlaybackStatus c s
  | .endpointStatus c => Sys2Proof.Machine.execEndpointStatus c s
  | .laneStatus c => Sys2Proof.Machine.execLaneStatus c s
  | .scanStart c => Sys2Proof.Machine.execScanStart c s
  | .scanRead c => Sys2Proof.Machine.execScanRead c s
  | .scanStop c => Sys2Proof.Machine.execScanStop c s
  | .testSetUp c => Sys2Proof.Machine.execTestSetUp c s
  | .bitSlip c => Sys2Proof.Machine.execBitSlip c s
  | .checkerRead c => Sys2Proof.Machine.execCheckerRead c s
  | .scanPointComplete lane errors => Sys2Proof.Machine.execScanPointComplete lane errors s
  | .laneBringUp lane obs => Sys2Proof.Machine.execLaneBringUp lane obs s
  | .lanePllLock quad ab => Sys2Proof.Machine.execLanePllLock quad ab s
  | .lanePllLoss quad ab => Sys2Proof.Machine.execLanePllLoss quad ab s
  | .lanePllRelock quad ab locked => Sys2Proof.Machine.execLanePllRelock quad ab locked s
  | .signalDetect lane => Sys2Proof.Machine.execSignalDetect lane s
  | .dfeUpdate lane signs gainSign => Sys2Proof.Machine.execDfeUpdate lane signs gainSign s
  | .ctleUpdate lane below here above => Sys2Proof.Machine.execCtleUpdate lane below here above s
  | .adaptationAtLimit lane => Sys2Proof.Machine.execAdaptationAtLimit lane s
  | .transmitterLegFault lane legsTogether => Sys2Proof.Machine.execTransmitterLegFault lane legsTogether s
  | .lossOfSignal lane => Sys2Proof.Machine.execLossOfSignal lane s
  | .commonModeFault lane => Sys2Proof.Machine.execCommonModeFault lane s
  | .transmitterRetry lane => Sys2Proof.Machine.execTransmitterRetry lane s
  | .linkBringUp g => Sys2Proof.Machine.execLinkBringUp g s
  | .trainingBlock g lane field inverted metric => Sys2Proof.Machine.execTrainingBlock g lane field inverted metric s
  | .trainingStepTimeout g => Sys2Proof.Machine.execTrainingStepTimeout g s
  | .alignmentBlock g lane marker laneIdx width counter => Sys2Proof.Machine.execAlignmentBlock g lane marker laneIdx width counter s
  | .uncorrectableLimit g => Sys2Proof.Machine.execUncorrectableLimit g s
  | .elasticFifoOverflow g => Sys2Proof.Machine.execElasticFifoOverflow g s
  | .stuffingAllowanceExceeded g => Sys2Proof.Machine.execStuffingAllowanceExceeded g s
  | .cellSlot g => Sys2Proof.Machine.execCellSlot g s
  | .pixelCell g bytes fecOk => Sys2Proof.Machine.execPixelCell g bytes fecOk s
  | .creditCell g bytes fecOk => Sys2Proof.Machine.execCreditCell g bytes fecOk s
  | .creditCellTimer g => Sys2Proof.Machine.execCreditCellTimer g s
  | .creditStarvation g cls => Sys2Proof.Machine.execCreditStarvation g cls s
  | .capabilityCell g bytes fecOk => Sys2Proof.Machine.execCapabilityCell g bytes fecOk s
  | .capabilityRefuseExpiry g => Sys2Proof.Machine.execCapabilityRefuseExpiry g s
  | .linkRetrainCommand g => Sys2Proof.Machine.execLinkRetrainCommand g s
  | .step g rate => Sys2Proof.Machine.execStep g rate s
  | .stepAck g => Sys2Proof.Machine.execStepAck g s
  | .stepRefuse g => Sys2Proof.Machine.execStepRefuse g s
  | .rateStepExpiry g => Sys2Proof.Machine.execRateStepExpiry g s
  | .controlMessage g words => Sys2Proof.Machine.execControlMessage g words s
  | .controlAckTimeout g => Sys2Proof.Machine.execControlAckTimeout g s
  | .streamAnnounceTimer g => Sys2Proof.Machine.execStreamAnnounceTimer g s
  | .timeCellTimer g => Sys2Proof.Machine.execTimeCellTimer g s
  | .timeCell g words arrival => Sys2Proof.Machine.execTimeCell g words arrival s
  | .todTick n => Sys2Proof.Machine.execTodTick n s
  | .ptpSync m msg => Sys2Proof.Machine.execPtpSync m msg s
  | .ptpAnnounce m msg => Sys2Proof.Machine.execPtpAnnounce m msg s
  | .ptpDelayReq m msg => Sys2Proof.Machine.execPtpDelayReq m msg s
  | .ptpDelayResp m msg => Sys2Proof.Machine.execPtpDelayResp m msg s
  | .ptpSendTimer m kind => Sys2Proof.Machine.execPtpSendTimer m kind s
  | .timeSourceTimeout => Sys2Proof.Machine.execTimeSourceTimeout s
  | .timeStatus c => Sys2Proof.Machine.execTimeStatus c s
  | .ptpPortStatus c => Sys2Proof.Machine.execPtpPortStatus c s
  | .arrayLock c => Sys2Proof.Machine.execArrayLock c s
  | .arrayUnlock c => Sys2Proof.Machine.execArrayUnlock c s
  | .schedule c => Sys2Proof.Machine.execSchedule c s
  | .cancel c => Sys2Proof.Machine.execCancel c s
  | .scheduledCommandDue => Sys2Proof.Machine.execScheduledCommandDue s
  | .strobeEdge input high stamp => Sys2Proof.Machine.execStrobeEdge input high stamp s
  | .ppsInEdge stamp => Sys2Proof.Machine.execPpsInEdge stamp s
  | .ppsOutSecond => Sys2Proof.Machine.execPpsOutSecond s
  | .islandSignature => Sys2Proof.Machine.execIslandSignature s
  | .islandStatus c => Sys2Proof.Machine.execIslandStatus c s
  | .recordRead c => Sys2Proof.Machine.execRecordRead c s
  | .islandCertificateRead c => Sys2Proof.Machine.execIslandCertificateRead c s
  | .verifyCalibration c => Sys2Proof.Machine.execVerifyCalibration c s
  | .signNow c => Sys2Proof.Machine.execSignNow c s
  | .islandSettings c => Sys2Proof.Machine.execIslandSettings c s
  | .heartbeatTimer => Sys2Proof.Machine.execHeartbeatTimer s
  | .heartbeat words => Sys2Proof.Machine.execHeartbeat words s
  | .heartbeatTimeout => Sys2Proof.Machine.execHeartbeatTimeout s
  | .stateCopy copy => Sys2Proof.Machine.execStateCopy copy s
  | .failing eb => Sys2Proof.Machine.execFailing eb s
  | .handover eb => Sys2Proof.Machine.execHandover eb s
  | .resync eb => Sys2Proof.Machine.execResync s eb
  | .claimVerdict c => Sys2Proof.Machine.execClaimVerdict c s
  | .claimRepeatTimer => Sys2Proof.Machine.execClaimRepeatTimer s
  | .primaryLinkInactiveExpiry => Sys2Proof.Machine.execPrimaryLinkInactiveExpiry s
  | .startWaitExpiry => Sys2Proof.Machine.execStartWaitExpiry s
  | .linkReactivated g => Sys2Proof.Machine.execLinkReactivated g s
  | .switchOverFallbackExpiry => Sys2Proof.Machine.execSwitchOverFallbackExpiry s
  | .redundancyStatus c => Sys2Proof.Machine.execRedundancyStatus c s
  | .plannedSwitchOver c => Sys2Proof.Machine.execPlannedSwitchOver c s
  | .headPrimaryStatus c => Sys2Proof.Machine.execHeadPrimaryStatus c s
  | .outputFrameSelect out => Sys2Proof.Machine.execOutputFrameSelect out s
  | .outputFrameStart out errPs => Sys2Proof.Machine.execOutputFrameStart out errPs s
  | .audioPacketTimer snd => Sys2Proof.Machine.execAudioPacketTimer snd s
  | .sdiStatus c => Sys2Proof.Machine.execSdiStatus c s
  | .macStatus c => Sys2Proof.Machine.execMacStatus c s
  | .senderStatus c => Sys2Proof.Machine.execSenderStatus c s
  | .teEdge k late => Sys2Proof.Machine.execTeEdge k late s
  | .teAbsentExpiry k => Sys2Proof.Machine.execTeAbsentExpiry k s
  | .panelTimer k late => Sys2Proof.Machine.execPanelTimer k late s
  | .blankExpiry k => Sys2Proof.Machine.execBlankExpiry k s
  | .viewfinderStatus c => Sys2Proof.Machine.execViewfinderStatus c s
  | .overlayWrite c => Sys2Proof.Machine.execOverlayWrite c s
  | .refresh c => Sys2Proof.Machine.execRefresh c s
  | .audioBlockTake p => Sys2Proof.Machine.execAudioBlockTake p s
  | .audioBlockPresent p => Sys2Proof.Machine.execAudioBlockPresent p s
  | .audioInputBlock p samples stamp => Sys2Proof.Machine.execAudioInputBlock p samples stamp s
  | .audioStopComplete p => Sys2Proof.Machine.execAudioStopComplete p s
  | .slaveClockFault p => Sys2Proof.Machine.execSlaveClockFault p s
  | .slaveClockReturn p => Sys2Proof.Machine.execSlaveClockReturn p s
  | .audioStatus c => Sys2Proof.Machine.execAudioStatus c s
  | .startAndStop c => Sys2Proof.Machine.execStartAndStop c s
  | .blockWrite c => Sys2Proof.Machine.execBlockWrite c s
  | .dramRequest ch client addr data => Sys2Proof.Machine.execDramRequest ch client addr data s
  | .dramRequestComplete ch id bitErrors => Sys2Proof.Machine.execDramRequestComplete ch id bitErrors s
  | .mr4Poll ch code => Sys2Proof.Machine.execMr4Poll ch code s
  | .refreshDue ch => Sys2Proof.Machine.execRefreshDue ch s
  | .activateThreshold ch => Sys2Proof.Machine.execActivateThreshold ch s
  | .scrubStep ch bitErrors => Sys2Proof.Machine.execScrubStep ch bitErrors s
  | .delayUpdate ch => Sys2Proof.Machine.execDelayUpdate ch s
  | .channelStatus c => Sys2Proof.Machine.execChannelStatus c s
  | .mailboxStatus c => Sys2Proof.Machine.execMailboxStatus c s
  | .nonce c => Sys2Proof.Machine.execNonce c s
  | .bulkWindowClaim c => Sys2Proof.Machine.execBulkWindowClaim c s
  | .bulkWindowRelease c => Sys2Proof.Machine.execBulkWindowRelease c s
  | .tokenPart c => Sys2Proof.Machine.execTokenPart c s
  | .eventLogRead c => Sys2Proof.Machine.execEventLogRead c s
  | .errorQueueStatus c => Sys2Proof.Machine.execErrorQueueStatus c s
  | .surveyRun c => Sys2Proof.Machine.execSurveyRun c s
  | .surveyItemComplete item obs => Sys2Proof.Machine.execSurveyItemComplete item obs s
  | .restoreFactory c => Sys2Proof.Machine.execRestoreFactory c s
  | .surveyStatus c => Sys2Proof.Machine.execSurveyStatus c s
  | .updateBegin c => Sys2Proof.Machine.execUpdateBegin c s
  | .updateData c => Sys2Proof.Machine.execUpdateData c s
  | .updateCommit c => Sys2Proof.Machine.execUpdateCommit c s
  | .updateWriteComplete ok => Sys2Proof.Machine.execUpdateWriteComplete ok s
  | .updateStatus c => Sys2Proof.Machine.execUpdateStatus c s
  | .updateAbort c => Sys2Proof.Machine.execUpdateAbort c s
  | .bootConfirmation => Sys2Proof.Machine.execBootConfirmation s
  | .attestationReport c => Sys2Proof.Machine.execAttestationReport c s
  | .certificateRead c => Sys2Proof.Machine.execCertificateRead c s
  | .ownerKeyInstall c => Sys2Proof.Machine.execOwnerKeyInstall c s
  | .ownerKeyRevoke c => Sys2Proof.Machine.execOwnerKeyRevoke c s
  | .debugUnlock c => Sys2Proof.Machine.execDebugUnlock c s
  | .powerStatus c => Sys2Proof.Machine.execPowerStatus c s
  | .suspend c => Sys2Proof.Machine.execSuspend c s
  | .resume c => Sys2Proof.Machine.execResume c s
  | .sensorSample temps rails counts => Sys2Proof.Machine.execSensorSample temps rails counts s
  | .supplyOutOfLimits rail mV => Sys2Proof.Machine.execSupplyOutOfLimits rail mV s
  | .hardwareThermalTrip => Sys2Proof.Machine.execHardwareThermalTrip s
  | .hardwareThermalTripClear => Sys2Proof.Machine.execHardwareThermalTripClear s
  | .coreWatchdogExpiry core => Sys2Proof.Machine.execCoreWatchdogExpiry core s
  | .headframeWatchdogExpiry => Sys2Proof.Machine.execHeadframeWatchdogExpiry s
  | .eventLogProgram ok => Sys2Proof.Machine.execEventLogProgram ok s
  | .errorDetected code inst details => Sys2Proof.Machine.execErrorDetected code inst details s
  | .errorAction last => Sys2Proof.Machine.execErrorAction last s
  | .i2cBusStuck stillLow => Sys2Proof.Machine.execI2cBusStuck stillLow s
  | .pmbusPoll reading => Sys2Proof.Machine.execPmbusPoll reading s
  | .linkStatus c => Sys2Proof.Machine.execLinkStatus c s
  | .linkRetrain c => Sys2Proof.Machine.execLinkRetrain c s
  | .ptpFollowUp m msg => Sys2Proof.Machine.execPtpFollowUp m msg s
  | .pcieCompletionTimeout arrival => Sys2Proof.Machine.execPcieCompletionTimeout arrival s
  | .controllerEnable asqSize acqSize => Sys2Proof.Machine.execControllerEnable asqSize acqSize s
  | .doorbellWrite isCq qid value cmds => Sys2Proof.Machine.execDoorbellWrite isCq qid value cmds s
  | .pcieLinkUp port width => Sys2Proof.Machine.execPcieLinkUp port width s
  | .macLinkUp mac => Sys2Proof.Machine.execMacLinkUp mac s
  | .laneFaultEnd lane f => Sys2Proof.Machine.execLaneFaultEnd lane f s
  | .receiverDetectionRetry g => Sys2Proof.Machine.execReceiverDetectionRetry g s
  | .vddAonLoss => Sys2Proof.Machine.execVddAonLoss s
  | .bootNvmTimeout logWrite => Sys2Proof.Machine.execBootNvmTimeout logWrite s
  | .bulkWindowWrite v off data => Sys2Proof.Machine.execBulkWindowWrite v off data s
  | .wakeComplete recv => Sys2Proof.Machine.execWakeComplete recv s
  | .otpWriteComplete ok => Sys2Proof.Machine.execOtpWriteComplete ok s

end Sys2Proof.Machine
end

