-- ==== Sys2Proof/Safety.lean ====
section
/-! DEFINITION. The terms that claims are stated in: a step that does not stop, a message at the front of its channel, an accepted
request, a started role, and what every step keeps in order. -/

namespace Sys2Proof.Machine

/-- A step that answers a next state. -/
def Runs (s : State) : Prop := ∃ t, step s = .next t

/-! ### Messages -/

/-- The header word of a request for code `k` with `n` words and a tag; REPLY, PRIV, ERROR and MORE are 0 (R677). -/
def header (k n tag : Nat) : Word := BitVec.ofNat 32 (k * 2 ^ 16 + n * 2 ^ 12 + tag % 256)

/-- A message whose code a row runs (R696), or a token part (R692). -/
def known (m : InMsg) : Prop := (msgDef (hdrCode (m.words.getD 0 0).toNat)).isSome = true ∨ hdrCode (m.words.getD 0 0).toNat = 0x1410

/-- The oldest message of channel `c` is a request for code `k` with argument words `args` that came by `p`; its receiver
takes it now, the path holds no open token sequence on the channel, and the message behind it, if any, has a row of its
own (R673, R676, R677, R692). -/
def AtFront (c : Nat) (p : Path) (k tag : Nat) (args : List Word) (s : State) : Prop :=
  (∃ rest, (s.mbx.chans.getD c {}).inq = ⟨p, header k (args.length + 1) tag :: args⟩ :: rest ∧ ∀ m, rest.head? = some m → known m) ∧
  serves c s = true ∧ openSeq c p s = none

/-- The request that `AtFront` describes. -/
def request1 (c : Nat) (p : Path) (k tag : Nat) (args : List Word) : Req := ⟨c, p, header k (args.length + 1) tag :: args⟩

/-- The header word of a request that opens a token sequence: `header` with PRIV and MORE set (R677, R692). -/
def privHeader (k n tag : Nat) : Word := BitVec.ofNat 32 (k * 2 ^ 16 + n * 2 ^ 12 + 2 ^ 10 + 2 ^ 8 + tag % 256)

/-- `AtFront` for a request that opens a token sequence. -/
def PrivAtFront (c : Nat) (p : Path) (k tag : Nat) (args : List Word) (s : State) : Prop :=
  (∃ rest, (s.mbx.chans.getD c {}).inq = ⟨p, privHeader k (args.length + 1) tag :: args⟩ :: rest ∧
    ∀ m, rest.head? = some m → known m) ∧ serves c s = true ∧ openSeq c p s = none

/-- The request that `PrivAtFront` describes. -/
def requestP (c : Nat) (p : Path) (k tag : Nat) (args : List Word) : Req := ⟨c, p, privHeader k (args.length + 1) tag :: args⟩

/-- The oldest message of channel `c` is part 5, with words `ws`, of the sequence that holds a request for code `k`, in time,
and the token it completes is valid and may come by its path (R692 to R695). -/
def LastPart (c : Nat) (p : Path) (k tag : Nat) (args ws : List Word) (s : State) : Prop :=
  (∃ rest, (s.mbx.chans.getD c {}).inq = ⟨p, ws⟩ :: rest ∧ ∀ m, rest.head? = some m → known m) ∧ serves c s = true ∧
  hdrCode (ws.getD 0 0).toNat = 0x1410 ∧ (isUdp p = true → cfgB F.MBX_UDP_PRIV 0 s = true) ∧
  ∃ q, openSeq c p s = some q ∧ q.req = privHeader k (args.length + 1) tag :: args ∧ q.parts.length = 5 ∧
    seqLate q s = false ∧ partNext q ⟨c, p, ws⟩ = true ∧
    tokenValid { q with parts := q.parts ++ [ws] } (addPart ⟨c, p, ws⟩ (popMsg c s)) = true

/-- The state in which the request of a complete sequence runs: part 5 counted, the sequence and the nonce gone (R692,
R694). -/
def tokenDone (c : Nat) (p : Path) (ws : List Word) (s : State) : State :=
  useNonce p (dropSeq c p (addPart ⟨c, p, ws⟩ (popMsg c s)))

/-- A started role with nothing quiet: not suspended, not entering suspension, not thermally off (R19, R785, R788). -/
def Started (s : State) : Prop :=
  s.dev.state = .running ∧ s.dev.powered = true ∧ s.pwr.suspended = false ∧ s.pwr.entering = false ∧ s.pwr.thermallyOff = false

/-- What an accepted request leaves: the channel counts a handled message, and the reply goes back by the request's path
(R678, R697). -/
def replied (r : Req) (ws : List Nat) (s : State) : State :=
  deliver r.path r.chan (replyWords (r.w 0) (.accept ws))
    (modChan r.chan (fun ch => { ch with handled := wrapInc 32 ch.handled }) s)

/-- What a refused request leaves for a class other than 4: the channel counts a handled message and a refusal, and the
error reply goes back (R679, R697). -/
def refused (r : Req) (cls err detail : Nat) (s : State) : State :=
  deliver r.path r.chan (replyWords (r.w 0) (.refuse cls err detail))
    (modChan r.chan (fun ch => { ch with handled := wrapInc 32 ch.handled, refusals := wrapInc 32 ch.refusals }) s)

/-- Command `c` of the admin queue has arrival number `a` and opcode `opc`, and is not completed; the controller runs (R369,
R372). -/
def AdminCmd (opc a : Nat) (c : HostCmd) (s : State) : Prop :=
  hostCmd a s = some c ∧ c.sq = 0 ∧ c.cmd.opc = opc ∧ c.done = false ∧ epReady s = true

/-- Command `c` of an I/O queue has arrival number `a` and opcode `opc`, holds its range lock and has issued nothing yet; the
controller runs (R370, R374). -/
def IoCmd (opc a : Nat) (c : HostCmd) (s : State) : Prop :=
  hostCmd a s = some c ∧ c.sq ≠ 0 ∧ c.cmd.opc = opc ∧ c.begun = true ∧ c.issued = false ∧ c.done = false ∧ epReady s = true

/-! ### What every step keeps in order -/

/-- DRAM is in its canonical form, and the error queue, the log SRAM and the log's waiting list hold no more than R707,
R709, R762 and R767 give them. -/
def Inv (s : State) : Prop :=
  Memory.wf s.dram.mem = true ∧ s.err.entries.length ≤ 64 ∧ s.log.sram.length ≤ 4096 ∧ s.log.waiting.length ≤ 4096

end Sys2Proof.Machine
end

