-- ==== Sys2Proof/WellFormed.lean ====
section
/-! DEFINITION. Well-formed commands: every operand within the range the spec gives what it names. The meanings take any
operand; one out of range names nothing and changes nothing. -/

namespace Sys2Proof

/-- SDI outputs 0 to 3, senders 0 to 15 (R465). -/
def outOk : OutId → Bool
  | .sdi k => decide (k < 4)
  | .snd s => decide (s < 16)

/-- The driven balls (R88, R537, R618). -/
def ballOk : Ball → Bool
  | .xtrig n => decide (n < 4)
  | .sc n io => decide (n < 4 ∧ io < 4)
  | .ppsOut => true
  | .aud p pin => decide (p < 8 ∧ pin < 3)
  | .mclk i => decide (i < 2)

/-- Whether the operands of a command lie in their ranges: ports and MACs 0 to 3, seams, streams and DRAM channels 0 to 7, link groups
0 to 8, lanes 0 to 39, mailbox channels 0 to 15, and the others as their arms say. -/
def Instr.wf : Instr → Bool
  | .reset | .roleStart | .unitStart | .unitEnd | .lockBroadcast _ | .blockDeal | .pixelEngineUnit
  | .entropyEngineUnit | .durabilityPoint | .commandFetch | .rangeLockBegin _ | .deleteIoSq _ | .createIoSq _
  | .getLogPage _ | .deleteIoCq _ | .createIoCq _ | .identify _ | .abort _ | .setFeatures _ | .getFeatures _
  | .asynchronousEventRequest _ | .deviceSelfTest _ | .selfTestStep _ | .flush _ | .write _ _ | .read _
  | .writeZeroes _ | .controllerDisable | .controllerShutdown | .pcieLinkLoss | .bulkWindowHoldExpiry
  | .updateSessionTimeout | .todTick _ | .timeSourceTimeout | .scheduledCommandDue | .ppsInEdge _ | .ppsOutSecond
  | .islandSignature | .heartbeatTimer | .heartbeat _ | .heartbeatTimeout | .stateCopy _ | .failing _ | .handover _
  | .resync _ | .claimVerdict _ | .claimRepeatTimer | .primaryLinkInactiveExpiry | .startWaitExpiry
  | .switchOverFallbackExpiry | .updateWriteComplete _ | .bootConfirmation | .hardwareThermalTrip
  | .hardwareThermalTripClear | .headframeWatchdogExpiry | .eventLogProgram _ | .errorAction _ | .i2cBusStuck _
  | .pmbusPoll _ | .pcieCompletionTimeout _ | .controllerEnable _ _ | .vddAonLoss | .bootNvmTimeout _
  | .otpWriteComplete _ => true
  | .resetRelease p | .sensorClockTimeout p | .frameEnd p _ | .sensorClockLoss p | .sensorClockReturn p
  | .sensorClockAbsentExpiry p | .deskewUpdate p | .blankingWindowOpen p | .scriptEntryComplete p _
  | .controlBusTimeout p | .trigger p | .triggerPulseEnd p | .aditHoldExpiry p | .ssdCommandCompletion p _ _
  | .ssdCommandTimeout p _ | .ssdAbortExpiry p _ | .ssdResetExpiry p | .ethernetFrameReceive p _ | .macLinkDown p
  | .ptpSync p _ | .ptpAnnounce p _ | .ptpDelayReq p _ | .ptpDelayResp p _ | .ptpSendTimer p _ | .strobeEdge p _ _
  | .surveyItemComplete p _ | .coreWatchdogExpiry p | .ptpFollowUp p _ | .macLinkUp p => decide (p < 4)
  | .startUp dramTrained _ => decide (dramTrained.length = 8)
  | .portBringUp p obs => decide (p < 4 ∧ obs.pairs.length ≤ 44 ∧ obs.scripts.length ≤ 3)
  | .frameStart p skews | .lineStart p _ skews => decide (p < 4 ∧ skews.length ≤ 4)
  | .lineEnd p beats skews faults =>
    decide (p < 4 ∧ beats.length ≤ 4 ∧ skews.length ≤ 4) && (faults.all fun f => decide (f.1 < 44 * 4))
  | .outputReadback ball _ => ballOk ball
  | .scheduleRebase n | .sourceAbsentExpiry n | .exposureDecision n | .whiteBalanceDecision n | .leaderSilentExpiry n
  | .encodePictureBegin n | .decodeTime n | .accessUnitTimeout n | .decodedPictureOutput n | .recordUnitComplete n
  | .playbackReadComplete n _ | .audioBlockTake n | .audioBlockPresent n | .audioStopComplete n | .slaveClockFault n
  | .slaveClockReturn n | .dramRequestComplete n _ _ | .refreshDue n | .activateThreshold n | .scrubStep n _
  | .delayUpdate n => decide (n < 8)
  | .blockDone k _ | .teEdge k _ | .teAbsentExpiry k | .panelTimer k _ | .blankExpiry k => decide (k < 2)
  | .hostCqTimeout q => decide (q < 0x10000)
  | .post _ c | .ack _ c | .replyHoldExpiry _ c | .tokenSequenceTimeout c _ | .deviceStatus c | .profileSelect c
  | .restart c | .settingsWrite c | .settingsRead c | .admissionReport c | .portStatus c | .retrain c
  | .sensorWrite c | .seamStatus c | .frontEndStatus c | .statisticsFetch c | .tapStatus c | .lutLoad c
  | .aditStatus c | .aditRead c | .loopStatus c | .compressorStatus c | .aditCompressionStatus c | .streamStatus c
  | .bitstreamRead c | .bitstreamWrite c | .forceIdr c | .decoderFlush c | .recorderStatus c | .recordStart c
  | .recordStop c | .clipQuery c | .formatVolume c | .deleteClip c | .playbackStart c | .playbackStop c
  | .playbackStatus c | .endpointStatus c | .laneStatus c | .scanStart c | .scanRead c | .scanStop c | .testSetUp c
  | .bitSlip c | .checkerRead c | .timeStatus c | .ptpPortStatus c | .arrayLock c | .arrayUnlock c | .schedule c
  | .cancel c | .islandStatus c | .recordRead c | .islandCertificateRead c | .verifyCalibration c | .signNow c
  | .islandSettings c | .redundancyStatus c | .plannedSwitchOver c | .headPrimaryStatus c | .audioPacketTimer c
  | .sdiStatus c | .macStatus c | .senderStatus c | .viewfinderStatus c | .overlayWrite c | .refresh c
  | .audioStatus c | .startAndStop c | .blockWrite c | .channelStatus c | .mailboxStatus c | .nonce c
  | .bulkWindowClaim c | .bulkWindowRelease c | .tokenPart c | .eventLogRead c | .errorQueueStatus c | .surveyRun c
  | .restoreFactory c | .surveyStatus c | .updateBegin c | .updateData c | .updateCommit c | .updateStatus c
  | .updateAbort c | .attestationReport c | .certificateRead c | .ownerKeyInstall c | .ownerKeyRevoke c
  | .debugUnlock c | .powerStatus c | .suspend c | .resume c | .linkStatus c | .linkRetrain c => decide (c < 16)
  | .registerWrite _ addr _ => decide (addr < 0x200000 ∧ addr % 4 = 0)
  | .mailboxDatagram mac ip port c _ => decide (mac < 4 ∧ c < 16 ∧ ip < 2 ^ 32 ∧ port < 0x10000)
  | .arrayDatagram mac pre _ => decide (mac < 4 ∧ pre.length ≤ 1)
  | .scanPointComplete lane _ | .signalDetect lane | .ctleUpdate lane _ _ _ | .adaptationAtLimit lane
  | .transmitterLegFault lane _ | .lossOfSignal lane | .commonModeFault lane | .transmitterRetry lane
  | .laneFaultEnd lane _ => decide (lane < 40)
  | .laneBringUp lane obs => decide (lane < 40 ∧ obs.metrics.length ≤ 16 ∧ obs.dfe.length ≤ 12)
  | .lanePllLock quad _ | .lanePllLoss quad _ | .lanePllRelock quad _ _ => decide (quad < 10)
  | .dfeUpdate lane signs _ => decide (lane < 40 ∧ signs.length ≤ 12)
  | .linkBringUp g | .trainingStepTimeout g | .uncorrectableLimit g | .elasticFifoOverflow g
  | .stuffingAllowanceExceeded g | .cellSlot g | .creditCellTimer g | .capabilityRefuseExpiry g
  | .linkRetrainCommand g | .stepAck g | .stepRefuse g | .rateStepExpiry g | .controlMessage g _
  | .controlAckTimeout g | .streamAnnounceTimer g | .timeCellTimer g | .timeCell g _ _ | .linkReactivated g
  | .receiverDetectionRetry g => decide (g < 9)
  | .trainingBlock g lane _ _ _ => decide (g < 9 ∧ lane < 40)
  | .alignmentBlock g lane marker idx width counter =>
    decide (g < 9 ∧ lane < 40 ∧ marker < 2 ^ 64 ∧ idx < 16 ∧ width < 16 ∧ counter < 2 ^ 32)
  | .pixelCell g bytes _ | .creditCell g bytes _ | .capabilityCell g bytes _ => decide (g < 9 ∧ bytes.length = 132)
  | .creditStarvation g cls => decide (g < 9 ∧ cls < 3)
  | .step g rate => decide (g < 9 ∧ rate < 0x20)
  | .outputFrameSelect out | .outputFrameStart out _ => outOk out
  | .audioInputBlock p samples _ => decide (p < 8 ∧ samples.length = 128)
  | .dramRequest ch _ addr _ => decide (ch < 8 ∧ addr < 2 ^ 38)
  | .mr4Poll ch code => decide (ch < 8 ∧ code < 8)
  | .sensorSample temps rails counts => decide (temps.length = 16 ∧ rails.length = 14 ∧ counts.length = 7)
  | .supplyOutOfLimits rail _ => decide (rail < 14)
  | .errorDetected code inst details => decide (code < 0x10000 ∧ inst < 0x100 ∧ details.length ≤ 4)
  | .doorbellWrite _ qid value _ => decide (qid < 17 ∧ value < 0x10000)
  | .pcieLinkUp port width => decide ((width = 1 ∨ width = 2 ∨ width = 4)) && port.all fun k => decide (k < 4)
  | .bulkWindowWrite _ off _ => decide (off < 0x100000)
  | .wakeComplete recv => decide (1 ≤ recv ∧ recv ≤ 4)

end Sys2Proof
end

