-- ==== Sys2Proof/Certificates/Slice0/Obligations.lean ====
section
/-! DEFINITION. The statements for the provers, one Prop for each entry of OBLIGATIONS.json. -/

open Sys2Proof Sys2Proof.Machine

/-- A step runs the command at the front of the queue. For every state whose queue begins with command c, the step is
exec of c on the state with the rest of the queue. (Rests on 95_what_each_step_holds.md.) -/
def Obligations.StepRunsFront : Prop :=
  ∀ (c : Instr) (rest : List Instr) (s : State), s.pending = c :: rest → step s = exec c { s with pending := rest }

/-- With no command waiting the block idles (the model's choice, log entry 1). On an empty queue the step answers the
same state. This is the model's choice (log entry 1), not a rule of the spec. (Rests on 95_what_each_step_holds.md.)
-/
def Obligations.IdleOnEmptyQueue : Prop :=
  ∀ s : State, s.pending = [] → step s = .next s

/-- The command queue is first in, first out, and a command at its front always completes. A step that answers a next
state has removed exactly the command at the front of the queue and has left the commands behind it, in their order.
Every command but a DRAM_REQUEST at or above 15/16 of the installed total (R629) answers a next state, in every state
and with every operand; so the step with such a command at the front is its next state. (Rests on
95_what_each_step_holds.md.) -/
def Obligations.QueueFirstInFirstOut : Prop :=
  (∀ (c : Instr) (rest : List Instr) (s t : State), s.pending = c :: rest → step s = .next t → t.pending = rest) ∧
  (∀ (c : Instr) (s : State), (∀ ch k a d, c = .dramRequest ch k a d → a < dramUsable s.cfg.accepted) → ∃ t, exec c s = .next t) ∧
  (∀ (c : Instr) (rest : List Instr) (s : State), s.pending = c :: rest →
    (∀ ch k a d, c = .dramRequest ch k a d → a < dramUsable s.cfg.accepted) → ∃ t, step s = .next t ∧ t.pending = rest)

/-- Every step keeps the canonical form of DRAM and the capacities of the error queue and the event log. For every
state s with Inv s, if the step answers next t then Inv t: DRAM is a list of cells with rising addresses that lists no
zero byte, the error queue holds at most 64 entries (R762, R767), the log SRAM at most 4,096 (R707) and the entries
still to be programmed at most 4,096 (R709). (Rests on 18_dram_controller.md, 21_headframe_and_calibration.md,
23_errors_and_guarantees.md.) -/
def Obligations.StepKeepsInv : Prop :=
  ∀ s t : State, Inv s → step s = .next t → Inv t

/-- The state after reset meets the invariant. DRAM of the state after reset is in its canonical form, and its error
queue and event log are within their capacities. (Rests on 18_dram_controller.md, 21_headframe_and_calibration.md,
23_errors_and_guarantees.md.) -/
def Obligations.ResetMeetsInv : Prop :=
  Inv State.reset

/-- No step lowers the seal counter, a rollback counter or an owner key slot state. If a step answers next t, then the
seal counter of the island (R530) and every rollback counter of the OTP (R735) are at least what they were, and no
owner key slot goes back from revoked to programmed or from programmed to empty (R730). (Rests on 15_assay_island.md,
22_security.md, 21_headframe_and_calibration.md.) -/
def Obligations.CountersOnlyRise : Prop :=
  ∀ s t : State, step s = .next t →
    s.islNv.sealCount ≤ t.islNv.sealCount ∧ (∀ k, s.otp.rollback.getD k 0 ≤ t.otp.rollback.getD k 0) ∧
    ∀ n, (s.otp.slots.getD n {}).state ≤ 2 → (s.otp.slots.getD n {}).state ≤ (t.otp.slots.getD n {}).state

/-- Only the commands named write the settings, the OTP, the boot NVM or the bytes of DRAM. A command that is none of
those named leaves the settings, the OTP, the boot NVM, the island's non-volatile memory but its log, and every byte
of DRAM as they were. Named are the resets and starts, the messages that write settings, keys, calibration or power,
TOKEN_PART, ARRAY_DATAGRAM and SCHEDULED_COMMAND_DUE, which can run such a message, BOOT_CONFIRMATION,
UPDATE_WRITE_COMPLETE, SURVEY_ITEM_COMPLETE, PPS_IN_EDGE, OTP_WRITE_COMPLETE, DRAM_REQUEST_COMPLETE, SCRUB_STEP, and
TOD_TICK, which drains the DRAM requests when it enters the suspended state (R784). (Rests on
19_configuration_image.md, 21_headframe_and_calibration.md, 22_security.md, 18_dram_controller.md.) -/
def Obligations.WholeStateWriters : Prop :=
  ∀ (i : Instr) (s t : State), exec i s = .next t →
    (match i with
      | .reset | .resetRelease _ | .startUp _ _ | .roleStart | .hardwareThermalTrip | .hardwareThermalTripClear
      | .headframeWatchdogExpiry | .supplyOutOfLimits _ _ | .vddAonLoss | .bootConfirmation | .updateWriteComplete _
      | .surveyItemComplete _ _ | .ppsInEdge _ | .otpWriteComplete _ | .dramRequestComplete _ _ _ | .scrubStep _ _
      | .profileSelect _ | .restart _ | .settingsWrite _ | .verifyCalibration _ | .islandSettings _ | .ownerKeyInstall _
      | .ownerKeyRevoke _ | .debugUnlock _ | .tokenPart _ | .arrayDatagram _ _ _ | .scheduledCommandDue | .todTick _ => True
      | _ => t.cfg = s.cfg ∧ t.otp = s.otp ∧ t.nvm = s.nvm ∧ t.islNv = { s.islNv with log := t.islNv.log } ∧
          ∀ a, readDram a t.dram.mem = readDram a s.dram.mem)

/-- The Headframe watchdog starts the device from step 1. HEADFRAME_WATCHDOG_EXPIRY in any state in which the
Headframe runs gives a state that is starting (step 1 of R662) with the straps sampled again, one more start counted,
and no block powered; the log keeps the entries that reached the NVM and numbers on from the highest of them. (States
R711.) -/
def Obligations.WatchdogStartsAgain : Prop :=
  ∀ s : State, s.dev.state ≠ .off → s.dev.state ≠ .bootRom →
    ∃ t, exec .headframeWatchdogExpiry s = .next t ∧ t.dev.state = .starting ∧ t.dev.role = roleOf s.dev.straps ∧
      t.dev.starts = (s.dev.starts + 1) % 2 ^ 32 ∧ t.dev.powered = false ∧ t.err.entries = [] ∧
      t.log.ring = s.log.ring ∧ t.log.next = nextSeq s.log.ring

/-- What resets, their release and the thermal trip leave. RESET gives a state that is off with RESET_L low, no
setting in force, no command, message, error or unprogrammed log entry left, the OTP keys and counters, the boot NVM
and the island's non-volatile memory as they were, and the SSD media as they were. RESET_RELEASE samples the straps
and starts from step 1, or only samples them while a thermal trip holds the device. VDD_AON_LOSS resets.
HARDWARE_THERMAL_TRIP holds the device in reset; its clearing starts it unless RESET_L is low. (Rests on R662, R782,
R783, R789.) -/
def Obligations.ResetsAndStarts : Prop :=
  (∀ s : State, ∃ t, exec .reset s = .next t ∧ t.dev.state = .off ∧ t.dev.resetLow = true ∧ t.cfg = {} ∧ t.mbx = {} ∧
      t.err = {} ∧ t.log.waiting = [] ∧ t.log.ring = s.log.ring ∧ t.otp.slots = s.otp.slots ∧ t.otp.rollback = s.otp.rollback ∧
      t.nvm = s.nvm ∧ t.islNv = s.islNv ∧ t.isl = {} ∧ t.pending = s.pending ∧
      t.rcd.ssds.map (·.media) = s.rcd.ssds.map (·.media)) ∧
  (∀ (straps : Nat) (s : State), s.dev.resetLow = true → s.pwr.tripHeld = false →
      ∃ t, exec (.resetRelease straps) s = .next t ∧ t.dev.state = .starting ∧ t.dev.resetLow = false ∧
        t.dev.straps = straps % 4 ∧ t.dev.role = roleOf straps ∧ t.dev.starts = (s.dev.starts + 1) % 2 ^ 32) ∧
  (∀ (straps : Nat) (s : State), s.dev.resetLow = true → s.pwr.tripHeld = true →
      exec (.resetRelease straps) s = .next { s with dev := { s.dev with resetLow := false, straps := straps % 4 } }) ∧
  (∀ s : State, ∃ t, exec .vddAonLoss s = .next t ∧ t.dev.state = .off ∧ t.cfg = {} ∧ t.err = {} ∧ t.log.waiting = [] ∧
      t.nvm = s.nvm) ∧
  (∀ s : State, ∃ t, exec .hardwareThermalTrip s = .next t ∧ t.dev.state = .off ∧ t.dev.resetLow = s.dev.resetLow ∧
      t.pwr.tripHeld = true ∧ t.pwr.tripped = true ∧ t.cfg = {} ∧ t.err = {}) ∧
  (∀ s : State, s.pwr.tripHeld = true → s.dev.resetLow = false →
      ∃ t, exec .hardwareThermalTripClear s = .next t ∧ t.dev.state = .starting ∧ t.pwr.tripHeld = false ∧
        t.pwr.tripped = s.pwr.tripped ∧ t.dev.role = roleOf s.dev.straps) ∧
  (∀ s : State, s.dev.resetLow = true →
      exec .hardwareThermalTripClear s = .next { s with pwr := { s.pwr with tripHeld := false } })

/-- Where START_UP and ROLE_START lead. START_UP of a starting device whose boot header does not verify leaves it in
the boot ROM with nothing logged; with a header and a vendor firmware that verify, START_UP loads the images, stores
and DRAM and then agrees on the role: the reserved straps end in the safe state, a role the part does not have in the
configuration-error state, and the checks of the records in the ready or the configuration-error state. ROLE_START of
a ready device gives a running role with its blocks powered, the settings as START_UP left them and the fixed DRAM
allocations of R644 placed. (Rests on R4, R662, R669, R732, 19_configuration_image.md.) -/
def Obligations.StartUpSteps : Prop :=
  (∀ (d : List Bool) (r : Bool) (s : State), s.dev.state = .starting →
      imageReason 0 (chooseSlot 1 s).2.nvm.header (chooseSlot 1 s).2 ≠ 0 →
      ∃ t, exec (.startUp d r) s = .next t ∧ t.dev.state = .bootRom ∧ t.log = (chooseSlot 1 s).2.log) ∧
  (∀ (d : List Bool) (r b : Bool) (s u : State), s.dev.state = .starting → chooseSlot 1 s = (b, u) →
      imageReason 0 u.nvm.header u = 0 → imageReason 1 (regionOf 1 b u) u = 0 →
      ∃ v : Bool × Nat × State,
        v = loadImages d r (modCfg (fun c => { c with images := modAt c.images 1 fun m => { m with slotB := b } }) u) ∧
        exec (.startUp d r) s = .next (agree v.1 v.2.1 ((List.range 8).all fun c => d.getD c true) v.2.2)) ∧
  (∀ (b ok : Bool) (n : Nat) (u : State), u.dev.role = .reserved → (agree b n ok u).dev.state = .safe) ∧
  (∀ (b ok : Bool) (n : Nat) (u : State), u.dev.part = .h → u.dev.role = .integrated ∨ u.dev.role = .body →
      (agree b n ok u).dev.state = .configError) ∧
  (∀ (rs : List Rec) (u : State), (checkStart rs u).dev.state = .ready ∨ (checkStart rs u).dev.state = .configError) ∧
  (∀ s : State, s.dev.state = .ready →
      ∃ t, exec .roleStart s = .next t ∧ t.dev.state = .running ∧ t.dev.powered = true ∧ t.dev.role = s.dev.role ∧
        t.cfg = s.cfg ∧ t.otp = s.otp ∧ t.nvm = s.nvm ∧ t.dram.alloc = allocAtStart s)

/-- What the Headframe does at its samples, watchdogs and bus events. While the Headframe runs: a sensor sample stores
the readings of T0 to T15, tracks each rail and finds the clocks outside ±0.1 %; a rail out of its limits resets the
device (VDD_AON), stops the island (VDD_ASSAY) or is a Fatal error once per run (any other); a control core that
misses its kick is reset and logged, and a second miss within 10 s is also logged as a failed core; the oldest waiting
log entry is programmed; a boot NVM timeout fails the log or the update; a stuck I2C bus and a silent regulator are
logged once per run and noted. (Rests on R703, R705, R708, R709, R710, R769, R770, R807.) -/
def Obligations.HeadframeEvents : Prop :=
  (∀ (temps : List Int) (rails bad : List Nat) (s : State), headframeOn s = true →
      ∃ t, exec (.sensorSample temps rails bad) s = .next t ∧ t.hf.rails = sampleRails rails s.hf.rails ∧
        t.hf.badClocks = clocksOut bad ∧
        t.hf.temps.map (·.value) =
          s.hf.temps.zipIdx.map fun x => ((List.range 16).map fun i => withOffset i (temps.getD i 0) s).getD x.2 0) ∧
  (∀ (mV : Nat) (s : State), headframeOn s = true → railOk 2 mV = false →
      exec (.supplyOutOfLimits 2 mV) s = exec .vddAonLoss s ∧ ∃ t, exec .vddAonLoss s = .next t ∧ t.dev.state = .off) ∧
  (∀ (mV : Nat) (s : State), headframeOn s = true → railOk 3 mV = false → s.isl.running = true →
      exec (.supplyOutOfLimits 3 mV) s =
        .next (raise 1 0x0F02 noInst [] { s with isl := { s.isl with running := false } })) ∧
  (∀ (rail mV : Nat) (s : State), headframeOn s = true → rail < 14 → rail ≠ 2 → rail ≠ 3 → railOk rail mV = false →
      exec (.supplyOutOfLimits rail mV) s = .next (raiseOnce 3 0x1503 rail [mV] s)) ∧
  (∀ (rail mV : Nat) (s : State), railOk rail mV = true → exec (.supplyOutOfLimits rail mV) s = .next s) ∧
  (∀ (core : Nat) (s : State), s.dev.state = .running → core < 4 → s.mbx.asleep.contains (core + 1) = false →
      let u : State := raise 1 0x1508 core [] { s with
        hf := { s.hf with coreReset := modAt s.hf.coreReset core fun _ => some s.dev.elapsed }
        dev := { s.dev with troubled := true } }
      (s.hf.coreReset.getD core none = none → exec (.coreWatchdogExpiry core) s = .next u) ∧
      (∀ n, s.hf.coreReset.getD core none = some n → s.dev.elapsed ≤ n + 10 * ticksPerSec →
        exec (.coreWatchdogExpiry core) s = .next (raise 3 0x1509 core [] u))) ∧
  (∀ (e : LogEntry) (rest : List LogEntry) (s : State), headframeOn s = true → s.log.waiting = e :: rest →
      exec (.eventLogProgram true) s = .next (endRun 0x1523 noInst
        { s with log := { s.log with waiting := rest, ring := programEntry e s.log.ring } })) ∧
  (∀ s : State, exec (.eventLogProgram false) s = .next s) ∧
  (∀ s : State, headframeOn s = true → exec (.bootNvmTimeout true) s = .next (raiseOnce 1 0x1523 noInst [] s)) ∧
  (∀ s : State, headframeOn s = true → s.hf.update.state = .writing →
      exec (.bootNvmTimeout false) s = .next (raise 1 0x1521 noInst []
        { s with hf := { s.hf with update := { s.hf.update with state := .failed, failCode := 0x1521 } } })) ∧
  (∀ s : State, headframeOn s = true →
      exec (.i2cBusStuck true) s = .next (raiseOnce 1 0x1502 noInst [] { s with hf := { s.hf with i2cStuck := true } })) ∧
  (∀ s : State, headframeOn s = true →
      exec (.i2cBusStuck false) s = .next (endRun 0x1502 noInst { s with hf := { s.hf with i2cStuck := false } })) ∧
  (∀ (w : Word) (s : State), headframeOn s = true → cfgN F.PWR_CORE_PMBUS 0 s ≠ 0 →
      exec (.pmbusPoll (some w)) s = .next (endRun 0x1704 noInst
        { s with pwr := { s.pwr with currentMa := some (linear11 w.toNat), pmbusLost := false } })) ∧
  (∀ s : State, headframeOn s = true → cfgN F.PWR_CORE_PMBUS 0 s ≠ 0 →
      exec (.pmbusPoll none) s = .next (raiseOnce 0 0x1704 noInst []
        { s with pwr := { s.pwr with currentMa := none, pmbusLost := true } }))

/-- The thermal alarm is entered at 140 degrees and left below 135 degrees. A sensor sample outside thermal alarm
enters it, and counts it, exactly when the hottest die sensor that is not faulted reads 140 °C or more; a sample in
thermal alarm leaves it exactly when every die sensor that is not faulted reads below 135 °C. The capture path, the
lanes, the links, the codec, the recorder, the outputs and the settings stay as they were: no clock, rate or load
changes. (Rests on R703, R704, R787.) -/
def Obligations.ThermalAlarm : Prop :=
  ∀ (temps : List Int) (rails bad : List Nat) (s : State), headframeOn s = true →
    ∃ t, exec (.sensorSample temps rails bad) s = .next t ∧
      (s.pwr.alarm = false → (t.pwr.alarm = true ↔ 2240 ≤ hottest t)) ∧
      (s.pwr.alarm = true → (t.pwr.alarm = false ↔ ∀ x ∈ t.hf.temps.take 15, x.faulted = true ∨ x.value < 2160)) ∧
      (t.pwr.alarms = if s.pwr.alarm = false ∧ t.pwr.alarm = true then (s.pwr.alarms + 1) % 2 ^ 32 else s.pwr.alarms) ∧
      t.cap = s.cap ∧ t.lanes = s.lanes ∧ t.links = s.links ∧ t.codec = s.codec ∧ t.rcd = s.rcd ∧ t.out = s.out ∧ t.cfg = s.cfg

/-- Update writes, boot confirmation, Survey items and OTP writes. A finished update write commits the session, or
fails it with 0x1521 and leaves the NVM alone; a receiving session that times out closes; an untroubled running boot
is confirmed and queues a counter write for every verified image whose rollback number is above its counter; a Survey
item that passes writes a user calibration copy, one that fails is logged; the oldest OTP write is applied, or fails
with 0x1603. (Rests on R698, R713, R716, R719, R731, R735.) -/
def Obligations.UpdatesAndOtp : Prop :=
  (∀ s : State, s.hf.update.state = .writing → s.hf.update.kind = 3 →
      exec (.updateWriteComplete true) s = .next { s with
        nvm := { s.nvm with assay := s.hf.update.bytes }, hf := { s.hf with update := { s.hf.update with state := .committed } } }) ∧
  (∀ s : State, s.hf.update.state = .writing → s.hf.update.kind = 2 →
      ∃ t, exec (.updateWriteComplete true) s = .next t ∧ t.hf.update.state = .committed ∧
        (t.nvm.ownerA = s.hf.update.bytes ∨ t.nvm.ownerB = s.hf.update.bytes) ∧
        ∃ r, t.nvm.slotRecs = s.nvm.slotRecs ++ [r] ∧ r.kind = 2 ∧ r.confirmed = false ∧ r.tries = 0) ∧
  (∀ s : State, s.hf.update.state = .writing →
      exec (.updateWriteComplete false) s = .next (raise 1 0x1521 noInst []
        { s with hf := { s.hf with update := { s.hf.update with state := .failed, failCode := 0x1521 } } })) ∧
  (∀ s : State, s.hf.update.state = .receiving →
      exec .updateSessionTimeout s = .next { s with hf := { s.hf with update := {} } }) ∧
  (∀ s : State, s.dev.state = .running → s.dev.troubled = false →
      ∃ t, exec .bootConfirmation s = .next t ∧ t.otp.rollback = s.otp.rollback ∧
        (∀ k < 6, (s.cfg.images.getD k {}).verified = true → s.otp.rollback.getD k 0 < (s.cfg.images.getD k {}).rollback →
          OtpWrite.counter k (s.cfg.images.getD k {}).rollback ∈ t.otp.queue) ∧
        (∀ w ∈ s.otp.queue, w ∈ t.otp.queue)) ∧
  (∀ (item : Nat) (obs : SurveyObs) (s : State), s.hf.surveyRunning = [item, 3] → item = 1 ∨ item = 2 →
      surveyPass item obs s = false →
      exec (.surveyItemComplete item obs) s = .next (raise 0 (0x1510 + item) noInst []
        { s with hf := { s.hf with surveyRunning := [3], surveyFailed := s.hf.surveyFailed ++ [item] } })) ∧
  (∀ (item : Nat) (obs : SurveyObs) (s : State), s.hf.surveyRunning.contains item = true → item ≠ 0 →
      surveyPass item obs s = true → s.isl.running = false →
      ∃ t, exec (.surveyItemComplete item obs) s = .next t ∧ t.hf.surveyPassed = s.hf.surveyPassed ++ [item] ∧
        item ∉ t.hf.surveyRunning ∧ (t.hf.userA ≠ none ∨ t.hf.userB ≠ none) ∧ t.err = s.err) ∧
  (∀ (w : OtpWrite) (rest : List OtpWrite) (s : State), s.otp.queue = w :: rest → w ≠ .debugged →
      exec (.otpWriteComplete true) s = .next { s with otp := applyOtp w { s.otp with queue := rest } }) ∧
  (∀ (rest : List OtpWrite) (s : State), s.otp.queue = .debugged :: rest →
      exec (.otpWriteComplete true) s = .next (raise 0 0x1604 noInst []
        { s with otp := { s.otp with queue := rest, debugged := true, jtagOpen := true } })) ∧
  (∀ (w : OtpWrite) (rest : List OtpWrite) (s : State), s.otp.queue = w :: rest →
      exec (.otpWriteComplete false) s = .next (raise 1 0x1603 noInst [] { s with otp := { s.otp with queue := rest } }))

/-- An error enters the queue once, and actions leave it by severity. When no waiting entry has an arriving error's
code and instance and fewer than 64 are queued, the error is queued at the end with its details and one repeat, a
Fatal error abandoning every lower entry; when one has, that entry counts a repeat and takes the higher severity and
no entry is added; a full queue without a displaceable entry of lower severity counts a loss. The action of the
highest-severity, earliest entry runs, and an action below Fatal leaves the queue when it is the last step. (Rests on
R706, R762, R763, R765, R766, R767.) -/
def Obligations.ErrorQueueEvents : Prop :=
  (∀ (code inst sev : Nat) (ds : List Nat) (q : ErrorQueue), q.entries.any (mergesInto code inst) = false →
      q.entries.length < 64 → (sev = 3 → ∀ x ∈ q.entries, x.sev = 3) →
      (queueErr code inst sev ds q).entries = q.entries ++ [⟨code, inst, sev, ds, 1, .waiting, 0⟩] ∧
      (queueErr code inst sev ds q).lost = q.lost) ∧
  (∀ (code inst sev : Nat) (ds : List Nat) (q : ErrorQueue), q.entries.any (mergesInto code inst) = true → sev < 3 →
      (queueErr code inst sev ds q).entries.length = q.entries.length ∧
      ∀ (k : Nat) (x : ErrEntry), q.entries[k]? = some x → (queueErr code inst sev ds q).entries[k]? =
        some (if mergesInto code inst x then { x with repeats := x.repeats + 1, sev := max x.sev sev } else x)) ∧
  (∀ (code inst sev : Nat) (ds : List Nat) (q : ErrorQueue), q.entries.any (mergesInto code inst) = false →
      q.entries.length = 64 → sev < 3 → (∀ x ∈ q.entries, x.phase = .waiting → sev ≤ x.sev) →
      (queueErr code inst sev ds q).entries = q.entries ∧ (queueErr code inst sev ds q).lostFlag = true ∧
      (queueErr code inst sev ds q).lost = min (2 ^ 32 - 1) (q.lost + 1)) ∧
  (∀ (code inst : Nat) (ds : List Nat) (q : ErrorQueue), ((queueErr code inst 3 ds q).entries.all fun x => x.sev == 3) = true) ∧
  (∀ (k : Nat) (e : ErrEntry) (s : State), headframeOn s = true → nextAction s.err.entries = some k →
      s.err.entries[k]? = some e → e.sev < 3 →
      exec (.errorAction false) s = .next { s with err := { s.err with entries := runEntry k s.err.entries } } ∧
      exec (.errorAction true) s = .next { s with err := { s.err with entries := (runEntry k s.err.entries).eraseIdx k } }) ∧
  (∀ (e : ErrEntry) (s : State), headframeOn s = true → s.err.entries = [e] → e.sev = 3 → s.dev.state = .configError →
      ∃ t, exec (.errorAction true) s = .next t ∧ t.dev.state = .configError ∧ t.err.entries = [] ∧ t.cap.pipe = none) ∧
  (∀ s : State, s.err.entries = [] → ∀ b, exec (.errorAction b) s = .next s) ∧
  (∀ (code inst : Nat) (ds : List Word) (s : State) (sev : Nat), headframeOn s = true → s.dev.state ≠ .running →
      errSev code (ds.map BitVec.toNat) s = some sev →
      exec (.errorDetected code inst ds) s = .next (raise sev code inst (ds.map BitVec.toNat) s)) ∧
  (∀ (inst k : Nat) (ds : List Word) (s : State), headframeOn s = true → s.dev.state = .running → inst < s.comp.engines.length →
      k < s.comp.engines.length → k ≠ inst → (s.comp.engines.getD k {}).out = false →
      ∃ t, exec (.errorDetected 0x0703 inst ds) s = .next t ∧ t.comp = (engineOut inst s).comp ∧
        (t.comp.engines.getD inst {}).out = true ∧ (t.comp.engines.getD inst {}).blk = none ∧ t.cap = s.cap)

/-- A detected error is logged at once and enters the error queue. Raising an error adds its event log entry at the
moment it is raised, with its code, instance, severity and detail words and the next sequence number, and queues it;
nothing of the state but the log, the error queue and the device record changes. (Rests on R706, R707, R762.) -/
def Obligations.EveryRaiseIsLogged : Prop :=
  ∀ (sev code inst : Nat) (ds : List Nat) (s : State), s.log.waiting.length < 4096 →
    raise sev code inst ds s = { s with
      log := pushLog (mkEntry sev code inst ds s) s.log, err := queueErr code inst sev ds s.err,
      dev := if sev = 3 then { s.dev with firstFatal := if s.dev.firstFatal = 0 then code else s.dev.firstFatal,
                                          troubled := true } else s.dev } ∧
    ∃ e, (raise sev code inst ds s).log.sram.head? = some e ∧ e.code = code ∧ e.inst = inst ∧ e.sev = sev ∧
      e.seq = s.log.next ∧ e.details = ((ds ++ [0, 0, 0, 0]).take 4).map (· % 2 ^ 32) ∧
      (raise sev code inst ds s).log.next = s.log.next + 1

/-- Sensor clock events, bring-up and deskew of a port. At a live port: a lost clock outside a frame stops the frame
signals and is only noted; lost inside a frame it drops the frame and logs 0x02p1; absent for more than 10 ms is
noted, and its return then retrains the port, or a gang from its leader; an early return only marks the clock present.
At bring-up a measured clock within the limits trains the port and starts it with the delays found, a fault that stops
the port is Fatal, and so is a clock that never comes; both stop the start-up. The deskew step moves no delay by more
than one. (Rests on R67, R70, R71, R76.) -/
def Obligations.SensorClockAndTraining : Prop :=
  (∀ (p : Nat) (s : State), portLive p s = true → (portOf p s).clock = true → leadOf p s = p → (portOf p s).fv = false →
      exec (.sensorClockLoss p) s = .next (modPort p (fun y => { y with fv := false, lv := false, skip := true })
        (modPort p (fun y => { y with clock := false }) s))) ∧
  (∀ (p : Nat) (s : State), portLive p s = true → (portOf p s).clock = true → leadOf p s = p → (portOf p s).fv = true →
      (portOf p s).skip = false →
      exec (.sensorClockLoss p) s = .next (modPort p (fun y => { y with fv := false, lv := false, skip := true })
        (modPort p (fun y => { y with clock := false }) (raise 2 (portErr p 1) p [] (portDrop p s))))) ∧
  (∀ (p : Nat) (s : State), portLive p s = true → (portOf p s).clock = true → leadOf p s ≠ p →
      (portOf (leadOf p s) s).fv = false →
      exec (.sensorClockLoss p) s = .next (modPort p (fun y => { y with clock := false }) s)) ∧
  (∀ (p : Nat) (s : State), portLive p s = true → (portOf p s).clock = false →
      (portOf p s).phase = .running ∨ (portOf p s).phase = .stopped ∨ (portOf p s).phase = .retrain →
      exec (.sensorClockAbsentExpiry p) s = .next (modPort p (fun y => { y with absentLong := true }) s)) ∧
  (∀ (p : Nat) (s : State), portLive p s = true → (portOf p s).clock = false → (portOf p s).absentLong = false →
      (portOf p s).retrainAsked = false →
      exec (.sensorClockReturn p) s =
        .next (modPort p (fun y => { y with clock := true, faultMask := y.faultMask % 2 ^ pairCK }) s)) ∧
  (∀ (p : Nat) (s : State), portLive p s = true → (portOf p s).clock = false →
      (portOf p s).absentLong = true ∨ (portOf p s).retrainAsked = true → (portOf p s).phase ≠ .bringUp → (portOf p s).phase ≠ .off →
      let t : State := modPort p (fun y => { y with clock := true, faultMask := y.faultMask % 2 ^ pairCK }) s
      (leadOf p s ≠ p → exec (.sensorClockReturn p) s = .next (startRetrain [p] t)) ∧
      (leadOf p s = p → exec (.sensorClockReturn p) s =
        .next (startRetrain ((gangPorts s.cfg.accepted p).filter fun q => (portOf q t).clock) t))) ∧
  (∀ (p : Nat) (s : State), portLive p s = true → (portOf p s).phase = .bringUp → (portOf p s).clock = false →
      ∃ t, exec (.sensorClockTimeout p) s = .next t ∧ t.dev.state = .configError ∧ t.dev.powered = false ∧
        t.log = (raise 3 (portErr p 1) p [] s).log ∧ (p < s.cap.ports.length → (portOf p t).phase = .stopped)) ∧
  (∀ (p k : Nat) (obs : TrainObs) (s : State), portLive p s = true → (portOf p s).phase = .bringUp →
      obs.clockKHz = some k → clockOk p k s = true → p < s.cap.ports.length →
      (trainFaults p obs s = 0 → ∃ t, exec (.portBringUp p obs) s = .next t ∧ (portOf p t).clock = true ∧ (portOf p t).skip = true ∧
        (portOf p t).faultMask = 0 ∧ (portOf p t).trained = (trainDelays p obs s).1) ∧
      (maskStops p (trainFaults p obs s) s = true ∨ hasPair (trainFaults p obs s) pairCK = true →
        ∃ t, exec (.portBringUp p obs) s = .next t ∧ t.dev.state = .configError ∧ (portOf p t).phase = .stopped)) ∧
  (∀ (p : Nat) (s : State), portLive p s = true → (portOf p s).phase = .running → (portOf (leadOf p s) s).fv = false →
      (portOf p s).moved = false → calSets 0 p s ≠ [] →
      ∃ f : List Nat → List Nat, exec (.deskewUpdate p) s = .next (modPort p (fun y => { y with moved := true, delays := f y.delays }) s) ∧
        ∀ l : List Nat, (f l).length = l.length ∧
          ∀ (k : Nat) (d : Nat), l[k]? = some d → ∃ d', (f l)[k]? = some d' ∧ d' ≤ d + 1 ∧ d ≤ d' + 1)

/-- Frame and line events of a port. At a live port outside a frame with its clock and no new pair fault, FRAME_START
raises FV, closes the blanking window, and begins a frame of the port's seam with the seam's next number; a disabled
seam only marks the time. LINE_START counts a line and, when its gap is long enough, claims the ring slot the line
needs; a short gap drops the frame as a sync violation, and a skew as a gang disagreement. LINE_END without a fault
stores the port's pixels in the frame; a newly open pair drops the frame. FRAME_END lowers FV and ends the frame's
reception, and a frame with all its lines is whole. An event a port cannot see changes nothing. (Rests on R58, R59,
R61, R62, R74, R75.) -/
def Obligations.FrameSignals : Prop :=
  (∀ (p : Nat) (skews : List Int) (s : State), portLive p s = true → leadOf p s = p → (portOf p s).fv = false →
      (portOf p s).clock = true → (portOf p s).phase = .running → gangPorts s.cfg.accepted p = [p] →
      (portOf p s).newFaults = 0 →
      let u : State := modPort p (fun y => { y with fv := true, lv := false, skip := true, lines := 0 })
        (modCap (fun c => { c with ports := modMany [p] (fun y => { closeWindow (nowUnits s) y with moved := false }) c.ports }) s)
      (∀ n, portSeam p s = some n → s.pwr.entering = false →
        exec (.frameStart p skews) s = .next (beginFrame p n (skewsBad skews) u)) ∧
      (portSeam p s = none →
        exec (.frameStart p skews) s = .next (modPort p (fun y => { y with fvRise := some (nowUnits s), fvFall := none }) u))) ∧
  (∀ (p gap least : Nat) (skews : List Int) (s : State), portLive p s = true → (portOf p s).fv = true → (portOf p s).lv = false →
      least = (if (portOf p s).lines = 0 then cfgN F.SP_PORT_FV_EDGE_GAP p s else cfgN F.SP_PORT_LV_GAP p s) →
      let u : State := modPort p (fun y => { y with lv := true, lines := y.lines + 1 }) s
      (gap < least → exec (.lineStart p gap skews) s = .next (syncViolation p u)) ∧
      (least ≤ gap → lvSkewsBad skews = true → exec (.lineStart p gap skews) s = .next (gangDisagree p u)) ∧
      (least ≤ gap → lvSkewsBad skews = false → (portOf p s).skip = true ∨ portSeam p s = none →
        exec (.lineStart p gap skews) s = .next u) ∧
      (∀ n, least ≤ gap → lvSkewsBad skews = false → (portOf p s).skip = false → portSeam p s = some n →
        exec (.lineStart p gap skews) s = .next (if (seamOf n (claimStripe n u)).receiving = true then claimStripe n u
          else closeRecord n (portOf p s).lastNum [] (modPort p (fun y => { y with skip := true }) (claimStripe n u))))) ∧
  (∀ (p n : Nat) (b : List (Bool × Beat)) (s : State), portLive p s = true → (portOf p s).fv = true → (portOf p s).lv = true →
      gangPorts s.cfg.accepted p = [p] → portSeam p s = some n →
      let u : State := modPort p (fun y => { y with lv := false }) s
      ((portOf p s).skip = true → exec (.lineEnd p [b] [] []) s = .next u) ∧
      ((portOf p s).skip = false → exec (.lineEnd p [b] [] []) s =
        .next (storeLine p n (linePixels (depthBits (cfgN F.SP_PORT_DEPTH p s)) (gangBeats [validBeats p b u])) u)) ∧
      (∀ f, (portOf p s).skip = false → detected p 0 f s ≠ 0 → exec (.lineEnd p [b] [] f) s =
        .next (portDrop p (modPort p (fun y => { y with newFaults := y.newFaults ||| detected p 0 f s }) u)))) ∧
  (∀ (p gap : Nat) (s : State), portLive p s = true → (portOf p s).fv = true → (portOf p s).lv = false →
      cfgN F.SP_PORT_FV_EDGE_GAP p s ≤ gap → (portOf p s).skip = true → portSeam p s = none →
      gangPorts s.cfg.accepted p = [p] → (portOf p s).retrainAsked = false →
      ∃ t, exec (.frameEnd p gap) s = .next t ∧ (p < s.cap.ports.length → (portOf p t).fv = false ∧
        (portOf p t).fvFall = some (nowUnits s)) ∧ t.cap.seams = s.cap.seams) ∧
  (∀ (p gap n : Nat) (f : SeamFrame) (s : State), portLive p s = true → (portOf p s).fv = true → (portOf p s).lv = false →
      cfgN F.SP_PORT_FV_EDGE_GAP p s ≤ gap → (portOf p s).skip = false → portSeam p s = some n → receivingOf n s = some f →
      gangPorts s.cfg.accepted p = [p] → (portOf p s).retrainAsked = false → p < s.cap.ports.length → n < s.cap.seams.length →
      f.header.num = (portOf p s).lastNum → seamH s.cfg.accepted n ≤ f.lines.length →
      ∃ t, exec (.frameEnd p gap) s = .next t ∧ (portOf p t).fv = false ∧ (portOf p t).skip = true ∧
        (portOf p t).fvFall = some (nowUnits s) ∧ (seamOf n t).receiving = false ∧
        ∃ g ∈ (seamOf n t).frames, g.header = f.header ∧ g.lines = f.lines ∧ g.whole = true) ∧
  (∀ (p gap : Nat) (s : State) (sk : List Int) (b : List (List (Bool × Beat))) (f : List (Nat × PairFault)),
      (portOf p s).fv = false →
      exec (.lineStart p gap sk) s = .next s ∧ exec (.lineEnd p b sk f) s = .next s ∧ exec (.frameEnd p gap) s = .next s)

/-- The blanking window, script entries, triggers and readbacks of a port. BLANKING_WINDOW_OPEN, at or after SEQ_DELAY
from the fall of FV, opens the window and starts what the FIFO holds. An acknowledged entry moves the running script
on, or completes it; one that is not acknowledged, and a bus timeout, abandon it with error 0x02p7, and the next
script is considered. TRIGGER at a schedule point that has come asserts the trigger and arms the next point; once the
pulse has lasted its width its end lowers it. A readback that finds a ball at a rail marks it short, logs 0x02pA once,
and the next good one clears the mark. (Rests on R79, R80, R82, R83, R84, R87, R88.) -/
def Obligations.BlankingAndScripts : Prop :=
  (∀ (p n fall : Nat) (s : State), portLive p s = true → portSeam p s = some n → leadOf p s = p →
      (portOf p s).fvFall = some fall → (portOf p s).phase = .running → (portOf p s).windowOpen = false →
      (portOf p s).fv = false → fall + seqDelay p s ≤ nowUnits s →
      (portOf p s).windowFrame ≠ (portOf p s).lastNum ∨ (portOf p s).windowFrom ≠ fall + seqDelay p s →
      exec (.blankingWindowOpen p) s = .next (considerHead p 9 (loopTurn n (portOf p s).abandonedNow (modPort p (fun y => { y with
        windowOpen := true, deferred := false, windowFrom := fall + seqDelay p s
        windowTo := max (fall + seqDelay p s) (windowClose p s), windowFrame := (portOf p s).lastNum, hadWindow := true
        windows := (max (fall + seqDelay p s) (windowClose p s) - (fall + seqDelay p s)) :: y.windows.drop 1 }) s)))) ∧
  (∀ (p : Nat) (sc : Script) (s : State), (portOf p s).running = some sc → (portOf p s).pos + 1 < sc.entries.length →
      busDead p s = false → entOp (sc.entries.getD (portOf p s).pos 0) = 1 →
      exec (.scriptEntryComplete p .ack) s = .next (modPort p (fun y => { y with pos := y.pos + 1 }) s) ∧
      exec (.scriptEntryComplete p .nack) s = .next (considerHead p 9 (abandonScript p 7 s)) ∧
      exec (.controlBusTimeout p) s = .next (considerHead p 9 (abandonScript p 7 s))) ∧
  (∀ (p : Nat) (sc : Script) (s : State), (portOf p s).running = some sc → (portOf p s).pos + 1 = sc.entries.length →
      busDead p s = false → entOp (sc.entries.getD (portOf p s).pos 0) = 1 →
      exec (.scriptEntryComplete p .ack) s = .next (considerHead p 9 (completeScript p sc s))) ∧
  (∀ (p n : Nat) (s : State), portLive p s = true → portSeam p s = some n → leadOf p s = p → (portOf p s).suppressed = false →
      F.SP_TRIG_ENABLE.on p (trigWords p s) = true → s.time.running = true → (portOf p s).trigOff = false → rebaseDue n s = false →
      (schedPoint n (nextTrigger n p s) s + portDelay p s ≤ (nowUnits s : Int) → ∃ t, exec (.trigger p) s = .next t ∧
        (p < s.cap.ports.length → (portOf p t).trigLevel = true ∧ (portOf p t).trigAt = nowUnits s ∧
          (portOf p t).awaiting = some (nowTod s, nextTrigger n p s)) ∧
        (n < s.time.exp.length → (t.time.exp.getD n {}).n = nextTrigger n p s + 1 ∧
          (t.time.exp.getD n {}).last = some (schedPoint n (nextTrigger n p s) s + portDelay p s))) ∧
      ((nowUnits s : Int) < schedPoint n (nextTrigger n p s) s + portDelay p s → exec (.trigger p) s = .next s)) ∧
  (∀ (p : Nat) (s : State), portLive p s = true →
      ((portOf p s).trigAt + pulseUnits p s ≤ nowUnits s →
        exec (.triggerPulseEnd p) s = .next (modPort p (fun y => { y with trigLevel := false }) s)) ∧
      (nowUnits s < (portOf p s).trigAt + pulseUnits p s → exec (.triggerPulseEnd p) s = .next s)) ∧
  (∀ (n : Nat) (s : State), blkOn .sensor s = true → cfgB F.SP_TRIG_ENABLE n s = true → (portOf n s).trigOff = false →
      ((portOf n s).trigShort = false → exec (.outputReadback (.xtrig n) .atRail) s =
        .next (raise 1 (portErr n 0xA) n (faultDetail .atRail) (modPort n (fun q => { q with trigShort := true, trigOff := false }) s))) ∧
      ((portOf n s).trigShort = true → exec (.outputReadback (.xtrig n) .atRail) s =
        .next (modPort n (fun q => { q with trigShort := true, trigOff := false }) s)) ∧
      exec (.outputReadback (.xtrig n) .good) s = .next (modPort n (fun q => { q with trigShort := false, trigOff := false }) s))

/-- A status request without arguments is answered and changes nothing else. For each row, in a started role that has
its block: a request for one of its codes (one for each instance) at the front of a channel that takes the code
completes. It is accepted with the row's number of reply words by the path it came by; the message leaves the queue,
the channel counts a handled message, and nothing else changes. This covers the status rows of the device, the ports,
seams, front end, taps, adits, loops, compressor, codec, recorder, endpoint, links, outputs, time, island, redundancy,
viewfinder, audio, DRAM, Survey and update. (Rests on R90, R126, R159, R198, R226, R265, R313, R359, R388, R463, R484,
R646.) -/
def Obligations.StatusMessages : Prop :=
  (∀ (c tag : Nat) (p : Path) (s : State), routed c 0x0100 = true → AtFront c p 0x0100 tag [] s → Started s →
      hasBlk .always s = true → ∃ rep : List Nat, rep.length = 7 ∧
        exec (.deviceStatus c) s = .next (replied (request1 c p 0x0100 tag []) rep (popMsg c s))) ∧
  (∀ (i c tag : Nat) (p : Path) (s : State), i < 4 → routed c (0x0200 + 16 * i) = true → AtFront c p (0x0200 + 16 * i) tag [] s → Started s →
      hasBlk .sensor s = true → ∃ rep : List Nat, rep.length = 7 ∧
        exec (.portStatus c) s = .next (replied (request1 c p (0x0200 + 16 * i) tag []) rep (popMsg c s))) ∧
  (∀ (i c tag : Nat) (p : Path) (s : State), i < 8 → routed c (0x0300 + 16 * i) = true → AtFront c p (0x0300 + 16 * i) tag [] s → Started s →
      hasBlk .ingest s = true → ∃ rep : List Nat, rep.length = 7 ∧
        exec (.seamStatus c) s = .next (replied (request1 c p (0x0300 + 16 * i) tag []) rep (popMsg c s))) ∧
  (∀ (i c tag : Nat) (p : Path) (s : State), i < 8 → routed c (0x0400 + i) = true → AtFront c p (0x0400 + i) tag [] s → Started s →
      hasBlk .frontHead s = true → ∃ rep : List Nat, rep.length = 6 ∧
        exec (.frontEndStatus c) s = .next (replied (request1 c p (0x0400 + i) tag []) rep (popMsg c s))) ∧
  (∀ (i c tag : Nat) (p : Path) (s : State), i < 8 → routed c (0x0500 + 16 * i) = true → AtFront c p (0x0500 + 16 * i) tag [] s → Started s →
      hasBlk .colour s = true → ∃ rep : List Nat, rep.length = 5 ∧
        exec (.tapStatus c) s = .next (replied (request1 c p (0x0500 + 16 * i) tag []) rep (popMsg c s))) ∧
  (∀ (i c tag : Nat) (p : Path) (s : State), i < 4 → routed c (0x0430 + i) = true → AtFront c p (0x0430 + i) tag [] s → Started s →
      hasBlk .colour s = true → ∃ rep : List Nat, rep.length = 3 ∧
        exec (.aditStatus c) s = .next (replied (request1 c p (0x0430 + i) tag []) rep (popMsg c s))) ∧
  (∀ (i c tag : Nat) (p : Path) (s : State), i < 8 → routed c (0x0610 + i) = true → AtFront c p (0x0610 + i) tag [] s → Started s →
      hasBlk .colour s = true → ∃ rep : List Nat, rep.length = 7 ∧
        exec (.loopStatus c) s = .next (replied (request1 c p (0x0610 + i) tag []) rep (popMsg c s))) ∧
  (∀ (c tag : Nat) (p : Path) (s : State), routed c 0x0700 = true → AtFront c p 0x0700 tag [] s → Started s →
      hasBlk .compressor s = true → ∃ rep : List Nat, rep.length = 7 ∧
        exec (.compressorStatus c) s = .next (replied (request1 c p 0x0700 tag []) rep (popMsg c s))) ∧
  (∀ (i c tag : Nat) (p : Path) (s : State), i < 4 → routed c (0x0708 + i) = true → AtFront c p (0x0708 + i) tag [] s → Started s →
      hasBlk .compressor s = true → ∃ rep : List Nat, rep.length = 7 ∧
        exec (.aditCompressionStatus c) s = .next (replied (request1 c p (0x0708 + i) tag []) rep (popMsg c s))) ∧
  (∀ (i c tag : Nat) (p : Path) (s : State), i < 8 → routed c (0x0800 + i) = true → AtFront c p (0x0800 + i) tag [] s → Started s →
      hasBlk .codec s = true → ∃ rep : List Nat, rep.length = 7 ∧
        exec (.streamStatus c) s = .next (replied (request1 c p (0x0800 + i) tag []) rep (popMsg c s))) ∧
  (∀ (c tag : Nat) (p : Path) (s : State), routed c 0x0900 = true → AtFront c p 0x0900 tag [] s → Started s →
      hasBlk .recorder s = true → ∃ rep : List Nat, rep.length = 7 ∧
        exec (.recorderStatus c) s = .next (replied (request1 c p 0x0900 tag []) rep (popMsg c s))) ∧
  (∀ (c tag : Nat) (p : Path) (s : State), routed c 0x0A00 = true → AtFront c p 0x0A00 tag [] s → Started s →
      hasBlk .endpoint s = true → ∃ rep : List Nat, rep.length = 7 ∧
        exec (.endpointStatus c) s = .next (replied (request1 c p 0x0A00 tag []) rep (popMsg c s))) ∧
  (∀ (i c tag : Nat) (p : Path) (s : State), i < 8 → routed c (0x0C00 + 16 * i) = true → AtFront c p (0x0C00 + 16 * i) tag [] s → Started s →
      hasBlk .shaft s = true → ∃ rep : List Nat, rep.length = 7 ∧
        exec (.linkStatus c) s = .next (replied (request1 c p (0x0C00 + 16 * i) tag []) rep (popMsg c s))) ∧
  (∀ (c tag : Nat) (p : Path) (s : State), routed c 0x0C80 = true → AtFront c p 0x0C80 tag [] s → Started s →
      hasBlk .cage s = true → ∃ rep : List Nat, rep.length = 7 ∧
        exec (.linkStatus c) s = .next (replied (request1 c p 0x0C80 tag []) rep (popMsg c s))) ∧
  (∀ (i c tag : Nat) (p : Path) (s : State), i < 4 → routed c (0x0D00 + i) = true → AtFront c p (0x0D00 + i) tag [] s → Started s →
      hasBlk .media s = true → ∃ rep : List Nat, rep.length = 7 ∧
        exec (.sdiStatus c) s = .next (replied (request1 c p (0x0D00 + i) tag []) rep (popMsg c s))) ∧
  (∀ (i c tag : Nat) (p : Path) (s : State), i < 4 → routed c (0x0D08 + i) = true → AtFront c p (0x0D08 + i) tag [] s → Started s →
      hasBlk .media s = true → ∃ rep : List Nat, rep.length = 7 ∧
        exec (.macStatus c) s = .next (replied (request1 c p (0x0D08 + i) tag []) rep (popMsg c s))) ∧
  (∀ (i c tag : Nat) (p : Path) (s : State), i < 16 → routed c (0x0D10 + i) = true → AtFront c p (0x0D10 + i) tag [] s → Started s →
      hasBlk .media s = true → ∃ rep : List Nat, rep.length = 6 ∧
        exec (.senderStatus c) s = .next (replied (request1 c p (0x0D10 + i) tag []) rep (popMsg c s))) ∧
  (∀ (c tag : Nat) (p : Path) (s : State), routed c 0x0E00 = true → AtFront c p 0x0E00 tag [] s → Started s →
      hasBlk .always s = true → ∃ rep : List Nat, rep.length = 7 ∧
        exec (.timeStatus c) s = .next (replied (request1 c p 0x0E00 tag []) rep (popMsg c s))) ∧
  (∀ (c tag : Nat) (p : Path) (s : State), routed c 0x0F00 = true → AtFront c p 0x0F00 tag [] s → Started s →
      hasBlk .always s = true → ∃ rep : List Nat, rep.length = 7 ∧
        exec (.islandStatus c) s = .next (replied (request1 c p 0x0F00 tag []) rep (popMsg c s))) ∧
  (∀ (c tag : Nat) (p : Path) (s : State), routed c 0x1000 = true → AtFront c p 0x1000 tag [] s → Started s →
      hasBlk .always s = true → ∃ rep : List Nat, rep.length = 7 ∧
        exec (.redundancyStatus c) s = .next (replied (request1 c p 0x1000 tag []) rep (popMsg c s))) ∧
  (∀ (i c tag : Nat) (p : Path) (s : State), i < 2 → routed c (0x1100 + i) = true → AtFront c p (0x1100 + i) tag [] s → Started s →
      hasBlk .media s = true → ∃ rep : List Nat, rep.length = 7 ∧
        exec (.viewfinderStatus c) s = .next (replied (request1 c p (0x1100 + i) tag []) rep (popMsg c s))) ∧
  (∀ (i c tag : Nat) (p : Path) (s : State), i < 8 → routed c (0x1200 + i) = true → AtFront c p (0x1200 + i) tag [] s → Started s →
      hasBlk .media s = true → ∃ rep : List Nat, rep.length = 6 ∧
        exec (.audioStatus c) s = .next (replied (request1 c p (0x1200 + i) tag []) rep (popMsg c s))) ∧
  (∀ (i c tag : Nat) (p : Path) (s : State), i < 8 → routed c (0x1300 + i) = true → AtFront c p (0x1300 + i) tag [] s → Started s →
      hasBlk .dram s = true → ∃ rep : List Nat, rep.length = 7 ∧
        exec (.channelStatus c) s = .next (replied (request1 c p (0x1300 + i) tag []) rep (popMsg c s))) ∧
  (∀ (c tag : Nat) (p : Path) (s : State), routed c 0x1512 = true → AtFront c p 0x1512 tag [] s → Started s →
      hasBlk .always s = true → ∃ rep : List Nat, rep.length = 1 ∧
        exec (.surveyStatus c) s = .next (replied (request1 c p 0x1512 tag []) rep (popMsg c s))) ∧
  (∀ (c tag : Nat) (p : Path) (s : State), routed c 0x1523 = true → AtFront c p 0x1523 tag [] s → Started s →
      hasBlk .always s = true → ∃ rep : List Nat, rep.length = 3 ∧
        exec (.updateStatus c) s = .next (replied (request1 c p 0x1523 tag []) rep (popMsg c s)))

/-- Status requests with arguments, and those that change what they report. In a started role, with the request at the
front of a channel that takes its code: SETTINGS_READ of n words (1 to 6) that the page has answers those words;
ADMISSION_REPORT answers the named term's identity, value and limit, with the fails bit; CLIP_QUERY answers the clip's
directory state first; PLAYBACK_STATUS answers the decoder's playback; POWER_STATUS of a rail below 14 answers the
rail's reading, lowest and highest; MAILBOX_STATUS answers the channel's receiver, words waiting and counts and the
bulk window's holder; ERROR_QUEUE_STATUS answers the queue and, on request, clears the lost flag alone;
PTP_PORT_STATUS answers and clears OVERFLOW; HEAD_PRIMARY_STATUS answers on a head and is refused with class 3
elsewhere. (Rests on R55, R359, R484, R505, R586, R671, R697, R698, R767, R806.) -/
def Obligations.StatusWithArguments : Prop :=
  (∀ (w : Word) (c tag : Nat) (p : Path) (s : State), c < 14 → AtFront c p 0x0105 tag [w] s → Started s →
      w.toNat &&& 0xFFFFFF07 = w.toNat → 0 < w.toNat % 8 → w.toNat % 8 < 7 → bits w.toNat 31 16 ≠ 0x0F00 →
      pageReserved (request1 c p 0x0105 tag [w]) = false →
      (∃ pg, pageOf (bits w.toNat 31 16) = some pg ∧ bits w.toNat 15 8 + w.toNat % 8 ≤ pg.1.words) →
      exec (.settingsRead c) s = .next (replied (request1 c p 0x0105 tag [w])
        ((List.range (w.toNat % 8)).map fun i => wordOf (writtenWords s) (bits w.toNat 31 16) (bits w.toNat 15 8 + i)) (popMsg c s))) ∧
  (∀ (w : Word) (t : Term) (c tag : Nat) (p : Path) (s : State), c < 14 → AtFront c p 0x0110 tag [w] s → Started s →
      w.toNat < 65536 → reportTerm (request1 c p 0x0110 tag [w]) s = some t →
      exec (.admissionReport c) s = .next (replied (request1 c p 0x0110 tag [w])
        ([t.id + t.inst * 2 ^ 8 + b2n t.fails * 2 ^ 16 + b2n (!t.evaluated) * 2 ^ 17] ++ loWords 2 t.value ++ loWords 2 t.limit)
        (popMsg c s))) ∧
  (∀ (w : Word) (c tag : Nat) (p : Path) (s : State), c < 14 → AtFront c p 0x0903 tag [w] s → Started s →
      hasBlk .recorder s = true → w.toNat < 4095 →
      ∃ rep : List Nat, rep.length = 7 ∧ rep.headD 9 = dirState s.rcd.dir w.toNat ∧
        exec (.clipQuery c) s = .next (replied (request1 c p 0x0903 tag [w]) rep (popMsg c s))) ∧
  (∀ (w : Word) (c tag : Nat) (p : Path) (s : State), c < 14 → AtFront c p 0x0908 tag [w] s → Started s →
      hasBlk .recorder s = true → w.toNat < 8 →
      exec (.playbackStatus c) s = .next (replied (request1 c p 0x0908 tag [w])
        (let y := s.rcd.plays.getD w.toNat {}
         [y.state + y.clip * 4 + y.stream * 2 ^ 14] ++ loWords 2 y.lastNum ++ [y.units, y.failures]) (popMsg c s))) ∧
  (∀ (w : Word) (c tag : Nat) (p : Path) (s : State), c < 14 → AtFront c p 0x1700 tag [w] s → Started s → w.toNat < 14 →
      ∃ rep : List Nat, rep.length = 7 ∧ (rep.drop 1).take 3 =
          [(s.hf.rails.getD w.toNat {}).now, (s.hf.rails.getD w.toNat {}).low, (s.hf.rails.getD w.toNat {}).high] ∧
        exec (.powerStatus c) s = .next (replied (request1 c p 0x1700 tag [w]) rep (popMsg c s))) ∧
  (∀ (w : Word) (c tag : Nat) (p : Path) (s : State), c < 14 → AtFront c p 0x1400 tag [w] s → Started s → w.toNat < 16 →
      exec (.mailboxStatus c) s = .next (replied (request1 c p 0x1400 tag [w])
        (let ch := (popMsg c s).mbx.chans.getD w.toNat {}
         [receiverOf w.toNat s + b2n (s.mbx.asleep.contains (receiverOf w.toNat s)) * 2 ^ 3 + inWords w.toNat (popMsg c s) * 2 ^ 4,
          ch.handled, ch.refusals, ch.discarded, ch.tokensRefused, holderCode s.mbx.holder]) (popMsg c s))) ∧
  (∀ (w : Word) (c tag : Nat) (p : Path) (s : State), c < 14 → AtFront c p 0x1501 tag [w] s → Started s → w.toNat < 2 →
      ∃ rep : List Nat, rep.length = 3 ∧ exec (.errorQueueStatus c) s = .next (replied (request1 c p 0x1501 tag [w]) rep
        (if w = 1 then { popMsg c s with err := { s.err with lostFlag := false } } else popMsg c s))) ∧
  (∀ (m c tag : Nat) (p : Path) (s : State), m < 4 → c < 14 → AtFront c p (0x0E08 + m) tag [] s → Started s →
      hasBlk .media s = true →
      ∃ rep : List Nat, rep.length = 6 ∧ exec (.ptpPortStatus c) s = .next (replied (request1 c p (0x0E08 + m) tag []) rep
        (modPtp m (fun q => { q with overflow := false }) (popMsg c s)))) ∧
  (∀ (c tag : Nat) (p : Path) (s : State), c < 14 → AtFront c p 0x1004 tag [] s → Started s → s.dev.role = .head →
      exec (.headPrimaryStatus c) s = .next (replied (request1 c p 0x1004 tag [])
        [s.red.primary.getD 0xF + b2n s.red.released * 16, s.red.eh, s.red.accepted, s.red.refused, s.red.ctrlDiscarded]
        (popMsg c s))) ∧
  (∀ (c tag : Nat) (p : Path) (s : State), c < 14 → AtFront c p 0x1004 tag [] s → Started s → s.dev.role ≠ .head →
      exec (.headPrimaryStatus c) s = .next (refused (request1 c p 0x1004 tag []) 3 0 0 (popMsg c s)))

/-- A privileged request that opens a token sequence is held. Each row, when a request for its code with PRIV and MORE
set is at the front of a channel, takes the request off the queue and holds it with its path and the time, and changes
nothing else: no effect, no reply and no count until its token completes. The rows are the twelve privileged ones of
R696, and profile select and settings write, which may carry a token. (Rests on R692, R695, R696.) -/
def Obligations.PrivilegedRequestsAreHeld : Prop :=
  ∀ (c tag : Nat) (p : Path) (args : List Word) (s : State), args.length < 15 →
    ∃ held : Nat → State, (held = fun k => modChan c (fun ch => { ch with
      held := ch.held ++ [⟨p, privHeader k (args.length + 1) tag :: args, [], s.dev.elapsed⟩] }) (popMsg c s)) ∧
    (PrivAtFront c p 0x0103 tag args s → exec (.restart c) s = .next (held 0x0103)) ∧
    (PrivAtFront c p 0x0904 tag args s → exec (.formatVolume c) s = .next (held 0x0904)) ∧
    (PrivAtFront c p 0x0905 tag args s → exec (.deleteClip c) s = .next (held 0x0905)) ∧
    (PrivAtFront c p 0x0E10 tag args s → exec (.arrayLock c) s = .next (held 0x0E10)) ∧
    (PrivAtFront c p 0x0E11 tag args s → exec (.arrayUnlock c) s = .next (held 0x0E11)) ∧
    (PrivAtFront c p 0x0F08 tag args s → exec (.islandSettings c) s = .next (held 0x0F08)) ∧
    (PrivAtFront c p 0x1002 tag args s → exec (.plannedSwitchOver c) s = .next (held 0x1002)) ∧
    (PrivAtFront c p 0x1511 tag args s → exec (.restoreFactory c) s = .next (held 0x1511)) ∧
    (PrivAtFront c p 0x1520 tag args s → exec (.updateBegin c) s = .next (held 0x1520)) ∧
    (PrivAtFront c p 0x1602 tag args s → exec (.ownerKeyInstall c) s = .next (held 0x1602)) ∧
    (PrivAtFront c p 0x1603 tag args s → exec (.ownerKeyRevoke c) s = .next (held 0x1603)) ∧
    (PrivAtFront c p 0x1604 tag args s → exec (.debugUnlock c) s = .next (held 0x1604)) ∧
    (PrivAtFront c p 0x0102 tag args s → exec (.profileSelect c) s = .next (held 0x0102)) ∧
    (PrivAtFront c p 0x0104 tag args s → exec (.settingsWrite c) s = .next (held 0x0104))

/-- The last part of a valid token runs the request it authorises. When part 5 of a sequence comes in time with a
valid token, TOKEN_PART, and the held request's own row, use up the sequence and the nonce and run the held request
with its effect and reply: RESTART starts from step 1; FORMAT_VOLUME, DELETE_CLIP, ARRAY_LOCK, ARRAY_UNLOCK,
ISLAND_SETTINGS, PLANNED_SWITCH_OVER, RESTORE_FACTORY, UPDATE_BEGIN, OWNER_KEY_INSTALL, OWNER_KEY_REVOKE and
DEBUG_UNLOCK have the effects of their rules, under the conditions each gives. (Rests on R671, R692, R694, R698, R699,
R740, R753.) -/
def Obligations.TokenCompletesRequest : Prop :=
  (∀ (c tag : Nat) (p : Path) (ws : List Word) (s : State), c < 14 → LastPart c p 0x0103 tag [] ws s →
      s.dev.state = .running → s.pwr.thermallyOff = false →
      exec (.tokenPart c) s = .next (replied (requestP c p 0x0103 tag []) [] (restartDevice (tokenDone c p ws s))) ∧
      exec (.restart c) s = .next (replied (requestP c p 0x0103 tag []) [] (restartDevice (tokenDone c p ws s))) ∧
      (restartDevice (tokenDone c p ws s)).dev.state = .starting ∧ (restartDevice (tokenDone c p ws s)).log = s.log) ∧
  (∀ (w : Word) (c tag : Nat) (p : Path) (ws : List Word) (s : State), c < 14 → LastPart c p 0x0904 tag [w] ws s → Started s →
      w.toNat < 65536 → recOn s = true → s.rcd.clip = none → mayWrite s = true → s.rcd.stuck = false → maskPorts s ≠ [] →
      (∀ k ∈ maskPorts s, (ssdOf k s).present = true ∧ (ssdOf k s).failed = false ∧
        ssdUsable (cfgB F.REC_VOL_DUAL_PORT 0 s) (ssdOf k s) = true) →
      exec (.tokenPart c) s = exec (.formatVolume c) s ∧
      exec (.formatVolume c) s = .next (replied (requestP c p 0x0904 tag [w]) []
        (noticeNs (formatVolume w.toNat (tokenDone c p ws s))))) ∧
  (∀ (w : Word) (c tag : Nat) (p : Path) (ws : List Word) (s : State), c < 14 → LastPart c p 0x0905 tag [w] ws s → Started s →
      hasBlk .recorder s = true → w.toNat < 4095 → s.rcd.volume = 2 → s.rcd.clip = none → dirState s.rcd.dir w.toNat ≠ 0 →
      exec (.tokenPart c) s = exec (.deleteClip c) s ∧
      exec (.deleteClip c) s = .next (replied (requestP c p 0x0905 tag [w]) [] (deleteClip w.toNat (tokenDone c p ws s))) ∧
      ∀ e ∈ (deleteClip w.toNat (tokenDone c p ws s)).rcd.map, e.2.clip ≠ w.toNat) ∧
  (∀ (w0 w1 w2 w3 : Word) (c tag : Nat) (p : Path) (ws : List Word) (s : State), c < 14 →
      LastPart c p 0x0E10 tag [w0, w1, w2, w3] ws s → Started s → w0.toNat < 65536 → w3.toNat < 2 ^ 30 →
      bits (w1.toNat + w2.toNat * 2 ^ 32 + w3.toNat * 2 ^ 64) 45 16 < 1000000000 →
      cfgB F.TIME_ARRAY_ENABLE 0 s = true → s.time.locked = false →
      exec (.tokenPart c) s = exec (.arrayLock c) s ∧
      exec (.arrayLock c) s = .next (replied (requestP c p 0x0E10 tag [w0, w1, w2, w3]) [] { tokenDone c p ws s with
        time := { s.time with arrayId := w0.toNat, t0 := todUnpack (w1.toNat + w2.toNat * 2 ^ 32 + w3.toNat * 2 ^ 64), locked := true
                              exp := s.time.exp.map fun e => { e with rebase := true } } })) ∧
  (∀ (c tag : Nat) (p : Path) (ws : List Word) (s : State), c < 14 → LastPart c p 0x0E11 tag [] ws s → Started s →
      exec (.tokenPart c) s = exec (.arrayUnlock c) s ∧
      exec (.arrayUnlock c) s = .next (replied (requestP c p 0x0E11 tag []) []
        { tokenDone c p ws s with time := { s.time with locked := false } })) ∧
  (∀ (w0 w1 : Word) (c tag : Nat) (p : Path) (ws : List Word) (s : State), c = 15 → LastPart c p 0x0F08 tag [w0, w1] ws s → Started s →
      s.isl.running = true → w0.toNat &&& 0xEFF007FF = w0.toNat → w1.toNat % 65536 = 0 →
      1 ≤ w0.toNat % 2048 → w0.toNat % 2048 ≤ 1024 → 65536 ≤ w1.toNat → w1.toNat < 901 * 65536 →
      ∃ u : State, u.islNv.cfg = setWord (wordKey 0x0F00 0) w0.toNat (setWord (wordKey 0x0F00 1) w1.toNat
          (signAll 4 false (portSeams s) (tokenDone c p ws s)).islNv.cfg) ∧
        exec (.tokenPart c) s = exec (.islandSettings c) s ∧
      exec (.islandSettings c) s = .next (replied (requestP c p 0x0F08 tag [w0, w1]) [] u)) ∧
  (∀ (c tag : Nat) (p : Path) (ws : List Word) (s : State), c < 14 → LastPart c p 0x1002 tag [] ws s → Started s →
      s.dev.role = .body → redOn s = true → s.red.state = 5 → s.red.peer.map (·.state) = some 3 →
      exec (.tokenPart c) s = exec (.plannedSwitchOver c) s ∧
      exec (.plannedSwitchOver c) s = .next (replied (requestP c p 0x1002 tag []) []
        { tokenDone c p ws s with red := { s.red with switchDue := true } })) ∧
  (∀ (c tag : Nat) (p : Path) (ws : List Word) (s : State), c < 14 → LastPart c p 0x1511 tag [] ws s → Started s →
      s.hf.surveyRunning = [] →
      exec (.tokenPart c) s = exec (.restoreFactory c) s ∧
      exec (.restoreFactory c) s = .next (replied (requestP c p 0x1511 tag []) [] (raise 0 0x1518 noInst []
        { tokenDone c p ws s with hf := { s.hf with userA := none, userB := none } }))) ∧
  (∀ (w0 w1 : Word) (c tag : Nat) (p : Path) (ws : List Word) (s : State), c < 14 → LastPart c p 0x1520 tag [w0, w1] ws s →
      Started s → 1 ≤ w0.toNat → w0.toNat ≤ 5 → w1.toNat ≤ regionBytes w0.toNat s → updOpen s = false →
      exec (.tokenPart c) s = exec (.updateBegin c) s ∧
      exec (.updateBegin c) s = .next (replied (requestP c p 0x1520 tag [w0, w1]) [] { tokenDone c p ws s with
        hf := { s.hf with update := { state := .receiving, path := p, kind := w0.toNat, size := w1.toNat } } })) ∧
  (∀ (w0 w1 : Word) (c tag : Nat) (p : Path) (ws : List Word) (s : State), c < 14 → LastPart c p 0x1602 tag [w0, w1] ws s →
      Started s → w0.toNat < 4 → w1.toNat + 64 ≤ 0x100000 → holdsBulk p s = true → (ownerSlot w0.toNat s).state = 0 →
      onCurve (keyPoint (readBulk w1.toNat 64 s)).1 (keyPoint (readBulk w1.toNat 64 s)).2 = true →
      exec (.tokenPart c) s = exec (.ownerKeyInstall c) s ∧
      exec (.ownerKeyInstall c) s = .next (replied (requestP c p 0x1602 tag [w0, w1]) [] { tokenDone c p ws s with
        otp := { s.otp with queue := s.otp.queue ++ [.install w0.toNat (sha256 (readBulk w1.toNat 64 s))] } })) ∧
  (∀ (w : Word) (c tag : Nat) (p : Path) (ws : List Word) (s : State), c < 14 → LastPart c p 0x1603 tag [w] ws s → Started s →
      w.toNat < 4 → signedInForce w.toNat s = false → lastSlot w.toNat s = false →
      exec (.tokenPart c) s = exec (.ownerKeyRevoke c) s ∧
      exec (.ownerKeyRevoke c) s = .next (replied (requestP c p 0x1603 tag [w]) [] { tokenDone c p ws s with
        otp := { s.otp with queue := s.otp.queue ++ [.revoke w.toNat] } })) ∧
  (∀ (c tag : Nat) (p : Path) (ws : List Word) (s : State), c < 14 → LastPart c p 0x1604 tag [] ws s → Started s →
      exec (.tokenPart c) s = exec (.debugUnlock c) s ∧
      exec (.debugUnlock c) s = .next (replied (requestP c p 0x1604 tag []) []
        { tokenDone c p ws s with otp := { s.otp with queue := s.otp.queue ++ [.debugged] } }))

/-- A request is refused with the class of the first check that fails. A message whose code no message has is refused
with class 1 when a row of its channel runs; a request with a wrong COUNT or a reserved bit set with class 2, in every
state, role and whatever its authority; a message that is not of R667's list with class 3 in the configuration-error
and safe states; a message to a block the role lacks or that is fused off with class 3; a privileged request that
comes without PRIV, where state, role and block admit it, with class 4, which counts a refused token and logs 0x1403.
A refusal changes nothing but counts, the reply and that log entry. (Rests on R3, R15, R667, R674, R679, R695, R809.)
-/
def Obligations.OrderOfChecks : Prop :=
  (∀ (k c tag : Nat) (p : Path) (args : List Word) (rest : List InMsg) (s : State), k < 65536 → args.length < 15 →
      (s.mbx.chans.getD c {}).inq = ⟨p, header k (args.length + 1) tag :: args⟩ :: rest → (∀ m, rest.head? = some m → known m) →
      serves c s = true → openSeq c p s = none → msgDef k = none → k ≠ 0x1410 →
      ∀ t : State, exec (.deviceStatus c) (refused (request1 c p k tag args) 1 0 0 (popMsg c s)) = .next t →
        exec (.deviceStatus c) s = .next t) ∧
  (∀ (c tag : Nat) (p : Path) (w : Word) (s : State), c < 14 → AtFront c p 0x0100 tag [w] s →
      exec (.deviceStatus c) s = .next (refused (request1 c p 0x0100 tag [w]) 2 0 0 (popMsg c s))) ∧
  (∀ (c tag : Nat) (p : Path) (w : Word) (s : State), c < 14 → AtFront c p 0x1400 tag [w] s → 16 ≤ w.toNat →
      exec (.mailboxStatus c) s = .next (refused (request1 c p 0x1400 tag [w]) 2 0 0 (popMsg c s))) ∧
  (∀ (c tag : Nat) (p : Path) (w : Word) (s : State), c < 14 → AtFront c p 0x0103 tag [w] s →
      exec (.restart c) s = .next (refused (request1 c p 0x0103 tag [w]) 2 0 0 (popMsg c s))) ∧
  (∀ (c tag : Nat) (p : Path) (s : State), c < 14 → AtFront c p 0x0E00 tag [] s → s.dev.state = .configError ∨ s.dev.state = .safe →
      exec (.timeStatus c) s = .next (refused (request1 c p 0x0E00 tag []) 3 0 0 (popMsg c s))) ∧
  (∀ (i c tag : Nat) (p : Path) (s : State), i < 8 → c < 14 → AtFront c p (0x0800 + i) tag [] s → s.dev.state = .running →
      s.pwr.thermallyOff = false → s.dev.part = .h ∨ s.dev.role = .head →
      exec (.streamStatus c) s = .next (refused (request1 c p (0x0800 + i) tag []) 3 0 0 (popMsg c s))) ∧
  (∀ (c tag : Nat) (p : Path) (s : State), c < 14 → AtFront c p 0x1511 tag [] s → s.dev.state = .configError →
      exec (.restoreFactory c) s = .next (refused (request1 c p 0x1511 tag []) 3 0 0 (popMsg c s))) ∧
  (∀ x ∈ ([(.restart, 0x0103), (.arrayUnlock, 0x0E11), (.restoreFactory, 0x1511), (.debugUnlock, 0x1604)] : List ((Nat → Instr) × Nat)),
    ∀ (c tag : Nat) (p : Path) (s : State), c < 14 → AtFront c p x.2 tag [] s → Started s →
      exec (x.1 c) s = .next (deliver p c (replyWords (header x.2 1 tag).toNat (.refuse 4 0x1403 0)) (raise 0 0x1403 noInst []
        (modChan c (fun ch => { ch with handled := wrapInc 32 ch.handled, refusals := wrapInc 32 ch.refusals,
                                        tokensRefused := wrapInc 32 ch.tokensRefused }) (popMsg c s)))))

/-- A message enters an inbound queue whole or not at all. In either register view of every channel: a POST, or a
write of the post bit, whose message fits in the 8 words puts it whole at the end of the channel's inbound queue,
which all views share; one that does not fit leaves every inbound queue as it is. A datagram with a route does the
same with its words under its UDP path; one that does not fit is refused at once with class 5 and logged, and one
without a route is dropped, counted and logged. (Rests on R386, R680, R684, R686.) -/
def Obligations.MailboxQueues : Prop :=
  (∀ (v : View) (c : Nat) (s : State), viewOn v s = true → c < 16 → c < s.mbx.chans.length →
      ∃ t, exec (.post v c) s = .next t ∧ exec (.registerWrite v (0x100 * c + 0x20) 1) s = .next t ∧
        (inWords c s + (postWords (viewRegs v c s).tx).length ≤ 8 →
          (t.mbx.chans.getD c {}).inq = (s.mbx.chans.getD c {}).inq ++ [⟨.regs v, postWords (viewRegs v c s).tx⟩] ∧ inWords c t ≤ 8) ∧
        (8 < inWords c s + (postWords (viewRegs v c s).tx).length → t.mbx.chans = s.mbx.chans) ∧
        (∀ n, n ≠ c → (t.mbx.chans.getD n {}).inq = (s.mbx.chans.getD n {}).inq)) ∧
  (∀ (mac ip port c : Nat) (words : List Word) (s : State), macOn mac s = true → (s.out.macs.getD mac {}).up = true →
    cfgN F.ETH_MBX_UDP_PORT mac s ≠ 0 → c < 16 → words ≠ [] →
    (hasRoute mac ip s = true → inWords c s + words.length ≤ 8 →
      exec (.mailboxDatagram mac ip port c words) s = .next (modChan c (fun ch => { ch with inq := ch.inq ++ [⟨.udp ip port, words⟩] }) s)) ∧
    (hasRoute mac ip s = true → 8 < inWords c s + words.length →
      exec (.mailboxDatagram mac ip port c words) s = .next (deliver (.udp ip port) c
        (replyWords (words.headD 0).toNat (.refuse 5 0x1404 0)) (raise 0 0x1404 noInst [] s))) ∧
    (hasRoute mac ip s = false →
      exec (.mailboxDatagram mac ip port c words) s = .next (raise 0 0x1404 noInst []
        { s with mbx := { s.mbx with droppedUdp := satInc 32 s.mbx.droppedUdp } })))

/-- Acknowledgement, register writes, timers, wakes and the bulk window. ACK takes the oldest reply out of a view's
outbound queue and lets held replies follow while 8 words suffice; a write of the acknowledge bit does the same; a
write of a transmit register stores the word. A held reply that expires is dropped, counted and logged once per run;
an open token sequence that times out is refused with class 4; a wake makes a receiver serve its channels again; a
hold that expires frees the bulk window with its contents kept; bytes the holder writes read back, and another view's
writes are only counted. (Rests on R386, R681, R682, R683, R684, R685, R689, R690, R692.) -/
def Obligations.MailboxEvents : Prop :=
  (∀ (v : View) (c : Nat) (m : List Word) (q : List (List Word)) (s : State), viewOn v s = true → c < 16 →
      c < s.mbx.pcie.length → c < s.mbx.spi.length → (viewRegs v c s).outq = m :: q → (viewRegs v c s).waiting = [] →
      ∃ t, exec (.ack v c) s = .next t ∧ exec (.registerWrite v (0x100 * c + 0x60) 1) s = .next t ∧
        (viewRegs v c t).outq = q ∧ t.mbx.chans = s.mbx.chans) ∧
  (∀ (v : View) (c : Nat) (m h : List Word) (s : State), viewOn v s = true → c < 16 → c < s.mbx.pcie.length →
      c < s.mbx.spi.length → (viewRegs v c s).outq = [m] → (viewRegs v c s).waiting = [h] → h.length ≤ 8 →
      ∃ t, exec (.ack v c) s = .next t ∧ (viewRegs v c t).outq = [h] ∧ (viewRegs v c t).waiting = []) ∧
  (∀ (v : View) (c k : Nat) (w : Word) (s : State), viewOn v s = true → c < 16 → k < 8 →
      exec (.registerWrite v (0x100 * c + 4 * k) w) s = .next (modView v c (fun r => { r with tx := modAt r.tx k fun _ => w }) s)) ∧
  (∀ (v : View) (c : Nat) (m : List Word) (q : List (List Word)) (s : State), (viewRegs v c s).waiting = m :: q →
      exec (.replyHoldExpiry v c) s = .next (raiseOnce 0 0x1402 c []
        (modChan c (fun ch => { ch with discarded := wrapInc 32 ch.discarded }) (modView v c (fun r => { r with waiting := r.waiting.drop 1 }) s)))) ∧
  (∀ (c : Nat) (p : Path) (q : TokenSeq) (s : State), openSeq c p s = some q →
      ∃ t, exec (.tokenSequenceTimeout c p) s = .next t ∧ openSeq c p t = none ∧
        t.log.next = (raise 0 0x1403 noInst [] s).log.next) ∧
  (∀ (c recv : Nat) (s : State), handling s = true → receiverOf c s = recv →
      ∃ t, exec (.wakeComplete recv) s = .next t ∧ serves c t = true) ∧
  (∀ s : State, exec .bulkWindowHoldExpiry s = .next { s with mbx := { s.mbx with holder := none } }) ∧
  (∀ (v : View) (off : Nat) (data : List Byte) (s : State), viewOn v s = true → off + data.length ≤ 0x100000 → 0 < data.length →
      v = .spi ∨ data.length ≤ 512 → holdsBulk (.regs v) s = true →
      ∃ t, exec (.bulkWindowWrite v off data) s = .next t ∧ readBulk off data.length t = data ∧
        ∀ a, a < off ∨ off + data.length ≤ a → bulkByte t a = bulkByte s a) ∧
  (∀ (v : View) (off : Nat) (data : List Byte) (s : State), viewOn v s = true → off < 0x100000 → v = .spi ∨ data.length ≤ 512 →
      holdsBulk (.regs v) s = false →
      exec (.bulkWindowWrite v off data) s = .next { s with mbx := { s.mbx with ignoredWrites := satInc 32 s.mbx.ignoredWrites } })

/-- Claiming and releasing the bulk window, and the nonce. A claim by a register path of a free window makes that view
the holder, and a claim while another view holds it, or by a path that is not a register view, is refused with class
5; a release by the holder frees it. NONCE answers four words and puts them in place of any nonce the path had;
another path's nonce stays. (Rests on R689, R690, R691.) -/
def Obligations.WindowAndNonceMessages : Prop :=
  (∀ (c tag : Nat) (v : View) (s : State), c < 14 → AtFront c (.regs v) 0x1402 tag [1] s → Started s → s.mbx.holder = none →
      ∃ u, exec (.bulkWindowClaim c) s = .next (replied (request1 c (.regs v) 0x1402 tag [1]) [] u) ∧ u.mbx.holder = some v) ∧
  (∀ (c tag : Nat) (v w : View) (s : State), c < 14 → AtFront c (.regs v) 0x1402 tag [1] s → Started s → s.mbx.holder = some w →
      v ≠ w → exec (.bulkWindowClaim c) s = .next (refused (request1 c (.regs v) 0x1402 tag [1]) 5 0 0 (popMsg c s))) ∧
  (∀ (c tag : Nat) (p : Path) (s : State), c < 14 → AtFront c p 0x1402 tag [1] s → Started s → pathView p = none →
      exec (.bulkWindowClaim c) s = .next (refused (request1 c p 0x1402 tag [1]) 5 0 0 (popMsg c s))) ∧
  (∀ (c tag : Nat) (v : View) (s : State), c < 14 → AtFront c (.regs v) 0x1402 tag [0] s → Started s → s.mbx.holder = some v →
      exec (.bulkWindowRelease c) s = .next (replied (request1 c (.regs v) 0x1402 tag [0]) []
        { popMsg c s with mbx := { (popMsg c s).mbx with holder := none } })) ∧
  (∀ (c tag : Nat) (p : Path) (s : State), c < 14 → AtFront c p 0x1401 tag [] s → Started s →
      ∃ (n : Nonce) (u : State), n.path = p ∧ n.words.length = 4 ∧ n.since = s.dev.elapsed ∧
        exec (.nonce c) s = .next (replied (request1 c p 0x1401 tag []) (n.words.map BitVec.toNat) u) ∧
        n ∈ u.mbx.nonces ∧ (∀ x ∈ u.mbx.nonces, x.path = p → x = n) ∧ ∀ x ∈ s.mbx.nonces, x.path ≠ p → x ∈ u.mbx.nonces)

/-- MAC links, received frames, array datagrams and scheduled commands. A MAC of a started role with its lane comes up
with no address known, reporting the multicast groups it joins, and goes down, its loss logged as Degraded. A frame a
MAC that is up receives is counted: an echo or an ARP request for its address is answered, an ARP reply is kept, a
pause is counted and discarded, another kind is discarded; of a frame given with its length and VLAN tags, one over
9,216 bytes or with other tags than the port's is discarded, and the rest is taken as its kind. An array datagram that
names this array and carries no privileged message runs its message without a reply; any other is discarded, counted
and logged. The scheduled entry that is due leaves the table and runs with its reply; when its message is refused that
is logged, and when a step of TOD passed its time that is logged first. (Rests on R477, R478, R483, R510, R513, R514.)
-/
def Obligations.EthernetAndDatagrams : Prop :=
  (∀ (m : Nat) (s : State), macOn m s = true → m < s.out.macs.length →
      ∃ t, exec (.macLinkUp m) s = .next t ∧ (t.out.macs.getD m {}).up = true ∧ (t.out.macs.getD m {}).arp = [] ∧
        (macGroups m s = [] → (t.out.macs.getD m {}).last = [] ∧ (t.out.macs.getD m {}).sent = (s.out.macs.getD m {}).sent) ∧
        (macGroups m s ≠ [] → (t.out.macs.getD m {}).last = [igmpFrame m (macGroups m s) s] ∧
          (t.out.macs.getD m {}).sent = wrapInc 64 (s.out.macs.getD m {}).sent)) ∧
  (∀ (m : Nat) (s : State), macOn m s = true → (s.out.macs.getD m {}).up = true →
      exec (.macLinkDown m) s = .next (raise 1 (0x0D08 + m) m [] (modMac m (fun x => { x with up := false }) s))) ∧
  (∀ (m : Nat) (s : State), macOn m s = true → (s.out.macs.getD m {}).up = true → m < s.out.macs.length →
      (∀ ip icmp, ∃ t, exec (.ethernetFrameReceive m (.icmpEcho ip icmp)) s = .next t ∧
        t.out.macs.getD m {} = { s.out.macs.getD m {} with
          received := wrapInc 64 (s.out.macs.getD m {}).received, sent := wrapInc 64 (s.out.macs.getD m {}).sent
          last := [echoFrame m ip icmp s] }) ∧
      (∀ ip sip sm, ∃ t, exec (.ethernetFrameReceive m (.arpRequest ip sip sm)) s = .next t ∧
        (t.out.macs.getD m {}).received = wrapInc 64 (s.out.macs.getD m {}).received ∧
        (ip = cfgN F.ETH_IP_ADDR m s → (t.out.macs.getD m {}).sent = wrapInc 64 (s.out.macs.getD m {}).sent ∧
          (t.out.macs.getD m {}).last = [arpFrame m 2 sip sm s]) ∧
        (ip ≠ cfgN F.ETH_IP_ADDR m s → (t.out.macs.getD m {}).sent = (s.out.macs.getD m {}).sent)) ∧
      (∀ n tags k, (9216 < n ∨ tagsOk m tags s.cfg.accepted = false → ∃ t, exec (.ethernetFrameReceive m (.framed n tags k)) s = .next t ∧
          (t.out.macs.getD m {}).discarded = wrapInc 32 (s.out.macs.getD m {}).discarded ∧
          (t.out.macs.getD m {}).sent = (s.out.macs.getD m {}).sent) ∧
        (n ≤ 9216 → tagsOk m tags s.cfg.accepted = true →
          exec (.ethernetFrameReceive m (.framed n tags k)) s = exec (.ethernetFrameReceive m k) s)) ∧
      (∀ ip a, ∃ t, exec (.ethernetFrameReceive m (.arpReply ip a)) s = .next t ∧ (t.out.macs.getD m {}).arp.lookup ip = some a) ∧
      (∃ t, exec (.ethernetFrameReceive m .pause) s = .next t ∧
        (t.out.macs.getD m {}).pauses = wrapInc 32 (s.out.macs.getD m {}).pauses ∧
        (t.out.macs.getD m {}).discarded = wrapInc 32 (s.out.macs.getD m {}).discarded) ∧
      (∃ t, exec (.ethernetFrameReceive m .other) s = .next t ∧
        (t.out.macs.getD m {}).discarded = wrapInc 32 (s.out.macs.getD m {}).discarded)) ∧
  (∀ (m : Nat) (w : Word) (words : List Word) (s : State), macOn m s = true → (s.out.macs.getD m {}).up = true →
      cfgB F.TIME_ARRAY_ENABLE 0 s = true → cfgN F.TIME_ARRAY_GROUP_PORT 0 s ≠ 0 → cfgN F.TIME_ARRAY_ARRAY_MAC 0 s = m →
      (w.toNat / 65536 = s.time.arrayId → words ≠ [] → hdrPriv (words.headD 0).toNat = false →
        privilegedCode (hdrCode (words.headD 0).toNat) = false →
        exec (.arrayDatagram m [w] words) s =
          .next (runReq (msgDef (hdrCode (words.headD 0).toNat)) ⟨0, .array, words⟩ none s).2) ∧
      (w.toNat / 65536 ≠ s.time.arrayId ∨ hdrPriv (words.headD 0).toNat = true →
        exec (.arrayDatagram m [w] words) s = .next (raise 0 0x0E12 noInst []
          { s with time := { s.time with arrayRejected := wrapInc 32 s.time.arrayRejected } }))) ∧
  (∀ (i : Nat) (e : Sched) (s : State), s.dev.state = .running → s.time.late = [] → s.time.table[i]? = some (some e) →
      todUnits e.target ≤ todUnits (nowTod s) → (∀ k x, s.time.table[k]? = some (some x) → k ≠ i → todUnits e.target < todUnits x.target) →
      exec .scheduledCommandDue s = .next (runEntryMsg e { s with time := { s.time with table := s.time.table.set i none } })) ∧
  (∀ (i : Nat) (l : List Nat) (e : Sched) (s : State), s.dev.state = .running → s.time.late = i :: l → s.time.table[i]? = some (some e) →
      exec .scheduledCommandDue s = .next (runEntryMsg e (raise 0 0x0E10 noInst []
        { s with time := { s.time with table := s.time.table.set i none, late := (i :: l).filter fun j => j != i } }))) ∧
  (∀ (e : Sched) (s : State), openSeq e.chan e.path s = none →
      (∀ ws u, runReq (msgDef (hdrCode (e.words.getD 0 0).toNat)) ⟨e.chan, e.path, e.words⟩ none s = (.accept ws, u) →
        runEntryMsg e s = answer (msgDef (hdrCode (e.words.getD 0 0).toNat)) ⟨e.chan, e.path, e.words⟩ (.accept ws) u) ∧
      (∀ cls err d u, runReq (msgDef (hdrCode (e.words.getD 0 0).toNat)) ⟨e.chan, e.path, e.words⟩ none s = (.refuse cls err d, u) →
        runEntryMsg e s = raise 0 0x0E13 noInst []
          (answer (msgDef (hdrCode (e.words.getD 0 0).toNat)) ⟨e.chan, e.path, e.words⟩ (.refuse cls err d) u)))

/-- Retrain, sensor write, LUT load, adit read, statistics fetch and lock broadcast. In a started role with the block,
the request at the front of a channel: RETRAIN retrains at once a single port outside a frame with its clock;
SENSOR_WRITE queues a script whose entries are valid, where the FIFO has room and the bus a mode, and is refused with
class 5 when the FIFO is full; LUT_LOAD by the window's holder stores a piece and marks the units as loading, or, with
the last piece and its right CRC, makes the LUT selectable; ADIT_READ copies the held buffer's bytes; STATISTICS_FETCH
copies the newest statistics, each refused with class 5 without the window; LOCK_BROADCAST reaches the followers of
its leader without a reply. (Rests on R71, R81, R84, R159, R181, R196, R198, R221.) -/
def Obligations.CaptureMessages : Prop :=
  (∀ (q c tag : Nat) (p : Path) (s : State), q < 4 → c < 14 → AtFront c p (0x0201 + 16 * q) tag [] s → Started s →
      hasBlk .sensor s = true → gangPorts s.cfg.accepted q = [q] → leadOf q s = q → (portOf q s).phase = .running →
      (portOf q s).fv = false → (portOf q s).clock = true →
      ∃ u, exec (.retrain c) s = .next (replied (request1 c p (0x0201 + 16 * q) tag []) [] u) ∧
        u.cap.ports = (startRetrain [q] s).cap.ports) ∧
  (∀ (q c tag : Nat) (a b : Word) (w : Word) (p : Path) (s : State), q < 4 → c < 14 →
      AtFront c p (0x0202 + 16 * q) tag [w, a, b] s → Started s → hasBlk .sensor s = true → w.toNat < 0x8000 →
      entryBad (a.toNat + b.toNat * 2 ^ 32) = false → 8 ≤ (portOf q s).fifo.length →
      exec (.sensorWrite c) s = .next (refused (request1 c p (0x0202 + 16 * q) tag [w, a, b]) 5 (portErr q 8) 0
        (raise 0 (portErr q 8) q [] (popMsg c s)))) ∧
  (∀ (q c tag : Nat) (a b : Word) (w : Word) (p : Path) (s t : State), q < 4 → c < 14 →
      AtFront c p (0x0202 + 16 * q) tag [w, a, b] s → Started s → hasBlk .sensor s = true → w.toNat < 0x8000 →
      entryBad (a.toNat + b.toNat * 2 ^ 32) = false → entOp (a.toNat + b.toNat * 2 ^ 32) ≠ 0 → (portOf q s).fifo.length < 8 →
      cfgN F.SP_SCBUS_MODE q s ≠ 0 →
      queueScript q ⟨w.toNat, [a.toNat + b.toNat * 2 ^ 32], .message⟩ (popMsg c s) = (0, t) →
      exec (.sensorWrite c) s =
        .next (replied (request1 c p (0x0202 + 16 * q) tag [w, a, b]) [(portOf q s).fifo.length] t)) ∧
  (∀ (k c tag : Nat) (w off len : Word) (p : Path) (s : State), k < 8 → c < 14 → AtFront c p (0x0501 + 16 * k) tag [w, off, len] s →
      Started s → hasBlk .colour s = true → w.toNat < 112 → len.toNat ≤ 0x100000 → len.toNat % 6 = 0 →
      off.toNat + len.toNat ≤ lutSize false → holdsBulk p s = true → lutInUse w.toNat s = false →
      s.cap.luts.getD w.toNat .empty ≠ .loading → s.cap.lutLoads = [] → w.toNat < s.cap.luts.length →
      ∃ u, exec (.lutLoad c) s = .next (replied (request1 c p (0x0501 + 16 * k) tag [w, off, len]) [] u) ∧
        u.cap.luts.getD w.toNat .empty = .loading ∧
        u.cap.lutLoads = [⟨w.toNat, 0, overlay [] off.toNat (readBulk 0 len.toNat s)⟩]) ∧
  (∀ (k c tag : Nat) (w off len crc : Word) (data : List Byte) (p : Path) (s : State), k < 8 → c < 14 →
      AtFront c p (0x0501 + 16 * k) tag [w, off, len, crc] s → Started s → hasBlk .colour s = true → w.toNat = 0x200 + w.toNat % 128 →
      w.toNat % 128 < 112 → len.toNat ≤ 0x100000 → len.toNat % 6 = 0 → off.toNat + len.toNat = lutSize false →
      holdsBulk p s = true → lutInUse (w.toNat % 128) s = false → s.cap.lutLoads = [⟨w.toNat % 128, 0, data⟩] →
      (overlay data off.toNat (readBulk 0 len.toNat s)).length = lutSize false →
      crc32 (overlay data off.toNat (readBulk 0 len.toNat s)) = crc.toNat → w.toNat % 128 < s.cap.luts.length →
      ∃ u, exec (.lutLoad c) s = .next (replied (request1 c p (0x0501 + 16 * k) tag [w, off, len, crc]) [] u) ∧
        u.cap.luts.getD (w.toNat % 128) .empty = .valid 33 (halfwords (overlay data off.toNat (readBulk 0 len.toNat s))) ∧
        u.cap.lutLoads = []) ∧
  (∀ (n c tag : Nat) (off len rel : Word) (b : OutBuf) (p : Path) (s : State), n < 4 → c < 14 →
      AtFront c p (0x0434 + n) tag [off, len, rel] s → Started s → hasBlk .colour s = true → len.toNat ≤ 0x100000 → rel = 0 →
      holdsBulk p s = true → cfgB F.ADIT_ENABLE n s = true → cfgB F.ADIT_HOST_READ n s = true →
      hostHeld (s.cap.adits.getD n {}) = some b →
      exec (.aditRead c) s = .next (replied (request1 c p (0x0434 + n) tag [off, len, rel])
        (loWords 2 b.pic.header.num ++ [(((bufBytes b).drop off.toNat).take len.toNat).length])
        (writeBulk 0 (((bufBytes b).drop off.toNat).take len.toNat) (popMsg c s)))) ∧
  (∀ (n c tag : Nat) (w : Word) (p : Path) (s : State), n < 8 → c < 14 → AtFront c p (0x0600 + n) tag [w] s → Started s →
      hasBlk .frontBody s = true → w.toNat % 64 = 0 → w.toNat ≤ 0xE3FC0 →
      (holdsBulk p s = false → exec (.statisticsFetch c) s = .next (refused (request1 c p (0x0600 + n) tag [w]) 5 0 0 (popMsg c s))) ∧
      (∀ b, holdsBulk p s = true → newestStat (seamEpoch n s) (s.cap.stats.getD n {}) = some b →
        exec (.statisticsFetch c) s = .next (replied (request1 c p (0x0600 + n) tag [w])
          (loWords 2 b.data.num ++ [b.data.tag, 114752]) (writeBulk w.toNat (statBytes n b) (popMsg c s))))) ∧
  (∀ (c tag : Nat) (w1 w2 w3 w4 w5 w6 : Word) (p : Path) (s : State), c < 14 →
      AtFront c p 0x0628 tag [w1, w2, w3, w4, w5, w6] s → Started s → hasBlk .colour s = true →
      w1.toNat &&& 0xE7FFFFFF = w1.toNat → w5.toNat % 65536 = 0 →
      ∃ u : State, u = followAll (w1.toNat / 2 ^ 29) (bits w1.toNat 26 16) (w1.toNat % 65536) w4.toNat (w5.toNat / 65536)
          (w6.toNat / 65536) (w6.toNat % 65536) (sext 64 (w2.toNat + w3.toNat * 2 ^ 32)) (List.range 8) (popMsg c s) ∧
        exec (.lockBroadcast c) s = .next (modChan c (fun ch => { ch with handled := wrapInc 32 ch.handled }) u))

/-- A settings write and a profile change take effect whole or not at all. In a started role, a SETTINGS_WRITE of one
word of a page, whose fields it covers whole with values they take and that the permissions in force cover, puts the
word in force when no LUT it selects is loading, no check of a block or of admission newly fails and no loop owns a
gain it writes; without permission it is refused with class 3 and nothing changes; where admission fails it is refused
with class 6, logs the failing terms as Notices and changes no setting. PROFILE_SELECT of a profile the image holds
does the same with the profile's words and makes it the profile in force. (Rests on R54, R223, R656, R657, R659,
R809.) -/
def Obligations.SettingsMessages : Prop :=
  (∀ (c tag : Nat) (w1 m v : Word) (p : Path) (s : State), c < 14 → AtFront c p 0x0104 tag [w1, m, v] s → Started s →
      w1.toNat &&& 0xFFFFFF03 = w1.toNat → w1.toNat % 4 = 1 →
      pageHas 1 (request1 c p 0x0104 tag [w1, m, v]) = true →
      badWrite (w1.toNat / 65536, bits w1.toNat 15 8, m.toNat, v.toNat) = false →
      pageReserved (request1 c p 0x0104 tag [w1, m, v]) = false →
      rateRefusal [(w1.toNat / 65536, bits w1.toNat 15 8, m.toNat, v.toNat)] s = none →
      rcBreaks [(w1.toNat / 65536, bits w1.toNat 15 8, m.toNat, v.toNat)] s = false →
      ∃ l : List (Nat × Nat × Nat × Nat), l = [(w1.toNat / 65536, bits w1.toNat 15 8, m.toNat, v.toNat)] ∧
        (covered (permitOf false (w1.toNat / 65536, bits w1.toNat 15 8, m.toNat, v.toNat) s.cfg)
            (w1.toNat / 65536, bits w1.toNat 15 8, m.toNat, v.toNat) = false →
          exec (.settingsWrite c) s = .next (refused (request1 c p 0x0104 tag [w1, m, v]) 3 0 0 (popMsg c s))) ∧
        (covered (permitOf false (w1.toNat / 65536, bits w1.toNat 15 8, m.toNat, v.toNat) s.cfg)
            (w1.toNat / 65536, bits w1.toNat 15 8, m.toNat, v.toNat) = true →
          lutBusy (applyWrites l (writtenWords s)) s = [] →
          newFailures (codecChecks s.dev.role) (applyWrites l (writtenWords s)) s = [] →
          (runFailures (applyWrites l (writtenWords s)) s = [] → locksBalance l s = false →
            newFailures (fun x => trialChecks x s) (applyWrites l (writtenWords s)) s = [] →
            exec (.settingsWrite c) s = .next (replied (request1 c p 0x0104 tag [w1, m, v]) []
              (followBalance { popMsg c s with cfg := { s.cfg with accepted := applyWrites l (writtenWords s) } }))) ∧
          (runFailures (applyWrites l (writtenWords s)) s ≠ [] →
            exec (.settingsWrite c) s = .next (refused (request1 c p 0x0104 tag [w1, m, v]) 6
              (((runFailures (applyWrites l (writtenWords s)) s).map (·.1)).headD 0) 0
              (logAll 0 (runFailures (applyWrites l (writtenWords s)) s) (popMsg c s)))))) ∧
  (∀ (c tag : Nat) (w : Word) (p : Path) (s : State), c < 14 → AtFront c p 0x0102 tag [w] s → Started s → w.toNat < 16 →
      cfgN F.DEV1_PROFILE_MSG 0 s = 1 → hasProfile w.toNat s = true → rateRefusal (profileWrites w.toNat s.cfg) s = none →
      ∃ x, x = applyWrites (profileWrites w.toNat s.cfg) (writtenWords s) ∧
        (lutBusy x s = [] → newFailures (codecChecks s.dev.role) x s = [] → runFailures x s = [] →
          locksBalance (profileWrites w.toNat s.cfg) s = false → newFailures (fun y => trialChecks y s) x s = [] →
          exec (.profileSelect c) s = .next (replied (request1 c p 0x0102 tag [w]) []
            { followBalance { popMsg c s with cfg := { s.cfg with accepted := x } } with dev := { s.dev with profile := w.toNat } }))) ∧
  (∀ (c tag : Nat) (w : Word) (p : Path) (s : State), c < 14 → AtFront c p 0x0102 tag [w] s → Started s → w.toNat < 16 →
      cfgN F.DEV1_PROFILE_MSG 0 s = 0 → rateRefusal (profileWrites w.toNat s.cfg) s = none →
      exec (.profileSelect c) s = .next (refused (request1 c p 0x0102 tag [w]) 3 0 0 (popMsg c s)))

/-- Bitstream read and write, forced IDR and decoder flush. In a started role with the codec: BITSTREAM_READ by the
window's holder copies the ring's bytes from the host's reading position on into the window and moves that position,
which frees the ring up to it when no record stream reads the ring; BITSTREAM_WRITE feeds the window's bytes to the
decoder while its ring has room, and is refused with class 7 when it has not; FORCE_IDR makes the next picture an IDR;
DECODER_FLUSH flushes. Each is refused with class 7 for a stream that does not run in its direction. (Rests on R285,
R313.) -/
def Obligations.CodecMessages : Prop :=
  (∀ (m c tag : Nat) (w : Word) (p : Path) (s : State), m < 8 → c < 14 → AtFront c p (0x0808 + m) tag [w] s → Started s →
      hasBlk .codec s = true → w.toNat ≤ 0x100000 → holdsBulk p s = true → encOn m s = true → cfgB F.CODEC_STRM_HOST_READ m s = true →
      m < s.codec.enc.length →
      ∃ (l : List Byte) (rep : List Nat) (u : State),
        l = ((encOf m s).ring.drop ((encOf m s).hostPos - (encOf m s).base)).take w.toNat ∧ rep.length = 3 ∧ rep.headD 0 = l.length ∧
        exec (.bitstreamRead c) s = .next (replied (request1 c p (0x0808 + m) tag [w]) rep u) ∧
        (encOf m u).hostPos = (encOf m s).hostPos + l.length ∧ u.mbx.bulk = (writeBulk 0 l s).mbx.bulk ∧
        (recFor 1 m s = none → (encOf m s).base ≤ (encOf m s).hostPos → (encOf m s).hostPos ≤ (encOf m s).base + (encOf m s).ring.length →
          (encOf m u).base = (encOf m s).hostPos + l.length ∧
          (encOf m u).ring = (encOf m s).ring.drop ((encOf m s).hostPos + l.length - (encOf m s).base))) ∧
  (∀ (m c tag : Nat) (w l : Word) (p : Path) (s : State), m < 8 → c < 14 → AtFront c p (0x0810 + m) tag [w, l] s → Started s →
      hasBlk .codec s = true → w.toNat ≤ 0x100000 → l.toNat < 2 → holdsBulk p s = true → decOn m s = true →
      cfgB F.CODEC_PIC_DEC_SRC m s = false →
      (cfgN F.CODEC_STRM_RING_BYTES m s < (decOf m s).input.length + w.toNat →
        exec (.bitstreamWrite c) s = .next (refused (request1 c p (0x0810 + m) tag [w, l]) 7 0 0 (popMsg c s))) ∧
      ((decOf m s).input.length + w.toNat ≤ cfgN F.CODEC_STRM_RING_BYTES m s →
        let u : State := feedDecoder m (readBulk 0 w.toNat s) (l.toNat == 1) (popMsg c s)
        exec (.bitstreamWrite c) s = .next (replied (request1 c p (0x0810 + m) tag [w, l])
          [cfgN F.CODEC_STRM_RING_BYTES m s - (decOf m u).input.length] u))) ∧
  (∀ (m c tag : Nat) (p : Path) (s : State), m < 8 → c < 14 → AtFront c p (0x0818 + m) tag [] s → Started s → hasBlk .codec s = true →
      (encOn m s = true → exec (.forceIdr c) s = .next (replied (request1 c p (0x0818 + m) tag [])
        [(encOf m s).coded % 2 ^ 32 + b2n (encOf m s).pic.isSome] (modEnc m (fun x => { x with forceIdr := true }) (popMsg c s)))) ∧
      (encOn m s = false → exec (.forceIdr c) s = .next (refused (request1 c p (0x0818 + m) tag []) 7 0 0 (popMsg c s)))) ∧
  (∀ (m c tag : Nat) (p : Path) (s : State), m < 8 → c < 14 → AtFront c p (0x0820 + m) tag [] s → Started s → hasBlk .codec s = true →
      (decOn m s = true → exec (.decoderFlush c) s = .next (replied (request1 c p (0x0820 + m) tag []) [] (flushDecoder m (popMsg c s)))) ∧
      (decOn m s = false → exec (.decoderFlush c) s = .next (refused (request1 c p (0x0820 + m) tag []) 7 0 0 (popMsg c s))))

/-- Record start and stop, playback start and stop. In a started role with a mounted writable volume and no clip:
RECORD_START opens the next free clip number at its start time, answers the number and lists it as open; while a clip
is open it is refused with class 7. RECORD_STOP sets the open clip's stop time once; with no clip it is refused with
class 7. PLAYBACK_START of a listed coded stream of a closed, unencrypted clip begins at the first key frame from the
one asked for; PLAYBACK_STOP ends it and flushes the decoder. (Rests on R321, R356, R359, R747.) -/
def Obligations.RecorderMessages : Prop :=
  (∀ (n c tag : Nat) (w1 w2 w3 : Word) (p : Path) (s : State), c < 14 → AtFront c p 0x0901 tag [w1, w2, w3] s → Started s →
      hasBlk .recorder s = true → w3.toNat < 2 ^ 30 → todOk (w1.toNat + w2.toNat * 2 ^ 32 + w3.toNat * 2 ^ 64) = true → s.rcd.volume = 2 →
      (s.rcd.clip = none → nextClip s = some n → cfgB F.SEC_ENCRYPT 0 s = false →
        ∃ u, exec (.recordStart c) s = .next (replied (request1 c p 0x0901 tag [w1, w2, w3]) [n] u) ∧
          u.rcd.clipNext = (n + 1) % 4095 ∧ ∃ k, u.rcd.clip = some k ∧ k.num = n ∧ k.stop = none ∧ k.key = [] ∧
          k.start = todOperand 1 (request1 c p 0x0901 tag [w1, w2, w3]) s) ∧
      (s.rcd.clip.isSome = true →
        exec (.recordStart c) s = .next (refused (request1 c p 0x0901 tag [w1, w2, w3]) 7 0 0 (popMsg c s)))) ∧
  (∀ (c tag : Nat) (w1 w2 w3 : Word) (p : Path) (s : State), c < 14 → AtFront c p 0x0902 tag [w1, w2, w3] s → Started s →
      hasBlk .recorder s = true → w3.toNat < 2 ^ 30 → todOk (w1.toNat + w2.toNat * 2 ^ 32 + w3.toNat * 2 ^ 64) = true →
      (∀ k, s.rcd.clip = some k → k.ending = none →
        exec (.recordStop c) s = .next (replied (request1 c p 0x0902 tag [w1, w2, w3]) [] (checkStop
          (modRec (fun x => { x with clip := some { k with stop := some (todOperand 1 (request1 c p 0x0902 tag [w1, w2, w3]) s) } })
            (popMsg c s))))) ∧
      (s.rcd.clip = none →
        exec (.recordStop c) s = .next (refused (request1 c p 0x0902 tag [w1, w2, w3]) 7 0 0 (popMsg c s)))) ∧
  (∀ (n j m c tag i : Nat) (w1 w2 w3 : Word) (d : List Byte) (p : Path) (s : State), c < 14 →
      AtFront c p 0x0906 tag [w1, w2, w3] s → Started s → hasBlk .recorder s = true → w1.toNat = n + j * 2 ^ 12 + m * 2 ^ 16 →
      n < 4095 → j < 8 → m < 8 → decOn m s = true → cfgB F.CODEC_PIC_DEC_SRC m s = true → (s.rcd.plays.getD m {}).state ≠ 1 →
      dirState s.rcd.dir n ≠ 0 → s.rcd.clip = none → fieldAt ((s.rcd.dir.lookup n).getD []) 0x3C 4 % 2 = 0 →
      d = slice ((s.rcd.dir.lookup n).getD []) (0x40 + 64 * j) 64 → bits (fieldAt d 0 4) 31 31 = 1 → bits (fieldAt d 0 4) 30 28 = 1 →
      s.rcd.volume ≠ 0 → m < s.rcd.plays.length →
      (List.range (fieldAt d 0x18 8)).find? (fun k =>
        decide (w2.toNat + w3.toNat * 2 ^ 32 ≤ fieldAt (tableEntry (dirChain d 8 s) k s) 0 8) &&
          fieldAt (tableEntry (dirChain d 8 s) k s) 0xC 4 / 256 % 2 == 1) = some i →
      ∃ u, exec (.playbackStart c) s = .next (replied (request1 c p 0x0906 tag [w1, w2, w3])
          (loWords 2 (fieldAt (tableEntry (dirChain d 8 s) i s) 0 8)) u) ∧
        (u.rcd.plays.getD m {}).state = 1 ∧ (u.rcd.plays.getD m {}).clip = n ∧ (u.rcd.plays.getD m {}).stream = j ∧
        (u.rcd.plays.getD m {}).at_ = i) ∧
  (∀ (c tag : Nat) (w : Word) (p : Path) (s : State), c < 14 → AtFront c p 0x0907 tag [w] s → Started s →
      hasBlk .recorder s = true → w.toNat < 8 →
      ((s.rcd.plays.getD w.toNat {}).state = 1 →
        exec (.playbackStop c) s = .next (replied (request1 c p 0x0907 tag [w]) []
          (flushDecoder w.toNat (modPlay w.toNat (fun y => { y with state := 0, pieces := [], buf := none }) (popMsg c s))))) ∧
      ((s.rcd.plays.getD w.toNat {}).state ≠ 1 →
        exec (.playbackStop c) s = .next (refused (request1 c p 0x0907 tag [w]) 7 0 0 (popMsg c s))))

/-- The operations of the lane message. For every lane of a started role that is on: LANE_STATUS answers seven words
and changes nothing; SCAN_START of a grid within its limits on a lane that is up starts a scan with nothing counted
and answers its estimated time; SCAN_READ by the window's holder copies the scan's result; SCAN_STOP ends a scan;
TEST_SET_UP, of patterns that suit the lane's modulation, and BIT_SLIP work in the test state alone; CHECKER_READ
answers five words. On a lane that is off every operation but the status is refused with class 7. (Rests on R414,
R418, R419, R420, R421, R422, R423.) -/
def Obligations.LaneMessages : Prop :=
  ∀ (n c tag : Nat) (p : Path) (s : State), n < 40 → c < 14 → Started s →
    (AtFront c p (0x0B00 + n) tag [0] s →
      ∃ rep : List Nat, rep.length = 7 ∧ exec (.laneStatus c) s = .next (replied (request1 c p (0x0B00 + n) tag [0]) rep (popMsg c s))) ∧
    (∀ h v d : Nat, 1 ≤ h → h ≤ 32 → 1 ≤ v → v ≤ 127 → 16 ≤ d → d ≤ 32 →
      AtFront c p (0x0B00 + n) tag [1, BitVec.ofNat 32 (h + v * 2 ^ 8 + d * 2 ^ 16)] s → laneUp n s = true →
      (laneOf n s).scan = none → scanLong h v d (rateBaud1001 (rateInForce n s)) = false → n < s.lanes.length →
      ∃ (k : Scan) (u : State), exec (.scanStart c) s = .next (replied
          (request1 c p (0x0B00 + n) tag [1, BitVec.ofNat 32 (h + v * 2 ^ 8 + d * 2 ^ 16)])
          [scanMs h v d (rateBaud1001 (rateInForce n s)) % 2 ^ 32] u) ∧
        (laneOf n u).scan = some k ∧ k.status = 0 ∧ k.counts = [] ∧ k.cols = 63 / h + 1 ∧ k.rows = 254 / v + 1) ∧
    (∀ (k : Scan) (o : Word), AtFront c p (0x0B00 + n) tag [2, o] s → laneOn n s = true → (laneOf n s).scan = some k →
      o.toNat % 64 = 0 → holdsBulk p s = true → o.toNat + (scanBytes n k).length ≤ 0x100000 →
      exec (.scanRead c) s = .next (replied (request1 c p (0x0B00 + n) tag [2, o]) [k.status, (scanBytes n k).length]
        (writeBulk o.toNat (scanBytes n k) (popMsg c s)))) ∧
    (AtFront c p (0x0B00 + n) tag [3] s → laneOn n s = true →
      exec (.scanStop c) s = .next (replied (request1 c p (0x0B00 + n) tag [3]) [] (endScan 3 n (popMsg c s)))) ∧
    (∀ g k lb : Nat, g < 8 → k < 8 → lb < 3 → AtFront c p (0x0B00 + n) tag [4, BitVec.ofNat 32 (g + k * 2 ^ 4 + lb * 2 ^ 8)] s →
      laneOn n s = true → (laneOf n s).state = 5 → patternOk (laneRate s.cfg.accepted n) g = true →
      patternOk (laneRate s.cfg.accepted n) k = true →
      exec (.testSetUp c) s = .next (replied (request1 c p (0x0B00 + n) tag [4, BitVec.ofNat 32 (g + k * 2 ^ 4 + lb * 2 ^ 8)]) []
        (modLane n (fun x => { x with gen := g, checker := k, loopback := lb }) (popMsg c s)))) ∧
    (∀ w : Word, 0 < w.toNat → w.toNat < 128 → AtFront c p (0x0B00 + n) tag [5, w] s → laneOn n s = true →
      ((laneOf n s).state = 5 → ratePam4 (laneRate s.cfg.accepted n) = false →
        exec (.bitSlip c) s = .next (replied (request1 c p (0x0B00 + n) tag [5, w]) [((laneOf n s).slip + w.toNat) % 64]
          (modLane n (fun x => { x with slip := ((laneOf n s).slip + w.toNat) % 64 }) (popMsg c s)))) ∧
      ((laneOf n s).state ≠ 5 →
        exec (.bitSlip c) s = .next (refused (request1 c p (0x0B00 + n) tag [5, w]) 7 0 0 (popMsg c s)))) ∧
    (AtFront c p (0x0B00 + n) tag [6] s → laneOn n s = true →
      ∃ (rep : List Nat) (u : State), rep.length = 5 ∧ u.lanes = s.lanes ∧
        exec (.checkerRead c) s = .next (replied (request1 c p (0x0B00 + n) tag [6]) rep u)) ∧
    (AtFront c p (0x0B00 + n) tag [3] s → laneOn n s = false →
      exec (.scanStop c) s = .next (refused (request1 c p (0x0B00 + n) tag [3]) 7 0 0 (popMsg c s)))

/-- Link retrain, schedule, cancel, claim verdict, suspend and resume. In a started role: LINK_RETRAIN of an enabled
group that is not stepped, or not yet training, retrains it; SCHEDULE of an unprivileged message at least 1 ms ahead
takes the first free entry, and CANCEL frees an entry; CLAIM_VERDICT by a forwarded path makes a claiming body
primary, or returns it; SUSPEND is refused with class 7 where R784 forbids it, and otherwise begins the entry, in
which no message is taken; RESUME of a suspended device ends the suspended state. (Rests on R463, R512, R514, R561,
R576, R784, R786, R806.) -/
def Obligations.LinkTimePowerMessages : Prop :=
  (∀ (g c tag : Nat) (p : Path) (s : State), g < 9 → c < 14 → AtFront c p (0x0C01 + 16 * g) tag [] s → Started s →
      hasBlk (if g = 8 then .cage else .shaft) s = true →
      (groupOn g s = false → exec (.linkRetrain c) s = .next (refused (request1 c p (0x0C01 + 16 * g) tag []) 7 0 0 (popMsg c s))) ∧
      (groupOn g s = true → cfgB F.LINK_MODE g s = false ∨ (groupOf g s).state ≤ 1 →
        exec (.linkRetrain c) s = .next (replied (request1 c p (0x0C01 + 16 * g) tag []) [] (retrainNow g (popMsg c s))))) ∧
  (∀ (i c tag : Nat) (w1 w2 w3 h : Word) (p : Path) (s : State), c < 14 → AtFront c p 0x0E20 tag [w1, w2, w3, h] s → Started s →
      w3.toNat < 2 ^ 30 → todOk (w1.toNat + w2.toNat * 2 ^ 32 + w3.toNat * 2 ^ 64) = true → hdrCount h.toNat = 1 → freeEntry s.time.table = some i →
      todUnits (nowTod s) + 1000000 * 65536 ≤ todUnits (todUnpack (w1.toNat + w2.toNat * 2 ^ 32 + w3.toNat * 2 ^ 64)) →
      hdrPriv h.toNat = false → privilegedCode (hdrCode h.toNat) = false → hdrCode h.toNat ≠ 0x0E20 → hdrCode h.toNat ≠ 0x0E21 →
      exec (.schedule c) s = .next (replied (request1 c p 0x0E20 tag [w1, w2, w3, h]) [i] { popMsg c s with time := { s.time with
        table := s.time.table.set i (some ⟨todUnpack (w1.toNat + w2.toNat * 2 ^ 32 + w3.toNat * 2 ^ 64), s.time.schedOrder, c, p, [h]⟩)
        schedOrder := s.time.schedOrder + 1 } })) ∧
  (∀ (c tag : Nat) (w1 w2 w3 h : Word) (p : Path) (s : State), c < 14 → AtFront c p 0x0E20 tag [w1, w2, w3, h] s → Started s →
      w3.toNat < 2 ^ 30 → todOk (w1.toNat + w2.toNat * 2 ^ 32 + w3.toNat * 2 ^ 64) = true → hdrCount h.toNat = 1 → freeEntry s.time.table = none →
      exec (.schedule c) s = .next (refused (request1 c p 0x0E20 tag [w1, w2, w3, h]) 7 0 0 (popMsg c s))) ∧
  (∀ (c tag : Nat) (w : Word) (p : Path) (s : State), c < 14 → AtFront c p 0x0E21 tag [w] s → Started s → w.toNat < 32 →
      ((s.time.table.getD w.toNat none).isSome = true → exec (.cancel c) s = .next (replied (request1 c p 0x0E21 tag [w]) []
        { popMsg c s with time := { s.time with table := s.time.table.set w.toNat none } })) ∧
      (s.time.table.getD w.toNat none = none →
        exec (.cancel c) s = .next (refused (request1 c p 0x0E21 tag [w]) 7 0 0 (popMsg c s)))) ∧
  (∀ (g c tag : Nat) (w a b d : Word) (s : State), c < 14 → AtFront c (.fwd g) 0x1008 tag [w, a, b, d] s → Started s →
      s.dev.role = .body → redOn s = true → s.red.state = 4 → w.toNat < 2 →
      exec (.claimVerdict c) s = .next (modChan c (fun ch => { ch with handled := wrapInc 32 ch.handled })
        (if w.toNat = 1 then becomePrimary (popMsg c s) else claimRefused (popMsg c s)))) ∧
  (∀ (c tag : Nat) (p : Path) (s : State), c < 14 → AtFront c p 0x1701 tag [1] s → Started s →
      (suspendRefused s = true → exec (.suspend c) s = .next (refused (request1 c p 0x1701 tag [1]) 7 0 0 (popMsg c s))) ∧
      (suspendRefused s = false → ∃ u, u = beginSuspend (popMsg c s) ∧ u.pwr.entering = true ∧ handling u = false ∧
        exec (.suspend c) s = .next (replied (request1 c p 0x1701 tag [1]) [] u))) ∧
  (∀ (c tag : Nat) (p : Path) (s : State), c < 14 → AtFront c p 0x1701 tag [0] s → s.dev.state = .running →
      s.pwr.thermallyOff = false → s.pwr.suspended = true →
      ∃ u, u = resume (popMsg c s) ∧ u.pwr.suspended = false ∧ u.mbx.asleep = [] ∧
        exec (.resume c) s = .next (replied (request1 c p 0x1701 tag [0]) [] u))

/-- Record read, certificate read, verify calibration and sign now. On the island's channel in a started role:
RECORD_READ by the window's holder copies the seam's entries from a frame number on and answers how many records and
bytes; ISLAND_CERTIFICATE_READ copies the certificate; VERIFY_CALIBRATION answers what the verification found, logs it
in the island and raises 0x0F04 when it failed; SIGN_NOW signs what the seam has chained, which leaves nothing
unsigned, and answers the last frame number; both need the island running. (Rests on R540, R549, R555.) -/
def Obligations.IslandMessages : Prop :=
  (∀ (tag : Nat) (n f0 f1 o k : Word) (es : List IslandEntry) (p : Path) (s : State),
      AtFront 14 p 0x0F01 tag [n, f0, f1, o, k] s → Started s → n.toNat < 8 → o.toNat % 64 = 0 → o.toNat ≤ 0x100000 →
      1 ≤ k.toNat → k.toNat ≤ 16384 → holdsBulk p s = true →
      takeEntries (entriesFrom n.toNat (f0.toNat + f1.toNat * 2 ^ 32) s) k.toNat (0x100000 - o.toNat) = es →
      exec (.recordRead 14) s = .next (replied (request1 14 p 0x0F01 tag [n, f0, f1, o, k])
        [(recordNums es).length, (recordNums es).headD 0 % 2 ^ 32, (recordNums es).headD 0 / 2 ^ 32, (es.flatMap IslandEntry.bytes).length]
        (noteRead n.toNat es (writeBulk o.toNat (es.flatMap IslandEntry.bytes) (popMsg 14 s))))) ∧
  (∀ (tag : Nat) (o : Word) (p : Path) (s : State), AtFront 14 p 0x0F02 tag [o] s → Started s → o.toNat + 248 ≤ 0x100000 →
      (holdsBulk p s = true → exec (.islandCertificateRead 14) s = .next (replied (request1 14 p 0x0F02 tag [o]) [s.islNv.cert.length]
        (writeBulk o.toNat s.islNv.cert (popMsg 14 s)))) ∧
      (holdsBulk p s = false → exec (.islandCertificateRead 14) s = .next (refused (request1 14 p 0x0F02 tag [o]) 5 0 0 (popMsg 14 s)))) ∧
  (∀ (tag : Nat) (p : Path) (s : State), AtFront 14 p 0x0F03 tag [] s → Started s →
      (s.isl.running = true → ∃ u, u = verifyCal (popMsg 14 s) ∧
        exec (.verifyCalibration 14) s = .next (replied (request1 14 p 0x0F03 tag []) [b2n u.isl.calOk] u) ∧
        u.isl.calOk = calibrationOk s.drawn ∧
        u.islNv.log = pushIslandLog (entryBytes32 (mkEntry 0 0x0F04 noInst [b2n u.isl.calOk] (popMsg 14 s))) s.islNv.log ∧
        (u.isl.calOk = false → u.log.next = (raise 1 0x0F04 noInst [] s).log.next)) ∧
      (s.isl.running = false → exec (.verifyCalibration 14) s = .next (refused (request1 14 p 0x0F03 tag []) 3 0 0 (popMsg 14 s)))) ∧
  (∀ (tag : Nat) (n : Word) (p : Path) (s : State), AtFront 14 p 0x0F04 tag [n] s → Started s → n.toNat < 8 →
      recordsFor n.toNat s = true → n.toNat < s.isl.seams.length →
      ∃ u, u = signSeam n.toNat 8 false (popMsg 14 s) ∧ (islSeam n.toNat u).count = 0 ∧ u.isl.signatures = wrapInc 32 s.isl.signatures ∧
        exec (.signNow 14) s = .next (replied (request1 14 p 0x0F04 tag [n])
          [(islSeam n.toNat s).last % 2 ^ 32, (islSeam n.toNat s).last / 2 ^ 32] u))

/-- Overlay write, refresh, audio start and stop, and block write. In a started role with the outputs: OVERLAY_WRITE
by the window's holder within the plane stores the rectangle's pixels in the shadow plane, and one beyond the plane is
refused with class 7; REFRESH makes every tile dirty; START_AND_STOP starts or stops an enabled audio port;
BLOCK_WRITE of one block not yet begun, to an output with room, puts the block in the ring and answers 1, and of a
block already begun counts it as skipped and answers 0. (Rests on R595, R596, R611, R614, R620.) -/
def Obligations.ViewAndAudioMessages : Prop :=
  (∀ (k c tag : Nat) (j xy wh o : Word) (p : Path) (s : State), k < 2 → c < 14 → AtFront c p (0x1108 + k) tag [j, xy, wh, o] s →
      Started s → hasBlk .media s = true → j.toNat < 4 → holdsBulk p s = true → vfOn k s = true →
      (xy.toNat / 65536 + wh.toNat / 65536 ≤ cfgN F.VF_OVL_W (ovl k j.toNat) s →
        xy.toNat % 65536 + wh.toNat % 65536 ≤ cfgN F.VF_OVL_H (ovl k j.toNat) s →
        o.toNat + 4 * (wh.toNat / 65536) * (wh.toNat % 65536) ≤ 0x100000 →
        exec (.overlayWrite c) s = .next (replied (request1 c p (0x1108 + k) tag [j, xy, wh, o]) [] (writeOverlay k j.toNat
          (xy.toNat / 65536) (xy.toNat % 65536) (wh.toNat / 65536) (wh.toNat % 65536) o.toNat (popMsg c s)))) ∧
      (cfgN F.VF_OVL_W (ovl k j.toNat) s < xy.toNat / 65536 + wh.toNat / 65536 →
        exec (.overlayWrite c) s = .next (refused (request1 c p (0x1108 + k) tag [j, xy, wh, o]) 7 0 0 (popMsg c s)))) ∧
  (∀ (k c tag : Nat) (p : Path) (s : State), k < 2 → c < 14 → AtFront c p (0x1110 + k) tag [] s → Started s → hasBlk .media s = true →
      (vfOn k s = true → exec (.refresh c) s = .next (replied (request1 c p (0x1110 + k) tag []) [] (dirtyAll k (popMsg c s)))) ∧
      (vfOn k s = false → exec (.refresh c) s = .next (refused (request1 c p (0x1110 + k) tag []) 7 0 0 (popMsg c s)))) ∧
  (∀ (a c tag : Nat) (w : Word) (p : Path) (s : State), a < 8 → c < 14 → AtFront c p (0x1208 + a) tag [w] s → Started s →
      hasBlk .media s = true → w.toNat < 2 →
      (audOn a s = true → exec (.startAndStop c) s =
        .next (replied (request1 c p (0x1208 + a) tag [w]) [] (runAudio (w.toNat == 1) a (popMsg c s)))) ∧
      (audOn a s = false → exec (.startAndStop c) s = .next (refused (request1 c p (0x1208 + a) tag [w]) 7 0 0 (popMsg c s)))) ∧
  (∀ (a c tag : Nat) (b0 b1 : Word) (p : Path) (s : State), a < 8 → c < 14 → AtFront c p (0x1210 + a) tag [b0, b1, 1] s → Started s →
      hasBlk .media s = true → holdsBulk p s = true → audOn a s = true → cfgB F.AUD_DIR a s = true → cfgB F.AUD_SRC a s = false →
      a < s.out.audio.length →
      (hasBegun a (b0.toNat + b1.toNat * 2 ^ 32) s = false → (audOf a s).ring = [] → 0 < cfgN F.AUD_BUFS a s →
        ∃ u, exec (.blockWrite c) s = .next (replied (request1 c p (0x1210 + a) tag [b0, b1, 1]) [1] u) ∧
          (audOf a u).ring = [bulkBlock 0 (b0.toNat + b1.toNat * 2 ^ 32) s]) ∧
      (hasBegun a (b0.toNat + b1.toNat * 2 ^ 32) s = true →
        exec (.blockWrite c) s = .next (replied (request1 c p (0x1210 + a) tag [b0, b1, 1]) [0]
          (modAud a (fun x => { x with skipped := wrapInc 32 x.skipped }) (popMsg c s)))))

/-- Event log read, Survey run and the update session. In a started role: EVENT_LOG_READ by the window's holder copies
the entries from a sequence number on, oldest first, and answers their count, the first and the oldest number;
SURVEY_RUN starts the items asked for, is refused with class 5 while a run is in progress, and with class 7 for the
ports while a clip is open. UPDATE_DATA in sequence from the session's path adds the window's bytes, and out of
sequence is refused with class 7; UPDATE_COMMIT of a whole image that verifies begins its write, of one that does not
fails the session with 0x1520, and is refused with class 5 while an image is unconfirmed; UPDATE_ABORT closes the
session, but not while it writes. (Rests on R698, R712, R716, R719, R720, R724.) -/
def Obligations.HeadframeMessages : Prop :=
  (∀ (c tag : Nat) (f0 f1 n o : Word) (p : Path) (s : State), c < 14 → AtFront c p 0x1500 tag [f0, f1, n, o] s → Started s →
      n.toNat ≤ 32768 → o.toNat % 32 = 0 → o.toNat ≤ 0x100000 → holdsBulk p s = true →
      ∃ (l : List LogEntry) (rep : List Nat), l = ((heldEntries s).filter fun e => decide (f0.toNat + f1.toNat * 2 ^ 32 ≤ e.seq)).take
          (min n.toNat ((0x100000 - o.toNat) / 32)) ∧ rep.length = 5 ∧ rep.headD 0 = l.length ∧
        exec (.eventLogRead c) s = .next (replied (request1 c p 0x1500 tag [f0, f1, n, o]) rep
          (writeBulk o.toNat (l.flatMap entryBytes32) (popMsg c s)))) ∧
  (∀ (c tag : Nat) (w : Word) (p : Path) (s : State), c < 14 → AtFront c p 0x1510 tag [w] s → Started s → w.toNat < 16 →
      (s.hf.surveyRunning ≠ [] → exec (.surveyRun c) s = .next (refused (request1 c p 0x1510 tag [w]) 5 0 0 (popMsg c s))) ∧
      (s.hf.surveyRunning = [] → w.toNat % 2 = 1 → s.rcd.clip.isSome = true →
        exec (.surveyRun c) s = .next (refused (request1 c p 0x1510 tag [w]) 7 0 0 (popMsg c s))) ∧
      (s.hf.surveyRunning = [] → w.toNat = 12 → exec (.surveyRun c) s = .next (replied (request1 c p 0x1510 tag [w]) []
        { popMsg c s with hf := { s.hf with surveyRunning := [2, 3], surveyPassed := [], surveyFailed := [], surveyPorts := [] } }))) ∧
  (∀ (c tag : Nat) (o n : Word) (p : Path) (s : State), c < 14 → AtFront c p 0x1521 tag [o, n] s → Started s → n.toNat ≤ 0x100000 →
      holdsBulk p s = true →
      (s.hf.update.state = .receiving → s.hf.update.path = p → o.toNat = s.hf.update.bytes.length →
        o.toNat + n.toNat ≤ s.hf.update.size →
        exec (.updateData c) s = .next (replied (request1 c p 0x1521 tag [o, n]) [o.toNat + n.toNat] { popMsg c s with
          hf := { s.hf with update := { s.hf.update with bytes := s.hf.update.bytes ++ readBulk 0 n.toNat s } } })) ∧
      (o.toNat ≠ s.hf.update.bytes.length →
        exec (.updateData c) s = .next (refused (request1 c p 0x1521 tag [o, n]) 7 0 0 (popMsg c s)))) ∧
  (∀ (c tag : Nat) (p : Path) (s : State), c < 14 → AtFront c p 0x1522 tag [] s → Started s →
      (unconfirmed s = true → exec (.updateCommit c) s = .next (refused (request1 c p 0x1522 tag []) 5 0 0 (popMsg c s))) ∧
      (unconfirmed s = false → s.hf.update.state = .receiving → s.hf.update.bytes.length = s.hf.update.size →
        imageReason s.hf.update.kind s.hf.update.bytes s = 0 →
        exec (.updateCommit c) s = .next (replied (request1 c p 0x1522 tag []) []
          { popMsg c s with hf := { s.hf with update := { s.hf.update with state := .writing } } })) ∧
      (unconfirmed s = false → s.hf.update.state = .receiving → s.hf.update.bytes.length = s.hf.update.size →
        imageReason s.hf.update.kind s.hf.update.bytes s ≠ 0 →
        exec (.updateCommit c) s = .next (replied (request1 c p 0x1522 tag []) [] (raise 0 0x1520 noInst
          [s.hf.update.kind + imageReason s.hf.update.kind s.hf.update.bytes s * 2 ^ 16]
          { popMsg c s with hf := { s.hf with update := { s.hf.update with state := .failed, failCode := 0x1520 } } })))) ∧
  (∀ (c tag : Nat) (p : Path) (s : State), c < 14 → AtFront c p 0x1524 tag [] s → Started s →
      (s.hf.update.state ≠ .writing → exec (.updateAbort c) s = .next (replied (request1 c p 0x1524 tag []) []
        { popMsg c s with hf := { s.hf with update := {} } })) ∧
      (s.hf.update.state = .writing → exec (.updateAbort c) s = .next (refused (request1 c p 0x1524 tag []) 7 0 0 (popMsg c s))))

/-- Attestation report, certificate read and the first owner key. In a started role: ATTESTATION_REPORT by the
window's holder writes the 368 bytes of R743 for the nonce it carries, which are the report's body and a signature of
exactly that body; CERTIFICATE_READ copies the device certificate; each is refused with class 5 without the window. An
OWNER_KEY_INSTALL of slot 0 of an unowned device by the SPI path needs no token, and queues the OTP write of the key's
hash. (Rests on R699, R738, R739, R741, R743.) -/
def Obligations.SecurityMessages : Prop :=
  (∀ (c tag : Nat) (n0 n1 n2 n3 o : Word) (p : Path) (s : State), c < 14 → AtFront c p 0x1600 tag [n0, n1, n2, n3, o] s → Started s →
      o.toNat % 64 = 0 → o.toNat + 368 ≤ 0x100000 →
      (holdsBulk p s = true → ∃ u, exec (.attestationReport c) s = .next (replied (request1 c p 0x1600 tag [n0, n1, n2, n3, o]) [368] u) ∧
        u.mbx.bulk = (writeBulk o.toNat (attestation (wordBytes [n0, n1, n2, n3]) s) s).mbx.bulk) ∧
      (holdsBulk p s = false → exec (.attestationReport c) s =
        .next (refused (request1 c p 0x1600 tag [n0, n1, n2, n3, o]) 5 0 0 (popMsg c s)))) ∧
  (∀ (b : List Byte) (s : State), ∃ sig, attestation b s = reportBody b s ++ sig ∧
      sig = ecdsaSign (Config.identityKey s.otp.serial) (Config.ecdsaSecret s.drawn) (reportBody b s)) ∧
  (∀ (c tag : Nat) (o : Word) (p : Path) (s : State), c < 14 → AtFront c p 0x1601 tag [o] s → Started s → o.toNat + 248 ≤ 0x100000 →
      (holdsBulk p s = true → exec (.certificateRead c) s = .next (replied (request1 c p 0x1601 tag [o]) [s.otp.cert.length]
        (writeBulk o.toNat s.otp.cert (popMsg c s)))) ∧
      (holdsBulk p s = false → exec (.certificateRead c) s = .next (refused (request1 c p 0x1601 tag [o]) 5 0 0 (popMsg c s)))) ∧
  (∀ (c tag : Nat) (o : Word) (s : State), c < 14 → AtFront c (.regs .spi) 0x1602 tag [0, o] s → Started s → unowned s = true →
      o.toNat + 64 ≤ 0x100000 → holdsBulk (.regs .spi) s = true → (ownerSlot 0 s).state = 0 →
      onCurve (keyPoint (readBulk o.toNat 64 s)).1 (keyPoint (readBulk o.toNat 64 s)).2 = true →
      exec (.ownerKeyInstall c) s = .next (replied (request1 c (.regs .spi) 0x1602 tag [0, o]) [] { popMsg c s with
        otp := { s.otp with queue := s.otp.queue ++ [.install 0 (sha256 (readBulk o.toNat 64 s))] } }))

/-- Frame numbers start at 0 and rise by one with every frame whose FV rises. ROLE_START gives every seam the next
frame number 0. A rise of FV at a running leader of a port-sourced seam takes the seam's next number and raises it by
one, whether the frame is admitted, dropped for its spacing, for want of a slot, for a gang or for a fault; every
frame that enters the ring by it carries that number. (States R27.) -/
def Obligations.FrameNumbers : Prop :=
  (∀ s : State, s.dev.state = .ready → ∃ t, exec .roleStart s = .next t ∧ ∀ n, (seamOf n t).nextNum = 0) ∧
  (∀ (p n : Nat) (skews : List Int) (s : State), portLive p s = true → leadOf p s = p → (portOf p s).fv = false →
      (portOf p s).clock = true → (portOf p s).phase = .running ∨ (portOf p s).phase = .retrain → portSeam p s = some n →
      hasPair (portOf p s).newFaults pairCK = false → s.pwr.entering = false → p < s.cap.ports.length → n < s.cap.seams.length →
      ∃ t, exec (.frameStart p skews) s = .next t ∧ (seamOf n t).nextNum = (seamOf n s).nextNum + 1 ∧
        (portOf p t).lastNum = (seamOf n s).nextNum ∧
        ∀ f ∈ (seamOf n t).frames, f ∈ (seamOf n s).frames ∨ f.header.num = (seamOf n s).nextNum ∨
          ∃ g ∈ (seamOf n s).frames, f.header.num = g.header.num)

/-- The scheduler starts the ready unit with the least key. While the pipeline is free, UNIT_START starts the ready
unit whose key of deadline, seam number, frame number and stripe index is least in that order; when no unit is ready
the pipeline idles, and while a unit runs nothing starts. (States R109.) -/
def Obligations.PipelineScheduler : Prop :=
  (∀ s : State, blkOn .frontHead s = true → s.cap.pipe = none →
    ((∀ n < 8, readyUnits n s = []) → exec .unitStart s = .next s) ∧
    (∀ d n num k : Nat, n < 8 → (d, n, num, k) ∈ readyUnits n s →
      (∀ m < 8, ∀ x ∈ readyUnits m s, x = (d, n, num, k) ∨ keyLt (d, n, num, k) x = true) →
      ∃ t, exec .unitStart s = .next t ∧ t.cap.pipe = some ⟨n, num, k⟩ ∧
        ∀ f ∈ (seamOf n t).frames, f.header.num = num → k ∈ f.started)) ∧
  (∀ s : State, s.cap.pipe.isSome = true → exec .unitStart s = .next s)

/-- The end of a unit, absent sources, silent leaders, adit holds and schedule rebases. UNIT_END frees the pipeline
and marks its unit finished; with a frame's last unit the frame is released, a frame released after its deadline is
counted and logged as a Notice, and a dropped frame leaves the ring when nothing of it is in flight. A source absent
for four periods of the committed rate, and a leader silent for 32, are logged once. An adit's host hold that expires
lets the buffer go. A rebase that is due arms the schedule and every port's trigger at the first point that keeps the
spacing, and logs a new index, rate or step; one that is not due only clears the request. (Rests on R107, R110, R116,
R119, R196, R222, R508.) -/
def Obligations.PipelineAndTimers : Prop :=
  (∀ (u : PipeUnit) (f : SeamFrame) (s : State), s.cap.pipe = some u → u.seam < s.cap.seams.length →
      (seamOf u.seam s).frames.find? (fun g => g.header.num == u.frame) = some f →
      let f' : SeamFrame := { f with finished := f.finished ++ [u.stripe] }
      let v : State := modFrame u.seam u.frame (fun g => { g with finished := g.finished ++ [u.stripe] }) { s with cap := { s.cap with pipe := none } }
      (f.dropped = false → unitCount s.dev.role s.cfg.accepted u.seam ≤ f'.finished.length →
        exec .unitEnd s = .next (releaseFrame u.seam f' v)) ∧
      (f.dropped = false → f'.finished.length < unitCount s.dev.role s.cfg.accepted u.seam → exec .unitEnd s = .next v) ∧
      (f.dropped = true → f.started.length = f'.finished.length → exec .unitEnd s = .next (leaveRing u.seam u.frame v)) ∧
      (f.dropped = true → f.started.length ≠ f'.finished.length → exec .unitEnd s = .next v)) ∧
  (∀ s : State, s.cap.pipe = none → exec .unitEnd s = .next s) ∧
  (∀ (n : Nat) (f : SeamFrame) (s : State),
      (nowNs s ≤ f.deadline → (checkDeadline n f s).log = s.log) ∧
      (f.deadline < nowNs s → (checkDeadline n f s).log = (raise 0 (seamErr n 2) n [] s).log ∧
        (n < s.cap.seams.length → (seamOf n (checkDeadline n f s)).misses = wrapInc 32 (seamOf n s).misses))) ∧
  (∀ (n : Nat) (s : State), blkOn .ingest s = true → seamActive s.cfg.accepted n = true → (seamOf n s).seen = true →
      (seamOf n s).absent = false → (seamOf n s).lastArrival + 4 * periodNs (seamOf n s).committed n ≤ nowNs s →
      exec (.sourceAbsentExpiry n) s = .next (raiseOnce 1 (seamErr n 3) n [] (modSeam n (fun y => { y with absent := true }) s))) ∧
  (∀ (n : Nat) (s : State), (seamOf n s).absent = true → exec (.sourceAbsentExpiry n) s = .next s) ∧
  (∀ (n : Nat) (s : State), loopsRun n s = true → cfgN F.LOOP_AE_LOCK n s = 2 → (loopOf n s).silent = false →
      (loopOf n s).lockAt * 5 + 32 * loopPeriod n s * 4 ≤ s.dev.elapsed * 5 →
      exec (.leaderSilentExpiry n) s = .next (raiseOnce 1 (0x0698 + n) n [] (modLoop n (fun y => { y with silent := true }) s))) ∧
  (∀ (n : Nat) (s : State), n < s.cap.adits.length →
      ∃ t, exec (.aditHoldExpiry n) s = .next t ∧ hostHeld (t.cap.adits.getD n {}) = none) ∧
  (∀ (n : Nat) (e : ExpSched) (gap : Nat) (i : Int) (s : State), e = s.time.exp.getD n {} → rebaseDue n s = true →
      gap = max e.lastPeriod (framePeriodNs n s) * 65536 →
      i = firstPoint n ((match e.last with
        | some l => l + gap
        | none => (nowUnits s : Int)) - portDelay (cfgN F.SEAM_SRC_SRC_INDEX n s % 4) s) s →
      ∃ t, exec (.scheduleRebase n) s = .next t ∧
        (n < s.time.exp.length → (t.time.exp.getD n {}).n = i ∧ (t.time.exp.getD n {}).armed = true ∧
          (t.time.exp.getD n {}).rebase = false) ∧
        (∀ p ∈ seamPorts n s, p < s.cap.ports.length → (portOf p t).trigNext = spacedPoint n p (portOf p s).trigLast gap s) ∧
        (e.rebase = false → e.rate = schedRate n s → i = e.n → t.log = s.log) ∧
        (e.rebase = true ∨ e.rate ≠ schedRate n s ∨ i ≠ e.n → t.log.next = (raise 0 0x0E11 n [] s).log.next)) ∧
  (∀ (n : Nat) (s : State), rebaseDue n s = false →
      exec (.scheduleRebase n) s = .next (modExp n (fun x => { x with rebase := false }) s))

/-- Exposure and white-balance decisions. EXPOSURE_DECISION takes the oldest statistics buffer a running loop has not
seen, counting one of another epoch: with a policy of manual, a follower's lock, or a buffer the loop does not accept,
it clears the sums; while fewer buffers than AE_FRAMES plus one are summed it only adds; then it decides by R213.
WHITE_BALANCE_DECISION takes the next buffer and, without AWB_MODE 1 or as a follower, changes no gain. The ratio of
R213 stays from 0x4000 to 0x40000, the new exposure product lies between the old one and its target, and a balance
gain steps toward its target without passing it. (Rests on R32, R208, R209, R213, R218.) -/
def Obligations.LoopDecisions : Prop :=
  (∀ (n : Nat) (s : State), loopsRun n s = false →
      exec (.exposureDecision n) s = .next s ∧ exec (.whiteBalanceDecision n) s = .next s) ∧
  (∀ (n : Nat) (b : StatBuf) (s : State), loopsRun n s = true → nextStat n (loopOf n s).seenE s = some b →
      let v : State := countStale n b.data (modLoop n (fun l => { l with seenE := b.order }) s)
      (cfgN F.LOOP_AE_AE_MODE n s = 0 ∨ cfgN F.LOOP_AE_LOCK n s = 2 ∨ accepts n b.data v = false →
        exec (.exposureDecision n) s = .next (modLoop n (fun l => { l with acc := [0, 0, 0, 0, 0] }) v)) ∧
      (∀ a z, cfgN F.LOOP_AE_AE_MODE n s ≠ 0 → cfgN F.LOOP_AE_LOCK n s ≠ 2 → accepts n b.data v = true →
        z = meterZones n b.data.zones v →
        a = [(loopOf n v).acc.getD 0 0 + z.1, (loopOf n v).acc.getD 1 0 + z.2.1, (loopOf n v).acc.getD 2 0 + z.2.2.1,
          (loopOf n v).acc.getD 3 0 + z.2.2.2, (loopOf n v).acc.getD 4 0 + 1] →
        (a.getD 4 0 ≤ cfgN F.LOOP_AE_AE_FRAMES n s →
          exec (.exposureDecision n) s = .next (modLoop n (fun l => { l with acc := a }) v)) ∧
        (cfgN F.LOOP_AE_AE_FRAMES n s < a.getD 4 0 →
          exec (.exposureDecision n) s = .next (decide213 n b.data a (modLoop n (fun l => { l with acc := a }) v))))) ∧
  (∀ (n : Nat) (b : StatBuf) (s : State), loopsRun n s = true → nextStat n (loopOf n s).seenW s = some b →
      let v : State := countStale n b.data (modLoop n (fun l => { l with seenW := b.order }) s)
      (cfgN F.LOOP_AWB_AWB_MODE n s ≠ 1 ∨ cfgN F.LOOP_AE_LOCK n s = 2 → exec (.whiteBalanceDecision n) s = .next v) ∧
      (cfgN F.LOOP_AWB_AWB_MODE n s = 1 → cfgN F.LOOP_AE_LOCK n s ≠ 2 →
        exec (.whiteBalanceDecision n) s = .next (balanceTake n b.data v))) ∧
  (∀ (n : Nat) (d : StatData) (s : State), (d.epoch = seamEpoch n s → countStale n d s = s) ∧
      (d.epoch ≠ seamEpoch n s → countStale n d s = modLoop n (fun l => { l with stale := wrapInc 32 l.stale }) s)) ∧
  (∀ target guard m clipq quads : Nat, 0x4000 ≤ meterRatio target guard m clipq quads ∧ meterRatio target guard m clipq quads ≤ 0x40000) ∧
  (∀ e g ratio damp : Nat, damp ≤ 256 →
      min (e * g) (e * g * ratio / 65536) ≤ expNew e g ratio damp ∧ expNew e g ratio damp ≤ max (e * g) (e * g * ratio / 65536)) ∧
  (∀ gain target damp : Nat, damp ≤ 256 →
      min gain target ≤ balanceStep gain target damp ∧ balanceStep gain target damp ≤ max gain target)

/-- Dealing, verifying and writing the blocks of a compression job. BLOCK_DEAL gives the next block of the first job
with blocks left, or one to code again, to the first free engine, ends a job whose descriptor fails its check with
status 2, and does nothing without an engine. BLOCK_DONE frees its engine and emits only bytes that the verifier
accepts: a block that passes as coded, one whose comparison fails raw and logged as 0x0702; two raw failures put the
engine out of service, give its block back to be coded again and log 0x0703, as Frame-loss and with every job aborted
when no engine is left. The output stage writes blocks in ascending order only, and stops the job at the block that
does not fit. (Rests on R248, R249, R250, R253, R254, R257, R258.) -/
def Obligations.CompressorBlocks : Prop :=
  (∀ (e : Nat) (j : CompJob) (s : State), compOn s = true →
      s.comp.engines.findIdx? (fun x => !x.out && x.blk.isNone) = some e →
      s.comp.queue.find? (fun q => !descOk q || !q.again.isEmpty || decide (q.next < jobBlocks q)) = some j →
      (descOk j = true → j.again = [] → exec .blockDeal s = .next (modComp (fun c => { c with
        engines := modAt c.engines e fun x => { x with blk := some (j.id, j.next) }
        queue := c.queue.map fun q => if q.id = j.id then { j with next := j.next + 1 } else q }) s)) ∧
      (∀ i l, descOk j = true → j.again = i :: l → exec .blockDeal s = .next (modComp (fun c => { c with
        engines := modAt c.engines e fun x => { x with blk := some (j.id, i) }
        queue := c.queue.map fun q => if q.id = j.id then { j with again := l } else q }) s)) ∧
      (descOk j = false → exec .blockDeal s = .next (jobFailed 2 j s))) ∧
  (∀ s : State, s.comp.engines.findIdx? (fun x => !x.out && x.blk.isNone) = none → exec .blockDeal s = .next s) ∧
  (∀ (i : BlkInfo) (blk : Plane) (faults : List (List Nat)),
      ((verdict i blk faults).1 ≠ .rawMismatchTwice → verifyBlock i blk (verdict i blk faults).2 = true) ∧
      (verifyBlock i blk (flipBits (faults.getD 0 []) (encodeBlock i blk)) = true →
        verdict i blk faults = (.match_, flipBits (faults.getD 0 []) (encodeBlock i blk)))) ∧
  (∀ (e i : Nat) (j : CompJob) (faults : List (List Nat)) (v : VerifyResult × List Byte) (long : Bool) (s : State),
      (s.comp.engines.getD e {}).blk = some (j.id, i) → s.comp.queue.find? (fun q => q.id == j.id) = some j →
      v = verdict (jobInfo j i) (blockOf (planeW j.plane) j.plane.length j.plane i) faults →
      long = tooLong (jobInfo j i) (blockOf (planeW j.plane) j.plane.length j.plane i) →
      let t : State := modComp (fun c => { c with engines := modAt c.engines e fun x => { x with blk := none } }) s
      (v.1 = .match_ → exec (.blockDone e faults) s = .next (blockReady j.id i v.2 long false t)) ∧
      (v.1 = .codedMismatch → exec (.blockDone e faults) s = .next (blockReady j.id i v.2 false true (raise 1 0x0702 e [] t))) ∧
      (v.1 = .rawMismatchTwice → e < s.comp.engines.length → (∃ k, k ≠ e ∧ k < s.comp.engines.length ∧
          (s.comp.engines.getD k {}).out = false) →
        ∃ u, exec (.blockDone e faults) s = .next u ∧ (u.comp.engines.getD e {}).out = true ∧ (u.comp.engines.getD e {}).blk = none ∧
          u.comp.queue = s.comp.queue.map (fun q => if q.id = j.id then { q with again := q.again ++ [i] } else q) ∧
          u.log = (raise 1 0x0703 e [] (if long then s else raise 1 0x0702 e [] s)).log) ∧
      (v.1 = .rawMismatchTwice → (∀ k, k ≠ e → k < s.comp.engines.length → (s.comp.engines.getD k {}).out = true) →
        exec (.blockDone e faults) s = .next (engineOut e (raise 2 0x0703 e [] (if long then s else raise 1 0x0702 e [] s))))) ∧
  (∀ (e : Nat) (faults : List (List Nat)) (s : State), (s.comp.engines.getD e {}).blk = none → exec (.blockDone e faults) s = .next s) ∧
  (∀ (n id : Nat) (j : CompJob) (s : State), s.comp.queue.find? (fun q => q.id == id) = some j → j.writes ≠ jobBlocks j →
      (j.ready.lookup j.writes = none → writeReady (n + 1) id s = s) ∧
      ∀ b, j.ready.lookup j.writes = some b →
        (j.space < j.output.length + b.length → writeReady (n + 1) id s = jobStopped j s) ∧
        (j.output.length + b.length ≤ j.space → writeReady (n + 1) id s = writeReady n id (modComp (fun c => { c with
          emitted := wrapInc 64 c.emitted
          queue := c.queue.map fun q => if q.id = id then { j with
            writes := j.writes + 1, output := j.output ++ b, lens := j.lens ++ [b.length]
            ready := j.ready.filter fun r => r.1 != j.writes
            rawSize := j.rawSize + b2n (rawCopy false b), rawMis := j.rawMis + b2n (rawCopy true b) } else q }) s)))

/-- Encoding, the two engines and decoding. ENCODE_PICTURE_BEGIN takes the held input: without the ring space of a
worst picture the input is released, counted as not coded and logged as 0x0850 + m, else a picture begins with its cap
at most eight times PIC_CAP_BYTES and at most the buffer fullness. Each engine takes the unit of least key, and
neither does anything when no unit is ready. What an engine pushes never takes its FIFO past 256 CTUs, nor the other
FIFO's floor of 64. DECODE_TIME begins the oldest access unit when it is complete and its time has come.
ACCESS_UNIT_TIMEOUT logs 0x0848 + m, and with no byte present counts the unit lost. DECODED_PICTURE_OUTPUT takes the
picture of least POC still to be shown, when bumping or the end of the stream asks for it, and publishes it, or loses
it with 0x0850 + m when no output buffer is free. (Rests on R273, R275, R276, R278, R282, R290, R301, R303, R307,
R311.) -/
def Obligations.CodecUnits : Prop :=
  (∀ (m : Nat) (s : State), encOn m s = false ∨ (encOf m s).pic.isSome = true ∨ (encOf m s).input = none →
      exec (.encodePictureBegin m) s = .next s) ∧
  (∀ (m f : Nat) (pic : Picture) (u s : State), encOn m s = true → (encOf m s).pic = none → (encOf m s).input = some pic →
      m < s.codec.enc.length → u = trimRing m (loadRate m s) →
      f = (match (encOf m u).lastIn with
        | none => cfgN F.CODEC_RC_CPB_BITS m s
        | some t => min (cfgN F.CODEC_RC_CPB_BITS m s) ((encOf m u).f + cfgN F.CODEC_STRM_MAX_BPS m s * (pic.pub - t) / 1000000000)) →
      ((encOf m u).ring.length + ceilDiv (min (8 * cfgN F.CODEC_RC_PIC_CAP_BYTES m s) f) 8 ≤ cfgN F.CODEC_STRM_RING_BYTES m s →
        ∃ (t : State) (p : EncPic), exec (.encodePictureBegin m) s = .next t ∧ (encOf m t).pic = some p ∧ p.header = pic.header ∧
          p.cap = min (8 * cfgN F.CODEC_RC_PIC_CAP_BYTES m s) f ∧ p.reserved = ceilDiv p.cap 8 ∧ p.bound = s.cfg.accepted ∧
          (encOf m t).f = f ∧ (encOf m t).input = none ∧ (encOf m t).forceIdr = false ∧ p.deal = 0 ∧ p.dealt = 0 ∧
          (p.idr = true ↔ (encOf m u).forceIdr = true ∨ (encOf m u).k % max 1 (cfgN F.CODEC_RC_INTRA_PERIOD m s) = 0)) ∧
      (cfgN F.CODEC_STRM_RING_BYTES m s < (encOf m u).ring.length + ceilDiv (min (8 * cfgN F.CODEC_RC_PIC_CAP_BYTES m s) f) 8 →
        ∃ t, exec (.encodePictureBegin m) s = .next t ∧ (encOf m t).pic = none ∧ (encOf m t).f = f ∧
          (encOf m t).notCoded = wrapInc 32 (encOf m s).notCoded ∧ t.log.next = (raise 2 (0x0850 + m) m [] s).log.next)) ∧
  (∀ s : State, blkOn .codec s = true →
      (leastUnit (pixelUnits s) = none → exec .pixelEngineUnit s = .next s) ∧
      (leastUnit (entropyUnits s) = none → exec .entropyEngineUnit s = .next s) ∧
      (∀ a d m c r k : Nat, leastUnit (pixelUnits s) = some [a, d, m, c, r, k] →
        exec .pixelEngineUnit s = .next (if k = 0 then pixelEncode m s else pixelDecode s)) ∧
      (∀ a d m c r k : Nat, leastUnit (entropyUnits s) = some [a, d, m, c, r, k] →
        exec .entropyEngineUnit s = .next (if k = 0 then entropyEncode s else entropyDecode m s))) ∧
  (∀ (m n : Nat) (p : EncPic) (s : State), m < s.codec.enc.length → (encOf m s).pic = some p →
      n = min (p.cols - p.dealt) (encRoom s.codec) →
      (pixelEncode m s).codec.encFifo = s.codec.encFifo ++ [⟨m, p.deal, p.deal * p.cols + p.dealt, n, p.dcFrom.isSome,
        (List.range n).map fun i => ctuEntry m p (p.deal * p.cols + p.dealt + i)⟩] ∧
      fifoUsed (pixelEncode m s).codec.encFifo ≤ max (fifoUsed s.codec.encFifo) (256 - max 64 (fifoUsed s.codec.decFifo)) ∧
      (p.dealt + n < p.cols → (encOf m (pixelEncode m s)).pic = some { p with dealt := p.dealt + n }) ∧
      (p.cols ≤ p.dealt + n → ∃ h, (encOf m (pixelEncode m s)).pic = some { p with deal := p.deal + 1, dealt := 0, holding := h })) ∧
  (∀ (m n : Nat) (a : DecAu) (s : State), m < s.codec.dec.length → (decOf m s).au = some a →
      n = min (max 1 a.cols - a.parsed % max 1 a.cols) (decRoom s.codec) → a.parsed + n < a.rows * a.cols →
      (entropyDecode m s).codec.decFifo = s.codec.decFifo ++ [⟨m, a.parsed / max 1 a.cols, a.parsed, n, false, []⟩] ∧
      fifoUsed (entropyDecode m s).codec.decFifo ≤ max (fifoUsed s.codec.decFifo) (256 - max 64 (fifoUsed s.codec.encFifo)) ∧
      (decOf m (entropyDecode m s)).au = some { a with parsed := a.parsed + n }) ∧
  (∀ (m : Nat) (s : State),
      (auDue m s = false ∨ (decOf m s).au.isSome = true ∨ decOn m s = false ∨ firstAu (decOf m s).input (decOf m s).ended = none →
        exec (.decodeTime m) s = .next s) ∧
      (∀ l k, decOn m s = true → auDue m s = true → (decOf m s).au = none →
        firstAu (decOf m s).input (decOf m s).ended = some l → (decOf m s).input.length = k + 1 →
        exec (.decodeTime m) s = .next (tryDecodes m k (beginDecode m l s)))) ∧
  (∀ (m t0 : Nat) (s : State), (decOf m s).t0 = some t0 → decOn m s = true → (decOf m s).au = none →
      firstAu (decOf m s).input (decOf m s).ended = none →
      decodeTimeOf m t0 ((decOf m s).n + F.CODEC_PIC_DEC_TIMEOUT.get m (decOf m s).bound) s ≤ todUnits (nowTod s) →
      (presentAu (decOf m s).input = [] →
        exec (.accessUnitTimeout m) s = .next (tryDecode m (skipAu m (raise 2 (0x0848 + m) m [] s)))) ∧
      (presentAu (decOf m s).input ≠ [] → exec (.accessUnitTimeout m) s =
        .next (tryDecode m (beginDecode m (presentAu (decOf m s).input) (raise 2 (0x0848 + m) m [] s))))) ∧
  (∀ (m i : Nat) (p : DecPic) (s : State), decOn m s = true → bumpDue (decOf m s) = true ∨ decDrained (decOf m s) = true →
      m < s.codec.dec.length → bumpPlace (decOf m s).dpb = some i → (decOf m s).dpb[i]? = some p →
      let u : State := modDec m (fun y => { y with dpb := dropUnused (modAt (decOf m s).dpb i fun q => { q with needed := false }) }) s
      exec (.decodedPictureOutput m) s = .next (outputPicture m p u) ∧
      ((claimOut (decOf m u).out).2 = false → (decOf m (outputPicture m p u)).outputs = (decOf m s).outputs ∧
        (decOf m (outputPicture m p u)).lost = wrapInc 32 (decOf m s).lost)) ∧
  (∀ (i : Nat) (l : List DecPic), bumpPlace l = some i →
      ∃ p, l[i]? = some p ∧ p.needed = true ∧ ∀ q ∈ l, q.needed = true → p.poc ≤ q.poc) ∧
  (∀ (m : Nat) (s : State), decOn m s = false ∨ (bumpDue (decOf m s) = false ∧ decDrained (decOf m s) = false) →
      exec (.decodedPictureOutput m) s = .next s)

/-- Units, durability points and playbacks of the recorder. RECORD_UNIT_COMPLETE deals the units that wait to the hash
engines and takes the completed unit of its stream that an engine holds: with no clip it is let go, or kept among the
newest units of the pre-roll; in a clip whose range it meets it is written, and outside it is let go. A unit that no
engine holds waits. A durability point begins with a Flush to every member and captures the written positions; a point
asked for while one runs begins after it. PLAYBACK_READ_COMPLETE ends the oldest read in flight of its playback, and
with none asks for the next; a failed read ends the playback, the last one of a unit feeds the decoder, and a unit
without room in the decode ring waits. (Rests on R320, R322, R339, R344, R356, R357.) -/
def Obligations.RecorderUnits : Prop :=
  (∀ (j : Nat) (s : State), recOn s = false → exec (.recordUnitComplete j) s = .next s) ∧
  (∀ (j : Nat) (s : State), recOn s = true → s.rcd.clip = none → hashing j (dealUnits s) = false →
      exec (.recordUnitComplete j) s = .next (dealUnits s)) ∧
  (∀ (j : Nat) (u : RecUnit) (rest : List RecUnit) (s : State), recOn s = true → redOn s = false → (recStream j s).ready = u :: rest →
      hashing j (dealUnits s) = true → s.rcd.clip = none → j < s.rcd.streams.length →
      ∃ t, exec (.recordUnitComplete j) s = .next t ∧ (recStream j t).ready = rest ∧
        (recStream j t).preroll = (if prerollBytes s.cfg.accepted j = 0 then (recStream j s).preroll
          else trimUnits (prerollBytes s.cfg.accepted j) ((recStream j s).preroll ++ [{ u with stage := 0 }])) ∧
        (recStream j t).stageUsed = (recStream j s).stageUsed - u.stage ∧ t.rcd.map = s.rcd.map ∧ t.rcd.ssds = s.rcd.ssds) ∧
  (∀ (j : Nat) (u : RecUnit) (rest : List RecUnit) (c : Clip) (s : State), recOn s = true → redOn s = false →
      (recStream j s).ready = u :: rest → hashing j (dealUnits s) = true → s.rcd.clip = some c →
      let v : State := modRecStream j (fun x => { x with ready := rest }) (dealUnits s)
      (c.ending = none → inClip c j u v = true → (cfgN F.REC_KIND j s ≠ 1 ∨ u.idr = true ∨ (recStream j v).open_ = true) →
        exec (.recordUnitComplete j) s =
          .next (checkStop (dealUnits (writeUnit c j u (modRecStream j (fun x => { x with open_ := true }) v))))) ∧
      (c.ending.isSome = true ∨ inClip c j u v = false →
        exec (.recordUnitComplete j) s = .next (checkStop (dealUnits (freeStage j u.stage v))))) ∧
  (∀ s : State, recOn s = true → s.rcd.volume = 2 → s.rcd.clip = none → s.rcd.phase ≠ .idle →
      exec .durabilityPoint s = .next (modRec (fun r => { r with pointDue := true }) s)) ∧
  (∀ s : State, recOn s = true → s.rcd.volume = 2 → s.rcd.clip = none → s.rcd.phase = .idle → s.rcd.members ≠ [] →
      membersOk s = true →
      ∃ t, exec .durabilityPoint s = .next t ∧ t.rcd.phase = .flushing ∧ t.rcd.waiting = s.rcd.members.length ∧
        t.rcd.taken = s.rcd.streams.map (·.written) ∧
        ∀ k ∈ s.rcd.members, k < s.rcd.ssds.length → ∃ c ∈ (ssdOf k t).cmds, c.op = .flush ∧ s.rcd.nextCmd ≤ c.id) ∧
  (∀ s : State, recOn s = false → exec .durabilityPoint s = .next s) ∧
  (∀ (m : Nat) (ok : Bool) (l : List (Nat × Nat)) (s : State), recOn s = true →
      l = s.rcd.members.flatMap (fun k => ((ssdOf k s).cmds.filter fun c => isPlayRead m c.op && ssdIssued (ssdOf k s) c).map fun c => (c.id, k)) →
      (∀ id k, l.find? (fun p => l.all fun q => decide (p.1 ≤ q.1)) = some (id, k) →
        exec (.playbackReadComplete m ok) s = .next (completeSsd k id ok s)) ∧
      (l = [] → exec (.playbackReadComplete m ok) s = .next (playPump m s)) ∧
      (l = [] → (s.rcd.plays.getD m {}).state ≠ 1 → exec (.playbackReadComplete m ok) s = .next s)) ∧
  (∀ (m : Nat) (ok : Bool) (s : State), recOn s = false → exec (.playbackReadComplete m ok) s = .next s) ∧
  (∀ (m dst : Nat) (l b : List Byte) (p : Playback) (s : State), s.rcd.plays.getD m {} = p → p.state = 1 →
      let v : State := modPlay m (fun x => { x with left := x.left - 1 }) s
      (playRead m false dst l s = raise 2 0x090B m []
        (modPlay m (fun x => { x with state := 3, failures := wrapInc 32 x.failures, pieces := [], buf := none }) v)) ∧
      (p.buf = some b → p.pieces ≠ [] ∨ 1 < p.left →
        playRead m true dst l s = playPump m (modPlay m (fun x => { x with buf := some (overlay b dst l) }) v)) ∧
      (p.buf = some b → p.pieces = [] → p.left ≤ 1 → playRead m true dst l s = playPump m (feedDecoder m (overlay b dst l)
        (p.at_ + 1 == p.entries) (modPlay m (fun x => { x with
          at_ := x.at_ + 1, lastNum := fieldAt (tableEntry p.table p.at_ v) 0 8, units := wrapInc 32 x.units
          state := if p.at_ + 1 == p.entries then 2 else 1, buf := none }) v)))) ∧
  (∀ (m : Nat) (p : Playback) (s : State), s.rcd.plays.getD m {} = p → p.state = 1 → p.pieces = [] → p.buf = none → p.at_ < p.entries →
      cfgN F.CODEC_STRM_RING_BYTES m s < (decOf m s).input.length + fieldAt (tableEntry p.table p.at_ s) 0x18 4 →
      (playPump m s).rcd.ssds = s.rcd.ssds ∧ ((playPump m s).rcd.plays.getD m {}).buf = none)

/-- Completions, timeouts and recovery of member SSDs. A completion of an issued command removes it from the member
and, when it succeeded, leaves on the medium what the command wrote; when it failed, the member's error log is asked
for; the recorder or the endpoint then goes on. A command that times out is aborted, an abort that does not return
resets the SSD, and a reset that does not return fails it: the SSD is failed and its commands end as errors. An event
for a command that is not in that phase, or not issued, changes nothing. (Rests on R341, R342, R350.) -/
def Obligations.SsdCommands : Prop :=
  (∀ (k id : Nat) (c : SsdCmd) (s : State), (ssdOf k s).cmds.find? (fun c => c.id == id) = some c → ssdIssued (ssdOf k s) c = true →
      let u : State := modSsd k (fun d => { d with cmds := d.cmds.filter fun x => x.id != id }) s
      let v : State := modMedia k (mediaFailed s.drawn c.op) (drawOne u)
      exec (.ssdCommandCompletion k id true) s = .next (checkStop (ssdDone k c true (modMedia k (mediaAfter c.op) u))) ∧
      exec (.ssdCommandCompletion k id false) s =
        .next (checkStop (ssdDone k c false (if isAdmin c.op then v else sendAdmin k (.getLog 1) v))) ∧
      (k < s.rcd.ssds.length → ∀ x ∈ (ssdOf k u).cmds, x.id ≠ id)) ∧
  (∀ (k id : Nat) (ok : Bool) (s : State), (∀ c ∈ (ssdOf k s).cmds, c.id = id → ssdIssued (ssdOf k s) c = false) →
      exec (.ssdCommandCompletion k id ok) s = .next s) ∧
  (∀ (j f slot off : Nat) (l : List Byte) (m : Media),
      (mediaAfter (.unit j f slot off l) m).slots.lookup slot = some (overlay ((m.slots.lookup slot).getD []) off l)) ∧
  (∀ (k id : Nat) (s : State), k < s.rcd.ssds.length →
      ((∃ c ∈ (ssdOf k s).cmds, c.id = id ∧ c.phase = 0 ∧ ssdIssued (ssdOf k s) c = true) → (ssdOf k s).failed = false →
        ∃ t, exec (.ssdCommandTimeout k id) s = .next t ∧
          (ssdOf k t).cmds = (ssdOf k s).cmds.map (fun c => if c.id == id then { c with phase := 1 } else c) ++
            [{ id := s.rcd.nextCmd, queue := 0, op := .admin (.abort id), since := s.dev.elapsed }]) ∧
      ((∀ c ∈ (ssdOf k s).cmds, c.id = id → c.phase ≠ 0 ∨ ssdIssued (ssdOf k s) c = false) →
        exec (.ssdCommandTimeout k id) s = .next s)) ∧
  (∀ (k id : Nat) (s : State), k < s.rcd.ssds.length → ((∃ c ∈ (ssdOf k s).cmds, c.id = id ∧ c.phase = 1) →
        ∃ t, exec (.ssdAbortExpiry k id) s = .next t ∧ ∀ c ∈ (ssdOf k t).cmds, c.phase = 2) ∧
      ((∀ c ∈ (ssdOf k s).cmds, c.id ≠ id ∨ c.phase ≠ 1) → exec (.ssdAbortExpiry k id) s = .next s)) ∧
  (∀ (k : Nat) (s : State), k < s.rcd.ssds.length → ((∃ c ∈ (ssdOf k s).cmds, c.phase = 2) →
        ∃ t, exec (.ssdResetExpiry k) s = .next t ∧ (ssdOf k t).failed = true) ∧
      ((∀ c ∈ (ssdOf k s).cmds, c.phase ≠ 2) → exec (.ssdResetExpiry k) s = .next s))

/-- The NVMe controller: enabling, doorbells, fetching, range locks, shutdown and reset. Enabling with valid admin
queue sizes makes the controller ready with its one admin queue pair; disabling or loss of the link deletes every
queue and every command. A shutdown waits for the outstanding commands and then flushes every member in service. A
tail doorbell within its queue announces the entries it counts, and a doorbell that names no queue or a value beyond
the queue is an event. Fetching takes commands in order under rising arrival numbers. A command begins when no earlier
I/O command conflicts with its range. A completion queue that stays full is fatal and logs 0x0A02. A completion is
posted, with the queue's phase, while the queue has room, and a command that completes is no longer outstanding; a
full queue holds its completion. (Rests on R369, R372, R373, R374, R378, R383, R384, R385.) -/
def Obligations.ControllerAndQueues : Prop :=
  (∀ (a c : Nat) (s : State), epOn s = true → s.ep.linkUp = true → s.ep.ready = false → 2 ≤ a → a ≤ 1024 → 2 ≤ c → c ≤ 1024 →
      ∃ t, exec (.controllerEnable a c) s = .next t ∧ t.ep.ready = true ∧
        t.ep.sqs = [{ id := 0, size := a, cq := 0 }] ∧ (∃ q, t.ep.cqs = [q] ∧ q.id = 0 ∧ q.size = c ∧ q.posted = [] ∧ q.held = []) ∧
        t.ep.cmds = s.ep.cmds ∧ t.rcd = s.rcd) ∧
  (∀ s : State, epOn s = true →
      (∃ t, exec .controllerDisable s = .next t ∧ t.ep.ready = false ∧ t.ep.shst = 0 ∧ t.ep.sqs = [] ∧ t.ep.cqs = [] ∧ t.ep.cmds = [] ∧
        t.ep.linkUp = s.ep.linkUp) ∧
      (∃ t, exec .pcieLinkLoss s = .next t ∧ t.ep.linkUp = false ∧ t.ep.ready = false ∧ t.ep.sqs = [] ∧ t.ep.cqs = [] ∧ t.ep.cmds = [])) ∧
  (∀ s : State, epOn s = false → exec .controllerDisable s = .next s ∧ exec .pcieLinkLoss s = .next s) ∧
  (∀ s : State, epReady s = true → s.ep.shst = 0 → s.ep.shutSent = false →
      ((∃ c ∈ s.ep.cmds, c.sq ≠ 0 ∨ c.cmd.opc ≠ 0xC) →
        exec .controllerShutdown s = .next (modEp (fun e => { e with shst := 1 }) s)) ∧
      ((∀ c ∈ s.ep.cmds, c.sq = 0 ∧ c.cmd.opc = 0xC) → ∃ t, exec .controllerShutdown s = .next t ∧ t.ep.shutSent = true ∧
        ((∀ k ∈ s.rcd.members, (ssdOf k s).failed = true) → t.ep.shst = 2) ∧
        ∀ k ∈ s.rcd.members, k < s.rcd.ssds.length → (ssdOf k s).failed = false → ∃ x ∈ (ssdOf k t).cmds, x.op = .hostFlush 0)) ∧
  (∀ (qid v : Nat) (cmds : List NvmeCmd) (q : SubQ) (s : State), epOn s = true → s.ep.ready = true →
      s.ep.sqs.find? (fun q => q.id == qid) = some q →
      (v < q.size → exec (.doorbellWrite false qid v cmds) s = .next (modEp (fun e => { e with
        sqs := e.sqs.map fun x => if x.id = qid then
          { x with tail := v, entries := x.entries ++ cmds.take ((v + q.size - q.tail) % q.size) } else x }) s)) ∧
      (q.size ≤ v → exec (.doorbellWrite false qid v cmds) s = .next (pushEvent (1 * 2 ^ 8 + 1 * 2 ^ 16) s))) ∧
  (∀ (qid v : Nat) (cmds : List NvmeCmd) (s : State), epOn s = true → s.ep.ready = true →
      s.ep.cqs.find? (fun q => q.id == qid) = none → exec (.doorbellWrite true qid v cmds) s = .next (pushEvent (1 * 2 ^ 16) s)) ∧
  (∀ (q : SubQ) (c : NvmeCmd) (s : State), epReady s = true → s.ep.shst = 0 → s.ep.sqs = [q] → q.id = 0 →
      q.entries = [c] → knownOpcode true c.opc = true → c.opc ≠ 8 → c.opc ≠ 0xC → (∀ d ∈ s.ep.cmds, d.sq ≠ 0 ∨ d.cmd.cid ≠ c.cid) →
      exec .commandFetch s = .next (modEp (fun e => { e with
        arrivals := e.arrivals + 1, cmds := e.cmds ++ [{ arrival := e.arrivals + 1, sq := 0, cmd := c }]
        sqs := [{ q with entries := [], head := (q.head + 1) % max 1 q.size }] }) s)) ∧
  (∀ s : State, epReady s = false → exec .commandFetch s = .next s) ∧
  (∀ (a : Nat) (c : HostCmd) (s : State), hostCmd a s = some c → c.sq ≠ 0 →
      (lockWait c s = false → exec (.rangeLockBegin a) s = .next (modEp (fun e => { e with
        cmds := e.cmds.map fun d => if d.arrival = a then { d with begun := true } else d }) s)) ∧
      (lockWait c s = true → exec (.rangeLockBegin a) s = .next s)) ∧
  (∀ (q : Nat) (c : CplQ) (s : State), s.ep.cqs.find? (fun c => c.id == q) = some c → epReady s = true → c.held ≠ [] →
      ∃ t, exec (.hostCqTimeout q) s = .next t ∧ t.ep.fatal = true ∧ t.ep.cmds = [] ∧ (∀ x ∈ t.ep.cqs, x.held = []) ∧
        t.ep.timeouts = wrapInc 64 s.ep.timeouts ∧ t.log = (raise 1 0x0A02 noInst [q] s).log) ∧
  (∀ (a : Nat) (c : HostCmd) (s : State), hostCmd a s = some c → c.done = false → epReady s = true → s.ep.shst = 0 →
      exec (.pcieCompletionTimeout a) s =
        .next (completeOn c.sq c.cmd a 0x004 0 [] (modEp (fun e => { e with aer := e.aer ||| 0x4000 }) s))) ∧
  (∀ (qid : Nat) (q : CplQ) (x : Completion) (s : State), s.ep.cqs.find? (fun q => q.id == qid) = some q →
      (q.held = [] → q.posted.length + 1 < q.size →
        (∀ d ∈ (deliverCq qid x s).ep.cmds, d.arrival ≠ x.arrival) ∧
        ∃ y, (deliverCq qid x s).ep.cqs.find? (fun q => q.id == qid) = some y ∧ y.posted = q.posted ++ [{ x with phase := q.phase }]) ∧
      (q.size ≤ q.posted.length + 1 →
        ∃ y, (deliverCq qid x s).ep.cqs.find? (fun q => q.id == qid) = some y ∧ y.posted = q.posted ∧ y.held = q.held ++ [x]))

/-- The admin commands of the endpoint. Each admin row runs the command that its arrival number names and completes it
with the status R385 gives: a queue is created with a free identifier in range and a valid size, and only the last
submission queue of a completion queue lets it be deleted; Identify, the log pages and the features answer data; Abort
catches an I/O command of which no member has a command and otherwise answers 1; an Asynchronous Event Request waits
for an event or takes the oldest one; a self-test starts, is aborted, or is refused while one runs, and goes on step
by step and segment by segment until one fails or the last has passed. A row for which no such command is outstanding
changes nothing. (Rests on R363, R369, R371, R376, R379, R381, R385.) -/
def Obligations.AdminCommands : Prop :=
  (∀ (a : Nat) (s : State), hostCmd a s = none →
      ∀ r ∈ [Instr.createIoCq a, .createIoSq a, .deleteIoCq a, .deleteIoSq a, .identify a, .getLogPage a, .setFeatures a, .getFeatures a,
        .asynchronousEventRequest a, .abort a, .deviceSelfTest a], exec r s = .next s) ∧
  (∀ (a n : Nat) (c : HostCmd) (s : State), AdminCmd 5 a c s → n = c.cmd.cdw10 % 65536 →
      (n = 0 ∨ cfgN F.EP0_IOQ_MAX 0 s < n ∨ (∃ q ∈ s.ep.cqs, q.id = n) → exec (.createIoCq a) s = .next (finishCmd a 0x101 0 [] s)) ∧
      (n ≠ 0 → n ≤ cfgN F.EP0_IOQ_MAX 0 s → (∀ q ∈ s.ep.cqs, q.id ≠ n) → 1 ≤ c.cmd.cdw10 / 65536 →
        c.cmd.cdw10 / 65536 ≤ cfgN F.EP0_MQES 0 s → c.cmd.cdw11 % 2 = 1 → c.cmd.prp1 % 4096 = 0 →
        (16 < c.cmd.cdw11 / 65536 → exec (.createIoCq a) s = .next (finishCmd a 0x108 0 [] s)) ∧
        (c.cmd.cdw11 / 65536 ≤ 16 → exec (.createIoCq a) s = .next (finishCmd a 0 0 [] (modEp (fun e => { e with
          cqs := e.cqs ++ [{ id := n, size := c.cmd.cdw10 / 65536 + 1, vector := c.cmd.cdw11 / 65536, ien := c.cmd.cdw11 / 2 % 2 == 1 }] }) s))))) ∧
  (∀ (a n k : Nat) (c : HostCmd) (s : State), AdminCmd 1 a c s → n = c.cmd.cdw10 % 65536 → k = c.cmd.cdw11 / 65536 →
      n ≠ 0 → n ≤ cfgN F.EP0_IOQ_MAX 0 s → (∀ q ∈ s.ep.sqs, q.id ≠ n) → 1 ≤ c.cmd.cdw10 / 65536 →
      c.cmd.cdw10 / 65536 ≤ cfgN F.EP0_MQES 0 s → c.cmd.cdw11 % 2 = 1 → c.cmd.prp1 % 4096 = 0 → k ≠ 0 →
      ((∃ q ∈ s.ep.cqs, q.id = k) → exec (.createIoSq a) s = .next (finishCmd a 0 0 [] (modEp (fun e => { e with
        sqs := e.sqs ++ [{ id := n, size := c.cmd.cdw10 / 65536 + 1, cq := k }] }) s))) ∧
      ((∀ q ∈ s.ep.cqs, q.id ≠ k) → exec (.createIoSq a) s = .next (finishCmd a 0x101 0 [] s))) ∧
  (∀ (a n : Nat) (c : HostCmd) (s : State), AdminCmd 4 a c s → n = c.cmd.cdw10 % 65536 → n ≠ 0 → (∃ q ∈ s.ep.cqs, q.id = n) →
      ((∃ q ∈ s.ep.sqs, q.cq = n) → exec (.deleteIoCq a) s = .next (finishCmd a 0x10C 0 [] s)) ∧
      ((∀ q ∈ s.ep.sqs, q.cq ≠ n) → exec (.deleteIoCq a) s =
        .next (finishCmd a 0 0 [] (modEp (fun e => { e with cqs := e.cqs.filter fun q => q.id != n }) s)))) ∧
  (∀ (a n : Nat) (c : HostCmd) (s : State), AdminCmd 0 a c s → n = c.cmd.cdw10 % 65536 → n ≠ 0 → (∃ q ∈ s.ep.sqs, q.id = n) →
      (∀ d ∈ s.ep.cmds, d.sq ≠ n) → exec (.deleteIoSq a) s =
        .next (finishCmd a 0 0 [] (modEp (fun e => { e with sqs := e.sqs.filter fun q => q.id != n }) s))) ∧
  (∀ (a : Nat) (c : HostCmd) (s : State), AdminCmd 6 a c s → c.cmd.prp1 % 4 = 0 →
      (c.cmd.cdw10 % 256 = 0 → c.cmd.nsid = 1 → exec (.identify a) s = .next (finishCmd a 0 0 (identifyNamespace s) s)) ∧
      (c.cmd.cdw10 % 256 = 1 → exec (.identify a) s = .next (finishCmd a 0 0 (identifyController s) s)) ∧
      (3 < c.cmd.cdw10 % 256 → exec (.identify a) s = .next (finishCmd a 0x002 0 [] s))) ∧
  (∀ (a : Nat) (c : HostCmd) (s : State), AdminCmd 2 a c s → c.cmd.prp1 % 4 = 0 →
      (∀ l, logPage (c.cmd.cdw10 % 256) s = some l → exec (.getLogPage a) s = .next (finishCmd a 0 0
        (slice l c.cmd.cdw12 (min ((c.cmd.cdw10 / 65536 + c.cmd.cdw11 % 65536 * 65536 + 1) * 4) (l.length - c.cmd.cdw12))) (drawOne s))) ∧
      (logPage (c.cmd.cdw10 % 256) s = none → exec (.getLogPage a) s = .next (finishCmd a 0x109 0 [] s))) ∧
  (∀ (a : Nat) (c : HostCmd) (s : State), AdminCmd 9 a c s →
      (c.cmd.cdw10 / 2 ^ 31 = 1 → exec (.setFeatures a) s = .next (finishCmd a 0x10D 0 [] s)) ∧
      (c.cmd.cdw10 / 2 ^ 31 ≠ 1 → c.cmd.cdw10 % 256 = 6 → exec (.setFeatures a) s =
        .next (finishCmd a 0 0 [] (modEp (fun e => { e with vwc := c.cmd.cdw11 % 2 == 1 }) s))) ∧
      (c.cmd.cdw10 / 2 ^ 31 ≠ 1 → c.cmd.cdw10 % 256 = 0xB → exec (.setFeatures a) s =
        .next (finishCmd a 0 0 [] (modEp (fun e => { e with aec := c.cmd.cdw11 }) s)))) ∧
  (∀ (a v : Nat) (c : HostCmd) (s : State), AdminCmd 0xA a c s → featureValue (c.cmd.cdw10 % 256) c.cmd.cdw11 s = some v →
      (bits c.cmd.cdw10 10 8 = 0 → exec (.getFeatures a) s = .next (finishCmd a 0 v [] s)) ∧
      (bits c.cmd.cdw10 10 8 = 3 → exec (.getFeatures a) s = .next (finishCmd a 0 4 [] s))) ∧
  (∀ (a : Nat) (c : HostCmd) (s : State), AdminCmd 0xC a c s →
      let u : State := modEp (fun e => { e with cmds := e.cmds.map fun d => if d.arrival = a then { d with begun := true } else d }) s
      (s.ep.events = [] → exec (.asynchronousEventRequest a) s = .next u) ∧
      ∀ ev r, s.ep.events = ev :: r → exec (.asynchronousEventRequest a) s =
        .next (finishCmd a 0 ev [] (modEp (fun e => { e with events := r }) u))) ∧
  (∀ (a : Nat) (c : HostCmd) (s : State), AdminCmd 8 a c s →
      (∀ d, c.cmd.cdw10 % 65536 ≠ 0 → s.ep.cmds.find? (fun d => d.sq == c.cmd.cdw10 % 65536 && c.cmd.cdw10 % 65536 != 0 &&
          d.cmd.cid == c.cmd.cdw10 / 65536 && !d.done && (!d.issued || queueWait d.arrival s)) = some d →
        exec (.abort a) s = .next (finishCmd a 0 0 [] (modEp (fun e => { e with caught := wrapInc 64 e.caught })
          (finishCmd d.arrival 0x007 0 [] (dropQueued d.arrival s))))) ∧
      ((∀ d ∈ s.ep.cmds, d.sq ≠ c.cmd.cdw10 % 65536 ∨ d.cmd.cid ≠ c.cmd.cdw10 / 65536) →
        (∀ q ∈ s.ep.sqs, q.id ≠ c.cmd.cdw10 % 65536) →
        exec (.abort a) s = .next (finishCmd a 0 1 [] (modEp (fun e => { e with missed := wrapInc 64 e.missed }) s)))) ∧
  (∀ (a : Nat) (c : HostCmd) (s : State), AdminCmd 0x14 a c s →
      (s.ep.test = none → c.cmd.cdw10 % 16 = 1 ∨ c.cmd.cdw10 % 16 = 2 → exec (.deviceSelfTest a) s =
        .next (finishCmd a 0 0 [] (modEp (fun e => { e with test := some ⟨c.cmd.cdw10 % 16, 1, 0⟩ }) s))) ∧
      (s.ep.test.isSome = true → c.cmd.cdw10 % 16 = 1 ∨ c.cmd.cdw10 % 16 = 2 → exec (.deviceSelfTest a) s =
        .next (finishCmd a 0x11D 0 [] s)) ∧
      (∀ t, s.ep.test = some t → c.cmd.cdw10 % 16 = 0xF → exec (.deviceSelfTest a) s =
        .next (finishCmd a 0 0 [] (modEp (fun e => { e with test := none, results := ((0x1 + t.code * 16, 0) :: e.results).take 20 }) s)))) ∧
  (∀ (k : SelfTest) (s : State), s.ep.test = some k → epOn s = true → ioCmds s = [] →
      (∀ m ∈ s.rcd.members, (ssdOf m s).cmds = []) →
      (∃ t, exec (.selfTestStep false) s = .next t ∧ t.ep.test = none ∧
        t.ep.results = ((0x7 + k.code * 16, k.segment) :: s.ep.results).take 20 ∧ t.log = (raise 0 0x0A04 noInst [k.segment] s).log) ∧
      (k.step + 1 < segSteps k.segment s → k.segment ≠ 1 ∨ s.rcd.volume ≠ 0 →
        exec (.selfTestStep true) s = .next (modEp (fun e => { e with test := some { k with step := k.step + 1 } }) s)) ∧
      (segSteps k.segment s ≤ k.step + 1 → segmentOk k.segment s = true →
        (∀ n, nextSegment k.code k.segment = some n →
          exec (.selfTestStep true) s = .next (modEp (fun e => { e with test := some { k with segment := n, step := 0 } }) s)) ∧
        (nextSegment k.code k.segment = none → exec (.selfTestStep true) s = .next (endTest k 0 0 s))) ∧
      (segSteps k.segment s ≤ k.step + 1 → segmentOk k.segment s = false →
        exec (.selfTestStep true) s = .next (raise 0 0x0A04 noInst [k.segment] (endTest k 0x7 k.segment s))))

/-- The I/O commands of the endpoint. A Read, Write or Write Zeroes that holds its lock first meets the checks of its
namespace, volume, length and range, and completes with the status of the first that fails. A Read whose LBAs no
written granule holds completes with zeros; a Read, a Write or a Write Zeroes of members in service is issued to them,
and a failed member of a Write's range is a Write Fault with nothing issued. A Flush waits while an earlier command
other than an Asynchronous Event Request is outstanding, and is then sent to every member. (Rests on R364, R365, R366,
R370, R374, R378, R385.) -/
def Obligations.IoCommands : Prop :=
  (∀ (a : Nat) (c : HostCmd) (d : List Byte) (s : State),
      (IoCmd 2 a c s → ioStatus c.cmd s ≠ 0 → exec (.read a) s = .next (finishCmd a (ioStatus c.cmd s) 0 [] s)) ∧
      (IoCmd 1 a c s → ioStatus c.cmd s ≠ 0 → exec (.write a d) s = .next (finishCmd a (ioStatus c.cmd s) 0 [] s)) ∧
      (IoCmd 8 a c s → ioStatus c.cmd s ≠ 0 → exec (.writeZeroes a) s = .next (finishCmd a (ioStatus c.cmd s) 0 [] s))) ∧
  (∀ (c : NvmeCmd) (s : State), (c.nsid ≠ 1 → ioStatus c s = 0x00B) ∧
      (c.nsid = 1 → s.rcd.volume = 0 → ioStatus c s = 0x082) ∧
      (c.nsid = 1 → s.rcd.volume = 2 → c.opc = 1 → (lbaRange c).2 ≤ 256 → c.prp1 % 4 = 0 →
        (lbaRange c).1 + (lbaRange c).2 ≤ nsze s → (lbaRange c).1 * 4096 < s.rcd.sidecar * volG s → ioStatus c s = 0x286)) ∧
  (∀ (a : Nat) (c : HostCmd) (ps : List (Nat × Nat × Option (Nat × Nat))) (s : State), IoCmd 2 a c s → ioStatus c.cmd s = 0 →
      ps = volPieces ((lbaRange c.cmd).2 * 4096 + 1) 0 ((lbaRange c.cmd).1 * 4096) ((lbaRange c.cmd).2 * 4096) s →
      (∀ p ∈ ps, p.2.2 = none) →
      ∃ u, exec (.read a) s = .next (finishCmd a 0 0 (List.replicate ((lbaRange c.cmd).2 * 4096) 0) u) ∧
        u.ep.cmdsRead = s.ep.cmdsRead + 1 ∧ u.rcd = (walk false (rangeGrans c.cmd s) s).rcd) ∧
  (∀ (a dst len k off : Nat) (c : HostCmd) (s : State), IoCmd 2 a c s → ioStatus c.cmd s = 0 →
      volPieces ((lbaRange c.cmd).2 * 4096 + 1) 0 ((lbaRange c.cmd).1 * 4096) ((lbaRange c.cmd).2 * 4096) s = [(dst, len, some (k, off))] →
      (ssdOf k s).failed = false → k < s.rcd.ssds.length →
      ∃ t, exec (.read a) s = .next t ∧ t.ep.unitsRead = s.ep.unitsRead + (lbaRange c.cmd).2 * 8 ∧
        (ssdOf k t).cmds = (ssdOf k s).cmds ++
          [{ id := s.rcd.nextCmd, queue := metaQueue, op := .hostRead a dst off len (cmdFua c.cmd), since := s.dev.elapsed }]) ∧
  (∀ (a : Nat) (c : HostCmd) (ps : List (Nat × Nat × Option (Nat × Nat))) (s : State), IoCmd 2 a c s → ioStatus c.cmd s = 0 →
      ps = volPieces ((lbaRange c.cmd).2 * 4096 + 1) 0 ((lbaRange c.cmd).1 * 4096) ((lbaRange c.cmd).2 * 4096) s →
      (∃ p ∈ ps, ∃ q, p.2.2 = some q ∧ (ssdOf q.1 s).failed = true) → exec (.read a) s = .next (finishCmd a 0x281 0 [] s)) ∧
  (∀ (a : Nat) (c : HostCmd) (d : List Byte) (ps : List (Nat × Nat × Option (Nat × Nat))) (s : State), ioStatus c.cmd s = 0 →
      ps = volPieces ((lbaRange c.cmd).2 * 4096 + 1) 0 ((lbaRange c.cmd).1 * 4096) ((lbaRange c.cmd).2 * 4096) s →
      (∃ p ∈ ps, ∃ q, p.2.2 = some q ∧ (ssdOf q.1 s).failed = true) → c.arrival = a →
      (IoCmd 1 a c s → exec (.write a d) s = .next (finishCmd a 0x280 0 [] s)) ∧
      (IoCmd 8 a c s → exec (.writeZeroes a) s = .next (finishCmd a 0x280 0 [] s))) ∧
  (∀ (a dst len k off : Nat) (c : HostCmd) (s : State), ioStatus c.cmd s = 0 → c.arrival = a →
      volPieces ((lbaRange c.cmd).2 * 4096 + 1) 0 ((lbaRange c.cmd).1 * 4096) ((lbaRange c.cmd).2 * 4096) s = [(dst, len, some (k, off))] →
      (ssdOf k s).failed = false → k < s.rcd.ssds.length →
      let sent := fun (l : List Byte) => (ssdOf k s).cmds ++ [{ id := s.rcd.nextCmd, queue := metaQueue, since := s.dev.elapsed
                                                                op := .hostWrite a ((off - 0x21000000) / volG s)
                                                                  ((off - 0x21000000) % volG s) (cmdFua c.cmd || !s.ep.vwc) l }]
      (∀ d, IoCmd 1 a c s → ∃ t, exec (.write a d) s = .next t ∧ t.ep.unitsWritten = s.ep.unitsWritten + (lbaRange c.cmd).2 * 8 ∧
        (ssdOf k t).cmds = sent (padTo len (slice d dst len))) ∧
      (IoCmd 8 a c s → ∃ t, exec (.writeZeroes a) s = .next t ∧ t.ep.unitsWritten = s.ep.unitsWritten + (lbaRange c.cmd).2 * 8 ∧
        (ssdOf k t).cmds = sent (List.replicate len 0))) ∧
  (∀ (a : Nat) (c : HostCmd) (s : State), IoCmd 0 a c s →
      ((∃ d ∈ s.ep.cmds, d.arrival < a ∧ d.cmd.opc ≠ 0xC) → exec (.flush a) s = .next s) ∧
      ((∀ d ∈ s.ep.cmds, d.arrival < a → d.cmd.opc = 0xC) → c.cmd.nsid = 1 ∨ c.cmd.nsid = 0xFFFFFFFF →
        (s.rcd.volume = 0 → exec (.flush a) s = .next (finishCmd a 0x082 0 [] s)) ∧
        (s.rcd.volume ≠ 0 → membersOk s = true → ∃ t, exec (.flush a) s = .next t ∧
          (∀ k ∈ s.rcd.members, k < s.rcd.ssds.length → ∃ x ∈ (ssdOf k t).cmds, x.op = .hostFlush a) ∧
          ∀ x ∈ t.ep.cmds, x.arrival = a → x.issued = true ∧ x.left = s.rcd.members.length)))

/-- Bring-up, adaptation, faults and eye scans of a lane. A PLL that locks or relocks clears the PLL fault of its
lanes; a lost PLL puts its powered lanes into bring-up with the fault and a lane error each. Bring-up waits for its
PLL, stops a Shaft Link lane without a receiver with error kind 3, brings a transmit-only lane up at once, and
otherwise adapts. Equaliser taps move by one sign step within -128 and 127 and the CTLE setting by one where a
neighbour is 10 % better. A leg fault idles the transmitter, which is tried again after 100 ms. A fault is logged
once, when it begins. A scan point adds one count, and the last point completes the scan; a scan that loses its lane
keeps the counts it has. A PCIe port whose link trains has its powered lanes up. (Rests on R391, R400, R404, R405,
R409, R410, R411, R415, R416, R418, R420.) -/
def Obligations.LaneEvents : Prop :=
  (∀ (q : Nat) (ab : Bool) (s : State), q < 10 → (∃ n ∈ pllLanes q ab, laneOn n s = true) →
      2 * q + b2n ab < s.plls.length → s.lanes.length = 40 →
      ∃ t u, exec (.lanePllLock q ab) s = .next t ∧ exec (.lanePllRelock q ab true) s = .next u ∧ u = t ∧
        t.plls.getD (2 * q + b2n ab) false = true ∧ ∀ n ∈ pllLanes q ab, bits (laneOf n t).faults 0 0 = 0) ∧
  (∀ (q : Nat) (ab : Bool) (s : State), exec (.lanePllRelock q ab false) s = .next s) ∧
  (∀ (q : Nat) (ab : Bool) (s : State), q < 10 → s.plls.getD (2 * q + b2n ab) false = true →
      let u : State := losePll (pllLanes q ab) { s with plls := modAt s.plls (2 * q + b2n ab) fun _ => false }
      (groupOfLane ((pllLanes q ab).headD 0) u = none → groupOfLane ((pllLanes q ab).getD 1 0) u = none →
        exec (.lanePllLoss q ab) s = .next u) ∧
      ∀ g, groupOfLane ((pllLanes q ab).headD 0) u = some g → groupOfLane ((pllLanes q ab).getD 1 0) u = some g →
        exec (.lanePllLoss q ab) s = .next (redLinkDown (retrainFrom 1 g u))) ∧
  (∀ (q : Nat) (ab : Bool) (s : State), s.plls.getD (2 * q + b2n ab) false = false → exec (.lanePllLoss q ab) s = .next s) ∧
  (∀ (n : Nat) (o : LaneObs) (s : State), laneOn n s = false ∨ s.plls.getD (pllOf n) false = false ∨ (laneOf n s).idle = true →
      exec (.laneBringUp n o) s = .next s) ∧
  (∀ (n : Nat) (o : LaneObs) (s : State), laneOn n s = true → s.plls.getD (pllOf n) false = true → (laneOf n s).idle = false →
      (laneProto s.cfg.accepted n = 1 → o.receiver = false → exec (.laneBringUp n o) s = .next (laneErr 1 n 3 0
        (modLane n (fun l => { l with receiver := false, signal := false, state := 1 }) (endScan 2 n s)))) ∧
      (laneProto s.cfg.accepted n ≠ 4 → o.receiver = true → o.signal = true →
        exec (.laneBringUp n o) s = .next (adaptLane n o (if (laneOf n s).state = 2 then endScan 2 n s else s))) ∧
      (laneProto s.cfg.accepted n = 4 → exec (.laneBringUp n o) s = .next
        (modLane n (fun l => { l with receiver := o.receiver, state := 2 }) s)) ∧
      (laneProto s.cfg.accepted n = 2 → o.signal = false → exec (.laneBringUp n o) s = .next
        (modLane n (fun l => { l with receiver := o.receiver, signal := false, state := 1 }) (endScan 2 n s)))) ∧
  (∀ (n : Nat) (s : State), laneOn n s = true → exec (.signalDetect n) s = .next
      (modLane n (fun l => { l with signal := true, state := if l.state = 3 then 1 else l.state }) s)) ∧
  (∀ (n : Nat) (signs : List Int) (g : Int) (s : State), adapting n s = true → n < s.lanes.length →
      ∃ t, exec (.dfeUpdate n signs g) s = .next t ∧ (laneOf n t).dfe.length = (laneOf n s).dfe.length ∧
        (laneOf n t).gain = (laneOf n s).gain + Int.sign g ∧
        ∀ (k : Nat) (d : Int), (laneOf n s).dfe[k]? = some d → -128 ≤ d → d ≤ 127 →
          ∃ e, (laneOf n t).dfe[k]? = some e ∧ -128 ≤ e ∧ e ≤ 127 ∧ e ≤ d + 1 ∧ d ≤ e + 1) ∧
  (∀ (n below here above : Nat) (s : State), adapting n s = true → n < s.lanes.length →
      ∃ t, exec (.ctleUpdate n below here above) s = .next t ∧
        ((laneOf n s).ctle < 15 → 11 * here ≤ 10 * above → below ≤ above → (laneOf n t).ctle = (laneOf n s).ctle + 1) ∧
        (0 < (laneOf n s).ctle → 11 * here ≤ 10 * below → 10 * above < 11 * here → (laneOf n t).ctle + 1 = (laneOf n s).ctle) ∧
        (10 * above < 11 * here → 10 * below < 11 * here → (laneOf n t).ctle = (laneOf n s).ctle)) ∧
  (∀ (n : Nat) (s : State), adapting n s = false →
      (∀ l g, exec (.dfeUpdate n l g) s = .next s) ∧ (∀ a b c, exec (.ctleUpdate n a b c) s = .next s) ∧
      exec (.adaptationAtLimit n) s = .next s) ∧
  (∀ (n : Nat) (s : State), adapting n s = true → atEnd n (laneOf n s) = true → bits (laneOf n s).faults 5 5 = 0 →
      exec (.adaptationAtLimit n) s = .next (laneErr 0 n 9 0 (modLane n (setFault 5 true) s))) ∧
  (∀ (n : Nat) (b : Bool) (s : State), laneOn n s = true → n < s.lanes.length →
      ∃ t, exec (.transmitterLegFault n b) s = .next t ∧ (laneOf n t).idle = true ∧ (laneOf n t).idleAt = s.dev.elapsed ∧
        (laneOf n t).state = 4 ∧
        (bits (laneOf n s).faults (if b = true then 2 else 1) (if b = true then 2 else 1) = 1 → t.log = s.log) ∧
        (bits (laneOf n s).faults (if b = true then 2 else 1) (if b = true then 2 else 1) = 0 →
          t.log = (laneErr 1 n 5 (b2n b) s).log)) ∧
  (∀ (n : Nat) (s : State), laneOn n s = true → (laneOf n s).idle = true → laneProto s.cfg.accepted n ≠ 0 →
      ((laneOf n s).idleAt + 100 * ticksPerMs ≤ s.dev.elapsed → exec (.transmitterRetry n) s = .next
        (modLane n (fun x => { x with idle := false, state := 1 }) s)) ∧
      (s.dev.elapsed < (laneOf n s).idleAt + 100 * ticksPerMs → exec (.transmitterRetry n) s = .next s)) ∧
  (∀ (n : Nat) (s : State), laneOn n s = true →
      (bits (laneOf n s).faults 4 4 = 0 → exec (.commonModeFault n) s = .next (laneErr 1 n 6 0 (modLane n (setFault 4 true) s))) ∧
      (bits (laneOf n s).faults 4 4 = 1 → exec (.commonModeFault n) s = .next s) ∧
      (∀ f, exec (.laneFaultEnd n f) s = .next (modLane n (setFault (faultBit f) false) s))) ∧
  (∀ (n : Nat) (s : State), laneOn n s = true → (laneOf n s).state ≠ 3 → (laneOf n s).state ≠ 5 → n < s.lanes.length →
      ∃ t, exec (.lossOfSignal n) s = .next t ∧ (laneOf n t).state = 3 ∧ (laneOf n t).signal = false) ∧
  (∀ (n e : Nat) (c : Scan) (s : State), (laneOf n s).scan = some c → c.status = 0 → n < s.lanes.length →
      ∃ t d, exec (.scanPointComplete n e) s = .next t ∧ (laneOf n t).scan = some d ∧
        d.counts = c.counts ++ [min e 0xFFFFFFFF] ∧
        (d.status = if c.counts.length + 1 = c.rows * c.cols then 1 else 0) ∧
        ∃ d', (laneOf n (endScan 2 n s)).scan = some d' ∧ d'.status = 2 ∧ d'.counts = c.counts) ∧
  (∀ (n e : Nat) (s : State), (laneOf n s).scan = none → exec (.scanPointComplete n e) s = .next s) ∧
  (∀ (k w : Nat) (s : State), (k < 4 → exec (.pcieLinkUp (some k) w) s = .next (linkTrained k w s)) ∧
      (4 ≤ k → exec (.pcieLinkUp (some k) w) s = .next s) ∧
      (epOn s = true → exec (.pcieLinkUp none w) s = .next (linkTrained 4 w (modEp (fun e => { e with linkUp := true, width := w }) s))) ∧
      (epOn s = false → s.dev.state ≠ .configError → exec (.pcieLinkUp none w) s = .next s)) ∧
  (∀ (k w n : Nat) (s : State), n ∈ pcieLanes k s.cfg.accepted → laneOn n s = true → n < s.lanes.length →
      (laneOf n (linkTrained k w s)).state = 2 ∧ (4 ≤ w → (linkTrained k w s).log = s.log))

/-- Bring-up, training, alignment, capabilities, rate steps and retrains of a link group. Receiver detection moves a
group in bring-up to training when every lane has a receiver, and leaves it at step 1 otherwise. A training block with
a wrong CRC changes nothing; a good one records what it shows, counts toward eight ready blocks and is answered by the
lane's own block. A step that times out is logged and returns to step 1 without stepped rates. Two matching alignment
blocks on every lane with one counter pass step 5; a third wrong one on a later group retrains. A capability cell is
discarded when bad, refused with its error when it does not fit, and otherwise kept. A STEP to the next rate is
acknowledged, any other is refused. A retrain logs, counts, and goes back to training. (Rests on R431, R437, R449,
R450, R451, R453, R457.) -/
def Obligations.LinkTraining : Prop :=
  (∀ (g : Nat) (s : State), groupOn g s = true → (groupOf g s).state ≤ 1 → (groupOf g s).refused = false → s.red.state ≠ 6 →
      g < s.links.length →
      ∃ t, exec (.linkBringUp g) s = .next t ∧ exec (.receiverDetectionRetry g) s = .next t ∧
        ((groupOf g t).state = 2 ↔ ∀ n ∈ groupLanes s.cfg.accepted g, (laneOf n s).receiver = true) ∧
        ((groupOf g t).state = 1 ∨ (groupOf g t).state = 2) ∧ (groupOf g t).rate = firstRate g s) ∧
  (∀ (g : Nat) (s : State), 2 ≤ (groupOf g s).state → exec (.linkBringUp g) s = .next s ∧ exec (.receiverDetectionRetry g) s = .next s) ∧
  (∀ (g lane : Nat) (f : BitVec 48) (inv : Bool) (m : Nat) (s : State), crc8 f.toNat ≠ f.toNat % 256 →
      exec (.trainingBlock g lane f inv m) s = .next s) ∧
  (∀ (g lane m i : Nat) (f : BitVec 48) (s : State), groupOn g s = true → (groupOf g s).state = 2 →
      lane ∈ groupLanes s.cfg.accepted g → crc8 f.toNat = f.toNat % 256 → bits f.toNat 39 37 = 0 →
      i = lane - F.LINK_FIRST_LANE.get g s.cfg.accepted → ((groupOf g s).lanes.getD i {}).ackTap = 0 →
      exec (.trainingBlock g lane f false m) s = .next (endTraining g (sendBlock g i lane m (modTrain g i (fun t => { t with
          seen := some (bits f.toNat 47 44, bits f.toNat 43 40)
          streak := if readyMetric (groupOf g s).rate ≤ m ∧ bits f.toNat 29 29 = 1 then t.streak + 1 else 0 })
        (modLane lane (fun l => { l with reversal := false, metric := m, signal := true }) s))))) ∧
  (∀ (g : Nat) (s : State), groupOn g s = true → (groupOf g s).state = 2 ∨ (groupOf g s).state = 3 ∨ (groupOf g s).state = 4 →
      cfgB F.LINK_MODE g s = false →
      exec (.trainingStepTimeout g) s = .next (modGroup g (fun y => { y with retraining := false })
        (retrainFrom 1 g (raise 1 (linkErr g 2) g [] s)))) ∧
  (∀ (g lane c i : Nat) (s : State), groupOn g s = true → lane ∈ groupLanes s.cfg.accepted g → 4 ≤ (groupOf g s).state →
      i = lane - F.LINK_FIRST_LANE.get g s.cfg.accepted → c = (((groupOf g s).lanes.getD i {}).counter + 1) % 2 ^ 32 →
      exec (.alignmentBlock g lane 0xC3A596F00F695A3C (logicalLane g i s) (F.LINK_WIDTH.get g s.cfg.accepted) c) s =
        .next (modTrain g i (fun l => { l with counter := c, missed := 0 }) s)) ∧
  (∀ (g lane marker x w c i : Nat) (s : State), groupOn g s = true → lane ∈ groupLanes s.cfg.accepted g → 4 ≤ (groupOf g s).state →
      i = lane - F.LINK_FIRST_LANE.get g s.cfg.accepted → marker ≠ 0xC3A596F00F695A3C →
      (((groupOf g s).lanes.getD i {}).missed < 2 → exec (.alignmentBlock g lane marker x w c) s =
        .next (modTrain g i (fun l => { l with counter := (l.counter + 1) % 2 ^ 32, missed := l.missed + 1 }) s)) ∧
      (2 ≤ ((groupOf g s).lanes.getD i {}).missed → exec (.alignmentBlock g lane marker x w c) s = .next (retrainNow g s))) ∧
  (∀ (g : Nat) (bytes : List Byte) (fec : Bool) (s : State), groupOn g s = true → (groupOf g s).state = 4 →
      (cellOk 5 bytes fec = false → exec (.capabilityCell g bytes fec) s = .next (discardCell g fec s)) ∧
      (cellOk 5 bytes fec = true → capabilityBad g (cellWords bytes) s = true → wrongPeer g (cellWords bytes) s = false →
        exec (.capabilityCell g bytes fec) s = .next (modGroup g (fun x => { x with refused := true })
          (retrainFrom 1 g (raise 1 (linkErr g 3) g [] s)))) ∧
      (cellOk 5 bytes fec = true → capabilityBad g (cellWords bytes) s = false → wrongPeer g (cellWords bytes) s = false →
        (cellWords bytes).getD 4 0 % 2 = 0 → g < s.links.length →
        ∃ t, exec (.capabilityCell g bytes fec) s = .next t ∧ (groupOf g t).capOk = true ∧ (groupOf g t).state = 4 ∧
          (groupOf g t).offer = [bits ((cellWords bytes).getD 3 0) 15 0, bits ((cellWords bytes).getD 3 0) 23 16,
            bits ((cellWords bytes).getD 3 0) 31 24])) ∧
  (∀ (g : Nat) (s : State), groupOn g s = true → (groupOf g s).refused = true → exec (.capabilityRefuseExpiry g) s =
      .next (detectGroup g (modGroup g (fun x => { x with refused := false }) s))) ∧
  (∀ (g r : Nat) (s : State), groupOn g s = true → (groupOf g s).state = 5 → g < s.links.length →
      (cfgB F.LINK_MODE g s = true → stepper g s = false → r = rateAbove (groupOf g s).rate → r ≠ 0 → r ≤ topRate g s →
        ∃ t, exec (.step g r) s = .next t ∧ (groupOf g t).state = 6 ∧ (groupOf g t).stepTo = r ∧
          (groupOf g t).cmdQ = (groupOf g s).cmdQ ++ [3 + r * 256]) ∧
      (r ≠ rateAbove (groupOf g s).rate → exec (.step g r) s =
        .next (modGroup g (fun y => { y with cmdQ := y.cmdQ ++ [4 + r * 256] }) s))) ∧
  (∀ (g : Nat) (s : State), groupOn g s = true → (groupOf g s).state = 5 → stepper g s = true → (groupOf g s).stepTo ≠ 0 →
      exec (.stepAck g) s = .next (redLinkDown (modGroup g (fun y => { y with state := 6 }) s)) ∧
      exec (.stepRefuse g) s = .next (raise 1 (linkErr g 4) g [] (modGroup g (fun y => { y with stepTo := 0, stepped := true }) s))) ∧
  (∀ (g : Nat) (s : State), (groupOf g s).stepTo = 0 → exec (.stepAck g) s = .next s ∧ exec (.stepRefuse g) s = .next s) ∧
  (∀ (g : Nat) (s : State), groupOn g s = true → (groupOf g s).state = 6 → g < s.links.length →
      ∃ t, exec (.rateStepExpiry g) s = .next t ∧ (groupOf g t).state = 2 ∧ (groupOf g t).rate = (groupOf g s).stepTo ∧
        (groupOf g t).goodRate = (groupOf g s).goodRate) ∧
  (∀ (g : Nat) (s : State), groupOn g s = true →
      exec (.linkRetrainCommand g) s = .next (retrainNow g s) ∧ exec (.uncorrectableLimit g) s = .next (retrainNow g s) ∧
      (3 ≤ (groupOf g s).state → exec (.elasticFifoOverflow g) s = .next (retrainNow g (raise 2 (linkErr g 9) g [] s))) ∧
      exec (.stuffingAllowanceExceeded g) s = .next (raise 0 (linkErr g 8) g [] s)) ∧
  (∀ (g : Nat) (s : State), 2 ≤ (groupOf g s).state → g < s.links.length →
      (groupOf g (retrainNow g s)).state = 2 ∧ (groupOf g (retrainNow g s)).retrains = (groupOf g s).retrains + 1 ∧
      (groupOf g (retrainNow g s)).ctrlQ = (groupOf g s).ctrlQ)

/-- Cells, credits, control messages and time cells of a link group. A credit cell sets the peer's freed counts and
settles the outstanding control message when it acknowledges it. A cell that fails its checks is discarded, counted
and logged. The timers make a credit cell due, and queue a time cell of a body. A class with cells waiting and no
credit retrains the link. A control message in order is dispatched once and one out of order only frees its credit; a
message not acknowledged is sent again eight times, and then the link retrains. A head announces its streams again. A
time cell is stamped. A slot sends a filler while the lanes align, the capability cell until the group is active, and
then the cell of R446; its bits go to the lane whose turn it is. (Rests on R437, R439, R440, R441, R446, R448, R454,
R457.) -/
def Obligations.LinkCells : Prop :=
  (∀ (g : Nat) (bytes : List Byte) (fec : Bool) (s : State), groupOn g s = true → groupActive g s = true →
      (cellOk 3 bytes fec = false → exec (.creditCell g bytes fec) s = .next (discardCell g fec s)) ∧
      (cellOk 3 bytes fec = true → g < s.links.length → ∃ t, exec (.creditCell g bytes fec) s = .next t ∧
        (groupOf g t).freed = (cellWords bytes).take 3 ∧
        ((groupOf g s).ctrlOut = true → (cellWords bytes).getD 3 0 % 65536 = (groupOf g s).ctrlSeq →
          (groupOf g t).ctrlOut = false ∧ (groupOf g t).ctrlQ = (groupOf g s).ctrlQ.drop 1 ∧
          (groupOf g t).ctrlSeq = wrapInc 16 (groupOf g s).ctrlSeq) ∧
        ((cellWords bytes).getD 3 0 % 65536 ≠ (groupOf g s).ctrlSeq → (groupOf g t).ctrlOut = (groupOf g s).ctrlOut ∧
          (groupOf g t).ctrlQ = (groupOf g s).ctrlQ))) ∧
  (∀ (g : Nat) (bytes : List Byte) (fec : Bool) (s : State), groupActive g s = false →
      exec (.creditCell g bytes fec) s = .next s ∧ exec (.pixelCell g bytes fec) s = .next s ∧ exec (.creditCellTimer g) s = .next s ∧
      exec (.controlAckTimeout g) s = .next s ∧ exec (.streamAnnounceTimer g) s = .next s ∧ exec (.timeCellTimer g) s = .next s) ∧
  (∀ (g : Nat) (s : State), groupOn g s = true → groupActive g s = true →
      exec (.creditCellTimer g) s = .next (modGroup g (fun x => { x with creditDue := true }) s)) ∧
  (∀ (g c : Nat) (s : State), groupOn g s = true → groupActive g s = true → c < 3 →
      (classWaiting c (groupOf g s) = true → hasCredit c (groupOf g s) = false → exec (.creditStarvation g c) s = .next (retrainNow g s)) ∧
      (hasCredit c (groupOf g s) = true → exec (.creditStarvation g c) s = .next s)) ∧
  (∀ (g : Nat) (bytes : List Byte) (fec : Bool) (s : State), groupOn g s = true → groupActive g s = true →
      (cellOk 1 bytes fec = false → exec (.pixelCell g bytes fec) s = .next (discardCell g fec (freeCells g 0 1 s))) ∧
      (cellOk 1 bytes fec = true → s.dev.role = .body → g ≠ 8 → exec (.pixelCell g bytes fec) s = .next
        (takePixel g (bits (cellHeader bytes) 9 8) (bits (cellHeader bytes) 7 0) (bits (cellHeader bytes) 11 11 == 1)
          (bits (cellHeader bytes) 10 10 == 1) ((bytes.drop 2).take 128) (freeCells g 0 1 s)))) ∧
  (∀ (g : Nat) (s : State), groupOn g s = true → groupActive g s = true → (groupOf g s).ctrlOut = true →
      ((groupOf g s).repeats < 8 → g < s.links.length → ∃ t, exec (.controlAckTimeout g) s = .next t ∧
        (groupOf g t).repeats = (groupOf g s).repeats + 1 ∧
        ∀ m, (groupOf g s).ctrlQ.head? = some m → (groupOf g t).ctrlCells = controlCells (groupOf g s).ctrlSeq m) ∧
      (8 ≤ (groupOf g s).repeats → exec (.controlAckTimeout g) s = .next (retrainNow g (raise 1 (linkErr g 7) g [] s)))) ∧
  (∀ (g : Nat) (s : State), groupOn g s = true → groupActive g s = true → g ≠ 8 →
      (s.dev.role = .head → exec (.streamAnnounceTimer g) s = .next (announceAll g s)) ∧
      (s.dev.role = .body → exec (.timeCellTimer g) s = .next (modGroup g (fun x => { x with timeQ := x.timeQ ++ [[]] }) s))) ∧
  (∀ (g : Nat) (ws : List Word) (s : State), groupOn g s = true → groupActive g s = true → g ≠ 8 →
      ((ws.getD 0 0).toNat % 65536 ≠ (groupOf g s).ctrlIn →
        exec (.controlMessage g ws) s = .next (freeCells g 1 (bits (ws.getD 0 0).toNat 23 16) s)) ∧
      ((ws.getD 0 0).toNat % 65536 = (groupOf g s).ctrlIn → controlWaits ws s = false →
        exec (.controlMessage g ws) s = .next (dispatchControl g ws (modGroup g (fun y => { y with ctrlIn := wrapInc 16 y.ctrlIn })
          (freeCells g 1 (bits (ws.getD 0 0).toNat 23 16) s))))) ∧
  (∀ (g : Nat) (ws : List Word) (a : Tod) (s : State), groupOn g s = true → groupActive g s = true → g ≠ 8 → s.dev.role = .body →
      exec (.timeCell g ws a) s = .next (freeCells g 2 1 (modGroup g (fun x => { x with
        arrived := (⟨((ws.map (·.toNat)).getD 0 0) % 65536, a⟩ :: x.arrived).take 16 }) s))) ∧
  (∀ (g : Nat) (s : State), groupOn g s = true →
      ((groupOf g s).state < 3 → exec (.cellSlot g) s = .next s) ∧
      (3 ≤ (groupOf g s).state → g < s.links.length → ∃ t, exec (.cellSlot g) s = .next t ∧
        (groupOf g t).tx = modAt (cellOfSlot g s).2.tx (cellOfSlot g s).2.pos (frameCell (ratePam4 (cellOfSlot g s).2.rate)
          (cellOfSlot g s).2.pos (cfgN F.LINK_WIDTH g s) (cellOfSlot g s).1) ∧
        ((groupOf g s).state = 3 → (groupOf g t).lastCell = mkCell 0 false false 0 0 []) ∧
        ((groupOf g s).state = 4 → (groupOf g s).fillerRow = false →
          (groupOf g t).lastCell = mkCell 5 false false 0 0 (natBytes (capabilityWords g s))) ∧
        (groupActive g s = true → (groupOf g t).lastCell = (slotCell (groupOf g s) s).1 ∧
          ((groupOf g s).fillerRow = false → ∀ c r, (groupOf g s).cmdQ = c :: r →
            (groupOf g t).lastCell = commandCell (c % 256) (c / 256) ∧ (groupOf g t).cmdQ = r))))

/-- A cell that is made is accepted and read back, and so is what carries it. For every cell type below 16, stream
below 4, sequence number below 256, FIRST and LAST flags and payload of 32 words, the cell that is made is 132 bytes,
passes the check of a cell of its type and of no other type, and gives back its header fields and its payload words.
Bits that are scrambled come back from the descrambler that starts in the same state, two-level symbols and Gray-coded
pairs give their bits back, and the levels that a line is stuffed with are taken out again. (Rests on R393, R432,
R433, R435, R436, R437, R438.) -/
def Obligations.CellsReadBack : Prop :=
  (∀ (st : Nat) (b : List Bool), (descramble st (scramble st b).1).1 = b ∧ (scramble st b).1.length = b.length) ∧
  (∀ b : List Bool, demodulate false (modulate false b) = b ∧ (b.length % 2 = 0 → demodulate true (modulate true b) = b)) ∧
  (∀ (run : Int × Nat) (l : List Int), unstuff run 0 (stuff run l).1 = l) ∧
  ∀ (typ stream seq : Nat) (first last : Bool) (ws : List Word), typ < 16 → stream < 4 → seq < 256 → ws.length = 32 →
    ∀ c, c = mkCell typ first last stream seq (wordBytes ws) →
      c.length = 132 ∧ (∀ k < 16, cellOk k c true = (k == typ)) ∧ (∀ k, cellOk k c false = false) ∧
      bits (cellHeader c) 9 8 = stream ∧ bits (cellHeader c) 7 0 = seq ∧ (bits (cellHeader c) 11 11 = 1 ↔ first = true) ∧
      (bits (cellHeader c) 10 10 = 1 ↔ last = true) ∧ cellWords c = ws.map (·.toNat)

/-- TOD starts at 0 and adds INC at every tick. ROLE_START starts TOD at 0. While TOD runs, a tick adds INC to the
accumulator of nanoseconds and fraction; when the sum reaches a second it is subtracted and the seconds rise by one in
the same tick. A number of ticks is that many single ticks. TOD, which every block reads, is the seconds and the upper
fields of this one counter. Before a start TOD does not run. (States R488.) -/
def Obligations.TodCounter : Prop :=
  (∀ s : State, s.dev.state = .ready → ∃ t, exec .roleStart s = .next t ∧ nowTod t = ⟨0, 0⟩ ∧ t.time.running = true) ∧
  (∀ (n : Nat) (s : State), s.time.running = true → ∃ t, exec (.todTick n) s = .next t ∧ t.time = tickTod n s.time) ∧
  (∀ (n : Nat) (s : State), s.time.running = false → ∃ t, exec (.todTick n) s = .next t ∧ t.time = s.time) ∧
  (∀ (n : Nat) (t : TimeState), tickTod (n + 1) t = tickTod 1 (tickTod n t)) ∧
  (∀ t : TimeState, t.sub < subPerSec → t.inc < subPerSec → t.sec + 1 < 2 ^ 48 →
    (t.sub + t.inc < subPerSec → (tickTod 1 t).sec = t.sec ∧ (tickTod 1 t).sub = t.sub + t.inc) ∧
    (subPerSec ≤ t.sub + t.inc → (tickTod 1 t).sec = t.sec + 1 ∧ (tickTod 1 t).sub = t.sub + t.inc - subPerSec)) ∧
  (∀ s : State, (nowTod s).sec = s.time.sec ∧ (nowTod s).frac = s.time.sub / 2 ^ 16)

/-- PTP messages, timers and the servo. A Sync of the parent is kept until its Follow_Up when it is two-step, and else
completes a measurement; a Sync or Follow_Up that does not come from the parent, or does not match, is not used. An
Announce of the own clock or of 255 steps is ignored, and another feeds the best-master choice. A master port answers
a Delay_Req with its receipt stamp, and a Delay_Resp that matches ends the outstanding measurement, of which at most
eight are kept. A send timer acts in the states R502 gives. At the source timeout a running servo goes to holdover and
keeps INC, the silent parent is forgotten, and the best master is chosen anew. The first valid sample steps TOD; INC
is always written within its limits. (Rests on R489, R490, R492, R493, R496, R498, R499, R502, R504, R505.) -/
def Obligations.PtpAndServo : Prop :=
  (∀ (m : Nat) (g : PtpMsg) (s : State),
      (fromParent m g s = false → exec (.ptpSync m g) s = .next (drainTx m s) ∧ exec (.ptpFollowUp m g) s = .next (drainTx m s)) ∧
      (fromParent m g s = true → g.twoStep = true → exec (.ptpSync m g) s =
        .next (modPtp m (fun p => { p with sync := some g }) (drainTx m s))) ∧
      (fromParent m g s = true → g.twoStep = false → exec (.ptpSync m g) s =
        .next (completeSync m g.stamp g.origin g.correction (drainTx m s))) ∧
      (∀ y, fromParent m g s = true → (s.time.ptp.getD m {}).sync = some y → y.seq = g.seq → y.srcClock = g.srcClock →
        y.srcPort = g.srcPort → exec (.ptpFollowUp m g) s =
          .next (completeSync m y.stamp g.origin (y.correction + g.correction) (drainTx m s)))) ∧
  (∀ (m : Nat) (a : AnnounceMsg) (s : State), ptpOn m s = true → a.domain = ptpDomain s →
      (a.srcClock = clockIdentity s ∨ 255 ≤ a.stepsRemoved → exec (.ptpAnnounce m a) s = .next (drainTx m s)) ∧
      (a.srcClock ≠ clockIdentity s → a.stepsRemoved < 255 → exec (.ptpAnnounce m a) s =
        .next (runBmca (modPtp m (fun p => { p with foreign := hearForeign a p.foreign }) (drainTx m s))))) ∧
  (∀ (a : AnnounceMsg) (l : List Foreign), (hearForeign a l).length ≤ 5 ∧ ∃ x ∈ hearForeign a l, x.msg = a ∧ 0 < x.count) ∧
  (∀ (m : Nat) (g : PtpMsg) (s : State), ptpOn m s = true → g.domain = ptpDomain s →
      ((s.time.ptp.getD m {}).portState = 6 → exec (.ptpDelayReq m g) s =
        .next (modPtp m (fun p => { p with answered := some (g.seq, g.srcClock, g.srcPort, g.stamp) }) (drainTx m s))) ∧
      ((s.time.ptp.getD m {}).portState ≠ 6 → exec (.ptpDelayReq m g) s = .next (drainTx m s))) ∧
  (∀ (m : Nat) (g : PtpMsg) (sq : Nat) (t3 : Tod) (ms : Int) (s : State), fromParent m g s = true →
      (s.time.ptp.getD m {}).delayReq = some (sq, t3) → (s.time.ptp.getD m {}).masterToSlave = some ms → g.seq = sq →
      g.reqClock = clockIdentity s → g.reqPort = m + 1 → m < s.time.ptp.length →
      ∃ t, exec (.ptpDelayResp m g) s = .next t ∧ (t.time.ptp.getD m {}).delayReq = none ∧
        (t.time.ptp.getD m {}).delays =
          ((ms + ((todUnits g.origin : Int) - todUnits t3 - g.correction)) / 2 :: (s.time.ptp.getD m {}).delays).take 8) ∧
  (∀ (m : Nat) (s : State), ptpOn m s = true → m < s.time.ptp.length →
      ((s.time.ptp.getD m {}).portState = 6 →
        (∃ t, exec (.ptpSendTimer m .sync) s = .next t ∧ (t.time.ptp.getD m {}).seqSync = wrapInc 16 (s.time.ptp.getD m {}).seqSync ∧
          (t.time.ptp.getD m {}).sent = wrapInc 64 (s.time.ptp.getD m {}).sent ∧
          ((s.time.ptp.getD m {}).txq.length < 64 → (t.time.ptp.getD m {}).txq =
            (s.time.ptp.getD m {}).txq ++ [⟨nowTod s, (s.time.ptp.getD m {}).seqSync, 0⟩]) ∧
          (64 ≤ (s.time.ptp.getD m {}).txq.length → (t.time.ptp.getD m {}).txq = (s.time.ptp.getD m {}).txq ∧
            (t.time.ptp.getD m {}).overflow = true)) ∧
        exec (.ptpSendTimer m .announce) s =
          .next (modPtp m (fun q => { q with seqAnnounce := wrapInc 16 q.seqAnnounce, announced := some (ownAnnounce m s) }) s) ∧
        exec (.ptpSendTimer m .delayReq) s = .next s) ∧
      ((s.time.ptp.getD m {}).portState = 9 → exec (.ptpSendTimer m .sync) s = .next s ∧
        ∃ t, exec (.ptpSendTimer m .delayReq) s = .next t ∧ ((s.time.ptp.getD m {}).txq.length < 64 →
          (t.time.ptp.getD m {}).delayReq = some ((s.time.ptp.getD m {}).seqDelay, nowTod s)))) ∧
  (∀ s : State, (s.time.clk = 1 ∨ s.time.clk = 2 → ∃ t, exec .timeSourceTimeout s = .next t ∧ t.time.clk = 3 ∧
        t.time.inc = s.time.inc ∧ t.time.sec = s.time.sec ∧ t.time.sub = s.time.sub ∧ t.log = (raise 1 0x0E02 noInst [] s).log) ∧
      (s.time.clk = 0 ∨ s.time.clk = 3 → s.time.parent = none → s.dev.role = .head → exec .timeSourceTimeout s = .next s) ∧
      (s.time.clk = 0 ∨ s.time.clk = 3 → s.time.parent = none → s.dev.role ≠ .head → exec .timeSourceTimeout s = .next (runBmca s)) ∧
      (∀ i a, s.time.clk = 0 ∨ s.time.clk = 3 → s.time.parent = some (i, a) → exec .timeSourceTimeout s =
        .next (runBmca (modPtp i (fun p => { p with
          foreign := p.foreign.filter fun x => !(x.msg.srcClock == a.srcClock && x.msg.srcPort == a.srcPort) }) s)))) ∧
  (∀ (th : Int) (dt : Nat) (s : State), (s.time.clk = 0 → (validSample th dt s).time.clk = 1 ∧ (validSample th dt s).time.f = 0 ∧
        (validSample th dt s).time.steps = wrapInc 16 s.time.steps ∧ (validSample th dt s).time.inc = s.time.inc) ∧
      (s.time.clk ≠ 0 → incMin.toNat ≤ (validSample th dt s).time.inc ∧ (validSample th dt s).time.inc ≤ incMax.toNat ∧
        (validSample th dt s).time.sec = s.time.sec ∧ (validSample th dt s).time.sub = s.time.sub ∧
        (s.time.clk = 3 → (validSample th dt s).time.clk = 1)))

/-- Strobes, PPS and signatures of the island. While the island runs, an asserting strobe edge opens a pulse with its
stamp and clock state, and is counted as extra when a pulse is open or began too soon; a deasserting edge ends the
open pulse, and is counted as extra without one or too soon after its begin. A PPS input edge, when enabled, is
stamped and its offset from the nearest second logged, and one too soon after the last is only counted. At a whole
second the PPS output rises when it is enabled and not off. A signature covers the first seam whose unsigned records
have reached the count, and starts its count again; with no such seam nothing happens. A stopped island takes no edge.
(Rests on R533, R534, R535, R537, R545, R547.) -/
def Obligations.IslandEvents : Prop :=
  (∀ (n : Nat) (b : Bool) (x : Tod) (s : State), s.isl.running = false →
      exec (.strobeEdge n b x) s = .next s ∧ exec (.ppsInEdge x) s = .next s ∧ exec .ppsOutSecond s = .next s) ∧
  (∀ (n : Nat) (b : Bool) (x t : Tod) (s : State), s.isl.running = true → t = islandStamp n s.dev.elapsed x →
      (asserts n b s = true → (s.isl.strobes.getD n {}).rising = none →
        (∀ f, (s.isl.strobes.getD n {}).fell = some f → apart 8 f t = true) → exec (.strobeEdge n b x) s =
          .next (modStrobe n (fun y => { y with rising := some (t, s.time.clk, s.time.stepSum) }) s)) ∧
      (asserts n b s = true → (s.isl.strobes.getD n {}).rising.isSome = true ∨
          (∃ f, (s.isl.strobes.getD n {}).fell = some f ∧ apart 8 f t = false) →
        exec (.strobeEdge n b x) s = .next (modStrobe n (fun y => { y with extra := y.extra + 1 }) s)) ∧
      (asserts n b s = false → (s.isl.strobes.getD n {}).rising = none →
        exec (.strobeEdge n b x) s = .next (modStrobe n (fun y => { y with extra := y.extra + 1, fell := some t }) s)) ∧
      (∀ (a : Tod) (c : Nat) (d : Int), asserts n b s = false → (s.isl.strobes.getD n {}).rising = some (a, c, d) →
        (apart 2 a t = true → exec (.strobeEdge n b x) s = .next (modStrobe n (fun y => { y with
          rising := none, fell := some t, ended := ⟨a, c, t, s.time.stepSum - d⟩ :: y.ended }) s)) ∧
        (apart 2 a t = false → exec (.strobeEdge n b x) s =
          .next (modStrobe n (fun y => { y with rising := none, fell := some t, extra := y.extra + 1 }) s)))) ∧
  (∀ (x u : Tod) (s : State), s.isl.running = true → asyN F.ASY_CFG_PPS_IN_EN s ≠ 0 → u = islandStamp 4 s.dev.elapsed x →
      ((∃ f, s.isl.ppsIn = some f ∧ apart 8 f u = false) →
        exec (.ppsInEdge x) s = .next (modIsl (fun i => { i with ppsExtra := i.ppsExtra + 1 }) s)) ∧
      ((∀ f, s.isl.ppsIn = some f → apart 8 f u = true) → ∃ t, exec (.ppsInEdge x) s = .next t ∧ t.isl.ppsIn = some u ∧
        t.islNv.log = pushIslandLog (entryBytes32 (mkEntry 0 0 noInst [toField 32 t.isl.ppsOffset, todPack u % 2 ^ 32,
          todPack u / 2 ^ 32 % 2 ^ 32, todPack u / 2 ^ 64] s)) s.islNv.log ∧
        ∃ k : Int, -(unitsPerSec / 2 : Nat) ≤ k ∧ k < (unitsPerSec / 2 : Nat) ∧ t.isl.ppsOffset = k * 1000 / 65536 ∧
          (unitsPerSec : Int) ∣ (todUnits u : Int) - k)) ∧
  (∀ (e : List Byte) (l : List (List Byte)), (pushIslandLog e l).getLast? = some e) ∧
  (∀ (x : Tod) (s : State), asyN F.ASY_CFG_PPS_IN_EN s = 0 → exec (.ppsInEdge x) s = .next s) ∧
  (∀ s : State, s.isl.running = true → asyN F.ASY_CFG_PPS_OUT_EN s = 1 →
      (s.isl.ppsOff = false → exec .ppsOutSecond s = .next (modIsl (fun i => { i with ppsOut := some ⟨s.time.sec, 0⟩ }) s)) ∧
      (s.isl.ppsOff = true → exec .ppsOutSecond s = .next s)) ∧
  (∀ s : State, (∀ n ∈ portSeams s, (islSeam n s).count < asyN F.ASY_CFG_SIGN_EVERY s ∨ (islSeam n s).count = 0) →
      exec .islandSignature s = .next s) ∧
  (∀ (n : Nat) (s : State), (portSeams s).find? (fun n => decide (asyN F.ASY_CFG_SIGN_EVERY s ≤ (islSeam n s).count ∧ 0 < (islSeam n s).count)) = some n →
      n < s.isl.seams.length →
      ∃ t, exec .islandSignature s = .next t ∧ (islSeam n t).count = 0 ∧ (islSeam n t).chain = (islSeam n s).chain ∧
        t.isl.signatures = wrapInc 32 s.isl.signatures)

/-- Heartbeats, copies, triggers and claims of redundant bodies. Without redundancy none of the events changes
anything. A heartbeat, FAILING, HANDOVER or RESYNC of a lower epoch only frees its cell; a heartbeat of a primary ends
a trigger and raises the epoch, and one of a failing primary, a FAILING or a missing heartbeat is a trigger: a standby
in sync claims the next epoch, and one out of sync logs 0x1005 once. A copy is taken only in states 2 and 3: with
another firmware version it is discarded and the standby is out of sync, and one that continues the sequence is
applied. RESYNC makes the next copy of a primary full. A primary without an active link for T_hb declares failure, and
one whose link returns within T_hb claims its epoch again. (Rests on R566, R569, R572, R573, R574, R578, R580, R583,
R584.) -/
def Obligations.RedundancyEvents : Prop :=
  (∀ (g e : Nat) (ws : List Word) (k : StateCopy) (s : State), redOn s = false →
      exec .heartbeatTimer s = .next s ∧ exec (.heartbeat ws) s = .next s ∧ exec .heartbeatTimeout s = .next s ∧
      exec (.stateCopy k) s = .next s ∧ exec (.failing e) s = .next s ∧ exec (.handover e) s = .next s ∧ exec (.resync e) s = .next s ∧
      exec .claimRepeatTimer s = .next s ∧ exec .primaryLinkInactiveExpiry s = .next s ∧ exec .startWaitExpiry s = .next s ∧
      exec (.linkReactivated g) s = .next s ∧ exec .switchOverFallbackExpiry s = .next s) ∧
  (∀ s : State, cageOn s = true → ∃ t, exec .heartbeatTimer s = .next t ∧ t.red.beats = wrapInc 16 s.red.beats ∧
      (groupActive 8 s = true → 8 < s.links.length →
        (groupOf 8 t).timeQ = (groupOf 8 s).timeQ ++ [heartbeatWords s])) ∧
  (∀ (ws : List Word) (s : State), cageOn s = true →
      ((ws.getD 1 0).toNat < s.red.eb → exec (.heartbeat ws) s = .next (freeCells 8 2 1 s)) ∧
      (s.red.eb ≤ (ws.getD 1 0).toNat → bits (ws.getD 0 0).toNat 2 0 = 5 → s.red.state ≠ 1 →
        ∃ t, exec (.heartbeat ws) s = .next t ∧ t.red.eb = (ws.getD 1 0).toNat ∧ t.red.beatAt = s.dev.elapsed ∧
          t.red.triggered = false ∧ t.red.state = s.red.state ∧ ∃ p, t.red.peer = some p ∧ p.state = 5)) ∧
  (∀ s : State, redOn s = true →
      (s.red.state = 3 → ∃ t, exec .heartbeatTimeout s = .next t ∧ t.red.state = 4 ∧ t.red.eb = s.red.eb + 1 ∧ t.red.ebBefore = s.red.eb ∧
        t.red.reason = 1 ∧ t.red.triggered = true) ∧
      (s.red.state = 2 → s.red.triggered = false → ∃ t, exec .heartbeatTimeout s = .next t ∧ t.red.state = 2 ∧ t.red.triggered = true ∧
        t.log = (raise 2 0x1005 noInst [] s).log)) ∧
  (∀ (e : Nat) (s : State), cageOn s = true → (e < s.red.eb → exec (.failing e) s = .next (freeCells 8 1 1 s)) ∧
      (s.red.eb ≤ e → exec (.failing e) s = .next (trigger (freeCells 8 1 1 s)))) ∧
  (∀ (e : Nat) (s : State), cageOn s = true → (e < s.red.eb → exec (.resync e) s = .next (freeCells 8 1 1 s)) ∧
      (s.red.eb ≤ e → exec (.resync e) s =
        .next (modRed (fun r => { r with fullDue := r.fullDue || r.state == 5 }) (freeCells 8 1 1 s)))) ∧
  (∀ (k : StateCopy) (s : State), cageOn s = true → s.red.state = 2 ∨ s.red.state = 3 → k.whole = true →
      (k.fwMajor ≠ fwMajor s → ∃ t, exec (.stateCopy k) s = .next t ∧ t.red.state = 2 ∧ t.red.copy = s.red.copy) ∧
      (k.fwMajor = fwMajor s → k.eb = s.red.eb → k.sequence = wrapInc 32 s.red.copySeq → ∃ t, exec (.stateCopy k) s = .next t ∧
        t.red.copy = some k ∧ t.red.copySeq = k.sequence) ∧
      (k.fwMajor = fwMajor s → k.eb ≠ s.red.eb → exec (.stateCopy k) s =
        .next (discardCopy (freeCells 8 0 (copyCells k).length s)))) ∧
  (∀ (k : StateCopy) (s : State), s.red.state ≠ 2 → s.red.state ≠ 3 → exec (.stateCopy k) s = .next s) ∧
  (∀ (e : Nat) (s : State), cageOn s = true → (e < s.red.eb → exec (.handover e) s = .next (freeCells 8 1 1 s)) ∧
      (s.red.eb ≤ e → s.red.state = 3 → (s.red.peer.map (·.copySeq)).getD 0 ≤ s.red.copySeq →
        ∃ t, exec (.handover e) s = .next t ∧ t.red.state = 4 ∧ t.red.reason = 2 ∧ t.red.eb = s.red.eb + 1)) ∧
  (∀ s : State, redOn s = true → (s.red.state = 3 → s.red.triggered = true → exec .claimRepeatTimer s = .next (claim (s.red.eb + 1) 1 s)) ∧
      (s.red.triggered = false → exec .claimRepeatTimer s = .next s)) ∧
  (∀ s : State, redOn s = true → s.red.state = 5 → (shaftActive s = true → exec .primaryLinkInactiveExpiry s = .next s) ∧
      (shaftActive s = false → ∃ t, exec .primaryLinkInactiveExpiry s = .next t ∧ t.red.state = 6 ∧
        t.log = (raise 1 0x1009 noInst [] s).log)) ∧
  (∀ s : State, redOn s = true → s.red.state = 1 →
      (cfgB F.RED_PREF 0 s = true → shaftActive s = true → ∃ t, exec .startWaitExpiry s = .next t ∧ t.red.state = 4 ∧ t.red.eb = 1 ∧
        t.red.reason = 0) ∧
      (cfgB F.RED_PREF 0 s = false → exec .startWaitExpiry s = .next (modRed (fun r => { r with waited := true }) s))) ∧
  (∀ (g : Nat) (s : State), redOn s = true → s.red.state = 5 → g < 8 → groupOn g s = true → groupActive g s = true →
      (s.dev.elapsed < (groupOf g s).downSince + hbTicks s → exec (.linkReactivated g) s = .next (sendClaim s.red.eb 3 s)) ∧
      ((groupOf g s).downSince + hbTicks s ≤ s.dev.elapsed → exec (.linkReactivated g) s = .next s)) ∧
  (∀ s : State, redOn s = true → s.red.state ≠ 5 →
      (s.red.releasedAt.isSome = true → s.red.fallback = false → ∃ t, exec .switchOverFallbackExpiry s = .next t ∧
        t.red.state = 4 ∧ t.red.reason = 2 ∧ t.red.eb = s.red.eb + 1 ∧ t.red.fallback = true) ∧
      (s.red.releasedAt = none ∨ s.red.fallback = true → exec .switchOverFallbackExpiry s = .next s))

/-- Frames of the outputs and events of the viewfinder panels. At a selection an output takes the newest buffer of the
current epoch when it differs from the one it holds, and repeats what it holds otherwise; after HOLD_FRAMES repeats,
or with nothing held, it goes to background and logs that once. At a frame start it sends what its mode says, or
nothing on a standby, and an SDI pair's divider is pulled by the measured error: it moves at most one step a tick and
never leaves 50 ppm. An audio sender sends one packet at its timer. A TE edge on a standby only takes the tap's
buffer; on an active output it ends the absence of TE and updates the panel. An absent TE is logged and the timer
takes over. A blank time that ends logs once and dirties the tap's tiles. An output that is off changes nothing.
(Rests on R32, R466, R467, R469, R471, R475, R601, R602, R603, R604, R605.) -/
def Obligations.OutputsAndPanels : Prop :=
  (∀ (o : OutId) (e : Int) (s : State), outOn o s = false ∨ outVideo o s.cfg.accepted = false →
      exec (.outputFrameSelect o) s = .next s ∧ exec (.outputFrameStart o e) s = .next s) ∧
  (∀ (o : OutId) (i e : Nat) (r : OutRing) (s u : State), outOn o s = true → outVideo o s.cfg.accepted = true →
      e = srcEpoch (outSrc o s.cfg.accepted).1 (outSrc o s.cfg.accepted).2 s →
      r = srcRing (outSrc o s.cfg.accepted).1 (outSrc o s.cfg.accepted).2 s →
      u = modOutput o (fun x => { x with
        hold := outFld F.SDI_HOLD_FRAMES F.SND_HOLD_FRAMES o s.cfg.accepted, next := frameFromNs o (nowNs s) s.cfg.accepted
        seen := (r.bufs.map (·.order)).foldl max x.seen
        stale := (x.stale + (r.bufs.filter fun b => decide (x.seen < b.order) && b.pic.header.epoch != e).length) % 2 ^ 32 }) s →
      (newestCurrent e r = none → exec (.outputFrameSelect o) s = .next (repeatHeld o u)) ∧
      (newestCurrent e r = some i → (r.bufs.getD i {}).order = (outputOf o s).order →
        exec (.outputFrameSelect o) s = .next (repeatHeld o u)) ∧
      (newestCurrent e r = some i → (r.bufs.getD i {}).order ≠ (outputOf o s).order →
        exec (.outputFrameSelect o) s = .next (takeHold o i u))) ∧
  (∀ (k : Nat) (s : State), k < s.out.sdi.length →
      ((outputOf (.sdi k) s).held.isSome = true → ((outputOf (.sdi k) s).hold = 0 ∨ (outputOf (.sdi k) s).run < (outputOf (.sdi k) s).hold) →
        (outputOf (.sdi k) (repeatHeld (.sdi k) s)).mode = 2 ∧
        (outputOf (.sdi k) (repeatHeld (.sdi k) s)).run = (outputOf (.sdi k) s).run + 1 ∧ (repeatHeld (.sdi k) s).log = s.log) ∧
      ((outputOf (.sdi k) s).held = none → (outputOf (.sdi k) (repeatHeld (.sdi k) s)).mode = 3 ∧
        ((outputOf (.sdi k) s).noted = true → (repeatHeld (.sdi k) s).log = s.log) ∧
        ((outputOf (.sdi k) s).noted = false → outActive s = true →
          (repeatHeld (.sdi k) s).log = (raise 1 (bgErr (.sdi k)) k [] s).log))) ∧
  (∀ (o : OutId) (e : Int) (s : State), outOn o s = true → outVideo o s.cfg.accepted = true → outActive s = false →
      exec (.outputFrameStart o e) s = .next (modOutput o (fun x => { x with sent := none }) (steerPair o e s))) ∧
  (∀ (k : Nat) (e : Int) (s : State), outOn (.sdi k) s = true → outActive s = true → k < s.out.sdi.length →
      ∃ t, exec (.outputFrameStart (.sdi k) e) s = .next t ∧
        (outputOf (.sdi k) t).sent = sentPic (.sdi k) (outputOf (.sdi k) s) s.cfg.accepted ∧ (outputOf (.sdi k) t).errPs = e ∧
        (outputOf (.sdi k) t).frame = (outputOf (.sdi k) s).next ∧
        (outputOf (.sdi k) t).audio = frameAudio k (outputOf (.sdi k) s).next s ∧
        (k / 2 < s.out.pairs.length → (t.out.pairs.getD (k / 2) {}).pull = Config.steerPull (k / 2) e) ∧
        (e.natAbs ≤ halfLinePs k s.cfg.accepted → t.log = s.log) ∧
        (halfLinePs k s.cfg.accepted < e.natAbs → t.log = (raise 0 (0x0D04 + k) k [] s).log ∧
          (outputOf (.sdi k) t).rephases = wrapInc 32 (outputOf (.sdi k) s).rephases)) ∧
  (∀ (n : Nat) (e : Int) (s : State), outOn (.snd n) s = true → cfgN F.SND_KIND n s ≠ 1 → outActive s = true → n < s.out.snd.length →
      ∃ t, exec (.outputFrameStart (.snd n) e) s = .next t ∧
        (outputOf (.snd n) t).sent = sentPic (.snd n) (outputOf (.snd n) s) s.cfg.accepted ∧
        (outputOf (.snd n) t).packets = ((outputOf (.snd n) s).packets + (senderLoad n s.cfg.accepted).1) % 2 ^ 64 ∧
        (outputOf (.snd n) t).rtpSeq = ((outputOf (.snd n) s).rtpSeq + (senderLoad n s.cfg.accepted).1) % 65536) ∧
  (∀ (ticks : Nat) (limit want : Int) (d : Divider), 0 ≤ limit →
      (moveDivider ticks limit want d).offset ≤ d.offset + ticks ∧ d.offset ≤ (moveDivider ticks limit want d).offset + ticks ∧
      (-limit ≤ d.offset → d.offset ≤ limit →
        -limit ≤ (moveDivider ticks limit want d).offset ∧ (moveDivider ticks limit want d).offset ≤ limit)) ∧
  (∀ (n : Nat) (s : State), (outOn (.snd n) s = true → cfgN F.SND_KIND n s = 1 → outActive s = true →
        exec (.audioPacketTimer n) s = .next (sendPackets n 1 (modOutput (.snd n) (fun x => { x with
          stamp := audioStamp ((nowNs s : Int) - Config.audioLag)
          audio := audioRun (cfgN F.SND_AUDIO_MASK n s) (sampleFrom ((nowNs s : Int) - Config.audioLag)) (audioPacket n s.cfg.accepted).1 s }) s))) ∧
      (outActive s = false → exec (.audioPacketTimer n) s = .next s)) ∧
  (∀ (k : Nat) (late : Option VfLate) (s : State), vfOn k s = true →
      (outActive s = false → exec (.teEdge k late) s = .next (vfTake k s) ∧ exec (.teAbsentExpiry k) s = .next s ∧
        exec (.panelTimer k late) s = .next s) ∧
      (outActive s = true → ∃ u, exec (.teEdge k late) s = .next (vfUpdate k true late u) ∧
        (k < s.out.views.length → (vfOf k u).timer = false ∧ (vfOf k u).lastTe = some (nowNs s) ∧ (vfOf k u).te.length ≤ max 8 (vfOf k s).te.length) ∧
        u.log = s.log) ∧
      (outActive s = true → (vfOf k s).timer = false → exec (.teAbsentExpiry k) s =
        .next (raise 1 (0x1104 + k) k [] (modVf k (fun v => { v with timer := true, lastTe := none, te := [] }) s))) ∧
      ((vfOf k s).timer = true → exec (.teAbsentExpiry k) s = .next s) ∧
      (outActive s = true → (vfOf k s).timer = true → exec (.panelTimer k late) s = .next (vfUpdate k false late s)) ∧
      ((vfOf k s).timer = false → exec (.panelTimer k late) s = .next s) ∧
      (F.VF_SRC_TAP_EN.on k s.cfg.accepted = true → F.VF_SRC_BLANK_MS.get k (vfOf k s).bound ≠ 0 → (vfOf k s).blanked = false →
        (vfOf k s).lastBuf + F.VF_SRC_BLANK_MS.get k (vfOf k s).bound * ticksPerMs ≤ s.dev.elapsed →
        exec (.blankExpiry k) s = .next (raise 0 (0x110A + k) k [] (modVf k (fun v => { v with
          blanked := true, tapDirty := addTiles v.tapDirty (tapTiles k s.cfg.accepted) }) s))) ∧
      ((vfOf k s).blanked = true → exec (.blankExpiry k) s = .next s))

/-- Blocks, stops and clocks of the audio ports. At a block take a running output plays the next block when it is
present; when it is not, the block is counted as lost and logged once until a block plays again. A stopping output
takes the block without playing it. A block that becomes present plays from its next frame. An input block of a port
that has started is kept with its stamp, and without a free buffer it is lost and logged. A completed stop leaves the
port stopped, or starts it again when a start has arrived. A slave port that loses its clock stops and counts the
fault, and starts again when the clock returns. A port that is not in use changes nothing. (Rests on R609, R612, R613,
R614, R615, R616, R617.) -/
def Obligations.AudioPorts : Prop :=
  (∀ (p : Nat) (l : List Int) (x : Tod) (s : State), audOn p s = false →
      exec (.audioBlockTake p) s = .next s ∧ exec (.audioBlockPresent p) s = .next s ∧ exec (.audioInputBlock p l x) s = .next s ∧
      exec (.audioStopComplete p) s = .next s ∧ exec (.slaveClockFault p) s = .next s ∧ exec (.slaveClockReturn p) s = .next s) ∧
  (∀ (p b : Nat) (s : State), audOn p s = true → cfgB F.AUD_DIR p s = true → cfgB F.AUD_MASTER p s = false → (audOf p s).noClock = false →
      p < s.out.audio.length → cfgB F.AUD_SRC p s = false → (audOf p s).state = 2 → b = (audOf p s).cur + 1 →
      ∃ t, exec (.audioBlockTake p) s = .next t ∧ (audOf p t).cur = b ∧ (audOf p t).state = 2 ∧
        ((∃ k ∈ (audOf p s).ring, k.num = b) → (audOf p t).playing = some (b, 0) ∧ (audOf p t).underrun = false ∧ t.log = s.log) ∧
        ((∀ k ∈ (audOf p s).ring, k.num ≠ b) → (audOf p t).playing = none ∧ (audOf p t).lost = wrapInc 32 (audOf p s).lost ∧
          ((audOf p s).underrun = true → t.log = s.log) ∧
          ((audOf p s).underrun = false → t.log = (raise 2 (0x1210 + p) p [] s).log))) ∧
  (∀ (p : Nat) (s : State), audOn p s = true → cfgB F.AUD_DIR p s = true → (audOf p s).noClock = false → p < s.out.audio.length →
      (audOf p s).state = 3 → ∃ t, exec (.audioBlockTake p) s = .next t ∧ (audOf p t).playing = none ∧ (audOf p t).state = 3) ∧
  (∀ (p : Nat) (s : State), (audOf p s).playing.isSome = true ∨ blockPresent p (audOf p s).cur s = false →
      exec (.audioBlockPresent p) s = .next s) ∧
  (∀ (p j : Nat) (s : State), audOn p s = true → cfgB F.AUD_DIR p s = true → cfgB F.AUD_MASTER p s = true → (audOf p s).state = 2 →
      (audOf p s).noClock = false → (audOf p s).playing = none → blockPresent p (audOf p s).cur s = true →
      j = frameFrom (audRate p s.cfg.accepted) (ceilDiv (todUnits (nowTod s)) 65536 + 10000) - 64 * (audOf p s).cur → j < 64 →
      exec (.audioBlockPresent p) s = .next (modAud p (fun x => { x with playing := some (x.cur, j) }) s)) ∧
  (∀ (p : Nat) (l : List Int) (x : Tod) (s : State), audOn p s = true → cfgB F.AUD_DIR p s = false → cfgB F.AUD_MASTER p s = false →
      (audOf p s).state = 2 → (audOf p s).noClock = false → (audOf p s).first ≤ (audOf p s).cur → (audOf p s).last = none →
      p < s.out.audio.length →
      ∃ t, exec (.audioInputBlock p l x) s = .next t ∧ (audOf p t).cur = (audOf p s).cur + 1 ∧
        (cfgN F.AUD_BUFS p s ≤ audioHeld p s → (audOf p t).lost = wrapInc 32 (audOf p s).lost ∧
          (audOf p t).ring = (audOf p s).ring ∧ t.log = (raise 2 (0x1218 + p) p [] s).log) ∧
        (audioHeld p s < cfgN F.AUD_BUFS p s → (audOf p t).ring.length ≤ cfgN F.AUD_BUFS p s ∧
          (recFor 2 p s = none → t.log = s.log) ∧
          ∃ b, (audOf p t).ring.getLast? = some b ∧ b.num = (audOf p s).cur ∧ b.stamp = x)) ∧
  (∀ (p : Nat) (s : State), audOn p s = true → (audOf p s).state = 3 →
      let u : State := modAud p (fun a => { a with state := 0, restart := false, last := none, playing := none, underrun := false }) s
      ((audOf p s).restart = false → exec (.audioStopComplete p) s = .next u) ∧
      ((audOf p s).restart = true → exec (.audioStopComplete p) s = .next (startAudio false p u))) ∧
  (∀ (p : Nat) (s : State), (audOf p s).state ≠ 3 → exec (.audioStopComplete p) s = .next s) ∧
  (∀ (p : Nat) (s : State), slaveOn p s = true →
      ((audOf p s).noClock = false → (audOf p s).state ≠ 0 → exec (.slaveClockFault p) s = .next (raise 1 (0x1220 + p) p []
        (modAud p (fun a => { a with noClock := true, playing := none, underrun := false, faults := wrapInc 32 a.faults }) s))) ∧
      ((audOf p s).noClock = true → (audOf p s).state ≠ 3 → exec (.slaveClockReturn p) s = .next (startAudio true p s)) ∧
      ((audOf p s).noClock = true → (audOf p s).state = 3 → exec (.slaveClockReturn p) s =
        .next (modAud p (fun a => { a with noClock := false }) s)))

/-- Requests, completions, refresh, tracking, scrubbing and delays of the DRAM channels. A request at or above 15/16
of the installed total faults as an address that is not usable; one below it enters its channel's queue while there is
room, else it stalls. The address map has an inverse: burst k of channel c lies in channel c. The request the
scheduler serves next completes: a read without wrong bits delivers what is stored and a whole-burst write is read
back as written, and every other byte stays. A refresh is postponed at most eight times. MR4, the refresh of
neighbours, scrubbing and the delays act in a running channel; a delay moves by at most one step at an update. (Rests
on R628, R629, R630, R632, R633, R634, R635, R636, R638, R639, R642.) -/
def Obligations.DramController : Prop :=
  (∀ (c : Nat) (k : DramClient) (a : Nat) (d : Option (List Byte)) (s : State), dramUsable s.cfg.accepted ≤ a →
      exec (.dramRequest c k a d) s = .fault (.dramAddress a)) ∧
  (∀ (c : Nat) (k : DramClient) (a : Nat) (d : Option (List Byte)) (s : State), a < dramUsable s.cfg.accepted →
      ((dramOf c s).state ≠ 1 → exec (.dramRequest c k a d) s = .next s) ∧
      ((dramOf c s).state = 1 → dramChan a = c → c < s.dram.chans.length → ∃ (t : State) (r : DramReq), exec (.dramRequest c k a d) s = .next t ∧
        r.addr = a ∧ r.client = k ∧ r.data = d.map (fun l => l.take (64 - a % 64)) ∧ t.dram.mem = s.dram.mem ∧
        ((dramOf c s).stalled = [] → ((dramOf c s).queue.filter fun q => q.data.isSome == d.isSome).length < 64 →
          (dramOf c t).queue = (dramOf c s).queue ++ [r] ∧ (dramOf c t).stalled = []) ∧
        (64 ≤ ((dramOf c s).queue.filter fun q => q.data.isSome == d.isSome).length →
          (dramOf c t).queue = (dramOf c s).queue ∧ (dramOf c t).stalled = (dramOf c s).stalled ++ [r]))) ∧
  (∀ c k : Nat, c < 8 → dramChan (burstAt c k) = c ∧ burstAt c k % 64 = 0) ∧
  (∀ (c k d j : Nat), c < 8 → d < 8 → burstAt c k = burstAt d j → c = d ∧ k = j) ∧
  (∀ (c : Nat) (r : DramReq) (s : State), nextRequest c s = some r → (dramOf c s).state = 1 → c < s.dram.chans.length →
      (r.data = none → burstOf r.addr ∉ s.dram.poison → ∃ t, exec (.dramRequestComplete c r.id []) s = .next t ∧
        (∀ x ∈ (dramOf c t).queue, x.id = r.id → ∃ y ∈ (dramOf c s).stalled, y.id = r.id) ∧
        (dramOf c t).last = some (r.id, storedBurst (burstOf r.addr) s, false) ∧ t.dram.mem = s.dram.mem) ∧
      (∀ l, r.data = some l → l.length = 64 → r.addr % 64 = 0 → Memory.wf s.dram.mem = true → ∃ t,
        exec (.dramRequestComplete c r.id []) s = .next t ∧ readBurst r.addr t.dram.mem = l ∧ r.addr ∉ t.dram.poison ∧
        ∀ a, a < r.addr ∨ r.addr + 64 ≤ a → readDram a t.dram.mem = readDram a s.dram.mem)) ∧
  (∀ (c i : Nat) (e : List Nat) (s : State), nextRequest c s = none → exec (.dramRequestComplete c i e) s = .next s) ∧
  (∀ (c v : Nat) (s : State), (dramOf c s).state = 1 →
      (v % 8 = 7 → exec (.mr4Poll c v) s = .next (raiseOnce 1 0x1306 c [] (modChan18 c (fun x => { x with mr4 := v % 8 }) s))) ∧
      (v % 8 ≠ 7 → exec (.mr4Poll c v) s = .next (endRun 0x1306 c (modChan18 c (fun x => { x with mr4 := v % 8 }) s)))) ∧
  (∀ (c v : Nat) (e : List Nat) (s : State), (dramOf c s).state ≠ 1 → exec (.mr4Poll c v) s = .next s ∧ exec (.refreshDue c) s = .next s ∧
      exec (.activateThreshold c) s = .next s ∧ exec (.scrubStep c e) s = .next s ∧ exec (.delayUpdate c) s = .next s) ∧
  (∀ (c : Nat) (s : State), (dramOf c s).state = 1 → c < s.dram.chans.length →
      ((dramOf c s).postponed < 8 → (∃ r ∈ (dramOf c s).queue, cfgN F.DRAM_CFG_AGE_NS 0 s ≤ waitNs r s) → exec (.refreshDue c) s =
        .next (modChan18 c (fun y => { y with postponed := y.postponed + 1 }) s)) ∧
      (8 ≤ (dramOf c s).postponed → ∃ t, exec (.refreshDue c) s = .next t ∧ (dramOf c t).postponed = 0 ∧
        (dramOf c t).refreshes = (dramOf c s).refreshes + (dramOf c s).postponed + 1)) ∧
  (∀ (c : Nat) (s : State), (dramOf c s).state = 1 → exec (.activateThreshold c) s = .next (refreshNeighbours c s)) ∧
  (∀ (c a : Nat) (s : State), (dramOf c s).state = 1 → cfgN F.DRAM_CFG_SCRUB_H 0 s ≠ 0 → a = burstAt c (dramOf c s).scrub →
      (a < dramUsable s.cfg.accepted → a ∉ s.dram.poison) → c < s.dram.chans.length →
      exec (.scrubStep c []) s = .next (modChan18 c (fun y => { y with scrub := (y.scrub + 1) % chanBursts s.cfg.accepted }) s)) ∧
  (∀ (c : Nat) (goal : List Int) (s : State), (dramOf c s).state = 1 → delayTargets c (phyTemp c s) s = some goal →
      outsideBy c (phyTemp c s) s ≤ 160 → c < s.dram.chans.length → ∃ t, exec (.delayUpdate c) s = .next t ∧
        ∀ (k : Nat) (d : Int), (dramOf c s).delays[k]? = some d → ∃ e, (dramOf c t).delays[k]? = some e ∧ e ≤ d + 1 ∧ d ≤ e + 1 ∧
          (d < goal.getD k 0 → d ≤ e) ∧ (goal.getD k 0 < d → e ≤ d))

/-- Events of a unit change that unit, and beside it only the error queue and the log. The events listed for a unit
leave every part of the state but that unit's own part unchanged, the queue of commands among it; those that can log
also change the error queue and the event log, and the log page and training may draw a free value. A PTP sample and a
rebase also move the trigger points of the ports, a PTP frame its port's count, and a command the endpoint drops
leaves its member. The units are the time of the device, the outputs with audio and panels, the storage endpoint, the
lanes, the DRAM, the island, the member SSDs, the links and the compressor. (Rests on 95_what_each_step_holds.md.) -/
def Obligations.FamilyFrames : Prop :=
  ∀ s t : State,
    (∀ m p a k, ∀ r ∈ [Instr.ptpAnnounce m a, .ptpDelayReq m p, .ptpDelayResp m p, .ptpSendTimer m k, .timeSourceTimeout],
        exec r s = .next t → t = { s with time := t.time, err := t.err, log := t.log }) ∧
    (∀ m p n, ∀ r ∈ [Instr.ptpSync m p, .ptpFollowUp m p, .scheduleRebase n], exec r s = .next t →
        t = { s with time := t.time, cap := { s.cap with ports := t.cap.ports }, err := t.err, log := t.log }) ∧
    (∀ p m o e, ∀ r ∈ [Instr.audioBlockTake p, .audioBlockPresent p, .audioStopComplete p, .slaveClockFault p, .slaveClockReturn p,
        .macLinkUp m, .macLinkDown m, .teAbsentExpiry p, .blankExpiry p, .audioPacketTimer p,
        .outputFrameStart o e], exec r s = .next t → t = { s with out := t.out, err := t.err, log := t.log }) ∧
    (∀ m k, exec (.ethernetFrameReceive m k) s = .next t → t = { s with out := t.out, time := { s.time with ptp := t.time.ptp } }) ∧
    (∀ a b q v l c, ∀ r ∈ [Instr.controllerEnable a b, .doorbellWrite c q v l, .commandFetch,
        .rangeLockBegin a, .createIoCq a, .createIoSq a, .deleteIoCq a, .deleteIoSq a, .identify a, .getLogPage a, .setFeatures a,
        .getFeatures a, .asynchronousEventRequest a, .deviceSelfTest a, .selfTestStep c, .hostCqTimeout q],
        exec r s = .next t → t = { s with ep := t.ep, err := t.err, log := t.log, drawn := t.drawn }) ∧
    (∀ a, ∀ r ∈ [Instr.controllerDisable, .pcieLinkLoss, .abort a], exec r s = .next t →
        t = { s with ep := t.ep, rcd := { s.rcd with ssds := t.rcd.ssds } }) ∧
    (∀ q n b c o l g x y z f, ∀ r ∈ [Instr.lanePllLock q b, .lanePllRelock q b c, .signalDetect n, .laneBringUp n o, .dfeUpdate n l g,
        .ctleUpdate n x y z, .adaptationAtLimit n, .transmitterLegFault n b, .transmitterRetry n, .commonModeFault n,
        .laneFaultEnd n f, .scanPointComplete n x],
        exec r s = .next t → t = { s with lanes := t.lanes, plls := t.plls, err := t.err, log := t.log }) ∧
    (∀ c k a d v e, ∀ r ∈ [Instr.dramRequest c k a d, .mr4Poll c v, .refreshDue c, .activateThreshold c, .scrubStep c e, .delayUpdate c],
        exec r s = .next t → t = { s with dram := t.dram, err := t.err, log := t.log, drawn := t.drawn }) ∧
    (∀ n b x, ∀ r ∈ [Instr.strobeEdge n b x, .ppsOutSecond, .ppsInEdge x],
        exec r s = .next t → t = { s with isl := t.isl, islNv := t.islNv }) ∧
    (∀ m i, ∀ r ∈ [Instr.ssdCommandTimeout m i, .ssdAbortExpiry m i], exec r s = .next t → t = { s with rcd := t.rcd }) ∧
    (∀ g, ∀ r ∈ [Instr.linkBringUp g, .receiverDetectionRetry g, .capabilityRefuseExpiry g, .creditCellTimer g, .cellSlot g,
        .timeCellTimer g, .streamAnnounceTimer g, .stuffingAllowanceExceeded g],
        exec r s = .next t → t = { s with links := t.links, err := t.err, log := t.log }) ∧
    ((∀ j ∈ s.comp.queue, descOk j = true) → exec .blockDeal s = .next t → t = { s with comp := t.comp })
end

