-- ==== Sys2Proof/Laws/Keep.lean ====
section
/-! SUPPORT. The parts of the state that few commands write: the queue, the OTP, the island's non-volatile memory, the
settings, the boot NVM and the bytes of DRAM; and how they are read through a new state. -/

namespace Sys2Proof.Laws
open Sys2Proof Sys2Proof.Machine

/-- The island's non-volatile memory without its log. -/
def quietNv (n : IslandNv) : IslandNv := { n with log := [] }

/-- What most operations leave as it was. -/
structure Kept where
  pending : List Instr
  otp : Otp
  islNv : IslandNv
  cfg : Cfg
  nvm : Nvm
  mem : List Host.Cell
  alloc : List (Nat × Nat × Nat)
  state : DevState
  powered : Bool
  role : Role
  straps : Nat
  starts : Nat
  part : Part

/-- The kept part of a state. -/
def kept (s : State) : Kept := ⟨s.pending, s.otp, quietNv s.islNv, s.cfg, s.nvm, s.dram.mem, s.dram.alloc, s.dev.state, s.dev.powered, s.dev.role, s.dev.straps, s.dev.starts, s.dev.part⟩

@[simp] theorem kept_mk (pending dev otp nvm cfg log err mbx hf pwr time cap lanes plls links red comp codec rcd ep out dram isl islNv drawn) :
    kept ⟨pending, dev, otp, nvm, cfg, log, err, mbx, hf, pwr, time, cap, lanes, plls, links, red, comp, codec, rcd, ep, out, dram, isl, islNv, drawn⟩ = ⟨pending, otp, quietNv islNv, cfg, nvm, dram.mem, dram.alloc, dev.state, dev.powered, dev.role, dev.straps, dev.starts, dev.part⟩ := rfl

@[simp] theorem kept_eta (s : State) : (⟨s.pending, s.otp, quietNv s.islNv, s.cfg, s.nvm, s.dram.mem, s.dram.alloc, s.dev.state, s.dev.powered, s.dev.role, s.dev.straps, s.dev.starts, s.dev.part⟩ : Kept) = kept s := rfl

theorem kept_foldl {α : Type} (g : State → α → State) (l : List α) (s : State) (h : ∀ u x, kept (g u x) = kept u) :
    kept (l.foldl g s) = kept s := by
  induction l generalizing s with
  | nil => rfl
  | cons a r ih => simp [ih, h]

end Sys2Proof.Laws
end

