-- ==== Sys2Proof/Laws/KeepOps.lean ====
section
/-! SUPPORT. What the operations of Machine/Ops.lean keep. -/

namespace Sys2Proof.Laws
open Sys2Proof Sys2Proof.Machine

@[simp] theorem raiseOne_kept (sev code inst : Nat) (ds : List Nat) (s : State) : kept (raiseOne sev code inst ds s) = kept s := by
  unfold raiseOne
  split <;> rfl

@[simp] theorem openRun_kept (code inst : Nat) (s : State) : kept (openRun code inst s) = kept s := by
  unfold openRun
  split <;> simp

@[simp] theorem endRun_kept (code inst : Nat) (s : State) : kept (endRun code inst s) = kept s := by
  rfl

@[simp] theorem raise_kept (sev code inst : Nat) (ds : List Nat) (s : State) : kept (raise sev code inst ds s) = kept s := by
  unfold raise
  dsimp only
  split <;> simp

@[simp] theorem raiseOnce_kept (sev code inst : Nat) (ds : List Nat) (s : State) : kept (raiseOnce sev code inst ds s) = kept s := by
  unfold raiseOnce
  split <;> simp

@[simp] theorem drawOne_kept (s : State) : kept (drawOne s) = kept s := by
  rfl

end Sys2Proof.Laws
end

