-- ==== Sys2Proof/Laws/KeepMailbox.lean ====
section
/-! SUPPORT. What the operations of Machine/Mailbox.lean keep. -/

namespace Sys2Proof.Laws
open Sys2Proof Sys2Proof.Machine

@[simp] theorem writeBulk_kept (off : Nat) (l : List Byte) (s : State) : kept (writeBulk off l s) = kept s := by
  rfl

@[simp] theorem modChan_kept (c : Nat) (f : Chan → Chan) (s : State) : kept (modChan c f s) = kept s := by
  rfl

@[simp] theorem modView_kept (v : View) (c : Nat) (f : ViewRegs → ViewRegs) (s : State) : kept (modView v c f s) = kept s := by
  unfold modView
  split <;> simp

@[simp] theorem deliver_kept (p : Path) (c : Nat) (ws : List Word) (s : State) : kept (deliver p c ws s) = kept s := by
  unfold deliver
  dsimp only
  repeat' (first | (simp; done) | split)

@[simp] theorem countAnswer_kept (c : Nat) (a : Answer) (s : State) : kept (countAnswer c a s) = kept s := by
  unfold countAnswer
  repeat' (first | (simp; done) | split)

@[simp] theorem answer_kept (d : Option MsgDef) (r : Req) (a : Answer) (s : State) : kept (answer d r a s) = kept s := by
  unfold answer
  split <;> simp

theorem runReq_kept (d : Option MsgDef) (r : Req) (tok : Option Bool) (s : State)
    (h : ∀ x, d = some x → ∀ r b u, kept (x.act r b u).2 = kept u) : kept (runReq d r tok s).2 = kept s := by
  unfold runReq
  repeat' (first | (simp; done) | exact h _ rfl _ _ _ | split)

theorem complete_kept (d : Option MsgDef) (r : Req) (tok : Option Bool) (s : State)
    (h : ∀ x, d = some x → ∀ r b u, kept (x.act r b u).2 = kept u) : kept (complete d r tok s) = kept s := by
  simp [complete, runReq_kept d r tok s h]

@[simp] theorem dropSeq_kept (c : Nat) (p : Path) (s : State) : kept (dropSeq c p s) = kept s := by
  rfl

@[simp] theorem endSeq_kept (c : Nat) (p : Path) (s : State) : kept (endSeq c p s) = kept s := by
  unfold endSeq
  split <;> simp

@[simp] theorem useNonce_kept (p : Path) (s : State) : kept (useNonce p s) = kept s := by
  rfl

@[simp] theorem holdSeq_kept (r : Req) (s : State) : kept (holdSeq r s) = kept s := by
  rfl

@[simp] theorem discardPart_kept (c : Nat) (s : State) : kept (discardPart c s) = kept s := by
  rfl

@[simp] theorem addPart_kept (r : Req) (s : State) : kept (addPart r s) = kept s := by
  rfl

theorem takePart_kept (f : Nat → Option MsgDef) (r : Req) (s : State)
    (h : ∀ c x, f c = some x → ∀ r b u, kept (x.act r b u).2 = kept u) : kept (takePart f r s) = kept s := by
  unfold takePart
  dsimp only
  repeat' (first | (simp; done) | (rw [complete_kept _ _ _ _ (h _)]; simp; done) | split)

theorem takeMsg_kept (d : Option MsgDef) (r : Req) (s : State)
    (h : ∀ x, d = some x → ∀ r b u, kept (x.act r b u).2 = kept u) : kept (takeMsg d r s) = kept s := by
  unfold takeMsg
  dsimp only
  split
  · simp
  · simp [complete_kept _ _ _ _ h]

@[simp] theorem takeMsg_none_kept (r : Req) (s : State) : kept (takeMsg none r s) = kept s :=
  takeMsg_kept none r s (fun _ hx => nomatch hx)

@[simp] theorem popMsg_kept (c : Nat) (s : State) : kept (popMsg c s) = kept s := by
  rfl

@[simp] theorem screen_kept (defOf : Nat → Option MsgDef) (c n : Nat) (s : State) :
    kept (screen defOf c n s) = kept s := by
  induction n generalizing s with
  | zero => rfl
  | succ n ih =>
    unfold screen
    repeat' (first | (simp [ih]; done) | split)

theorem runHead_kept (f : Nat → Option MsgDef) (mine : Req → Bool) (c : Nat) (s : State)
    (h : ∀ q x, mine q = true → f q.code = some x → ∀ r b u, kept (x.act r b u).2 = kept u) :
    kept (runHead f mine c s) = kept s := by
  unfold runHead
  dsimp only
  split
  · next q _ =>
    split
    · next hm => simp [takeMsg_kept (f q.code) _ _ (fun x => h q x (by simp_all))]
    · simp
  · simp

@[simp] theorem enqueue_kept (c : Nat) (p : Path) (ws : List Word) (s : State) : kept (enqueue c p ws s) = kept s := by
  rfl

end Sys2Proof.Laws
end

