-- ==== Sys2Proof/Laws/KeepTime.lean ====
section
/-! SUPPORT. What the operations of Machine/Time.lean keep. -/

namespace Sys2Proof.Laws
open Sys2Proof Sys2Proof.Machine

@[simp] theorem modTime_kept (f : TimeState → TimeState) (s : State) : kept (modTime f s) = kept s := by
  rfl

@[simp] theorem passTicks_kept (n : Nat) (s : State) : kept (passTicks n s) = kept s := by
  unfold passTicks
  rw [kept_mk]
  split <;> rfl

@[simp] theorem writeInc_kept (v : Int) (s : State) : kept (writeInc v s) = kept s := by
  unfold writeInc
  split <;> simp

@[simp] theorem shiftTargets_kept (d : Int) (s : State) : kept (shiftTargets d s) = kept s := by
  unfold shiftTargets
  try dsimp only
  repeat' (first | (simp; done) | split | dsimp only | rfl)

@[simp] theorem firstSample_kept (th : Int) (s : State) : kept (firstSample th s) = kept s := by
  simp [firstSample]

@[simp] theorem lockStates_kept (th : Int) (s : State) : kept (lockStates th s) = kept s := by
  unfold lockStates
  dsimp only
  repeat' (first | (simp; done) | split)

@[simp] theorem validSample_kept (th : Int) (dt : Nat) (s : State) : kept (validSample th dt s) = kept s := by
  unfold validSample
  split <;> simp

@[simp] theorem takeSample_kept (th : Int) (at_ : Int) (s : State) : kept (takeSample th at_ s) = kept s := by
  simp [takeSample]

@[simp] theorem holdover_kept (s : State) : kept (holdover s) = kept s := by
  unfold holdover
  split <;> simp

@[simp] theorem modPtp_kept (m : Nat) (f : PtpPort → PtpPort) (s : State) : kept (modPtp m f s) = kept s := by
  rfl

@[simp] theorem runBmca_kept (s : State) : kept (runBmca s) = kept s := by
  rfl

@[simp] theorem drainTx_kept (m : Nat) (s : State) : kept (drainTx m s) = kept s := by
  rfl

@[simp] theorem completeSync_kept (m : Nat) (stamp origin : Tod) (corr : Int) (s : State) : kept (completeSync m stamp origin corr s) = kept s := by
  unfold completeSync
  dsimp only
  split <;> simp

theorem execPtpSync_kept (m : Nat) (msg : PtpMsg) (s : State) : ∀ t, execPtpSync m msg s = .next t → kept t = kept s := by
  unfold execPtpSync
  intro t h
  cases h
  repeat' (first | (simp; done) | split)

theorem execPtpFollowUp_kept (m : Nat) (msg : PtpMsg) (s : State) : ∀ t, execPtpFollowUp m msg s = .next t → kept t = kept s := by
  unfold execPtpFollowUp
  intro t h
  cases h
  repeat' (first | (simp; done) | split)

theorem execPtpAnnounce_kept (m : Nat) (msg : AnnounceMsg) (s : State) : ∀ t, execPtpAnnounce m msg s = .next t → kept t = kept s := by
  unfold execPtpAnnounce
  intro t h
  cases h
  repeat' (first | (simp; done) | split)

theorem execPtpDelayReq_kept (m : Nat) (msg : PtpMsg) (s : State) : ∀ t, execPtpDelayReq m msg s = .next t → kept t = kept s := by
  unfold execPtpDelayReq
  intro t h
  cases h
  split <;> simp

theorem execPtpDelayResp_kept (m : Nat) (msg : PtpMsg) (s : State) : ∀ t, execPtpDelayResp m msg s = .next t → kept t = kept s := by
  unfold execPtpDelayResp
  intro t h
  cases h
  repeat' (first | (simp; done) | split)

@[simp] theorem queueStamp_kept (m : Nat) (x : TxStamp) (s : State) : kept (queueStamp m x s) = kept s := by
  unfold queueStamp
  dsimp only
  split <;> simp

theorem execPtpSendTimer_kept (m : Nat) (kind : PtpSend) (s : State) : ∀ t, execPtpSendTimer m kind s = .next t → kept t = kept s := by
  unfold execPtpSendTimer
  intro t h
  cases h
  repeat' (first | (simp; done) | split)

theorem execTimeSourceTimeout_kept (s : State) : ∀ t, execTimeSourceTimeout s = .next t → kept t = kept s := by
  unfold execTimeSourceTimeout
  intro t h
  cases h
  repeat' (first | (simp; done) | split | dsimp only | rfl)

@[simp] theorem modExp_kept (n : Nat) (f : ExpSched → ExpSched) (s : State) : kept (modExp n f s) = kept s := by
  rfl

@[simp] theorem timeStatusMsg_kept  (r : Req) (tok : Bool) (s : State) : kept ((timeStatusMsg ).act r tok s).2 = kept s := by
  rfl

@[simp] theorem ptpPortStatusMsg_kept (m : Nat) (r : Req) (tok : Bool) (s : State) : kept ((ptpPortStatusMsg m).act r tok s).2 = kept s := by
  rfl

@[simp] theorem arrayLockMsg_kept  (r : Req) (tok : Bool) (s : State) : kept ((arrayLockMsg ).act r tok s).2 = kept s := by
  unfold arrayLockMsg
  dsimp only
  split <;> simp

@[simp] theorem arrayUnlockMsg_kept  (r : Req) (tok : Bool) (s : State) : kept ((arrayUnlockMsg ).act r tok s).2 = kept s := by
  rfl

@[simp] theorem scheduleMsg_kept  (r : Req) (tok : Bool) (s : State) : kept ((scheduleMsg ).act r tok s).2 = kept s := by
  unfold scheduleMsg
  dsimp only
  repeat' (first | (simp; done) | split)

@[simp] theorem cancelMsg_kept  (r : Req) (tok : Bool) (s : State) : kept ((cancelMsg ).act r tok s).2 = kept s := by
  unfold cancelMsg
  dsimp only
  split <;> simp

end Sys2Proof.Laws
end

