-- ==== Sys2Proof/Laws/KeepIngest.lean ====
section
/-! SUPPORT. What the operations of Machine/Ingest.lean keep. -/

namespace Sys2Proof.Laws
open Sys2Proof Sys2Proof.Machine

@[simp] theorem modCap_kept (f : Capture → Capture) (s : State) : kept (modCap f s) = kept s := by
  rfl

@[simp] theorem modSeam_kept (n : Nat) (f : Seam → Seam) (s : State) : kept (modSeam n f s) = kept s := by
  rfl

@[simp] theorem modPort_kept (p : Nat) (f : Port → Port) (s : State) : kept (modPort p f s) = kept s := by
  rfl

@[simp] theorem freeClaims_kept (n : Nat) (s : State) : kept (freeClaims n s) = kept s := by
  rfl

@[simp] theorem noteDrop_kept (n : Nat) (s : State) : kept (noteDrop n s) = kept s := by
  rfl

@[simp] theorem dropReceiving_kept (n : Nat) (s : State) : kept (dropReceiving n s) = kept s := by
  unfold dropReceiving
  dsimp only
  repeat' (first | (simp; done) | split)

@[simp] theorem countRingDrop_kept (n : Nat) (s : State) : kept (countRingDrop n s) = kept s := by
  unfold countRingDrop
  try dsimp only
  repeat' (first | (simp; done) | split | dsimp only | rfl)

@[simp] theorem overflowDrop_kept (n : Nat) (s : State) : kept (overflowDrop n s) = kept s := by
  simp [overflowDrop]

@[simp] theorem settleGains_kept (n : Nat) (i : Int) (s : State) : kept (settleGains n i s) = kept s := by
  rfl

@[simp] theorem commitArrival_kept (n num : Nat) (index : Int) (s : State) : kept (commitArrival n num index s) = kept s := by
  rfl

@[simp] theorem noteFirst_kept (s : State) : kept (noteFirst s) = kept s := by
  unfold noteFirst
  rw [kept_mk]
  split <;> rfl

@[simp] theorem arrive_kept (n : Nat) (h : FrameHeader) (index : Int) (s : State) : kept (arrive n h index s) = kept s := by
  unfold arrive
  dsimp only
  repeat' (first | (simp; done) | split)

@[simp] theorem modReceiving_kept (n : Nat) (f : SeamFrame → SeamFrame) (s : State) : kept (modReceiving n f s) = kept s := by
  rfl

@[simp] theorem claimStripe_kept (n : Nat) (s : State) : kept (claimStripe n s) = kept s := by
  unfold claimStripe
  dsimp only
  repeat' (first | (simp; done) | split)

@[simp] theorem markCropped_kept (n : Nat) (s : State) : kept (markCropped n s) = kept s := by
  unfold markCropped
  repeat' (first | (simp; done) | split)

@[simp] theorem writeLine_kept (n : Nat) (l : List Nat) (s : State) : kept (writeLine n l s) = kept s := by
  unfold writeLine
  try dsimp only
  repeat' (first | (simp; done) | split | dsimp only | rfl)

@[simp] theorem endReceiving_kept (n : Nat) (s : State) : kept (endReceiving n s) = kept s := by
  unfold endReceiving
  dsimp only
  repeat' (first | (simp; done) | split)

@[simp] theorem modFrame_kept (n num : Nat) (f : SeamFrame → SeamFrame) (s : State) : kept (modFrame n num f s) = kept s := by
  rfl

@[simp] theorem seamStatusMsg_kept (n : Nat) (r : Req) (tok : Bool) (s : State) : kept ((seamStatusMsg n).act r tok s).2 = kept s := by
  rfl

theorem execSourceAbsentExpiry_kept (seam : Nat) (s : State) : ∀ t, execSourceAbsentExpiry seam s = .next t → kept t = kept s := by
  unfold execSourceAbsentExpiry
  intro t h
  cases h
  split <;> simp

end Sys2Proof.Laws
end

