-- ==== Sys2Proof/Laws/KeepLinkOps.lean ====
section
/-! SUPPORT. What the operations of Machine/LinkOps.lean keep. -/

namespace Sys2Proof.Laws
open Sys2Proof Sys2Proof.Machine

@[simp] theorem modLane_kept (n : Nat) (f : Lane → Lane) (s : State) : kept (modLane n f s) = kept s := by
  rfl

@[simp] theorem laneErr_kept (sev n kind detail : Nat) (s : State) : kept (laneErr sev n kind detail s) = kept s := by
  simp [laneErr]

@[simp] theorem endScan_kept (status n : Nat) (s : State) : kept (endScan status n s) = kept s := by
  rfl

@[simp] theorem restartLanes_kept (l : List Nat) (s : State) : kept (restartLanes l s) = kept s := by
  induction l generalizing s with
  | nil => rfl
  | cons n r ih => simp [restartLanes, ih]

@[simp] theorem modGroup_kept (g : Nat) (f : LinkGroup → LinkGroup) (s : State) : kept (modGroup g f s) = kept s := by
  rfl

@[simp] theorem modStream_kept (g k : Nat) (f : LinkStream → LinkStream) (s : State) : kept (modStream g k f s) = kept s := by
  rfl

@[simp] theorem queueControl_kept (g subtype : Nat) (ws : List Word) (s : State) : kept (queueControl g subtype ws s) = kept s := by
  rfl

@[simp] theorem dropStream_kept (g k : Nat) (s : State) : kept (dropStream g k s) = kept s := by
  unfold dropStream
  dsimp only
  repeat' (first | (simp; done) | split)

@[simp] theorem dropStreams_kept (g : Nat) (s : State) : kept (dropStreams g s) = kept s := by
  simp [dropStreams]

@[simp] theorem clearFlight_kept (st : Nat) (g : Nat) (s : State) : kept (clearFlight st g s) = kept s := by
  simp [clearFlight]

@[simp] theorem retrainFrom_kept (st g : Nat) (s : State) : kept (retrainFrom st g s) = kept s := by
  simp [retrainFrom]

@[simp] theorem retrain_kept (g : Nat) (s : State) : kept (retrain g s) = kept s := by
  unfold retrain
  split <;> simp

end Sys2Proof.Laws
end

