-- ==== Sys2Proof/Laws/KeepIsland.lean ====
section
/-! SUPPORT. What the operations of Machine/Island.lean keep. -/

namespace Sys2Proof.Laws
open Sys2Proof Sys2Proof.Machine

@[simp] theorem modIsl_kept (f : Island → Island) (s : State) : kept (modIsl f s) = kept s := by
  rfl

@[simp] theorem modIslSeam_kept (n : Nat) (f : IslandSeam → IslandSeam) (s : State) : kept (modIslSeam n f s) = kept s := by
  rfl

@[simp] theorem modStrobe_kept (n : Nat) (f : Strobe → Strobe) (s : State) : kept (modStrobe n f s) = kept s := by
  rfl

theorem execStrobeEdge_kept (input : Nat) (asserting : Bool) (stamp : Tod) (s : State) : ∀ t, execStrobeEdge input asserting stamp s = .next t → kept t = kept s := by
  unfold execStrobeEdge
  intro t h
  cases h
  repeat' (first | (simp; done) | split)

theorem execPpsOutSecond_kept (s : State) : ∀ t, execPpsOutSecond s = .next t → kept t = kept s := by
  unfold execPpsOutSecond
  intro t h
  cases h
  split <;> simp

@[simp] theorem openRecord_kept (n port num tag : Nat) (exp : Tod) (s : State) : kept (openRecord n port num tag exp s) = kept s := by
  unfold openRecord
  dsimp only
  repeat' (first | (simp; done) | split)

@[simp] theorem pushIsland_kept (e : IslandEntry) (s : State) : kept (pushIsland e s) = kept s := by
  unfold pushIsland
  try dsimp only
  repeat' (first | (simp; done) | split | dsimp only | rfl)

@[simp] theorem chainRecord_kept (n : Nat) (r : OpenRecord) (s : State) : kept (chainRecord n r s) = kept s := by
  simp [chainRecord]

@[simp] theorem chainClosed_kept (n k : Nat) (s : State) : kept (chainClosed n k s) = kept s := by
  induction k generalizing s with
  | zero => rfl
  | succ k ih =>
    unfold chainClosed
    repeat' (first | (simp [ih]; done) | split)

@[simp] theorem closeRecord_kept (n num : Nat) (dig : List Byte) (s : State) : kept (closeRecord n num dig s) = kept s := by
  unfold closeRecord
  split <;> simp

@[simp] theorem sendEvidence_kept (kind : Nat) (b : List Byte) (s : State) : kept (sendEvidence kind b s) = kept s := by
  unfold sendEvidence
  (try dsimp only) <;> repeat' (first | (simp; done) | split | (refine (kept_foldl _ _ _ (fun u x => ?_)).trans ?_) | (refine kept_foldl _ _ _ (fun u x => ?_)) | simp)

@[simp] theorem signSeam_kept (n flags : Nat) (start : Bool) (s : State) : kept (signSeam n flags start s) = kept s := by
  simp [signSeam]

@[simp] theorem signAll_kept (flags : Nat) (start : Bool) (ns : List Nat) (s : State) : kept (signAll flags start ns s) = kept s := by
  unfold signAll
  (try dsimp only) <;> repeat' (first | (simp; done) | split | (refine (kept_foldl _ _ _ (fun u x => ?_)).trans ?_) | (refine kept_foldl _ _ _ (fun u x => ?_)) | simp)

theorem execIslandSignature_kept (s : State) : ∀ t, execIslandSignature s = .next t → kept t = kept s := by
  unfold execIslandSignature
  intro t h
  cases h
  repeat' (first | (simp; done) | split)

@[simp] theorem takeHeadRecord_kept (n : Nat) (b : List Byte) (s : State) : kept (takeHeadRecord n b s) = kept s := by
  unfold takeHeadRecord
  dsimp only
  repeat' (first | (simp; done) | split)

@[simp] theorem takeHeadSignature_kept (g : Nat) (seamOf_ : Nat → Option Nat) (b : List Byte) (s : State) : kept (takeHeadSignature g seamOf_ b s) = kept s := by
  unfold takeHeadSignature
  dsimp only
  repeat' (first | (simp; done) | split)

@[simp] theorem islandStatusMsg_kept  (r : Req) (tok : Bool) (s : State) : kept ((islandStatusMsg ).act r tok s).2 = kept s := by
  rfl

@[simp] theorem noteRead_kept (n : Nat) (es : List IslandEntry) (s : State) : kept (noteRead n es s) = kept s := by
  unfold noteRead
  try dsimp only
  repeat' (first | (simp; done) | split | dsimp only | rfl)

@[simp] theorem recordReadMsg_kept  (r : Req) (tok : Bool) (s : State) : kept ((recordReadMsg ).act r tok s).2 = kept s := by
  unfold recordReadMsg
  dsimp only
  split <;> simp

@[simp] theorem islandCertMsg_kept  (r : Req) (tok : Bool) (s : State) : kept ((islandCertMsg ).act r tok s).2 = kept s := by
  unfold islandCertMsg
  dsimp only
  split <;> simp

@[simp] theorem signNowMsg_kept  (r : Req) (tok : Bool) (s : State) : kept ((signNowMsg ).act r tok s).2 = kept s := by
  unfold signNowMsg
  dsimp only
  split <;> simp

end Sys2Proof.Laws
end

