-- ==== Sys2Proof/Laws/KeepLanes.lean ====
section
/-! SUPPORT. What the operations of Machine/Lanes.lean keep. -/

namespace Sys2Proof.Laws
open Sys2Proof Sys2Proof.Machine

theorem execLanePllLock_kept (quad : Nat) (ab : Bool) (s : State) : ∀ t, execLanePllLock quad ab s = .next t → kept t = kept s := by
  unfold execLanePllLock
  intro t h
  cases h
  split <;> simp

@[simp] theorem losePll_kept (l : List Nat) (s : State) : kept (losePll l s) = kept s := by
  induction l generalizing s with
  | nil => rfl
  | cons n r ih =>
    unfold losePll
    rw [ih]
    split <;> simp

theorem execLanePllRelock_kept (quad : Nat) (ab locked : Bool) (s : State) : ∀ t, execLanePllRelock quad ab locked s = .next t → kept t = kept s := by
  unfold execLanePllRelock
  intro t h
  cases h
  split <;> simp

@[simp] theorem stepCoeff_kept (n tap dir : Nat) (s : State) : kept (stepCoeff n tap dir s).2 = kept s := by
  unfold stepCoeff
  dsimp only
  repeat' (first | (simp; done) | split)

@[simp] theorem ethernetTraining_kept (n : Nat) (obs : LaneObs) (s : State) : kept (ethernetTraining n obs s) = kept s := by
  unfold ethernetTraining
  try dsimp only
  repeat' (first | (simp; done) | (simp [kept_foldl]; done) | split | dsimp only | rfl)

@[simp] theorem pcieOrder_kept (n : Nat) (obs : LaneObs) (s : State) : kept (pcieOrder n obs s) = kept s := by
  unfold pcieOrder
  try dsimp only
  repeat' (first | (simp; done) | split | dsimp only | rfl)

@[simp] theorem adaptLane_kept (n : Nat) (obs : LaneObs) (s : State) : kept (adaptLane n obs s) = kept s := by
  unfold adaptLane
  dsimp only
  split <;> simp

theorem execLaneBringUp_kept (lane : Nat) (obs : LaneObs) (s : State) : ∀ t, execLaneBringUp lane obs s = .next t → kept t = kept s := by
  unfold execLaneBringUp
  intro t h
  cases h
  repeat' (first | (simp; done) | split)

theorem execSignalDetect_kept (lane : Nat) (s : State) : ∀ t, execSignalDetect lane s = .next t → kept t = kept s := by
  unfold execSignalDetect
  intro t h
  cases h
  split <;> simp

theorem execDfeUpdate_kept (lane : Nat) (signs : List Int) (gainSign : Int) (s : State) : ∀ t, execDfeUpdate lane signs gainSign s = .next t → kept t = kept s := by
  unfold execDfeUpdate
  intro t h
  cases h
  split <;> simp

theorem execCtleUpdate_kept (lane below here above : Nat) (s : State) : ∀ t, execCtleUpdate lane below here above s = .next t → kept t = kept s := by
  unfold execCtleUpdate
  intro t h
  cases h
  split <;> simp

theorem execAdaptationAtLimit_kept (lane : Nat) (s : State) : ∀ t, execAdaptationAtLimit lane s = .next t → kept t = kept s := by
  unfold execAdaptationAtLimit
  intro t h
  cases h
  split <;> simp

@[simp] theorem beginFault_kept (lane bit kind sev detail : Nat) (s : State) : kept (beginFault lane bit kind sev detail s) = kept s := by
  unfold beginFault
  split <;> simp

theorem execTransmitterLegFault_kept (lane : Nat) (legsTogether : Bool) (s : State) : ∀ t, execTransmitterLegFault lane legsTogether s = .next t → kept t = kept s := by
  unfold execTransmitterLegFault
  intro t h
  cases h
  split <;> simp

theorem execTransmitterRetry_kept (lane : Nat) (s : State) : ∀ t, execTransmitterRetry lane s = .next t → kept t = kept s := by
  unfold execTransmitterRetry
  intro t h
  cases h
  split <;> simp

theorem execLaneFaultEnd_kept (lane : Nat) (f : LaneFault) (s : State) : ∀ t, execLaneFaultEnd lane f s = .next t → kept t = kept s := by
  unfold execLaneFaultEnd
  intro t h
  cases h
  split <;> simp

theorem execScanPointComplete_kept (lane errors : Nat) (s : State) : ∀ t, execScanPointComplete lane errors s = .next t → kept t = kept s := by
  unfold execScanPointComplete
  intro t h
  cases h
  rfl

@[simp] theorem scanStartAct_kept (n : Nat) (r : Req) (s : State) : kept (scanStartAct n r s).2 = kept s := by
  unfold scanStartAct
  dsimp only
  repeat' (first | (simp; done) | split)

@[simp] theorem scanReadAct_kept (n : Nat) (r : Req) (s : State) : kept (scanReadAct n r s).2 = kept s := by
  unfold scanReadAct
  dsimp only
  repeat' (first | (simp; done) | split)

@[simp] theorem testSetUpAct_kept (n : Nat) (r : Req) (s : State) : kept (testSetUpAct n r s).2 = kept s := by
  unfold testSetUpAct
  dsimp only
  split <;> simp

@[simp] theorem bitSlipAct_kept (n : Nat) (r : Req) (s : State) : kept (bitSlipAct n r s).2 = kept s := by
  unfold bitSlipAct
  split <;> simp

@[simp] theorem checkerReadAct_kept (n : Nat) (s : State) : kept (checkerReadAct n s).2 = kept s := by
  unfold checkerReadAct
  split <;> simp

@[simp] theorem laneAct_kept (n : Nat) (r : Req) (s : State) : kept (laneAct n r s).2 = kept s := by
  unfold laneAct
  dsimp only
  repeat' (first | (simp; done) | split)

@[simp] theorem laneMsg_kept (n : Nat) (r : Req) (tok : Bool) (s : State) : kept ((laneMsg n).act r tok s).2 = kept s := by
  simp [laneMsg]

end Sys2Proof.Laws
end

