-- ==== Sys2Proof/Laws/KeepEpOps.lean ====
section
/-! SUPPORT. What the operations of Machine/EpOps.lean keep. -/

namespace Sys2Proof.Laws
open Sys2Proof Sys2Proof.Machine

@[simp] theorem modEp_kept (f : Endpoint → Endpoint) (s : State) : kept (modEp f s) = kept s := by
  rfl

@[simp] theorem modCq_kept (q : Nat) (f : CplQ → CplQ) (s : State) : kept (modCq q f s) = kept s := by
  rfl

@[simp] theorem raiseMsix_kept (v : Nat) (s : State) : kept (raiseMsix v s) = kept s := by
  rfl

@[simp] theorem deliverCq_kept (qid : Nat) (x : Completion) (s : State) : kept (deliverCq qid x s) = kept s := by
  unfold deliverCq
  repeat' (first | (simp; done) | split)

@[simp] theorem postHeld_kept (n qid : Nat) (s : State) : kept (postHeld n qid s) = kept s := by
  induction n generalizing s with
  | zero => rfl
  | succ n ih =>
    unfold postHeld
    repeat' (first | (simp [ih]; done) | split)

@[simp] theorem completeOn_kept (sq : Nat) (cmd : NvmeCmd) (a status dw0 : Nat) (data : List Byte) (s : State) : kept (completeOn sq cmd a status dw0 data s) = kept s := by
  unfold completeOn
  dsimp only
  repeat' (first | (simp; done) | split)

@[simp] theorem finishCmd_kept (a status dw0 : Nat) (data : List Byte) (s : State) : kept (finishCmd a status dw0 data s) = kept s := by
  unfold finishCmd
  repeat' (first | (simp; done) | split)

@[simp] theorem pushEvent_kept (dw0 : Nat) (s : State) : kept (pushEvent dw0 s) = kept s := by
  unfold pushEvent
  repeat' (first | (simp; done) | split)

@[simp] theorem noticeNs_kept (s : State) : kept (noticeNs s) = kept s := by
  unfold noticeNs
  split <;> simp

@[simp] theorem noticeTemp_kept (before s : State) : kept (noticeTemp before s) = kept s := by
  unfold noticeTemp
  try dsimp only
  repeat' (first | (simp; done) | split | dsimp only | rfl)

@[simp] theorem noticeReadOnly_kept (s : State) : kept (noticeReadOnly s) = kept s := by
  unfold noticeReadOnly
  split <;> simp

end Sys2Proof.Laws
end

