-- ==== Sys2Proof/Laws/KeepRecOps.lean ====
section
/-! SUPPORT. What the operations of Machine/RecOps.lean keep. -/

namespace Sys2Proof.Laws
open Sys2Proof Sys2Proof.Machine

@[simp] theorem modRec_kept (f : Recorder → Recorder) (s : State) : kept (modRec f s) = kept s := by
  rfl

@[simp] theorem modRecStream_kept (j : Nat) (f : RecStream → RecStream) (s : State) : kept (modRecStream j f s) = kept s := by
  rfl

@[simp] theorem dealUnits_kept (s : State) : kept (dealUnits s) = kept s := by
  unfold dealUnits
  try dsimp only
  repeat' (first | (simp; done) | split | dsimp only | rfl)

@[simp] theorem offerUnit_kept (j : Nat) (u : RecUnit) (s : State) : kept (offerUnit j u s) = kept s := by
  rfl

@[simp] theorem acceptUnit_kept (current j : Nat) (u : RecUnit) (s : State) : kept (acceptUnit current j u s) = kept s := by
  unfold acceptUnit
  try dsimp only
  repeat' (first | (simp; done) | split | dsimp only | rfl)

@[simp] theorem missUnit_kept (s : State) : kept (missUnit s) = kept s := by
  simp [missUnit]

@[simp] theorem boundReady_kept (n j : Nat) (s : State) : kept (boundReady n j s) = kept s := by
  unfold boundReady
  try dsimp only
  repeat' (first | (simp; done) | split | dsimp only | rfl)

@[simp] theorem abandonWrites_kept (s : State) : kept (abandonWrites s) = kept s := by
  rfl

end Sys2Proof.Laws
end

