-- ==== Sys2Proof/Laws/KeepRedOps.lean ====
section
/-! SUPPORT. What the operations of Machine/RedOps.lean keep. -/

namespace Sys2Proof.Laws
open Sys2Proof Sys2Proof.Machine

@[simp] theorem modRed_kept (f : Redundancy → Redundancy) (s : State) : kept (modRed f s) = kept s := by
  rfl

@[simp] theorem sendClaim_kept (epoch reason : Nat) (s : State) : kept (sendClaim epoch reason s) = kept s := by
  unfold sendClaim
  split <;> simp

@[simp] theorem claim_kept (epoch reason : Nat) (s : State) : kept (claim epoch reason s) = kept s := by
  simp [claim]

@[simp] theorem sendTakeover_kept (kind : Nat) (s : State) : kept (sendTakeover kind s) = kept s := by
  unfold sendTakeover
  split <;> simp

@[simp] theorem beginResync_kept (s : State) : kept (beginResync s) = kept s := by
  simp [beginResync]

@[simp] theorem syncIfReady_kept (s : State) : kept (syncIfReady s) = kept s := by
  unfold syncIfReady
  dsimp only
  repeat' (first | (simp; done) | split)

@[simp] theorem redLinkDown_kept (s : State) : kept (redLinkDown s) = kept s := by
  unfold redLinkDown
  split <;> simp

@[simp] theorem resyncAgain_kept (s : State) : kept (resyncAgain s) = kept s := by
  unfold resyncAgain
  split <;> simp

@[simp] theorem claimOnActive_kept (again : Bool) (s : State) : kept (claimOnActive again s) = kept s := by
  unfold claimOnActive
  repeat' (first | (simp; done) | split)

@[simp] theorem depose_kept (s : State) : kept (depose s) = kept s := by
  simp [depose]

@[simp] theorem declareFailure_kept (s : State) : kept (declareFailure s) = kept s := by
  unfold declareFailure
  dsimp only
  split
  · rw [modRed_kept, raise_kept, kept_foldl _ _ _ (fun u g => by split <;> simp), sendTakeover_kept, abandonWrites_kept]
  · rfl

@[simp] theorem sendVerdict_kept (g : Nat) (accepted deposed : Bool) (s : State) : kept (sendVerdict g accepted deposed s) = kept s := by
  rfl

@[simp] theorem headClaim_kept (g epoch serial reason : Nat) (s : State) : kept (headClaim g epoch serial reason s) = kept s := by
  unfold headClaim
  dsimp only
  repeat' (first | (simp; done) | split)

end Sys2Proof.Laws
end

