-- ==== Sys2Proof/Laws/KeepCodec.lean ====
section
/-! SUPPORT. What the operations of Machine/Codec.lean keep. -/

namespace Sys2Proof.Laws
open Sys2Proof Sys2Proof.Machine

@[simp] theorem modCodec_kept (f : Codec → Codec) (s : State) : kept (modCodec f s) = kept s := by
  rfl

@[simp] theorem modEnc_kept (m : Nat) (f : EncStream → EncStream) (s : State) : kept (modEnc m f s) = kept s := by
  rfl

@[simp] theorem modDec_kept (m : Nat) (f : DecStream → DecStream) (s : State) : kept (modDec m f s) = kept s := by
  rfl

@[simp] theorem modEncSource_kept (m : Nat) (f : OutRing → OutRing) (s : State) : kept (modEncSource m f s) = kept s := by
  unfold modEncSource
  split <;> simp

@[simp] theorem takeInputs_kept (m : Nat) (fuel : Nat) (s : State) : kept (takeInputs m fuel s) = kept s := by
  induction fuel generalizing s with
  | zero => rfl
  | succ k ih =>
    unfold takeInputs
    repeat' (first | rfl | (simp [ih]; done) | split | dsimp only)

@[simp] theorem takeInput_kept (m : Nat) (s : State) : kept (takeInput m s) = kept s := by
  unfold takeInput
  try dsimp only
  repeat' (first | (simp; done) | split | dsimp only | rfl)

@[simp] theorem offerInput_kept (kind : Bool) (i : Nat) (s : State) : kept (offerInput kind i s) = kept s := by
  unfold offerInput
  (try dsimp only) <;> repeat' (first | (simp; done) | split | (refine (kept_foldl _ _ _ (fun u x => ?_)).trans ?_) | (refine kept_foldl _ _ _ (fun u x => ?_)) | simp)

@[simp] theorem loadRate_kept (m : Nat) (s : State) : kept (loadRate m s) = kept s := by
  unfold loadRate
  repeat' (first | (simp; done) | split)

end Sys2Proof.Laws
end

