-- ==== Sys2Proof/Laws/KeepVolume.lean ====
section
/-! SUPPORT. What the operations of Machine/Volume.lean keep. -/

namespace Sys2Proof.Laws
open Sys2Proof Sys2Proof.Machine

@[simp] theorem modSsd_kept (k : Nat) (f : Ssd → Ssd) (s : State) : kept (modSsd k f s) = kept s := by
  rfl

@[simp] theorem modMedia_kept (k : Nat) (f : Media → Media) (s : State) : kept (modMedia k f s) = kept s := by
  rfl

@[simp] theorem sendSsd_kept (port queue : Nat) (op : SsdOp) (s : State) : kept (sendSsd port queue op s) = kept s := by
  unfold sendSsd
  try dsimp only
  repeat' (first | (simp; done) | split | dsimp only | rfl)

@[simp] theorem sendLists_kept (ops : Nat → Ssd → List SsdOp) (s : State) : kept (sendLists ops s) = kept s := by
  unfold sendLists
  try dsimp only
  repeat' (first | (simp; done) | (simp [kept_foldl]; done) | split | dsimp only | rfl)

@[simp] theorem sendAll_kept (op : Nat → SsdOp) (s : State) : kept (sendAll op s) = kept s := by
  unfold sendAll
  (try dsimp only) <;> repeat' (first | (simp; done) | split | (refine (kept_foldl _ _ _ (fun u x => ?_)).trans ?_) | (refine kept_foldl _ _ _ (fun u x => ?_)) | simp)

@[simp] theorem sendAdmin_kept (port : Nat) (c : SsdAdmin) (s : State) : kept (sendAdmin port c s) = kept s := by
  unfold sendAdmin
  try dsimp only
  repeat' (first | (simp; done) | split | dsimp only | rfl)

@[simp] theorem walk_kept (write : Bool) (vs : List Nat) (s : State) : kept (walk write vs s) = kept s := by
  unfold walk
  try dsimp only
  repeat' (first | (simp; done) | split | dsimp only | rfl)

@[simp] theorem setupMember_kept (k : Nat) (s : State) : kept (setupMember k s) = kept s := by
  unfold setupMember
  try dsimp only
  repeat' (first | (simp; done) | (simp [kept_foldl]; done) | split | dsimp only | rfl)

@[simp] theorem acquireVolume_kept (preempt : Bool) (s : State) : kept (acquireVolume preempt s) = kept s := by
  unfold acquireVolume
  (try dsimp only) <;> repeat' (first | (simp; done) | split | (refine (kept_foldl _ _ _ (fun u x => ?_)).trans ?_) | (refine kept_foldl _ _ _ (fun u x => ?_)) | simp)

@[simp] theorem mountFrom_kept (b : SuperBlk) (members : List (Nat × SuperBlk)) (s : State) : kept (mountFrom b members s) = kept s := by
  unfold mountFrom
  dsimp only
  split <;> simp

@[simp] theorem mountVolume_kept (s : State) : kept (mountVolume s) = kept s := by
  unfold mountVolume
  (try dsimp only) <;> repeat' (first | (simp; done) | split | (refine (kept_foldl _ _ _ (fun u x => ?_)).trans ?_) | (refine kept_foldl _ _ _ (fun u x => ?_)) | simp)

@[simp] theorem formatVolume_kept (sidecars : Nat) (s : State) : kept (formatVolume sidecars s) = kept s := by
  unfold formatVolume
  try dsimp only
  repeat' (first | (simp; done) | (simp [kept_foldl]; done) | split | dsimp only | rfl)

end Sys2Proof.Laws
end

