-- ==== Sys2Proof/Laws/KeepPlayback.lean ====
section
/-! SUPPORT. What the operations of Machine/Playback.lean keep. -/

namespace Sys2Proof.Laws
open Sys2Proof Sys2Proof.Machine

@[simp] theorem modPlay_kept (m : Nat) (f : Playback → Playback) (s : State) : kept (modPlay m f s) = kept s := by
  rfl

@[simp] theorem askPieces_kept (m : Nat) (l : List (Nat × Nat × Nat × Nat)) (s : State) : kept (askPieces m l s) = kept s := by
  induction l generalizing s with
  | nil => rfl
  | cons p r ih =>
    simp only [askPieces, ih]
    split <;> simp

@[simp] theorem playPump_kept (m : Nat) (s : State) : kept (playPump m s) = kept s := by
  unfold playPump
  try dsimp only
  repeat' (first | (simp; done) | split | dsimp only | rfl)

end Sys2Proof.Laws
end

