-- ==== Sys2Proof/Laws/KeepDecoder.lean ====
section
/-! SUPPORT. What the operations of Machine/Decoder.lean keep. -/

namespace Sys2Proof.Laws
open Sys2Proof Sys2Proof.Machine

@[simp] theorem outputPicture_kept (m : Nat) (p : DecPic) (s : State) : kept (outputPicture m p s) = kept s := by
  unfold outputPicture
  dsimp only
  split <;> simp

@[simp] theorem bump_kept (m : Nat) (s : State) : kept (bump m s) = kept s := by
  unfold bump
  try dsimp only
  repeat' (first | (simp; done) | split | dsimp only | rfl)

@[simp] theorem bumpWhile_kept (m size : Nat) (fuel : Nat) (s : State) : kept (bumpWhile m size fuel s) = kept s := by
  induction fuel generalizing s with
  | zero => rfl
  | succ k ih =>
    unfold bumpWhile
    repeat' (first | rfl | (simp [ih]; done) | split | dsimp only)

@[simp] theorem bumpAll_kept (m : Nat) (fuel : Nat) (s : State) : kept (bumpAll m fuel s) = kept s := by
  induction fuel generalizing s with
  | zero => rfl
  | succ k ih =>
    unfold bumpAll
    repeat' (first | rfl | (simp [ih]; done) | split | dsimp only)

theorem execDecodedPictureOutput_kept (m : Nat) (s : State) : ∀ t, execDecodedPictureOutput m s = .next t → kept t = kept s := by
  unfold execDecodedPictureOutput
  intro t h
  cases h
  repeat' (first | (simp; done) | split | dsimp only | rfl)

@[simp] theorem skipAu_kept (m : Nat) (s : State) : kept (skipAu m s) = kept s := by
  rfl

@[simp] theorem beginDecode_kept (m : Nat) (l : List Byte) (s : State) : kept (beginDecode m l s) = kept s := by
  unfold beginDecode
  try dsimp only
  repeat' (first | (simp; done) | split | dsimp only | rfl)

@[simp] theorem tryDecodes_kept (m : Nat) (fuel : Nat) (s : State) : kept (tryDecodes m fuel s) = kept s := by
  induction fuel generalizing s with
  | zero => rfl
  | succ k ih =>
    unfold tryDecodes
    repeat' (first | rfl | (simp [ih]; done) | split | dsimp only)

@[simp] theorem tryDecode_kept (m : Nat) (s : State) : kept (tryDecode m s) = kept s := by
  unfold tryDecode
  try dsimp only
  repeat' (first | (simp; done) | split | dsimp only | rfl)

@[simp] theorem feedDecoder_kept (m : Nat) (l : List Byte) (last : Bool) (s : State) : kept (feedDecoder m l last s) = kept s := by
  unfold feedDecoder
  dsimp only
  split <;> simp

theorem execDecodeTime_kept (m : Nat) (s : State) : ∀ t, execDecodeTime m s = .next t → kept t = kept s := by
  unfold execDecodeTime
  intro t h
  cases h
  repeat' (first | (simp; done) | split)

theorem execAccessUnitTimeout_kept (m : Nat) (s : State) : ∀ t, execAccessUnitTimeout m s = .next t → kept t = kept s := by
  unfold execAccessUnitTimeout
  intro t h
  cases h
  repeat' (first | (simp; done) | split | dsimp only | rfl)

@[simp] theorem renewDpb_kept (m : Nat) (discard : Bool) (s : State) : kept (renewDpb m discard s) = kept s := by
  unfold renewDpb
  try dsimp only
  repeat' (first | (simp; done) | split | dsimp only | rfl)

@[simp] theorem startPicture_kept (m : Nat) (a : DecAu) (s : State) : kept (startPicture m a s).2 = kept s := by
  unfold startPicture
  try dsimp only
  repeat' (first | (simp; done) | split | dsimp only | rfl)

@[simp] theorem finishDecode_kept (m : Nat) (a : DecAu) (s : State) : kept (finishDecode m a s) = kept s := by
  unfold finishDecode
  extract_lets sl covered stopped d other planes con h fmt p bad t u v
  have ht : kept t = kept s := modDec_kept _ _ _
  have hu : kept u = kept s := by
    simp only [u]
    split <;> simp [ht]
  have hv : kept v = kept s := by
    simp only [v]
    split <;> simp [hu]
  split <;> simp [hv]

@[simp] theorem flushDecoder_kept (m : Nat) (s : State) : kept (flushDecoder m s) = kept s := by
  rfl

end Sys2Proof.Laws
end

