-- ==== Sys2Proof/Laws/KeepEncoder.lean ====
section
/-! SUPPORT. What the operations of Machine/Encoder.lean keep. -/

namespace Sys2Proof.Laws
open Sys2Proof Sys2Proof.Machine

@[simp] theorem trimRing_kept (m : Nat) (s : State) : kept (trimRing m s) = kept s := by
  unfold trimRing
  try dsimp only
  repeat' (first | (simp; done) | split | dsimp only | rfl)

theorem execEncodePictureBegin_kept (m : Nat) (s : State) : ∀ t, execEncodePictureBegin m s = .next t → kept t = kept s := by
  unfold execEncodePictureBegin
  intro t h
  cases h
  dsimp only
  repeat' (first | (simp; done) | split)

@[simp] theorem pushRing_kept (m : Nat) (p : EncPic) (s : State) : kept (pushRing m p s) = kept s := by
  unfold pushRing
  try dsimp only
  repeat' (first | (simp; done) | split | dsimp only | rfl)

@[simp] theorem publishSlices_kept (m : Nat) (s : State) : kept (publishSlices m s) = kept s := by
  unfold publishSlices
  try dsimp only
  repeat' (first | (simp; done) | split | dsimp only | rfl)

@[simp] theorem endPicture_kept (m : Nat) (p : EncPic) (s : State) : kept (endPicture m p s) = kept s := by
  unfold endPicture
  try dsimp only
  repeat' (first | (simp; done) | split | dsimp only | rfl)

@[simp] theorem offerAu_kept (m : Nat) (p : EncPic) (s : State) : kept (offerAu m p s) = kept s := by
  unfold offerAu
  split <;> simp

@[simp] theorem finishPicture_kept (m : Nat) (p : EncPic) (s : State) : kept (finishPicture m p s) = kept s := by
  simp [finishPicture]

@[simp] theorem beginFallback_kept (m i : Nat) (p : EncPic) (s : State) : kept (beginFallback m i p s) = kept s := by
  simp [beginFallback]

end Sys2Proof.Laws
end

