-- ==== Sys2Proof/Laws/KeepEngines.lean ====
section
/-! SUPPORT. What the operations of Machine/Engines.lean keep. -/

namespace Sys2Proof.Laws
open Sys2Proof Sys2Proof.Machine

@[simp] theorem spendBins_kept (m bins : Nat) (s : State) : kept (spendBins m bins s) = kept s := by
  rfl

@[simp] theorem pixelEncode_kept (m : Nat) (s : State) : kept (pixelEncode m s) = kept s := by
  unfold pixelEncode
  dsimp only
  repeat' (first | (simp; done) | split)

@[simp] theorem pixelDecode_kept (s : State) : kept (pixelDecode s) = kept s := by
  unfold pixelDecode
  try dsimp only
  repeat' (first | (simp; done) | split | dsimp only | rfl)

theorem execPixelEngineUnit_kept (s : State) : ∀ t, execPixelEngineUnit s = .next t → kept t = kept s := by
  unfold execPixelEngineUnit
  intro t h
  cases h
  repeat' (first | (simp; done) | split)

@[simp] theorem codeCtus_kept (m : Nat) (dc : Bool) (l : List (List Nat)) (i : Nat) (s : State) : kept (codeCtus m dc l i s) = kept s := by
  induction l generalizing i s with
  | nil => rfl
  | cons e r ih =>
    unfold codeCtus
    split
    · rfl
    · extract_lets w per j total lim q c p' rv s1 ends spent p2 s2 s3 s4
      have h1 : kept s1 = kept s := spendBins_kept _ _ _
      have h3 : kept s3 = kept s := by
        simp only [s3]
        split <;> simp [s2, h1]
      have h4 : kept s4 = kept s := by
        simp only [s4]
        split <;> simp [h3]
      split
      · simp [h1]
      · split
        · split <;> simp [h4]
        · rw [ih, h4]

@[simp] theorem entropyEncode_kept (s : State) : kept (entropyEncode s) = kept s := by
  unfold entropyEncode
  split <;> simp

@[simp] theorem entropyDecode_kept (m : Nat) (s : State) : kept (entropyDecode m s) = kept s := by
  unfold entropyDecode
  try dsimp only
  repeat' (first | (simp; done) | split | dsimp only | rfl)

theorem execEntropyEngineUnit_kept (s : State) : ∀ t, execEntropyEngineUnit s = .next t → kept t = kept s := by
  unfold execEntropyEngineUnit
  intro t h
  cases h
  repeat' (first | (simp; done) | split)

@[simp] theorem streamStatusMsg_kept (m : Nat) (r : Req) (tok : Bool) (s : State) : kept ((streamStatusMsg m).act r tok s).2 = kept s := by
  rfl

@[simp] theorem bitstreamReadMsg_kept (m : Nat) (r : Req) (tok : Bool) (s : State) : kept ((bitstreamReadMsg m).act r tok s).2 = kept s := by
  unfold bitstreamReadMsg
  dsimp only
  repeat' (first | (simp; done) | split)

@[simp] theorem bitstreamWriteMsg_kept (m : Nat) (r : Req) (tok : Bool) (s : State) : kept ((bitstreamWriteMsg m).act r tok s).2 = kept s := by
  unfold bitstreamWriteMsg
  dsimp only
  repeat' (first | (simp; done) | split)

@[simp] theorem forceIdrMsg_kept (m : Nat) (r : Req) (tok : Bool) (s : State) : kept ((forceIdrMsg m).act r tok s).2 = kept s := by
  unfold forceIdrMsg
  dsimp only
  split <;> simp

@[simp] theorem decoderFlushMsg_kept (m : Nat) (r : Req) (tok : Bool) (s : State) : kept ((decoderFlushMsg m).act r tok s).2 = kept s := by
  unfold decoderFlushMsg
  dsimp only
  split <;> simp

end Sys2Proof.Laws
end

