-- ==== Sys2Proof/Laws/KeepOutput.lean ====
section
/-! SUPPORT. What the operations of Machine/Output.lean keep. -/

namespace Sys2Proof.Laws
open Sys2Proof Sys2Proof.Machine

@[simp] theorem modOuts_kept (f : Outputs → Outputs) (s : State) : kept (modOuts f s) = kept s := by
  rfl

@[simp] theorem modOutput_kept (o : OutId) (f : Output → Output) (s : State) : kept (modOutput o f s) = kept s := by
  unfold modOutput
  split <;> simp

@[simp] theorem modMac_kept (m : Nat) (f : Mac → Mac) (s : State) : kept (modMac m f s) = kept s := by
  rfl

@[simp] theorem modSrcRing_kept (kind idx : Nat) (f : OutRing → OutRing) (s : State) : kept (modSrcRing kind idx f s) = kept s := by
  unfold modSrcRing
  split <;> simp

@[simp] theorem takeHold_kept (o : OutId) (i : Nat) (s : State) : kept (takeHold o i s) = kept s := by
  simp [takeHold]

@[simp] theorem repeatHeld_kept (o : OutId) (s : State) : kept (repeatHeld o s) = kept s := by
  unfold repeatHeld
  dsimp only
  repeat' (first | (simp; done) | split)

theorem execOutputFrameSelect_kept (o : OutId) (s : State) : ∀ t, execOutputFrameSelect o s = .next t → kept t = kept s := by
  unfold execOutputFrameSelect
  intro t h
  cases h
  dsimp only
  repeat' (first | (simp; done) | split)

@[simp] theorem macSend_kept (m ip k : Nat) (s : State) : kept (macSend m ip k s) = kept s := by
  unfold macSend
  try dsimp only
  repeat' (first | (simp; done) | split | dsimp only | rfl)

@[simp] theorem sendPackets_kept (n k : Nat) (s : State) : kept (sendPackets n k s) = kept s := by
  unfold sendPackets
  (try dsimp only) <;> repeat' (first | (simp; done) | split | (refine (kept_foldl _ _ _ (fun u x => ?_)).trans ?_) | (refine kept_foldl _ _ _ (fun u x => ?_)) | simp)

@[simp] theorem steerPair_kept (o : OutId) (errPs : Int) (s : State) : kept (steerPair o errPs s) = kept s := by
  unfold steerPair
  try dsimp only
  repeat' (first | (simp; done) | split | dsimp only | rfl)

theorem execOutputFrameStart_kept (o : OutId) (errPs : Int) (s : State) : ∀ t, execOutputFrameStart o errPs s = .next t → kept t = kept s := by
  unfold execOutputFrameStart
  intro t h
  cases h
  dsimp only
  repeat' (first | (simp; done) | split)

theorem execAudioPacketTimer_kept (snd : Nat) (s : State) : ∀ t, execAudioPacketTimer snd s = .next t → kept t = kept s := by
  unfold execAudioPacketTimer
  intro t h
  cases h
  split <;> simp

theorem execMacLinkUp_kept (mac : Nat) (s : State) : ∀ t, execMacLinkUp mac s = .next t → kept t = kept s := by
  unfold execMacLinkUp
  intro t h
  cases h
  split <;> simp

theorem execMacLinkDown_kept (mac : Nat) (s : State) : ∀ t, execMacLinkDown mac s = .next t → kept t = kept s := by
  unfold execMacLinkDown
  intro t h
  cases h
  split <;> simp

@[simp] theorem macGot_kept (m : Nat) (s : State) : kept (macGot m s) = kept s := by
  unfold macGot
  try dsimp only
  repeat' (first | (simp; done) | split | dsimp only | rfl)

@[simp] theorem macDiscard_kept (m : Nat) (s : State) : kept (macDiscard m s) = kept s := by
  unfold macDiscard
  try dsimp only
  repeat' (first | (simp; done) | split | dsimp only | rfl)

@[simp] theorem macAnswer_kept (m : Nat) (frame : List Byte) (s : State) : kept (macAnswer m frame s) = kept s := by
  unfold macAnswer
  try dsimp only
  repeat' (first | (simp; done) | split | dsimp only | rfl)

@[simp] theorem takeFrame_kept (m : Nat) (s : State) (k : EthKind) : kept (takeFrame m s k) = kept s := by
  induction k with
  | framed n tags k ih => unfold takeFrame; split <;> simp [ih]
  | arpRequest | mailboxUdp => unfold takeFrame; split <;> simp
  | _ => simp [takeFrame]

theorem execEthernetFrameReceive_kept (mac : Nat) (kind : EthKind) (s : State) : ∀ t, execEthernetFrameReceive mac kind s = .next t → kept t = kept s := by
  unfold execEthernetFrameReceive
  intro t h
  cases h
  repeat' (first | (simp; done) | split)

@[simp] theorem sdiStatusMsg_kept (k : Nat) (r : Req) (tok : Bool) (s : State) : kept ((sdiStatusMsg k).act r tok s).2 = kept s := by
  rfl

@[simp] theorem macStatusMsg_kept (m : Nat) (r : Req) (tok : Bool) (s : State) : kept ((macStatusMsg m).act r tok s).2 = kept s := by
  rfl

@[simp] theorem senderStatusMsg_kept (n : Nat) (r : Req) (tok : Bool) (s : State) : kept ((senderStatusMsg n).act r tok s).2 = kept s := by
  rfl

end Sys2Proof.Laws
end

