-- ==== Sys2Proof/Laws/KeepSequencer.lean ====
section
/-! SUPPORT. What the operations of Machine/Sequencer.lean keep. -/

namespace Sys2Proof.Laws
open Sys2Proof Sys2Proof.Machine

@[simp] theorem rebaseSchedule_kept (n : Nat) (s : State) : kept (rebaseSchedule n s) = kept s := by
  unfold rebaseSchedule
  try dsimp only
  repeat' (first | (simp; done) | (simp [kept_foldl]; done) | split | dsimp only | rfl)

theorem execScheduleRebase_kept (seam : Nat) (s : State) : ∀ t, execScheduleRebase seam s = .next t → kept t = kept s := by
  unfold execScheduleRebase
  intro t h
  cases h
  repeat' (first | (simp; done) | split | dsimp only | rfl)

@[simp] theorem modLoop_kept (n : Nat) (f : Loop → Loop) (s : State) : kept (modLoop n f s) = kept s := by
  rfl

@[simp] theorem noteQueued_kept (p : Nat) (sc : Script) (s : State) : kept (noteQueued p sc s) = kept s := by
  unfold noteQueued
  try dsimp only
  repeat' (first | (simp; done) | split | dsimp only | rfl)

@[simp] theorem revertLoop_kept (p : Nat) (sc : Script) (s : State) : kept (revertLoop p sc s) = kept s := by
  unfold revertLoop
  split <;> simp

@[simp] theorem noteLate_kept (p : Nat) (sc : Script) (s : State) : kept (noteLate p sc s) = kept s := by
  unfold noteLate
  repeat' (first | (simp; done) | split)

@[simp] theorem completeScript_kept (p : Nat) (sc : Script) (s : State) : kept (completeScript p sc s) = kept s := by
  unfold completeScript
  split <;> simp

@[simp] theorem abandonScript_kept (p k : Nat) (s : State) : kept (abandonScript p k s) = kept s := by
  simp [abandonScript]

@[simp] theorem startHead_kept (p : Nat) (sc : Script) (s : State) : kept (startHead p sc s) = kept s := by
  unfold startHead
  split <;> simp

@[simp] theorem considerHead_kept (p n : Nat) (s : State) : kept (considerHead p n s) = kept s := by
  induction n generalizing s with
  | zero => rfl
  | succ n ih =>
    unfold considerHead
    dsimp only
    repeat' (first | (simp [ih]; done) | split)

@[simp] theorem queueScript_kept (p : Nat) (sc : Script) (s : State) : kept (queueScript p sc s).2 = kept s := by
  unfold queueScript
  try dsimp only
  repeat' (first | (simp; done) | split | dsimp only | rfl)

theorem execScriptEntryComplete_kept (p : Nat) (r : BusResult) (s : State) : ∀ t, execScriptEntryComplete p r s = .next t → kept t = kept s := by
  unfold execScriptEntryComplete
  intro t h
  cases h
  repeat' (first | (simp; done) | split)

theorem execControlBusTimeout_kept (p : Nat) (s : State) : ∀ t, execControlBusTimeout p s = .next t → kept t = kept s := by
  unfold execControlBusTimeout
  intro t h
  cases h
  split <;> simp

end Sys2Proof.Laws
end

