-- ==== Sys2Proof/Laws/KeepAudio.lean ====
section
/-! SUPPORT. What the operations of Machine/Audio.lean keep. -/

namespace Sys2Proof.Laws
open Sys2Proof Sys2Proof.Machine

@[simp] theorem modAud_kept (p : Nat) (f : Audio → Audio) (s : State) : kept (modAud p f s) = kept s := by
  rfl

@[simp] theorem startAudio_kept (keep : Bool) (p : Nat) (s : State) : kept (startAudio keep p s) = kept s := by
  rfl

@[simp] theorem stopAudio_kept (p : Nat) (s : State) : kept (stopAudio p s) = kept s := by
  rfl

@[simp] theorem runAudio_kept (run : Bool) (p : Nat) (s : State) : kept (runAudio run p s) = kept s := by
  unfold runAudio
  dsimp only
  repeat' (first | (simp; done) | split)

theorem execAudioStopComplete_kept (p : Nat) (s : State) : ∀ t, execAudioStopComplete p s = .next t → kept t = kept s := by
  unfold execAudioStopComplete
  intro t h
  cases h
  repeat' (first | (simp; done) | split)

theorem execSlaveClockFault_kept (p : Nat) (s : State) : ∀ t, execSlaveClockFault p s = .next t → kept t = kept s := by
  unfold execSlaveClockFault
  intro t h
  cases h
  split <;> simp

theorem execSlaveClockReturn_kept (p : Nat) (s : State) : ∀ t, execSlaveClockReturn p s = .next t → kept t = kept s := by
  unfold execSlaveClockReturn
  intro t h
  cases h
  repeat' (first | (simp; done) | split)

theorem execAudioBlockTake_kept (p : Nat) (s : State) : ∀ t, execAudioBlockTake p s = .next t → kept t = kept s := by
  unfold execAudioBlockTake
  intro t h
  cases h
  dsimp only
  repeat' (first | (simp; done) | split)

theorem execAudioBlockPresent_kept (p : Nat) (s : State) : ∀ t, execAudioBlockPresent p s = .next t → kept t = kept s := by
  unfold execAudioBlockPresent
  intro t h
  cases h
  dsimp only
  repeat' (first | (simp; done) | split)

theorem execAudioInputBlock_kept (p : Nat) (samples : List Int) (stamp : Tod) (s : State) : ∀ t, execAudioInputBlock p samples stamp s = .next t → kept t = kept s := by
  unfold execAudioInputBlock
  intro t h
  cases h
  dsimp only
  repeat' (first | (simp; done) | split)

theorem execOutputReadback_kept (ball : Ball) (r : Readback) (s : State) : ∀ t, execOutputReadback ball r s = .next t → kept t = kept s := by
  unfold execOutputReadback
  intro t h
  cases h
  dsimp only
  repeat' (first | (simp; done) | split)

@[simp] theorem audioStatusMsg_kept (p : Nat) (r : Req) (tok : Bool) (s : State) : kept ((audioStatusMsg p).act r tok s).2 = kept s := by
  rfl

@[simp] theorem startStopMsg_kept (p : Nat) (r : Req) (tok : Bool) (s : State) : kept ((startStopMsg p).act r tok s).2 = kept s := by
  unfold startStopMsg
  dsimp only
  split <;> simp

@[simp] theorem writeBlocks_kept (p first n i k : Nat) (s : State) :
    kept (writeBlocks p first n i k s).2 = kept s := by
  induction n generalizing i k s with
  | zero => rfl
  | succ n ih =>
    unfold writeBlocks
    dsimp only
    repeat' (first | (simp [ih]; done) | split)

@[simp] theorem blockWriteMsg_kept (p : Nat) (r : Req) (tok : Bool) (s : State) : kept ((blockWriteMsg p).act r tok s).2 = kept s := by
  unfold blockWriteMsg
  dsimp only
  repeat' (first | (simp; done) | split)

end Sys2Proof.Laws
end

