-- ==== Sys2Proof/Laws/KeepRecorder.lean ====
section
/-! SUPPORT. What the operations of Machine/Recorder.lean keep. -/

namespace Sys2Proof.Laws
open Sys2Proof Sys2Proof.Machine

@[simp] theorem markChanged_kept (v : Nat) (s : State) : kept (markChanged v s) = kept s := by
  rfl

@[simp] theorem markAlloc_kept (v : Nat) (s : State) : kept (markAlloc v s) = kept s := by
  rfl

theorem takeGran_kept {clip : Nat} {c : Chain} {s : State} {q : Chain × State}
    (h : takeGran clip c s = some q) : kept q.2 = kept s := by
  unfold takeGran at h
  dsimp only at h
  split at h
  · cases h
    repeat' (first | (simp; done) | split)
  · cases h

theorem growChain_kept {k clip len : Nat} {c : Chain} {s : State} {q : Chain × State}
    (h : growChain k clip len c s = some q) : kept q.2 = kept s := by
  induction k generalizing c s with
  | zero => cases h; rfl
  | succ k ih =>
    unfold growChain at h
    split at h
    · cases h; rfl
    · obtain ⟨p, hp, hq⟩ := Option.bind_eq_some_iff.mp h
      exact (ih hq).trans (takeGran_kept hp)

theorem appendChain_kept {clip : Nat} {l : List Byte} {c : Chain} {s : State}
    {q : Chain × List (Nat × Nat × Nat × List Byte) × State} (h : appendChain clip l c s = some q) : kept q.2.2 = kept s := by
  unfold appendChain at h
  obtain ⟨p, hp, rfl⟩ := Option.map_eq_some_iff.mp h
  exact growChain_kept hp

@[simp] theorem putClip_kept (n : Nat) (l : List Byte) (s : State) : kept (putClip n l s) = kept s := by
  rfl

@[simp] theorem closeClip_kept (s : State) : kept (closeClip s) = kept s := by
  unfold closeClip
  split <;> simp

@[simp] theorem beginPoint_kept (s : State) : kept (beginPoint s) = kept s := by
  unfold beginPoint
  repeat' (first | (simp; done) | split)

@[simp] theorem maybeEnd_kept (s : State) : kept (maybeEnd s) = kept s := by
  unfold maybeEnd
  repeat' (first | (simp; done) | split)

@[simp] theorem stopClip_kept (trunc : Bool) (s : State) : kept (stopClip trunc s) = kept s := by
  unfold stopClip
  split <;> simp

@[simp] theorem cutFinal_kept (s : State) : kept (cutFinal s) = kept s := by
  unfold cutFinal
  try dsimp only
  repeat' (first | (simp; done) | split | dsimp only | rfl)

@[simp] theorem recHalt_kept (s : State) : kept (recHalt s) = kept s := by
  unfold recHalt
  try dsimp only
  repeat' (first | (simp; done) | split | dsimp only | rfl)

@[simp] theorem recFail_kept (port : Nat) (s : State) : kept (recFail port s) = kept s := by
  unfold recFail
  try dsimp only
  repeat' (first | (simp; done) | split | dsimp only | rfl)

@[simp] theorem recFull_kept (s : State) : kept (recFull s) = kept s := by
  simp [recFull]

@[simp] theorem freeStage_kept (j n : Nat) (s : State) : kept (freeStage j n s) = kept s := by
  rfl

@[simp] theorem sendPieces_kept (j flight : Nat) (ps : List (Nat × Nat × Nat × List Byte)) (s : State) : kept (sendPieces j flight ps s) = kept s := by
  unfold sendPieces
  (try dsimp only) <;> repeat' (first | (simp; done) | split | (refine (kept_foldl _ _ _ (fun u x => ?_)).trans ?_) | (refine kept_foldl _ _ _ (fun u x => ?_)) | simp)

@[simp] theorem writeUnit_kept (c : Clip) (j : Nat) (u : RecUnit) (s : State) : kept (writeUnit c j u s) = kept s := by
  unfold writeUnit
  dsimp only
  split
  · simp
  · next h =>
    simp only [bind, pure, Option.bind_eq_some_iff, Option.some.injEq, Prod.mk.injEq] at h
    obtain ⟨a, ha, b, hb, l, hl, rfl, rfl, rfl, rfl, rfl⟩ := h
    simp [appendChain_kept hl, appendChain_kept hb, appendChain_kept ha]

@[simp] theorem keepFour_kept (j : Nat) (u : RecUnit) (s : State) : kept (keepFour j u s) = kept s := by
  unfold keepFour
  try dsimp only
  repeat' (first | (simp; done) | split | dsimp only | rfl)

@[simp] theorem takeUnit_kept (j : Nat) (s : State) : kept (takeUnit j s) = kept s := by
  unfold takeUnit
  dsimp only
  repeat' (first | (simp; done) | split)

@[simp] theorem appendDigest_kept (j : Nat) (f : Flight) (s : State) : kept (appendDigest j f s) = kept s := by
  unfold appendDigest
  split
  · rfl
  · dsimp only
    split
    · simp
    · next h => simp [show kept _ = kept s from appendChain_kept h]

@[simp] theorem flightWrite_kept (j id : Nat) (ok : Bool) (s : State) : kept (flightWrite j id ok s) = kept s := by
  unfold flightWrite
  dsimp only
  repeat' (first | (simp; done) | split)

@[simp] theorem pointStep_kept (phase : DurPhase) (ops : Nat → Ssd → List SsdOp) (s : State) : kept (pointStep phase ops s) = kept s := by
  unfold pointStep
  try dsimp only
  repeat' (first | (simp; done) | split | dsimp only | rfl)

@[simp] theorem writeJournal_kept (s : State) : kept (writeJournal s) = kept s := by
  unfold writeJournal
  dsimp only
  split <;> simp

@[simp] theorem finishPoint_kept (s : State) : kept (finishPoint s) = kept s := by
  unfold finishPoint
  split <;> simp

@[simp] theorem markDurable_kept (s : State) : kept (markDurable s) = kept s := by
  rfl

@[simp] theorem deallocFreed_kept (s : State) : kept (deallocFreed s) = kept s := by
  unfold deallocFreed
  (try dsimp only) <;> repeat' (first | (simp; done) | split | (refine (kept_foldl _ _ _ (fun u x => ?_)).trans ?_) | (refine kept_foldl _ _ _ (fun u x => ?_)) | simp)

@[simp] theorem closeFinal_kept (s : State) : kept (closeFinal s) = kept s := by
  unfold closeFinal
  repeat' (first | (simp; done) | split)

@[simp] theorem beginCheckpoint_kept (s : State) : kept (beginCheckpoint s) = kept s := by
  unfold beginCheckpoint
  try dsimp only
  repeat' (first | (simp; done) | split | dsimp only | rfl)

@[simp] theorem recordDurable_kept (s : State) : kept (recordDurable s) = kept s := by
  unfold recordDurable
  dsimp only
  split <;> simp

@[simp] theorem writeSuper_kept (s : State) : kept (writeSuper s) = kept s := by
  simp [writeSuper]

@[simp] theorem phaseStep_kept (id : Nat) (s : State) : kept (phaseStep id s) = kept s := by
  unfold phaseStep
  dsimp only
  repeat' (first | (simp; done) | split)

@[simp] theorem signHeld_kept (j : Nat) (s : State) : kept (signHeld j s) = kept s := by
  unfold signHeld
  dsimp only
  repeat' (first | (simp; done) | split)

@[simp] theorem checkStop_kept (s : State) : kept (checkStop s) = kept s := by
  unfold checkStop
  (try dsimp only) <;> repeat' (first | (simp; done) | split | (refine (kept_foldl _ _ _ (fun u x => ?_)).trans ?_) | (refine kept_foldl _ _ _ (fun u x => ?_)) | simp)

theorem execRecordUnitComplete_kept (j : Nat) (s : State) : ∀ t, execRecordUnitComplete j s = .next t → kept t = kept s := by
  unfold execRecordUnitComplete
  intro t h
  cases h
  repeat' (first | (simp; done) | split | dsimp only | rfl)

theorem execDurabilityPoint_kept (s : State) : ∀ t, execDurabilityPoint s = .next t → kept t = kept s := by
  unfold execDurabilityPoint
  intro t h
  cases h
  split <;> simp

@[simp] theorem playRead_kept (m : Nat) (ok : Bool) (dst : Nat) (l : List Byte) (s : State) : kept (playRead m ok dst l s) = kept s := by
  unfold playRead
  try dsimp only
  repeat' (first | (simp; done) | split | dsimp only | rfl)

@[simp] theorem recorderStatusMsg_kept  (r : Req) (tok : Bool) (s : State) : kept ((recorderStatusMsg ).act r tok s).2 = kept s := by
  rfl

@[simp] theorem prerollUnits_kept (c : Clip) (s : State) : kept (prerollUnits c s) = kept s := by
  unfold prerollUnits
  try dsimp only
  repeat' (first | (simp; done) | split | dsimp only | rfl)

@[simp] theorem startClip_kept (n : Nat) (start : Tod) (s : State) : kept (startClip n start s) = kept s := by
  unfold startClip
  dsimp only
  repeat' (first | (simp; done) | split)

@[simp] theorem recordStartMsg_kept  (r : Req) (tok : Bool) (s : State) : kept ((recordStartMsg ).act r tok s).2 = kept s := by
  unfold recordStartMsg
  dsimp only
  repeat' (first | (simp; done) | split)

@[simp] theorem recordStopMsg_kept  (r : Req) (tok : Bool) (s : State) : kept ((recordStopMsg ).act r tok s).2 = kept s := by
  unfold recordStopMsg
  dsimp only
  repeat' (first | (simp; done) | split)

@[simp] theorem clipQueryMsg_kept  (r : Req) (tok : Bool) (s : State) : kept ((clipQueryMsg ).act r tok s).2 = kept s := by
  rfl

@[simp] theorem formatVolumeMsg_kept  (r : Req) (tok : Bool) (s : State) : kept ((formatVolumeMsg ).act r tok s).2 = kept s := by
  unfold formatVolumeMsg
  dsimp only
  repeat' (first | (simp; done) | split)

@[simp] theorem deleteClip_kept (n : Nat) (s : State) : kept (deleteClip n s) = kept s := by
  unfold deleteClip
  (try dsimp only) <;> repeat' (first | (simp; done) | split | (refine (kept_foldl _ _ _ (fun u x => ?_)).trans ?_) | (refine kept_foldl _ _ _ (fun u x => ?_)) | simp)

@[simp] theorem deleteClipMsg_kept  (r : Req) (tok : Bool) (s : State) : kept ((deleteClipMsg ).act r tok s).2 = kept s := by
  unfold deleteClipMsg
  dsimp only
  repeat' (first | (simp; done) | split)

@[simp] theorem playbackStartMsg_kept  (r : Req) (tok : Bool) (s : State) : kept ((playbackStartMsg ).act r tok s).2 = kept s := by
  unfold playbackStartMsg
  dsimp only
  repeat' (first | (simp; done) | split)

@[simp] theorem playbackStopMsg_kept  (r : Req) (tok : Bool) (s : State) : kept ((playbackStopMsg ).act r tok s).2 = kept s := by
  unfold playbackStopMsg
  dsimp only
  split <;> simp

@[simp] theorem playbackStatusMsg_kept  (r : Req) (tok : Bool) (s : State) : kept ((playbackStatusMsg ).act r tok s).2 = kept s := by
  rfl

@[simp] theorem writeRing_kept (j : Nat) (p : RecPosition) (s : State) : kept (writeRing j p s) = kept s := by
  unfold writeRing
  refine kept_foldl _ _ _ fun t u => ?_
  repeat' (first | (simp; done) | split | dsimp only)

@[simp] theorem cutClip_kept (n : Nat) (s : State) : kept (cutClip n s) = kept s := by
  unfold cutClip
  split <;> simp

@[simp] theorem readJournal_kept (upTo : Nat) (s : State) : kept (readJournal upTo s) = kept s := by
  unfold readJournal
  try dsimp only
  repeat' (first | (simp; done) | split | dsimp only | rfl)

@[simp] theorem recTakeover_kept (k : StateCopy) (s : State) : kept (recTakeover k s) = kept s := by
  unfold recTakeover
  try dsimp only
  repeat' (first | (simp; done) | (simp [kept_foldl]; done) | split | dsimp only | rfl)

end Sys2Proof.Laws
end

