-- ==== Sys2Proof/Laws/KeepEndpoint.lean ====
section
/-! SUPPORT. What the operations of Machine/Endpoint.lean keep. -/

namespace Sys2Proof.Laws
open Sys2Proof Sys2Proof.Machine

theorem execDoorbellWrite_kept (isCq : Bool) (qid value : Nat) (cmds : List NvmeCmd) (s : State) : ∀ t, execDoorbellWrite isCq qid value cmds s = .next t → kept t = kept s := by
  unfold execDoorbellWrite
  intro t h
  cases h
  repeat' (first | (simp; done) | split)

@[simp] theorem fetchOne_kept (qid : Nat) (s : State) : kept (fetchOne qid s) = kept s := by
  unfold fetchOne
  dsimp only
  repeat' (first | (simp; done) | split)

@[simp] theorem fetchAdmin_kept (n : Nat) (s : State) : kept (fetchAdmin n s) = kept s := by
  induction n generalizing s with
  | zero => rfl
  | succ n ih => simp [fetchAdmin, ih]

theorem execCommandFetch_kept (s : State) : ∀ t, execCommandFetch s = .next t → kept t = kept s := by
  unfold execCommandFetch
  intro t h
  cases h
  (try dsimp only) <;> repeat' (first | (simp; done) | (refine (runAdmin_kept _ _ _ _ (fun c u => ?_))) | (refine (runIo_kept _ _ _ _ (fun c u => ?_))) | split | (refine (kept_foldl _ _ _ (fun u x => ?_)).trans ?_) | (refine kept_foldl _ _ _ (fun u x => ?_)) | simp)

theorem execRangeLockBegin_kept (arrival : Nat) (s : State) : ∀ t, execRangeLockBegin arrival s = .next t → kept t = kept s := by
  unfold execRangeLockBegin
  intro t h
  cases h
  repeat' (first | (simp; done) | split)

theorem runAdmin_kept (opc arrival : Nat) (f : HostCmd → State → (Nat × Nat × List Byte) × State) (s : State)
    (h : ∀ c u, kept (f c u).2 = kept u) : kept (runAdmin opc arrival f s) = kept s := by
  unfold runAdmin
  repeat' (first | (simp [h]; done) | split)

@[simp] theorem stat_kept (st : Nat) (s : State) : kept (stat st s).2 = kept s := by
  rfl

theorem execCreateIoCq_kept (arrival : Nat) (s : State) : ∀ t, execCreateIoCq arrival s = .next t → kept t = kept s := by
  unfold execCreateIoCq
  intro t h
  cases h
  (try dsimp only) <;> repeat' (first | (simp; done) | (refine (runAdmin_kept _ _ _ _ (fun c u => ?_))) | (refine (runIo_kept _ _ _ _ (fun c u => ?_))) | split | (refine (kept_foldl _ _ _ (fun u x => ?_)).trans ?_) | (refine kept_foldl _ _ _ (fun u x => ?_)) | simp)

theorem execCreateIoSq_kept (arrival : Nat) (s : State) : ∀ t, execCreateIoSq arrival s = .next t → kept t = kept s := by
  unfold execCreateIoSq
  intro t h
  cases h
  (try dsimp only) <;> repeat' (first | (simp; done) | (refine (runAdmin_kept _ _ _ _ (fun c u => ?_))) | (refine (runIo_kept _ _ _ _ (fun c u => ?_))) | split | (refine (kept_foldl _ _ _ (fun u x => ?_)).trans ?_) | (refine kept_foldl _ _ _ (fun u x => ?_)) | simp)

theorem execDeleteIoSq_kept (arrival : Nat) (s : State) : ∀ t, execDeleteIoSq arrival s = .next t → kept t = kept s := by
  unfold execDeleteIoSq
  intro t h
  cases h
  (try dsimp only) <;> repeat' (first | (simp; done) | (refine (runAdmin_kept _ _ _ _ (fun c u => ?_))) | (refine (runIo_kept _ _ _ _ (fun c u => ?_))) | split | (refine (kept_foldl _ _ _ (fun u x => ?_)).trans ?_) | (refine kept_foldl _ _ _ (fun u x => ?_)) | simp)

theorem execDeleteIoCq_kept (arrival : Nat) (s : State) : ∀ t, execDeleteIoCq arrival s = .next t → kept t = kept s := by
  unfold execDeleteIoCq
  intro t h
  cases h
  (try dsimp only) <;> repeat' (first | (simp; done) | (refine (runAdmin_kept _ _ _ _ (fun c u => ?_))) | (refine (runIo_kept _ _ _ _ (fun c u => ?_))) | split | (refine (kept_foldl _ _ _ (fun u x => ?_)).trans ?_) | (refine kept_foldl _ _ _ (fun u x => ?_)) | simp)

theorem execIdentify_kept (arrival : Nat) (s : State) : ∀ t, execIdentify arrival s = .next t → kept t = kept s := by
  unfold execIdentify
  intro t h
  cases h
  (try dsimp only) <;> repeat' (first | (simp; done) | (refine (runAdmin_kept _ _ _ _ (fun c u => ?_))) | (refine (runIo_kept _ _ _ _ (fun c u => ?_))) | split | (refine (kept_foldl _ _ _ (fun u x => ?_)).trans ?_) | (refine kept_foldl _ _ _ (fun u x => ?_)) | simp)

theorem execGetLogPage_kept (arrival : Nat) (s : State) : ∀ t, execGetLogPage arrival s = .next t → kept t = kept s := by
  unfold execGetLogPage
  intro t h
  cases h
  (try dsimp only) <;> repeat' (first | (simp; done) | (refine (runAdmin_kept _ _ _ _ (fun c u => ?_))) | (refine (runIo_kept _ _ _ _ (fun c u => ?_))) | split | (refine (kept_foldl _ _ _ (fun u x => ?_)).trans ?_) | (refine kept_foldl _ _ _ (fun u x => ?_)) | simp)

theorem execSetFeatures_kept (arrival : Nat) (s : State) : ∀ t, execSetFeatures arrival s = .next t → kept t = kept s := by
  unfold execSetFeatures
  intro t h
  cases h
  (try dsimp only) <;> repeat' (first | (simp; done) | (refine (runAdmin_kept _ _ _ _ (fun c u => ?_))) | (refine (runIo_kept _ _ _ _ (fun c u => ?_))) | split | (refine (kept_foldl _ _ _ (fun u x => ?_)).trans ?_) | (refine kept_foldl _ _ _ (fun u x => ?_)) | simp)

theorem execGetFeatures_kept (arrival : Nat) (s : State) : ∀ t, execGetFeatures arrival s = .next t → kept t = kept s := by
  unfold execGetFeatures
  intro t h
  cases h
  (try dsimp only) <;> repeat' (first | (simp; done) | (refine (runAdmin_kept _ _ _ _ (fun c u => ?_))) | (refine (runIo_kept _ _ _ _ (fun c u => ?_))) | split | (refine (kept_foldl _ _ _ (fun u x => ?_)).trans ?_) | (refine kept_foldl _ _ _ (fun u x => ?_)) | simp)

theorem execAsynchronousEventRequest_kept (arrival : Nat) (s : State) : ∀ t, execAsynchronousEventRequest arrival s = .next t → kept t = kept s := by
  unfold execAsynchronousEventRequest
  intro t h
  cases h
  repeat' (first | (simp; done) | split)

@[simp] theorem dropQueued_kept (a : Nat) (s : State) : kept (dropQueued a s) = kept s := by
  unfold dropQueued
  try dsimp only
  repeat' (first | (simp; done) | split | dsimp only | rfl)

theorem execAbort_kept (arrival : Nat) (s : State) : ∀ t, execAbort arrival s = .next t → kept t = kept s := by
  unfold execAbort
  intro t h
  cases h
  (try dsimp only) <;> repeat' (first | (simp; done) | (refine (runAdmin_kept _ _ _ _ (fun c u => ?_))) | (refine (runIo_kept _ _ _ _ (fun c u => ?_))) | split | (refine (kept_foldl _ _ _ (fun u x => ?_)).trans ?_) | (refine kept_foldl _ _ _ (fun u x => ?_)) | simp)

@[simp] theorem issueCmd_kept (a n : Nat) (data : List Byte) (s : State) : kept (issueCmd a n data s) = kept s := by
  rfl

theorem runIo_kept (opc arrival : Nat) (f : HostCmd → State → State) (s : State) (h : ∀ c u, kept (f c u) = kept u) :
    kept (runIo opc arrival f s) = kept s := by
  unfold runIo
  repeat' (first | (simp [h]; done) | split)

theorem execRead_kept (arrival : Nat) (s : State) : ∀ t, execRead arrival s = .next t → kept t = kept s := by
  unfold execRead
  intro t h
  cases h
  (try dsimp only) <;> repeat' (first | (simp; done) | (refine (runAdmin_kept _ _ _ _ (fun c u => ?_))) | (refine (runIo_kept _ _ _ _ (fun c u => ?_))) | split | (refine (kept_foldl _ _ _ (fun u x => ?_)).trans ?_) | (refine kept_foldl _ _ _ (fun u x => ?_)) | simp)

@[simp] theorem issueWrite_kept (h : HostCmd) (data : List Byte) (s : State) : kept (issueWrite h data s) = kept s := by
  unfold issueWrite
  (try dsimp only) <;> repeat' (first | (simp; done) | (refine (runAdmin_kept _ _ _ _ (fun c u => ?_))) | (refine (runIo_kept _ _ _ _ (fun c u => ?_))) | split | (refine (kept_foldl _ _ _ (fun u x => ?_)).trans ?_) | (refine kept_foldl _ _ _ (fun u x => ?_)) | simp)

theorem execWrite_kept (arrival : Nat) (data : List Byte) (s : State) : ∀ t, execWrite arrival data s = .next t → kept t = kept s := by
  unfold execWrite
  intro t h
  cases h
  (try dsimp only) <;> repeat' (first | (simp; done) | (refine (runAdmin_kept _ _ _ _ (fun c u => ?_))) | (refine (runIo_kept _ _ _ _ (fun c u => ?_))) | split | (refine (kept_foldl _ _ _ (fun u x => ?_)).trans ?_) | (refine kept_foldl _ _ _ (fun u x => ?_)) | simp)

theorem execWriteZeroes_kept (arrival : Nat) (s : State) : ∀ t, execWriteZeroes arrival s = .next t → kept t = kept s := by
  unfold execWriteZeroes
  intro t h
  cases h
  (try dsimp only) <;> repeat' (first | (simp; done) | (refine (runAdmin_kept _ _ _ _ (fun c u => ?_))) | (refine (runIo_kept _ _ _ _ (fun c u => ?_))) | split | (refine (kept_foldl _ _ _ (fun u x => ?_)).trans ?_) | (refine kept_foldl _ _ _ (fun u x => ?_)) | simp)

theorem execFlush_kept (arrival : Nat) (s : State) : ∀ t, execFlush arrival s = .next t → kept t = kept s := by
  unfold execFlush
  intro t h
  cases h
  (try dsimp only) <;> repeat' (first | (simp; done) | (refine (runAdmin_kept _ _ _ _ (fun c u => ?_))) | (refine (runIo_kept _ _ _ _ (fun c u => ?_))) | split | (refine (kept_foldl _ _ _ (fun u x => ?_)).trans ?_) | (refine kept_foldl _ _ _ (fun u x => ?_)) | simp)

@[simp] theorem shutdownStep_kept (s : State) : kept (shutdownStep s) = kept s := by
  unfold shutdownStep
  (try dsimp only) <;> repeat' (first | (simp; done) | (refine (runAdmin_kept _ _ _ _ (fun c u => ?_))) | (refine (runIo_kept _ _ _ _ (fun c u => ?_))) | split | (refine (kept_foldl _ _ _ (fun u x => ?_)).trans ?_) | (refine kept_foldl _ _ _ (fun u x => ?_)) | simp)

@[simp] theorem hostPiece_kept (a : Nat) (ok read : Bool) (dst : Nat) (bytes : List Byte) (s : State) : kept (hostPiece a ok read dst bytes s) = kept s := by
  unfold hostPiece
  dsimp only
  repeat' (first | (simp; done) | split)

theorem execPcieCompletionTimeout_kept (arrival : Nat) (s : State) : ∀ t, execPcieCompletionTimeout arrival s = .next t → kept t = kept s := by
  unfold execPcieCompletionTimeout
  intro t h
  cases h
  split <;> simp

theorem execDeviceSelfTest_kept (arrival : Nat) (s : State) : ∀ t, execDeviceSelfTest arrival s = .next t → kept t = kept s := by
  unfold execDeviceSelfTest
  intro t h
  cases h
  (try dsimp only) <;> repeat' (first | (simp; done) | (refine (runAdmin_kept _ _ _ _ (fun c u => ?_))) | (refine (runIo_kept _ _ _ _ (fun c u => ?_))) | split | (refine (kept_foldl _ _ _ (fun u x => ?_)).trans ?_) | (refine kept_foldl _ _ _ (fun u x => ?_)) | simp)

@[simp] theorem endTest_kept (t : SelfTest) (result segment : Nat) (s : State) : kept (endTest t result segment s) = kept s := by
  unfold endTest
  try dsimp only
  repeat' (first | (simp; done) | split | dsimp only | rfl)

theorem execSelfTestStep_kept (ok : Bool) (s : State) : ∀ t, execSelfTestStep ok s = .next t → kept t = kept s := by
  unfold execSelfTestStep
  intro t h
  cases h
  repeat' (first | (simp; done) | split | dsimp only | rfl)

@[simp] theorem dropWaiting_kept (s : State) : kept (dropWaiting s) = kept s := by
  unfold dropWaiting
  try dsimp only
  repeat' (first | (simp; done) | split | dsimp only | rfl)

@[simp] theorem resetController_kept (s : State) : kept (resetController s) = kept s := by
  rfl

theorem execControllerEnable_kept (asqSize acqSize : Nat) (s : State) : ∀ t, execControllerEnable asqSize acqSize s = .next t → kept t = kept s := by
  unfold execControllerEnable
  intro t h
  cases h
  split <;> simp

theorem execControllerDisable_kept (s : State) : ∀ t, execControllerDisable s = .next t → kept t = kept s := by
  unfold execControllerDisable
  intro t h
  cases h
  split <;> simp

theorem execPcieLinkLoss_kept (s : State) : ∀ t, execPcieLinkLoss s = .next t → kept t = kept s := by
  unfold execPcieLinkLoss
  intro t h
  cases h
  split <;> simp

theorem execControllerShutdown_kept (s : State) : ∀ t, execControllerShutdown s = .next t → kept t = kept s := by
  unfold execControllerShutdown
  intro t h
  cases h
  split <;> simp

theorem execHostCqTimeout_kept (q : Nat) (s : State) : ∀ t, execHostCqTimeout q s = .next t → kept t = kept s := by
  unfold execHostCqTimeout
  intro t h
  cases h
  repeat' (first | (simp; done) | split)

@[simp] theorem ssdDone_kept (port : Nat) (c : SsdCmd) (ok : Bool) (s : State) : kept (ssdDone port c ok s) = kept s := by
  unfold ssdDone
  repeat' (first | (simp; done) | split)

@[simp] theorem completeSsd_kept (port id : Nat) (ok : Bool) (s : State) : kept (completeSsd port id ok s) = kept s := by
  unfold completeSsd
  repeat' (first | (simp; done) | split)

theorem execSsdCommandCompletion_kept (member id : Nat) (ok : Bool) (s : State) : ∀ t, execSsdCommandCompletion member id ok s = .next t → kept t = kept s := by
  unfold execSsdCommandCompletion
  intro t h
  cases h
  repeat' (first | (simp; done) | split | dsimp only | rfl)

theorem execPlaybackReadComplete_kept (m : Nat) (ok : Bool) (s : State) : ∀ t, execPlaybackReadComplete m ok s = .next t → kept t = kept s := by
  unfold execPlaybackReadComplete
  intro t h
  cases h
  dsimp only
  repeat' (first | (simp; done) | split)

@[simp] theorem setPhase_kept (port ph : Nat) (p : SsdCmd → Bool) (s : State) : kept (setPhase port ph p s) = kept s := by
  rfl

theorem execSsdCommandTimeout_kept (member id : Nat) (s : State) : ∀ t, execSsdCommandTimeout member id s = .next t → kept t = kept s := by
  unfold execSsdCommandTimeout
  intro t h
  cases h
  repeat' (first | (simp; done) | split | dsimp only | rfl)

theorem execSsdAbortExpiry_kept (member id : Nat) (s : State) : ∀ t, execSsdAbortExpiry member id s = .next t → kept t = kept s := by
  unfold execSsdAbortExpiry
  intro t h
  cases h
  split <;> simp

theorem execSsdResetExpiry_kept (member : Nat) (s : State) : ∀ t, execSsdResetExpiry member s = .next t → kept t = kept s := by
  unfold execSsdResetExpiry
  intro t h
  cases h
  (try dsimp only) <;> repeat' (first | (simp; done) | (refine (runAdmin_kept _ _ _ _ (fun c u => ?_))) | (refine (runIo_kept _ _ _ _ (fun c u => ?_))) | split | (refine (kept_foldl _ _ _ (fun u x => ?_)).trans ?_) | (refine kept_foldl _ _ _ (fun u x => ?_)) | simp)

@[simp] theorem endpointStatusMsg_kept  (r : Req) (tok : Bool) (s : State) : kept ((endpointStatusMsg ).act r tok s).2 = kept s := by
  rfl

end Sys2Proof.Laws
end

