-- ==== Sys2Proof/Laws/KeepLoops.lean ====
section
/-! SUPPORT. What the operations of Machine/Loops.lean keep. -/

namespace Sys2Proof.Laws
open Sys2Proof Sys2Proof.Machine

@[simp] theorem sendScript_kept (n : Nat) (sc : Script) (s : State) : kept (sendScript n sc s).2 = kept s := by
  unfold sendScript
  split <;> simp

@[simp] theorem scriptAcked_kept (n : Nat) (s : State) : kept (scriptAcked n s) = kept s := by
  unfold scriptAcked
  try dsimp only
  repeat' (first | (simp; done) | split | dsimp only | rfl)

@[simp] theorem sendRequest_kept (n : Nat) (sc : Script) (s : State) : kept (sendRequest n sc s) = kept s := by
  unfold sendRequest
  try dsimp only
  repeat' (first | (simp; done) | split | dsimp only | rfl)

@[simp] theorem requestTagged_kept (n tag : Nat) (q : Nat × Nat × Nat × Nat) (s : State) : kept (requestTagged n tag q s) = kept s := by
  unfold requestTagged
  try dsimp only
  repeat' (first | (simp; done) | split | dsimp only | rfl)

@[simp] theorem request_kept (n : Nat) (on : Option Nat) (q : Nat × Nat × Nat × Nat) (s : State) : kept (request n on q s) = kept s := by
  unfold request
  try dsimp only
  repeat' (first | (simp; done) | split | dsimp only | rfl)

@[simp] theorem requestChanged_kept (n : Nat) (on : Option Nat) (q : Nat × Nat × Nat × Nat) (s : State) : kept (requestChanged n on q s) = kept s := by
  unfold requestChanged
  try dsimp only
  repeat' (first | (simp; done) | split | dsimp only | rfl)

@[simp] theorem startLoop_kept (n : Nat) (s : State) : kept (startLoop n s) = kept s := by
  unfold startLoop
  dsimp only
  split <;> simp

@[simp] theorem releaseWaiting_kept (n : Nat) (i : Int) (s : State) : kept (releaseWaiting n i s) = kept s := by
  unfold releaseWaiting
  (try dsimp only) <;> repeat' (first | (simp; done) | split | (refine (kept_foldl _ _ _ (fun u x => ?_)).trans ?_) | (refine kept_foldl _ _ _ (fun u x => ?_)) | simp)

@[simp] theorem releaseIfOpen_kept (n : Nat) (s : State) : kept (releaseIfOpen n s) = kept s := by
  unfold releaseIfOpen
  split <;> simp

@[simp] theorem loopTurn_kept (n : Nat) (abandoned : Bool) (s : State) : kept (loopTurn n abandoned s) = kept s := by
  unfold loopTurn
  dsimp only
  repeat' (first | (simp; done) | split)

@[simp] theorem lockBroadcast_kept (n : Nat) (i : Int) (s : State) : kept (lockBroadcast n i s) = kept s := by
  rfl

@[simp] theorem bindScript_kept (n : Nat) (i : Int) (sc : Script) (s : State) : kept (bindScript n i sc s) = kept s := by
  unfold bindScript
  try dsimp only
  repeat' (first | (simp; done) | split | dsimp only | rfl)

@[simp] theorem leaderRequest_kept (n : Nat) (i : Int) (q : Nat × Nat × Nat × Nat) (s : State) : kept (leaderRequest n i q s) = kept s := by
  unfold leaderRequest
  dsimp only
  split <;> simp

@[simp] theorem decide213_kept (n : Nat) (d : StatData) (acc : List Nat) (s : State) : kept (decide213 n d acc s) = kept s := by
  unfold decide213
  dsimp only
  repeat' (first | (simp; done) | split)

@[simp] theorem exposureTake_kept (n : Nat) (d : StatData) (s : State) : kept (exposureTake n d s) = kept s := by
  unfold exposureTake
  dsimp only
  repeat' (first | (simp; done) | split)

@[simp] theorem leaderRepeat_kept (n : Nat) (s : State) : kept (leaderRepeat n s) = kept s := by
  unfold leaderRepeat
  try dsimp only
  repeat' (first | (simp; done) | split | dsimp only | rfl)

@[simp] theorem bodyLate_kept (n num tag : Nat) (s : State) : kept (bodyLate n num tag s) = kept s := by
  unfold bodyLate
  try dsimp only
  repeat' (first | (simp; done) | split | dsimp only | rfl)

@[simp] theorem bodyTurn_kept (n num tag : Nat) (s : State) : kept (bodyTurn n num tag s) = kept s := by
  unfold bodyTurn
  try dsimp only
  repeat' (first | (simp; done) | split | dsimp only | rfl)

@[simp] theorem loopFrame_kept (n num tag : Nat) (s : State) : kept (loopFrame n num tag s) = kept s := by
  unfold loopFrame
  try dsimp only
  repeat' (first | (simp; done) | split | dsimp only | rfl)

@[simp] theorem countStale_kept (n : Nat) (d : StatData) (s : State) : kept (countStale n d s) = kept s := by
  unfold countStale
  try dsimp only
  repeat' (first | (simp; done) | split | dsimp only | rfl)

theorem execExposureDecision_kept (seam : Nat) (s : State) : ∀ t, execExposureDecision seam s = .next t → kept t = kept s := by
  unfold execExposureDecision
  intro t h
  cases h
  repeat' (first | (simp; done) | split | dsimp only | rfl)

@[simp] theorem balanceTake_kept (n : Nat) (d : StatData) (s : State) : kept (balanceTake n d s) = kept s := by
  unfold balanceTake
  repeat' (first | (simp; done) | split)

theorem execWhiteBalanceDecision_kept (seam : Nat) (s : State) : ∀ t, execWhiteBalanceDecision seam s = .next t → kept t = kept s := by
  unfold execWhiteBalanceDecision
  intro t h
  cases h
  repeat' (first | (simp; done) | split)

@[simp] theorem follow_kept (n tag e g r b : Nat) (i : Int) (s : State) : kept (follow n tag e g r b i s) = kept s := by
  unfold follow
  dsimp only
  repeat' (first | (simp; done) | split)

@[simp] theorem followAll_kept (leader pos tag e g r b : Nat) (i : Int) (l : List Nat) (s : State) :
    kept (followAll leader pos tag e g r b i l s) = kept s := by
  induction l generalizing s with
  | nil => rfl
  | cons n ns ih =>
    unfold followAll
    rw [ih]
    split <;> simp

@[simp] theorem lockBroadcastMsg_kept  (r : Req) (tok : Bool) (s : State) : kept ((lockBroadcastMsg ).act r tok s).2 = kept s := by
  simp [lockBroadcastMsg]

theorem execLeaderSilentExpiry_kept (seam : Nat) (s : State) : ∀ t, execLeaderSilentExpiry seam s = .next t → kept t = kept s := by
  unfold execLeaderSilentExpiry
  intro t h
  cases h
  split <;> simp

@[simp] theorem loopStatusMsg_kept (n : Nat) (r : Req) (tok : Bool) (s : State) : kept ((loopStatusMsg n).act r tok s).2 = kept s := by
  rfl

end Sys2Proof.Laws
end

