-- ==== Sys2Proof/Laws/KeepLinks.lean ====
section
/-! SUPPORT. What the operations of Machine/Links.lean keep. -/

namespace Sys2Proof.Laws
open Sys2Proof Sys2Proof.Machine

@[simp] theorem announceAll_kept (g : Nat) (s : State) : kept (announceAll g s) = kept s := by
  unfold announceAll
  (try dsimp only) <;> repeat' (first | (simp; done) | split | (refine (kept_foldl _ _ _ (fun u x => ?_)).trans ?_) | (refine kept_foldl _ _ _ (fun u x => ?_)) | simp)

@[simp] theorem detectGroup_kept (g : Nat) (s : State) : kept (detectGroup g s) = kept s := by
  unfold detectGroup
  dsimp only
  split <;> simp

theorem execLinkBringUp_kept (g : Nat) (s : State) : ∀ t, execLinkBringUp g s = .next t → kept t = kept s := by
  unfold execLinkBringUp
  intro t h
  cases h
  simp

theorem execReceiverDetectionRetry_kept (g : Nat) (s : State) : ∀ t, execReceiverDetectionRetry g s = .next t → kept t = kept s := by
  unfold execReceiverDetectionRetry
  intro t h
  cases h
  simp

@[simp] theorem modTrain_kept (g i : Nat) (f : TrainLane → TrainLane) (s : State) : kept (modTrain g i f s) = kept s := by
  rfl

@[simp] theorem takeRequest_kept (g i n tap dir : Nat) (s : State) : kept (takeRequest g i n tap dir s) = kept s := by
  unfold takeRequest
  dsimp only
  repeat' (first | (simp; done) | split)

@[simp] theorem endTraining_kept (g : Nat) (s : State) : kept (endTraining g s) = kept s := by
  unfold endTraining
  dsimp only
  repeat' (first | (simp; done) | split)

@[simp] theorem sendBlock_kept (g i lane metric : Nat) (s : State) : kept (sendBlock g i lane metric s) = kept s := by
  unfold sendBlock
  try dsimp only
  repeat' (first | (simp; done) | split | dsimp only | rfl)

theorem execTrainingBlock_kept (g lane : Nat) (field : BitVec 48) (inverted : Bool) (metric : Nat) (s : State) : ∀ t, execTrainingBlock g lane field inverted metric s = .next t → kept t = kept s := by
  unfold execTrainingBlock
  intro t h
  cases h
  dsimp only
  repeat' (first | (simp; done) | split)

@[simp] theorem atRate_kept (g r : Nat) (s : State) : kept (atRate g r s) = kept s := by
  simp [atRate]

theorem execTrainingStepTimeout_kept (g : Nat) (s : State) : ∀ t, execTrainingStepTimeout g s = .next t → kept t = kept s := by
  unfold execTrainingStepTimeout
  intro t h
  cases h
  repeat' (first | (simp; done) | split)

@[simp] theorem retrainNow_kept (g : Nat) (s : State) : kept (retrainNow g s) = kept s := by
  simp [retrainNow]

theorem execAlignmentBlock_kept (g lane marker laneIdx width counter : Nat) (s : State) : ∀ t, execAlignmentBlock g lane marker laneIdx width counter s = .next t → kept t = kept s := by
  unfold execAlignmentBlock
  intro t h
  cases h
  dsimp only
  repeat' (first | (simp; done) | split)

@[simp] theorem discardCell_kept (g : Nat) (fec : Bool) (s : State) : kept (discardCell g fec s) = kept s := by
  simp [discardCell]

@[simp] theorem freeCells_kept (g cls n : Nat) (s : State) : kept (freeCells g cls n s) = kept s := by
  rfl

@[simp] theorem nextStep_kept (g : Nat) (s : State) : kept (nextStep g s) = kept s := by
  unfold nextStep
  dsimp only
  split <;> simp

@[simp] theorem activate_kept (g : Nat) (s : State) : kept (activate g s) = kept s := by
  unfold activate
  dsimp only
  repeat' (first | (simp; done) | split)

theorem execCapabilityCell_kept (g : Nat) (bytes : List Byte) (fecOk : Bool) (s : State) : ∀ t, execCapabilityCell g bytes fecOk s = .next t → kept t = kept s := by
  unfold execCapabilityCell
  intro t h
  cases h
  repeat' (first | (simp; done) | split)

theorem execCapabilityRefuseExpiry_kept (g : Nat) (s : State) : ∀ t, execCapabilityRefuseExpiry g s = .next t → kept t = kept s := by
  unfold execCapabilityRefuseExpiry
  intro t h
  cases h
  split <;> simp

theorem execLinkRetrainCommand_kept (g : Nat) (s : State) : ∀ t, execLinkRetrainCommand g s = .next t → kept t = kept s := by
  unfold execLinkRetrainCommand
  intro t h
  cases h
  split <;> simp

theorem execStep_kept (g rate : Nat) (s : State) : ∀ t, execStep g rate s = .next t → kept t = kept s := by
  unfold execStep
  intro t h
  cases h
  repeat' (first | (simp; done) | split)

theorem execStepAck_kept (g : Nat) (s : State) : ∀ t, execStepAck g s = .next t → kept t = kept s := by
  unfold execStepAck
  intro t h
  cases h
  split <;> simp

theorem execStepRefuse_kept (g : Nat) (s : State) : ∀ t, execStepRefuse g s = .next t → kept t = kept s := by
  unfold execStepRefuse
  intro t h
  cases h
  split <;> simp

theorem execRateStepExpiry_kept (g : Nat) (s : State) : ∀ t, execRateStepExpiry g s = .next t → kept t = kept s := by
  unfold execRateStepExpiry
  intro t h
  cases h
  split <;> simp

theorem execUncorrectableLimit_kept (g : Nat) (s : State) : ∀ t, execUncorrectableLimit g s = .next t → kept t = kept s := by
  unfold execUncorrectableLimit
  intro t h
  cases h
  split <;> simp

theorem execElasticFifoOverflow_kept (g : Nat) (s : State) : ∀ t, execElasticFifoOverflow g s = .next t → kept t = kept s := by
  unfold execElasticFifoOverflow
  intro t h
  cases h
  split <;> simp

theorem execStuffingAllowanceExceeded_kept (g : Nat) (s : State) : ∀ t, execStuffingAllowanceExceeded g s = .next t → kept t = kept s := by
  unfold execStuffingAllowanceExceeded
  intro t h
  cases h
  split <;> simp

theorem execLossOfSignal_kept (lane : Nat) (s : State) : ∀ t, execLossOfSignal lane s = .next t → kept t = kept s := by
  unfold execLossOfSignal
  intro t h
  cases h
  dsimp only
  repeat' (first | (simp; done) | split)

theorem execCommonModeFault_kept (lane : Nat) (s : State) : ∀ t, execCommonModeFault lane s = .next t → kept t = kept s := by
  unfold execCommonModeFault
  intro t h
  cases h
  split <;> simp

theorem execLanePllLoss_kept (quad : Nat) (ab : Bool) (s : State) : ∀ t, execLanePllLoss quad ab s = .next t → kept t = kept s := by
  unfold execLanePllLoss
  intro t h
  cases h
  dsimp only
  repeat' (first | (simp; done) | split)

theorem execCellSlot_kept (g : Nat) (s : State) : ∀ t, execCellSlot g s = .next t → kept t = kept s := by
  unfold execCellSlot
  intro t h
  cases h
  repeat' (first | (simp; done) | split)

@[simp] theorem noteAck_kept (g ack : Nat) (s : State) : kept (noteAck g ack s) = kept s := by
  unfold noteAck
  try dsimp only
  repeat' (first | (simp; done) | split | dsimp only | rfl)

theorem execCreditCell_kept (g : Nat) (bytes : List Byte) (fecOk : Bool) (s : State) : ∀ t, execCreditCell g bytes fecOk s = .next t → kept t = kept s := by
  unfold execCreditCell
  intro t h
  cases h
  repeat' (first | (simp; done) | split)

theorem execCreditCellTimer_kept (g : Nat) (s : State) : ∀ t, execCreditCellTimer g s = .next t → kept t = kept s := by
  unfold execCreditCellTimer
  intro t h
  cases h
  split <;> simp

theorem execCreditStarvation_kept (g cls : Nat) (s : State) : ∀ t, execCreditStarvation g cls s = .next t → kept t = kept s := by
  unfold execCreditStarvation
  intro t h
  cases h
  split <;> simp

theorem execControlAckTimeout_kept (g : Nat) (s : State) : ∀ t, execControlAckTimeout g s = .next t → kept t = kept s := by
  unfold execControlAckTimeout
  intro t h
  cases h
  repeat' (first | (simp; done) | split)

theorem execStreamAnnounceTimer_kept (g : Nat) (s : State) : ∀ t, execStreamAnnounceTimer g s = .next t → kept t = kept s := by
  unfold execStreamAnnounceTimer
  intro t h
  cases h
  split <;> simp

@[simp] theorem takeAnnounce_kept (g : Nat) (ws : List Word) (s : State) : kept (takeAnnounce g ws s) = kept s := by
  unfold takeAnnounce
  dsimp only
  repeat' (first | (simp; done) | split)

@[simp] theorem takeScript_kept (ws : List Word) (s : State) : kept (takeScript ws s) = kept s := by
  unfold takeScript
  dsimp only
  split <;> simp

@[simp] theorem dispatchControl_kept (g : Nat) (ws : List Word) (s : State) : kept (dispatchControl g ws s) = kept s := by
  unfold dispatchControl
  dsimp only
  repeat' (first | (simp; done) | split)

theorem execControlMessage_kept (g : Nat) (words : List Word) (s : State) : ∀ t, execControlMessage g words s = .next t → kept t = kept s := by
  unfold execControlMessage
  intro t h
  cases h
  repeat' (first | (simp; done) | (simp [kept_foldl]; done) | split | dsimp only | rfl)

@[simp] theorem writeLines_kept (n : Nat) (ls : List (List Nat)) (s : State) : kept (writeLines n ls s) = kept s := by
  unfold writeLines
  (try dsimp only) <;> repeat' (first | (simp; done) | split | (refine (kept_foldl _ _ _ (fun u x => ?_)).trans ?_) | (refine kept_foldl _ _ _ (fun u x => ?_)) | simp)

@[simp] theorem refuseFrame_kept (g k n : Nat) (byEpoch : Bool) (s : State) : kept (refuseFrame g k n byEpoch s) = kept s := by
  rfl

@[simp] theorem beginLinkFrame_kept (g k : Nat) (payload : List Byte) (s : State) : kept (beginLinkFrame g k payload s) = kept s := by
  unfold beginLinkFrame
  dsimp only
  repeat' (first | (simp; done) | split)

@[simp] theorem drainLines_kept (g k n : Nat) (s : State) : kept (drainLines g k n s) = kept s := by
  simp [drainLines]

@[simp] theorem closeStream_kept (g k : Nat) (s : State) : kept (closeStream g k s) = kept s := by
  unfold closeStream
  try dsimp only
  repeat' (first | (simp; done) | split | dsimp only | rfl)

@[simp] theorem rejectBlock_kept (g k n blk check : Nat) (s : State) : kept (rejectBlock g k n blk check s) = kept s := by
  unfold rejectBlock
  try dsimp only
  repeat' (first | (simp; done) | split | dsimp only | rfl)

@[simp] theorem keepBlock_kept (g k n len : Nat) (p : Plane) (s : State) : kept (keepBlock g k n len p s) = kept s := by
  unfold keepBlock
  try dsimp only
  repeat' (first | (simp; done) | split | dsimp only | rfl)

@[simp] theorem drainBlocks_kept (g k n : Nat) (last : Bool) (fuel : Nat) (s : State) : kept (drainBlocks g k n last fuel s) = kept s := by
  induction fuel generalizing s with
  | zero => rfl
  | succ k ih =>
    unfold drainBlocks
    repeat' (first | rfl | (simp [ih]; done) | split | dsimp only)

@[simp] theorem drainData_kept (g k n : Nat) (last : Bool) (s : State) : kept (drainData g k n last s) = kept s := by
  unfold drainData
  try dsimp only
  repeat' (first | (simp; done) | split | dsimp only | rfl)

@[simp] theorem takeData_kept (g k n : Nat) (payload : List Byte) (last : Bool) (s : State) : kept (takeData g k n payload last s) = kept s := by
  unfold takeData
  dsimp only
  repeat' (first | (simp; done) | split)

@[simp] theorem takePixel_kept (g k seq : Nat) (first last : Bool) (payload : List Byte) (s : State) : kept (takePixel g k seq first last payload s) = kept s := by
  unfold takePixel
  dsimp only
  repeat' (first | (simp; done) | split)

theorem execPixelCell_kept (g : Nat) (bytes : List Byte) (fecOk : Bool) (s : State) : ∀ t, execPixelCell g bytes fecOk s = .next t → kept t = kept s := by
  unfold execPixelCell
  intro t h
  cases h
  repeat' (first | (simp; done) | split)

theorem execTimeCellTimer_kept (g : Nat) (s : State) : ∀ t, execTimeCellTimer g s = .next t → kept t = kept s := by
  unfold execTimeCellTimer
  intro t h
  cases h
  split <;> simp

theorem execTimeCell_kept (g : Nat) (words : List Word) (arrival : Tod) (s : State) : ∀ t, execTimeCell g words arrival s = .next t → kept t = kept s := by
  unfold execTimeCell
  intro t h
  cases h
  dsimp only
  repeat' (first | (simp; done) | split)

@[simp] theorem pushFrame_kept (n : Nat) (f : LinkFrame) (s : State) : kept (pushFrame n f s) = kept s := by
  rfl

@[simp] theorem linkStatusMsg_kept (g : Nat) (r : Req) (tok : Bool) (s : State) : kept ((linkStatusMsg g).act r tok s).2 = kept s := by
  rfl

@[simp] theorem linkRetrainMsg_kept (g : Nat) (r : Req) (tok : Bool) (s : State) : kept ((linkRetrainMsg g).act r tok s).2 = kept s := by
  unfold linkRetrainMsg
  dsimp only
  repeat' (first | (simp; done) | split)

end Sys2Proof.Laws
end

