-- ==== Sys2Proof/Laws/KeepCompressor.lean ====
section
/-! SUPPORT. What the operations of Machine/Compressor.lean keep. -/

namespace Sys2Proof.Laws
open Sys2Proof Sys2Proof.Machine

@[simp] theorem modComp_kept (f : Comp → Comp) (s : State) : kept (modComp f s) = kept s := by
  rfl

@[simp] theorem postJob_kept (j : CompJob) (s : State) : kept (postJob j s) = kept s := by
  rfl

@[simp] theorem noteSource_kept (j : Nat) (b : OutBuf) (s : State) : kept (noteSource j b s).2 = kept s := by
  unfold noteSource
  try dsimp only
  repeat' (first | (simp; done) | (simp [kept_foldl]; done) | split | dsimp only | rfl)

@[simp] theorem takeAdits_kept (a : Nat) (fuel : Nat) (s : State) : kept (takeAdits a fuel s) = kept s := by
  induction fuel generalizing s with
  | zero => rfl
  | succ k ih =>
    unfold takeAdits
    repeat' (first | rfl | (simp [ih]; done) | split | dsimp only)

@[simp] theorem takeAdit_kept (a : Nat) (s : State) : kept (takeAdit a s) = kept s := by
  unfold takeAdit
  try dsimp only
  repeat' (first | (simp; done) | split | dsimp only | rfl)

@[simp] theorem loseLinkFrame_kept (n : Nat) (s : State) : kept (loseLinkFrame n s) = kept s := by
  rfl

@[simp] theorem postLinkJob_kept (n : Nat) (h : FrameHeader) (record : List Byte) (p : Plane) (b : Nat) (s : State) : kept (postLinkJob n h record p b s) = kept s := by
  unfold postLinkJob
  try dsimp only
  repeat' (first | (simp; done) | split | dsimp only | rfl)

@[simp] theorem endJob_kept (status : Nat) (j : CompJob) (s : State) : kept (endJob status j s) = kept s := by
  unfold endJob
  try dsimp only
  repeat' (first | (simp; done) | split | dsimp only | rfl)

@[simp] theorem releaseAdit_kept (a : Nat) (s : State) : kept (releaseAdit a s) = kept s := by
  rfl

@[simp] theorem jobFailed_kept (status : Nat) (j : CompJob) (s : State) : kept (jobFailed status j s) = kept s := by
  unfold jobFailed
  try dsimp only
  repeat' (first | (simp; done) | split | dsimp only | rfl)

theorem execBlockDeal_kept (s : State) : ∀ t, execBlockDeal s = .next t → kept t = kept s := by
  unfold execBlockDeal
  intro t h
  cases h
  repeat' (first | (simp; done) | split)

@[simp] theorem jobDone_kept (j : CompJob) (s : State) : kept (jobDone j s) = kept s := by
  unfold jobDone
  dsimp only
  repeat' (first | (simp; done) | split)

@[simp] theorem jobStopped_kept (j : CompJob) (s : State) : kept (jobStopped j s) = kept s := by
  unfold jobStopped
  dsimp only
  split <;> simp

@[simp] theorem writeReady_kept (n id : Nat) (s : State) : kept (writeReady n id s) = kept s := by
  induction n generalizing s with
  | zero => rfl
  | succ n ih =>
    unfold writeReady
    dsimp only
    repeat' (first | (simp [ih]; done) | split)

@[simp] theorem blockReady_kept (id i : Nat) (b : List Byte) (bySize byMis : Bool) (s : State) : kept (blockReady id i b bySize byMis s) = kept s := by
  unfold blockReady
  dsimp only
  split <;> simp

@[simp] theorem abortJobs_kept (s : State) : kept (abortJobs s) = kept s := by
  unfold abortJobs
  try dsimp only
  repeat' (first | (simp; done) | (simp [kept_foldl]; done) | split | dsimp only | rfl)

@[simp] theorem engineOut_kept (e : Nat) (s : State) : kept (engineOut e s) = kept s := by
  unfold engineOut
  try dsimp only
  repeat' (first | (simp; done) | split | dsimp only | rfl)

theorem execBlockDone_kept (e : Nat) (faults : List (List Nat)) (s : State) : ∀ t, execBlockDone e faults s = .next t → kept t = kept s := by
  unfold execBlockDone
  intro t h
  cases h
  repeat' (first | (simp; done) | split | dsimp only | rfl)

@[simp] theorem compressorStatusMsg_kept  (r : Req) (tok : Bool) (s : State) : kept ((compressorStatusMsg ).act r tok s).2 = kept s := by
  rfl

@[simp] theorem aditCompressionMsg_kept (n : Nat) (r : Req) (tok : Bool) (s : State) : kept ((aditCompressionMsg n).act r tok s).2 = kept s := by
  rfl

end Sys2Proof.Laws
end

