-- ==== Sys2Proof/Laws/KeepViewfinder.lean ====
section
/-! SUPPORT. What the operations of Machine/Viewfinder.lean keep. -/

namespace Sys2Proof.Laws
open Sys2Proof Sys2Proof.Machine

@[simp] theorem modVf_kept (k : Nat) (f : View_ → View_) (s : State) : kept (modVf k f s) = kept s := by
  rfl

@[simp] theorem vfTake_kept (k : Nat) (s : State) : kept (vfTake k s) = kept s := by
  unfold vfTake
  dsimp only
  repeat' (first | (simp; done) | split)

@[simp] theorem vfCommit_kept (k : Nat) (s : State) : kept (vfCommit k s) = kept s := by
  rfl

@[simp] theorem vfUpdate_kept (k : Nat) (gated : Bool) (late : Option VfLate) (s : State) : kept (vfUpdate k gated late s) = kept s := by
  unfold vfUpdate
  try dsimp only
  repeat' (first | (simp; done) | split | dsimp only | rfl)

theorem execTeEdge_kept (k : Nat) (late : Option VfLate) (s : State) : ∀ t, execTeEdge k late s = .next t → kept t = kept s := by
  unfold execTeEdge
  intro t h
  cases h
  repeat' (first | (simp; done) | split | dsimp only | rfl)

theorem execTeAbsentExpiry_kept (k : Nat) (s : State) : ∀ t, execTeAbsentExpiry k s = .next t → kept t = kept s := by
  unfold execTeAbsentExpiry
  intro t h
  cases h
  split <;> simp

theorem execPanelTimer_kept (k : Nat) (late : Option VfLate) (s : State) : ∀ t, execPanelTimer k late s = .next t → kept t = kept s := by
  unfold execPanelTimer
  intro t h
  cases h
  repeat' (first | (simp; done) | split | dsimp only | rfl)

theorem execBlankExpiry_kept (k : Nat) (s : State) : ∀ t, execBlankExpiry k s = .next t → kept t = kept s := by
  unfold execBlankExpiry
  intro t h
  cases h
  split <;> simp

@[simp] theorem dirtyAll_kept (k : Nat) (s : State) : kept (dirtyAll k s) = kept s := by
  rfl

@[simp] theorem viewfinderStatusMsg_kept (k : Nat) (r : Req) (tok : Bool) (s : State) : kept ((viewfinderStatusMsg k).act r tok s).2 = kept s := by
  rfl

@[simp] theorem writeOverlay_kept (k j x y wd ht off : Nat) (s : State) : kept (writeOverlay k j x y wd ht off s) = kept s := by
  rfl

@[simp] theorem overlayWriteMsg_kept (k : Nat) (r : Req) (tok : Bool) (s : State) : kept ((overlayWriteMsg k).act r tok s).2 = kept s := by
  unfold overlayWriteMsg
  dsimp only
  repeat' (first | (simp; done) | split)

@[simp] theorem refreshMsg_kept (k : Nat) (r : Req) (tok : Bool) (s : State) : kept ((refreshMsg k).act r tok s).2 = kept s := by
  unfold refreshMsg
  dsimp only
  split <;> simp

end Sys2Proof.Laws
end

