-- ==== Sys2Proof/Laws/KeepRedundant.lean ====
section
/-! SUPPORT. What the operations of Machine/Redundant.lean keep. -/

namespace Sys2Proof.Laws
open Sys2Proof Sys2Proof.Machine

@[simp] theorem sendHeartbeat_kept (s : State) : kept (sendHeartbeat s) = kept s := by
  unfold sendHeartbeat
  split <;> simp

theorem execHeartbeatTimer_kept (s : State) : ∀ t, execHeartbeatTimer s = .next t → kept t = kept s := by
  unfold execHeartbeatTimer
  intro t h
  cases h
  split <;> simp

@[simp] theorem trigger_kept (s : State) : kept (trigger s) = kept s := by
  unfold trigger
  repeat' (first | (simp; done) | split)

@[simp] theorem beatOfPrimary_kept (eb : Nat) (s : State) : kept (beatOfPrimary eb s) = kept s := by
  unfold beatOfPrimary
  dsimp only
  split <;> simp

theorem execHeartbeat_kept (words : List Word) (s : State) : ∀ t, execHeartbeat words s = .next t → kept t = kept s := by
  unfold execHeartbeat
  intro t h
  cases h
  dsimp only
  repeat' (first | (simp; done) | split)

theorem execHeartbeatTimeout_kept (s : State) : ∀ t, execHeartbeatTimeout s = .next t → kept t = kept s := by
  unfold execHeartbeatTimeout
  intro t h
  cases h
  split <;> simp

theorem execFailing_kept (eb : Nat) (s : State) : ∀ t, execFailing eb s = .next t → kept t = kept s := by
  unfold execFailing
  intro t h
  cases h
  dsimp only
  repeat' (first | (simp; done) | split)

theorem execResync_kept (s : State) (eb : Nat) : ∀ t, execResync s eb = .next t → kept t = kept s := by
  unfold execResync
  intro t h
  cases h
  dsimp only
  repeat' (first | (simp; done) | split)

@[simp] theorem release_kept (s : State) : kept (release s) = kept s := by
  simp [release]

@[simp] theorem sendCopy_kept (seam frame timecode : Nat) (s : State) : kept (sendCopy seam frame timecode s) = kept s := by
  unfold sendCopy
  dsimp only
  repeat' (first | (simp; done) | split)

@[simp] theorem discardCopy_kept (s : State) : kept (discardCopy s) = kept s := by
  unfold discardCopy
  dsimp only
  split <;> simp

@[simp] theorem applyLoops_kept (k : StateCopy) (s : State) : kept (applyLoops k s) = kept s := by
  rfl

@[simp] theorem applyOutputs_kept (k : StateCopy) (s : State) : kept (applyOutputs k s) = kept s := by
  rfl

@[simp] theorem handoverNow_kept (s : State) : kept (handoverNow s) = kept s := by
  unfold handoverNow
  split <;> simp

@[simp] theorem applyCopy_kept (k : StateCopy) (s : State) : kept (applyCopy k s) = kept s := by
  unfold applyCopy
  split <;> simp

theorem execStateCopy_kept (copy : StateCopy) (s : State) : ∀ t, execStateCopy copy s = .next t → kept t = kept s := by
  unfold execStateCopy
  intro t h
  cases h
  dsimp only
  repeat' (first | (simp; done) | split)

theorem execHandover_kept (eb : Nat) (s : State) : ∀ t, execHandover eb s = .next t → kept t = kept s := by
  unfold execHandover
  intro t h
  cases h
  dsimp only
  repeat' (first | (simp; done) | split)

@[simp] theorem adoptTable_kept (k : StateCopy) (s : State) : kept (adoptTable k s) = kept s := by
  rfl

@[simp] theorem startLoops_kept (s : State) : kept (startLoops s) = kept s := by
  unfold startLoops
  (try dsimp only) <;> repeat' (first | (simp; done) | split | (refine (kept_foldl _ _ _ (fun u x => ?_)).trans ?_) | (refine kept_foldl _ _ _ (fun u x => ?_)) | simp)

@[simp] theorem dirtyViews_kept (s : State) : kept (dirtyViews s) = kept s := by
  rfl

@[simp] theorem becomePrimary_kept (s : State) : kept (becomePrimary s) = kept s := by
  unfold becomePrimary
  dsimp only
  repeat' (first | (simp; done) | split)

@[simp] theorem claimRefused_kept (s : State) : kept (claimRefused s) = kept s := by
  unfold claimRefused
  dsimp only
  repeat' (first | (simp; done) | split)

@[simp] theorem claimVerdictMsg_kept  (r : Req) (tok : Bool) (s : State) : kept ((claimVerdictMsg ).act r tok s).2 = kept s := by
  unfold claimVerdictMsg
  dsimp only
  repeat' (first | (simp; done) | split)

theorem execClaimRepeatTimer_kept (s : State) : ∀ t, execClaimRepeatTimer s = .next t → kept t = kept s := by
  unfold execClaimRepeatTimer
  intro t h
  cases h
  split <;> simp

theorem execPrimaryLinkInactiveExpiry_kept (s : State) : ∀ t, execPrimaryLinkInactiveExpiry s = .next t → kept t = kept s := by
  unfold execPrimaryLinkInactiveExpiry
  intro t h
  cases h
  split <;> simp

theorem execStartWaitExpiry_kept (s : State) : ∀ t, execStartWaitExpiry s = .next t → kept t = kept s := by
  unfold execStartWaitExpiry
  intro t h
  cases h
  repeat' (first | (simp; done) | split)

theorem execLinkReactivated_kept (g : Nat) (s : State) : ∀ t, execLinkReactivated g s = .next t → kept t = kept s := by
  unfold execLinkReactivated
  intro t h
  cases h
  split <;> simp

theorem execSwitchOverFallbackExpiry_kept (s : State) : ∀ t, execSwitchOverFallbackExpiry s = .next t → kept t = kept s := by
  unfold execSwitchOverFallbackExpiry
  intro t h
  cases h
  split <;> simp

@[simp] theorem redundancyStatusMsg_kept  (r : Req) (tok : Bool) (s : State) : kept ((redundancyStatusMsg ).act r tok s).2 = kept s := by
  rfl

@[simp] theorem plannedSwitchOverMsg_kept  (r : Req) (tok : Bool) (s : State) : kept ((plannedSwitchOverMsg ).act r tok s).2 = kept s := by
  unfold plannedSwitchOverMsg
  dsimp only
  split <;> simp

@[simp] theorem headPrimaryStatusMsg_kept  (r : Req) (tok : Bool) (s : State) : kept ((headPrimaryStatusMsg ).act r tok s).2 = kept s := by
  rfl

end Sys2Proof.Laws
end

