-- ==== Sys2Proof/Laws/KeepPipeline.lean ====
section
/-! SUPPORT. What the operations of Machine/Pipeline.lean keep. -/

namespace Sys2Proof.Laws
open Sys2Proof Sys2Proof.Machine

@[simp] theorem claimTap_kept (t : Nat) (s : State) : kept (claimTap t s) = kept s := by
  unfold claimTap
  dsimp only
  split <;> simp

@[simp] theorem claimAdit_kept (a : Nat) (s : State) : kept (claimAdit a s) = kept s := by
  unfold claimAdit
  dsimp only
  split <;> simp

@[simp] theorem claimBuffers_kept (n : Nat) (w : Words) (s : State) : kept (claimBuffers n w s) = kept s := by
  unfold claimBuffers
  (try dsimp only) <;> repeat' (first | (simp; done) | split | (refine (kept_foldl _ _ _ (fun u x => ?_)).trans ?_) | (refine kept_foldl _ _ _ (fun u x => ?_)) | simp)

theorem execUnitStart_kept (s : State) : ∀ t, execUnitStart s = .next t → kept t = kept s := by
  unfold execUnitStart
  intro t h
  cases h
  repeat' (first | (simp; done) | split)

@[simp] theorem publishTap_kept (t n : Nat) (f : SeamFrame) (o : RawOut) (s : State) : kept (publishTap t n f o s) = kept s := by
  unfold publishTap
  split <;> simp

@[simp] theorem publishAdit_kept (a n : Nat) (f : SeamFrame) (raw : Plane) (o : RawOut) (s : State) : kept (publishAdit a n f raw o s) = kept s := by
  unfold publishAdit
  split <;> simp

@[simp] theorem publishStats_kept (n : Nat) (f : SeamFrame) (o : RawOut) (s : State) : kept (publishStats n f o s) = kept s := by
  unfold publishStats
  split <;> simp

@[simp] theorem evidenceRead_kept (n num : Nat) (s : State) : kept (evidenceRead n num s) = kept s := by
  unfold evidenceRead
  try dsimp only
  repeat' (first | (simp; done) | split | dsimp only | rfl)

@[simp] theorem offerMeta_kept (n j : Nat) (u : RecUnit) (s : State) : kept (offerMeta n j u s) = kept s := by
  unfold offerMeta
  try dsimp only
  repeat' (first | (simp; done) | split | dsimp only | rfl)

@[simp] theorem metaUnit_kept (n : Nat) (f : SeamFrame) (s : State) : kept (metaUnit n f s) = kept s := by
  unfold metaUnit
  try dsimp only
  repeat' (first | (simp; done) | split | dsimp only | rfl)

@[simp] theorem sendHead_kept (n : Nat) (f : SeamFrame) (o : RawOut) (s : State) : kept (sendHead n f o s) = kept s := by
  unfold sendHead
  split <;> simp

@[simp] theorem checkDeadline_kept (n : Nat) (f : SeamFrame) (s : State) : kept (checkDeadline n f s) = kept s := by
  unfold checkDeadline
  dsimp only
  split <;> simp

@[simp] theorem leaveRing_kept (n num : Nat) (s : State) : kept (leaveRing n num s) = kept s := by
  rfl

@[simp] theorem releaseFrame_kept (n : Nat) (f : SeamFrame) (s : State) : kept (releaseFrame n f s) = kept s := by
  unfold releaseFrame
  dsimp only
  rw [sendCopy_kept, checkDeadline_kept]
  split
  · simp
  · rw [metaUnit_kept, kept_foldl _ _ _ (fun u k => by simp), kept_foldl _ _ _ (fun u k => by simp)]
    simp

theorem execUnitEnd_kept (s : State) : ∀ t, execUnitEnd s = .next t → kept t = kept s := by
  unfold execUnitEnd
  intro t h
  cases h
  dsimp only
  repeat' (first | (simp; done) | split)

@[simp] theorem endLut_kept (t u : Nat) (big : Bool) (end_ crc : Nat) (data : List Byte) (s : State) : kept (endLut t u big end_ crc data s).2 = kept s := by
  unfold endLut
  split <;> simp

@[simp] theorem lutLoadMsg_kept (t : Nat) (r : Req) (tok : Bool) (s : State) : kept ((lutLoadMsg t).act r tok s).2 = kept s := by
  unfold lutLoadMsg
  dsimp only
  repeat' (first | (simp; done) | split)

@[simp] theorem frontEndStatusMsg_kept (n : Nat) (r : Req) (tok : Bool) (s : State) : kept ((frontEndStatusMsg n).act r tok s).2 = kept s := by
  rfl

@[simp] theorem statisticsFetchMsg_kept (n : Nat) (r : Req) (tok : Bool) (s : State) : kept ((statisticsFetchMsg n).act r tok s).2 = kept s := by
  unfold statisticsFetchMsg
  dsimp only
  repeat' (first | (simp; done) | split)

@[simp] theorem tapStatusMsg_kept (t : Nat) (r : Req) (tok : Bool) (s : State) : kept ((tapStatusMsg t).act r tok s).2 = kept s := by
  rfl

@[simp] theorem aditStatusMsg_kept (n : Nat) (r : Req) (tok : Bool) (s : State) : kept ((aditStatusMsg n).act r tok s).2 = kept s := by
  rfl

@[simp] theorem hostRelease_kept (n : Nat) (s : State) : kept (hostRelease n s) = kept s := by
  rfl

@[simp] theorem hostTake_kept (n : Nat) (s : State) : kept (hostTake n s) = kept s := by
  unfold hostTake
  dsimp only
  repeat' (first | (simp; done) | split)

@[simp] theorem aditReadMsg_kept (n : Nat) (r : Req) (tok : Bool) (s : State) : kept ((aditReadMsg n).act r tok s).2 = kept s := by
  unfold aditReadMsg
  dsimp only
  repeat' (first | (simp; done) | split)

theorem execAditHoldExpiry_kept (n : Nat) (s : State) : ∀ t, execAditHoldExpiry n s = .next t → kept t = kept s := by
  unfold execAditHoldExpiry
  intro t h
  cases h
  rfl

end Sys2Proof.Laws
end

