-- ==== Sys2Proof/Laws/KeepDram.lean ====
section
/-! SUPPORT. What the operations of Machine/Dram.lean keep. -/

namespace Sys2Proof.Laws
open Sys2Proof Sys2Proof.Machine

@[simp] theorem modDram_kept (f : Dram → Dram) (s : State) (hm : (f s.dram).mem = s.dram.mem)
    (ha : (f s.dram).alloc = s.dram.alloc) : kept (modDram f s) = kept s := by
  simp only [kept, modDram, hm, ha]

@[simp] theorem modChan18_kept (c : Nat) (f : DramChan → DramChan) (s : State) : kept (modChan18 c f s) = kept s := rfl

@[simp] theorem useCheck_kept (c a : Nat) (write : Bool) (s : State) : kept (useCheck c a write s) = kept s := by
  unfold useCheck
  try dsimp only
  repeat' (first | (simp; done) | split | dsimp only | rfl)

@[simp] theorem noteCorrected_kept (c : Nat) (s : State) : kept (noteCorrected c s) = kept s := by
  unfold noteCorrected
  dsimp only
  repeat' (first | (simp; done) | split)

@[simp] theorem noteUncorrectable_kept (c : Nat) (s : State) : kept (noteUncorrectable c s) = kept s := by
  rfl

@[simp] theorem poisonFrame_kept (n num : Nat) (s : State) : kept (poisonFrame n num s) = kept s := by
  unfold poisonFrame
  repeat' (first | (simp; done) | split)

@[simp] theorem poisonEncode_kept (m : Nat) (s : State) : kept (poisonEncode m s) = kept s := by
  unfold poisonEncode
  split <;> simp

@[simp] theorem poisonDecode_kept (m : Nat) (s : State) : kept (poisonDecode m s) = kept s := by
  unfold poisonDecode
  try dsimp only
  repeat' (first | (simp; done) | split | dsimp only | rfl)

@[simp] theorem poisonOutput_kept (o : OutId) (s : State) : kept (poisonOutput o s) = kept s := by
  simp [poisonOutput]

@[simp] theorem poisonView_kept (k : Nat) (s : State) : kept (poisonView k s) = kept s := by
  rfl

@[simp] theorem poisonAudio_kept (p : Nat) (s : State) : kept (poisonAudio p s) = kept s := by
  rfl

@[simp] theorem poisonStats_kept (n : Nat) (s : State) : kept (poisonStats n s) = kept s := by
  rfl

@[simp] theorem poisonJob_kept (id : Nat) (s : State) : kept (poisonJob id s) = kept s := by
  unfold poisonJob
  split <;> simp

@[simp] theorem poisoned_kept (c : Nat) (client : DramClient) (s : State) : kept (poisoned c client s) = kept s := by
  unfold poisoned
  try dsimp only
  repeat' (first | (simp; done) | (simp [kept_foldl]; done) | split | dsimp only | rfl)

theorem execDramRequest_kept (ch : Nat) (client : DramClient) (addr : Nat) (data : Option (List Byte)) (s t : State)
    (h : execDramRequest ch client addr data s = .next t) : kept t = kept s := by
  unfold execDramRequest at h
  split at h
  · cases h
  · injection h with h
    subst h
    split <;> simp

@[simp] theorem refreshNeighbours_kept (c : Nat) (s : State) : kept (refreshNeighbours c s) = kept s := by
  rfl

@[simp] theorem openRow_kept (c bank row : Nat) (s : State) : kept (openRow c bank row s) = kept s := by
  unfold openRow
  repeat' (first | (simp; done) | split)

theorem execActivateThreshold_kept (ch : Nat) (s : State) : ∀ t, execActivateThreshold ch s = .next t → kept t = kept s := by
  unfold execActivateThreshold
  intro t h
  cases h
  split <;> simp

@[simp] theorem admitStalled_kept (c : Nat) (s : State) : kept (admitStalled c s) = kept s := by
  rfl

@[simp] theorem leaveQueue_kept (c : Nat) (r : DramReq) (s : State) : kept (leaveQueue c r s) = kept s := by
  rfl

theorem execMr4Poll_kept (ch code : Nat) (s : State) : ∀ t, execMr4Poll ch code s = .next t → kept t = kept s := by
  unfold execMr4Poll
  intro t h
  cases h
  repeat' (first | (simp; done) | split)

theorem execRefreshDue_kept (ch : Nat) (s : State) : ∀ t, execRefreshDue ch s = .next t → kept t = kept s := by
  unfold execRefreshDue
  intro t h
  cases h
  dsimp only
  repeat' (first | (simp; done) | split)

theorem execDelayUpdate_kept (ch : Nat) (s : State) : ∀ t, execDelayUpdate ch s = .next t → kept t = kept s := by
  unfold execDelayUpdate
  intro t h
  cases h
  dsimp only
  repeat' (first | (simp; done) | split)

@[simp] theorem trainChan_kept (c : Nat) (s : State) : kept (trainChan c s) = kept s := by
  rfl

@[simp] theorem leaveSelfRefresh_kept (s : State) : kept (leaveSelfRefresh s) = kept s :=
  kept_foldl _ _ _ (fun u c => by dsimp only; split <;> simp)

@[simp] theorem channelStatusMsg_kept (c : Nat) (r : Req) (tok : Bool) (s : State) : kept ((channelStatusMsg c).act r tok s).2 = kept s := by
  rfl

end Sys2Proof.Laws
end

