-- ==== Sys2Proof/Laws/KeepAdmission.lean ====
section
/-! SUPPORT. What the operations of Machine/Admission.lean keep. -/

namespace Sys2Proof.Laws
open Sys2Proof Sys2Proof.Machine

@[simp] theorem logTerms_kept (sev : Nat) (l : List Term) (s : State) : kept (logTerms sev l s) = kept s := by
  unfold logTerms
  (try dsimp only) <;> repeat' (first | (simp; done) | split | (refine (kept_foldl _ _ _ (fun u x => ?_)).trans ?_) | (refine kept_foldl _ _ _ (fun u x => ?_)) | simp)

@[simp] theorem admissionReportMsg_kept  (r : Req) (tok : Bool) (s : State) : kept ((admissionReportMsg ).act r tok s).2 = kept s := by
  unfold admissionReportMsg
  dsimp only
  split <;> simp

end Sys2Proof.Laws
end

