-- ==== Sys2Proof/Laws/KeepMailrows.lean ====
section
/-! SUPPORT. What the operations of Machine/Mailrows.lean keep. -/

namespace Sys2Proof.Laws
open Sys2Proof Sys2Proof.Machine

@[simp] theorem modMbx_kept (f : Mailboxes → Mailboxes) (s : State) : kept (modMbx f s) = kept s := by
  rfl

theorem execReplyHoldExpiry_kept (v : View) (c : Nat) (s : State) : ∀ t, execReplyHoldExpiry v c s = .next t → kept t = kept s := by
  unfold execReplyHoldExpiry
  intro t h
  cases h
  split <;> simp

theorem execTokenSequenceTimeout_kept (c : Nat) (path : Path) (s : State) : ∀ t, execTokenSequenceTimeout c path s = .next t → kept t = kept s := by
  unfold execTokenSequenceTimeout
  intro t h
  cases h
  simp

theorem execBulkWindowHoldExpiry_kept (s : State) : ∀ t, execBulkWindowHoldExpiry s = .next t → kept t = kept s := by
  unfold execBulkWindowHoldExpiry
  intro t h
  cases h
  rfl

theorem execBulkWindowWrite_kept (v : View) (off : Nat) (data : List Byte) (s : State) : ∀ t, execBulkWindowWrite v off data s = .next t → kept t = kept s := by
  unfold execBulkWindowWrite
  intro t h
  cases h
  repeat' (first | (simp; done) | split)

theorem execWakeComplete_kept (recv : Nat) (s : State) : ∀ t, execWakeComplete recv s = .next t → kept t = kept s := by
  unfold execWakeComplete
  intro t h
  cases h
  rfl

@[simp] theorem mailboxStatusMsg_kept  (r : Req) (tok : Bool) (s : State) : kept ((mailboxStatusMsg ).act r tok s).2 = kept s := by
  rfl

@[simp] theorem nonceMsg_kept  (r : Req) (tok : Bool) (s : State) : kept ((nonceMsg ).act r tok s).2 = kept s := by
  rfl

@[simp] theorem bulkClaim_kept (p : Path) (s : State) : kept (bulkClaim p s).2 = kept s := by
  unfold bulkClaim
  repeat' (first | (simp; done) | split)

@[simp] theorem bulkRelease_kept (p : Path) (s : State) : kept (bulkRelease p s).2 = kept s := by
  unfold bulkRelease
  split <;> simp

@[simp] theorem bulkWindowMsg_kept  (r : Req) (tok : Bool) (s : State) : kept ((bulkWindowMsg ).act r tok s).2 = kept s := by
  unfold bulkWindowMsg
  dsimp only
  split <;> simp

@[simp] theorem postFrom_kept (v : View) (c : Nat) (s : State) : kept (postFrom v c s) = kept s := by
  unfold postFrom
  dsimp only
  split <;> simp

theorem execPost_kept (v : View) (c : Nat) (s : State) : ∀ t, execPost v c s = .next t → kept t = kept s := by
  unfold execPost
  intro t h
  cases h
  split <;> simp

@[simp] theorem ackFrom_kept (v : View) (c : Nat) (s : State) : kept (ackFrom v c s) = kept s := by
  unfold ackFrom
  dsimp only
  split <;> simp

theorem execAck_kept (v : View) (c : Nat) (s : State) : ∀ t, execAck v c s = .next t → kept t = kept s := by
  unfold execAck
  intro t h
  cases h
  split <;> simp

theorem execRegisterWrite_kept (v : View) (addr : Nat) (value : Word) (s : State) : ∀ t, execRegisterWrite v addr value s = .next t → kept t = kept s := by
  unfold execRegisterWrite
  intro t h
  cases h
  repeat' (first | (simp; done) | split)

end Sys2Proof.Laws
end

