-- ==== Sys2Proof/Laws/KeepSensor.lean ====
section
/-! SUPPORT. What the operations of Machine/Sensor.lean keep. -/

namespace Sys2Proof.Laws
open Sys2Proof Sys2Proof.Machine

@[simp] theorem logFaults_kept (p m ck : Nat) (s : State) : kept (logFaults p m ck s) = kept s := by
  unfold logFaults
  repeat' (first | rfl | (simp; done) | split | dsimp only)

@[simp] theorem loseClock_kept (p m : Nat) (s : State) : kept (loseClock p m s) = kept s := by
  unfold loseClock
  try dsimp only
  repeat' (first | (simp; done) | split | dsimp only | rfl)

@[simp] theorem directScript_kept (p : Nat) (f : Fld) (e : ScriptEnd) (s : State) : kept (directScript p f e s) = kept s := by
  unfold directScript
  dsimp only
  repeat' (first | rfl | (simp; done) | split)

@[simp] theorem armTrigger_kept (p : Nat) (s : State) : kept (armTrigger p s) = kept s := by
  unfold armTrigger
  try dsimp only
  repeat' (first | (simp; done) | (simp [kept_foldl]; done) | split | dsimp only | rfl)

@[simp] theorem startRetrain_kept (ps : List Nat) (s : State) : kept (startRetrain ps s) = kept s := by
  unfold startRetrain
  (try dsimp only) <;> repeat' (first | (simp; done) | split | (refine (kept_foldl _ _ _ (fun u x => ?_)).trans ?_) | (refine kept_foldl _ _ _ (fun u x => ?_)) | simp)

@[simp] theorem surveyNext_kept (p : Nat) (s : State) : kept (surveyNext p s) = kept s := by
  unfold surveyNext
  dsimp only
  repeat' (first | (simp; done) | split)

@[simp] theorem finishTraining_kept (p : Nat) (obs : TrainObs) (s : State) : kept (finishTraining p obs s) = kept s := by
  unfold finishTraining
  try dsimp only
  repeat' (first | (simp; done) | split | dsimp only | rfl)

@[simp] theorem applyTraining_kept (p : Nat) (obs : TrainObs) (s : State) : kept (applyTraining p obs s) = kept s := by
  rfl

@[simp] theorem trainAgain_kept (p : Nat) (obs : TrainObs) (s : State) : kept (trainAgain p obs s) = kept s := by
  unfold trainAgain
  dsimp only
  split <;> simp

theorem execDeskewUpdate_kept (p : Nat) (s : State) : ∀ t, execDeskewUpdate p s = .next t → kept t = kept s := by
  unfold execDeskewUpdate
  intro t h
  cases h
  split <;> simp

@[simp] theorem applyNewFaults_kept (p : Nat) (s : State) : kept (applyNewFaults p s) = kept s := by
  unfold applyNewFaults
  dsimp only
  repeat' (first | (simp; done) | split)

@[simp] theorem portDrop_kept (p : Nat) (s : State) : kept (portDrop p s) = kept s := by
  unfold portDrop
  dsimp only
  repeat' (first | (simp; done) | split)

@[simp] theorem beginFrame_kept (p n : Nat) (gang : Bool) (s : State) : kept (beginFrame p n gang s) = kept s := by
  unfold beginFrame
  dsimp only
  repeat' (first | (simp; done) | split)

theorem execFrameStart_kept (p : Nat) (skews : List Int) (s : State) : ∀ t, execFrameStart p skews s = .next t → kept t = kept s := by
  unfold execFrameStart
  intro t h
  cases h
  repeat' (first | (simp; done) | (simp [kept_foldl]; done) | split | dsimp only | rfl)

@[simp] theorem syncViolation_kept (p : Nat) (s : State) : kept (syncViolation p s) = kept s := by
  unfold syncViolation
  split <;> simp

@[simp] theorem gangDisagree_kept (p : Nat) (s : State) : kept (gangDisagree p s) = kept s := by
  unfold gangDisagree
  split <;> simp

theorem execLineStart_kept (p gap : Nat) (skews : List Int) (s : State) : ∀ t, execLineStart p gap skews s = .next t → kept t = kept s := by
  unfold execLineStart
  intro t h
  cases h
  dsimp only
  repeat' (first | (simp; done) | split)

@[simp] theorem storeLine_kept (p n : Nat) (px : List Nat) (s : State) : kept (storeLine p n px s) = kept s := by
  unfold storeLine
  dsimp only
  repeat' (first | (simp; done) | split)

theorem execLineEnd_kept (p : Nat) (beats : List (List (Bool × Beat))) (skews : List Int) (faults : List (Nat × PairFault)) (s : State) : ∀ t, execLineEnd p beats skews faults s = .next t → kept t = kept s := by
  unfold execLineEnd
  intro t h
  cases h
  (try dsimp only) <;> repeat' (first | (simp; done) | split | (refine (kept_foldl _ _ _ (fun u x => ?_)).trans ?_) | (refine kept_foldl _ _ _ (fun u x => ?_)) | simp)

theorem execFrameEnd_kept (p gap : Nat) (s : State) : ∀ t, execFrameEnd p gap s = .next t → kept t = kept s := by
  unfold execFrameEnd
  intro t h
  cases h
  dsimp only
  repeat' (first | (simp; done) | split)

theorem execSensorClockLoss_kept (p : Nat) (s : State) : ∀ t, execSensorClockLoss p s = .next t → kept t = kept s := by
  unfold execSensorClockLoss
  intro t h
  cases h
  repeat' (first | (simp; done) | split)

theorem execSensorClockAbsentExpiry_kept (p : Nat) (s : State) : ∀ t, execSensorClockAbsentExpiry p s = .next t → kept t = kept s := by
  unfold execSensorClockAbsentExpiry
  intro t h
  cases h
  split <;> simp

theorem execSensorClockReturn_kept (p : Nat) (s : State) : ∀ t, execSensorClockReturn p s = .next t → kept t = kept s := by
  unfold execSensorClockReturn
  intro t h
  cases h
  repeat' (first | (simp; done) | split)

theorem execBlankingWindowOpen_kept (p : Nat) (s : State) : ∀ t, execBlankingWindowOpen p s = .next t → kept t = kept s := by
  unfold execBlankingWindowOpen
  intro t h
  cases h
  dsimp only
  repeat' (first | (simp; done) | split)

theorem execTrigger_kept (p : Nat) (s : State) : ∀ t, execTrigger p s = .next t → kept t = kept s := by
  unfold execTrigger
  intro t h
  cases h
  dsimp only
  repeat' (first | (simp; done) | split)

theorem execTriggerPulseEnd_kept (p : Nat) (s : State) : ∀ t, execTriggerPulseEnd p s = .next t → kept t = kept s := by
  unfold execTriggerPulseEnd
  intro t h
  cases h
  split <;> simp

@[simp] theorem portStatusMsg_kept (p : Nat) (r : Req) (tok : Bool) (s : State) : kept ((portStatusMsg p).act r tok s).2 = kept s := by
  rfl

@[simp] theorem retrainMsg_kept (p : Nat) (r : Req) (tok : Bool) (s : State) : kept ((retrainMsg p).act r tok s).2 = kept s := by
  simp [retrainMsg]

@[simp] theorem sensorWriteMsg_kept (p : Nat) (r : Req) (tok : Bool) (s : State) : kept ((sensorWriteMsg p).act r tok s).2 = kept s := by
  unfold sensorWriteMsg
  dsimp only
  repeat' (first | (simp; done) | split)

end Sys2Proof.Laws
end

