-- ==== Sys2Proof/Laws/KeepHeadframe.lean ====
section
/-! SUPPORT. What the operations of Machine/Headframe.lean keep. -/

namespace Sys2Proof.Laws
open Sys2Proof Sys2Proof.Machine

@[simp] theorem modHf_kept (f : Headframe → Headframe) (s : State) : kept (modHf f s) = kept s := by
  rfl

@[simp] theorem modPwr_kept (f : Power → Power) (s : State) : kept (modPwr f s) = kept s := by
  rfl

@[simp] theorem logFaulted_kept (old : List TempSensor) (s : State) : kept (logFaulted old s) = kept s := by
  unfold logFaulted
  (try dsimp only) <;> repeat' (first | (simp; done) | split | (refine (kept_foldl _ _ _ (fun u x => ?_)).trans ?_) | (refine kept_foldl _ _ _ (fun u x => ?_)) | simp)

@[simp] theorem thermalRules_kept (s : State) : kept (thermalRules s) = kept s := by
  unfold thermalRules
  dsimp only
  repeat' (first | (simp; done) | split)

@[simp] theorem clockRules_kept (bad : List Nat) (s : State) : kept (clockRules bad s) = kept s := by
  unfold clockRules
  (try dsimp only) <;> repeat' (first | (simp; done) | split | (refine (kept_foldl _ _ _ (fun u x => ?_)).trans ?_) | (refine kept_foldl _ _ _ (fun u x => ?_)) | simp)

theorem execSensorSample_kept (temps : List Int) (rails counts : List Nat) (s : State) : ∀ t, execSensorSample temps rails counts s = .next t → kept t = kept s := by
  unfold execSensorSample
  intro t h
  cases h
  split <;> simp

theorem execCoreWatchdogExpiry_kept (core : Nat) (s : State) : ∀ t, execCoreWatchdogExpiry core s = .next t → kept t = kept s := by
  unfold execCoreWatchdogExpiry
  intro t h
  cases h
  dsimp only
  repeat' (first | (simp; done) | split)

theorem execEventLogProgram_kept (ok : Bool) (s : State) : ∀ t, execEventLogProgram ok s = .next t → kept t = kept s := by
  unfold execEventLogProgram
  intro t h
  cases h
  repeat' (first | (simp; done) | split)

@[simp] theorem eventLogReadMsg_kept  (r : Req) (tok : Bool) (s : State) : kept ((eventLogReadMsg ).act r tok s).2 = kept s := by
  unfold eventLogReadMsg
  dsimp only
  split <;> simp

theorem execBootNvmTimeout_kept (logWrite : Bool) (s : State) : ∀ t, execBootNvmTimeout logWrite s = .next t → kept t = kept s := by
  unfold execBootNvmTimeout
  intro t h
  cases h
  repeat' (first | (simp; done) | split)

theorem execI2cBusStuck_kept (stillLow : Bool) (s : State) : ∀ t, execI2cBusStuck stillLow s = .next t → kept t = kept s := by
  unfold execI2cBusStuck
  intro t h
  cases h
  repeat' (first | (simp; done) | split)

theorem execPmbusPoll_kept (reading : Option Word) (s : State) : ∀ t, execPmbusPoll reading s = .next t → kept t = kept s := by
  unfold execPmbusPoll
  intro t h
  cases h
  repeat' (first | (simp; done) | split)

@[simp] theorem modUpd_kept (f : Update → Update) (s : State) : kept (modUpd f s) = kept s := by
  rfl

@[simp] theorem updateBeginMsg_kept  (r : Req) (tok : Bool) (s : State) : kept ((updateBeginMsg ).act r tok s).2 = kept s := by
  unfold updateBeginMsg
  dsimp only
  split <;> simp

@[simp] theorem updateDataMsg_kept  (r : Req) (tok : Bool) (s : State) : kept ((updateDataMsg ).act r tok s).2 = kept s := by
  unfold updateDataMsg
  dsimp only
  repeat' (first | (simp; done) | split)

@[simp] theorem updateCommitMsg_kept  (r : Req) (tok : Bool) (s : State) : kept ((updateCommitMsg ).act r tok s).2 = kept s := by
  unfold updateCommitMsg
  dsimp only
  repeat' (first | (simp; done) | split)

@[simp] theorem updateStatusMsg_kept  (r : Req) (tok : Bool) (s : State) : kept ((updateStatusMsg ).act r tok s).2 = kept s := by
  rfl

@[simp] theorem updateAbortMsg_kept  (r : Req) (tok : Bool) (s : State) : kept ((updateAbortMsg ).act r tok s).2 = kept s := by
  unfold updateAbortMsg
  dsimp only
  split <;> simp

theorem execUpdateSessionTimeout_kept (s : State) : ∀ t, execUpdateSessionTimeout s = .next t → kept t = kept s := by
  unfold execUpdateSessionTimeout
  intro t h
  cases h
  split <;> simp

@[simp] theorem writeUser_kept (sets : List CalSet) (s : State) : kept (writeUser sets s) = kept s := by
  rfl

@[simp] theorem surveyRunMsg_kept  (r : Req) (tok : Bool) (s : State) : kept ((surveyRunMsg ).act r tok s).2 = kept s := by
  unfold surveyRunMsg
  dsimp only
  repeat' (first | (simp; done) | split)

@[simp] theorem restoreFactoryMsg_kept  (r : Req) (tok : Bool) (s : State) : kept ((restoreFactoryMsg ).act r tok s).2 = kept s := by
  unfold restoreFactoryMsg
  dsimp only
  split <;> simp

@[simp] theorem surveyStatusMsg_kept  (r : Req) (tok : Bool) (s : State) : kept ((surveyStatusMsg ).act r tok s).2 = kept s := by
  rfl

end Sys2Proof.Laws
end

