-- ==== Sys2Proof/Laws/KeepSecurity.lean ====
section
/-! SUPPORT. What the operations of Machine/Security.lean keep. -/

namespace Sys2Proof.Laws
open Sys2Proof Sys2Proof.Machine

@[simp] theorem attestationMsg_kept  (r : Req) (tok : Bool) (s : State) : kept ((attestationMsg ).act r tok s).2 = kept s := by
  unfold attestationMsg
  dsimp only
  split <;> simp

@[simp] theorem certificateMsg_kept  (r : Req) (tok : Bool) (s : State) : kept ((certificateMsg ).act r tok s).2 = kept s := by
  unfold certificateMsg
  dsimp only
  split <;> simp

end Sys2Proof.Laws
end

