-- ==== Sys2Proof/Laws/KeepErrors.lean ====
section
/-! SUPPORT. What the operations of Machine/Errors.lean keep. -/

namespace Sys2Proof.Laws
open Sys2Proof Sys2Proof.Machine

@[simp] theorem hwEffect_kept (code inst : Nat) (ds : List Nat) (s : State) : kept (hwEffect code inst ds s) = kept s := by
  unfold hwEffect
  simp only [apply_ite kept, recHalt_kept, stopClip_kept, engineOut_kept, dropReceiving_kept, countRingDrop_kept, portDrop_kept,
    modPort_kept, modLane_kept, modGroup_kept, retrainFrom_kept, ite_self]

theorem execErrorDetected_kept (code inst : Nat) (details : List Word) (s : State) : ∀ t, execErrorDetected code inst details s = .next t → kept t = kept s := by
  unfold execErrorDetected
  intro t h
  cases h
  dsimp only
  repeat' (first | (simp; done) | split)

@[simp] theorem quietAll_kept (s : State) : kept (quietAll s) = kept s := by
  unfold quietAll
  dsimp only
  rw [resetController_kept, modEp_kept, kept_mk, kept_eta, kept_foldl _ _ _ (fun u g => by simp)]

@[simp] theorem dropFrames_kept (s : State) : kept (dropFrames s) = kept s := by
  unfold dropFrames
  (try dsimp only) <;> repeat' (first | (simp; done) | split | (refine (kept_foldl _ _ _ (fun u x => ?_)).trans ?_) | (refine kept_foldl _ _ _ (fun u x => ?_)) | simp)

@[simp] theorem stopRecorder_kept (code : Nat) (s : State) : kept (stopRecorder code s) = kept s := by
  unfold stopRecorder
  repeat' (first | (simp; done) | split)

@[simp] theorem fatalStep_kept (code steps : Nat) (s : State) : kept (fatalStep code steps s) = kept s := by
  unfold fatalStep
  repeat' (first | (simp; done) | split)

@[simp] theorem modErr_kept (f : ErrorQueue → ErrorQueue) (s : State) : kept (modErr f s) = kept s := by
  rfl

@[simp] theorem errorQueueStatusMsg_kept  (r : Req) (tok : Bool) (s : State) : kept ((errorQueueStatusMsg ).act r tok s).2 = kept s := by
  unfold errorQueueStatusMsg
  dsimp only
  split <;> simp

end Sys2Proof.Laws
end

