-- ==== Sys2Proof/Laws/KeepStartup.lean ====
section
/-! SUPPORT. What the operations of Machine/Startup.lean keep. -/

namespace Sys2Proof.Laws
open Sys2Proof Sys2Proof.Machine

@[simp] theorem logAll_kept (sev : Nat) (l : List (Nat × Nat × List Nat)) (s : State) : kept (logAll sev l s) = kept s := by
  unfold logAll
  (try dsimp only) <;> repeat' (first | (simp; done) | split | (refine (kept_foldl _ _ _ (fun u x => ?_)).trans ?_) | (refine kept_foldl _ _ _ (fun u x => ?_)) | simp)

@[simp] theorem noteShort_kept (o : Option Nat) (s : State) : kept (noteShort o s) = kept s := by
  unfold noteShort
  (try dsimp only) <;> repeat' (first | (simp; done) | split | (refine (kept_foldl _ _ _ (fun u x => ?_)).trans ?_) | (refine kept_foldl _ _ _ (fun u x => ?_)) | simp)

@[simp] theorem noteDiffers_kept (o : Option Nat) (s : State) : kept (noteDiffers o s) = kept s := by
  unfold noteDiffers
  (try dsimp only) <;> repeat' (first | (simp; done) | split | (refine (kept_foldl _ _ _ (fun u x => ?_)).trans ?_) | (refine kept_foldl _ _ _ (fun u x => ?_)) | simp)

end Sys2Proof.Laws
end

