-- ==== Sys2Proof/Laws/KeepDevicemsgs.lean ====
section
/-! SUPPORT. What the operations of Machine/Devicemsgs.lean keep. -/

namespace Sys2Proof.Laws
open Sys2Proof Sys2Proof.Machine

@[simp] theorem refuseLogged_kept (cls : Nat) (l : List (Nat × Nat × List Nat)) (s : State) : kept (refuseLogged cls l s).2 = kept s := by
  simp [refuseLogged]

@[simp] theorem settingsReadMsg_kept  (r : Req) (tok : Bool) (s : State) : kept ((settingsReadMsg ).act r tok s).2 = kept s := by
  rfl

@[simp] theorem deviceStatusMsg_kept  (r : Req) (tok : Bool) (s : State) : kept ((deviceStatusMsg ).act r tok s).2 = kept s := by
  rfl

end Sys2Proof.Laws
end

