-- ==== Sys2Proof/Laws/KeepRolestart.lean ====
section
/-! SUPPORT. What the operations of Machine/Rolestart.lean keep. -/

namespace Sys2Proof.Laws
open Sys2Proof Sys2Proof.Machine

@[simp] theorem viewsAtStart_kept (s : State) : kept (viewsAtStart s) = kept s := by
  unfold viewsAtStart
  (try dsimp only) <;> repeat' (first | (simp; done) | split | (refine (kept_foldl _ _ _ (fun u x => ?_)).trans ?_) | (refine kept_foldl _ _ _ (fun u x => ?_)) | simp)

@[simp] theorem audioAtStart_kept (s : State) : kept (audioAtStart s) = kept s := by
  unfold audioAtStart
  (try dsimp only) <;> repeat' (first | (simp; done) | split | (refine (kept_foldl _ _ _ (fun u x => ?_)).trans ?_) | (refine kept_foldl _ _ _ (fun u x => ?_)) | simp)

@[simp] theorem loopsAtStart_kept (s : State) : kept (loopsAtStart s) = kept s := by
  unfold loopsAtStart
  (try dsimp only) <;> repeat' (first | (simp; done) | split | (refine (kept_foldl _ _ _ (fun u x => ?_)).trans ?_) | (refine kept_foldl _ _ _ (fun u x => ?_)) | simp)

@[simp] theorem readingsAtStart_kept (s : State) : kept (readingsAtStart s) = kept s := by
  rfl

@[simp] theorem staleNonces_kept (s : State) : kept (staleNonces s) = kept s := by
  unfold staleNonces
  try dsimp only
  repeat' (first | (simp; done) | split | dsimp only | rfl)

end Sys2Proof.Laws
end

