-- ==== Sys2Proof/Laws/KeepPower.lean ====
section
/-! SUPPORT. What the operations of Machine/Power.lean keep. -/

namespace Sys2Proof.Laws
open Sys2Proof Sys2Proof.Machine

@[simp] theorem powerStatusMsg_kept  (r : Req) (tok : Bool) (s : State) : kept ((powerStatusMsg ).act r tok s).2 = kept s := by
  rfl

@[simp] theorem beginSuspend_kept (s : State) : kept (beginSuspend s) = kept s := by
  unfold beginSuspend
  dsimp only
  rw [modOuts_kept, kept_foldl _ _ _ (fun u g => by split <;> simp), modPwr_kept]

@[simp] theorem haltBlocks_kept (s : State) : kept (haltBlocks s) = kept s := by
  rfl

@[simp] theorem keepLanes_kept (s : State) : kept (keepLanes s) = kept s := by
  unfold keepLanes
  dsimp only
  rw [kept_mk, kept_eta, kept_foldl _ _ _ (fun u g => by simp)]

@[simp] theorem unmount_kept (s : State) : kept (unmount s) = kept s := by
  simp [unmount]

@[simp] theorem resumePorts_kept (s : State) : kept (resumePorts s) = kept s := by
  rfl

@[simp] theorem resumeLanes_kept (s : State) : kept (resumeLanes s) = kept s := by
  rfl

@[simp] theorem resumeLoops_kept (s : State) : kept (resumeLoops s) = kept s := by
  rfl

@[simp] theorem resume_kept (s : State) : kept (resume s) = kept s := by
  simp [resume]

@[simp] theorem powerStateMsg_kept  (r : Req) (tok : Bool) (s : State) : kept ((powerStateMsg ).act r tok s).2 = kept s := by
  unfold powerStateMsg
  dsimp only
  repeat' (first | (simp; done) | split)

@[simp] theorem linkTrained_kept (k width : Nat) (s : State) : kept (linkTrained k width s) = kept s := by
  have h : ∀ (l : List Nat), kept (l.foldl (fun u n => if laneOn n u then modLane n (fun x => { x with state := 2 }) u else u) s)
      = kept s := fun l => kept_foldl _ _ _ (fun u n => by split <;> simp)
  unfold linkTrained
  dsimp only
  split
  · split
    · rw [laneErr_kept, h]
    · exact h _
  · exact h _

theorem execPcieLinkUp_kept (port : Option Nat) (width : Nat) (s : State) : ∀ t, execPcieLinkUp port width s = .next t → kept t = kept s := by
  unfold execPcieLinkUp
  intro t h
  cases h
  repeat' (first | (simp; done) | split)

end Sys2Proof.Laws
end

