-- ==== Sys2Proof/Laws/KeepRelay.lean ====
section
/-! SUPPORT. What the operations of Machine/Relay.lean keep. -/

namespace Sys2Proof.Laws
open Sys2Proof Sys2Proof.Machine

@[simp] theorem refuseUdp_kept (p : Path) (c : Nat) (ws : List Word) (s : State) : kept (refuseUdp p c ws s) = kept s := by
  simp [refuseUdp]

theorem execMailboxDatagram_kept (mac ip port c : Nat) (words : List Word) (s : State) : ∀ t, execMailboxDatagram mac ip port c words s = .next t → kept t = kept s := by
  unfold execMailboxDatagram
  intro t h
  cases h
  repeat' (first | (simp; done) | split)

end Sys2Proof.Laws
end

