-- ==== Sys2Proof/Laws/KeepRows.lean ====
section
/-! SUPPORT. What the mailbox messages and the rows that run them keep. -/

namespace Sys2Proof.Laws
open Sys2Proof Sys2Proof.Machine

/-- The messages that write the settings, the OTP or the island's non-volatile memory, or restart the device. -/
def writers : List Nat := [0x0102, 0x0103, 0x0104, 0x0F03, 0x0F08, 0x1602, 0x1603, 0x1604]

/-- The effect of a message keeps. -/
def ActKept (x : MsgDef) : Prop := ∀ r tok u, kept (x.act r tok u).2 = kept u

theorem fam_kept {n k : Nat} {f : Nat → MsgDef} (h : ∀ i, ActKept (f i)) {x : MsgDef} (hx : fam n k f = some x) :
    ActKept x := by
  unfold fam at hx
  split at hx
  · cases hx; exact h _
  · cases hx

theorem msgs01_kept {c : Nat} {x : MsgDef} (h : msgs01 c = some x) (hc : c ∉ writers) : ActKept x := by
  unfold msgs01 at h
  repeat' split at h
  · cases h; exact fun r tok u => deviceStatusMsg_kept r tok u
  · next e => exact absurd (by rw [e]; decide) hc
  · next e => exact absurd (by rw [e]; decide) hc
  · next e => exact absurd (by rw [e]; decide) hc
  · cases h; exact fun r tok u => settingsReadMsg_kept r tok u
  · cases h; exact fun r tok u => admissionReportMsg_kept r tok u
  · cases h

theorem msgs02_kept {c : Nat} {x : MsgDef} (h : msgs02 c = some x) : ActKept x := by
  unfold msgs02 at h
  repeat' split at h
  · exact fam_kept (fun i r tok u => portStatusMsg_kept i r tok u) h
  · exact fam_kept (fun i r tok u => retrainMsg_kept i r tok u) h
  · exact fam_kept (fun i r tok u => sensorWriteMsg_kept i r tok u) h
  · cases h

theorem msgs03_kept {c : Nat} {x : MsgDef} (h : msgs03 c = some x) : ActKept x := by
  unfold msgs03 at h
  repeat' split at h
  · exact fam_kept (fun i r tok u => seamStatusMsg_kept i r tok u) h
  · cases h

theorem msgs04_kept {c : Nat} {x : MsgDef} (h : msgs04 c = some x) : ActKept x := by
  unfold msgs04 at h
  repeat' split at h
  · cases h; exact fun r tok u => frontEndStatusMsg_kept _ r tok u
  · cases h; exact fun r tok u => aditStatusMsg_kept _ r tok u
  · cases h; exact fun r tok u => aditReadMsg_kept _ r tok u
  · cases h

theorem msgs05_kept {c : Nat} {x : MsgDef} (h : msgs05 c = some x) : ActKept x := by
  unfold msgs05 at h
  repeat' split at h
  · exact fam_kept (fun i r tok u => tapStatusMsg_kept i r tok u) h
  · exact fam_kept (fun i r tok u => lutLoadMsg_kept i r tok u) h
  · cases h

theorem msgs06_kept {c : Nat} {x : MsgDef} (h : msgs06 c = some x) : ActKept x := by
  unfold msgs06 at h
  repeat' split at h
  · cases h; exact fun r tok u => statisticsFetchMsg_kept _ r tok u
  · cases h; exact fun r tok u => loopStatusMsg_kept _ r tok u
  · cases h; exact fun r tok u => lockBroadcastMsg_kept r tok u
  · cases h

theorem msgs07_kept {c : Nat} {x : MsgDef} (h : msgs07 c = some x) : ActKept x := by
  unfold msgs07 at h
  repeat' split at h
  · cases h; exact fun r tok u => compressorStatusMsg_kept r tok u
  · cases h; exact fun r tok u => aditCompressionMsg_kept _ r tok u
  · cases h

theorem msgs08_kept {c : Nat} {x : MsgDef} (h : msgs08 c = some x) : ActKept x := by
  unfold msgs08 at h
  repeat' split at h
  · cases h; exact fun r tok u => streamStatusMsg_kept _ r tok u
  · cases h; exact fun r tok u => bitstreamReadMsg_kept _ r tok u
  · cases h; exact fun r tok u => bitstreamWriteMsg_kept _ r tok u
  · cases h; exact fun r tok u => forceIdrMsg_kept _ r tok u
  · cases h; exact fun r tok u => decoderFlushMsg_kept _ r tok u
  · cases h

theorem msgs09_kept {c : Nat} {x : MsgDef} (h : msgs09 c = some x) : ActKept x := by
  unfold msgs09 at h
  repeat' split at h
  · cases h; exact fun r tok u => recorderStatusMsg_kept r tok u
  · cases h; exact fun r tok u => recordStartMsg_kept r tok u
  · cases h; exact fun r tok u => recordStopMsg_kept r tok u
  · cases h; exact fun r tok u => clipQueryMsg_kept r tok u
  · cases h; exact fun r tok u => formatVolumeMsg_kept r tok u
  · cases h; exact fun r tok u => deleteClipMsg_kept r tok u
  · cases h; exact fun r tok u => playbackStartMsg_kept r tok u
  · cases h; exact fun r tok u => playbackStopMsg_kept r tok u
  · cases h; exact fun r tok u => playbackStatusMsg_kept r tok u
  · cases h

theorem msgs0A_kept {c : Nat} {x : MsgDef} (h : msgs0A c = some x) : ActKept x := by
  unfold msgs0A at h
  repeat' split at h
  · cases h; exact fun r tok u => endpointStatusMsg_kept r tok u
  · cases h

theorem msgs0B_kept {c : Nat} {x : MsgDef} (h : msgs0B c = some x) : ActKept x := by
  unfold msgs0B at h
  repeat' split at h
  · cases h; exact fun r tok u => laneMsg_kept _ r tok u
  · cases h

theorem msgs0C_kept {c : Nat} {x : MsgDef} (h : msgs0C c = some x) : ActKept x := by
  unfold msgs0C at h
  repeat' split at h
  · exact fam_kept (fun i r tok u => linkStatusMsg_kept i r tok u) h
  · exact fam_kept (fun i r tok u => linkRetrainMsg_kept i r tok u) h
  · cases h

theorem msgs0D_kept {c : Nat} {x : MsgDef} (h : msgs0D c = some x) : ActKept x := by
  unfold msgs0D at h
  repeat' split at h
  · cases h; exact fun r tok u => sdiStatusMsg_kept _ r tok u
  · cases h; exact fun r tok u => macStatusMsg_kept _ r tok u
  · cases h; exact fun r tok u => senderStatusMsg_kept _ r tok u
  · cases h

theorem msgs0E_kept {c : Nat} {x : MsgDef} (h : msgs0E c = some x) : ActKept x := by
  unfold msgs0E at h
  repeat' split at h
  · cases h; exact fun r tok u => timeStatusMsg_kept r tok u
  · cases h; exact fun r tok u => ptpPortStatusMsg_kept _ r tok u
  · cases h; exact fun r tok u => arrayLockMsg_kept r tok u
  · cases h; exact fun r tok u => arrayUnlockMsg_kept r tok u
  · cases h; exact fun r tok u => scheduleMsg_kept r tok u
  · cases h; exact fun r tok u => cancelMsg_kept r tok u
  · cases h

theorem msgs0F_kept {c : Nat} {x : MsgDef} (h : msgs0F c = some x) (hc : c ∉ writers) : ActKept x := by
  unfold msgs0F at h
  repeat' split at h
  · cases h; exact fun r tok u => islandStatusMsg_kept r tok u
  · cases h; exact fun r tok u => recordReadMsg_kept r tok u
  · cases h; exact fun r tok u => islandCertMsg_kept r tok u
  · next e => exact absurd (by rw [e]; decide) hc
  · cases h; exact fun r tok u => signNowMsg_kept r tok u
  · next e => exact absurd (by rw [e]; decide) hc
  · cases h

theorem msgs10_kept {c : Nat} {x : MsgDef} (h : msgs10 c = some x) : ActKept x := by
  unfold msgs10 at h
  repeat' split at h
  · cases h; exact fun r tok u => redundancyStatusMsg_kept r tok u
  · cases h; exact fun r tok u => plannedSwitchOverMsg_kept r tok u
  · cases h; exact fun r tok u => headPrimaryStatusMsg_kept r tok u
  · cases h; exact fun r tok u => claimVerdictMsg_kept r tok u
  · cases h

theorem msgs11_kept {c : Nat} {x : MsgDef} (h : msgs11 c = some x) : ActKept x := by
  unfold msgs11 at h
  repeat' split at h
  · cases h; exact fun r tok u => viewfinderStatusMsg_kept _ r tok u
  · cases h; exact fun r tok u => overlayWriteMsg_kept _ r tok u
  · cases h; exact fun r tok u => refreshMsg_kept _ r tok u
  · cases h

theorem msgs12_kept {c : Nat} {x : MsgDef} (h : msgs12 c = some x) : ActKept x := by
  unfold msgs12 at h
  repeat' split at h
  · cases h; exact fun r tok u => audioStatusMsg_kept _ r tok u
  · cases h; exact fun r tok u => startStopMsg_kept _ r tok u
  · cases h; exact fun r tok u => blockWriteMsg_kept _ r tok u
  · cases h

theorem msgs13_kept {c : Nat} {x : MsgDef} (h : msgs13 c = some x) : ActKept x := by
  unfold msgs13 at h
  repeat' split at h
  · cases h; exact fun r tok u => channelStatusMsg_kept _ r tok u
  · cases h

theorem msgs14_kept {c : Nat} {x : MsgDef} (h : msgs14 c = some x) : ActKept x := by
  unfold msgs14 at h
  repeat' split at h
  · cases h; exact fun r tok u => mailboxStatusMsg_kept r tok u
  · cases h; exact fun r tok u => nonceMsg_kept r tok u
  · cases h; exact fun r tok u => bulkWindowMsg_kept r tok u
  · cases h

theorem msgs15_kept {c : Nat} {x : MsgDef} (h : msgs15 c = some x) : ActKept x := by
  unfold msgs15 at h
  repeat' split at h
  · cases h; exact fun r tok u => eventLogReadMsg_kept r tok u
  · cases h; exact fun r tok u => errorQueueStatusMsg_kept r tok u
  · cases h; exact fun r tok u => surveyRunMsg_kept r tok u
  · cases h; exact fun r tok u => restoreFactoryMsg_kept r tok u
  · cases h; exact fun r tok u => surveyStatusMsg_kept r tok u
  · cases h; exact fun r tok u => updateBeginMsg_kept r tok u
  · cases h; exact fun r tok u => updateDataMsg_kept r tok u
  · cases h; exact fun r tok u => updateCommitMsg_kept r tok u
  · cases h; exact fun r tok u => updateStatusMsg_kept r tok u
  · cases h; exact fun r tok u => updateAbortMsg_kept r tok u
  · cases h

theorem msgs16_kept {c : Nat} {x : MsgDef} (h : msgs16 c = some x) (hc : c ∉ writers) : ActKept x := by
  unfold msgs16 at h
  repeat' split at h
  · cases h; exact fun r tok u => attestationMsg_kept r tok u
  · cases h; exact fun r tok u => certificateMsg_kept r tok u
  · next e => exact absurd (by rw [e]; decide) hc
  · next e => exact absurd (by rw [e]; decide) hc
  · next e => exact absurd (by rw [e]; decide) hc
  · cases h

theorem msgs17_kept {c : Nat} {x : MsgDef} (h : msgs17 c = some x) : ActKept x := by
  unfold msgs17 at h
  repeat' split at h
  · cases h; exact fun r tok u => powerStatusMsg_kept r tok u
  · cases h; exact fun r tok u => powerStateMsg_kept r tok u
  · cases h

/-- Every message of the index but the writers keeps. -/
theorem msgDef_kept {c : Nat} {x : MsgDef} (h : msgDef c = some x) (hc : c ∉ writers) : ActKept x := by
  have image : ∀ k ∈ [msgs01, msgs0F, msgs16], k c = some x → ActKept x := by
    simp only [List.forall_mem_cons, List.not_mem_nil, false_imp_iff, implies_true, and_true]
    exact ⟨(msgs01_kept · hc), (msgs0F_kept · hc), (msgs16_kept · hc)⟩
  have low : ∀ k ∈ [msgs02, msgs03, msgs04, msgs05, msgs06, msgs07, msgs08, msgs09, msgs0A, msgs0B], k c = some x → ActKept x := by
    simp only [List.forall_mem_cons, List.not_mem_nil, false_imp_iff, implies_true, and_true]
    exact ⟨msgs02_kept, msgs03_kept, msgs04_kept, msgs05_kept, msgs06_kept, msgs07_kept, msgs08_kept, msgs09_kept, msgs0A_kept, msgs0B_kept⟩
  have high : ∀ k ∈ [msgs0C, msgs0D, msgs0E, msgs10, msgs11, msgs12, msgs13, msgs14, msgs15, msgs17], k c = some x → ActKept x := by
    simp only [List.forall_mem_cons, List.not_mem_nil, false_imp_iff, implies_true, and_true]
    exact ⟨msgs0C_kept, msgs0D_kept, msgs0E_kept, msgs10_kept, msgs11_kept, msgs12_kept, msgs13_kept, msgs14_kept, msgs15_kept, msgs17_kept⟩
  unfold msgDef at h
  split at h
  all_goals first
    | (refine low _ ?_ h; simp; done)
    | (refine high _ ?_ h; simp; done)
    | (refine image _ ?_ h; simp; done)
    | cases h

/-- A row keeps when none of the messages it runs is a writer. -/
theorem runRow_kept {mine : Req → Bool} (hm : ∀ q, mine q = true → q.code ∉ writers) (c : Nat) (s : State) :
    ∀ t, runRow mine c s = .next t → kept t = kept s := by
  intro t h
  cases h
  exact runHead_kept msgDef mine c s fun q x hq hx => msgDef_kept hx (hm q hq)

theorem isCode_off {k : Nat} (hk : k ∉ writers) (q : Req) (h : isCode k q = true) : q.code ∉ writers := by
  simp only [isCode, beq_iff_eq] at h
  rwa [h]

theorem inFamily_off {b d n : Nat} (hk : ∀ w ∈ writers, ¬(b ≤ w ∧ w < b + d * n ∧ (w - b) % d = 0)) (q : Req)
    (h : inFamily b d n q = true) : q.code ∉ writers := by
  simp only [inFamily, Bool.and_eq_true, decide_eq_true_eq, beq_iff_eq] at h
  exact fun hw => hk _ hw ⟨h.1.1, h.1.2, h.2⟩

theorem runPriv_kept {k : Nat} (hk : k ∉ writers) (c : Nat) (s : State) : ∀ t, runPriv k c s = .next t → kept t = kept s := by
  intro t h
  unfold runPriv at h
  split at h
  · next he =>
    cases h
    unfold heldCode at he
    cases hr : headMsg c (screen msgDef c 8 s) with
    | none => simp
    | some r =>
      have hc : r.chan = c := by
        unfold headMsg at hr
        obtain ⟨m, -, rfl⟩ := Option.map_eq_some_iff.mp hr
        rfl
      simp only [hr] at he
      split at he
      · obtain ⟨q, hq, e⟩ := Option.map_eq_some_iff.mp he
        have hp : kept (takePart msgDef r (popMsg c (screen msgDef c 8 s))) = kept s := by
          unfold takePart
          rw [hc, hq]
          dsimp only
          have hx : ∀ x, msgDef (⟨c, r.path, q.req⟩ : Req).code = some x → ActKept x := fun x hx =>
            msgDef_kept hx (by
              have : (⟨c, r.path, q.req⟩ : Req).code = k := by rw [← e]; cases q.req <;> rfl
              rwa [this])
          split
          · simp
          split
          · simp
          · rw [complete_kept _ _ _ _ hx]
            simp
        dsimp only
        split
        · rw [screen_kept, hp]
        · simp
      · cases he
  · exact runRow_kept (isCode_off hk) c s t h

theorem execDeviceStatus_kept (c : Nat) (s : State) : ∀ t, execDeviceStatus c s = .next t → kept t = kept s :=
  runRow_kept (isCode_off (by decide)) c s

theorem execSettingsRead_kept (c : Nat) (s : State) : ∀ t, execSettingsRead c s = .next t → kept t = kept s :=
  runRow_kept (isCode_off (by decide)) c s

theorem execAdmissionReport_kept (c : Nat) (s : State) : ∀ t, execAdmissionReport c s = .next t → kept t = kept s :=
  runRow_kept (isCode_off (by decide)) c s

theorem execPortStatus_kept (c : Nat) (s : State) : ∀ t, execPortStatus c s = .next t → kept t = kept s :=
  runRow_kept (inFamily_off (by decide)) c s

theorem execRetrain_kept (c : Nat) (s : State) : ∀ t, execRetrain c s = .next t → kept t = kept s :=
  runRow_kept (inFamily_off (by decide)) c s

theorem execSensorWrite_kept (c : Nat) (s : State) : ∀ t, execSensorWrite c s = .next t → kept t = kept s :=
  runRow_kept (inFamily_off (by decide)) c s

theorem execSeamStatus_kept (c : Nat) (s : State) : ∀ t, execSeamStatus c s = .next t → kept t = kept s :=
  runRow_kept (inFamily_off (by decide)) c s

theorem execFrontEndStatus_kept (c : Nat) (s : State) : ∀ t, execFrontEndStatus c s = .next t → kept t = kept s :=
  runRow_kept (inFamily_off (by decide)) c s

theorem execStatisticsFetch_kept (c : Nat) (s : State) : ∀ t, execStatisticsFetch c s = .next t → kept t = kept s :=
  runRow_kept (inFamily_off (by decide)) c s

theorem execTapStatus_kept (c : Nat) (s : State) : ∀ t, execTapStatus c s = .next t → kept t = kept s :=
  runRow_kept (inFamily_off (by decide)) c s

theorem execLutLoad_kept (c : Nat) (s : State) : ∀ t, execLutLoad c s = .next t → kept t = kept s :=
  runRow_kept (inFamily_off (by decide)) c s

theorem execAditStatus_kept (c : Nat) (s : State) : ∀ t, execAditStatus c s = .next t → kept t = kept s :=
  runRow_kept (inFamily_off (by decide)) c s

theorem execAditRead_kept (c : Nat) (s : State) : ∀ t, execAditRead c s = .next t → kept t = kept s :=
  runRow_kept (inFamily_off (by decide)) c s

theorem execLoopStatus_kept (c : Nat) (s : State) : ∀ t, execLoopStatus c s = .next t → kept t = kept s :=
  runRow_kept (inFamily_off (by decide)) c s

theorem execLockBroadcast_kept (c : Nat) (s : State) : ∀ t, execLockBroadcast c s = .next t → kept t = kept s :=
  runRow_kept (isCode_off (by decide)) c s

theorem execCompressorStatus_kept (c : Nat) (s : State) : ∀ t, execCompressorStatus c s = .next t → kept t = kept s :=
  runRow_kept (isCode_off (by decide)) c s

theorem execAditCompressionStatus_kept (c : Nat) (s : State) : ∀ t, execAditCompressionStatus c s = .next t → kept t = kept s :=
  runRow_kept (inFamily_off (by decide)) c s

theorem execStreamStatus_kept (c : Nat) (s : State) : ∀ t, execStreamStatus c s = .next t → kept t = kept s :=
  runRow_kept (inFamily_off (by decide)) c s

theorem execBitstreamRead_kept (c : Nat) (s : State) : ∀ t, execBitstreamRead c s = .next t → kept t = kept s :=
  runRow_kept (inFamily_off (by decide)) c s

theorem execBitstreamWrite_kept (c : Nat) (s : State) : ∀ t, execBitstreamWrite c s = .next t → kept t = kept s :=
  runRow_kept (inFamily_off (by decide)) c s

theorem execForceIdr_kept (c : Nat) (s : State) : ∀ t, execForceIdr c s = .next t → kept t = kept s :=
  runRow_kept (inFamily_off (by decide)) c s

theorem execDecoderFlush_kept (c : Nat) (s : State) : ∀ t, execDecoderFlush c s = .next t → kept t = kept s :=
  runRow_kept (inFamily_off (by decide)) c s

theorem execRecorderStatus_kept (c : Nat) (s : State) : ∀ t, execRecorderStatus c s = .next t → kept t = kept s :=
  runRow_kept (isCode_off (by decide)) c s

theorem execRecordStart_kept (c : Nat) (s : State) : ∀ t, execRecordStart c s = .next t → kept t = kept s :=
  runRow_kept (isCode_off (by decide)) c s

theorem execRecordStop_kept (c : Nat) (s : State) : ∀ t, execRecordStop c s = .next t → kept t = kept s :=
  runRow_kept (isCode_off (by decide)) c s

theorem execClipQuery_kept (c : Nat) (s : State) : ∀ t, execClipQuery c s = .next t → kept t = kept s :=
  runRow_kept (isCode_off (by decide)) c s

theorem execFormatVolume_kept (c : Nat) (s : State) : ∀ t, execFormatVolume c s = .next t → kept t = kept s :=
  runPriv_kept (by decide) c s

theorem execDeleteClip_kept (c : Nat) (s : State) : ∀ t, execDeleteClip c s = .next t → kept t = kept s :=
  runPriv_kept (by decide) c s

theorem execPlaybackStart_kept (c : Nat) (s : State) : ∀ t, execPlaybackStart c s = .next t → kept t = kept s :=
  runRow_kept (isCode_off (by decide)) c s

theorem execPlaybackStop_kept (c : Nat) (s : State) : ∀ t, execPlaybackStop c s = .next t → kept t = kept s :=
  runRow_kept (isCode_off (by decide)) c s

theorem execPlaybackStatus_kept (c : Nat) (s : State) : ∀ t, execPlaybackStatus c s = .next t → kept t = kept s :=
  runRow_kept (isCode_off (by decide)) c s

theorem execEndpointStatus_kept (c : Nat) (s : State) : ∀ t, execEndpointStatus c s = .next t → kept t = kept s :=
  runRow_kept (isCode_off (by decide)) c s

theorem execLinkStatus_kept (c : Nat) (s : State) : ∀ t, execLinkStatus c s = .next t → kept t = kept s :=
  runRow_kept (inFamily_off (by decide)) c s

theorem execLinkRetrain_kept (c : Nat) (s : State) : ∀ t, execLinkRetrain c s = .next t → kept t = kept s :=
  runRow_kept (inFamily_off (by decide)) c s

theorem execSdiStatus_kept (c : Nat) (s : State) : ∀ t, execSdiStatus c s = .next t → kept t = kept s :=
  runRow_kept (inFamily_off (by decide)) c s

theorem execMacStatus_kept (c : Nat) (s : State) : ∀ t, execMacStatus c s = .next t → kept t = kept s :=
  runRow_kept (inFamily_off (by decide)) c s

theorem execSenderStatus_kept (c : Nat) (s : State) : ∀ t, execSenderStatus c s = .next t → kept t = kept s :=
  runRow_kept (inFamily_off (by decide)) c s

theorem execTimeStatus_kept (c : Nat) (s : State) : ∀ t, execTimeStatus c s = .next t → kept t = kept s :=
  runRow_kept (isCode_off (by decide)) c s

theorem execPtpPortStatus_kept (c : Nat) (s : State) : ∀ t, execPtpPortStatus c s = .next t → kept t = kept s :=
  runRow_kept (inFamily_off (by decide)) c s

theorem execArrayLock_kept (c : Nat) (s : State) : ∀ t, execArrayLock c s = .next t → kept t = kept s :=
  runPriv_kept (by decide) c s

theorem execArrayUnlock_kept (c : Nat) (s : State) : ∀ t, execArrayUnlock c s = .next t → kept t = kept s :=
  runPriv_kept (by decide) c s

theorem execSchedule_kept (c : Nat) (s : State) : ∀ t, execSchedule c s = .next t → kept t = kept s :=
  runRow_kept (isCode_off (by decide)) c s

theorem execCancel_kept (c : Nat) (s : State) : ∀ t, execCancel c s = .next t → kept t = kept s :=
  runRow_kept (isCode_off (by decide)) c s

theorem execIslandStatus_kept (c : Nat) (s : State) : ∀ t, execIslandStatus c s = .next t → kept t = kept s :=
  runRow_kept (isCode_off (by decide)) c s

theorem execRecordRead_kept (c : Nat) (s : State) : ∀ t, execRecordRead c s = .next t → kept t = kept s :=
  runRow_kept (isCode_off (by decide)) c s

theorem execIslandCertificateRead_kept (c : Nat) (s : State) : ∀ t, execIslandCertificateRead c s = .next t → kept t = kept s :=
  runRow_kept (isCode_off (by decide)) c s

theorem execSignNow_kept (c : Nat) (s : State) : ∀ t, execSignNow c s = .next t → kept t = kept s :=
  runRow_kept (isCode_off (by decide)) c s

theorem execRedundancyStatus_kept (c : Nat) (s : State) : ∀ t, execRedundancyStatus c s = .next t → kept t = kept s :=
  runRow_kept (isCode_off (by decide)) c s

theorem execPlannedSwitchOver_kept (c : Nat) (s : State) : ∀ t, execPlannedSwitchOver c s = .next t → kept t = kept s :=
  runPriv_kept (by decide) c s

theorem execHeadPrimaryStatus_kept (c : Nat) (s : State) : ∀ t, execHeadPrimaryStatus c s = .next t → kept t = kept s :=
  runRow_kept (isCode_off (by decide)) c s

theorem execClaimVerdict_kept (c : Nat) (s : State) : ∀ t, execClaimVerdict c s = .next t → kept t = kept s :=
  runRow_kept (isCode_off (by decide)) c s

theorem execViewfinderStatus_kept (c : Nat) (s : State) : ∀ t, execViewfinderStatus c s = .next t → kept t = kept s :=
  runRow_kept (inFamily_off (by decide)) c s

theorem execOverlayWrite_kept (c : Nat) (s : State) : ∀ t, execOverlayWrite c s = .next t → kept t = kept s :=
  runRow_kept (inFamily_off (by decide)) c s

theorem execRefresh_kept (c : Nat) (s : State) : ∀ t, execRefresh c s = .next t → kept t = kept s :=
  runRow_kept (inFamily_off (by decide)) c s

theorem execAudioStatus_kept (c : Nat) (s : State) : ∀ t, execAudioStatus c s = .next t → kept t = kept s :=
  runRow_kept (inFamily_off (by decide)) c s

theorem execStartAndStop_kept (c : Nat) (s : State) : ∀ t, execStartAndStop c s = .next t → kept t = kept s :=
  runRow_kept (inFamily_off (by decide)) c s

theorem execBlockWrite_kept (c : Nat) (s : State) : ∀ t, execBlockWrite c s = .next t → kept t = kept s :=
  runRow_kept (inFamily_off (by decide)) c s

theorem execChannelStatus_kept (c : Nat) (s : State) : ∀ t, execChannelStatus c s = .next t → kept t = kept s :=
  runRow_kept (inFamily_off (by decide)) c s

theorem execMailboxStatus_kept (c : Nat) (s : State) : ∀ t, execMailboxStatus c s = .next t → kept t = kept s :=
  runRow_kept (isCode_off (by decide)) c s

theorem execNonce_kept (c : Nat) (s : State) : ∀ t, execNonce c s = .next t → kept t = kept s :=
  runRow_kept (isCode_off (by decide)) c s

theorem execEventLogRead_kept (c : Nat) (s : State) : ∀ t, execEventLogRead c s = .next t → kept t = kept s :=
  runRow_kept (isCode_off (by decide)) c s

theorem execErrorQueueStatus_kept (c : Nat) (s : State) : ∀ t, execErrorQueueStatus c s = .next t → kept t = kept s :=
  runRow_kept (isCode_off (by decide)) c s

theorem execSurveyRun_kept (c : Nat) (s : State) : ∀ t, execSurveyRun c s = .next t → kept t = kept s :=
  runRow_kept (isCode_off (by decide)) c s

theorem execRestoreFactory_kept (c : Nat) (s : State) : ∀ t, execRestoreFactory c s = .next t → kept t = kept s :=
  runPriv_kept (by decide) c s

theorem execSurveyStatus_kept (c : Nat) (s : State) : ∀ t, execSurveyStatus c s = .next t → kept t = kept s :=
  runRow_kept (isCode_off (by decide)) c s

theorem execUpdateBegin_kept (c : Nat) (s : State) : ∀ t, execUpdateBegin c s = .next t → kept t = kept s :=
  runPriv_kept (by decide) c s

theorem execUpdateData_kept (c : Nat) (s : State) : ∀ t, execUpdateData c s = .next t → kept t = kept s :=
  runRow_kept (isCode_off (by decide)) c s

theorem execUpdateCommit_kept (c : Nat) (s : State) : ∀ t, execUpdateCommit c s = .next t → kept t = kept s :=
  runRow_kept (isCode_off (by decide)) c s

theorem execUpdateStatus_kept (c : Nat) (s : State) : ∀ t, execUpdateStatus c s = .next t → kept t = kept s :=
  runRow_kept (isCode_off (by decide)) c s

theorem execUpdateAbort_kept (c : Nat) (s : State) : ∀ t, execUpdateAbort c s = .next t → kept t = kept s :=
  runRow_kept (isCode_off (by decide)) c s

theorem execAttestationReport_kept (c : Nat) (s : State) : ∀ t, execAttestationReport c s = .next t → kept t = kept s :=
  runRow_kept (isCode_off (by decide)) c s

theorem execCertificateRead_kept (c : Nat) (s : State) : ∀ t, execCertificateRead c s = .next t → kept t = kept s :=
  runRow_kept (isCode_off (by decide)) c s

theorem execPowerStatus_kept (c : Nat) (s : State) : ∀ t, execPowerStatus c s = .next t → kept t = kept s :=
  runRow_kept (isCode_off (by decide)) c s

theorem execScanStart_kept (c : Nat) (s : State) : ∀ t, execScanStart c s = .next t → kept t = kept s :=
  runRow_kept (fun q h => inFamily_off (b := 0x0B00) (d := 1) (n := 40) (by decide) q
    (by simp only [isLane, Bool.and_eq_true] at h; exact h.1)) c s

theorem execScanRead_kept (c : Nat) (s : State) : ∀ t, execScanRead c s = .next t → kept t = kept s :=
  runRow_kept (fun q h => inFamily_off (b := 0x0B00) (d := 1) (n := 40) (by decide) q
    (by simp only [isLane, Bool.and_eq_true] at h; exact h.1)) c s

theorem execScanStop_kept (c : Nat) (s : State) : ∀ t, execScanStop c s = .next t → kept t = kept s :=
  runRow_kept (fun q h => inFamily_off (b := 0x0B00) (d := 1) (n := 40) (by decide) q
    (by simp only [isLane, Bool.and_eq_true] at h; exact h.1)) c s

theorem execTestSetUp_kept (c : Nat) (s : State) : ∀ t, execTestSetUp c s = .next t → kept t = kept s :=
  runRow_kept (fun q h => inFamily_off (b := 0x0B00) (d := 1) (n := 40) (by decide) q
    (by simp only [isLane, Bool.and_eq_true] at h; exact h.1)) c s

theorem execBitSlip_kept (c : Nat) (s : State) : ∀ t, execBitSlip c s = .next t → kept t = kept s :=
  runRow_kept (fun q h => inFamily_off (b := 0x0B00) (d := 1) (n := 40) (by decide) q
    (by simp only [isLane, Bool.and_eq_true] at h; exact h.1)) c s

theorem execCheckerRead_kept (c : Nat) (s : State) : ∀ t, execCheckerRead c s = .next t → kept t = kept s :=
  runRow_kept (fun q h => inFamily_off (b := 0x0B00) (d := 1) (n := 40) (by decide) q
    (by simp only [isLane, Bool.and_eq_true] at h; exact h.1)) c s

theorem execLaneStatus_kept (c : Nat) (s : State) : ∀ t, execLaneStatus c s = .next t → kept t = kept s :=
  runRow_kept (fun q h => inFamily_off (b := 0x0B00) (d := 1) (n := 40) (by decide) q
    (by simp only [isLane, Bool.and_eq_true] at h; exact h.1)) c s

theorem execBulkWindowClaim_kept (c : Nat) (s : State) : ∀ t, execBulkWindowClaim c s = .next t → kept t = kept s :=
  runRow_kept (fun q h => isCode_off (k := 0x1402) (by decide) q (by simp only [Bool.and_eq_true] at h; exact h.1)) c s

theorem execBulkWindowRelease_kept (c : Nat) (s : State) : ∀ t, execBulkWindowRelease c s = .next t → kept t = kept s :=
  runRow_kept (fun q h => isCode_off (k := 0x1402) (by decide) q (by simp only [Bool.and_eq_true] at h; exact h.1)) c s

theorem execSuspend_kept (c : Nat) (s : State) : ∀ t, execSuspend c s = .next t → kept t = kept s :=
  runRow_kept (fun q h => isCode_off (k := 0x1701) (by decide) q (by simp only [Bool.and_eq_true] at h; exact h.1)) c s

theorem execResume_kept (c : Nat) (s : State) : ∀ t, execResume c s = .next t → kept t = kept s :=
  runRow_kept (fun q h => isCode_off (k := 0x1701) (by decide) q (by simp only [Bool.and_eq_true] at h; exact h.1)) c s

end Sys2Proof.Laws
end

