-- ==== Sys2Proof/Laws/Mail.lean ====
section
/-! SUPPORT. What a row that runs a message does with the message at the front of its channel. -/

namespace Sys2Proof.Laws
open Sys2Proof Sys2Proof.Machine

theorem getD_modAt {α : Type} (d : α) (f : α → α) (l : List α) (n : Nat) (h : n < l.length) :
    (modAt l n f).getD n d = f (l.getD n d) := by
  induction l generalizing n with
  | nil => simp at h
  | cons a r ih =>
    cases n with
    | zero => simp [modAt]
    | succ n =>
      have := ih n (by simpa using h)
      simpa [modAt] using this

@[simp] theorem modAt_length {α : Type} (f : α → α) (l : List α) (n : Nat) : (modAt l n f).length = l.length := by
  simp [modAt]

/-- Where the message at the front of channel `c`, if any, has a row. -/
def Stops (c : Nat) (s : State) : Prop := ∀ m, (s.mbx.chans.getD c {}).inq.head? = some m → known m

theorem screen_stops {c : Nat} {s : State} (h : Stops c s) (n : Nat) : screen msgDef c n s = s := by
  cases n with
  | zero => rfl
  | succ n =>
    unfold screen headMsg
    cases hq : (s.mbx.chans.getD c {}).inq.head? with
    | none => rfl
    | some m =>
      rcases h m hq with h' | h'
      · have e : (⟨c, m.path, m.words⟩ : Req).code = hdrCode (m.words.getD 0 0).toNat := rfl
        simp only [Option.map_some, e]
        have : (msgDef (hdrCode (m.words.getD 0 0).toNat)).isNone = false := by
          rw [Option.isNone_eq_false_iff]; exact h'
        rw [this]; simp
      · have e : (⟨c, m.path, m.words⟩ : Req).code = 0x1410 := h'
        simp [e]

theorem header_toNat {k n tag : Nat} (hk : k < 65536) (hn : n < 16) : (header k n tag).toNat = k * 65536 + n * 4096 + tag % 256 := by
  simp only [header, BitVec.toNat_ofNat]
  omega

theorem hdrCode_header {k n tag : Nat} (hk : k < 65536) (hn : n < 16) : hdrCode (header k n tag).toNat = k := by
  rw [header_toNat hk hn]; simp only [hdrCode, bits]; omega

theorem hdrCount_header {k n tag : Nat} (hk : k < 65536) (hn : n < 16) : hdrCount (header k n tag).toNat = n := by
  rw [header_toNat hk hn]; simp only [hdrCount, bits]; omega

theorem hdrFlags_header {k n tag : Nat} (hk : k < 65536) (hn : n < 16) :
    hdrReply (header k n tag).toNat = false ∧ hdrPriv (header k n tag).toNat = false ∧
    hdrError (header k n tag).toNat = false ∧ hdrMore (header k n tag).toNat = false := by
  rw [header_toNat hk hn]
  simp only [hdrReply, hdrPriv, hdrError, hdrMore, bits, beq_eq_false_iff_ne]
  omega

theorem popMsg_inq {c : Nat} {s : State} {m : InMsg} {rest : List InMsg} (h : (s.mbx.chans.getD c {}).inq = m :: rest) :
    ((popMsg c s).mbx.chans.getD c {}).inq = rest := by
  have hc : c < s.mbx.chans.length := by
    rcases Nat.lt_or_ge c s.mbx.chans.length with h' | h'
    · exact h'
    · have e : s.mbx.chans[c]? = none := by simpa using h'
      rw [List.getD_eq_getElem?_getD, e] at h
      simp at h
  unfold popMsg modChan
  dsimp only
  rw [getD_modAt {} _ _ _ hc, h]
  rfl

/-- A row that takes the message at the front of its channel runs it and answers it. -/
theorem runRow_front {mine : Req → Bool} {c k tag : Nat} {p : Path} {args : List Word} {s : State} (ha : AtFront c p k tag args s)
    (hk : k < 65536) (hn : args.length < 15) (hd : (msgDef k).isSome = true) (hm : mine (request1 c p k tag args) = true) :
    runRow mine c s = .next (screen msgDef c 8 (complete (msgDef k) (request1 c p k tag args) none (popMsg c s))) := by
  obtain ⟨⟨rest, hq, hr⟩, hs, ho⟩ := ha
  have hc : hdrCode (((⟨p, header k (args.length + 1) tag :: args⟩ : InMsg).words.getD 0 0)).toNat = k :=
    hdrCode_header hk (by omega)
  have hst : Stops c s := by
    intro m h
    rw [hq] at h
    simp only [List.head?_cons, Option.some.injEq] at h
    subst h
    left
    rw [hc]; exact hd
  have hpop : openSeq c p (popMsg c s) = openSeq c p s := by
    unfold openSeq popMsg modChan
    dsimp only
    rcases Nat.lt_or_ge c s.mbx.chans.length with h | h
    · rw [getD_modAt {} _ _ _ h]
    · rw [List.getD_eq_getElem?_getD, List.getD_eq_getElem?_getD]
      simp [modAt, h]
  obtain ⟨f1, f2, f3, f4⟩ := hdrFlags_header (tag := tag) (n := args.length + 1) hk (by omega)
  have hw : (request1 c p k tag args).w 0 = (header k (args.length + 1) tag).toNat := rfl
  have e1 : endSeq c p (popMsg c s) = popMsg c s := by
    unfold endSeq
    rw [hpop, ho]
  have e2 : takeMsg (msgDef k) (request1 c p k tag args) (popMsg c s) =
      complete (msgDef k) (request1 c p k tag args) none (popMsg c s) := by
    unfold takeMsg
    rw [hw, f2, Bool.and_false]
    change complete (msgDef k) (request1 c p k tag args) none (endSeq c p (popMsg c s)) = _
    rw [e1]
  unfold runRow runHead
  rw [screen_stops hst]
  have hh : headMsg c s = some (request1 c p k tag args) := by
    unfold headMsg
    rw [hq]
    rfl
  have hcode : (request1 c p k tag args).code = k := hc
  simp only [hh, hs, hm, Bool.and_self, if_true, hcode, e2]

@[simp] theorem deliver_chans (p : Path) (c : Nat) (ws : List Word) (s : State) : (deliver p c ws s).mbx.chans = s.mbx.chans := by
  unfold deliver
  cases p with
  | regs v =>
    have e : ∀ (b : Bool) (x y : State), x.mbx.chans = s.mbx.chans → y.mbx.chans = s.mbx.chans →
        (if b = true then x else y).mbx.chans = s.mbx.chans := by
      intro b x y hx hy
      cases b
      · exact hy
      · exact hx
    cases v <;> exact e _ _ _ rfl rfl
  | array => rfl
  | fwd g => rfl
  | _ => rfl

theorem modChan_inq {f : Chan → Chan} (hf : ∀ ch, (f ch).inq = ch.inq) (c n : Nat) (s : State) :
    ((modChan c f s).mbx.chans.getD n {}).inq = (s.mbx.chans.getD n {}).inq := by
  unfold modChan
  dsimp only
  rcases Nat.lt_or_ge n s.mbx.chans.length with h | h
  · by_cases e : c = n
    · subst e; rw [getD_modAt {} _ _ _ h, hf]
    · rw [List.getD_eq_getElem?_getD, List.getD_eq_getElem?_getD]
      simp [modAt, e]
  · rw [List.getD_eq_getElem?_getD, List.getD_eq_getElem?_getD]
    simp [modAt, h]

/-- A row whose message is accepted leaves the accepted request's reply and effect. -/
theorem runRow_accept {mine : Req → Bool} {c k tag : Nat} {p : Path} {args : List Word} {s u : State} {d : MsgDef} {ws : List Nat}
    (ha : AtFront c p k tag args s) (hk : k < 65536) (hn : args.length < 15) (hd : msgDef k = some d)
    (hm : mine (request1 c p k tag args) = true) (h1 : routed c k = true)
    (h0 : d.unknown (request1 c p k tag args) (popMsg c s) = false)
    (h2 : malformed d (request1 c p k tag args) (popMsg c s) = false)
    (h3 : d.badLog (request1 c p k tag args) (popMsg c s) = none)
    (h4 : denied d (request1 c p k tag args) (popMsg c s) = false)
    (h5 : unauthorised d (request1 c p k tag args) none (popMsg c s) = false)
    (h6 : d.act (request1 c p k tag args) false (popMsg c s) = (.accept ws, u)) (h7 : d.answered = true)
    (h8 : (u.mbx.chans.getD c {}).inq = ((popMsg c s).mbx.chans.getD c {}).inq) :
    runRow mine c s = .next (replied (request1 c p k tag args) ws u) := by
  rw [runRow_front ha hk hn (by rw [hd]; rfl) hm, hd]
  have hcode : (request1 c p k tag args).code = k := hdrCode_header hk (by omega)
  have hrt : routed (request1 c p k tag args).chan (request1 c p k tag args).code = true := by rw [hcode]; exact h1
  have e : runReq (some d) (request1 c p k tag args) none (popMsg c s) = (.accept ws, u) := by
    unfold runReq
    simp only [hrt, h0, h2, h3, h4, h5, Bool.not_true, Bool.or_self, Bool.false_eq_true, if_false]
    exact h6
  have e2 : complete (some d) (request1 c p k tag args) none (popMsg c s) = replied (request1 c p k tag args) ws u := by
    unfold complete
    rw [e]
    unfold answer replied countAnswer
    simp [h7]
  rw [e2, screen_stops]
  obtain ⟨⟨rest, hq, hr⟩, _, _⟩ := ha
  intro m h
  apply hr m
  rw [← popMsg_inq hq, ← h8]
  rw [← h]
  unfold replied
  rw [deliver_chans]
  have hch : (request1 c p k tag args).chan = c := rfl
  rw [hch]
  exact congrArg List.head? (modChan_inq (f := fun ch => { ch with handled := wrapInc 32 ch.handled }) (fun _ => rfl) c c u).symm

theorem hasBlk_always (s : State) : hasBlk .always s = true := by
  unfold hasBlk
  cases s.dev.role <;> cases s.dev.part <;> rfl

/-- The channels but the island's take every code but the island's (R527, R674). -/
theorem routed_of_lt {c k : Nat} (hc : c < 14) (hk : k / 256 ≠ 0x0F) : routed c k = true := by
  unfold routed
  rw [if_neg (by omega), if_neg (by omega)]
  simpa using hk

/-- A word below a power of two sets no bit above it. -/
theorem and_mask {n k m : Nat} (hm : 2 ^ k - 1 = m) (h : n < 2 ^ k) : n &&& m = n := by
  subst hm
  rw [Nat.and_two_pow_sub_one_eq_mod]
  exact Nat.mod_eq_of_lt h

theorem front_code {c k tag : Nat} {p : Path} {args : List Word} {s : State} (_ : AtFront c p k tag args s) (hk : k < 65536)
    (hn : args.length < 15) : (request1 c p k tag args).code = k := hdrCode_header hk (by omega)

/-- A row whose message needs no token, in a started role that has its block, where its own checks pass. -/
theorem runRow_started {c k tag : Nat} {p : Path} {args : List Word} {s u : State} {d : MsgDef} {ws : List Nat}
    (ha : AtFront c p k tag args s) (hk : k < 65536) (hn : args.length < 15) (hd : msgDef k = some d) (h1 : routed c k = true)
    (hs : Started s) (hb : hasBlk d.blk s = true) (hc : d.count (args.length + 1) = true) (hres : reservedSet d.masks args = false)
    (hbad : d.bad (request1 c p k tag args) (popMsg c s) = false)
    (h0 : d.unknown (request1 c p k tag args) (popMsg c s) = false)
    (h3 : d.badLog (request1 c p k tag args) (popMsg c s) = none)
    (hdn : d.deny (request1 c p k tag args) (popMsg c s) = false)
    (hp : d.priv ≠ .must ∨ d.privFree (request1 c p k tag args) (popMsg c s) = true)
    (h6 : d.act (request1 c p k tag args) false (popMsg c s) = (.accept ws, u)) (h7 : d.answered = true)
    (h8 : (u.mbx.chans.getD c {}).inq = ((popMsg c s).mbx.chans.getD c {}).inq)
    (mine : Req → Bool) (hm : mine (request1 c p k tag args) = true) :
    runRow mine c s = .next (replied (request1 c p k tag args) ws u) := by
  obtain ⟨f1, f2, f3, f4⟩ := hdrFlags_header (tag := tag) (n := args.length + 1) hk (by omega)
  have hw : (request1 c p k tag args).w 0 = (header k (args.length + 1) tag).toNat := rfl
  refine runRow_accept (d := d) ha hk hn hd hm h1 h0 ?_ h3 ?_ ?_ h6 h7 h8
  · have f5 := hdrCount_header (tag := tag) (n := args.length + 1) hk (by omega)
    have e : reservedSet d.masks ((request1 c p k tag args).words.drop 1) = false := hres
    have e2 : (request1 c p k tag args).words.length = args.length + 1 := rfl
    unfold malformed
    rw [hw, f1, f2, f3, f4, f5, e, e2, hc, hbad]
    simp
  · obtain ⟨a, b, e, f, g⟩ := hs
    have h1 : (popMsg c s).dev = s.dev := rfl
    have h2 : (popMsg c s).pwr = s.pwr := rfl
    have h3 : hasBlk d.blk (popMsg c s) = true := hb
    unfold denied
    rw [h1, h2, h3, hdn, a, e, g]
    rfl
  · unfold unauthorised
    rw [hw, f2]
    rcases hp with hp | hp
    · simpa using fun h => absurd h hp
    · simp [hp]

theorem privHeader_toNat {k n tag : Nat} (hk : k < 65536) (hn : n < 16) :
    (privHeader k n tag).toNat = k * 65536 + n * 4096 + 1280 + tag % 256 := by
  simp only [privHeader, BitVec.toNat_ofNat]
  omega

theorem hdr_privHeader {k n tag : Nat} (hk : k < 65536) (hn : n < 16) :
    hdrCode (privHeader k n tag).toNat = k ∧ hdrCount (privHeader k n tag).toNat = n ∧ hdrReply (privHeader k n tag).toNat = false ∧
    hdrPriv (privHeader k n tag).toNat = true ∧ hdrError (privHeader k n tag).toNat = false ∧
    hdrMore (privHeader k n tag).toNat = true := by
  rw [privHeader_toNat hk hn]
  simp only [hdrCode, hdrCount, hdrReply, hdrPriv, hdrError, hdrMore, bits, beq_eq_false_iff_ne, beq_iff_eq]
  omega

theorem openSeq_congr {c : Nat} {p : Path} {s t : State} (h : (t.mbx.chans.getD c {}).held = (s.mbx.chans.getD c {}).held) :
    openSeq c p t = openSeq c p s := by
  unfold openSeq
  rw [h]

theorem modChan_held {f : Chan → Chan} (hf : ∀ ch, (f ch).held = ch.held) (c n : Nat) (s : State) :
    ((modChan c f s).mbx.chans.getD n {}).held = (s.mbx.chans.getD n {}).held := by
  unfold modChan
  dsimp only
  rcases Nat.lt_or_ge n s.mbx.chans.length with h | h
  · by_cases e : c = n
    · subst e; rw [getD_modAt {} _ _ _ h, hf]
    · rw [List.getD_eq_getElem?_getD, List.getD_eq_getElem?_getD]
      simp [modAt, e]
  · rw [List.getD_eq_getElem?_getD, List.getD_eq_getElem?_getD]
    simp [modAt, h]

/-- TOKEN_PART with the last part of a valid token runs the held request. -/
theorem tokenPart_runs {c k tag : Nat} {p : Path} {args ws : List Word} {s u : State} {d : MsgDef} {rep : List Nat}
    (ha : LastPart c p k tag args ws s) (hk : k < 65536) (hn : args.length < 15) (hd : msgDef k = some d)
    (h1 : routed c k = true) (hc : d.count (args.length + 1) = true) (hres : reservedSet d.masks args = false)
    (hp : d.priv ≠ .never) (h0 : d.unknown (requestP c p k tag args) (tokenDone c p ws s) = false)
    (hbad : d.bad (requestP c p k tag args) (tokenDone c p ws s) = false)
    (h3 : d.badLog (requestP c p k tag args) (tokenDone c p ws s) = none)
    (h4 : denied d (requestP c p k tag args) (tokenDone c p ws s) = false)
    (h6 : d.act (requestP c p k tag args) true (tokenDone c p ws s) = (.accept rep, u)) (h7 : d.answered = true)
    (h8 : (u.mbx.chans.getD c {}).inq = ((tokenDone c p ws s).mbx.chans.getD c {}).inq) :
    execTokenPart c s = .next (replied (requestP c p k tag args) rep u) := by
  obtain ⟨⟨rest, hq, hr⟩, hs, hcode, hudp, q, ho, hreq, hlen, hlate, hnext, htok⟩ := ha
  obtain ⟨e1, e2, e3, e4, e5, e6⟩ := hdr_privHeader (tag := tag) (n := args.length + 1) hk (by omega)
  have hw : (requestP c p k tag args).w 0 = (privHeader k (args.length + 1) tag).toNat := rfl
  have hst : Stops c s := by
    intro m h
    rw [hq] at h
    simp only [List.head?_cons, Option.some.injEq] at h
    subst h
    exact .inr hcode
  have hh : headMsg c s = some ⟨c, p, ws⟩ := by
    unfold headMsg
    rw [hq]
    rfl
  have hpop : openSeq c p (popMsg c s) = some q := by
    rw [← ho]
    exact openSeq_congr (modChan_held (f := fun ch => { ch with inq := ch.inq.drop 1 }) (fun _ => rfl) c c s)
  have hlt : seqLate q (popMsg c s) = false := hlate
  have e : takePart msgDef ⟨c, p, ws⟩ (popMsg c s) =
      complete (msgDef k) (requestP c p k tag args) (some true) (tokenDone c p ws s) := by
    have hcq : (⟨c, p, q.req⟩ : Req) = requestP c p k tag args := by rw [hreq]; rfl
    have hck : (requestP c p k tag args).code = k := e1
    unfold takePart
    dsimp only
    rw [hpop]
    dsimp only
    rw [hlt, hnext, hcq, hck]
    simp only [Bool.not_true, Bool.or_self, Bool.false_eq_true, if_false, hlen, Nat.lt_irrefl]
    rw [htok]
    rfl
  have hm : malformed d (requestP c p k tag args) (tokenDone c p ws s) = false := by
    have g1 : reservedSet d.masks ((requestP c p k tag args).words.drop 1) = false := hres
    have g2 : (requestP c p k tag args).words.length = args.length + 1 := rfl
    have g3 : (d.priv == PrivRule.never) = false := by
      cases hd' : d.priv <;> simp_all
    unfold malformed
    rw [hw, e2, e3, e4, e5, e6, g1, g2, hc, hbad, g3]
    simp
  have hu : unauthorised d (requestP c p k tag args) (some true) (tokenDone c p ws s) = false := by
    unfold unauthorised
    rw [hw, e4]
    have : (requestP c p k tag args).path = p := rfl
    rw [this]
    cases hb : isUdp p with
    | false => rfl
    | true =>
      have g : cfgB F.MBX_UDP_PRIV 0 (tokenDone c p ws s) = true := hudp hb
      rw [g]; rfl
  have hrt : routed (requestP c p k tag args).chan (requestP c p k tag args).code = true := by
    rw [show (requestP c p k tag args).code = k from e1]; exact h1
  have hrun : runReq (some d) (requestP c p k tag args) (some true) (tokenDone c p ws s) = (.accept rep, u) := by
    unfold runReq
    simp only [hrt, h0, hm, h3, h4, hu, Bool.not_true, Bool.or_self, Bool.false_eq_true, if_false]
    exact h6
  have hcom : complete (some d) (requestP c p k tag args) (some true) (tokenDone c p ws s) =
      replied (requestP c p k tag args) rep u := by
    unfold complete
    rw [hrun]
    unfold answer replied countAnswer
    simp [h7]
  unfold execTokenPart
  dsimp only
  rw [screen_stops hst, hh]
  have hcd : (⟨c, p, ws⟩ : Req).code = 0x1410 := hcode
  simp only [hs, hcd, BEq.rfl, Bool.and_self, if_true, e, hd, hcom]
  rw [screen_stops]
  intro m h
  apply hr m
  rw [← popMsg_inq hq, ← h]
  have g1 : ((replied (requestP c p k tag args) rep u).mbx.chans.getD c {}).inq = (u.mbx.chans.getD c {}).inq := by
    unfold replied
    rw [deliver_chans]
    exact modChan_inq (f := fun ch => { ch with handled := wrapInc 32 ch.handled }) (fun _ => rfl) c c u
  rw [g1, h8]
  have g2 : ((tokenDone c p ws s).mbx.chans.getD c {}).inq = ((popMsg c s).mbx.chans.getD c {}).inq := by
    unfold tokenDone useNonce dropSeq addPart
    dsimp only
    exact (modChan_inq (f := fun ch => { ch with held := ch.held.filter fun q => q.path != p }) (fun _ => rfl) c c _).trans
      (modChan_inq (f := fun ch => { ch with
        handled := wrapInc 32 ch.handled
        held := ch.held.map fun q => if q.path == p then { q with parts := q.parts ++ [ws] } else q }) (fun _ => rfl) c c _)
  rw [g2]

/-- A row of a privileged message takes its message at the front as every row does. -/
theorem runPriv_front {c k j tag : Nat} {p : Path} {args : List Word} {s : State} (ha : AtFront c p k tag args s)
    (hk : k < 65536) (hn : args.length < 15) (hd : (msgDef k).isSome = true) : runPriv j c s = runRow (isCode j) c s := by
  obtain ⟨⟨rest, hq, -⟩, -, -⟩ := ha
  have hst : Stops c s := by
    intro m h
    rw [hq] at h
    cases h
    exact Or.inl ((congrArg (fun x => (msgDef x).isSome) (hdrCode_header hk (by omega))).trans hd)
  have hh : headMsg c s = some (request1 c p k tag args) := by
    unfold headMsg
    rw [hq]
    rfl
  have hcode : (request1 c p k tag args).code = k := hdrCode_header hk (by omega)
  have h0 : k ≠ 0x1410 := by rintro rfl; cases hd
  unfold runPriv heldCode
  rw [screen_stops hst, hh]
  simp [hcode, h0]

/-- A row of a privileged message takes the last part of a sequence that holds its message. -/
theorem runPriv_last {c k tag : Nat} {p : Path} {args ws : List Word} {s : State} (ha : LastPart c p k tag args ws s)
    (hk : k < 65536) (hn : args.length < 15) : runPriv k c s = execTokenPart c s := by
  obtain ⟨⟨rest, hq, -⟩, -, hcode, -, q, ho, hreq, -⟩ := ha
  have hst : Stops c s := by
    intro m h
    rw [hq] at h
    cases h
    exact Or.inr hcode
  have hh : headMsg c s = some ⟨c, p, ws⟩ := by
    unfold headMsg
    rw [hq]
    rfl
  have hc : (⟨c, p, ws⟩ : Req).code = 0x1410 := hcode
  have hpop : openSeq c p (popMsg c s) = some q := by
    rw [← ho]
    exact openSeq_congr (modChan_held (f := fun ch => { ch with inq := ch.inq.drop 1 }) (fun _ => rfl) c c s)
  obtain ⟨e1, -⟩ := hdr_privHeader (tag := tag) (n := args.length + 1) hk (by omega)
  unfold runPriv heldCode
  rw [screen_stops hst, hh]
  simp [hc, hpop, hreq, e1]

end Sys2Proof.Laws
end

