-- ==== Sys2Proof/Laws/Memory.lean ====
section
/-! SUPPORT. The bytes of DRAM: a store keeps the canonical form, reads back what it stored, and leaves every other address
as it was. -/

namespace Sys2Proof.Laws
open Sys2Proof Sys2Proof.Machine

/-- Every address of a list lies above a bound. -/
def Above (a : Nat) (m : List Host.Cell) : Prop := ∀ c ∈ m, a < c.1

/-- The canonical form by head and rest. -/
theorem wf_cons (c : Host.Cell) (m : List Host.Cell) :
    Memory.wf (c :: m) = true ↔ c.2 ≠ 0 ∧ Above c.1 m ∧ Memory.wf m = true := by
  induction m generalizing c with
  | nil => simp [Memory.wf, Above]
  | cons d r ih =>
    simp only [Memory.wf, Bool.and_eq_true, decide_eq_true_eq, bne_iff_ne, Above, List.mem_cons, forall_eq_or_imp]
    constructor
    · rintro ⟨⟨h0, hlt⟩, hw⟩
      exact ⟨h0, ⟨hlt, fun x hx => lt_trans hlt (((ih d).1 hw).2.1 x hx)⟩, hw⟩
    · rintro ⟨h0, ⟨hlt, -⟩, hw⟩
      exact ⟨⟨h0, hlt⟩, hw⟩

/-- The canonical form: no cell holds what an unlisted address reads as, and the addresses rise. -/
theorem wf_iff (m : List Host.Cell) :
    Memory.wf m = true ↔ (∀ c ∈ m, c.2 ≠ 0) ∧ m.Pairwise fun c d => c.1 < d.1 := by
  induction m with
  | nil => simp [Memory.wf]
  | cons c r ih => rw [wf_cons, ih, List.pairwise_cons, List.forall_mem_cons]; unfold Above; tauto

theorem filter_wf (p : Host.Cell → Bool) {m : List Host.Cell} (h : Memory.wf m = true) : Memory.wf (m.filter p) = true :=
  let ⟨hn, hp⟩ := (wf_iff m).1 h
  (wf_iff _).2 ⟨fun c hc => hn c (List.mem_of_mem_filter hc), hp.filter p⟩

theorem putKey_wf {a : Nat} {v : Byte} {m : List Host.Cell} (hv : v ≠ 0) (h : Memory.wf m = true) :
    Memory.wf (putKey a v m) = true := by
  obtain ⟨hn, hp⟩ := (wf_iff m).1 h
  refine (wf_iff _).2 ⟨fun c hc => ?_, List.pairwise_append.2 ⟨hp.filter _, List.pairwise_cons.2 ⟨?_, hp.filter _⟩, ?_⟩⟩
  · simp only [putKey, List.mem_append, List.mem_cons, List.mem_filter] at hc
    rcases hc with hc | rfl | hc
    exacts [hn c hc.1, hv, hn c hc.1]
  · simp
  · simp only [List.mem_filter, List.mem_cons, decide_eq_true_eq]
    rintro c ⟨-, hc⟩ d (rfl | ⟨-, hd⟩)
    exacts [hc, hc.trans hd]

/-- A store of one byte keeps the canonical form. -/
theorem putDram_wf (a : Nat) (b : Byte) {m : List Host.Cell} (h : Memory.wf m = true) : Memory.wf (putDram a b m) = true := by
  unfold putDram
  split
  · exact filter_wf _ h
  · next hb => exact putKey_wf hb h

/-- A store of consecutive bytes keeps the canonical form. -/
theorem putDrams_wf (a : Nat) (l : List Byte) {m : List Host.Cell} (h : Memory.wf m = true) : Memory.wf (putDrams a l m) = true := by
  induction l generalizing a m with
  | nil => exact h
  | cons b r ih => exact ih (a + 1) (putDram_wf a b h)

theorem lookup_filter (q : Nat → Bool) (x : Nat) (m : List Host.Cell) :
    (m.filter fun e => q e.1).lookup x = if q x then m.lookup x else none := by
  induction m with
  | nil => simp
  | cons c r ih =>
    obtain ⟨k, w⟩ := c
    by_cases hx : x = k
    · subst hx
      cases h : q x <;> simp [h, ih]
    · have hb : (x == k) = false := by simpa using hx
      cases h : q k <;> simp [List.lookup_cons, h, hb, ih]

theorem lookup_clearCell (a x : Nat) (m : List Host.Cell) : (clearCell a m).lookup x = if x = a then none else m.lookup x := by
  rw [clearCell, lookup_filter fun k => k != a]
  by_cases h : x = a <;> simp [h]

theorem lookup_putKey (a x : Nat) (v : Byte) (m : List Host.Cell) :
    (putKey a v m).lookup x = if x = a then some v else m.lookup x := by
  rw [putKey, List.lookup_append, List.lookup_cons, lookup_filter fun k => decide (k < a), lookup_filter fun k => decide (a < k)]
  rcases lt_trichotomy x a with h | h | h
  · have hb : (x == a) = false := by simpa using h.ne
    simp [h, hb, h.ne, h.not_gt]
  · subst h; simp
  · have hb : (x == a) = false := by simpa using h.ne'
    simp [h, hb, h.ne', h.not_gt]

/-- One byte stored: that address reads it, every other reads as before. -/
@[simp] theorem readDram_putDram (a x : Nat) (b : Byte) (m : List Host.Cell) :
    readDram x (putDram a b m) = if x = a then b else readDram x m := by
  unfold putDram readDram
  split
  · next hb => rw [lookup_clearCell]; split <;> simp [hb]
  · rw [lookup_putKey]; split <;> simp

/-- Consecutive bytes stored: each address of the store reads its byte, every other reads as before. -/
theorem readDram_putDrams (a x : Nat) (l : List Byte) (m : List Host.Cell) :
    readDram x (putDrams a l m) = if a ≤ x ∧ x < a + l.length then l.getD (x - a) 0 else readDram x m := by
  induction l generalizing a m with
  | nil => simp [putDrams]
  | cons b r ih =>
    simp only [putDrams, ih, readDram_putDram, List.length_cons]
    by_cases hx : x = a
    · subst hx; simp
    · by_cases h : a + 1 ≤ x ∧ x < a + 1 + r.length
      · have h' : a ≤ x ∧ x < a + (r.length + 1) := by omega
        rw [if_pos h, if_pos h', show x - a = (x - (a + 1)) + 1 by omega]
        simp
      · have h' : ¬ (a ≤ x ∧ x < a + (r.length + 1)) := by omega
        rw [if_neg h, if_neg h', if_neg hx]

end Sys2Proof.Laws
end

