-- ==== Sys2Proof/Laws/Sound.lean ====
section
/-! SUPPORT. What every command keeps in order: the queue stays as it was, DRAM stays in its canonical form, and the seal
counter and the rollback counters never fall. Here for the operations that write those parts of the state. -/

namespace Sys2Proof.Laws
open Sys2Proof Sys2Proof.Machine

/-- A new state keeps the queue, the canonical form of DRAM, and counters that only rise. -/
structure Sound (s t : State) : Prop where
  pending : t.pending = s.pending
  wf : Memory.wf s.dram.mem = true → Memory.wf t.dram.mem = true
  sealKept : s.islNv.sealCount ≤ t.islNv.sealCount
  rollback : ∀ k, s.otp.rollback.getD k 0 ≤ t.otp.rollback.getD k 0

theorem Sound.refl (s : State) : Sound s s := ⟨rfl, id, Nat.le_refl _, fun _ => Nat.le_refl _⟩

theorem Sound.trans {s t u : State} (h : Sound s t) (k : Sound t u) : Sound s u :=
  ⟨k.pending.trans h.pending, fun w => k.wf (h.wf w), Nat.le_trans h.sealKept k.sealKept, fun n => Nat.le_trans (h.rollback n) (k.rollback n)⟩

/-- A state that keeps is sound. -/
theorem Sound.of_kept {s t : State} (h : kept t = kept s) : Sound s t := by
  simp only [kept, Kept.mk.injEq] at h
  obtain ⟨h1, h2, h3, -, -, h6, -⟩ := h
  have hs : (quietNv t.islNv).sealCount = (quietNv s.islNv).sealCount := by rw [h3]
  exact ⟨h1, fun w => h6 ▸ w, Nat.le_of_eq hs.symm, fun _ => h2 ▸ Nat.le_refl _⟩

theorem Sound.foldl {α : Type} (g : State → α → State) (l : List α) (s : State) (h : ∀ u x, Sound u (g u x)) :
    Sound s (l.foldl g s) := by
  induction l generalizing s with
  | nil => exact Sound.refl s
  | cons a r ih => exact (h s a).trans (ih _)

/-! ### DRAM -/

/-- A change of the DRAM controller that keeps the canonical form is sound. -/
theorem modDram_sound (f : Dram → Dram) (s : State) (h : Memory.wf s.dram.mem = true → Memory.wf (f s.dram).mem = true) :
    Sound s (modDram f s) := ⟨rfl, h, Nat.le_refl _, fun _ => Nat.le_refl _⟩

theorem readChecked_sound (c a : Nat) (errs : List Nat) (s : State) : Sound s (readChecked c a errs s) := by
  unfold readChecked
  split
  · exact Sound.refl s
  · exact (modDram_sound _ s (putDrams_wf _ _)).trans (Sound.of_kept (noteCorrected_kept _ _))
  · exact Sound.of_kept (noteUncorrectable_kept _ _)

theorem finishRead_sound (c : Nat) (r : DramReq) (errs : List Nat) (s : State) : Sound s (finishRead c r errs s) := by
  have h := (Sound.of_kept (useCheck_kept c (burstOf r.addr) false s)).trans (readChecked_sound c (burstOf r.addr) errs _)
  unfold finishRead
  extract_lets a bad l t
  have ht : Sound s t := h.trans (Sound.of_kept (modChan18_kept _ _ _))
  split
  · exact ht.trans (Sound.of_kept (poisoned_kept _ _ _))
  · exact ht

theorem finishWrite_sound (c : Nat) (r : DramReq) (l : List Byte) (errs : List Nat) (s : State) :
    Sound s (finishWrite c r l errs s) := by
  unfold finishWrite
  extract_lets a u bad t
  have hu : Sound s u := Sound.of_kept (useCheck_kept _ _ _ _)
  split
  · exact hu.trans (modDram_sound _ _ (putDrams_wf _ _))
  · exact (hu.trans (readChecked_sound c a errs u)).trans (modDram_sound _ _ (putDrams_wf _ _))

theorem endRequest_sound (ch : Nat) (r : DramReq) (errs : List Nat) (s : State) : Sound s (endRequest ch r errs s) := by
  unfold endRequest
  extract_lets t
  have ht : Sound s t := Sound.of_kept (by simp [t])
  refine Sound.trans (ht.trans ?_) (Sound.of_kept (admitStalled_kept _ _))
  cases r.data with
  | none => exact finishRead_sound _ _ _ _
  | some l => exact finishWrite_sound _ _ _ _ _

theorem drainChan_sound (ch n : Nat) (s : State) : Sound s (drainChan ch n s) := by
  induction n generalizing s with
  | zero => exact Sound.refl s
  | succ k ih =>
    unfold drainChan
    split
    · exact (endRequest_sound _ _ _ _).trans (ih _)
    · exact Sound.refl s

theorem enterSelfRefresh_sound (s : State) : Sound s (enterSelfRefresh s) := by
  unfold enterSelfRefresh
  extract_lets t
  have ht : Sound s t := Sound.foldl _ _ _ fun u c => drainChan_sound c _ u
  clear_value t
  exact ht.trans (modDram_sound _ t id)

theorem execDramRequestComplete_sound (ch id : Nat) (errs : List Nat) (s t : State)
    (h : execDramRequestComplete ch id errs s = .next t) : Sound s t := by
  cases h
  cases nextRequest ch s with
  | none => exact Sound.refl s
  | some r =>
    dsimp only
    split
    · exact Sound.refl s
    · exact endRequest_sound _ _ _ _

theorem scrubBurst_sound (ch a : Nat) (errs : List Nat) (s : State) : Sound s (scrubBurst ch a errs s) := by
  unfold scrubBurst
  dsimp only
  split
  · exact (readChecked_sound _ _ _ _).trans (modDram_sound _ _ id)
  · exact readChecked_sound _ _ _ _

theorem scrubCheck_sound (ch chunk : Nat) (errs : List Nat) (s : State) : Sound s (scrubCheck ch chunk errs s) := by
  refine Sound.foldl _ _ s fun u j => ?_
  dsimp only
  split
  · exact Sound.refl u
  · exact scrubBurst_sound _ _ _ _

theorem execScrubStep_sound (ch : Nat) (errs : List Nat) (s t : State) (h : execScrubStep ch errs s = .next t) : Sound s t := by
  cases h
  dsimp only
  split
  · exact Sound.refl s
  · have ht := Sound.of_kept (modChan18_kept ch (fun y => { y with scrub := (y.scrub + 1) % chanBursts s.cfg.accepted }) s)
    split
    · exact ht.trans (scrubCheck_sound _ _ _ _)
    · exact ht.trans (scrubBurst_sound _ _ _ _)

theorem trainDram_sound (ok : List Bool) (s : State) : Sound s (trainDram ok s) :=
  (modDram_sound (fun d => { d with mem := [], poison := [] }) s fun _ => rfl).trans
    (Sound.foldl _ _ _ fun u c => by split <;> exact Sound.of_kept (by simp))

/-! ### Entry into the suspended state -/

theorem completeSuspend_sound (s : State) : Sound s (completeSuspend s) := by
  unfold completeSuspend
  extract_lets t u
  have ht : Sound s t := (Sound.of_kept (by simp)).trans (enterSelfRefresh_sound _)
  exact ht.trans (Sound.of_kept (by simp [u]))

theorem settle_sound (s : State) : Sound s (settle s) := by
  unfold settle
  split
  · exact Sound.refl s
  split
  · exact Sound.of_kept (by simp)
  split
  · exact completeSuspend_sound s
  · exact Sound.refl s

theorem execTodTick_sound (n : Nat) (s t : State) (h : execTodTick n s = .next t) : Sound s t := by
  cases h
  exact (Sound.of_kept (passTicks_kept n s)).trans (settle_sound _)

/-! ### Resets and starts -/

theorem resetAll_sound (s : State) : Sound s (resetAll s) := ⟨rfl, fun _ => rfl, Nat.le_refl _, fun _ => Nat.le_refl _⟩

theorem beginStart_sound (n : Nat) (s : State) : Sound s (beginStart n s) :=
  (resetAll_sound s).trans ⟨rfl, id, Nat.le_refl _, fun _ => Nat.le_refl _⟩

theorem restartDevice_sound (s : State) : Sound s (restartDevice s) :=
  ⟨rfl, fun _ => rfl, Nat.le_refl _, fun _ => Nat.le_refl _⟩

/-- A state that differs from a sound one only outside the kept parts and in the settings and the boot NVM. -/
theorem Sound.of_eq {s t : State} (h1 : t.pending = s.pending) (h2 : t.dram.mem = s.dram.mem) (h3 : t.islNv = s.islNv)
    (h4 : t.otp = s.otp) : Sound s t :=
  ⟨h1, fun w => h2 ▸ w, h3 ▸ Nat.le_refl _, fun _ => h4 ▸ Nat.le_refl _⟩

theorem modCfg_sound (f : Cfg → Cfg) (s : State) : Sound s (modCfg f s) := Sound.of_eq rfl rfl rfl rfl

theorem verifyRegion_sound (k : Nat) (b : Bool) (s : State) : Sound s (verifyRegion k b s).2 := by
  unfold verifyRegion
  extract_lets r c t
  have ht : Sound s t := Sound.of_eq rfl rfl rfl rfl
  split
  · exact ht
  · exact ht.trans (Sound.of_kept (by simp))

theorem appendSlot_sound (r : SlotRec) (s : State) : Sound s (appendSlot r s) := Sound.of_eq rfl rfl rfl rfl

theorem setSlot_sound (k : Nat) (f : SlotRec → SlotRec) (s : State) : Sound s (setSlot k f s) := by
  unfold setSlot
  dsimp only
  split
  · exact Sound.of_eq rfl rfl rfl rfl
  · exact Sound.refl s

theorem chooseSlot_sound (k : Nat) (s : State) : Sound s (chooseSlot k s).2 := by
  unfold chooseSlot
  split
  · exact Sound.refl s
  · split
    · exact Sound.refl s
    · split
      · exact setSlot_sound _ _ _
      · exact (appendSlot_sound _ s).trans (Sound.of_kept (raise_kept _ _ _ _ _))

theorem loadStore_sound (s : State) : Sound s (loadStore s) := by
  have h := verifyRegion_sound 4 false s
  unfold loadStore
  split
  next ok t e =>
    rw [e] at h
    split
    · exact h.trans (Sound.of_kept (by simp))
    · exact h.trans (Sound.of_kept (by simp))

theorem loadImages_sound (dramTrained : List Bool) (r : Bool) (s : State) : Sound s (loadImages dramTrained r s).2.2 := by
  unfold loadImages
  extract_lets t1 t2 t3 t4
  have h1 : Sound s t1 := verifyRegion_sound _ _ _
  have h2 : Sound s t2 := h1.trans (verifyRegion_sound _ _ _)
  have h3 : Sound s t3 := (h2.trans (Sound.of_kept (modHf_kept _ _))).trans (loadStore_sound _)
  have h4 : Sound s t4 := by
    simp only [t4]
    split
    · exact h3.trans (Sound.of_kept (by simp))
    · exact h3
  have h5 := h4.trans (chooseSlot_sound 2 t4)
  split
  next b t e =>
    rw [e] at h5
    have h6 := (h5.trans (verifyRegion_sound 2 b t)).trans (verifyRegion_sound 3 false _)
    exact ((h6.trans (Sound.of_kept (modIsl_kept _ _))).trans (trainDram_sound dramTrained _)).trans (verifyRegion_sound 5 false _)

theorem Sound.ite {s t u : State} {c : Prop} [Decidable c] (h : Sound s t) (k : Sound s u) : Sound s (if c then t else u) := by
  split
  · exact h
  · exact k

theorem enterConfigError_sound (s : State) : Sound s (enterConfigError s) := Sound.of_eq rfl rfl rfl rfl

theorem stopStart_sound (code inst : Nat) (ds : List Nat) (s : State) : Sound s (stopStart code inst ds s) :=
  Sound.trans (Sound.of_kept (raise_kept _ _ _ _ _)) (enterConfigError_sound _)

theorem admitStart_sound (s : State) : Sound s (admitStart s) := by
  unfold admitStart
  extract_lets role w ts fails rings short t1 t2
  have h2 : Sound s t2 := Sound.of_kept (by simp [t2, t1])
  exact Sound.ite (h2.trans (Sound.of_eq rfl rfl rfl rfl)) (h2.trans (enterConfigError_sound _))

theorem checkStart_sound (rs : List Rec) (s : State) : Sound s (checkStart rs s) := by
  unfold checkStart
  extract_lets role t1 full t w bad
  have h : Sound s t := Sound.trans (t := t1) (Sound.of_eq rfl rfl rfl rfl) (modCfg_sound _ _)
  refine Sound.ite (h.trans (admitStart_sound _)) (h.trans (Sound.trans ?_ (enterConfigError_sound _)))
  exact Sound.of_kept (by simp)

theorem startRecords_sound (b : Bool) (s : State) : Sound s (startRecords b s) := by
  unfold startRecords
  extract_lets body q t digest reason perr
  have ht : Sound s t := modCfg_sound _ _
  refine Sound.ite (ht.trans (stopStart_sound _ _ _ _)) ?_
  generalize perr = e
  cases e with
  | some e => exact ht.trans (stopStart_sound _ _ _ _)
  | none =>
    cases recordError body with
    | some o => exact ht.trans (stopStart_sound _ _ _ _)
    | none => exact ht.trans (checkStart_sound _ _)

theorem agree_sound (b : Bool) (r : Nat) (ok : Bool) (s : State) : Sound s (agree b r ok s) := by
  unfold agree
  exact Sound.ite (Sound.of_eq rfl rfl rfl rfl) (Sound.ite (stopStart_sound _ _ _ s) (Sound.ite (enterConfigError_sound s)
    (Sound.ite (stopStart_sound _ _ _ s) (Sound.ite (stopStart_sound _ _ _ s) (Sound.ite (stopStart_sound _ _ _ s)
    (startRecords_sound b s))))))

theorem execStartUp_sound (d : List Bool) (r : Bool) (s t : State) (h : execStartUp d r s = .next t) : Sound s t := by
  unfold execStartUp at h
  injection h with h
  subst h
  refine Sound.ite (Sound.refl s) ?_
  have h0 := chooseSlot_sound 1 s
  cases hb : chooseSlot 1 s with
  | mk b t =>
    rw [hb] at h0
    dsimp only
    refine Sound.ite (h0.trans (Sound.of_eq rfl rfl rfl rfl)) ?_
    refine Sound.trans ?_ (agree_sound _ _ _ _)
    refine Sound.trans ?_ (loadImages_sound _ _ _)
    exact h0.trans (modCfg_sound _ _)

/-! ### The island -/

theorem islandLog_sound (c : Nat) (ws : List Nat) (s : State) : Sound s (islandLog c ws s) :=
  ⟨rfl, id, Nat.le_refl _, fun _ => Nat.le_refl _⟩

theorem verifyCal_sound (s : State) : Sound s (verifyCal s) := by
  unfold verifyCal
  extract_lets ok t
  have ht : Sound s t := Sound.trans (Sound.of_kept (by simp)) (islandLog_sound _ _ _)
  split
  · exact ht
  · exact ht.trans (Sound.of_kept (by simp))

theorem sealAtStart_sound (b : Bool) (d : List Byte) (s : State) : Sound s (sealAtStart b d s) := by
  refine ⟨rfl, id, ?_, fun _ => Nat.le_refl _⟩
  show s.islNv.sealCount ≤ if b then s.islNv.sealCount + 1 else s.islNv.sealCount
  split <;> omega

theorem islandStart_sound (fw : Option (List Byte)) (p : Bool) (s : State) : Sound s (islandStart fw p s) := by
  have hi : Sound s { s with isl := {} } := Sound.of_kept rfl
  unfold islandStart
  dsimp only
  split
  · exact hi.trans (Sound.of_kept (raise_kept _ _ _ _ _))
  · split
    · exact hi.trans (Sound.of_kept (raise_kept _ _ _ _ _))
    · refine Sound.trans ?_ (Sound.of_kept (signAll_kept _ _ _ _))
      refine Sound.trans ?_ (verifyCal_sound _)
      refine Sound.trans ?_ (Sound.of_kept (modIsl_kept _ _))
      refine Sound.trans (hi.trans (sealAtStart_sound _ _ _)) (Sound.ite ?_ (Sound.refl _))
      exact (islandLog_sound _ _ _).trans (Sound.of_kept (raise_kept _ _ _ _ _))

/-! ### What the island's own starts leave of the kept parts -/

/-- The kept part of a state without the island's non-volatile memory. -/
def keptNv (s : State) : Kept := { kept s with islNv := {} }

theorem keptNv_of {s t : State} (h : kept t = kept s) : keptNv t = keptNv s :=
  congrArg (fun k : Kept => { k with islNv := {} }) h

theorem verifyCal_keptNv (s : State) : keptNv (verifyCal s) = keptNv s := by
  unfold verifyCal
  extract_lets ok t
  have ht : keptNv t = keptNv s :=
    (show keptNv t = keptNv (modIsl (fun i => { i with calOk := ok }) (drawOne s)) from rfl).trans
      (keptNv_of ((modIsl_kept _ _).trans (drawOne_kept s)))
  split
  · exact ht
  · exact (keptNv_of (raise_kept _ _ _ _ _)).trans ht

theorem islandStart_keptNv (fw : Option (List Byte)) (p : Bool) (s : State) : keptNv (islandStart fw p s) = keptNv s := by
  unfold islandStart
  dsimp only
  split
  · exact keptNv_of (raise_kept _ _ _ _ _)
  · split
    · exact keptNv_of (raise_kept _ _ _ _ _)
    · refine (keptNv_of (signAll_kept _ _ _ _)).trans ((verifyCal_keptNv _).trans ((keptNv_of (modIsl_kept _ _)).trans ?_))
      split
      · exact (keptNv_of (raise_kept _ _ _ _ _)).trans rfl
      · rfl

theorem execPpsInEdge_sound (stamp : Tod) (s t : State) (h : execPpsInEdge stamp s = .next t) : Sound s t := by
  unfold execPpsInEdge at h
  injection h with h
  subst h
  dsimp only
  split
  · exact Sound.refl s
  split
  · exact Sound.of_kept (modIsl_kept _ _)
  · exact Sound.trans (Sound.of_kept (modIsl_kept _ _)) (islandLog_sound _ _ _)

theorem endSurvey_sound (s : State) : Sound s (endSurvey s) := by
  unfold endSurvey
  split
  · exact verifyCal_sound s
  · exact Sound.refl s

theorem execSurveyItemComplete_sound (i : Nat) (o : SurveyObs) (s t : State) (h : execSurveyItemComplete i o s = .next t) :
    Sound s t := by
  unfold execSurveyItemComplete at h
  injection h with h
  subst h
  split
  · exact Sound.refl s
  · dsimp only
    split <;> exact Sound.trans (Sound.of_kept (by simp)) (endSurvey_sound _)

theorem roleStart_sound (s : State) : Sound s (roleStart s) := by
  unfold roleStart
  extract_lets d s1 s2 s3
  have h1 : Sound s s1 := Sound.of_eq rfl rfl rfl rfl
  have h2 : Sound s s2 := h1.trans (Sound.trans (t := resetBlocks s1) (Sound.of_eq rfl rfl rfl rfl) (Sound.of_eq rfl rfl rfl rfl))
  have h3 : Sound s s3 := h2.trans (islandStart_sound _ _ _)
  exact h3.trans (Sound.of_kept (by simp))

theorem execRoleStart_sound (s t : State) (h : execRoleStart s = .next t) : Sound s t := by
  unfold execRoleStart at h
  injection h with h
  subst h
  split
  · exact roleStart_sound s
  · exact Sound.refl s

/-! ### Sensor bring-up and the error queue -/

theorem trainAtStart_sound (p : Nat) (obs : TrainObs) (s : State) : Sound s (trainAtStart p obs s) := by
  unfold trainAtStart
  extract_lets s1 m t
  have h1 : Sound s s1 := Sound.of_kept (by simp [s1])
  have ht : Sound s t := h1.trans (Sound.of_kept (by simp [t]))
  refine Sound.ite (Sound.trans (ht.trans ?_) (enterConfigError_sound _)) (ht.trans (Sound.of_kept (by simp)))
  exact Sound.of_kept (by simp)

theorem execPortBringUp_sound (p : Nat) (obs : TrainObs) (s t : State) (h : execPortBringUp p obs s = .next t) : Sound s t := by
  unfold execPortBringUp at h
  injection h with h
  subst h
  refine Sound.ite (Sound.refl s) (Sound.ite (Sound.ite ?_ ?_) (Sound.ite ?_ (Sound.refl s)))
  · exact Sound.trans (Sound.of_kept (by simp)) (trainAtStart_sound _ _ _)
  · exact Sound.of_kept (by simp)
  · exact Sound.of_kept (by simp)

theorem execSensorClockTimeout_sound (p : Nat) (s t : State) (h : execSensorClockTimeout p s = .next t) : Sound s t := by
  unfold execSensorClockTimeout at h
  injection h with h
  subst h
  refine Sound.ite (Sound.trans ?_ (enterConfigError_sound _)) (Sound.refl s)
  exact Sound.of_kept (by simp)

theorem endFatal_sound (s : State) : Sound s (endFatal s) := Sound.of_eq rfl rfl rfl rfl

theorem fatalAction_sound (i : Nat) (e : ErrEntry) (last : Bool) (s : State) : Sound s (fatalAction i e last s) := by
  unfold fatalAction
  extract_lets t u
  have ht : Sound s t := Sound.of_kept (by simp [t])
  have hu : Sound s u := Sound.ite (ht.trans (Sound.of_kept (by simp))) ht
  exact Sound.ite ht (Sound.ite (hu.trans (endFatal_sound _)) hu)

theorem execErrorAction_sound (last : Bool) (s t : State) (h : execErrorAction last s = .next t) : Sound s t := by
  unfold execErrorAction at h
  injection h with h
  subst h
  refine Sound.ite (Sound.refl s) ?_
  repeat' split
  all_goals first | exact Sound.refl s | exact fatalAction_sound _ _ _ _ | exact Sound.of_kept (by simp)

/-! ### OTP and boot NVM -/

theorem applyOtp_rollback (w : OtpWrite) (o : Otp) (k : Nat) : o.rollback.getD k 0 ≤ (applyOtp w o).rollback.getD k 0 := by
  unfold applyOtp
  split <;> try exact Nat.le_refl _
  next j v =>
    simp only [modAt, List.getD_eq_getElem?_getD, List.getElem?_modify]
    cases o.rollback[k]? with
    | none => simp
    | some x => by_cases hj : j = k <;> simp [hj]

theorem modOtp_sound (f : Otp → Otp) (s : State) (h : ∀ k, s.otp.rollback.getD k 0 ≤ (f s.otp).rollback.getD k 0) :
    Sound s (modOtp f s) := ⟨rfl, id, Nat.le_refl _, h⟩

theorem execOtpWriteComplete_sound (ok : Bool) (s t : State) (h : execOtpWriteComplete ok s = .next t) : Sound s t := by
  unfold execOtpWriteComplete at h
  injection h with h
  subst h
  split
  · exact Sound.refl s
  · next w r _ =>
    extract_lets t u
    have ht : Sound s t := modOtp_sound _ _ fun _ => Nat.le_refl _
    have hu : Sound s u := ht.trans (modOtp_sound _ _ (applyOtp_rollback w _))
    split
    · exact ht.trans (Sound.of_kept (raise_kept _ _ _ _ _))
    · split
      · exact hu.trans (Sound.of_kept (raise_kept _ _ _ _ _))
      · exact hu

theorem queueOtp_sound (w : OtpWrite) (s : State) : Sound s (queueOtp w s) := modOtp_sound _ _ fun _ => Nat.le_refl _

theorem storeImage_sound (u : Update) (s : State) : Sound s (storeImage u s) := by
  unfold storeImage
  extract_lets b v slot n
  split
  · exact Sound.of_eq rfl rfl rfl rfl
  · exact Sound.of_eq rfl rfl rfl rfl
  all_goals exact Sound.of_eq rfl rfl rfl rfl

theorem execUpdateWriteComplete_sound (ok : Bool) (s t : State) (h : execUpdateWriteComplete ok s = .next t) : Sound s t := by
  unfold execUpdateWriteComplete at h
  injection h with h
  subst h
  dsimp only
  repeat' split
  · exact Sound.refl s
  · exact (storeImage_sound _ _).trans (Sound.of_kept (modUpd_kept _ _))
  · exact Sound.of_kept (by simp)

theorem execBootConfirmation_sound (s t : State) (h : execBootConfirmation s = .next t) : Sound s t := by
  unfold execBootConfirmation at h
  injection h with h
  subst h
  split
  · exact Sound.refl s
  · extract_lets t1 n t2 ws
    have h1 : Sound s t1 := (setSlot_sound _ _ _).trans (setSlot_sound _ _ _)
    have h2 : Sound s t2 := by
      simp only [t2]
      split
      · exact h1.trans (Sound.of_eq rfl rfl rfl rfl)
      · exact h1
    exact h2.trans ⟨rfl, id, Nat.le_refl _, fun _ => Nat.le_refl _⟩

/-! ### The messages that write those parts -/

/-- The effect of a message is sound. -/
def ActSound (x : MsgDef) : Prop := ∀ r tok u, Sound u (x.act r tok u).2

@[simp] theorem followBalance_kept (s : State) : kept (followBalance s) = kept s := by
  unfold followBalance
  exact kept_foldl _ _ _ fun u n => by simp

theorem changeSettings_sound (l : List (Nat × Nat × Nat × Nat)) (commit : State → State) (s : State)
    (hc : ∀ u, Sound u (commit u)) : Sound s (changeSettings l commit s).2 := by
  unfold changeSettings
  extract_lets w role busy enc adm other
  repeat' split
  all_goals first | exact ((modCfg_sound _ _).trans (Sound.of_kept (followBalance_kept _))).trans (hc _) | exact Sound.of_kept (by simp)

theorem settingsWriteMsg_sound : ActSound settingsWriteMsg := by
  intro r tok u
  simp only [settingsWriteMsg]
  split
  · exact Sound.refl u
  · exact changeSettings_sound _ _ _ fun v => Sound.refl v

theorem profileSelectMsg_sound : ActSound profileSelectMsg := by
  intro r tok u
  simp only [profileSelectMsg]
  repeat' split
  · exact Sound.refl u
  · exact Sound.refl u
  · exact changeSettings_sound _ _ _ fun v => Sound.of_eq rfl rfl rfl rfl

theorem restartMsg_sound : ActSound restartMsg := by
  intro r tok u
  simp only [restartMsg]
  split
  · exact Sound.refl u
  · exact restartDevice_sound u

theorem verifyCalMsg_sound : ActSound verifyCalMsg := fun _ _ u => verifyCal_sound u

theorem islandSettingsMsg_sound : ActSound islandSettingsMsg := by
  intro r tok u
  simp only [islandSettingsMsg]
  split
  · exact Sound.of_kept (by simp)
  · exact Sound.trans (Sound.of_kept (signAll_kept 4 false (portSeams u) u)) ⟨rfl, id, Nat.le_refl _, fun _ => Nat.le_refl _⟩

theorem keyInstallMsg_sound : ActSound keyInstallMsg := by
  intro r tok u
  simp only [keyInstallMsg]
  repeat' split
  · exact Sound.refl u
  · exact Sound.refl u
  · exact queueOtp_sound _ _

theorem keyRevokeMsg_sound : ActSound keyRevokeMsg := by
  intro r tok u
  simp only [keyRevokeMsg]
  repeat' split
  all_goals first | exact Sound.refl u | exact queueOtp_sound _ _

theorem debugUnlockMsg_sound : ActSound debugUnlockMsg := by
  intro r tok u
  simp only [debugUnlockMsg]
  all_goals first | exact Sound.refl u | exact queueOtp_sound _ _

/-- Every message of the index is sound. -/
theorem msgDef_sound {c : Nat} {x : MsgDef} (h : msgDef c = some x) : ActSound x := by
  by_cases hc : c ∈ writers
  · simp only [writers, List.mem_cons, List.not_mem_nil, or_false] at hc
    rcases hc with rfl | rfl | rfl | rfl | rfl | rfl | rfl | rfl
    · cases (show some profileSelectMsg = some x from h); exact profileSelectMsg_sound
    · cases (show some restartMsg = some x from h); exact restartMsg_sound
    · cases (show some settingsWriteMsg = some x from h); exact settingsWriteMsg_sound
    · cases (show some verifyCalMsg = some x from h); exact verifyCalMsg_sound
    · cases (show some islandSettingsMsg = some x from h); exact islandSettingsMsg_sound
    · cases (show some keyInstallMsg = some x from h); exact keyInstallMsg_sound
    · cases (show some keyRevokeMsg = some x from h); exact keyRevokeMsg_sound
    · cases (show some debugUnlockMsg = some x from h); exact debugUnlockMsg_sound
  · exact fun r tok u => Sound.of_kept (msgDef_kept h hc r tok u)

theorem runReq_sound (c : Nat) (r : Req) (tok : Option Bool) (s : State) : Sound s (runReq (msgDef c) r tok s).2 := by
  unfold runReq
  split
  · exact Sound.refl s
  · next d hd =>
    repeat' split
    all_goals first | exact msgDef_sound hd _ _ _ | exact Sound.of_kept (by simp)

theorem complete_sound (c : Nat) (r : Req) (tok : Option Bool) (s : State) : Sound s (complete (msgDef c) r tok s) :=
  (runReq_sound c r tok s).trans (Sound.of_kept (by simp [complete]))

theorem takePart_sound (r : Req) (s : State) : Sound s (takePart msgDef r s) := by
  unfold takePart
  split
  · exact Sound.of_kept (by simp)
  · dsimp only
    repeat' split
    · exact Sound.of_kept (by simp)
    · exact Sound.of_kept (by simp)
    · exact Sound.trans (Sound.of_kept (by simp)) (complete_sound _ _ _ _)

theorem takeMsg_sound (c : Nat) (r : Req) (s : State) : Sound s (takeMsg (msgDef c) r s) := by
  unfold takeMsg
  dsimp only
  split
  · exact Sound.of_kept (by simp)
  · exact Sound.trans (Sound.of_kept (by simp)) (complete_sound _ _ _ _)

/-- Every row of messages is sound. -/
theorem runRow_sound (mine : Req → Bool) (c : Nat) (s t : State) (h : runRow mine c s = .next t) : Sound s t := by
  cases h
  have h0 : Sound s (screen msgDef c 8 s) := Sound.of_kept (by simp)
  unfold runHead
  dsimp only
  split
  · refine Sound.ite ?_ h0
    refine Sound.trans ?_ (Sound.of_kept (screen_kept _ _ _ _))
    refine Sound.trans ?_ (takeMsg_sound _ _ _)
    exact h0.trans (Sound.of_kept (by simp))
  · exact h0

theorem execTokenPart_sound (c : Nat) (s t : State) (h : execTokenPart c s = .next t) : Sound s t := by
  have h0 : Sound s (screen msgDef c 8 s) := Sound.of_kept (by simp)
  unfold execTokenPart at h
  injection h with h
  subst h
  split
  · refine Sound.ite ?_ h0
    refine Sound.trans ?_ (Sound.of_kept (screen_kept _ _ _ _))
    refine Sound.trans ?_ (takePart_sound _ _)
    exact h0.trans (Sound.of_kept (by simp))
  · exact h0

/-- Every row of a message that may open a token sequence is sound. -/
theorem runPriv_sound (k c : Nat) (s t : State) (h : runPriv k c s = .next t) : Sound s t := by
  unfold runPriv at h
  split at h
  · exact execTokenPart_sound c s t h
  · exact runRow_sound _ c s t h

theorem execArrayDatagram_sound (m : Nat) (p ws : List Word) (s t : State) (h : execArrayDatagram m p ws s = .next t) : Sound s t := by
  unfold execArrayDatagram at h
  injection h with h
  subst h
  repeat' split
  · exact Sound.refl s
  · exact runReq_sound _ _ _ _
  · exact Sound.of_kept (by simp)

theorem runEntryMsg_sound (e : Sched) (s : State) : Sound s (runEntryMsg e s) := by
  unfold runEntryMsg
  extract_lets r d s1
  have h1 : Sound s s1 := Sound.of_kept (by simp [s1])
  have h2 := h1.trans (runReq_sound r.code r none s1)
  split
  next a t e =>
    rw [show (msgDef r.code) = d from rfl, e] at h2
    split <;> exact h2.trans (Sound.of_kept (by simp))

theorem execScheduledCommandDue_sound (s t : State) (h : execScheduledCommandDue s = .next t) : Sound s t := by
  unfold execScheduledCommandDue at h
  injection h with h
  subst h
  split
  · exact Sound.refl s
  · dsimp only
    repeat' split
    · exact Sound.of_kept (by simp)
    · exact Sound.refl s
    · exact Sound.trans (Sound.of_kept (by simp)) (runEntryMsg_sound _ _)
    · exact Sound.trans (Sound.of_kept (by simp)) (runEntryMsg_sound _ _)

end Sys2Proof.Laws
end

