-- ==== Sys2Proof/Laws/State.lean ====
section
/-! SUPPORT. What each update of one block of the state leaves in every field. -/

namespace Sys2Proof.Laws
open Sys2Proof Sys2Proof.Machine

@[simp] theorem modCodec_pending (f : Codec → Codec) (s : State) : (modCodec f s).pending = s.pending := rfl
@[simp] theorem modCodec_dev (f : Codec → Codec) (s : State) : (modCodec f s).dev = s.dev := rfl
@[simp] theorem modCodec_otp (f : Codec → Codec) (s : State) : (modCodec f s).otp = s.otp := rfl
@[simp] theorem modCodec_nvm (f : Codec → Codec) (s : State) : (modCodec f s).nvm = s.nvm := rfl
@[simp] theorem modCodec_cfg (f : Codec → Codec) (s : State) : (modCodec f s).cfg = s.cfg := rfl
@[simp] theorem modCodec_log (f : Codec → Codec) (s : State) : (modCodec f s).log = s.log := rfl
@[simp] theorem modCodec_err (f : Codec → Codec) (s : State) : (modCodec f s).err = s.err := rfl
@[simp] theorem modCodec_mbx (f : Codec → Codec) (s : State) : (modCodec f s).mbx = s.mbx := rfl
@[simp] theorem modCodec_hf (f : Codec → Codec) (s : State) : (modCodec f s).hf = s.hf := rfl
@[simp] theorem modCodec_pwr (f : Codec → Codec) (s : State) : (modCodec f s).pwr = s.pwr := rfl
@[simp] theorem modCodec_time (f : Codec → Codec) (s : State) : (modCodec f s).time = s.time := rfl
@[simp] theorem modCodec_cap (f : Codec → Codec) (s : State) : (modCodec f s).cap = s.cap := rfl
@[simp] theorem modCodec_lanes (f : Codec → Codec) (s : State) : (modCodec f s).lanes = s.lanes := rfl
@[simp] theorem modCodec_plls (f : Codec → Codec) (s : State) : (modCodec f s).plls = s.plls := rfl
@[simp] theorem modCodec_links (f : Codec → Codec) (s : State) : (modCodec f s).links = s.links := rfl
@[simp] theorem modCodec_red (f : Codec → Codec) (s : State) : (modCodec f s).red = s.red := rfl
@[simp] theorem modCodec_comp (f : Codec → Codec) (s : State) : (modCodec f s).comp = s.comp := rfl
@[simp] theorem modCodec_codec (f : Codec → Codec) (s : State) : (modCodec f s).codec = f s.codec := rfl
@[simp] theorem modCodec_rcd (f : Codec → Codec) (s : State) : (modCodec f s).rcd = s.rcd := rfl
@[simp] theorem modCodec_ep (f : Codec → Codec) (s : State) : (modCodec f s).ep = s.ep := rfl
@[simp] theorem modCodec_out (f : Codec → Codec) (s : State) : (modCodec f s).out = s.out := rfl
@[simp] theorem modCodec_dram (f : Codec → Codec) (s : State) : (modCodec f s).dram = s.dram := rfl
@[simp] theorem modCodec_isl (f : Codec → Codec) (s : State) : (modCodec f s).isl = s.isl := rfl
@[simp] theorem modCodec_islNv (f : Codec → Codec) (s : State) : (modCodec f s).islNv = s.islNv := rfl
@[simp] theorem modCodec_drawn (f : Codec → Codec) (s : State) : (modCodec f s).drawn = s.drawn := rfl

@[simp] theorem modComp_pending (f : Comp → Comp) (s : State) : (modComp f s).pending = s.pending := rfl
@[simp] theorem modComp_dev (f : Comp → Comp) (s : State) : (modComp f s).dev = s.dev := rfl
@[simp] theorem modComp_otp (f : Comp → Comp) (s : State) : (modComp f s).otp = s.otp := rfl
@[simp] theorem modComp_nvm (f : Comp → Comp) (s : State) : (modComp f s).nvm = s.nvm := rfl
@[simp] theorem modComp_cfg (f : Comp → Comp) (s : State) : (modComp f s).cfg = s.cfg := rfl
@[simp] theorem modComp_log (f : Comp → Comp) (s : State) : (modComp f s).log = s.log := rfl
@[simp] theorem modComp_err (f : Comp → Comp) (s : State) : (modComp f s).err = s.err := rfl
@[simp] theorem modComp_mbx (f : Comp → Comp) (s : State) : (modComp f s).mbx = s.mbx := rfl
@[simp] theorem modComp_hf (f : Comp → Comp) (s : State) : (modComp f s).hf = s.hf := rfl
@[simp] theorem modComp_pwr (f : Comp → Comp) (s : State) : (modComp f s).pwr = s.pwr := rfl
@[simp] theorem modComp_time (f : Comp → Comp) (s : State) : (modComp f s).time = s.time := rfl
@[simp] theorem modComp_cap (f : Comp → Comp) (s : State) : (modComp f s).cap = s.cap := rfl
@[simp] theorem modComp_lanes (f : Comp → Comp) (s : State) : (modComp f s).lanes = s.lanes := rfl
@[simp] theorem modComp_plls (f : Comp → Comp) (s : State) : (modComp f s).plls = s.plls := rfl
@[simp] theorem modComp_links (f : Comp → Comp) (s : State) : (modComp f s).links = s.links := rfl
@[simp] theorem modComp_red (f : Comp → Comp) (s : State) : (modComp f s).red = s.red := rfl
@[simp] theorem modComp_comp (f : Comp → Comp) (s : State) : (modComp f s).comp = f s.comp := rfl
@[simp] theorem modComp_codec (f : Comp → Comp) (s : State) : (modComp f s).codec = s.codec := rfl
@[simp] theorem modComp_rcd (f : Comp → Comp) (s : State) : (modComp f s).rcd = s.rcd := rfl
@[simp] theorem modComp_ep (f : Comp → Comp) (s : State) : (modComp f s).ep = s.ep := rfl
@[simp] theorem modComp_out (f : Comp → Comp) (s : State) : (modComp f s).out = s.out := rfl
@[simp] theorem modComp_dram (f : Comp → Comp) (s : State) : (modComp f s).dram = s.dram := rfl
@[simp] theorem modComp_isl (f : Comp → Comp) (s : State) : (modComp f s).isl = s.isl := rfl
@[simp] theorem modComp_islNv (f : Comp → Comp) (s : State) : (modComp f s).islNv = s.islNv := rfl
@[simp] theorem modComp_drawn (f : Comp → Comp) (s : State) : (modComp f s).drawn = s.drawn := rfl

@[simp] theorem modDram_pending (f : Dram → Dram) (s : State) : (modDram f s).pending = s.pending := rfl
@[simp] theorem modDram_dev (f : Dram → Dram) (s : State) : (modDram f s).dev = s.dev := rfl
@[simp] theorem modDram_otp (f : Dram → Dram) (s : State) : (modDram f s).otp = s.otp := rfl
@[simp] theorem modDram_nvm (f : Dram → Dram) (s : State) : (modDram f s).nvm = s.nvm := rfl
@[simp] theorem modDram_cfg (f : Dram → Dram) (s : State) : (modDram f s).cfg = s.cfg := rfl
@[simp] theorem modDram_log (f : Dram → Dram) (s : State) : (modDram f s).log = s.log := rfl
@[simp] theorem modDram_err (f : Dram → Dram) (s : State) : (modDram f s).err = s.err := rfl
@[simp] theorem modDram_mbx (f : Dram → Dram) (s : State) : (modDram f s).mbx = s.mbx := rfl
@[simp] theorem modDram_hf (f : Dram → Dram) (s : State) : (modDram f s).hf = s.hf := rfl
@[simp] theorem modDram_pwr (f : Dram → Dram) (s : State) : (modDram f s).pwr = s.pwr := rfl
@[simp] theorem modDram_time (f : Dram → Dram) (s : State) : (modDram f s).time = s.time := rfl
@[simp] theorem modDram_cap (f : Dram → Dram) (s : State) : (modDram f s).cap = s.cap := rfl
@[simp] theorem modDram_lanes (f : Dram → Dram) (s : State) : (modDram f s).lanes = s.lanes := rfl
@[simp] theorem modDram_plls (f : Dram → Dram) (s : State) : (modDram f s).plls = s.plls := rfl
@[simp] theorem modDram_links (f : Dram → Dram) (s : State) : (modDram f s).links = s.links := rfl
@[simp] theorem modDram_red (f : Dram → Dram) (s : State) : (modDram f s).red = s.red := rfl
@[simp] theorem modDram_comp (f : Dram → Dram) (s : State) : (modDram f s).comp = s.comp := rfl
@[simp] theorem modDram_codec (f : Dram → Dram) (s : State) : (modDram f s).codec = s.codec := rfl
@[simp] theorem modDram_rcd (f : Dram → Dram) (s : State) : (modDram f s).rcd = s.rcd := rfl
@[simp] theorem modDram_ep (f : Dram → Dram) (s : State) : (modDram f s).ep = s.ep := rfl
@[simp] theorem modDram_out (f : Dram → Dram) (s : State) : (modDram f s).out = s.out := rfl
@[simp] theorem modDram_dram (f : Dram → Dram) (s : State) : (modDram f s).dram = f s.dram := rfl
@[simp] theorem modDram_isl (f : Dram → Dram) (s : State) : (modDram f s).isl = s.isl := rfl
@[simp] theorem modDram_islNv (f : Dram → Dram) (s : State) : (modDram f s).islNv = s.islNv := rfl
@[simp] theorem modDram_drawn (f : Dram → Dram) (s : State) : (modDram f s).drawn = s.drawn := rfl

@[simp] theorem modEp_pending (f : Endpoint → Endpoint) (s : State) : (modEp f s).pending = s.pending := rfl
@[simp] theorem modEp_dev (f : Endpoint → Endpoint) (s : State) : (modEp f s).dev = s.dev := rfl
@[simp] theorem modEp_otp (f : Endpoint → Endpoint) (s : State) : (modEp f s).otp = s.otp := rfl
@[simp] theorem modEp_nvm (f : Endpoint → Endpoint) (s : State) : (modEp f s).nvm = s.nvm := rfl
@[simp] theorem modEp_cfg (f : Endpoint → Endpoint) (s : State) : (modEp f s).cfg = s.cfg := rfl
@[simp] theorem modEp_log (f : Endpoint → Endpoint) (s : State) : (modEp f s).log = s.log := rfl
@[simp] theorem modEp_err (f : Endpoint → Endpoint) (s : State) : (modEp f s).err = s.err := rfl
@[simp] theorem modEp_mbx (f : Endpoint → Endpoint) (s : State) : (modEp f s).mbx = s.mbx := rfl
@[simp] theorem modEp_hf (f : Endpoint → Endpoint) (s : State) : (modEp f s).hf = s.hf := rfl
@[simp] theorem modEp_pwr (f : Endpoint → Endpoint) (s : State) : (modEp f s).pwr = s.pwr := rfl
@[simp] theorem modEp_time (f : Endpoint → Endpoint) (s : State) : (modEp f s).time = s.time := rfl
@[simp] theorem modEp_cap (f : Endpoint → Endpoint) (s : State) : (modEp f s).cap = s.cap := rfl
@[simp] theorem modEp_lanes (f : Endpoint → Endpoint) (s : State) : (modEp f s).lanes = s.lanes := rfl
@[simp] theorem modEp_plls (f : Endpoint → Endpoint) (s : State) : (modEp f s).plls = s.plls := rfl
@[simp] theorem modEp_links (f : Endpoint → Endpoint) (s : State) : (modEp f s).links = s.links := rfl
@[simp] theorem modEp_red (f : Endpoint → Endpoint) (s : State) : (modEp f s).red = s.red := rfl
@[simp] theorem modEp_comp (f : Endpoint → Endpoint) (s : State) : (modEp f s).comp = s.comp := rfl
@[simp] theorem modEp_codec (f : Endpoint → Endpoint) (s : State) : (modEp f s).codec = s.codec := rfl
@[simp] theorem modEp_rcd (f : Endpoint → Endpoint) (s : State) : (modEp f s).rcd = s.rcd := rfl
@[simp] theorem modEp_ep (f : Endpoint → Endpoint) (s : State) : (modEp f s).ep = f s.ep := rfl
@[simp] theorem modEp_out (f : Endpoint → Endpoint) (s : State) : (modEp f s).out = s.out := rfl
@[simp] theorem modEp_dram (f : Endpoint → Endpoint) (s : State) : (modEp f s).dram = s.dram := rfl
@[simp] theorem modEp_isl (f : Endpoint → Endpoint) (s : State) : (modEp f s).isl = s.isl := rfl
@[simp] theorem modEp_islNv (f : Endpoint → Endpoint) (s : State) : (modEp f s).islNv = s.islNv := rfl
@[simp] theorem modEp_drawn (f : Endpoint → Endpoint) (s : State) : (modEp f s).drawn = s.drawn := rfl

@[simp] theorem modErr_pending (f : ErrorQueue → ErrorQueue) (s : State) : (modErr f s).pending = s.pending := rfl
@[simp] theorem modErr_dev (f : ErrorQueue → ErrorQueue) (s : State) : (modErr f s).dev = s.dev := rfl
@[simp] theorem modErr_otp (f : ErrorQueue → ErrorQueue) (s : State) : (modErr f s).otp = s.otp := rfl
@[simp] theorem modErr_nvm (f : ErrorQueue → ErrorQueue) (s : State) : (modErr f s).nvm = s.nvm := rfl
@[simp] theorem modErr_cfg (f : ErrorQueue → ErrorQueue) (s : State) : (modErr f s).cfg = s.cfg := rfl
@[simp] theorem modErr_log (f : ErrorQueue → ErrorQueue) (s : State) : (modErr f s).log = s.log := rfl
@[simp] theorem modErr_err (f : ErrorQueue → ErrorQueue) (s : State) : (modErr f s).err = f s.err := rfl
@[simp] theorem modErr_mbx (f : ErrorQueue → ErrorQueue) (s : State) : (modErr f s).mbx = s.mbx := rfl
@[simp] theorem modErr_hf (f : ErrorQueue → ErrorQueue) (s : State) : (modErr f s).hf = s.hf := rfl
@[simp] theorem modErr_pwr (f : ErrorQueue → ErrorQueue) (s : State) : (modErr f s).pwr = s.pwr := rfl
@[simp] theorem modErr_time (f : ErrorQueue → ErrorQueue) (s : State) : (modErr f s).time = s.time := rfl
@[simp] theorem modErr_cap (f : ErrorQueue → ErrorQueue) (s : State) : (modErr f s).cap = s.cap := rfl
@[simp] theorem modErr_lanes (f : ErrorQueue → ErrorQueue) (s : State) : (modErr f s).lanes = s.lanes := rfl
@[simp] theorem modErr_plls (f : ErrorQueue → ErrorQueue) (s : State) : (modErr f s).plls = s.plls := rfl
@[simp] theorem modErr_links (f : ErrorQueue → ErrorQueue) (s : State) : (modErr f s).links = s.links := rfl
@[simp] theorem modErr_red (f : ErrorQueue → ErrorQueue) (s : State) : (modErr f s).red = s.red := rfl
@[simp] theorem modErr_comp (f : ErrorQueue → ErrorQueue) (s : State) : (modErr f s).comp = s.comp := rfl
@[simp] theorem modErr_codec (f : ErrorQueue → ErrorQueue) (s : State) : (modErr f s).codec = s.codec := rfl
@[simp] theorem modErr_rcd (f : ErrorQueue → ErrorQueue) (s : State) : (modErr f s).rcd = s.rcd := rfl
@[simp] theorem modErr_ep (f : ErrorQueue → ErrorQueue) (s : State) : (modErr f s).ep = s.ep := rfl
@[simp] theorem modErr_out (f : ErrorQueue → ErrorQueue) (s : State) : (modErr f s).out = s.out := rfl
@[simp] theorem modErr_dram (f : ErrorQueue → ErrorQueue) (s : State) : (modErr f s).dram = s.dram := rfl
@[simp] theorem modErr_isl (f : ErrorQueue → ErrorQueue) (s : State) : (modErr f s).isl = s.isl := rfl
@[simp] theorem modErr_islNv (f : ErrorQueue → ErrorQueue) (s : State) : (modErr f s).islNv = s.islNv := rfl
@[simp] theorem modErr_drawn (f : ErrorQueue → ErrorQueue) (s : State) : (modErr f s).drawn = s.drawn := rfl

@[simp] theorem modHf_pending (f : Headframe → Headframe) (s : State) : (modHf f s).pending = s.pending := rfl
@[simp] theorem modHf_dev (f : Headframe → Headframe) (s : State) : (modHf f s).dev = s.dev := rfl
@[simp] theorem modHf_otp (f : Headframe → Headframe) (s : State) : (modHf f s).otp = s.otp := rfl
@[simp] theorem modHf_nvm (f : Headframe → Headframe) (s : State) : (modHf f s).nvm = s.nvm := rfl
@[simp] theorem modHf_cfg (f : Headframe → Headframe) (s : State) : (modHf f s).cfg = s.cfg := rfl
@[simp] theorem modHf_log (f : Headframe → Headframe) (s : State) : (modHf f s).log = s.log := rfl
@[simp] theorem modHf_err (f : Headframe → Headframe) (s : State) : (modHf f s).err = s.err := rfl
@[simp] theorem modHf_mbx (f : Headframe → Headframe) (s : State) : (modHf f s).mbx = s.mbx := rfl
@[simp] theorem modHf_hf (f : Headframe → Headframe) (s : State) : (modHf f s).hf = f s.hf := rfl
@[simp] theorem modHf_pwr (f : Headframe → Headframe) (s : State) : (modHf f s).pwr = s.pwr := rfl
@[simp] theorem modHf_time (f : Headframe → Headframe) (s : State) : (modHf f s).time = s.time := rfl
@[simp] theorem modHf_cap (f : Headframe → Headframe) (s : State) : (modHf f s).cap = s.cap := rfl
@[simp] theorem modHf_lanes (f : Headframe → Headframe) (s : State) : (modHf f s).lanes = s.lanes := rfl
@[simp] theorem modHf_plls (f : Headframe → Headframe) (s : State) : (modHf f s).plls = s.plls := rfl
@[simp] theorem modHf_links (f : Headframe → Headframe) (s : State) : (modHf f s).links = s.links := rfl
@[simp] theorem modHf_red (f : Headframe → Headframe) (s : State) : (modHf f s).red = s.red := rfl
@[simp] theorem modHf_comp (f : Headframe → Headframe) (s : State) : (modHf f s).comp = s.comp := rfl
@[simp] theorem modHf_codec (f : Headframe → Headframe) (s : State) : (modHf f s).codec = s.codec := rfl
@[simp] theorem modHf_rcd (f : Headframe → Headframe) (s : State) : (modHf f s).rcd = s.rcd := rfl
@[simp] theorem modHf_ep (f : Headframe → Headframe) (s : State) : (modHf f s).ep = s.ep := rfl
@[simp] theorem modHf_out (f : Headframe → Headframe) (s : State) : (modHf f s).out = s.out := rfl
@[simp] theorem modHf_dram (f : Headframe → Headframe) (s : State) : (modHf f s).dram = s.dram := rfl
@[simp] theorem modHf_isl (f : Headframe → Headframe) (s : State) : (modHf f s).isl = s.isl := rfl
@[simp] theorem modHf_islNv (f : Headframe → Headframe) (s : State) : (modHf f s).islNv = s.islNv := rfl
@[simp] theorem modHf_drawn (f : Headframe → Headframe) (s : State) : (modHf f s).drawn = s.drawn := rfl

@[simp] theorem modPwr_pending (f : Power → Power) (s : State) : (modPwr f s).pending = s.pending := rfl
@[simp] theorem modPwr_dev (f : Power → Power) (s : State) : (modPwr f s).dev = s.dev := rfl
@[simp] theorem modPwr_otp (f : Power → Power) (s : State) : (modPwr f s).otp = s.otp := rfl
@[simp] theorem modPwr_nvm (f : Power → Power) (s : State) : (modPwr f s).nvm = s.nvm := rfl
@[simp] theorem modPwr_cfg (f : Power → Power) (s : State) : (modPwr f s).cfg = s.cfg := rfl
@[simp] theorem modPwr_log (f : Power → Power) (s : State) : (modPwr f s).log = s.log := rfl
@[simp] theorem modPwr_err (f : Power → Power) (s : State) : (modPwr f s).err = s.err := rfl
@[simp] theorem modPwr_mbx (f : Power → Power) (s : State) : (modPwr f s).mbx = s.mbx := rfl
@[simp] theorem modPwr_hf (f : Power → Power) (s : State) : (modPwr f s).hf = s.hf := rfl
@[simp] theorem modPwr_pwr (f : Power → Power) (s : State) : (modPwr f s).pwr = f s.pwr := rfl
@[simp] theorem modPwr_time (f : Power → Power) (s : State) : (modPwr f s).time = s.time := rfl
@[simp] theorem modPwr_cap (f : Power → Power) (s : State) : (modPwr f s).cap = s.cap := rfl
@[simp] theorem modPwr_lanes (f : Power → Power) (s : State) : (modPwr f s).lanes = s.lanes := rfl
@[simp] theorem modPwr_plls (f : Power → Power) (s : State) : (modPwr f s).plls = s.plls := rfl
@[simp] theorem modPwr_links (f : Power → Power) (s : State) : (modPwr f s).links = s.links := rfl
@[simp] theorem modPwr_red (f : Power → Power) (s : State) : (modPwr f s).red = s.red := rfl
@[simp] theorem modPwr_comp (f : Power → Power) (s : State) : (modPwr f s).comp = s.comp := rfl
@[simp] theorem modPwr_codec (f : Power → Power) (s : State) : (modPwr f s).codec = s.codec := rfl
@[simp] theorem modPwr_rcd (f : Power → Power) (s : State) : (modPwr f s).rcd = s.rcd := rfl
@[simp] theorem modPwr_ep (f : Power → Power) (s : State) : (modPwr f s).ep = s.ep := rfl
@[simp] theorem modPwr_out (f : Power → Power) (s : State) : (modPwr f s).out = s.out := rfl
@[simp] theorem modPwr_dram (f : Power → Power) (s : State) : (modPwr f s).dram = s.dram := rfl
@[simp] theorem modPwr_isl (f : Power → Power) (s : State) : (modPwr f s).isl = s.isl := rfl
@[simp] theorem modPwr_islNv (f : Power → Power) (s : State) : (modPwr f s).islNv = s.islNv := rfl
@[simp] theorem modPwr_drawn (f : Power → Power) (s : State) : (modPwr f s).drawn = s.drawn := rfl

@[simp] theorem modCap_pending (f : Capture → Capture) (s : State) : (modCap f s).pending = s.pending := rfl
@[simp] theorem modCap_dev (f : Capture → Capture) (s : State) : (modCap f s).dev = s.dev := rfl
@[simp] theorem modCap_otp (f : Capture → Capture) (s : State) : (modCap f s).otp = s.otp := rfl
@[simp] theorem modCap_nvm (f : Capture → Capture) (s : State) : (modCap f s).nvm = s.nvm := rfl
@[simp] theorem modCap_cfg (f : Capture → Capture) (s : State) : (modCap f s).cfg = s.cfg := rfl
@[simp] theorem modCap_log (f : Capture → Capture) (s : State) : (modCap f s).log = s.log := rfl
@[simp] theorem modCap_err (f : Capture → Capture) (s : State) : (modCap f s).err = s.err := rfl
@[simp] theorem modCap_mbx (f : Capture → Capture) (s : State) : (modCap f s).mbx = s.mbx := rfl
@[simp] theorem modCap_hf (f : Capture → Capture) (s : State) : (modCap f s).hf = s.hf := rfl
@[simp] theorem modCap_pwr (f : Capture → Capture) (s : State) : (modCap f s).pwr = s.pwr := rfl
@[simp] theorem modCap_time (f : Capture → Capture) (s : State) : (modCap f s).time = s.time := rfl
@[simp] theorem modCap_cap (f : Capture → Capture) (s : State) : (modCap f s).cap = f s.cap := rfl
@[simp] theorem modCap_lanes (f : Capture → Capture) (s : State) : (modCap f s).lanes = s.lanes := rfl
@[simp] theorem modCap_plls (f : Capture → Capture) (s : State) : (modCap f s).plls = s.plls := rfl
@[simp] theorem modCap_links (f : Capture → Capture) (s : State) : (modCap f s).links = s.links := rfl
@[simp] theorem modCap_red (f : Capture → Capture) (s : State) : (modCap f s).red = s.red := rfl
@[simp] theorem modCap_comp (f : Capture → Capture) (s : State) : (modCap f s).comp = s.comp := rfl
@[simp] theorem modCap_codec (f : Capture → Capture) (s : State) : (modCap f s).codec = s.codec := rfl
@[simp] theorem modCap_rcd (f : Capture → Capture) (s : State) : (modCap f s).rcd = s.rcd := rfl
@[simp] theorem modCap_ep (f : Capture → Capture) (s : State) : (modCap f s).ep = s.ep := rfl
@[simp] theorem modCap_out (f : Capture → Capture) (s : State) : (modCap f s).out = s.out := rfl
@[simp] theorem modCap_dram (f : Capture → Capture) (s : State) : (modCap f s).dram = s.dram := rfl
@[simp] theorem modCap_isl (f : Capture → Capture) (s : State) : (modCap f s).isl = s.isl := rfl
@[simp] theorem modCap_islNv (f : Capture → Capture) (s : State) : (modCap f s).islNv = s.islNv := rfl
@[simp] theorem modCap_drawn (f : Capture → Capture) (s : State) : (modCap f s).drawn = s.drawn := rfl

@[simp] theorem modIsl_pending (f : Island → Island) (s : State) : (modIsl f s).pending = s.pending := rfl
@[simp] theorem modIsl_dev (f : Island → Island) (s : State) : (modIsl f s).dev = s.dev := rfl
@[simp] theorem modIsl_otp (f : Island → Island) (s : State) : (modIsl f s).otp = s.otp := rfl
@[simp] theorem modIsl_nvm (f : Island → Island) (s : State) : (modIsl f s).nvm = s.nvm := rfl
@[simp] theorem modIsl_cfg (f : Island → Island) (s : State) : (modIsl f s).cfg = s.cfg := rfl
@[simp] theorem modIsl_log (f : Island → Island) (s : State) : (modIsl f s).log = s.log := rfl
@[simp] theorem modIsl_err (f : Island → Island) (s : State) : (modIsl f s).err = s.err := rfl
@[simp] theorem modIsl_mbx (f : Island → Island) (s : State) : (modIsl f s).mbx = s.mbx := rfl
@[simp] theorem modIsl_hf (f : Island → Island) (s : State) : (modIsl f s).hf = s.hf := rfl
@[simp] theorem modIsl_pwr (f : Island → Island) (s : State) : (modIsl f s).pwr = s.pwr := rfl
@[simp] theorem modIsl_time (f : Island → Island) (s : State) : (modIsl f s).time = s.time := rfl
@[simp] theorem modIsl_cap (f : Island → Island) (s : State) : (modIsl f s).cap = s.cap := rfl
@[simp] theorem modIsl_lanes (f : Island → Island) (s : State) : (modIsl f s).lanes = s.lanes := rfl
@[simp] theorem modIsl_plls (f : Island → Island) (s : State) : (modIsl f s).plls = s.plls := rfl
@[simp] theorem modIsl_links (f : Island → Island) (s : State) : (modIsl f s).links = s.links := rfl
@[simp] theorem modIsl_red (f : Island → Island) (s : State) : (modIsl f s).red = s.red := rfl
@[simp] theorem modIsl_comp (f : Island → Island) (s : State) : (modIsl f s).comp = s.comp := rfl
@[simp] theorem modIsl_codec (f : Island → Island) (s : State) : (modIsl f s).codec = s.codec := rfl
@[simp] theorem modIsl_rcd (f : Island → Island) (s : State) : (modIsl f s).rcd = s.rcd := rfl
@[simp] theorem modIsl_ep (f : Island → Island) (s : State) : (modIsl f s).ep = s.ep := rfl
@[simp] theorem modIsl_out (f : Island → Island) (s : State) : (modIsl f s).out = s.out := rfl
@[simp] theorem modIsl_dram (f : Island → Island) (s : State) : (modIsl f s).dram = s.dram := rfl
@[simp] theorem modIsl_isl (f : Island → Island) (s : State) : (modIsl f s).isl = f s.isl := rfl
@[simp] theorem modIsl_islNv (f : Island → Island) (s : State) : (modIsl f s).islNv = s.islNv := rfl
@[simp] theorem modIsl_drawn (f : Island → Island) (s : State) : (modIsl f s).drawn = s.drawn := rfl

@[simp] theorem modMbx_pending (f : Mailboxes → Mailboxes) (s : State) : (modMbx f s).pending = s.pending := rfl
@[simp] theorem modMbx_dev (f : Mailboxes → Mailboxes) (s : State) : (modMbx f s).dev = s.dev := rfl
@[simp] theorem modMbx_otp (f : Mailboxes → Mailboxes) (s : State) : (modMbx f s).otp = s.otp := rfl
@[simp] theorem modMbx_nvm (f : Mailboxes → Mailboxes) (s : State) : (modMbx f s).nvm = s.nvm := rfl
@[simp] theorem modMbx_cfg (f : Mailboxes → Mailboxes) (s : State) : (modMbx f s).cfg = s.cfg := rfl
@[simp] theorem modMbx_log (f : Mailboxes → Mailboxes) (s : State) : (modMbx f s).log = s.log := rfl
@[simp] theorem modMbx_err (f : Mailboxes → Mailboxes) (s : State) : (modMbx f s).err = s.err := rfl
@[simp] theorem modMbx_mbx (f : Mailboxes → Mailboxes) (s : State) : (modMbx f s).mbx = f s.mbx := rfl
@[simp] theorem modMbx_hf (f : Mailboxes → Mailboxes) (s : State) : (modMbx f s).hf = s.hf := rfl
@[simp] theorem modMbx_pwr (f : Mailboxes → Mailboxes) (s : State) : (modMbx f s).pwr = s.pwr := rfl
@[simp] theorem modMbx_time (f : Mailboxes → Mailboxes) (s : State) : (modMbx f s).time = s.time := rfl
@[simp] theorem modMbx_cap (f : Mailboxes → Mailboxes) (s : State) : (modMbx f s).cap = s.cap := rfl
@[simp] theorem modMbx_lanes (f : Mailboxes → Mailboxes) (s : State) : (modMbx f s).lanes = s.lanes := rfl
@[simp] theorem modMbx_plls (f : Mailboxes → Mailboxes) (s : State) : (modMbx f s).plls = s.plls := rfl
@[simp] theorem modMbx_links (f : Mailboxes → Mailboxes) (s : State) : (modMbx f s).links = s.links := rfl
@[simp] theorem modMbx_red (f : Mailboxes → Mailboxes) (s : State) : (modMbx f s).red = s.red := rfl
@[simp] theorem modMbx_comp (f : Mailboxes → Mailboxes) (s : State) : (modMbx f s).comp = s.comp := rfl
@[simp] theorem modMbx_codec (f : Mailboxes → Mailboxes) (s : State) : (modMbx f s).codec = s.codec := rfl
@[simp] theorem modMbx_rcd (f : Mailboxes → Mailboxes) (s : State) : (modMbx f s).rcd = s.rcd := rfl
@[simp] theorem modMbx_ep (f : Mailboxes → Mailboxes) (s : State) : (modMbx f s).ep = s.ep := rfl
@[simp] theorem modMbx_out (f : Mailboxes → Mailboxes) (s : State) : (modMbx f s).out = s.out := rfl
@[simp] theorem modMbx_dram (f : Mailboxes → Mailboxes) (s : State) : (modMbx f s).dram = s.dram := rfl
@[simp] theorem modMbx_isl (f : Mailboxes → Mailboxes) (s : State) : (modMbx f s).isl = s.isl := rfl
@[simp] theorem modMbx_islNv (f : Mailboxes → Mailboxes) (s : State) : (modMbx f s).islNv = s.islNv := rfl
@[simp] theorem modMbx_drawn (f : Mailboxes → Mailboxes) (s : State) : (modMbx f s).drawn = s.drawn := rfl

@[simp] theorem modOuts_pending (f : Outputs → Outputs) (s : State) : (modOuts f s).pending = s.pending := rfl
@[simp] theorem modOuts_dev (f : Outputs → Outputs) (s : State) : (modOuts f s).dev = s.dev := rfl
@[simp] theorem modOuts_otp (f : Outputs → Outputs) (s : State) : (modOuts f s).otp = s.otp := rfl
@[simp] theorem modOuts_nvm (f : Outputs → Outputs) (s : State) : (modOuts f s).nvm = s.nvm := rfl
@[simp] theorem modOuts_cfg (f : Outputs → Outputs) (s : State) : (modOuts f s).cfg = s.cfg := rfl
@[simp] theorem modOuts_log (f : Outputs → Outputs) (s : State) : (modOuts f s).log = s.log := rfl
@[simp] theorem modOuts_err (f : Outputs → Outputs) (s : State) : (modOuts f s).err = s.err := rfl
@[simp] theorem modOuts_mbx (f : Outputs → Outputs) (s : State) : (modOuts f s).mbx = s.mbx := rfl
@[simp] theorem modOuts_hf (f : Outputs → Outputs) (s : State) : (modOuts f s).hf = s.hf := rfl
@[simp] theorem modOuts_pwr (f : Outputs → Outputs) (s : State) : (modOuts f s).pwr = s.pwr := rfl
@[simp] theorem modOuts_time (f : Outputs → Outputs) (s : State) : (modOuts f s).time = s.time := rfl
@[simp] theorem modOuts_cap (f : Outputs → Outputs) (s : State) : (modOuts f s).cap = s.cap := rfl
@[simp] theorem modOuts_lanes (f : Outputs → Outputs) (s : State) : (modOuts f s).lanes = s.lanes := rfl
@[simp] theorem modOuts_plls (f : Outputs → Outputs) (s : State) : (modOuts f s).plls = s.plls := rfl
@[simp] theorem modOuts_links (f : Outputs → Outputs) (s : State) : (modOuts f s).links = s.links := rfl
@[simp] theorem modOuts_red (f : Outputs → Outputs) (s : State) : (modOuts f s).red = s.red := rfl
@[simp] theorem modOuts_comp (f : Outputs → Outputs) (s : State) : (modOuts f s).comp = s.comp := rfl
@[simp] theorem modOuts_codec (f : Outputs → Outputs) (s : State) : (modOuts f s).codec = s.codec := rfl
@[simp] theorem modOuts_rcd (f : Outputs → Outputs) (s : State) : (modOuts f s).rcd = s.rcd := rfl
@[simp] theorem modOuts_ep (f : Outputs → Outputs) (s : State) : (modOuts f s).ep = s.ep := rfl
@[simp] theorem modOuts_out (f : Outputs → Outputs) (s : State) : (modOuts f s).out = f s.out := rfl
@[simp] theorem modOuts_dram (f : Outputs → Outputs) (s : State) : (modOuts f s).dram = s.dram := rfl
@[simp] theorem modOuts_isl (f : Outputs → Outputs) (s : State) : (modOuts f s).isl = s.isl := rfl
@[simp] theorem modOuts_islNv (f : Outputs → Outputs) (s : State) : (modOuts f s).islNv = s.islNv := rfl
@[simp] theorem modOuts_drawn (f : Outputs → Outputs) (s : State) : (modOuts f s).drawn = s.drawn := rfl

@[simp] theorem modRec_pending (f : Recorder → Recorder) (s : State) : (modRec f s).pending = s.pending := rfl
@[simp] theorem modRec_dev (f : Recorder → Recorder) (s : State) : (modRec f s).dev = s.dev := rfl
@[simp] theorem modRec_otp (f : Recorder → Recorder) (s : State) : (modRec f s).otp = s.otp := rfl
@[simp] theorem modRec_nvm (f : Recorder → Recorder) (s : State) : (modRec f s).nvm = s.nvm := rfl
@[simp] theorem modRec_cfg (f : Recorder → Recorder) (s : State) : (modRec f s).cfg = s.cfg := rfl
@[simp] theorem modRec_log (f : Recorder → Recorder) (s : State) : (modRec f s).log = s.log := rfl
@[simp] theorem modRec_err (f : Recorder → Recorder) (s : State) : (modRec f s).err = s.err := rfl
@[simp] theorem modRec_mbx (f : Recorder → Recorder) (s : State) : (modRec f s).mbx = s.mbx := rfl
@[simp] theorem modRec_hf (f : Recorder → Recorder) (s : State) : (modRec f s).hf = s.hf := rfl
@[simp] theorem modRec_pwr (f : Recorder → Recorder) (s : State) : (modRec f s).pwr = s.pwr := rfl
@[simp] theorem modRec_time (f : Recorder → Recorder) (s : State) : (modRec f s).time = s.time := rfl
@[simp] theorem modRec_cap (f : Recorder → Recorder) (s : State) : (modRec f s).cap = s.cap := rfl
@[simp] theorem modRec_lanes (f : Recorder → Recorder) (s : State) : (modRec f s).lanes = s.lanes := rfl
@[simp] theorem modRec_plls (f : Recorder → Recorder) (s : State) : (modRec f s).plls = s.plls := rfl
@[simp] theorem modRec_links (f : Recorder → Recorder) (s : State) : (modRec f s).links = s.links := rfl
@[simp] theorem modRec_red (f : Recorder → Recorder) (s : State) : (modRec f s).red = s.red := rfl
@[simp] theorem modRec_comp (f : Recorder → Recorder) (s : State) : (modRec f s).comp = s.comp := rfl
@[simp] theorem modRec_codec (f : Recorder → Recorder) (s : State) : (modRec f s).codec = s.codec := rfl
@[simp] theorem modRec_rcd (f : Recorder → Recorder) (s : State) : (modRec f s).rcd = f s.rcd := rfl
@[simp] theorem modRec_ep (f : Recorder → Recorder) (s : State) : (modRec f s).ep = s.ep := rfl
@[simp] theorem modRec_out (f : Recorder → Recorder) (s : State) : (modRec f s).out = s.out := rfl
@[simp] theorem modRec_dram (f : Recorder → Recorder) (s : State) : (modRec f s).dram = s.dram := rfl
@[simp] theorem modRec_isl (f : Recorder → Recorder) (s : State) : (modRec f s).isl = s.isl := rfl
@[simp] theorem modRec_islNv (f : Recorder → Recorder) (s : State) : (modRec f s).islNv = s.islNv := rfl
@[simp] theorem modRec_drawn (f : Recorder → Recorder) (s : State) : (modRec f s).drawn = s.drawn := rfl

@[simp] theorem modRed_pending (f : Redundancy → Redundancy) (s : State) : (modRed f s).pending = s.pending := rfl
@[simp] theorem modRed_dev (f : Redundancy → Redundancy) (s : State) : (modRed f s).dev = s.dev := rfl
@[simp] theorem modRed_otp (f : Redundancy → Redundancy) (s : State) : (modRed f s).otp = s.otp := rfl
@[simp] theorem modRed_nvm (f : Redundancy → Redundancy) (s : State) : (modRed f s).nvm = s.nvm := rfl
@[simp] theorem modRed_cfg (f : Redundancy → Redundancy) (s : State) : (modRed f s).cfg = s.cfg := rfl
@[simp] theorem modRed_log (f : Redundancy → Redundancy) (s : State) : (modRed f s).log = s.log := rfl
@[simp] theorem modRed_err (f : Redundancy → Redundancy) (s : State) : (modRed f s).err = s.err := rfl
@[simp] theorem modRed_mbx (f : Redundancy → Redundancy) (s : State) : (modRed f s).mbx = s.mbx := rfl
@[simp] theorem modRed_hf (f : Redundancy → Redundancy) (s : State) : (modRed f s).hf = s.hf := rfl
@[simp] theorem modRed_pwr (f : Redundancy → Redundancy) (s : State) : (modRed f s).pwr = s.pwr := rfl
@[simp] theorem modRed_time (f : Redundancy → Redundancy) (s : State) : (modRed f s).time = s.time := rfl
@[simp] theorem modRed_cap (f : Redundancy → Redundancy) (s : State) : (modRed f s).cap = s.cap := rfl
@[simp] theorem modRed_lanes (f : Redundancy → Redundancy) (s : State) : (modRed f s).lanes = s.lanes := rfl
@[simp] theorem modRed_plls (f : Redundancy → Redundancy) (s : State) : (modRed f s).plls = s.plls := rfl
@[simp] theorem modRed_links (f : Redundancy → Redundancy) (s : State) : (modRed f s).links = s.links := rfl
@[simp] theorem modRed_red (f : Redundancy → Redundancy) (s : State) : (modRed f s).red = f s.red := rfl
@[simp] theorem modRed_comp (f : Redundancy → Redundancy) (s : State) : (modRed f s).comp = s.comp := rfl
@[simp] theorem modRed_codec (f : Redundancy → Redundancy) (s : State) : (modRed f s).codec = s.codec := rfl
@[simp] theorem modRed_rcd (f : Redundancy → Redundancy) (s : State) : (modRed f s).rcd = s.rcd := rfl
@[simp] theorem modRed_ep (f : Redundancy → Redundancy) (s : State) : (modRed f s).ep = s.ep := rfl
@[simp] theorem modRed_out (f : Redundancy → Redundancy) (s : State) : (modRed f s).out = s.out := rfl
@[simp] theorem modRed_dram (f : Redundancy → Redundancy) (s : State) : (modRed f s).dram = s.dram := rfl
@[simp] theorem modRed_isl (f : Redundancy → Redundancy) (s : State) : (modRed f s).isl = s.isl := rfl
@[simp] theorem modRed_islNv (f : Redundancy → Redundancy) (s : State) : (modRed f s).islNv = s.islNv := rfl
@[simp] theorem modRed_drawn (f : Redundancy → Redundancy) (s : State) : (modRed f s).drawn = s.drawn := rfl

@[simp] theorem modOtp_pending (f : Otp → Otp) (s : State) : (modOtp f s).pending = s.pending := rfl
@[simp] theorem modOtp_dev (f : Otp → Otp) (s : State) : (modOtp f s).dev = s.dev := rfl
@[simp] theorem modOtp_otp (f : Otp → Otp) (s : State) : (modOtp f s).otp = f s.otp := rfl
@[simp] theorem modOtp_nvm (f : Otp → Otp) (s : State) : (modOtp f s).nvm = s.nvm := rfl
@[simp] theorem modOtp_cfg (f : Otp → Otp) (s : State) : (modOtp f s).cfg = s.cfg := rfl
@[simp] theorem modOtp_log (f : Otp → Otp) (s : State) : (modOtp f s).log = s.log := rfl
@[simp] theorem modOtp_err (f : Otp → Otp) (s : State) : (modOtp f s).err = s.err := rfl
@[simp] theorem modOtp_mbx (f : Otp → Otp) (s : State) : (modOtp f s).mbx = s.mbx := rfl
@[simp] theorem modOtp_hf (f : Otp → Otp) (s : State) : (modOtp f s).hf = s.hf := rfl
@[simp] theorem modOtp_pwr (f : Otp → Otp) (s : State) : (modOtp f s).pwr = s.pwr := rfl
@[simp] theorem modOtp_time (f : Otp → Otp) (s : State) : (modOtp f s).time = s.time := rfl
@[simp] theorem modOtp_cap (f : Otp → Otp) (s : State) : (modOtp f s).cap = s.cap := rfl
@[simp] theorem modOtp_lanes (f : Otp → Otp) (s : State) : (modOtp f s).lanes = s.lanes := rfl
@[simp] theorem modOtp_plls (f : Otp → Otp) (s : State) : (modOtp f s).plls = s.plls := rfl
@[simp] theorem modOtp_links (f : Otp → Otp) (s : State) : (modOtp f s).links = s.links := rfl
@[simp] theorem modOtp_red (f : Otp → Otp) (s : State) : (modOtp f s).red = s.red := rfl
@[simp] theorem modOtp_comp (f : Otp → Otp) (s : State) : (modOtp f s).comp = s.comp := rfl
@[simp] theorem modOtp_codec (f : Otp → Otp) (s : State) : (modOtp f s).codec = s.codec := rfl
@[simp] theorem modOtp_rcd (f : Otp → Otp) (s : State) : (modOtp f s).rcd = s.rcd := rfl
@[simp] theorem modOtp_ep (f : Otp → Otp) (s : State) : (modOtp f s).ep = s.ep := rfl
@[simp] theorem modOtp_out (f : Otp → Otp) (s : State) : (modOtp f s).out = s.out := rfl
@[simp] theorem modOtp_dram (f : Otp → Otp) (s : State) : (modOtp f s).dram = s.dram := rfl
@[simp] theorem modOtp_isl (f : Otp → Otp) (s : State) : (modOtp f s).isl = s.isl := rfl
@[simp] theorem modOtp_islNv (f : Otp → Otp) (s : State) : (modOtp f s).islNv = s.islNv := rfl
@[simp] theorem modOtp_drawn (f : Otp → Otp) (s : State) : (modOtp f s).drawn = s.drawn := rfl

@[simp] theorem modCfg_pending (f : Cfg → Cfg) (s : State) : (modCfg f s).pending = s.pending := rfl
@[simp] theorem modCfg_dev (f : Cfg → Cfg) (s : State) : (modCfg f s).dev = s.dev := rfl
@[simp] theorem modCfg_otp (f : Cfg → Cfg) (s : State) : (modCfg f s).otp = s.otp := rfl
@[simp] theorem modCfg_nvm (f : Cfg → Cfg) (s : State) : (modCfg f s).nvm = s.nvm := rfl
@[simp] theorem modCfg_cfg (f : Cfg → Cfg) (s : State) : (modCfg f s).cfg = f s.cfg := rfl
@[simp] theorem modCfg_log (f : Cfg → Cfg) (s : State) : (modCfg f s).log = s.log := rfl
@[simp] theorem modCfg_err (f : Cfg → Cfg) (s : State) : (modCfg f s).err = s.err := rfl
@[simp] theorem modCfg_mbx (f : Cfg → Cfg) (s : State) : (modCfg f s).mbx = s.mbx := rfl
@[simp] theorem modCfg_hf (f : Cfg → Cfg) (s : State) : (modCfg f s).hf = s.hf := rfl
@[simp] theorem modCfg_pwr (f : Cfg → Cfg) (s : State) : (modCfg f s).pwr = s.pwr := rfl
@[simp] theorem modCfg_time (f : Cfg → Cfg) (s : State) : (modCfg f s).time = s.time := rfl
@[simp] theorem modCfg_cap (f : Cfg → Cfg) (s : State) : (modCfg f s).cap = s.cap := rfl
@[simp] theorem modCfg_lanes (f : Cfg → Cfg) (s : State) : (modCfg f s).lanes = s.lanes := rfl
@[simp] theorem modCfg_plls (f : Cfg → Cfg) (s : State) : (modCfg f s).plls = s.plls := rfl
@[simp] theorem modCfg_links (f : Cfg → Cfg) (s : State) : (modCfg f s).links = s.links := rfl
@[simp] theorem modCfg_red (f : Cfg → Cfg) (s : State) : (modCfg f s).red = s.red := rfl
@[simp] theorem modCfg_comp (f : Cfg → Cfg) (s : State) : (modCfg f s).comp = s.comp := rfl
@[simp] theorem modCfg_codec (f : Cfg → Cfg) (s : State) : (modCfg f s).codec = s.codec := rfl
@[simp] theorem modCfg_rcd (f : Cfg → Cfg) (s : State) : (modCfg f s).rcd = s.rcd := rfl
@[simp] theorem modCfg_ep (f : Cfg → Cfg) (s : State) : (modCfg f s).ep = s.ep := rfl
@[simp] theorem modCfg_out (f : Cfg → Cfg) (s : State) : (modCfg f s).out = s.out := rfl
@[simp] theorem modCfg_dram (f : Cfg → Cfg) (s : State) : (modCfg f s).dram = s.dram := rfl
@[simp] theorem modCfg_isl (f : Cfg → Cfg) (s : State) : (modCfg f s).isl = s.isl := rfl
@[simp] theorem modCfg_islNv (f : Cfg → Cfg) (s : State) : (modCfg f s).islNv = s.islNv := rfl
@[simp] theorem modCfg_drawn (f : Cfg → Cfg) (s : State) : (modCfg f s).drawn = s.drawn := rfl

@[simp] theorem modTime_pending (f : TimeState → TimeState) (s : State) : (modTime f s).pending = s.pending := rfl
@[simp] theorem modTime_dev (f : TimeState → TimeState) (s : State) : (modTime f s).dev = s.dev := rfl
@[simp] theorem modTime_otp (f : TimeState → TimeState) (s : State) : (modTime f s).otp = s.otp := rfl
@[simp] theorem modTime_nvm (f : TimeState → TimeState) (s : State) : (modTime f s).nvm = s.nvm := rfl
@[simp] theorem modTime_cfg (f : TimeState → TimeState) (s : State) : (modTime f s).cfg = s.cfg := rfl
@[simp] theorem modTime_log (f : TimeState → TimeState) (s : State) : (modTime f s).log = s.log := rfl
@[simp] theorem modTime_err (f : TimeState → TimeState) (s : State) : (modTime f s).err = s.err := rfl
@[simp] theorem modTime_mbx (f : TimeState → TimeState) (s : State) : (modTime f s).mbx = s.mbx := rfl
@[simp] theorem modTime_hf (f : TimeState → TimeState) (s : State) : (modTime f s).hf = s.hf := rfl
@[simp] theorem modTime_pwr (f : TimeState → TimeState) (s : State) : (modTime f s).pwr = s.pwr := rfl
@[simp] theorem modTime_time (f : TimeState → TimeState) (s : State) : (modTime f s).time = f s.time := rfl
@[simp] theorem modTime_cap (f : TimeState → TimeState) (s : State) : (modTime f s).cap = s.cap := rfl
@[simp] theorem modTime_lanes (f : TimeState → TimeState) (s : State) : (modTime f s).lanes = s.lanes := rfl
@[simp] theorem modTime_plls (f : TimeState → TimeState) (s : State) : (modTime f s).plls = s.plls := rfl
@[simp] theorem modTime_links (f : TimeState → TimeState) (s : State) : (modTime f s).links = s.links := rfl
@[simp] theorem modTime_red (f : TimeState → TimeState) (s : State) : (modTime f s).red = s.red := rfl
@[simp] theorem modTime_comp (f : TimeState → TimeState) (s : State) : (modTime f s).comp = s.comp := rfl
@[simp] theorem modTime_codec (f : TimeState → TimeState) (s : State) : (modTime f s).codec = s.codec := rfl
@[simp] theorem modTime_rcd (f : TimeState → TimeState) (s : State) : (modTime f s).rcd = s.rcd := rfl
@[simp] theorem modTime_ep (f : TimeState → TimeState) (s : State) : (modTime f s).ep = s.ep := rfl
@[simp] theorem modTime_out (f : TimeState → TimeState) (s : State) : (modTime f s).out = s.out := rfl
@[simp] theorem modTime_dram (f : TimeState → TimeState) (s : State) : (modTime f s).dram = s.dram := rfl
@[simp] theorem modTime_isl (f : TimeState → TimeState) (s : State) : (modTime f s).isl = s.isl := rfl
@[simp] theorem modTime_islNv (f : TimeState → TimeState) (s : State) : (modTime f s).islNv = s.islNv := rfl
@[simp] theorem modTime_drawn (f : TimeState → TimeState) (s : State) : (modTime f s).drawn = s.drawn := rfl

/-- An error that is raised changes the log, the error queue and the device record alone. -/
theorem raise_eq (sev code inst : Nat) (ds : List Nat) (s : State) :
    ∃ l e d, raise sev code inst ds s = { s with log := l, err := e, dev := d } := by
  unfold raise
  dsimp only
  split
  · unfold openRun
    split <;> exact ⟨_, _, _, rfl⟩
  · exact ⟨_, _, _, rfl⟩

theorem raiseOnce_eq (sev code inst : Nat) (ds : List Nat) (s : State) :
    ∃ l e d, raiseOnce sev code inst ds s = { s with log := l, err := e, dev := d } := by
  unfold raiseOnce
  split
  · exact ⟨_, _, _, rfl⟩
  · obtain ⟨l, e, d, h⟩ := raise_eq sev code inst ds (openRun code inst s)
    refine ⟨l, e, d, ?_⟩
    rw [h]
    unfold openRun
    split <;> rfl

@[simp] theorem raise_pending (sev code inst : Nat) (ds : List Nat) (s : State) : (raise sev code inst ds s).pending = s.pending := by
  obtain ⟨l, e, d, h⟩ := raise_eq sev code inst ds s
  rw [h]

@[simp] theorem raise_otp (sev code inst : Nat) (ds : List Nat) (s : State) : (raise sev code inst ds s).otp = s.otp := by
  obtain ⟨l, e, d, h⟩ := raise_eq sev code inst ds s
  rw [h]

@[simp] theorem raise_nvm (sev code inst : Nat) (ds : List Nat) (s : State) : (raise sev code inst ds s).nvm = s.nvm := by
  obtain ⟨l, e, d, h⟩ := raise_eq sev code inst ds s
  rw [h]

@[simp] theorem raise_cfg (sev code inst : Nat) (ds : List Nat) (s : State) : (raise sev code inst ds s).cfg = s.cfg := by
  obtain ⟨l, e, d, h⟩ := raise_eq sev code inst ds s
  rw [h]

@[simp] theorem raise_mbx (sev code inst : Nat) (ds : List Nat) (s : State) : (raise sev code inst ds s).mbx = s.mbx := by
  obtain ⟨l, e, d, h⟩ := raise_eq sev code inst ds s
  rw [h]

@[simp] theorem raise_hf (sev code inst : Nat) (ds : List Nat) (s : State) : (raise sev code inst ds s).hf = s.hf := by
  obtain ⟨l, e, d, h⟩ := raise_eq sev code inst ds s
  rw [h]

@[simp] theorem raise_pwr (sev code inst : Nat) (ds : List Nat) (s : State) : (raise sev code inst ds s).pwr = s.pwr := by
  obtain ⟨l, e, d, h⟩ := raise_eq sev code inst ds s
  rw [h]

@[simp] theorem raise_time (sev code inst : Nat) (ds : List Nat) (s : State) : (raise sev code inst ds s).time = s.time := by
  obtain ⟨l, e, d, h⟩ := raise_eq sev code inst ds s
  rw [h]

@[simp] theorem raise_cap (sev code inst : Nat) (ds : List Nat) (s : State) : (raise sev code inst ds s).cap = s.cap := by
  obtain ⟨l, e, d, h⟩ := raise_eq sev code inst ds s
  rw [h]

@[simp] theorem raise_lanes (sev code inst : Nat) (ds : List Nat) (s : State) : (raise sev code inst ds s).lanes = s.lanes := by
  obtain ⟨l, e, d, h⟩ := raise_eq sev code inst ds s
  rw [h]

@[simp] theorem raise_plls (sev code inst : Nat) (ds : List Nat) (s : State) : (raise sev code inst ds s).plls = s.plls := by
  obtain ⟨l, e, d, h⟩ := raise_eq sev code inst ds s
  rw [h]

@[simp] theorem raise_links (sev code inst : Nat) (ds : List Nat) (s : State) : (raise sev code inst ds s).links = s.links := by
  obtain ⟨l, e, d, h⟩ := raise_eq sev code inst ds s
  rw [h]

@[simp] theorem raise_red (sev code inst : Nat) (ds : List Nat) (s : State) : (raise sev code inst ds s).red = s.red := by
  obtain ⟨l, e, d, h⟩ := raise_eq sev code inst ds s
  rw [h]

@[simp] theorem raise_comp (sev code inst : Nat) (ds : List Nat) (s : State) : (raise sev code inst ds s).comp = s.comp := by
  obtain ⟨l, e, d, h⟩ := raise_eq sev code inst ds s
  rw [h]

@[simp] theorem raise_codec (sev code inst : Nat) (ds : List Nat) (s : State) : (raise sev code inst ds s).codec = s.codec := by
  obtain ⟨l, e, d, h⟩ := raise_eq sev code inst ds s
  rw [h]

@[simp] theorem raise_rcd (sev code inst : Nat) (ds : List Nat) (s : State) : (raise sev code inst ds s).rcd = s.rcd := by
  obtain ⟨l, e, d, h⟩ := raise_eq sev code inst ds s
  rw [h]

@[simp] theorem raise_ep (sev code inst : Nat) (ds : List Nat) (s : State) : (raise sev code inst ds s).ep = s.ep := by
  obtain ⟨l, e, d, h⟩ := raise_eq sev code inst ds s
  rw [h]

@[simp] theorem raise_out (sev code inst : Nat) (ds : List Nat) (s : State) : (raise sev code inst ds s).out = s.out := by
  obtain ⟨l, e, d, h⟩ := raise_eq sev code inst ds s
  rw [h]

@[simp] theorem raise_dram (sev code inst : Nat) (ds : List Nat) (s : State) : (raise sev code inst ds s).dram = s.dram := by
  obtain ⟨l, e, d, h⟩ := raise_eq sev code inst ds s
  rw [h]

@[simp] theorem raise_isl (sev code inst : Nat) (ds : List Nat) (s : State) : (raise sev code inst ds s).isl = s.isl := by
  obtain ⟨l, e, d, h⟩ := raise_eq sev code inst ds s
  rw [h]

@[simp] theorem raise_islNv (sev code inst : Nat) (ds : List Nat) (s : State) : (raise sev code inst ds s).islNv = s.islNv := by
  obtain ⟨l, e, d, h⟩ := raise_eq sev code inst ds s
  rw [h]

@[simp] theorem raise_drawn (sev code inst : Nat) (ds : List Nat) (s : State) : (raise sev code inst ds s).drawn = s.drawn := by
  obtain ⟨l, e, d, h⟩ := raise_eq sev code inst ds s
  rw [h]

@[simp] theorem raiseOnce_pending (sev code inst : Nat) (ds : List Nat) (s : State) : (raiseOnce sev code inst ds s).pending = s.pending := by
  obtain ⟨l, e, d, h⟩ := raiseOnce_eq sev code inst ds s
  rw [h]

@[simp] theorem raiseOnce_otp (sev code inst : Nat) (ds : List Nat) (s : State) : (raiseOnce sev code inst ds s).otp = s.otp := by
  obtain ⟨l, e, d, h⟩ := raiseOnce_eq sev code inst ds s
  rw [h]

@[simp] theorem raiseOnce_nvm (sev code inst : Nat) (ds : List Nat) (s : State) : (raiseOnce sev code inst ds s).nvm = s.nvm := by
  obtain ⟨l, e, d, h⟩ := raiseOnce_eq sev code inst ds s
  rw [h]

@[simp] theorem raiseOnce_cfg (sev code inst : Nat) (ds : List Nat) (s : State) : (raiseOnce sev code inst ds s).cfg = s.cfg := by
  obtain ⟨l, e, d, h⟩ := raiseOnce_eq sev code inst ds s
  rw [h]

@[simp] theorem raiseOnce_mbx (sev code inst : Nat) (ds : List Nat) (s : State) : (raiseOnce sev code inst ds s).mbx = s.mbx := by
  obtain ⟨l, e, d, h⟩ := raiseOnce_eq sev code inst ds s
  rw [h]

@[simp] theorem raiseOnce_hf (sev code inst : Nat) (ds : List Nat) (s : State) : (raiseOnce sev code inst ds s).hf = s.hf := by
  obtain ⟨l, e, d, h⟩ := raiseOnce_eq sev code inst ds s
  rw [h]

@[simp] theorem raiseOnce_pwr (sev code inst : Nat) (ds : List Nat) (s : State) : (raiseOnce sev code inst ds s).pwr = s.pwr := by
  obtain ⟨l, e, d, h⟩ := raiseOnce_eq sev code inst ds s
  rw [h]

@[simp] theorem raiseOnce_time (sev code inst : Nat) (ds : List Nat) (s : State) : (raiseOnce sev code inst ds s).time = s.time := by
  obtain ⟨l, e, d, h⟩ := raiseOnce_eq sev code inst ds s
  rw [h]

@[simp] theorem raiseOnce_cap (sev code inst : Nat) (ds : List Nat) (s : State) : (raiseOnce sev code inst ds s).cap = s.cap := by
  obtain ⟨l, e, d, h⟩ := raiseOnce_eq sev code inst ds s
  rw [h]

@[simp] theorem raiseOnce_lanes (sev code inst : Nat) (ds : List Nat) (s : State) : (raiseOnce sev code inst ds s).lanes = s.lanes := by
  obtain ⟨l, e, d, h⟩ := raiseOnce_eq sev code inst ds s
  rw [h]

@[simp] theorem raiseOnce_plls (sev code inst : Nat) (ds : List Nat) (s : State) : (raiseOnce sev code inst ds s).plls = s.plls := by
  obtain ⟨l, e, d, h⟩ := raiseOnce_eq sev code inst ds s
  rw [h]

@[simp] theorem raiseOnce_links (sev code inst : Nat) (ds : List Nat) (s : State) : (raiseOnce sev code inst ds s).links = s.links := by
  obtain ⟨l, e, d, h⟩ := raiseOnce_eq sev code inst ds s
  rw [h]

@[simp] theorem raiseOnce_red (sev code inst : Nat) (ds : List Nat) (s : State) : (raiseOnce sev code inst ds s).red = s.red := by
  obtain ⟨l, e, d, h⟩ := raiseOnce_eq sev code inst ds s
  rw [h]

@[simp] theorem raiseOnce_comp (sev code inst : Nat) (ds : List Nat) (s : State) : (raiseOnce sev code inst ds s).comp = s.comp := by
  obtain ⟨l, e, d, h⟩ := raiseOnce_eq sev code inst ds s
  rw [h]

@[simp] theorem raiseOnce_codec (sev code inst : Nat) (ds : List Nat) (s : State) : (raiseOnce sev code inst ds s).codec = s.codec := by
  obtain ⟨l, e, d, h⟩ := raiseOnce_eq sev code inst ds s
  rw [h]

@[simp] theorem raiseOnce_rcd (sev code inst : Nat) (ds : List Nat) (s : State) : (raiseOnce sev code inst ds s).rcd = s.rcd := by
  obtain ⟨l, e, d, h⟩ := raiseOnce_eq sev code inst ds s
  rw [h]

@[simp] theorem raiseOnce_ep (sev code inst : Nat) (ds : List Nat) (s : State) : (raiseOnce sev code inst ds s).ep = s.ep := by
  obtain ⟨l, e, d, h⟩ := raiseOnce_eq sev code inst ds s
  rw [h]

@[simp] theorem raiseOnce_out (sev code inst : Nat) (ds : List Nat) (s : State) : (raiseOnce sev code inst ds s).out = s.out := by
  obtain ⟨l, e, d, h⟩ := raiseOnce_eq sev code inst ds s
  rw [h]

@[simp] theorem raiseOnce_dram (sev code inst : Nat) (ds : List Nat) (s : State) : (raiseOnce sev code inst ds s).dram = s.dram := by
  obtain ⟨l, e, d, h⟩ := raiseOnce_eq sev code inst ds s
  rw [h]

@[simp] theorem raiseOnce_isl (sev code inst : Nat) (ds : List Nat) (s : State) : (raiseOnce sev code inst ds s).isl = s.isl := by
  obtain ⟨l, e, d, h⟩ := raiseOnce_eq sev code inst ds s
  rw [h]

@[simp] theorem raiseOnce_islNv (sev code inst : Nat) (ds : List Nat) (s : State) : (raiseOnce sev code inst ds s).islNv = s.islNv := by
  obtain ⟨l, e, d, h⟩ := raiseOnce_eq sev code inst ds s
  rw [h]

@[simp] theorem raiseOnce_drawn (sev code inst : Nat) (ds : List Nat) (s : State) : (raiseOnce sev code inst ds s).drawn = s.drawn := by
  obtain ⟨l, e, d, h⟩ := raiseOnce_eq sev code inst ds s
  rw [h]

@[simp] theorem endRun_pending (code inst : Nat) (s : State) : (endRun code inst s).pending = s.pending := rfl
@[simp] theorem openRun_pending (code inst : Nat) (s : State) : (openRun code inst s).pending = s.pending := by
  unfold openRun; split <;> rfl
@[simp] theorem endRun_dev (code inst : Nat) (s : State) : (endRun code inst s).dev = s.dev := rfl
@[simp] theorem openRun_dev (code inst : Nat) (s : State) : (openRun code inst s).dev = s.dev := by
  unfold openRun; split <;> rfl
@[simp] theorem endRun_otp (code inst : Nat) (s : State) : (endRun code inst s).otp = s.otp := rfl
@[simp] theorem openRun_otp (code inst : Nat) (s : State) : (openRun code inst s).otp = s.otp := by
  unfold openRun; split <;> rfl
@[simp] theorem endRun_nvm (code inst : Nat) (s : State) : (endRun code inst s).nvm = s.nvm := rfl
@[simp] theorem openRun_nvm (code inst : Nat) (s : State) : (openRun code inst s).nvm = s.nvm := by
  unfold openRun; split <;> rfl
@[simp] theorem endRun_cfg (code inst : Nat) (s : State) : (endRun code inst s).cfg = s.cfg := rfl
@[simp] theorem openRun_cfg (code inst : Nat) (s : State) : (openRun code inst s).cfg = s.cfg := by
  unfold openRun; split <;> rfl
@[simp] theorem endRun_log (code inst : Nat) (s : State) : (endRun code inst s).log = s.log := rfl
@[simp] theorem openRun_log (code inst : Nat) (s : State) : (openRun code inst s).log = s.log := by
  unfold openRun; split <;> rfl
@[simp] theorem endRun_mbx (code inst : Nat) (s : State) : (endRun code inst s).mbx = s.mbx := rfl
@[simp] theorem openRun_mbx (code inst : Nat) (s : State) : (openRun code inst s).mbx = s.mbx := by
  unfold openRun; split <;> rfl
@[simp] theorem endRun_hf (code inst : Nat) (s : State) : (endRun code inst s).hf = s.hf := rfl
@[simp] theorem openRun_hf (code inst : Nat) (s : State) : (openRun code inst s).hf = s.hf := by
  unfold openRun; split <;> rfl
@[simp] theorem endRun_pwr (code inst : Nat) (s : State) : (endRun code inst s).pwr = s.pwr := rfl
@[simp] theorem openRun_pwr (code inst : Nat) (s : State) : (openRun code inst s).pwr = s.pwr := by
  unfold openRun; split <;> rfl
@[simp] theorem endRun_time (code inst : Nat) (s : State) : (endRun code inst s).time = s.time := rfl
@[simp] theorem openRun_time (code inst : Nat) (s : State) : (openRun code inst s).time = s.time := by
  unfold openRun; split <;> rfl
@[simp] theorem endRun_cap (code inst : Nat) (s : State) : (endRun code inst s).cap = s.cap := rfl
@[simp] theorem openRun_cap (code inst : Nat) (s : State) : (openRun code inst s).cap = s.cap := by
  unfold openRun; split <;> rfl
@[simp] theorem endRun_lanes (code inst : Nat) (s : State) : (endRun code inst s).lanes = s.lanes := rfl
@[simp] theorem openRun_lanes (code inst : Nat) (s : State) : (openRun code inst s).lanes = s.lanes := by
  unfold openRun; split <;> rfl
@[simp] theorem endRun_plls (code inst : Nat) (s : State) : (endRun code inst s).plls = s.plls := rfl
@[simp] theorem openRun_plls (code inst : Nat) (s : State) : (openRun code inst s).plls = s.plls := by
  unfold openRun; split <;> rfl
@[simp] theorem endRun_links (code inst : Nat) (s : State) : (endRun code inst s).links = s.links := rfl
@[simp] theorem openRun_links (code inst : Nat) (s : State) : (openRun code inst s).links = s.links := by
  unfold openRun; split <;> rfl
@[simp] theorem endRun_red (code inst : Nat) (s : State) : (endRun code inst s).red = s.red := rfl
@[simp] theorem openRun_red (code inst : Nat) (s : State) : (openRun code inst s).red = s.red := by
  unfold openRun; split <;> rfl
@[simp] theorem endRun_comp (code inst : Nat) (s : State) : (endRun code inst s).comp = s.comp := rfl
@[simp] theorem openRun_comp (code inst : Nat) (s : State) : (openRun code inst s).comp = s.comp := by
  unfold openRun; split <;> rfl
@[simp] theorem endRun_codec (code inst : Nat) (s : State) : (endRun code inst s).codec = s.codec := rfl
@[simp] theorem openRun_codec (code inst : Nat) (s : State) : (openRun code inst s).codec = s.codec := by
  unfold openRun; split <;> rfl
@[simp] theorem endRun_rcd (code inst : Nat) (s : State) : (endRun code inst s).rcd = s.rcd := rfl
@[simp] theorem openRun_rcd (code inst : Nat) (s : State) : (openRun code inst s).rcd = s.rcd := by
  unfold openRun; split <;> rfl
@[simp] theorem endRun_ep (code inst : Nat) (s : State) : (endRun code inst s).ep = s.ep := rfl
@[simp] theorem openRun_ep (code inst : Nat) (s : State) : (openRun code inst s).ep = s.ep := by
  unfold openRun; split <;> rfl
@[simp] theorem endRun_out (code inst : Nat) (s : State) : (endRun code inst s).out = s.out := rfl
@[simp] theorem openRun_out (code inst : Nat) (s : State) : (openRun code inst s).out = s.out := by
  unfold openRun; split <;> rfl
@[simp] theorem endRun_dram (code inst : Nat) (s : State) : (endRun code inst s).dram = s.dram := rfl
@[simp] theorem openRun_dram (code inst : Nat) (s : State) : (openRun code inst s).dram = s.dram := by
  unfold openRun; split <;> rfl
@[simp] theorem endRun_isl (code inst : Nat) (s : State) : (endRun code inst s).isl = s.isl := rfl
@[simp] theorem openRun_isl (code inst : Nat) (s : State) : (openRun code inst s).isl = s.isl := by
  unfold openRun; split <;> rfl
@[simp] theorem endRun_islNv (code inst : Nat) (s : State) : (endRun code inst s).islNv = s.islNv := rfl
@[simp] theorem openRun_islNv (code inst : Nat) (s : State) : (openRun code inst s).islNv = s.islNv := by
  unfold openRun; split <;> rfl
@[simp] theorem endRun_drawn (code inst : Nat) (s : State) : (endRun code inst s).drawn = s.drawn := rfl
@[simp] theorem openRun_drawn (code inst : Nat) (s : State) : (openRun code inst s).drawn = s.drawn := by
  unfold openRun; split <;> rfl
@[simp] theorem modChan_pending (c : Nat) (f : Chan → Chan) (s : State) : (modChan c f s).pending = s.pending := rfl
@[simp] theorem modChan_dev (c : Nat) (f : Chan → Chan) (s : State) : (modChan c f s).dev = s.dev := rfl
@[simp] theorem modChan_otp (c : Nat) (f : Chan → Chan) (s : State) : (modChan c f s).otp = s.otp := rfl
@[simp] theorem modChan_nvm (c : Nat) (f : Chan → Chan) (s : State) : (modChan c f s).nvm = s.nvm := rfl
@[simp] theorem modChan_cfg (c : Nat) (f : Chan → Chan) (s : State) : (modChan c f s).cfg = s.cfg := rfl
@[simp] theorem modChan_log (c : Nat) (f : Chan → Chan) (s : State) : (modChan c f s).log = s.log := rfl
@[simp] theorem modChan_err (c : Nat) (f : Chan → Chan) (s : State) : (modChan c f s).err = s.err := rfl
@[simp] theorem modChan_hf (c : Nat) (f : Chan → Chan) (s : State) : (modChan c f s).hf = s.hf := rfl
@[simp] theorem modChan_pwr (c : Nat) (f : Chan → Chan) (s : State) : (modChan c f s).pwr = s.pwr := rfl
@[simp] theorem modChan_time (c : Nat) (f : Chan → Chan) (s : State) : (modChan c f s).time = s.time := rfl
@[simp] theorem modChan_cap (c : Nat) (f : Chan → Chan) (s : State) : (modChan c f s).cap = s.cap := rfl
@[simp] theorem modChan_lanes (c : Nat) (f : Chan → Chan) (s : State) : (modChan c f s).lanes = s.lanes := rfl
@[simp] theorem modChan_plls (c : Nat) (f : Chan → Chan) (s : State) : (modChan c f s).plls = s.plls := rfl
@[simp] theorem modChan_links (c : Nat) (f : Chan → Chan) (s : State) : (modChan c f s).links = s.links := rfl
@[simp] theorem modChan_red (c : Nat) (f : Chan → Chan) (s : State) : (modChan c f s).red = s.red := rfl
@[simp] theorem modChan_comp (c : Nat) (f : Chan → Chan) (s : State) : (modChan c f s).comp = s.comp := rfl
@[simp] theorem modChan_codec (c : Nat) (f : Chan → Chan) (s : State) : (modChan c f s).codec = s.codec := rfl
@[simp] theorem modChan_rcd (c : Nat) (f : Chan → Chan) (s : State) : (modChan c f s).rcd = s.rcd := rfl
@[simp] theorem modChan_ep (c : Nat) (f : Chan → Chan) (s : State) : (modChan c f s).ep = s.ep := rfl
@[simp] theorem modChan_out (c : Nat) (f : Chan → Chan) (s : State) : (modChan c f s).out = s.out := rfl
@[simp] theorem modChan_dram (c : Nat) (f : Chan → Chan) (s : State) : (modChan c f s).dram = s.dram := rfl
@[simp] theorem modChan_isl (c : Nat) (f : Chan → Chan) (s : State) : (modChan c f s).isl = s.isl := rfl
@[simp] theorem modChan_islNv (c : Nat) (f : Chan → Chan) (s : State) : (modChan c f s).islNv = s.islNv := rfl
@[simp] theorem modChan_drawn (c : Nat) (f : Chan → Chan) (s : State) : (modChan c f s).drawn = s.drawn := rfl
@[simp] theorem modView_pending (v : View) (c : Nat) (f : ViewRegs → ViewRegs) (s : State) : (modView v c f s).pending = s.pending := by
  cases v <;> rfl
@[simp] theorem modView_dev (v : View) (c : Nat) (f : ViewRegs → ViewRegs) (s : State) : (modView v c f s).dev = s.dev := by
  cases v <;> rfl
@[simp] theorem modView_otp (v : View) (c : Nat) (f : ViewRegs → ViewRegs) (s : State) : (modView v c f s).otp = s.otp := by
  cases v <;> rfl
@[simp] theorem modView_nvm (v : View) (c : Nat) (f : ViewRegs → ViewRegs) (s : State) : (modView v c f s).nvm = s.nvm := by
  cases v <;> rfl
@[simp] theorem modView_cfg (v : View) (c : Nat) (f : ViewRegs → ViewRegs) (s : State) : (modView v c f s).cfg = s.cfg := by
  cases v <;> rfl
@[simp] theorem modView_log (v : View) (c : Nat) (f : ViewRegs → ViewRegs) (s : State) : (modView v c f s).log = s.log := by
  cases v <;> rfl
@[simp] theorem modView_err (v : View) (c : Nat) (f : ViewRegs → ViewRegs) (s : State) : (modView v c f s).err = s.err := by
  cases v <;> rfl
@[simp] theorem modView_hf (v : View) (c : Nat) (f : ViewRegs → ViewRegs) (s : State) : (modView v c f s).hf = s.hf := by
  cases v <;> rfl
@[simp] theorem modView_pwr (v : View) (c : Nat) (f : ViewRegs → ViewRegs) (s : State) : (modView v c f s).pwr = s.pwr := by
  cases v <;> rfl
@[simp] theorem modView_time (v : View) (c : Nat) (f : ViewRegs → ViewRegs) (s : State) : (modView v c f s).time = s.time := by
  cases v <;> rfl
@[simp] theorem modView_cap (v : View) (c : Nat) (f : ViewRegs → ViewRegs) (s : State) : (modView v c f s).cap = s.cap := by
  cases v <;> rfl
@[simp] theorem modView_lanes (v : View) (c : Nat) (f : ViewRegs → ViewRegs) (s : State) : (modView v c f s).lanes = s.lanes := by
  cases v <;> rfl
@[simp] theorem modView_plls (v : View) (c : Nat) (f : ViewRegs → ViewRegs) (s : State) : (modView v c f s).plls = s.plls := by
  cases v <;> rfl
@[simp] theorem modView_links (v : View) (c : Nat) (f : ViewRegs → ViewRegs) (s : State) : (modView v c f s).links = s.links := by
  cases v <;> rfl
@[simp] theorem modView_red (v : View) (c : Nat) (f : ViewRegs → ViewRegs) (s : State) : (modView v c f s).red = s.red := by
  cases v <;> rfl
@[simp] theorem modView_comp (v : View) (c : Nat) (f : ViewRegs → ViewRegs) (s : State) : (modView v c f s).comp = s.comp := by
  cases v <;> rfl
@[simp] theorem modView_codec (v : View) (c : Nat) (f : ViewRegs → ViewRegs) (s : State) : (modView v c f s).codec = s.codec := by
  cases v <;> rfl
@[simp] theorem modView_rcd (v : View) (c : Nat) (f : ViewRegs → ViewRegs) (s : State) : (modView v c f s).rcd = s.rcd := by
  cases v <;> rfl
@[simp] theorem modView_ep (v : View) (c : Nat) (f : ViewRegs → ViewRegs) (s : State) : (modView v c f s).ep = s.ep := by
  cases v <;> rfl
@[simp] theorem modView_out (v : View) (c : Nat) (f : ViewRegs → ViewRegs) (s : State) : (modView v c f s).out = s.out := by
  cases v <;> rfl
@[simp] theorem modView_dram (v : View) (c : Nat) (f : ViewRegs → ViewRegs) (s : State) : (modView v c f s).dram = s.dram := by
  cases v <;> rfl
@[simp] theorem modView_isl (v : View) (c : Nat) (f : ViewRegs → ViewRegs) (s : State) : (modView v c f s).isl = s.isl := by
  cases v <;> rfl
@[simp] theorem modView_islNv (v : View) (c : Nat) (f : ViewRegs → ViewRegs) (s : State) : (modView v c f s).islNv = s.islNv := by
  cases v <;> rfl
@[simp] theorem modView_drawn (v : View) (c : Nat) (f : ViewRegs → ViewRegs) (s : State) : (modView v c f s).drawn = s.drawn := by
  cases v <;> rfl
@[simp] theorem drawOne_pending (s : State) : (drawOne s).pending = s.pending := rfl
@[simp] theorem drawOne_dev (s : State) : (drawOne s).dev = s.dev := rfl
@[simp] theorem drawOne_otp (s : State) : (drawOne s).otp = s.otp := rfl
@[simp] theorem drawOne_nvm (s : State) : (drawOne s).nvm = s.nvm := rfl
@[simp] theorem drawOne_cfg (s : State) : (drawOne s).cfg = s.cfg := rfl
@[simp] theorem drawOne_log (s : State) : (drawOne s).log = s.log := rfl
@[simp] theorem drawOne_err (s : State) : (drawOne s).err = s.err := rfl
@[simp] theorem drawOne_mbx (s : State) : (drawOne s).mbx = s.mbx := rfl
@[simp] theorem drawOne_hf (s : State) : (drawOne s).hf = s.hf := rfl
@[simp] theorem drawOne_pwr (s : State) : (drawOne s).pwr = s.pwr := rfl
@[simp] theorem drawOne_time (s : State) : (drawOne s).time = s.time := rfl
@[simp] theorem drawOne_cap (s : State) : (drawOne s).cap = s.cap := rfl
@[simp] theorem drawOne_lanes (s : State) : (drawOne s).lanes = s.lanes := rfl
@[simp] theorem drawOne_plls (s : State) : (drawOne s).plls = s.plls := rfl
@[simp] theorem drawOne_links (s : State) : (drawOne s).links = s.links := rfl
@[simp] theorem drawOne_red (s : State) : (drawOne s).red = s.red := rfl
@[simp] theorem drawOne_comp (s : State) : (drawOne s).comp = s.comp := rfl
@[simp] theorem drawOne_codec (s : State) : (drawOne s).codec = s.codec := rfl
@[simp] theorem drawOne_rcd (s : State) : (drawOne s).rcd = s.rcd := rfl
@[simp] theorem drawOne_ep (s : State) : (drawOne s).ep = s.ep := rfl
@[simp] theorem drawOne_out (s : State) : (drawOne s).out = s.out := rfl
@[simp] theorem drawOne_dram (s : State) : (drawOne s).dram = s.dram := rfl
@[simp] theorem drawOne_isl (s : State) : (drawOne s).isl = s.isl := rfl
@[simp] theorem drawOne_islNv (s : State) : (drawOne s).islNv = s.islNv := rfl

end Sys2Proof.Laws
end

