-- ==== Sys2Proof/Machine/Balls.lean ====
section
/-! DEFINITION. The package's balls: their names, what each carries, and the rail that supplies a signal (R18, R794, R798 to
R803). -/

namespace Sys2Proof.Machine

/-- What a ball carries: a leg of a Sensor Parallel Port pair, a leg of a serial lane (0 TX_P, 1 TX_N, 2 RX_P, 3 RX_N), a signal
of a memory channel by the k of R801, a miscellaneous signal by the k of R802, a rail by its index of R775, or VSS. -/
inductive PackageBall where
  | pair (port q : Nat) (neg : Bool)
  | lane (n leg : Nat)
  | memory (channel k : Nat)
  | misc (k : Nat)
  | rail (index : Nat)
  | vss
deriving DecidableEq, Repr

/-- The supply and ground balls by row and column (R803). -/
def supplyBall (r c : Nat) : PackageBall :=
  let alternate := fun (power : Bool) (rail : Nat) => if power then PackageBall.rail rail else PackageBall.vss
  if c = 12 then alternate (r % 2 == 1) 11
  else if r ≤ 30 ∧ c ≤ 38 then alternate ((r + c) % 2 == 1) (if r ≤ 4 then 1 else 0)
  else if r = 31 ∧ c ≤ 38 then alternate (c % 2 == 1) 9
  else if r = 32 ∧ c ≤ 38 then alternate (c % 2 == 1) 10
  else if c = 39 then .rail (if r ≤ 16 then 5 else 7)
  else if c = 41 then .rail (if r ≤ 16 then 4 else 6)
  else if c = 36 then .rail (if r ≤ 36 then 12 else 13)
  else if c = 38 then .rail (if r ≤ 34 then 8 else if r ≤ 36 then 3 else 2)
  else .vss

/-- What the ball of a row and a column, each from 1 to 48, carries (R798 to R803). -/
def ballAt (r c : Nat) : Option PackageBall :=
  if r = 0 ∨ 48 < r ∨ c = 0 ∨ 48 < c then none
  else if r ≤ 32 ∧ c ≤ 11 then some (.pair ((r - 1) / 8) ((r - 1) % 8 / 2 * 11 + (c - 1)) ((r - 1) % 2 == 1))
  else if r ≤ 40 ∧ 43 ≤ c then
    some (if c % 3 = 0 then .vss else .lane (r - 1) (if c ≤ 44 then c - 43 else c - 44))
  else if 33 ≤ r ∧ c ≤ 35 then some (.memory ((r - 33) / 2) ((r - 33) % 2 * 35 + (c - 1)))
  else if 41 ≤ r then some (.misc ((r - 41) * 13 + (c - 36)))
  else some (supplyBall r c)

/-- The letters of the rows in the order of R18: nineteen a round, without I, O, Q, R, S, X and Z. -/
def rowLetters : List Char :=
  ['A', 'B', 'C', 'D', 'E', 'F', 'G', 'H', 'J', 'K', 'L', 'M', 'N', 'P', 'T', 'U', 'V', 'W', 'Y']

/-- The name of a ball (R18). -/
def ballName (r c : Nat) : String :=
  let letter := rowLetters.getD ((r - 1) % 19) 'A'
  let round := if r ≤ 19 then [] else [rowLetters.getD ((r - 1) / 19 - 1) 'A']
  String.ofList (round ++ [letter]) ++ toString c

/-- The rail that supplies a signal ball; none where R794 names none (R778, R794). -/
def ballSupply (b : PackageBall) : Option Nat :=
  match b with
  | .pair _ _ _ => some 11
  | .misc k =>
    if k = 12 ∨ k = 23 then some 13
    else if 2 ≤ k ∧ k ≤ 22 then some 11
    else if k ≤ 47 then some 13
    else if 68 ≤ k ∧ k ≤ 73 then some 13
    else if k ≤ 101 then some 12
    else none
  | .rail i => some i
  | _ => none

end Sys2Proof.Machine
end

