-- ==== Sys2Proof/Machine/Wire.lean ====
section
/-! DEFINITION. What leaves the pins of an SDI output, a sender, a viewfinder port and an audio port, as values of the state:
ancillary packets, SDI lines and RTP packets (R472 to R474, R476, R479, R480), DSI packets (R588, R590, R598) and audio frames
(R606, R616). -/

namespace Sys2Proof.Machine

/-! ### Ancillary packets (R473, R480) -/

/-- A word of an ancillary packet: the byte, b8 as its even parity, b9 as NOT b8 (R480). -/
def ancWord (v : Nat) : Nat :=
  let p := ((msb 8 v).filter id).length % 2
  v % 256 + p * 256 + (1 - p) * 512

/-- An ancillary packet from its DID on: identifiers, data count, user data words and checksum (R480). [PRESUMED, log 116] -/
def ancPacket (did sdid : Nat) (l : List Byte) : List Nat :=
  let ws := [did, sdid, l.length].map ancWord ++ l.map fun b => ancWord b.toNat
  let c := (ws.map (· % 512)).sum % 512
  ws ++ [c + (if 256 ≤ c then 0 else 512)]

/-- The frame-header packet: DID 0x51, SDID 0x06 and the 48 bytes of the header as sent (R480). -/
def headerPacket (h : FrameHeader) : List Nat := ancPacket 0x51 0x06 (headerBytes h)

/-- The ATC_VITC packet of a timecode: a nibble of the codeword in the upper half of each of 16 words, DBB1 0x01 in bit 3 of the
first eight (R473, R517). [PRESUMED, log 116] -/
def timecodePacket (tc : Nat) : List Nat :=
  ancPacket 0x60 0x60 ((List.range 16).map fun k => BitVec.ofNat 8 (tc / 16 ^ k % 16 * 16 + (if k = 0 then 8 else 0)))

/-- The picture rate code of SMPTE ST 352. [PRESUMED, log 116] -/
def rateCode : Nat × Nat → Nat
  | (24000, 1001) => 2
  | (24, 1) => 3
  | (25, 1) => 5
  | (30000, 1001) => 6
  | (30, 1) => 7
  | (50, 1) => 9
  | (60000, 1001) => 10
  | (60, 1) => 11
  | _ => 0

/-- The payload identifier of an SDI output (R473). [PRESUMED, log 116] -/
def payloadId (k : Nat) (w : Words) : List Nat :=
  let b := match F.SDI_FORMAT.get k w with | 0 => 0x89 | 1 => 0xC0 | _ => 0xCE
  ancPacket 0x41 0x01 ([b, 0xC0 + rateCode (outFps (.sdi k) w), 0x80, 0x01].map (BitVec.ofNat 8))

/-! ### SDI lines (R472, R473, R476) -/

/-- Words of a line of one stream of a 1,080-line raster: its share of the line rate (R472). [PRESUMED, log 116] -/
def lineWords (k : Nat) (w : Words) : Nat :=
  let f := outFps (.sdi k) w
  (if F.SDI_FORMAT.get k w = 1 then 66000 else 132000) / max 1 (ceilDiv f.1 (max 1 f.2))

/-- A timing reference: EAV or SAV of a progressive line. [PRESUMED, log 116] -/
def timingRef (eav blank : Bool) : List Nat :=
  [0x3FF, 0, 0, match eav, blank with | false, false => 0x200 | true, false => 0x274 | false, true => 0x2AC | true, true => 0x2D8]

/-- The line number words. [PRESUMED, log 116] -/
def lineNumber (ln : Nat) : List Nat :=
  let a := ln % 128 * 4
  [a + (if 256 ≤ a then 0 else 512), ln / 128 % 16 * 4 + 512]

/-- One word into the line CRC x^18 + x^5 + x^4 + 1, its lowest bit first. [PRESUMED, log 116] -/
def crc18Word (c v : Nat) : Nat :=
  (List.range 10).foldl (fun r i => if (r + v / 2 ^ i) % 2 = 1 then r / 2 ^^^ 0x23000 else r / 2) c

/-- The CRC words after a line number. [PRESUMED, log 116] -/
def lineCrc (ws : List Nat) : List Nat :=
  let c := ws.foldl crc18Word 0
  [c % 512, c / 512].map fun v => v + (if 256 ≤ v then 0 else 512)

/-- The row of a picture that line `ln` of a raster of 1,125 lines shows; none in vertical blanking. [PRESUMED, log 116] -/
def activeRow (ln : Nat) : Option Nat := if 42 ≤ ln ∧ ln ≤ 1121 then some (ln - 42) else none

/-- The active part of a line of one stream: `sub` is the sub-image of a 2160-line picture, which takes every second pair of pixels of
every second line; `luma` selects Y, else Cb and Cr in turn (R472). [PRESUMED, log 116] -/
def activeWords (k sub : Nat) (luma : Bool) (ln : Nat) (s : State) : List Nat :=
  let x := outputOf (.sdi k) s
  let one := F.SDI_FORMAT.get k s.cfg.accepted = 0
  match activeRow ln, x.sent with
  | some y, some p =>
    let row := fun (i : Nat) => (p.planes.getD i []).getD (if one then y else 2 * y + sub / 2 % 2) []
    (List.range 1920).map fun c =>
      if luma then (row 0).getD (if one then c else c / 2 * 4 + sub % 2 * 2 + c % 2) 64
      else (row (1 + c % 2)).getD (if one then c / 2 else c / 2 * 2 + sub % 2) 512
  | _, _ => List.replicate 1920 (if luma then 64 else 512)

/-- The ancillary packets of a line with their flags: the timecode on line 9, the payload identifier and the frame header on line 10,
in horizontal blanking (R473). [PRESUMED, log 116] -/
def lineAnc (k : Nat) (luma : Bool) (ln : Nat) (s : State) : List Nat :=
  let h := ((outputOf (.sdi k) s).sent.map (·.header)).getD {}
  let flags := fun l => [0, 0x3FF, 0x3FF] ++ l
  if ln = 9 ∧ luma then flags (timecodePacket h.timecode)
  else if ln = 10 then flags (payloadId k s.cfg.accepted) ++ (if luma then flags (headerPacket h) else [])
  else []

/-- Line `ln`, from 1 to 1,125, of one stream of an SDI output: EAV, line number, CRC, blanking with its packets, SAV, active samples
(R473). [PRESUMED, log 116] -/
def sdiLine (k sub : Nat) (luma : Bool) (ln : Nat) (s : State) : List Nat :=
  let before := if ln ≤ 1 then 1125 else ln - 1
  let head := timingRef true (activeRow ln).isNone ++ lineNumber ln
  let anc := lineAnc k luma ln s
  let gap := lineWords k s.cfg.accepted - 1920 - 12 - anc.length
  head ++ lineCrc (activeWords k sub luma before s ++ head) ++ anc ++ List.replicate gap (if luma then 64 else 512) ++
    timingRef false (activeRow ln).isNone ++ activeWords k sub luma ln s

/-- A line that an SDI output sends while it waits for the next T_n: EAV, SAV and black active samples (R476). [PRESUMED, log 116] -/
def fillLine (k : Nat) (luma : Bool) (s : State) : List Nat :=
  let v := if luma then 64 else 512
  timingRef true false ++ List.replicate (lineWords k s.cfg.accepted - 1920 - 8) v ++ timingRef false false ++ List.replicate 1920 v

/-! ### RTP (R479, R480) -/

/-- An RTP header. [PRESUMED, log 116] -/
def rtpHeader (n : Nat) (marker : Bool) (seq stamp : Nat) (w : Words) : List Byte :=
  beBytes 1 0x80 ++ beBytes 1 (b2n marker * 128 + F.SND_PT.get n w) ++ beBytes 2 seq ++ beBytes 4 stamp ++ beBytes 4 (F.SND_SSRC.get n w)

/-- A byte of up to eight bits, the first the most significant, the rest zero. -/
def bitsByte (l : List Bool) : Byte := BitVec.ofNat 8 (valMsb (l ++ List.replicate (8 - l.length) false))

/-- Values of `b` bits each, packed most significant bit first into bytes. -/
def packBits (b : Nat) (l : List Nat) : List Byte := (pieces 8 (ceilDiv (b * l.length) 8) (l.flatMap (msb b))).map bitsByte

/-- The samples of a row in the order of the pixel groups of ST 2110-20 (R480). [PRESUMED, log 116] -/
def rowSamples (p : Picture) (y : Nat) : List Nat :=
  let r := fun (i : Nat) => (p.planes.getD i []).getD y []
  if p.format = 1 then
    (List.range (r 1).length).flatMap fun c => [(r 1).getD c 0, (r 0).getD (2 * c) 0, (r 2).getD c 0, (r 0).getD (2 * c + 1) 0]
  else (List.range (r 0).length).flatMap fun c =>
    if p.format = 0 then [(r 0).getD c 0, (r 1).getD c 0, (r 2).getD c 0] else [(r 1).getD c 0, (r 0).getD c 0, (r 2).getD c 0]

/-- Packet `i` of the video frame a sender sends: whole pixel groups of one line, at most 1,200 bytes, the marker on the last
(R480). [PRESUMED, log 116] -/
def videoPacket (n i : Nat) (s : State) : List Byte :=
  let w := s.cfg.accepted
  let x := outputOf (.snd n) s
  match x.sent with
  | none => []
  | some p =>
    let g := pixelGroup p.format p.bits
    let width := planeW (p.planes.headD [])
    let per := 1200 / g.1 * g.1
    let bytes := ceilDiv width g.2 * g.1
    let many := ceilDiv bytes per
    let data := (padTo bytes (packBits p.bits (rowSamples p (i / many)))).drop (i % many * per) |>.take per
    let seq := x.seq0 + i
    rtpHeader n (i + 1 == many * (p.planes.headD []).length) (seq % 65536) x.stamp w ++ beBytes 2 (seq / 65536 % 65536) ++
      beBytes 2 data.length ++ beBytes 2 (i / many) ++ beBytes 2 (i % many * (per / g.1 * g.2)) ++ data

/-- The audio packet a sender sent last: L24 or L16 (R480). [PRESUMED, log 116] -/
def audioBytes (n : Nat) (s : State) : List Byte :=
  let w := s.cfg.accepted
  let x := outputOf (.snd n) s
  rtpHeader n false (x.seq0 % 65536) x.stamp w ++ x.audio.flatMap fun f => f.flatMap fun v =>
    if F.SND_L16.on n w then beBytes 2 (toField 16 (v / 65536)) else beBytes 3 (toField 24 (v / 256))

/-- An ancillary packet inside RFC 8331: line, place and words, filled up to 32 bits. [PRESUMED, log 116] -/
def ancField (ln : Nat) (l : List Nat) : List Byte :=
  let b := msb 1 0 ++ msb 11 ln ++ msb 12 0xFFF ++ msb 8 0 ++ l.flatMap (msb 10)
  let n := ceilDiv b.length 32 * 4
  padTo n ((pieces 8 n b).map bitsByte)

/-- The ancillary packet of a frame: the timecode and the frame-header packet (R480). [PRESUMED, log 116] -/
def ancBytes (n : Nat) (s : State) : List Byte :=
  let x := outputOf (.snd n) s
  let h := (x.sent.map (·.header)).getD {}
  let data := ancField 9 (timecodePacket h.timecode) ++ ancField 10 (headerPacket h)
  rtpHeader n true (x.seq0 % 65536) x.stamp s.cfg.accepted ++ beBytes 2 (x.seq0 / 65536 % 65536) ++ beBytes 2 data.length ++
    beBytes 1 2 ++ beBytes 3 0 ++ data

/-- Packet `i` of what a sender sent last (R480). -/
def senderPacket (n i : Nat) (s : State) : List Byte :=
  match cfgN F.SND_KIND n s with
  | 0 => videoPacket n i s
  | 1 => audioBytes n s
  | _ => ancBytes n s

/-- The Ethernet frame that carries a packet to one of a sender's destinations; the copy is the same RTP packet (R479). -/
def senderFrame (n i : Nat) (d : Nat × Nat) (s : State) : Option (List Byte) :=
  let w := s.cfg.accepted
  (destMac d.1 d.2 s).map fun a =>
    ethFrame d.1 a 0x0800 (ipPacket d.1 (F.SND_DSCP.get n w * 4) Config.ipTtl 17 d.2 []
      (udpPacket (F.SND_SRC_PORT.get n w) (F.SND_DEST_PORT.get n w) (senderPacket n i s)) s) s

/-! ### DSI packets (R588, R590, R598) -/

/-- The ECC byte of a DSI packet header of 24 bits. [PRESUMED, log 116] -/
def dsiEcc (h : Nat) : Nat :=
  ([0xF12CB7, 0xF2555B, 0x749A6D, 0xB8E38E, 0xDF03F0, 0xEFFC00].zipIdx.map fun m =>
    ((msb 24 (h &&& m.1)).filter id).length % 2 * 2 ^ m.2).sum

/-- The checksum of a long packet: x^16 + x^12 + x^5 + 1 from 0xFFFF, lowest bit first. [PRESUMED, log 116] -/
def dsiSum (l : List Byte) : Nat :=
  l.foldl (fun c b => (List.range 8).foldl (fun r _ => if r % 2 = 1 then r / 2 ^^^ 0x8408 else r / 2) (c ^^^ b.toNat)) 0xFFFF

/-- The DSI packet of a DCS command on virtual channel 0: short with up to one parameter, else long (R588). [PRESUMED, log 116] -/
def dsiPacket (l : List Byte) : List Byte :=
  let head := fun (typ d : Nat) => leBytes 3 (typ + d * 2 ^ 8) ++ leBytes 1 (dsiEcc (typ + d * 2 ^ 8))
  if l.length ≤ 2 then head (if l.length = 2 then 0x15 else 0x05) (leVal l)
  else head 0x39 l.length ++ l ++ leBytes 2 (dsiSum l)

/-- The bytes of a line of pixels: RGB888, or RGB101010 packed lowest bit first (R588, R593). [PRESUMED, log 116] -/
def pixelBytes (rgb101010 : Bool) (l : List (List Nat)) : List Byte :=
  if rgb101010 then
    let b := l.flatMap fun p => p.flatMap fun v => (msb 10 v).reverse
    (pieces 8 (b.length / 8 + 1) b).map fun x => BitVec.ofNat 8 (valLsb x)
  else l.flatMap fun p => p.map (BitVec.ofNat 8)

/-- The commands that send a rectangle (R598). -/
def rectCommands (rgb101010 : Bool) (r : Rect) : List (List Byte) :=
  let span := fun (cmd a b : Nat) => beBytes 1 cmd ++ beBytes 2 a ++ beBytes 2 b
  [span 0x2A (64 * r.left) (64 * r.right + 63), span 0x2B (16 * r.row) (16 * r.row + 15)] ++
    r.pixels.zipIdx.map fun l => beBytes 1 (if l.2 = 0 then 0x2C else 0x3C) ++ pixelBytes rgb101010 l.1

/-- The packets of a port's last update, top to bottom (R598). -/
def updatePackets (k : Nat) (s : State) : List (List Byte) :=
  (vfOf k s).sent.flatMap fun r => (rectCommands (F.VF_PANEL_PIXFMT.on k (vfOf k s).bound) r).map dsiPacket

/-! ### Audio frames (R606, R611 to R613, R616) -/

/-- The block an output plays, from its ring or from the loopback input (R611). -/
def playedBlock (p b : Nat) (s : State) : Option AudioBlock :=
  if cfgB F.AUD_SRC p s then
    (audOf (cfgN F.AUD_SRC_PORT p s) s).ring.find? fun x => x.num == b - cfgN F.AUD_DELAY_BLOCKS p s
  else (audOf p s).ring.find? fun x => x.num == b

/-- The 32-bit slot of a channel in frame `j` of the block being played: the sample's WIDTH highest bits, the rest zero; zero in an
underrun, before the frame from which the block plays, and on a disabled channel (R606, R612, R613, R616). -/
def playedSlot (p ch j : Nat) (s : State) : Nat :=
  let a := audOf p s
  match a.playing with
  | some (b, j0) =>
    if j < j0 ∨ a.chEn / 2 ^ ch % 2 = 0 then 0
    else match playedBlock p b s with
      | some x =>
        let drop := 2 ^ (32 - sampleBits p s.cfg.accepted)
        toField 32 (x.samples.getD (2 * j + ch) 0) / drop * drop
      | none => 0
  | none => 0

/-- WS and SD of a port's frame, one pair for each BCLK period: `v` are the slots of channels 0 and 1, `last` the bit before
(R606). -/
def frameBits (p : Nat) (v : Nat × Nat) (last : Bool) (w : Words) : List (Bool × Bool) :=
  let data := msb 32 v.1 ++ msb 32 v.2
  let left := F.AUD_FORMAT.on p w
  (List.range 64).map fun i => (decide (i < 32) == left, if left then data.getD i false else if i = 0 then last else data.getD (i - 1) false)

/-- Frame `j` of the current block on an output port's pins (R606). -/
def playedFrame (p j : Nat) (s : State) : List (Bool × Bool) :=
  let slots := fun (i : Nat) => (playedSlot p 0 i s, playedSlot p 1 i s)
  frameBits p (slots j) (if j = 0 then false else (slots (j - 1)).2 % 2 == 1) s.cfg.accepted

end Sys2Proof.Machine
end

