-- ==== Sys2Proof/Tests/Slice0.lean ====
section
/-! SUPPORT. The project's own tests: ill-formed commands refused by each check of WellFormed, and for every obligation
with hypotheses a theorem `wit_<Name>` that shows, clause by clause, a concrete state and operands that meet them. -/

namespace Sys2Proof.Tests

open Sys2Proof.Machine

-- Each kernel evaluation below waits for the ones before it; one at a time they need one thread, not sixty.
set_option Elab.async false

/-- A field's value written into a store. -/
def put (f : Fld) (i v : Nat) (w : Words) : Words :=
  setWord (f.key i) ((w.lookup (f.key i)).getD 0 + v * 2 ^ f.lo) w

/-- The store that holds the listed fields, each with its instance and value. -/
def words (l : List (Fld × Nat × Nat)) : Words := l.foldl (fun a x => put x.1 x.2.1 x.2.2 a) []

/-- A state past reset whose device state is `d` and whose settings hold the listed fields. -/
def at0 (d : DevState) (r : Role) (l : List (Fld × Nat × Nat)) : State :=
  { State.reset with
    dev := { state := d, role := r, powered := d == .running, resetLow := false }
    cfg := { accepted := words l } }

/-- A started role. -/
def run (r : Role) (l : List (Fld × Nat × Nat)) : State := at0 .running r l

/-- `s` with one message, and nothing else, in channel `c`. -/
def put1 (c : Nat) (p : Path) (ws : List Word) (s : State) : State :=
  { s with mbx := { s.mbx with chans := s.mbx.chans.set c { s.mbx.chans.getD c {} with inq := [⟨p, ws⟩] } } }

/-- `s` with a request for code `k`, tag 7, in channel `c`. -/
def msg (c : Nat) (p : Path) (k : Nat) (args : List Word) (s : State) : State :=
  put1 c p (header k (args.length + 1) 7 :: args) s

/-- `s` with the bulk window held by `v`. -/
def held (v : View) (s : State) : State := { s with mbx := { s.mbx with holder := some v } }

theorem at1 {c p k tag args s} (h : (s.mbx.chans.getD c {}).inq = [⟨p, header k (args.length + 1) tag :: args⟩])
    (h1 : serves c s = true) (h2 : openSeq c p s = none) : AtFront c p k tag args s :=
  ⟨⟨[], h, by simp⟩, h1, h2⟩

theorem priv1 {c p k tag args s} (h : (s.mbx.chans.getD c {}).inq = [⟨p, privHeader k (args.length + 1) tag :: args⟩])
    (h1 : serves c s = true) (h2 : openSeq c p s = none) : PrivAtFront c p k tag args s :=
  ⟨⟨[], h, by simp⟩, h1, h2⟩

theorem st1 {s : State} (h : s.dev.state = .running ∧ s.dev.powered = true ∧ s.pwr.suspended = false ∧
    s.pwr.entering = false ∧ s.pwr.thermallyOff = false) : Started s := h

/-- The path of the PCIe view's registers. -/
abbrev pc : Path := .regs .pcie

/-- The next state of an outcome. -/
def got : Host.Outcome State Fault Refusal → State
  | .next t => t
  | _ => .reset

/-- P-256's base point as a key: the key pair of private key 1. -/
def keyG : List Byte := beBytes 32 p256G.1 ++ beBytes 32 p256G.2

/-- SHA-256 of that key. -/
def hashG : List Byte := beBytes 32 0xd875db7def232236aec738c6b0bb3e80142f5d0fd8f4df24fed6eef5cbb50d9f

/-- A signed image of `kind` with an empty body, signer `g` (R643 and the header of R649). -/
def image (kind g : Nat) : List Byte :=
  let h := leBytes 4 0x47495947 ++ leBytes 4 (g * 65536 + 256 + kind) ++ List.replicate 24 0 ++ sha256 [] ++ keyG
  h ++ ecdsaSign 1 1 h ++ List.replicate 64 0

/-- The 36 words of a token by key slot 0 for the nonce 1, 2, 3, 4, its signature's r the x-coordinate of the base point and
its s the one given: what private key 1 signs with the per-signature secret 1. -/
def tokenWords (sig : Nat) : List Word :=
  [1, 2, 3, 4] ++ (beWords (keyG ++ beBytes 32 p256G.1 ++ beBytes 32 sig)).map fun w =>
    BitVec.ofNat 32 (w % 256 * 2 ^ 24 + w / 256 % 256 * 2 ^ 16 + w / 65536 % 256 * 256 + w / 2 ^ 24)

/-- Part `j` of that token. -/
def tokenPart (j sig : Nat) : List Word :=
  BitVec.ofNat 32 (0x14108007 + (if j = 5 then 0 else 256)) :: BitVec.ofNat 32 j :: ((tokenWords sig).drop (6 * j)).take 6

/-- `s` with parts 0 to 4 of that token for a request received on channel `c`, and part 5 waiting there. -/
def token (sig c k : Nat) (args : List Word) (s : State) : State :=
  let req := privHeader k (args.length + 1) 7 :: args
  { s with
    otp := { s.otp with slots := s.otp.slots.set 0 ⟨hashG, 1⟩ }
    mbx := { s.mbx with
      nonces := [⟨.regs .pcie, [1, 2, 3, 4], 0⟩]
      chans := s.mbx.chans.set c { inq := [⟨.regs .pcie, tokenPart 5 sig⟩], held := [⟨.regs .pcie, req, (List.range 5).map (tokenPart · sig), 0⟩] } } }

/-- What `LastPart` says of the waiting message, as a test. -/
def lastMsg (c : Nat) (p : Path) (ws : List Word) (s : State) : Bool :=
  (s.mbx.chans.getD c {}).inq == [⟨p, ws⟩] && serves c s && hdrCode (ws.getD 0 0).toNat == 0x1410 && !isUdp p

/-- What `LastPart` says of the open sequence, as a test. -/
def lastSeq (c : Nat) (p : Path) (k tag : Nat) (args ws : List Word) (s : State) : Bool :=
  match openSeq c p s with
  | none => false
  | some q => q.req == privHeader k (args.length + 1) tag :: args && q.parts.length == 5 && !seqLate q s &&
      partNext q ⟨c, p, ws⟩ && tokenValid { q with parts := q.parts ++ [ws] } (addPart ⟨c, p, ws⟩ (popMsg c s))

theorem lastSeq_open {c p k tag args ws s} (h : lastSeq c p k tag args ws s = true) :
    ∃ q, openSeq c p s = some q ∧ q.req = privHeader k (args.length + 1) tag :: args ∧ q.parts.length = 5 ∧
      seqLate q s = false ∧ partNext q ⟨c, p, ws⟩ = true ∧
      tokenValid { q with parts := q.parts ++ [ws] } (addPart ⟨c, p, ws⟩ (popMsg c s)) = true := by
  unfold lastSeq at h
  split at h
  · simp at h
  · exact ⟨_, ‹_›, by simpa [and_assoc] using h⟩

theorem last1 {c p k tag args ws s} (hm : lastMsg c p ws s = true) (hq : lastSeq c p k tag args ws s = true) :
    LastPart c p k tag args ws s := by
  have h := hm
  simp only [lastMsg, Bool.and_eq_true, beq_iff_eq, and_assoc] at h
  exact ⟨⟨[], h.1, by simp⟩, h.2.1, h.2.2.1, fun hu => by simp [hu] at h, lastSeq_open hq⟩

/-- A started role whose storage endpoint is enabled with eight I/O queues of at most 256 entries, in state `e`. -/
def epS (e : Endpoint) : State :=
  { run .integrated [(F.EP0_ENABLE, 0, 1), (F.EP0_IOQ_MAX, 0, 8), (F.EP0_MQES, 0, 255)] with ep := e }

/-- Command 7 of the admin queue. -/
def admC (opc nsid cdw10 cdw11 : Nat) : HostCmd := { arrival := 7, sq := 0, cmd := ⟨opc, 3, nsid, 0, cdw10, cdw11, 0⟩ }

/-- Command 7 of I/O queue 1: it has begun and issued nothing. -/
def ioC (opc lba : Nat) : HostCmd := { arrival := 7, sq := 1, cmd := ⟨opc, 3, 1, 0, lba, 0, 0⟩, begun := true }

theorem adm1 {opc a c s} (h : hostCmd a s = some c ∧ c.sq = 0 ∧ c.cmd.opc = opc ∧ c.done = false ∧ epReady s = true) :
    AdminCmd opc a c s := h

theorem io1 {opc a c s} (h : hostCmd a s = some c ∧ c.sq ≠ 0 ∧ c.cmd.opc = opc ∧ c.begun = true ∧ c.issued = false ∧
    c.done = false ∧ epReady s = true) : IoCmd opc a c s := h

/-! ### Ill-formed commands: each check of WellFormed refuses one out of its range -/

/-- Channels run from 0 to 15 (R673). -/
theorem test_wf_channels : ([
    .deviceStatus, .profileSelect, .restart, .settingsWrite, .settingsRead, .admissionReport, .portStatus, .retrain,
    .sensorWrite, .seamStatus, .frontEndStatus, .statisticsFetch, .tapStatus, .lutLoad, .aditStatus, .aditRead,
    .loopStatus, .compressorStatus, .aditCompressionStatus, .streamStatus, .bitstreamRead, .bitstreamWrite,
    .forceIdr, .decoderFlush, .recorderStatus, .recordStart, .recordStop, .clipQuery, .formatVolume, .deleteClip,
    .playbackStart, .playbackStop, .playbackStatus, .endpointStatus, .laneStatus, .scanStart, .scanRead, .scanStop,
    .testSetUp, .bitSlip, .checkerRead, .timeStatus, .ptpPortStatus, .arrayLock, .arrayUnlock, .schedule, .cancel,
    .islandStatus, .recordRead, .islandCertificateRead, .verifyCalibration, .signNow, .islandSettings,
    .redundancyStatus, .plannedSwitchOver, .headPrimaryStatus, .sdiStatus, .macStatus, .senderStatus,
    .viewfinderStatus, .overlayWrite, .refresh, .audioStatus, .startAndStop, .blockWrite, .channelStatus,
    .mailboxStatus, .nonce, .bulkWindowClaim, .bulkWindowRelease, .tokenPart, .eventLogRead, .errorQueueStatus,
    .surveyRun, .restoreFactory, .surveyStatus, .updateBegin, .updateData, .updateCommit, .updateStatus,
    .updateAbort, .attestationReport, .certificateRead, .ownerKeyInstall, .ownerKeyRevoke, .debugUnlock,
    .powerStatus, .suspend, .resume, .linkStatus, .linkRetrain] : List (Nat → Instr)).all (fun r => (r 15).wf && !(r 16).wf) = true := by decide

/-- Ports 0 to 3, with at most 44 pairs, three scripts and four gang members (R67, R59). -/
theorem test_wf_ports : ([
    .portBringUp 4 ⟨none, [], []⟩, .portBringUp 0 ⟨none, List.replicate 45 default, []⟩,
    .portBringUp 0 ⟨none, [], List.replicate 4 .done⟩, .sensorClockTimeout 4, .sensorClockLoss 4,
    .sensorClockReturn 4, .sensorClockAbsentExpiry 4, .deskewUpdate 4, .blankingWindowOpen 4, .controlBusTimeout 4,
    .trigger 4, .triggerPulseEnd 4, .frameStart 4 [], .frameStart 0 [0, 0, 0, 0, 0], .lineStart 4 0 [],
    .lineStart 0 0 [0, 0, 0, 0, 0], .lineEnd 4 [] [] [], .lineEnd 0 [] [] [(176, .openPair)], .frameEnd 4 0,
    .scriptEntryComplete 4 .ack, .outputReadback (.xtrig 4) .good, .outputReadback (.sc 4 0) .good,
    .outputReadback (.sc 0 4) .good, .outputReadback (.aud 8 0) .good, .outputReadback (.aud 0 3) .good,
    .outputReadback (.mclk 2) .good] : List Instr).all (fun i => !i.wf) = true := by decide

/-- Seams, engines, codec streams, record streams and members (R95, R251, R268, R317, R324). -/
theorem test_wf_streams : ([
    .scheduleRebase 8, .sourceAbsentExpiry 8, .exposureDecision 8, .whiteBalanceDecision 8, .leaderSilentExpiry 8,
    .aditHoldExpiry 4, .blockDone 2 [], .encodePictureBegin 8, .decodeTime 8, .accessUnitTimeout 8,
    .decodedPictureOutput 8, .recordUnitComplete 8, .ssdCommandCompletion 4 0 true, .ssdCommandTimeout 4 0,
    .ssdAbortExpiry 4 0, .ssdResetExpiry 4, .playbackReadComplete 8 true] : List Instr).all (fun i => !i.wf) = true := by decide

/-- Straps, start-up results, sensors, rails, cores and error codes (R4, R662, R703, R710, R761). -/
theorem test_wf_start : ([
    .resetRelease 4, .startUp [] true, .sensorSample [] [] [], .sensorSample (List.replicate 16 0) (List.replicate 14 0) [], .supplyOutOfLimits 14 0, .coreWatchdogExpiry 4,
    .wakeComplete 0, .wakeComplete 5, .surveyItemComplete 4 default, .errorDetected 0x10000 0 [],
    .errorDetected 0 256 [], .errorDetected 0 0 [0, 0, 0, 0, 0]] : List Instr).all (fun i => !i.wf) = true := by decide

/-- Queues, doorbells, registers, datagrams and the bulk window (R363, R386, R477, R510, R690). -/
theorem test_wf_host : ([
    .hostCqTimeout 0x10000, .doorbellWrite false 17 0 [], .doorbellWrite false 0 0x10000 [], .post .spi 16,
    .ack .spi 16, .replyHoldExpiry .spi 16, .tokenSequenceTimeout 16 .internal, .registerWrite .spi 0x200000 0,
    .registerWrite .spi 2 0, .mailboxDatagram 4 0 0 0 [], .mailboxDatagram 0 (2 ^ 32) 0 0 [],
    .mailboxDatagram 0 0 0x10000 0 [], .mailboxDatagram 0 0 0 16 [], .arrayDatagram 4 [] [],
    .arrayDatagram 0 [0, 0] [], .ethernetFrameReceive 4 .other, .macLinkDown 4, .macLinkUp 4,
    .bulkWindowWrite .spi 0x100000 [], .pcieLinkUp none 3, .pcieLinkUp (some 4) 4] : List Instr).all (fun i => !i.wf) = true := by decide

/-- Lanes 0 to 39 and their quads (R390). -/
theorem test_wf_lanes : ([
    .scanPointComplete 40 0, .laneBringUp 40 default,
    .laneBringUp 0 { (default : LaneObs) with metrics := List.replicate 17 0 },
    .laneBringUp 0 { (default : LaneObs) with dfe := List.replicate 13 0 }, .lanePllLock 10 true, .lanePllLoss 10 true,
    .lanePllRelock 10 true true, .dfeUpdate 40 [] 0, .dfeUpdate 0 (List.replicate 13 0) 0, .ctleUpdate 40 0 0 0,
    .transmitterLegFault 40 true, .laneFaultEnd 40 .pll, .signalDetect 40, .adaptationAtLimit 40, .lossOfSignal 40,
    .commonModeFault 40, .transmitterRetry 40] : List Instr).all (fun i => !i.wf) = true := by decide

/-- Groups 0 to 8, their blocks, cells and steps (R426, R430, R435, R449, R451). -/
theorem test_wf_links : ([
    .linkBringUp 9, .trainingStepTimeout 9, .uncorrectableLimit 9, .elasticFifoOverflow 9,
    .stuffingAllowanceExceeded 9, .cellSlot 9, .creditCellTimer 9, .capabilityRefuseExpiry 9, .linkRetrainCommand 9,
    .stepAck 9, .stepRefuse 9, .rateStepExpiry 9, .controlAckTimeout 9, .streamAnnounceTimer 9, .timeCellTimer 9,
    .linkReactivated 9, .receiverDetectionRetry 9, .trainingBlock 9 0 0 false 0, .trainingBlock 0 40 0 false 0,
    .alignmentBlock 9 0 0 0 0 0, .alignmentBlock 0 0 (2 ^ 64) 0 0 0, .alignmentBlock 0 0 0 16 0 0,
    .alignmentBlock 0 0 0 0 16 0, .alignmentBlock 0 0 0 0 0 (2 ^ 32), .pixelCell 0 [] true, .creditCell 0 [] true,
    .capabilityCell 0 [] true, .creditStarvation 0 3, .step 9 0, .step 0 32, .controlMessage 9 [],
    .timeCell 9 [] ⟨0, 0⟩] : List Instr).all (fun i => !i.wf) = true := by decide

/-- MACs, outputs, panels, audio ports, DRAM channels and strobe inputs (R465, R477, R588, R606, R626, R533). -/
theorem test_wf_outputs : ([
    .ptpSync 4 default, .ptpFollowUp 4 default, .ptpAnnounce 4 default, .ptpDelayReq 4 default,
    .ptpDelayResp 4 default, .ptpSendTimer 4 .sync, .strobeEdge 4 true ⟨0, 0⟩, .outputFrameSelect (.sdi 4),
    .outputFrameSelect (.snd 16), .outputFrameStart (.sdi 4) 0, .audioPacketTimer 16, .teEdge 2 none,
    .teAbsentExpiry 2, .panelTimer 2 none, .blankExpiry 2, .audioBlockTake 8, .audioBlockPresent 8,
    .audioStopComplete 8, .slaveClockFault 8, .slaveClockReturn 8, .audioInputBlock 8 (List.replicate 128 0) ⟨0, 0⟩,
    .audioInputBlock 0 [] ⟨0, 0⟩, .dramRequest 8 .control 0 none, .dramRequest 0 .control (2 ^ 38) none,
    .dramRequestComplete 8 0 [], .mr4Poll 8 0, .mr4Poll 0 8, .scrubStep 8 [], .refreshDue 8, .activateThreshold 8,
    .delayUpdate 8] : List Instr).all (fun i => !i.wf) = true := by decide

/-- The table gives no row bits, so no word spells a command. -/
theorem test_no_row_has_bits : decodeTableWord 8 0 = none := by decide

/-! ### Algorithms spec/ names by standard, on the standards' own examples -/

/-- FIPS 180-4, the message "abc". -/
theorem test_sha256_abc :
    sha256 [0x61, 0x62, 0x63] = beBytes 32 0xba7816bf8f01cfea414140de5dae2223b00361a396177a9cb410ff61f20015ad := by decide +kernel

/-- RFC 4231, test case 2: key "Jefe". -/
theorem test_hmac_jefe :
    hmacSha256 [0x4a, 0x65, 0x66, 0x65] (beBytes 28 0x7768617420646f2079612077616e7420666f72206e6f7468696e673f) =
      beBytes 32 0x5bdcc146bf60754e6a042426089575c75a003f089d2739839dec58b964ec3843 := by decide +kernel

/-- RFC 6979 A.2.5, P-256 with SHA-256, the message "sample". -/
theorem test_ecdsa_sample :
    ecdsaVerify
      (beBytes 32 0x60FED4BA255A9D31C961EB74C6356D68C049B8923B61FA6CE669622E60F29FB6 ++
        beBytes 32 0x7903FE1008B8BC99A41AE9E95628BC64F2F1B20C2D7E9F5177A3C294D4462299)
      (beBytes 6 0x73616d706c65)
      (beBytes 32 0xEFD48B2AACB6A8FD1140DD9CD45E81D69D2C877B56AAF991C34D0EA84EAF3716 ++
        beBytes 32 0xF7CB1C942D657C41D436C7A1B6E29F65F3E900DBB9AFF4064DC4AB2F843ACDA8) = true := by decide +kernel

/-- The GCM specification of McGrew and Viega, test case 14. -/
theorem test_aes_gcm_zero :
    aesGcm (List.replicate 32 0) (List.replicate 12 0) [] (List.replicate 16 0) =
      (beBytes 16 0xcea7403d4d606b6e074ec5d3baf39d18, beBytes 16 0xd0d1c8a799996bf0265b98b5d48ab919) := by decide +kernel

/-- RFC 1321 A.5, the message "abc". -/
theorem test_md5_abc : md5 (beBytes 3 0x616263) = beBytes 16 0x900150983cd24fb0d6963f7d28e17f72 := by decide +kernel

/-- The check values of CRC-32 and of CRC-16 with polynomial 0x1021 and initial value 0xFFFF, on "123456789". -/
theorem test_crc_check : crc32 (beBytes 9 0x313233343536373839) = 0xCBF43926 ∧ crc16 (beBytes 9 0x313233343536373839) = 0x29B1 := by
  decide +kernel

/-! ### Worked examples of spec/ -/

/-- Chapter 2, the table of the 12-bit group: pixel 3 spans beats 0 and 1, pixel 6 spans beats 1 and 2. -/
theorem test_packing_12 :
    (linePixels 12 [0xC000000000, 0x34000000AB, 2]).getD 3 0 = 0xABC ∧ (linePixels 12 [0xC000000000, 0x34000000AB, 2]).getD 6 0 = 0x234 := by
  decide +kernel

/-- Chapter 4: linearisation, black, fixed pattern, shading and white balance of one R sample. -/
theorem test_raw_example :
    linearise ((List.range 4096).map (256 * ·)) 14 2650 = 169600 ∧ blackFilter false 3 16400 16528 = 16416 ∧
      stageFpn [0x40000006] [[153208]] = [[153214]] ∧ gain12 0x1400 153214 = 191518 ∧ gain12 0x2000 191518 = 383036 := by
  decide +kernel

/-- The R site of chapter 5 and its neighbours; other sites hold what the example does not use. -/
def edgeSite : Plane :=
  [[0, 126000, 205000, 128000, 0], [126000, 86000, 104000, 84000, 0], [200000, 100000, 210000, 400000, 820000],
   [0, 0, 108000, 0, 0], [0, 0, 215000, 0, 0]]

/-- Chapter 5: the green of that site, and its blue from the four differences. -/
theorem test_demosaic_example :
    greenAt 4096 edgeSite 2 2 = 106000 ∧ (106000 : Int) + rs (-20000 - 22000 - 18000 - 21000) 2 = 85750 := by
  decide +kernel

/-- Chapter 6: the damped product of exposure and gain. -/
theorem test_exposure_example : expNew 10000000 0x200 (737 * 65536 / 1474) 0x80 = 3840000000 := by decide +kernel

/-- Chapter 7: predictions, quotients and reconstructions of three samples at k = 2, and the cost of their residuals. -/
theorem test_bounded_example :
    (medPred 1000 1010 1004, medPred 1011 1020 1010, medPred 1010 1030 1020) = (1006, 1020, 1020) ∧
      (encStep 1 1 16 1006 1013, encStep 1 1 16 1020 1009, encStep 1 1 16 1020 1040) = ((1, 1011), (-2, 1010), (4, 1040)) ∧
      ([1, -2, 4] : List Int).map foldRes = [2, 3, 8] ∧
      (List.range 4).map (fun k => ([2, 3, 8].map (codeLen 16 k)).sum) = [16, 12, 11, 13] ∧ bestK 16 [2, 3, 8] = 2 ∧
      [2, 3, 8].flatMap (codeWord 16 2) = [true, true, false, true, true, true, false, false, true, false, false] := by
  decide +kernel

/-- The picture of chapter 8, before its slices. -/
def ratePic : EncPic :=
  { k := 1, idr := false, header := {}, planes := [], deadline := 0, bound := words [(F.CODEC_RC_QP_MAX, 0, 51)], cap := 9600000,
    target := 7547169, base := 7547169, qp := 30, cols := 60, rows := 34, sliceRows := 4, reserved := 0 }

/-- Chapter 8: the reserve, the base of a P picture, the plans, and the quantiser after each slice's cost. -/
theorem test_rate_example :
    minCost 1 34 60 4 = 469568 ∧ sliceCount ratePic = 9 ∧
      (List.range 6).map (slicePlan ratePic []) = [887902, 1775804, 2663706, 3551608, 4439511, 5327413] ∧
      ([(1, 900000), (2, 2300000), (3, 3700000), (4, 5200000), (5, 6600000)].map fun x =>
        sliceQpOf 0 { ratePic with bits := x.2 } [] x.1) = [30, 32, 32, 33, 33] ∧
      sliceQpOf 0 { ratePic with bits := 7900000, spentAt := some 6 } [] 6 = 51 := by
  decide +kernel

/-- Chapter 8: the base and the target of a P picture with no deviation. -/
theorem test_rate_target :
    picTarget 0 (words [(F.CODEC_RC_RC_MODE, 0, 1), (F.CODEC_RC_TARGET_BPS, 0, 400000000), (F.CODEC_RC_INTRA_PERIOD, 0, 50),
      (F.CODEC_RC_W_I, 0, 0x40)]) {} false 9600000 50 1 = (7547169, 7547169) := by decide +kernel

/-- Chapter 7: the grid of 3840 × 2160, and the worst frame that R45 charges. -/
theorem test_grid_example :
    (blkCols 3840, blkRows 3840 2160, blkCount 3840 2160) = (3, 270, 810) ∧
      (List.range 3).map (blkWidth 3840) = [1024, 1024, 1792] ∧ worstFrame 3840 2160 16 = 16605000 := by
  decide +kernel

/-- Chapter 9: the map entry that the reader of clip 7 meets. -/
theorem test_lode_example :
    entryOf 0x8003A1F00F05E007 = ⟨2, 0, 14879, 61534, 7⟩ ∧ mapEntryBits ⟨2, 0, 14879, 61534, 7⟩ = 0x8003A1F00F05E007 := by
  decide +kernel

/-- A host command of the lock example: opcode (1 write, 2 read), first LBA and block count. -/
def lockCmd (op lba n : Nat) : NvmeCmd :=
  { opc := op, cid := 0, nsid := 1, prp1 := 0, cdw10 := lba, cdw11 := 0, cdw12 := n - 1 }

/-- Chapter 10: A conflicts with B, C with both, D with none. -/
theorem test_lock_example :
    let a := lockCmd 1 0 64; let b := lockCmd 2 32 8; let c := lockCmd 1 36 64; let d := lockCmd 2 500 8
    (conflicts a b, conflicts a c, conflicts b c, conflicts a d, conflicts b d, conflicts c d) =
      (true, true, true, false, false, false) := by
  decide +kernel

/-- Chapter 11: grid, duration and size of the eye scan. -/
theorem test_scan_example :
    (scanCols 2, scanRows 8, scanMs 2 8 24 (rateBaud1001 0x10)) = (32, 32, 9774) := by decide +kernel

/-- Chapter 12: the offset of the head's clock, in 2^-16 ns. -/
theorem test_theta_example :
    linkTheta ⟨1000, 5000000 * 65536⟩ ⟨1000, 5000612 * 65536 + 19661⟩ ⟨1000, 5200000 * 65536⟩ ⟨1000, 5199488 * 65536 + 32768⟩ 400 = 36811571 := by
  decide +kernel

/-- Chapter 13: packets of a frame and the rate of a sender of 3840 × 2160 4:2:2 10-bit at 60000/1001. -/
theorem test_sender_example :
    let w := words [(F.SND_SRC_KIND, 0, 0), (F.SND_SRC_INDEX, 0, 1), (F.SND_FPS_NUM, 0, 60000), (F.SND_FPS_DEN, 0, 1001),
      (F.TAP_SRC_FORMAT, 1, 1), (F.TAP_SRC_OUT_W, 1, 3840), (F.TAP_SRC_OUT_H, 1, 2160)]
    senderLoad 0 w = (17280, 20736000) ∧ senderRate 0 0x0D w = 11023120880 := by
  decide +kernel

/-- Chapter 14: one sample of the servo. -/
theorem test_servo_example : servo 2621440 125000000 0x8000 0x1000 0 = (107, 0x13FFFFC3B) := by decide +kernel

/-- Chapter 15: duration and record of the exposure of frame 120,000. -/
theorem test_record_example :
    pulseDuration ⟨⟨5000, 12345679 * 65536 + 12288⟩, 2, ⟨5000, 14429012 * 65536 + 32768⟩, 0⟩ = 0x1FCA055 ∧
      (let b := recordHead 2 ⟨120000, 0x8124, ⟨0x1388, 0xBC614E * 65536 + 0x5000⟩, 2, 0x1FCA055, 0, some (List.replicate 16 1)⟩
          { State.reset with islNv := { sealCount := 3, boot := 41 } }
       (leVal (b.take 8), leVal ((b.drop 8).take 12), leVal ((b.drop 20).take 6), leVal ((b.drop 26).take 10)) =
         (120000, 2 * 2 ^ 94 + 0x1388 * 2 ^ 46 + 0xBC614E * 2 ^ 16 + 0x5000, 0x1FCA055,
           0x8124 + 3 * 2 ^ 16 + 2 * 2 ^ 32 + 41 * 2 ^ 48)) := by
  decide +kernel

/-- Chapter 17: block 1,000,000 of a 48 kHz port, and the first frame after a late block is present. -/
theorem test_audio_example :
    frameNs 48000 64000000 = 1333333333333 ∧ frameFrom 48000 1333333800000 = 64000023 ∧ frameNs 48000 64000023 = 1333333812500 := by
  decide +kernel

/-- Chapter 18: where address 0x1234_5678 of 64 GiB lies, and its check burst. -/
theorem test_dram_example :
    (dramChan 0x12345678, dramBank 0x12345678, dramRow 0x12345678) = (3, 14, 582) ∧
      checkBurst (words [(F.DRAM_CFG_DENSITY, 0, 3)]) 0x12345678 = 0xF01234540 := by
  decide +kernel

/-- Chapter 19: the three records of the example, and the end record. -/
theorem test_records_example :
    ((parseRecords 4 0 [0x03020002, 0, 0xA0000000, 0x7D0, 0x03020101, 0x10000000, 0xFFFFFFFF, 0x03020101, 0x01000000, 0x3E8,
        0, 0x20000000]).1.map fun r => (r.page, r.word, r.typ, r.profile, r.data)) =
      [(0x0302, 0, 0, 0, [0xA0000000, 0x7D0]), (0x0302, 1, 1, 0, [0xFFFFFFFF]), (0x0302, 1, 0, 1, [0x3E8]), (0, 0, 2, 0, [])] := by
  decide +kernel

/-- Chapter 20: the headers of the array lock through MB3. -/
theorem test_header_example :
    replyWords 0x1401103C (.accept [1, 2, 3, 4]) = [0x1401583C, 1, 2, 3, 4] ∧
      replyWords 0x0E10553C (.accept []) = [0x0E10183C] ∧
      replyWords 0x0E10553C (.refuse 4 0x1403 0) = [0x0E103A3C, 0x04001403, 0] := by
  decide +kernel

/-- Chapter 21: a read-strobe delay between its factory sets, at 61 °C. -/
theorem test_survey_example : calBetween 70 58 (25 * 16) (85 * 16) (61 * 16) = 63 := by decide +kernel

/-- Chapter 23: the queue of the example: the SSD failure goes first, then the retrain again, then the late notice. -/
theorem test_queue_example :
    let a : ErrEntry := ⟨0x0C05, 0, 1, [], 1, .running, 2⟩
    let b : ErrEntry := ⟨0x0302, 0, 0, [], 1, .waiting, 0⟩
    let c : ErrEntry := ⟨0x0904, 0, 2, [], 1, .waiting, 0⟩
    nextAction [a, b, c] = some 2 ∧ (runEntry 2 [a, b, c]).map (·.phase) = [.suspended, .waiting, .running] ∧
      nextAction [a, b] = some 0 ∧ nextAction [b] = some 0 := by
  decide +kernel

/-- The body of chapter 1's admission example: two heads, one adit into lossless Forurn raw, one intra HEVC stream. -/
def bodyExample : Words := words [
  (F.SEAM_SRC_ENABLE, 0, 1), (F.SEAM_SRC_SRC_TYPE, 0, 1), (F.SEAM_SRC_DEPTH, 0, 3), (F.SEAM_SRC_SRC_INDEX, 0, 0),
  (F.SEAM_GEOM_WIDTH, 0, 8192), (F.SEAM_GEOM_HEIGHT, 0, 4320), (F.SEAM_GEOM_FPS_NUM, 0, 240), (F.SEAM_GEOM_FPS_DEN, 0, 1),
  (F.SEAM_SCHED_MODE, 0, 1), (F.SEAM_SCHED_STRIPE_LINES, 0, 1),
  (F.SEAM_SRC_ENABLE, 1, 1), (F.SEAM_SRC_SRC_TYPE, 1, 1), (F.SEAM_SRC_DEPTH, 1, 3), (F.SEAM_SRC_SRC_INDEX, 1, 4),
  (F.SEAM_GEOM_WIDTH, 1, 6144), (F.SEAM_GEOM_HEIGHT, 1, 3240), (F.SEAM_GEOM_FPS_NUM, 1, 120), (F.SEAM_GEOM_FPS_DEN, 1, 1),
  (F.SEAM_SCHED_MODE, 1, 1), (F.SEAM_SCHED_STRIPE_LINES, 1, 1),
  (F.LINK_ENABLE, 0, 1), (F.LINK_FIRST_LANE, 0, 0), (F.LINK_WIDTH, 0, 2), (F.LINK_ENABLE, 1, 1), (F.LINK_FIRST_LANE, 1, 4),
  (F.LINK_WIDTH, 1, 1), (F.LANE_PROTO, 0, 1), (F.LANE_PROTO, 4, 1), (F.LANE_RATE, 0, 0x10), (F.LANE_RATE, 4, 0x10),
  (F.ADIT_ENABLE, 0, 1), (F.ADIT_SEAM, 0, 0), (F.ADIT_POINT, 0, 1), (F.ADIT_DEPTH, 0, 16), (F.CMP_ENABLE, 0, 1),
  (F.TAP_SRC_ENABLE, 1, 1), (F.TAP_SRC_SEAM, 1, 1), (F.TAP_SRC_FORMAT, 1, 1), (F.TAP_SRC_OUT_W, 1, 6144), (F.TAP_SRC_OUT_H, 1, 3240),
  (F.CODEC_STRM_ENABLE, 0, 1), (F.CODEC_STRM_PROFILE, 0, 4), (F.CODEC_STRM_CHROMA, 0, 1), (F.CODEC_STRM_SRC_INDEX, 0, 1),
  (F.CODEC_STRM_MAX_BPS, 0, 2400000000), (F.CODEC_PIC_OUT_W, 0, 6144), (F.CODEC_PIC_OUT_H, 0, 3240), (F.CODEC_PIC_FRAME_DIV, 0, 1),
  (F.REC_VOL_ENABLE, 0, 1), (F.REC_VOL_RP_MASK, 0, 15), (F.REC_VOL_SSD_WRITE_MBPS 0, 0, 5000), (F.REC_VOL_SSD_WRITE_MBPS 1, 0, 5000),
  (F.REC_VOL_SSD_WRITE_MBPS 2, 0, 5000), (F.REC_VOL_SSD_WRITE_MBPS 3, 0, 5000),
  (F.REC_ENABLE, 0, 1), (F.REC_KIND, 0, 0), (F.REC_SOURCE, 0, 0), (F.REC_ENABLE, 1, 1), (F.REC_KIND, 1, 1), (F.REC_SOURCE, 1, 0)]

/-- Chapter 1: the nine admission terms of that body, every one within its limit. -/
theorem test_admission_example :
    (terms .body bodyExample).map (fun t => (t.id, t.inst, t.value, t.limit)) =
      [(1, 0, 13714882560, 18000000000), (2, 0, 149495494880, 245760000000), (3, 0, 135897415680, 200000000000),
       (3, 4, 38221578240, 100000000000), (4, 0, 497664, 1000000), (5, 0, 3000000000, 3840000000), (6, 0, 1, 8),
       (7, 0, 8493465600, 20000000000), (8, 0, 17303520000, 18000000000), (9, 0, 2, 8)] := by
  decide +kernel

/-- The two seams of chapter 3's worked example. -/
def ringExample : Words := words [
  (F.SEAM_SRC_ENABLE, 0, 1), (F.SEAM_SRC_DEPTH, 0, 3), (F.SEAM_GEOM_WIDTH, 0, 4096), (F.SEAM_GEOM_HEIGHT, 0, 2160),
  (F.SEAM_GEOM_FPS_NUM, 0, 240), (F.SEAM_SCHED_MODE, 0, 1), (F.SEAM_SCHED_STRIPE_LINES, 0, 1), (F.SEAM_SCHED_LATENCY_US, 0, 2000),
  (F.SEAM_GEOM_MIN_LINE_NS, 0, 827), (F.SEAM_SRC_ENABLE, 1, 1), (F.SEAM_SRC_DEPTH, 1, 1), (F.SEAM_SRC_SRC_INDEX, 1, 1),
  (F.SEAM_GEOM_WIDTH, 1, 4096), (F.SEAM_GEOM_HEIGHT, 1, 3072), (F.SEAM_GEOM_FPS_NUM, 1, 60), (F.SEAM_SCHED_LATENCY_US, 1, 20000),
  (F.SEAM_GEOM_MIN_LINE_NS, 1, 622)]

/-- Chapter 3: unit times, response bounds and least ring depths of both seams. -/
theorem test_ring_example :
    ([0, 1].map fun n => (unitNs .integrated ringExample n, boundNs .integrated ringExample n, minDepth .integrated ringExample n)) =
      [(17280, 4922241, 70), (655574, 17422241, 2)] := by
  decide +kernel

/-- Chapter 24: SP2_D17_P and MBX_CS_L. -/
theorem test_ball_positions :
    (ballAt 19 7, ballName 19 7, ballAt 46 45, ballName 46 45) = (some (.pair 2 17 false), "Y7", some (.misc 74), "BH45") := by decide

/-- Chapter 24: ball G20 carries VDD_CORE. -/
theorem test_ball_core : (ballName 7 20, ballAt 7 20) = ("G20", some (.rail 0)) := by decide
/-! ### Witnesses: the hypotheses of every obligation, clause by clause -/

/-- The hypotheses of each clause of Obligations.StepRunsFront, met together. -/
theorem wit_StepRunsFront :
    (∃ (c : Instr), ∃ (rest : List Instr), ∃ (s : State), s.pending = c :: rest) :=
  ⟨.reset, [.unitStart], { State.reset with pending := [.reset, .unitStart] }, rfl⟩

/-- The hypotheses of each clause of Obligations.IdleOnEmptyQueue, met together. -/
theorem wit_IdleOnEmptyQueue :
    (∃ (s : State), s.pending = []) :=
  ⟨State.reset, by decide +kernel⟩

/-- The hypotheses of each clause of Obligations.QueueFirstInFirstOut, met together. -/
theorem wit_QueueFirstInFirstOut :
    (∃ (c : Instr), ∃ (rest : List Instr), ∃ (s : State), ∃ (t : State), s.pending = c :: rest ∧ step s = .next t) ∧
    (∃ (c : Instr), ∃ (s : State), ((∀ ch k a d, c = .dramRequest ch k a d → a < dramUsable s.cfg.accepted))) ∧
    (∃ (c : Instr), ∃ (rest : List Instr), ∃ (s : State), s.pending = c :: rest ∧ ((∀ ch k a d, c = .dramRequest ch k a d → a < dramUsable s.cfg.accepted))) :=
  ⟨⟨.reset, [.unitStart], { State.reset with pending := [.reset, .unitStart] }, got (step { State.reset with pending := [.reset, .unitStart] }), rfl, rfl⟩,
   ⟨.dramRequest 0 .control 64 none, run .integrated [], fun _ _ _ _ h => by cases h; decide +kernel⟩,
   ⟨.dramRequest 0 .control 64 none, [.reset], { State.reset with pending := [.dramRequest 0 .control 64 none, .reset] }, rfl, fun _ _ _ _ h => by cases h; decide +kernel⟩⟩

/-- The hypotheses of each clause of Obligations.StepKeepsInv, met together. -/
theorem wit_StepKeepsInv :
    (∃ (s : State), ∃ (t : State), Inv s ∧ step s = .next t) :=
  ⟨{ State.reset with pending := [.reset, .unitStart] }, got (step { State.reset with pending := [.reset, .unitStart] }), ⟨by decide, by decide, by decide, by decide⟩, rfl⟩

/-- The hypotheses of each clause of Obligations.CountersOnlyRise, met together. -/
theorem wit_CountersOnlyRise :
    (∃ (s : State), ∃ (t : State), step s = .next t) ∧
    (∃ (s : State), ∃ (t : State), ∃ n, step s = .next t ∧ (s.otp.slots.getD n {}).state ≤ 2) :=
  ⟨⟨{ State.reset with pending := [.reset, .unitStart] }, got (step { State.reset with pending := [.reset, .unitStart] }), rfl⟩,
   ⟨{ State.reset with pending := [.reset, .unitStart] }, got (step { State.reset with pending := [.reset, .unitStart] }), 2, rfl, by decide +kernel⟩⟩

/-- The hypotheses of each clause of Obligations.WholeStateWriters, met together. -/
theorem wit_WholeStateWriters :
    (∃ (i : Instr), ∃ (s : State), ∃ (t : State), exec i s = .next t) :=
  ⟨.reset, State.reset, got (exec .reset State.reset), rfl⟩

/-- The hypotheses of each clause of Obligations.WatchdogStartsAgain, met together. -/
theorem wit_WatchdogStartsAgain :
    (∃ (s : State), s.dev.state ≠ .off ∧ s.dev.state ≠ .bootRom) :=
  ⟨run .integrated [], by decide +kernel⟩

/-- The hypotheses of each clause of Obligations.ResetsAndStarts, met together. -/
theorem wit_ResetsAndStarts :
    (∃ (s : State), s.dev.resetLow = true ∧ s.pwr.tripHeld = false) ∧
    (∃ (s : State), s.dev.resetLow = true ∧ s.pwr.tripHeld = true) ∧
    (∃ (s : State), s.pwr.tripHeld = true ∧ s.dev.resetLow = false) ∧
    (∃ (s : State), s.dev.resetLow = true) :=
  ⟨⟨{ run .head [] with dev := { (run .head []).dev with resetLow := true } }, by decide +kernel⟩,
   ⟨{ run .head [] with dev := { (run .head []).dev with resetLow := true }, pwr := { tripHeld := true } }, by decide +kernel⟩,
   ⟨{ run .head [] with pwr := { tripHeld := true } }, by decide +kernel⟩,
   ⟨{ run .head [] with dev := { (run .head []).dev with resetLow := true }, pwr := { tripHeld := true } }, by decide +kernel⟩⟩

/-- The hypotheses of each clause of Obligations.StartUpSteps, met together. -/
theorem wit_StartUpSteps :
    (∃ (s : State), s.dev.state = .starting ∧ imageReason 0 (chooseSlot 1 s).2.nvm.header (chooseSlot 1 s).2 ≠ 0) ∧
    (∃ b, ∃ (s : State), ∃ (u : State), s.dev.state = .starting ∧ chooseSlot 1 s = (b, u) ∧ imageReason 0 u.nvm.header u = 0 ∧ imageReason 1 (regionOf 1 b u) u = 0) ∧
    (∃ (u : State), u.dev.role = .reserved) ∧
    (∃ (u : State), u.dev.part = .h ∧ (u.dev.role = .integrated ∨ u.dev.role = .body)) ∧
    (∃ (s : State), s.dev.state = .ready) :=
  ⟨⟨at0 .starting .integrated [], by decide +kernel⟩,
   ⟨false, { at0 .starting .integrated [] with otp := { vendorHash := hashG }, nvm := { header := image 0 0, vendorA := image 1 0 } }, { at0 .starting .integrated [] with otp := { vendorHash := hashG }, nvm := { header := image 0 0, vendorA := image 1 0 } }, by decide +kernel, rfl, by decide +kernel⟩,
   ⟨at0 .running .reserved [], by decide +kernel⟩,
   ⟨{ at0 .running .body [] with dev := { state := .running, role := .body, part := .h } }, by decide +kernel⟩,
   ⟨at0 .ready .integrated [], by decide +kernel⟩⟩

/-- The hypotheses of each clause of Obligations.HeadframeEvents, met together. -/
theorem wit_HeadframeEvents :
    (∃ (s : State), headframeOn s = true) ∧
    (∃ mV, ∃ (s : State), headframeOn s = true ∧ railOk 2 mV = false) ∧
    (∃ mV, ∃ (s : State), headframeOn s = true ∧ railOk 3 mV = false ∧ s.isl.running = true) ∧
    (∃ rail, ∃ mV, ∃ (s : State), headframeOn s = true ∧ rail < 14 ∧ rail ≠ 2 ∧ rail ≠ 3 ∧ railOk rail mV = false) ∧
    (∃ rail, ∃ mV, railOk rail mV = true) ∧
    (∃ core, ∃ (s : State), s.dev.state = .running ∧ core < 4 ∧ s.mbx.asleep.contains (core + 1) = false ∧ s.hf.coreReset.getD core none = none) ∧
    (∃ core, ∃ (s : State), ∃ n, s.dev.state = .running ∧ core < 4 ∧ s.mbx.asleep.contains (core + 1) = false ∧ s.hf.coreReset.getD core none = some n ∧ s.dev.elapsed ≤ n + 10 * ticksPerSec) ∧
    (∃ e, ∃ rest, ∃ (s : State), headframeOn s = true ∧ s.log.waiting = e :: rest) ∧
    (∃ (s : State), headframeOn s = true) ∧
    (∃ (s : State), headframeOn s = true ∧ s.hf.update.state = .writing) ∧
    (∃ (s : State), headframeOn s = true) ∧
    (∃ (s : State), headframeOn s = true) ∧
    (∃ (s : State), headframeOn s = true ∧ cfgN F.PWR_CORE_PMBUS 0 s ≠ 0) ∧
    (∃ (s : State), headframeOn s = true ∧ cfgN F.PWR_CORE_PMBUS 0 s ≠ 0) :=
  ⟨⟨run .integrated [], by decide +kernel⟩,
   ⟨600, run .integrated [], by decide +kernel⟩,
   ⟨600, { run .integrated [] with isl := { running := true } }, by decide +kernel⟩,
   ⟨0, 600, run .integrated [], by decide +kernel⟩,
   ⟨0, 760, by decide +kernel⟩,
   ⟨3, run .integrated [], by decide +kernel⟩,
   ⟨3, { run .integrated [] with hf := { coreReset := List.replicate 4 (some 0) } }, 0, by decide +kernel⟩,
   ⟨⟨5, false, ⟨0, 0⟩, 1, 0x0401, 0, 1, []⟩, [], { run .head [] with log := { next := 6, waiting := [⟨5, false, ⟨0, 0⟩, 1, 0x0401, 0, 1, []⟩] } }, by decide +kernel⟩,
   ⟨run .integrated [], by decide +kernel⟩,
   ⟨{ run .integrated [] with hf := { update := { state := .writing, kind := 3 } } }, by decide +kernel⟩,
   ⟨run .integrated [], by decide +kernel⟩,
   ⟨run .integrated [], by decide +kernel⟩,
   ⟨run .integrated [(F.PWR_CORE_PMBUS, 0, 1)], by decide +kernel⟩,
   ⟨run .integrated [(F.PWR_CORE_PMBUS, 0, 1)], by decide +kernel⟩⟩

/-- The hypotheses of each clause of Obligations.ThermalAlarm, met together. -/
theorem wit_ThermalAlarm :
    (∃ (s : State), headframeOn s = true) :=
  ⟨run .integrated [], by decide +kernel⟩

/-- The hypotheses of each clause of Obligations.UpdatesAndOtp, met together. -/
theorem wit_UpdatesAndOtp :
    (∃ (s : State), s.hf.update.state = .writing ∧ s.hf.update.kind = 3) ∧
    (∃ (s : State), s.hf.update.state = .writing ∧ s.hf.update.kind = 2) ∧
    (∃ (s : State), s.hf.update.state = .writing) ∧
    (∃ (s : State), s.hf.update.state = .receiving) ∧
    (∃ (s : State), s.dev.state = .running ∧ s.dev.troubled = false) ∧
    (∃ item, ∃ obs, ∃ (s : State), s.hf.surveyRunning = [item, 3] ∧ (item = 1 ∨ item = 2) ∧ surveyPass item obs s = false) ∧
    (∃ item, ∃ obs, ∃ (s : State), s.hf.surveyRunning.contains item = true ∧ item ≠ 0 ∧ surveyPass item obs s = true ∧ s.isl.running = false) ∧
    (∃ w, ∃ rest, ∃ (s : State), s.otp.queue = w :: rest ∧ w ≠ .debugged) ∧
    (∃ rest, ∃ (s : State), s.otp.queue = .debugged :: rest) ∧
    (∃ w, ∃ rest, ∃ (s : State), s.otp.queue = w :: rest) :=
  ⟨⟨{ run .integrated [] with hf := { update := { state := .writing, kind := 3 } } }, by decide +kernel⟩,
   ⟨{ run .integrated [] with hf := { update := { state := .writing, kind := 2 } } }, by decide +kernel⟩,
   ⟨{ run .integrated [] with hf := { update := { state := .writing, kind := 1 } } }, by decide +kernel⟩,
   ⟨{ run .integrated [] with hf := { update := { state := .receiving, kind := 1 } } }, by decide +kernel⟩,
   ⟨run .integrated [], by decide +kernel⟩,
   ⟨1, ⟨0, 100, 0, [], 8, false⟩, { run .integrated [] with hf := { surveyRunning := [1, 3] } }, by decide +kernel⟩,
   ⟨3, ⟨0, 10, 0, [], 8, true⟩, { run .integrated [] with hf := { surveyRunning := [3] } }, by decide +kernel⟩,
   ⟨.revoke 1, [.debugged], { run .integrated [] with otp := { queue := [.revoke 1, .debugged] } }, by decide +kernel⟩,
   ⟨[.revoke 1], { run .integrated [] with otp := { queue := [.debugged, .revoke 1] } }, by decide +kernel⟩,
   ⟨.counter 1 2, [], { run .integrated [] with otp := { queue := [.counter 1 2] } }, by decide +kernel⟩⟩

/-- The hypotheses of each clause of Obligations.ErrorQueueEvents, met together. -/
theorem wit_ErrorQueueEvents :
    (∃ code, ∃ inst, ∃ sev, ∃ (q : ErrorQueue), q.entries.any (mergesInto code inst) = false ∧ q.entries.length < 64 ∧ ((sev = 3 → ∀ x ∈ q.entries, x.sev = 3))) ∧
    (∃ code, ∃ inst, ∃ sev, ∃ (q : ErrorQueue), ∃ (k : Nat), ∃ (x : ErrEntry), q.entries.any (mergesInto code inst) = true ∧ sev < 3 ∧ q.entries[k]? = some x) ∧
    (∃ code, ∃ inst, ∃ sev, ∃ (q : ErrorQueue), q.entries.any (mergesInto code inst) = false ∧ q.entries.length = 64 ∧ sev < 3 ∧ ((∀ x ∈ q.entries, x.phase = .waiting → sev ≤ x.sev))) ∧
    (∃ k, ∃ e, ∃ (s : State), headframeOn s = true ∧ nextAction s.err.entries = some k ∧ s.err.entries[k]? = some e ∧ e.sev < 3) ∧
    (∃ e, ∃ (s : State), headframeOn s = true ∧ s.err.entries = [e] ∧ e.sev = 3 ∧ s.dev.state = .configError) ∧
    (∃ (s : State), s.err.entries = []) ∧
    (∃ code, ∃ (ds : List Word), ∃ (s : State), ∃ sev, headframeOn s = true ∧ s.dev.state ≠ .running ∧ errSev code (ds.map BitVec.toNat) s = some sev) ∧
    (∃ inst, ∃ k, ∃ (s : State), headframeOn s = true ∧ s.dev.state = .running ∧ inst < s.comp.engines.length ∧ k < s.comp.engines.length ∧ k ≠ inst ∧ (s.comp.engines.getD k {}).out = false) :=
  ⟨⟨0x0402, 0, 1, { entries := [⟨0x0401, 0, 1, [], 1, .waiting, 0⟩] }, by decide +kernel⟩,
   ⟨0x0401, 0, 1, { entries := [⟨0x0401, 0, 1, [], 1, .waiting, 0⟩] }, 0, ⟨0x0401, 0, 1, [], 1, .waiting, 0⟩, by decide +kernel⟩,
   ⟨0x0402, 0, 1, { entries := List.replicate 64 ⟨0x0401, 0, 1, [], 1, .waiting, 0⟩ }, by decide +kernel⟩,
   ⟨0, ⟨0x0401, 0, 1, [], 1, .waiting, 0⟩, { run .integrated [] with err := { entries := [⟨0x0401, 0, 1, [], 1, .waiting, 0⟩] } }, by decide +kernel⟩,
   ⟨⟨0x0105, 0, 3, [], 1, .waiting, 0⟩, { at0 .configError .integrated [] with err := { entries := [⟨0x0105, 0, 3, [], 1, .waiting, 0⟩] } }, by decide +kernel⟩,
   ⟨run .integrated [], by decide +kernel⟩,
   ⟨0x1508, [], at0 .ready .integrated [], 1, by decide +kernel, by decide +kernel, rfl⟩,
   ⟨0, 1, run .integrated [], by decide +kernel⟩⟩

/-- The hypotheses of each clause of Obligations.EveryRaiseIsLogged, met together. -/
theorem wit_EveryRaiseIsLogged :
    (∃ (s : State), s.log.waiting.length < 4096) :=
  ⟨run .integrated [], by decide +kernel⟩

/-- The hypotheses of each clause of Obligations.SensorClockAndTraining, met together. -/
theorem wit_SensorClockAndTraining :
    (∃ p, ∃ (s : State), portLive p s = true ∧ (portOf p s).clock = true ∧ leadOf p s = p ∧ (portOf p s).fv = false) ∧
    (∃ p, ∃ (s : State), portLive p s = true ∧ (portOf p s).clock = true ∧ leadOf p s = p ∧ (portOf p s).fv = true ∧ (portOf p s).skip = false) ∧
    (∃ p, ∃ (s : State), portLive p s = true ∧ (portOf p s).clock = true ∧ leadOf p s ≠ p ∧ (portOf (leadOf p s) s).fv = false) ∧
    (∃ p, ∃ (s : State), portLive p s = true ∧ (portOf p s).clock = false ∧ ((portOf p s).phase = .running ∨ (portOf p s).phase = .stopped ∨ (portOf p s).phase = .retrain)) ∧
    (∃ p, ∃ (s : State), portLive p s = true ∧ (portOf p s).clock = false ∧ (portOf p s).absentLong = false ∧ (portOf p s).retrainAsked = false) ∧
    (∃ p, ∃ (s : State), portLive p s = true ∧ (portOf p s).clock = false ∧ ((portOf p s).absentLong = true ∨ (portOf p s).retrainAsked = true) ∧ (portOf p s).phase ≠ .bringUp ∧ (portOf p s).phase ≠ .off ∧ leadOf p s ≠ p) ∧
    (∃ p, ∃ (s : State), portLive p s = true ∧ (portOf p s).clock = false ∧ ((portOf p s).absentLong = true ∨ (portOf p s).retrainAsked = true) ∧ (portOf p s).phase ≠ .bringUp ∧ (portOf p s).phase ≠ .off ∧ leadOf p s = p) ∧
    (∃ p, ∃ (s : State), portLive p s = true ∧ (portOf p s).phase = .bringUp ∧ (portOf p s).clock = false) ∧
    (∃ p, ∃ k, ∃ (obs : TrainObs), ∃ (s : State), portLive p s = true ∧ (portOf p s).phase = .bringUp ∧ obs.clockKHz = some k ∧ clockOk p k s = true ∧ p < s.cap.ports.length ∧ trainFaults p obs s = 0) ∧
    (∃ p, ∃ k, ∃ (obs : TrainObs), ∃ (s : State), portLive p s = true ∧ (portOf p s).phase = .bringUp ∧ obs.clockKHz = some k ∧ clockOk p k s = true ∧ p < s.cap.ports.length ∧ (maskStops p (trainFaults p obs s) s = true ∨ hasPair (trainFaults p obs s) pairCK = true)) ∧
    (∃ p, ∃ (s : State), portLive p s = true ∧ (portOf p s).phase = .running ∧ (portOf (leadOf p s) s).fv = false ∧ (portOf p s).moved = false ∧ calSets 0 p s ≠ []) :=
  ⟨⟨0, { run .integrated [(F.SP_PORT_ENABLE, 0, 1)] with cap := { ports := List.replicate 4 { clock := true } } }, by decide +kernel⟩,
   ⟨0, { run .integrated [(F.SP_PORT_ENABLE, 0, 1)] with cap := { ports := List.replicate 4 { clock := true, fv := true, skip := false } } }, by decide +kernel⟩,
   ⟨1, { run .integrated [(F.SP_PORT_ENABLE, 1, 1), (F.SP_PORT_GANG, 0, 1), (F.SP_PORT_GANG, 1, 3)] with cap := { ports := List.replicate 4 { phase := .running, clock := true } } }, by decide +kernel⟩,
   ⟨0, { run .integrated [(F.SP_PORT_ENABLE, 0, 1)] with cap := { ports := List.replicate 4 { phase := .stopped } } }, by decide +kernel⟩,
   ⟨0, { run .integrated [(F.SP_PORT_ENABLE, 0, 1)] with cap := { ports := List.replicate 4 { phase := .running } } }, by decide +kernel⟩,
   ⟨1, { run .integrated [(F.SP_PORT_ENABLE, 1, 1), (F.SP_PORT_GANG, 0, 1), (F.SP_PORT_GANG, 1, 3)] with cap := { ports := List.replicate 4 { phase := .running, absentLong := true } } }, by decide +kernel⟩,
   ⟨0, { run .integrated [(F.SP_PORT_ENABLE, 0, 1)] with cap := { ports := List.replicate 4 { phase := .stopped, retrainAsked := true } } }, by decide +kernel⟩,
   ⟨0, { run .integrated [(F.SP_PORT_ENABLE, 0, 1)] with cap := { ports := List.replicate 4 { phase := .bringUp } } }, by decide +kernel⟩,
   ⟨0, 74250, ⟨some 74250, List.replicate 42 ⟨[⟨0, 7, [true, false, false, false, false, false, false, false]⟩], false, false, [true, false, false, false, false, false, false, false]⟩ ++ [⟨[⟨0, 7, [true, true]⟩], false, false, [true, true]⟩, ⟨[], false, false, []⟩], [.done, .done, .done]⟩, { run .integrated [(F.SP_PORT_ENABLE, 0, 1), (F.SP_PORT_CK_MHZ, 0, 74), (F.SP_TRAIN_LENGTH, 0, 8), (F.SP_TRAIN_MIN_WINDOW, 0, 3), (F.SP_TRAIN_PAT_D_LO 0, 0, 0xFFFFFFFF), (F.SP_TRAIN_PAT_D_HI 0, 0, 0xFF), (F.SP_TRAIN_PAT_FV 0, 0, 1), (F.SP_TRAIN_PAT_LV 0, 0, 1), (F.SP_TRAIN_PAT_DV 0, 0, 1)] with cap := { ports := List.replicate 4 { phase := .bringUp } } }, by decide +kernel⟩,
   ⟨0, 74250, ⟨some 74250, [], [.done, .done, .done]⟩, { run .integrated [(F.SP_PORT_ENABLE, 0, 1), (F.SP_PORT_CK_MHZ, 0, 74), (F.SP_TRAIN_LENGTH, 0, 8), (F.SP_TRAIN_MIN_WINDOW, 0, 3), (F.SP_TRAIN_PAT_D_LO 0, 0, 0xFFFFFFFF), (F.SP_TRAIN_PAT_D_HI 0, 0, 0xFF), (F.SP_TRAIN_PAT_FV 0, 0, 1), (F.SP_TRAIN_PAT_LV 0, 0, 1), (F.SP_TRAIN_PAT_DV 0, 0, 1)] with cap := { ports := List.replicate 4 { phase := .bringUp } } }, by decide +kernel⟩,
   ⟨0, { run .integrated [(F.SP_PORT_ENABLE, 0, 1)] with cap := { ports := List.replicate 4 { phase := .running } }, hf := { factoryValid := true, factory := [⟨0, 0, 0, []⟩] } }, by decide +kernel⟩⟩

/-- The hypotheses of each clause of Obligations.FrameSignals, met together. -/
theorem wit_FrameSignals :
    (∃ p, ∃ (s : State), ∃ n, portLive p s = true ∧ leadOf p s = p ∧ (portOf p s).fv = false ∧ (portOf p s).clock = true ∧ (portOf p s).phase = .running ∧ gangPorts s.cfg.accepted p = [p] ∧ (portOf p s).newFaults = 0 ∧ portSeam p s = some n ∧ s.pwr.entering = false) ∧
    (∃ p, ∃ (s : State), portLive p s = true ∧ leadOf p s = p ∧ (portOf p s).fv = false ∧ (portOf p s).clock = true ∧ (portOf p s).phase = .running ∧ gangPorts s.cfg.accepted p = [p] ∧ (portOf p s).newFaults = 0 ∧ portSeam p s = none) ∧
    (∃ p, ∃ gap, ∃ least, ∃ (s : State), portLive p s = true ∧ (portOf p s).fv = true ∧ (portOf p s).lv = false ∧ least = (if (portOf p s).lines = 0 then cfgN F.SP_PORT_FV_EDGE_GAP p s else cfgN F.SP_PORT_LV_GAP p s) ∧ gap < least) ∧
    (∃ p, ∃ gap, ∃ least, ∃ skews, ∃ (s : State), portLive p s = true ∧ (portOf p s).fv = true ∧ (portOf p s).lv = false ∧ least = (if (portOf p s).lines = 0 then cfgN F.SP_PORT_FV_EDGE_GAP p s else cfgN F.SP_PORT_LV_GAP p s) ∧ least ≤ gap ∧ lvSkewsBad skews = true) ∧
    (∃ p, ∃ gap, ∃ least, ∃ skews, ∃ (s : State), portLive p s = true ∧ (portOf p s).fv = true ∧ (portOf p s).lv = false ∧ least = (if (portOf p s).lines = 0 then cfgN F.SP_PORT_FV_EDGE_GAP p s else cfgN F.SP_PORT_LV_GAP p s) ∧ least ≤ gap ∧ lvSkewsBad skews = false ∧ ((portOf p s).skip = true ∨ portSeam p s = none)) ∧
    (∃ p, ∃ gap, ∃ least, ∃ skews, ∃ (s : State), ∃ n, portLive p s = true ∧ (portOf p s).fv = true ∧ (portOf p s).lv = false ∧ least = (if (portOf p s).lines = 0 then cfgN F.SP_PORT_FV_EDGE_GAP p s else cfgN F.SP_PORT_LV_GAP p s) ∧ least ≤ gap ∧ lvSkewsBad skews = false ∧ (portOf p s).skip = false ∧ portSeam p s = some n) ∧
    (∃ p, ∃ n, ∃ (s : State), portLive p s = true ∧ (portOf p s).fv = true ∧ (portOf p s).lv = true ∧ gangPorts s.cfg.accepted p = [p] ∧ portSeam p s = some n ∧ (portOf p s).skip = true) ∧
    (∃ p, ∃ n, ∃ (s : State), portLive p s = true ∧ (portOf p s).fv = true ∧ (portOf p s).lv = true ∧ gangPorts s.cfg.accepted p = [p] ∧ portSeam p s = some n ∧ (portOf p s).skip = false) ∧
    (∃ p, ∃ n, ∃ (s : State), ∃ f, portLive p s = true ∧ (portOf p s).fv = true ∧ (portOf p s).lv = true ∧ gangPorts s.cfg.accepted p = [p] ∧ portSeam p s = some n ∧ (portOf p s).skip = false ∧ detected p 0 f s ≠ 0) ∧
    (∃ p, ∃ gap, ∃ (s : State), portLive p s = true ∧ (portOf p s).fv = true ∧ (portOf p s).lv = false ∧ cfgN F.SP_PORT_FV_EDGE_GAP p s ≤ gap ∧ (portOf p s).skip = true ∧ portSeam p s = none ∧ gangPorts s.cfg.accepted p = [p] ∧ (portOf p s).retrainAsked = false) ∧
    (∃ p, ∃ gap, ∃ n, ∃ (f : SeamFrame), ∃ (s : State), portLive p s = true ∧ (portOf p s).fv = true ∧ (portOf p s).lv = false ∧ cfgN F.SP_PORT_FV_EDGE_GAP p s ≤ gap ∧ (portOf p s).skip = false ∧ portSeam p s = some n ∧ receivingOf n s = some f ∧ gangPorts s.cfg.accepted p = [p] ∧ (portOf p s).retrainAsked = false ∧ p < s.cap.ports.length ∧ n < s.cap.seams.length ∧ f.header.num = (portOf p s).lastNum ∧ seamH s.cfg.accepted n ≤ f.lines.length) ∧
    (∃ p, ∃ (s : State), (portOf p s).fv = false) :=
  ⟨⟨0, { run .integrated [(F.SP_PORT_ENABLE, 0, 1), (F.SEAM_SRC_ENABLE, 0, 1)] with cap := { ports := List.replicate 4 { clock := true, phase := .running } } }, 0, by decide +kernel⟩,
   ⟨0, { run .integrated [(F.SP_PORT_ENABLE, 0, 1)] with cap := { ports := List.replicate 4 { clock := true, phase := .running } } }, by decide +kernel⟩,
   ⟨0, 15, 16, { run .integrated [(F.SP_PORT_ENABLE, 0, 1), (F.SP_PORT_LV_GAP, 0, 16)] with cap := { ports := List.replicate 4 { fv := true, clock := true, phase := .running, lines := 3 } } }, by decide +kernel⟩,
   ⟨0, 16, 16, [9], { run .integrated [(F.SP_PORT_ENABLE, 0, 1), (F.SP_PORT_LV_GAP, 0, 16)] with cap := { ports := List.replicate 4 { fv := true, clock := true, phase := .running, lines := 3 } } }, by decide +kernel⟩,
   ⟨0, 16, 16, [8, -8], { run .integrated [(F.SP_PORT_ENABLE, 0, 1), (F.SP_PORT_LV_GAP, 0, 16)] with cap := { ports := List.replicate 4 { fv := true, clock := true, phase := .running, lines := 3 } } }, by decide +kernel⟩,
   ⟨0, 16, 16, [8, -8], { run .integrated [(F.SP_PORT_ENABLE, 0, 1), (F.SP_PORT_LV_GAP, 0, 16), (F.SEAM_SRC_ENABLE, 0, 1)] with cap := { ports := List.replicate 4 { fv := true, clock := true, phase := .running, lines := 3, skip := false } } }, 0, by decide +kernel⟩,
   ⟨0, 0, { run .integrated [(F.SP_PORT_ENABLE, 0, 1), (F.SEAM_SRC_ENABLE, 0, 1)] with cap := { ports := List.replicate 4 { fv := true, clock := true, phase := .running, lv := true, lines := 3 } } }, by decide +kernel⟩,
   ⟨0, 0, { run .integrated [(F.SP_PORT_ENABLE, 0, 1), (F.SEAM_SRC_ENABLE, 0, 1)] with cap := { ports := List.replicate 4 { fv := true, clock := true, phase := .running, lv := true, skip := false, lines := 3 } } }, by decide +kernel⟩,
   ⟨0, 0, { run .integrated [(F.SP_PORT_ENABLE, 0, 1), (F.SEAM_SRC_ENABLE, 0, 1)] with cap := { ports := List.replicate 4 { fv := true, clock := true, phase := .running, lv := true, skip := false, lines := 3 } } }, [(40, .openPair)], by decide +kernel⟩,
   ⟨0, 1000, { run .integrated [(F.SP_PORT_ENABLE, 0, 1)] with cap := { ports := List.replicate 4 { fv := true, clock := true, phase := .running } } }, by decide +kernel⟩,
   ⟨0, 1000, 0, { (default : SeamFrame) with header := { num := 7 }, lines := List.replicate 64 [] }, { run .integrated [(F.SP_PORT_ENABLE, 0, 1), (F.SEAM_SRC_ENABLE, 0, 1), (F.SEAM_GEOM_HEIGHT, 0, 64)] with cap := { ports := List.replicate 4 { fv := true, clock := true, phase := .running, skip := false, lastNum := 7 }, seams := { receiving := true, frames := [{ (default : SeamFrame) with header := { num := 7 }, lines := List.replicate 64 [] }] } :: List.replicate 7 {} } }, by decide +kernel⟩,
   ⟨0, run .integrated [], by decide +kernel⟩⟩

/-- The hypotheses of each clause of Obligations.BlankingAndScripts, met together. -/
theorem wit_BlankingAndScripts :
    (∃ p, ∃ n, ∃ fall, ∃ (s : State), portLive p s = true ∧ portSeam p s = some n ∧ leadOf p s = p ∧ (portOf p s).fvFall = some fall ∧ (portOf p s).phase = .running ∧ (portOf p s).windowOpen = false ∧ (portOf p s).fv = false ∧ fall + seqDelay p s ≤ nowUnits s ∧ ((portOf p s).windowFrame ≠ (portOf p s).lastNum ∨ (portOf p s).windowFrom ≠ fall + seqDelay p s)) ∧
    (∃ p, ∃ sc, ∃ (s : State), (portOf p s).running = some sc ∧ (portOf p s).pos + 1 < sc.entries.length ∧ busDead p s = false ∧ entOp (sc.entries.getD (portOf p s).pos 0) = 1) ∧
    (∃ p, ∃ sc, ∃ (s : State), (portOf p s).running = some sc ∧ (portOf p s).pos + 1 = sc.entries.length ∧ busDead p s = false ∧ entOp (sc.entries.getD (portOf p s).pos 0) = 1) ∧
    (∃ p, ∃ n, ∃ (s : State), portLive p s = true ∧ portSeam p s = some n ∧ leadOf p s = p ∧ (portOf p s).suppressed = false ∧ F.SP_TRIG_ENABLE.on p (trigWords p s) = true ∧ s.time.running = true ∧ (portOf p s).trigOff = false ∧ rebaseDue n s = false ∧ schedPoint n (nextTrigger n p s) s + portDelay p s ≤ (nowUnits s : Int)) ∧
    (∃ p, ∃ n, ∃ (s : State), portLive p s = true ∧ portSeam p s = some n ∧ leadOf p s = p ∧ (portOf p s).suppressed = false ∧ F.SP_TRIG_ENABLE.on p (trigWords p s) = true ∧ s.time.running = true ∧ (portOf p s).trigOff = false ∧ rebaseDue n s = false ∧ (nowUnits s : Int) < schedPoint n (nextTrigger n p s) s + portDelay p s) ∧
    (∃ p, ∃ (s : State), portLive p s = true ∧ (portOf p s).trigAt + pulseUnits p s ≤ nowUnits s) ∧
    (∃ p, ∃ (s : State), portLive p s = true ∧ nowUnits s < (portOf p s).trigAt + pulseUnits p s) ∧
    (∃ n, ∃ (s : State), blkOn .sensor s = true ∧ cfgB F.SP_TRIG_ENABLE n s = true ∧ (portOf n s).trigOff = false ∧ (portOf n s).trigShort = false) ∧
    (∃ n, ∃ (s : State), blkOn .sensor s = true ∧ cfgB F.SP_TRIG_ENABLE n s = true ∧ (portOf n s).trigOff = false ∧ (portOf n s).trigShort = true) :=
  ⟨⟨0, 0, 0, { run .integrated [(F.SP_PORT_ENABLE, 0, 1), (F.SEAM_SRC_ENABLE, 0, 1)] with cap := { ports := List.replicate 4 { phase := .running, fvFall := some 0, lastNum := 4, windowFrame := 3 } }, time := { sec := 1 } }, by decide +kernel⟩,
   ⟨0, ⟨3, [0x1000000000000000, 0x1000000000000001], .message⟩, { run .integrated [(F.SP_PORT_ENABLE, 0, 1)] with cap := { ports := List.replicate 4 { running := some ⟨3, [0x1000000000000000, 0x1000000000000001], .message⟩ } } }, by decide +kernel⟩,
   ⟨0, ⟨3, [0x1000000000000000, 0x1000000000000001], .message⟩, { run .integrated [(F.SP_PORT_ENABLE, 0, 1)] with cap := { ports := List.replicate 4 { pos := 1, running := some ⟨3, [0x1000000000000000, 0x1000000000000001], .message⟩ } } }, by decide +kernel⟩,
   ⟨0, 0, { run .integrated [(F.SP_PORT_ENABLE, 0, 1), (F.SEAM_SRC_ENABLE, 0, 1), (F.SP_TRIG_ENABLE, 0, 1), (F.SEAM_GEOM_FPS_NUM, 0, 60), (F.SEAM_GEOM_FPS_DEN, 0, 1)] with cap := { ports := List.replicate 4 { suppressed := false }, seams := List.replicate 8 { committed := words [(F.SP_TRIG_ENABLE, 0, 1), (F.SEAM_GEOM_FPS_NUM, 0, 60), (F.SEAM_GEOM_FPS_DEN, 0, 1)] } }, time := { running := true, sec := 1, exp := List.replicate 8 { n := 1, armed := true, rate := (60, 1) } } }, by decide +kernel⟩,
   ⟨0, 0, { run .integrated [(F.SP_PORT_ENABLE, 0, 1), (F.SEAM_SRC_ENABLE, 0, 1), (F.SP_TRIG_ENABLE, 0, 1), (F.SEAM_GEOM_FPS_NUM, 0, 60), (F.SEAM_GEOM_FPS_DEN, 0, 1)] with cap := { ports := List.replicate 4 { suppressed := false }, seams := List.replicate 8 { committed := words [(F.SP_TRIG_ENABLE, 0, 1), (F.SEAM_GEOM_FPS_NUM, 0, 60), (F.SEAM_GEOM_FPS_DEN, 0, 1)] } }, time := { running := true, sec := 1, exp := List.replicate 8 { n := 61, armed := true, rate := (60, 1) } } }, by decide +kernel⟩,
   ⟨0, { run .integrated [(F.SP_PORT_ENABLE, 0, 1)] with cap := { ports := List.replicate 4 { trigLevel := true } }, time := { sec := 1 } }, by decide +kernel⟩,
   ⟨0, { run .integrated [(F.SP_PORT_ENABLE, 0, 1)] with cap := { ports := List.replicate 4 { trigLevel := true, trigAt := 1 } } }, by decide +kernel⟩,
   ⟨0, run .integrated [(F.SP_TRIG_ENABLE, 0, 1)], by decide +kernel⟩,
   ⟨0, { run .integrated [(F.SP_TRIG_ENABLE, 0, 1)] with cap := { ports := List.replicate 4 { trigShort := true } } }, by decide +kernel⟩⟩

/-- The hypotheses of each clause of Obligations.StatusMessages, met together. -/
theorem wit_StatusMessages :
    (∃ c, ∃ tag, ∃ p, ∃ (s : State), routed c 0x0100 = true ∧ AtFront c p 0x0100 tag [] s ∧ Started s ∧ hasBlk .always s = true) ∧
    (∃ i, ∃ c, ∃ tag, ∃ p, ∃ (s : State), i < 4 ∧ routed c (0x0200 + 16 * i) = true ∧ AtFront c p (0x0200 + 16 * i) tag [] s ∧ Started s ∧ hasBlk .sensor s = true) ∧
    (∃ i, ∃ c, ∃ tag, ∃ p, ∃ (s : State), i < 8 ∧ routed c (0x0300 + 16 * i) = true ∧ AtFront c p (0x0300 + 16 * i) tag [] s ∧ Started s ∧ hasBlk .ingest s = true) ∧
    (∃ i, ∃ c, ∃ tag, ∃ p, ∃ (s : State), i < 8 ∧ routed c (0x0400 + i) = true ∧ AtFront c p (0x0400 + i) tag [] s ∧ Started s ∧ hasBlk .frontHead s = true) ∧
    (∃ i, ∃ c, ∃ tag, ∃ p, ∃ (s : State), i < 8 ∧ routed c (0x0500 + 16 * i) = true ∧ AtFront c p (0x0500 + 16 * i) tag [] s ∧ Started s ∧ hasBlk .colour s = true) ∧
    (∃ i, ∃ c, ∃ tag, ∃ p, ∃ (s : State), i < 4 ∧ routed c (0x0430 + i) = true ∧ AtFront c p (0x0430 + i) tag [] s ∧ Started s ∧ hasBlk .colour s = true) ∧
    (∃ i, ∃ c, ∃ tag, ∃ p, ∃ (s : State), i < 8 ∧ routed c (0x0610 + i) = true ∧ AtFront c p (0x0610 + i) tag [] s ∧ Started s ∧ hasBlk .colour s = true) ∧
    (∃ c, ∃ tag, ∃ p, ∃ (s : State), routed c 0x0700 = true ∧ AtFront c p 0x0700 tag [] s ∧ Started s ∧ hasBlk .compressor s = true) ∧
    (∃ i, ∃ c, ∃ tag, ∃ p, ∃ (s : State), i < 4 ∧ routed c (0x0708 + i) = true ∧ AtFront c p (0x0708 + i) tag [] s ∧ Started s ∧ hasBlk .compressor s = true) ∧
    (∃ i, ∃ c, ∃ tag, ∃ p, ∃ (s : State), i < 8 ∧ routed c (0x0800 + i) = true ∧ AtFront c p (0x0800 + i) tag [] s ∧ Started s ∧ hasBlk .codec s = true) ∧
    (∃ c, ∃ tag, ∃ p, ∃ (s : State), routed c 0x0900 = true ∧ AtFront c p 0x0900 tag [] s ∧ Started s ∧ hasBlk .recorder s = true) ∧
    (∃ c, ∃ tag, ∃ p, ∃ (s : State), routed c 0x0A00 = true ∧ AtFront c p 0x0A00 tag [] s ∧ Started s ∧ hasBlk .endpoint s = true) ∧
    (∃ i, ∃ c, ∃ tag, ∃ p, ∃ (s : State), i < 8 ∧ routed c (0x0C00 + 16 * i) = true ∧ AtFront c p (0x0C00 + 16 * i) tag [] s ∧ Started s ∧ hasBlk .shaft s = true) ∧
    (∃ c, ∃ tag, ∃ p, ∃ (s : State), routed c 0x0C80 = true ∧ AtFront c p 0x0C80 tag [] s ∧ Started s ∧ hasBlk .cage s = true) ∧
    (∃ i, ∃ c, ∃ tag, ∃ p, ∃ (s : State), i < 4 ∧ routed c (0x0D00 + i) = true ∧ AtFront c p (0x0D00 + i) tag [] s ∧ Started s ∧ hasBlk .media s = true) ∧
    (∃ i, ∃ c, ∃ tag, ∃ p, ∃ (s : State), i < 4 ∧ routed c (0x0D08 + i) = true ∧ AtFront c p (0x0D08 + i) tag [] s ∧ Started s ∧ hasBlk .media s = true) ∧
    (∃ i, ∃ c, ∃ tag, ∃ p, ∃ (s : State), i < 16 ∧ routed c (0x0D10 + i) = true ∧ AtFront c p (0x0D10 + i) tag [] s ∧ Started s ∧ hasBlk .media s = true) ∧
    (∃ c, ∃ tag, ∃ p, ∃ (s : State), routed c 0x0E00 = true ∧ AtFront c p 0x0E00 tag [] s ∧ Started s ∧ hasBlk .always s = true) ∧
    (∃ c, ∃ tag, ∃ p, ∃ (s : State), routed c 0x0F00 = true ∧ AtFront c p 0x0F00 tag [] s ∧ Started s ∧ hasBlk .always s = true) ∧
    (∃ c, ∃ tag, ∃ p, ∃ (s : State), routed c 0x1000 = true ∧ AtFront c p 0x1000 tag [] s ∧ Started s ∧ hasBlk .always s = true) ∧
    (∃ i, ∃ c, ∃ tag, ∃ p, ∃ (s : State), i < 2 ∧ routed c (0x1100 + i) = true ∧ AtFront c p (0x1100 + i) tag [] s ∧ Started s ∧ hasBlk .media s = true) ∧
    (∃ i, ∃ c, ∃ tag, ∃ p, ∃ (s : State), i < 8 ∧ routed c (0x1200 + i) = true ∧ AtFront c p (0x1200 + i) tag [] s ∧ Started s ∧ hasBlk .media s = true) ∧
    (∃ i, ∃ c, ∃ tag, ∃ p, ∃ (s : State), i < 8 ∧ routed c (0x1300 + i) = true ∧ AtFront c p (0x1300 + i) tag [] s ∧ Started s ∧ hasBlk .dram s = true) ∧
    (∃ c, ∃ tag, ∃ p, ∃ (s : State), routed c 0x1512 = true ∧ AtFront c p 0x1512 tag [] s ∧ Started s ∧ hasBlk .always s = true) ∧
    (∃ c, ∃ tag, ∃ p, ∃ (s : State), routed c 0x1523 = true ∧ AtFront c p 0x1523 tag [] s ∧ Started s ∧ hasBlk .always s = true) :=
  ⟨⟨1, 7, pc, (msg 1 pc 0x0100 [] (run .integrated [])), by decide +kernel, at1 (by decide +kernel) (by decide +kernel) (by decide +kernel), st1 (by decide +kernel), by decide +kernel⟩,
   ⟨3, 1, 7, pc, (msg 1 pc (0x0200 + 16 * 3) [] (run .integrated [])), by decide +kernel, by decide +kernel, at1 (by decide +kernel) (by decide +kernel) (by decide +kernel), st1 (by decide +kernel), by decide +kernel⟩,
   ⟨7, 1, 7, pc, (msg 1 pc (0x0300 + 16 * 7) [] (run .integrated [])), by decide +kernel, by decide +kernel, at1 (by decide +kernel) (by decide +kernel) (by decide +kernel), st1 (by decide +kernel), by decide +kernel⟩,
   ⟨7, 1, 7, pc, (msg 1 pc (0x0400 + 7) [] (run .integrated [])), by decide +kernel, by decide +kernel, at1 (by decide +kernel) (by decide +kernel) (by decide +kernel), st1 (by decide +kernel), by decide +kernel⟩,
   ⟨7, 1, 7, pc, (msg 1 pc (0x0500 + 16 * 7) [] (run .integrated [])), by decide +kernel, by decide +kernel, at1 (by decide +kernel) (by decide +kernel) (by decide +kernel), st1 (by decide +kernel), by decide +kernel⟩,
   ⟨3, 1, 7, pc, (msg 1 pc (0x0430 + 3) [] (run .integrated [])), by decide +kernel, by decide +kernel, at1 (by decide +kernel) (by decide +kernel) (by decide +kernel), st1 (by decide +kernel), by decide +kernel⟩,
   ⟨7, 1, 7, pc, (msg 1 pc (0x0610 + 7) [] (run .integrated [])), by decide +kernel, by decide +kernel, at1 (by decide +kernel) (by decide +kernel) (by decide +kernel), st1 (by decide +kernel), by decide +kernel⟩,
   ⟨1, 7, pc, (msg 1 pc 0x0700 [] (run .integrated [])), by decide +kernel, at1 (by decide +kernel) (by decide +kernel) (by decide +kernel), st1 (by decide +kernel), by decide +kernel⟩,
   ⟨3, 1, 7, pc, (msg 1 pc (0x0708 + 3) [] (run .integrated [])), by decide +kernel, by decide +kernel, at1 (by decide +kernel) (by decide +kernel) (by decide +kernel), st1 (by decide +kernel), by decide +kernel⟩,
   ⟨7, 1, 7, pc, (msg 1 pc (0x0800 + 7) [] (run .integrated [])), by decide +kernel, by decide +kernel, at1 (by decide +kernel) (by decide +kernel) (by decide +kernel), st1 (by decide +kernel), by decide +kernel⟩,
   ⟨1, 7, pc, (msg 1 pc 0x0900 [] (run .integrated [])), by decide +kernel, at1 (by decide +kernel) (by decide +kernel) (by decide +kernel), st1 (by decide +kernel), by decide +kernel⟩,
   ⟨1, 7, pc, (msg 1 pc 0x0A00 [] (run .integrated [])), by decide +kernel, at1 (by decide +kernel) (by decide +kernel) (by decide +kernel), st1 (by decide +kernel), by decide +kernel⟩,
   ⟨7, 1, 7, pc, (msg 1 pc (0x0C00 + 16 * 7) [] (run .body [])), by decide +kernel, by decide +kernel, at1 (by decide +kernel) (by decide +kernel) (by decide +kernel), st1 (by decide +kernel), by decide +kernel⟩,
   ⟨1, 7, pc, (msg 1 pc 0x0C80 [] (run .body [(F.RED_ENABLE, 0, 1)])), by decide +kernel, at1 (by decide +kernel) (by decide +kernel) (by decide +kernel), st1 (by decide +kernel), by decide +kernel⟩,
   ⟨3, 1, 7, pc, (msg 1 pc (0x0D00 + 3) [] (run .integrated [])), by decide +kernel, by decide +kernel, at1 (by decide +kernel) (by decide +kernel) (by decide +kernel), st1 (by decide +kernel), by decide +kernel⟩,
   ⟨3, 1, 7, pc, (msg 1 pc (0x0D08 + 3) [] (run .integrated [])), by decide +kernel, by decide +kernel, at1 (by decide +kernel) (by decide +kernel) (by decide +kernel), st1 (by decide +kernel), by decide +kernel⟩,
   ⟨15, 1, 7, pc, (msg 1 pc (0x0D10 + 15) [] (run .integrated [])), by decide +kernel, by decide +kernel, at1 (by decide +kernel) (by decide +kernel) (by decide +kernel), st1 (by decide +kernel), by decide +kernel⟩,
   ⟨1, 7, pc, (msg 1 pc 0x0E00 [] (run .integrated [])), by decide +kernel, at1 (by decide +kernel) (by decide +kernel) (by decide +kernel), st1 (by decide +kernel), by decide +kernel⟩,
   ⟨14, 7, pc, (msg 14 pc 0x0F00 [] (run .integrated [])), by decide +kernel, at1 (by decide +kernel) (by decide +kernel) (by decide +kernel), st1 (by decide +kernel), by decide +kernel⟩,
   ⟨1, 7, pc, (msg 1 pc 0x1000 [] (run .integrated [])), by decide +kernel, at1 (by decide +kernel) (by decide +kernel) (by decide +kernel), st1 (by decide +kernel), by decide +kernel⟩,
   ⟨1, 1, 7, pc, (msg 1 pc (0x1100 + 1) [] (run .integrated [])), by decide +kernel, by decide +kernel, at1 (by decide +kernel) (by decide +kernel) (by decide +kernel), st1 (by decide +kernel), by decide +kernel⟩,
   ⟨7, 1, 7, pc, (msg 1 pc (0x1200 + 7) [] (run .integrated [])), by decide +kernel, by decide +kernel, at1 (by decide +kernel) (by decide +kernel) (by decide +kernel), st1 (by decide +kernel), by decide +kernel⟩,
   ⟨7, 1, 7, pc, (msg 1 pc (0x1300 + 7) [] (run .integrated [])), by decide +kernel, by decide +kernel, at1 (by decide +kernel) (by decide +kernel) (by decide +kernel), st1 (by decide +kernel), by decide +kernel⟩,
   ⟨1, 7, pc, (msg 1 pc 0x1512 [] (run .integrated [])), by decide +kernel, at1 (by decide +kernel) (by decide +kernel) (by decide +kernel), st1 (by decide +kernel), by decide +kernel⟩,
   ⟨1, 7, pc, (msg 1 pc 0x1523 [] (run .integrated [])), by decide +kernel, at1 (by decide +kernel) (by decide +kernel) (by decide +kernel), st1 (by decide +kernel), by decide +kernel⟩⟩

/-- The hypotheses of each clause of Obligations.StatusWithArguments, met together. -/
theorem wit_StatusWithArguments :
    (∃ (w : Word), ∃ c, ∃ tag, ∃ p, ∃ (s : State), c < 14 ∧ AtFront c p 0x0105 tag [w] s ∧ Started s ∧ w.toNat &&& 0xFFFFFF07 = w.toNat ∧ 0 < w.toNat % 8 ∧ w.toNat % 8 < 7 ∧ bits w.toNat 31 16 ≠ 0x0F00 ∧ pageReserved (request1 c p 0x0105 tag [w]) = false ∧ ((∃ pg, pageOf (bits w.toNat 31 16) = some pg ∧ bits w.toNat 15 8 + w.toNat % 8 ≤ pg.1.words))) ∧
    (∃ (w : Word), ∃ (t : Term), ∃ c, ∃ tag, ∃ p, ∃ (s : State), c < 14 ∧ AtFront c p 0x0110 tag [w] s ∧ Started s ∧ w.toNat < 65536 ∧ reportTerm (request1 c p 0x0110 tag [w]) s = some t) ∧
    (∃ w, ∃ c, ∃ tag, ∃ p, ∃ (s : State), c < 14 ∧ AtFront c p 0x0903 tag [w] s ∧ Started s ∧ hasBlk .recorder s = true ∧ w.toNat < 4095) ∧
    (∃ w, ∃ c, ∃ tag, ∃ p, ∃ (s : State), c < 14 ∧ AtFront c p 0x0908 tag [w] s ∧ Started s ∧ hasBlk .recorder s = true ∧ w.toNat < 8) ∧
    (∃ w, ∃ c, ∃ tag, ∃ p, ∃ (s : State), c < 14 ∧ AtFront c p 0x1700 tag [w] s ∧ Started s ∧ w.toNat < 14) ∧
    (∃ w, ∃ c, ∃ tag, ∃ p, ∃ (s : State), c < 14 ∧ AtFront c p 0x1400 tag [w] s ∧ Started s ∧ w.toNat < 16) ∧
    (∃ w, ∃ c, ∃ tag, ∃ p, ∃ (s : State), c < 14 ∧ AtFront c p 0x1501 tag [w] s ∧ Started s ∧ w.toNat < 2) ∧
    (∃ m, ∃ c, ∃ tag, ∃ p, ∃ (s : State), m < 4 ∧ c < 14 ∧ AtFront c p (0x0E08 + m) tag [] s ∧ Started s ∧ hasBlk .media s = true) ∧
    (∃ c, ∃ tag, ∃ p, ∃ (s : State), c < 14 ∧ AtFront c p 0x1004 tag [] s ∧ Started s ∧ s.dev.role = .head) ∧
    (∃ c, ∃ tag, ∃ p, ∃ (s : State), c < 14 ∧ AtFront c p 0x1004 tag [] s ∧ Started s ∧ s.dev.role ≠ .head) :=
  ⟨⟨0x01000001, 1, 7, pc, (msg 1 pc 0x0105 [0x01000001] (run .integrated [])), by decide +kernel, at1 (by decide +kernel) (by decide +kernel) (by decide +kernel), st1 (by decide +kernel), by decide +kernel, by decide +kernel, by decide +kernel, by decide +kernel, by decide +kernel, ⟨_, rfl, by decide +kernel⟩⟩,
   ⟨0, (reportTerm (request1 1 pc 0x0110 7 [0]) (run .integrated [])).getD ⟨1, 0, 0, 0, true⟩, 1, 7, pc, (msg 1 pc 0x0110 [0] (run .integrated [])), by decide +kernel, at1 (by decide +kernel) (by decide +kernel) (by decide +kernel), st1 (by decide +kernel), by decide +kernel⟩,
   ⟨5, 1, 7, pc, (msg 1 pc 0x0903 [5] (run .integrated [])), by decide +kernel, at1 (by decide +kernel) (by decide +kernel) (by decide +kernel), st1 (by decide +kernel), by decide +kernel⟩,
   ⟨5, 1, 7, pc, (msg 1 pc 0x0908 [5] (run .integrated [])), by decide +kernel, at1 (by decide +kernel) (by decide +kernel) (by decide +kernel), st1 (by decide +kernel), by decide +kernel⟩,
   ⟨13, 1, 7, pc, (msg 1 pc 0x1700 [13] (run .integrated [])), by decide +kernel, at1 (by decide +kernel) (by decide +kernel) (by decide +kernel), st1 (by decide +kernel), by decide +kernel⟩,
   ⟨15, 1, 7, pc, (msg 1 pc 0x1400 [15] (run .integrated [])), by decide +kernel, at1 (by decide +kernel) (by decide +kernel) (by decide +kernel), st1 (by decide +kernel), by decide +kernel⟩,
   ⟨1, 1, 7, pc, (msg 1 pc 0x1501 [1] (run .integrated [])), by decide +kernel, at1 (by decide +kernel) (by decide +kernel) (by decide +kernel), st1 (by decide +kernel), by decide +kernel⟩,
   ⟨3, 1, 7, pc, (msg 1 pc (0x0E08 + 3) [] (run .integrated [])), by decide +kernel, by decide +kernel, at1 (by decide +kernel) (by decide +kernel) (by decide +kernel), st1 (by decide +kernel), by decide +kernel⟩,
   ⟨1, 7, .internal, (msg 1 .internal 0x1004 [] (run .head [])), by decide +kernel, at1 (by decide +kernel) (by decide +kernel) (by decide +kernel), st1 (by decide +kernel), by decide +kernel⟩,
   ⟨1, 7, pc, (msg 1 pc 0x1004 [] (run .integrated [])), by decide +kernel, at1 (by decide +kernel) (by decide +kernel) (by decide +kernel), st1 (by decide +kernel), by decide +kernel⟩⟩

/-- The hypotheses of each clause of Obligations.PrivilegedRequestsAreHeld, met together. -/
theorem wit_PrivilegedRequestsAreHeld :
    ∀ x ∈ ([(.restart, 0x0103), (.formatVolume, 0x0904), (.deleteClip, 0x0905), (.arrayLock, 0x0E10), (.arrayUnlock, 0x0E11), (.islandSettings, 0x0F08), (.plannedSwitchOver, 0x1002), (.restoreFactory, 0x1511), (.updateBegin, 0x1520), (.ownerKeyInstall, 0x1602), (.ownerKeyRevoke, 0x1603), (.debugUnlock, 0x1604), (.profileSelect, 0x0102), (.settingsWrite, 0x0104)] : List ((Nat → Instr) × Nat)), ∃ c tag p args, ∃ (s : State), args.length < 15 ∧ PrivAtFront c p x.2 tag args s :=
  fun x _ => ⟨1, 7, pc, [], put1 1 pc [privHeader x.2 1 7] (run .integrated []), by decide, priv1 rfl (by rfl) (by rfl)⟩

/-- The hypotheses of each clause of Obligations.TokenCompletesRequest, met together. -/
theorem wit_TokenCompletesRequest :
    (∃ c, ∃ tag, ∃ p, ∃ ws, ∃ (s : State), c < 14 ∧ LastPart c p 0x0103 tag [] ws s ∧ s.dev.state = .running ∧ s.pwr.thermallyOff = false) ∧
    (∃ (w : Word), ∃ c, ∃ tag, ∃ p, ∃ ws, ∃ (s : State), c < 14 ∧ LastPart c p 0x0904 tag [w] ws s ∧ Started s ∧ w.toNat < 65536 ∧ recOn s = true ∧ s.rcd.clip = none ∧ mayWrite s = true ∧ s.rcd.stuck = false ∧ maskPorts s ≠ [] ∧ ((∀ k ∈ maskPorts s, (ssdOf k s).present = true ∧ (ssdOf k s).failed = false ∧ ssdUsable (cfgB F.REC_VOL_DUAL_PORT 0 s) (ssdOf k s) = true))) ∧
    (∃ (w : Word), ∃ c, ∃ tag, ∃ p, ∃ ws, ∃ (s : State), c < 14 ∧ LastPart c p 0x0905 tag [w] ws s ∧ Started s ∧ hasBlk .recorder s = true ∧ w.toNat < 4095 ∧ s.rcd.volume = 2 ∧ s.rcd.clip = none ∧ dirState s.rcd.dir w.toNat ≠ 0) ∧
    (∃ w0, ∃ w1, ∃ w2, ∃ w3, ∃ c, ∃ tag, ∃ p, ∃ ws, ∃ (s : State), c < 14 ∧ LastPart c p 0x0E10 tag [w0, w1, w2, w3] ws s ∧ Started s ∧ w0.toNat < 65536 ∧ w3.toNat < 2 ^ 30 ∧ bits (w1.toNat + w2.toNat * 2 ^ 32 + w3.toNat * 2 ^ 64) 45 16 < 1000000000 ∧ cfgB F.TIME_ARRAY_ENABLE 0 s = true ∧ s.time.locked = false) ∧
    (∃ c, ∃ tag, ∃ p, ∃ ws, ∃ (s : State), c < 14 ∧ LastPart c p 0x0E11 tag [] ws s ∧ Started s) ∧
    (∃ w0, ∃ w1, ∃ c, ∃ tag, ∃ p, ∃ ws, ∃ (s : State), c = 15 ∧ LastPart c p 0x0F08 tag [w0, w1] ws s ∧ Started s ∧ s.isl.running = true ∧ w0.toNat &&& 0xEFF007FF = w0.toNat ∧ w1.toNat % 65536 = 0 ∧ 1 ≤ w0.toNat % 2048 ∧ w0.toNat % 2048 ≤ 1024 ∧ 65536 ≤ w1.toNat ∧ w1.toNat < 901 * 65536) ∧
    (∃ c, ∃ tag, ∃ p, ∃ ws, ∃ (s : State), c < 14 ∧ LastPart c p 0x1002 tag [] ws s ∧ Started s ∧ s.dev.role = .body ∧ redOn s = true ∧ s.red.state = 5 ∧ s.red.peer.map (·.state) = some 3) ∧
    (∃ c, ∃ tag, ∃ p, ∃ ws, ∃ (s : State), c < 14 ∧ LastPart c p 0x1511 tag [] ws s ∧ Started s ∧ s.hf.surveyRunning = []) ∧
    (∃ w0, ∃ w1, ∃ c, ∃ tag, ∃ p, ∃ ws, ∃ (s : State), c < 14 ∧ LastPart c p 0x1520 tag [w0, w1] ws s ∧ Started s ∧ 1 ≤ w0.toNat ∧ w0.toNat ≤ 5 ∧ w1.toNat ≤ regionBytes w0.toNat s ∧ updOpen s = false) ∧
    (∃ w0, ∃ w1, ∃ c, ∃ tag, ∃ p, ∃ ws, ∃ (s : State), c < 14 ∧ LastPart c p 0x1602 tag [w0, w1] ws s ∧ Started s ∧ w0.toNat < 4 ∧ w1.toNat + 64 ≤ 0x100000 ∧ holdsBulk p s = true ∧ (ownerSlot w0.toNat s).state = 0 ∧ onCurve (keyPoint (readBulk w1.toNat 64 s)).1 (keyPoint (readBulk w1.toNat 64 s)).2 = true) ∧
    (∃ (w : Word), ∃ c, ∃ tag, ∃ p, ∃ ws, ∃ (s : State), c < 14 ∧ LastPart c p 0x1603 tag [w] ws s ∧ Started s ∧ w.toNat < 4 ∧ signedInForce w.toNat s = false ∧ lastSlot w.toNat s = false) ∧
    (∃ c, ∃ tag, ∃ p, ∃ ws, ∃ (s : State), c < 14 ∧ LastPart c p 0x1604 tag [] ws s ∧ Started s) :=
  ⟨⟨1, 7, pc, tokenPart 5 0x8f7b3b54c61e67c392392c98b0302b68653529f67c4942f0c2e2c375746f93e, (token 0x8f7b3b54c61e67c392392c98b0302b68653529f67c4942f0c2e2c375746f93e 1 0x0103 [] (run .integrated [])), by decide +kernel, last1 (by decide +kernel) (by decide +kernel), by decide +kernel⟩,
   ⟨9, 1, 7, pc, tokenPart 5 0x47812382c51c1cee77b2e659be451712b8dd3ab4c42307cebd65f8d2e94cef49, (token 0x47812382c51c1cee77b2e659be451712b8dd3ab4c42307cebd65f8d2e94cef49 1 0x0904 [9] ({ run .integrated [(F.REC_VOL_ENABLE, 0, 1), (F.REC_VOL_RP_MASK, 0, 1)] with red := {} })), by decide +kernel, last1 (by decide +kernel) (by decide +kernel), st1 (by decide +kernel), by decide +kernel⟩,
   ⟨9, 1, 7, pc, tokenPart 5 0x4705dc88b4423c2d0871cfd90ca212c9645519089ef731458a3bb17c482090d2, (token 0x4705dc88b4423c2d0871cfd90ca212c9645519089ef731458a3bb17c482090d2 1 0x0905 [9] ({ run .integrated [] with rcd := { volume := 2, dir := [(9, [0, 0, 0, 0, 9, 0, 0, 0x80])] } })), by decide +kernel, last1 (by decide +kernel) (by decide +kernel), st1 (by decide +kernel), by decide +kernel⟩,
   ⟨9, 0, 0, 0, 1, 7, pc, tokenPart 5 0xc8646848b0bd54b97727a9221f55b0a4a4a37a0aab5f4b57054be231d5d242e, (token 0xc8646848b0bd54b97727a9221f55b0a4a4a37a0aab5f4b57054be231d5d242e 1 0x0E10 [9, 0, 0, 0] (run .integrated [(F.TIME_ARRAY_ENABLE, 0, 1)])), by decide +kernel, last1 (by decide +kernel) (by decide +kernel), st1 (by decide +kernel), by decide +kernel⟩,
   ⟨1, 7, pc, tokenPart 5 0x1c4d1c38e358bcdfc78989e2ed4f52ee40712b98c94fc4178b2ef9f35ed67a40, (token 0x1c4d1c38e358bcdfc78989e2ed4f52ee40712b98c94fc4178b2ef9f35ed67a40 1 0x0E11 [] (run .integrated [])), by decide +kernel, last1 (by decide +kernel) (by decide +kernel), st1 (by decide +kernel)⟩,
   ⟨1, 65536, 15, 7, pc, tokenPart 5 0x827e2e6d7b9effc517cbf3e4c195742f859ae731cc0ad64726c668aeb39b8f50, (token 0x827e2e6d7b9effc517cbf3e4c195742f859ae731cc0ad64726c668aeb39b8f50 15 0x0F08 [1, 65536] ({ run .integrated [] with isl := { running := true } })), by decide +kernel, last1 (by decide +kernel) (by decide +kernel), st1 (by decide +kernel), by decide +kernel⟩,
   ⟨1, 7, pc, tokenPart 5 0xe53ebd426f3de5c72e51ddf8a9457ad95f5a38f644104f4404b7c3c059af7bb3, (token 0xe53ebd426f3de5c72e51ddf8a9457ad95f5a38f644104f4404b7c3c059af7bb3 1 0x1002 [] ({ run .body [(F.RED_ENABLE, 0, 1)] with red := { state := 5, peer := some ⟨3, 1, 0, 1, 2, 0, 0⟩ } })), by decide +kernel, last1 (by decide +kernel) (by decide +kernel), st1 (by decide +kernel), by decide +kernel⟩,
   ⟨1, 7, pc, tokenPart 5 0x1cbf66f88c797ff044d99482b7510e77f8c460b1ba3d9e50e95cef8967e687b, (token 0x1cbf66f88c797ff044d99482b7510e77f8c460b1ba3d9e50e95cef8967e687b 1 0x1511 [] (run .integrated [])), by decide +kernel, last1 (by decide +kernel) (by decide +kernel), st1 (by decide +kernel), by decide +kernel⟩,
   ⟨4, 0x80000, 1, 7, pc, tokenPart 5 0xca135c0eb21a1f893e070004216579e8116eb6d246fc637844d9ce9bf3bce6b4, (token 0xca135c0eb21a1f893e070004216579e8116eb6d246fc637844d9ce9bf3bce6b4 1 0x1520 [4, 0x80000] (run .integrated [])), by decide +kernel, last1 (by decide +kernel) (by decide +kernel), st1 (by decide +kernel), by decide +kernel⟩,
   ⟨1, 0, 1, 7, pc, tokenPart 5 0x8bbdfcb5e2ee8185356fa43ecefbc4b868a090bf8788951860cf63e4b82de7d4, (token 0x8bbdfcb5e2ee8185356fa43ecefbc4b868a090bf8788951860cf63e4b82de7d4 1 0x1602 [1, 0] ({ run .integrated [] with mbx := { holder := some .pcie, bulk := keyG.zipIdx.map fun x => (x.2, x.1) } })), by decide +kernel, last1 (by decide +kernel) (by decide +kernel), st1 (by decide +kernel), by decide +kernel⟩,
   ⟨1, 1, 7, pc, tokenPart 5 0x8a9c003b9ce7d03d6c67866b9412b320fe59daf9710918cda8e2c52ffd53fa49, (token 0x8a9c003b9ce7d03d6c67866b9412b320fe59daf9710918cda8e2c52ffd53fa49 1 0x1603 [1] ({ run .integrated [] with otp := { slots := [{}, ⟨[], 1⟩, {}, {}] } })), by decide +kernel, last1 (by decide +kernel) (by decide +kernel), st1 (by decide +kernel), by decide +kernel⟩,
   ⟨1, 7, pc, tokenPart 5 0xe57db2a44123e3a74dcdcea78fc0410e263cf9debb1a28949cfe53483aea7b84, (token 0xe57db2a44123e3a74dcdcea78fc0410e263cf9debb1a28949cfe53483aea7b84 1 0x1604 [] (run .integrated [])), by decide +kernel, last1 (by decide +kernel) (by decide +kernel), st1 (by decide +kernel)⟩⟩

/-- The hypotheses of each clause of Obligations.OrderOfChecks, met together. -/
theorem wit_OrderOfChecks :
    (∃ k, ∃ c, ∃ tag, ∃ p, ∃ (args : List Word), ∃ (rest : List InMsg), ∃ (s : State), ∃ (t : State), k < 65536 ∧ args.length < 15 ∧ (s.mbx.chans.getD c {}).inq = ⟨p, header k (args.length + 1) tag :: args⟩ :: rest ∧ ((∀ m, rest.head? = some m → known m)) ∧ serves c s = true ∧ openSeq c p s = none ∧ msgDef k = none ∧ k ≠ 0x1410 ∧ exec (.deviceStatus c) (refused (request1 c p k tag args) 1 0 0 (popMsg c s)) = .next t) ∧
    (∃ c, ∃ tag, ∃ p, ∃ (w : Word), ∃ (s : State), c < 14 ∧ AtFront c p 0x0100 tag [w] s) ∧
    (∃ c, ∃ tag, ∃ p, ∃ (w : Word), ∃ (s : State), c < 14 ∧ AtFront c p 0x1400 tag [w] s ∧ 16 ≤ w.toNat) ∧
    (∃ c, ∃ tag, ∃ p, ∃ (w : Word), ∃ (s : State), c < 14 ∧ AtFront c p 0x0103 tag [w] s) ∧
    (∃ c, ∃ tag, ∃ p, ∃ (s : State), c < 14 ∧ AtFront c p 0x0E00 tag [] s ∧ (s.dev.state = .configError ∨ s.dev.state = .safe)) ∧
    (∃ i, ∃ c, ∃ tag, ∃ p, ∃ (s : State), i < 8 ∧ c < 14 ∧ AtFront c p (0x0800 + i) tag [] s ∧ s.dev.state = .running ∧ s.pwr.thermallyOff = false ∧ (s.dev.part = .h ∨ s.dev.role = .head)) ∧
    (∃ c, ∃ tag, ∃ p, ∃ (s : State), c < 14 ∧ AtFront c p 0x1511 tag [] s ∧ s.dev.state = .configError) ∧
    (∃ (x : (Nat → Instr) × Nat), ∃ c, ∃ tag, ∃ p, ∃ (s : State), c < 14 ∧ AtFront c p x.2 tag [] s ∧ Started s) :=
  ⟨⟨0x00AA, 1, 7, pc, [], [], (msg 1 pc 0x00AA [] (run .integrated [])), got (exec (.deviceStatus 1) (refused (request1 1 pc 0x00AA 7 []) 1 0 0 (popMsg 1 (msg 1 pc 0x00AA [] (run .integrated []))))), by decide +kernel, by decide +kernel, by decide +kernel, by simp, by decide +kernel, by decide +kernel, by decide +kernel, by decide +kernel, rfl⟩,
   ⟨1, 7, pc, 5, (msg 1 pc 0x0100 [5] (run .integrated [])), by decide +kernel, at1 (by decide +kernel) (by decide +kernel) (by decide +kernel)⟩,
   ⟨1, 7, pc, 16, (msg 1 pc 0x1400 [16] (run .integrated [])), by decide +kernel, at1 (by decide +kernel) (by decide +kernel) (by decide +kernel), by decide +kernel⟩,
   ⟨1, 7, pc, 5, (msg 1 pc 0x0103 [5] (run .integrated [])), by decide +kernel, at1 (by decide +kernel) (by decide +kernel) (by decide +kernel)⟩,
   ⟨1, 7, pc, (msg 1 pc 0x0E00 [] (at0 .safe .reserved [])), by decide +kernel, at1 (by decide +kernel) (by decide +kernel) (by decide +kernel), by decide +kernel⟩,
   ⟨3, 1, 7, pc, (msg 1 pc (0x0800 + 3) [] (run .head [])), by decide +kernel, by decide +kernel, at1 (by decide +kernel) (by decide +kernel) (by decide +kernel), by decide +kernel⟩,
   ⟨1, 7, pc, (msg 1 pc 0x1511 [] (at0 .configError .integrated [])), by decide +kernel, at1 (by decide +kernel) (by decide +kernel) (by decide +kernel), by decide +kernel⟩,
   ⟨(.restart, 0x0103), 1, 7, pc, (msg 1 pc 0x0103 [] (run .integrated [])), by decide +kernel, at1 (by decide +kernel) (by decide +kernel) (by decide +kernel), st1 (by decide +kernel)⟩⟩

/-- The hypotheses of each clause of Obligations.MailboxQueues, met together. -/
theorem wit_MailboxQueues :
    (∃ v, ∃ c, ∃ (s : State), viewOn v s = true ∧ c < 16 ∧ c < s.mbx.chans.length) ∧
    (∃ mac, ∃ ip, ∃ c, ∃ (words : List Word), ∃ (s : State), macOn mac s = true ∧ (s.out.macs.getD mac {}).up = true ∧ cfgN F.ETH_MBX_UDP_PORT mac s ≠ 0 ∧ c < 16 ∧ words ≠ [] ∧ hasRoute mac ip s = true ∧ inWords c s + words.length ≤ 8) ∧
    (∃ mac, ∃ ip, ∃ c, ∃ (words : List Word), ∃ (s : State), macOn mac s = true ∧ (s.out.macs.getD mac {}).up = true ∧ cfgN F.ETH_MBX_UDP_PORT mac s ≠ 0 ∧ c < 16 ∧ words ≠ [] ∧ hasRoute mac ip s = true ∧ 8 < inWords c s + words.length) ∧
    (∃ mac, ∃ ip, ∃ c, ∃ (words : List Word), ∃ (s : State), macOn mac s = true ∧ (s.out.macs.getD mac {}).up = true ∧ cfgN F.ETH_MBX_UDP_PORT mac s ≠ 0 ∧ c < 16 ∧ words ≠ [] ∧ hasRoute mac ip s = false) :=
  ⟨⟨.spi, 3, run .integrated [], by decide +kernel⟩,
   ⟨1, 0xC0A80007, 3, [1, 2], { run .integrated [(F.ETH_ENABLE, 1, 1), (F.ETH_MBX_UDP_PORT, 1, 5000), (F.ETH_PREFIX, 1, 24), (F.ETH_IP_ADDR, 1, 0xC0A80001)] with out := { macs := List.replicate 4 { up := true } } }, by decide +kernel⟩,
   ⟨1, 0xC0A80007, 3, [1, 2, 3, 4, 5, 6, 7, 8, 9], { run .integrated [(F.ETH_ENABLE, 1, 1), (F.ETH_MBX_UDP_PORT, 1, 5000), (F.ETH_PREFIX, 1, 24), (F.ETH_IP_ADDR, 1, 0xC0A80001)] with out := { macs := List.replicate 4 { up := true } } }, by decide +kernel⟩,
   ⟨1, 0xC0A80107, 3, [1, 2], { run .integrated [(F.ETH_ENABLE, 1, 1), (F.ETH_MBX_UDP_PORT, 1, 5000), (F.ETH_PREFIX, 1, 24), (F.ETH_IP_ADDR, 1, 0xC0A80001)] with out := { macs := List.replicate 4 { up := true } } }, by decide +kernel⟩⟩

/-- The hypotheses of each clause of Obligations.MailboxEvents, met together. -/
theorem wit_MailboxEvents :
    (∃ v, ∃ c, ∃ m, ∃ q, ∃ (s : State), viewOn v s = true ∧ c < 16 ∧ c < s.mbx.pcie.length ∧ c < s.mbx.spi.length ∧ (viewRegs v c s).outq = m :: q ∧ (viewRegs v c s).waiting = []) ∧
    (∃ v, ∃ c, ∃ m, ∃ h, ∃ (s : State), viewOn v s = true ∧ c < 16 ∧ c < s.mbx.pcie.length ∧ c < s.mbx.spi.length ∧ (viewRegs v c s).outq = [m] ∧ (viewRegs v c s).waiting = [h] ∧ h.length ≤ 8) ∧
    (∃ v, ∃ c, ∃ k, ∃ (s : State), viewOn v s = true ∧ c < 16 ∧ k < 8) ∧
    (∃ v, ∃ c, ∃ m, ∃ q, ∃ (s : State), (viewRegs v c s).waiting = m :: q) ∧
    (∃ c, ∃ p, ∃ q, ∃ (s : State), openSeq c p s = some q) ∧
    (∃ c, ∃ recv, ∃ (s : State), handling s = true ∧ receiverOf c s = recv) ∧
    (∃ v, ∃ off, ∃ (data : List Byte), ∃ (s : State), viewOn v s = true ∧ off + data.length ≤ 0x100000 ∧ 0 < data.length ∧ (v = .spi ∨ data.length ≤ 512) ∧ holdsBulk (.regs v) s = true) ∧
    (∃ v, ∃ off, ∃ (data : List Byte), ∃ (s : State), viewOn v s = true ∧ off < 0x100000 ∧ (v = .spi ∨ data.length ≤ 512) ∧ holdsBulk (.regs v) s = false) :=
  ⟨⟨.spi, 3, [1], [[2]], { run .integrated [] with mbx := { spi := List.replicate 16 { outq := [[1], [2]] } } }, by decide +kernel⟩,
   ⟨.spi, 3, [1], [2], { run .integrated [] with mbx := { spi := List.replicate 16 { outq := [[1]], waiting := [[2]] } } }, by decide +kernel⟩,
   ⟨.spi, 3, 7, run .integrated [], by decide +kernel⟩,
   ⟨.spi, 3, [2], [], { run .integrated [] with mbx := { spi := List.replicate 16 { outq := [[1]], waiting := [[2]] } } }, by decide +kernel⟩,
   ⟨1, pc, ⟨pc, [0x01031407], [], 0⟩, { run .integrated [] with mbx := { chans := List.replicate 16 { held := [⟨pc, [0x01031407], [], 0⟩] } } }, by decide +kernel⟩,
   ⟨3, receiverOf 3 (run .integrated []), run .integrated [], by decide +kernel⟩,
   ⟨.spi, 0x40, [1, 2, 3, 4], held .spi (run .integrated []), by decide +kernel⟩,
   ⟨.pcie, 0x40, List.replicate 512 9, run .integrated [(F.EP0_ENABLE, 0, 1)], by decide +kernel⟩⟩

/-- The hypotheses of each clause of Obligations.WindowAndNonceMessages, met together. -/
theorem wit_WindowAndNonceMessages :
    (∃ c, ∃ tag, ∃ v, ∃ (s : State), c < 14 ∧ AtFront c (.regs v) 0x1402 tag [1] s ∧ Started s ∧ s.mbx.holder = none) ∧
    (∃ c, ∃ tag, ∃ (v : View), ∃ (w : View), ∃ (s : State), c < 14 ∧ AtFront c (.regs v) 0x1402 tag [1] s ∧ Started s ∧ s.mbx.holder = some w ∧ v ≠ w) ∧
    (∃ c, ∃ tag, ∃ p, ∃ (s : State), c < 14 ∧ AtFront c p 0x1402 tag [1] s ∧ Started s ∧ pathView p = none) ∧
    (∃ c, ∃ tag, ∃ v, ∃ (s : State), c < 14 ∧ AtFront c (.regs v) 0x1402 tag [0] s ∧ Started s ∧ s.mbx.holder = some v) ∧
    (∃ c, ∃ tag, ∃ p, ∃ (s : State), c < 14 ∧ AtFront c p 0x1401 tag [] s ∧ Started s) :=
  ⟨⟨1, 7, .pcie, (msg 1 pc 0x1402 [1] (run .integrated [])), by decide +kernel, at1 (by decide +kernel) (by decide +kernel) (by decide +kernel), st1 (by decide +kernel), by decide +kernel⟩,
   ⟨1, 7, .pcie, .spi, (msg 1 pc 0x1402 [1] (held .spi (run .integrated []))), by decide +kernel, at1 (by decide +kernel) (by decide +kernel) (by decide +kernel), st1 (by decide +kernel), by decide +kernel⟩,
   ⟨1, 7, .udp 1 2, (msg 1 (.udp 1 2) 0x1402 [1] (run .integrated [])), by decide +kernel, at1 (by decide +kernel) (by decide +kernel) (by decide +kernel), st1 (by decide +kernel), by decide +kernel⟩,
   ⟨1, 7, .pcie, (msg 1 pc 0x1402 [0] (held .pcie (run .integrated []))), by decide +kernel, at1 (by decide +kernel) (by decide +kernel) (by decide +kernel), st1 (by decide +kernel), by decide +kernel⟩,
   ⟨1, 7, pc, (msg 1 pc 0x1401 [] (run .integrated [])), by decide +kernel, at1 (by decide +kernel) (by decide +kernel) (by decide +kernel), st1 (by decide +kernel)⟩⟩

/-- The hypotheses of each clause of Obligations.EthernetAndDatagrams, met together. -/
theorem wit_EthernetAndDatagrams :
    (∃ m, ∃ (s : State), macOn m s = true ∧ m < s.out.macs.length) ∧
    (∃ m, ∃ (s : State), macOn m s = true ∧ (s.out.macs.getD m {}).up = true) ∧
    (∃ m, ∃ (s : State), macOn m s = true ∧ (s.out.macs.getD m {}).up = true ∧ m < s.out.macs.length) ∧
    (∃ m, ∃ (s : State), macOn m s = true ∧ (s.out.macs.getD m {}).up = true ∧ m < s.out.macs.length) ∧
    (∃ m, ∃ (s : State), ∃ n, ∃ (tags : List Nat), macOn m s = true ∧ (s.out.macs.getD m {}).up = true ∧ m < s.out.macs.length ∧ (9216 < n ∨ tagsOk m tags s.cfg.accepted = false)) ∧
    (∃ m, ∃ (s : State), ∃ n, ∃ (tags : List Nat), macOn m s = true ∧ (s.out.macs.getD m {}).up = true ∧ m < s.out.macs.length ∧ n ≤ 9216 ∧ tagsOk m tags s.cfg.accepted = true) ∧
    (∃ m, ∃ (s : State), macOn m s = true ∧ (s.out.macs.getD m {}).up = true ∧ m < s.out.macs.length) ∧
    (∃ m, ∃ (w : Word), ∃ (words : List Word), ∃ (s : State), macOn m s = true ∧ (s.out.macs.getD m {}).up = true ∧ cfgB F.TIME_ARRAY_ENABLE 0 s = true ∧ cfgN F.TIME_ARRAY_GROUP_PORT 0 s ≠ 0 ∧ cfgN F.TIME_ARRAY_ARRAY_MAC 0 s = m ∧ w.toNat / 65536 = s.time.arrayId ∧ words ≠ [] ∧ hdrPriv (words.headD 0).toNat = false ∧ privilegedCode (hdrCode (words.headD 0).toNat) = false) ∧
    (∃ m, ∃ (w : Word), ∃ (words : List Word), ∃ (s : State), macOn m s = true ∧ (s.out.macs.getD m {}).up = true ∧ cfgB F.TIME_ARRAY_ENABLE 0 s = true ∧ cfgN F.TIME_ARRAY_GROUP_PORT 0 s ≠ 0 ∧ cfgN F.TIME_ARRAY_ARRAY_MAC 0 s = m ∧ (w.toNat / 65536 ≠ s.time.arrayId ∨ hdrPriv (words.headD 0).toNat = true)) ∧
    (∃ (i : Nat), ∃ (e : Sched), ∃ (s : State), s.dev.state = .running ∧ s.time.late = [] ∧ s.time.table[i]? = some (some e) ∧ todUnits e.target ≤ todUnits (nowTod s) ∧ ((∀ k x, s.time.table[k]? = some (some x) → k ≠ i → todUnits e.target < todUnits x.target))) ∧
    (∃ (i : Nat), ∃ (l : List Nat), ∃ (e : Sched), ∃ (s : State), s.dev.state = .running ∧ s.time.late = i :: l ∧ s.time.table[i]? = some (some e)) ∧
    (∃ (e : Sched), ∃ (s : State), ∃ (ws : List Nat), ∃ (u : State), openSeq e.chan e.path s = none ∧ runReq (msgDef (hdrCode (e.words.getD 0 0).toNat)) ⟨e.chan, e.path, e.words⟩ none s = (.accept ws, u)) ∧
    (∃ (e : Sched), ∃ (s : State), ∃ cls, ∃ err, ∃ d, ∃ (u : State), openSeq e.chan e.path s = none ∧ runReq (msgDef (hdrCode (e.words.getD 0 0).toNat)) ⟨e.chan, e.path, e.words⟩ none s = (.refuse cls err d, u)) :=
  ⟨⟨1, { run .integrated [(F.ETH_ENABLE, 1, 1), (F.ETH_MBX_UDP_PORT, 1, 5000), (F.ETH_PREFIX, 1, 24), (F.ETH_IP_ADDR, 1, 0xC0A80001)] with out := { macs := List.replicate 4 { up := true } } }, by decide +kernel⟩,
   ⟨1, { run .integrated [(F.ETH_ENABLE, 1, 1), (F.ETH_MBX_UDP_PORT, 1, 5000), (F.ETH_PREFIX, 1, 24), (F.ETH_IP_ADDR, 1, 0xC0A80001)] with out := { macs := List.replicate 4 { up := true } } }, by decide +kernel⟩,
   ⟨1, { run .integrated [(F.ETH_ENABLE, 1, 1), (F.ETH_MBX_UDP_PORT, 1, 5000), (F.ETH_PREFIX, 1, 24), (F.ETH_IP_ADDR, 1, 0xC0A80001)] with out := { macs := List.replicate 4 { up := true } } }, by decide +kernel⟩,
   ⟨1, { run .integrated [(F.ETH_ENABLE, 1, 1), (F.ETH_MBX_UDP_PORT, 1, 5000), (F.ETH_PREFIX, 1, 24), (F.ETH_IP_ADDR, 1, 0xC0A80001)] with out := { macs := List.replicate 4 { up := true } } }, by decide +kernel⟩,
   ⟨1, { run .integrated [(F.ETH_ENABLE, 1, 1), (F.ETH_MBX_UDP_PORT, 1, 5000), (F.ETH_PREFIX, 1, 24), (F.ETH_IP_ADDR, 1, 0xC0A80001)] with out := { macs := List.replicate 4 { up := true } } }, 9216, [5], by decide +kernel⟩,
   ⟨1, { run .integrated [(F.ETH_ENABLE, 1, 1), (F.ETH_MBX_UDP_PORT, 1, 5000), (F.ETH_PREFIX, 1, 24), (F.ETH_IP_ADDR, 1, 0xC0A80001), (F.ETH_VLAN_EN, 1, 1), (F.ETH_VID, 1, 5)] with out := { macs := List.replicate 4 { up := true } } }, 9216, [5], by decide +kernel⟩,
   ⟨1, { run .integrated [(F.ETH_ENABLE, 1, 1), (F.ETH_MBX_UDP_PORT, 1, 5000), (F.ETH_PREFIX, 1, 24), (F.ETH_IP_ADDR, 1, 0xC0A80001)] with out := { macs := List.replicate 4 { up := true } } }, by decide +kernel⟩,
   ⟨1, 0x90005, [0x01001007], { run .integrated [(F.ETH_ENABLE, 1, 1), (F.ETH_MBX_UDP_PORT, 1, 5000), (F.ETH_PREFIX, 1, 24), (F.ETH_IP_ADDR, 1, 0xC0A80001), (F.TIME_ARRAY_ENABLE, 0, 1), (F.TIME_ARRAY_GROUP_PORT, 0, 319), (F.TIME_ARRAY_ARRAY_MAC, 0, 1)] with out := { macs := List.replicate 4 { up := true } }, time := { arrayId := 9 } }, by decide +kernel⟩,
   ⟨1, 0x80005, [0x01001007], { run .integrated [(F.ETH_ENABLE, 1, 1), (F.ETH_MBX_UDP_PORT, 1, 5000), (F.ETH_PREFIX, 1, 24), (F.ETH_IP_ADDR, 1, 0xC0A80001), (F.TIME_ARRAY_ENABLE, 0, 1), (F.TIME_ARRAY_GROUP_PORT, 0, 319), (F.TIME_ARRAY_ARRAY_MAC, 0, 1)] with out := { macs := List.replicate 4 { up := true } }, time := { arrayId := 9 } }, by decide +kernel⟩,
   ⟨1, ⟨⟨1, 0⟩, 0, 2, pc, [0x01001007]⟩, { run .integrated [] with time := { sec := 2, table := [none, some ⟨⟨1, 0⟩, 0, 2, pc, [0x01001007]⟩] } }, by decide +kernel, by decide +kernel, by decide +kernel, by decide +kernel, fun k x h hk => by match k, h with | 0, h => simp at h | 1, _ => exact absurd rfl hk | k + 2, h => simp at h⟩,
   ⟨1, [], ⟨⟨1, 0⟩, 0, 2, pc, [0x01001007]⟩, { run .integrated [] with time := { sec := 2, table := [none, some ⟨⟨1, 0⟩, 0, 2, pc, [0x01001007]⟩], late := [1] } }, by decide +kernel⟩,
   ⟨⟨⟨1, 0⟩, 0, 2, pc, [0x01001007]⟩, run .integrated [], (match (runReq (msgDef 0x0100) ⟨2, pc, [0x01001007]⟩ none (run .integrated [])).1 with | .accept ws => ws | _ => []), (runReq (msgDef 0x0100) ⟨2, pc, [0x01001007]⟩ none (run .integrated [])).2, by decide +kernel, rfl⟩,
   ⟨⟨⟨1, 0⟩, 0, 2, pc, [0x01002007, 5]⟩, run .integrated [], 2, 0, 0, (runReq (msgDef 0x0100) ⟨2, pc, [0x01002007, 5]⟩ none (run .integrated [])).2, by decide +kernel, rfl⟩⟩

theorem crc32Bit_lt {c : Nat} (h : c < 2 ^ 32) : crc32Bit c < 2 ^ 32 := by
  unfold crc32Bit
  split
  · exact Nat.xor_lt_two_pow (by omega) (by omega)
  · omega

theorem crc32Byte_lt {c : Nat} (b : Byte) (h : c < 2 ^ 32) : crc32Byte c b < 2 ^ 32 := by
  unfold crc32Byte
  iterate 8 apply crc32Bit_lt
  exact Nat.xor_lt_two_pow h (by have := b.isLt; omega)

theorem crc32_lt (l : List Byte) : crc32 l < 2 ^ 32 := by
  refine Nat.xor_lt_two_pow ?_ (by decide)
  suffices h : ∀ c < 2 ^ 32, l.foldl crc32Byte c < 2 ^ 32 from h _ (by decide)
  induction l with
  | nil => exact fun c h => h
  | cons b r ih => exact fun c h => ih _ (crc32Byte_lt b h)

/-- A started role holding the bulk window, LUT 5 loading. -/
def lutState : State := held .pcie { run .integrated [] with cap := { lutLoads := [⟨5, 0, []⟩] } }

/-- Every checksum is some word. -/
theorem crcOf (l : List Byte) : ∃ w : Word, crc32 l = w.toNat :=
  ⟨BitVec.ofNat 32 (crc32 l), by rw [BitVec.toNat_ofNat, Nat.mod_eq_of_lt (crc32_lt l)]⟩

/-- `lutState` with the LUT's one piece and its checksum waiting in channel 1. -/
def lutLast (crc : Word) : State := msg 1 pc (0x0501 + 16 * 2) [0x205, 0, 215622, crc] lutState

theorem lut_bulk (o n : Nat) (crc : Word) : readBulk o n (lutLast crc) = readBulk o n lutState := rfl

theorem lut_table (s : State) : overlay [] 0 (readBulk 0 215622 s) = readBulk 0 215622 s := by
  simp [overlay, padTo]

/-- The hypotheses of each clause of Obligations.CaptureMessages, met together. -/
theorem wit_CaptureMessages :
    (∃ q, ∃ c, ∃ tag, ∃ p, ∃ (s : State), q < 4 ∧ c < 14 ∧ AtFront c p (0x0201 + 16 * q) tag [] s ∧ Started s ∧ hasBlk .sensor s = true ∧ gangPorts s.cfg.accepted q = [q] ∧ leadOf q s = q ∧ (portOf q s).phase = .running ∧ (portOf q s).fv = false ∧ (portOf q s).clock = true) ∧
    (∃ q, ∃ c, ∃ tag, ∃ (a : Word), ∃ (b : Word), ∃ (w : Word), ∃ p, ∃ (s : State), q < 4 ∧ c < 14 ∧ AtFront c p (0x0202 + 16 * q) tag [w, a, b] s ∧ Started s ∧ hasBlk .sensor s = true ∧ w.toNat < 0x8000 ∧ entryBad (a.toNat + b.toNat * 2 ^ 32) = false ∧ 8 ≤ (portOf q s).fifo.length) ∧
    (∃ q, ∃ c, ∃ tag, ∃ (a : Word), ∃ (b : Word), ∃ (w : Word), ∃ p, ∃ (s : State), ∃ (t : State), q < 4 ∧ c < 14 ∧ AtFront c p (0x0202 + 16 * q) tag [w, a, b] s ∧ Started s ∧ hasBlk .sensor s = true ∧ w.toNat < 0x8000 ∧ entryBad (a.toNat + b.toNat * 2 ^ 32) = false ∧ entOp (a.toNat + b.toNat * 2 ^ 32) ≠ 0 ∧ (portOf q s).fifo.length < 8 ∧ cfgN F.SP_SCBUS_MODE q s ≠ 0 ∧ queueScript q ⟨w.toNat, [a.toNat + b.toNat * 2 ^ 32], .message⟩ (popMsg c s) = (0, t)) ∧
    (∃ k, ∃ c, ∃ tag, ∃ (w : Word), ∃ (off : Word), ∃ (len : Word), ∃ p, ∃ (s : State), k < 8 ∧ c < 14 ∧ AtFront c p (0x0501 + 16 * k) tag [w, off, len] s ∧ Started s ∧ hasBlk .colour s = true ∧ w.toNat < 112 ∧ len.toNat ≤ 0x100000 ∧ len.toNat % 6 = 0 ∧ off.toNat + len.toNat ≤ lutSize false ∧ holdsBulk p s = true ∧ lutInUse w.toNat s = false ∧ s.cap.luts.getD w.toNat .empty ≠ .loading ∧ s.cap.lutLoads = [] ∧ w.toNat < s.cap.luts.length) ∧
    (∃ k, ∃ c, ∃ tag, ∃ (w : Word), ∃ (off : Word), ∃ (len : Word), ∃ (crc : Word), ∃ (data : List Byte), ∃ p, ∃ (s : State), k < 8 ∧ c < 14 ∧ AtFront c p (0x0501 + 16 * k) tag [w, off, len, crc] s ∧ Started s ∧ hasBlk .colour s = true ∧ w.toNat = 0x200 + w.toNat % 128 ∧ w.toNat % 128 < 112 ∧ len.toNat ≤ 0x100000 ∧ len.toNat % 6 = 0 ∧ off.toNat + len.toNat = lutSize false ∧ holdsBulk p s = true ∧ lutInUse (w.toNat % 128) s = false ∧ s.cap.lutLoads = [⟨w.toNat % 128, 0, data⟩] ∧ (overlay data off.toNat (readBulk 0 len.toNat s)).length = lutSize false ∧ crc32 (overlay data off.toNat (readBulk 0 len.toNat s)) = crc.toNat ∧ w.toNat % 128 < s.cap.luts.length) ∧
    (∃ n, ∃ c, ∃ tag, ∃ (off : Word), ∃ (len : Word), ∃ (rel : Word), ∃ (b : OutBuf), ∃ p, ∃ (s : State), n < 4 ∧ c < 14 ∧ AtFront c p (0x0434 + n) tag [off, len, rel] s ∧ Started s ∧ hasBlk .colour s = true ∧ len.toNat ≤ 0x100000 ∧ rel = 0 ∧ holdsBulk p s = true ∧ cfgB F.ADIT_ENABLE n s = true ∧ cfgB F.ADIT_HOST_READ n s = true ∧ hostHeld (s.cap.adits.getD n {}) = some b) ∧
    (∃ n, ∃ c, ∃ tag, ∃ (w : Word), ∃ p, ∃ (s : State), n < 8 ∧ c < 14 ∧ AtFront c p (0x0600 + n) tag [w] s ∧ Started s ∧ hasBlk .frontBody s = true ∧ w.toNat % 64 = 0 ∧ w.toNat ≤ 0xE3FC0 ∧ holdsBulk p s = false) ∧
    (∃ n, ∃ c, ∃ tag, ∃ (w : Word), ∃ p, ∃ (s : State), ∃ (b : StatBuf), n < 8 ∧ c < 14 ∧ AtFront c p (0x0600 + n) tag [w] s ∧ Started s ∧ hasBlk .frontBody s = true ∧ w.toNat % 64 = 0 ∧ w.toNat ≤ 0xE3FC0 ∧ holdsBulk p s = true ∧ newestStat (seamEpoch n s) (s.cap.stats.getD n {}) = some b) ∧
    (∃ c, ∃ tag, ∃ (w1 : Word), ∃ (w2 : Word), ∃ (w3 : Word), ∃ (w4 : Word), ∃ (w5 : Word), ∃ (w6 : Word), ∃ p, ∃ (s : State), c < 14 ∧ AtFront c p 0x0628 tag [w1, w2, w3, w4, w5, w6] s ∧ Started s ∧ hasBlk .colour s = true ∧ w1.toNat &&& 0xE7FFFFFF = w1.toNat ∧ w5.toNat % 65536 = 0) :=
  ⟨⟨0, 1, 7, pc, (msg 1 pc 0x0201 [] ({ run .integrated [(F.SP_PORT_ENABLE, 0, 1)] with cap := { ports := List.replicate 4 { phase := .running, clock := true } } })), by decide +kernel, by decide +kernel, at1 (by decide +kernel) (by decide +kernel) (by decide +kernel), st1 (by decide +kernel), by decide +kernel⟩,
   ⟨0, 1, 7, 0, 0x10000000, 5, pc, (msg 1 pc (0x0202 + 16 * 0) [5, 0, 0x10000000] ({ run .integrated [(F.SP_PORT_ENABLE, 0, 1), (F.SP_SCBUS_MODE, 0, 2)] with cap := { ports := List.replicate 4 { fifo := List.replicate 8 default } } })), by decide +kernel, by decide +kernel, at1 (by decide +kernel) (by decide +kernel) (by decide +kernel), st1 (by decide +kernel), by decide +kernel⟩,
   ⟨0, 1, 7, 0, 0x10000000, 5, pc, (msg 1 pc (0x0202 + 16 * 0) [5, 0, 0x10000000] ({ run .integrated [(F.SP_PORT_ENABLE, 0, 1), (F.SP_SCBUS_MODE, 0, 2), (F.SEAM_SRC_ENABLE, 0, 1)] with cap := { ports := List.replicate 4 { windows := [100000000000] } } })), (queueScript 0 ⟨5, [0x1000000000000000], .message⟩ (popMsg 1 (msg 1 pc (0x0202 + 16 * 0) [5, 0, 0x10000000] ({ run .integrated [(F.SP_PORT_ENABLE, 0, 1), (F.SP_SCBUS_MODE, 0, 2), (F.SEAM_SRC_ENABLE, 0, 1)] with cap := { ports := List.replicate 4 { windows := [100000000000] } } })))).2, by decide +kernel, by decide +kernel, at1 (by decide +kernel) (by decide +kernel) (by decide +kernel), st1 (by decide +kernel), by decide +kernel, by decide +kernel, by decide +kernel, by decide +kernel, by decide +kernel, by decide +kernel, by rfl⟩,
   ⟨2, 1, 7, 5, 0, 6, pc, (msg 1 pc (0x0501 + 16 * 2) [5, 0, 6] (held .pcie (run .integrated []))), by decide +kernel, by decide +kernel, at1 (by decide +kernel) (by decide +kernel) (by decide +kernel), st1 (by decide +kernel), by decide +kernel⟩,
   by
    obtain ⟨crc, h⟩ := crcOf (overlay [] 0 (readBulk 0 215622 lutState))
    exact ⟨2, 1, 7, 0x205, 0, 215622, crc, [], pc, lutLast crc, by decide +kernel, by decide +kernel, at1 rfl rfl rfl, st1 ⟨rfl, rfl, rfl, rfl, rfl⟩, rfl, by decide +kernel, by decide +kernel, by decide +kernel, by decide +kernel, by decide +kernel, rfl, rfl, rfl, by
     show (overlay [] 0 (readBulk 0 215622 (lutLast crc))).length = 215622
     rw [lut_table]; simp [readBulk], by
     show crc32 (overlay [] 0 (readBulk 0 215622 (lutLast crc))) = crc.toNat
     rw [lut_bulk]; exact h, by
     show 5 < lutState.cap.luts.length
     decide⟩,
   ⟨1, 1, 7, 0, 96, 0, { writeSeq := 1, order := 1, holders := [.host], pic := {} }, pc, (msg 1 pc (0x0434 + 1) [0, 96, 0] (held .pcie ({ run .integrated [(F.ADIT_ENABLE, 1, 1), (F.ADIT_HOST_READ, 1, 1)] with cap := { adits := List.replicate 4 { bufs := [{ writeSeq := 1, order := 1, holders := [.host], pic := {} }] } } }))), by decide +kernel, by decide +kernel, at1 (by decide +kernel) (by decide +kernel) (by decide +kernel), st1 (by decide +kernel), by decide +kernel⟩,
   ⟨2, 1, 7, 64, pc, (msg 1 pc (0x0600 + 2) [64] (run .integrated [])), by decide +kernel, by decide +kernel, at1 (by decide +kernel) (by decide +kernel) (by decide +kernel), st1 (by decide +kernel), by decide +kernel⟩,
   ⟨2, 1, 7, 64, pc, (msg 1 pc (0x0600 + 2) [64] (held .pcie ({ run .integrated [] with cap := { stats := List.replicate 8 { bufs := [{ writeSeq := 1, order := 1 }] } } }))), { writeSeq := 1, order := 1 }, by decide +kernel, by decide +kernel, at1 (by decide +kernel) (by decide +kernel) (by decide +kernel), st1 (by decide +kernel), by decide +kernel⟩,
   ⟨1, 7, 1, 2, 3, 4, 65536, 6, pc, (msg 1 pc 0x0628 [1, 2, 3, 4, 65536, 6] (run .integrated [])), by decide +kernel, at1 (by decide +kernel) (by decide +kernel) (by decide +kernel), st1 (by decide +kernel), by decide +kernel⟩⟩

/-- The hypotheses of each clause of Obligations.SettingsMessages, met together. -/
theorem wit_SettingsMessages :
    (∃ c, ∃ tag, ∃ (w1 : Word), ∃ (m : Word), ∃ (v : Word), ∃ p, ∃ (s : State), c < 14 ∧ AtFront c p 0x0104 tag [w1, m, v] s ∧ Started s ∧ w1.toNat &&& 0xFFFFFF03 = w1.toNat ∧ w1.toNat % 4 = 1 ∧ pageHas 1 (request1 c p 0x0104 tag [w1, m, v]) = true ∧ badWrite (w1.toNat / 65536, bits w1.toNat 15 8, m.toNat, v.toNat) = false ∧ pageReserved (request1 c p 0x0104 tag [w1, m, v]) = false ∧ rateRefusal [(w1.toNat / 65536, bits w1.toNat 15 8, m.toNat, v.toNat)] s = none ∧ rcBreaks [(w1.toNat / 65536, bits w1.toNat 15 8, m.toNat, v.toNat)] s = false) ∧
    (∃ c, ∃ tag, ∃ (w : Word), ∃ p, ∃ (s : State), c < 14 ∧ AtFront c p 0x0102 tag [w] s ∧ Started s ∧ w.toNat < 16 ∧ cfgN F.DEV1_PROFILE_MSG 0 s = 1 ∧ hasProfile w.toNat s = true ∧ rateRefusal (profileWrites w.toNat s.cfg) s = none) ∧
    (∃ c, ∃ tag, ∃ (w : Word), ∃ p, ∃ (s : State), c < 14 ∧ AtFront c p 0x0102 tag [w] s ∧ Started s ∧ w.toNat < 16 ∧ cfgN F.DEV1_PROFILE_MSG 0 s = 0 ∧ rateRefusal (profileWrites w.toNat s.cfg) s = none) :=
  ⟨⟨1, 7, 0x03000001, 0, 0, pc, (msg 1 pc 0x0104 [0x03000001, 0, 0] (run .integrated [])), by decide +kernel, at1 (by decide +kernel) (by decide +kernel) (by decide +kernel), st1 (by decide +kernel), by decide +kernel⟩,
   ⟨1, 7, 0, pc, (msg 1 pc 0x0102 [0] (run .integrated [])), by decide +kernel, at1 (by decide +kernel) (by decide +kernel) (by decide +kernel), st1 (by decide +kernel), by decide +kernel⟩,
   ⟨1, 7, 0, pc, (msg 1 pc 0x0102 [0] (run .integrated [(F.DEV1_PROFILE_MSG, 0, 0)])), by decide +kernel, at1 (by decide +kernel) (by decide +kernel) (by decide +kernel), st1 (by decide +kernel), by decide +kernel⟩⟩

/-- The hypotheses of each clause of Obligations.CodecMessages, met together. -/
theorem wit_CodecMessages :
    (∃ m, ∃ c, ∃ tag, ∃ (w : Word), ∃ p, ∃ (s : State), m < 8 ∧ c < 14 ∧ AtFront c p (0x0808 + m) tag [w] s ∧ Started s ∧ hasBlk .codec s = true ∧ w.toNat ≤ 0x100000 ∧ holdsBulk p s = true ∧ encOn m s = true ∧ cfgB F.CODEC_STRM_HOST_READ m s = true ∧ m < s.codec.enc.length) ∧
    (∃ m, ∃ c, ∃ tag, ∃ (w : Word), ∃ (l : Word), ∃ p, ∃ (s : State), m < 8 ∧ c < 14 ∧ AtFront c p (0x0810 + m) tag [w, l] s ∧ Started s ∧ hasBlk .codec s = true ∧ w.toNat ≤ 0x100000 ∧ l.toNat < 2 ∧ holdsBulk p s = true ∧ decOn m s = true ∧ cfgB F.CODEC_PIC_DEC_SRC m s = false ∧ cfgN F.CODEC_STRM_RING_BYTES m s < (decOf m s).input.length + w.toNat) ∧
    (∃ m, ∃ c, ∃ tag, ∃ (w : Word), ∃ (l : Word), ∃ p, ∃ (s : State), m < 8 ∧ c < 14 ∧ AtFront c p (0x0810 + m) tag [w, l] s ∧ Started s ∧ hasBlk .codec s = true ∧ w.toNat ≤ 0x100000 ∧ l.toNat < 2 ∧ holdsBulk p s = true ∧ decOn m s = true ∧ cfgB F.CODEC_PIC_DEC_SRC m s = false ∧ (decOf m s).input.length + w.toNat ≤ cfgN F.CODEC_STRM_RING_BYTES m s) ∧
    (∃ m, ∃ c, ∃ tag, ∃ p, ∃ (s : State), m < 8 ∧ c < 14 ∧ AtFront c p (0x0818 + m) tag [] s ∧ Started s ∧ hasBlk .codec s = true ∧ encOn m s = true) ∧
    (∃ m, ∃ c, ∃ tag, ∃ p, ∃ (s : State), m < 8 ∧ c < 14 ∧ AtFront c p (0x0818 + m) tag [] s ∧ Started s ∧ hasBlk .codec s = true ∧ encOn m s = false) ∧
    (∃ m, ∃ c, ∃ tag, ∃ p, ∃ (s : State), m < 8 ∧ c < 14 ∧ AtFront c p (0x0820 + m) tag [] s ∧ Started s ∧ hasBlk .codec s = true ∧ decOn m s = true) ∧
    (∃ m, ∃ c, ∃ tag, ∃ p, ∃ (s : State), m < 8 ∧ c < 14 ∧ AtFront c p (0x0820 + m) tag [] s ∧ Started s ∧ hasBlk .codec s = true ∧ decOn m s = false) :=
  ⟨⟨3, 1, 7, 96, pc, (msg 1 pc (0x0808 + 3) [96] (held .pcie (run .integrated [(F.CODEC_STRM_ENABLE, 3, 1), (F.CODEC_STRM_HOST_READ, 3, 1)]))), by decide +kernel, by decide +kernel, at1 (by decide +kernel) (by decide +kernel) (by decide +kernel), st1 (by decide +kernel), by decide +kernel⟩,
   ⟨3, 1, 7, 96, 0, pc, (msg 1 pc (0x0810 + 3) [96, 0] (held .pcie (run .integrated [(F.CODEC_STRM_ENABLE, 3, 1), (F.CODEC_STRM_DIR, 3, 1), (F.CODEC_STRM_RING_BYTES, 3, 0)]))), by decide +kernel, by decide +kernel, at1 (by decide +kernel) (by decide +kernel) (by decide +kernel), st1 (by decide +kernel), by decide +kernel⟩,
   ⟨3, 1, 7, 96, 0, pc, (msg 1 pc (0x0810 + 3) [96, 0] (held .pcie (run .integrated [(F.CODEC_STRM_ENABLE, 3, 1), (F.CODEC_STRM_DIR, 3, 1), (F.CODEC_STRM_RING_BYTES, 3, 65536)]))), by decide +kernel, by decide +kernel, at1 (by decide +kernel) (by decide +kernel) (by decide +kernel), st1 (by decide +kernel), by decide +kernel⟩,
   ⟨3, 1, 7, pc, (msg 1 pc (0x0818 + 3) [] (held .pcie (run .integrated [(F.CODEC_STRM_ENABLE, 3, 1), (F.CODEC_STRM_HOST_READ, 3, 1)]))), by decide +kernel, by decide +kernel, at1 (by decide +kernel) (by decide +kernel) (by decide +kernel), st1 (by decide +kernel), by decide +kernel⟩,
   ⟨3, 1, 7, pc, (msg 1 pc (0x0818 + 3) [] (run .integrated [])), by decide +kernel, by decide +kernel, at1 (by decide +kernel) (by decide +kernel) (by decide +kernel), st1 (by decide +kernel), by decide +kernel⟩,
   ⟨3, 1, 7, pc, (msg 1 pc (0x0820 + 3) [] (held .pcie (run .integrated [(F.CODEC_STRM_ENABLE, 3, 1), (F.CODEC_STRM_DIR, 3, 1), (F.CODEC_STRM_RING_BYTES, 3, 0)]))), by decide +kernel, by decide +kernel, at1 (by decide +kernel) (by decide +kernel) (by decide +kernel), st1 (by decide +kernel), by decide +kernel⟩,
   ⟨3, 1, 7, pc, (msg 1 pc (0x0820 + 3) [] (run .integrated [])), by decide +kernel, by decide +kernel, at1 (by decide +kernel) (by decide +kernel) (by decide +kernel), st1 (by decide +kernel), by decide +kernel⟩⟩

/-- The hypotheses of each clause of Obligations.RecorderMessages, met together. -/
theorem wit_RecorderMessages :
    (∃ (n : Nat), ∃ c, ∃ tag, ∃ (w1 : Word), ∃ (w2 : Word), ∃ (w3 : Word), ∃ p, ∃ (s : State), c < 14 ∧ AtFront c p 0x0901 tag [w1, w2, w3] s ∧ Started s ∧ hasBlk .recorder s = true ∧ w3.toNat < 2 ^ 30 ∧ todOk (w1.toNat + w2.toNat * 2 ^ 32 + w3.toNat * 2 ^ 64) = true ∧ s.rcd.volume = 2 ∧ s.rcd.clip = none ∧ nextClip s = some n ∧ cfgB F.SEC_ENCRYPT 0 s = false) ∧
    (∃ c, ∃ tag, ∃ (w1 : Word), ∃ (w2 : Word), ∃ (w3 : Word), ∃ p, ∃ (s : State), c < 14 ∧ AtFront c p 0x0901 tag [w1, w2, w3] s ∧ Started s ∧ hasBlk .recorder s = true ∧ w3.toNat < 2 ^ 30 ∧ todOk (w1.toNat + w2.toNat * 2 ^ 32 + w3.toNat * 2 ^ 64) = true ∧ s.rcd.volume = 2 ∧ s.rcd.clip.isSome = true) ∧
    (∃ c, ∃ tag, ∃ (w1 : Word), ∃ (w2 : Word), ∃ (w3 : Word), ∃ p, ∃ (s : State), ∃ (k : Clip), c < 14 ∧ AtFront c p 0x0902 tag [w1, w2, w3] s ∧ Started s ∧ hasBlk .recorder s = true ∧ w3.toNat < 2 ^ 30 ∧ todOk (w1.toNat + w2.toNat * 2 ^ 32 + w3.toNat * 2 ^ 64) = true ∧ s.rcd.clip = some k ∧ k.ending = none) ∧
    (∃ c, ∃ tag, ∃ (w1 : Word), ∃ (w2 : Word), ∃ (w3 : Word), ∃ p, ∃ (s : State), c < 14 ∧ AtFront c p 0x0902 tag [w1, w2, w3] s ∧ Started s ∧ hasBlk .recorder s = true ∧ w3.toNat < 2 ^ 30 ∧ todOk (w1.toNat + w2.toNat * 2 ^ 32 + w3.toNat * 2 ^ 64) = true ∧ s.rcd.clip = none) ∧
    (∃ (n : Nat), ∃ (j : Nat), ∃ (m : Nat), ∃ c, ∃ tag, ∃ (i : Nat), ∃ (w1 : Word), ∃ (w2 : Word), ∃ (w3 : Word), ∃ d, ∃ p, ∃ (s : State), c < 14 ∧ AtFront c p 0x0906 tag [w1, w2, w3] s ∧ Started s ∧ hasBlk .recorder s = true ∧ w1.toNat = n + j * 2 ^ 12 + m * 2 ^ 16 ∧ n < 4095 ∧ j < 8 ∧ m < 8 ∧ decOn m s = true ∧ cfgB F.CODEC_PIC_DEC_SRC m s = true ∧ (s.rcd.plays.getD m {}).state ≠ 1 ∧ dirState s.rcd.dir n ≠ 0 ∧ s.rcd.clip = none ∧ fieldAt ((s.rcd.dir.lookup n).getD []) 0x3C 4 % 2 = 0 ∧ d = slice ((s.rcd.dir.lookup n).getD []) (0x40 + 64 * j) 64 ∧ bits (fieldAt d 0 4) 31 31 = 1 ∧ bits (fieldAt d 0 4) 30 28 = 1 ∧ s.rcd.volume ≠ 0 ∧ m < s.rcd.plays.length ∧ ((List.range (fieldAt d 0x18 8)).find? (fun k => decide (w2.toNat + w3.toNat * 2 ^ 32 ≤ fieldAt (tableEntry (dirChain d 8 s) k s) 0 8) && fieldAt (tableEntry (dirChain d 8 s) k s) 0xC 4 / 256 % 2 == 1) = some i)) ∧
    (∃ c, ∃ tag, ∃ (w : Word), ∃ p, ∃ (s : State), c < 14 ∧ AtFront c p 0x0907 tag [w] s ∧ Started s ∧ hasBlk .recorder s = true ∧ w.toNat < 8 ∧ (s.rcd.plays.getD w.toNat {}).state = 1) ∧
    (∃ c, ∃ tag, ∃ (w : Word), ∃ p, ∃ (s : State), c < 14 ∧ AtFront c p 0x0907 tag [w] s ∧ Started s ∧ hasBlk .recorder s = true ∧ w.toNat < 8 ∧ (s.rcd.plays.getD w.toNat {}).state ≠ 1) :=
  ⟨⟨0, 1, 7, 1, 2, 3, pc, (msg 1 pc 0x0901 [1, 2, 3] ({ run .integrated [] with rcd := { volume := 2 } })), by decide +kernel, at1 (by decide +kernel) (by decide +kernel) (by decide +kernel), st1 (by decide +kernel), by decide +kernel⟩,
   ⟨1, 7, 1, 2, 3, pc, (msg 1 pc 0x0901 [1, 2, 3] ({ run .integrated [] with rcd := { volume := 2, clip := some { (default : Clip) with num := 4 } } })), by decide +kernel, at1 (by decide +kernel) (by decide +kernel) (by decide +kernel), st1 (by decide +kernel), by decide +kernel⟩,
   ⟨1, 7, 1, 2, 3, pc, (msg 1 pc 0x0902 [1, 2, 3] ({ run .integrated [] with rcd := { volume := 2, clip := some { (default : Clip) with num := 4 } } })), { (default : Clip) with num := 4 }, by decide +kernel, at1 (by decide +kernel) (by decide +kernel) (by decide +kernel), st1 (by decide +kernel), by decide +kernel⟩,
   ⟨1, 7, 1, 2, 3, pc, (msg 1 pc 0x0902 [1, 2, 3] (run .integrated [])), by decide +kernel, at1 (by decide +kernel) (by decide +kernel) (by decide +kernel), st1 (by decide +kernel), by decide +kernel⟩,
   ⟨5, 0, 3, 1, 7, 0, 0x30005, 0, 0, slice ((({ run .integrated [(F.CODEC_STRM_ENABLE, 3, 1), (F.CODEC_STRM_DIR, 3, 1), (F.CODEC_PIC_DEC_SRC, 3, 1)] with rcd := { volume := 1, members := [0], granule := 1, map := [(0, ⟨2, 0, 9, noGran, 5⟩)], dir := [(5, leBytes 4 0 ++ leBytes 4 0x80000000 ++ List.replicate 56 0 ++ leBytes 4 0x90000000 ++ List.replicate 4 0 ++ leBytes 4 0 ++ List.replicate 12 0 ++ leBytes 8 1 ++ List.replicate 32 0)], ssds := [{ media := { slots := [(9, List.replicate 13 0 ++ [1] ++ List.replicate 18 0)] } }, {}, {}, {}] } } : State).rcd.dir.lookup 5).getD []) (0x40 + 64 * 0) 64, pc, (msg 1 pc 0x0906 [0x30005, 0, 0] ({ run .integrated [(F.CODEC_STRM_ENABLE, 3, 1), (F.CODEC_STRM_DIR, 3, 1), (F.CODEC_PIC_DEC_SRC, 3, 1)] with rcd := { volume := 1, members := [0], granule := 1, map := [(0, ⟨2, 0, 9, noGran, 5⟩)], dir := [(5, leBytes 4 0 ++ leBytes 4 0x80000000 ++ List.replicate 56 0 ++ leBytes 4 0x90000000 ++ List.replicate 4 0 ++ leBytes 4 0 ++ List.replicate 12 0 ++ leBytes 8 1 ++ List.replicate 32 0)], ssds := [{ media := { slots := [(9, List.replicate 13 0 ++ [1] ++ List.replicate 18 0)] } }, {}, {}, {}] } })), by decide +kernel, at1 (by decide +kernel) (by decide +kernel) (by decide +kernel), st1 (by decide +kernel), by decide +kernel⟩,
   ⟨1, 7, 3, pc, (msg 1 pc 0x0907 [3] ({ run .integrated [] with rcd := { plays := List.replicate 8 { state := 1 } } })), by decide +kernel, at1 (by decide +kernel) (by decide +kernel) (by decide +kernel), st1 (by decide +kernel), by decide +kernel⟩,
   ⟨1, 7, 3, pc, (msg 1 pc 0x0907 [3] (run .integrated [])), by decide +kernel, at1 (by decide +kernel) (by decide +kernel) (by decide +kernel), st1 (by decide +kernel), by decide +kernel⟩⟩

/-- The hypotheses of each clause of Obligations.LaneMessages, met together. -/
theorem wit_LaneMessages :
    (∃ n, ∃ c, ∃ tag, ∃ p, ∃ (s : State), n < 40 ∧ c < 14 ∧ Started s ∧ AtFront c p (0x0B00 + n) tag [0] s) ∧
    (∃ n, ∃ c, ∃ tag, ∃ p, ∃ (s : State), ∃ h, ∃ v, ∃ d, n < 40 ∧ c < 14 ∧ Started s ∧ 1 ≤ h ∧ h ≤ 32 ∧ 1 ≤ v ∧ v ≤ 127 ∧ 16 ≤ d ∧ d ≤ 32 ∧ AtFront c p (0x0B00 + n) tag [1, BitVec.ofNat 32 (h + v * 2 ^ 8 + d * 2 ^ 16)] s ∧ laneUp n s = true ∧ (laneOf n s).scan = none ∧ scanLong h v d (rateBaud1001 (rateInForce n s)) = false ∧ n < s.lanes.length) ∧
    (∃ n, ∃ c, ∃ tag, ∃ p, ∃ (s : State), ∃ (k : Scan), ∃ (o : Word), n < 40 ∧ c < 14 ∧ Started s ∧ AtFront c p (0x0B00 + n) tag [2, o] s ∧ laneOn n s = true ∧ (laneOf n s).scan = some k ∧ o.toNat % 64 = 0 ∧ holdsBulk p s = true ∧ o.toNat + (scanBytes n k).length ≤ 0x100000) ∧
    (∃ n, ∃ c, ∃ tag, ∃ p, ∃ (s : State), n < 40 ∧ c < 14 ∧ Started s ∧ AtFront c p (0x0B00 + n) tag [3] s ∧ laneOn n s = true) ∧
    (∃ n, ∃ c, ∃ tag, ∃ p, ∃ (s : State), ∃ g, ∃ k, ∃ lb, n < 40 ∧ c < 14 ∧ Started s ∧ g < 8 ∧ k < 8 ∧ lb < 3 ∧ AtFront c p (0x0B00 + n) tag [4, BitVec.ofNat 32 (g + k * 2 ^ 4 + lb * 2 ^ 8)] s ∧ laneOn n s = true ∧ (laneOf n s).state = 5 ∧ patternOk (laneRate s.cfg.accepted n) g = true ∧ patternOk (laneRate s.cfg.accepted n) k = true) ∧
    (∃ n, ∃ c, ∃ tag, ∃ p, ∃ (s : State), ∃ (w : Word), n < 40 ∧ c < 14 ∧ Started s ∧ 0 < w.toNat ∧ w.toNat < 128 ∧ AtFront c p (0x0B00 + n) tag [5, w] s ∧ laneOn n s = true ∧ (laneOf n s).state = 5 ∧ ratePam4 (laneRate s.cfg.accepted n) = false) ∧
    (∃ n, ∃ c, ∃ tag, ∃ p, ∃ (s : State), ∃ (w : Word), n < 40 ∧ c < 14 ∧ Started s ∧ 0 < w.toNat ∧ w.toNat < 128 ∧ AtFront c p (0x0B00 + n) tag [5, w] s ∧ laneOn n s = true ∧ (laneOf n s).state ≠ 5) ∧
    (∃ n, ∃ c, ∃ tag, ∃ p, ∃ (s : State), n < 40 ∧ c < 14 ∧ Started s ∧ AtFront c p (0x0B00 + n) tag [6] s ∧ laneOn n s = true) ∧
    (∃ n, ∃ c, ∃ tag, ∃ p, ∃ (s : State), n < 40 ∧ c < 14 ∧ Started s ∧ AtFront c p (0x0B00 + n) tag [3] s ∧ laneOn n s = false) :=
  ⟨⟨21, 1, 7, pc, (msg 1 pc (0x0B00 + 21) [0] (run .body [])), by decide +kernel, by decide +kernel, st1 (by decide +kernel), at1 (by decide +kernel) (by decide +kernel) (by decide +kernel)⟩,
   ⟨21, 1, 7, pc, (msg 1 pc (0x0B00 + 21) [1, BitVec.ofNat 32 (8 + 32 * 2 ^ 8 + 20 * 2 ^ 16)] (held .pcie ({ run .body [(F.LANE_PROTO, 20, 1), (F.LANE_RATE, 21, 8)] with lanes := List.replicate 40 { state := 2 } }))), 8, 32, 20, by decide +kernel, by decide +kernel, st1 (by decide +kernel), by decide +kernel, by decide +kernel, by decide +kernel, by decide +kernel, by decide +kernel, by decide +kernel, at1 (by decide +kernel) (by decide +kernel) (by decide +kernel), by decide +kernel⟩,
   ⟨21, 1, 7, pc, (msg 1 pc (0x0B00 + 21) [2, 64] (held .pcie ({ run .body [(F.LANE_PROTO, 20, 1), (F.LANE_RATE, 21, 8)] with lanes := List.replicate 40 { scan := some (Scan.mk 8 32 20 0 2 1 8 ⟨0, 0⟩ ⟨0, 0⟩ 0 0 0 1 [0, 0]) } }))), (Scan.mk 8 32 20 0 2 1 8 ⟨0, 0⟩ ⟨0, 0⟩ 0 0 0 1 [0, 0]), 64, by decide +kernel, by decide +kernel, st1 (by decide +kernel), at1 (by decide +kernel) (by decide +kernel) (by decide +kernel), by decide +kernel⟩,
   ⟨21, 1, 7, pc, (msg 1 pc (0x0B00 + 21) [3] (held .pcie ({ run .body [(F.LANE_PROTO, 20, 1), (F.LANE_RATE, 21, 8)] with lanes := List.replicate 40 {  } }))), by decide +kernel, by decide +kernel, st1 (by decide +kernel), at1 (by decide +kernel) (by decide +kernel) (by decide +kernel), by decide +kernel⟩,
   ⟨21, 1, 7, pc, (msg 1 pc (0x0B00 + 21) [4, BitVec.ofNat 32 (3 + 3 * 2 ^ 4 + 1 * 2 ^ 8)] (held .pcie ({ run .body [(F.LANE_PROTO, 20, 1), (F.LANE_RATE, 21, 8)] with lanes := List.replicate 40 { state := 5 } }))), 3, 3, 1, by decide +kernel, by decide +kernel, st1 (by decide +kernel), by decide +kernel, by decide +kernel, by decide +kernel, at1 (by decide +kernel) (by decide +kernel) (by decide +kernel), by decide +kernel⟩,
   ⟨21, 1, 7, pc, (msg 1 pc (0x0B00 + 21) [5, 9] (held .pcie ({ run .body [(F.LANE_PROTO, 20, 1), (F.LANE_RATE, 21, 8)] with lanes := List.replicate 40 { state := 5 } }))), 9, by decide +kernel, by decide +kernel, st1 (by decide +kernel), by decide +kernel, by decide +kernel, at1 (by decide +kernel) (by decide +kernel) (by decide +kernel), by decide +kernel⟩,
   ⟨21, 1, 7, pc, (msg 1 pc (0x0B00 + 21) [5, 9] (held .pcie ({ run .body [(F.LANE_PROTO, 20, 1), (F.LANE_RATE, 21, 8)] with lanes := List.replicate 40 { state := 2 } }))), 9, by decide +kernel, by decide +kernel, st1 (by decide +kernel), by decide +kernel, by decide +kernel, at1 (by decide +kernel) (by decide +kernel) (by decide +kernel), by decide +kernel⟩,
   ⟨21, 1, 7, pc, (msg 1 pc (0x0B00 + 21) [6] (held .pcie ({ run .body [(F.LANE_PROTO, 20, 1), (F.LANE_RATE, 21, 8)] with lanes := List.replicate 40 {  } }))), by decide +kernel, by decide +kernel, st1 (by decide +kernel), at1 (by decide +kernel) (by decide +kernel) (by decide +kernel), by decide +kernel⟩,
   ⟨21, 1, 7, pc, (msg 1 pc (0x0B00 + 21) [3] (run .body [])), by decide +kernel, by decide +kernel, st1 (by decide +kernel), at1 (by decide +kernel) (by decide +kernel) (by decide +kernel), by decide +kernel⟩⟩

/-- The hypotheses of each clause of Obligations.LinkTimePowerMessages, met together. -/
theorem wit_LinkTimePowerMessages :
    (∃ g, ∃ c, ∃ tag, ∃ p, ∃ (s : State), g < 9 ∧ c < 14 ∧ AtFront c p (0x0C01 + 16 * g) tag [] s ∧ Started s ∧ hasBlk (if g = 8 then .cage else .shaft) s = true ∧ groupOn g s = false) ∧
    (∃ g, ∃ c, ∃ tag, ∃ p, ∃ (s : State), g < 9 ∧ c < 14 ∧ AtFront c p (0x0C01 + 16 * g) tag [] s ∧ Started s ∧ hasBlk (if g = 8 then .cage else .shaft) s = true ∧ groupOn g s = true ∧ (cfgB F.LINK_MODE g s = false ∨ (groupOf g s).state ≤ 1)) ∧
    (∃ i, ∃ c, ∃ tag, ∃ (w1 : Word), ∃ (w2 : Word), ∃ (w3 : Word), ∃ (h : Word), ∃ p, ∃ (s : State), c < 14 ∧ AtFront c p 0x0E20 tag [w1, w2, w3, h] s ∧ Started s ∧ w3.toNat < 2 ^ 30 ∧ todOk (w1.toNat + w2.toNat * 2 ^ 32 + w3.toNat * 2 ^ 64) = true ∧ hdrCount h.toNat = 1 ∧ freeEntry s.time.table = some i ∧ todUnits (nowTod s) + 1000000 * 65536 ≤ todUnits (todUnpack (w1.toNat + w2.toNat * 2 ^ 32 + w3.toNat * 2 ^ 64)) ∧ hdrPriv h.toNat = false ∧ privilegedCode (hdrCode h.toNat) = false ∧ hdrCode h.toNat ≠ 0x0E20 ∧ hdrCode h.toNat ≠ 0x0E21) ∧
    (∃ c, ∃ tag, ∃ (w1 : Word), ∃ (w2 : Word), ∃ (w3 : Word), ∃ (h : Word), ∃ p, ∃ (s : State), c < 14 ∧ AtFront c p 0x0E20 tag [w1, w2, w3, h] s ∧ Started s ∧ w3.toNat < 2 ^ 30 ∧ todOk (w1.toNat + w2.toNat * 2 ^ 32 + w3.toNat * 2 ^ 64) = true ∧ hdrCount h.toNat = 1 ∧ freeEntry s.time.table = none) ∧
    (∃ c, ∃ tag, ∃ (w : Word), ∃ p, ∃ (s : State), c < 14 ∧ AtFront c p 0x0E21 tag [w] s ∧ Started s ∧ w.toNat < 32 ∧ (s.time.table.getD w.toNat none).isSome = true) ∧
    (∃ c, ∃ tag, ∃ (w : Word), ∃ p, ∃ (s : State), c < 14 ∧ AtFront c p 0x0E21 tag [w] s ∧ Started s ∧ w.toNat < 32 ∧ s.time.table.getD w.toNat none = none) ∧
    (∃ g, ∃ c, ∃ tag, ∃ (w : Word), ∃ (a : Word), ∃ (b : Word), ∃ (d : Word), ∃ (s : State), c < 14 ∧ AtFront c (.fwd g) 0x1008 tag [w, a, b, d] s ∧ Started s ∧ s.dev.role = .body ∧ redOn s = true ∧ s.red.state = 4 ∧ w.toNat < 2) ∧
    (∃ c, ∃ tag, ∃ p, ∃ (s : State), c < 14 ∧ AtFront c p 0x1701 tag [1] s ∧ Started s ∧ suspendRefused s = true) ∧
    (∃ c, ∃ tag, ∃ p, ∃ (s : State), c < 14 ∧ AtFront c p 0x1701 tag [1] s ∧ Started s ∧ suspendRefused s = false) ∧
    (∃ c, ∃ tag, ∃ p, ∃ (s : State), c < 14 ∧ AtFront c p 0x1701 tag [0] s ∧ s.dev.state = .running ∧ s.pwr.thermallyOff = false ∧ s.pwr.suspended = true) :=
  ⟨⟨2, 1, 7, pc, (msg 1 pc (0x0C01 + 16 * 2) [] (run .body [])), by decide +kernel, by decide +kernel, at1 (by decide +kernel) (by decide +kernel) (by decide +kernel), st1 (by decide +kernel), by decide +kernel⟩,
   ⟨2, 1, 7, pc, (msg 1 pc (0x0C01 + 16 * 2) [] ({ run .body [(F.LINK_ENABLE, 2, 1)] with links := List.replicate 9 { state := 0 } })), by decide +kernel, by decide +kernel, at1 (by decide +kernel) (by decide +kernel) (by decide +kernel), st1 (by decide +kernel), by decide +kernel⟩,
   ⟨0, 1, 7, 0, 0x4000, 0, 0x01001005, pc, (msg 1 pc 0x0E20 [0, 0x4000, 0, 0x01001005] (run .integrated [])), by decide +kernel, at1 (by decide +kernel) (by decide +kernel) (by decide +kernel), st1 (by decide +kernel), by decide +kernel⟩,
   ⟨1, 7, 0, 0x4000, 0, 0x01001005, pc, (msg 1 pc 0x0E20 [0, 0x4000, 0, 0x01001005] ({ run .integrated [] with time := { table := List.replicate 32 (some ⟨⟨1, 0⟩, 0, 1, .internal, []⟩) } })), by decide +kernel, at1 (by decide +kernel) (by decide +kernel) (by decide +kernel), st1 (by decide +kernel), by decide +kernel⟩,
   ⟨1, 7, 31, pc, (msg 1 pc 0x0E21 [31] ({ run .integrated [] with time := { table := List.replicate 32 (some ⟨⟨1, 0⟩, 0, 1, .internal, []⟩) } })), by decide +kernel, at1 (by decide +kernel) (by decide +kernel) (by decide +kernel), st1 (by decide +kernel), by decide +kernel⟩,
   ⟨1, 7, 31, pc, (msg 1 pc 0x0E21 [31] (run .integrated [])), by decide +kernel, at1 (by decide +kernel) (by decide +kernel) (by decide +kernel), st1 (by decide +kernel), by decide +kernel⟩,
   ⟨2, 1, 7, 1, 2, 3, 4, (msg 1 (.fwd 2) 0x1008 [1, 2, 3, 4] ({ run .body [(F.RED_ENABLE, 0, 1)] with red := { state := 4 } })), by decide +kernel, at1 (by decide +kernel) (by decide +kernel) (by decide +kernel), st1 (by decide +kernel), by decide +kernel⟩,
   ⟨1, 7, pc, (msg 1 pc 0x1701 [1] (run .integrated [])), by decide +kernel, at1 (by decide +kernel) (by decide +kernel) (by decide +kernel), st1 (by decide +kernel), by decide +kernel⟩,
   ⟨1, 7, pc, (msg 1 pc 0x1701 [1] (run .integrated [(F.PWR_SUSPEND_EN, 0, 1)])), by decide +kernel, at1 (by decide +kernel) (by decide +kernel) (by decide +kernel), st1 (by decide +kernel), by decide +kernel⟩,
   ⟨1, 7, pc, (msg 1 pc 0x1701 [0] ({ run .integrated [] with pwr := { suspended := true } })), by decide +kernel, at1 (by decide +kernel) (by decide +kernel) (by decide +kernel), by decide +kernel⟩⟩

/-- The hypotheses of each clause of Obligations.IslandMessages, met together. -/
theorem wit_IslandMessages :
    (∃ tag, ∃ (n : Word), ∃ (f0 : Word), ∃ (f1 : Word), ∃ (o : Word), ∃ (k : Word), ∃ (es : List IslandEntry), ∃ p, ∃ (s : State), AtFront 14 p 0x0F01 tag [n, f0, f1, o, k] s ∧ Started s ∧ n.toNat < 8 ∧ o.toNat % 64 = 0 ∧ o.toNat ≤ 0x100000 ∧ 1 ≤ k.toNat ∧ k.toNat ≤ 16384 ∧ holdsBulk p s = true ∧ takeEntries (entriesFrom n.toNat (f0.toNat + f1.toNat * 2 ^ 32) s) k.toNat (0x100000 - o.toNat) = es) ∧
    (∃ tag, ∃ (o : Word), ∃ p, ∃ (s : State), AtFront 14 p 0x0F02 tag [o] s ∧ Started s ∧ o.toNat + 248 ≤ 0x100000 ∧ holdsBulk p s = true) ∧
    (∃ tag, ∃ (o : Word), ∃ p, ∃ (s : State), AtFront 14 p 0x0F02 tag [o] s ∧ Started s ∧ o.toNat + 248 ≤ 0x100000 ∧ holdsBulk p s = false) ∧
    (∃ tag, ∃ p, ∃ (s : State), AtFront 14 p 0x0F03 tag [] s ∧ Started s ∧ s.isl.running = true) ∧
    (∃ tag, ∃ p, ∃ (s : State), AtFront 14 p 0x0F03 tag [] s ∧ Started s ∧ s.isl.running = false) ∧
    (∃ tag, ∃ (n : Word), ∃ p, ∃ (s : State), AtFront 14 p 0x0F04 tag [n] s ∧ Started s ∧ n.toNat < 8 ∧ recordsFor n.toNat s = true ∧ n.toNat < s.isl.seams.length) :=
  ⟨⟨7, 2, 0, 0, 0, 16, [.record 2 7 (List.replicate 64 1)], pc, (msg 14 pc 0x0F01 [2, 0, 0, 0, 16] (held .pcie ({ run .integrated [] with isl := { running := true, ring := [.record 2 7 (List.replicate 64 1)] } }))), at1 (by decide +kernel) (by decide +kernel) (by decide +kernel), st1 (by decide +kernel), by decide +kernel⟩,
   ⟨7, 64, pc, (msg 14 pc 0x0F02 [64] (held .pcie (run .integrated []))), at1 (by decide +kernel) (by decide +kernel) (by decide +kernel), st1 (by decide +kernel), by decide +kernel⟩,
   ⟨7, 64, pc, (msg 14 pc 0x0F02 [64] (run .integrated [])), at1 (by decide +kernel) (by decide +kernel) (by decide +kernel), st1 (by decide +kernel), by decide +kernel⟩,
   ⟨7, pc, (msg 14 pc 0x0F03 [] ({ run .integrated [] with isl := { running := true } })), at1 (by decide +kernel) (by decide +kernel) (by decide +kernel), st1 (by decide +kernel), by decide +kernel⟩,
   ⟨7, pc, (msg 14 pc 0x0F03 [] (run .integrated [])), at1 (by decide +kernel) (by decide +kernel) (by decide +kernel), st1 (by decide +kernel), by decide +kernel⟩,
   ⟨7, 2, pc, (msg 14 pc 0x0F04 [2] ({ run .integrated [(F.SEAM_SRC_ENABLE, 2, 1)] with isl := { running := true } })), at1 (by decide +kernel) (by decide +kernel) (by decide +kernel), st1 (by decide +kernel), by decide +kernel⟩⟩

/-- The hypotheses of each clause of Obligations.ViewAndAudioMessages, met together. -/
theorem wit_ViewAndAudioMessages :
    (∃ k, ∃ c, ∃ tag, ∃ (j : Word), ∃ (xy : Word), ∃ (wh : Word), ∃ (o : Word), ∃ p, ∃ (s : State), k < 2 ∧ c < 14 ∧ AtFront c p (0x1108 + k) tag [j, xy, wh, o] s ∧ Started s ∧ hasBlk .media s = true ∧ j.toNat < 4 ∧ holdsBulk p s = true ∧ vfOn k s = true ∧ xy.toNat / 65536 + wh.toNat / 65536 ≤ cfgN F.VF_OVL_W (ovl k j.toNat) s ∧ xy.toNat % 65536 + wh.toNat % 65536 ≤ cfgN F.VF_OVL_H (ovl k j.toNat) s ∧ o.toNat + 4 * (wh.toNat / 65536) * (wh.toNat % 65536) ≤ 0x100000) ∧
    (∃ k, ∃ c, ∃ tag, ∃ (j : Word), ∃ (xy : Word), ∃ (wh : Word), ∃ (o : Word), ∃ p, ∃ (s : State), k < 2 ∧ c < 14 ∧ AtFront c p (0x1108 + k) tag [j, xy, wh, o] s ∧ Started s ∧ hasBlk .media s = true ∧ j.toNat < 4 ∧ holdsBulk p s = true ∧ vfOn k s = true ∧ cfgN F.VF_OVL_W (ovl k j.toNat) s < xy.toNat / 65536 + wh.toNat / 65536) ∧
    (∃ k, ∃ c, ∃ tag, ∃ p, ∃ (s : State), k < 2 ∧ c < 14 ∧ AtFront c p (0x1110 + k) tag [] s ∧ Started s ∧ hasBlk .media s = true ∧ vfOn k s = true) ∧
    (∃ k, ∃ c, ∃ tag, ∃ p, ∃ (s : State), k < 2 ∧ c < 14 ∧ AtFront c p (0x1110 + k) tag [] s ∧ Started s ∧ hasBlk .media s = true ∧ vfOn k s = false) ∧
    (∃ a, ∃ c, ∃ tag, ∃ (w : Word), ∃ p, ∃ (s : State), a < 8 ∧ c < 14 ∧ AtFront c p (0x1208 + a) tag [w] s ∧ Started s ∧ hasBlk .media s = true ∧ w.toNat < 2 ∧ audOn a s = true) ∧
    (∃ a, ∃ c, ∃ tag, ∃ (w : Word), ∃ p, ∃ (s : State), a < 8 ∧ c < 14 ∧ AtFront c p (0x1208 + a) tag [w] s ∧ Started s ∧ hasBlk .media s = true ∧ w.toNat < 2 ∧ audOn a s = false) ∧
    (∃ a, ∃ c, ∃ tag, ∃ (b0 : Word), ∃ (b1 : Word), ∃ p, ∃ (s : State), a < 8 ∧ c < 14 ∧ AtFront c p (0x1210 + a) tag [b0, b1, 1] s ∧ Started s ∧ hasBlk .media s = true ∧ holdsBulk p s = true ∧ audOn a s = true ∧ cfgB F.AUD_DIR a s = true ∧ cfgB F.AUD_SRC a s = false ∧ a < s.out.audio.length ∧ hasBegun a (b0.toNat + b1.toNat * 2 ^ 32) s = false ∧ (audOf a s).ring = [] ∧ 0 < cfgN F.AUD_BUFS a s) ∧
    (∃ a, ∃ c, ∃ tag, ∃ (b0 : Word), ∃ (b1 : Word), ∃ p, ∃ (s : State), a < 8 ∧ c < 14 ∧ AtFront c p (0x1210 + a) tag [b0, b1, 1] s ∧ Started s ∧ hasBlk .media s = true ∧ holdsBulk p s = true ∧ audOn a s = true ∧ cfgB F.AUD_DIR a s = true ∧ cfgB F.AUD_SRC a s = false ∧ a < s.out.audio.length ∧ hasBegun a (b0.toNat + b1.toNat * 2 ^ 32) s = true) :=
  ⟨⟨1, 1, 7, 2, 0x00100010, 0x00100010, 64, pc, (msg 1 pc (0x1108 + 1) [2, 0x00100010, 0x00100010, 64] (held .pcie (run .integrated [(F.VF_PANEL_ENABLE, 1, 1), (F.VF_OVL_W, 16 * 1 + 2, 64), (F.VF_OVL_H, 16 * 1 + 2, 64)]))), by decide +kernel, by decide +kernel, at1 (by decide +kernel) (by decide +kernel) (by decide +kernel), st1 (by decide +kernel), by decide +kernel⟩,
   ⟨1, 1, 7, 2, 0x00100010, 0x00400010, 64, pc, (msg 1 pc (0x1108 + 1) [2, 0x00100010, 0x00400010, 64] (held .pcie (run .integrated [(F.VF_PANEL_ENABLE, 1, 1), (F.VF_OVL_W, 16 * 1 + 2, 64), (F.VF_OVL_H, 16 * 1 + 2, 64)]))), by decide +kernel, by decide +kernel, at1 (by decide +kernel) (by decide +kernel) (by decide +kernel), st1 (by decide +kernel), by decide +kernel⟩,
   ⟨1, 1, 7, pc, (msg 1 pc (0x1110 + 1) [] (held .pcie (run .integrated [(F.VF_PANEL_ENABLE, 1, 1), (F.VF_OVL_W, 16 * 1 + 2, 64), (F.VF_OVL_H, 16 * 1 + 2, 64)]))), by decide +kernel, by decide +kernel, at1 (by decide +kernel) (by decide +kernel) (by decide +kernel), st1 (by decide +kernel), by decide +kernel⟩,
   ⟨1, 1, 7, pc, (msg 1 pc (0x1110 + 1) [] (run .integrated [])), by decide +kernel, by decide +kernel, at1 (by decide +kernel) (by decide +kernel) (by decide +kernel), st1 (by decide +kernel), by decide +kernel⟩,
   ⟨5, 1, 7, 1, pc, (msg 1 pc (0x1208 + 5) [1] (held .pcie (run .integrated [(F.AUD_ENABLE, 5, 1), (F.AUD_DIR, 5, 1), (F.AUD_BUFS, 5, 8)]))), by decide +kernel, by decide +kernel, at1 (by decide +kernel) (by decide +kernel) (by decide +kernel), st1 (by decide +kernel), by decide +kernel⟩,
   ⟨5, 1, 7, 1, pc, (msg 1 pc (0x1208 + 5) [1] (run .integrated [])), by decide +kernel, by decide +kernel, at1 (by decide +kernel) (by decide +kernel) (by decide +kernel), st1 (by decide +kernel), by decide +kernel⟩,
   ⟨5, 1, 7, 4, 0, pc, (msg 1 pc (0x1210 + 5) [4, 0, 1] (held .pcie (run .integrated [(F.AUD_ENABLE, 5, 1), (F.AUD_DIR, 5, 1), (F.AUD_BUFS, 5, 8)]))), by decide +kernel, by decide +kernel, at1 (by decide +kernel) (by decide +kernel) (by decide +kernel), st1 (by decide +kernel), by decide +kernel⟩,
   ⟨5, 1, 7, 4, 0, pc, (msg 1 pc (0x1210 + 5) [4, 0, 1] (held .pcie { run .integrated [(F.AUD_ENABLE, 5, 1), (F.AUD_DIR, 5, 1), (F.AUD_BUFS, 5, 8)] with out := { audio := List.replicate 8 { state := 2, cur := 9 } } })), by decide +kernel, by decide +kernel, at1 (by decide +kernel) (by decide +kernel) (by decide +kernel), st1 (by decide +kernel), by decide +kernel⟩⟩

/-- The hypotheses of each clause of Obligations.HeadframeMessages, met together. -/
theorem wit_HeadframeMessages :
    (∃ c, ∃ tag, ∃ (f0 : Word), ∃ (f1 : Word), ∃ (n : Word), ∃ (o : Word), ∃ p, ∃ (s : State), c < 14 ∧ AtFront c p 0x1500 tag [f0, f1, n, o] s ∧ Started s ∧ n.toNat ≤ 32768 ∧ o.toNat % 32 = 0 ∧ o.toNat ≤ 0x100000 ∧ holdsBulk p s = true) ∧
    (∃ c, ∃ tag, ∃ (w : Word), ∃ p, ∃ (s : State), c < 14 ∧ AtFront c p 0x1510 tag [w] s ∧ Started s ∧ w.toNat < 16 ∧ s.hf.surveyRunning ≠ []) ∧
    (∃ c, ∃ tag, ∃ (w : Word), ∃ p, ∃ (s : State), c < 14 ∧ AtFront c p 0x1510 tag [w] s ∧ Started s ∧ w.toNat < 16 ∧ s.hf.surveyRunning = [] ∧ w.toNat % 2 = 1 ∧ s.rcd.clip.isSome = true) ∧
    (∃ c, ∃ tag, ∃ (w : Word), ∃ p, ∃ (s : State), c < 14 ∧ AtFront c p 0x1510 tag [w] s ∧ Started s ∧ w.toNat < 16 ∧ s.hf.surveyRunning = [] ∧ w.toNat = 12) ∧
    (∃ c, ∃ tag, ∃ (o : Word), ∃ (n : Word), ∃ p, ∃ (s : State), c < 14 ∧ AtFront c p 0x1521 tag [o, n] s ∧ Started s ∧ n.toNat ≤ 0x100000 ∧ holdsBulk p s = true ∧ s.hf.update.state = .receiving ∧ s.hf.update.path = p ∧ o.toNat = s.hf.update.bytes.length ∧ o.toNat + n.toNat ≤ s.hf.update.size) ∧
    (∃ c, ∃ tag, ∃ (o : Word), ∃ (n : Word), ∃ p, ∃ (s : State), c < 14 ∧ AtFront c p 0x1521 tag [o, n] s ∧ Started s ∧ n.toNat ≤ 0x100000 ∧ holdsBulk p s = true ∧ o.toNat ≠ s.hf.update.bytes.length) ∧
    (∃ c, ∃ tag, ∃ p, ∃ (s : State), c < 14 ∧ AtFront c p 0x1522 tag [] s ∧ Started s ∧ unconfirmed s = true) ∧
    (∃ c, ∃ tag, ∃ p, ∃ (s : State), c < 14 ∧ AtFront c p 0x1522 tag [] s ∧ Started s ∧ unconfirmed s = false ∧ s.hf.update.state = .receiving ∧ s.hf.update.bytes.length = s.hf.update.size ∧ imageReason s.hf.update.kind s.hf.update.bytes s = 0) ∧
    (∃ c, ∃ tag, ∃ p, ∃ (s : State), c < 14 ∧ AtFront c p 0x1522 tag [] s ∧ Started s ∧ unconfirmed s = false ∧ s.hf.update.state = .receiving ∧ s.hf.update.bytes.length = s.hf.update.size ∧ imageReason s.hf.update.kind s.hf.update.bytes s ≠ 0) ∧
    (∃ c, ∃ tag, ∃ p, ∃ (s : State), c < 14 ∧ AtFront c p 0x1524 tag [] s ∧ Started s ∧ s.hf.update.state ≠ .writing) ∧
    (∃ c, ∃ tag, ∃ p, ∃ (s : State), c < 14 ∧ AtFront c p 0x1524 tag [] s ∧ Started s ∧ s.hf.update.state = .writing) :=
  ⟨⟨1, 7, 0, 0, 9, 64, pc, (msg 1 pc 0x1500 [0, 0, 9, 64] (held .pcie (run .integrated []))), by decide +kernel, at1 (by decide +kernel) (by decide +kernel) (by decide +kernel), st1 (by decide +kernel), by decide +kernel⟩,
   ⟨1, 7, 5, pc, (msg 1 pc 0x1510 [5] ({ run .integrated [] with hf := { surveyRunning := [2] } })), by decide +kernel, at1 (by decide +kernel) (by decide +kernel) (by decide +kernel), st1 (by decide +kernel), by decide +kernel⟩,
   ⟨1, 7, 5, pc, (msg 1 pc 0x1510 [5] ({ run .integrated [] with rcd := { clip := some { (default : Clip) with num := 4 } } })), by decide +kernel, at1 (by decide +kernel) (by decide +kernel) (by decide +kernel), st1 (by decide +kernel), by decide +kernel⟩,
   ⟨1, 7, 12, pc, (msg 1 pc 0x1510 [12] (run .integrated [])), by decide +kernel, at1 (by decide +kernel) (by decide +kernel) (by decide +kernel), st1 (by decide +kernel), by decide +kernel⟩,
   ⟨1, 7, 3, 4, pc, (msg 1 pc 0x1521 [3, 4] (held .pcie ({ run .integrated [] with hf := { update := { state := .receiving, path := pc, bytes := [1, 2, 3], size := 9 } } }))), by decide +kernel, at1 (by decide +kernel) (by decide +kernel) (by decide +kernel), st1 (by decide +kernel), by decide +kernel⟩,
   ⟨1, 7, 5, 4, pc, (msg 1 pc 0x1521 [5, 4] (held .pcie ({ run .integrated [] with hf := { update := { state := .receiving, path := pc, bytes := [1, 2, 3], size := 9 } } }))), by decide +kernel, at1 (by decide +kernel) (by decide +kernel) (by decide +kernel), st1 (by decide +kernel), by decide +kernel⟩,
   ⟨1, 7, pc, (msg 1 pc 0x1522 [] ({ run .integrated [] with nvm := { slotRecs := [⟨1, 1, 0, 1, false, 3⟩] } })), by decide +kernel, at1 (by decide +kernel) (by decide +kernel) (by decide +kernel), st1 (by decide +kernel), by decide +kernel⟩,
   ⟨1, 7, pc, (msg 1 pc 0x1522 [] ({ run .integrated [] with hf := { update := { state := .receiving, kind := 1, path := pc, bytes := image 1 0, size := 256 } }, otp := { vendorHash := hashG } })), by decide +kernel, at1 (by decide +kernel) (by decide +kernel) (by decide +kernel), st1 (by decide +kernel), by decide +kernel⟩,
   ⟨1, 7, pc, (msg 1 pc 0x1522 [] ({ run .integrated [] with hf := { update := { state := .receiving, kind := 1, path := pc, bytes := [1, 2, 3], size := 3 } } })), by decide +kernel, at1 (by decide +kernel) (by decide +kernel) (by decide +kernel), st1 (by decide +kernel), by decide +kernel⟩,
   ⟨1, 7, pc, (msg 1 pc 0x1524 [] ({ run .integrated [] with hf := { update := { state := .receiving, size := 9 } } })), by decide +kernel, at1 (by decide +kernel) (by decide +kernel) (by decide +kernel), st1 (by decide +kernel), by decide +kernel⟩,
   ⟨1, 7, pc, (msg 1 pc 0x1524 [] ({ run .integrated [] with hf := { update := { state := .writing } } })), by decide +kernel, at1 (by decide +kernel) (by decide +kernel) (by decide +kernel), st1 (by decide +kernel), by decide +kernel⟩⟩

/-- The hypotheses of each clause of Obligations.SecurityMessages, met together. -/
theorem wit_SecurityMessages :
    (∃ c, ∃ tag, ∃ (n0 : Word), ∃ (n1 : Word), ∃ (n2 : Word), ∃ (n3 : Word), ∃ (o : Word), ∃ p, ∃ (s : State), c < 14 ∧ AtFront c p 0x1600 tag [n0, n1, n2, n3, o] s ∧ Started s ∧ o.toNat % 64 = 0 ∧ o.toNat + 368 ≤ 0x100000 ∧ holdsBulk p s = true) ∧
    (∃ c, ∃ tag, ∃ (n0 : Word), ∃ (n1 : Word), ∃ (n2 : Word), ∃ (n3 : Word), ∃ (o : Word), ∃ p, ∃ (s : State), c < 14 ∧ AtFront c p 0x1600 tag [n0, n1, n2, n3, o] s ∧ Started s ∧ o.toNat % 64 = 0 ∧ o.toNat + 368 ≤ 0x100000 ∧ holdsBulk p s = false) ∧
    (∃ c, ∃ tag, ∃ (o : Word), ∃ p, ∃ (s : State), c < 14 ∧ AtFront c p 0x1601 tag [o] s ∧ Started s ∧ o.toNat + 248 ≤ 0x100000 ∧ holdsBulk p s = true) ∧
    (∃ c, ∃ tag, ∃ (o : Word), ∃ p, ∃ (s : State), c < 14 ∧ AtFront c p 0x1601 tag [o] s ∧ Started s ∧ o.toNat + 248 ≤ 0x100000 ∧ holdsBulk p s = false) ∧
    (∃ c, ∃ tag, ∃ (o : Word), ∃ (s : State), c < 14 ∧ AtFront c (.regs .spi) 0x1602 tag [0, o] s ∧ Started s ∧ unowned s = true ∧ o.toNat + 64 ≤ 0x100000 ∧ holdsBulk (.regs .spi) s = true ∧ (ownerSlot 0 s).state = 0 ∧ onCurve (keyPoint (readBulk o.toNat 64 s)).1 (keyPoint (readBulk o.toNat 64 s)).2 = true) :=
  ⟨⟨1, 7, 1, 2, 3, 4, 64, pc, (msg 1 pc 0x1600 [1, 2, 3, 4, 64] (held .pcie (run .integrated []))), by decide +kernel, at1 (by decide +kernel) (by decide +kernel) (by decide +kernel), st1 (by decide +kernel), by decide +kernel⟩,
   ⟨1, 7, 1, 2, 3, 4, 64, pc, (msg 1 pc 0x1600 [1, 2, 3, 4, 64] (run .integrated [])), by decide +kernel, at1 (by decide +kernel) (by decide +kernel) (by decide +kernel), st1 (by decide +kernel), by decide +kernel⟩,
   ⟨1, 7, 64, pc, (msg 1 pc 0x1601 [64] (held .pcie (run .integrated []))), by decide +kernel, at1 (by decide +kernel) (by decide +kernel) (by decide +kernel), st1 (by decide +kernel), by decide +kernel⟩,
   ⟨1, 7, 64, pc, (msg 1 pc 0x1601 [64] (run .integrated [])), by decide +kernel, at1 (by decide +kernel) (by decide +kernel) (by decide +kernel), st1 (by decide +kernel), by decide +kernel⟩,
   ⟨1, 7, 0, (msg 1 (.regs .spi) 0x1602 [0, 0] ({ run .integrated [] with mbx := { holder := some .spi, bulk := keyG.zipIdx.map fun x => (x.2, x.1) } })), by decide +kernel, at1 (by decide +kernel) (by decide +kernel) (by decide +kernel), st1 (by decide +kernel), by decide +kernel⟩⟩

/-- The hypotheses of each clause of Obligations.FrameNumbers, met together. -/
theorem wit_FrameNumbers :
    (∃ (s : State), s.dev.state = .ready) ∧
    (∃ p, ∃ n, ∃ (s : State), portLive p s = true ∧ leadOf p s = p ∧ (portOf p s).fv = false ∧ (portOf p s).clock = true ∧ ((portOf p s).phase = .running ∨ (portOf p s).phase = .retrain) ∧ portSeam p s = some n ∧ hasPair (portOf p s).newFaults pairCK = false ∧ s.pwr.entering = false ∧ p < s.cap.ports.length ∧ n < s.cap.seams.length) :=
  ⟨⟨at0 .ready .integrated [], by decide +kernel⟩,
   ⟨0, 0, { run .integrated [(F.SP_PORT_ENABLE, 0, 1), (F.SEAM_SRC_ENABLE, 0, 1)] with cap := { ports := List.replicate 4 { clock := true, phase := .running } } }, by decide +kernel⟩⟩

/-- A started role with one ready unit on seam 0. -/
def pipeState : State :=
  { run .integrated [(F.SEAM_SRC_ENABLE, 0, 1), (F.SEAM_GEOM_HEIGHT, 0, 64), (F.SEAM_GEOM_FPS_NUM, 0, 60), (F.SEAM_GEOM_FPS_DEN, 0, 1)] with cap := { seams := { frames := [{ header := { num := 7 }, index := 0, arrival := 0, deadline := 50, bound := [], gains := [], lines := List.replicate 64 [], whole := true, claimed := 1, started := [], finished := [], dropped := false }] } :: List.replicate 7 {} } }

/-- The hypotheses of each clause of Obligations.PipelineScheduler, met together. -/
theorem wit_PipelineScheduler :
    (∃ (s : State), blkOn .frontHead s = true ∧ s.cap.pipe = none ∧ (∀ n < 8, readyUnits n s = [])) ∧
    (∃ (s : State), ∃ (d : Nat), ∃ (n : Nat), ∃ (num : Nat), ∃ (k : Nat), blkOn .frontHead s = true ∧ s.cap.pipe = none ∧ n < 8 ∧ (d, n, num, k) ∈ readyUnits n s ∧ (∀ m < 8, ∀ x ∈ readyUnits m s, x = (d, n, num, k) ∨ keyLt (d, n, num, k) x = true)) ∧
    (∃ (s : State), s.cap.pipe.isSome = true) :=
  ⟨⟨run .integrated [], by decide +kernel⟩,
   ⟨pipeState, 50, 0, 7, 0, by decide +kernel⟩,
   ⟨{ run .integrated [] with cap := { pipe := some ⟨0, 7, 0⟩ } }, by decide +kernel⟩⟩

/-- The hypotheses of each clause of Obligations.PipelineAndTimers, met together. -/
theorem wit_PipelineAndTimers :
    (∃ (u : PipeUnit), ∃ (f : SeamFrame), ∃ (s : State), s.cap.pipe = some u ∧ u.seam < s.cap.seams.length ∧ ((seamOf u.seam s).frames.find? (fun g => g.header.num == u.frame) = some f) ∧ f.dropped = false ∧ unitCount s.dev.role s.cfg.accepted u.seam ≤ ({ f with finished := f.finished ++ [u.stripe] }).finished.length) ∧
    (∃ (u : PipeUnit), ∃ (f : SeamFrame), ∃ (s : State), s.cap.pipe = some u ∧ u.seam < s.cap.seams.length ∧ ((seamOf u.seam s).frames.find? (fun g => g.header.num == u.frame) = some f) ∧ f.dropped = false ∧ ({ f with finished := f.finished ++ [u.stripe] }).finished.length < unitCount s.dev.role s.cfg.accepted u.seam) ∧
    (∃ (u : PipeUnit), ∃ (f : SeamFrame), ∃ (s : State), s.cap.pipe = some u ∧ u.seam < s.cap.seams.length ∧ ((seamOf u.seam s).frames.find? (fun g => g.header.num == u.frame) = some f) ∧ f.dropped = true ∧ f.started.length = ({ f with finished := f.finished ++ [u.stripe] }).finished.length) ∧
    (∃ (u : PipeUnit), ∃ (f : SeamFrame), ∃ (s : State), s.cap.pipe = some u ∧ u.seam < s.cap.seams.length ∧ ((seamOf u.seam s).frames.find? (fun g => g.header.num == u.frame) = some f) ∧ f.dropped = true ∧ f.started.length ≠ ({ f with finished := f.finished ++ [u.stripe] }).finished.length) ∧
    (∃ (s : State), s.cap.pipe = none) ∧
    (∃ (f : SeamFrame), ∃ (s : State), nowNs s ≤ f.deadline) ∧
    (∃ n, ∃ (f : SeamFrame), ∃ (s : State), f.deadline < nowNs s ∧ n < s.cap.seams.length) ∧
    (∃ n, ∃ (s : State), blkOn .ingest s = true ∧ seamActive s.cfg.accepted n = true ∧ (seamOf n s).seen = true ∧ (seamOf n s).absent = false ∧ (seamOf n s).lastArrival + 4 * periodNs (seamOf n s).committed n ≤ nowNs s) ∧
    (∃ n, ∃ (s : State), (seamOf n s).absent = true) ∧
    (∃ n, ∃ (s : State), loopsRun n s = true ∧ cfgN F.LOOP_AE_LOCK n s = 2 ∧ (loopOf n s).silent = false ∧ (loopOf n s).lockAt * 5 + 32 * loopPeriod n s * 4 ≤ s.dev.elapsed * 5) ∧
    (∃ n, ∃ (s : State), n < s.cap.adits.length) ∧
    (∃ n, ∃ (e : ExpSched), ∃ (gap : Nat), ∃ i, ∃ (s : State), e = s.time.exp.getD n {} ∧ rebaseDue n s = true ∧ gap = max e.lastPeriod (framePeriodNs n s) * 65536 ∧ i = firstPoint n ((match e.last with | some l => l + gap | none => (nowUnits s : Int)) - portDelay (cfgN F.SEAM_SRC_SRC_INDEX n s % 4) s) s) ∧
    (∃ n, ∃ (s : State), rebaseDue n s = false) :=
  ⟨⟨⟨0, 7, 0⟩, { (default : SeamFrame) with header := { num := 7 }, started := [0] }, { run .integrated [(F.SEAM_SRC_ENABLE, 0, 1), (F.SEAM_GEOM_HEIGHT, 0, 16), (F.SEAM_SCHED_MODE, 0, 1), (F.SEAM_SCHED_STRIPE_LINES, 0, 1)] with cap := { pipe := some ⟨0, 7, 0⟩, seams := { frames := [{ (default : SeamFrame) with header := { num := 7 }, started := [0] }] } :: List.replicate 7 {} } }, by decide +kernel⟩,
   ⟨⟨0, 7, 0⟩, { (default : SeamFrame) with header := { num := 7 }, started := [0] }, { run .integrated [(F.SEAM_SRC_ENABLE, 0, 1), (F.SEAM_GEOM_HEIGHT, 0, 640), (F.SEAM_SCHED_MODE, 0, 1), (F.SEAM_SCHED_STRIPE_LINES, 0, 1)] with cap := { pipe := some ⟨0, 7, 0⟩, seams := { frames := [{ (default : SeamFrame) with header := { num := 7 }, started := [0] }] } :: List.replicate 7 {} } }, by decide +kernel⟩,
   ⟨⟨0, 7, 0⟩, { (default : SeamFrame) with header := { num := 7 }, started := [0], dropped := true }, { run .integrated [(F.SEAM_SRC_ENABLE, 0, 1), (F.SEAM_GEOM_HEIGHT, 0, 640), (F.SEAM_SCHED_MODE, 0, 1), (F.SEAM_SCHED_STRIPE_LINES, 0, 1)] with cap := { pipe := some ⟨0, 7, 0⟩, seams := { frames := [{ (default : SeamFrame) with header := { num := 7 }, started := [0], dropped := true }] } :: List.replicate 7 {} } }, by decide +kernel⟩,
   ⟨⟨0, 7, 0⟩, { (default : SeamFrame) with header := { num := 7 }, started := [0], dropped := true, finished := [1] }, { run .integrated [(F.SEAM_SRC_ENABLE, 0, 1), (F.SEAM_GEOM_HEIGHT, 0, 640), (F.SEAM_SCHED_MODE, 0, 1), (F.SEAM_SCHED_STRIPE_LINES, 0, 1)] with cap := { pipe := some ⟨0, 7, 0⟩, seams := { frames := [{ (default : SeamFrame) with header := { num := 7 }, started := [0], dropped := true, finished := [1] }] } :: List.replicate 7 {} } }, by decide +kernel⟩,
   ⟨run .integrated [], by decide +kernel⟩,
   ⟨{ header := { num := 7 }, index := 0, arrival := 0, deadline := 50, bound := [], gains := [], lines := List.replicate 64 [], whole := true, claimed := 1, started := [], finished := [], dropped := false }, run .integrated [], by decide +kernel⟩,
   ⟨0, { header := { num := 7 }, index := 0, arrival := 0, deadline := 50, bound := [], gains := [], lines := List.replicate 64 [], whole := true, claimed := 1, started := [], finished := [], dropped := false }, { run .integrated [] with time := { sec := 1 } }, by decide +kernel⟩,
   ⟨0, { run .integrated [(F.SEAM_SRC_ENABLE, 0, 1)] with time := { sec := 1 }, cap := { seams := List.replicate 8 { seen := true, committed := words [(F.SEAM_GEOM_FPS_NUM, 0, 60), (F.SEAM_GEOM_FPS_DEN, 0, 1)] } } }, by decide +kernel⟩,
   ⟨0, { run .integrated [] with cap := { seams := List.replicate 8 { absent := true } } }, by decide +kernel⟩,
   ⟨0, { run .integrated [(F.SEAM_SRC_ENABLE, 0, 1), (F.SEAM_GEOM_HEIGHT, 0, 64), (F.SEAM_GEOM_FPS_NUM, 0, 60), (F.SEAM_GEOM_FPS_DEN, 0, 1), (F.LOOP_AE_LOCK, 0, 2)] with cap := { seams := List.replicate 8 { committed := words [(F.SEAM_GEOM_FPS_NUM, 0, 60), (F.SEAM_GEOM_FPS_DEN, 0, 1)] } }, dev := { state := .running, role := .integrated, powered := true, elapsed := 10000000000 } }, by decide +kernel⟩,
   ⟨3, run .integrated [], by decide +kernel⟩,
   ⟨0, { n := 1, armed := true, rate := (50, 1), last := some 0 }, max 0 (framePeriodNs 0 ({ run .integrated [(F.SP_PORT_ENABLE, 0, 1), (F.SEAM_SRC_ENABLE, 0, 1), (F.SP_TRIG_ENABLE, 0, 1), (F.SEAM_GEOM_FPS_NUM, 0, 60), (F.SEAM_GEOM_FPS_DEN, 0, 1)] with cap := { ports := List.replicate 4 { suppressed := false }, seams := List.replicate 8 { committed := words [(F.SP_TRIG_ENABLE, 0, 1), (F.SEAM_GEOM_FPS_NUM, 0, 60), (F.SEAM_GEOM_FPS_DEN, 0, 1)] } }, time := { running := true, sec := 1, exp := List.replicate 8 { n := 1, armed := true, rate := (50, 1), last := some 0 } } } : State)) * 65536, firstPoint 0 ((0 : Int) + max 0 (framePeriodNs 0 ({ run .integrated [(F.SP_PORT_ENABLE, 0, 1), (F.SEAM_SRC_ENABLE, 0, 1), (F.SP_TRIG_ENABLE, 0, 1), (F.SEAM_GEOM_FPS_NUM, 0, 60), (F.SEAM_GEOM_FPS_DEN, 0, 1)] with cap := { ports := List.replicate 4 { suppressed := false }, seams := List.replicate 8 { committed := words [(F.SP_TRIG_ENABLE, 0, 1), (F.SEAM_GEOM_FPS_NUM, 0, 60), (F.SEAM_GEOM_FPS_DEN, 0, 1)] } }, time := { running := true, sec := 1, exp := List.replicate 8 { n := 1, armed := true, rate := (50, 1), last := some 0 } } } : State)) * 65536 - portDelay 0 ({ run .integrated [(F.SP_PORT_ENABLE, 0, 1), (F.SEAM_SRC_ENABLE, 0, 1), (F.SP_TRIG_ENABLE, 0, 1), (F.SEAM_GEOM_FPS_NUM, 0, 60), (F.SEAM_GEOM_FPS_DEN, 0, 1)] with cap := { ports := List.replicate 4 { suppressed := false }, seams := List.replicate 8 { committed := words [(F.SP_TRIG_ENABLE, 0, 1), (F.SEAM_GEOM_FPS_NUM, 0, 60), (F.SEAM_GEOM_FPS_DEN, 0, 1)] } }, time := { running := true, sec := 1, exp := List.replicate 8 { n := 1, armed := true, rate := (50, 1), last := some 0 } } } : State)) ({ run .integrated [(F.SP_PORT_ENABLE, 0, 1), (F.SEAM_SRC_ENABLE, 0, 1), (F.SP_TRIG_ENABLE, 0, 1), (F.SEAM_GEOM_FPS_NUM, 0, 60), (F.SEAM_GEOM_FPS_DEN, 0, 1)] with cap := { ports := List.replicate 4 { suppressed := false }, seams := List.replicate 8 { committed := words [(F.SP_TRIG_ENABLE, 0, 1), (F.SEAM_GEOM_FPS_NUM, 0, 60), (F.SEAM_GEOM_FPS_DEN, 0, 1)] } }, time := { running := true, sec := 1, exp := List.replicate 8 { n := 1, armed := true, rate := (50, 1), last := some 0 } } } : State), { run .integrated [(F.SP_PORT_ENABLE, 0, 1), (F.SEAM_SRC_ENABLE, 0, 1), (F.SP_TRIG_ENABLE, 0, 1), (F.SEAM_GEOM_FPS_NUM, 0, 60), (F.SEAM_GEOM_FPS_DEN, 0, 1)] with cap := { ports := List.replicate 4 { suppressed := false }, seams := List.replicate 8 { committed := words [(F.SP_TRIG_ENABLE, 0, 1), (F.SEAM_GEOM_FPS_NUM, 0, 60), (F.SEAM_GEOM_FPS_DEN, 0, 1)] } }, time := { running := true, sec := 1, exp := List.replicate 8 { n := 1, armed := true, rate := (50, 1), last := some 0 } } }, by decide +kernel⟩,
   ⟨0, run .integrated [], by decide +kernel⟩⟩

/-- The hypotheses of each clause of Obligations.LoopDecisions, met together. -/
theorem wit_LoopDecisions :
    (∃ n, ∃ (s : State), loopsRun n s = false) ∧
    (∃ n, ∃ (b : StatBuf), ∃ (s : State), loopsRun n s = true ∧ nextStat n (loopOf n s).seenE s = some b ∧ (cfgN F.LOOP_AE_AE_MODE n s = 0 ∨ cfgN F.LOOP_AE_LOCK n s = 2 ∨ accepts n b.data (countStale n b.data (modLoop n (fun l => { l with seenE := b.order }) s)) = false)) ∧
    (∃ n, ∃ (b : StatBuf), ∃ (s : State), ∃ (a : List Nat), ∃ (z : Nat × Nat × Nat × Nat), loopsRun n s = true ∧ nextStat n (loopOf n s).seenE s = some b ∧ cfgN F.LOOP_AE_AE_MODE n s ≠ 0 ∧ cfgN F.LOOP_AE_LOCK n s ≠ 2 ∧ (accepts n b.data (countStale n b.data (modLoop n (fun l => { l with seenE := b.order }) s)) = true) ∧ (z = meterZones n b.data.zones (countStale n b.data (modLoop n (fun l => { l with seenE := b.order }) s))) ∧ (a = [(loopOf n (countStale n b.data (modLoop n (fun l => { l with seenE := b.order }) s))).acc.getD 0 0 + z.1, (loopOf n (countStale n b.data (modLoop n (fun l => { l with seenE := b.order }) s))).acc.getD 1 0 + z.2.1, (loopOf n (countStale n b.data (modLoop n (fun l => { l with seenE := b.order }) s))).acc.getD 2 0 + z.2.2.1, (loopOf n (countStale n b.data (modLoop n (fun l => { l with seenE := b.order }) s))).acc.getD 3 0 + z.2.2.2, (loopOf n (countStale n b.data (modLoop n (fun l => { l with seenE := b.order }) s))).acc.getD 4 0 + 1]) ∧ a.getD 4 0 ≤ cfgN F.LOOP_AE_AE_FRAMES n s) ∧
    (∃ n, ∃ (b : StatBuf), ∃ (s : State), ∃ (a : List Nat), ∃ (z : Nat × Nat × Nat × Nat), loopsRun n s = true ∧ nextStat n (loopOf n s).seenE s = some b ∧ cfgN F.LOOP_AE_AE_MODE n s ≠ 0 ∧ cfgN F.LOOP_AE_LOCK n s ≠ 2 ∧ (accepts n b.data (countStale n b.data (modLoop n (fun l => { l with seenE := b.order }) s)) = true) ∧ (z = meterZones n b.data.zones (countStale n b.data (modLoop n (fun l => { l with seenE := b.order }) s))) ∧ (a = [(loopOf n (countStale n b.data (modLoop n (fun l => { l with seenE := b.order }) s))).acc.getD 0 0 + z.1, (loopOf n (countStale n b.data (modLoop n (fun l => { l with seenE := b.order }) s))).acc.getD 1 0 + z.2.1, (loopOf n (countStale n b.data (modLoop n (fun l => { l with seenE := b.order }) s))).acc.getD 2 0 + z.2.2.1, (loopOf n (countStale n b.data (modLoop n (fun l => { l with seenE := b.order }) s))).acc.getD 3 0 + z.2.2.2, (loopOf n (countStale n b.data (modLoop n (fun l => { l with seenE := b.order }) s))).acc.getD 4 0 + 1]) ∧ cfgN F.LOOP_AE_AE_FRAMES n s < a.getD 4 0) ∧
    (∃ n, ∃ (b : StatBuf), ∃ (s : State), loopsRun n s = true ∧ nextStat n (loopOf n s).seenW s = some b ∧ (cfgN F.LOOP_AWB_AWB_MODE n s ≠ 1 ∨ cfgN F.LOOP_AE_LOCK n s = 2)) ∧
    (∃ n, ∃ (b : StatBuf), ∃ (s : State), loopsRun n s = true ∧ nextStat n (loopOf n s).seenW s = some b ∧ cfgN F.LOOP_AWB_AWB_MODE n s = 1 ∧ cfgN F.LOOP_AE_LOCK n s ≠ 2) ∧
    (∃ n, ∃ (d : StatData), ∃ (s : State), d.epoch = seamEpoch n s) ∧
    (∃ n, ∃ (d : StatData), ∃ (s : State), d.epoch ≠ seamEpoch n s) ∧
    (∃ (damp : Nat), damp ≤ 256) ∧
    (∃ (damp : Nat), damp ≤ 256) :=
  ⟨⟨0, run .integrated [], by decide +kernel⟩,
   ⟨0, { writeSeq := 1, order := 1, data := { num := 7, tag := 7 } }, { run .integrated [(F.SEAM_SRC_ENABLE, 0, 1), (F.SEAM_GEOM_HEIGHT, 0, 64), (F.SEAM_GEOM_FPS_NUM, 0, 60), (F.SEAM_GEOM_FPS_DEN, 0, 1), (F.LOOP_AE_AE_MODE, 0, 1), (F.LOOP_AE_AE_FRAMES, 0, 1), (F.LOOP_AWB_AWB_MODE, 0, 0)] with cap := { stats := List.replicate 8 { bufs := [{ writeSeq := 1, order := 1, data := { num := 7, tag := 7 } }] }, loops := List.replicate 8 { begun := true, tr := some 8 } } }, by decide +kernel⟩,
   ⟨0, { writeSeq := 1, order := 1, data := { num := 7, tag := 7 } }, { run .integrated [(F.SEAM_SRC_ENABLE, 0, 1), (F.SEAM_GEOM_HEIGHT, 0, 64), (F.SEAM_GEOM_FPS_NUM, 0, 60), (F.SEAM_GEOM_FPS_DEN, 0, 1), (F.LOOP_AE_AE_MODE, 0, 1), (F.LOOP_AE_AE_FRAMES, 0, 1), (F.LOOP_AWB_AWB_MODE, 0, 0)] with cap := { stats := List.replicate 8 { bufs := [{ writeSeq := 1, order := 1, data := { num := 7, tag := 7 } }] }, loops := List.replicate 8 { begun := true, tr := some 7 } } }, _, _, by decide +kernel, by decide +kernel, by decide +kernel, by decide +kernel, by decide +kernel, rfl, rfl, by decide +kernel⟩,
   ⟨0, { writeSeq := 1, order := 1, data := { num := 7, tag := 7 } }, { run .integrated [(F.SEAM_SRC_ENABLE, 0, 1), (F.SEAM_GEOM_HEIGHT, 0, 64), (F.SEAM_GEOM_FPS_NUM, 0, 60), (F.SEAM_GEOM_FPS_DEN, 0, 1), (F.LOOP_AE_AE_MODE, 0, 1), (F.LOOP_AE_AE_FRAMES, 0, 0), (F.LOOP_AWB_AWB_MODE, 0, 0)] with cap := { stats := List.replicate 8 { bufs := [{ writeSeq := 1, order := 1, data := { num := 7, tag := 7 } }] }, loops := List.replicate 8 { begun := true, tr := some 7 } } }, _, _, by decide +kernel, by decide +kernel, by decide +kernel, by decide +kernel, by decide +kernel, rfl, rfl, by decide +kernel⟩,
   ⟨0, { writeSeq := 1, order := 1, data := { num := 7, tag := 7 } }, { run .integrated [(F.SEAM_SRC_ENABLE, 0, 1), (F.SEAM_GEOM_HEIGHT, 0, 64), (F.SEAM_GEOM_FPS_NUM, 0, 60), (F.SEAM_GEOM_FPS_DEN, 0, 1), (F.LOOP_AE_AE_MODE, 0, 1), (F.LOOP_AE_AE_FRAMES, 0, 1), (F.LOOP_AWB_AWB_MODE, 0, 2)] with cap := { stats := List.replicate 8 { bufs := [{ writeSeq := 1, order := 1, data := { num := 7, tag := 7 } }] }, loops := List.replicate 8 { begun := true, tr := some 7 } } }, by decide +kernel⟩,
   ⟨0, { writeSeq := 1, order := 1, data := { num := 7, tag := 7 } }, { run .integrated [(F.SEAM_SRC_ENABLE, 0, 1), (F.SEAM_GEOM_HEIGHT, 0, 64), (F.SEAM_GEOM_FPS_NUM, 0, 60), (F.SEAM_GEOM_FPS_DEN, 0, 1), (F.LOOP_AE_AE_MODE, 0, 1), (F.LOOP_AE_AE_FRAMES, 0, 1), (F.LOOP_AWB_AWB_MODE, 0, 1)] with cap := { stats := List.replicate 8 { bufs := [{ writeSeq := 1, order := 1, data := { num := 7, tag := 7 } }] }, loops := List.replicate 8 { begun := true, tr := some 7 } } }, by decide +kernel⟩,
   ⟨0, {}, run .integrated [], by decide +kernel⟩,
   ⟨0, { epoch := 9 }, run .integrated [], by decide +kernel⟩,
   ⟨256, by decide +kernel⟩,
   ⟨256, by decide +kernel⟩⟩

/-- A compressor job over 16 lines of 64 equal samples. -/
def jobG : CompJob := { (default : CompJob) with id := 5, plane := List.replicate 16 (List.replicate 64 7), b := 12, space := 4096 }

/-- A started role with that job and engine 0 idle or working on its block 0. -/
def compState (blk : Option (Nat × Nat)) (j : CompJob) : State :=
  { run .integrated [] with comp := { engines := [{ blk := blk }, {}], queue := [j] } }

/-- A job of two lines of 32 samples. -/
def jobS : CompJob := { jobG with plane := List.replicate 2 (List.replicate 32 7) }

/-- A job that its descriptor admits: 64 lines of 128 samples. -/
def jobV : CompJob := { jobG with plane := List.replicate 64 (List.replicate 128 7) }

/-- The hypotheses of each clause of Obligations.CompressorBlocks, met together. -/
theorem wit_CompressorBlocks :
    (∃ e, ∃ (j : CompJob), ∃ (s : State), compOn s = true ∧ (s.comp.engines.findIdx? (fun x => !x.out && x.blk.isNone) = some e) ∧ (s.comp.queue.find? (fun q => !descOk q || !q.again.isEmpty || decide (q.next < jobBlocks q)) = some j) ∧ descOk j = true ∧ j.again = []) ∧
    (∃ e, ∃ (j : CompJob), ∃ (s : State), ∃ i, ∃ (l : List Nat), compOn s = true ∧ (s.comp.engines.findIdx? (fun x => !x.out && x.blk.isNone) = some e) ∧ (s.comp.queue.find? (fun q => !descOk q || !q.again.isEmpty || decide (q.next < jobBlocks q)) = some j) ∧ descOk j = true ∧ j.again = i :: l) ∧
    (∃ e, ∃ (j : CompJob), ∃ (s : State), compOn s = true ∧ (s.comp.engines.findIdx? (fun x => !x.out && x.blk.isNone) = some e) ∧ (s.comp.queue.find? (fun q => !descOk q || !q.again.isEmpty || decide (q.next < jobBlocks q)) = some j) ∧ descOk j = false) ∧
    (∃ (s : State), (s.comp.engines.findIdx? (fun x => !x.out && x.blk.isNone) = none)) ∧
    (∃ i, ∃ (blk : Plane), ∃ (faults : List (List Nat)), (verdict i blk faults).1 ≠ .rawMismatchTwice) ∧
    (∃ i, ∃ (blk : Plane), ∃ (faults : List (List Nat)), verifyBlock i blk (flipBits (faults.getD 0 []) (encodeBlock i blk)) = true) ∧
    (∃ e, ∃ i, ∃ (j : CompJob), ∃ (faults : List (List Nat)), ∃ (v : VerifyResult × List Byte), ∃ (long : Bool), ∃ (s : State), (s.comp.engines.getD e {}).blk = some (j.id, i) ∧ (s.comp.queue.find? (fun q => q.id == j.id) = some j) ∧ v = verdict (jobInfo j i) (blockOf (planeW j.plane) j.plane.length j.plane i) faults ∧ long = tooLong (jobInfo j i) (blockOf (planeW j.plane) j.plane.length j.plane i) ∧ v.1 = .match_) ∧
    (∃ e, ∃ i, ∃ (j : CompJob), ∃ (faults : List (List Nat)), ∃ (v : VerifyResult × List Byte), ∃ (long : Bool), ∃ (s : State), (s.comp.engines.getD e {}).blk = some (j.id, i) ∧ (s.comp.queue.find? (fun q => q.id == j.id) = some j) ∧ v = verdict (jobInfo j i) (blockOf (planeW j.plane) j.plane.length j.plane i) faults ∧ long = tooLong (jobInfo j i) (blockOf (planeW j.plane) j.plane.length j.plane i) ∧ v.1 = .codedMismatch) ∧
    (∃ e, ∃ i, ∃ (j : CompJob), ∃ (faults : List (List Nat)), ∃ (v : VerifyResult × List Byte), ∃ (long : Bool), ∃ (s : State), (s.comp.engines.getD e {}).blk = some (j.id, i) ∧ (s.comp.queue.find? (fun q => q.id == j.id) = some j) ∧ v = verdict (jobInfo j i) (blockOf (planeW j.plane) j.plane.length j.plane i) faults ∧ long = tooLong (jobInfo j i) (blockOf (planeW j.plane) j.plane.length j.plane i) ∧ v.1 = .rawMismatchTwice ∧ e < s.comp.engines.length ∧ ((∃ k, k ≠ e ∧ k < s.comp.engines.length ∧ (s.comp.engines.getD k {}).out = false))) ∧
    (∃ e, ∃ i, ∃ (j : CompJob), ∃ (faults : List (List Nat)), ∃ (v : VerifyResult × List Byte), ∃ (long : Bool), ∃ (s : State), (s.comp.engines.getD e {}).blk = some (j.id, i) ∧ (s.comp.queue.find? (fun q => q.id == j.id) = some j) ∧ v = verdict (jobInfo j i) (blockOf (planeW j.plane) j.plane.length j.plane i) faults ∧ long = tooLong (jobInfo j i) (blockOf (planeW j.plane) j.plane.length j.plane i) ∧ v.1 = .rawMismatchTwice ∧ ((∀ k, k ≠ e → k < s.comp.engines.length → (s.comp.engines.getD k {}).out = true))) ∧
    (∃ e, ∃ (s : State), (s.comp.engines.getD e {}).blk = none) ∧
    (∃ id, ∃ (j : CompJob), ∃ (s : State), (s.comp.queue.find? (fun q => q.id == id) = some j) ∧ j.writes ≠ jobBlocks j ∧ j.ready.lookup j.writes = none) ∧
    (∃ id, ∃ (j : CompJob), ∃ (s : State), ∃ (b : List Byte), (s.comp.queue.find? (fun q => q.id == id) = some j) ∧ j.writes ≠ jobBlocks j ∧ j.ready.lookup j.writes = some b ∧ j.space < j.output.length + b.length) ∧
    (∃ id, ∃ (j : CompJob), ∃ (s : State), ∃ (b : List Byte), (s.comp.queue.find? (fun q => q.id == id) = some j) ∧ j.writes ≠ jobBlocks j ∧ j.ready.lookup j.writes = some b ∧ j.output.length + b.length ≤ j.space) :=
  ⟨⟨0, jobV, compState none jobV, by decide +kernel⟩,
   ⟨0, { jobV with again := [0] }, compState none { jobV with again := [0] }, 0, [], by decide +kernel⟩,
   ⟨0, { jobV with b := 9 }, compState none { jobV with b := 9 }, by decide +kernel⟩,
   ⟨{ run .integrated [] with comp := { engines := [{ out := true }, { out := true }] } }, by decide +kernel⟩,
   ⟨jobInfo jobS 0, blockOf 32 2 jobS.plane 0, [[0]], by decide +kernel⟩,
   ⟨jobInfo jobS 0, blockOf 32 2 jobS.plane 0, [], by decide +kernel⟩,
   ⟨0, 0, jobS, [], _, _, compState (some (5, 0)) jobS, by decide +kernel, by decide +kernel, rfl, rfl, by decide +kernel⟩,
   ⟨0, 0, jobS, [[0]], _, _, compState (some (5, 0)) jobS, by decide +kernel, by decide +kernel, rfl, rfl, by decide +kernel⟩,
   ⟨0, 0, jobS, [[0], [0], [0]], _, _, compState (some (5, 0)) jobS, by decide +kernel, by decide +kernel, rfl, rfl, by decide +kernel, by decide +kernel, ⟨1, by decide, by decide +kernel, by decide +kernel⟩⟩,
   ⟨0, 0, jobS, [[0], [0], [0]], _, _, { run .integrated [] with comp := { engines := [{ blk := some (5, 0) }, { out := true }], queue := [jobS] } }, by decide +kernel, by decide +kernel, rfl, rfl, by decide +kernel, fun k h1 h2 => (show ∀ k < 2, k ≠ 0 → (({ run .integrated [] with comp := { engines := [{ blk := some (5, 0) }, { out := true }], queue := [jobS] } } : State).comp.engines.getD k {}).out = true by decide +kernel) k h2 h1⟩,
   ⟨0, compState none jobG, by decide +kernel⟩,
   ⟨5, jobS, compState none jobS, by decide +kernel⟩,
   ⟨5, { jobS with ready := [(0, [1, 2])], space := 1 }, compState none { jobS with ready := [(0, [1, 2])], space := 1 }, [1, 2], by decide +kernel⟩,
   ⟨5, { jobS with ready := [(0, [1, 2])], space := 2 }, compState none { jobS with ready := [(0, [1, 2])], space := 2 }, [1, 2], by decide +kernel⟩⟩

/-- The hypotheses of each clause of Obligations.CodecUnits, met together. -/
theorem wit_CodecUnits :
    (∃ m, ∃ (s : State), (encOn m s = false ∨ (encOf m s).pic.isSome = true ∨ (encOf m s).input = none)) ∧
    (∃ m, ∃ (f : Nat), ∃ (pic : Picture), ∃ (u : State), ∃ (s : State), encOn m s = true ∧ (encOf m s).pic = none ∧ (encOf m s).input = some pic ∧ m < s.codec.enc.length ∧ u = trimRing m (loadRate m s) ∧ f = (match (encOf m u).lastIn with | none => cfgN F.CODEC_RC_CPB_BITS m s | some t => min (cfgN F.CODEC_RC_CPB_BITS m s) ((encOf m u).f + cfgN F.CODEC_STRM_MAX_BPS m s * (pic.pub - t) / 1000000000)) ∧ (encOf m u).ring.length + ceilDiv (min (8 * cfgN F.CODEC_RC_PIC_CAP_BYTES m s) f) 8 ≤ cfgN F.CODEC_STRM_RING_BYTES m s) ∧
    (∃ m, ∃ (f : Nat), ∃ (pic : Picture), ∃ (u : State), ∃ (s : State), encOn m s = true ∧ (encOf m s).pic = none ∧ (encOf m s).input = some pic ∧ m < s.codec.enc.length ∧ u = trimRing m (loadRate m s) ∧ f = (match (encOf m u).lastIn with | none => cfgN F.CODEC_RC_CPB_BITS m s | some t => min (cfgN F.CODEC_RC_CPB_BITS m s) ((encOf m u).f + cfgN F.CODEC_STRM_MAX_BPS m s * (pic.pub - t) / 1000000000)) ∧ cfgN F.CODEC_STRM_RING_BYTES m s < (encOf m u).ring.length + ceilDiv (min (8 * cfgN F.CODEC_RC_PIC_CAP_BYTES m s) f) 8) ∧
    (∃ (s : State), blkOn .codec s = true ∧ leastUnit (pixelUnits s) = none) ∧
    (∃ (s : State), blkOn .codec s = true ∧ leastUnit (entropyUnits s) = none) ∧
    (∃ (s : State), ∃ a, ∃ d, ∃ m, ∃ c, ∃ r, ∃ k, blkOn .codec s = true ∧ leastUnit (pixelUnits s) = some [a, d, m, c, r, k]) ∧
    (∃ (s : State), ∃ a, ∃ d, ∃ m, ∃ c, ∃ r, ∃ k, blkOn .codec s = true ∧ leastUnit (entropyUnits s) = some [a, d, m, c, r, k]) ∧
    (∃ m, ∃ n, ∃ (p : EncPic), ∃ (s : State), m < s.codec.enc.length ∧ (encOf m s).pic = some p ∧ n = min (p.cols - p.dealt) (encRoom s.codec) ∧ p.dealt + n < p.cols) ∧
    (∃ m, ∃ n, ∃ (p : EncPic), ∃ (s : State), m < s.codec.enc.length ∧ (encOf m s).pic = some p ∧ n = min (p.cols - p.dealt) (encRoom s.codec) ∧ p.cols ≤ p.dealt + n) ∧
    (∃ m, ∃ n, ∃ (a : DecAu), ∃ (s : State), m < s.codec.dec.length ∧ (decOf m s).au = some a ∧ n = min (max 1 a.cols - a.parsed % max 1 a.cols) (decRoom s.codec) ∧ a.parsed + n < a.rows * a.cols) ∧
    (∃ m, ∃ (s : State), (auDue m s = false ∨ (decOf m s).au.isSome = true ∨ decOn m s = false ∨ firstAu (decOf m s).input (decOf m s).ended = none)) ∧
    (∃ m, ∃ (s : State), ∃ (l : List Byte), ∃ k, decOn m s = true ∧ auDue m s = true ∧ (decOf m s).au = none ∧ firstAu (decOf m s).input (decOf m s).ended = some l ∧ (decOf m s).input.length = k + 1) ∧
    (∃ m, ∃ t0, ∃ (s : State), (decOf m s).t0 = some t0 ∧ decOn m s = true ∧ (decOf m s).au = none ∧ firstAu (decOf m s).input (decOf m s).ended = none ∧ decodeTimeOf m t0 ((decOf m s).n + F.CODEC_PIC_DEC_TIMEOUT.get m (decOf m s).bound) s ≤ todUnits (nowTod s) ∧ presentAu (decOf m s).input = []) ∧
    (∃ m, ∃ t0, ∃ (s : State), (decOf m s).t0 = some t0 ∧ decOn m s = true ∧ (decOf m s).au = none ∧ firstAu (decOf m s).input (decOf m s).ended = none ∧ decodeTimeOf m t0 ((decOf m s).n + F.CODEC_PIC_DEC_TIMEOUT.get m (decOf m s).bound) s ≤ todUnits (nowTod s) ∧ presentAu (decOf m s).input ≠ []) ∧
    (∃ m, ∃ i, ∃ (p : DecPic), ∃ (s : State), decOn m s = true ∧ (bumpDue (decOf m s) = true ∨ decDrained (decOf m s) = true) ∧ m < s.codec.dec.length ∧ bumpPlace (decOf m s).dpb = some i ∧ (decOf m s).dpb[i]? = some p ∧ ((claimOut (decOf m (modDec m (fun y => { y with dpb := dropUnused (modAt (decOf m s).dpb i fun q => { q with needed := false }) }) s)).out).2 = false)) ∧
    (∃ i, ∃ l, bumpPlace l = some i) ∧
    (∃ m, ∃ (s : State), (decOn m s = false ∨ (bumpDue (decOf m s) = false ∧ decDrained (decOf m s) = false))) :=
  ⟨⟨3, run .integrated [], by decide +kernel⟩,
   ⟨3, _, {}, _, { run .integrated [(F.CODEC_STRM_ENABLE, 3, 1), (F.CODEC_STRM_RING_BYTES, 3, 100), (F.CODEC_RC_PIC_CAP_BYTES, 3, 100), (F.CODEC_RC_CPB_BITS, 3, 8000)] with codec := { enc := List.replicate 8 { input := some {} } } }, by decide +kernel, by decide +kernel, by decide +kernel, by decide +kernel, rfl, rfl, by decide +kernel⟩,
   ⟨3, _, {}, _, { run .integrated [(F.CODEC_STRM_ENABLE, 3, 1), (F.CODEC_STRM_RING_BYTES, 3, 99), (F.CODEC_RC_PIC_CAP_BYTES, 3, 100), (F.CODEC_RC_CPB_BITS, 3, 8000)] with codec := { enc := List.replicate 8 { input := some {} } } }, by decide +kernel, by decide +kernel, by decide +kernel, by decide +kernel, rfl, rfl, by decide +kernel⟩,
   ⟨run .integrated [], by decide +kernel⟩,
   ⟨run .integrated [], by decide +kernel⟩,
   ⟨{ run .integrated [(F.CODEC_STRM_ENABLE, 3, 1)] with codec := { enc := List.replicate 8 { pic := some { (default : EncPic) with rows := 4, deadline := 9 } } } }, 0, 9, 3, 0, 0, 0, by decide +kernel⟩,
   ⟨{ run .integrated [(F.CODEC_STRM_ENABLE, 3, 1), (F.CODEC_STRM_DIR, 3, 1)] with codec := { dec := List.replicate 8 { au := some { (default : DecAu) with rows := 4, cols := 4, deadline := 9 } } } }, 0, 9, 3, 0, 0, 1, by decide +kernel⟩,
   ⟨3, 192, { (default : EncPic) with cols := 300, rows := 4, deadline := 9 }, { run .integrated [(F.CODEC_STRM_ENABLE, 3, 1)] with codec := { enc := List.replicate 8 { pic := some { (default : EncPic) with cols := 300, rows := 4, deadline := 9 } } } }, by decide +kernel⟩,
   ⟨3, 4, { (default : EncPic) with cols := 4, rows := 4, deadline := 9 }, { run .integrated [(F.CODEC_STRM_ENABLE, 3, 1)] with codec := { enc := List.replicate 8 { pic := some { (default : EncPic) with cols := 4, rows := 4, deadline := 9 } } } }, by decide +kernel⟩,
   ⟨3, 4, { (default : DecAu) with rows := 4, cols := 4, deadline := 9 }, { run .integrated [(F.CODEC_STRM_ENABLE, 3, 1), (F.CODEC_STRM_DIR, 3, 1)] with codec := { dec := List.replicate 8 { au := some { (default : DecAu) with rows := 4, cols := 4, deadline := 9 } } } }, by decide +kernel⟩,
   ⟨3, run .integrated [], by decide +kernel⟩,
   ⟨3, { run .integrated [(F.CODEC_STRM_ENABLE, 3, 1), (F.CODEC_STRM_DIR, 3, 1), (F.CODEC_PIC_DEC_FPS_NUM, 3, 60), (F.CODEC_PIC_DEC_FPS_DEN, 3, 1)] with codec := { dec := List.replicate 8 { t0 := some 0, ended := true, input := [0, 0, 1, 2, 3] } }, time := { sec := 5 } }, [0, 0, 1, 2, 3], 4, by decide +kernel⟩,
   ⟨3, 0, { run .integrated [(F.CODEC_STRM_ENABLE, 3, 1), (F.CODEC_STRM_DIR, 3, 1), (F.CODEC_PIC_DEC_FPS_NUM, 3, 60), (F.CODEC_PIC_DEC_FPS_DEN, 3, 1)] with codec := { dec := List.replicate 8 { t0 := some 0 } }, time := { sec := 5 } }, by decide +kernel⟩,
   ⟨3, 0, { run .integrated [(F.CODEC_STRM_ENABLE, 3, 1), (F.CODEC_STRM_DIR, 3, 1), (F.CODEC_PIC_DEC_FPS_NUM, 3, 60), (F.CODEC_PIC_DEC_FPS_DEN, 3, 1)] with codec := { dec := List.replicate 8 { t0 := some 0, input := [0, 0, 1, 2, 3] } }, time := { sec := 5 } }, by decide +kernel⟩,
   ⟨3, 1, { (default : DecPic) with needed := true, poc := 4 }, { run .integrated [(F.CODEC_STRM_ENABLE, 3, 1), (F.CODEC_STRM_DIR, 3, 1)] with codec := { dec := List.replicate 8 { dpb := [{ (default : DecPic) with needed := true, poc := 5 }, { (default : DecPic) with needed := true, poc := 4 }] } } }, by decide +kernel⟩,
   ⟨1, [{ (default : DecPic) with needed := true, poc := 5 }, { (default : DecPic) with needed := true, poc := 4 }], by decide +kernel⟩,
   ⟨3, run .integrated [], by decide +kernel⟩⟩

/-- The hypotheses of each clause of Obligations.RecorderUnits, met together. -/
theorem wit_RecorderUnits :
    (∃ (s : State), recOn s = false) ∧
    (∃ j, ∃ (s : State), recOn s = true ∧ s.rcd.clip = none ∧ hashing j (dealUnits s) = false) ∧
    (∃ j, ∃ (u : RecUnit), ∃ (rest : List RecUnit), ∃ (s : State), recOn s = true ∧ redOn s = false ∧ (recStream j s).ready = u :: rest ∧ hashing j (dealUnits s) = true ∧ s.rcd.clip = none ∧ j < s.rcd.streams.length) ∧
    (∃ j, ∃ (u : RecUnit), ∃ (rest : List RecUnit), ∃ (c : Clip), ∃ (s : State), recOn s = true ∧ redOn s = false ∧ (recStream j s).ready = u :: rest ∧ hashing j (dealUnits s) = true ∧ s.rcd.clip = some c ∧ c.ending = none ∧ (inClip c j u (modRecStream j (fun x => { x with ready := rest }) (dealUnits s)) = true) ∧ ((cfgN F.REC_KIND j s ≠ 1 ∨ u.idr = true ∨ (recStream j (modRecStream j (fun x => { x with ready := rest }) (dealUnits s))).open_ = true))) ∧
    (∃ j, ∃ (u : RecUnit), ∃ (rest : List RecUnit), ∃ (c : Clip), ∃ (s : State), recOn s = true ∧ redOn s = false ∧ (recStream j s).ready = u :: rest ∧ hashing j (dealUnits s) = true ∧ s.rcd.clip = some c ∧ (c.ending.isSome = true ∨ inClip c j u (modRecStream j (fun x => { x with ready := rest }) (dealUnits s)) = false)) ∧
    (∃ (s : State), recOn s = true ∧ s.rcd.volume = 2 ∧ s.rcd.clip = none ∧ s.rcd.phase ≠ .idle) ∧
    (∃ (s : State), recOn s = true ∧ s.rcd.volume = 2 ∧ s.rcd.clip = none ∧ s.rcd.phase = .idle ∧ s.rcd.members ≠ [] ∧ membersOk s = true) ∧
    (∃ (s : State), recOn s = false) ∧
    (∃ m, ∃ (l : List (Nat × Nat)), ∃ (s : State), ∃ id, ∃ k, recOn s = true ∧ (l = s.rcd.members.flatMap (fun k => ((ssdOf k s).cmds.filter fun c => isPlayRead m c.op && ssdIssued (ssdOf k s) c).map fun c => (c.id, k))) ∧ (l.find? (fun p => l.all fun q => decide (p.1 ≤ q.1)) = some (id, k))) ∧
    (∃ m, ∃ (l : List (Nat × Nat)), ∃ (s : State), recOn s = true ∧ (l = s.rcd.members.flatMap (fun k => ((ssdOf k s).cmds.filter fun c => isPlayRead m c.op && ssdIssued (ssdOf k s) c).map fun c => (c.id, k))) ∧ l = []) ∧
    (∃ m, ∃ (l : List (Nat × Nat)), ∃ (s : State), recOn s = true ∧ (l = s.rcd.members.flatMap (fun k => ((ssdOf k s).cmds.filter fun c => isPlayRead m c.op && ssdIssued (ssdOf k s) c).map fun c => (c.id, k))) ∧ l = [] ∧ (s.rcd.plays.getD m {}).state ≠ 1) ∧
    (∃ (s : State), recOn s = false) ∧
    (∃ m, ∃ (b : List Byte), ∃ (p : Playback), ∃ (s : State), s.rcd.plays.getD m {} = p ∧ p.state = 1 ∧ p.buf = some b ∧ (p.pieces ≠ [] ∨ 1 < p.left)) ∧
    (∃ m, ∃ (b : List Byte), ∃ (p : Playback), ∃ (s : State), s.rcd.plays.getD m {} = p ∧ p.state = 1 ∧ p.buf = some b ∧ p.pieces = [] ∧ p.left ≤ 1) ∧
    (∃ m, ∃ (p : Playback), ∃ (s : State), s.rcd.plays.getD m {} = p ∧ p.state = 1 ∧ p.pieces = [] ∧ p.buf = none ∧ p.at_ < p.entries ∧ cfgN F.CODEC_STRM_RING_BYTES m s < (decOf m s).input.length + fieldAt (tableEntry p.table p.at_ s) 0x18 4) :=
  ⟨⟨run .integrated [], by decide +kernel⟩,
   ⟨3, { run .integrated [(F.REC_VOL_ENABLE, 0, 1)] with rcd := { volume := 0 } }, by decide +kernel⟩,
   ⟨3, { (default : RecUnit) with num := 7, idr := true, bytes := [1] }, [], { run .integrated [(F.REC_VOL_ENABLE, 0, 1)] with rcd := { streams := List.replicate 8 { ready := [{ (default : RecUnit) with num := 7, idr := true, bytes := [1] }] } } }, by decide +kernel⟩,
   ⟨3, { (default : RecUnit) with num := 7, idr := true, bytes := [1] }, [], { (default : Clip) with num := 4 }, { run .integrated [(F.REC_VOL_ENABLE, 0, 1)] with rcd := { streams := List.replicate 8 { ready := [{ (default : RecUnit) with num := 7, idr := true, bytes := [1] }] }, clip := some { (default : Clip) with num := 4 } } }, by decide +kernel⟩,
   ⟨3, { (default : RecUnit) with num := 7, idr := true, bytes := [1] }, [], { (default : Clip) with num := 4, ending := some true }, { run .integrated [(F.REC_VOL_ENABLE, 0, 1)] with rcd := { streams := List.replicate 8 { ready := [{ (default : RecUnit) with num := 7, idr := true, bytes := [1] }] }, clip := some { (default : Clip) with num := 4, ending := some true } } }, by decide +kernel⟩,
   ⟨{ run .integrated [(F.REC_VOL_ENABLE, 0, 1)] with rcd := { volume := 2, phase := .flushing } }, by decide +kernel⟩,
   ⟨{ run .integrated [(F.REC_VOL_ENABLE, 0, 1)] with rcd := { volume := 2, members := [0] } }, by decide +kernel⟩,
   ⟨run .integrated [], by decide +kernel⟩,
   ⟨3, _, { run .integrated [(F.REC_VOL_ENABLE, 0, 1)] with rcd := { members := [0], ssds := List.replicate 4 { cmds := [{ id := 5, queue := 1, op := .playRead 3 0 0 4096, since := 0 }] } } }, 5, 0, by decide +kernel, rfl, by decide +kernel⟩,
   ⟨3, _, { run .integrated [(F.REC_VOL_ENABLE, 0, 1)] with rcd := { members := [0] } }, by decide +kernel, rfl, by decide +kernel⟩,
   ⟨3, _, { run .integrated [(F.REC_VOL_ENABLE, 0, 1)] with rcd := { members := [0] } }, by decide +kernel, rfl, by decide +kernel⟩,
   ⟨run .integrated [], by decide +kernel⟩,
   ⟨3, [1], { state := 1, buf := some [1], left := 2 }, { run .integrated [(F.REC_VOL_ENABLE, 0, 1)] with rcd := { plays := List.replicate 8 { state := 1, buf := some [1], left := 2 } } }, by decide +kernel⟩,
   ⟨3, [1], { state := 1, buf := some [1], left := 1 }, { run .integrated [(F.REC_VOL_ENABLE, 0, 1)] with rcd := { plays := List.replicate 8 { state := 1, buf := some [1], left := 1 } } }, by decide +kernel⟩,
   ⟨3, { state := 1, entries := 1, table := [0] }, { run .integrated [(F.CODEC_STRM_ENABLE, 3, 1), (F.CODEC_STRM_DIR, 3, 1), (F.CODEC_STRM_RING_BYTES, 3, 65536)] with rcd := { members := [0], granule := 1, map := [(0, ⟨2, 0, 9, noGran, 5⟩)], plays := List.replicate 8 { state := 1, entries := 1, table := [0] }, ssds := [{ media := { slots := [(9, List.replicate 24 0 ++ leBytes 4 70000 ++ List.replicate 4 0)] } }, {}, {}, {}] } }, by decide +kernel⟩⟩

/-- The hypotheses of each clause of Obligations.SsdCommands, met together. -/
theorem wit_SsdCommands :
    (∃ k, ∃ id, ∃ (c : SsdCmd), ∃ (s : State), ∃ (x : SsdCmd), ((ssdOf k s).cmds.find? (fun c => c.id == id) = some c) ∧ ssdIssued (ssdOf k s) c = true ∧ k < s.rcd.ssds.length ∧ (x ∈ (ssdOf k (modSsd k (fun d => { d with cmds := d.cmds.filter fun x => x.id != id }) s)).cmds)) ∧
    (∃ k, ∃ id, ∃ (s : State), ((∀ c ∈ (ssdOf k s).cmds, c.id = id → ssdIssued (ssdOf k s) c = false))) ∧
    (∃ k, ∃ id, ∃ (s : State), k < s.rcd.ssds.length ∧ ((∃ c ∈ (ssdOf k s).cmds, c.id = id ∧ c.phase = 0 ∧ ssdIssued (ssdOf k s) c = true)) ∧ (ssdOf k s).failed = false) ∧
    (∃ k, ∃ id, ∃ (s : State), k < s.rcd.ssds.length ∧ ((∀ c ∈ (ssdOf k s).cmds, c.id = id → c.phase ≠ 0 ∨ ssdIssued (ssdOf k s) c = false))) ∧
    (∃ k, ∃ id, ∃ (s : State), k < s.rcd.ssds.length ∧ ((∃ c ∈ (ssdOf k s).cmds, c.id = id ∧ c.phase = 1))) ∧
    (∃ k, ∃ id, ∃ (s : State), k < s.rcd.ssds.length ∧ ((∀ c ∈ (ssdOf k s).cmds, c.id ≠ id ∨ c.phase ≠ 1))) ∧
    (∃ k, ∃ (s : State), k < s.rcd.ssds.length ∧ ((∃ c ∈ (ssdOf k s).cmds, c.phase = 2))) ∧
    (∃ k, ∃ (s : State), k < s.rcd.ssds.length ∧ ((∀ c ∈ (ssdOf k s).cmds, c.phase ≠ 2))) :=
  ⟨⟨1, 5, ⟨5, 1, .flush, 0, 0⟩, { run .integrated [] with rcd := { ssds := List.replicate 4 { cmds := [⟨5, 1, .flush, 0, 0⟩, ⟨6, 1, .flush, 0, 0⟩] } } }, ⟨6, 1, .flush, 0, 0⟩, by decide +kernel⟩,
   ⟨1, 5, run .integrated [], by decide +kernel⟩,
   ⟨1, 5, { run .integrated [] with rcd := { ssds := List.replicate 4 { cmds := [⟨5, 1, .flush, 0, 0⟩] } } }, by decide +kernel⟩,
   ⟨1, 5, { run .integrated [] with rcd := { ssds := List.replicate 4 { cmds := [⟨5, 1, .flush, 1, 0⟩] } } }, by decide +kernel⟩,
   ⟨1, 5, { run .integrated [] with rcd := { ssds := List.replicate 4 { cmds := [⟨5, 1, .flush, 1, 0⟩] } } }, by decide +kernel⟩,
   ⟨1, 5, { run .integrated [] with rcd := { ssds := List.replicate 4 { cmds := [⟨5, 1, .flush, 2, 0⟩] } } }, by decide +kernel⟩,
   ⟨1, { run .integrated [] with rcd := { ssds := List.replicate 4 { cmds := [⟨5, 1, .flush, 2, 0⟩] } } }, by decide +kernel⟩,
   ⟨1, { run .integrated [] with rcd := { ssds := List.replicate 4 { cmds := [⟨5, 1, .flush, 1, 0⟩] } } }, by decide +kernel⟩⟩

/-- The hypotheses of each clause of Obligations.ControllerAndQueues, met together. -/
theorem wit_ControllerAndQueues :
    (∃ a, ∃ c, ∃ (s : State), epOn s = true ∧ s.ep.linkUp = true ∧ s.ep.ready = false ∧ 2 ≤ a ∧ a ≤ 1024 ∧ 2 ≤ c ∧ c ≤ 1024) ∧
    (∃ (s : State), epOn s = true) ∧
    (∃ (s : State), epOn s = false) ∧
    (∃ (s : State), epReady s = true ∧ s.ep.shst = 0 ∧ s.ep.shutSent = false ∧ ((∃ c ∈ s.ep.cmds, c.sq ≠ 0 ∨ c.cmd.opc ≠ 0xC))) ∧
    (∃ (s : State), epReady s = true ∧ s.ep.shst = 0 ∧ s.ep.shutSent = false ∧ ((∀ c ∈ s.ep.cmds, c.sq = 0 ∧ c.cmd.opc = 0xC))) ∧
    (∃ qid, ∃ v, ∃ (q : SubQ), ∃ (s : State), epOn s = true ∧ s.ep.ready = true ∧ (s.ep.sqs.find? (fun q => q.id == qid) = some q) ∧ v < q.size) ∧
    (∃ qid, ∃ v, ∃ (q : SubQ), ∃ (s : State), epOn s = true ∧ s.ep.ready = true ∧ (s.ep.sqs.find? (fun q => q.id == qid) = some q) ∧ q.size ≤ v) ∧
    (∃ qid, ∃ (s : State), epOn s = true ∧ s.ep.ready = true ∧ (s.ep.cqs.find? (fun q => q.id == qid) = none)) ∧
    (∃ (q : SubQ), ∃ (c : NvmeCmd), ∃ (s : State), epReady s = true ∧ s.ep.shst = 0 ∧ s.ep.sqs = [q] ∧ q.id = 0 ∧ q.entries = [c] ∧ knownOpcode true c.opc = true ∧ c.opc ≠ 8 ∧ c.opc ≠ 0xC ∧ ((∀ d ∈ s.ep.cmds, d.sq ≠ 0 ∨ d.cmd.cid ≠ c.cid))) ∧
    (∃ (s : State), epReady s = false) ∧
    (∃ a, ∃ (c : HostCmd), ∃ (s : State), hostCmd a s = some c ∧ c.sq ≠ 0 ∧ lockWait c s = false) ∧
    (∃ a, ∃ (c : HostCmd), ∃ (s : State), hostCmd a s = some c ∧ c.sq ≠ 0 ∧ lockWait c s = true) ∧
    (∃ q, ∃ (c : CplQ), ∃ (s : State), (s.ep.cqs.find? (fun c => c.id == q) = some c) ∧ epReady s = true ∧ c.held ≠ []) ∧
    (∃ a, ∃ (c : HostCmd), ∃ (s : State), hostCmd a s = some c ∧ c.done = false ∧ epReady s = true ∧ s.ep.shst = 0) ∧
    (∃ qid, ∃ (q : CplQ), ∃ (s : State), (s.ep.cqs.find? (fun q => q.id == qid) = some q) ∧ q.held = [] ∧ q.posted.length + 1 < q.size) ∧
    (∃ qid, ∃ (q : CplQ), ∃ (s : State), (s.ep.cqs.find? (fun q => q.id == qid) = some q) ∧ q.size ≤ q.posted.length + 1) :=
  ⟨⟨32, 32, epS { linkUp := true }, by decide +kernel⟩,
   ⟨epS {  }, by decide +kernel⟩,
   ⟨run .integrated [], by decide +kernel⟩,
   ⟨epS { ready := true, cmds := [ioC 2 0] }, by decide +kernel⟩,
   ⟨epS { ready := true, cmds := [admC 0xC 0 0 0] }, by decide +kernel⟩,
   ⟨1, 4, ⟨1, 32, 1, 0, 0, []⟩, epS { ready := true, sqs := [⟨1, 32, 1, 0, 0, []⟩] }, by decide +kernel⟩,
   ⟨1, 32, ⟨1, 32, 1, 0, 0, []⟩, epS { ready := true, sqs := [⟨1, 32, 1, 0, 0, []⟩] }, by decide +kernel⟩,
   ⟨1, epS { ready := true }, by decide +kernel⟩,
   ⟨⟨0, 32, 0, 0, 0, [⟨6, 9, 1, 0, 1, 0, 0⟩]⟩, ⟨6, 9, 1, 0, 1, 0, 0⟩, epS { ready := true, sqs := [⟨0, 32, 0, 0, 0, [⟨6, 9, 1, 0, 1, 0, 0⟩]⟩] }, by decide +kernel⟩,
   ⟨run .integrated [], by decide +kernel⟩,
   ⟨7, ioC 2 0, epS { cmds := [ioC 2 0] }, by decide +kernel⟩,
   ⟨7, ioC 1 0, epS { cmds := [{ ioC 1 0 with arrival := 5 }, ioC 1 0] }, by decide +kernel⟩,
   ⟨1, ⟨1, 32, 1, true, 0, 0, true, [], [⟨7, 1, 0, 3, 0, 0, false, []⟩]⟩, epS { ready := true, cqs := [⟨1, 32, 1, true, 0, 0, true, [], [⟨7, 1, 0, 3, 0, 0, false, []⟩]⟩] }, by decide +kernel⟩,
   ⟨7, ioC 2 0, epS { ready := true, cmds := [ioC 2 0] }, by decide +kernel⟩,
   ⟨1, ⟨1, 32, 1, true, 0, 0, true, [], []⟩, epS { cqs := [⟨1, 32, 1, true, 0, 0, true, [], []⟩] }, by decide +kernel⟩,
   ⟨1, ⟨1, 2, 1, true, 0, 0, true, [⟨7, 1, 0, 3, 0, 0, false, []⟩], []⟩, epS { cqs := [⟨1, 2, 1, true, 0, 0, true, [⟨7, 1, 0, 3, 0, 0, false, []⟩], []⟩] }, by decide +kernel⟩⟩

/-- The hypotheses of each clause of Obligations.AdminCommands, met together. -/
theorem wit_AdminCommands :
    (∃ a, ∃ (s : State), ∃ (r : Instr), hostCmd a s = none ∧ r ∈ [Instr.createIoCq a, .createIoSq a, .deleteIoCq a, .deleteIoSq a, .identify a, .getLogPage a, .setFeatures a, .getFeatures a, .asynchronousEventRequest a, .abort a, .deviceSelfTest a]) ∧
    (∃ a, ∃ n, ∃ (c : HostCmd), ∃ (s : State), AdminCmd 5 a c s ∧ n = c.cmd.cdw10 % 65536 ∧ (n = 0 ∨ cfgN F.EP0_IOQ_MAX 0 s < n ∨ (∃ q ∈ s.ep.cqs, q.id = n))) ∧
    (∃ a, ∃ n, ∃ (c : HostCmd), ∃ (s : State), AdminCmd 5 a c s ∧ n = c.cmd.cdw10 % 65536 ∧ n ≠ 0 ∧ n ≤ cfgN F.EP0_IOQ_MAX 0 s ∧ ((∀ q ∈ s.ep.cqs, q.id ≠ n)) ∧ 1 ≤ c.cmd.cdw10 / 65536 ∧ c.cmd.cdw10 / 65536 ≤ cfgN F.EP0_MQES 0 s ∧ c.cmd.cdw11 % 2 = 1 ∧ c.cmd.prp1 % 4096 = 0 ∧ 16 < c.cmd.cdw11 / 65536) ∧
    (∃ a, ∃ n, ∃ (c : HostCmd), ∃ (s : State), AdminCmd 5 a c s ∧ n = c.cmd.cdw10 % 65536 ∧ n ≠ 0 ∧ n ≤ cfgN F.EP0_IOQ_MAX 0 s ∧ ((∀ q ∈ s.ep.cqs, q.id ≠ n)) ∧ 1 ≤ c.cmd.cdw10 / 65536 ∧ c.cmd.cdw10 / 65536 ≤ cfgN F.EP0_MQES 0 s ∧ c.cmd.cdw11 % 2 = 1 ∧ c.cmd.prp1 % 4096 = 0 ∧ c.cmd.cdw11 / 65536 ≤ 16) ∧
    (∃ a, ∃ n, ∃ k, ∃ (c : HostCmd), ∃ (s : State), AdminCmd 1 a c s ∧ n = c.cmd.cdw10 % 65536 ∧ k = c.cmd.cdw11 / 65536 ∧ n ≠ 0 ∧ n ≤ cfgN F.EP0_IOQ_MAX 0 s ∧ ((∀ q ∈ s.ep.sqs, q.id ≠ n)) ∧ 1 ≤ c.cmd.cdw10 / 65536 ∧ c.cmd.cdw10 / 65536 ≤ cfgN F.EP0_MQES 0 s ∧ c.cmd.cdw11 % 2 = 1 ∧ c.cmd.prp1 % 4096 = 0 ∧ k ≠ 0 ∧ ((∃ q ∈ s.ep.cqs, q.id = k))) ∧
    (∃ a, ∃ n, ∃ k, ∃ (c : HostCmd), ∃ (s : State), AdminCmd 1 a c s ∧ n = c.cmd.cdw10 % 65536 ∧ k = c.cmd.cdw11 / 65536 ∧ n ≠ 0 ∧ n ≤ cfgN F.EP0_IOQ_MAX 0 s ∧ ((∀ q ∈ s.ep.sqs, q.id ≠ n)) ∧ 1 ≤ c.cmd.cdw10 / 65536 ∧ c.cmd.cdw10 / 65536 ≤ cfgN F.EP0_MQES 0 s ∧ c.cmd.cdw11 % 2 = 1 ∧ c.cmd.prp1 % 4096 = 0 ∧ k ≠ 0 ∧ ((∀ q ∈ s.ep.cqs, q.id ≠ k))) ∧
    (∃ a, ∃ n, ∃ (c : HostCmd), ∃ (s : State), AdminCmd 4 a c s ∧ n = c.cmd.cdw10 % 65536 ∧ n ≠ 0 ∧ ((∃ q ∈ s.ep.cqs, q.id = n)) ∧ ((∃ q ∈ s.ep.sqs, q.cq = n))) ∧
    (∃ a, ∃ n, ∃ (c : HostCmd), ∃ (s : State), AdminCmd 4 a c s ∧ n = c.cmd.cdw10 % 65536 ∧ n ≠ 0 ∧ ((∃ q ∈ s.ep.cqs, q.id = n)) ∧ ((∀ q ∈ s.ep.sqs, q.cq ≠ n))) ∧
    (∃ a, ∃ n, ∃ (c : HostCmd), ∃ (s : State), AdminCmd 0 a c s ∧ n = c.cmd.cdw10 % 65536 ∧ n ≠ 0 ∧ ((∃ q ∈ s.ep.sqs, q.id = n)) ∧ ((∀ d ∈ s.ep.cmds, d.sq ≠ n))) ∧
    (∃ a, ∃ (c : HostCmd), ∃ (s : State), AdminCmd 6 a c s ∧ c.cmd.prp1 % 4 = 0 ∧ c.cmd.cdw10 % 256 = 0 ∧ c.cmd.nsid = 1) ∧
    (∃ a, ∃ (c : HostCmd), ∃ (s : State), AdminCmd 6 a c s ∧ c.cmd.prp1 % 4 = 0 ∧ c.cmd.cdw10 % 256 = 1) ∧
    (∃ a, ∃ (c : HostCmd), ∃ (s : State), AdminCmd 6 a c s ∧ c.cmd.prp1 % 4 = 0 ∧ 3 < c.cmd.cdw10 % 256) ∧
    (∃ a, ∃ (c : HostCmd), ∃ (s : State), ∃ (l : List Byte), AdminCmd 2 a c s ∧ c.cmd.prp1 % 4 = 0 ∧ logPage (c.cmd.cdw10 % 256) s = some l) ∧
    (∃ a, ∃ (c : HostCmd), ∃ (s : State), AdminCmd 2 a c s ∧ c.cmd.prp1 % 4 = 0 ∧ logPage (c.cmd.cdw10 % 256) s = none) ∧
    (∃ a, ∃ (c : HostCmd), ∃ (s : State), AdminCmd 9 a c s ∧ c.cmd.cdw10 / 2 ^ 31 = 1) ∧
    (∃ a, ∃ (c : HostCmd), ∃ (s : State), AdminCmd 9 a c s ∧ c.cmd.cdw10 / 2 ^ 31 ≠ 1 ∧ c.cmd.cdw10 % 256 = 6) ∧
    (∃ a, ∃ (c : HostCmd), ∃ (s : State), AdminCmd 9 a c s ∧ c.cmd.cdw10 / 2 ^ 31 ≠ 1 ∧ c.cmd.cdw10 % 256 = 0xB) ∧
    (∃ a, ∃ v, ∃ (c : HostCmd), ∃ (s : State), AdminCmd 0xA a c s ∧ featureValue (c.cmd.cdw10 % 256) c.cmd.cdw11 s = some v ∧ bits c.cmd.cdw10 10 8 = 0) ∧
    (∃ a, ∃ v, ∃ (c : HostCmd), ∃ (s : State), AdminCmd 0xA a c s ∧ featureValue (c.cmd.cdw10 % 256) c.cmd.cdw11 s = some v ∧ bits c.cmd.cdw10 10 8 = 3) ∧
    (∃ a, ∃ (c : HostCmd), ∃ (s : State), AdminCmd 0xC a c s ∧ s.ep.events = []) ∧
    (∃ a, ∃ (c : HostCmd), ∃ (s : State), ∃ ev, ∃ r, AdminCmd 0xC a c s ∧ s.ep.events = ev :: r) ∧
    (∃ a, ∃ (c : HostCmd), ∃ (s : State), ∃ (d : HostCmd), AdminCmd 8 a c s ∧ c.cmd.cdw10 % 65536 ≠ 0 ∧ (s.ep.cmds.find? (fun d => d.sq == c.cmd.cdw10 % 65536 && c.cmd.cdw10 % 65536 != 0 && d.cmd.cid == c.cmd.cdw10 / 65536 && !d.done && (!d.issued || queueWait d.arrival s)) = some d)) ∧
    (∃ a, ∃ (c : HostCmd), ∃ (s : State), AdminCmd 8 a c s ∧ ((∀ d ∈ s.ep.cmds, d.sq ≠ c.cmd.cdw10 % 65536 ∨ d.cmd.cid ≠ c.cmd.cdw10 / 65536)) ∧ ((∀ q ∈ s.ep.sqs, q.id ≠ c.cmd.cdw10 % 65536))) ∧
    (∃ a, ∃ (c : HostCmd), ∃ (s : State), AdminCmd 0x14 a c s ∧ s.ep.test = none ∧ (c.cmd.cdw10 % 16 = 1 ∨ c.cmd.cdw10 % 16 = 2)) ∧
    (∃ a, ∃ (c : HostCmd), ∃ (s : State), AdminCmd 0x14 a c s ∧ s.ep.test.isSome = true ∧ (c.cmd.cdw10 % 16 = 1 ∨ c.cmd.cdw10 % 16 = 2)) ∧
    (∃ a, ∃ (c : HostCmd), ∃ (s : State), ∃ (t : SelfTest), AdminCmd 0x14 a c s ∧ s.ep.test = some t ∧ c.cmd.cdw10 % 16 = 0xF) ∧
    (∃ (k : SelfTest), ∃ (s : State), s.ep.test = some k ∧ epOn s = true ∧ ioCmds s = [] ∧ ((∀ m ∈ s.rcd.members, (ssdOf m s).cmds = [])) ∧ k.step + 1 < segSteps k.segment s ∧ (k.segment ≠ 1 ∨ s.rcd.volume ≠ 0)) ∧
    (∃ (k : SelfTest), ∃ (s : State), ∃ n, s.ep.test = some k ∧ epOn s = true ∧ ioCmds s = [] ∧ ((∀ m ∈ s.rcd.members, (ssdOf m s).cmds = [])) ∧ segSteps k.segment s ≤ k.step + 1 ∧ segmentOk k.segment s = true ∧ nextSegment k.code k.segment = some n) ∧
    (∃ (k : SelfTest), ∃ (s : State), s.ep.test = some k ∧ epOn s = true ∧ ioCmds s = [] ∧ ((∀ m ∈ s.rcd.members, (ssdOf m s).cmds = [])) ∧ segSteps k.segment s ≤ k.step + 1 ∧ segmentOk k.segment s = true ∧ nextSegment k.code k.segment = none) ∧
    (∃ (k : SelfTest), ∃ (s : State), s.ep.test = some k ∧ epOn s = true ∧ ioCmds s = [] ∧ ((∀ m ∈ s.rcd.members, (ssdOf m s).cmds = [])) ∧ segSteps k.segment s ≤ k.step + 1 ∧ segmentOk k.segment s = false) :=
  ⟨⟨7, State.reset, .identify 7, by decide +kernel, by simp⟩,
   ⟨7, 0, admC 5 0 (0) 0, epS { ready := true, cmds := [admC 5 0 (0) 0] }, adm1 (by decide +kernel), by decide +kernel, Or.inl rfl⟩,
   ⟨7, 1, admC 5 0 (255 * 2 ^ 16 + 1) (17 * 2 ^ 16 + 1), epS { ready := true, cmds := [admC 5 0 (255 * 2 ^ 16 + 1) (17 * 2 ^ 16 + 1)] }, adm1 (by decide +kernel), by decide +kernel⟩,
   ⟨7, 1, admC 5 0 (255 * 2 ^ 16 + 1) (16 * 2 ^ 16 + 1), epS { ready := true, cmds := [admC 5 0 (255 * 2 ^ 16 + 1) (16 * 2 ^ 16 + 1)] }, adm1 (by decide +kernel), by decide +kernel⟩,
   ⟨7, 1, 1, admC 1 0 (255 * 2 ^ 16 + 1) (1 * 2 ^ 16 + 1), epS { ready := true, cmds := [admC 1 0 (255 * 2 ^ 16 + 1) (1 * 2 ^ 16 + 1)], cqs := [⟨1, 32, 1, true, 0, 0, true, [], []⟩] }, adm1 (by decide +kernel), by decide +kernel⟩,
   ⟨7, 1, 2, admC 1 0 (255 * 2 ^ 16 + 1) (2 * 2 ^ 16 + 1), epS { ready := true, cmds := [admC 1 0 (255 * 2 ^ 16 + 1) (2 * 2 ^ 16 + 1)], cqs := [⟨1, 32, 1, true, 0, 0, true, [], []⟩] }, adm1 (by decide +kernel), by decide +kernel⟩,
   ⟨7, 1, admC 4 0 1 0, epS { ready := true, cmds := [admC 4 0 1 0], cqs := [⟨1, 32, 1, true, 0, 0, true, [], []⟩], sqs := [⟨1, 32, 1, 0, 0, []⟩] }, adm1 (by decide +kernel), by decide +kernel⟩,
   ⟨7, 1, admC 4 0 1 0, epS { ready := true, cmds := [admC 4 0 1 0], cqs := [⟨1, 32, 1, true, 0, 0, true, [], []⟩] }, adm1 (by decide +kernel), by decide +kernel⟩,
   ⟨7, 1, admC 0 0 1 0, epS { ready := true, cmds := [admC 0 0 1 0], sqs := [⟨1, 32, 1, 0, 0, []⟩] }, adm1 (by decide +kernel), by decide +kernel⟩,
   ⟨7, admC 6 1 0 0, epS { ready := true, cmds := [admC 6 1 0 0] }, adm1 (by decide +kernel), by decide +kernel⟩,
   ⟨7, admC 6 1 1 0, epS { ready := true, cmds := [admC 6 1 1 0] }, adm1 (by decide +kernel), by decide +kernel⟩,
   ⟨7, admC 6 1 4 0, epS { ready := true, cmds := [admC 6 1 4 0] }, adm1 (by decide +kernel), by decide +kernel⟩,
   ⟨7, admC 2 1 6 0, epS { ready := true, cmds := [admC 2 1 6 0] }, (logPage 6 State.reset).getD [], adm1 (by decide +kernel), by decide +kernel⟩,
   ⟨7, admC 2 1 0x55 0, epS { ready := true, cmds := [admC 2 1 0x55 0] }, adm1 (by decide +kernel), by decide +kernel⟩,
   ⟨7, admC 9 0 (2 ^ 31) 0, epS { ready := true, cmds := [admC 9 0 (2 ^ 31) 0] }, adm1 (by decide +kernel), by decide +kernel⟩,
   ⟨7, admC 9 0 6 1, epS { ready := true, cmds := [admC 9 0 6 1] }, adm1 (by decide +kernel), by decide +kernel⟩,
   ⟨7, admC 9 0 0xB 1, epS { ready := true, cmds := [admC 9 0 0xB 1] }, adm1 (by decide +kernel), by decide +kernel⟩,
   ⟨7, 9, admC 0xA 0 1 0, epS { ready := true, cmds := [admC 0xA 0 1 0], arb := 9 }, adm1 (by decide +kernel), by decide +kernel⟩,
   ⟨7, 9, admC 0xA 0 (0x301) 0, epS { ready := true, cmds := [admC 0xA 0 (0x301) 0], arb := 9 }, adm1 (by decide +kernel), by decide +kernel⟩,
   ⟨7, admC 0xC 0 0 0, epS { ready := true, cmds := [admC 0xC 0 0 0] }, adm1 (by decide +kernel), by decide +kernel⟩,
   ⟨7, admC 0xC 0 0 0, epS { ready := true, cmds := [admC 0xC 0 0 0], events := [0x10002] }, 0x10002, [], adm1 (by decide +kernel), by decide +kernel⟩,
   ⟨7, admC 8 0 (6 * 2 ^ 16 + 1) 0, epS { ready := true, cmds := [admC 8 0 (6 * 2 ^ 16 + 1) 0, { arrival := 5, sq := 1, cmd := ⟨2, 6, 1, 0, 0, 0, 0⟩ }] }, { arrival := 5, sq := 1, cmd := ⟨2, 6, 1, 0, 0, 0, 0⟩ }, adm1 (by decide +kernel), by decide +kernel⟩,
   ⟨7, admC 8 0 (5 * 2 ^ 16 + 9) 0, epS { ready := true, cmds := [admC 8 0 (5 * 2 ^ 16 + 9) 0] }, adm1 (by decide +kernel), by decide +kernel⟩,
   ⟨7, admC 0x14 0 2 0, epS { ready := true, cmds := [admC 0x14 0 2 0] }, adm1 (by decide +kernel), by decide +kernel⟩,
   ⟨7, admC 0x14 0 2 0, epS { ready := true, cmds := [admC 0x14 0 2 0], test := some ⟨1, 2, 0⟩ }, adm1 (by decide +kernel), by decide +kernel⟩,
   ⟨7, admC 0x14 0 0xF 0, epS { ready := true, cmds := [admC 0x14 0 0xF 0], test := some ⟨1, 2, 0⟩ }, ⟨1, 2, 0⟩, adm1 (by decide +kernel), by decide +kernel⟩,
   ⟨⟨2, 2, 126⟩, epS { test := some ⟨2, 2, 126⟩ }, by decide +kernel⟩,
   ⟨⟨2, 4, 0⟩, epS { test := some ⟨2, 4, 0⟩ }, 5, by decide +kernel⟩,
   ⟨⟨2, 6, 0⟩, epS { test := some ⟨2, 6, 0⟩ }, by decide +kernel⟩,
   ⟨⟨2, 1, 0⟩, epS { test := some ⟨2, 1, 0⟩ }, by decide +kernel⟩⟩

/-- The hypotheses of each clause of Obligations.IoCommands, met together. -/
theorem wit_IoCommands :
    (∃ a, ∃ (c : HostCmd), ∃ (s : State), IoCmd 2 a c s ∧ ioStatus c.cmd s ≠ 0) ∧
    (∃ a, ∃ (c : HostCmd), ∃ (s : State), IoCmd 1 a c s ∧ ioStatus c.cmd s ≠ 0) ∧
    (∃ a, ∃ (c : HostCmd), ∃ (s : State), IoCmd 8 a c s ∧ ioStatus c.cmd s ≠ 0) ∧
    (∃ (c : NvmeCmd), c.nsid ≠ 1) ∧
    (∃ (c : NvmeCmd), ∃ (s : State), c.nsid = 1 ∧ s.rcd.volume = 0) ∧
    (∃ (c : NvmeCmd), ∃ (s : State), c.nsid = 1 ∧ s.rcd.volume = 2 ∧ c.opc = 1 ∧ (lbaRange c).2 ≤ 256 ∧ c.prp1 % 4 = 0 ∧ (lbaRange c).1 + (lbaRange c).2 ≤ nsze s ∧ (lbaRange c).1 * 4096 < s.rcd.sidecar * volG s) ∧
    (∃ a, ∃ (c : HostCmd), ∃ (ps : List (Nat × Nat × Option (Nat × Nat))), ∃ (s : State), IoCmd 2 a c s ∧ ioStatus c.cmd s = 0 ∧ ps = volPieces ((lbaRange c.cmd).2 * 4096 + 1) 0 ((lbaRange c.cmd).1 * 4096) ((lbaRange c.cmd).2 * 4096) s ∧ ((∀ p ∈ ps, p.2.2 = none))) ∧
    (∃ a, ∃ dst, ∃ len, ∃ k, ∃ off, ∃ (c : HostCmd), ∃ (s : State), IoCmd 2 a c s ∧ ioStatus c.cmd s = 0 ∧ volPieces ((lbaRange c.cmd).2 * 4096 + 1) 0 ((lbaRange c.cmd).1 * 4096) ((lbaRange c.cmd).2 * 4096) s = [(dst, len, some (k, off))] ∧ (ssdOf k s).failed = false ∧ k < s.rcd.ssds.length) ∧
    (∃ a, ∃ (c : HostCmd), ∃ (ps : List (Nat × Nat × Option (Nat × Nat))), ∃ (s : State), IoCmd 2 a c s ∧ ioStatus c.cmd s = 0 ∧ ps = volPieces ((lbaRange c.cmd).2 * 4096 + 1) 0 ((lbaRange c.cmd).1 * 4096) ((lbaRange c.cmd).2 * 4096) s ∧ ((∃ p ∈ ps, ∃ q, p.2.2 = some q ∧ (ssdOf q.1 s).failed = true))) ∧
    (∃ a, ∃ (c : HostCmd), ∃ (ps : List (Nat × Nat × Option (Nat × Nat))), ∃ (s : State), ioStatus c.cmd s = 0 ∧ ps = volPieces ((lbaRange c.cmd).2 * 4096 + 1) 0 ((lbaRange c.cmd).1 * 4096) ((lbaRange c.cmd).2 * 4096) s ∧ ((∃ p ∈ ps, ∃ q, p.2.2 = some q ∧ (ssdOf q.1 s).failed = true)) ∧ c.arrival = a ∧ IoCmd 1 a c s) ∧
    (∃ a, ∃ (c : HostCmd), ∃ (ps : List (Nat × Nat × Option (Nat × Nat))), ∃ (s : State), ioStatus c.cmd s = 0 ∧ ps = volPieces ((lbaRange c.cmd).2 * 4096 + 1) 0 ((lbaRange c.cmd).1 * 4096) ((lbaRange c.cmd).2 * 4096) s ∧ ((∃ p ∈ ps, ∃ q, p.2.2 = some q ∧ (ssdOf q.1 s).failed = true)) ∧ c.arrival = a ∧ IoCmd 8 a c s) ∧
    (∃ a, ∃ dst, ∃ len, ∃ k, ∃ off, ∃ (c : HostCmd), ∃ (s : State), ioStatus c.cmd s = 0 ∧ c.arrival = a ∧ volPieces ((lbaRange c.cmd).2 * 4096 + 1) 0 ((lbaRange c.cmd).1 * 4096) ((lbaRange c.cmd).2 * 4096) s = [(dst, len, some (k, off))] ∧ (ssdOf k s).failed = false ∧ k < s.rcd.ssds.length ∧ IoCmd 1 a c s) ∧
    (∃ a, ∃ dst, ∃ len, ∃ k, ∃ off, ∃ (c : HostCmd), ∃ (s : State), ioStatus c.cmd s = 0 ∧ c.arrival = a ∧ volPieces ((lbaRange c.cmd).2 * 4096 + 1) 0 ((lbaRange c.cmd).1 * 4096) ((lbaRange c.cmd).2 * 4096) s = [(dst, len, some (k, off))] ∧ (ssdOf k s).failed = false ∧ k < s.rcd.ssds.length ∧ IoCmd 8 a c s) ∧
    (∃ a, ∃ (c : HostCmd), ∃ (s : State), IoCmd 0 a c s ∧ ((∃ d ∈ s.ep.cmds, d.arrival < a ∧ d.cmd.opc ≠ 0xC))) ∧
    (∃ a, ∃ (c : HostCmd), ∃ (s : State), IoCmd 0 a c s ∧ ((∀ d ∈ s.ep.cmds, d.arrival < a → d.cmd.opc = 0xC)) ∧ (c.cmd.nsid = 1 ∨ c.cmd.nsid = 0xFFFFFFFF) ∧ s.rcd.volume = 0) ∧
    (∃ a, ∃ (c : HostCmd), ∃ (s : State), IoCmd 0 a c s ∧ ((∀ d ∈ s.ep.cmds, d.arrival < a → d.cmd.opc = 0xC)) ∧ (c.cmd.nsid = 1 ∨ c.cmd.nsid = 0xFFFFFFFF) ∧ s.rcd.volume ≠ 0 ∧ membersOk s = true) :=
  ⟨⟨7, ioC 2 0, { epS { ready := true, cmds := [ioC 2 0] } with rcd := { volume := 0 } }, io1 (by decide +kernel), by decide +kernel⟩,
   ⟨7, ioC 1 0, { epS { ready := true, cmds := [ioC 1 0] } with rcd := { volume := 0 } }, io1 (by decide +kernel), by decide +kernel⟩,
   ⟨7, ioC 8 0, { epS { ready := true, cmds := [ioC 8 0] } with rcd := { volume := 0 } }, io1 (by decide +kernel), by decide +kernel⟩,
   ⟨⟨2, 3, 5, 0, 0, 0, 0⟩, by decide +kernel⟩,
   ⟨⟨2, 3, 1, 0, 0, 0, 0⟩, run .integrated [], by decide +kernel⟩,
   ⟨⟨1, 3, 1, 0, 0, 0, 0⟩, { run .integrated [] with rcd := { volume := 2, members := [0], vgCount := 5000, sidecar := 9 } }, by decide +kernel⟩,
   ⟨7, ioC 2 135168, [(0, 4096, none)], { epS { ready := true, cmds := [ioC 2 135168] } with rcd := { volume := 2, members := [0], vgCount := 5000 } }, io1 (by decide +kernel), by decide +kernel⟩,
   ⟨7, 0, 4096, 0, 0, ioC 2 0, { epS { ready := true, cmds := [ioC 2 0] } with rcd := { volume := 2, members := [0], vgCount := 5000 } }, io1 (by decide +kernel), by decide +kernel⟩,
   ⟨7, ioC 2 0, [(0, 4096, some (0, 0))], { epS { ready := true, cmds := [ioC 2 0] } with rcd := { volume := 2, members := [0], vgCount := 5000, ssds := [{ failed := true }, {}, {}, {}] } }, io1 (by decide +kernel), by decide +kernel, by decide +kernel, ⟨_, List.mem_cons_self, _, rfl, by decide⟩⟩,
   ⟨7, ioC 1 0, [(0, 4096, some (0, 0))], { epS { ready := true, cmds := [ioC 1 0] } with rcd := { volume := 2, members := [0], vgCount := 5000, ssds := [{ failed := true }, {}, {}, {}] } }, by decide +kernel, by decide +kernel, ⟨_, List.mem_cons_self, _, rfl, by decide⟩, by decide +kernel, io1 (by decide +kernel)⟩,
   ⟨7, ioC 8 0, [(0, 4096, some (0, 0))], { epS { ready := true, cmds := [ioC 8 0] } with rcd := { volume := 2, members := [0], vgCount := 5000, ssds := [{ failed := true }, {}, {}, {}] } }, by decide +kernel, by decide +kernel, ⟨_, List.mem_cons_self, _, rfl, by decide⟩, by decide +kernel, io1 (by decide +kernel)⟩,
   ⟨7, 0, 4096, 0, 0, ioC 1 0, { epS { ready := true, cmds := [ioC 1 0] } with rcd := { volume := 2, members := [0], vgCount := 5000 } }, by decide +kernel, by decide +kernel, by decide +kernel, by decide +kernel, by decide +kernel, io1 (by decide +kernel)⟩,
   ⟨7, 0, 4096, 0, 0, ioC 8 0, { epS { ready := true, cmds := [ioC 8 0] } with rcd := { volume := 2, members := [0], vgCount := 5000 } }, by decide +kernel, by decide +kernel, by decide +kernel, by decide +kernel, by decide +kernel, io1 (by decide +kernel)⟩,
   ⟨7, ioC 0 0, { epS { ready := true, cmds := [{ ioC 2 0 with arrival := 5 }, ioC 0 0] } with rcd := { volume := 2, members := [0], vgCount := 5000 } }, io1 (by decide +kernel), by decide +kernel⟩,
   ⟨7, ioC 0 0, { epS { ready := true, cmds := [ioC 0 0] } with rcd := { volume := 0 } }, io1 (by decide +kernel), by decide +kernel⟩,
   ⟨7, ioC 0 0, { epS { ready := true, cmds := [ioC 0 0] } with rcd := { volume := 2, members := [0], vgCount := 5000 } }, io1 (by decide +kernel), by decide +kernel⟩⟩

/-- The hypotheses of each clause of Obligations.LaneEvents, met together. -/
theorem wit_LaneEvents :
    (∃ q, ∃ ab, ∃ (s : State), q < 10 ∧ ((∃ n ∈ pllLanes q ab, laneOn n s = true)) ∧ 2 * q + b2n ab < s.plls.length ∧ s.lanes.length = 40) ∧
    (∃ q, ∃ (ab : Bool), ∃ (s : State), q < 10 ∧ s.plls.getD (2 * q + b2n ab) false = true ∧ (groupOfLane ((pllLanes q ab).headD 0) (losePll (pllLanes q ab) { s with plls := modAt s.plls (2 * q + b2n ab) fun _ => false }) = none) ∧ (groupOfLane ((pllLanes q ab).getD 1 0) (losePll (pllLanes q ab) { s with plls := modAt s.plls (2 * q + b2n ab) fun _ => false }) = none)) ∧
    (∃ q, ∃ (ab : Bool), ∃ (s : State), ∃ g, q < 10 ∧ s.plls.getD (2 * q + b2n ab) false = true ∧ (groupOfLane ((pllLanes q ab).headD 0) (losePll (pllLanes q ab) { s with plls := modAt s.plls (2 * q + b2n ab) fun _ => false }) = some g) ∧ (groupOfLane ((pllLanes q ab).getD 1 0) (losePll (pllLanes q ab) { s with plls := modAt s.plls (2 * q + b2n ab) fun _ => false }) = some g)) ∧
    (∃ q, ∃ ab, ∃ (s : State), s.plls.getD (2 * q + b2n ab) false = false) ∧
    (∃ n, ∃ (s : State), (laneOn n s = false ∨ s.plls.getD (pllOf n) false = false ∨ (laneOf n s).idle = true)) ∧
    (∃ n, ∃ (o : LaneObs), ∃ (s : State), laneOn n s = true ∧ s.plls.getD (pllOf n) false = true ∧ (laneOf n s).idle = false ∧ laneProto s.cfg.accepted n = 1 ∧ o.receiver = false) ∧
    (∃ n, ∃ (o : LaneObs), ∃ (s : State), laneOn n s = true ∧ s.plls.getD (pllOf n) false = true ∧ (laneOf n s).idle = false ∧ laneProto s.cfg.accepted n ≠ 4 ∧ o.receiver = true ∧ o.signal = true) ∧
    (∃ n, ∃ (s : State), laneOn n s = true ∧ s.plls.getD (pllOf n) false = true ∧ (laneOf n s).idle = false ∧ laneProto s.cfg.accepted n = 4) ∧
    (∃ n, ∃ (o : LaneObs), ∃ (s : State), laneOn n s = true ∧ s.plls.getD (pllOf n) false = true ∧ (laneOf n s).idle = false ∧ laneProto s.cfg.accepted n = 2 ∧ o.signal = false) ∧
    (∃ n, ∃ (s : State), laneOn n s = true) ∧
    (∃ n, ∃ (s : State), adapting n s = true ∧ n < s.lanes.length) ∧
    (∃ n, ∃ (s : State), adapting n s = true ∧ n < s.lanes.length) ∧
    (∃ n, ∃ (s : State), adapting n s = false) ∧
    (∃ n, ∃ (s : State), adapting n s = false) ∧
    (∃ n, ∃ (s : State), adapting n s = true ∧ atEnd n (laneOf n s) = true ∧ bits (laneOf n s).faults 5 5 = 0) ∧
    (∃ n, ∃ (s : State), laneOn n s = true ∧ n < s.lanes.length) ∧
    (∃ n, ∃ (s : State), laneOn n s = true ∧ (laneOf n s).idle = true ∧ laneProto s.cfg.accepted n ≠ 0 ∧ (laneOf n s).idleAt + 100 * ticksPerMs ≤ s.dev.elapsed) ∧
    (∃ n, ∃ (s : State), laneOn n s = true ∧ (laneOf n s).idle = true ∧ laneProto s.cfg.accepted n ≠ 0 ∧ s.dev.elapsed < (laneOf n s).idleAt + 100 * ticksPerMs) ∧
    (∃ n, ∃ (s : State), laneOn n s = true ∧ bits (laneOf n s).faults 4 4 = 0) ∧
    (∃ n, ∃ (s : State), laneOn n s = true ∧ bits (laneOf n s).faults 4 4 = 1) ∧
    (∃ n, ∃ (s : State), laneOn n s = true) ∧
    (∃ n, ∃ (s : State), laneOn n s = true ∧ (laneOf n s).state ≠ 3 ∧ (laneOf n s).state ≠ 5 ∧ n < s.lanes.length) ∧
    (∃ n, ∃ (c : Scan), ∃ (s : State), (laneOf n s).scan = some c ∧ c.status = 0 ∧ n < s.lanes.length) ∧
    (∃ n, ∃ (s : State), (laneOf n s).scan = none) ∧
    (∃ k, k < 4) ∧
    (∃ k, 4 ≤ k) ∧
    (∃ (s : State), epOn s = true) ∧
    (∃ (s : State), epOn s = false ∧ s.dev.state ≠ .configError) ∧
    (∃ (k : Nat), ∃ (w : Nat), ∃ n, ∃ (s : State), n ∈ pcieLanes k s.cfg.accepted ∧ laneOn n s = true ∧ n < s.lanes.length ∧ 4 ≤ w) :=
  ⟨⟨5, false, { run .body [(F.LANE_PROTO, 20, 1), (F.LANE_RATE, 21, 8)] with lanes := List.replicate 40 {  }, plls := List.replicate 20 true }, by decide +kernel, ⟨21, by decide +kernel, by decide +kernel⟩, by decide +kernel⟩,
   ⟨5, false, { run .body [(F.LANE_PROTO, 20, 1), (F.LANE_RATE, 21, 8)] with lanes := List.replicate 40 {  }, plls := List.replicate 20 true }, by decide +kernel⟩,
   ⟨1, false, { run .body [(F.LINK_ENABLE, 2, 1), (F.LINK_MODE, 2, 1), (F.LINK_WIDTH, 2, 2), (F.LINK_FIRST_LANE, 2, 4), (F.LANE_PROTO, 4, 1), (F.LANE_RATE, 5, 16)] with plls := List.replicate 20 true }, 2, by decide +kernel⟩,
   ⟨5, false, run .body [], by decide +kernel⟩,
   ⟨21, run .integrated [], Or.inl (by decide +kernel)⟩,
   ⟨21, { receiver := false, signal := true, metrics := [], dfe := [], reversed := false }, { run .body [(F.LANE_PROTO, 20, 1), (F.LANE_RATE, 21, 8)] with lanes := List.replicate 40 {  }, plls := List.replicate 20 true }, by decide +kernel⟩,
   ⟨21, { receiver := true, signal := true, metrics := [], dfe := [], reversed := false }, { run .body [(F.LANE_PROTO, 20, 1), (F.LANE_RATE, 21, 8)] with lanes := List.replicate 40 {  }, plls := List.replicate 20 true }, by decide +kernel⟩,
   ⟨21, { run .integrated [(F.LANE_PROTO, 20, 4), (F.LANE_RATE, 21, 8)] with lanes := List.replicate 40 {  }, plls := List.replicate 20 true }, by decide +kernel⟩,
   ⟨21, { receiver := true, signal := false, metrics := [], dfe := [], reversed := false }, { run .integrated [(F.LANE_PROTO, 20, 2), (F.LANE_RATE, 21, 8)] with lanes := List.replicate 40 {  }, plls := List.replicate 20 true }, by decide +kernel⟩,
   ⟨21, { run .body [(F.LANE_PROTO, 20, 1), (F.LANE_RATE, 21, 8)] with lanes := List.replicate 40 {  }, plls := List.replicate 20 true }, by decide +kernel⟩,
   ⟨21, { run .body [(F.LANE_PROTO, 20, 1), (F.LANE_RATE, 21, 8), (F.LANE_ADAPT, 21, 1)] with lanes := List.replicate 40 { state := 2 }, plls := List.replicate 20 true }, by decide +kernel⟩,
   ⟨21, { run .body [(F.LANE_PROTO, 20, 1), (F.LANE_RATE, 21, 8), (F.LANE_ADAPT, 21, 1)] with lanes := List.replicate 40 { state := 2 }, plls := List.replicate 20 true }, by decide +kernel⟩,
   ⟨21, run .integrated [], by decide +kernel⟩,
   ⟨21, run .integrated [], by decide +kernel⟩,
   ⟨21, { run .body [(F.LANE_PROTO, 20, 1), (F.LANE_RATE, 21, 8), (F.LANE_ADAPT, 21, 1)] with lanes := List.replicate 40 { state := 2, ctle := 15 }, plls := List.replicate 20 true }, by decide +kernel⟩,
   ⟨21, { run .body [(F.LANE_PROTO, 20, 1), (F.LANE_RATE, 21, 8)] with lanes := List.replicate 40 {  }, plls := List.replicate 20 true }, by decide +kernel⟩,
   ⟨21, { run .body [(F.LANE_PROTO, 20, 1), (F.LANE_RATE, 21, 8)] with lanes := List.replicate 40 { idle := true }, plls := List.replicate 20 true, dev := { state := .running, role := .body, powered := true, elapsed := 100 * ticksPerMs } }, by decide +kernel⟩,
   ⟨21, { run .body [(F.LANE_PROTO, 20, 1), (F.LANE_RATE, 21, 8)] with lanes := List.replicate 40 { idle := true }, plls := List.replicate 20 true }, by decide +kernel⟩,
   ⟨21, { run .body [(F.LANE_PROTO, 20, 1), (F.LANE_RATE, 21, 8)] with lanes := List.replicate 40 {  }, plls := List.replicate 20 true }, by decide +kernel⟩,
   ⟨21, { run .body [(F.LANE_PROTO, 20, 1), (F.LANE_RATE, 21, 8)] with lanes := List.replicate 40 { faults := 16 }, plls := List.replicate 20 true }, by decide +kernel⟩,
   ⟨21, { run .body [(F.LANE_PROTO, 20, 1), (F.LANE_RATE, 21, 8)] with lanes := List.replicate 40 {  }, plls := List.replicate 20 true }, by decide +kernel⟩,
   ⟨21, { run .body [(F.LANE_PROTO, 20, 1), (F.LANE_RATE, 21, 8)] with lanes := List.replicate 40 { state := 2 }, plls := List.replicate 20 true }, by decide +kernel⟩,
   ⟨21, (Scan.mk 8 32 20 0 2 1 8 ⟨0, 0⟩ ⟨0, 0⟩ 0 0 0 0 [0, 0]), { run .body [(F.LANE_PROTO, 20, 1), (F.LANE_RATE, 21, 8)] with lanes := List.replicate 40 { scan := some (Scan.mk 8 32 20 0 2 1 8 ⟨0, 0⟩ ⟨0, 0⟩ 0 0 0 0 [0, 0]) }, plls := List.replicate 20 true }, by decide +kernel⟩,
   ⟨21, run .integrated [], by decide +kernel⟩,
   ⟨3, by decide +kernel⟩,
   ⟨4, by decide +kernel⟩,
   ⟨run .integrated [(F.EP0_ENABLE, 0, 1)], by decide +kernel⟩,
   ⟨run .integrated [], by decide +kernel⟩,
   ⟨2, 4, 21, { run .integrated [(F.LANE_PROTO, 20, 3), (F.LANE_PORT, 20, 2), (F.LANE_RATE, 20, 3), (F.LANE_RATE, 21, 3)] with plls := List.replicate 20 true }, by decide +kernel⟩⟩

/-- The hypotheses of each clause of Obligations.LinkTraining, met together. -/
theorem wit_LinkTraining :
    (∃ g, ∃ (s : State), groupOn g s = true ∧ (groupOf g s).state ≤ 1 ∧ (groupOf g s).refused = false ∧ s.red.state ≠ 6 ∧ g < s.links.length) ∧
    (∃ g, ∃ (s : State), 2 ≤ (groupOf g s).state) ∧
    (∃ (f : BitVec 48), crc8 f.toNat ≠ f.toNat % 256) ∧
    (∃ g, ∃ lane, ∃ (i : Nat), ∃ (f : BitVec 48), ∃ (s : State), groupOn g s = true ∧ (groupOf g s).state = 2 ∧ lane ∈ groupLanes s.cfg.accepted g ∧ crc8 f.toNat = f.toNat % 256 ∧ bits f.toNat 39 37 = 0 ∧ i = lane - F.LINK_FIRST_LANE.get g s.cfg.accepted ∧ ((groupOf g s).lanes.getD i {}).ackTap = 0) ∧
    (∃ g, ∃ (s : State), groupOn g s = true ∧ ((groupOf g s).state = 2 ∨ (groupOf g s).state = 3 ∨ (groupOf g s).state = 4) ∧ cfgB F.LINK_MODE g s = false) ∧
    (∃ g, ∃ lane, ∃ (c : Nat), ∃ (i : Nat), ∃ (s : State), groupOn g s = true ∧ lane ∈ groupLanes s.cfg.accepted g ∧ 4 ≤ (groupOf g s).state ∧ i = lane - F.LINK_FIRST_LANE.get g s.cfg.accepted ∧ c = (((groupOf g s).lanes.getD i {}).counter + 1) % 2 ^ 32) ∧
    (∃ g, ∃ lane, ∃ marker, ∃ (i : Nat), ∃ (s : State), groupOn g s = true ∧ lane ∈ groupLanes s.cfg.accepted g ∧ 4 ≤ (groupOf g s).state ∧ i = lane - F.LINK_FIRST_LANE.get g s.cfg.accepted ∧ marker ≠ 0xC3A596F00F695A3C ∧ ((groupOf g s).lanes.getD i {}).missed < 2) ∧
    (∃ g, ∃ lane, ∃ marker, ∃ (i : Nat), ∃ (s : State), groupOn g s = true ∧ lane ∈ groupLanes s.cfg.accepted g ∧ 4 ≤ (groupOf g s).state ∧ i = lane - F.LINK_FIRST_LANE.get g s.cfg.accepted ∧ marker ≠ 0xC3A596F00F695A3C ∧ 2 ≤ ((groupOf g s).lanes.getD i {}).missed) ∧
    (∃ g, ∃ (bytes : List Byte), ∃ (fec : Bool), ∃ (s : State), groupOn g s = true ∧ (groupOf g s).state = 4 ∧ cellOk 5 bytes fec = false) ∧
    (∃ g, ∃ (bytes : List Byte), ∃ (fec : Bool), ∃ (s : State), groupOn g s = true ∧ (groupOf g s).state = 4 ∧ cellOk 5 bytes fec = true ∧ capabilityBad g (cellWords bytes) s = true ∧ wrongPeer g (cellWords bytes) s = false) ∧
    (∃ g, ∃ (bytes : List Byte), ∃ (fec : Bool), ∃ (s : State), groupOn g s = true ∧ (groupOf g s).state = 4 ∧ cellOk 5 bytes fec = true ∧ capabilityBad g (cellWords bytes) s = false ∧ wrongPeer g (cellWords bytes) s = false ∧ (cellWords bytes).getD 4 0 % 2 = 0 ∧ g < s.links.length) ∧
    (∃ g, ∃ (s : State), groupOn g s = true ∧ (groupOf g s).refused = true) ∧
    (∃ g, ∃ (r : Nat), ∃ (s : State), groupOn g s = true ∧ (groupOf g s).state = 5 ∧ g < s.links.length ∧ cfgB F.LINK_MODE g s = true ∧ stepper g s = false ∧ r = rateAbove (groupOf g s).rate ∧ r ≠ 0 ∧ r ≤ topRate g s) ∧
    (∃ g, ∃ (r : Nat), ∃ (s : State), groupOn g s = true ∧ (groupOf g s).state = 5 ∧ g < s.links.length ∧ r ≠ rateAbove (groupOf g s).rate) ∧
    (∃ g, ∃ (s : State), groupOn g s = true ∧ (groupOf g s).state = 5 ∧ stepper g s = true ∧ (groupOf g s).stepTo ≠ 0) ∧
    (∃ g, ∃ (s : State), (groupOf g s).stepTo = 0) ∧
    (∃ g, ∃ (s : State), groupOn g s = true ∧ (groupOf g s).state = 6 ∧ g < s.links.length) ∧
    (∃ g, ∃ (s : State), groupOn g s = true ∧ 3 ≤ (groupOf g s).state) ∧
    (∃ g, ∃ (s : State), 2 ≤ (groupOf g s).state ∧ g < s.links.length) :=
  ⟨⟨2, { run .body [(F.LINK_ENABLE, 2, 1), (F.LINK_MODE, 2, 1), (F.LINK_WIDTH, 2, 1), (F.LINK_FIRST_LANE, 2, 5), (F.LANE_PROTO, 4, 1), (F.LANE_RATE, 5, 16)] with links := List.replicate 9 {  } }, by decide +kernel⟩,
   ⟨2, { run .body [(F.LINK_ENABLE, 2, 1), (F.LINK_MODE, 2, 1), (F.LINK_WIDTH, 2, 1), (F.LINK_FIRST_LANE, 2, 5), (F.LANE_PROTO, 4, 1), (F.LANE_RATE, 5, 16)] with links := List.replicate 9 { state := 2 } }, by decide +kernel⟩,
   ⟨1, by decide +kernel⟩,
   ⟨2, 5, 0, 0, { run .body [(F.LINK_ENABLE, 2, 1), (F.LINK_MODE, 2, 1), (F.LINK_WIDTH, 2, 1), (F.LINK_FIRST_LANE, 2, 5), (F.LANE_PROTO, 4, 1), (F.LANE_RATE, 5, 16)] with links := List.replicate 9 { state := 2 } }, by decide +kernel⟩,
   ⟨2, { run .body [(F.LINK_ENABLE, 2, 1), (F.LINK_MODE, 2, 0), (F.LINK_WIDTH, 2, 1), (F.LINK_FIRST_LANE, 2, 5)] with links := List.replicate 9 { state := 3 } }, by decide +kernel⟩,
   ⟨2, 5, 1, 0, { run .body [(F.LINK_ENABLE, 2, 1), (F.LINK_MODE, 2, 1), (F.LINK_WIDTH, 2, 1), (F.LINK_FIRST_LANE, 2, 5), (F.LANE_PROTO, 4, 1), (F.LANE_RATE, 5, 16)] with links := List.replicate 9 { state := 4 } }, by decide +kernel⟩,
   ⟨2, 5, 5, 0, { run .body [(F.LINK_ENABLE, 2, 1), (F.LINK_MODE, 2, 1), (F.LINK_WIDTH, 2, 1), (F.LINK_FIRST_LANE, 2, 5), (F.LANE_PROTO, 4, 1), (F.LANE_RATE, 5, 16)] with links := List.replicate 9 { state := 4 } }, by decide +kernel⟩,
   ⟨2, 5, 5, 0, { run .body [(F.LINK_ENABLE, 2, 1), (F.LINK_MODE, 2, 1), (F.LINK_WIDTH, 2, 1), (F.LINK_FIRST_LANE, 2, 5), (F.LANE_PROTO, 4, 1), (F.LANE_RATE, 5, 16)] with links := List.replicate 9 { state := 4, lanes := List.replicate 8 { missed := 2 } } }, by decide +kernel⟩,
   ⟨2, [1, 2], true, { run .body [(F.LINK_ENABLE, 2, 1), (F.LINK_MODE, 2, 1), (F.LINK_WIDTH, 2, 1), (F.LINK_FIRST_LANE, 2, 5), (F.LANE_PROTO, 4, 1), (F.LANE_RATE, 5, 16)] with links := List.replicate 9 { state := 4 } }, by decide +kernel⟩,
   ⟨2, mkCell 5 true true 0 0 (wordBytes [0x10102, 9, 0, 0x02040200, 0]), true, { run .body [(F.LINK_ENABLE, 2, 1), (F.LINK_MODE, 2, 1), (F.LINK_WIDTH, 2, 1), (F.LINK_FIRST_LANE, 2, 5), (F.LANE_PROTO, 4, 1), (F.LANE_RATE, 5, 16)] with links := List.replicate 9 { state := 4 } }, by decide +kernel⟩,
   ⟨2, mkCell 5 true true 0 0 (wordBytes [0x10101, 9, 0, 0x02040200, 0]), true, { run .body [(F.LINK_ENABLE, 2, 1), (F.LINK_MODE, 2, 1), (F.LINK_WIDTH, 2, 1), (F.LINK_FIRST_LANE, 2, 5), (F.LANE_PROTO, 4, 1), (F.LANE_RATE, 5, 16)] with links := List.replicate 9 { state := 4 } }, by decide +kernel⟩,
   ⟨2, { run .body [(F.LINK_ENABLE, 2, 1), (F.LINK_MODE, 2, 1), (F.LINK_WIDTH, 2, 1), (F.LINK_FIRST_LANE, 2, 5), (F.LANE_PROTO, 4, 1), (F.LANE_RATE, 5, 16)] with links := List.replicate 9 { state := 4, refused := true } }, by decide +kernel⟩,
   ⟨2, 0x0D, { run .head [(F.LINK_ENABLE, 2, 1), (F.LINK_MODE, 2, 1), (F.LINK_WIDTH, 2, 1), (F.LINK_FIRST_LANE, 2, 5), (F.LANE_PROTO, 4, 1), (F.LANE_RATE, 5, 16)] with links := List.replicate 9 { state := 5, rate := 0x0C, peerRate := 0x10 } }, by decide +kernel⟩,
   ⟨2, 0x10, { run .body [(F.LINK_ENABLE, 2, 1), (F.LINK_MODE, 2, 1), (F.LINK_WIDTH, 2, 1), (F.LINK_FIRST_LANE, 2, 5), (F.LANE_PROTO, 4, 1), (F.LANE_RATE, 5, 16)] with links := List.replicate 9 { state := 5, rate := 0x0C } }, by decide +kernel⟩,
   ⟨2, { run .body [(F.LINK_ENABLE, 2, 1), (F.LINK_MODE, 2, 1), (F.LINK_WIDTH, 2, 1), (F.LINK_FIRST_LANE, 2, 5), (F.LANE_PROTO, 4, 1), (F.LANE_RATE, 5, 16)] with links := List.replicate 9 { state := 5, stepTo := 0x0D } }, by decide +kernel⟩,
   ⟨2, run .integrated [], by decide +kernel⟩,
   ⟨2, { run .body [(F.LINK_ENABLE, 2, 1), (F.LINK_MODE, 2, 1), (F.LINK_WIDTH, 2, 1), (F.LINK_FIRST_LANE, 2, 5), (F.LANE_PROTO, 4, 1), (F.LANE_RATE, 5, 16)] with links := List.replicate 9 { state := 6 } }, by decide +kernel⟩,
   ⟨2, { run .body [(F.LINK_ENABLE, 2, 1), (F.LINK_MODE, 2, 1), (F.LINK_WIDTH, 2, 1), (F.LINK_FIRST_LANE, 2, 5), (F.LANE_PROTO, 4, 1), (F.LANE_RATE, 5, 16)] with links := List.replicate 9 { state := 3 } }, by decide +kernel⟩,
   ⟨2, { run .body [(F.LINK_ENABLE, 2, 1), (F.LINK_MODE, 2, 1), (F.LINK_WIDTH, 2, 1), (F.LINK_FIRST_LANE, 2, 5), (F.LANE_PROTO, 4, 1), (F.LANE_RATE, 5, 16)] with links := List.replicate 9 { state := 4 } }, by decide +kernel⟩⟩

/-- The hypotheses of each clause of Obligations.LinkCells, met together. -/
theorem wit_LinkCells :
    (∃ g, ∃ (bytes : List Byte), ∃ (fec : Bool), ∃ (s : State), groupOn g s = true ∧ groupActive g s = true ∧ cellOk 3 bytes fec = false) ∧
    (∃ g, ∃ (bytes : List Byte), ∃ (fec : Bool), ∃ (s : State), groupOn g s = true ∧ groupActive g s = true ∧ cellOk 3 bytes fec = true ∧ g < s.links.length) ∧
    (∃ g, ∃ (s : State), groupActive g s = false) ∧
    (∃ g, ∃ (s : State), groupOn g s = true ∧ groupActive g s = true) ∧
    (∃ g, ∃ c, ∃ (s : State), groupOn g s = true ∧ groupActive g s = true ∧ c < 3 ∧ classWaiting c (groupOf g s) = true ∧ hasCredit c (groupOf g s) = false) ∧
    (∃ g, ∃ c, ∃ (s : State), groupOn g s = true ∧ groupActive g s = true ∧ c < 3 ∧ hasCredit c (groupOf g s) = true) ∧
    (∃ g, ∃ (bytes : List Byte), ∃ (fec : Bool), ∃ (s : State), groupOn g s = true ∧ groupActive g s = true ∧ cellOk 1 bytes fec = false) ∧
    (∃ g, ∃ (bytes : List Byte), ∃ (fec : Bool), ∃ (s : State), groupOn g s = true ∧ groupActive g s = true ∧ cellOk 1 bytes fec = true ∧ s.dev.role = .body ∧ g ≠ 8) ∧
    (∃ g, ∃ (s : State), groupOn g s = true ∧ groupActive g s = true ∧ (groupOf g s).ctrlOut = true ∧ (groupOf g s).repeats < 8 ∧ g < s.links.length) ∧
    (∃ g, ∃ (s : State), groupOn g s = true ∧ groupActive g s = true ∧ (groupOf g s).ctrlOut = true ∧ 8 ≤ (groupOf g s).repeats) ∧
    (∃ g, ∃ (s : State), groupOn g s = true ∧ groupActive g s = true ∧ g ≠ 8 ∧ s.dev.role = .head) ∧
    (∃ g, ∃ (s : State), groupOn g s = true ∧ groupActive g s = true ∧ g ≠ 8 ∧ s.dev.role = .body) ∧
    (∃ g, ∃ (ws : List Word), ∃ (s : State), groupOn g s = true ∧ groupActive g s = true ∧ g ≠ 8 ∧ (ws.getD 0 0).toNat % 65536 ≠ (groupOf g s).ctrlIn) ∧
    (∃ g, ∃ (ws : List Word), ∃ (s : State), groupOn g s = true ∧ groupActive g s = true ∧ g ≠ 8 ∧ (ws.getD 0 0).toNat % 65536 = (groupOf g s).ctrlIn ∧ controlWaits ws s = false) ∧
    (∃ g, ∃ (s : State), groupOn g s = true ∧ groupActive g s = true ∧ g ≠ 8 ∧ s.dev.role = .body) ∧
    (∃ g, ∃ (s : State), groupOn g s = true ∧ (groupOf g s).state < 3) ∧
    (∃ g, ∃ (s : State), groupOn g s = true ∧ 3 ≤ (groupOf g s).state ∧ g < s.links.length) :=
  ⟨⟨2, [1], true, { run .body [(F.LINK_ENABLE, 2, 1), (F.LINK_MODE, 2, 1), (F.LINK_WIDTH, 2, 1), (F.LINK_FIRST_LANE, 2, 5), (F.LANE_PROTO, 4, 1), (F.LANE_RATE, 5, 16)] with links := List.replicate 9 { state := 5 } }, by decide +kernel⟩,
   ⟨2, mkCell 3 true true 0 0 (wordBytes [1, 2, 3]), true, { run .body [(F.LINK_ENABLE, 2, 1), (F.LINK_MODE, 2, 1), (F.LINK_WIDTH, 2, 1), (F.LINK_FIRST_LANE, 2, 5), (F.LANE_PROTO, 4, 1), (F.LANE_RATE, 5, 16)] with links := List.replicate 9 { state := 5 } }, by decide +kernel⟩,
   ⟨2, run .integrated [], by decide +kernel⟩,
   ⟨2, { run .body [(F.LINK_ENABLE, 2, 1), (F.LINK_MODE, 2, 1), (F.LINK_WIDTH, 2, 1), (F.LINK_FIRST_LANE, 2, 5), (F.LANE_PROTO, 4, 1), (F.LANE_RATE, 5, 16)] with links := List.replicate 9 { state := 5 } }, by decide +kernel⟩,
   ⟨2, 1, { run .body [(F.LINK_ENABLE, 2, 1), (F.LINK_MODE, 2, 1), (F.LINK_WIDTH, 2, 1), (F.LINK_FIRST_LANE, 2, 5), (F.LANE_PROTO, 4, 1), (F.LANE_RATE, 5, 16)] with links := List.replicate 9 { state := 5, ctrlQ := [⟨1, []⟩] } }, by decide +kernel⟩,
   ⟨2, 1, { run .body [(F.LINK_ENABLE, 2, 1), (F.LINK_MODE, 2, 1), (F.LINK_WIDTH, 2, 1), (F.LINK_FIRST_LANE, 2, 5), (F.LANE_PROTO, 4, 1), (F.LANE_RATE, 5, 16)] with links := List.replicate 9 { state := 5, offer := [4, 4, 4] } }, by decide +kernel⟩,
   ⟨2, [1], true, { run .body [(F.LINK_ENABLE, 2, 1), (F.LINK_MODE, 2, 1), (F.LINK_WIDTH, 2, 1), (F.LINK_FIRST_LANE, 2, 5), (F.LANE_PROTO, 4, 1), (F.LANE_RATE, 5, 16)] with links := List.replicate 9 { state := 5 } }, by decide +kernel⟩,
   ⟨2, mkCell 1 true true 0 0 (wordBytes [1]), true, { run .body [(F.LINK_ENABLE, 2, 1), (F.LINK_MODE, 2, 1), (F.LINK_WIDTH, 2, 1), (F.LINK_FIRST_LANE, 2, 5), (F.LANE_PROTO, 4, 1), (F.LANE_RATE, 5, 16)] with links := List.replicate 9 { state := 5 } }, by decide +kernel⟩,
   ⟨2, { run .body [(F.LINK_ENABLE, 2, 1), (F.LINK_MODE, 2, 1), (F.LINK_WIDTH, 2, 1), (F.LINK_FIRST_LANE, 2, 5), (F.LANE_PROTO, 4, 1), (F.LANE_RATE, 5, 16)] with links := List.replicate 9 { state := 5, ctrlOut := true, repeats := 7 } }, by decide +kernel⟩,
   ⟨2, { run .body [(F.LINK_ENABLE, 2, 1), (F.LINK_MODE, 2, 1), (F.LINK_WIDTH, 2, 1), (F.LINK_FIRST_LANE, 2, 5), (F.LANE_PROTO, 4, 1), (F.LANE_RATE, 5, 16)] with links := List.replicate 9 { state := 5, ctrlOut := true, repeats := 8 } }, by decide +kernel⟩,
   ⟨2, { run .head [(F.LINK_ENABLE, 2, 1), (F.LINK_MODE, 2, 1), (F.LINK_WIDTH, 2, 1), (F.LINK_FIRST_LANE, 2, 5), (F.LANE_PROTO, 4, 1), (F.LANE_RATE, 5, 16)] with links := List.replicate 9 { state := 5 } }, by decide +kernel⟩,
   ⟨2, { run .body [(F.LINK_ENABLE, 2, 1), (F.LINK_MODE, 2, 1), (F.LINK_WIDTH, 2, 1), (F.LINK_FIRST_LANE, 2, 5), (F.LANE_PROTO, 4, 1), (F.LANE_RATE, 5, 16)] with links := List.replicate 9 { state := 5 } }, by decide +kernel⟩,
   ⟨2, [9], { run .body [(F.LINK_ENABLE, 2, 1), (F.LINK_MODE, 2, 1), (F.LINK_WIDTH, 2, 1), (F.LINK_FIRST_LANE, 2, 5), (F.LANE_PROTO, 4, 1), (F.LANE_RATE, 5, 16)] with links := List.replicate 9 { state := 5 } }, by decide +kernel⟩,
   ⟨2, [0x03000009, 0x01001007], { run .body [(F.LINK_ENABLE, 2, 1), (F.LINK_MODE, 2, 1), (F.LINK_WIDTH, 2, 1), (F.LINK_FIRST_LANE, 2, 5), (F.LANE_PROTO, 4, 1), (F.LANE_RATE, 5, 16)] with links := List.replicate 9 { state := 5, ctrlIn := 9 } }, by decide +kernel⟩,
   ⟨2, { run .body [(F.LINK_ENABLE, 2, 1), (F.LINK_MODE, 2, 1), (F.LINK_WIDTH, 2, 1), (F.LINK_FIRST_LANE, 2, 5), (F.LANE_PROTO, 4, 1), (F.LANE_RATE, 5, 16)] with links := List.replicate 9 { state := 5 } }, by decide +kernel⟩,
   ⟨2, { run .body [(F.LINK_ENABLE, 2, 1), (F.LINK_MODE, 2, 1), (F.LINK_WIDTH, 2, 1), (F.LINK_FIRST_LANE, 2, 5), (F.LANE_PROTO, 4, 1), (F.LANE_RATE, 5, 16)] with links := List.replicate 9 { state := 2 } }, by decide +kernel⟩,
   ⟨2, { run .body [(F.LINK_ENABLE, 2, 1), (F.LINK_MODE, 2, 1), (F.LINK_WIDTH, 2, 1), (F.LINK_FIRST_LANE, 2, 5), (F.LANE_PROTO, 4, 1), (F.LANE_RATE, 5, 16)] with links := List.replicate 9 { state := 3 } }, by decide +kernel⟩⟩

/-- The hypotheses of each clause of Obligations.CellsReadBack, met together. -/
theorem wit_CellsReadBack :
    (∃ (b : List Bool), b.length % 2 = 0) ∧
    (∃ typ, ∃ stream, ∃ seq, ∃ (first : Bool), ∃ (last : Bool), ∃ (ws : List Word), ∃ (c : List Byte), ∃ k, typ < 16 ∧ stream < 4 ∧ seq < 256 ∧ ws.length = 32 ∧ c = mkCell typ first last stream seq (wordBytes ws) ∧ k < 16) ∧
    (∃ typ, ∃ stream, ∃ seq, ∃ (first : Bool), ∃ (last : Bool), ∃ (ws : List Word), ∃ (c : List Byte), typ < 16 ∧ stream < 4 ∧ seq < 256 ∧ ws.length = 32 ∧ c = mkCell typ first last stream seq (wordBytes ws)) :=
  ⟨⟨[true, false], by decide +kernel⟩,
   ⟨5, 3, 255, true, false, (List.replicate 32 (9 : Word)), mkCell 5 true false 3 255 (wordBytes (List.replicate 32 (9 : Word))), 15, by decide +kernel⟩,
   ⟨5, 3, 255, true, false, (List.replicate 32 (9 : Word)), mkCell 5 true false 3 255 (wordBytes (List.replicate 32 (9 : Word))), by decide +kernel⟩⟩

/-- The hypotheses of each clause of Obligations.TodCounter, met together. -/
theorem wit_TodCounter :
    (∃ (s : State), s.dev.state = .ready) ∧
    (∃ (s : State), s.time.running = true) ∧
    (∃ (s : State), s.time.running = false) ∧
    (∃ (t : TimeState), t.sub < subPerSec ∧ t.inc < subPerSec ∧ t.sec + 1 < 2 ^ 48 ∧ t.sub + t.inc < subPerSec) ∧
    (∃ (t : TimeState), t.sub < subPerSec ∧ t.inc < subPerSec ∧ t.sec + 1 < 2 ^ 48 ∧ subPerSec ≤ t.sub + t.inc) :=
  ⟨⟨at0 .ready .integrated [], by decide +kernel⟩,
   ⟨{ run .integrated [] with time := { running := true } }, by decide +kernel⟩,
   ⟨run .integrated [], by decide +kernel⟩,
   ⟨{ running := true, sec := 9, sub := 7 }, by decide +kernel⟩,
   ⟨{ running := true, sec := 9, sub := subPerSec - 1 }, by decide +kernel⟩⟩

/-- The hypotheses of each clause of Obligations.PtpAndServo, met together. -/
theorem wit_PtpAndServo :
    (∃ m, ∃ (g : PtpMsg), ∃ (s : State), fromParent m g s = false) ∧
    (∃ m, ∃ (g : PtpMsg), ∃ (s : State), fromParent m g s = true ∧ g.twoStep = true) ∧
    (∃ m, ∃ (g : PtpMsg), ∃ (s : State), fromParent m g s = true ∧ g.twoStep = false) ∧
    (∃ m, ∃ (g : PtpMsg), ∃ (s : State), ∃ (y : PtpMsg), fromParent m g s = true ∧ (s.time.ptp.getD m {}).sync = some y ∧ y.seq = g.seq ∧ y.srcClock = g.srcClock ∧ y.srcPort = g.srcPort) ∧
    (∃ m, ∃ (a : AnnounceMsg), ∃ (s : State), ptpOn m s = true ∧ a.domain = ptpDomain s ∧ (a.srcClock = clockIdentity s ∨ 255 ≤ a.stepsRemoved)) ∧
    (∃ m, ∃ (a : AnnounceMsg), ∃ (s : State), ptpOn m s = true ∧ a.domain = ptpDomain s ∧ a.srcClock ≠ clockIdentity s ∧ a.stepsRemoved < 255) ∧
    (∃ m, ∃ (g : PtpMsg), ∃ (s : State), ptpOn m s = true ∧ g.domain = ptpDomain s ∧ (s.time.ptp.getD m {}).portState = 6) ∧
    (∃ m, ∃ (g : PtpMsg), ∃ (s : State), ptpOn m s = true ∧ g.domain = ptpDomain s ∧ (s.time.ptp.getD m {}).portState ≠ 6) ∧
    (∃ m, ∃ (g : PtpMsg), ∃ sq, ∃ (t3 : Tod), ∃ (ms : Int), ∃ (s : State), fromParent m g s = true ∧ (s.time.ptp.getD m {}).delayReq = some (sq, t3) ∧ (s.time.ptp.getD m {}).masterToSlave = some ms ∧ g.seq = sq ∧ g.reqClock = clockIdentity s ∧ g.reqPort = m + 1 ∧ m < s.time.ptp.length) ∧
    (∃ m, ∃ (s : State), ptpOn m s = true ∧ m < s.time.ptp.length ∧ (s.time.ptp.getD m {}).portState = 6) ∧
    (∃ m, ∃ (s : State), ptpOn m s = true ∧ m < s.time.ptp.length ∧ (s.time.ptp.getD m {}).portState = 9 ∧ (s.time.ptp.getD m {}).txq.length < 64) ∧
    (∃ (s : State), (s.time.clk = 1 ∨ s.time.clk = 2)) ∧
    (∃ (s : State), (s.time.clk = 0 ∨ s.time.clk = 3) ∧ s.time.parent = none ∧ s.dev.role = .head) ∧
    (∃ (s : State), (s.time.clk = 0 ∨ s.time.clk = 3) ∧ s.time.parent = none ∧ s.dev.role ≠ .head) ∧
    (∃ (s : State), ∃ i, ∃ (a : AnnounceMsg), (s.time.clk = 0 ∨ s.time.clk = 3) ∧ s.time.parent = some (i, a)) ∧
    (∃ (s : State), s.time.clk = 0) ∧
    (∃ (s : State), s.time.clk ≠ 0 ∧ s.time.clk = 3) :=
  ⟨⟨1, ⟨127, 5, 1, 77, true, ⟨9, 0⟩, 0, ⟨9, 65536⟩, 0xFFFE000000, 2⟩, run .integrated [], by decide +kernel⟩,
   ⟨1, ⟨127, 5, 1, 77, true, ⟨9, 0⟩, 0, ⟨9, 65536⟩, 0xFFFE000000, 2⟩, { run .integrated [(F.PTP_ENABLE, 1, 1)] with time := { ptp := List.replicate 4 { portState := 9 }, parent := some (1, ⟨127, 5, 1, 0, 6, 0x21, 0, 0, 5, 0, 37, true⟩) } }, by decide +kernel⟩,
   ⟨1, ⟨127, 5, 1, 77, false, ⟨9, 0⟩, 0, ⟨9, 65536⟩, 0xFFFE000000, 2⟩, { run .integrated [(F.PTP_ENABLE, 1, 1)] with time := { ptp := List.replicate 4 { portState := 9 }, parent := some (1, ⟨127, 5, 1, 0, 6, 0x21, 0, 0, 5, 0, 37, true⟩) } }, by decide +kernel⟩,
   ⟨1, ⟨127, 5, 1, 77, true, ⟨9, 0⟩, 0, ⟨9, 65536⟩, 0xFFFE000000, 2⟩, { run .integrated [(F.PTP_ENABLE, 1, 1)] with time := { ptp := List.replicate 4 { portState := 9, sync := some ⟨127, 5, 1, 77, true, ⟨9, 0⟩, 0, ⟨9, 65536⟩, 0xFFFE000000, 2⟩ }, parent := some (1, ⟨127, 5, 1, 0, 6, 0x21, 0, 0, 5, 0, 37, true⟩) } }, ⟨127, 5, 1, 77, true, ⟨9, 0⟩, 0, ⟨9, 65536⟩, 0xFFFE000000, 2⟩, by decide +kernel⟩,
   ⟨1, ⟨127, 5, 1, 0, 6, 0x21, 0, 0, 5, 255, 37, true⟩, { run .integrated [(F.PTP_ENABLE, 1, 1)] with time := { ptp := List.replicate 4 {  } } }, by decide +kernel⟩,
   ⟨1, ⟨127, 5, 1, 0, 6, 0x21, 0, 0, 5, 0, 37, true⟩, { run .integrated [(F.PTP_ENABLE, 1, 1)] with time := { ptp := List.replicate 4 {  } } }, by decide +kernel⟩,
   ⟨1, ⟨127, 5, 1, 77, true, ⟨9, 0⟩, 0, ⟨9, 65536⟩, 0xFFFE000000, 2⟩, { run .integrated [(F.PTP_ENABLE, 1, 1)] with time := { ptp := List.replicate 4 { portState := 6 } } }, by decide +kernel⟩,
   ⟨1, ⟨127, 5, 1, 77, true, ⟨9, 0⟩, 0, ⟨9, 65536⟩, 0xFFFE000000, 2⟩, { run .integrated [(F.PTP_ENABLE, 1, 1)] with time := { ptp := List.replicate 4 {  } } }, by decide +kernel⟩,
   ⟨1, ⟨127, 5, 1, 77, true, ⟨9, 0⟩, 0, ⟨9, 65536⟩, 0xFFFE000000, 2⟩, 77, ⟨9, 5⟩, 3, { run .integrated [(F.PTP_ENABLE, 1, 1)] with time := { ptp := List.replicate 4 { portState := 9, delayReq := some (77, ⟨9, 5⟩), masterToSlave := some 3 }, parent := some (1, ⟨127, 5, 1, 0, 6, 0x21, 0, 0, 5, 0, 37, true⟩) } }, by decide +kernel⟩,
   ⟨1, { run .integrated [(F.PTP_ENABLE, 1, 1)] with time := { ptp := List.replicate 4 { portState := 6 } } }, by decide +kernel⟩,
   ⟨1, { run .integrated [(F.PTP_ENABLE, 1, 1)] with time := { ptp := List.replicate 4 { portState := 9 } } }, by decide +kernel⟩,
   ⟨{ run .integrated [] with time := { clk := 1 } }, by decide +kernel⟩,
   ⟨run .head [], by decide +kernel⟩,
   ⟨run .integrated [], by decide +kernel⟩,
   ⟨{ run .integrated [] with time := { parent := some (1, ⟨127, 5, 1, 0, 6, 0x21, 0, 0, 5, 0, 37, true⟩) } }, 1, ⟨127, 5, 1, 0, 6, 0x21, 0, 0, 5, 0, 37, true⟩, by decide +kernel⟩,
   ⟨run .integrated [], by decide +kernel⟩,
   ⟨{ run .integrated [] with time := { clk := 3 } }, by decide +kernel⟩⟩

/-- A number of steps of the island's clock longer than its largest delay matters. -/
def lateSteps : Nat := 1048576

/-- A stamp late enough for any delay of input 1. -/
def lateStamp : Tod := ⟨0, 4096 * (Config.islandDelay 1 0 + lateSteps)⟩

theorem tod_round (m : Nat) : (todUnits ⟨0, 4096 * m⟩ + 2048) / 4096 * 4096 = 4096 * m := by
  have : todUnits ⟨0, 4096 * m⟩ = 4096 * m := by unfold todUnits; rw [Nat.zero_mul, Nat.zero_add]
  rw [this]; omega

theorem todUnits_todOfUnits (v : Nat) : todUnits (todOfUnits v) = v := by
  unfold todUnits todOfUnits
  exact Nat.div_add_mod' _ _

theorem apart_zero {v : Nat} (h : 2 * 65536 ≤ v) : apart 2 ⟨0, 0⟩ (todOfUnits v) = true := by
  have h0 : todUnits ⟨0, 0⟩ = 0 := by simp [todUnits]
  rw [apart, todUnits_todOfUnits, decide_eq_true_eq, h0, Nat.zero_add]
  exact h

theorem late_sub (d k : Nat) : ((4096 * (d + k) : Nat) : Int) - (d : Int) = ((4095 * d + 4096 * k : Nat) : Int) := by omega

theorem apart_late : apart 2 ⟨0, 0⟩ (islandStamp 1 0 lateStamp) = true := by
  rw [islandStamp, lateStamp, tod_round, late_sub]
  exact apart_zero (Nat.le_trans (by decide) (Nat.le_add_left (4096 * lateSteps) _))

/-- A running island whose strobe inputs rose at `a`. -/
def roseAt (a : Tod) : State :=
  { run .integrated [] with isl := { running := true, strobes := List.replicate 4 { rising := some (a, 1, 0) } } }

theorem roseAt_running (a : Tod) : (roseAt a).isl.running = true := rfl

theorem roseAt_rising (a : Tod) : ((roseAt a).isl.strobes.getD 1 {}).rising = some (a, 1, 0) := rfl

theorem apart_self (a : Tod) : apart 2 a a = false := by simp [apart]

theorem apart_self8 (a : Tod) : apart 8 a a = false := by simp [apart]

/-- A running island that takes pulses, whose last one rose at `a`. -/
def ppsAt (a : Tod) : State :=
  { run .integrated [] with isl := { running := true, ppsIn := some a }, islNv := { cfg := words [(F.ASY_CFG_PPS_IN_EN, 0, 1)] } }

theorem ppsAt_on (a : Tod) : asyN F.ASY_CFG_PPS_IN_EN (ppsAt a) = 1 := rfl

/-- The hypotheses of each clause of Obligations.IslandEvents, met together. -/
theorem wit_IslandEvents :
    (∃ (s : State), s.isl.running = false) ∧
    (∃ n, ∃ (b : Bool), ∃ (x : Tod), ∃ (t : Tod), ∃ (s : State), s.isl.running = true ∧ t = islandStamp n s.dev.elapsed x ∧ asserts n b s = true ∧ (s.isl.strobes.getD n {}).rising = none ∧ ((∀ f, (s.isl.strobes.getD n {}).fell = some f → apart 8 f t = true))) ∧
    (∃ n, ∃ (b : Bool), ∃ (x : Tod), ∃ (t : Tod), ∃ (s : State), s.isl.running = true ∧ t = islandStamp n s.dev.elapsed x ∧ asserts n b s = true ∧ ((s.isl.strobes.getD n {}).rising.isSome = true ∨ (∃ f, (s.isl.strobes.getD n {}).fell = some f ∧ apart 8 f t = false))) ∧
    (∃ n, ∃ (b : Bool), ∃ (x : Tod), ∃ (t : Tod), ∃ (s : State), s.isl.running = true ∧ t = islandStamp n s.dev.elapsed x ∧ asserts n b s = false ∧ (s.isl.strobes.getD n {}).rising = none) ∧
    (∃ n, ∃ (b : Bool), ∃ (x : Tod), ∃ (t : Tod), ∃ (s : State), ∃ a, ∃ c, ∃ d, s.isl.running = true ∧ t = islandStamp n s.dev.elapsed x ∧ asserts n b s = false ∧ (s.isl.strobes.getD n {}).rising = some (a, c, d) ∧ apart 2 a t = true) ∧
    (∃ n, ∃ (b : Bool), ∃ (x : Tod), ∃ (t : Tod), ∃ (s : State), ∃ a, ∃ c, ∃ d, s.isl.running = true ∧ t = islandStamp n s.dev.elapsed x ∧ asserts n b s = false ∧ (s.isl.strobes.getD n {}).rising = some (a, c, d) ∧ apart 2 a t = false) ∧
    (∃ (x : Tod), ∃ (u : Tod), ∃ (s : State), s.isl.running = true ∧ asyN F.ASY_CFG_PPS_IN_EN s ≠ 0 ∧ u = islandStamp 4 s.dev.elapsed x ∧ ((∃ f, s.isl.ppsIn = some f ∧ apart 8 f u = false))) ∧
    (∃ (x : Tod), ∃ (u : Tod), ∃ (s : State), s.isl.running = true ∧ asyN F.ASY_CFG_PPS_IN_EN s ≠ 0 ∧ u = islandStamp 4 s.dev.elapsed x ∧ ((∀ f, s.isl.ppsIn = some f → apart 8 f u = true))) ∧
    (∃ (s : State), asyN F.ASY_CFG_PPS_IN_EN s = 0) ∧
    (∃ (s : State), s.isl.running = true ∧ asyN F.ASY_CFG_PPS_OUT_EN s = 1 ∧ s.isl.ppsOff = false) ∧
    (∃ (s : State), s.isl.running = true ∧ asyN F.ASY_CFG_PPS_OUT_EN s = 1 ∧ s.isl.ppsOff = true) ∧
    (∃ (s : State), ((∀ n ∈ portSeams s, (islSeam n s).count < asyN F.ASY_CFG_SIGN_EVERY s ∨ (islSeam n s).count = 0))) ∧
    (∃ n, ∃ (s : State), ((portSeams s).find? (fun n => decide (asyN F.ASY_CFG_SIGN_EVERY s ≤ (islSeam n s).count ∧ 0 < (islSeam n s).count)) = some n) ∧ n < s.isl.seams.length) :=
  ⟨⟨run .integrated [], by decide +kernel⟩,
   ⟨1, true, ⟨5, 0⟩, _, { run .integrated [(F.SEAM_SRC_ENABLE, 2, 1)] with isl := { running := true } }, by decide +kernel, rfl, by decide +kernel, by decide +kernel, by intro f h; simp at h⟩,
   ⟨1, true, ⟨5, 0⟩, _, { run .integrated [(F.SEAM_SRC_ENABLE, 2, 1)] with isl := { running := true, strobes := List.replicate 4 { rising := some (⟨5, 0⟩, 1, 0) } } }, by decide +kernel, rfl, by decide +kernel, Or.inl (by decide +kernel)⟩,
   ⟨1, false, ⟨5, 0⟩, _, { run .integrated [(F.SEAM_SRC_ENABLE, 2, 1)] with isl := { running := true } }, by decide +kernel, rfl, by decide +kernel⟩,
   ⟨1, false, lateStamp, islandStamp 1 0 lateStamp, roseAt ⟨0, 0⟩, ⟨0, 0⟩, 1, 0, roseAt_running _, rfl, rfl, roseAt_rising _, apart_late⟩,
   ⟨1, false, ⟨5, 0⟩, islandStamp 1 0 ⟨5, 0⟩, roseAt (islandStamp 1 0 ⟨5, 0⟩), islandStamp 1 0 ⟨5, 0⟩, 1, 0, roseAt_running _, rfl, rfl, roseAt_rising _, apart_self _⟩,
   ⟨⟨5, 0⟩, islandStamp 4 0 ⟨5, 0⟩, ppsAt (islandStamp 4 0 ⟨5, 0⟩), rfl, by rw [ppsAt_on]; decide, rfl, ⟨_, rfl, apart_self8 _⟩⟩,
   ⟨⟨5, 0⟩, _, { run .integrated [(F.SEAM_SRC_ENABLE, 2, 1)] with isl := { running := true }, islNv := { cfg := words [(F.ASY_CFG_PPS_IN_EN, 0, 1)] } }, by decide +kernel, by decide +kernel, rfl, by intro f h; simp at h⟩,
   ⟨run .integrated [], by decide +kernel⟩,
   ⟨{ run .integrated [(F.SEAM_SRC_ENABLE, 2, 1)] with isl := { running := true }, islNv := { cfg := words [(F.ASY_CFG_PPS_OUT_EN, 0, 1)] } }, by decide +kernel⟩,
   ⟨{ run .integrated [(F.SEAM_SRC_ENABLE, 2, 1)] with isl := { running := true, ppsOff := true }, islNv := { cfg := words [(F.ASY_CFG_PPS_OUT_EN, 0, 1)] } }, by decide +kernel⟩,
   ⟨run .integrated [], by decide +kernel⟩,
   ⟨2, { run .integrated [(F.SEAM_SRC_ENABLE, 2, 1)] with isl := { running := true, seams := List.replicate 8 { count := 9 } }, islNv := { cfg := words [(F.ASY_CFG_SIGN_EVERY, 0, 5)] } }, by decide +kernel⟩⟩

/-- The hypotheses of each clause of Obligations.RedundancyEvents, met together. -/
theorem wit_RedundancyEvents :
    (∃ (s : State), redOn s = false) ∧
    (∃ (s : State), cageOn s = true) ∧
    (∃ (ws : List Word), ∃ (s : State), cageOn s = true ∧ (ws.getD 1 0).toNat < s.red.eb) ∧
    (∃ (ws : List Word), ∃ (s : State), cageOn s = true ∧ s.red.eb ≤ (ws.getD 1 0).toNat ∧ bits (ws.getD 0 0).toNat 2 0 = 5 ∧ s.red.state ≠ 1) ∧
    (∃ (s : State), redOn s = true ∧ s.red.state = 3) ∧
    (∃ (s : State), redOn s = true ∧ s.red.state = 2 ∧ s.red.triggered = false) ∧
    (∃ e, ∃ (s : State), cageOn s = true ∧ e < s.red.eb) ∧
    (∃ e, ∃ (s : State), cageOn s = true ∧ s.red.eb ≤ e) ∧
    (∃ e, ∃ (s : State), cageOn s = true ∧ e < s.red.eb) ∧
    (∃ e, ∃ (s : State), cageOn s = true ∧ s.red.eb ≤ e) ∧
    (∃ (k : StateCopy), ∃ (s : State), cageOn s = true ∧ (s.red.state = 2 ∨ s.red.state = 3) ∧ k.whole = true ∧ k.fwMajor ≠ fwMajor s) ∧
    (∃ (k : StateCopy), ∃ (s : State), cageOn s = true ∧ (s.red.state = 2 ∨ s.red.state = 3) ∧ k.whole = true ∧ k.fwMajor = fwMajor s ∧ k.eb = s.red.eb ∧ k.sequence = wrapInc 32 s.red.copySeq) ∧
    (∃ (k : StateCopy), ∃ (s : State), cageOn s = true ∧ (s.red.state = 2 ∨ s.red.state = 3) ∧ k.whole = true ∧ k.fwMajor = fwMajor s ∧ k.eb ≠ s.red.eb) ∧
    (∃ (s : State), s.red.state ≠ 2 ∧ s.red.state ≠ 3) ∧
    (∃ e, ∃ (s : State), cageOn s = true ∧ e < s.red.eb) ∧
    (∃ e, ∃ (s : State), cageOn s = true ∧ s.red.eb ≤ e ∧ s.red.state = 3 ∧ (s.red.peer.map (·.copySeq)).getD 0 ≤ s.red.copySeq) ∧
    (∃ (s : State), redOn s = true ∧ s.red.state = 3 ∧ s.red.triggered = true) ∧
    (∃ (s : State), redOn s = true ∧ s.red.triggered = false) ∧
    (∃ (s : State), redOn s = true ∧ s.red.state = 5 ∧ shaftActive s = true) ∧
    (∃ (s : State), redOn s = true ∧ s.red.state = 5 ∧ shaftActive s = false) ∧
    (∃ (s : State), redOn s = true ∧ s.red.state = 1 ∧ cfgB F.RED_PREF 0 s = true ∧ shaftActive s = true) ∧
    (∃ (s : State), redOn s = true ∧ s.red.state = 1 ∧ cfgB F.RED_PREF 0 s = false) ∧
    (∃ g, ∃ (s : State), redOn s = true ∧ s.red.state = 5 ∧ g < 8 ∧ groupOn g s = true ∧ groupActive g s = true ∧ s.dev.elapsed < (groupOf g s).downSince + hbTicks s) ∧
    (∃ g, ∃ (s : State), redOn s = true ∧ s.red.state = 5 ∧ g < 8 ∧ groupOn g s = true ∧ groupActive g s = true ∧ (groupOf g s).downSince + hbTicks s ≤ s.dev.elapsed) ∧
    (∃ (s : State), redOn s = true ∧ s.red.state ≠ 5 ∧ s.red.releasedAt.isSome = true ∧ s.red.fallback = false) ∧
    (∃ (s : State), redOn s = true ∧ s.red.state ≠ 5 ∧ (s.red.releasedAt = none ∨ s.red.fallback = true)) :=
  ⟨⟨run .integrated [], by decide +kernel⟩,
   ⟨{ run .body [(F.RED_ENABLE, 0, 1), (F.LINK_ENABLE, 8, 1)] with red := {  } }, by decide +kernel⟩,
   ⟨[0, 3], { run .body [(F.RED_ENABLE, 0, 1), (F.LINK_ENABLE, 8, 1)] with red := { eb := 4 } }, by decide +kernel⟩,
   ⟨[5, 3], { run .body [(F.RED_ENABLE, 0, 1), (F.LINK_ENABLE, 8, 1)] with red := { eb := 3, state := 2 } }, by decide +kernel⟩,
   ⟨{ run .body [(F.RED_ENABLE, 0, 1), (F.LINK_ENABLE, 8, 1)] with red := { state := 3 } }, by decide +kernel⟩,
   ⟨{ run .body [(F.RED_ENABLE, 0, 1), (F.LINK_ENABLE, 8, 1)] with red := { state := 2 } }, by decide +kernel⟩,
   ⟨3, { run .body [(F.RED_ENABLE, 0, 1), (F.LINK_ENABLE, 8, 1)] with red := { eb := 4 } }, by decide +kernel⟩,
   ⟨4, { run .body [(F.RED_ENABLE, 0, 1), (F.LINK_ENABLE, 8, 1)] with red := { eb := 4 } }, by decide +kernel⟩,
   ⟨3, { run .body [(F.RED_ENABLE, 0, 1), (F.LINK_ENABLE, 8, 1)] with red := { eb := 4 } }, by decide +kernel⟩,
   ⟨4, { run .body [(F.RED_ENABLE, 0, 1), (F.LINK_ENABLE, 8, 1)] with red := { eb := 4 } }, by decide +kernel⟩,
   ⟨{ (default : StateCopy) with whole := true, fwMajor := 3 }, { run .body [(F.RED_ENABLE, 0, 1), (F.LINK_ENABLE, 8, 1)] with red := { state := 2 } }, by decide +kernel⟩,
   ⟨{ (default : StateCopy) with whole := true, fwMajor := 0, eb := 4, sequence := 9 }, { run .body [(F.RED_ENABLE, 0, 1), (F.LINK_ENABLE, 8, 1)] with red := { state := 2, eb := 4, copySeq := 8 } }, by decide +kernel⟩,
   ⟨{ (default : StateCopy) with whole := true, fwMajor := 0, eb := 3, sequence := 9 }, { run .body [(F.RED_ENABLE, 0, 1), (F.LINK_ENABLE, 8, 1)] with red := { state := 2, eb := 4, copySeq := 8 } }, by decide +kernel⟩,
   ⟨run .integrated [], by decide +kernel⟩,
   ⟨3, { run .body [(F.RED_ENABLE, 0, 1), (F.LINK_ENABLE, 8, 1)] with red := { eb := 4 } }, by decide +kernel⟩,
   ⟨4, { run .body [(F.RED_ENABLE, 0, 1), (F.LINK_ENABLE, 8, 1)] with red := { eb := 4, state := 3, copySeq := 8, peer := some ⟨5, 0, 0, 4, 2, 8, 0⟩ } }, by decide +kernel⟩,
   ⟨{ run .body [(F.RED_ENABLE, 0, 1), (F.LINK_ENABLE, 8, 1)] with red := { state := 3, triggered := true } }, by decide +kernel⟩,
   ⟨{ run .body [(F.RED_ENABLE, 0, 1), (F.LINK_ENABLE, 8, 1)] with red := {  } }, by decide +kernel⟩,
   ⟨{ run .body [(F.RED_ENABLE, 0, 1), (F.LINK_ENABLE, 2, 1)] with red := { state := 5 }, links := List.replicate 9 { state := 5 } }, by decide +kernel⟩,
   ⟨{ run .body [(F.RED_ENABLE, 0, 1), (F.LINK_ENABLE, 8, 1)] with red := { state := 5 } }, by decide +kernel⟩,
   ⟨{ run .body [(F.RED_ENABLE, 0, 1), (F.LINK_ENABLE, 2, 1), (F.RED_PREF, 0, 1)] with red := { state := 1 }, links := List.replicate 9 { state := 5 } }, by decide +kernel⟩,
   ⟨{ run .body [(F.RED_ENABLE, 0, 1), (F.LINK_ENABLE, 8, 1), (F.RED_PREF, 0, 0)] with red := { state := 1 } }, by decide +kernel⟩,
   ⟨2, { run .body [(F.RED_ENABLE, 0, 1), (F.LINK_ENABLE, 2, 1)] with red := { state := 5 }, links := List.replicate 9 { state := 5, downSince := 5 } }, by decide +kernel⟩,
   ⟨2, { run .body [(F.RED_ENABLE, 0, 1), (F.LINK_ENABLE, 2, 1), (F.SEAM_GEOM_FPS_NUM, 0, 60), (F.SEAM_GEOM_FPS_DEN, 0, 1)] with red := { state := 5 }, links := List.replicate 9 { state := 5 }, dev := { state := .running, role := .body, powered := true, elapsed := 800000000 } }, by decide +kernel⟩,
   ⟨{ run .body [(F.RED_ENABLE, 0, 1), (F.LINK_ENABLE, 8, 1)] with red := { releasedAt := some 5 } }, by decide +kernel⟩,
   ⟨{ run .body [(F.RED_ENABLE, 0, 1), (F.LINK_ENABLE, 8, 1)] with red := {  } }, by decide +kernel⟩⟩

/-- The hypotheses of each clause of Obligations.OutputsAndPanels, met together. -/
theorem wit_OutputsAndPanels :
    (∃ (o : OutId), ∃ (s : State), (outOn o s = false ∨ outVideo o s.cfg.accepted = false)) ∧
    (∃ (o : OutId), ∃ (e : Nat), ∃ (r : OutRing), ∃ (s : State), outOn o s = true ∧ outVideo o s.cfg.accepted = true ∧ e = srcEpoch (outSrc o s.cfg.accepted).1 (outSrc o s.cfg.accepted).2 s ∧ r = srcRing (outSrc o s.cfg.accepted).1 (outSrc o s.cfg.accepted).2 s ∧ newestCurrent e r = none) ∧
    (∃ (o : OutId), ∃ (i : Nat), ∃ (e : Nat), ∃ (r : OutRing), ∃ (s : State), outOn o s = true ∧ outVideo o s.cfg.accepted = true ∧ e = srcEpoch (outSrc o s.cfg.accepted).1 (outSrc o s.cfg.accepted).2 s ∧ r = srcRing (outSrc o s.cfg.accepted).1 (outSrc o s.cfg.accepted).2 s ∧ newestCurrent e r = some i ∧ (r.bufs.getD i {}).order = (outputOf o s).order) ∧
    (∃ (o : OutId), ∃ (i : Nat), ∃ (e : Nat), ∃ (r : OutRing), ∃ (s : State), outOn o s = true ∧ outVideo o s.cfg.accepted = true ∧ e = srcEpoch (outSrc o s.cfg.accepted).1 (outSrc o s.cfg.accepted).2 s ∧ r = srcRing (outSrc o s.cfg.accepted).1 (outSrc o s.cfg.accepted).2 s ∧ newestCurrent e r = some i ∧ (r.bufs.getD i {}).order ≠ (outputOf o s).order) ∧
    (∃ k, ∃ (s : State), k < s.out.sdi.length ∧ (outputOf (.sdi k) s).held.isSome = true ∧ (((outputOf (.sdi k) s).hold = 0 ∨ (outputOf (.sdi k) s).run < (outputOf (.sdi k) s).hold))) ∧
    (∃ k, ∃ (s : State), k < s.out.sdi.length ∧ (outputOf (.sdi k) s).held = none ∧ (outputOf (.sdi k) s).noted = true) ∧
    (∃ k, ∃ (s : State), k < s.out.sdi.length ∧ (outputOf (.sdi k) s).held = none ∧ (outputOf (.sdi k) s).noted = false ∧ outActive s = true) ∧
    (∃ (o : OutId), ∃ (s : State), outOn o s = true ∧ outVideo o s.cfg.accepted = true ∧ outActive s = false) ∧
    (∃ k, ∃ (s : State), outOn (.sdi k) s = true ∧ outActive s = true ∧ k < s.out.sdi.length) ∧
    (∃ n, ∃ (s : State), outOn (.snd n) s = true ∧ cfgN F.SND_KIND n s ≠ 1 ∧ outActive s = true ∧ n < s.out.snd.length) ∧
    (∃ (limit : Int), ∃ (d : Divider), 0 ≤ limit ∧ -limit ≤ d.offset ∧ d.offset ≤ limit) ∧
    (∃ n, ∃ (s : State), outOn (.snd n) s = true ∧ cfgN F.SND_KIND n s = 1 ∧ outActive s = true) ∧
    (∃ (s : State), outActive s = false) ∧
    (∃ k, ∃ (s : State), vfOn k s = true ∧ outActive s = false) ∧
    (∃ k, ∃ (s : State), vfOn k s = true ∧ outActive s = true) ∧
    (∃ k, ∃ (s : State), vfOn k s = true ∧ outActive s = true ∧ (vfOf k s).timer = false) ∧
    (∃ k, ∃ (s : State), vfOn k s = true ∧ (vfOf k s).timer = true) ∧
    (∃ k, ∃ (s : State), vfOn k s = true ∧ outActive s = true ∧ (vfOf k s).timer = true) ∧
    (∃ k, ∃ (s : State), vfOn k s = true ∧ (vfOf k s).timer = false) ∧
    (∃ k, ∃ (s : State), vfOn k s = true ∧ F.VF_SRC_TAP_EN.on k s.cfg.accepted = true ∧ F.VF_SRC_BLANK_MS.get k (vfOf k s).bound ≠ 0 ∧ (vfOf k s).blanked = false ∧ (vfOf k s).lastBuf + F.VF_SRC_BLANK_MS.get k (vfOf k s).bound * ticksPerMs ≤ s.dev.elapsed) ∧
    (∃ k, ∃ (s : State), vfOn k s = true ∧ (vfOf k s).blanked = true) :=
  ⟨⟨.sdi 2, run .integrated [], Or.inl (by decide +kernel)⟩,
   ⟨.sdi 2, _, _, { run .integrated [(F.SDI_ENABLE, 2, 1)] with out := {  } }, by decide +kernel, by decide +kernel, rfl, rfl, rfl⟩,
   ⟨.sdi 2, 0, _, _, { run .integrated [(F.SDI_ENABLE, 2, 1)] with cap := { taps := List.replicate 8 { bufs := [{ writeSeq := 1, order := 3 }] } }, out := { sdi := List.replicate 4 { order := 3 } } }, by decide +kernel, by decide +kernel, rfl, rfl, rfl, rfl⟩,
   ⟨.sdi 2, 0, _, _, { run .integrated [(F.SDI_ENABLE, 2, 1)] with cap := { taps := List.replicate 8 { bufs := [{ writeSeq := 1, order := 3 }] } } }, by decide +kernel, by decide +kernel, rfl, rfl, rfl, by decide +kernel⟩,
   ⟨2, { run .integrated [(F.SDI_ENABLE, 2, 1)] with out := { sdi := List.replicate 4 { held := some {}, hold := 9, run := 8 } } }, by decide +kernel⟩,
   ⟨2, { run .integrated [(F.SDI_ENABLE, 2, 1)] with out := { sdi := List.replicate 4 { noted := true } } }, by decide +kernel⟩,
   ⟨2, { run .integrated [(F.SDI_ENABLE, 2, 1)] with out := {  } }, by decide +kernel⟩,
   ⟨.sdi 2, { run .body [(F.SDI_ENABLE, 2, 1), (F.RED_ENABLE, 0, 1), (F.VF_PANEL_ENABLE, 1, 1)] with red := { state := 2 } }, by decide +kernel⟩,
   ⟨2, { run .integrated [(F.SDI_ENABLE, 2, 1)] with out := {  } }, by decide +kernel⟩,
   ⟨9, run .integrated [(F.SND_ENABLE, 9, 1), (F.SND_KIND, 9, 0)], by decide +kernel⟩,
   ⟨50, { offset := -50 }, by decide +kernel⟩,
   ⟨9, run .integrated [(F.SND_ENABLE, 9, 1), (F.SND_KIND, 9, 1)], by decide +kernel⟩,
   ⟨{ run .body [(F.SDI_ENABLE, 2, 1), (F.RED_ENABLE, 0, 1), (F.VF_PANEL_ENABLE, 1, 1)] with red := { state := 2 } }, by decide +kernel⟩,
   ⟨1, { run .body [(F.RED_ENABLE, 0, 1), (F.VF_PANEL_ENABLE, 1, 1)] with red := { state := 2 } }, by decide +kernel⟩,
   ⟨1, run .integrated [(F.VF_PANEL_ENABLE, 1, 1)], by decide +kernel⟩,
   ⟨1, run .integrated [(F.VF_PANEL_ENABLE, 1, 1)], by decide +kernel⟩,
   ⟨1, { run .integrated [(F.VF_PANEL_ENABLE, 1, 1)] with out := { views := List.replicate 2 { timer := true } } }, by decide +kernel⟩,
   ⟨1, { run .integrated [(F.VF_PANEL_ENABLE, 1, 1)] with out := { views := List.replicate 2 { timer := true } } }, by decide +kernel⟩,
   ⟨1, run .integrated [(F.VF_PANEL_ENABLE, 1, 1)], by decide +kernel⟩,
   ⟨1, { run .integrated [(F.VF_PANEL_ENABLE, 1, 1), (F.VF_SRC_TAP_EN, 1, 1)] with out := { views := List.replicate 2 { bound := words [(F.VF_SRC_BLANK_MS, 1, 5)] } }, dev := { state := .running, role := .integrated, powered := true, elapsed := 5 * ticksPerMs } }, by decide +kernel⟩,
   ⟨1, { run .integrated [(F.VF_PANEL_ENABLE, 1, 1)] with out := { views := List.replicate 2 { blanked := true } } }, by decide +kernel⟩⟩

/-- The hypotheses of each clause of Obligations.AudioPorts, met together. -/
theorem wit_AudioPorts :
    (∃ p, ∃ (s : State), audOn p s = false) ∧
    (∃ p, ∃ (b : Nat), ∃ (s : State), audOn p s = true ∧ cfgB F.AUD_DIR p s = true ∧ cfgB F.AUD_MASTER p s = false ∧ (audOf p s).noClock = false ∧ p < s.out.audio.length ∧ cfgB F.AUD_SRC p s = false ∧ (audOf p s).state = 2 ∧ b = (audOf p s).cur + 1) ∧
    (∃ p, ∃ (s : State), audOn p s = true ∧ cfgB F.AUD_DIR p s = true ∧ (audOf p s).noClock = false ∧ p < s.out.audio.length ∧ (audOf p s).state = 3) ∧
    (∃ p, ∃ (s : State), ((audOf p s).playing.isSome = true ∨ blockPresent p (audOf p s).cur s = false)) ∧
    (∃ p, ∃ (j : Nat), ∃ (s : State), audOn p s = true ∧ cfgB F.AUD_DIR p s = true ∧ cfgB F.AUD_MASTER p s = true ∧ (audOf p s).state = 2 ∧ (audOf p s).noClock = false ∧ (audOf p s).playing = none ∧ blockPresent p (audOf p s).cur s = true ∧ j = frameFrom (audRate p s.cfg.accepted) (ceilDiv (todUnits (nowTod s)) 65536 + 10000) - 64 * (audOf p s).cur ∧ j < 64) ∧
    (∃ p, ∃ (s : State), audOn p s = true ∧ cfgB F.AUD_DIR p s = false ∧ cfgB F.AUD_MASTER p s = false ∧ (audOf p s).state = 2 ∧ (audOf p s).noClock = false ∧ (audOf p s).first ≤ (audOf p s).cur ∧ (audOf p s).last = none ∧ p < s.out.audio.length) ∧
    (∃ p, ∃ (s : State), audOn p s = true ∧ (audOf p s).state = 3 ∧ (audOf p s).restart = false) ∧
    (∃ p, ∃ (s : State), audOn p s = true ∧ (audOf p s).state = 3 ∧ (audOf p s).restart = true) ∧
    (∃ p, ∃ (s : State), (audOf p s).state ≠ 3) ∧
    (∃ p, ∃ (s : State), slaveOn p s = true ∧ (audOf p s).noClock = false ∧ (audOf p s).state ≠ 0) ∧
    (∃ p, ∃ (s : State), slaveOn p s = true ∧ (audOf p s).noClock = true ∧ (audOf p s).state ≠ 3) ∧
    (∃ p, ∃ (s : State), slaveOn p s = true ∧ (audOf p s).noClock = true ∧ (audOf p s).state = 3) :=
  ⟨⟨5, run .integrated [], by decide +kernel⟩,
   ⟨5, 10, { run .integrated [(F.AUD_ENABLE, 5, 1), (F.AUD_DIR, 5, 1), (F.AUD_MASTER, 5, 0)] with out := { audio := List.replicate 8 { state := 2, cur := 9 } } }, by decide +kernel⟩,
   ⟨5, { run .integrated [(F.AUD_ENABLE, 5, 1), (F.AUD_DIR, 5, 1)] with out := { audio := List.replicate 8 { state := 3 } } }, by decide +kernel⟩,
   ⟨5, run .integrated [], by decide +kernel⟩,
   ⟨5, 0, { run .integrated [(F.AUD_ENABLE, 5, 1), (F.AUD_DIR, 5, 1), (F.AUD_MASTER, 5, 1)] with out := { audio := List.replicate 8 { state := 2, ring := [⟨7, ⟨0, 0⟩, []⟩], cur := 7 } }, time := { sub := 0 } }, by decide +kernel⟩,
   ⟨5, { run .integrated [(F.AUD_ENABLE, 5, 1)] with out := { audio := List.replicate 8 { state := 2 } } }, by decide +kernel⟩,
   ⟨5, { run .integrated [(F.AUD_ENABLE, 5, 1)] with out := { audio := List.replicate 8 { state := 3 } } }, by decide +kernel⟩,
   ⟨5, { run .integrated [(F.AUD_ENABLE, 5, 1)] with out := { audio := List.replicate 8 { state := 3, restart := true } } }, by decide +kernel⟩,
   ⟨5, run .integrated [], by decide +kernel⟩,
   ⟨5, { run .integrated [(F.AUD_ENABLE, 5, 1), (F.AUD_MASTER, 5, 0)] with out := { audio := List.replicate 8 { state := 2 } } }, by decide +kernel⟩,
   ⟨5, { run .integrated [(F.AUD_ENABLE, 5, 1), (F.AUD_MASTER, 5, 0)] with out := { audio := List.replicate 8 { state := 2, noClock := true } } }, by decide +kernel⟩,
   ⟨5, { run .integrated [(F.AUD_ENABLE, 5, 1), (F.AUD_MASTER, 5, 0)] with out := { audio := List.replicate 8 { state := 3, noClock := true } } }, by decide +kernel⟩⟩

/-- The hypotheses of each clause of Obligations.DramController, met together. -/
theorem wit_DramController :
    (∃ (a : Nat), ∃ (s : State), dramUsable s.cfg.accepted ≤ a) ∧
    (∃ c, ∃ a, ∃ (s : State), a < dramUsable s.cfg.accepted ∧ (dramOf c s).state ≠ 1) ∧
    (∃ c, ∃ a, ∃ (s : State), a < dramUsable s.cfg.accepted ∧ (dramOf c s).state = 1 ∧ dramChan a = c ∧ c < s.dram.chans.length) ∧
    (∃ c, c < 8) ∧
    (∃ c, ∃ k, ∃ d, ∃ j, c < 8 ∧ d < 8 ∧ burstAt c k = burstAt d j) ∧
    (∃ c, ∃ (r : DramReq), ∃ (s : State), nextRequest c s = some r ∧ (dramOf c s).state = 1 ∧ c < s.dram.chans.length ∧ r.data = none ∧ burstOf r.addr ∉ s.dram.poison) ∧
    (∃ c, ∃ (r : DramReq), ∃ (s : State), ∃ (l : List Byte), nextRequest c s = some r ∧ (dramOf c s).state = 1 ∧ c < s.dram.chans.length ∧ r.data = some l ∧ l.length = 64 ∧ r.addr % 64 = 0 ∧ Memory.wf s.dram.mem = true) ∧
    (∃ c, ∃ (s : State), nextRequest c s = none) ∧
    (∃ c, ∃ v, ∃ (s : State), (dramOf c s).state = 1 ∧ v % 8 = 7) ∧
    (∃ c, ∃ v, ∃ (s : State), (dramOf c s).state = 1 ∧ v % 8 ≠ 7) ∧
    (∃ c, ∃ (s : State), (dramOf c s).state ≠ 1) ∧
    (∃ c, ∃ (s : State), (dramOf c s).state = 1 ∧ c < s.dram.chans.length ∧ (dramOf c s).postponed < 8 ∧ ((∃ r ∈ (dramOf c s).queue, cfgN F.DRAM_CFG_AGE_NS 0 s ≤ waitNs r s))) ∧
    (∃ c, ∃ (s : State), (dramOf c s).state = 1 ∧ c < s.dram.chans.length ∧ 8 ≤ (dramOf c s).postponed) ∧
    (∃ c, ∃ (s : State), (dramOf c s).state = 1) ∧
    (∃ c, ∃ (a : Nat), ∃ (s : State), (dramOf c s).state = 1 ∧ cfgN F.DRAM_CFG_SCRUB_H 0 s ≠ 0 ∧ a = burstAt c (dramOf c s).scrub ∧ ((a < dramUsable s.cfg.accepted → a ∉ s.dram.poison)) ∧ c < s.dram.chans.length) ∧
    (∃ c, ∃ (goal : List Int), ∃ (s : State), (dramOf c s).state = 1 ∧ delayTargets c (phyTemp c s) s = some goal ∧ outsideBy c (phyTemp c s) s ≤ 160 ∧ c < s.dram.chans.length) :=
  ⟨⟨dramUsable State.reset.cfg.accepted, State.reset, by decide +kernel⟩,
   ⟨0, 0, State.reset, by decide +kernel⟩,
   ⟨0, 64, { run .integrated [] with dram := { chans := List.replicate 8 { state := 1 } } }, by decide +kernel⟩,
   ⟨7, by decide +kernel⟩,
   ⟨7, 3, 7, 3, by decide +kernel⟩,
   ⟨0, ⟨5, .control, 64, none, 0⟩, { run .integrated [] with dram := { chans := List.replicate 8 { state := 1, queue := [⟨5, .control, 64, none, 0⟩] } } }, by decide +kernel⟩,
   ⟨0, ⟨5, .control, 64, some (List.replicate 64 7), 0⟩, { run .integrated [] with dram := { chans := List.replicate 8 { state := 1, queue := [⟨5, .control, 64, some (List.replicate 64 7), 0⟩] } } }, List.replicate 64 7, by decide +kernel⟩,
   ⟨0, State.reset, by decide +kernel⟩,
   ⟨0, 7, { run .integrated [] with dram := { chans := List.replicate 8 { state := 1 } } }, by decide +kernel⟩,
   ⟨0, 3, { run .integrated [] with dram := { chans := List.replicate 8 { state := 1 } } }, by decide +kernel⟩,
   ⟨0, State.reset, by decide +kernel⟩,
   ⟨0, { run .integrated [(F.DRAM_CFG_AGE_NS, 0, 0)] with dram := { chans := List.replicate 8 { state := 1, queue := [⟨5, .control, 64, none, 0⟩] } } }, by decide +kernel, by decide +kernel, by decide +kernel, ⟨_, List.mem_cons_self, by decide +kernel⟩⟩,
   ⟨0, { run .integrated [] with dram := { chans := List.replicate 8 { state := 1, postponed := 8 } } }, by decide +kernel⟩,
   ⟨0, { run .integrated [] with dram := { chans := List.replicate 8 { state := 1 } } }, by decide +kernel⟩,
   ⟨0, _, { run .integrated [(F.DRAM_CFG_SCRUB_H, 0, 24)] with dram := { chans := List.replicate 8 { state := 1 } } }, by decide +kernel, by decide +kernel, rfl, fun _ => by decide +kernel, by decide +kernel⟩,
   ⟨0, (List.range 82).map fun _ => (0 : Int), { run .integrated [] with dram := { chans := List.replicate 8 { state := 1 } }, hf := { factoryValid := true, factory := [⟨2, 0, 400, List.replicate 82 0⟩] } }, by decide +kernel⟩⟩

/-- The hypotheses of each clause of Obligations.FamilyFrames, met together. -/
theorem wit_FamilyFrames :
    (∃ s t, exec (.timeSourceTimeout) s = .next t) ∧
    (∃ s t, exec (.ptpSync 1 default) s = .next t) ∧
    (∃ s t, exec (.macLinkUp 1) s = .next t) ∧
    (∃ s t, exec (.ethernetFrameReceive 1 .other) s = .next t) ∧
    (∃ s t, exec (.commandFetch) s = .next t) ∧
    (∃ s t, exec (.controllerDisable) s = .next t) ∧
    (∃ s t, exec (.lanePllLock 5 true) s = .next t) ∧
    (∃ s t, exec (.dramRequest 0 .control 64 none) s = .next t) ∧
    (∃ s t, exec (.ppsOutSecond) s = .next t) ∧
    (∃ s t, exec (.ssdCommandTimeout 1 5) s = .next t) ∧
    (∃ s t, exec (.linkBringUp 2) s = .next t) ∧
    (∃ s t, (∀ j ∈ s.comp.queue, descOk j = true) ∧ exec .blockDeal s = .next t) :=
  ⟨⟨run .integrated [], got (exec (.timeSourceTimeout) (run .integrated [])), rfl⟩,
   ⟨run .integrated [], got (exec (.ptpSync 1 default) (run .integrated [])), rfl⟩,
   ⟨run .integrated [], got (exec (.macLinkUp 1) (run .integrated [])), rfl⟩,
   ⟨run .integrated [], got (exec (.ethernetFrameReceive 1 .other) (run .integrated [])), rfl⟩,
   ⟨run .integrated [], got (exec (.commandFetch) (run .integrated [])), rfl⟩,
   ⟨run .integrated [], got (exec (.controllerDisable) (run .integrated [])), rfl⟩,
   ⟨run .integrated [], got (exec (.lanePllLock 5 true) (run .integrated [])), rfl⟩,
   ⟨run .integrated [], got (exec (.dramRequest 0 .control 64 none) (run .integrated [])), rfl⟩,
   ⟨run .integrated [], got (exec (.ppsOutSecond) (run .integrated [])), rfl⟩,
   ⟨run .integrated [], got (exec (.ssdCommandTimeout 1 5) (run .integrated [])), rfl⟩,
   ⟨run .integrated [], got (exec (.linkBringUp 2) (run .integrated [])), rfl⟩,
   ⟨compState none jobV, got (exec .blockDeal (compState none jobV)), by decide +kernel, rfl⟩⟩

end Sys2Proof.Tests
end

/-! PROOFS. START_UP and ROLE_START: in which states they end (R4, R662, R669). -/

namespace Sys2Proof.Proofs
open Sys2Proof Sys2Proof.Machine Sys2Proof.Laws

/-! ### START_UP -/

@[simp] theorem enterConfigError_state (s : State) : (enterConfigError s).dev.state = .configError := rfl

@[simp] theorem stopStart_state (code inst : Nat) (ds : List Nat) (s : State) :
    (stopStart code inst ds s).dev.state = .configError := rfl

theorem startUp_of_bad_header {d : List Bool} {r : Bool} {s : State} (hs : s.dev.state = .starting)
    (h : imageReason 0 (chooseSlot 1 s).2.nvm.header (chooseSlot 1 s).2 ≠ 0) :
    exec (.startUp d r) s =
      .next { (chooseSlot 1 s).2 with dev := { (chooseSlot 1 s).2.dev with state := .bootRom } } := by
  simp [exec, execStartUp, hs, h]

theorem startUp_of_verified {d : List Bool} {r b : Bool} {s u : State} (hs : s.dev.state = .starting)
    (hc : chooseSlot 1 s = (b, u)) (h0 : imageReason 0 u.nvm.header u = 0) (h1 : imageReason 1 (regionOf 1 b u) u = 0) :
    let v := loadImages d r (modCfg (fun c => { c with images := modAt c.images 1 fun m => { m with slotB := b } }) u)
    exec (.startUp d r) s = .next (agree v.1 v.2.1 ((List.range 8).all fun c => d.getD c true) v.2.2) := by
  simp [exec, execStartUp, hs, hc, h0, h1]

theorem agree_reserved {u : State} (h : u.dev.role = .reserved) (b ok : Bool) (n : Nat) :
    (agree b n ok u).dev.state = .safe := by
  simp [agree, h]

theorem agree_of_lacking_part {u : State} (hp : u.dev.part = .h) (hr : u.dev.role = .integrated ∨ u.dev.role = .body)
    (b ok : Bool) (n : Nat) : (agree b n ok u).dev.state = .configError := by
  rcases hr with hr | hr <;> simp [agree, hp, hr]

theorem admitStart_state (s : State) : (admitStart s).dev.state = .ready ∨ (admitStart s).dev.state = .configError := by
  unfold admitStart
  dsimp only
  split
  · exact .inl rfl
  · exact .inr rfl

theorem checkStart_state (rs : List Rec) (s : State) :
    (checkStart rs s).dev.state = .ready ∨ (checkStart rs s).dev.state = .configError := by
  unfold checkStart
  dsimp only
  split
  · exact admitStart_state _
  · exact .inr rfl

/-! ### ROLE_START -/

/-- ROLE_START changes the device's state, the power of its blocks and the DRAM allocations, and no other kept part. -/
theorem roleStart_keptNv (s : State) :
    keptNv (roleStart s) = { keptNv s with state := .running, powered := true, alloc := allocAtStart s } := by
  unfold roleStart
  extract_lets d s1 s2 s3
  calc keptNv (audioAtStart (viewsAtStart (loopsAtStart (mountVolume s3))))
      = keptNv s3 := keptNv_of (by simp)
    _ = keptNv s2 := islandStart_keptNv _ _ _
    _ = keptNv (resetBlocks s1) := keptNv_of (by simp [s2])
    _ = { keptNv s with state := .running, powered := true, alloc := allocAtStart s } := rfl

/-- Settles O10: each step is followed through the branch that its hypotheses select, and ROLE_START through what it keeps. -/
theorem startUpSteps : Obligations.StartUpSteps := by
  unfold Obligations.StartUpSteps
  refine ⟨?badHeader, ?verified, ?reserved, ?lacking, checkStart_state, ?roleStart⟩
  case badHeader => exact fun d r s hs h => ⟨_, startUp_of_bad_header hs h, rfl, rfl⟩
  case verified => exact fun d r b s u hs hc h0 h1 => ⟨_, rfl, startUp_of_verified hs hc h0 h1⟩
  case reserved => exact fun b ok n u h => agree_reserved h b ok n
  case lacking => exact fun b ok n u hp hr => agree_of_lacking_part hp hr b ok n
  case roleStart =>
    intro s hs
    have hk := roleStart_keptNv s
    simp only [keptNv, kept, Kept.mk.injEq] at hk
    obtain ⟨-, hotp, -, hcfg, hnvm, -, halloc, hstate, hpow, hrole, -⟩ := hk
    exact ⟨roleStart s, by simp [exec, execRoleStart, hs], hstate, hpow, hrole, hcfg, hotp, hnvm, halloc⟩

end Sys2Proof.Proofs

/-! PROOFS. The order of the checks of a request (R809): which refusal the first failing check gives, and that a refused
request at the front of its channel leaves that refusal and nothing else. -/

namespace Sys2Proof.Proofs
open Sys2Proof Sys2Proof.Machine Sys2Proof.Laws

/-! ### The message at the front of a channel -/

section
variable {c k tag : Nat} {p : Path} {args : List Word} {s : State}

theorem headMsg_front (ha : AtFront c p k tag args s) : headMsg c s = some (request1 c p k tag args) := by
  obtain ⟨⟨rest, hq, -⟩, -, -⟩ := ha
  unfold headMsg
  rw [hq]
  rfl

theorem isCode_front (ha : AtFront c p k tag args s) (hk : k < 65536) (hn : args.length < 15) :
    isCode k (request1 c p k tag args) = true := beq_iff_eq.mpr (front_code ha hk hn)

theorem routed_front (ha : AtFront c p k tag args s) (hc : c < 14) (hk : k < 65536) (hi : k / 256 ≠ 0x0F)
    (hn : args.length < 15) : routed c (request1 c p k tag args).code = true := by
  rw [front_code ha hk hn]
  exact routed_of_lt hc hi

/-- A state whose channel holds what is behind a request at the front has a message with a row there, if any. -/
theorem stops_behind_front {u : State} (ha : AtFront c p k tag args s)
    (hu : (u.mbx.chans.getD c {}).inq = ((popMsg c s).mbx.chans.getD c {}).inq) : Stops c u := by
  obtain ⟨⟨rest, hq, hr⟩, -, -⟩ := ha
  intro m hm
  exact hr m (by rw [← hm, hu, popMsg_inq hq])

theorem hdrPriv_request1 (hk : k < 65536) (hn : args.length < 15) :
    hdrPriv ((request1 c p k tag args).w 0) = false := by
  obtain ⟨-, hpriv, -, -⟩ := hdrFlags_header (tag := tag) (n := args.length + 1) hk (by omega)
  exact hpriv

/-- A request without PRIV opens no token sequence: it is complete. -/
theorem takeMsg_front (ha : AtFront c p k tag args s) (hk : k < 65536) (hn : args.length < 15) (d : Option MsgDef) :
    takeMsg d (request1 c p k tag args) (popMsg c s) = complete d (request1 c p k tag args) none (popMsg c s) := by
  obtain ⟨-, -, ho⟩ := ha
  have hpop : openSeq c p (popMsg c s) = none :=
    (openSeq_congr (modChan_held (f := fun ch => { ch with inq := ch.inq.drop 1 }) (fun _ => rfl) c c s)).trans ho
  have hend : endSeq c p (popMsg c s) = popMsg c s := by
    unfold endSeq
    rw [hpop]
  unfold takeMsg
  rw [hdrPriv_request1 hk hn, Bool.and_false]
  exact congrArg (complete d (request1 c p k tag args) none) hend

end

/-! ### What an answer leaves -/

theorem countAnswer_inq (c n : Nat) (a : Answer) (s : State) :
    ((countAnswer c a s).mbx.chans.getD n {}).inq = (s.mbx.chans.getD n {}).inq := by
  unfold countAnswer
  cases a with
  | accept ws =>
    refine modChan_inq ?_ c n s
    exact fun _ => rfl
  | refuse cls err detail =>
    dsimp only
    rw [apply_ite State.mbx, raise_mbx, ite_self]
    refine modChan_inq ?_ c n s
    exact fun _ => rfl

theorem answer_inq (d : Option MsgDef) (r : Req) (a : Answer) (n : Nat) (s : State) :
    ((answer d r a s).mbx.chans.getD n {}).inq = (s.mbx.chans.getD n {}).inq := by
  unfold answer
  dsimp only
  split
  · rw [deliver_chans]
    exact countAnswer_inq _ _ _ _
  · exact countAnswer_inq _ _ _ _

theorem complete_of_runReq {d : Option MsgDef} {r : Req} {tok : Option Bool} {s u : State} {a : Answer}
    (h : runReq d r tok s = (a, u)) : complete d r tok s = answer d r a u := by
  unfold complete
  rw [h]

/-- A refusal of a class other than 4 is counted and answered, and logs nothing. -/
theorem answer_refuse {d : Option MsgDef} (hd : (d.map (·.answered)).getD true = true) (r : Req) {cls : Nat} (hc : cls ≠ 4)
    (err detail : Nat) (s : State) : answer d r (.refuse cls err detail) s = refused r cls err detail s := by
  simp [answer, countAnswer, refused, hd, hc]

/-- A refusal of class 4 also counts a refused token and logs 0x1403 (R695). -/
theorem answer_refuse4 {d : MsgDef} (hd : d.answered = true) (r : Req) (s : State) :
    answer (some d) r refuse4 s =
      deliver r.path r.chan (replyWords (r.w 0) (.refuse 4 0x1403 0)) (raise 0 0x1403 noInst []
        (modChan r.chan (fun ch => { ch with handled := wrapInc 32 ch.handled, refusals := wrapInc 32 ch.refusals,
                                             tokensRefused := wrapInc 32 ch.tokensRefused }) s)) := by
  simp [answer, countAnswer, refuse4, hd]

/-! ### The checks in their order -/

section
variable {d : MsgDef} {r : Req} {tok : Option Bool} {s : State} (hroute : routed r.chan r.code = true)
  (hknown : d.unknown r s = false)
include hroute hknown

theorem runReq_of_malformed (h : malformed d r s = true) : runReq (some d) r tok s = (.refuse 2 0 0, s) := by
  simp [runReq, hroute, hknown, h]

theorem runReq_of_denied (hform : malformed d r s = false) (hlog : d.badLog r s = none) (h : denied d r s = true) :
    runReq (some d) r tok s = (.refuse 3 0 0, s) := by
  simp [runReq, hroute, hknown, hform, hlog, h]

theorem runReq_of_unauthorised (hform : malformed d r s = false) (hlog : d.badLog r s = none) (hden : denied d r s = false)
    (h : unauthorised d r tok s = true) : runReq (some d) r tok s = (refuse4, s) := by
  simp [runReq, hroute, hknown, hform, hlog, hden, h]

end

/-- Only COUNT, the reserved bits and its chapter's own check can make a request without flags malformed. -/
theorem malformed_request1 (d : MsgDef) {c k tag : Nat} {p : Path} {args : List Word} (s : State) (hk : k < 65536)
    (hn : args.length < 15) : malformed d (request1 c p k tag args) s =
      (!d.count (args.length + 1) || reservedSet d.masks args || d.bad (request1 c p k tag args) s) := by
  have hw : (request1 c p k tag args).w 0 = (header k (args.length + 1) tag).toNat := rfl
  have hwords : (request1 c p k tag args).words = header k (args.length + 1) tag :: args := rfl
  obtain ⟨hreply, hpriv, herror, hmore⟩ := hdrFlags_header (tag := tag) (n := args.length + 1) hk (by omega)
  have hcount := hdrCount_header (tag := tag) (n := args.length + 1) hk (by omega)
  simp [malformed, hw, hwords, hreply, hpriv, herror, hmore, hcount]

/-- Outside a running role only the messages of R667 are admitted. -/
theorem denied_of_not_running {d : MsgDef} {s : State} (hd : d.always = false) (hs : s.dev.state ≠ .running) (r : Req) :
    denied d r s = true := by
  simp [denied, hs, hd]

theorem denied_of_lacking_block {d : MsgDef} {s : State} (hs : s.dev.state = .running) (ht : s.pwr.thermallyOff = false)
    (hb : hasBlk d.blk s = false) (r : Req) : denied d r s = true := by
  simp [denied, hs, ht, hb]

/-- A started role admits a message to a block it has, unless the message's chapter denies it. -/
theorem denied_of_started {d : MsgDef} {s : State} (hs : Started s) (hb : hasBlk d.blk s = true) (r : Req) :
    denied d r s = d.deny r s := by
  obtain ⟨hrun, -, hsus, -, hoff⟩ := hs
  simp [denied, hrun, hsus, hoff, hb]

theorem unauthorised_request1 {d : MsgDef} {c k tag : Nat} {p : Path} {args : List Word} {s : State} (hk : k < 65536)
    (hn : args.length < 15) (hp : d.priv = .must) (hf : d.privFree (request1 c p k tag args) s = false) :
    unauthorised d (request1 c p k tag args) none s = true := by
  simp [unauthorised, hdrPriv_request1 hk hn, hp, hf]

/-- The codec is no block of a head, and it is fused off on a GY1600-H (R3). -/
theorem hasBlk_codec {s : State} (h : s.dev.part = .h ∨ s.dev.role = .head) : hasBlk .codec s = false := by
  unfold hasBlk
  rcases h with h | h <;> rw [h]
  · exact Bool.and_false _
  · rfl

/-! ### A row whose request is refused -/

/-- The command of any row first refuses a message at the front that no row takes, with class 1, and then goes on. -/
theorem runRow_unknown {mine : Req → Bool} {c k tag : Nat} {p : Path} {args : List Word} {s : State}
    (ha : AtFront c p k tag args s) (hk : k < 65536) (hn : args.length < 15) (hd : msgDef k = none) (h0 : k ≠ 0x1410) :
    runRow mine c s = runRow mine c (refused (request1 c p k tag args) 1 0 0 (popMsg c s)) := by
  set u := refused (request1 c p k tag args) 1 0 0 (popMsg c s)
  have hans : answer none (request1 c p k tag args) (.refuse 1 0 0) (popMsg c s) = u :=
    answer_refuse rfl _ (by decide) 0 0 _
  have hserves : serves c s = true := by
    obtain ⟨-, hserves, -⟩ := ha
    exact hserves
  have hstop : Stops c u := stops_behind_front ha (by rw [← hans]; exact answer_inq _ _ _ _ _)
  have hfirst : screen msgDef c 8 s = u := by
    have hcode : (request1 c p k tag args).code = k := front_code ha hk hn
    have hrefuse : takeMsg none (request1 c p k tag args) (popMsg c s) = u :=
      (takeMsg_front ha hk hn none).trans ((complete_of_runReq rfl).trans hans)
    unfold screen
    simp [headMsg_front ha, hserves, hcode, hd, h0, hrefuse, screen_stops hstop]
  unfold runRow runHead
  rw [hfirst, screen_stops hstop]

section
variable {mine : Req → Bool} {c k tag : Nat} {p : Path} {args : List Word} {s : State} {d : MsgDef}

/-- A row that refuses the request at the front of its channel leaves the answer to it. -/
theorem runRow_refuse {a : Answer} (ha : AtFront c p k tag args s) (hk : k < 65536) (hn : args.length < 15)
    (hd : msgDef k = some d) (hm : mine (request1 c p k tag args) = true)
    (h : runReq (some d) (request1 c p k tag args) none (popMsg c s) = (a, popMsg c s)) :
    runRow mine c s = .next (answer (some d) (request1 c p k tag args) a (popMsg c s)) := by
  rw [runRow_front ha hk hn (by rw [hd]; rfl) hm, hd, complete_of_runReq h,
    screen_stops (stops_behind_front ha (answer_inq _ _ _ _ _))]

variable (ha : AtFront c p k tag args s) (hc : c < 14) (hk : k < 65536) (hi : k / 256 ≠ 0x0F) (hn : args.length < 15)
  (hd : msgDef k = some d) (hm : mine (request1 c p k tag args) = true) (hans : d.answered = true)
  (hknown : d.unknown (request1 c p k tag args) (popMsg c s) = false)
include ha hc hk hi hn hd hm hans hknown

theorem runRow_of_malformed (h : malformed d (request1 c p k tag args) (popMsg c s) = true) :
    runRow mine c s = .next (refused (request1 c p k tag args) 2 0 0 (popMsg c s)) := by
  rw [runRow_refuse ha hk hn hd hm (runReq_of_malformed (routed_front ha hc hk hi hn) hknown h)]
  exact congrArg _ (answer_refuse (d := some d) hans _ (by decide) 0 0 _)

theorem runRow_of_denied (hform : malformed d (request1 c p k tag args) (popMsg c s) = false)
    (hlog : d.badLog (request1 c p k tag args) (popMsg c s) = none)
    (h : denied d (request1 c p k tag args) (popMsg c s) = true) :
    runRow mine c s = .next (refused (request1 c p k tag args) 3 0 0 (popMsg c s)) := by
  rw [runRow_refuse ha hk hn hd hm (runReq_of_denied (routed_front ha hc hk hi hn) hknown hform hlog h)]
  exact congrArg _ (answer_refuse (d := some d) hans _ (by decide) 0 0 _)

end

/-- A message of one word that must carry a token, and whose chapter adds no check before the token's, is refused with
class 4 when it comes without PRIV to a started role. -/
theorem runPriv_without_token {c k tag : Nat} {p : Path} {s : State} {b : Bool} {f : Req → Bool → State → Answer × State}
    (ha : AtFront c p k tag [] s) (hc : c < 14) (hk : k < 65536) (hi : k / 256 ≠ 0x0F)
    (hd : msgDef k = some { priv := .must, always := b, act := f }) (hs : Started s) :
    runPriv k c s = .next (deliver p c (replyWords (header k 1 tag).toNat (.refuse 4 0x1403 0)) (raise 0 0x1403 noInst []
      (modChan c (fun ch => { ch with handled := wrapInc 32 ch.handled, refusals := wrapInc 32 ch.refusals,
                                      tokensRefused := wrapInc 32 ch.tokensRefused }) (popMsg c s)))) := by
  have hn : ([] : List Word).length < 15 := by decide
  have hden := denied_of_started (d := { priv := .must, always := b, act := f }) (s := popMsg c s) hs (hasBlk_always _)
    (request1 c p k tag [])
  rw [runPriv_front ha hk hn (by rw [hd]; rfl),
    runRow_refuse ha hk hn hd (isCode_front ha hk hn)
      (runReq_of_unauthorised (routed_front ha hc hk hi hn) rfl (malformed_request1 _ _ hk hn) rfl hden
        (unauthorised_request1 hk hn rfl rfl)),
    answer_refuse4 rfl]
  rfl

/-! ### Single messages -/

theorem msgDef_streamStatus {i : Nat} (hi : i < 8) : msgDef (0x0800 + i) = some (streamStatusMsg i) := by
  have hpage : (0x0800 + i) / 256 = 8 := by omega
  have hlast : 0x0800 + i < 0x0808 := by omega
  simp [msgDef, hpage, msgs08, hlast]

theorem reservedSet_singleton (m : Nat) (w : Word) : reservedSet [m] [w] = decide (w.toNat &&& m ≠ w.toNat) := by
  simp [reservedSet]

/-- A channel number of 16 and above sets a bit that MAILBOX_STATUS reserves. -/
theorem mailboxStatus_reserved {w : Word} (h : 16 ≤ w.toNat) : reservedSet mailboxStatusMsg.masks [w] = true := by
  have hand : w.toNat &&& 0xF < 16 := lt_of_le_of_lt Nat.and_le_right (by decide)
  rw [show mailboxStatusMsg.masks = [0xF] from rfl, reservedSet_singleton, decide_eq_true_eq]
  omega

/-- Settles O23: each request fails the check its clause names and passes those before it. -/
theorem orderOfChecks : Obligations.OrderOfChecks := by
  unfold Obligations.OrderOfChecks
  refine ⟨?unknown, ?deviceStatus, ?mailboxStatus, ?restart, ?timeStatus, ?streamStatus, ?restoreFactory, ?privileged⟩
  case unknown =>
    intro k c tag p args rest s hk hn hq hr hs ho hd h0 t ht
    exact (runRow_unknown ⟨⟨rest, hq, hr⟩, hs, ho⟩ hk hn hd h0).trans ht
  case deviceStatus =>
    intro c tag p w s hc ha
    exact runRow_of_malformed ha hc (by decide) (by decide) (by simp) rfl (isCode_front ha (by decide) (by simp)) rfl rfl
      (malformed_request1 deviceStatusMsg _ (by decide) (by simp))
  case mailboxStatus =>
    intro c tag p w s hc ha hw
    refine runRow_of_malformed (d := mailboxStatusMsg) ha hc (by decide) (by decide) (by simp) rfl
      (isCode_front ha (by decide) (by simp)) rfl rfl ?_
    rw [malformed_request1 _ _ (by decide) (by simp), mailboxStatus_reserved hw, Bool.or_true, Bool.true_or]
  case restart =>
    intro c tag p w s hc ha
    exact (runPriv_front ha (by decide) (by simp) rfl).trans
      (runRow_of_malformed ha hc (by decide) (by decide) (by simp) rfl (isCode_front ha (by decide) (by simp)) rfl rfl
        (malformed_request1 restartMsg _ (by decide) (by simp)))
  case timeStatus =>
    intro c tag p s hc ha hs
    have hrun : s.dev.state ≠ .running := by rcases hs with hs | hs <;> simp [hs]
    exact runRow_of_denied ha hc (by decide) (by decide) (by decide) rfl (isCode_front ha (by decide) (by decide)) rfl
      rfl (malformed_request1 timeStatusMsg _ (by decide) (by decide)) rfl (denied_of_not_running (s := popMsg c s) rfl hrun _)
  case streamStatus =>
    intro i c tag p s hi hc ha hrun ht hblk
    have hk : 0x0800 + i < 65536 := by omega
    refine runRow_of_denied ha hc hk (by omega) (by decide) (msgDef_streamStatus hi) ?_ rfl rfl
      (malformed_request1 (streamStatusMsg i) _ hk (by decide)) rfl
      (denied_of_lacking_block (s := popMsg c s) hrun ht (hasBlk_codec hblk) _)
    simp [inFamily, front_code ha hk, Nat.mod_one]
    omega
  case restoreFactory =>
    intro c tag p s hc ha hs
    have hrun : s.dev.state ≠ .running := by simp [hs]
    exact (runPriv_front ha (by decide) (by decide) rfl).trans
      (runRow_of_denied ha hc (by decide) (by decide) (by decide) rfl (isCode_front ha (by decide) (by decide)) rfl rfl
        (malformed_request1 restoreFactoryMsg _ (by decide) (by decide)) rfl
        (denied_of_not_running (s := popMsg c s) rfl hrun _))
  case privileged =>
    intro x hx c tag p s hc ha hs
    simp only [List.mem_cons, List.not_mem_nil, or_false] at hx
    rcases hx with rfl | rfl | rfl | rfl
    all_goals exact runPriv_without_token ha hc (by decide) (by decide) rfl hs

end Sys2Proof.Proofs

/-! PROOFS. The decisions of the exposure and white-balance loops (R208, R209, R213, R218), and the bounds of their
arithmetic. -/

namespace Sys2Proof.Proofs
open Sys2Proof Sys2Proof.Machine Sys2Proof.Laws

/-! ### Taking a buffer -/

@[simp] theorem modLoop_cfg (n : Nat) (f : Loop → Loop) (s : State) : (modLoop n f s).cfg = s.cfg := rfl

@[simp] theorem seamEpoch_modLoop (n m : Nat) (f : Loop → Loop) (s : State) :
    seamEpoch m (modLoop n f s) = seamEpoch m s := rfl

@[simp] theorem countStale_cfg (n : Nat) (d : StatData) (s : State) : (countStale n d s).cfg = s.cfg := by
  unfold countStale
  split <;> rfl

/-- A field's value depends on the settings alone. -/
theorem cfgN_of_cfg {s t : State} (h : t.cfg = s.cfg) (f : Fld) (i : Nat) : cfgN f i t = cfgN f i s := by
  unfold cfgN
  rw [h]

/-- What a buffer passed over or taken leaves of a loop before its decision (R32). -/
theorem cfgN_countStale_modLoop (f : Fld) (i n : Nat) (d : StatData) (g : Loop → Loop) (s : State) :
    cfgN f i (countStale n d (modLoop n g s)) = cfgN f i s := cfgN_of_cfg (by simp) f i

section
variable {n : Nat} {b : StatBuf} {s : State}

theorem exposureDecision_idle (h : loopsRun n s = false) : exec (.exposureDecision n) s = .next s := by
  simp [exec, execExposureDecision, h]

theorem whiteBalanceDecision_idle (h : loopsRun n s = false) : exec (.whiteBalanceDecision n) s = .next s := by
  simp [exec, execWhiteBalanceDecision, h]

theorem exposureDecision_takes (h : loopsRun n s = true) (hb : nextStat n (loopOf n s).seenE s = some b) :
    exec (.exposureDecision n) s =
      .next (exposureTake n b.data (countStale n b.data (modLoop n (fun l => { l with seenE := b.order }) s))) := by
  simp [exec, execExposureDecision, h, hb]

theorem whiteBalanceDecision_takes (h : loopsRun n s = true) (hb : nextStat n (loopOf n s).seenW s = some b) :
    exec (.whiteBalanceDecision n) s =
      .next (if cfgN F.LOOP_AWB_AWB_MODE n s = 1 ∧ cfgN F.LOOP_AE_LOCK n s ≠ 2
        then balanceTake n b.data (countStale n b.data (modLoop n (fun l => { l with seenW := b.order }) s))
        else countStale n b.data (modLoop n (fun l => { l with seenW := b.order }) s)) := by
  simp [exec, execWhiteBalanceDecision, h, hb]

end

/-! ### The exposure loop's sums -/

section
variable {n : Nat} {d : StatData} {v : State}

theorem exposureTake_clears (h : cfgN F.LOOP_AE_AE_MODE n v = 0 ∨ cfgN F.LOOP_AE_LOCK n v = 2 ∨ accepts n d v = false) :
    exposureTake n d v = modLoop n (fun l => { l with acc := [0, 0, 0, 0, 0] }) v := by
  unfold exposureTake
  exact if_pos (by simpa using h)

theorem exposureTake_accepted (hm : cfgN F.LOOP_AE_AE_MODE n v ≠ 0) (hl : cfgN F.LOOP_AE_LOCK n v ≠ 2)
    (ha : accepts n d v = true) {z : Nat × Nat × Nat × Nat} (hz : z = meterZones n d.zones v) {a : List Nat}
    (hsum : a = [(loopOf n v).acc.getD 0 0 + z.1, (loopOf n v).acc.getD 1 0 + z.2.1, (loopOf n v).acc.getD 2 0 + z.2.2.1,
      (loopOf n v).acc.getD 3 0 + z.2.2.2, (loopOf n v).acc.getD 4 0 + 1]) :
    exposureTake n d v = if a.getD 4 0 ≤ cfgN F.LOOP_AE_AE_FRAMES n v then modLoop n (fun l => { l with acc := a }) v
      else decide213 n d a (modLoop n (fun l => { l with acc := a }) v) := by
  subst hsum hz
  unfold exposureTake
  exact if_neg (by simp [hm, hl, ha])

end

/-! ### Arithmetic -/

theorem meterRatio_bounds (target guard m clipq quads : Nat) :
    0x4000 ≤ meterRatio target guard m clipq quads ∧ meterRatio target guard m clipq quads ≤ 0x40000 := by
  unfold meterRatio
  dsimp only
  split <;> omega

/-- A step of `damp` 256ths from one value toward another ends between the two. -/
theorem dampedStep_between (x y damp : Nat) (h : damp ≤ 256) :
    min x y ≤ ((x : Int) + ((y : Int) - x) * damp / 256).toNat ∧
      ((x : Int) + ((y : Int) - x) * damp / 256).toNat ≤ max x y := by
  have hd : (0 : Int) ≤ damp ∧ (damp : Int) ≤ 256 := by omega
  obtain ⟨h0, h1⟩ := hd
  rcases le_total x y with hxy | hxy
  · have hlow : 0 ≤ ((y : Int) - x) * damp := mul_nonneg (by omega) h0
    have hhigh : ((y : Int) - x) * damp ≤ ((y : Int) - x) * 256 := mul_le_mul_of_nonneg_left h1 (by omega)
    omega
  · have hlow : ((y : Int) - x) * 256 ≤ ((y : Int) - x) * damp := mul_le_mul_of_nonpos_left h1 (by omega)
    have hhigh : ((y : Int) - x) * damp ≤ 0 := mul_nonpos_of_nonpos_of_nonneg (by omega) h0
    omega

/-- Settles O41: which branch of a loop's turn the settings select, and the two damped steps between their ends. -/
theorem loopDecisions : Obligations.LoopDecisions := by
  unfold Obligations.LoopDecisions
  refine ⟨?idle, ?exposure, ?balance, ?stale, meterRatio_bounds, ?expNew, ?balanceStep⟩
  case idle => exact fun n s h => ⟨exposureDecision_idle h, whiteBalanceDecision_idle h⟩
  case exposure =>
    intro n b s hrun hb v
    have hcfg : ∀ f i, cfgN f i v = cfgN f i s := fun f i => cfgN_countStale_modLoop f i n _ _ s
    rw [exposureDecision_takes hrun hb]
    refine ⟨fun h => congrArg _ (exposureTake_clears (by rwa [hcfg, hcfg])), fun a z hm hl ha hz hsum => ?_⟩
    have htake := exposureTake_accepted (by rwa [hcfg]) (by rwa [hcfg]) ha hz hsum
    rw [hcfg] at htake
    exact ⟨fun hle => congrArg _ (htake.trans (if_pos hle)), fun hlt => congrArg _ (htake.trans (if_neg (by omega)))⟩
  case balance =>
    intro n b s hrun hb v
    rw [whiteBalanceDecision_takes hrun hb]
    exact ⟨fun h => congrArg _ (if_neg fun hboth => h.elim (· hboth.1) hboth.2), fun hm hl => congrArg _ (if_pos ⟨hm, hl⟩)⟩
  case stale => exact fun n d s => ⟨fun h => if_pos h, fun h => if_neg h⟩
  case expNew =>
    intro e g ratio damp h
    unfold expNew
    exact dampedStep_between _ _ damp h
  case balanceStep => exact dampedStep_between

end Sys2Proof.Proofs

/-! PROOFS. Frame numbers (R27): what leaves the numbers of seams, ring frames and ports as they are, and what a rise of FV
does to them. -/

namespace Sys2Proof.Proofs
open Sys2Proof Sys2Proof.Machine Sys2Proof.Laws

/-! ### The numbers the capture path holds -/

/-- What the capture path knows of frame numbers: the next one of each seam, those of the frames in each ring, and the last
one at each port. -/
structure Numbering where
  next : List Nat
  rings : List (List Nat)
  last : List Nat

/-- The frame numbers a capture state holds. -/
def numbering (c : Capture) : Numbering :=
  ⟨c.seams.map (·.nextNum), c.seams.map fun x => x.frames.map (·.header.num), c.ports.map (·.lastNum)⟩

/-- A frame numbered `k` begins at port `p` of seam `n` (R27). -/
def Numbering.begin (n p k : Nat) (x : Numbering) : Numbering :=
  { x with next := modAt x.next n fun _ => k + 1, last := modAt x.last p fun _ => k }

/-- A frame numbered `k` enters the ring of seam `n`. -/
def Numbering.enter (n k : Nat) (x : Numbering) : Numbering := { x with rings := modAt x.rings n (· ++ [k]) }

theorem getD_map_getD {α β : Type} (g : α → β) (l : List α) (n : Nat) (d : α) : (l.map g).getD n (g d) = g (l.getD n d) := by
  simp only [List.getD_eq_getElem?_getD, List.getElem?_map]
  cases l[n]? <;> rfl

theorem nextNum_of_numbering (n : Nat) (s : State) : (numbering s.cap).next.getD n 0 = (seamOf n s).nextNum :=
  getD_map_getD (fun x : Seam => x.nextNum) s.cap.seams n {}

theorem ring_of_numbering (n : Nat) (s : State) :
    (numbering s.cap).rings.getD n [] = (seamOf n s).frames.map (·.header.num) :=
  getD_map_getD (fun x : Seam => x.frames.map fun f : SeamFrame => f.header.num) s.cap.seams n {}

theorem lastNum_of_numbering (p : Nat) (s : State) : (numbering s.cap).last.getD p 0 = (portOf p s).lastNum :=
  getD_map_getD (fun x : Port => x.lastNum) s.cap.ports p {}

theorem map_modAt {α β : Type} {g : α → β} {f : α → α} {k : β → β} (h : ∀ x, g (f x) = k (g x)) (l : List α) (i : Nat) :
    (modAt l i f).map g = modAt (l.map g) i k := by
  refine List.ext_getElem? fun j => ?_
  simp only [modAt, List.getElem?_map, List.getElem?_modify]
  split <;> cases l[j]? <;> simp [h]

theorem map_modAt_id {α β : Type} {g : α → β} {f : α → α} (h : ∀ x, g (f x) = g x) (l : List α) (i : Nat) :
    (modAt l i f).map g = l.map g :=
  (map_modAt (k := id) h l i).trans (List.modify_id i _)

theorem map_modMany {α β : Type} {g : α → β} {f : α → α} (hf : ∀ x, g (f x) = g x) (is : List Nat) (l : List α) :
    (modMany is f l).map g = l.map g := by
  refine List.ext_getElem? fun k => ?_
  simp only [modMany, List.getElem?_map, List.getElem?_zipIdx]
  cases l[k]? with
  | none => rfl
  | some x =>
    simp only [Option.map_some]
    split <;> simp [hf]

theorem numbering_foldl {α : Type} (g : State → α → State) (l : List α) (s : State)
    (h : ∀ u x, numbering (g u x).cap = numbering u.cap) : numbering (l.foldl g s).cap = numbering s.cap := by
  induction l generalizing s with
  | nil => rfl
  | cons a r ih => exact (ih _).trans (h s a)

theorem cap_foldl {α : Type} (g : State → α → State) (l : List α) (s : State) (h : ∀ u x, (g u x).cap = u.cap) :
    (l.foldl g s).cap = s.cap := by
  induction l generalizing s with
  | nil => rfl
  | cons a r ih => exact (ih _).trans (h s a)

@[simp] theorem modLoop_numbering (n : Nat) (f : Loop → Loop) (s : State) :
    numbering (modLoop n f s).cap = numbering s.cap := rfl

theorem modSeam_numbering {f : Seam → Seam} (hnext : ∀ x, (f x).nextNum = x.nextNum)
    (hring : ∀ x, (f x).frames.map (·.header.num) = x.frames.map (·.header.num)) (n : Nat) (s : State) :
    numbering (modSeam n f s).cap = numbering s.cap := by
  simp only [numbering, modSeam, modCap_cap, map_modAt_id hnext,
    map_modAt_id (g := fun x : Seam => x.frames.map (·.header.num)) hring]

theorem modPort_numbering {f : Port → Port} (hf : ∀ x, (f x).lastNum = x.lastNum) (p : Nat) (s : State) :
    numbering (modPort p f s).cap = numbering s.cap := by
  simp only [numbering, modPort, modCap_cap, map_modAt_id hf]

theorem modMany_numbering {f : Port → Port} (hf : ∀ x, (f x).lastNum = x.lastNum) (is : List Nat) (s : State) :
    numbering (modCap (fun c => { c with ports := modMany is f c.ports }) s).cap = numbering s.cap := by
  simp only [numbering, modCap_cap, map_modMany hf]

/-! ### Parts beside the capture path -/

@[simp] theorem queueControl_cap (g k : Nat) (ws : List Word) (s : State) : (queueControl g k ws s).cap = s.cap := rfl
@[simp] theorem modIslSeam_cap (n : Nat) (f : IslandSeam → IslandSeam) (s : State) : (modIslSeam n f s).cap = s.cap := rfl
@[simp] theorem modStrobe_cap (n : Nat) (f : Strobe → Strobe) (s : State) : (modStrobe n f s).cap = s.cap := rfl
@[simp] theorem islandLog_cap (k : Nat) (ws : List Nat) (s : State) : (islandLog k ws s).cap = s.cap := rfl
@[simp] theorem sealAtStart_cap (b : Bool) (d : List Byte) (s : State) : (sealAtStart b d s).cap = s.cap := rfl

@[simp] theorem openRecord_cap (n p num tag : Nat) (exp : Tod) (s : State) :
    (openRecord n p num tag exp s).cap = s.cap := by
  unfold openRecord
  dsimp only
  split
  · rfl
  · split <;> simp [apply_ite State.cap]

@[simp] theorem pushIsland_cap (e : IslandEntry) (s : State) : (pushIsland e s).cap = s.cap := by
  unfold pushIsland
  simp [apply_ite State.cap]

@[simp] theorem chainRecord_cap (n : Nat) (r : OpenRecord) (s : State) : (chainRecord n r s).cap = s.cap := by
  simp [chainRecord]

@[simp] theorem chainClosed_cap (n k : Nat) (s : State) : (chainClosed n k s).cap = s.cap := by
  induction k generalizing s with
  | zero => rfl
  | succ k ih =>
    unfold chainClosed
    split
    · rfl
    · split <;> simp [ih]

@[simp] theorem closeRecord_cap (n num : Nat) (d : List Byte) (s : State) : (closeRecord n num d s).cap = s.cap := by
  unfold closeRecord
  split <;> simp

@[simp] theorem sendEvidence_cap (k : Nat) (b : List Byte) (s : State) : (sendEvidence k b s).cap = s.cap := by
  unfold sendEvidence
  split
  · exact cap_foldl _ _ _ fun _ _ => rfl
  · rfl

@[simp] theorem signAll_cap (flags : Nat) (b : Bool) (ns : List Nat) (s : State) : (signAll flags b ns s).cap = s.cap :=
  cap_foldl _ _ _ fun u n => by simp [signSeam]

@[simp] theorem verifyCal_cap (s : State) : (verifyCal s).cap = s.cap := by
  unfold verifyCal
  simp [apply_ite State.cap]

@[simp] theorem islandStart_cap (fw : Option (List Byte)) (b : Bool) (s : State) : (islandStart fw b s).cap = s.cap := by
  unfold islandStart
  cases fw with
  | none => simp
  | some d => simp [apply_ite State.cap]

@[simp] theorem modSsd_cap (k : Nat) (f : Ssd → Ssd) (s : State) : (modSsd k f s).cap = s.cap := rfl
@[simp] theorem modMedia_cap (k : Nat) (f : Media → Media) (s : State) : (modMedia k f s).cap = s.cap := rfl
@[simp] theorem walk_cap (b : Bool) (vs : List Nat) (s : State) : (walk b vs s).cap = s.cap := rfl

@[simp] theorem sendAdmin_cap (k : Nat) (c : SsdAdmin) (s : State) : (sendAdmin k c s).cap = s.cap := by
  unfold sendAdmin sendSsd
  split <;> simp

@[simp] theorem setupMember_cap (k : Nat) (s : State) : (setupMember k s).cap = s.cap := by
  unfold setupMember
  simp [cap_foldl]

@[simp] theorem acquireVolume_cap (b : Bool) (s : State) : (acquireVolume b s).cap = s.cap := by
  unfold acquireVolume
  simp [apply_ite State.cap, cap_foldl]

@[simp] theorem mountFrom_cap (b : SuperBlk) (l : List (Nat × SuperBlk)) (s : State) : (mountFrom b l s).cap = s.cap := by
  unfold mountFrom
  extract_lets
  split <;> simp

@[simp] theorem mountVolume_cap (s : State) : (mountVolume s).cap = s.cap := by
  unfold mountVolume
  split
  · rfl
  · extract_lets ports u bad found ms
    have hu : u.cap = s.cap := cap_foldl _ _ _ fun t k => by simp [apply_ite State.cap]
    split
    · exact (cap_foldl _ _ _ fun t k => by simp).trans hu
    · split <;> simp [apply_ite State.cap, hu]

@[simp] theorem viewsAtStart_cap (s : State) : (viewsAtStart s).cap = s.cap :=
  cap_foldl _ _ _ fun t k => by simp [apply_ite State.cap, dirtyAll, modVf]

@[simp] theorem audioAtStart_cap (s : State) : (audioAtStart s).cap = s.cap :=
  cap_foldl _ _ _ fun t k => by simp [apply_ite State.cap, startAudio, modAud]

/-! ### The sequencer and the loops -/

@[simp] theorem noteQueued_numbering (p : Nat) (sc : Script) (s : State) :
    numbering (noteQueued p sc s).cap = numbering s.cap := by
  unfold noteQueued
  split
  · split <;> rfl
  · rfl

@[simp] theorem revertLoop_numbering (p : Nat) (sc : Script) (s : State) :
    numbering (revertLoop p sc s).cap = numbering s.cap := by
  unfold revertLoop
  split <;> rfl

@[simp] theorem noteLate_numbering (p : Nat) (sc : Script) (s : State) :
    numbering (noteLate p sc s).cap = numbering s.cap := by
  unfold noteLate
  split
  · split
    · split <;> simp
    · rfl
  · rfl

@[simp] theorem completeScript_numbering (p : Nat) (sc : Script) (s : State) :
    numbering (completeScript p sc s).cap = numbering s.cap := by
  unfold completeScript
  split <;> simp [modPort_numbering]

@[simp] theorem startHead_numbering (p : Nat) (sc : Script) (s : State) :
    numbering (startHead p sc s).cap = numbering s.cap := by
  unfold startHead
  split <;> simp [modPort_numbering]

@[simp] theorem considerHead_numbering (p k : Nat) (s : State) :
    numbering (considerHead p k s).cap = numbering s.cap := by
  induction k generalizing s with
  | zero => rfl
  | succ k ih =>
    unfold considerHead
    extract_lets x
    split
    · rfl
    · simp [apply_ite State.cap, apply_ite numbering, ih, modPort_numbering]

@[simp] theorem queueScript_numbering (p : Nat) (sc : Script) (s : State) :
    numbering (queueScript p sc s).2.cap = numbering s.cap := by
  unfold queueScript
  simp [apply_ite Prod.snd, apply_ite State.cap, apply_ite numbering, modPort_numbering]

@[simp] theorem sendScript_numbering (n : Nat) (sc : Script) (s : State) :
    numbering (sendScript n sc s).2.cap = numbering s.cap := by
  unfold sendScript
  split <;> simp

@[simp] theorem sendRequest_numbering (n : Nat) (sc : Script) (s : State) :
    numbering (sendRequest n sc s).cap = numbering s.cap := by
  unfold sendRequest
  simp [apply_ite State.cap, apply_ite numbering]

@[simp] theorem request_numbering (n : Nat) (on : Option Nat) (q : Nat × Nat × Nat × Nat) (s : State) :
    numbering (request n on q s).cap = numbering s.cap := by
  unfold request requestTagged
  simp [apply_ite State.cap, apply_ite numbering]

@[simp] theorem startLoop_numbering (n : Nat) (s : State) : numbering (startLoop n s).cap = numbering s.cap := by
  unfold startLoop
  simp only [apply_ite State.cap, apply_ite numbering, request_numbering, ite_self]
  rfl

@[simp] theorem releaseWaiting_numbering (n : Nat) (i : Int) (s : State) :
    numbering (releaseWaiting n i s).cap = numbering s.cap := by
  unfold releaseWaiting
  simp [numbering_foldl]

@[simp] theorem loopTurn_numbering (n : Nat) (b : Bool) (s : State) : numbering (loopTurn n b s).cap = numbering s.cap := by
  unfold loopTurn requestChanged
  simp [apply_ite State.cap, apply_ite numbering]

@[simp] theorem leaderRepeat_numbering (n : Nat) (s : State) : numbering (leaderRepeat n s).cap = numbering s.cap := by
  unfold leaderRepeat
  split <;> rfl

@[simp] theorem bodyLate_numbering (n num tag : Nat) (s : State) :
    numbering (bodyLate n num tag s).cap = numbering s.cap := by
  unfold bodyLate
  dsimp only
  split
  · simp [apply_ite State.cap, apply_ite numbering]
  · rfl

@[simp] theorem loopFrame_numbering (n num tag : Nat) (s : State) :
    numbering (loopFrame n num tag s).cap = numbering s.cap := by
  unfold loopFrame bodyTurn
  simp [apply_ite State.cap, apply_ite numbering]

/-! ### Role start -/

theorem resetBlocks_next (s : State) : (numbering (resetBlocks s).cap).next = List.replicate 8 0 := by
  simp [numbering, resetBlocks, seamsAtStart, Function.comp_def]

theorem roleStart_numbering (s : State) : ∃ u, numbering (roleStart s).cap = numbering (resetBlocks u).cap := by
  unfold roleStart
  extract_lets d s1 s2 s3
  refine ⟨s1, ?_⟩
  have hloops : ∀ x, numbering (loopsAtStart x).cap = numbering x.cap := by
    intro x
    unfold loopsAtStart
    split
    · rfl
    · exact numbering_foldl _ _ _ fun t n => startLoop_numbering n t
  simp only [audioAtStart_cap, viewsAtStart_cap, hloops, mountVolume_cap, s3, islandStart_cap]
  rfl

/-! ### Drops and arrivals -/

@[simp] theorem noteDrop_numbering (n : Nat) (s : State) : numbering (noteDrop n s).cap = numbering s.cap := by
  simp [noteDrop, modSeam_numbering]

@[simp] theorem settleGains_numbering (n : Nat) (i : Int) (s : State) :
    numbering (settleGains n i s).cap = numbering s.cap := rfl

@[simp] theorem commitArrival_numbering (n num : Nat) (i : Int) (s : State) :
    numbering (commitArrival n num i s).cap = numbering s.cap := by
  simp [commitArrival, modSeam_numbering]

/-- A seam that is out of range reads as one that receives nothing. -/
theorem receiving_modSeam {f : Seam → Seam} (hf : ∀ x, (f x).receiving = false) (n : Nat) (s : State) :
    (seamOf n (modSeam n f s)).receiving = false := by
  unfold seamOf modSeam modCap
  rcases Nat.lt_or_ge n s.cap.seams.length with h | h
  · rw [getD_modAt _ _ _ _ h]
    exact hf _
  · rw [List.getD_eq_default _ _ (by simpa using h)]

@[simp] theorem noteDrop_receiving (n : Nat) (s : State) : (seamOf n (noteDrop n s)).receiving = false :=
  receiving_modSeam (fun _ => rfl) n s

/-- A port's frame is dropped without touching a ring when its seam receives nothing. -/
theorem portDrop_numbering {p : Nat} {s : State} (h : ∀ n, portSeam p s = some n → (seamOf n s).receiving = false) :
    numbering (portDrop p s).cap = numbering s.cap := by
  unfold portDrop
  extract_lets x t
  have ht : numbering t.cap = numbering s.cap := modPort_numbering (by intro; rfl) p s
  split
  · next n hn =>
    have hrec : (seamOf n t).receiving = false := h n hn
    simp [hrec, ht]
  · exact ht

/-- An arriving frame enters its seam's ring under its number, or changes no number. -/
theorem arrive_numbering (n : Nat) (h : FrameHeader) (i : Int) (s : State) :
    numbering (arrive n h i s).cap = numbering s.cap ∨
      numbering (arrive n h i s).cap = (numbering s.cap).enter n h.num := by
  unfold arrive
  extract_lets role x w now early u lat f
  have hu : numbering u.cap = numbering s.cap := commitArrival_numbering n h.num i s
  split
  · exact .inl (by simp [hu])
  · split
    · exact .inl (by simp [hu, overflowDrop, countRingDrop, modSeam_numbering])
    · refine .inr ?_
      rw [← hu]
      simp only [numbering, Numbering.enter, noteFirst, modSeam, modCap_cap, Numbering.mk.injEq, and_true]
      refine ⟨map_modAt_id ?next _ n, map_modAt ?ring _ n⟩
      case next => exact fun _ => rfl
      case ring => exact fun _ => List.map_append

/-! ### A rise of FV -/

theorem settleTag_lastNum (k : Nat) (x : Port) : (settleTag k x).lastNum = x.lastNum := by
  unfold settleTag
  split <;> rfl

/-- The state in which a frame that begins at port `p` of seam `n` has taken its number and opened its record. -/
def numbered (p n : Nat) (s : State) : State :=
  let k := (seamOf n s).nextNum
  let t := modPort p (fun y => settleTag k { y with lastNum := k, awaiting := none, fvRise := some (nowUnits s), fvFall := none })
    (modSeam n (fun y => { y with nextNum := k + 1 }) s)
  openRecord n p k (portOf p t).tag (exposureOf p n s).1 t

theorem numbered_numbering (p n : Nat) (s : State) :
    numbering (numbered p n s).cap = (numbering s.cap).begin n p (seamOf n s).nextNum := by
  simp only [numbered, openRecord_cap, modPort, modSeam, modCap_cap, numbering, Numbering.begin, Numbering.mk.injEq]
  refine ⟨map_modAt ?next _ n, map_modAt_id ?ring _ n, map_modAt ?last _ p⟩
  case next => exact fun _ => rfl
  case ring => exact fun _ => rfl
  case last => exact fun _ => settleTag_lastNum _ _

/-- What of a frame's beginning follows its number: a drop for a port that does not run, a drop for a gang that disagrees, or
the frame's arrival. -/
theorem beginFrame_cases (p n : Nat) (gang : Bool) (s : State) :
    let k := (seamOf n s).nextNum
    let u := numbered p n s
    let i := (exposureOf p n s).2
    let drop := fun t => loopFrame n k (portOf p u).tag (portDrop p t)
    let t := loopFrame n k (portOf p u).tag (arrive n (newHeader p n k (exposureOf p n s).1 u) i u)
    beginFrame p n gang s = drop (noteDrop n (commitArrival n k i u)) ∨
    beginFrame p n gang s = drop (raise 2 (portErr p 4) p [] (noteDrop n (commitArrival n k i u))) ∨
    beginFrame p n gang s = modPort p (fun y => { y with skip := false }) t ∨
    beginFrame p n gang s = closeRecord n k [] (modPort p (fun y => { y with skip := true }) t) := by
  intro k u i drop t
  have h : beginFrame p n gang s =
      if !(gangPorts u.cfg.accepted p).all fun q => (portOf q u).phase == .running then
        drop (noteDrop n (commitArrival n k i u))
      else if gang || !(gangPorts u.cfg.accepted p).all fun q => (portOf q u).clock then
        drop (raise 2 (portErr p 4) p [] (noteDrop n (commitArrival n k i u)))
      else if (seamOf n t).receiving then modPort p (fun y => { y with skip := false }) t
      else closeRecord n k [] (modPort p (fun y => { y with skip := true }) t) := rfl
  rw [h]
  split
  · exact .inl rfl
  · split
    · exact .inr (.inl rfl)
    · split
      · exact .inr (.inr (.inl rfl))
      · exact .inr (.inr (.inr rfl))

theorem numbered_cfg (p n : Nat) (s : State) : (numbered p n s).cfg = s.cfg :=
  congrArg Kept.cfg (show kept (numbered p n s) = kept s by simp [numbered])

theorem portSeam_of_cfg {s t : State} (h : t.cfg = s.cfg) (p : Nat) : portSeam p t = portSeam p s := by
  unfold portSeam
  rw [h]

theorem dropArrival_cfg (n k : Nat) (i : Int) (s : State) : (noteDrop n (commitArrival n k i s)).cfg = s.cfg := rfl

/-- A drop right after the arrival was committed finds no frame in the ring to drop. -/
theorem portDrop_numbering_of_noteDrop {p n : Nat} {s t : State} (hp : portSeam p t = some n)
    (hcap : t.cap = (noteDrop n s).cap) : numbering (portDrop p t).cap = numbering s.cap := by
  rw [portDrop_numbering, hcap, noteDrop_numbering]
  intro m hm
  obtain rfl : n = m := by simpa [hp] using hm
  unfold seamOf
  rw [hcap]
  exact noteDrop_receiving n _

/-- A frame that begins takes its seam's next number; if it enters the ring, it does so under that number. -/
theorem beginFrame_numbering {p n : Nat} {s : State} (hp : portSeam p s = some n) (gang : Bool) :
    let x := (numbering s.cap).begin n p (seamOf n s).nextNum
    numbering (beginFrame p n gang s).cap = x ∨
      numbering (beginFrame p n gang s).cap = x.enter n (seamOf n s).nextNum := by
  intro x
  have hx : numbering (numbered p n s).cap = x := numbered_numbering p n s
  have hport : portSeam p (numbered p n s) = some n := (portSeam_of_cfg (numbered_cfg p n s) p).trans hp
  have harr := arrive_numbering n (newHeader p n (seamOf n s).nextNum (exposureOf p n s).1 (numbered p n s))
    (exposureOf p n s).2 (numbered p n s)
  rw [hx] at harr
  have hdrop : ∀ t : State, t.cfg = (numbered p n s).cfg →
      t.cap = (noteDrop n (commitArrival n (seamOf n s).nextNum (exposureOf p n s).2 (numbered p n s))).cap →
      numbering (portDrop p t).cap = x := fun t hcfg hcap =>
    (portDrop_numbering_of_noteDrop ((portSeam_of_cfg hcfg p).trans hport) hcap).trans
      ((commitArrival_numbering ..).trans hx)
  rcases beginFrame_cases p n gang s with h | h | h | h <;> rw [h]
  · rw [loopFrame_numbering]
    exact .inl (hdrop _ (dropArrival_cfg ..) rfl)
  · rw [loopFrame_numbering]
    exact .inl (hdrop _ ((raise_cfg ..).trans (dropArrival_cfg ..)) (raise_cap ..))
  · rwa [modPort_numbering (fun _ => by rfl), loopFrame_numbering]
  · rwa [closeRecord_cap, modPort_numbering (fun _ => by rfl), loopFrame_numbering]

/-! ### FRAME_START -/

@[simp] theorem logFaults_cap (p m ck : Nat) (s : State) : (logFaults p m ck s).cap = s.cap := by
  unfold logFaults
  simp [apply_ite State.cap]

@[simp] theorem logFaults_pwr (p m ck : Nat) (s : State) : (logFaults p m ck s).pwr = s.pwr := by
  unfold logFaults
  simp [apply_ite State.pwr]

/-- What holds of a port holds of it after a port is changed, if the change keeps it. -/
theorem portOf_modPort {P : Port → Prop} {p q : Nat} {f : Port → Port} {s : State} (h : P (portOf p s))
    (hf : q = p → P (f (portOf p s))) : P (portOf p (modPort q f s)) := by
  rcases eq_or_ne q p with rfl | hne
  · rcases Nat.lt_or_ge q s.cap.ports.length with hlt | hge
    · simpa only [portOf, modPort, modCap_cap, getD_modAt _ _ _ _ hlt] using hf rfl
    · simpa [portOf, modPort, modAt, List.getElem?_modify, hge] using h
  · simpa [portOf, modPort, modAt, hne] using h

theorem hasPair_zero (i : Nat) : hasPair 0 i = false := by simp [hasPair]

/-- What the faults that take effect at an FV rise keep, for a port whose clock pair has none. -/
structure Sampled (p : Nat) (s t : State) : Prop where
  port : (portOf p t).clock = true ∧ hasPair (portOf p t).newFaults pairCK = false
  pwr : t.pwr = s.pwr
  numbers : numbering t.cap = numbering s.cap

section
variable {p q : Nat} {s t : State}

theorem Sampled.modPort {f : Port → Port} (h : Sampled p s t) (hnum : ∀ x, (f x).lastNum = x.lastNum)
    (hf : q = p → (f (portOf p t)).clock = true ∧ hasPair (f (portOf p t)).newFaults pairCK = false) :
    Sampled p s (modPort q f t) :=
  ⟨portOf_modPort (P := fun x => x.clock = true ∧ hasPair x.newFaults pairCK = false) h.port hf, h.pwr, (modPort_numbering hnum q t).trans h.numbers⟩

theorem Sampled.logFaults (h : Sampled p s t) (m ck : Nat) : Sampled p s (logFaults q m ck t) := by
  obtain ⟨hport, hpwr, hnum⟩ := h
  refine ⟨?_, by simpa using hpwr, by simpa using hnum⟩
  unfold portOf at hport ⊢
  simpa using hport

theorem Sampled.applyNewFaults (h : Sampled p s t) (q : Nat) : Sampled p s (applyNewFaults q t) := by
  unfold Sys2Proof.Machine.applyNewFaults loseClock
  extract_lets m u v
  have hpair : q = p → hasPair m pairCK = false := by
    rintro rfl
    exact h.port.2
  have hu : Sampled p s u := by
    refine Sampled.logFaults (Sampled.modPort h (fun _ => by rfl) fun _ => ⟨h.port.1, ?_⟩) m 2
    exact hasPair_zero pairCK
  have hv : Sampled p s v := by
    unfold v
    split
    · next hck => exact Sampled.modPort hu (fun _ => by rfl) fun hq => absurd hck (by simp [hpair hq])
    · exact hu
  split
  · exact h
  · split
    · exact Sampled.modPort hv (fun _ => by rfl) fun _ => hv.port
    · exact hv

end

theorem newFaults_sampled {p : Nat} {s : State}
    (h : (portOf p s).clock = true ∧ hasPair (portOf p s).newFaults pairCK = false) (l : List Nat) :
    Sampled p s (l.foldl (fun t q => applyNewFaults q t) s) :=
  List.foldlRecOn l _ ⟨h, rfl, rfl⟩ fun _ ht q _ => ht.applyNewFaults q

theorem newFaults_cfg (l : List Nat) (s : State) : (l.foldl (fun t q => applyNewFaults q t) s).cfg = s.cfg :=
  congrArg Kept.cfg (kept_foldl _ l s fun u q => applyNewFaults_kept q u)

theorem closeWindow_lastNum (k : Nat) (x : Port) : (closeWindow k x).lastNum = x.lastNum := by
  unfold closeWindow
  split <;> rfl

/-- FRAME_START at a live leader whose clock stands begins the frame of its seam. -/
theorem frameStart_begins {p n : Nat} {skews : List Int} {s : State} (hlive : portLive p s = true) (hlead : leadOf p s = p)
    (hfv : (portOf p s).fv = false) (hclock : (portOf p s).clock = true)
    (hphase : (portOf p s).phase = .running ∨ (portOf p s).phase = .retrain) (hseam : portSeam p s = some n)
    (hpair : hasPair (portOf p s).newFaults pairCK = false) (hpwr : s.pwr.entering = false) :
    ∃ u, exec (.frameStart p skews) s = .next (beginFrame p n (skewsBad skews) u) ∧ portSeam p u = some n ∧
      numbering u.cap = numbering s.cap := by
  set v := (gangPorts s.cfg.accepted p).foldl (fun t q => applyNewFaults q t) s with hv
  obtain ⟨⟨hclk, -⟩, hvpwr, hnum⟩ : Sampled p s v := newFaults_sampled ⟨hclock, hpair⟩ _
  have hport : portSeam p v = some n := (portSeam_of_cfg (newFaults_cfg _ s) p).trans hseam
  refine ⟨modPort p (fun y => { y with fv := true, lv := false, skip := true, lines := 0 })
    (modCap (fun c => { c with
      ports := modMany (gangPorts s.cfg.accepted p) (fun y => { closeWindow (nowUnits v) y with moved := false }) c.ports }) v),
    ?exec, hport, ?numbering⟩
  case exec =>
    have hoff : (portOf p s).phase ≠ .off ∧ (portOf p s).phase ≠ .bringUp ∧ (portOf p s).phase ≠ .stopped := by
      rcases hphase with h | h <;> simp [h]
    obtain ⟨h1, h2, h3⟩ := hoff
    have hent : v.pwr.entering = false := hvpwr ▸ hpwr
    unfold exec execFrameStart
    dsimp only
    rw [if_neg (by simp [hlive, hlead, hfv, hclock, h1, h2, h3]), ← hv, if_neg (by simp [hclk])]
    split
    · next m hm =>
      obtain rfl : m = n := Option.some.inj (hm.symm.trans ((portSeam_of_cfg rfl p).trans hport))
      exact congrArg _ (if_neg (by rw [Bool.not_eq_true]; exact hent))
    · next hm => exact absurd (hm.symm.trans ((portSeam_of_cfg rfl p).trans hport)) (by simp)
  case numbering =>
    rw [modPort_numbering (fun _ => by rfl), modMany_numbering _ _ v, hnum]
    exact fun x => closeWindow_lastNum _ x

/-- A frame begun on a state that holds the numbers of `s` raises the next number of its seam, and only its number enters the
ring. -/
theorem numbers_of_begin {p n : Nat} {s t : State} (hp : p < s.cap.ports.length) (hn : n < s.cap.seams.length)
    (h : numbering t.cap = (numbering s.cap).begin n p (seamOf n s).nextNum ∨
      numbering t.cap = ((numbering s.cap).begin n p (seamOf n s).nextNum).enter n (seamOf n s).nextNum) :
    (seamOf n t).nextNum = (seamOf n s).nextNum + 1 ∧ (portOf p t).lastNum = (seamOf n s).nextNum ∧
      ∀ f ∈ (seamOf n t).frames, f.header.num = (seamOf n s).nextNum ∨ f.header.num ∈ (seamOf n s).frames.map (·.header.num) := by
  set k := (seamOf n s).nextNum
  have hnext : (numbering t.cap).next = ((numbering s.cap).begin n p k).next := h.elim (congrArg Numbering.next) (congrArg Numbering.next)
  have hlast : (numbering t.cap).last = ((numbering s.cap).begin n p k).last := h.elim (congrArg Numbering.last) (congrArg Numbering.last)
  refine ⟨?_, ?_, fun f hf => ?_⟩
  · rw [← nextNum_of_numbering n t, hnext]
    exact getD_modAt 0 _ _ n (by simpa [numbering] using hn)
  · rw [← lastNum_of_numbering p t, hlast]
    exact getD_modAt 0 _ _ p (by simpa [numbering] using hp)
  · have hmem : f.header.num ∈ (numbering t.cap).rings.getD n [] := by
      rw [ring_of_numbering]
      exact List.mem_map_of_mem hf
    rcases h with h | h <;> rw [h] at hmem
    · exact .inr (ring_of_numbering n s ▸ hmem)
    · have hring : (((numbering s.cap).begin n p k).enter n k).rings.getD n [] = (numbering s.cap).rings.getD n [] ++ [k] :=
        getD_modAt [] _ _ n (by simpa [numbering, Numbering.begin] using hn)
      rw [hring, ring_of_numbering, List.mem_append, List.mem_singleton] at hmem
      exact hmem.symm

/-- Settles O38: ROLE_START leaves no number used, and a frame that begins takes its seam's next number whatever becomes of
it. -/
theorem frameNumbers : Obligations.FrameNumbers := by
  unfold Obligations.FrameNumbers
  refine ⟨?roleStart, ?frameStart⟩
  case roleStart =>
    intro s hs
    refine ⟨roleStart s, by simp [exec, execRoleStart, hs], fun n => ?_⟩
    obtain ⟨u, hu⟩ := roleStart_numbering s
    rw [← nextNum_of_numbering, hu, resetBlocks_next, List.getD_eq_getElem?_getD, List.getElem?_getD_replicate_default_eq]
  case frameStart =>
    intro p n skews s hlive hlead hfv hclock hphase hseam hpair hpwr hp hn
    obtain ⟨u, hexec, hport, hnum⟩ := frameStart_begins (skews := skews) hlive hlead hfv hclock hphase hseam hpair hpwr
    have hk : (seamOf n u).nextNum = (seamOf n s).nextNum := by
      rw [← nextNum_of_numbering, hnum, nextNum_of_numbering]
    have hbegin := beginFrame_numbering hport (skewsBad skews)
    rw [hnum, hk] at hbegin
    obtain ⟨hnext, hlast, hring⟩ := numbers_of_begin hp hn hbegin
    refine ⟨_, hexec, hnext, hlast, fun f hf => .inr ((hring f hf).imp_right fun hold => ?_)⟩
    obtain ⟨g, hg, heq⟩ := List.mem_map.mp hold
    exact ⟨g, hg, heq.symm⟩

end Sys2Proof.Proofs

/-! PROOFS. The outputs' selections and frame starts (R466, R467, R469, R471, R475, R476, R481) and the events of the viewfinder
panels (R601 to R605). -/

namespace Sys2Proof.Proofs
open Sys2Proof Sys2Proof.Machine Sys2Proof.Laws

/-! ### Rules of the outputs -/

/-- An output that exists. -/
def outHas (o : OutId) (s : State) : Prop :=
  match o with
  | .sdi k => k < s.out.sdi.length
  | .snd n => n < s.out.snd.length

theorem outputOf_modOutput {o : OutId} {s : State} (h : outHas o s) (f : Output → Output) :
    outputOf o (modOutput o f s) = f (outputOf o s) := by
  cases o <;> exact getD_modAt {} f _ _ h

theorem outHas_modOutput {o : OutId} {s : State} (h : outHas o s) (f : Output → Output) : outHas o (modOutput o f s) := by
  cases o <;> simpa [outHas, modOutput] using h

theorem getD_modAt_proj {α β : Type} {g : α → β} {f : α → α} (h : ∀ x, g (f x) = g x) (l : List α) (n k : Nat) (d : α) :
    g ((modAt l n f).getD k d) = g (l.getD k d) := by
  simp only [modAt, List.getD_eq_getElem?_getD, List.getElem?_modify]
  split <;> cases l[k]? <;> simp [h]

/-- What a change of an output leaves of it, it leaves also of one that does not exist. -/
theorem outputOf_modOutput_proj {α : Type} {g : Output → α} {f : Output → Output} (h : ∀ x, g (f x) = g x) (o : OutId)
    (s : State) : g (outputOf o (modOutput o f s)) = g (outputOf o s) := by
  cases o <;> exact getD_modAt_proj h _ _ _ _

@[simp] theorem modOutput_log (o : OutId) (f : Output → Output) (s : State) : (modOutput o f s).log = s.log := by
  cases o <;> rfl

/-- An error is raised beside the outputs: neither sees the other. -/
theorem raise_modOuts (sev code inst : Nat) (ds : List Nat) (f : Outputs → Outputs) (s : State) :
    raise sev code inst ds (modOuts f s) = modOuts f (raise sev code inst ds s) := by
  have hone : ∀ sev code inst ds (t : State), raiseOne sev code inst ds (modOuts f t) = modOuts f (raiseOne sev code inst ds t) :=
    fun _ _ _ _ _ => rfl
  have hrun : ∀ code inst (t : State), openRun code inst (modOuts f t) = modOuts f (openRun code inst t) := by
    intro code inst t
    unfold openRun
    rw [apply_ite (modOuts f)]
    rfl
  unfold raise
  dsimp only
  simp only [hone, hrun]
  exact (apply_ite (modOuts f) _ _ _).symm

theorem raise_modOuts_log (sev code inst : Nat) (ds : List Nat) (f : Outputs → Outputs) (s : State) :
    (raise sev code inst ds (modOuts f s)).log = (raise sev code inst ds s).log := by
  rw [raise_modOuts, modOuts_log]

theorem raise_modOutput_log (sev code inst : Nat) (ds : List Nat) (o : OutId) (f : Output → Output) (s : State) :
    (raise sev code inst ds (modOutput o f s)).log = (raise sev code inst ds s).log := by
  cases o <;> exact raise_modOuts_log _ _ _ _ _ _

/-! ### Selections -/

theorem frameSelect_off {o : OutId} {s : State} (h : outOn o s = false ∨ outVideo o s.cfg.accepted = false) :
    exec (.outputFrameSelect o) s = .next s := by
  rcases h with h | h <;> simp [exec, execOutputFrameSelect, h]

theorem frameStart_off {o : OutId} {s : State} (h : outOn o s = false ∨ outVideo o s.cfg.accepted = false) (e : Int) :
    exec (.outputFrameStart o e) s = .next s := by
  rcases h with h | h <;> simp [exec, execOutputFrameStart, h]

/-- A selection notes what it commits and looks at, and then takes the newest current buffer or repeats. -/
theorem frameSelect_on {o : OutId} {s : State} (hon : outOn o s = true) (hv : outVideo o s.cfg.accepted = true) {e : Nat}
    {r : OutRing} (he : e = srcEpoch (outSrc o s.cfg.accepted).1 (outSrc o s.cfg.accepted).2 s)
    (hr : r = srcRing (outSrc o s.cfg.accepted).1 (outSrc o s.cfg.accepted).2 s) {u : State}
    (hu : u = modOutput o (fun x => { x with
      hold := outFld F.SDI_HOLD_FRAMES F.SND_HOLD_FRAMES o s.cfg.accepted, next := frameFromNs o (nowNs s) s.cfg.accepted
      seen := (r.bufs.map (·.order)).foldl max x.seen
      stale := (x.stale + (r.bufs.filter fun b => decide (x.seen < b.order) && b.pic.header.epoch != e).length) % 2 ^ 32 }) s) :
    exec (.outputFrameSelect o) s = .next (match newestCurrent e r with
      | some i => if (r.bufs.getD i {}).order = (outputOf o s).order then repeatHeld o u else takeHold o i u
      | none => repeatHeld o u) := by
  have horder : (outputOf o u).order = (outputOf o s).order := by
    rw [hu]
    exact outputOf_modOutput_proj (g := (·.order)) (fun _ => by rfl) o s
  have hepoch : ∀ a b f, srcEpoch a b (modOutput o f s) = srcEpoch a b s := by
    intro a b f
    cases o <;> rfl
  unfold exec execOutputFrameSelect
  dsimp only
  rw [if_neg (by simp [hon, hv]), hepoch, ← he, ← hr]
  rw [← horder, hu]
  rfl

section
variable {k : Nat} {s : State} (hk : k < s.out.sdi.length)
include hk

theorem repeatHeld_repeats (hheld : (outputOf (.sdi k) s).held.isSome = true)
    (hrun : (outputOf (.sdi k) s).hold = 0 ∨ (outputOf (.sdi k) s).run < (outputOf (.sdi k) s).hold) :
    (outputOf (.sdi k) (repeatHeld (.sdi k) s)).mode = 2 ∧
      (outputOf (.sdi k) (repeatHeld (.sdi k) s)).run = (outputOf (.sdi k) s).run + 1 ∧
      (repeatHeld (.sdi k) s).log = s.log := by
  have h : repeatHeld (.sdi k) s = modOutput (.sdi k) (fun y => { y with mode := 2, run := y.run + 1, noted := false }) s := by
    unfold repeatHeld
    refine if_pos ?_
    have hfew : ¬((outputOf (.sdi k) s).hold ≠ 0 ∧ (outputOf (.sdi k) s).hold ≤ (outputOf (.sdi k) s).run) := by omega
    simp only [Option.isNone_eq_false_iff.mpr hheld, decide_eq_false hfew, Bool.or_false, Bool.not_false]
  have hout := outputOf_modOutput (o := .sdi k) (s := s) hk fun y => { y with mode := 2, run := y.run + 1, noted := false }
  rw [h, hout]
  exact ⟨rfl, rfl, modOutput_log _ _ _⟩

theorem repeatHeld_background (hheld : (outputOf (.sdi k) s).held = none) :
    (outputOf (.sdi k) (repeatHeld (.sdi k) s)).mode = 3 ∧
      ((outputOf (.sdi k) s).noted = true → (repeatHeld (.sdi k) s).log = s.log) ∧
      ((outputOf (.sdi k) s).noted = false → outActive s = true →
        (repeatHeld (.sdi k) s).log = (raise 1 (bgErr (.sdi k)) k [] s).log) := by
  set t := modOutput (.sdi k) (fun y => { y with mode := 3, noted := y.noted || outActive s }) s with ht
  have h : repeatHeld (.sdi k) s =
      if (outputOf (.sdi k) s).noted || !outActive s then t else raise 1 (bgErr (.sdi k)) (outNum (.sdi k)) [] t := by
    unfold repeatHeld
    exact if_neg (by simp [hheld])
  have hmode : (outputOf (.sdi k) t).mode = 3 := by
    rw [ht, outputOf_modOutput (o := .sdi k) hk]
  refine ⟨?_, fun hn => ?_, fun hn ha => ?_⟩
  · rw [h]
    split
    · exact hmode
    · unfold outputOf at hmode ⊢
      simpa using hmode
  · rw [h, if_pos (by simp [hn])]
    exact modOutput_log _ _ _
  · rw [h, if_neg (by simp [hn, ha])]
    exact raise_modOutput_log _ _ _ _ _ _ _

end

/-! ### Frame starts -/

theorem frameStart_standby {o : OutId} {s : State} (hon : outOn o s = true) (hv : outVideo o s.cfg.accepted = true)
    (ha : outActive s = false) (e : Int) :
    exec (.outputFrameStart o e) s = .next (modOutput o (fun x => { x with sent := none }) (steerPair o e s)) := by
  simp [exec, execOutputFrameStart, hon, hv, ha]

/-- What every output notes of a frame it starts. -/
def frameBegun (o : OutId) (e : Int) (x : Output) (w : Words) (y : Output) : Output :=
  { y with
    sent := sentPic o x w, frame := x.next, filling := false
    repeats := if x.mode = 2 then wrapInc 32 y.repeats else y.repeats
    backgrounds := if x.mode = 3 then wrapInc 32 y.backgrounds else y.backgrounds
    errPs := e, stamp := videoStamp o x.next w }

/-- An SDI output whose frame has begun: its pair steered by the error, its picture and audio on the way. -/
def sdiBegun (k : Nat) (e : Int) (s : State) : State :=
  modOutput (.sdi k) (fun y => { y with audio := frameAudio k (outputOf (.sdi k) s).next s })
    (modOutput (.sdi k) (frameBegun (.sdi k) e (outputOf (.sdi k) s) s.cfg.accepted) (steerPair (.sdi k) e s))

theorem sdiFrameStart_active {k : Nat} {s : State} (hon : outOn (.sdi k) s = true) (ha : outActive s = true) (e : Int) :
    exec (.outputFrameStart (.sdi k) e) s = .next (if halfLinePs k s.cfg.accepted < e.natAbs then
      raise 0 (0x0D04 + k) k [] (modOutput (.sdi k) (fun y => { y with rephases := wrapInc 32 y.rephases, filling := true })
        (sdiBegun k e s))
      else sdiBegun k e s) := by
  have hv : outVideo (.sdi k) s.cfg.accepted = true := rfl
  simp only [exec, execOutputFrameStart, hon, hv, ha]
  rfl

section
variable {k : Nat} {s : State}

theorem outHas_sdiBegun (hk : k < s.out.sdi.length) (e : Int) : outHas (.sdi k) (sdiBegun k e s) :=
  outHas_modOutput (outHas_modOutput (o := .sdi k) (s := steerPair (.sdi k) e s) hk _) _

theorem outputOf_sdiBegun (hk : k < s.out.sdi.length) (e : Int) :
    outputOf (.sdi k) (sdiBegun k e s) =
      { frameBegun (.sdi k) e (outputOf (.sdi k) s) s.cfg.accepted (outputOf (.sdi k) s) with
        audio := frameAudio k (outputOf (.sdi k) s).next s } := by
  have hin : outHas (.sdi k) (steerPair (.sdi k) e s) := hk
  unfold sdiBegun
  rw [outputOf_modOutput (outHas_modOutput hin _), outputOf_modOutput hin]
  rfl

theorem sdiBegun_pull (h : k / 2 < s.out.pairs.length) (e : Int) :
    ((sdiBegun k e s).out.pairs.getD (k / 2) {}).pull = Config.steerPull (k / 2) e :=
  congrArg Divider.pull (getD_modAt ({} : Divider) (fun d : Divider => { d with pull := Config.steerPull (k / 2) e }) _ _ h)

theorem raise_sdiBegun_log (sev code inst : Nat) (ds : List Nat) (k : Nat) (e : Int) (s : State) :
    (raise sev code inst ds (sdiBegun k e s)).log = (raise sev code inst ds s).log := by
  unfold sdiBegun
  rw [raise_modOutput_log, raise_modOutput_log]
  exact raise_modOuts_log _ _ _ _ _ _

theorem outputOf_raise (o : OutId) (sev code inst : Nat) (ds : List Nat) (s : State) :
    outputOf o (raise sev code inst ds s) = outputOf o s := by
  cases o <;> simp [outputOf]

end

theorem sndFrameStart_active {n : Nat} {s : State} (hon : outOn (.snd n) s = true) (hv : outVideo (.snd n) s.cfg.accepted = true)
    (ha : outActive s = true) (e : Int) :
    exec (.outputFrameStart (.snd n) e) s = .next (sendPackets n (senderLoad n s.cfg.accepted).1
      (modOutput (.snd n) (frameBegun (.snd n) e (outputOf (.snd n) s) s.cfg.accepted) s)) := by
  simp only [exec, execOutputFrameStart, hon, hv, ha]
  rfl

/-- What an SDI output holds once its frame has begun, whether it re-phases or not (R466, R474 to R476). -/
theorem sdiFrameStart_leaves {k : Nat} {s : State} (hon : outOn (.sdi k) s = true) (ha : outActive s = true)
    (hk : k < s.out.sdi.length) (e : Int) :
    ∃ t, exec (.outputFrameStart (.sdi k) e) s = .next t ∧
      (outputOf (.sdi k) t).sent = sentPic (.sdi k) (outputOf (.sdi k) s) s.cfg.accepted ∧ (outputOf (.sdi k) t).errPs = e ∧
      (outputOf (.sdi k) t).frame = (outputOf (.sdi k) s).next ∧
      (outputOf (.sdi k) t).audio = frameAudio k (outputOf (.sdi k) s).next s ∧
      (k / 2 < s.out.pairs.length → (t.out.pairs.getD (k / 2) {}).pull = Config.steerPull (k / 2) e) ∧
      (e.natAbs ≤ halfLinePs k s.cfg.accepted → t.log = s.log) ∧
      (halfLinePs k s.cfg.accepted < e.natAbs → t.log = (raise 0 (0x0D04 + k) k [] s).log ∧
        (outputOf (.sdi k) t).rephases = wrapInc 32 (outputOf (.sdi k) s).rephases) := by
  have hout := outputOf_sdiBegun hk e
  rw [sdiFrameStart_active hon ha e]
  by_cases hhalf : halfLinePs k s.cfg.accepted < e.natAbs
  · rw [if_pos hhalf]
    refine ⟨_, rfl, ?_⟩
    rw [outputOf_raise, outputOf_modOutput (outHas_sdiBegun hk e), hout, raise_modOutput_log, raise_sdiBegun_log, raise_out]
    exact ⟨rfl, rfl, rfl, rfl, fun h => sdiBegun_pull h e, fun h => absurd hhalf (by omega), fun _ => ⟨rfl, rfl⟩⟩
  · rw [if_neg hhalf]
    refine ⟨_, rfl, ?_⟩
    rw [hout]
    exact ⟨rfl, rfl, rfl, rfl, fun h => sdiBegun_pull h e, fun _ => rfl, fun h => absurd h hhalf⟩

/-! ### Senders -/

theorem outputOf_macSend (o : OutId) (m ip k : Nat) (s : State) : outputOf o (macSend m ip k s) = outputOf o s := by
  unfold macSend
  dsimp only
  split
  · rfl
  · split
    · cases o <;> rfl
    · split
      · rfl
      · cases o <;> rfl

theorem outputOf_sendPackets {n : Nat} {s : State} (hn : n < s.out.snd.length) (k : Nat) :
    outputOf (.snd n) (sendPackets n k s) = { outputOf (.snd n) s with
      packets := ((outputOf (.snd n) s).packets + k) % 2 ^ 64, rtpSeq := ((outputOf (.snd n) s).rtpSeq + k) % 65536
      seq0 := (outputOf (.snd n) s).packets } := by
  have hfold : ∀ (l : List (Nat × Nat)) (t : State),
      outputOf (.snd n) (l.foldl (fun u d => macSend d.1 d.2 k u) t) = outputOf (.snd n) t := by
    intro l
    induction l with
    | nil => exact fun _ => rfl
    | cons d l ih => exact fun t => (ih _).trans (outputOf_macSend _ _ _ _ _)
  unfold sendPackets
  rw [hfold, outputOf_modOutput (o := .snd n) hn]

theorem audioPacket_sent {n : Nat} {s : State} (hon : outOn (.snd n) s = true) (hkind : cfgN F.SND_KIND n s = 1)
    (ha : outActive s = true) :
    exec (.audioPacketTimer n) s = .next (sendPackets n 1 (modOutput (.snd n) (fun x => { x with
      stamp := audioStamp ((nowNs s : Int) - Config.audioLag)
      audio := audioRun (cfgN F.SND_AUDIO_MASK n s) (sampleFrom ((nowNs s : Int) - Config.audioLag))
        (audioPacket n s.cfg.accepted).1 s }) s)) := by
  change execAudioPacketTimer n s = _
  unfold execAudioPacketTimer
  rw [if_pos (by simp [hon, hkind, ha])]
  rfl

/-! ### Dividers -/

theorem moveDivider_bounds (ticks : Nat) {limit : Int} (want : Int) (d : Divider) (h : 0 ≤ limit) :
    (moveDivider ticks limit want d).offset ≤ d.offset + ticks ∧ d.offset ≤ (moveDivider ticks limit want d).offset + ticks ∧
      (-limit ≤ d.offset → d.offset ≤ limit →
        -limit ≤ (moveDivider ticks limit want d).offset ∧ (moveDivider ticks limit want d).offset ≤ limit) := by
  have hgoal : -limit ≤ clampI (-limit) limit (want + d.pull) ∧ clampI (-limit) limit (want + d.pull) ≤ limit := by
    unfold clampI
    split_ifs <;> omega
  unfold moveDivider
  generalize clampI (-limit) limit (want + d.pull) = g at hgoal ⊢
  dsimp only
  unfold clampI
  split_ifs <;> omega

/-! ### Panels -/

theorem vfOf_modVf {k : Nat} {s : State} (h : k < s.out.views.length) (f : View_ → View_) :
    vfOf k (modVf k f s) = f (vfOf k s) := getD_modAt ({} : View_) f _ _ h

/-- What an edge of TE notes of its interval keeps at most eight intervals. -/
theorem teEdge_updates {k : Nat} {s : State} (hon : vfOn k s = true) (ha : outActive s = true) (late : Option VfLate) :
    ∃ u, exec (.teEdge k late) s = .next (vfUpdate k true late u) ∧
      (k < s.out.views.length → (vfOf k u).timer = false ∧ (vfOf k u).lastTe = some (nowNs s) ∧
        (vfOf k u).te.length ≤ max 8 (vfOf k s).te.length) ∧ u.log = s.log := by
  refine ⟨modVf k (fun v => { v with
      timer := false, lastTe := some (nowNs s)
      te := match v.lastTe with
        | some t => ((nowNs s - t) :: v.te).take 8
        | none => v.te }) (endRun (0x1104 + k) k s), ?_, fun h => ?_, rfl⟩
  · change execTeEdge k late s = _
    unfold execTeEdge
    have hoff : ¬ (!vfOn k s) = true := by simp [hon]
    have hidle : ¬ (!outActive s) = true := by simp [ha]
    exact congrArg _ ((if_neg hoff).trans ((if_neg hidle).trans rfl))
  · rw [vfOf_modVf (by simpa using h)]
    refine ⟨rfl, rfl, ?_⟩
    dsimp only
    split
    · simp only [List.length_take]
      omega
    · exact le_max_right _ _

section
variable {k : Nat} {s : State}

theorem teAbsentExpiry_idle (h : outActive s = false ∨ (vfOf k s).timer = true) : exec (.teAbsentExpiry k) s = .next s := by
  change execTeAbsentExpiry k s = _
  unfold execTeAbsentExpiry
  rw [if_neg (by rcases h with h | h <;> simp [h])]

theorem panelTimer_idle (late : Option VfLate) (h : outActive s = false ∨ (vfOf k s).timer = false) :
    exec (.panelTimer k late) s = .next s := by
  change execPanelTimer k late s = _
  unfold execPanelTimer
  rw [if_neg (by rcases h with h | h <;> simp [h])]

theorem blankExpiry_idle (h : (vfOf k s).blanked = true) : exec (.blankExpiry k) s = .next s := by
  change execBlankExpiry k s = _
  unfold execBlankExpiry
  dsimp only
  rw [if_neg (by simp [h])]

variable (hon : vfOn k s = true)
include hon

theorem teEdge_standby (ha : outActive s = false) (late : Option VfLate) : exec (.teEdge k late) s = .next (vfTake k s) := by
  change execTeEdge k late s = _
  unfold execTeEdge
  rw [if_neg (by simp [hon]), if_pos (by simp [ha])]

theorem teAbsentExpiry_logs (ha : outActive s = true) (ht : (vfOf k s).timer = false) :
    exec (.teAbsentExpiry k) s =
      .next (raise 1 (0x1104 + k) k [] (modVf k (fun v => { v with timer := true, lastTe := none, te := [] }) s)) := by
  change execTeAbsentExpiry k s = _
  unfold execTeAbsentExpiry
  rw [if_pos (by simp [hon, ha, ht])]

theorem panelTimer_updates (ha : outActive s = true) (ht : (vfOf k s).timer = true) (late : Option VfLate) :
    exec (.panelTimer k late) s = .next (vfUpdate k false late s) := by
  change execPanelTimer k late s = _
  unfold execPanelTimer
  rw [if_pos (by simp [hon, ha, ht])]

theorem blankExpiry_blanks (htap : F.VF_SRC_TAP_EN.on k s.cfg.accepted = true)
    (hms : F.VF_SRC_BLANK_MS.get k (vfOf k s).bound ≠ 0) (hb : (vfOf k s).blanked = false)
    (hdue : (vfOf k s).lastBuf + F.VF_SRC_BLANK_MS.get k (vfOf k s).bound * ticksPerMs ≤ s.dev.elapsed) :
    exec (.blankExpiry k) s = .next (raise 0 (0x110A + k) k [] (modVf k (fun v => { v with
      blanked := true, tapDirty := addTiles v.tapDirty (tapTiles k s.cfg.accepted) }) s)) := by
  change execBlankExpiry k s = _
  unfold execBlankExpiry
  dsimp only
  rw [if_pos (by simp [hon, htap, hms, hb, hdue])]

end

/-- Settles O57: each event is followed through the branch its state selects, output by output and panel by panel. -/
theorem outputsAndPanels : Obligations.OutputsAndPanels := by
  unfold Obligations.OutputsAndPanels
  refine ⟨?off, ?select, ?held, ?standby, ?sdi, ?snd, ?divider, ?audio, ?panels⟩
  case off => exact fun o e s h => ⟨frameSelect_off h, frameStart_off h e⟩
  case select =>
    intro o i e r s u hon hv he hr hu
    rw [frameSelect_on hon hv he hr hu]
    refine ⟨fun hnone => ?_, fun hsome heq => ?_, fun hsome hne => ?_⟩
    · rw [hnone]
    · rw [hsome]
      exact congrArg _ (if_pos heq)
    · rw [hsome]
      exact congrArg _ (if_neg hne)
  case held => exact fun k s hk => ⟨repeatHeld_repeats hk, repeatHeld_background hk⟩
  case standby => exact fun o e s hon hv ha => frameStart_standby hon hv ha e
  case sdi => exact fun k e s hon ha hk => sdiFrameStart_leaves hon ha hk e
  case snd =>
    intro n e s hon hkind ha hn
    have hv : outVideo (.snd n) s.cfg.accepted = true := by simpa [outVideo, isSdi, outNum, cfgN] using hkind
    refine ⟨_, sndFrameStart_active hon hv ha e, ?_⟩
    rw [outputOf_sendPackets (by simpa [modOutput] using hn), outputOf_modOutput (o := .snd n) hn]
    exact ⟨rfl, rfl, rfl⟩
  case divider => exact fun ticks limit want d h => moveDivider_bounds ticks want d h
  case audio =>
    refine fun n s => ⟨audioPacket_sent, fun ha => ?_⟩
    change execAudioPacketTimer n s = _
    unfold execAudioPacketTimer
    rw [if_neg (by simp [ha])]
  case panels =>
    intro k late s hon
    exact ⟨fun ha => ⟨teEdge_standby hon ha late, teAbsentExpiry_idle (.inl ha), panelTimer_idle late (.inl ha)⟩,
      fun ha => teEdge_updates hon ha late, teAbsentExpiry_logs hon, fun ht => teAbsentExpiry_idle (.inr ht),
      fun ha ht => panelTimer_updates hon ha ht late, fun ht => panelTimer_idle late (.inr ht), blankExpiry_blanks hon,
      blankExpiry_idle⟩

end Sys2Proof.Proofs

/-! PROOFS. Status requests with arguments, and those that change what they report (R55, R359, R505, R586, R671, R697, R698, R767,
R806). -/

namespace Sys2Proof.Proofs
open Sys2Proof Sys2Proof.Machine Sys2Proof.Laws

/-! ### The argument word of a request -/

theorem reservedSet_mask {m : Nat} {w : Word} (h : w.toNat &&& m = w.toNat) : reservedSet [m] [w] = false := by
  rw [reservedSet_singleton]
  exact decide_eq_false (not_not_intro h)

/-- A request that names its page in word 1 and asks for `n` words of it. -/
theorem pageHas_request1 {c k tag n : Nat} {p : Path} {w : Word} {args : List Word} {pg : Page × Nat}
    (hp : pageOf (bits w.toNat 31 16) = some pg) (h : bits w.toNat 15 8 + n ≤ pg.1.words) :
    pageHas n (request1 c p k tag (w :: args)) = true := by
  have hreq : pageOf (reqPage (request1 c p k tag (w :: args))) = some pg := hp
  unfold pageHas
  rw [hreq]
  exact decide_eq_true h

section
variable {c tag : Nat} {p : Path} {w : Word} {s : State}

theorem settingsRead_answers (hc : c < 14) (ha : AtFront c p 0x0105 tag [w] s) (hs : Started s)
    (hmask : w.toNat &&& 0xFFFFFF07 = w.toNat) (hpos : 0 < w.toNat % 8) (hlt : w.toNat % 8 < 7)
    (hpage : bits w.toNat 31 16 ≠ 0x0F00) (hres : pageReserved (request1 c p 0x0105 tag [w]) = false)
    (hhas : pageHas (w.toNat % 8) (request1 c p 0x0105 tag [w]) = true) :
    exec (.settingsRead c) s = .next (replied (request1 c p 0x0105 tag [w])
      ((List.range (w.toNat % 8)).map fun i => wordOf (writtenWords s) (bits w.toNat 31 16) (bits w.toNat 15 8 + i))
      (popMsg c s)) := by
  have hcount : bits w.toNat 2 0 = w.toNat % 8 := by simp [bits]
  have hbad : settingsReadMsg.bad (request1 c p 0x0105 tag [w]) (popMsg c s) = false := by
    change (bits w.toNat 2 0 == 0 || bits w.toNat 2 0 == 7 || !pageHas (bits w.toNat 2 0) (request1 c p 0x0105 tag [w])) = false
    rw [hcount, hhas]
    simp
    omega
  have hact : settingsReadMsg.act (request1 c p 0x0105 tag [w]) false (popMsg c s) =
      (.accept ((List.range (w.toNat % 8)).map fun i => wordOf (writtenWords s) (bits w.toNat 31 16) (bits w.toNat 15 8 + i)),
        popMsg c s) := by
    change (Answer.accept ((List.range (bits w.toNat 2 0)).map fun i =>
      wordOf (if bits w.toNat 31 16 = 0x0F00 then s.islNv.cfg else writtenWords s) (bits w.toNat 31 16) (bits w.toNat 15 8 + i)),
        popMsg c s) = _
    rw [hcount, if_neg hpage]
  exact runRow_started (d := settingsReadMsg) ha (by decide) (by simp) rfl (routed_of_lt hc (by decide)) hs (hasBlk_always s) rfl
    (reservedSet_mask hmask) hbad hres rfl rfl (.inl (by decide)) hact rfl rfl _ (isCode_front ha (by decide) (by simp))

theorem admissionReport_answers {t : Term} (hc : c < 14) (ha : AtFront c p 0x0110 tag [w] s) (hs : Started s)
    (hw : w.toNat < 65536) (ht : reportTerm (request1 c p 0x0110 tag [w]) s = some t) :
    exec (.admissionReport c) s = .next (replied (request1 c p 0x0110 tag [w])
      ([t.id + t.inst * 2 ^ 8 + b2n t.fails * 2 ^ 16 + b2n (!t.evaluated) * 2 ^ 17] ++ loWords 2 t.value ++ loWords 2 t.limit)
      (popMsg c s)) := by
  have ht' : reportTerm (request1 c p 0x0110 tag [w]) (popMsg c s) = some t := ht
  have hbad : admissionReportMsg.bad (request1 c p 0x0110 tag [w]) (popMsg c s) = false := congrArg Option.isNone ht'
  have hact : admissionReportMsg.act (request1 c p 0x0110 tag [w]) false (popMsg c s) =
      (.accept ([t.id + t.inst * 2 ^ 8 + b2n t.fails * 2 ^ 16 + b2n (!t.evaluated) * 2 ^ 17] ++ loWords 2 t.value ++
        loWords 2 t.limit), popMsg c s) := by
    simp only [admissionReportMsg, ht']
  exact runRow_started (d := admissionReportMsg) ha (by decide) (by simp) rfl (routed_of_lt hc (by decide)) hs (hasBlk_always s) rfl
    (reservedSet_mask (and_mask (k := 16) rfl hw)) hbad rfl rfl rfl (.inl (by decide)) hact rfl rfl _
    (isCode_front ha (by decide) (by simp))

theorem clipQuery_answers (hc : c < 14) (ha : AtFront c p 0x0903 tag [w] s) (hs : Started s) (hb : hasBlk .recorder s = true)
    (hw : w.toNat < 4095) :
    ∃ rep : List Nat, rep.length = 7 ∧ rep.headD 9 = dirState s.rcd.dir w.toNat ∧
      exec (.clipQuery c) s = .next (replied (request1 c p 0x0903 tag [w]) rep (popMsg c s)) := by
  have hbad : clipQueryMsg.bad (request1 c p 0x0903 tag [w]) (popMsg c s) = false := beq_false_of_ne (Nat.ne_of_lt hw)
  exact ⟨_, rfl, rfl, runRow_started (d := clipQueryMsg) ha (by decide) (by simp) rfl (routed_of_lt hc (by decide)) hs hb rfl
    (reservedSet_mask (and_mask (k := 12) rfl (by omega))) hbad rfl rfl rfl (.inl (by decide)) rfl rfl rfl _
    (isCode_front ha (by decide) (by simp))⟩

theorem playbackStatus_answers (hc : c < 14) (ha : AtFront c p 0x0908 tag [w] s) (hs : Started s)
    (hb : hasBlk .recorder s = true) (hw : w.toNat < 8) :
    exec (.playbackStatus c) s = .next (replied (request1 c p 0x0908 tag [w])
      (let y := s.rcd.plays.getD w.toNat {}
       [y.state + y.clip * 4 + y.stream * 2 ^ 14] ++ loWords 2 y.lastNum ++ [y.units, y.failures]) (popMsg c s)) :=
  runRow_started (d := playbackStatusMsg) ha (by decide) (by simp) rfl (routed_of_lt hc (by decide)) hs hb rfl
    (reservedSet_mask (and_mask (k := 3) rfl hw)) rfl rfl rfl rfl (.inl (by decide)) rfl rfl rfl _
    (isCode_front ha (by decide) (by simp))

theorem powerStatus_answers (hc : c < 14) (ha : AtFront c p 0x1700 tag [w] s) (hs : Started s) (hw : w.toNat < 14) :
    ∃ rep : List Nat, rep.length = 7 ∧ (rep.drop 1).take 3 =
        [(s.hf.rails.getD w.toNat {}).now, (s.hf.rails.getD w.toNat {}).low, (s.hf.rails.getD w.toNat {}).high] ∧
      exec (.powerStatus c) s = .next (replied (request1 c p 0x1700 tag [w]) rep (popMsg c s)) := by
  have hbad : powerStatusMsg.bad (request1 c p 0x1700 tag [w]) (popMsg c s) = false := decide_eq_false (not_le_of_gt hw)
  exact ⟨_, rfl, rfl, runRow_started (d := powerStatusMsg) ha (by decide) (by simp) rfl (routed_of_lt hc (by decide)) hs
    (hasBlk_always s) rfl (reservedSet_mask (and_mask (k := 4) rfl (by omega))) hbad rfl rfl rfl (.inl (by decide)) rfl rfl rfl _
    (isCode_front ha (by decide) (by simp))⟩

theorem mailboxStatus_answers (hc : c < 14) (ha : AtFront c p 0x1400 tag [w] s) (hs : Started s) (hw : w.toNat < 16) :
    exec (.mailboxStatus c) s = .next (replied (request1 c p 0x1400 tag [w])
      (let ch := (popMsg c s).mbx.chans.getD w.toNat {}
       [receiverOf w.toNat s + b2n (s.mbx.asleep.contains (receiverOf w.toNat s)) * 2 ^ 3 + inWords w.toNat (popMsg c s) * 2 ^ 4,
        ch.handled, ch.refusals, ch.discarded, ch.tokensRefused, holderCode s.mbx.holder]) (popMsg c s)) :=
  runRow_started (d := mailboxStatusMsg) ha (by decide) (by simp) rfl (routed_of_lt hc (by decide)) hs (hasBlk_always s) rfl
    (reservedSet_mask (and_mask (k := 4) rfl hw)) rfl rfl rfl rfl (.inl (by decide)) rfl rfl rfl _
    (isCode_front ha (by decide) (by simp))

/-- The acknowledged queue loses its lost flag and no other part of it. -/
theorem errorQueueStatus_answers (hc : c < 14) (ha : AtFront c p 0x1501 tag [w] s) (hs : Started s) (hw : w.toNat < 2) :
    ∃ rep : List Nat, rep.length = 3 ∧ exec (.errorQueueStatus c) s = .next (replied (request1 c p 0x1501 tag [w]) rep
      (if w = 1 then { popMsg c s with err := { s.err with lostFlag := false } } else popMsg c s)) := by
  have hw1 : w = 1 ↔ w.toNat = 1 := BitVec.toNat_inj.symm
  have hinq : ∀ q : Prop, [Decidable q] →
      (((if q then modErr (fun x => { x with lostFlag := false }) (popMsg c s) else popMsg c s).mbx.chans.getD c {}).inq =
        ((popMsg c s).mbx.chans.getD c {}).inq) := by
    intro q _
    split <;> rfl
  rw [if_congr hw1 rfl rfl]
  exact ⟨_, rfl, runRow_started (d := errorQueueStatusMsg) ha (by decide) (by simp) rfl (routed_of_lt hc (by decide)) hs
    (hasBlk_always s) rfl (reservedSet_mask (and_mask (k := 1) rfl hw)) rfl rfl rfl rfl (.inl (by decide)) rfl rfl
    (hinq _) _ (isCode_front ha (by decide) (by simp))⟩

end

section
variable {c tag : Nat} {p : Path} {s : State}

theorem msgDef_ptpPortStatus {m : Nat} (hm : m < 4) : msgDef (0x0E08 + m) = some (ptpPortStatusMsg m) := by
  obtain rfl | rfl | rfl | rfl : m = 0 ∨ m = 1 ∨ m = 2 ∨ m = 3 := by omega
  all_goals rfl

theorem inFamily_front {k base step n : Nat} {args : List Word} (ha : AtFront c p k tag args s) (hk : k < 65536)
    (hn : args.length < 15) (h : (base ≤ k ∧ k < base + step * n) ∧ (k - base) % step = 0) :
    inFamily base step n (request1 c p k tag args) = true := by
  unfold inFamily
  simp [front_code ha hk hn, h]

theorem ptpPortStatus_answers {m : Nat} (hm : m < 4) (hc : c < 14) (ha : AtFront c p (0x0E08 + m) tag [] s) (hs : Started s)
    (hb : hasBlk .media s = true) :
    ∃ rep : List Nat, rep.length = 6 ∧ exec (.ptpPortStatus c) s = .next (replied (request1 c p (0x0E08 + m) tag []) rep
      (modPtp m (fun q => { q with overflow := false }) (popMsg c s))) :=
  ⟨_, rfl, runRow_started (d := ptpPortStatusMsg m) ha (by omega) (by simp) (msgDef_ptpPortStatus hm)
    (routed_of_lt hc (by omega)) hs hb rfl rfl rfl rfl rfl rfl (.inl PrivRule.noConfusion) rfl rfl rfl _
    (inFamily_front ha (by omega) (by simp) (by omega))⟩

theorem headPrimaryStatus_answers (hc : c < 14) (ha : AtFront c p 0x1004 tag [] s) (hs : Started s) (hrole : s.dev.role = .head) :
    exec (.headPrimaryStatus c) s = .next (replied (request1 c p 0x1004 tag [])
      [s.red.primary.getD 0xF + b2n s.red.released * 16, s.red.eh, s.red.accepted, s.red.refused, s.red.ctrlDiscarded]
      (popMsg c s)) := by
  have hdeny : headPrimaryStatusMsg.deny (request1 c p 0x1004 tag []) (popMsg c s) = false := by
    change (s.dev.role != .head) = false
    rw [hrole]
    rfl
  exact runRow_started (d := headPrimaryStatusMsg) ha (by decide) (by simp) rfl (routed_of_lt hc (by decide)) hs
    (hasBlk_always s) rfl rfl rfl rfl rfl hdeny (.inl (by decide)) rfl rfl rfl _ (isCode_front ha (by decide) (by simp))

/-- Only a head has a primary (R767). -/
theorem headPrimaryStatus_refused (hc : c < 14) (ha : AtFront c p 0x1004 tag [] s) (hs : Started s) (hrole : s.dev.role ≠ .head) :
    exec (.headPrimaryStatus c) s = .next (refused (request1 c p 0x1004 tag []) 3 0 0 (popMsg c s)) := by
  have hdeny : headPrimaryStatusMsg.deny (request1 c p 0x1004 tag []) (popMsg c s) = true := bne_iff_ne.mpr hrole
  have hpop : Started (popMsg c s) := hs
  have hform : malformed headPrimaryStatusMsg (request1 c p 0x1004 tag []) (popMsg c s) = false := by
    rw [malformed_request1 _ _ (by decide) (by simp)]
    rfl
  exact runRow_of_denied (d := headPrimaryStatusMsg) ha hc (by decide) (by decide) (by simp) rfl
    (isCode_front ha (by decide) (by simp)) rfl rfl hform rfl
    ((denied_of_started hpop (hasBlk_always _) _).trans hdeny)

end

/-- Settles O20: each request passes R809's checks and its chapter's, and its action fixes the reply and the state. -/
theorem statusWithArguments : Obligations.StatusWithArguments := by
  unfold Obligations.StatusWithArguments
  refine ⟨?_, ?_, ?_, ?_, ?_, ?_, ?_, ?_, ?_, ?_⟩
  · intro w c tag p s hc ha hs hmask hpos hlt hpage hres ⟨pg, hpg, hwords⟩
    exact settingsRead_answers hc ha hs hmask hpos hlt hpage hres (pageHas_request1 hpg hwords)
  · exact fun _ _ _ _ _ _ => admissionReport_answers
  · exact fun _ _ _ _ _ => clipQuery_answers
  · exact fun _ _ _ _ _ => playbackStatus_answers
  · exact fun _ _ _ _ _ => powerStatus_answers
  · exact fun _ _ _ _ _ => mailboxStatus_answers
  · exact fun _ _ _ _ _ => errorQueueStatus_answers
  · exact fun _ _ _ _ _ => ptpPortStatus_answers
  · exact fun _ _ _ _ => headPrimaryStatus_answers
  · exact fun _ _ _ _ => headPrimaryStatus_refused

end Sys2Proof.Proofs

/-! PROOFS. Changes of settings at run time: SETTINGS_WRITE and PROFILE_SELECT (R54, R223, R656, R657, R659, R809). -/

namespace Sys2Proof.Proofs
open Sys2Proof Sys2Proof.Machine Sys2Proof.Laws

/-! ### What a change of settings keeps -/

/-- The loops' gains are all that following a change of balance writes. -/
theorem followBalance_proj {β : Type} {g : State → β} (hg : ∀ n f t, g (modLoop n f t) = g t) (s : State) :
    g (followBalance s) = g s := by
  unfold followBalance
  extract_lets w
  exact List.foldlRecOn (motive := fun t => g t = g s) _ _ rfl fun t ht n _ => (hg n _ t).trans ht

theorem followBalance_mbx (s : State) : (followBalance s).mbx = s.mbx := followBalance_proj (fun _ _ _ => rfl) s

theorem followBalance_dev (s : State) : (followBalance s).dev = s.dev := followBalance_proj (fun _ _ _ => rfl) s

theorem logAll_mbx (sev : Nat) (l : List (Nat × Nat × List Nat)) (s : State) : (logAll sev l s).mbx = s.mbx :=
  List.foldlRecOn (motive := fun t => t.mbx = s.mbx) _ _ rfl fun t ht e _ => (raise_mbx sev e.1 e.2.1 e.2.2 t).trans ht

/-! ### The checks of a change in their order (R809) -/

section
variable {l : List (Nat × Nat × Nat × Nat)} {commit : State → State} {s : State}
  (hbusy : lutBusy (applyWrites l (writtenWords s)) s = [])
  (henc : newFailures (codecChecks s.dev.role) (applyWrites l (writtenWords s)) s = [])
include hbusy henc

theorem changeSettings_accepts (hadm : runFailures (applyWrites l (writtenWords s)) s = []) (hlock : locksBalance l s = false)
    (hother : newFailures (fun v => trialChecks v s) (applyWrites l (writtenWords s)) s = []) :
    changeSettings l commit s = (.accept [],
      commit (followBalance { s with cfg := { s.cfg with accepted := applyWrites l (writtenWords s) } })) := by
  simp [changeSettings, hbusy, henc, hadm, hlock, hother, modCfg]

theorem changeSettings_refuses_inadmissible (hadm : runFailures (applyWrites l (writtenWords s)) s ≠ []) :
    changeSettings l commit s =
      (.refuse 6 (((runFailures (applyWrites l (writtenWords s)) s).map (·.1)).headD 0) 0,
        logAll 0 (runFailures (applyWrites l (writtenWords s)) s) s) := by
  simp [changeSettings, refuseLogged, hbusy, henc, hadm]

end

/-! ### A row whose request passes the checks before its action -/

theorem answer_accept {d : Option MsgDef} (hd : (d.map (·.answered)).getD true = true) (r : Req) (ws : List Nat) (s : State) :
    answer d r (.accept ws) s = replied r ws s := by
  simp [answer, countAnswer, replied, hd]

section
variable {mine : Req → Bool} {c k tag : Nat} {p : Path} {args : List Word} {s u : State} {d : MsgDef} {a : Answer}

/-- In a started role, a request that may come without a token and that its chapter's checks pass is left to its action. -/
theorem runReq_started (ha : AtFront c p k tag args s) (hc : c < 14) (hk : k < 65536) (hi : k / 256 ≠ 0x0F)
    (hn : args.length < 15) (hs : Started s) (hb : hasBlk d.blk s = true) (hcount : d.count (args.length + 1) = true)
    (hres : reservedSet d.masks args = false) (hbad : d.bad (request1 c p k tag args) (popMsg c s) = false)
    (hknown : d.unknown (request1 c p k tag args) (popMsg c s) = false)
    (hlog : d.badLog (request1 c p k tag args) (popMsg c s) = none)
    (hdeny : d.deny (request1 c p k tag args) (popMsg c s) = false) (hpriv : d.priv ≠ .must) :
    runReq (some d) (request1 c p k tag args) none (popMsg c s) = d.act (request1 c p k tag args) false (popMsg c s) := by
  have hpop : Started (popMsg c s) := hs
  have hroute : routed (request1 c p k tag args).chan (request1 c p k tag args).code = true := routed_front ha hc hk hi hn
  have hform : malformed d (request1 c p k tag args) (popMsg c s) = false := by
    rw [malformed_request1 d _ hk hn, hcount, hres, hbad]
    rfl
  have hden : denied d (request1 c p k tag args) (popMsg c s) = false := (denied_of_started hpop hb _).trans hdeny
  have hauth : unauthorised d (request1 c p k tag args) none (popMsg c s) = false := by
    simp [unauthorised, hdrPriv_request1 hk hn, hpriv]
  simp [runReq, hroute, hknown, hform, hlog, hden, hauth]

/-- A row answers the request at the front of its channel in the state its action leaves, when that keeps the queue. -/
theorem runRow_of_runReq (ha : AtFront c p k tag args s) (hk : k < 65536) (hn : args.length < 15) (hd : msgDef k = some d)
    (hm : mine (request1 c p k tag args) = true) (h : runReq (some d) (request1 c p k tag args) none (popMsg c s) = (a, u))
    (hu : u.mbx = (popMsg c s).mbx) :
    runRow mine c s = .next (answer (some d) (request1 c p k tag args) a u) := by
  have hstop : Stops c (answer (some d) (request1 c p k tag args) a u) := by
    refine stops_behind_front ha ?_
    rw [answer_inq, hu]
  rw [runRow_front ha hk hn (by rw [hd]; rfl) hm, hd, complete_of_runReq h, screen_stops hstop]

end

/-! ### SETTINGS_WRITE of one word (R656) -/

/-- The write of a settings write of one word. -/
def oneWrite (w1 m v : Word) : Nat × Nat × Nat × Nat := (w1.toNat / 65536, bits w1.toNat 15 8, m.toNat, v.toNat)

section
variable {c tag : Nat} {w1 m v : Word} {p : Path} {s u : State} {a : Answer}

theorem writesOf_one (h : w1.toNat % 4 = 1) : writesOf (request1 c p 0x0104 tag [w1, m, v]) = [oneWrite w1 m v] := by
  have hcount : bits w1.toNat 1 0 = 1 := by simpa [bits] using h
  have hpage : bits w1.toNat 31 16 = w1.toNat / 65536 := by
    have hlt : w1.toNat < 2 ^ 32 := w1.isLt
    simp only [bits]
    omega
  change (List.range (bits w1.toNat 1 0)).map (fun i => (bits w1.toNat 31 16, bits w1.toNat 15 8 + i,
    (request1 c p 0x0104 tag [w1, m, v]).w (2 + 2 * i), (request1 c p 0x0104 tag [w1, m, v]).w (3 + 2 * i))) = _
  rw [hcount, hpage]
  rfl

theorem settingsWrite_bad (h : w1.toNat % 4 = 1) (hpage : pageHas 1 (request1 c p 0x0104 tag [w1, m, v]) = true)
    (hform : badWrite (oneWrite w1 m v) = false) (hrc : rcBreaks [oneWrite w1 m v] s = false) :
    settingsWriteMsg.bad (request1 c p 0x0104 tag [w1, m, v]) s = false := by
  have hcount : bits ((request1 c p 0x0104 tag [w1, m, v]).w 1) 1 0 = 1 := by
    change bits w1.toNat 1 0 = 1
    simpa [bits] using h
  have hlen : (request1 c p 0x0104 tag [w1, m, v]).words.length = 4 := rfl
  simp [settingsWriteMsg, hcount, hlen, hpage, writesOf_one h, hform, hrc]

/-- A well-formed write of one word is left to the checks of permission and of the change. -/
theorem settingsWrite_row (hc : c < 14) (ha : AtFront c p 0x0104 tag [w1, m, v] s) (hs : Started s)
    (hmask : w1.toNat &&& 0xFFFFFF03 = w1.toNat) (h : w1.toNat % 4 = 1)
    (hpage : pageHas 1 (request1 c p 0x0104 tag [w1, m, v]) = true) (hform : badWrite (oneWrite w1 m v) = false)
    (hres : pageReserved (request1 c p 0x0104 tag [w1, m, v]) = false) (hrate : rateRefusal [oneWrite w1 m v] s = none)
    (hrc : rcBreaks [oneWrite w1 m v] s = false)
    (hact : (if covered (permitOf false (oneWrite w1 m v) s.cfg) (oneWrite w1 m v) = false then (.refuse 3 0 0, popMsg c s)
      else changeSettings [oneWrite w1 m v] id (popMsg c s)) = (a, u)) (hu : u.mbx = (popMsg c s).mbx) :
    exec (.settingsWrite c) s = .next (answer (some settingsWriteMsg) (request1 c p 0x0104 tag [w1, m, v]) a u) := by
  have hreserved : reservedSet settingsWriteMsg.masks [w1, m, v] = false := by
    simp [settingsWriteMsg, reservedSet, hmask]
  have hbad : settingsWriteMsg.bad (request1 c p 0x0104 tag [w1, m, v]) (popMsg c s) = false := settingsWrite_bad h hpage hform hrc
  have hlog : settingsWriteMsg.badLog (request1 c p 0x0104 tag [w1, m, v]) (popMsg c s) = none := by
    change rateRefusal (writesOf _) (popMsg c s) = none
    rw [writesOf_one h]
    exact hrate
  have hdo : settingsWriteMsg.act (request1 c p 0x0104 tag [w1, m, v]) false (popMsg c s) = (a, u) := by
    rw [← hact]
    have hcfg : (popMsg c s).cfg = s.cfg := rfl
    simp [settingsWriteMsg, writesOf_one h, hcfg]
  have hrow : exec (.settingsWrite c) s = runRow (isCode 0x0104) c s := runPriv_front ha (by decide) (by simp) rfl
  rw [hrow]
  refine runRow_of_runReq ha (by decide) (by simp) rfl (isCode_front ha (by decide) (by simp)) ?_ hu
  rw [runReq_started ha hc (by decide) (by decide) (by simp) hs (hasBlk_always s) rfl hreserved hbad hres hlog rfl (by decide)]
  exact hdo

end

/-! ### PROFILE_SELECT (R659) -/

section
variable {c tag : Nat} {w : Word} {p : Path} {s : State}

theorem profileSelect_badLog (hrate : rateRefusal (profileWrites w.toNat s.cfg) s = none) :
    profileSelectMsg.badLog (request1 c p 0x0102 tag [w]) (popMsg c s) = none := by
  change (if hasProfile w.toNat s = true then rateRefusal (profileWrites w.toNat s.cfg) s else none) = none
  rw [hrate, ite_self]

theorem profileSelect_mask (hw : w.toNat < 16) : reservedSet profileSelectMsg.masks [w] = false :=
  reservedSet_mask (and_mask (k := 4) rfl hw)

/-- Where messages may select a profile without a token, one that the image holds is left to the checks of the change. -/
theorem profileSelect_act {n : Nat} {t : State} (hmsg : cfgN F.DEV1_PROFILE_MSG 0 t = 1)
    (hn : (request1 c p 0x0102 tag [w]).w 1 = n) (hhas : hasProfile n t = true) :
    profileSelectMsg.act (request1 c p 0x0102 tag [w]) false t =
      changeSettings (profileWrites n t.cfg) (fun u => { u with dev := { u.dev with profile := n } }) t := by
  simp [profileSelectMsg, hmsg, hn, hhas]

theorem profileSelect_accepts (hc : c < 14) (ha : AtFront c p 0x0102 tag [w] s) (hs : Started s) (hw : w.toNat < 16)
    (hmsg : cfgN F.DEV1_PROFILE_MSG 0 s = 1) (hhas : hasProfile w.toNat s = true)
    (hrate : rateRefusal (profileWrites w.toNat s.cfg) s = none)
    (hbusy : lutBusy (applyWrites (profileWrites w.toNat s.cfg) (writtenWords s)) s = [])
    (henc : newFailures (codecChecks s.dev.role) (applyWrites (profileWrites w.toNat s.cfg) (writtenWords s)) s = [])
    (hadm : runFailures (applyWrites (profileWrites w.toNat s.cfg) (writtenWords s)) s = [])
    (hlock : locksBalance (profileWrites w.toNat s.cfg) s = false)
    (hother : newFailures (fun y => trialChecks y s) (applyWrites (profileWrites w.toNat s.cfg) (writtenWords s)) s = []) :
    exec (.profileSelect c) s = .next (replied (request1 c p 0x0102 tag [w]) []
      { followBalance { popMsg c s with cfg := { s.cfg with accepted := applyWrites (profileWrites w.toNat s.cfg) (writtenWords s) } }
        with dev := { s.dev with profile := w.toNat } }) := by
  have hact := (profileSelect_act (c := c) (p := p) (tag := tag) (w := w) (t := popMsg c s) hmsg rfl hhas).trans
    (changeSettings_accepts (s := popMsg c s) hbusy henc hadm hlock hother)
  rw [followBalance_dev] at hact
  have hdeny : profileSelectMsg.deny (request1 c p 0x0102 tag [w]) (popMsg c s) = false := by
    change (cfgN F.DEV1_PROFILE_MSG 0 s == 0) = false
    rw [hmsg]
    rfl
  have hrow : exec (.profileSelect c) s = runRow (isCode 0x0102) c s := runPriv_front ha (by decide) (by simp) rfl
  rw [hrow, runRow_of_runReq (d := profileSelectMsg) ha (by decide) (by simp) rfl (isCode_front ha (by decide) (by simp))
    ((runReq_started ha hc (by decide) (by decide) (by simp) hs (hasBlk_always s) rfl (profileSelect_mask hw) rfl rfl
      (profileSelect_badLog hrate) hdeny (by decide)).trans hact) (followBalance_mbx _)]
  exact congrArg _ (answer_accept (by rfl) _ _ _)

/-- Messages may not select a profile where DEV1.PROFILE_MSG is 0 (R659). -/
theorem profileSelect_refused (hc : c < 14) (ha : AtFront c p 0x0102 tag [w] s) (hs : Started s) (hw : w.toNat < 16)
    (hmsg : cfgN F.DEV1_PROFILE_MSG 0 s = 0) (hrate : rateRefusal (profileWrites w.toNat s.cfg) s = none) :
    exec (.profileSelect c) s = .next (refused (request1 c p 0x0102 tag [w]) 3 0 0 (popMsg c s)) := by
  have hpop : Started (popMsg c s) := hs
  have hdeny : profileSelectMsg.deny (request1 c p 0x0102 tag [w]) (popMsg c s) = true := by
    change (cfgN F.DEV1_PROFILE_MSG 0 s == 0) = true
    rw [hmsg]
    rfl
  have hform : malformed profileSelectMsg (request1 c p 0x0102 tag [w]) (popMsg c s) = false := by
    rw [malformed_request1 _ _ (by decide) (by simp), profileSelect_mask hw]
    rfl
  have hrow : exec (.profileSelect c) s = runRow (isCode 0x0102) c s := runPriv_front ha (by decide) (by simp) rfl
  rw [hrow]
  exact runRow_of_denied (d := profileSelectMsg) ha hc (by decide) (by decide) (by simp) rfl
    (isCode_front ha (by decide) (by simp)) rfl rfl hform (profileSelect_badLog hrate)
    ((denied_of_started hpop (hasBlk_always _) _).trans hdeny)

end

/-- Settles O29: a well-formed change reaches the checks of the change, whose order fixes the answer; an accepted one writes
the settings and the gains that follow them, and a refused one at most logs. -/
theorem settingsMessages : Obligations.SettingsMessages := by
  unfold Obligations.SettingsMessages
  refine ⟨?_, ?_, ?_⟩
  · intro c tag w1 m v p s hc ha hs hmask hone hpage hform hres hrate hrc
    have hrow := fun {a u} => settingsWrite_row (a := a) (u := u) hc ha hs hmask hone hpage hform hres hrate hrc
    refine ⟨_, rfl, fun hcov => ?_, fun hcov hbusy henc => ⟨fun hadm hlock hother => ?_, fun hadm => ?_⟩⟩
    · rw [hrow (if_pos hcov) rfl]
      exact congrArg _ (answer_refuse (by rfl) _ (by decide) _ _ _)
    · rw [hrow ((if_neg (ne_false_of_eq_true hcov)).trans
        (changeSettings_accepts (s := popMsg c s) hbusy henc hadm hlock hother)) (followBalance_mbx _)]
      exact congrArg _ (answer_accept (by rfl) _ _ _)
    · rw [hrow ((if_neg (ne_false_of_eq_true hcov)).trans
        (changeSettings_refuses_inadmissible (s := popMsg c s) hbusy henc hadm)) (logAll_mbx _ _ _)]
      exact congrArg _ (answer_refuse (by rfl) _ (by decide) _ _ _)
  · intro c tag w p s hc ha hs hw hmsg hhas hrate
    exact ⟨_, rfl, profileSelect_accepts hc ha hs hw hmsg hhas hrate⟩
  · exact fun _ _ _ _ _ => profileSelect_refused

end Sys2Proof.Proofs

/-! PROOFS. Status requests without arguments (R90, R126, R159, R198, R226, R265, R313, R359, R388, R463, R484, R646). -/

namespace Sys2Proof.Proofs
open Sys2Proof Sys2Proof.Machine Sys2Proof.Laws

/-! ### Messages that only report -/

/-- A message of one word, with no check of its own, that answers `n` reply words and leaves the state; a field
left out is one that the message's definition shows. -/
structure Reports (n : Nat) (d : MsgDef) : Prop where
  count : d.count 1 = true := by rfl
  unprivileged : d.priv ≠ .must := by exact PrivRule.noConfusion
  answered : d.answered = true := by rfl
  bad : ∀ r s, d.bad r s = false := by exact fun _ _ => rfl
  unknown : ∀ r s, d.unknown r s = false := by exact fun _ _ => rfl
  badLog : ∀ r s, d.badLog r s = none := by exact fun _ _ => rfl
  deny : ∀ r s, d.deny r s = false := by exact fun _ _ => rfl
  act : ∀ r s, ∃ rep : List Nat, rep.length = n ∧ d.act r false s = (.accept rep, s) := by exact fun _ _ => ⟨_, rfl, rfl⟩

section
variable {n c k tag : Nat} {p : Path} {s : State} {d : MsgDef}

/-- A row whose message only reports answers the request at the front of its channel and changes nothing else. -/
theorem Reports.answers (hrep : Reports n d) (hd : msgDef k = some d) (hk : k < 65536) (hr : routed c k = true)
    (ha : AtFront c p k tag [] s) (hs : Started s) (hb : hasBlk d.blk s = true) {mine : Req → Bool}
    (hm : mine (request1 c p k tag []) = true) :
    ∃ rep : List Nat, rep.length = n ∧ runRow mine c s = .next (replied (request1 c p k tag []) rep (popMsg c s)) := by
  obtain ⟨rep, hlen, hact⟩ := hrep.act (request1 c p k tag []) (popMsg c s)
  have hres : reservedSet d.masks [] = false := by cases d.masks <;> rfl
  exact ⟨rep, hlen, runRow_started ha hk (by simp) hd hr hs hb hrep.count hres (hrep.bad _ _) (hrep.unknown _ _)
    (hrep.badLog _ _) (hrep.deny _ _) (.inl hrep.unprivileged) hact hrep.answered rfl _ hm⟩

/-- The row of one code. -/
theorem Reports.answers_code (hrep : Reports n d) (hd : msgDef k = some d) (hk : k < 65536) (hr : routed c k = true)
    (ha : AtFront c p k tag [] s) (hs : Started s) (hb : hasBlk d.blk s = true) :
    ∃ rep : List Nat, rep.length = n ∧ runRow (isCode k) c s = .next (replied (request1 c p k tag []) rep (popMsg c s)) :=
  hrep.answers hd hk hr ha hs hb (isCode_front ha hk (by simp))

/-- The row of a family of codes. -/
theorem Reports.answers_family {base step m : Nat} (hrep : Reports n d) (hd : msgDef k = some d)
    (hin : (base ≤ k ∧ k < base + step * m) ∧ (k - base) % step = 0) (hk : k < 65536) (hr : routed c k = true)
    (ha : AtFront c p k tag [] s) (hs : Started s) (hb : hasBlk d.blk s = true) :
    ∃ rep : List Nat, rep.length = n ∧
      runRow (inFamily base step m) c s = .next (replied (request1 c p k tag []) rep (popMsg c s)) :=
  hrep.answers hd hk hr ha hs hb (inFamily_front ha hk (by simp) hin)

end

/-! ### The messages of the families, by instance (R696) -/

section
variable {i : Nat}

theorem msgDef_portStatus (hi : i < 4) : msgDef (0x0200 + 16 * i) = some (portStatusMsg i) := by interval_cases i <;> rfl

theorem msgDef_seamStatus (hi : i < 8) : msgDef (0x0300 + 16 * i) = some (seamStatusMsg i) := by interval_cases i <;> rfl

theorem msgDef_frontEndStatus (hi : i < 8) : msgDef (0x0400 + i) = some (frontEndStatusMsg i) := by interval_cases i <;> rfl

theorem msgDef_tapStatus (hi : i < 8) : msgDef (0x0500 + 16 * i) = some (tapStatusMsg i) := by interval_cases i <;> rfl

theorem msgDef_aditStatus (hi : i < 4) : msgDef (0x0430 + i) = some (aditStatusMsg i) := by interval_cases i <;> rfl

theorem msgDef_loopStatus (hi : i < 8) : msgDef (0x0610 + i) = some (loopStatusMsg i) := by interval_cases i <;> rfl

theorem msgDef_aditCompression (hi : i < 4) : msgDef (0x0708 + i) = some (aditCompressionMsg i) := by
  interval_cases i <;> rfl

theorem msgDef_linkStatus (hi : i < 8) : msgDef (0x0C00 + 16 * i) = some (linkStatusMsg i) := by interval_cases i <;> rfl

theorem msgDef_sdiStatus (hi : i < 4) : msgDef (0x0D00 + i) = some (sdiStatusMsg i) := by interval_cases i <;> rfl

theorem msgDef_macStatus (hi : i < 4) : msgDef (0x0D08 + i) = some (macStatusMsg i) := by interval_cases i <;> rfl

theorem msgDef_senderStatus (hi : i < 16) : msgDef (0x0D10 + i) = some (senderStatusMsg i) := by interval_cases i <;> rfl

theorem msgDef_viewfinderStatus (hi : i < 2) : msgDef (0x1100 + i) = some (viewfinderStatusMsg i) := by
  interval_cases i <;> rfl

theorem msgDef_audioStatus (hi : i < 8) : msgDef (0x1200 + i) = some (audioStatusMsg i) := by interval_cases i <;> rfl

theorem msgDef_channelStatus (hi : i < 8) : msgDef (0x1300 + i) = some (channelStatusMsg i) := by interval_cases i <;> rfl

end

/-- A stream of either direction reports seven words (R313). -/
theorem streamStatus_reports (m : Nat) : Reports 7 (streamStatusMsg m) where
  act _ s := by
    refine ⟨_, ?_, rfl⟩
    cases cfgB F.CODEC_STRM_DIR m s <;> rfl

/-- The links but the cage's are those of the shaft. -/
theorem linkStatus_blk {g : Nat} (hg : g < 8) : (linkStatusMsg g).blk = .shaft := if_neg (Nat.ne_of_lt hg)

/-- Settles O19: every message named only reports, so its row answers it and changes nothing else. -/
theorem statusMessages : Obligations.StatusMessages := by
  unfold Obligations.StatusMessages
  refine ⟨?_, ?_, ?_, ?_, ?_, ?_, ?_, ?_, ?_, ?_, ?_, ?_, ?_, ?_, ?_, ?_, ?_, ?_, ?_, ?_, ?_, ?_, ?_, ?_, ?_⟩
  · exact fun _ _ _ _ => Reports.answers_code (d := deviceStatusMsg) {} rfl (by decide)
  · exact fun i _ _ _ _ hi => Reports.answers_family (d := portStatusMsg i) {} (msgDef_portStatus hi) (by omega) (by omega)
  · exact fun i _ _ _ _ hi => Reports.answers_family (d := seamStatusMsg i) {} (msgDef_seamStatus hi) (by omega) (by omega)
  · exact fun i _ _ _ _ hi => Reports.answers_family (d := frontEndStatusMsg i) {} (msgDef_frontEndStatus hi) (by omega) (by omega)
  · exact fun i _ _ _ _ hi => Reports.answers_family (d := tapStatusMsg i) {} (msgDef_tapStatus hi) (by omega) (by omega)
  · exact fun i _ _ _ _ hi => Reports.answers_family (d := aditStatusMsg i) {} (msgDef_aditStatus hi) (by omega) (by omega)
  · exact fun i _ _ _ _ hi => Reports.answers_family (d := loopStatusMsg i) {} (msgDef_loopStatus hi) (by omega) (by omega)
  · exact fun _ _ _ _ => Reports.answers_code (d := compressorStatusMsg) {} rfl (by decide)
  · exact fun i _ _ _ _ hi => Reports.answers_family (d := aditCompressionMsg i) {} (msgDef_aditCompression hi) (by omega) (by omega)
  · exact fun i _ _ _ _ hi => Reports.answers_family (streamStatus_reports i) (msgDef_streamStatus hi) (by omega) (by omega)
  · exact fun _ _ _ _ => Reports.answers_code (d := recorderStatusMsg) {} rfl (by decide)
  · exact fun _ _ _ _ => Reports.answers_code (d := endpointStatusMsg) {} rfl (by decide)
  · exact fun i _ _ _ _ hi hr ha hs hb => Reports.answers_family (d := linkStatusMsg i) {} (msgDef_linkStatus hi) (by omega)
      (by omega) hr ha hs ((linkStatus_blk hi).symm ▸ hb)
  · exact fun _ _ _ _ => Reports.answers_family (d := linkStatusMsg 8) {} rfl (by decide) (by decide)
  · exact fun i _ _ _ _ hi => Reports.answers_family (d := sdiStatusMsg i) {} (msgDef_sdiStatus hi) (by omega) (by omega)
  · exact fun i _ _ _ _ hi => Reports.answers_family (d := macStatusMsg i) {} (msgDef_macStatus hi) (by omega) (by omega)
  · exact fun i _ _ _ _ hi => Reports.answers_family (d := senderStatusMsg i) {} (msgDef_senderStatus hi) (by omega) (by omega)
  · exact fun _ _ _ _ => Reports.answers_code (d := timeStatusMsg) {} rfl (by decide)
  · exact fun _ _ _ _ => Reports.answers_code (d := islandStatusMsg) {} rfl (by decide)
  · exact fun _ _ _ _ => Reports.answers_code (d := redundancyStatusMsg) {} rfl (by decide)
  · exact fun i _ _ _ _ hi => Reports.answers_family (d := viewfinderStatusMsg i) {} (msgDef_viewfinderStatus hi) (by omega) (by omega)
  · exact fun i _ _ _ _ hi => Reports.answers_family (d := audioStatusMsg i) {} (msgDef_audioStatus hi) (by omega) (by omega)
  · exact fun i _ _ _ _ hi => Reports.answers_family (d := channelStatusMsg i) {} (msgDef_channelStatus hi) (by omega) (by omega)
  · exact fun _ _ _ _ => Reports.answers_code (d := surveyStatusMsg) {} rfl (by decide)
  · exact fun _ _ _ _ => Reports.answers_code (d := updateStatusMsg) {} rfl (by decide)

end Sys2Proof.Proofs

/-! PROOFS. The messages of the capture blocks: retrain, sensor write, LUT load, adit read, statistics fetch and lock broadcast
(R71, R81, R84, R159, R181, R196, R198, R221). -/

namespace Sys2Proof.Proofs
open Sys2Proof Sys2Proof.Machine Sys2Proof.Laws

/-! ### The sequencer and the loops leave the mailboxes -/

@[simp] theorem modPort_mbx (p : Nat) (f : Port → Port) (s : State) : (modPort p f s).mbx = s.mbx := rfl
@[simp] theorem modLoop_mbx (n : Nat) (f : Loop → Loop) (s : State) : (modLoop n f s).mbx = s.mbx := rfl
@[simp] theorem modExp_mbx (n : Nat) (f : ExpSched → ExpSched) (s : State) : (modExp n f s).mbx = s.mbx := rfl
@[simp] theorem queueControl_mbx (g k : Nat) (ws : List Word) (s : State) : (queueControl g k ws s).mbx = s.mbx := rfl

@[simp] theorem startRetrain_mbx (ps : List Nat) (s : State) : (startRetrain ps s).mbx = s.mbx := by
  unfold startRetrain
  refine List.foldlRecOn (motive := fun t : State => t.mbx = s.mbx) ps _ rfl fun t ht p _ => ?_
  split <;> exact ht

@[simp] theorem noteQueued_mbx (p : Nat) (sc : Script) (s : State) : (noteQueued p sc s).mbx = s.mbx := by
  unfold noteQueued
  split
  · split <;> rfl
  · rfl

@[simp] theorem revertLoop_mbx (p : Nat) (sc : Script) (s : State) : (revertLoop p sc s).mbx = s.mbx := by
  unfold revertLoop
  split <;> rfl

@[simp] theorem noteLate_mbx (p : Nat) (sc : Script) (s : State) : (noteLate p sc s).mbx = s.mbx := by
  unfold noteLate
  split
  · split
    · split <;> simp
    · rfl
  · rfl

@[simp] theorem completeScript_mbx (p : Nat) (sc : Script) (s : State) : (completeScript p sc s).mbx = s.mbx := by
  unfold completeScript
  split <;> rfl

@[simp] theorem startHead_mbx (p : Nat) (sc : Script) (s : State) : (startHead p sc s).mbx = s.mbx := by
  unfold startHead
  split <;> simp

@[simp] theorem considerHead_mbx (p k : Nat) (s : State) : (considerHead p k s).mbx = s.mbx := by
  induction k generalizing s with
  | zero => rfl
  | succ k ih =>
    unfold considerHead
    extract_lets x
    split
    · rfl
    · simp [apply_ite State.mbx, ih]

@[simp] theorem queueScript_mbx (p : Nat) (sc : Script) (s : State) : (queueScript p sc s).2.mbx = s.mbx := by
  unfold queueScript
  simp [apply_ite Prod.snd, apply_ite State.mbx]

@[simp] theorem sendScript_mbx (n : Nat) (sc : Script) (s : State) : (sendScript n sc s).2.mbx = s.mbx := by
  unfold sendScript
  split <;> simp

@[simp] theorem sendRequest_mbx (n : Nat) (sc : Script) (s : State) : (sendRequest n sc s).mbx = s.mbx := by
  unfold sendRequest
  simp [apply_ite State.mbx]

@[simp] theorem releaseWaiting_mbx (n : Nat) (i : Int) (s : State) : (releaseWaiting n i s).mbx = s.mbx := by
  unfold releaseWaiting
  extract_lets l ready
  exact List.foldlRecOn (motive := fun t : State => t.mbx = s.mbx) ready _ rfl fun t ht x _ => (sendRequest_mbx n x.2 t).trans ht

@[simp] theorem follow_mbx (n tag e g r b : Nat) (i : Int) (s : State) : (follow n tag e g r b i s).mbx = s.mbx := by
  unfold follow releaseIfOpen bindScript
  simp [apply_ite State.mbx]

theorem followAll_mbx (leader pos tag e g r b : Nat) (i : Int) (ns : List Nat) (s : State) :
    (followAll leader pos tag e g r b i ns s).mbx = s.mbx := by
  induction ns generalizing s with
  | nil => rfl
  | cons n ns ih =>
    unfold followAll
    rw [ih]
    split
    · exact follow_mbx ..
    · rfl

/-! ### The messages of the families, by instance (R696) -/

section
variable {i : Nat}

theorem msgDef_retrain (hi : i < 4) : msgDef (0x0201 + 16 * i) = some (retrainMsg i) := by interval_cases i <;> rfl

theorem msgDef_sensorWrite (hi : i < 4) : msgDef (0x0202 + 16 * i) = some (sensorWriteMsg i) := by interval_cases i <;> rfl

theorem msgDef_lutLoad (hi : i < 8) : msgDef (0x0501 + 16 * i) = some (lutLoadMsg i) := by interval_cases i <;> rfl

theorem msgDef_aditRead (hi : i < 4) : msgDef (0x0434 + i) = some (aditReadMsg i) := by interval_cases i <;> rfl

theorem msgDef_statisticsFetch (hi : i < 8) : msgDef (0x0600 + i) = some (statisticsFetchMsg i) := by interval_cases i <;> rfl

end

/-! ### RETRAIN (R71) -/

theorem startRetrain_cap (ps : List Nat) (s : State) :
    (startRetrain ps s).cap = { s.cap with ports := modMany ps (fun x => { x with
      phase := .retrain, suppressed := true, retrainAsked := false, absentLong := false, windowOpen := false,
      trigLevel := false, awaiting := none }) s.cap.ports } := by
  unfold startRetrain
  extract_lets t
  refine List.foldlRecOn (motive := fun u : State => u.cap = t.cap) ps _ rfl fun u hu p _ => ?_
  split <;> exact hu

theorem modMany_nil {α : Type} (f : α → α) (l : List α) : modMany [] f l = l := by
  simp [modMany]

section
variable {q c tag : Nat} {p : Path} {s : State}

/-- A single port outside a frame with its clock retrains now, and no port waits for the fall of FV. -/
theorem retrain_act {r : Req} {b : Bool} (hgang : gangPorts s.cfg.accepted q = [q]) (hlead : leadOf q s = q)
    (hphase : (portOf q s).phase = .running) (hfv : (portOf q s).fv = false) (hclock : (portOf q s).clock = true) :
    (retrainMsg q).act r b s = (.accept [], startRetrain [q] s) := by
  simp [retrainMsg, hgang, hlead, hphase, hfv, hclock, modCap, modMany_nil]

theorem retrain_answers (hq : q < 4) (hc : c < 14) (ha : AtFront c p (0x0201 + 16 * q) tag [] s) (hs : Started s)
    (hb : hasBlk .sensor s = true) (hgang : gangPorts s.cfg.accepted q = [q]) (hlead : leadOf q s = q)
    (hphase : (portOf q s).phase = .running) (hfv : (portOf q s).fv = false) (hclock : (portOf q s).clock = true) :
    ∃ u, exec (.retrain c) s = .next (replied (request1 c p (0x0201 + 16 * q) tag []) [] u) ∧
      u.cap.ports = (startRetrain [q] s).cap.ports := by
  have hact := retrain_act (r := request1 c p (0x0201 + 16 * q) tag []) (b := false) (s := popMsg c s) hgang hlead hphase hfv hclock
  refine ⟨startRetrain [q] (popMsg c s), ?_, by rw [startRetrain_cap, startRetrain_cap]; rfl⟩
  exact runRow_started ha (by omega) (by simp) (msgDef_retrain hq) (routed_of_lt hc (by omega)) hs hb rfl rfl rfl rfl rfl rfl
    (.inl PrivRule.noConfusion) hact rfl (by rw [startRetrain_mbx]) _ (inFamily_front ha (by omega) (by simp) (by omega))

/-! ### SENSOR_WRITE (R81, R84) -/

variable {e : Nat} {w a b : Word}

theorem sensorWrite_masks (hw : w.toNat < 0x8000) : reservedSet (sensorWriteMsg q).masks [w, a, b] = false := by
  have hmask : w.toNat &&& 0xFFFF = w.toNat := and_mask (k := 16) rfl (by omega)
  simp [sensorWriteMsg, reservedSet, hmask]

theorem messageEntries_one {k : Nat} (he : a.toNat + b.toNat * 2 ^ 32 = e) :
    messageEntries ((request1 c p k tag [w, a, b]).words.drop 2) = [e] := by
  rw [← he]
  rfl

/-- A sensor write of one valid entry under a host's tag is well formed. -/
theorem sensorWrite_form {k : Nat} (he : a.toNat + b.toNat * 2 ^ 32 = e) (hw : w.toNat < 0x8000) (hentry : entryBad e = false)
    (t : State) : (sensorWriteMsg q).bad (request1 c p k tag [w, a, b]) t = false := by
  have htag : (request1 c p k tag [w, a, b]).w 1 = w.toNat := rfl
  have hends : endsLast [e] = true := by
    unfold endsLast
    split <;> rfl
  have hne : w.toNat ≠ 0xFFFF := by omega
  simp [sensorWriteMsg, htag, messageEntries_one he, hends, hentry, hne]

theorem sensorWrite_full {r : Req} {t : Bool} (hfull : 8 ≤ (portOf q s).fifo.length) :
    (sensorWriteMsg q).act r t s = (.refuse 5 (portErr q 8) 0, raise 0 (portErr q 8) q [] s) := by
  simp [sensorWriteMsg, hfull]

/-- An entry that is not END goes into a FIFO with room on a bus with a mode; a host's tag is not a loop's. -/
theorem sensorWrite_queues {k : Nat} {u : State} (he : a.toNat + b.toNat * 2 ^ 32 = e) (hw : w.toNat < 0x8000)
    (hop : entOp e ≠ 0) (hroom : (portOf q s).fifo.length < 8) (hmode : cfgN F.SP_SCBUS_MODE q s ≠ 0)
    (hqueue : queueScript q ⟨w.toNat, [e], .message⟩ s = (0, u)) :
    (sensorWriteMsg q).act (request1 c p k tag [w, a, b]) false s = (.accept [(portOf q s).fifo.length], u) := by
  have htag : (request1 c p k tag [w, a, b]).w 1 = w.toNat := rfl
  have htake : [e].takeWhile (fun x => entOp x != 0) = [e] := by simp [hop]
  have hlow : ¬ 0x8000 ≤ w.toNat := by omega
  simp only [sensorWriteMsg, htag, messageEntries_one he, htake, hqueue]
  simp [hroom, hmode, hlow]

section
variable (hq : q < 4) (hc : c < 14) (ha : AtFront c p (0x0202 + 16 * q) tag [w, a, b] s) (hs : Started s)
  (hb : hasBlk .sensor s = true) (he : a.toNat + b.toNat * 2 ^ 32 = e) (hw : w.toNat < 0x8000) (hentry : entryBad e = false)
include hq hc ha hs hb he hw hentry

theorem sensorWrite_refused (hfull : 8 ≤ (portOf q s).fifo.length) :
    exec (.sensorWrite c) s = .next (refused (request1 c p (0x0202 + 16 * q) tag [w, a, b]) 5 (portErr q 8) 0
      (raise 0 (portErr q 8) q [] (popMsg c s))) := by
  have hrun := (runReq_started (d := sensorWriteMsg q) ha hc (by omega) (by omega) (by simp) hs hb rfl (sensorWrite_masks hw)
    (sensorWrite_form he hw hentry _) rfl rfl rfl PrivRule.noConfusion).trans (sensorWrite_full (s := popMsg c s) hfull)
  exact (runRow_of_runReq ha (by omega) (by simp) (msgDef_sensorWrite hq) (inFamily_front ha (by omega) (by simp) (by omega)) hrun
    (raise_mbx ..)).trans (congrArg _ (answer_refuse (by rfl) _ (by decide) _ _ _))

theorem sensorWrite_answers {t : State} (hop : entOp e ≠ 0) (hroom : (portOf q s).fifo.length < 8)
    (hmode : cfgN F.SP_SCBUS_MODE q s ≠ 0) (hqueue : queueScript q ⟨w.toNat, [e], .message⟩ (popMsg c s) = (0, t)) :
    exec (.sensorWrite c) s =
      .next (replied (request1 c p (0x0202 + 16 * q) tag [w, a, b]) [(portOf q s).fifo.length] t) := by
  have hmbx : t.mbx = (popMsg c s).mbx := (congrArg (fun x => x.2.mbx) hqueue).symm.trans (queueScript_mbx ..)
  exact runRow_started ha (by omega) (by simp) (msgDef_sensorWrite hq) (routed_of_lt hc (by omega)) hs hb rfl (sensorWrite_masks hw)
    (sensorWrite_form he hw hentry _) rfl rfl rfl (.inl PrivRule.noConfusion)
    (sensorWrite_queues (s := popMsg c s) he hw hop hroom hmode hqueue) rfl (by rw [hmbx]) _
    (inFamily_front ha (by omega) (by simp) (by omega))

end

end

/-! ### LUT_LOAD (R181, R198) -/

/-- A word may set every bit of a full mask. -/
theorem and_full (w : Word) : w.toNat &&& 0xFFFFFFFF = w.toNat := and_mask (k := 32) rfl w.isLt

section
variable {k c tag j : Nat} {p : Path} {w off len crc : Word} {data : List Byte} {s : State}

/-- The fields of word 1 that name the unit of a small LUT; `j` marks the last piece. -/
theorem lutWord_fields {m u : Nat} (h : m = 0x200 * j + u) (hj : j < 2) (hu : u < 112) :
    bits m 6 0 = u ∧ bits m 8 8 = 0 ∧ bits m 9 9 = j ∧ m &&& 0x37F = m := by
  have hmask : ∀ i < 2, ∀ v < 112, (0x200 * i + v) &&& 0x37F = 0x200 * i + v := by decide
  subst h
  refine ⟨?_, ?_, ?_, hmask j hj u hu⟩ <;> simp [bits] <;> omega

/-- The pieces of a small LUT carry their bytes in the window; the last one carries the CRC as well. -/
theorem lutLoad_form {u n : Nat} {args : List Word} (h : w.toNat = 0x200 * j + u) (hj : j < 2) (hu : u < 112)
    (hargs : args.length = j) (hlen : len.toNat ≤ 0x100000) (hpix : len.toNat % 6 = 0)
    (hend : off.toNat + len.toNat ≤ lutSize false) (t : State) :
    (lutLoadMsg k).bad (request1 c p n tag (w :: off :: len :: args)) t = false := by
  obtain ⟨hunit, hbig, hlast, -⟩ := lutWord_fields h hj hu
  have hw : (request1 c p n tag (w :: off :: len :: args)).w 1 = w.toNat := rfl
  have hw2 : (request1 c p n tag (w :: off :: len :: args)).w 2 = off.toNat := rfl
  have hw3 : (request1 c p n tag (w :: off :: len :: args)).w 3 = len.toNat := rfl
  have hcount : (request1 c p n tag (w :: off :: len :: args)).words.length = if j = 1 then 5 else 4 := by
    obtain rfl | rfl : j = 0 ∨ j = 1 := by omega
    all_goals simp [request1, hargs]
  simp [lutLoadMsg, hw, hw2, hw3, hcount, hunit, hbig, hlast, hpix]
  omega

/-- A piece of a small LUT that is not its last is kept, and its unit loads. -/
theorem lutLoad_stores {n : Nat} (hw : w.toNat < 112) (hold : holdsBulk p s = true) (hfree : lutInUse w.toNat s = false)
    (hidle : s.cap.luts.getD w.toNat .empty ≠ .loading) (hloads : s.cap.lutLoads = []) :
    (lutLoadMsg k).act (request1 c p n tag [w, off, len]) false s = (.accept [], modCap (fun x => { x with
      luts := modAt x.luts w.toNat fun _ => .loading
      lutLoads := [⟨w.toNat, 0, overlay [] off.toNat (readBulk 0 len.toNat s)⟩] }) s) := by
  obtain ⟨hunit, hbig, hlast, -⟩ := lutWord_fields (j := 0) (m := w.toNat) (by omega) (by omega) hw
  have hw1 : (request1 c p n tag [w, off, len]).w 1 = w.toNat := rfl
  have hw2 : (request1 c p n tag [w, off, len]).w 2 = off.toNat := rfl
  have hw3 : (request1 c p n tag [w, off, len]).w 3 = len.toNat := rfl
  have hpath : (request1 c p n tag [w, off, len]).path = p := rfl
  rw [List.getD_eq_getElem?_getD] at hidle
  simp [lutLoadMsg, hw1, hw2, hw3, hpath, hunit, hbig, hlast, hold, hfree, hidle, hloads, lutUnits, setUnits, modCap, b2n]

/-- The last piece of a small LUT with its right CRC makes the LUT selectable. -/
theorem lutLoad_ends {n u : Nat} (hw : w.toNat = 0x200 + u) (hu : u < 112) (hold : holdsBulk p s = true)
    (hfree : lutInUse u s = false) (hloads : s.cap.lutLoads = [⟨u, 0, data⟩])
    (hend : off.toNat + len.toNat = lutSize false)
    (hdata : (overlay data off.toNat (readBulk 0 len.toNat s)).length = lutSize false)
    (hcrc : crc32 (overlay data off.toNat (readBulk 0 len.toNat s)) = crc.toNat) :
    (lutLoadMsg k).act (request1 c p n tag [w, off, len, crc]) false s = (.accept [], modCap (fun x => { x with
      luts := modAt x.luts u fun _ => .valid 33 (halfwords (overlay data off.toNat (readBulk 0 len.toNat s)))
      lutLoads := [] }) s) := by
  obtain ⟨hunit, hbig, hlast, -⟩ := lutWord_fields (j := 1) hw (by omega) hu
  have hw1 : (request1 c p n tag [w, off, len, crc]).w 1 = w.toNat := rfl
  have hw2 : (request1 c p n tag [w, off, len, crc]).w 2 = off.toNat := rfl
  have hw3 : (request1 c p n tag [w, off, len, crc]).w 3 = len.toNat := rfl
  have hw4 : (request1 c p n tag [w, off, len, crc]).w 4 = crc.toNat := rfl
  have hpath : (request1 c p n tag [w, off, len, crc]).path = p := rfl
  simp [lutLoadMsg, hw1, hw2, hw3, hw4, hpath, hunit, hbig, hlast, hold, hfree, hloads, lutUnits, b2n, endLut, hend, hdata, hcrc,
    storeLut, modCap]

theorem lutLoad_masks {u : Nat} {args : List Word} (h : w.toNat = 0x200 * j + u) (hj : j < 2) (hu : u < 112)
    (hargs : args.length ≤ 1) : reservedSet (lutLoadMsg k).masks (w :: off :: len :: args) = false := by
  obtain ⟨-, -, -, hmask⟩ := lutWord_fields h hj hu
  have hrest : reservedSet [0xFFFFFFFF] args = false := by
    cases args with
    | nil => rfl
    | cons x l => simp [reservedSet, and_full]
  simp [lutLoadMsg, reservedSet, and_full, hmask, hrest]

theorem lutLoad_accepts {u : Nat} {t : State} {args : List Word} (hk : k < 8) (hc : c < 14)
    (ha : AtFront c p (0x0501 + 16 * k) tag (w :: off :: len :: args) s) (hs : Started s) (hb : hasBlk .colour s = true)
    (h : w.toNat = 0x200 * j + u) (hj : j < 2) (hu : u < 112) (hargs : args.length = j) (hlen : len.toNat ≤ 0x100000)
    (hpix : len.toNat % 6 = 0) (hend : off.toNat + len.toNat ≤ lutSize false)
    (hact : (lutLoadMsg k).act (request1 c p (0x0501 + 16 * k) tag (w :: off :: len :: args)) false (popMsg c s) = (.accept [], t))
    (ht : t.mbx = (popMsg c s).mbx) :
    exec (.lutLoad c) s = .next (replied (request1 c p (0x0501 + 16 * k) tag (w :: off :: len :: args)) [] t) := by
  have hcount : (lutLoadMsg k).count ((w :: off :: len :: args).length + 1) = true := by
    obtain rfl | rfl : j = 0 ∨ j = 1 := by omega
    all_goals simp [lutLoadMsg, hargs]
  have hn : (w :: off :: len :: args).length < 15 := by simp; omega
  exact runRow_started ha (by omega) hn (msgDef_lutLoad hk) (routed_of_lt hc (by omega)) hs hb hcount
    (lutLoad_masks h hj hu (by omega)) (lutLoad_form h hj hu hargs hlen hpix hend _) rfl rfl rfl (.inl PrivRule.noConfusion)
    hact rfl (by rw [ht]) _ (inFamily_front ha (by omega) hn (by omega))

end

/-! ### ADIT_READ (R196) and STATISTICS_FETCH (R159) -/

section
variable {n c tag : Nat} {p : Path} {s : State}

theorem writeBulk_inq (off : Nat) (l : List Byte) (s : State) :
    ((writeBulk off l s).mbx.chans.getD c {}).inq = (s.mbx.chans.getD c {}).inq := rfl

/-- A reader that holds a buffer of its adit is given the buffer's bytes. -/
theorem aditRead_copies {k : Nat} {off len : Word} {b : OutBuf} (hold : holdsBulk p s = true) (hon : cfgB F.ADIT_ENABLE n s = true)
    (hhost : cfgB F.ADIT_HOST_READ n s = true) (hbuf : hostHeld (s.cap.adits.getD n {}) = some b) :
    (aditReadMsg n).act (request1 c p k tag [off, len, 0]) false s =
      (.accept (loWords 2 b.pic.header.num ++ [(((bufBytes b).drop off.toNat).take len.toNat).length]),
        writeBulk 0 (((bufBytes b).drop off.toNat).take len.toNat) s) := by
  have htake : hostTake n s = s := if_pos (by rw [hbuf]; rfl)
  have hpath : (request1 c p k tag [off, len, 0]).path = p := rfl
  have hoff : (request1 c p k tag [off, len, 0]).w 1 = off.toNat := rfl
  have hlen : (request1 c p k tag [off, len, 0]).w 2 = len.toNat := rfl
  have hrel : (request1 c p k tag [off, len, 0]).w 3 = 0 := rfl
  simp only [aditReadMsg, hpath, hoff, hlen, hrel, hold, hon, hhost, htake, hbuf]
  rfl

theorem aditRead_answers {off len : Word} {b : OutBuf} (hn : n < 4) (hc : c < 14)
    (ha : AtFront c p (0x0434 + n) tag [off, len, 0] s) (hs : Started s) (hb : hasBlk .colour s = true)
    (hlen : len.toNat ≤ 0x100000) (hold : holdsBulk p s = true) (hon : cfgB F.ADIT_ENABLE n s = true)
    (hhost : cfgB F.ADIT_HOST_READ n s = true) (hbuf : hostHeld (s.cap.adits.getD n {}) = some b) :
    exec (.aditRead c) s = .next (replied (request1 c p (0x0434 + n) tag [off, len, 0])
      (loWords 2 b.pic.header.num ++ [(((bufBytes b).drop off.toNat).take len.toNat).length])
      (writeBulk 0 (((bufBytes b).drop off.toNat).take len.toNat) (popMsg c s))) := by
  have hbad : (aditReadMsg n).bad (request1 c p (0x0434 + n) tag [off, len, 0]) (popMsg c s) = false :=
    decide_eq_false (not_lt_of_ge hlen)
  have hmasks : reservedSet (aditReadMsg n).masks [off, len, 0] = false := by simp [aditReadMsg, reservedSet, and_full]
  exact runRow_started ha (by omega) (by simp) (msgDef_aditRead hn) (routed_of_lt hc (by omega)) hs hb rfl hmasks hbad rfl rfl rfl
    (.inl PrivRule.noConfusion) (aditRead_copies (s := popMsg c s) hold hon hhost hbuf) rfl (writeBulk_inq ..) _
    (inFamily_front ha (by omega) (by simp) (by omega))

section
variable {w : Word}

theorem statisticsFetch_form {k : Nat} (hline : w.toNat % 64 = 0) (hend : w.toNat ≤ 0xE3FC0) (t : State) :
    (statisticsFetchMsg n).bad (request1 c p k tag [w]) t = false := by
  have hw : (request1 c p k tag [w]).w 1 = w.toNat := rfl
  simp [statisticsFetchMsg, hw, hline, hend]

variable (hn : n < 8) (hc : c < 14) (ha : AtFront c p (0x0600 + n) tag [w] s) (hs : Started s) (hb : hasBlk .frontBody s = true)
  (hline : w.toNat % 64 = 0) (hend : w.toNat ≤ 0xE3FC0)
include hn hc ha hs hb hline hend

theorem statisticsFetch_refused (hold : holdsBulk p s = false) :
    exec (.statisticsFetch c) s = .next (refused (request1 c p (0x0600 + n) tag [w]) 5 0 0 (popMsg c s)) := by
  have hact : (statisticsFetchMsg n).act (request1 c p (0x0600 + n) tag [w]) false (popMsg c s) = (.refuse 5 0 0, popMsg c s) := by
    refine if_pos ?_
    change (!holdsBulk p s) = true
    rw [hold]
    rfl
  have hrun := (runReq_started (d := statisticsFetchMsg n) ha hc (by omega) (by omega) (by simp) hs hb rfl
    (reservedSet_mask (and_full w)) (statisticsFetch_form hline hend _) rfl rfl rfl PrivRule.noConfusion).trans hact
  exact (runRow_of_runReq ha (by omega) (by simp) (msgDef_statisticsFetch hn) (inFamily_front ha (by omega) (by simp) (by omega))
    hrun rfl).trans (congrArg _ (answer_refuse (by rfl) _ (by decide) _ _ _))

theorem statisticsFetch_answers {b : StatBuf} (hold : holdsBulk p s = true)
    (hbuf : newestStat (seamEpoch n s) (s.cap.stats.getD n {}) = some b) :
    exec (.statisticsFetch c) s = .next (replied (request1 c p (0x0600 + n) tag [w])
      (loWords 2 b.data.num ++ [b.data.tag, 114752]) (writeBulk w.toNat (statBytes n b) (popMsg c s))) := by
  have hact : (statisticsFetchMsg n).act (request1 c p (0x0600 + n) tag [w]) false (popMsg c s) =
      (.accept (loWords 2 b.data.num ++ [b.data.tag, 114752]), writeBulk w.toNat (statBytes n b) (popMsg c s)) := by
    have hpath : (request1 c p (0x0600 + n) tag [w]).path = p := rfl
    have hw : (request1 c p (0x0600 + n) tag [w]).w 1 = w.toNat := rfl
    have hold' : holdsBulk p (popMsg c s) = true := hold
    have hbuf' : newestStat (seamEpoch n (popMsg c s)) ((popMsg c s).cap.stats.getD n {}) = some b := hbuf
    simp only [statisticsFetchMsg, hpath, hw, hold', hbuf']
    rfl
  exact runRow_started ha (by omega) (by simp) (msgDef_statisticsFetch hn) (routed_of_lt hc (by omega)) hs hb rfl
    (reservedSet_mask (and_full w)) (statisticsFetch_form hline hend _) rfl rfl rfl (.inl PrivRule.noConfusion) hact rfl
    (writeBulk_inq ..) _ (inFamily_front ha (by omega) (by simp) (by omega))

end

end

/-! ### LOCK_BROADCAST (R221) -/

/-- An accepted message that is not answered is counted and nothing more (R678). -/
theorem answer_accept_silent {d : MsgDef} (hd : d.answered = false) (r : Req) (ws : List Nat) (s : State) :
    answer (some d) r (.accept ws) s = modChan r.chan (fun ch => { ch with handled := wrapInc 32 ch.handled }) s := by
  simp [answer, countAnswer, hd]

/-- The fields of the words of a broadcast. -/
theorem broadcast_fields (w : Word) : bits w.toNat 31 29 = w.toNat / 2 ^ 29 ∧ bits w.toNat 15 0 = w.toNat % 65536 ∧
    bits w.toNat 31 16 = w.toNat / 65536 := by
  have hlt : w.toNat < 2 ^ 32 := w.isLt
  simp only [bits]
  omega

section
variable {c tag : Nat} {p : Path} {w1 w2 w3 w4 w5 w6 : Word} {s : State}

/-- A word whose lower half is zero sets no bit there. -/
theorem and_high {n : Nat} (hlt : n < 2 ^ 32) (h : n % 65536 = 0) : n &&& 0xFFFF0000 = n := by
  have hn : (n / 2 ^ 16) <<< 16 = n := by rw [Nat.shiftLeft_eq]; omega
  have hmask : n / 2 ^ 16 &&& 0xFFFF = n / 2 ^ 16 := and_mask (k := 16) rfl (by omega)
  calc n &&& 0xFFFF0000 = (n / 2 ^ 16) <<< 16 &&& 0xFFFF <<< 16 := by rw [hn]; rfl
    _ = (n / 2 ^ 16 &&& 0xFFFF) <<< 16 := Nat.shiftLeft_and_distrib.symm
    _ = n := by rw [hmask, hn]

theorem lockBroadcast_reaches (hc : c < 14) (ha : AtFront c p 0x0628 tag [w1, w2, w3, w4, w5, w6] s) (hs : Started s)
    (hb : hasBlk .colour s = true) (hmask : w1.toNat &&& 0xE7FFFFFF = w1.toNat) (hlow : w5.toNat % 65536 = 0) :
    exec (.lockBroadcast c) s = .next (modChan c (fun ch => { ch with handled := wrapInc 32 ch.handled })
      (followAll (w1.toNat / 2 ^ 29) (bits w1.toNat 26 16) (w1.toNat % 65536) w4.toNat (w5.toNat / 65536)
        (w6.toNat / 65536) (w6.toNat % 65536) (sext 64 (w2.toNat + w3.toNat * 2 ^ 32)) (List.range 8) (popMsg c s))) := by
  obtain ⟨hlead, htag, -⟩ := broadcast_fields w1
  obtain ⟨-, -, hgain⟩ := broadcast_fields w5
  obtain ⟨-, hblue, hred⟩ := broadcast_fields w6
  have hmasks : reservedSet lockBroadcastMsg.masks [w1, w2, w3, w4, w5, w6] = false := by
    simp [lockBroadcastMsg, reservedSet, hmask, and_full, and_high w5.isLt hlow]
  rw [← hlead, ← htag, ← hgain, ← hblue, ← hred]
  have hrun := runReq_started (d := lockBroadcastMsg) ha hc (by decide) (by decide) (by simp) hs hb rfl hmasks rfl rfl rfl rfl
    (by decide)
  exact (runRow_of_runReq ha (by decide) (by simp) rfl (isCode_front ha (by decide) (by simp)) hrun (followAll_mbx ..)).trans
    (congrArg _ (answer_accept_silent rfl _ _ _))

end

/-- Settles O28: each request passes R809's checks, and its action under the hypotheses fixes the answer and the state. -/
theorem captureMessages : Obligations.CaptureMessages := by
  unfold Obligations.CaptureMessages
  refine ⟨?retrain, ?full, ?write, ?piece, ?last, ?read, ?fetch, ?lock⟩
  case retrain => exact fun _ _ _ _ _ => retrain_answers
  case full => exact fun _ _ _ _ _ _ _ _ hq hc ha hs hb => sensorWrite_refused hq hc ha hs hb rfl
  case write =>
    exact fun _ _ _ _ _ _ _ _ _ hq hc ha hs hb hw hentry hop hroom hmode hqueue =>
      sensorWrite_answers hq hc ha hs hb rfl hw hentry hop hroom hmode hqueue
  case piece =>
    intro k c tag w off len p s hk hc ha hs hb hw hlen hpix hend hold hfree hidle hloads hlut
    refine ⟨_, lutLoad_accepts (j := 0) (u := w.toNat) hk hc ha hs hb (by omega) (by omega) hw rfl hlen hpix hend
      (lutLoad_stores (s := popMsg c s) hw hold hfree hidle hloads) rfl, ?_, rfl⟩
    exact getD_modAt _ _ _ _ hlut
  case last =>
    intro k c tag w off len crc data p s hk hc ha hs hb hw hu hlen hpix hend hold hfree hloads hdata hcrc hlut
    refine ⟨_, lutLoad_accepts (j := 1) (u := w.toNat % 128) hk hc ha hs hb hw (by omega) hu rfl hlen hpix hend.le
      (lutLoad_ends (s := popMsg c s) hw hu hold hfree hloads hend hdata hcrc) rfl, ?_, rfl⟩
    exact getD_modAt _ _ _ _ hlut
  case read =>
    rintro n c tag off len rel b p s hn hc ha hs hb hlen rfl hold hon hhost hbuf
    exact aditRead_answers hn hc ha hs hb hlen hold hon hhost hbuf
  case fetch =>
    intro n c tag w p s hn hc ha hs hb hline hend
    exact ⟨statisticsFetch_refused hn hc ha hs hb hline hend, fun b => statisticsFetch_answers hn hc ha hs hb hline hend⟩
  case lock =>
    intro c tag w1 w2 w3 w4 w5 w6 p s hc ha hs hb hmask hlow
    exact ⟨_, rfl, lockBroadcast_reaches hc ha hs hb hmask hlow⟩

end Sys2Proof.Proofs

/-! PROOFS. The blanking window, script entries, triggers and readbacks of a port (R79, R80, R82, R83, R84, R87, R88). -/

namespace Sys2Proof.Proofs
open Sys2Proof Sys2Proof.Machine Sys2Proof.Laws

/-! ### A port after a change -/

theorem portOf_modPort_same {p : Nat} {s : State} (h : p < s.cap.ports.length) (f : Port → Port) :
    portOf p (modPort p f s) = f (portOf p s) := getD_modAt _ _ _ _ h

@[simp] theorem modPort_ports_length (p : Nat) (f : Port → Port) (s : State) :
    (modPort p f s).cap.ports.length = s.cap.ports.length := modAt_length _ _ _

section
variable {p : Nat} {s : State}

/-! ### The window (R82) -/

/-- The window of a leader opens once SEQ_DELAY has passed since the fall of FV, unless it has opened since that fall. -/
theorem windowOpen_opens {n fall : Nat} (hlive : portLive p s = true) (hseam : portSeam p s = some n) (hlead : leadOf p s = p)
    (hfall : (portOf p s).fvFall = some fall) (hphase : (portOf p s).phase = .running) (hshut : (portOf p s).windowOpen = false)
    (hfv : (portOf p s).fv = false) (hdue : fall + seqDelay p s ≤ nowUnits s)
    (hnew : (portOf p s).windowFrame ≠ (portOf p s).lastNum ∨ (portOf p s).windowFrom ≠ fall + seqDelay p s) :
    exec (.blankingWindowOpen p) s = .next (considerHead p 9 (loopTurn n (portOf p s).abandonedNow (modPort p (fun y => { y with
      windowOpen := true, deferred := false, windowFrom := fall + seqDelay p s
      windowTo := max (fall + seqDelay p s) (windowClose p s), windowFrame := (portOf p s).lastNum, hadWindow := true
      windows := (max (fall + seqDelay p s) (windowClose p s) - (fall + seqDelay p s)) :: y.windows.drop 1 }) s))) := by
  have hfresh : ((portOf p s).windowFrom == fall + seqDelay p s && (portOf p s).windowFrame == (portOf p s).lastNum) = false := by
    rcases hnew with h | h <;> simp [h]
  have hkeep : ∀ f, leadOf p (modPort p f s) = p := fun _ => hlead
  unfold exec execBlankingWindowOpen
  simp only [hseam, hlead, hfall]
  rw [if_neg (by simp [hlive, hphase, hshut, hfv, hfresh, hdue]), if_pos (hkeep _).symm]

/-! ### Entries (R80, R83) -/

theorem entryResult_ack (e : Nat) : entryResult e false .ack = 0 := by simp [entryResult]

theorem entryResult_nack {e : Nat} (h : entOp e = 1) : entryResult e false .nack = 7 := by simp [entryResult, h]

section
variable {sc : Script} (hrun : (portOf p s).running = some sc)
include hrun

theorem controlBusTimeout_abandons : exec (.controlBusTimeout p) s = .next (considerHead p 9 (abandonScript p 7 s)) := by
  simp only [exec, execControlBusTimeout, hrun]

variable (hbus : busDead p s = false)
include hbus

theorem entryComplete_ack (hmore : (portOf p s).pos + 1 < sc.entries.length) :
    exec (.scriptEntryComplete p .ack) s = .next (modPort p (fun y => { y with pos := y.pos + 1 }) s) := by
  simp only [exec, execScriptEntryComplete, hrun, hbus, entryResult_ack, if_pos hmore]

theorem entryComplete_last (hlast : (portOf p s).pos + 1 = sc.entries.length) :
    exec (.scriptEntryComplete p .ack) s = .next (considerHead p 9 (completeScript p sc s)) := by
  simp only [exec, execScriptEntryComplete, hrun, hbus, entryResult_ack, if_neg (Nat.not_lt_of_le hlast.ge)]

theorem entryComplete_nack (hop : entOp (sc.entries.getD (portOf p s).pos 0) = 1) :
    exec (.scriptEntryComplete p .nack) s = .next (considerHead p 9 (abandonScript p 7 s)) := by
  simp only [exec, execScriptEntryComplete, hrun, hbus, entryResult_nack hop]

end

/-! ### Triggers (R87) -/

/-- The state in which the leader of a seam's gang has asserted its trigger for the point that was next. -/
def triggered (n p : Nat) (s : State) : State :=
  let k := nextTrigger n p s
  modExp n (fun y => { y with
      n := k + 1, armed := true, last := some (schedPoint n k s + portDelay p s)
      lastPeriod := framePeriodNs n s, rate := schedRate n s })
    (modPort p (fun y => { y with trigDelay := portDelay p s })
      (modPort p (fun y => { y with trigLevel := true, trigAt := nowUnits s, awaiting := some (nowTod s, k) }) s))

theorem triggered_port {n : Nat} (hp : p < s.cap.ports.length) : portOf p (triggered n p s) = { portOf p s with
    trigLevel := true, trigAt := nowUnits s, awaiting := some (nowTod s, nextTrigger n p s), trigDelay := portDelay p s } := by
  change portOf p (modPort p _ (modPort p _ s)) = _
  rw [portOf_modPort_same (by simpa using hp), portOf_modPort_same hp]

theorem triggered_exp {n : Nat} (hn : n < s.time.exp.length) : (triggered n p s).time.exp.getD n {} = { s.time.exp.getD n {} with
    n := nextTrigger n p s + 1, armed := true, last := some (schedPoint n (nextTrigger n p s) s + portDelay p s)
    lastPeriod := framePeriodNs n s, rate := schedRate n s } := getD_modAt _ _ _ _ hn

section
variable {n : Nat} (hlive : portLive p s = true) (hseam : portSeam p s = some n) (hsup : (portOf p s).suppressed = false)
  (hon : F.SP_TRIG_ENABLE.on p (trigWords p s) = true) (htod : s.time.running = true) (hbase : rebaseDue n s = false)
include hlive hseam hsup hon htod hbase

theorem trigger_early (hearly : (nowUnits s : Int) < schedPoint n (nextTrigger n p s) s + portDelay p s) :
    exec (.trigger p) s = .next s := by
  simp [exec, execTrigger, hlive, hseam, hsup, hon, htod, hbase, hearly]

/-- A trigger that is due asserts the leader's ball and arms the seam's next point. -/
theorem trigger_due (hlead : leadOf p s = p) (hoff : (portOf p s).trigOff = false)
    (hdue : schedPoint n (nextTrigger n p s) s + portDelay p s ≤ (nowUnits s : Int)) :
    exec (.trigger p) s = .next (triggered n p s) := by
  have hkeep : ∀ f, leadOf p (modPort p f s) = p := fun _ => hlead
  unfold exec execTrigger
  simp only [hseam, hoff, hbase, Bool.false_eq_true, if_false]
  rw [if_neg (by simp [hlive, hon, hsup, htod]), if_neg (not_lt_of_ge hdue), if_pos (hkeep _).symm]
  rfl

end

theorem triggerPulseEnd_lowers (hlive : portLive p s = true) (hdue : (portOf p s).trigAt + pulseUnits p s ≤ nowUnits s) :
    exec (.triggerPulseEnd p) s = .next (modPort p (fun y => { y with trigLevel := false }) s) := by
  simp [exec, execTriggerPulseEnd, hlive, hdue]

theorem triggerPulseEnd_early (hearly : nowUnits s < (portOf p s).trigAt + pulseUnits p s) :
    exec (.triggerPulseEnd p) s = .next s := by
  simp [exec, execTriggerPulseEnd, hearly]

/-! ### Readbacks of a trigger's ball (R88) -/

section
variable (hblk : blkOn .sensor s = true) (hon : cfgB F.SP_TRIG_ENABLE p s = true) (hoff : (portOf p s).trigOff = false)
include hblk hon hoff

theorem xtrigReadback_short (hfirst : (portOf p s).trigShort = false) :
    exec (.outputReadback (.xtrig p) .atRail) s = .next (raise 1 (portErr p 0xA) p (faultDetail .atRail)
      (modPort p (fun q => { q with trigShort := true, trigOff := false }) s)) := by
  simp [exec, execOutputReadback, readBack, hblk, hon, hoff, hfirst]

theorem xtrigReadback_shortStill (hshort : (portOf p s).trigShort = true) :
    exec (.outputReadback (.xtrig p) .atRail) s =
      .next (modPort p (fun q => { q with trigShort := true, trigOff := false }) s) := by
  simp [exec, execOutputReadback, readBack, hblk, hon, hoff, hshort]

theorem xtrigReadback_good :
    exec (.outputReadback (.xtrig p) .good) s =
      .next (modPort p (fun q => { q with trigShort := false, trigOff := false }) s) := by
  simp [exec, execOutputReadback, readBack, hblk, hon, hoff]

end

end

/-- Settles O18: the hypotheses of each clause fix the branch its command takes. -/
theorem blankingAndScripts : Obligations.BlankingAndScripts := by
  unfold Obligations.BlankingAndScripts
  refine ⟨?window, ?entry, ?last, ?trigger, ?pulse, ?readback⟩
  case window => exact fun _ _ _ _ => windowOpen_opens
  case entry =>
    exact fun p sc s hrun hmore hbus hop => ⟨entryComplete_ack hrun hbus hmore, entryComplete_nack hrun hbus hop,
      controlBusTimeout_abandons hrun⟩
  case last => exact fun p sc s hrun hlast hbus _ => entryComplete_last hrun hbus hlast
  case trigger =>
    intro p n s hlive hseam hlead hsup hon htod hoff hbase
    refine ⟨fun hdue => ⟨_, trigger_due hlive hseam hsup hon htod hbase hlead hoff hdue, fun hp => ?_, fun hn => ?_⟩,
      trigger_early hlive hseam hsup hon htod hbase⟩
    · rw [triggered_port hp]
      exact ⟨rfl, rfl, rfl⟩
    · rw [triggered_exp hn]
      exact ⟨rfl, rfl⟩
  case pulse => exact fun p s hlive => ⟨triggerPulseEnd_lowers hlive, triggerPulseEnd_early⟩
  case readback =>
    exact fun n s hblk hon hoff => ⟨xtrigReadback_short hblk hon hoff, xtrigReadback_shortStill hblk hon hoff,
      xtrigReadback_good hblk hon hoff⟩

end Sys2Proof.Proofs

/-! PROOFS. Frame and line events of a port (R58, R59, R61, R62, R74, R75). -/

namespace Sys2Proof.Proofs
open Sys2Proof Sys2Proof.Machine Sys2Proof.Laws

/-! ### Changes of a port that change nothing of it -/

theorem modPort_eq_self {f : Port → Port} (h : ∀ x, f x = x) (p : Nat) (s : State) : modPort p f s = s := by
  obtain rfl : f = id := funext h
  unfold modPort modCap modAt
  simp only [List.modify_id]

/-- A field of a port that a change keeps. -/
theorem portOf_modPort_proj {α : Type} {g : Port → α} {f : Port → Port} (h : ∀ x, g (f x) = g x) (p q : Nat) (s : State) :
    g (portOf p (modPort q f s)) = g (portOf p s) :=
  portOf_modPort (P := fun x => g x = g (portOf p s)) rfl fun _ => h _

theorem startRetrain_nil (s : State) : startRetrain [] s = s := by
  unfold startRetrain modCap
  simp only [modMany_nil, List.foldl_nil]

section
variable {p : Nat} {s : State}

/-! ### FRAME_START (R59, R75) -/

/-- The state in which a single port without a new fault has sampled a rise of FV. -/
def risen (p : Nat) (s : State) : State :=
  modPort p (fun y => { y with fv := true, lv := false, skip := true, lines := 0 })
    (modCap (fun c => { c with ports := modMany [p] (fun y => { closeWindow (nowUnits s) y with moved := false }) c.ports }) s)

section
variable {skews : List Int} (hlive : portLive p s = true) (hlead : leadOf p s = p) (hfv : (portOf p s).fv = false)
  (hclock : (portOf p s).clock = true) (hphase : (portOf p s).phase = .running) (hgang : gangPorts s.cfg.accepted p = [p])
  (hnew : (portOf p s).newFaults = 0)
include hlive hlead hfv hclock hphase hgang hnew

theorem frameStart_single : exec (.frameStart p skews) s = .next (match portSeam p s with
    | some n => if s.pwr.entering then risen p s else beginFrame p n (skewsBad skews) (risen p s)
    | none => modPort p (fun y => { y with fvRise := some (nowUnits s), fvFall := none }) (risen p s)) := by
  have hfaults : applyNewFaults p s = s := if_pos hnew
  unfold exec execFrameStart
  dsimp only
  rw [if_neg (by simp [hlive, hlead, hfv, hclock, hphase]), hgang, List.foldl_cons, List.foldl_nil, hfaults,
    if_neg (by simp [hclock])]
  rfl

theorem frameStart_begins_single {n : Nat} (hseam : portSeam p s = some n) (hpwr : s.pwr.entering = false) :
    exec (.frameStart p skews) s = .next (beginFrame p n (skewsBad skews) (risen p s)) := by
  rw [frameStart_single hlive hlead hfv hclock hphase hgang hnew, hseam]
  exact congrArg _ (if_neg (by rw [hpwr]; exact Bool.false_ne_true))

theorem frameStart_unused (hseam : portSeam p s = none) :
    exec (.frameStart p skews) s =
      .next (modPort p (fun y => { y with fvRise := some (nowUnits s), fvFall := none }) (risen p s)) := by
  rw [frameStart_single hlive hlead hfv hclock hphase hgang hnew, hseam]

end

/-! ### LINE_START (R59, R116) -/

/-- What a rise of LV leads to, in the state that has counted the line. -/
theorem lineStart_counts {gap : Nat} {skews : List Int} (hlive : portLive p s = true) (hfv : (portOf p s).fv = true)
    (hlv : (portOf p s).lv = false) :
    let least := if (portOf p s).lines = 0 then cfgN F.SP_PORT_FV_EDGE_GAP p s else cfgN F.SP_PORT_LV_GAP p s
    let u : State := modPort p (fun y => { y with lv := true, lines := y.lines + 1 }) s
    exec (.lineStart p gap skews) s = .next (
      if gap < least then syncViolation p u
      else if lvSkewsBad skews then gangDisagree p u
      else if (portOf p s).skip then u
      else match portSeam p s with
        | some n => if (seamOf n (claimStripe n u)).receiving then claimStripe n u
          else closeRecord n (portOf p s).lastNum [] (modPort p (fun y => { y with skip := true }) (claimStripe n u))
        | none => u) := by
  intro least u
  unfold exec execLineStart
  dsimp only
  rw [if_neg (by simp [hlive, hfv, hlv])]
  rfl

/-! ### LINE_END (R58, R61, R62, R74, R75) -/

/-- The detectors' new pairs depend on the faults a port has already. -/
theorem detected_congr {q pos : Nat} {f : List (Nat × PairFault)} {t : State} (hcfg : t.cfg = s.cfg)
    (hmask : (portOf q t).faultMask = (portOf q s).faultMask) : detected q pos f t = detected q pos f s := by
  have huse : dvUse q t = dvUse q s := by
    unfold dvUse leadOf cfgB
    rw [hcfg]
  unfold detected
  simp only [hmask, huse]

theorem detected_nil (q pos : Nat) (s : State) : detected q pos [] s = 0 := by
  simp [detected]

section
variable {b : List (Bool × Beat)} {f : List (Nat × PairFault)} (hlive : portLive p s = true) (hfv : (portOf p s).fv = true)
  (hlv : (portOf p s).lv = true) (hgang : gangPorts s.cfg.accepted p = [p])
include hlive hfv hlv hgang

/-- A fall of LV at a single port first notes the pairs newly found open. -/
theorem lineEnd_notes :
    let u : State := modPort p (fun y => { y with newFaults := y.newFaults ||| detected p 0 f s })
      (modPort p (fun y => { y with lv := false }) s)
    exec (.lineEnd p [b] [] f) s = .next (
      if (portOf p s).skip then u
      else if detected p 0 f s != 0 then portDrop p u
      else match portSeam p s with
        | some n => storeLine p n (linePixels (depthBits (cfgN F.SP_PORT_DEPTH p s)) (gangBeats [validBeats p b u])) u
        | none => u) := by
  intro u
  have hfound : detected p 0 f (modPort p (fun y => { y with lv := false }) s) = detected p 0 f s :=
    detected_congr rfl (portOf_modPort_proj (g := Port.faultMask) (fun _ => by rfl) p p s)
  unfold exec execLineEnd
  dsimp only
  rw [if_neg (by simp [hlive, hfv, hlv]), hgang]
  simp only [List.zipIdx_cons, List.zipIdx_nil, List.map_cons, List.map_nil, List.foldl_cons, List.foldl_nil, hfound,
    List.any_cons, List.any_nil, Bool.or_false]
  simp only [lvSkewsBad, List.any_nil, Bool.false_or, List.headD_cons, bne_self_eq_false, Bool.false_eq_true, if_false,
    List.getD_cons_zero]
  rfl

theorem lineEnd_skips (hskip : (portOf p s).skip = true) :
    exec (.lineEnd p [b] [] []) s = .next (modPort p (fun y => { y with lv := false }) s) := by
  rw [lineEnd_notes hlive hfv hlv hgang, if_pos hskip, detected_nil, modPort_eq_self (by simp)]

theorem lineEnd_stores {n : Nat} (hseam : portSeam p s = some n) (hskip : (portOf p s).skip = false) :
    let u : State := modPort p (fun y => { y with lv := false }) s
    exec (.lineEnd p [b] [] []) s =
      .next (storeLine p n (linePixels (depthBits (cfgN F.SP_PORT_DEPTH p s)) (gangBeats [validBeats p b u])) u) := by
  intro u
  rw [lineEnd_notes hlive hfv hlv hgang, if_neg (by simp [hskip]), detected_nil, if_neg (by simp), hseam,
    modPort_eq_self (by simp)]

theorem lineEnd_drops (hskip : (portOf p s).skip = false) (hfound : detected p 0 f s ≠ 0) :
    exec (.lineEnd p [b] [] f) s = .next (portDrop p (modPort p (fun y => { y with newFaults := y.newFaults ||| detected p 0 f s })
      (modPort p (fun y => { y with lv := false }) s))) := by
  rw [lineEnd_notes hlive hfv hlv hgang, if_neg (by simp [hskip]), if_pos (bne_iff_ne.mpr hfound)]

end

/-! ### FRAME_END (R38, R59) -/

/-- The reception of the frame that ends at a port. -/
def receptionEnded (p : Nat) (s : State) : State :=
  match portSeam p s with
  | some n =>
    if (portOf p s).skip || (receivingOf n s).isNone then s
    else
      let t := endReceiving n s
      if (seamOf n t).frames.any fun y => y.header.num == (portOf p s).lastNum && y.whole then t
      else closeRecord n (portOf p s).lastNum [] t
  | none => s

/-- The state in which FV has fallen at a port. -/
def fallen (p : Nat) (s : State) : State :=
  modPort p (fun y => { y with fv := false, lv := false, skip := true, fvFall := some (nowUnits s) }) s

/-- A fall of FV in order, at a single port that no retrain waits for. -/
theorem frameEnd_falls {gap : Nat} (hlive : portLive p s = true) (hfv : (portOf p s).fv = true) (hlv : (portOf p s).lv = false)
    (hgap : cfgN F.SP_PORT_FV_EDGE_GAP p s ≤ gap) (hgang : gangPorts s.cfg.accepted p = [p])
    (hretrain : (portOf p (receptionEnded p s)).retrainAsked = false) :
    exec (.frameEnd p gap) s = .next (fallen p (receptionEnded p s)) := by
  have hnone : (portOf p (fallen p (receptionEnded p s))).retrainAsked = false :=
    (portOf_modPort_proj (g := Port.retrainAsked) (fun _ => by rfl) p p _).trans hretrain
  have hexec : exec (.frameEnd p gap) s = .next (startRetrain ([p].filter fun q =>
      (portOf q (fallen p (receptionEnded p s))).retrainAsked && (portOf q (fallen p (receptionEnded p s))).clock)
      (fallen p (receptionEnded p s))) := by
    unfold exec execFrameEnd
    dsimp only
    rw [if_neg (by simp [hlive, hfv]), if_neg (by simp [hlv, hgap]), hgang]
    rfl
  rw [hexec, List.filter_cons, hnone, Bool.false_and, if_neg Bool.false_ne_true, List.filter_nil, startRetrain_nil]

theorem receptionEnded_unused (hseam : portSeam p s = none) : receptionEnded p s = s := by
  unfold receptionEnded
  rw [hseam]

theorem seamOf_modSeam_same {n : Nat} (h : n < s.cap.seams.length) (f : Seam → Seam) :
    seamOf n (modSeam n f s) = f (seamOf n s) := getD_modAt _ _ _ _ h

@[simp] theorem modSeam_seams_length (n : Nat) (f : Seam → Seam) (s : State) :
    (modSeam n f s).cap.seams.length = s.cap.seams.length := modAt_length _ _ _

/-- The last frame of a ring stays there when it is changed. -/
theorem mem_modify_last {α : Type} {l : List α} {a : α} (h : l.getLast? = some a) (f : α → α) :
    f a ∈ l.modify (l.length - 1) f := by
  rw [List.getLast?_eq_getElem?] at h
  refine List.mem_of_getElem? (i := l.length - 1) ?_
  rw [List.getElem?_modify_eq, h]
  rfl

section
variable {n : Nat} {f : SeamFrame} (hrec : receivingOf n s = some f) (hlines : seamH s.cfg.accepted n ≤ f.lines.length)
include hrec hlines

/-- A frame with all its lines ends whole. -/
theorem endReceiving_whole : endReceiving n s =
    modSeam n (fun x => { x with receiving := false }) (modReceiving n (fun g => { g with whole := true }) s) := by
  unfold endReceiving
  rw [hrec]
  exact if_neg (Nat.not_lt_of_le hlines)

theorem endReceiving_seam (hn : n < s.cap.seams.length) : (seamOf n (endReceiving n s)).receiving = false ∧
    { f with whole := true } ∈ (seamOf n (endReceiving n s)).frames := by
  have hrecv : (seamOf n s).receiving = true ∧ (seamOf n s).frames.getLast? = some f := by
    unfold receivingOf at hrec
    dsimp only at hrec
    split at hrec
    · next h => exact ⟨h, hrec⟩
    · cases hrec
  obtain ⟨hon, hlast⟩ := hrecv
  have hseam : seamOf n (endReceiving n s) = { seamOf n s with
      receiving := false, frames := (seamOf n s).frames.modify ((seamOf n s).frames.length - 1) fun g => { g with whole := true } } := by
    rw [endReceiving_whole hrec hlines, modReceiving, seamOf_modSeam_same (by simpa using hn), seamOf_modSeam_same hn, if_pos hon]
  rw [hseam]
  exact ⟨rfl, mem_modify_last hlast _⟩

/-- The record of a frame that ends whole is left open for its signature. -/
theorem receptionEnded_whole (hseam : portSeam p s = some n) (hskip : (portOf p s).skip = false) (hn : n < s.cap.seams.length)
    (hnum : f.header.num = (portOf p s).lastNum) : receptionEnded p s = endReceiving n s := by
  obtain ⟨-, hmem⟩ := endReceiving_seam hrec hlines hn
  unfold receptionEnded
  rw [hseam]
  dsimp only
  rw [if_neg (by simp [hskip, hrec]), if_pos (List.any_eq_true.mpr ⟨_, hmem, by simp [hnum]⟩)]

end

end

/-- Settles O17: the hypotheses of each clause fix the branch its event takes, and FRAME_END keeps a frame with all its lines. -/
theorem frameSignals : Obligations.FrameSignals := by
  unfold Obligations.FrameSignals
  refine ⟨?frameStart, ?lineStart, ?lineEnd, ?unused, ?whole, ?unseen⟩
  case frameStart =>
    intro p skews s hlive hlead hfv hclock hphase hgang hnew
    exact ⟨fun n => frameStart_begins_single hlive hlead hfv hclock hphase hgang hnew,
      frameStart_unused hlive hlead hfv hclock hphase hgang hnew⟩
  case lineStart =>
    rintro p gap least skews s hlive hfv hlv rfl u
    rw [lineStart_counts hlive hfv hlv]
    refine ⟨fun hgap => ?_, fun hgap hskew => ?_, fun hgap hskew hno => ?_, fun n hgap hskew hskip hseam => ?_⟩
    · rw [if_pos hgap]
    · rw [if_neg (Nat.not_lt_of_le hgap), if_pos hskew]
    · rw [if_neg (Nat.not_lt_of_le hgap), if_neg (by simp [hskew])]
      rcases hno with hskip | hseam
      · rw [if_pos hskip]
      · rw [hseam]
        exact congrArg _ (ite_self _)
    · rw [if_neg (Nat.not_lt_of_le hgap), if_neg (by simp [hskew]), if_neg (by simp [hskip]), hseam]
  case lineEnd =>
    intro p n b s hlive hfv hlv hgang hseam
    exact ⟨lineEnd_skips hlive hfv hlv hgang, lineEnd_stores hlive hfv hlv hgang hseam,
      fun f => lineEnd_drops hlive hfv hlv hgang⟩
  case unused =>
    intro p gap s hlive hfv hlv hgap hskip hseam hgang hretrain
    have hend := receptionEnded_unused hseam
    refine ⟨_, frameEnd_falls hlive hfv hlv hgap hgang (by rwa [hend]), fun hp => ?_, by rw [hend]; rfl⟩
    rw [hend, fallen, portOf_modPort_same hp]
    exact ⟨rfl, rfl⟩
  case whole =>
    intro p gap n f s hlive hfv hlv hgap hskip hseam hrec hgang hretrain hp hn hnum hlines
    have hend := receptionEnded_whole hrec hlines hseam hskip hn hnum
    have hfallen : portOf p (fallen p (endReceiving n s)) = { portOf p s with
        fv := false, lv := false, skip := true, fvFall := some (nowUnits s) } := by
      rw [endReceiving_whole hrec hlines]
      exact portOf_modPort_same hp _
    obtain ⟨hoff, hmem⟩ := endReceiving_seam hrec hlines hn
    refine ⟨_, frameEnd_falls hlive hfv hlv hgap hgang ?_, ?_⟩
    · rw [hend, endReceiving_whole hrec hlines]
      exact hretrain
    · rw [hend, hfallen]
      exact ⟨rfl, rfl, rfl, hoff, _, hmem, rfl, rfl, rfl⟩
  case unseen =>
    intro p gap s sk b f hfv
    simp [exec, execLineStart, execLineEnd, execFrameEnd, hfv]

end Sys2Proof.Proofs

/-! PROOFS. Sensor clock events, bring-up and deskew of a port (R67, R70, R71, R76). -/

namespace Sys2Proof.Proofs
open Sys2Proof Sys2Proof.Machine Sys2Proof.Laws

section
variable {p : Nat} {s : State}

/-! ### The clock (R71, R76) -/

section
variable (hlive : portLive p s = true) (hclock : (portOf p s).clock = true)
include hlive hclock

theorem clockLoss_idle (hlead : leadOf p s = p) (hfv : (portOf p s).fv = false) :
    exec (.sensorClockLoss p) s = .next (modPort p (fun y => { y with fv := false, lv := false, skip := true })
      (modPort p (fun y => { y with clock := false }) s)) := by
  simp [exec, execSensorClockLoss, hlive, hclock, hlead, hfv]

theorem clockLoss_drops (hlead : leadOf p s = p) (hfv : (portOf p s).fv = true) (hskip : (portOf p s).skip = false) :
    exec (.sensorClockLoss p) s = .next (modPort p (fun y => { y with fv := false, lv := false, skip := true })
      (modPort p (fun y => { y with clock := false }) (raise 2 (portErr p 1) p [] (portDrop p s)))) := by
  simp [exec, execSensorClockLoss, hlive, hclock, hlead, hfv, hskip]

theorem clockLoss_member (hlead : leadOf p s ≠ p) (hfv : (portOf (leadOf p s) s).fv = false) :
    exec (.sensorClockLoss p) s = .next (modPort p (fun y => { y with clock := false }) s) := by
  simp [exec, execSensorClockLoss, hlive, hclock, hlead.symm, hfv]

end

section
variable (hlive : portLive p s = true) (hclock : (portOf p s).clock = false)
include hlive hclock

theorem clockAbsent_noted
    (hphase : (portOf p s).phase = .running ∨ (portOf p s).phase = .stopped ∨ (portOf p s).phase = .retrain) :
    exec (.sensorClockAbsentExpiry p) s = .next (modPort p (fun y => { y with absentLong := true }) s) := by
  rcases hphase with h | h | h <;> simp [exec, execSensorClockAbsentExpiry, hlive, hclock, h]

theorem clockReturn_early (habsent : (portOf p s).absentLong = false) (hasked : (portOf p s).retrainAsked = false) :
    exec (.sensorClockReturn p) s =
      .next (modPort p (fun y => { y with clock := true, faultMask := y.faultMask % 2 ^ pairCK }) s) := by
  simp [exec, execSensorClockReturn, hlive, hclock, habsent, hasked]

theorem clockReturn_retrains (hlate : (portOf p s).absentLong = true ∨ (portOf p s).retrainAsked = true)
    (hphase : (portOf p s).phase ≠ .bringUp ∧ (portOf p s).phase ≠ .off) :
    let t : State := modPort p (fun y => { y with clock := true, faultMask := y.faultMask % 2 ^ pairCK }) s
    exec (.sensorClockReturn p) s = .next (startRetrain
      (if leadOf p s = p then (gangPorts s.cfg.accepted p).filter fun q => (portOf q t).clock else [p]) t) := by
  obtain ⟨hup, hoff⟩ := hphase
  rcases hlate with h | h <;> simp [exec, execSensorClockReturn, hlive, hclock, h, hup, hoff]

end

/-! ### An error raised at a port -/

theorem openRun_modCap (code inst : Nat) (f : Capture → Capture) (s : State) :
    openRun code inst (modCap f s) = modCap f (openRun code inst s) := by
  unfold openRun
  rw [apply_ite (modCap f)]
  rfl

/-- An error is raised beside the capture blocks: neither sees the other. -/
theorem raise_modCap (sev code inst : Nat) (ds : List Nat) (f : Capture → Capture) (s : State) :
    raise sev code inst ds (modCap f s) = modCap f (raise sev code inst ds s) := by
  have hone : ∀ sev code inst ds (t : State), raiseOne sev code inst ds (modCap f t) = modCap f (raiseOne sev code inst ds t) :=
    fun _ _ _ _ _ => rfl
  unfold raise
  simp only [hone, openRun_modCap]
  exact (apply_ite (modCap f) _ _ _).symm

theorem raise_modPort_log (sev code inst : Nat) (ds : List Nat) (p : Nat) (f : Port → Port) (s : State) :
    (raise sev code inst ds (modPort p f s)).log = (raise sev code inst ds s).log := by
  rw [modPort, raise_modCap, modCap_log]

theorem clockTimeout_fatal (hlive : portLive p s = true) (hphase : (portOf p s).phase = .bringUp)
    (hclock : (portOf p s).clock = false) : exec (.sensorClockTimeout p) s =
      .next (enterConfigError (raise 3 (portErr p 1) p [] (modPort p (fun x => { x with phase := .stopped }) s))) := by
  simp [exec, execSensorClockTimeout, hlive, hphase, hclock]

theorem stopped_phase (hp : p < s.cap.ports.length) (code : Nat) (ds : List Nat) :
    (portOf p (enterConfigError (raise 3 code p ds (modPort p (fun x => { x with phase := .stopped }) s)))).phase = .stopped := by
  have hcap : (enterConfigError (raise 3 code p ds (modPort p (fun x => { x with phase := .stopped }) s))).cap =
      (modPort p (fun x => { x with phase := .stopped }) s).cap := raise_cap ..
  unfold portOf
  rw [hcap]
  exact congrArg Port.phase (portOf_modPort_same hp _)

/-! ### Training reads the settings alone (R67) -/

section
variable {t : State} (h : t.cfg = s.cfg) (obs : TrainObs)
include h

theorem cfgB_of_cfg (f : Fld) (i : Nat) : cfgB f i t = cfgB f i s := by
  unfold cfgB
  rw [h]

theorem dvUse_of_cfg : dvUse p t = dvUse p s := by
  unfold dvUse leadOf
  rw [cfgB_of_cfg h, h]

theorem maskStops_of_cfg (m : Nat) : maskStops p m t = maskStops p m s := by
  unfold maskStops
  rw [dvUse_of_cfg h, cfgB_of_cfg h]

theorem pairPattern_of_cfg (i : Nat) : pairPattern p i t = pairPattern p i s := by
  unfold pairPattern
  simp only [cfgN_of_cfg h, cfgB_of_cfg h]

theorem pairWindow_of_cfg (i : Nat) : pairWindow p obs i t = pairWindow p obs i s := by
  unfold pairWindow pairRuns
  simp only [pairPattern_of_cfg h, cfgN_of_cfg h, cfgB_of_cfg h]

theorem trainDelays_of_cfg : trainDelays p obs t = trainDelays p obs s := by
  unfold trainDelays topOffset
  simp only [pairWindow_of_cfg h]

theorem pairFault_of_cfg (i : Nat) : pairFault p obs i t = pairFault p obs i s := by
  unfold pairFault shortedWith pairStuck topOffset
  simp only [pairWindow_of_cfg h, pairPattern_of_cfg h]

theorem trainFaults_of_cfg : trainFaults p obs t = trainFaults p obs s := by
  unfold trainFaults
  simp only [pairFault_of_cfg h, dvUse_of_cfg h]

end

theorem maskStops_zero (p : Nat) (s : State) : maskStops p 0 s = false := by
  simp [maskStops, controlPairs, dataPairs]

theorem directScript_cfg (f : Fld) (e : ScriptEnd) : (directScript p f e s).cfg = s.cfg :=
  congrArg Kept.cfg (directScript_kept p f e s)

/-! ### What the rest of a training leaves of a port's settings -/

/-- The clock, the mark of a skipped frame, the faults and the delays of a port. -/
def settled (x : Port) : Bool × Bool × Nat × List Nat := (x.clock, x.skip, x.faultMask, x.trained)

/-- The settings of all ports. -/
def settledAll (s : State) : List (Bool × Bool × Nat × List Nat) := s.cap.ports.map settled

theorem settled_of_settledAll {t : State} (h : settledAll t = settledAll s) (p : Nat) :
    settled (portOf p t) = settled (portOf p s) := by
  unfold portOf
  rw [← getD_map_getD settled, ← getD_map_getD settled]
  exact congrArg (fun l => l.getD p (settled {})) h

theorem ports_length_of_settledAll {t : State} (h : settledAll t = settledAll s) :
    t.cap.ports.length = s.cap.ports.length := by
  simpa [settledAll] using congrArg List.length h

theorem settledAll_modPort {f : Port → Port} (h : ∀ x, settled (f x) = settled x) (p : Nat) (s : State) :
    settledAll (modPort p f s) = settledAll s := map_modAt_id h _ _

theorem settledAll_raise (sev code inst : Nat) (ds : List Nat) (s : State) :
    settledAll (raise sev code inst ds s) = settledAll s := by
  simp [settledAll]

theorem settledAll_directScript (p : Nat) (f : Fld) (e : ScriptEnd) (s : State) :
    settledAll (directScript p f e s) = settledAll s := by
  have hbad : ∀ k, settledAll (raise 1 (portErr p k) p [] (modPort p (fun x => { x with
      abandoned := min 0xFFFF (x.abandoned + 1) }) s)) = settledAll s :=
    fun k => (settledAll_raise ..).trans (settledAll_modPort (fun _ => by rfl) p s)
  unfold directScript
  extract_lets es bad
  split
  · rfl
  · split
    · rfl
    · exact hbad 7
    · exact hbad 9

theorem settledAll_armTrigger (p : Nat) (s : State) : settledAll (armTrigger p s) = settledAll s := by
  unfold armTrigger
  split
  · next n _ =>
    extract_lets ports first t
    split
    · exact List.foldlRecOn (motive := fun u : State => settledAll u = settledAll s) ports _ rfl fun u hu q _ =>
        (settledAll_modPort (fun _ => by rfl) q u).trans hu
    · rfl
  · rfl

theorem settledAll_startRetrain (ps : List Nat) (s : State) : settledAll (startRetrain ps s) = settledAll s := by
  unfold settledAll
  rw [startRetrain_cap]
  dsimp only
  refine map_modMany ?_ ps s.cap.ports
  exact fun _ => rfl

theorem settledAll_surveyNext (p : Nat) (s : State) : settledAll (surveyNext p s) = settledAll s := by
  unfold surveyNext
  split
  · rfl
  · extract_lets _ t
    split
    · rfl
    · split
      · exact settledAll_modPort (fun _ => by rfl) _ t
      · exact settledAll_startRetrain _ t

/-! ### Bring-up (R67) -/

/-- A port after its training, when it runs or stays stopped. -/
theorem finishTraining_settled (obs : TrainObs) (hp : p < s.cap.ports.length) :
    settled (portOf p (finishTraining p obs s)) = settled { portOf p s with skip := true } := by
  have hscript := settledAll_directScript p F.SP_SCBUS_TRAIN_OFF_SCRIPT (obs.scripts.getD 2 .done) s
  unfold finishTraining
  extract_lets u stop
  rw [settled_of_settledAll ((settledAll_surveyNext p _).trans (settledAll_armTrigger p _)),
    portOf_modPort_same (by rwa [ports_length_of_settledAll hscript])]
  have hu : settled (portOf p u) = settled (portOf p s) := settled_of_settledAll hscript p
  simp only [settled, Prod.mk.injEq] at hu ⊢
  exact ⟨hu.1, trivial, hu.2.2⟩

section
variable {obs : TrainObs} (hp : p < s.cap.ports.length)
include hp

theorem applyTraining_port : portOf p (applyTraining p obs s) = { portOf p s with
    faultMask := trainFaults p obs s, invMask := trainInversions p obs s, delays := (trainDelays p obs s).1
    slips := (trainDelays p obs s).2, trained := (trainDelays p obs s).1, trainTemp := tempOf 14 s } := portOf_modPort_same hp _

/-- A port that training finds no fault on starts with the delays found. -/
theorem trainAtStart_starts (hgood : trainFaults p obs s = 0) :
    settled (portOf p (trainAtStart p obs s)) = ((portOf p s).clock, true, 0, (trainDelays p obs s).1) := by
  have hscript := settledAll_directScript p F.SP_SCBUS_TRAIN_ON_SCRIPT (obs.scripts.getD 1 .done) s
  have hcfg := directScript_cfg (p := p) (s := s) F.SP_SCBUS_TRAIN_ON_SCRIPT (obs.scripts.getD 1 .done)
  unfold trainAtStart
  extract_lets u m t
  have hm : m = 0 := (trainFaults_of_cfg hcfg obs).trans hgood
  have hu : p < u.cap.ports.length := by rwa [ports_length_of_settledAll hscript]
  have hcap : t.cap = (applyTraining p obs u).cap := logFaults_cap ..
  have hport : portOf p t = portOf p (applyTraining p obs u) := by
    unfold portOf
    rw [hcap]
  have ht : p < t.cap.ports.length := by
    rw [hcap]
    exact lt_of_lt_of_eq hu (modPort_ports_length ..).symm
  have hclock : (portOf p u).clock = (portOf p s).clock := congrArg Prod.fst (settled_of_settledAll hscript p)
  rw [if_neg (by simp [hm, maskStops_zero, hasPair_zero]), finishTraining_settled obs ht, hport, applyTraining_port hu]
  have hfaults : trainFaults p obs u = 0 := hm
  have hdelays : trainDelays p obs u = trainDelays p obs s := trainDelays_of_cfg hcfg obs
  simp only [settled, hclock, hfaults, hdelays]

/-- A fault that stops the port stops the start-up (R68). -/
theorem trainAtStart_stops
    (hbad : maskStops p (trainFaults p obs s) s = true ∨ hasPair (trainFaults p obs s) pairCK = true) :
    (trainAtStart p obs s).dev.state = .configError ∧ (portOf p (trainAtStart p obs s)).phase = .stopped := by
  have hscript := settledAll_directScript p F.SP_SCBUS_TRAIN_ON_SCRIPT (obs.scripts.getD 1 .done) s
  have hcfg := directScript_cfg (p := p) (s := s) F.SP_SCBUS_TRAIN_ON_SCRIPT (obs.scripts.getD 1 .done)
  unfold trainAtStart
  extract_lets u m t
  have hm : m = trainFaults p obs s := trainFaults_of_cfg hcfg obs
  have ht : p < t.cap.ports.length := by
    rw [show t.cap = (applyTraining p obs u).cap from logFaults_cap ..]
    exact lt_of_lt_of_eq hp ((modPort_ports_length ..).trans (ports_length_of_settledAll hscript)).symm
  have hstop : (maskStops p m u || hasPair m pairCK) = true := by
    rw [hm, maskStops_of_cfg hcfg, Bool.or_eq_true]
    exact hbad
  rw [if_pos hstop]
  exact ⟨enterConfigError_state _, stopped_phase ht _ _⟩

end

/-- At bring-up a port with a clock within the limits is initialised and trained. -/
theorem bringUp_trains {obs : TrainObs} {k : Nat} (hlive : portLive p s = true) (hphase : (portOf p s).phase = .bringUp)
    (hclock : obs.clockKHz = some k) (hok : clockOk p k s = true) : exec (.portBringUp p obs) s = .next (trainAtStart p obs
      (modPort p (fun x => { x with clock := true }) (directScript p F.SP_SCBUS_INIT_SCRIPT (obs.scripts.getD 0 .done) s))) := by
  simp [exec, execPortBringUp, hlive, hphase, hclock, hok]

/-! ### Deskew (R70) -/

theorem modPort_congr {f g : Port → Port} (h : f (portOf p s) = g (portOf p s)) : modPort p f s = modPort p g s := by
  have hlist : modAt s.cap.ports p f = modAt s.cap.ports p g := by
    refine List.ext_getElem? fun i => ?_
    simp only [modAt, List.getElem?_modify]
    split
    · next hi =>
      subst hi
      unfold portOf at h
      rw [List.getD_eq_getElem?_getD] at h
      cases hx : s.cap.ports[p]? with
      | none => rfl
      | some x => simpa [hx] using h
    · rfl
  simp only [modPort, modCap, hlist]

/-- One delay's step toward the change that the sets predict since training. -/
def deskewStep (p : Nat) (s : State) (k d : Nat) : Nat :=
  match calValue k (tempOf 14 s) (calSets 0 p s), calValue k (portOf p s).trainTemp (calSets 0 p s) with
  | some a, some b =>
    let want := clampN 127 (((portOf p s).trained.getD k 0 : Int) + a - b)
    if d < want then d + 1 else if want < d then d - 1 else d
  | _, _ => d

theorem deskewStep_near (p : Nat) (s : State) (k d : Nat) : deskewStep p s k d ≤ d + 1 ∧ d ≤ deskewStep p s k d + 1 := by
  unfold deskewStep
  split
  · extract_lets want
    split
    · omega
    · split <;> omega
  · omega

/-- The delays of a port after a step. -/
def deskewed (p : Nat) (s : State) (l : List Nat) : List Nat := l.zipIdx.map fun d => deskewStep p s d.2 d.1

theorem deskewed_length (l : List Nat) : (deskewed p s l).length = l.length := by simp [deskewed]

theorem deskewed_getElem {l : List Nat} {k d : Nat} (h : l[k]? = some d) : (deskewed p s l)[k]? = some (deskewStep p s k d) := by
  simp [deskewed, h]

theorem deskewUpdate_steps (hlive : portLive p s = true) (hphase : (portOf p s).phase = .running)
    (hfv : (portOf (leadOf p s) s).fv = false) (hmoved : (portOf p s).moved = false) (hsets : calSets 0 p s ≠ []) :
    exec (.deskewUpdate p) s = .next (modPort p (fun y => { y with moved := true, delays := deskewed p s y.delays }) s) := by
  unfold exec execDeskewUpdate
  dsimp only
  rw [if_neg (by simp [hlive, hphase, hfv, hmoved, hsets])]
  refine congrArg _ (modPort_congr ?_)
  rfl

end

/-- Settles O16: the hypotheses of each clause fix the branch its event takes; at bring-up the settings that training finds
outlive the scripts, the trigger's arming and the Survey's next port. -/
theorem sensorClockAndTraining : Obligations.SensorClockAndTraining := by
  unfold Obligations.SensorClockAndTraining
  refine ⟨?idle, ?drops, ?member, ?absent, ?early, ?returns, ?timeout, ?bringUp, ?deskew⟩
  case idle => exact fun _ _ => clockLoss_idle
  case drops => exact fun _ _ => clockLoss_drops
  case member => exact fun _ _ => clockLoss_member
  case absent => exact fun _ _ => clockAbsent_noted
  case early => exact fun _ _ => clockReturn_early
  case returns =>
    intro p s hlive hclock hlate hup hoff t
    have hexec := clockReturn_retrains hlive hclock hlate ⟨hup, hoff⟩
    exact ⟨fun hlead => by rw [hexec, if_neg hlead], fun hlead => by rw [hexec, if_pos hlead]⟩
  case timeout =>
    intro p s hlive hphase hclock
    exact ⟨_, clockTimeout_fatal hlive hphase hclock, enterConfigError_state _, rfl, raise_modPort_log ..,
      fun hp => stopped_phase hp _ _⟩
  case bringUp =>
    intro p k obs s hlive hphase hclock hok hp
    rw [bringUp_trains hlive hphase hclock hok]
    set u := modPort p (fun x => { x with clock := true }) (directScript p F.SP_SCBUS_INIT_SCRIPT (obs.scripts.getD 0 .done) s)
    have hcfg : u.cfg = s.cfg := directScript_cfg _ _
    have hinit : p < (directScript p F.SP_SCBUS_INIT_SCRIPT (obs.scripts.getD 0 .done) s).cap.ports.length := by
      rwa [ports_length_of_settledAll (settledAll_directScript ..)]
    have hu : p < u.cap.ports.length := by rwa [modPort_ports_length]
    have hclk : (portOf p u).clock = true := congrArg Port.clock (portOf_modPort_same hinit _)
    refine ⟨fun hgood => ?_, fun hbad => ?_⟩
    · have hend := trainAtStart_starts hu ((trainFaults_of_cfg hcfg obs).trans hgood)
      rw [hclk, trainDelays_of_cfg hcfg] at hend
      simp only [settled, Prod.mk.injEq] at hend
      exact ⟨_, rfl, hend⟩
    · rw [← trainFaults_of_cfg hcfg, ← maskStops_of_cfg hcfg] at hbad
      exact ⟨_, rfl, trainAtStart_stops hu hbad⟩
  case deskew =>
    intro p s hlive hphase hfv hmoved hsets
    exact ⟨deskewed p s, deskewUpdate_steps hlive hphase hfv hmoved hsets, fun l => ⟨deskewed_length l, fun k d hd =>
      ⟨_, deskewed_getElem hd, deskewStep_near p s k d⟩⟩⟩

end Sys2Proof.Proofs

/-! PROOFS. The scheduler's pick and the start of a unit (R109). -/

namespace Sys2Proof.Proofs
open Sys2Proof Sys2Proof.Machine Sys2Proof.Laws

/-! ### The least key -/

section
variable {u : Nat × Nat × Nat × Nat}

theorem keyLt_asymm {a b : Nat × Nat × Nat × Nat} (h : keyLt a b = true) : keyLt b a = false := by
  simp only [keyLt, Bool.or_eq_true, Bool.and_eq_true, decide_eq_true_eq, beq_iff_eq] at h
  rw [Bool.eq_false_iff]
  simp only [keyLt, ne_eq, Bool.or_eq_true, Bool.and_eq_true, decide_eq_true_eq, beq_iff_eq]
  omega

/-- One step of the search for the least key. -/
def keepLeast (best : Option (Nat × Nat × Nat × Nat)) (k : Nat × Nat × Nat × Nat) : Option (Nat × Nat × Nat × Nat) :=
  match best with
  | none => some k
  | some b => if keyLt k b then some k else some b

theorem leastKey_eq_foldl (l : List (Nat × Nat × Nat × Nat)) : leastKey l = l.foldl keepLeast none := rfl

/-- Once found, a key that is least among those left is kept. -/
theorem foldl_keepLeast_of_found {l : List (Nat × Nat × Nat × Nat)} (hleast : ∀ x ∈ l, x = u ∨ keyLt u x = true) :
    l.foldl keepLeast (some u) = some u := by
  induction l with
  | nil => rfl
  | cons x l ih =>
    have hkeep : keepLeast (some u) x = some u := by
      rcases hleast x (by simp) with rfl | hlt
      · simp [keepLeast]
      · simp [keepLeast, keyLt_asymm hlt]
    rw [List.foldl_cons, hkeep]
    exact ih fun y hy => hleast y (by simp [hy])

/-- Until it comes, any key kept is a greater one. -/
theorem foldl_keepLeast_of_mem {l : List (Nat × Nat × Nat × Nat)} {best : Option (Nat × Nat × Nat × Nat)}
    (hbest : ∀ b ∈ best, keyLt u b = true) (hmem : u ∈ l) (hleast : ∀ x ∈ l, x = u ∨ keyLt u x = true) :
    l.foldl keepLeast best = some u := by
  induction l generalizing best with
  | nil => simp at hmem
  | cons x l ih =>
    have hrest : ∀ y ∈ l, y = u ∨ keyLt u y = true := fun y hy => hleast y (by simp [hy])
    rw [List.foldl_cons]
    by_cases hx : x = u
    · have htake : keepLeast best x = some u := by
        cases best with
        | none => simp [keepLeast, hx]
        | some b => simp [keepLeast, hx, hbest b rfl]
      rw [htake]
      exact foldl_keepLeast_of_found hrest
    · have hlt : keyLt u x = true := (hleast x (by simp)).resolve_left hx
      refine ih ?_ (by simpa [Ne.symm hx] using hmem) hrest
      intro b hb
      cases best with
      | none => simpa [keepLeast, ← Option.some.inj hb] using hlt
      | some c =>
        rcases ite_eq_or_eq (keyLt x c = true) (some x) (some c) with h | h
        · rwa [← Option.some.inj (h.symm.trans hb)]
        · rw [← Option.some.inj (h.symm.trans hb)]
          exact hbest c rfl

theorem leastKey_of_least {l : List (Nat × Nat × Nat × Nat)} (hmem : u ∈ l) (hleast : ∀ x ∈ l, x = u ∨ keyLt u x = true) :
    leastKey l = some u := by
  rw [leastKey_eq_foldl]
  exact foldl_keepLeast_of_mem (by simp) hmem hleast

end

/-! ### Ready units -/

theorem nextUnit_of_idle {s : State} (h : ∀ n < 8, readyUnits n s = []) : nextUnit s = none := by
  have hnil : ((List.range 8).flatMap fun n => readyUnits n s) = [] :=
    List.flatMap_eq_nil_iff.mpr fun n hn => h n (List.mem_range.mp hn)
  rw [nextUnit, hnil]
  rfl

theorem nextUnit_of_least {n : Nat} {u : Nat × Nat × Nat × Nat} {s : State} (hn : n < 8) (hmem : u ∈ readyUnits n s)
    (hleast : ∀ m < 8, ∀ x ∈ readyUnits m s, x = u ∨ keyLt u x = true) : nextUnit s = some u := by
  refine leastKey_of_least (List.mem_flatMap.mpr ⟨n, List.mem_range.mpr hn, hmem⟩) fun x hx => ?_
  obtain ⟨m, hm, hxm⟩ := List.mem_flatMap.mp hx
  exact hleast m (List.mem_range.mp hm) x hxm

/-- A ready unit belongs to a frame of the ring that is not dropped. -/
theorem frame_of_ready {n d m num k : Nat} {s : State} (h : (d, m, num, k) ∈ readyUnits n s) :
    ∃ f ∈ (seamOf n s).frames, f.dropped = false ∧ f.header.num = num := by
  obtain ⟨f, hf, hk⟩ := List.mem_flatMap.mp h
  cases hd : f.dropped with
  | true => simp [hd] at hk
  | false =>
    simp only [hd, Bool.false_eq_true, if_false, List.mem_filterMap, Option.ite_none_right_eq_some, Option.some.injEq,
      Prod.mk.injEq] at hk
    obtain ⟨j, -, -, -, -, hnum, -⟩ := hk
    exact ⟨f, hf, hd, hnum⟩

/-! ### A change of a frame by its number -/

theorem seamOf_modFrame_frames (n num : Nat) (g : SeamFrame → SeamFrame) (s : State) :
    (seamOf n (modFrame n num g s)).frames = (seamOf n s).frames.map fun f => if f.header.num = num then g f else f := by
  rcases Nat.lt_or_ge n s.cap.seams.length with hlt | hge
  · rw [modFrame, seamOf_modSeam_same hlt]
  · have hout : ∀ t : State, t.cap.seams.length ≤ n → (seamOf n t).frames = [] := fun t ht => by
      rw [seamOf, List.getD_eq_default _ _ ht]
    rw [hout s hge, hout _ (by simpa [modFrame] using hge)]
    rfl

/-! ### UNIT_START -/

section
variable {s : State}

theorem unitStart_busy (h : s.cap.pipe.isSome = true) : exec .unitStart s = .next s := by
  simp [exec, execUnitStart, h]

variable (hon : blkOn .frontHead s = true) (hfree : s.cap.pipe = none)
include hon hfree

theorem unitStart_idle (h : nextUnit s = none) : exec .unitStart s = .next s := by
  simp [exec, execUnitStart, hon, hfree, h]

/-- The unit picked goes into the pipeline and is noted as started at its frame. -/
theorem unitStart_starts {d n num k : Nat} {f : SeamFrame} (hnext : nextUnit s = some (d, n, num, k))
    (hframe : (seamOf n s).frames.find? (fun g => g.header.num == num && !g.dropped) = some f) :
    exec .unitStart s = .next (modFrame n num (fun g => { g with started := g.started ++ [k] })
      (modCap (fun c => { c with pipe := some ⟨n, num, k⟩ }) (if f.started.isEmpty then claimBuffers n f.bound s else s))) := by
  simp [exec, execUnitStart, hon, hfree, hnext, hframe]

end

/-- Settles O39: the search over all ready units ends with the least key, whose frame is in its seam's ring. -/
theorem pipelineScheduler : Obligations.PipelineScheduler := by
  unfold Obligations.PipelineScheduler
  refine ⟨fun s hon hfree => ⟨fun hidle => unitStart_idle hon hfree (nextUnit_of_idle hidle), ?starts⟩, fun _ => unitStart_busy⟩
  case starts =>
    intro d n num k hn hready hleast
    obtain ⟨g, hg, hkept, hnum⟩ := frame_of_ready hready
    have hfound : ((seamOf n s).frames.find? fun f => f.header.num == num && !f.dropped).isSome = true :=
      List.find?_isSome.mpr ⟨g, hg, by simp [hkept, hnum]⟩
    obtain ⟨f, hf⟩ := Option.isSome_iff_exists.mp hfound
    refine ⟨_, unitStart_starts hon hfree (nextUnit_of_least hn hready hleast) hf, rfl, ?_⟩
    intro x hx hxnum
    rw [seamOf_modFrame_frames] at hx
    obtain ⟨y, -, rfl⟩ := List.mem_map.mp hx
    have hy : y.header.num = num := by split at hxnum <;> exact hxnum
    rw [if_pos hy]
    simp

end Sys2Proof.Proofs

/-! PROOFS. The end of a unit, absent sources, silent leaders, adit holds and schedule rebases (R107, R110, R119, R196, R222,
R508). -/

namespace Sys2Proof.Proofs
open Sys2Proof Sys2Proof.Machine Sys2Proof.Laws

/-! ### UNIT_END (R107, R109, R116) -/

/-- The state in which the unit in the pipeline has finished and nothing else has followed. -/
def unitFinished (u : PipeUnit) (s : State) : State :=
  modFrame u.seam u.frame (fun g => { g with finished := g.finished ++ [u.stripe] }) { s with cap := { s.cap with pipe := none } }

section
variable {u : PipeUnit} {f : SeamFrame} {s : State}

theorem unitFinished_frame (hframe : (seamOf u.seam s).frames.find? (fun g => g.header.num == u.frame) = some f) :
    (seamOf u.seam (unitFinished u s)).frames.find? (fun g => g.header.num == u.frame) =
      some { f with finished := f.finished ++ [u.stripe] } := by
  have hnum : f.header.num = u.frame := by simpa using List.find?_some hframe
  have hsame : ((fun g : SeamFrame => g.header.num == u.frame) ∘ fun g : SeamFrame =>
      if g.header.num = u.frame then { g with finished := g.finished ++ [u.stripe] } else g) = fun g => g.header.num == u.frame := by
    funext g
    by_cases h : g.header.num = u.frame <;> simp [h]
  rw [unitFinished, seamOf_modFrame_frames, List.find?_map, hsame]
  change Option.map _ ((seamOf u.seam s).frames.find? _) = _
  rw [hframe, Option.map_some, if_pos hnum]

theorem unitEnd_idle (hpipe : s.cap.pipe = none) : exec .unitEnd s = .next s := by
  simp [exec, execUnitEnd, hpipe]

/-- What follows the end of a unit depends on its frame alone. -/
theorem unitEnd_finishes (hpipe : s.cap.pipe = some u)
    (hframe : (seamOf u.seam s).frames.find? (fun g => g.header.num == u.frame) = some f) :
    let f' : SeamFrame := { f with finished := f.finished ++ [u.stripe] }
    exec .unitEnd s = .next (
      if f.dropped then if f.started.length = f'.finished.length then leaveRing u.seam u.frame (unitFinished u s) else unitFinished u s
      else if unitCount s.dev.role s.cfg.accepted u.seam ≤ f'.finished.length then releaseFrame u.seam f' (unitFinished u s)
      else unitFinished u s) := by
  have hfound := unitFinished_frame hframe
  simp only [unitFinished] at hfound
  simp only [exec, execUnitEnd, hpipe, modCap, hfound]
  rfl

end

/-! ### Deadlines (R110) -/

theorem raise_modSeam_log (sev code inst : Nat) (ds : List Nat) (n : Nat) (f : Seam → Seam) (s : State) :
    (raise sev code inst ds (modSeam n f s)).log = (raise sev code inst ds s).log := by
  rw [modSeam, raise_modCap, modCap_log]

section
variable {n : Nat} {f : SeamFrame} {s : State}

theorem checkDeadline_log_of_met (h : nowNs s ≤ f.deadline) : (checkDeadline n f s).log = s.log := by
  rw [checkDeadline, if_neg (Nat.not_lt_of_le h)]
  rfl

theorem checkDeadline_log_of_missed (h : f.deadline < nowNs s) :
    (checkDeadline n f s).log = (raise 0 (seamErr n 2) n [] s).log := by
  rw [checkDeadline, if_pos h, raise_modSeam_log, raise_modSeam_log]

theorem checkDeadline_misses (h : f.deadline < nowNs s) (hn : n < s.cap.seams.length) :
    (seamOf n (checkDeadline n f s)).misses = wrapInc 32 (seamOf n s).misses := by
  rw [checkDeadline, if_pos h]
  simp only [seamOf, raise_cap]
  change (seamOf n (modSeam n _ (modSeam n _ s))).misses = _
  rw [seamOf_modSeam_same (by simpa using hn), seamOf_modSeam_same hn]
  rfl

end

/-! ### Absent sources, silent leaders and host holds (R119, R196, R222) -/

section
variable {n : Nat} {s : State}

theorem sourceAbsent_logs (hon : blkOn .ingest s = true) (hact : seamActive s.cfg.accepted n = true)
    (hseen : (seamOf n s).seen = true) (hnew : (seamOf n s).absent = false)
    (hdue : (seamOf n s).lastArrival + 4 * periodNs (seamOf n s).committed n ≤ nowNs s) :
    exec (.sourceAbsentExpiry n) s =
      .next (raiseOnce 1 (seamErr n 3) n [] (modSeam n (fun y => { y with absent := true }) s)) := by
  simp [exec, execSourceAbsentExpiry, hon, hact, hseen, hnew, hdue]

theorem sourceAbsent_logged (h : (seamOf n s).absent = true) : exec (.sourceAbsentExpiry n) s = .next s := by
  simp [exec, execSourceAbsentExpiry, h]

theorem leaderSilent_logs (hrun : loopsRun n s = true) (hlock : cfgN F.LOOP_AE_LOCK n s = 2) (hnew : (loopOf n s).silent = false)
    (hdue : (loopOf n s).lockAt * 5 + 32 * loopPeriod n s * 4 ≤ s.dev.elapsed * 5) :
    exec (.leaderSilentExpiry n) s =
      .next (raiseOnce 1 (0x0698 + n) n [] (modLoop n (fun y => { y with silent := true }) s)) := by
  simp [exec, execLeaderSilentExpiry, hrun, hlock, hnew, hdue]

end

theorem hostHeld_released (r : OutRing) : hostHeld (holdOut .host none r) = none := by
  refine List.find?_eq_none.mpr fun b hb => ?_
  obtain ⟨x, -, rfl⟩ := List.mem_map.mp hb
  simp

theorem hostRelease_adit {n : Nat} {s : State} (hn : n < s.cap.adits.length) :
    hostHeld ((hostRelease n s).cap.adits.getD n {}) = none := by
  rw [hostRelease, modCap_cap, getD_modAt _ _ _ _ hn]
  exact hostHeld_released _

/-! ### The number of entries an error adds to the log (R706, R709) -/

theorem queueErr_runs (code inst sev : Nat) (ds : List Nat) (q : ErrorQueue) : (queueErr code inst sev ds q).runs = q.runs := by
  unfold queueErr queueNew
  dsimp only
  repeat' split
  all_goals rfl

/-- The log numbers the entry, and 0x1523 too where a waiting entry is lost outside a run of it. -/
theorem raise_log_next (sev code inst : Nat) (ds : List Nat) (s : State) : (raise sev code inst ds s).log.next =
    if 4096 ≤ s.log.waiting.length ∧ inRun 0x1523 noInst s = false then s.log.next + 2 else s.log.next + 1 := by
  have hrun : inRun 0x1523 noInst (raiseOne sev code inst ds s) = inRun 0x1523 noInst s := by
    change (queueErr code inst sev ds s.err).runs.contains _ = _
    rw [queueErr_runs]
    rfl
  unfold raise
  simp only [hrun, Bool.not_eq_true']
  split
  · rw [openRun, apply_ite (raiseOne 1 0x1523 noInst []), apply_ite State.log, apply_ite EventLog.next]
    exact ite_self _
  · rfl

/-- The number depends on the log and the open runs alone. -/
theorem raise_log_next_congr {s t : State} (hlog : t.log = s.log) (herr : t.err = s.err) (sev code inst : Nat) (ds es : List Nat) :
    (raise sev code inst ds t).log.next = (raise sev code inst es s).log.next := by
  have hrun : inRun 0x1523 noInst t = inRun 0x1523 noInst s := by rw [inRun, inRun, herr]
  rw [raise_log_next, raise_log_next, hlog, hrun]

/-! ### SCHEDULE_REBASE (R508) -/

theorem portOf_modPort_ne {p q : Nat} (h : q ≠ p) (f : Port → Port) (s : State) : portOf p (modPort q f s) = portOf p s :=
  portOf_modPort (P := (· = portOf p s)) rfl fun e => absurd e h

/-- Ports changed one after another, by a change that twice is the same as once. -/
theorem portOf_foldl_modPort {f : Nat → Port → Port} (hf : ∀ q x, f q (f q x) = f q x) {p : Nat} (ps : List Nat) {s : State}
    (hp : p < s.cap.ports.length) : portOf p (ps.foldl (fun u q => modPort q (f q) u) s) =
      if p ∈ ps then f p (portOf p s) else portOf p s := by
  induction ps generalizing s with
  | nil => rfl
  | cons q ps ih =>
    rw [List.foldl_cons, ih (by simpa using hp)]
    by_cases hq : q = p
    · subst hq
      simp [portOf_modPort_same hp, hf]
    · simp [portOf_modPort_ne hq, Ne.symm hq]

/-- A port of a seam whose schedule is rebased, as it is armed anew. -/
def rebasedPort (n gap : Nat) (s : State) (p : Nat) (x : Port) : Port :=
  { x with trigNext := spacedPoint n p x.trigLast gap s, trigDelay := portDelay p s }

/-- The ports of a seam armed anew. -/
def rebasedPorts (n gap : Nat) (s : State) : State := (seamPorts n s).foldl (fun u p => modPort p (rebasedPort n gap s p) u) s

/-- The seam's schedule armed at point `i`, and its ports anew. -/
def rebased (n gap : Nat) (i : Int) (s : State) : State :=
  modExp n (fun x => { x with
    n := i, armed := true, rebase := false, lastPeriod := framePeriodNs n s, rate := schedRate n s }) (rebasedPorts n gap s)

theorem rebasedPorts_eq (n gap : Nat) (s : State) : ∃ c, rebasedPorts n gap s = { s with cap := c } := by
  have hfold : ∀ (ps : List Nat) (u : State), (∃ c, u = { s with cap := c }) →
      ∃ c, ps.foldl (fun v p => modPort p (rebasedPort n gap s p) v) u = { s with cap := c } := by
    intro ps
    induction ps with
    | nil => exact fun _ h => h
    | cons p ps ih =>
      rintro _ ⟨c, rfl⟩
      exact ih _ ⟨_, rfl⟩
  exact hfold _ s ⟨s.cap, rfl⟩

section
variable {n gap : Nat} {i : Int} {s : State}

theorem rebased_log : (rebased n gap i s).log = s.log := by
  obtain ⟨c, hc⟩ := rebasedPorts_eq n gap s
  rw [rebased, hc]
  rfl

theorem rebased_err : (rebased n gap i s).err = s.err := by
  obtain ⟨c, hc⟩ := rebasedPorts_eq n gap s
  rw [rebased, hc]
  rfl

theorem rebased_exp (hn : n < s.time.exp.length) : (rebased n gap i s).time.exp.getD n {} = { s.time.exp.getD n {} with
    n := i, armed := true, rebase := false, lastPeriod := framePeriodNs n s, rate := schedRate n s } := by
  obtain ⟨c, hc⟩ := rebasedPorts_eq n gap s
  rw [rebased, hc]
  exact getD_modAt _ _ _ _ hn

theorem rebased_trigNext {p : Nat} (hmem : p ∈ seamPorts n s) (hp : p < s.cap.ports.length) :
    (portOf p (rebased n gap i s)).trigNext = spacedPoint n p (portOf p s).trigLast gap s := by
  change (portOf p (rebasedPorts n gap s)).trigNext = _
  rw [rebasedPorts, portOf_foldl_modPort (f := rebasedPort n gap s) (fun _ _ => rfl) _ hp, if_pos hmem]
  rfl

end

/-- The state after a rebase that is due: the new point is logged unless only a delay has changed and no point is passed over. -/
def rebaseEnd (n gap : Nat) (i : Int) (s : State) : State :=
  let e := s.time.exp.getD n {}
  if !e.rebase && e.rate == schedRate n s && i == e.n then rebased n gap i s
  else raise 0 0x0E11 n (n :: loWords 2 (toField 64 i)) (rebased n gap i s)

section
variable {n gap : Nat} {i : Int} {s : State}

theorem scheduleRebase_due (hdue : rebaseDue n s = true) (hgap : gap = max (s.time.exp.getD n {}).lastPeriod (framePeriodNs n s) * 65536)
    (hi : i = spacedPoint n (cfgN F.SEAM_SRC_SRC_INDEX n s % 4) (s.time.exp.getD n {}).last gap s) :
    exec (.scheduleRebase n) s = .next (rebaseEnd n gap i s) := by
  subst hgap hi
  simp only [exec, execScheduleRebase, hdue, if_true]
  rfl

theorem scheduleRebase_cleared (hdue : rebaseDue n s = false) :
    exec (.scheduleRebase n) s = .next (modExp n (fun x => { x with rebase := false }) s) := by
  simp [exec, execScheduleRebase, hdue]

theorem rebaseEnd_cap : (rebaseEnd n gap i s).cap = (rebased n gap i s).cap := by
  rw [rebaseEnd, apply_ite State.cap, raise_cap]
  exact ite_self _

theorem rebaseEnd_time : (rebaseEnd n gap i s).time = (rebased n gap i s).time := by
  rw [rebaseEnd, apply_ite State.time, raise_time]
  exact ite_self _

theorem rebaseEnd_silent (hasked : (s.time.exp.getD n {}).rebase = false) (hrate : (s.time.exp.getD n {}).rate = schedRate n s)
    (hpoint : i = (s.time.exp.getD n {}).n) : (rebaseEnd n gap i s).log = s.log := by
  rw [rebaseEnd, if_pos (by rw [hasked, hrate, hpoint]; simp), rebased_log]

theorem rebaseEnd_logs (h : (s.time.exp.getD n {}).rebase = true ∨ (s.time.exp.getD n {}).rate ≠ schedRate n s ∨
    i ≠ (s.time.exp.getD n {}).n) : (rebaseEnd n gap i s).log.next = (raise 0 0x0E11 n [] s).log.next := by
  have hchange : ¬ (!(s.time.exp.getD n {}).rebase && (s.time.exp.getD n {}).rate == schedRate n s &&
      i == (s.time.exp.getD n {}).n) = true := by
    simp only [Bool.and_eq_true, Bool.not_eq_true', beq_iff_eq]
    rintro ⟨⟨hasked, hrate⟩, hpoint⟩
    rcases h with h | h | h
    · rw [hasked] at h
      exact absurd h (by decide)
    · exact h hrate
    · exact h hpoint
  rw [rebaseEnd, if_neg hchange]
  exact raise_log_next_congr rebased_log rebased_err ..

end

/-- Settles O40: each command's branch follows from its hypotheses; a rebase is followed through the ports it arms, and its
log entry through the number it takes. -/
theorem pipelineAndTimers : Obligations.PipelineAndTimers := by
  unfold Obligations.PipelineAndTimers
  refine ⟨?unitEnd, fun _ => unitEnd_idle, ?deadline, fun _ _ => sourceAbsent_logs, fun _ _ => sourceAbsent_logged,
    fun _ _ => leaderSilent_logs, fun n s hn => ⟨_, rfl, hostRelease_adit hn⟩, ?rebase, fun _ _ => scheduleRebase_cleared⟩
  case unitEnd =>
    intro u f s hpipe _ hframe f' v
    have hend := unitEnd_finishes hpipe hframe
    refine ⟨fun hd hlast => ?_, fun hd hmore => ?_, fun hd hall => ?_, fun hd hflight => ?_⟩
    · rw [hend, if_neg (by simp [hd]), if_pos hlast]
      rfl
    · rw [hend, if_neg (by simp [hd]), if_neg (Nat.not_le_of_lt hmore)]
      rfl
    · rw [hend, if_pos hd, if_pos hall]
      rfl
    · rw [hend, if_pos hd, if_neg hflight]
      rfl
  case deadline =>
    exact fun n f s => ⟨checkDeadline_log_of_met, fun h => ⟨checkDeadline_log_of_missed h, checkDeadline_misses h⟩⟩
  case rebase =>
    rintro n e gap i s rfl hdue hgap hi
    refine ⟨rebaseEnd n gap i s, scheduleRebase_due hdue hgap (by rw [hi]; rfl), fun hn => ?_, fun p hmem hp => ?_,
      rebaseEnd_silent, rebaseEnd_logs⟩
    · rw [rebaseEnd_time, rebased_exp hn]
      exact ⟨rfl, rfl, rfl⟩
    · have hport : portOf p (rebaseEnd n gap i s) = portOf p (rebased n gap i s) := by rw [portOf, portOf, rebaseEnd_cap]
      rw [hport]
      exact rebased_trigNext hmem hp

end Sys2Proof.Proofs

/-! PROOFS. The blocks of a compression job: how they are dealt, verified and written (R248, R249, R250, R253, R254, R257, R258). -/

namespace Sys2Proof.Proofs
open Sys2Proof Sys2Proof.Machine Sys2Proof.Laws

/-! ### BLOCK_DEAL (R253, R257) -/

/-- The state in which engine `e` codes block `i` of job `j`, whose entry of the queue becomes `rest`. -/
def blockDealt (e i : Nat) (j rest : CompJob) (s : State) : State :=
  modComp (fun c => { c with
    engines := modAt c.engines e fun x => { x with blk := some (j.id, i) }
    queue := c.queue.map fun q => if q.id = j.id then rest else q }) s

theorem blockDeal_idle {s : State} (hfree : s.comp.engines.findIdx? (fun x => !x.out && x.blk.isNone) = none) :
    exec .blockDeal s = .next s := by
  simp [exec, execBlockDeal, hfree]

section
variable {e : Nat} {j : CompJob} {s : State} (hon : compOn s = true)
  (hfree : s.comp.engines.findIdx? (fun x => !x.out && x.blk.isNone) = some e)
  (hturn : s.comp.queue.find? (fun q => !descOk q || !q.again.isEmpty || decide (q.next < jobBlocks q)) = some j)
include hon hfree hturn

theorem blockDeal_invalid (hdesc : descOk j = false) : exec .blockDeal s = .next (jobFailed 2 j s) := by
  simp [exec, execBlockDeal, hon, hfree, hturn, hdesc]

theorem blockDeal_next (hdesc : descOk j = true) (hagain : j.again = []) :
    exec .blockDeal s = .next (blockDealt e j.next j { j with next := j.next + 1 } s) := by
  simp [exec, execBlockDeal, hon, hfree, hturn, hdesc, hagain, blockDealt]

theorem blockDeal_again {i : Nat} {l : List Nat} (hdesc : descOk j = true) (hagain : j.again = i :: l) :
    exec .blockDeal s = .next (blockDealt e i j { j with again := l } s) := by
  simp [exec, execBlockDeal, hon, hfree, hturn, hdesc, hagain, blockDealt]

end

/-! ### The verifier (R248, R249) -/

section
variable {i : BlkInfo} {blk : Plane} {faults : List (List Nat)}

theorem verdict_of_coded (h : verifyBlock i blk (flipBits (faults.getD 0 []) (encodeBlock i blk)) = true) :
    verdict i blk faults = (.match_, flipBits (faults.getD 0 []) (encodeBlock i blk)) :=
  if_pos h

/-- Each branch of a verdict that emits anything has verified the very bytes it emits. -/
theorem verifyBlock_verdict (h : (verdict i blk faults).1 ≠ .rawMismatchTwice) :
    verifyBlock i blk (verdict i blk faults).2 = true := by
  revert h
  unfold verdict
  extract_lets long first raw
  by_cases hfirst : verifyBlock i blk first = true
  · rw [if_pos hfirst]
    exact fun _ => hfirst
  rw [if_neg hfirst]
  by_cases hraw : verifyBlock i blk (raw 1) = true
  · rw [if_pos hraw]
    exact fun _ => hraw
  rw [if_neg hraw]
  by_cases hretry : (!long && verifyBlock i blk (raw 2)) = true
  · rw [if_pos hretry]
    exact fun _ => (Bool.and_eq_true_iff.mp hretry).2
  · rw [if_neg hretry]
    exact fun h => absurd rfl h

end

/-! ### An engine out of service (R250) -/

/-- Whether no engine but `e` is in service. -/
def lastEngine (e : Nat) (s : State) : Bool := s.comp.engines.zipIdx.all fun x => x.2 == e || x.1.out

theorem lastEngine_iff {e : Nat} {s : State} :
    lastEngine e s = true ↔ ∀ k, k ≠ e → k < s.comp.engines.length → (s.comp.engines.getD k {}).out = true := by
  simp only [lastEngine, List.all_eq_true, Bool.or_eq_true, beq_iff_eq, Prod.forall, List.mk_mem_zipIdx_iff_getElem?,
    List.getElem?_eq_some_iff, List.getD_eq_getElem?_getD]
  constructor
  · intro h k hne hlt
    simpa [hlt] using (h _ k ⟨hlt, rfl⟩).resolve_left hne
  · rintro h x k ⟨hlt, rfl⟩
    exact or_iff_not_imp_left.mpr fun hne => by simpa [hlt] using h k hne hlt

/-- The state in which engine `e` is out of service and its block `i` of job `id` is to be coded again. -/
def engineRetired (e id i : Nat) (s : State) : State :=
  modComp (fun c => { c with
    engines := modAt c.engines e fun _ => { out := true, blk := none }
    queue := c.queue.map fun q => if q.id = id then { q with again := q.again ++ [i] } else q }) s

theorem engineRetired_engine {e id i : Nat} {s : State} (he : e < s.comp.engines.length) :
    (engineRetired e id i s).comp.engines.getD e {} = { out := true, blk := none } :=
  getD_modAt _ _ _ _ he

theorem engineRetired_spare {e id i k : Nat} {s : State} (hne : k ≠ e) :
    (engineRetired e id i s).comp.engines.getD k {} = s.comp.engines.getD k {} := by
  simp [engineRetired, modAt, List.getD_eq_getElem?_getD, hne.symm]

theorem engineOut_of_spare {e id i k : Nat} {s : State} (hblk : (s.comp.engines.getD e {}).blk = some (id, i)) (hne : k ≠ e)
    (hk : k < s.comp.engines.length) (hspare : (s.comp.engines.getD k {}).out = false) :
    engineOut e s = engineRetired e id i s := by
  have hlen : k < (engineRetired e id i s).comp.engines.length := by simpa [engineRetired] using hk
  have hany : ((engineRetired e id i s).comp.engines.all fun x => x.out) = false := by
    refine List.all_eq_false.mpr ⟨_, List.getElem_mem hlen, ?_⟩
    rw [← List.getD_eq_getElem _ {} hlen, engineRetired_spare hne, hspare]
    exact Bool.false_ne_true
  simp only [engineOut, hblk]
  exact if_neg (by simpa [engineRetired] using hany)

/-! ### BLOCK_DONE (R248, R249, R250) -/

/-- The state with the mismatch of a coded block logged; a block that is in raw-copy for its size (`long`) had no coded form to
fail (R249). -/
def mismatchLogged (long : Bool) (e : Nat) (s : State) : State := if long then s else raise 1 0x0702 e [] s

@[simp] theorem mismatchLogged_comp (long : Bool) (e : Nat) (s : State) : (mismatchLogged long e s).comp = s.comp := by
  rw [mismatchLogged, apply_ite State.comp, raise_comp, ite_self]

theorem blockDone_idle {e : Nat} {faults : List (List Nat)} {s : State} (hblk : (s.comp.engines.getD e {}).blk = none) :
    exec (.blockDone e faults) s = .next s := by
  simp only [exec, execBlockDone, hblk]

section
variable {e i : Nat} {j : CompJob} {faults : List (List Nat)} {v : VerifyResult × List Byte} {long : Bool} {s : State}
  (hblk : (s.comp.engines.getD e {}).blk = some (j.id, i)) (hjob : s.comp.queue.find? (fun q => q.id == j.id) = some j)
  (hv : v = verdict (jobInfo j i) (blockOf (planeW j.plane) j.plane.length j.plane i) faults)
include hblk hjob hv

theorem blockDone_match (hlong : long = tooLong (jobInfo j i) (blockOf (planeW j.plane) j.plane.length j.plane i))
    (hmatch : v.1 = .match_) :
    exec (.blockDone e faults) s = .next (blockReady j.id i v.2 long false
      (modComp (fun c => { c with engines := modAt c.engines e fun x => { x with blk := none } }) s)) := by
  simp only [exec, execBlockDone, hblk, modComp_comp, hjob, ← hv, ← hlong, hmatch]

theorem blockDone_mismatch (hmis : v.1 = .codedMismatch) :
    exec (.blockDone e faults) s = .next (blockReady j.id i v.2 false true (raise 1 0x0702 e []
      (modComp (fun c => { c with engines := modAt c.engines e fun x => { x with blk := none } }) s))) := by
  simp only [exec, execBlockDone, hblk, modComp_comp, hjob, ← hv, hmis]

theorem blockDone_gives_up (hlong : long = tooLong (jobInfo j i) (blockOf (planeW j.plane) j.plane.length j.plane i))
    (htwice : v.1 = .rawMismatchTwice) :
    exec (.blockDone e faults) s =
      .next (engineOut e (raise (if lastEngine e s then 2 else 1) 0x0703 e [] (mismatchLogged long e s))) := by
  simp only [exec, execBlockDone, hblk, modComp_comp, hjob, ← hv, ← hlong, htwice]
  rfl

end

/-! ### The output stage (R254, R258) -/

/-- The state in which `b` has been written as the next block of job `j`, queued under `id`. -/
def blockWritten (id : Nat) (j : CompJob) (b : List Byte) (s : State) : State :=
  modComp (fun c => { c with
    emitted := wrapInc 64 c.emitted
    queue := c.queue.map fun q => if q.id = id then { j with
      writes := j.writes + 1, output := j.output ++ b, lens := j.lens ++ [b.length]
      ready := j.ready.filter fun r => r.1 != j.writes
      rawSize := j.rawSize + b2n (rawCopy false b), rawMis := j.rawMis + b2n (rawCopy true b) } else q }) s

section
variable {n id : Nat} {j : CompJob} {b : List Byte} {s : State}
  (hjob : s.comp.queue.find? (fun q => q.id == id) = some j) (hleft : j.writes ≠ jobBlocks j)
include hjob hleft

theorem writeReady_waits (hnext : j.ready.lookup j.writes = none) : writeReady (n + 1) id s = s := by
  simp only [writeReady, hjob, if_neg hleft, hnext]

theorem writeReady_stops (hnext : j.ready.lookup j.writes = some b) (hfull : j.space < j.output.length + b.length) :
    writeReady (n + 1) id s = jobStopped j s := by
  simp only [writeReady, hjob, if_neg hleft, hnext, if_pos hfull]

theorem writeReady_writes (hnext : j.ready.lookup j.writes = some b) (hfits : j.output.length + b.length ≤ j.space) :
    writeReady (n + 1) id s = writeReady n id (blockWritten id j b s) := by
  simp only [writeReady, hjob, if_neg hleft, hnext, if_neg (Nat.not_lt.mpr hfits), blockWritten]

end

/-- Settles O42: the hypotheses of each clause fix the branch its command takes, and no branch of a verdict emits bytes that
it has not verified. -/
theorem compressorBlocks : Obligations.CompressorBlocks := by
  unfold Obligations.CompressorBlocks
  refine ⟨fun e j s hon hfree hturn => ⟨blockDeal_next hon hfree hturn, fun _ _ => blockDeal_again hon hfree hturn,
      blockDeal_invalid hon hfree hturn⟩,
    fun _ => blockDeal_idle, fun _ _ _ => ⟨verifyBlock_verdict, verdict_of_coded⟩, ?blockDone, fun _ _ _ => blockDone_idle,
    fun _ _ _ _ hjob hleft => ⟨writeReady_waits hjob hleft, fun _ hnext => ⟨writeReady_stops hjob hleft hnext,
      writeReady_writes hjob hleft hnext⟩⟩⟩
  case blockDone =>
    intro e i j faults v long s hblk hjob hv hlong t
    refine ⟨blockDone_match hblk hjob hv hlong, blockDone_mismatch hblk hjob hv, ?spare, ?last⟩
    case spare =>
      rintro htwice he ⟨k, hne, hk, hspare⟩
      have hlast : lastEngine e s = false := by
        refine Bool.eq_false_iff.mpr fun h => ?_
        rw [lastEngine_iff.mp h k hne hk] at hspare
        exact Bool.noConfusion hspare
      refine ⟨engineRetired e j.id i (raise 1 0x0703 e [] (mismatchLogged long e s)), ?_, ?_, ?_, ?_, rfl⟩
      · rw [blockDone_gives_up hblk hjob hv hlong htwice, hlast, if_neg Bool.false_ne_true,
          engineOut_of_spare (by simpa using hblk) hne (by simpa using hk) (by simpa using hspare)]
      · rw [engineRetired_engine (by simpa using he)]
      · rw [engineRetired_engine (by simpa using he)]
      · simp [engineRetired]
    case last =>
      intro htwice hall
      rw [blockDone_gives_up hblk hjob hv hlong htwice, lastEngine_iff.mpr hall]
      rfl

end Sys2Proof.Proofs

/-! PROOFS. The codec's streams after a change of one, and the codec's messages: bitstream read and write, forced IDR and
decoder flush (R285, R301, R313). -/

namespace Sys2Proof.Proofs
open Sys2Proof Sys2Proof.Machine Sys2Proof.Laws

/-! ### A stream after a change -/

section
variable {β : Type} {m : Nat} {s : State}

theorem encOf_modEnc (hm : m < s.codec.enc.length) (f : EncStream → EncStream) : encOf m (modEnc m f s) = f (encOf m s) :=
  getD_modAt _ _ _ _ hm

theorem decOf_modDec (hm : m < s.codec.dec.length) (f : DecStream → DecStream) : decOf m (modDec m f s) = f (decOf m s) :=
  getD_modAt _ _ _ _ hm

/-- What a change of a stream leaves of it, it leaves also of one that does not exist. -/
theorem encOf_modEnc_proj {g : EncStream → β} {f : EncStream → EncStream} (h : ∀ x, g (f x) = g x) (k : Nat) (s : State) :
    g (encOf m (modEnc k f s)) = g (encOf m s) := getD_modAt_proj h _ _ _ _

@[simp] theorem modEnc_enc_length (k : Nat) (f : EncStream → EncStream) (s : State) :
    (modEnc k f s).codec.enc.length = s.codec.enc.length := modAt_length ..

@[simp] theorem modDec_dec_length (k : Nat) (f : DecStream → DecStream) (s : State) :
    (modDec k f s).codec.dec.length = s.codec.dec.length := modAt_length ..

@[simp] theorem encOf_raise (sev code inst : Nat) (ds : List Nat) (s : State) : encOf m (raise sev code inst ds s) = encOf m s := by
  rw [encOf, encOf, raise_codec]

@[simp] theorem decOf_raise (sev code inst : Nat) (ds : List Nat) (s : State) : decOf m (raise sev code inst ds s) = decOf m s := by
  rw [decOf, decOf, raise_codec]

end

/-! ### The decoder and playback leave the mailboxes -/

@[simp] theorem modEnc_mbx (m : Nat) (f : EncStream → EncStream) (s : State) : (modEnc m f s).mbx = s.mbx := rfl
@[simp] theorem modDec_mbx (m : Nat) (f : DecStream → DecStream) (s : State) : (modDec m f s).mbx = s.mbx := rfl
@[simp] theorem modPlay_mbx (m : Nat) (f : Playback → Playback) (s : State) : (modPlay m f s).mbx = s.mbx := rfl
@[simp] theorem skipAu_mbx (m : Nat) (s : State) : (skipAu m s).mbx = s.mbx := rfl

@[simp] theorem sendSsd_mbx (port queue : Nat) (op : SsdOp) (s : State) : (sendSsd port queue op s).mbx = s.mbx := by
  unfold sendSsd
  split <;> rfl

@[simp] theorem askPieces_mbx (m : Nat) (l : List (Nat × Nat × Nat × Nat)) (s : State) : (askPieces m l s).mbx = s.mbx := by
  induction l generalizing s with
  | nil => rfl
  | cons p l ih =>
    rw [askPieces, ih]
    split <;> simp

@[simp] theorem playPump_mbx (m : Nat) (s : State) : (playPump m s).mbx = s.mbx := by
  unfold playPump
  dsimp only
  split
  · rfl
  · rw [askPieces_mbx, modPlay_mbx]
    split
    · rfl
    · split <;> rfl

@[simp] theorem beginDecode_mbx (m : Nat) (l : List Byte) (s : State) : (beginDecode m l s).mbx = s.mbx := by
  unfold beginDecode
  extract_lets ns x0 u x
  have hu : u.mbx = s.mbx := by simp [u]
  split
  · exact hu
  · extract_lets ty irap fresh sps
    split
    · exact hu
    · split
      · exact hu
      · clear_value sps
        cases sps with
        | none => exact hu
        | some q =>
          dsimp only
          split
          · split
            · exact (raise_mbx ..).trans hu
            · exact hu
          · exact hu

@[simp] theorem tryDecodes_mbx (m n : Nat) (s : State) : (tryDecodes m n s).mbx = s.mbx := by
  induction n generalizing s with
  | zero => rfl
  | succ n ih =>
    rw [tryDecodes]
    split
    · split
      · rw [ih, beginDecode_mbx]
      · rfl
    · rfl

@[simp] theorem feedDecoder_mbx (m : Nat) (l : List Byte) (last : Bool) (s : State) : (feedDecoder m l last s).mbx = s.mbx := by
  unfold feedDecoder tryDecode
  dsimp only
  split <;> simp

/-! ### The rows of the codec's messages (R696) -/

section
variable {m : Nat}

theorem msgDef_bitstreamRead (hm : m < 8) : msgDef (0x0808 + m) = some (bitstreamReadMsg m) := by interval_cases m <;> rfl

theorem msgDef_bitstreamWrite (hm : m < 8) : msgDef (0x0810 + m) = some (bitstreamWriteMsg m) := by interval_cases m <;> rfl

theorem msgDef_forceIdr (hm : m < 8) : msgDef (0x0818 + m) = some (forceIdrMsg m) := by interval_cases m <;> rfl

theorem msgDef_decoderFlush (hm : m < 8) : msgDef (0x0820 + m) = some (decoderFlushMsg m) := by interval_cases m <;> rfl

end

/-- A request that passes R809's checks and that its action accepts under a condition, else refuses with class 7 (R313). -/
theorem runRow_accepts_if {q : Prop} [Decidable q] {mine : Req → Bool} {c k tag : Nat} {p : Path} {args : List Word} {ws : List Nat}
    {s u : State} {d : MsgDef} (ha : AtFront c p k tag args s) (hk : k < 65536) (hn : args.length < 15)
    (hd : msgDef k = some d) (hm : mine (request1 c p k tag args) = true) (hans : d.answered = true)
    (hrun : runReq (some d) (request1 c p k tag args) none (popMsg c s) = d.act (request1 c p k tag args) false (popMsg c s))
    (hact : d.act (request1 c p k tag args) false (popMsg c s) =
      if q then (.accept ws, u) else (.refuse 7 0 0, popMsg c s)) (hu : u.mbx = (popMsg c s).mbx) :
    (q → runRow mine c s = .next (replied (request1 c p k tag args) ws u)) ∧
      (¬ q → runRow mine c s = .next (refused (request1 c p k tag args) 7 0 0 (popMsg c s))) := by
  have hdef : ((some d).map (·.answered)).getD true = true := hans
  constructor
  · intro hq
    rw [runRow_of_runReq ha hk hn hd hm (hrun.trans (hact.trans (if_pos hq))) hu, answer_accept hdef]
  · intro hq
    rw [runRow_of_runReq ha hk hn hd hm (hrun.trans (hact.trans (if_neg hq))) rfl, answer_refuse hdef _ (by decide)]

/-! ### BITSTREAM_READ (R301, R313) -/

section
variable {m c tag : Nat} {p : Path} {w : Word} {s : State}

/-- The bytes of an encoder's ring from the host's reading position on, at most `n`. -/
def unreadBytes (m n : Nat) (s : State) : List Byte := ((encOf m s).ring.drop ((encOf m s).hostPos - (encOf m s).base)).take n

/-- The host has read bytes of an encoder's ring into the window. -/
def hostRead (m : Nat) (l : List Byte) (s : State) : State :=
  modEnc m (fun y => { y with hostPos := y.hostPos + l.length }) (writeBulk 0 l s)

theorem unreadBytes_end (n : Nat) (h : (encOf m s).base ≤ (encOf m s).hostPos)
    (hend : (encOf m s).hostPos ≤ (encOf m s).base + (encOf m s).ring.length) :
    (encOf m s).hostPos + (unreadBytes m n s).length ≤ (encOf m s).base + (encOf m s).ring.length := by
  rw [unreadBytes, List.length_take, List.length_drop]
  omega

theorem hostRead_enc_length (l : List Byte) : (hostRead m l s).codec.enc.length = s.codec.enc.length := modAt_length ..

theorem encOf_hostRead (hm : m < s.codec.enc.length) (l : List Byte) :
    encOf m (hostRead m l s) = { encOf m s with hostPos := (encOf m s).hostPos + l.length } :=
  encOf_modEnc (s := writeBulk 0 l s) hm _

/-- With no record stream at a ring, it is read up to the host's position. -/
theorem ringRead_of_host (hhost : cfgB F.CODEC_STRM_HOST_READ m s = true) (hrec : recFor 1 m s = none)
    (h : (encOf m s).base ≤ (encOf m s).hostPos) (hend : (encOf m s).hostPos ≤ (encOf m s).base + (encOf m s).ring.length) :
    ringRead m s = (encOf m s).hostPos := by
  simp [ringRead, hhost, hrec, h, hend]

theorem encOf_trimRing (hm : m < s.codec.enc.length) : encOf m (trimRing m s) = { encOf m s with
    ring := (encOf m s).ring.drop (ringRead m s - (encOf m s).base), base := ringRead m s
    starts := (encOf m s).starts.filter fun a => decide (ringRead m s ≤ a.1) } := encOf_modEnc hm _

theorem bitstreamRead_copies {k : Nat} (hold : holdsBulk p s = true) (hon : encOn m s = true)
    (hhost : cfgB F.CODEC_STRM_HOST_READ m s = true) :
    ∃ num, (bitstreamReadMsg m).act (request1 c p k tag [w]) false s =
      (.accept ([(unreadBytes m w.toNat s).length] ++ loWords 2 num),
        trimRing m (hostRead m (unreadBytes m w.toNat s) s)) := by
  have hpath : (request1 c p k tag [w]).path = p := rfl
  have hw : (request1 c p k tag [w]).w 1 = w.toNat := rfl
  simp only [bitstreamReadMsg, hpath, hw, hold, hon, hhost]
  exact ⟨_, rfl⟩

theorem bitstreamRead_answers (hm : m < 8) (hc : c < 14) (ha : AtFront c p (0x0808 + m) tag [w] s) (hs : Started s)
    (hb : hasBlk .codec s = true) (hlen : w.toNat ≤ 0x100000) (hold : holdsBulk p s = true) (hon : encOn m s = true)
    (hhost : cfgB F.CODEC_STRM_HOST_READ m s = true) :
    ∃ num, exec (.bitstreamRead c) s = .next (replied (request1 c p (0x0808 + m) tag [w])
      ([(unreadBytes m w.toNat s).length] ++ loWords 2 num)
      (trimRing m (hostRead m (unreadBytes m w.toNat s) (popMsg c s)))) := by
  obtain ⟨num, hact⟩ := bitstreamRead_copies (c := c) (tag := tag) (w := w) (k := 0x0808 + m) (s := popMsg c s) hold hon hhost
  have hbad : (bitstreamReadMsg m).bad (request1 c p (0x0808 + m) tag [w]) (popMsg c s) = false :=
    decide_eq_false (not_lt_of_ge hlen)
  exact ⟨num, runRow_started ha (by omega) (by simp) (msgDef_bitstreamRead hm) (routed_of_lt hc (by omega)) hs hb rfl
    (reservedSet_mask (and_full w)) hbad rfl rfl rfl (.inl PrivRule.noConfusion) hact rfl rfl _
    (inFamily_front ha (by omega) (by simp) (by omega))⟩

end

/-! ### BITSTREAM_WRITE (R313) -/

section
variable {m c tag : Nat} {p : Path} {w l : Word} {s : State}

/-- The ring's room is the last that the action looks at (R313). -/
theorem bitstreamWrite_act {k : Nat} (hl : l.toNat < 2) (hold : holdsBulk p s = true) (hon : decOn m s = true)
    (hsrc : cfgB F.CODEC_PIC_DEC_SRC m s = false) :
    (bitstreamWriteMsg m).act (request1 c p k tag [w, l]) false s =
      if (decOf m s).input.length + w.toNat ≤ cfgN F.CODEC_STRM_RING_BYTES m s then
        (.accept [cfgN F.CODEC_STRM_RING_BYTES m s -
            (decOf m (feedDecoder m (readBulk 0 w.toNat s) (l.toNat == 1) s)).input.length],
          feedDecoder m (readBulk 0 w.toNat s) (l.toNat == 1) s)
      else (.refuse 7 0 0, s) := by
  have hpath : (request1 c p k tag [w, l]).path = p := rfl
  have hw : (request1 c p k tag [w, l]).w 1 = w.toNat := rfl
  have hlast : (request1 c p k tag [w, l]).w 2 % 2 = l.toNat := Nat.mod_eq_of_lt hl
  simp only [bitstreamWriteMsg, hpath, hw, hlast, hold, hon, hsrc, ← Nat.not_le, ite_not]
  rfl

theorem bitstreamWrite_outcome (hm : m < 8) (hc : c < 14) (ha : AtFront c p (0x0810 + m) tag [w, l] s) (hs : Started s)
    (hb : hasBlk .codec s = true) (hlen : w.toNat ≤ 0x100000) (hl : l.toNat < 2) (hold : holdsBulk p s = true)
    (hon : decOn m s = true) (hsrc : cfgB F.CODEC_PIC_DEC_SRC m s = false) :
    ((decOf m s).input.length + w.toNat ≤ cfgN F.CODEC_STRM_RING_BYTES m s →
      exec (.bitstreamWrite c) s = .next (replied (request1 c p (0x0810 + m) tag [w, l])
        [cfgN F.CODEC_STRM_RING_BYTES m s -
          (decOf m (feedDecoder m (readBulk 0 w.toNat s) (l.toNat == 1) (popMsg c s))).input.length]
        (feedDecoder m (readBulk 0 w.toNat s) (l.toNat == 1) (popMsg c s)))) ∧
    (¬ (decOf m s).input.length + w.toNat ≤ cfgN F.CODEC_STRM_RING_BYTES m s →
      exec (.bitstreamWrite c) s = .next (refused (request1 c p (0x0810 + m) tag [w, l]) 7 0 0 (popMsg c s))) := by
  have hres : reservedSet (bitstreamWriteMsg m).masks [w, l] = false := by
    simpa [bitstreamWriteMsg, reservedSet, and_full] using Nat.le_of_lt_succ hl
  have hbad : (bitstreamWriteMsg m).bad (request1 c p (0x0810 + m) tag [w, l]) (popMsg c s) = false :=
    decide_eq_false (not_lt_of_ge hlen)
  exact runRow_accepts_if ha (by omega) (by simp) (msgDef_bitstreamWrite hm) (inFamily_front ha (by omega) (by simp) (by omega)) rfl
    (runReq_started ha hc (by omega) (by omega) (by simp) hs hb rfl hres hbad rfl rfl rfl PrivRule.noConfusion)
    (bitstreamWrite_act (s := popMsg c s) hl hold hon hsrc) (feedDecoder_mbx ..)

end

/-! ### FORCE_IDR (R285) and DECODER_FLUSH (R313) -/

section
variable {m c tag : Nat} {p : Path} {s : State}

theorem forceIdr_act (r : Req) (tok : Bool) (s : State) : (forceIdrMsg m).act r tok s =
    if encOn m s = true then (.accept [(encOf m s).coded % 2 ^ 32 + b2n (encOf m s).pic.isSome],
      modEnc m (fun x => { x with forceIdr := true }) s) else (.refuse 7 0 0, s) := by
  cases h : encOn m s <;> simp [forceIdrMsg, h]

theorem decoderFlush_act (r : Req) (tok : Bool) (s : State) : (decoderFlushMsg m).act r tok s =
    if decOn m s = true then (.accept [], flushDecoder m s) else (.refuse 7 0 0, s) := by
  cases h : decOn m s <;> simp [decoderFlushMsg, h]

variable (hm : m < 8) (hc : c < 14) (hs : Started s) (hb : hasBlk .codec s = true)
include hm hc hs hb

theorem forceIdr_outcome (ha : AtFront c p (0x0818 + m) tag [] s) :
    (encOn m s = true → exec (.forceIdr c) s = .next (replied (request1 c p (0x0818 + m) tag [])
      [(encOf m s).coded % 2 ^ 32 + b2n (encOf m s).pic.isSome] (modEnc m (fun x => { x with forceIdr := true }) (popMsg c s)))) ∧
    (¬ encOn m s = true → exec (.forceIdr c) s = .next (refused (request1 c p (0x0818 + m) tag []) 7 0 0 (popMsg c s))) :=
  runRow_accepts_if ha (by omega) (by simp) (msgDef_forceIdr hm) (inFamily_front ha (by omega) (by simp) (by omega)) rfl
    (runReq_started ha hc (by omega) (by omega) (by simp) hs hb rfl rfl rfl rfl rfl rfl PrivRule.noConfusion)
    (forceIdr_act _ _ (popMsg c s)) rfl

theorem decoderFlush_outcome (ha : AtFront c p (0x0820 + m) tag [] s) :
    (decOn m s = true → exec (.decoderFlush c) s =
      .next (replied (request1 c p (0x0820 + m) tag []) [] (flushDecoder m (popMsg c s)))) ∧
    (¬ decOn m s = true → exec (.decoderFlush c) s =
      .next (refused (request1 c p (0x0820 + m) tag []) 7 0 0 (popMsg c s))) :=
  runRow_accepts_if ha (by omega) (by simp) (msgDef_decoderFlush hm) (inFamily_front ha (by omega) (by simp) (by omega)) rfl
    (runReq_started ha hc (by omega) (by omega) (by simp) hs hb rfl rfl rfl rfl rfl rfl PrivRule.noConfusion)
    (decoderFlush_act _ _ (popMsg c s)) rfl

end

/-- Settles O30: each request passes R809's checks; its action looks at the stream and the ring, and what it leaves of them
is the change of one stream. -/
theorem codecMessages : Obligations.CodecMessages := by
  unfold Obligations.CodecMessages
  refine ⟨?read, ?write, ?idr, ?flush⟩
  case read =>
    intro m c tag w p s hm hc ha hs hb hlen hold hon hhost henc
    obtain ⟨num, hexec⟩ := bitstreamRead_answers hm hc ha hs hb hlen hold hon hhost
    have hread := encOf_hostRead (s := popMsg c s) henc (unreadBytes m w.toNat s)
    have htrim := encOf_trimRing (s := hostRead m (unreadBytes m w.toNat s) (popMsg c s)) (m := m)
      ((hostRead_enc_length _).symm ▸ henc)
    refine ⟨unreadBytes m w.toNat s, _, _, rfl, rfl, rfl, hexec, ?position, rfl, ?freed⟩
    case position =>
      rw [htrim, hread]
      rfl
    case freed =>
      intro hrec hbase hend
      have hlast := unreadBytes_end w.toNat hbase hend
      have hupto : ringRead m (hostRead m (unreadBytes m w.toNat s) (popMsg c s)) =
          (encOf m s).hostPos + (unreadBytes m w.toNat s).length := by
        rw [ringRead_of_host (s := hostRead m (unreadBytes m w.toNat s) (popMsg c s)) hhost hrec, hread]
        · rfl
        · rw [hread]
          exact hbase.trans (Nat.le_add_right _ _)
        · rw [hread]
          exact hlast
      rw [htrim, hupto, hread]
      exact ⟨rfl, rfl⟩
  case write =>
    intro m c tag w l p s hm hc ha hs hb hlen hl hold hon hsrc
    obtain ⟨haccept, hrefuse⟩ := bitstreamWrite_outcome hm hc ha hs hb hlen hl hold hon hsrc
    exact ⟨fun hfull => hrefuse (not_le_of_gt hfull), haccept⟩
  case idr =>
    intro m c tag p s hm hc ha hs hb
    obtain ⟨haccept, hrefuse⟩ := forceIdr_outcome hm hc hs hb ha
    exact ⟨haccept, fun hoff => hrefuse (by simp [hoff])⟩
  case flush =>
    intro m c tag p s hm hc ha hs hb
    obtain ⟨haccept, hrefuse⟩ := decoderFlush_outcome hm hc hs hb ha
    exact ⟨haccept, fun hoff => hrefuse (by simp [hoff])⟩

end Sys2Proof.Proofs

/-! PROOFS. The codec's work: pictures begun by an encoder, the units of the two engines, access units begun by a decoder and
pictures it outputs (R273, R275, R276, R278, R282, R290, R301, R303, R307, R311). -/

namespace Sys2Proof.Proofs
open Sys2Proof Sys2Proof.Machine Sys2Proof.Laws

/-! ### The input of an encoder (R282) -/

section
variable {β : Type}

/-- What a change of an encoder's source leaves of either kind of source. -/
theorem modEncSource_proj {g : State → β} (hdec : ∀ k f t, g (modDec k f t) = g t) (hcap : ∀ f t, g (modCap f t) = g t)
    (m : Nat) (f : OutRing → OutRing) (s : State) : g (modEncSource m f s) = g s := by
  unfold modEncSource
  dsimp only
  split
  · exact hdec ..
  · exact hcap ..

@[simp] theorem encOf_modEncSource (k m : Nat) (f : OutRing → OutRing) (s : State) : encOf m (modEncSource k f s) = encOf m s :=
  modEncSource_proj (fun _ _ _ => rfl) (fun _ _ => rfl) k f s

@[simp] theorem modEncSource_log (m : Nat) (f : OutRing → OutRing) (s : State) : (modEncSource m f s).log = s.log :=
  modEncSource_proj (fun _ _ _ => rfl) (fun _ _ => rfl) m f s

@[simp] theorem modEncSource_err (m : Nat) (f : OutRing → OutRing) (s : State) : (modEncSource m f s).err = s.err :=
  modEncSource_proj (fun _ _ _ => rfl) (fun _ _ => rfl) m f s

@[simp] theorem modEncSource_encFifo (m : Nat) (f : OutRing → OutRing) (s : State) :
    (modEncSource m f s).codec.encFifo = s.codec.encFifo :=
  modEncSource_proj (g := fun t => t.codec.encFifo) (fun _ _ _ => rfl) (fun _ _ => rfl) m f s

/-- An encoder that looks at its source notes what it has seen and may hold an input; nothing else of the streams changes. -/
theorem takeInput_proj {g : State → β} {m : Nat} (hsource : ∀ f t, g (modEncSource m f t) = g t)
    (hseen : ∀ k b t, g (modEnc m (fun y => { y with seen := k, stale := if b = true then wrapInc 32 y.stale else y.stale }) t) = g t)
    (hinput : ∀ pic t, g (modEnc m (fun y => { y with input := some pic }) t) = g t) (s : State) :
    g (takeInput m s) = g s := by
  have hfuel : ∀ n t, g (takeInputs m n t) = g t := by
    intro n
    induction n with
    | zero => exact fun _ => rfl
    | succ n ih =>
      intro t
      rw [takeInputs]
      dsimp only
      split
      · rfl
      · split
        · rfl
        · split
          · rw [hinput, hsource, hseen]
          · rw [ih, hseen]
  exact hfuel _ s

/-- A field of a stream beside its input, the newest buffer seen and the count of stale ones. -/
theorem encOf_takeInput_proj {g : EncStream → β} (hseen : ∀ x k n, g { x with seen := k, stale := n } = g x)
    (hinput : ∀ x pic, g { x with input := some pic } = g x) (m : Nat) (s : State) :
    g (encOf m (takeInput m s)) = g (encOf m s) :=
  takeInput_proj (g := fun t => g (encOf m t)) (fun _ _ => congrArg g (encOf_modEncSource ..))
    (fun _ _ t => encOf_modEnc_proj (fun _ => hseen ..) m t) (fun _ t => encOf_modEnc_proj (fun _ => hinput ..) m t) s

@[simp] theorem takeInput_log (m : Nat) (s : State) : (takeInput m s).log = s.log :=
  takeInput_proj (g := State.log) (modEncSource_log m) (fun _ _ _ => rfl) (fun _ _ => rfl) s

@[simp] theorem takeInput_encFifo (m : Nat) (s : State) : (takeInput m s).codec.encFifo = s.codec.encFifo :=
  takeInput_proj (g := fun t => t.codec.encFifo) (modEncSource_encFifo m) (fun _ _ _ => rfl) (fun _ _ => rfl) s

end

/-! ### ENCODE_PICTURE_BEGIN (R290, R301) -/

section
variable {m : Nat} {s : State}

/-- Before a picture begins, an encoder may take a standby's rate state, and bytes leave its ring (R301, R570). -/
def prepared (m : Nat) (s : State) : State := trimRing m (loadRate m s)

theorem prepared_proj {β : Type} {g : State → β}
    (h : ∀ f : EncStream → EncStream, (∀ x, (f x).pic = x.pic ∧ (f x).notCoded = x.notCoded) → ∀ t, g (modEnc m f t) = g t)
    (s : State) : g (prepared m s) = g s := by
  have hrate : g (loadRate m s) = g s := by
    unfold loadRate
    split
    · split
      · refine h _ ?_ s
        exact fun _ => ⟨rfl, rfl⟩
      · rfl
    · rfl
  refine Eq.trans (h _ ?_ (loadRate m s)) hrate
  exact fun _ => ⟨rfl, rfl⟩

theorem prepared_cfg : (prepared m s).cfg = s.cfg := prepared_proj (g := State.cfg) (fun _ _ _ => rfl) s

theorem prepared_log : (prepared m s).log = s.log := prepared_proj (g := State.log) (fun _ _ _ => rfl) s

theorem prepared_err : (prepared m s).err = s.err := prepared_proj (g := State.err) (fun _ _ _ => rfl) s

theorem prepared_enc_length : (prepared m s).codec.enc.length = s.codec.enc.length :=
  prepared_proj (g := fun t => t.codec.enc.length) (fun f _ t => modEnc_enc_length m f t) s

theorem prepared_pic : (encOf m (prepared m s)).pic = (encOf m s).pic :=
  prepared_proj (g := fun t => (encOf m t).pic) (fun _ hf => encOf_modEnc_proj (fun x => (hf x).left) m) s

theorem prepared_notCoded : (encOf m (prepared m s)).notCoded = (encOf m s).notCoded :=
  prepared_proj (g := fun t => (encOf m t).notCoded) (fun _ hf => encOf_modEnc_proj (fun x => (hf x).right) m) s

/-- F of a picture published at `pub` (R290). -/
def fullness (m pub : Nat) (s : State) : Nat :=
  match (encOf m s).lastIn with
  | none => cfgN F.CODEC_RC_CPB_BITS m s
  | some t => min (cfgN F.CODEC_RC_CPB_BITS m s) ((encOf m s).f + cfgN F.CODEC_STRM_MAX_BPS m s * (pub - t) / 1000000000)

/-- The cap of a picture published at `pub` (R290). -/
def pictureCap (m pub : Nat) (s : State) : Nat := min (8 * cfgN F.CODEC_RC_PIC_CAP_BYTES m s) (fullness m pub s)

/-- A stream whose input is not coded (R301). -/
def inputSkipped (f pub : Nat) (y : EncStream) : EncStream :=
  { y with input := none, notCoded := wrapInc 32 y.notCoded, skipped := true, f := f, fk := some f, lastIn := some pub }

/-- A picture not coded lets go of its buffer and is logged (R282, R301). -/
def skipPicture (m f pub : Nat) (s : State) : State :=
  raise 2 (0x0850 + m) m [] (modEncSource m (holdOut (.codec m) none) (modEnc m (inputSkipped f pub) s))

theorem encOf_skipPicture (hm : m < s.codec.enc.length) (f pub : Nat) :
    encOf m (skipPicture m f pub s) = inputSkipped f pub (encOf m s) := by
  rw [skipPicture, encOf_raise, encOf_modEncSource, encOf_modEnc hm]

theorem skipPicture_log_next (f pub : Nat) :
    (skipPicture m f pub s).log.next = (raise 2 (0x0850 + m) m [] s).log.next :=
  raise_log_next_congr (s := s) (modEncSource_log m _ (modEnc m (inputSkipped f pub) s)) (modEncSource_err m _ _) ..

theorem encodePictureBegin_idle (h : encOn m s = false ∨ (encOf m s).pic.isSome = true ∨ (encOf m s).input = none) :
    exec (.encodePictureBegin m) s = .next s := by
  rcases h with h | h | h
  all_goals simp [exec, execEncodePictureBegin, h]

variable {pic : Picture} (hon : encOn m s = true) (hpic : (encOf m s).pic = none) (hin : (encOf m s).input = some pic)
include hon hpic hin

theorem encodePictureBegin_skips (hfull : cfgN F.CODEC_STRM_RING_BYTES m (prepared m s) <
      (encOf m (prepared m s)).ring.length + ceilDiv (pictureCap m pic.pub (prepared m s)) 8) :
    exec (.encodePictureBegin m) s =
      .next (takeInput m (skipPicture m (fullness m pic.pub (prepared m s)) pic.pub (prepared m s))) := by
  have hidle : ¬ ((!encOn m s || (encOf m s).pic.isSome) = true) := by simp [hon, hpic]
  simp only [exec, execEncodePictureBegin, if_neg hidle, hin]
  exact congrArg _ (if_pos hfull)

/-- A picture that begins has its cap and its settings, and no row of it is dealt. -/
theorem encodePictureBegin_begins (hroom : (encOf m (prepared m s)).ring.length +
      ceilDiv (pictureCap m pic.pub (prepared m s)) 8 ≤ cfgN F.CODEC_STRM_RING_BYTES m (prepared m s)) :
    ∃ (p : EncPic) (g : EncStream → EncStream), exec (.encodePictureBegin m) s = .next (modEnc m g (prepared m s)) ∧
      (∀ x, (g x).pic = some p ∧ (g x).f = fullness m pic.pub (prepared m s) ∧ (g x).input = none ∧ (g x).forceIdr = false) ∧
      p.header = pic.header ∧ p.cap = pictureCap m pic.pub (prepared m s) ∧ p.reserved = ceilDiv p.cap 8 ∧
      p.bound = (prepared m s).cfg.accepted ∧ p.deal = 0 ∧ p.dealt = 0 ∧
      (p.idr = true ↔ (encOf m (prepared m s)).forceIdr = true ∨
        (encOf m (prepared m s)).k % max 1 (cfgN F.CODEC_RC_INTRA_PERIOD m (prepared m s)) = 0) := by
  have hidle : ¬ ((!encOn m s || (encOf m s).pic.isSome) = true) := by simp [hon, hpic]
  simp only [exec, execEncodePictureBegin, if_neg hidle, hin]
  refine ⟨_, _, congrArg _ (if_neg (not_lt_of_ge hroom)), fun _ => ⟨rfl, rfl, rfl, rfl⟩, rfl, rfl, rfl, rfl, rfl, rfl, ?_⟩
  rw [Bool.or_eq_true, beq_iff_eq]
  rfl

end

/-! ### The turns of the two engines (R276, R278) -/

section
variable {s : State} {a d m c r k : Nat} (hon : blkOn .codec s = true)
include hon

theorem pixelEngineUnit_idle (h : leastUnit (pixelUnits s) = none) : exec .pixelEngineUnit s = .next s := by
  simp [exec, execPixelEngineUnit, hon, h]

theorem entropyEngineUnit_idle (h : leastUnit (entropyUnits s) = none) : exec .entropyEngineUnit s = .next s := by
  simp [exec, execEntropyEngineUnit, hon, h]

theorem pixelEngineUnit_takes (h : leastUnit (pixelUnits s) = some [a, d, m, c, r, k]) :
    exec .pixelEngineUnit s = .next (if k = 0 then pixelEncode m s else pixelDecode s) := by
  simp [exec, execPixelEngineUnit, hon, h]

theorem entropyEngineUnit_takes (h : leastUnit (entropyUnits s) = some [a, d, m, c, r, k]) :
    exec .entropyEngineUnit s = .next (if k = 0 then entropyEncode s else entropyDecode m s) := by
  simp [exec, execEntropyEngineUnit, hon, h]

end

/-! ### Rows in the FIFOs (R275) -/

theorem fifoUsed_append_row (l : List CtuRow) (x : CtuRow) : fifoUsed (l ++ [x]) = fifoUsed l + x.ctus := by
  simp [fifoUsed]

/-- A row cut to a FIFO's room leaves the other FIFO its floor of 64. -/
theorem fifoUsed_append_le {l other : List CtuRow} {x : CtuRow} (h : x.ctus ≤ 256 - max 64 (fifoUsed other) - fifoUsed l) :
    fifoUsed (l ++ [x]) ≤ max (fifoUsed l) (256 - max 64 (fifoUsed other)) := by
  rw [fifoUsed_append_row]
  omega

section
variable {m : Nat} {s : State}

/-- CTUs that the pixel engine takes of a row (R275). -/
def rowTake (p : EncPic) (s : State) : Nat := min (p.cols - p.dealt) (encRoom s.codec)

/-- The row of entries that the pixel engine pushes (R275). -/
def encodedRow (m : Nat) (p : EncPic) (s : State) : CtuRow :=
  ⟨m, p.deal, p.deal * p.cols + p.dealt, rowTake p s, p.dcFrom.isSome,
    (List.range (rowTake p s)).map fun i => ctuEntry m p (p.deal * p.cols + p.dealt + i)⟩

/-- A picture after its row or a part of it is dealt. -/
def rowDealt (p : EncPic) (s : State) : EncPic :=
  { p with
    deal := if p.cols ≤ p.dealt + rowTake p s then p.deal + 1 else p.deal
    dealt := if p.cols ≤ p.dealt + rowTake p s then 0 else p.dealt + rowTake p s
    holding := p.holding && !(decide (p.cols ≤ p.dealt + rowTake p s) && p.deal + 1 == p.rows) }

/-- The row pushed, and the picture after it. -/
def rowEncoded (m : Nat) (p : EncPic) (s : State) : State :=
  modEnc m (fun x => { x with pic := some (rowDealt p s) }) (modCodec (fun c => { c with
    encFifo := c.encFifo ++ [encodedRow m p s]
    encRow := if p.cols ≤ p.dealt + rowTake p s then none else some m }) s)

theorem rowDealt_part {p : EncPic} (h : p.dealt + rowTake p s < p.cols) : rowDealt p s = { p with dealt := p.dealt + rowTake p s } := by
  simp [rowDealt, Nat.not_le.mpr h]

theorem rowDealt_whole {p : EncPic} (h : p.cols ≤ p.dealt + rowTake p s) :
    rowDealt p s = { p with deal := p.deal + 1, dealt := 0, holding := (rowDealt p s).holding } := by
  simp [rowDealt, h]

/-- After the last row the input buffer is let go of, and the encoder looks at its source (R282). -/
theorem pixelEncode_eq {p : EncPic} (hpic : (encOf m s).pic = some p) : pixelEncode m s = rowEncoded m p s ∨
    pixelEncode m s = takeInput m (modEncSource m (holdOut (.codec m) none) (rowEncoded m p s)) := by
  unfold pixelEncode
  rw [hpic]
  by_cases hlast : (decide (p.cols ≤ p.dealt + rowTake p s) && p.deal + 1 == p.rows && p.holding) = true
  · exact .inr (if_pos hlast)
  · exact .inl (if_neg hlast)

theorem pixelEncode_encFifo {p : EncPic} (hpic : (encOf m s).pic = some p) :
    (pixelEncode m s).codec.encFifo = s.codec.encFifo ++ [encodedRow m p s] := by
  rcases pixelEncode_eq hpic with h | h
  · rw [h]
    rfl
  · rw [h, takeInput_encFifo, modEncSource_encFifo]
    rfl

theorem pixelEncode_pic {p : EncPic} (hm : m < s.codec.enc.length) (hpic : (encOf m s).pic = some p) :
    (encOf m (pixelEncode m s)).pic = some (rowDealt p s) := by
  have hrow : (encOf m (rowEncoded m p s)).pic = some (rowDealt p s) := by
    rw [rowEncoded, encOf_modEnc (by exact hm)]
  rcases pixelEncode_eq hpic with h | h
  · rw [h, hrow]
  · rw [h, encOf_takeInput_proj (g := EncStream.pic) (fun _ _ _ => rfl) (fun _ _ => rfl), encOf_modEncSource, hrow]

/-- CTUs that the entropy engine parses of a row (R275). -/
def rowParse (a : DecAu) (s : State) : Nat := min (max 1 a.cols - a.parsed % max 1 a.cols) (decRoom s.codec)

section
variable {a : DecAu} (hau : (decOf m s).au = some a) (hmore : a.parsed + rowParse a s < a.rows * a.cols)
include hau hmore

/-- A row that is not the last of its access unit is pushed, and the access unit goes on. -/
theorem entropyDecode_eq : ∃ (row : Option Nat) (w : Words) (bins : Nat), entropyDecode m s =
    modDec m (fun x => { x with au := some { a with parsed := a.parsed + rowParse a s } })
      (modDec m (fun x => { x with bound := if a.parsed = 0 then w else x.bound })
        (spendBins m bins (modCodec (fun c => { c with
          decFifo := c.decFifo ++ [⟨m, a.parsed / max 1 a.cols, a.parsed, rowParse a s, false, []⟩], decRow := row }) s))) := by
  unfold entropyDecode
  rw [hau]
  exact ⟨_, _, _, if_neg (not_le_of_gt hmore)⟩

theorem entropyDecode_decFifo : (entropyDecode m s).codec.decFifo =
    s.codec.decFifo ++ [⟨m, a.parsed / max 1 a.cols, a.parsed, rowParse a s, false, []⟩] := by
  obtain ⟨row, w, bins, h⟩ := entropyDecode_eq hau hmore
  rw [h]
  rfl

theorem entropyDecode_au (hm : m < s.codec.dec.length) :
    (decOf m (entropyDecode m s)).au = some { a with parsed := a.parsed + rowParse a s } := by
  obtain ⟨row, w, bins, h⟩ := entropyDecode_eq hau hmore
  rw [h, decOf_modDec ((modDec_dec_length ..).symm ▸ hm)]

end

end

/-! ### Access units (R303, R307) -/

section
variable {m : Nat} {s : State}

theorem tryDecodes_idle (h : auDue m s = false ∨ (decOf m s).au.isSome = true ∨ decOn m s = false ∨
    firstAu (decOf m s).input (decOf m s).ended = none) (n : Nat) : tryDecodes m n s = s := by
  cases n with
  | zero => rfl
  | succ n =>
    rcases h with h | h | h | h
    · simp [tryDecodes, h]
    · simp [tryDecodes, Option.isSome_iff_ne_none.mp h]
    · simp [tryDecodes, h]
    · simp [tryDecodes, h]

theorem tryDecodes_begins {l : List Byte} (hon : decOn m s = true) (hdue : auDue m s = true) (hau : (decOf m s).au = none)
    (hl : firstAu (decOf m s).input (decOf m s).ended = some l) (n : Nat) :
    tryDecodes m (n + 1) s = tryDecodes m n (beginDecode m l s) := by
  simp [tryDecodes, hon, hdue, hau, hl]

theorem accessUnitTimeout_due {t0 : Nat} (ht : (decOf m s).t0 = some t0) (hon : decOn m s = true) (hau : (decOf m s).au = none)
    (hl : firstAu (decOf m s).input (decOf m s).ended = none)
    (hdue : decodeTimeOf m t0 ((decOf m s).n + F.CODEC_PIC_DEC_TIMEOUT.get m (decOf m s).bound) s ≤ todUnits (nowTod s)) :
    exec (.accessUnitTimeout m) s = .next (tryDecode m (if presentAu (decOf m s).input = []
      then skipAu m (raise 2 (0x0848 + m) m [] s)
      else beginDecode m (presentAu (decOf m s).input) (raise 2 (0x0848 + m) m [] s))) := by
  simp [exec, execAccessUnitTimeout, ht, hon, hau, hl, hdue]

end

/-! ### The output of pictures (R311) -/

/-- One step of the search for the picture of least POC. -/
def keepFirst (best : Option (Int × Nat)) (p : DecPic × Nat) : Option (Int × Nat) :=
  match best with
  | none => some (p.1.poc, p.2)
  | some (c, i) => if p.1.poc < c then some (p.1.poc, p.2) else some (c, i)

theorem bumpPlace_eq_foldl (l : List DecPic) :
    bumpPlace l = ((l.zipIdx.filter fun p => p.1.needed).foldl keepFirst none).map (·.2) := rfl

/-- What the search ends with is one of the pictures or what it began with, and no POC it has met is less. -/
theorem foldl_keepFirst_least (l : List (DecPic × Nat)) {best : Option (Int × Nat)} {c : Int} {i : Nat}
    (h : l.foldl keepFirst best = some (c, i)) :
    (best = some (c, i) ∨ ∃ p ∈ l, p.1.poc = c ∧ p.2 = i) ∧ (∀ b ∈ best, c ≤ b.1) ∧ ∀ p ∈ l, c ≤ p.1.poc := by
  induction l generalizing best with
  | nil =>
    subst h
    simp
  | cons x l ih =>
    obtain ⟨hfrom, hbest, hrest⟩ := ih h
    have hstep : ∃ b, keepFirst best x = some b ∧ b.1 ≤ x.1.poc ∧ (∀ a ∈ best, b.1 ≤ a.1) ∧
        (best = some b ∨ b = (x.1.poc, x.2)) := by
      rcases best with - | ⟨d, j⟩
      · exact ⟨_, rfl, le_rfl, by simp, .inr rfl⟩
      · by_cases hlt : x.1.poc < d
        · exact ⟨_, if_pos hlt, le_rfl, by simp [hlt.le], .inr rfl⟩
        · exact ⟨_, if_neg hlt, not_lt.mp hlt, by simp, .inl rfl⟩
    obtain ⟨b, hkeep, hx, hleast, hb⟩ := hstep
    have hcb : c ≤ b.1 := hbest b hkeep
    refine ⟨?found, fun a ha => hcb.trans (hleast a ha), ?least⟩
    case found =>
      rcases hfrom with hfrom | ⟨p, hp, hpoc, hpi⟩
      · obtain rfl : b = (c, i) := Option.some.inj (hkeep.symm.trans hfrom)
        rcases hb with hb | hb
        · exact .inl hb
        · exact .inr ⟨x, by simp, (congrArg Prod.fst hb).symm, (congrArg Prod.snd hb).symm⟩
      · exact .inr ⟨p, by simp [hp], hpoc, hpi⟩
    case least =>
      intro p hp
      rcases List.mem_cons.mp hp with rfl | hp
      · exact hcb.trans hx
      · exact hrest p hp

theorem bumpPlace_least {l : List DecPic} {i : Nat} (h : bumpPlace l = some i) :
    ∃ p, l[i]? = some p ∧ p.needed = true ∧ ∀ q ∈ l, q.needed = true → p.poc ≤ q.poc := by
  rw [bumpPlace_eq_foldl, Option.map_eq_some_iff] at h
  obtain ⟨⟨c, j⟩, hfold, rfl⟩ := h
  obtain ⟨hfrom, -, hleast⟩ := foldl_keepFirst_least _ hfold
  obtain ⟨⟨p, k⟩, hp, rfl, rfl⟩ := hfrom.resolve_left (by simp)
  obtain ⟨hmem, hneeded⟩ := List.mem_filter.mp hp
  refine ⟨p, List.mem_zipIdx_iff_getElem?.mp hmem, hneeded, fun q hq hqn => ?_⟩
  obtain ⟨n, hn⟩ := List.mem_iff_getElem?.mp hq
  exact hleast (q, n) (List.mem_filter.mpr ⟨List.mem_zipIdx_iff_getElem?.mpr hn, hqn⟩)

section
variable {m : Nat} {s : State}

theorem decodedPictureOutput_idle (h : decOn m s = false ∨ (bumpDue (decOf m s) = false ∧ decDrained (decOf m s) = false)) :
    exec (.decodedPictureOutput m) s = .next s := by
  rcases h with h | ⟨hdue, hdrained⟩
  · simp [exec, execDecodedPictureOutput, h]
  · simp [exec, execDecodedPictureOutput, hdue, hdrained]

/-- The picture at place `i` of the DPB waits no longer. -/
def pictureTaken (m i : Nat) (s : State) : State :=
  modDec m (fun y => { y with dpb := dropUnused (modAt (decOf m s).dpb i fun q => { q with needed := false }) }) s

theorem decodedPictureOutput_takes {i : Nat} {p : DecPic} (hon : decOn m s = true)
    (hdue : bumpDue (decOf m s) = true ∨ decDrained (decOf m s) = true) (hplace : bumpPlace (decOf m s).dpb = some i)
    (hp : (decOf m s).dpb[i]? = some p) :
    exec (.decodedPictureOutput m) s = .next (outputPicture m p (pictureTaken m i s)) := by
  have hturn : (decOn m s && (bumpDue (decOf m s) || decDrained (decOf m s))) = true := by simpa [hon] using hdue
  simp only [exec, execDecodedPictureOutput, hturn, if_true, bump, hplace, hp]
  rfl

/-- Without a free output buffer a picture is lost and logged. -/
theorem outputPicture_of_full {p : DecPic} (h : (claimOut (decOf m s).out).2 = false) :
    outputPicture m p s = raise 2 (0x0850 + m) m [] (modDec m (fun y => { y with lost := wrapInc 32 y.lost })
      (modDec m (fun y => { y with lastConcealed := p.concealed }) s)) := by
  simp [outputPicture, h]

theorem decOf_outputPicture_of_full {p : DecPic} (hm : m < s.codec.dec.length) (h : (claimOut (decOf m s).out).2 = false) :
    decOf m (outputPicture m p s) =
      { decOf m s with lastConcealed := p.concealed, lost := wrapInc 32 (decOf m s).lost } := by
  rw [outputPicture_of_full h, decOf_raise, decOf_modDec ((modDec_dec_length ..).symm ▸ hm), decOf_modDec hm]

end

/-- Settles O43: the hypotheses of each clause fix the branch its command takes; what a source, the log and the other streams
take part in leaves the stream's picture and the FIFOs. -/
theorem codecUnits : Obligations.CodecUnits := by
  unfold Obligations.CodecUnits
  refine ⟨fun _ _ => encodePictureBegin_idle, ?begin, fun s hon => ⟨pixelEngineUnit_idle hon, entropyEngineUnit_idle hon,
      fun _ _ _ _ _ _ => pixelEngineUnit_takes hon, fun _ _ _ _ _ _ => entropyEngineUnit_takes hon⟩, ?encode, ?parse, ?decode,
    ?timeout, ?output, fun _ _ => bumpPlace_least, fun _ _ => decodedPictureOutput_idle⟩
  case begin =>
    rintro m f pic u s hon hpic hin hm rfl hf
    have hcfg : ∀ (g : Fld) (i : Nat), cfgN g i (prepared m s) = cfgN g i s := cfgN_of_cfg prepared_cfg
    have hlen : m < (prepared m s).codec.enc.length := by rwa [prepared_enc_length]
    have hfull : f = fullness m pic.pub (prepared m s) := by
      rw [← hcfg, ← hcfg] at hf
      exact hf
    have hcap : min (8 * cfgN F.CODEC_RC_PIC_CAP_BYTES m s) f = pictureCap m pic.pub (prepared m s) := by
      rw [pictureCap, hcfg, hfull]
    rw [hcap, ← hcfg F.CODEC_STRM_RING_BYTES, ← hcfg F.CODEC_RC_INTRA_PERIOD]
    refine ⟨fun hroom => ?begins, fun hfull' => ?skips⟩
    case begins =>
      obtain ⟨p, g, hexec, hg, hheader, hpcap, hres, hbound, hdeal, hdealt, hidr⟩ := encodePictureBegin_begins hon hpic hin hroom
      obtain ⟨hgpic, hgf, hgin, hgidr⟩ := hg (encOf m (prepared m s))
      refine ⟨_, p, hexec, ?_⟩
      rw [encOf_modEnc hlen]
      exact ⟨hgpic, hheader, hpcap, hres, hbound.trans (congrArg (·.accepted) prepared_cfg), hgf.trans hfull.symm, hgin, hgidr,
        hdeal, hdealt, hidr⟩
    case skips =>
      refine ⟨_, encodePictureBegin_skips hon hpic hin hfull', ?_, ?_, ?_, ?_⟩
      · rw [encOf_takeInput_proj (g := EncStream.pic) (fun _ _ _ => rfl) (fun _ _ => rfl), encOf_skipPicture hlen]
        exact prepared_pic.trans hpic
      · rw [encOf_takeInput_proj (g := EncStream.f) (fun _ _ _ => rfl) (fun _ _ => rfl), encOf_skipPicture hlen]
        exact hfull.symm
      · rw [encOf_takeInput_proj (g := EncStream.notCoded) (fun _ _ _ => rfl) (fun _ _ => rfl), encOf_skipPicture hlen]
        exact congrArg (wrapInc 32) prepared_notCoded
      · rw [takeInput_log, skipPicture_log_next]
        exact raise_log_next_congr prepared_log prepared_err ..
  case encode =>
    rintro m n p s hm hpic rfl
    rw [pixelEncode_encFifo hpic, pixelEncode_pic hm hpic]
    exact ⟨rfl, fifoUsed_append_le (min_le_right ..), fun hpart => congrArg some (rowDealt_part hpart),
      fun hwhole => ⟨_, congrArg some (rowDealt_whole hwhole)⟩⟩
  case parse =>
    rintro m n a s hm hau rfl hmore
    rw [entropyDecode_decFifo hau hmore]
    exact ⟨rfl, fifoUsed_append_le (min_le_right ..), entropyDecode_au hau hmore hm⟩
  case decode =>
    intro m s
    refine ⟨fun h => congrArg _ (tryDecodes_idle h _), fun l k hon hdue hau hl hk => ?_⟩
    rw [← tryDecodes_begins hon hdue hau hl k, ← hk]
    rfl
  case timeout =>
    intro m t0 s ht hon hau hl hdue
    rw [accessUnitTimeout_due ht hon hau hl hdue]
    exact ⟨fun hnone => by rw [if_pos hnone], fun hsome => by rw [if_neg hsome]⟩
  case output =>
    intro m i p s hon hdue hm hplace hp u
    refine ⟨decodedPictureOutput_takes hon hdue hplace hp, fun hfull => ?_⟩
    have hu : decOf m u = _ := decOf_modDec hm _
    rw [decOf_outputPicture_of_full ((modDec_dec_length ..).symm ▸ hm) hfull, hu]
    exact ⟨rfl, rfl⟩

end Sys2Proof.Proofs

/-! PROOFS. The recorder's mailboxes and SSDs: what its operations leave of them (R341, R342, R344, R350). -/

namespace Sys2Proof.Proofs
open Sys2Proof Sys2Proof.Machine Sys2Proof.Laws

/-! ### The mailboxes and the SSDs that have failed -/

/-- What the recorder's own operations leave alone: the mailboxes, and which SSDs have failed. -/
def mailFailed (s : State) : Mailboxes × List Bool := (s.mbx, s.rcd.ssds.map (·.failed))

theorem mbx_of_mailFailed {s t : State} (h : mailFailed t = mailFailed s) : t.mbx = s.mbx := congrArg Prod.fst h

theorem ssdOf_failed_of_mailFailed {s t : State} (h : mailFailed t = mailFailed s) (k : Nat) :
    (ssdOf k t).failed = (ssdOf k s).failed := by
  have hmap : t.rcd.ssds.map (·.failed) = s.rcd.ssds.map (·.failed) := congrArg Prod.snd h
  have hget := congrArg (fun l => l.getD k false) hmap
  exact (getD_map_getD (·.failed) _ k ({} : Ssd)).symm.trans (hget.trans (getD_map_getD (·.failed) _ k ({} : Ssd)))

theorem mailFailed_of {s t : State} (hm : t.mbx = s.mbx) (hr : t.rcd = s.rcd) : mailFailed t = mailFailed s :=
  Prod.ext hm (congrArg (fun r : Recorder => r.ssds.map Ssd.failed) hr)

theorem mailFailed_foldl {α : Type} (g : State → α → State) (l : List α) (s : State)
    (h : ∀ u x, mailFailed (g u x) = mailFailed u) : mailFailed (l.foldl g s) = mailFailed s :=
  List.foldlRecOn (motive := fun t => mailFailed t = mailFailed s) l g rfl fun t ht x _ => (h t x).trans ht

@[simp] theorem raise_mailFailed (sev code inst : Nat) (ds : List Nat) (s : State) :
    mailFailed (raise sev code inst ds s) = mailFailed s := mailFailed_of (raise_mbx ..) (raise_rcd ..)

@[simp] theorem drawOne_mailFailed (s : State) : mailFailed (drawOne s) = mailFailed s := rfl
@[simp] theorem modEp_mailFailed (f : Endpoint → Endpoint) (s : State) : mailFailed (modEp f s) = mailFailed s := rfl
@[simp] theorem modRed_mailFailed (f : Redundancy → Redundancy) (s : State) : mailFailed (modRed f s) = mailFailed s := rfl
@[simp] theorem modGroup_mailFailed (g : Nat) (f : LinkGroup → LinkGroup) (s : State) :
    mailFailed (modGroup g f s) = mailFailed s := rfl

@[simp] theorem modRec_mailFailed {f : Recorder → Recorder} {s : State}
    (h : (f s.rcd).ssds.map (·.failed) = s.rcd.ssds.map (·.failed)) : mailFailed (modRec f s) = mailFailed s := Prod.ext rfl h


theorem modSsd_mailFailed {f : Ssd → Ssd} (h : ∀ d, (f d).failed = d.failed) (k : Nat) (s : State) :
    mailFailed (modSsd k f s) = mailFailed s := modRec_mailFailed (map_modAt_id h _ _)

@[simp] theorem modMedia_mailFailed (k : Nat) (f : Media → Media) (s : State) : mailFailed (modMedia k f s) = mailFailed s :=
  modSsd_mailFailed (f := fun d => { d with media := f d.media }) (fun _ => rfl) k s

@[simp] theorem sendSsd_mailFailed (port queue : Nat) (op : SsdOp) (s : State) :
    mailFailed (sendSsd port queue op s) = mailFailed s := by
  unfold sendSsd
  split
  · rfl
  · refine (modRec_mailFailed rfl).trans (modSsd_mailFailed ?_ port s)
    exact fun _ => rfl

@[simp] theorem sendAdmin_mailFailed (port : Nat) (c : SsdAdmin) (s : State) : mailFailed (sendAdmin port c s) = mailFailed s :=
  sendSsd_mailFailed ..

@[simp] theorem sendAll_mailFailed (op : Nat → SsdOp) (s : State) : mailFailed (sendAll op s) = mailFailed s :=
  mailFailed_foldl _ _ _ fun _ _ => sendSsd_mailFailed ..

/-! ### Durability points and the end of a clip -/

@[simp] theorem putClip_mailFailed (n : Nat) (l : List Byte) (s : State) : mailFailed (putClip n l s) = mailFailed s := rfl

@[simp] theorem closeClip_mailFailed (s : State) : mailFailed (closeClip s) = mailFailed s := by
  unfold closeClip
  split
  · rfl
  · exact (modRec_mailFailed rfl).trans (putClip_mailFailed ..)

@[simp] theorem beginPoint_mailFailed (s : State) : mailFailed (beginPoint s) = mailFailed s := by
  unfold beginPoint
  split
  · rfl
  · split
    · rfl
    · exact sendAll_mailFailed ..

@[simp] theorem cutFinal_mailFailed (s : State) : mailFailed (cutFinal s) = mailFailed s := closeClip_mailFailed _

@[simp] theorem maybeEnd_mailFailed (s : State) : mailFailed (maybeEnd s) = mailFailed s := by
  unfold maybeEnd
  split
  · split
    · split
      · exact beginPoint_mailFailed s
      · exact (closeClip_mailFailed _).trans (modRec_mailFailed rfl)
    · split
      · split
        · exact (beginPoint_mailFailed _).trans (modRec_mailFailed rfl)
        · rfl
      · rfl
  · rfl

@[simp] theorem stopClip_mailFailed (trunc : Bool) (s : State) : mailFailed (stopClip trunc s) = mailFailed s := by
  unfold stopClip
  split
  · rfl
  · exact maybeEnd_mailFailed _

/-! ### The endpoint's completions -/

@[simp] theorem deliverCq_mailFailed (qid : Nat) (x : Completion) (s : State) : mailFailed (deliverCq qid x s) = mailFailed s := by
  unfold deliverCq
  repeat' split
  all_goals rfl

@[simp] theorem completeOn_mailFailed (sq : Nat) (cmd : NvmeCmd) (a status dw0 : Nat) (data : List Byte) (s : State) :
    mailFailed (completeOn sq cmd a status dw0 data s) = mailFailed s := by
  unfold completeOn
  extract_lets u
  have hu : mailFailed u = mailFailed s := by
    simp only [u]
    split
    · rfl
    · exact modEp_mailFailed ..
  split
  · exact (deliverCq_mailFailed ..).trans hu
  · exact hu

@[simp] theorem finishCmd_mailFailed (a status dw0 : Nat) (data : List Byte) (s : State) :
    mailFailed (finishCmd a status dw0 data s) = mailFailed s := by
  unfold finishCmd
  split
  · split
    · rfl
    · exact completeOn_mailFailed ..
  · rfl

@[simp] theorem pushEvent_mailFailed (dw0 : Nat) (s : State) : mailFailed (pushEvent dw0 s) = mailFailed s := by
  unfold pushEvent
  split
  · rfl
  · split
    · exact finishCmd_mailFailed ..
    · exact modEp_mailFailed ..

@[simp] theorem noticeReadOnly_mailFailed (s : State) : mailFailed (noticeReadOnly s) = mailFailed s := by
  unfold noticeReadOnly
  split
  · exact pushEvent_mailFailed ..
  · rfl

@[simp] theorem shutdownStep_mailFailed (s : State) : mailFailed (shutdownStep s) = mailFailed s := by
  unfold shutdownStep
  split
  · exact mailFailed_foldl _ _ _ fun _ _ => sendSsd_mailFailed ..
  · rfl

@[simp] theorem hostPiece_mailFailed (a : Nat) (ok read : Bool) (dst : Nat) (bytes : List Byte) (s : State) :
    mailFailed (hostPiece a ok read dst bytes s) = mailFailed s := by
  unfold hostPiece
  split
  · rfl
  · extract_lets t u
    have hu : mailFailed u = mailFailed s := by
      simp only [u]
      split
      · rfl
      · exact raise_mailFailed ..
    split
    · split
      · exact hu
      · split
        · exact (finishCmd_mailFailed ..).trans hu
        · exact (finishCmd_mailFailed ..).trans hu
    · exact hu

/-! ### A failure of the volume -/

@[simp] theorem abandonWrites_mailFailed (s : State) : mailFailed (abandonWrites s) = mailFailed s := by
  refine Prod.ext rfl ?_
  change (s.rcd.ssds.map _).map Ssd.failed = s.rcd.ssds.map Ssd.failed
  exact List.map_map ..

@[simp] theorem sendTakeover_mailFailed (kind : Nat) (s : State) : mailFailed (sendTakeover kind s) = mailFailed s := by
  unfold sendTakeover
  split <;> rfl

@[simp] theorem dropReceiving_mailFailed (n : Nat) (s : State) : mailFailed (dropReceiving n s) = mailFailed s := by
  unfold dropReceiving
  dsimp only
  repeat' split
  all_goals rfl

@[simp] theorem dropStream_mailFailed (g k : Nat) (s : State) : mailFailed (dropStream g k s) = mailFailed s := by
  unfold dropStream
  dsimp only
  split
  · rfl
  · split
    · split
      · exact dropReceiving_mailFailed ..
      · rfl
    · rfl

@[simp] theorem clearFlight_mailFailed (st g : Nat) (s : State) : mailFailed (clearFlight st g s) = mailFailed s := by
  simp [clearFlight, dropStreams]

@[simp] theorem declareFailure_mailFailed (s : State) : mailFailed (declareFailure s) = mailFailed s := by
  unfold declareFailure
  split
  · refine (modRed_mailFailed ..).trans ((raise_mailFailed ..).trans ((mailFailed_foldl _ _ _ fun u g => ?_).trans ?_))
    · split
      · exact clearFlight_mailFailed ..
      · rfl
    · simp
  · rfl

@[simp] theorem recHalt_mailFailed (s : State) : mailFailed (recHalt s) = mailFailed s := by
  unfold recHalt
  extract_lets t stopped u
  have ht : mailFailed t = mailFailed s := (modRec_mailFailed rfl).trans (noticeReadOnly_mailFailed s)
  have hu : mailFailed u = mailFailed s := by
    simp only [u]
    split
    · exact (cutFinal_mailFailed t).trans ht
    · exact (stopClip_mailFailed true t).trans ht
  split
  · exact (declareFailure_mailFailed u).trans hu
  · exact hu

@[simp] theorem recFail_mailFailed (port : Nat) (s : State) : mailFailed (recFail port s) = mailFailed s := by
  unfold recFail
  split
  · split
    · exact (cutFinal_mailFailed _).trans (modRec_mailFailed rfl)
    · exact maybeEnd_mailFailed s
  · exact (recHalt_mailFailed _).trans (raise_mailFailed ..)

/-! ### A member command that ends in error -/

theorem recStream_modRecStream_cases (j : Nat) (f : RecStream → RecStream) (s : State) :
    recStream j (modRecStream j f s) = f (recStream j s) ∨ recStream j (modRecStream j f s) = {} := by
  rcases Nat.lt_or_ge j s.rcd.streams.length with hj | hj
  · exact .inl (getD_modAt _ _ _ _ hj)
  · exact .inr (List.getD_eq_default _ _ ((modAt_length ..).le.trans hj))

/-- A flight after a write of flight `id` has ended. -/
def writeEnded (id : Nat) (ok : Bool) (f : Flight) : Flight :=
  if f.id = id then { f with left := f.left - 1, bad := f.bad || !ok } else f

theorem writeEnded_bad {id : Nat} {f : Flight} (h : (writeEnded id false f).id = id) : (writeEnded id false f).bad = true := by
  by_cases hf : f.id = id
  · simp [writeEnded, hf]
  · simp [writeEnded, hf] at h

/-- After a write that failed its flight cannot be whole: no digest entry follows. -/
theorem flightWrite_false_mailFailed (j id : Nat) (s : State) : mailFailed (flightWrite j id false s) = mailFailed s := by
  unfold flightWrite
  extract_lets t
  have ht : mailFailed t = mailFailed s := rfl
  split
  · exact ht
  · next f hf =>
    have hflights : (recStream j t).flights = (recStream j s).flights.map (writeEnded id false) ∨ (recStream j t).flights = [] :=
      (recStream_modRecStream_cases j (fun x => { x with flights := x.flights.map (writeEnded id false) }) s).imp
        (congrArg RecStream.flights) (congrArg RecStream.flights)
    have hbad : f.bad = true := by
      rcases hflights with h | h
      · have hid : f.id = id := by simpa using List.find?_some hf
        obtain ⟨g, -, rfl⟩ := List.mem_map.mp (h ▸ List.mem_of_find?_eq_some hf)
        exact writeEnded_bad hid
      · rw [h] at hf
        cases hf
    rw [if_pos (.inr hbad)]
    exact (maybeEnd_mailFailed t).trans ht

theorem playRead_false_mailFailed (m dst : Nat) (l : List Byte) (s : State) :
    mailFailed (playRead m false dst l s) = mailFailed s := by
  unfold playRead
  extract_lets p t
  split
  · rfl
  · exact raise_mailFailed ..

theorem ssdDone_false_mailFailed (port : Nat) (c : SsdCmd) (s : State) :
    mailFailed (ssdDone port c false s) = mailFailed s := by
  unfold ssdDone
  cases c.op with
  | unit j f slot off bytes => exact (flightWrite_false_mailFailed ..).trans (recFail_mailFailed ..)
  | dealloc _ | admin _ => rfl
  | hostRead _ _ _ _ _ => exact (shutdownStep_mailFailed _).trans (hostPiece_mailFailed ..)
  | hostWrite _ _ _ _ _ | hostFlush _ =>
    exact (shutdownStep_mailFailed _).trans ((hostPiece_mailFailed ..).trans (recFail_mailFailed ..))
  | playRead _ _ _ _ => exact playRead_false_mailFailed ..
  | flush | journal _ _ | checkpoint _ _ _ _ | directory _ _ | super _ _ => exact recFail_mailFailed ..

theorem completeSsd_false_mailFailed (port id : Nat) (s : State) : mailFailed (completeSsd port id false s) = mailFailed s := by
  unfold completeSsd
  split
  · rfl
  · extract_lets t u
    have ht : mailFailed u = mailFailed s :=
      (modMedia_mailFailed ..).trans ((drawOne_mailFailed t).trans
        (modSsd_mailFailed (f := fun d => { d with cmds := d.cmds.filter fun x => x.id != id }) (fun _ => rfl) port s))
    refine (ssdDone_false_mailFailed ..).trans ?_
    split
    · exact ht
    · exact (sendAdmin_mailFailed ..).trans ht

/-! ### The stop of a clip -/

/-- Only the engines change when the units that wait are dealt (R746). -/
theorem dealUnits_eq (s : State) : ∃ e : Recorder → List (Option Nat), dealUnits s = modRec (fun r => { r with engines := e r }) s :=
  ⟨_, rfl⟩

/-- What does not look at the engines, dealing leaves. -/
theorem dealUnits_proj {β : Type} {g : State → β}
    (hg : ∀ (e : Recorder → List (Option Nat)) t, g (modRec (fun r => { r with engines := e r }) t) = g t) (s : State) :
    g (dealUnits s) = g s := by
  obtain ⟨e, he⟩ := dealUnits_eq s
  rw [he]
  exact hg e s

@[simp] theorem dealUnits_mailFailed (s : State) : mailFailed (dealUnits s) = mailFailed s := dealUnits_proj (fun _ _ => rfl) s

@[simp] theorem offerUnit_mailFailed (j : Nat) (u : RecUnit) (s : State) : mailFailed (offerUnit j u s) = mailFailed s :=
  (dealUnits_mailFailed _).trans (modRec_mailFailed rfl)

@[simp] theorem pushIsland_mailFailed (e : IslandEntry) (s : State) : mailFailed (pushIsland e s) = mailFailed s := by
  unfold pushIsland
  extract_lets lost t
  split
  · exact raise_mailFailed ..
  · rfl

@[simp] theorem sendEvidence_mailFailed (kind : Nat) (b : List Byte) (s : State) :
    mailFailed (sendEvidence kind b s) = mailFailed s := by
  unfold sendEvidence
  split
  · exact mailFailed_foldl _ _ _ fun _ _ => rfl
  · rfl

@[simp] theorem signSeam_mailFailed (n flags : Nat) (start : Bool) (s : State) :
    mailFailed (signSeam n flags start s) = mailFailed s :=
  (sendEvidence_mailFailed ..).trans ((pushIsland_mailFailed ..).trans rfl)

@[simp] theorem signHeld_mailFailed (j : Nat) (s : State) : mailFailed (signHeld j s) = mailFailed s := by
  unfold signHeld
  split
  · rfl
  · extract_lets n t sig
    have ht : mailFailed t = mailFailed s := by
      simp only [t]
      split
      · exact signSeam_mailFailed ..
      · rfl
    exact (offerUnit_mailFailed ..).trans ht

@[simp] theorem checkStop_mailFailed (s : State) : mailFailed (checkStop s) = mailFailed s := by
  unfold checkStop
  split
  · split
    · extract_lets act
      split
      · split
        · exact mailFailed_foldl _ _ _ fun _ _ => signHeld_mailFailed ..
        · exact stopClip_mailFailed ..
      · rfl
    · rfl
  · rfl

end Sys2Proof.Proofs

/-! PROOFS. Commands of the member SSDs: completion, timeout, abort and reset (R341, R342, R350). -/

namespace Sys2Proof.Proofs
open Sys2Proof Sys2Proof.Machine Sys2Proof.Laws

theorem lookup_putKey_same {α : Type} (k : Nat) (v : α) (l : List (Nat × α)) : (putKey k v l).lookup k = some v := by
  have hbelow : (l.filter fun e => decide (e.1 < k)).lookup k = none := by
    rw [List.lookup_eq_none_iff]
    intro e he
    have hlt : e.1 < k := by simpa using (List.mem_filter.mp he).2
    simpa using hlt.ne'
  rw [putKey, List.lookup_append, hbelow]
  simp

theorem ssdOf_modSsd {k : Nat} {s : State} (hk : k < s.rcd.ssds.length) (f : Ssd → Ssd) : ssdOf k (modSsd k f s) = f (ssdOf k s) :=
  getD_modAt _ _ _ _ hk

section
variable {k id : Nat} {s : State}

/-! ### Completion -/

/-- A command that has left its member. -/
def cmdGone (k id : Nat) (s : State) : State := modSsd k (fun d => { d with cmds := d.cmds.filter fun x => x.id != id }) s

theorem cmdGone_id (hk : k < s.rcd.ssds.length) : ∀ x ∈ (ssdOf k (cmdGone k id s)).cmds, x.id ≠ id := by
  intro x hx
  rw [cmdGone, ssdOf_modSsd hk] at hx
  simpa using (List.mem_filter.mp hx).2

theorem ssdCommandCompletion_issued {c : SsdCmd} (hc : (ssdOf k s).cmds.find? (fun c => c.id == id) = some c)
    (hi : ssdIssued (ssdOf k s) c = true) (ok : Bool) :
    exec (.ssdCommandCompletion k id ok) s = .next (checkStop (completeSsd k id ok s)) := by
  have hid : c.id = id := by simpa using List.find?_some hc
  have hany : ((ssdOf k s).cmds.any fun c => c.id == id && ssdIssued (ssdOf k s) c) = true :=
    List.any_eq_true.mpr ⟨c, List.mem_of_find?_eq_some hc, by simp [hid, hi]⟩
  exact congrArg Host.Outcome.next (if_pos hany)

theorem ssdCommandCompletion_not_issued (h : ∀ c ∈ (ssdOf k s).cmds, c.id = id → ssdIssued (ssdOf k s) c = false) (ok : Bool) :
    exec (.ssdCommandCompletion k id ok) s = .next s := by
  have hany : ¬ ((ssdOf k s).cmds.any fun c => c.id == id && ssdIssued (ssdOf k s) c) = true := by
    simpa using h
  exact congrArg Host.Outcome.next (if_neg hany)

theorem completeSsd_true {c : SsdCmd} (hc : (ssdOf k s).cmds.find? (fun c => c.id == id) = some c) :
    completeSsd k id true s = ssdDone k c true (modMedia k (mediaAfter c.op) (cmdGone k id s)) := by
  unfold completeSsd
  rw [hc]
  rfl

theorem completeSsd_false {c : SsdCmd} (hc : (ssdOf k s).cmds.find? (fun c => c.id == id) = some c) :
    completeSsd k id false s = ssdDone k c false (
      if isAdmin c.op then modMedia k (mediaFailed s.drawn c.op) (drawOne (cmdGone k id s))
      else sendAdmin k (.getLog 1) (modMedia k (mediaFailed s.drawn c.op) (drawOne (cmdGone k id s)))) := by
  unfold completeSsd
  rw [hc]
  rfl

/-! ### Timeouts -/

section
variable (hk : k < s.rcd.ssds.length)
include hk

theorem ssdOf_sendSsd (hok : (ssdOf k s).failed = false) (queue : Nat) (op : SsdOp) :
    ssdOf k (sendSsd k queue op s) = { ssdOf k s with
      cmds := (ssdOf k s).cmds ++ [{ id := s.rcd.nextCmd, queue := queue, op := op, since := s.dev.elapsed }] } := by
  unfold sendSsd
  rw [if_neg (by simp [hok])]
  exact ssdOf_modSsd hk _

theorem ssdOf_setPhase (ph : Nat) (p : SsdCmd → Bool) : ssdOf k (setPhase k ph p s) = { ssdOf k s with
    cmds := (ssdOf k s).cmds.map fun c => if p c then { c with phase := ph } else c } :=
  ssdOf_modSsd hk _

theorem ssdCommandTimeout_aborts (h : ∃ c ∈ (ssdOf k s).cmds, c.id = id ∧ c.phase = 0 ∧ ssdIssued (ssdOf k s) c = true)
    (hok : (ssdOf k s).failed = false) :
    ∃ t, exec (.ssdCommandTimeout k id) s = .next t ∧
      (ssdOf k t).cmds = (ssdOf k s).cmds.map (fun c => if c.id == id then { c with phase := 1 } else c) ++
        [{ id := s.rcd.nextCmd, queue := 0, op := .admin (.abort id), since := s.dev.elapsed }] := by
  have hany : ((ssdOf k s).cmds.any fun c => c.id == id && c.phase == 0 && ssdIssued (ssdOf k s) c) = true := by
    simpa [and_assoc] using h
  have hlen : k < (setPhase k 1 (fun c => c.id == id) s).rcd.ssds.length := (modAt_length ..).symm ▸ hk
  have hphase := ssdOf_setPhase hk 1 (fun c => c.id == id)
  refine ⟨_, congrArg Host.Outcome.next (if_pos hany), ?_⟩
  rw [sendAdmin, ssdOf_sendSsd hlen (by rw [hphase]; exact hok), hphase]
  rfl

theorem ssdAbortExpiry_resets (h : ∃ c ∈ (ssdOf k s).cmds, c.id = id ∧ c.phase = 1) :
    ∃ t, exec (.ssdAbortExpiry k id) s = .next t ∧ ∀ c ∈ (ssdOf k t).cmds, c.phase = 2 := by
  have hany : ((ssdOf k s).cmds.any fun c => c.id == id && c.phase == 1) = true := by
    simpa using h
  refine ⟨_, congrArg Host.Outcome.next (if_pos hany), fun c hc => ?_⟩
  rw [ssdOf_setPhase hk] at hc
  obtain ⟨d, -, rfl⟩ := List.mem_map.mp hc
  rfl

/-- The report of the failure and the end of the member's commands leave it failed (R342). -/
theorem ssdResetExpiry_fails (h : ∃ c ∈ (ssdOf k s).cmds, c.phase = 2) :
    ∃ t, exec (.ssdResetExpiry k) s = .next t ∧ (ssdOf k t).failed = true := by
  have hany : ((ssdOf k s).cmds.any fun c => c.phase == 2) = true := by
    simpa using h
  refine ⟨_, congrArg Host.Outcome.next (if_pos hany), ?_⟩
  rw [ssdOf_failed_of_mailFailed ((mailFailed_foldl _ _ _ fun u i => completeSsd_false_mailFailed k i u).trans
    (recFail_mailFailed ..)), ssdOf_modSsd hk]

end

theorem ssdCommandTimeout_idle (h : ∀ c ∈ (ssdOf k s).cmds, c.id = id → c.phase ≠ 0 ∨ ssdIssued (ssdOf k s) c = false) :
    exec (.ssdCommandTimeout k id) s = .next s := by
  have hany : ¬ ((ssdOf k s).cmds.any fun c => c.id == id && c.phase == 0 && ssdIssued (ssdOf k s) c) = true := by
    simpa [← imp_iff_not_or] using h
  exact congrArg Host.Outcome.next (if_neg hany)

theorem ssdAbortExpiry_idle (h : ∀ c ∈ (ssdOf k s).cmds, c.id ≠ id ∨ c.phase ≠ 1) :
    exec (.ssdAbortExpiry k id) s = .next s := by
  have hany : ¬ ((ssdOf k s).cmds.any fun c => c.id == id && c.phase == 1) = true := by
    simpa [← imp_iff_not_or] using h
  exact congrArg Host.Outcome.next (if_neg hany)

theorem ssdResetExpiry_idle (h : ∀ c ∈ (ssdOf k s).cmds, c.phase ≠ 2) : exec (.ssdResetExpiry k) s = .next s := by
  have hany : ¬ ((ssdOf k s).cmds.any fun c => c.phase == 2) = true := by
    simpa using h
  exact congrArg Host.Outcome.next (if_neg hany)

end

/-- Settles O45: the phase of a command selects the branch of its event, and no end of a command in error brings a failed SSD
back. -/
theorem ssdCommands : Obligations.SsdCommands := by
  unfold Obligations.SsdCommands
  refine ⟨?completes, fun _ _ ok _ h => ssdCommandCompletion_not_issued h ok, fun _ _ _ _ _ _ => lookup_putKey_same .., ?timeout,
    ?abort, ?reset⟩
  case completes =>
    intro k id c s hc hi u v
    refine ⟨?_, ?_, cmdGone_id⟩
    · rw [ssdCommandCompletion_issued hc hi, completeSsd_true hc]
      rfl
    · rw [ssdCommandCompletion_issued hc hi, completeSsd_false hc]
      rfl
  case timeout => exact fun _ _ _ hk => ⟨ssdCommandTimeout_aborts hk, ssdCommandTimeout_idle⟩
  case abort => exact fun _ _ _ hk => ⟨ssdAbortExpiry_resets hk, ssdAbortExpiry_idle⟩
  case reset => exact fun _ _ hk => ⟨ssdResetExpiry_fails hk, ssdResetExpiry_idle⟩

end Sys2Proof.Proofs

/-! PROOFS. The recorder's units, durability points and playback reads (R320, R322, R339, R344, R356, R357, R746). -/

namespace Sys2Proof.Proofs
open Sys2Proof Sys2Proof.Machine Sys2Proof.Laws

/-! ### Commands sent to members -/

/-- What a change of one entry gives that entry and the others have already, each entry has. -/
theorem getD_modAt_of {α : Type} {P : α → Prop} {f : α → α} {l : List α} {k : Nat} {d : α} (h : P (l.getD k d))
    (hf : ∀ x, P x → P (f x)) (n : Nat) : P ((modAt l n f).getD k d) := by
  rw [List.getD_eq_getElem?_getD] at h
  rw [modAt, List.getD_eq_getElem?_getD, List.getElem?_modify]
  cases hl : l[k]? with
  | none => simpa [hl] using h
  | some x =>
    rw [hl] at h
    by_cases hn : n = k
    · simpa [hn] using hf x h
    · simpa [hn] using h

theorem ssdOf_modSsd_of {P : Ssd → Prop} {f : Ssd → Ssd} {k : Nat} {s : State} (h : P (ssdOf k s)) (hf : ∀ d, P d → P (f d))
    (port : Nat) : P (ssdOf k (modSsd port f s)) := getD_modAt_of h hf port

section
variable {k n port queue : Nat} {op q : SsdOp} {s : State}

/-- What a command sent leaves of the recorder: all but the members' lists and the next number. -/
theorem sendSsd_rec_proj {β : Type} {g : Recorder → β} (hg : ∀ r i l, g { r with nextCmd := i, ssds := l } = g r) (port queue : Nat)
    (op : SsdOp) (s : State) : g (sendSsd port queue op s).rcd = g s.rcd := by
  unfold sendSsd
  split
  · rfl
  · exact hg s.rcd _ _

theorem sendAll_rec_proj {β : Type} {g : Recorder → β} (hg : ∀ r i l, g { r with nextCmd := i, ssds := l } = g r)
    (op : Nat → SsdOp) (s : State) : g (sendAll op s).rcd = g s.rcd :=
  List.foldlRecOn (motive := fun t : State => g t.rcd = g s.rcd) _ _ rfl fun t ht p _ => (sendSsd_rec_proj hg p.1 metaQueue _ t).trans ht

theorem sendSsd_ssds_length (port queue : Nat) (op : SsdOp) (s : State) :
    (sendSsd port queue op s).rcd.ssds.length = s.rcd.ssds.length := by
  unfold sendSsd
  split
  · rfl
  · exact modAt_length ..

theorem le_sendSsd_nextCmd (port queue : Nat) (op : SsdOp) (s : State) : s.rcd.nextCmd ≤ (sendSsd port queue op s).rcd.nextCmd := by
  unfold sendSsd
  split
  · exact le_rfl
  · exact Nat.le_succ _

theorem mem_cmds_sendSsd {c : SsdCmd} (h : c ∈ (ssdOf k s).cmds) (port queue : Nat) (op : SsdOp) :
    c ∈ (ssdOf k (sendSsd port queue op s)).cmds := by
  unfold sendSsd
  split
  · exact h
  · exact ssdOf_modSsd_of (P := fun d => c ∈ d.cmds) h (fun _ hc => List.mem_append_left _ hc) port

/-- An SSD has been sent a command of an operation, numbered from `n` on. -/
def Asked (k : Nat) (op : SsdOp) (n : Nat) (s : State) : Prop := ∃ c ∈ (ssdOf k s).cmds, c.op = op ∧ n ≤ c.id

theorem Asked.sendSsd (h : Asked k op n s) (port queue : Nat) (q : SsdOp) : Asked k op n (sendSsd port queue q s) := by
  obtain ⟨c, hc, hop, hid⟩ := h
  exact ⟨c, mem_cmds_sendSsd hc .., hop, hid⟩

theorem asked_sendSsd (hk : k < s.rcd.ssds.length) (hok : (ssdOf k s).failed = false) (queue : Nat) (op : SsdOp) :
    Asked k op s.rcd.nextCmd (sendSsd k queue op s) := by
  refine ⟨{ id := s.rcd.nextCmd, queue := queue, op := op, since := s.dev.elapsed }, ?_, rfl, le_rfl⟩
  rw [ssdOf_sendSsd hk hok]
  exact List.mem_append_right _ List.mem_cons_self

/-- Commands sent one after another reach every SSD that has not failed. -/
theorem asked_foldl_sendSsd (op : Nat → SsdOp) (l : List (Nat × Nat)) (s : State) (hok : ∀ p ∈ l, (ssdOf p.1 s).failed = false) :
    ∀ p ∈ l, p.1 < s.rcd.ssds.length →
      Asked p.1 (op p.2) s.rcd.nextCmd (l.foldl (fun t p => sendSsd p.1 metaQueue (op p.2) t) s) := by
  induction l generalizing s with
  | nil => simp
  | cons a l ih =>
    intro p hp hlen
    set t := sendSsd a.1 metaQueue (op a.2) s
    rcases List.mem_cons.mp hp with rfl | hp
    · exact List.foldlRecOn (motive := Asked p.1 (op p.2) s.rcd.nextCmd) l _
        (asked_sendSsd hlen (hok p List.mem_cons_self) ..) fun u hu b _ => hu.sendSsd ..
    · have hfailed : ∀ p ∈ l, (ssdOf p.1 t).failed = false := fun p hp =>
        (ssdOf_failed_of_mailFailed (sendSsd_mailFailed ..) _).trans (hok p (List.mem_cons_of_mem _ hp))
      obtain ⟨c, hc, hop, hid⟩ := ih t hfailed p hp ((sendSsd_ssds_length ..).symm ▸ hlen)
      exact ⟨c, hc, hop, (le_sendSsd_nextCmd ..).trans hid⟩

theorem sendAll_asks (op : SsdOp) (hok : membersOk s = true) {k : Nat} (hk : k ∈ s.rcd.members) (hlen : k < s.rcd.ssds.length) :
    Asked k op s.rcd.nextCmd (sendAll (fun _ => op) s) := by
  have hfailed : ∀ p ∈ s.rcd.members.zipIdx, (ssdOf p.1 s).failed = false := fun p hp => by
    simpa using List.all_eq_true.mp hok p.1 (List.fst_mem_of_mem_zipIdx hp)
  obtain ⟨i, hi⟩ := List.mem_iff_getElem?.mp hk
  exact asked_foldl_sendSsd (fun _ => op) _ _ hfailed (k, i) (List.mem_zipIdx_iff_getElem?.mpr hi) hlen

end

/-! ### Completed units (R320, R322, R339, R746) -/

section
variable {j : Nat} {u : RecUnit} {rest : List RecUnit} {c : Clip} {s : State}

@[simp] theorem redOn_dealUnits (s : State) : redOn (dealUnits s) = redOn s := dealUnits_proj (fun _ _ => rfl) s
@[simp] theorem dealUnits_cfg (s : State) : (dealUnits s).cfg = s.cfg := dealUnits_proj (g := State.cfg) (fun _ _ => rfl) s
@[simp] theorem recStream_dealUnits (s : State) : recStream j (dealUnits s) = recStream j s := dealUnits_proj (fun _ _ => rfl) s
@[simp] theorem dealUnits_clip (s : State) : (dealUnits s).rcd.clip = s.rcd.clip :=
  dealUnits_proj (g := fun t => t.rcd.clip) (fun _ _ => rfl) s
@[simp] theorem dealUnits_streams (s : State) : (dealUnits s).rcd.streams = s.rcd.streams :=
  dealUnits_proj (g := fun t => t.rcd.streams) (fun _ _ => rfl) s
@[simp] theorem dealUnits_map (s : State) : (dealUnits s).rcd.map = s.rcd.map :=
  dealUnits_proj (g := fun t => t.rcd.map) (fun _ _ => rfl) s
@[simp] theorem dealUnits_ssds (s : State) : (dealUnits s).rcd.ssds = s.rcd.ssds :=
  dealUnits_proj (g := fun t => t.rcd.ssds) (fun _ _ => rfl) s

theorem checkStop_of_no_clip (h : s.rcd.clip = none) : checkStop s = s := by
  unfold checkStop
  rw [h]

theorem recStream_modRecStream (hj : j < s.rcd.streams.length) (f : RecStream → RecStream) :
    recStream j (modRecStream j f s) = f (recStream j s) := getD_modAt _ _ _ _ hj

theorem recordUnitComplete_off (hon : recOn s = false) : exec (.recordUnitComplete j) s = .next s := by
  simp [exec, execRecordUnitComplete, hon]

theorem recordUnitComplete_waits (hon : recOn s = true) (hclip : s.rcd.clip = none) (hh : hashing j (dealUnits s) = false) :
    exec (.recordUnitComplete j) s = .next (dealUnits s) := by
  have hstop : checkStop (dealUnits s) = dealUnits s := checkStop_of_no_clip ((dealUnits_clip s).trans hclip)
  simp [exec, execRecordUnitComplete, hon, hh, hstop]

theorem recordUnitComplete_takes (hon : recOn s = true) (hh : hashing j (dealUnits s) = true) :
    exec (.recordUnitComplete j) s = .next (checkStop (dealUnits (takeUnit j (dealUnits s)))) := by
  simp [exec, execRecordUnitComplete, hon, hh]

/-- The oldest completed unit of a stream has gone. -/
def unitTaken (j : Nat) (rest : List RecUnit) (s : State) : State := modRecStream j (fun x => { x with ready := rest }) s

theorem unitTaken_open (rest : List RecUnit) : (recStream j (unitTaken j rest s)).open_ = (recStream j s).open_ :=
  getD_modAt_proj (g := RecStream.open_) (f := fun x => { x with ready := rest }) (fun _ => rfl) _ _ _ _

theorem unitTaken_inClip (rest : List RecUnit) : inClip c j u (unitTaken j rest s) = inClip c j u s := rfl

variable (hred : redOn s = false) (hready : (recStream j s).ready = u :: rest)
include hred hready

/-- Without a clip the unit goes, its bytes to the pre-roll if the stream has one (R322). -/
theorem takeUnit_of_no_clip (hclip : s.rcd.clip = none) : takeUnit j s = freeStage j u.stage
    (if prerollBytes s.cfg.accepted j = 0 then unitTaken j rest s
      else modRecStream j (fun x => { x with
        preroll := trimUnits (prerollBytes s.cfg.accepted j) (x.preroll ++ [{ u with stage := 0 }]) }) (unitTaken j rest s)) := by
  unfold takeUnit
  rw [hready, apply_ite (freeStage j u.stage)]
  simp only [hred, hclip, unitTaken]
  rfl

theorem takeUnit_of_no_clip_leaves (hclip : s.rcd.clip = none) : (takeUnit j s).rcd.clip = s.rcd.clip ∧
    (takeUnit j s).rcd.map = s.rcd.map ∧ (takeUnit j s).rcd.ssds = s.rcd.ssds := by
  rw [takeUnit_of_no_clip hred hready hclip]
  split
  · exact ⟨rfl, rfl, rfl⟩
  · exact ⟨rfl, rfl, rfl⟩

theorem recStream_takeUnit_of_no_clip (hclip : s.rcd.clip = none) (hj : j < s.rcd.streams.length) :
    recStream j (takeUnit j s) = { recStream j s with
      ready := rest, stageUsed := (recStream j s).stageUsed - u.stage
      preroll := if prerollBytes s.cfg.accepted j = 0 then (recStream j s).preroll
        else trimUnits (prerollBytes s.cfg.accepted j) ((recStream j s).preroll ++ [{ u with stage := 0 }]) } := by
  have htaken : j < (unitTaken j rest s).rcd.streams.length := (modAt_length ..).symm ▸ hj
  rw [takeUnit_of_no_clip hred hready hclip, freeStage]
  split
  · rw [recStream_modRecStream htaken, unitTaken, recStream_modRecStream hj]
  · rw [recStream_modRecStream ((modAt_length ..).symm ▸ htaken), recStream_modRecStream htaken, unitTaken,
      recStream_modRecStream hj]

/-- In a clip the unit is written when it is of the clip's range and can be decoded from there on (R320, R321). -/
theorem takeUnit_of_clip (hclip : s.rcd.clip = some c) : takeUnit j s =
    if c.ending = none ∧ inClip c j u s = true ∧ (cfgN F.REC_KIND j s ≠ 1 ∨ u.idr = true ∨ (recStream j s).open_ = true) then
      writeUnit c j u (modRecStream j (fun x => { x with open_ := true }) (unitTaken j rest s))
    else freeStage j u.stage (unitTaken j rest s) := by
  have hcond : (c.ending.isSome || !inClip c j u s || !(cfgN F.REC_KIND j s != 1 || u.idr || (recStream j s).open_)) = true ↔
      ¬ (c.ending = none ∧ inClip c j u s = true ∧
        (cfgN F.REC_KIND j s ≠ 1 ∨ u.idr = true ∨ (recStream j s).open_ = true)) := by
    cases c.ending <;> simp [imp_iff_not_or, and_assoc]
  unfold takeUnit
  rw [hready]
  simp only [hred, hclip, hcond, ite_not, unitTaken]
  rfl

end

/-! ### Durability points (R344) -/

section
variable {s : State}

theorem durabilityPoint_begins (hon : recOn s = true) (hvol : s.rcd.volume = 2) (hclip : s.rcd.clip = none) :
    exec .durabilityPoint s = .next (beginPoint s) := by
  simp [exec, execDurabilityPoint, hon, hvol, checkStop_of_no_clip hclip]

theorem durabilityPoint_off (hon : recOn s = false) : exec .durabilityPoint s = .next s := by
  simp [exec, execDurabilityPoint, hon]

theorem beginPoint_later (h : s.rcd.phase ≠ .idle) : beginPoint s = modRec (fun r => { r with pointDue := true }) s := if_pos h

/-- A point has taken the written positions, and its Flush commands are not sent yet (R344 step 1). -/
def pointTaken (s : State) : State :=
  modRec (fun r => { r with
    phase := .flushing, waiting := r.members.length, phaseFrom := r.nextCmd, pointTod := nowTod s, taken := r.streams.map (·.written)
    takenDig := (r.clip.map fun c => ((c.digOpen.map (·.2)).foldl min c.dig.bytes)).getD 0
    clip := r.clip.map fun c => { c with final := c.ending.isSome && drained s } }) s

theorem beginPoint_flushes (hidle : s.rcd.phase = .idle) (hmem : s.rcd.members ≠ []) (hok : membersOk s = true) :
    beginPoint s = sendAll (fun _ => .flush) (pointTaken s) := by
  simp [beginPoint, hidle, hmem, hok, pointTaken]

end

/-! ### Reads of a playback (R356, R357) -/

section
variable {m dst : Nat} {ok : Bool} {l b : List Byte} {p : Playback} {s : State}

/-- The reads of a playback that members have taken: number and member. -/
def playReads (m : Nat) (s : State) : List (Nat × Nat) :=
  s.rcd.members.flatMap fun k => ((ssdOf k s).cmds.filter fun c => isPlayRead m c.op && ssdIssued (ssdOf k s) c).map fun c => (c.id, k)

theorem playbackReadComplete_off (hon : recOn s = false) : exec (.playbackReadComplete m ok) s = .next s := by
  simp [exec, execPlaybackReadComplete, hon]

theorem playbackReadComplete_oldest {id k : Nat} (hon : recOn s = true)
    (h : (playReads m s).find? (fun p => (playReads m s).all fun q => decide (p.1 ≤ q.1)) = some (id, k)) :
    exec (.playbackReadComplete m ok) s = .next (completeSsd k id ok s) := by
  unfold playReads at h
  simp only [exec, execPlaybackReadComplete, hon, h]
  rfl

theorem playbackReadComplete_none (hon : recOn s = true) (h : playReads m s = []) :
    exec (.playbackReadComplete m ok) s = .next (playPump m s) := by
  unfold playReads at h
  simp only [exec, execPlaybackReadComplete, hon, h]
  rfl

theorem modPlay_play_proj {β : Type} {g : Playback → β} {f : Playback → Playback} (h : ∀ x, g (f x) = g x) (n k : Nat) (s : State) :
    g ((modPlay n f s).rcd.plays.getD k {}) = g (s.rcd.plays.getD k {}) := getD_modAt_proj h _ _ _ _

theorem playPump_idle (h : (s.rcd.plays.getD m {}).state ≠ 1) : playPump m s = s := if_pos h

variable (hp : s.rcd.plays.getD m {} = p) (hplay : p.state = 1)
include hp hplay

/-- A read of a playback has come back. -/
def readBack (m : Nat) (s : State) : State := modPlay m (fun x => { x with left := x.left - 1 }) s

theorem playRead_fails : playRead m false dst l s = raise 2 0x090B m []
    (modPlay m (fun x => { x with state := 3, failures := wrapInc 32 x.failures, pieces := [], buf := none }) (readBack m s)) := by
  simp [playRead, hp, hplay, readBack, -List.getD_eq_getElem?_getD]

theorem playRead_more (hb : p.buf = some b) (hmore : p.pieces ≠ [] ∨ 1 < p.left) : playRead m true dst l s =
    playPump m (modPlay m (fun x => { x with buf := some (overlay b dst l) }) (readBack m s)) := by
  simp [playRead, hp, hplay, hb, hmore, readBack, -List.getD_eq_getElem?_getD]

theorem playRead_whole (hb : p.buf = some b) (hpieces : p.pieces = []) (hleft : p.left ≤ 1) : playRead m true dst l s =
    playPump m (feedDecoder m (overlay b dst l) (p.at_ + 1 == p.entries) (modPlay m (fun x => { x with
      at_ := x.at_ + 1, lastNum := fieldAt (tableEntry p.table p.at_ (readBack m s)) 0 8, units := wrapInc 32 x.units
      state := if p.at_ + 1 == p.entries then 2 else 1, buf := none }) (readBack m s))) := by
  simp [playRead, hp, hplay, hb, hpieces, hleft, readBack, -List.getD_eq_getElem?_getD]

/-- A unit that the ring has no room for is not begun. -/
theorem playPump_waits (hpieces : p.pieces = []) (hb : p.buf = none)
    (hroom : cfgN F.CODEC_STRM_RING_BYTES m s < (decOf m s).input.length + fieldAt (tableEntry p.table p.at_ s) 0x18 4) :
    playPump m s = modPlay m (fun x => { x with pieces := [] }) s := by
  simp [playPump, hp, hplay, hb, hpieces, hroom, askPieces, -List.getD_eq_getElem?_getD]

end

/-- Settles O44: the state selects the branch of each event, and what is sent or taken on the way leaves the fields named. -/
theorem recorderUnits : Obligations.RecorderUnits := by
  unfold Obligations.RecorderUnits
  refine ⟨fun _ _ => recordUnitComplete_off, fun _ _ => recordUnitComplete_waits, ?preroll, ?clip, ?later, ?flush,
    fun _ => durabilityPoint_off, ?reads, fun _ _ _ => playbackReadComplete_off, ?playback, ?room⟩
  case preroll =>
    intro j u rest s hon hred hready hh hclip hj
    have hred' := (redOn_dealUnits s).trans hred
    have hclip' := (dealUnits_clip s).trans hclip
    have hready' : (recStream j (dealUnits s)).ready = u :: rest := by rwa [recStream_dealUnits]
    obtain ⟨hclip'', hmap, hssds⟩ := takeUnit_of_no_clip_leaves hred' hready' hclip'
    have hstream := recStream_takeUnit_of_no_clip hred' hready' hclip' (by rwa [dealUnits_streams])
    rw [recStream_dealUnits, dealUnits_cfg] at hstream
    have hstop : checkStop (dealUnits (takeUnit j (dealUnits s))) = dealUnits (takeUnit j (dealUnits s)) :=
      checkStop_of_no_clip ((dealUnits_clip _).trans (hclip''.trans hclip'))
    refine ⟨dealUnits (takeUnit j (dealUnits s)), by rw [recordUnitComplete_takes hon hh, hstop], ?_, ?_, ?_,
      (dealUnits_map _).trans (hmap.trans (dealUnits_map s)), (dealUnits_ssds _).trans (hssds.trans (dealUnits_ssds s))⟩
    · rw [recStream_dealUnits, hstream]
    · rw [recStream_dealUnits, hstream]
    · rw [recStream_dealUnits, hstream]
  case clip =>
    intro j u rest c s hon hred hready hh hclip v
    have hv : v = unitTaken j rest (dealUnits s) := rfl
    clear_value v
    subst hv
    have hready' : (recStream j (dealUnits s)).ready = u :: rest := by rwa [recStream_dealUnits]
    have htake := takeUnit_of_clip ((redOn_dealUnits s).trans hred) hready' ((dealUnits_clip s).trans hclip)
    have hkind : cfgN F.REC_KIND j (dealUnits s) = cfgN F.REC_KIND j s := cfgN_of_cfg (dealUnits_cfg s) ..
    rw [recordUnitComplete_takes hon hh, htake, unitTaken_open, unitTaken_inClip, hkind]
    refine ⟨fun hend hin hopens => by rw [if_pos ⟨hend, hin, hopens⟩], fun hout => ?_⟩
    rw [if_neg]
    rintro ⟨hend, hin, -⟩
    rcases hout with h | h
    · rw [hend] at h
      exact Bool.noConfusion h
    · exact Bool.noConfusion (hin.symm.trans h)
  case later =>
    intro s hon hvol hclip hphase
    rw [durabilityPoint_begins hon hvol hclip, beginPoint_later hphase]
  case flush =>
    intro s hon hvol hclip hidle hmem hok
    refine ⟨sendAll (fun _ => .flush) (pointTaken s), ?_, ?_, ?_, ?_, fun k hk hlen => ?_⟩
    · rw [durabilityPoint_begins hon hvol hclip, beginPoint_flushes hidle hmem hok]
    · exact sendAll_rec_proj (g := Recorder.phase) (fun _ _ _ => rfl) _ _
    · exact sendAll_rec_proj (g := Recorder.waiting) (fun _ _ _ => rfl) _ _
    · exact sendAll_rec_proj (g := Recorder.taken) (fun _ _ _ => rfl) _ _
    · exact sendAll_asks (s := pointTaken s) .flush hok hk hlen
  case reads =>
    rintro m ok l s hon rfl
    refine ⟨fun _ _ => playbackReadComplete_oldest hon, playbackReadComplete_none hon, fun hnone hidle => ?_⟩
    rw [playbackReadComplete_none hon hnone, playPump_idle hidle]
  case playback => exact fun _ _ _ _ _ _ hp hplay => ⟨playRead_fails hp hplay, playRead_more hp hplay, playRead_whole hp hplay⟩
  case room =>
    intro m p s hp hplay hpieces hb _ hroom
    rw [playPump_waits hp hplay hpieces hb hroom]
    have hbuf := modPlay_play_proj (g := Playback.buf) (f := fun x => { x with pieces := [] }) (fun _ => rfl) m m s
    exact ⟨rfl, hbuf.trans (hp ▸ hb)⟩

end Sys2Proof.Proofs

/-! PROOFS. The recorder's messages: record start and stop, playback start and stop (R321, R356, R359, R747). -/

namespace Sys2Proof.Proofs
open Sys2Proof Sys2Proof.Machine Sys2Proof.Laws

/-! ### A clip that starts (R321, R747) -/

section
variable {n : Nat} {start : Tod} {s : State}

@[simp] theorem dealUnits_mbx (s : State) : (dealUnits s).mbx = s.mbx := dealUnits_proj (g := State.mbx) (fun _ _ => rfl) s

theorem prerollUnits_mbx (c : Clip) (s : State) : (prerollUnits c s).mbx = s.mbx := modRec_mbx ..

theorem putClip_mbx (l : List Byte) (s : State) : (putClip n l s).mbx = s.mbx := modRec_mbx ..

theorem startClip_mbx (n : Nat) (start : Tod) (s : State) : (startClip n start s).mbx = s.mbx := by
  unfold startClip
  extract_lets enc key block c t u
  have ht : t.mbx = s.mbx := by
    simp only [t]
    split
    · rfl
    · rfl
  rw [dealUnits_mbx, putClip_mbx]
  simp only [u]
  rw [modRec_mbx, prerollUnits_mbx, ht]

theorem startClip_clipNext (n : Nat) (start : Tod) (s : State) : (startClip n start s).rcd.clipNext = (n + 1) % 4095 := by
  unfold startClip
  extract_lets enc key block c t u
  exact dealUnits_proj (g := fun v => v.rcd.clipNext) (fun _ _ => rfl) _

theorem startClip_clip (henc : cfgB F.SEC_ENCRYPT 0 s = false) : ∃ k, (startClip n start s).rcd.clip = some k ∧
    k.num = n ∧ k.stop = none ∧ k.key = [] ∧ k.start = start := by
  unfold startClip
  rw [henc, dealUnits_clip]
  exact ⟨_, rfl, rfl, rfl, rfl, rfl⟩

end

/-! ### A playback goes on (R356, R357) -/

section
variable {β : Type} {g : Playback → β}

theorem sendSsd_plays (port queue : Nat) (op : SsdOp) (s : State) : (sendSsd port queue op s).rcd.plays = s.rcd.plays :=
  sendSsd_rec_proj (fun _ _ _ => rfl) ..

theorem walk_plays (write : Bool) (vs : List Nat) (s : State) : (walk write vs s).rcd.plays = s.rcd.plays :=
  List.foldlRecOn (motive := fun r : Recorder => r.plays = s.rcd.plays) _ _ rfl fun _ hr _ _ => hr

/-- What a playback has, but its pieces and its reads, asking for pieces leaves. -/
theorem askPieces_play_proj (hg : ∀ x l n, g { x with pieces := l, left := n } = g x) (m k : Nat)
    (l : List (Nat × Nat × Nat × Nat)) (s : State) :
    g ((askPieces m l s).rcd.plays.getD k {}) = g (s.rcd.plays.getD k {}) := by
  induction l generalizing s with
  | nil => rfl
  | cons p l ih =>
    rw [askPieces, ih]
    split
    · exact modPlay_play_proj (fun x => hg x _ x.left) ..
    · rw [sendSsd_plays]
      exact modPlay_play_proj (fun x => hg x x.pieces _) ..

theorem playPump_play_proj (hg : ∀ x l n b, g { x with pieces := l, left := n, buf := b } = g x) (m k : Nat) (s : State) :
    g ((playPump m s).rcd.plays.getD k {}) = g (s.rcd.plays.getD k {}) := by
  unfold playPump
  extract_lets p e len o gs t l
  split
  · rfl
  · have ht : g (t.rcd.plays.getD k {}) = g (s.rcd.plays.getD k {}) := by
      simp only [t]
      split
      · rfl
      · split
        · rfl
        · refine (modPlay_play_proj (fun x => hg x _ x.left _) ..).trans ?_
          rw [walk_plays]
    rw [askPieces_play_proj (fun x l n => hg x l n x.buf)]
    exact (modPlay_play_proj (fun x => hg x _ x.left x.buf) ..).trans ht

end

/-! ### RECORD_START and RECORD_STOP (R321, R359) -/

/-- A row whose action refuses with class 7 leaves the state but for the answer (R679). -/
theorem runRow_refuses7 {mine : Req → Bool} {c k tag : Nat} {p : Path} {args : List Word} {s : State} {d : MsgDef}
    (ha : AtFront c p k tag args s) (hk : k < 65536) (hn : args.length < 15) (hd : msgDef k = some d)
    (hm : mine (request1 c p k tag args) = true) (hans : d.answered = true)
    (hrun : runReq (some d) (request1 c p k tag args) none (popMsg c s) = d.act (request1 c p k tag args) false (popMsg c s))
    (hact : d.act (request1 c p k tag args) false (popMsg c s) = (.refuse 7 0 0, popMsg c s)) :
    runRow mine c s = .next (refused (request1 c p k tag args) 7 0 0 (popMsg c s)) :=
  (runRow_accepts_if (q := False) (ws := []) ha hk hn hd hm hans hrun (hact.trans (if_neg id).symm) rfl).2 id

theorem runRow_accepts {mine : Req → Bool} {c k tag : Nat} {p : Path} {args : List Word} {ws : List Nat} {s u : State} {d : MsgDef}
    (ha : AtFront c p k tag args s) (hk : k < 65536) (hn : args.length < 15) (hd : msgDef k = some d)
    (hm : mine (request1 c p k tag args) = true) (hans : d.answered = true)
    (hrun : runReq (some d) (request1 c p k tag args) none (popMsg c s) = d.act (request1 c p k tag args) false (popMsg c s))
    (hact : d.act (request1 c p k tag args) false (popMsg c s) = (.accept ws, u)) (hu : u.mbx = (popMsg c s).mbx) :
    runRow mine c s = .next (replied (request1 c p k tag args) ws u) :=
  (runRow_accepts_if (q := True) ha hk hn hd hm hans hrun (hact.trans (if_pos trivial).symm) hu).1 trivial

section
variable {n : Nat} {r : Req} {tok : Bool} {s : State}

theorem recordStart_act_starts (hvol : s.rcd.volume = 2) (hclip : s.rcd.clip = none) (hn : nextClip s = some n) :
    recordStartMsg.act r tok s = (.accept [n], startClip n (todOperand 1 r s) s) := by
  simp [recordStartMsg, hvol, hclip, hn]

theorem recordStart_act_refuses (hclip : s.rcd.clip.isSome = true) : recordStartMsg.act r tok s = (.refuse 7 0 0, s) := by
  simp [recordStartMsg, hclip]

theorem recordStop_act_stops {k : Clip} (hclip : s.rcd.clip = some k) (hend : k.ending = none) : recordStopMsg.act r tok s =
    (.accept [], checkStop (modRec (fun x => { x with clip := some { k with stop := some (todOperand 1 r s) } }) s)) := by
  simp [recordStopMsg, hclip, hend]

theorem recordStop_act_refuses (hclip : s.rcd.clip = none) : recordStopMsg.act r tok s = (.refuse 7 0 0, s) := by
  simp [recordStopMsg, hclip]

theorem todOperand_popMsg (i c : Nat) (r : Req) (s : State) : todOperand i r (popMsg c s) = todOperand i r s := rfl

end

section
variable {c k tag n : Nat} {p : Path} {w1 w2 w3 : Word} {s : State}

theorem todMasks (hw : w3.toNat < 2 ^ 30) : reservedSet [0xFFFFFFFF, 0xFFFFFFFF, 0x3FFFFFFF] [w1, w2, w3] = false := by
  have h3 : w3.toNat &&& 0x3FFFFFFF = w3.toNat := and_mask (k := 30) rfl hw
  simp [reservedSet, and_full, h3]

theorem todWords_request1 (hw : w3.toNat < 2 ^ 30) : todWords 1 (request1 c p k tag [w1, w2, w3]) =
    w1.toNat + w2.toNat * 2 ^ 32 + w3.toNat * 2 ^ 64 := by
  change w1.toNat + w2.toNat * 2 ^ 32 + w3.toNat % 2 ^ 30 * 2 ^ 64 = _
  rw [Nat.mod_eq_of_lt hw]

variable (hc : c < 14) (hs : Started s) (hb : hasBlk .recorder s = true) (hw : w3.toNat < 2 ^ 30)
  (htod : todOk (w1.toNat + w2.toNat * 2 ^ 32 + w3.toNat * 2 ^ 64) = true)
include hc hs hb hw htod

/-- A request with a valid TOD of the recorder's passes the checks before its action. -/
theorem runReq_tod {d : MsgDef} (hd : d = recordStartMsg ∨ d = recordStopMsg) (ha : AtFront c p k tag [w1, w2, w3] s)
    (hk : k / 256 = 9) :
    runReq (some d) (request1 c p k tag [w1, w2, w3]) none (popMsg c s) =
      d.act (request1 c p k tag [w1, w2, w3]) false (popMsg c s) := by
  have hbad : (!todOk (todWords 1 (request1 c p k tag [w1, w2, w3]))) = false := by
    rw [todWords_request1 hw, htod]
    rfl
  rcases hd with rfl | rfl
  · exact runReq_started ha hc (by omega) (by omega) (by simp) hs hb rfl (todMasks hw) hbad rfl rfl rfl PrivRule.noConfusion
  · exact runReq_started ha hc (by omega) (by omega) (by simp) hs hb rfl (todMasks hw) hbad rfl rfl rfl PrivRule.noConfusion

theorem recordStart_starts (ha : AtFront c p 0x0901 tag [w1, w2, w3] s) (hvol : s.rcd.volume = 2) (hclip : s.rcd.clip = none)
    (hn : nextClip s = some n) :
    exec (.recordStart c) s = .next (replied (request1 c p 0x0901 tag [w1, w2, w3]) [n]
      (startClip n (todOperand 1 (request1 c p 0x0901 tag [w1, w2, w3]) s) (popMsg c s))) := by
  rw [← todOperand_popMsg 1 c]
  exact runRow_accepts ha (by decide) (by simp) rfl (isCode_front ha (by decide) (by simp)) rfl
    (runReq_tod hc hs hb hw htod (.inl rfl) ha rfl) (recordStart_act_starts (s := popMsg c s) hvol hclip hn) (startClip_mbx ..)

theorem recordStart_refused (ha : AtFront c p 0x0901 tag [w1, w2, w3] s) (hclip : s.rcd.clip.isSome = true) :
    exec (.recordStart c) s = .next (refused (request1 c p 0x0901 tag [w1, w2, w3]) 7 0 0 (popMsg c s)) :=
  runRow_refuses7 ha (by decide) (by simp) rfl (isCode_front ha (by decide) (by simp)) rfl
    (runReq_tod hc hs hb hw htod (.inl rfl) ha rfl) (recordStart_act_refuses (s := popMsg c s) hclip)

theorem recordStop_stops {k : Clip} (ha : AtFront c p 0x0902 tag [w1, w2, w3] s) (hclip : s.rcd.clip = some k)
    (hend : k.ending = none) :
    exec (.recordStop c) s = .next (replied (request1 c p 0x0902 tag [w1, w2, w3]) [] (checkStop
      (modRec (fun x => { x with clip := some { k with stop := some (todOperand 1 (request1 c p 0x0902 tag [w1, w2, w3]) s) } })
        (popMsg c s)))) := by
  rw [← todOperand_popMsg 1 c]
  exact runRow_accepts ha (by decide) (by simp) rfl (isCode_front ha (by decide) (by simp)) rfl
    (runReq_tod hc hs hb hw htod (.inr rfl) ha rfl) (recordStop_act_stops (s := popMsg c s) hclip hend)
    (mbx_of_mailFailed ((checkStop_mailFailed _).trans (modRec_mailFailed rfl)))

theorem recordStop_refused (ha : AtFront c p 0x0902 tag [w1, w2, w3] s) (hclip : s.rcd.clip = none) :
    exec (.recordStop c) s = .next (refused (request1 c p 0x0902 tag [w1, w2, w3]) 7 0 0 (popMsg c s)) :=
  runRow_refuses7 ha (by decide) (by simp) rfl (isCode_front ha (by decide) (by simp)) rfl
    (runReq_tod hc hs hb hw htod (.inr rfl) ha rfl) (recordStop_act_refuses (s := popMsg c s) hclip)

end

/-! ### PLAYBACK_START and PLAYBACK_STOP (R356, R359) -/

section
variable {c tag n j m i : Nat} {p : Path} {w w1 w2 w3 : Word} {d : List Byte} {s : State}

/-- The fields of word 1 of a playback start. -/
theorem playWord_fields {v : Nat} (h : v = n + j * 2 ^ 12 + m * 2 ^ 16) (hn : n < 4095) (hj : j < 8) (hm : m < 8) :
    bits v 11 0 = n ∧ bits v 14 12 = j ∧ bits v 18 16 = m := by
  simp only [bits]
  omega

theorem playWord_mask {v : Nat} (h : v = n + j * 2 ^ 12 + m * 2 ^ 16) (hn : n < 4095) (hj : j < 8) (hm : m < 8) :
    v &&& 0x77FFF = v := by
  have hfields : ∀ a < 8, ∀ b < 8, (a + 16 * b) &&& 0x77FFF / 2 ^ 12 = a + 16 * b := by decide
  have hhigh : v / 2 ^ 12 = j + 16 * m := by omega
  have hlow : v % 2 ^ 12 &&& 0x77FFF % 2 ^ 12 = v % 2 ^ 12 := and_mask (k := 12) rfl (Nat.mod_lt _ (by decide))
  calc v &&& 0x77FFF = 2 ^ 12 * ((v &&& 0x77FFF) / 2 ^ 12) + (v &&& 0x77FFF) % 2 ^ 12 := (Nat.div_add_mod ..).symm
    _ = 2 ^ 12 * (v / 2 ^ 12) + v % 2 ^ 12 := by
      rw [Nat.and_div_two_pow, Nat.and_mod_two_pow, hlow, hhigh, hfields j hj m hm]
    _ = v := Nat.div_add_mod ..

/-- The frame-table entry of a stream descriptor at which a playback may begin: the first key frame from `num` on (R356). -/
def firstKey (d : List Byte) (num : Nat) (s : State) : Option Nat :=
  (List.range (fieldAt d 0x18 8)).find? fun k =>
    decide (num ≤ fieldAt (tableEntry (dirChain d 8 s) k s) 0 8) &&
      fieldAt (tableEntry (dirChain d 8 s) k s) 0xC 4 / 256 % 2 == 1

/-- A playback before its first reads. -/
def playbackBegun (n j m i : Nat) (d : List Byte) (s : State) : State :=
  modPlay m (fun x => { x with
    state := 1, clip := n, stream := j, at_ := i, entries := fieldAt d 0x18 8, data := dirChain d 4 s, table := dirChain d 8 s
    lastNum := 0, units := 0, pieces := [], buf := none }) s

theorem playbackStart_act {r : Req} {tok : Bool} (hn : bits (r.w 1) 11 0 = n) (hj : bits (r.w 1) 14 12 = j)
    (hm : bits (r.w 1) 18 16 = m) (hon : decOn m s = true) (hsrc : cfgB F.CODEC_PIC_DEC_SRC m s = true)
    (hidle : (s.rcd.plays.getD m {}).state ≠ 1) (hdir : dirState s.rcd.dir n ≠ 0) (hclip : s.rcd.clip = none)
    (hplain : fieldAt ((s.rcd.dir.lookup n).getD []) 0x3C 4 % 2 = 0)
    (hd : d = slice ((s.rcd.dir.lookup n).getD []) (0x40 + 64 * j) 64) (hactive : bits (fieldAt d 0 4) 31 31 = 1)
    (hcoded : bits (fieldAt d 0 4) 30 28 = 1) (hvol : s.rcd.volume ≠ 0)
    (hkey : firstKey d (r.w 2 + r.w 3 * 2 ^ 32) s = some i) :
    playbackStartMsg.act r tok s =
      (.accept (loWords 2 (fieldAt (tableEntry (dirChain d 8 s) i s) 0 8)), playPump m (playbackBegun n j m i d s)) := by
  subst hd
  unfold firstKey at hkey
  simp only [playbackStartMsg, hn, hj, hm, hon, hsrc, hclip, hplain, hactive, hcoded, hkey]
  simp [hidle, hdir, hvol, playbackBegun, -List.getD_eq_getElem?_getD]

variable (hc : c < 14) (hs : Started s) (hb : hasBlk .recorder s = true)
include hc hs hb

theorem playbackStop_outcome (ha : AtFront c p 0x0907 tag [w] s) (hw : w.toNat < 8) :
    ((s.rcd.plays.getD w.toNat {}).state = 1 → exec (.playbackStop c) s = .next (replied (request1 c p 0x0907 tag [w]) []
      (flushDecoder w.toNat (modPlay w.toNat (fun y => { y with state := 0, pieces := [], buf := none }) (popMsg c s))))) ∧
    (¬ (s.rcd.plays.getD w.toNat {}).state = 1 →
      exec (.playbackStop c) s = .next (refused (request1 c p 0x0907 tag [w]) 7 0 0 (popMsg c s))) := by
  refine runRow_accepts_if (d := playbackStopMsg) ha (by decide) (by simp) rfl (isCode_front ha (by decide) (by simp)) rfl
    (runReq_started ha hc (by decide) (by decide) (by simp) hs hb rfl (reservedSet_mask (and_mask (k := 3) rfl hw)) rfl rfl rfl
      rfl PrivRule.noConfusion) ?_ rfl
  exact ite_not _ _ _

theorem playbackStart_begins (ha : AtFront c p 0x0906 tag [w1, w2, w3] s) (hw : w1.toNat = n + j * 2 ^ 12 + m * 2 ^ 16)
    (hn : n < 4095) (hj : j < 8) (hm : m < 8) {ws : List Nat} {u : State}
    (hact : playbackStartMsg.act (request1 c p 0x0906 tag [w1, w2, w3]) false (popMsg c s) = (.accept ws, u))
    (hu : u.mbx = (popMsg c s).mbx) :
    exec (.playbackStart c) s = .next (replied (request1 c p 0x0906 tag [w1, w2, w3]) ws u) := by
  obtain ⟨hfn, -, -⟩ := playWord_fields hw hn hj hm
  have hbad : playbackStartMsg.bad (request1 c p 0x0906 tag [w1, w2, w3]) (popMsg c s) = false := by
    change (bits w1.toNat 11 0 == 4095) = false
    rw [hfn]
    exact beq_false_of_ne hn.ne
  exact runRow_accepts (d := playbackStartMsg) ha (by decide) (by simp) rfl (isCode_front ha (by decide) (by simp)) rfl
    (runReq_started ha hc (by decide) (by decide) (by simp) hs hb rfl
      (reservedSet_mask (playWord_mask hw hn hj hm)) hbad rfl rfl rfl PrivRule.noConfusion) hact hu

end

/-- Settles O31: each request passes R809's checks, its action looks at the clip or the playback, and what goes on after it
leaves the mailboxes and what the statement names. -/
theorem recorderMessages : Obligations.RecorderMessages := by
  unfold Obligations.RecorderMessages
  refine ⟨?start, ?stop, ?play, ?playStop⟩
  case start =>
    intro n c tag w1 w2 w3 p s hc ha hs hb hw htod hvol
    refine ⟨fun hclip hn henc => ?_, recordStart_refused hc hs hb hw htod ha⟩
    exact ⟨_, recordStart_starts hc hs hb hw htod ha hvol hclip hn, startClip_clipNext .., startClip_clip henc⟩
  case stop =>
    intro c tag w1 w2 w3 p s hc ha hs hb hw htod
    exact ⟨fun k => recordStop_stops hc hs hb hw htod ha, recordStop_refused hc hs hb hw htod ha⟩
  case play =>
    intro n j m c tag i w1 w2 w3 d p s hc ha hs hb hw hn hj hm hon hsrc hidle hdir hclip hplain hd hactive hcoded hvol hlen hkey
    obtain ⟨hfn, hfj, hfm⟩ := playWord_fields hw hn hj hm
    have hact := playbackStart_act (s := popMsg c s) (r := request1 c p 0x0906 tag [w1, w2, w3]) (tok := false) hfn hfj hfm hon hsrc
      hidle hdir hclip hplain hd hactive hcoded hvol hkey
    have hbegun : (playbackBegun n j m i d (popMsg c s)).rcd.plays.getD m {} = _ := getD_modAt _ _ _ _ hlen
    refine ⟨_, playbackStart_begins hc hs hb ha hw hn hj hm hact (playPump_mbx ..), ?_, ?_, ?_, ?_⟩
    · rw [playPump_play_proj (g := Playback.state) (fun _ _ _ _ => rfl), hbegun]
    · rw [playPump_play_proj (g := Playback.clip) (fun _ _ _ _ => rfl), hbegun]
    · rw [playPump_play_proj (g := Playback.stream) (fun _ _ _ _ => rfl), hbegun]
    · rw [playPump_play_proj (g := Playback.at_) (fun _ _ _ _ => rfl), hbegun]
  case playStop => exact fun c tag w p s hc ha hs hb hw => playbackStop_outcome hc hs hb ha hw

end Sys2Proof.Proofs

/-! PROOFS. The mailboxes' queues, registers, timers and bulk window (R386, R680 to R692). -/

namespace Sys2Proof.Proofs
open Sys2Proof Sys2Proof.Machine Sys2Proof.Laws

section
variable {v : View} {c : Nat} {s : State}

/-! ### Registers of a view -/

@[simp] theorem modView_chans (v : View) (c : Nat) (f : ViewRegs → ViewRegs) (s : State) :
    (modView v c f s).mbx.chans = s.mbx.chans := by
  cases v <;> rfl

theorem viewRegs_modView (hp : c < s.mbx.pcie.length) (hs : c < s.mbx.spi.length) (v : View) (f : ViewRegs → ViewRegs) :
    viewRegs v c (modView v c f s) = f (viewRegs v c s) := by
  cases v
  · exact getD_modAt _ _ _ _ hp
  · exact getD_modAt _ _ _ _ hs

/-- A write in a channel's part of the layout does what the register at its offset does (R386). -/
theorem registerWrite_layout (hon : viewOn v s = true) (hc : c < 16) {o : Nat} (ho : o < 0x100) (w : Word) :
    exec (.registerWrite v (0x100 * c + o) w) s = .next (
      if o < 0x20 ∧ o % 4 = 0 then modView v c (fun r => { r with tx := modAt r.tx (o / 4) fun _ => w }) s
      else if o = 0x20 then (if w.toNat % 2 = 1 then postFrom v c s else s)
      else if o = 0x60 then (if w.toNat % 2 = 1 then ackFrom v c s else s)
      else if o = 0x64 then modView v c (fun r => { r with irqEn := w.toNat % 2 == 1 }) s
      else s) := by
  have hchan : (0x100 * c + o) / 0x100 = c := by omega
  have hoff : (0x100 * c + o) % 0x100 = o := by omega
  have hwin : ¬ 0x100000 ≤ 0x100 * c + o := by omega
  have hrange : ¬ 16 ≤ c := by omega
  simp only [exec, execRegisterWrite, hon, hchan, hoff, if_neg hwin, if_neg hrange, Bool.not_true, Bool.false_eq_true, if_false]

/-! ### Messages that enter an inbound queue (R386, R680, R684) -/

theorem post_posts (hon : viewOn v s = true) (hc : c < 16) : exec (.post v c) s = .next (postFrom v c s) := by
  simp [exec, execPost, hon, hc]

theorem registerWrite_posts (hon : viewOn v s = true) (hc : c < 16) :
    exec (.registerWrite v (0x100 * c + 0x20) 1) s = .next (postFrom v c s) :=
  registerWrite_layout hon hc (by decide) 1

theorem postFrom_fits (h : inWords c s + (postWords (viewRegs v c s).tx).length ≤ 8) :
    postFrom v c s = enqueue c (.regs v) (postWords (viewRegs v c s).tx) (modView v c (fun r => { r with refused := false }) s) :=
  if_neg (by omega)

theorem postFrom_refused (h : 8 < inWords c s + (postWords (viewRegs v c s).tx).length) :
    postFrom v c s = modView v c (fun r => { r with refused := true }) s :=
  if_pos h

/-- A change of one channel leaves the others. -/
theorem modChan_ne {n : Nat} (hn : n ≠ c) (f : Chan → Chan) (s : State) :
    (modChan c f s).mbx.chans.getD n {} = s.mbx.chans.getD n {} := by
  simp [modChan, modAt, hn.symm]

theorem enqueue_inq (hc : c < s.mbx.chans.length) (p : Path) (ws : List Word) :
    ((enqueue c p ws s).mbx.chans.getD c {}).inq = (s.mbx.chans.getD c {}).inq ++ [⟨p, ws⟩] := by
  unfold enqueue modChan
  exact congrArg Chan.inq (getD_modAt {} (fun ch : Chan => { ch with inq := ch.inq ++ [⟨p, ws⟩] }) _ _ hc)

theorem inWords_enqueue (hc : c < s.mbx.chans.length) (p : Path) (ws : List Word) :
    inWords c (enqueue c p ws s) = inWords c s + ws.length := by
  rw [inWords, enqueue_inq hc]
  simp [inWords]

theorem postFrom_outcome (hc : c < s.mbx.chans.length) :
    (inWords c s + (postWords (viewRegs v c s).tx).length ≤ 8 →
      ((postFrom v c s).mbx.chans.getD c {}).inq =
        (s.mbx.chans.getD c {}).inq ++ [⟨.regs v, postWords (viewRegs v c s).tx⟩] ∧ inWords c (postFrom v c s) ≤ 8) ∧
    (8 < inWords c s + (postWords (viewRegs v c s).tx).length → (postFrom v c s).mbx.chans = s.mbx.chans) ∧
    ∀ n, n ≠ c → ((postFrom v c s).mbx.chans.getD n {}).inq = (s.mbx.chans.getD n {}).inq := by
  have hlen : ∀ f, c < (modView v c f s).mbx.chans.length := fun f => by rwa [modView_chans]
  have hwords : ∀ f, inWords c (modView v c f s) = inWords c s := fun f => by rw [inWords, modView_chans, inWords]
  refine ⟨fun h => ?fits, fun h => ?refused, fun n hn => ?others⟩
  case fits =>
    rw [postFrom_fits h, inWords_enqueue (hlen _), enqueue_inq (hlen _), hwords, modView_chans]
    exact ⟨rfl, h⟩
  case refused => rw [postFrom_refused h, modView_chans]
  case others =>
    rcases le_or_gt (inWords c s + (postWords (viewRegs v c s).tx).length) 8 with h | h
    · rw [postFrom_fits h, enqueue, modChan_ne hn, modView_chans]
    · rw [postFrom_refused h, modView_chans]

/-! ### Datagrams (R478, R684, R686) -/

section
variable {mac ip port : Nat} {words : List Word} (hon : macOn mac s = true) (hup : (s.out.macs.getD mac {}).up = true)
  (hport : cfgN F.ETH_MBX_UDP_PORT mac s ≠ 0) (hc : c < 16)
include hon hup hport hc

/-- A datagram to a MAC in use with its mailbox ports is dropped without a route, refused without room, and else queued. -/
theorem mailboxDatagram_arrives (hw : words ≠ []) : exec (.mailboxDatagram mac ip port c words) s = .next (
    if hasRoute mac ip s = false then
      raise 0 0x1404 noInst [] (modMbx (fun m => { m with droppedUdp := satInc 32 m.droppedUdp }) s)
    else if 8 < inWords c s + words.length then refuseUdp (.udp ip port) c words s
    else enqueue c (.udp ip port) words s) := by
  simp [exec, execMailboxDatagram, hon, hup, hport, hc, hw, -List.getD_eq_getElem?_getD]

end

end

/-- Settles O24: a post and a write of the post bit run one operation, and each datagram takes the branch that its route and the
queue's room select. -/
theorem mailboxQueues : Obligations.MailboxQueues := by
  unfold Obligations.MailboxQueues
  refine ⟨?post, ?datagram⟩
  case post => exact fun v c s hon hc hlen => ⟨_, post_posts hon hc, registerWrite_posts hon hc, postFrom_outcome hlen⟩
  case datagram =>
    intro mac ip port c words s hon hup hport hc hw
    rw [mailboxDatagram_arrives hon hup hport hc hw]
    refine ⟨fun hroute hfit => ?queued, fun hroute hfull => ?refused, fun hroute => ?dropped⟩
    case queued => rw [if_neg (by simp [hroute]), if_neg (by omega)]; rfl
    case refused => rw [if_neg (by simp [hroute]), if_pos hfull]; rfl
    case dropped => rw [if_pos hroute]; rfl

end Sys2Proof.Proofs

/-! PROOFS. Acknowledgements, timers and wakes of the mailboxes, and the bulk window (R386, R681 to R692). -/

namespace Sys2Proof.Proofs
open Sys2Proof Sys2Proof.Machine Sys2Proof.Laws

/-! ### Acknowledgements (R386, R682) -/

section
variable {v : View} {c : Nat} {s : State}

@[simp] theorem viewRegs_endRun (code inst : Nat) (s : State) : viewRegs v c (endRun code inst s) = viewRegs v c s := by
  cases v <;> rfl

theorem ack_takes (hon : viewOn v s = true) (hc : c < 16) : exec (.ack v c) s = .next (ackFrom v c s) := by
  simp [exec, execAck, hon, hc]

theorem registerWrite_acks (hon : viewOn v s = true) (hc : c < 16) :
    exec (.registerWrite v (0x100 * c + 0x60) 1) s = .next (ackFrom v c s) :=
  registerWrite_layout hon hc (by decide) 1

theorem ackFrom_chans (v : View) (c : Nat) (s : State) : (ackFrom v c s).mbx.chans = s.mbx.chans := by
  unfold ackFrom
  dsimp only
  split
  · rw [endRun_mbx, modView_chans]
  · exact modView_chans ..

/-- The oldest reply goes, and as many held replies as there are try to follow. -/
theorem viewRegs_ackFrom (hp : c < s.mbx.pcie.length) (hs : c < s.mbx.spi.length) :
    viewRegs v c (ackFrom v c s) =
      placeHeld (viewRegs v c s).waiting.length { viewRegs v c s with outq := (viewRegs v c s).outq.drop 1 } := by
  unfold ackFrom
  dsimp only
  rw [apply_ite (viewRegs v c), viewRegs_endRun, ite_self, viewRegs_modView hp hs]

theorem placeHeld_one {r : ViewRegs} {h : List Word} (hq : r.outq = []) (hw : r.waiting = [h]) (hlen : h.length ≤ 8) :
    (placeHeld 1 r).outq = [h] ∧ (placeHeld 1 r).waiting = [] := by
  simp [placeHeld, hq, hw, queueWords, hlen]

theorem registerWrite_stores (hon : viewOn v s = true) (hc : c < 16) {k : Nat} (hk : k < 8) (w : Word) :
    exec (.registerWrite v (0x100 * c + 4 * k) w) s = .next (modView v c (fun r => { r with tx := modAt r.tx k fun _ => w }) s) := by
  have hoff : 4 * k / 4 = k := by omega
  rw [registerWrite_layout hon hc (by omega) w, if_pos (by omega), hoff]

/-! ### Timers and wakes (R682, R683, R692) -/

theorem replyHoldExpiry_discards {m : List Word} {q : List (List Word)} (h : (viewRegs v c s).waiting = m :: q) :
    exec (.replyHoldExpiry v c) s = .next (raiseOnce 0 0x1402 c []
      (modChan c (fun ch => { ch with discarded := wrapInc 32 ch.discarded })
        (modView v c (fun r => { r with waiting := r.waiting.drop 1 }) s))) := by
  simp [exec, execReplyHoldExpiry, h]

end

@[simp] theorem deliver_log (p : Path) (c : Nat) (ws : List Word) (s : State) : (deliver p c ws s).log = s.log := by
  unfold deliver
  cases p with
  | regs v =>
    dsimp only
    rw [apply_ite State.log, modView_log, ite_self]
  | _ => rfl

/-- The sequence of a path is gone from its channel once it is removed. -/
theorem openSeq_dropSeq (c : Nat) (p : Path) (s : State) : openSeq c p (dropSeq c p s) = none := by
  have hheld : ((dropSeq c p s).mbx.chans.getD c {}).held = ((s.mbx.chans.getD c {}).held).filter fun q => q.path != p := by
    unfold dropSeq modChan
    rcases Nat.lt_or_ge c s.mbx.chans.length with h | h
    · exact congrArg Chan.held (getD_modAt {} (fun ch : Chan => { ch with held := ch.held.filter fun q => q.path != p }) _ _ h)
    · simp [modAt, h]
  unfold openSeq
  rw [hheld]
  simp

/-- The held request of a sequence that ends early is refused with class 4: it is counted, logged and answered (R692, R695). -/
theorem endSeq_open {c : Nat} {p : Path} {q : TokenSeq} {s : State} (h : openSeq c p s = some q) :
    endSeq c p s = deliver p c (replyWords (q.req.getD 0 0).toNat refuse4) (raise 0 0x1403 noInst []
      (modChan c (fun ch => { ch with handled := wrapInc 32 ch.handled, refusals := wrapInc 32 ch.refusals,
                                      tokensRefused := wrapInc 32 ch.tokensRefused }) (dropSeq c p s))) := by
  unfold endSeq
  rw [h]
  rfl

theorem openSeq_endSeq {c : Nat} {p : Path} {q : TokenSeq} {s : State} (h : openSeq c p s = some q) :
    openSeq c p (endSeq c p s) = none := by
  rw [endSeq_open h, ← openSeq_dropSeq c p s]
  refine openSeq_congr ?_
  rw [deliver_chans, raise_mbx]
  exact modChan_held (f := fun ch => { ch with
    handled := wrapInc 32 ch.handled, refusals := wrapInc 32 ch.refusals
    tokensRefused := wrapInc 32 ch.tokensRefused }) (fun _ => rfl) ..

theorem wakeComplete_serves {c recv : Nat} {s : State} (hh : handling s = true) (hr : receiverOf c s = recv) :
    ∃ t, exec (.wakeComplete recv) s = .next t ∧ serves c t = true := by
  refine ⟨_, rfl, ?_⟩
  have hhandling : handling (modMbx (fun m => { m with asleep := m.asleep.filter fun r => r != recv }) s) = true := hh
  have hrecv : receiverOf c (modMbx (fun m => { m with asleep := m.asleep.filter fun r => r != recv }) s) = recv := hr
  rw [serves, hhandling, hrecv]
  simp [modMbx]

/-! ### The bulk window (R689, R690) -/

/-- Bytes stored at consecutive keys: each key of the store finds its byte, every other what it found before. -/
theorem lookup_setCells (a x : Nat) (l : List Byte) (m : List Host.Cell) :
    (setCells a l m).lookup x = if a ≤ x ∧ x < a + l.length then some (l.getD (x - a) 0) else m.lookup x := by
  induction l generalizing a m with
  | nil => rw [if_neg (by simp)]; rfl
  | cons b r ih =>
    rw [setCells, ih, lookup_putKey, List.length_cons]
    by_cases hx : x = a
    · subst hx; simp
    · by_cases hin : a + 1 ≤ x ∧ x < a + 1 + r.length
      · rw [if_pos hin, if_pos (by omega), show x - a = (x - (a + 1)) + 1 by omega]
        simp
      · rw [if_neg hin, if_neg hx, if_neg (by omega)]

theorem bulkByte_writeBulk {off : Nat} {l : List Byte} (h : off + l.length ≤ 0x100000) (a : Nat) (s : State) :
    bulkByte (writeBulk off l s) a = if off ≤ a ∧ a < off + l.length then l.getD (a - off) 0 else bulkByte s a := by
  have hcells : (writeBulk off l s).mbx.bulk = setCells off l s.mbx.bulk := by
    rw [writeBulk, List.take_of_length_le (by omega)]
  rw [bulkByte, hcells, lookup_setCells]
  split <;> rfl

theorem readBulk_writeBulk {off : Nat} {l : List Byte} (h : off + l.length ≤ 0x100000) (s : State) :
    readBulk off l.length (writeBulk off l s) = l := by
  refine List.ext_getElem (by simp [readBulk]) fun i _ hi => ?_
  simp [readBulk, bulkByte_writeBulk h, hi]

section
variable {v : View} {off : Nat} {data : List Byte} {s : State} (hon : viewOn v s = true) (hoff : off < 0x100000)
  (hlen : v = .spi ∨ data.length ≤ 512)
include hon hoff hlen

/-- A write into the window of a view that can be reached is stored for the holder, and counted for another path. -/
theorem bulkWindowWrite_reaches : exec (.bulkWindowWrite v off data) s = .next (
    if holdsBulk (.regs v) s then writeBulk off data s
    else modMbx (fun m => { m with ignoredWrites := satInc 32 m.ignoredWrites }) s) := by
  have hfits : (v == View.pcie && decide (512 < data.length)) = false := by
    rcases hlen with rfl | hlen
    · rfl
    · simp [hlen]
  simp only [exec, execBulkWindowWrite, hon, hfits]
  simp [hoff]

end

/-- Settles O25: each event takes the branch that its hypotheses select, and what it stores is read back. -/
theorem mailboxEvents : Obligations.MailboxEvents := by
  unfold Obligations.MailboxEvents
  refine ⟨?ack, ?follow, fun v c k w s hon hc hk => registerWrite_stores hon hc hk w, fun _ _ _ _ _ h => replyHoldExpiry_discards h,
    ?sequence, fun _ _ _ hh hr => wakeComplete_serves hh hr, fun _ => rfl, ?holder, ?other⟩
  case ack =>
    intro v c m q s hon hc hp hs hq hw
    refine ⟨_, ack_takes hon hc, registerWrite_acks hon hc, ?_, ackFrom_chans ..⟩
    rw [viewRegs_ackFrom hp hs, hw, hq]
    rfl
  case follow =>
    intro v c m h s hon hc hp hs hq hw hlen
    refine ⟨_, ack_takes hon hc, ?_⟩
    rw [viewRegs_ackFrom hp hs, hw, hq]
    exact placeHeld_one rfl hw hlen
  case sequence =>
    intro c p q s h
    refine ⟨_, rfl, openSeq_endSeq h, ?_⟩
    rw [endSeq_open h, deliver_log]
    exact raise_log_next_congr (by rfl) (by rfl) ..
  case holder =>
    intro v off data s hon hend hpos hlen hholds
    refine ⟨_, bulkWindowWrite_reaches hon (by omega) hlen, ?_⟩
    rw [if_pos hholds]
    exact ⟨readBulk_writeBulk hend s, fun a ha => (bulkByte_writeBulk hend a s).trans (if_neg (by omega))⟩
  case other =>
    intro v off data s hon hoff hlen hholds
    rw [bulkWindowWrite_reaches hon hoff hlen, if_neg (by simp [hholds])]
    rfl

end Sys2Proof.Proofs

/-! PROOFS. The endpoint's commands: those accepted, their completion, and the queues' entries (R369, R374, R383, R385). -/

namespace Sys2Proof.Proofs
open Sys2Proof Sys2Proof.Machine Sys2Proof.Laws

section
variable {a opc : Nat} {c : HostCmd} {s : State}

/-! ### Accepted commands -/

theorem hostCmd_arrival (h : hostCmd a s = some c) : c.arrival = a := by
  simpa using List.find?_some h

/-- A row of an admin opcode runs the command that its arrival number names, and completes it with what it answers. -/
theorem runAdmin_completes {f : HostCmd → State → (Nat × Nat × List Byte) × State} {st dw0 : Nat} {data : List Byte} {t : State}
    (h : AdminCmd opc a c s) (hf : f c s = ((st, dw0, data), t)) : runAdmin opc a f s = finishCmd a st dw0 data t := by
  obtain ⟨hcmd, hsq, hopc, hdone, hready⟩ := h
  simp [runAdmin, hcmd, hsq, hopc, hdone, hready, hf]

theorem runAdmin_of_none (h : hostCmd a s = none) (f : HostCmd → State → (Nat × Nat × List Byte) × State) :
    runAdmin opc a f s = s := by
  rw [runAdmin, h]

/-- A row of an I/O opcode runs the command that its arrival number names, once it has begun and before it issues. -/
theorem runIo_runs (h : IoCmd opc a c s) (f : HostCmd → State → State) : runIo opc a f s = f c s := by
  obtain ⟨hcmd, hsq, hopc, hbegun, hissued, hdone, hready⟩ := h
  simp [runIo, hcmd, hsq, hopc, hbegun, hissued, hdone, hready]

theorem finishCmd_completes (h : hostCmd a s = some c) (hdone : c.done = false) (st dw0 : Nat) (data : List Byte) :
    finishCmd a st dw0 data s = completeOn c.sq c.cmd a st dw0 data s := by
  simp [finishCmd, h, hdone]

/-! ### What a completion leaves of the endpoint -/

section
variable {β : Type} {g : Endpoint → β}

/-- A completion that reaches its queue changes the queues, the commands and the interrupts alone. -/
theorem deliverCq_ep_proj (hg : ∀ e l m v, g { e with cqs := l, cmds := m, msix := v } = g e) (qid : Nat) (x : Completion) (s : State) :
    g (deliverCq qid x s).ep = g s.ep := by
  unfold deliverCq
  split
  · exact hg s.ep s.ep.cqs _ s.ep.msix
  · split
    · dsimp only
      split <;> exact hg s.ep _ _ _
    · exact hg s.ep _ _ s.ep.msix

theorem completeOn_ep_proj (hg : ∀ e l m v, g { e with cqs := l, cmds := m, msix := v } = g e)
    (herr : ∀ e n l, g { e with errors := n, errorLog := l } = g e) (sq : Nat) (cmd : NvmeCmd) (a st dw0 : Nat) (data : List Byte)
    (s : State) : g (completeOn sq cmd a st dw0 data s).ep = g s.ep := by
  unfold completeOn
  extract_lets u
  have hu : g u.ep = g s.ep := by
    simp only [u]
    split
    · rfl
    · exact herr s.ep _ _
  split
  · exact (deliverCq_ep_proj hg ..).trans hu
  · exact (hg u.ep u.ep.cqs _ u.ep.msix).trans hu

end

end

/-! ### Errors raised at the endpoint -/

/-- An error is raised beside the endpoint: neither sees the other. -/
theorem raise_modEp (sev code inst : Nat) (ds : List Nat) (f : Endpoint → Endpoint) (s : State) :
    raise sev code inst ds (modEp f s) = modEp f (raise sev code inst ds s) := by
  have hone : ∀ sev code inst ds (t : State), raiseOne sev code inst ds (modEp f t) = modEp f (raiseOne sev code inst ds t) :=
    fun _ _ _ _ _ => rfl
  have hrun : ∀ code inst (t : State), openRun code inst (modEp f t) = modEp f (openRun code inst t) := by
    intro code inst t
    unfold openRun
    rw [apply_ite (modEp f)]
    rfl
  unfold raise
  simp only [hone, hrun]
  exact (apply_ite (modEp f) _ _ _).symm

theorem raise_modEp_log (sev code inst : Nat) (ds : List Nat) (f : Endpoint → Endpoint) (s : State) :
    (raise sev code inst ds (modEp f s)).log = (raise sev code inst ds s).log := by
  rw [raise_modEp, modEp_log]

end Sys2Proof.Proofs

/-! PROOFS. The endpoint's admin commands and self-tests (R369 to R371, R376, R379 to R381, R385). -/

namespace Sys2Proof.Proofs
open Sys2Proof Sys2Proof.Machine Sys2Proof.Laws

section
variable {a : Nat} {c : HostCmd} {s : State}

/-! ### Queues (R369) -/

theorem any_id_eq_true {α : Type} {f : α → Nat} {l : List α} {n : Nat} (h : ∃ q ∈ l, f q = n) : (l.any fun q => f q == n) = true := by
  simpa using h

theorem any_id_eq_false {α : Type} {f : α → Nat} {l : List α} {n : Nat} (h : ∀ q ∈ l, f q ≠ n) : (l.any fun q => f q == n) = false := by
  simpa using h

theorem queueCheck_identifier {cmd : NvmeCmd} {taken : Bool}
    (h : cmd.cdw10 % 65536 = 0 ∨ cfgN F.EP0_IOQ_MAX 0 s < cmd.cdw10 % 65536 ∨ taken = true) : queueCheck cmd taken s = 0x101 :=
  if_pos h

/-- A queue with a free identifier in range, a valid size and a contiguous buffer is good. -/
theorem queueCheck_good {cmd : NvmeCmd} (hid : cmd.cdw10 % 65536 ≠ 0) (hmax : cmd.cdw10 % 65536 ≤ cfgN F.EP0_IOQ_MAX 0 s)
    (hmin : 1 ≤ cmd.cdw10 / 65536) (hsize : cmd.cdw10 / 65536 ≤ cfgN F.EP0_MQES 0 s) (hpc : cmd.cdw11 % 2 = 1)
    (hprp : cmd.prp1 % 4096 = 0) : queueCheck cmd false s = 0 := by
  have hident : ¬ (cmd.cdw10 % 65536 = 0 ∨ cfgN F.EP0_IOQ_MAX 0 s < cmd.cdw10 % 65536 ∨ false = true) := by
    simp [hid, hmax]
  have hwhole : ¬ (cmd.cdw10 / 65536 + 1 < 2 ∨ cfgN F.EP0_MQES 0 s + 1 < cmd.cdw10 / 65536 + 1) := by omega
  have hbuf : ¬ (cmd.cdw11 % 2 = 0 ∨ cmd.prp1 % 4096 ≠ 0) := by omega
  rw [queueCheck, if_neg hident, if_neg hwhole, if_neg hbuf]

theorem createIoCq_identifier (h : AdminCmd 5 a c s) (hbad : c.cmd.cdw10 % 65536 = 0 ∨
    cfgN F.EP0_IOQ_MAX 0 s < c.cmd.cdw10 % 65536 ∨ ∃ q ∈ s.ep.cqs, q.id = c.cmd.cdw10 % 65536) :
    exec (.createIoCq a) s = .next (finishCmd a 0x101 0 [] s) := by
  have hcheck := queueCheck_identifier (hbad.imp_right (Or.imp_right any_id_eq_true))
  exact congrArg Host.Outcome.next (runAdmin_completes h (by simp [hcheck, stat]))

section
variable (hid : c.cmd.cdw10 % 65536 ≠ 0) (hmax : c.cmd.cdw10 % 65536 ≤ cfgN F.EP0_IOQ_MAX 0 s) (hmin : 1 ≤ c.cmd.cdw10 / 65536)
  (hsize : c.cmd.cdw10 / 65536 ≤ cfgN F.EP0_MQES 0 s) (hpc : c.cmd.cdw11 % 2 = 1) (hprp : c.cmd.prp1 % 4096 = 0)
include hid hmax hmin hsize hpc hprp

/-- A good completion queue is created when its interrupt vector is one of the 17. -/
theorem createIoCq_good (h : AdminCmd 5 a c s) (hfree : ∀ q ∈ s.ep.cqs, q.id ≠ c.cmd.cdw10 % 65536) :
    (16 < c.cmd.cdw11 / 65536 → exec (.createIoCq a) s = .next (finishCmd a 0x108 0 [] s)) ∧
    (c.cmd.cdw11 / 65536 ≤ 16 → exec (.createIoCq a) s = .next (finishCmd a 0 0 [] (modEp (fun e => { e with
      cqs := e.cqs ++ [{ id := c.cmd.cdw10 % 65536, size := c.cmd.cdw10 / 65536 + 1, vector := c.cmd.cdw11 / 65536,
                         ien := c.cmd.cdw11 / 2 % 2 == 1 }] }) s))) := by
  have hcheck := queueCheck_good hid hmax hmin hsize hpc hprp
  have htaken := any_id_eq_false hfree
  exact ⟨fun hvec => congrArg Host.Outcome.next (runAdmin_completes h (by simp [htaken, hcheck, hvec, stat])),
    fun hvec => congrArg Host.Outcome.next (runAdmin_completes h (by simp [htaken, hcheck, not_lt.mpr hvec, stat]))⟩

/-- A good submission queue is created when its completion queue is there. -/
theorem createIoSq_good (h : AdminCmd 1 a c s) (hfree : ∀ q ∈ s.ep.sqs, q.id ≠ c.cmd.cdw10 % 65536)
    (hcq : c.cmd.cdw11 / 65536 ≠ 0) :
    ((∃ q ∈ s.ep.cqs, q.id = c.cmd.cdw11 / 65536) → exec (.createIoSq a) s = .next (finishCmd a 0 0 [] (modEp (fun e => { e with
      sqs := e.sqs ++ [{ id := c.cmd.cdw10 % 65536, size := c.cmd.cdw10 / 65536 + 1, cq := c.cmd.cdw11 / 65536 }] }) s))) ∧
    ((∀ q ∈ s.ep.cqs, q.id ≠ c.cmd.cdw11 / 65536) → exec (.createIoSq a) s = .next (finishCmd a 0x101 0 [] s)) := by
  have hcheck := queueCheck_good hid hmax hmin hsize hpc hprp
  have htaken := any_id_eq_false hfree
  refine ⟨fun hthere => ?_, fun hnone => ?_⟩
  · have hany := any_id_eq_true hthere
    exact congrArg Host.Outcome.next (runAdmin_completes h (by simp only [htaken, hcheck, hany, hcq]; rfl))
  · have hany := any_id_eq_false hnone
    exact congrArg Host.Outcome.next (runAdmin_completes h (by simp only [htaken, hcheck, hany]; simp [stat]))

end

section
variable (hid : c.cmd.cdw10 % 65536 ≠ 0)
include hid

/-- A completion queue is deleted when no submission queue uses it. -/
theorem deleteIoCq_there (h : AdminCmd 4 a c s) (hthere : ∃ q ∈ s.ep.cqs, q.id = c.cmd.cdw10 % 65536) :
    ((∃ q ∈ s.ep.sqs, q.cq = c.cmd.cdw10 % 65536) → exec (.deleteIoCq a) s = .next (finishCmd a 0x10C 0 [] s)) ∧
    ((∀ q ∈ s.ep.sqs, q.cq ≠ c.cmd.cdw10 % 65536) → exec (.deleteIoCq a) s =
      .next (finishCmd a 0 0 [] (modEp (fun e => { e with cqs := e.cqs.filter fun q => q.id != c.cmd.cdw10 % 65536 }) s))) := by
  have hany := any_id_eq_true hthere
  refine ⟨fun hused => ?_, fun hfree => ?_⟩
  · have huse := any_id_eq_true hused
    exact congrArg Host.Outcome.next (runAdmin_completes h (by simp only [hany, huse, hid]; rfl))
  · have huse := any_id_eq_false hfree
    exact congrArg Host.Outcome.next (runAdmin_completes h (by simp only [hany, huse, hid]; rfl))

theorem deleteIoSq_empty (h : AdminCmd 0 a c s) (hthere : ∃ q ∈ s.ep.sqs, q.id = c.cmd.cdw10 % 65536)
    (hout : ∀ d ∈ s.ep.cmds, d.sq ≠ c.cmd.cdw10 % 65536) : exec (.deleteIoSq a) s =
      .next (finishCmd a 0 0 [] (modEp (fun e => { e with sqs := e.sqs.filter fun q => q.id != c.cmd.cdw10 % 65536 }) s)) := by
  have hany := any_id_eq_true hthere
  have hnone : (s.ep.cmds.filter fun d => d.sq == c.cmd.cdw10 % 65536) = [] := by simpa using hout
  exact congrArg Host.Outcome.next (runAdmin_completes h (by simp only [hany, hnone, hid]; rfl))

end

/-! ### Identify, log pages and features (R363, R364, R370, R371) -/

theorem identify_answers (h : AdminCmd 6 a c s) (hprp : c.cmd.prp1 % 4 = 0) :
    (c.cmd.cdw10 % 256 = 0 → c.cmd.nsid = 1 → exec (.identify a) s = .next (finishCmd a 0 0 (identifyNamespace s) s)) ∧
    (c.cmd.cdw10 % 256 = 1 → exec (.identify a) s = .next (finishCmd a 0 0 (identifyController s) s)) ∧
    (3 < c.cmd.cdw10 % 256 → exec (.identify a) s = .next (finishCmd a 0x002 0 [] s)) := by
  refine ⟨fun hcns hns => ?volume, fun hcns => ?controller, fun hcns => ?unknown⟩
  case volume => exact congrArg Host.Outcome.next (runAdmin_completes h (by simp [hprp, hcns, hns]))
  case controller => exact congrArg Host.Outcome.next (runAdmin_completes h (by simp [hprp, hcns]))
  case unknown =>
    obtain ⟨k, hk⟩ := Nat.exists_eq_add_of_le' (Nat.succ_le_of_lt hcns)
    exact congrArg Host.Outcome.next (runAdmin_completes h (by simp [hprp, hk, stat]))

theorem getLogPage_answers (h : AdminCmd 2 a c s) (hprp : c.cmd.prp1 % 4 = 0) :
    (∀ l, logPage (c.cmd.cdw10 % 256) s = some l → exec (.getLogPage a) s = .next (finishCmd a 0 0
      (slice l c.cmd.cdw12 (min ((c.cmd.cdw10 / 65536 + c.cmd.cdw11 % 65536 * 65536 + 1) * 4) (l.length - c.cmd.cdw12)))
      (drawOne s))) ∧
    (logPage (c.cmd.cdw10 % 256) s = none → exec (.getLogPage a) s = .next (finishCmd a 0x109 0 [] s)) :=
  ⟨fun l hl => congrArg Host.Outcome.next (runAdmin_completes h (by simp [hprp, hl])),
    fun hl => congrArg Host.Outcome.next (runAdmin_completes h (by simp [hprp, hl, stat]))⟩

theorem setFeatures_answers (h : AdminCmd 9 a c s) :
    (c.cmd.cdw10 / 2 ^ 31 = 1 → exec (.setFeatures a) s = .next (finishCmd a 0x10D 0 [] s)) ∧
    (c.cmd.cdw10 / 2 ^ 31 ≠ 1 → c.cmd.cdw10 % 256 = 6 → exec (.setFeatures a) s =
      .next (finishCmd a 0 0 [] (modEp (fun e => { e with vwc := c.cmd.cdw11 % 2 == 1 }) s))) ∧
    (c.cmd.cdw10 / 2 ^ 31 ≠ 1 → c.cmd.cdw10 % 256 = 0xB → exec (.setFeatures a) s =
      .next (finishCmd a 0 0 [] (modEp (fun e => { e with aec := c.cmd.cdw11 }) s))) :=
  ⟨fun hsave => congrArg Host.Outcome.next (runAdmin_completes h (by simp only [hsave]; rfl)),
    fun hsave hfid => congrArg Host.Outcome.next (runAdmin_completes h (by simp only [hsave, hfid]; rfl)),
    fun hsave hfid => congrArg Host.Outcome.next (runAdmin_completes h (by simp only [hsave, hfid]; rfl))⟩

theorem getFeatures_answers {v : Nat} (h : AdminCmd 0xA a c s) (hv : featureValue (c.cmd.cdw10 % 256) c.cmd.cdw11 s = some v) :
    (bits c.cmd.cdw10 10 8 = 0 → exec (.getFeatures a) s = .next (finishCmd a 0 v [] s)) ∧
    (bits c.cmd.cdw10 10 8 = 3 → exec (.getFeatures a) s = .next (finishCmd a 0 4 [] s)) :=
  ⟨fun hsel => congrArg Host.Outcome.next (runAdmin_completes h (by simp only [hsel, hv])),
    fun hsel => congrArg Host.Outcome.next (runAdmin_completes h (by simp only [hsel, hv]))⟩

/-! ### Events and Abort (R369, R376) -/

/-- A request begins to wait; the oldest event that waits for one completes it at once. -/
theorem asynchronousEventRequest_waits (h : AdminCmd 0xC a c s) :
    let u := modEp (fun e => { e with cmds := e.cmds.map fun d => if d.arrival = a then { d with begun := true } else d }) s
    (s.ep.events = [] → exec (.asynchronousEventRequest a) s = .next u) ∧
    ∀ ev r, s.ep.events = ev :: r →
      exec (.asynchronousEventRequest a) s = .next (finishCmd a 0 ev [] (modEp (fun e => { e with events := r }) u)) := by
  obtain ⟨hcmd, hsq, hopc, hdone, hready⟩ := h
  exact ⟨fun hev => by simp [exec, execAsynchronousEventRequest, hcmd, hsq, hopc, hdone, hready, hev],
    fun ev r hev => by simp [exec, execAsynchronousEventRequest, hcmd, hsq, hopc, hdone, hready, hev]⟩

theorem abort_catches {d : HostCmd} (h : AdminCmd 8 a c s) (hd : s.ep.cmds.find? (fun d => d.sq == c.cmd.cdw10 % 65536 &&
    c.cmd.cdw10 % 65536 != 0 && d.cmd.cid == c.cmd.cdw10 / 65536 && !d.done && (!d.issued || queueWait d.arrival s)) = some d) :
    exec (.abort a) s = .next (finishCmd a 0 0 [] (modEp (fun e => { e with caught := wrapInc 64 e.caught })
      (finishCmd d.arrival 0x007 0 [] (dropQueued d.arrival s)))) :=
  congrArg Host.Outcome.next (runAdmin_completes h (by simp only [hd]))

theorem abort_misses (h : AdminCmd 8 a c s)
    (hcmds : ∀ d ∈ s.ep.cmds, d.sq ≠ c.cmd.cdw10 % 65536 ∨ d.cmd.cid ≠ c.cmd.cdw10 / 65536)
    (hsqs : ∀ q ∈ s.ep.sqs, q.id ≠ c.cmd.cdw10 % 65536) :
    exec (.abort a) s = .next (finishCmd a 0 1 [] (modEp (fun e => { e with missed := wrapInc 64 e.missed }) s)) := by
  have hout : s.ep.cmds.find? (fun d => d.sq == c.cmd.cdw10 % 65536 && c.cmd.cdw10 % 65536 != 0 &&
      d.cmd.cid == c.cmd.cdw10 / 65536 && !d.done && (!d.issued || queueWait d.arrival s)) = none := by
    refine List.find?_eq_none.mpr fun d hd => ?_
    rcases hcmds d hd with hne | hne <;> simp [hne]
  have hwait : s.ep.sqs.find? (fun q => q.id == c.cmd.cdw10 % 65536) = none := by
    simpa using hsqs
  exact congrArg Host.Outcome.next (runAdmin_completes h (by simp only [hout, hwait]; rfl))

/-! ### Self-tests (R379 to R381) -/

theorem deviceSelfTest_answers (h : AdminCmd 0x14 a c s) :
    (s.ep.test = none → c.cmd.cdw10 % 16 = 1 ∨ c.cmd.cdw10 % 16 = 2 → exec (.deviceSelfTest a) s =
      .next (finishCmd a 0 0 [] (modEp (fun e => { e with test := some ⟨c.cmd.cdw10 % 16, 1, 0⟩ }) s))) ∧
    (s.ep.test.isSome = true → c.cmd.cdw10 % 16 = 1 ∨ c.cmd.cdw10 % 16 = 2 → exec (.deviceSelfTest a) s =
      .next (finishCmd a 0x11D 0 [] s)) ∧
    (∀ t, s.ep.test = some t → c.cmd.cdw10 % 16 = 0xF → exec (.deviceSelfTest a) s =
      .next (finishCmd a 0 0 [] (modEp (fun e => { e with
        test := none, results := ((0x1 + t.code * 16, 0) :: e.results).take 20 }) s))) := by
  refine ⟨fun hidle hcode => ?starts, fun hbusy hcode => ?refused, fun t ht hcode => ?aborted⟩
  case starts => exact congrArg Host.Outcome.next (runAdmin_completes h (by simp [hidle, hcode, stat]))
  case refused =>
    obtain ⟨t, ht⟩ := Option.isSome_iff_exists.mp hbusy
    have hstart : c.cmd.cdw10 % 16 ≠ 0xF := by omega
    exact congrArg Host.Outcome.next (runAdmin_completes h (by simp [ht, hcode, hstart, stat]))
  case aborted => exact congrArg Host.Outcome.next (runAdmin_completes h (by simp [ht, hcode, stat]))

/-- A step of a test reads a member of the volume, if any. -/
theorem testMember_mem {k : SelfTest} {m : Nat} (h : testMember k s = some m) : m ∈ s.rcd.members := by
  unfold testMember at h
  dsimp only at h
  split at h
  · exact List.mem_of_getElem? h
  · exact List.mem_of_getElem? h
  · obtain ⟨e, -, he⟩ := Option.bind_eq_some_iff.mp h
    exact List.mem_of_getElem? he
  · cases h
  · exact List.mem_of_head? h

/-- The superblocks of a volume that is not mounted are not good. -/
theorem segmentOk_volume {k : SelfTest} (h : segmentOk k.segment s = true) : ¬ (k.segment = 1 ∧ s.rcd.volume = 0) := by
  rintro ⟨hseg, hvol⟩
  simp [hseg, segmentOk, hvol] at h

section
variable {k : SelfTest} (hk : s.ep.test = some k) (hon : epOn s = true) (hio : ioCmds s = [])
  (hidle : ∀ m ∈ s.rcd.members, (ssdOf m s).cmds = [])
include hk hon hio hidle

/-- A step that runs fails its segment, goes on in it, begins the next segment, or ends the test. -/
theorem selfTestStep_runs (ok : Bool) : exec (.selfTestStep ok) s = .next (
    if !ok || (k.segment == 1 && s.rcd.volume == 0) || (decide (segSteps k.segment s ≤ k.step + 1) && !segmentOk k.segment s) then
      raise 0 0x0A04 noInst [k.segment] (endTest k 0x7 k.segment s)
    else if segSteps k.segment s ≤ k.step + 1 then
      ((nextSegment k.code k.segment).map fun n => modEp (fun e => { e with test := some { k with segment := n, step := 0 } }) s).getD
        (endTest k 0 0 s)
    else modEp (fun e => { e with test := some { k with step := k.step + 1 } }) s) := by
  have hfree : ((testMember k s).toList.any fun m => (ssdOf m s).cmds.any fun c => isRecWrite c.op) = false := by
    refine List.any_eq_false.mpr fun m hm => ?_
    rw [hidle m (testMember_mem (by simpa using hm))]
    exact Bool.false_ne_true
  simp only [exec, execSelfTestStep, hk, hon, hio, hfree]
  by_cases hlast : segSteps k.segment s ≤ k.step + 1
  · cases nextSegment k.code k.segment <;> simp [hlast]
  · simp [hlast]

theorem selfTestStep_fails : ∃ t, exec (.selfTestStep false) s = .next t ∧ t.ep.test = none ∧
    t.ep.results = ((0x7 + k.code * 16, k.segment) :: s.ep.results).take 20 ∧ t.log = (raise 0 0x0A04 noInst [k.segment] s).log := by
  refine ⟨_, selfTestStep_runs hk hon hio hidle false, ?_⟩
  rw [if_pos (by simp), raise_ep]
  exact ⟨rfl, rfl, raise_modEp_log ..⟩

theorem selfTestStep_goes_on (hmore : k.step + 1 < segSteps k.segment s) (hvol : k.segment ≠ 1 ∨ s.rcd.volume ≠ 0) :
    exec (.selfTestStep true) s = .next (modEp (fun e => { e with test := some { k with step := k.step + 1 } }) s) := by
  have hlast : ¬ segSteps k.segment s ≤ k.step + 1 := by omega
  rw [selfTestStep_runs hk hon hio hidle, if_neg (by simpa [hlast, ← imp_iff_not_or] using hvol), if_neg hlast]

theorem selfTestStep_passes (hlast : segSteps k.segment s ≤ k.step + 1) (hok : segmentOk k.segment s = true) :
    (∀ n, nextSegment k.code k.segment = some n → exec (.selfTestStep true) s =
      .next (modEp (fun e => { e with test := some { k with segment := n, step := 0 } }) s)) ∧
    (nextSegment k.code k.segment = none → exec (.selfTestStep true) s = .next (endTest k 0 0 s)) := by
  have hgood : ¬ (!true || (k.segment == 1 && s.rcd.volume == 0) ||
      (decide (segSteps k.segment s ≤ k.step + 1) && !segmentOk k.segment s)) = true := by
    simpa [hok] using segmentOk_volume hok
  rw [selfTestStep_runs hk hon hio hidle, if_neg hgood, if_pos hlast]
  exact ⟨fun n hn => by rw [hn]; rfl, fun hn => by rw [hn]; rfl⟩

theorem selfTestStep_bad (hlast : segSteps k.segment s ≤ k.step + 1) (hbad : segmentOk k.segment s = false) :
    exec (.selfTestStep true) s = .next (raise 0 0x0A04 noInst [k.segment] (endTest k 0x7 k.segment s)) := by
  rw [selfTestStep_runs hk hon hio hidle, if_pos (by simp [hlast, hbad])]

end

end

/-- Settles O47: each row completes its command with what its own lemma says, and a self-test's step takes one of four ends. -/
theorem adminCommands : Obligations.AdminCommands := by
  unfold Obligations.AdminCommands
  refine ⟨?absent, ?createCq, ?createSq, ?deleteCq, ?deleteSq, fun _ _ _ h hprp => identify_answers h hprp,
    fun _ _ _ h hprp => getLogPage_answers h hprp, fun _ _ _ h => setFeatures_answers h, fun _ _ _ _ h hv => getFeatures_answers h hv,
    fun _ _ _ h => asynchronousEventRequest_waits h, fun _ _ _ h => ⟨fun _ _ hd => abort_catches h hd, abort_misses h⟩,
    fun _ _ _ h => deviceSelfTest_answers h, ?step⟩
  case absent =>
    intro a s h
    have hrow : ∀ opc f, (.next (runAdmin opc a f s) : Res) = .next s := fun _ f => congrArg _ (runAdmin_of_none h f)
    have hevent : exec (.asynchronousEventRequest a) s = .next s := by simp [exec, execAsynchronousEventRequest, h]
    simp only [List.forall_mem_cons]
    exact ⟨hrow .., hrow .., hrow .., hrow .., hrow .., hrow .., hrow .., hrow .., hevent, hrow .., hrow .., List.forall_mem_nil _⟩
  case createCq =>
    rintro a n c s h rfl
    exact ⟨createIoCq_identifier h, fun hid hmax hfree hmin hsize hpc hprp => createIoCq_good hid hmax hmin hsize hpc hprp h hfree⟩
  case createSq =>
    rintro a n k c s h rfl rfl hid hmax hfree hmin hsize hpc hprp hcq
    exact createIoSq_good hid hmax hmin hsize hpc hprp h hfree hcq
  case deleteCq => rintro a n c s h rfl hid hthere; exact deleteIoCq_there hid h hthere
  case deleteSq => rintro a n c s h rfl hid hthere hout; exact deleteIoSq_empty hid h hthere hout
  case step =>
    intro k s hk hon hio hidle
    exact ⟨selfTestStep_fails hk hon hio hidle, selfTestStep_goes_on hk hon hio hidle, selfTestStep_passes hk hon hio hidle,
      selfTestStep_bad hk hon hio hidle⟩

end Sys2Proof.Proofs

/-! PROOFS. The NVMe controller: resets, shutdown, doorbells, fetching, range locks and completion queues (R369, R372 to R374,
R378, R383 to R385). -/

namespace Sys2Proof.Proofs
open Sys2Proof Sys2Proof.Machine Sys2Proof.Laws

section
variable {s : State}

/-! ### Enabling, reset and shutdown (R363, R383, R384) -/

theorem controllerEnable_readies {n m : Nat} (hon : epOn s = true) (hlink : s.ep.linkUp = true) (hready : s.ep.ready = false)
    (hn : 2 ≤ n) (hn' : n ≤ 1024) (hm : 2 ≤ m) (hm' : m ≤ 1024) :
    exec (.controllerEnable n m) s = .next (modEp (fun e => { e with
      ready := true, sqs := [{ id := 0, size := n, cq := 0 }], cqs := [{ id := 0, size := m, vector := 0, ien := true }]
      arb := 0, tempOver := 0xFFFF, tempUnder := 0, vwc := true, queues := none, coalesce := 0, ivCd := List.replicate 17 false
      aec := 0x11F }) s) := by
  simp [exec, execControllerEnable, hon, hlink, hready, hn, hn', hm, hm']

theorem controllerDisable_resets (hon : epOn s = true) : exec .controllerDisable s = .next (resetController s) :=
  congrArg Host.Outcome.next (if_pos hon)

theorem pcieLinkLoss_resets (hon : epOn s = true) :
    exec .pcieLinkLoss s = .next (resetController (modEp (fun e => { e with linkUp := false, width := 0 }) s)) :=
  congrArg Host.Outcome.next (if_pos hon)

theorem controllerReset_off (hoff : epOn s = false) : exec .controllerDisable s = .next s ∧ exec .pcieLinkLoss s = .next s :=
  have hnot : ¬ epOn s = true := by simp [hoff]
  ⟨congrArg Host.Outcome.next (if_neg hnot), congrArg Host.Outcome.next (if_neg hnot)⟩

theorem controllerShutdown_begins (hready : epReady s = true) (hshst : s.ep.shst = 0) :
    exec .controllerShutdown s = .next (shutdownStep (modEp (fun e => { e with shst := 1 }) s)) := by
  simp [exec, execControllerShutdown, hready, hshst]

/-- A shutdown waits for a command that is not an Asynchronous Event Request. -/
theorem shutdownStep_waits (h : ∃ c ∈ s.ep.cmds, c.sq ≠ 0 ∨ c.cmd.opc ≠ 0xC) : shutdownStep s = s := by
  obtain ⟨c, hc, hne⟩ := h
  have hall : ¬ (s.ep.cmds.all fun c => c.cmd.opc == 0xC && c.sq == 0) = true := by
    rw [List.all_eq_true]
    intro hall
    have hboth := hall c hc
    simp only [Bool.and_eq_true, beq_iff_eq] at hboth
    omega
  exact if_neg fun ⟨_, _, hcmds⟩ => hall hcmds

theorem shutdownStep_idle (h : s.ep.shst ≠ 1) : shutdownStep s = s := if_neg fun ⟨hshst, _⟩ => h hshst

/-- The members of the volume that are in service. -/
def serving (s : State) : List Nat := s.rcd.members.filter fun k => !(ssdOf k s).failed

/-- A shutdown that waits for member Flush commands, and for none has ended. -/
def flushing (s : State) : State :=
  modEp (fun e => { e with shutSent := true, shutLeft := (serving s).length, shst := if (serving s).isEmpty then 2 else 1 }) s

theorem shutdownStep_flushes (hshst : s.ep.shst = 1) (hsent : s.ep.shutSent = false)
    (h : ∀ c ∈ s.ep.cmds, c.sq = 0 ∧ c.cmd.opc = 0xC) :
    shutdownStep s = (serving s).foldl (fun u k => sendSsd k metaQueue (.hostFlush 0) u) (flushing s) := by
  have hall : (s.ep.cmds.all fun c => c.cmd.opc == 0xC && c.sq == 0) = true := by
    rw [List.all_eq_true]
    intro c hc
    simp [h c hc]
  exact if_pos ⟨hshst, by simp [hsent], hall⟩

@[simp] theorem sendSsd_ep (port queue : Nat) (op : SsdOp) (s : State) : (sendSsd port queue op s).ep = s.ep := by
  unfold sendSsd
  split <;> rfl

theorem foldl_ep {α : Type} {g : State → α → State} (hg : ∀ u x, (g u x).ep = u.ep) (l : List α) (s : State) :
    (l.foldl g s).ep = s.ep :=
  List.foldlRecOn (motive := fun t : State => t.ep = s.ep) l g rfl fun _ ht _ _ => (hg _ _).trans ht

/-- Each member in service has been sent a Flush. -/
theorem flushed_serving {k : Nat} (hk : k ∈ s.rcd.members) (hlen : k < s.rcd.ssds.length) (hok : (ssdOf k s).failed = false) :
    ∃ x ∈ (ssdOf k ((serving s).foldl (fun u k => sendSsd k metaQueue (.hostFlush 0) u) (flushing s))).cmds, x.op = .hostFlush 0 := by
  have hserving : ∀ p ∈ (serving s).map fun k => (k, 0), (ssdOf p.1 (flushing s)).failed = false := by
    intro p hp
    obtain ⟨j, hj, rfl⟩ := List.mem_map.mp hp
    have hin := (List.mem_filter.mp hj).2
    exact (Bool.not_eq_true' _).mp hin
  have hmem : k ∈ serving s := List.mem_filter.mpr ⟨hk, by simp [hok]⟩
  obtain ⟨c, hc, hop, -⟩ := asked_foldl_sendSsd (fun _ => .hostFlush 0) ((serving s).map fun k => (k, 0)) (flushing s) hserving (k, 0)
    (List.mem_map.mpr ⟨k, hmem, rfl⟩) hlen
  rw [List.foldl_map] at hc
  exact ⟨c, hc, hop⟩

theorem serving_eq_nil (h : ∀ k ∈ s.rcd.members, (ssdOf k s).failed = true) : serving s = [] :=
  List.filter_eq_nil_iff.mpr fun k hk => by simp [h k hk]

/-! ### Doorbells, fetching and range locks (R372 to R374) -/

section
variable {qid v : Nat} {cmds : List NvmeCmd} (hon : epOn s = true) (hready : s.ep.ready = true)
include hon hready

theorem doorbellWrite_tail {q : SubQ} (hq : s.ep.sqs.find? (fun q => q.id == qid) = some q) :
    exec (.doorbellWrite false qid v cmds) s = .next (if q.size ≤ v then pushEvent (1 * 2 ^ 8 + 1 * 2 ^ 16) s
      else modEp (fun e => { e with sqs := e.sqs.map fun x => if x.id = qid then
        { x with tail := v, entries := x.entries ++ cmds.take ((v + q.size - q.tail) % q.size) } else x }) s) := by
  simp only [exec, execDoorbellWrite, hon, hready, hq]
  rfl

theorem doorbellWrite_no_queue (hq : s.ep.cqs.find? (fun q => q.id == qid) = none) :
    exec (.doorbellWrite true qid v cmds) s = .next (pushEvent (1 * 2 ^ 16) s) := by
  simp only [exec, execDoorbellWrite, hon, hready, hq]
  rfl

end

/-- A known admin command whose identifier is free, and that no limit of outstanding ones holds back, is accepted. -/
theorem fetchOne_accepts {q : SubQ} {c : NvmeCmd} (hsqs : s.ep.sqs = [q]) (hid : q.id = 0) (hc : q.entries = [c])
    (hknown : knownOpcode true c.opc = true) (h8 : c.opc ≠ 8) (hC : c.opc ≠ 0xC)
    (hfree : ∀ d ∈ s.ep.cmds, d.sq ≠ 0 ∨ d.cmd.cid ≠ c.cid) :
    fetchOne 0 s = modEp (fun e => { e with
      arrivals := e.arrivals + 1, cmds := e.cmds ++ [{ arrival := e.arrivals + 1, sq := 0, cmd := c }]
      sqs := [{ q with entries := [], head := (q.head + 1) % max 1 q.size }] }) s := by
  have htaken : (s.ep.cmds.any fun d => d.sq == 0 && d.cmd.cid == c.cid) = false := by
    simpa [← imp_iff_not_or] using hfree
  simp [fetchOne, hc, htaken, hknown, h8, hC, modEp, hsqs, hid]

theorem commandFetch_one (hready : epReady s = true) (hshst : s.ep.shst = 0) {q : SubQ} {c : NvmeCmd} (hsqs : s.ep.sqs = [q])
    (hid : q.id = 0) (hc : q.entries = [c]) : exec .commandFetch s = .next (fetchOne 0 s) := by
  simp [exec, execCommandFetch, hready, hshst, hsqs, hid, hc, fetchAdmin]

theorem commandFetch_off (h : epReady s = false) : exec .commandFetch s = .next s := by
  simp [exec, execCommandFetch, h]

theorem rangeLockBegin_outcome {a : Nat} {c : HostCmd} (h : hostCmd a s = some c) (hsq : c.sq ≠ 0) :
    (lockWait c s = false → exec (.rangeLockBegin a) s = .next (modEp (fun e => { e with
      cmds := e.cmds.map fun d => if d.arrival = a then { d with begun := true } else d }) s)) ∧
    (lockWait c s = true → exec (.rangeLockBegin a) s = .next s) :=
  ⟨fun hfree => by simp [exec, execRangeLockBegin, h, hsq, hfree], fun hwait => by simp [exec, execRangeLockBegin, h, hwait]⟩

/-! ### Completion queues and timeouts (R374, R383) -/

theorem hostCqTimeout_fatal {q : Nat} {c : CplQ} (hq : s.ep.cqs.find? (fun c => c.id == q) = some c) (hready : epReady s = true)
    (hheld : c.held ≠ []) : exec (.hostCqTimeout q) s = .next (raise 1 0x0A02 noInst [q] (modEp (fun e => { e with
      fatal := true, timeouts := wrapInc 64 e.timeouts, cmds := [], cqs := e.cqs.map fun x => { x with held := [] } }) s)) := by
  simp [exec, execHostCqTimeout, hq, hready, hheld]

theorem pcieCompletionTimeout_completes {a : Nat} {c : HostCmd} (h : hostCmd a s = some c) (hdone : c.done = false)
    (hready : epReady s = true) (hshst : s.ep.shst = 0) : exec (.pcieCompletionTimeout a) s =
      .next (completeOn c.sq c.cmd a 0x004 0 [] (modEp (fun e => { e with aer := e.aer ||| 0x4000 }) s)) := by
  have hcmd : hostCmd a (modEp (fun e => { e with aer := e.aer ||| 0x4000 }) s) = some c := h
  have hlast : (completeOn c.sq c.cmd a 0x004 0 [] (modEp (fun e => { e with aer := e.aer ||| 0x4000 }) s)).ep.shst = 0 :=
    (completeOn_ep_proj (g := Endpoint.shst) (fun _ _ _ _ => rfl) (fun _ _ _ => rfl) ..).trans hshst
  have hexec : exec (.pcieCompletionTimeout a) s =
      .next (shutdownStep (finishCmd a 0x004 0 [] (modEp (fun e => { e with aer := e.aer ||| 0x4000 }) s))) :=
    congrArg Host.Outcome.next (if_pos hready)
  rw [hexec, finishCmd_completes hcmd hdone, shutdownStep_idle (by simp [hlast])]

section
variable {qid : Nat} {q : CplQ} {x : Completion} (hq : s.ep.cqs.find? (fun q => q.id == qid) = some q)
include hq

/-- What a change of a completion queue, that keeps its identifier, makes of the queue found. -/
theorem find?_modCq {f : CplQ → CplQ} (hf : ∀ y, (f y).id = y.id) :
    (modCq qid f s).ep.cqs.find? (fun q => q.id == qid) = some (f q) := by
  have hid : q.id = qid := by simpa using List.find?_some hq
  have hsame : (fun q : CplQ => q.id == qid) ∘ (fun c => if c.id = qid then f c else c) = fun q => q.id == qid := by
    funext y
    simp only [Function.comp]
    split <;> simp [hf]
  change List.find? _ (s.ep.cqs.map fun c => if c.id = qid then f c else c) = _
  rw [List.find?_map, hsame, hq, Option.map_some, if_pos hid]

/-- With room the entry is posted with the queue's phase, and its command is outstanding no longer. -/
theorem deliverCq_posts (hheld : q.held = []) (hroom : q.posted.length + 1 < q.size) :
    (∀ d ∈ (deliverCq qid x s).ep.cmds, d.arrival ≠ x.arrival) ∧
    ∃ y, (deliverCq qid x s).ep.cqs.find? (fun q => q.id == qid) = some y ∧ y.posted = q.posted ++ [{ x with phase := q.phase }] := by
  set t := modEp (fun e => { e with cmds := e.cmds.filter fun c => c.arrival != x.arrival }) s with ht
  have hdeliver : deliverCq qid x s =
      if q.ien then raiseMsix q.vector (modCq qid (postCq x) t) else modCq qid (postCq x) t := by
    simp [deliverCq, hq, hheld, cqRoom, hroom, ht]
  have hcmds : (deliverCq qid x s).ep.cmds = t.ep.cmds := by
    rw [hdeliver]
    split <;> rfl
  have hcqs : (deliverCq qid x s).ep.cqs = (modCq qid (postCq x) t).ep.cqs := by
    rw [hdeliver]
    split <;> rfl
  refine ⟨fun d hd => ?_, postCq x q, ?_, rfl⟩
  · rw [hcmds] at hd
    simpa using (List.mem_filter.mp hd).2
  · rw [hcqs]
    exact find?_modCq (s := t) hq fun _ => rfl

/-- A full queue holds the entry. -/
theorem deliverCq_holds (hfull : q.size ≤ q.posted.length + 1) :
    ∃ y, (deliverCq qid x s).ep.cqs.find? (fun q => q.id == qid) = some y ∧ y.posted = q.posted ∧ y.held = q.held ++ [x] := by
  set t := modEp (fun e => { e with cmds := e.cmds.map fun c => if c.arrival = x.arrival then { c with done := true } else c }) s
    with ht
  have hdeliver : deliverCq qid x s = modCq qid (fun q => { q with held := q.held ++ [x] }) t := by
    simp [deliverCq, hq, cqRoom, not_lt.mpr hfull, ht]
  rw [hdeliver]
  exact ⟨_, find?_modCq (s := t) (f := fun q => { q with held := q.held ++ [x] }) hq fun _ => rfl, rfl, rfl⟩

end

end

/-- Settles O46: each command takes the branch that its hypotheses select; what a shutdown sends leaves the endpoint, and what a
completion does leaves its shutdown. -/
theorem controllerAndQueues : Obligations.ControllerAndQueues := by
  unfold Obligations.ControllerAndQueues
  refine ⟨?enable, ?reset, fun _ => controllerReset_off, ?shutdown, ?tail,
    fun _ _ _ _ hon hready hq => doorbellWrite_no_queue hon hready hq, ?fetch, fun _ => commandFetch_off,
    fun _ _ _ h hsq => rangeLockBegin_outcome h hsq, ?timeout, fun _ _ _ h hdone hready hshst =>
      pcieCompletionTimeout_completes h hdone hready hshst, fun _ _ _ _ hq => ⟨deliverCq_posts hq, deliverCq_holds hq⟩⟩
  case enable =>
    intro n m s hon hlink hready hn hn' hm hm'
    exact ⟨_, controllerEnable_readies hon hlink hready hn hn' hm hm', rfl, rfl, ⟨_, rfl, rfl, rfl, rfl, rfl⟩, rfl, rfl⟩
  case reset =>
    exact fun s hon => ⟨⟨_, controllerDisable_resets hon, rfl, rfl, rfl, rfl, rfl, rfl⟩,
      ⟨_, pcieLinkLoss_resets hon, rfl, rfl, rfl, rfl, rfl⟩⟩
  case shutdown =>
    intro s hready hshst hsent
    rw [controllerShutdown_begins hready hshst]
    refine ⟨fun h => congrArg Host.Outcome.next (shutdownStep_waits h), fun h => ⟨_, rfl, ?_⟩⟩
    set u := modEp (fun e => { e with shst := 1 }) s
    rw [shutdownStep_flushes (s := u) rfl hsent h, foldl_ep fun _ _ => sendSsd_ep ..]
    refine ⟨rfl, fun hnone => ?_, fun k hk hlen hok => flushed_serving (s := u) hk hlen hok⟩
    have hserving : serving u = [] := serving_eq_nil (s := u) hnone
    simp [flushing, hserving]
  case tail =>
    intro qid v cmds q s hon hready hq
    rw [doorbellWrite_tail hon hready hq]
    exact ⟨fun hin => by rw [if_neg (by omega)], fun hout => by rw [if_pos hout]⟩
  case fetch =>
    intro q c s hready hshst hsqs hid hc hknown h8 hC hfree
    rw [commandFetch_one hready hshst hsqs hid hc, fetchOne_accepts hsqs hid hc hknown h8 hC hfree]
  case timeout =>
    intro q c s hq hready hheld
    refine ⟨_, hostCqTimeout_fatal hq hready hheld, ?_⟩
    rw [raise_ep, raise_modEp_log]
    refine ⟨rfl, rfl, fun x hx => ?_, rfl, rfl⟩
    obtain ⟨y, -, rfl⟩ := List.mem_map.mp hx
    rfl

end Sys2Proof.Proofs

/-! PROOFS. The endpoint's I/O commands (R364 to R366, R370, R374, R378, R382, R385). -/

namespace Sys2Proof.Proofs
open Sys2Proof Sys2Proof.Machine Sys2Proof.Laws

/-- Pieces of the volume that an I/O command's LBAs make (R365). -/
def cmdPieces (cmd : NvmeCmd) (s : State) : List (Nat × Nat × Option (Nat × Nat)) :=
  volPieces ((lbaRange cmd).2 * 4096 + 1) 0 ((lbaRange cmd).1 * 4096) ((lbaRange cmd).2 * 4096) s

/-- The pieces that lie on members: place in the data, bytes, and the root port with the byte offset. -/
def memberPieces (ps : List (Nat × Nat × Option (Nat × Nat))) : List (Nat × Nat × Nat × Nat) :=
  ps.filterMap fun p => p.2.2.map fun q => (p.1, p.2.1, q)

theorem memberPieces_of_none {ps : List (Nat × Nat × Option (Nat × Nat))} (h : ∀ p ∈ ps, p.2.2 = none) : memberPieces ps = [] :=
  List.filterMap_eq_nil_iff.mpr fun p hp => by rw [h p hp]; rfl

section
variable {a : Nat} {c : HostCmd} {s : State}

/-! ### The checks of a command (R365, R366, R370, R385) -/

theorem ioStatus_namespace {cmd : NvmeCmd} (h : cmd.nsid ≠ 1) : ioStatus cmd s = 0x00B := if_pos h

theorem ioStatus_no_volume {cmd : NvmeCmd} (hns : cmd.nsid = 1) (hvol : s.rcd.volume = 0) : ioStatus cmd s = 0x082 := by
  simp [ioStatus, hns, hvol]

/-- A Write that begins below the sidecar's own granules is refused (R366). -/
theorem ioStatus_below_sidecar {cmd : NvmeCmd} (hns : cmd.nsid = 1) (hvol : s.rcd.volume = 2) (hopc : cmd.opc = 1)
    (hlen : (lbaRange cmd).2 ≤ 256) (hprp : cmd.prp1 % 4 = 0) (hrange : (lbaRange cmd).1 + (lbaRange cmd).2 ≤ nsze s)
    (hlow : (lbaRange cmd).1 * 4096 < s.rcd.sidecar * volG s) : ioStatus cmd s = 0x286 := by
  simp [ioStatus, hns, hvol, hopc, not_lt.mpr hlen, hprp, not_lt.mpr hrange, isWrite, hlow]

theorem read_refused (h : IoCmd 2 a c s) (hst : ioStatus c.cmd s ≠ 0) :
    exec (.read a) s = .next (finishCmd a (ioStatus c.cmd s) 0 [] s) :=
  congrArg Host.Outcome.next ((runIo_runs h _).trans (if_pos hst))

theorem issueWrite_refused (data : List Byte) (hst : ioStatus c.cmd s ≠ 0) :
    issueWrite c data s = finishCmd c.arrival (ioStatus c.cmd s) 0 [] s := if_pos hst

theorem write_issues (h : IoCmd 1 a c s) (data : List Byte) : exec (.write a data) s = .next (issueWrite c data s) :=
  congrArg Host.Outcome.next (runIo_runs h _)

theorem writeZeroes_issues (h : IoCmd 8 a c s) : exec (.writeZeroes a) s = .next (issueWrite c [] s) :=
  congrArg Host.Outcome.next (runIo_runs h _)

theorem ioCmd_arrival {opc : Nat} (h : IoCmd opc a c s) : c.arrival = a := by
  obtain ⟨hcmd, -⟩ := h
  exact hostCmd_arrival hcmd

/-! ### What issuing a command leaves -/

/-- The walker changes its own cache and nothing else of the recorder. -/
theorem walk_rec_proj {β : Type} {g : Recorder → β} (hg : ∀ r l, g { r with walker := l } = g r) (write : Bool) (vs : List Nat)
    (s : State) : g (walk write vs s).rcd = g s.rcd :=
  List.foldlRecOn (motive := fun r : Recorder => g r = g s.rcd) vs _ rfl fun r hr _ _ => (hg r _).trans hr

@[simp] theorem walk_dev (b : Bool) (vs : List Nat) (s : State) : (walk b vs s).dev = s.dev := rfl
@[simp] theorem walk_ep (b : Bool) (vs : List Nat) (s : State) : (walk b vs s).ep = s.ep := rfl

theorem ssdOf_walk (k : Nat) (write : Bool) (vs : List Nat) (s : State) : ssdOf k (walk write vs s) = ssdOf k s :=
  congrArg (fun l => l.getD k {}) (walk_rec_proj (g := Recorder.ssds) (fun _ _ => rfl) write vs s)

/-- A read before its member commands are sent. -/
def readBegun (h : HostCmd) (n : Nat) (s : State) : State :=
  issueCmd h.arrival n (List.replicate ((lbaRange h.cmd).2 * 4096) 0) (modEp (fun e => { e with
    cmdsRead := e.cmdsRead + 1, unitsRead := e.unitsRead + (lbaRange h.cmd).2 * 8 }) (walk false (rangeGrans h.cmd s) s))

/-- A write before its member commands are sent. -/
def writeBegun (h : HostCmd) (n : Nat) (s : State) : State :=
  issueCmd h.arrival n [] (modEp (fun e => { e with
    cmdsWritten := e.cmdsWritten + 1, unitsWritten := e.unitsWritten + (lbaRange h.cmd).2 * 8 }) (walk false (rangeGrans h.cmd s) s))

theorem readBegun_rcd (h : HostCmd) (n : Nat) (s : State) :
    (readBegun h n s).rcd = (walk false (rangeGrans h.cmd s) s).rcd := rfl

theorem writeBegun_rcd (h : HostCmd) (n : Nat) (s : State) :
    (writeBegun h n s).rcd = (walk false (rangeGrans h.cmd s) s).rcd := rfl

theorem readBegun_dev (h : HostCmd) (n : Nat) (s : State) : (readBegun h n s).dev = s.dev := by
  rw [readBegun, issueCmd, modEp_dev, modEp_dev, walk_dev]

theorem writeBegun_dev (h : HostCmd) (n : Nat) (s : State) : (writeBegun h n s).dev = s.dev := by
  rw [writeBegun, issueCmd, modEp_dev, modEp_dev, walk_dev]

theorem readBegun_cmdsRead (h : HostCmd) (n : Nat) (s : State) : (readBegun h n s).ep.cmdsRead = s.ep.cmdsRead + 1 := by
  rw [readBegun, issueCmd, modEp_ep, modEp_ep, walk_ep]

theorem readBegun_unitsRead (h : HostCmd) (n : Nat) (s : State) :
    (readBegun h n s).ep.unitsRead = s.ep.unitsRead + (lbaRange h.cmd).2 * 8 := by
  rw [readBegun, issueCmd, modEp_ep, modEp_ep, walk_ep]

theorem writeBegun_unitsWritten (h : HostCmd) (n : Nat) (s : State) :
    (writeBegun h n s).ep.unitsWritten = s.ep.unitsWritten + (lbaRange h.cmd).2 * 8 := by
  rw [writeBegun, issueCmd, modEp_ep, modEp_ep, walk_ep]

/-- A member command sent after the walker has resolved a range is numbered and dated as before it. -/
theorem sendSsd_walked {k : Nat} {t : State} {vs : List Nat} (ht : t.rcd = (walk false vs s).rcd) (hdev : t.dev = s.dev)
    (hok : (ssdOf k s).failed = false) (hk : k < s.rcd.ssds.length) (op : SsdOp) :
    (ssdOf k (sendSsd k metaQueue op t)).cmds =
      (ssdOf k s).cmds ++ [{ id := s.rcd.nextCmd, queue := metaQueue, op := op, since := s.dev.elapsed }] := by
  have hssd : ssdOf k t = ssdOf k s := (congrArg (fun r : Recorder => r.ssds.getD k {}) ht).trans (ssdOf_walk ..)
  have hlen : t.rcd.ssds.length = s.rcd.ssds.length := by
    rw [ht]
    exact walk_rec_proj (g := fun r => r.ssds.length) (fun _ _ => rfl) false vs s
  have hnext : t.rcd.nextCmd = s.rcd.nextCmd := by
    rw [ht]
    exact walk_rec_proj (g := Recorder.nextCmd) (fun _ _ => rfl) false vs s
  rw [ssdOf_sendSsd (hlen ▸ hk) (hssd ▸ hok), hssd, hnext, hdev]

/-! ### Reads (R365, R382) -/

section
variable (h : IoCmd 2 a c s) (hst : ioStatus c.cmd s = 0)
include h hst

theorem read_failed (hfail : ∃ p ∈ cmdPieces c.cmd s, ∃ q, p.2.2 = some q ∧ (ssdOf q.1 s).failed = true) :
    exec (.read a) s = .next (finishCmd a 0x281 0 [] s) := by
  obtain ⟨p, hp, q, hq, hf⟩ := hfail
  have hany : ((cmdPieces c.cmd s).any fun p => (p.2.2.map fun q => (ssdOf q.1 s).failed).getD false) = true :=
    List.any_eq_true.mpr ⟨p, hp, by simp [hq, hf]⟩
  exact congrArg Host.Outcome.next ((runIo_runs h _).trans ((if_neg (not_not_intro hst)).trans (if_pos hany)))

/-- A read whose members are in service is issued to them, or, when it reads none, completes with zeros. -/
theorem read_issues (hok : ∀ p ∈ cmdPieces c.cmd s, ∀ q, p.2.2 = some q → (ssdOf q.1 s).failed = false)
    {rs : List (Nat × Nat × Nat × Nat)} (hrs : memberPieces (cmdPieces c.cmd s) = rs) :
    exec (.read a) s = .next (
      if rs.isEmpty then finishCmd a 0 0 (List.replicate ((lbaRange c.cmd).2 * 4096) 0) (readBegun c rs.length s)
      else rs.foldl (fun u p => sendSsd p.2.2.1 metaQueue (.hostRead a p.1 p.2.2.2 p.2.1 (cmdFua c.cmd)) u)
        (readBegun c rs.length s)) := by
  have hany : ¬ ((cmdPieces c.cmd s).any fun p => (p.2.2.map fun q => (ssdOf q.1 s).failed).getD false) = true := by
    simp only [List.any_eq_true, not_exists, not_and]
    intro p hp
    cases hq : p.2.2 with
    | none => simp
    | some q => simp [hok p hp q hq]
  subst hrs
  rw [readBegun, ioCmd_arrival h]
  exact congrArg Host.Outcome.next ((runIo_runs h _).trans ((if_neg (not_not_intro hst)).trans (if_neg hany)))

theorem read_one {dst len k off : Nat} (hps : cmdPieces c.cmd s = [(dst, len, some (k, off))]) (hok : (ssdOf k s).failed = false) :
    exec (.read a) s = .next (sendSsd k metaQueue (.hostRead a dst off len (cmdFua c.cmd)) (readBegun c 1 s)) := by
  have hone : memberPieces (cmdPieces c.cmd s) = [(dst, len, k, off)] := by rw [hps]; rfl
  rw [read_issues h hst (by simp [hps, hok]) hone, if_neg (by simp), List.length_singleton, List.foldl_cons, List.foldl_nil]

end

/-! ### Writes (R366, R382) -/

section
variable (hst : ioStatus c.cmd s = 0)
include hst

theorem issueWrite_failed (hfail : ∃ p ∈ cmdPieces c.cmd s, ∃ q, p.2.2 = some q ∧ (ssdOf q.1 s).failed = true) (data : List Byte) :
    issueWrite c data s = finishCmd c.arrival 0x280 0 [] s := by
  obtain ⟨p, hp, q, hq, hf⟩ := hfail
  have hany : ((memberPieces (cmdPieces c.cmd s)).any fun p => (ssdOf p.2.2.1 s).failed) = true :=
    List.any_eq_true.mpr ⟨(p.1, p.2.1, q), List.mem_filterMap.mpr ⟨p, hp, by rw [hq]; rfl⟩, hf⟩
  exact (if_neg (not_not_intro hst)).trans (if_pos hany)

/-- A write whose members are in service is issued to them. -/
theorem issueWrite_issues (hok : ∀ p ∈ memberPieces (cmdPieces c.cmd s), (ssdOf p.2.2.1 s).failed = false) (data : List Byte) :
    issueWrite c data s = (memberPieces (cmdPieces c.cmd s)).foldl (fun u p => sendSsd p.2.2.1 metaQueue
      (.hostWrite c.arrival ((p.2.2.2 - 0x21000000) / volG s) ((p.2.2.2 - 0x21000000) % volG s) (cmdFua c.cmd || !s.ep.vwc)
        (padTo p.2.1 (slice data p.1 p.2.1))) u) (writeBegun c (memberPieces (cmdPieces c.cmd s)).length s) := by
  have hany : ¬ ((memberPieces (cmdPieces c.cmd s)).any fun p => (ssdOf p.2.2.1 s).failed) = true := by
    simpa using hok
  exact (if_neg (not_not_intro hst)).trans (if_neg hany)

theorem issueWrite_one {dst len k off : Nat} (hps : cmdPieces c.cmd s = [(dst, len, some (k, off))])
    (hok : (ssdOf k s).failed = false) (data : List Byte) :
    issueWrite c data s = sendSsd k metaQueue (.hostWrite c.arrival ((off - 0x21000000) / volG s) ((off - 0x21000000) % volG s)
      (cmdFua c.cmd || !s.ep.vwc) (padTo len (slice data dst len))) (writeBegun c 1 s) := by
  have hone : memberPieces (cmdPieces c.cmd s) = [(dst, len, k, off)] := by rw [hps]; rfl
  rw [issueWrite_issues hst (by simp [hone, hok]), hone, List.length_singleton, List.foldl_cons, List.foldl_nil]

theorem issueWrite_one_sends {dst len k off : Nat} (hps : cmdPieces c.cmd s = [(dst, len, some (k, off))])
    (hok : (ssdOf k s).failed = false) (hk : k < s.rcd.ssds.length) (data : List Byte) :
    (issueWrite c data s).ep.unitsWritten = s.ep.unitsWritten + (lbaRange c.cmd).2 * 8 ∧
    (ssdOf k (issueWrite c data s)).cmds = (ssdOf k s).cmds ++ [{ id := s.rcd.nextCmd, queue := metaQueue, since := s.dev.elapsed
                                                                  op := .hostWrite c.arrival ((off - 0x21000000) / volG s)
                                                                    ((off - 0x21000000) % volG s) (cmdFua c.cmd || !s.ep.vwc)
                                                                    (padTo len (slice data dst len)) }] := by
  rw [issueWrite_one hst hps hok, sendSsd_ep, sendSsd_walked (writeBegun_rcd c 1 s) (writeBegun_dev c 1 s) hok hk]
  exact ⟨writeBegun_unitsWritten c 1 s, rfl⟩

end

theorem padTo_slice_nil (dst len : Nat) : padTo len (slice [] dst len) = List.replicate len 0 := by
  simp [padTo, slice]

/-! ### Flushes (R378) -/

theorem flush_waits (h : IoCmd 0 a c s) (hwait : ∃ d ∈ s.ep.cmds, d.arrival < a ∧ d.cmd.opc ≠ 0xC) :
    exec (.flush a) s = .next s := by
  have hany : (s.ep.cmds.any fun d => decide (d.arrival < a) && d.cmd.opc != 0xC) = true := by
    simpa using hwait
  exact congrArg Host.Outcome.next ((runIo_runs h _).trans (if_pos hany))

section
variable (h : IoCmd 0 a c s) (hfirst : ∀ d ∈ s.ep.cmds, d.arrival < a → d.cmd.opc = 0xC)
  (hns : c.cmd.nsid = 1 ∨ c.cmd.nsid = 0xFFFFFFFF)
include h hfirst hns

/-- A Flush of the namespace that waits for nothing needs a volume, and every member in service. -/
theorem flush_first : exec (.flush a) s = .next (
    if s.rcd.volume = 0 then finishCmd a 0x082 0 [] s
    else if !membersOk s then finishCmd a 0x280 0 [] s
    else sendAll (fun _ => .hostFlush a) (issueCmd a s.rcd.members.length [] s)) := by
  have hany : ¬ (s.ep.cmds.any fun d => decide (d.arrival < a) && d.cmd.opc != 0xC) = true := by
    simpa using hfirst
  have hnsid : ¬ (c.cmd.nsid ≠ 1 ∧ c.cmd.nsid ≠ 0xFFFFFFFF) := by omega
  exact congrArg Host.Outcome.next ((runIo_runs h _).trans ((if_neg hany).trans (if_neg hnsid)))

end

theorem sendAll_ep (op : Nat → SsdOp) (s : State) : (sendAll op s).ep = s.ep :=
  foldl_ep (fun _ _ => sendSsd_ep ..) _ s

theorem issueCmd_cmds (n : Nat) (data : List Byte) : ∀ x ∈ (issueCmd a n data s).ep.cmds, x.arrival = a →
    x.issued = true ∧ x.left = n := by
  intro x hx ha
  obtain ⟨d, -, rfl⟩ := List.mem_map.mp hx
  by_cases hd : d.arrival = a
  · rw [if_pos hd]
    exact ⟨rfl, rfl⟩
  · rw [if_neg hd] at ha
    exact absurd ha hd

end

/-- Settles O48: each command takes the branch of its checks; what is issued to a member is numbered as if the walker had not run. -/
theorem ioCommands : Obligations.IoCommands := by
  unfold Obligations.IoCommands
  refine ⟨?refused, fun _ _ => ⟨ioStatus_namespace, ioStatus_no_volume, ioStatus_below_sidecar⟩, ?zeros, ?reads, ?readFails,
    ?writeFails, ?writes, ?flush⟩
  case refused =>
    intro a c d s
    refine ⟨read_refused, fun h hst => ?_, fun h hst => ?_⟩
    · rw [write_issues h, issueWrite_refused d hst, ioCmd_arrival h]
    · rw [writeZeroes_issues h, issueWrite_refused [] hst, ioCmd_arrival h]
  case zeros =>
    rintro a c ps s h hst rfl hnone
    refine ⟨readBegun c 0 s, ?_, readBegun_cmdsRead c 0 s, readBegun_rcd c 0 s⟩
    have hnil : memberPieces (cmdPieces c.cmd s) = [] := memberPieces_of_none hnone
    exact read_issues h hst (fun p hp q hq => by simp [hnone p hp] at hq) hnil
  case reads =>
    intro a dst len k off c s h hst hps hok hk
    refine ⟨_, read_one h hst hps hok, ?_⟩
    rw [sendSsd_ep, sendSsd_walked (readBegun_rcd c 1 s) (readBegun_dev c 1 s) hok hk]
    exact ⟨readBegun_unitsRead c 1 s, rfl⟩
  case readFails =>
    rintro a c ps s h hst rfl hfail
    exact read_failed h hst hfail
  case writeFails =>
    rintro a c d ps s hst rfl hfail rfl
    exact ⟨fun h => (write_issues h d).trans (congrArg _ (issueWrite_failed hst hfail d)),
      fun h => (writeZeroes_issues h).trans (congrArg _ (issueWrite_failed hst hfail []))⟩
  case writes =>
    rintro a dst len k off c s hst rfl hps hok hk sent
    have hsends := issueWrite_one_sends hst hps hok hk
    refine ⟨fun d h => ⟨_, write_issues h d, hsends d⟩, fun h => ⟨_, writeZeroes_issues h, ?_⟩⟩
    rw [← padTo_slice_nil dst]
    exact hsends []
  case flush =>
    intro a c s h
    refine ⟨flush_waits h, fun hfirst hns => ?_⟩
    rw [flush_first h hfirst hns]
    refine ⟨fun hvol => by rw [if_pos hvol], fun hvol hmem => ⟨_, rfl, ?_⟩⟩
    rw [if_neg hvol, if_neg (by simp [hmem]), sendAll_ep]
    refine ⟨fun k hk hlen => ?_, issueCmd_cmds _ _⟩
    obtain ⟨x, hx, hop, -⟩ := sendAll_asks (s := issueCmd a s.rcd.members.length [] s) (.hostFlush a) hmem hk hlen
    exact ⟨x, hx, hop⟩

end Sys2Proof.Proofs

/-! PROOFS. What a lane of a link group sends is read back: cells and their CRC, scrambled bits, symbols and stuffed levels (R393,
R432, R433, R435 to R438). -/

namespace Sys2Proof.Proofs
open Sys2Proof Sys2Proof.Machine Sys2Proof.Laws

/-! ### The line: scrambling, modulation, stuffing (R393, R432, R433) -/

/-- Scrambler and descrambler shift the same line bits into their states, so they stay in step. -/
theorem descramble_scramble (st : Nat) (b : List Bool) : (descramble st (scramble st b).1).1 = b := by
  induction b generalizing st with
  | nil => rfl
  | cons a r ih => simp [scramble, descramble, ih]

theorem scramble_length (st : Nat) (b : List Bool) : (scramble st b).1.length = b.length := by
  induction b generalizing st with
  | nil => rfl
  | cons a r ih => simp [scramble, ih]

theorem demodulate_modulate_nrz (b : List Bool) : demodulate false (modulate false b) = b := by
  have hbit : ∀ a : Bool, decide ((0 : Int) < if a then 3 else -3) = a := by decide
  simp [demodulate, modulate, List.flatMap_map, hbit]

theorem pam4Bits_pam4Level (a b : Bool) : pam4Bits (pam4Level a b) = [a, b] := by
  cases a <;> cases b <;> rfl

theorem demodulate_modulate_pam4 : ∀ b : List Bool, b.length % 2 = 0 → demodulate true (modulate true b) = b
  | [], _ => rfl
  | [_], h => absurd h (by simp)
  | a :: b :: r, h => by
    have ih : demodulate true (modulate true r) = r := demodulate_modulate_pam4 r (by simpa [Nat.add_assoc] using h)
    calc demodulate true (modulate true (a :: b :: r))
        = pam4Bits (pam4Level a b) ++ demodulate true (modulate true r) := rfl
      _ = a :: b :: r := by rw [pam4Bits_pam4Level, ih]; rfl

/-- The receiver discards a stuffing pair whole. -/
theorem unstuff_stuffPair (run : Int × Nat) (l : Int) (r : List Int) : unstuff run 2 (stuffPair l ++ r) = unstuff run 0 r := by
  unfold stuffPair
  split <;> rfl

/-- Transmitter and receiver count the same runs, so they agree where a pair stands. -/
theorem unstuff_stuff (run : Int × Nat) (l : List Int) : unstuff run 0 (stuff run l).1 = l := by
  induction l generalizing run with
  | nil => rfl
  | cons v r ih =>
    unfold stuff
    split
    case isTrue h => simp [unstuff, h, unstuff_stuffPair, ih]
    case isFalse h => simp [unstuff, h, ih]

/-! ### Bytes of a cell (R8, R435) -/

theorem leBytes_length (n v : Nat) : (leBytes n v).length = n := by
  induction n generalizing v with
  | zero => rfl
  | succ n ih => simp [leBytes, ih]

theorem wordBytes_length (ws : List Word) : (wordBytes ws).length = 4 * ws.length := by
  simp [wordBytes, leBytes_length, Nat.mul_comm]

theorem padTo_of_length {n : Nat} {l : List Byte} (h : l.length = n) : padTo n l = l := by
  simp [padTo, ← h]

theorem beVal_beBytes_two {v : Nat} (h : v < 2 ^ 16) : beVal (beBytes 2 v) = v := by
  simp only [beBytes, leBytes, List.reverse_cons, List.reverse_nil, List.nil_append, List.cons_append, beVal, List.foldl_cons,
    List.foldl_nil, BitVec.toNat_ofNat]
  omega

theorem leWord_toNat (w : Word) : (BitVec.ofNat 8 w.toNat).toNat + 256 * ((BitVec.ofNat 8 (w.toNat / 256)).toNat + 256 *
    ((BitVec.ofNat 8 (w.toNat / 256 / 256)).toNat + 256 * (BitVec.ofNat 8 (w.toNat / 256 / 256 / 256)).toNat)) = w.toNat := by
  have hlt : w.toNat < 2 ^ 32 := w.isLt
  simp only [BitVec.toNat_ofNat]
  omega

theorem words32_wordBytes (ws : List Word) : words32 (wordBytes ws) = ws.map (·.toNat) := by
  induction ws with
  | nil => rfl
  | cons w r ih => exact congrArg₂ List.cons (leWord_toNat w) ih

theorem beBytes_length (n v : Nat) : (beBytes n v).length = n := by
  rw [beBytes, List.length_reverse, leBytes_length]

/-! ### The CRC of a cell (R435) -/

theorem crc16Bit_lt {c : Nat} (h : c < 2 ^ 16) : crc16Bit c < 2 ^ 16 := by
  unfold crc16Bit
  split
  · exact Nat.xor_lt_two_pow (by omega) (by decide)
  · omega

theorem crc16Byte_lt {c : Nat} (h : c < 2 ^ 16) (b : Byte) : crc16Byte c b < 2 ^ 16 := by
  have hb : b.toNat < 2 ^ 8 := b.isLt
  have hin : c ^^^ (b.toNat * 256) < 2 ^ 16 := Nat.xor_lt_two_pow h (by omega)
  unfold crc16Byte
  iterate 8 refine crc16Bit_lt ?_
  exact hin

theorem crc16_lt (l : List Byte) : crc16 l < 2 ^ 16 :=
  List.foldlRecOn (motive := fun c => c < 2 ^ 16) l _ (by decide) fun _ h b _ => crc16Byte_lt h b

/-! ### A cell that is made (R435, R436, R437) -/

/-- The header word of a cell (R435). -/
def headerOf (typ : Nat) (first last : Bool) (stream seq : Nat) : Nat :=
  typ * 0x1000 + (if first then 0x800 else 0) + (if last then 0x400 else 0) + stream * 0x100 + seq % 256

section
variable {typ stream seq : Nat} {first last : Bool} (htyp : typ < 16) (hstream : stream < 4) (hseq : seq < 256)
include htyp hstream

theorem headerOf_lt : headerOf typ first last stream seq < 2 ^ 16 := by
  cases first <;> cases last <;> simp [headerOf] <;> omega

include hseq in
/-- The fields of a header word stand where R435 puts them. -/
theorem headerOf_fields : bits (headerOf typ first last stream seq) 15 12 = typ ∧
    bits (headerOf typ first last stream seq) 9 8 = stream ∧ bits (headerOf typ first last stream seq) 7 0 = seq ∧
    (bits (headerOf typ first last stream seq) 11 11 = 1 ↔ first = true) ∧
    (bits (headerOf typ first last stream seq) 10 10 = 1 ↔ last = true) := by
  cases first <;> cases last <;> simp [headerOf, bits] <;> omega

end

section
variable {typ stream seq : Nat} {first last : Bool} {payload : List Byte}

/-- The bytes of a cell that its CRC covers. -/
def cellBody (typ : Nat) (first last : Bool) (stream seq : Nat) (payload : List Byte) : List Byte :=
  beBytes 2 (headerOf typ first last stream seq) ++ payload

variable (hlen : payload.length = 128)
include hlen

theorem mkCell_eq : mkCell typ first last stream seq payload =
    cellBody typ first last stream seq payload ++ beBytes 2 (crc16 (cellBody typ first last stream seq payload)) := by
  simp only [mkCell, padTo_of_length hlen]
  rfl

theorem cellBody_length : (cellBody typ first last stream seq payload).length = 130 := by
  simp [cellBody, beBytes_length, hlen]

theorem mkCell_length : (mkCell typ first last stream seq payload).length = 132 := by
  simp [mkCell_eq hlen, cellBody_length hlen, beBytes_length]

theorem take_mkCell : (mkCell typ first last stream seq payload).take 130 = cellBody typ first last stream seq payload := by
  rw [mkCell_eq hlen, List.take_left' (cellBody_length hlen)]

theorem drop_mkCell : (mkCell typ first last stream seq payload).drop 130 =
    beBytes 2 (crc16 (cellBody typ first last stream seq payload)) := by
  rw [mkCell_eq hlen, List.drop_left' (cellBody_length hlen)]

theorem payload_mkCell : ((mkCell typ first last stream seq payload).drop 2).take 128 = payload := by
  rw [mkCell_eq hlen, cellBody, List.append_assoc, List.drop_left' (beBytes_length ..), List.take_left' hlen]

variable (htyp : typ < 16) (hstream : stream < 4)
include htyp hstream

theorem cellHeader_mkCell : cellHeader (mkCell typ first last stream seq payload) = headerOf typ first last stream seq := by
  rw [cellHeader, mkCell_eq hlen, cellBody, List.append_assoc, List.take_left' (beBytes_length ..),
    beVal_beBytes_two (headerOf_lt htyp hstream)]

/-- A cell that is made passes its CRC, so its check turns on its type alone. -/
theorem cellOk_mkCell (hseq : seq < 256) (k : Nat) : cellOk k (mkCell typ first last stream seq payload) true = (k == typ) := by
  obtain ⟨hfield, -⟩ := headerOf_fields (first := first) (last := last) htyp hstream hseq
  have hcrc : beVal (beBytes 2 (crc16 (cellBody typ first last stream seq payload))) =
      crc16 (cellBody typ first last stream seq payload) := beVal_beBytes_two (crc16_lt _)
  simp [cellOk, mkCell_length hlen, take_mkCell hlen, drop_mkCell hlen, hcrc, cellHeader_mkCell hlen htyp hstream, hfield,
    Bool.beq_comm (a := k)]

end

/-- Settles O52: the receiver undoes each coding step by step, and the fields of a cell's header word and its CRC stand in two bytes. -/
theorem cellsReadBack : Obligations.CellsReadBack := by
  unfold Obligations.CellsReadBack
  refine ⟨fun st b => ⟨descramble_scramble st b, scramble_length st b⟩,
    fun b => ⟨demodulate_modulate_nrz b, demodulate_modulate_pam4 b⟩, unstuff_stuff, ?cell⟩
  case cell =>
    rintro typ stream seq first last ws htyp hstream hseq hws c rfl
    have hlen : (wordBytes ws).length = 128 := by rw [wordBytes_length, hws]
    obtain ⟨-, hs, hq, hf, hl⟩ := headerOf_fields (first := first) (last := last) htyp hstream hseq
    rw [cellHeader_mkCell hlen htyp hstream, cellWords, payload_mkCell hlen, words32_wordBytes]
    exact ⟨mkCell_length hlen, fun k _ => cellOk_mkCell hlen htyp hstream hseq k, fun k => rfl, hs, hq, hf, hl, rfl⟩

end Sys2Proof.Proofs

/-! PROOFS. The operations of the lane message (R414, R418 to R423). -/

namespace Sys2Proof.Proofs
open Sys2Proof Sys2Proof.Machine Sys2Proof.Laws

/-! ### A lane after a change -/

theorem laneOf_modLane {n : Nat} {s : State} (hn : n < s.lanes.length) (f : Lane → Lane) :
    laneOf n (modLane n f s) = f (laneOf n s) :=
  getD_modAt ({} : Lane) f s.lanes n hn

/-! ### The row of a lane message -/

theorem msgDef_laneMsg {n : Nat} (hn : n < 40) : msgDef (0x0B00 + n) = some (laneMsg n) := by interval_cases n <;> rfl

/-- An operation word below 16 sets no reserved bit of a lane message, and every bit of word 2 may be set. -/
theorem laneMsg_masks {n : Nat} {o : Word} {rest : List Word} (ho : o.toNat < 16) :
    reservedSet (laneMsg n).masks (o :: rest) = false := by
  have hop : o.toNat &&& 0xF = o.toNat := and_mask (k := 4) rfl ho
  cases rest with
  | nil => simp [laneMsg, reservedSet, hop]
  | cons w r => simp [laneMsg, reservedSet, hop, and_full]

theorem op_request1 {c k tag : Nat} {p : Path} {o : Word} {rest : List Word} (ho : o.toNat < 16) :
    bits ((request1 c p k tag (o :: rest)).w 1) 3 0 = o.toNat := by
  change bits o.toNat 3 0 = o.toNat
  simp [bits, Nat.mod_eq_of_lt ho]

/-- A lane message with operation `o` and the words `rest` behind it stands at the front of a channel in a started role, and its
operation finds the words well formed (R423). -/
structure LaneRequest (n c tag : Nat) (p : Path) (o : Word) (rest : List Word) (s : State) : Prop where
  lane : n < 40
  chan : c < 14
  started : Started s
  front : AtFront c p (0x0B00 + n) tag (o :: rest) s
  op : o.toNat < 16
  short : rest.length < 2
  form : (laneMsg n).bad (request1 c p (0x0B00 + n) tag (o :: rest)) (popMsg c s) = false

section
variable {n c tag : Nat} {p : Path} {o : Word} {rest : List Word} {s u : State} {mine : Req → Bool}

namespace LaneRequest

theorem count (h : LaneRequest n c tag p o rest s) : (laneMsg n).count ((o :: rest).length + 1) = true := by
  have hcases : rest.length = 0 ∨ rest.length = 1 := by have := h.short; omega
  rcases hcases with h | h <;> simp [laneMsg, h]

theorem args_lt (h : LaneRequest n c tag p o rest s) : (o :: rest).length < 15 := by
  have := h.short
  simp only [List.length_cons]
  omega

theorem code_lt (h : LaneRequest n c tag p o rest s) : 0x0B00 + n < 65536 := by have := h.lane; omega

variable (h : LaneRequest n c tag p o rest s) (hmine : ∀ r, isLane r = true → laneOp r = o.toNat → mine r = true)
include h hmine

theorem taken : mine (request1 c p (0x0B00 + n) tag (o :: rest)) = true := by
  have hlane := h.lane
  exact hmine _ (inFamily_front h.front h.code_lt h.args_lt (by omega)) (op_request1 h.op)

/-- A well-formed lane message is answered as its operation says, when that leaves the channel's queue as it is. -/
theorem accepts {ws : List Nat}
    (hact : laneAct n (request1 c p (0x0B00 + n) tag (o :: rest)) (popMsg c s) = (.accept ws, u))
    (hinq : (u.mbx.chans.getD c {}).inq = ((popMsg c s).mbx.chans.getD c {}).inq) :
    runRow mine c s = .next (replied (request1 c p (0x0B00 + n) tag (o :: rest)) ws u) :=
  have hlane := h.lane
  runRow_started (d := laneMsg n) h.front h.code_lt h.args_lt (msgDef_laneMsg h.lane) (routed_of_lt h.chan (by omega)) h.started
    (hasBlk_always s) h.count (laneMsg_masks h.op) h.form rfl rfl rfl (.inl PrivRule.noConfusion) hact rfl hinq _ (h.taken hmine)

theorem refuses (hact : laneAct n (request1 c p (0x0B00 + n) tag (o :: rest)) (popMsg c s) = (.refuse 7 0 0, popMsg c s)) :
    runRow mine c s = .next (refused (request1 c p (0x0B00 + n) tag (o :: rest)) 7 0 0 (popMsg c s)) :=
  have hlane := h.lane
  runRow_refuses7 (d := laneMsg n) h.front h.code_lt h.args_lt (msgDef_laneMsg h.lane) (h.taken hmine) rfl
    (runReq_started h.front h.chan h.code_lt (by omega) h.args_lt h.started (hasBlk_always s) h.count (laneMsg_masks h.op) h.form
      rfl rfl rfl PrivRule.noConfusion) hact

end LaneRequest

end

/-- The row of an operation takes the lane messages with that operation. -/
theorem isLane_and_laneOp {k : Nat} (r : Req) (hlane : isLane r = true) (hop : laneOp r = k) :
    (isLane r && laneOp r == k) = true := by
  simp [hlane, hop]

/-! ### The operation of a lane message -/

section
variable {n : Nat} {r : Req} {s : State}

theorem laneAct_status (hop : bits (r.w 1) 3 0 = 0) : laneAct n r s = (.accept (laneStatusWords n s), s) := by
  simp [laneAct, hop]

theorem laneAct_off (hop : bits (r.w 1) 3 0 ≠ 0) (hoff : laneOn n s = false) : laneAct n r s = (.refuse 7 0 0, s) := by
  simp [laneAct, hop, hoff]

variable (hon : laneOn n s = true)
include hon

theorem laneAct_scanStart (hop : bits (r.w 1) 3 0 = 1) : laneAct n r s = scanStartAct n r s := by simp [laneAct, hop, hon]
theorem laneAct_scanRead (hop : bits (r.w 1) 3 0 = 2) : laneAct n r s = scanReadAct n r s := by simp [laneAct, hop, hon]
theorem laneAct_scanStop (hop : bits (r.w 1) 3 0 = 3) : laneAct n r s = (.accept [], endScan 3 n s) := by simp [laneAct, hop, hon]
theorem laneAct_testSetUp (hop : bits (r.w 1) 3 0 = 4) : laneAct n r s = testSetUpAct n r s := by simp [laneAct, hop, hon]
theorem laneAct_bitSlip (hop : bits (r.w 1) 3 0 = 5) : laneAct n r s = bitSlipAct n r s := by simp [laneAct, hop, hon]
theorem laneAct_checkerRead (hop : bits (r.w 1) 3 0 = 6) : laneAct n r s = checkerReadAct n s := by simp [laneAct, hop, hon]

end

/-! ### The operand words (R423) -/

/-- A mask over two parts of a number. -/
theorem and_parts {k a b m : Nat} (ha : a < 2 ^ k) : (a + b * 2 ^ k) &&& m = (a &&& m % 2 ^ k) + (b &&& m / 2 ^ k) * 2 ^ k := by
  have hdiv : (a + b * 2 ^ k) / 2 ^ k = b := by rw [Nat.add_mul_div_right _ _ (by positivity), Nat.div_eq_of_lt ha, Nat.zero_add]
  have hmod : (a + b * 2 ^ k) % 2 ^ k = a := by rw [Nat.add_mul_mod_self_right, Nat.mod_eq_of_lt ha]
  calc (a + b * 2 ^ k) &&& m
      = ((a + b * 2 ^ k) &&& m) % 2 ^ k + ((a + b * 2 ^ k) &&& m) / 2 ^ k * 2 ^ k := (Nat.mod_add_div' ..).symm
    _ = (a &&& m % 2 ^ k) + (b &&& m / 2 ^ k) * 2 ^ k := by rw [Nat.and_mod_two_pow, Nat.and_div_two_pow, hdiv, hmod]

section
variable {n c k tag : Nat} {p : Path} {o w : Word} {s : State}

/-- Word 2 of a scan start: the strides and the dwell stand in their fields, and the eye is 0. -/
theorem scanWord_fields {h v d : Nat} (hh : h ≤ 32) (hv : v ≤ 127) (hd : d ≤ 32)
    (hw : w = BitVec.ofNat 32 (h + v * 2 ^ 8 + d * 2 ^ 16)) :
    bits w.toNat 5 0 = h ∧ bits w.toNat 14 8 = v ∧ bits w.toNat 21 16 = d ∧ bits w.toNat 25 24 = 0 := by
  subst hw
  simp only [bits, BitVec.toNat_ofNat]
  omega

theorem scanWord_mask {h v d : Nat} (hh : h ≤ 32) (hv : v ≤ 127) (hd : d ≤ 32)
    (hw : w = BitVec.ofNat 32 (h + v * 2 ^ 8 + d * 2 ^ 16)) :
    w.toNat &&& 0x33F7F3F = w.toNat := by
  have hval : w.toNat = h + (v + d * 2 ^ 8) * 2 ^ 8 := by
    subst hw
    rw [BitVec.toNat_ofNat]
    omega
  have hlow : h &&& 0x3F = h := and_mask (k := 6) rfl (by omega)
  have hmid : v &&& 0x7F = v := and_mask (k := 7) rfl (by omega)
  have hhigh : ∀ e < 64, e &&& 0x33F = e := by decide
  calc w.toNat &&& 0x33F7F3F
      = (h &&& 0x3F) + ((v &&& 0x7F) + (d &&& 0x33F) * 2 ^ 8) * 2 ^ 8 := by
        rw [hval, and_parts (k := 8) (by omega), and_parts (k := 8) (a := v) (by omega)]
        rfl
    _ = w.toNat := by rw [hlow, hmid, hhigh d (by omega), hval]

theorem laneForm_alone (ho : o = 0 ∨ o = 3 ∨ o = 6) : (laneMsg n).bad (request1 c p k tag [o]) s = false := by
  rcases ho with rfl | rfl | rfl <;> simp [laneMsg, request1, Req.w, bits]

theorem scanStart_form (h : w.toNat &&& 0x33F7F3F = w.toNat) : (laneMsg n).bad (request1 c p k tag [1, w]) s = false := by
  simp [laneMsg, request1, Req.w, bits, h]

theorem scanRead_form (h : w.toNat % 64 = 0) : (laneMsg n).bad (request1 c p k tag [2, w]) s = false := by
  simp [laneMsg, request1, Req.w, bits, h]

theorem testWord_fields {g k lb : Nat} (hg : g < 8) (hk : k < 8) (hlb : lb < 3)
    (hw : w = BitVec.ofNat 32 (g + k * 2 ^ 4 + lb * 2 ^ 8)) :
    bits w.toNat 3 0 = g ∧ bits w.toNat 7 4 = k ∧ bits w.toNat 9 8 = lb ∧ w.toNat < 1024 := by
  subst hw
  simp only [bits, BitVec.toNat_ofNat]
  omega

theorem testSetUp_form {i g lb : Nat} (hg : bits w.toNat 3 0 = g) (hi : bits w.toNat 7 4 = i) (hlb : bits w.toNat 9 8 = lb)
    (hw : w.toNat < 1024) (hg8 : g < 8) (hi8 : i < 8) (hlb3 : lb < 3) :
    (laneMsg n).bad (request1 c p k tag [4, w]) s = false := by
  have hmask : w.toNat &&& 0x3FF = w.toNat := and_mask (k := 10) rfl hw
  have hop : bits ((request1 c p k tag [4, w]).w 1) 3 0 = 4 := op_request1 (by decide)
  have hw2 : (request1 c p k tag [4, w]).w 2 = w.toNat := rfl
  simp only [laneMsg, hop, hw2, hmask, hg, hi, hlb]
  simp [request1]
  omega

theorem bitSlip_form (h0 : 0 < w.toNat) (h : w.toNat < 128) : (laneMsg n).bad (request1 c p k tag [5, w]) s = false := by
  have hmask : w.toNat &&& 0x7F = w.toNat := and_mask (k := 7) rfl h
  simp [laneMsg, request1, Req.w, bits, hmask, h0.ne']

end

/-! ### What the operations do with a lane (R414, R418 to R422) -/

/-- A scan of a lane's main eye that has just started, with nothing counted (R418). -/
def scanBegun (n h v d : Nat) (s : State) : Scan :=
  { hStride := h, vStride := v, dwell := d, eye := 0, cols := scanCols h, rows := scanRows v, rate := rateInForce n s,
    start := nowTod s, stop := ⟨0, 0⟩, vStep := (Config.scanStepUv n s.drawn).toNat, ctle := (laneOf n s).ctle,
    dfe1 := (laneOf n s).dfe.headD 0, status := 0, counts := [] }

section
variable {n : Nat} {r : Req} {s : State}

theorem scanStartAct_starts {h v d : Nat} (hh : bits (r.w 2) 5 0 = h) (hv : bits (r.w 2) 14 8 = v) (hd : bits (r.w 2) 21 16 = d)
    (heye : bits (r.w 2) 25 24 = 0) (hcols : 1 ≤ h ∧ h ≤ 32) (hrows : 1 ≤ v ∧ v ≤ 127) (hdwell : 16 ≤ d ∧ d ≤ 32)
    (hup : laneUp n s = true) (hscan : (laneOf n s).scan = none)
    (hlong : scanLong h v d (rateBaud1001 (rateInForce n s)) = false) :
    scanStartAct n r s = (.accept [scanMs h v d (rateBaud1001 (rateInForce n s)) % 2 ^ 32],
      modLane n (fun x => { x with scan := some (scanBegun n h v d s) }) (drawOne s)) := by
  have hgrid : ¬ (h < 1 ∨ 32 < h ∨ v < 1 ∨ 127 < v ∨ d < 16 ∨ 32 < d ∨
      (if ratePam4 (rateInForce n s) then 2 else 0) < 0) := by omega
  simp only [scanStartAct, hh, hv, hd, heye, hup, hscan, hlong, decide_eq_false hgrid]
  rfl

theorem scanReadAct_copies {c : Scan} (hscan : (laneOf n s).scan = some c) (halign : r.w 2 % 64 = 0)
    (hhold : holdsBulk r.path s = true) (hfits : r.w 2 + (scanBytes n c).length ≤ 0x100000) :
    scanReadAct n r s = (.accept [c.status, (scanBytes n c).length], writeBulk (r.w 2) (scanBytes n c) s) := by
  simp [scanReadAct, hscan, halign, hhold, Nat.not_lt.mpr hfits]

theorem testSetUpAct_sets {g k lb : Nat} (hg : bits (r.w 2) 3 0 = g) (hk : bits (r.w 2) 7 4 = k) (hlb : bits (r.w 2) 9 8 = lb)
    (htest : (laneOf n s).state = 5) (hgen : patternOk (laneRate s.cfg.accepted n) g = true)
    (hcheck : patternOk (laneRate s.cfg.accepted n) k = true) :
    testSetUpAct n r s = (.accept [], modLane n (fun x => { x with gen := g, checker := k, loopback := lb }) s) := by
  simp [testSetUpAct, hg, hk, hlb, htest, hgen, hcheck]

theorem bitSlipAct_slips {k : Nat} (hk : bits (r.w 2) 6 0 = k) (htest : (laneOf n s).state = 5)
    (hnrz : ratePam4 (laneRate s.cfg.accepted n) = false) :
    bitSlipAct n r s = (.accept [((laneOf n s).slip + k) % 64],
      modLane n (fun x => { x with slip := ((laneOf n s).slip + k) % 64 }) s) := by
  simp [bitSlipAct, hk, htest, hnrz]

theorem bitSlipAct_refused (htest : (laneOf n s).state ≠ 5) : bitSlipAct n r s = (.refuse 7 0 0, s) := by
  simp [bitSlipAct, htest]

/-- A checker that is off reports zeros; one that runs reports what it counted, which is free. -/
theorem checkerReadAct_reports (n : Nat) (s : State) : ∃ (rep : List Nat) (u : State),
    rep.length = 5 ∧ u.lanes = s.lanes ∧ u.mbx = s.mbx ∧ checkerReadAct n s = (.accept rep, u) := by
  unfold checkerReadAct
  by_cases hoff : (laneOf n s).checker = 0
  · rw [if_pos hoff]
    exact ⟨_, _, rfl, rfl, rfl, rfl⟩
  · rw [if_neg hoff]
    exact ⟨_, drawOne s, rfl, rfl, rfl, rfl⟩

end

/-! ### The operations -/

section
variable {n c tag : Nat} {p : Path} {w : Word} {s : State} (hn : n < 40) (hc : c < 14) (hs : Started s)
include hn hc hs

theorem laneStatus_answers (ha : AtFront c p (0x0B00 + n) tag [0] s) :
    exec (.laneStatus c) s = .next (replied (request1 c p (0x0B00 + n) tag [0]) (laneStatusWords n (popMsg c s)) (popMsg c s)) :=
  have hreq : LaneRequest n c tag p 0 [] s := ⟨hn, hc, hs, ha, by decide, by decide, laneForm_alone (.inl rfl)⟩
  hreq.accepts (fun r hlane hop => by simp [hlane, hop]) (laneAct_status (op_request1 hreq.op)) rfl

theorem scanStop_ends (ha : AtFront c p (0x0B00 + n) tag [3] s) (hon : laneOn n s = true) :
    exec (.scanStop c) s = .next (replied (request1 c p (0x0B00 + n) tag [3]) [] (endScan 3 n (popMsg c s))) :=
  have hreq : LaneRequest n c tag p 3 [] s := ⟨hn, hc, hs, ha, by decide, by decide, laneForm_alone (.inr (.inl rfl))⟩
  hreq.accepts isLane_and_laneOp (laneAct_scanStop (s := popMsg c s) hon (op_request1 hreq.op)) rfl

theorem scanStop_refused (ha : AtFront c p (0x0B00 + n) tag [3] s) (hoff : laneOn n s = false) :
    exec (.scanStop c) s = .next (refused (request1 c p (0x0B00 + n) tag [3]) 7 0 0 (popMsg c s)) :=
  have hreq : LaneRequest n c tag p 3 [] s := ⟨hn, hc, hs, ha, by decide, by decide, laneForm_alone (.inr (.inl rfl))⟩
  hreq.refuses isLane_and_laneOp (laneAct_off (s := popMsg c s) (by rw [op_request1 hreq.op]; decide) hoff)

theorem scanStart_starts {h v d : Nat} (hh : 1 ≤ h ∧ h ≤ 32) (hv : 1 ≤ v ∧ v ≤ 127) (hd : 16 ≤ d ∧ d ≤ 32)
    (hw : w = BitVec.ofNat 32 (h + v * 2 ^ 8 + d * 2 ^ 16)) (ha : AtFront c p (0x0B00 + n) tag [1, w] s) (hup : laneUp n s = true)
    (hscan : (laneOf n s).scan = none) (hlong : scanLong h v d (rateBaud1001 (rateInForce n s)) = false) :
    exec (.scanStart c) s = .next (replied (request1 c p (0x0B00 + n) tag [1, w])
      [scanMs h v d (rateBaud1001 (rateInForce n s)) % 2 ^ 32]
      (modLane n (fun x => { x with scan := some (scanBegun n h v d s) }) (drawOne (popMsg c s)))) := by
  obtain ⟨f1, f2, f3, f4⟩ := scanWord_fields hh.2 hv.2 hd.2 hw
  have hon : laneOn n s = true := (Bool.and_eq_true_iff.mp hup).1
  have hreq : LaneRequest n c tag p 1 [w] s :=
    ⟨hn, hc, hs, ha, by decide, Nat.one_lt_two, scanStart_form (scanWord_mask hh.2 hv.2 hd.2 hw)⟩
  exact hreq.accepts isLane_and_laneOp ((laneAct_scanStart (s := popMsg c s) hon (op_request1 hreq.op)).trans
    (scanStartAct_starts (s := popMsg c s) f1 f2 f3 f4 hh hv hd hup hscan hlong)) rfl

theorem scanRead_copies {k : Scan} (ha : AtFront c p (0x0B00 + n) tag [2, w] s) (hon : laneOn n s = true)
    (hscan : (laneOf n s).scan = some k) (halign : w.toNat % 64 = 0) (hhold : holdsBulk p s = true)
    (hfits : w.toNat + (scanBytes n k).length ≤ 0x100000) :
    exec (.scanRead c) s = .next (replied (request1 c p (0x0B00 + n) tag [2, w]) [k.status, (scanBytes n k).length]
      (writeBulk w.toNat (scanBytes n k) (popMsg c s))) :=
  have hreq : LaneRequest n c tag p 2 [w] s := ⟨hn, hc, hs, ha, by decide, Nat.one_lt_two, scanRead_form halign⟩
  hreq.accepts isLane_and_laneOp ((laneAct_scanRead (s := popMsg c s) hon (op_request1 hreq.op)).trans
    (scanReadAct_copies (s := popMsg c s) hscan halign hhold hfits)) (writeBulk_inq ..)

theorem testSetUp_sets {g k lb : Nat} (hg : g < 8) (hk : k < 8) (hlb : lb < 3)
    (hw : w = BitVec.ofNat 32 (g + k * 2 ^ 4 + lb * 2 ^ 8)) (ha : AtFront c p (0x0B00 + n) tag [4, w] s)
    (hon : laneOn n s = true) (htest : (laneOf n s).state = 5)
    (hgen : patternOk (laneRate s.cfg.accepted n) g = true) (hcheck : patternOk (laneRate s.cfg.accepted n) k = true) :
    exec (.testSetUp c) s = .next (replied (request1 c p (0x0B00 + n) tag [4, w]) []
      (modLane n (fun x => { x with gen := g, checker := k, loopback := lb }) (popMsg c s))) := by
  obtain ⟨f1, f2, f3, hlt⟩ := testWord_fields hg hk hlb hw
  have hreq : LaneRequest n c tag p 4 [w] s :=
    ⟨hn, hc, hs, ha, by decide, Nat.one_lt_two, testSetUp_form f1 f2 f3 hlt hg hk hlb⟩
  exact hreq.accepts isLane_and_laneOp ((laneAct_testSetUp (s := popMsg c s) hon (op_request1 hreq.op)).trans
    (testSetUpAct_sets (s := popMsg c s) f1 f2 f3 htest hgen hcheck)) rfl

theorem bitSlip_outcome (h0 : 0 < w.toNat) (h : w.toNat < 128) (ha : AtFront c p (0x0B00 + n) tag [5, w] s)
    (hon : laneOn n s = true) :
    ((laneOf n s).state = 5 → ratePam4 (laneRate s.cfg.accepted n) = false →
      exec (.bitSlip c) s = .next (replied (request1 c p (0x0B00 + n) tag [5, w]) [((laneOf n s).slip + w.toNat) % 64]
        (modLane n (fun x => { x with slip := ((laneOf n s).slip + w.toNat) % 64 }) (popMsg c s)))) ∧
    ((laneOf n s).state ≠ 5 →
      exec (.bitSlip c) s = .next (refused (request1 c p (0x0B00 + n) tag [5, w]) 7 0 0 (popMsg c s))) := by
  have hreq : LaneRequest n c tag p 5 [w] s := ⟨hn, hc, hs, ha, by decide, Nat.one_lt_two, bitSlip_form h0 h⟩
  have hact : laneAct n (request1 c p (0x0B00 + n) tag [5, w]) (popMsg c s) =
      bitSlipAct n (request1 c p (0x0B00 + n) tag [5, w]) (popMsg c s) := laneAct_bitSlip hon (op_request1 hreq.op)
  have hcount : bits w.toNat 6 0 = w.toNat := by simp [bits, Nat.mod_eq_of_lt h]
  exact ⟨fun htest hnrz => hreq.accepts isLane_and_laneOp (hact.trans (bitSlipAct_slips (s := popMsg c s) hcount htest hnrz)) rfl,
    fun htest => hreq.refuses isLane_and_laneOp (hact.trans (bitSlipAct_refused (s := popMsg c s) htest))⟩

theorem checkerRead_reports (ha : AtFront c p (0x0B00 + n) tag [6] s) (hon : laneOn n s = true) :
    ∃ (rep : List Nat) (u : State), rep.length = 5 ∧ u.lanes = s.lanes ∧
      exec (.checkerRead c) s = .next (replied (request1 c p (0x0B00 + n) tag [6]) rep u) := by
  have hreq : LaneRequest n c tag p 6 [] s := ⟨hn, hc, hs, ha, by decide, by decide, laneForm_alone (.inr (.inr rfl))⟩
  obtain ⟨rep, u, hlen, hlanes, hmbx, hact⟩ := checkerReadAct_reports n (popMsg c s)
  exact ⟨rep, u, hlen, hlanes, hreq.accepts isLane_and_laneOp
    ((laneAct_checkerRead (s := popMsg c s) hon (op_request1 hreq.op)).trans hact) (by rw [hmbx])⟩

end

/-- Settles O32: each operation passes the checks of R809, and its action takes the branch that the lane's state selects. -/
theorem laneMessages : Obligations.LaneMessages := by
  unfold Obligations.LaneMessages
  intro n c tag p s hn hc hs
  refine ⟨fun ha => ⟨_, rfl, laneStatus_answers hn hc hs ha⟩, ?start, ?read, scanStop_ends hn hc hs, ?setUp,
    fun w h0 h ha hon => bitSlip_outcome hn hc hs h0 h ha hon, checkerRead_reports hn hc hs, scanStop_refused hn hc hs⟩
  case start =>
    intro h v d hh hh' hv hv' hd hd' ha hup hscan hlong hlen
    refine ⟨scanBegun n h v d s, _, scanStart_starts hn hc hs ⟨hh, hh'⟩ ⟨hv, hv'⟩ ⟨hd, hd'⟩ rfl ha hup hscan hlong, ?_,
      rfl, rfl, rfl, rfl⟩
    rw [laneOf_modLane (s := drawOne (popMsg c s)) hlen]
  case read => exact fun k o ha hon hscan halign hhold hfits => scanRead_copies hn hc hs ha hon hscan halign hhold hfits
  case setUp =>
    exact fun g k lb hg hk hlb ha hon htest hgen hcheck => testSetUp_sets hn hc hs hg hk hlb rfl ha hon htest hgen hcheck

end Sys2Proof.Proofs

/-! PROOFS. A lane's PLL, bring-up, adaptation, faults and eye scans, and the training of a PCIe link (R391, R400, R404, R405, R409
to R411, R415, R416, R418, R420). -/

namespace Sys2Proof.Proofs
open Sys2Proof Sys2Proof.Machine Sys2Proof.Laws

/-! ### A lane beside the other changes of a step -/

section
variable {m n : Nat} {s : State}

/-- A field of a lane that a change keeps. -/
theorem laneOf_modLane_proj {α : Type} {g : Lane → α} {f : Lane → Lane} (h : ∀ x, g (f x) = g x) :
    g (laneOf m (modLane n f s)) = g (laneOf m s) := getD_modAt_proj h ..

@[simp] theorem laneErr_lanes (sev n kind detail : Nat) (s : State) : (laneErr sev n kind detail s).lanes = s.lanes := raise_lanes ..

@[simp] theorem laneOf_laneErr (sev k kind detail : Nat) : laneOf m (laneErr sev k kind detail s) = laneOf m s := by
  rw [laneOf, laneErr_lanes, laneOf]

@[simp] theorem modLane_lanes_length (f : Lane → Lane) : (modLane n f s).lanes.length = s.lanes.length := modAt_length ..

@[simp] theorem endScan_lanes_length (st : Nat) : (endScan st n s).lanes.length = s.lanes.length := modAt_length ..

theorem laneOf_endScan_state (st : Nat) : (laneOf m (endScan st n s)).state = (laneOf m s).state := by
  rw [endScan]
  exact laneOf_modLane_proj (g := Lane.state) fun _ => rfl

theorem modLane_eq_self {f : Lane → Lane} (h : f (laneOf n s) = laneOf n s) : modLane n f s = s := by
  have hlanes : modAt s.lanes n f = s.lanes := by
    refine List.ext_getElem? fun k => ?_
    rw [modAt, List.getElem?_modify]
    by_cases hk : n = k
    · subst hk
      cases hx : s.lanes[n]? with
      | none => rfl
      | some x =>
        rw [laneOf, List.getD_eq_getElem?_getD, hx] at h
        simpa using h
    · simp [hk]
  rw [modLane, hlanes]

/-- An error is raised beside the lanes: neither sees the other. -/
theorem raise_modLane (sev code inst : Nat) (ds : List Nat) (f : Lane → Lane) :
    raise sev code inst ds (modLane n f s) = modLane n f (raise sev code inst ds s) := by
  have hrun : openRun 0x1523 noInst (modLane n f (raiseOne sev code inst ds s)) =
      modLane n f (openRun 0x1523 noInst (raiseOne sev code inst ds s)) := by
    rw [openRun, openRun, apply_ite (modLane n f)]
    rfl
  calc raise sev code inst ds (modLane n f s)
      = if 4096 ≤ s.log.waiting.length ∧ !inRun 0x1523 noInst (raiseOne sev code inst ds s) then
          raiseOne 1 0x1523 noInst [] (openRun 0x1523 noInst (modLane n f (raiseOne sev code inst ds s)))
        else modLane n f (raiseOne sev code inst ds s) := rfl
    _ = modLane n f (raise sev code inst ds s) := by
        rw [hrun, raise, apply_ite (modLane n f)]
        rfl

theorem laneErr_modLane_log (sev k kind detail : Nat) (f : Lane → Lane) :
    (laneErr sev k kind detail (modLane n f s)).log = (laneErr sev k kind detail s).log := by
  rw [laneErr, raise_modLane]
  rfl

end

/-! ### Fault bits (R416) -/

theorem setFault_false_clears (l : Lane) : bits (setFault 0 false l).faults 0 0 = 0 := by
  rcases Nat.mod_two_eq_zero_or_one l.faults with h | h
  · simp [setFault, bits, h]
  · simp [setFault, bits, h]
    omega

section
variable {n bit kind sev detail : Nat} {s : State}

theorem beginFault_silent (h : bits (laneOf n s).faults bit bit = 1) : beginFault n bit kind sev detail s = s := if_pos h

theorem beginFault_logs (h : bits (laneOf n s).faults bit bit = 0) :
    beginFault n bit kind sev detail s = laneErr sev n kind detail (modLane n (setFault bit true) s) :=
  if_neg (by rw [h]; decide)

/-- A field of a lane that fault bits do not touch. -/
theorem laneOf_beginFault_proj {α : Type} {g : Lane → α} (h : ∀ x, g (setFault bit true x) = g x) :
    g (laneOf n (beginFault n bit kind sev detail s)) = g (laneOf n s) := by
  unfold beginFault
  split
  · rfl
  · rw [laneOf_laneErr, laneOf_modLane_proj h]

@[simp] theorem beginFault_lanes_length : (beginFault n bit kind sev detail s).lanes.length = s.lanes.length := by
  unfold beginFault
  split <;> simp

end

/-! ### PLLs (R391) -/

/-- A lane PLL locks: its fault ends on its lanes. -/
def pllLocked (q : Nat) (ab : Bool) (s : State) : State :=
  { s with plls := modAt s.plls (2 * q + b2n ab) fun _ => true, lanes := modMany (pllLanes q ab) (setFault 0 false) s.lanes }

theorem getD_modMany {α : Type} {f : α → α} {l : List α} {is : List Nat} {n : Nat} (hmem : n ∈ is) (hn : n < l.length) (d : α) :
    (modMany is f l).getD n d = f (l.getD n d) := by
  simp [modMany, List.getD_eq_getElem?_getD, hn, hmem]

section
variable {q : Nat} {ab : Bool} {s : State}

theorem pllLocked_plls (h : 2 * q + b2n ab < s.plls.length) : (pllLocked q ab s).plls.getD (2 * q + b2n ab) false = true :=
  getD_modAt false _ _ _ h

theorem mem_pllLanes_lt {n : Nat} (hq : q < 10) (hmem : n ∈ pllLanes q ab) : n < 40 := by
  cases ab <;> simp [pllLanes] at hmem <;> omega

theorem pllLocked_clears {n : Nat} (hmem : n ∈ pllLanes q ab) (hn : n < s.lanes.length) :
    bits (laneOf n (pllLocked q ab s)).faults 0 0 = 0 := by
  rw [laneOf, pllLocked, getD_modMany hmem hn]
  exact setFault_false_clears _

section
variable (hq : q < 10) (huse : ∃ n ∈ pllLanes q ab, laneOn n s = true)
include hq huse

theorem lanePllLock_locks : exec (.lanePllLock q ab) s = .next (pllLocked q ab s) := by
  have hany : (pllLanes q ab).any (fun n => laneOn n s) = true := List.any_eq_true.mpr huse
  exact congrArg Host.Outcome.next (if_pos ⟨hq, hany⟩)

theorem lanePllRelock_locks : exec (.lanePllRelock q ab true) s = .next (pllLocked q ab s) := by
  have hany : (pllLanes q ab).any (fun n => laneOn n s) = true := List.any_eq_true.mpr huse
  exact congrArg Host.Outcome.next (if_pos ⟨hq, rfl, hany⟩)

end

theorem lanePllRelock_fails : exec (.lanePllRelock q ab false) s = .next s :=
  congrArg Host.Outcome.next (if_neg fun h => Bool.noConfusion h.2.1)

/-- The lanes of a PLL lose it (R391). -/
def pllLost (q : Nat) (ab : Bool) (s : State) : State :=
  losePll (pllLanes q ab) { s with plls := modAt s.plls (2 * q + b2n ab) fun _ => false }

theorem lanePllLoss_idle (h : s.plls.getD (2 * q + b2n ab) false = false) : exec (.lanePllLoss q ab) s = .next s :=
  congrArg Host.Outcome.next (if_neg fun hlocked => Bool.noConfusion (h.symm.trans hlocked.2))

section
variable (hq : q < 10) (hlocked : s.plls.getD (2 * q + b2n ab) false = true)
include hq hlocked

theorem lanePllLoss_ungrouped (h0 : groupOfLane ((pllLanes q ab).headD 0) (pllLost q ab s) = none)
    (h1 : groupOfLane ((pllLanes q ab).getD 1 0) (pllLost q ab s) = none) :
    exec (.lanePllLoss q ab) s = .next (pllLost q ab s) := by
  rw [pllLost] at h0 h1
  simp only [exec, execLanePllLoss, hq, hlocked, h0, h1, and_self, if_true]
  rfl

theorem lanePllLoss_retrains {g : Nat} (h0 : groupOfLane ((pllLanes q ab).headD 0) (pllLost q ab s) = some g)
    (h1 : groupOfLane ((pllLanes q ab).getD 1 0) (pllLost q ab s) = some g) :
    exec (.lanePllLoss q ab) s = .next (redLinkDown (retrainFrom 1 g (pllLost q ab s))) := by
  rw [pllLost] at h0 h1
  simp only [exec, execLanePllLoss, hq, hlocked, h0, h1, and_self, if_true]
  rfl

end

end

/-! ### Bring-up (R404, R405, R409) -/

section
variable {n : Nat} {o : LaneObs} {s : State}

theorem laneBringUp_waits (h : laneOn n s = false ∨ s.plls.getD (pllOf n) false = false ∨ (laneOf n s).idle = true) :
    exec (.laneBringUp n o) s = .next s := by
  have hwait : (!laneOn n s || !s.plls.getD (pllOf n) false || (laneOf n s).idle) = true := by
    rcases h with h | h | h <;> simp only [h, Bool.not_false, Bool.true_or, Bool.or_true]
  exact congrArg Host.Outcome.next (if_pos hwait)

section
variable (hon : laneOn n s = true) (hpll : s.plls.getD (pllOf n) false = true) (hidle : (laneOf n s).idle = false)
include hon hpll hidle

theorem laneBringUp_without_receiver (hp : laneProto s.cfg.accepted n = 1) (hrx : o.receiver = false) :
    exec (.laneBringUp n o) s = .next (laneErr 1 n 3 0
      (modLane n (fun l => { l with receiver := false, signal := false, state := 1 }) (endScan 2 n s))) := by
  simp only [exec, execLaneBringUp, hon, hpll, hidle, hp, hrx]
  rfl

theorem laneBringUp_adapts (hp : laneProto s.cfg.accepted n ≠ 4) (hrx : o.receiver = true) (hsig : o.signal = true) :
    exec (.laneBringUp n o) s = .next (adaptLane n o (if (laneOf n s).state = 2 then endScan 2 n s else s)) := by
  simp only [exec, execLaneBringUp, hon, hpll, hidle, hp, hrx, hsig]
  rfl

theorem laneBringUp_transmits (hp : laneProto s.cfg.accepted n = 4) :
    exec (.laneBringUp n o) s = .next (modLane n (fun l => { l with receiver := o.receiver, state := 2 }) s) := by
  simp only [exec, execLaneBringUp, hon, hpll, hidle, hp]
  rfl

theorem laneBringUp_without_signal (hp : laneProto s.cfg.accepted n = 2) (hsig : o.signal = false) :
    exec (.laneBringUp n o) s = .next
      (modLane n (fun l => { l with receiver := o.receiver, signal := false, state := 1 }) (endScan 2 n s)) := by
  simp only [exec, execLaneBringUp, hon, hpll, hidle, hp]
  simp [hsig]

end

theorem signalDetect_notes (hon : laneOn n s = true) : exec (.signalDetect n) s =
    .next (modLane n (fun l => { l with signal := true, state := if l.state = 3 then 1 else l.state }) s) :=
  congrArg Host.Outcome.next (if_pos hon)

end

/-! ### Continuous adaptation (R410, R411) -/

/-- A tap of the equaliser after a sign-sign step; taps beyond those of the lane's kind stay (R410). -/
def tapStep (n : Nat) (signs : List Int) (k : Nat) (d : Int) : Int :=
  if k < (if laneDeep n then 12 else 6) then clampI (-128) 127 (d + Int.sign (signs.getD k 0)) else d

theorem tapStep_near (n : Nat) (signs : List Int) (k : Nat) {d : Int} (hlo : -128 ≤ d) (hhi : d ≤ 127) :
    -128 ≤ tapStep n signs k d ∧ tapStep n signs k d ≤ 127 ∧ tapStep n signs k d ≤ d + 1 ∧ d ≤ tapStep n signs k d + 1 := by
  have hsign := Int.sign_trichotomy (signs.getD k 0)
  unfold tapStep clampI
  generalize Int.sign (signs.getD k 0) = e at hsign
  split_ifs <;> omega

/-- Leaving a limit ends its fault bit and touches nothing else. -/
theorem leaveLimit_eq (n : Nat) (l : Lane) : ∃ b, leaveLimit n l = { l with faults := b } := by
  unfold leaveLimit
  split
  · exact ⟨_, rfl⟩
  · exact ⟨_, rfl⟩

section
variable {n : Nat} {s : State}

theorem dfeUpdate_steps (hadapt : adapting n s = true) (hn : n < s.lanes.length) (signs : List Int) (g : Int) :
    ∃ t b, exec (.dfeUpdate n signs g) s = .next t ∧ laneOf n t = { laneOf n s with
      faults := b, dfe := (laneOf n s).dfe.zipIdx.map (fun x => tapStep n signs x.2 x.1), gain := (laneOf n s).gain + Int.sign g } := by
  obtain ⟨b, hb⟩ := leaveLimit_eq n { laneOf n s with
    dfe := (laneOf n s).dfe.zipIdx.map (fun x => tapStep n signs x.2 x.1), gain := (laneOf n s).gain + Int.sign g }
  exact ⟨_, b, congrArg Host.Outcome.next (if_pos hadapt), (laneOf_modLane hn _).trans hb⟩

/-- The CTLE setting after an update: one step up or down where that neighbour is at least 10 % better (R410). -/
def ctleStep (ctle below here above : Nat) : Nat :=
  if ctle < 15 ∧ 11 * here ≤ 10 * above ∧ ((ctle = 0 ∨ 10 * below < 11 * here) ∨ below ≤ above) then ctle + 1
  else if 0 < ctle ∧ 11 * here ≤ 10 * below then ctle - 1 else ctle

theorem ctleUpdate_steps (hadapt : adapting n s = true) (hn : n < s.lanes.length) (below here above : Nat) :
    ∃ t, exec (.ctleUpdate n below here above) s = .next t ∧ (laneOf n t).ctle = ctleStep (laneOf n s).ctle below here above := by
  refine ⟨_, congrArg Host.Outcome.next (if_pos hadapt), ?_⟩
  rw [laneOf_modLane hn]
  extract_lets up down
  have hkeep : ∀ l, (leaveLimit n l).ctle = l.ctle := fun l => by
    obtain ⟨b, hb⟩ := leaveLimit_eq n l
    rw [hb]
  rw [hkeep, apply_ite Lane.ctle, apply_ite Lane.ctle]
  simp [ctleStep, up, down, and_assoc]

theorem adaptation_idle (h : adapting n s = false) :
    (∀ l g, exec (.dfeUpdate n l g) s = .next s) ∧ (∀ a b c, exec (.ctleUpdate n a b c) s = .next s) ∧
      exec (.adaptationAtLimit n) s = .next s := by
  simp [exec, execDfeUpdate, execCtleUpdate, execAdaptationAtLimit, h]

theorem adaptationAtLimit_logs (hadapt : adapting n s = true) (hend : atEnd n (laneOf n s) = true)
    (hnew : bits (laneOf n s).faults 5 5 = 0) :
    exec (.adaptationAtLimit n) s = .next (laneErr 0 n 9 0 (modLane n (setFault 5 true) s)) := by
  simp [exec, execAdaptationAtLimit, hadapt, hend, hnew]

end

/-! ### Faults (R415, R416) -/

section
variable {n : Nat} {s : State} (hon : laneOn n s = true)
include hon

theorem transmitterLegFault_idles (b : Bool) : exec (.transmitterLegFault n b) s = .next
    (modLane n (fun l => { l with idle := true, idleAt := s.dev.elapsed, state := 4 })
      (endScan 2 n (beginFault n (if b = true then 2 else 1) 5 1 (b2n b) s))) :=
  congrArg Host.Outcome.next (if_pos hon)

theorem transmitterRetry_due (hidle : (laneOf n s).idle = true) (hp : laneProto s.cfg.accepted n ≠ 0)
    (hdue : (laneOf n s).idleAt + 100 * ticksPerMs ≤ s.dev.elapsed) :
    exec (.transmitterRetry n) s = .next (modLane n (fun x => { x with idle := false, state := 1 }) s) := by
  simp [exec, execTransmitterRetry, hon, hidle, hp, hdue]

theorem commonModeFault_begins : exec (.commonModeFault n) s = .next (beginFault n 4 6 1 0 s) :=
  congrArg Host.Outcome.next (if_pos hon)

theorem laneFaultEnd_clears (f : LaneFault) : exec (.laneFaultEnd n f) s = .next (modLane n (setFault (faultBit f) false) s) :=
  congrArg Host.Outcome.next (if_pos hon)

end

theorem transmitterRetry_early {n : Nat} {s : State} (h : s.dev.elapsed < (laneOf n s).idleAt + 100 * ticksPerMs) :
    exec (.transmitterRetry n) s = .next s := by
  simp [exec, execTransmitterRetry, Nat.not_le.mpr h]

/-! ### Loss of signal (R415, R457) -/

/-- What the detectors of the lanes report. -/
def signals (s : State) : List Bool := s.lanes.map (·.signal)

theorem signal_of_signals (n : Nat) (s : State) : (signals s).getD n false = (laneOf n s).signal :=
  getD_map_getD Lane.signal s.lanes n {}

theorem lanes_length_of_signals {s t : State} (h : signals t = signals s) : t.lanes.length = s.lanes.length := by
  simpa [signals] using congrArg List.length h

theorem signals_modLane {f : Lane → Lane} {n : Nat} {s : State} (h : ∀ x, (f x).signal = x.signal) :
    signals (modLane n f s) = signals s := map_modAt_id h ..

theorem signals_endScan (st n : Nat) (s : State) : signals (endScan st n s) = signals s := by
  rw [endScan]
  exact signals_modLane fun _ => rfl

theorem modGroup_lanes (g : Nat) (f : LinkGroup → LinkGroup) (s : State) : (modGroup g f s).lanes = s.lanes := rfl

theorem dropReceiving_lanes (n : Nat) (s : State) : (dropReceiving n s).lanes = s.lanes := by
  unfold dropReceiving
  dsimp only
  repeat' split
  all_goals rfl

theorem dropStream_lanes (g k : Nat) (s : State) : (dropStream g k s).lanes = s.lanes := by
  unfold dropStream
  dsimp only
  split
  · rfl
  · split
    · split
      · exact dropReceiving_lanes ..
      · rfl
    · rfl

theorem clearFlight_lanes (st g : Nat) (s : State) : (clearFlight st g s).lanes = s.lanes := by
  rw [clearFlight, modGroup_lanes, dropStreams]
  simp only [dropStream_lanes]

theorem signals_restartLanes (l : List Nat) (s : State) : signals (restartLanes l s) = signals s := by
  induction l generalizing s with
  | nil => rfl
  | cons n r ih =>
    refine (ih _).trans (Eq.trans ?_ (signals_endScan 2 n s))
    exact signals_modLane fun _ => rfl

theorem signals_retrainNow (g : Nat) (s : State) : signals (retrainNow g s) = signals s := by
  have hdown : ∀ t, signals (redLinkDown t) = signals t := fun t => by
    unfold redLinkDown
    split <;> rfl
  unfold retrainNow retrain
  rw [hdown]
  split
  · rfl
  · rw [signals, modGroup_lanes, ← signals, retrainFrom, signals_restartLanes, signals, clearFlight_lanes, raise_lanes, signals]

/-- The lane of a lost signal, before its group retrains. -/
def signalLost (n : Nat) (s : State) : State :=
  modLane n (fun l => { l with state := if l.state = 5 then 5 else 3, signal := false, losEvents := wrapInc 32 l.losEvents })
    (endScan 2 n (beginFault n 3 4 1 0 s))

section
variable {n : Nat} {s : State} (hon : laneOn n s = true) (h3 : (laneOf n s).state ≠ 3)
include hon h3

theorem lossOfSignal_ungrouped (hg : groupOfLane n (signalLost n s) = none) :
    exec (.lossOfSignal n) s = .next (signalLost n s) := by
  rw [signalLost] at hg
  simp only [exec, execLossOfSignal, hon, bne_iff_ne.mpr h3, hg]
  rfl

theorem lossOfSignal_grouped {g : Nat} (hg : groupOfLane n (signalLost n s) = some g) :
    exec (.lossOfSignal n) s = .next (modLane n (fun l => { l with state := 3 }) (retrainNow g (signalLost n s))) := by
  rw [signalLost] at hg
  simp only [exec, execLossOfSignal, hon, bne_iff_ne.mpr h3, hg]
  rfl

end

section
variable {n : Nat} {s : State} (hn : n < s.lanes.length)
include hn

theorem signalLost_lane (h5 : (laneOf n s).state ≠ 5) :
    (laneOf n (signalLost n s)).state = 3 ∧ (laneOf n (signalLost n s)).signal = false := by
  have hlen : n < (endScan 2 n (beginFault n 3 4 1 0 s)).lanes.length := by simpa using hn
  have hstate : (laneOf n (endScan 2 n (beginFault n 3 4 1 0 s))).state = (laneOf n s).state :=
    (laneOf_endScan_state ..).trans (laneOf_beginFault_proj (g := Lane.state) fun _ => rfl)
  rw [signalLost, laneOf_modLane hlen]
  exact ⟨if_neg (by rwa [hstate]), rfl⟩

theorem lossOfSignal_takes (hon : laneOn n s = true) (h3 : (laneOf n s).state ≠ 3) (h5 : (laneOf n s).state ≠ 5) :
    ∃ t, exec (.lossOfSignal n) s = .next t ∧ (laneOf n t).state = 3 ∧ (laneOf n t).signal = false := by
  obtain ⟨hstate, hsignal⟩ := signalLost_lane hn h5
  cases hg : groupOfLane n (signalLost n s) with
  | none => exact ⟨_, lossOfSignal_ungrouped hon h3 hg, hstate, hsignal⟩
  | some g =>
    have hlost : (signalLost n s).lanes.length = s.lanes.length := by simp [signalLost]
    have hlen : n < (retrainNow g (signalLost n s)).lanes.length := by
      rwa [lanes_length_of_signals (signals_retrainNow g _), hlost]
    have hstays : (laneOf n (retrainNow g (signalLost n s))).signal = false := by
      rw [← signal_of_signals, signals_retrainNow, signal_of_signals, hsignal]
    refine ⟨_, lossOfSignal_grouped hon h3 hg, ?_⟩
    rw [laneOf_modLane hlen]
    exact ⟨rfl, hstays⟩

end

/-! ### Eye scans (R418, R420) -/

section
variable {n : Nat} {c : Scan} {s : State}

/-- A scan with the count of one more point. -/
def pointCounted (e : Nat) (c : Scan) (s : State) : Scan :=
  if c.counts.length + 1 = c.rows * c.cols then
    { c with counts := c.counts ++ [min e 0xFFFFFFFF], status := 1, stop := nowTod s }
  else { c with counts := c.counts ++ [min e 0xFFFFFFFF] }

theorem pointCounted_counts (e : Nat) : (pointCounted e c s).counts = c.counts ++ [min e 0xFFFFFFFF] := by
  unfold pointCounted
  split <;> rfl

theorem pointCounted_status (e : Nat) (hrun : c.status = 0) :
    (pointCounted e c s).status = if c.counts.length + 1 = c.rows * c.cols then 1 else 0 := by
  rw [← hrun]
  exact apply_ite Scan.status ..

theorem scanPointComplete_counts (hscan : (laneOf n s).scan = some c) (hrun : c.status = 0) (hn : n < s.lanes.length) (e : Nat) :
    ∃ t, exec (.scanPointComplete n e) s = .next t ∧ (laneOf n t).scan = some (pointCounted e c s) := by
  refine ⟨_, rfl, ?_⟩
  rw [laneOf_modLane hn]
  simp [hscan, hrun, pointCounted]

theorem scanPointComplete_idle (hscan : (laneOf n s).scan = none) (e : Nat) : exec (.scanPointComplete n e) s = .next s := by
  refine congrArg Host.Outcome.next (modLane_eq_self ?_)
  rw [hscan, Option.map_none, ← hscan]

theorem endScan_keeps (hscan : (laneOf n s).scan = some c) (hrun : c.status = 0) (hn : n < s.lanes.length) (st : Nat) :
    (laneOf n (endScan st n s)).scan = some { c with status := st, stop := nowTod s } := by
  rw [endScan, laneOf_modLane hn]
  simp [hscan, hrun]

end

/-! ### PCIe links (R400) -/

section
variable {s : State}

theorem pcieLinkUp_root {k : Nat} (w : Nat) (hk : k < 4) : exec (.pcieLinkUp (some k) w) s = .next (linkTrained k w s) :=
  congrArg Host.Outcome.next (if_pos hk)

theorem pcieLinkUp_unknown {k : Nat} (w : Nat) (hk : 4 ≤ k) : exec (.pcieLinkUp (some k) w) s = .next s :=
  congrArg Host.Outcome.next (if_neg (Nat.not_lt.mpr hk))

theorem pcieLinkUp_endpoint (w : Nat) (hon : epOn s = true) : exec (.pcieLinkUp none w) s =
    .next (linkTrained 4 w (modEp (fun e => { e with linkUp := true, width := w }) s)) := by
  simp [exec, execPcieLinkUp, hon]

theorem pcieLinkUp_off (w : Nat) (hoff : epOn s = false) (hst : s.dev.state ≠ .configError) :
    exec (.pcieLinkUp none w) s = .next s := by
  simp [exec, execPcieLinkUp, hoff, hst]

/-- The powered lanes of a list come up. -/
def lanesUp (l : List Nat) (s : State) : State :=
  l.foldl (fun u n => if laneOn n u then modLane n (fun x => { x with state := 2 }) u else u) s

/-- Bringing lanes up changes lanes alone, and which lanes are powered is not theirs to say. -/
theorem lanesUp_eq (l : List Nat) (s : State) : ∃ ls, lanesUp l s = { s with lanes := ls } ∧ ls.length = s.lanes.length := by
  refine List.foldlRecOn (motive := fun t : State => ∃ ls, t = { s with lanes := ls } ∧ ls.length = s.lanes.length) l _
    ⟨_, rfl, rfl⟩ ?_
  rintro t ⟨ls, rfl, hlen⟩ n -
  split
  · exact ⟨_, rfl, (modAt_length ..).trans hlen⟩
  · exact ⟨_, rfl, hlen⟩

theorem lanesUp_stays {m : Nat} (l : List Nat) (h : (laneOf m s).state = 2) : (laneOf m (lanesUp l s)).state = 2 := by
  refine List.foldlRecOn (motive := fun t : State => (laneOf m t).state = 2) l _ h fun t ht n _ => ?_
  split
  · exact getD_modAt_of (P := fun x : Lane => x.state = 2) ht (fun _ _ => rfl) n
  · exact ht

theorem lanesUp_state {m : Nat} {l : List Nat} (hmem : m ∈ l) (hon : laneOn m s = true) (hm : m < s.lanes.length) :
    (laneOf m (lanesUp l s)).state = 2 := by
  obtain ⟨a, b, rfl⟩ := List.append_of_mem hmem
  obtain ⟨ls, hls, hlen⟩ := lanesUp_eq a s
  have hfirst : lanesUp (a ++ m :: b) s = lanesUp b (modLane m (fun x => { x with state := 2 }) { s with lanes := ls }) := by
    have hon' : laneOn m { s with lanes := ls } = true := hon
    rw [← hls] at hon' ⊢
    simp only [lanesUp, List.foldl_append, List.foldl_cons] at hon' ⊢
    rw [if_pos hon']
  rw [hfirst]
  refine lanesUp_stays b ?_
  rw [laneOf_modLane (s := { s with lanes := ls }) (by rwa [hlen])]

/-- A link that trains brings its lanes up, and is logged when it is narrow (R400). -/
theorem linkTrained_cases (k w : Nat) (s : State) : linkTrained k w s = lanesUp (pcieLanes k s.cfg.accepted) s ∨
    ∃ n, w < 4 ∧ linkTrained k w s = laneErr 1 n 0x0A w (lanesUp (pcieLanes k s.cfg.accepted) s) := by
  unfold linkTrained
  dsimp only
  split
  case h_1 n _ _ =>
    split
    case isTrue h => exact .inr ⟨n, of_decide_eq_true (Bool.and_eq_true_iff.mp h).1, rfl⟩
    case isFalse => exact .inl rfl
  case h_2 => exact .inl rfl

theorem linkTrained_lanes (k w : Nat) (s : State) : (linkTrained k w s).lanes = (lanesUp (pcieLanes k s.cfg.accepted) s).lanes := by
  obtain h | ⟨n, -, h⟩ := linkTrained_cases k w s
  · rw [h]
  · rw [h, laneErr_lanes]

theorem linkTrained_wide {k w : Nat} (hw : 4 ≤ w) : linkTrained k w s = lanesUp (pcieLanes k s.cfg.accepted) s := by
  obtain h | ⟨n, hlt, -⟩ := linkTrained_cases k w s
  · exact h
  · omega

end

/-- Settles O49: each event takes the branch that the lane's state selects; what follows it leaves the lane's fields named. -/
theorem laneEvents : Obligations.LaneEvents := by
  unfold Obligations.LaneEvents
  refine ⟨?lock, fun _ _ _ => lanePllRelock_fails, fun q ab s hq hlocked => ⟨lanePllLoss_ungrouped hq hlocked,
    fun g => lanePllLoss_retrains hq hlocked⟩, fun _ _ _ => lanePllLoss_idle, fun _ _ _ => laneBringUp_waits, ?bringUp,
    fun _ _ => signalDetect_notes, ?dfe, ?ctle, fun _ _ => adaptation_idle, fun _ _ => adaptationAtLimit_logs, ?leg, ?retry,
    ?commonMode, fun _ _ hon h3 h5 hn => lossOfSignal_takes hn hon h3 h5, ?point,
    fun _ e _ hscan => scanPointComplete_idle hscan e, ?linkUp, ?trained⟩
  case lock =>
    intro q ab s hq huse hplls hlanes
    exact ⟨_, _, lanePllLock_locks hq huse, lanePllRelock_locks hq huse, rfl, pllLocked_plls hplls,
      fun n hmem => pllLocked_clears hmem (hlanes ▸ mem_pllLanes_lt hq hmem)⟩
  case bringUp =>
    exact fun n o s hon hpll hidle => ⟨laneBringUp_without_receiver hon hpll hidle, laneBringUp_adapts hon hpll hidle,
      laneBringUp_transmits hon hpll hidle, laneBringUp_without_signal hon hpll hidle⟩
  case dfe =>
    intro n signs g s hadapt hn
    obtain ⟨t, b, hexec, hlane⟩ := dfeUpdate_steps hadapt hn signs g
    refine ⟨t, hexec, ?_⟩
    rw [hlane]
    refine ⟨by simp, rfl, fun k d hk hlo hhi => ⟨tapStep n signs k d, ?_, tapStep_near n signs k hlo hhi⟩⟩
    simp [List.getElem?_zipIdx, hk]
  case ctle =>
    intro n below here above s hadapt hn
    obtain ⟨t, hexec, hctle⟩ := ctleUpdate_steps hadapt hn below here above
    refine ⟨t, hexec, ?_⟩
    rw [hctle]
    unfold ctleStep
    refine ⟨fun hlt hup hle => ?_, fun hlt hdown hup => ?_, fun hup hdown => ?_⟩
    · exact if_pos ⟨hlt, hup, .inr hle⟩
    · rw [if_neg (by omega), if_pos ⟨hlt, hdown⟩]
      omega
    · rw [if_neg (by omega), if_neg (by omega)]
  case leg =>
    intro n b s hon hn
    have hlen : n < (endScan 2 n (beginFault n (if b = true then 2 else 1) 5 1 (b2n b) s)).lanes.length := by
      simpa using hn
    refine ⟨_, transmitterLegFault_idles hon b, ?_⟩
    rw [laneOf_modLane hlen]
    refine ⟨rfl, rfl, rfl, fun hold => ?_, fun hnew => ?_⟩
    · rw [beginFault_silent hold]
      rfl
    · rw [beginFault_logs hnew]
      exact laneErr_modLane_log ..
  case retry => exact fun n s hon hidle hp => ⟨transmitterRetry_due hon hidle hp, transmitterRetry_early⟩
  case commonMode =>
    intro n s hon
    rw [commonModeFault_begins hon]
    exact ⟨fun hnew => by rw [beginFault_logs hnew], fun hold => by rw [beginFault_silent hold], laneFaultEnd_clears hon⟩
  case point =>
    intro n e c s hscan hrun hn
    obtain ⟨t, hexec, hpoint⟩ := scanPointComplete_counts hscan hrun hn e
    exact ⟨t, _, hexec, hpoint, pointCounted_counts e, pointCounted_status e hrun, _, endScan_keeps hscan hrun hn 2, rfl, rfl⟩
  case linkUp =>
    exact fun k w s => ⟨pcieLinkUp_root w, pcieLinkUp_unknown w, pcieLinkUp_endpoint w, pcieLinkUp_off w⟩
  case trained =>
    intro k w n s hmem hon hn
    refine ⟨?_, fun hw => ?_⟩
    · rw [laneOf, linkTrained_lanes]
      exact lanesUp_state hmem hon hn
    · obtain ⟨ls, hls, -⟩ := lanesUp_eq (pcieLanes k s.cfg.accepted) s
      rw [linkTrained_wide hw, hls]

end Sys2Proof.Proofs

/-! PROOFS. A link group after the changes of a step, and what a retrain leaves of it (R450, R457). -/

namespace Sys2Proof.Proofs
open Sys2Proof Sys2Proof.Machine Sys2Proof.Laws

/-! ### A group after a change -/

section
variable {g : Nat} {s : State}

theorem groupOf_modGroup (hg : g < s.links.length) (f : LinkGroup → LinkGroup) : groupOf g (modGroup g f s) = f (groupOf g s) :=
  getD_modAt ({} : LinkGroup) f s.links g hg

@[simp] theorem modGroup_links_length (k : Nat) (f : LinkGroup → LinkGroup) : (modGroup k f s).links.length = s.links.length :=
  modAt_length ..

@[simp] theorem groupOf_raise (sev code inst : Nat) (ds : List Nat) : groupOf g (raise sev code inst ds s) = groupOf g s := by
  rw [groupOf, raise_links, groupOf]

/-- A standby that falls out of sync writes its redundancy alone. -/
theorem redLinkDown_cases (s : State) : redLinkDown s = s ∨ redLinkDown s = modRed (fun r => { r with state := 2 }) s := by
  unfold redLinkDown
  split
  · exact .inr rfl
  · exact .inl rfl

@[simp] theorem redLinkDown_links (s : State) : (redLinkDown s).links = s.links := by
  rcases redLinkDown_cases s with h | h <;> rw [h]
  rfl

@[simp] theorem groupOf_redLinkDown : groupOf g (redLinkDown s) = groupOf g s := by
  rw [groupOf, redLinkDown_links, groupOf]

end

/-! ### What a retrain keeps of the groups -/

/-- The rates, the retrains counted and the control messages waiting of a group. -/
def standing (x : LinkGroup) : Nat × Nat × Nat × List CtrlMsg := (x.rate, x.goodRate, x.retrains, x.ctrlQ)

/-- The standing parts of all groups. -/
def standingAll (s : State) : List (Nat × Nat × Nat × List CtrlMsg) := s.links.map standing

theorem standing_of_standingAll {s t : State} (h : standingAll t = standingAll s) (g : Nat) :
    standing (groupOf g t) = standing (groupOf g s) := by
  have hget := congrArg (fun l => l.getD g (standing {})) h
  exact (getD_map_getD standing t.links g {}).symm.trans (hget.trans (getD_map_getD standing s.links g {}))

theorem links_length_of_standingAll {s t : State} (h : standingAll t = standingAll s) : t.links.length = s.links.length := by
  simpa [standingAll] using congrArg List.length h

theorem standingAll_of_links {s t : State} (h : t.links = s.links) : standingAll t = standingAll s := congrArg (List.map standing) h

theorem standingAll_modGroup {f : LinkGroup → LinkGroup} (h : ∀ x, standing (f x) = standing x) (g : Nat) (s : State) :
    standingAll (modGroup g f s) = standingAll s := map_modAt_id h ..

theorem dropReceiving_links (n : Nat) (s : State) : (dropReceiving n s).links = s.links := by
  unfold dropReceiving
  dsimp only
  repeat' split
  all_goals rfl

theorem standingAll_dropStream (g k : Nat) (s : State) : standingAll (dropStream g k s) = standingAll s := by
  have hstream : ∀ f, standingAll (modStream g k f s) = standingAll s := fun f => standingAll_modGroup (by exact fun _ => rfl) ..
  unfold dropStream
  dsimp only
  split
  · rfl
  · split
    · split
      · exact (standingAll_of_links (dropReceiving_links ..)).trans (hstream _)
      · exact hstream _
    · exact hstream _

theorem standingAll_dropStreams (g : Nat) (s : State) : standingAll (dropStreams g s) = standingAll s := by
  simp only [dropStreams, standingAll_dropStream]

@[simp] theorem restartLanes_links (l : List Nat) (s : State) : (restartLanes l s).links = s.links := by
  induction l generalizing s with
  | nil => rfl
  | cons n r ih => exact ih _

theorem standingAll_retrainFrom (st g : Nat) (s : State) : standingAll (retrainFrom st g s) = standingAll s := by
  rw [retrainFrom, standingAll, restartLanes_links, ← standingAll, clearFlight]
  exact (standingAll_modGroup (by exact fun _ => rfl) ..).trans (standingAll_dropStreams g s)

/-- A group that restarts its training is at the step it restarts from. -/
theorem retrainFrom_state {g : Nat} {s : State} (hg : g < s.links.length) (st : Nat) :
    (groupOf g (retrainFrom st g s)).state = st := by
  have hlen : g < (dropStreams g s).links.length := by rwa [links_length_of_standingAll (standingAll_dropStreams g s)]
  rw [retrainFrom, groupOf, restartLanes_links, ← groupOf, clearFlight, groupOf_modGroup hlen]

/-! ### A retrain (R457) -/

section
variable {g : Nat} {s : State}

/-- A group that has left receiver detection logs its retrain, counts it and goes back to step 2. -/
theorem retrainNow_leaves (hst : 2 ≤ (groupOf g s).state) (hg : g < s.links.length) :
    (groupOf g (retrainNow g s)).state = 2 ∧ (groupOf g (retrainNow g s)).retrains = (groupOf g s).retrains + 1 ∧
      (groupOf g (retrainNow g s)).ctrlQ = (groupOf g s).ctrlQ := by
  set t := raise 1 (linkErr g 5) g [] s
  have hgt : g < t.links.length := by rwa [raise_links]
  have hall : standingAll (retrainFrom 2 g t) = standingAll s :=
    (standingAll_retrainFrom 2 g t).trans (standingAll_of_links (raise_links ..))
  have hlen : g < (retrainFrom 2 g t).links.length := by rwa [links_length_of_standingAll hall]
  have hkeep := standing_of_standingAll hall g
  simp only [standing, Prod.mk.injEq] at hkeep
  obtain ⟨-, -, hretrains, hctrl⟩ := hkeep
  rw [retrainNow, groupOf_redLinkDown, retrain, if_neg (by omega), groupOf_modGroup hlen]
  exact ⟨retrainFrom_state hgt 2, congrArg (· + 1) hretrains, hctrl⟩

end

end Sys2Proof.Proofs

/-! PROOFS. The bring-up, training, alignment, capability exchange, rate steps and retrains of a link group (R431, R437, R449 to
R453, R457). -/

namespace Sys2Proof.Proofs
open Sys2Proof Sys2Proof.Machine Sys2Proof.Laws

/-! ### Receiver detection (R450 step 1) -/

section
variable {g : Nat} {s : State}

/-- A group that is detecting moves on when every lane has a receiver. -/
theorem detectGroup_detects (hon : groupOn g s = true) (hst : (groupOf g s).state ≤ 1) (hok : (groupOf g s).refused = false)
    (hred : s.red.state ≠ 6) (hg : g < s.links.length) :
    (groupOf g (detectGroup g s)).state = (if (groupLanes s.cfg.accepted g).all fun n => (laneOf n s).receiver then 2 else 1) ∧
      (groupOf g (detectGroup g s)).rate = firstRate g s := by
  have hdue : (groupOn g s && decide ((groupOf g s).state ≤ 1) && !(groupOf g s).refused && s.red.state != 6) = true := by
    simp [hon, hst, hok, hred]
  unfold detectGroup
  rw [if_pos hdue, groupOf_modGroup hg]
  exact ⟨rfl, rfl⟩

/-- A group past receiver detection does not detect again. -/
theorem detectGroup_past (hst : 2 ≤ (groupOf g s).state) : detectGroup g s = s := by
  have hpast : decide ((groupOf g s).state ≤ 1) = false := decide_eq_false (by omega)
  simp [detectGroup, hpast]

end

/-! ### Training (R449, R450 steps 3 and 4) -/

section
variable {g lane m i : Nat} {f : BitVec 48} {s : State}

theorem trainingBlock_corrupt (hcrc : crc8 f.toNat ≠ f.toNat % 256) (inv : Bool) :
    exec (.trainingBlock g lane f inv m) s = .next s := by
  simp [exec, execTrainingBlock, hcrc]

/-- A block without a request leaves a lane that has answered its requests. -/
theorem takeRequest_none {n dir : Nat} (hack : ((groupOf g s).lanes.getD i {}).ackTap = 0) : takeRequest g i n 0 dir s = s :=
  if_pos (.inl hack.symm)

theorem trainingBlock_taken (hon : groupOn g s = true) (hst : (groupOf g s).state = 2)
    (hlane : lane ∈ groupLanes s.cfg.accepted g) (hcrc : crc8 f.toNat = f.toNat % 256) (htap : bits f.toNat 39 37 = 0)
    (hi : i = lane - F.LINK_FIRST_LANE.get g s.cfg.accepted) (hack : ((groupOf g s).lanes.getD i {}).ackTap = 0) :
    exec (.trainingBlock g lane f false m) s = .next (endTraining g (sendBlock g i lane m (modTrain g i (fun t => { t with
        seen := some (bits f.toNat 47 44, bits f.toNat 43 40)
        streak := if readyMetric (groupOf g s).rate ≤ m ∧ bits f.toNat 29 29 = 1 then t.streak + 1 else 0 })
      (modLane lane (fun l => { l with reversal := false, metric := m, signal := true }) s)))) := by
  subst hi
  have hrequest : ∀ h dir, takeRequest g (lane - F.LINK_FIRST_LANE.get g s.cfg.accepted) lane 0 dir (modLane lane h s) =
      modLane lane h s := fun _ _ => takeRequest_none hack
  simp [exec, execTrainingBlock, hon, hst, hlane, hcrc, htap, hrequest]

theorem trainingStepTimeout_restarts (hon : groupOn g s = true)
    (hst : (groupOf g s).state = 2 ∨ (groupOf g s).state = 3 ∨ (groupOf g s).state = 4) (hmode : cfgB F.LINK_MODE g s = false) :
    exec (.trainingStepTimeout g) s = .next (modGroup g (fun y => { y with retraining := false })
      (retrainFrom 1 g (raise 1 (linkErr g 2) g [] s))) := by
  have hstep : ((groupOf g s).state == 2 || (groupOf g s).state == 3 || (groupOf g s).state == 4) = true := by
    rcases hst with h | h | h <;> simp [h]
  simp [exec, execTrainingStepTimeout, hon, hstep, hmode]

end

/-! ### Alignment blocks of a group past alignment (R430, R457) -/

section
variable {g lane i : Nat} {s : State} (hon : groupOn g s = true) (hlane : lane ∈ groupLanes s.cfg.accepted g)
  (hst : 4 ≤ (groupOf g s).state) (hi : i = lane - F.LINK_FIRST_LANE.get g s.cfg.accepted)
include hon hlane hst hi

theorem alignmentBlock_matches :
    exec (.alignmentBlock g lane 0xC3A596F00F695A3C (logicalLane g i s) (F.LINK_WIDTH.get g s.cfg.accepted)
      ((((groupOf g s).lanes.getD i {}).counter + 1) % 2 ^ 32)) s =
      .next (modTrain g i (fun l => { l with
        counter := (((groupOf g s).lanes.getD i {}).counter + 1) % 2 ^ 32, missed := 0 }) s) := by
  subst hi
  have hpast : ¬ (groupOf g s).state < 3 := by omega
  have hpast3 : (groupOf g s).state ≠ 3 := by omega
  simp [exec, execAlignmentBlock, hon, hlane, hpast, hpast3]

/-- A block without the marker counts as missed on its lane, and the third in a row retrains the group. -/
theorem alignmentBlock_misses {marker : Nat} (x w c : Nat) (hmarker : marker ≠ 0xC3A596F00F695A3C) :
    exec (.alignmentBlock g lane marker x w c) s = .next (if ((groupOf g s).lanes.getD i {}).missed < 2
      then modTrain g i (fun l => { l with counter := (l.counter + 1) % 2 ^ 32, missed := l.missed + 1 }) s
      else retrainNow g s) := by
  subst hi
  have hpast : ¬ (groupOf g s).state < 3 := by omega
  have hpast3 : (groupOf g s).state ≠ 3 := by omega
  simp [exec, execAlignmentBlock, hon, hlane, hmarker, hpast, hpast3]

end

/-! ### Capabilities (R452, R453) -/

section
variable {g : Nat} {bytes : List Byte} {fec : Bool} {s : State} (hon : groupOn g s = true)
include hon

section
variable (hst : (groupOf g s).state = 4)
include hst

theorem capabilityCell_discarded (hcell : cellOk 5 bytes fec = false) :
    exec (.capabilityCell g bytes fec) s = .next (discardCell g fec s) := by
  simp [exec, execCapabilityCell, hon, hst, hcell]

variable (hcell : cellOk 5 bytes fec = true) (hpeer : wrongPeer g (cellWords bytes) s = false)
include hcell hpeer

theorem capabilityCell_refused (hbad : capabilityBad g (cellWords bytes) s = true) :
    exec (.capabilityCell g bytes fec) s = .next (modGroup g (fun x => { x with refused := true })
      (retrainFrom 1 g (raise 1 (linkErr g 3) g [] s))) := by
  simp [exec, execCapabilityCell, hon, hst, hcell, hpeer, hbad]

/-- A capability that fits is kept, and without ACK the group waits on. -/
theorem capabilityCell_kept (hbad : capabilityBad g (cellWords bytes) s = false) (hack : (cellWords bytes).getD 4 0 % 2 = 0)
    (hg : g < s.links.length) :
    ∃ t, exec (.capabilityCell g bytes fec) s = .next t ∧ (groupOf g t).capOk = true ∧ (groupOf g t).state = 4 ∧
      (groupOf g t).offer = [bits ((cellWords bytes).getD 3 0) 15 0, bits ((cellWords bytes).getD 3 0) 23 16,
        bits ((cellWords bytes).getD 3 0) 31 24] := by
  simp only [exec, execCapabilityCell, hon, hst, hcell, hpeer, hbad, hack]
  refine ⟨_, rfl, ?_⟩
  simp [groupOf_modGroup hg, hst]

end

theorem capabilityRefuseExpiry_detects (hrefused : (groupOf g s).refused = true) : exec (.capabilityRefuseExpiry g) s =
    .next (detectGroup g (modGroup g (fun x => { x with refused := false }) s)) := by
  simp [exec, execCapabilityRefuseExpiry, hon, hrefused]

end

/-! ### Rate steps (R451) -/

section
variable {g : Nat} {s : State}

section
variable (hon : groupOn g s = true) (hst : (groupOf g s).state = 5)
include hon hst

theorem step_acknowledged {r : Nat} (hg : g < s.links.length) (hmode : cfgB F.LINK_MODE g s = true) (hstep : stepper g s = false)
    (hr : r = rateAbove (groupOf g s).rate) (hr0 : r ≠ 0) (htop : r ≤ topRate g s) :
    ∃ t, exec (.step g r) s = .next t ∧ (groupOf g t).state = 6 ∧ (groupOf g t).stepTo = r ∧
      (groupOf g t).cmdQ = (groupOf g s).cmdQ ++ [3 + r * 256] := by
  have hnext : (cfgB F.LINK_MODE g s && !stepper g s && r == rateAbove (groupOf g s).rate && r != 0 &&
      decide (r ≤ topRate g s)) = true := by
    simp [hmode, hstep, ← hr, hr0, htop]
  simp only [exec, execStep, hon, hst, hnext]
  refine ⟨_, rfl, ?_⟩
  simp [groupOf_modGroup hg]

theorem step_refused {r : Nat} (hr : r ≠ rateAbove (groupOf g s).rate) : exec (.step g r) s =
    .next (modGroup g (fun y => { y with cmdQ := y.cmdQ ++ [4 + r * 256] }) s) := by
  simp [exec, execStep, hon, hst, hr]

theorem stepAnswer_taken (hstep : stepper g s = true) (hto : (groupOf g s).stepTo ≠ 0) :
    exec (.stepAck g) s = .next (redLinkDown (modGroup g (fun y => { y with state := 6 }) s)) ∧
      exec (.stepRefuse g) s =
        .next (raise 1 (linkErr g 4) g [] (modGroup g (fun y => { y with stepTo := 0, stepped := true }) s)) := by
  simp [exec, execStepAck, execStepRefuse, hon, hst, hstep, hto]

end

theorem stepAnswer_unasked (hto : (groupOf g s).stepTo = 0) :
    exec (.stepAck g) s = .next s ∧ exec (.stepRefuse g) s = .next s := by
  simp [exec, execStepAck, execStepRefuse, hto]

/-- A group resumes bring-up at a rate from step 2, and the last rate it was active at stays. -/
theorem atRate_group (hg : g < s.links.length) (r : Nat) : (groupOf g (atRate g r s)).state = 2 ∧
    (groupOf g (atRate g r s)).rate = r ∧ (atRate g r s).links.length = s.links.length := by
  have hlen : (retrainFrom 2 g s).links.length = s.links.length := links_length_of_standingAll (standingAll_retrainFrom 2 g s)
  have hgroup : groupOf g (atRate g r s) = { groupOf g (retrainFrom 2 g s) with rate := r, stepTo := 0 } :=
    groupOf_modGroup (hlen ▸ hg) _
  rw [hgroup]
  exact ⟨retrainFrom_state hg 2, rfl, (modGroup_links_length ..).trans hlen⟩

theorem rateStepExpiry_resumes (hon : groupOn g s = true) (hst : (groupOf g s).state = 6) (hg : g < s.links.length) :
    ∃ t, exec (.rateStepExpiry g) s = .next t ∧ (groupOf g t).state = 2 ∧ (groupOf g t).rate = (groupOf g s).stepTo ∧
      (groupOf g t).goodRate = (groupOf g s).goodRate := by
  obtain ⟨hstate, hrate, hlen⟩ := atRate_group hg (groupOf g s).stepTo
  have hdue : (groupOn g s && (groupOf g s).state == 6) = true := by simp [hon, hst]
  refine ⟨_, congrArg Host.Outcome.next (if_pos hdue), ?_⟩
  rw [groupOf_modGroup (hlen ▸ hg)]
  exact ⟨hstate, hrate, rfl⟩

end

/-- The causes of a retrain, and a stuffing allowance exceeded, which only logs (R434, R444, R457). -/
theorem retrainCauses {g : Nat} {s : State} (hon : groupOn g s = true) :
    exec (.linkRetrainCommand g) s = .next (retrainNow g s) ∧ exec (.uncorrectableLimit g) s = .next (retrainNow g s) ∧
      (3 ≤ (groupOf g s).state → exec (.elasticFifoOverflow g) s = .next (retrainNow g (raise 2 (linkErr g 9) g [] s))) ∧
      exec (.stuffingAllowanceExceeded g) s = .next (raise 0 (linkErr g 8) g [] s) := by
  refine ⟨congrArg Host.Outcome.next (if_pos hon), congrArg Host.Outcome.next (if_pos hon), fun hst => ?_,
    congrArg Host.Outcome.next (if_pos hon)⟩
  simp [exec, execElasticFifoOverflow, hon, hst]

/-- Settles O50: each event takes the branch that the group's state selects; a retrain's steps leave what `standing` reads. -/
theorem linkTraining : Obligations.LinkTraining := by
  unfold Obligations.LinkTraining
  refine ⟨?detect, fun _ _ hst => ⟨congrArg _ (detectGroup_past hst), congrArg _ (detectGroup_past hst)⟩,
    fun _ _ _ inv _ _ hcrc => trainingBlock_corrupt hcrc inv, fun _ _ _ _ _ _ => trainingBlock_taken,
    fun _ _ => trainingStepTimeout_restarts, ?aligned, ?missed,
    fun _ _ _ _ hon hst => ⟨capabilityCell_discarded hon hst,
      fun hcell hbad hpeer => capabilityCell_refused hon hst hcell hpeer hbad,
      fun hcell hbad hpeer => capabilityCell_kept hon hst hcell hpeer hbad⟩,
    fun _ _ => capabilityRefuseExpiry_detects, fun _ _ _ hon hst hg => ⟨step_acknowledged hon hst hg, step_refused hon hst⟩,
    fun _ _ => stepAnswer_taken, fun _ _ => stepAnswer_unasked, fun _ _ => rateStepExpiry_resumes, fun _ _ => retrainCauses,
    fun _ _ => retrainNow_leaves⟩
  case detect =>
    intro g s hon hst hok hred hg
    obtain ⟨hstate, hrate⟩ := detectGroup_detects hon hst hok hred hg
    refine ⟨_, rfl, rfl, ?_, ?_, hrate⟩
    · rw [hstate]
      simp
    · rw [hstate]
      split
      · exact .inr rfl
      · exact .inl rfl
  case aligned =>
    rintro g lane c i s hon hlane hst hi rfl
    exact alignmentBlock_matches hon hlane hst hi
  case missed =>
    intro g lane marker x w c i s hon hlane hst hi hmarker
    rw [alignmentBlock_misses hon hlane hst hi x w c hmarker]
    exact ⟨fun hfew => by rw [if_pos hfew], fun hmany => by rw [if_neg (Nat.not_lt.mpr hmany)]⟩

end Sys2Proof.Proofs

/-! PROOFS. Cells, credits, control messages and time cells of a link group (R437, R439 to R441, R446, R448, R454, R457). -/

namespace Sys2Proof.Proofs
open Sys2Proof Sys2Proof.Machine Sys2Proof.Laws

/-! ### Acknowledgements of control messages (R441) -/

section
variable {g ack : Nat} {s : State}

@[simp] theorem scriptAcked_links (n : Nat) (s : State) : (scriptAcked n s).links = s.links := rfl

/-- Beside the group, an acknowledgement can only concern the loop whose script it settles. -/
theorem noteAck_links (g ack : Nat) (s : State) : (noteAck g ack s).links = (modGroup g (takeAck ack) s).links := by
  unfold noteAck
  dsimp only
  repeat' split
  all_goals rfl

theorem groupOf_noteAck (hg : g < s.links.length) : groupOf g (noteAck g ack s) = takeAck ack (groupOf g s) := by
  rw [groupOf, noteAck_links]
  exact groupOf_modGroup hg _

end

theorem takeAck_settles {x : LinkGroup} (hout : x.ctrlOut = true) : takeAck x.ctrlSeq x =
    { x with ctrlOut := false, ctrlCells := [], repeats := 0, ctrlQ := x.ctrlQ.drop 1, ctrlSeq := wrapInc 16 x.ctrlSeq } := by
  simp [takeAck, hout]

theorem takeAck_other {x : LinkGroup} {ack : Nat} (h : ack ≠ x.ctrlSeq) : takeAck ack x = x := by
  simp [takeAck, h]

theorem takeAck_freed (ack : Nat) (x : LinkGroup) : (takeAck ack x).freed = x.freed := by
  unfold takeAck
  split <;> rfl

/-! ### Events of an active group -/

section
variable {g : Nat} {s : State}

theorem inactive_ignores (hoff : groupActive g s = false) (bytes : List Byte) (fec : Bool) :
    exec (.creditCell g bytes fec) s = .next s ∧ exec (.pixelCell g bytes fec) s = .next s ∧
      exec (.creditCellTimer g) s = .next s ∧ exec (.controlAckTimeout g) s = .next s ∧
      exec (.streamAnnounceTimer g) s = .next s ∧ exec (.timeCellTimer g) s = .next s := by
  simp [exec, execCreditCell, execPixelCell, execCreditCellTimer, execControlAckTimeout, execStreamAnnounceTimer, execTimeCellTimer,
    hoff]

section
variable (hon : groupOn g s = true) (hact : groupActive g s = true)
include hon hact

/-! ### Credits (R446, R457) -/

section
variable {bytes : List Byte} {fec : Bool}

theorem creditCell_discarded (hcell : cellOk 3 bytes fec = false) :
    exec (.creditCell g bytes fec) s = .next (discardCell g fec s) := by
  simp [exec, execCreditCell, hon, hact, hcell]

/-- A credit cell sets what the peer has freed, and then its acknowledgement is taken. -/
theorem creditCell_taken (hcell : cellOk 3 bytes fec = true) (hg : g < s.links.length) :
    ∃ t, exec (.creditCell g bytes fec) s = .next t ∧
      groupOf g t = takeAck ((cellWords bytes).getD 3 0 % 65536) { groupOf g s with freed := (cellWords bytes).take 3 } := by
  simp only [exec, execCreditCell, hon, hact, hcell]
  refine ⟨_, rfl, ?_⟩
  rw [← groupOf_modGroup hg fun x => { x with freed := (cellWords bytes).take 3 }]
  exact groupOf_noteAck (by simpa using hg)

end

theorem creditCellTimer_due : exec (.creditCellTimer g) s = .next (modGroup g (fun x => { x with creditDue := true }) s) := by
  simp [exec, execCreditCellTimer, hon, hact]

theorem creditStarvation_retrains {c : Nat} (hc : c < 3) (hwait : classWaiting c (groupOf g s) = true)
    (hcredit : hasCredit c (groupOf g s) = false) : exec (.creditStarvation g c) s = .next (retrainNow g s) := by
  simp [exec, execCreditStarvation, hon, hact, hc, hwait, hcredit]

/-! ### Pixel cells (R439) -/

section
variable {bytes : List Byte} {fec : Bool}

theorem pixelCell_discarded (hcell : cellOk 1 bytes fec = false) :
    exec (.pixelCell g bytes fec) s = .next (discardCell g fec (freeCells g 0 1 s)) := by
  simp [exec, execPixelCell, hon, hact, hcell]

theorem pixelCell_taken (hcell : cellOk 1 bytes fec = true) (hrole : s.dev.role = .body) (hg8 : g ≠ 8) :
    exec (.pixelCell g bytes fec) s = .next
      (takePixel g (bits (cellHeader bytes) 9 8) (bits (cellHeader bytes) 7 0) (bits (cellHeader bytes) 11 11 == 1)
        (bits (cellHeader bytes) 10 10 == 1) ((bytes.drop 2).take 128) (freeCells g 0 1 s)) := by
  simp [exec, execPixelCell, hon, hact, hcell, hrole, hg8]

end

/-! ### Control messages (R440, R441) -/

section
variable (hout : (groupOf g s).ctrlOut = true)
include hout

theorem controlAckTimeout_repeats (hfew : (groupOf g s).repeats < 8) : exec (.controlAckTimeout g) s = .next
    (modGroup g (fun y => { y with
      repeats := y.repeats + 1, ctrlCells := (y.ctrlQ.head?.map (controlCells y.ctrlSeq)).getD [] }) s) := by
  simp [exec, execControlAckTimeout, hon, hact, hout, hfew]

theorem controlAckTimeout_retrains (hmany : 8 ≤ (groupOf g s).repeats) :
    exec (.controlAckTimeout g) s = .next (retrainNow g (raise 1 (linkErr g 7) g [] s)) := by
  simp [exec, execControlAckTimeout, hon, hact, hout, Nat.not_lt.mpr hmany]

end

section
variable (hg8 : g ≠ 8)
include hg8

theorem streamAnnounceTimer_announces (hrole : s.dev.role = .head) : exec (.streamAnnounceTimer g) s = .next (announceAll g s) := by
  simp [exec, execStreamAnnounceTimer, hon, hact, hrole, hg8]

section
variable {ws : List Word}

theorem controlMessage_out_of_order (hseq : (ws.getD 0 0).toNat % 65536 ≠ (groupOf g s).ctrlIn) :
    exec (.controlMessage g ws) s = .next (freeCells g 1 (bits (ws.getD 0 0).toNat 23 16) s) := by
  simp only [exec, execControlMessage, hon, hact, Bool.not_true, Bool.or_self, Bool.false_eq_true, if_false, if_neg hg8,
    if_pos hseq]

theorem controlMessage_in_order (hseq : (ws.getD 0 0).toNat % 65536 = (groupOf g s).ctrlIn) (hroom : controlWaits ws s = false) :
    exec (.controlMessage g ws) s = .next (dispatchControl g ws (modGroup g (fun y => { y with ctrlIn := wrapInc 16 y.ctrlIn })
      (freeCells g 1 (bits (ws.getD 0 0).toNat 23 16) s))) := by
  simp only [exec, execControlMessage, hon, hact, hroom, Bool.not_true, Bool.or_self, Bool.false_eq_true, if_false, if_neg hg8,
    if_neg (not_not_intro hseq)]

end

/-! ### Time cells of a body (R454) -/

section
variable (hrole : s.dev.role = .body)
include hrole

theorem timeCellTimer_queues : exec (.timeCellTimer g) s = .next (modGroup g (fun x => { x with timeQ := x.timeQ ++ [[]] }) s) := by
  simp [exec, execTimeCellTimer, hon, hact, hrole, hg8]

theorem timeCell_stamped (ws : List Word) (a : Tod) : exec (.timeCell g ws a) s = .next (freeCells g 2 1
    (modGroup g (fun x => { x with arrived := (⟨((ws.map (·.toNat)).getD 0 0) % 65536, a⟩ :: x.arrived).take 16 }) s)) := by
  have hbody : (s.dev.role == Role.head) = false := by rw [hrole]; rfl
  simp [exec, execTimeCell, hon, hact, hg8, hbody]

end

end

end

theorem creditStarvation_idle {c : Nat} (hcredit : hasCredit c (groupOf g s) = true) :
    exec (.creditStarvation g c) s = .next s := by
  simp [exec, execCreditStarvation, hcredit]

end

/-! ### Slots (R442, R448, R452) -/

/-- Moving to the next lane position changes neither what the slot sent nor the lanes nor the queues. -/
theorem nextSlot_sent (width : Nat) (x : LinkGroup) :
    (nextSlot width x).tx = x.tx ∧ (nextSlot width x).lastCell = x.lastCell ∧ (nextSlot width x).cmdQ = x.cmdQ := by
  unfold nextSlot
  split <;> exact ⟨rfl, rfl, rfl⟩

theorem openControl_cmdQ (x : LinkGroup) : (openControl x).cmdQ = x.cmdQ := by
  unfold openControl
  repeat' split
  all_goals rfl

theorem openControl_fillerRow (x : LinkGroup) : (openControl x).fillerRow = x.fillerRow := by
  unfold openControl
  repeat' split
  all_goals rfl

/-- A link command goes before every other cell but a filler row's. -/
theorem slotCell_command {x : LinkGroup} {s : State} {c : Nat} {r : List Nat} (hrow : x.fillerRow = false) (hq : x.cmdQ = c :: r) :
    slotCell x s = (commandCell (c % 256) (c / 256), { openControl x with cmdQ := r }) := by
  simp [slotCell, openControl_cmdQ, openControl_fillerRow, hrow, hq]

section
variable {g : Nat} {s : State}

theorem cellOfSlot_aligning (hst : (groupOf g s).state = 3) : (cellOfSlot g s).1 = mkCell 0 false false 0 0 [] := by
  simp [cellOfSlot, hst]

theorem cellOfSlot_capability (hst : (groupOf g s).state = 4) (hrow : (groupOf g s).fillerRow = false) :
    (cellOfSlot g s).1 = mkCell 5 false false 0 0 (natBytes (capabilityWords g s)) := by
  simp [cellOfSlot, hst, hrow]

theorem cellOfSlot_active (hact : groupActive g s = true) : cellOfSlot g s = slotCell (groupOf g s) s := by
  have hst : (groupOf g s).state = 5 := beq_iff_eq.mp hact
  simp [cellOfSlot, hst]

variable (hon : groupOn g s = true)
include hon

theorem cellSlot_idle (hst : (groupOf g s).state < 3) : exec (.cellSlot g) s = .next s := by
  simp [exec, execCellSlot, hon, hst]

/-- A slot sends its cell on the lane whose turn it is, and leaves the group as the choice of the cell does. -/
theorem cellSlot_sends (hst : 3 ≤ (groupOf g s).state) (hg : g < s.links.length) : ∃ t, exec (.cellSlot g) s = .next t ∧
    (groupOf g t).tx = modAt (cellOfSlot g s).2.tx (cellOfSlot g s).2.pos (frameCell (ratePam4 (cellOfSlot g s).2.rate)
      (cellOfSlot g s).2.pos (cfgN F.LINK_WIDTH g s) (cellOfSlot g s).1) ∧
    (groupOf g t).lastCell = (cellOfSlot g s).1 ∧ (groupOf g t).cmdQ = (cellOfSlot g s).2.cmdQ := by
  have hsend : (!groupOn g s || decide ((groupOf g s).state < 3)) = false := by simp [hon, Nat.not_lt.mpr hst]
  refine ⟨_, congrArg Host.Outcome.next (if_neg (Bool.eq_false_iff.mp hsend)), ?_⟩
  rw [groupOf_modGroup hg]
  exact nextSlot_sent ..

end

/-- Settles O51: each event takes the branch that the group's state selects, and a slot's cell is the choice of R448. -/
theorem linkCells : Obligations.LinkCells := by
  unfold Obligations.LinkCells
  refine ⟨?credit, fun _ bytes fec _ hoff => inactive_ignores hoff bytes fec, fun _ _ => creditCellTimer_due,
    fun _ _ _ hon hact hc => ⟨creditStarvation_retrains hon hact hc, creditStarvation_idle⟩,
    fun _ _ _ _ hon hact => ⟨pixelCell_discarded hon hact, pixelCell_taken hon hact⟩, ?ackTimeout,
    fun _ _ hon hact hg8 => ⟨streamAnnounceTimer_announces hon hact hg8, timeCellTimer_queues hon hact hg8⟩,
    fun _ _ _ hon hact hg8 => ⟨controlMessage_out_of_order hon hact hg8, controlMessage_in_order hon hact hg8⟩,
    fun _ ws a _ hon hact hg8 hrole => timeCell_stamped hon hact hg8 hrole ws a, ?slot⟩
  case credit =>
    intro g bytes fec s hon hact
    refine ⟨creditCell_discarded hon hact, fun hcell hg => ?_⟩
    obtain ⟨t, hexec, hgroup⟩ := creditCell_taken hon hact hcell hg
    refine ⟨t, hexec, ?_⟩
    rw [hgroup]
    refine ⟨takeAck_freed .., fun hout hack => ?_, fun hack => ?_⟩
    · have hsettles := takeAck_settles (x := { groupOf g s with freed := (cellWords bytes).take 3 }) hout
      rw [hack, hsettles]
      exact ⟨rfl, rfl, rfl⟩
    · rw [takeAck_other (x := { groupOf g s with freed := (cellWords bytes).take 3 }) hack]
      exact ⟨rfl, rfl⟩
  case ackTimeout =>
    intro g s hon hact hout
    refine ⟨fun hfew hg => ⟨_, controlAckTimeout_repeats hon hact hout hfew, ?_⟩, controlAckTimeout_retrains hon hact hout⟩
    rw [groupOf_modGroup hg]
    refine ⟨rfl, fun m hm => ?_⟩
    simp [hm]
  case slot =>
    intro g s hon
    refine ⟨cellSlot_idle hon, fun hst hg => ?_⟩
    obtain ⟨t, hexec, htx, hcell, hcmd⟩ := cellSlot_sends hon hst hg
    refine ⟨t, hexec, htx, fun h3 => hcell.trans (cellOfSlot_aligning h3),
      fun h4 hrow => hcell.trans (cellOfSlot_capability h4 hrow), fun hact => ?_⟩
    rw [cellOfSlot_active hact] at hcell hcmd
    refine ⟨hcell, fun hrow c r hq => ?_⟩
    rw [slotCell_command hrow hq] at hcell hcmd
    exact ⟨hcell, hcmd⟩

end Sys2Proof.Proofs

/-! PROOFS. What a takeover, a refused claim and the suspended state leave of the mailboxes and the power (R348, R353, R573, R576,
R784, R786). -/

namespace Sys2Proof.Proofs
open Sys2Proof Sys2Proof.Machine Sys2Proof.Laws

/-! ### The volume acquired (R351, R355) -/

/-- Acquiring the volume sends admin commands, writes the members' reservations and the volume's state, and may log. -/
theorem acquireVolume_proj {β : Type} {g : State → β} (hsend : ∀ k c t, g (sendAdmin k c t) = g t)
    (hmedia : ∀ k f t, g (modMedia k f t) = g t) (hvol : ∀ v t, g (modRec (fun r => { r with volume := v }) t) = g t)
    (hraise : ∀ sev code inst ds t, g (raise sev code inst ds t) = g t) (preempt : Bool) (s : State) :
    g (acquireVolume preempt s) = g s := by
  unfold acquireVolume
  split
  · rfl
  · split
    · exact hvol 2 s
    · extract_lets key u t
      have hu : g u = g s := List.foldlRecOn (motive := fun x => g x = g s) _ _ rfl fun x hx k _ => (hsend ..).trans hx
      split
      · exact (hraise ..).trans ((hvol 1 u).trans hu)
      · refine (hvol 2 t).trans ?_
        exact List.foldlRecOn (motive := fun x => g x = g s) _ _ hu fun x hx k _ => (hsend ..).trans ((hmedia ..).trans hx)

/-! ### The recorder takes over (R353) -/

@[simp] theorem walk_mbx (write : Bool) (vs : List Nat) (s : State) : (walk write vs s).mbx = s.mbx := modRec_mbx ..
@[simp] theorem markAlloc_mbx (v : Nat) (s : State) : (markAlloc v s).mbx = s.mbx := modRec_mbx ..
@[simp] theorem modRecStream_mbx (j : Nat) (f : RecStream → RecStream) (s : State) : (modRecStream j f s).mbx = s.mbx :=
  modRec_mbx ..
@[simp] theorem freeStage_mbx (j n : Nat) (s : State) : (freeStage j n s).mbx = s.mbx := modRecStream_mbx ..
@[simp] theorem beginPoint_mbx (s : State) : (beginPoint s).mbx = s.mbx := mbx_of_mailFailed (beginPoint_mailFailed s)
@[simp] theorem maybeEnd_mbx (s : State) : (maybeEnd s).mbx = s.mbx := mbx_of_mailFailed (maybeEnd_mailFailed s)
@[simp] theorem recFull_mbx (s : State) : (recFull s).mbx = s.mbx :=
  (mbx_of_mailFailed (stopClip_mailFailed ..)).trans (raise_mbx ..)

@[simp] theorem cutClip_mbx (n : Nat) (s : State) : (cutClip n s).mbx = s.mbx := by
  unfold cutClip
  split
  · exact putClip_mbx ..
  · rfl

@[simp] theorem acquireVolume_mbx (preempt : Bool) (s : State) : (acquireVolume preempt s).mbx = s.mbx :=
  acquireVolume_proj (g := State.mbx) (fun _ _ _ => sendSsd_mbx ..) (fun _ _ _ => rfl) (fun _ _ => rfl)
    (fun _ _ _ _ _ => raise_mbx ..) preempt s

theorem takeGran_mbx {clip : Nat} {c : Chain} {s : State} {q : Chain × State} (h : takeGran clip c s = some q) :
    q.2.mbx = s.mbx := by
  unfold takeGran at h
  dsimp only at h
  split at h
  · cases h
    dsimp only
    split
    · split <;> simp
    · simp
  · cases h

theorem growChain_mbx {k clip len : Nat} {c : Chain} {s : State} {q : Chain × State} (h : growChain k clip len c s = some q) :
    q.2.mbx = s.mbx := by
  induction k generalizing c s with
  | zero =>
    cases h
    rfl
  | succ k ih =>
    unfold growChain at h
    split at h
    · cases h
      rfl
    · obtain ⟨p, hp, hq⟩ := Option.bind_eq_some_iff.mp h
      exact (ih hq).trans (takeGran_mbx hp)

theorem appendChain_mbx {clip : Nat} {l : List Byte} {c : Chain} {s : State}
    {q : Chain × List (Nat × Nat × Nat × List Byte) × State} (h : appendChain clip l c s = some q) : q.2.2.mbx = s.mbx := by
  unfold appendChain at h
  obtain ⟨p, hp, rfl⟩ := Option.map_eq_some_iff.mp h
  exact growChain_mbx hp

theorem sendPieces_mbx (j flight : Nat) (ps : List (Nat × Nat × Nat × List Byte)) (s : State) :
    (sendPieces j flight ps s).mbx = s.mbx :=
  List.foldlRecOn (motive := fun t : State => t.mbx = s.mbx) _ _ rfl fun _ ht _ _ => (sendSsd_mbx ..).trans ht

/-- A unit takes granules and sends its pieces, or finds the volume full. -/
theorem writeUnit_mbx (c : Clip) (j : Nat) (u : RecUnit) (s : State) : (writeUnit c j u s).mbx = s.mbx := by
  unfold writeUnit
  dsimp only
  split
  · simp
  · next hr =>
    simp only [bind, pure, Option.bind_eq_some_iff, Option.some.injEq, Prod.mk.injEq] at hr
    obtain ⟨a, ha, b, hb, l, hl, rfl, rfl, rfl, rfl, rfl⟩ := hr
    simp [sendPieces_mbx, appendChain_mbx hl, appendChain_mbx hb, appendChain_mbx ha]

theorem writeRing_mbx (j : Nat) (p : RecPosition) (s : State) : (writeRing j p s).mbx = s.mbx := by
  unfold writeRing
  extract_lets us
  refine List.foldlRecOn (motive := fun t : State => t.mbx = s.mbx) us _ rfl fun t ht u _ => ?_
  split
  · extract_lets opens
    split
    · exact ht
    · exact (writeUnit_mbx ..).trans ht
  · exact ht

theorem writeRings_mbx (f : Nat → RecPosition) (l : List Nat) (s : State) :
    (l.foldl (fun t j => writeRing j (f j) t) s).mbx = s.mbx :=
  List.foldlRecOn (motive := fun t : State => t.mbx = s.mbx) _ _ rfl fun _ ht _ _ => (writeRing_mbx ..).trans ht

/-- Whatever the copy and the members hold, a takeover of the recorder leaves the mailboxes. -/
@[simp] theorem recTakeover_mbx (k : StateCopy) (s : State) : (recTakeover k s).mbx = s.mbx := by
  unfold recTakeover
  dsimp only
  split
  · rfl
  · split
    · split <;> simp
    · split
      · simp
      · split
        · simp
        · split
          · simp [apply_ite State.mbx]
          · split
            · simp
            · simp [apply_ite State.mbx, writeRings_mbx]

/-! ### The verdict of a claim (R573, R576) -/

theorem startLoop_mbx (n : Nat) (s : State) : (startLoop n s).mbx = s.mbx := by
  unfold startLoop request requestTagged
  simp [apply_ite State.mbx]

theorem startLoops_mbx (s : State) : (startLoops s).mbx = s.mbx :=
  List.foldlRecOn (motive := fun t : State => t.mbx = s.mbx) _ _ rfl fun _ ht _ _ => (startLoop_mbx ..).trans ht

theorem dirtyViews_mbx (s : State) : (dirtyViews s).mbx = s.mbx := rfl
theorem applyLoops_mbx (k : StateCopy) (s : State) : (applyLoops k s).mbx = s.mbx := rfl
theorem adoptTable_mbx (k : StateCopy) (s : State) : (adoptTable k s).mbx = s.mbx := rfl

/-- A body that becomes primary leaves the mailboxes, whatever it takes over. -/
theorem becomePrimary_mbx (s : State) : (becomePrimary s).mbx = s.mbx := by
  unfold becomePrimary
  dsimp only
  split
  · rw [acquireVolume_mbx, startLoops_mbx, dirtyViews_mbx, modRed_mbx]
  · rw [apply_ite State.mbx, raise_mbx, ite_self, raise_mbx, modRed_mbx]
    split
    · rw [recTakeover_mbx, adoptTable_mbx, applyLoops_mbx, dirtyViews_mbx, modRed_mbx]
    · rw [acquireVolume_mbx, startLoops_mbx, dirtyViews_mbx, modRed_mbx]

theorem beginResync_mbx (s : State) : (beginResync s).mbx = s.mbx := mbx_of_mailFailed (sendTakeover_mailFailed ..)

theorem claimRefused_mbx (s : State) : (claimRefused s).mbx = s.mbx := by
  unfold claimRefused
  extract_lets r t u
  have hu : u.mbx = s.mbx := raise_mbx ..
  split
  · exact beginResync_mbx t
  · split
    · exact hu
    · exact (beginResync_mbx u).trans hu

/-! ### The mailboxes and the power -/

/-- What the blocks that start or stop with the suspended state leave alone. -/
def mailPower (s : State) : Mailboxes × Power := (s.mbx, s.pwr)

theorem mailPower_of {s t : State} (hm : t.mbx = s.mbx) (hp : t.pwr = s.pwr) : mailPower t = mailPower s := Prod.ext hm hp

theorem mbx_of_mailPower {s : State} {p : Mailboxes × Power} (h : mailPower s = p) : s.mbx = p.1 := congrArg Prod.fst h

theorem pwr_of_mailPower {s : State} {p : Mailboxes × Power} (h : mailPower s = p) : s.pwr = p.2 := congrArg Prod.snd h

theorem mailPower_foldl {α : Type} (g : State → α → State) (l : List α) (s : State)
    (h : ∀ u x, mailPower (g u x) = mailPower u) : mailPower (l.foldl g s) = mailPower s :=
  List.foldlRecOn (motive := fun t => mailPower t = mailPower s) l g rfl fun t ht x _ => (h t x).trans ht

@[simp] theorem modRec_mailPower (f : Recorder → Recorder) (s : State) : mailPower (modRec f s) = mailPower s := rfl
@[simp] theorem modSsd_mailPower (k : Nat) (f : Ssd → Ssd) (s : State) : mailPower (modSsd k f s) = mailPower s := rfl
@[simp] theorem walk_mailPower (write : Bool) (vs : List Nat) (s : State) : mailPower (walk write vs s) = mailPower s := rfl

@[simp] theorem modOuts_mailPower (f : Outputs → Outputs) (s : State) : mailPower (modOuts f s) = mailPower s := rfl

@[simp] theorem raise_mailPower (sev code inst : Nat) (ds : List Nat) (s : State) :
    mailPower (raise sev code inst ds s) = mailPower s :=
  mailPower_of (raise_mbx ..) (raise_pwr ..)

theorem sendAdmin_mailPower (k : Nat) (c : SsdAdmin) (s : State) : mailPower (sendAdmin k c s) = mailPower s := by
  unfold sendAdmin sendSsd
  split <;> rfl

/-! ### Audio ports and viewfinders (R605, R614, R615) -/

theorem runAudio_mailPower (run : Bool) (p : Nat) (s : State) : mailPower (runAudio run p s) = mailPower s := by
  unfold runAudio
  dsimp only
  repeat' split
  all_goals rfl

theorem audioAtStart_mailPower (s : State) : mailPower (audioAtStart s) = mailPower s :=
  mailPower_foldl _ _ _ fun u p => by
    split <;> rfl

theorem viewsAtStart_mailPower (s : State) : mailPower (viewsAtStart s) = mailPower s :=
  mailPower_foldl _ _ _ fun u k => by
    split <;> rfl

/-! ### The volume mounted (R348) -/

@[simp] theorem acquireVolume_mailPower (preempt : Bool) (s : State) : mailPower (acquireVolume preempt s) = mailPower s :=
  acquireVolume_proj (fun _ _ _ => sendAdmin_mailPower ..) (fun _ _ _ => rfl) (fun _ _ => rfl) (fun _ _ _ _ _ => raise_mailPower ..)
    preempt s

theorem setupMember_mailPower (k : Nat) (s : State) : mailPower (setupMember k s) = mailPower s := by
  unfold setupMember
  extract_lets key dual qs l t
  have ht : mailPower t = mailPower s := mailPower_foldl _ _ _ fun _ _ => sendAdmin_mailPower ..
  exact (modSsd_mailPower ..).trans ht

theorem mountFrom_mailPower (b : SuperBlk) (l : List (Nat × SuperBlk)) (s : State) :
    mailPower (mountFrom b l s) = mailPower s := by
  unfold mountFrom
  extract_lets
  split <;> simp

theorem mountVolume_mailPower (s : State) : mailPower (mountVolume s) = mailPower s := by
  unfold mountVolume
  split
  · rfl
  · extract_lets ports u bad found ms
    have hu : mailPower u = mailPower s := mailPower_foldl _ _ _ fun t k => by
      split
      · exact setupMember_mailPower ..
      · rfl
    split
    · exact (mailPower_foldl _ _ _ fun _ _ => raise_mailPower ..).trans hu
    · split
      · exact (raise_mailPower ..).trans hu
      · split
        · exact (mountFrom_mailPower ..).trans hu
        · exact (raise_mailPower ..).trans hu

/-! ### The notice to the host (R368) -/

theorem deliverCq_pwr (qid : Nat) (x : Completion) (s : State) : (deliverCq qid x s).pwr = s.pwr := by
  unfold deliverCq
  repeat' split
  all_goals rfl

theorem completeOn_pwr (sq : Nat) (cmd : NvmeCmd) (a status dw0 : Nat) (data : List Byte) (s : State) :
    (completeOn sq cmd a status dw0 data s).pwr = s.pwr := by
  unfold completeOn
  extract_lets u
  have hu : u.pwr = s.pwr := by
    simp only [u]
    split <;> rfl
  split
  · exact (deliverCq_pwr ..).trans hu
  · exact hu

theorem finishCmd_pwr (a status dw0 : Nat) (data : List Byte) (s : State) : (finishCmd a status dw0 data s).pwr = s.pwr := by
  unfold finishCmd
  split
  · split
    · rfl
    · exact completeOn_pwr ..
  · rfl

theorem pushEvent_pwr (dw0 : Nat) (s : State) : (pushEvent dw0 s).pwr = s.pwr := by
  unfold pushEvent
  split
  · rfl
  · split
    · exact finishCmd_pwr ..
    · rfl

theorem noticeNs_mailPower (s : State) : mailPower (noticeNs s) = mailPower s := by
  unfold noticeNs
  split
  · exact mailPower_of (mbx_of_mailFailed (pushEvent_mailFailed ..)) (pushEvent_pwr ..)
  · rfl

/-! ### Entry into the suspended state and its end (R784, R786) -/

theorem leaveSelfRefresh_mailPower (s : State) : mailPower (leaveSelfRefresh s) = mailPower s :=
  mailPower_foldl _ _ _ fun u c => by
    split <;> rfl

theorem modMbx_mailPower (f : Mailboxes → Mailboxes) (s : State) : mailPower (modMbx f s) = (f s.mbx, s.pwr) := rfl
theorem modPwr_mailPower (f : Power → Power) (s : State) : mailPower (modPwr f s) = (s.mbx, f s.pwr) := rfl

/-- Entry begins, and nothing else of the mailboxes and the power changes yet. -/
theorem beginSuspend_mailPower (s : State) :
    mailPower (beginSuspend s) = (s.mbx, { s.pwr with entering := true, unmounting := false }) := by
  unfold beginSuspend
  extract_lets t u
  have hu : mailPower u = mailPower t := mailPower_foldl _ _ _ fun x p => by
    split
    · exact runAudio_mailPower ..
    · rfl
  exact (modOuts_mailPower ..).trans (hu.trans (modPwr_mailPower ..))

theorem resumePorts_mailPower (s : State) : mailPower (resumePorts s) = mailPower s := rfl
theorem resumeLanes_mailPower (s : State) : mailPower (resumeLanes s) = mailPower s := rfl
theorem resumeLoops_mailPower (s : State) : mailPower (resumeLoops s) = mailPower s := rfl

/-- The suspended state ends, and every core is awake. -/
theorem resume_mailPower (s : State) :
    mailPower (resume s) = ({ s.mbx with asleep := [] }, { s.pwr with suspended := false }) := by
  have hleave := leaveSelfRefresh_mailPower s
  have hmbx : (leaveSelfRefresh s).mbx = s.mbx := mbx_of_mailPower hleave
  have hpwr : (leaveSelfRefresh s).pwr = s.pwr := pwr_of_mailPower hleave
  unfold resume
  extract_lets t u v
  have hu : mailPower (modMbx (fun m => { m with asleep := [] }) u) =
      ({ s.mbx with asleep := [] }, { s.pwr with suspended := false }) := by
    rw [modMbx_mailPower, modPwr_mbx, modPwr_pwr, hmbx, hpwr]
  rw [audioAtStart_mailPower, viewsAtStart_mailPower, resumeLoops_mailPower, resumeLanes_mailPower, resumePorts_mailPower]
  exact (noticeNs_mailPower _).trans ((mountVolume_mailPower _).trans hu)

/-! ### A retrain of a group (R457) -/

theorem restartLanes_mailFailed (l : List Nat) (s : State) : mailFailed (restartLanes l s) = mailFailed s := by
  induction l generalizing s with
  | nil => rfl
  | cons n r ih => exact ih _

theorem retrainNow_mbx (g : Nat) (s : State) : (retrainNow g s).mbx = s.mbx := by
  have hdown : ∀ t, (redLinkDown t).mbx = t.mbx := fun t => by
    rcases redLinkDown_cases t with h | h <;> rw [h]
    rfl
  rw [retrainNow, hdown]
  unfold retrain
  split
  · rfl
  · exact mbx_of_mailFailed ((restartLanes_mailFailed ..).trans ((clearFlight_mailFailed ..).trans (raise_mailFailed ..)))

end Sys2Proof.Proofs

/-! PROOFS. Link retrain, schedule, cancel, claim verdict, suspend and resume (R463, R512, R514, R561, R576, R784, R786, R806). -/

namespace Sys2Proof.Proofs
open Sys2Proof Sys2Proof.Machine Sys2Proof.Laws

/-! ### LINK_RETRAIN (R463) -/

section
variable {g c tag : Nat} {p : Path} {s : State}

theorem msgDef_linkRetrain (hg : g < 9) : msgDef (0x0C01 + 16 * g) = some (linkRetrainMsg g) := by interval_cases g <;> rfl

theorem linkRetrain_act_off {r : Req} {tok : Bool} (hoff : groupOn g s = false) :
    (linkRetrainMsg g).act r tok s = (.refuse 7 0 0, s) := by
  simp [linkRetrainMsg, hoff]

/-- A group that is not stepped, or not yet training, keeps its rate. -/
theorem linkRetrain_act_on {r : Req} {tok : Bool} (hon : groupOn g s = true)
    (hrate : cfgB F.LINK_MODE g s = false ∨ (groupOf g s).state ≤ 1) :
    (linkRetrainMsg g).act r tok s = (.accept [], retrainNow g s) := by
  have hkeep : (cfgB F.LINK_MODE g s && decide (1 < (groupOf g s).state)) = false := by
    rcases hrate with h | h
    · simp [h]
    · simp [Nat.not_lt.mpr h]
  simp only [linkRetrainMsg, hon, hkeep, Bool.not_true, Bool.false_eq_true, if_false]

section
variable (hg : g < 9) (hc : c < 14) (ha : AtFront c p (0x0C01 + 16 * g) tag [] s) (hs : Started s)
  (hb : hasBlk (if g = 8 then .cage else .shaft) s = true)
include hg hc ha hs hb

theorem linkRetrain_run : runReq (some (linkRetrainMsg g)) (request1 c p (0x0C01 + 16 * g) tag []) none (popMsg c s) =
    (linkRetrainMsg g).act (request1 c p (0x0C01 + 16 * g) tag []) false (popMsg c s) :=
  runReq_started (d := linkRetrainMsg g) ha hc (by omega) (by omega) (by simp) hs hb rfl rfl rfl rfl rfl rfl PrivRule.noConfusion

theorem linkRetrain_refused (hoff : groupOn g s = false) :
    exec (.linkRetrain c) s = .next (refused (request1 c p (0x0C01 + 16 * g) tag []) 7 0 0 (popMsg c s)) :=
  runRow_refuses7 ha (by omega) (by simp) (msgDef_linkRetrain hg) (inFamily_front ha (by omega) (by simp) (by omega)) rfl
    (linkRetrain_run hg hc ha hs hb) (linkRetrain_act_off hoff)

theorem linkRetrain_retrains (hon : groupOn g s = true) (hrate : cfgB F.LINK_MODE g s = false ∨ (groupOf g s).state ≤ 1) :
    exec (.linkRetrain c) s = .next (replied (request1 c p (0x0C01 + 16 * g) tag []) [] (retrainNow g (popMsg c s))) :=
  runRow_accepts ha (by omega) (by simp) (msgDef_linkRetrain hg) (inFamily_front ha (by omega) (by simp) (by omega)) rfl
    (linkRetrain_run hg hc ha hs hb) (linkRetrain_act_on hon hrate) (retrainNow_mbx ..)

end

end

/-! ### SCHEDULE and CANCEL (R512, R514) -/

section
variable {c tag : Nat} {w1 w2 w3 h : Word} {p : Path} {s : State}

/-- A target takes three words, the upper two bits of the last of them reserved. -/
theorem schedule_masks (hw3 : w3.toNat < 2 ^ 30) : reservedSet scheduleMsg.masks [w1, w2, w3, h] = false := by
  have h3 : w3.toNat &&& 0x3FFFFFFF = w3.toNat := and_mask (k := 30) rfl hw3
  simp [scheduleMsg, reservedSet, and_full, h3]

theorem schedule_form (htod : todOk (w1.toNat + w2.toNat * 2 ^ 32 + w3.toNat * 2 ^ 64) = true) (hcount : hdrCount h.toNat = 1) :
    scheduleMsg.bad (request1 c p 0x0E20 tag [w1, w2, w3, h]) (popMsg c s) = false := by
  change (hdrCount h.toNat + 4 != 5 || !todOk (w1.toNat + w2.toNat * 2 ^ 32 + w3.toNat * 2 ^ 64)) = false
  rw [hcount, htod]
  rfl

section
variable (hc : c < 14) (ha : AtFront c p 0x0E20 tag [w1, w2, w3, h] s) (hs : Started s) (hw3 : w3.toNat < 2 ^ 30)
  (htod : todOk (w1.toNat + w2.toNat * 2 ^ 32 + w3.toNat * 2 ^ 64) = true) (hcount : hdrCount h.toNat = 1)
include hc ha hs hw3 htod hcount

theorem schedule_run : runReq (some scheduleMsg) (request1 c p 0x0E20 tag [w1, w2, w3, h]) none (popMsg c s) =
    scheduleMsg.act (request1 c p 0x0E20 tag [w1, w2, w3, h]) false (popMsg c s) :=
  runReq_started (d := scheduleMsg) ha hc (by decide) (by decide) (by simp) hs (hasBlk_always s) rfl (schedule_masks hw3)
    (schedule_form htod hcount) rfl rfl rfl PrivRule.noConfusion

theorem schedule_takes {i : Nat} (hfree : freeEntry s.time.table = some i)
    (hahead : todUnits (nowTod s) + 1000000 * 65536 ≤ todUnits (todUnpack (w1.toNat + w2.toNat * 2 ^ 32 + w3.toNat * 2 ^ 64)))
    (hpriv : hdrPriv h.toNat = false) (hcode : privilegedCode (hdrCode h.toNat) = false) (h20 : hdrCode h.toNat ≠ 0x0E20)
    (h21 : hdrCode h.toNat ≠ 0x0E21) :
    exec (.schedule c) s = .next (replied (request1 c p 0x0E20 tag [w1, w2, w3, h]) [i] { popMsg c s with time := { s.time with
      table := s.time.table.set i
        (some ⟨todUnpack (w1.toNat + w2.toNat * 2 ^ 32 + w3.toNat * 2 ^ 64), s.time.schedOrder, c, p, [h]⟩)
      schedOrder := s.time.schedOrder + 1 } }) := by
  refine runRow_accepts ha (by decide) (by simp) rfl (isCode_front ha (by decide) (by simp)) rfl
    (schedule_run hc ha hs hw3 htod hcount) ?_ ?_
  · have hmay : ¬ (todUnits (todUnpack (w1.toNat + w2.toNat * 2 ^ 32 + w3.toNat * 2 ^ 64)) <
        todUnits (nowTod s) + 1000000 * 65536 ∨ hdrPriv h.toNat = true ∨ privilegedCode (hdrCode h.toNat) = true ∨
        hdrCode h.toNat = 0x0E20 ∨ hdrCode h.toNat = 0x0E21) :=
      not_or.mpr ⟨Nat.not_lt.mpr hahead, by simp [hpriv, hcode, h20, h21]⟩
    unfold scheduleMsg
    dsimp only
    rw [show (popMsg c s).time = s.time from rfl, hfree]
    exact if_neg hmay
  · rfl

theorem schedule_refused (hfull : freeEntry s.time.table = none) :
    exec (.schedule c) s = .next (refused (request1 c p 0x0E20 tag [w1, w2, w3, h]) 7 0 0 (popMsg c s)) := by
  refine runRow_refuses7 ha (by decide) (by simp) rfl (isCode_front ha (by decide) (by simp)) rfl
    (schedule_run hc ha hs hw3 htod hcount) ?_
  unfold scheduleMsg
  dsimp only
  rw [show (popMsg c s).time = s.time from rfl, hfull]

end

section
variable {w : Word} (hc : c < 14) (ha : AtFront c p 0x0E21 tag [w] s) (hs : Started s) (hw : w.toNat < 32)
include hc ha hs hw

theorem cancel_run : runReq (some cancelMsg) (request1 c p 0x0E21 tag [w]) none (popMsg c s) =
    cancelMsg.act (request1 c p 0x0E21 tag [w]) false (popMsg c s) :=
  runReq_started (d := cancelMsg) ha hc (by decide) (by decide) (by simp) hs (hasBlk_always s) rfl
    (reservedSet_mask (and_mask (k := 5) rfl hw)) rfl rfl rfl rfl PrivRule.noConfusion

theorem cancel_frees (hused : (s.time.table.getD w.toNat none).isSome = true) :
    exec (.cancel c) s = .next (replied (request1 c p 0x0E21 tag [w]) []
      { popMsg c s with time := { s.time with table := s.time.table.set w.toNat none } }) := by
  have hkeep : ¬ (s.time.table.getD w.toNat none).isNone = true := by simpa [Option.isSome_iff_ne_none] using hused
  exact runRow_accepts ha (by decide) (by simp) rfl (isCode_front ha (by decide) (by simp)) rfl (cancel_run hc ha hs hw)
    (if_neg hkeep) rfl

theorem cancel_refused (hfree : s.time.table.getD w.toNat none = none) :
    exec (.cancel c) s = .next (refused (request1 c p 0x0E21 tag [w]) 7 0 0 (popMsg c s)) := by
  have hnone : (s.time.table.getD w.toNat none).isNone = true := by rw [hfree]; rfl
  exact runRow_refuses7 ha (by decide) (by simp) rfl (isCode_front ha (by decide) (by simp)) rfl (cancel_run hc ha hs hw)
    (if_pos hnone)

end

end

/-! ### CLAIM_VERDICT (R561, R576) -/

section
variable {g c tag : Nat} {w a b d : Word} {s : State}

theorem claimVerdict_masks (hw : w.toNat < 2) : reservedSet claimVerdictMsg.masks [w, a, b, d] = false := by
  have h1 : w.toNat &&& 3 = w.toNat := and_mask (k := 2) rfl (by omega)
  simp [claimVerdictMsg, reservedSet, and_full, h1]

/-- Without the bit of a deposed primary, the verdict is that of a body that claims. -/
theorem claimVerdict_act {p : Path} {tok : Bool} (hon : redOn s = true) (hst : s.red.state = 4) (hw : w.toNat < 2) :
    claimVerdictMsg.act (request1 c p 0x1008 tag [w, a, b, d]) tok s =
      (.accept [], if w.toNat = 1 then becomePrimary s else claimRefused s) := by
  have hword : (request1 c p 0x1008 tag [w, a, b, d]).w 1 = w.toNat := rfl
  have hdeposed : bits w.toNat 1 1 = 0 := by
    rw [bits, Nat.div_eq_of_lt (by simpa using hw), Nat.zero_mod]
  simp [claimVerdictMsg, hword, hon, hst, hdeposed, Nat.mod_eq_of_lt hw]

theorem claimVerdict_taken (hc : c < 14) (ha : AtFront c (.fwd g) 0x1008 tag [w, a, b, d] s) (hs : Started s)
    (hrole : s.dev.role = .body) (hon : redOn s = true) (hst : s.red.state = 4) (hw : w.toNat < 2) :
    exec (.claimVerdict c) s = .next (modChan c (fun ch => { ch with handled := wrapInc 32 ch.handled })
      (if w.toNat = 1 then becomePrimary (popMsg c s) else claimRefused (popMsg c s))) := by
  have hdeny : claimVerdictMsg.deny (request1 c (.fwd g) 0x1008 tag [w, a, b, d]) (popMsg c s) = false := by
    change (s.dev.role != .body || false) = false
    rw [hrole]
    rfl
  have hrun := (runReq_started (d := claimVerdictMsg) ha hc (by decide) (by decide) (by simp) hs (hasBlk_always s) rfl
    (claimVerdict_masks hw) rfl rfl rfl hdeny PrivRule.noConfusion).trans (claimVerdict_act (s := popMsg c s) hon hst hw)
  refine (runRow_of_runReq ha (by decide) (by simp) rfl (isCode_front ha (by decide) (by simp)) hrun ?_).trans
    (congrArg _ (answer_accept_silent rfl _ _ _))
  split
  · exact becomePrimary_mbx _
  · exact claimRefused_mbx _

end

/-! ### SUSPEND and RESUME (R784, R786, R806) -/

section
variable {c tag : Nat} {p : Path} {s : State}

theorem suspend_mine (ha : AtFront c p 0x1701 tag [1] s) :
    (isCode 0x1701 (request1 c p 0x1701 tag [1]) && (request1 c p 0x1701 tag [1]).w 1 % 2 == 1) = true := by
  rw [isCode_front ha (by decide) (by simp)]
  rfl

section
variable (hc : c < 14) (ha : AtFront c p 0x1701 tag [1] s) (hs : Started s)
include hc ha hs

theorem suspend_run : runReq (some powerStateMsg) (request1 c p 0x1701 tag [1]) none (popMsg c s) =
    powerStateMsg.act (request1 c p 0x1701 tag [1]) false (popMsg c s) :=
  runReq_started (d := powerStateMsg) ha hc (by decide) (by decide) (by simp) hs (hasBlk_always s) rfl rfl rfl rfl rfl rfl
    PrivRule.noConfusion

theorem suspend_refused (hno : suspendRefused s = true) :
    exec (.suspend c) s = .next (refused (request1 c p 0x1701 tag [1]) 7 0 0 (popMsg c s)) :=
  runRow_refuses7 ha (by decide) (by simp) rfl (suspend_mine ha) rfl (suspend_run hc ha hs) (if_pos hno)

theorem suspend_begins (hyes : suspendRefused s = false) :
    exec (.suspend c) s = .next (replied (request1 c p 0x1701 tag [1]) [] (beginSuspend (popMsg c s))) :=
  runRow_accepts ha (by decide) (by simp) rfl (suspend_mine ha) rfl (suspend_run hc ha hs)
    (if_neg (Bool.eq_false_iff.mp hyes)) (mbx_of_mailPower (beginSuspend_mailPower _))

end

/-- While entry is under way no message is taken (R784). -/
theorem handling_entering (h : s.pwr.entering = true) : handling s = false := by
  simp [handling, h]

theorem resume_ends (hc : c < 14) (ha : AtFront c p 0x1701 tag [0] s) (hrun : s.dev.state = .running)
    (hoff : s.pwr.thermallyOff = false) (hsus : s.pwr.suspended = true) :
    exec (.resume c) s = .next (replied (request1 c p 0x1701 tag [0]) [] (resume (popMsg c s))) := by
  have hmine : (isCode 0x1701 (request1 c p 0x1701 tag [0]) && (request1 c p 0x1701 tag [0]).w 1 % 2 == 0) = true := by
    rw [isCode_front ha (by decide) (by simp)]
    rfl
  have hform : malformed powerStateMsg (request1 c p 0x1701 tag [0]) (popMsg c s) = false := by
    rw [malformed_request1 _ _ (by decide) (by simp)]
    rfl
  have hden : denied powerStateMsg (request1 c p 0x1701 tag [0]) (popMsg c s) = false := by
    have hdev : (popMsg c s).dev.state = .running := hrun
    have hpwr : (popMsg c s).pwr.thermallyOff = false := hoff
    simp [denied, hdev, hpwr, hasBlk_always, powerStateMsg, suspendKeeps]
  have hauth : unauthorised powerStateMsg (request1 c p 0x1701 tag [0]) none (popMsg c s) = false := by
    simp [unauthorised, hdrPriv_request1, powerStateMsg]
  have hmbx : (resume (popMsg c s)).mbx = { (popMsg c s).mbx with asleep := [] } := mbx_of_mailPower (resume_mailPower _)
  exact runRow_accept (d := powerStateMsg) ha (by decide) (by simp) rfl hmine (routed_of_lt hc (by decide)) rfl hform rfl hden hauth
    (if_pos hsus) rfl (by rw [hmbx])

end

/-- Settles O33: each request passes R809's checks, and its action leaves the mailboxes but for what it says. -/
theorem linkTimePowerMessages : Obligations.LinkTimePowerMessages := by
  unfold Obligations.LinkTimePowerMessages
  refine ⟨fun g c tag p s hg hc ha hs hb => ⟨linkRetrain_refused hg hc ha hs hb, linkRetrain_retrains hg hc ha hs hb⟩,
    fun _ _ _ _ _ _ _ _ _ hc ha hs hw3 htod hcount => schedule_takes hc ha hs hw3 htod hcount,
    fun _ _ _ _ _ _ _ _ hc ha hs hw3 htod hcount => schedule_refused hc ha hs hw3 htod hcount,
    fun _ _ _ _ _ hc ha hs hw => ⟨cancel_frees hc ha hs hw, cancel_refused hc ha hs hw⟩,
    fun _ _ _ _ _ _ _ _ => claimVerdict_taken, ?suspend, ?resume⟩
  case suspend =>
    intro c tag p s hc ha hs
    have hentering : (beginSuspend (popMsg c s)).pwr.entering = true := by rw [pwr_of_mailPower (beginSuspend_mailPower _)]
    exact ⟨suspend_refused hc ha hs,
      fun hyes => ⟨_, rfl, hentering, handling_entering hentering, suspend_begins hc ha hs hyes⟩⟩
  case resume =>
    intro c tag p s hc ha hrun hoff hsus
    refine ⟨_, rfl, ?_, ?_, resume_ends hc ha hrun hoff hsus⟩
    · rw [pwr_of_mailPower (resume_mailPower _)]
    · rw [mbx_of_mailPower (resume_mailPower _)]

end Sys2Proof.Proofs

/-! PROOFS. The links and received frames of a MAC, array datagrams and scheduled commands (R477, R478, R483, R510, R513, R514). -/

namespace Sys2Proof.Proofs
open Sys2Proof Sys2Proof.Machine Sys2Proof.Laws

/-! ### A MAC after a change -/

section
variable {m : Nat} {s : State}

theorem mac_modMac (hm : m < s.out.macs.length) (f : Mac → Mac) :
    (modMac m f s).out.macs.getD m {} = f (s.out.macs.getD m {}) :=
  getD_modAt _ _ _ _ hm

@[simp] theorem modMac_macs_length (f : Mac → Mac) : (modMac m f s).out.macs.length = s.out.macs.length := modAt_length ..

theorem mac_macGot (hm : m < s.out.macs.length) :
    (macGot m s).out.macs.getD m {} =
      { s.out.macs.getD m {} with received := wrapInc 64 (s.out.macs.getD m {}).received } :=
  mac_modMac hm _

@[simp] theorem macGot_macs_length : (macGot m s).out.macs.length = s.out.macs.length := modMac_macs_length _

theorem mac_macDiscard (hm : m < s.out.macs.length) :
    (macDiscard m s).out.macs.getD m {} =
      { s.out.macs.getD m {} with discarded := wrapInc 32 (s.out.macs.getD m {}).discarded } :=
  mac_modMac hm _

@[simp] theorem macDiscard_macs_length : (macDiscard m s).out.macs.length = s.out.macs.length := modMac_macs_length _

/-- A frame that is counted and discarded. -/
theorem mac_gotDiscarded (hm : m < s.out.macs.length) :
    (macDiscard m (macGot m s)).out.macs.getD m {} = { s.out.macs.getD m {} with
      received := wrapInc 64 (s.out.macs.getD m {}).received, discarded := wrapInc 32 (s.out.macs.getD m {}).discarded } := by
  rw [mac_macDiscard (by simpa using hm), mac_macGot hm]

/-- A frame that is counted and answered. -/
theorem mac_gotAnswered (hm : m < s.out.macs.length) (frame : List Byte) :
    (macAnswer m frame (macGot m s)).out.macs.getD m {} = { s.out.macs.getD m {} with
      received := wrapInc 64 (s.out.macs.getD m {}).received, sent := wrapInc 64 (s.out.macs.getD m {}).sent
      last := [frame] } := by
  rw [macAnswer, mac_modMac (by simpa using hm), mac_macGot hm]

/-! ### The link of a MAC (R477, R483) -/

theorem macLinkUp_reports (hon : macOn m s = true) (hm : m < s.out.macs.length) :
    ∃ t, exec (.macLinkUp m) s = .next t ∧ (t.out.macs.getD m {}).up = true ∧ (t.out.macs.getD m {}).arp = [] ∧
      (macGroups m s = [] → (t.out.macs.getD m {}).last = [] ∧ (t.out.macs.getD m {}).sent = (s.out.macs.getD m {}).sent) ∧
      (macGroups m s ≠ [] → (t.out.macs.getD m {}).last = [igmpFrame m (macGroups m s) s] ∧
        (t.out.macs.getD m {}).sent = wrapInc 64 (s.out.macs.getD m {}).sent) := by
  refine ⟨_, congrArg Host.Outcome.next (if_pos hon), ?_⟩
  rw [mac_modMac hm]
  refine ⟨rfl, rfl, fun hnone => ?_, fun hsome => ?_⟩
  · simp [hnone]
  · simp [hsome]

theorem macLinkDown_logged (hon : macOn m s = true) (hup : (s.out.macs.getD m {}).up = true) :
    exec (.macLinkDown m) s = .next (raise 1 (0x0D08 + m) m [] (modMac m (fun x => { x with up := false }) s)) :=
  congrArg Host.Outcome.next (if_pos (by rw [hon, hup]; rfl))

/-! ### Received frames (R477) -/

section
variable (hon : macOn m s = true) (hup : (s.out.macs.getD m {}).up = true)
include hon hup

theorem ethernetFrameReceive_takes (k : EthKind) : exec (.ethernetFrameReceive m k) s = .next (takeFrame m s k) :=
  congrArg Host.Outcome.next (if_neg (by rw [hon, hup]; decide))

theorem framed_takenAsKind {n : Nat} {tags : List Nat} (hn : n ≤ 9216) (htags : tagsOk m tags s.cfg.accepted = true)
    (k : EthKind) : exec (.ethernetFrameReceive m (.framed n tags k)) s = exec (.ethernetFrameReceive m k) s := by
  have hgood : ¬ (9216 < n ∨ (!tagsOk m tags s.cfg.accepted) = true) := by simp [htags, hn]
  rw [ethernetFrameReceive_takes hon hup, ethernetFrameReceive_takes hon hup, takeFrame, if_neg hgood]

variable (hm : m < s.out.macs.length)
include hm

theorem icmpEcho_answered (ip : Nat) (icmp : List Byte) :
    ∃ t, exec (.ethernetFrameReceive m (.icmpEcho ip icmp)) s = .next t ∧
      t.out.macs.getD m {} = { s.out.macs.getD m {} with
        received := wrapInc 64 (s.out.macs.getD m {}).received, sent := wrapInc 64 (s.out.macs.getD m {}).sent
        last := [echoFrame m ip icmp s] } :=
  ⟨_, ethernetFrameReceive_takes hon hup _, mac_gotAnswered hm _⟩

/-- Only a request for the MAC's own address is answered. -/
theorem arpRequest_answered (ip sip sm : Nat) :
    ∃ t, exec (.ethernetFrameReceive m (.arpRequest ip sip sm)) s = .next t ∧
      (t.out.macs.getD m {}).received = wrapInc 64 (s.out.macs.getD m {}).received ∧
      (ip = cfgN F.ETH_IP_ADDR m s → (t.out.macs.getD m {}).sent = wrapInc 64 (s.out.macs.getD m {}).sent ∧
        (t.out.macs.getD m {}).last = [arpFrame m 2 sip sm s]) ∧
      (ip ≠ cfgN F.ETH_IP_ADDR m s → (t.out.macs.getD m {}).sent = (s.out.macs.getD m {}).sent) := by
  refine ⟨_, ethernetFrameReceive_takes hon hup _, ?_⟩
  by_cases hip : ip = cfgN F.ETH_IP_ADDR m s
  · rw [takeFrame, if_pos hip, mac_gotAnswered hm]
    exact ⟨rfl, fun _ => ⟨rfl, rfl⟩, fun hother => absurd hip hother⟩
  · rw [takeFrame, if_neg hip, mac_macGot hm]
    exact ⟨rfl, fun hown => absurd hown hip, fun _ => rfl⟩

theorem framed_discarded {n : Nat} {tags : List Nat} (hbad : 9216 < n ∨ tagsOk m tags s.cfg.accepted = false) (k : EthKind) :
    ∃ t, exec (.ethernetFrameReceive m (.framed n tags k)) s = .next t ∧
      (t.out.macs.getD m {}).discarded = wrapInc 32 (s.out.macs.getD m {}).discarded ∧
      (t.out.macs.getD m {}).sent = (s.out.macs.getD m {}).sent := by
  refine ⟨_, ethernetFrameReceive_takes hon hup _, ?_⟩
  rw [takeFrame, if_pos (by simpa using hbad), mac_gotDiscarded hm]
  exact ⟨rfl, rfl⟩

theorem arpReply_kept (ip a : Nat) :
    ∃ t, exec (.ethernetFrameReceive m (.arpReply ip a)) s = .next t ∧ (t.out.macs.getD m {}).arp.lookup ip = some a := by
  refine ⟨_, ethernetFrameReceive_takes hon hup _, ?_⟩
  rw [takeFrame, mac_macGot (by simpa using hm), mac_modMac hm]
  exact List.lookup_cons_self

theorem pause_discarded :
    ∃ t, exec (.ethernetFrameReceive m .pause) s = .next t ∧
      (t.out.macs.getD m {}).pauses = wrapInc 32 (s.out.macs.getD m {}).pauses ∧
      (t.out.macs.getD m {}).discarded = wrapInc 32 (s.out.macs.getD m {}).discarded := by
  refine ⟨_, ethernetFrameReceive_takes hon hup _, ?_⟩
  rw [takeFrame, mac_modMac (by simpa using hm), mac_gotDiscarded hm]
  exact ⟨rfl, rfl⟩

theorem other_discarded :
    ∃ t, exec (.ethernetFrameReceive m .other) s = .next t ∧
      (t.out.macs.getD m {}).discarded = wrapInc 32 (s.out.macs.getD m {}).discarded :=
  ⟨_, ethernetFrameReceive_takes hon hup _, congrArg Mac.discarded (mac_gotDiscarded hm)⟩

end

end

/-! ### Array datagrams (R510) -/

section
variable {m : Nat} {w : Word} {words : List Word} {s : State}

/-- The array's number is the upper half of the word that stands before a datagram's message. -/
theorem arrayRuns_iff : arrayRuns [w] words s = true ↔
    w.toNat / 65536 = s.time.arrayId ∧ words ≠ [] ∧ hdrPriv (words.headD 0).toNat = false ∧
      privilegedCode (hdrCode (words.headD 0).toNat) = false := by
  have hid : bits w.toNat 31 16 = w.toNat / 65536 := Nat.mod_eq_of_lt (by have := w.isLt; omega)
  simp [arrayRuns, hid, and_assoc]

section
variable (hon : macOn m s = true) (hup : (s.out.macs.getD m {}).up = true) (hen : cfgB F.TIME_ARRAY_ENABLE 0 s = true)
  (hport : cfgN F.TIME_ARRAY_GROUP_PORT 0 s ≠ 0) (hmac : cfgN F.TIME_ARRAY_ARRAY_MAC 0 s = m)
include hon hup hen hport hmac

theorem arrayDatagram_taken (pre : List Word) : exec (.arrayDatagram m pre words) s =
    .next (if arrayRuns pre words s then (runReq (msgDef (Req.code ⟨0, .array, words⟩)) ⟨0, .array, words⟩ none s).2
      else raise 0 0x0E12 noInst [] (modTime (fun t => { t with arrayRejected := wrapInc 32 t.arrayRejected }) s)) :=
  congrArg Host.Outcome.next (if_neg (by rw [hon, hup, hen]; simp [hport, hmac]))

theorem arrayDatagram_runs (hid : w.toNat / 65536 = s.time.arrayId) (hne : words ≠ [])
    (hpriv : hdrPriv (words.headD 0).toNat = false) (hcode : privilegedCode (hdrCode (words.headD 0).toNat) = false) :
    exec (.arrayDatagram m [w] words) s =
      .next (runReq (msgDef (hdrCode (words.headD 0).toNat)) ⟨0, .array, words⟩ none s).2 := by
  have hhead : Req.code ⟨0, .array, words⟩ = hdrCode (words.headD 0).toNat := by cases words <;> rfl
  rw [arrayDatagram_taken hon hup hen hport hmac, if_pos (arrayRuns_iff.mpr ⟨hid, hne, hpriv, hcode⟩), hhead]

theorem arrayDatagram_discarded (hbad : w.toNat / 65536 ≠ s.time.arrayId ∨ hdrPriv (words.headD 0).toNat = true) :
    exec (.arrayDatagram m [w] words) s = .next (raise 0 0x0E12 noInst []
      { s with time := { s.time with arrayRejected := wrapInc 32 s.time.arrayRejected } }) := by
  have hnot : ¬ arrayRuns [w] words s = true := by
    rw [arrayRuns_iff]
    rintro ⟨hid, -, hpriv, -⟩
    rcases hbad with hother | hset
    · exact hother hid
    · exact Bool.false_ne_true (hpriv.symm.trans hset)
  rw [arrayDatagram_taken hon hup hen hport hmac, if_neg hnot]
  rfl

end

end

/-! ### The scheduled entry that is due (R513, R514) -/

/-- The entry that stands strictly before every other comes first in the sorted list. -/
theorem head?_mergeSort_of_least {α : Type} {le : α → α → Bool} {l : List α} {x : α}
    (htrans : ∀ a b c, le a b = true → le b c = true → le a c = true) (htotal : ∀ a b, (le a b || le b a) = true)
    (hx : x ∈ l) (hleast : ∀ y ∈ l, y ≠ x → le y x = false) : (l.mergeSort le).head? = some x := by
  have hsorted := List.pairwise_mergeSort htrans htotal l
  have hmem : ∀ y, y ∈ l.mergeSort le ↔ y ∈ l := fun y => List.mem_mergeSort
  cases hl : l.mergeSort le with
  | nil => simpa [hl] using (hmem x).mpr hx
  | cons y r =>
    rw [hl] at hsorted hmem
    by_contra hne
    have hyx : y ≠ x := fun h => hne (congrArg some h)
    have hxr : x ∈ r := by simpa [hyx.symm] using (hmem x).mpr hx
    have hle : le y x = true := List.rel_of_pairwise_cons hsorted hxr
    exact absurd hle (by simp [hleast y ((hmem y).mp (by simp)) hyx])

/-- The entries of a table whose time has come, each with its time, its order and its place. (The time is a parameter: the
kernel would evaluate the comparison of two TODs.) -/
theorem mem_filterMap_due {time : Sched → Nat} {now u o k : Nat} {tbl : List (Option Sched)} :
    (u, o, k) ∈ (tbl.zipIdx.filterMap fun p => p.1.bind fun e =>
      if time e ≤ now then some (time e, e.order, p.2) else none) ↔
    ∃ x, tbl[k]? = some (some x) ∧ time x ≤ now ∧ time x = u ∧ x.order = o := by
  simp only [List.mem_filterMap, Prod.exists, List.mem_zipIdx_iff_getElem?, Option.bind_eq_some_iff,
    Option.ite_none_right_eq_some, Option.some.injEq, Prod.mk.injEq]
  constructor
  · rintro ⟨_, _, hx, x, rfl, hnow, hu, ho, rfl⟩
    exact ⟨x, hx, hnow, hu, ho⟩
  · rintro ⟨x, hx, hnow, hu, ho⟩
    exact ⟨_, _, hx, x, rfl, hnow, hu, ho, rfl⟩

section
variable {i : Nat} {l : List Nat} {e : Sched} {s : State}

theorem dueEntry_late (hlate : s.time.late = i :: l) : dueEntry s = some i := by
  simp only [dueEntry, hlate]

/-- The entry with the earliest target is due once TOD has reached it. -/
theorem dueEntry_earliest (hlate : s.time.late = []) (hi : s.time.table[i]? = some (some e))
    (hnow : todUnits e.target ≤ todUnits (nowTod s))
    (hfirst : ∀ k x, s.time.table[k]? = some (some x) → k ≠ i → todUnits e.target < todUnits x.target) :
    dueEntry s = some i := by
  simp only [dueEntry, hlate]
  rw [head?_mergeSort_of_least (x := (todUnits e.target, e.order, i)) (fun a b c => ?trans) (fun a b => ?total) ?mem ?least]
  · rfl
  case trans =>
    simp only [decide_eq_true_eq]
    omega
  case total =>
    simp only [Bool.or_eq_true, decide_eq_true_eq]
    omega
  case mem =>
    exact (mem_filterMap_due (time := fun x => todUnits x.target)).mpr ⟨e, hi, hnow, rfl, rfl⟩
  case least =>
    rintro ⟨u, o, k⟩ hy hne
    obtain ⟨x, hx, -, rfl, rfl⟩ := (mem_filterMap_due (time := fun x => todUnits x.target)).mp hy
    have hki : k ≠ i := by
      rintro rfl
      obtain rfl : e = x := by simpa [hi] using hx
      exact hne rfl
    have hlater := hfirst k x hx hki
    simp only [decide_eq_false_iff_not]
    omega

/-- A due entry leaves the table and the entries that a step passed; if it is one of those, that is logged before it runs. -/
theorem scheduledCommandDue_runs (hrun : s.dev.state = .running) (hdue : dueEntry s = some i)
    (hi : s.time.table[i]? = some (some e)) :
    exec .scheduledCommandDue s = .next (runEntryMsg e
      (if s.time.late.contains i then raise 0 0x0E10 noInst []
          (modTime (fun x => { x with table := x.table.set i none, late := x.late.filter fun j => j != i }) s)
        else modTime (fun x => { x with table := x.table.set i none, late := x.late.filter fun j => j != i }) s)) := by
  have hget : s.time.table.getD i none = some e := by rw [List.getD_eq_getElem?_getD, hi]; rfl
  change execScheduledCommandDue s = _
  simp only [execScheduledCommandDue, hdue, hget, hrun, bne_self_eq_false, Bool.false_eq_true, if_false]

theorem scheduledCommandDue_onTime (hrun : s.dev.state = .running) (hlate : s.time.late = [])
    (hi : s.time.table[i]? = some (some e)) (hnow : todUnits e.target ≤ todUnits (nowTod s))
    (hfirst : ∀ k x, s.time.table[k]? = some (some x) → k ≠ i → todUnits e.target < todUnits x.target) :
    exec .scheduledCommandDue s =
      .next (runEntryMsg e { s with time := { s.time with table := s.time.table.set i none } }) := by
  rw [scheduledCommandDue_runs hrun (dueEntry_earliest hlate hi hnow hfirst) hi, modTime]
  simp [hlate]

theorem scheduledCommandDue_passed (hrun : s.dev.state = .running) (hlate : s.time.late = i :: l)
    (hi : s.time.table[i]? = some (some e)) :
    exec .scheduledCommandDue s = .next (runEntryMsg e (raise 0 0x0E10 noInst []
      { s with time := { s.time with table := s.time.table.set i none, late := (i :: l).filter fun j => j != i } })) := by
  have hpassed : s.time.late.contains i = true := by simp [hlate]
  rw [scheduledCommandDue_runs hrun (dueEntry_late hlate) hi, if_pos hpassed, modTime, hlate]

end

/-! ### The message of a scheduled entry (R513) -/

section
variable {e : Sched} {s u : State} (hopen : openSeq e.chan e.path s = none)
include hopen

theorem runEntryMsg_accepts {ws : List Nat}
    (hrun : runReq (msgDef (hdrCode (e.words.getD 0 0).toNat)) ⟨e.chan, e.path, e.words⟩ none s = (.accept ws, u)) :
    runEntryMsg e s = answer (msgDef (hdrCode (e.words.getD 0 0).toNat)) ⟨e.chan, e.path, e.words⟩ (.accept ws) u := by
  simp only [runEntryMsg, endSeq, hopen, Req.code, Req.w, hrun]

theorem runEntryMsg_refuses {cls err d : Nat}
    (hrun : runReq (msgDef (hdrCode (e.words.getD 0 0).toNat)) ⟨e.chan, e.path, e.words⟩ none s = (.refuse cls err d, u)) :
    runEntryMsg e s = raise 0 0x0E13 noInst []
      (answer (msgDef (hdrCode (e.words.getD 0 0).toNat)) ⟨e.chan, e.path, e.words⟩ (.refuse cls err d) u) := by
  simp only [runEntryMsg, endSeq, hopen, Req.code, Req.w, hrun]

end

/-- Settles O27: a frame changes only its MAC's counters, addresses and last frames; a datagram is run or discarded by
`arrayRuns`; and the earliest entry of the table, or the first one a step passed, is the one `dueEntry` picks. -/
theorem ethernetAndDatagrams : Obligations.EthernetAndDatagrams := by
  unfold Obligations.EthernetAndDatagrams
  refine ⟨fun _ _ hon hm => macLinkUp_reports hon hm, fun _ _ hon hup => macLinkDown_logged hon hup, ?frames,
    fun _ _ _ _ hon hup hen hport hmac => ⟨arrayDatagram_runs hon hup hen hport hmac, arrayDatagram_discarded hon hup hen hport hmac⟩,
    fun _ _ _ hrun hlate hi hnow hfirst => scheduledCommandDue_onTime hrun hlate hi hnow hfirst,
    fun _ _ _ _ hrun hlate hi => scheduledCommandDue_passed hrun hlate hi,
    fun _ _ hopen => ⟨fun _ _ => runEntryMsg_accepts hopen, fun _ _ _ _ => runEntryMsg_refuses hopen⟩⟩
  case frames =>
    exact fun _ _ hon hup hm => ⟨icmpEcho_answered hon hup hm, arpRequest_answered hon hup hm,
      fun _ _ k => ⟨fun hbad => framed_discarded hon hup hm hbad k, fun hn htags => framed_takenAsKind hon hup hn htags k⟩,
      arpReply_kept hon hup hm, pause_discarded hon hup hm, other_discarded hon hup hm⟩

end Sys2Proof.Proofs

/-! PROOFS. The step of the block, the state after reset, and what resets, starts and raised errors leave (R662, R706, R707, R711, R762,
R782, R783, R789). -/

namespace Sys2Proof.Proofs
open Sys2Proof Sys2Proof.Machine Sys2Proof.Laws

/-! ### The step -/

/-- Settles O1: with a command at the front, the step is its meaning. -/
theorem stepRunsFront : Obligations.StepRunsFront := by
  intro c rest s hq
  simp only [step, hq]

/-- Settles O2: with an empty queue, the step is the state itself. -/
theorem idleOnEmptyQueue : Obligations.IdleOnEmptyQueue := by
  intro s hq
  simp only [step, hq]

/-- Settles O5: DRAM holds no cell after reset, and no error or log entry waits. -/
theorem resetMeetsInv : Obligations.ResetMeetsInv := by
  unfold Obligations.ResetMeetsInv Machine.Inv
  decide

/-! ### Raised errors (R706, R707, R762) -/

/-- An error raised while the log has room for its entry raises nothing else. -/
theorem raise_of_room {s : State} (h : s.log.waiting.length < 4096) (sev code inst : Nat) (ds : List Nat) :
    raise sev code inst ds s = raiseOne sev code inst ds s := by
  have hroom : ¬ 4096 ≤ s.log.waiting.length := by omega
  simp [raise, hroom]

/-- Settles O15: with room in the waiting list, raising is the one entry that `raiseOne` makes. -/
theorem everyRaiseIsLogged : Obligations.EveryRaiseIsLogged := by
  intro sev code inst ds s hroom
  rw [raise_of_room hroom]
  exact ⟨rfl, mkEntry sev code inst ds s, rfl, rfl, rfl, rfl, rfl, rfl, rfl⟩

/-! ### Resets and starts (R662, R711, R782, R783, R789) -/

theorem watchdogExpiry_restarts {s : State} (hoff : s.dev.state ≠ .off) (hrom : s.dev.state ≠ .bootRom) :
    exec .headframeWatchdogExpiry s = .next (beginStart s.dev.straps s) := by
  simp [exec, execHeadframeWatchdogExpiry, headframeOn, hoff, hrom]

/-- Settles O8: the expiry is step 1 of the start, with the straps that are sampled. -/
theorem watchdogStartsAgain : Obligations.WatchdogStartsAgain := by
  intro s hoff hrom
  exact ⟨_, watchdogExpiry_restarts hoff hrom, rfl, rfl, rfl, rfl, rfl, rfl, rfl⟩

/-- A reset keeps what the SSDs hold. -/
theorem resetAll_media (s : State) : (resetAll s).rcd.ssds.map (·.media) = s.rcd.ssds.map (·.media) := by
  simp [resetAll, Function.comp_def]

theorem resetRelease_starts {s : State} (hlow : s.dev.resetLow = true) (hheld : s.pwr.tripHeld = false) (straps : Nat) :
    exec (.resetRelease straps) s = .next (beginStart straps s) := by
  simp [exec, execResetRelease, hlow, hheld]

theorem resetRelease_held {s : State} (hlow : s.dev.resetLow = true) (hheld : s.pwr.tripHeld = true) (straps : Nat) :
    exec (.resetRelease straps) s =
      .next { s with dev := { s.dev with resetLow := false, straps := straps % 4 } } := by
  simp [exec, execResetRelease, hlow, hheld]

theorem tripClear_starts {s : State} (hheld : s.pwr.tripHeld = true) (hlow : s.dev.resetLow = false) :
    exec .hardwareThermalTripClear s =
      .next (beginStart s.dev.straps (modPwr (fun p => { p with tripHeld := false }) s)) := by
  simp [exec, execHardwareThermalTripClear, hheld, hlow]

theorem tripClear_waits {s : State} (hlow : s.dev.resetLow = true) :
    exec .hardwareThermalTripClear s = .next (modPwr (fun p => { p with tripHeld := false }) s) := by
  simp [exec, execHardwareThermalTripClear, hlow]

/-- Settles O9: each reset is `resetAll`, and each start `beginStart`, which is `resetAll` and the straps. -/
theorem resetsAndStarts : Obligations.ResetsAndStarts := by
  unfold Obligations.ResetsAndStarts
  refine ⟨?reset, ?release, ?releaseHeld, ?aon, ?trip, ?clear, ?clearLow⟩
  case reset =>
    exact fun s => ⟨resetAll s, rfl, rfl, rfl, rfl, rfl, rfl, rfl, rfl, rfl, rfl, rfl, rfl, rfl, rfl, resetAll_media s⟩
  case release =>
    exact fun straps s hlow hheld => ⟨_, resetRelease_starts hlow hheld straps, rfl, rfl, rfl, rfl, rfl⟩
  case releaseHeld => exact fun straps s hlow hheld => resetRelease_held hlow hheld straps
  case aon => exact fun s => ⟨resetAll s, rfl, rfl, rfl, rfl, rfl, rfl⟩
  case trip => exact fun s => ⟨_, rfl, rfl, rfl, rfl, rfl, rfl, rfl⟩
  case clear => exact fun s hheld hlow => ⟨_, tripClear_starts hheld hlow, rfl, rfl, rfl, rfl⟩
  case clearLow => exact fun s hlow => tripClear_waits hlow

end Sys2Proof.Proofs

/-! PROOFS. Frames: the state without what an operation may change, which the operation leaves as it was. -/

namespace Sys2Proof.Proofs
open Sys2Proof Sys2Proof.Machine Sys2Proof.Laws

/-- The state without the error queue and the event log. -/
def offLog (s : State) : State := { s with err := {}, log := {} }
/-- The state without the time of the device. -/
def offTime (s : State) : State := { offLog s with time := {} }
/-- The state without the time of the device and the ports. -/
def offPorts (s : State) : State := { offTime s with cap := { s.cap with ports := [] } }

/-- A list of operations each of which leaves `f` leaves `f`. -/
theorem proj_foldl {α β : Type} {f : State → β} {g : State → α → State} (l : List α) (s : State) (h : ∀ u x, f (g u x) = f u) :
    f (l.foldl g s) = f s :=
  List.foldlRecOn (motive := fun t => f t = f s) l g rfl fun t ht x _ => (h t x).trans ht

/-! ### Errors below Fatal -/

theorem raiseOne_offLog {sev : Nat} (h : sev ≠ 3) (code inst : Nat) (ds : List Nat) (s : State) :
    offLog (raiseOne sev code inst ds s) = offLog s := by
  simp [raiseOne, offLog, h]

theorem openRun_offLog (code inst : Nat) (s : State) : offLog (openRun code inst s) = offLog s := by
  unfold openRun
  split <;> rfl

/-- An error below Fatal changes the error queue and the log alone. -/
theorem raise_offLog {sev : Nat} (h : sev ≠ 3) (code inst : Nat) (ds : List Nat) (s : State) :
    offLog (raise sev code inst ds s) = offLog s := by
  unfold raise
  dsimp only
  split
  · exact (raiseOne_offLog (by simp) ..).trans ((openRun_offLog ..).trans (raiseOne_offLog h ..))
  · exact raiseOne_offLog h ..

theorem raiseOnce_offLog {sev : Nat} (h : sev ≠ 3) (code inst : Nat) (ds : List Nat) (s : State) :
    offLog (raiseOnce sev code inst ds s) = offLog s := by
  unfold raiseOnce
  split
  · rfl
  · exact (raise_offLog h ..).trans (openRun_offLog ..)

/-! ### The time of the device -/

theorem offTime_of_offLog {s t : State} (h : offLog t = offLog s) : offTime t = offTime s :=
  congrArg (fun u : State => { u with time := {} }) h

theorem offPorts_of_offTime {s t : State} (h : offTime t = offTime s) : offPorts t = offPorts s :=
  congrArg (fun u : State => { u with cap := { u.cap with ports := [] } }) h

/-- What leaves the state without the time leaves all but the time, the errors and the log. -/
theorem eq_of_offTime {s t : State} (h : offTime t = offTime s) : t = { s with time := t.time, err := t.err, log := t.log } :=
  congrArg (fun u : State => { u with time := t.time, err := t.err, log := t.log }) h

theorem eq_of_offPorts {s t : State} (h : offPorts t = offPorts s) :
    t = { s with time := t.time, cap := { s.cap with ports := t.cap.ports }, err := t.err, log := t.log } :=
  congrArg (fun u : State => { u with time := t.time, cap := { u.cap with ports := t.cap.ports }, err := t.err, log := t.log }) h

theorem modTime_offTime (f : TimeState → TimeState) (s : State) : offTime (modTime f s) = offTime s := rfl

theorem modPtp_offTime (m : Nat) (f : PtpPort → PtpPort) (s : State) : offTime (modPtp m f s) = offTime s := modTime_offTime ..

theorem runBmca_offTime (s : State) : offTime (runBmca s) = offTime s := modTime_offTime ..

theorem endRun_offTime (code inst : Nat) (s : State) : offTime (endRun code inst s) = offTime s := rfl

theorem drainTx_offTime (m : Nat) (s : State) : offTime (drainTx m s) = offTime s :=
  (endRun_offTime ..).trans (modPtp_offTime ..)

theorem queueStamp_offTime (m : Nat) (x : TxStamp) (s : State) : offTime (queueStamp m x s) = offTime s := by
  unfold queueStamp
  dsimp only
  split
  · exact (endRun_offTime ..).trans (modPtp_offTime ..)
  · exact (offTime_of_offLog (raiseOnce_offLog (by simp) ..)).trans (modPtp_offTime ..)

theorem holdover_offTime (s : State) : offTime (holdover s) = offTime s := by
  unfold holdover
  split
  · exact (offTime_of_offLog (raise_offLog (by simp) ..)).trans (modTime_offTime ..)
  · rfl

section
variable {m : Nat} {g : PtpMsg} {s t : State}

theorem ptpAnnounce_offTime {a : AnnounceMsg} (h : execPtpAnnounce m a s = .next t) : offTime t = offTime s := by
  cases h
  split
  · exact drainTx_offTime m s
  · split
    · exact drainTx_offTime m s
    · exact (runBmca_offTime ..).trans ((modPtp_offTime ..).trans (drainTx_offTime m s))

theorem ptpDelayReq_offTime (h : execPtpDelayReq m g s = .next t) : offTime t = offTime s := by
  cases h
  split <;> rfl

theorem ptpDelayResp_offTime (h : execPtpDelayResp m g s = .next t) : offTime t = offTime s := by
  cases h
  split
  · split <;> rfl
  · rfl

theorem ptpSendTimer_offTime {k : PtpSend} (h : execPtpSendTimer m k s = .next t) : offTime t = offTime s := by
  cases h
  split
  · rfl
  · cases k
    case sync => dsimp only; split; exacts [(queueStamp_offTime ..).trans rfl, rfl]
    case announce => dsimp only; split <;> rfl
    case delayReq => dsimp only; split; exacts [(queueStamp_offTime ..).trans rfl, rfl]

theorem timeSourceTimeout_offTime (h : execTimeSourceTimeout s = .next t) : offTime t = offTime s := by
  cases h
  split
  · exact (runBmca_offTime ..).trans ((modPtp_offTime ..).trans (holdover_offTime s))
  · split
    · exact holdover_offTime s
    · exact (runBmca_offTime ..).trans (holdover_offTime s)

/-! ### Samples and rebases, which move the ports' triggers too -/

theorem writeInc_offTime (v : Int) (s : State) : offTime (writeInc v s) = offTime s := by
  unfold writeInc
  dsimp only
  split
  · exact (offTime_of_offLog (raiseOnce_offLog (by simp) ..)).trans (modTime_offTime ..)
  · exact (endRun_offTime ..).trans (modTime_offTime ..)

theorem lockStates_offTime (th : Int) (s : State) : offTime (lockStates th s) = offTime s := by
  unfold lockStates
  extract_lets lim a g b
  clear_value g b
  split
  · split <;> exact modTime_offTime ..
  · split
    · exact (offTime_of_offLog (raise_offLog (by simp) ..)).trans (modTime_offTime ..)
    · exact modTime_offTime ..
  · exact modTime_offTime ..
  · rfl

theorem shiftTargets_offPorts (d : Int) (s : State) : offPorts (shiftTargets d s) = offPorts s := rfl

theorem firstSample_offPorts (th : Int) (s : State) : offPorts (firstSample th s) = offPorts s := by
  unfold firstSample
  extract_lets old t
  have ht : offPorts t = offPorts s := (shiftTargets_offPorts ..).trans (offPorts_of_offTime (modTime_offTime ..))
  clear_value t
  exact (offPorts_of_offTime ((offTime_of_offLog (raise_offLog (by simp) ..)).trans (modTime_offTime ..))).trans ht

theorem validSample_offPorts (th : Int) (dt : Nat) (s : State) : offPorts (validSample th dt s) = offPorts s := by
  unfold validSample
  split
  · exact firstSample_offPorts th s
  · exact offPorts_of_offTime ((lockStates_offTime ..).trans ((writeInc_offTime ..).trans (modTime_offTime ..)))

theorem completeSync_offPorts (m : Nat) (stamp origin : Tod) (corr : Int) (s : State) :
    offPorts (completeSync m stamp origin corr s) = offPorts s := by
  unfold completeSync
  dsimp only
  split
  · rfl
  · exact (validSample_offPorts _ _ (modPtp ..)).trans rfl

theorem ptpSync_offPorts (h : execPtpSync m g s = .next t) : offPorts t = offPorts s := by
  cases h
  split
  · rfl
  · split
    · rfl
    · exact (completeSync_offPorts ..).trans rfl

theorem ptpFollowUp_offPorts (h : execPtpFollowUp m g s = .next t) : offPorts t = offPorts s := by
  cases h
  split
  · split
    · exact (completeSync_offPorts ..).trans rfl
    · rfl
  · rfl

theorem rebasedPorts_offPorts (n gap : Nat) (s : State) : offPorts (rebasedPorts n gap s) = offPorts s :=
  proj_foldl _ _ fun _ _ => rfl

theorem scheduleRebase_offPorts {n : Nat} (h : execScheduleRebase n s = .next t) : offPorts t = offPorts s := by
  cases h
  split
  · unfold rebaseSchedule
    extract_lets e gap i v w
    have hw : offPorts w = offPorts s := (rebasedPorts_offPorts n gap _).trans rfl
    split
    · exact hw
    · exact (offPorts_of_offTime (offTime_of_offLog (raise_offLog (by simp) ..))).trans hw
  · rfl

end
/-! ### The outputs -/

/-- The state without the outputs. -/
def offOut (s : State) : State := { offLog s with out := {} }
/-- The state without the outputs and the PTP ports. -/
def offMac (s : State) : State := { s with out := {}, time := { s.time with ptp := [] } }

theorem offOut_of_offLog {s t : State} (h : offLog t = offLog s) : offOut t = offOut s :=
  congrArg (fun u : State => { u with out := {} }) h

theorem eq_of_offOut {s t : State} (h : offOut t = offOut s) : t = { s with out := t.out, err := t.err, log := t.log } :=
  congrArg (fun u : State => { u with out := t.out, err := t.err, log := t.log }) h

theorem eq_of_offMac {s t : State} (h : offMac t = offMac s) : t = { s with out := t.out, time := { s.time with ptp := t.time.ptp } } :=
  congrArg (fun u : State => { u with out := t.out, time := { u.time with ptp := t.time.ptp } }) h

theorem modAud_offOut (p : Nat) (f : Audio → Audio) (s : State) : offOut (modAud p f s) = offOut s := rfl

theorem modOutput_offOut (o : OutId) (f : Output → Output) (s : State) : offOut (modOutput o f s) = offOut s := by
  cases o <;> rfl

theorem steerPair_offOut (o : OutId) (errPs : Int) (s : State) : offOut (steerPair o errPs s) = offOut s := by
  cases o <;> rfl

theorem macSend_offOut (m ip k : Nat) (s : State) : offOut (macSend m ip k s) = offOut s := by
  unfold macSend
  extract_lets x hop
  split
  · rfl
  · split
    · rfl
    · split <;> rfl

theorem sendPackets_offOut (n k : Nat) (s : State) : offOut (sendPackets n k s) = offOut s :=
  (proj_foldl _ _ fun _ _ => macSend_offOut ..).trans (modOutput_offOut ..)

section
variable {p : Nat} {o : OutId} {e : Int} {s t : State}

theorem audioBlockTake_offOut (h : execAudioBlockTake p s = .next t) : offOut t = offOut s := by
  cases h
  split
  · rfl
  · extract_lets fs b u v w
    clear_value b
    split
    · rfl
    · split
      · exact modAud_offOut ..
      · have hw : offOut w = offOut s := (modAud_offOut ..).trans ((modAud_offOut ..).trans (modAud_offOut ..))
        split
        · exact hw
        · exact (offOut_of_offLog (raise_offLog (by simp) ..)).trans hw

theorem audioBlockPresent_offOut (h : execAudioBlockPresent p s = .next t) : offOut t = offOut s := by
  cases h
  split
  · rfl
  · extract_lets fs base k0 j
    split
    · rfl
    · split <;> rfl

theorem audioStopComplete_offOut (h : execAudioStopComplete p s = .next t) : offOut t = offOut s := by
  cases h
  split
  · rfl
  · extract_lets u
    split <;> rfl

theorem slaveClockFault_offOut (h : execSlaveClockFault p s = .next t) : offOut t = offOut s := by
  cases h
  split
  · rfl
  · exact (offOut_of_offLog (raise_offLog (by simp) ..)).trans rfl

theorem slaveClockReturn_offOut (h : execSlaveClockReturn p s = .next t) : offOut t = offOut s := by
  cases h
  split
  · rfl
  · split <;> rfl

theorem macLinkUp_offOut (h : execMacLinkUp p s = .next t) : offOut t = offOut s := by
  cases h
  split <;> rfl

theorem macLinkDown_offOut (h : execMacLinkDown p s = .next t) : offOut t = offOut s := by
  cases h
  split
  · exact (offOut_of_offLog (raise_offLog (by simp) ..)).trans rfl
  · rfl

theorem teAbsentExpiry_offOut (h : execTeAbsentExpiry p s = .next t) : offOut t = offOut s := by
  cases h
  split
  · exact (offOut_of_offLog (raise_offLog (by simp) ..)).trans rfl
  · rfl

theorem blankExpiry_offOut (h : execBlankExpiry p s = .next t) : offOut t = offOut s := by
  cases h
  split
  · exact (offOut_of_offLog (raise_offLog (by simp) ..)).trans rfl
  · rfl

theorem audioPacketTimer_offOut (h : execAudioPacketTimer p s = .next t) : offOut t = offOut s := by
  cases h
  split
  · exact (sendPackets_offOut ..).trans (modOutput_offOut ..)
  · rfl

theorem outputFrameStart_offOut (h : execOutputFrameStart o e s = .next t) : offOut t = offOut s := by
  cases h
  split
  · rfl
  · split
    · exact (modOutput_offOut ..).trans (steerPair_offOut ..)
    · extract_lets w x u
      have hu : offOut u = offOut s := (modOutput_offOut ..).trans (steerPair_offOut ..)
      cases o
      case sdi k =>
        dsimp only
        split
        · exact (offOut_of_offLog (raise_offLog (by simp) ..)).trans ((modOutput_offOut ..).trans ((modOutput_offOut ..).trans hu))
        · exact (modOutput_offOut ..).trans hu
      case snd n => exact (sendPackets_offOut ..).trans hu

theorem macGot_offMac (m : Nat) (s : State) : offMac (macGot m s) = offMac s := rfl

theorem macDiscard_offMac (m : Nat) (s : State) : offMac (macDiscard m s) = offMac s := rfl

theorem macAnswer_offMac (m : Nat) (f : List Byte) (s : State) : offMac (macAnswer m f s) = offMac s := rfl

theorem modMac_offMac (m : Nat) (f : Mac → Mac) (s : State) : offMac (modMac m f s) = offMac s := rfl

theorem modPtp_offMac (m : Nat) (f : PtpPort → PtpPort) (s : State) : offMac (modPtp m f s) = offMac s := rfl

theorem takeFrame_offMac (m : Nat) (s : State) (k : EthKind) : offMac (takeFrame m s k) = offMac s := by
  induction k with
  | framed n tags k ih =>
    unfold takeFrame
    split
    · exact macDiscard_offMac ..
    · exact ih
  | arpRequest =>
    unfold takeFrame
    split
    · exact (macAnswer_offMac ..).trans (macGot_offMac ..)
    · exact macGot_offMac ..
  | mailboxUdp =>
    unfold takeFrame
    split
    · exact (macDiscard_offMac ..).trans (macGot_offMac ..)
    · exact macGot_offMac ..
  | arpReply => exact (macGot_offMac ..).trans (modMac_offMac ..)
  | icmpEcho => exact (macAnswer_offMac ..).trans (macGot_offMac ..)
  | ptp => exact macGot_offMac ..
  | ptpOther => exact (modPtp_offMac ..).trans (macGot_offMac ..)
  | pause => exact (modMac_offMac ..).trans (macDiscard_offMac ..)
  | other => exact macDiscard_offMac ..

theorem ethernetFrameReceive_offMac {k : EthKind} (h : execEthernetFrameReceive p k s = .next t) : offMac t = offMac s := by
  cases h
  split
  · rfl
  · exact takeFrame_offMac ..

end

/-! ### The storage endpoint -/

/-- The state without the endpoint. -/
def offEp (s : State) : State := { s with ep := {} }
/-- The state without the endpoint, the errors, the log and the count of free values. -/
def offStore (s : State) : State := { offLog s with ep := {}, drawn := 0 }
/-- The state without the endpoint and the members. -/
def offHost (s : State) : State := { s with ep := {}, rcd := { s.rcd with ssds := [] } }

theorem offStore_of_offLog {s t : State} (h : offLog t = offLog s) : offStore t = offStore s :=
  congrArg (fun u : State => { u with ep := {}, drawn := 0 }) h

theorem offStore_of_offEp {s t : State} (h : offEp t = offEp s) : offStore t = offStore s :=
  (congrArg offStore h : offStore (offEp t) = offStore (offEp s))

theorem offHost_of_offEp {s t : State} (h : offEp t = offEp s) : offHost t = offHost s :=
  (congrArg offHost h : offHost (offEp t) = offHost (offEp s))

theorem eq_of_offStore {s t : State} (h : offStore t = offStore s) :
    t = { s with ep := t.ep, err := t.err, log := t.log, drawn := t.drawn } :=
  congrArg (fun u : State => { u with ep := t.ep, err := t.err, log := t.log, drawn := t.drawn }) h

theorem eq_of_offHost {s t : State} (h : offHost t = offHost s) : t = { s with ep := t.ep, rcd := { s.rcd with ssds := t.rcd.ssds } } :=
  congrArg (fun u : State => { u with ep := t.ep, rcd := { u.rcd with ssds := t.rcd.ssds } }) h

theorem modEp_offEp (f : Endpoint → Endpoint) (s : State) : offEp (modEp f s) = offEp s := rfl

theorem modCq_offEp (qid : Nat) (f : CplQ → CplQ) (s : State) : offEp (modCq qid f s) = offEp s := modEp_offEp ..

theorem raiseMsix_offEp (v : Nat) (s : State) : offEp (raiseMsix v s) = offEp s := modEp_offEp ..

theorem deliverCq_offEp (qid : Nat) (x : Completion) (s : State) : offEp (deliverCq qid x s) = offEp s := by
  unfold deliverCq
  split
  · exact modEp_offEp ..
  · split
    · extract_lets u
      have hu : offEp u = offEp s := (modCq_offEp ..).trans (modEp_offEp ..)
      split
      · exact (raiseMsix_offEp ..).trans hu
      · exact hu
    · exact (modCq_offEp ..).trans (modEp_offEp ..)

theorem postHeld_offEp (n qid : Nat) (s : State) : offEp (postHeld n qid s) = offEp s := by
  induction n generalizing s with
  | zero => rfl
  | succ n ih =>
    unfold postHeld
    split
    · rfl
    · split
      · rfl
      · split
        · exact (ih _).trans ((Eq.trans rfl (deliverCq_offEp ..) :).trans rfl)
        · rfl

theorem completeOn_offEp (sq : Nat) (cmd : NvmeCmd) (a status dw0 : Nat) (data : List Byte) (s : State) :
    offEp (completeOn sq cmd a status dw0 data s) = offEp s := by
  unfold completeOn
  extract_lets u
  have hu : offEp u = offEp s := by
    simp only [u]
    split <;> rfl
  split
  · exact (deliverCq_offEp ..).trans hu
  · exact hu

theorem finishCmd_offEp (a status dw0 : Nat) (data : List Byte) (s : State) : offEp (finishCmd a status dw0 data s) = offEp s := by
  unfold finishCmd
  split
  · split
    · rfl
    · exact completeOn_offEp ..
  · rfl

theorem pushEvent_offEp (dw0 : Nat) (s : State) : offEp (pushEvent dw0 s) = offEp s := by
  unfold pushEvent
  split
  · rfl
  · split
    · exact finishCmd_offEp ..
    · rfl

theorem fetchOne_offEp (qid : Nat) (s : State) : offEp (fetchOne qid s) = offEp s := by
  unfold fetchOne
  split
  · rfl
  · split
    · rfl
    · extract_lets a u h stall
      split
      · exact (completeOn_offEp ..).trans rfl
      · split
        · exact (completeOn_offEp ..).trans rfl
        · split
          · exact (completeOn_offEp ..).trans rfl
          · split
            · exact (completeOn_offEp ..).trans rfl
            · rfl

theorem fetchAdmin_offEp (n : Nat) (s : State) : offEp (fetchAdmin n s) = offEp s := by
  induction n generalizing s with
  | zero => rfl
  | succ n ih => exact (ih _).trans (fetchOne_offEp ..)

/-- An admin command leaves what its own change and its completion leave. -/
theorem runAdmin_proj {α : Type} {g : State → α} (hg : ∀ a st dw data u, g (finishCmd a st dw data u) = g u) (opc arrival : Nat)
    {f : HostCmd → State → (Nat × Nat × List Byte) × State} (hf : ∀ h u, g (f h u).2 = g u) (s : State) :
    g (runAdmin opc arrival f s) = g s := by
  unfold runAdmin
  split
  · split
    · exact (hg ..).trans (hf ..)
    · rfl
  · rfl

theorem runAdmin_offEp (opc arrival : Nat) {f : HostCmd → State → (Nat × Nat × List Byte) × State} (hf : ∀ h u, offEp (f h u).2 = offEp u)
    (s : State) : offEp (runAdmin opc arrival f s) = offEp s :=
  runAdmin_proj finishCmd_offEp opc arrival hf s

section
variable {a b q : Nat} {s t : State}

theorem controllerEnable_offEp (h : execControllerEnable a b s = .next t) : offEp t = offEp s := by
  cases h
  split <;> rfl

theorem doorbellWrite_offEp {c : Bool} {l : List NvmeCmd} (h : execDoorbellWrite c q b l s = .next t) : offEp t = offEp s := by
  cases h
  split
  · rfl
  · split
    · split
      · split
        · exact pushEvent_offEp ..
        · exact (postHeld_offEp ..).trans rfl
      · exact pushEvent_offEp ..
    · split
      · split
        · exact pushEvent_offEp ..
        · rfl
      · exact pushEvent_offEp ..

theorem commandFetch_offEp (h : execCommandFetch s = .next t) : offEp t = offEp s := by
  cases h
  split
  · rfl
  · refine (proj_foldl _ _ fun u i => ?_).trans (fetchAdmin_offEp ..)
    split
    · exact fetchOne_offEp ..
    · rfl

theorem rangeLockBegin_offEp (h : execRangeLockBegin a s = .next t) : offEp t = offEp s := by
  cases h
  split
  · split <;> rfl
  · rfl

theorem createIoCq_offEp (h : execCreateIoCq a s = .next t) : offEp t = offEp s := by
  cases h
  refine runAdmin_offEp _ _ (fun x u => ?_) s
  extract_lets c qid bad
  split
  · rfl
  · split <;> rfl

theorem createIoSq_offEp (h : execCreateIoSq a s = .next t) : offEp t = offEp s := by
  cases h
  refine runAdmin_offEp _ _ (fun x u => ?_) s
  extract_lets c qid cq bad
  split
  · rfl
  · split <;> rfl

theorem deleteIoCq_offEp (h : execDeleteIoCq a s = .next t) : offEp t = offEp s := by
  cases h
  refine runAdmin_offEp _ _ (fun x u => ?_) s
  extract_lets qid
  split
  · rfl
  · split <;> rfl

theorem deleteIoSq_offEp (h : execDeleteIoSq a s = .next t) : offEp t = offEp s := by
  cases h
  refine runAdmin_offEp _ _ (fun x u => ?_) s
  extract_lets qid out v
  split
  · rfl
  · exact Eq.trans rfl (proj_foldl (f := offEp) out u fun w k => finishCmd_offEp k 0x008 0 [] w)

theorem identify_offEp (h : execIdentify a s = .next t) : offEp t = offEp s := by
  cases h
  refine runAdmin_offEp _ _ (fun x u => ?_) s
  extract_lets c cns ns
  have hns : ∀ l, offEp (ns l).2 = offEp u := fun l => by
    simp only [ns]
    split <;> rfl
  clear_value cns ns
  split
  · rfl
  · split
    · exact hns _
    · rfl
    · rfl
    · exact hns _
    · rfl

theorem finishCmd_offStore (a status dw0 : Nat) (data : List Byte) (s : State) : offStore (finishCmd a status dw0 data s) = offStore s :=
  offStore_of_offEp (finishCmd_offEp ..)

theorem getLogPage_offStore (h : execGetLogPage a s = .next t) : offStore t = offStore s := by
  cases h
  refine runAdmin_proj finishCmd_offStore _ _ (fun x u => ?_) s
  extract_lets c n
  split
  · rfl
  · split <;> rfl

theorem setFeatures_offEp (h : execSetFeatures a s = .next t) : offEp t = offEp s := by
  cases h
  refine runAdmin_offEp _ _ (fun x u => ?_) s
  extract_lets c v sel m n
  split
  · rfl
  · split
    case h_1 | h_2 | h_3 | h_5 | h_7 => split <;> rfl
    all_goals rfl

theorem getFeatures_offEp (h : execGetFeatures a s = .next t) : offEp t = offEp s := by
  cases h
  refine runAdmin_offEp _ _ (fun x u => ?_) s
  extract_lets c
  split <;> rfl

theorem asynchronousEventRequest_offEp (h : execAsynchronousEventRequest a s = .next t) : offEp t = offEp s := by
  cases h
  split
  · split
    · extract_lets u
      split
      · exact (finishCmd_offEp ..).trans rfl
      · rfl
    · rfl
  · rfl

theorem deviceSelfTest_offEp (h : execDeviceSelfTest a s = .next t) : offEp t = offEp s := by
  cases h
  refine runAdmin_offEp _ _ (fun x u => ?_) s
  extract_lets stc
  split
  all_goals
    split
    · rfl
    · split <;> rfl

theorem selfTestStep_offStore {ok : Bool} (h : execSelfTestStep ok s = .next t) : offStore t = offStore s := by
  cases h
  split
  · rfl
  · split
    · rfl
    · extract_lets last
      split
      · exact (offStore_of_offLog (raise_offLog (by simp) ..)).trans rfl
      · split
        · rfl
        · split <;> rfl

theorem hostCqTimeout_offStore (h : execHostCqTimeout q s = .next t) : offStore t = offStore s := by
  cases h
  split
  · split
    · exact (offStore_of_offLog (raise_offLog (by simp) ..)).trans rfl
    · rfl
  · rfl

theorem resetController_offHost (s : State) : offHost (resetController s) = offHost s := rfl

theorem controllerDisable_offHost (h : execControllerDisable s = .next t) : offHost t = offHost s := by
  cases h
  split
  · exact resetController_offHost s
  · rfl

theorem pcieLinkLoss_offHost (h : execPcieLinkLoss s = .next t) : offHost t = offHost s := by
  cases h
  split
  · exact (resetController_offHost _).trans rfl
  · rfl

theorem abort_offHost (h : execAbort a s = .next t) : offHost t = offHost s := by
  cases h
  refine runAdmin_proj (fun _ _ _ _ _ => offHost_of_offEp (finishCmd_offEp ..)) _ _ (fun x u => ?_) s
  extract_lets sq cid waiting caught v
  clear_value waiting
  split
  · exact Eq.trans rfl ((offHost_of_offEp (finishCmd_offEp ..)).trans rfl)
  · split
    · exact Eq.trans rfl ((offHost_of_offEp (completeOn_offEp ..)).trans rfl)
    · rfl

end

/-! ### The lanes -/

/-- The state without the lanes and their PLLs. -/
def offLanes (s : State) : State := { offLog s with lanes := [], plls := [] }

theorem offLanes_of_offLog {s t : State} (h : offLog t = offLog s) : offLanes t = offLanes s :=
  congrArg (fun u : State => { u with lanes := [], plls := [] }) h

theorem eq_of_offLanes {s t : State} (h : offLanes t = offLanes s) :
    t = { s with lanes := t.lanes, plls := t.plls, err := t.err, log := t.log } :=
  congrArg (fun u : State => { u with lanes := t.lanes, plls := t.plls, err := t.err, log := t.log }) h

theorem laneErr_offLanes {sev : Nat} (h : sev ≠ 3) (n kind detail : Nat) (s : State) :
    offLanes (laneErr sev n kind detail s) = offLanes s :=
  offLanes_of_offLog (raise_offLog h ..)

theorem beginFault_offLanes {sev : Nat} (h : sev ≠ 3) (lane bit kind detail : Nat) (s : State) :
    offLanes (beginFault lane bit kind sev detail s) = offLanes s := by
  unfold beginFault
  split
  · rfl
  · exact (laneErr_offLanes h ..).trans rfl

theorem modLane_offLanes (n : Nat) (f : Lane → Lane) (s : State) : offLanes (modLane n f s) = offLanes s := rfl

theorem endScan_offLanes (st n : Nat) (s : State) : offLanes (endScan st n s) = offLanes s := modLane_offLanes ..

theorem stepCoeff_offLanes (n tap dir : Nat) (s : State) : offLanes (stepCoeff n tap dir s).2 = offLanes s := by
  unfold stepCoeff
  extract_lets c d c'
  split <;> rfl

theorem ethernetTraining_offLanes (n : Nat) (obs : LaneObs) (s : State) : offLanes (ethernetTraining n obs s) = offLanes s := by
  unfold ethernetTraining
  split
  · exact Eq.trans rfl (proj_foldl (f := offLanes) obs.requests s fun _ _ => stepCoeff_offLanes ..)
  · rfl

theorem pcieOrder_offLanes (n : Nat) (obs : LaneObs) (s : State) : offLanes (pcieOrder n obs s) = offLanes s := by
  unfold pcieOrder
  split
  · extract_lets t
    split
    · exact (laneErr_offLanes (by simp) ..).trans rfl
    · rfl
  · rfl

theorem adaptLane_offLanes (n : Nat) (obs : LaneObs) (s : State) : offLanes (adaptLane n obs s) = offLanes s := by
  unfold adaptLane
  extract_lets w p fixed ctle flip u v
  have hv : offLanes v = offLanes s := (pcieOrder_offLanes ..).trans ((ethernetTraining_offLanes ..).trans rfl)
  split
  · exact (laneErr_offLanes (by simp) ..).trans hv
  · exact hv

section
variable {q n : Nat} {b c : Bool} {s t : State}

theorem lanePllLock_offLanes (h : execLanePllLock q b s = .next t) : offLanes t = offLanes s := by
  cases h
  split <;> rfl

theorem lanePllRelock_offLanes (h : execLanePllRelock q b c s = .next t) : offLanes t = offLanes s := by
  cases h
  split <;> rfl

theorem signalDetect_offLanes (h : execSignalDetect n s = .next t) : offLanes t = offLanes s := by
  cases h
  split <;> rfl

theorem laneBringUp_offLanes {obs : LaneObs} (h : execLaneBringUp n obs s = .next t) : offLanes t = offLanes s := by
  cases h
  split
  · rfl
  · split
    · rfl
    · split
      · exact (laneErr_offLanes (by simp) ..).trans rfl
      · split
        · rfl
        · refine (adaptLane_offLanes ..).trans ?_
          split <;> rfl

theorem dfeUpdate_offLanes {l : List Int} {g : Int} (h : execDfeUpdate n l g s = .next t) : offLanes t = offLanes s := by
  cases h
  split <;> rfl

theorem ctleUpdate_offLanes {x y z : Nat} (h : execCtleUpdate n x y z s = .next t) : offLanes t = offLanes s := by
  cases h
  split <;> rfl

theorem adaptationAtLimit_offLanes (h : execAdaptationAtLimit n s = .next t) : offLanes t = offLanes s := by
  cases h
  split
  · exact (laneErr_offLanes (by simp) ..).trans rfl
  · rfl

theorem transmitterLegFault_offLanes (h : execTransmitterLegFault n b s = .next t) : offLanes t = offLanes s := by
  cases h
  split
  · exact (modLane_offLanes ..).trans ((endScan_offLanes ..).trans (beginFault_offLanes (by simp) ..))
  · rfl

theorem transmitterRetry_offLanes (h : execTransmitterRetry n s = .next t) : offLanes t = offLanes s := by
  cases h
  split <;> rfl

theorem commonModeFault_offLanes (h : execCommonModeFault n s = .next t) : offLanes t = offLanes s := by
  cases h
  split
  · exact beginFault_offLanes (by simp) ..
  · rfl

theorem laneFaultEnd_offLanes {f : LaneFault} (h : execLaneFaultEnd n f s = .next t) : offLanes t = offLanes s := by
  cases h
  split <;> rfl

theorem scanPointComplete_offLanes {x : Nat} (h : execScanPointComplete n x s = .next t) : offLanes t = offLanes s := by
  cases h
  rfl

end

/-! ### The DRAM -/

/-- The state without the DRAM and the count of free values. -/
def offDram (s : State) : State := { offLog s with dram := {}, drawn := 0 }

theorem offDram_of_offLog {s t : State} (h : offLog t = offLog s) : offDram t = offDram s :=
  congrArg (fun u : State => { u with dram := {}, drawn := 0 }) h

theorem eq_of_offDram {s t : State} (h : offDram t = offDram s) :
    t = { s with dram := t.dram, err := t.err, log := t.log, drawn := t.drawn } :=
  congrArg (fun u : State => { u with dram := t.dram, err := t.err, log := t.log, drawn := t.drawn }) h

theorem noteCorrected_offDram (c : Nat) (s : State) : offDram (noteCorrected c s) = offDram s := by
  unfold noteCorrected
  extract_lets x u quiet
  clear_value quiet
  split
  · rfl
  · exact (offDram_of_offLog (raise_offLog (by simp) ..)).trans rfl

theorem readChecked_offDram (c a : Nat) (errs : List Nat) (s : State) : offDram (readChecked c a errs s) = offDram s := by
  unfold readChecked
  split
  · rfl
  · exact (noteCorrected_offDram ..).trans rfl
  · rfl

theorem scrubBurst_offDram (c a : Nat) (errs : List Nat) (s : State) : offDram (scrubBurst c a errs s) = offDram s := by
  unfold scrubBurst
  extract_lets u
  have hu : offDram u = offDram s := readChecked_offDram ..
  split
  · exact Eq.trans rfl hu
  · exact hu

theorem scrubCheck_offDram (c chunk : Nat) (errs : List Nat) (s : State) : offDram (scrubCheck c chunk errs s) = offDram s := by
  unfold scrubCheck
  refine proj_foldl _ _ fun u j => ?_
  extract_lets mine
  split
  · rfl
  · exact scrubBurst_offDram ..

section
variable {c : Nat} {s t : State}

theorem dramRequest_offDram {k : DramClient} {a : Nat} {d : Option (List Byte)} (h : execDramRequest c k a d s = .next t) :
    offDram t = offDram s := by
  unfold execDramRequest at h
  split at h
  · cases h
  · cases h
    split <;> rfl

theorem mr4Poll_offDram {v : Nat} (h : execMr4Poll c v s = .next t) : offDram t = offDram s := by
  cases h
  split
  · rfl
  · extract_lets u
    split
    · exact (offDram_of_offLog (raiseOnce_offLog (by simp) ..)).trans rfl
    · rfl

theorem refreshDue_offDram (h : execRefreshDue c s = .next t) : offDram t = offDram s := by
  cases h
  extract_lets x n banks pass
  clear_value pass
  split
  · rfl
  · split <;> rfl

theorem activateThreshold_offDram (h : execActivateThreshold c s = .next t) : offDram t = offDram s := by
  cases h
  split <;> rfl

theorem scrubStep_offDram {e : List Nat} (h : execScrubStep c e s = .next t) : offDram t = offDram s := by
  cases h
  extract_lets x a u
  split
  · rfl
  · split
    · exact (scrubCheck_offDram ..).trans rfl
    · exact (scrubBurst_offDram ..).trans rfl

theorem delayUpdate_offDram (h : execDelayUpdate c s = .next t) : offDram t = offDram s := by
  cases h
  extract_lets x tmp n u
  split
  · rfl
  · split
    · rfl
    · split
      · exact (offDram_of_offLog (raiseOnce_offLog (by simp) ..)).trans rfl
      · split <;> rfl

end

/-! ### The island, the members, the links and the compressor -/

/-- The state without the island. -/
def offIsl (s : State) : State := { s with isl := {}, islNv := {} }
/-- The state without the recorder. -/
def offRec (s : State) : State := { s with rcd := {} }
/-- The state without the links. -/
def offLinks (s : State) : State := { offLog s with links := [] }
/-- The state without the compressor. -/
def offComp (s : State) : State := { s with comp := {} }

theorem eq_of_offIsl {s t : State} (h : offIsl t = offIsl s) : t = { s with isl := t.isl, islNv := t.islNv } :=
  congrArg (fun u : State => { u with isl := t.isl, islNv := t.islNv }) h

theorem eq_of_offRec {s t : State} (h : offRec t = offRec s) : t = { s with rcd := t.rcd } :=
  congrArg (fun u : State => { u with rcd := t.rcd }) h

theorem offLinks_of_offLog {s t : State} (h : offLog t = offLog s) : offLinks t = offLinks s :=
  congrArg (fun u : State => { u with links := [] }) h

theorem eq_of_offLinks {s t : State} (h : offLinks t = offLinks s) : t = { s with links := t.links, err := t.err, log := t.log } :=
  congrArg (fun u : State => { u with links := t.links, err := t.err, log := t.log }) h

theorem eq_of_offComp {s t : State} (h : offComp t = offComp s) : t = { s with comp := t.comp } :=
  congrArg (fun u : State => { u with comp := t.comp }) h

theorem detectGroup_offLinks (g : Nat) (s : State) : offLinks (detectGroup g s) = offLinks s := by
  unfold detectGroup
  extract_lets x found
  clear_value found
  split <;> rfl

theorem announceAll_offLinks (g : Nat) (s : State) : offLinks (announceAll g s) = offLinks s := by
  refine proj_foldl _ _ fun u k => ?_
  split <;> rfl

theorem sendSsd_offRec (port queue : Nat) (op : SsdOp) (s : State) : offRec (sendSsd port queue op s) = offRec s := by
  unfold sendSsd
  split <;> rfl

section
variable {n m i g : Nat} {b : Bool} {x : Tod} {s t : State}

theorem strobeEdge_offIsl (h : execStrobeEdge n b x s = .next t) : offIsl t = offIsl s := by
  cases h
  split <;> rfl

theorem ppsOutSecond_offIsl (h : execPpsOutSecond s = .next t) : offIsl t = offIsl s := by
  cases h
  split <;> rfl

theorem ppsInEdge_offIsl (h : execPpsInEdge x s = .next t) : offIsl t = offIsl s := by
  cases h
  split
  · rfl
  · split <;> rfl

theorem ssdCommandTimeout_offRec (h : execSsdCommandTimeout m i s = .next t) : offRec t = offRec s := by
  cases h
  split
  · exact (sendSsd_offRec ..).trans rfl
  · rfl

theorem ssdAbortExpiry_offRec (h : execSsdAbortExpiry m i s = .next t) : offRec t = offRec s := by
  cases h
  split <;> rfl

theorem linkBringUp_offLinks (h : execLinkBringUp g s = .next t) : offLinks t = offLinks s := by
  cases h
  exact detectGroup_offLinks g s

theorem receiverDetectionRetry_offLinks (h : execReceiverDetectionRetry g s = .next t) : offLinks t = offLinks s := by
  cases h
  exact detectGroup_offLinks g s

theorem capabilityRefuseExpiry_offLinks (h : execCapabilityRefuseExpiry g s = .next t) : offLinks t = offLinks s := by
  cases h
  split
  · exact (detectGroup_offLinks ..).trans rfl
  · rfl

theorem creditCellTimer_offLinks (h : execCreditCellTimer g s = .next t) : offLinks t = offLinks s := by
  cases h
  split <;> rfl

theorem cellSlot_offLinks (h : execCellSlot g s = .next t) : offLinks t = offLinks s := by
  cases h
  split <;> rfl

theorem timeCellTimer_offLinks (h : execTimeCellTimer g s = .next t) : offLinks t = offLinks s := by
  cases h
  split <;> rfl

theorem streamAnnounceTimer_offLinks (h : execStreamAnnounceTimer g s = .next t) : offLinks t = offLinks s := by
  cases h
  split
  · exact announceAll_offLinks g s
  · rfl

theorem stuffingAllowanceExceeded_offLinks (h : execStuffingAllowanceExceeded g s = .next t) : offLinks t = offLinks s := by
  cases h
  split
  · exact offLinks_of_offLog (raise_offLog (by simp) ..)
  · rfl

/-- A deal that meets no invalid descriptor fails no job. -/
theorem blockDeal_offComp (hok : ∀ j ∈ s.comp.queue, descOk j = true) (h : execBlockDeal s = .next t) : offComp t = offComp s := by
  cases h
  split
  · rfl
  · split
    next e j _ hj =>
      have hj : descOk j = true := hok j (List.mem_of_find?_eq_some hj)
      simp only [hj, Bool.not_true, Bool.false_eq_true, if_false]
      rfl
    next => rfl

end

/-! ### The frames of the events -/

section
variable {r : Instr} {s t : State}

theorem timeEvents_frame {m : Nat} {p : PtpMsg} {a : AnnounceMsg} {k : PtpSend}
    (hr : r ∈ [Instr.ptpAnnounce m a, .ptpDelayReq m p, .ptpDelayResp m p, .ptpSendTimer m k, .timeSourceTimeout])
    (h : exec r s = .next t) : t = { s with time := t.time, err := t.err, log := t.log } := by
  refine eq_of_offTime ?_
  simp only [List.mem_cons, List.not_mem_nil, or_false] at hr
  obtain rfl | rfl | rfl | rfl | rfl := hr
  exacts [ptpAnnounce_offTime h, ptpDelayReq_offTime h, ptpDelayResp_offTime h, ptpSendTimer_offTime h, timeSourceTimeout_offTime h]

theorem sampleEvents_frame {m n : Nat} {p : PtpMsg} (hr : r ∈ [Instr.ptpSync m p, .ptpFollowUp m p, .scheduleRebase n])
    (h : exec r s = .next t) :
    t = { s with time := t.time, cap := { s.cap with ports := t.cap.ports }, err := t.err, log := t.log } := by
  refine eq_of_offPorts ?_
  simp only [List.mem_cons, List.not_mem_nil, or_false] at hr
  obtain rfl | rfl | rfl := hr
  exacts [ptpSync_offPorts h, ptpFollowUp_offPorts h, scheduleRebase_offPorts h]

theorem outputEvents_frame {p m : Nat} {o : OutId} {e : Int}
    (hr : r ∈ [Instr.audioBlockTake p, .audioBlockPresent p, .audioStopComplete p, .slaveClockFault p, .slaveClockReturn p,
        .macLinkUp m, .macLinkDown m, .teAbsentExpiry p, .blankExpiry p, .audioPacketTimer p, .outputFrameStart o e])
    (h : exec r s = .next t) : t = { s with out := t.out, err := t.err, log := t.log } := by
  refine eq_of_offOut ?_
  simp only [List.mem_cons, List.not_mem_nil, or_false] at hr
  obtain rfl | rfl | rfl | rfl | rfl | rfl | rfl | rfl | rfl | rfl | rfl := hr
  exacts [audioBlockTake_offOut h, audioBlockPresent_offOut h, audioStopComplete_offOut h, slaveClockFault_offOut h,
    slaveClockReturn_offOut h, macLinkUp_offOut h, macLinkDown_offOut h, teAbsentExpiry_offOut h, blankExpiry_offOut h,
    audioPacketTimer_offOut h, outputFrameStart_offOut h]

theorem endpointEvents_frame {a b q v : Nat} {l : List NvmeCmd} {c : Bool}
    (hr : r ∈ [Instr.controllerEnable a b, .doorbellWrite c q v l, .commandFetch,
        .rangeLockBegin a, .createIoCq a, .createIoSq a, .deleteIoCq a, .deleteIoSq a, .identify a, .getLogPage a, .setFeatures a,
        .getFeatures a, .asynchronousEventRequest a, .deviceSelfTest a, .selfTestStep c, .hostCqTimeout q])
    (h : exec r s = .next t) : t = { s with ep := t.ep, err := t.err, log := t.log, drawn := t.drawn } := by
  refine eq_of_offStore ?_
  simp only [List.mem_cons, List.not_mem_nil, or_false] at hr
  obtain rfl | rfl | rfl | rfl | rfl | rfl | rfl | rfl | rfl | rfl | rfl | rfl | rfl | rfl | rfl | rfl := hr
  exacts [offStore_of_offEp (controllerEnable_offEp h), offStore_of_offEp (doorbellWrite_offEp h),
    offStore_of_offEp (commandFetch_offEp h), offStore_of_offEp (rangeLockBegin_offEp h), offStore_of_offEp (createIoCq_offEp h),
    offStore_of_offEp (createIoSq_offEp h), offStore_of_offEp (deleteIoCq_offEp h), offStore_of_offEp (deleteIoSq_offEp h),
    offStore_of_offEp (identify_offEp h), getLogPage_offStore h, offStore_of_offEp (setFeatures_offEp h),
    offStore_of_offEp (getFeatures_offEp h), offStore_of_offEp (asynchronousEventRequest_offEp h),
    offStore_of_offEp (deviceSelfTest_offEp h), selfTestStep_offStore h, hostCqTimeout_offStore h]

theorem hostEvents_frame {a : Nat} (hr : r ∈ [Instr.controllerDisable, .pcieLinkLoss, .abort a]) (h : exec r s = .next t) :
    t = { s with ep := t.ep, rcd := { s.rcd with ssds := t.rcd.ssds } } := by
  refine eq_of_offHost ?_
  simp only [List.mem_cons, List.not_mem_nil, or_false] at hr
  obtain rfl | rfl | rfl := hr
  exacts [controllerDisable_offHost h, pcieLinkLoss_offHost h, abort_offHost h]

theorem laneEvents_frame {q n x y z : Nat} {b c : Bool} {o : LaneObs} {l : List Int} {g : Int} {f : LaneFault}
    (hr : r ∈ [Instr.lanePllLock q b, .lanePllRelock q b c, .signalDetect n, .laneBringUp n o, .dfeUpdate n l g,
        .ctleUpdate n x y z, .adaptationAtLimit n, .transmitterLegFault n b, .transmitterRetry n, .commonModeFault n,
        .laneFaultEnd n f, .scanPointComplete n x])
    (h : exec r s = .next t) : t = { s with lanes := t.lanes, plls := t.plls, err := t.err, log := t.log } := by
  refine eq_of_offLanes ?_
  simp only [List.mem_cons, List.not_mem_nil, or_false] at hr
  obtain rfl | rfl | rfl | rfl | rfl | rfl | rfl | rfl | rfl | rfl | rfl | rfl := hr
  exacts [lanePllLock_offLanes h, lanePllRelock_offLanes h, signalDetect_offLanes h, laneBringUp_offLanes h, dfeUpdate_offLanes h,
    ctleUpdate_offLanes h, adaptationAtLimit_offLanes h, transmitterLegFault_offLanes h, transmitterRetry_offLanes h,
    commonModeFault_offLanes h, laneFaultEnd_offLanes h, scanPointComplete_offLanes h]

theorem dramEvents_frame {c a v : Nat} {k : DramClient} {d : Option (List Byte)} {e : List Nat}
    (hr : r ∈ [Instr.dramRequest c k a d, .mr4Poll c v, .refreshDue c, .activateThreshold c, .scrubStep c e, .delayUpdate c])
    (h : exec r s = .next t) : t = { s with dram := t.dram, err := t.err, log := t.log, drawn := t.drawn } := by
  refine eq_of_offDram ?_
  simp only [List.mem_cons, List.not_mem_nil, or_false] at hr
  obtain rfl | rfl | rfl | rfl | rfl | rfl := hr
  exacts [dramRequest_offDram h, mr4Poll_offDram h, refreshDue_offDram h, activateThreshold_offDram h, scrubStep_offDram h,
    delayUpdate_offDram h]

theorem islandEvents_frame {n : Nat} {b : Bool} {x : Tod} (hr : r ∈ [Instr.strobeEdge n b x, .ppsOutSecond, .ppsInEdge x])
    (h : exec r s = .next t) : t = { s with isl := t.isl, islNv := t.islNv } := by
  refine eq_of_offIsl ?_
  simp only [List.mem_cons, List.not_mem_nil, or_false] at hr
  obtain rfl | rfl | rfl := hr
  exacts [strobeEdge_offIsl h, ppsOutSecond_offIsl h, ppsInEdge_offIsl h]

theorem memberEvents_frame {m i : Nat} (hr : r ∈ [Instr.ssdCommandTimeout m i, .ssdAbortExpiry m i]) (h : exec r s = .next t) :
    t = { s with rcd := t.rcd } := by
  refine eq_of_offRec ?_
  simp only [List.mem_cons, List.not_mem_nil, or_false] at hr
  obtain rfl | rfl := hr
  exacts [ssdCommandTimeout_offRec h, ssdAbortExpiry_offRec h]

theorem linkEvents_frame {g : Nat}
    (hr : r ∈ [Instr.linkBringUp g, .receiverDetectionRetry g, .capabilityRefuseExpiry g, .creditCellTimer g, .cellSlot g,
        .timeCellTimer g, .streamAnnounceTimer g, .stuffingAllowanceExceeded g])
    (h : exec r s = .next t) : t = { s with links := t.links, err := t.err, log := t.log } := by
  refine eq_of_offLinks ?_
  simp only [List.mem_cons, List.not_mem_nil, or_false] at hr
  obtain rfl | rfl | rfl | rfl | rfl | rfl | rfl | rfl := hr
  exacts [linkBringUp_offLinks h, receiverDetectionRetry_offLinks h, capabilityRefuseExpiry_offLinks h, creditCellTimer_offLinks h,
    cellSlot_offLinks h, timeCellTimer_offLinks h, streamAnnounceTimer_offLinks h, stuffingAllowanceExceeded_offLinks h]

end

/-- Settles O60: each family leaves the state without its own unit as it was, and so all but that unit. -/
theorem familyFrames : Obligations.FamilyFrames := by
  intro s t
  exact ⟨fun _ _ _ _ _ => timeEvents_frame, fun _ _ _ _ => sampleEvents_frame, fun _ _ _ _ _ => outputEvents_frame,
    fun _ _ h => eq_of_offMac (ethernetFrameReceive_offMac h), fun _ _ _ _ _ _ _ => endpointEvents_frame,
    fun _ _ => hostEvents_frame, fun _ _ _ _ _ _ _ _ _ _ _ _ => laneEvents_frame, fun _ _ _ _ _ _ _ => dramEvents_frame,
    fun _ _ _ _ => islandEvents_frame, fun _ _ _ => memberEvents_frame, fun _ _ => linkEvents_frame,
    fun hok h => eq_of_offComp (blockDeal_offComp hok h)⟩

end Sys2Proof.Proofs

/-! PROOFS. What the Headframe does at its samples, watchdogs, updates and Survey items (R698, R703 to R710, R713, R716, R719, R731,
R735, R769, R770, R787, R807), and a queue of errors that a Fatal error does not clear. -/

namespace Sys2Proof.Proofs
open Sys2Proof Sys2Proof.Machine Sys2Proof.Laws

/-! ### The sensor sample (R703 to R705, R787) -/

/-- The state without the errors, the log, the device record and the endpoint: what an error or a notice to the host leaves. -/
def offNotes (s : State) : State := { s with err := {}, log := {}, dev := {}, ep := {} }

theorem raise_offNotes (sev code inst : Nat) (ds : List Nat) (s : State) : offNotes (raise sev code inst ds s) = offNotes s := by
  obtain ⟨l, e, d, h⟩ := raise_eq sev code inst ds s
  rw [h]
  rfl

theorem raiseOnce_offNotes (sev code inst : Nat) (ds : List Nat) (s : State) :
    offNotes (raiseOnce sev code inst ds s) = offNotes s := by
  obtain ⟨l, e, d, h⟩ := raiseOnce_eq sev code inst ds s
  rw [h]
  rfl

theorem noticeTemp_offNotes (before s : State) : offNotes (noticeTemp before s) = offNotes s := by
  unfold noticeTemp
  split
  · exact (congrArg offNotes (pushEvent_offEp _ s) : offNotes (offEp _) = offNotes (offEp _))
  · rfl

theorem logFaulted_offNotes (old : List TempSensor) (s : State) : offNotes (logFaulted old s) = offNotes s := by
  unfold logFaulted
  rw [ite_self]
  refine proj_foldl _ _ fun u i => ?_
  split
  · exact raiseOnce_offNotes ..
  · rfl

theorem clockRules_offNotes (bad : List Nat) (s : State) :
    offNotes (clockRules bad s) = offNotes (modHf (fun h => { h with badClocks := bad }) s) := by
  unfold clockRules
  extract_lets u
  have hu : offNotes u = offNotes s := proj_foldl _ _ fun v c => by split <;> rfl
  exact (proj_foldl _ _ fun v c => raiseOnce_offNotes ..).trans
    (congrArg (modHf fun h => { h with badClocks := bad }) hu : modHf _ (offNotes u) = modHf _ (offNotes s))

/-- The alarm step of a sample: it is left, entered and counted, or nothing (R787). -/
def alarmStep (s : State) : State :=
  if s.pwr.alarm then
    (if (s.hf.temps.take 15).all fun t => t.faulted || decide (t.value < 2160) then modPwr (fun p => { p with alarm := false }) s else s)
  else if 2240 ≤ hottest s then
    raise 1 0x1702 noInst [] (modPwr (fun p => { p with alarm := true, alarms := wrapInc 32 p.alarms }) s)
  else s

/-- What of power the alarm is: whether it stands, and how often it was entered. -/
def alarmOf (s : State) : Bool × Nat := (s.pwr.alarm, s.pwr.alarms)

/-- The state without power too. -/
def offPower (s : State) : State := { offNotes s with pwr := {} }

theorem offPower_of_offNotes {s t : State} (h : offNotes t = offNotes s) : offPower t = offPower s :=
  congrArg (fun u : State => { u with pwr := {} }) h

theorem alarmOf_of_offNotes {s t : State} (h : offNotes t = offNotes s) : alarmOf t = alarmOf s :=
  (congrArg alarmOf h : alarmOf (offNotes t) = alarmOf (offNotes s))

theorem alarmStep_offPower (s : State) : offPower (alarmStep s) = offPower s := by
  unfold alarmStep
  split
  · split <;> rfl
  · split
    · exact (offPower_of_offNotes (raise_offNotes ..)).trans rfl
    · rfl

/-- After its alarm step a sample changes neither the alarm nor anything outside power, the errors and the log. -/
theorem thermalRules_alarmStep (s : State) :
    offPower (thermalRules s) = offPower s ∧ alarmOf (thermalRules s) = alarmOf (alarmStep s) := by
  unfold thermalRules
  extract_lets die hot a b now twice c
  have ha : a = alarmStep s := rfl
  have hb : offPower b = offPower a ∧ alarmOf b = alarmOf a := by
    simp only [b]
    split <;> exact ⟨rfl, rfl⟩
  have hc : offPower c = offPower b ∧ alarmOf c = alarmOf b := ⟨rfl, rfl⟩
  have hlast : offPower c = offPower s ∧ alarmOf c = alarmOf (alarmStep s) :=
    ⟨hc.1.trans (hb.1.trans (ha ▸ alarmStep_offPower s)), hc.2.trans (hb.2.trans (ha ▸ rfl))⟩
  clear_value twice now c
  split
  · exact ⟨(offPower_of_offNotes (raiseOnce_offNotes ..)).trans hlast.1, (alarmOf_of_offNotes (raiseOnce_offNotes ..)).trans hlast.2⟩
  · split
    · exact hlast
    · exact hlast

/-- The readings of a sample with the offsets of the sets in force (R703). -/
def sampleTemps (temps : List Int) (s : State) : List Int := (List.range 16).map fun i => withOffset i (temps.getD i 0) s

/-- The state with the readings of a sample stored. -/
def sampledState (temps : List Int) (rails : List Nat) (s : State) : State :=
  modHf (fun h => { h with
    temps := h.temps.zipIdx.map fun x => sampleSensor (sampleTemps temps s) (medianTemp (sampleTemps temps s)) x.2 x.1
    rails := sampleRails rails h.rails }) s

/-- The state on which a sample decides the alarm. -/
def warnedState (temps : List Int) (rails : List Nat) (s : State) : State :=
  noticeTemp s (logFaulted s.hf.temps (sampledState temps rails s))

theorem sensorSample_runs {s : State} (hon : headframeOn s = true) (temps : List Int) (rails bad : List Nat) :
    exec (.sensorSample temps rails bad) s = .next (clockRules (clocksOut bad) (thermalRules (warnedState temps rails s))) := by
  simp only [exec, execSensorSample, hon, Bool.not_true, Bool.false_eq_true, if_false]
  rfl

theorem warnedState_offNotes (temps : List Int) (rails : List Nat) (s : State) :
    offNotes (warnedState temps rails s) = offNotes (sampledState temps rails s) :=
  (noticeTemp_offNotes ..).trans (logFaulted_offNotes ..)

theorem clockRules_alarmOf (bad : List Nat) (s : State) : alarmOf (clockRules bad s) = alarmOf s :=
  (alarmOf_of_offNotes (clockRules_offNotes bad s)).trans rfl

/-- What a sample leaves but power, the errors, the log, the device record and the endpoint. -/
theorem sample_offPower (temps : List Int) (rails bad : List Nat) (s : State) :
    offPower (clockRules (clocksOut bad) (thermalRules (warnedState temps rails s))) =
      offPower (modHf (fun h => { h with badClocks := clocksOut bad }) (sampledState temps rails s)) :=
  (offPower_of_offNotes (clockRules_offNotes ..)).trans
    (congrArg (modHf fun h => { h with badClocks := clocksOut bad })
      ((thermalRules_alarmStep _).1.trans (offPower_of_offNotes (warnedState_offNotes temps rails s))) :
      modHf _ (offPower _) = modHf _ (offPower _))

theorem hf_of_offPower {s t : State} (h : offPower t = offPower s) : t.hf = s.hf :=
  (congrArg State.hf h : (offPower t).hf = (offPower s).hf)

theorem alarm_after {s u : State} (htemps : s.hf.temps = u.hf.temps) (halarm : alarmOf s = alarmOf (alarmStep u)) :
    (u.pwr.alarm = false → (s.pwr.alarm = true ↔ 2240 ≤ hottest s)) ∧
      (u.pwr.alarm = true → (s.pwr.alarm = false ↔ ∀ x ∈ s.hf.temps.take 15, x.faulted = true ∨ x.value < 2160)) ∧
      s.pwr.alarms = if u.pwr.alarm = false ∧ s.pwr.alarm = true then (u.pwr.alarms + 1) % 2 ^ 32 else u.pwr.alarms := by
  obtain ⟨ha, hn⟩ := Prod.ext_iff.mp halarm
  simp only [alarmOf] at ha hn
  have hhot : hottest s = hottest u := by simp only [hottest, htemps]
  rw [hhot, htemps, ha, hn]
  unfold alarmStep
  cases hu : u.pwr.alarm
  · by_cases hge : 2240 ≤ hottest u <;> simp [hu, hge, wrapInc]
  · simp only [if_true, List.all_eq_true, Bool.or_eq_true, decide_eq_true_eq]
    by_cases hall : ∀ x ∈ u.hf.temps.take 15, x.faulted = true ∨ x.value < 2160
    · simp [iff_true_intro hall]
    · simp [hall, hu]

/-- Settles O12: the alarm is decided once, on the readings that the state after the sample holds, and power is all that changes. -/
theorem thermalAlarm : Obligations.ThermalAlarm := by
  intro temps rails bad s hon
  refine ⟨_, sensorSample_runs hon temps rails bad, ?_⟩
  have hoff := sample_offPower temps rails bad s
  have hwarned := offPower_of_offNotes (warnedState_offNotes temps rails s)
  obtain ⟨hset, hcount⟩ := Prod.ext_iff.mp ((alarmOf_of_offNotes (warnedState_offNotes temps rails s)).trans rfl : _ = alarmOf s)
  have halarm := (clockRules_alarmOf (clocksOut bad) _).trans (thermalRules_alarmStep (warnedState temps rails s)).2
  have htemps := congrArg Headframe.temps ((hf_of_offPower hoff).trans rfl)
  have h := alarm_after (htemps.trans (congrArg Headframe.temps (hf_of_offPower hwarned)).symm) halarm
  simp only [alarmOf] at hset hcount
  rw [hset, hcount] at h
  exact ⟨h.1, h.2.1, h.2.2, (congrArg State.cap hoff :), (congrArg State.lanes hoff :), (congrArg State.links hoff :),
    (congrArg State.codec hoff :), (congrArg State.rcd hoff :), (congrArg State.out hoff :), (congrArg State.cfg hoff :)⟩

/-! ### The events of the Headframe (R705 to R710, R769, R770, R807) -/

theorem sampledState_values (temps : List Int) (rails : List Nat) (s : State) :
    (sampledState temps rails s).hf.temps.map (·.value) = s.hf.temps.zipIdx.map fun x => (sampleTemps temps s).getD x.2 0 := by
  simp [sampledState, sampleSensor, Function.comp_def]

/-- Settles O11: the sample through what it leaves, every other event from its own branch. -/
theorem headframeEvents : Obligations.HeadframeEvents := by
  unfold Obligations.HeadframeEvents
  refine ⟨?sample, ?aon, ?island, ?fatal, ?inside, ?core, ?program, ?noProgram, ?logNvm, ?update, ?stuck, ?freed, ?polled, ?silent⟩
  case sample =>
    intro temps rails bad s hon
    have hhf := hf_of_offPower (sample_offPower temps rails bad s)
    refine ⟨_, sensorSample_runs hon temps rails bad, ?_, ?_, ?_⟩
    · rw [hhf]; rfl
    · rw [hhf]; rfl
    · rw [hhf]; exact sampledState_values temps rails s
  case aon =>
    intro mV s hon hout
    exact ⟨by simp [exec, execSupplyOutOfLimits, execVddAonLoss, hon, hout], _, rfl, rfl⟩
  case island =>
    intro mV s hon hout hrun
    simp [exec, execSupplyOutOfLimits, hon, hout, hrun, modIsl]
  case fatal =>
    intro rail mV s hon hlt h2 h3 hout
    simp [exec, execSupplyOutOfLimits, hon, hout, h2, h3, show ¬ 14 ≤ rail by omega]
  case inside =>
    intro rail mV s hok
    simp [exec, execSupplyOutOfLimits, hok]
  case core =>
    intro core s hrun hlt hawake
    have hguard : (s.dev.state != .running || decide (4 ≤ core) || s.mbx.asleep.contains (core + 1)) = false := by
      rw [hawake, hrun, decide_eq_false (by omega : ¬ 4 ≤ core)]
      rfl
    refine ⟨fun hnone => ?_, fun n hlast hsoon => ?_⟩
    · simp only [exec, execCoreWatchdogExpiry, hguard, hnone, Bool.false_eq_true, if_false]
      rfl
    · simp only [exec, execCoreWatchdogExpiry, hguard, hlast, decide_eq_true hsoon, Bool.false_eq_true, if_false, if_true]
      rfl
  case program =>
    intro e rest s hon hwait
    simp [exec, execEventLogProgram, hon, hwait]
  case noProgram =>
    intro s
    simp [exec, execEventLogProgram]
  case logNvm =>
    intro s hon
    simp [exec, execBootNvmTimeout, hon]
  case update =>
    intro s hon hwriting
    simp [exec, execBootNvmTimeout, hon, hwriting, modHf]
  case stuck =>
    intro s hon
    simp [exec, execI2cBusStuck, hon, modHf]
  case freed =>
    intro s hon
    simp [exec, execI2cBusStuck, hon, modHf]
  case polled =>
    intro w s hon hset
    simp [exec, execPmbusPoll, hon, hset, modPwr]
  case silent =>
    intro s hon hset
    simp [exec, execPmbusPoll, hon, hset, modPwr]


/-! ### Update writes, boot confirmation, Survey items and OTP writes (R698, R713, R716, R719, R731, R735) -/

theorem updateWrite_fails {s : State} (hwriting : s.hf.update.state = .writing) :
    exec (.updateWriteComplete false) s = .next (raise 1 0x1521 noInst []
      { s with hf := { s.hf with update := { s.hf.update with state := .failed, failCode := 0x1521 } } }) := by
  simp [exec, execUpdateWriteComplete, hwriting, modUpd, modHf]

theorem updateWrite_commits {s : State} (hwriting : s.hf.update.state = .writing) :
    exec (.updateWriteComplete true) s = .next (modUpd (fun x => { x with state := .committed }) (storeImage s.hf.update s)) := by
  simp [exec, execUpdateWriteComplete, hwriting]

/-- An owner image goes to the slot that does not run, and a record of it to try is appended (R713). -/
theorem storeImage_owner {u : Update} (hkind : u.kind = 2) (s : State) :
    (storeImage u s).hf = s.hf ∧ ((storeImage u s).nvm.ownerA = u.bytes ∨ (storeImage u s).nvm.ownerB = u.bytes) ∧
      ∃ r, (storeImage u s).nvm.slotRecs = s.nvm.slotRecs ++ [r] ∧ r.kind = 2 ∧ r.confirmed = false ∧ r.tries = 0 := by
  unfold storeImage
  rw [hkind]
  cases runningB 2 s
  · exact ⟨rfl, Or.inr rfl, _, rfl, rfl, rfl, rfl⟩
  · exact ⟨rfl, Or.inl rfl, _, rfl, rfl, rfl, rfl⟩

theorem setSlot_nvm (kind : Nat) (f : SlotRec → SlotRec) (s : State) : ∃ n, setSlot kind f s = { s with nvm := n } := by
  unfold setSlot
  extract_lets i
  clear_value i
  cases i <;> exact ⟨_, rfl⟩

/-- The counter writes that a confirmed boot queues: one for each verified image above its counter (R735). -/
def counterWrites (s : State) : List OtpWrite :=
  (List.range 6).filterMap fun k =>
    if (s.cfg.images.getD k {}).verified && decide (s.otp.rollback.getD k 0 < (s.cfg.images.getD k {}).rollback) then
      some (OtpWrite.counter k (s.cfg.images.getD k {}).rollback) else none

theorem bootConfirmation_queues {s : State} (hrun : s.dev.state = .running) (hok : s.dev.troubled = false) :
    ∃ n, exec .bootConfirmation s = .next { s with nvm := n, otp := { s.otp with queue := s.otp.queue ++ counterWrites s } } := by
  obtain ⟨a, ha⟩ := setSlot_nvm 1 (fun r => { r with confirmed := true }) s
  obtain ⟨b, hb⟩ := setSlot_nvm 2 (fun r => { r with confirmed := true }) { s with nvm := a }
  simp only [exec, execBootConfirmation, hrun, hok, ha, hb, bne_self_eq_false, Bool.or_self, Bool.false_eq_true, if_false]
  split <;> exact ⟨_, rfl⟩

theorem mem_counterWrites {s : State} {k : Nat} (hk : k < 6) (hver : (s.cfg.images.getD k {}).verified = true)
    (hlow : s.otp.rollback.getD k 0 < (s.cfg.images.getD k {}).rollback) :
    OtpWrite.counter k (s.cfg.images.getD k {}).rollback ∈ counterWrites s :=
  List.mem_filterMap.mpr ⟨k, List.mem_range.mpr hk, by rw [hver, decide_eq_true hlow]; rfl⟩

theorem writeUser_stores (sets : List CalSet) (s : State) :
    ((writeUser sets s).hf.userA ≠ none ∨ (writeUser sets s).hf.userB ≠ none) ∧
      (writeUser sets s).hf.surveyRunning = s.hf.surveyRunning ∧ (writeUser sets s).hf.surveyPassed = s.hf.surveyPassed ∧
      (writeUser sets s).err = s.err ∧ (writeUser sets s).isl = s.isl := by
  unfold writeUser
  extract_lets g next u
  unfold modHf
  dsimp only
  split
  · exact ⟨Or.inl (Option.some_ne_none _), rfl, rfl, rfl, rfl⟩
  · exact ⟨Or.inr (Option.some_ne_none _), rfl, rfl, rfl, rfl⟩

/-- A run's end asks nothing of an island that does not run. -/
theorem endSurvey_idle {s : State} (hoff : s.isl.running = false) : endSurvey s = s := by
  simp [endSurvey, hoff]

theorem endSurvey_unfinished {s : State} (hmore : s.hf.surveyRunning ≠ []) : endSurvey s = s := by
  simp [endSurvey, hmore]

theorem surveyItem_fails {item : Nat} {obs : SurveyObs} {s : State} (hrun : s.hf.surveyRunning = [item, 3]) (hitem : item = 1 ∨ item = 2)
    (hfail : surveyPass item obs s = false) :
    exec (.surveyItemComplete item obs) s = .next (raise 0 (0x1510 + item) noInst []
      { s with hf := { s.hf with surveyRunning := [3], surveyFailed := s.hf.surveyFailed ++ [item] } }) := by
  have hleft : ([item, 3].filter fun k => k != item) = [3] := by rcases hitem with rfl | rfl <;> rfl
  have hmine : ([item, 3].contains item) = true := by simp
  have hports : (item == 0) = false := by rcases hitem with rfl | rfl <;> rfl
  simp only [exec, execSurveyItemComplete, hrun, hmine, hports, hfail, hleft, modHf, Bool.not_true, Bool.false_and, Bool.or_self,
    Bool.false_eq_true, if_false]
  rw [endSurvey_unfinished (by rw [raise_hf]; exact List.cons_ne_nil 3 [])]

/-- The user sets after an item that passed (R721). -/
def surveySets (item : Nat) (obs : SurveyObs) (s : State) : List CalSet :=
  ((surveyInsts item s).zip obs.values).foldl (fun l p => storeSet ⟨item, p.1, obs.tMean, p.2⟩ l) (((userCopy s).map (·.sets)).getD [])

theorem surveyItem_passes {item : Nat} {obs : SurveyObs} {s : State} (hrun : s.hf.surveyRunning.contains item = true) (hitem : item ≠ 0)
    (hpass : surveyPass item obs s = true) (hoff : s.isl.running = false) :
    exec (.surveyItemComplete item obs) s = .next (writeUser (surveySets item obs s)
      { s with hf := { s.hf with surveyRunning := s.hf.surveyRunning.filter fun k => k != item,
                                 surveyPassed := s.hf.surveyPassed ++ [item] } }) := by
  have hports : (item == 0) = false := beq_false_of_ne hitem
  simp only [exec, execSurveyItemComplete, hrun, hports, hpass, modHf, Bool.not_true, Bool.false_and, Bool.or_self,
    Bool.false_eq_true, if_false, if_true]
  rw [endSurvey_idle (by rw [(writeUser_stores _ _).2.2.2.2]; exact hoff)]
  rfl

/-- Settles O13: each completion from its own branch. -/
theorem updatesAndOtp : Obligations.UpdatesAndOtp := by
  unfold Obligations.UpdatesAndOtp
  refine ⟨?assay, ?owner, fun _ => updateWrite_fails, ?timeout, ?boot, fun _ _ _ => surveyItem_fails, ?passes, ?written, ?debugged,
    ?failed⟩
  case assay =>
    intro s hwriting hkind
    rw [updateWrite_commits hwriting, storeImage, hkind]
    rfl
  case owner =>
    intro s hwriting hkind
    obtain ⟨hhf, hbytes, r, hrecs⟩ := storeImage_owner hkind s
    exact ⟨_, updateWrite_commits hwriting, rfl, hbytes, r, hrecs⟩
  case timeout =>
    intro s hrecv
    simp [exec, execUpdateSessionTimeout, hrecv, modUpd, modHf]
  case boot =>
    intro s hrun hok
    obtain ⟨n, h⟩ := bootConfirmation_queues hrun hok
    exact ⟨_, h, rfl, fun k hk hver hlow => List.mem_append_right _ (mem_counterWrites hk hver hlow),
      fun w hw => List.mem_append_left _ hw⟩
  case passes =>
    intro item obs s hrun hitem hpass hoff
    obtain ⟨huser, hrunning, hpassed, herr, -⟩ := writeUser_stores (surveySets item obs s)
      { s with hf := { s.hf with surveyRunning := s.hf.surveyRunning.filter fun k => k != item,
                                 surveyPassed := s.hf.surveyPassed ++ [item] } }
    exact ⟨_, surveyItem_passes hrun hitem hpass hoff, hpassed, by simp [hrunning], huser, herr⟩
  case written =>
    intro w rest s hq hw
    simp [exec, execOtpWriteComplete, hq, hw, modOtp]
  case debugged =>
    intro rest s hq
    simp [exec, execOtpWriteComplete, hq, modOtp, applyOtp]
  case failed =>
    intro w rest s hq
    simp [exec, execOtpWriteComplete, hq, modOtp]

/-! ### A queue beyond its capacity (R762, R765, R767) -/

/-- A queue of 65 entries, one beyond its capacity: 64 Fatal ones and one Warning. -/
def overfullQueue : ErrorQueue :=
  { entries := List.replicate 64 ⟨2, 0, 3, [], 1, .waiting, 0⟩ ++ [⟨1, 0, 0, [], 1, .waiting, 0⟩] }

/-- A Fatal error that finds no place in such a queue is counted as lost and leaves the lower entry where it is. -/
theorem queueErr_overfullQueue : (queueErr 3 0 3 [] overfullQueue).entries = overfullQueue.entries := by
  decide

/-- Refutes O14: its fourth clause is of any queue, and in one of more than 64 entries a Fatal error that is lost abandons nothing. -/
theorem not_errorQueueEvents : ¬ Obligations.ErrorQueueEvents := by
  intro h
  have hfatal := h.2.2.2.1 3 0 [] overfullQueue
  rw [queueErr_overfullQueue] at hfatal
  exact absurd hfatal (by decide)

end Sys2Proof.Proofs

/-! PROOFS. The events of the island and of the audio ports (R533 to R537, R545, R547, R609 to R617). -/

namespace Sys2Proof.Proofs
open Sys2Proof Sys2Proof.Machine Sys2Proof.Laws

/-- Two changes of an entry that do the same to it. -/
theorem modAt_congr {α : Type} {f g : α → α} {l : List α} {n : Nat} (d : α) (h : f (l.getD n d) = g (l.getD n d)) :
    modAt l n f = modAt l n g := by
  refine List.ext_getElem? fun k => ?_
  simp only [modAt, List.getElem?_modify]
  split
  next heq =>
    subst heq
    cases hk : l[n]? with
    | none => rfl
    | some x =>
      rw [List.getD_eq_getElem?_getD, hk] at h
      exact congrArg some h
  next => rfl

/-! ### Strobes and PPS (R533 to R537) -/

theorem strobeEdge_stopped {s : State} (hoff : s.isl.running = false) (n : Nat) (b : Bool) (x : Tod) :
    exec (.strobeEdge n b x) s = .next s := by
  simp [exec, execStrobeEdge, hoff]

theorem ppsInEdge_stopped {s : State} (hoff : s.isl.running = false ∨ asyN F.ASY_CFG_PPS_IN_EN s = 0) (x : Tod) :
    exec (.ppsInEdge x) s = .next s := by
  rcases hoff with h | h <;> simp [exec, execPpsInEdge, h]

/-- A running island takes an edge as a change that does to its strobe what `takeEdge` does. -/
theorem strobeEdge_takes {n : Nat} {b : Bool} {x : Tod} {s : State} (hrun : s.isl.running = true) {f : Strobe → Strobe}
    (h : takeEdge (asserts n b s) (islandStamp n s.dev.elapsed x) s.time.clk s.time.stepSum (s.isl.strobes.getD n {}) =
      f (s.isl.strobes.getD n {})) : exec (.strobeEdge n b x) s = .next (modStrobe n f s) := by
  have hl : modAt s.isl.strobes n (takeEdge (asserts n b s) (islandStamp n s.dev.elapsed x) s.time.clk s.time.stepSum) =
      modAt s.isl.strobes n f := modAt_congr {} h
  simp only [exec, execStrobeEdge, hrun, Bool.not_true, Bool.false_eq_true, if_false, modStrobe, modIsl, hl]

theorem any_not_of_all {α : Type} {p : α → Bool} {o : Option α} (h : ∀ x, o = some x → p x = true) : (o.any fun x => !p x) = false := by
  cases o with
  | none => rfl
  | some x => simp only [Option.any_some, h x rfl, Bool.not_true]

theorem any_not_of_some {α : Type} {p : α → Bool} {o : Option α} {x : α} (ho : o = some x) (h : p x = false) :
    (o.any fun x => !p x) = true := by
  simp only [ho, Option.any_some, h, Bool.not_false]

section
variable {t : Tod} {clk : Nat} {sum : Int} {x : Strobe}

theorem takeEdge_opens (hnone : x.rising = none) (hfar : ∀ f, x.fell = some f → apart 8 f t = true) :
    takeEdge true t clk sum x = { x with rising := some (t, clk, sum) } := by
  simp only [takeEdge, hnone, any_not_of_all hfar, Option.isSome_none, Bool.or_self, if_true, Bool.false_eq_true, if_false]

theorem takeEdge_extra (h : x.rising.isSome = true ∨ ∃ f, x.fell = some f ∧ apart 8 f t = false) :
    takeEdge true t clk sum x = { x with extra := x.extra + 1 } := by
  rcases h with h | ⟨f, hf, hnear⟩
  · simp [takeEdge, h]
  · simp only [takeEdge, any_not_of_some (p := fun f => apart 8 f t) hf hnear, Bool.or_true, if_true]

theorem takeEdge_unopened (hnone : x.rising = none) : takeEdge false t clk sum x = { x with extra := x.extra + 1, fell := some t } := by
  simp [takeEdge, hnone]

theorem takeEdge_ends {a : Tod} {c : Nat} {d : Int} (hopen : x.rising = some (a, c, d)) (hfar : apart 2 a t = true) :
    takeEdge false t clk sum x = { x with rising := none, fell := some t, ended := ⟨a, c, t, sum - d⟩ :: x.ended } := by
  simp only [takeEdge, hopen, hfar, Bool.false_eq_true, if_false, if_true]

theorem takeEdge_short {a : Tod} {c : Nat} {d : Int} (hopen : x.rising = some (a, c, d)) (hnear : apart 2 a t = false) :
    takeEdge false t clk sum x = { x with rising := none, fell := some t, extra := x.extra + 1 } := by
  simp only [takeEdge, hopen, hnear, Bool.false_eq_true, if_false]

end

/-- The offset of an instant from the nearest whole second, in 2^-16 ns (R537). -/
def secondOffset (u : Tod) : Int := ((todUnits u + unitsPerSec / 2) % unitsPerSec : Nat) - (unitsPerSec / 2 : Nat)

theorem secondOffset_bounds (u : Tod) : -(unitsPerSec / 2 : Nat) ≤ secondOffset u ∧ secondOffset u < (unitsPerSec / 2 : Nat) ∧
    (unitsPerSec : Int) ∣ (todUnits u : Int) - secondOffset u := by
  have hlt : (todUnits u + unitsPerSec / 2) % unitsPerSec < unitsPerSec := Nat.mod_lt _ (by decide)
  have hdiv := Nat.div_add_mod (todUnits u + unitsPerSec / 2) unitsPerSec
  have hhalf : unitsPerSec = unitsPerSec / 2 + unitsPerSec / 2 := by decide
  unfold secondOffset
  refine ⟨by omega, by omega, ((todUnits u + unitsPerSec / 2) / unitsPerSec : Nat), ?_⟩
  rw [← Int.natCast_mul]
  omega

theorem ppsInEdge_extra {x : Tod} {s : State} (hrun : s.isl.running = true) (hen : asyN F.ASY_CFG_PPS_IN_EN s ≠ 0)
    (hnear : ∃ f, s.isl.ppsIn = some f ∧ apart 8 f (islandStamp 4 s.dev.elapsed x) = false) :
    exec (.ppsInEdge x) s = .next (modIsl (fun i => { i with ppsExtra := i.ppsExtra + 1 }) s) := by
  obtain ⟨f, hf, hap⟩ := hnear
  have hen' : (asyN F.ASY_CFG_PPS_IN_EN s == 0) = false := beq_false_of_ne hen
  simp only [exec, execPpsInEdge, hrun, hen', any_not_of_some (p := fun f => apart 8 f (islandStamp 4 s.dev.elapsed x)) hf hap, Bool.not_true, Bool.or_self, Bool.false_eq_true, if_false, if_true]

theorem ppsInEdge_stamps {x : Tod} {s : State} (hrun : s.isl.running = true) (hen : asyN F.ASY_CFG_PPS_IN_EN s ≠ 0)
    (hfar : ∀ f, s.isl.ppsIn = some f → apart 8 f (islandStamp 4 s.dev.elapsed x) = true) {u : Tod} (hu : u = islandStamp 4 s.dev.elapsed x) :
    exec (.ppsInEdge x) s = .next (islandLog 0 [toField 32 (secondOffset u * 1000 / 65536), todPack u % 2 ^ 32, todPack u / 2 ^ 32 % 2 ^ 32,
      todPack u / 2 ^ 64] (modIsl (fun i => { i with ppsIn := some u, ppsOffset := secondOffset u * 1000 / 65536 }) s)) := by
  have hen' : (asyN F.ASY_CFG_PPS_IN_EN s == 0) = false := beq_false_of_ne hen
  subst hu
  simp only [exec, execPpsInEdge, hrun, hen', any_not_of_all hfar, Bool.not_true, Bool.or_self, Bool.false_eq_true, if_false]
  rfl

theorem pushIslandLog_newest (e : List Byte) (l : List (List Byte)) : (pushIslandLog e l).getLast? = some e := by
  unfold pushIslandLog
  split
  · rw [List.getLast?_append]
    rfl
  · rw [List.getLast?_append]
    rfl

/-! ### Signatures (R545, R547) -/

theorem sendEvidence_isl (kind : Nat) (b : List Byte) (s : State) : (sendEvidence kind b s).isl = s.isl := by
  unfold sendEvidence
  split
  · exact proj_foldl (f := State.isl) _ s fun _ _ => rfl
  · rfl

theorem pushIsland_isl (e : IslandEntry) (s : State) :
    (pushIsland e s).isl = { s.isl with ring := (e :: s.isl.ring).take 65536, written := s.isl.written + 1 } := by
  unfold pushIsland
  extract_lets lost t
  split
  · rw [raise_isl]
    rfl
  · rfl

/-- A signature starts its seam's count again, and is counted. -/
theorem signSeam_isl (n flags : Nat) (start : Bool) (s : State) : ∃ r w, (signSeam n flags start s).isl =
    { s.isl with seams := modAt s.isl.seams n fun y => { y with count := 0 }, signatures := wrapInc 32 s.isl.signatures, ring := r, written := w } := by
  unfold signSeam
  extract_lets x c
  split
  extract_lets head signed
  rw [sendEvidence_isl, pushIsland_isl]
  exact ⟨_, _, rfl⟩

theorem signSeam_counts {n : Nat} {s : State} (hn : n < s.isl.seams.length) (flags : Nat) (start : Bool) :
    (islSeam n (signSeam n flags start s)).count = 0 ∧ (islSeam n (signSeam n flags start s)).chain = (islSeam n s).chain ∧
      (signSeam n flags start s).isl.signatures = wrapInc 32 s.isl.signatures := by
  obtain ⟨r, w, h⟩ := signSeam_isl n flags start s
  have hseam : islSeam n (signSeam n flags start s) = { islSeam n s with count := 0 } := by
    unfold islSeam
    rw [h]
    exact getD_modAt {} _ _ _ hn
  rw [hseam, h]
  exact ⟨rfl, rfl, rfl⟩

/-- Whether a seam's unsigned records have reached the count of a signature. -/
def signDue (n : Nat) (s : State) : Bool := decide (asyN F.ASY_CFG_SIGN_EVERY s ≤ (islSeam n s).count ∧ 0 < (islSeam n s).count)

theorem islandSignature_none {s : State} (h : (portSeams s).find? (fun n => signDue n s) = none) : exec .islandSignature s = .next s := by
  simp only [signDue] at h
  simp only [exec, execIslandSignature, h]

theorem islandSignature_signs {n : Nat} {s : State} (h : (portSeams s).find? (fun n => signDue n s) = some n) :
    exec .islandSignature s = .next (signSeam n 0 false
      (if asyN F.ASY_CFG_SIGN_EVERY s < (islSeam n s).count then raiseOnce 0 0x0F06 n [] s else endRun 0x0F06 n s)) := by
  simp only [signDue] at h
  simp only [exec, execIslandSignature, h]

/-- Settles O55: an edge is what `takeEdge` makes of it, and a signature what `signSeam` leaves. -/
theorem islandEvents : Obligations.IslandEvents := by
  unfold Obligations.IslandEvents
  refine ⟨?stopped, ?strobe, ?pps, pushIslandLog_newest, fun _ _ h => ppsInEdge_stopped (Or.inr h) _, ?out, ?none, ?signs⟩
  case stopped =>
    intro n b x s hoff
    exact ⟨strobeEdge_stopped hoff n b x, ppsInEdge_stopped (Or.inl hoff) x, by simp [exec, execPpsOutSecond, hoff]⟩
  case strobe =>
    intro n b x t s hrun ht
    subst ht
    refine ⟨fun ha hnone hfar => ?_, fun ha h => ?_, fun ha hnone => ?_, fun a c d ha hopen => ⟨fun hfar => ?_, fun hnear => ?_⟩⟩
    all_goals refine strobeEdge_takes hrun ?_
    all_goals rw [ha]
    · exact takeEdge_opens hnone hfar
    · exact takeEdge_extra h
    · exact takeEdge_unopened hnone
    · exact takeEdge_ends hopen hfar
    · exact takeEdge_short hopen hnear
  case pps =>
    intro x u s hrun hen hu
    refine ⟨fun ⟨f, hf, hnear⟩ => ppsInEdge_extra hrun hen ⟨f, hf, hu ▸ hnear⟩, fun hfar => ?_⟩
    obtain ⟨hlow, hhigh, hdvd⟩ := secondOffset_bounds u
    exact ⟨_, ppsInEdge_stamps hrun hen (hu ▸ hfar) hu, rfl, rfl, secondOffset u, hlow, hhigh, rfl, hdvd⟩
  case out =>
    intro s hrun hen
    exact ⟨fun hoff => by simp [exec, execPpsOutSecond, hrun, hen, hoff], fun hoff => by simp [exec, execPpsOutSecond, hrun, hoff]⟩
  case none =>
    intro s hfew
    refine islandSignature_none (List.find?_eq_none.mpr fun n hn => ?_)
    have := hfew n hn
    simp only [signDue, decide_eq_true_eq]
    omega
  case signs =>
    intro n s hfind hn
    have hisl : (if asyN F.ASY_CFG_SIGN_EVERY s < (islSeam n s).count then raiseOnce 0 0x0F06 n [] s else endRun 0x0F06 n s).isl = s.isl := by
      split
      · exact raiseOnce_isl ..
      · rfl
    obtain ⟨hcount, hchain, hsigs⟩ := signSeam_counts (hisl ▸ hn) 0 false
    refine ⟨_, islandSignature_signs hfind, hcount, ?_, ?_⟩
    · rw [hchain, islSeam, hisl]
      rfl
    · rw [hsigs, hisl]


/-! ### The audio ports (R609 to R617) -/

theorem audOf_modAud {p : Nat} {s : State} (hp : p < s.out.audio.length) (f : Audio → Audio) : audOf p (modAud p f s) = f (audOf p s) :=
  getD_modAt ({} : Audio) f _ _ hp

/-- Two changes of a port are one. -/
theorem modAud_modAud (p : Nat) (f g : Audio → Audio) (s : State) : modAud p g (modAud p f s) = modAud p (fun x => g (f x)) s := by
  simp only [modAud, modOuts, modAt, List.modify_modify_eq]
  rfl

theorem raise_modAud_log (sev code inst : Nat) (ds : List Nat) (p : Nat) (f : Audio → Audio) (s : State) :
    (raise sev code inst ds (modAud p f s)).log = (raise sev code inst ds s).log :=
  raise_modOuts_log ..

theorem audOf_raise (p sev code inst : Nat) (ds : List Nat) (s : State) : audOf p (raise sev code inst ds s) = audOf p s := by
  unfold audOf
  rw [raise_out]

theorem audio_notInUse {p : Nat} {s : State} (hoff : audOn p s = false) (l : List Int) (x : Tod) :
    exec (.audioBlockTake p) s = .next s ∧ exec (.audioBlockPresent p) s = .next s ∧ exec (.audioInputBlock p l x) s = .next s ∧
      exec (.audioStopComplete p) s = .next s ∧ exec (.slaveClockFault p) s = .next s ∧ exec (.slaveClockReturn p) s = .next s := by
  simp [exec, execAudioBlockTake, execAudioBlockPresent, execAudioInputBlock, execAudioStopComplete, execSlaveClockFault,
    execSlaveClockReturn, slaveOn, hoff]

/-! #### Block takes (R612, R614) -/

/-- An output of a slave port that takes block `b`: its current one, which begins in 10 µs. -/
def takeBlock (p b : Nat) (s : State) (x : Audio) : Audio :=
  { x with state := 2, cur := b, chEn := cfgN F.AUD_CH_EN p s, ring := dropPlayed b x.ring, blockAt := nowNs s + 10000 }

/-- An output that plays block `b` from its start. -/
def playBlock (p b : Nat) (s : State) (x : Audio) : Audio := { takeBlock p b s x with playing := some (b, 0), underrun := false }

/-- An output that has lost block `b`. -/
def loseBlock (p b : Nat) (s : State) (x : Audio) : Audio :=
  { takeBlock p b s x with playing := none, underrun := true, lost := wrapInc 32 x.lost }

theorem blockPresent_taken {p b : Nat} {s : State} (hp : p < s.out.audio.length) (hring : cfgB F.AUD_SRC p s = false) :
    blockPresent p b (modAud p (takeBlock p b s) s) = (audOf p s).ring.any fun x => x.num == b := by
  have hsrc : cfgB F.AUD_SRC p (modAud p (takeBlock p b s) s) = false := hring
  unfold blockPresent
  rw [hsrc, audOf_modAud hp]
  simp only [Bool.false_eq_true, if_false, takeBlock, dropPlayed, List.any_filter]
  congr 1
  funext x
  by_cases hx : x.num = b <;> simp [hx]

section
variable {p b : Nat} {s : State} (hon : audOn p s = true) (hdir : cfgB F.AUD_DIR p s = true) (hclk : (audOf p s).noClock = false)
  (hp : p < s.out.audio.length)
include hon hdir hclk hp

/-- What a running output of a slave port does with the next block. -/
theorem blockTake_running (hslave : cfgB F.AUD_MASTER p s = false) (hring : cfgB F.AUD_SRC p s = false) (hst : (audOf p s).state = 2)
    (hb : b = (audOf p s).cur + 1) :
    exec (.audioBlockTake p) s = .next (if (audOf p s).ring.any fun x => x.num == b then modAud p (playBlock p b s) s
      else if (audOf p s).underrun then modAud p (loseBlock p b s) s
      else raise 2 (0x1210 + p) p [] (modAud p (loseBlock p b s) s)) := by
  rw [← blockPresent_taken hp hring]
  subst hb
  simp [exec, execAudioBlockTake, hon, hdir, hslave, hclk, hst, modAud_modAud]
  rfl

theorem blockTake_plays (hslave : cfgB F.AUD_MASTER p s = false) (hring : cfgB F.AUD_SRC p s = false) (hst : (audOf p s).state = 2)
    (hb : b = (audOf p s).cur + 1) :
    ∃ t, exec (.audioBlockTake p) s = .next t ∧ (audOf p t).cur = b ∧ (audOf p t).state = 2 ∧
      ((∃ k ∈ (audOf p s).ring, k.num = b) → (audOf p t).playing = some (b, 0) ∧ (audOf p t).underrun = false ∧ t.log = s.log) ∧
      ((∀ k ∈ (audOf p s).ring, k.num ≠ b) → (audOf p t).playing = none ∧ (audOf p t).lost = wrapInc 32 (audOf p s).lost ∧
        ((audOf p s).underrun = true → t.log = s.log) ∧
        ((audOf p s).underrun = false → t.log = (raise 2 (0x1210 + p) p [] s).log)) := by
  refine ⟨_, blockTake_running hon hdir hclk hp hslave hring hst hb, ?_⟩
  by_cases hany : ∃ k ∈ (audOf p s).ring, k.num = b
  · have hpres : ((audOf p s).ring.any fun x => x.num == b) = true := by simpa using hany
    rw [if_pos hpres, audOf_modAud hp]
    exact ⟨rfl, rfl, fun _ => ⟨rfl, rfl, rfl⟩, fun hno => absurd hany (by simpa using hno)⟩
  · have hpres : ¬ ((audOf p s).ring.any fun x => x.num == b) = true := by simpa using hany
    rw [if_neg hpres]
    cases hun : (audOf p s).underrun
    · rw [if_neg Bool.false_ne_true, audOf_raise, audOf_modAud hp]
      exact ⟨rfl, rfl, fun h => absurd h hany, fun _ => ⟨rfl, rfl, fun h => (Bool.false_ne_true h).elim, fun _ => raise_modAud_log ..⟩⟩
    · rw [if_pos rfl, audOf_modAud hp]
      exact ⟨rfl, rfl, fun h => absurd h hany, fun _ => ⟨rfl, rfl, fun _ => rfl, fun h => (Bool.false_ne_true h.symm).elim⟩⟩

/-- A stopping output takes the block and plays nothing of it. -/
theorem blockTake_stopping (hst : (audOf p s).state = 3) :
    ∃ t, exec (.audioBlockTake p) s = .next t ∧ (audOf p t).playing = none ∧ (audOf p t).state = 3 := by
  simp [exec, execAudioBlockTake, hon, hdir, hclk, hst, modAud_modAud, audOf_modAud hp]

end

/-! #### Blocks that become present, and input blocks (R610, R613, R616) -/

theorem blockPresent_ignored {p : Nat} {s : State} (h : (audOf p s).playing.isSome = true ∨ blockPresent p (audOf p s).cur s = false) :
    exec (.audioBlockPresent p) s = .next s := by
  rcases h with h | h <;> simp [exec, execAudioBlockPresent, h]

theorem blockPresent_plays {p j : Nat} {s : State} (hon : audOn p s = true) (hdir : cfgB F.AUD_DIR p s = true)
    (hmaster : cfgB F.AUD_MASTER p s = true) (hst : (audOf p s).state = 2) (hclk : (audOf p s).noClock = false)
    (hidle : (audOf p s).playing = none) (hpres : blockPresent p (audOf p s).cur s = true)
    (hj : j = frameFrom (audRate p s.cfg.accepted) (ceilDiv (todUnits (nowTod s)) 65536 + 10000) - 64 * (audOf p s).cur) (hlt : j < 64) :
    exec (.audioBlockPresent p) s = .next (modAud p (fun x => { x with playing := some (x.cur, j) }) s) := by
  subst hj
  simp only [exec, execAudioBlockPresent, hon, hdir, hmaster, hst, hclk, hidle, hpres, Bool.not_true, Option.isSome_none,
    bne_self_eq_false, Bool.or_self, Bool.false_eq_true, if_false, if_true, Nat.sub_zero, hlt]

/-- An input block of a running slave port that no record stream takes the state of before it is kept. -/
def tookInput (p : Nat) (s : State) (x : Audio) : Audio :=
  { x with cur := (audOf p s).cur + 1, chEn := F.AUD_CH_EN.get p s.cfg.accepted, state := max 2 x.state }

/-- The block that an input keeps. -/
def inputBlock (p : Nat) (l : List Int) (x : Tod) (s : State) : AudioBlock :=
  ⟨(audOf p s).cur, x, ((l.take 128 ++ List.replicate (128 - l.length) 0).zipIdx).map fun (v : Int × Nat) =>
    storedSample (sampleBits p s.cfg.accepted) (audOf p s).chEn (v.2 % 2) v.1⟩

/-- The ring of an input with a new block, of at most the port's buffers. -/
def ringWith (p : Nat) (k : AudioBlock) (s : State) : List AudioBlock :=
  ((audOf p s).ring ++ [k]).drop (((audOf p s).ring ++ [k]).length - cfgN F.AUD_BUFS p s)

theorem ringWith_newest {p : Nat} {k : AudioBlock} {s : State} (hroom : 0 < cfgN F.AUD_BUFS p s) :
    (ringWith p k s).length ≤ cfgN F.AUD_BUFS p s ∧ (ringWith p k s).getLast? = some k := by
  unfold ringWith
  refine ⟨by simp only [List.length_drop]; omega, ?_⟩
  rw [List.getLast?_drop, if_neg (by simp only [List.length_append, List.length_singleton]; omega)]
  exact List.getLast?_concat

/-- An input's block goes to its record stream, if it has one. -/
def recordInput (p : Nat) (k : AudioBlock) (s : State) : State :=
  match recFor 2 p s with
  | some j => boundReady (cfgN F.AUD_BUFS p s) j
      (offerUnit j { num := k.num, epoch := decodeEpoch s, flags := 0, time := k.stamp, idr := false, bytes := slotBytes k } s)
  | none => s

theorem boundReady_out (n j : Nat) (s : State) : (boundReady n j s).out = s.out := by
  unfold boundReady
  split
  · unfold missUnit
    rw [raise_out]
    rfl
  · rfl

theorem recordInput_out (p : Nat) (k : AudioBlock) (s : State) : (recordInput p k s).out = s.out := by
  unfold recordInput
  split
  · exact boundReady_out ..
  · rfl

section
variable {p : Nat} {l : List Int} {x : Tod} {s : State}

theorem inputBlock_runs (hon : audOn p s = true) (hdir : cfgB F.AUD_DIR p s = false) (hslave : cfgB F.AUD_MASTER p s = false)
    (hst : (audOf p s).state = 2) (hclk : (audOf p s).noClock = false) (hfirst : (audOf p s).first ≤ (audOf p s).cur)
    (hlast : (audOf p s).last = none) (hp : p < s.out.audio.length) :
    exec (.audioInputBlock p l x) s = .next (if cfgN F.AUD_BUFS p s ≤ audioHeld p s then
        raise 2 (0x1218 + p) p [] (modAud p (fun y => { tookInput p s y with lost := wrapInc 32 y.lost }) s)
      else recordInput p (inputBlock p l x s)
        (modAud p (fun y => { tookInput p s y with ring := ringWith p (inputBlock p l x s) s }) s)) := by
  have hmaster : F.AUD_MASTER.on p s.cfg.accepted = false := hslave
  simp only [exec, execAudioInputBlock, hon, hdir, hmaster, hst, hclk, hlast, modAud_modAud, audOf_modAud hp, Nat.not_lt.mpr hfirst,
    Bool.not_true, Bool.or_self, Bool.false_eq_true, if_false, decide_false, Nat.reduceBEq]
  rfl

end

theorem stopComplete_runs {p : Nat} {s : State} (hon : audOn p s = true) (hst : (audOf p s).state = 3) {u : State}
    (hu : u = modAud p (fun a => { a with state := 0, restart := false, last := none, playing := none, underrun := false }) s) :
    exec (.audioStopComplete p) s = .next (if (audOf p s).restart then startAudio false p u else u) := by
  subst hu
  simp [exec, execAudioStopComplete, hon, hst]

theorem inputBlock_kept {p : Nat} {l : List Int} {x : Tod} {s : State} (hp : p < s.out.audio.length) {t : State}
    (ht : t = if cfgN F.AUD_BUFS p s ≤ audioHeld p s then
        raise 2 (0x1218 + p) p [] (modAud p (fun y => { tookInput p s y with lost := wrapInc 32 y.lost }) s)
      else recordInput p (inputBlock p l x s)
        (modAud p (fun y => { tookInput p s y with ring := ringWith p (inputBlock p l x s) s }) s)) :
    (audOf p t).cur = (audOf p s).cur + 1 ∧
      (cfgN F.AUD_BUFS p s ≤ audioHeld p s → (audOf p t).lost = wrapInc 32 (audOf p s).lost ∧
        (audOf p t).ring = (audOf p s).ring ∧ t.log = (raise 2 (0x1218 + p) p [] s).log) ∧
      (audioHeld p s < cfgN F.AUD_BUFS p s → (audOf p t).ring.length ≤ cfgN F.AUD_BUFS p s ∧
        (recFor 2 p s = none → t.log = s.log) ∧
        ∃ b, (audOf p t).ring.getLast? = some b ∧ b.num = (audOf p s).cur ∧ b.stamp = x) := by
  by_cases hfull : cfgN F.AUD_BUFS p s ≤ audioHeld p s
  · rw [if_pos hfull] at ht
    subst ht
    rw [audOf_raise, audOf_modAud hp]
    exact ⟨rfl, fun _ => ⟨rfl, rfl, raise_modAud_log ..⟩, fun h => absurd hfull (by omega)⟩
  · rw [if_neg hfull] at ht
    have haud : audOf p t = { tookInput p s (audOf p s) with ring := ringWith p (inputBlock p l x s) s } := by
      rw [ht, audOf, recordInput_out]
      exact audOf_modAud hp _
    obtain ⟨hlen, hnew⟩ := ringWith_newest (k := inputBlock p l x s) (s := s) (by omega : 0 < cfgN F.AUD_BUFS p s)
    rw [haud]
    refine ⟨rfl, fun h => absurd h hfull, fun _ => ⟨hlen, fun hnone => ?_, _, hnew, rfl, rfl⟩⟩
    have hnone' : recFor 2 p (modAud p (fun y => { tookInput p s y with ring := ringWith p (inputBlock p l x s) s }) s) = none := hnone
    rw [ht, recordInput, hnone']
    rfl

/-- Settles O58: each event of a port as one change of that port. -/
theorem audioPorts : Obligations.AudioPorts := by
  unfold Obligations.AudioPorts
  refine ⟨fun p l x s hoff => audio_notInUse hoff l x, ?takes, fun p s hon hdir hclk hp => blockTake_stopping hon hdir hclk hp,
    fun p s => blockPresent_ignored, fun p j s => blockPresent_plays, ?input, ?stop, ?notStopping, ?slave⟩
  case takes => exact fun p b s hon hdir hslave hclk hp hring hst hb => blockTake_plays hon hdir hclk hp hslave hring hst hb
  case input =>
    intro p l x s hon hdir hslave hst hclk hfirst hlast hp
    exact ⟨_, inputBlock_runs hon hdir hslave hst hclk hfirst hlast hp, inputBlock_kept hp rfl⟩
  case stop =>
    intro p s hon hst
    exact ⟨fun hno => (stopComplete_runs hon hst rfl).trans (by rw [hno]; rfl),
      fun hyes => (stopComplete_runs hon hst rfl).trans (by rw [hyes]; rfl)⟩
  case notStopping =>
    intro p s hst
    simp [exec, execAudioStopComplete, hst]
  case slave =>
    intro p s hslave
    exact ⟨fun hclk hst => by simp [exec, execSlaveClockFault, hslave, hclk, hst],
      fun hclk hst => by simp [exec, execSlaveClockReturn, hslave, hclk, hst],
      fun hclk hst => by simp [exec, execSlaveClockReturn, hslave, hclk, hst]⟩

end Sys2Proof.Proofs

/-! PROOFS. The DRAM controller: its address map, requests and completions, refresh, scrubbing and delays (R628 to R642). -/

namespace Sys2Proof.Proofs
open Sys2Proof Sys2Proof.Machine Sys2Proof.Laws

/-! ### The address map (R628) -/

/-- The place of a burst's chunk among the eight of its group, which the address bits above it scatter. -/
def chunkOf (c k : Nat) : Nat := c ^^^ k / 16 / 64 % 8 ^^^ k / 16 / 512 % 8

theorem chunkOf_lt {c : Nat} (hc : c < 8) (k : Nat) : chunkOf c k < 8 :=
  Nat.xor_lt_two_pow (n := 3) (Nat.xor_lt_two_pow hc (Nat.mod_lt _ (by decide))) (Nat.mod_lt _ (by decide))

theorem burstAt_eq (c k : Nat) : burstAt c k = (8 * (k / 16) + chunkOf c k) * 1024 + 64 * (k % 16) := rfl

theorem dramChan_burstAt {c : Nat} (hc : c < 8) (k : Nat) : dramChan (burstAt c k) = c := by
  have hx := chunkOf_lt hc k
  have h0 : bits (burstAt c k) 12 10 = chunkOf c k := by rw [burstAt_eq, bits]; omega
  have h1 : bits (burstAt c k) 21 19 = k / 16 / 64 % 8 := by rw [burstAt_eq, bits]; omega
  have h2 : bits (burstAt c k) 24 22 = k / 16 / 512 % 8 := by rw [burstAt_eq, bits]; omega
  rw [dramChan, h0, h1, h2, chunkOf, Nat.xor_right_comm _ _ (k / 16 / 64 % 8), Nat.xor_xor_cancel_right, Nat.xor_xor_cancel_right]

theorem burstAt_aligned (c k : Nat) : burstAt c k % 64 = 0 := by
  rw [burstAt_eq]
  omega

theorem burstAt_injective {c d k j : Nat} (hc : c < 8) (hd : d < 8) (h : burstAt c k = burstAt d j) : c = d ∧ k = j := by
  have hcd : c = d := by rw [← dramChan_burstAt hc k, h, dramChan_burstAt hd j]
  have hx := chunkOf_lt hc k
  have hy := chunkOf_lt hd j
  rw [burstAt_eq, burstAt_eq] at h
  exact ⟨hcd, by omega⟩

/-! ### What a change of a channel leaves -/

/-- The state without the channels of the DRAM. -/
def offChans (s : State) : State := { s with dram := { s.dram with chans := [] } }

theorem mem_of_offChans {s t : State} (h : offChans t = offChans s) : t.dram.mem = s.dram.mem :=
  (congrArg (fun u => u.dram.mem) h : (offChans t).dram.mem = (offChans s).dram.mem)

theorem poison_of_offChans {s t : State} (h : offChans t = offChans s) : t.dram.poison = s.dram.poison :=
  (congrArg (fun u => u.dram.poison) h : (offChans t).dram.poison = (offChans s).dram.poison)

/-- What a burst stores does not depend on the channels. -/
theorem storedBurst_of_offChans {s t : State} (h : offChans t = offChans s) (a : Nat) : storedBurst a t = storedBurst a s :=
  (congrArg (storedBurst a) h : storedBurst a (offChans t) = storedBurst a (offChans s))

theorem dramOf_modChan18 {c : Nat} {s : State} (hc : c < s.dram.chans.length) (f : DramChan → DramChan) :
    dramOf c (modChan18 c f s) = f (dramOf c s) :=
  getD_modAt ({} : DramChan) f _ _ hc

theorem dramOf_modChan18_proj {α : Type} {g : DramChan → α} {f : DramChan → DramChan} (h : ∀ x, g (f x) = g x) (c d : Nat) (s : State) :
    g (dramOf c (modChan18 d f s)) = g (dramOf c s) :=
  getD_modAt_proj h _ _ _ _

theorem modChan18_offChans (c : Nat) (f : DramChan → DramChan) (s : State) : offChans (modChan18 c f s) = offChans s := rfl

theorem modChan18_length (c : Nat) (f : DramChan → DramChan) (s : State) : (modChan18 c f s).dram.chans.length = s.dram.chans.length :=
  modAt_length ..

/-- The requests of a channel: those queued and those stalled. -/
def requestsOf (x : DramChan) : List DramReq × List DramReq := (x.queue, x.stalled)

theorem refreshNeighbours_requests (c d : Nat) (s : State) :
    requestsOf (dramOf d (refreshNeighbours c s)) = requestsOf (dramOf d s) :=
  dramOf_modChan18_proj (g := requestsOf)
    (by exact fun x => List.foldlRecOn (motive := fun y => requestsOf y = requestsOf x) x.due _ rfl fun _ h _ _ => h) d c s

theorem openRow_requests (c b row d : Nat) (s : State) : requestsOf (dramOf d (openRow c b row s)) = requestsOf (dramOf d s) := by
  unfold openRow
  split
  · rfl
  · extract_lets u thresh
    refine (dramOf_modChan18_proj (g := requestsOf) (by exact fun _ => rfl) d c u).trans ?_
    simp only [u]
    split
    · exact refreshNeighbours_requests ..
    · rfl

theorem openRow_offChans (c b row : Nat) (s : State) : offChans (openRow c b row s) = offChans s := by
  unfold openRow
  split
  · rfl
  · extract_lets u thresh
    have hu : offChans u = offChans s := by
      simp only [u]
      split <;> rfl
    exact hu

theorem openRow_length (c b row : Nat) (s : State) : (openRow c b row s).dram.chans.length = s.dram.chans.length := by
  unfold openRow
  split
  · rfl
  · extract_lets u thresh
    refine (modChan18_length ..).trans ?_
    simp only [u]
    split
    · exact modChan18_length ..
    · rfl

/-! ### Requests (R629, R635) -/

theorem dramRequest_faults {a : Nat} {s : State} (h : dramUsable s.cfg.accepted ≤ a) (c : Nat) (k : DramClient) (d : Option (List Byte)) :
    exec (.dramRequest c k a d) s = .fault (.dramAddress a) :=
  if_pos h

/-- The request that a client makes of a channel. -/
def newRequest (c : Nat) (k : DramClient) (a : Nat) (d : Option (List Byte)) (s : State) : DramReq :=
  { id := (dramOf c s).nextId, client := k, addr := a, data := d.map fun l => l.take (64 - a % 64), since := s.dev.elapsed }

/-- A channel that has taken a request: into its queue while there is room, else among the stalled. -/
def tookRequest (r : DramReq) (now : Nat) (x : DramChan) : DramChan :=
  if x.stalled.isEmpty && dramRoom r x then enterQueue r now { x with nextId := x.nextId + 1 }
  else { x with nextId := x.nextId + 1, stalled := x.stalled ++ [r] }

theorem dramRequest_idle {c a : Nat} {s : State} (hlow : a < dramUsable s.cfg.accepted) (hst : (dramOf c s).state ≠ 1)
    (k : DramClient) (d : Option (List Byte)) : exec (.dramRequest c k a d) s = .next s := by
  simp [exec, execDramRequest, Nat.not_le.mpr hlow, hst]

theorem dramRequest_enters {c a : Nat} {s : State} (hlow : a < dramUsable s.cfg.accepted) (hst : (dramOf c s).state = 1)
    (hchan : dramChan a = c) (k : DramClient) (d : Option (List Byte)) :
    exec (.dramRequest c k a d) s = .next (modChan18 c (tookRequest (newRequest c k a d s) s.dev.elapsed) s) := by
  have hl : ∀ f : DramChan → DramChan, f (dramOf c s) = tookRequest (newRequest c k a d s) s.dev.elapsed (dramOf c s) →
      modChan18 c f s = modChan18 c (tookRequest (newRequest c k a d s) s.dev.elapsed) s := fun f hf => by
    simp only [modChan18, modDram, modAt_congr ({} : DramChan) (l := s.dram.chans) (n := c) hf]
  simp only [exec, execDramRequest, Nat.not_le.mpr hlow, hst, hchan, bne_self_eq_false, Bool.or_self, Bool.false_eq_true, if_false]
  exact congrArg _ (hl _ rfl)

/-! ### Completions (R632, R633, R635, R636) -/

theorem leaveQueue_requests {c : Nat} {r : DramReq} {s : State} (hc : c < s.dram.chans.length) :
    requestsOf (dramOf c (leaveQueue c r s)) =
      ((dramOf c s).queue.filter fun y => y.id != r.id, (dramOf c s).stalled) := by
  unfold leaveQueue
  rw [dramOf_modChan18 hc]
  rfl

/-- The oldest stalled request enters the queue, or the channel stays as it was. -/
theorem admitStalled_queue {c : Nat} {s : State} (hc : c < s.dram.chans.length) {x : DramReq}
    (hx : x ∈ (dramOf c (admitStalled c s)).queue) :
    x ∈ (dramOf c s).queue ∨ ∃ y ∈ (dramOf c s).stalled, y.id = x.id := by
  unfold admitStalled at hx
  rw [dramOf_modChan18 hc] at hx
  split at hx
  next y rest hst =>
    split at hx
    · simp only [enterQueue, List.mem_append, List.mem_singleton] at hx
      rcases hx with hx | rfl
      · exact Or.inl hx
      · exact Or.inr ⟨y, hst ▸ List.mem_cons_self, rfl⟩
    · exact Or.inl hx
  next => exact Or.inl hx

theorem admitStalled_last (c : Nat) (s : State) : (dramOf c (admitStalled c s)).last = (dramOf c s).last := by
  refine dramOf_modChan18_proj (g := DramChan.last) (fun x => ?_) c c s
  split
  · split <;> rfl
  · rfl

theorem burstVerdict_clean {a : Nat} {d : Dram} (h : a ∉ d.poison) : burstVerdict a [] d = 0 := by
  simp [burstVerdict, wrongBits, codeword, h]

theorem burstData_clean (a : Nat) (l : List Byte) : burstData a [] l = l := by
  simp [burstData, wrongBits]

theorem readChecked_clean {a : Nat} {s : State} (h : a ∉ s.dram.poison) (c : Nat) : readChecked c a [] s = s := by
  simp [readChecked, burstVerdict_clean h]

/-- The state of a request that has left the queue with its row open. -/
def served (c : Nat) (r : DramReq) (s : State) : State := leaveQueue c r (openRow c (dramBank r.addr) (dramRow r.addr) s)

theorem served_offChans (c : Nat) (r : DramReq) (s : State) : offChans (served c r s) = offChans s :=
  (modChan18_offChans ..).trans (openRow_offChans ..)

theorem served_length (c : Nat) (r : DramReq) (s : State) : (served c r s).dram.chans.length = s.dram.chans.length :=
  (modChan18_length ..).trans (openRow_length ..)

theorem served_requests {c : Nat} {s : State} (hc : c < s.dram.chans.length) (r : DramReq) :
    requestsOf (dramOf c (served c r s)) = ((dramOf c s).queue.filter fun y => y.id != r.id, (dramOf c s).stalled) := by
  obtain ⟨hq, hs⟩ := Prod.ext_iff.mp (openRow_requests c (dramBank r.addr) (dramRow r.addr) c s)
  simp only [requestsOf] at hq hs
  unfold served
  rw [leaveQueue_requests (by rw [openRow_length]; exact hc), hq, hs]

theorem requestComplete_ends {c : Nat} {r : DramReq} {s : State} (hnext : nextRequest c s = some r) (hst : (dramOf c s).state = 1)
    (errs : List Nat) : exec (.dramRequestComplete c r.id errs) s = .next (endRequest c r errs s) := by
  simp [exec, execDramRequestComplete, hnext, hst]

/-- The end of a read whose burst shows no wrong bit. -/
def readServed (c : Nat) (r : DramReq) (s : State) : State :=
  modChan18 c (fun x => { x with last := some (r.id, storedBurst (burstOf r.addr) s, false) })
    (useCheck c (burstOf r.addr) false (served c r s))

theorem endRequest_read {c : Nat} {r : DramReq} {s : State} (hread : r.data = none) (hclean : burstOf r.addr ∉ s.dram.poison) :
    endRequest c r [] s = admitStalled c (readServed c r s) := by
  have hserved : burstOf r.addr ∉ (served c r s).dram.poison := by rwa [poison_of_offChans (served_offChans c r s)]
  have hchecked : burstOf r.addr ∉ (useCheck c (burstOf r.addr) false (served c r s)).dram.poison := hserved
  simp only [endRequest, hread, ← served.eq_def, finishRead, burstVerdict_clean hserved, burstData_clean, readChecked_clean hchecked,
    storedBurst_of_offChans (served_offChans c r s)]
  rfl

theorem readServed_offChans (c : Nat) (r : DramReq) (s : State) : offChans (readServed c r s) = offChans s :=
  (modChan18_offChans ..).trans ((modChan18_offChans ..).trans (served_offChans c r s))

theorem readServed_length (c : Nat) (r : DramReq) (s : State) : (readServed c r s).dram.chans.length = s.dram.chans.length :=
  (modChan18_length ..).trans ((modChan18_length ..).trans (served_length ..))

theorem readServed_requests {c : Nat} {s : State} (hc : c < s.dram.chans.length) (r : DramReq) :
    requestsOf (dramOf c (readServed c r s)) = ((dramOf c s).queue.filter fun y => y.id != r.id, (dramOf c s).stalled) :=
  (dramOf_modChan18_proj (g := requestsOf) (by exact fun _ => rfl) c c _).trans
    ((dramOf_modChan18_proj (g := requestsOf) (by exact fun _ => rfl) c c _).trans (served_requests hc r))

theorem requestComplete_reads {c : Nat} {r : DramReq} {s : State} (hnext : nextRequest c s = some r) (hst : (dramOf c s).state = 1)
    (hc : c < s.dram.chans.length) (hread : r.data = none) (hclean : burstOf r.addr ∉ s.dram.poison) :
    ∃ t, exec (.dramRequestComplete c r.id []) s = .next t ∧
      (∀ x ∈ (dramOf c t).queue, x.id = r.id → ∃ y ∈ (dramOf c s).stalled, y.id = r.id) ∧
      (dramOf c t).last = some (r.id, storedBurst (burstOf r.addr) s, false) ∧ t.dram.mem = s.dram.mem := by
  refine ⟨_, requestComplete_ends hnext hst [], ?_⟩
  rw [endRequest_read hread hclean]
  obtain ⟨hq, hstalled⟩ := Prod.ext_iff.mp (readServed_requests hc r)
  simp only [requestsOf] at hq hstalled
  have hlen : c < (readServed c r s).dram.chans.length := by rwa [readServed_length]
  refine ⟨fun x hx hid => ?_, ?_, mem_of_offChans ((modChan18_offChans ..).trans (readServed_offChans c r s))⟩
  · rcases admitStalled_queue hlen hx with hx | ⟨y, hy, hyid⟩
    · rw [hq, List.mem_filter] at hx
      exact absurd hid (by simpa using hx.2)
    · exact ⟨y, hstalled ▸ hy, hyid.trans hid⟩
  · rw [admitStalled_last, readServed, dramOf_modChan18]
    rw [useCheck, modChan18_length, served_length]
    exact hc

theorem requestComplete_writes {c : Nat} {r : DramReq} {s : State} (hnext : nextRequest c s = some r) (hst : (dramOf c s).state = 1)
    {l : List Byte} (hwrite : r.data = some l) (hlen : l.length = 64) (hal : r.addr % 64 = 0) :
    ∃ t, exec (.dramRequestComplete c r.id []) s = .next t ∧ readBurst r.addr t.dram.mem = l ∧ r.addr ∉ t.dram.poison ∧
      ∀ a, a < r.addr ∨ r.addr + 64 ≤ a → readDram a t.dram.mem = readDram a s.dram.mem := by
  have hburst : burstOf r.addr = r.addr := by unfold burstOf; omega
  have hmem : (endRequest c r [] s).dram.mem = putDrams r.addr l s.dram.mem := by
    simp only [endRequest, hwrite, finishWrite, hlen, if_true, hburst]
    exact congrArg _ (mem_of_offChans (served_offChans c r s))
  have hpoison : (endRequest c r [] s).dram.poison = s.dram.poison.filter fun x => x != r.addr := by
    simp only [endRequest, hwrite, finishWrite, hlen, if_true, hburst]
    exact congrArg (List.filter _) (poison_of_offChans (served_offChans c r s))
  refine ⟨_, requestComplete_ends hnext hst [], ?_, by rw [hpoison]; simp, fun a ha => ?_⟩
  · refine List.ext_getElem (by simp [readBurst, hlen]) fun i hi _ => ?_
    have hi : i < 64 := by simpa [readBurst] using hi
    simp [readBurst, hmem, readDram_putDrams, hlen, hi]
  · rw [hmem, readDram_putDrams, if_neg (by omega)]

theorem requestComplete_idle {c : Nat} {s : State} (hnone : nextRequest c s = none) (i : Nat) (e : List Nat) :
    exec (.dramRequestComplete c i e) s = .next s := by
  simp only [exec, execDramRequestComplete, hnone]

/-! ### MR4, refresh, scrubbing and delays (R634, R638, R639, R642) -/

theorem channel_idle {c : Nat} {s : State} (hst : (dramOf c s).state ≠ 1) (v : Nat) (e : List Nat) :
    exec (.mr4Poll c v) s = .next s ∧ exec (.refreshDue c) s = .next s ∧ exec (.activateThreshold c) s = .next s ∧
      exec (.scrubStep c e) s = .next s ∧ exec (.delayUpdate c) s = .next s := by
  simp [exec, execMr4Poll, execRefreshDue, execActivateThreshold, execScrubStep, execDelayUpdate, hst]

theorem refreshDue_waits {c : Nat} {s : State} (hst : (dramOf c s).state = 1) (hfew : (dramOf c s).postponed < 8)
    (haged : ∃ r ∈ (dramOf c s).queue, cfgN F.DRAM_CFG_AGE_NS 0 s ≤ waitNs r s) :
    exec (.refreshDue c) s = .next (modChan18 c (fun y => { y with postponed := y.postponed + 1 }) s) := by
  have hany : ((dramOf c s).queue.any fun r => decide (cfgN F.DRAM_CFG_AGE_NS 0 s ≤ waitNs r s)) = true := by simpa using haged
  simp only [exec, execRefreshDue, hst, hany, hfew, bne_self_eq_false, Bool.false_eq_true, if_false, and_self, if_true]

theorem refreshDue_issues {c : Nat} {s : State} (hst : (dramOf c s).state = 1) (hc : c < s.dram.chans.length)
    (hmany : 8 ≤ (dramOf c s).postponed) : ∃ t, exec (.refreshDue c) s = .next t ∧ (dramOf c t).postponed = 0 ∧
      (dramOf c t).refreshes = (dramOf c s).refreshes + (dramOf c s).postponed + 1 := by
  simp only [exec, execRefreshDue, hst, Nat.not_lt.mpr hmany, bne_self_eq_false, Bool.false_eq_true, if_false, false_and]
  exact ⟨_, rfl, by rw [dramOf_modChan18 hc], by rw [dramOf_modChan18 hc]; rfl⟩

theorem scrubBurst_clean {a : Nat} {s : State} (h : a ∉ s.dram.poison) (c : Nat) : scrubBurst c a [] s = s := by
  simp [scrubBurst, readChecked_clean h, burstVerdict_clean h]

theorem scrubCheck_clean (c chunk : Nat) (s : State) : scrubCheck c chunk [] s = s :=
  List.foldlRecOn (motive := (· = s)) _ _ rfl fun _ h _ _ => h

theorem scrubStep_clean {c a : Nat} {s : State} (hst : (dramOf c s).state = 1) (hon : cfgN F.DRAM_CFG_SCRUB_H 0 s ≠ 0)
    (ha : a = burstAt c (dramOf c s).scrub) (hclean : a < dramUsable s.cfg.accepted → a ∉ s.dram.poison) :
    exec (.scrubStep c []) s = .next (modChan18 c (fun y => { y with scrub := (y.scrub + 1) % chanBursts s.cfg.accepted }) s) := by
  subst ha
  simp only [exec, execScrubStep, hst, hon, scrubCheck_clean, bne_self_eq_false, decide_false, Bool.or_self, Bool.false_eq_true, if_false]
  split
  · rfl
  next hlow => exact congrArg _ (scrubBurst_clean (s := modChan18 c _ s) (hclean (Nat.not_le.mp hlow)) c)

/-- A delay that moves one step towards its goal (R642). -/
def stepDelay (d g : Int) : Int := if d < g then d + 1 else if g < d then d - 1 else d

theorem stepDelay_bounds (d g : Int) : stepDelay d g ≤ d + 1 ∧ d ≤ stepDelay d g + 1 ∧ (d < g → d ≤ stepDelay d g) ∧
    (g < d → stepDelay d g ≤ d) := by
  unfold stepDelay
  split
  · omega
  · split <;> omega

/-- A channel whose delays moved one step. -/
def steppedChan (goal : List Int) (t : Int) (y : DramChan) : DramChan :=
  { y with updates := wrapInc 32 y.updates, setTemp := t, rows := List.replicate 16 none
           delays := y.delays.zipIdx.map fun d => stepDelay d.1 (goal.getD d.2 0) }

theorem delayUpdate_steps {c : Nat} {goal : List Int} {s : State} (hst : (dramOf c s).state = 1)
    (hgoal : delayTargets c (phyTemp c s) s = some goal) (hin : outsideBy c (phyTemp c s) s ≤ 160) :
    exec (.delayUpdate c) s = .next (if (dramOf c s).delays = goal then endRun 0x1307 c s
      else modChan18 c (steppedChan goal (phyTemp c s)) (endRun 0x1307 c s)) := by
  simp only [exec, execDelayUpdate, hst, hgoal, Int.not_lt.mpr hin, bne_self_eq_false, Bool.false_eq_true, if_false]
  rfl

theorem delayUpdate_bounds {c : Nat} {goal : List Int} {s : State} (hst : (dramOf c s).state = 1)
    (hgoal : delayTargets c (phyTemp c s) s = some goal) (hin : outsideBy c (phyTemp c s) s ≤ 160) (hc : c < s.dram.chans.length) :
    ∃ t, exec (.delayUpdate c) s = .next t ∧
      ∀ (k : Nat) (d : Int), (dramOf c s).delays[k]? = some d → ∃ e, (dramOf c t).delays[k]? = some e ∧ e ≤ d + 1 ∧ d ≤ e + 1 ∧
        (d < goal.getD k 0 → d ≤ e) ∧ (goal.getD k 0 < d → e ≤ d) := by
  refine ⟨_, delayUpdate_steps hst hgoal hin, fun k d hd => ?_⟩
  split
  · exact ⟨d, hd, by omega, by omega, fun _ => le_refl d, fun _ => le_refl d⟩
  · refine ⟨stepDelay d (goal.getD k 0), ?_, stepDelay_bounds d _⟩
    rw [dramOf_modChan18 (s := endRun 0x1307 c s) hc, steppedChan, List.getElem?_map, List.getElem?_zipIdx]
    change Option.map _ (Option.map _ ((dramOf c s).delays[k]?)) = _
    rw [hd]
    simp

/-- Settles O59: requests and completions through the channel they change, the rest from its own branch. -/
theorem dramController : Obligations.DramController := by
  unfold Obligations.DramController
  refine ⟨fun c k a d s h => dramRequest_faults h c k d, ?requests, fun c k hc => ⟨dramChan_burstAt hc k, burstAt_aligned c k⟩,
    fun c k d j hc hd h => burstAt_injective hc hd h, ?completes, fun c i e s h => requestComplete_idle h i e, ?mr4,
    fun c v e s hst => channel_idle hst v e, fun c s hst hc => ⟨refreshDue_waits hst, refreshDue_issues hst hc⟩, ?activate,
    fun c a s hst hon ha hclean _ => scrubStep_clean hst hon ha hclean, fun c goal s hst hgoal hin hc => delayUpdate_bounds hst hgoal hin hc⟩
  case requests =>
    intro c k a d s hlow
    refine ⟨fun hst => dramRequest_idle hlow hst k d, fun hst hchan hc =>
      ⟨_, newRequest c k a d s, dramRequest_enters hlow hst hchan k d, rfl, rfl, rfl, rfl, fun hnone hroom => ?_, fun hfull => ?_⟩⟩
    · have hr : dramRoom (newRequest c k a d s) (dramOf c s) = true := by simpa [dramRoom, newRequest] using hroom
      rw [dramOf_modChan18 hc, tookRequest, hnone, hr]
      exact ⟨rfl, rfl⟩
    · have hr : dramRoom (newRequest c k a d s) (dramOf c s) = false := by simpa [dramRoom, newRequest] using hfull
      rw [dramOf_modChan18 hc, tookRequest, hr, Bool.and_false]
      exact ⟨rfl, rfl⟩
  case completes =>
    intro c r s hnext hst hc
    exact ⟨requestComplete_reads hnext hst hc, fun l hwrite hlen hal _ => requestComplete_writes hnext hst hwrite hlen hal⟩
  case mr4 =>
    intro c v s hst
    exact ⟨fun h => by simp [exec, execMr4Poll, hst, h], fun h => by simp [exec, execMr4Poll, hst, h]⟩
  case activate =>
    intro c s hst
    simp [exec, execActivateThreshold, hst]

end Sys2Proof.Proofs

/-! PROOFS. What every command keeps, over the whole index of commands: the queue, the counters, and what only the writers change. -/

namespace Sys2Proof.Proofs
open Sys2Proof Sys2Proof.Machine Sys2Proof.Laws

/-- The commands that can change a kept part of the state: the resets and starts, the writers of settings, keys and
calibration, and the operations on DRAM. -/
def writes : Instr → Bool
  | .reset => true
  | .resetRelease _ => true
  | .startUp _ _ => true
  | .roleStart => true
  | .portBringUp _ _ => true
  | .sensorClockTimeout _ => true
  | .arrayDatagram _ _ _ => true
  | .profileSelect _ => true
  | .restart _ => true
  | .settingsWrite _ => true
  | .todTick _ => true
  | .scheduledCommandDue => true
  | .ppsInEdge _ => true
  | .verifyCalibration _ => true
  | .islandSettings _ => true
  | .dramRequestComplete _ _ _ => true
  | .scrubStep _ _ => true
  | .tokenPart _ => true
  | .surveyItemComplete _ _ => true
  | .updateWriteComplete _ => true
  | .bootConfirmation => true
  | .ownerKeyInstall _ => true
  | .ownerKeyRevoke _ => true
  | .debugUnlock _ => true
  | .supplyOutOfLimits _ _ => true
  | .hardwareThermalTrip => true
  | .hardwareThermalTripClear => true
  | .headframeWatchdogExpiry => true
  | .errorAction _ => true
  | .vddAonLoss => true
  | .otpWriteComplete _ => true
  | _ => false

/-- A command that is no writer keeps. -/
theorem exec_kept {i : Instr} {s t : State} (hi : writes i = false) (h : exec i s = .next t) : kept t = kept s := by
  cases i with
  | reset => cases hi
  | resetRelease _ => cases hi
  | startUp _ _ => cases hi
  | roleStart => cases hi
  | portBringUp _ _ => cases hi
  | sensorClockTimeout _ => cases hi
  | frameStart p skews => exact execFrameStart_kept p skews s t h
  | lineStart p gap skews => exact execLineStart_kept p gap skews s t h
  | lineEnd p beats skews faults => exact execLineEnd_kept p beats skews faults s t h
  | frameEnd p gap => exact execFrameEnd_kept p gap s t h
  | sensorClockLoss p => exact execSensorClockLoss_kept p s t h
  | sensorClockReturn p => exact execSensorClockReturn_kept p s t h
  | sensorClockAbsentExpiry p => exact execSensorClockAbsentExpiry_kept p s t h
  | deskewUpdate p => exact execDeskewUpdate_kept p s t h
  | blankingWindowOpen p => exact execBlankingWindowOpen_kept p s t h
  | scriptEntryComplete p r => exact execScriptEntryComplete_kept p r s t h
  | controlBusTimeout p => exact execControlBusTimeout_kept p s t h
  | trigger p => exact execTrigger_kept p s t h
  | triggerPulseEnd p => exact execTriggerPulseEnd_kept p s t h
  | outputReadback ball r => exact execOutputReadback_kept ball r s t h
  | scheduleRebase seam => exact execScheduleRebase_kept seam s t h
  | unitStart => exact execUnitStart_kept s t h
  | unitEnd => exact execUnitEnd_kept s t h
  | sourceAbsentExpiry seam => exact execSourceAbsentExpiry_kept seam s t h
  | exposureDecision seam => exact execExposureDecision_kept seam s t h
  | whiteBalanceDecision seam => exact execWhiteBalanceDecision_kept seam s t h
  | lockBroadcast c => exact execLockBroadcast_kept c s t h
  | leaderSilentExpiry seam => exact execLeaderSilentExpiry_kept seam s t h
  | aditHoldExpiry n => exact execAditHoldExpiry_kept n s t h
  | blockDeal => exact execBlockDeal_kept s t h
  | blockDone e faults => exact execBlockDone_kept e faults s t h
  | pixelEngineUnit => exact execPixelEngineUnit_kept s t h
  | entropyEngineUnit => exact execEntropyEngineUnit_kept s t h
  | encodePictureBegin m => exact execEncodePictureBegin_kept m s t h
  | decodeTime m => exact execDecodeTime_kept m s t h
  | accessUnitTimeout m => exact execAccessUnitTimeout_kept m s t h
  | decodedPictureOutput m => exact execDecodedPictureOutput_kept m s t h
  | recordUnitComplete j => exact execRecordUnitComplete_kept j s t h
  | ssdCommandCompletion member id ok => exact execSsdCommandCompletion_kept member id ok s t h
  | ssdCommandTimeout member id => exact execSsdCommandTimeout_kept member id s t h
  | ssdAbortExpiry member id => exact execSsdAbortExpiry_kept member id s t h
  | ssdResetExpiry member => exact execSsdResetExpiry_kept member s t h
  | durabilityPoint => exact execDurabilityPoint_kept s t h
  | playbackReadComplete m ok => exact execPlaybackReadComplete_kept m ok s t h
  | commandFetch => exact execCommandFetch_kept s t h
  | rangeLockBegin arrival => exact execRangeLockBegin_kept arrival s t h
  | deleteIoSq arrival => exact execDeleteIoSq_kept arrival s t h
  | createIoSq arrival => exact execCreateIoSq_kept arrival s t h
  | getLogPage arrival => exact execGetLogPage_kept arrival s t h
  | deleteIoCq arrival => exact execDeleteIoCq_kept arrival s t h
  | createIoCq arrival => exact execCreateIoCq_kept arrival s t h
  | identify arrival => exact execIdentify_kept arrival s t h
  | abort arrival => exact execAbort_kept arrival s t h
  | setFeatures arrival => exact execSetFeatures_kept arrival s t h
  | getFeatures arrival => exact execGetFeatures_kept arrival s t h
  | asynchronousEventRequest arrival => exact execAsynchronousEventRequest_kept arrival s t h
  | deviceSelfTest arrival => exact execDeviceSelfTest_kept arrival s t h
  | selfTestStep ok => exact execSelfTestStep_kept ok s t h
  | flush arrival => exact execFlush_kept arrival s t h
  | write arrival data => exact execWrite_kept arrival data s t h
  | read arrival => exact execRead_kept arrival s t h
  | writeZeroes arrival => exact execWriteZeroes_kept arrival s t h
  | hostCqTimeout q => exact execHostCqTimeout_kept q s t h
  | controllerDisable => exact execControllerDisable_kept s t h
  | controllerShutdown => exact execControllerShutdown_kept s t h
  | pcieLinkLoss => exact execPcieLinkLoss_kept s t h
  | post v c => exact execPost_kept v c s t h
  | ack v c => exact execAck_kept v c s t h
  | registerWrite v addr value => exact execRegisterWrite_kept v addr value s t h
  | mailboxDatagram mac ip port c words => exact execMailboxDatagram_kept mac ip port c words s t h
  | arrayDatagram _ _ _ => cases hi
  | ethernetFrameReceive mac kind => exact execEthernetFrameReceive_kept mac kind s t h
  | macLinkDown mac => exact execMacLinkDown_kept mac s t h
  | replyHoldExpiry v c => exact execReplyHoldExpiry_kept v c s t h
  | tokenSequenceTimeout c path => exact execTokenSequenceTimeout_kept c path s t h
  | bulkWindowHoldExpiry => exact execBulkWindowHoldExpiry_kept s t h
  | updateSessionTimeout => exact execUpdateSessionTimeout_kept s t h
  | deviceStatus c => exact execDeviceStatus_kept c s t h
  | profileSelect _ => cases hi
  | restart _ => cases hi
  | settingsWrite _ => cases hi
  | settingsRead c => exact execSettingsRead_kept c s t h
  | admissionReport c => exact execAdmissionReport_kept c s t h
  | portStatus c => exact execPortStatus_kept c s t h
  | retrain c => exact execRetrain_kept c s t h
  | sensorWrite c => exact execSensorWrite_kept c s t h
  | seamStatus c => exact execSeamStatus_kept c s t h
  | frontEndStatus c => exact execFrontEndStatus_kept c s t h
  | statisticsFetch c => exact execStatisticsFetch_kept c s t h
  | tapStatus c => exact execTapStatus_kept c s t h
  | lutLoad c => exact execLutLoad_kept c s t h
  | aditStatus c => exact execAditStatus_kept c s t h
  | aditRead c => exact execAditRead_kept c s t h
  | loopStatus c => exact execLoopStatus_kept c s t h
  | compressorStatus c => exact execCompressorStatus_kept c s t h
  | aditCompressionStatus c => exact execAditCompressionStatus_kept c s t h
  | streamStatus c => exact execStreamStatus_kept c s t h
  | bitstreamRead c => exact execBitstreamRead_kept c s t h
  | bitstreamWrite c => exact execBitstreamWrite_kept c s t h
  | forceIdr c => exact execForceIdr_kept c s t h
  | decoderFlush c => exact execDecoderFlush_kept c s t h
  | recorderStatus c => exact execRecorderStatus_kept c s t h
  | recordStart c => exact execRecordStart_kept c s t h
  | recordStop c => exact execRecordStop_kept c s t h
  | clipQuery c => exact execClipQuery_kept c s t h
  | formatVolume c => exact execFormatVolume_kept c s t h
  | deleteClip c => exact execDeleteClip_kept c s t h
  | playbackStart c => exact execPlaybackStart_kept c s t h
  | playbackStop c => exact execPlaybackStop_kept c s t h
  | playbackStatus c => exact execPlaybackStatus_kept c s t h
  | endpointStatus c => exact execEndpointStatus_kept c s t h
  | laneStatus c => exact execLaneStatus_kept c s t h
  | scanStart c => exact execScanStart_kept c s t h
  | scanRead c => exact execScanRead_kept c s t h
  | scanStop c => exact execScanStop_kept c s t h
  | testSetUp c => exact execTestSetUp_kept c s t h
  | bitSlip c => exact execBitSlip_kept c s t h
  | checkerRead c => exact execCheckerRead_kept c s t h
  | scanPointComplete lane errors => exact execScanPointComplete_kept lane errors s t h
  | laneBringUp lane obs => exact execLaneBringUp_kept lane obs s t h
  | lanePllLock quad ab => exact execLanePllLock_kept quad ab s t h
  | lanePllLoss quad ab => exact execLanePllLoss_kept quad ab s t h
  | lanePllRelock quad ab locked => exact execLanePllRelock_kept quad ab locked s t h
  | signalDetect lane => exact execSignalDetect_kept lane s t h
  | dfeUpdate lane signs gainSign => exact execDfeUpdate_kept lane signs gainSign s t h
  | ctleUpdate lane below here above => exact execCtleUpdate_kept lane below here above s t h
  | adaptationAtLimit lane => exact execAdaptationAtLimit_kept lane s t h
  | transmitterLegFault lane legsTogether => exact execTransmitterLegFault_kept lane legsTogether s t h
  | lossOfSignal lane => exact execLossOfSignal_kept lane s t h
  | commonModeFault lane => exact execCommonModeFault_kept lane s t h
  | transmitterRetry lane => exact execTransmitterRetry_kept lane s t h
  | linkBringUp g => exact execLinkBringUp_kept g s t h
  | trainingBlock g lane field inverted metric => exact execTrainingBlock_kept g lane field inverted metric s t h
  | trainingStepTimeout g => exact execTrainingStepTimeout_kept g s t h
  | alignmentBlock g lane marker laneIdx width counter => exact execAlignmentBlock_kept g lane marker laneIdx width counter s t h
  | uncorrectableLimit g => exact execUncorrectableLimit_kept g s t h
  | elasticFifoOverflow g => exact execElasticFifoOverflow_kept g s t h
  | stuffingAllowanceExceeded g => exact execStuffingAllowanceExceeded_kept g s t h
  | cellSlot g => exact execCellSlot_kept g s t h
  | pixelCell g bytes fecOk => exact execPixelCell_kept g bytes fecOk s t h
  | creditCell g bytes fecOk => exact execCreditCell_kept g bytes fecOk s t h
  | creditCellTimer g => exact execCreditCellTimer_kept g s t h
  | creditStarvation g cls => exact execCreditStarvation_kept g cls s t h
  | capabilityCell g bytes fecOk => exact execCapabilityCell_kept g bytes fecOk s t h
  | capabilityRefuseExpiry g => exact execCapabilityRefuseExpiry_kept g s t h
  | linkRetrainCommand g => exact execLinkRetrainCommand_kept g s t h
  | step g rate => exact execStep_kept g rate s t h
  | stepAck g => exact execStepAck_kept g s t h
  | stepRefuse g => exact execStepRefuse_kept g s t h
  | rateStepExpiry g => exact execRateStepExpiry_kept g s t h
  | controlMessage g words => exact execControlMessage_kept g words s t h
  | controlAckTimeout g => exact execControlAckTimeout_kept g s t h
  | streamAnnounceTimer g => exact execStreamAnnounceTimer_kept g s t h
  | timeCellTimer g => exact execTimeCellTimer_kept g s t h
  | timeCell g words arrival => exact execTimeCell_kept g words arrival s t h
  | todTick _ => cases hi
  | ptpSync m msg => exact execPtpSync_kept m msg s t h
  | ptpAnnounce m msg => exact execPtpAnnounce_kept m msg s t h
  | ptpDelayReq m msg => exact execPtpDelayReq_kept m msg s t h
  | ptpDelayResp m msg => exact execPtpDelayResp_kept m msg s t h
  | ptpSendTimer m kind => exact execPtpSendTimer_kept m kind s t h
  | timeSourceTimeout => exact execTimeSourceTimeout_kept s t h
  | timeStatus c => exact execTimeStatus_kept c s t h
  | ptpPortStatus c => exact execPtpPortStatus_kept c s t h
  | arrayLock c => exact execArrayLock_kept c s t h
  | arrayUnlock c => exact execArrayUnlock_kept c s t h
  | schedule c => exact execSchedule_kept c s t h
  | cancel c => exact execCancel_kept c s t h
  | scheduledCommandDue => cases hi
  | strobeEdge input high stamp => exact execStrobeEdge_kept input high stamp s t h
  | ppsInEdge _ => cases hi
  | ppsOutSecond => exact execPpsOutSecond_kept s t h
  | islandSignature => exact execIslandSignature_kept s t h
  | islandStatus c => exact execIslandStatus_kept c s t h
  | recordRead c => exact execRecordRead_kept c s t h
  | islandCertificateRead c => exact execIslandCertificateRead_kept c s t h
  | verifyCalibration _ => cases hi
  | signNow c => exact execSignNow_kept c s t h
  | islandSettings _ => cases hi
  | heartbeatTimer => exact execHeartbeatTimer_kept s t h
  | heartbeat words => exact execHeartbeat_kept words s t h
  | heartbeatTimeout => exact execHeartbeatTimeout_kept s t h
  | stateCopy copy => exact execStateCopy_kept copy s t h
  | failing eb => exact execFailing_kept eb s t h
  | handover eb => exact execHandover_kept eb s t h
  | resync eb => exact execResync_kept s eb t h
  | claimVerdict c => exact execClaimVerdict_kept c s t h
  | claimRepeatTimer => exact execClaimRepeatTimer_kept s t h
  | primaryLinkInactiveExpiry => exact execPrimaryLinkInactiveExpiry_kept s t h
  | startWaitExpiry => exact execStartWaitExpiry_kept s t h
  | linkReactivated g => exact execLinkReactivated_kept g s t h
  | switchOverFallbackExpiry => exact execSwitchOverFallbackExpiry_kept s t h
  | redundancyStatus c => exact execRedundancyStatus_kept c s t h
  | plannedSwitchOver c => exact execPlannedSwitchOver_kept c s t h
  | headPrimaryStatus c => exact execHeadPrimaryStatus_kept c s t h
  | outputFrameSelect out => exact execOutputFrameSelect_kept out s t h
  | outputFrameStart out errPs => exact execOutputFrameStart_kept out errPs s t h
  | audioPacketTimer snd => exact execAudioPacketTimer_kept snd s t h
  | sdiStatus c => exact execSdiStatus_kept c s t h
  | macStatus c => exact execMacStatus_kept c s t h
  | senderStatus c => exact execSenderStatus_kept c s t h
  | teEdge k late => exact execTeEdge_kept k late s t h
  | teAbsentExpiry k => exact execTeAbsentExpiry_kept k s t h
  | panelTimer k late => exact execPanelTimer_kept k late s t h
  | blankExpiry k => exact execBlankExpiry_kept k s t h
  | viewfinderStatus c => exact execViewfinderStatus_kept c s t h
  | overlayWrite c => exact execOverlayWrite_kept c s t h
  | refresh c => exact execRefresh_kept c s t h
  | audioBlockTake p => exact execAudioBlockTake_kept p s t h
  | audioBlockPresent p => exact execAudioBlockPresent_kept p s t h
  | audioInputBlock p samples stamp => exact execAudioInputBlock_kept p samples stamp s t h
  | audioStopComplete p => exact execAudioStopComplete_kept p s t h
  | slaveClockFault p => exact execSlaveClockFault_kept p s t h
  | slaveClockReturn p => exact execSlaveClockReturn_kept p s t h
  | audioStatus c => exact execAudioStatus_kept c s t h
  | startAndStop c => exact execStartAndStop_kept c s t h
  | blockWrite c => exact execBlockWrite_kept c s t h
  | dramRequest ch client addr data => exact execDramRequest_kept ch client addr data s t h
  | dramRequestComplete _ _ _ => cases hi
  | mr4Poll ch code => exact execMr4Poll_kept ch code s t h
  | refreshDue ch => exact execRefreshDue_kept ch s t h
  | activateThreshold ch => exact execActivateThreshold_kept ch s t h
  | scrubStep _ _ => cases hi
  | delayUpdate ch => exact execDelayUpdate_kept ch s t h
  | channelStatus c => exact execChannelStatus_kept c s t h
  | mailboxStatus c => exact execMailboxStatus_kept c s t h
  | nonce c => exact execNonce_kept c s t h
  | bulkWindowClaim c => exact execBulkWindowClaim_kept c s t h
  | bulkWindowRelease c => exact execBulkWindowRelease_kept c s t h
  | tokenPart _ => cases hi
  | eventLogRead c => exact execEventLogRead_kept c s t h
  | errorQueueStatus c => exact execErrorQueueStatus_kept c s t h
  | surveyRun c => exact execSurveyRun_kept c s t h
  | surveyItemComplete _ _ => cases hi
  | restoreFactory c => exact execRestoreFactory_kept c s t h
  | surveyStatus c => exact execSurveyStatus_kept c s t h
  | updateBegin c => exact execUpdateBegin_kept c s t h
  | updateData c => exact execUpdateData_kept c s t h
  | updateCommit c => exact execUpdateCommit_kept c s t h
  | updateWriteComplete _ => cases hi
  | updateStatus c => exact execUpdateStatus_kept c s t h
  | updateAbort c => exact execUpdateAbort_kept c s t h
  | bootConfirmation => cases hi
  | attestationReport c => exact execAttestationReport_kept c s t h
  | certificateRead c => exact execCertificateRead_kept c s t h
  | ownerKeyInstall _ => cases hi
  | ownerKeyRevoke _ => cases hi
  | debugUnlock _ => cases hi
  | powerStatus c => exact execPowerStatus_kept c s t h
  | suspend c => exact execSuspend_kept c s t h
  | resume c => exact execResume_kept c s t h
  | sensorSample temps rails counts => exact execSensorSample_kept temps rails counts s t h
  | supplyOutOfLimits _ _ => cases hi
  | hardwareThermalTrip => cases hi
  | hardwareThermalTripClear => cases hi
  | coreWatchdogExpiry core => exact execCoreWatchdogExpiry_kept core s t h
  | headframeWatchdogExpiry => cases hi
  | eventLogProgram ok => exact execEventLogProgram_kept ok s t h
  | errorDetected code inst details => exact execErrorDetected_kept code inst details s t h
  | errorAction _ => cases hi
  | i2cBusStuck stillLow => exact execI2cBusStuck_kept stillLow s t h
  | pmbusPoll reading => exact execPmbusPoll_kept reading s t h
  | linkStatus c => exact execLinkStatus_kept c s t h
  | linkRetrain c => exact execLinkRetrain_kept c s t h
  | ptpFollowUp m msg => exact execPtpFollowUp_kept m msg s t h
  | pcieCompletionTimeout arrival => exact execPcieCompletionTimeout_kept arrival s t h
  | controllerEnable asqSize acqSize => exact execControllerEnable_kept asqSize acqSize s t h
  | doorbellWrite isCq qid value cmds => exact execDoorbellWrite_kept isCq qid value cmds s t h
  | pcieLinkUp port width => exact execPcieLinkUp_kept port width s t h
  | macLinkUp mac => exact execMacLinkUp_kept mac s t h
  | laneFaultEnd lane f => exact execLaneFaultEnd_kept lane f s t h
  | receiverDetectionRetry g => exact execReceiverDetectionRetry_kept g s t h
  | vddAonLoss => cases hi
  | bootNvmTimeout logWrite => exact execBootNvmTimeout_kept logWrite s t h
  | bulkWindowWrite v off data => exact execBulkWindowWrite_kept v off data s t h
  | wakeComplete recv => exact execWakeComplete_kept recv s t h
  | otpWriteComplete _ => cases hi

/-- A row of a privileged message answers a next state. -/
theorem runPriv_next (k c : Nat) (s : State) : ∃ t, runPriv k c s = .next t := by
  unfold runPriv
  split <;> exact ⟨_, rfl⟩

/-- A command answers a next state in every state, but a DRAM request beyond the usable addresses (R629). -/
theorem exec_next (i : Instr) (s : State) (hi : ∀ ch k a d, i = .dramRequest ch k a d → a < dramUsable s.cfg.accepted) :
    ∃ t, exec i s = .next t := by
  cases i with
  | dramRequest ch k a d => exact ⟨_, if_neg (Nat.not_le.mpr (hi ch k a d rfl))⟩
  | profileSelect c => exact runPriv_next 0x0102 c s
  | restart c => exact runPriv_next 0x0103 c s
  | settingsWrite c => exact runPriv_next 0x0104 c s
  | formatVolume c => exact runPriv_next 0x0904 c s
  | deleteClip c => exact runPriv_next 0x0905 c s
  | arrayLock c => exact runPriv_next 0x0E10 c s
  | arrayUnlock c => exact runPriv_next 0x0E11 c s
  | islandSettings c => exact runPriv_next 0x0F08 c s
  | plannedSwitchOver c => exact runPriv_next 0x1002 c s
  | restoreFactory c => exact runPriv_next 0x1511 c s
  | updateBegin c => exact runPriv_next 0x1520 c s
  | ownerKeyInstall c => exact runPriv_next 0x1602 c s
  | ownerKeyRevoke c => exact runPriv_next 0x1603 c s
  | debugUnlock c => exact runPriv_next 0x1604 c s
  | _ => exact ⟨_, rfl⟩

/-! ### The writers -/

/-- A command that answers one sound state is sound. -/
theorem sound_next {s u t : State} (hu : Sound s u) (h : (.next u : Res) = .next t) : Sound s t := by
  cases h
  exact hu

theorem execResetRelease_sound (straps : Nat) (s t : State) (h : execResetRelease straps s = .next t) : Sound s t := by
  cases h
  exact .ite (.refl s) (.ite (.of_eq rfl rfl rfl rfl) (beginStart_sound straps s))

theorem execHardwareThermalTripClear_sound (s t : State) (h : execHardwareThermalTripClear s = .next t) : Sound s t := by
  cases h
  have hu : Sound s (modPwr (fun p => { p with tripHeld := false }) s) := .of_kept (by simp)
  exact .ite (hu.trans (beginStart_sound _ _)) hu

theorem execHardwareThermalTrip_sound (s t : State) (h : execHardwareThermalTrip s = .next t) : Sound s t := by
  cases h
  exact .trans (resetAll_sound s) (.of_eq rfl rfl rfl rfl)

theorem execSupplyOutOfLimits_sound (rail mV : Nat) (s t : State) (h : execSupplyOutOfLimits rail mV s = .next t) :
    Sound s t :=
  sound_next (.ite (.refl s) (.ite (resetAll_sound s)
    (.ite (.ite (.of_kept (by simp)) (.refl s)) (.of_kept (by simp))))) h

/-- Every command keeps the queue and the canonical form of DRAM, and lowers no counter. -/
theorem exec_sound {i : Instr} {s t : State} (h : exec i s = .next t) : Sound s t := by
  cases hw : writes i with
  | false => exact .of_kept (exec_kept hw h)
  | true =>
    unfold writes at hw
    split at hw
    · exact sound_next (resetAll_sound s) h
    · exact execResetRelease_sound _ s t h
    · exact execStartUp_sound _ _ s t h
    · exact execRoleStart_sound s t h
    · exact execPortBringUp_sound _ _ s t h
    · exact execSensorClockTimeout_sound _ s t h
    · exact execArrayDatagram_sound _ _ _ s t h
    · exact runPriv_sound 0x0102 _ s t h
    · exact runPriv_sound 0x0103 _ s t h
    · exact runPriv_sound 0x0104 _ s t h
    · exact execTodTick_sound _ s t h
    · exact execScheduledCommandDue_sound s t h
    · exact execPpsInEdge_sound _ s t h
    · exact runRow_sound (isCode 0x0F03) _ s t h
    · exact runPriv_sound 0x0F08 _ s t h
    · exact execDramRequestComplete_sound _ _ _ s t h
    · exact execScrubStep_sound _ _ s t h
    · exact execTokenPart_sound _ s t h
    · exact execSurveyItemComplete_sound _ _ s t h
    · exact execUpdateWriteComplete_sound _ s t h
    · exact execBootConfirmation_sound s t h
    · exact runPriv_sound 0x1602 _ s t h
    · exact runPriv_sound 0x1603 _ s t h
    · exact runPriv_sound 0x1604 _ s t h
    · exact execSupplyOutOfLimits_sound _ _ s t h
    · exact execHardwareThermalTrip_sound s t h
    · exact execHardwareThermalTripClear_sound s t h
    · exact sound_next (.ite (beginStart_sound _ s) (.refl s)) h
    · exact execErrorAction_sound _ s t h
    · exact sound_next (resetAll_sound s) h
    · exact execOtpWriteComplete_sound _ s t h
    · cases hw

/-- The step runs the command at the front on the state without it, and keeps that state's queue. -/
theorem step_sound {c : Instr} {rest : List Instr} {s t : State} (hs : s.pending = c :: rest) (h : step s = .next t) :
    Sound { s with pending := rest } t :=
  exec_sound ((stepRunsFront c rest s hs).symm.trans h)

/-- Settles O3: every command keeps the queue, and but for the DRAM request beyond the usable addresses answers a state. -/
theorem queueFirstInFirstOut : Obligations.QueueFirstInFirstOut := by
  refine ⟨fun c rest s t hs h => (step_sound hs h).pending, exec_next, fun c rest s hs hc => ?_⟩
  obtain ⟨t, ht⟩ := exec_next c { s with pending := rest } hc
  exact ⟨t, (stepRunsFront c rest s hs).trans ht, (exec_sound ht).pending⟩

end Sys2Proof.Proofs

/-! PROOFS. The owner key slots: only a completed OTP write changes them, and never backwards (R730, R735). -/

namespace Sys2Proof.Proofs
open Sys2Proof Sys2Proof.Machine Sys2Proof.Laws

/-! ### What the commands that do not keep leave of the owner key slots -/

/-- The owner key slots are read off the kept part. -/
theorem kept_slots (s : State) : (kept s).otp.slots = s.otp.slots := rfl

@[simp] theorem kept_foldl_slots {α : Type} (g : State → α → State) (l : List α) (s : State)
    (h : ∀ u x, (kept (g u x)).otp.slots = (kept u).otp.slots) : (kept (l.foldl g s)).otp.slots = (kept s).otp.slots := by
  induction l generalizing s with
  | nil => rfl
  | cons a r ih => rw [List.foldl_cons, ih, h]

@[simp] theorem enterConfigError_slots (s : State) : (kept (enterConfigError s)).otp.slots = (kept s).otp.slots := rfl

@[simp] theorem resetAll_slots (s : State) : (kept (resetAll s)).otp.slots = (kept s).otp.slots := rfl

@[simp] theorem beginStart_slots (n : Nat) (s : State) : (kept (beginStart n s)).otp.slots = (kept s).otp.slots := rfl

@[simp] theorem restartDevice_slots (s : State) : (kept (restartDevice s)).otp.slots = (kept s).otp.slots := rfl

@[simp] theorem modDram_slots (f : Dram → Dram) (s : State) : (kept (modDram f s)).otp.slots = (kept s).otp.slots := rfl

@[simp] theorem modCfg_slots (f : Cfg → Cfg) (s : State) : (kept (modCfg f s)).otp.slots = (kept s).otp.slots := rfl

@[simp] theorem islandLog_slots (c : Nat) (ws : List Nat) (s : State) :
    (kept (islandLog c ws s)).otp.slots = (kept s).otp.slots := rfl

@[simp] theorem queueOtp_slots (w : OtpWrite) (s : State) : (kept (queueOtp w s)).otp.slots = (kept s).otp.slots := rfl

@[simp] theorem appendSlot_slots (r : SlotRec) (s : State) : (kept (appendSlot r s)).otp.slots = (kept s).otp.slots := rfl

@[simp] theorem sealAtStart_slots (b : Bool) (d : List Byte) (s : State) :
    (kept (sealAtStart b d s)).otp.slots = (kept s).otp.slots := rfl

@[simp] theorem setSlot_slots (k : Nat) (f : SlotRec → SlotRec) (s : State) :
    (kept (setSlot k f s)).otp.slots = (kept s).otp.slots := by
  unfold setSlot
  dsimp only
  split <;> rfl

/-! DRAM -/

@[simp] theorem readChecked_slots (c a : Nat) (errs : List Nat) (s : State) :
    (kept (readChecked c a errs s)).otp.slots = (kept s).otp.slots := by
  unfold readChecked
  split
  · rfl
  · simp
  · simp

@[simp] theorem finishRead_slots (c : Nat) (r : DramReq) (errs : List Nat) (s : State) :
    (kept (finishRead c r errs s)).otp.slots = (kept s).otp.slots := by
  unfold finishRead
  dsimp only
  split <;> simp

@[simp] theorem finishWrite_slots (c : Nat) (r : DramReq) (l : List Byte) (errs : List Nat) (s : State) :
    (kept (finishWrite c r l errs s)).otp.slots = (kept s).otp.slots := by
  unfold finishWrite
  dsimp only
  split <;> simp

@[simp] theorem endRequest_slots (ch : Nat) (r : DramReq) (errs : List Nat) (s : State) :
    (kept (endRequest ch r errs s)).otp.slots = (kept s).otp.slots := by
  unfold endRequest
  cases r.data <;> simp

@[simp] theorem drainChan_slots (ch n : Nat) (s : State) : (kept (drainChan ch n s)).otp.slots = (kept s).otp.slots := by
  induction n generalizing s with
  | zero => rfl
  | succ n ih =>
    unfold drainChan
    split
    · simp [ih]
    · rfl

@[simp] theorem enterSelfRefresh_slots (s : State) : (kept (enterSelfRefresh s)).otp.slots = (kept s).otp.slots := by
  simp [enterSelfRefresh]

@[simp] theorem scrubBurst_slots (ch a : Nat) (errs : List Nat) (s : State) :
    (kept (scrubBurst ch a errs s)).otp.slots = (kept s).otp.slots := by
  unfold scrubBurst
  dsimp only
  split <;> simp

@[simp] theorem scrubCheck_slots (ch chunk : Nat) (errs : List Nat) (s : State) :
    (kept (scrubCheck ch chunk errs s)).otp.slots = (kept s).otp.slots :=
  kept_foldl_slots _ _ _ fun u j => by
    dsimp only
    split <;> simp

@[simp] theorem trainDram_slots (ok : List Bool) (s : State) : (kept (trainDram ok s)).otp.slots = (kept s).otp.slots :=
  kept_foldl_slots _ _ _ fun u c => by split <;> simp

@[simp] theorem settle_slots (s : State) : (kept (settle s)).otp.slots = (kept s).otp.slots := by
  unfold settle completeSuspend
  split
  · rfl
  split
  · simp
  split <;> simp

/-! Starts -/

@[simp] theorem verifyRegion_slots (k : Nat) (b : Bool) (s : State) :
    (kept (verifyRegion k b s).2).otp.slots = (kept s).otp.slots := by
  unfold verifyRegion
  dsimp only
  split
  · rfl
  · exact (congrArg (fun k : Kept => k.otp.slots) (raise_kept _ _ _ _ _)).trans rfl

@[simp] theorem chooseSlot_slots (k : Nat) (s : State) : (kept (chooseSlot k s).2).otp.slots = (kept s).otp.slots := by
  unfold chooseSlot
  split
  · rfl
  split
  · rfl
  split <;> simp

@[simp] theorem loadStore_slots (s : State) : (kept (loadStore s)).otp.slots = (kept s).otp.slots := by
  unfold loadStore
  split
  next ok t e =>
    have h := verifyRegion_slots 4 false s
    rw [e] at h
    split <;> simp [h]

@[simp] theorem loadImages_slots (d : List Bool) (r : Bool) (s : State) :
    (kept (loadImages d r s).2.2).otp.slots = (kept s).otp.slots := by
  unfold loadImages
  extract_lets t1 t2 t3 t4
  have h4 : (kept t4).otp.slots = (kept s).otp.slots := by
    simp only [t4]
    split <;> simp [t3, t2, t1]
  have h5 := (chooseSlot_slots 2 t4).trans h4
  split
  next b t e =>
    rw [e] at h5
    refine (verifyRegion_slots 5 false _).trans ((trainDram_slots d _).trans ?_)
    refine (congrArg (fun k : Kept => k.otp.slots) (modIsl_kept _ _)).trans ?_
    simpa using h5

@[simp] theorem stopStart_slots (code inst : Nat) (ds : List Nat) (s : State) :
    (kept (stopStart code inst ds s)).otp.slots = (kept s).otp.slots := by
  simp [stopStart]

@[simp] theorem admitStart_slots (s : State) : (kept (admitStart s)).otp.slots = (kept s).otp.slots := by
  unfold admitStart
  extract_lets role w ts fails rings short t1 t2
  have h2 : (kept t2).otp.slots = (kept s).otp.slots := by simp [t2, t1]
  split
  · exact h2
  · simpa using h2

@[simp] theorem checkStart_slots (rs : List Rec) (s : State) : (kept (checkStart rs s)).otp.slots = (kept s).otp.slots := by
  have h : (kept (applyRecords rs s)).otp.slots = (kept s).otp.slots := rfl
  unfold checkStart
  dsimp only
  split <;> simp [h]

@[simp] theorem startRecords_slots (b : Bool) (s : State) : (kept (startRecords b s)).otp.slots = (kept s).otp.slots := by
  unfold startRecords
  extract_lets body q t digest reason perr
  have ht : (kept t).otp.slots = (kept s).otp.slots := rfl
  clear_value perr
  split
  · simpa using ht
  · cases perr with
    | some e => simpa using ht
    | none => cases recordError body <;> simpa using ht

@[simp] theorem agree_slots (b : Bool) (r : Nat) (ok : Bool) (s : State) :
    (kept (agree b r ok s)).otp.slots = (kept s).otp.slots := by
  unfold agree
  dsimp only
  repeat' split
  · rfl
  all_goals simp

theorem execStartUp_slots (d : List Bool) (r : Bool) (s t : State) (h : execStartUp d r s = .next t) :
    (kept t).otp.slots = (kept s).otp.slots := by
  cases h
  split
  · rfl
  have h0 := chooseSlot_slots 1 s
  split
  next b u e =>
    rw [e] at h0
    split
    · exact h0
    · simpa using h0

/-! The island, the sensors, the error queue, updates and confirmation -/

@[simp] theorem verifyCal_slots (s : State) : (kept (verifyCal s)).otp.slots = (kept s).otp.slots := by
  unfold verifyCal
  dsimp only
  split <;> simp

@[simp] theorem endSurvey_slots (s : State) : (kept (endSurvey s)).otp.slots = (kept s).otp.slots := by
  unfold endSurvey
  split <;> simp

theorem roleStart_slots (s : State) : (kept (roleStart s)).otp.slots = (kept s).otp.slots := by
  have h := roleStart_keptNv s
  simp only [keptNv, kept, Kept.mk.injEq] at h
  obtain ⟨-, hotp, -⟩ := h
  rw [kept_slots, kept_slots, hotp]

@[simp] theorem trainAtStart_slots (p : Nat) (obs : TrainObs) (s : State) :
    (kept (trainAtStart p obs s)).otp.slots = (kept s).otp.slots := by
  unfold trainAtStart
  extract_lets s1 m t
  have h1 : kept s1 = kept s := by simp [s1]
  have ht : kept t = kept s := by simp [t, h1]
  clear_value t m
  split
  · exact (enterConfigError_slots _).trans
      (congrArg (fun k : Kept => k.otp.slots) ((raise_kept _ _ _ _ _).trans ((modPort_kept _ _ _).trans ht)))
  · exact congrArg (fun k : Kept => k.otp.slots) ((finishTraining_kept _ _ _).trans ht)

@[simp] theorem endFatal_slots (s : State) : (kept (endFatal s)).otp.slots = (kept s).otp.slots := rfl

@[simp] theorem fatalAction_slots (i : Nat) (e : ErrEntry) (last : Bool) (s : State) :
    (kept (fatalAction i e last s)).otp.slots = (kept s).otp.slots := by
  unfold fatalAction
  extract_lets t u
  have ht : (kept t).otp.slots = (kept s).otp.slots := by simp [t]
  have hu : (kept u).otp.slots = (kept s).otp.slots := by
    simp only [u]
    split <;> simpa using ht
  split
  · exact ht
  split
  · exact hu
  · exact hu

@[simp] theorem storeImage_slots (u : Update) (s : State) : (kept (storeImage u s)).otp.slots = (kept s).otp.slots := by
  unfold storeImage
  dsimp only
  split
  · exact appendSlot_slots _ _
  · exact appendSlot_slots _ _
  all_goals rfl

/-! The messages -/

theorem changeSettings_slots (l : List (Nat × Nat × Nat × Nat)) (commit : State → State) (s : State)
    (hc : ∀ u, (kept (commit u)).otp.slots = (kept u).otp.slots) :
    (kept (changeSettings l commit s).2).otp.slots = (kept s).otp.slots := by
  unfold changeSettings
  dsimp only
  repeat' split
  all_goals simp [hc]

/-- The effect of a message leaves the slots. -/
def ActSlots (x : MsgDef) : Prop := ∀ r tok u, (kept (x.act r tok u).2).otp.slots = (kept u).otp.slots

theorem settingsWriteMsg_slots : ActSlots settingsWriteMsg := by
  intro r tok u
  simp only [settingsWriteMsg]
  split
  · rfl
  · exact changeSettings_slots _ _ _ fun v => rfl

theorem profileSelectMsg_slots : ActSlots profileSelectMsg := by
  intro r tok u
  simp only [profileSelectMsg]
  split
  · rfl
  split
  · rfl
  · exact changeSettings_slots _ _ _ fun v => rfl

theorem restartMsg_slots : ActSlots restartMsg := by
  intro r tok u
  simp only [restartMsg]
  split <;> rfl

theorem islandSettingsMsg_slots : ActSlots islandSettingsMsg := by
  intro r tok u
  simp only [islandSettingsMsg]
  split
  · simp
  · have h := congrArg (fun k : Kept => k.otp.slots) (signAll_kept 4 false (portSeams u) u)
    exact (islandLog_slots 0x0F08 _ _).trans h

theorem keyInstallMsg_slots : ActSlots keyInstallMsg := by
  intro r tok u
  simp only [keyInstallMsg]
  split
  · rfl
  split <;> rfl

theorem keyRevokeMsg_slots : ActSlots keyRevokeMsg := by
  intro r tok u
  simp only [keyRevokeMsg]
  split <;> rfl

/-- Every message of the index leaves the owner key slots: a key message only queues an OTP write (R740). -/
theorem msgDef_slots {c : Nat} {x : MsgDef} (h : msgDef c = some x) : ActSlots x := by
  by_cases hc : c ∈ writers
  · simp only [writers, List.mem_cons, List.not_mem_nil, or_false] at hc
    rcases hc with rfl | rfl | rfl | rfl | rfl | rfl | rfl | rfl
    · cases (show some profileSelectMsg = some x from h); exact profileSelectMsg_slots
    · cases (show some restartMsg = some x from h); exact restartMsg_slots
    · cases (show some settingsWriteMsg = some x from h); exact settingsWriteMsg_slots
    · cases (show some verifyCalMsg = some x from h); exact fun _ _ u => verifyCal_slots u
    · cases (show some islandSettingsMsg = some x from h); exact islandSettingsMsg_slots
    · cases (show some keyInstallMsg = some x from h); exact keyInstallMsg_slots
    · cases (show some keyRevokeMsg = some x from h); exact keyRevokeMsg_slots
    · cases (show some debugUnlockMsg = some x from h); exact fun _ _ _ => rfl
  · exact fun r tok u => congrArg (fun k : Kept => k.otp.slots) (msgDef_kept h hc r tok u)

@[simp] theorem runReq_slots (c : Nat) (r : Req) (tok : Option Bool) (s : State) :
    (kept (runReq (msgDef c) r tok s).2).otp.slots = (kept s).otp.slots := by
  unfold runReq
  split
  · rfl
  · next d hd =>
    repeat' split
    all_goals first | exact msgDef_slots hd _ _ _ | simp

@[simp] theorem complete_slots (c : Nat) (r : Req) (tok : Option Bool) (s : State) :
    (kept (complete (msgDef c) r tok s)).otp.slots = (kept s).otp.slots := by
  simp [complete]

@[simp] theorem takePart_slots (r : Req) (s : State) : (kept (takePart msgDef r s)).otp.slots = (kept s).otp.slots := by
  unfold takePart
  split
  · simp
  dsimp only
  split
  · simp
  split <;> simp

@[simp] theorem takeMsg_slots (c : Nat) (r : Req) (s : State) :
    (kept (takeMsg (msgDef c) r s)).otp.slots = (kept s).otp.slots := by
  unfold takeMsg
  dsimp only
  split <;> simp

theorem runRow_slots (mine : Req → Bool) (c : Nat) (s t : State) (h : runRow mine c s = .next t) :
    (kept t).otp.slots = (kept s).otp.slots := by
  cases h
  unfold runHead
  dsimp only
  split
  · split <;> simp
  · simp

theorem execTokenPart_slots (c : Nat) (s t : State) (h : execTokenPart c s = .next t) :
    (kept t).otp.slots = (kept s).otp.slots := by
  cases h
  split
  · split <;> simp
  · simp

theorem runPriv_slots (k c : Nat) (s t : State) (h : runPriv k c s = .next t) : (kept t).otp.slots = (kept s).otp.slots := by
  unfold runPriv at h
  split at h
  · exact execTokenPart_slots c s t h
  · exact runRow_slots _ c s t h

@[simp] theorem runEntryMsg_slots (e : Sched) (s : State) : (kept (runEntryMsg e s)).otp.slots = (kept s).otp.slots := by
  unfold runEntryMsg
  dsimp only
  split <;> simp

/-! ### The whole index -/

/-- What a command that answers one state leaves of the slots. -/
theorem slots_next {s u t : State} (hu : (kept u).otp.slots = (kept s).otp.slots) (h : (.next u : Res) = .next t) :
    (kept t).otp.slots = (kept s).otp.slots := by
  cases h
  exact hu

theorem execSensorClockTimeout_slots (p : Nat) (s t : State) (h : execSensorClockTimeout p s = .next t) :
    (kept t).otp.slots = (kept s).otp.slots := by
  refine slots_next ?_ h
  split <;> simp

theorem execPortBringUp_slots (p : Nat) (obs : TrainObs) (s t : State) (h : execPortBringUp p obs s = .next t) :
    (kept t).otp.slots = (kept s).otp.slots := by
  refine slots_next ?_ h
  split
  · rfl
  split
  · dsimp only
    split <;> simp
  · split <;> simp

theorem execArrayDatagram_slots (m : Nat) (p ws : List Word) (s t : State) (h : execArrayDatagram m p ws s = .next t) :
    (kept t).otp.slots = (kept s).otp.slots := by
  refine slots_next ?_ h
  split
  · rfl
  · split <;> simp

theorem execScheduledCommandDue_slots (s t : State) (h : execScheduledCommandDue s = .next t) :
    (kept t).otp.slots = (kept s).otp.slots := by
  cases h
  split
  · rfl
  dsimp only
  split
  · simp
  split
  · rfl
  · split <;> simp

theorem execPpsInEdge_slots (stamp : Tod) (s t : State) (h : execPpsInEdge stamp s = .next t) :
    (kept t).otp.slots = (kept s).otp.slots := by
  cases h
  dsimp only
  split
  · rfl
  · split <;> rfl

theorem execDramRequestComplete_slots (ch id : Nat) (errs : List Nat) (s t : State)
    (h : execDramRequestComplete ch id errs s = .next t) : (kept t).otp.slots = (kept s).otp.slots := by
  cases h
  split
  · split <;> simp
  · rfl

theorem execScrubStep_slots (ch : Nat) (errs : List Nat) (s t : State) (h : execScrubStep ch errs s = .next t) :
    (kept t).otp.slots = (kept s).otp.slots := by
  cases h
  dsimp only
  split
  · rfl
  · split <;> simp

theorem execSurveyItemComplete_slots (i : Nat) (o : SurveyObs) (s t : State) (h : execSurveyItemComplete i o s = .next t) :
    (kept t).otp.slots = (kept s).otp.slots := by
  cases h
  split
  · rfl
  · dsimp only
    split <;> simp

theorem execUpdateWriteComplete_slots (ok : Bool) (s t : State) (h : execUpdateWriteComplete ok s = .next t) :
    (kept t).otp.slots = (kept s).otp.slots := by
  cases h
  dsimp only
  split
  · rfl
  · split <;> simp

theorem execBootConfirmation_slots (s t : State) (h : execBootConfirmation s = .next t) :
    (kept t).otp.slots = (kept s).otp.slots := by
  cases h
  split
  · rfl
  · have h1 : ∀ f, (kept (setSlot 2 f (setSlot 1 f s))).otp.slots = (kept s).otp.slots := fun f => by simp
    dsimp only
    split
    · exact h1 _
    · exact h1 _

theorem execSupplyOutOfLimits_slots (rail mV : Nat) (s t : State) (h : execSupplyOutOfLimits rail mV s = .next t) :
    (kept t).otp.slots = (kept s).otp.slots := by
  refine slots_next ?_ h
  split
  · rfl
  split
  · rfl
  split
  · split <;> simp
  · simp

theorem execResetRelease_slots (straps : Nat) (s t : State) (h : execResetRelease straps s = .next t) :
    (kept t).otp.slots = (kept s).otp.slots := by
  cases h
  split
  · rfl
  split <;> rfl

theorem execHardwareThermalTrip_slots (s t : State) (h : execHardwareThermalTrip s = .next t) :
    (kept t).otp.slots = (kept s).otp.slots := by
  cases h
  rfl

theorem execHardwareThermalTripClear_slots (s t : State) (h : execHardwareThermalTripClear s = .next t) :
    (kept t).otp.slots = (kept s).otp.slots := by
  cases h
  split <;> rfl

theorem execHeadframeWatchdogExpiry_slots (s t : State) (h : execHeadframeWatchdogExpiry s = .next t) :
    (kept t).otp.slots = (kept s).otp.slots := by
  cases h
  split <;> rfl

theorem execRoleStart_slots (s t : State) (h : execRoleStart s = .next t) : (kept t).otp.slots = (kept s).otp.slots := by
  cases h
  split
  · exact roleStart_slots s
  · rfl

theorem execErrorAction_slots (last : Bool) (s t : State) (h : execErrorAction last s = .next t) :
    (kept t).otp.slots = (kept s).otp.slots := by
  cases h
  split
  · rfl
  split
  · rfl
  split
  · rfl
  split
  · simp
  · split <;> simp

/-- Every command but a completed OTP write leaves the owner key slots. -/
theorem exec_slots {i : Instr} {s t : State} (hi : ∀ ok, i ≠ .otpWriteComplete ok) (h : exec i s = .next t) :
    (kept t).otp.slots = (kept s).otp.slots := by
  cases hw : writes i with
  | false => rw [exec_kept hw h]
  | true =>
    unfold writes at hw
    split at hw
    · exact slots_next (resetAll_slots s) h
    · exact execResetRelease_slots _ s t h
    · exact execStartUp_slots _ _ s t h
    · exact execRoleStart_slots s t h
    · exact execPortBringUp_slots _ _ s t h
    · exact execSensorClockTimeout_slots _ s t h
    · exact execArrayDatagram_slots _ _ _ s t h
    · exact runPriv_slots 0x0102 _ s t h
    · exact runPriv_slots 0x0103 _ s t h
    · exact runPriv_slots 0x0104 _ s t h
    · exact slots_next (by simp) h
    · exact execScheduledCommandDue_slots s t h
    · exact execPpsInEdge_slots _ s t h
    · exact runRow_slots (isCode 0x0F03) _ s t h
    · exact runPriv_slots 0x0F08 _ s t h
    · exact execDramRequestComplete_slots _ _ _ s t h
    · exact execScrubStep_slots _ _ s t h
    · exact execTokenPart_slots _ s t h
    · exact execSurveyItemComplete_slots _ _ s t h
    · exact execUpdateWriteComplete_slots _ s t h
    · exact execBootConfirmation_slots s t h
    · exact runPriv_slots 0x1602 _ s t h
    · exact runPriv_slots 0x1603 _ s t h
    · exact runPriv_slots 0x1604 _ s t h
    · exact execSupplyOutOfLimits_slots _ _ s t h
    · exact execHardwareThermalTrip_slots s t h
    · exact execHardwareThermalTripClear_slots s t h
    · exact execHeadframeWatchdogExpiry_slots s t h
    · exact execErrorAction_slots _ s t h
    · exact slots_next (resetAll_slots s) h
    · exact absurd rfl (hi _)
    · cases hw

/-- A change of one slot that lowers no state of at most 2 lowers none of a list's. -/
theorem modAt_rises (f : OwnerSlot → OwnerSlot) (hf : ∀ x, x.state ≤ 2 → x.state ≤ (f x).state) (l : List OwnerSlot) (m n : Nat)
    (h : (l.getD n {}).state ≤ 2) : (l.getD n {}).state ≤ ((modAt l m f).getD n {}).state := by
  by_cases hmn : m = n
  · subst hmn
    by_cases hm : m < l.length
    · rw [getD_modAt {} f l m hm]
      exact hf _ h
    · simp [modAt, hm]
  · simp [modAt, hmn]

/-- A completed write programs an empty slot or revokes one: no slot's state falls (R730). -/
theorem applyOtp_slots (w : OtpWrite) (o : Otp) (n : Nat) (h : (o.slots.getD n {}).state ≤ 2) :
    (o.slots.getD n {}).state ≤ ((applyOtp w o).slots.getD n {}).state := by
  cases w with
  | install m k => exact modAt_rises _ (fun x _ => Nat.le_max_right 1 x.state) _ m n h
  | revoke m => exact modAt_rises _ (fun x hx => hx) _ m n h
  | debugged => exact le_rfl
  | counter k v => exact le_rfl

theorem execOtpWriteComplete_slots {ok : Bool} {s t : State} (h : execOtpWriteComplete ok s = .next t) (n : Nat)
    (hn : (s.otp.slots.getD n {}).state ≤ 2) : (s.otp.slots.getD n {}).state ≤ (t.otp.slots.getD n {}).state := by
  cases h
  split
  · exact le_rfl
  · next w r _ =>
    have hw := applyOtp_slots w { s.otp with queue := r } n hn
    dsimp only
    split
    · simp
    · split
      · simpa using hw
      · exact hw

/-- Settles O6: the counters by what is sound for every command, the slots by what each command leaves of them. -/
theorem countersOnlyRise : Obligations.CountersOnlyRise := by
  intro s t h
  cases hs : s.pending with
  | nil =>
    rw [idleOnEmptyQueue s hs] at h
    cases h
    exact ⟨le_rfl, fun _ => le_rfl, fun _ _ => le_rfl⟩
  | cons c rest =>
    have hsound := step_sound hs h
    refine ⟨hsound.sealKept, hsound.rollback, fun n hn => ?_⟩
    rw [stepRunsFront c rest s hs] at h
    by_cases hc : ∃ ok, c = .otpWriteComplete ok
    · obtain ⟨ok, rfl⟩ := hc
      exact execOtpWriteComplete_slots h n hn
    · have he : t.otp.slots = s.otp.slots := (exec_slots (fun ok e => hc ⟨ok, e⟩) h).trans rfl
      rw [he]

end Sys2Proof.Proofs

/-! PROOFS. The commands that write the settings, the OTP, the boot NVM, the island's non-volatile memory or DRAM. -/

namespace Sys2Proof.Proofs
open Sys2Proof Sys2Proof.Machine Sys2Proof.Laws

/-! ### What a stop of the device leaves -/

/-- The kept part but the state of the device. -/
def keptDev (s : State) : Kept := { kept s with state := .off, powered := false }

theorem keptDev_of {s t : State} (h : kept t = kept s) : keptDev t = keptDev s :=
  congrArg (fun k : Kept => { k with state := .off, powered := false }) h

@[simp] theorem enterConfigError_keptDev (s : State) : keptDev (enterConfigError s) = keptDev s := rfl

@[simp] theorem endFatal_keptDev (s : State) : keptDev (endFatal s) = keptDev s := rfl

theorem trainAtStart_keptDev (p : Nat) (obs : TrainObs) (s : State) : keptDev (trainAtStart p obs s) = keptDev s := by
  unfold trainAtStart
  extract_lets s1 m t
  have h1 : kept s1 = kept s := by simp [s1]
  have ht : kept t = kept s := by simp [t, h1]
  clear_value t m
  split
  · exact (enterConfigError_keptDev _).trans
      (keptDev_of ((raise_kept _ _ _ _ _).trans ((modPort_kept _ _ _).trans ht)))
  · exact keptDev_of ((finishTraining_kept _ _ _).trans ht)

theorem execPortBringUp_keptDev {p : Nat} {obs : TrainObs} {s t : State} (h : execPortBringUp p obs s = .next t) :
    keptDev t = keptDev s := by
  unfold execPortBringUp at h
  extract_lets ok ph u at h
  have hu : kept u = kept s := by simp [u]
  clear_value u
  cases h
  split
  · rfl
  split
  · split
    · exact (trainAtStart_keptDev _ _ _).trans (keptDev_of (by simp [hu]))
    · exact keptDev_of hu
  · split
    · exact keptDev_of (by simp)
    · rfl

theorem execSensorClockTimeout_keptDev {p : Nat} {s t : State} (h : execSensorClockTimeout p s = .next t) :
    keptDev t = keptDev s := by
  cases h
  split
  · exact (enterConfigError_keptDev _).trans (keptDev_of (by simp))
  · rfl

theorem fatalAction_keptDev (i : Nat) (e : ErrEntry) (last : Bool) (s : State) :
    keptDev (fatalAction i e last s) = keptDev s := by
  unfold fatalAction
  extract_lets t u
  have ht : kept t = kept s := by simp [t]
  have hu : kept u = kept s := by
    simp only [u]
    split <;> simpa using ht
  split
  · exact keptDev_of ht
  split
  · exact (endFatal_keptDev u).trans (keptDev_of hu)
  · exact keptDev_of hu

theorem execErrorAction_keptDev {last : Bool} {s t : State} (h : execErrorAction last s = .next t) :
    keptDev t = keptDev s := by
  cases h
  split
  · rfl
  split
  · rfl
  split
  · rfl
  split
  · exact fatalAction_keptDev _ _ _ _
  · split <;> exact keptDev_of (by simp)

/-! ### The writers -/

/-- What a command that is no writer leaves: the settings, the OTP, the boot NVM, the island's memory but its log, and DRAM. -/
def LeavesStores (s t : State) : Prop :=
  t.cfg = s.cfg ∧ t.otp = s.otp ∧ t.nvm = s.nvm ∧ t.islNv = { s.islNv with log := t.islNv.log } ∧
    ∀ a, readDram a t.dram.mem = readDram a s.dram.mem

theorem LeavesStores.of_keptDev {s t : State} (h : keptDev t = keptDev s) : LeavesStores s t := by
  simp only [keptDev, kept, Kept.mk.injEq] at h
  obtain ⟨-, hotp, hnv, hcfg, hnvm, hmem, -⟩ := h
  simp only [quietNv, IslandNv.mk.injEq] at hnv
  obtain ⟨h1, h2, h3, h4, -, h5⟩ := hnv
  refine ⟨hcfg, hotp, hnvm, ?_, fun a => by rw [hmem]⟩
  dsimp only
  rw [← h1, ← h2, ← h3, ← h4, ← h5]

/-- Settles O7: a command keeps the stores, stops the device at most, or is one of those named. -/
theorem wholeStateWriters : Obligations.WholeStateWriters := by
  intro i s t h
  cases hw : writes i with
  | false =>
    have hl : LeavesStores s t := .of_keptDev (keptDev_of (exec_kept hw h))
    split
    all_goals first | exact hl | exact trivial
  | true =>
    unfold writes at hw
    split at hw
    · trivial
    · trivial
    · trivial
    · trivial
    · exact LeavesStores.of_keptDev (execPortBringUp_keptDev h)
    · exact LeavesStores.of_keptDev (execSensorClockTimeout_keptDev h)
    · trivial
    · trivial
    · trivial
    · trivial
    · trivial
    · trivial
    · trivial
    · trivial
    · trivial
    · trivial
    · trivial
    · trivial
    · trivial
    · trivial
    · trivial
    · trivial
    · trivial
    · trivial
    · trivial
    · trivial
    · trivial
    · trivial
    · exact LeavesStores.of_keptDev (execErrorAction_keptDev h)
    · trivial
    · trivial
    · cases hw

end Sys2Proof.Proofs

/-! PROOFS. The bulk window claimed and released, and the nonce (R689 to R691). -/

namespace Sys2Proof.Proofs
open Sys2Proof Sys2Proof.Machine Sys2Proof.Laws

section
variable {c tag : Nat} {p : Path} {v w : View} {s : State}

/-! ### The bulk window (R689, R690) -/

theorem bulkClaim_free (h : s.mbx.holder = none) :
    bulkClaim (.regs v) s =
      (.accept [], modMbx (fun m => { m with holder := some v, claims := m.claims + 1, bulk := [] }) s) := by
  simp [bulkClaim, pathView, h]

theorem bulkClaim_held (h : s.mbx.holder = some w) (hvw : v ≠ w) : bulkClaim (.regs v) s = (.refuse 5 0 0, s) := by
  simp [bulkClaim, pathView, h, hvw.symm]

theorem bulkClaim_off_path (h : pathView p = none) : bulkClaim p s = (.refuse 5 0 0, s) := by
  simp [bulkClaim, h]

theorem bulkRelease_holder (h : s.mbx.holder = some v) :
    bulkRelease (.regs v) s = (.accept [], modMbx (fun m => { m with holder := none }) s) := by
  simp [bulkRelease, holdsBulk, pathView, h]

theorem bulkClaim_mine (ha : AtFront c p 0x1402 tag [1] s) :
    (fun r => isCode 0x1402 r && r.w 1 % 2 == 1) (request1 c p 0x1402 tag [1]) = true := by
  dsimp only
  rw [isCode_front ha (by decide) (by simp)]
  rfl

section
variable (hc : c < 14) (ha : AtFront c p 0x1402 tag [1] s) (hs : Started s)
include hc ha hs

theorem bulkClaim_run : runReq (some bulkWindowMsg) (request1 c p 0x1402 tag [1]) none (popMsg c s) = bulkClaim p (popMsg c s) :=
  runReq_started (d := bulkWindowMsg) ha hc (by decide) (by decide) (by simp) hs (hasBlk_always s) rfl rfl rfl rfl rfl rfl
    PrivRule.noConfusion

/-- A claim that is refused leaves the refusal and nothing else. -/
theorem bulkWindowClaim_refused (h : bulkClaim p (popMsg c s) = (.refuse 5 0 0, popMsg c s)) :
    exec (.bulkWindowClaim c) s = .next (refused (request1 c p 0x1402 tag [1]) 5 0 0 (popMsg c s)) :=
  (runRow_of_runReq ha (by decide) (by simp) rfl (bulkClaim_mine ha) ((bulkClaim_run hc ha hs).trans h) rfl).trans
    (congrArg _ (answer_refuse rfl _ (by decide) 0 0 _))

end

theorem bulkWindowClaim_takes (hc : c < 14) (ha : AtFront c (.regs v) 0x1402 tag [1] s) (hs : Started s)
    (hfree : s.mbx.holder = none) :
    exec (.bulkWindowClaim c) s = .next (replied (request1 c (.regs v) 0x1402 tag [1]) []
      (modMbx (fun m => { m with holder := some v, claims := m.claims + 1, bulk := [] }) (popMsg c s))) :=
  runRow_started (d := bulkWindowMsg) ha (by decide) (by simp) rfl (routed_of_lt hc (by decide)) hs (hasBlk_always s) rfl rfl rfl
    rfl rfl rfl (.inl PrivRule.noConfusion) (bulkClaim_free (s := popMsg c s) hfree) rfl rfl _ (bulkClaim_mine ha)

theorem bulkWindowRelease_frees (hc : c < 14) (ha : AtFront c (.regs v) 0x1402 tag [0] s) (hs : Started s)
    (hheld : s.mbx.holder = some v) :
    exec (.bulkWindowRelease c) s = .next (replied (request1 c (.regs v) 0x1402 tag [0]) []
      (modMbx (fun m => { m with holder := none }) (popMsg c s))) := by
  refine runRow_started (d := bulkWindowMsg) ha (by decide) (by simp) rfl (routed_of_lt hc (by decide)) hs (hasBlk_always s) rfl rfl
    rfl rfl rfl rfl (.inl PrivRule.noConfusion) (bulkRelease_holder (s := popMsg c s) hheld) rfl rfl _ ?_
  rw [isCode_front ha (by decide) (by simp)]
  rfl

/-! ### The nonce (R691) -/

/-- The nonce a path receives: the next draw of the generator, with its time. -/
def drawnNonce (p : Path) (s : State) : Nonce := ⟨p, (List.range 4).map (Config.nonceWord s.drawn), s.dev.elapsed⟩

/-- A new nonce takes the place of its path's. -/
def putNonce (n : Nonce) (s : State) : State :=
  drawOne (modMbx (fun m => { m with nonces := (m.nonces.filter fun x => x.path != n.path) ++ [n] }) s)

theorem nonce_answers (hc : c < 14) (ha : AtFront c p 0x1401 tag [] s) (hs : Started s) :
    exec (.nonce c) s = .next (replied (request1 c p 0x1401 tag []) ((drawnNonce p s).words.map BitVec.toNat)
      (putNonce (drawnNonce p s) (popMsg c s))) :=
  runRow_started (d := nonceMsg) ha (by decide) (by simp) rfl (routed_of_lt hc (by decide)) hs (hasBlk_always s) rfl rfl rfl rfl rfl
    rfl (.inl PrivRule.noConfusion) rfl rfl rfl _ (isCode_front ha (by decide) (by simp))

theorem mem_putNonce {x n : Nonce} : x ∈ (putNonce n s).mbx.nonces ↔ (x ∈ s.mbx.nonces ∧ x.path ≠ n.path) ∨ x = n := by
  simp [putNonce, drawOne, modMbx]

end

/-- Settles O26: each request passes R809's checks, and who holds the window selects its answer. -/
theorem windowAndNonceMessages : Obligations.WindowAndNonceMessages := by
  refine ⟨fun c tag v s hc ha hs hfree => ⟨_, bulkWindowClaim_takes hc ha hs hfree, rfl⟩,
    fun c tag v w s hc ha hs hheld hvw => bulkWindowClaim_refused hc ha hs (bulkClaim_held (s := popMsg c s) hheld hvw),
    fun c tag p s hc ha hs hp => bulkWindowClaim_refused hc ha hs (bulkClaim_off_path hp),
    fun c tag v s hc ha hs hheld => bulkWindowRelease_frees hc ha hs hheld,
    fun c tag p s hc ha hs => ⟨drawnNonce p s, putNonce (drawnNonce p s) (popMsg c s), rfl, rfl, rfl, nonce_answers hc ha hs,
      mem_putNonce.mpr (.inr rfl), fun x hx hp => ?_, fun x hx hp => mem_putNonce.mpr (.inl ⟨hx, hp⟩)⟩⟩
  rcases mem_putNonce.mp hx with ⟨-, hne⟩ | hx
  · exact absurd hp hne
  · exact hx

end Sys2Proof.Proofs

/-! PROOFS. The messages of the island: record read, certificate read, verify calibration and sign now (R540, R549, R555). -/

namespace Sys2Proof.Proofs
open Sys2Proof Sys2Proof.Machine Sys2Proof.Laws

/-! ### A row whose channel takes its message -/

section
variable {mine : Req → Bool} {c k tag : Nat} {p : Path} {args : List Word} {s u : State} {d : MsgDef} {a : Answer} {ws : List Nat}

/-- `runReq_started` for a channel and a code of which it is only known that they belong together (R674). -/
theorem runReq_routed (hroute : routed c k = true) (hk : k < 65536)
    (hn : args.length < 15) (hs : Started s) (hb : hasBlk d.blk s = true) (hcount : d.count (args.length + 1) = true)
    (hres : reservedSet d.masks args = false) (hbad : d.bad (request1 c p k tag args) (popMsg c s) = false)
    (hknown : d.unknown (request1 c p k tag args) (popMsg c s) = false)
    (hlog : d.badLog (request1 c p k tag args) (popMsg c s) = none)
    (hdeny : d.deny (request1 c p k tag args) (popMsg c s) = false) (hpriv : d.priv ≠ .must) :
    runReq (some d) (request1 c p k tag args) none (popMsg c s) = d.act (request1 c p k tag args) false (popMsg c s) := by
  have hcode : (request1 c p k tag args).code = k := hdrCode_header hk (by omega)
  have hto : routed (request1 c p k tag args).chan (request1 c p k tag args).code = true := by rw [hcode]; exact hroute
  have hform : malformed d (request1 c p k tag args) (popMsg c s) = false := by
    rw [malformed_request1 d _ hk hn, hcount, hres, hbad]
    rfl
  have hpop : Started (popMsg c s) := hs
  have hden : denied d (request1 c p k tag args) (popMsg c s) = false := (denied_of_started hpop hb _).trans hdeny
  have hauth : unauthorised d (request1 c p k tag args) none (popMsg c s) = false := by
    simp [unauthorised, hdrPriv_request1 hk hn, hpriv]
  simp [runReq, hto, hknown, hform, hlog, hden, hauth]

/-- A row answers the request at its front in the state its action leaves, when that keeps the messages of the channel. -/
theorem runRow_acts (ha : AtFront c p k tag args s) (hk : k < 65536) (hn : args.length < 15) (hd : msgDef k = some d)
    (hm : mine (request1 c p k tag args) = true) (h : runReq (some d) (request1 c p k tag args) none (popMsg c s) = (a, u))
    (hu : u.mbx.chans = (popMsg c s).mbx.chans) :
    runRow mine c s = .next (answer (some d) (request1 c p k tag args) a u) := by
  have hstop : Stops c (answer (some d) (request1 c p k tag args) a u) := by
    refine stops_behind_front ha ?_
    rw [answer_inq, hu]
  rw [runRow_front ha hk hn (by rw [hd]; rfl) hm, hd, complete_of_runReq h, screen_stops hstop]

theorem runRow_replies (ha : AtFront c p k tag args s) (hk : k < 65536) (hn : args.length < 15) (hd : msgDef k = some d)
    (hm : mine (request1 c p k tag args) = true) (hans : d.answered = true)
    (h : runReq (some d) (request1 c p k tag args) none (popMsg c s) = (.accept ws, u))
    (hu : u.mbx.chans = (popMsg c s).mbx.chans) : runRow mine c s = .next (replied (request1 c p k tag args) ws u) :=
  (runRow_acts ha hk hn hd hm h hu).trans (congrArg _ (answer_accept (d := some d) hans _ _ _))

/-- A row whose action refuses with a class other than 4 leaves the refusal. -/
theorem runRow_refuses {cls err detail : Nat} (ha : AtFront c p k tag args s) (hk : k < 65536) (hn : args.length < 15)
    (hd : msgDef k = some d) (hm : mine (request1 c p k tag args) = true) (hans : d.answered = true) (hcls : cls ≠ 4)
    (h : runReq (some d) (request1 c p k tag args) none (popMsg c s) = (.refuse cls err detail, popMsg c s)) :
    runRow mine c s = .next (refused (request1 c p k tag args) cls err detail (popMsg c s)) :=
  (runRow_acts ha hk hn hd hm h rfl).trans (congrArg _ (answer_refuse (d := some d) hans _ hcls _ _ _))

end

/-! ### The island's messages -/

section
variable {tag : Nat} {p : Path} {s : State}

@[simp] theorem holdsBulk_popMsg (p : Path) (c : Nat) (s : State) : holdsBulk p (popMsg c s) = holdsBulk p s := rfl

@[simp] theorem noteRead_mbx (n : Nat) (es : List IslandEntry) (s : State) : (noteRead n es s).mbx = s.mbx := by
  unfold noteRead
  split <;> rfl

section
variable {n f0 f1 o k : Word} (hs : Started s) (hn : n.toNat < 8)
  (ho : o.toNat % 64 = 0) (hend : o.toNat ≤ 0x100000) (hk0 : 1 ≤ k.toNat) (hk : k.toNat ≤ 16384)
include hs hn ho hend hk0 hk

theorem recordRead_run : runReq (some recordReadMsg) (request1 14 p 0x0F01 tag [n, f0, f1, o, k]) none (popMsg 14 s) =
    recordReadMsg.act (request1 14 p 0x0F01 tag [n, f0, f1, o, k]) false (popMsg 14 s) := by
  have hmasks : reservedSet recordReadMsg.masks [n, f0, f1, o, k] = false := by
    have h1 : n.toNat &&& 7 = n.toNat := and_mask (k := 3) rfl hn
    have h2 : k.toNat &&& 0x7FFF = k.toNat := and_mask (k := 15) rfl (by omega)
    simp [recordReadMsg, reservedSet, and_full, h1, h2]
  have hform : recordReadMsg.bad (request1 14 p 0x0F01 tag [n, f0, f1, o, k]) (popMsg 14 s) = false := by
    change (o.toNat % 64 != 0 || decide (k.toNat < 1 ∨ 16384 < k.toNat ∨ 0x100000 < o.toNat)) = false
    simp only [ho, bne_self_eq_false, Bool.false_or, decide_eq_false_iff_not]
    omega
  exact runReq_routed rfl (by decide) (by simp) hs (hasBlk_always s) rfl hmasks hform rfl rfl rfl PrivRule.noConfusion

theorem recordRead_copies {es : List IslandEntry} (ha : AtFront 14 p 0x0F01 tag [n, f0, f1, o, k] s) (hheld : holdsBulk p s = true)
    (hes : takeEntries (entriesFrom n.toNat (f0.toNat + f1.toNat * 2 ^ 32) s) k.toNat (0x100000 - o.toNat) = es) :
    exec (.recordRead 14) s = .next (replied (request1 14 p 0x0F01 tag [n, f0, f1, o, k])
      [(recordNums es).length, (recordNums es).headD 0 % 2 ^ 32, (recordNums es).headD 0 / 2 ^ 32, (es.flatMap IslandEntry.bytes).length]
      (noteRead n.toNat es (writeBulk o.toNat (es.flatMap IslandEntry.bytes) (popMsg 14 s)))) := by
  subst hes
  have hno : ¬ (!holdsBulk p (popMsg 14 s)) = true := by simp [hheld]
  refine runRow_replies ha (by decide) (by simp) rfl (isCode_front ha (by decide) (by simp)) rfl
    ((recordRead_run hs hn ho hend hk0 hk).trans (if_neg hno)) ?_
  rw [noteRead_mbx]
  rfl

end

section
variable {o : Word} (hs : Started s) (ho : o.toNat + 248 ≤ 0x100000)
include hs ho

theorem islandCertificate_run : runReq (some islandCertMsg) (request1 14 p 0x0F02 tag [o]) none (popMsg 14 s) =
    islandCertMsg.act (request1 14 p 0x0F02 tag [o]) false (popMsg 14 s) :=
  runReq_routed rfl (by decide) (by simp) hs (hasBlk_always s) rfl rfl (decide_eq_false (Nat.not_lt.mpr ho)) rfl rfl rfl
    PrivRule.noConfusion

theorem islandCertificate_copies (ha : AtFront 14 p 0x0F02 tag [o] s) (hheld : holdsBulk p s = true) :
    exec (.islandCertificateRead 14) s = .next (replied (request1 14 p 0x0F02 tag [o]) [s.islNv.cert.length]
      (writeBulk o.toNat s.islNv.cert (popMsg 14 s))) := by
  have hno : ¬ (!holdsBulk p (popMsg 14 s)) = true := by simp [hheld]
  exact runRow_replies ha (by decide) (by simp) rfl (isCode_front ha (by decide) (by simp)) rfl
    ((islandCertificate_run hs ho).trans (if_neg hno)) rfl

theorem islandCertificate_refused (ha : AtFront 14 p 0x0F02 tag [o] s) (hfree : holdsBulk p s = false) :
    exec (.islandCertificateRead 14) s = .next (refused (request1 14 p 0x0F02 tag [o]) 5 0 0 (popMsg 14 s)) := by
  have hno : (!holdsBulk p (popMsg 14 s)) = true := by simp [hfree]
  exact runRow_refuses ha (by decide) (by simp) rfl (isCode_front ha (by decide) (by simp)) rfl (by decide)
    ((islandCertificate_run hs ho).trans (if_pos hno))

end

/-! ### VERIFY_CALIBRATION (R555) -/

/-- A verification draws, notes what it found and logs it in the island; a failure is also raised. -/
theorem verifyCal_eq (s : State) : verifyCal s =
    if calibrationOk s.drawn then islandLog 0x0F04 [b2n (calibrationOk s.drawn)] (modIsl (fun i => { i with calOk := calibrationOk s.drawn }) (drawOne s))
    else raise 1 0x0F04 noInst [] (islandLog 0x0F04 [b2n (calibrationOk s.drawn)]
      (modIsl (fun i => { i with calOk := calibrationOk s.drawn }) (drawOne s))) := rfl

theorem verifyCal_calOk (s : State) : (verifyCal s).isl.calOk = calibrationOk s.drawn := by
  rw [verifyCal_eq, apply_ite State.isl, raise_isl, ite_self]
  rfl

theorem verifyCal_mbx (s : State) : (verifyCal s).mbx = s.mbx := by
  rw [verifyCal_eq, apply_ite State.mbx, raise_mbx, ite_self]
  rfl

theorem verifyCal_islandLog (s : State) : (verifyCal s).islNv.log =
    pushIslandLog (entryBytes32 (mkEntry 0 0x0F04 noInst [b2n (verifyCal s).isl.calOk] s)) s.islNv.log := by
  rw [verifyCal_calOk, verifyCal_eq, apply_ite State.islNv, raise_islNv, ite_self]
  rfl

theorem verifyCal_raises {s : State} (h : (verifyCal s).isl.calOk = false) :
    (verifyCal s).log.next = (raise 1 0x0F04 noInst [] s).log.next := by
  rw [verifyCal_calOk] at h
  rw [verifyCal_eq, if_neg (by simp [h])]
  exact raise_log_next_congr (s := s) (t := islandLog 0x0F04 [b2n (calibrationOk s.drawn)]
    (modIsl (fun i => { i with calOk := calibrationOk s.drawn }) (drawOne s))) rfl rfl 1 0x0F04 noInst [] []

section
variable (ha : AtFront 14 p 0x0F03 tag [] s) (hs : Started s)
include ha hs

theorem verifyCalibration_answers (hrun : s.isl.running = true) :
    exec (.verifyCalibration 14) s = .next (replied (request1 14 p 0x0F03 tag []) [b2n (verifyCal (popMsg 14 s)).isl.calOk]
      (verifyCal (popMsg 14 s))) := by
  have hdeny : verifyCalMsg.deny (request1 14 p 0x0F03 tag []) (popMsg 14 s) = false := by
    change (!s.isl.running) = false
    rw [hrun]
    rfl
  exact runRow_replies ha (by decide) (by simp) rfl (isCode_front ha (by decide) (by simp)) rfl
    (runReq_routed rfl (by decide) (by simp) hs (hasBlk_always s) rfl rfl rfl rfl rfl hdeny PrivRule.noConfusion)
    (congrArg Mailboxes.chans (verifyCal_mbx _))

theorem verifyCalibration_refused (hoff : s.isl.running = false) :
    exec (.verifyCalibration 14) s = .next (refused (request1 14 p 0x0F03 tag []) 3 0 0 (popMsg 14 s)) := by
  have hpop : Started (popMsg 14 s) := hs
  have hden : denied verifyCalMsg (request1 14 p 0x0F03 tag []) (popMsg 14 s) = true := by
    rw [denied_of_started hpop (hasBlk_always _)]
    change (!s.isl.running) = true
    rw [hoff]
    rfl
  have hto : routed (request1 14 p 0x0F03 tag []).chan (request1 14 p 0x0F03 tag []).code = true := by
    rw [front_code ha (by decide) (by simp)]
    rfl
  exact runRow_refuses ha (by decide) (by simp) rfl (isCode_front ha (by decide) (by simp)) rfl (by decide)
    (runReq_of_denied hto rfl (malformed_request1 _ _ (by decide) (by simp)) rfl hden)

end

/-! ### SIGN_NOW (R549) -/

theorem signNow_signs {n : Word} (ha : AtFront 14 p 0x0F04 tag [n] s) (hs : Started s) (hn : n.toNat < 8)
    (hrec : recordsFor n.toNat s = true) :
    exec (.signNow 14) s = .next (replied (request1 14 p 0x0F04 tag [n])
      [(islSeam n.toNat s).last % 2 ^ 32, (islSeam n.toNat s).last / 2 ^ 32] (signSeam n.toNat 8 false (popMsg 14 s))) := by
  have hrun : s.isl.running = true := by
    simp only [recordsFor, Bool.and_eq_true] at hrec
    obtain ⟨⟨⟨hrun, -⟩, -⟩, -⟩ := hrec
    exact hrun
  have hdeny : signNowMsg.deny (request1 14 p 0x0F04 tag [n]) (popMsg 14 s) = false := by
    change (!s.isl.running) = false
    rw [hrun]
    rfl
  have hyes : ¬ (!recordsFor n.toNat (popMsg 14 s)) = true := by
    have hpop : recordsFor n.toNat (popMsg 14 s) = true := hrec
    simp [hpop]
  exact runRow_replies ha (by decide) (by simp) rfl (isCode_front ha (by decide) (by simp)) rfl
    ((runReq_routed rfl (by decide) (by simp) hs (hasBlk_always s) rfl (reservedSet_mask (and_mask (k := 3) rfl hn)) rfl rfl rfl
      hdeny PrivRule.noConfusion).trans (if_neg hyes))
    (congrArg Mailboxes.chans (mbx_of_mailFailed (signSeam_mailFailed ..)))

end

/-- Settles O34: each request passes R809's checks on the island's channel, and its action answers what it did. -/
theorem islandMessages : Obligations.IslandMessages := by
  refine ⟨fun tag n f0 f1 o k es p s ha hs hn ho hend hk0 hk hheld hes => recordRead_copies hs hn ho hend hk0 hk ha hheld hes,
    fun tag o p s ha hs ho => ⟨islandCertificate_copies hs ho ha, islandCertificate_refused hs ho ha⟩,
    fun tag p s ha hs => ⟨fun hrun => ⟨_, rfl, verifyCalibration_answers ha hs hrun, verifyCal_calOk _, verifyCal_islandLog _,
      fun h => (verifyCal_raises h).trans (raise_log_next_congr (s := s) (t := popMsg 14 s) rfl rfl 1 0x0F04 noInst [] [])⟩, verifyCalibration_refused ha hs⟩,
    fun tag n p s ha hs hn hrec hlen => ?_⟩
  obtain ⟨hcount, -, hsigs⟩ := signSeam_counts (s := popMsg 14 s) hlen 8 false
  exact ⟨_, rfl, hcount, hsigs, signNow_signs ha hs hn hrec⟩

end Sys2Proof.Proofs

/-! PROOFS. The messages of the viewfinders and the audio ports (R595, R596, R611, R614, R620). -/

namespace Sys2Proof.Proofs
open Sys2Proof Sys2Proof.Machine Sys2Proof.Laws

theorem msgDef_overlayWrite {k : Nat} (hk : k < 2) : msgDef (0x1108 + k) = some (overlayWriteMsg k) := by
  interval_cases k <;> rfl

theorem msgDef_refresh {k : Nat} (hk : k < 2) : msgDef (0x1110 + k) = some (refreshMsg k) := by interval_cases k <;> rfl

theorem msgDef_startStop {a : Nat} (ha : a < 8) : msgDef (0x1208 + a) = some (startStopMsg a) := by interval_cases a <;> rfl

theorem msgDef_blockWrite {a : Nat} (ha : a < 8) : msgDef (0x1210 + a) = some (blockWriteMsg a) := by interval_cases a <;> rfl

section
variable {k c tag : Nat} {p : Path} {s : State}

/-! ### OVERLAY_WRITE (R595) -/

section
variable {j xy wh o : Word} {r : Req} {tok : Bool}

theorem overlayWrite_act_stores (hheld : holdsBulk r.path s = true) (hon : vfOn k s = true)
    (hw : r.w 2 / 65536 + r.w 3 / 65536 ≤ cfgN F.VF_OVL_W (ovl k (r.w 1)) s)
    (hh : r.w 2 % 65536 + r.w 3 % 65536 ≤ cfgN F.VF_OVL_H (ovl k (r.w 1)) s)
    (hend : r.w 4 + 4 * (r.w 3 / 65536) * (r.w 3 % 65536) ≤ 0x100000) :
    (overlayWriteMsg k).act r tok s = (.accept [], writeOverlay k (r.w 1) (r.w 2 / 65536) (r.w 2 % 65536) (r.w 3 / 65536)
      (r.w 3 % 65536) (r.w 4) s) := by
  simp [overlayWriteMsg, hheld, hon, Nat.not_lt.mpr hw, Nat.not_lt.mpr hh, Nat.not_lt.mpr hend]

theorem overlayWrite_act_beyond (hheld : holdsBulk r.path s = true)
    (hw : cfgN F.VF_OVL_W (ovl k (r.w 1)) s < r.w 2 / 65536 + r.w 3 / 65536) :
    (overlayWriteMsg k).act r tok s = (.refuse 7 0 0, s) := by
  simp [overlayWriteMsg, hheld, hw]

section
variable (hk : k < 2) (hc : c < 14) (ha : AtFront c p (0x1108 + k) tag [j, xy, wh, o] s) (hs : Started s)
  (hb : hasBlk .media s = true) (hj : j.toNat < 4)
include hk hc ha hs hb hj

theorem overlayWrite_run : runReq (some (overlayWriteMsg k)) (request1 c p (0x1108 + k) tag [j, xy, wh, o]) none (popMsg c s) =
    (overlayWriteMsg k).act (request1 c p (0x1108 + k) tag [j, xy, wh, o]) false (popMsg c s) := by
  have hmasks : reservedSet (overlayWriteMsg k).masks [j, xy, wh, o] = false := by
    have h1 : j.toNat &&& 3 = j.toNat := and_mask (k := 2) rfl hj
    simp [overlayWriteMsg, reservedSet, and_full, h1]
  exact runReq_started (d := overlayWriteMsg k) ha hc (by omega) (by omega) (by simp) hs hb rfl hmasks rfl rfl rfl rfl
    PrivRule.noConfusion

theorem overlayWrite_refused (hheld : holdsBulk p s = true) (hw : cfgN F.VF_OVL_W (ovl k j.toNat) s < xy.toNat / 65536 + wh.toNat / 65536) :
    exec (.overlayWrite c) s = .next (refused (request1 c p (0x1108 + k) tag [j, xy, wh, o]) 7 0 0 (popMsg c s)) :=
  runRow_refuses7 ha (by omega) (by simp) (msgDef_overlayWrite hk) (inFamily_front ha (by omega) (by simp) (by omega)) rfl
    (overlayWrite_run hk hc ha hs hb hj)
    (overlayWrite_act_beyond (s := popMsg c s) (r := request1 c p (0x1108 + k) tag [j, xy, wh, o]) hheld hw)

theorem overlayWrite_stores (hheld : holdsBulk p s = true) (hon : vfOn k s = true)
    (hw : xy.toNat / 65536 + wh.toNat / 65536 ≤ cfgN F.VF_OVL_W (ovl k j.toNat) s)
    (hh : xy.toNat % 65536 + wh.toNat % 65536 ≤ cfgN F.VF_OVL_H (ovl k j.toNat) s)
    (hend : o.toNat + 4 * (wh.toNat / 65536) * (wh.toNat % 65536) ≤ 0x100000) :
    exec (.overlayWrite c) s = .next (replied (request1 c p (0x1108 + k) tag [j, xy, wh, o]) [] (writeOverlay k j.toNat
      (xy.toNat / 65536) (xy.toNat % 65536) (wh.toNat / 65536) (wh.toNat % 65536) o.toNat (popMsg c s))) :=
  runRow_accepts ha (by omega) (by simp) (msgDef_overlayWrite hk) (inFamily_front ha (by omega) (by simp) (by omega)) rfl
    (overlayWrite_run hk hc ha hs hb hj)
    (overlayWrite_act_stores (s := popMsg c s) (r := request1 c p (0x1108 + k) tag [j, xy, wh, o]) hheld hon hw hh hend) rfl

end

end

/-! ### REFRESH (R596) -/

section
variable (hk : k < 2) (hc : c < 14) (ha : AtFront c p (0x1110 + k) tag [] s) (hs : Started s) (hb : hasBlk .media s = true)
include hk hc ha hs hb

/-- A port in use has all its tiles dirty, another refuses. -/
theorem refresh_answers :
    (vfOn k s = true → exec (.refresh c) s = .next (replied (request1 c p (0x1110 + k) tag []) [] (dirtyAll k (popMsg c s)))) ∧
    (¬ vfOn k s = true → exec (.refresh c) s = .next (refused (request1 c p (0x1110 + k) tag []) 7 0 0 (popMsg c s))) := by
  refine runRow_accepts_if (q := vfOn k s = true) ha (by omega) (by simp) (msgDef_refresh hk)
    (inFamily_front ha (by omega) (by simp) (by omega)) rfl
    (runReq_started (d := refreshMsg k) ha hc (by omega) (by omega) (by simp) hs hb rfl rfl rfl rfl rfl rfl PrivRule.noConfusion)
    ?_ rfl
  have hpop : vfOn k (popMsg c s) = vfOn k s := rfl
  cases hon : vfOn k s <;> simp [refreshMsg, hpop, hon]

end

/-! ### START_AND_STOP (R614) -/

section
variable {a : Nat} {w : Word} (hk : a < 8) (hc : c < 14) (ha : AtFront c p (0x1208 + a) tag [w] s) (hs : Started s)
  (hb : hasBlk .media s = true) (hw : w.toNat < 2)
include hk hc ha hs hb hw

/-- A port in use starts or stops, another refuses. -/
theorem startAndStop_answers :
    (audOn a s = true → exec (.startAndStop c) s =
      .next (replied (request1 c p (0x1208 + a) tag [w]) [] (runAudio (w.toNat == 1) a (popMsg c s)))) ∧
    (¬ audOn a s = true →
      exec (.startAndStop c) s = .next (refused (request1 c p (0x1208 + a) tag [w]) 7 0 0 (popMsg c s))) := by
  refine runRow_accepts_if (q := audOn a s = true) ha (by omega) (by simp) (msgDef_startStop hk)
    (inFamily_front ha (by omega) (by simp) (by omega)) rfl
    (runReq_started (d := startStopMsg a) ha hc (by omega) (by omega) (by simp) hs hb rfl
      (reservedSet_mask (and_mask (k := 1) rfl hw)) rfl rfl rfl rfl PrivRule.noConfusion)
    ?_ (mbx_of_mailPower (runAudio_mailPower ..))
  have hpop : audOn a (popMsg c s) = audOn a s := rfl
  have hword : (request1 c p (0x1208 + a) tag [w]).w 1 = w.toNat := rfl
  cases hon : audOn a s <;> simp [startStopMsg, hpop, hon, hword]

end

/-! ### BLOCK_WRITE of one block (R611) -/

section
variable {a first : Nat}

theorem modAud_mbx (f : Audio → Audio) : (modAud a f s).mbx = s.mbx := rfl

theorem hasBegun_popMsg : hasBegun a first (popMsg c s) = hasBegun a first s := rfl

theorem bulkBlock_popMsg : bulkBlock 0 first (popMsg c s) = bulkBlock 0 first s := rfl

theorem writeBlocks_one_begun (h : hasBegun a first s = true) :
    writeBlocks a first 1 0 0 s = (0, modAud a (fun x => { x with skipped := wrapInc 32 x.skipped }) s) := by
  simp [writeBlocks, h]

theorem writeBlocks_one_new (h : hasBegun a first s = false) (hring : (audOf a s).ring = []) (hroom : 0 < cfgN F.AUD_BUFS a s) :
    writeBlocks a first 1 0 0 s = (1, modAud a (fun x => { x with ring := [bulkBlock 0 first s] }) s) := by
  simp [writeBlocks, h, hring, Nat.pos_iff_ne_zero.mp hroom]

theorem blockWrite_act {r : Req} {tok : Bool} (hheld : holdsBulk r.path s = true) (hon : audOn a s = true)
    (hdir : cfgB F.AUD_DIR a s = true) (hsrc : cfgB F.AUD_SRC a s = false) (hn : r.w 3 = 1) :
    (blockWriteMsg a).act r tok s = (.accept [(writeBlocks a (r.w 1 + r.w 2 * 2 ^ 32) 1 0 0 s).1],
      (writeBlocks a (r.w 1 + r.w 2 * 2 ^ 32) 1 0 0 s).2) := by
  simp [blockWriteMsg, hheld, hon, hdir, hsrc, hn]

section
variable {b0 b1 : Word} {x : Nat × State} (hk : a < 8) (hc : c < 14) (ha : AtFront c p (0x1210 + a) tag [b0, b1, 1] s)
  (hs : Started s) (hb : hasBlk .media s = true) (hheld : holdsBulk p s = true) (hon : audOn a s = true)
  (hdir : cfgB F.AUD_DIR a s = true) (hsrc : cfgB F.AUD_SRC a s = false)
include hk hc ha hs hb hheld hon hdir hsrc

/-- A write of one block to an output in use answers how many it took. -/
theorem blockWrite_answers (hx : writeBlocks a (b0.toNat + b1.toNat * 2 ^ 32) 1 0 0 (popMsg c s) = x)
    (hmbx : x.2.mbx = (popMsg c s).mbx) :
    exec (.blockWrite c) s = .next (replied (request1 c p (0x1210 + a) tag [b0, b1, 1]) [x.1] x.2) := by
  have hmasks : reservedSet (blockWriteMsg a).masks [b0, b1, 1] = false := by
    simp [blockWriteMsg, reservedSet, and_full]
  subst hx
  exact runRow_accepts ha (by omega) (by simp) (msgDef_blockWrite hk) (inFamily_front ha (by omega) (by simp) (by omega)) rfl
    (runReq_started (d := blockWriteMsg a) ha hc (by omega) (by omega) (by simp) hs hb rfl hmasks rfl rfl rfl rfl
      PrivRule.noConfusion)
    (blockWrite_act (s := popMsg c s) (r := request1 c p (0x1210 + a) tag [b0, b1, 1]) hheld hon hdir hsrc rfl) hmbx

theorem blockWrite_takes (hnew : hasBegun a (b0.toNat + b1.toNat * 2 ^ 32) s = false) (hring : (audOf a s).ring = [])
    (hroom : 0 < cfgN F.AUD_BUFS a s) (hlen : a < s.out.audio.length) :
    ∃ u, exec (.blockWrite c) s = .next (replied (request1 c p (0x1210 + a) tag [b0, b1, 1]) [1] u) ∧
      (audOf a u).ring = [bulkBlock 0 (b0.toNat + b1.toNat * 2 ^ 32) s] := by
  have hone := writeBlocks_one_new (s := popMsg c s) (hasBegun_popMsg.trans hnew) hring hroom
  have hexec := blockWrite_answers hk hc ha hs hb hheld hon hdir hsrc hone
  refine ⟨_, hexec (modAud_mbx _), ?_⟩
  rw [audOf_modAud (s := popMsg c s) hlen, bulkBlock_popMsg]

theorem blockWrite_skips (hbegun : hasBegun a (b0.toNat + b1.toNat * 2 ^ 32) s = true) :
    exec (.blockWrite c) s = .next (replied (request1 c p (0x1210 + a) tag [b0, b1, 1]) [0]
      (modAud a (fun x => { x with skipped := wrapInc 32 x.skipped }) (popMsg c s))) := by
  have hone := writeBlocks_one_begun (s := popMsg c s) (hasBegun_popMsg.trans hbegun)
  have hexec := blockWrite_answers hk hc ha hs hb hheld hon hdir hsrc hone
  exact hexec (modAud_mbx _)

end

end

end

/-- Settles O35: each request passes R809's checks, and its action looks at the port and the window. -/
theorem viewAndAudioMessages : Obligations.ViewAndAudioMessages := by
  refine ⟨fun k c tag j xy wh o p s hk hc ha hs hb hj hheld hon =>
      ⟨overlayWrite_stores hk hc ha hs hb hj hheld hon, overlayWrite_refused hk hc ha hs hb hj hheld⟩,
    fun k c tag p s hk hc ha hs hb => ?refresh, fun a c tag w p s hk hc ha hs hb hw => ?startStop,
    fun a c tag b0 b1 p s hk hc ha hs hb hheld hon hdir hsrc hlen =>
      ⟨fun hnew hring hroom => blockWrite_takes hk hc ha hs hb hheld hon hdir hsrc hnew hring hroom hlen,
        blockWrite_skips hk hc ha hs hb hheld hon hdir hsrc⟩⟩
  case refresh =>
    obtain ⟨hyes, hno⟩ := refresh_answers hk hc ha hs hb
    exact ⟨hyes, fun h => hno (by simp [h])⟩
  case startStop =>
    obtain ⟨hyes, hno⟩ := startAndStop_answers hk hc ha hs hb hw
    exact ⟨hyes, fun h => hno (by simp [h])⟩

end Sys2Proof.Proofs

/-! PROOFS. EVENT_LOG_READ at the end of the bulk window (R698): the offset 0x100000 is refused as malformed. -/

namespace Sys2Proof.Proofs
open Sys2Proof Sys2Proof.Machine Sys2Proof.Laws

/-- A started role whose PCIe view holds the bulk window and asks, on channel 1, for 9 log entries at the offset 0x100000. -/
def readsAtEnd : State :=
  { State.reset with
    dev := { state := .running, powered := true, resetLow := false }
    mbx := { State.reset.mbx with
      holder := some .pcie
      chans := State.reset.mbx.chans.set 1 { inq := [⟨.regs .pcie, header 0x1500 5 7 :: [0, 0, 9, 0x100000]⟩] } } }

theorem readsAtEnd_front : AtFront 1 (.regs .pcie) 0x1500 7 [0, 0, 9, 0x100000] readsAtEnd :=
  ⟨⟨[], rfl, by simp⟩, by decide +kernel, by decide +kernel⟩

theorem readsAtEnd_started : Started readsAtEnd := ⟨rfl, rfl, rfl, rfl, rfl⟩

theorem readsAtEnd_refused : exec (.eventLogRead 1) readsAtEnd =
    .next (refused (request1 1 (.regs .pcie) 0x1500 7 [0, 0, 9, 0x100000]) 2 0 0 (popMsg 1 readsAtEnd)) := by
  have hform : malformed eventLogReadMsg (request1 1 (.regs .pcie) 0x1500 7 [0, 0, 9, 0x100000]) (popMsg 1 readsAtEnd) = true := by
    have hbad : eventLogReadMsg.bad (request1 1 (.regs .pcie) 0x1500 7 [0, 0, 9, 0x100000]) (popMsg 1 readsAtEnd) = true := by
      decide +kernel
    rw [malformed_request1 _ _ (by decide) (by simp), hbad, Bool.or_true]
  exact runRow_of_malformed (d := eventLogReadMsg) readsAtEnd_front (by decide) (by decide) (by decide) (by simp) rfl
    (isCode_front readsAtEnd_front (by decide) (by simp)) rfl rfl hform

/-- A refusal is counted, a reply is not: on a channel that refused nothing the two differ. -/
theorem refused_ne_replied {r : Req} {rep : List Nat} {s u : State} {cls err detail : Nat} (hr : r.chan < s.mbx.chans.length)
    (hs : (s.mbx.chans.getD r.chan {}).refusals = 0) (hu : u.mbx.chans = s.mbx.chans) :
    refused r cls err detail s ≠ replied r rep u := by
  intro h
  have hcount := congrArg (fun t : State => (t.mbx.chans.getD r.chan {}).refusals) h
  have hru : r.chan < u.mbx.chans.length := by rw [hu]; exact hr
  simp only [refused, replied, deliver_chans, modChan] at hcount
  rw [getD_modAt _ _ _ _ hr, getD_modAt _ _ _ _ hru, hu, hs] at hcount
  exact Nat.one_ne_zero (show 1 = 0 from hcount)

/-- Refutes O36: its first clause lets the offset be 0x100000, where no entry fits, and the request is refused with class 2. -/
theorem not_headframeMessages : ¬ Obligations.HeadframeMessages := by
  intro h
  obtain ⟨hread, -⟩ := h
  obtain ⟨l, rep, -, -, -, hexec⟩ := hread 1 7 0 0 9 0x100000 (.regs .pcie) readsAtEnd (by decide) readsAtEnd_front
    readsAtEnd_started (by decide) (by decide) (by decide) (by decide +kernel)
  rw [readsAtEnd_refused] at hexec
  injection hexec with hexec
  exact refused_ne_replied (by decide +kernel) (by decide +kernel) rfl hexec

end Sys2Proof.Proofs

/-! PROOFS. The messages of the security block: attestation report, certificate read and the first owner key (R738 to R743). -/

namespace Sys2Proof.Proofs
open Sys2Proof Sys2Proof.Machine Sys2Proof.Laws

section
variable {c tag : Nat} {p : Path} {o : Word} {s : State}

/-! ### ATTESTATION_REPORT (R743) -/

/-- The report's fields are no part of what a message waits in. -/
theorem attestation_popMsg (b : List Byte) : attestation b (popMsg c s) = attestation b s := rfl

section
variable {n0 n1 n2 n3 : Word} {r : Req} {tok : Bool}

theorem attestation_act_writes (hheld : holdsBulk r.path s = true) :
    attestationMsg.act r tok s =
      (.accept [368], drawOne (writeBulk (r.w 5) (attestation (wordBytes ((r.words.drop 1).take 4)) s) s)) := by
  simp [attestationMsg, hheld]

theorem attestation_act_refuses (hfree : holdsBulk r.path s = false) : attestationMsg.act r tok s = (.refuse 5 0 0, s) := by
  simp [attestationMsg, hfree]

section
variable (hc : c < 14) (ha : AtFront c p 0x1600 tag [n0, n1, n2, n3, o] s) (hs : Started s) (halign : o.toNat % 64 = 0)
  (hend : o.toNat + 368 ≤ 0x100000)
include hc ha hs halign hend

theorem attestation_run : runReq (some attestationMsg) (request1 c p 0x1600 tag [n0, n1, n2, n3, o]) none (popMsg c s) =
    attestationMsg.act (request1 c p 0x1600 tag [n0, n1, n2, n3, o]) false (popMsg c s) := by
  have hform : attestationMsg.bad (request1 c p 0x1600 tag [n0, n1, n2, n3, o]) (popMsg c s) = false := by
    change (o.toNat % 64 != 0 || decide (0x100000 < o.toNat + 368)) = false
    simp only [halign, bne_self_eq_false, Bool.false_or, decide_eq_false_iff_not]
    omega
  exact runReq_started (d := attestationMsg) ha hc (by decide) (by decide) (by simp) hs (hasBlk_always s) rfl rfl hform rfl rfl rfl
    PrivRule.noConfusion

theorem attestationReport_writes (hheld : holdsBulk p s = true) :
    exec (.attestationReport c) s = .next (replied (request1 c p 0x1600 tag [n0, n1, n2, n3, o]) [368]
      (drawOne (writeBulk o.toNat (attestation (wordBytes [n0, n1, n2, n3]) s) (popMsg c s)))) := by
  have hact := attestation_act_writes (s := popMsg c s) (r := request1 c p 0x1600 tag [n0, n1, n2, n3, o]) (tok := false) hheld
  rw [attestation_popMsg] at hact
  exact runRow_replies ha (by decide) (by simp) rfl (isCode_front ha (by decide) (by simp)) rfl
    ((attestation_run hc ha hs halign hend).trans hact) rfl

theorem attestationReport_refused (hfree : holdsBulk p s = false) :
    exec (.attestationReport c) s = .next (refused (request1 c p 0x1600 tag [n0, n1, n2, n3, o]) 5 0 0 (popMsg c s)) :=
  runRow_refuses ha (by decide) (by simp) rfl (isCode_front ha (by decide) (by simp)) rfl (by decide)
    ((attestation_run hc ha hs halign hend).trans (attestation_act_refuses (s := popMsg c s) hfree))

end

end

/-! ### CERTIFICATE_READ (R741) -/

section
variable {r : Req} {tok : Bool}

theorem certificate_act_copies (hheld : holdsBulk r.path s = true) :
    certificateMsg.act r tok s = (.accept [s.otp.cert.length], writeBulk (r.w 1) s.otp.cert s) := by
  simp [certificateMsg, hheld]

theorem certificate_act_refuses (hfree : holdsBulk r.path s = false) : certificateMsg.act r tok s = (.refuse 5 0 0, s) := by
  simp [certificateMsg, hfree]

section
variable (hc : c < 14) (ha : AtFront c p 0x1601 tag [o] s) (hs : Started s) (hend : o.toNat + 248 ≤ 0x100000)
include hc ha hs hend

theorem certificate_run : runReq (some certificateMsg) (request1 c p 0x1601 tag [o]) none (popMsg c s) =
    certificateMsg.act (request1 c p 0x1601 tag [o]) false (popMsg c s) :=
  runReq_started (d := certificateMsg) ha hc (by decide) (by decide) (by simp) hs (hasBlk_always s) rfl rfl
    (decide_eq_false (Nat.not_lt.mpr hend)) rfl rfl rfl PrivRule.noConfusion

theorem certificateRead_copies (hheld : holdsBulk p s = true) :
    exec (.certificateRead c) s = .next (replied (request1 c p 0x1601 tag [o]) [s.otp.cert.length]
      (writeBulk o.toNat s.otp.cert (popMsg c s))) :=
  runRow_replies ha (by decide) (by simp) rfl (isCode_front ha (by decide) (by simp)) rfl
    ((certificate_run hc ha hs hend).trans (certificate_act_copies (s := popMsg c s) hheld)) rfl

theorem certificateRead_refused (hfree : holdsBulk p s = false) :
    exec (.certificateRead c) s = .next (refused (request1 c p 0x1601 tag [o]) 5 0 0 (popMsg c s)) :=
  runRow_refuses ha (by decide) (by simp) rfl (isCode_front ha (by decide) (by simp)) rfl (by decide)
    ((certificate_run hc ha hs hend).trans (certificate_act_refuses (s := popMsg c s) hfree))

end

end

/-! ### OWNER_KEY_INSTALL (R738, R739) -/

section
variable {r : Req} {tok : Bool}

/-- A key on the curve in a window the path holds is well-formed. -/
theorem keyInstall_bad (hend : r.w 2 + 64 ≤ 0x100000)
    (hcurve : onCurve (keyPoint (readBulk (r.w 2) 64 s)).1 (keyPoint (readBulk (r.w 2) 64 s)).2 = true) :
    keyInstallMsg.bad r s = false := by
  simp only [keyInstallMsg, installKey, hcurve, Bool.not_true, Bool.and_false, Bool.or_false, decide_eq_false_iff_not]
  omega

/-- An empty slot takes the hash of the key in the window, once its OTP write is done. -/
theorem keyInstall_act (hheld : holdsBulk r.path s = true) (hempty : (ownerSlot (r.w 1) s).state = 0) :
    keyInstallMsg.act r tok s =
      (.accept [], { s with otp := { s.otp with
        queue := s.otp.queue ++ [.install (r.w 1) (sha256 (readBulk (r.w 2) 64 s))] } }) := by
  simp [keyInstallMsg, hheld, hempty, queueOtp, modOtp, installKey]

end

/-- The first key of an unowned device comes over SPI without a token. -/
theorem ownerKeyInstall_first (hc : c < 14) (ha : AtFront c (.regs .spi) 0x1602 tag [0, o] s) (hs : Started s)
    (hun : unowned s = true) (hend : o.toNat + 64 ≤ 0x100000) (hheld : holdsBulk (.regs .spi) s = true)
    (hempty : (ownerSlot 0 s).state = 0)
    (hcurve : onCurve (keyPoint (readBulk o.toNat 64 s)).1 (keyPoint (readBulk o.toNat 64 s)).2 = true) :
    exec (.ownerKeyInstall c) s = .next (replied (request1 c (.regs .spi) 0x1602 tag [0, o]) [] { popMsg c s with
      otp := { s.otp with queue := s.otp.queue ++ [.install 0 (sha256 (readBulk o.toNat 64 s))] } }) := by
  have hmasks : reservedSet keyInstallMsg.masks [0, o] = false := by simp [keyInstallMsg, reservedSet, and_full]
  have hfree : keyInstallMsg.privFree (request1 c (.regs .spi) 0x1602 tag [0, o]) (popMsg c s) = true := by
    change (unowned s && 0 == 0 && Path.regs .spi == Path.regs .spi) = true
    rw [hun]
    rfl
  refine (runPriv_front ha (by decide) (by simp) rfl).trans ?_
  exact runRow_started (d := keyInstallMsg) ha (by decide) (by simp) rfl (routed_of_lt hc (by decide)) hs (hasBlk_always s) rfl hmasks
    (keyInstall_bad (s := popMsg c s) hend hcurve) rfl rfl rfl (.inr hfree)
    (keyInstall_act (s := popMsg c s) (r := request1 c (.regs .spi) 0x1602 tag [0, o]) hheld hempty) rfl rfl _
    (isCode_front ha (by decide) (by simp))

end

/-- Settles O37: each request passes R809's checks, and whether its path holds the window selects its answer. -/
theorem securityMessages : Obligations.SecurityMessages := by
  refine ⟨fun c tag n0 n1 n2 n3 o p s hc ha hs halign hend =>
      ⟨fun hheld => ⟨_, attestationReport_writes hc ha hs halign hend hheld, rfl⟩, attestationReport_refused hc ha hs halign hend⟩,
    fun b s => ⟨_, rfl, rfl⟩,
    fun c tag o p s hc ha hs hend => ⟨certificateRead_copies hc ha hs hend, certificateRead_refused hc ha hs hend⟩,
    fun c tag o s hc ha hs hun hend hheld hempty hcurve => ownerKeyInstall_first hc ha hs hun hend hheld hempty hcurve⟩

end Sys2Proof.Proofs

/-! PROOFS. Requests that open a token sequence: every privileged row holds its request (R692, R695, R696). -/

namespace Sys2Proof.Proofs
open Sys2Proof Sys2Proof.Machine Sys2Proof.Laws

section
variable {c k tag : Nat} {p : Path} {args : List Word} {s : State}

theorem requestP_code (hk : k < 65536) (hn : args.length < 15) : (requestP c p k tag args).code = k := by
  obtain ⟨hcode, -⟩ := hdr_privHeader (tag := tag) (n := args.length + 1) hk (by omega)
  exact hcode

theorem privFront_head (ha : PrivAtFront c p k tag args s) : headMsg c s = some (requestP c p k tag args) := by
  obtain ⟨⟨rest, hq, -⟩, -, -⟩ := ha
  unfold headMsg
  rw [hq]
  rfl

theorem privFront_stops (ha : PrivAtFront c p k tag args s) (hk : k < 65536) (hn : args.length < 15)
    (hd : (msgDef k).isSome = true) : Stops c s := by
  obtain ⟨⟨rest, hq, -⟩, -, -⟩ := ha
  intro m hm
  rw [hq] at hm
  cases hm
  exact .inl ((congrArg (fun x => (msgDef x).isSome) (requestP_code (c := c) (p := p) hk hn)).trans hd)

/-- A privileged row has nothing to do with a token part at this front: it runs as every row does. -/
theorem runPriv_privFront (j : Nat) (ha : PrivAtFront c p k tag args s) (hk : k < 65536) (hn : args.length < 15)
    (hd : (msgDef k).isSome = true) : runPriv j c s = runRow (isCode j) c s := by
  have h0 : k ≠ 0x1410 := by rintro rfl; cases hd
  unfold runPriv heldCode
  rw [screen_stops (privFront_stops ha hk hn hd), privFront_head ha]
  simp [requestP_code hk hn, h0]

/-- A request with PRIV and MORE whose message may carry a token is held. -/
theorem takeMsg_holds (ha : PrivAtFront c p k tag args s) (hk : k < 65536) (hn : args.length < 15)
    (hmay : mayPriv (msgDef k) = true) :
    takeMsg (msgDef k) (requestP c p k tag args) (popMsg c s) = holdSeq (requestP c p k tag args) (popMsg c s) := by
  obtain ⟨-, -, ho⟩ := ha
  have hpop : openSeq c p (popMsg c s) = none :=
    (openSeq_congr (modChan_held (f := fun ch => { ch with inq := ch.inq.drop 1 }) (fun _ => rfl) c c s)).trans ho
  have hend : endSeq c p (popMsg c s) = popMsg c s := by
    unfold endSeq
    rw [hpop]
  obtain ⟨-, -, hreply, hpriv, herror, hmore⟩ := hdr_privHeader (tag := tag) (n := args.length + 1) hk (by omega)
  have hw : (requestP c p k tag args).w 0 = (privHeader k (args.length + 1) tag).toNat := rfl
  unfold takeMsg
  rw [hw, hmay, hpriv, hmore, hreply, herror]
  exact congrArg (holdSeq (requestP c p k tag args)) hend

/-- A privileged row takes such a request off its queue and holds it, and nothing else changes. -/
theorem runPriv_holds (ha : PrivAtFront c p k tag args s) (hn : args.length < 15) (hk : k < 65536)
    (hmay : mayPriv (msgDef k) = true) :
    runPriv k c s = .next (holdSeq (requestP c p k tag args) (popMsg c s)) := by
  have hd : (msgDef k).isSome = true := by
    cases h : msgDef k with
    | none => rw [h] at hmay; cases hmay
    | some d => rfl
  have hserves : serves c s = true := by
    obtain ⟨-, hserves, -⟩ := ha
    exact hserves
  have hstop : Stops c (holdSeq (requestP c p k tag args) (popMsg c s)) := by
    obtain ⟨⟨rest, hq, hr⟩, -, -⟩ := ha
    intro m hm
    refine hr m ?_
    rw [← popMsg_inq hq, ← hm]
    exact congrArg List.head? (modChan_inq (f := fun ch => { ch with
      held := ch.held ++ [⟨p, (requestP c p k tag args).words, [], (popMsg c s).dev.elapsed⟩] }) (fun _ => rfl) c c (popMsg c s)).symm
  have hmine : isCode k (requestP c p k tag args) = true := beq_iff_eq.mpr (requestP_code hk hn)
  rw [runPriv_privFront k ha hk hn hd]
  unfold runRow runHead
  rw [screen_stops (privFront_stops ha hk hn hd)]
  simp only [privFront_head ha, hserves, hmine, Bool.and_self, if_true, requestP_code hk hn, takeMsg_holds ha hk hn hmay,
    screen_stops hstop]

end

/-- Settles O21: the rows named run one operation, and each message named may carry a token. -/
theorem privilegedRequestsAreHeld : Obligations.PrivilegedRequestsAreHeld := by
  intro c tag p args s hn
  have hold : ∀ k, k < 65536 → mayPriv (msgDef k) = true → PrivAtFront c p k tag args s →
      runPriv k c s = .next (holdSeq (requestP c p k tag args) (popMsg c s)) :=
    fun k hk hmay ha => runPriv_holds ha hn hk hmay
  exact ⟨_, rfl, hold 0x0103 (by decide) rfl, hold 0x0904 (by decide) rfl, hold 0x0905 (by decide) rfl, hold 0x0E10 (by decide) rfl,
    hold 0x0E11 (by decide) rfl, hold 0x0F08 (by decide) rfl, hold 0x1002 (by decide) rfl, hold 0x1511 (by decide) rfl,
    hold 0x1520 (by decide) rfl, hold 0x1602 (by decide) rfl, hold 0x1603 (by decide) rfl, hold 0x1604 (by decide) rfl,
    hold 0x0102 (by decide) rfl, hold 0x0104 (by decide) rfl⟩

end Sys2Proof.Proofs

/-! PROOFS. The last part of a valid token runs the request it authorises (R692, R694). -/

namespace Sys2Proof.Proofs
open Sys2Proof Sys2Proof.Machine Sys2Proof.Laws

/-! ### A row that the last part of a token runs -/

section
variable {c k tag : Nat} {p : Path} {args ws : List Word} {s u : State} {d : MsgDef} {rep : List Nat}

/-- TOKEN_PART and the held request's own row run the request in a started role, where its chapter's checks pass. -/
theorem runPriv_token (ha : LastPart c p k tag args ws s) (hk : k < 65536) (hn : args.length < 15) (hd : msgDef k = some d)
    (hroute : routed c k = true) (hs : Started s) (hb : hasBlk d.blk s = true) (hcount : d.count (args.length + 1) = true)
    (hres : reservedSet d.masks args = false) (hpriv : d.priv ≠ .never)
    (hknown : d.unknown (requestP c p k tag args) (tokenDone c p ws s) = false)
    (hbad : d.bad (requestP c p k tag args) (tokenDone c p ws s) = false)
    (hlog : d.badLog (requestP c p k tag args) (tokenDone c p ws s) = none)
    (hdeny : d.deny (requestP c p k tag args) (tokenDone c p ws s) = false)
    (hact : d.act (requestP c p k tag args) true (tokenDone c p ws s) = (.accept rep, u)) (hans : d.answered = true)
    (hu : u.mbx.chans = (tokenDone c p ws s).mbx.chans) :
    execTokenPart c s = runPriv k c s ∧ runPriv k c s = .next (replied (requestP c p k tag args) rep u) := by
  have hdone : Started (tokenDone c p ws s) := hs
  have hrow : runPriv k c s = execTokenPart c s := runPriv_last ha hk hn
  have hden : denied d (requestP c p k tag args) (tokenDone c p ws s) = false := (denied_of_started hdone hb _).trans hdeny
  have hrun := tokenPart_runs ha hk hn hd hroute hcount hres hpriv hknown hbad hlog hden hact hans (by rw [hu])
  exact ⟨hrow.symm, hrow.trans hrun⟩

end

/-! ### What the effects leave of the mailboxes -/

theorem formatVolume_mbx (n : Nat) (s : State) : (formatVolume n s).mbx = s.mbx := by
  unfold formatVolume
  dsimp only
  split
  · exact raise_mbx ..
  · refine (acquireVolume_mbx ..).trans ?_
    exact List.foldlRecOn (motive := fun t : State => t.mbx = s.mbx) _ _ rfl fun _ ht _ _ => ht

theorem noticeNs_mbx (s : State) : (noticeNs s).mbx = s.mbx := mbx_of_mailPower (noticeNs_mailPower s)

/-- Marking granules as changed leaves the map and the mailboxes. -/
theorem markChanged_foldl (l : List (Nat × LodeEntry)) (s : State) :
    (l.foldl (fun u e => markChanged e.1 u) s).mbx = s.mbx ∧ (l.foldl (fun u e => markChanged e.1 u) s).rcd.map = s.rcd.map := by
  induction l generalizing s with
  | nil => exact ⟨rfl, rfl⟩
  | cons e l ih => exact ih (markChanged e.1 s)

/-- A clip's granules are freed: what a deletion does before it notes what changed. -/
def freeClip (n : Nat) (s : State) : State :=
  modRec (fun r => { r with
    map := r.map.filter fun e => !(e.2.clip == n)
    freeing := r.freeing ++ (clipGrans n s).map fun e => (e.1, e.2.ssd, e.2.slot) }) (walk true ((clipGrans n s).map (·.1)) s)

theorem deleteClip_eq (n : Nat) (s : State) : deleteClip n s =
    putClip n (sealDir (leBytes 4 0x4C435652 ++ leBytes 4 n)) ((clipGrans n s).foldl (fun u e => markChanged e.1 u) (freeClip n s)) := rfl

theorem deleteClip_mbx (n : Nat) (s : State) : (deleteClip n s).mbx = s.mbx := by
  obtain ⟨hmbx, -⟩ := markChanged_foldl (clipGrans n s) (freeClip n s)
  rw [deleteClip_eq, putClip_mbx, hmbx]
  rfl

/-- No granule is left to a deleted clip (R346). -/
theorem deleteClip_map (n : Nat) (s : State) : ∀ e ∈ (deleteClip n s).rcd.map, e.2.clip ≠ n := by
  obtain ⟨-, hmap⟩ := markChanged_foldl (clipGrans n s) (freeClip n s)
  have heq : (deleteClip n s).rcd.map = (freeClip n s).rcd.map := hmap
  intro e he
  rw [heq] at he
  simpa using (List.mem_filter.mp he).2

/-- A restart ends the open sequences and keeps the messages waiting. -/
theorem restartDevice_inq (c : Nat) (s : State) :
    ((restartDevice s).mbx.chans.getD c {}).inq = (s.mbx.chans.getD c {}).inq := by
  change ((s.mbx.chans.map fun x : Chan => { x with held := [] }).getD c {}).inq = _
  rw [List.getD_eq_getElem?_getD, List.getD_eq_getElem?_getD, List.getElem?_map]
  cases s.mbx.chans[c]? <;> rfl

/-- The island's settings written and noted in its log (R555, R556). -/
def settledIsland (v0 v1 : Nat) (t : State) : State :=
  islandLog 0x0F08 [v0, v1]
    { t with islNv := { t.islNv with cfg := setWord (wordKey 0x0F00 0) v0 (setWord (wordKey 0x0F00 1) v1 t.islNv.cfg) } }

theorem signAll_mbx (flags : Nat) (start : Bool) (ns : List Nat) (s : State) : (signAll flags start ns s).mbx = s.mbx :=
  List.foldlRecOn (motive := fun t : State => t.mbx = s.mbx) _ _ rfl fun _ ht _ _ =>
    (mbx_of_mailFailed (signSeam_mailFailed ..)).trans ht

/-! ### Each message -/

section
variable {c tag : Nat} {p : Path} {w w0 w1 w2 w3 : Word} {ws : List Word} {s : State}

theorem restart_token (hc : c < 14) (ha : LastPart c p 0x0103 tag [] ws s) (hrun : s.dev.state = .running)
    (hoff : s.pwr.thermallyOff = false) :
    exec (.tokenPart c) s = .next (replied (requestP c p 0x0103 tag []) [] (restartDevice (tokenDone c p ws s))) := by
  have hdev : (tokenDone c p ws s).dev.state = .running := hrun
  have hpwr : (tokenDone c p ws s).pwr.thermallyOff = false := hoff
  have hden : denied restartMsg (requestP c p 0x0103 tag []) (tokenDone c p ws s) = false := by
    simp [denied, hdev, hpwr, hasBlk_always, restartMsg, suspendKeeps]
  have hact : restartMsg.act (requestP c p 0x0103 tag []) true (tokenDone c p ws s) =
      (.accept [], restartDevice (tokenDone c p ws s)) := by
    simp [restartMsg, hpwr]
  exact tokenPart_runs ha (by decide) (by simp) rfl (routed_of_lt hc (by decide)) rfl rfl PrivRule.noConfusion rfl rfl rfl hden hact
    rfl (restartDevice_inq c _)

theorem formatVolume_token (hc : c < 14) (ha : LastPart c p 0x0904 tag [w] ws s) (hs : Started s) (hw : w.toNat < 65536)
    (hrec : recOn s = true) (hclip : s.rcd.clip = none) (hmay : mayWrite s = true) (hstuck : s.rcd.stuck = false)
    (hports : maskPorts s ≠ []) (hok : ∀ k ∈ maskPorts s, (ssdOf k s).present = true ∧ (ssdOf k s).failed = false ∧
      ssdUsable (cfgB F.REC_VOL_DUAL_PORT 0 s) (ssdOf k s) = true) :
    execTokenPart c s = runPriv 0x0904 c s ∧ runPriv 0x0904 c s = .next (replied (requestP c p 0x0904 tag [w]) []
      (noticeNs (formatVolume w.toNat (tokenDone c p ws s)))) := by
  have hb : hasBlk .recorder s = true := by
    simp only [recOn, blkOn, Bool.and_eq_true] at hrec
    obtain ⟨⟨⟨⟨⟨-, hb⟩, -⟩, -⟩, -⟩, -⟩ := hrec
    exact hb
  have hbad : (maskPorts s).any (fun k => !(ssdOf k s).present || (ssdOf k s).failed ||
      !ssdUsable (cfgB F.REC_VOL_DUAL_PORT 0 s) (ssdOf k s)) = false := by
    rw [List.any_eq_false]
    intro k hk
    obtain ⟨hpresent, hfailed, husable⟩ := hok k hk
    simp [hpresent, hfailed, husable]
  have hempty : (maskPorts s).isEmpty = false := by simpa using hports
  have hgo : (formatVolumeMsg.act (requestP c p 0x0904 tag [w]) true (tokenDone c p ws s)) =
      (if s.rcd.clip.isSome then (.refuse 7 0 0, tokenDone c p ws s)
      else if !recOn s || !mayWrite s || s.rcd.stuck || (maskPorts s).isEmpty || ((maskPorts s).any fun k =>
        !(ssdOf k s).present || (ssdOf k s).failed || !ssdUsable (cfgB F.REC_VOL_DUAL_PORT 0 s) (ssdOf k s))
      then (.refuse 7 0 0, tokenDone c p ws s)
      else (.accept [], noticeNs (formatVolume w.toNat (tokenDone c p ws s)))) := rfl
  have hact : formatVolumeMsg.act (requestP c p 0x0904 tag [w]) true (tokenDone c p ws s) =
      (.accept [], noticeNs (formatVolume w.toNat (tokenDone c p ws s))) := by
    rw [hgo, hclip, hrec, hmay, hstuck, hempty, hbad]
    rfl
  exact runPriv_token ha (by decide) (by simp) rfl (routed_of_lt hc (by decide)) hs hb rfl
    (reservedSet_mask (and_mask (k := 16) rfl hw)) PrivRule.noConfusion rfl rfl rfl rfl hact rfl
    (congrArg Mailboxes.chans ((noticeNs_mbx _).trans (formatVolume_mbx ..)))

theorem deleteClip_token (hc : c < 14) (ha : LastPart c p 0x0905 tag [w] ws s) (hs : Started s) (hb : hasBlk .recorder s = true)
    (hw : w.toNat < 4095) (hvol : s.rcd.volume = 2) (hclip : s.rcd.clip = none) (hdir : dirState s.rcd.dir w.toNat ≠ 0) :
    execTokenPart c s = runPriv 0x0905 c s ∧ runPriv 0x0905 c s = .next (replied (requestP c p 0x0905 tag [w]) []
      (deleteClip w.toNat (tokenDone c p ws s))) := by
  have hrcd : (tokenDone c p ws s).rcd = s.rcd := rfl
  have hword : (requestP c p 0x0905 tag [w]).w 1 = w.toNat := rfl
  have hbad : deleteClipMsg.bad (requestP c p 0x0905 tag [w]) (tokenDone c p ws s) = false :=
    beq_eq_false_iff_ne.mpr (show w.toNat ≠ 4095 by omega)
  have hact : deleteClipMsg.act (requestP c p 0x0905 tag [w]) true (tokenDone c p ws s) =
      (.accept [], deleteClip w.toNat (tokenDone c p ws s)) := by
    simp [deleteClipMsg, hrcd, hword, hvol, hclip, hdir]
  exact runPriv_token ha (by decide) (by simp) rfl (routed_of_lt hc (by decide)) hs hb rfl
    (reservedSet_mask (and_mask (k := 12) rfl (by omega))) PrivRule.noConfusion rfl hbad rfl rfl hact rfl
    (congrArg Mailboxes.chans (deleteClip_mbx ..))

theorem arrayLock_token (hc : c < 14) (ha : LastPart c p 0x0E10 tag [w0, w1, w2, w3] ws s) (hs : Started s) (hw0 : w0.toNat < 65536)
    (hw3 : w3.toNat < 2 ^ 30) (htod : bits (w1.toNat + w2.toNat * 2 ^ 32 + w3.toNat * 2 ^ 64) 45 16 < 1000000000)
    (hen : cfgB F.TIME_ARRAY_ENABLE 0 s = true) (hfree : s.time.locked = false) :
    execTokenPart c s = runPriv 0x0E10 c s ∧
      runPriv 0x0E10 c s = .next (replied (requestP c p 0x0E10 tag [w0, w1, w2, w3]) [] { tokenDone c p ws s with
        time := { s.time with arrayId := w0.toNat, t0 := todUnpack (w1.toNat + w2.toNat * 2 ^ 32 + w3.toNat * 2 ^ 64), locked := true
                              exp := s.time.exp.map fun e => { e with rebase := true } } }) := by
  have hmasks : reservedSet arrayLockMsg.masks [w0, w1, w2, w3] = false := by
    have h0 : w0.toNat &&& 0xFFFF = w0.toNat := and_mask (k := 16) rfl hw0
    have h3 : w3.toNat &&& 0x3FFFFFFF = w3.toNat := and_mask (k := 30) rfl hw3
    simp [arrayLockMsg, reservedSet, and_full, h0, h3]
  have hbad : arrayLockMsg.bad (requestP c p 0x0E10 tag [w0, w1, w2, w3]) (tokenDone c p ws s) = false := by
    change (!todOk (w1.toNat + w2.toNat * 2 ^ 32 + w3.toNat * 2 ^ 64)) = false
    rw [todOk, decide_eq_true htod]
    rfl
  have hno : ¬ (!cfgB F.TIME_ARRAY_ENABLE 0 (tokenDone c p ws s) || (tokenDone c p ws s).time.locked) = true := by
    have h1 : cfgB F.TIME_ARRAY_ENABLE 0 (tokenDone c p ws s) = true := hen
    have h2 : (tokenDone c p ws s).time.locked = false := hfree
    simp [h1, h2]
  exact runPriv_token ha (by decide) (by simp) rfl (routed_of_lt hc (by decide)) hs (hasBlk_always s) rfl hmasks
    PrivRule.noConfusion rfl hbad rfl rfl (if_neg hno) rfl rfl

theorem islandSettings_token (hc : c = 15) (ha : LastPart c p 0x0F08 tag [w0, w1] ws s) (hs : Started s)
    (hrun : s.isl.running = true) (hm0 : w0.toNat &&& 0xEFF007FF = w0.toNat) (hm1 : w1.toNat % 65536 = 0)
    (he1 : 1 ≤ w0.toNat % 2048) (he2 : w0.toNat % 2048 ≤ 1024) (hp1 : 65536 ≤ w1.toNat) (hp2 : w1.toNat < 901 * 65536) :
    ∃ u : State, u.islNv.cfg = setWord (wordKey 0x0F00 0) w0.toNat (setWord (wordKey 0x0F00 1) w1.toNat
        (signAll 4 false (portSeams s) (tokenDone c p ws s)).islNv.cfg) ∧
      execTokenPart c s = runPriv 0x0F08 c s ∧
      runPriv 0x0F08 c s = .next (replied (requestP c p 0x0F08 tag [w0, w1]) [] u) := by
  subst hc
  have hmasks : reservedSet islandSettingsMsg.masks [w0, w1] = false := by
    simp [islandSettingsMsg, reservedSet, hm0, and_high w1.isLt hm1]
  have hdeny : islandSettingsMsg.deny (requestP 15 p 0x0F08 tag [w0, w1]) (tokenDone 15 p ws s) = false := by
    change (!s.isl.running) = false
    rw [hrun]
    rfl
  have hno : ¬ (bits w0.toNat 10 0 < 1 ∨ 1024 < bits w0.toNat 10 0 ∨ bits w1.toNat 31 16 < 1 ∨ 900 < bits w1.toNat 31 16) := by
    simp only [bits]
    omega
  refine ⟨settledIsland w0.toNat w1.toNat (signAll 4 false (portSeams s) (tokenDone 15 p ws s)), rfl, ?_⟩
  exact runPriv_token ha (by decide) (by simp) rfl rfl hs (hasBlk_always s) rfl hmasks PrivRule.noConfusion rfl rfl rfl hdeny
    (if_neg hno) rfl (congrArg Mailboxes.chans (signAll_mbx ..))

theorem plannedSwitchOver_token (hc : c < 14) (ha : LastPart c p 0x1002 tag [] ws s) (hs : Started s) (hrole : s.dev.role = .body)
    (hred : redOn s = true) (hst : s.red.state = 5) (hpeer : s.red.peer.map (·.state) = some 3) :
    execTokenPart c s = runPriv 0x1002 c s ∧ runPriv 0x1002 c s = .next (replied (requestP c p 0x1002 tag []) []
      { tokenDone c p ws s with red := { s.red with switchDue := true } }) := by
  have hdeny : plannedSwitchOverMsg.deny (requestP c p 0x1002 tag []) (tokenDone c p ws s) = false := by
    change (s.dev.role != .body) = false
    rw [hrole]
    rfl
  have hyes : (redOn (tokenDone c p ws s) && (tokenDone c p ws s).red.state == 5 &&
      ((tokenDone c p ws s).red.peer.map (·.state)) == some 3) = true := by
    have h1 : redOn (tokenDone c p ws s) = true := hred
    have h2 : (tokenDone c p ws s).red = s.red := rfl
    simp [h1, h2, hst, hpeer]
  exact runPriv_token ha (by decide) (by simp) rfl (routed_of_lt hc (by decide)) hs (hasBlk_always s) rfl rfl PrivRule.noConfusion rfl
    rfl rfl hdeny (if_pos hyes) rfl rfl

theorem restoreFactory_token (hc : c < 14) (ha : LastPart c p 0x1511 tag [] ws s) (hs : Started s)
    (hidle : s.hf.surveyRunning = []) :
    execTokenPart c s = runPriv 0x1511 c s ∧ runPriv 0x1511 c s = .next (replied (requestP c p 0x1511 tag []) [] (raise 0 0x1518 noInst []
      { tokenDone c p ws s with hf := { s.hf with userA := none, userB := none } })) := by
  have hno : ¬ (!(tokenDone c p ws s).hf.surveyRunning.isEmpty) = true := by
    have h1 : (tokenDone c p ws s).hf.surveyRunning = [] := hidle
    simp [h1]
  exact runPriv_token ha (by decide) (by simp) rfl (routed_of_lt hc (by decide)) hs (hasBlk_always s) rfl rfl PrivRule.noConfusion rfl
    rfl rfl rfl (if_neg hno) rfl (congrArg Mailboxes.chans (raise_mbx ..))

theorem updateBegin_token (hc : c < 14) (ha : LastPart c p 0x1520 tag [w0, w1] ws s) (hs : Started s) (h1 : 1 ≤ w0.toNat)
    (h5 : w0.toNat ≤ 5) (hsize : w1.toNat ≤ regionBytes w0.toNat s) (hidle : updOpen s = false) :
    execTokenPart c s = runPriv 0x1520 c s ∧ runPriv 0x1520 c s = .next (replied (requestP c p 0x1520 tag [w0, w1]) []
      { tokenDone c p ws s with hf := { s.hf with update := { state := .receiving, path := p, kind := w0.toNat, size := w1.toNat } } }) := by
  have hmasks : reservedSet updateBeginMsg.masks [w0, w1] = false := by
    have h0 : w0.toNat &&& 0xFF = w0.toNat := and_mask (k := 8) rfl (by omega)
    simp [updateBeginMsg, reservedSet, and_full, h0]
  have hbad : updateBeginMsg.bad (requestP c p 0x1520 tag [w0, w1]) (tokenDone c p ws s) = false := by
    change (!decide (1 ≤ w0.toNat ∧ w0.toNat ≤ 5) || decide (regionBytes w0.toNat s < w1.toNat)) = false
    simp [h1, h5, hsize]
  have hno : ¬ updOpen (tokenDone c p ws s) = true := by
    have h2 : updOpen (tokenDone c p ws s) = false := hidle
    simp [h2]
  exact runPriv_token ha (by decide) (by simp) rfl (routed_of_lt hc (by decide)) hs (hasBlk_always s) rfl hmasks PrivRule.noConfusion
    rfl hbad rfl rfl (if_neg hno) rfl rfl

theorem ownerKeyInstall_token (hc : c < 14) (ha : LastPart c p 0x1602 tag [w0, w1] ws s) (hs : Started s) (hw0 : w0.toNat < 4)
    (hend : w1.toNat + 64 ≤ 0x100000) (hheld : holdsBulk p s = true) (hempty : (ownerSlot w0.toNat s).state = 0)
    (hcurve : onCurve (keyPoint (readBulk w1.toNat 64 s)).1 (keyPoint (readBulk w1.toNat 64 s)).2 = true) :
    execTokenPart c s = runPriv 0x1602 c s ∧ runPriv 0x1602 c s = .next (replied (requestP c p 0x1602 tag [w0, w1]) []
      { tokenDone c p ws s with
        otp := { s.otp with queue := s.otp.queue ++ [.install w0.toNat (sha256 (readBulk w1.toNat 64 s))] } }) := by
  have hmasks : reservedSet keyInstallMsg.masks [w0, w1] = false := by
    have h0 : w0.toNat &&& 3 = w0.toNat := and_mask (k := 2) rfl hw0
    simp [keyInstallMsg, reservedSet, and_full, h0]
  exact runPriv_token ha (by decide) (by simp) rfl (routed_of_lt hc (by decide)) hs (hasBlk_always s) rfl hmasks PrivRule.noConfusion
    rfl (keyInstall_bad (s := tokenDone c p ws s) (r := requestP c p 0x1602 tag [w0, w1]) hend hcurve) rfl rfl
    (keyInstall_act (s := tokenDone c p ws s) (r := requestP c p 0x1602 tag [w0, w1]) hheld hempty) rfl rfl

theorem ownerKeyRevoke_token (hc : c < 14) (ha : LastPart c p 0x1603 tag [w] ws s) (hs : Started s) (hw : w.toNat < 4)
    (hsigned : signedInForce w.toNat s = false) (hlast : lastSlot w.toNat s = false) :
    execTokenPart c s = runPriv 0x1603 c s ∧ runPriv 0x1603 c s = .next (replied (requestP c p 0x1603 tag [w]) []
      { tokenDone c p ws s with otp := { s.otp with queue := s.otp.queue ++ [.revoke w.toNat] } }) := by
  have hno : ¬ (signedInForce w.toNat (tokenDone c p ws s) || lastSlot w.toNat (tokenDone c p ws s)) = true := by
    have h1 : signedInForce w.toNat (tokenDone c p ws s) = false := hsigned
    have h2 : lastSlot w.toNat (tokenDone c p ws s) = false := hlast
    simp [h1, h2]
  exact runPriv_token ha (by decide) (by simp) rfl (routed_of_lt hc (by decide)) hs (hasBlk_always s) rfl
    (reservedSet_mask (and_mask (k := 2) rfl hw)) PrivRule.noConfusion rfl rfl rfl rfl (if_neg hno) rfl rfl

end

/-- Settles O22: each held request passes the checks its clause names, and its action has the effect named. -/
theorem tokenCompletesRequest : Obligations.TokenCompletesRequest := by
  refine ⟨?restart, fun w c tag p ws s hc ha hs hw hrec hclip hmay hstuck hports hok =>
      formatVolume_token hc ha hs hw hrec hclip hmay hstuck hports hok,
    fun w c tag p ws s hc ha hs hb hw hvol hclip hdir => ?deleteClip,
    fun w0 w1 w2 w3 c tag p ws s hc ha hs hw0 hw3 htod hen hfree => arrayLock_token hc ha hs hw0 hw3 htod hen hfree,
    fun c tag p ws s hc ha hs => ?unlock,
    fun w0 w1 c tag p ws s hc ha hs hrun hm0 hm1 he1 he2 hp1 hp2 => islandSettings_token hc ha hs hrun hm0 hm1 he1 he2 hp1 hp2,
    fun c tag p ws s hc ha hs hrole hred hst hpeer => plannedSwitchOver_token hc ha hs hrole hred hst hpeer,
    fun c tag p ws s hc ha hs hidle => restoreFactory_token hc ha hs hidle,
    fun w0 w1 c tag p ws s hc ha hs h1 h5 hsize hidle => updateBegin_token hc ha hs h1 h5 hsize hidle,
    fun w0 w1 c tag p ws s hc ha hs hw0 hend hheld hempty hcurve => ownerKeyInstall_token hc ha hs hw0 hend hheld hempty hcurve,
    fun w c tag p ws s hc ha hs hw hsigned hlast => ownerKeyRevoke_token hc ha hs hw hsigned hlast,
    fun c tag p ws s hc ha hs => ?debug⟩
  case restart =>
    intro c tag p ws s hc ha hrun hoff
    have hexec := restart_token hc ha hrun hoff
    exact ⟨hexec, (runPriv_last ha (by decide) (by simp)).trans hexec, rfl, rfl⟩
  case deleteClip =>
    obtain ⟨hsame, hexec⟩ := deleteClip_token hc ha hs hb hw hvol hclip hdir
    exact ⟨hsame, hexec, deleteClip_map _ _⟩
  case unlock =>
    exact runPriv_token ha (by decide) (by simp) rfl (routed_of_lt hc (by decide)) hs (hasBlk_always s) rfl rfl PrivRule.noConfusion
      rfl rfl rfl rfl rfl rfl rfl
  case debug =>
    exact runPriv_token ha (by decide) (by simp) rfl (routed_of_lt hc (by decide)) hs (hasBlk_always s) rfl rfl PrivRule.noConfusion
      rfl rfl rfl rfl rfl rfl rfl

end Sys2Proof.Proofs

/-! PROOFS. Redundant bodies: heartbeats, copies, triggers, claims and switch-over (R566 to R584). -/

namespace Sys2Proof.Proofs
open Sys2Proof Sys2Proof.Machine Sys2Proof.Laws

/-! ### The entry a raise logs depends on the log, the errors, the time and the device record alone -/

/-- What a raise looks at. -/
def errView (s : State) : EventLog × ErrorQueue × TimeState × Device := (s.log, s.err, s.time, s.dev)

/-- A state with nothing else. -/
def ofErrView (v : EventLog × ErrorQueue × TimeState × Device) : State :=
  { State.reset with log := v.1, err := v.2.1, time := v.2.2.1, dev := v.2.2.2 }

theorem raise_ofErrView (sev code inst : Nat) (ds : List Nat) (s : State) :
    (raise sev code inst ds (ofErrView (errView s))).log = (raise sev code inst ds s).log := by
  unfold raise openRun
  dsimp only
  rw [apply_ite State.log, apply_ite State.log, apply_ite (raiseOne 1 0x1523 noInst []), apply_ite (raiseOne 1 0x1523 noInst []),
    apply_ite State.log, apply_ite State.log]
  rfl

/-- Two states alike in those parts log the same. -/
theorem raise_log_congr {s t : State} (h : errView t = errView s) (sev code inst : Nat) (ds : List Nat) :
    (raise sev code inst ds t).log = (raise sev code inst ds s).log := by
  rw [← raise_ofErrView, h, raise_ofErrView]

theorem dropReceiving_errView (n : Nat) (s : State) : errView (dropReceiving n s) = errView s := by
  unfold dropReceiving
  extract_lets x
  split
  · rfl
  · split
    · rfl
    · extract_lets inFlight t
      have ht : errView t = errView s := by
        simp only [t]
        split <;> rfl
      exact (show errView (noteDrop n _) = errView t from rfl).trans ht

theorem dropStream_errView (g k : Nat) (s : State) : errView (dropStream g k s) = errView s := by
  unfold dropStream
  dsimp only
  split
  · rfl
  split
  · split
    · exact (dropReceiving_errView ..).trans rfl
    · rfl
  · rfl

theorem dropStreams_errView (g : Nat) (s : State) : errView (dropStreams g s) = errView s := by
  simp [dropStreams, dropStream_errView]

theorem modGroup_errView (g : Nat) (f : LinkGroup → LinkGroup) (s : State) : errView (modGroup g f s) = errView s := rfl

theorem modRed_errView (f : Redundancy → Redundancy) (s : State) : errView (modRed f s) = errView s := rfl

theorem modRed_log (f : Redundancy → Redundancy) (s : State) : (modRed f s).log = s.log := rfl

theorem clearFlight_errView (st g : Nat) (s : State) : errView (clearFlight st g s) = errView s :=
  (modGroup_errView ..).trans (dropStreams_errView g s)

theorem sendTakeover_errView (kind : Nat) (s : State) : errView (sendTakeover kind s) = errView s := by
  unfold sendTakeover
  split <;> rfl

theorem abandonWrites_errView (s : State) : errView (abandonWrites s) = errView s := rfl

/-! ### What the operations of the pair leave of the redundancy state -/

theorem freeCells_red (g cls n : Nat) (s : State) : (freeCells g cls n s).red = s.red := rfl

@[simp] theorem sendClaim_red (e r : Nat) (s : State) : (sendClaim e r s).red = s.red := by
  unfold sendClaim
  split <;> rfl

theorem sendTakeover_red (kind : Nat) (s : State) : (sendTakeover kind s).red = s.red := by
  unfold sendTakeover
  split <;> rfl

/-- A claim: its epoch, the one before it, its reason, and the wait for the verdict. -/
@[simp] theorem claim_red (e r : Nat) (s : State) :
    (claim e r s).red = { s.red with ebBefore := s.red.eb, eb := e, reason := r, state := 4 } := sendClaim_red ..

/-- Whatever a standby becomes once it is ready, the last copy stays. -/
theorem syncIfReady_copy (s : State) : (syncIfReady s).red.copy = s.red.copy ∧ (syncIfReady s).red.copySeq = s.red.copySeq := by
  unfold syncIfReady
  dsimp only
  split
  · split
    · simp
    · exact ⟨rfl, rfl⟩
  · exact ⟨rfl, rfl⟩

theorem handoverNow_copy (s : State) : (handoverNow s).red.copy = s.red.copy ∧ (handoverNow s).red.copySeq = s.red.copySeq := by
  unfold handoverNow
  split
  · simp
  · exact ⟨rfl, rfl⟩

theorem applyCopy_copy (k : StateCopy) (s : State) :
    (applyCopy k s).red.copy = some k ∧ (applyCopy k s).red.copySeq = k.sequence := by
  unfold applyCopy
  extract_lets u keep t v
  obtain ⟨hsync, hsyncSeq⟩ := syncIfReady_copy v
  obtain ⟨hhand, hhandSeq⟩ := handoverNow_copy (syncIfReady v)
  exact ⟨hhand.trans hsync, hhandSeq.trans hsyncSeq⟩

/-! ### Events without redundancy -/

section
variable {s : State}

theorem cageOn_of_off (h : redOn s = false) : cageOn s = false := by simp [cageOn, h]

theorem redOn_of_cageOn (h : cageOn s = true) : redOn s = true := by
  simp only [cageOn, Bool.and_eq_true] at h
  exact h.1

/-! ### Heartbeats (R566, R578) -/

theorem heartbeatTimer_sends (h : cageOn s = true) :
    ∃ t, exec .heartbeatTimer s = .next t ∧ t.red.beats = wrapInc 16 s.red.beats ∧
      (groupActive 8 s = true → 8 < s.links.length → (groupOf 8 t).timeQ = (groupOf 8 s).timeQ ++ [heartbeatWords s]) := by
  refine ⟨sendHeartbeat s, by simp [exec, execHeartbeatTimer, h], ?_, fun hact hlen => ?_⟩
  · unfold sendHeartbeat
    dsimp only
    split <;> rfl
  · unfold sendHeartbeat
    dsimp only
    rw [if_pos hact]
    exact congrArg LinkGroup.timeQ (groupOf_modGroup (s := modRed (fun r => { r with beats := wrapInc 16 r.beats }) s) hlen _)

theorem heartbeat_stale {ws : List Word} (h : cageOn s = true) (hw : (ws.getD 1 0).toNat < s.red.eb) :
    exec (.heartbeat ws) s = .next (freeCells 8 2 1 s) := by
  have hw' : (ws.getD 1 0).toNat < (freeCells 8 2 1 s).red.eb := hw
  simp only [exec, execHeartbeat, h, Bool.not_true, Bool.false_eq_true, if_false, if_pos hw']

/-- The peer that a heartbeat describes (R566). -/
def peerOf (ws : List Word) : Peer :=
  { state := bits (ws.getD 0 0).toNat 2 0, fwMajor := bits (ws.getD 0 0).toNat 15 8, count := bits (ws.getD 0 0).toNat 31 16
    eb := (ws.getD 1 0).toNat, serial := (ws.getD 2 0).toNat + (ws.getD 3 0).toNat * 2 ^ 32, copySeq := (ws.getD 4 0).toNat
    flags := (ws.getD 5 0).toNat % 8 }

theorem heartbeat_primary {ws : List Word} (h : cageOn s = true) (hw : s.red.eb ≤ (ws.getD 1 0).toNat)
    (hp : bits (ws.getD 0 0).toNat 2 0 = 5) : exec (.heartbeat ws) s =
      .next (beatOfPrimary (ws.getD 1 0).toNat (modRed (fun r => { r with peer := some (peerOf ws) }) (freeCells 8 2 1 s))) := by
  have hw' : ¬ (ws.getD 1 0).toNat < (freeCells 8 2 1 s).red.eb := Nat.not_lt.mpr hw
  simp only [exec, execHeartbeat, h, Bool.not_true, Bool.false_eq_true, if_false, if_neg hw', if_pos hp, peerOf]

/-- A heartbeat of a primary raises the epoch and ends a trigger; a body that has started stays in its state. -/
theorem beatOfPrimary_red {e : Nat} (hst : s.red.state ≠ 1) : (beatOfPrimary e s).red = { s.red with
    eb := max s.red.eb e, ebBefore := max s.red.ebBefore e, beatAt := s.dev.elapsed, triggered := false, releasedAt := none } := by
  unfold beatOfPrimary
  dsimp only
  exact congrArg State.red (if_neg hst)

/-! ### Triggers (R572) -/

theorem trigger_in_sync (h : s.red.state = 3) :
    trigger s = claim (s.red.eb + 1) 1 (modRed (fun r => { r with triggered := true }) s) := if_pos h

theorem trigger_out_of_sync (h : s.red.state = 2) (ht : s.red.triggered = false) :
    trigger s = raise 2 0x1005 noInst [] (modRed (fun r => { r with triggered := true }) s) := by
  simp [trigger, h, ht]

theorem heartbeatTimeout_triggers (h : redOn s = true) :
    exec .heartbeatTimeout s = .next (trigger (modRed (fun r => { r with peer := none }) s)) := by
  simp [exec, execHeartbeatTimeout, h]

theorem heartbeatTimeout_claims (h : redOn s = true) (h3 : s.red.state = 3) : ∃ t, exec .heartbeatTimeout s = .next t ∧
    t.red.state = 4 ∧ t.red.eb = s.red.eb + 1 ∧ t.red.ebBefore = s.red.eb ∧ t.red.reason = 1 ∧ t.red.triggered = true := by
  refine ⟨_, heartbeatTimeout_triggers h, ?_⟩
  rw [trigger_in_sync (s := modRed (fun r => { r with peer := none }) s) h3, claim_red]
  exact ⟨rfl, rfl, rfl, rfl, rfl⟩

theorem heartbeatTimeout_logs (h : redOn s = true) (h2 : s.red.state = 2) (ht : s.red.triggered = false) :
    ∃ t, exec .heartbeatTimeout s = .next t ∧ t.red.state = 2 ∧ t.red.triggered = true ∧
      t.log = (raise 2 0x1005 noInst [] s).log := by
  refine ⟨_, heartbeatTimeout_triggers h, ?_⟩
  rw [trigger_out_of_sync (s := modRed (fun r => { r with peer := none }) s) h2 ht, raise_red]
  exact ⟨h2, rfl, raise_log_congr ((modRed_errView ..).trans (modRed_errView _ s)) ..⟩

/-! ### FAILING and RESYNC (R569, R572) -/

section
variable {e : Nat} (h : cageOn s = true)
include h

theorem failing_stale (he : e < s.red.eb) : exec (.failing e) s = .next (freeCells 8 1 1 s) := by
  simp [exec, execFailing, h, freeCells_red, he]

theorem failing_triggers (he : s.red.eb ≤ e) : exec (.failing e) s = .next (trigger (freeCells 8 1 1 s)) := by
  simp [exec, execFailing, h, freeCells_red, Nat.not_lt.mpr he]

theorem resync_stale (he : e < s.red.eb) : exec (.resync e) s = .next (freeCells 8 1 1 s) := by
  simp [exec, execResync, h, freeCells_red, he]

theorem resync_asks (he : s.red.eb ≤ e) : exec (.resync e) s =
    .next (modRed (fun r => { r with fullDue := r.fullDue || r.state == 5 }) (freeCells 8 1 1 s)) := by
  simp [exec, execResync, h, freeCells_red, Nat.not_lt.mpr he]

end

/-! ### State copies and hand-over (R569, R583) -/

section
variable {k : StateCopy} (h : cageOn s = true) (hst : s.red.state = 2 ∨ s.red.state = 3)
include h hst

/-- A body in state 2 or 3 frees the copy's cells and looks at the copy. -/
theorem stateCopy_looks : exec (.stateCopy k) s = .next (
    let t := freeCells 8 0 (copyCells k).length s
    if (k.whole && k.fwMajor != fwMajor s) = true then modRed (fun r => { r with state := 2 }) (raiseOnce 1 0x1004 noInst [] t)
    else if (k.whole && k.eb == s.red.eb && (k.sequence == wrapInc 32 s.red.copySeq || (k.full && s.red.fullDue))) = true then
      applyCopy k (endRun 0x1004 noInst t)
    else discardCopy t) := by
  have hin : ¬ (!cageOn s || (s.red.state != 2 && s.red.state != 3)) = true := by
    rcases hst with hst | hst <;> simp [h, hst]
  exact congrArg Host.Outcome.next (if_neg hin)

theorem stateCopy_foreign (hwhole : k.whole = true) (hfw : k.fwMajor ≠ fwMajor s) : exec (.stateCopy k) s =
    .next (modRed (fun r => { r with state := 2 }) (raiseOnce 1 0x1004 noInst [] (freeCells 8 0 (copyCells k).length s))) := by
  simp [stateCopy_looks h hst, hwhole, hfw]

omit h hst in
theorem outOfSync_copy (n : Nat) (s : State) :
    (modRed (fun r => { r with state := 2 }) (raiseOnce 1 0x1004 noInst [] (freeCells 8 0 n s))).red.copy = s.red.copy :=
  (show _ = (raiseOnce 1 0x1004 noInst [] (freeCells 8 0 n s)).red.copy from rfl).trans (by rw [raiseOnce_red, freeCells_red])

theorem stateCopy_applied (hwhole : k.whole = true) (hfw : k.fwMajor = fwMajor s) (heb : k.eb = s.red.eb)
    (hseq : k.sequence = wrapInc 32 s.red.copySeq) : exec (.stateCopy k) s =
      .next (applyCopy k (endRun 0x1004 noInst (freeCells 8 0 (copyCells k).length s))) := by
  simp [stateCopy_looks h hst, hwhole, hfw, heb, hseq]

theorem stateCopy_discarded (hfw : k.fwMajor = fwMajor s) (heb : k.eb ≠ s.red.eb) :
    exec (.stateCopy k) s = .next (discardCopy (freeCells 8 0 (copyCells k).length s)) := by
  simp [stateCopy_looks h hst, hfw, heb]

end

theorem handover_stale {e : Nat} (h : cageOn s = true) (he : e < s.red.eb) :
    exec (.handover e) s = .next (freeCells 8 1 1 s) := by
  simp [exec, execHandover, h, freeCells_red, he]

/-- A standby in sync that has applied the primary's last copy claims at once. -/
theorem handover_claims {e : Nat} (h : cageOn s = true) (he : s.red.eb ≤ e) (h3 : s.red.state = 3)
    (hcopied : (s.red.peer.map (·.copySeq)).getD 0 ≤ s.red.copySeq) : exec (.handover e) s =
      .next (claim (s.red.eb + 1) 2 (modRed (fun r => { r with handoverDue := false })
        (modRed (fun r => { r with handoverDue := true }) (freeCells 8 1 1 s)))) := by
  simp [exec, execHandover, handoverNow, h, freeCells_red, Nat.not_lt.mpr he, h3, hcopied]

/-! ### A failure declared (R574) -/

/-- The flight of every group in use is cleared. -/
theorem clearGroups_errView (t : State) :
    errView ((List.range 8).foldl (fun u g => if groupOn g u then clearFlight 0 g u else u) t) = errView t :=
  List.foldlRecOn (motive := fun u => errView u = errView t) _ _ rfl fun u hu g _ => by
    split
    · exact (clearFlight_errView ..).trans hu
    · exact hu

theorem declareFailure_eq (h : redOn s = true) (h5 : s.red.state = 5) :
    declareFailure s = modRed (fun r => { r with state := 6 }) (raise 1 0x1009 noInst []
      ((List.range 8).foldl (fun u g => if groupOn g u then clearFlight 0 g u else u) (sendTakeover 1 (abandonWrites s)))) :=
  if_pos (by simp [h, h5])

theorem declareFailure_fails (h : redOn s = true) (h5 : s.red.state = 5) :
    (declareFailure s).red.state = 6 ∧ (declareFailure s).log = (raise 1 0x1009 noInst [] s).log := by
  rw [declareFailure_eq h h5]
  refine ⟨rfl, (modRed_log ..).trans (raise_log_congr ?_ ..)⟩
  exact (clearGroups_errView _).trans ((sendTakeover_errView 1 _).trans (abandonWrites_errView s))

end

/-- Settles O56: each event takes the branch that the body's state selects, and a claim writes what `claim_red` says. -/
theorem redundancyEvents : Obligations.RedundancyEvents := by
  refine ⟨?off, fun s h => heartbeatTimer_sends h, ?heartbeat,
    fun s h => ⟨heartbeatTimeout_claims h, heartbeatTimeout_logs h⟩, fun e s h => ⟨failing_stale h, failing_triggers h⟩, fun e s h => ⟨resync_stale h, resync_asks h⟩,
    ?stateCopy, ?notStandby, ?handover,
    ?claimRepeat, ?linkInactive, ?startWait, ?reactivated, ?fallback⟩
  case off =>
    intro g e ws k s h
    have hc := cageOn_of_off h
    simp [exec, execHeartbeatTimer, execHeartbeat, execHeartbeatTimeout, execStateCopy, execFailing, execHandover, execResync,
      execClaimRepeatTimer, execPrimaryLinkInactiveExpiry, execStartWaitExpiry, execLinkReactivated, execSwitchOverFallbackExpiry,
      h, hc]
  case heartbeat =>
    intro ws s h
    refine ⟨heartbeat_stale h, fun hw hp hst => ⟨_, heartbeat_primary h hw hp, ?_⟩⟩
    rw [beatOfPrimary_red (s := modRed (fun r => { r with peer := some (peerOf ws) }) (freeCells 8 2 1 s)) hst]
    exact ⟨max_eq_right hw, rfl, rfl, rfl, peerOf ws, rfl, hp⟩
  case stateCopy =>
    intro k s h hst hwhole
    refine ⟨fun hfw => ⟨_, stateCopy_foreign h hst hwhole hfw, rfl, outOfSync_copy ..⟩, fun hfw heb hseq => ?_,
      fun hfw heb => stateCopy_discarded h hst hfw heb⟩
    exact ⟨_, stateCopy_applied h hst hwhole hfw heb hseq, applyCopy_copy ..⟩
  case notStandby =>
    intro k s h2 h3
    simp [exec, execStateCopy, h2, h3]
  case handover =>
    intro e s h
    refine ⟨handover_stale h, fun he h3 hcopied => ⟨_, handover_claims h he h3 hcopied, ?_⟩⟩
    rw [claim_red]
    exact ⟨rfl, rfl, rfl⟩
  case claimRepeat =>
    intro s h
    exact ⟨fun h3 ht => by simp [exec, execClaimRepeatTimer, h, h3, ht], fun ht => by simp [exec, execClaimRepeatTimer, ht]⟩
  case linkInactive =>
    intro s h h5
    refine ⟨fun hact => by simp [exec, execPrimaryLinkInactiveExpiry, hact], fun hact => ?_⟩
    obtain ⟨hstate, hlog⟩ := declareFailure_fails h h5
    exact ⟨_, by simp [exec, execPrimaryLinkInactiveExpiry, h, h5, hact], hstate, hlog⟩
  case startWait =>
    intro s h h1
    refine ⟨fun hpref hact => ⟨claim 1 0 (modRed (fun r => { r with waited := true }) s), ?_, by simp⟩, fun hpref => ?_⟩
    · simp [exec, execStartWaitExpiry, h, h1, hpref, hact]
    · simp [exec, execStartWaitExpiry, h, h1, hpref]
  case reactivated =>
    intro g s h h5 hg hon hact
    refine ⟨fun hsoon => ?_, fun hlate => ?_⟩
    · simp [exec, execLinkReactivated, h, h5, hg, hon, hact, hsoon]
    · simp [exec, execLinkReactivated, Nat.not_lt.mpr hlate]
  case fallback =>
    intro s h h5
    refine ⟨fun hrel hfb => ⟨claim (s.red.eb + 1) 2 (modRed (fun r => { r with fallback := true }) s), ?_, by simp⟩, fun hno => ?_⟩
    · simp [exec, execSwitchOverFallbackExpiry, h, h5, hrel, hfb]
    · rcases hno with hno | hno <;> simp [exec, execSwitchOverFallbackExpiry, hno]

end Sys2Proof.Proofs

/-! PROOFS. PTP messages, the timers of its ports and the servo (R489 to R505). -/

namespace Sys2Proof.Proofs
open Sys2Proof Sys2Proof.Machine Sys2Proof.Laws

section
variable {m : Nat} {s : State}

/-! ### A PTP port after a change of it, and after its timestamps are read -/

theorem ptp_modPtp (h : m < s.time.ptp.length) (f : PtpPort → PtpPort) :
    (modPtp m f s).time.ptp.getD m {} = f (s.time.ptp.getD m {}) := getD_modAt _ _ _ _ h

theorem modPtp_ptp_length (m : Nat) (f : PtpPort → PtpPort) (s : State) :
    (modPtp m f s).time.ptp.length = s.time.ptp.length := modAt_length ..

/-- Reading the timestamps changes nothing else of the port. -/
theorem drainTx_proj {β : Type} {g : PtpPort → β} (h : ∀ p : PtpPort, g { p with txq := [] } = g p) (m : Nat) (s : State) :
    g ((drainTx m s).time.ptp.getD m {}) = g (s.time.ptp.getD m {}) := getD_modAt_proj h ..

theorem drainTx_portState (m : Nat) (s : State) :
    ((drainTx m s).time.ptp.getD m {}).portState = (s.time.ptp.getD m {}).portState := drainTx_proj (fun _ => rfl) m s

theorem drainTx_sync (m : Nat) (s : State) :
    ((drainTx m s).time.ptp.getD m {}).sync = (s.time.ptp.getD m {}).sync := drainTx_proj (fun _ => rfl) m s

theorem drainTx_delays (m : Nat) (s : State) :
    ((drainTx m s).time.ptp.getD m {}).delays = (s.time.ptp.getD m {}).delays := drainTx_proj (fun _ => rfl) m s

theorem drainTx_ptpOn (m : Nat) (s : State) : ptpOn m (drainTx m s) = ptpOn m s := rfl

theorem drainTx_ptpDomain (m : Nat) (s : State) : ptpDomain (drainTx m s) = ptpDomain s := rfl

theorem drainTx_clockIdentity (m : Nat) (s : State) : clockIdentity (drainTx m s) = clockIdentity s := rfl

theorem drainTx_parent (m : Nat) (s : State) : (drainTx m s).time.parent = s.time.parent := rfl

theorem drainTx_fromParent (m : Nat) (g : PtpMsg) (s : State) : fromParent m g (drainTx m s) = fromParent m g s := by
  rw [fromParent, drainTx_portState]
  rfl

/-! ### Messages (R496, R499, R502) -/

theorem ptpSync_next (m : Nat) (g : PtpMsg) (s : State) : exec (.ptpSync m g) s = .next (
    if !fromParent m g s then drainTx m s
    else if g.twoStep then modPtp m (fun p => { p with sync := some g }) (drainTx m s)
    else completeSync m g.stamp g.origin g.correction (drainTx m s)) := by
  simp only [exec, execPtpSync, drainTx_fromParent]

theorem ptpFollowUp_unused {g : PtpMsg} (h : fromParent m g s = false) : exec (.ptpFollowUp m g) s = .next (drainTx m s) := by
  simp only [exec, execPtpFollowUp, drainTx_fromParent, h, Bool.false_and, Bool.false_eq_true, if_false]
  split <;> rfl

/-- A Follow_Up completes the kept Sync of the same number and sender. -/
theorem ptpFollowUp_completes {g y : PtpMsg} (h : fromParent m g s = true) (hy : (s.time.ptp.getD m {}).sync = some y)
    (hseq : y.seq = g.seq) (hclk : y.srcClock = g.srcClock) (hport : y.srcPort = g.srcPort) : exec (.ptpFollowUp m g) s =
      .next (completeSync m y.stamp g.origin (y.correction + g.correction) (drainTx m s)) := by
  simp only [exec, execPtpFollowUp, drainTx_fromParent, drainTx_sync, hy, h, hseq, hclk, hport, BEq.rfl, Bool.and_self, if_true]

/-- The record of the Announce just heard is the first, and at most five are kept. -/
theorem hearForeign_spec (a : AnnounceMsg) (l : List Foreign) :
    (hearForeign a l).length ≤ 5 ∧ ∃ x ∈ hearForeign a l, x.msg = a ∧ 0 < x.count := by
  refine ⟨?_, (⟨a, ((l.find? fun x => x.msg.srcClock == a.srcClock && x.msg.srcPort == a.srcPort).map (·.count)).getD 0 + 1⟩ :
    Foreign), List.mem_cons_self, rfl, Nat.succ_pos _⟩
  rw [hearForeign, List.length_take]
  exact Nat.min_le_left _ _

section
variable {a : AnnounceMsg} (hon : ptpOn m s = true) (hdom : a.domain = ptpDomain s)
include hon hdom

theorem ptpAnnounce_ignored (h : a.srcClock = clockIdentity s ∨ 255 ≤ a.stepsRemoved) :
    exec (.ptpAnnounce m a) s = .next (drainTx m s) := by
  simp [exec, execPtpAnnounce, drainTx_ptpOn, drainTx_ptpDomain, drainTx_clockIdentity, hon, hdom, h]

theorem ptpAnnounce_heard (hid : a.srcClock ≠ clockIdentity s) (hsteps : a.stepsRemoved < 255) : exec (.ptpAnnounce m a) s =
    .next (runBmca (modPtp m (fun p => { p with foreign := hearForeign a p.foreign }) (drainTx m s))) := by
  simp [exec, execPtpAnnounce, drainTx_ptpOn, drainTx_ptpDomain, drainTx_clockIdentity, hon, hdom, hid, Nat.not_le.mpr hsteps]

end

section
variable {g : PtpMsg} (hon : ptpOn m s = true) (hdom : g.domain = ptpDomain s)
include hon hdom

theorem ptpDelayReq_answered (h6 : (s.time.ptp.getD m {}).portState = 6) : exec (.ptpDelayReq m g) s =
    .next (modPtp m (fun p => { p with answered := some (g.seq, g.srcClock, g.srcPort, g.stamp) }) (drainTx m s)) := by
  simp only [exec, execPtpDelayReq, drainTx_ptpOn, drainTx_ptpDomain, drainTx_portState, hon, hdom, h6, BEq.rfl,
    Bool.and_self, if_true]

omit hon hdom in
theorem ptpDelayReq_unanswered (h6 : (s.time.ptp.getD m {}).portState ≠ 6) :
    exec (.ptpDelayReq m g) s = .next (drainTx m s) := by
  simp only [exec, execPtpDelayReq, drainTx_portState, beq_false_of_ne h6, Bool.and_false, Bool.false_and,
    Bool.false_eq_true, if_false]

end

/-- A matching Delay_Resp: the port keeps its mean with the seven before it. -/
theorem ptpDelayResp_measures {g : PtpMsg} {sq : Nat} {t3 : Tod} {ms : Int} (hp : fromParent m g s = true)
    (hreq : (s.time.ptp.getD m {}).delayReq = some (sq, t3)) (hms : (s.time.ptp.getD m {}).masterToSlave = some ms)
    (hseq : g.seq = sq) (hclk : g.reqClock = clockIdentity s) (hport : g.reqPort = m + 1) : exec (.ptpDelayResp m g) s =
      .next (modPtp m (fun q => { q with
        delayReq := none
        delays := ((ms + ((todUnits g.origin : Int) - todUnits t3 - g.correction)) / 2 :: q.delays).take 8 }) (drainTx m s)) := by
  simp only [exec, execPtpDelayResp, drainTx_fromParent, drainTx_clockIdentity, hreq, hms, hp, hseq, hclk, hport, BEq.rfl,
    Bool.and_self, if_true]

/-! ### Send timers (R502 to R505) -/

/-- A stamp that finds room is queued last, and the port is else left as it was. -/
theorem queueStamp_room {x : TxStamp} (hm : m < s.time.ptp.length) (h : (s.time.ptp.getD m {}).txq.length < 64) :
    (queueStamp m x s).time.ptp.getD m {} =
      { s.time.ptp.getD m {} with txq := (s.time.ptp.getD m {}).txq ++ [x] } := by
  unfold queueStamp
  rw [if_pos h, endRun_time]
  exact ptp_modPtp hm _

/-- A stamp that finds none is dropped with the flag and the counter. -/
theorem queueStamp_full {x : TxStamp} (hm : m < s.time.ptp.length) (h : 64 ≤ (s.time.ptp.getD m {}).txq.length) :
    (queueStamp m x s).time.ptp.getD m {} =
      { s.time.ptp.getD m {} with overflow := true, dropped := wrapInc 32 (s.time.ptp.getD m {}).dropped } := by
  unfold queueStamp
  rw [if_neg (Nat.not_lt.mpr h), raiseOnce_time]
  exact ptp_modPtp hm _

/-- The port of a Sync sent with its stamp yet to be queued. -/
def syncSent (room : Bool) (now : Tod) (q : PtpPort) : PtpPort :=
  { q with seqSync := wrapInc 16 q.seqSync, sent := wrapInc 64 q.sent
           followed := if room then some (q.seqSync, now) else q.followed }

/-- The port of a Delay_Req sent with its stamp yet to be queued. -/
def delayReqSent (room : Bool) (now : Tod) (q : PtpPort) : PtpPort :=
  { q with seqDelay := wrapInc 16 q.seqDelay, sent := wrapInc 64 q.sent
           delayReq := if room then some (q.seqDelay, now) else none }

section
variable (hon : ptpOn m s = true)
include hon

theorem sendTimer_sync (h6 : (s.time.ptp.getD m {}).portState = 6) : exec (.ptpSendTimer m .sync) s =
    .next (queueStamp m ⟨nowTod s, (s.time.ptp.getD m {}).seqSync, 0⟩
      (modPtp m (syncSent (decide ((s.time.ptp.getD m {}).txq.length < 64)) (nowTod s)) s)) := by
  simp only [exec, execPtpSendTimer, hon, Bool.not_true, Bool.false_eq_true, if_false, h6, if_true]
  rfl

theorem sendTimer_delayReq (h9 : (s.time.ptp.getD m {}).portState = 9) : exec (.ptpSendTimer m .delayReq) s =
    .next (queueStamp m ⟨nowTod s, (s.time.ptp.getD m {}).seqDelay, 1⟩
      (modPtp m (delayReqSent (decide ((s.time.ptp.getD m {}).txq.length < 64)) (nowTod s)) s)) := by
  simp only [exec, execPtpSendTimer, hon, Bool.not_true, Bool.false_eq_true, if_false, h9, if_true]
  rfl

theorem sendTimer_announce (h6 : (s.time.ptp.getD m {}).portState = 6) : exec (.ptpSendTimer m .announce) s =
    .next (modPtp m (fun q => { q with seqAnnounce := wrapInc 16 q.seqAnnounce, announced := some (ownAnnounce m s) }) s) := by
  simp only [exec, execPtpSendTimer, hon, Bool.not_true, Bool.false_eq_true, if_false, h6, if_true]

omit hon in
theorem sendTimer_sync_idle (h6 : (s.time.ptp.getD m {}).portState ≠ 6) : exec (.ptpSendTimer m .sync) s = .next s := by
  simp only [exec, execPtpSendTimer, h6, if_false, ite_self]

omit hon in
theorem sendTimer_delayReq_idle (h9 : (s.time.ptp.getD m {}).portState ≠ 9) :
    exec (.ptpSendTimer m .delayReq) s = .next s := by
  simp only [exec, execPtpSendTimer, h9, if_false, ite_self]

variable (hm : m < s.time.ptp.length)
include hm

/-- What a Sync leaves of the port, with room for its stamp and without. -/
theorem sendTimer_sync_port (h6 : (s.time.ptp.getD m {}).portState = 6) :
    ∃ t, exec (.ptpSendTimer m .sync) s = .next t ∧ (t.time.ptp.getD m {}).seqSync = wrapInc 16 (s.time.ptp.getD m {}).seqSync ∧
      (t.time.ptp.getD m {}).sent = wrapInc 64 (s.time.ptp.getD m {}).sent ∧
      ((s.time.ptp.getD m {}).txq.length < 64 → (t.time.ptp.getD m {}).txq =
        (s.time.ptp.getD m {}).txq ++ [⟨nowTod s, (s.time.ptp.getD m {}).seqSync, 0⟩]) ∧
      (64 ≤ (s.time.ptp.getD m {}).txq.length → (t.time.ptp.getD m {}).txq = (s.time.ptp.getD m {}).txq ∧
        (t.time.ptp.getD m {}).overflow = true) := by
  refine ⟨_, sendTimer_sync hon h6, ?_⟩
  generalize hu : modPtp m (syncSent (decide ((s.time.ptp.getD m {}).txq.length < 64)) (nowTod s)) s = u
  have hport : u.time.ptp.getD m {} = syncSent (decide ((s.time.ptp.getD m {}).txq.length < 64)) (nowTod s) (s.time.ptp.getD m {}) := by
    rw [← hu]
    exact ptp_modPtp hm _
  have hlen : m < u.time.ptp.length := by
    rw [← hu, modPtp_ptp_length]
    exact hm
  have htxq : (u.time.ptp.getD m {}).txq = (s.time.ptp.getD m {}).txq := by
    rw [hport]
    rfl
  by_cases hroom : (s.time.ptp.getD m {}).txq.length < 64
  · rw [queueStamp_room hlen (by rwa [htxq]), hport]
    exact ⟨rfl, rfl, fun _ => rfl, fun hfull => absurd hroom (Nat.not_lt.mpr hfull)⟩
  · rw [queueStamp_full hlen (by rw [htxq]; exact Nat.not_lt.mp hroom), hport]
    exact ⟨rfl, rfl, fun h => absurd h hroom, fun _ => ⟨rfl, rfl⟩⟩

/-- A Delay_Req whose stamp found room is outstanding. -/
theorem sendTimer_delayReq_port (h9 : (s.time.ptp.getD m {}).portState = 9) :
    ∃ t, exec (.ptpSendTimer m .delayReq) s = .next t ∧ ((s.time.ptp.getD m {}).txq.length < 64 →
      (t.time.ptp.getD m {}).delayReq = some ((s.time.ptp.getD m {}).seqDelay, nowTod s)) := by
  refine ⟨_, sendTimer_delayReq hon h9, fun hroom => ?_⟩
  rw [decide_eq_true hroom]
  have hport := ptp_modPtp hm (delayReqSent true (nowTod s))
  have hlen : m < (modPtp m (delayReqSent true (nowTod s)) s).time.ptp.length := by
    rw [modPtp_ptp_length]
    exact hm
  rw [queueStamp_room hlen (by rw [hport]; exact hroom), hport]
  rfl

end

/-! ### The source timeout (R498) -/

/-- The entry of a raise shows the time alone: whether TOD runs, and its count. -/
theorem raise_modTime {f : TimeState → TimeState} (hrun : ∀ t, (f t).running = t.running) (hsec : ∀ t, (f t).sec = t.sec)
    (hsub : ∀ t, (f t).sub = t.sub) (sev code inst : Nat) (ds : List Nat) (s : State) :
    raise sev code inst ds (modTime f s) = modTime f (raise sev code inst ds s) := by
  have hone : ∀ (sev code inst : Nat) (ds : List Nat) (t : State),
      raiseOne sev code inst ds (modTime f t) = modTime f (raiseOne sev code inst ds t) := fun sev code inst ds t => by
    have hentry : mkEntry sev code inst ds (modTime f t) = mkEntry sev code inst ds t := by
      simp only [mkEntry, nowTod, startUpTime, modTime_time, hrun, hsec, hsub]
      rfl
    simp only [raiseOne, hentry]
    rfl
  have hopen : ∀ t : State, openRun 0x1523 noInst (modTime f t) = modTime f (openRun 0x1523 noInst t) := fun t => by
    unfold openRun
    rw [apply_ite (modTime f)]
    rfl
  unfold raise
  dsimp only
  rw [apply_ite (modTime f)]
  simp only [hone, hopen]
  rfl

/-- The servo's part of the time in holdover. -/
def heldOver (x : TimeState) : TimeState := { x with clk := 3, good := 0, bad := 0, inState := 0 }

theorem holdover_locked (h : s.time.clk = 1 ∨ s.time.clk = 2) : holdover s = modTime heldOver (raise 1 0x0E02 noInst [] s) := by
  rw [holdover, if_pos h]
  exact raise_modTime (f := heldOver) (fun _ => rfl) (fun _ => rfl) (fun _ => rfl) ..

theorem holdover_unlocked (h : s.time.clk = 0 ∨ s.time.clk = 3) : holdover s = s :=
  if_neg (by omega)

/-- What the best-master choice leaves of the time, and of the rest all. -/
theorem runBmca_keeps (s : State) : (runBmca s).time.clk = s.time.clk ∧ (runBmca s).time.inc = s.time.inc ∧
    (runBmca s).time.sec = s.time.sec ∧ (runBmca s).time.sub = s.time.sub ∧ (runBmca s).log = s.log :=
  ⟨rfl, rfl, rfl, rfl, rfl⟩

/-- The state after the choice that follows a source timeout: the silent parent is out of its port's list. -/
def chosenAnew (head : Bool) (t : State) : State :=
  match t.time.parent with
  | some (i, a) => runBmca (modPtp i (fun p => { p with
      foreign := p.foreign.filter fun x => !(x.msg.srcClock == a.srcClock && x.msg.srcPort == a.srcPort) }) t)
  | none => if head then t else runBmca t

theorem timeSourceTimeout_next (s : State) : exec .timeSourceTimeout s = .next (chosenAnew (s.dev.role == .head) (holdover s)) := rfl

theorem chosenAnew_keeps (b : Bool) (s : State) : (chosenAnew b s).time.clk = s.time.clk ∧ (chosenAnew b s).time.inc = s.time.inc ∧
    (chosenAnew b s).time.sec = s.time.sec ∧ (chosenAnew b s).time.sub = s.time.sub ∧ (chosenAnew b s).log = s.log := by
  unfold chosenAnew
  split
  · exact runBmca_keeps _
  · split
    · exact ⟨rfl, rfl, rfl, rfl, rfl⟩
    · exact runBmca_keeps s

/-- A running servo goes to holdover and keeps INC. -/
theorem timeSourceTimeout_holdover (h : s.time.clk = 1 ∨ s.time.clk = 2) : ∃ t, exec .timeSourceTimeout s = .next t ∧
    t.time.clk = 3 ∧ t.time.inc = s.time.inc ∧ t.time.sec = s.time.sec ∧ t.time.sub = s.time.sub ∧
    t.log = (raise 1 0x0E02 noInst [] s).log := by
  refine ⟨_, timeSourceTimeout_next s, ?_⟩
  obtain ⟨hclk, hinc, hsec, hsub, hlog⟩ := chosenAnew_keeps (s.dev.role == .head) (holdover s)
  rw [hclk, hinc, hsec, hsub, hlog, holdover_locked h, modTime_time, raise_time]
  exact ⟨rfl, rfl, rfl, rfl, rfl⟩

section
variable (h : s.time.clk = 0 ∨ s.time.clk = 3)
include h

theorem timeSourceTimeout_parent {i : Nat} {a : AnnounceMsg} (hp : s.time.parent = some (i, a)) : exec .timeSourceTimeout s =
    .next (runBmca (modPtp i (fun p => { p with
      foreign := p.foreign.filter fun x => !(x.msg.srcClock == a.srcClock && x.msg.srcPort == a.srcPort) }) s)) := by
  rw [timeSourceTimeout_next, holdover_unlocked h, chosenAnew, hp]

theorem timeSourceTimeout_orphan (hp : s.time.parent = none) : exec .timeSourceTimeout s =
    .next (if s.dev.role == .head then s else runBmca s) := by
  rw [timeSourceTimeout_next, holdover_unlocked h, chosenAnew, hp]

end

/-! ### The servo (R489 to R493) -/

/-- The first valid sample steps TOD and sets the frequency state to nothing. -/
theorem validSample_first (th : Int) (dt : Nat) (h : s.time.clk = 0) : (validSample th dt s).time.clk = 1 ∧
    (validSample th dt s).time.f = 0 ∧ (validSample th dt s).time.steps = wrapInc 16 s.time.steps ∧
    (validSample th dt s).time.inc = s.time.inc := by
  rw [validSample, if_pos h, firstSample, raise_time]
  exact ⟨rfl, rfl, rfl, rfl⟩

theorem clampI_bounds {lo hi : Int} (h : lo ≤ hi) (v : Int) : lo ≤ clampI lo hi v ∧ clampI lo hi v ≤ hi := by
  unfold clampI
  split_ifs <;> omega

/-- INC is written within its limits, and TOD does not move. -/
theorem writeInc_time (v : Int) (s : State) :
    (writeInc v s).time = { s.time with inc := (clampI incMin incMax v).toNat } := by
  unfold writeInc
  dsimp only
  split
  · rw [raiseOnce_time, modTime_time]
  · rw [endRun_time, modTime_time]

theorem lockStates_keeps (th : Int) (s : State) : (lockStates th s).time.inc = s.time.inc ∧
    (lockStates th s).time.sec = s.time.sec ∧ (lockStates th s).time.sub = s.time.sub := by
  unfold lockStates
  extract_lets lim a good bad
  clear_value good bad
  split
  · split <;> rw [modTime_time] <;> exact ⟨rfl, rfl, rfl⟩
  · split
    · rw [raise_time, modTime_time]
      exact ⟨rfl, rfl, rfl⟩
    · rw [modTime_time]
      exact ⟨rfl, rfl, rfl⟩
  · rw [modTime_time]
    exact ⟨rfl, rfl, rfl⟩
  · exact ⟨rfl, rfl, rfl⟩

theorem lockStates_holdover (th : Int) (h : s.time.clk = 3) : (lockStates th s).time.clk = 1 := by
  simp only [lockStates, h]
  rfl

theorem validSample_steered (th : Int) (dt : Nat) (h : s.time.clk ≠ 0) : ∃ v f, validSample th dt s =
    lockStates th (writeInc v (modTime (fun x => { x with f := f, theta := th }) s)) := by
  rw [validSample, if_neg h]
  exact ⟨_, _, rfl⟩

theorem validSample_later (th : Int) (dt : Nat) (h : s.time.clk ≠ 0) :
    incMin.toNat ≤ (validSample th dt s).time.inc ∧ (validSample th dt s).time.inc ≤ incMax.toNat ∧
      (validSample th dt s).time.sec = s.time.sec ∧ (validSample th dt s).time.sub = s.time.sub ∧
      (s.time.clk = 3 → (validSample th dt s).time.clk = 1) := by
  obtain ⟨v, f, hv⟩ := validSample_steered th dt h
  obtain ⟨hinc, hsec, hsub⟩ := lockStates_keeps th (writeInc v (modTime (fun x => { x with f := f, theta := th }) s))
  obtain ⟨hlo, hhi⟩ := clampI_bounds (by decide : incMin ≤ incMax) v
  rw [hv, hinc, hsec, hsub, writeInc_time]
  refine ⟨Int.toNat_le_toNat hlo, Int.toNat_le_toNat hhi, rfl, rfl, fun h3 => lockStates_holdover th ?_⟩
  rw [writeInc_time]
  exact h3

end

/-- Settles O54: each message, timer and sample takes the branch that its port's state selects. -/
theorem ptpAndServo : Obligations.PtpAndServo := by
  refine ⟨?sync, fun m a s hon hdom => ⟨ptpAnnounce_ignored hon hdom, ptpAnnounce_heard hon hdom⟩, hearForeign_spec,
    fun m g s hon hdom => ⟨ptpDelayReq_answered hon hdom, ptpDelayReq_unanswered⟩, ?delayResp, ?sendTimer, ?timeout,
    fun th dt s => ⟨validSample_first th dt, validSample_later th dt⟩⟩
  case sync =>
    intro m g s
    refine ⟨fun h => ⟨?_, ptpFollowUp_unused h⟩, fun h h2 => ?_, fun h h2 => ?_, fun _ => ptpFollowUp_completes⟩
    · simp [ptpSync_next, h]
    · simp [ptpSync_next, h, h2]
    · simp [ptpSync_next, h, h2]
  case delayResp =>
    intro m g sq t3 ms s hp hreq hms hseq hclk hport hm
    refine ⟨_, ptpDelayResp_measures hp hreq hms hseq hclk hport, ?_⟩
    rw [ptp_modPtp (s := drainTx m s) (by simpa [drainTx, modPtp] using hm), drainTx_delays]
    exact ⟨rfl, rfl⟩
  case sendTimer =>
    intro m s hon hm
    refine ⟨fun h6 => ⟨sendTimer_sync_port hon hm h6, sendTimer_announce hon h6, sendTimer_delayReq_idle (by omega)⟩,
      fun h9 => ⟨sendTimer_sync_idle (by omega), sendTimer_delayReq_port hon hm h9⟩⟩
  case timeout =>
    intro s
    refine ⟨timeSourceTimeout_holdover, fun h hp hrole => ?_, fun h hp hrole => ?_, fun i a h hp => timeSourceTimeout_parent h hp⟩
    · simp [timeSourceTimeout_orphan h hp, hrole]
    · simp [timeSourceTimeout_orphan h hp, hrole]

end Sys2Proof.Proofs

/-! PROOFS. What keeps the time of the device: the blocks that role start and the entry into the suspended state touch. -/

namespace Sys2Proof.Proofs
open Sys2Proof Sys2Proof.Machine Sys2Proof.Laws

theorem time_foldl {α : Type} (g : State → α → State) (l : List α) (s : State) (h : ∀ u x, (g u x).time = u.time) :
    (l.foldl g s).time = s.time := by
  induction l generalizing s with
  | nil => rfl
  | cons a r ih => exact (ih _).trans (h s a)

@[simp] theorem modSeam_time (n : Nat) (f : Seam → Seam) (s : State) : (modSeam n f s).time = s.time := rfl
@[simp] theorem modPort_time (p : Nat) (f : Port → Port) (s : State) : (modPort p f s).time = s.time := rfl
@[simp] theorem freeClaims_time (n : Nat) (s : State) : (freeClaims n s).time = s.time := rfl
@[simp] theorem noteDrop_time (n : Nat) (s : State) : (noteDrop n s).time = s.time := rfl

@[simp] theorem dropReceiving_time (n : Nat) (s : State) : (dropReceiving n s).time = s.time := by
  unfold dropReceiving
  dsimp only
  split
  · simp
  · split <;> simp [apply_ite State.time]

@[simp] theorem modGroup_time (g : Nat) (f : LinkGroup → LinkGroup) (s : State) : (modGroup g f s).time = s.time := rfl

@[simp] theorem modStream_time (g k : Nat) (f : LinkStream → LinkStream) (s : State) :
    (modStream g k f s).time = s.time := rfl

@[simp] theorem queueControl_time (g subtype : Nat) (ws : List Word) (s : State) :
    (queueControl g subtype ws s).time = s.time := rfl

@[simp] theorem dropStream_time (g k : Nat) (s : State) : (dropStream g k s).time = s.time := by
  unfold dropStream
  split <;> simp [apply_ite State.time]

@[simp] theorem dropStreams_time (g : Nat) (s : State) : (dropStreams g s).time = s.time := by
  unfold dropStreams
  simp

@[simp] theorem clearFlight_time (st : Nat) (g : Nat) (s : State) : (clearFlight st g s).time = s.time := by
  unfold clearFlight
  simp

@[simp] theorem modIslSeam_time (n : Nat) (f : IslandSeam → IslandSeam) (s : State) :
    (modIslSeam n f s).time = s.time := rfl

@[simp] theorem islandLog_time (code : Nat) (ws : List Nat) (s : State) : (islandLog code ws s).time = s.time := rfl

@[simp] theorem pushIsland_time (e : IslandEntry) (s : State) : (pushIsland e s).time = s.time := by
  unfold pushIsland
  simp [apply_ite State.time]

@[simp] theorem sendEvidence_time (kind : Nat) (b : List Byte) (s : State) : (sendEvidence kind b s).time = s.time := by
  unfold sendEvidence
  split
  · exact time_foldl _ _ _ fun _ _ => rfl
  · rfl

@[simp] theorem signSeam_time (n flags : Nat) (start : Bool) (s : State) :
    (signSeam n flags start s).time = s.time := by
  unfold signSeam
  simp

@[simp] theorem signAll_time (flags : Nat) (start : Bool) (ns : List Nat) (s : State) :
    (signAll flags start ns s).time = s.time := by
  unfold signAll
  simp [time_foldl]

@[simp] theorem verifyCal_time (s : State) : (verifyCal s).time = s.time := by
  unfold verifyCal
  simp [apply_ite State.time]

@[simp] theorem sealAtStart_time (change : Bool) (d : List Byte) (s : State) : (sealAtStart change d s).time = s.time :=
  rfl

@[simp] theorem islandStart_time (fw : Option (List Byte)) (supply : Bool) (s : State) :
    (islandStart fw supply s).time = s.time := by
  unfold islandStart
  split <;> simp [apply_ite State.time]

@[simp] theorem modCq_time (q : Nat) (f : CplQ → CplQ) (s : State) : (modCq q f s).time = s.time := rfl
@[simp] theorem raiseMsix_time (v : Nat) (s : State) : (raiseMsix v s).time = s.time := rfl

@[simp] theorem deliverCq_time (qid : Nat) (x : Completion) (s : State) : (deliverCq qid x s).time = s.time := by
  unfold deliverCq
  split <;> simp [apply_ite State.time]

@[simp] theorem completeOn_time (sq : Nat) (cmd : NvmeCmd) (a status dw0 : Nat) (data : List Byte) (s : State) :
    (completeOn sq cmd a status dw0 data s).time = s.time := by
  unfold completeOn
  dsimp only
  split <;> simp [apply_ite State.time]

@[simp] theorem finishCmd_time (a status dw0 : Nat) (data : List Byte) (s : State) :
    (finishCmd a status dw0 data s).time = s.time := by
  unfold finishCmd
  split
  · split <;> simp
  · rfl

@[simp] theorem pushEvent_time (dw0 : Nat) (s : State) : (pushEvent dw0 s).time = s.time := by
  unfold pushEvent
  split
  · rfl
  · split <;> simp

@[simp] theorem noticeNs_time (s : State) : (noticeNs s).time = s.time := by
  unfold noticeNs
  simp [apply_ite State.time]

@[simp] theorem noticeReadOnly_time (s : State) : (noticeReadOnly s).time = s.time := by
  unfold noticeReadOnly
  simp [apply_ite State.time]

@[simp] theorem modRecStream_time (j : Nat) (f : RecStream → RecStream) (s : State) :
    (modRecStream j f s).time = s.time := rfl

@[simp] theorem abandonWrites_time (s : State) : (abandonWrites s).time = s.time := rfl

@[simp] theorem sendTakeover_time (kind : Nat) (s : State) : (sendTakeover kind s).time = s.time := by
  unfold sendTakeover
  simp [apply_ite State.time]

@[simp] theorem declareFailure_time (s : State) : (declareFailure s).time = s.time := by
  unfold declareFailure
  simp [time_foldl, apply_ite State.time]

@[simp] theorem modEnc_time (m : Nat) (f : EncStream → EncStream) (s : State) : (modEnc m f s).time = s.time := rfl
@[simp] theorem modDec_time (m : Nat) (f : DecStream → DecStream) (s : State) : (modDec m f s).time = s.time := rfl

@[simp] theorem modEncSource_time (m : Nat) (f : OutRing → OutRing) (s : State) :
    (modEncSource m f s).time = s.time := by
  unfold modEncSource
  simp [apply_ite State.time]

@[simp] theorem takeInputs_time (m k : Nat) (s : State) : (takeInputs m k s).time = s.time := by
  induction k generalizing s with
  | zero => rfl
  | succ k ih =>
    unfold takeInputs
    dsimp only
    split
    · rfl
    · split
      · rfl
      · split <;> simp [ih]

@[simp] theorem takeInput_time (m : Nat) (s : State) : (takeInput m s).time = s.time := by
  unfold takeInput
  simp

@[simp] theorem modSsd_time (k : Nat) (f : Ssd → Ssd) (s : State) : (modSsd k f s).time = s.time := rfl
@[simp] theorem modMedia_time (k : Nat) (f : Media → Media) (s : State) : (modMedia k f s).time = s.time := rfl

@[simp] theorem sendSsd_time (port queue : Nat) (op : SsdOp) (s : State) : (sendSsd port queue op s).time = s.time := by
  unfold sendSsd
  simp [apply_ite State.time]

@[simp] theorem sendLists_time (ops : Nat → Ssd → List SsdOp) (s : State) : (sendLists ops s).time = s.time := by
  unfold sendLists
  simp [time_foldl]

@[simp] theorem sendAll_time (op : Nat → SsdOp) (s : State) : (sendAll op s).time = s.time := by
  unfold sendAll
  simp

@[simp] theorem sendAdmin_time (port : Nat) (c : SsdAdmin) (s : State) : (sendAdmin port c s).time = s.time := by
  unfold sendAdmin
  simp

@[simp] theorem walk_time (write : Bool) (vs : List Nat) (s : State) : (walk write vs s).time = s.time := rfl

@[simp] theorem setupMember_time (k : Nat) (s : State) : (setupMember k s).time = s.time := by
  unfold setupMember
  simp [time_foldl]

@[simp] theorem acquireVolume_time (preempt : Bool) (s : State) : (acquireVolume preempt s).time = s.time := by
  unfold acquireVolume
  simp [time_foldl, apply_ite State.time]

@[simp] theorem mountFrom_time (b : SuperBlk) (members : List (Nat × SuperBlk)) (s : State) :
    (mountFrom b members s).time = s.time := by
  unfold mountFrom
  dsimp only
  split <;> simp

@[simp] theorem mountVolume_time (s : State) : (mountVolume s).time = s.time := by
  unfold mountVolume
  split
  · rfl
  · extract_lets ports u bad found ms
    have hu : u.time = s.time := time_foldl _ _ _ fun t k => by simp [apply_ite State.time]
    split
    · exact (time_foldl _ _ _ fun t k => by simp).trans hu
    · split <;> simp [apply_ite State.time, hu]

@[simp] theorem modPlay_time (m : Nat) (f : Playback → Playback) (s : State) : (modPlay m f s).time = s.time := rfl

@[simp] theorem askPieces_time (m : Nat) (ps : List (Nat × Nat × Nat × Nat)) (s : State) :
    (askPieces m ps s).time = s.time := by
  induction ps generalizing s with
  | nil => rfl
  | cons p ps ih =>
    unfold askPieces
    rw [ih]
    split <;> simp

@[simp] theorem playPump_time (m : Nat) (s : State) : (playPump m s).time = s.time := by
  unfold playPump
  simp [apply_ite State.time]

@[simp] theorem skipAu_time (m : Nat) (s : State) : (skipAu m s).time = s.time := rfl

@[simp] theorem beginDecode_time (m : Nat) (l : List Byte) (s : State) : (beginDecode m l s).time = s.time := by
  unfold beginDecode
  extract_lets ns x0 t x refused due
  have ht : t.time = s.time := by simp [t]
  clear_value t
  split
  · simp [ht]
  · extract_lets ty irap fresh sps
    split
    · simp [ht]
    · split
      · simp [ht]
      · clear_value sps
        cases sps with
        | none => simp [ht]
        | some p => simp [apply_ite State.time, refused, ht]

@[simp] theorem tryDecodes_time (m k : Nat) (s : State) : (tryDecodes m k s).time = s.time := by
  induction k generalizing s with
  | zero => rfl
  | succ k ih =>
    unfold tryDecodes
    dsimp only
    split
    · split <;> simp [ih]
    · rfl

@[simp] theorem tryDecode_time (m : Nat) (s : State) : (tryDecode m s).time = s.time := by
  unfold tryDecode
  simp

@[simp] theorem feedDecoder_time (m : Nat) (l : List Byte) (last : Bool) (s : State) :
    (feedDecoder m l last s).time = s.time := by
  unfold feedDecoder
  simp [apply_ite State.time]

@[simp] theorem modOutput_time (o : OutId) (f : Output → Output) (s : State) : (modOutput o f s).time = s.time := by
  unfold modOutput
  split <;> simp

@[simp] theorem modSrcRing_time (kind idx : Nat) (f : OutRing → OutRing) (s : State) :
    (modSrcRing kind idx f s).time = s.time := by
  unfold modSrcRing
  simp [apply_ite State.time]

@[simp] theorem modLoop_time (n : Nat) (f : Loop → Loop) (s : State) : (modLoop n f s).time = s.time := rfl

@[simp] theorem noteQueued_time (p : Nat) (sc : Script) (s : State) : (noteQueued p sc s).time = s.time := by
  unfold noteQueued
  split
  · split <;> simp
  · rfl

@[simp] theorem revertLoop_time (p : Nat) (sc : Script) (s : State) : (revertLoop p sc s).time = s.time := by
  unfold revertLoop
  split <;> simp

@[simp] theorem noteLate_time (p : Nat) (sc : Script) (s : State) : (noteLate p sc s).time = s.time := by
  unfold noteLate
  split
  · split
    · split <;> simp
    · rfl
  · rfl

@[simp] theorem completeScript_time (p : Nat) (sc : Script) (s : State) : (completeScript p sc s).time = s.time := by
  unfold completeScript
  split <;> simp

@[simp] theorem startHead_time (p : Nat) (sc : Script) (s : State) : (startHead p sc s).time = s.time := by
  unfold startHead
  simp [apply_ite State.time]

@[simp] theorem considerHead_time (p k : Nat) (s : State) : (considerHead p k s).time = s.time := by
  induction k generalizing s with
  | zero => rfl
  | succ k ih =>
    unfold considerHead
    extract_lets x
    split
    · rfl
    · simp [apply_ite State.time, ih]

@[simp] theorem queueScript_time (p : Nat) (sc : Script) (s : State) : (queueScript p sc s).2.time = s.time := by
  unfold queueScript
  simp [apply_ite Prod.snd, apply_ite State.time]

@[simp] theorem modAud_time (p : Nat) (f : Audio → Audio) (s : State) : (modAud p f s).time = s.time := rfl
@[simp] theorem startAudio_time (keep : Bool) (p : Nat) (s : State) : (startAudio keep p s).time = s.time := rfl

@[simp] theorem sendScript_time (n : Nat) (sc : Script) (s : State) : (sendScript n sc s).2.time = s.time := by
  unfold sendScript
  split <;> simp

@[simp] theorem sendRequest_time (n : Nat) (sc : Script) (s : State) : (sendRequest n sc s).time = s.time := by
  unfold sendRequest
  simp [apply_ite State.time]

@[simp] theorem requestTagged_time (n tag : Nat) (q : Nat × Nat × Nat × Nat) (s : State) :
    (requestTagged n tag q s).time = s.time := by
  unfold requestTagged
  simp [apply_ite State.time]

@[simp] theorem request_time (n : Nat) (on : Option Nat) (q : Nat × Nat × Nat × Nat) (s : State) :
    (request n on q s).time = s.time := by
  unfold request
  simp

@[simp] theorem startLoop_time (n : Nat) (s : State) : (startLoop n s).time = s.time := by
  unfold startLoop
  simp [apply_ite State.time]

@[simp] theorem postJob_time (j : CompJob) (s : State) : (postJob j s).time = s.time := rfl
@[simp] theorem loseLinkFrame_time (n : Nat) (s : State) : (loseLinkFrame n s).time = s.time := rfl

@[simp] theorem endJob_time (status : Nat) (j : CompJob) (s : State) : (endJob status j s).time = s.time := by
  unfold endJob
  dsimp only
  split
  · simp
  · split <;> simp

@[simp] theorem releaseAdit_time (a : Nat) (s : State) : (releaseAdit a s).time = s.time := rfl

@[simp] theorem jobFailed_time (status : Nat) (j : CompJob) (s : State) : (jobFailed status j s).time = s.time := by
  unfold jobFailed
  dsimp only
  split
  · simp
  · split <;> simp

@[simp] theorem putClip_time (n : Nat) (l : List Byte) (s : State) : (putClip n l s).time = s.time := rfl

@[simp] theorem closeClip_time (s : State) : (closeClip s).time = s.time := by
  unfold closeClip
  dsimp only
  split
  · simp
  · split <;> simp

@[simp] theorem beginPoint_time (s : State) : (beginPoint s).time = s.time := by
  unfold beginPoint
  simp [apply_ite State.time]

@[simp] theorem maybeEnd_time (s : State) : (maybeEnd s).time = s.time := by
  unfold maybeEnd
  split
  · split
    · split <;> simp
    · split
      · split <;> simp
      · rfl
  · rfl

@[simp] theorem stopClip_time (trunc : Bool) (s : State) : (stopClip trunc s).time = s.time := by
  unfold stopClip
  split <;> simp

@[simp] theorem cutFinal_time (s : State) : (cutFinal s).time = s.time := by
  unfold cutFinal
  simp

@[simp] theorem recHalt_time (s : State) : (recHalt s).time = s.time := by
  unfold recHalt
  simp [apply_ite State.time]

@[simp] theorem playRead_time (m : Nat) (ok : Bool) (dst : Nat) (l : List Byte) (s : State) :
    (playRead m ok dst l s).time = s.time := by
  unfold playRead
  extract_lets p u e last t
  split
  · rfl
  · split
    · rw [raise_time]
      rfl
    · split
      · rfl
      · simp [u, t, apply_ite State.time]

@[simp] theorem modVf_time (k : Nat) (f : View_ → View_) (s : State) : (modVf k f s).time = s.time := rfl
@[simp] theorem dirtyAll_time (k : Nat) (s : State) : (dirtyAll k s).time = s.time := rfl
@[simp] theorem modChan18_time (c : Nat) (f : DramChan → DramChan) (s : State) : (modChan18 c f s).time = s.time := rfl
@[simp] theorem useCheck_time (c a : Nat) (write : Bool) (s : State) : (useCheck c a write s).time = s.time := rfl

@[simp] theorem noteCorrected_time (c : Nat) (s : State) : (noteCorrected c s).time = s.time := by
  unfold noteCorrected
  simp [apply_ite State.time]

@[simp] theorem noteUncorrectable_time (c : Nat) (s : State) : (noteUncorrectable c s).time = s.time := rfl

@[simp] theorem readChecked_time (c a : Nat) (errs : List Nat) (s : State) :
    (readChecked c a errs s).time = s.time := by
  unfold readChecked
  split <;> simp

@[simp] theorem poisonFrame_time (n num : Nat) (s : State) : (poisonFrame n num s).time = s.time := by
  unfold poisonFrame
  split <;> simp [apply_ite State.time]

@[simp] theorem poisonEncode_time (m : Nat) (s : State) : (poisonEncode m s).time = s.time := by
  unfold poisonEncode
  simp [apply_ite State.time]

@[simp] theorem poisonDecode_time (m : Nat) (s : State) : (poisonDecode m s).time = s.time := by
  unfold poisonDecode
  dsimp only
  split <;> simp

@[simp] theorem poisonOutput_time (o : OutId) (s : State) : (poisonOutput o s).time = s.time := by
  unfold poisonOutput
  simp

@[simp] theorem poisonView_time (k : Nat) (s : State) : (poisonView k s).time = s.time := rfl
@[simp] theorem poisonAudio_time (p : Nat) (s : State) : (poisonAudio p s).time = s.time := rfl
@[simp] theorem poisonStats_time (n : Nat) (s : State) : (poisonStats n s).time = s.time := rfl

@[simp] theorem poisonJob_time (id : Nat) (s : State) : (poisonJob id s).time = s.time := by
  unfold poisonJob
  split <;> simp

@[simp] theorem poisoned_time (c : Nat) (client : DramClient) (s : State) : (poisoned c client s).time = s.time := by
  unfold poisoned
  dsimp only
  split <;> simp

@[simp] theorem refreshNeighbours_time (c : Nat) (s : State) : (refreshNeighbours c s).time = s.time := rfl

@[simp] theorem openRow_time (c bank row : Nat) (s : State) : (openRow c bank row s).time = s.time := by
  unfold openRow
  simp [apply_ite State.time]

@[simp] theorem admitStalled_time (c : Nat) (s : State) : (admitStalled c s).time = s.time := rfl
@[simp] theorem leaveQueue_time (c : Nat) (r : DramReq) (s : State) : (leaveQueue c r s).time = s.time := rfl

@[simp] theorem finishRead_time (c : Nat) (r : DramReq) (errs : List Nat) (s : State) :
    (finishRead c r errs s).time = s.time := by
  unfold finishRead
  simp [apply_ite State.time]

@[simp] theorem finishWrite_time (c : Nat) (r : DramReq) (l : List Byte) (errs : List Nat) (s : State) :
    (finishWrite c r l errs s).time = s.time := by
  unfold finishWrite
  simp [apply_ite State.time]

@[simp] theorem endRequest_time (ch : Nat) (r : DramReq) (errs : List Nat) (s : State) :
    (endRequest ch r errs s).time = s.time := by
  unfold endRequest
  split <;> simp

@[simp] theorem drainChan_time (c k : Nat) (s : State) : (drainChan c k s).time = s.time := by
  induction k generalizing s with
  | zero => rfl
  | succ k ih =>
    unfold drainChan
    split <;> simp [ih]

@[simp] theorem enterSelfRefresh_time (s : State) : (enterSelfRefresh s).time = s.time := by
  unfold enterSelfRefresh
  exact (modDram_time ..).trans (time_foldl _ _ _ fun u c => by simp)

@[simp] theorem viewsAtStart_time (s : State) : (viewsAtStart s).time = s.time := by
  unfold viewsAtStart
  simp [time_foldl, apply_ite State.time]

@[simp] theorem audioAtStart_time (s : State) : (audioAtStart s).time = s.time := by
  unfold audioAtStart
  simp [time_foldl, apply_ite State.time]

@[simp] theorem loopsAtStart_time (s : State) : (loopsAtStart s).time = s.time := by
  unfold loopsAtStart
  simp [time_foldl, apply_ite State.time]

@[simp] theorem readingsAtStart_time (s : State) : (readingsAtStart s).time = s.time := rfl
@[simp] theorem staleNonces_time (s : State) : (staleNonces s).time = s.time := rfl
@[simp] theorem haltBlocks_time (s : State) : (haltBlocks s).time = s.time := rfl

@[simp] theorem keepLanes_time (s : State) : (keepLanes s).time = s.time := by
  unfold keepLanes
  simp [time_foldl]

@[simp] theorem unmount_time (s : State) : (unmount s).time = s.time := by
  unfold unmount
  simp

@[simp] theorem completeSuspend_time (s : State) : (completeSuspend s).time = s.time := by
  unfold completeSuspend
  simp

@[simp] theorem settle_time (s : State) : (settle s).time = s.time := by
  unfold settle
  simp [apply_ite State.time]

/-! ### Role start: TOD begins at 0 (R488) -/

/-- The time a role starts with, whatever the blocks started after it do. -/
theorem roleStart_time (s : State) : ∃ u, (roleStart s).time = timeAtRoleStart u := by
  unfold roleStart
  extract_lets d s1 s2 s3
  refine ⟨s1, ?_⟩
  simp only [audioAtStart_time, viewsAtStart_time, loopsAtStart_time, mountVolume_time, s3, islandStart_time, s2,
    staleNonces_time, readingsAtStart_time]
  rfl

/-! ### Ticks (R488) -/

/-- A number of ticks more is that many and one more. -/
theorem tickTod_succ (n : Nat) (t : TimeState) : tickTod (n + 1) t = tickTod 1 (tickTod n t) := by
  have hpos : 0 < subPerSec := by decide
  have hsum : t.sub + (n + 1) * t.inc = (t.sub + n * t.inc) % subPerSec + t.inc + subPerSec * ((t.sub + n * t.inc) / subPerSec) := by
    have hdiv := Nat.mod_add_div (t.sub + n * t.inc) subPerSec
    rw [Nat.add_mul, Nat.one_mul]
    omega
  have hsec : (t.sec + (t.sub + (n + 1) * t.inc) / subPerSec) % 2 ^ 48 =
      ((t.sec + (t.sub + n * t.inc) / subPerSec) % 2 ^ 48 + ((t.sub + n * t.inc) % subPerSec + 1 * t.inc) / subPerSec) % 2 ^ 48 := by
    rw [hsum, Nat.add_mul_div_left _ _ hpos, Nat.mod_add_mod, Nat.one_mul]
    congr 1
    omega
  have hsub : (t.sub + (n + 1) * t.inc) % subPerSec = ((t.sub + n * t.inc) % subPerSec + 1 * t.inc) % subPerSec := by
    rw [hsum, Nat.add_mul_mod_self_left, Nat.one_mul]
  simp only [tickTod, hsec, hsub, Nat.add_assoc]

section
variable {t : TimeState} (hsub : t.sub < subPerSec) (hinc : t.inc < subPerSec) (hsec : t.sec + 1 < 2 ^ 48)
include hsec

/-- A tick within a second. -/
theorem tickTod_within (h : t.sub + t.inc < subPerSec) : (tickTod 1 t).sec = t.sec ∧ (tickTod 1 t).sub = t.sub + t.inc := by
  simp only [tickTod, Nat.one_mul, Nat.div_eq_of_lt h, Nat.mod_eq_of_lt h, Nat.add_zero, and_true]
  exact Nat.mod_eq_of_lt (by omega)

include hsub hinc

/-- A tick that reaches the next second. -/
theorem tickTod_carries (h : subPerSec ≤ t.sub + t.inc) :
    (tickTod 1 t).sec = t.sec + 1 ∧ (tickTod 1 t).sub = t.sub + t.inc - subPerSec := by
  have hlt : t.sub + t.inc - subPerSec < subPerSec := by omega
  have hdiv : (t.sub + t.inc) / subPerSec = 1 := Nat.div_eq_of_lt_le (by omega) (by omega)
  simp only [tickTod, Nat.one_mul, hdiv, Nat.mod_eq_sub_mod h, Nat.mod_eq_of_lt hlt, and_true]
  exact Nat.mod_eq_of_lt hsec

end

theorem todTick_time (n : Nat) (s : State) : ∃ t, exec (.todTick n) s = .next t ∧
    t.time = if s.time.running then tickTod n s.time else s.time :=
  ⟨settle (passTicks n s), rfl, settle_time _⟩

/-- Settles O53: role start and the entry into the suspended state are followed through what keeps the time, a tick through the
arithmetic of `tickTod`. -/
theorem todCounter : Obligations.TodCounter := by
  refine ⟨fun s h => ?roleStart, fun n s h => ?running, fun n s h => ?stopped, tickTod_succ,
    fun t hsub hinc hsec => ⟨tickTod_within hsec, tickTod_carries hsub hinc hsec⟩, fun s => ⟨rfl, rfl⟩⟩
  case roleStart =>
    obtain ⟨u, hu⟩ := roleStart_time s
    refine ⟨roleStart s, by simp [exec, execRoleStart, h], ?_, ?_⟩
    · simp [nowTod, hu, timeAtRoleStart]
    · rw [hu]
      rfl
  case running =>
    obtain ⟨t, ht, htime⟩ := todTick_time n s
    exact ⟨t, ht, by rw [htime, if_pos h]⟩
  case stopped =>
    obtain ⟨t, ht, htime⟩ := todTick_time n s
    exact ⟨t, ht, by rw [htime, h]; rfl⟩

end Sys2Proof.Proofs

/-! PROOFS. What keeps the capacities of the error queue and the event log (R707, R709, R762, R767). -/

namespace Sys2Proof.Proofs
open Sys2Proof Sys2Proof.Machine Sys2Proof.Laws

/-- The error queue, the log SRAM and the entries still to be programmed are within their capacities. -/
def Capped (s : State) : Prop := s.err.entries.length ≤ 64 ∧ s.log.sram.length ≤ 4096 ∧ s.log.waiting.length ≤ 4096

/-- A step that answers a next state leaves one within the capacities. -/
def CappedRes (r : Res) : Prop := ∀ t, r = .next t → Capped t

/-- The effect of a message keeps the capacities. -/
def ActCapped (d : MsgDef) : Prop := ∀ r tok u, Capped u → Capped (d.act r tok u).2

/-- The other parts of the state do not matter. -/
theorem capped_fields {s : State} (hs : Capped s) {pending dev otp nvm cfg mbx hf pwr time cap lanes plls links red comp codec rcd
    ep out dram isl islNv drawn} : Capped ⟨pending, dev, otp, nvm, cfg, s.log, s.err, mbx, hf, pwr, time, cap, lanes, plls, links,
    red, comp, codec, rcd, ep, out, dram, isl, islNv, drawn⟩ := hs

theorem capped_ite {c : Prop} [Decidable c] {s t : State} (hs : Capped s) (ht : Capped t) : Capped (if c then s else t) := by
  split
  · exact hs
  · exact ht

theorem capped_snd_ite {α : Type} {c : Prop} [Decidable c] {p q : α × State} (hp : Capped p.2) (hq : Capped q.2) :
    Capped (if c then p else q).2 := by
  split
  · exact hp
  · exact hq

theorem cappedRes_next {s : State} (h : Capped s) : CappedRes (.next s) := fun t ht => by
  cases ht
  exact h

theorem capped_foldl {α : Type} {g : State → α → State} {l : List α} {s : State} (h : Capped s)
    (hg : ∀ u x, Capped u → Capped (g u x)) : Capped (l.foldl g s) :=
  List.foldlRecOn (motive := Capped) l g h fun u hu x _ => hg u x hu

/-! ### The error queue and the log -/

theorem abandonLower_length (sev : Nat) (l : List ErrEntry) : (abandonLower sev l).length ≤ l.length := by
  unfold abandonLower
  split
  · exact List.length_filter_le ..
  · exact le_rfl

/-- The displaced entry stands in the queue. -/
theorem displaceable_lt {l : List ErrEntry} {sv i : Nat} (h : displaceable l = some (sv, i)) : i < l.length := by
  suffices hall : ∀ b, displaceable l = some b → b.2 < l.length from hall _ h
  unfold displaceable
  refine List.foldlRecOn (motive := fun o : Option (Nat × Nat) => ∀ b, o = some b → b.2 < l.length) _ _ (by simp) ?_
  intro best hbest p hp b hb
  have hmem := List.mem_of_mem_filter hp
  have hlt : p.2 < l.length := by simpa using (List.mem_zipIdx' hmem).1
  cases best with
  | none => cases hb; exact hlt
  | some c =>
    dsimp only at hb
    split at hb
    · cases hb; exact hlt
    · cases hb; exact hbest _ rfl

theorem queueNew_length {e : ErrEntry} {q : ErrorQueue} (h : q.entries.length ≤ 64) : (queueNew e q).entries.length ≤ 64 := by
  have hl := (abandonLower_length e.sev q.entries).trans h
  unfold queueNew
  dsimp only
  split
  next hroom => simpa using hroom
  next =>
    split
    next sv i hd =>
      have hi := displaceable_lt hd
      split
      · rw [countLost, List.length_append, List.length_eraseIdx_of_lt hi, List.length_singleton]
        omega
      · exact h
    next => exact h

theorem queueErr_length (code inst sev : Nat) (ds : List Nat) {q : ErrorQueue} (h : q.entries.length ≤ 64) :
    (queueErr code inst sev ds q).entries.length ≤ 64 := by
  unfold queueErr
  split
  · exact (abandonLower_length ..).trans (by simpa using h)
  · exact queueNew_length h

theorem pushLog_waiting (e : LogEntry) {l : EventLog} (h : l.waiting.length ≤ 4096) : (pushLog e l).waiting.length ≤ 4096 := by
  unfold pushLog
  dsimp only
  split <;> rw [List.length_append, List.length_singleton]
  · rw [List.length_drop]
    omega
  · omega

theorem pushLog_sram (e : LogEntry) (l : EventLog) : (pushLog e l).sram.length ≤ 4096 := by
  rw [pushLog, List.length_take]
  exact Nat.min_le_left _ _

section
variable {s : State} (hs : Capped s)
include hs

theorem raiseOne_capped (sev code inst : Nat) (ds : List Nat) : Capped (raiseOne sev code inst ds s) := by
  obtain ⟨herr, -, hwait⟩ := hs
  exact ⟨queueErr_length _ _ _ _ herr, pushLog_sram .., pushLog_waiting _ hwait⟩

theorem openRun_capped (code inst : Nat) : Capped (openRun code inst s) := capped_ite hs hs

theorem endRun_capped (code inst : Nat) : Capped (endRun code inst s) := hs

theorem raise_capped (sev code inst : Nat) (ds : List Nat) : Capped (raise sev code inst ds s) :=
  capped_ite (raiseOne_capped (openRun_capped (raiseOne_capped hs ..) ..) ..) (raiseOne_capped hs ..)

theorem raiseOnce_capped (sev code inst : Nat) (ds : List Nat) : Capped (raiseOnce sev code inst ds s) :=
  capped_ite hs (raise_capped (openRun_capped hs ..) ..)

/-- An error that is raised or not. -/
theorem capped_raise_if {c : Prop} [Decidable c] (sev code inst : Nat) (ds : List Nat) :
    Capped (if c then raise sev code inst ds s else s) := capped_ite (raise_capped hs ..) hs

end

/-! ### The operations of Machine/Ops.lean -/

section
variable {s : State} (hs : Capped s)
include hs

theorem enterConfigError_capped : Capped (enterConfigError s) := hs

theorem drawOne_capped : Capped (drawOne s) := hs

end

/-! ### The operations of Machine/Mailbox.lean -/

section
variable {s : State} (hs : Capped s)
include hs

theorem writeBulk_capped (off : Nat) (l : List Byte) : Capped (writeBulk off l s) := hs

theorem modChan_capped (c : Nat) (f : Chan → Chan) : Capped (modChan c f s) := hs

theorem modView_capped (v : View) (c : Nat) (f : ViewRegs → ViewRegs) : Capped (modView v c f s) := by
  cases v <;> exact hs

theorem deliver_capped (p : Path) (c : Nat) (ws : List Word) : Capped (deliver p c ws s) := by
  unfold deliver
  split
  · exact capped_ite (capped_fields (modView_capped hs ..)) (modView_capped hs ..)
  all_goals exact hs

theorem countAnswer_capped (c : Nat) (a : Answer) : Capped (countAnswer c a s) := by
  unfold countAnswer
  split
  · exact modChan_capped hs ..
  · exact capped_ite (raise_capped (modChan_capped hs ..) ..) (modChan_capped hs ..)

theorem answer_capped (d : Option MsgDef) (r : Req) (a : Answer) : Capped (answer d r a s) := by
  grind [answer, deliver_capped, countAnswer_capped]

/-- A request for a message that keeps the capacities keeps them. -/
theorem runReq_capped {d : Option MsgDef} (hd : ∀ x ∈ d, ActCapped x) (r : Req) (tok : Option Bool) :
    Capped (runReq d r tok s).2 := by
  unfold runReq
  split
  · exact hs
  next x =>
    refine capped_snd_ite hs (capped_snd_ite hs ?_)
    split
    · exact raise_capped hs ..
    · exact capped_snd_ite hs (capped_snd_ite hs (hd x rfl r _ s hs))

theorem complete_capped {d : Option MsgDef} (hd : ∀ x ∈ d, ActCapped x) (r : Req) (tok : Option Bool) :
    Capped (complete d r tok s) := answer_capped (runReq_capped hs hd r tok) ..

theorem dropSeq_capped (c : Nat) (p : Path) : Capped (dropSeq c p s) := hs

theorem endSeq_capped (c : Nat) (p : Path) : Capped (endSeq c p s) := by grind [endSeq, answer_capped, dropSeq_capped]

theorem useNonce_capped (p : Path) : Capped (useNonce p s) := hs

theorem holdSeq_capped (r : Req) : Capped (holdSeq r s) := hs

theorem discardPart_capped (c : Nat) : Capped (discardPart c s) := hs

theorem addPart_capped (r : Req) : Capped (addPart r s) := hs

theorem takePart_capped {defOf : Nat → Option MsgDef} (hd : ∀ k, ∀ x ∈ defOf k, ActCapped x) (r : Req) :
    Capped (takePart defOf r s) := by
  unfold takePart
  split
  · exact discardPart_capped hs ..
  · exact capped_ite (discardPart_capped (endSeq_capped hs ..) ..) (capped_ite (addPart_capped hs ..)
      (complete_capped (useNonce_capped (dropSeq_capped (addPart_capped hs ..) ..) ..) (hd _) ..))

theorem takeMsg_capped {d : Option MsgDef} (hd : ∀ x ∈ d, ActCapped x) (r : Req) :
    Capped (takeMsg d r s) := capped_ite (holdSeq_capped (endSeq_capped hs ..) ..) (complete_capped (endSeq_capped hs ..) hd ..)

theorem popMsg_capped (c : Nat) : Capped (popMsg c s) := hs

theorem screen_capped (defOf : Nat → Option MsgDef) (c k : Nat) : Capped (screen defOf c k s) := by
  induction k generalizing s with
  | zero => exact hs
  | succ k ih =>
    unfold screen
    split
    · exact capped_ite (ih (takeMsg_capped (popMsg_capped hs ..) (fun _ hd => by cases hd) ..)) hs
    · exact hs

theorem runHead_capped {defOf : Nat → Option MsgDef} (hd : ∀ k, ∀ x ∈ defOf k, ActCapped x)
    (mine : Req → Bool) (c : Nat) : Capped (runHead defOf mine c s) := by
  unfold runHead
  dsimp only
  split
  · exact capped_ite (screen_capped (takeMsg_capped (popMsg_capped (screen_capped hs ..) ..) (hd _) ..) ..)
      (screen_capped hs ..)
  · exact screen_capped hs ..

theorem enqueue_capped (c : Nat) (p : Path) (ws : List Word) : Capped (enqueue c p ws s) := hs

end

/-! ### The operations of Machine/Time.lean -/

section
variable {s : State} (hs : Capped s)
include hs

theorem modTime_capped (f : TimeState → TimeState) : Capped (modTime f s) := hs

theorem passTicks_capped (n : Nat) : Capped (passTicks n s) := hs

theorem writeInc_capped (v : Int) : Capped (writeInc v s) := by
  grind [writeInc, endRun_capped, raiseOnce_capped, modTime_capped]

theorem shiftTargets_capped (d : Int) : Capped (shiftTargets d s) := hs

theorem firstSample_capped (th : Int) : Capped (firstSample th s) := by
  grind [firstSample, raise_capped, modTime_capped, shiftTargets_capped]

theorem lockStates_capped (th : Int) : Capped (lockStates th s) := by grind [lockStates, raise_capped, modTime_capped]

theorem validSample_capped (th : Int) (dt : Nat) : Capped (validSample th dt s) := by
  grind [validSample, modTime_capped, writeInc_capped, firstSample_capped, lockStates_capped]

theorem takeSample_capped (th : Int) (at_ : Int) : Capped (takeSample th at_ s) := by
  grind [takeSample, modTime_capped, validSample_capped]

theorem holdover_capped : Capped (holdover s) := by grind [holdover, raise_capped, modTime_capped]

theorem modPtp_capped (m : Nat) (f : PtpPort → PtpPort) : Capped (modPtp m f s) := hs

theorem runBmca_capped : Capped (runBmca s) := hs

theorem drainTx_capped (m : Nat) : Capped (drainTx m s) := hs

theorem completeSync_capped (m : Nat) (stamp origin : Tod) (corr : Int) : Capped (completeSync m stamp origin corr s) := by
  grind [completeSync, takeSample_capped, modPtp_capped]

theorem execPtpSync_capped (m : Nat) (msg : PtpMsg) : CappedRes (execPtpSync m msg s) := by
  grind [execPtpSync, cappedRes_next, modPtp_capped, drainTx_capped, completeSync_capped]

theorem execPtpFollowUp_capped (m : Nat) (msg : PtpMsg) : CappedRes (execPtpFollowUp m msg s) := by
  grind [execPtpFollowUp, cappedRes_next, drainTx_capped, completeSync_capped]

theorem execPtpAnnounce_capped (m : Nat) (msg : AnnounceMsg) : CappedRes (execPtpAnnounce m msg s) := by
  grind [execPtpAnnounce, cappedRes_next, modPtp_capped, runBmca_capped, drainTx_capped]

theorem execPtpDelayReq_capped (m : Nat) (msg : PtpMsg) : CappedRes (execPtpDelayReq m msg s) := by
  grind [execPtpDelayReq, cappedRes_next, modPtp_capped, drainTx_capped]

theorem execPtpDelayResp_capped (m : Nat) (msg : PtpMsg) : CappedRes (execPtpDelayResp m msg s) := by
  grind [execPtpDelayResp, cappedRes_next, modPtp_capped, drainTx_capped]

theorem queueStamp_capped (m : Nat) (x : TxStamp) : Capped (queueStamp m x s) := by
  grind [queueStamp, endRun_capped, raiseOnce_capped, modPtp_capped]

theorem execPtpSendTimer_capped (m : Nat) (kind : PtpSend) : CappedRes (execPtpSendTimer m kind s) := by
  unfold execPtpSendTimer
  refine cappedRes_next ?_
  split <;> grind [cappedRes_next, modPtp_capped, queueStamp_capped]

theorem execTimeSourceTimeout_capped : CappedRes (execTimeSourceTimeout s) := by
  grind [execTimeSourceTimeout, cappedRes_next, holdover_capped, modPtp_capped, runBmca_capped]

theorem modExp_capped (n : Nat) (f : ExpSched → ExpSched) : Capped (modExp n f s) := hs

end

/-! ### The operations of Machine/Ingest.lean -/

section
variable {s : State} (hs : Capped s)
include hs

theorem modCap_capped (f : Capture → Capture) : Capped (modCap f s) := hs

theorem modSeam_capped (n : Nat) (f : Seam → Seam) : Capped (modSeam n f s) := hs

theorem modPort_capped (p : Nat) (f : Port → Port) : Capped (modPort p f s) := hs

theorem freeClaims_capped (n : Nat) : Capped (freeClaims n s) := hs

theorem noteDrop_capped (n : Nat) : Capped (noteDrop n s) := hs

theorem dropReceiving_capped (n : Nat) : Capped (dropReceiving n s) := by
  grind [dropReceiving, modSeam_capped, freeClaims_capped, noteDrop_capped]

theorem countRingDrop_capped (n : Nat) : Capped (countRingDrop n s) := hs

theorem overflowDrop_capped (n : Nat) : Capped (overflowDrop n s) := by grind [overflowDrop, raise_capped, countRingDrop_capped]

theorem commitArrival_capped (n num : Nat) (index : Int) : Capped (commitArrival n num index s) := hs

theorem noteFirst_capped : Capped (noteFirst s) := hs

theorem arrive_capped (n : Nat) (h : FrameHeader) (index : Int) : Capped (arrive n h index s) := by
  grind [arrive, raise_capped, modSeam_capped, noteDrop_capped, overflowDrop_capped, commitArrival_capped, noteFirst_capped]

theorem modReceiving_capped (n : Nat) (f : SeamFrame → SeamFrame) : Capped (modReceiving n f s) := hs

theorem claimStripe_capped (n : Nat) : Capped (claimStripe n s) := by
  grind [claimStripe, modSeam_capped, dropReceiving_capped, overflowDrop_capped, modReceiving_capped]

theorem markCropped_capped (n : Nat) : Capped (markCropped n s) := by grind [markCropped, raise_capped, modReceiving_capped]

theorem writeLine_capped (n : Nat) (l : List Nat) : Capped (writeLine n l s) := by
  grind [writeLine, raise_capped, dropReceiving_capped, modReceiving_capped, markCropped_capped]

theorem endReceiving_capped (n : Nat) : Capped (endReceiving n s) := by
  grind [endReceiving, raise_capped, modSeam_capped, dropReceiving_capped, modReceiving_capped]

theorem modFrame_capped (n num : Nat) (f : SeamFrame → SeamFrame) : Capped (modFrame n num f s) := by
  grind [modFrame, modSeam_capped]

theorem execSourceAbsentExpiry_capped (seam : Nat) : CappedRes (execSourceAbsentExpiry seam s) := by
  grind [execSourceAbsentExpiry, cappedRes_next, raiseOnce_capped, modSeam_capped]

end

/-! ### The operations of Machine/LinkOps.lean -/

section
variable {s : State} (hs : Capped s)
include hs

theorem modLane_capped (n : Nat) (f : Lane → Lane) : Capped (modLane n f s) := hs

theorem laneErr_capped (sev n kind detail : Nat) : Capped (laneErr sev n kind detail s) := by grind [laneErr, raise_capped]

theorem endScan_capped (status n : Nat) : Capped (endScan status n s) := by grind [endScan, modLane_capped]

theorem restartLanes_capped (ns : List Nat) : Capped (restartLanes ns s) := by
  induction ns generalizing s with
  | nil => exact hs
  | cons n ns ih => exact ih (modLane_capped (endScan_capped hs ..) ..)

theorem modGroup_capped (g : Nat) (f : LinkGroup → LinkGroup) : Capped (modGroup g f s) := hs

theorem modStream_capped (g k : Nat) (f : LinkStream → LinkStream) : Capped (modStream g k f s) := hs

theorem queueControl_capped (g subtype : Nat) (ws : List Word) : Capped (queueControl g subtype ws s) := hs

theorem dropStream_capped (g k : Nat) : Capped (dropStream g k s) := by
  grind [dropStream, modSeam_capped, dropReceiving_capped, modStream_capped]

theorem dropStreams_capped (g : Nat) : Capped (dropStreams g s) := by grind [dropStreams, dropStream_capped]

theorem clearFlight_capped (st : Nat) (g : Nat) : Capped (clearFlight st g s) := by
  grind [clearFlight, modGroup_capped, dropStreams_capped]

theorem retrainFrom_capped (st g : Nat) : Capped (retrainFrom st g s) := by
  grind [retrainFrom, restartLanes_capped, clearFlight_capped]

theorem retrain_capped (g : Nat) : Capped (retrain g s) := by grind [retrain, raise_capped, modGroup_capped, retrainFrom_capped]

end

/-! ### The operations of Machine/Island.lean -/

section
variable {s : State} (hs : Capped s)
include hs

theorem modIsl_capped (f : Island → Island) : Capped (modIsl f s) := hs

theorem modIslSeam_capped (n : Nat) (f : IslandSeam → IslandSeam) : Capped (modIslSeam n f s) := hs

theorem modStrobe_capped (n : Nat) (f : Strobe → Strobe) : Capped (modStrobe n f s) := hs

theorem execStrobeEdge_capped (input : Nat) (high : Bool) (stamp : Tod) : CappedRes (execStrobeEdge input high stamp s) := by
  grind [execStrobeEdge, cappedRes_next, modStrobe_capped]

theorem islandLog_capped (code : Nat) (ws : List Nat) : Capped (islandLog code ws s) := hs

theorem execPpsInEdge_capped (stamp : Tod) : CappedRes (execPpsInEdge stamp s) := by
  grind [execPpsInEdge, cappedRes_next, modIsl_capped, islandLog_capped]

theorem execPpsOutSecond_capped : CappedRes (execPpsOutSecond s) := by grind [execPpsOutSecond, cappedRes_next, modIsl_capped]

theorem openRecord_capped (n port num tag : Nat) (exp : Tod) : Capped (openRecord n port num tag exp s) := by
  grind [openRecord, endRun_capped, raiseOnce_capped, modIsl_capped, modIslSeam_capped, modStrobe_capped]

theorem pushIsland_capped (e : IslandEntry) : Capped (pushIsland e s) := by grind [pushIsland, raise_capped, modIsl_capped]

theorem chainRecord_capped (n : Nat) (r : OpenRecord) : Capped (chainRecord n r s) := by
  grind [chainRecord, modIsl_capped, modIslSeam_capped, pushIsland_capped]

theorem chainClosed_capped (n k : Nat) : Capped (chainClosed n k s) := by
  induction k generalizing s with
  | zero => exact hs
  | succ k ih =>
    unfold chainClosed
    split
    · exact hs
    · exact capped_ite hs (ih (chainRecord_capped (modIslSeam_capped hs ..) ..))

theorem closeRecord_capped (n num : Nat) (dig : List Byte) : Capped (closeRecord n num dig s) := by
  grind [closeRecord, modIslSeam_capped, chainClosed_capped]

theorem sendEvidence_capped (kind : Nat) (b : List Byte) : Capped (sendEvidence kind b s) :=
  capped_ite (capped_foldl hs fun _ _ hu => queueControl_capped hu ..) hs

theorem signSeam_capped (n flags : Nat) (start : Bool) : Capped (signSeam n flags start s) := by
  grind [signSeam, drawOne_capped, modIsl_capped, modIslSeam_capped, pushIsland_capped, sendEvidence_capped]

theorem signAll_capped (flags : Nat) (start : Bool) (ns : List Nat) : Capped (signAll flags start ns s) :=
  capped_foldl hs fun u x hu => by grind [signSeam_capped]

theorem execIslandSignature_capped : CappedRes (execIslandSignature s) := by
  grind [execIslandSignature, cappedRes_next, endRun_capped, raiseOnce_capped, signSeam_capped]

theorem verifyCal_capped : Capped (verifyCal s) := by
  grind [verifyCal, raise_capped, drawOne_capped, modIsl_capped, islandLog_capped]

theorem sealAtStart_capped (change : Bool) (d : List Byte) : Capped (sealAtStart change d s) := by
  grind [sealAtStart, capped_fields, drawOne_capped]

theorem islandStart_capped (fw : Option (List Byte)) (supply : Bool) : Capped (islandStart fw supply s) := by
  unfold islandStart
  split <;> grind [capped_fields, raise_capped, modIsl_capped, islandLog_capped, signAll_capped, verifyCal_capped,
    sealAtStart_capped]

theorem takeHeadRecord_capped (n : Nat) (b : List Byte) : Capped (takeHeadRecord n b s) := by
  grind [takeHeadRecord, raise_capped, modIsl_capped]

theorem takeHeadSignature_capped (g : Nat) (seamOf_ : Nat → Option Nat) (b : List Byte) :
    Capped (takeHeadSignature g seamOf_ b s) := by grind [takeHeadSignature, raise_capped, modIsl_capped]

theorem noteRead_capped (n : Nat) (es : List IslandEntry) : Capped (noteRead n es s) := by grind [noteRead, modIsl_capped]

end

/-! ### The operations of Machine/Lanes.lean -/

section
variable {s : State} (hs : Capped s)
include hs

theorem execLanePllLock_capped (quad : Nat) (ab : Bool) : CappedRes (execLanePllLock quad ab s) := by
  grind [execLanePllLock, cappedRes_next, capped_fields]

theorem losePll_capped (ns : List Nat) : Capped (losePll ns s) := by
  induction ns generalizing s with
  | nil => exact hs
  | cons n ns ih => exact ih (capped_ite (laneErr_capped (modLane_capped (endScan_capped hs ..) ..) ..) hs)

theorem execLanePllRelock_capped (quad : Nat) (ab locked : Bool) : CappedRes (execLanePllRelock quad ab locked s) := by
  grind [execLanePllRelock, cappedRes_next, capped_fields]

theorem stepCoeff_capped (n tap dir : Nat) : Capped (stepCoeff n tap dir s).2 := by grind [stepCoeff, modLane_capped]

theorem ethernetTraining_capped (n : Nat) (obs : LaneObs) : Capped (ethernetTraining n obs s) :=
  capped_ite (modLane_capped (capped_foldl hs fun _ _ hu => stepCoeff_capped hu ..) ..) (modLane_capped hs ..)

theorem pcieOrder_capped (n : Nat) (obs : LaneObs) : Capped (pcieOrder n obs s) := by
  grind [pcieOrder, modLane_capped, laneErr_capped]

theorem adaptLane_capped (n : Nat) (obs : LaneObs) : Capped (adaptLane n obs s) := by
  grind [adaptLane, modLane_capped, laneErr_capped, ethernetTraining_capped, pcieOrder_capped]

theorem execLaneBringUp_capped (lane : Nat) (obs : LaneObs) : CappedRes (execLaneBringUp lane obs s) := by
  grind [execLaneBringUp, cappedRes_next, modLane_capped, laneErr_capped, endScan_capped, adaptLane_capped]

theorem execSignalDetect_capped (lane : Nat) : CappedRes (execSignalDetect lane s) := by
  grind [execSignalDetect, cappedRes_next, modLane_capped]

theorem execDfeUpdate_capped (lane : Nat) (signs : List Int) (gainSign : Int) :
    CappedRes (execDfeUpdate lane signs gainSign s) := by grind [execDfeUpdate, cappedRes_next, modLane_capped]

theorem execCtleUpdate_capped (lane below here above : Nat) : CappedRes (execCtleUpdate lane below here above s) := by
  grind [execCtleUpdate, cappedRes_next, modLane_capped]

theorem execAdaptationAtLimit_capped (lane : Nat) : CappedRes (execAdaptationAtLimit lane s) := by
  grind [execAdaptationAtLimit, cappedRes_next, modLane_capped, laneErr_capped]

theorem beginFault_capped (lane bit kind sev detail : Nat) : Capped (beginFault lane bit kind sev detail s) := by
  grind [beginFault, modLane_capped, laneErr_capped]

theorem execTransmitterLegFault_capped (lane : Nat) (legsTogether : Bool) :
    CappedRes (execTransmitterLegFault lane legsTogether s) := by
  grind [execTransmitterLegFault, cappedRes_next, modLane_capped, endScan_capped, beginFault_capped]

theorem execTransmitterRetry_capped (lane : Nat) : CappedRes (execTransmitterRetry lane s) := by
  grind [execTransmitterRetry, cappedRes_next, modLane_capped]

theorem execLaneFaultEnd_capped (lane : Nat) (f : LaneFault) : CappedRes (execLaneFaultEnd lane f s) := by
  grind [execLaneFaultEnd, cappedRes_next, modLane_capped]

theorem execScanPointComplete_capped (lane errors : Nat) : CappedRes (execScanPointComplete lane errors s) := by
  grind [execScanPointComplete, cappedRes_next, modLane_capped]

theorem scanStartAct_capped (n : Nat) (r : Req) : Capped (scanStartAct n r s).2 := by
  grind [scanStartAct, drawOne_capped, modLane_capped]

theorem scanReadAct_capped (n : Nat) (r : Req) : Capped (scanReadAct n r s).2 := by grind [scanReadAct, writeBulk_capped]

theorem testSetUpAct_capped (n : Nat) (r : Req) : Capped (testSetUpAct n r s).2 := by grind [testSetUpAct, modLane_capped]

theorem bitSlipAct_capped (n : Nat) (r : Req) : Capped (bitSlipAct n r s).2 := by grind [bitSlipAct, modLane_capped]

theorem checkerReadAct_capped (n : Nat) : Capped (checkerReadAct n s).2 := by grind [checkerReadAct, drawOne_capped]

theorem laneAct_capped (n : Nat) (r : Req) : Capped (laneAct n r s).2 := by
  grind [laneAct, endScan_capped, scanStartAct_capped, scanReadAct_capped, testSetUpAct_capped, bitSlipAct_capped,
    checkerReadAct_capped]

end

/-! ### The operations of Machine/EpOps.lean -/

section
variable {s : State} (hs : Capped s)
include hs

theorem modEp_capped (f : Endpoint → Endpoint) : Capped (modEp f s) := hs

theorem modCq_capped (q : Nat) (f : CplQ → CplQ) : Capped (modCq q f s) := by grind [modCq, modEp_capped]

theorem raiseMsix_capped (v : Nat) : Capped (raiseMsix v s) := hs

theorem deliverCq_capped (qid : Nat) (x : Completion) : Capped (deliverCq qid x s) := by
  grind [deliverCq, modEp_capped, modCq_capped, raiseMsix_capped]

theorem postHeld_capped (k n : Nat) : Capped (postHeld k n s) := by
  induction k generalizing s with
  | zero => exact hs
  | succ k ih =>
    unfold postHeld
    split
    · exact hs
    · split
      · exact hs
      · exact capped_ite (ih (modCq_capped (deliverCq_capped (modCq_capped hs ..) ..) ..)) hs

theorem completeOn_capped (sq : Nat) (cmd : NvmeCmd) (a status dw0 : Nat) (data : List Byte) :
    Capped (completeOn sq cmd a status dw0 data s) := by grind [completeOn, modEp_capped, deliverCq_capped]

theorem finishCmd_capped (a status dw0 : Nat) (data : List Byte) : Capped (finishCmd a status dw0 data s) := by
  grind [finishCmd, completeOn_capped]

theorem pushEvent_capped (dw0 : Nat) : Capped (pushEvent dw0 s) := by grind [pushEvent, modEp_capped, finishCmd_capped]

theorem noticeNs_capped : Capped (noticeNs s) := by grind [noticeNs, pushEvent_capped]

theorem noticeTemp_capped (before : State) : Capped (noticeTemp before s) := capped_ite (pushEvent_capped hs ..) hs

theorem noticeReadOnly_capped : Capped (noticeReadOnly s) := by grind [noticeReadOnly, pushEvent_capped]

end

/-! ### The operations of Machine/RecOps.lean -/

section
variable {s : State} (hs : Capped s)
include hs

theorem modRec_capped (f : Recorder → Recorder) : Capped (modRec f s) := hs

theorem modRecStream_capped (j : Nat) (f : RecStream → RecStream) : Capped (modRecStream j f s) := hs

theorem dealUnits_capped : Capped (dealUnits s) := by grind [dealUnits, modRec_capped]

theorem offerUnit_capped (j : Nat) (u : RecUnit) : Capped (offerUnit j u s) := by
  grind [offerUnit, capped_fields, modRec_capped, dealUnits_capped]

theorem acceptUnit_capped (current j : Nat) (u : RecUnit) : Capped (acceptUnit current j u s) := by
  grind [acceptUnit, modRecStream_capped, offerUnit_capped]

theorem missUnit_capped : Capped (missUnit s) := by grind [missUnit, raise_capped, modRec_capped]

theorem boundReady_capped (n j : Nat) : Capped (boundReady n j s) := by grind [boundReady, modRecStream_capped, missUnit_capped]

theorem abandonWrites_capped : Capped (abandonWrites s) := by grind [abandonWrites, capped_fields, modRec_capped]

end

/-! ### The operations of Machine/RedOps.lean -/

section
variable {s : State} (hs : Capped s)
include hs

theorem modRed_capped (f : Redundancy → Redundancy) : Capped (modRed f s) := hs

theorem sendClaim_capped (epoch reason : Nat) : Capped (sendClaim epoch reason s) := by grind [sendClaim, queueControl_capped]

theorem claim_capped (epoch reason : Nat) : Capped (claim epoch reason s) := by grind [claim, modRed_capped, sendClaim_capped]

theorem sendTakeover_capped (kind : Nat) : Capped (sendTakeover kind s) := by grind [sendTakeover, modGroup_capped]

theorem beginResync_capped : Capped (beginResync s) := by grind [beginResync, modRed_capped, sendTakeover_capped]

theorem syncIfReady_capped : Capped (syncIfReady s) := by grind [syncIfReady, modRed_capped, claim_capped]

theorem redLinkDown_capped : Capped (redLinkDown s) := by grind [redLinkDown, modRed_capped]

theorem resyncAgain_capped : Capped (resyncAgain s) := by grind [resyncAgain, sendTakeover_capped]

theorem claimOnActive_capped (again : Bool) : Capped (claimOnActive again s) := by
  grind [claimOnActive, sendClaim_capped, claim_capped, syncIfReady_capped]

theorem depose_capped : Capped (depose s) := by grind [depose, raise_capped, abandonWrites_capped, beginResync_capped]

theorem declareFailure_capped : Capped (declareFailure s) := by
  unfold declareFailure
  dsimp only
  have hfold := @capped_foldl
  grind [raise_capped, clearFlight_capped, abandonWrites_capped, modRed_capped, sendTakeover_capped]

theorem sendVerdict_capped (g : Nat) (accepted deposed : Bool) : Capped (sendVerdict g accepted deposed s) := by
  grind [sendVerdict, queueControl_capped]

theorem headClaim_capped (g epoch serial reason : Nat) : Capped (headClaim g epoch serial reason s) := by
  grind [headClaim, endRun_capped, modRed_capped, sendVerdict_capped]

end

/-! ### The operations of Machine/Codec.lean -/

section
variable {s : State} (hs : Capped s)
include hs

theorem modCodec_capped (f : Codec → Codec) : Capped (modCodec f s) := hs

theorem modEnc_capped (m : Nat) (f : EncStream → EncStream) : Capped (modEnc m f s) := hs

theorem modDec_capped (m : Nat) (f : DecStream → DecStream) : Capped (modDec m f s) := hs

theorem modEncSource_capped (m : Nat) (f : OutRing → OutRing) : Capped (modEncSource m f s) := by
  grind [modEncSource, modCap_capped, modDec_capped]

theorem takeInputs_capped (m k : Nat) : Capped (takeInputs m k s) := by
  induction k generalizing s with
  | zero => exact hs
  | succ k ih =>
    unfold takeInputs
    refine capped_ite hs ?_
    split
    · exact hs
    · exact capped_ite (modEnc_capped (modEncSource_capped (modEnc_capped hs ..) ..) ..) (ih (modEnc_capped hs ..))

theorem takeInput_capped (m : Nat) : Capped (takeInput m s) := by grind [takeInput, takeInputs_capped]

theorem offerInput_capped (kind : Bool) (i : Nat) : Capped (offerInput kind i s) :=
  capped_foldl hs fun u x hu => by grind [takeInput_capped]

theorem loadRate_capped (m : Nat) : Capped (loadRate m s) := by grind [loadRate, modEnc_capped]

end

/-! ### The operations of Machine/Volume.lean -/

section
variable {s : State} (hs : Capped s)
include hs

theorem modSsd_capped (k : Nat) (f : Ssd → Ssd) : Capped (modSsd k f s) := hs

theorem modMedia_capped (k : Nat) (f : Media → Media) : Capped (modMedia k f s) := hs

theorem sendSsd_capped (port queue : Nat) (op : SsdOp) : Capped (sendSsd port queue op s) := by
  grind [sendSsd, modRec_capped, modSsd_capped]

theorem sendLists_capped (ops : Nat → Ssd → List SsdOp) : Capped (sendLists ops s) :=
  capped_foldl hs fun _ _ hu => capped_foldl hu fun _ _ hv => sendSsd_capped hv ..

theorem sendAll_capped (op : Nat → SsdOp) : Capped (sendAll op s) := by grind [sendAll, sendLists_capped]

theorem sendAdmin_capped (port : Nat) (c : SsdAdmin) : Capped (sendAdmin port c s) := by grind [sendAdmin, sendSsd_capped]

theorem walk_capped (write : Bool) (vs : List Nat) : Capped (walk write vs s) := by grind [walk, modRec_capped]

theorem setupMember_capped (k : Nat) : Capped (setupMember k s) := by
  unfold setupMember
  exact modSsd_capped (capped_foldl hs fun _ _ hu => sendAdmin_capped hu ..) ..

theorem acquireVolume_capped (preempt : Bool) : Capped (acquireVolume preempt s) := by
  unfold acquireVolume
  dsimp only
  have hfold := @capped_foldl
  grind [raise_capped, modRec_capped, modMedia_capped, sendAdmin_capped]

theorem mountFrom_capped (b : SuperBlk) (members : List (Nat × SuperBlk)) : Capped (mountFrom b members s) := by
  grind [mountFrom, raise_capped, modRec_capped, walk_capped, acquireVolume_capped]

theorem mountVolume_capped : Capped (mountVolume s) := by
  unfold mountVolume
  refine capped_ite hs ?_
  extract_lets ports u bad found ms
  have hu : Capped u := capped_foldl hs fun _ _ ht => capped_ite (setupMember_capped ht ..) ht
  refine capped_ite (capped_foldl hu fun _ _ ht => raise_capped ht ..) ?_
  split
  · exact raise_capped hu ..
  · exact capped_ite (mountFrom_capped hu ..) (raise_capped hu ..)

theorem formatVolume_capped (sidecars : Nat) : Capped (formatVolume sidecars s) := by
  unfold formatVolume
  dsimp only
  have hfold := @capped_foldl
  grind [raise_capped, drawOne_capped, modRec_capped, modMedia_capped, acquireVolume_capped]

end

/-! ### The operations of Machine/Playback.lean -/

section
variable {s : State} (hs : Capped s)
include hs

theorem modPlay_capped (m : Nat) (f : Playback → Playback) : Capped (modPlay m f s) := hs

theorem askPieces_capped (m : Nat) (ps : List (Nat × Nat × Nat × Nat)) : Capped (askPieces m ps s) := by
  induction ps generalizing s with
  | nil => exact hs
  | cons p ps ih => exact ih (capped_ite (modPlay_capped hs ..) (sendSsd_capped (modPlay_capped hs ..) ..))

theorem playPump_capped (m : Nat) : Capped (playPump m s) := by grind [playPump, walk_capped, modPlay_capped, askPieces_capped]

end

/-! ### The operations of Machine/Decoder.lean -/

section
variable {s : State} (hs : Capped s)
include hs

theorem outputPicture_capped (m : Nat) (p : DecPic) : Capped (outputPicture m p s) := by
  grind [outputPicture, raise_capped, modDec_capped, offerInput_capped]

theorem bump_capped (m : Nat) : Capped (bump m s) := by grind [bump, modDec_capped, outputPicture_capped]

theorem bumpWhile_capped (m size k : Nat) : Capped (bumpWhile m size k s) := by
  induction k generalizing s with
  | zero => exact hs
  | succ k ih => exact capped_ite (ih (bump_capped hs ..)) hs

theorem bumpAll_capped (m k : Nat) : Capped (bumpAll m k s) := by
  induction k generalizing s with
  | zero => exact hs
  | succ k ih => exact capped_ite (ih (bump_capped hs ..)) hs

theorem execDecodedPictureOutput_capped (m : Nat) : CappedRes (execDecodedPictureOutput m s) := by
  grind [execDecodedPictureOutput, cappedRes_next, bump_capped]

theorem skipAu_capped (m : Nat) : Capped (skipAu m s) := hs

theorem beginDecode_capped (m : Nat) (l : List Byte) : Capped (beginDecode m l s) := by
  grind [beginDecode, raise_capped, modDec_capped, playPump_capped, skipAu_capped]

theorem tryDecodes_capped (m k : Nat) : Capped (tryDecodes m k s) := by
  induction k generalizing s with
  | zero => exact hs
  | succ k ih =>
    unfold tryDecodes
    refine capped_ite ?_ hs
    split
    · exact ih (beginDecode_capped hs ..)
    · exact hs

theorem tryDecode_capped (m : Nat) : Capped (tryDecode m s) := by grind [tryDecode, tryDecodes_capped]

theorem feedDecoder_capped (m : Nat) (l : List Byte) (last : Bool) : Capped (feedDecoder m l last s) := by
  grind [feedDecoder, modDec_capped, tryDecode_capped]

theorem execDecodeTime_capped (m : Nat) : CappedRes (execDecodeTime m s) := by
  grind [execDecodeTime, cappedRes_next, tryDecode_capped]

theorem execAccessUnitTimeout_capped (m : Nat) : CappedRes (execAccessUnitTimeout m s) := by
  grind [execAccessUnitTimeout, cappedRes_next, raise_capped, skipAu_capped, beginDecode_capped, tryDecode_capped]

theorem renewDpb_capped (m : Nat) (discard : Bool) : Capped (renewDpb m discard s) := by
  grind [renewDpb, modDec_capped, bumpAll_capped]

theorem startPicture_capped (m : Nat) (a : DecAu) : Capped (startPicture m a s).2 := by
  grind [startPicture, raise_capped, modDec_capped, bumpWhile_capped, renewDpb_capped]

theorem finishDecode_capped (m : Nat) (a : DecAu) : Capped (finishDecode m a s) := by
  unfold finishDecode
  extract_lets sl covered stopped d other planes con hd fmt p bad t u v
  have hv : Capped v := capped_raise_if (capped_raise_if (modDec_capped hs ..) ..) ..
  exact capped_ite (raise_capped (modDec_capped hv ..) ..) hv

theorem flushDecoder_capped (m : Nat) : Capped (flushDecoder m s) := by grind [flushDecoder, modCodec_capped, modDec_capped]

end

/-! ### The operations of Machine/Encoder.lean -/

section
variable {s : State} (hs : Capped s)
include hs

theorem trimRing_capped (m : Nat) : Capped (trimRing m s) := hs

theorem execEncodePictureBegin_capped (m : Nat) : CappedRes (execEncodePictureBegin m s) := by
  grind [execEncodePictureBegin, cappedRes_next, raise_capped, modEnc_capped, modEncSource_capped, takeInput_capped,
    loadRate_capped, trimRing_capped]

theorem pushRing_capped (m : Nat) (p : EncPic) : Capped (pushRing m p s) := by grind [pushRing, modEnc_capped, trimRing_capped]

theorem publishSlices_capped (m : Nat) : Capped (publishSlices m s) := by grind [publishSlices, modEnc_capped, pushRing_capped]

theorem endPicture_capped (m : Nat) (p : EncPic) : Capped (endPicture m p s) := by
  unfold endPicture
  dsimp only
  repeat' split
  all_goals grind [raise_capped, modEnc_capped, pushRing_capped]

theorem offerAu_capped (m : Nat) (p : EncPic) : Capped (offerAu m p s) := by grind [offerAu, acceptUnit_capped]

theorem finishPicture_capped (m : Nat) (p : EncPic) : Capped (finishPicture m p s) := by
  grind [finishPicture, endPicture_capped, offerAu_capped]

theorem beginFallback_capped (m i : Nat) (p : EncPic) : Capped (beginFallback m i p s) := by
  grind [beginFallback, raise_capped, modCodec_capped, modEnc_capped]

end

/-! ### The operations of Machine/Engines.lean -/

section
variable {s : State} (hs : Capped s)
include hs

theorem spendBins_capped (m bins : Nat) : Capped (spendBins m bins s) := hs

theorem pixelEncode_capped (m : Nat) : Capped (pixelEncode m s) := by
  grind [pixelEncode, modCodec_capped, modEnc_capped, modEncSource_capped, takeInput_capped]

theorem pixelDecode_capped : Capped (pixelDecode s) := by
  grind [pixelDecode, modCodec_capped, modDec_capped, startPicture_capped, finishDecode_capped]

theorem execPixelEngineUnit_capped : CappedRes (execPixelEngineUnit s) := by
  grind [execPixelEngineUnit, cappedRes_next, pixelEncode_capped, pixelDecode_capped]

theorem codeCtus_capped (m : Nat) (dc : Bool) (es : List (List Nat)) (i : Nat) : Capped (codeCtus m dc es i s) := by
  induction es generalizing i s with
  | nil => exact hs
  | cons e es ih =>
    unfold codeCtus
    split
    · exact hs
    next p _ =>
      have hspend := spendBins_capped hs m
      grind [beginFallback_capped, modEnc_capped, raise_capped, publishSlices_capped, finishPicture_capped]

theorem entropyEncode_capped : Capped (entropyEncode s) := by grind [entropyEncode, modCodec_capped, codeCtus_capped]

theorem entropyDecode_capped (m : Nat) : Capped (entropyDecode m s) := by
  grind [entropyDecode, modCodec_capped, modDec_capped, tryDecode_capped, spendBins_capped]

theorem execEntropyEngineUnit_capped : CappedRes (execEntropyEngineUnit s) := by
  grind [execEntropyEngineUnit, cappedRes_next, entropyEncode_capped, entropyDecode_capped]

end

/-! ### The operations of Machine/Output.lean -/

section
variable {s : State} (hs : Capped s)
include hs

theorem modOuts_capped (f : Outputs → Outputs) : Capped (modOuts f s) := hs

theorem modOutput_capped (o : OutId) (f : Output → Output) : Capped (modOutput o f s) := by
  unfold modOutput
  split <;> grind [modOuts_capped]

theorem modMac_capped (m : Nat) (f : Mac → Mac) : Capped (modMac m f s) := hs

theorem modSrcRing_capped (kind idx : Nat) (f : OutRing → OutRing) : Capped (modSrcRing kind idx f s) := by
  grind [modSrcRing, modCap_capped, modDec_capped]

theorem takeHold_capped (o : OutId) (i : Nat) : Capped (takeHold o i s) := by
  grind [takeHold, modOutput_capped, modSrcRing_capped]

theorem repeatHeld_capped (o : OutId) : Capped (repeatHeld o s) := by grind [repeatHeld, raise_capped, modOutput_capped]

theorem execOutputFrameSelect_capped (o : OutId) : CappedRes (execOutputFrameSelect o s) := by
  grind [execOutputFrameSelect, cappedRes_next, modOutput_capped, takeHold_capped, repeatHeld_capped]

theorem macSend_capped (m ip k : Nat) : Capped (macSend m ip k s) := by grind [macSend, modMac_capped]

theorem sendPackets_capped (n k : Nat) : Capped (sendPackets n k s) :=
  capped_foldl hs fun u x hu => by grind [modOutput_capped, macSend_capped]

theorem steerPair_capped (o : OutId) (errPs : Int) : Capped (steerPair o errPs s) := by
  unfold steerPair
  split <;> grind [modOuts_capped]

theorem execOutputFrameStart_capped (o : OutId) (errPs : Int) : CappedRes (execOutputFrameStart o errPs s) := by
  grind [execOutputFrameStart, cappedRes_next, raise_capped, modOutput_capped, sendPackets_capped, steerPair_capped]

theorem execAudioPacketTimer_capped (snd : Nat) : CappedRes (execAudioPacketTimer snd s) := by
  grind [execAudioPacketTimer, cappedRes_next, modOutput_capped, sendPackets_capped]

theorem execMacLinkUp_capped (mac : Nat) : CappedRes (execMacLinkUp mac s) := by
  grind [execMacLinkUp, cappedRes_next, modMac_capped]

theorem execMacLinkDown_capped (mac : Nat) : CappedRes (execMacLinkDown mac s) := by
  grind [execMacLinkDown, cappedRes_next, raise_capped, modMac_capped]

theorem macGot_capped (m : Nat) : Capped (macGot m s) := hs

theorem macDiscard_capped (m : Nat) : Capped (macDiscard m s) := hs

theorem macAnswer_capped (m : Nat) (frame : List Byte) : Capped (macAnswer m frame s) := hs

theorem takeFrame_capped (m : Nat) (k : EthKind) : Capped (takeFrame m s k) := by
  induction k with
  | arpRequest ip sip sm => exact capped_ite (macAnswer_capped (macGot_capped hs ..) ..) (macGot_capped hs ..)
  | arpReply ip a => exact macGot_capped (modMac_capped hs ..) ..
  | icmpEcho ip icmp => exact macAnswer_capped (macGot_capped hs ..) ..
  | ptp => exact macGot_capped hs ..
  | ptpOther => exact modPtp_capped (macGot_capped hs ..) ..
  | mailboxUdp => exact capped_ite (macDiscard_capped (macGot_capped hs ..) ..) (macGot_capped hs ..)
  | pause => exact modMac_capped (macDiscard_capped (macGot_capped hs ..) ..) ..
  | other => exact macDiscard_capped (macGot_capped hs ..) ..
  | framed n tags k ih => exact capped_ite (macDiscard_capped (macGot_capped hs ..) ..) ih

theorem execEthernetFrameReceive_capped (mac : Nat) (kind : EthKind) : CappedRes (execEthernetFrameReceive mac kind s) := by
  grind [execEthernetFrameReceive, cappedRes_next, takeFrame_capped]

end

/-! ### The operations of Machine/Sequencer.lean -/

section
variable {s : State} (hs : Capped s)
include hs

theorem rebaseSchedule_capped (n : Nat) : Capped (rebaseSchedule n s) := by
  unfold rebaseSchedule
  dsimp only
  have hfold := @capped_foldl
  grind [raise_capped, modExp_capped, modPort_capped]

theorem execScheduleRebase_capped (seam : Nat) : CappedRes (execScheduleRebase seam s) := by
  grind [execScheduleRebase, cappedRes_next, modExp_capped, rebaseSchedule_capped]

theorem modLoop_capped (n : Nat) (f : Loop → Loop) : Capped (modLoop n f s) := hs

theorem noteQueued_capped (p : Nat) (sc : Script) : Capped (noteQueued p sc s) := by grind [noteQueued, modLoop_capped]

theorem revertLoop_capped (p : Nat) (sc : Script) : Capped (revertLoop p sc s) := by grind [revertLoop, modLoop_capped]

theorem noteLate_capped (p : Nat) (sc : Script) : Capped (noteLate p sc s) := by grind [noteLate, raise_capped, modLoop_capped]

theorem completeScript_capped (p : Nat) (sc : Script) : Capped (completeScript p sc s) := by
  grind [completeScript, modPort_capped, modLoop_capped]

theorem abandonScript_capped (p k : Nat) : Capped (abandonScript p k s) := by
  grind [abandonScript, raise_capped, modPort_capped]

theorem startHead_capped (p : Nat) (sc : Script) : Capped (startHead p sc s) := by
  grind [startHead, modPort_capped, noteLate_capped, completeScript_capped]

theorem considerHead_capped (p k : Nat) : Capped (considerHead p k s) := by
  induction k generalizing s with
  | zero => exact hs
  | succ k ih =>
    unfold considerHead
    extract_lets x
    split
    · exact hs
    · exact capped_ite hs (capped_ite (ih (startHead_capped hs ..)) (capped_ite (raise_capped (modPort_capped hs ..) ..)
        (ih (raise_capped (revertLoop_capped (modPort_capped hs ..) ..) ..))))

theorem queueScript_capped (p : Nat) (sc : Script) : Capped (queueScript p sc s).2 := by
  grind [queueScript, raise_capped, modPort_capped, noteQueued_capped, revertLoop_capped, considerHead_capped]

theorem execScriptEntryComplete_capped (p : Nat) (r : BusResult) : CappedRes (execScriptEntryComplete p r s) := by
  grind [execScriptEntryComplete, cappedRes_next, modPort_capped, completeScript_capped, abandonScript_capped,
    considerHead_capped]

theorem execControlBusTimeout_capped (p : Nat) : CappedRes (execControlBusTimeout p s) := by
  grind [execControlBusTimeout, cappedRes_next, abandonScript_capped, considerHead_capped]

end

/-! ### The operations of Machine/Audio.lean -/

section
variable {s : State} (hs : Capped s)
include hs

theorem modAud_capped (p : Nat) (f : Audio → Audio) : Capped (modAud p f s) := hs

theorem startAudio_capped (keep : Bool) (p : Nat) : Capped (startAudio keep p s) := by grind [startAudio, modAud_capped]

theorem stopAudio_capped (p : Nat) : Capped (stopAudio p s) := hs

theorem runAudio_capped (run : Bool) (p : Nat) : Capped (runAudio run p s) := by
  grind [runAudio, modAud_capped, startAudio_capped, stopAudio_capped]

theorem execAudioStopComplete_capped (p : Nat) : CappedRes (execAudioStopComplete p s) := by
  grind [execAudioStopComplete, cappedRes_next, modAud_capped, startAudio_capped]

theorem execSlaveClockFault_capped (p : Nat) : CappedRes (execSlaveClockFault p s) := by
  grind [execSlaveClockFault, cappedRes_next, raise_capped, modAud_capped]

theorem execSlaveClockReturn_capped (p : Nat) : CappedRes (execSlaveClockReturn p s) := by
  grind [execSlaveClockReturn, cappedRes_next, modAud_capped, startAudio_capped]

theorem execAudioBlockTake_capped (p : Nat) : CappedRes (execAudioBlockTake p s) := by
  grind [execAudioBlockTake, cappedRes_next, raise_capped, modAud_capped]

theorem execAudioBlockPresent_capped (p : Nat) : CappedRes (execAudioBlockPresent p s) :=
  cappedRes_next (capped_ite hs (capped_ite (modAud_capped hs ..) (capped_ite (modAud_capped hs ..) hs)))

theorem execAudioInputBlock_capped (p : Nat) (samples : List Int) (stamp : Tod) :
    CappedRes (execAudioInputBlock p samples stamp s) := by
  grind [execAudioInputBlock, cappedRes_next, raise_capped, offerUnit_capped, boundReady_capped, modAud_capped]

theorem execOutputReadback_capped (ball : Ball) (r : Readback) : CappedRes (execOutputReadback ball r s) := by
  unfold execOutputReadback
  refine cappedRes_next ?_
  dsimp only
  split <;> grind [cappedRes_next, capped_fields, raise_capped, modPort_capped, modOuts_capped, modAud_capped]

theorem writeBlocks_capped (p first n i k : Nat) : Capped (writeBlocks p first n i k s).2 := by
  induction n generalizing s i k with
  | zero => exact hs
  | succ n ih => exact capped_snd_ite (ih (modAud_capped hs ..) ..) (capped_snd_ite hs (ih (modAud_capped hs ..) ..))

end

/-! ### The operations of Machine/Loops.lean -/

section
variable {s : State} (hs : Capped s)
include hs

theorem sendScript_capped (n : Nat) (sc : Script) : Capped (sendScript n sc s).2 := by
  grind [sendScript, queueControl_capped, modLoop_capped, queueScript_capped]

theorem scriptAcked_capped (n : Nat) : Capped (scriptAcked n s) := by grind [scriptAcked, modLoop_capped]

theorem sendRequest_capped (n : Nat) (sc : Script) : Capped (sendRequest n sc s) := by
  grind [sendRequest, modLoop_capped, sendScript_capped]

theorem requestTagged_capped (n tag : Nat) (q : Nat × Nat × Nat × Nat) : Capped (requestTagged n tag q s) := by
  grind [requestTagged, sendRequest_capped]

theorem request_capped (n : Nat) (on : Option Nat) (q : Nat × Nat × Nat × Nat) : Capped (request n on q s) := by
  grind [request, modLoop_capped, requestTagged_capped]

theorem requestChanged_capped (n : Nat) (on : Option Nat) (q : Nat × Nat × Nat × Nat) : Capped (requestChanged n on q s) := by
  grind [requestChanged, request_capped]

theorem startLoop_capped (n : Nat) : Capped (startLoop n s) := by grind [startLoop, modCap_capped, request_capped]

theorem releaseWaiting_capped (n : Nat) (i : Int) : Capped (releaseWaiting n i s) :=
  capped_foldl hs fun u x hu => by grind [modLoop_capped, sendRequest_capped]

theorem releaseIfOpen_capped (n : Nat) : Capped (releaseIfOpen n s) := by grind [releaseIfOpen, releaseWaiting_capped]

theorem loopTurn_capped (n : Nat) (abandoned : Bool) : Capped (loopTurn n abandoned s) := by
  grind [loopTurn, modLoop_capped, request_capped, requestChanged_capped, releaseWaiting_capped]

theorem lockBroadcast_capped (n : Nat) (i : Int) : Capped (lockBroadcast n i s) := hs

theorem bindScript_capped (n : Nat) (i : Int) (sc : Script) : Capped (bindScript n i sc s) := hs

theorem leaderRequest_capped (n : Nat) (i : Int) (q : Nat × Nat × Nat × Nat) : Capped (leaderRequest n i q s) := by
  grind [leaderRequest, modLoop_capped, bindScript_capped]

theorem decide213_capped (n : Nat) (d : StatData) (acc : List Nat) : Capped (decide213 n d acc s) := by
  grind [decide213, modLoop_capped, requestChanged_capped, releaseIfOpen_capped, lockBroadcast_capped, leaderRequest_capped]

theorem exposureTake_capped (n : Nat) (d : StatData) : Capped (exposureTake n d s) := by
  grind [exposureTake, modLoop_capped, decide213_capped]

theorem leaderRepeat_capped (n : Nat) : Capped (leaderRepeat n s) := by grind [leaderRepeat, lockBroadcast_capped]

theorem bodyLate_capped (n num tag : Nat) : Capped (bodyLate n num tag s) := by grind [bodyLate, raise_capped, modLoop_capped]

theorem bodyTurn_capped (n num tag : Nat) : Capped (bodyTurn n num tag s) := by
  grind [bodyTurn, modLoop_capped, loopTurn_capped, bodyLate_capped]

theorem loopFrame_capped (n num tag : Nat) : Capped (loopFrame n num tag s) := by
  grind [loopFrame, modLoop_capped, leaderRepeat_capped, bodyTurn_capped]

theorem countStale_capped (n : Nat) (d : StatData) : Capped (countStale n d s) := by grind [countStale, modLoop_capped]

theorem execExposureDecision_capped (seam : Nat) : CappedRes (execExposureDecision seam s) := by
  grind [execExposureDecision, cappedRes_next, modLoop_capped, exposureTake_capped, countStale_capped]

theorem balanceTake_capped (n : Nat) (d : StatData) : Capped (balanceTake n d s) := by
  grind [balanceTake, modLoop_capped, lockBroadcast_capped]

theorem execWhiteBalanceDecision_capped (seam : Nat) : CappedRes (execWhiteBalanceDecision seam s) := by
  grind [execWhiteBalanceDecision, cappedRes_next, modLoop_capped, countStale_capped, balanceTake_capped]

theorem follow_capped (n tag e g r b : Nat) (i : Int) : Capped (follow n tag e g r b i s) := by
  grind [follow, endRun_capped, raise_capped, modLoop_capped, releaseIfOpen_capped, bindScript_capped]

theorem followAll_capped (leader pos tag e g r b : Nat) (i : Int) (ns : List Nat) :
    Capped (followAll leader pos tag e g r b i ns s) := by
  induction ns generalizing s with
  | nil => exact hs
  | cons n ns ih => exact ih (capped_ite (follow_capped hs ..) hs)

theorem execLeaderSilentExpiry_capped (seam : Nat) : CappedRes (execLeaderSilentExpiry seam s) := by
  grind [execLeaderSilentExpiry, cappedRes_next, raiseOnce_capped, modLoop_capped]

end

/-! ### The operations of Machine/Links.lean -/

section
variable {s : State} (hs : Capped s)
include hs

theorem announceAll_capped (g : Nat) : Capped (announceAll g s) :=
  capped_foldl hs fun u x hu => by grind [modStream_capped, queueControl_capped]

theorem detectGroup_capped (g : Nat) : Capped (detectGroup g s) := by grind [detectGroup, modGroup_capped]

theorem execLinkBringUp_capped (g : Nat) : CappedRes (execLinkBringUp g s) := by
  grind [execLinkBringUp, cappedRes_next, detectGroup_capped]

theorem execReceiverDetectionRetry_capped (g : Nat) : CappedRes (execReceiverDetectionRetry g s) := by
  grind [execReceiverDetectionRetry, cappedRes_next, detectGroup_capped]

theorem modTrain_capped (g i : Nat) (f : TrainLane → TrainLane) : Capped (modTrain g i f s) := hs

theorem takeRequest_capped (g i n tap dir : Nat) : Capped (takeRequest g i n tap dir s) := by
  grind [takeRequest, stepCoeff_capped, modTrain_capped]

theorem endTraining_capped (g : Nat) : Capped (endTraining g s) := by
  grind [endTraining, capped_fields, laneErr_capped, modGroup_capped]

theorem sendBlock_capped (g i lane metric : Nat) : Capped (sendBlock g i lane metric s) := hs

theorem execTrainingBlock_capped (g lane : Nat) (field : BitVec 48) (inverted : Bool) (metric : Nat) :
    CappedRes (execTrainingBlock g lane field inverted metric s) := by
  grind [execTrainingBlock, cappedRes_next, capped_fields, modLane_capped, laneErr_capped, modTrain_capped, takeRequest_capped,
    endTraining_capped, sendBlock_capped]

theorem atRate_capped (g r : Nat) : Capped (atRate g r s) := by
  grind [atRate, capped_fields, modGroup_capped, retrainFrom_capped]

theorem execTrainingStepTimeout_capped (g : Nat) : CappedRes (execTrainingStepTimeout g s) := by
  grind [execTrainingStepTimeout, cappedRes_next, raise_capped, modGroup_capped, retrainFrom_capped, atRate_capped]

theorem retrainNow_capped (g : Nat) : Capped (retrainNow g s) := by grind [retrainNow, retrain_capped, redLinkDown_capped]

theorem execAlignmentBlock_capped (g lane marker laneIdx width counter : Nat) :
    CappedRes (execAlignmentBlock g lane marker laneIdx width counter s) := by
  grind [execAlignmentBlock, cappedRes_next, modGroup_capped, modTrain_capped, retrainNow_capped]

theorem discardCell_capped (g : Nat) (fec : Bool) : Capped (discardCell g fec s) := by
  grind [discardCell, raise_capped, modGroup_capped]

theorem freeCells_capped (g cls n : Nat) : Capped (freeCells g cls n s) := hs

theorem nextStep_capped (g : Nat) : Capped (nextStep g s) := by grind [nextStep, modGroup_capped]

theorem activate_capped (g : Nat) : Capped (activate g s) := by
  grind [activate, raise_capped, modGroup_capped, queueControl_capped, resyncAgain_capped, claimOnActive_capped,
    announceAll_capped, nextStep_capped]

theorem execCapabilityCell_capped (g : Nat) (bytes : List Byte) (fecOk : Bool) :
    CappedRes (execCapabilityCell g bytes fecOk s) := by
  grind [execCapabilityCell, cappedRes_next, raise_capped, modGroup_capped, retrainFrom_capped, discardCell_capped,
    activate_capped]

theorem execCapabilityRefuseExpiry_capped (g : Nat) : CappedRes (execCapabilityRefuseExpiry g s) := by
  grind [execCapabilityRefuseExpiry, cappedRes_next, modGroup_capped, detectGroup_capped]

theorem execLinkRetrainCommand_capped (g : Nat) : CappedRes (execLinkRetrainCommand g s) := by
  grind [execLinkRetrainCommand, cappedRes_next, retrainNow_capped]

theorem execStep_capped (g rate : Nat) : CappedRes (execStep g rate s) := by
  grind [execStep, cappedRes_next, modGroup_capped, redLinkDown_capped]

theorem execStepAck_capped (g : Nat) : CappedRes (execStepAck g s) := by
  grind [execStepAck, cappedRes_next, modGroup_capped, redLinkDown_capped]

theorem execStepRefuse_capped (g : Nat) : CappedRes (execStepRefuse g s) := by
  grind [execStepRefuse, cappedRes_next, raise_capped, modGroup_capped]

theorem execRateStepExpiry_capped (g : Nat) : CappedRes (execRateStepExpiry g s) := by
  grind [execRateStepExpiry, cappedRes_next, modGroup_capped, atRate_capped]

theorem execUncorrectableLimit_capped (g : Nat) : CappedRes (execUncorrectableLimit g s) := by
  grind [execUncorrectableLimit, cappedRes_next, retrainNow_capped]

theorem execElasticFifoOverflow_capped (g : Nat) : CappedRes (execElasticFifoOverflow g s) := by
  grind [execElasticFifoOverflow, cappedRes_next, raise_capped, retrainNow_capped]

theorem execStuffingAllowanceExceeded_capped (g : Nat) : CappedRes (execStuffingAllowanceExceeded g s) := by
  grind [execStuffingAllowanceExceeded, cappedRes_next, raise_capped]

theorem execLossOfSignal_capped (lane : Nat) : CappedRes (execLossOfSignal lane s) := by
  grind [execLossOfSignal, cappedRes_next, modLane_capped, endScan_capped, beginFault_capped, retrainNow_capped]

theorem execCommonModeFault_capped (lane : Nat) : CappedRes (execCommonModeFault lane s) := by
  grind [execCommonModeFault, cappedRes_next, beginFault_capped]

theorem execLanePllLoss_capped (quad : Nat) (ab : Bool) : CappedRes (execLanePllLoss quad ab s) := by
  grind [execLanePllLoss, cappedRes_next, capped_fields, retrainFrom_capped, losePll_capped, redLinkDown_capped]

theorem execCellSlot_capped (g : Nat) : CappedRes (execCellSlot g s) := by grind [execCellSlot, cappedRes_next, modGroup_capped]

theorem noteAck_capped (g ack : Nat) : Capped (noteAck g ack s) := by grind [noteAck, modGroup_capped, scriptAcked_capped]

theorem execCreditCell_capped (g : Nat) (bytes : List Byte) (fecOk : Bool) : CappedRes (execCreditCell g bytes fecOk s) := by
  grind [execCreditCell, cappedRes_next, modGroup_capped, discardCell_capped, noteAck_capped]

theorem execCreditCellTimer_capped (g : Nat) : CappedRes (execCreditCellTimer g s) := by
  grind [execCreditCellTimer, cappedRes_next, modGroup_capped]

theorem execCreditStarvation_capped (g cls : Nat) : CappedRes (execCreditStarvation g cls s) := by
  grind [execCreditStarvation, cappedRes_next, retrainNow_capped]

theorem execControlAckTimeout_capped (g : Nat) : CappedRes (execControlAckTimeout g s) := by
  grind [execControlAckTimeout, cappedRes_next, raise_capped, modGroup_capped, retrainNow_capped]

theorem execStreamAnnounceTimer_capped (g : Nat) : CappedRes (execStreamAnnounceTimer g s) := by
  grind [execStreamAnnounceTimer, cappedRes_next, announceAll_capped]

theorem takeAnnounce_capped (g : Nat) (ws : List Word) : Capped (takeAnnounce g ws s) := by
  grind [takeAnnounce, endRun_capped, raise_capped, raiseOnce_capped, modSeam_capped, modStream_capped]

theorem takeScript_capped (ws : List Word) : Capped (takeScript ws s) := by
  grind [takeScript, raise_capped, modPort_capped, queueScript_capped]

theorem dispatchControl_capped (g : Nat) (ws : List Word) : Capped (dispatchControl g ws s) := by
  grind [dispatchControl, capped_fields, raiseOnce_capped, enqueue_capped, modIsl_capped, takeHeadSignature_capped,
    modRed_capped, headClaim_capped, takeAnnounce_capped, takeScript_capped]

theorem execControlMessage_capped (g : Nat) (words : List Word) : CappedRes (execControlMessage g words s) := by
  unfold execControlMessage
  dsimp only
  have hfold := @capped_foldl
  grind [cappedRes_next, modGroup_capped, discardCell_capped, freeCells_capped, dispatchControl_capped]

theorem writeLines_capped (n : Nat) (ls : List (List Nat)) : Capped (writeLines n ls s) :=
  capped_foldl hs fun u x hu => by grind [claimStripe_capped, writeLine_capped]

theorem refuseFrame_capped (g k n : Nat) (byEpoch : Bool) : Capped (refuseFrame g k n byEpoch s) := by
  grind [refuseFrame, modSeam_capped, noteDrop_capped, modStream_capped]

theorem beginLinkFrame_capped (g k : Nat) (payload : List Byte) : Capped (beginLinkFrame g k payload s) := by
  grind [beginLinkFrame, arrive_capped, modStream_capped, takeHeadRecord_capped, modRed_capped, depose_capped,
    loopFrame_capped, refuseFrame_capped]

theorem drainLines_capped (g k n : Nat) : Capped (drainLines g k n s) := by
  grind [drainLines, modStream_capped, writeLines_capped]

theorem closeStream_capped (g k : Nat) : Capped (closeStream g k s) := hs

theorem rejectBlock_capped (g k n blk check : Nat) : Capped (rejectBlock g k n blk check s) := by
  grind [rejectBlock, capped_fields, raise_capped, modSeam_capped, dropReceiving_capped, closeStream_capped]

theorem keepBlock_capped (g k n len : Nat) (p : Plane) : Capped (keepBlock g k n len p s) := by
  grind [keepBlock, modStream_capped, writeLines_capped]

theorem drainBlocks_capped (g k n : Nat) (last : Bool) (fuel : Nat) : Capped (drainBlocks g k n last fuel s) := by
  induction fuel generalizing s with
  | zero => exact hs
  | succ fuel ih =>
    unfold drainBlocks
    refine capped_ite hs (capped_ite (capped_ite (rejectBlock_capped hs ..) hs) ?_)
    split
    · exact ih (keepBlock_capped hs ..)
    · exact rejectBlock_capped hs ..

theorem drainData_capped (g k n : Nat) (last : Bool) : Capped (drainData g k n last s) := by
  grind [drainData, drainLines_capped, drainBlocks_capped]

theorem takeData_capped (g k n : Nat) (payload : List Byte) (last : Bool) : Capped (takeData g k n payload last s) := by
  grind [takeData, endReceiving_capped, modStream_capped, dropStream_capped, closeStream_capped, drainData_capped]

theorem takePixel_capped (g k seq : Nat) (first last : Bool) (payload : List Byte) :
    Capped (takePixel g k seq first last payload s) := by
  grind [takePixel, modStream_capped, dropStream_capped, beginLinkFrame_capped, takeData_capped]

theorem execPixelCell_capped (g : Nat) (bytes : List Byte) (fecOk : Bool) : CappedRes (execPixelCell g bytes fecOk s) := by
  grind [execPixelCell, cappedRes_next, discardCell_capped, freeCells_capped, takePixel_capped]

theorem execTimeCellTimer_capped (g : Nat) : CappedRes (execTimeCellTimer g s) := by
  grind [execTimeCellTimer, cappedRes_next, modGroup_capped]

theorem execTimeCell_capped (g : Nat) (words : List Word) (arrival : Tod) : CappedRes (execTimeCell g words arrival s) := by
  grind [execTimeCell, cappedRes_next, capped_fields, takeSample_capped, modGroup_capped, discardCell_capped, freeCells_capped]

theorem pushFrame_capped (n : Nat) (f : LinkFrame) : Capped (pushFrame n f s) := by grind [pushFrame, capped_fields]

end

/-! ### The operations of Machine/Compressor.lean -/

section
variable {s : State} (hs : Capped s)
include hs

theorem modComp_capped (f : Comp → Comp) : Capped (modComp f s) := hs

theorem postJob_capped (j : CompJob) : Capped (postJob j s) := hs

theorem noteSource_capped (j : Nat) (b : OutBuf) : Capped (noteSource j b s).2 := by
  unfold noteSource
  dsimp only
  have hfold := @capped_foldl
  grind [modRecStream_capped, missUnit_capped]

theorem takeAdits_capped (a fuel : Nat) : Capped (takeAdits a fuel s) := by
  induction fuel generalizing s with
  | zero => exact hs
  | succ fuel ih =>
    unfold takeAdits
    split
    · exact hs
    · next j _ =>
      refine capped_ite hs ?_
      split
      · exact hs
      · next i _ =>
        have ht := noteSource_capped hs j ((s.cap.adits.getD a {}).bufs.getD i {})
        exact capped_ite (ih ht) (capped_ite (ih (missUnit_capped ht)) (capped_ite (ih (modRec_capped ht ..))
          (postJob_capped (modCap_capped ht ..) ..)))

theorem takeAdit_capped (a : Nat) : Capped (takeAdit a s) := by grind [takeAdit, takeAdits_capped]

theorem loseLinkFrame_capped (n : Nat) : Capped (loseLinkFrame n s) := by grind [loseLinkFrame, capped_fields]

theorem postLinkJob_capped (n : Nat) (h : FrameHeader) (record : List Byte) (p : Plane) (b : Nat) :
    Capped (postLinkJob n h record p b s) := by grind [postLinkJob, modComp_capped, postJob_capped, loseLinkFrame_capped]

theorem endJob_capped (status : Nat) (j : CompJob) : Capped (endJob status j s) := by
  grind [endJob, modComp_capped, postJob_capped]

theorem releaseAdit_capped (a : Nat) : Capped (releaseAdit a s) := hs

theorem jobFailed_capped (status : Nat) (j : CompJob) : Capped (jobFailed status j s) := by
  grind [jobFailed, modRec_capped, modRecStream_capped, loseLinkFrame_capped, endJob_capped, releaseAdit_capped]

theorem execBlockDeal_capped : CappedRes (execBlockDeal s) := by
  grind [execBlockDeal, cappedRes_next, modComp_capped, jobFailed_capped]

theorem jobDone_capped (j : CompJob) : Capped (jobDone j s) := by
  grind [jobDone, modRecStream_capped, offerUnit_capped, pushFrame_capped, modComp_capped, takeAdit_capped, endJob_capped,
    releaseAdit_capped]

theorem jobStopped_capped (j : CompJob) : Capped (jobStopped j s) := by
  grind [jobStopped, modRecStream_capped, modComp_capped, postJob_capped, endJob_capped, releaseAdit_capped]

theorem writeReady_capped (k n : Nat) : Capped (writeReady k n s) := by
  induction k generalizing s with
  | zero => exact hs
  | succ k ih =>
    unfold writeReady
    split
    · exact hs
    · refine capped_ite (jobDone_capped hs ..) ?_
      split
      · exact hs
      · exact capped_ite (jobStopped_capped hs ..) (ih (modComp_capped hs ..))

theorem blockReady_capped (id i : Nat) (b : List Byte) (bySize byMis : Bool) : Capped (blockReady id i b bySize byMis s) := by
  grind [blockReady, modComp_capped, writeReady_capped]

theorem abortJobs_capped : Capped (abortJobs s) := by
  unfold abortJobs
  dsimp only
  have hfold := @capped_foldl
  grind [modComp_capped, loseLinkFrame_capped, jobFailed_capped]

theorem engineOut_capped (e : Nat) : Capped (engineOut e s) := by grind [engineOut, modComp_capped, abortJobs_capped]

theorem execBlockDone_capped (e : Nat) (faults : List (List Nat)) : CappedRes (execBlockDone e faults s) := by
  grind [execBlockDone, cappedRes_next, raise_capped, modComp_capped, blockReady_capped, engineOut_capped]

end

/-! ### The operations of Machine/Recorder.lean -/

section
variable {s : State} (hs : Capped s)
include hs

theorem markChanged_capped (v : Nat) : Capped (markChanged v s) := by grind [markChanged, modRec_capped]

theorem markAlloc_capped (v : Nat) : Capped (markAlloc v s) := by grind [markAlloc, modRec_capped, markChanged_capped]

theorem putClip_capped (n : Nat) (l : List Byte) : Capped (putClip n l s) := by grind [putClip, modRec_capped]

theorem closeClip_capped : Capped (closeClip s) := by grind [closeClip, modRec_capped, putClip_capped]

theorem beginPoint_capped : Capped (beginPoint s) := by grind [beginPoint, modRec_capped, sendAll_capped]

theorem maybeEnd_capped : Capped (maybeEnd s) := by grind [maybeEnd, modRec_capped, closeClip_capped, beginPoint_capped]

theorem stopClip_capped (trunc : Bool) : Capped (stopClip trunc s) := by grind [stopClip, modRec_capped, maybeEnd_capped]

theorem cutFinal_capped : Capped (cutFinal s) := by grind [cutFinal, modRec_capped, closeClip_capped]

theorem recHalt_capped : Capped (recHalt s) := by
  grind [recHalt, noticeReadOnly_capped, modRec_capped, declareFailure_capped, stopClip_capped, cutFinal_capped]

theorem recFail_capped (port : Nat) : Capped (recFail port s) := by
  grind [recFail, raise_capped, modRec_capped, maybeEnd_capped, cutFinal_capped, recHalt_capped]

theorem recFull_capped : Capped (recFull s) := by grind [recFull, raise_capped, modRec_capped, stopClip_capped]

theorem freeStage_capped (j n : Nat) : Capped (freeStage j n s) := hs

theorem sendPieces_capped (j flight : Nat) (ps : List (Nat × Nat × Nat × List Byte)) : Capped (sendPieces j flight ps s) :=
  capped_foldl hs fun u x hu => by grind [sendSsd_capped]

theorem takeGran_capped {clip : Nat} {c : Chain} {p : Chain × State} (h : takeGran clip c s = some p) :
    Capped p.2 := by
  unfold takeGran at h
  dsimp only at h
  split at h
  · cases h
    split
    · split
      · exact markAlloc_capped (modRec_capped (markAlloc_capped (modRec_capped (walk_capped hs ..) ..) ..) ..) ..
      · exact markAlloc_capped (modRec_capped (walk_capped hs ..) ..) ..
    · exact markAlloc_capped (modRec_capped (walk_capped hs ..) ..) ..
  · cases h

theorem growChain_capped {k clip len : Nat} {c : Chain} {p : Chain × State}
    (h : growChain k clip len c s = some p) : Capped p.2 := by
  induction k generalizing c s with
  | zero =>
    cases h
    exact hs
  | succ k ih =>
    unfold growChain at h
    split at h
    · cases h
      exact hs
    · obtain ⟨q, hq, hp⟩ := Option.bind_eq_some_iff.mp h
      exact ih (takeGran_capped hs hq) hp

theorem appendChain_capped {clip : Nat} {l : List Byte} {c : Chain}
    {p : Chain × List (Nat × Nat × Nat × List Byte) × State} (h : appendChain clip l c s = some p) : Capped p.2.2 := by
  unfold appendChain at h
  obtain ⟨q, hq, rfl⟩ := Option.map_eq_some_iff.mp h
  exact walk_capped (growChain_capped hs hq) ..

theorem writeUnit_capped (c : Clip) (j : Nat) (u : RecUnit) : Capped (writeUnit c j u s) := by
  unfold writeUnit
  dsimp only
  split
  · exact freeStage_capped (recFull_capped hs ..) ..
  next hr =>
    simp only [bind, pure, Option.bind_eq_some_iff, Option.some.injEq, Prod.mk.injEq] at hr
    obtain ⟨a, ha, b, hb, l, hl, rfl, rfl, rfl, rfl, rfl⟩ := hr
    have ht := appendChain_capped (appendChain_capped (appendChain_capped hs ha) hb) hl
    exact modRec_capped (sendPieces_capped (modRecStream_capped (modRec_capped ht ..) ..) ..) ..

theorem keepFour_capped (j : Nat) (u : RecUnit) : Capped (keepFour j u s) := hs

theorem takeUnit_capped (j : Nat) : Capped (takeUnit j s) := by
  grind [takeUnit, capped_fields, modRecStream_capped, freeStage_capped, writeUnit_capped, keepFour_capped]

theorem appendDigest_capped (j : Nat) (f : Flight) : Capped (appendDigest j f s) := by
  unfold appendDigest
  split
  · exact hs
  · dsimp only
    split
    · exact recFull_capped (modRecStream_capped hs ..) ..
    next hr => exact sendPieces_capped (modRecStream_capped (modRec_capped (appendChain_capped hs hr) ..) ..) ..

theorem flightWrite_capped (j id : Nat) (ok : Bool) : Capped (flightWrite j id ok s) := by
  grind [flightWrite, modRec_capped, modRecStream_capped, maybeEnd_capped, appendDigest_capped]

theorem pointStep_capped (phase : DurPhase) (ops : Nat → Ssd → List SsdOp) : Capped (pointStep phase ops s) := by
  grind [pointStep, modRec_capped, sendLists_capped]

theorem writeJournal_capped : Capped (writeJournal s) := by
  grind [writeJournal, modRec_capped, putClip_capped, pointStep_capped]

theorem finishPoint_capped : Capped (finishPoint s) := by grind [finishPoint, modRec_capped, beginPoint_capped, maybeEnd_capped]

theorem markDurable_capped : Capped (markDurable s) := by grind [markDurable, modRec_capped, walk_capped]

theorem deallocFreed_capped : Capped (deallocFreed s) := capped_foldl hs fun u x hu => by grind [modRec_capped, sendSsd_capped]

theorem closeFinal_capped : Capped (closeFinal s) := by grind [closeFinal, closeClip_capped]

theorem beginCheckpoint_capped : Capped (beginCheckpoint s) := by grind [beginCheckpoint, modRec_capped, pointStep_capped]

theorem recordDurable_capped : Capped (recordDurable s) := by
  grind [recordDurable, modRec_capped, finishPoint_capped, markDurable_capped, deallocFreed_capped, closeFinal_capped,
    beginCheckpoint_capped]

theorem writeSuper_capped : Capped (writeSuper s) := by grind [writeSuper, modRec_capped, sendAll_capped]

theorem phaseStep_capped (id : Nat) : Capped (phaseStep id s) := by
  grind [phaseStep, modRec_capped, pointStep_capped, writeJournal_capped, finishPoint_capped, recordDurable_capped,
    writeSuper_capped]

theorem signHeld_capped (j : Nat) : Capped (signHeld j s) := by
  grind [signHeld, capped_fields, signSeam_capped, modRecStream_capped, offerUnit_capped]

theorem checkStop_capped : Capped (checkStop s) := by
  unfold checkStop
  dsimp only
  have hfold := @capped_foldl
  grind [stopClip_capped, signHeld_capped]

theorem execRecordUnitComplete_capped (j : Nat) : CappedRes (execRecordUnitComplete j s) := by
  grind [execRecordUnitComplete, cappedRes_next, dealUnits_capped, takeUnit_capped, checkStop_capped]

theorem execDurabilityPoint_capped : CappedRes (execDurabilityPoint s) := by
  grind [execDurabilityPoint, cappedRes_next, beginPoint_capped, checkStop_capped]

theorem playRead_capped (m : Nat) (ok : Bool) (dst : Nat) (l : List Byte) : Capped (playRead m ok dst l s) := by
  grind [playRead, raise_capped, modPlay_capped, playPump_capped, feedDecoder_capped]

theorem prerollUnits_capped (c : Clip) : Capped (prerollUnits c s) := hs

theorem startClip_capped (n : Nat) (start : Tod) : Capped (startClip n start s) := by
  grind [startClip, drawOne_capped, modRec_capped, dealUnits_capped, putClip_capped, prerollUnits_capped]

theorem deleteClip_capped (n : Nat) : Capped (deleteClip n s) :=
  capped_foldl hs fun u x hu => by grind [modRec_capped, walk_capped, markChanged_capped, putClip_capped]

theorem writeRing_capped (j : Nat) (p : RecPosition) : Capped (writeRing j p s) :=
  capped_foldl hs fun u x hu => by grind [modRecStream_capped, writeUnit_capped]

theorem cutClip_capped (n : Nat) : Capped (cutClip n s) := by grind [cutClip, putClip_capped]

theorem readJournal_capped (upTo : Nat) : Capped (readJournal upTo s) := by grind [readJournal, modRec_capped]

theorem recTakeover_capped (k : StateCopy) : Capped (recTakeover k s) := by
  unfold recTakeover
  refine capped_ite hs (capped_ite ?_ ?_)
  · extract_lets t
    have ht : Capped t := acquireVolume_capped hs ..
    split
    · exact cutClip_capped ht ..
    · exact ht
  · extract_lets t ms base pos act
    have ht : Capped t := acquireVolume_capped hs ..
    split
    · exact ht
    next b _ =>
      extract_lets r new map v
      have hv : Capped v := modRec_capped ht ..
      split
      · exact beginPoint_capped hv
      · split
        · exact beginPoint_capped (capped_raise_if hv ..)
        · extract_lets enc key dig
          clear_value key
          split
          · exact beginPoint_capped (cutClip_capped (raise_capped hv ..) ..)
          · extract_lets c lost u w x
            have hw : Capped w := capped_foldl (modRec_capped hv ..) fun _ _ hz => writeRing_capped hz ..
            exact maybeEnd_capped (capped_ite (modRec_capped hw ..) (raise_capped (modRec_capped hw ..) ..))

end

/-! ### The operations of Machine/Viewfinder.lean -/

section
variable {s : State} (hs : Capped s)
include hs

theorem modVf_capped (k : Nat) (f : View_ → View_) : Capped (modVf k f s) := hs

theorem vfTake_capped (k : Nat) : Capped (vfTake k s) := by grind [vfTake, modSrcRing_capped, modVf_capped]

theorem vfCommit_capped (k : Nat) : Capped (vfCommit k s) := by grind [vfCommit, modVf_capped]

theorem vfUpdate_capped (k : Nat) (gated : Bool) (late : Option VfLate) : Capped (vfUpdate k gated late s) := by
  grind [vfUpdate, raise_capped, modVf_capped, vfTake_capped, vfCommit_capped]

theorem execTeEdge_capped (k : Nat) (late : Option VfLate) : CappedRes (execTeEdge k late s) := by
  grind [execTeEdge, cappedRes_next, endRun_capped, modVf_capped, vfTake_capped, vfUpdate_capped]

theorem execTeAbsentExpiry_capped (k : Nat) : CappedRes (execTeAbsentExpiry k s) := by
  grind [execTeAbsentExpiry, cappedRes_next, raise_capped, modVf_capped]

theorem execPanelTimer_capped (k : Nat) (late : Option VfLate) : CappedRes (execPanelTimer k late s) := by
  grind [execPanelTimer, cappedRes_next, vfUpdate_capped]

theorem execBlankExpiry_capped (k : Nat) : CappedRes (execBlankExpiry k s) := by
  grind [execBlankExpiry, cappedRes_next, raise_capped, modVf_capped]

theorem dirtyAll_capped (k : Nat) : Capped (dirtyAll k s) := hs

theorem writeOverlay_capped (k j x y wd ht off : Nat) : Capped (writeOverlay k j x y wd ht off s) := by
  grind [writeOverlay, modVf_capped]

end

/-! ### The operations of Machine/Redundant.lean -/

section
variable {s : State} (hs : Capped s)
include hs

theorem sendHeartbeat_capped : Capped (sendHeartbeat s) := by grind [sendHeartbeat, modGroup_capped, modRed_capped]

theorem execHeartbeatTimer_capped : CappedRes (execHeartbeatTimer s) := by
  grind [execHeartbeatTimer, cappedRes_next, sendHeartbeat_capped]

theorem trigger_capped : Capped (trigger s) := by grind [trigger, raise_capped, modRed_capped, claim_capped]

theorem beatOfPrimary_capped (eb : Nat) : Capped (beatOfPrimary eb s) := by
  grind [beatOfPrimary, modRed_capped, beginResync_capped]

theorem execHeartbeat_capped (words : List Word) : CappedRes (execHeartbeat words s) := by
  grind [execHeartbeat, cappedRes_next, modRed_capped, freeCells_capped, trigger_capped, beatOfPrimary_capped]

theorem execHeartbeatTimeout_capped : CappedRes (execHeartbeatTimeout s) := by
  grind [execHeartbeatTimeout, cappedRes_next, modRed_capped, trigger_capped]

theorem execFailing_capped (eb : Nat) : CappedRes (execFailing eb s) := by
  grind [execFailing, cappedRes_next, freeCells_capped, trigger_capped]

theorem release_capped : Capped (release s) := by
  grind [release, abandonWrites_capped, modRed_capped, sendClaim_capped, sendTakeover_capped]

theorem sendCopy_capped (seam frame timecode : Nat) : Capped (sendCopy seam frame timecode s) := by
  grind [sendCopy, modGroup_capped, modRec_capped, modRed_capped, sendHeartbeat_capped, release_capped]

theorem discardCopy_capped : Capped (discardCopy s) := by grind [discardCopy, raise_capped, modRed_capped, beginResync_capped]

theorem applyLoops_capped (k : StateCopy) : Capped (applyLoops k s) := by grind [applyLoops, modCap_capped]

theorem applyOutputs_capped (k : StateCopy) : Capped (applyOutputs k s) := by grind [applyOutputs, modOuts_capped]

theorem handoverNow_capped : Capped (handoverNow s) := by grind [handoverNow, modRed_capped, claim_capped]

theorem applyCopy_capped (k : StateCopy) : Capped (applyCopy k s) := by
  grind [applyCopy, modRed_capped, syncIfReady_capped, readJournal_capped, applyLoops_capped, applyOutputs_capped,
    handoverNow_capped]

theorem execStateCopy_capped (copy : StateCopy) : CappedRes (execStateCopy copy s) := by
  grind [execStateCopy, cappedRes_next, endRun_capped, raiseOnce_capped, modRed_capped, freeCells_capped, discardCopy_capped,
    applyCopy_capped]

theorem execHandover_capped (eb : Nat) : CappedRes (execHandover eb s) := by
  grind [execHandover, cappedRes_next, modRed_capped, freeCells_capped, handoverNow_capped]

theorem execResync_capped (eb : Nat) : CappedRes (execResync s eb) := by
  grind [execResync, cappedRes_next, modRed_capped, freeCells_capped]

theorem adoptTable_capped (k : StateCopy) : Capped (adoptTable k s) := hs

theorem startLoops_capped : Capped (startLoops s) := capped_foldl hs fun u x hu => by grind [startLoop_capped]

theorem dirtyViews_capped : Capped (dirtyViews s) := by grind [dirtyViews, dirtyAll_capped]

theorem becomePrimary_capped : Capped (becomePrimary s) := by
  grind [becomePrimary, raise_capped, modRed_capped, acquireVolume_capped, recTakeover_capped, applyLoops_capped,
    adoptTable_capped, startLoops_capped, dirtyViews_capped]

theorem claimRefused_capped : Capped (claimRefused s) := by
  grind [claimRefused, raise_capped, modRed_capped, beginResync_capped]

theorem execClaimRepeatTimer_capped : CappedRes (execClaimRepeatTimer s) := by
  grind [execClaimRepeatTimer, cappedRes_next, claim_capped]

theorem execPrimaryLinkInactiveExpiry_capped : CappedRes (execPrimaryLinkInactiveExpiry s) := by
  grind [execPrimaryLinkInactiveExpiry, cappedRes_next, declareFailure_capped]

theorem execStartWaitExpiry_capped : CappedRes (execStartWaitExpiry s) := by
  grind [execStartWaitExpiry, cappedRes_next, modRed_capped, claim_capped]

theorem execLinkReactivated_capped (g : Nat) : CappedRes (execLinkReactivated g s) := by
  grind [execLinkReactivated, cappedRes_next, sendClaim_capped]

theorem execSwitchOverFallbackExpiry_capped : CappedRes (execSwitchOverFallbackExpiry s) := by
  grind [execSwitchOverFallbackExpiry, cappedRes_next, modRed_capped, claim_capped]

end

/-! ### The operations of Machine/Pipeline.lean -/

section
variable {s : State} (hs : Capped s)
include hs

theorem claimTap_capped (t : Nat) : Capped (claimTap t s) := by grind [claimTap, raise_capped, modCap_capped]

theorem claimAdit_capped (a : Nat) : Capped (claimAdit a s) := by grind [claimAdit, raise_capped, modCap_capped]

theorem claimBuffers_capped (n : Nat) (w : Words) : Capped (claimBuffers n w s) := by
  unfold claimBuffers
  dsimp only
  have hfold := @capped_foldl
  grind [modCap_capped, claimTap_capped, claimAdit_capped]

theorem execUnitStart_capped : CappedRes (execUnitStart s) := by
  grind [execUnitStart, cappedRes_next, modCap_capped, modFrame_capped, claimBuffers_capped]

theorem publishTap_capped (t n : Nat) (f : SeamFrame) (o : RawOut) : Capped (publishTap t n f o s) := by
  grind [publishTap, modCap_capped, offerInput_capped]

theorem publishAdit_capped (a n : Nat) (f : SeamFrame) (raw : Plane) (o : RawOut) : Capped (publishAdit a n f raw o s) := by
  grind [publishAdit, modCap_capped, takeAdit_capped]

theorem publishStats_capped (n : Nat) (f : SeamFrame) (o : RawOut) : Capped (publishStats n f o s) := by
  grind [publishStats, modCap_capped]

theorem evidenceRead_capped (n num : Nat) : Capped (evidenceRead n num s) := hs

theorem offerMeta_capped (n j : Nat) (u : RecUnit) : Capped (offerMeta n j u s) := by
  grind [offerMeta, modRecStream_capped, offerUnit_capped, acceptUnit_capped]

theorem metaUnit_capped (n : Nat) (f : SeamFrame) : Capped (metaUnit n f s) := by
  grind [metaUnit, evidenceRead_capped, offerMeta_capped]

theorem sendHead_capped (n : Nat) (f : SeamFrame) (o : RawOut) : Capped (sendHead n f o s) := by
  grind [sendHead, closeRecord_capped, pushFrame_capped, postLinkJob_capped]

theorem checkDeadline_capped (n : Nat) (f : SeamFrame) : Capped (checkDeadline n f s) := by
  unfold checkDeadline
  dsimp only
  split <;> grind [raise_capped, modSeam_capped]

theorem leaveRing_capped (n num : Nat) : Capped (leaveRing n num s) := hs

theorem releaseFrame_capped (n : Nat) (f : SeamFrame) : Capped (releaseFrame n f s) := by
  unfold releaseFrame
  dsimp only
  have hfold := @capped_foldl
  grind [modCap_capped, sendCopy_capped, publishTap_capped, publishAdit_capped, publishStats_capped, metaUnit_capped,
    sendHead_capped, checkDeadline_capped, leaveRing_capped]

theorem execUnitEnd_capped : CappedRes (execUnitEnd s) := by
  grind [execUnitEnd, cappedRes_next, modCap_capped, modFrame_capped, leaveRing_capped, releaseFrame_capped]

theorem endLut_capped (t u : Nat) (big : Bool) (end_ crc : Nat) (data : List Byte) :
    Capped (endLut t u big end_ crc data s).2 := by grind [endLut, raise_capped, modCap_capped]

theorem hostRelease_capped (n : Nat) : Capped (hostRelease n s) := hs

theorem hostTake_capped (n : Nat) : Capped (hostTake n s) := by grind [hostTake, modCap_capped]

theorem execAditHoldExpiry_capped (n : Nat) : CappedRes (execAditHoldExpiry n s) := by
  grind [execAditHoldExpiry, cappedRes_next, hostRelease_capped]

end

/-! ### The operations of Machine/Endpoint.lean -/

section
variable {s : State} (hs : Capped s)
include hs

theorem execDoorbellWrite_capped (isCq : Bool) (qid value : Nat) (cmds : List NvmeCmd) :
    CappedRes (execDoorbellWrite isCq qid value cmds s) := by
  grind [execDoorbellWrite, cappedRes_next, modEp_capped, modCq_capped, postHeld_capped, pushEvent_capped]

theorem fetchOne_capped (qid : Nat) : Capped (fetchOne qid s) := by grind [fetchOne, modEp_capped, completeOn_capped]

theorem fetchAdmin_capped (k : Nat) : Capped (fetchAdmin k s) := by
  induction k generalizing s with
  | zero => exact hs
  | succ k ih => exact ih (fetchOne_capped hs ..)

theorem execCommandFetch_capped : CappedRes (execCommandFetch s) := by
  unfold execCommandFetch
  dsimp only
  have hfold := @capped_foldl
  grind [cappedRes_next, fetchOne_capped, fetchAdmin_capped]

theorem execRangeLockBegin_capped (arrival : Nat) : CappedRes (execRangeLockBegin arrival s) := by
  grind [execRangeLockBegin, cappedRes_next, modEp_capped]

theorem runAdmin_capped {f : HostCmd → State → (Nat × Nat × List Byte) × State}
    (hf : ∀ c u, Capped u → Capped (f c u).2) (opc arrival : Nat) : Capped (runAdmin opc arrival f s) := by
  unfold runAdmin
  split
  · exact capped_ite (finishCmd_capped (hf _ s hs) ..) hs
  · exact hs

theorem stat_capped (st : Nat) : Capped (stat st s).2 := hs

theorem execCreateIoCq_capped (arrival : Nat) : CappedRes (execCreateIoCq arrival s) := by
  grind [execCreateIoCq, cappedRes_next, modEp_capped, runAdmin_capped, stat_capped]

theorem execCreateIoSq_capped (arrival : Nat) : CappedRes (execCreateIoSq arrival s) := by
  grind [execCreateIoSq, cappedRes_next, modEp_capped, runAdmin_capped, stat_capped]

theorem execDeleteIoSq_capped (arrival : Nat) : CappedRes (execDeleteIoSq arrival s) := by
  unfold execDeleteIoSq
  dsimp only
  have hfold := @capped_foldl
  grind [cappedRes_next, modEp_capped, finishCmd_capped, runAdmin_capped, stat_capped]

theorem execDeleteIoCq_capped (arrival : Nat) : CappedRes (execDeleteIoCq arrival s) := by
  grind [execDeleteIoCq, cappedRes_next, modEp_capped, runAdmin_capped, stat_capped]

theorem execIdentify_capped (arrival : Nat) : CappedRes (execIdentify arrival s) := by
  grind [execIdentify, cappedRes_next, runAdmin_capped, stat_capped]

theorem execGetLogPage_capped (arrival : Nat) : CappedRes (execGetLogPage arrival s) := by
  grind [execGetLogPage, cappedRes_next, drawOne_capped, runAdmin_capped, stat_capped]

theorem execSetFeatures_capped (arrival : Nat) : CappedRes (execSetFeatures arrival s) := by
  grind [execSetFeatures, cappedRes_next, modEp_capped, runAdmin_capped, stat_capped]

theorem execGetFeatures_capped (arrival : Nat) : CappedRes (execGetFeatures arrival s) := by
  grind [execGetFeatures, cappedRes_next, runAdmin_capped, stat_capped]

theorem execAsynchronousEventRequest_capped (arrival : Nat) : CappedRes (execAsynchronousEventRequest arrival s) := by
  grind [execAsynchronousEventRequest, cappedRes_next, modEp_capped, finishCmd_capped]

theorem dropQueued_capped (a : Nat) : Capped (dropQueued a s) := hs

theorem execAbort_capped (arrival : Nat) : CappedRes (execAbort arrival s) := by
  grind [execAbort, cappedRes_next, modEp_capped, completeOn_capped, finishCmd_capped, runAdmin_capped, dropQueued_capped]

theorem issueCmd_capped (a n : Nat) (data : List Byte) : Capped (issueCmd a n data s) := by grind [issueCmd, modEp_capped]

theorem runIo_capped {f : HostCmd → State → State} (hf : ∀ c u, Capped u → Capped (f c u))
    (opc arrival : Nat) : Capped (runIo opc arrival f s) := by
  unfold runIo
  split
  · exact capped_ite (hf _ s hs) hs
  · exact hs

theorem execRead_capped (arrival : Nat) : CappedRes (execRead arrival s) := cappedRes_next (runIo_capped hs (fun _ _ hu =>
    have ht := issueCmd_capped (modEp_capped (walk_capped hu ..) ..)
    capped_ite (finishCmd_capped hu ..) (capped_ite (finishCmd_capped hu ..) (capped_ite (finishCmd_capped (ht ..) ..)
      (capped_foldl (ht ..) fun _ _ hv => sendSsd_capped hv ..)))) ..)

theorem issueWrite_capped (h : HostCmd) (data : List Byte) : Capped (issueWrite h data s) :=
  capped_ite (finishCmd_capped hs ..) (capped_ite (finishCmd_capped hs ..)
    (capped_foldl (issueCmd_capped (modEp_capped (walk_capped hs ..) ..) ..) fun _ _ hu => sendSsd_capped hu ..))

theorem execWrite_capped (arrival : Nat) (data : List Byte) : CappedRes (execWrite arrival data s) := by
  grind [execWrite, cappedRes_next, runIo_capped, issueWrite_capped]

theorem execWriteZeroes_capped (arrival : Nat) : CappedRes (execWriteZeroes arrival s) := by
  grind [execWriteZeroes, cappedRes_next, runIo_capped, issueWrite_capped]

theorem execFlush_capped (arrival : Nat) : CappedRes (execFlush arrival s) := by
  grind [execFlush, cappedRes_next, finishCmd_capped, sendAll_capped, issueCmd_capped, runIo_capped]

theorem shutdownStep_capped : Capped (shutdownStep s) := by
  unfold shutdownStep
  dsimp only
  have hfold := @capped_foldl
  grind [modEp_capped, sendSsd_capped]

theorem hostPiece_capped (a : Nat) (ok read : Bool) (dst : Nat) (bytes : List Byte) :
    Capped (hostPiece a ok read dst bytes s) := by grind [hostPiece, raise_capped, modEp_capped, finishCmd_capped]

theorem execPcieCompletionTimeout_capped (arrival : Nat) : CappedRes (execPcieCompletionTimeout arrival s) := by
  grind [execPcieCompletionTimeout, cappedRes_next, modEp_capped, finishCmd_capped, shutdownStep_capped]

theorem execDeviceSelfTest_capped (arrival : Nat) : CappedRes (execDeviceSelfTest arrival s) := by
  grind [execDeviceSelfTest, cappedRes_next, modEp_capped, runAdmin_capped, stat_capped]

theorem endTest_capped (t : SelfTest) (result segment : Nat) : Capped (endTest t result segment s) := hs

theorem execSelfTestStep_capped (ok : Bool) : CappedRes (execSelfTestStep ok s) := by
  grind [execSelfTestStep, cappedRes_next, capped_fields, raise_capped, modEp_capped, endTest_capped]

theorem dropWaiting_capped : Capped (dropWaiting s) := hs

theorem resetController_capped : Capped (resetController s) := by grind [resetController, modEp_capped, dropWaiting_capped]

theorem execControllerEnable_capped (asqSize acqSize : Nat) : CappedRes (execControllerEnable asqSize acqSize s) := by
  grind [execControllerEnable, cappedRes_next, modEp_capped]

theorem execControllerDisable_capped : CappedRes (execControllerDisable s) := by
  grind [execControllerDisable, cappedRes_next, resetController_capped]

theorem execPcieLinkLoss_capped : CappedRes (execPcieLinkLoss s) := by
  grind [execPcieLinkLoss, cappedRes_next, modEp_capped, resetController_capped]

theorem execControllerShutdown_capped : CappedRes (execControllerShutdown s) := by
  grind [execControllerShutdown, cappedRes_next, modEp_capped, shutdownStep_capped]

theorem execHostCqTimeout_capped (q : Nat) : CappedRes (execHostCqTimeout q s) := by
  grind [execHostCqTimeout, cappedRes_next, raise_capped, modEp_capped]

theorem ssdDone_capped (port : Nat) (c : SsdCmd) (ok : Bool) : Capped (ssdDone port c ok s) := by
  grind [ssdDone, recFail_capped, flightWrite_capped, phaseStep_capped, playRead_capped, shutdownStep_capped, hostPiece_capped]

theorem completeSsd_capped (port id : Nat) (ok : Bool) : Capped (completeSsd port id ok s) := by
  grind [completeSsd, drawOne_capped, modSsd_capped, modMedia_capped, sendAdmin_capped, ssdDone_capped]

theorem execSsdCommandCompletion_capped (member id : Nat) (ok : Bool) : CappedRes (execSsdCommandCompletion member id ok s) :=
  by grind [execSsdCommandCompletion, cappedRes_next, checkStop_capped, completeSsd_capped]

theorem execPlaybackReadComplete_capped (m : Nat) (ok : Bool) : CappedRes (execPlaybackReadComplete m ok s) := by
  grind [execPlaybackReadComplete, cappedRes_next, playPump_capped, completeSsd_capped]

theorem setPhase_capped (port ph : Nat) (p : SsdCmd → Bool) : Capped (setPhase port ph p s) := by
  grind [setPhase, modSsd_capped]

theorem execSsdCommandTimeout_capped (member id : Nat) : CappedRes (execSsdCommandTimeout member id s) := by
  grind [execSsdCommandTimeout, cappedRes_next, sendAdmin_capped, setPhase_capped]

theorem execSsdAbortExpiry_capped (member id : Nat) : CappedRes (execSsdAbortExpiry member id s) := by
  grind [execSsdAbortExpiry, cappedRes_next, setPhase_capped]

theorem execSsdResetExpiry_capped (member : Nat) : CappedRes (execSsdResetExpiry member s) := by
  unfold execSsdResetExpiry
  dsimp only
  have hfold := @capped_foldl
  grind [cappedRes_next, modSsd_capped, recFail_capped, completeSsd_capped]

end

/-! ### The operations of Machine/Dram.lean -/

section
variable {s : State} (hs : Capped s)
include hs

theorem modDram_capped (f : Dram → Dram) : Capped (modDram f s) := hs

theorem modChan18_capped (c : Nat) (f : DramChan → DramChan) : Capped (modChan18 c f s) := hs

theorem useCheck_capped (c a : Nat) (write : Bool) : Capped (useCheck c a write s) := hs

theorem noteCorrected_capped (c : Nat) : Capped (noteCorrected c s) := by grind [noteCorrected, raise_capped, modChan18_capped]

theorem noteUncorrectable_capped (c : Nat) : Capped (noteUncorrectable c s) := hs

theorem readChecked_capped (c a : Nat) (errs : List Nat) : Capped (readChecked c a errs s) := by
  grind [readChecked, modDram_capped, noteCorrected_capped, noteUncorrectable_capped]

theorem poisonFrame_capped (n num : Nat) : Capped (poisonFrame n num s) := by
  grind [poisonFrame, modSeam_capped, freeClaims_capped, noteDrop_capped, dropReceiving_capped]

theorem poisonEncode_capped (m : Nat) : Capped (poisonEncode m s) := by
  grind [poisonEncode, modCodec_capped, modEnc_capped, modEncSource_capped, takeInput_capped]

theorem poisonDecode_capped (m : Nat) : Capped (poisonDecode m s) := by
  grind [poisonDecode, modCodec_capped, modDec_capped, tryDecode_capped]

theorem poisonOutput_capped (o : OutId) : Capped (poisonOutput o s) := by
  grind [poisonOutput, modOutput_capped, modSrcRing_capped]

theorem poisonView_capped (k : Nat) : Capped (poisonView k s) := hs

theorem poisonAudio_capped (p : Nat) : Capped (poisonAudio p s) := by grind [poisonAudio, modAud_capped]

theorem poisonStats_capped (n : Nat) : Capped (poisonStats n s) := by grind [poisonStats, modCap_capped]

theorem poisonJob_capped (id : Nat) : Capped (poisonJob id s) := by grind [poisonJob, jobFailed_capped]

theorem poisoned_capped (c : Nat) (client : DramClient) : Capped (poisoned c client s) := by
  unfold poisoned
  split <;> grind [raise_capped, finishCmd_capped, recHalt_capped, modDram_capped, poisonFrame_capped, poisonEncode_capped,
    poisonDecode_capped, poisonOutput_capped, poisonView_capped, poisonAudio_capped, poisonStats_capped, poisonJob_capped]

theorem execDramRequest_capped (ch : Nat) (client : DramClient) (addr : Nat) (data : Option (List Byte)) :
    CappedRes (execDramRequest ch client addr data s) := by
  unfold execDramRequest
  split
  · exact fun _ ht => by cases ht
  · exact cappedRes_next (capped_ite hs (modChan18_capped hs ..))

theorem refreshNeighbours_capped (c : Nat) : Capped (refreshNeighbours c s) := by grind [refreshNeighbours, modChan18_capped]

theorem openRow_capped (c bank row : Nat) : Capped (openRow c bank row s) := by
  grind [openRow, modChan18_capped, refreshNeighbours_capped]

theorem execActivateThreshold_capped (ch : Nat) : CappedRes (execActivateThreshold ch s) := by
  grind [execActivateThreshold, cappedRes_next, refreshNeighbours_capped]

theorem admitStalled_capped (c : Nat) : Capped (admitStalled c s) := by grind [admitStalled, modChan18_capped]

theorem leaveQueue_capped (c : Nat) (r : DramReq) : Capped (leaveQueue c r s) := hs

theorem finishRead_capped (c : Nat) (r : DramReq) (errs : List Nat) : Capped (finishRead c r errs s) := by
  grind [finishRead, modChan18_capped, useCheck_capped, readChecked_capped, poisoned_capped]

theorem finishWrite_capped (c : Nat) (r : DramReq) (l : List Byte) (errs : List Nat) : Capped (finishWrite c r l errs s) := by
  grind [finishWrite, modDram_capped, useCheck_capped, readChecked_capped]

theorem endRequest_capped (ch : Nat) (r : DramReq) (errs : List Nat) : Capped (endRequest ch r errs s) := by
  grind [endRequest, openRow_capped, admitStalled_capped, leaveQueue_capped, finishRead_capped, finishWrite_capped]

theorem execDramRequestComplete_capped (ch id : Nat) (bitErrors : List Nat) :
    CappedRes (execDramRequestComplete ch id bitErrors s) := by
  grind [execDramRequestComplete, cappedRes_next, endRequest_capped]

theorem scrubBurst_capped (ch a : Nat) (errs : List Nat) : Capped (scrubBurst ch a errs s) := by
  grind [scrubBurst, modDram_capped, readChecked_capped]

theorem scrubCheck_capped (ch chunk : Nat) (errs : List Nat) : Capped (scrubCheck ch chunk errs s) :=
  capped_foldl hs fun u x hu => by grind [scrubBurst_capped]

theorem execScrubStep_capped (ch : Nat) (bitErrors : List Nat) : CappedRes (execScrubStep ch bitErrors s) := by
  grind [execScrubStep, cappedRes_next, modChan18_capped, scrubBurst_capped, scrubCheck_capped]

theorem execMr4Poll_capped (ch code : Nat) : CappedRes (execMr4Poll ch code s) := by
  grind [execMr4Poll, cappedRes_next, endRun_capped, raiseOnce_capped, modChan18_capped]

theorem execRefreshDue_capped (ch : Nat) : CappedRes (execRefreshDue ch s) := by
  grind [execRefreshDue, cappedRes_next, modChan18_capped]

theorem execDelayUpdate_capped (ch : Nat) : CappedRes (execDelayUpdate ch s) := by
  grind [execDelayUpdate, cappedRes_next, endRun_capped, raiseOnce_capped, drawOne_capped, modChan18_capped]

theorem trainChan_capped (c : Nat) : Capped (trainChan c s) := by grind [trainChan, drawOne_capped, modChan18_capped]

theorem drainChan_capped (c k : Nat) : Capped (drainChan c k s) := by
  induction k generalizing s with
  | zero => exact hs
  | succ k ih =>
    unfold drainChan
    split
    · exact ih (endRequest_capped hs ..)
    · exact hs

theorem enterSelfRefresh_capped : Capped (enterSelfRefresh s) := by
  unfold enterSelfRefresh
  dsimp only
  have hfold := @capped_foldl
  grind [modDram_capped, drainChan_capped]

theorem leaveSelfRefresh_capped : Capped (leaveSelfRefresh s) :=
  capped_foldl hs fun u x hu => by grind [drawOne_capped, modChan18_capped]

end

/-! ### The operations of Machine/Mailrows.lean -/

section
variable {s : State} (hs : Capped s)
include hs

theorem modMbx_capped (f : Mailboxes → Mailboxes) : Capped (modMbx f s) := hs

theorem execReplyHoldExpiry_capped (v : View) (c : Nat) : CappedRes (execReplyHoldExpiry v c s) := by
  grind [execReplyHoldExpiry, cappedRes_next, raiseOnce_capped, modChan_capped, modView_capped]

theorem execTokenSequenceTimeout_capped (c : Nat) (path : Path) : CappedRes (execTokenSequenceTimeout c path s) := by
  grind [execTokenSequenceTimeout, cappedRes_next, endSeq_capped]

theorem execBulkWindowHoldExpiry_capped : CappedRes (execBulkWindowHoldExpiry s) := by
  grind [execBulkWindowHoldExpiry, cappedRes_next, modMbx_capped]

theorem execBulkWindowWrite_capped (v : View) (off : Nat) (data : List Byte) : CappedRes (execBulkWindowWrite v off data s) :=
  by grind [execBulkWindowWrite, cappedRes_next, writeBulk_capped, modMbx_capped]

theorem execWakeComplete_capped (recv : Nat) : CappedRes (execWakeComplete recv s) := by
  grind [execWakeComplete, cappedRes_next, modMbx_capped]

theorem bulkClaim_capped (p : Path) : Capped (bulkClaim p s).2 := by grind [bulkClaim, modMbx_capped]

theorem bulkRelease_capped (p : Path) : Capped (bulkRelease p s).2 := by grind [bulkRelease, modMbx_capped]

theorem postFrom_capped (v : View) (c : Nat) : Capped (postFrom v c s) := by grind [postFrom, modView_capped, enqueue_capped]

theorem execPost_capped (v : View) (c : Nat) : CappedRes (execPost v c s) := by
  grind [execPost, cappedRes_next, postFrom_capped]

theorem ackFrom_capped (v : View) (c : Nat) : Capped (ackFrom v c s) := by grind [ackFrom, endRun_capped, modView_capped]

theorem execAck_capped (v : View) (c : Nat) : CappedRes (execAck v c s) := by grind [execAck, cappedRes_next, ackFrom_capped]

theorem execRegisterWrite_capped (v : View) (addr : Nat) (value : Word) : CappedRes (execRegisterWrite v addr value s) := by
  grind [execRegisterWrite, cappedRes_next, writeBulk_capped, modView_capped, modMbx_capped, postFrom_capped, ackFrom_capped]

end

/-! ### The operations of Machine/Images.lean -/

section
variable {s : State} (hs : Capped s)
include hs

theorem verifyRegion_capped (kind : Nat) (b : Bool) : Capped (verifyRegion kind b s).2 := by
  grind [verifyRegion, capped_fields, raise_capped]

theorem appendSlot_capped (r : SlotRec) : Capped (appendSlot r s) := hs

theorem setSlot_capped (kind : Nat) (f : SlotRec → SlotRec) : Capped (setSlot kind f s) := by grind [setSlot, capped_fields]

theorem chooseSlot_capped (kind : Nat) : Capped (chooseSlot kind s).2 := by
  grind [chooseSlot, raise_capped, appendSlot_capped, setSlot_capped]

end

/-! ### The operations of Machine/Sensor.lean -/

section
variable {s : State} (hs : Capped s)
include hs

theorem logFaults_capped (p m ck : Nat) : Capped (logFaults p m ck s) := by
  unfold logFaults
  dsimp only
  repeat' split
  all_goals grind [raise_capped]

theorem loseClock_capped (p m : Nat) : Capped (loseClock p m s) := by grind [loseClock, modPort_capped]

theorem directScript_capped (p : Nat) (f : Fld) (e : ScriptEnd) : Capped (directScript p f e s) := by
  grind [directScript, raise_capped, modPort_capped]

theorem armTrigger_capped (p : Nat) : Capped (armTrigger p s) := by
  unfold armTrigger
  dsimp only
  have hfold := @capped_foldl
  grind [modExp_capped, modPort_capped]

theorem startRetrain_capped (ps : List Nat) : Capped (startRetrain ps s) :=
  capped_foldl hs fun u x hu => by grind [modExp_capped, modCap_capped, retrain_capped]

theorem surveyNext_capped (p : Nat) : Capped (surveyNext p s) := by
  grind [surveyNext, capped_fields, modPort_capped, startRetrain_capped]

theorem finishTraining_capped (p : Nat) (obs : TrainObs) : Capped (finishTraining p obs s) := by
  grind [finishTraining, modPort_capped, directScript_capped, armTrigger_capped, surveyNext_capped]

theorem applyTraining_capped (p : Nat) (obs : TrainObs) : Capped (applyTraining p obs s) := hs

theorem trainAtStart_capped (p : Nat) (obs : TrainObs) : Capped (trainAtStart p obs s) := by
  unfold trainAtStart
  dsimp only
  split <;> grind [raise_capped, enterConfigError_capped, modPort_capped, logFaults_capped, directScript_capped,
    finishTraining_capped, applyTraining_capped]

theorem trainAgain_capped (p : Nat) (obs : TrainObs) : Capped (trainAgain p obs s) := by
  unfold trainAgain
  dsimp only
  split <;> grind [raise_capped, logFaults_capped, loseClock_capped, directScript_capped, finishTraining_capped,
    applyTraining_capped]

theorem execPortBringUp_capped (p : Nat) (obs : TrainObs) : CappedRes (execPortBringUp p obs s) := by
  grind [execPortBringUp, cappedRes_next, modPort_capped, retrain_capped, directScript_capped, trainAtStart_capped,
    trainAgain_capped]

theorem execSensorClockTimeout_capped (p : Nat) : CappedRes (execSensorClockTimeout p s) := by
  grind [execSensorClockTimeout, cappedRes_next, raise_capped, enterConfigError_capped, modPort_capped]

theorem execDeskewUpdate_capped (p : Nat) : CappedRes (execDeskewUpdate p s) := by
  grind [execDeskewUpdate, cappedRes_next, modPort_capped]

theorem applyNewFaults_capped (p : Nat) : Capped (applyNewFaults p s) := by
  unfold applyNewFaults
  dsimp only
  repeat' split
  all_goals grind [modPort_capped, logFaults_capped, loseClock_capped]

theorem portDrop_capped (p : Nat) : Capped (portDrop p s) := by
  grind [portDrop, modPort_capped, dropReceiving_capped, closeRecord_capped]

theorem beginFrame_capped (p n : Nat) (gang : Bool) : Capped (beginFrame p n gang s) := by
  grind [beginFrame, raise_capped, modSeam_capped, modPort_capped, noteDrop_capped, commitArrival_capped, arrive_capped,
    openRecord_capped, closeRecord_capped, loopFrame_capped, portDrop_capped]

theorem execFrameStart_capped (p : Nat) (skews : List Int) : CappedRes (execFrameStart p skews s) := by
  unfold execFrameStart
  dsimp only
  have hfold := @capped_foldl
  grind [cappedRes_next, modCap_capped, modPort_capped, applyNewFaults_capped, beginFrame_capped]

theorem syncViolation_capped (p : Nat) : Capped (syncViolation p s) := by grind [syncViolation, raise_capped, portDrop_capped]

theorem gangDisagree_capped (p : Nat) : Capped (gangDisagree p s) := by grind [gangDisagree, raise_capped, portDrop_capped]

theorem execLineStart_capped (p gap : Nat) (skews : List Int) : CappedRes (execLineStart p gap skews s) := by
  grind [execLineStart, cappedRes_next, modPort_capped, claimStripe_capped, closeRecord_capped, syncViolation_capped,
    gangDisagree_capped]

theorem storeLine_capped (p n : Nat) (px : List Nat) : Capped (storeLine p n px s) := by
  grind [storeLine, modPort_capped, markCropped_capped, writeLine_capped, closeRecord_capped]

theorem execLineEnd_capped (p : Nat) (beats : List (List (Bool × Beat))) (skews : List Int) (faults : List (Nat × PairFault)) :
  CappedRes (execLineEnd p beats skews faults s) := by
  unfold execLineEnd
  dsimp only
  have hfold := @capped_foldl
  grind [cappedRes_next, modPort_capped, portDrop_capped, gangDisagree_capped, storeLine_capped]

theorem execFrameEnd_capped (p gap : Nat) : CappedRes (execFrameEnd p gap s) := by
  grind [execFrameEnd, cappedRes_next, modPort_capped, endReceiving_capped, closeRecord_capped, startRetrain_capped,
    syncViolation_capped]

theorem execSensorClockLoss_capped (p : Nat) : CappedRes (execSensorClockLoss p s) := by
  grind [execSensorClockLoss, cappedRes_next, raise_capped, modPort_capped, portDrop_capped]

theorem execSensorClockAbsentExpiry_capped (p : Nat) : CappedRes (execSensorClockAbsentExpiry p s) := by
  grind [execSensorClockAbsentExpiry, cappedRes_next, modPort_capped, retrain_capped]

theorem execSensorClockReturn_capped (p : Nat) : CappedRes (execSensorClockReturn p s) := by
  grind [execSensorClockReturn, cappedRes_next, modPort_capped, startRetrain_capped]

theorem execBlankingWindowOpen_capped (p : Nat) : CappedRes (execBlankingWindowOpen p s) := by
  grind [execBlankingWindowOpen, cappedRes_next, modPort_capped, considerHead_capped, loopTurn_capped]

theorem execTrigger_capped (p : Nat) : CappedRes (execTrigger p s) := by
  grind [execTrigger, cappedRes_next, modExp_capped, modPort_capped, rebaseSchedule_capped]

theorem execTriggerPulseEnd_capped (p : Nat) : CappedRes (execTriggerPulseEnd p s) := by
  grind [execTriggerPulseEnd, cappedRes_next, modPort_capped]

end

/-! ### The operations of Machine/Headframe.lean -/

section
variable {s : State} (hs : Capped s)
include hs

theorem modHf_capped (f : Headframe → Headframe) : Capped (modHf f s) := hs

theorem modPwr_capped (f : Power → Power) : Capped (modPwr f s) := hs

theorem logFaulted_capped (old : List TempSensor) : Capped (logFaulted old s) := by
  unfold logFaulted
  refine capped_foldl ?_ fun u x hu => ?_
  · grind [endRun_capped, raiseOnce_capped]
  · grind [endRun_capped, raiseOnce_capped]

theorem thermalRules_capped : Capped (thermalRules s) := by
  grind [thermalRules, endRun_capped, raise_capped, raiseOnce_capped, modPwr_capped]

theorem clockRules_capped (bad : List Nat) : Capped (clockRules bad s) := by
  unfold clockRules
  dsimp only
  have hfold := @capped_foldl
  grind [endRun_capped, raiseOnce_capped, modHf_capped]

theorem execSensorSample_capped (temps : List Int) (rails counts : List Nat) :
    CappedRes (execSensorSample temps rails counts s) := by
  grind [execSensorSample, cappedRes_next, noticeTemp_capped, modHf_capped, logFaulted_capped, thermalRules_capped,
    clockRules_capped]

end

theorem resetAll_capped {s : State} : Capped (resetAll s) := ⟨Nat.zero_le _, Nat.zero_le _, Nat.zero_le _⟩

section
variable {s : State} (hs : Capped s)
include hs

theorem execSupplyOutOfLimits_capped (rail mV : Nat) : CappedRes (execSupplyOutOfLimits rail mV s) := by
  grind [execSupplyOutOfLimits, cappedRes_next, raise_capped, raiseOnce_capped, modIsl_capped, resetAll_capped]

end

theorem execVddAonLoss_capped {s : State} : CappedRes (execVddAonLoss s) := by
  grind [execVddAonLoss, cappedRes_next, resetAll_capped]

section
variable {s : State} (hs : Capped s)
include hs

theorem execCoreWatchdogExpiry_capped (core : Nat) : CappedRes (execCoreWatchdogExpiry core s) := by
  grind [execCoreWatchdogExpiry, cappedRes_next, capped_fields, raise_capped, modHf_capped]

theorem execEventLogProgram_capped (ok : Bool) : CappedRes (execEventLogProgram ok s) := by
  refine cappedRes_next (capped_ite hs ?_)
  split
  · exact hs
  next e r hr =>
    obtain ⟨herr, hsram, hwait⟩ := hs
    rw [hr] at hwait
    exact endRun_capped (s := { s with log := { s.log with waiting := r, ring := _ } }) ⟨herr, hsram, (Nat.le_succ _).trans
      hwait⟩ ..

theorem execBootNvmTimeout_capped (logWrite : Bool) : CappedRes (execBootNvmTimeout logWrite s) := by
  grind [execBootNvmTimeout, cappedRes_next, raise_capped, raiseOnce_capped, modHf_capped]

theorem execI2cBusStuck_capped (stillLow : Bool) : CappedRes (execI2cBusStuck stillLow s) := by
  grind [execI2cBusStuck, cappedRes_next, endRun_capped, raiseOnce_capped, modHf_capped]

theorem execPmbusPoll_capped (reading : Option Word) : CappedRes (execPmbusPoll reading s) := by
  unfold execPmbusPoll
  refine cappedRes_next ?_
  split <;> grind [cappedRes_next, endRun_capped, raiseOnce_capped, modPwr_capped]

theorem modUpd_capped (f : Update → Update) : Capped (modUpd f s) := hs

theorem storeImage_capped (u : Update) : Capped (storeImage u s) := by
  grind [storeImage, capped_fields, appendSlot_capped, modHf_capped]

theorem execUpdateWriteComplete_capped (ok : Bool) : CappedRes (execUpdateWriteComplete ok s) := by
  grind [execUpdateWriteComplete, cappedRes_next, raise_capped, modUpd_capped, storeImage_capped]

theorem execUpdateSessionTimeout_capped : CappedRes (execUpdateSessionTimeout s) := by
  grind [execUpdateSessionTimeout, cappedRes_next, modUpd_capped]

theorem execBootConfirmation_capped : CappedRes (execBootConfirmation s) := by
  grind [execBootConfirmation, cappedRes_next, capped_fields, setSlot_capped]

theorem writeUser_capped (sets : List CalSet) : Capped (writeUser sets s) := by grind [writeUser, modHf_capped]

theorem endSurvey_capped : Capped (endSurvey s) := by grind [endSurvey, verifyCal_capped]

theorem execSurveyItemComplete_capped (i : Nat) (obs : SurveyObs) : CappedRes (execSurveyItemComplete i obs s) := by
  grind [execSurveyItemComplete, cappedRes_next, raise_capped, modHf_capped, writeUser_capped, endSurvey_capped]

end

/-! ### The operations of Machine/Security.lean -/

section
variable {s : State} (hs : Capped s)
include hs

theorem modOtp_capped (f : Otp → Otp) : Capped (modOtp f s) := hs

theorem queueOtp_capped (w : OtpWrite) : Capped (queueOtp w s) := hs

theorem execOtpWriteComplete_capped (ok : Bool) : CappedRes (execOtpWriteComplete ok s) := by
  grind [execOtpWriteComplete, cappedRes_next, raise_capped, modOtp_capped]

end

/-! ### The operations of Machine/Errors.lean -/

section
variable {s : State} (hs : Capped s)
include hs

theorem hwEffect_capped (code inst : Nat) (ds : List Nat) : Capped (hwEffect code inst ds s) := by
  unfold hwEffect
  extract_lets b i
  exact capped_ite hs (capped_ite (recHalt_capped hs) (capped_ite (stopClip_capped hs _) (capped_ite (engineOut_capped hs _)
    (capped_ite (dropReceiving_capped hs _) (capped_ite (countRingDrop_capped (dropReceiving_capped hs _) _)
    (capped_ite (portDrop_capped hs _) (capped_ite (capped_ite (modPort_capped hs ..) hs) (capped_ite (modLane_capped hs ..)
    (capped_ite (modGroup_capped (retrainFrom_capped hs ..) ..) hs)))))))))

theorem execErrorDetected_capped (code inst : Nat) (details : List Word) : CappedRes (execErrorDetected code inst details s) :=
  by grind [execErrorDetected, cappedRes_next, raise_capped, hwEffect_capped]

theorem quietAll_capped : Capped (quietAll s) := by
  unfold quietAll
  dsimp only
  have hfold := @capped_foldl
  grind [capped_fields, clearFlight_capped, modEp_capped, resetController_capped]

theorem dropFrames_capped : Capped (dropFrames s) := capped_foldl hs fun u x hu => by grind [dropReceiving_capped]

theorem stopRecorder_capped (code : Nat) : Capped (stopRecorder code s) := by
  grind [stopRecorder, abandonWrites_capped, recHalt_capped]

theorem endFatal_capped : Capped (endFatal s) := by
  obtain ⟨herr, hsram, hwait⟩ := hs
  exact ⟨(List.length_filter_le ..).trans herr, hsram, hwait⟩

theorem fatalStep_capped (code steps : Nat) : Capped (fatalStep code steps s) := by
  unfold fatalStep
  split <;> grind [declareFailure_capped, quietAll_capped, dropFrames_capped, stopRecorder_capped]

theorem modErr_capped {f : ErrorQueue → ErrorQueue}
    (hf : (f s.err).entries.length ≤ s.err.entries.length) : Capped (modErr f s) := by
  obtain ⟨herr, hsram, hwait⟩ := hs
  exact ⟨hf.trans herr, hsram, hwait⟩

end

theorem runEntry_length (i : Nat) (q : List ErrEntry) : (runEntry i q).length = q.length := by simp [runEntry]

section
variable {s : State} (hs : Capped s)
include hs

theorem fatalAction_capped (i : Nat) (e : ErrEntry) (last : Bool) : Capped (fatalAction i e last s) := by
  unfold fatalAction
  extract_lets t u
  have ht : Capped t := fatalStep_capped (modErr_capped hs (runEntry_length ..).le) ..
  have hu : Capped u := capped_ite (fatalStep_capped (modErr_capped ht (List.length_map ..).le) ..) ht
  exact capped_ite ht (capped_ite (endFatal_capped hu) hu)

theorem execErrorAction_capped (last : Bool) : CappedRes (execErrorAction last s) := by
  refine cappedRes_next (capped_ite hs ?_)
  split
  · exact hs
  next i _ =>
    split
    · exact hs
    · refine capped_ite (fatalAction_capped hs ..) (capped_ite (modErr_capped hs ?_) (modErr_capped hs (runEntry_length ..).le))
      exact ((List.eraseIdx_sublist ..).length_le).trans (runEntry_length ..).le

end

/-! ### The operations of Machine/Admission.lean -/

section
variable {s : State} (hs : Capped s)
include hs

theorem logTerms_capped (sev : Nat) (l : List Term) : Capped (logTerms sev l s) :=
  capped_foldl hs fun u x hu => by grind [raise_capped]

end

/-! ### The operations of Machine/Startup.lean -/

theorem beginStart_capped {s : State} (straps : Nat) : Capped (beginStart straps s) := by
  grind [capped_fields, beginStart, resetAll_capped]

section
variable {s : State} (hs : Capped s)
include hs

theorem restartDevice_capped : Capped (restartDevice s) := by
  obtain ⟨-, hsram, hwait⟩ := hs
  exact ⟨Nat.zero_le _, hsram, hwait⟩

end

theorem execReset_capped {s : State} : CappedRes (execReset s) := by grind [execReset, cappedRes_next, resetAll_capped]

section
variable {s : State} (hs : Capped s)
include hs

theorem execResetRelease_capped (straps : Nat) : CappedRes (execResetRelease straps s) := by
  grind [execResetRelease, cappedRes_next, capped_fields, beginStart_capped]

end

theorem execHardwareThermalTrip_capped {s : State} : CappedRes (execHardwareThermalTrip s) := by
  grind [execHardwareThermalTrip, cappedRes_next, capped_fields, resetAll_capped]

section
variable {s : State} (hs : Capped s)
include hs

theorem execHardwareThermalTripClear_capped : CappedRes (execHardwareThermalTripClear s) := by
  grind [execHardwareThermalTripClear, cappedRes_next, modPwr_capped, beginStart_capped]

theorem execHeadframeWatchdogExpiry_capped : CappedRes (execHeadframeWatchdogExpiry s) := by
  grind [execHeadframeWatchdogExpiry, cappedRes_next, beginStart_capped]

theorem logAll_capped (sev : Nat) (l : List (Nat × Nat × List Nat)) : Capped (logAll sev l s) :=
  capped_foldl hs fun u x hu => by grind [raise_capped]

theorem modCfg_capped (f : Cfg → Cfg) : Capped (modCfg f s) := hs

theorem stopStart_capped (code inst : Nat) (ds : List Nat) : Capped (stopStart code inst ds s) := by
  grind [stopStart, raise_capped, enterConfigError_capped]

theorem trainDram_capped (ok : List Bool) : Capped (trainDram ok s) :=
  capped_foldl hs fun u x hu => by grind [raise_capped, modDram_capped, trainChan_capped]

theorem loadStore_capped : Capped (loadStore s) := by grind [loadStore, raise_capped, verifyRegion_capped, modHf_capped]

theorem islandUp_capped : Capped (islandUp s) := hs

theorem loadImages_capped (dramTrained : List Bool) (refSensor : Bool) : Capped (loadImages dramTrained refSensor s).2.2 := by
  grind [loadImages, raise_capped, verifyRegion_capped, chooseSlot_capped, modHf_capped, modPwr_capped, trainDram_capped,
    loadStore_capped, islandUp_capped]

theorem applyRecords_capped (rs : List Rec) : Capped (applyRecords rs s) := hs

theorem noteShort_capped (o : Option Nat) : Capped (noteShort o s) := by
  unfold noteShort
  split <;> grind [raise_capped]

theorem noteDiffers_capped (o : Option Nat) : Capped (noteDiffers o s) := by
  unfold noteDiffers
  split <;> grind [raise_capped]

theorem admitStart_capped : Capped (admitStart s) := by
  grind [admitStart, capped_fields, enterConfigError_capped, logTerms_capped, logAll_capped, noteShort_capped,
    noteDiffers_capped]

theorem checkStart_capped (rs : List Rec) : Capped (checkStart rs s) := by
  have ht := modCfg_capped (applyRecords_capped hs rs) (keepRole s.dev.role)
  exact capped_ite (admitStart_capped ht) (enterConfigError_capped (logAll_capped ht ..))

theorem startRecords_capped (b : Bool) : Capped (startRecords b s) := by
  unfold startRecords
  dsimp only
  split <;> grind [modCfg_capped, stopStart_capped, checkStart_capped]

theorem agree_capped (b : Bool) (reason : Nat) (dramOk : Bool) : Capped (agree b reason dramOk s) := by
  grind [agree, capped_fields, enterConfigError_capped, stopStart_capped, startRecords_capped]

theorem execStartUp_capped (dramTrained : List Bool) (refSensor : Bool) : CappedRes (execStartUp dramTrained refSensor s) := by
  grind [execStartUp, cappedRes_next, capped_fields, chooseSlot_capped, modCfg_capped, loadImages_capped, agree_capped]

end

/-! ### The operations of Machine/Devicemsgs.lean -/

section
variable {s : State} (hs : Capped s)
include hs

theorem followBalance_capped : Capped (followBalance s) := capped_foldl hs fun u x hu => by grind [modLoop_capped]

theorem refuseLogged_capped (cls : Nat) (l : List (Nat × Nat × List Nat)) : Capped (refuseLogged cls l s).2 := by
  grind [refuseLogged, logAll_capped]

theorem changeSettings_capped {commit : State → State} (hc : ∀ u, Capped u → Capped (commit u))
    (l : List (Nat × Nat × Nat × Nat)) : Capped (changeSettings l commit s).2 := by
  unfold changeSettings
  extract_lets w role busy enc adm other
  exact capped_snd_ite (refuseLogged_capped hs ..) (capped_snd_ite (refuseLogged_capped hs ..) (capped_snd_ite
    (refuseLogged_capped hs ..)
    (capped_snd_ite hs (capped_snd_ite (refuseLogged_capped hs ..) (hc _ (followBalance_capped (modCfg_capped hs _)))))))

end

/-! ### The operations of Machine/Rolestart.lean -/

section
variable {s : State} (hs : Capped s)
include hs

theorem viewsAtStart_capped : Capped (viewsAtStart s) := capped_foldl hs fun u x hu => by grind [modVf_capped, dirtyAll_capped]

theorem audioAtStart_capped : Capped (audioAtStart s) := capped_foldl hs fun u x hu => by grind [startAudio_capped]

theorem resetBlocks_capped : Capped (resetBlocks s) := hs

theorem loopsAtStart_capped : Capped (loopsAtStart s) := capped_ite hs (capped_foldl hs fun _ _ hu => startLoop_capped hu ..)

theorem readingsAtStart_capped : Capped (readingsAtStart s) := hs

theorem staleNonces_capped : Capped (staleNonces s) := hs

theorem roleStart_capped : Capped (roleStart s) := by
  grind [roleStart, capped_fields, islandStart_capped, mountVolume_capped, viewsAtStart_capped, audioAtStart_capped,
    resetBlocks_capped, loopsAtStart_capped, readingsAtStart_capped, staleNonces_capped]

theorem execRoleStart_capped : CappedRes (execRoleStart s) := by grind [execRoleStart, cappedRes_next, roleStart_capped]

end

/-! ### The operations of Machine/Power.lean -/

section
variable {s : State} (hs : Capped s)
include hs

theorem beginSuspend_capped : Capped (beginSuspend s) := by
  unfold beginSuspend
  dsimp only
  have hfold := @capped_foldl
  grind [modOuts_capped, runAudio_capped, modPwr_capped]

theorem haltBlocks_capped : Capped (haltBlocks s) := by grind [haltBlocks, capped_fields]

theorem keepLanes_capped : Capped (keepLanes s) := by
  unfold keepLanes
  dsimp only
  have hfold := @capped_foldl
  grind [capped_fields, clearFlight_capped]

theorem unmount_capped : Capped (unmount s) := by grind [unmount, noticeNs_capped, modRec_capped]

theorem completeSuspend_capped : Capped (completeSuspend s) := by
  unfold completeSuspend
  dsimp only
  grind [enterSelfRefresh_capped, modMbx_capped, modPwr_capped, haltBlocks_capped, keepLanes_capped, unmount_capped]

theorem settle_capped : Capped (settle s) := by grind [settle, beginPoint_capped, modPwr_capped, completeSuspend_capped]

theorem execTodTick_capped (n : Nat) : CappedRes (execTodTick n s) := by
  grind [execTodTick, cappedRes_next, passTicks_capped, settle_capped]

theorem resumePorts_capped : Capped (resumePorts s) := by grind [resumePorts, modCap_capped]

theorem resumeLanes_capped : Capped (resumeLanes s) := by grind [resumeLanes, capped_fields]

theorem resumeLoops_capped : Capped (resumeLoops s) := hs

theorem resume_capped : Capped (resume s) := by
  grind [resume, noticeNs_capped, mountVolume_capped, leaveSelfRefresh_capped, modMbx_capped, modPwr_capped,
    viewsAtStart_capped, audioAtStart_capped, resumePorts_capped, resumeLanes_capped, resumeLoops_capped]

theorem linkTrained_capped (k width : Nat) : Capped (linkTrained k width s) := by
  unfold linkTrained
  dsimp only
  have hfold := @capped_foldl
  grind [modLane_capped, laneErr_capped]

theorem execPcieLinkUp_capped (port : Option Nat) (width : Nat) : CappedRes (execPcieLinkUp port width s) := by
  unfold execPcieLinkUp
  refine cappedRes_next ?_
  split <;> grind [cappedRes_next, modEp_capped, linkTrained_capped]

end

end Sys2Proof.Proofs

/-! PROOFS. Every message, every command and every step keep the capacities of the error queue and the event log. -/

namespace Sys2Proof.Proofs
open Sys2Proof Sys2Proof.Machine Sys2Proof.Laws

/-! ### The operations of Machine/Time.lean -/

theorem timeStatusMsg_capped : ActCapped timeStatusMsg := fun r tok u hu => by
  dsimp only [timeStatusMsg]
  grind

theorem ptpPortStatusMsg_capped (m : Nat) : ActCapped (ptpPortStatusMsg m) := fun r tok u hu => by
  dsimp only [ptpPortStatusMsg]
  grind [modPtp_capped]

theorem arrayLockMsg_capped : ActCapped arrayLockMsg := fun r tok u hu => by
  dsimp only [arrayLockMsg]
  grind [capped_fields, modTime_capped]

theorem arrayUnlockMsg_capped : ActCapped arrayUnlockMsg := fun r tok u hu => by
  dsimp only [arrayUnlockMsg]
  grind [capped_fields, modTime_capped]

theorem scheduleMsg_capped : ActCapped scheduleMsg := fun r tok u hu => by
  dsimp only [scheduleMsg]
  repeat' split
  all_goals grind [capped_fields, modTime_capped]

theorem cancelMsg_capped : ActCapped cancelMsg := fun r tok u hu => by
  dsimp only [cancelMsg]
  grind [capped_fields, modTime_capped]

/-! ### The operations of Machine/Ingest.lean -/

theorem seamStatusMsg_capped (n : Nat) : ActCapped (seamStatusMsg n) := fun r tok u hu => by
  dsimp only [seamStatusMsg]
  grind

/-! ### The operations of Machine/Island.lean -/

theorem islandStatusMsg_capped : ActCapped islandStatusMsg := fun _ _ _ hu => hu

theorem recordReadMsg_capped : ActCapped recordReadMsg := fun r tok u hu => by
  dsimp only [recordReadMsg]
  grind [writeBulk_capped, noteRead_capped]

theorem islandCertMsg_capped : ActCapped islandCertMsg := fun r tok u hu => by
  dsimp only [islandCertMsg]
  grind [writeBulk_capped]

theorem verifyCalMsg_capped : ActCapped verifyCalMsg := fun r tok u hu => by
  dsimp only [verifyCalMsg]
  grind [verifyCal_capped]

theorem signNowMsg_capped : ActCapped signNowMsg := fun r tok u hu => by
  dsimp only [signNowMsg]
  grind [signSeam_capped]

theorem islandSettingsMsg_capped : ActCapped islandSettingsMsg := fun r tok u hu => by
  dsimp only [islandSettingsMsg]
  grind [capped_fields, raise_capped, islandLog_capped, signAll_capped]

/-! ### The operations of Machine/Lanes.lean -/

theorem laneMsg_capped (n : Nat) : ActCapped (laneMsg n) := fun r tok u hu => by
  dsimp only [laneMsg]
  grind [laneAct_capped]

/-! ### The operations of Machine/Engines.lean -/

theorem streamStatusMsg_capped (m : Nat) : ActCapped (streamStatusMsg m) := fun r tok u hu => by
  dsimp only [streamStatusMsg]
  grind

theorem bitstreamReadMsg_capped (m : Nat) : ActCapped (bitstreamReadMsg m) := fun r tok u hu => by
  dsimp only [bitstreamReadMsg]
  grind [writeBulk_capped, modEnc_capped, trimRing_capped]

theorem bitstreamWriteMsg_capped (m : Nat) : ActCapped (bitstreamWriteMsg m) := fun r tok u hu => by
  dsimp only [bitstreamWriteMsg]
  grind [feedDecoder_capped]

theorem forceIdrMsg_capped (m : Nat) : ActCapped (forceIdrMsg m) := fun r tok u hu => by
  dsimp only [forceIdrMsg]
  grind [modEnc_capped]

theorem decoderFlushMsg_capped (m : Nat) : ActCapped (decoderFlushMsg m) := fun r tok u hu => by
  dsimp only [decoderFlushMsg]
  grind [flushDecoder_capped]

/-! ### The operations of Machine/Output.lean -/

theorem sdiStatusMsg_capped (k : Nat) : ActCapped (sdiStatusMsg k) := fun _ _ _ hu => hu

theorem macStatusMsg_capped (m : Nat) : ActCapped (macStatusMsg m) := fun _ _ _ hu => hu

theorem senderStatusMsg_capped (n : Nat) : ActCapped (senderStatusMsg n) := fun r tok u hu => by
  dsimp only [senderStatusMsg]
  grind

/-! ### The operations of Machine/Audio.lean -/

theorem audioStatusMsg_capped (p : Nat) : ActCapped (audioStatusMsg p) := fun _ _ _ hu => hu

theorem startStopMsg_capped (p : Nat) : ActCapped (startStopMsg p) := fun r tok u hu => by
  dsimp only [startStopMsg]
  grind [runAudio_capped]

theorem blockWriteMsg_capped (p : Nat) : ActCapped (blockWriteMsg p) := fun r tok u hu => by
  dsimp only [blockWriteMsg]
  grind [writeBlocks_capped]

/-! ### The operations of Machine/Loops.lean -/

theorem lockBroadcastMsg_capped : ActCapped lockBroadcastMsg := fun r tok u hu => by
  dsimp only [lockBroadcastMsg]
  grind [followAll_capped]

theorem loopStatusMsg_capped (n : Nat) : ActCapped (loopStatusMsg n) := fun _ _ _ hu => hu

/-! ### The operations of Machine/Links.lean -/

theorem linkStatusMsg_capped (g : Nat) : ActCapped (linkStatusMsg g) := fun _ _ _ hu => hu

theorem linkRetrainMsg_capped (g : Nat) : ActCapped (linkRetrainMsg g) := fun r tok u hu => by
  dsimp only [linkRetrainMsg]
  grind [raise_capped, modGroup_capped, retrainFrom_capped, redLinkDown_capped, retrainNow_capped]

/-! ### The operations of Machine/Compressor.lean -/

theorem compressorStatusMsg_capped : ActCapped compressorStatusMsg := fun r tok u hu => by
  dsimp only [compressorStatusMsg]
  grind

theorem aditCompressionMsg_capped (n : Nat) : ActCapped (aditCompressionMsg n) := fun _ _ _ hu => hu

/-! ### The operations of Machine/Recorder.lean -/

theorem recorderStatusMsg_capped : ActCapped recorderStatusMsg := fun r tok u hu => by
  dsimp only [recorderStatusMsg]
  grind

theorem recordStartMsg_capped : ActCapped recordStartMsg := fun r tok u hu => by
  dsimp only [recordStartMsg]
  grind [startClip_capped]

theorem recordStopMsg_capped : ActCapped recordStopMsg := fun r tok u hu => by
  dsimp only [recordStopMsg]
  grind [modRec_capped, checkStop_capped]

theorem clipQueryMsg_capped : ActCapped clipQueryMsg := fun _ _ _ hu => hu

theorem formatVolumeMsg_capped : ActCapped formatVolumeMsg := fun r tok u hu => by
  dsimp only [formatVolumeMsg]
  grind [noticeNs_capped, formatVolume_capped]

theorem deleteClipMsg_capped : ActCapped deleteClipMsg := fun r tok u hu => by
  dsimp only [deleteClipMsg]
  grind [deleteClip_capped]

theorem playbackStartMsg_capped : ActCapped playbackStartMsg := fun r tok u hu => by
  dsimp only [playbackStartMsg]
  grind [modPlay_capped, playPump_capped]

theorem playbackStopMsg_capped : ActCapped playbackStopMsg := fun r tok u hu => by
  dsimp only [playbackStopMsg]
  grind [modPlay_capped, flushDecoder_capped]

theorem playbackStatusMsg_capped : ActCapped playbackStatusMsg := fun _ _ _ hu => hu

/-! ### The operations of Machine/Viewfinder.lean -/

theorem viewfinderStatusMsg_capped (k : Nat) : ActCapped (viewfinderStatusMsg k) := fun r tok u hu => by
  dsimp only [viewfinderStatusMsg]
  grind

theorem overlayWriteMsg_capped (k : Nat) : ActCapped (overlayWriteMsg k) := fun r tok u hu => by
  dsimp only [overlayWriteMsg]
  grind [writeOverlay_capped]

theorem refreshMsg_capped (k : Nat) : ActCapped (refreshMsg k) := fun r tok u hu => by
  dsimp only [refreshMsg]
  grind [dirtyAll_capped]

/-! ### The operations of Machine/Redundant.lean -/

theorem claimVerdictMsg_capped : ActCapped claimVerdictMsg := fun r tok u hu => by
  dsimp only [claimVerdictMsg]
  grind [depose_capped, becomePrimary_capped, claimRefused_capped]

theorem redundancyStatusMsg_capped : ActCapped redundancyStatusMsg := fun r tok u hu => by
  dsimp only [redundancyStatusMsg]
  grind

theorem plannedSwitchOverMsg_capped : ActCapped plannedSwitchOverMsg := fun r tok u hu => by
  dsimp only [plannedSwitchOverMsg]
  grind [modRed_capped]

theorem headPrimaryStatusMsg_capped : ActCapped headPrimaryStatusMsg := fun _ _ _ hu => hu

/-! ### The operations of Machine/Pipeline.lean -/

theorem lutLoadMsg_capped (t : Nat) : ActCapped (lutLoadMsg t) := fun r tok u hu => by
  dsimp only [lutLoadMsg]
  grind [raise_capped, modCap_capped, endLut_capped]

theorem frontEndStatusMsg_capped (n : Nat) : ActCapped (frontEndStatusMsg n) := fun _ _ _ hu => hu

theorem statisticsFetchMsg_capped (n : Nat) : ActCapped (statisticsFetchMsg n) := fun r tok u hu => by
  dsimp only [statisticsFetchMsg]
  grind [writeBulk_capped]

theorem tapStatusMsg_capped (t : Nat) : ActCapped (tapStatusMsg t) := fun _ _ _ hu => hu

theorem aditStatusMsg_capped (n : Nat) : ActCapped (aditStatusMsg n) := fun _ _ _ hu => hu

theorem aditReadMsg_capped (n : Nat) : ActCapped (aditReadMsg n) := fun r tok u hu => by
  dsimp only [aditReadMsg]
  grind [writeBulk_capped, hostRelease_capped, hostTake_capped]

/-! ### The operations of Machine/Endpoint.lean -/

theorem endpointStatusMsg_capped : ActCapped endpointStatusMsg := fun r tok u hu => by
  dsimp only [endpointStatusMsg]
  grind

/-! ### The operations of Machine/Dram.lean -/

theorem channelStatusMsg_capped (c : Nat) : ActCapped (channelStatusMsg c) := fun _ _ _ hu => hu

/-! ### The operations of Machine/Mailrows.lean -/

theorem mailboxStatusMsg_capped : ActCapped mailboxStatusMsg := fun _ _ _ hu => hu

theorem nonceMsg_capped : ActCapped nonceMsg := fun r tok u hu => by
  dsimp only [nonceMsg]
  grind [drawOne_capped, modMbx_capped]

theorem bulkWindowMsg_capped : ActCapped bulkWindowMsg := fun r tok u hu => by
  dsimp only [bulkWindowMsg]
  grind [bulkClaim_capped, bulkRelease_capped]

/-! ### The operations of Machine/Sensor.lean -/

theorem portStatusMsg_capped (p : Nat) : ActCapped (portStatusMsg p) := fun _ _ _ hu => hu

theorem retrainMsg_capped (p : Nat) : ActCapped (retrainMsg p) := fun r tok u hu => by
  dsimp only [retrainMsg]
  grind [modCap_capped, startRetrain_capped]

theorem sensorWriteMsg_capped (p : Nat) : ActCapped (sensorWriteMsg p) := fun r tok u hu => by
  dsimp only [sensorWriteMsg]
  grind [raise_capped, queueScript_capped]

/-! ### The operations of Machine/Headframe.lean -/

theorem eventLogReadMsg_capped : ActCapped eventLogReadMsg := fun r tok u hu => by
  dsimp only [eventLogReadMsg]
  grind [writeBulk_capped]

theorem updateBeginMsg_capped : ActCapped updateBeginMsg := fun r tok u hu => by
  dsimp only [updateBeginMsg]
  grind [modUpd_capped]

theorem updateDataMsg_capped : ActCapped updateDataMsg := fun r tok u hu => by
  dsimp only [updateDataMsg]
  grind [modUpd_capped]

theorem updateCommitMsg_capped : ActCapped updateCommitMsg := fun r tok u hu => by
  dsimp only [updateCommitMsg]
  grind [raise_capped, modUpd_capped]

theorem updateStatusMsg_capped : ActCapped updateStatusMsg := fun _ _ _ hu => hu

theorem updateAbortMsg_capped : ActCapped updateAbortMsg := fun r tok u hu => by
  dsimp only [updateAbortMsg]
  grind [modUpd_capped]

theorem surveyRunMsg_capped : ActCapped surveyRunMsg := fun r tok u hu => by
  dsimp only [surveyRunMsg]
  grind [modPort_capped, modHf_capped]

theorem restoreFactoryMsg_capped : ActCapped restoreFactoryMsg := fun r tok u hu => by
  dsimp only [restoreFactoryMsg]
  grind [raise_capped, modHf_capped]

theorem surveyStatusMsg_capped : ActCapped surveyStatusMsg := fun _ _ _ hu => hu

/-! ### The operations of Machine/Security.lean -/

theorem attestationMsg_capped : ActCapped attestationMsg := fun r tok u hu => by
  dsimp only [attestationMsg]
  grind [drawOne_capped, writeBulk_capped]

theorem certificateMsg_capped : ActCapped certificateMsg := fun r tok u hu => by
  dsimp only [certificateMsg]
  grind [writeBulk_capped]

theorem keyInstallMsg_capped : ActCapped keyInstallMsg := fun r tok u hu => by
  dsimp only [keyInstallMsg]
  grind [queueOtp_capped]

theorem keyRevokeMsg_capped : ActCapped keyRevokeMsg := fun r tok u hu => by
  dsimp only [keyRevokeMsg]
  grind [queueOtp_capped]

theorem debugUnlockMsg_capped : ActCapped debugUnlockMsg := fun r tok u hu => by
  dsimp only [debugUnlockMsg]
  grind [queueOtp_capped]

/-! ### The operations of Machine/Errors.lean -/

theorem errorQueueStatusMsg_capped : ActCapped errorQueueStatusMsg := fun r tok u hu => by
  dsimp only [errorQueueStatusMsg]
  grind [modErr_capped]

/-! ### The operations of Machine/Admission.lean -/

theorem admissionReportMsg_capped : ActCapped admissionReportMsg := fun r tok u hu => by
  dsimp only [admissionReportMsg]
  grind

/-! ### The operations of Machine/Devicemsgs.lean -/

theorem settingsWriteMsg_capped : ActCapped settingsWriteMsg := fun r tok u hu => by
  dsimp only [settingsWriteMsg]
  grind [changeSettings_capped]

theorem settingsReadMsg_capped : ActCapped settingsReadMsg := fun r tok u hu => by
  dsimp only [settingsReadMsg]
  grind

theorem profileSelectMsg_capped : ActCapped profileSelectMsg := fun r tok u hu => by
  dsimp only [profileSelectMsg]
  grind [capped_fields, changeSettings_capped]

theorem deviceStatusMsg_capped : ActCapped deviceStatusMsg := fun _ _ _ hu => hu

theorem restartMsg_capped : ActCapped restartMsg := fun r tok u hu => by
  dsimp only [restartMsg]
  grind [restartDevice_capped]

/-! ### The operations of Machine/Power.lean -/

theorem powerStatusMsg_capped : ActCapped powerStatusMsg := fun r tok u hu => by
  dsimp only [powerStatusMsg]
  grind

theorem powerStateMsg_capped : ActCapped powerStateMsg := fun r tok u hu => by
  dsimp only [powerStateMsg]
  grind [beginSuspend_capped, resume_capped]

/-! ### The index of the messages -/

/-- Every message an entry of the index may give keeps the capacities. -/
def AllCapped (o : Option MsgDef) : Prop := ∀ x ∈ o, ActCapped x

theorem allCapped_none : AllCapped none := fun _ h => by cases h

/-- A code of one message, before the rest of the index. -/
theorem allCapped_code {c : Prop} [Decidable c] {d : MsgDef} {o : Option MsgDef} (hd : ActCapped d) (ho : AllCapped o) :
    AllCapped (if c then some d else o) := by
  split
  · intro x h
    cases h
    exact hd
  · exact ho

/-- The codes of a family of messages, before the rest of the index. -/
theorem allCapped_fam {c : Prop} [Decidable c] {n k : Nat} {f : Nat → MsgDef} {o : Option MsgDef} (hf : ∀ i, ActCapped (f i))
    (ho : AllCapped o) : AllCapped (if c then fam n k f else o) := by
  split
  · exact allCapped_code (hf k) allCapped_none
  · exact ho

theorem msgs01_capped (c : Nat) : AllCapped (msgs01 c) := by
  unfold msgs01
  exact allCapped_code deviceStatusMsg_capped <| allCapped_code profileSelectMsg_capped <| allCapped_code restartMsg_capped <|
    allCapped_code settingsWriteMsg_capped <| allCapped_code settingsReadMsg_capped <|
    allCapped_code admissionReportMsg_capped <| allCapped_none

theorem msgs02_capped (c : Nat) : AllCapped (msgs02 c) := by
  unfold msgs02
  exact allCapped_fam portStatusMsg_capped <| allCapped_fam retrainMsg_capped <| allCapped_fam sensorWriteMsg_capped <|
    allCapped_none

theorem msgs03_capped (c : Nat) : AllCapped (msgs03 c) := by
  unfold msgs03
  exact allCapped_fam seamStatusMsg_capped <| allCapped_none

theorem msgs04_capped (c : Nat) : AllCapped (msgs04 c) := by
  unfold msgs04
  exact allCapped_code (frontEndStatusMsg_capped _) <| allCapped_code (aditStatusMsg_capped _) <|
    allCapped_code (aditReadMsg_capped _) <| allCapped_none

theorem msgs05_capped (c : Nat) : AllCapped (msgs05 c) := by
  unfold msgs05
  exact allCapped_fam tapStatusMsg_capped <| allCapped_fam lutLoadMsg_capped <| allCapped_none

theorem msgs06_capped (c : Nat) : AllCapped (msgs06 c) := by
  unfold msgs06
  exact allCapped_code (statisticsFetchMsg_capped _) <| allCapped_code (loopStatusMsg_capped _) <|
    allCapped_code lockBroadcastMsg_capped <| allCapped_none

theorem msgs07_capped (c : Nat) : AllCapped (msgs07 c) := by
  unfold msgs07
  exact allCapped_code compressorStatusMsg_capped <| allCapped_code (aditCompressionMsg_capped _) <| allCapped_none

theorem msgs08_capped (c : Nat) : AllCapped (msgs08 c) := by
  unfold msgs08
  exact allCapped_code (streamStatusMsg_capped _) <| allCapped_code (bitstreamReadMsg_capped _) <|
    allCapped_code (bitstreamWriteMsg_capped _) <| allCapped_code (forceIdrMsg_capped _) <|
    allCapped_code (decoderFlushMsg_capped _) <| allCapped_none

theorem msgs09_capped (c : Nat) : AllCapped (msgs09 c) := by
  unfold msgs09
  exact allCapped_code recorderStatusMsg_capped <| allCapped_code recordStartMsg_capped <|
    allCapped_code recordStopMsg_capped <| allCapped_code clipQueryMsg_capped <| allCapped_code formatVolumeMsg_capped <|
    allCapped_code deleteClipMsg_capped <| allCapped_code playbackStartMsg_capped <| allCapped_code playbackStopMsg_capped <|
    allCapped_code playbackStatusMsg_capped <| allCapped_none

theorem msgs0A_capped (c : Nat) : AllCapped (msgs0A c) := by
  unfold msgs0A
  exact allCapped_code endpointStatusMsg_capped <| allCapped_none

theorem msgs0B_capped (c : Nat) : AllCapped (msgs0B c) := by
  unfold msgs0B
  exact allCapped_code (laneMsg_capped _) <| allCapped_none

theorem msgs0C_capped (c : Nat) : AllCapped (msgs0C c) := by
  unfold msgs0C
  exact allCapped_fam linkStatusMsg_capped <| allCapped_fam linkRetrainMsg_capped <| allCapped_none

theorem msgs0D_capped (c : Nat) : AllCapped (msgs0D c) := by
  unfold msgs0D
  exact allCapped_code (sdiStatusMsg_capped _) <| allCapped_code (macStatusMsg_capped _) <|
    allCapped_code (senderStatusMsg_capped _) <| allCapped_none

theorem msgs0E_capped (c : Nat) : AllCapped (msgs0E c) := by
  unfold msgs0E
  exact allCapped_code timeStatusMsg_capped <| allCapped_code (ptpPortStatusMsg_capped _) <|
    allCapped_code arrayLockMsg_capped <| allCapped_code arrayUnlockMsg_capped <| allCapped_code scheduleMsg_capped <|
    allCapped_code cancelMsg_capped <| allCapped_none

theorem msgs0F_capped (c : Nat) : AllCapped (msgs0F c) := by
  unfold msgs0F
  exact allCapped_code islandStatusMsg_capped <| allCapped_code recordReadMsg_capped <| allCapped_code islandCertMsg_capped <|
    allCapped_code verifyCalMsg_capped <| allCapped_code signNowMsg_capped <| allCapped_code islandSettingsMsg_capped <|
    allCapped_none

theorem msgs10_capped (c : Nat) : AllCapped (msgs10 c) := by
  unfold msgs10
  exact allCapped_code redundancyStatusMsg_capped <| allCapped_code plannedSwitchOverMsg_capped <|
    allCapped_code headPrimaryStatusMsg_capped <| allCapped_code claimVerdictMsg_capped <| allCapped_none

theorem msgs11_capped (c : Nat) : AllCapped (msgs11 c) := by
  unfold msgs11
  exact allCapped_code (viewfinderStatusMsg_capped _) <| allCapped_code (overlayWriteMsg_capped _) <|
    allCapped_code (refreshMsg_capped _) <| allCapped_none

theorem msgs12_capped (c : Nat) : AllCapped (msgs12 c) := by
  unfold msgs12
  exact allCapped_code (audioStatusMsg_capped _) <| allCapped_code (startStopMsg_capped _) <|
    allCapped_code (blockWriteMsg_capped _) <| allCapped_none

theorem msgs13_capped (c : Nat) : AllCapped (msgs13 c) := by
  unfold msgs13
  exact allCapped_code (channelStatusMsg_capped _) <| allCapped_none

theorem msgs14_capped (c : Nat) : AllCapped (msgs14 c) := by
  unfold msgs14
  exact allCapped_code mailboxStatusMsg_capped <| allCapped_code nonceMsg_capped <| allCapped_code bulkWindowMsg_capped <|
    allCapped_none

theorem msgs15_capped (c : Nat) : AllCapped (msgs15 c) := by
  unfold msgs15
  exact allCapped_code eventLogReadMsg_capped <| allCapped_code errorQueueStatusMsg_capped <|
    allCapped_code surveyRunMsg_capped <| allCapped_code restoreFactoryMsg_capped <| allCapped_code surveyStatusMsg_capped <|
    allCapped_code updateBeginMsg_capped <| allCapped_code updateDataMsg_capped <| allCapped_code updateCommitMsg_capped <|
    allCapped_code updateStatusMsg_capped <| allCapped_code updateAbortMsg_capped <| allCapped_none

theorem msgs16_capped (c : Nat) : AllCapped (msgs16 c) := by
  unfold msgs16
  exact allCapped_code attestationMsg_capped <| allCapped_code certificateMsg_capped <| allCapped_code keyInstallMsg_capped <|
    allCapped_code keyRevokeMsg_capped <| allCapped_code debugUnlockMsg_capped <| allCapped_none

theorem msgs17_capped (c : Nat) : AllCapped (msgs17 c) := by
  unfold msgs17
  exact allCapped_code powerStatusMsg_capped <| allCapped_code powerStateMsg_capped <| allCapped_none

/-- The effect of every message keeps the capacities. -/
theorem msgDef_capped (c : Nat) : AllCapped (msgDef c) := by
  unfold msgDef
  split
  · exact msgs01_capped c
  · exact msgs02_capped c
  · exact msgs03_capped c
  · exact msgs04_capped c
  · exact msgs05_capped c
  · exact msgs06_capped c
  · exact msgs07_capped c
  · exact msgs08_capped c
  · exact msgs09_capped c
  · exact msgs0A_capped c
  · exact msgs0B_capped c
  · exact msgs0C_capped c
  · exact msgs0D_capped c
  · exact msgs0E_capped c
  · exact msgs0F_capped c
  · exact msgs10_capped c
  · exact msgs11_capped c
  · exact msgs12_capped c
  · exact msgs13_capped c
  · exact msgs14_capped c
  · exact msgs15_capped c
  · exact msgs16_capped c
  · exact msgs17_capped c
  · exact allCapped_none

/-! ### The operations of Machine/Messages.lean -/

section
variable {s : State} (hs : Capped s)
include hs

theorem runRow_capped (mine : Req → Bool) (c : Nat) : CappedRes (runRow mine c s) :=
  cappedRes_next (runHead_capped hs msgDef_capped ..)

theorem execTokenPart_capped (c : Nat) : CappedRes (execTokenPart c s) := by
  unfold execTokenPart
  extract_lets t
  have ht : Capped t := screen_capped hs ..
  refine cappedRes_next ?_
  split
  · exact capped_ite (screen_capped (takePart_capped (popMsg_capped ht ..) msgDef_capped _) ..) ht
  · exact ht

theorem runPriv_capped (k c : Nat) : CappedRes (runPriv k c s) := by
  unfold runPriv
  split
  · exact execTokenPart_capped hs _
  · exact runRow_capped hs _ _

end

/-! ### The operations of Machine/Relay.lean -/

section
variable {s : State} (hs : Capped s)
include hs

theorem refuseUdp_capped (p : Path) (c : Nat) (ws : List Word) : Capped (refuseUdp p c ws s) := by
  grind [refuseUdp, raise_capped, deliver_capped]

theorem execMailboxDatagram_capped (mac ip port c : Nat) (words : List Word) :
    CappedRes (execMailboxDatagram mac ip port c words s) := by
  grind [execMailboxDatagram, cappedRes_next, raise_capped, enqueue_capped, modMbx_capped, refuseUdp_capped]

theorem execArrayDatagram_capped (mac : Nat) (pre words : List Word) : CappedRes (execArrayDatagram mac pre words s) :=
  cappedRes_next (capped_ite hs (capped_ite (runReq_capped hs (msgDef_capped _) ..) (raise_capped (modTime_capped hs ..) ..)))

theorem runEntryMsg_capped (e : Sched) : Capped (runEntryMsg e s) := by
  unfold runEntryMsg
  extract_lets r d t
  have ht : Capped t := endSeq_capped hs ..
  have hr : Capped (runReq d r none t).2 := runReq_capped ht (msgDef_capped _) ..
  dsimp only
  split
  · exact raise_capped (answer_capped hr ..) ..
  · exact answer_capped hr ..

theorem execScheduledCommandDue_capped : CappedRes (execScheduledCommandDue s) := by
  grind [execScheduledCommandDue, cappedRes_next, raise_capped, modTime_capped, runEntryMsg_capped]

end

/-! ### Every command and every step -/

/-- Every command keeps the capacities. -/
theorem exec_capped {s : State} (hs : Capped s) (i : Instr) : CappedRes (exec i s) := by
  cases i with
  | reset => exact execReset_capped
  | resetRelease _ => exact execResetRelease_capped hs _
  | startUp _ _ => exact execStartUp_capped hs _ _
  | roleStart => exact execRoleStart_capped hs
  | portBringUp _ _ => exact execPortBringUp_capped hs _ _
  | sensorClockTimeout _ => exact execSensorClockTimeout_capped hs _
  | frameStart _ _ => exact execFrameStart_capped hs _ _
  | lineStart _ _ _ => exact execLineStart_capped hs _ _ _
  | lineEnd _ _ _ _ => exact execLineEnd_capped hs _ _ _ _
  | frameEnd _ _ => exact execFrameEnd_capped hs _ _
  | sensorClockLoss _ => exact execSensorClockLoss_capped hs _
  | sensorClockReturn _ => exact execSensorClockReturn_capped hs _
  | sensorClockAbsentExpiry _ => exact execSensorClockAbsentExpiry_capped hs _
  | deskewUpdate _ => exact execDeskewUpdate_capped hs _
  | blankingWindowOpen _ => exact execBlankingWindowOpen_capped hs _
  | scriptEntryComplete _ _ => exact execScriptEntryComplete_capped hs _ _
  | controlBusTimeout _ => exact execControlBusTimeout_capped hs _
  | trigger _ => exact execTrigger_capped hs _
  | triggerPulseEnd _ => exact execTriggerPulseEnd_capped hs _
  | outputReadback _ _ => exact execOutputReadback_capped hs _ _
  | scheduleRebase _ => exact execScheduleRebase_capped hs _
  | unitStart => exact execUnitStart_capped hs
  | unitEnd => exact execUnitEnd_capped hs
  | sourceAbsentExpiry _ => exact execSourceAbsentExpiry_capped hs _
  | exposureDecision _ => exact execExposureDecision_capped hs _
  | whiteBalanceDecision _ => exact execWhiteBalanceDecision_capped hs _
  | lockBroadcast _ => exact runRow_capped hs _ _
  | leaderSilentExpiry _ => exact execLeaderSilentExpiry_capped hs _
  | aditHoldExpiry _ => exact execAditHoldExpiry_capped hs _
  | blockDeal => exact execBlockDeal_capped hs
  | blockDone _ _ => exact execBlockDone_capped hs _ _
  | pixelEngineUnit => exact execPixelEngineUnit_capped hs
  | entropyEngineUnit => exact execEntropyEngineUnit_capped hs
  | encodePictureBegin _ => exact execEncodePictureBegin_capped hs _
  | decodeTime _ => exact execDecodeTime_capped hs _
  | accessUnitTimeout _ => exact execAccessUnitTimeout_capped hs _
  | decodedPictureOutput _ => exact execDecodedPictureOutput_capped hs _
  | recordUnitComplete _ => exact execRecordUnitComplete_capped hs _
  | ssdCommandCompletion _ _ _ => exact execSsdCommandCompletion_capped hs _ _ _
  | ssdCommandTimeout _ _ => exact execSsdCommandTimeout_capped hs _ _
  | ssdAbortExpiry _ _ => exact execSsdAbortExpiry_capped hs _ _
  | ssdResetExpiry _ => exact execSsdResetExpiry_capped hs _
  | durabilityPoint => exact execDurabilityPoint_capped hs
  | playbackReadComplete _ _ => exact execPlaybackReadComplete_capped hs _ _
  | commandFetch => exact execCommandFetch_capped hs
  | rangeLockBegin _ => exact execRangeLockBegin_capped hs _
  | deleteIoSq _ => exact execDeleteIoSq_capped hs _
  | createIoSq _ => exact execCreateIoSq_capped hs _
  | getLogPage _ => exact execGetLogPage_capped hs _
  | deleteIoCq _ => exact execDeleteIoCq_capped hs _
  | createIoCq _ => exact execCreateIoCq_capped hs _
  | identify _ => exact execIdentify_capped hs _
  | abort _ => exact execAbort_capped hs _
  | setFeatures _ => exact execSetFeatures_capped hs _
  | getFeatures _ => exact execGetFeatures_capped hs _
  | asynchronousEventRequest _ => exact execAsynchronousEventRequest_capped hs _
  | deviceSelfTest _ => exact execDeviceSelfTest_capped hs _
  | selfTestStep _ => exact execSelfTestStep_capped hs _
  | flush _ => exact execFlush_capped hs _
  | write _ _ => exact execWrite_capped hs _ _
  | read _ => exact execRead_capped hs _
  | writeZeroes _ => exact execWriteZeroes_capped hs _
  | hostCqTimeout _ => exact execHostCqTimeout_capped hs _
  | controllerDisable => exact execControllerDisable_capped hs
  | controllerShutdown => exact execControllerShutdown_capped hs
  | pcieLinkLoss => exact execPcieLinkLoss_capped hs
  | post _ _ => exact execPost_capped hs _ _
  | ack _ _ => exact execAck_capped hs _ _
  | registerWrite _ _ _ => exact execRegisterWrite_capped hs _ _ _
  | mailboxDatagram _ _ _ _ _ => exact execMailboxDatagram_capped hs _ _ _ _ _
  | arrayDatagram _ _ _ => exact execArrayDatagram_capped hs _ _ _
  | ethernetFrameReceive _ _ => exact execEthernetFrameReceive_capped hs _ _
  | macLinkDown _ => exact execMacLinkDown_capped hs _
  | replyHoldExpiry _ _ => exact execReplyHoldExpiry_capped hs _ _
  | tokenSequenceTimeout _ _ => exact execTokenSequenceTimeout_capped hs _ _
  | bulkWindowHoldExpiry => exact execBulkWindowHoldExpiry_capped hs
  | updateSessionTimeout => exact execUpdateSessionTimeout_capped hs
  | deviceStatus _ => exact runRow_capped hs _ _
  | profileSelect _ => exact runPriv_capped hs _ _
  | restart _ => exact runPriv_capped hs _ _
  | settingsWrite _ => exact runPriv_capped hs _ _
  | settingsRead _ => exact runRow_capped hs _ _
  | admissionReport _ => exact runRow_capped hs _ _
  | portStatus _ => exact runRow_capped hs _ _
  | retrain _ => exact runRow_capped hs _ _
  | sensorWrite _ => exact runRow_capped hs _ _
  | seamStatus _ => exact runRow_capped hs _ _
  | frontEndStatus _ => exact runRow_capped hs _ _
  | statisticsFetch _ => exact runRow_capped hs _ _
  | tapStatus _ => exact runRow_capped hs _ _
  | lutLoad _ => exact runRow_capped hs _ _
  | aditStatus _ => exact runRow_capped hs _ _
  | aditRead _ => exact runRow_capped hs _ _
  | loopStatus _ => exact runRow_capped hs _ _
  | compressorStatus _ => exact runRow_capped hs _ _
  | aditCompressionStatus _ => exact runRow_capped hs _ _
  | streamStatus _ => exact runRow_capped hs _ _
  | bitstreamRead _ => exact runRow_capped hs _ _
  | bitstreamWrite _ => exact runRow_capped hs _ _
  | forceIdr _ => exact runRow_capped hs _ _
  | decoderFlush _ => exact runRow_capped hs _ _
  | recorderStatus _ => exact runRow_capped hs _ _
  | recordStart _ => exact runRow_capped hs _ _
  | recordStop _ => exact runRow_capped hs _ _
  | clipQuery _ => exact runRow_capped hs _ _
  | formatVolume _ => exact runPriv_capped hs _ _
  | deleteClip _ => exact runPriv_capped hs _ _
  | playbackStart _ => exact runRow_capped hs _ _
  | playbackStop _ => exact runRow_capped hs _ _
  | playbackStatus _ => exact runRow_capped hs _ _
  | endpointStatus _ => exact runRow_capped hs _ _
  | laneStatus _ => exact runRow_capped hs _ _
  | scanStart _ => exact runRow_capped hs _ _
  | scanRead _ => exact runRow_capped hs _ _
  | scanStop _ => exact runRow_capped hs _ _
  | testSetUp _ => exact runRow_capped hs _ _
  | bitSlip _ => exact runRow_capped hs _ _
  | checkerRead _ => exact runRow_capped hs _ _
  | scanPointComplete _ _ => exact execScanPointComplete_capped hs _ _
  | laneBringUp _ _ => exact execLaneBringUp_capped hs _ _
  | lanePllLock _ _ => exact execLanePllLock_capped hs _ _
  | lanePllLoss _ _ => exact execLanePllLoss_capped hs _ _
  | lanePllRelock _ _ _ => exact execLanePllRelock_capped hs _ _ _
  | signalDetect _ => exact execSignalDetect_capped hs _
  | dfeUpdate _ _ _ => exact execDfeUpdate_capped hs _ _ _
  | ctleUpdate _ _ _ _ => exact execCtleUpdate_capped hs _ _ _ _
  | adaptationAtLimit _ => exact execAdaptationAtLimit_capped hs _
  | transmitterLegFault _ _ => exact execTransmitterLegFault_capped hs _ _
  | lossOfSignal _ => exact execLossOfSignal_capped hs _
  | commonModeFault _ => exact execCommonModeFault_capped hs _
  | transmitterRetry _ => exact execTransmitterRetry_capped hs _
  | linkBringUp _ => exact execLinkBringUp_capped hs _
  | trainingBlock _ _ _ _ _ => exact execTrainingBlock_capped hs _ _ _ _ _
  | trainingStepTimeout _ => exact execTrainingStepTimeout_capped hs _
  | alignmentBlock _ _ _ _ _ _ => exact execAlignmentBlock_capped hs _ _ _ _ _ _
  | uncorrectableLimit _ => exact execUncorrectableLimit_capped hs _
  | elasticFifoOverflow _ => exact execElasticFifoOverflow_capped hs _
  | stuffingAllowanceExceeded _ => exact execStuffingAllowanceExceeded_capped hs _
  | cellSlot _ => exact execCellSlot_capped hs _
  | pixelCell _ _ _ => exact execPixelCell_capped hs _ _ _
  | creditCell _ _ _ => exact execCreditCell_capped hs _ _ _
  | creditCellTimer _ => exact execCreditCellTimer_capped hs _
  | creditStarvation _ _ => exact execCreditStarvation_capped hs _ _
  | capabilityCell _ _ _ => exact execCapabilityCell_capped hs _ _ _
  | capabilityRefuseExpiry _ => exact execCapabilityRefuseExpiry_capped hs _
  | linkRetrainCommand _ => exact execLinkRetrainCommand_capped hs _
  | step _ _ => exact execStep_capped hs _ _
  | stepAck _ => exact execStepAck_capped hs _
  | stepRefuse _ => exact execStepRefuse_capped hs _
  | rateStepExpiry _ => exact execRateStepExpiry_capped hs _
  | controlMessage _ _ => exact execControlMessage_capped hs _ _
  | controlAckTimeout _ => exact execControlAckTimeout_capped hs _
  | streamAnnounceTimer _ => exact execStreamAnnounceTimer_capped hs _
  | timeCellTimer _ => exact execTimeCellTimer_capped hs _
  | timeCell _ _ _ => exact execTimeCell_capped hs _ _ _
  | todTick _ => exact execTodTick_capped hs _
  | ptpSync _ _ => exact execPtpSync_capped hs _ _
  | ptpAnnounce _ _ => exact execPtpAnnounce_capped hs _ _
  | ptpDelayReq _ _ => exact execPtpDelayReq_capped hs _ _
  | ptpDelayResp _ _ => exact execPtpDelayResp_capped hs _ _
  | ptpSendTimer _ _ => exact execPtpSendTimer_capped hs _ _
  | timeSourceTimeout => exact execTimeSourceTimeout_capped hs
  | timeStatus _ => exact runRow_capped hs _ _
  | ptpPortStatus _ => exact runRow_capped hs _ _
  | arrayLock _ => exact runPriv_capped hs _ _
  | arrayUnlock _ => exact runPriv_capped hs _ _
  | schedule _ => exact runRow_capped hs _ _
  | cancel _ => exact runRow_capped hs _ _
  | scheduledCommandDue => exact execScheduledCommandDue_capped hs
  | strobeEdge _ _ _ => exact execStrobeEdge_capped hs _ _ _
  | ppsInEdge _ => exact execPpsInEdge_capped hs _
  | ppsOutSecond => exact execPpsOutSecond_capped hs
  | islandSignature => exact execIslandSignature_capped hs
  | islandStatus _ => exact runRow_capped hs _ _
  | recordRead _ => exact runRow_capped hs _ _
  | islandCertificateRead _ => exact runRow_capped hs _ _
  | verifyCalibration _ => exact runRow_capped hs _ _
  | signNow _ => exact runRow_capped hs _ _
  | islandSettings _ => exact runPriv_capped hs _ _
  | heartbeatTimer => exact execHeartbeatTimer_capped hs
  | heartbeat _ => exact execHeartbeat_capped hs _
  | heartbeatTimeout => exact execHeartbeatTimeout_capped hs
  | stateCopy _ => exact execStateCopy_capped hs _
  | failing _ => exact execFailing_capped hs _
  | handover _ => exact execHandover_capped hs _
  | resync _ => exact execResync_capped hs _
  | claimVerdict _ => exact runRow_capped hs _ _
  | claimRepeatTimer => exact execClaimRepeatTimer_capped hs
  | primaryLinkInactiveExpiry => exact execPrimaryLinkInactiveExpiry_capped hs
  | startWaitExpiry => exact execStartWaitExpiry_capped hs
  | linkReactivated _ => exact execLinkReactivated_capped hs _
  | switchOverFallbackExpiry => exact execSwitchOverFallbackExpiry_capped hs
  | redundancyStatus _ => exact runRow_capped hs _ _
  | plannedSwitchOver _ => exact runPriv_capped hs _ _
  | headPrimaryStatus _ => exact runRow_capped hs _ _
  | outputFrameSelect _ => exact execOutputFrameSelect_capped hs _
  | outputFrameStart _ _ => exact execOutputFrameStart_capped hs _ _
  | audioPacketTimer _ => exact execAudioPacketTimer_capped hs _
  | sdiStatus _ => exact runRow_capped hs _ _
  | macStatus _ => exact runRow_capped hs _ _
  | senderStatus _ => exact runRow_capped hs _ _
  | teEdge _ _ => exact execTeEdge_capped hs _ _
  | teAbsentExpiry _ => exact execTeAbsentExpiry_capped hs _
  | panelTimer _ _ => exact execPanelTimer_capped hs _ _
  | blankExpiry _ => exact execBlankExpiry_capped hs _
  | viewfinderStatus _ => exact runRow_capped hs _ _
  | overlayWrite _ => exact runRow_capped hs _ _
  | refresh _ => exact runRow_capped hs _ _
  | audioBlockTake _ => exact execAudioBlockTake_capped hs _
  | audioBlockPresent _ => exact execAudioBlockPresent_capped hs _
  | audioInputBlock _ _ _ => exact execAudioInputBlock_capped hs _ _ _
  | audioStopComplete _ => exact execAudioStopComplete_capped hs _
  | slaveClockFault _ => exact execSlaveClockFault_capped hs _
  | slaveClockReturn _ => exact execSlaveClockReturn_capped hs _
  | audioStatus _ => exact runRow_capped hs _ _
  | startAndStop _ => exact runRow_capped hs _ _
  | blockWrite _ => exact runRow_capped hs _ _
  | dramRequest _ _ _ _ => exact execDramRequest_capped hs _ _ _ _
  | dramRequestComplete _ _ _ => exact execDramRequestComplete_capped hs _ _ _
  | mr4Poll _ _ => exact execMr4Poll_capped hs _ _
  | refreshDue _ => exact execRefreshDue_capped hs _
  | activateThreshold _ => exact execActivateThreshold_capped hs _
  | scrubStep _ _ => exact execScrubStep_capped hs _ _
  | delayUpdate _ => exact execDelayUpdate_capped hs _
  | channelStatus _ => exact runRow_capped hs _ _
  | mailboxStatus _ => exact runRow_capped hs _ _
  | nonce _ => exact runRow_capped hs _ _
  | bulkWindowClaim _ => exact runRow_capped hs _ _
  | bulkWindowRelease _ => exact runRow_capped hs _ _
  | tokenPart _ => exact execTokenPart_capped hs _
  | eventLogRead _ => exact runRow_capped hs _ _
  | errorQueueStatus _ => exact runRow_capped hs _ _
  | surveyRun _ => exact runRow_capped hs _ _
  | surveyItemComplete _ _ => exact execSurveyItemComplete_capped hs _ _
  | restoreFactory _ => exact runPriv_capped hs _ _
  | surveyStatus _ => exact runRow_capped hs _ _
  | updateBegin _ => exact runPriv_capped hs _ _
  | updateData _ => exact runRow_capped hs _ _
  | updateCommit _ => exact runRow_capped hs _ _
  | updateWriteComplete _ => exact execUpdateWriteComplete_capped hs _
  | updateStatus _ => exact runRow_capped hs _ _
  | updateAbort _ => exact runRow_capped hs _ _
  | bootConfirmation => exact execBootConfirmation_capped hs
  | attestationReport _ => exact runRow_capped hs _ _
  | certificateRead _ => exact runRow_capped hs _ _
  | ownerKeyInstall _ => exact runPriv_capped hs _ _
  | ownerKeyRevoke _ => exact runPriv_capped hs _ _
  | debugUnlock _ => exact runPriv_capped hs _ _
  | powerStatus _ => exact runRow_capped hs _ _
  | suspend _ => exact runRow_capped hs _ _
  | resume _ => exact runRow_capped hs _ _
  | sensorSample _ _ _ => exact execSensorSample_capped hs _ _ _
  | supplyOutOfLimits _ _ => exact execSupplyOutOfLimits_capped hs _ _
  | hardwareThermalTrip => exact execHardwareThermalTrip_capped
  | hardwareThermalTripClear => exact execHardwareThermalTripClear_capped hs
  | coreWatchdogExpiry _ => exact execCoreWatchdogExpiry_capped hs _
  | headframeWatchdogExpiry => exact execHeadframeWatchdogExpiry_capped hs
  | eventLogProgram _ => exact execEventLogProgram_capped hs _
  | errorDetected _ _ _ => exact execErrorDetected_capped hs _ _ _
  | errorAction _ => exact execErrorAction_capped hs _
  | i2cBusStuck _ => exact execI2cBusStuck_capped hs _
  | pmbusPoll _ => exact execPmbusPoll_capped hs _
  | linkStatus _ => exact runRow_capped hs _ _
  | linkRetrain _ => exact runRow_capped hs _ _
  | ptpFollowUp _ _ => exact execPtpFollowUp_capped hs _ _
  | pcieCompletionTimeout _ => exact execPcieCompletionTimeout_capped hs _
  | controllerEnable _ _ => exact execControllerEnable_capped hs _ _
  | doorbellWrite _ _ _ _ => exact execDoorbellWrite_capped hs _ _ _ _
  | pcieLinkUp _ _ => exact execPcieLinkUp_capped hs _ _
  | macLinkUp _ => exact execMacLinkUp_capped hs _
  | laneFaultEnd _ _ => exact execLaneFaultEnd_capped hs _ _
  | receiverDetectionRetry _ => exact execReceiverDetectionRetry_capped hs _
  | vddAonLoss => exact execVddAonLoss_capped
  | bootNvmTimeout _ => exact execBootNvmTimeout_capped hs _
  | bulkWindowWrite _ _ _ => exact execBulkWindowWrite_capped hs _ _ _
  | wakeComplete _ => exact execWakeComplete_capped hs _
  | otpWriteComplete _ => exact execOtpWriteComplete_capped hs _

theorem step_capped {s t : State} (hs : Capped s) (h : step s = .next t) : Capped t := by
  unfold step at h
  split at h
  · cases h
    exact hs
  next rest _ => exact exec_capped (s := { s with pending := rest }) hs _ t h

/-- A step keeps the canonical form of DRAM. -/
theorem step_wf {s t : State} (hwf : Memory.wf s.dram.mem = true) (h : step s = .next t) : Memory.wf t.dram.mem = true := by
  cases hq : s.pending with
  | nil =>
    cases (idleOnEmptyQueue s hq).symm.trans h
    exact hwf
  | cons c rest => exact (step_sound hq h).wf hwf

/-- Settles O4: what a step does to DRAM keeps its canonical form, and every command keeps the capacities, since only an error that is
raised adds to the error queue and to the log, and `raise_capped` holds. -/
theorem stepKeepsInv : Obligations.StepKeepsInv := by
  rintro s t ⟨hwf, hcaps⟩ h
  exact ⟨step_wf hwf h, step_capped hcaps h⟩

end Sys2Proof.Proofs
